-- ==== Sys2Proof/Word.lean ====
section
/-!
DEFINITION. The words the DZ8512's manual works in, and nothing else.
-/

namespace Sys2Proof

/-- A byte of memory or of a line (R10, R11). -/
abbrev Byte := BitVec 8

/-- A CSR, a Dray scalar register, a local-memory word: 32 bits. -/
abbrev Word := BitVec 32

/-- A 64-bit value (R43). -/
abbrev DWord := BitVec 64

/-- A beat number (R50): 48 bits, wraps. -/
abbrev Beat := BitVec 48

end Sys2Proof
end

