-- ==== Sys2Proof/Syntax.lean ====
section
/-!
DEFINITION. The commands of the DZ8512: one constructor of `Instr` per row of spec/opcode_table.json, and the small types
their operands are made of. A command carries what the outside presents in that step (a requester and a value, the bytes
of a frame, the number a source shows); everything else it needs it reads from the state.
-/

namespace Sys2Proof

/-- Who makes an access (R39, R44, R455): the codes of DECODE_INFO and of the owner table are `Requester.code`. -/
inductive Requester where
  | dray (k : Fin 32)
  | ymE
  | ymW
  | host
  | debug
  | peer (device : Nat)
deriving DecidableEq, Repr

/-- What the mate says of itself while a Twin pair binds (R272): its device ID and the device its MATE_ID names, whether its
firmware and stable kernels are this device's, its generation and digest, its path, whether it takes the lead, whether it is
LEAD already, whether it holds this device's pairing secret, and the value it has drawn (R273). -/
structure Mate where
  id : Nat
  names : Nat
  sameFirmware : Bool
  gen : Nat
  digest : Nat
  path : Bool
  leads : Bool
  standing : Bool
  holdsSecret : Bool
  value : DWord
deriving DecidableEq, Repr

/-- What a beat boundary of a position source presents (R51, R54, R60): the beat number it shows, the MFAS of a LINE
source, the POS_DATA_IN word that named it, whether the lead port holds frame alignment, how far the boundary lies from
the predicted time and how long after the source's previous boundary, both in 2^-16 tick. -/
structure SrcBeat where
  v : Beat
  mfas : BitVec 8
  word : DWord
  aligned : Bool
  off : Int
  period : Nat
deriving DecidableEq, Repr

/-- The head of a Dray op (R395): the core it issues on, E (the last op of its bundle), N, GP; and `frz`, the wall cycles of those
freezes of its bundle whose length the manual leaves open (a table walk, a Paddock read, a line fill, the far-access port; R378). -/
structure OpHead where
  core : Fin 32
  last : Bool
  neg : Bool
  gp : BitVec 3
  frz : Nat
deriving DecidableEq, Repr

/-- A JTAG instruction (R534), the boundary register's levels with PRELOAD, and the factory functions. -/
inductive JtagInstr where
  | bypass
  | idcode
  | samplePreload (levels : List (String × Bool))
  | extest
  | clamp
  | highz
  | extestPulse
  | extestTrain
  | scan
  | memoryBist
  | debugStop (on : Bool)
deriving DecidableEq, Repr


/-- One constructor per row of spec/opcode_table.json, in the table's order. -/
inductive Instr where
  /-- CSR_WRITE (R40). A write to a register that has no row of its own is served and meets same-cycle hardware updates by field kind. -/
  | csrWrite (r : Requester) (o : Nat) (v hm hv : Word) (loftOk : Bool)
  /-- PAIR_LO_READ (R43). A read of a LO register latches the HI value for that requester. -/
  | pairLoRead (r : Requester) (o : Nat)
  /-- PAIR_LO_WRITE (R43). A write of a LO register is staged for that requester without effect. -/
  | pairLoWrite (r : Requester) (o : Nat) (v : Word)
  /-- PAIR_HI_WRITE (R43). A write of a HI register commits HI together with a matching staged LO in one cycle. -/
  | pairHiWrite (r : Requester) (o : Nat) (v hm hv : Word)
  /-- PAIR_ACCESS_64 (R43). A 64-bit access at LO reads or writes the whole pair in one cycle. -/
  | pairAccess64 (r : Requester) (o : Nat) (write : Option DWord) (hm hv : DWord)
  /-- DEBUG_PEEK (R46). A debug read returns a value or queue head without clearing or removal. -/
  | debugPeek (o : Nat)
  /-- SOURCE_BEAT_BOUNDARY (R60). A boundary of the selected position source arrives and is judged valid or invalid. -/
  | sourceBeatBoundary (background : Bool) (b : SrcBeat)
  /-- BEAT_WINDOW_CLOSE (R60). The window of a predicted beat closes without a valid boundary and the unit issues its own boundary. -/
  | beatWindowClose
  /-- OWN_BEAT_BOUNDARY (R58). In FREE or HOLDOVER the unit's tick count reaches a beat and it issues its own boundary. -/
  | ownBeatBoundary
  /-- SOURCE_CHANGEOVER (R57). After a changed source qualifies, the unit changes over at its next boundary and compares beat numbers. -/
  | sourceChangeover (b : SrcBeat)
  /-- HOLDOVER_EXPIRY (R59). HO_MAX milliseconds in HOLDOVER pass and the unit enters FREE. -/
  | holdoverExpiry
  /-- FREQ_ESTIMATE_VALID (R61). After 60 s LOCKED without interruption the frequency estimate becomes valid. -/
  | freqEstimateValid
  /-- POS_CONFIG (R356). YFI command setting source, class, lead port, QUAL, HO_MAX and PPS_DIV. -/
  | posConfig (m : Fin 16) (loftOk : Bool)
  /-- POS_SET_BEAT (R55). POS_HOST_ADJUST action 1 sets the synthetic beat number on HOST. -/
  | posSetBeat (m : Fin 16)
  /-- POS_FREQ_OFFSET (R55). POS_HOST_ADJUST action 2 applies a frequency offset to the synthetic beat. -/
  | posFreqOffset (m : Fin 16)
  /-- POS_PHASE_STEP (R55). POS_HOST_ADJUST action 3 applies a phase step slewed over the following beats. -/
  | posPhaseStep (m : Fin 16)
  /-- POS_GET (R356). YFI command returning the present Yardstamp and position status. -/
  | posGet (m : Fin 16)
  /-- PORT_GROUP_CONFIG (R89). YFI command setting a group's family, reference, lane maps and polarity. -/
  | portGroupConfig (m : Fin 16) (loftOk : Bool)
  /-- PORT_CONFIG (R356). YFI command setting a port's type, FEC, enable and timing fields. -/
  | portConfig (m : Fin 16) (loftOk : Bool)
  /-- PORT_LOS (R105). Loss of signal on a port puts it DOWN within 20 us. -/
  | portLos (k : Fin 72) (cut : Option Nat)
  /-- PORT_LOCK_LOST (R105). Loss of lock or alignment puts an UP port DOWN, or a HOLD port back to ACQUIRE. -/
  | portLockLost (k : Fin 72) (cut : Option Nat)
  /-- PORT_ENTER_ACQUIRE (R105). A DOWN port whose enable, configuration, lanes, shed, reference and signal all hold enters ACQUIRE. -/
  | portEnterAcquire (k : Fin 72)
  /-- AN_COMPLETE (R105). Clause 73 auto-negotiation and link training complete on a port with AN_EN set. -/
  | anComplete (k : Fin 72)
  /-- PORT_LOCK_GAINED (R105). A port in ACQUIRE gains lock and alignment and enters HOLD. -/
  | portLockGained (k : Fin 72)
  /-- PORT_UP_HOLD_EXPIRY (R104). UP_HOLD ms of continuous lock pass and the port enters UP. -/
  | portUpHoldExpiry (k : Fin 72)
  /-- PORT_LOCK_RETRY_EXPIRY (R105). The 1 ms hold after a loss of lock from UP ends. -/
  | portLockRetryExpiry (k : Fin 72)
  /-- PORT_HIBER (R109). Ethernet hi_ber is asserted on a port. -/
  | portHiber (k : Fin 72) (on : Bool)
  /-- PORT_SD (R109). The pre-FEC error ratio over 1 s exceeds the signal-degrade threshold. -/
  | portSd (k : Fin 72) (on : Bool)
  /-- PORT_AIS_RX (R109). ODU-AIS, MS-AIS or AIS-P is received on a port. -/
  | portAisRx (k : Fin 72) (on : Bool)
  /-- PORT_REMOTE (R109). A remote fault, BDI or MS-RDI is received on a port. -/
  | portRemote (k : Fin 72) (on : Bool)
  /-- PORT_REFCLK (R100). A SerDes reference is lost and every port clocked from it goes DOWN. -/
  | portRefclk (ref : Fin 4) (present : Bool)
  /-- PARTNER_RETURN (R102). A through-timed port's partner returns to UP and the port slews back to its frequency. -/
  | partnerReturn (k : Fin 64)
  /-- PLAIN_FRAME_RX (R91). An Ethernet frame arrives on a port and is checked for size and FCS. -/
  | plainFrameRx (k : Fin 64) (bytes : List Byte)
  /-- GATE_RUN (R128). A frame whose header is held enters stage 0 of its Gate and runs the program. -/
  | gateRun (g : Fin 8)
  /-- CB_HISTORY_RESET (R161). 1,024 beats pass without a tagged frame and the recovery history is reset. -/
  | cbHistoryReset (n : Fin 512)
  /-- CH_OPEN (R359). YFI command opening a channel from its channel block. -/
  | chOpen (m : Fin 16) (loftOk : Bool)
  /-- CH_CLOSE (R359). YFI command closing a channel at a change beat. -/
  | chClose (m : Fin 16) (loftOk : Bool)
  /-- CH_MODIFY (R357). YFI command changing the named fields of an open channel. -/
  | chModify (m : Fin 16) (loftOk : Bool)
  /-- CH_GET (R359). YFI command returning a channel's state words. -/
  | chGet (m : Fin 16)
  /-- GATE_LOAD (R123). YFI command loading and checking a Gate program into a bank. -/
  | gateLoad (m : Fin 16) (loftOk : Bool)
  /-- GATE_TABLE (R358). YFI command writing Gate table entries one per cycle. -/
  | gateTable (m : Fin 16) (loftOk : Bool)
  /-- GATE_SWITCH (R126). YFI command changing a Gate's enable, active bank and unmatched handling at a change beat. -/
  | gateSwitch (m : Fin 16) (loftOk : Bool)
  /-- PUNT_QUEUE (R359). YFI command setting up or disabling a punt queue. -/
  | puntQueue (m : Fin 16) (loftOk : Bool)
  /-- FRAME_SEND (R359). External YFI command sending a frame in clear on a port. -/
  | frameSend (m : Fin 16)
  /-- CELL_CALENDAR (R359). YFI command writing calendar entries, EN and arming a calendar switch. -/
  | cellCalendar (m : Fin 16) (loftOk : Bool)
  /-- CH_CUSTOMER (R359). YFI command writing a channel's customer words. -/
  | chCustomer (m : Fin 16) (loftOk : Bool)
  /-- CHANGE_BEAT_APPLY (R113). A channel change named for beat B applies to the first unit stamped at or after B. -/
  | changeBeatApply
  /-- CLOSING_DRAINED (R112). Every accepted unit of a CLOSING channel has left and it enters CLOSED. -/
  | closingDrained (n : Fin 512)
  /-- CLOSING_TIMEOUT (R112). 100 us pass in CLOSING; held units are discarded and the channel enters CLOSED. -/
  | closingTimeout (n : Fin 512)
  /-- RAIL_BLOCK_COMPUTE (R572). A rail of the unit's direction computes and checks one block of a unit. -/
  | railBlockCompute (i : Nat) (fault : Bool)
  /-- CIPHER_TX_START (R149). At a frame boundary the cipher port starts its next unit by precedence. -/
  | cipherTxStart (c : Fin 32)
  /-- UNIT_EGRESS_DONE (R131). A frame's last octet leaves correctly and its buffer units return. -/
  | unitEgressDone (c : Fin 32)
  /-- INBOUND_UNIT_RX (R133). An inbound unit is identified and checked in order before release or merge. -/
  | inboundUnitRx
  /-- PREV_KEY_RELEASE (R226). The grace of a previous key ends and its slot is released. -/
  | prevKeyRelease (n : Fin 512) (inbound : Bool)
  /-- SLOT_ASSEMBLY_CLOSE (R175). A cell slot's assembly closes and it takes a Bridle, empty, data or fill cell. -/
  | slotAssemblyClose (c : Fin 32) (fault cut : Bool)
  /-- CALENDAR_SWITCH (R173). The armed calendar becomes active at slot B times S. -/
  | calendarSwitch (c : Fin 32)
  /-- CELL_WRAP_HOLD (R170). No switch is agreed by beat 2^48 minus 512 and the channel is held from beat 0. -/
  | cellWrapHold (n : Fin 512)
  /-- CELL_HEADER_RX (R184). A cell header is received and handled under the delineation state. -/
  | cellHeaderRx (c : Fin 32) (cell : List Byte)
  /-- L1_PLAIN_FRAME_RX (R193). A plain-side layer-1 frame is numbered, encrypted and carried with its overhead bytes. -/
  | l1PlainFrameRx (n : Fin 512) (mfas : Byte) (opu payload : List Byte) (fault : Bool)
  /-- L1_CIPHER_FRAME_RX (R192). A cipher-side layer-1 frame is decrypted and its overhead bytes gathered. -/
  | l1CipherFrameRx (n : Fin 512) (path2 : Bool) (mfas : Byte) (oh opu payload : List Byte)
  /-- L1_INPUT_LOST (R209). A layer-1 channel's plain input is lost and the device generates its frames. -/
  | l1InputLost (n : Fin 512)
  /-- L1_INPUT_RETURN (R209). The input returns and the EFN steps forward to the received MFAS. -/
  | l1InputReturn (n : Fin 512)
  /-- L1_EFN_WRAP_HOLD (R197). No switch is agreed before the EFN wrap and the channel is held. -/
  | l1EfnWrapHold (n : Fin 512)
  /-- DEPOSIT_COMMIT (R217). A DEP_CMD write with GO derives the next epoch's keys into the spare slot. -/
  | depositCommit (r : Requester) (j : Fin 16) (v : Word)
  /-- KEY_SLOT_LOAD (R223). A rail or responder cache loads a traffic slot. -/
  | keySlotLoad (j : Fin 2048) (ecc : Bool)
  /-- ZERO_N_ASSERT (R245). ZERO_N low for 200 ns starts zeroisation and clears caches within 1 us. -/
  | zeroNAssert
  /-- ZEROISE_VAULT_DONE (R245). The Tack room is overwritten and read back and ZEROISED is set. -/
  | zeroiseVaultDone
  /-- LOFT_KEY_ERASE_DONE (R245). Wrapped keys and the identity seed in the Loft are erased and ERASE_PEND cleared. -/
  | loftKeyEraseDone
  /-- ZERO_N_RELEASE (R245). ZERO_N returns high with no erase pending and KEK 0 is derived again. -/
  | zeroNRelease
  /-- BRIDLE_SESSION_SETUP (R248). A channel with Bridle EN open enters SETUP, draws SID_TX and sends HELLO. -/
  | bridleSessionSetup (n : Fin 512)
  /-- HELLO_RESEND (R248). Every 16 heartbeat intervals in SETUP a HELLO is sent again. -/
  | helloResend (n : Fin 512)
  /-- BRIDLE_SID_ROLLOVER (R249). A stream's SEQ nears 2^32 and the end starts a new session. -/
  | bridleSidRollover (n : Fin 512)
  /-- BRIDLE_HELLO_RX (R255). A HELLO is checked and verified towards UP. -/
  | bridleHelloRx
  /-- BRIDLE_POSITION_RX (R75). A POSITION message is received and its Yardstamp used to convert switch beats. -/
  | bridlePositionRx
  /-- BRIDLE_PROBE_RX (R263). A PROBE is received and answered with ECHO within its bound. -/
  | bridleProbeRx (turn : Nat)
  /-- BRIDLE_ECHO_RX (R264). An ECHO is received and judged against the delay rule. -/
  | bridleEchoRx (r : Nat)
  /-- BRIDLE_KEM_OFFER_RX (R257). A KEM_OFFER is received and answered with KEM_ACCEPT and a deposit. -/
  | bridleKemOfferRx
  /-- BRIDLE_KEM_ACCEPT_RX (R256). A KEM_ACCEPT is received; the initiator decapsulates, deposits and confirms. -/
  | bridleKemAcceptRx
  /-- BRIDLE_KEY_CONFIRM_RX (R256). A KEY_CONFIRM is compared and the slot becomes next on a match. -/
  | bridleKeyConfirmRx
  /-- BRIDLE_SWITCH_AT_RX (R260). A SWITCH_AT is accepted with SWITCH_ACK and an inbound mark, or refused. -/
  | bridleSwitchAtRx (turn : Nat)
  /-- BRIDLE_SWITCH_ACK_RX (R261). A SWITCH_ACK is received and judged against the delay rule. -/
  | bridleSwitchAckRx (r : Nat)
  /-- BRIDLE_SWITCH_CANCEL_RX (R261). A SWITCH_CANCEL disarms an armed switch. -/
  | bridleSwitchCancelRx
  /-- BRIDLE_HEARTBEAT_RX (R265). A HEARTBEAT is received and the missed-heartbeat run restarts. -/
  | bridleHeartbeatRx
  /-- BRIDLE_DIGEST_RX (R267). A DIGEST is compared with the receiver's own KCVs. -/
  | bridleDigestRx
  /-- BRIDLE_ALARM_RX (R254). An ALARM message is received and recorded. -/
  | bridleAlarmRx
  /-- KEM_OFFER_SEND (R256). The initiator generates key pairs and sends KEM_OFFER. -/
  | kemOfferSend (n : Fin 512)
  /-- KEM_RETRY_TIMEOUT (R258). No KEM_ACCEPT arrives in time and a fresh offer is sent. -/
  | kemRetryTimeout (n : Fin 512)
  /-- SWITCH_AT_SEND (R236). After confirmation the transmitting end sends SWITCH_AT and issues the outbound mark. -/
  | switchAtSend (n : Fin 512)
  /-- CANCEL_POINT (R261). At the cancel point without a valid ACK or persisted mark the switch is cancelled and resent. -/
  | cancelPoint (n : Fin 512)
  /-- BRIDLE_HEARTBEAT_SEND (R266). Each heartbeat interval a HEARTBEAT is sent. -/
  | bridleHeartbeatSend (n : Fin 512)
  /-- BRIDLE_PROBE_SEND (R266). Every PROBE_INT intervals a PROBE is sent. -/
  | bridleProbeSend (n : Fin 512)
  /-- BRIDLE_POSITION_SEND (R267). POSITION is sent at setup and at least every 16 heartbeat intervals. -/
  | bridlePositionSend (n : Fin 512)
  /-- BRIDLE_DIGEST_SEND (R267). DIGEST is sent after each switch and every 65,536 beats. -/
  | bridleDigestSend (n : Fin 512)
  /-- BRIDLE_ANSWER_TIMEOUT (R264). An answer not received within 1 s counts as late. -/
  | bridleAnswerTimeout (n : Fin 512)
  /-- BRIDLE_SUSPECT_CLEAR (R248). 1 s without a late answer returns a SUSPECT session to UP. -/
  | bridleSuspectClear (n : Fin 512)
  /-- BRIDLE_HB_LOSS (R265). Three heartbeat intervals pass without a valid HEARTBEAT. -/
  | bridleHbLoss (n : Fin 512)
  /-- BRIDLE_CONFIG (R364). YFI command setting a closed channel's Bridle configuration. -/
  | bridleConfig (m : Fin 16) (loftOk : Bool)
  /-- BRIDLE_SEND (R364). External YFI command sending a host-composed DIGEST or ALARM. -/
  | bridleSend (m : Fin 16)
  /-- TWIN_BIND (R364). YFI command setting Twin binding values and binding the pair. -/
  | twinBind (m : Fin 16) (loftOk : Bool)
  /-- TWIN_BOUND (R272). All binding conditions hold and the pair is bound with a new session key. -/
  | twinBound (r : Mate) (arb : Bool)
  /-- TWIN_BIND_FAIL (R272). A binding condition fails for 1 s and is recorded. -/
  | twinBindFail (r : Mate) (arb : Bool)
  /-- TWIN_BEAT_SEND (R276). After each beat boundary the lead sends a BEAT record. -/
  | twinBeatSend
  /-- TWIN_ASSIGN_RX (R277). The follower matches an ASSIGN record to a pending frame and encrypts it. -/
  | twinAssignRx
  /-- TWIN_BEAT_RX (R277). A BEAT record discards unassigned pending frames and flags skipped assignments. -/
  | twinBeatRx
  /-- TWIN_DIGEST_DONE (R278). Every unit of a beat or multiframe is computed and the digest is sent or compared. -/
  | twinDigestDone (n : Fin 512) (b : Nat)
  /-- TWIN_DIGEST_RX (R278). The follower compares the lead's digest with its own. -/
  | twinDigestRx
  /-- WITNESS_DIGEST_RX (R290). A Witness digest arrives for majority decision. -/
  | witnessDigestRx
  /-- TWIN_VERDICT_RX (R290). The lead receives a VERDICT and, if outvoted, mutes and rejoins. -/
  | twinVerdictRx
  /-- TWIN_SLOT_RX (R232). The follower installs a slot received from the lead and acknowledges. -/
  | twinSlotRx
  /-- TWIN_BRIDLE_RX (R281). The follower receives a composed Bridle message and sends it. -/
  | twinBridleRx
  /-- TWIN_CONTEXT_RX (R292). A rejoining Twin takes a channel's CONTEXT snapshot. -/
  | twinContextRx
  /-- TWIN_FREE_RUN_ENTER (R279). No BEAT record in two beats puts the follower in FREE_RUN. -/
  | twinFreeRunEnter
  /-- TWIN_FREE_RUN_EXPIRY (R279). 4,096 beats in FREE_RUN without promotion mute every Twin path. -/
  | twinFreeRunExpiry
  /-- TWIN_PROMOTE (R280). ARB_IN high at a beat boundary promotes a free-running follower to lead. -/
  | twinPromote (arb : Bool)
  /-- TWIN_REJOIN_ELIGIBLE (R292). At eligible beat E the rejoining Twin adopts records and transmits. -/
  | twinRejoinEligible (n : Fin 512)
  /-- TWIN_REJOIN_LATE (R292). A channel not rejoined within 2 s is recorded and its steps repeated. -/
  | twinRejoinLate (n : Fin 512)
  /-- MERGE_PATH_LOST (R282). A path without valid units for its interval becomes LOST. -/
  | mergePathLost (n : Fin 512) (path2 : Bool)
  /-- MERGE_GAP_TIMEOUT (R286). A unit held MAX_DIFF us behind a gap declares the gap lost. -/
  | mergeGapTimeout (n : Fin 512)
  /-- MERGE_DISTRUST_END (R291). 1 s passes after a far-end divergence and distrust ends. -/
  | mergeDistrustEnd (n : Fin 512)
  /-- FAB_INIT_RX (R296). An INIT link-control flit is received and the port may enter HOLD. -/
  | fabInitRx (z : Fin 8) (serial : DWord) (dev : Fin 1024) (port : Fin 8)
  /-- FAB_FLIT_RX (R298). A sequenced flit is received and checked for CRC and SEQ. -/
  | fabFlitRx (z : Fin 8) (f : List Byte)
  /-- FAB_NAK_RX (R298). A NAK is received and the sender replays from the named SEQ. -/
  | fabNakRx (z : Fin 8) (seq : Fin 4096)
  /-- FAB_REPLAY_TIMEOUT (R298). ACK does not advance for 4 us and the sender replays. -/
  | fabReplayTimeout (z : Fin 8)
  /-- FAB_TSYNC (R313). Every 1 ms linked ports exchange TSYNC flits to measure delay. -/
  | fabTsync (z : Fin 8) (t1 t2 t3 t4 : Nat)
  /-- FAB_POSITION_SEND (R314). The position master sends POSITION once per beat. -/
  | fabPositionSend
  /-- FAB_POSITION_RX (R314). A device takes the master's position from POSITION and forwards it. -/
  | fabPositionRx (residence : Nat)
  /-- FAB_HEARTBEAT_SEND (R324). Every 1 ms a member sends HEARTBEAT to the fabric. -/
  | fabHeartbeatSend (arb : Bool)
  /-- FAB_HEARTBEAT_RX (R324). A HEARTBEAT is received and master, generation and bitmap are compared. -/
  | fabHeartbeatRx
  /-- FAB_MEMBER_ABSENT (R304). No HEARTBEAT from a member for 3 ms marks it absent. -/
  | fabMemberAbsent (d : Fin 1024)
  /-- FAB_DISCOVER_RX (R305). A DISCOVER message is received and answered with DISCOVER_REPLY. -/
  | fabDiscoverRx
  /-- FAB_DISCOVER_REPLY_RX (R305). The master receives a DISCOVER_REPLY and extends its map. -/
  | fabDiscoverReplyRx
  /-- FAB_MAP_RX (R305). A member receives the map in STATE_SYNC and computes its route table. -/
  | fabMapRx
  /-- FAB_ROUTE_UPDATE (R307). A route table entry is replaced in one cycle. -/
  | fabRouteUpdate (d : Fin 1024)
  /-- FAB_READ_RX (R312). A READ is checked against rights and performed. -/
  | fabReadRx (busy : Bool)
  /-- FAB_WRITE_RX (R312). A WRITE is checked against rights and performed. -/
  | fabWriteRx (busy loftOk : Bool)
  /-- FAB_DOORBELL_RX (R482). A fabric DOORBELL is checked and rung. -/
  | fabDoorbellRx
  /-- FAB_RESPONSE_RX (R310). A response returns its status to the requester. -/
  | fabResponseRx (cycles : Nat)
  /-- FAB_RESPONSE_TIMEOUT (R310). No response within 100 us completes with TIMEOUT. -/
  | fabResponseTimeout (cycles : Nat)
  /-- FAB_E2E_GAP (R311). An EEN gap open for 20 us is skipped and recorded. -/
  | fabE2eGap (src : Fin 1024) (vc : Fin 4)
  /-- LEASE_REQUEST_SEND (R319). Every 250 us the holder or candidate sends a lease REQUEST. -/
  | leaseRequestSend
  /-- LEASE_REQUEST_RX (R318). A voter grants or denies a lease request and sets its promise. -/
  | leaseRequestRx
  /-- LEASE_GRANT_RX (R319). A GRANT is collected and a quorum makes the lease valid. -/
  | leaseGrantRx
  /-- LEASE_DENY_RX (R317). A DENY is received for the paths named. -/
  | leaseDenyRx
  /-- LEASE_RELEASE_RX (R318). A RELEASE clears a voter's promise. -/
  | leaseReleaseRx
  /-- LEASE_EXPIRY (R319). A lease not renewed within 2 ms lapses and egress stops. -/
  | leaseExpiry (n : Fin 512)
  /-- PROMISE_EXPIRY (R318). A voter's promise ends 2.1 ms after the request. -/
  | promiseExpiry (n : Fin 512)
  /-- VOTER_CHANGE_END (R323). 4,096 beats after a voter change only the new set forms quorums. -/
  | voterChangeEnd
  /-- CFG_COMMAND_AT_MASTER (R326). The master applies a submitted configuration command and raises the generation. -/
  | cfgCommandAtMaster
  /-- CFG_PULL_DONE (R327). A pulled configuration is applied at the next beat boundary. -/
  | cfgPullDone
  /-- FORWARD_RX (R331). An anchor accepts a FORWARD frame into admission at check 2. -/
  | forwardRx
  /-- FAB_CONFIG (R364). YFI command setting fabric membership fields. -/
  | fabConfig (m : Fin 16) (loftOk : Bool)
  /-- FAB_RIGHTS (R364). YFI command setting a device's access rights. -/
  | fabRights (m : Fin 16) (loftOk : Bool)
  /-- FAB_CUSTODY (R364). YFI command setting a channel's custody list. -/
  | fabCustody (m : Fin 16) (loftOk : Bool)
  /-- FAB_FORWARD (R364). YFI command setting a channel's forwarding block. -/
  | fabForward (m : Fin 16) (loftOk : Bool)
  /-- TOKEN_GRANT (R334). The arbiter raises EPOCH, awaits the Loft write and grants the token. -/
  | tokenGrant (loftOk : Bool)
  /-- TOKEN_RELEASE (R334). The holder writes RELEASE and the token passes or is held by none. -/
  | tokenRelease (y : Fin 2)
  /-- ALIVE_WRITE (R334). The holder writes ALIVE and the watchdog restarts. -/
  | aliveWrite (y : Fin 2)
  /-- WATCHDOG_EXPIRY (R334). The holder misses ALIVE for WDOG_MS and the token is withdrawn. -/
  | watchdogExpiry
  /-- READY_CLEAR (R334). The holder clears READY and the token is withdrawn. -/
  | readyClear (y : Fin 2)
  /-- YM_DIGEST_COMPARE (R339). Every 1 ms the Yardmasters compare configuration digests. -/
  | ymDigestCompare (digest : BitVec 128)
  /-- YM_NO_STANDBY (R339). The standby stays not ready for 1 s and the leader records it. -/
  | ymNoStandby
  /-- MAILBOX_RING (R345). A doorbell is checked and the mailbox enters ACCEPTED or REJECTED. -/
  | mailboxRing (m : Fin 16) (loftOk : Bool)
  /-- HOST_BAR2_ACCESS (R342). A host BAR2 access reaches Paddock and is retried on BUSY. -/
  | hostBar2Access (o : Nat) (n : Fin 9) (write : Option (List Byte)) (busy : Fin 66)
  /-- COMPAT_COMMAND (R348). A DZ4256 command on BAR4 is translated into YFI commands on mailbox 15. -/
  | compatCommand (code : BitVec 8) (args : List (List Byte)) (loftOk : Bool)
  /-- ID_GENERATE (R363). YFI command generating a new identity key pair. -/
  | idGenerate (m : Fin 16) (fails loftOk : Bool)
  /-- ID_CERT (R363). YFI command installing the identity certificate. -/
  | idCert (m : Fin 16) (loftOk : Bool)
  /-- ID_GET_KEY (R363). ID_GET selector 0 returns the identity public key. -/
  | idGetKey (m : Fin 16)
  /-- ID_GET_CERT (R363). ID_GET selector 1 returns the certificate. -/
  | idGetCert (m : Fin 16)
  /-- KEK_INSTALL (R363). YFI command installing a KEK wrapped under another KEK. -/
  | kekInstall (m : Fin 16) (loftOk : Bool)
  /-- KEK_KEM_OFFER (R361). Part 0 generates and signs an ML-KEM pair for a KEK. -/
  | kekKemOffer (m : Fin 16) (fails : Bool)
  /-- KEK_KEM_OFFER_PART1 (R361). Part 1 returns the rest of the signature. -/
  | kekKemOfferPart1 (m : Fin 16)
  /-- KEK_KEM_PAIR_EXPIRY (R361). A pending KEM pair is discarded after 60 s. -/
  | kekKemPairExpiry
  /-- KEK_KEM_FINISH (R363). YFI command decapsulating the host's ciphertext into a KEK. -/
  | kekKemFinish (m : Fin 16) (loftOk : Bool)
  /-- PAIR_INSTALL (R363). YFI command installing a wrapped pairing secret with its role. -/
  | pairInstall (m : Fin 16) (loftOk : Bool)
  /-- KEY_INSTALL (R362). YFI command installing a host key with switch beat or window. -/
  | keyInstall (m : Fin 16) (loftOk : Bool)
  /-- KEY_EXPORT (R231). YFI command exporting a traffic slot wrapped under a KEK. -/
  | keyExport (m : Fin 16)
  /-- KEY_POLICY (R363). YFI command setting EXPORT_EN and PERSIST_MIN. -/
  | keyPolicy (m : Fin 16) (loftOk : Bool)
  /-- KEY_REKEY (R363). YFI command starting an exchange at once. -/
  | keyRekey (m : Fin 16)
  /-- DRAY_SPLIT (R365). YFI command assigning cores to customer tasks. -/
  | draySplit (m : Fin 16) (loftOk : Bool)
  /-- DRAY_LOAD (R365). YFI command loading an image into a customer core. -/
  | drayLoad (m : Fin 16)
  /-- DRAY_CONTROL_STOP (R365). DRAY_CONTROL action 0 stops a customer core. -/
  | drayControlStop (m : Fin 16) (loftOk : Bool)
  /-- DRAY_CONTROL_START (R365). DRAY_CONTROL action 1 hashes and starts a customer core. -/
  | drayControlStart (m : Fin 16) (loftOk : Bool)
  /-- MEM_APERTURE (R366). YFI command enabling the BAR2 aperture. -/
  | memAperture (m : Fin 16) (loftOk : Bool)
  /-- BELL_HOST_DB (R366). YFI command granting host doorbell writes. -/
  | bellHostDb (m : Fin 16) (loftOk : Bool)
  /-- SHED_SET (R537). YFI command naming the sheds to be ON. -/
  | shedSet (m : Fin 16) (loftOk : Bool)
  /-- SHED_RESET (R542). YFI command resetting one shed. -/
  | shedReset (m : Fin 16)
  /-- LOFT_BUDGET (R552). YFI command setting the Loft write budget rate. -/
  | loftBudget (m : Fin 16) (loftOk : Bool)
  /-- LOFT_GET (R366). YFI command returning Loft wear and counters. -/
  | loftGet (m : Fin 16)
  /-- FARRIER_CONFIG (R366). YFI command enabling Farrier classes and the margin limit. -/
  | farrierConfig (m : Fin 16) (loftOk : Bool)
  /-- INFO (R366). YFI command returning stepping, version and identity data. -/
  | info (m : Fin 16)
  /-- LEDGER_CONFIG (R366). YFI command setting ledger mode, FAULT_N classes and host ring. -/
  | ledgerConfig (m : Fin 16) (loftOk : Bool)
  /-- LEDGER_REACTION (R517). YFI command setting a fault code's reaction. -/
  | ledgerReaction (m : Fin 16) (loftOk : Bool)
  /-- FAULT_CLEAR (R515). YFI command clearing raised fault codes whose cause has ended. -/
  | faultClear (m : Fin 16)
  /-- STATS_MODE (R366). YFI command choosing Barn or host statistics. -/
  | statsMode (m : Fin 16) (loftOk : Bool)
  /-- COMPAT_CONFIG (R366). YFI command enabling the DZ4256 window. -/
  | compatConfig (m : Fin 16) (loftOk : Bool)
  /-- CORE_START (R393). Setting RUN starts a core at ENTRY in Supervisor. -/
  | coreStart (r : Requester) (core : Fin 32)
  /-- CORE_STOP (R393). Clearing RUN stops a core at its next interruptible boundary. -/
  | coreStop (r : Requester) (core : Fin 32)
  /-- LM_CLEAR_DONE (R370). Local memory clearing ends and LM_READY rises. -/
  | lmClearDone (core : Fin 32)
  /-- NOP (R397). Dray op NOP does nothing. -/
  | nop (h : OpHead) (field : BitVec 27)
  /-- ADD (R406). Dray op ADD. -/
  | add (h : OpHead) (rd rs1 rs2 : BitVec 6)
  /-- SUB (R406). Dray op SUB. -/
  | sub (h : OpHead) (rd rs1 rs2 : BitVec 6)
  /-- AND (R406). Dray op AND. -/
  | and (h : OpHead) (rd rs1 rs2 : BitVec 6)
  /-- OR (R406). Dray op OR. -/
  | or (h : OpHead) (rd rs1 rs2 : BitVec 6)
  /-- XOR (R406). Dray op XOR. -/
  | xor (h : OpHead) (rd rs1 rs2 : BitVec 6)
  /-- SHL (R406). Dray op SHL. -/
  | shl (h : OpHead) (rd rs1 rs2 : BitVec 6)
  /-- SHR (R406). Dray op SHR. -/
  | shr (h : OpHead) (rd rs1 rs2 : BitVec 6)
  /-- SRA (R406). Dray op SRA. -/
  | sra (h : OpHead) (rd rs1 rs2 : BitVec 6)
  /-- MIN (R406). Dray op MIN, signed. -/
  | min (h : OpHead) (rd rs1 rs2 : BitVec 6)
  /-- MAX (R406). Dray op MAX, signed. -/
  | max (h : OpHead) (rd rs1 rs2 : BitVec 6)
  /-- MINU (R406). Dray op MINU. -/
  | minu (h : OpHead) (rd rs1 rs2 : BitVec 6)
  /-- MAXU (R406). Dray op MAXU. -/
  | maxu (h : OpHead) (rd rs1 rs2 : BitVec 6)
  /-- ADDS (R406). Dray op ADDS, saturating. -/
  | adds (h : OpHead) (rd rs1 rs2 : BitVec 6)
  /-- SUBS (R406). Dray op SUBS, saturating. -/
  | subs (h : OpHead) (rd rs1 rs2 : BitVec 6)
  /-- ROL (R406). Dray op ROL. -/
  | rol (h : OpHead) (rd rs1 rs2 : BitVec 6)
  /-- ANDN (R406). Dray op ANDN. -/
  | andn (h : OpHead) (rd rs1 rs2 : BitVec 6)
  /-- ADDI (R406). Dray op ADDI. -/
  | addi (h : OpHead) (rd rs1 : BitVec 6) (imm : BitVec 9)
  /-- SHLI (R406). Dray op SHLI. -/
  | shli (h : OpHead) (rd rs1 : BitVec 6) (imm : BitVec 7)
  /-- SHRI (R406). Dray op SHRI. -/
  | shri (h : OpHead) (rd rs1 : BitVec 6) (imm : BitVec 7)
  /-- SRAI (R406). Dray op SRAI. -/
  | srai (h : OpHead) (rd rs1 : BitVec 6) (imm : BitVec 7)
  /-- ROLI (R406). Dray op ROLI. -/
  | roli (h : OpHead) (rd rs1 : BitVec 6) (imm : BitVec 7)
  /-- ANDI (R406). Dray op ANDI. -/
  | andi (h : OpHead) (rd rs1 : BitVec 6) (imm : BitVec 9)
  /-- ORI (R406). Dray op ORI. -/
  | ori (h : OpHead) (rd rs1 : BitVec 6) (imm : BitVec 9)
  /-- XORI (R406). Dray op XORI. -/
  | xori (h : OpHead) (rd rs1 : BitVec 6) (imm : BitVec 9)
  /-- MOVI (R406). Dray op MOVI. -/
  | movi (h : OpHead) (rd : BitVec 6) (imm : BitVec 15)
  /-- MOVI32 (R406). Dray 64-bit op MOVI32. -/
  | movi32 (h : OpHead) (rd : BitVec 6) (imm : Word)
  /-- DADD (R406). Dray op DADD on d registers. -/
  | dadd (h : OpHead) (rd rs1 rs2 : BitVec 6)
  /-- DSUB (R406). Dray op DSUB. -/
  | dsub (h : OpHead) (rd rs1 rs2 : BitVec 6)
  /-- DAND (R406). Dray op DAND. -/
  | dand (h : OpHead) (rd rs1 rs2 : BitVec 6)
  /-- DOR (R406). Dray op DOR. -/
  | dor (h : OpHead) (rd rs1 rs2 : BitVec 6)
  /-- DXOR (R406). Dray op DXOR. -/
  | dxor (h : OpHead) (rd rs1 rs2 : BitVec 6)
  /-- DSHL (R406). Dray op DSHL. -/
  | dshl (h : OpHead) (rd rs1 rs2 : BitVec 6)
  /-- DSHR (R406). Dray op DSHR. -/
  | dshr (h : OpHead) (rd rs1 rs2 : BitVec 6)
  /-- DSRA (R406). Dray op DSRA. -/
  | dsra (h : OpHead) (rd rs1 rs2 : BitVec 6)
  /-- SEL (R406). Dray op SEL by a predicate. -/
  | sel (h : OpHead) (rd rs1 rs2 : BitVec 6) (q : BitVec 3)
  /-- CMP (R406). Dray op CMP into a predicate with combining forms. -/
  | cmp (h : OpHead) (pd cond : BitVec 3) (rs1 rs2 : BitVec 6) (comb : BitVec 3)
  /-- CMPI (R406). Dray op CMPI. -/
  | cmpi (h : OpHead) (pd cond : BitVec 3) (rs1 : BitVec 6) (imm : BitVec 9)
  /-- PAND (R406). Dray op PAND. -/
  | pand (h : OpHead) (pd pa pb : BitVec 3)
  /-- POR (R406). Dray op POR. -/
  | por (h : OpHead) (pd pa pb : BitVec 3)
  /-- PXOR (R406). Dray op PXOR. -/
  | pxor (h : OpHead) (pd pa pb : BitVec 3)
  /-- PANDN (R406). Dray op PANDN. -/
  | pandn (h : OpHead) (pd pa pb : BitVec 3)
  /-- CLZ (R406). Dray op CLZ. -/
  | clz (h : OpHead) (rd rs1 : BitVec 6)
  /-- POPC (R406). Dray op POPC. -/
  | popc (h : OpHead) (rd rs1 : BitVec 6)
  /-- BREV (R406). Dray op BREV. -/
  | brev (h : OpHead) (rd rs1 : BitVec 6)
  /-- SEXTB (R406). Dray op SEXTB. -/
  | sextb (h : OpHead) (rd rs1 : BitVec 6)
  /-- SEXTH (R406). Dray op SEXTH. -/
  | sexth (h : OpHead) (rd rs1 : BitVec 6)
  /-- ZEXTB (R406). Dray op ZEXTB. -/
  | zextb (h : OpHead) (rd rs1 : BitVec 6)
  /-- ZEXTH (R406). Dray op ZEXTH. -/
  | zexth (h : OpHead) (rd rs1 : BitVec 6)
  /-- MUL (R407). Dray op MUL. -/
  | mul (h : OpHead) (rd rs1 rs2 : BitVec 6)
  /-- MULHS (R407). Dray op MULHS. -/
  | mulhs (h : OpHead) (rd rs1 rs2 : BitVec 6)
  /-- MULHU (R407). Dray op MULHU. -/
  | mulhu (h : OpHead) (rd rs1 rs2 : BitVec 6)
  /-- MULW (R407). Dray op MULW. -/
  | mulw (h : OpHead) (rd rs1 rs2 : BitVec 6)
  /-- MULWU (R407). Dray op MULWU. -/
  | mulwu (h : OpHead) (rd rs1 rs2 : BitVec 6)
  /-- CLMUL (R407). Dray op CLMUL. -/
  | clmul (h : OpHead) (rd rs1 rs2 : BitVec 6)
  /-- CLMULH (R407). Dray op CLMULH. -/
  | clmulh (h : OpHead) (rd rs1 rs2 : BitVec 6)
  /-- MAC (R407). Dray op MAC into an accumulator. -/
  | mac (h : OpHead) (a : BitVec 2) (rs1 rs2 : BitVec 6)
  /-- MACU (R407). Dray op MACU. -/
  | macu (h : OpHead) (a : BitVec 2) (rs1 rs2 : BitVec 6)
  /-- MSU (R407). Dray op MSU. -/
  | msu (h : OpHead) (a : BitVec 2) (rs1 rs2 : BitVec 6)
  /-- MAC2 (R407). Dray op MAC2. -/
  | mac2 (h : OpHead) (a : BitVec 2) (rs1 rs2 : BitVec 6)
  /-- ACLR (R407). Dray op ACLR. -/
  | aclr (h : OpHead) (a : BitVec 2)
  /-- AWR (R407). Dray op AWR. -/
  | awr (h : OpHead) (a : BitVec 2) (reg : BitVec 6)
  /-- ARD (R407). Dray op ARD reads an accumulator with shift, rounding and saturation. -/
  | ard (h : OpHead) (a : BitVec 2) (d r : Bool) (reg shift : BitVec 6)
  /-- MACD (R410). Dray 64-bit op MACD multiplies two memory elements into an accumulator. -/
  | macd (h : OpHead) (a : BitVec 2) (gx gy : BitVec 4) (sa sb : BitVec 6) (ty : BitVec 2) (sub : Bool) (mode : BitVec 2) (ecc ecc' : Fin 3)
  /-- LDB (R408). Dray op LDB. -/
  | ldb (h : OpHead) (rt : BitVec 6) (g : BitVec 4) (form : BitVec 2) (opnd : BitVec 9) (ecc : Fin 3)
  /-- LDBU (R408). Dray op LDBU. -/
  | ldbu (h : OpHead) (rt : BitVec 6) (g : BitVec 4) (form : BitVec 2) (opnd : BitVec 9) (ecc : Fin 3)
  /-- LDH (R408). Dray op LDH. -/
  | ldh (h : OpHead) (rt : BitVec 6) (g : BitVec 4) (form : BitVec 2) (opnd : BitVec 9) (ecc : Fin 3)
  /-- LDHU (R408). Dray op LDHU. -/
  | ldhu (h : OpHead) (rt : BitVec 6) (g : BitVec 4) (form : BitVec 2) (opnd : BitVec 9) (ecc : Fin 3)
  /-- LDW (R408). Dray op LDW. -/
  | ldw (h : OpHead) (rt : BitVec 6) (g : BitVec 4) (form : BitVec 2) (opnd : BitVec 9) (ecc : Fin 3)
  /-- LDD (R408). Dray op LDD. -/
  | ldd (h : OpHead) (rt : BitVec 6) (g : BitVec 4) (form : BitVec 2) (opnd : BitVec 9) (ecc : Fin 3)
  /-- STB (R408). Dray op STB. -/
  | stb (h : OpHead) (rt : BitVec 6) (g : BitVec 4) (form : BitVec 2) (opnd : BitVec 9)
  /-- STH (R408). Dray op STH. -/
  | sth (h : OpHead) (rt : BitVec 6) (g : BitVec 4) (form : BitVec 2) (opnd : BitVec 9)
  /-- STW (R408). Dray op STW. -/
  | stw (h : OpHead) (rt : BitVec 6) (g : BitVec 4) (form : BitVec 2) (opnd : BitVec 9)
  /-- STD (R408). Dray op STD. -/
  | std (h : OpHead) (rt : BitVec 6) (g : BitVec 4) (form : BitVec 2) (opnd : BitVec 9)
  /-- SEGLD (R401). Dray op SEGLD walks and loads a descriptor. -/
  | segld (h : OpHead) (gd : BitVec 4) (i : Nat) (ecc : Bool)
  /-- SEGSUB (R403). Dray 64-bit op SEGSUB narrows a segment. -/
  | segsub (h : OpHead) (gd gs : BitVec 4) (mask : BitVec 3) (off len : BitVec 19)
  /-- SEGMV (R403). Dray op SEGMV copies a descriptor. -/
  | segmv (h : OpHead) (gd gs : BitVec 4)
  /-- SEGRD (R403). Dray op SEGRD reads a descriptor field. -/
  | segrd (h : OpHead) (rd : BitVec 6) (gs : BitVec 4) (fn : BitVec 3)
  /-- ZCONF (R404). Dray op ZCONF zeroes and releases a confined range. -/
  | zconf (h : OpHead) (gx : BitVec 4)
  /-- FARLD (R412). Dray op FARLD starts a far block copy into local memory. -/
  | farld (h : OpHead) (gf gl : BitVec 4) (tag : BitVec 3) (dO : BitVec 5) (size : BitVec 4) (inc : Bool)
  /-- FARST (R412). Dray op FARST starts a far block copy from local memory. -/
  | farst (h : OpHead) (gf gl : BitVec 4) (tag : BitVec 3) (dO : BitVec 5) (size : BitVec 4) (inc : Bool)
  /-- FAR_COMPLETE (R412). A far access completes with its status under its tag. -/
  | farComplete (core : Fin 32) (tag : Fin 8) (cycles : Nat) (clash : Fin 3) (loftOk : Bool)
  /-- FWAIT (R413). Dray op FWAIT freezes until its tags complete. -/
  | fwait (h : OpHead) (mask : BitVec 8)
  /-- TAGP (R413). Dray op TAGP tests a tag's completion. -/
  | tagp (h : OpHead) (pd tag : BitVec 3)
  /-- FSTAT (R413). Dray op FSTAT reads a tag's status. -/
  | fstat (h : OpHead) (rd : BitVec 6) (tag : BitVec 3)
  /-- BCOPY (R415). Dray BLK kind BCOPY copies elements, one step or to the end. -/
  | bcopy (h : OpHead) (all : Bool) (size : BitVec 2) (pd : BitVec 3) (dC : BitVec 5) (sK : BitVec 6) (bad cut : Option Nat)
  /-- BFILL (R415). Dray BLK kind BFILL fills elements. -/
  | bfill (h : OpHead) (all : Bool) (size : BitVec 2) (pd : BitVec 3) (dC : BitVec 5) (sK : BitVec 6) (bad cut : Option Nat)
  /-- BCMP (R415). Dray BLK kind BCMP compares elements. -/
  | bcmp (h : OpHead) (all : Bool) (size : BitVec 2) (pd : BitVec 3) (dC : BitVec 5) (sK : BitVec 6) (bad cut : Option Nat)
  /-- BFIND (R415). Dray BLK kind BFIND searches for a value. -/
  | bfind (h : OpHead) (all : Bool) (size : BitVec 2) (pd : BitVec 3) (dC : BitVec 5) (sK : BitVec 6) (bad cut : Option Nat)
  /-- LOCK (R418). Dray op LOCK reads a Paddock word and takes a reservation. -/
  | lock (h : OpHead) (dT : BitVec 5) (gf : BitVec 4) (sK : BitVec 6) (busy : Bool)
  /-- UNLOCK (R419). Dray op UNLOCK stores conditionally and ends the LOCK region. -/
  | unlock (h : OpHead) (pd : BitVec 3) (dS : BitVec 5) (busy : Bool)
  /-- BR (R384). Dray op BR branches after three delay slots. -/
  | br (h : OpHead) (annul : Bool) (off : BitVec 20)
  /-- BRL (R409). Dray op BRL branches and links. -/
  | brl (h : OpHead) (annul : Bool) (rd : BitVec 6) (off : BitVec 14)
  /-- BRR (R409). Dray op BRR branches through a register. -/
  | brr (h : OpHead) (annul link : Bool) (rs rl : BitVec 6)
  /-- LOOP0 (R388). Dray op LOOP0 sets up loop level 0. -/
  | loop0 (h : OpHead) (reg : Bool) (dist : BitVec 10) (cnt : BitVec 9)
  /-- LOOP1 (R388). Dray op LOOP1 sets up loop level 1. -/
  | loop1 (h : OpHead) (reg : Bool) (dist : BitVec 10) (cnt : BitVec 9)
  /-- ATOM (R417). Dray op ATOM makes the next n boundaries uninterruptible. -/
  | atom (h : OpHead) (n1 : BitVec 5)
  /-- WAIT (R443). Dray op WAIT drains and issues nothing until a request. -/
  | wait (h : OpHead)
  /-- SYSCALL (R436). Dray op SYSCALL traps to the handler after its bundle commits. -/
  | syscall (h : OpHead) (code : BitVec 16)
  /-- RETE (R439). Dray op RETE restores PSW and branch state and resumes at EPC. -/
  | rete (h : OpHead)
  /-- BRK (R447). Dray op BRK traps or halts before its bundle. -/
  | brk (h : OpHead)
  /-- MFC (R409). Dray op MFC reads a control register. -/
  | mfc (h : OpHead) (rd : BitVec 6) (creg : BitVec 8)
  /-- MTC (R391). Dray op MTC writes a control register with its side effects. -/
  | mtc (h : OpHead) (rs : BitVec 6) (creg : BitVec 8)
  /-- VADD (R424). Vector op VADD. -/
  | vadd (h : OpHead) (vd vs1 vs2 : BitVec 5) (mask : BitVec 3)
  /-- VSUB (R424). Vector op VSUB. -/
  | vsub (h : OpHead) (vd vs1 vs2 : BitVec 5) (mask : BitVec 3)
  /-- VAND (R424). Vector op VAND. -/
  | vand (h : OpHead) (vd vs1 vs2 : BitVec 5) (mask : BitVec 3)
  /-- VOR (R424). Vector op VOR. -/
  | vor (h : OpHead) (vd vs1 vs2 : BitVec 5) (mask : BitVec 3)
  /-- VXOR (R424). Vector op VXOR. -/
  | vxor (h : OpHead) (vd vs1 vs2 : BitVec 5) (mask : BitVec 3)
  /-- VMIN (R424). Vector op VMIN. -/
  | vmin (h : OpHead) (vd vs1 vs2 : BitVec 5) (mask : BitVec 3)
  /-- VMAX (R424). Vector op VMAX. -/
  | vmax (h : OpHead) (vd vs1 vs2 : BitVec 5) (mask : BitVec 3)
  /-- VMINU (R424). Vector op VMINU. -/
  | vminu (h : OpHead) (vd vs1 vs2 : BitVec 5) (mask : BitVec 3)
  /-- VMAXU (R424). Vector op VMAXU. -/
  | vmaxu (h : OpHead) (vd vs1 vs2 : BitVec 5) (mask : BitVec 3)
  /-- VSHL (R424). Vector op VSHL. -/
  | vshl (h : OpHead) (vd vs1 vs2 : BitVec 5) (mask : BitVec 3)
  /-- VSHR (R424). Vector op VSHR. -/
  | vshr (h : OpHead) (vd vs1 vs2 : BitVec 5) (mask : BitVec 3)
  /-- VSRA (R424). Vector op VSRA. -/
  | vsra (h : OpHead) (vd vs1 vs2 : BitVec 5) (mask : BitVec 3)
  /-- VMV (R424). Vector op VMV. -/
  | vmv (h : OpHead) (vd vs1 vs2 : BitVec 5) (mask : BitVec 3)
  /-- VSEL (R424). Vector op VSEL by mask. -/
  | vsel (h : OpHead) (vd vs1 vs2 : BitVec 5) (mask : BitVec 3)
  /-- VCMP (R424). Vector op VCMP into a mask. -/
  | vcmp (h : OpHead) (md cond : BitVec 3) (vs1 vs2 : BitVec 5) (mask : BitVec 3) (comb : BitVec 2)
  /-- VMUL (R424). Vector op VMUL. -/
  | vmul (h : OpHead) (vd vs1 vs2 : BitVec 5) (mask : BitVec 3)
  /-- VMULH (R424). Vector op VMULH. -/
  | vmulh (h : OpHead) (vd vs1 vs2 : BitVec 5) (mask : BitVec 3)
  /-- VMULHU (R424). Vector op VMULHU. -/
  | vmulhu (h : OpHead) (vd vs1 vs2 : BitVec 5) (mask : BitVec 3)
  /-- VWMUL (R431). Vector op VWMUL, widening. -/
  | vwmul (h : OpHead) (vd vs1 vs2 : BitVec 5) (mask : BitVec 3)
  /-- VWMULU (R431). Vector op VWMULU, widening. -/
  | vwmulu (h : OpHead) (vd vs1 vs2 : BitVec 5) (mask : BitVec 3)
  /-- VWMAC (R431). Vector op VWMAC, widening accumulate. -/
  | vwmac (h : OpHead) (vd vs1 vs2 : BitVec 5) (mask : BitVec 3)
  /-- VWMACU (R431). Vector op VWMACU. -/
  | vwmacu (h : OpHead) (vd vs1 vs2 : BitVec 5) (mask : BitVec 3)
  /-- VDOT4 (R431). Vector op VDOT4 dot product into 64-bit elements. -/
  | vdot4 (h : OpHead) (vd vs1 vs2 : BitVec 5) (mask : BitVec 3)
  /-- VQADD (R433). Vector op VQADD, saturating. -/
  | vqadd (h : OpHead) (vd vs1 vs2 : BitVec 5) (mask : BitVec 3)
  /-- VQSUB (R433). Vector op VQSUB. -/
  | vqsub (h : OpHead) (vd vs1 vs2 : BitVec 5) (mask : BitVec 3)
  /-- VQADDU (R433). Vector op VQADDU. -/
  | vqaddu (h : OpHead) (vd vs1 vs2 : BitVec 5) (mask : BitVec 3)
  /-- VQSUBU (R433). Vector op VQSUBU. -/
  | vqsubu (h : OpHead) (vd vs1 vs2 : BitVec 5) (mask : BitVec 3)
  /-- VQDMULH (R433). Vector op VQDMULH. -/
  | vqdmulh (h : OpHead) (vd vs1 vs2 : BitVec 5) (mask : BitVec 3)
  /-- VQRDMULH (R433). Vector op VQRDMULH. -/
  | vqrdmulh (h : OpHead) (vd vs1 vs2 : BitVec 5) (mask : BitVec 3)
  /-- VRSHR (R433). Vector op VRSHR, rounding shift. -/
  | vrshr (h : OpHead) (vd vs1 imm : BitVec 5) (mask : BitVec 3)
  /-- VRSHRU (R433). Vector op VRSHRU. -/
  | vrshru (h : OpHead) (vd vs1 imm : BitVec 5) (mask : BitVec 3)
  /-- VSAT (R433). Vector op VSAT. -/
  | vsat (h : OpHead) (vd vs1 imm : BitVec 5) (mask : BitVec 3)
  /-- VSATU (R433). Vector op VSATU. -/
  | vsatu (h : OpHead) (vd vs1 imm : BitVec 5) (mask : BitVec 3)
  /-- VMODRED_U (R432). VMODRED fn 4 reduces unsigned 16-bit elements mod q. -/
  | vmodredU (h : OpHead) (vd vs1 : BitVec 5) (sQ : BitVec 6)
  /-- VMODRED_UN (R432). VMODRED fn 5 reduces unsigned 32-bit elements, narrowing. -/
  | vmodredUn (h : OpHead) (vd vs1 : BitVec 5) (sQ : BitVec 6)
  /-- VMODRED_SN (R432). VMODRED fn 6 reduces signed 32-bit elements, narrowing. -/
  | vmodredSn (h : OpHead) (vd vs1 : BitVec 5) (sQ : BitVec 6)
  /-- VMODRED_S (R432). VMODRED fn 7 reduces signed 16-bit elements. -/
  | vmodredS (h : OpHead) (vd vs1 : BitVec 5) (sQ : BitVec 6)
  /-- VLD (R430). Vector op VLD, unit stride. -/
  | vld (h : OpHead) (vd : BitVec 5) (g : BitVec 4) (sK : BitVec 6) (mask : BitVec 3) (ecc : Fin 3)
  /-- VLD_INC (R430). Vector op VLD++ with post-increment. -/
  | vldInc (h : OpHead) (vd : BitVec 5) (g : BitVec 4) (sK : BitVec 6) (mask : BitVec 3) (ecc : Fin 3)
  /-- VST (R430). Vector op VST, unit stride. -/
  | vst (h : OpHead) (vs : BitVec 5) (g : BitVec 4) (sK : BitVec 6) (mask : BitVec 3)
  /-- VST_INC (R430). Vector op VST++ with post-increment. -/
  | vstInc (h : OpHead) (vs : BitVec 5) (g : BitVec 4) (sK : BitVec 6) (mask : BitVec 3)
  /-- VLDS (R430). Vector op VLDS, strided load. -/
  | vlds (h : OpHead) (vd : BitVec 5) (g : BitVec 4) (sK : BitVec 6) (mask : BitVec 3) (ecc : Fin 3)
  /-- VSTS (R430). Vector op VSTS, strided store. -/
  | vsts (h : OpHead) (vs : BitVec 5) (g : BitVec 4) (sK : BitVec 6) (mask : BitVec 3)
  /-- VSTRIP (R421). Vector op VSTRIP sets VL and VFMT from a remaining count. -/
  | vstrip (h : OpHead) (pd : BitVec 3) (rs : BitVec 6) (ew span : BitVec 2)
  /-- VREDSUM (R424). Vector op VREDSUM. -/
  | vredsum (h : OpHead) (rd : BitVec 6) (vs1 : BitVec 5) (mask : BitVec 3)
  /-- VREDMAX (R424). Vector op VREDMAX. -/
  | vredmax (h : OpHead) (rd : BitVec 6) (vs1 : BitVec 5) (mask : BitVec 3)
  /-- VREDMIN (R424). Vector op VREDMIN. -/
  | vredmin (h : OpHead) (rd : BitVec 6) (vs1 : BitVec 5) (mask : BitVec 3)
  /-- VMVXS (R424). Vector op VMVXS moves element 0 to a scalar. -/
  | vmvxs (h : OpHead) (rd : BitVec 6) (vs1 : BitVec 5) (mask : BitVec 3)
  /-- VSPLAT (R424). Vector op VSPLAT broadcasts a scalar. -/
  | vsplat (h : OpHead) (vd : BitVec 5) (rs : BitVec 6) (mask : BitVec 3)
  /-- MAND (R424). Mask op MAND. -/
  | mand (h : OpHead) (md ma mb : BitVec 3)
  /-- MOR (R424). Mask op MOR. -/
  | mor (h : OpHead) (md ma mb : BitVec 3)
  /-- MXOR (R424). Mask op MXOR. -/
  | mxor (h : OpHead) (md ma mb : BitVec 3)
  /-- MANDN (R424). Mask op MANDN. -/
  | mandn (h : OpHead) (md ma mb : BitVec 3)
  /-- INTERRUPT_ENTRY (R441). At an interruptible boundary with IE set the core takes a source and enters its handler. -/
  | interruptEntry (core : Fin 32) (cycles : Nat)
  /-- DBG_HALT (R447). A write of HALT requests a halt at the next interruptible boundary. -/
  | dbgHalt (r : Requester) (core : Fin 32)
  /-- DBG_FORCE_HALT (R448). HALT with FORCE halts at the next non-delay-slot boundary, breaking regions. -/
  | dbgForceHalt (r : Requester) (core : Fin 32)
  /-- DBG_RESUME (R450). A write of RESUME restarts issue at PC. -/
  | dbgResume (r : Requester) (core : Fin 32) (cycles : Nat)
  /-- DBG_STEP (R450). STEP with RESUME issues to the next haltable boundary and halts. -/
  | dbgStep (r : Requester) (core : Fin 32) (cycles : Nat)
  /-- HALT_TAKEN (R447). A pending halt is taken at a boundary after the drain and PC is set. -/
  | haltTaken (core : Fin 32)
  /-- DBG_RDATA_ACCESS (R449). Debug reads or writes the selected register word of a halted core. -/
  | dbgRdataAccess (r : Requester) (core : Fin 32) (write : Option Word)
  /-- TRACE_READ (R453). A read of TRACE_LO removes the oldest trace entry. -/
  | traceRead (r : Requester) (core : Fin 32)
  /-- OWNER_HANDOVER (R457). A write of NEW_OWNER starts a bank handover. -/
  | ownerHandover (r : Requester) (b : Fin 512) (v : Word)
  /-- HANDOVER_DONE (R457). The old owner's earlier accesses finish and the new owner takes the bank. -/
  | handoverDone (b : Fin 512)
  /-- GROOM_SCRUB (R465). The Groom reads a written line in an idle south cycle. -/
  | groomScrub (w : Nat) (ecc : Fin 3) (lastLine : Bool)
  /-- BARN_READY (R468). Barn training and zero initialisation complete and BARN_READY rises. -/
  | barnReady (fails : Bool)
  /-- SOURCE_EVENT (R474). A Bell source input changes and sets or clears its pending bit by sense. -/
  | sourceEvent (n : Nat) (level : Bool)
  /-- TGT_TAKE (R477). A read of TGT_TAKE takes the best eligible source for the target. -/
  | tgtTake (r : Requester) (t : Nat)
  /-- TGT_FINISH (R479). A write of TGT_FINISH ends service of a source taken by that target. -/
  | tgtFinish (r : Requester) (t : Nat) (v : Word)
  /-- BELL_DOORBELL (R482). A doorbell write is checked and pends, latches or is refused by home shed state. -/
  | bellDoorbell (r : Requester) (v : Word)
  /-- BELL_FREEZE_SET (R485). A write of 1 to FREEZE makes the writer holder and shadows hardware updates. -/
  | bellFreezeSet (r : Requester)
  /-- BELL_FREEZE_RELEASE (R485). The holder writes 0 and the shadow merges over the registers. -/
  | bellFreezeRelease (r : Requester)
  /-- BELL_FRZ_EXPIRED (R485). A freeze runs 64 cycles and is released with EXPIRED set. -/
  | bellFrzExpired
  /-- HOLDOFF_EXPIRY (R480). A target's hold-off ends and held sources are presented. -/
  | holdoffExpiry (t : Nat)
  /-- WAKE_LATCH_CAPTURE (R483). An AON latch catches a source event while clocks are stopped. -/
  | wakeLatchCapture (n : Nat) (level : Bool)
  /-- TALLY_EVALUATION (R487). Each tick a channel increments, captures, evaluates compares and applies actions. -/
  | tallyEvaluation (pins : BitVec 18)
  /-- COMPARE_COMMIT (R497). A commit of CMPk arms the compare and classifies it as on time, late or future. -/
  | compareCommit (r : Requester) (n : Fin 128) (k : Fin 4) (v : DWord)
  /-- COMPARE_DISARM (R498). A write of DISARM disarms a compare. -/
  | compareDisarm (r : Requester) (n : Fin 128) (k : Fin 4) (v : Word)
  /-- TALLY_COUNT_WRITE (R491). A write of a count stores the value plus the cycle's increment. -/
  | tallyCountWrite (r : Requester) (n : Fin 128) (v : DWord) (inc : BitVec 32)
  /-- TALLY_LF_PERIOD (R502). Each 40 ns period while clocks stop, LF channels add 30 and evaluate compares. -/
  | tallyLfPeriod
  /-- LEDGER_REPORT (R508). The ledger takes a report, sets state, takes its reaction and coalesces it. -/
  | ledgerReport
  /-- COALESCE_WINDOW_CLOSE (R509). A coalescing window ends and a REPEAT record enters the FIFO. -/
  | coalesceWindowClose
  /-- RING_WRITE (R510). The intake FIFO writes its next record into the ring. -/
  | ringWrite (busy : Bool)
  /-- LEDGER_RD_WRITE (R513). A write of RD frees ring records after a check. -/
  | ledgerRdWrite (r : Requester) (v : Word)
  /-- HOST_RD_POLL (R513). In host mode the device reads the host consumer index at least every 10 us. -/
  | hostRdPoll
  /-- LEDGER_MODE_COPY_DONE (R513). The copy of unread records into the new ring ends and MOVING clears. -/
  | ledgerModeCopyDone
  /-- LEDGER_INJECT (R521). A write of GO in factory test mode makes an injected report. -/
  | ledgerInject (r : Requester) (v : Word)
  /-- RAIL_TEST_STEP (R524). A rail advances its test pass in an idle cycle. -/
  | railTestStep (r : Fin 40) (fails : Bool)
  /-- FILL_CELL_COMPARE (R527). A second rail's recomputed fill cell is compared with the one sent. -/
  | fillCellCompare (a b : Fin 40) (differ : Bool)
  /-- ENGINE_TEST_STEP (R525). A key engine runs its known-answer test while idle. -/
  | engineTestStep (e : Fin 3) (fails : Bool)
  /-- DRAY_SELFTEST_STEP (R526). A stable-kernel core runs a self-test step in time it would wait. -/
  | draySelftestStep (core : Fin 32) (last fails : Bool)
  /-- COVERAGE_LATE (R530). A target passes its late-after time without coverage. -/
  | coverageLate (cls : Fin 6) (index : Nat)
  /-- MARGIN_MEASURE (R531). A lane's eye margin is measured and judged against MARGIN_MV. -/
  | marginMeasure (lane : Fin 80) (v h : BitVec 12)
  /-- ENTROPY_SAMPLE (R533). Each entropy sample passes the health tests or HEALTH_FAIL stops random output. -/
  | entropySample (ok : Bool)
  /-- PWR_SHED_REQ_WRITE (R537). A write of PWR_SHED_REQ commits shed changes after the checks. -/
  | pwrShedReqWrite (r : Requester) (v : Word)
  /-- SHED_DRAIN_DONE (R539). A DRAINING shed's work has left and it enters OFF. -/
  | shedDrainDone (k : Fin 32)
  /-- SHED_POWER_UP (R540). The device closes the next shed's power switch, one at least 50 us after the last. -/
  | shedPowerUp
  /-- SHED_POWER_GOOD (R540). A shed reports power good, is released from reset and enters ON. -/
  | shedPowerGood
  /-- PWR_SHED_FAIL (R540). No power good within 50 us; the switch opens and the shed stays OFF. -/
  | pwrShedFail
  /-- PWR_SHED_RST_WRITE (R542). A write of PWR_SHED_RST resets a shed without removing power. -/
  | pwrShedRstWrite (r : Requester) (v : Word)
  /-- SHED_RESET_END (R542). The shed reset hold ends and the shed re-enters ON. -/
  | shedResetEnd (k : Fin 32)
  /-- SLEEP_ENTRY (R543). Sleep conditions hold for 1 s and the firmware stops the clocks. -/
  | sleepEntry
  /-- WAKE (R543). A wake capture, PCIe request or WRST_N restarts the clocks. -/
  | wake
  /-- PORST (R544). PORST_N low resets AON, CORE and every shed. -/
  | porst
  /-- BROWNOUT (R544). VIN below the brown-out threshold resets as PORST_N does. -/
  | brownout
  /-- WRST (R544). WRST_N low resets CORE and every shed. -/
  | wrst
  /-- PERST (R544). PERST_N low resets the PCIe controller and link only. -/
  | perst
  /-- BOOT_START (R545). VIN, PORST_N and WRST_N all hold and boot starts with the AON step. -/
  | bootStart
  /-- CORE_PLL_LOCK (R545). The core PLL locks and CORE leaves reset. -/
  | corePllLock
  /-- FW_READY (R545). The firmware assigns banks, restores marks and reports ready. -/
  | fwReady (fails : Option (Fin 8))
  /-- LOFT_WRITE_DONE (R549). A queued Loft word is programmed, verified and its response returned. -/
  | loftWriteDone (fails : Nat)
  /-- REFCLK_SYS_LOST (R553). Eight missing REFCLK_SYS periods switch AON to its oscillator and mute all paths. -/
  | refclkSysLost
  /-- REFCLK_SYS_RELOCK (R553). REFCLK_SYS present for 1 ms lets the PLL relock and releases the mutes. -/
  | refclkSysRelock
  /-- PORT_FEC_UNCORR (R109). A port's FEC decoder meets an uncorrectable codeword, sets FEC_UNCORR, counts it and records PORT_FEC_UNCORR. -/
  | portFecUncorr (k : Fin 72) (corrected uncorrectable : Nat)
  /-- L1_GENERATED_FRAME (R209). While a layer-1 channel's input is lost, the device generates, encrypts and sends one frame per reference-timed frame period. -/
  | l1GeneratedFrame (n : Fin 512) (fault : Bool)
  /-- TWIN_SLOT_ACK_RX (R232). The lead receives the follower's acknowledgement of a slot install, after which it may send SWITCH_AT or accept a host arm for that slot. -/
  | twinSlotAckRx
  /-- TWIN_CONTEXT_REQUEST_RX (R289). The lead receives a follower's request for a CONTEXT record and sends the channel's snapshot. -/
  | twinContextRequestRx
  /-- PCIE_LINK_UP (R545). After PERST_N is released and the reference is present, the PCIe link trains and comes up, so host access and DMA resume. -/
  | pcieLinkUp
  /-- PCIE_LINK_DOWN (R553). PCIE_REFCLK is lost and the PCIe link goes down while everything else continues. -/
  | pcieLinkDown
  /-- LOFT_BUDGET_REFILL (R552). The Loft budget bucket gains words at r per second up to 60 times r. -/
  | loftBudgetRefill
  /-- THERMAL_EXCURSION (R567). Tj stays above 105 degrees C for 1 s and the on-die sensors count an excursion in the Loft. -/
  | thermalExcursion
  /-- POWER_ON_HOURS (R547). Each hour of power-on, the power and reset unit writes the power-on hours word in the Loft. -/
  | powerOnHours
  /-- SMBUS_BLOCK_READ (R563). An SMBus Block Read at address 0x5D returns the INFO or LOFT_GET response, or is refused with NACK for other codes. -/
  | smbusBlockRead (addr : BitVec 7) (code : BitVec 8)
  /-- JTAG_INSTRUCTION (R534). A JTAG instruction is loaded and run through the TAP, such as EXTEST driving the control balls or BYPASS outside factory test mode. -/
  | jtagInstruction (i : JtagInstr)
  /-- FACTORY_TEST_MODE (R446). FTM_EN together with its fuse enters or leaves factory test mode, which enables injection, stable-core debug, scan and UART_RX. -/
  | factoryTestMode (pin : Bool)
deriving DecidableEq, Repr

end Sys2Proof
end

