-- ==== Sys2Proof/Config.lean ====
section
/-!
DEFINITION. What the manual leaves to each device, leaves open, or names by a standard outside it: free values, as
constants without a body. Nothing in Lean can compute one, so a statement that mentions one holds for every value of it.
-/

namespace Sys2Proof.Config

/-- A value the manual leaves open, drawn afresh at each use: applied to the counter `draws` of the state (R249, R533). -/
opaque freeValue : Nat → Nat

/-- Byte `i` of the AES counter keystream under a key and an IV (R145, R171, R198): NIST SP 800-38D, outside the manual. -/
opaque aesStream (key : List Byte) (iv i : Nat) : Byte

/-- The 16-byte GCM tag under a key and an IV over additional data and ciphertext. -/
opaque gcmTag (key : List Byte) (iv : Nat) (aad ct : List Byte) : BitVec 128

/-- SHA-384 (R219, R255, R325). -/
opaque sha384 (m : List Byte) : BitVec 384

/-- HMAC-SHA-384 (R250, R256). -/
opaque hmac384 (key m : List Byte) : BitVec 384

/-- Byte `i` of HKDF-Extract then HKDF-Expand with SHA-384: salt, input key, info (RFC 5869; R219). -/
opaque hkdf (salt ikm info : List Byte) (i : Nat) : Byte

/-- Byte `i` of HKDF-Expand from a pseudorandom key (R219). -/
opaque hkdfExpand (prk info : List Byte) (i : Nat) : Byte

/-- Byte `i` of the HKDF-Extract of salt and input key (R219). -/
opaque hkdfExtract (salt ikm : List Byte) (i : Nat) : Byte

/-- Byte `i` of the AES key wrap of a plaintext under a KEK (RFC 3394; R228). -/
opaque keyWrap (kek plain : List Byte) (i : Nat) : Byte

/-- Byte `i` of the plaintext an AES key unwrap gives (R228). -/
opaque keyUnwrap (kek wrapped : List Byte) (i : Nat) : Byte

/-- Does the integrity check of an unwrap pass? (R228) -/
opaque keyUnwrapOk (kek wrapped : List Byte) : Bool

/-- ML-KEM-1024 (R230, R256): encapsulation key of a seed, ciphertext and secret of an encapsulation, secret of a
decapsulation; each by byte index. -/
opaque mlkemPub (seed i : Nat) : Byte
opaque mlkemCt (pub : List Byte) (seed i : Nat) : Byte
opaque mlkemEncSecret (pub : List Byte) (seed i : Nat) : Byte
opaque mlkemDecSecret (seed : Nat) (ct : List Byte) (i : Nat) : Byte

/-- X25519 (R256): public value of a seed, shared secret. -/
opaque x25519Pub (seed i : Nat) : Byte
opaque x25519Shared (seed : Nat) (peer : List Byte) (i : Nat) : Byte

/-- ML-DSA-87 (R255, R363): public key of an identity seed, signature, verification. -/
opaque mldsaPub (seed : List Byte) (i : Nat) : Byte
opaque mldsaSign (seed m : List Byte) (i : Nat) : Byte
opaque mldsaVerify (pub m sig : List Byte) : Bool

/-- Does a certificate carry this subject key? (R363) -/
opaque certHolds (cert pub : List Byte) : Bool

/-- KEK 0, derived from the fuse secret of the part (R215). -/
opaque kek0 (i : Nat) : Byte

/-- The rail chosen among those that may serve (R572): its choice is the device's own. -/
opaque railChoice (draw : Nat) (pool : List Nat) : Nat

/-- One AES block encryption (R192): key and 16-byte input. -/
opaque aesBlock (key : List Byte) (x : BitVec 128) : BitVec 128

/-- Frame period of an ODUflex by its first tributary slot, in tenths of a nanosecond: 122,368 bits ÷ its rate, which the
client sets (R191). -/
opaque oduflexPeriod : Nat → Nat

/-- What manufacture fixes: serial number, firmware build. -/
opaque serial : BitVec 64
opaque firmwareBuild : BitVec 32

/-- The pairing slot whose secret a Witness shares with a device (R290): the manual does not say which. -/
opaque witnessPair (dev : Nat) : Nat

/-- The factory-test fuse that FTM_EN goes with (R446, R534). -/
opaque ftmFuse : Bool

/-- The stable-kernel core to which the firmware gives a Paddock bank that R459 names no single owner for. -/
opaque bankOwner (b : Nat) : Nat

end Sys2Proof.Config
end

