-- ==== Sys2Proof/Machine/State.lean ====
section
/-!
DEFINITION. The state of the block, as plain data, and the machine right after reset. Every register of spec/02 to spec/25
is a word of `csr`, under its offset (Sys2Proof/Machine/Regs.lean names them); what the manual gives the machine beside
its registers stands in the records below.
-/

namespace Sys2Proof.Machine

/-- Sparse contents by key: strictly rising keys, and no entry equal to what an unlisted key holds. -/
abbrev Table (α : Type) := List (Nat × α)

/-- Why the block would stop. -/
inductive Fault where
  /-- Raised by JTAG_INSTRUCTION for scan or memory BIST in factory test mode: R534 names them and gives them no effect. Safe. -/
  | factoryFunction
deriving DecidableEq, Repr

/-- Why a command has no meaning here. -/
inductive Refusal where
  /-- Raised by the dispatch for a command that has no meaning yet, under the command's mnemonic. Safe. -/
  | notModelled (mnemonic : String)
deriving DecidableEq, Repr

/-! ### Reports and records of the fault ledger (R505 to R513) -/

/-- A report (R505, R506): `data` holds bytes 0–15 with byte 0 lowest, `cont` bytes 16–31 where there is a continuation,
`merged` the further FATAL reports merged into it (R507). -/
structure Report where
  stamp : DWord
  origin : Nat
  code : Nat
  path : Nat
  data : BitVec 128
  cont : Option (BitVec 128)
  inj : Bool
  merged : Nat
deriving DecidableEq, Repr

/-- An entry of the coalescing table (R509): the key, the end beat of its window, the repeats so far and the last of them. -/
structure CoEntry where
  origin : Nat
  code : Nat
  endBeat : Beat
  count : Nat
  last : Report
deriving DecidableEq, Repr

/-- A record on its way to the ring (R510, R513). -/
structure Record where
  stamp : DWord
  origin : Nat
  code : Nat
  cls : Nat
  reserve : Bool
  repeat' : Bool
  inj : Bool
  cont : Bool
  path : Nat
  count : Nat
  data : BitVec 128
deriving DecidableEq, Repr

/-- What holds a channel's outbound path muted (R518). -/
inductive MuteCause where
  | code (c : Nat)
  | bridleDown
  | twinDiverge
  | twinFaulty
  | freeRun
  | refclk
  | clash
  | merge
deriving DecidableEq, Repr

/-- The fault ledger beside its registers. -/
structure Ledger where
  /-- Reports waiting at each unit, oldest first (R507). -/
  queues : Table (List Report)
  /-- The coalescing table (R509). -/
  co : List CoEntry
  /-- The intake FIFO, oldest first (R510). -/
  fifo : List Record
  /-- FATAL records that wait in the coalescing stage (R510). -/
  stuck : List Record
  /-- Drops since the last LEDGER_DROPPED record: NOTICE, DEGRADE, FATAL (R512). -/
  dropN : Nat
  dropD : Nat
  dropF : Nat
  /-- A LEDGER_FATAL_LOST record is owed (R512). -/
  fatalLost : Bool
  /-- Paths muted, and by what (R518). -/
  mutes : List (Nat × MuteCause)
  /-- Codes that brought the device into safe state (R519). -/
  safe : List Nat
  /-- Host ring: its address, the address of its index pair (R511, R366). -/
  hostRing : Nat
  hostIdx : Nat
  /-- Size of the ring in use before a change of mode whose copy is not done (R513). -/
  oldSize : Nat
  oldHost : Bool
  oldRing : Nat
  /-- Ports whose PORT_DOWN has been reported (R505). -/
  downs : List Nat
deriving DecidableEq, Repr

/-! ### Bell (spec/20) -/

/-- Bell beside its registers: the level of each source's input (R474); while FREEZE is 1, the shadow of each pending and
active bit and the targets whose take waits (R485); the host's doorbell grant (R482). -/
structure Bell where
  inputs : Table Bool
  shPend : Table (Option Bool)
  shActive : Table (Option Bool)
  waiting : List Nat
  /-- The requester whose freeze ran out, whose writes are dropped until its next write to BELL_FREEZE (R485). -/
  expired : Option Nat
  hostDb : Bool
deriving DecidableEq, Repr

/-! ### The position unit (spec/03) -/

/-- A source the unit follows or qualifies (R51): SRC, BEAT_CLASS, LEAD_PORT. -/
structure PosSrc where
  src : Nat
  cls : Nat
  lead : Nat
deriving DecidableEq, Repr

/-- The position unit beside its registers. Lengths are in 2^-16 tick. -/
structure Pos where
  /-- The source and class in use; POS_CFG may already name the next (R57). -/
  cur : PosSrc
  /-- Ticks since the last boundary (R66). -/
  ticks : Nat
  /-- Predicted length of the current beat (R67). -/
  beatLen : Nat
  /-- Last frequency estimate, as a beat length (R58). -/
  estLen : Nat
  /-- Consecutive missing or invalid beats (R60). -/
  miss : Nat
  /-- Periods of the most recent run of the source followed, newest first (R49). -/
  periods : List Nat
  /-- Qualification: valid beats in a row, their periods newest first, the last number shown, condition of R59 met. -/
  qRun : Nat
  qPeriods : List Nat
  qLast : Option Beat
  qDone : Bool
  /-- A run of invalid or missing beats has been recorded (R82). -/
  badRun : Bool
  /-- Phase difference still to be removed (R62). -/
  slew : Int
  /-- HO_MAX has passed (R59). -/
  hoDue : Bool
  /-- HOST source: number its next beat shows, once the host has set one; frequency offset in 1/256 ppb (R55). -/
  hostBeat : Option Beat
  hostOfs : Int
  /-- The master's position as the last POSITION message gave it, until a boundary uses it (R56, R314). -/
  fabPos : Option DWord
  /-- Level of PPS_OUT, and the word on POS_DATA_OUT (R54, R56). -/
  ppsOut : Bool
  dataOut : DWord
deriving DecidableEq, Repr

/-- What has left the device: a MODEL's own view of its outputs. -/
inductive Output where
  | msix (vec : Nat)
  /-- A frame on a plain-side, cipher-side port, from the destination address to the FCS. -/
  | frame (port : Nat) (bytes : List Byte)
  /-- A cell on a cipher-side port. -/
  | cell (port : Nat) (bytes : List Byte)
  /-- A layer-1 frame on a port: its EFN, the two overhead bytes the channel uses, the OPU overhead, whether it is substituted by
  AIS, its payload area. -/
  | l1Frame (port efn : Nat) (oh opu : List Byte) (ais : Bool) (payload : List Byte)
  /-- A flit on a Z port, link control among them (R297). -/
  | flit (z : Nat) (bytes : List Byte)
  /-- A level or a pulse on a pin. -/
  | pin (name : String) (level : Bool)
  /-- A block on the SMBus. -/
  | smbus (bytes : List Byte)
  /-- A value shifted out of the JTAG port. -/
  | jtag (value : Nat)
deriving DecidableEq, Repr

/-- How an access was answered (R35, R310, R335, R456, R482). -/
inductive BusStatus where
  | ok
  | decode
  | denied
  | ownViol
  | busy
  | shedDraining
  | shedOff
  | ecc
  | timeout
  | noRoute
  | waiting
  | notReady
  | leadDenied
deriving DecidableEq, Repr

/-- The answer to an access: the requester's code (R475), the status and the data read. -/
structure Answer where
  req : Nat
  status : BusStatus
  data : DWord
deriving DecidableEq, Repr


/-! ### Ports (spec/04) -/

/-- A port beside its registers: auto-negotiation done, the 1 ms hold after a loss of lock runs (R105), the port is
through-timed from its partner at present (R102), CFG_BAD has been raised for the present stay. -/
structure Port where
  anDone : Bool
  retry : Bool
  slaved : Bool
  badSeen : Bool
  /-- Cells (R162, R172, R184): slot number at which each calendar took effect, the armed switch, the run of good or bad headers
  and the last slot number seen, and a header whose numbering differs and waits for its second. -/
  calBase : Nat
  calPrev : Nat
  calArm : Option (Beat × Nat)
  run : Nat
  lastSlot : Nat
  odd : Option Nat
  /-- Last slot whose assembly has closed, none since the port began to carry cells (R175). -/
  outSlot : Option Nat
deriving DecidableEq, Repr

/-! ### Channels and Gates (spec/05, spec/06) -/

/-- A Gate instruction word (R118). -/
abbrev GateWord := BitVec 64

/-- An entry of a Gate's exact or ternary table (R124); `bad` after an ECC error, until rewritten (R140). -/
structure GateEntry where
  index : Nat
  tag : Nat
  key : BitVec 128
  mask : BitVec 128
  action : Word
  bad : Bool
deriving DecidableEq, Repr

/-- An Ethernet frame whose header is held and which waits for its Gate (R128): its port and its bytes from the destination
address, FCS included. -/
structure GateFrame where
  port : Nat
  bytes : List Byte
deriving DecidableEq, Repr

/-- An accepted outbound unit that has not left (R131, R143). -/
structure OutUnit where
  ch : Nat
  asn : DWord
  stamp : DWord
  /-- Traffic slot and AN of the association it is processed under (R16). -/
  slot : Nat
  an : Nat
  epoch : Nat
  inPort : Nat
  /-- Mode policy word in force at its acceptance (R116). -/
  pol : Word
  /-- Plaintext without FCS, and the received FCS. -/
  frame : List Byte
  fcs : List Byte
  /-- Buffer units held (R131). -/
  bufUnits : Nat
  /-- Blocks computed so far, and the rail that computed the last of them (R572). -/
  blocks : Nat
  rail : Option Nat
  /-- First octet is on the line; a rail fault occurred on the line (R151); input lost (R107). -/
  onLine : Bool
  stomped : Bool
  truncated : Bool
  /-- Octets already placed into cells (R176). -/
  placed : Nat
deriving DecidableEq, Repr

/-- An inbound unit on its way: cipher port, the channel its Gate or slot map named, its bytes; for a cell its slot number. -/
structure InUnit where
  port : Nat
  ch : Option Nat
  cell : Bool
  bytes : List Byte
  slot : DWord
deriving DecidableEq, Repr

/-- An inbound unit that has passed its checks and is held by the merge engine (R282, R286). -/
structure HeldUnit where
  epoch : Nat
  asn : DWord
  frame : List Byte
  path : Nat
  /-- It came from the lead path; a cell says so by its L bit (R284). -/
  lead : Bool
  tag : BitVec 128
deriving DecidableEq, Repr

/-- A change that waits for its change beat (R112, R113, R116, R126). -/
inductive Change where
  | open (n : Nat)
  | close (n : Nat)
  | modify (n : Nat) (words : List (Nat × Word))
  | gate (g cfg : Nat)
deriving DecidableEq, Repr

/-- A punt queue (R137): enabled, descriptors, bytes of a descriptor, ring and index-pair addresses in host memory, indices,
and the beat of its last PUNT_FULL record. -/
structure PuntQueue where
  en : Bool
  descs : Nat
  size : Nat
  ring : Nat
  idx : Nat
  prod : Nat
  fullBeat : Option Beat
deriving DecidableEq, Repr

/-! ### Keys (spec/09) -/

/-- A traffic slot (R222): kind (0 empty, 1 derived, 2 host), its 46 bytes, epoch, AN and key identifier; persisted or not;
an uncorrectable ECC error stands in it (R224). -/
structure Slot where
  kind : Nat
  bytes : List Byte
  epoch : Nat
  an : Nat
  keyId : List Byte
  persist : Bool
  bad : Bool
deriving DecidableEq, Repr

/-- A deposit buffer (R217): bytes by position and the core that has written it since its last commit. -/
structure Deposit where
  bytes : Table (Option Byte)
  core : Option Nat
deriving DecidableEq, Repr

/-- A pairing slot (R215, R218): secret, role (true: B), whether it is the Twin mate's, peer key hash, peer device. -/
structure Pairing where
  secret : List Byte
  roleB : Bool
  mate : Bool
  hash : List Byte
deriving DecidableEq, Repr

/-- The Tack room beside its registers. -/
structure Tack where
  slots : Table Slot
  keks : Table (List Byte)
  pairs : Table (Option Pairing)
  idSeed : List Byte
  idPub : List Byte
  cert : List Byte
  certOk : Bool
  twinKey : List Byte
  deposits : Table Deposit
  /-- Confirmation key and secret of the slot that fills, by channel: S_n in the slot, CK_n here (R217, R219). -/
  ck : Table (List Byte)
  /-- Traffic slots held in the rail and responder caches (R216, R223). -/
  cached : List Nat
  /-- Pending KEM pair for a KEK (R361): KEK and seed of the pair. -/
  kemPair : Option (Nat × Nat)
  /-- ZERO_N is low; the vault overwrite is still to come (R245). -/
  zeroLow : Bool
  zeroVault : Bool

deriving DecidableEq, Repr

/-- A pending switch of one direction (R236, R259 to R261): its epoch and beat, whether SWITCH_AT has been sent, a valid
SWITCH_ACK is held, the mark is persisted (and whether a late mark was recorded), whether the host armed it. -/
structure Switch where
  epoch : Nat
  beat : Beat
  sent : Bool
  acked : Bool
  markDone : Bool
  late : Bool
  host : Bool
deriving DecidableEq, Repr

/-- What an exchange has reached at this end (R256): epoch, whether this end initiates, the seed of its key pairs, the offer
and accept messages, the two shared secrets, whether the deposit is derived, this end's KEY_CONFIRM sent, attempts so far (R258). -/
structure Exch where
  epoch : Nat
  initiator : Bool
  seed : Nat
  offer : List Byte
  accept : List Byte
  ss : List Byte
  sent : Bool
  tries : Nat
deriving DecidableEq, Repr

/-- The Bridle session of a channel beside its registers (R248 to R268). -/
structure Session where
  /-- A HELLO from the peer carrying this end's SID_TX has been verified; this end has answered the peer's HELLO. -/
  verified : Bool
  answered : Bool
  exch : Option Exch
  /-- Epoch secret S_0 stands in for the previous epoch secret: the session's first exchange (R249). -/
  first : Bool
  confirmFails : Nat
  /-- Ticks at which the late answers of the last second were counted, by answer stream 1 and 2 (R264, R281). -/
  late1 : List Nat
  late2 : List Nat
  tagFails : List Nat
  /-- Answers used for RTT0 so far (R264). -/
  rttCount : Nat
  probeNo : Nat
  /-- Probe numbers and switch beats whose answers have not come (R264). -/
  probesOut : List Nat
  hbSeen : Bool
  /-- Beat of the last heartbeat interval's end and intervals since the last PROBE and POSITION. -/
  hbCount : Nat
  posCount : Nat
  digestDue : Bool
  helloDue : Nat
  /-- Highest SEQ accepted on stream t and path p (1, 2), under t + 4p (R251, R281). -/
  rxSeq : Table Nat
  /-- Reassembly of the two lanes (R252). -/
  part0 : Option (List Byte)
  part1 : Option (List Byte)
  /-- Last POSITION received: unit, Yardstamp, frame period (R75). -/
  peerPos : Option (Nat × DWord × Nat)
deriving DecidableEq, Repr

/-- A message that waits for its carrier (R252, R253). -/
structure BrOut where
  ch : Nat
  lane : Nat
  urgent : Bool
  bytes : List Byte
  sent : Nat
deriving DecidableEq, Repr

/-- A received message that has passed step 1 of R251, and the cipher path it came on. -/
structure BrIn where
  ch : Nat
  path : Nat
  bytes : List Byte
deriving DecidableEq, Repr

/-- Cell mode of a channel beside its registers (R170 to R187). -/
structure CellCh where
  reasm : List Byte
  discard : Bool
  /-- Epoch and cell ASN expected next by reassembly (R186). -/
  expect : Option (Nat × DWord)
  /-- Epoch of the last outbound data cell (R176), of the last verified inbound data cell (R183), and the highest cell ASN
  verified under the previous key. -/
  outEpoch : Option Nat
  inEpoch : Option Nat
  prevAsn : DWord
  /-- Last slot decrypted by path: epoch and slot number (R74, R77). -/
  pathSlot : Table (Option (Nat × DWord))
deriving DecidableEq, Repr

/-- One inbound path of a layer-1 channel (R199 to R208). -/
structure L1In where
  /-- Epoch and EFN of the last frame decrypted (R208). -/
  last : Option (Nat × Nat)
  /-- Multiframe in progress: its number and whether it is checked (R206), the traffic slot of its first frame, its frames
  decrypted, its additional data. -/
  mf : Option (Nat × Bool)
  key : Option Nat
  good : Nat
  aad : List Byte
  /-- The multiframe before it while its check is due: number, slot, whole, additional data. -/
  due : Option (Nat × Option Nat × Bool × List Byte)
  /-- Tag bytes received in this multiframe. -/
  tag : List Byte
  /-- Last multiframe checked on this path: number, passed, tag (R285, R288). -/
  res : Option (Nat × Bool × List Byte)
  /-- Bytes of the Bridle stream from a SYNC on (R253). -/
  hunt : List Byte
  /-- Superframe alignment (R200): frames counted modulo 64, places at which the word was last found, the place locked to, words missed. -/
  sfCount : Nat
  sfSeen : List Nat
  sfAt : Option Nat
  sfBad : Nat
deriving DecidableEq, Repr

/-- Layer-1 mode of a channel beside its registers (R193 to R209). -/
structure L1Ch where
  /-- The number at or above which the next frame takes its EFN, where it is still to be set (R194); it is to be set at the next
  switch (R196). -/
  efnAt : Option Nat
  efnWait : Bool
  /-- Epoch of the last frame encrypted, of the last decrypted, and the EFN with which each began (R197). -/
  epochOut : Option Nat
  epochIn : Option Nat
  firstOut : Nat
  firstIn : Nat
  /-- Multiframe in progress, outbound: its number, the slot of its first frame, every frame encrypted so far, its additional
  data; and the tag of the one before it (R205). -/
  mfOut : Option (Nat × Option Nat × Bool)
  aadOut : List Byte
  tagOut : List Byte
  /-- Bytes of a Bridle segment that has begun (R253). -/
  brOut : List Byte
  /-- EFN of the switch that ends a hold: zeros are sent until it (R78, R80). -/
  zeroTo : Option Nat
  /-- Yardstamp at which the last outbound frame entered its rail, and the measured frame period in 2^-32 beat (R203). -/
  outStamp : DWord
  period : Nat
  /-- A position has been recovered from POSITION (R73, R76). -/
  posOk : Bool
  /-- L1_POL_LO as it stood at the inbound multiframe boundary (R212). -/
  pol : Word
  /-- Multiframes that have failed in a row from the one that holds e_sw on (R262). -/
  swFail : Nat
  /-- EFN of the last frame released by the merge (R285). -/
  lastRel : Option Nat
  /-- The inbound paths, 1 and 2. -/
  ins : Table L1In
deriving DecidableEq, Repr

/-- Twin and merge state of a channel beside its registers (R276 to R292). -/
structure TwinCh where
  /-- CRC-64 of the present beat's units, the beat, and the digests kept for comparison (R278, R279). -/
  crc : DWord
  crcBeat : Option Beat
  own : Table (Option DWord)
  /-- The lead's digests, with the beat in which each came. -/
  lead : Table (Option (DWord × Beat))
  wit : Table (Option DWord)
  /-- ASSIGN records that match no pending frame yet (R277): Yardstamp, ASN, FCS, length. -/
  unmatched : List (DWord × DWord × Nat × Nat)
  /-- Epoch of the last ASN given under R277 or R279. -/
  fEpoch : Option Nat
  held : List HeldUnit
  /-- Latest place each path has delivered (epoch, ASN), for R282. -/
  pathPos : Table (Option (Nat × DWord))
  /-- The channel rejoins: since this tick, with its CONTEXT taken, from this beat on (R289, R292); at the lead of a cell-mode
  channel `eligible` is the beat for which a CONTEXT is due. -/
  rejoining : Bool
  since : Nat
  gotContext : Bool
  eligible : Option Beat
  slotAcked : List Nat
  /-- Slots of the channel seen on the other path since the last valid cell of path 1, of path 2 (R282). -/
  quiet1 : Nat
  quiet2 : Nat
  released : Option (Nat × DWord × BitVec 128)
deriving DecidableEq, Repr

/-- A channel beside its Stall. -/
structure Chan where
  swOut : Option Switch
  swIn : Option Switch
  /-- Last epoch number used in each direction, none when the ring was never written (R240). -/
  lastOut : Option Nat
  lastIn : Option Nat
  /-- Beat at which the outbound epoch began (R236). -/
  beginOut : Beat
  /-- End of the receive grace of each direction's previous key (R226, R235). -/
  graceIn : Option Beat
  graceOut : Option Beat
  /-- Armed inbound window of a host key: epoch, earliest, latest (R244). -/
  window : Option (Nat × Beat × Beat)
  /-- Epoch length in milliseconds (R234). -/
  epochLen : Nat
  /-- B of the persisted inbound PN block mark (R242) and M of the ASN reservation (R241), as persisted, and whether a raise
  is on its way. -/
  pnMark : Nat
  resvM : Nat
  resvBusy : Bool
  pnBusy : Bool
  /-- Soft ASN limit already reported in this epoch (R135). -/
  softSeen : Bool
  /-- Tick of the last persisted install (R243). -/
  lastPersist : Option Nat
  /-- Next switch is a forced rekey (R79). -/
  forced : Bool
  /-- Cycle count of entry to CLOSING (R112). -/
  closing : Nat
  /-- Frames released since the channel opened (R160). -/
  rtagCount : Nat
  /-- IEEE 802.1CB recovery (R161): last number, and the history bits, newest first. -/
  cbLast : Option Nat
  cbHist : List Bool
  /-- Lowest PN accepted under an AN after a resume, beside the window (R242): AN and PN. -/
  inFloor : Option (Nat × Nat)
  /-- Custody has been gained and no epoch switch has followed (R321). -/
  awaitSw : Bool
  /-- Opened since the reset (R242); an outbound switch has been made since the reset (R81). -/
  opened : Bool
  switched : Bool
  /-- KEY_HOST and L from the next switch on (R357). -/
  nextHost : Option Bool
  nextLen : Option Nat
  br : Session
  cell : CellCh
  l1 : L1Ch
  tw : TwinCh
deriving DecidableEq, Repr

/-- What waits for a Loft write (R238, R241, R242, R548). -/
inductive LoftWait where
  | mark (ch dir epoch : Nat)
  | resv (ch m : Nat)
  | pnMark (ch b : Nat)
  | plain
deriving DecidableEq, Repr

/-- An entry of the Loft's write queue (R549). -/
structure LoftWrite where
  word : Nat
  value : DWord
  urgent : Bool
  wait : LoftWait
deriving DecidableEq, Repr



/-! ### Twin protection (spec/11) and the fabric (spec/12) -/

/-- The Twin pair's own state beside its registers. -/
structure Twin where
  /-- Session key TS (R273) and messages sent under it. -/
  key : List Byte
  own : DWord
  count : Nat
  /-- Bond sequence number to send and to deliver next, records that arrived early, the member port used last (R273). -/
  bondTx : Nat
  bondRx : Nat
  early : List (Nat × List Byte)
  turn : Nat
  /-- DIGEST records that found every member port DOWN (R279). -/
  backlog : List (List Byte)
  /-- Twin sync records delivered, oldest first. -/
  inq : List (List Byte)
  /-- Newest BEAT record: its beat, and the own beat in which it came (R277, R279). -/
  lastBeat : Option Beat
  lastCame : Beat
  /-- ASSIGN records sent, by the beat of their stamp (R276). -/
  assigns : Table Nat
  /-- Ticks of the follower's divergences and of the lead's defeats in the last second (R289, R290). -/
  divs : List Nat
  votes : List Nat
  /-- First beat of FREE_RUN (R279). -/
  freeFrom : Option Beat
  /-- Tick at which the rejoin or the binding began (R272, R292). -/
  since : Nat
deriving DecidableEq, Repr

/-- A sequenced flit that waits or is unacknowledged (R297); the last flit of a message carries the whole of it for R300. -/
structure ZFlit where
  kind : Nat
  vc : Nat
  payload : List Byte
  msg : List Byte
deriving DecidableEq, Repr

/-- A Z port beside its registers (R296 to R300). -/
structure ZPort where
  /-- Next SEQ to send, flits sent and unacknowledged with their SEQ, flits that wait. -/
  txSeq : Nat
  replay : List (Nat × ZFlit)
  txq : List ZFlit
  /-- Flits sent and last credit count, by virtual channel; place in the weighted round robin; channel whose credit is shown. -/
  sent : Table Nat
  credit : Table Nat
  rr : Nat
  cvc : Nat
  /-- SEQ expected, a NAK is out, flits freed and message in assembly by virtual channel. -/
  rxSeq : Nat
  nak : Bool
  freed : Table Nat
  asm : Table (List Byte)
  /-- INIT has been received, and the peer's serial number. -/
  init : Bool
  peer : DWord
  /-- Consecutive replays of the oldest flit, and the tick of the last advance of ACK. -/
  tries : Nat
  ackTick : Nat
  /-- Measured delays, newest first (R313); the link lies in the spanning tree (R306). -/
  delays : List Nat
  tree : Bool
deriving DecidableEq, Repr

/-- A message that a device has received and not handled (R308). -/
structure FabMsg where
  port : Nat
  typ : Nat
  flags : Nat
  dst : Nat
  src : Nat
  een : Nat
  status : Nat
  tag : Nat
  addr : Nat
  body : List Byte
deriving DecidableEq, Repr

/-- A member as its heartbeats show it (R324): its serial number and MASTER_PRI, generation and digest, the level of its
ARB_IN, position state, paths held, Z ports that are UP, and the tick of the last heartbeat. -/
structure Member where
  serial : Nat
  pri : Nat
  gen : Nat
  digest : List Byte
  arb : Bool
  pos : Nat
  paths : List Byte
  zup : Nat
  last : Nat
deriving DecidableEq, Repr

/-- A device in the master's map (R305): its serial number, ID and the peer serial and port of each Z port that is UP. -/
structure MapNode where
  serial : Nat
  dev : Nat
  links : List (Nat × Nat × Nat)
deriving DecidableEq, Repr

/-- A request of this device that waits for its response (R310). -/
structure FabReq where
  tag : Nat
  dst : Nat
  typ : Nat
  req : Nat
  sent : Nat
deriving DecidableEq, Repr

/-- A lease request in flight (R319): number, tick of departure, paths, grants by path. -/
structure LeaseReq where
  no : Nat
  t0 : Nat
  paths : List Nat
  grants : List (Nat × Nat)
deriving DecidableEq, Repr

/-- A configuration that is pulled (R327): its generation and digest, the bytes that have come, and whether they are whole. -/
structure Pulled where
  gen : Nat
  digest : List Byte
  raw : List Byte
  whole : Bool
deriving DecidableEq, Repr

/-- The fabric beside its registers. -/
structure Fabric where
  zports : Table ZPort
  members : Table (Option Member)
  /-- End-to-end numbers: next to send under 4·dst + vc, next to deliver under 4·src + vc, early messages with the tick of
  the gap (R311). -/
  eenTx : Table Nat
  eenRx : Table Nat
  early : List (Nat × FabMsg)
  inq : List FabMsg
  reqs : List FabReq
  tag : Nat
  map : List MapNode
  /-- Number of the map in use; the master's map in the making, its DISCOVER messages without reply by TAG with their ports,
  and at every device the port by which a DISCOVER of a TAG came (R305). -/
  mapNo : Nat
  draft : List MapNode
  disc : List (Nat × List Nat)
  back : List (Nat × Nat)
  /-- Choice of master: its priority and serial number (R304). -/
  master : Option (Nat × Nat)
  leases : List LeaseReq
  leaseNo : Nat
  /-- Tick at which the lease on a path lapses (R319). -/
  leaseEnd : Table Nat
  /-- Promises given: device and the tick at which it ends (R318). -/
  promise : Table (Option (Nat × Nat))
  /-- The voter set, and the one that a change puts in its place from a beat on (R316, R323). -/
  voters : List Nat
  voterChange : Option (Beat × List Nat)
  /-- Configuration pulled and not applied (R327). -/
  pulled : Option Pulled
  /-- Change beats of the last commits, by the key of their command (R113, R327). -/
  beats : Table Nat
  /-- Paths released in this device's favour (R320): candidates that have released them. -/
  released : List (Nat × Nat)
deriving DecidableEq, Repr

/-! ### The Yardmasters and the host (spec/13) -/

/-- A KEY_INSTALL that waits (R232, R362): its mailbox and channel, the slot and epoch installed, the outbound beat to arm once
the follower has the slot, the directions whose mark is still to persist, its response. -/
structure Install where
  box : Nat
  ch : Nat
  slot : Nat
  epoch : Nat
  arm : Option Beat
  marks : List Nat
  rsp : List Byte
deriving DecidableEq, Repr

/-- A configuration command sent to a master or a lead (R326): its mailbox and opcode, the generation to apply once it is known,
its status and response data, none where it ends later. -/
structure SentCmd where
  box : Nat
  op : Nat
  gen : Option Nat
  rsp : Option (Nat × List Byte)
deriving DecidableEq, Repr

/-- The Yardmasters' side of the mailboxes beside their registers. -/
structure Ym where
  /-- The firmware is ready (R345, R545). -/
  fwReady : Bool
  /-- Last token epoch attempted (R334); tick of the holder's last ALIVE. -/
  tried : Nat
  alive : Nat
  /-- Journaled response of each mailbox's last accepted command (R345, R346). -/
  resp : Table (List Byte)
  /-- Mailboxes with a tag accepted since the reset (R345), and those whose doorbell is held (R344). -/
  tagged : List Nat
  held : List Nat
  /-- Configuration commands sent to a master or a lead (R326, R354). -/
  sent : List SentCmd
  /-- Statistics are read by the host, and the aggregation interval in ms (R31, R366). -/
  statsHost : Bool
  statsMs : Nat
  /-- Mailboxes whose SHED_SET, TWIN_BIND goes on (R364, R541). -/
  shedBox : Option Nat
  bindBox : Option Nat
  /-- Installs that wait for their marks or for a Twin follower. -/
  installs : List Install
deriving DecidableEq, Repr

/-! ### The Dray cores (spec/15 to spec/18) -/

/-- A result in flight (R374): the issue cycle in which it lands, its slot, the issue cycle of its op, the register's code
(WCOLL's codes; 0x100 + n for control register n), its value, the bits it writes, whether it sets QC (R429). -/
structure Landing where
  land : Nat
  slot : Nat
  issued : Nat
  code : Nat
  value : Nat
  mask : Nat
  qc : Bool
deriving DecidableEq, Repr

/-- A store to local memory that later loads do not see yet (R376, R430): the first issue cycle whose loads see it, and its
bytes by local offset. -/
structure LmStore where
  vis : Nat
  cells : List (Nat × Byte)
deriving DecidableEq, Repr

/-- A vector op in its stream (R426): issue cycle, function (major opcode and fn), dependence latency, step count, element
width, VL, mask bits, register bases and spans of the destination and the sources, immediate or modulus, the cells of a store by
element, what has been read of each source group and of the old destination, the results of the destination registers
computed so far with the bits they write, the results it chains from (R428). -/
structure VStream where
  start : Nat
  op : Nat
  lat : Nat
  steps : Nat
  ew : Nat
  vl : Nat
  mask : Nat
  vd : Nat
  spanD : Nat
  vs1 : Nat
  span1 : Nat
  vs2 : Nat
  span2 : Nat
  imm : Nat
  addrs : List (Option Nat)
  src1 : List Nat
  src2 : List Nat
  old : List Nat
  done : List (Nat × Nat)
  chain : Option (List (Nat × Nat))
deriving DecidableEq, Repr

/-- What an op of a bundle does when its bundle commits. -/
inductive Eff where
  /-- A result that lands a number of issue cycles later: latency, register code, value, bits written. -/
  | land (lat code value mask : Nat)
  /-- A store of the L0 or L1 slot (R376). -/
  | store (cells : List (Nat × Byte))
  /-- An access to local memory, for the watchpoints (R452) and, through a data port of L0 or L1, for the banks (R378). -/
  | touch (addr n : Nat) (write port : Bool)
  /-- A vector load's read of the banks, and its wall cycles (R430). -/
  | vread (banks : List Nat) (cycles : Nat)
  /-- The value that a multiply-accumulate leaves to the next in its slot (R375). -/
  | mac (acc value : Nat)
  /-- A branch (R384): 0 conditional, 1 unconditional, 2 indirect; its own offset, its target, whether it is taken, bit A. -/
  | branch (kind addr target : Nat) (taken annul : Bool)
  /-- The link of a branch (R409), into an s register. -/
  | link (rd : Nat)
  /-- A read of a pair's LO latches its HI for the core (R391, R43): the pair's tag, the HI value. -/
  | latch (pair : Nat) (hi : Word)
  /-- A loop op (R388): level, count, distance in 4-byte units. -/
  | loop (level count dist : Nat)
  | atom (n : Nat)
  /-- LOCK's reservation on a Paddock word (R418). -/
  | lock (w : Nat)
  /-- UNLOCK (R419): the store it makes, if it succeeds. -/
  | unlock (store : Option (Nat × Nat))
  /-- A store of UNLOCK that Paddock refuses (R419, R456). -/
  | refused
  /-- A read of Paddock (R401, R418). -/
  | padRead (w n : Nat)
  /-- A far access starts (R412): tag, direction, global address, local offset, size, ordered. -/
  | far (tag : Nat) (store : Bool) (addr loc size : Nat) (ordered dev : Bool)
  /-- The bundle waits until these tags are complete (R412, R413). -/
  | need (tags : Nat)
  /-- The data of these tags can be read reliably from now on (R414). -/
  | settle (tags : Nat)
  | wait
  | syscall (code : Nat)
  | rete
  /-- A write of IFINISH (R442). -/
  | finish (n : Nat)
  /-- The vector unit is occupied (R427). -/
  | occupy (steps : Nat)
  | stream (v : VStream)
  /-- A range becomes confined (R404). -/
  | confine (base len : Nat)
  /-- ZCONF: a range is zeroed and released (R404). -/
  | release (base len : Nat)
  /-- A corrected error in local memory (R394). -/
  | corrected (w : Nat)
  /-- Wall cycles of a freeze (R378). -/
  | freeze (n : Nat)
deriving DecidableEq, Repr

/-- An op of the bundle being gathered (R371): its slot (8: none), its first word, its structural fault and its execution
fault (vector, EINFO), and its effects. -/
structure DrayOp where
  slot : Nat
  word : Nat
  structural : Option (Nat × Nat)
  execution : Option (Nat × Nat)
  effs : List Eff
deriving DecidableEq, Repr

/-- A tag of the far accesses (R411 to R414): outstanding, its completion status, direction, global address, local offset,
size, ordered (U or D), through a D segment, its place in issue order, the local range as it stood at issue, its data can be
read reliably, its source has been stored to. -/
structure FarTag where
  busy : Bool
  status : Nat
  store : Bool
  addr : Nat
  loc : Nat
  size : Nat
  ordered : Bool
  dev : Bool
  seq : Nat
  before : List Byte
  settled : Bool
  dirty : Bool
  /-- The rights under which the access was issued (R457): the core was the owner of the banks it reaches. -/
  owned : Bool
deriving DecidableEq, Repr

/-- The latest chainable vector op (R428): function, destination base and span, the first cycle in which the unit is free
after it, its results. -/
structure VChain where
  op : Nat
  vd : Nat
  span : Nat
  free : Nat
  done : List (Nat × Nat)
deriving DecidableEq, Repr

/-- A halt that waits for its boundary (R447, R448, R451): its reason, what matched, forced, late. -/
structure HaltReq where
  reason : Nat
  which : Nat
  forced : Bool
  late : Bool
deriving DecidableEq, Repr

/-- A Dray core. -/
structure Core where
  /-- s0–s63, p1–p7, a0–a3, v0–v31, m1–m7, g0–g15 (R373). -/
  sreg : Table Word
  preg : Table Bool
  acc : Table (BitVec 80)
  vreg : Table (BitVec 1024)
  mreg : Table (BitVec 128)
  seg : Table (BitVec 128)
  /-- PSW: SUP, IE, ATOM_LEFT, LOCKED (R391). -/
  sup : Bool
  ie : Bool
  atomLeft : Nat
  locked : Bool
  /-- Every other control register, by number. -/
  creg : Table Word
  /-- Issue cycles and wall cycles since start (R391). -/
  icycle : Nat
  wcycle : Nat
  /-- The MODEL's count of landing cycles: it also counts those of a drain (R381). -/
  cyc : Nat
  /-- Offset of the next bundle. -/
  pc : Nat
  /-- Delay slots left, the target that follows them, their annulment, the bubbles placed after them (R384, R385). -/
  left : Nat
  target : Option Nat
  annul : Bool
  bubbles : Nat
  /-- IE in the issue cycle of the last bundle (R441). -/
  ieLast : Bool
  flight : List Landing
  stores : List LmStore
  streams : List VStream
  /-- First cycle in which the vector unit is free (R427); the latest chainable op (R428). -/
  vfree : Nat
  /-- Banks that vector stores have written in this cycle (R430). -/
  vbanks : List Nat
  vchain : Option VChain
  /-- The last multiply-accumulate of M0 and M1 (R375): cycle, accumulator, result. -/
  mac0 : Option (Nat × Nat × Nat)
  mac1 : Option (Nat × Nat × Nat)
  /-- The predictor's counters; an unlisted one holds 1 (R386). -/
  predictor : Table Nat
  /-- Lines in the prefetch queue, and lines the legacy cache holds (R383, R387). -/
  queue : List Nat
  lines : List Nat
  /-- The LOCK reservation: the locked word, and whether it is still held (R418, R419). -/
  lock : Option (Nat × Bool)
  tags : Table FarTag
  farSeq : Nat
  /-- Confined ranges: base and length (R404). -/
  confined : List (Nat × Nat)
  /-- The bundle being gathered: its ops, its words; complete, and waiting for its tags. -/
  bundle : List DrayOp
  words : Nat
  frozen : Bool
  halt : Option HaltReq
  stepping : Bool
  /-- The trace buffer, oldest entry first (R453). -/
  trace : List DWord
deriving DecidableEq, Repr

/-- A tag that no far access has used. -/
def FarTag.reset : FarTag :=
  { busy := false, status := 0, store := false, addr := 0, loc := 0, size := 0, ordered := false, dev := false, seq := 0,
    before := [], settled := true, dirty := false, owned := false }

/-- A core as R393 starts it, and as it stands before it has run (R391). -/
def Core.reset : Core :=
  { sreg := [], preg := [], acc := [], vreg := [], mreg := [], seg := [], sup := true, ie := false, atomLeft := 0,
    locked := false, creg := [], icycle := 0, wcycle := 0, cyc := 0, pc := 0, left := 0, target := none, annul := false,
    bubbles := 0, ieLast := false, flight := [], stores := [], streams := [], vfree := 0, vbanks := [], vchain := none, mac0 := none,
    mac1 := none, predictor := [], queue := [], lines := [], lock := none, tags := [], farSeq := 0, confined := [], bundle := [],
    words := 0, frozen := false, halt := none, stepping := false, trace := [] }



/-! ### Tally (spec/21), power and reset (spec/24) -/

/-- Tally beside its registers: the synchroniser of the pins (R493), channel outputs as the evaluations see them, and what one
evaluation leaves for the next. Levels are one bit each of a number: pins 0–15 GPIO, 16 PPS_IN, 17 FRAME_IN. -/
structure Tally where
  /-- Levels in the synchroniser, newest first; the third is what the last evaluation but one saw. -/
  pins1 : Nat
  pins2 : Nat
  pins3 : Nat
  /-- Outputs of T0–T127 as this evaluation and the one before see them. -/
  outs1 : Nat
  outs2 : Nat
  /-- Events of the last evaluation by channel: bit 0 CMP0 match, bit 4 overflow (R490). -/
  evts : Table Nat
  /-- Compares by channel whose next match is a late one (R497, R498). -/
  late : Table Nat
  /-- Events met on the AON path by channel, whose actions wait for the clocks (R502). -/
  wait : Table Nat
  /-- Beat boundaries issued since the last evaluation, and the fraction it saw (R489). -/
  bounds : Nat
  frac : Nat
deriving DecidableEq, Repr

/-- Power and reset beside their registers (R536 to R545, R553). -/
structure Power where
  /-- Stage of the boot of R545: 0 held in reset, 1 the AON step has begun, 2 the core PLL has locked, 3 the firmware is ready. -/
  boot : Nat
  /-- The core domain's clocks are stopped for sleep (R543), or by a debug stop through JTAG (R502). -/
  asleep : Bool
  stopped : Bool
  /-- The PCIe link is up (R545). -/
  pcie : Bool
  /-- Factory test mode (R558). -/
  ftm : Bool
  /-- Sheds that wait to be switched on, the one whose power rises, the tick at which it began (R540). -/
  want : List Nat
  rising : Option Nat
  last : Option Nat
  /-- Sheds whose reset is held (R542). -/
  resets : List Nat
  /-- The boundary register, and what drives the balls (R534): 0 the device, 1 the boundary register, 2 nothing. -/
  boundary : List (String × Bool)
  balls : Nat
deriving DecidableEq, Repr

/-- The state of the block. -/
structure State where
  /-- Every register word, keyed by its offset; an unlisted one holds its reset value (R12, R36). -/
  csr : Table Word
  /-- Every byte of Paddock, Barn, Loft, Dray local memory and the BAR0 buffers, keyed by window offset (R34). -/
  mem : List Host.Cell
  /-- The position unit (spec/03). -/
  pos : Pos
  /-- Bell (spec/20). -/
  bell : Bell
  /-- The fault ledger (spec/22). -/
  ledger : Ledger
  /-- The MODEL's own count of the ticks that have passed (TALLY_EVALUATION; R487). -/
  now : Nat
  /-- Ports 0–31 P0–P31, 32–63 C0–C31, 64–71 Z0–Z7 beside their registers. -/
  ports : Table Port
  /-- Absent references among REFCLK_SD0–REFCLK_SD3 (R100). -/
  refLost : List Nat
  /-- REFCLK_SYS is lost (R553). -/
  sysLost : Bool
  /-- Program banks: bank b of Gate g under 2g + b (R117). -/
  gateProg : Table (List GateWord)
  /-- Exact table of each Gate (R124). -/
  gateExact : Table (List GateEntry)
  /-- Ternary table of each Gate, by rising index (R124). -/
  gateTern : Table (List GateEntry)
  /-- Frames that wait for a Gate, in the order in which their headers were held (R128). -/
  gateQ : List GateFrame
  /-- Accepted outbound units that have not left, in admission order (R131). -/
  units : List OutUnit
  /-- Twin follower: accepted frames that wait for their ASSIGN record (R277). -/
  pend : List OutUnit
  /-- Inbound units that wait for their checks, oldest first (R133). -/
  inq : List InUnit
  /-- Changes that wait for their change beat (R113, R116, R126). -/
  changes : List (Beat × Change)
  /-- Punt queues 0–7 (R137). -/
  punt : Table PuntQueue
  /-- Frames the host sends in clear that wait for a cipher-side port (R159, R359), oldest first: port, mailbox, bytes. -/
  clearTx : List (Nat × Nat × List Byte)
  /-- Host memory as the device has written it and the host has shown it, by PCIe address (R137, R511). -/
  hostMem : List Host.Cell
  /-- Channels 0–511 beside their Stalls. -/
  chans : Table Chan
  /-- The Tack room (spec/09). -/
  tack : Tack
  /-- Bridle messages that wait for their carrier, oldest first (R252). -/
  brTx : List BrOut
  /-- Bridle messages received, oldest first (R251). -/
  brIn : List BrIn
  /-- The Loft's write queue, oldest first (R549). -/
  loftQ : List LoftWrite
  /-- The hidden wear counter of each Loft word (R547). -/
  wear : Table Nat
  /-- Loft words that read as uncorrectable (R550). -/
  loftBad : List Nat
  /-- Loft words whose wear has been recorded (R551). -/
  loftWarned : List Nat
  /-- The Twin pair (spec/11). -/
  twin : Twin
  /-- The fabric (spec/12). -/
  fab : Fabric
  /-- Tally beside its registers (spec/21). -/
  tally : Tally
  /-- Power and reset beside their registers (spec/24). -/
  power : Power
  /-- Dray 0 to Dray 31 (spec/15 to spec/18). -/
  cores : Table Core
  /-- The declared configuration (R325): records by their first 8 bytes. -/
  config : Table (List Byte)
  /-- Rails that have not passed a test since their shed entered ON (R528). -/
  untested : List Nat
  /-- Each requester's latch of a HI value, with the offset of its pair (R43, R44). -/
  hiLatch : Table (Option (Nat × Word))
  /-- Each requester's staged LO value, with the offset of its pair (R43, R44). -/
  loStage : Table (Option (Nat × Word))
  /-- Written bit of each Paddock line (R462). -/
  padWritten : Table Bool
  /-- Window offsets of Paddock and Barn words that read as uncorrectable (R464, R469). -/
  eccBad : List Nat
  /-- The Yardmasters and mailboxes (spec/13). -/
  ym : Ym
  /-- Test blocks done in the pass in progress, by rail (R522, R524). -/
  railPass : Table Nat
  /-- Rails whose pass goes ahead of every other (R527). -/
  urgentRails : List Nat
  /-- Targets past their late-after time and not covered since (R530): class, index. -/
  lateTargets : List (Nat × Nat)
  /-- Engines withdrawn by a failed test (R529): 0 key wrap, 1 HKDF and SHA-384, 2 HMAC. -/
  engineOut : List Nat
  /-- The entropy source has failed its health tests: no random value until a warm reset (R533). -/
  noRandom : Bool
  /-- The answer the device gave to the last access. -/
  answer : Option Answer
  /-- The MODEL's own counter of free values drawn. -/
  draws : Nat
  /-- The MODEL's own view of what has left the device, newest first. -/
  outs : List Output
  /-- The commands that wait, first in first out. -/
  pending : List Instr
deriving DecidableEq, Repr

/-- The ledger after reset: nothing waits, nothing is muted. -/
def Ledger.reset : Ledger :=
  { queues := [], co := [], fifo := [], stuck := [], dropN := 0, dropD := 0, dropF := 0, fatalLost := false,
    mutes := [], safe := [], hostRing := 0, hostIdx := 0, oldSize := 0, oldHost := false,
    oldRing := 0, downs := [] }

/-- Bell after reset. -/
def Bell.reset : Bell :=
  { inputs := [], shPend := [], shActive := [], waiting := [], expired := none, hostDb := false }

/-- The position unit after reset: FREE, count 0 (R59), POS_CFG as its map gives it. -/
def Pos.reset : Pos :=
  { cur := { src := 3, cls := 0, lead := 0 }, ticks := 0, beatLen := 57396429, estLen := 57396429, miss := 0, periods := [],
    qRun := 0, qPeriods := [], qLast := none, qDone := false, badRun := false, slew := 0, hoDue := false,
    hostBeat := none, hostOfs := 0, fabPos := none, ppsOut := false, dataOut := 0 }


/-- A port after reset: no signal, nothing pending. -/
def Port.reset : Port :=
  { anDone := false, retry := false, slaved := false, badSeen := false, calBase := 0, calPrev := 0, calArm := none, run := 0,
    lastSlot := 0, odd := none, outSlot := none }

/-- An empty traffic slot. -/
def Slot.reset : Slot :=
  { kind := 0, bytes := [], epoch := 0, an := 0, keyId := [], persist := false, bad := false }

/-- An empty deposit buffer. -/
def Deposit.reset : Deposit := { bytes := [], core := none }

/-- A punt queue that is not enabled. -/
def PuntQueue.reset : PuntQueue :=
  { en := false, descs := 0, size := 0, ring := 0, idx := 0, prod := 0, fullBeat := none }

/-- The Tack room after reset: cleared. -/
def Tack.reset : Tack :=
  { slots := [], keks := [], pairs := [], idSeed := [], idPub := [], cert := [], certOk := false, twinKey := [],
    deposits := [], ck := [], cached := [], kemPair := none, zeroLow := false, zeroVault := false }

/-- A Bridle session that is DOWN. -/
def Session.reset : Session :=
  { verified := false, answered := false, exch := none, first := true, confirmFails := 0, late1 := [], late2 := [],
    tagFails := [], rttCount := 0, probeNo := 0, probesOut := [], hbSeen := false, hbCount := 0, posCount := 0,
    digestDue := false, helloDue := 0, rxSeq := [], part0 := none, part1 := none, peerPos := none }

/-- No cell is being reassembled. -/
def CellCh.reset : CellCh := 
  { reasm := [], discard := false, expect := none, outEpoch := none, inEpoch := none, prevAsn := 0, pathSlot := [] }

/-- A layer-1 path on which nothing has come. -/
def L1In.reset : L1In :=
  { last := none, mf := none, key := none, good := 0, aad := [], due := none, tag := [], res := none, hunt := [],
    sfCount := 0, sfSeen := [], sfAt := none, sfBad := 0 }

/-- Layer-1 state of a channel that has not run. -/
def L1Ch.reset : L1Ch :=
  { efnAt := none, efnWait := false, epochOut := none, epochIn := none, firstOut := 0, firstIn := 0, mfOut := none,
    aadOut := [], tagOut := [], brOut := [], zeroTo := none, outStamp := 0, period := 0, posOk := false, pol := 0x00022000,
    swFail := 0, lastRel := none, ins := [] }

/-- Twin state of a channel that is not in a pair. -/
def TwinCh.reset : TwinCh :=
  { crc := 0, crcBeat := none, own := [], lead := [], wit := [], unmatched := [], fEpoch := none, held := [], pathPos := [], 
    rejoining := false, since := 0, gotContext := false, eligible := none, slotAcked := [], quiet1 := 0, quiet2 := 0,
    released := none }

/-- A channel that has never been opened. -/
def Chan.reset : Chan :=
  { swOut := none, swIn := none, lastOut := none, lastIn := none, beginOut := 0, graceIn := none, graceOut := none,
    window := none, epochLen := 1000, pnMark := 1, resvM := 1, resvBusy := false, pnBusy := false, softSeen := false,
    lastPersist := none, forced := false, closing := 0, rtagCount := 0, cbLast := none, cbHist := [],
    inFloor := none, awaitSw := false, opened := false, switched := false, nextHost := none, nextLen := none,
    br := Session.reset, cell := CellCh.reset, l1 := L1Ch.reset, tw := TwinCh.reset }


/-- No Twin pair. -/
def Twin.reset : Twin :=
  { key := [], own := 0, count := 0, bondTx := 0, bondRx := 0, early := [], turn := 0, backlog := [], inq := [], lastBeat := none, lastCame := 0,
    assigns := [], divs := [], votes := [], freeFrom := none, since := 0 }

/-- A Z port that has not trained. -/
def ZPort.reset : ZPort :=
  { txSeq := 0, replay := [], txq := [], sent := [], credit := [], rr := 0, cvc := 0, rxSeq := 0, nak := false, freed := [],
    asm := [], init := false, peer := 0, tries := 0, ackTick := 0, delays := [], tree := false }

/-- No fabric. -/
def Fabric.reset : Fabric :=
  { zports := [], members := [], eenTx := [], eenRx := [], early := [], inq := [], reqs := [], tag := 0, map := [], mapNo := 0, draft := [], disc := [], back := [],
    master := none, leases := [], leaseNo := 0, leaseEnd := [], promise := [], voters := [], voterChange := none,
    pulled := none, beats := [], released := [] }


/-- The Yardmasters before their firmware is ready. -/
def Ym.reset : Ym :=
  { fwReady := false, tried := 0, alive := 0, resp := [], tagged := [], held := [], sent := [], statsHost := false,
    statsMs := 0, shedBox := none, bindBox := none,
    installs := [] }


/-- Tally after reset. -/
def Tally.reset : Tally :=
  { pins1 := 0, pins2 := 0, pins3 := 0, outs1 := 0, outs2 := 0, evts := [], late := [], wait := [], bounds := 0, frac := 0 }

/-- The device as PORST_N is released: in reset, no shed ON, no link. -/
def Power.reset : Power :=
  { boot := 0, asleep := false, stopped := false, pcie := false, ftm := false, want := [], rising := none,
    last := none, resets := [], boundary := [], balls := 0 }

/-- The machine right after reset (R544, R545): every register at the value its map gives, and what the manual gives no
reset value for at the value the assumption log names. -/
def State.reset : State :=
  {csr := [(0x2C000020, 1)],
    mem := [],
    pos := Pos.reset,
    bell := Bell.reset,
    ledger := Ledger.reset,
    now := 0,
    ports := [],
    refLost := [],
    sysLost := false,
    gateProg := [],
    gateExact := [],
    gateTern := [],
    gateQ := [],
    units := [],
    pend := [],
    inq := [],
    changes := [],
    punt := [],
    clearTx := [],
    hostMem := [],
    chans := [],
    tack := Tack.reset,
    brTx := [],
    brIn := [],
    loftQ := [],
    wear := [],
    loftBad := [],
    loftWarned := [],
    twin := Twin.reset,
    fab := Fabric.reset,
    tally := Tally.reset,
    power := Power.reset,
    cores := [],
    config := [],
    untested := [],
    hiLatch := [],
    loStage := [],
    padWritten := [],
    eccBad := [],
    ym := Ym.reset,
    railPass := [],
    urgentRails := [],
    lateTargets := [],
    engineOut := [],
    noRandom := false,
    answer := none,
    draws := 0,
    outs := [],
    pending := [] }

end Sys2Proof.Machine
end

