-- ==== Sys2Proof/Machine/Regs.lean ====
section
/-!
DEFINITION. The register map: every register of CSR space and of the host's page and mailboxes, as the register maps of
spec/02 to spec/24 list them: its offset (a function of its indices), its fields, and one row of `regMap` that gives its
reset value and the kind (R12) of each field. The mailboxes and the host control page lie in BAR0, outside the device
window: their keys are BAR0 offsets above 2^40 (`bar0Key`).
-/

namespace Sys2Proof.Machine

/-- A field of a register: the register's offset, its highest and its lowest bit (R9). -/
structure Fld where
  off : Nat
  hi : Nat
  lo : Nat
deriving DecidableEq, Repr

/-- The kinds of R12; `cntSat` is a CNT that saturates, `mark` a PERS field that holds a monotonic mark (R40). -/
inductive Kind where
  | rw | ro | wo | w1c | w1s | rc | cnt | cntSat | live | pers | mark
deriving DecidableEq, Repr

/-- One field of a register map row. -/
structure RegFld where
  hi : Nat
  lo : Nat
  kind : Kind
deriving DecidableEq, Repr

/-- One row of the register map: `n1` × `n2` × `n3` copies at strides `s1`, `s2`, `s3`. -/
structure RegRow where
  name : String
  base : Nat
  n1 : Nat
  s1 : Nat
  n2 : Nat
  s2 : Nat
  n3 : Nat
  s3 : Nat
  reset : Word
  flds : List RegFld
deriving DecidableEq, Repr

/-- Key of a BAR0 offset (R341) in the table of registers. -/
def bar0Key (o : Nat) : Nat := 0x10000000000 + o

/-- spec/02: SUBSYS_ID. -/
def SUBSYS_ID (k : Nat) : Nat := 0x1F000000 + k * 0x1000000
def SUBSYS_ID_CODE (k : Nat) : Fld := ⟨SUBSYS_ID k, 31, 24⟩
def SUBSYS_ID_MAJOR (k : Nat) : Fld := ⟨SUBSYS_ID k, 23, 16⟩
def SUBSYS_ID_MINOR (k : Nat) : Fld := ⟨SUBSYS_ID k, 15, 8⟩
/-- spec/02: SUBSYS_STAT. -/
def SUBSYS_STAT (k : Nat) : Nat := 0x1F000004 + k * 0x1000000
def SUBSYS_STAT_PERS_COLL (k : Nat) : Fld := ⟨SUBSYS_STAT k, 31, 31⟩
def SUBSYS_STAT_DECODE_SEEN (k : Nat) : Fld := ⟨SUBSYS_STAT k, 30, 30⟩
def SUBSYS_STAT_DECODE_CNT (k : Nat) : Fld := ⟨SUBSYS_STAT k, 15, 0⟩
/-- spec/02: DECODE_INFO. -/
def DECODE_INFO (k : Nat) : Nat := 0x1F000008 + k * 0x1000000
def DECODE_INFO_REQ (k : Nat) : Fld := ⟨DECODE_INFO k, 31, 24⟩
def DECODE_INFO_OFFSET (k : Nat) : Fld := ⟨DECODE_INFO k, 23, 0⟩
/-- spec/03: POS_CFG. -/
def POS_CFG : Nat := 0x20000010
def POS_CFG_PPS_DIV : Fld := ⟨POS_CFG, 31, 24⟩
def POS_CFG_QUAL : Fld := ⟨POS_CFG, 23, 16⟩
def POS_CFG_LEAD_PORT : Fld := ⟨POS_CFG, 13, 8⟩
def POS_CFG_BEAT_CLASS : Fld := ⟨POS_CFG, 5, 4⟩
def POS_CFG_SRC : Fld := ⟨POS_CFG, 1, 0⟩
/-- spec/03: POS_HO_MAX. -/
def POS_HO_MAX : Nat := 0x20000014
def POS_HO_MAX_HO_MAX : Fld := ⟨POS_HO_MAX, 19, 0⟩
/-- spec/03: POS_STAT. -/
def POS_STAT : Nat := 0x20000018
def POS_STAT_HELD : Fld := ⟨POS_STAT, 25, 16⟩
def POS_STAT_FREQ_VALID : Fld := ⟨POS_STAT, 4, 4⟩
def POS_STAT_SRC_OK : Fld := ⟨POS_STAT, 3, 3⟩
def POS_STAT_PENDING : Fld := ⟨POS_STAT, 2, 2⟩
def POS_STAT_STATE : Fld := ⟨POS_STAT, 1, 0⟩
/-- spec/03: POS_FREQ. -/
def POS_FREQ : Nat := 0x2000001C
def POS_FREQ_FREQ_OFS : Fld := ⟨POS_FREQ, 31, 0⟩
/-- spec/03: POS_NOW_LO. -/
def POS_NOW_LO : Nat := 0x20000020
def POS_NOW_LO_BEAT_LO : Fld := ⟨POS_NOW_LO, 31, 16⟩
def POS_NOW_LO_FRAC : Fld := ⟨POS_NOW_LO, 15, 0⟩
/-- spec/03: POS_NOW_HI. -/
def POS_NOW_HI : Nat := 0x20000024
def POS_NOW_HI_BEAT_HI : Fld := ⟨POS_NOW_HI, 31, 0⟩
/-- spec/03: POS_EVT. -/
def POS_EVT : Nat := 0x20000028
def POS_EVT_BACK_RX : Fld := ⟨POS_EVT, 8, 8⟩
def POS_EVT_BEAT : Fld := ⟨POS_EVT, 7, 7⟩
def POS_EVT_RESUMED : Fld := ⟨POS_EVT, 6, 6⟩
def POS_EVT_SRC_INVALID : Fld := ⟨POS_EVT, 5, 5⟩
def POS_EVT_STEP : Fld := ⟨POS_EVT, 4, 4⟩
def POS_EVT_REGR : Fld := ⟨POS_EVT, 3, 3⟩
def POS_EVT_FREE : Fld := ⟨POS_EVT, 2, 2⟩
def POS_EVT_HOLD : Fld := ⟨POS_EVT, 1, 1⟩
def POS_EVT_LOCK : Fld := ⟨POS_EVT, 0, 0⟩
/-- spec/03: POS_REGR_CNT. -/
def POS_REGR_CNT : Nat := 0x2000002C
def POS_REGR_CNT_STEPS : Fld := ⟨POS_REGR_CNT, 31, 16⟩
def POS_REGR_CNT_REGRESSIONS : Fld := ⟨POS_REGR_CNT, 15, 0⟩
/-- spec/04: GRP_CFG. -/
def GRP_CFG (g : Nat) : Nat := 0x21001000 + g * 0x100
def GRP_CFG_MAP_BAD (g : Nat) : Fld := ⟨GRP_CFG g, 31, 31⟩
def GRP_CFG_CFG_LOCKED (g : Nat) : Fld := ⟨GRP_CFG g, 30, 30⟩
def GRP_CFG_REFSEL (g : Nat) : Fld := ⟨GRP_CFG g, 27, 26⟩
def GRP_CFG_FAMILY (g : Nat) : Fld := ⟨GRP_CFG g, 25, 24⟩
/-- spec/04: GRP_LANEMAP_RX. -/
def GRP_LANEMAP_RX (g : Nat) : Nat := 0x21001004 + g * 0x100
def GRP_LANEMAP_RX_MAP (g : Nat) : Fld := ⟨GRP_LANEMAP_RX g, 23, 0⟩
/-- spec/04: GRP_LANEMAP_TX. -/
def GRP_LANEMAP_TX (g : Nat) : Nat := 0x21001008 + g * 0x100
def GRP_LANEMAP_TX_MAP (g : Nat) : Fld := ⟨GRP_LANEMAP_TX g, 23, 0⟩
/-- spec/04: GRP_POLARITY. -/
def GRP_POLARITY (g : Nat) : Nat := 0x2100100C + g * 0x100
def GRP_POLARITY_TX_INV (g : Nat) : Fld := ⟨GRP_POLARITY g, 15, 8⟩
def GRP_POLARITY_RX_INV (g : Nat) : Fld := ⟨GRP_POLARITY g, 7, 0⟩
/-- spec/04: PORT_CFG. -/
def PORT_CFG (k : Nat) : Nat := 0x21002000 + k * 0x40
def PORT_CFG_EN (k : Nat) : Fld := ⟨PORT_CFG k, 31, 31⟩
def PORT_CFG_AN_EN (k : Nat) : Fld := ⟨PORT_CFG k, 30, 30⟩
def PORT_CFG_UP_HOLD (k : Nat) : Fld := ⟨PORT_CFG k, 23, 16⟩
def PORT_CFG_SD_THRESH (k : Nat) : Fld := ⟨PORT_CFG k, 15, 8⟩
def PORT_CFG_FEC (k : Nat) : Fld := ⟨PORT_CFG k, 7, 6⟩
def PORT_CFG_TYPE (k : Nat) : Fld := ⟨PORT_CFG k, 5, 0⟩
/-- spec/04: PORT_TIMING. -/
def PORT_TIMING (k : Nat) : Nat := 0x21002004 + k * 0x40
def PORT_TIMING_THROUGH (k : Nat) : Fld := ⟨PORT_TIMING k, 8, 8⟩
def PORT_TIMING_PARTNER (k : Nat) : Fld := ⟨PORT_TIMING k, 5, 0⟩
/-- spec/04: PORT_STAT. -/
def PORT_STAT (k : Nat) : Nat := 0x21002008 + k * 0x40
def PORT_STAT_REMOTE (k : Nat) : Fld := ⟨PORT_STAT k, 15, 15⟩
def PORT_STAT_AIS_RX (k : Nat) : Fld := ⟨PORT_STAT k, 14, 14⟩
def PORT_STAT_SD (k : Nat) : Fld := ⟨PORT_STAT k, 13, 13⟩
def PORT_STAT_HIBER (k : Nat) : Fld := ⟨PORT_STAT k, 12, 12⟩
def PORT_STAT_LOCK (k : Nat) : Fld := ⟨PORT_STAT k, 11, 11⟩
def PORT_STAT_SIGNAL (k : Nat) : Fld := ⟨PORT_STAT k, 10, 10⟩
def PORT_STAT_REASON (k : Nat) : Fld := ⟨PORT_STAT k, 7, 4⟩
def PORT_STAT_STATE (k : Nat) : Fld := ⟨PORT_STAT k, 1, 0⟩
/-- spec/04: PORT_EVT. -/
def PORT_EVT (k : Nat) : Nat := 0x2100200C + k * 0x40
def PORT_EVT_EVT (k : Nat) : Fld := ⟨PORT_EVT k, 10, 0⟩
/-- spec/04: PORT_EVT_EN. -/
def PORT_EVT_EN (k : Nat) : Nat := 0x21002010 + k * 0x40
def PORT_EVT_EN_EN (k : Nat) : Fld := ⟨PORT_EVT_EN k, 10, 0⟩
/-- spec/04: PORT_FEC_CORR_LO. -/
def PORT_FEC_CORR_LO (k : Nat) : Nat := 0x21002018 + k * 0x40
def PORT_FEC_CORR_LO_CORR_LO (k : Nat) : Fld := ⟨PORT_FEC_CORR_LO k, 31, 0⟩
/-- spec/04: PORT_FEC_CORR_HI. -/
def PORT_FEC_CORR_HI (k : Nat) : Nat := 0x2100201C + k * 0x40
def PORT_FEC_CORR_HI_CORR_HI (k : Nat) : Fld := ⟨PORT_FEC_CORR_HI k, 31, 0⟩
/-- spec/04: PORT_FEC_UNCORR. -/
def PORT_FEC_UNCORR (k : Nat) : Nat := 0x21002020 + k * 0x40
def PORT_FEC_UNCORR_UNCORR (k : Nat) : Fld := ⟨PORT_FEC_UNCORR k, 31, 0⟩
/-- spec/05: GATE_CFG. -/
def GATE_CFG (g : Nat) : Nat := 0x22001000 + g * 0x100
def GATE_CFG_EN (g : Nat) : Fld := ⟨GATE_CFG g, 31, 31⟩
def GATE_CFG_ACTIVE (g : Nat) : Fld := ⟨GATE_CFG g, 30, 30⟩
def GATE_CFG_UNMATCHED (g : Nat) : Fld := ⟨GATE_CFG g, 29, 29⟩
def GATE_CFG_UNM_Q (g : Nat) : Fld := ⟨GATE_CFG g, 26, 24⟩
/-- spec/05: GATE_STAT. -/
def GATE_STAT (g : Nat) : Nat := 0x22001004 + g * 0x100
def GATE_STAT_EXACT_USED (g : Nat) : Fld := ⟨GATE_STAT g, 12, 0⟩
/-- spec/05: GATE_BANK. -/
def GATE_BANK (g : Nat) : Nat := 0x22001008 + g * 0x100
def GATE_BANK_IN_USE (g : Nat) : Fld := ⟨GATE_BANK g, 2, 2⟩
def GATE_BANK_VALID1 (g : Nat) : Fld := ⟨GATE_BANK g, 1, 1⟩
def GATE_BANK_VALID0 (g : Nat) : Fld := ⟨GATE_BANK g, 0, 0⟩
/-- spec/05: PORT_REFUSE. -/
def PORT_REFUSE (k i : Nat) : Nat := 0x22004000 + k * 0x100 + i * 0x4
/-- spec/05: CH_CFG. -/
def CH_CFG (n : Nat) : Nat := 0x22100000 + n * 0x800
def CH_CFG_STATE (n : Nat) : Fld := ⟨CH_CFG n, 31, 30⟩
def CH_CFG_MODE (n : Nat) : Fld := ⟨CH_CFG n, 29, 28⟩
def CH_CFG_TWIN (n : Nat) : Fld := ⟨CH_CFG n, 27, 27⟩
def CH_CFG_KEY_HOST (n : Nat) : Fld := ⟨CH_CFG n, 26, 26⟩
def CH_CFG_BRIDLE_HOST (n : Nat) : Fld := ⟨CH_CFG n, 25, 25⟩
def CH_CFG_OUT_EN (n : Nat) : Fld := ⟨CH_CFG n, 24, 24⟩
def CH_CFG_IN_EN (n : Nat) : Fld := ⟨CH_CFG n, 23, 23⟩
def CH_CFG_SNF (n : Nat) : Fld := ⟨CH_CFG n, 22, 22⟩
def CH_CFG_RTAG (n : Nat) : Fld := ⟨CH_CFG n, 21, 21⟩
def CH_CFG_EGRESS_PORT (n : Nat) : Fld := ⟨CH_CFG n, 20, 16⟩
def CH_CFG_CIPHER_PORT (n : Nat) : Fld := ⟨CH_CFG n, 12, 8⟩
/-- spec/05: CH_STAT. -/
def CH_STAT (n : Nat) : Nat := 0x22100004 + n * 0x800
def CH_STAT_LEASE (n : Nat) : Fld := ⟨CH_STAT n, 4, 4⟩
def CH_STAT_MUTED (n : Nat) : Fld := ⟨CH_STAT n, 3, 3⟩
def CH_STAT_HELD (n : Nat) : Fld := ⟨CH_STAT n, 2, 2⟩
def CH_STAT_IN_KEY (n : Nat) : Fld := ⟨CH_STAT n, 1, 1⟩
def CH_STAT_OUT_KEY (n : Nat) : Fld := ⟨CH_STAT n, 0, 0⟩
/-- spec/05: CH_BIND. -/
def CH_BIND (n : Nat) : Nat := 0x22100008 + n * 0x800
def CH_BIND_INGRESS_MASK (n : Nat) : Fld := ⟨CH_BIND n, 31, 0⟩
/-- spec/05: CH_TRIB. -/
def CH_TRIB (n : Nat) : Nat := 0x2210000C + n * 0x800
def CH_TRIB_CIPHER_TRIB (n : Nat) : Fld := ⟨CH_TRIB n, 31, 16⟩
def CH_TRIB_PLAIN_TRIB_kind (n : Nat) : Fld := ⟨CH_TRIB n, 15, 12⟩
def CH_TRIB_PLAIN_TRIB_index (n : Nat) : Fld := ⟨CH_TRIB n, 11, 0⟩
/-- spec/05: CH_SCI. -/
def CH_SCI (n i : Nat) : Nat := 0x22100010 + n * 0x800 + i * 0x4
/-- spec/05: CH_EVT. -/
def CH_EVT (n : Nat) : Nat := 0x22100018 + n * 0x800
def CH_EVT_KEY_EMPTY (n : Nat) : Fld := ⟨CH_EVT n, 7, 7⟩
def CH_EVT_MUTE (n : Nat) : Fld := ⟨CH_EVT n, 6, 6⟩
def CH_EVT_HELD (n : Nat) : Fld := ⟨CH_EVT n, 5, 5⟩
def CH_EVT_SWITCHED (n : Nat) : Fld := ⟨CH_EVT n, 4, 4⟩
def CH_EVT_ASN_HARD (n : Nat) : Fld := ⟨CH_EVT n, 3, 3⟩
def CH_EVT_ASN_SOFT (n : Nat) : Fld := ⟨CH_EVT n, 2, 2⟩
def CH_EVT_CLOSED (n : Nat) : Fld := ⟨CH_EVT n, 1, 1⟩
def CH_EVT_OPENED (n : Nat) : Fld := ⟨CH_EVT n, 0, 0⟩
/-- spec/05: CH_EVT_EN. -/
def CH_EVT_EN (n : Nat) : Nat := 0x2210001C + n * 0x800
def CH_EVT_EN_EN (n : Nat) : Fld := ⟨CH_EVT_EN n, 7, 0⟩
/-- spec/05: CH_POLICY. -/
def CH_POLICY (n : Nat) : Nat := 0x22100020 + n * 0x800
def CH_POLICY_BUF_MIN (n : Nat) : Fld := ⟨CH_POLICY n, 29, 16⟩
def CH_POLICY_MAX_LEN (n : Nat) : Fld := ⟨CH_POLICY n, 13, 0⟩
/-- spec/05: CH_POLICY2. -/
def CH_POLICY2 (n : Nat) : Nat := 0x22100024 + n * 0x800
def CH_POLICY2_BUF_MAX (n : Nat) : Fld := ⟨CH_POLICY2 n, 13, 0⟩
/-- spec/06: FRM_POL_LO. -/
def FRM_POL_LO (n : Nat) : Nat := 0x22100028 + n * 0x800
def FRM_POL_LO_SUITE (n : Nat) : Fld := ⟨FRM_POL_LO n, 31, 30⟩
def FRM_POL_LO_CO (n : Nat) : Fld := ⟨FRM_POL_LO n, 29, 28⟩
def FRM_POL_LO_CLEAR_TAGS (n : Nat) : Fld := ⟨FRM_POL_LO n, 27, 26⟩
def FRM_POL_LO_SC (n : Nat) : Fld := ⟨FRM_POL_LO n, 25, 25⟩
def FRM_POL_LO_ES (n : Nat) : Fld := ⟨FRM_POL_LO n, 24, 24⟩
def FRM_POL_LO_SCB (n : Nat) : Fld := ⟨FRM_POL_LO n, 23, 23⟩
def FRM_POL_LO_CB_ELIM (n : Nat) : Fld := ⟨FRM_POL_LO n, 22, 22⟩
def FRM_POL_LO_CB_CODE (n : Nat) : Fld := ⟨FRM_POL_LO n, 21, 18⟩
def FRM_POL_LO_CB_HIST (n : Nat) : Fld := ⟨FRM_POL_LO n, 17, 12⟩
def FRM_POL_LO_BRIDLE_VID (n : Nat) : Fld := ⟨FRM_POL_LO n, 11, 0⟩
/-- spec/07: CELL_POL_LO. -/
def CELL_POL_LO (n : Nat) : Nat := 0x22100028 + n * 0x800
def CELL_POL_LO_DIR (n : Nat) : Fld := ⟨CELL_POL_LO n, 31, 31⟩
def CELL_POL_LO_PEER_CPORT (n : Nat) : Fld := ⟨CELL_POL_LO n, 28, 24⟩
def CELL_POL_LO_HOLD (n : Nat) : Fld := ⟨CELL_POL_LO n, 7, 0⟩
/-- spec/08: L1_POL_LO. -/
def L1_POL_LO (n : Nat) : Nat := 0x22100028 + n * 0x800
def L1_POL_LO_DIR (n : Nat) : Fld := ⟨L1_POL_LO n, 31, 31⟩
def L1_POL_LO_OH_SEL (n : Nat) : Fld := ⟨L1_POL_LO n, 30, 30⟩
def L1_POL_LO_PEER_CH (n : Nat) : Fld := ⟨L1_POL_LO n, 29, 21⟩
def L1_POL_LO_AIS_N (n : Nat) : Fld := ⟨L1_POL_LO n, 19, 16⟩
def L1_POL_LO_CLEAR_N (n : Nat) : Fld := ⟨L1_POL_LO n, 15, 12⟩
def L1_POL_LO_AIS_OFF (n : Nat) : Fld := ⟨L1_POL_LO n, 0, 0⟩
/-- spec/06: FRM_POL_HI. -/
def FRM_POL_HI (n : Nat) : Nat := 0x2210002C + n * 0x800
def FRM_POL_HI_REPLAY_WIN (n : Nat) : Fld := ⟨FRM_POL_HI n, 30, 0⟩
/-- spec/07: CELL_POL_HI. -/
def CELL_POL_HI (n : Nat) : Nat := 0x2210002C + n * 0x800
def CELL_POL_HI_GAP (n : Nat) : Fld := ⟨CELL_POL_HI n, 12, 0⟩
/-- spec/08: L1_POL_HI. -/
def L1_POL_HI (n : Nat) : Nat := 0x2210002C + n * 0x800
/-- spec/05: CH_DIGEST. -/
def CH_DIGEST (n i : Nat) : Nat := 0x22100030 + n * 0x800 + i * 0x4
/-- spec/09: KB_ROLES. -/
def KB_ROLES (n d : Nat) : Nat := 0x22100040 + n * 0x800 + d * 0x20
def KB_ROLES_CUR_V (n d : Nat) : Fld := ⟨KB_ROLES n d, 31, 31⟩
def KB_ROLES_NEXT_V (n d : Nat) : Fld := ⟨KB_ROLES n d, 30, 30⟩
def KB_ROLES_PREV_V (n d : Nat) : Fld := ⟨KB_ROLES n d, 29, 29⟩
def KB_ROLES_SPARE_V (n d : Nat) : Fld := ⟨KB_ROLES n d, 28, 28⟩
def KB_ROLES_SW_ARMED (n d : Nat) : Fld := ⟨KB_ROLES n d, 27, 27⟩
def KB_ROLES_PERSIST (n d : Nat) : Fld := ⟨KB_ROLES n d, 26, 26⟩
def KB_ROLES_KIND (n d : Nat) : Fld := ⟨KB_ROLES n d, 25, 24⟩
def KB_ROLES_AN (n d : Nat) : Fld := ⟨KB_ROLES n d, 9, 8⟩
def KB_ROLES_CUR_SLOT (n d : Nat) : Fld := ⟨KB_ROLES n d, 7, 6⟩
def KB_ROLES_NEXT_SLOT (n d : Nat) : Fld := ⟨KB_ROLES n d, 5, 4⟩
def KB_ROLES_PREV_SLOT (n d : Nat) : Fld := ⟨KB_ROLES n d, 3, 2⟩
def KB_ROLES_SPARE_SLOT (n d : Nat) : Fld := ⟨KB_ROLES n d, 1, 0⟩
/-- spec/09: KB_EPOCH. -/
def KB_EPOCH (n d : Nat) : Nat := 0x22100044 + n * 0x800 + d * 0x20
def KB_EPOCH_EPOCH (n d : Nat) : Fld := ⟨KB_EPOCH n d, 31, 0⟩
/-- spec/09: KB_SW_BEAT_LO. -/
def KB_SW_BEAT_LO (n d : Nat) : Nat := 0x22100048 + n * 0x800 + d * 0x20
def KB_SW_BEAT_LO_SW_BEAT_LO (n d : Nat) : Fld := ⟨KB_SW_BEAT_LO n d, 31, 0⟩
/-- spec/09: KB_SW_BEAT_HI. -/
def KB_SW_BEAT_HI (n d : Nat) : Nat := 0x2210004C + n * 0x800 + d * 0x20
def KB_SW_BEAT_HI_SW_BEAT_HI (n d : Nat) : Fld := ⟨KB_SW_BEAT_HI n d, 15, 0⟩
/-- spec/09: KB_KCV_LO. -/
def KB_KCV_LO (n d : Nat) : Nat := 0x22100050 + n * 0x800 + d * 0x20
/-- spec/09: KB_KCV_HI. -/
def KB_KCV_HI (n d : Nat) : Nat := 0x22100054 + n * 0x800 + d * 0x20
/-- spec/09: KB_GRACE. -/
def KB_GRACE (n d : Nat) : Nat := 0x22100058 + n * 0x800 + d * 0x20
def KB_GRACE_GRACE_END (n d : Nat) : Fld := ⟨KB_GRACE n d, 31, 0⟩
/-- spec/05: CH_OUT_ASN_LO. -/
def CH_OUT_ASN_LO (n : Nat) : Nat := 0x22100080 + n * 0x800
/-- spec/05: CH_OUT_ASN_HI. -/
def CH_OUT_ASN_HI (n : Nat) : Nat := 0x22100084 + n * 0x800
/-- spec/05: CH_OUT_ASN_RESV_LO. -/
def CH_OUT_ASN_RESV_LO (n : Nat) : Nat := 0x22100088 + n * 0x800
/-- spec/05: CH_OUT_ASN_RESV_HI. -/
def CH_OUT_ASN_RESV_HI (n : Nat) : Nat := 0x2210008C + n * 0x800
/-- spec/05: CH_IN_ASN_LO. -/
def CH_IN_ASN_LO (n : Nat) : Nat := 0x22100090 + n * 0x800
/-- spec/05: CH_IN_ASN_HI. -/
def CH_IN_ASN_HI (n : Nat) : Nat := 0x22100094 + n * 0x800
/-- spec/05: CH_IN_POS_LO. -/
def CH_IN_POS_LO (n : Nat) : Nat := 0x22100098 + n * 0x800
/-- spec/05: CH_IN_POS_HI. -/
def CH_IN_POS_HI (n : Nat) : Nat := 0x2210009C + n * 0x800
/-- spec/05: CH_MODE_W0_LO. -/
def CH_MODE_W0_LO (n : Nat) : Nat := 0x221000A0 + n * 0x800
/-- spec/05: CH_MODE_W0_HI. -/
def CH_MODE_W0_HI (n : Nat) : Nat := 0x221000A4 + n * 0x800
/-- spec/05: CH_MODE_W1_LO. -/
def CH_MODE_W1_LO (n : Nat) : Nat := 0x221000A8 + n * 0x800
/-- spec/05: CH_MODE_W1_HI. -/
def CH_MODE_W1_HI (n : Nat) : Nat := 0x221000AC + n * 0x800
/-- spec/05: CH_MODE_W2_LO. -/
def CH_MODE_W2_LO (n : Nat) : Nat := 0x221000B0 + n * 0x800
/-- spec/05: CH_MODE_W2_HI. -/
def CH_MODE_W2_HI (n : Nat) : Nat := 0x221000B4 + n * 0x800
/-- spec/08: L1_RUN. -/
def L1_RUN (n : Nat) : Nat := 0x221000B8 + n * 0x800
def L1_RUN_INPUT_LOST (n : Nat) : Fld := ⟨L1_RUN n, 11, 11⟩
def L1_RUN_SF_LOCK (n : Nat) : Fld := ⟨L1_RUN n, 10, 10⟩
def L1_RUN_CHECKED (n : Nat) : Fld := ⟨L1_RUN n, 9, 9⟩
def L1_RUN_AIS (n : Nat) : Fld := ⟨L1_RUN n, 8, 8⟩
def L1_RUN_PASS_RUN (n : Nat) : Fld := ⟨L1_RUN n, 7, 4⟩
def L1_RUN_FAIL_RUN (n : Nat) : Fld := ⟨L1_RUN n, 3, 0⟩
/-- spec/05: CH_MODE_W3_HI. -/
def CH_MODE_W3_HI (n : Nat) : Nat := 0x221000BC + n * 0x800
/-- spec/06: CH_REPLAY. -/
def CH_REPLAY (n i : Nat) : Nat := 0x221000C0 + n * 0x800 + i * 0x4
/-- spec/05: CH_OUT_STAT. -/
def CH_OUT_STAT (n i : Nat) : Nat := 0x22100100 + n * 0x800 + i * 0x4
/-- spec/05: CH_IN_STAT. -/
def CH_IN_STAT (n i : Nat) : Nat := 0x22100200 + n * 0x800 + i * 0x4
/-- spec/05: CH_REFUSE. -/
def CH_REFUSE (n i : Nat) : Nat := 0x22100300 + n * 0x800 + i * 0x4
/-- spec/11: TWC_CFG. -/
def TWC_CFG (n : Nat) : Nat := 0x22100400 + n * 0x800
def TWC_CFG_WIT_EN (n : Nat) : Fld := ⟨TWC_CFG n, 31, 31⟩
def TWC_CFG_WIT_ID (n : Nat) : Fld := ⟨TWC_CFG n, 25, 16⟩
def TWC_CFG_PATH2_PORT (n : Nat) : Fld := ⟨TWC_CFG n, 12, 8⟩
/-- spec/11: TWC_STAT. -/
def TWC_STAT (n : Nat) : Nat := 0x22100404 + n * 0x800
def TWC_STAT_P2_LOST (n : Nat) : Fld := ⟨TWC_STAT n, 4, 4⟩
def TWC_STAT_P1_LOST (n : Nat) : Fld := ⟨TWC_STAT n, 3, 3⟩
def TWC_STAT_DISTRUST (n : Nat) : Fld := ⟨TWC_STAT n, 2, 2⟩
def TWC_STAT_SEL (n : Nat) : Fld := ⟨TWC_STAT n, 1, 1⟩
def TWC_STAT_LEAD_PATH (n : Nat) : Fld := ⟨TWC_STAT n, 0, 0⟩
/-- spec/11: TWC_REL_EPOCH. -/
def TWC_REL_EPOCH (n : Nat) : Nat := 0x22100408 + n * 0x800
/-- spec/11: TWC_REL_ASN_LO. -/
def TWC_REL_ASN_LO (n : Nat) : Nat := 0x22100410 + n * 0x800
/-- spec/11: TWC_REL_ASN_HI. -/
def TWC_REL_ASN_HI (n : Nat) : Nat := 0x22100414 + n * 0x800
/-- spec/11: TWC_F_COUNT_LO. -/
def TWC_F_COUNT_LO (n : Nat) : Nat := 0x22100418 + n * 0x800
/-- spec/11: TWC_F_COUNT_HI. -/
def TWC_F_COUNT_HI (n : Nat) : Nat := 0x2210041C + n * 0x800
/-- spec/11: TWC_DIGEST. -/
def TWC_DIGEST (n i : Nat) : Nat := 0x22100420 + n * 0x800 + i * 0x4
/-- spec/11: TWC_CNT. -/
def TWC_CNT (n i : Nat) : Nat := 0x22100440 + n * 0x800 + i * 0x4
/-- spec/10: BR_STAT. -/
def BR_STAT (n : Nat) : Nat := 0x22100600 + n * 0x800
def BR_STAT_TRIES (n : Nat) : Fld := ⟨BR_STAT n, 15, 13⟩
def BR_STAT_EXCH (n : Nat) : Fld := ⟨BR_STAT n, 12, 12⟩
def BR_STAT_HB_MISS (n : Nat) : Fld := ⟨BR_STAT n, 9, 8⟩
def BR_STAT_LATE_1S (n : Nat) : Fld := ⟨BR_STAT n, 5, 4⟩
def BR_STAT_ROLE (n : Nat) : Fld := ⟨BR_STAT n, 2, 2⟩
def BR_STAT_STATE (n : Nat) : Fld := ⟨BR_STAT n, 1, 0⟩
/-- spec/10: BR_RTT0. -/
def BR_RTT0 (n : Nat) : Nat := 0x22100604 + n * 0x800
/-- spec/10: BR_RTT_LAST. -/
def BR_RTT_LAST (n : Nat) : Nat := 0x22100608 + n * 0x800
/-- spec/10: BR_TURN_LAST. -/
def BR_TURN_LAST (n : Nat) : Nat := 0x2210060C + n * 0x800
/-- spec/10: BR_TX_SEQ. -/
def BR_TX_SEQ (n i : Nat) : Nat := 0x22100610 + n * 0x800 + i * 0x4
/-- spec/10: BR_RX_SEQ. -/
def BR_RX_SEQ (n i : Nat) : Nat := 0x22100620 + n * 0x800 + i * 0x4
/-- spec/10: BR_SID_TX_LO. -/
def BR_SID_TX_LO (n : Nat) : Nat := 0x22100630 + n * 0x800
/-- spec/10: BR_SID_TX_HI. -/
def BR_SID_TX_HI (n : Nat) : Nat := 0x22100634 + n * 0x800
/-- spec/10: BR_SID_RX_LO. -/
def BR_SID_RX_LO (n : Nat) : Nat := 0x22100638 + n * 0x800
/-- spec/10: BR_SID_RX_HI. -/
def BR_SID_RX_HI (n : Nat) : Nat := 0x2210063C + n * 0x800
/-- spec/10: BR_CNT. -/
def BR_CNT (n i : Nat) : Nat := 0x22100640 + n * 0x800 + i * 0x4
/-- spec/14: CH_CUST. -/
def CH_CUST (n i : Nat) : Nat := 0x22100700 + n * 0x800 + i * 0x4
/-- spec/07: CELL_PORT_CFG. -/
def CELL_PORT_CFG (k : Nat) : Nat := 0x22200000 + k * 0x8000
def CELL_PORT_CFG_EN (k : Nat) : Fld := ⟨CELL_PORT_CFG k, 31, 31⟩
def CELL_PORT_CFG_CAL_BAD (k : Nat) : Fld := ⟨CELL_PORT_CFG k, 30, 30⟩
def CELL_PORT_CFG_CAL_LOCKED (k : Nat) : Fld := ⟨CELL_PORT_CFG k, 29, 29⟩
def CELL_PORT_CFG_ARMED (k : Nat) : Fld := ⟨CELL_PORT_CFG k, 9, 9⟩
def CELL_PORT_CFG_ACTIVE (k : Nat) : Fld := ⟨CELL_PORT_CFG k, 8, 8⟩
def CELL_PORT_CFG_LEN1 (k : Nat) : Fld := ⟨CELL_PORT_CFG k, 7, 4⟩
def CELL_PORT_CFG_LEN0 (k : Nat) : Fld := ⟨CELL_PORT_CFG k, 3, 0⟩
/-- spec/07: CELL_PORT_STAT. -/
def CELL_PORT_STAT (k : Nat) : Nat := 0x22200004 + k * 0x8000
def CELL_PORT_STAT_SPB (k : Nat) : Fld := ⟨CELL_PORT_STAT k, 24, 16⟩
def CELL_PORT_STAT_DELIN (k : Nat) : Fld := ⟨CELL_PORT_STAT k, 1, 0⟩
/-- spec/07: CELL_SW_BEAT_LO. -/
def CELL_SW_BEAT_LO (k : Nat) : Nat := 0x22200008 + k * 0x8000
def CELL_SW_BEAT_LO_SW_BEAT_LO (k : Nat) : Fld := ⟨CELL_SW_BEAT_LO k, 31, 0⟩
/-- spec/07: CELL_SW_BEAT_HI. -/
def CELL_SW_BEAT_HI (k : Nat) : Nat := 0x2220000C + k * 0x8000
def CELL_SW_BEAT_HI_SW_BEAT_HI (k : Nat) : Fld := ⟨CELL_SW_BEAT_HI k, 15, 0⟩
/-- spec/07: CELL_HEC_ERR. -/
def CELL_HEC_ERR (k : Nat) : Nat := 0x22200010 + k * 0x8000
def CELL_HEC_ERR_CNT (k : Nat) : Fld := ⟨CELL_HEC_ERR k, 31, 0⟩
/-- spec/07: CELL_SLOT_JUMP. -/
def CELL_SLOT_JUMP (k : Nat) : Nat := 0x22200014 + k * 0x8000
def CELL_SLOT_JUMP_CNT (k : Nat) : Fld := ⟨CELL_SLOT_JUMP k, 31, 0⟩
/-- spec/07: CELL_EMPTY_RX. -/
def CELL_EMPTY_RX (k : Nat) : Nat := 0x22200018 + k * 0x8000
def CELL_EMPTY_RX_CNT (k : Nat) : Fld := ⟨CELL_EMPTY_RX k, 31, 0⟩
/-- spec/07: CELL_CAL. -/
def CELL_CAL (k c j : Nat) : Nat := 0x22202000 + k * 0x8000 + c * 0x2000 + j * 0x4
def CELL_CAL_ENTRY_ODD (k c j : Nat) : Fld := ⟨CELL_CAL k c j, 25, 16⟩
def CELL_CAL_ENTRY_EVEN (k c j : Nat) : Fld := ⟨CELL_CAL k c j, 9, 0⟩
/-- spec/09: TR_STAT. -/
def TR_STAT : Nat := 0x24000010
def TR_STAT_ZEROISED : Fld := ⟨TR_STAT, 31, 31⟩
def TR_STAT_ERASE_PEND : Fld := ⟨TR_STAT, 30, 30⟩
def TR_STAT_ID_VALID : Fld := ⟨TR_STAT, 29, 29⟩
def TR_STAT_SK_OK : Fld := ⟨TR_STAT, 28, 28⟩
def TR_STAT_SLOTS_USED : Fld := ⟨TR_STAT, 27, 16⟩
def TR_STAT_KEK_VALID : Fld := ⟨TR_STAT, 15, 0⟩
/-- spec/09: TR_PAIR_VALID. -/
def TR_PAIR_VALID : Nat := 0x24000014
def TR_PAIR_VALID_PAIR_VALID : Fld := ⟨TR_PAIR_VALID, 31, 0⟩
/-- spec/09: TR_CFG. -/
def TR_CFG : Nat := 0x24000018
def TR_CFG_EXPORT_EN : Fld := ⟨TR_CFG, 31, 31⟩
def TR_CFG_PERSIST_MIN : Fld := ⟨TR_CFG, 15, 0⟩
/-- spec/09: TR_CNT. -/
def TR_CNT : Nat := 0x2400001C
def TR_CNT_UNWRAP_FAIL : Fld := ⟨TR_CNT, 31, 16⟩
def TR_CNT_SLOT_BUSY : Fld := ⟨TR_CNT, 15, 0⟩
/-- spec/10: BR_CFG. -/
def BR_CFG (n : Nat) : Nat := 0x25001000 + n * 0x10
def BR_CFG_EN (n : Nat) : Fld := ⟨BR_CFG n, 31, 31⟩
def BR_CFG_DOWN_MUTE (n : Nat) : Fld := ⟨BR_CFG n, 30, 30⟩
def BR_CFG_PAIR (n : Nat) : Fld := ⟨BR_CFG n, 28, 24⟩
def BR_CFG_PROBE_INT (n : Nat) : Fld := ⟨BR_CFG n, 23, 16⟩
def BR_CFG_PEER_CH (n : Nat) : Fld := ⟨BR_CFG n, 8, 0⟩
/-- spec/10: BR_TIMING. -/
def BR_TIMING (n : Nat) : Nat := 0x25001004 + n * 0x10
def BR_TIMING_DELAY_TOL (n : Nat) : Fld := ⟨BR_TIMING n, 31, 16⟩
/-- spec/11: TW_CFG. -/
def TW_CFG : Nat := 0x26000010
def TW_CFG_EN : Fld := ⟨TW_CFG, 31, 31⟩
def TW_CFG_ARB_EN : Fld := ⟨TW_CFG, 30, 30⟩
def TW_CFG_ROLE : Fld := ⟨TW_CFG, 29, 29⟩
def TW_CFG_MY_PATH : Fld := ⟨TW_CFG, 28, 28⟩
def TW_CFG_MATE_ID : Fld := ⟨TW_CFG, 25, 16⟩
def TW_CFG_TLINKS : Fld := ⟨TW_CFG, 3, 0⟩
/-- spec/11: TW_STAT. -/
def TW_STAT : Nat := 0x26000014
def TW_STAT_FR_BEATS : Fld := ⟨TW_STAT, 28, 16⟩
def TW_STAT_LINK_OK : Fld := ⟨TW_STAT, 9, 9⟩
def TW_STAT_ARB : Fld := ⟨TW_STAT, 8, 8⟩
def TW_STAT_STATE : Fld := ⟨TW_STAT, 2, 0⟩
/-- spec/11: TW_EVT. -/
def TW_EVT : Nat := 0x26000018
def TW_EVT_TWO_LEADS : Fld := ⟨TW_EVT, 7, 7⟩
def TW_EVT_FAULTY : Fld := ⟨TW_EVT, 6, 6⟩
def TW_EVT_OUTVOTED : Fld := ⟨TW_EVT, 5, 5⟩
def TW_EVT_DIVERGE : Fld := ⟨TW_EVT, 4, 4⟩
def TW_EVT_REJOINED : Fld := ⟨TW_EVT, 3, 3⟩
def TW_EVT_MUTED : Fld := ⟨TW_EVT, 2, 2⟩
def TW_EVT_FREE_RUN : Fld := ⟨TW_EVT, 1, 1⟩
def TW_EVT_PROMOTED : Fld := ⟨TW_EVT, 0, 0⟩
/-- spec/11: MERGE_CFG. -/
def MERGE_CFG : Nat := 0x2600001C
def MERGE_CFG_HOLD_BYTES : Fld := ⟨MERGE_CFG, 31, 16⟩
def MERGE_CFG_MAX_DIFF : Fld := ⟨MERGE_CFG, 15, 0⟩
/-- spec/11: MERGE_STAT. -/
def MERGE_STAT : Nat := 0x26000020
def MERGE_STAT_HELD_KIB : Fld := ⟨MERGE_STAT, 31, 0⟩
/-- spec/12: FAB_CFG. -/
def FAB_CFG : Nat := 0x27000010
def FAB_CFG_EN : Fld := ⟨FAB_CFG, 31, 31⟩
def FAB_CFG_VOTER : Fld := ⟨FAB_CFG, 30, 30⟩
def FAB_CFG_CAST_MODE : Fld := ⟨FAB_CFG, 29, 29⟩
def FAB_CFG_MASTER_PRI : Fld := ⟨FAB_CFG, 27, 24⟩
def FAB_CFG_CAST_ID : Fld := ⟨FAB_CFG, 19, 10⟩
def FAB_CFG_POS_MASTER_ID : Fld := ⟨FAB_CFG, 9, 0⟩
/-- spec/12: FAB_ID. -/
def FAB_ID : Nat := 0x27000014
def FAB_ID_ID_VALID : Fld := ⟨FAB_ID, 31, 31⟩
def FAB_ID_ID_SRC : Fld := ⟨FAB_ID, 30, 29⟩
def FAB_ID_DEV_ID : Fld := ⟨FAB_ID, 25, 16⟩
def FAB_ID_LOFT_ID_EN : Fld := ⟨FAB_ID, 10, 10⟩
def FAB_ID_LOFT_ID : Fld := ⟨FAB_ID, 9, 0⟩
/-- spec/12: FAB_STAT. -/
def FAB_STAT : Nat := 0x27000018
def FAB_STAT_STATE : Fld := ⟨FAB_STAT, 31, 30⟩
def FAB_STAT_QUORUM : Fld := ⟨FAB_STAT, 29, 29⟩
def FAB_STAT_IS_MASTER : Fld := ⟨FAB_STAT, 28, 28⟩
def FAB_STAT_MASTER_ID : Fld := ⟨FAB_STAT, 25, 16⟩
def FAB_STAT_MEMBERS : Fld := ⟨FAB_STAT, 10, 0⟩
/-- spec/12: FAB_GEN_LO. -/
def FAB_GEN_LO : Nat := 0x27000020
/-- spec/12: FAB_GEN_HI. -/
def FAB_GEN_HI : Nat := 0x27000024
/-- spec/12: FAB_DIGEST. -/
def FAB_DIGEST (i : Nat) : Nat := 0x27000028 + i * 0x4
/-- spec/12: FAB_CFG_STAT. -/
def FAB_CFG_STAT : Nat := 0x27000038
def FAB_CFG_STAT_PULLING : Fld := ⟨FAB_CFG_STAT, 2, 2⟩
def FAB_CFG_STAT_DIVERGE : Fld := ⟨FAB_CFG_STAT, 1, 1⟩
def FAB_CFG_STAT_ALL_AGREE : Fld := ⟨FAB_CFG_STAT, 0, 0⟩
/-- spec/12: FAB_EVT. -/
def FAB_EVT : Nat := 0x2700003C
def FAB_EVT_EVT : Fld := ⟨FAB_EVT, 10, 0⟩
/-- spec/12: FAB_EVT_EN. -/
def FAB_EVT_EN : Nat := 0x27000040
def FAB_EVT_EN_EN : Fld := ⟨FAB_EVT_EN, 10, 0⟩
/-- spec/12: FAB_SERIAL_LO. -/
def FAB_SERIAL_LO : Nat := 0x27000048
/-- spec/12: FAB_SERIAL_HI. -/
def FAB_SERIAL_HI : Nat := 0x2700004C
/-- spec/12: ZP_STAT. -/
def ZP_STAT (k : Nat) : Nat := 0x27001000 + k * 0x40
def ZP_STAT_PEER_ID (k : Nat) : Fld := ⟨ZP_STAT k, 21, 12⟩
def ZP_STAT_PEER_PORT (k : Nat) : Fld := ⟨ZP_STAT k, 11, 9⟩
def ZP_STAT_UPWARD (k : Nat) : Fld := ⟨ZP_STAT k, 0, 0⟩
/-- spec/12: ZP_DELAY. -/
def ZP_DELAY (k : Nat) : Nat := 0x27001004 + k * 0x40
def ZP_DELAY_DELAY (k : Nat) : Fld := ⟨ZP_DELAY k, 31, 0⟩
/-- spec/12: ZP_CRC_ERR. -/
def ZP_CRC_ERR (k : Nat) : Nat := 0x27001008 + k * 0x40
def ZP_CRC_ERR_CRC_ERR (k : Nat) : Fld := ⟨ZP_CRC_ERR k, 31, 0⟩
/-- spec/12: ZP_REPLAY. -/
def ZP_REPLAY (k : Nat) : Nat := 0x2700100C + k * 0x40
def ZP_REPLAY_REPLAY (k : Nat) : Fld := ⟨ZP_REPLAY k, 31, 0⟩
/-- spec/12: FAB_ROUTE. -/
def FAB_ROUTE (d : Nat) : Nat := 0x27008000 + d * 0x4
def FAB_ROUTE_VALID (d : Nat) : Fld := ⟨FAB_ROUTE d, 31, 31⟩
def FAB_ROUTE_ALT_VALID (d : Nat) : Fld := ⟨FAB_ROUTE d, 30, 30⟩
def FAB_ROUTE_HOPS (d : Nat) : Fld := ⟨FAB_ROUTE d, 24, 20⟩
def FAB_ROUTE_ALT_PORT (d : Nat) : Fld := ⟨FAB_ROUTE d, 10, 8⟩
def FAB_ROUTE_PORT (d : Nat) : Fld := ⟨FAB_ROUTE d, 2, 0⟩
/-- spec/12: FAB_RIGHTS. -/
def FAB_RIGHTS (j : Nat) : Nat := 0x2700A000 + j * 0x4
def FAB_RIGHTS_RIGHTS (j : Nat) : Fld := ⟨FAB_RIGHTS j, 31, 0⟩
/-- spec/12: FAB_LEASE. -/
def FAB_LEASE (n : Nat) : Nat := 0x2700C000 + n * 0x20
def FAB_LEASE_HELD (n : Nat) : Fld := ⟨FAB_LEASE n, 31, 31⟩
def FAB_LEASE_CAND (n : Nat) : Fld := ⟨FAB_LEASE n, 30, 30⟩
def FAB_LEASE_RANK (n : Nat) : Fld := ⟨FAB_LEASE n, 29, 28⟩
def FAB_LEASE_HOLDER_KNOWN (n : Nat) : Fld := ⟨FAB_LEASE n, 27, 27⟩
def FAB_LEASE_HOLDER (n : Nat) : Fld := ⟨FAB_LEASE n, 25, 16⟩
def FAB_LEASE_REMAIN (n : Nat) : Fld := ⟨FAB_LEASE n, 11, 0⟩
/-- spec/12: FAB_CUST_01. -/
def FAB_CUST_01 (n : Nat) : Nat := 0x2700C004 + n * 0x20
def FAB_CUST_01_V0 (n : Nat) : Fld := ⟨FAB_CUST_01 n, 31, 31⟩
def FAB_CUST_01_CAND0 (n : Nat) : Fld := ⟨FAB_CUST_01 n, 25, 16⟩
def FAB_CUST_01_V1 (n : Nat) : Fld := ⟨FAB_CUST_01 n, 15, 15⟩
def FAB_CUST_01_CAND1 (n : Nat) : Fld := ⟨FAB_CUST_01 n, 9, 0⟩
/-- spec/12: FAB_CUST_23. -/
def FAB_CUST_23 (n : Nat) : Nat := 0x2700C008 + n * 0x20
def FAB_CUST_23_V2 (n : Nat) : Fld := ⟨FAB_CUST_23 n, 31, 31⟩
def FAB_CUST_23_CAND2 (n : Nat) : Fld := ⟨FAB_CUST_23 n, 25, 16⟩
def FAB_CUST_23_V3 (n : Nat) : Fld := ⟨FAB_CUST_23 n, 15, 15⟩
def FAB_CUST_23_CAND3 (n : Nat) : Fld := ⟨FAB_CUST_23 n, 9, 0⟩
/-- spec/12: FAB_FWD. -/
def FAB_FWD (n : Nat) : Nat := 0x2700C00C + n * 0x20
def FAB_FWD_FWD_EN (n : Nat) : Fld := ⟨FAB_FWD n, 31, 31⟩
def FAB_FWD_ROLE (n : Nat) : Fld := ⟨FAB_FWD n, 30, 30⟩
def FAB_FWD_FWD_OUT (n : Nat) : Fld := ⟨FAB_FWD n, 29, 29⟩
def FAB_FWD_REMOTE_PORT (n : Nat) : Fld := ⟨FAB_FWD n, 28, 24⟩
def FAB_FWD_PEER_CH (n : Nat) : Fld := ⟨FAB_FWD n, 18, 10⟩
def FAB_FWD_PEER_DEV (n : Nat) : Fld := ⟨FAB_FWD n, 9, 0⟩
/-- spec/12: FAB_FWD_MASK. -/
def FAB_FWD_MASK (n : Nat) : Nat := 0x2700C010 + n * 0x20
def FAB_FWD_MASK_FWD_MASK (n : Nat) : Fld := ⟨FAB_FWD_MASK n, 31, 0⟩
/-- spec/12: FAB_FWD_LEN. -/
def FAB_FWD_LEN (n : Nat) : Nat := 0x2700C014 + n * 0x20
def FAB_FWD_LEN_FWD_LEN (n : Nat) : Fld := ⟨FAB_FWD_LEN n, 13, 0⟩
/-- spec/12: FAB_FWD_DROP. -/
def FAB_FWD_DROP (n : Nat) : Nat := 0x2700C018 + n * 0x20
def FAB_FWD_DROP_FWD_DROP (n : Nat) : Fld := ⟨FAB_FWD_DROP n, 31, 0⟩
/-- spec/15: DRAY_CTL. -/
def DRAY_CTL (k : Nat) : Nat := 0x28001000 + k * 0x40
def DRAY_CTL_RUN (k : Nat) : Fld := ⟨DRAY_CTL k, 31, 31⟩
def DRAY_CTL_CUST (k : Nat) : Fld := ⟨DRAY_CTL k, 30, 30⟩
/-- spec/15: DRAY_ENTRY. -/
def DRAY_ENTRY (k : Nat) : Nat := 0x28001004 + k * 0x40
def DRAY_ENTRY_ENTRY (k : Nat) : Fld := ⟨DRAY_ENTRY k, 18, 3⟩
/-- spec/15: DRAY_STAT. -/
def DRAY_STAT (k : Nat) : Nat := 0x28001008 + k * 0x40
def DRAY_STAT_LM_READY (k : Nat) : Fld := ⟨DRAY_STAT k, 4, 4⟩
def DRAY_STAT_STATE (k : Nat) : Fld := ⟨DRAY_STAT k, 2, 0⟩
/-- spec/15: DRAY_FREEZE. -/
def DRAY_FREEZE (k : Nat) : Nat := 0x2800100C + k * 0x40
def DRAY_FREEZE_FREEZES (k : Nat) : Fld := ⟨DRAY_FREEZE k, 31, 0⟩
/-- spec/15: DRAY_MISPRED. -/
def DRAY_MISPRED (k : Nat) : Nat := 0x28001010 + k * 0x40
def DRAY_MISPRED_MISPRED (k : Nat) : Fld := ⟨DRAY_MISPRED k, 31, 0⟩
/-- spec/18: DRAY_DBG_CTL. -/
def DRAY_DBG_CTL (k : Nat) : Nat := 0x28001014 + k * 0x40
def DRAY_DBG_CTL_DBG_EN (k : Nat) : Fld := ⟨DRAY_DBG_CTL k, 31, 31⟩
def DRAY_DBG_CTL_BRK_HALT (k : Nat) : Fld := ⟨DRAY_DBG_CTL k, 30, 30⟩
def DRAY_DBG_CTL_STEP_IE (k : Nat) : Fld := ⟨DRAY_DBG_CTL k, 29, 29⟩
def DRAY_DBG_CTL_FORCE (k : Nat) : Fld := ⟨DRAY_DBG_CTL k, 3, 3⟩
def DRAY_DBG_CTL_STEP (k : Nat) : Fld := ⟨DRAY_DBG_CTL k, 2, 2⟩
def DRAY_DBG_CTL_RESUME (k : Nat) : Fld := ⟨DRAY_DBG_CTL k, 1, 1⟩
def DRAY_DBG_CTL_HALT (k : Nat) : Fld := ⟨DRAY_DBG_CTL k, 0, 0⟩
/-- spec/18: DRAY_DBG_STAT. -/
def DRAY_DBG_STAT (k : Nat) : Nat := 0x28001018 + k * 0x40
def DRAY_DBG_STAT_HALTED (k : Nat) : Fld := ⟨DRAY_DBG_STAT k, 31, 31⟩
def DRAY_DBG_STAT_LOCK_BROKEN (k : Nat) : Fld := ⟨DRAY_DBG_STAT k, 30, 30⟩
def DRAY_DBG_STAT_LATE (k : Nat) : Fld := ⟨DRAY_DBG_STAT k, 29, 29⟩
def DRAY_DBG_STAT_DENIED (k : Nat) : Fld := ⟨DRAY_DBG_STAT k, 28, 28⟩
def DRAY_DBG_STAT_REASON (k : Nat) : Fld := ⟨DRAY_DBG_STAT k, 27, 24⟩
def DRAY_DBG_STAT_WHICH (k : Nat) : Fld := ⟨DRAY_DBG_STAT k, 23, 21⟩
def DRAY_DBG_STAT_PC (k : Nat) : Fld := ⟨DRAY_DBG_STAT k, 18, 2⟩
/-- spec/18: DRAY_DBG_RSEL. -/
def DRAY_DBG_RSEL (k : Nat) : Nat := 0x2800101C + k * 0x40
def DRAY_DBG_RSEL_CREG (k : Nat) : Fld := ⟨DRAY_DBG_RSEL k, 31, 31⟩
def DRAY_DBG_RSEL_CODE (k : Nat) : Fld := ⟨DRAY_DBG_RSEL k, 15, 8⟩
def DRAY_DBG_RSEL_WORD (k : Nat) : Fld := ⟨DRAY_DBG_RSEL k, 4, 0⟩
/-- spec/18: DRAY_DBG_RDATA. -/
def DRAY_DBG_RDATA (k : Nat) : Nat := 0x28001020 + k * 0x40
def DRAY_DBG_RDATA_DATA (k : Nat) : Fld := ⟨DRAY_DBG_RDATA k, 31, 0⟩
/-- spec/18: DRAY_TRACE_CTL. -/
def DRAY_TRACE_CTL (k : Nat) : Nat := 0x28001024 + k * 0x40
def DRAY_TRACE_CTL_EN (k : Nat) : Fld := ⟨DRAY_TRACE_CTL k, 31, 31⟩
def DRAY_TRACE_CTL_WRAP (k : Nat) : Fld := ⟨DRAY_TRACE_CTL k, 30, 30⟩
def DRAY_TRACE_CTL_OVF (k : Nat) : Fld := ⟨DRAY_TRACE_CTL k, 29, 29⟩
def DRAY_TRACE_CTL_THRESH (k : Nat) : Fld := ⟨DRAY_TRACE_CTL k, 23, 16⟩
def DRAY_TRACE_CTL_COUNT (k : Nat) : Fld := ⟨DRAY_TRACE_CTL k, 8, 0⟩
/-- spec/18: DRAY_TRACE_LO. -/
def DRAY_TRACE_LO (k : Nat) : Nat := 0x28001028 + k * 0x40
def DRAY_TRACE_LO_TRACE_LO (k : Nat) : Fld := ⟨DRAY_TRACE_LO k, 31, 0⟩
/-- spec/18: DRAY_TRACE_HI. -/
def DRAY_TRACE_HI (k : Nat) : Nat := 0x2800102C + k * 0x40
def DRAY_TRACE_HI_TRACE_HI (k : Nat) : Fld := ⟨DRAY_TRACE_HI k, 31, 0⟩
/-- spec/19: PADK_CORR. -/
def PADK_CORR : Nat := 0x29000010
def PADK_CORR_N : Fld := ⟨PADK_CORR, 31, 0⟩
/-- spec/19: PADK_UNCORR. -/
def PADK_UNCORR : Nat := 0x29000014
def PADK_UNCORR_N : Fld := ⟨PADK_UNCORR, 31, 0⟩
/-- spec/19: PADK_OWNVIOL. -/
def PADK_OWNVIOL : Nat := 0x29000018
def PADK_OWNVIOL_N : Fld := ⟨PADK_OWNVIOL, 31, 0⟩
/-- spec/19: PADK_BUSY. -/
def PADK_BUSY : Nat := 0x2900001C
def PADK_BUSY_N : Fld := ⟨PADK_BUSY, 31, 0⟩
/-- spec/19: PADK_UNINIT_CNT. -/
def PADK_UNINIT_CNT : Nat := 0x29000020
def PADK_UNINIT_CNT_N : Fld := ⟨PADK_UNINIT_CNT, 31, 0⟩
/-- spec/19: PADK_ERR. -/
def PADK_ERR : Nat := 0x29000024
def PADK_ERR_ERR_OFS : Fld := ⟨PADK_ERR, 25, 3⟩
/-- spec/19: GROOM_STAT. -/
def GROOM_STAT : Nat := 0x29000030
def GROOM_STAT_BARN_PASSES : Fld := ⟨GROOM_STAT, 31, 16⟩
def GROOM_STAT_PADK_PASSES : Fld := ⟨GROOM_STAT, 15, 0⟩
/-- spec/19: BARN_STAT. -/
def BARN_STAT : Nat := 0x29000040
def BARN_STAT_BARN_READY : Fld := ⟨BARN_STAT, 31, 31⟩
def BARN_STAT_INIT_BUSY : Fld := ⟨BARN_STAT, 30, 30⟩
def BARN_STAT_TRAIN_FAIL : Fld := ⟨BARN_STAT, 29, 29⟩
def BARN_STAT_MAP_BAD : Fld := ⟨BARN_STAT, 28, 28⟩
def BARN_STAT_INIT_PCT : Fld := ⟨BARN_STAT, 6, 0⟩
/-- spec/19: BARN_MAP. -/
def BARN_MAP : Nat := 0x29000044
def BARN_MAP_STAT_UNITS : Fld := ⟨BARN_MAP, 23, 16⟩
def BARN_MAP_CTX_UNITS : Fld := ⟨BARN_MAP, 15, 8⟩
def BARN_MAP_HB_UNITS : Fld := ⟨BARN_MAP, 7, 0⟩
/-- spec/19: BARN_CORR. -/
def BARN_CORR : Nat := 0x29000048
def BARN_CORR_N : Fld := ⟨BARN_CORR, 31, 0⟩
/-- spec/19: BARN_UNCORR. -/
def BARN_UNCORR : Nat := 0x2900004C
def BARN_UNCORR_N : Fld := ⟨BARN_UNCORR, 31, 0⟩
/-- spec/19: BARN_ERR_LO. -/
def BARN_ERR_LO : Nat := 0x29000050
def BARN_ERR_LO_ERR_LO : Fld := ⟨BARN_ERR_LO, 31, 0⟩
/-- spec/19: BARN_ERR_HI. -/
def BARN_ERR_HI : Nat := 0x29000054
/-- spec/19: PADK_OWNER. -/
def PADK_OWNER (b : Nat) : Nat := 0x29001000 + b * 0x4
def PADK_OWNER_PENDING (b : Nat) : Fld := ⟨PADK_OWNER b, 31, 31⟩
def PADK_OWNER_REMOTE_W (b : Nat) : Fld := ⟨PADK_OWNER b, 30, 30⟩
def PADK_OWNER_OWN_BAD (b : Nat) : Fld := ⟨PADK_OWNER b, 29, 29⟩
def PADK_OWNER_NEW_OWNER (b : Nat) : Fld := ⟨PADK_OWNER b, 13, 8⟩
def PADK_OWNER_OWNER (b : Nat) : Fld := ⟨PADK_OWNER b, 5, 0⟩
/-- spec/19: PADK_VIEW_LO. -/
def PADK_VIEW_LO (b : Nat) : Nat := 0x29002000 + b * 0x8
def PADK_VIEW_LO_VIEW (b : Nat) : Fld := ⟨PADK_VIEW_LO b, 31, 0⟩
/-- spec/19: PADK_VIEW_HI. -/
def PADK_VIEW_HI (b : Nat) : Nat := 0x29002004 + b * 0x8
def PADK_VIEW_HI_VIEW (b : Nat) : Fld := ⟨PADK_VIEW_HI b, 31, 0⟩
/-- spec/19: PADK_UNINIT. -/
def PADK_UNINIT (j : Nat) : Nat := 0x29003000 + j * 0x4
def PADK_UNINIT_UNINIT (j : Nat) : Fld := ⟨PADK_UNINIT j, 31, 0⟩
/-- spec/20: BELL_FREEZE. -/
def BELL_FREEZE : Nat := 0x2A000010
def BELL_FREEZE_FREEZE : Fld := ⟨BELL_FREEZE, 31, 31⟩
def BELL_FREEZE_EXPIRED : Fld := ⟨BELL_FREEZE, 30, 30⟩
def BELL_FREEZE_HOLDER : Fld := ⟨BELL_FREEZE, 5, 0⟩
/-- spec/20: BELL_CNT. -/
def BELL_CNT : Nat := 0x2A000014
def BELL_CNT_DB_REFUSED : Fld := ⟨BELL_CNT, 31, 24⟩
def BELL_CNT_FIN_BAD : Fld := ⟨BELL_CNT, 23, 16⟩
def BELL_CNT_FRZ_DROP : Fld := ⟨BELL_CNT, 15, 8⟩
def BELL_CNT_FIN_AUTO : Fld := ⟨BELL_CNT, 7, 0⟩
/-- spec/20: BELL_DOORBELL. -/
def BELL_DOORBELL : Nat := 0x2A000018
def BELL_DOORBELL_SOURCE : Fld := ⟨BELL_DOORBELL, 9, 0⟩
/-- spec/20: SRC_CFG. -/
def SRC_CFG (s : Nat) : Nat := 0x2A001000 + s * 0x4
def SRC_CFG_PEND (s : Nat) : Fld := ⟨SRC_CFG s, 31, 31⟩
def SRC_CFG_ACTIVE (s : Nat) : Fld := ⟨SRC_CFG s, 30, 30⟩
def SRC_CFG_LATCHED (s : Nat) : Fld := ⟨SRC_CFG s, 29, 29⟩
def SRC_CFG_WAKE (s : Nat) : Fld := ⟨SRC_CFG s, 28, 28⟩
def SRC_CFG_TAKER (s : Nat) : Fld := ⟨SRC_CFG s, 27, 22⟩
def SRC_CFG_HOME (s : Nat) : Fld := ⟨SRC_CFG s, 20, 16⟩
def SRC_CFG_SENSE (s : Nat) : Fld := ⟨SRC_CFG s, 2, 0⟩
/-- spec/20: BELL_PEND. -/
def BELL_PEND (j : Nat) : Nat := 0x2A002000 + j * 0x4
def BELL_PEND_PEND (j : Nat) : Fld := ⟨BELL_PEND j, 31, 0⟩
/-- spec/20: BELL_ACTIVE. -/
def BELL_ACTIVE (j : Nat) : Nat := 0x2A002080 + j * 0x4
def BELL_ACTIVE_ACTIVE (j : Nat) : Fld := ⟨BELL_ACTIVE j, 31, 0⟩
/-- spec/20: TGT_CTL. -/
def TGT_CTL (t : Nat) : Nat := 0x2A100000 + t * 0x1000
def TGT_CTL_HOLDOFF (t : Nat) : Fld := ⟨TGT_CTL t, 31, 16⟩
def TGT_CTL_VEC (t : Nat) : Fld := ⟨TGT_CTL t, 13, 8⟩
def TGT_CTL_MSI_EN (t : Nat) : Fld := ⟨TGT_CTL t, 7, 7⟩
def TGT_CTL_THRESH (t : Nat) : Fld := ⟨TGT_CTL t, 3, 0⟩
/-- spec/20: TGT_TAKE. -/
def TGT_TAKE (t : Nat) : Nat := 0x2A100004 + t * 0x1000
def TGT_TAKE_GOT (t : Nat) : Fld := ⟨TGT_TAKE t, 31, 31⟩
def TGT_TAKE_LOST (t : Nat) : Fld := ⟨TGT_TAKE t, 30, 30⟩
def TGT_TAKE_SOURCE (t : Nat) : Fld := ⟨TGT_TAKE t, 9, 0⟩
/-- spec/20: TGT_FINISH. -/
def TGT_FINISH (t : Nat) : Nat := 0x2A100008 + t * 0x1000
def TGT_FINISH_SOURCE (t : Nat) : Fld := ⟨TGT_FINISH t, 9, 0⟩
/-- spec/20: TGT_STAT. -/
def TGT_STAT (t : Nat) : Nat := 0x2A10000C + t * 0x1000
def TGT_STAT_REQ (t : Nat) : Fld := ⟨TGT_STAT t, 31, 31⟩
def TGT_STAT_REQ_SEEN (t : Nat) : Fld := ⟨TGT_STAT t, 30, 30⟩
def TGT_STAT_HOLDING (t : Nat) : Fld := ⟨TGT_STAT t, 29, 29⟩
def TGT_STAT_BEST (t : Nat) : Fld := ⟨TGT_STAT t, 9, 0⟩
/-- spec/20: TGT_EN. -/
def TGT_EN (t j : Nat) : Nat := 0x2A100100 + t * 0x1000 + j * 0x4
def TGT_EN_EN (t j : Nat) : Fld := ⟨TGT_EN t j, 31, 0⟩
/-- spec/20: TGT_PRIO. -/
def TGT_PRIO (t j : Nat) : Nat := 0x2A100200 + t * 0x1000 + j * 0x4
def TGT_PRIO_PRIO (t j : Nat) : Fld := ⟨TGT_PRIO t j, 31, 0⟩
/-- spec/21: TALLY_STAT. -/
def TALLY_STAT : Nat := 0x2B000010
def TALLY_STAT_LF_ACTIVE : Fld := ⟨TALLY_STAT, 1, 1⟩
def TALLY_STAT_LF_NOW : Fld := ⟨TALLY_STAT, 0, 0⟩
/-- spec/21: TALLY_GPIO. -/
def TALLY_GPIO (g : Nat) : Nat := 0x2B000020 + g * 0x4
def TALLY_GPIO_EN (g : Nat) : Fld := ⟨TALLY_GPIO g, 31, 31⟩
def TALLY_GPIO_CH (g : Nat) : Fld := ⟨TALLY_GPIO g, 6, 0⟩
/-- spec/21: TCFG. -/
def TCFG (n : Nat) : Nat := 0x2B001000 + n * 0x80
def TCFG_EN (n : Nat) : Fld := ⟨TCFG n, 31, 31⟩
def TCFG_LF_EN (n : Nat) : Fld := ⟨TCFG n, 30, 30⟩
def TCFG_SRC (n : Nat) : Fld := ⟨TCFG n, 29, 27⟩
def TCFG_EDGE (n : Nat) : Fld := ⟨TCFG n, 26, 25⟩
def TCFG_GATE_EN (n : Nat) : Fld := ⟨TCFG n, 24, 24⟩
def TCFG_GLVL (n : Nat) : Fld := ⟨TCFG n, 23, 23⟩
def TCFG_GSEL (n : Nat) : Fld := ⟨TCFG n, 22, 18⟩
def TCFG_ISEL (n : Nat) : Fld := ⟨TCFG n, 17, 13⟩
def TCFG_CSEL (n : Nat) : Fld := ⟨TCFG n, 12, 8⟩
def TCFG_LINK (n : Nat) : Fld := ⟨TCFG n, 7, 5⟩
def TCFG_CAS_EVT (n : Nat) : Fld := ⟨TCFG n, 4, 4⟩
def TCFG_CAP_EN (n : Nat) : Fld := ⟨TCFG n, 3, 3⟩
def TCFG_CAP_IRQ (n : Nat) : Fld := ⟨TCFG n, 2, 2⟩
/-- spec/21: TSTAT. -/
def TSTAT (n : Nat) : Nat := 0x2B001004 + n * 0x80
def TSTAT_OUT (n : Nat) : Fld := ⟨TSTAT n, 31, 31⟩
def TSTAT_ARM (n : Nat) : Fld := ⟨TSTAT n, 3, 0⟩
/-- spec/21: TCNT_LO. -/
def TCNT_LO (n : Nat) : Nat := 0x2B001008 + n * 0x80
/-- spec/21: TCNT_HI. -/
def TCNT_HI (n : Nat) : Nat := 0x2B00100C + n * 0x80
/-- spec/21: TCAPR_LO. -/
def TCAPR_LO (n : Nat) : Nat := 0x2B001010 + n * 0x80
/-- spec/21: TCAPR_HI. -/
def TCAPR_HI (n : Nat) : Nat := 0x2B001014 + n * 0x80
/-- spec/21: TCAPF_LO. -/
def TCAPF_LO (n : Nat) : Nat := 0x2B001018 + n * 0x80
/-- spec/21: TCAPF_HI. -/
def TCAPF_HI (n : Nat) : Nat := 0x2B00101C + n * 0x80
/-- spec/21: TEVT. -/
def TEVT (n : Nat) : Nat := 0x2B001020 + n * 0x80
def TEVT_LF_ACTIVE (n : Nat) : Fld := ⟨TEVT n, 12, 12⟩
def TEVT_CAP_OVR (n : Nat) : Fld := ⟨TEVT n, 11, 11⟩
def TEVT_CAPF_NEW (n : Nat) : Fld := ⟨TEVT n, 10, 10⟩
def TEVT_CAPR_NEW (n : Nat) : Fld := ⟨TEVT n, 9, 9⟩
def TEVT_OVF (n : Nat) : Fld := ⟨TEVT n, 8, 8⟩
def TEVT_LATE (n : Nat) : Fld := ⟨TEVT n, 7, 4⟩
def TEVT_MATCH (n : Nat) : Fld := ⟨TEVT n, 3, 0⟩
/-- spec/21: TOVF_CTL. -/
def TOVF_CTL (n : Nat) : Nat := 0x2B001028 + n * 0x80
def TOVF_CTL_IRQ (n : Nat) : Fld := ⟨TOVF_CTL n, 29, 29⟩
def TOVF_CTL_RST (n : Nat) : Fld := ⟨TOVF_CTL n, 28, 28⟩
def TOVF_CTL_START (n : Nat) : Fld := ⟨TOVF_CTL n, 27, 27⟩
def TOVF_CTL_STOP (n : Nat) : Fld := ⟨TOVF_CTL n, 26, 26⟩
def TOVF_CTL_LACT (n : Nat) : Fld := ⟨TOVF_CTL n, 25, 24⟩
def TOVF_CTL_LCAP (n : Nat) : Fld := ⟨TOVF_CTL n, 23, 23⟩
def TOVF_CTL_TOGGLE (n : Nat) : Fld := ⟨TOVF_CTL n, 22, 22⟩
def TOVF_CTL_EPOCH (n : Nat) : Fld := ⟨TOVF_CTL n, 21, 21⟩
/-- spec/21: CMP_LO. -/
def CMP_LO (n k : Nat) : Nat := 0x2B001030 + n * 0x80 + k * 0x10
/-- spec/21: CMP_HI. -/
def CMP_HI (n k : Nat) : Nat := 0x2B001034 + n * 0x80 + k * 0x10
/-- spec/21: CMP_PER. -/
def CMP_PER (n k : Nat) : Nat := 0x2B001038 + n * 0x80 + k * 0x10
def CMP_PER_PER (n k : Nat) : Fld := ⟨CMP_PER n k, 31, 0⟩
/-- spec/21: CMP_CTL. -/
def CMP_CTL (n k : Nat) : Nat := 0x2B00103C + n * 0x80 + k * 0x10
def CMP_CTL_DISARM (n k : Nat) : Fld := ⟨CMP_CTL n k, 31, 31⟩
def CMP_CTL_PERIODIC (n k : Nat) : Fld := ⟨CMP_CTL n k, 30, 30⟩
def CMP_CTL_ACT (n k : Nat) : Fld := ⟨CMP_CTL n k, 29, 21⟩
/-- spec/24: PWR_SHED_REQ. -/
def PWR_SHED_REQ : Nat := 0x2C000010
def PWR_SHED_REQ_ON : Fld := ⟨PWR_SHED_REQ, 31, 0⟩
/-- spec/24: PWR_SHED_STAT_LO. -/
def PWR_SHED_STAT_LO : Nat := 0x2C000014
/-- spec/24: PWR_SHED_STAT_HI. -/
def PWR_SHED_STAT_HI : Nat := 0x2C000018
/-- spec/24: PWR_SHED_RST. -/
def PWR_SHED_RST : Nat := 0x2C00001C
def PWR_SHED_RST_RST : Fld := ⟨PWR_SHED_RST, 31, 0⟩
/-- spec/24: PWR_RESET_CAUSE. -/
def PWR_RESET_CAUSE : Nat := 0x2C000020
def PWR_RESET_CAUSE_BROWNOUT : Fld := ⟨PWR_RESET_CAUSE, 2, 2⟩
def PWR_RESET_CAUSE_WRST : Fld := ⟨PWR_RESET_CAUSE, 1, 1⟩
def PWR_RESET_CAUSE_PORST : Fld := ⟨PWR_RESET_CAUSE, 0, 0⟩
/-- spec/24: PWR_EVT. -/
def PWR_EVT : Nat := 0x2C000024
def PWR_EVT_REF_KIND : Fld := ⟨PWR_EVT, 13, 13⟩
def PWR_EVT_REF_SHED : Fld := ⟨PWR_EVT, 12, 8⟩
def PWR_EVT_REQ_REFUSED : Fld := ⟨PWR_EVT, 5, 5⟩
def PWR_EVT_SHED_FAIL : Fld := ⟨PWR_EVT, 4, 4⟩
def PWR_EVT_REFCLK_LOST : Fld := ⟨PWR_EVT, 3, 3⟩
def PWR_EVT_WAKE_REQ : Fld := ⟨PWR_EVT, 2, 2⟩
def PWR_EVT_SHED_OFF : Fld := ⟨PWR_EVT, 1, 1⟩
def PWR_EVT_SHED_ON : Fld := ⟨PWR_EVT, 0, 0⟩
/-- spec/24: LOFT_STAT. -/
def LOFT_STAT : Nat := 0x2D000010
def LOFT_STAT_WARN : Fld := ⟨LOFT_STAT, 31, 31⟩
def LOFT_STAT_VFAIL : Fld := ⟨LOFT_STAT, 30, 30⟩
def LOFT_STAT_UNCORR : Fld := ⟨LOFT_STAT, 29, 29⟩
def LOFT_STAT_QUEUE : Fld := ⟨LOFT_STAT, 6, 0⟩
/-- spec/24: LOFT_BUDGET_CFG. -/
def LOFT_BUDGET_CFG : Nat := 0x2D000014
def LOFT_BUDGET_CFG_TOKENS : Fld := ⟨LOFT_BUDGET_CFG, 31, 16⟩
def LOFT_BUDGET_CFG_RATE : Fld := ⟨LOFT_BUDGET_CFG, 6, 0⟩
/-- spec/24: LOFT_WEAR_SEL. -/
def LOFT_WEAR_SEL : Nat := 0x2D000018
def LOFT_WEAR_SEL_INDEX : Fld := ⟨LOFT_WEAR_SEL, 14, 0⟩
/-- spec/24: LOFT_WEAR_LO. -/
def LOFT_WEAR_LO : Nat := 0x2D000020
/-- spec/24: LOFT_WEAR_HI. -/
def LOFT_WEAR_HI : Nat := 0x2D000024
/-- spec/24: LOFT_WEAR_MAX_LO. -/
def LOFT_WEAR_MAX_LO : Nat := 0x2D000028
/-- spec/24: LOFT_WEAR_MAX_HI. -/
def LOFT_WEAR_MAX_HI : Nat := 0x2D00002C
/-- spec/24: LOFT_WEAR_MAX_IDX. -/
def LOFT_WEAR_MAX_IDX : Nat := 0x2D000030
def LOFT_WEAR_MAX_IDX_MAX_IDX : Fld := ⟨LOFT_WEAR_MAX_IDX, 14, 0⟩
/-- spec/24: LOFT_CNT. -/
def LOFT_CNT : Nat := 0x2D000034
def LOFT_CNT_REFUSED : Fld := ⟨LOFT_CNT, 31, 16⟩
def LOFT_CNT_YFI_1S : Fld := ⟨LOFT_CNT, 15, 0⟩
/-- spec/23: FARR_CFG. -/
def FARR_CFG : Nat := 0x2E000010
def FARR_CFG_MARGIN_MV : Fld := ⟨FARR_CFG, 31, 16⟩
def FARR_CFG_SERDES_EN : Fld := ⟨FARR_CFG, 3, 3⟩
def FARR_CFG_SCRUB_EN : Fld := ⟨FARR_CFG, 2, 2⟩
def FARR_CFG_DRAY_EN : Fld := ⟨FARR_CFG, 1, 1⟩
def FARR_CFG_RAIL_EN : Fld := ⟨FARR_CFG, 0, 0⟩
/-- spec/23: FARR_STAT. -/
def FARR_STAT : Nat := 0x2E000014
def FARR_STAT_POST_DONE : Fld := ⟨FARR_STAT, 31, 31⟩
def FARR_STAT_POST_FAIL : Fld := ⟨FARR_STAT, 30, 30⟩
def FARR_STAT_LATE : Fld := ⟨FARR_STAT, 5, 0⟩
/-- spec/23: FARR_RAIL_OUT_LO. -/
def FARR_RAIL_OUT_LO : Nat := 0x2E000018
def FARR_RAIL_OUT_LO_RAIL_OUT : Fld := ⟨FARR_RAIL_OUT_LO, 31, 0⟩
/-- spec/23: FARR_RAIL_OUT_HI. -/
def FARR_RAIL_OUT_HI : Nat := 0x2E00001C
def FARR_RAIL_OUT_HI_RAIL_OUT : Fld := ⟨FARR_RAIL_OUT_HI, 7, 0⟩
/-- spec/23: FARR_PASSES. -/
def FARR_PASSES : Nat := 0x2E000020
def FARR_PASSES_PASSES : Fld := ⟨FARR_PASSES, 31, 0⟩
/-- spec/23: FARR_MARGIN. -/
def FARR_MARGIN (l : Nat) : Nat := 0x2E001000 + l * 0x4
def FARR_MARGIN_H_MUI (l : Nat) : Fld := ⟨FARR_MARGIN l, 23, 12⟩
def FARR_MARGIN_V_MV (l : Nat) : Fld := ⟨FARR_MARGIN l, 11, 0⟩
/-- spec/02: DBG_CTL. -/
def DBG_CTL : Nat := 0x2F000010
def DBG_CTL_DBG_CONSUME : Fld := ⟨DBG_CTL, 0, 0⟩
/-- spec/13: YM_ARB. -/
def YM_ARB : Nat := 0x2F000020
def YM_ARB_HELD : Fld := ⟨YM_ARB, 31, 31⟩
def YM_ARB_HOLDER : Fld := ⟨YM_ARB, 30, 30⟩
def YM_ARB_REQ_E : Fld := ⟨YM_ARB, 29, 29⟩
def YM_ARB_REQ_W : Fld := ⟨YM_ARB, 28, 28⟩
def YM_ARB_READY_E : Fld := ⟨YM_ARB, 27, 27⟩
def YM_ARB_READY_W : Fld := ⟨YM_ARB, 26, 26⟩
def YM_ARB_PREF : Fld := ⟨YM_ARB, 25, 25⟩
/-- spec/13: YM_CTL. -/
def YM_CTL (y : Nat) : Nat := 0x2F000024 + y * 0x4
def YM_CTL_ALIVE (y : Nat) : Fld := ⟨YM_CTL y, 3, 3⟩
def YM_CTL_RELEASE (y : Nat) : Fld := ⟨YM_CTL y, 2, 2⟩
def YM_CTL_READY (y : Nat) : Fld := ⟨YM_CTL y, 1, 1⟩
def YM_CTL_REQUEST (y : Nat) : Fld := ⟨YM_CTL y, 0, 0⟩
/-- spec/13: YM_WDOG. -/
def YM_WDOG : Nat := 0x2F00002C
def YM_WDOG_WDOG_MS : Fld := ⟨YM_WDOG, 4, 0⟩
/-- spec/13: YM_EPOCH. -/
def YM_EPOCH : Nat := 0x2F000030
def YM_EPOCH_EPOCH : Fld := ⟨YM_EPOCH, 31, 0⟩
/-- spec/13: YM_DENIED. -/
def YM_DENIED : Nat := 0x2F000034
def YM_DENIED_DENIED_W : Fld := ⟨YM_DENIED, 31, 16⟩
def YM_DENIED_DENIED_E : Fld := ⟨YM_DENIED, 15, 0⟩
/-- spec/13: YM_HOST_DENIED. -/
def YM_HOST_DENIED : Nat := 0x2F000038
def YM_HOST_DENIED_HOST_DENIED : Fld := ⟨YM_HOST_DENIED, 31, 0⟩
/-- spec/13: YM_EPOCH_HI. -/
def YM_EPOCH_HI : Nat := 0x2F00003C
def YM_EPOCH_HI_EPOCH_HI : Fld := ⟨YM_EPOCH_HI, 31, 0⟩
/-- spec/22: LEDGER_CFG. -/
def LEDGER_CFG : Nat := 0x2F001000
def LEDGER_CFG_MODE : Fld := ⟨LEDGER_CFG, 31, 31⟩
def LEDGER_CFG_FN_MASK : Fld := ⟨LEDGER_CFG, 26, 24⟩
def LEDGER_CFG_LOG2_SIZE : Fld := ⟨LEDGER_CFG, 19, 16⟩
def LEDGER_CFG_THRESH : Fld := ⟨LEDGER_CFG, 15, 0⟩
/-- spec/22: LEDGER_STAT. -/
def LEDGER_STAT : Nat := 0x2F001004
def LEDGER_STAT_SAFE : Fld := ⟨LEDGER_STAT, 31, 31⟩
def LEDGER_STAT_FAULT_N_LOW : Fld := ⟨LEDGER_STAT, 30, 30⟩
def LEDGER_STAT_MOVING : Fld := ⟨LEDGER_STAT, 29, 29⟩
def LEDGER_STAT_DROPPED : Fld := ⟨LEDGER_STAT, 28, 28⟩
def LEDGER_STAT_RD_BAD : Fld := ⟨LEDGER_STAT, 27, 27⟩
def LEDGER_STAT_USED : Fld := ⟨LEDGER_STAT, 16, 0⟩
/-- spec/22: LEDGER_WR. -/
def LEDGER_WR : Nat := 0x2F001008
def LEDGER_WR_WR : Fld := ⟨LEDGER_WR, 31, 0⟩
/-- spec/22: LEDGER_RD. -/
def LEDGER_RD : Nat := 0x2F00100C
def LEDGER_RD_RD : Fld := ⟨LEDGER_RD, 31, 0⟩
/-- spec/22: LEDGER_DROP_N. -/
def LEDGER_DROP_N : Nat := 0x2F001010
def LEDGER_DROP_N_DROP : Fld := ⟨LEDGER_DROP_N, 31, 0⟩
/-- spec/22: LEDGER_DROP_D. -/
def LEDGER_DROP_D : Nat := 0x2F001014
def LEDGER_DROP_D_DROP : Fld := ⟨LEDGER_DROP_D, 31, 0⟩
/-- spec/22: LEDGER_DROP_F. -/
def LEDGER_DROP_F : Nat := 0x2F001018
def LEDGER_DROP_F_DROP : Fld := ⟨LEDGER_DROP_F, 31, 0⟩
/-- spec/22: LEDGER_INJ. -/
def LEDGER_INJ : Nat := 0x2F001020
def LEDGER_INJ_GO : Fld := ⟨LEDGER_INJ, 31, 31⟩
def LEDGER_INJ_PATH : Fld := ⟨LEDGER_INJ, 25, 16⟩
def LEDGER_INJ_CODE : Fld := ⟨LEDGER_INJ, 15, 0⟩
/-- spec/22: LEDGER_INJ_ORG. -/
def LEDGER_INJ_ORG : Nat := 0x2F001024
def LEDGER_INJ_ORG_ORIGIN : Fld := ⟨LEDGER_INJ_ORG, 15, 0⟩
/-- spec/22: LEDGER_INJ_D. -/
def LEDGER_INJ_D (i : Nat) : Nat := 0x2F001028 + i * 0x4
def LEDGER_INJ_D_D (i : Nat) : Fld := ⟨LEDGER_INJ_D i, 31, 0⟩
/-- spec/22: LEDGER_FSTATE. -/
def LEDGER_FSTATE (code : Nat) : Nat := 0x2F010000 + code * 0x4
def LEDGER_FSTATE_RAISED (code : Nat) : Fld := ⟨LEDGER_FSTATE code, 31, 31⟩
def LEDGER_FSTATE_CAUSE (code : Nat) : Fld := ⟨LEDGER_FSTATE code, 30, 30⟩
def LEDGER_FSTATE_CLASS (code : Nat) : Fld := ⟨LEDGER_FSTATE code, 29, 28⟩
def LEDGER_FSTATE_REACTION (code : Nat) : Fld := ⟨LEDGER_FSTATE code, 18, 16⟩
def LEDGER_FSTATE_HITS (code : Nat) : Fld := ⟨LEDGER_FSTATE code, 15, 0⟩
/-- spec/13: MB_CTL. -/
def MB_CTL (m : Nat) : Nat := 0x10000002000 + m * 0x4000
def MB_CTL_IRQ_DONE (m : Nat) : Fld := ⟨MB_CTL m, 31, 31⟩
def MB_CTL_IRQ_ACC (m : Nat) : Fld := ⟨MB_CTL m, 30, 30⟩
def MB_CTL_VEC (m : Nat) : Fld := ⟨MB_CTL m, 5, 0⟩
/-- spec/13: MB_DOORBELL. -/
def MB_DOORBELL (m : Nat) : Nat := 0x10000002004 + m * 0x4000
def MB_DOORBELL_RING (m : Nat) : Fld := ⟨MB_DOORBELL m, 0, 0⟩
/-- spec/13: MB_STATUS. -/
def MB_STATUS (m : Nat) : Nat := 0x10000002008 + m * 0x4000
def MB_STATUS_RESULT (m : Nat) : Fld := ⟨MB_STATUS m, 31, 24⟩
def MB_STATUS_BUF_LOCKED (m : Nat) : Fld := ⟨MB_STATUS m, 7, 7⟩
def MB_STATUS_DB_OVERRUN (m : Nat) : Fld := ⟨MB_STATUS m, 6, 6⟩
def MB_STATUS_NO_LEADER (m : Nat) : Fld := ⟨MB_STATUS m, 5, 5⟩
def MB_STATUS_COMPAT (m : Nat) : Fld := ⟨MB_STATUS m, 4, 4⟩
def MB_STATUS_STATE (m : Nat) : Fld := ⟨MB_STATUS m, 2, 0⟩
/-- spec/13: MB_EVT. -/
def MB_EVT (m : Nat) : Nat := 0x1000000200C + m * 0x4000
def MB_EVT_REJECTED (m : Nat) : Fld := ⟨MB_EVT m, 2, 2⟩
def MB_EVT_DONE (m : Nat) : Fld := ⟨MB_EVT m, 1, 1⟩
def MB_EVT_ACCEPTED (m : Nat) : Fld := ⟨MB_EVT m, 0, 0⟩
/-- spec/13: MB_TAG_LO. -/
def MB_TAG_LO (m : Nat) : Nat := 0x10000002010 + m * 0x4000
/-- spec/13: MB_TAG_HI. -/
def MB_TAG_HI (m : Nat) : Nat := 0x10000002014 + m * 0x4000
/-- spec/13: MB_WM_LO. -/
def MB_WM_LO (m : Nat) : Nat := 0x10000002018 + m * 0x4000
/-- spec/13: MB_WM_HI. -/
def MB_WM_HI (m : Nat) : Nat := 0x1000000201C + m * 0x4000
/-- spec/13: HOST_WIN. -/
def HOST_WIN : Nat := 0x10000040000
def HOST_WIN_COMPAT_EN : Fld := ⟨HOST_WIN, 17, 17⟩
def HOST_WIN_AP_EN : Fld := ⟨HOST_WIN, 16, 16⟩
def HOST_WIN_WIN_B : Fld := ⟨HOST_WIN, 15, 8⟩
def HOST_WIN_WIN_A : Fld := ⟨HOST_WIN, 7, 0⟩
/-- spec/13: HOST_LEAD. -/
def HOST_LEAD : Nat := 0x10000040004
def HOST_LEAD_LEADER_VALID : Fld := ⟨HOST_LEAD, 31, 31⟩
def HOST_LEAD_LEADER : Fld := ⟨HOST_LEAD, 30, 30⟩
def HOST_LEAD_STANDBY_READY : Fld := ⟨HOST_LEAD, 29, 29⟩
def HOST_LEAD_EPOCH_LO : Fld := ⟨HOST_LEAD, 28, 0⟩
/-- spec/13: HOST_EVT. -/
def HOST_EVT : Nat := 0x10000040008
def HOST_EVT_FW_READY : Fld := ⟨HOST_EVT, 1, 1⟩
def HOST_EVT_LEAD_CHANGE : Fld := ⟨HOST_EVT, 0, 0⟩
/-- spec/13: HOST_EVT_VEC. -/
def HOST_EVT_VEC : Nat := 0x1000004000C
def HOST_EVT_VEC_EN : Fld := ⟨HOST_EVT_VEC, 31, 31⟩
def HOST_EVT_VEC_VEC : Fld := ⟨HOST_EVT_VEC, 5, 0⟩
/-- spec/13: HOST_AP_ERR. -/
def HOST_AP_ERR : Nat := 0x10000040010
def HOST_AP_ERR_AP_ERR : Fld := ⟨HOST_AP_ERR, 31, 31⟩
def HOST_AP_ERR_STATUS : Fld := ⟨HOST_AP_ERR, 27, 26⟩
def HOST_AP_ERR_OFFSET : Fld := ⟨HOST_AP_ERR, 25, 0⟩

/-- Part 1 of the register map. -/
def regMap1 : List RegRow := [
  ⟨"SUBSYS_ID", 0x1F000000, 17, 0x1000000, 1, 0x1, 1, 0x1, 0x00030000, [⟨31, 24, .ro⟩, ⟨23, 16, .ro⟩, ⟨15, 8, .ro⟩]⟩,
  ⟨"SUBSYS_STAT", 0x1F000004, 17, 0x1000000, 1, 0x1, 1, 0x1, 0x00000000, [⟨31, 31, .w1c⟩, ⟨30, 30, .w1c⟩, ⟨15, 0, .cntSat⟩]⟩,
  ⟨"DECODE_INFO", 0x1F000008, 17, 0x1000000, 1, 0x1, 1, 0x1, 0x00000000, [⟨31, 24, .ro⟩, ⟨23, 0, .ro⟩]⟩,
  ⟨"POS_CFG", 0x20000010, 1, 0x1, 1, 0x1, 1, 0x1, 0x00400003, [⟨31, 24, .rw⟩, ⟨23, 16, .rw⟩, ⟨13, 8, .rw⟩, ⟨5, 4, .rw⟩, ⟨1, 0, .rw⟩]⟩,
  ⟨"POS_HO_MAX", 0x20000014, 1, 0x1, 1, 0x1, 1, 0x1, 0x00002710, [⟨19, 0, .rw⟩]⟩,
  ⟨"POS_STAT", 0x20000018, 1, 0x1, 1, 0x1, 1, 0x1, 0x00000000, [⟨25, 16, .live⟩, ⟨4, 4, .live⟩, ⟨3, 3, .live⟩, ⟨2, 2, .live⟩, ⟨1, 0, .live⟩]⟩,
  ⟨"POS_FREQ", 0x2000001C, 1, 0x1, 1, 0x1, 1, 0x1, 0x00000000, [⟨31, 0, .live⟩]⟩,
  ⟨"POS_NOW_LO", 0x20000020, 1, 0x1, 1, 0x1, 1, 0x1, 0x00000000, [⟨31, 16, .live⟩, ⟨15, 0, .live⟩]⟩,
  ⟨"POS_NOW_HI", 0x20000024, 1, 0x1, 1, 0x1, 1, 0x1, 0x00000000, [⟨31, 0, .live⟩]⟩,
  ⟨"POS_EVT", 0x20000028, 1, 0x1, 1, 0x1, 1, 0x1, 0x00000000, [⟨8, 8, .w1c⟩, ⟨7, 7, .w1c⟩, ⟨6, 6, .w1c⟩, ⟨5, 5, .w1c⟩, ⟨4, 4, .w1c⟩, ⟨3, 3, .w1c⟩, ⟨2, 2, .w1c⟩, ⟨1, 1, .w1c⟩, ⟨0, 0, .w1c⟩]⟩,
  ⟨"POS_REGR_CNT", 0x2000002C, 1, 0x1, 1, 0x1, 1, 0x1, 0x00000000, [⟨31, 16, .cntSat⟩, ⟨15, 0, .cntSat⟩]⟩,
  ⟨"GRP_CFG", 0x21001000, 8, 0x100, 1, 0x1, 1, 0x1, 0x03000000, [⟨31, 31, .ro⟩, ⟨30, 30, .w1c⟩, ⟨27, 26, .rw⟩, ⟨25, 24, .rw⟩]⟩,
  ⟨"GRP_LANEMAP_RX", 0x21001004, 8, 0x100, 1, 0x1, 1, 0x1, 0x00FAC688, [⟨23, 0, .rw⟩]⟩,
  ⟨"GRP_LANEMAP_TX", 0x21001008, 8, 0x100, 1, 0x1, 1, 0x1, 0x00FAC688, [⟨23, 0, .rw⟩]⟩,
  ⟨"GRP_POLARITY", 0x2100100C, 8, 0x100, 1, 0x1, 1, 0x1, 0x00000000, [⟨15, 8, .rw⟩, ⟨7, 0, .rw⟩]⟩,
  ⟨"PORT_CFG", 0x21002000, 72, 0x40, 1, 0x1, 1, 0x1, 0x00640400, [⟨31, 31, .rw⟩, ⟨30, 30, .rw⟩, ⟨23, 16, .rw⟩, ⟨15, 8, .rw⟩, ⟨7, 6, .rw⟩, ⟨5, 0, .rw⟩]⟩,
  ⟨"PORT_TIMING", 0x21002004, 72, 0x40, 1, 0x1, 1, 0x1, 0x00000000, [⟨8, 8, .rw⟩, ⟨5, 0, .rw⟩]⟩,
  ⟨"PORT_STAT", 0x21002008, 72, 0x40, 1, 0x1, 1, 0x1, 0x00000000, [⟨15, 15, .live⟩, ⟨14, 14, .live⟩, ⟨13, 13, .live⟩, ⟨12, 12, .live⟩, ⟨11, 11, .live⟩, ⟨10, 10, .live⟩, ⟨7, 4, .live⟩, ⟨1, 0, .live⟩]⟩,
  ⟨"PORT_EVT", 0x2100200C, 72, 0x40, 1, 0x1, 1, 0x1, 0x00000000, [⟨10, 0, .w1c⟩]⟩,
  ⟨"PORT_EVT_EN", 0x21002010, 72, 0x40, 1, 0x1, 1, 0x1, 0x00000003, [⟨10, 0, .rw⟩]⟩,
  ⟨"PORT_FEC_CORR_LO", 0x21002018, 72, 0x40, 1, 0x1, 1, 0x1, 0x00000000, [⟨31, 0, .cnt⟩]⟩,
  ⟨"PORT_FEC_CORR_HI", 0x2100201C, 72, 0x40, 1, 0x1, 1, 0x1, 0x00000000, [⟨31, 0, .cnt⟩]⟩,
  ⟨"PORT_FEC_UNCORR", 0x21002020, 72, 0x40, 1, 0x1, 1, 0x1, 0x00000000, [⟨31, 0, .cntSat⟩]⟩,
  ⟨"GATE_CFG", 0x22001000, 8, 0x100, 1, 0x1, 1, 0x1, 0x00000000, [⟨31, 31, .rw⟩, ⟨30, 30, .rw⟩, ⟨29, 29, .rw⟩, ⟨26, 24, .rw⟩]⟩]

/-- Part 2 of the register map. -/
def regMap2 : List RegRow := [
  ⟨"GATE_STAT", 0x22001004, 8, 0x100, 1, 0x1, 1, 0x1, 0x00000000, [⟨12, 0, .live⟩]⟩,
  ⟨"GATE_BANK", 0x22001008, 8, 0x100, 1, 0x1, 1, 0x1, 0x00000000, [⟨2, 2, .live⟩, ⟨1, 1, .live⟩, ⟨0, 0, .live⟩]⟩,
  ⟨"PORT_REFUSE", 0x22004000, 64, 0x100, 64, 0x4, 1, 0x1, 0x00000000, [⟨31, 0, .cnt⟩]⟩,
  ⟨"CH_CFG", 0x22100000, 512, 0x800, 1, 0x1, 1, 0x1, 0x30000000, [⟨31, 30, .live⟩, ⟨29, 28, .rw⟩, ⟨27, 27, .rw⟩, ⟨26, 26, .rw⟩, ⟨25, 25, .rw⟩, ⟨24, 24, .rw⟩, ⟨23, 23, .rw⟩, ⟨22, 22, .rw⟩, ⟨21, 21, .rw⟩, ⟨20, 16, .rw⟩, ⟨12, 8, .rw⟩]⟩,
  ⟨"CH_STAT", 0x22100004, 512, 0x800, 1, 0x1, 1, 0x1, 0x00000000, [⟨4, 4, .live⟩, ⟨3, 3, .live⟩, ⟨2, 2, .live⟩, ⟨1, 1, .live⟩, ⟨0, 0, .live⟩]⟩,
  ⟨"CH_BIND", 0x22100008, 512, 0x800, 1, 0x1, 1, 0x1, 0x00000000, [⟨31, 0, .rw⟩]⟩,
  ⟨"CH_TRIB", 0x2210000C, 512, 0x800, 1, 0x1, 1, 0x1, 0x00000000, [⟨31, 16, .rw⟩, ⟨15, 12, .rw⟩, ⟨11, 0, .rw⟩]⟩,
  ⟨"CH_SCI", 0x22100010, 512, 0x800, 2, 0x4, 1, 0x1, 0x00000000, [⟨31, 0, .rw⟩]⟩,
  ⟨"CH_EVT", 0x22100018, 512, 0x800, 1, 0x1, 1, 0x1, 0x00000000, [⟨7, 7, .w1c⟩, ⟨6, 6, .w1c⟩, ⟨5, 5, .w1c⟩, ⟨4, 4, .w1c⟩, ⟨3, 3, .w1c⟩, ⟨2, 2, .w1c⟩, ⟨1, 1, .w1c⟩, ⟨0, 0, .w1c⟩]⟩,
  ⟨"CH_EVT_EN", 0x2210001C, 512, 0x800, 1, 0x1, 1, 0x1, 0x00000000, [⟨7, 0, .rw⟩]⟩,
  ⟨"CH_POLICY", 0x22100020, 512, 0x800, 1, 0x1, 1, 0x1, 0x00002580, [⟨29, 16, .rw⟩, ⟨13, 0, .rw⟩]⟩,
  ⟨"CH_POLICY2", 0x22100024, 512, 0x800, 1, 0x1, 1, 0x1, 0x00000000, [⟨13, 0, .rw⟩]⟩,
  ⟨"FRM_POL_LO", 0x22100028, 512, 0x800, 1, 0x1, 1, 0x1, 0x10000000, [⟨31, 30, .rw⟩, ⟨29, 28, .rw⟩, ⟨27, 26, .rw⟩, ⟨25, 25, .rw⟩, ⟨24, 24, .rw⟩, ⟨23, 23, .rw⟩, ⟨22, 22, .rw⟩, ⟨21, 18, .rw⟩, ⟨17, 12, .rw⟩, ⟨11, 0, .rw⟩]⟩,
  ⟨"CELL_POL_LO", 0x22100028, 512, 0x800, 1, 0x1, 1, 0x1, 0x00000000, [⟨31, 31, .rw⟩, ⟨28, 24, .rw⟩, ⟨7, 0, .rw⟩]⟩,
  ⟨"L1_POL_LO", 0x22100028, 512, 0x800, 1, 0x1, 1, 0x1, 0x00022000, [⟨31, 31, .rw⟩, ⟨30, 30, .rw⟩, ⟨29, 21, .rw⟩, ⟨19, 16, .rw⟩, ⟨15, 12, .rw⟩, ⟨0, 0, .rw⟩]⟩,
  ⟨"FRM_POL_HI", 0x2210002C, 512, 0x800, 1, 0x1, 1, 0x1, 0x00000000, [⟨30, 0, .rw⟩]⟩,
  ⟨"CELL_POL_HI", 0x2210002C, 512, 0x800, 1, 0x1, 1, 0x1, 0x00000000, [⟨12, 0, .live⟩]⟩,
  ⟨"L1_POL_HI", 0x2210002C, 512, 0x800, 1, 0x1, 1, 0x1, 0x00000000, []⟩,
  ⟨"CH_DIGEST", 0x22100030, 512, 0x800, 4, 0x4, 1, 0x1, 0x00000000, [⟨31, 0, .live⟩]⟩,
  ⟨"KB_ROLES", 0x22100040, 512, 0x800, 2, 0x20, 1, 0x1, 0x00000000, [⟨31, 31, .live⟩, ⟨30, 30, .live⟩, ⟨29, 29, .live⟩, ⟨28, 28, .live⟩, ⟨27, 27, .live⟩, ⟨26, 26, .live⟩, ⟨25, 24, .live⟩, ⟨9, 8, .live⟩, ⟨7, 6, .live⟩, ⟨5, 4, .live⟩, ⟨3, 2, .live⟩, ⟨1, 0, .live⟩]⟩,
  ⟨"KB_EPOCH", 0x22100044, 512, 0x800, 2, 0x20, 1, 0x1, 0x00000000, [⟨31, 0, .live⟩]⟩,
  ⟨"KB_SW_BEAT_LO", 0x22100048, 512, 0x800, 2, 0x20, 1, 0x1, 0x00000000, [⟨31, 0, .live⟩]⟩,
  ⟨"KB_SW_BEAT_HI", 0x2210004C, 512, 0x800, 2, 0x20, 1, 0x1, 0x00000000, [⟨15, 0, .live⟩]⟩,
  ⟨"KB_KCV_LO", 0x22100050, 512, 0x800, 2, 0x20, 1, 0x1, 0x00000000, [⟨31, 0, .live⟩]⟩]

/-- Part 3 of the register map. -/
def regMap3 : List RegRow := [
  ⟨"KB_KCV_HI", 0x22100054, 512, 0x800, 2, 0x20, 1, 0x1, 0x00000000, [⟨31, 0, .live⟩]⟩,
  ⟨"KB_GRACE", 0x22100058, 512, 0x800, 2, 0x20, 1, 0x1, 0x00000000, [⟨31, 0, .live⟩]⟩,
  ⟨"CH_OUT_ASN_LO", 0x22100080, 512, 0x800, 1, 0x1, 1, 0x1, 0x00000000, [⟨31, 0, .live⟩]⟩,
  ⟨"CH_OUT_ASN_HI", 0x22100084, 512, 0x800, 1, 0x1, 1, 0x1, 0x00000000, [⟨31, 0, .live⟩]⟩,
  ⟨"CH_OUT_ASN_RESV_LO", 0x22100088, 512, 0x800, 1, 0x1, 1, 0x1, 0x00000000, [⟨31, 0, .live⟩]⟩,
  ⟨"CH_OUT_ASN_RESV_HI", 0x2210008C, 512, 0x800, 1, 0x1, 1, 0x1, 0x00000000, [⟨31, 0, .live⟩]⟩,
  ⟨"CH_IN_ASN_LO", 0x22100090, 512, 0x800, 1, 0x1, 1, 0x1, 0x00000000, [⟨31, 0, .live⟩]⟩,
  ⟨"CH_IN_ASN_HI", 0x22100094, 512, 0x800, 1, 0x1, 1, 0x1, 0x00000000, [⟨31, 0, .live⟩]⟩,
  ⟨"CH_IN_POS_LO", 0x22100098, 512, 0x800, 1, 0x1, 1, 0x1, 0x00000000, [⟨31, 0, .live⟩]⟩,
  ⟨"CH_IN_POS_HI", 0x2210009C, 512, 0x800, 1, 0x1, 1, 0x1, 0x00000000, [⟨31, 0, .live⟩]⟩,
  ⟨"CH_MODE_W0_LO", 0x221000A0, 512, 0x800, 1, 0x1, 1, 0x1, 0x00000000, [⟨31, 0, .live⟩]⟩,
  ⟨"CH_MODE_W0_HI", 0x221000A4, 512, 0x800, 1, 0x1, 1, 0x1, 0x00000000, [⟨31, 0, .live⟩]⟩,
  ⟨"CH_MODE_W1_LO", 0x221000A8, 512, 0x800, 1, 0x1, 1, 0x1, 0x00000000, [⟨31, 0, .live⟩]⟩,
  ⟨"CH_MODE_W1_HI", 0x221000AC, 512, 0x800, 1, 0x1, 1, 0x1, 0x00000000, [⟨31, 0, .live⟩]⟩,
  ⟨"CH_MODE_W2_LO", 0x221000B0, 512, 0x800, 1, 0x1, 1, 0x1, 0x00000000, [⟨31, 0, .live⟩]⟩,
  ⟨"CH_MODE_W2_HI", 0x221000B4, 512, 0x800, 1, 0x1, 1, 0x1, 0x00000000, [⟨31, 0, .live⟩]⟩,
  ⟨"L1_RUN", 0x221000B8, 512, 0x800, 1, 0x1, 1, 0x1, 0x00000000, [⟨11, 11, .live⟩, ⟨10, 10, .live⟩, ⟨9, 9, .live⟩, ⟨8, 8, .live⟩, ⟨7, 4, .live⟩, ⟨3, 0, .live⟩]⟩,
  ⟨"CH_MODE_W3_HI", 0x221000BC, 512, 0x800, 1, 0x1, 1, 0x1, 0x00000000, [⟨31, 0, .live⟩]⟩,
  ⟨"CH_REPLAY", 0x221000C0, 512, 0x800, 16, 0x4, 1, 0x1, 0x00000000, [⟨31, 0, .live⟩]⟩,
  ⟨"CH_OUT_STAT", 0x22100100, 512, 0x800, 64, 0x4, 1, 0x1, 0x00000000, [⟨31, 0, .cnt⟩]⟩,
  ⟨"CH_IN_STAT", 0x22100200, 512, 0x800, 64, 0x4, 1, 0x1, 0x00000000, [⟨31, 0, .cnt⟩]⟩,
  ⟨"CH_REFUSE", 0x22100300, 512, 0x800, 64, 0x4, 1, 0x1, 0x00000000, [⟨31, 0, .cnt⟩]⟩,
  ⟨"TWC_CFG", 0x22100400, 512, 0x800, 1, 0x1, 1, 0x1, 0x00000000, [⟨31, 31, .rw⟩, ⟨25, 16, .rw⟩, ⟨12, 8, .rw⟩]⟩,
  ⟨"TWC_STAT", 0x22100404, 512, 0x800, 1, 0x1, 1, 0x1, 0x00000000, [⟨4, 4, .live⟩, ⟨3, 3, .live⟩, ⟨2, 2, .live⟩, ⟨1, 1, .live⟩, ⟨0, 0, .live⟩]⟩]

/-- Part 4 of the register map. -/
def regMap4 : List RegRow := [
  ⟨"TWC_REL_EPOCH", 0x22100408, 512, 0x800, 1, 0x1, 1, 0x1, 0x00000000, [⟨31, 0, .live⟩]⟩,
  ⟨"TWC_REL_ASN_LO", 0x22100410, 512, 0x800, 1, 0x1, 1, 0x1, 0x00000000, [⟨31, 0, .live⟩]⟩,
  ⟨"TWC_REL_ASN_HI", 0x22100414, 512, 0x800, 1, 0x1, 1, 0x1, 0x00000000, [⟨31, 0, .live⟩]⟩,
  ⟨"TWC_F_COUNT_LO", 0x22100418, 512, 0x800, 1, 0x1, 1, 0x1, 0x00000000, [⟨31, 0, .live⟩]⟩,
  ⟨"TWC_F_COUNT_HI", 0x2210041C, 512, 0x800, 1, 0x1, 1, 0x1, 0x00000000, [⟨31, 0, .live⟩]⟩,
  ⟨"TWC_DIGEST", 0x22100420, 512, 0x800, 6, 0x4, 1, 0x1, 0x00000000, [⟨31, 0, .live⟩]⟩,
  ⟨"TWC_CNT", 0x22100440, 512, 0x800, 12, 0x4, 1, 0x1, 0x00000000, [⟨31, 0, .cnt⟩]⟩,
  ⟨"BR_STAT", 0x22100600, 512, 0x800, 1, 0x1, 1, 0x1, 0x00000000, [⟨15, 13, .live⟩, ⟨12, 12, .live⟩, ⟨9, 8, .live⟩, ⟨5, 4, .live⟩, ⟨2, 2, .live⟩, ⟨1, 0, .live⟩]⟩,
  ⟨"BR_RTT0", 0x22100604, 512, 0x800, 1, 0x1, 1, 0x1, 0x00000000, [⟨31, 0, .live⟩]⟩,
  ⟨"BR_RTT_LAST", 0x22100608, 512, 0x800, 1, 0x1, 1, 0x1, 0x00000000, [⟨31, 0, .live⟩]⟩,
  ⟨"BR_TURN_LAST", 0x2210060C, 512, 0x800, 1, 0x1, 1, 0x1, 0x00000000, [⟨31, 0, .live⟩]⟩,
  ⟨"BR_TX_SEQ", 0x22100610, 512, 0x800, 3, 0x4, 1, 0x1, 0x00000000, [⟨31, 0, .live⟩]⟩,
  ⟨"BR_RX_SEQ", 0x22100620, 512, 0x800, 3, 0x4, 1, 0x1, 0x00000000, [⟨31, 0, .live⟩]⟩,
  ⟨"BR_SID_TX_LO", 0x22100630, 512, 0x800, 1, 0x1, 1, 0x1, 0x00000000, [⟨31, 0, .live⟩]⟩,
  ⟨"BR_SID_TX_HI", 0x22100634, 512, 0x800, 1, 0x1, 1, 0x1, 0x00000000, [⟨31, 0, .live⟩]⟩,
  ⟨"BR_SID_RX_LO", 0x22100638, 512, 0x800, 1, 0x1, 1, 0x1, 0x00000000, [⟨31, 0, .live⟩]⟩,
  ⟨"BR_SID_RX_HI", 0x2210063C, 512, 0x800, 1, 0x1, 1, 0x1, 0x00000000, [⟨31, 0, .live⟩]⟩,
  ⟨"BR_CNT", 0x22100640, 512, 0x800, 16, 0x4, 1, 0x1, 0x00000000, [⟨31, 0, .cnt⟩]⟩,
  ⟨"CH_CUST", 0x22100700, 512, 0x800, 64, 0x4, 1, 0x1, 0x00000000, [⟨31, 0, .rw⟩]⟩,
  ⟨"CELL_PORT_CFG", 0x22200000, 32, 0x8000, 1, 0x1, 1, 0x1, 0x00000000, [⟨31, 31, .rw⟩, ⟨30, 30, .w1c⟩, ⟨29, 29, .w1c⟩, ⟨9, 9, .live⟩, ⟨8, 8, .live⟩, ⟨7, 4, .rw⟩, ⟨3, 0, .rw⟩]⟩,
  ⟨"CELL_PORT_STAT", 0x22200004, 32, 0x8000, 1, 0x1, 1, 0x1, 0x00000000, [⟨24, 16, .live⟩, ⟨1, 0, .live⟩]⟩,
  ⟨"CELL_SW_BEAT_LO", 0x22200008, 32, 0x8000, 1, 0x1, 1, 0x1, 0x00000000, [⟨31, 0, .rw⟩]⟩,
  ⟨"CELL_SW_BEAT_HI", 0x2220000C, 32, 0x8000, 1, 0x1, 1, 0x1, 0x00000000, [⟨15, 0, .rw⟩]⟩,
  ⟨"CELL_HEC_ERR", 0x22200010, 32, 0x8000, 1, 0x1, 1, 0x1, 0x00000000, [⟨31, 0, .cnt⟩]⟩]

/-- Part 5 of the register map. -/
def regMap5 : List RegRow := [
  ⟨"CELL_SLOT_JUMP", 0x22200014, 32, 0x8000, 1, 0x1, 1, 0x1, 0x00000000, [⟨31, 0, .cnt⟩]⟩,
  ⟨"CELL_EMPTY_RX", 0x22200018, 32, 0x8000, 1, 0x1, 1, 0x1, 0x00000000, [⟨31, 0, .cnt⟩]⟩,
  ⟨"CELL_CAL", 0x22202000, 32, 0x8000, 2, 0x2000, 2048, 0x4, 0x00000000, [⟨25, 16, .rw⟩, ⟨9, 0, .rw⟩]⟩,
  ⟨"TR_STAT", 0x24000010, 1, 0x1, 1, 0x1, 1, 0x1, 0x00000000, [⟨31, 31, .live⟩, ⟨30, 30, .live⟩, ⟨29, 29, .live⟩, ⟨28, 28, .live⟩, ⟨27, 16, .live⟩, ⟨15, 0, .live⟩]⟩,
  ⟨"TR_PAIR_VALID", 0x24000014, 1, 0x1, 1, 0x1, 1, 0x1, 0x00000000, [⟨31, 0, .live⟩]⟩,
  ⟨"TR_CFG", 0x24000018, 1, 0x1, 1, 0x1, 1, 0x1, 0x00000064, [⟨31, 31, .pers⟩, ⟨15, 0, .rw⟩]⟩,
  ⟨"TR_CNT", 0x2400001C, 1, 0x1, 1, 0x1, 1, 0x1, 0x00000000, [⟨31, 16, .cntSat⟩, ⟨15, 0, .cntSat⟩]⟩,
  ⟨"BR_CFG", 0x25001000, 512, 0x10, 1, 0x1, 1, 0x1, 0x00100000, [⟨31, 31, .rw⟩, ⟨30, 30, .rw⟩, ⟨28, 24, .rw⟩, ⟨23, 16, .rw⟩, ⟨8, 0, .rw⟩]⟩,
  ⟨"BR_TIMING", 0x25001004, 512, 0x10, 1, 0x1, 1, 0x1, 0x02EE0000, [⟨31, 16, .rw⟩]⟩,
  ⟨"TW_CFG", 0x26000010, 1, 0x1, 1, 0x1, 1, 0x1, 0x00000003, [⟨31, 31, .rw⟩, ⟨30, 30, .rw⟩, ⟨29, 29, .rw⟩, ⟨28, 28, .rw⟩, ⟨25, 16, .rw⟩, ⟨3, 0, .rw⟩]⟩,
  ⟨"TW_STAT", 0x26000014, 1, 0x1, 1, 0x1, 1, 0x1, 0x00000000, [⟨28, 16, .live⟩, ⟨9, 9, .live⟩, ⟨8, 8, .live⟩, ⟨2, 0, .live⟩]⟩,
  ⟨"TW_EVT", 0x26000018, 1, 0x1, 1, 0x1, 1, 0x1, 0x00000000, [⟨7, 7, .w1c⟩, ⟨6, 6, .w1c⟩, ⟨5, 5, .w1c⟩, ⟨4, 4, .w1c⟩, ⟨3, 3, .w1c⟩, ⟨2, 2, .w1c⟩, ⟨1, 1, .w1c⟩, ⟨0, 0, .w1c⟩]⟩,
  ⟨"MERGE_CFG", 0x2600001C, 1, 0x1, 1, 0x1, 1, 0x1, 0x00001388, [⟨31, 16, .rw⟩, ⟨15, 0, .rw⟩]⟩,
  ⟨"MERGE_STAT", 0x26000020, 1, 0x1, 1, 0x1, 1, 0x1, 0x00000000, [⟨31, 0, .live⟩]⟩,
  ⟨"FAB_CFG", 0x27000010, 1, 0x1, 1, 0x1, 1, 0x1, 0x00000000, [⟨31, 31, .rw⟩, ⟨30, 30, .rw⟩, ⟨29, 29, .rw⟩, ⟨27, 24, .rw⟩, ⟨19, 10, .rw⟩, ⟨9, 0, .rw⟩]⟩,
  ⟨"FAB_ID", 0x27000014, 1, 0x1, 1, 0x1, 1, 0x1, 0x00000000, [⟨31, 31, .live⟩, ⟨30, 29, .live⟩, ⟨25, 16, .live⟩, ⟨10, 10, .pers⟩, ⟨9, 0, .pers⟩]⟩,
  ⟨"FAB_STAT", 0x27000018, 1, 0x1, 1, 0x1, 1, 0x1, 0x00000001, [⟨31, 30, .live⟩, ⟨29, 29, .live⟩, ⟨28, 28, .live⟩, ⟨25, 16, .live⟩, ⟨10, 0, .live⟩]⟩,
  ⟨"FAB_GEN_LO", 0x27000020, 1, 0x1, 1, 0x1, 1, 0x1, 0x00000000, [⟨31, 0, .live⟩]⟩,
  ⟨"FAB_GEN_HI", 0x27000024, 1, 0x1, 1, 0x1, 1, 0x1, 0x00000000, [⟨31, 0, .live⟩]⟩,
  ⟨"FAB_DIGEST", 0x27000028, 4, 0x4, 1, 0x1, 1, 0x1, 0x00000000, [⟨31, 0, .live⟩]⟩,
  ⟨"FAB_CFG_STAT", 0x27000038, 1, 0x1, 1, 0x1, 1, 0x1, 0x00000000, [⟨2, 2, .live⟩, ⟨1, 1, .live⟩, ⟨0, 0, .live⟩]⟩,
  ⟨"FAB_EVT", 0x2700003C, 1, 0x1, 1, 0x1, 1, 0x1, 0x00000000, [⟨10, 0, .w1c⟩]⟩,
  ⟨"FAB_EVT_EN", 0x27000040, 1, 0x1, 1, 0x1, 1, 0x1, 0x00000000, [⟨10, 0, .rw⟩]⟩,
  ⟨"FAB_SERIAL_LO", 0x27000048, 1, 0x1, 1, 0x1, 1, 0x1, 0x00000000, [⟨31, 0, .ro⟩]⟩]

/-- Part 6 of the register map. -/
def regMap6 : List RegRow := [
  ⟨"FAB_SERIAL_HI", 0x2700004C, 1, 0x1, 1, 0x1, 1, 0x1, 0x00000000, [⟨31, 0, .ro⟩]⟩,
  ⟨"ZP_STAT", 0x27001000, 8, 0x40, 1, 0x1, 1, 0x1, 0x00000000, [⟨21, 12, .live⟩, ⟨11, 9, .live⟩, ⟨0, 0, .live⟩]⟩,
  ⟨"ZP_DELAY", 0x27001004, 8, 0x40, 1, 0x1, 1, 0x1, 0x00000000, [⟨31, 0, .live⟩]⟩,
  ⟨"ZP_CRC_ERR", 0x27001008, 8, 0x40, 1, 0x1, 1, 0x1, 0x00000000, [⟨31, 0, .cntSat⟩]⟩,
  ⟨"ZP_REPLAY", 0x2700100C, 8, 0x40, 1, 0x1, 1, 0x1, 0x00000000, [⟨31, 0, .cntSat⟩]⟩,
  ⟨"FAB_ROUTE", 0x27008000, 1024, 0x4, 1, 0x1, 1, 0x1, 0x00000000, [⟨31, 31, .live⟩, ⟨30, 30, .live⟩, ⟨24, 20, .live⟩, ⟨10, 8, .live⟩, ⟨2, 0, .live⟩]⟩,
  ⟨"FAB_RIGHTS", 0x2700A000, 128, 0x4, 1, 0x1, 1, 0x1, 0x00000000, [⟨31, 0, .rw⟩]⟩,
  ⟨"FAB_LEASE", 0x2700C000, 512, 0x20, 1, 0x1, 1, 0x1, 0x00000000, [⟨31, 31, .live⟩, ⟨30, 30, .live⟩, ⟨29, 28, .live⟩, ⟨27, 27, .live⟩, ⟨25, 16, .live⟩, ⟨11, 0, .live⟩]⟩,
  ⟨"FAB_CUST_01", 0x2700C004, 512, 0x20, 1, 0x1, 1, 0x1, 0x00000000, [⟨31, 31, .rw⟩, ⟨25, 16, .rw⟩, ⟨15, 15, .rw⟩, ⟨9, 0, .rw⟩]⟩,
  ⟨"FAB_CUST_23", 0x2700C008, 512, 0x20, 1, 0x1, 1, 0x1, 0x00000000, [⟨31, 31, .rw⟩, ⟨25, 16, .rw⟩, ⟨15, 15, .rw⟩, ⟨9, 0, .rw⟩]⟩,
  ⟨"FAB_FWD", 0x2700C00C, 512, 0x20, 1, 0x1, 1, 0x1, 0x00000000, [⟨31, 31, .rw⟩, ⟨30, 30, .rw⟩, ⟨29, 29, .rw⟩, ⟨28, 24, .rw⟩, ⟨18, 10, .rw⟩, ⟨9, 0, .rw⟩]⟩,
  ⟨"FAB_FWD_MASK", 0x2700C010, 512, 0x20, 1, 0x1, 1, 0x1, 0x00000000, [⟨31, 0, .rw⟩]⟩,
  ⟨"FAB_FWD_LEN", 0x2700C014, 512, 0x20, 1, 0x1, 1, 0x1, 0x00002580, [⟨13, 0, .rw⟩]⟩,
  ⟨"FAB_FWD_DROP", 0x2700C018, 512, 0x20, 1, 0x1, 1, 0x1, 0x00000000, [⟨31, 0, .cnt⟩]⟩,
  ⟨"DRAY_CTL", 0x28001000, 32, 0x40, 1, 0x1, 1, 0x1, 0x00000000, [⟨31, 31, .rw⟩, ⟨30, 30, .ro⟩]⟩,
  ⟨"DRAY_ENTRY", 0x28001004, 32, 0x40, 1, 0x1, 1, 0x1, 0x00000000, [⟨18, 3, .rw⟩]⟩,
  ⟨"DRAY_STAT", 0x28001008, 32, 0x40, 1, 0x1, 1, 0x1, 0x00000000, [⟨4, 4, .live⟩, ⟨2, 0, .live⟩]⟩,
  ⟨"DRAY_FREEZE", 0x2800100C, 32, 0x40, 1, 0x1, 1, 0x1, 0x00000000, [⟨31, 0, .cntSat⟩]⟩,
  ⟨"DRAY_MISPRED", 0x28001010, 32, 0x40, 1, 0x1, 1, 0x1, 0x00000000, [⟨31, 0, .cntSat⟩]⟩,
  ⟨"DRAY_DBG_CTL", 0x28001014, 32, 0x40, 1, 0x1, 1, 0x1, 0x00000000, [⟨31, 31, .rw⟩, ⟨30, 30, .rw⟩, ⟨29, 29, .rw⟩, ⟨3, 3, .wo⟩, ⟨2, 2, .wo⟩, ⟨1, 1, .wo⟩, ⟨0, 0, .wo⟩]⟩,
  ⟨"DRAY_DBG_STAT", 0x28001018, 32, 0x40, 1, 0x1, 1, 0x1, 0x00000000, [⟨31, 31, .live⟩, ⟨30, 30, .w1c⟩, ⟨29, 29, .w1c⟩, ⟨28, 28, .w1c⟩, ⟨27, 24, .live⟩, ⟨23, 21, .live⟩, ⟨18, 2, .live⟩]⟩,
  ⟨"DRAY_DBG_RSEL", 0x2800101C, 32, 0x40, 1, 0x1, 1, 0x1, 0x00000000, [⟨31, 31, .rw⟩, ⟨15, 8, .rw⟩, ⟨4, 0, .rw⟩]⟩,
  ⟨"DRAY_DBG_RDATA", 0x28001020, 32, 0x40, 1, 0x1, 1, 0x1, 0x00000000, [⟨31, 0, .rw⟩]⟩,
  ⟨"DRAY_TRACE_CTL", 0x28001024, 32, 0x40, 1, 0x1, 1, 0x1, 0x00000000, [⟨31, 31, .rw⟩, ⟨30, 30, .rw⟩, ⟨29, 29, .w1c⟩, ⟨23, 16, .rw⟩, ⟨8, 0, .live⟩]⟩]

/-- Part 7 of the register map. -/
def regMap7 : List RegRow := [
  ⟨"DRAY_TRACE_LO", 0x28001028, 32, 0x40, 1, 0x1, 1, 0x1, 0x00000000, [⟨31, 0, .rc⟩]⟩,
  ⟨"DRAY_TRACE_HI", 0x2800102C, 32, 0x40, 1, 0x1, 1, 0x1, 0x00000000, [⟨31, 0, .ro⟩]⟩,
  ⟨"PADK_CORR", 0x29000010, 1, 0x1, 1, 0x1, 1, 0x1, 0x00000000, [⟨31, 0, .cntSat⟩]⟩,
  ⟨"PADK_UNCORR", 0x29000014, 1, 0x1, 1, 0x1, 1, 0x1, 0x00000000, [⟨31, 0, .cntSat⟩]⟩,
  ⟨"PADK_OWNVIOL", 0x29000018, 1, 0x1, 1, 0x1, 1, 0x1, 0x00000000, [⟨31, 0, .cntSat⟩]⟩,
  ⟨"PADK_BUSY", 0x2900001C, 1, 0x1, 1, 0x1, 1, 0x1, 0x00000000, [⟨31, 0, .cntSat⟩]⟩,
  ⟨"PADK_UNINIT_CNT", 0x29000020, 1, 0x1, 1, 0x1, 1, 0x1, 0x00000000, [⟨31, 0, .cntSat⟩]⟩,
  ⟨"PADK_ERR", 0x29000024, 1, 0x1, 1, 0x1, 1, 0x1, 0x00000000, [⟨25, 3, .live⟩]⟩,
  ⟨"GROOM_STAT", 0x29000030, 1, 0x1, 1, 0x1, 1, 0x1, 0x00000000, [⟨31, 16, .cntSat⟩, ⟨15, 0, .cntSat⟩]⟩,
  ⟨"BARN_STAT", 0x29000040, 1, 0x1, 1, 0x1, 1, 0x1, 0x00000000, [⟨31, 31, .live⟩, ⟨30, 30, .live⟩, ⟨29, 29, .live⟩, ⟨28, 28, .w1c⟩, ⟨6, 0, .live⟩]⟩,
  ⟨"BARN_MAP", 0x29000044, 1, 0x1, 1, 0x1, 1, 0x1, 0x00080108, [⟨23, 16, .rw⟩, ⟨15, 8, .rw⟩, ⟨7, 0, .rw⟩]⟩,
  ⟨"BARN_CORR", 0x29000048, 1, 0x1, 1, 0x1, 1, 0x1, 0x00000000, [⟨31, 0, .cntSat⟩]⟩,
  ⟨"BARN_UNCORR", 0x2900004C, 1, 0x1, 1, 0x1, 1, 0x1, 0x00000000, [⟨31, 0, .cntSat⟩]⟩,
  ⟨"BARN_ERR_LO", 0x29000050, 1, 0x1, 1, 0x1, 1, 0x1, 0x00000000, [⟨31, 0, .live⟩]⟩,
  ⟨"BARN_ERR_HI", 0x29000054, 1, 0x1, 1, 0x1, 1, 0x1, 0x00000000, []⟩,
  ⟨"PADK_OWNER", 0x29001000, 512, 0x4, 1, 0x1, 1, 0x1, 0x00003F3F, [⟨31, 31, .live⟩, ⟨30, 30, .rw⟩, ⟨29, 29, .w1c⟩, ⟨13, 8, .rw⟩, ⟨5, 0, .live⟩]⟩,
  ⟨"PADK_VIEW_LO", 0x29002000, 512, 0x8, 1, 0x1, 1, 0x1, 0x00000000, [⟨31, 0, .rw⟩]⟩,
  ⟨"PADK_VIEW_HI", 0x29002004, 512, 0x8, 1, 0x1, 1, 0x1, 0x00000000, [⟨31, 0, .rw⟩]⟩,
  ⟨"PADK_UNINIT", 0x29003000, 16, 0x4, 1, 0x1, 1, 0x1, 0x00000000, [⟨31, 0, .w1c⟩]⟩,
  ⟨"BELL_FREEZE", 0x2A000010, 1, 0x1, 1, 0x1, 1, 0x1, 0x0000003F, [⟨31, 31, .rw⟩, ⟨30, 30, .w1c⟩, ⟨5, 0, .live⟩]⟩,
  ⟨"BELL_CNT", 0x2A000014, 1, 0x1, 1, 0x1, 1, 0x1, 0x00000000, [⟨31, 24, .cntSat⟩, ⟨23, 16, .cntSat⟩, ⟨15, 8, .cntSat⟩, ⟨7, 0, .cntSat⟩]⟩,
  ⟨"BELL_DOORBELL", 0x2A000018, 1, 0x1, 1, 0x1, 1, 0x1, 0x00000000, [⟨9, 0, .wo⟩]⟩,
  ⟨"SRC_CFG", 0x2A001000, 1024, 0x4, 1, 0x1, 1, 0x1, 0x001F0000, [⟨31, 31, .live⟩, ⟨30, 30, .live⟩, ⟨29, 29, .live⟩, ⟨28, 28, .rw⟩, ⟨27, 22, .live⟩, ⟨20, 16, .rw⟩, ⟨2, 0, .rw⟩]⟩,
  ⟨"BELL_PEND", 0x2A002000, 32, 0x4, 1, 0x1, 1, 0x1, 0x00000000, [⟨31, 0, .rw⟩]⟩]

/-- Part 8 of the register map. -/
def regMap8 : List RegRow := [
  ⟨"BELL_ACTIVE", 0x2A002080, 32, 0x4, 1, 0x1, 1, 0x1, 0x00000000, [⟨31, 0, .live⟩]⟩,
  ⟨"TGT_CTL", 0x2A100000, 49, 0x1000, 1, 0x1, 1, 0x1, 0x00000000, [⟨31, 16, .rw⟩, ⟨13, 8, .rw⟩, ⟨7, 7, .rw⟩, ⟨3, 0, .rw⟩]⟩,
  ⟨"TGT_TAKE", 0x2A100004, 49, 0x1000, 1, 0x1, 1, 0x1, 0x00000000, [⟨31, 31, .rc⟩, ⟨30, 30, .rc⟩, ⟨9, 0, .rc⟩]⟩,
  ⟨"TGT_FINISH", 0x2A100008, 49, 0x1000, 1, 0x1, 1, 0x1, 0x00000000, [⟨9, 0, .wo⟩]⟩,
  ⟨"TGT_STAT", 0x2A10000C, 49, 0x1000, 1, 0x1, 1, 0x1, 0x00000000, [⟨31, 31, .live⟩, ⟨30, 30, .live⟩, ⟨29, 29, .live⟩, ⟨9, 0, .live⟩]⟩,
  ⟨"TGT_EN", 0x2A100100, 49, 0x1000, 32, 0x4, 1, 0x1, 0x00000000, [⟨31, 0, .rw⟩]⟩,
  ⟨"TGT_PRIO", 0x2A100200, 49, 0x1000, 128, 0x4, 1, 0x1, 0x00000000, [⟨31, 0, .rw⟩]⟩,
  ⟨"TALLY_STAT", 0x2B000010, 1, 0x1, 1, 0x1, 1, 0x1, 0x00000000, [⟨1, 1, .w1c⟩, ⟨0, 0, .live⟩]⟩,
  ⟨"TALLY_GPIO", 0x2B000020, 16, 0x4, 1, 0x1, 1, 0x1, 0x00000000, [⟨31, 31, .rw⟩, ⟨6, 0, .rw⟩]⟩,
  ⟨"TCFG", 0x2B001000, 128, 0x80, 1, 0x1, 1, 0x1, 0x00000000, [⟨31, 31, .rw⟩, ⟨30, 30, .rw⟩, ⟨29, 27, .rw⟩, ⟨26, 25, .rw⟩, ⟨24, 24, .rw⟩, ⟨23, 23, .rw⟩, ⟨22, 18, .rw⟩, ⟨17, 13, .rw⟩, ⟨12, 8, .rw⟩, ⟨7, 5, .rw⟩, ⟨4, 4, .rw⟩, ⟨3, 3, .rw⟩, ⟨2, 2, .rw⟩]⟩,
  ⟨"TSTAT", 0x2B001004, 128, 0x80, 1, 0x1, 1, 0x1, 0x00000000, [⟨31, 31, .live⟩, ⟨3, 0, .live⟩]⟩,
  ⟨"TCNT_LO", 0x2B001008, 128, 0x80, 1, 0x1, 1, 0x1, 0x00000000, [⟨31, 0, .cnt⟩]⟩,
  ⟨"TCNT_HI", 0x2B00100C, 128, 0x80, 1, 0x1, 1, 0x1, 0x00000000, [⟨31, 0, .cnt⟩]⟩,
  ⟨"TCAPR_LO", 0x2B001010, 128, 0x80, 1, 0x1, 1, 0x1, 0x00000000, [⟨31, 0, .live⟩]⟩,
  ⟨"TCAPR_HI", 0x2B001014, 128, 0x80, 1, 0x1, 1, 0x1, 0x00000000, [⟨31, 0, .live⟩]⟩,
  ⟨"TCAPF_LO", 0x2B001018, 128, 0x80, 1, 0x1, 1, 0x1, 0x00000000, [⟨31, 0, .live⟩]⟩,
  ⟨"TCAPF_HI", 0x2B00101C, 128, 0x80, 1, 0x1, 1, 0x1, 0x00000000, [⟨31, 0, .live⟩]⟩,
  ⟨"TEVT", 0x2B001020, 128, 0x80, 1, 0x1, 1, 0x1, 0x00000000, [⟨12, 12, .w1c⟩, ⟨11, 11, .w1c⟩, ⟨10, 10, .w1c⟩, ⟨9, 9, .w1c⟩, ⟨8, 8, .w1c⟩, ⟨7, 4, .w1c⟩, ⟨3, 0, .w1c⟩]⟩,
  ⟨"TOVF_CTL", 0x2B001028, 128, 0x80, 1, 0x1, 1, 0x1, 0x00000000, [⟨29, 29, .rw⟩, ⟨28, 28, .rw⟩, ⟨27, 27, .rw⟩, ⟨26, 26, .rw⟩, ⟨25, 24, .rw⟩, ⟨23, 23, .rw⟩, ⟨22, 22, .rw⟩, ⟨21, 21, .rw⟩]⟩,
  ⟨"CMP_LO", 0x2B001030, 128, 0x80, 4, 0x10, 1, 0x1, 0x00000000, [⟨31, 0, .rw⟩]⟩,
  ⟨"CMP_HI", 0x2B001034, 128, 0x80, 4, 0x10, 1, 0x1, 0x00000000, [⟨31, 0, .rw⟩]⟩,
  ⟨"CMP_PER", 0x2B001038, 128, 0x80, 4, 0x10, 1, 0x1, 0x00000000, [⟨31, 0, .rw⟩]⟩,
  ⟨"CMP_CTL", 0x2B00103C, 128, 0x80, 4, 0x10, 1, 0x1, 0x00000000, [⟨31, 31, .wo⟩, ⟨30, 30, .rw⟩, ⟨29, 21, .rw⟩]⟩,
  ⟨"PWR_SHED_REQ", 0x2C000010, 1, 0x1, 1, 0x1, 1, 0x1, 0x00000000, [⟨31, 0, .rw⟩]⟩]

/-- Part 9 of the register map. -/
def regMap9 : List RegRow := [
  ⟨"PWR_SHED_STAT_LO", 0x2C000014, 1, 0x1, 1, 0x1, 1, 0x1, 0x00000000, [⟨31, 0, .live⟩]⟩,
  ⟨"PWR_SHED_STAT_HI", 0x2C000018, 1, 0x1, 1, 0x1, 1, 0x1, 0x00000000, [⟨31, 0, .live⟩]⟩,
  ⟨"PWR_SHED_RST", 0x2C00001C, 1, 0x1, 1, 0x1, 1, 0x1, 0x00000000, [⟨31, 0, .wo⟩]⟩,
  ⟨"PWR_RESET_CAUSE", 0x2C000020, 1, 0x1, 1, 0x1, 1, 0x1, 0x00000000, [⟨2, 2, .ro⟩, ⟨1, 1, .ro⟩, ⟨0, 0, .ro⟩]⟩,
  ⟨"PWR_EVT", 0x2C000024, 1, 0x1, 1, 0x1, 1, 0x1, 0x00000000, [⟨13, 13, .live⟩, ⟨12, 8, .live⟩, ⟨5, 5, .w1c⟩, ⟨4, 4, .w1c⟩, ⟨3, 3, .w1c⟩, ⟨2, 2, .w1c⟩, ⟨1, 1, .w1c⟩, ⟨0, 0, .w1c⟩]⟩,
  ⟨"LOFT_STAT", 0x2D000010, 1, 0x1, 1, 0x1, 1, 0x1, 0x00000000, [⟨31, 31, .w1c⟩, ⟨30, 30, .w1c⟩, ⟨29, 29, .w1c⟩, ⟨6, 0, .live⟩]⟩,
  ⟨"LOFT_BUDGET_CFG", 0x2D000014, 1, 0x1, 1, 0x1, 1, 0x1, 0x17700064, [⟨31, 16, .live⟩, ⟨6, 0, .rw⟩]⟩,
  ⟨"LOFT_WEAR_SEL", 0x2D000018, 1, 0x1, 1, 0x1, 1, 0x1, 0x00000000, [⟨14, 0, .rw⟩]⟩,
  ⟨"LOFT_WEAR_LO", 0x2D000020, 1, 0x1, 1, 0x1, 1, 0x1, 0x00000000, [⟨31, 0, .live⟩]⟩,
  ⟨"LOFT_WEAR_HI", 0x2D000024, 1, 0x1, 1, 0x1, 1, 0x1, 0x00000000, [⟨31, 0, .live⟩]⟩,
  ⟨"LOFT_WEAR_MAX_LO", 0x2D000028, 1, 0x1, 1, 0x1, 1, 0x1, 0x00000000, [⟨31, 0, .live⟩]⟩,
  ⟨"LOFT_WEAR_MAX_HI", 0x2D00002C, 1, 0x1, 1, 0x1, 1, 0x1, 0x00000000, [⟨31, 0, .live⟩]⟩,
  ⟨"LOFT_WEAR_MAX_IDX", 0x2D000030, 1, 0x1, 1, 0x1, 1, 0x1, 0x00000000, [⟨14, 0, .live⟩]⟩,
  ⟨"LOFT_CNT", 0x2D000034, 1, 0x1, 1, 0x1, 1, 0x1, 0x00000000, [⟨31, 16, .cntSat⟩, ⟨15, 0, .live⟩]⟩,
  ⟨"FARR_CFG", 0x2E000010, 1, 0x1, 1, 0x1, 1, 0x1, 0x0014000F, [⟨31, 16, .rw⟩, ⟨3, 3, .rw⟩, ⟨2, 2, .rw⟩, ⟨1, 1, .rw⟩, ⟨0, 0, .rw⟩]⟩,
  ⟨"FARR_STAT", 0x2E000014, 1, 0x1, 1, 0x1, 1, 0x1, 0x00000000, [⟨31, 31, .live⟩, ⟨30, 30, .live⟩, ⟨5, 0, .w1c⟩]⟩,
  ⟨"FARR_RAIL_OUT_LO", 0x2E000018, 1, 0x1, 1, 0x1, 1, 0x1, 0x00000000, [⟨31, 0, .live⟩]⟩,
  ⟨"FARR_RAIL_OUT_HI", 0x2E00001C, 1, 0x1, 1, 0x1, 1, 0x1, 0x00000000, [⟨7, 0, .live⟩]⟩,
  ⟨"FARR_PASSES", 0x2E000020, 1, 0x1, 1, 0x1, 1, 0x1, 0x00000000, [⟨31, 0, .cntSat⟩]⟩,
  ⟨"FARR_MARGIN", 0x2E001000, 80, 0x4, 1, 0x1, 1, 0x1, 0x00000000, [⟨23, 12, .live⟩, ⟨11, 0, .live⟩]⟩,
  ⟨"DBG_CTL", 0x2F000010, 1, 0x1, 1, 0x1, 1, 0x1, 0x00000000, [⟨0, 0, .rw⟩]⟩,
  ⟨"YM_ARB", 0x2F000020, 1, 0x1, 1, 0x1, 1, 0x1, 0x00000000, [⟨31, 31, .live⟩, ⟨30, 30, .live⟩, ⟨29, 29, .live⟩, ⟨28, 28, .live⟩, ⟨27, 27, .live⟩, ⟨26, 26, .live⟩, ⟨25, 25, .rw⟩]⟩,
  ⟨"YM_CTL", 0x2F000024, 2, 0x4, 1, 0x1, 1, 0x1, 0x00000000, [⟨3, 3, .wo⟩, ⟨2, 2, .wo⟩, ⟨1, 1, .rw⟩, ⟨0, 0, .rw⟩]⟩,
  ⟨"YM_WDOG", 0x2F00002C, 1, 0x1, 1, 0x1, 1, 0x1, 0x00000014, [⟨4, 0, .rw⟩]⟩]

/-- Part 10 of the register map. -/
def regMap10 : List RegRow := [
  ⟨"YM_EPOCH", 0x2F000030, 1, 0x1, 1, 0x1, 1, 0x1, 0x00000000, [⟨31, 0, .mark⟩]⟩,
  ⟨"YM_DENIED", 0x2F000034, 1, 0x1, 1, 0x1, 1, 0x1, 0x00000000, [⟨31, 16, .cntSat⟩, ⟨15, 0, .cntSat⟩]⟩,
  ⟨"YM_HOST_DENIED", 0x2F000038, 1, 0x1, 1, 0x1, 1, 0x1, 0x00000000, [⟨31, 0, .cntSat⟩]⟩,
  ⟨"YM_EPOCH_HI", 0x2F00003C, 1, 0x1, 1, 0x1, 1, 0x1, 0x00000000, [⟨31, 0, .mark⟩]⟩,
  ⟨"LEDGER_CFG", 0x2F001000, 1, 0x1, 1, 0x1, 1, 0x1, 0x06000600, [⟨31, 31, .rw⟩, ⟨26, 24, .rw⟩, ⟨19, 16, .rw⟩, ⟨15, 0, .rw⟩]⟩,
  ⟨"LEDGER_STAT", 0x2F001004, 1, 0x1, 1, 0x1, 1, 0x1, 0x00000000, [⟨31, 31, .live⟩, ⟨30, 30, .live⟩, ⟨29, 29, .live⟩, ⟨28, 28, .w1c⟩, ⟨27, 27, .w1c⟩, ⟨16, 0, .live⟩]⟩,
  ⟨"LEDGER_WR", 0x2F001008, 1, 0x1, 1, 0x1, 1, 0x1, 0x00000000, [⟨31, 0, .live⟩]⟩,
  ⟨"LEDGER_RD", 0x2F00100C, 1, 0x1, 1, 0x1, 1, 0x1, 0x00000000, [⟨31, 0, .rw⟩]⟩,
  ⟨"LEDGER_DROP_N", 0x2F001010, 1, 0x1, 1, 0x1, 1, 0x1, 0x00000000, [⟨31, 0, .cntSat⟩]⟩,
  ⟨"LEDGER_DROP_D", 0x2F001014, 1, 0x1, 1, 0x1, 1, 0x1, 0x00000000, [⟨31, 0, .cntSat⟩]⟩,
  ⟨"LEDGER_DROP_F", 0x2F001018, 1, 0x1, 1, 0x1, 1, 0x1, 0x00000000, [⟨31, 0, .cntSat⟩]⟩,
  ⟨"LEDGER_INJ", 0x2F001020, 1, 0x1, 1, 0x1, 1, 0x1, 0x00000000, [⟨31, 31, .wo⟩, ⟨25, 16, .rw⟩, ⟨15, 0, .rw⟩]⟩,
  ⟨"LEDGER_INJ_ORG", 0x2F001024, 1, 0x1, 1, 0x1, 1, 0x1, 0x00000000, [⟨15, 0, .rw⟩]⟩,
  ⟨"LEDGER_INJ_D", 0x2F001028, 4, 0x4, 1, 0x1, 1, 0x1, 0x00000000, [⟨31, 0, .rw⟩]⟩,
  ⟨"LEDGER_FSTATE", 0x2F010000, 4352, 0x4, 1, 0x1, 1, 0x1, 0x00000000, [⟨31, 31, .live⟩, ⟨30, 30, .live⟩, ⟨29, 28, .ro⟩, ⟨18, 16, .rw⟩, ⟨15, 0, .cntSat⟩]⟩,
  ⟨"MB_CTL", 0x10000002000, 16, 0x4000, 1, 0x1, 1, 0x1, 0x00000000, [⟨31, 31, .rw⟩, ⟨30, 30, .rw⟩, ⟨5, 0, .rw⟩]⟩,
  ⟨"MB_DOORBELL", 0x10000002004, 16, 0x4000, 1, 0x1, 1, 0x1, 0x00000000, [⟨0, 0, .wo⟩]⟩,
  ⟨"MB_STATUS", 0x10000002008, 16, 0x4000, 1, 0x1, 1, 0x1, 0x03000020, [⟨31, 24, .live⟩, ⟨7, 7, .w1c⟩, ⟨6, 6, .w1c⟩, ⟨5, 5, .live⟩, ⟨4, 4, .live⟩, ⟨2, 0, .live⟩]⟩,
  ⟨"MB_EVT", 0x1000000200C, 16, 0x4000, 1, 0x1, 1, 0x1, 0x00000000, [⟨2, 2, .w1c⟩, ⟨1, 1, .w1c⟩, ⟨0, 0, .w1c⟩]⟩,
  ⟨"MB_TAG_LO", 0x10000002010, 16, 0x4000, 1, 0x1, 1, 0x1, 0x00000000, [⟨31, 0, .live⟩]⟩,
  ⟨"MB_TAG_HI", 0x10000002014, 16, 0x4000, 1, 0x1, 1, 0x1, 0x00000000, [⟨31, 0, .live⟩]⟩,
  ⟨"MB_WM_LO", 0x10000002018, 16, 0x4000, 1, 0x1, 1, 0x1, 0x00000000, [⟨31, 0, .live⟩]⟩,
  ⟨"MB_WM_HI", 0x1000000201C, 16, 0x4000, 1, 0x1, 1, 0x1, 0x00000000, [⟨31, 0, .live⟩]⟩,
  ⟨"HOST_WIN", 0x10000040000, 1, 0x1, 1, 0x1, 1, 0x1, 0x00000000, [⟨17, 17, .live⟩, ⟨16, 16, .live⟩, ⟨15, 8, .rw⟩, ⟨7, 0, .rw⟩]⟩]

/-- Part 11 of the register map. -/
def regMap11 : List RegRow := [
  ⟨"HOST_LEAD", 0x10000040004, 1, 0x1, 1, 0x1, 1, 0x1, 0x00000000, [⟨31, 31, .live⟩, ⟨30, 30, .live⟩, ⟨29, 29, .live⟩, ⟨28, 0, .live⟩]⟩,
  ⟨"HOST_EVT", 0x10000040008, 1, 0x1, 1, 0x1, 1, 0x1, 0x00000000, [⟨1, 1, .w1c⟩, ⟨0, 0, .w1c⟩]⟩,
  ⟨"HOST_EVT_VEC", 0x1000004000C, 1, 0x1, 1, 0x1, 1, 0x1, 0x00000000, [⟨31, 31, .rw⟩, ⟨5, 0, .rw⟩]⟩,
  ⟨"HOST_AP_ERR", 0x10000040010, 1, 0x1, 1, 0x1, 1, 0x1, 0x00000000, [⟨31, 31, .w1c⟩, ⟨27, 26, .live⟩, ⟨25, 0, .live⟩]⟩]

/-- The register map. -/
def regMap : List RegRow := regMap1 ++ regMap2 ++ regMap3 ++ regMap4 ++ regMap5 ++ regMap6 ++ regMap7 ++ regMap8 ++ regMap9 ++ regMap10 ++ regMap11

end Sys2Proof.Machine
end

