-- ==== Sys2Proof/Machine/Ops.lean ====
section
/-!
DEFINITION. The named operations every command is written over: tables in canonical form, registers and their fields,
bytes of memory, the device's stamp, its outputs, and the reports it makes.
-/

namespace Sys2Proof.Machine

/-! ### Tables -/

/-- What a key holds; `d` is what an unlisted key holds. -/
def tblGet {α : Type} (d : α) (k : Nat) : Table α → α
  | [] => d
  | (a, v) :: r => if a = k then v else tblGet d k r

/-- The table without an entry for `k`. -/
def tblDel {α : Type} (k : Nat) : Table α → Table α
  | [] => []
  | (a, v) :: r => if a = k then tblDel k r else (a, v) :: tblDel k r

/-- The table with an entry for `k` put where the order asks. -/
def tblIns {α : Type} (k : Nat) (v : α) : Table α → Table α
  | [] => [(k, v)]
  | (a, w) :: r => if k < a then (k, v) :: (a, w) :: r else (a, w) :: tblIns k v r

/-- The table in which `k` holds `v`, in canonical form. -/
def tblSet {α : Type} [DecidableEq α] (d : α) (k : Nat) (v : α) (t : Table α) : Table α :=
  if v = d then tblDel k t else tblIns k v (tblDel k t)

/-- Canonical form: keys strictly rising, no entry equal to the default of its key. -/
def tblWf {α : Type} [DecidableEq α] (d : Nat → α) : Table α → Bool
  | [] => true
  | [(a, v)] => decide (v ≠ d a)
  | (a, v) :: (b, w) :: r => decide (v ≠ d a) && decide (a < b) && tblWf d ((b, w) :: r)

/-! ### Registers -/

/-- Does the row hold a register at this offset? (R37: words at multiples of 4.) -/
def RegRow.holds (r : RegRow) (o : Nat) : Bool :=
  let q := o - r.base
  let a := q / r.s1
  let q1 := q % r.s1
  let b := q1 / r.s2
  let q2 := q1 % r.s2
  if r.n1 = 1 then r.base = o ∧ r.n2 = 1 ∧ r.n3 = 1
  else if r.n2 = 1 then decide (r.base ≤ o) && decide (a < r.n1) && decide (q1 = 0)
  else if r.n3 = 1 then decide (r.base ≤ o) && decide (a < r.n1) && decide (b < r.n2) && decide (q2 = 0)
  else decide (r.base ≤ o) && decide (a < r.n1) && decide (b < r.n2) && decide (q2 / r.s3 < r.n3)
    && decide (q2 % r.s3 = 0)

/-- The row of the register map for an offset. -/
def regRow (o : Nat) : Option RegRow := regMap.find? (fun r => r.holds o)

/-- Class and kind of every fault code: code, class (R504), condition code (R505). -/
def faultTable1 : List (Nat × Nat × Bool) := [
  (0x0101, 2, true), (0x0102, 2, false), (0x0103, 2, false), (0x0104, 1, false), (0x0105, 1, false), (0x0106, 2, false),
  (0x0201, 2, true), (0x0202, 2, false), (0x0203, 2, false), (0x0204, 1, false), (0x0205, 1, false), (0x0206, 2, false),
  (0x0207, 1, false), (0x0208, 1, false), (0x0209, 1, false), (0x020A, 1, false), (0x020B, 2, false), (0x020C, 2, false),
  (0x020D, 1, false), (0x0301, 1, false), (0x0302, 2, false), (0x0303, 1, false), (0x0304, 2, false), (0x0305, 2, false),
  (0x0306, 1, false), (0x0307, 2, false), (0x0308, 1, false), (0x0309, 2, false), (0x030A, 2, false), (0x030B, 1, false),
  (0x0401, 2, false), (0x0402, 2, false), (0x0403, 1, false), (0x0501, 2, false), (0x0502, 2, false), (0x0503, 1, false),
  (0x0504, 1, false), (0x0505, 2, false), (0x0506, 2, false), (0x0507, 3, true), (0x0508, 1, false), (0x0509, 1, false)]

/-- The rest of the fault codes. -/
def faultTable2 : List (Nat × Nat × Bool) := [
  (0x0601, 2, false), (0x0602, 1, false), (0x0603, 1, false), (0x0604, 2, false), (0x0605, 2, false), (0x0606, 1, false),
  (0x0607, 2, false), (0x0608, 2, false), (0x0609, 1, false), (0x0701, 2, false), (0x0702, 2, false), (0x0703, 2, false),
  (0x0704, 1, false), (0x0705, 1, false), (0x0706, 1, false), (0x0707, 2, false), (0x0708, 2, false), (0x0709, 2, false),
  (0x070A, 1, false), (0x070B, 2, false), (0x070C, 1, false), (0x070D, 2, false), (0x070E, 1, false), (0x0801, 2, false),
  (0x0802, 2, false), (0x0803, 2, false), (0x0804, 2, false), (0x0805, 2, false), (0x0806, 2, false), (0x0807, 2, false),
  (0x0808, 1, false), (0x0901, 1, false), (0x0902, 2, false), (0x0903, 2, false), (0x0A01, 1, false), (0x0A02, 2, false),
  (0x0A03, 1, false), (0x0A04, 1, false), (0x0A05, 1, false), (0x0A06, 2, false), (0x0A07, 3, false), (0x0B01, 1, false),
  (0x0B02, 1, false), (0x0B03, 1, false), (0x0C01, 1, false), (0x0C02, 1, false), (0x0D01, 3, false), (0x0D02, 2, false),
  (0x0D03, 1, false), (0x0E01, 2, false), (0x0E02, 1, false), (0x0E03, 2, false), (0x0E04, 2, false), (0x0F01, 1, true),
  (0x0F02, 2, false), (0x0F03, 3, false), (0x0F04, 3, false), (0x0F05, 3, false), (0x1001, 2, false), (0x1002, 1, false),
  (0x1003, 2, false), (0x1004, 2, false), (0x1005, 1, false), (0x1006, 3, true), (0x1007, 3, false)]

/-- Every fault code the chapters define. -/
def faultTable : List (Nat × Nat × Bool) := faultTable1 ++ faultTable2

/-- The class of a code, 0 for an undefined one (R504). -/
def faultClass (c : Nat) : Nat := ((faultTable.find? (fun e => e.1 = c)).map (fun e => e.2.1)).getD 0

/-- A condition code (R505). -/
def faultIsCondition (c : Nat) : Bool := ((faultTable.find? (fun e => e.1 = c)).map (fun e => e.2.2)).getD false

/-- The default reaction (R519's table): log, interrupt, and mute for PORT_DOWN. -/
def faultDefaultReaction (c : Nat) : Nat :=
  if faultClass c ≤ 1 then 0 else if c = 0x0201 then 2 else 1

/-- Sense of a Bell source after reset (R473): 0 level high, 2 rising edge, 5 message. -/
def srcResetSense (n : Nat) : Nat :=
  if 1 ≤ n ∧ n ≤ 512 then 0
  else if 513 ≤ n ∧ n ≤ 640 then 2
  else if 641 ≤ n ∧ n ≤ 712 then 0
  else if n = 713 then 2
  else if 721 ≤ n ∧ n ≤ 725 then 0
  else if 726 ≤ n ∧ n ≤ 912 then 2
  else if 913 ≤ n ∧ n ≤ 944 then 0
  else if 945 ≤ n ∧ n ≤ 959 then 2
  else if 960 ≤ n ∧ n ≤ 1022 then 5
  else 0

/-- The rows whose reset value is not 0. -/
def resetRows : List RegRow := regMap.filter (fun r => r.reset ≠ 0)

/-- What a register holds at reset: the value its map gives. -/
def csrReset (o : Nat) : Word :=
  if 0x20000000 ≤ o ∧ o < 0x30000000 ∧ o % 0x1000000 = 0 then
    BitVec.ofNat 32 (((o - 0x20000000) / 0x1000000 + 1) * 0x1000000 + 0x00030000)
  else if 0x2F010000 ≤ o ∧ o < 0x2F010000 + 0x1100 * 4 then
    let c := (o - 0x2F010000) / 4
    BitVec.ofNat 32 (faultClass c * 2 ^ 28 + (if faultClass c = 0 then 0 else faultDefaultReaction c) * 2 ^ 16)
  else if 0x2A001000 ≤ o ∧ o < 0x2A002000 then
    let n := (o - 0x2A001000) / 4
    if n = 0 ∨ n = 1023 then 0 else BitVec.ofNat 32 (0x001F0000 + srcResetSense n)
  else if 0x2A002000 ≤ o ∧ o < 0x2B000000 then 0
  else if 0x21001400 ≤ o ∧ o < 0x21001800 ∧ o % 0x100 = 0 then 0x07000000
  else ((resetRows.find? (fun r => r.holds o)).map (·.reset)).getD 0

/-- The word a register holds. -/
def State.rd (s : State) (o : Nat) : Word := tblGet (csrReset o) o s.csr

/-- The state with a register's word replaced. -/
def State.wr (s : State) (o : Nat) (v : Word) : State := { s with csr := tblSet (csrReset o) o v s.csr }

/-- A field of a word. -/
def fldGet (hi lo : Nat) (w : Word) : Nat := w.toNat / 2 ^ lo % 2 ^ (hi + 1 - lo)

/-- A word with a field replaced by the low bits of `v`. -/
def fldSet (hi lo v : Nat) (w : Word) : Word :=
  let n := w.toNat
  BitVec.ofNat 32 (n % 2 ^ lo + v % 2 ^ (hi + 1 - lo) * 2 ^ lo + n / 2 ^ (hi + 1) * 2 ^ (hi + 1))

/-- The value of a field. -/
def State.getF (s : State) (f : Fld) : Nat := fldGet f.hi f.lo (s.rd f.off)

/-- Is a one-bit field 1? -/
def State.isSet (s : State) (f : Fld) : Bool := s.getF f = 1

/-- The state with a field written by hardware. -/
def State.setF (s : State) (f : Fld) (v : Nat) : State := s.wr f.off (fldSet f.hi f.lo v (s.rd f.off))

/-- A field that counts and wraps modulo 2 to the power of its width (R42). -/
def State.cnt (s : State) (f : Fld) (n : Nat) : State := s.setF f (s.getF f + n)

/-- A field that counts and saturates. -/
def State.cntSat (s : State) (f : Fld) (n : Nat) : State :=
  s.setF f (min (s.getF f + n) (2 ^ (f.hi + 1 - f.lo) - 1))

/-- A word that counts and wraps. -/
def State.cntW (s : State) (o n : Nat) : State := s.wr o (s.rd o + BitVec.ofNat 32 n)

/-- The 64-bit value of a pair at `o` (R43). -/
def State.rd64 (s : State) (o : Nat) : DWord := (s.rd (o + 4)) ++ (s.rd o)

/-- The state with a pair written in one cycle (R45). -/
def State.wr64 (s : State) (o : Nat) (v : DWord) : State :=
  (s.wr o (v.truncate 32)).wr (o + 4) ((v >>> 32).truncate 32)

/-- A 64-bit counter that wraps (R42). -/
def State.cnt64 (s : State) (o n : Nat) : State := s.wr64 o (s.rd64 o + BitVec.ofNat 64 n)

/-! ### Memory: one byte table over the device window, keyed by window offset; BAR0 buffers by `bar0Key` -/

/-- One byte. An unlisted byte reads 0. -/
def State.byte (s : State) (a : Nat) : Byte := tblGet 0 a s.mem

/-- The state with one byte written. -/
def State.setByte (s : State) (a : Nat) (v : Byte) : State := { s with mem := tblSet 0 a v s.mem }

/-- `n` bytes from `a`, lowest address first. -/
def State.bytes (s : State) (a : Nat) : Nat → List Byte
  | 0 => []
  | n + 1 => s.byte a :: s.bytes (a + 1) n

/-- The state with bytes written from `a` upward. -/
def State.setBytes (s : State) (a : Nat) : List Byte → State
  | [] => s
  | b :: r => (s.setByte a b).setBytes (a + 1) r

/-- The value of bytes, the first least significant (R11). -/
def leVal : List Byte → Nat
  | [] => 0
  | b :: r => b.toNat + 256 * leVal r

/-- The value of bytes, the first most significant (R10). -/
def beVal (l : List Byte) : Nat := leVal l.reverse

/-- `n` bytes of a value, least significant first. -/
def leBytes : Nat → Nat → List Byte
  | 0, _ => []
  | n + 1, v => BitVec.ofNat 8 v :: leBytes n (v / 256)

/-- `n` bytes of a value, most significant first. -/
def beBytes (n v : Nat) : List Byte := (leBytes n v).reverse

/-- A little-endian value of `n` bytes in memory. -/
def State.ldLE (s : State) (a n : Nat) : Nat := leVal (s.bytes a n)

/-- The state with a little-endian value of `n` bytes stored. -/
def State.stLE (s : State) (a n v : Nat) : State := s.setBytes a (leBytes n v)

/-! ### Outputs and draws -/

/-- The state after the device has sent something out. -/
def State.emit (s : State) (o : Output) : State := { s with outs := o :: s.outs }

/-- A fresh free value, and the state after the draw. -/
def State.draw (s : State) : Nat × State := (Config.freeValue s.draws, { s with draws := s.draws + 1 })

/-! ### Position, stamps and identity -/

/-- The beat number (R50). -/
def State.beat (s : State) : Beat := (s.rd64 POS_NOW_LO >>> 16).truncate 48

/-- The present Yardstamp (R66). -/
def State.stamp (s : State) : DWord := s.rd64 POS_NOW_LO

/-- `a` lies before `b` in the order of beats (R71). -/
def beatBefore (a b : Beat) : Bool :=
  let d := (b - a).toNat
  decide (1 ≤ d) && decide (d ≤ 2 ^ 47 - 1)

/-- Beat `b` has come: it is the present beat or lies before it. -/
def State.beatDue (s : State) (b : Beat) : Bool := decide (b = s.beat) || beatBefore b s.beat

/-- The order of two records by stamp, origin and production order (R71). -/
def stampBefore (a b : DWord) (oa ob sa sb : Nat) : Bool :=
  let x : Beat := (a >>> 16).truncate 48
  let y : Beat := (b >>> 16).truncate 48
  if beatBefore x y then true
  else if x ≠ y then false
  else if (a.truncate 16 : BitVec 16) ≠ b.truncate 16 then decide ((a.truncate 16 : BitVec 16).toNat < (b.truncate 16 : BitVec 16).toNat)
  else if oa ≠ ob then decide (oa < ob)
  else decide (sa < sb)

/-- The device ID (R69, R302). -/
def State.devId (s : State) : Nat := s.getF FAB_ID_DEV_ID

/-- The origin tag of a source unit (R69). -/
def State.origin (s : State) (unit : Nat) : Nat := (s.devId * 64 + unit % 64) % 65536

/-! ### Sheds -/

/-- State of shed k: 0 OFF, 1 DRAINING, 2 ON (R536). -/
def State.shedState (s : State) (k : Nat) : Nat := (s.rd64 PWR_SHED_STAT_LO).toNat / 4 ^ k % 4

/-- Shed k is ON. -/
def State.shedOn (s : State) (k : Nat) : Bool := s.shedState k = 2

/-- The state with shed k in state v. -/
def State.setShed (s : State) (k v : Nat) : State :=
  let n := (s.rd64 PWR_SHED_STAT_LO).toNat
  s.wr64 PWR_SHED_STAT_LO (BitVec.ofNat 64 (n % 4 ^ k + v % 4 * 4 ^ k + n / 4 ^ (k + 1) * 4 ^ (k + 1)))

end Sys2Proof.Machine
end

