-- ==== Sys2Proof/Machine/Operands.lean ====
section
/-!
DEFINITION. The operands that every access shares: the requester, its code, the answer it gets, and the DECODE fault of an
offset that names nothing (spec/02 R35, spec/19 R455). The operand forms of the Dray ops are those of spec/16, in the Dray files.
-/

namespace Sys2Proof.Machine

/-! ### Answers and DECODE faults -/

/-- Code of a requester (R455): 0–31 Dray, 32 YM-E, 33 YM-W, 48 host, 56 debug, 57 fabric peer. -/
def requesterCode : Requester → Nat
  | .dray k => k.val
  | .ymE => 32
  | .ymW => 33
  | .host => 48
  | .debug => 56
  | .peer _ => 57

/-- The state after an access has been answered. -/
def State.reply (s : State) (r : Requester) (st : BusStatus) (data : DWord) : State :=
  { s with answer := some { req := requesterCode r, status := st, data := data } }

/-- The subsystem code whose header records a DECODE fault at a window offset (R35). -/
def decodeRegion (o : Nat) : Nat :=
  if 0x20000000 ≤ o ∧ o < 0x30000000 then (o - 0x20000000) / 0x1000000 + 1 else 0x0A

/-- A DECODE fault (R35): recorded in the header of the region, and answered. -/
def State.decodeFault (s : State) (r : Requester) (o : Nat) : State :=
  let k := decodeRegion o
  let s := (s.setF (DECODE_INFO_REQ k) (requesterCode r)).setF (DECODE_INFO_OFFSET k) (o % 0x1000000)
  let s := (s.setF (SUBSYS_STAT_DECODE_SEEN k) 1).cntSat (SUBSYS_STAT_DECODE_CNT k) 1
  s.reply r .decode 0

end Sys2Proof.Machine
end

