-- ==== Sys2Proof/Machine/Flags.lean ====
section
/-!
DEFINITION. Fault reports and the flags they raise (spec/22 R504 to R514): a unit's queue, the fault state table, the drop
counters. The event flags (W1C fields) are set where each chapter's event happens, by `State.setF`.
-/

namespace Sys2Proof.Machine

/-! ### Reports -/

/-- A queue with a report added by R507; the code of a report dropped for it is returned beside it, 0 for none. -/
def queueReport (q : List Report) (r : Report) : List Report × Nat :=
  if q.length < 4 then (q ++ [r], 0)
  else if faultClass r.code ≠ 3 then (q, r.code)
  else
    match q.reverse.findIdx? (fun x => faultClass x.code ≠ 3) with
    | some i => ((q.reverse.eraseIdx i).reverse ++ [r], (q.reverse[i]?.map (·.code)).getD 0)
    | none =>
      let j := (q.reverse.findIdx? (fun x => x.code = r.code)).getD 0
      ((q.reverse.modify j (fun x => { x with merged := x.merged + 1 })).reverse, 0)

/-- Count a drop of a class (R507, R510, R512): its counter, DROPPED, and what LEDGER_DROPPED will report. -/
def State.countDrop (s : State) (cls : Nat) : State :=
  if cls = 0 then s
  else
    let o := if cls = 1 then LEDGER_DROP_N else if cls = 2 then LEDGER_DROP_D else LEDGER_DROP_F
    let l := s.ledger
    let s := (s.cntSat ⟨o, 31, 0⟩ 1).setF LEDGER_STAT_DROPPED 1
    { s with ledger :=
        { l with
          dropN := l.dropN + (if cls = 1 then 1 else 0)
          dropD := l.dropD + (if cls = 2 then 1 else 0)
          dropF := l.dropF + (if cls = 3 then 1 else 0) } }

/-- The fault state table takes reports of a code (R514). -/
def fstateRaise (code hits : Nat) (s : State) : State :=
  (s.setF (LEDGER_FSTATE_RAISED code) 1).cntSat (LEDGER_FSTATE_HITS code) hits

/-- A report put into its unit's queue (R507); one dropped there still sets its entry (R514). -/
def State.addReport (s : State) (unit : Nat) (r : Report) : State :=
  let q := queueReport (tblGet [] unit s.ledger.queues) r
  let s : State := { s with ledger := { s.ledger with queues := tblSet [] unit q.1 s.ledger.queues } }
  if q.2 = 0 then s else (fstateRaise q.2 1 s).countDrop (faultClass q.2)

/-- A unit reports a fault code (R505): stamp and origin are those of the moment. -/
def State.report (s : State) (unit code path : Nat) (data : Nat) : State :=
  s.addReport unit
    { stamp := s.stamp, origin := s.origin unit, code := code, path := path,
      data := BitVec.ofNat 128 data, cont := none, inj := false, merged := 0 }

/-- The path value that names nothing (R505). -/
def noPath : Nat := 1023

end Sys2Proof.Machine
end

