-- ==== Sys2Proof/Machine/Bell.lean ====
section
/-!
DEFINITION. Bell (spec/20): sources, targets, takes and finishes, doorbells, wake latches and the freeze.
-/

namespace Sys2Proof.Machine

/-- A source that names nothing or is reserved (R473 and the chapters' reserved ranges): it never becomes pending. -/
def bellReserved (n : Nat) : Bool :=
  n = 0 || 1023 ≤ n || (714 ≤ n && n ≤ 720) || (742 ≤ n && n ≤ 784) || (855 ≤ n && n ≤ 864) || (874 ≤ n && n ≤ 880)
    || (889 ≤ n && n ≤ 896) || (908 ≤ n && n ≤ 912) || (924 ≤ n && n ≤ 944) || (950 ≤ n && n ≤ 959)

/-- The one-bit field of source `n` in a bank of 32-bit words at `base`. -/
def bellBit (base n : Nat) : Fld := ⟨base + n / 32 * 4, n % 32, n % 32⟩

/-- The pending bit of a source. -/
def bellPend (s : State) (n : Nat) : Bool := s.isSet (bellBit (BELL_PEND 0) n)

/-- The active bit of a source. -/
def bellActive (s : State) (n : Nat) : Bool := s.isSet (bellBit (BELL_ACTIVE 0) n)

/-- The sense a source acts by (R474): 6 and 7 are treated as 0. -/
def bellSense (s : State) (n : Nat) : Nat := if s.getF (SRC_CFG_SENSE n) ≥ 6 then 0 else s.getF (SRC_CFG_SENSE n)

/-- The requester's own target (R475). -/
def bellTargetOf : Requester → Option Nat
  | .dray k => some k.val
  | .ymE => some 32
  | .ymW => some 33
  | .host => some 48
  | .debug => none
  | .peer _ => none

/-- The targets (R475). -/
def bellTargets : List Nat := List.range 34 ++ [48]

/-- A target's priority for a source. -/
def bellPrio (s : State) (t n : Nat) : Nat := fldGet (n % 8 * 4 + 3) (n % 8 * 4) (s.rd (TGT_PRIO t (n / 8)))

/-- Eligibility (R475). -/
def bellEligible (s : State) (n t : Nat) : Bool :=
  bellPend s n && !bellActive s n && s.isSet (bellBit (TGT_EN t 0) n) && decide (s.getF (TGT_CTL_THRESH t) < bellPrio s t n)

/-- The best source among the 32 of word `j`, against the best so far (R477: ascending, lowest number wins ties). -/
def bellBestInWord (s : State) (t j : Nat) (best : Nat × Nat) : Nat × Nat :=
  let w := s.rd (BELL_PEND j) &&& ~~~ s.rd (BELL_ACTIVE j) &&& s.rd (TGT_EN t j)
  if w = 0 then best
  else
    (List.range 32).foldl
      (fun b i =>
        let n := 32 * j + i
        if bellEligible s n t && !bellReserved n && decide (b.2 < bellPrio s t n) then (n, bellPrio s t n) else b) best

/-- The source a take by target `t` would return now, or 0 (R477). -/
def bellBest (s : State) (t : Nat) : Nat := ((List.range 32).foldl (fun b j => bellBestInWord s t j b) (0, 0)).1

/-- A target that presents nothing (R476): its core's shed is not ON. -/
def bellMuted (s : State) (t : Nat) : Bool := decide (t < 32) && !s.shedOn (t / 2)

/-- The target holds under R480: its hold-off runs, and its core is not in WAIT. -/
def bellHolding (s : State) (t : Nat) : Bool :=
  s.isSet (TGT_STAT_HOLDING t) && !(decide (t < 32) && decide (s.getF (DRAY_STAT_STATE t) = 3))

/-- The request line of a target brought up to date (R476, R481): on a rise REQ_SEEN is set and the host gets its MSI-X. -/
def bellRefreshTarget (t : Nat) (s : State) : State :=
  let req := decide (bellBest s t ≠ 0) && !bellHolding s t && !bellMuted s t
  let old := s.isSet (TGT_STAT_REQ t)
  let s := s.setF (TGT_STAT_REQ t) req.toNat
  if req && !old then
    let s := s.setF (TGT_STAT_REQ_SEEN t) 1
    if t = 48 && s.isSet (TGT_CTL_MSI_EN t) then s.emit (.msix (s.getF (TGT_CTL_VEC t))) else s
  else s

/-- Every request line brought up to date; during a freeze the lines keep their values (R485). -/
def bellRefresh (s : State) : State :=
  if s.isSet BELL_FREEZE_FREEZE then s else bellTargets.foldl (fun s t => bellRefreshTarget t s) s

/-- A hardware update of a pending bit: kept in the shadow during a freeze (R485). -/
def bellSetPend (n : Nat) (v : Bool) (s : State) : State :=
  if bellReserved n then s
  else if s.isSet BELL_FREEZE_FREEZE then
    { s with bell := { s.bell with shPend := tblSet none n (some v) s.bell.shPend } }
  else bellRefresh (s.setF (bellBit (BELL_PEND 0) n) v.toNat)

/-- A hardware update of an active bit: kept in the shadow during a freeze (R485). -/
def bellSetActive (n : Nat) (v : Bool) (s : State) : State :=
  if s.isSet BELL_FREEZE_FREEZE then
    { s with bell := { s.bell with shActive := tblSet none n (some v) s.bell.shActive } }
  else bellRefresh (s.setF (bellBit (BELL_ACTIVE 0) n) v.toNat)

/-- A level source acts on its input (R474). -/
def bellLevel (n : Nat) (s : State) : State :=
  let lvl := tblGet false n s.bell.inputs
  let sense := bellSense s n
  if sense ≤ 1 then
    if bellActive s n then s
    else bellSetPend n (lvl == decide (sense = 0)) s
  else s

/-- A source's input takes a level (R474). -/
def bellInput (n : Nat) (lvl : Bool) (s : State) : State :=
  let old := tblGet false n s.bell.inputs
  let s := { s with bell := { s.bell with inputs := tblSet false n lvl s.bell.inputs } }
  match bellSense s n with
  | 0 => bellLevel n s
  | 1 => bellLevel n s
  | 2 => if !old && lvl then bellSetPend n true s else s
  | 3 => if old && !lvl then bellSetPend n true s else s
  | 4 => if old != lvl then bellSetPend n true s else s
  | _ => s

/-- A pulse on a source's input. -/
def bellPulse (n : Nat) (s : State) : State := bellInput n false (bellInput n true (bellInput n false s))

/-- The core domain's clocks are stopped (R483, R502, R543). -/
def State.clocksStopped (s : State) : Bool := s.power.asleep || s.power.stopped

/-- SOURCE_EVENT (R474, R476, R481): a source's input changes. With the clocks stopped only its level is kept (R483). -/
def execSourceEvent (n : Nat) (level : Bool) (s : State) : Host.Outcome State Fault Refusal :=
  if s.clocksStopped then .next { s with bell := { s.bell with inputs := tblSet false n level s.bell.inputs } }
  else .next (bellInput n level s)

/-- A take by target `t` (R477): the word read and the state after it. -/
def bellTake (t : Nat) (s : State) : Word × State :=
  let best := bellBest s t
  if best = 0 then
    if s.isSet (TGT_STAT_REQ_SEEN t) then (0x40000000, s.setF (TGT_STAT_REQ_SEEN t) 0) else (0, s)
  else
    let s := s.setF (bellBit (BELL_PEND 0) best) 0
    let s := s.setF (bellBit (BELL_ACTIVE 0) best) 1
    let s := (s.setF (SRC_CFG_TAKER best) t).setF (TGT_STAT_REQ_SEEN t) 0
    let s := if s.getF (TGT_CTL_HOLDOFF t) = 0 then s else s.setF (TGT_STAT_HOLDING t) 1
    (0x80000000 ||| BitVec.ofNat 32 best, bellRefresh s)

/-- What a take by target `t` would return, nothing changed (R46, R477). -/
def bellPeek (t : Nat) (s : State) : Word := (bellTake t s).1

/-- The requester a target's take is answered to. -/
def bellRequesterOf (t : Nat) : Requester :=
  if h : t < 32 then .dray ⟨t, h⟩ else if t = 32 then .ymE else if t = 33 then .ymW else .host

/-- TGT_TAKE (R477, R478): a read of a target's TGT_TAKE. -/
def tgtTakeAccess (r : Requester) (t : Nat) (s : State) : State :=
  if r = .debug then
    if !bellTargets.contains t then s.decodeFault r (TGT_TAKE t)
    else if s.isSet DBG_CTL_DBG_CONSUME then
      let p := bellTake t s
      (p.2.reply r .ok (p.1.zeroExtend 64))
    else (s.reply r .ok ((bellPeek t s).zeroExtend 64))
  else if bellTargetOf r ≠ some t then (s.decodeFault r (TGT_TAKE t))
  else if s.isSet BELL_FREEZE_FREEZE then
    ({ s with bell := { s.bell with waiting := s.bell.waiting ++ [t] } }.reply r .waiting 0)
  else
    let p := bellTake t s
    (p.2.reply r .ok (p.1.zeroExtend 64))

/-- TGT_TAKE, as a command. -/
def execTgtTake (r : Requester) (t : Nat) (s : State) : Host.Outcome State Fault Refusal :=
  .next (tgtTakeAccess r t s)

/-- Service of a source ends (R479): it is no longer active, and a level still asserted makes it pending again. -/
def bellEnd (n : Nat) (s : State) : State := bellLevel n (bellSetActive n false s)

/-- A finish write by target `t` (R479). -/
def bellFinish (t n : Nat) (s : State) : State :=
  if n = 0 ∨ n = 1023 then s
  else if bellActive s n && decide (s.getF (SRC_CFG_TAKER n) = t) then bellEnd n s
  else (s.cntSat BELL_CNT_FIN_BAD 1).report 0x0F 0x0B02 noPath 0

/-- TGT_FINISH (R479, R481): the host's line that a finish leaves high sends its vector again. -/
def tgtFinishAccess (r : Requester) (t : Nat) (v : Word) (s : State) : State :=
  if bellTargetOf r ≠ some t then (s.decodeFault r (TGT_FINISH t))
  else
    let s := bellFinish t (fldGet 9 0 v) s
    let s := if t = 48 && s.isSet (TGT_STAT_REQ t) && s.isSet (TGT_CTL_MSI_EN t)
      then s.emit (.msix (s.getF (TGT_CTL_VEC t))) else s
    (s.reply r .ok 0)

/-- TGT_FINISH, as a command. -/
def execTgtFinish (r : Requester) (t : Nat) (v : Word) (s : State) : Host.Outcome State Fault Refusal :=
  .next (tgtFinishAccess r t v s)

/-- Hardware finishes every source that target `t` can no longer finish, and counts FIN_AUTO (R479). -/
def bellAutoFinish (t : Nat) (s : State) : State :=
  (List.range 1023).foldl
    (fun s n =>
      if bellActive s n && decide (s.getF (SRC_CFG_TAKER n) = t) then bellEnd n (s.cntSat BELL_CNT_FIN_AUTO 1) else s) s

/-- The wake request of an OFF shed or of stopped clocks (R482, R483; Bell 947). -/
def wakeRequest (s : State) : State := bellPulse 947 (s.setF PWR_EVT_WAKE_REQ 1)

/-- A doorbell that may be rung (R482): the status to the ringer and the state after it. -/
def bellRing (n : Nat) (s : State) : BusStatus × State :=
  if n < 960 ∨ 1022 < n then (.decode, (s.cntSat BELL_CNT_DB_REFUSED 1).report 0x0F 0x0B01 noPath 0)
  else
    let home := s.getF (SRC_CFG_HOME n)
    if home = 31 ∨ s.shedState home = 2 then (.ok, bellSetPend n true s)
    else if s.shedState home = 1 then (.shedDraining, s.cntSat BELL_CNT_DB_REFUSED 1)
    else if s.isSet (SRC_CFG_WAKE n) then (.ok, wakeRequest (s.setF (SRC_CFG_LATCHED n) 1))
    else (.shedOff, s.cntSat BELL_CNT_DB_REFUSED 1)

/-- BELL_DOORBELL (R482): a write of a source number by a Yardmaster, or by the host once it is granted. -/
def bellDoorbellAccess (r : Requester) (v : Word) (s : State) : State :=
  if r = .ymE ∨ r = .ymW ∨ (r = .host ∧ s.bell.hostDb = true) then
    let p := bellRing (fldGet 9 0 v) s
    (p.2.reply r p.1 0)
  else (s.decodeFault r BELL_DOORBELL)

/-- BELL_DOORBELL, as a command. -/
def execBellDoorbell (r : Requester) (v : Word) (s : State) : Host.Outcome State Fault Refusal :=
  .next (bellDoorbellAccess r v s)

/-- The latched doorbells whose HOME shed enters ON become pending (R482). -/
def bellShedOn (k : Nat) (s : State) : State :=
  ((List.range 63).map (· + 960)).foldl
    (fun s n =>
      if s.isSet (SRC_CFG_LATCHED n) && decide (s.getF (SRC_CFG_HOME n) = k)
      then bellSetPend n true (s.setF (SRC_CFG_LATCHED n) 0) else s) s

/-- Sources with an edge latch in AON (R483). -/
def bellHasLatch (n : Nat) : Bool :=
  (513 ≤ n && n ≤ 640) || (721 ≤ n && n ≤ 725) || (865 ≤ n && n ≤ 880) || (960 ≤ n && n ≤ 1022)

/-- The transition of an input that a latch catches (R483). -/
def bellCatches (s : State) (n : Nat) (old lvl : Bool) : Bool :=
  match bellSense s n with
  | 0 => !old && lvl
  | 1 => old && !lvl
  | 2 => !old && lvl
  | 3 => old && !lvl
  | 4 => old != lvl
  | _ => lvl

/-- The waiting takes served after a freeze (R485). -/
def bellServeWaiting : List Nat → State → State
  | [], s => s
  | t :: r, s =>
    let p := bellTake t s
    bellServeWaiting r (p.2.reply (bellRequesterOf t) .ok (p.1.zeroExtend 64))

/-- The shadow merged over the registers (R485). -/
def bellMerge (s : State) : State :=
  let s := s.bell.shPend.foldl
    (fun s e => match e.2 with | some v => s.setF (bellBit (BELL_PEND 0) e.1) v.toNat | none => s) s
  let s := s.bell.shActive.foldl
    (fun s e => match e.2 with | some v => s.setF (bellBit (BELL_ACTIVE 0) e.1) v.toNat | none => s) s
  { s with bell := { s.bell with shPend := [], shActive := [] } }

/-- The end of a freeze (R485): the shadow is merged, the lines follow, and the waiting takes are served. -/
def bellRelease (s : State) : State :=
  let s := bellMerge ((s.setF BELL_FREEZE_FREEZE 0).setF BELL_FREEZE_HOLDER 0x3F)
  let w := s.bell.waiting
  bellServeWaiting w (bellRefresh { s with bell := { s.bell with waiting := [] } })

/-- A write to BELL_FREEZE (R485): its FREEZE bit; any write of the holder ends the dropping after an expiry. -/
def bellFreezeWrite (r : Requester) (freeze : Bool) (s : State) : State :=
  let s := if s.bell.expired = some (requesterCode r) then { s with bell := { s.bell with expired := none } } else s
  if freeze then
    if s.isSet BELL_FREEZE_FREEZE then s
    else (s.setF BELL_FREEZE_FREEZE 1).setF BELL_FREEZE_HOLDER (requesterCode r)
  else if s.isSet BELL_FREEZE_FREEZE && decide (s.getF BELL_FREEZE_HOLDER = requesterCode r) then bellRelease s
  else s

/-- BELL_FREEZE_SET (R485): a write of 1 to FREEZE. -/
def execBellFreezeSet (r : Requester) (s : State) : Host.Outcome State Fault Refusal :=
  .next ((bellFreezeWrite r true s).reply r .ok 0)

/-- BELL_FREEZE_RELEASE (R485): a write of 0 to FREEZE; only the holder's releases. -/
def execBellFreezeRelease (r : Requester) (s : State) : Host.Outcome State Fault Refusal :=
  .next ((bellFreezeWrite r false s).reply r .ok 0)

/-- BELL_FRZ_EXPIRED (R485): 64 cycles have passed since the freeze began. -/
def execBellFrzExpired (s : State) : Host.Outcome State Fault Refusal :=
  if s.isSet BELL_FREEZE_FREEZE then
    let h := s.getF BELL_FREEZE_HOLDER
    let s := (bellRelease s).setF BELL_FREEZE_EXPIRED 1
    .next ({ s with bell := { s.bell with expired := some h } }.report 0x0F 0x0B03 noPath 0)
  else .next s

/-- HOLDOFF_EXPIRY (R480): a target's hold ends. -/
def execHoldoffExpiry (t : Nat) (s : State) : Host.Outcome State Fault Refusal :=
  .next (if bellTargets.contains t then bellRefresh (s.setF (TGT_STAT_HOLDING t) 0) else s)

/-- May this requester write BELL_PEND and the enable words now? (R485) -/
def bellMayWrite (r : Requester) (s : State) : Bool :=
  if s.isSet BELL_FREEZE_FREEZE then decide (s.getF BELL_FREEZE_HOLDER = requesterCode r)
  else decide (s.bell.expired ≠ some (requesterCode r))

/-- The source bits of word `j` that may be pending (R473). -/
def bellPendMask (j : Nat) : Word :=
  (List.range 32).foldl (fun w i => if bellReserved (32 * j + i) then w else w ||| (1#32 <<< i)) 0

/-- A software write to BELL_PEND or an enable word has been stored: reserved bits are cleared and the lines follow. -/
def bellAfterWrite (o : Nat) (s : State) : State :=
  if BELL_PEND 0 ≤ o ∧ o < BELL_PEND 32 then
    let j := (o - BELL_PEND 0) / 4
    bellRefresh (s.wr o (s.rd o &&& bellPendMask j))
  else bellRefresh s

/-- Level sources whose input is asserted set their pending bit again after software cleared it (R484). -/
def bellRestoreLevels (j : Nat) (s : State) : State :=
  (List.range 32).foldl
    (fun s i => let n := 32 * j + i
      if bellSense s n ≤ 1 && !bellReserved n && tblGet false n s.bell.inputs == decide (bellSense s n = 0)
      then bellLevel n s else s) s

end Sys2Proof.Machine
end

