-- ==== Sys2Proof/Machine/Crypto.lean ====
section
/-!
DEFINITION. Byte strings, checks (CRC) and the standards' primitives over keys: the shapes in which the chapters use the
opaque functions of Config.
-/

namespace Sys2Proof.Machine

/-- `n` bytes given one by one. -/
def bytesOf (n : Nat) (f : Nat → Byte) : List Byte := (List.range n).map f

/-- A text as ASCII bytes (R219). -/
def ascii (t : String) : List Byte := t.toList.map (fun c => BitVec.ofNat 8 c.toNat)

/-- `n` zero bytes. -/
def zeros (n : Nat) : List Byte := List.replicate n 0

/-- `n` bytes of a string from position `o`, zeros beyond its end. -/
def slice (l : List Byte) (o n : Nat) : List Byte := ((l.drop o).take n) ++ zeros (n - (l.length - o))

/-- A big-endian field of a string (R10). -/
def be (l : List Byte) (o n : Nat) : Nat := beVal (slice l o n)

/-- A little-endian field of a string (R11). -/
def le (l : List Byte) (o n : Nat) : Nat := leVal (slice l o n)

/-- One byte of a string. -/
def at' (l : List Byte) (o : Nat) : Nat := (l.getD o 0).toNat

/-- A string with bytes put over it at position `o`. -/
def putAt (l : List Byte) (o : Nat) (v : List Byte) : List Byte := l.take o ++ v ++ l.drop (o + v.length)

/-- One bit into a CRC sent most significant bit first. -/
def crcMsbBit (w poly c bit : Nat) : Nat :=
  if (c / 2 ^ (w - 1) + bit) % 2 = 1 then (c * 2 % 2 ^ w) ^^^ poly else c * 2 % 2 ^ w

/-- One byte, most significant bit first. -/
def crcMsbByte (w poly c : Nat) (b : Byte) : Nat :=
  [7, 6, 5, 4, 3, 2, 1, 0].foldl (fun c i => crcMsbBit w poly c (b.toNat / 2 ^ i % 2)) c

/-- A CRC without reflection over a string. -/
def crcMsb (w poly init : Nat) (l : List Byte) : Nat := l.foldl (crcMsbByte w poly) init

/-- One byte of a reflected CRC. -/
def crcLsbByte (poly c : Nat) (b : Byte) : Nat :=
  [0, 1, 2, 3, 4, 5, 6, 7].foldl (fun c i => if (c + b.toNat / 2 ^ i) % 2 = 1 then (c / 2) ^^^ poly else c / 2) c

/-- The CRC-32 of IEEE 802.3, as a number whose least significant byte is sent first (R91). -/
def crc32 (l : List Byte) : Nat := (l.foldl (crcLsbByte 0xEDB88320) 0xFFFFFFFF) ^^^ 0xFFFFFFFF

/-- The FCS of a frame. -/
def fcsOf (l : List Byte) : List Byte := leBytes 4 (crc32 l)

/-- The inverted FCS (R151, R156). -/
def badFcsOf (l : List Byte) : List Byte := (fcsOf l).map (fun b => ~~~ b)

/-- The CRC-8 of POS_DATA_IN (R54), over the 56 bits above it. -/
def crc8 (v : Nat) : Nat := crcMsb 8 0x07 0 (beBytes 7 v)

/-- The CRC-64 of Twin digests (R278). -/
def crc64 (init : DWord) (l : List Byte) : DWord := BitVec.ofNat 64 (crcMsb 64 0x42F0E1EBA9EA3693 init.toNat l)

/-- HKDF with an empty salt, `n` bytes (R219). -/
def kdf (ikm info : List Byte) (n : Nat) : List Byte := bytesOf n (Config.hkdf [] ikm info)

/-- SHA-384 as bytes. -/
def sha (m : List Byte) : List Byte := beBytes 48 (Config.sha384 m).toNat

/-- The bytes of a string combined with a GCM keystream (R145). -/
def gcmStream (key : List Byte) (iv : Nat) (l : List Byte) : List Byte :=
  l.mapIdx (fun i b => b ^^^ Config.aesStream key iv i)

/-- The GCM tag as 16 bytes. -/
def gcmTagBytes (key : List Byte) (iv : Nat) (aad ct : List Byte) : List Byte :=
  beBytes 16 (Config.gcmTag key iv aad ct).toNat

/-- AES key wrap of a plaintext under a KEK (R228). -/
def wrap (kek plain : List Byte) : List Byte := bytesOf (plain.length + 8) (Config.keyWrap kek plain)

/-- AES key unwrap: the plaintext, none where the integrity check fails (R228). -/
def unwrap (kek blob : List Byte) : Option (List Byte) :=
  if Config.keyUnwrapOk kek blob then some (bytesOf (blob.length - 8) (Config.keyUnwrap kek blob)) else none

/-- The number of ticks in a millisecond: the tick is CCLK ÷ 2 = 750 MHz (R553). -/
def ticksPerMs : Nat := 750000

/-- Ticks in one second. -/
def ticksPerS : Nat := 750000000

end Sys2Proof.Machine
end

