-- ==== Sys2Proof/Machine/Loft.lean ====
section
/-!
DEFINITION. The Loft (spec/24, R546 to R552): words, the write queue, wear, and what each persisted or failed word means to
the operation that waits for it.
-/

namespace Sys2Proof.Machine

/-- Window offset of the Loft (R547). -/
def loftBase : Nat := 0x30000000

/-- A word of the Loft. -/
def State.loftWord (s : State) (w : Nat) : DWord := BitVec.ofNat 64 (s.ldLE (loftBase + 8 * w) 8)

/-- The Loft word that holds a channel's ASN reservation (R547). -/
def loftResvWord (n : Nat) : Nat := (0x5000 + 16 * n) / 8

/-- The Loft word that holds a channel's inbound PN block mark (R547). -/
def loftPnWord (n : Nat) : Nat := (0x5000 + 16 * n + 8) / 8

/-- The Loft word of ring slot k of a channel-direction (R547). -/
def loftRingWord (n d k : Nat) : Nat := (0x8000 + 128 * n + 64 * d + 8 * k) / 8

/-- First word of blob area a of a channel (R547). -/
def loftBlobWord (n a : Nat) : Nat := (0x18000 + 128 * n + 64 * a) / 8

/-- First word of the generation ring (R547). -/
def loftGenWord (g : Nat) : Nat := 5 + g % 8

/-- Offset of the word that holds the watermark of a mailbox (R547). -/
def loftWmWord (m : Nat) : Nat := 0x68 / 8 + m

/-- May any requester but the Tack room see this Loft offset? The KEK, pairing and blob areas and the wrapped seed read as
zeros (R548). -/
def loftHidden (o : Nat) : Bool :=
  (0x1A20 ≤ o && o < 0x1A48) || (0x3000 ≤ o && o < 0x3400) || (0x3400 ≤ o && o < 0x4400) || (0x18000 ≤ o && o < 0x28000)

/-- May the token holder write this Loft offset through the window? The words written by the lead Yardmaster (R547, R548). -/
def loftLeadWord (o : Nat) : Bool :=
  (0x20 ≤ o && o < 0xE8) || (0x1A48 ≤ o && o < 0x1A50 + 4064)

/-- The wear registers follow the counters (R551): the selected word and the highest. -/
def wearRefresh (w : Nat) (s : State) : State :=
  let c := tblGet 0 w s.wear
  let s := if (s.rd64 LOFT_WEAR_MAX_LO).toNat < c then
      (s.wr64 LOFT_WEAR_MAX_LO (BitVec.ofNat 64 c)).setF LOFT_WEAR_MAX_IDX_MAX_IDX w
    else s
  s.wr64 LOFT_WEAR_LO (BitVec.ofNat 64 (tblGet 0 (s.getF LOFT_WEAR_SEL_INDEX) s.wear))

/-- One programming of a word wears it; at 80% of its endurance the device warns once for the word (R551). -/
def wearOne (w : Nat) (s : State) : State :=
  let c := tblGet 0 w s.wear + 1
  let s := wearRefresh w { s with wear := tblSet 0 w c s.wear }
  if c ≥ 32000000000 && !s.loftWarned.contains w then
    let s : State := { s with loftWarned := w :: s.loftWarned }
    (s.setF LOFT_STAT_WARN 1).report 0x15 0x0E01 noPath (8 * w)
  else s

/-- Wear of several programmings. -/
def wearMany : Nat → Nat → State → State
  | 0, _, s => s
  | n + 1, w, s => wearMany n w (wearOne w s)

/-- A word programmed and verified within one step (R549). -/
def loftProgram (w : Nat) (v : DWord) (s : State) : State :=
  let s := wearOne w (s.stLE (loftBase + 8 * w) 8 v.toNat)
  { s with loftBad := s.loftBad.filter (· ≠ w) }

/-- Bytes programmed at a Loft offset, a whole word at a time; bytes of a word that are not given keep their values (R548). -/
def loftStoreWords (w : Nat) : Nat → List Byte → State → State
  | 0, _, s => s
  | n + 1, l, s =>
    let old := s.bytes (loftBase + 8 * w) 8
    let v := leVal (l.take 8 ++ old.drop (min 8 l.length))
    loftStoreWords (w + 1) n (l.drop 8) (loftProgram w (BitVec.ofNat 64 v) s)

/-- Bytes programmed from a word-aligned Loft offset. -/
def loftStore (o : Nat) (l : List Byte) (s : State) : State := loftStoreWords (o / 8) ((l.length + 7) / 8) l s

/-- Bytes of the Loft as the Tack room reads them. -/
def State.loftBytes (s : State) (o n : Nat) : List Byte := s.bytes (loftBase + o) n

/-- A word enters the write queue (R549). -/
def loftEnqueue (w : Nat) (v : DWord) (urgent : Bool) (wait : LoftWait) (s : State) : State :=
  let s : State := { s with loftQ := s.loftQ ++ [{ word := w, value := v, urgent := urgent, wait := wait }] }
  s.setF LOFT_STAT_QUEUE (min s.loftQ.length 64)

/-- The next word the Loft programs: the oldest urgent one, else the oldest (R238, R549). -/
def loftNext (q : List LoftWrite) : Option (LoftWrite × List LoftWrite) :=
  match q.findIdx? (·.urgent) with
  | some i => q[i]?.map (fun e => (e, q.eraseIdx i))
  | none => match q with
    | [] => none
    | e :: r => some (e, r)

/-- The channel record beside a Stall. -/
def State.chan (s : State) (n : Nat) : Chan := tblGet Chan.reset n s.chans

/-- The state with a channel record changed. -/
def State.modChan (s : State) (n : Nat) (f : Chan → Chan) : State :=
  { s with chans := tblSet Chan.reset n (f (s.chan n)) s.chans }

/-- The switch of a direction, 0 outbound, 1 inbound. -/
def Chan.sw (c : Chan) (d : Nat) : Option Switch := if d = 0 then c.swOut else c.swIn

/-- The channel with the switch of a direction replaced. -/
def Chan.setSw (c : Chan) (d : Nat) (w : Option Switch) : Chan :=
  if d = 0 then { c with swOut := w } else { c with swIn := w }

/-- A word has persisted: what waited for it goes on (R238, R241, R242). -/
def loftPersisted (x : LoftWait) (s : State) : State :=
  match x with
  | .mark n d e =>
    s.modChan n (fun c => match c.sw d with
      | some w => if w.epoch = e then c.setSw d (some { w with markDone := true }) else c
      | none => c)
  | .resv n m =>
    (s.modChan n (fun c => { c with resvM := m, resvBusy := false })).wr64 (CH_OUT_ASN_RESV_LO n)
      (BitVec.ofNat 64 ((s.loftWord (loftResvWord n)).toNat))
  | .pnMark n b => s.modChan n (fun c => { c with pnMark := b, pnBusy := false })
  | .plain => s

/-- A word has failed: every operation that waits for it treats it as not persisted; a reservation or PN block mark is
written again (R550). -/
def loftFailed (e : LoftWrite) (s : State) : State :=
  match e.wait with
  | .resv _ _ => loftEnqueue e.word e.value true e.wait s
  | .pnMark _ _ => loftEnqueue e.word e.value true e.wait s
  | .mark _ _ _ => s
  | .plain => s

/-- LOFT_BUDGET_REFILL (R552): one second's words enter the bucket, and the words written in the last second are shown. -/
def execLoftBudgetRefill (s : State) : Host.Outcome State Fault Refusal :=
  let r := s.getF LOFT_BUDGET_CFG_RATE
  .next ((s.setF LOFT_BUDGET_CFG_TOKENS (min (s.getF LOFT_BUDGET_CFG_TOKENS + r) (60 * r))).setF LOFT_CNT_YFI_1S 0)

/-- The rate r of LOFT_BUDGET (R552): 0 is taken as 1, above 100 as 100. -/
def loftRate (r : Nat) : Nat := if r = 0 then 1 else min r 100

/-- The bucket after the rate changes: words above the new capacity are removed (R552). -/
def loftSetRate (r : Nat) (s : State) : State :=
  let r := loftRate r
  (s.setF LOFT_BUDGET_CFG_RATE r).setF LOFT_BUDGET_CFG_TOKENS (min (s.getF LOFT_BUDGET_CFG_TOKENS) (60 * r))

/-- Words of the budget taken by a command that commits; none where the bucket does not hold them (R552). -/
def loftTake (n : Nat) (s : State) : Option State :=
  let t := s.getF LOFT_BUDGET_CFG_TOKENS
  if n ≤ t then some ((s.setF LOFT_BUDGET_CFG_TOKENS (t - n)).setF LOFT_CNT_YFI_1S (s.getF LOFT_CNT_YFI_1S + n))
  else none

/-- A command refused with BUDGET is counted (LOFT_CNT). -/
def budgetSeen (st : Nat) (s : State) : State := if st = 0x0B then s.cntSat LOFT_CNT_REFUSED 1 else s

/-- The mark of an epoch (R238). -/
def markWord (epoch : Nat) (b : Beat) : DWord := BitVec.ofNat 64 (epoch * 2 ^ 32 + b.toNat % 2 ^ 32)

/-- Issue of an epoch mark (R238): ring slot n mod 8, ahead of every other write. -/
def issueMark (n d epoch : Nat) (b : Beat) (s : State) : State :=
  loftEnqueue (loftRingWord n d (epoch % 8)) (markWord epoch b) true (.mark n d epoch) s

/-- `a` is later than `b` by serial comparison with a window of 2^31 (R233). -/
def serialLater (a b : Nat) : Bool := decide (0 < (a + 2 ^ 32 - b) % 2 ^ 32) && decide ((a + 2 ^ 32 - b) % 2 ^ 32 < 2 ^ 31)

/-- The later of two epochs, where there are any. -/
def laterEpoch (a b : Option Nat) : Option Nat :=
  match a, b with
  | none, x => x
  | x, none => x
  | some x, some y => if serialLater y x then some y else some x

/-- The last epoch a ring names (R240, R550): the latest mark among its readable slots; a slot never written reads 0 and is
taken as absent, as is an uncorrectable one, which puts the next number 8 above. -/
def ringLast (s : State) (n d : Nat) : Option Nat :=
  let slots := (List.range 8).map (fun k => (loftRingWord n d k, s.loftWord (loftRingWord n d k)))
  let good := slots.filter (fun e => e.2 ≠ 0 && !s.loftBad.contains e.1)
  let m := good.foldl (fun a e => laterEpoch a (some (e.2.toNat / 2 ^ 32))) none
  if slots.any (fun e => s.loftBad.contains e.1) then some (((m.getD 0) + 7) % 2 ^ 32) else m

end Sys2Proof.Machine
end

