-- ==== Sys2Proof/Machine/Chan.lean ====
section
/-!
DEFINITION. What every chapter does to a channel: its state and mode, its events, counters, mutes and holds (spec/05).
-/

namespace Sys2Proof.Machine

/-- Source units of R69. -/
def unitPos : Nat := 0x00
def unitMerge : Nat := 0x09
def unitTack : Nat := 0x0A
def unitBridle : Nat := 0x0B
def unitLedger : Nat := 0x0C
def unitFarrier : Nat := 0x0D
def unitGroom : Nat := 0x0E
def unitBell : Nat := 0x0F
def unitTally : Nat := 0x10
def unitFabric : Nat := 0x11
def unitYmE : Nat := 0x12
def unitYmW : Nat := 0x13
def unitPower : Nat := 0x14
def unitLoft : Nat := 0x15
def unitPorts : Nat := 0x16
def unitRails : Nat := 0x17
def unitChan : Nat := 0x18

/-- Channel states of R112. -/
def State.chState (s : State) (n : Nat) : Nat := s.getF (CH_CFG_STATE n)

/-- The channel is OPEN. -/
def State.chOpen (s : State) (n : Nat) : Bool := s.chState n = 1

/-- Mode of a channel: 0 frame, 1 cell, 2 layer-1, 3 none. -/
def State.chMode (s : State) (n : Nat) : Nat := s.getF (CH_CFG_MODE n)

/-- A Twin-mode channel. -/
def State.chTwin (s : State) (n : Nat) : Bool := s.isSet (CH_CFG_TWIN n)

/-- Channels whose state is not CLOSED, lowest first. -/
def State.liveChans (s : State) : List Nat := (List.range 512).filter (fun n => s.chState n ≠ 0)

/-- The Bell source of a channel follows its enabled events (R115). -/
def chEvtLine (n : Nat) (s : State) : State :=
  bellInput (n + 1) (decide (s.rd (CH_EVT n) &&& s.rd (CH_EVT_EN n) ≠ 0)) s

/-- A channel event is set. -/
def chEvt (n : Nat) (f : Fld) (s : State) : State := chEvtLine n (s.setF f 1)

/-- A refusal or discard counted against a channel (R132). -/
def refuse (n code : Nat) (s : State) : State := s.cnt64 (CH_REFUSE n ((code - 0x10) * 2)) 1

/-- A refusal counted against a port (R132): codes 0x01–0x0F and 0x80–0x8F. -/
def portRefuse (k code : Nat) (s : State) : State :=
  s.cnt64 (PORT_REFUSE k (if code < 0x80 then code * 2 else 0x20 + (code - 0x80) * 2)) 1

/-- Counter `i` of the outbound statistics (R139): 0 accepted units, 1 accepted octets, 2 sent units, 3 sent octets, 4 fill
cells, 5 switches. -/
def outStat (n i k : Nat) (s : State) : State := s.cnt64 (CH_OUT_STAT n (2 * i)) k

/-- Counter `i` of the inbound statistics (R139): 0 received units, 1 octets, 2 good units, 3 octets, 4 duplicates, 5
switches, 6 frames substituted. -/
def inStat (n i k : Nat) (s : State) : State := s.cnt64 (CH_IN_STAT n (2 * i)) k

/-- Counter `i` of the Bridle (R270): 0 sent, 1 received, 2 tag failures, 3 dropped, 4 late, 5 cancels sent, 6 cancels
received, 7 exchanges done. -/
def brCnt (n i : Nat) (s : State) : State := s.cnt64 (BR_CNT n (2 * i)) 1

/-- Counter `i` of the Twin (R294): 0 SKIP, 1 UNASSIGNED, 2 DIVERGE, 3 FREE_RUN_UNITS, 4 REL_P1, 5 REL_P2. -/
def twCnt (n i : Nat) (s : State) : State := s.cnt64 (TWC_CNT n (2 * i)) 1

/-- A path is muted by anything (R518). -/
def State.muted (s : State) (n : Nat) : Bool := s.ledger.mutes.any (fun m => m.1 = n)

/-- Units not yet on the line are discarded at a mute and counted as DISCARD_MUTE (R21). -/
def discardUnits (n code : Nat) (s : State) : State :=
  let gone := s.units.filter (fun u => u.ch = n && !u.onLine)
  let s : State := { s with
    units := s.units.filter (fun u => !(u.ch = n && !u.onLine))
    pend := s.pend.filter (fun u => u.ch ≠ n) }
  gone.foldl (fun s _ => refuse n code s) s

/-- A path is muted (R21): new frames are refused from now on, waiting ones are discarded. -/
def mutePath (n : Nat) (c : MuteCause) (s : State) : State :=
  if s.ledger.mutes.contains (n, c) then s
  else
    let was := s.muted n
    let s : State := { s with ledger := { s.ledger with mutes := s.ledger.mutes ++ [(n, c)] } }
    if was then s else discardUnits n 0x15 (chEvt n (CH_EVT_MUTE n) (s.setF (CH_STAT_MUTED n) 1))

/-- One mute of a path ends; the path sends again when none holds it (R21, R518). -/
def unmutePath (n : Nat) (c : MuteCause) (s : State) : State :=
  let s : State := { s with ledger := { s.ledger with mutes := s.ledger.mutes.filter (fun m => m ≠ (n, c)) } }
  if s.muted n || decide (511 < n) then s else s.setF (CH_STAT_MUTED n) 0

/-- Every mute of one cause ends. -/
def unmuteAll (c : MuteCause) (s : State) : State :=
  ((s.ledger.mutes.filter (fun m => m.2 = c)).map (·.1)).foldl (fun s n => unmutePath n c s) s

/-- Channels whose outbound path leaves by a cipher-side port; path 2 of a Twin-mode channel by PATH2_PORT (R274). -/
def State.txPort (s : State) (n : Nat) : Nat :=
  if s.chTwin n && s.isSet TW_CFG_MY_PATH then s.getF (TWC_CFG_PATH2_PORT n) else s.getF (CH_CFG_CIPHER_PORT n)

/-- Every outbound channel path is muted (R519, R553). -/
def muteEvery (c : MuteCause) (s : State) : State := s.liveChans.foldl (fun s n => mutePath n c s) s

/-- A channel is held (R78, R81). -/
def holdChan (n : Nat) (s : State) : State :=
  if s.isSet (CH_STAT_HELD n) then s
  else (chEvt n (CH_EVT_HELD n) (s.setF (CH_STAT_HELD n) 1)).setF POS_STAT_HELD (s.getF POS_STAT_HELD + 1)

/-- A position event: its bit in POS_EVT and its Bell source (R82). -/
def posEvt (f : Fld) (src : Nat) (s : State) : State := bellPulse src (s.setF f 1)

/-- The unit is LOCKED again once the last held channel has resumed (R59, R80): source 871. -/
def heldCheck (s : State) : State :=
  if s.getF POS_STAT_HELD = 0 && decide (s.getF POS_STAT_STATE = 3)
  then posEvt POS_EVT_RESUMED 871 (posEvt POS_EVT_LOCK 865 (s.setF POS_STAT_STATE 1)) else s

/-- A held channel resumes, or is closed (R80, R59). -/
def releaseHold (n : Nat) (s : State) : State :=
  if s.isSet (CH_STAT_HELD n) then
    heldCheck ((s.setF (CH_STAT_HELD n) 0).setF POS_STAT_HELD (s.getF POS_STAT_HELD - 1))
  else s

/-- Buffer units a channel holds (R131). -/
def State.bufHeld (s : State) (n : Nat) : Nat :=
  ((s.units ++ s.pend).filter (fun u => u.ch = n)).foldl (fun a u => a + u.bufUnits) 0

/-- A report about a channel by the channel engine. -/
def State.chReport (s : State) (unit code n data : Nat) : State := s.report unit code n data

/-- Nominal beat of a class in tenths of a nanosecond (R48). -/
def beatTenthNs (cls : Nat) : Nat := if cls = 0 then 11677 else if cls = 1 then 121910 else if cls = 2 then 1250000 else 10240

/-- Nominal beat of a class in 2^-16 tick (R48). -/
def nominalBeat (cls : Nat) : Nat :=
  if cls = 0 then 57396429 else if cls = 1 then 599215309 else if cls = 2 then 6144000000 else 50331648

/-- Frame period of a tributary kind in tenths of a nanosecond (R191); an ODUflex has 122,368 bits over its rate. -/
def tribPeriod (kind index : Nat) : Nat :=
  if kind = 1 then 11677 else if kind = 2 then 121910 else if kind = 3 then 117670 else if kind = 4 then 983540
  else if kind = 5 then Config.oduflexPeriod index else if kind = 6 ∨ kind = 7 then 1250000 else 11626

/-- Kind of a channel's tributary (CH_TRIB). -/
def State.tribKind (s : State) (n : Nat) : Nat := s.getF (CH_TRIB_PLAIN_TRIB_kind n)

/-- The channel's tributary is an SDH path. -/
def State.isSdh (s : State) (n : Nat) : Bool := s.tribKind n = 6 || s.tribKind n = 7

/-- Multiframe or superframe period of a layer-1 channel, in tenths of a nanosecond (R199, R200). -/
def State.mfPeriod (s : State) (n : Nat) : Nat :=
  tribPeriod (s.tribKind n) (s.getF (CH_TRIB_PLAIN_TRIB_index n)) * (if s.isSdh n then 64 else 256)

/-- The whole beats that cover a time given in tenths of a nanosecond. -/
def State.beatsFor (s : State) (t : Nat) : Nat :=
  let b := beatTenthNs s.pos.cur.cls
  (t + b - 1) / b

/-- The switch lead Λ (R259). -/
def State.lead (s : State) (n : Nat) : Nat :=
  if s.chMode n = 2 then max 2048 (s.beatsFor (4 * s.mfPeriod n)) else 2048

/-- Beats between the cancel point and B (R259). -/
def State.cancelLead (s : State) (n : Nat) : Nat :=
  if s.chMode n = 2 then max 512 (s.beatsFor (s.mfPeriod n)) else 512

/-- The heartbeat interval in beats (R266). -/
def State.hbInterval (s : State) (n : Nat) : Nat :=
  if s.chMode n = 2 then max 256 (s.beatsFor (4 * s.mfPeriod n)) else 256

/-- Epoch length of a channel in beats (R234, R236): N = ceil(L ÷ beat length). -/
def State.epochBeats (s : State) (n : Nat) : Nat :=
  ((s.chan n).epochLen * ticksPerMs * 65536 + s.pos.beatLen - 1) / max 1 s.pos.beatLen

/-- A beat some way ahead. -/
def beatAdd (b : Beat) (k : Nat) : Beat := b + BitVec.ofNat 48 k

/-- A beat some way back. -/
def beatSub (b : Beat) (k : Nat) : Beat := b - BitVec.ofNat 48 k

/-- Has the beat of b come, or passed, for a unit stamped so? (R16, R71) -/
def stampAtOrAfter (y : DWord) (b : Beat) : Bool :=
  let yb : Beat := (y >>> 16).truncate 48
  decide (yb = b) || beatBefore b yb

/-- The device is the follower of a Twin pair (R276): FOLLOW, FREE_RUN, MUTED, REJOIN or FAULTY. -/
def State.isFollower (s : State) : Bool := decide (3 ≤ s.getF TW_STAT_STATE)

/-- The device is bound. -/
def State.bound (s : State) : Bool := decide (2 ≤ s.getF TW_STAT_STATE)

/-- The channel runs a Bridle session in force: UP or SUSPECT (R248). -/
def State.brUp (s : State) (n : Nat) : Bool := decide (2 ≤ s.getF (BR_STAT_STATE n))

/-- Hardware key mode. -/
def State.hwKeys (s : State) (n : Nat) : Bool := !s.isSet (CH_CFG_KEY_HOST n)

/-- A message leaves for host memory. -/
def State.hostByte (s : State) (a : Nat) : Byte := tblGet 0 a s.hostMem

/-- Bytes written into host memory by DMA. -/
def hostWrite (a : Nat) : List Byte → State → State
  | [], s => s
  | b :: r, s => hostWrite (a + 1) r { s with hostMem := tblSet 0 a b s.hostMem }

/-- Bytes read from host memory. -/
def hostRead (s : State) (a n : Nat) : List Byte := bytesOf n (fun i => s.hostByte (a + i))

end Sys2Proof.Machine
end

