-- ==== Sys2Proof/Machine/FabTx.lean ====
section
/-!
DEFINITION. Sending over the Z ports (spec/12 R297 to R311): flits, the replay buffer, credits, messages and their routes; and
sending on the twin link (spec/11 R273).
-/

namespace Sys2Proof.Machine

/-- A Z port's record. -/
def State.zp (s : State) (z : Nat) : ZPort := tblGet ZPort.reset z s.fab.zports

/-- The state with a Z port's record changed. -/
def State.modZp (s : State) (z : Nat) (f : ZPort → ZPort) : State :=
  { s with fab := { s.fab with zports := tblSet ZPort.reset z (f (s.zp z)) s.fab.zports } }

/-- Z port z is UP. -/
def State.zUp (s : State) (z : Nat) : Bool := s.getF (PORT_STAT_STATE (64 + z)) = 3

/-- Pieces of `n` bytes, the last filled with zeros. -/
def chunksFuel (n : Nat) : Nat → List Byte → List (List Byte)
  | 0, _ => []
  | f + 1, l => if l.length ≤ n then [l ++ zeros (n - l.length)] else l.take n :: chunksFuel n f (l.drop n)

/-- The flits of a message (R297, R308): single, or head, body and tail. -/
def flitsOf (vc : Nat) (m : List Byte) : List ZFlit :=
  let c := chunksFuel 116 (m.length + 1) m
  if c.length ≤ 1 then c.map (fun p => { kind := 4, vc := vc, payload := p, msg := m })
  else c.mapIdx (fun i p => { kind := if i = 0 then 1 else if i + 1 = c.length then 3 else 2, vc := vc, payload := p,
                              msg := if i + 1 = c.length then m else [] })

/-- A flit as it is sent (R297): ACK names the last flit received in order, CREDIT the flits freed on the channel shown. -/
def flitBytes (p : ZPort) (kind vc seq : Nat) (payload : List Byte) : List Byte :=
  let b := [BitVec.ofNat 8 (kind * 32 + vc * 8), 0] ++ beBytes 2 (seq % 4096) ++ beBytes 2 ((p.rxSeq + 4095) % 4096)
    ++ [BitVec.ofNat 8 (p.cvc % 4 * 64), BitVec.ofNat 8 (tblGet 0 (p.cvc % 4) p.freed)] ++ slice payload 0 116
  b ++ fcsOf b

/-- A flit leaves on a port; the virtual channel whose credit it shows rotates (R297). -/
def flitOut (z kind vc seq : Nat) (payload : List Byte) (s : State) : State :=
  (s.emit (.flit z (flitBytes (s.zp z) kind vc seq payload))).modZp z (fun p => { p with cvc := (p.cvc + 1) % 4 })

/-- A link-control flit: 1 INIT, 2 NAK, 3 TSYNC, 4 acknowledgement alone. -/
def linkCtl (z kind : Nat) (body : List Byte) (s : State) : State := flitOut z 5 0 0 (BitVec.ofNat 8 kind :: body) s

/-- Virtual channels that can send a flit now: one waits and the peer shows a free buffer (R299). -/
def vcReady (p : ZPort) (v : Nat) : Bool :=
  p.txq.any (fun f => f.vc = v) && decide ((tblGet 0 v p.sent + 256 - tblGet 0 v p.credit) % 256 < 128)

/-- The virtual channel that sends next (R299): VC 2 first, then VC 1, VC 0 and VC 3 in turn, VC 3 twice; with the turn after
it. -/
def vcPick (p : ZPort) : Option (Nat × Nat) :=
  if vcReady p 2 then some (2, p.rr)
  else [0, 1, 2, 3].findSome? (fun i =>
    let j := (p.rr + i) % 4
    let v := if j = 0 then 1 else if j = 1 then 0 else 3
    if vcReady p v then some (v, (j + 1) % 4) else none)

/-- One sequenced flit leaves, where one can (R298, R299). -/
def pumpOne (z : Nat) (s : State) : State :=
  let p := s.zp z
  if 512 ≤ p.replay.length then s
  else match vcPick p with
    | none => s
    | some (v, rr) =>
      match p.txq.findIdx? (fun f => f.vc = v) with
      | none => s
      | some i =>
        match p.txq[i]? with
        | none => s
        | some f =>
          let s := flitOut z f.kind f.vc p.txSeq f.payload s
          s.modZp z (fun p => { p with
            txq := p.txq.eraseIdx i, replay := p.replay ++ [(p.txSeq, f)], txSeq := (p.txSeq + 1) % 4096, rr := rr,
            sent := tblSet 0 v ((tblGet 0 v p.sent + 1) % 256) p.sent,
            ackTick := if p.replay = [] then s.now else p.ackTick })

/-- At most that many flits leave. -/
def pumpMany : Nat → Nat → State → State
  | 0, _, s => s
  | n + 1, z, s => pumpMany n z (pumpOne z s)

/-- Every flit that can leave a port leaves. -/
def pump (z : Nat) (s : State) : State := if s.zUp z then pumpMany (s.zp z).txq.length z s else s

/-- A message is queued on a port. -/
def zSend (z vc : Nat) (m : List Byte) (s : State) : State :=
  pump z (s.modZp z (fun p => { p with txq := p.txq ++ flitsOf vc m }))

/-- The level of the Bell source of a fabric event (R333). -/
def fabLine (i : Nat) (s : State) : State :=
  bellInput (913 + i) (s.isSet ⟨FAB_EVT, i, i⟩ && s.isSet ⟨FAB_EVT_EN, i, i⟩) s

/-- A fabric event: its bit and Bell source 913 + i, and its record where it has one (R333). -/
def fabEvt (i code data : Nat) (s : State) : State :=
  let s := fabLine i (s.setF ⟨FAB_EVT, i, i⟩ 1)
  if code = 0 then s else s.report unitFabric code noPath data

/-- Virtual channel of a message type (R309). -/
def fabVc (typ : Nat) : Nat :=
  if typ = 7 ∨ typ = 9 then 2 else if typ = 2 ∨ typ = 4 ∨ typ = 0xC then 1 else if typ = 8 then 3 else 0

/-- The 24-byte header of a message (R308). -/
def fabHeader (typ flags dst src een len status tag addr : Nat) : List Byte :=
  [BitVec.ofNat 8 typ, BitVec.ofNat 8 flags] ++ beBytes 2 dst ++ beBytes 2 src ++ beBytes 2 een ++ beBytes 2 len
    ++ [BitVec.ofNat 8 status, 0] ++ beBytes 4 tag ++ beBytes 8 addr

/-- The port by which device d is reached now (R306, R307): the alternate while the primary is DOWN. -/
def fabRoutePort (s : State) (d : Nat) : Option Nat :=
  if !s.isSet (FAB_ROUTE_VALID d) then none
  else if s.zUp (s.getF (FAB_ROUTE_PORT d)) then some (s.getF (FAB_ROUTE_PORT d))
  else if s.isSet (FAB_ROUTE_ALT_VALID d) && s.zUp (s.getF (FAB_ROUTE_ALT_PORT d)) then some (s.getF (FAB_ROUTE_ALT_PORT d))
  else none

/-- A message to one device (R308, R311): it takes its EEN, and leaves by its route; without one it is lost (R300).
A device in CLASH sends none (R303). -/
def fabSend (dst typ status tag addr : Nat) (body : List Byte) (s : State) : State :=
  let vc := fabVc typ
  let key := 4 * dst + vc
  let een := tblGet 0 key s.fab.eenTx
  if s.getF FAB_STAT_STATE = 3 then s
  else match fabRoutePort s dst with
  | none => fabEvt 10 0x0806 dst s
  | some z =>
    let s : State := { s with fab := { s.fab with eenTx := tblSet 0 key ((een + 1) % 65536) s.fab.eenTx } }
    zSend z vc (fabHeader typ 0 dst s.devId een body.length status tag addr ++ body) s

/-- A message to the neighbour at a port alone (R308: HOP). -/
def fabHop (z typ dst : Nat) (body : List Byte) (s : State) : State :=
  zSend z (fabVc typ) (fabHeader typ 0x40 dst s.devId 0 body.length 0 0 0 ++ body) s

/-- A message to every member along the spanning tree (R308: BCAST), but for the port it came by. -/
def fabCast (skip : Option Nat) (m : List Byte) (s : State) : State :=
  ((List.range 8).filter (fun z => (s.zp z).tree && s.zUp z && skip ≠ some z)).foldl
    (fun s z => zSend z (fabVc (at' m 0)) m s) s

/-- The device takes part in the fabric as a member (R302, R303). -/
def State.fabMember (s : State) : Bool := s.isSet FAB_CFG_EN && decide (s.getF FAB_STAT_STATE = 2)

/-! ### The twin link -/

/-- Member ports of the twin link that are UP (R273). -/
def twinPorts (s : State) : List Nat :=
  [0, 1, 2, 3].filter (fun z => decide (s.getF TW_CFG_TLINKS / 2 ^ z % 2 = 1) && s.zUp z)

/-- The member port whose turn it is (R273). -/
def twinTurn (s : State) : Option Nat :=
  match (twinPorts s).find? (fun z => s.twin.turn < z) with
  | some z => some z
  | none => (twinPorts s).head?

/-- Nonce of a twin link message (R273): the sender's MY_PATH, 31 zero bits, the message count. -/
def twinNonce (path count : Nat) : Nat := path * 2 ^ 95 + count % 2 ^ 64

/-- A twin sync record leaves by the member port whose turn it is. -/
def twinPut (rec : List Byte) (s : State) : State :=
  match twinTurn s with
  | none => s
  | some z =>
    let t := s.twin
    let iv := twinNonce (s.getF TW_CFG_MY_PATH) t.count
    let ct := gcmStream t.key iv rec
    let body := beBytes 4 t.bondTx ++ ct ++ gcmTagBytes t.key iv [] ct
    let s : State := { s with twin := { t with count := t.count + 1, bondTx := (t.bondTx + 1) % 2 ^ 32, turn := z } }
    fabHop z 6 (s.getF TW_CFG_MATE_ID) body s

/-- A twin sync record is sent (R273): protected under TS, numbered in the bond, whole on one member port. With every member
port DOWN it is lost, but a digest waits for the link to return (R279). -/
def twinSend (rec : List Byte) (s : State) : State :=
  match twinTurn s with
  | none => if be rec 0 2 / 4096 = 3 then { s with twin := { s.twin with backlog := s.twin.backlog ++ [rec] } } else s
  | some _ =>
    let l := s.twin.backlog
    (l ++ [rec]).foldl (fun s r => twinPut r s) { s with twin := { s.twin with backlog := [] } }

/-- This device is the Witness of a Twin-mode channel (R290). -/
def isWitness (s : State) (n : Nat) : Bool :=
  s.chTwin n && s.isSet (TWC_CFG_WIT_EN n) && decide (s.getF (TWC_CFG_WIT_ID n) = s.devId)

/-- The key that wraps slots for the Witness, from the pairing secret it shares with the lead (R290). -/
def witnessKey (s : State) (dev : Nat) : List Byte :=
  kdf (((tblGet none (Config.witnessPair dev) s.tack.pairs).map (·.secret)).getD []) (ascii "DZ8512 twin link") 32

/-- The lead of a Twin pair sends a record to the Witness of a channel too (R290): kind 0x15 of STATE_SYNC. -/
def witnessSend (n : Nat) (rec : List Byte) (s : State) : State :=
  if s.isSet (TWC_CFG_WIT_EN n) && decide (s.getF TW_STAT_STATE = 2) && !isWitness s n then
    fabSend (s.getF (TWC_CFG_WIT_ID n)) 6 0 0 0 ([0x15, 0] ++ rec) s
  else s

/-- Type and channel of a record (R276). -/
def twinHead (typ n : Nat) : List Byte := beBytes 2 (typ * 4096 + n)

/-! ### A link goes DOWN (R300) -/

/-- A message that a link did not deliver is sent again: to its destination by the route in force, to the mate by another member
port. One for that neighbour alone, or on its way to every member, is gone. -/
def fabResend (m : List Byte) (s : State) : State :=
  let f := at' m 1
  let dst := be m 2 2 % 1024
  if f / 64 % 2 = 1 then
    match twinTurn s with
    | some z => if at' m 0 = 6 ∧ dst = s.getF TW_CFG_MATE_ID then zSend z (fabVc 6) m s else s
    | none => s
  else if f / 128 = 1 then s
  else match fabRoutePort s dst with
    | some z => zSend z (fabVc (at' m 0)) m s
    | none => fabEvt 10 0x0806 dst s

/-- The messages a port holds whole or in part, in order (R300). -/
def zMessages (p : ZPort) : List (List Byte) :=
  ((p.replay.map (·.2) ++ p.txq).filter (fun f => decide (f.kind = 3) || decide (f.kind = 4))).map (·.msg)

/-- The link of a Z port is DOWN: its peer is no longer known, and what it holds is sent again elsewhere. -/
def zLinkDown (z : Nat) (s : State) : State :=
  let l := zMessages (s.zp z)
  let s := (s.modZp z (fun _ => ZPort.reset)).wr (ZP_STAT z) 0
  l.foldl (fun s m => fabResend m s) s

end Sys2Proof.Machine
end

