-- ==== Sys2Proof/Machine/Tack.lean ====
section
/-!
DEFINITION. The Tack room: slots, roles, derivations and what a key is for a unit (spec/09, R215 to R233).
-/

namespace Sys2Proof.Machine

/-- A traffic slot. -/
def State.slot (s : State) (j : Nat) : Slot := tblGet Slot.reset j s.tack.slots

/-- The state with a traffic slot replaced in one cycle (R223). -/
def State.setSlot (s : State) (j : Nat) (x : Slot) : State :=
  { s with tack := { s.tack with slots := tblSet Slot.reset j x s.tack.slots } }

/-- Traffic slots not free, as TR_STAT shows them. -/
def slotsRefresh (s : State) : State := s.setF TR_STAT_SLOTS_USED s.tack.slots.length

/-- A slot is freed: its 46 bytes are overwritten and the caches forget it (R225 step 5). -/
def freeSlot (j : Nat) (s : State) : State :=
  slotsRefresh
    { s with tack := { s.tack with
        slots := tblSet Slot.reset j Slot.reset s.tack.slots, cached := s.tack.cached.filter (· ≠ j) } }

/-- Channel n's slot i (R222). -/
def slotOf (n i : Nat) : Nat := 4 * n + i

/-- Is slot i of channel n named by a role of either direction? -/
def slotNamed (s : State) (n i : Nat) : Bool :=
  [0, 1].any (fun d =>
    (s.isSet (KB_ROLES_CUR_V n d) && decide (s.getF (KB_ROLES_CUR_SLOT n d) = i))
      || (s.isSet (KB_ROLES_NEXT_V n d) && decide (s.getF (KB_ROLES_NEXT_SLOT n d) = i))
      || (s.isSet (KB_ROLES_PREV_V n d) && decide (s.getF (KB_ROLES_PREV_SLOT n d) = i))
      || (s.isSet (KB_ROLES_SPARE_V n d) && decide (s.getF (KB_ROLES_SPARE_SLOT n d) = i)))

/-- A free slot of a channel. -/
def freeIndex (s : State) (n : Nat) : Option Nat :=
  [0, 1, 2, 3].find? (fun i => !slotNamed s n i && decide ((s.slot (slotOf n i)).kind = 0))

/-- The slots of a channel that no role names any longer are freed (R225 step 5). -/
def reapSlots (n : Nat) (s : State) : State :=
  [0, 1, 2, 3].foldl
    (fun s i =>
      if !slotNamed s n i && decide ((s.slot (slotOf n i)).kind ≠ 0) && !(s.units.any (fun u => u.slot = slotOf n i))
      then freeSlot (slotOf n i) s else s) s

/-- Both blocks show the spare slot (R225). -/
def setSpare (n : Nat) (i : Option Nat) (s : State) : State :=
  [0, 1].foldl
    (fun s d => match i with
      | some k => (s.setF (KB_ROLES_SPARE_V n d) 1).setF (KB_ROLES_SPARE_SLOT n d) k
      | none => (s.setF (KB_ROLES_SPARE_V n d) 0).setF (KB_ROLES_SPARE_SLOT n d) 0) s

/-- A filling begins: a free slot becomes spare; where none is free, KEY_SLOT_BUSY (R225 step 1). -/
def takeSpare (n : Nat) (s : State) : Option (Nat × State) × State :=
  if s.isSet (KB_ROLES_SPARE_V n 0) then (some (s.getF (KB_ROLES_SPARE_SLOT n 0), s), s)
  else match freeIndex s n with
    | some i => (some (i, setSpare n (some i) s), setSpare n (some i) s)
    | none => (none, ((s.cntSat TR_CNT_SLOT_BUSY 1).report unitTack 0x0504 n 0))

/-- A next slot to which a switch is armed, or which one direction has taken, is not replaced (R227). -/
def nextLocked (s : State) (n : Nat) : Bool :=
  let v0 := s.isSet (KB_ROLES_NEXT_V n 0)
  let v1 := s.isSet (KB_ROLES_NEXT_V n 1)
  (v0 || v1) && (s.isSet (KB_ROLES_SW_ARMED n 0) || s.isSet (KB_ROLES_SW_ARMED n 1) || !(v0 && v1))

/-- The pairing a channel's session uses (BR_CFG `PAIR`). -/
def State.pairing (s : State) (n : Nat) : Option Pairing := tblGet none (s.getF (BR_CFG_PAIR n)) s.tack.pairs

/-- The channel's role: true for B (R218). -/
def State.roleB (s : State) (n : Nat) : Bool := ((s.pairing n).map (·.roleB)).getD false

/-- The context of derivations: ch_A ‖ ch_B (R219). -/
def State.ctx0 (s : State) (n : Nat) : List Byte :=
  let p := s.getF (BR_CFG_PEER_CH n)
  if s.roleB n then beBytes 2 p ++ beBytes 2 n else beBytes 2 n ++ beBytes 2 p

/-- The Bridle key BK of a channel (R219). -/
def State.bridleKey (s : State) (n : Nat) : List Byte :=
  kdf (((s.pairing n).map (·.secret)).getD []) (ascii "DZ8512 bridle" ++ s.ctx0 n) 32

/-- The epoch secret S_0 of a channel (R219). -/
def State.s0 (s : State) (n : Nat) : List Byte :=
  kdf (((s.pairing n).map (·.secret)).getD []) (ascii "DZ8512 epoch zero" ++ s.ctx0 n) 32

/-- S_(n-1) for the next exchange: the secret of the key in force, or S_0 in a session's first (R219, R249). -/
def State.prevSecret (s : State) (n : Nat) : List Byte :=
  let x := s.slot (slotOf n (s.getF (KB_ROLES_CUR_SLOT n 0)))
  if (s.chan n).br.first || x.kind ≠ 1 || !s.isSet (KB_ROLES_CUR_V n 0) then s.s0 n else x.bytes.take 32

/-- The pseudorandom key of an exchange (R219). -/
def exchPrk (th ss prev : List Byte) : List Byte := bytesOf 48 (Config.hkdfExtract th (ss ++ prev))

/-- S_n (R219). -/
def exchSecret (s : State) (n epoch : Nat) (th ss : List Byte) : List Byte :=
  bytesOf 32 (Config.hkdfExpand (exchPrk th ss (s.prevSecret n)) (ascii "DZ8512 epoch secret" ++ s.ctx0 n ++ beBytes 4 epoch))

/-- CK_n (R219). -/
def exchConfirmKey (s : State) (n epoch : Nat) (th ss : List Byte) : List Byte :=
  bytesOf 48 (Config.hkdfExpand (exchPrk th ss (s.prevSecret n)) (ascii "DZ8512 confirm" ++ s.ctx0 n ++ beBytes 4 epoch))

/-- Is the A to B key the one of this direction? (R220) -/
def dirIsAB (s : State) (n d : Nat) : Bool := decide (d = 0) != s.roleB n

/-- The direction key of a slot (R219, R220, R222). -/
def dirKey (s : State) (n d j : Nat) : List Byte :=
  let x := s.slot j
  if x.kind = 2 then x.bytes.take 32
  else kdf (x.bytes.take 32)
    (ascii (if dirIsAB s n d then "DZ8512 key A>B" else "DZ8512 key B>A") ++ s.ctx0 n ++ beBytes 4 x.epoch) 32

/-- The salt of a slot (R219, R222). -/
def dirSalt (s : State) (n d j : Nat) : List Byte :=
  let x := s.slot j
  if x.kind = 2 then slice x.bytes 32 12
  else kdf (x.bytes.take 32)
    (ascii (if dirIsAB s n d then "DZ8512 salt A>B" else "DZ8512 salt B>A") ++ s.ctx0 n ++ beBytes 4 x.epoch) 12

/-- The SSCI of a slot for a direction (R146, R222). -/
def dirSsci (s : State) (n d j : Nat) : Nat :=
  let x := s.slot j
  if x.kind = 2 then at' x.bytes (if d = 0 then 44 else 45) else if dirIsAB s n d then 1 else 2

/-- The key check value of a slot (R215's KB_KCV). -/
def kcvOf (s : State) (n d j : Nat) : List Byte := (sha (ascii "DZ8512 kcv" ++ dirKey s n d j)).take 8

/-- CH_STAT and the key check values follow the current keys (R222, R224). -/
def keyShow (n d : Nat) (s : State) : State :=
  let v := s.isSet (KB_ROLES_CUR_V n d)
  let s := s.setF (if d = 0 then CH_STAT_OUT_KEY n else CH_STAT_IN_KEY n) v.toNat
  let k := if v then kcvOf s n d (slotOf n (s.getF (KB_ROLES_CUR_SLOT n d))) else []
  (s.wr (KB_KCV_LO n d) (BitVec.ofNat 32 (le k 0 4))).wr (KB_KCV_HI n d) (BitVec.ofNat 32 (le k 4 4))

/-- A direction loses its current key: KIND, PERSIST and the key in force are cleared. -/
def clearCur (n d : Nat) (s : State) : State :=
  keyShow n d (((s.setF (KB_ROLES_CUR_V n d) 0).setF (KB_ROLES_KIND n d) 0).setF (KB_ROLES_PERSIST n d) 0)

/-- The epoch number of the next key of a channel (R233, R240): one above the last used, the serially later of the two
directions where they differ; 0 for a ring that was never written. -/
def nextEpoch (s : State) (n : Nat) : Nat :=
  match laterEpoch (s.chan n).lastOut (s.chan n).lastIn with
  | none => 0
  | some e => (e + 1) % 2 ^ 32

/-- The replay entry of an AN is set to 0 when a new key takes that AN (R154). -/
def replayClear (n an : Nat) (s : State) : State :=
  if s.chMode n = 0 then
    let s := (s.wr64 (CH_REPLAY n (4 * an)) 0).wr64 (CH_REPLAY n (4 * an + 2)) 0
    s.modChan n (fun c => { c with inFloor := match c.inFloor with
      | some f => if f.1 = an then none else some f
      | none => none })
  else s

/-- A SLOT record (R232, R276): channel, slot index, AN, role (0 next, 1 current, 2 previous) and kind, epoch, and the
slot wrapped. -/
def slotRecord (s : State) (key : List Byte) (n i role : Nat) : List Byte :=
  let x := s.slot (slotOf n i)
  twinHead 4 n ++ [BitVec.ofNat 8 i, BitVec.ofNat 8 (x.an + 4 * role + 16 * x.kind)] ++ beBytes 4 x.epoch
    ++ wrap key (slice x.bytes 0 46 ++ [0, 0])

/-- The lead of a Twin pair sends a slot to its follower (R232). -/
def slotSend (n i role : Nat) (s : State) : State :=
  if s.chTwin n && decide (s.getF TW_STAT_STATE = 2) then
    let s := if s.isSet (TWC_CFG_WIT_EN n) then witnessSend n (slotRecord s (witnessKey s (s.getF (TWC_CFG_WIT_ID n))) n i role) s else s
    twinSend (slotRecord s s.twin.key n i role)
      (s.modChan n (fun c => { c with tw := { c.tw with slotAcked := c.tw.slotAcked.filter (· ≠ i) } }))
  else s

/-- May a switch to this slot be announced or armed? At the lead of a pair only once the follower holds it (R232). -/
def slotShared (s : State) (n i : Nat) : Bool :=
  !(s.chTwin n && decide (s.getF TW_STAT_STATE = 2)) || (s.chan n).tw.slotAcked.contains i

/-- The filled spare slot becomes next in both directions, and a next slot it replaces is released (R225 step 2, R227). -/
def spareToNext (n : Nat) (s : State) : State :=
  let i := s.getF (KB_ROLES_SPARE_SLOT n 0)
  let s := replayClear n (s.slot (slotOf n i)).an s
  let s := [0, 1].foldl (fun s d => (s.setF (KB_ROLES_NEXT_V n d) 1).setF (KB_ROLES_NEXT_SLOT n d) i) s
  slotSend n i 0 (reapSlots n (setSpare n none s))

/-- The spare slot is emptied (R258). -/
def dropSpare (n : Nat) (s : State) : State :=
  if s.isSet (KB_ROLES_SPARE_V n 0) then
    freeSlot (slotOf n (s.getF (KB_ROLES_SPARE_SLOT n 0))) (setSpare n none s)
  else s

/-- The next slots are discarded (R229). -/
def dropNext (n : Nat) (s : State) : State :=
  reapSlots n ([0, 1].foldl (fun s d => (s.setF (KB_ROLES_NEXT_V n d) 0).setF (KB_ROLES_NEXT_SLOT n d) 0) s)

/-- Every slot of a channel is released, every role cleared (R229). -/
def releaseSlots (n : Nat) (s : State) : State :=
  let s := [0, 1].foldl (fun s d => keyShow n d (s.wr (KB_ROLES n d) 0)) s
  [0, 1, 2, 3].foldl (fun s i => freeSlot (slotOf n i) s) s

/-- Is KEK k valid? -/
def kekValid (s : State) (k : Nat) : Bool := decide (s.getF TR_STAT_KEK_VALID / 2 ^ k % 2 = 1)

/-- A KEK's 32 bytes. -/
def State.kek (s : State) (k : Nat) : List Byte := tblGet [] k s.tack.keks

/-- A KEK enters its slot. -/
def setKek (k : Nat) (v : List Byte) (s : State) : State :=
  let s : State := { s with tack := { s.tack with keks := tblSet [] k v s.tack.keks } }
  let b := s.getF TR_STAT_KEK_VALID
  s.setF TR_STAT_KEK_VALID (if b / 2 ^ k % 2 = 1 then b else b + 2 ^ k)

/-- An unwrap has failed (R228): counted and recorded. -/
def unwrapFailed (s : State) : State := (s.cntSat TR_CNT_UNWRAP_FAIL 1).report unitTack 0x0503 noPath 0

/-- A pairing secret enters its slot (R215, R219): the twin-link key follows from the mate's. -/
def setPairing (p : Nat) (x : Pairing) (s : State) : State :=
  let s : State := { s with tack := { s.tack with
    pairs := tblSet none p (some x) s.tack.pairs,
    twinKey := if x.mate then kdf x.secret (ascii "DZ8512 twin link") 32 else s.tack.twinKey } }
  let b := s.getF TR_PAIR_VALID_PAIR_VALID
  s.setF TR_PAIR_VALID_PAIR_VALID (if b / 2 ^ p % 2 = 1 then b else b + 2 ^ p)

/-- KEK 0 from the fuse secret (R215, R245, R545): SK_OK rises. -/
def deriveKek0 (s : State) : State := (setKek 0 (bytesOf 32 Config.kek0) s).setF TR_STAT_SK_OK 1

/-- An engine of R522 may be used: 0 key wrap, 1 HKDF and SHA-384, 2 the responder's HMAC (R529). -/
def engineOk (s : State) (e : Nat) : Bool := !s.engineOut.contains e

/-- Is key material accepted? ID_VALID is 1 and a certificate has been installed since the latest ID_GENERATE (R246). -/
def keysReady (s : State) : Bool := s.isSet TR_STAT_ID_VALID && s.tack.certOk && s.isSet TR_STAT_SK_OK

/-- A deposit buffer. -/
def State.deposit (s : State) (j : Nat) : Deposit := tblGet Deposit.reset j s.tack.deposits

/-- Offset of deposit buffer j (R217). -/
def depositBase (j : Nat) : Nat := 0x24010000 + j * 0x80

/-- Key data written into a deposit buffer from a confined range (R217). -/
def depositWrite (j core pos : Nat) (l : List Byte) (s : State) : State :=
  let d := s.deposit j
  let b := (List.range l.length).foldl (fun t i => tblSet none (pos + i) (some (l.getD i 0)) t) d.bytes
  { s with tack := { s.tack with deposits := tblSet Deposit.reset j { bytes := b, core := some core } s.tack.deposits } }

/-- Have all of bytes 0x00–0x6F been written since the last commit? (R217) -/
def depositFull (d : Deposit) : Bool := decide ((d.bytes.filter (fun e => e.1 < 0x70)).length = 0x70)

/-- Bytes of a deposit buffer. -/
def depositBytes (d : Deposit) (o n : Nat) : List Byte := bytesOf n (fun i => (tblGet none (o + i) d.bytes).getD 0)

/-- DEPOSIT_COMMIT (R217): a write of DEP_CMD by a core; accepted only from the core that has written the buffer. -/
def depositCommitAccess (r : Requester) (j : Fin 16) (v : Word) (s : State) : State :=
  let d := s.deposit j.val
  let core := match r with
    | .dray k => some k.val
    | _ => none
  if d.core.isNone || d.core ≠ core then (s.decodeFault r (depositBase j.val + 0x70))
  else if fldGet 31 31 v = 0 then (s.reply r .ok 0)
  else
    let n := fldGet 8 0 v
    let s : State := { s with
      tack := { s.tack with deposits := tblSet Deposit.reset j.val Deposit.reset s.tack.deposits } }
    let s := s.reply r .ok 0
    if depositFull d && s.isSet (KB_ROLES_SPARE_V n 0) then
      let e := nextEpoch s n
      let ss := depositBytes d 0 64
      let th := depositBytes d 64 48
      let sec := exchSecret s n e th ss
      let ck := exchConfirmKey s n e th ss
      let i := slotOf n (s.getF (KB_ROLES_SPARE_SLOT n 0))
      let s := s.setSlot i
        { kind := 1, bytes := sec ++ zeros 14, epoch := e, an := e % 4, keyId := [], persist := false, bad := false }
      (slotsRefresh { s with tack := { s.tack with ck := tblSet [] n ck s.tack.ck } })
    else s

/-- DEPOSIT_COMMIT, as a command. -/
def execDepositCommit (r : Requester) (j : Fin 16) (v : Word) (s : State) : Host.Outcome State Fault Refusal :=
  .next (depositCommitAccess r j v s)

end Sys2Proof.Machine
end

