-- ==== Sys2Proof/Machine/BrTx.lean ====
section
/-!
DEFINITION. Sending over the Bridle (spec/10): message layout, streams and sequence numbers, the queue to the carrier, and a
session that leaves UP.
-/

namespace Sys2Proof.Machine

/-- Message types of R254. -/
def brHello : Nat := 0x01
def brPosition : Nat := 0x02
def brProbe : Nat := 0x03
def brEcho : Nat := 0x04
def brKemOffer : Nat := 0x05
def brKemAccept : Nat := 0x06
def brKeyConfirm : Nat := 0x07
def brSwitchAt : Nat := 0x08
def brSwitchAck : Nat := 0x09
def brSwitchCancel : Nat := 0x0A
def brHeartbeat : Nat := 0x0B
def brDigest : Nat := 0x0C
def brAlarm : Nat := 0x0D

/-- Body length a type must have (R254); none for a reserved type. -/
def brLen (t : Nat) : Option Nat :=
  [none, some 7247, some 24, some 8, some 16, some 1604, some 1604, some 52, some 32, some 16, some 12, some 16, some 32,
    some 20].getD t none

/-- A Bridle event: its record and its Bell source (R271). -/
def brReport (code src n data : Nat) (s : State) : State :=
  bellPulse src (s.report unitBridle code n (n % 65536 + data * 65536))

/-- The session identifiers. -/
def State.sidTx (s : State) (n : Nat) : Nat := (s.rd64 (BR_SID_TX_LO n)).toNat
def State.sidRx (s : State) (n : Nat) : Nat := (s.rd64 (BR_SID_RX_LO n)).toNat

/-- The stream of this device's answers: 1 alone or on path 1, 2 on path 2 (R250). -/
def State.answerStream (s : State) (n : Nat) : Nat := if s.chTwin n && s.isSet TW_CFG_MY_PATH then 2 else 1

/-- Header and body of a message (R250). -/
def brBody (s : State) (n typ stream seq : Nat) (body : List Byte) : List Byte :=
  [0x01, BitVec.ofNat 8 typ] ++ beBytes 2 body.length ++ beBytes 2 n ++ beBytes 2 (s.getF (BR_CFG_PEER_CH n))
    ++ [BitVec.ofNat 8 ((s.roleB n).toNat * 128 + stream * 32), 0, 0, 0] ++ beBytes 4 seq ++ beBytes 8 (s.sidTx n)
    ++ beBytes 8 (s.sidRx n) ++ body

/-- The tag of a message: the first 16 bytes of its HMAC under BK (R250). -/
def brTag (s : State) (n : Nat) (m : List Byte) : List Byte :=
  (beBytes 48 (Config.hmac384 (s.bridleKey n) m).toNat).take 16

/-- The session as its own record. -/
def State.modBr (s : State) (n : Nat) (f : Session → Session) : State := s.modChan n (fun c => { c with br := f c.br })

/-- Messages that the lead of a Twin pair decides for both (R281). -/
def brLeadDecides (typ : Nat) : Bool :=
  [brHello, brKemOffer, brKemAccept, brKeyConfirm, brSwitchAt, brDigest, brAlarm].contains typ

/-- A message is put on its lane (R252): its SEQ follows on its stream. -/
def brSend (n typ stream lane : Nat) (urgent : Bool) (body : List Byte) (s : State) : State :=
  let seq := (s.rd (BR_TX_SEQ n stream)).toNat + 1
  if seq ≥ 2 ^ 32 then s
  else
    let m := brBody s n typ stream seq body
    let m := m ++ brTag s n m
    let s := brCnt n 0 (s.wr (BR_TX_SEQ n stream) (BitVec.ofNat 32 seq))
    let s : State := { s with brTx := s.brTx ++ [{ ch := n, lane := lane, urgent := urgent, bytes := m, sent := 0 }] }
    if s.chTwin n && decide (s.getF TW_STAT_STATE = 2) && brLeadDecides typ && stream = 0 then
      twinSend (twinHead 5 n ++ m) s
    else s

/-- An answer: lane 0, on the device's answer stream. -/
def brAnswer (n typ : Nat) (body : List Byte) (s : State) : State := brSend n typ (s.answerStream n) 0 true body s

/-- A position field of 6 bytes. -/
def beatBytes (b : Beat) : List Byte := beBytes 6 b.toNat

/-- SWITCH_CANCEL for an armed switch (R261): three times in layer-1 mode (R262). -/
def sendCancel (n epoch : Nat) (b : Beat) (reason : Nat) (s : State) : State :=
  let body := beBytes 4 epoch ++ beatBytes b ++ [BitVec.ofNat 8 reason, 0]
  let k := if s.chMode n = 2 then 3 else 1
  let s := (List.range k).foldl (fun s _ => brSend n brSwitchCancel 0 1 true body s) s
  brReport 0x0606 886 n reason (brCnt n 5 s)

/-- ALARM (R254): code, class, Yardstamp and data. -/
def sendAlarm (n code data : Nat) (s : State) : State :=
  brSend n brAlarm 0 1 false
    (beBytes 2 code ++ [BitVec.ofNat 8 (faultClass code), 0] ++ beBytes 8 s.stamp.toNat ++ beBytes 8 data) s

/-- The session runs on this channel: OPEN with `EN` = 1 (R248), on the holder of its path alone (R321). -/
def State.brRuns (s : State) (n : Nat) : Bool := s.chOpen n && s.isSet (BR_CFG_EN n) && s.isSet (CH_STAT_LEASE n)

end Sys2Proof.Machine
end

