-- ==== Sys2Proof/Machine/Epoch.lean ====
section
/-!
DEFINITION. Epoch switches (spec/09 R233 to R240, spec/10 R259 to R262, spec/21 R501): arming, marks, the switch engine on
T120, cancels, exchanges begun, and the forced rekey of a regression (R79).
-/

namespace Sys2Proof.Machine

/-- Is the switch of this direction made by the engine at its beat? Outbound always; inbound in layer-1 mode (R235): in
frame and cell modes a unit that passes its tag under the next key makes it (R153, R182). -/
def engineMakes (s : State) (n d : Nat) : Bool := d = 0 || s.chMode n = 2

/-- The switch beat of a direction that T120 has still to serve (R501): a beat to come, or one past that leaves the engine
something to do. -/
def armedBeat (s : State) (n d : Nat) (w : Option Switch) : List Beat :=
  match w with
  | some w =>
    if !s.beatDue w.beat || (engineMakes s n d && s.isSet (KB_ROLES_NEXT_V n d)) || (d = 1 && !w.markDone && !w.late) then [w.beat]
    else []
  | none => []

/-- Switch beats armed that T120 has still to serve (R501). -/
def armedBeats (s : State) : List Beat :=
  s.chans.flatMap (fun e => armedBeat s e.1 0 e.2.swOut ++ armedBeat s e.1 1 e.2.swIn)

/-- The earliest of some beats (R71). -/
def earliest : List Beat → Option Beat
  | [] => none
  | b :: r => match earliest r with
    | none => some b
    | some c => if beatBefore c b then some c else some b

/-- CMP0 of T120 holds the earliest armed beat, or is disarmed (R501); a beat already passed will match late (R497). -/
def commitT120 (s : State) : State :=
  let s := (s.setF (TCFG_EN 120) 1).setF (TCFG_SRC 120) 3
  match earliest (armedBeats s) with
  | some b =>
    let s := s.wr64 (CMP_LO 120 0) (b.zeroExtend 64)
    let s := s.wr (CMP_CTL 120 0) (s.rd (CMP_CTL 120 0) ||| 0x00200000)
    let s : State := { s with tally :=
      { s.tally with late := tblSet 0 120 (if beatBefore b s.beat then 1 else 0) s.tally.late } }
    s.setF ⟨TSTAT 120, 0, 0⟩ 1
  | none => s.setF ⟨TSTAT 120, 0, 0⟩ 0

/-- The key block shows an armed switch (R227). -/
def showArmed (n d : Nat) (w : Option Switch) (s : State) : State :=
  match w with
  | some w =>
    ((s.setF (KB_ROLES_SW_ARMED n d) 1).wr (KB_SW_BEAT_LO n d) (BitVec.ofNat 32 w.beat.toNat)).setF
      (KB_SW_BEAT_HI_SW_BEAT_HI n d) (w.beat.toNat / 2 ^ 32)
  | none => s.setF (KB_ROLES_SW_ARMED n d) 0

/-- A switch is armed: its mark is issued unless it is already (R238), and T120 follows (R501). -/
def armSwitch (n d : Nat) (w : Switch) (mark : Bool) (s : State) : State :=
  let s := s.modChan n (fun c => c.setSw d (some w))
  let s := showArmed n d (some w) s
  let s := if mark then issueMark n d w.epoch w.beat s else s
  commitT120 s

/-- A switch is disarmed; both ends stay on the current key. -/
def disarmSwitch (n d : Nat) (s : State) : State :=
  let s := s.modChan n (fun c => c.setSw d none)
  let s := if s.chMode n = 2 then s.wr64 (if d = 0 then CH_MODE_W1_LO n else CH_MODE_W2_LO n) (BitVec.allOnes 64) else s
  commitT120 (showArmed n d none s)

/-- A pending switch is cancelled by SWITCH_CANCEL (R79, R224, R261). -/
def cancelSwitch (n d reason : Nat) (s : State) : State :=
  match (s.chan n).sw d with
  | none => s
  | some w =>
    let s := disarmSwitch n d s
    if s.brRuns n then sendCancel n w.epoch w.beat reason s else s

/-- The switch frame under an anchor (R203, R204): the least e at or after e_a whose position is not earlier than beat B, and
whether it lies after e_a. -/
def switchFrame (a : Nat × DWord × Nat) (b : Beat) : Nat × Bool :=
  let target : DWord := (b.zeroExtend 64) <<< 16
  if stampAtOrAfter a.2.1 b then (a.1, false)
  else
    let d := (target - a.2.1).toNat
    let k := (d * 65536 + a.2.2 - 1) / max 1 a.2.2
    ((a.1 + k) % 2 ^ 48, decide (0 < k))

/-- The anchor a layer-1 channel can give now (R203): its last outbound frame. -/
def anchorNow (s : State) (n : Nat) : Nat × DWord × Nat :=
  let l := (s.chan n).l1
  ((s.rd64 (CH_MODE_W0_LO n)).toNat % 2 ^ 48, l.outStamp, l.period)

/-- Body of a SWITCH_AT (R254). -/
def switchAtBody (s : State) (n epoch : Nat) (b : Beat) : List Byte :=
  let a := anchorNow s n
  beBytes 4 epoch ++ beatBytes b ++ zeros 2
    ++ (if s.chMode n = 2 then beBytes 6 a.1 ++ beBytes 8 a.2.1.toNat ++ beBytes 6 a.2.2 else zeros 20)

/-- A layer-1 channel fixes its outbound switch frame as it sends SWITCH_AT; one that has already been sent cancels the
switch (R204). -/
def fixOutFrame (n : Nat) (b : Beat) (s : State) : State :=
  if s.chMode n = 2 then
    let a := anchorNow s n
    let e := switchFrame a b
    if e.2 then s.wr64 (CH_MODE_W1_LO n) (BitVec.ofNat 64 e.1)
    else cancelSwitch n 0 4 (s.report unitChan 0x030B n n)
  else s

/-- SWITCH_AT is sent for the armed switch (R236, R260); it also serves as a probe (R266). -/
def sendSwitchAt (n : Nat) (s : State) : State :=
  match (s.chan n).swOut with
  | none => s
  | some w =>
    let s := brSend n brSwitchAt 0 1 true (switchAtBody s n w.epoch w.beat) s
    let s := s.modChan n (fun c => { c with
      swOut := some { w with sent := true, acked := false }
      br := { c.br with probesOut := c.br.probesOut ++ [2 ^ 48 + w.beat.toNat] } })
    fixOutFrame n w.beat s

/-- A fresh outbound switch at beat b: armed with its mark, and announced where a session is in force (R236, R238). -/
def beginSwitch (n epoch : Nat) (b : Beat) (host : Bool) (s : State) : State :=
  let s := armSwitch n 0
    { epoch := epoch, beat := b, sent := false, acked := false, markDone := false, late := false, host := host } true s
  if s.brUp n then sendSwitchAt n s else s

/-- The earliest beat a switch may name: Λ ahead (R259). -/
def earliestSwitch (s : State) (n : Nat) : Beat := beatAdd s.beat (s.lead n)

/-- The shortest epoch of a channel in milliseconds (R234, R269), rounded up. -/
def minEpochMs (s : State) (n : Nat) : Nat :=
  let up := fun t => (t + 9999999) / 10000000
  let m := max (if s.chMode n = 2 && s.isSdh n then 1000 else 10) (up (4096 * beatTenthNs s.pos.cur.cls))
  if s.chMode n = 2 then max m (up ((if s.isSdh n then 47 else 13) * s.mfPeriod n)) else m

/-- An exchange at its start (R256). -/
def freshExch (e : Nat) (initiator : Bool) : Exch :=
  { epoch := e, initiator := initiator, seed := 0, offer := [], accept := [], ss := [], sent := false, tries := 0 }

/-- An exchange begins: a spare slot fills (R225, R236, R256); where none is free, KEY_SLOT_BUSY and the exchange waits.
A next slot that R227 protects is not replaced; an exchange whose engines are withdrawn fails (R529). -/
def startExchange (n : Nat) (s : State) : State :=
  if s.hwKeys n && s.brUp n && (s.chan n).br.exch.isNone && !nextLocked s n && !(s.chTwin n && s.isFollower) && engineOk s 1
      && engineOk s 2 then
    match takeSpare n s with
    | (some (_, s), _) =>
      let e := nextEpoch s n
      let s := s.modBr n (fun b => { b with exch := some (freshExch e true) })
      (s.setF (BR_STAT_EXCH n) 1).setF (BR_STAT_TRIES n) 0
    | (none, s) => s
  else s

/-- Rises of the effective minimum apply from a channel's switch (R234). -/
def raiseEpoch (n : Nat) (s : State) : State :=
  if (s.chan n).epochLen < minEpochMs s n then
    (s.modChan n (fun c => { c with epochLen := minEpochMs s n })).report unitTack 0x0509 n n
  else s

/-- KEY_HOST and L named by CH_MODIFY hold from the next switch (R357). -/
def nextTakes (n : Nat) (s : State) : State :=
  let c := s.chan n
  let s := match c.nextHost with
    | some h => s.setF (CH_CFG_KEY_HOST n) h.toNat
    | none => s
  s.modChan n (fun c => { c with epochLen := c.nextLen.getD c.epochLen, nextHost := none, nextLen := none })

/-- A switch of one direction takes effect (R16, R225, R235, R501): the next slot becomes current, the current one previous,
and the receive grace starts. -/
def doSwitch (n d : Nat) (s : State) : State :=
  if s.isSet (KB_ROLES_NEXT_V n d) then
    let j := s.getF (KB_ROLES_NEXT_SLOT n d)
    let x := s.slot (slotOf n j)
    let g := beatAdd s.beat 64
    let s := if s.isSet (KB_ROLES_CUR_V n d) then
        (s.setF (KB_ROLES_PREV_V n d) 1).setF (KB_ROLES_PREV_SLOT n d) (s.getF (KB_ROLES_CUR_SLOT n d))
      else s
    let s := ((s.setF (KB_ROLES_CUR_V n d) 1).setF (KB_ROLES_CUR_SLOT n d) j).setF (KB_ROLES_KIND n d) x.kind
    let s := ((s.setF (KB_ROLES_NEXT_V n d) 0).setF (KB_ROLES_NEXT_SLOT n d) 0).setF (KB_ROLES_AN n d) x.an
    let s := (s.setF (KB_ROLES_PERSIST n d) x.persist.toNat).setF (KB_EPOCH_EPOCH n d) x.epoch
    let s := s.setF (KB_GRACE_GRACE_END n d)
      (if s.chMode n = 2 && d = 1 then 0xFFFFFFFF else g.toNat % 2 ^ 32)
    let b := ((s.chan n).sw d).map (·.beat)
    let s := s.modChan n (fun c =>
      let c := c.setSw d none
      if d = 0 then { c with lastOut := some x.epoch, graceOut := some g, beginOut := b.getD s.beat, softSeen := false,
                             resvM := 1, resvBusy := false, forced := false, awaitSw := false,
                             switched := true }
      else { c with lastIn := some x.epoch, graceIn := some g, pnMark := 1, pnBusy := false, window := none })
    let s := if d = 0 && decide (s.chMode n = 2) then
        s.modChan n (fun c => { c with l1 := { c.l1 with
          efnAt := if c.l1.efnWait then some (b.getD s.beat).toNat else c.l1.efnAt
          efnWait := false
          zeroTo := if s.isSet (CH_STAT_HELD n) && decide (s.rd (CH_MODE_W1_HI n) ≠ 0xFFFFFFFF) then
            some (s.rd64 (CH_MODE_W1_LO n)).toNat else none } })
      else s
    let s := showArmed n d none s
    let s := if d = 0 then (s.wr64 (CH_OUT_ASN_LO n) 0).wr64 (CH_OUT_ASN_RESV_LO n) (BitVec.ofNat 64 (x.epoch * 2 ^ 32 + 1))
      else s.wr64 (CH_IN_ASN_LO n) 0
    let s := if d = 0 then nextTakes n (outStat n 5 1 s) else inStat n 5 1 s
    let s := s.modBr n (fun b => { b with digestDue := true })
    let s := chEvt n (CH_EVT_SWITCHED n) (keyShow n d s)
    let s := if d = 0 then
        startExchange n (raiseEpoch n (if s.chMode n = 1 ∧ s.pos.cur.cls ≠ 3 then s else releaseHold n s))
      else s
    reapSlots n s
  else s

/-- An armed switch whose beat has come is taken by the engine (R501); an inbound mark not persisted by then is recorded
(R239). -/
def engineTake (n d : Nat) (s : State) : State :=
  match (s.chan n).sw d with
  | some w =>
    if s.beatDue w.beat then
      let s := if d = 1 && !w.markDone && !w.late then
          (s.modChan n (fun c => c.setSw d (some { w with late := true }))).report unitTack 0x0505 n n
        else s
      if engineMakes s n d then doSwitch n d s else s
    else s
  | none => s

/-- The switch engine: every due switch is taken and T120 is armed again (R501). -/
def switchEngine (s : State) : State :=
  let ns := (s.chans.map (·.1)).filter (· < 512)
  commitT120 (ns.foldl (fun s n => engineTake n 1 (engineTake n 0 s)) s)

/-- Forced rekey of a held channel (R79): its spare and next slots are discarded (R229); in hardware key mode a new exchange
starts at once. -/
def forcedRekey (n : Nat) (s : State) : State :=
  let s := s.modChan n (fun c => { c with forced := true, br := { c.br with exch := none } })
  let s := s.setF (BR_STAT_EXCH n) 0
  startExchange n (dropNext n (dropSpare n s))

/-- A regression on one channel (R78, R79): its pending switches are cancelled; a cell-mode or layer-1 channel is held and
rekeyed; an outbound switch of a frame-mode channel is scheduled again Λ after the regression boundary. -/
def regressChan (n : Nat) (s : State) : State :=
  let o := (s.chan n).swOut
  let s := cancelSwitch n 1 6 (cancelSwitch n 0 6 s)
  if s.chMode n = 1 ∨ s.chMode n = 2 then forcedRekey n (holdChan n s)
  else match o with
    | some w => beginSwitch n w.epoch (earliestSwitch s n) w.host s
    | none => s

/-- Every channel meets a regression (R78, R79, R80); the engine commits again. -/
def regressAll (s : State) : State := commitT120 (s.liveChans.foldl (fun s n => regressChan n s) s)

/-- A session goes DOWN (R265): pending switches are disarmed, the keys in force stay, DOWN_MUTE mutes the path. -/
def brDown (n cond : Nat) (s : State) : State :=
  if s.getF (BR_STAT_STATE n) = 0 then s
  else
    let s := disarmSwitch n 1 (disarmSwitch n 0 s)
    let s := s.modBr n (fun _ => Session.reset)
    let s := ((s.setF (BR_STAT_STATE n) 0).setF (BR_STAT_EXCH n) 0).setF (BR_STAT_TRIES n) 0
    let s := (s.setF (BR_STAT_HB_MISS n) 0).setF (BR_STAT_LATE_1S n) 0
    let s := dropSpare n { s with brTx := s.brTx.filter (fun m => m.ch ≠ n || decide (0 < m.sent)) }
    let s := if s.isSet (BR_CFG_DOWN_MUTE n) then mutePath n .bridleDown s else s
    brReport 0x0601 881 n cond s

/-- An uncorrectable ECC error in a traffic slot (R224): the slot is treated as empty and every role that names it is
cleared. -/
def keySlotLost (j : Nat) (s : State) : State :=
  let n := j / 4
  let i := j % 4
  let s := freeSlot j (s.report unitTack 0x0502 n j)
  let s := if s.isSet (KB_ROLES_SPARE_V n 0) && decide (s.getF (KB_ROLES_SPARE_SLOT n 0) = i) then setSpare n none s else s
  [0, 1].foldl
    (fun s d =>
      let cur := s.isSet (KB_ROLES_CUR_V n d) && decide (s.getF (KB_ROLES_CUR_SLOT n d) = i)
      let nxt := s.isSet (KB_ROLES_NEXT_V n d) && decide (s.getF (KB_ROLES_NEXT_SLOT n d) = i)
      let prv := s.isSet (KB_ROLES_PREV_V n d) && decide (s.getF (KB_ROLES_PREV_SLOT n d) = i)
      let s := if prv then s.setF (KB_ROLES_PREV_V n d) 0 else s
      let s := if cur then clearCur n d s else s
      let s := if nxt then cancelSwitch n d 1 (s.setF (KB_ROLES_NEXT_V n d) 0) else s
      if cur || nxt then
        startExchange n (chEvt n (CH_EVT_KEY_EMPTY n) (s.report unitTack 0x0501 n j))
      else s) s

/-- A tag failure of a channel's unit: the sixteenth within a second takes the session DOWN (R265). -/
def brTagFail (n : Nat) (s : State) : State :=
  if s.brUp n then
    let s := s.modBr n (fun b => { b with tagFails := (b.tagFails.filter (fun t => s.now < t + ticksPerS)) ++ [s.now] })
    if (s.chan n).br.tagFails.length ≥ 16 then brDown n 6 s else s
  else s

/-- KEY_SLOT_LOAD (R223, R224): a rail or the responder loads traffic slot j; `ecc` when the vault reads it uncorrectable. -/
def execKeySlotLoad (j : Fin 2048) (ecc : Bool) (s : State) : Host.Outcome State Fault Refusal :=
  if ecc then .next (keySlotLost j.val s)
  else if (s.slot j.val).kind = 0 then
    .next (chEvt (j.val / 4) (CH_EVT_KEY_EMPTY (j.val / 4)) (s.report unitTack 0x0501 (j.val / 4) j.val))
  else
    .next { s with tack := { s.tack with cached := j.val :: s.tack.cached.filter (· ≠ j.val) } }

/-- An exchange that found no spare slot begins once one is free (R225): the epoch has begun and has no next key. -/
def exchangeRetry (n : Nat) (s : State) : State :=
  if s.isSet (KB_ROLES_CUR_V n 0) && !s.isSet (KB_ROLES_NEXT_V n 0) && !(s.chan n).awaitSw then startExchange n s else s

/-- PREV_KEY_RELEASE (R226): the previous slot of a direction is released once its grace has ended and no unit uses it. -/
def execPrevKeyRelease (n : Fin 512) (inbound : Bool) (s : State) : Host.Outcome State Fault Refusal :=
  let d := inbound.toNat
  let j := slotOf n.val (s.getF (KB_ROLES_PREV_SLOT n.val d))
  let g := if inbound then (s.chan n.val).graceIn else (s.chan n.val).graceOut
  let past := match g with
    | some b => s.beatDue b
    | none => true
  let tagHeld := inbound && decide (s.getF (KB_GRACE_GRACE_END n.val 1) = 0xFFFFFFFF)
  if s.isSet (KB_ROLES_PREV_V n.val d) && past && !tagHeld && !(s.units.any (fun u => u.slot = j)) then
    .next (exchangeRetry n.val (reapSlots n.val ((s.setF (KB_ROLES_PREV_V n.val d) 0).setF (KB_ROLES_PREV_SLOT n.val d) 0)))
  else .next s

/-- A layer-1 epoch ends at the frame that takes EFN 0 (R197): the switch beat is that frame's, where it comes first. -/
def l1WrapAim (s : State) (n : Nat) (aim : Beat) : Beat :=
  let l := (s.chan n).l1
  if s.chMode n = 2 then
    let a := anchorNow s n
    let w : Beat := ((a.2.1 + BitVec.ofNat 64 ((2 ^ 48 - a.1) * l.period / 65536)) >>> 16).truncate 48
    if beatBefore w aim && beatBefore s.beat w then w else aim
  else aim

/-- SWITCH_AT_SEND (R236, R238): a confirmed next key is announced for B_n + N, or for the first beat Λ ahead where that is
later or a forced rekey runs (R79); a cell-mode epoch ends no later than beat 0 (R170); a switch the host has armed is announced for its own beat. -/
def execSwitchAtSend (n : Fin 512) (s : State) : Host.Outcome State Fault Refusal :=
  let n := n.val
  let c := s.chan n
  match c.swOut with
  | some w => if s.brUp n && !w.sent && !(s.chTwin n && s.isFollower) then .next (sendSwitchAt n s) else .next s
  | none =>
    if s.brUp n && s.hwKeys n && s.isSet (KB_ROLES_NEXT_V n 0) && !(s.chTwin n && s.isFollower)
        && slotShared s n (s.getF (KB_ROLES_NEXT_SLOT n 0)) then
      let first := earliestSwitch s n
      let aim := beatAdd c.beginOut (s.epochBeats n)
      let aim := if s.chMode n = 1 && decide (aim.toNat < s.beat.toNat) && decide (s.beat.toNat < 2 ^ 48 - s.lead n) then 0 else aim
      let aim := l1WrapAim s n aim
      let b := if c.forced || !s.isSet (KB_ROLES_CUR_V n 0) || beatBefore aim first then first else aim
      .next (beginSwitch n (s.slot (slotOf n (s.getF (KB_ROLES_NEXT_SLOT n 0)))).epoch b false s)
    else .next s

/-- CANCEL_POINT (R239, R261): at the cancel point without a valid SWITCH_ACK, or without a persisted mark, the switch is
cancelled, and a new SWITCH_AT for the same epoch names the first beat Λ ahead. -/
def execCancelPoint (n : Fin 512) (s : State) : Host.Outcome State Fault Refusal :=
  let n := n.val
  match (s.chan n).swOut with
  | none => .next s
  | some w =>
    let point := beatSub w.beat (s.cancelLead n)
    if s.beatDue point && !s.beatDue w.beat && !(s.chTwin n && s.isFollower) then
      if !w.markDone then
        let s := cancelSwitch n 0 7 (s.report unitTack 0x0505 n n)
        .next (beginSwitch n w.epoch (earliestSwitch s n) w.host s)
      else if w.sent && !w.acked then
        .next (beginSwitch n w.epoch (earliestSwitch s n) w.host (cancelSwitch n 0 5 s))
      else .next s
    else .next s

end Sys2Proof.Machine
end

