-- ==== Sys2Proof/Machine/Merge.lean ====
section
/-!
DEFINITION. The plain side of an inbound unit: release to the plain-side port (R155, R160, R332), and the merge engine of
Twin-mode channels (spec/11 R282 to R286, R291).
-/

namespace Sys2Proof.Machine

/-- Is this type field a VLAN tag's? (R120) -/
def isVlan (t : Nat) : Bool := decide (t = 0x8100) || decide (t = 0x88A8)

/-- Octets before the first type field that is no VLAN tag. -/
def vlanEnd (f : List Byte) : Nat → Nat → Nat
  | 0, o => o
  | k + 1, o => if isVlan (be f o 2) then vlanEnd f k (o + 4) else o

/-- A frame with the R-TAG of R160. -/
def addRtag (seq : Nat) (f : List Byte) : List Byte :=
  let o := vlanEnd f f.length 12
  f.take o ++ [0xF1, 0xC1, 0, 0] ++ beBytes 2 seq ++ f.drop o

/-- A frame padded to 64 octets with its FCS (R155). -/
def padFrame (f : List Byte) : List Byte := f ++ zeros (60 - f.length)

/-- FORWARD is in use on the anchor for released units (R332). -/
def fwdOut (s : State) (n : Nat) : Bool :=
  s.isSet (FAB_FWD_FWD_EN n) && s.isSet (FAB_FWD_ROLE n) && s.isSet (FAB_FWD_FWD_OUT n)

/-- Body of a FORWARD message (R330). -/
def fwdBody (ch port bank : Nat) (f : List Byte) : List Byte :=
  beBytes 2 ch ++ [BitVec.ofNat 8 port, BitVec.ofNat 8 bank, 0, 0] ++ beBytes 2 f.length ++ f

/-- A frame leaves for the plain side: by the egress port, or to the relay (R332). A stomped frame carries its FCS inverted
(R28, R156). -/
def plainOut (n : Nat) (f : List Byte) (stomp : Bool) (s : State) : State :=
  let f := padFrame f
  let f := if s.isSet (CH_CFG_RTAG n) then addRtag ((s.chan n).rtagCount + 1) f else f
  let b := f ++ (if stomp then badFcsOf f else fcsOf f)
  if fwdOut s n then
    fabSend (s.getF (FAB_FWD_PEER_DEV n)) 8 0 0 0
      (fwdBody (s.getF (FAB_FWD_PEER_CH n)) (s.getF (FAB_FWD_REMOTE_PORT n)) 0 b) s
  else s.emit (.frame (s.getF (CH_CFG_EGRESS_PORT n)) b)

/-- A good frame is released (R139, R160): counted, and the count of the R-TAG rises. -/
def releaseFrame (n : Nat) (f : List Byte) (s : State) : State :=
  let k := (padFrame f).length + 4
  let s := plainOut n f false s
  let s := s.modChan n (fun c => { c with rtagCount := (c.rtagCount + 1) % 65536 })
  inStat n 3 k (inStat n 2 1 s)

/-- The checks of R133 up to the egress port: none where they pass, else the code counted. -/
def inboundRefusal (s : State) (n : Nat) : Option Nat :=
  if !(s.chOpen n && s.isSet (CH_CFG_IN_EN n)) then some 0x18
  else if !fwdOut s n && decide (s.getF (PORT_STAT_STATE (s.getF (CH_CFG_EGRESS_PORT n))) ≠ 3) then some 0x19
  else none

/-- A report with 32 bytes of data (R505). -/
def State.report32 (s : State) (unit code path a b : Nat) : State :=
  s.addReport unit
    { stamp := s.stamp, origin := s.origin unit, code := code, path := path, data := BitVec.ofNat 128 a,
      cont := some (BitVec.ofNat 128 b), inj := false, merged := 0 }

/-! ### The merge engine -/

/-- LOST flag of a path (R282). -/
def pathLostBit (n p : Nat) : Fld := if p = 2 then TWC_STAT_P2_LOST n else TWC_STAT_P1_LOST n

/-- Path p is LOST for the channel. -/
def pathLost (s : State) (n p : Nat) : Bool := s.isSet (pathLostBit n p)

/-- The lead path of the far pair: 1 or 2 (R291). -/
def leadPath (s : State) (n : Nat) : Nat := s.getF (TWC_STAT_LEAD_PATH n) + 1

/-- Place (e, a) comes after (f, b) in the order of R282. -/
def placeAfter (e : Nat) (a : DWord) (f : Nat) (b : DWord) : Bool :=
  serialLater e f || (decide (e = f) && decide (b.toNat < a.toNat))

/-- Path p has passed a place (R282). -/
def pathPassed (s : State) (n p e : Nat) (a : DWord) : Bool :=
  match tblGet none p (s.chan n).tw.pathPos with
  | some q => placeAfter q.1 q.2 e a
  | none => false

/-- Every live path has passed a place. -/
def allPassed (s : State) (n e : Nat) (a : DWord) : Bool :=
  [1, 2].all (fun p => pathLost s n p || pathPassed s n p e a)

/-- The Twin and merge record of a channel changed. -/
def State.modTw (s : State) (n : Nat) (f : TwinCh → TwinCh) : State := s.modChan n (fun c => { c with tw := f c.tw })

/-- A unit, a Bridle message or a heartbeat of path p is valid: the path is live (R282). -/
def pathLive (n p : Nat) (s : State) : State :=
  (s.setF (pathLostBit n p) 0).modTw n (fun t => if p = 2 then { t with quiet2 := 0 } else { t with quiet1 := 0 })

/-- Path p has delivered up to a place. -/
def pathReach (n p e : Nat) (a : DWord) (s : State) : State :=
  s.modTw n (fun t =>
    let later := match tblGet none p t.pathPos with
      | none => true
      | some q => placeAfter e a q.1 q.2
    if later then { t with pathPos := tblSet none p (some (e, a)) t.pathPos } else t)

/-- Place of the next unit to release (R294). -/
def relEpoch (s : State) (n : Nat) : Nat := (s.rd (TWC_REL_EPOCH n)).toNat
def relAsn (s : State) (n : Nat) : DWord := s.rd64 (TWC_REL_ASN_LO n)

/-- The next place to release is set. -/
def setRel (n e : Nat) (a : DWord) (s : State) : State := (s.wr (TWC_REL_EPOCH n) (BitVec.ofNat 32 e)).wr64 (TWC_REL_ASN_LO n) a

/-- Bytes the merge holds, for MERGE_STAT. -/
def heldBytes (s : State) : Nat :=
  s.chans.foldl (fun a e => e.2.tw.held.foldl (fun a u => a + u.frame.length) a) 0

/-- MERGE_STAT follows. -/
def heldRefresh (s : State) : State := s.setF MERGE_STAT_HELD_KIB ((heldBytes s + 1023) / 1024)

/-- Held units in order. -/
def heldInsert (u : HeldUnit) : List HeldUnit → List HeldUnit
  | [] => [u]
  | v :: r => if placeAfter u.epoch u.asn v.epoch v.asn then v :: heldInsert u r else u :: v :: r

/-- May a held unit be released from its path? One of the lead path always; one of the other path in cell mode only where the
lead path has passed it or is LOST (R284), and while that path is distrusted only where the lead path is LOST (R291). -/
def mayRelease (s : State) (n : Nat) (u : HeldUnit) : Bool :=
  u.lead || pathLost s n (3 - u.path)
    || (!s.isSet (TWC_STAT_DISTRUST n) && (s.chMode n ≠ 1 || pathPassed s n (3 - u.path) u.epoch u.asn))

/-- Places lost (R286): counted against the channel and recorded. -/
def mergeLost (n k : Nat) (s : State) : State :=
  if k = 0 then s
  else bellPulse 905 ((s.cnt64 (CH_REFUSE n 28) k).report unitMerge 0x070B n k)

/-- Places between the next to release and a later one. -/
def placesTo (s : State) (n e : Nat) (a : DWord) : Nat := if e = relEpoch s n then (a - relAsn s n).toNat else 0

/-- A unit leaves the merge. -/
def mergeOut (n : Nat) (u : HeldUnit) (rel : Nat → HeldUnit → State → State) (s : State) : State :=
  let s := s.modTw n (fun t => { t with released := some (u.epoch, u.asn, u.tag) })
  let s := setRel n u.epoch (u.asn + 1) (twCnt n (if u.path = 2 then 5 else 4) s)
  rel n u s

/-- What can be released is released; places every live path has passed are lost (R283, R284, R286). -/
def mergeRun (rel : Nat → HeldUnit → State → State) (n : Nat) : Nat → State → State
  | 0, s => s
  | k + 1, s =>
    match (s.chan n).tw.held with
    | [] => s
    | u :: r =>
      if u.epoch = relEpoch s n ∧ u.asn = relAsn s n then
        if mayRelease s n u then mergeRun rel n k (mergeOut n u rel (s.modTw n (fun t => { t with held := r }))) else s
      else if allPassed s n (relEpoch s n) (relAsn s n) then
        let m := [1, 2].foldl
          (fun (b : Nat × DWord) p => match tblGet none p (s.chan n).tw.pathPos with
            | some q => if !pathLost s n p && placeAfter b.1 b.2 q.1 q.2 then q else b
            | none => b) (u.epoch, u.asn)
        mergeRun rel n k (setRel n m.1 (if m.1 = relEpoch s n then m.2 else 0) (mergeLost n (placesTo s n m.1 m.2) s))
      else s

/-- The merge runs until nothing more can be done. -/
def mergeGo (rel : Nat → HeldUnit → State → State) (n : Nat) (s : State) : State :=
  heldRefresh (mergeRun rel n (3 * (s.chan n).tw.held.length + 4) s)

/-- The oldest gap is declared lost at once (R286). -/
def mergeForce (rel : Nat → HeldUnit → State → State) (n : Nat) (s : State) : State :=
  match (s.chan n).tw.held with
  | [] => s
  | u :: _ => mergeGo rel n (setRel n u.epoch u.asn (mergeLost n (placesTo s n u.epoch u.asn) s))

/-- The far end meets a divergence (R288, R291): two copies of one unit passed under different tags. -/
def rxDiverge (n : Nat) (a b : BitVec 128) (s : State) : State :=
  bellPulse 906 ((twCnt n 2 (s.setF (TWC_STAT_DISTRUST n) 1)).report32 unitMerge 0x070C n a.toNat b.toNat)

/-- A second copy of a unit (R283, R291). -/
def mergeDup (n : Nat) (a b : BitVec 128) (s : State) : State :=
  let s := inStat n 4 1 s
  if a = b then s else rxDiverge n a b s

/-- The hold area in bytes (R286). -/
def holdArea (s : State) : Nat :=
  (if s.getF MERGE_CFG_HOLD_BYTES = 0 then 40 else s.getF MERGE_CFG_HOLD_BYTES) * 268435456

/-- The merge engine takes a unit that has passed its checks (R282 to R286). -/
def mergeTake (rel : Nat → HeldUnit → State → State) (n : Nat) (u : HeldUnit) (s : State) : State :=
  let s := pathReach n u.path u.epoch u.asn (pathLive n u.path s)
  let t := (s.chan n).tw
  let s := if t.released.isNone && t.held.isEmpty then setRel n u.epoch u.asn s else s
  if placeAfter (relEpoch s n) (relAsn s n) u.epoch u.asn then
    let old := match t.released with
      | some r => if r.1 = u.epoch ∧ r.2.1 = u.asn then r.2.2 else u.tag
      | none => u.tag
    mergeGo rel n (mergeDup n old u.tag s)
  else
    match t.held.find? (fun v => v.epoch = u.epoch && v.asn = u.asn) with
    | some v =>
      let s := mergeDup n v.tag u.tag s
      let keep := if u.lead && !v.lead then u else v
      mergeGo rel n (s.modTw n (fun t => { t with held := t.held.map (fun w => if w = v then keep else w) }))
    | none =>
      let s := mergeGo rel n (s.modTw n (fun t => { t with held := heldInsert u t.held }))
      if holdArea s < heldBytes s then mergeForce rel n s else s

end Sys2Proof.Machine
end

