-- ==== Sys2Proof/Machine/Bridle.lean ====
section
/-!
DEFINITION. The Bridle (spec/10): transport and receive checks, sessions, the exchange, switch messages, the delay rule,
heartbeats, positions, probes and digests.
-/

namespace Sys2Proof.Machine

/-- Records of R325 form that make the line digest (R360). -/
def lineRecord (field v : Nat) : List Byte :=
  [0xFF, 0xFE, 3, 0, 0, 0] ++ beBytes 2 field ++ [0, 1, BitVec.ofNat 8 v]

/-- Slots per beat of a port type (R164); types as in PORT_CFG. -/
def cellsPerBeat (typ : Nat) : Nat :=
  if typ = 1 then 5 else if typ = 3 then 25 else if typ = 4 ∨ typ = 5 ∨ typ = 6 then 50
  else if typ = 7 ∨ typ = 8 then 100 else if typ = 9 ∨ typ = 10 then 200 else if typ = 11 then 400 else 0

/-- S of a cipher-side port. -/
def State.spb (s : State) (c : Nat) : Nat := cellsPerBeat (s.getF (PORT_CFG_TYPE (32 + c)))

/-- The line digest of a channel (R360). -/
def lineDigest (s : State) (n : Nat) : List Byte :=
  let m := s.chMode n
  let rows := [(0x0102, m), (0x0103, (s.chTwin n).toNat + 2 * (s.isSet (CH_CFG_KEY_HOST n)).toNat),
    (0x0128, (s.chan n).epochLen / 1000 % 256), (0x0101, s.getF POS_CFG_BEAT_CLASS)]
  let rows := rows ++
    (if m = 0 then [(0x0118, s.getF (FRM_POL_LO_SUITE n)), (0x0119, s.getF (FRM_POL_LO_CO n)),
        (0x011A, s.getF (FRM_POL_LO_CLEAR_TAGS n)), (0x011B, s.getF (FRM_POL_LO_SC n))]
     else if m = 1 then [(0x011C, s.spb (s.getF (CH_CFG_CIPHER_PORT n)))]
     else [(0x011D, s.getF (CH_TRIB_CIPHER_TRIB n) / 4096), (0x011E, s.getF (L1_POL_LO_OH_SEL n))])
  (sha (rows.flatMap (fun r => lineRecord r.1 r.2))).take 16

/-! ### Transport (R251, R252) -/

/-- A whole message has been reassembled: step 1 of R251 lets it wait for its checks. -/
def brArrive (n path : Nat) (m : List Byte) (s : State) : State :=
  let ok := decide (48 ≤ m.length) && decide (at' m 0 = 1) && decide (brLen (at' m 1) = some (be m 2 2))
    && decide (m.length = be m 2 2 + 48)
  if ok then { s with brIn := s.brIn ++ [{ ch := n, path := path, bytes := m }] } else brCnt n 3 s

/-- A segment arrives (R252): each lane of each channel is reassembled by itself; a first segment discards what was partial. -/
def brSegment (path : Nat) (seg : List Byte) (s : State) : State :=
  let n := be seg 2 2
  let len := be seg 4 2
  let fl := at' seg 1
  if at' seg 0 ≠ 0xB5 ∨ 512 ≤ n then s
  else
    let data := slice seg 6 len
    let lane1 := decide (fl / 32 % 2 = 1)
    let first := decide (fl / 128 % 2 = 1)
    let last := decide (fl / 64 % 2 = 1)
    let b := (s.chan n).br
    let old := if lane1 then b.part1 else b.part0
    let s := if first && old.isSome then brCnt n 3 s else s
    let put := fun (v : Option (List Byte)) (s : State) =>
      s.modBr n (fun b => if lane1 then { b with part1 := v } else { b with part0 := v })
    let m := if first then some data else old.map (· ++ data)
    match m with
    | none => s
    | some m => if last then brArrive n path m (put none s) else put (some m) s

/-- The next segment of what waits, at most `segmax` data bytes (R252, R253): lane 0 first; in lane 1 an interrupted message
goes on before another begins. `pick` says whose messages this carrier takes. -/
def brNextSegment (segmax : Nat) (pick : BrOut → Bool) (s : State) : Option (List Byte × State) :=
  let q := s.brTx
  let i := match q.findIdx? (fun m => pick m && decide (m.lane = 0)) with
    | some i => some i
    | none => match q.findIdx? (fun m => pick m && decide (0 < m.sent)) with
      | some i => some i
      | none => q.findIdx? pick
  match i with
  | none => none
  | some i =>
    match q[i]? with
    | none => none
    | some m =>
      let data := (m.bytes.drop m.sent).take (if m.lane = 0 then m.bytes.length else segmax)
      let last := decide (m.sent + data.length = m.bytes.length)
      let fl := (decide (m.sent = 0)).toNat * 128 + last.toNat * 64 + m.lane * 32
      let seg := [0xB5, BitVec.ofNat 8 fl] ++ slice m.bytes 6 2 ++ beBytes 2 data.length ++ data
      some (seg, { s with
        brTx := if last then q.eraseIdx i else q.set i { m with sent := m.sent + data.length } })

/-- Steps 2 to 6 of R251 on the message at the head of the queue, if it is of this type: what follows where it passes. -/
def brTake (typ : Nat) (s : State) (k : BrIn → State → State) : State :=
  match s.brIn with
  | [] => s
  | m :: rest =>
    if at' m.bytes 1 ≠ typ then s
    else
      let s : State := { s with brIn := rest }
      let n := m.ch
      let body := m.bytes.take (m.bytes.length - 16)
      let stream := at' m.bytes 8 / 32 % 4
      let key := stream + 4 * m.path
      let own := s.sidTx n
      let newHello := typ = brHello && decide (be m.bytes 16 8 ≠ s.sidRx n)
      if !s.brRuns n || decide (s.getF (BR_CFG_PEER_CH n) ≠ be m.bytes 4 2) || decide (be m.bytes 6 2 ≠ n) then brCnt n 3 s
      else if decide (at' m.bytes 8 / 128 = 1) == s.roleB n then brReport 0x0604 884 n 0 s
      else if brTag s n body ≠ m.bytes.drop (m.bytes.length - 16) then brReport 0x0603 884 n 0 (brCnt n 2 s)
      else if be m.bytes 24 8 ≠ own && !(typ = brHello && decide (be m.bytes 24 8 = 0)) then brCnt n 3 s
      else if !newHello && decide (be m.bytes 12 4 ≤ tblGet 0 key (s.chan n).br.rxSeq) then brCnt n 3 s
      else
        let seq := be m.bytes 12 4
        let s := s.modBr n (fun b => { b with rxSeq := tblSet 0 key seq b.rxSeq })
        let s := if (s.rd (BR_RX_SEQ n (stream % 3))).toNat < seq then s.wr (BR_RX_SEQ n (stream % 3)) (BitVec.ofNat 32 seq) else s
        let s := if s.chTwin n then pathLive n m.path s else s
        k m (brCnt n 1 s)

/-- A body field of a message. -/
def mBe (m : BrIn) (o n : Nat) : Nat := be m.bytes (32 + o) n

/-! ### Sessions (R248, R249, R255) -/

/-- This end can compose its HELLO: it has an identity and a pairing, and is not a Twin follower, whose lead composes. -/
def canHello (s : State) (n : Nat) : Bool :=
  s.isSet TR_STAT_ID_VALID && (s.pairing n).isSome && !(s.chTwin n && s.isFollower)

/-- HELLO is sent (R248, R254, R255). -/
def sendHello (n : Nat) (s : State) : State :=
  if canHello s n then
    let flags := (s.isSet (CH_CFG_KEY_HOST n)).toNat + 2 * (s.chTwin n).toNat
    let b := [0x01, 0x00, BitVec.ofNat 8 (s.chMode n), BitVec.ofNat 8 flags] ++ beBytes 4 (s.getF (KB_EPOCH_EPOCH n 0))
      ++ beBytes 4 (s.getF (KB_EPOCH_EPOCH n 1)) ++ lineDigest s n ++ s.tack.idPub
    let h := (brBody s n brHello 0 ((s.rd (BR_TX_SEQ n 0)).toNat + 1) (b ++ zeros 4627)).take 32
    brSend n brHello 0 1 false (b ++ bytesOf 4627 (Config.mldsaSign s.tack.idSeed (h ++ b))) s
  else s

/-- Entry to SETUP (R248, R249): a new session identifier is drawn, the streams start again, HELLO is sent at once. -/
def enterSetup (n : Nat) (s : State) : State :=
  let p := s.draw
  let s := p.2.wr64 (BR_SID_TX_LO n) (BitVec.ofNat 64 p.1)
  let s := (s.wr64 (BR_SID_RX_LO n) 0).setF (BR_STAT_STATE n) 1
  let s := [0, 1, 2].foldl (fun s i => (s.wr (BR_TX_SEQ n i) 0).wr (BR_RX_SEQ n i) 0) s
  let s := s.modBr n (fun _ => Session.reset)
  let s := (s.setF (BR_STAT_EXCH n) 0).setF (BR_STAT_TRIES n) 0
  sendHello n (s.setF (BR_STAT_ROLE n) (s.roleB n).toNat)

/-- BRIDLE_SESSION_SETUP (R248): a session that is DOWN enters SETUP while its channel is OPEN with `EN` = 1; a channel whose
pairing slot is empty has no key to speak under and stays DOWN. -/
def execBridleSessionSetup (n : Fin 512) (s : State) : Host.Outcome State Fault Refusal :=
  if s.brRuns n.val && decide (s.getF (BR_STAT_STATE n.val) = 0) && (s.pairing n.val).isSome && !s.noRandom
  then .next (enterSetup n.val s) else .next s

/-- HELLO_RESEND (R248): again every 16 heartbeat intervals until SETUP ends. -/
def execHelloResend (n : Fin 512) (s : State) : Host.Outcome State Fault Refusal :=
  if s.getF (BR_STAT_STATE n.val) = 1 then .next (sendHello n.val s) else .next s

/-- BRIDLE_SID_ROLLOVER (R249): before a stream's SEQ would pass 2^32 − 1 the session returns to SETUP; keys stay. -/
def execBridleSidRollover (n : Fin 512) (s : State) : Host.Outcome State Fault Refusal :=
  if s.brUp n.val && [0, 1, 2].any (fun i => decide (s.rd (BR_TX_SEQ n.val i) = 0xFFFFFFFF))
  then .next (enterSetup n.val s) else .next s

/-- The session enters UP (R248): Bell 882; `DOWN_MUTE` ends; POSITION is sent (R267); where no exchange has confirmed the
next key, the first exchange of the session starts. -/
def enterUp (n : Nat) (s : State) : State :=
  let was := s.getF (BR_STAT_STATE n)
  let s := s.setF (BR_STAT_STATE n) 2
  if was ≥ 2 then s
  else
    let s := bellPulse 882 (unmutePath n .bridleDown s)
    startExchange n s

/-- BRIDLE_HELLO_RX (R255, R248): key hash, signature and line digest are checked in this order. -/
def execBridleHelloRx (s : State) : Host.Outcome State Fault Refusal :=
  .next (brTake brHello s (fun m s =>
    let n := m.ch
    let pub := slice m.bytes 60 2592
    let sig := slice m.bytes (32 + 2620) 4627
    let hash := ((s.pairing n).map (·.hash)).getD []
    if sha pub ≠ hash || !Config.mldsaVerify pub (m.bytes.take (32 + 2620)) sig then brReport 0x0603 884 n 0 s
    else if slice m.bytes (32 + 12) 16 ≠ lineDigest s n then brReport 0x0607 887 n 0 s
    else
      let sid := be m.bytes 16 8
      let new := decide (sid ≠ s.sidRx n)
      let up := s.brUp n
      let s := if up && new then enterSetup n s else s
      let s := s.wr64 (BR_SID_RX_LO n) (BitVec.ofNat 64 sid)
      let key := at' m.bytes 8 / 32 % 4 + 4 * m.path
      let s := if new then s.modBr n (fun b => { b with rxSeq := tblSet 0 key (be m.bytes 12 4) [] }) else s
      let s := if new || up then sendHello n s else s
      if be m.bytes 24 8 = s.sidTx n && decide (be m.bytes 24 8 ≠ 0) then
        enterUp n (s.modBr n (fun b => { b with verified := true }))
      else s))

/-! ### The delay rule (R263 to R265) -/

/-- A late answer on an answer stream (R264): counted and recorded; the third within a second takes the session DOWN, or in a
Twin pair mutes the path the stream measures while the other stream holds (R265, R281). -/
def lateAnswer (n stream : Nat) (s : State) : State :=
  let keep := fun (l : List Nat) => (l.filter (fun t => s.now < t + ticksPerS)) ++ [s.now]
  let s := s.modBr n (fun b => if stream = 2 then { b with late2 := keep b.late2 } else { b with late1 := keep b.late1 })
  let b := (s.chan n).br
  let k := if stream = 2 then b.late2.length else b.late1.length
  let o := if stream = 2 then b.late1.length else b.late2.length
  let s := brReport 0x0602 883 n 0 (brCnt n 4 (s.setF (BR_STAT_LATE_1S n) (min 3 (max k o))))
  if k ≥ 3 then
    if s.chTwin n && decide (o < 3) then
      if decide (stream = 2) == s.isSet TW_CFG_MY_PATH then mutePath n .bridleDown s else s
    else brDown n 1 s
  else if s.getF (BR_STAT_STATE n) = 2 then s.setF (BR_STAT_STATE n) 3 else s

/-- An answer's times (R264): R is measured here, T is the peer's; `bound` is the answer's bound in ticks. -/
def judgeAnswer (n stream r t bound : Nat) (s : State) : State :=
  let x := r - t
  let b := (s.chan n).br
  let old := (s.rd (BR_RTT0 n)).toNat
  let rtt0 := if b.rttCount = 0 then x else if b.rttCount < 16 then min old x else old
  let s := s.modBr n (fun b => { b with rttCount := min 16 (b.rttCount + 1) })
  let s := (s.wr (BR_RTT0 n) (BitVec.ofNat 32 rtt0)).wr (BR_RTT_LAST n) (BitVec.ofNat 32 x)
  let period := tribPeriod (s.tribKind n) (s.getF (CH_TRIB_PLAIN_TRIB_index n))
  let j := if s.chMode n = 2 then 9 * period * 3 / 40 else 0
  let w := if s.chMode n = 2 then 133 * period * 3 / 40 else 0
  if bound + w < t || decide (rtt0 + s.getF (BR_TIMING_DELAY_TOL n) + j < x) then lateAnswer n stream s else s

/-- BRIDLE_PROBE_RX (R263, R281): the responder answers with ECHO; `turn` is T in ticks. A Twin answers only the copy on its
own path. -/
def execBridleProbeRx (turn : Nat) (s : State) : Host.Outcome State Fault Refusal :=
  .next (brTake brProbe s (fun m s =>
    let n := m.ch
    if !s.brUp n || (s.chTwin n && decide (m.path ≠ s.answerStream n)) then s
    else
      let s := s.wr (BR_TURN_LAST n) (BitVec.ofNat 32 turn)
      brAnswer n brEcho (slice m.bytes 32 4 ++ beBytes 4 turn ++ beBytes 8 s.stamp.toNat) s))

/-- BRIDLE_ECHO_RX (R264): the answer to a PROBE; `r` is R in ticks, from the PROBE's departure to this arrival. -/
def execBridleEchoRx (r : Nat) (s : State) : Host.Outcome State Fault Refusal :=
  .next (brTake brEcho s (fun m s =>
    let n := m.ch
    let p := mBe m 0 4
    if s.brUp n && (s.chan n).br.probesOut.contains p then
      let s := s.modBr n (fun b => { b with probesOut := b.probesOut.filter (· ≠ p) })
      judgeAnswer n (at' m.bytes 8 / 32 % 4) r (mBe m 4 4) 3000 s
    else s))

/-- BRIDLE_ANSWER_TIMEOUT (R264): an answer has not come within 1 s of its PROBE or SWITCH_AT. -/
def execBridleAnswerTimeout (n : Fin 512) (s : State) : Host.Outcome State Fault Refusal :=
  match (s.chan n.val).br.probesOut with
  | [] => .next s
  | _ :: r =>
    let s := s.modBr n.val (fun b => { b with probesOut := r })
    if s.brUp n.val then .next (lateAnswer n.val (s.answerStream n.val) s) else .next s

/-- BRIDLE_SUSPECT_CLEAR (R248): a second without a late answer returns SUSPECT to UP. -/
def execBridleSuspectClear (n : Fin 512) (s : State) : Host.Outcome State Fault Refusal :=
  if s.getF (BR_STAT_STATE n.val) = 3 then
    let s := s.modBr n.val (fun b => { b with late1 := [], late2 := [] })
    .next ((s.setF (BR_STAT_STATE n.val) 2).setF (BR_STAT_LATE_1S n.val) 0)
  else .next s

/-! ### Heartbeats, positions, probes and digests (R265 to R267) -/

/-- BRIDLE_HEARTBEAT_RX (R265): a valid HEARTBEAT ends a run of missing ones; the merge takes its epoch (R282). -/
def execBridleHeartbeatRx (s : State) : Host.Outcome State Fault Refusal :=
  .next (brTake brHeartbeat s (fun m s =>
    let n := m.ch
    if s.brUp n then
      let e := mBe m 8 4
      let s := s.modBr n (fun b => { b with hbSeen := true })
      let s := if s.chTwin n then pathReach n m.path e 0 (pathLive n m.path s) else s
      s.setF (BR_STAT_HB_MISS n) 0
    else s))

/-- BRIDLE_HB_LOSS (R265): a heartbeat interval has ended without a valid HEARTBEAT; the third in a row takes the session
DOWN. -/
def execBridleHbLoss (n : Fin 512) (s : State) : Host.Outcome State Fault Refusal :=
  if s.brUp n.val then
    if (s.chan n.val).br.hbSeen then .next (s.modBr n.val (fun b => { b with hbSeen := false }))
    else
      let k := s.getF (BR_STAT_HB_MISS n.val) + 1
      if k ≥ 3 then .next (brDown n.val 2 s) else .next (s.setF (BR_STAT_HB_MISS n.val) k)
  else .next s

/-- BRIDLE_HEARTBEAT_SEND (R266): every heartbeat interval. -/
def execBridleHeartbeatSend (n : Fin 512) (s : State) : Host.Outcome State Fault Refusal :=
  let n := n.val
  if s.brUp n then
    let body := beatBytes s.beat ++ [BitVec.ofNat 8 (s.getF POS_STAT_STATE), BitVec.ofNat 8 (s.getF (BR_STAT_EXCH n))]
      ++ beBytes 4 (s.getF (KB_EPOCH_EPOCH n 0)) ++ beBytes 4 (s.getF (KB_EPOCH_EPOCH n 1))
    let s := s.modBr n (fun b => { b with hbCount := b.hbCount + 1, posCount := b.posCount + 1 })
    .next (brSend n brHeartbeat 0 1 false body s)
  else .next s

/-- BRIDLE_PROBE_SEND (R266): every `PROBE_INT` heartbeat intervals; 0 sends none. -/
def execBridleProbeSend (n : Fin 512) (s : State) : Host.Outcome State Fault Refusal :=
  let n := n.val
  let b := (s.chan n).br
  if s.brUp n && decide (s.getF (BR_CFG_PROBE_INT n) ≠ 0) && decide (s.getF (BR_CFG_PROBE_INT n) ≤ b.hbCount) then
    let p := (b.probeNo + 1) % 2 ^ 32
    let s := s.modBr n (fun b => { b with hbCount := 0, probeNo := p, probesOut := b.probesOut ++ [p] })
    .next (brSend n brProbe 0 1 false (beBytes 4 p ++ zeros 4) s)
  else .next s

/-- The unit a POSITION names (R267, R254): in layer-1 mode the first frame of the present multiframe or superframe with its
stamp and period; in cell mode the present beat's first slot. -/
def positionBody (s : State) (n : Nat) : List Byte :=
  let st := [BitVec.ofNat 8 (s.getF POS_STAT_STATE), BitVec.ofNat 8 s.pos.cur.cls]
  if s.chMode n = 2 then
    let l := (s.chan n).l1
    let efn := (s.rd64 (CH_MODE_W0_LO n)).toNat % 2 ^ 48
    let k := efn % (if s.isSdh n then 64 else 256)
    beBytes 6 (efn - k) ++ zeros 2 ++ beBytes 8 (l.outStamp - BitVec.ofNat 64 (k * l.period / 65536)).toNat
      ++ beBytes 6 l.period ++ st ++ []
  else
    beBytes 6 (s.beat.toNat * s.spb (s.getF (CH_CFG_CIPHER_PORT n))) ++ zeros 2 ++ beBytes 8 (s.beat.toNat * 65536)
      ++ zeros 6 ++ st

/-- BRIDLE_POSITION_SEND (R267): at session setup, then at least every 16 heartbeat intervals, in layer-1 and cell modes. -/
def execBridlePositionSend (n : Fin 512) (s : State) : Host.Outcome State Fault Refusal :=
  let n := n.val
  if s.brUp n && decide (s.chMode n = 1 ∨ s.chMode n = 2) then
    let s := s.modBr n (fun b => { b with posCount := 0 })
    .next (brSend n brPosition 0 1 false (positionBody s n) s)
  else .next s

/-- BRIDLE_POSITION_RX (R73, R75): the sender's Yardstamp at a named unit; a layer-1 channel recovers its position from it
(R76). -/
def execBridlePositionRx (s : State) : Host.Outcome State Fault Refusal :=
  .next (brTake brPosition s (fun m s =>
    let n := m.ch
    if s.brUp n then
      let s := s.modBr n (fun b => { b with peerPos := some (mBe m 0 6, BitVec.ofNat 64 (mBe m 8 8), mBe m 16 6) })
      if s.chMode n = 2 then
        let s := if (s.chan n).l1.posOk then s else s.wr64 (CH_IN_POS_LO n) (BitVec.ofNat 64 (mBe m 0 6))
        s.modChan n (fun c => { c with l1 := { c.l1 with posOk := true } })
      else s
    else s))

/-- BRIDLE_DIGEST_SEND (R267): after each switch this end makes and every 65,536 beats. -/
def execBridleDigestSend (n : Fin 512) (s : State) : Host.Outcome State Fault Refusal :=
  let n := n.val
  if s.brUp n && !(s.chTwin n && s.isFollower) then
    let k := fun d => if s.isSet (KB_ROLES_CUR_V n d) then kcvOf s n d (slotOf n (s.getF (KB_ROLES_CUR_SLOT n d))) else zeros 8
    let s := s.modBr n (fun b => { b with digestDue := false })
    .next (brSend n brDigest 0 1 false (k 0 ++ k 1 ++ lineDigest s n) s)
  else .next s

/-- The key check values a DIGEST may truthfully name for a direction: those of the current, the next and the previous key
(R267). -/
def kcvKnown (s : State) (n d : Nat) (v : List Byte) : Bool :=
  (s.isSet (KB_ROLES_CUR_V n d) && decide (kcvOf s n d (slotOf n (s.getF (KB_ROLES_CUR_SLOT n d))) = v))
    || (s.isSet (KB_ROLES_NEXT_V n d) && decide (kcvOf s n d (slotOf n (s.getF (KB_ROLES_NEXT_SLOT n d))) = v))
    || (s.isSet (KB_ROLES_PREV_V n d) && decide (kcvOf s n d (slotOf n (s.getF (KB_ROLES_PREV_SLOT n d))) = v))
    || (!s.isSet (KB_ROLES_CUR_V n d) && decide (v = zeros 8))

/-- BRIDLE_DIGEST_RX (R267, R360): a mismatch is recorded. -/
def execBridleDigestRx (s : State) : Host.Outcome State Fault Refusal :=
  .next (brTake brDigest s (fun m s =>
    let n := m.ch
    if s.brUp n && !(kcvKnown s n 1 (slice m.bytes 32 8) && kcvKnown s n 0 (slice m.bytes 40 8)
        && decide (slice m.bytes 48 16 = lineDigest s n))
    then brReport 0x0607 887 n 0 s else s))

/-- BRIDLE_ALARM_RX (R254, R291): recorded; TWIN_PROMOTED moves the lead path, TWIN_REJOINED ends a distrust. -/
def execBridleAlarmRx (s : State) : Host.Outcome State Fault Refusal :=
  .next (brTake brAlarm s (fun m s =>
    let n := m.ch
    if s.brUp n then
      let code := mBe m 0 2
      let lead := s.getF (TWC_STAT_LEAD_PATH n)
      let s := if s.chTwin n && decide (code = 0x0704) then s.setF (TWC_STAT_LEAD_PATH n) (m.path - 1) else s
      let s := if s.chTwin n && decide (code = 0x070E) && decide (m.path - 1 ≠ lead) then s.setF (TWC_STAT_DISTRUST n) 0 else s
      brReport 0x0609 888 n code s
    else s))

/-! ### The exchange (R256 to R258) -/

/-- TH_n: SHA-384 over the two messages without their tags (R256). -/
def transcript (offer accept : List Byte) : List Byte :=
  sha (offer.take (offer.length - 16) ++ accept.take (accept.length - 16))

/-- KEM_OFFER_SEND (R256, R258): the initiator draws key pairs and offers; each sending is an attempt. -/
def execKemOfferSend (n : Fin 512) (s : State) : Host.Outcome State Fault Refusal :=
  let n := n.val
  match (s.chan n).br.exch with
  | none => .next s
  | some x =>
    if x.initiator && x.offer.isEmpty && s.brUp n && !s.noRandom then
      let p := s.draw
      let s := p.2
      let body := beBytes 4 x.epoch ++ bytesOf 32 (Config.x25519Pub p.1) ++ bytesOf 1568 (Config.mlkemPub p.1)
      let msg := brBody s n brKemOffer 0 ((s.rd (BR_TX_SEQ n 0)).toNat + 1) body
      let s := s.modBr n (fun b => { b with exch := some { x with seed := p.1, offer := msg ++ zeros 16, tries := x.tries + 1 } })
      .next (brSend n brKemOffer 0 1 false body (s.setF (BR_STAT_TRIES n) (min 7 (x.tries + 1))))
    else .next s

/-- KEY_CONFIRM of this end (R254, R256): HMAC under CK_n over the role letter and TH_n. -/
def confirmBody (s : State) (n epoch : Nat) (roleB : Bool) (th : List Byte) : List Byte :=
  beBytes 4 epoch
    ++ beBytes 48 (Config.hmac384 (tblGet [] n s.tack.ck) ((if roleB then [0x42] else [0x41]) ++ th)).toNat

/-- The secrets of an exchange are deposited for the channel (R217, R256): S_n fills the spare slot, CK_n stays beside it, and
this end confirms. -/
def depositExchange (n : Nat) (x : Exch) (ss : List Byte) (s : State) : State :=
  let th := transcript x.offer x.accept
  let i := slotOf n (s.getF (KB_ROLES_SPARE_SLOT n 0))
  let sec := exchSecret s n x.epoch th ss
  let ck := exchConfirmKey s n x.epoch th ss
  let s := s.setSlot i
    { kind := 1, bytes := sec ++ zeros 14, epoch := x.epoch, an := x.epoch % 4, keyId := [], persist := false, bad := false }
  let s : State := slotsRefresh { s with tack := { s.tack with ck := tblSet [] n ck s.tack.ck } }
  let s := s.modBr n (fun b => { b with exch := some { x with ss := ss, sent := true } })
  brSend n brKeyConfirm 0 1 false (confirmBody s n x.epoch (s.roleB n) th) s

/-- BRIDLE_KEM_OFFER_RX (R256, R257): the other end encapsulates, answers, deposits and confirms. An offer of another epoch,
one for a channel in host-assisted key mode and one it cannot store are discarded. -/
def execBridleKemOfferRx (s : State) : Host.Outcome State Fault Refusal :=
  .next (brTake brKemOffer s (fun m s =>
    let n := m.ch
    let e := mBe m 0 4
    if !s.brUp n || (s.chTwin n && s.isFollower) then s
    else if !s.hwKeys n || decide (e ≠ nextEpoch s n) || nextLocked s n || s.noRandom || !engineOk s 1 || !engineOk s 2 then brCnt n 3 s
    else
      let mine := match (s.chan n).br.exch with
        | some x => x.initiator && decide (x.epoch = e)
        | none => false
      if mine && !s.roleB n then s
      else
        match takeSpare n s with
        | (none, s) => s
        | (some (_, s), _) =>
          let p := s.draw
          let s := p.2
          let pub := slice m.bytes 68 1568
          let body := beBytes 4 e ++ bytesOf 32 (Config.x25519Pub p.1) ++ bytesOf 1568 (Config.mlkemCt pub p.1)
          let msg := brBody s n brKemAccept 0 ((s.rd (BR_TX_SEQ n 0)).toNat + 1) body
          let x : Exch :=
            { epoch := e, initiator := false, seed := p.1, offer := m.bytes, accept := msg ++ zeros 16, ss := [],
              sent := false, tries := 0 }
          let ss := bytesOf 32 (Config.mlkemEncSecret pub p.1) ++ bytesOf 32 (Config.x25519Shared p.1 (slice m.bytes 36 32))
          let s := brSend n brKemAccept 0 1 false body (s.setF (BR_STAT_EXCH n) 1)
          depositExchange n x ss s))

/-- BRIDLE_KEM_ACCEPT_RX (R256): the initiator decapsulates, deposits and confirms; an accept that answers no offer of this
end is dropped. -/
def execBridleKemAcceptRx (s : State) : Host.Outcome State Fault Refusal :=
  .next (brTake brKemAccept s (fun m s =>
    let n := m.ch
    if !s.brUp n || (s.chTwin n && s.isFollower) then s
    else match (s.chan n).br.exch with
      | some x =>
        if x.initiator && !x.offer.isEmpty && decide (x.epoch = mBe m 0 4) && !x.sent then
          let ss := bytesOf 32 (Config.mlkemDecSecret x.seed (slice m.bytes 68 1568))
            ++ bytesOf 32 (Config.x25519Shared x.seed (slice m.bytes 36 32))
          depositExchange n { x with accept := m.bytes } ss s
        else brCnt n 3 s
      | none => brCnt n 3 s))

/-- An attempt has failed (R258): eight without confirmation take the session DOWN; otherwise a fresh offer follows. -/
def attemptFailed (n : Nat) (s : State) : State :=
  match (s.chan n).br.exch with
  | none => s
  | some x =>
    if x.tries ≥ 8 then brDown n 3 s
    else s.modBr n (fun b => { b with exch := some { x with offer := [], accept := [], ss := [], sent := false } })

/-- BRIDLE_KEY_CONFIRM_RX (R256, R258): on a match the slot becomes next in both directions; on a mismatch the spare slot is
emptied, and the second failure in a row takes the session DOWN. -/
def execBridleKeyConfirmRx (s : State) : Host.Outcome State Fault Refusal :=
  .next (brTake brKeyConfirm s (fun m s =>
    let n := m.ch
    if !s.brUp n || (s.chTwin n && s.isFollower) then s
    else match (s.chan n).br.exch with
      | none => brCnt n 3 s
      | some x =>
        let th := transcript x.offer x.accept
        if x.sent && decide (x.epoch = mBe m 0 4)
            && decide (slice m.bytes 32 52 = confirmBody s n x.epoch (!s.roleB n) th) then
          let s := s.modBr n (fun b => { b with exch := none, confirmFails := 0, first := false })
          let s := brCnt n 7 ((s.setF (BR_STAT_EXCH n) 0).setF (BR_STAT_TRIES n) 0)
          spareToNext n s
        else
          let f := (s.chan n).br.confirmFails + 1
          let i := slotOf n (s.getF (KB_ROLES_SPARE_SLOT n 0))
          let s := s.setSlot i Slot.reset
          let s := brReport 0x0605 885 n 0 (s.modBr n (fun b => { b with confirmFails := f }))
          if f ≥ 2 then brDown n 3 s
          else if x.initiator then attemptFailed n s
          else setSpare n none ((s.modBr n (fun b => { b with exch := none })).setF (BR_STAT_EXCH n) 0)))

/-- KEM_RETRY_TIMEOUT (R258): no KEM_ACCEPT within 1,024 beats of the offer; the eighth attempt takes the session DOWN. -/
def execKemRetryTimeout (n : Fin 512) (s : State) : Host.Outcome State Fault Refusal :=
  let n := n.val
  match (s.chan n).br.exch with
  | none => .next s
  | some x =>
    if x.initiator && !x.offer.isEmpty && !x.sent then .next (attemptFailed n s) else .next s

/-! ### Switch messages (R260, R261) -/

/-- The reason a SWITCH_AT is refused with, if any (R260). -/
def switchRefusal (s : State) (n epoch : Nat) (b : Beat) (a : Nat × DWord × Nat) : Option Nat :=
  let want := if s.isSet (KB_ROLES_CUR_V n 1) then (s.getF (KB_EPOCH_EPOCH n 1) + 1) % 2 ^ 32
    else (s.slot (slotOf n (s.getF (KB_ROLES_NEXT_SLOT n 1)))).epoch
  let nextOk := s.isSet (KB_ROLES_NEXT_V n 1)
    && decide ((s.slot (slotOf n (s.getF (KB_ROLES_NEXT_SLOT n 1)))).epoch = epoch)
  let inWindow := match (s.chan n).window with
    | some (e, lo, hi) => decide (e = epoch) && !beatBefore b lo && !beatBefore hi b
    | none => false
  if !s.brUp n then some 8
  else if epoch ≠ want then some 2
  else if !nextOk then some 1
  else if !s.hwKeys n && !inWindow then some 3
  else if s.chMode n = 2 && (s.chan n).l1.posOk
      && !(decide (((switchFrame a b).1 + 2 ^ 48 - (s.rd64 (CH_IN_POS_LO n)).toNat % 2 ^ 48) % 2 ^ 48 ≠ 0)
        && decide (((switchFrame a b).1 + 2 ^ 48 - (s.rd64 (CH_IN_POS_LO n)).toNat % 2 ^ 48) % 2 ^ 48 < 2 ^ 47)) then some 4
  else none

/-- BRIDLE_SWITCH_AT_RX (R260, R263, R204): accepted with SWITCH_ACK, armed and marked; or refused with SWITCH_CANCEL. -/
def execBridleSwitchAtRx (turn : Nat) (s : State) : Host.Outcome State Fault Refusal :=
  .next (brTake brSwitchAt s (fun m s =>
    let n := m.ch
    if s.chTwin n && decide (m.path ≠ s.answerStream n) then s
    else
      let epoch := mBe m 0 4
      let b : Beat := BitVec.ofNat 48 (mBe m 4 6)
      let a := (mBe m 12 6, BitVec.ofNat 64 (mBe m 18 8), mBe m 26 6)
      let s := s.wr (BR_TURN_LAST n) (BitVec.ofNat 32 turn)
      match switchRefusal s n epoch b a with
      | some r =>
        let s := if r = 4 then s.report unitChan 0x030B n n else s
        let s := brReport 0x0606 886 n r (brCnt n 5 s)
        brAnswer n brSwitchCancel (slice m.bytes 32 10 ++ [BitVec.ofNat 8 r, 0]) s
      | none =>
        let marked := !s.hwKeys n && ((s.chan n).window.isSome)
        let again := ((s.chan n).swIn.map (fun w => decide (w.epoch = epoch ∧ w.beat = b))).getD false
        let done := ((s.chan n).swIn.map (·.markDone)).getD marked
        let s := armSwitch n 1
          { epoch := epoch, beat := b, sent := true, acked := true, markDone := (marked || again) && done, late := false,
            host := false } (!(marked || again)) s
        let s := if s.chMode n = 2 then
            s.wr64 (CH_MODE_W2_LO n) (BitVec.ofNat 64 (switchFrame a b).1)
          else if s.chMode n = 1 then
            s.wr64 (CH_MODE_W3_HI n - 4) (BitVec.ofNat 64 (b.toNat * s.spb (s.getF (CH_CFG_CIPHER_PORT n))))
          else s
        brAnswer n brSwitchAck (slice m.bytes 32 10 ++ zeros 2 ++ beBytes 4 turn) s))

/-- BRIDLE_SWITCH_ACK_RX (R261, R264): before the cancel point it is held for the switch; `r` is R in ticks. -/
def execBridleSwitchAckRx (r : Nat) (s : State) : Host.Outcome State Fault Refusal :=
  .next (brTake brSwitchAck s (fun m s =>
    let n := m.ch
    let b : Beat := BitVec.ofNat 48 (mBe m 4 6)
    if !s.brUp n then s
    else
      let p := 2 ^ 48 + b.toNat
      let s := if (s.chan n).br.probesOut.contains p then
          judgeAnswer n (at' m.bytes 8 / 32 % 4) r (mBe m 12 4) 6000
            (s.modBr n (fun x => { x with probesOut := x.probesOut.filter (· ≠ p) }))
        else s
      match (s.chan n).swOut with
      | some w =>
        if w.epoch = mBe m 0 4 ∧ w.beat = b ∧ !s.beatDue (beatSub b (s.cancelLead n)) then
          s.modChan n (fun c => { c with swOut := some { w with acked := true } })
        else s
      | none => s))

/-- Is the armed switch of a direction the one of this epoch and beat? -/
def switchIs (s : State) (n d e : Nat) (b : Beat) : Bool :=
  ((s.chan n).sw d).any (fun w => decide (w.epoch = e) && decide (w.beat = b))

/-- BRIDLE_SWITCH_CANCEL_RX (R261): an armed switch it names is disarmed, in the direction it names: one this end announced
and the far end refuses, or one the far end announced. -/
def execBridleSwitchCancelRx (s : State) : Host.Outcome State Fault Refusal :=
  .next (brTake brSwitchCancel s (fun m s =>
    let n := m.ch
    let e := mBe m 0 4
    let b : Beat := BitVec.ofNat 48 (mBe m 4 6)
    let answer := decide (at' m.bytes 8 / 32 % 4 ≠ 0)
    let s := brReport 0x0606 886 n (mBe m 10 1) (brCnt n 6 s)
    if answer then
      let s := s.modBr n (fun x => { x with probesOut := x.probesOut.filter (· ≠ 2 ^ 48 + b.toNat) })
      if switchIs s n 0 e b then disarmSwitch n 0 s else s
    else if switchIs s n 1 e b then disarmSwitch n 1 s
    else if switchIs s n 0 e b then disarmSwitch n 0 s
    else s))

end Sys2Proof.Machine
end

