-- ==== Sys2Proof/Machine/Mail.lean ====
section
/-!
DEFINITION. Mailboxes (spec/13 R340, R343, R344, R346): their buffers, header and answers.
-/

namespace Sys2Proof.Machine

/-- The configuration generation (R23, R324). -/
def State.gen (s : State) : Nat := (s.rd64 FAB_GEN_LO).toNat

/-! ### Mailboxes (R340, R343, R344) -/

/-- Command and response buffers of mailbox m (R340). -/
def cmdBuf (m : Nat) : Nat := bar0Key (m * 0x4000)
def rspBuf (m : Nat) : Nat := bar0Key (m * 0x4000 + 0x1000)

/-- Header fields of the command in a mailbox (R343). -/
def mbOp (s : State) (m : Nat) : Nat := s.ldLE (cmdBuf m) 2
def mbLen (s : State) (m : Nat) : Nat := s.ldLE (cmdBuf m + 2) 2
def mbTag (s : State) (m : Nat) : Nat := s.ldLE (cmdBuf m + 8) 8
def mbBase (s : State) (m : Nat) : Nat := s.ldLE (cmdBuf m + 16) 8
def mbArg (s : State) (m : Nat) : List Byte := s.bytes (cmdBuf m + 24) (mbLen s m)

/-- A mailbox's MSI-X vector is signalled (R340). -/
def mbSignal (m : Nat) (en : Fld) (s : State) : State := if s.isSet en then s.emit (.msix (s.getF (MB_CTL_VEC m))) else s

/-- A response is written and the mailbox enters DONE (R343, R344). -/
def mbRespond (m op st orig tag : Nat) (data : List Byte) (s : State) : State :=
  let r := leBytes 2 op ++ [BitVec.ofNat 8 st, BitVec.ofNat 8 orig] ++ leBytes 4 data.length ++ leBytes 8 tag
    ++ leBytes 8 s.gen ++ leBytes 8 s.stamp.toNat ++ data
  let s := s.setBytes (rspBuf m) r
  let s := (s.setF (MB_STATUS_RESULT m) st).setF (MB_STATUS_STATE m) 3
  mbSignal m (MB_CTL_IRQ_DONE m) (s.setF (MB_EVT_DONE m) 1)

/-- A command completes: its response is journaled too (R346). -/
def mbDone (m st : Nat) (data : List Byte) (s : State) : State :=
  let s := mbRespond m (mbOp s m) st 0 (mbTag s m) data s
  { s with ym := { s.ym with resp := tblSet [] m ([BitVec.ofNat 8 st] ++ data) s.ym.resp } }

/-- A doorbell is refused (R344). -/
def mbReject (m st : Nat) (s : State) : State :=
  let s := (s.setF (MB_STATUS_RESULT m) st).setF (MB_STATUS_STATE m) 4
  mbSignal m (MB_CTL_IRQ_DONE m) (s.setF (MB_EVT_REJECTED m) 1)

/-- A Yardmaster leads and its firmware serves the mailboxes (R344, R345). -/
def served (s : State) : Bool := s.isSet YM_ARB_HELD && s.ym.fwReady

/-- Mailbox m holds a command of this opcode that has been accepted and not run. -/
def yfiReady (s : State) (op m : Nat) : Bool :=
  served s && decide (s.getF (MB_STATUS_STATE m) = 1) && decide (mbOp s m = op)

end Sys2Proof.Machine
end

