-- ==== Sys2Proof/Machine/Position.lean ====
section
/-!
DEFINITION. The position unit (spec/03): boundaries, qualification, states, steps and regressions, and the position commands
of YFI as the unit takes them (R55).
-/

namespace Sys2Proof.Machine

/-- The source, class and lead port that POS_CFG names. -/
def posCfg (s : State) : PosSrc :=
  { src := s.getF POS_CFG_SRC, cls := s.getF POS_CFG_BEAT_CLASS, lead := s.getF POS_CFG_LEAD_PORT }

/-- QUAL: 0 is treated as 1. -/
def posQual (s : State) : Nat := max 1 (s.getF POS_CFG_QUAL)

/-- The unit as changed. -/
def State.modPos (s : State) (f : Pos → Pos) : State := { s with pos := f s.pos }

/-- The word on POS_DATA_OUT, which names the beat that the next edge starts (R54). -/
def posWord (b : Beat) : DWord :=
  let hi := 0xB2 * 2 ^ 48 + (b + 1).toNat
  BitVec.ofNat 64 (hi * 256 + crc8 hi)

/-- Does a POS_DATA_IN word pass its checks? (R54) -/
def posWordOk (w : DWord) : Bool :=
  decide (w.toNat / 2 ^ 56 = 0xB2) && decide (w.toNat % 256 = crc8 (w.toNat / 256))

/-- The fraction of a beat (R66, R67). -/
def posFrac (ticks len : Nat) : Nat := min 0xFFFF (ticks * 2 ^ 32 / max 1 len)

/-- A boundary passes and the beat takes its number (R50, R54, R56, R82). -/
def posBoundary (b : Beat) (s : State) : State :=
  let s := s.wr64 POS_NOW_LO ((b.zeroExtend 64) <<< 16)
  let s : State := { s with tally := { s.tally with bounds := s.tally.bounds + 1 } }
  let s := s.modPos (fun p => { p with ticks := 0, dataOut := posWord b, hostBeat := p.hostBeat.map (fun _ => b + 1) })
  let div := s.getF POS_CFG_PPS_DIV
  let s := (s.emit (.pin "FRAME_OUT" true)).modPos (fun p => { p with ppsOut := decide (div ≠ 0) && decide (b.toNat % 2 ^ div = 0) })
  let s := if s.pos.ppsOut then s.emit (.pin "PPS_OUT" true) else s
  posEvt POS_EVT_BEAT 872 s

/-- The state is shown and announced (R82). -/
def posEnter (st : Nat) (s : State) : State :=
  let old := s.getF POS_STAT_STATE
  let s := s.setF POS_STAT_STATE st
  if old = st then s
  else if st = 1 then posEvt POS_EVT_LOCK 865 s
  else if st = 2 then posEvt POS_EVT_HOLD 866 (s.report unitPos 0x0101 noPath 0)
  else if st = 0 then posEvt POS_EVT_FREE 867 (s.report unitPos 0x0102 noPath 0)
  else posEvt POS_EVT_REGR 868 s

/-- Data of POS_STEP and POS_REGRESSED (R82): the last number before, the first after. -/
def posMoveData (a b : Beat) : Nat := a.toNat + b.toNat * 2 ^ 64

/-- A forward step (R63): v is adopted at this boundary and the beats skipped are never issued. -/
def posStep (v : Beat) (s : State) : State :=
  let a := s.beat
  let s := posBoundary v s
  posEvt POS_EVT_STEP 869 ((s.cntSat POS_REGR_CNT_STEPS 1).report unitPos 0x0104 noPath (posMoveData a v))

/-- A regression (R64, R72, R78, R79): the source's number is adopted, the unit enters REGRESSED, every channel meets it, and
every coalescing window closes (R509). -/
def posRegress (v : Beat) (s : State) : State :=
  let a := s.beat
  let s := posBoundary v s
  let s := (s.cntSat POS_REGR_CNT_REGRESSIONS 1).report unitPos 0x0103 noPath (posMoveData a v)
  let s := posEnter 3 s
  let s : State := { s with ledger := { s.ledger with co := s.ledger.co.map (fun e => { e with endBeat := v }) } }
  regressAll s

/-- The source is invalid or lost (R82): recorded once for a run. -/
def posInvalid (s : State) : State :=
  if s.pos.badRun then s
  else
    let s := s.modPos (fun p => { p with badRun := true })
    posEvt POS_EVT_SRC_INVALID 870 (s.report unitPos 0x0105 noPath 0)

/-- The most recent run that spans at least 1 ms and at least `q` beats: its length and its sum (R49). -/
def posRun (q : Nat) : List Nat → Nat → Nat → Option (Nat × Nat)
  | [], k, t => if q ≤ k ∧ 65536 * ticksPerMs ≤ t then some (k, t) else none
  | x :: r, k, t => if q ≤ k ∧ 65536 * ticksPerMs ≤ t then some (k, t) else posRun q r (k + 1) (t + x)

/-- Does a mean period of t over k beats lie within ±100 ppm of nominal? (R49) -/
def posMeanOk (cls k t : Nat) : Bool :=
  let n := k * nominalBeat cls
  decide ((n - t + (t - n)) * 10000 ≤ n)

/-- Periods kept: enough for the run of R49 in every class. -/
def posKeep : Nat := 1024

/-- The number n of R63: the unit's own beat whose boundary lies nearest the present moment, the later of two equally near. -/
def posNear (s : State) : Beat :=
  if s.pos.beatLen ≤ 2 * (s.pos.ticks * 65536) then s.beat + 1 else s.beat

/-- How far the present moment lies after that boundary, in 2^-16 tick (R62). -/
def posPhase (s : State) : Int :=
  let t : Int := s.pos.ticks * 65536
  if s.pos.beatLen ≤ 2 * (s.pos.ticks * 65536) then t - s.pos.beatLen else t

/-- The lead port of a LINE source is an OTN port, whose frames carry an MFAS (R51): types from 16 are OTN, from 32 SDH. -/
def posLeadOtn (s : State) (p : PosSrc) : Bool :=
  let t := s.getF (PORT_CFG_TYPE p.lead)
  decide (16 ≤ t) && decide (t < 24)

/-- The beat number a source shows at a boundary near the unit's beat n (R51, R53, R55, R56). -/
def posShown (s : State) (p : PosSrc) (b : SrcBeat) (n : Beat) : Beat :=
  if p.src = 0 then
    if posLeadOtn s p then n + BitVec.ofNat 48 ((b.mfas.toNat + 256 - n.toNat % 256) % 256) else n
  else if p.src = 2 then s.pos.hostBeat.getD n
  else if p.src = 3 then (s.pos.fabPos.map (fun (y : DWord) => ((y >>> 16).truncate 48 : Beat) + 1)).getD b.v
  else b.v

/-- Classes a source may give (R51, R52): LINE by its lead port's type, HOST the synthetic class only. -/
def posSrcAllowed (s : State) (p : PosSrc) : Bool :=
  let t := s.getF (PORT_CFG_TYPE p.lead)
  if p.src = 0 then
    (t = 0x12 && p.cls = 0) || (t = 0x10 && p.cls = 1) || ((t = 0x20 || t = 0x21) && p.cls = 2)
  else p.src ≠ 2 || p.cls = 3

/-- Conditions of R60 on a boundary apart from its time and its number. -/
def posWellFormed (s : State) (p : PosSrc) (b : SrcBeat) : Bool :=
  (p.src ≠ 0 || b.aligned) && (p.src ≠ 1 || posWordOk b.word) && posSrcAllowed s p

/-- A frequency offset from nominal in 1/256 ppb for k beats that took t (POS_FREQ). -/
def posOffset (cls k t : Nat) : Int := ((k * nominalBeat cls : Nat) - (t : Int)) * 256000000000 / max 1 t

/-- The estimate follows the run of the source followed (R58, R61). -/
def posEstimate (s : State) : State :=
  match posRun (posQual s) s.pos.periods 0 0 with
  | none => s
  | some (k, t) =>
    let s := s.modPos (fun p => { p with estLen := t / max 1 k, beatLen := t / max 1 k })
    s.wr POS_FREQ (BitVec.ofInt 32 (posOffset s.pos.cur.cls k t))

/-- Slewing removes at most 1/1024 of a nominal beat per beat (R62). -/
def posSlew (s : State) : State :=
  s.modPos (fun p =>
    let m : Int := nominalBeat p.cur.cls / 1024
    { p with slew := if p.slew > m then p.slew - m else if p.slew < -m then p.slew + m else 0 })

/-- A valid boundary of the source followed: the unit's boundary, with the number v. -/
def posFollow (v : Beat) (period : Nat) (s : State) : State :=
  let s := posBoundary v s
  let s := s.modPos (fun p => { p with miss := 0, badRun := false, periods := (period :: p.periods).take posKeep })
  posSlew (posEstimate s)

/-- Mean period of the source followed meets R49, where there is a run to test. -/
def posFollowedOk (s : State) (period : Nat) : Bool :=
  match posRun (posQual s) (period :: s.pos.periods) 0 0 with
  | none => true
  | some (k, t) => posMeanOk s.pos.cur.cls k t

/-- A boundary of the source followed, in LOCKED or REGRESSED (R60, R63, R64). -/
def posFollowed (b : SrcBeat) (s : State) : State :=
  let p := s.pos.cur
  let n := s.beat + 1
  let inWindow := decide (b.off.natAbs ≤ nominalBeat p.cls / 64)
  if !inWindow || !posWellFormed s p b || !posFollowedOk s b.period then posInvalid s
  else
    let v := posShown s p b n
    if v = n then posFollow v b.period s
    else if p.src = 0 then posInvalid s
    else
      let s := s.modPos (fun q => { q with miss := 0, badRun := false })
      if beatBefore n v then posStep v s else posRegress v s

/-- The qualification starts again. -/
def posQReset (s : State) : State :=
  s.modPos (fun p => { p with qRun := 0, qPeriods := [], qDone := false })

/-- Entry to LOCKED, or the changeover to a changed source, at this boundary of it (R57, R59, R62 to R64). -/
def posTakeOver (b : SrcBeat) (s : State) : State :=
  let p := posCfg s
  let n := posNear s
  let v := posShown s p b n
  let ph := posPhase s
  let left3 := decide (s.pos.cur.cls = 3) && decide (p.cls ≠ 3)
  let s := s.modPos (fun q => { q with
    cur := p, periods := q.qPeriods, miss := 0, badRun := false, qRun := 0, qPeriods := [], qDone := false, qLast := none
    hostBeat := if p.src = 2 then q.hostBeat else none })
  let s := (s.setF POS_STAT_PENDING 0).setF POS_STAT_SRC_OK 1
  let s := posEstimate (s.modPos (fun q => { q with beatLen := nominalBeat p.cls }))
  let s := if left3 then s.liveChans.foldl (fun s n => if s.chMode n = 1 then holdChan n s else s) s else s
  if v = n then (posEnter 1 s).modPos (fun q => { q with slew := ph })
  else if beatBefore n v then posStep v (posEnter 1 s)
  else posRegress v s

/-- A boundary of a source being qualified (R49, R57, R59, R60). -/
def posQualify (b : SrcBeat) (s : State) : State :=
  let p := posCfg s
  if s.pos.qDone then posTakeOver b s
  else
    let line := p.src = 0
    let shown : Beat := if line then (b.mfas.zeroExtend 48) else b.v
    let nom := nominalBeat p.cls
    let follows := match s.pos.qLast with
      | none => false
      | some l =>
        if line then !posLeadOtn s p || decide ((l.toNat + 1) % 256 = b.mfas.toNat)
        else if p.src = 2 then true
        else decide (shown = l + 1)
    let timed := decide (b.period - nom + (nom - b.period) ≤ nom / 64)
    let first := s.pos.qLast.isNone
    let s := s.modPos (fun q => { q with qLast := some shown })
    if follows && timed && posWellFormed s p b then
      let s := s.modPos (fun q => { q with qRun := q.qRun + 1, qPeriods := (b.period :: q.qPeriods).take posKeep })
      match posRun (posQual s) s.pos.qPeriods 0 0 with
      | some (k, t) =>
        if posMeanOk p.cls k t then s.modPos (fun q => { q with qDone := true, badRun := false }) else s
      | none => s
    else if first then s
    else posQReset (posInvalid s)

/-- The unit follows its source: LOCKED or REGRESSED. -/
def posFollowing (s : State) : Bool := decide (s.getF POS_STAT_STATE = 1) || decide (s.getF POS_STAT_STATE = 3)

/-- SOURCE_BEAT_BOUNDARY (R60): a boundary of the source followed, or (`background`, or in FREE and HOLDOVER) of the source
being qualified. -/
def execSourceBeatBoundary (background : Bool) (b : SrcBeat) (s : State) : Host.Outcome State Fault Refusal :=
  let t := if posFollowing s && !background then posFollowed b s else posQualify b s
  .next (t.modPos (fun p => { p with fabPos := none }))

/-- BEAT_WINDOW_CLOSE (R60, R59): the window has closed without a valid boundary: the unit issues its own, predicts the next
from the missing beat, and after three in a row enters HOLDOVER or FREE. -/
def execBeatWindowClose (s : State) : Host.Outcome State Fault Refusal :=
  if posFollowing s then
    let s := posInvalid s
    let b := s.beat + 1
    let s := posBoundary b s
    let w := nominalBeat s.pos.cur.cls / 64
    let s := s.modPos (fun p => { p with miss := p.miss + 1, ticks := w / 65536 })
    if s.pos.miss ≥ 3 then
      let s := posQReset ((s.setF POS_STAT_SRC_OK 0).modPos (fun p => { p with miss := 0, periods := [], qLast := none }))
      if s.isSet POS_STAT_FREQ_VALID then
        .next (posEnter 2 (s.modPos (fun p => { p with beatLen := p.estLen, hoDue := false })))
      else .next (posEnter 0 (s.modPos (fun p => { p with beatLen := nominalBeat p.cur.cls })))
    else .next s
  else .next s

/-- OWN_BEAT_BOUNDARY (R58, R59): in FREE or HOLDOVER the tick count has reached a beat. -/
def execOwnBeatBoundary (s : State) : Host.Outcome State Fault Refusal :=
  if posFollowing s then .next s else .next (posSlew (posBoundary (s.beat + 1) s))

/-- SOURCE_CHANGEOVER (R57): the boundary of the changed source after the one at which it qualified. -/
def execSourceChangeover (b : SrcBeat) (s : State) : Host.Outcome State Fault Refusal :=
  if s.pos.qDone then .next (posTakeOver b s) else .next s

/-- HOLDOVER_EXPIRY (R59, R61): HO_MAX milliseconds in HOLDOVER have passed; the estimate is no longer valid. -/
def execHoldoverExpiry (s : State) : Host.Outcome State Fault Refusal :=
  if s.getF POS_STAT_STATE = 2 then
    .next (posEnter 0 ((s.setF POS_STAT_FREQ_VALID 0).modPos (fun p => { p with beatLen := nominalBeat p.cur.cls })))
  else .next s

/-- FREQ_ESTIMATE_VALID (R61): the unit has been LOCKED for 60 s without interruption. -/
def execFreqEstimateValid (s : State) : Host.Outcome State Fault Refusal :=
  if s.getF POS_STAT_STATE = 1 then .next (posEstimate (s.setF POS_STAT_FREQ_VALID 1)) else .next s

/-- POS_CFG has been written (R57): a change of source, class or lead port starts qualification in the background. -/
def posCfgWritten (old : PosSrc) (s : State) : State :=
  let p := posCfg s
  if p = old then s
  else
    let s := posQReset (s.modPos (fun q => { q with qLast := none }))
    if p = s.pos.cur then s.setF POS_STAT_PENDING 0
    else
      let s := s.setF POS_STAT_PENDING 1
      if p.src = 2 ∧ s.pos.cur.src ≠ 2 then s.modPos (fun q => { q with hostBeat := none, hostOfs := 0 }) else s

/-- Set-beat on HOST (R55): v is judged against n as R63 and R64 give. -/
def posSetBeat (v : Beat) (s : State) : State :=
  let n := posNear s
  let s := s.modPos (fun p => { p with hostBeat := some v })
  if v = n then s.modPos (fun p => { p with hostBeat := some (v + (if n = s.beat then 1 else 0)) })
  else if beatBefore n v then posStep v s
  else posRegress v s

/-- A frequency offset on HOST in 1/256 ppb (R55): the synthetic beat's length follows. -/
def posFreqOffset (ofs : Int) (s : State) : State :=
  s.modPos (fun p => { p with
    hostOfs := ofs, beatLen := (((nominalBeat 3 : Nat) : Int) * 256000000000 / (256000000000 + ofs)).toNat })

/-- A phase step on HOST in fraction units, forward positive: slewed over the beats that follow (R55). -/
def posPhaseStep (d : Int) (s : State) : State :=
  s.modPos (fun p => { p with slew := p.slew - d * ((p.beatLen : Nat) : Int) / 65536 })

end Sys2Proof.Machine
end

