-- ==== Sys2Proof/Machine/Ports.lean ====
section
/-!
DEFINITION. Ports (spec/04): lanes, types, link states, references and events.
-/

namespace Sys2Proof.Machine

/-- Group of a port index: 0–3 PG0–PG3, 4–7 CG0–CG3 (R83). -/
def portGroup (k : Nat) : Nat := k / 8

/-- Z ports, which have no group. -/
def isZ (k : Nat) : Bool := decide (64 ≤ k)

/-- Lanes of a port type (R90, R94, R97, R99); 0 for a code that names no type. -/
def portLanes (t : Nat) : Nat :=
  if t = 0x01 ∨ t = 0x02 ∨ t = 0x03 ∨ t = 0x06 ∨ t = 0x10 ∨ t = 0x11 ∨ t = 0x20 ∨ t = 0x21 then 1
  else if t = 0x05 ∨ t = 0x08 ∨ t = 0x13 ∨ t = 0x30 then 2
  else if t = 0x04 ∨ t = 0x07 ∨ t = 0x0A ∨ t = 0x12 ∨ t = 0x14 then 4
  else if t = 0x09 ∨ t = 0x0B then 8
  else 0

/-- Family of a port type: 0 Ethernet, 1 OTN, 2 SDH, 3 none (R86). -/
def portFamily (t : Nat) : Nat :=
  if 1 ≤ t ∧ t ≤ 0x0B then 0 else if 0x10 ≤ t ∧ t ≤ 0x14 then 1 else if t = 0x20 ∨ t = 0x21 then 2 else 3

/-- FEC values of a type (R90, R94, R97, R99). -/
def portFecOk (t f : Nat) : Bool :=
  if t = 0x01 then f = 0 || f = 2 else if t = 0x02 then f ≤ 2 else if t = 0x04 then f ≤ 1
  else if t = 0x03 ∨ (0x05 ≤ t ∧ t ≤ 0x0B) then f = 1
  else if 0x10 ≤ t ∧ t ≤ 0x12 then f ≤ 1
  else if t = 0x13 ∨ t = 0x14 then f = 1
  else f = 0

/-- Payload rate in Mb/s (R571). -/
def payloadMbps (t : Nat) : Nat :=
  if t = 0x01 then 10000 else if t = 0x02 then 25000 else if t = 0x03 then 50000
  else if 0x04 ≤ t ∧ t ≤ 0x06 then 100000 else if t = 0x07 ∨ t = 0x08 then 200000
  else if t = 0x09 ∨ t = 0x0A then 400000 else if t = 0x0B then 800000
  else if t = 0x10 then 9996 else if t = 0x11 then 10356 else if t = 0x12 then 104355
  else if t = 0x13 then 209600 else if t = 0x14 then 419300
  else if t = 0x20 then 2396 else if t = 0x21 then 9585 else 0

/-- Payload rate of a port. -/
def State.portRate (s : State) (k : Nat) : Nat := payloadMbps (s.getF (PORT_CFG_TYPE k))

/-- A port beside its registers. -/
def State.port (s : State) (k : Nat) : Port := tblGet Port.reset k s.ports

/-- The state with a port record changed. -/
def State.modPort (s : State) (k : Nat) (f : Port → Port) : State :=
  { s with ports := tblSet Port.reset k (f (s.port k)) s.ports }

/-- State of a port: 0 DOWN, 1 ACQUIRE, 2 HOLD, 3 UP (R104). -/
def State.portState (s : State) (k : Nat) : Nat := s.getF (PORT_STAT_STATE k)

/-- The port is UP. -/
def State.portUp (s : State) (k : Nat) : Bool := s.portState k = 3

/-- The shed of a port's group (R83, R536); Z ports lie in CORE. -/
def portShedOn (s : State) (k : Nat) : Bool := isZ k || s.shedOn (24 + portGroup k)

/-- Type and FEC are valid for the group's family (R85). -/
def portTypeOk (s : State) (k : Nat) : Bool :=
  let t := s.getF (PORT_CFG_TYPE k)
  let f := s.getF (PORT_CFG_FEC k)
  if isZ k then t = 0x30 && f = 0
  else decide (portLanes t ≠ 0) && decide (portFamily t = s.getF (GRP_CFG_FAMILY (portGroup k))) && portFecOk t f

/-- First lane aligned under R84. -/
def portAligned (s : State) (k : Nat) : Bool :=
  isZ k || decide (k % 8 % max 1 (portLanes (s.getF (PORT_CFG_TYPE k))) = 0)

/-- A port claims its lanes (R85). -/
def portClaims (s : State) (k : Nat) : Bool :=
  s.isSet (PORT_CFG_EN k) && portShedOn s k && portTypeOk s k && portAligned s k

/-- A lower-numbered port of the group claims a lane of this one (R85). -/
def portOverlap (s : State) (k : Nat) : Bool :=
  !isZ k && (List.range 8).any (fun i =>
    let j := portGroup k * 8 + i
    decide (j < k) && portClaims s j && decide (k < j + portLanes (s.getF (PORT_CFG_TYPE j))))

/-- The reference of a port is absent (R100). -/
def portRefLost (s : State) (k : Nat) : Bool :=
  s.refLost.contains (if isZ k then 2 else s.getF (GRP_CFG_REFSEL (portGroup k)))

/-- The first cause that keeps a port DOWN, in the order of R104. -/
def portReason (s : State) (k : Nat) : Option Nat :=
  if !s.isSet (PORT_CFG_EN k) then some 0
  else if !portShedOn s k then some 1
  else if !isZ k && s.isSet (GRP_CFG_MAP_BAD (portGroup k)) then some 5
  else if !portTypeOk s k then some 2
  else if !portAligned s k then some 3
  else if portOverlap s k then some 4
  else if portRefLost s k then some 8
  else if !s.isSet (PORT_STAT_SIGNAL k) then some 6
  else if (s.port k).retry then some 7
  else none

/-- Path of a port in a report (R505): Z ports have none. -/
def portPath (k : Nat) : Nat := if k < 64 then 512 + k else noPath

/-- Bell source of a port (R109): P 641 + k, C 673 + k, Z 705 + k. -/
def portSource (k : Nat) : Nat := 641 + k

/-- The level of a port's Bell source (R109). -/
def portLine (k : Nat) (s : State) : State :=
  bellInput (portSource k) (decide (s.rd (PORT_EVT k) &&& s.rd (PORT_EVT_EN k) ≠ 0)) s

/-- A port event: only while `EN` is 1 (R109). Code 0 has no record. -/
def portEvt (k bit code : Nat) (s : State) : State :=
  if s.isSet (PORT_CFG_EN k) then
    let s := if code = 0 then s else s.report unitPorts code (portPath k) 0
    portLine k (s.setF ⟨PORT_EVT k, bit, bit⟩ 1)
  else s

/-- Units that a cipher-side port was sending are lost on that path (R108). -/
def dropOnLine (k : Nat) (s : State) : State :=
  { s with units := s.units.filter (fun u => !(u.onLine && decide (32 + s.txPort u.ch = k))) }

/-- FRAME_SEND of a frame that waits for a port ends with NOT_READY when the port leaves UP (R359). -/
def clearLost (k : Nat) (s : State) : State :=
  let gone := s.clearTx.filter (fun x => x.1 = k)
  gone.foldl (fun s x => mbDone x.2.1 0x03 [] s) { s with clearTx := s.clearTx.filter (fun x => x.1 ≠ k) }

/-- A port is DOWN (R105, R108, R109): from UP it raises DOWN; a cell port leaves SYNC. -/
def portDown (k : Nat) (s : State) : State :=
  let was := s.portState k
  let s := ((s.setF (PORT_STAT_STATE k) 0).setF (PORT_STAT_LOCK k) 0).modPort k (fun p => { p with anDone := false, slaved := false })
  let s := if was = 3 then clearLost k (dropOnLine k (portEvt k 1 0x0201 s)) else s
  let s := if isZ k then zLinkDown (k - 64) s else s
  if 32 ≤ k ∧ k < 64 ∧ s.getF (CELL_PORT_STAT_DELIN (k - 32)) ≠ 0 then
    let d := s.getF (CELL_PORT_STAT_DELIN (k - 32))
    let s := (s.setF (CELL_PORT_STAT_DELIN (k - 32)) 0).modPort k (fun p => { p with run := 0, odd := none })
    if d = 2 then s.report unitPorts 0x020C (portPath k) 0 else s
  else s

/-- A port meets what keeps it DOWN (R85, R104, R105): REASON follows, and CFG_BAD is raised once for a stay. -/
def portRefresh (k : Nat) (s : State) : State :=
  match portReason s k with
  | some r =>
    let s := if s.portState k = 0 then s else portDown k s
    let s := s.setF (PORT_STAT_REASON k) r
    if 2 ≤ r && decide (r ≤ 5) && !(s.port k).badSeen then
      portEvt k 9 0x020A (s.modPort k (fun p => { p with badSeen := true }))
    else s
  | none =>
    let s := s.modPort k (fun p => { p with badSeen := false })
    s.setF (PORT_STAT_REASON k) 0

/-- Every port of a group meets a change of its configuration, its shed or its reference. -/
def portRefreshGroup (g : Nat) (s : State) : State :=
  (List.range 8).foldl (fun s i => portRefresh (g * 8 + i) s) s

/-- Is a lane map a permutation of 0–7? (R88) -/
def laneMapOk (m : Nat) : Bool :=
  (List.range 8).all (fun l => (List.range 8).any (fun i => decide (m / 8 ^ i % 8 = l)))

/-- Every port of a group is disabled, so its registers can be written (R89). -/
def groupWritable (s : State) (g : Nat) : Bool := (List.range 8).all (fun i => !s.isSet (PORT_CFG_EN (g * 8 + i)))

/-- A lane map has been written (R88). -/
def groupMapWritten (g : Nat) (s : State) : State :=
  let ok := laneMapOk (s.getF (GRP_LANEMAP_RX_MAP g)) && laneMapOk (s.getF (GRP_LANEMAP_TX_MAP g))
  portRefreshGroup g (s.setF (GRP_CFG_MAP_BAD g) (!ok).toNat)

/-- The frame of an input port that has not wholly arrived is truncated (R107): `m` octets of it had come. -/
def truncateInput (k m : Nat) (s : State) : State :=
  match s.units.reverse.findIdx? (fun u => u.inPort = k) with
  | none => s
  | some i =>
    match s.units.reverse[i]? with
    | none => s
    | some u =>
      let f := u.frame.take m ++ zeros (u.frame.length - m)
      refuse u.ch 0x16 { s with units := (s.units.reverse.set i { u with frame := f, truncated := true }).reverse }

/-- A loss at an input port with a frame still arriving. -/
def truncateOpt (k : Nat) (cut : Option Nat) (s : State) : State :=
  match cut with
  | none => s
  | some m => truncateInput k m s

/-- Loss of signal (R105, R109). -/
def portLos (k : Nat) (cut : Option Nat) (s : State) : State :=
  portRefresh k (truncateOpt k cut (portEvt k 2 0x0202 (s.setF (PORT_STAT_SIGNAL k) 0)))

/-- Loss of lock or alignment (R105): from UP the port goes DOWN for 1 ms; from HOLD it returns to ACQUIRE. -/
def portLockLost (k : Nat) (cut : Option Nat) (s : State) : State :=
  let st := s.portState k
  if st = 3 then
    let s := portEvt k 3 0x0203 s
    portRefresh k (truncateOpt k cut (s.modPort k (fun p => { p with retry := true })))
  else if st = 2 then
    (portEvt k 3 0x0203 (s.setF (PORT_STAT_LOCK k) 0)).setF (PORT_STAT_STATE k) 1
  else s

/-- PORT_ENTER_ACQUIRE (R104, R105): signal is present; a port in DOWN with nothing that keeps it there enters ACQUIRE. -/
def execPortEnterAcquire (k : Fin 72) (s : State) : Host.Outcome State Fault Refusal :=
  let s := portRefresh k.val (s.setF (PORT_STAT_SIGNAL k.val) 1)
  if s.portState k.val = 0 && (portReason s k.val).isNone then
    .next ((s.setF (PORT_STAT_STATE k.val) 1).setF (PORT_STAT_REASON k.val) 0)
  else .next s

/-- AN_COMPLETE (R93, R105): auto-negotiation and link training have completed on a port in ACQUIRE with `AN_EN` = 1. -/
def execAnComplete (k : Fin 72) (s : State) : Host.Outcome State Fault Refusal :=
  if s.portState k.val = 1 && s.isSet (PORT_CFG_AN_EN k.val) then .next (s.modPort k.val (fun p => { p with anDone := true }))
  else .next s

/-- A Z port whose lanes are locked sends INIT; it enters HOLD once it has also received its peer's (R296). -/
def sendInit (z : Nat) (s : State) : State :=
  let s := linkCtl z 1 (beBytes 8 Config.serial.toNat ++ beBytes 2 s.devId ++ [BitVec.ofNat 8 z]) s
  if (s.zp z).init then s.setF (PORT_STAT_STATE (64 + z)) 2 else s

/-- PORT_LOCK_GAINED (R104, R105): a port in ACQUIRE has lock and alignment and enters HOLD, with `AN_EN` = 1 only once
auto-negotiation has completed. -/
def execPortLockGained (k : Fin 72) (s : State) : Host.Outcome State Fault Refusal :=
  if s.portState k.val = 1 && (!s.isSet (PORT_CFG_AN_EN k.val) || (s.port k.val).anDone) then
    let s := s.setF (PORT_STAT_LOCK k.val) 1
    if isZ k.val then .next (sendInit (k.val - 64) s) else .next (s.setF (PORT_STAT_STATE k.val) 2)
  else .next s

/-- Is the port's partner an UP port of the same family on the other side? (R102) -/
def partnerOk (s : State) (k : Nat) : Bool :=
  let p := s.getF (PORT_TIMING_PARTNER k)
  s.isSet (PORT_TIMING_THROUGH k) && s.portUp p && decide (p / 32 ≠ k / 32)
    && decide (portFamily (s.getF (PORT_CFG_TYPE p)) = portFamily (s.getF (PORT_CFG_TYPE k)))
    && decide (portFamily (s.getF (PORT_CFG_TYPE k)) = 1 ∨ portFamily (s.getF (PORT_CFG_TYPE k)) = 2)

/-- Ports through-timed from a port that is no longer UP transmit reference-timed (R102). -/
def partnersLost (k : Nat) (s : State) : State :=
  { s with ports := s.ports.filterMap (fun e =>
      let p := if decide (s.getF (PORT_TIMING_PARTNER e.1) = k) then { e.2 with slaved := false } else e.2
      if p = Port.reset then none else some (e.1, p)) }

/-- PORT_UP_HOLD_EXPIRY (R104): UP_HOLD ms of continuous lock have passed; a through-timed port takes its partner's
frequency. -/
def execPortUpHoldExpiry (k : Fin 72) (s : State) : Host.Outcome State Fault Refusal :=
  if s.portState k.val = 2 then
    let s := portEvt k.val 0 0 (s.setF (PORT_STAT_STATE k.val) 3)
    .next (s.modPort k.val (fun p => { p with slaved := partnerOk s k.val }))
  else .next s

/-- PORT_LOCK_RETRY_EXPIRY (R105): the 1 ms hold after a loss of lock from UP ends. -/
def execPortLockRetryExpiry (k : Fin 72) (s : State) : Host.Outcome State Fault Refusal :=
  .next (portRefresh k.val (s.modPort k.val (fun p => { p with retry := false })))

/-- A condition that raises an event and does not change the port's state (R105, R109). -/
def portCondition (k : Nat) (f : Fld) (bit code : Nat) (on : Bool) (s : State) : State :=
  let old := s.isSet f
  let s := s.setF f on.toNat
  if on && !old then portEvt k bit code s else s

/-- PORT_HIBER (R105, R109). -/
def execPortHiber (k : Fin 72) (on : Bool) (s : State) : Host.Outcome State Fault Refusal :=
  .next (portCondition k.val (PORT_STAT_HIBER k.val) 4 0x0204 on s)

/-- PORT_SD (R105, R109). -/
def execPortSd (k : Fin 72) (on : Bool) (s : State) : Host.Outcome State Fault Refusal :=
  .next (portCondition k.val (PORT_STAT_SD k.val) 5 0x0205 on s)

/-- PORT_AIS_RX (R95, R98, R109). -/
def execPortAisRx (k : Fin 72) (on : Bool) (s : State) : Host.Outcome State Fault Refusal :=
  .next (portCondition k.val (PORT_STAT_AIS_RX k.val) 7 0x0207 on s)

/-- PORT_REMOTE (R93, R109). -/
def execPortRemote (k : Fin 72) (on : Bool) (s : State) : Host.Outcome State Fault Refusal :=
  .next (portCondition k.val (PORT_STAT_REMOTE k.val) 8 0x0208 on s)

/-- PORT_FEC_UNCORR (R109): corrected symbols and uncorrectable codewords of the port's FEC are counted. -/
def execPortFecUncorr (k : Fin 72) (corrected uncorrectable : Nat) (s : State) : Host.Outcome State Fault Refusal :=
  let s := (s.cnt64 (PORT_FEC_CORR_LO k.val) corrected).cntSat (PORT_FEC_UNCORR_UNCORR k.val) uncorrectable
  if uncorrectable = 0 then .next s else .next (portEvt k.val 6 0x0206 s)

/-- PORT_REFCLK (R100, R109): a SerDes reference is lost or returns; recorded once for a loss that clocks an enabled port. -/
def execPortRefclk (ref : Fin 4) (present : Bool) (s : State) : Host.Outcome State Fault Refusal :=
  if present then
    let s : State := { s with refLost := s.refLost.filter (· ≠ ref.val) }
    .next ((List.range 72).foldl (fun s k => portRefresh k s) s)
  else if s.refLost.contains ref.val then .next s
  else
    let s : State := { s with refLost := ref.val :: s.refLost }
    let hit := (List.range 72).any (fun k => s.isSet (PORT_CFG_EN k)
      && decide ((if isZ k then 2 else s.getF (GRP_CFG_REFSEL (portGroup k))) = ref.val))
    let s := if hit then s.report unitPorts 0x020B noPath ref.val else s
    .next ((List.range 72).foldl (fun s k => portRefresh k s) s)

/-- PARTNER_RETURN (R102): the partner of a through-timed port is UP again: the port slews back to its frequency. -/
def execPartnerReturn (k : Fin 64) (s : State) : Host.Outcome State Fault Refusal :=
  if s.portUp k.val && partnerOk s k.val then .next (s.modPort k.val (fun p => { p with slaved := true })) else .next s

end Sys2Proof.Machine
end

