-- ==== Sys2Proof/Machine/Gate.lean ====
section
/-!
DEFINITION. Gates and admission (spec/05 R117 to R138, spec/01 R22 to R27, spec/06 R91, R152, R161): the program on a frame's
header, its tables, punts, and the checks that accept a frame.
-/

namespace Sys2Proof.Machine

/-! ### Instruction words and metadata -/

/-- A field of a Gate instruction word (R118). -/
def gateField (w : GateWord) (hi lo : Nat) : Nat := w.toNat / 2 ^ lo % 2 ^ (hi + 1 - lo)

/-- A Gate instruction word from its fields (R118). -/
def gateWord (op gn gf d s x imm : Nat) : GateWord :=
  BitVec.ofNat 64 (op * 2 ^ 58 + gn * 2 ^ 57 + gf * 2 ^ 54 + d * 2 ^ 50 + s * 2 ^ 46 + x * 2 ^ 32 + imm)

/-- VLAN tags before the first other type field, at most 2 (R120 item 2). -/
def vlanCount (f : List Byte) : Nat :=
  if isVlan (be f 12 2) then (if isVlan (be f 16 2) then 2 else 1) else 0

/-- Offset of the type field after the VLAN tags. -/
def typeAt (f : List Byte) : Nat := 12 + 4 * vlanCount f

/-- Octets of the SecTAG by its TCI (R144). -/
def secTagLen (tci : Nat) : Nat := if tci / 32 % 2 = 1 then 16 else 8

/-- A well-formed SecTAG follows the VLAN tags (R120); `f` holds the frame with its FCS. -/
def secTagOk (f : List Byte) : Bool :=
  let o := typeAt f
  let tci := at' f (o + 2)
  let bit := fun i => tci / 2 ^ i % 2 = 1
  let sl := at' f (o + 3)
  let len := f.length - 4 - 16 - (o + secTagLen tci)
  decide (be f o 2 = 0x88E5) && !bit 7 && !(bit 6 && bit 5) && !(bit 4 && bit 5) && (!bit 2 || bit 3) && decide (sl < 64)
    && decide (o + secTagLen tci + 16 + 4 ≤ f.length) && decide (sl = if len < 48 then len else 0)

/-- SCI of a frame with a SecTAG (R120 items 9 and 10). -/
def frameSci (f : List Byte) : Nat :=
  let o := typeAt f
  if at' f (o + 2) / 32 % 2 = 1 then be f (o + 8) 8 else be f 6 6 * 65536 + 1

/-- META (R120). -/
def gateMeta (port : Nat) (f : List Byte) (item : Nat) : Nat :=
  let c := vlanCount f
  let o := typeAt f
  let rtag := decide (be f o 2 = 0xF1C1)
  if item = 0 then port else if item = 1 then f.length else if item = 2 then c else if item = 3 then be f o 2
  else if item = 4 then o + 2 else if item = 5 then (if 1 ≤ c then be f 14 2 else 0)
  else if item = 6 then (if 2 ≤ c then be f 18 2 else 0)
  else if item = 7 then (secTagOk f).toNat
  else if item = 8 then (if secTagOk f then at' f (o + 2) else 0)
  else if item = 9 then (if secTagOk f then frameSci f / 2 ^ 32 else 0)
  else if item = 10 then (if secTagOk f then frameSci f % 2 ^ 32 else 0)
  else if item = 11 then rtag.toNat
  else if item = 12 then (if rtag then be f (o + 4) 2 else 0)
  else 0

/-! ### Running a program -/

/-- What a program has decided (R122). -/
inductive Verdict where
  | setch (n : Nat)
  | refuse (c : Nat)
  | punt (q : Nat)
deriving DecidableEq, Repr

/-- A frame's state in its Gate (R117): registers, flags as numbers 16 to 23 of one file, results of the last stage's lookups, the
verdict, the first stage not suppressed. -/
structure GateRun where
  regs : Table Nat
  late : List (Nat × Nat)
  verdict : Option Verdict
  resume : Nat
deriving DecidableEq, Repr

/-- A work register or flag as the stage's entry saw it; f0 is always 1. -/
def gateReg (r : GateRun) (i : Nat) : Nat := if i = 16 then 1 else tblGet 0 i r.regs

/-- Registers after some writes, in order. -/
def gateWrites (t : Table Nat) (l : List (Nat × Nat)) : Table Nat := l.foldl (fun t e => tblSet 0 e.1 e.2 t) t

/-- The key of a lookup: n + 1 registers from S, most significant first, padded to 128 bits (R119, R124). -/
def gateKey (r : GateRun) (s n : Nat) : BitVec 128 :=
  BitVec.ofNat 128 ((List.range (n + 1)).foldl (fun a i => a * 2 ^ 32 + gateReg r (s + i)) 0 * 2 ^ (32 * (3 - n)))

/-- An exact lookup (R124); an entry with an ECC error misses (R140). -/
def gateExactHit (t : List GateEntry) (tag : Nat) (k : BitVec 128) : Option Word :=
  (t.find? (fun e => e.tag = tag && e.key = k && !e.bad)).map (·.action)

/-- A ternary lookup: the lowest-indexed match (R119, R124). -/
def gateTernHit (t : List GateEntry) (tag : Nat) (k : BitVec 128) : Option Word :=
  (t.find? (fun e => e.tag = tag && (e.key &&& e.mask) = (k &&& e.mask) && !e.bad)).map (·.action)

/-- What one instruction does: writes seen at the stage's exit, results seen a stage later, a verdict, a jump. -/
structure GateEff where
  writes : List (Nat × Nat)
  late : List (Nat × Nat)
  verdict : Option Verdict
  jump : Nat
deriving DecidableEq, Repr

/-- No effect. -/
def gateNone : GateEff := { writes := [], late := [], verdict := none, jump := 0 }

/-- One instruction (R118, R119). -/
def gateInstr (port : Nat) (f : List Byte) (ex te : List GateEntry) (r : GateRun) (w : GateWord) : GateEff :=
  let gn := gateField w 57 57
  let gf := gateField w 56 54
  let d := gateField w 53 50
  let sr := gateField w 49 46
  let x := gateField w 45 32
  let imm := gateField w 31 0
  let sv := gateReg r sr
  let put := fun (v : Nat) => { gateNone with writes := [(d, v % 2 ^ 32)] }
  let flag := fun (b : Bool) => { gateNone with writes := [(16 + d % 8, b.toNat)] }
  let look := fun (hit : Option Word) =>
    let fl := 16 + x / 64 % 8
    match hit with
    | some a => { gateNone with late := [(d, a.toNat), (fl, 1)] }
    | none => { gateNone with late := [(fl, 0)] }
  if gateReg r (16 + gf) = gn then gateNone
  else match gateField w 63 58 with
    | 0x01 => put (beVal (slice (f.take 128) (x / 128) (x % 4 + 1)) &&& imm)
    | 0x02 => put (gateMeta port f (x % 64) &&& imm)
    | 0x03 => put imm
    | 0x04 => put (sv &&& imm)
    | 0x05 => put (sv ||| imm)
    | 0x06 => put (sv * 2 ^ (x % 32))
    | 0x07 => put (sv / 2 ^ (x % 32))
    | 0x08 => put (sv + imm)
    | 0x09 => flag (decide (sv = imm))
    | 0x0A => flag (decide (sv < imm))
    | 0x0B => flag (decide ((sv &&& imm) ≠ 0))
    | 0x10 => look (gateExactHit ex (x / 4 % 16) (gateKey r sr (x % 4)))
    | 0x11 => look (gateTernHit te (x / 4 % 16) (gateKey r sr (x % 4)))
    | 0x18 => { gateNone with verdict := some (.setch ((if x / 2 ^ 13 % 2 = 1 then sv else imm) % 512)) }
    | 0x19 => { gateNone with verdict := some (.refuse (0x80 + imm % 16)) }
    | 0x1A => { gateNone with verdict := some (.punt (imm % 8)) }
    | 0x1B => { gateNone with jump := imm % 16 }
    | _ => gateNone

/-- The program starts (R117). -/
def gateStart : GateRun := { regs := [], late := [], verdict := none, resume := 0 }

/-- One stage (R121, R122): reads at entry, writes at exit, then the lookups of the stage before. -/
def gateStage (port : Nat) (f : List Byte) (ex te : List GateEntry) (prog : List GateWord) (r : GateRun) (k : Nat) : GateRun :=
  let es := if k < r.resume then [] else ((prog.drop (16 * k)).take 16).map (gateInstr port f ex te r)
  { regs := gateWrites (gateWrites r.regs (es.flatMap (·.writes))) r.late
    late := es.flatMap (·.late)
    verdict := match r.verdict with
      | some v => some v
      | none => es.findSome? (·.verdict)
    resume := es.foldl (fun a e => max a e.jump) r.resume }

/-- A whole program: its verdict, none where the frame is unmatched (R122). -/
def gateProgram (port : Nat) (f : List Byte) (ex te : List GateEntry) (prog : List GateWord) : Option Verdict :=
  ((List.range 16).foldl (gateStage port f ex te prog) gateStart).verdict

/-- A program that may be loaded (R119, R123). -/
def gateCheck (prog : List GateWord) : Bool :=
  let op := fun w => gateField w 63 58
  decide (prog.length ≤ 256)
    && prog.all (fun w => decide (op w ≤ 0x0B) || decide (op w = 0x10) || decide (op w = 0x11)
      || (decide (0x18 ≤ op w) && decide (op w ≤ 0x1B)))
    && (prog.mapIdx (fun i w => op w ≠ 0x1B || decide (i / 16 < gateField w 31 0 % 16))).all id
    && decide ((prog.filter (fun w => op w = 0x10)).length ≤ 4)
    && decide ((prog.filter (fun w => op w = 0x11)).length ≤ 2)
    && prog.all (fun w => op w ≠ 0x01 || decide (gateField w 45 39 + gateField w 33 32 ≤ 127))
    && prog.all (fun w => (op w ≠ 0x10 && op w ≠ 0x11) || decide (gateField w 49 46 + gateField w 33 32 ≤ 15))

/-! ### Punts (R137, R138) -/

/-- Punt queue q. -/
def State.puntQ (s : State) (q : Nat) : PuntQueue := tblGet PuntQueue.reset q s.punt

/-- A frame is punted: written to the next free descriptor, or refused, as it is while the PCIe link is down (R544). The consumer index is the second word of the queue's
index pair in host memory. -/
def puntFrame (q why bank : Nat) (g : GateFrame) (s : State) : State :=
  let p := s.puntQ q
  if !p.en then portRefuse g.port 0x0A s
  else
    let cons := leVal (hostRead s (p.idx + 4) 4)
    if !s.power.pcie || decide (p.descs ≤ (p.prod + 2 ^ 32 - cons) % 2 ^ 32) then
      let s := portRefuse g.port 0x07 s
      let due := match p.fullBeat with
        | none => true
        | some b => decide (1024 ≤ (s.beat - b).toNat)
      if due then
        ({ s with punt := tblSet PuntQueue.reset q { p with fullBeat := some s.beat } s.punt }).report unitChan 0x0303
          (portPath g.port) q
      else s
    else
      let h := leBytes 8 s.stamp.toNat ++ [BitVec.ofNat 8 g.port, BitVec.ofNat 8 q, BitVec.ofNat 8 why, BitVec.ofNat 8 bank]
        ++ leBytes 2 g.bytes.length ++ [0, 0]
      let s := hostWrite (p.ring + p.prod % max 1 p.descs * p.size) (h ++ g.bytes) s
      let n := (p.prod + 1) % 2 ^ 32
      let s : State := hostWrite p.idx (leBytes 4 n)
        { s with punt := tblSet PuntQueue.reset q { p with prod := n } s.punt }
      bellPulse 713 (portRefuse g.port 0x09 s)

/-! ### Admission -/

/-- Rails of a direction that may take a block (R572): in the pool (R528), tested, in a shed that is ON. Outbound RL0–RL19,
inbound RL20–RL39. -/
def railPool (s : State) (inbound : Bool) : List Nat :=
  ((List.range 20).map (· + 20 * inbound.toNat)).filter
    (fun r => (s.rd64 FARR_RAIL_OUT_LO).toNat / 2 ^ r % 2 = 0 && !s.untested.contains r && s.shedOn (16 + r / 5))

/-- The AES key of a slot as a suite uses it (R220). -/
def suiteKey (suite : Nat) (k : List Byte) : List Byte := if suite % 2 = 0 then k.take 16 else k

/-- Soft and hard limits of the outbound ASN (R135). -/
def asnLimits (s : State) (n : Nat) : Nat × Nat :=
  if s.chMode n = 0 && decide (s.getF (FRM_POL_LO_SUITE n) < 2) then (2 ^ 31, 2 ^ 32 - 2) else (2 ^ 62, 2 ^ 64 - 2)

/-- Buffer units of the traffic buffer of a direction (R131: 32 banks of 512 units). -/
def bufTotal : Nat := 16384

/-- Most buffer a channel may hold (CH_POLICY2: 0 means BUF_MIN). -/
def bufMax (s : State) (n : Nat) : Nat :=
  if s.getF (CH_POLICY2_BUF_MAX n) = 0 then s.getF (CH_POLICY_BUF_MIN n) else s.getF (CH_POLICY2_BUF_MAX n)

/-- Shared units in use: what each channel holds above its BUF_MIN. -/
def sharedUsed (s : State) : Nat :=
  s.liveChans.foldl (fun a n => a + (s.bufHeld n - s.getF (CH_POLICY_BUF_MIN n))) 0

/-- The shared pool: the buffer less every guaranteed part. -/
def sharedPool (s : State) : Nat := bufTotal - s.liveChans.foldl (fun a n => a + s.getF (CH_POLICY_BUF_MIN n)) 0

/-- NO_BUFFER (R106, R131). -/
def noBuffer (s : State) (n need : Nat) : Bool :=
  let h := s.bufHeld n
  let m := s.getF (CH_POLICY_BUF_MIN n)
  decide (bufMax s n < h + need)
    || decide (sharedPool s < sharedUsed s + ((h + need - m) - (h - m)) ∧ m < h + need)
    || !s.portUp (32 + s.txPort n)

/-- The path has a key in force: its current slot is loaded (R24 check 3). -/
def outKeyed (s : State) (n : Nat) : Bool :=
  s.isSet (KB_ROLES_CUR_V n 0) && decide ((s.slot (slotOf n (s.getF (KB_ROLES_CUR_SLOT n 0)))).kind ≠ 0)

/-- A path that may not send (R19, R21, R24 check 5, R321). -/
def pathStopped (s : State) (n : Nat) : Bool :=
  s.muted n || !s.isSet (CH_STAT_LEASE n) || (s.chan n).awaitSw

/-- The sheds on an outbound frame's path are ON and a rail may take it (R22); `port` none for a forwarded frame. -/
def shedsOk (s : State) (n : Nat) (port : Option Nat) : Bool :=
  (match port with
    | some k => portShedOn s k
    | none => true)
    && portShedOn s (32 + s.txPort n) && !(railPool s false).isEmpty

/-- Does the ASN wait for the reservation of a persisted key? (R241) -/
def resvLate (s : State) (n : Nat) (asn : Nat) : Bool :=
  s.isSet (KB_ROLES_PERSIST n 0) && decide ((s.chan n).resvM * 2 ^ 32 ≤ asn)

/-- The reservation is raised in time (R241). -/
def resvRaise (n : Nat) (s : State) : State :=
  let c := s.chan n
  if s.isSet (KB_ROLES_PERSIST n 0) && !c.resvBusy && decide (c.resvM * 2 ^ 32 - 2 ^ 31 ≤ (s.rd64 (CH_OUT_ASN_LO n)).toNat) then
    let m := c.resvM + 1
    loftEnqueue (loftResvWord n) (BitVec.ofNat 64 (s.getF (KB_EPOCH_EPOCH n 0) * 2 ^ 32 + m)) true (.resv n m)
      (s.modChan n (fun c => { c with resvBusy := true }))
  else s

/-- What follows a rise of OUT_ASN: the soft limit (R135) and the reservation. -/
def asnRisen (n : Nat) (s : State) : State :=
  let s := resvRaise n s
  if decide ((asnLimits s n).1 ≤ (s.rd64 (CH_OUT_ASN_LO n)).toNat) && !(s.chan n).softSeen then
    let s := s.modChan n (fun c => { c with softSeen := true })
    startExchange n ((chEvt n (CH_EVT_ASN_SOFT n) s).report unitChan 0x0301 n n)
  else s

/-- The unit of a frame of a channel, under the key in force. -/
def mkUnit (s : State) (n port : Nat) (asn stamp : DWord) (frame fcs : List Byte) : OutUnit :=
  let j := slotOf n (s.getF (KB_ROLES_CUR_SLOT n 0))
  { ch := n, asn := asn, stamp := stamp, slot := j, an := (s.slot j).an, epoch := (s.slot j).epoch, inPort := port,
    pol := s.rd (FRM_POL_LO n), frame := frame, fcs := fcs, bufUnits := (frame.length + 4 + 255) / 256, blocks := 0,
    rail := none, onLine := false, stomped := false, truncated := false, placed := 0 }

/-- An accepted frame is counted (R139). -/
def countAccept (n : Nat) (len : Nat) (s : State) : State := outStat n 1 len (outStat n 0 1 s)

/-- ASSIGN (R276). -/
def sendAssign (u : OutUnit) (s : State) : State :=
  let b := (u.stamp >>> 16).toNat
  let s : State := { s with twin := { s.twin with assigns := tblSet 0 b (tblGet 0 b s.twin.assigns + 1) s.twin.assigns } }
  let rec' := twinHead 1 u.ch ++ beBytes 4 u.asn.toNat ++ beBytes 4 u.stamp.toNat ++ slice u.fcs 0 4
    ++ beBytes 2 (u.frame.length + 4)
  twinSend rec' (witnessSend u.ch rec' s)

/-- The device copies a lead's decisions for this channel (R277): its frames wait for their ASSIGN record. -/
def twinWaits (s : State) (n : Nat) : Bool :=
  (s.chTwin n && decide (s.getF TW_STAT_STATE = 3 ∨ s.getF TW_STAT_STATE = 6)) || isWitness s n

/-- The slot of the association under which a frame of this Yardstamp is processed (R16): the previous key's before the beat at
which the outbound epoch began. -/
def slotAt (s : State) (n : Nat) (stamp : DWord) : Nat :=
  if s.isSet (KB_ROLES_PREV_V n 0) && !stampAtOrAfter stamp (s.chan n).beginOut then
    slotOf n (s.getF (KB_ROLES_PREV_SLOT n 0))
  else slotOf n (s.getF (KB_ROLES_CUR_SLOT n 0))

/-- A unit put among those of its channel by rising ASN, behind what is on the line. -/
def unitInsert (u : OutUnit) : List OutUnit → List OutUnit
  | [] => [u]
  | v :: r =>
    if v.ch = u.ch ∧ v.epoch = u.epoch ∧ u.asn.toNat < v.asn.toNat ∧ !v.onLine ∧ v.placed = 0 then u :: v :: r
    else v :: unitInsert u r

/-- A pending frame takes the lead's ASN and Yardstamp (R277). -/
def twinGive (u : OutUnit) (asn stamp : DWord) (s : State) : State :=
  let j := slotAt s u.ch stamp
  let u := { u with asn := asn, stamp := stamp, slot := j, an := (s.slot j).an, epoch := (s.slot j).epoch }
  let s : State := { s with units := unitInsert u s.units }
  let s := s.modTw u.ch (fun t => { t with fEpoch := some u.epoch })
  asnRisen u.ch ((s.wr64 (CH_OUT_ASN_LO u.ch) (asn + 1)).wr64 (TWC_F_COUNT_LO u.ch) (asn + 1))

/-- F_COUNT for a frame of this Yardstamp: 0 where its epoch has given no ASN yet (R134, R277). -/
def fBase (s : State) (n : Nat) (stamp : DWord) : DWord :=
  if (s.chan n).tw.fEpoch.any (fun e => decide (e = (s.slot (slotAt s n stamp)).epoch)) then s.rd64 (TWC_F_COUNT_LO n) else 0

/-- ASSIGN records meet pending frames (R277): each matches the oldest pending frame of its channel with equal length and FCS;
those that match none are kept. -/
def twinMatchList (n : Nat) : List (DWord × DWord × Nat × Nat) → State → List (DWord × DWord × Nat × Nat) × State
  | [], s => ([], s)
  | x :: r, s =>
    match s.pend.findIdx? (fun u => decide (u.ch = n) && decide (u.frame.length + 4 = x.2.2.2) && decide (be u.fcs 0 4 = x.2.2.1)) with
    | some i =>
      match s.pend[i]? with
      | some u => twinMatchList n r (twinGive u x.2.1 x.1 { s with pend := s.pend.eraseIdx i })
      | none => (x :: r, s)
    | none =>
      let y := twinMatchList n r s
      (x :: y.1, y.2)

/-- The ASSIGN records of a channel are matched. -/
def twinMatch (n : Nat) (s : State) : State :=
  let y := twinMatchList n (s.chan n).tw.unmatched s
  y.2.modTw n (fun t => { t with unmatched := y.1 })

/-- A frame is accepted (R25, R27): its Yardstamp and the next ASN. A follower holds it without an ASN (R277); in FREE_RUN it
takes F_COUNT (R279). -/
def accept (n port : Nat) (frame fcs : List Byte) (s : State) : State :=
  let s := countAccept n (frame.length + 4) s
  if twinWaits s n then
    twinMatch n { s with pend := s.pend ++ [mkUnit s n port 0 s.stamp frame fcs] }
  else if s.chTwin n && decide (s.getF TW_STAT_STATE = 4) then
    twCnt n 3 (twinGive (mkUnit s n port 0 s.stamp frame fcs) (fBase s n s.stamp) s.stamp s)
  else
    let asn := s.rd64 (CH_OUT_ASN_LO n)
    let u := mkUnit s n port asn s.stamp frame fcs
    let s : State := { s with units := s.units ++ [u] }
    let s := s.wr64 (CH_OUT_ASN_LO n) (asn + 1)
    let s := if s.chTwin n && decide (s.getF TW_STAT_STATE = 2) then sendAssign u s else s
    asnRisen n s

/-- Admission from check 2 on (R24, R130); `port` is the input port, none for a forwarded frame. -/
def admitUnit (n : Nat) (port : Option Nat) (frame fcs : List Byte) (s : State) : State :=
  let s := engineTake n 0 s
  let asn := (s.rd64 (CH_OUT_ASN_LO n)).toNat
  if !(s.chOpen n && s.isSet (CH_CFG_OUT_EN n)) then refuse n 0x10 s
  else if !outKeyed s n then refuse n 0x11 s
  else if (asnLimits s n).2 < asn && !twinWaits s n then
    refuse n 0x11 ((chEvt n (CH_EVT_ASN_HARD n) s).report unitChan 0x0302 n n)
  else if resvLate s n asn && !twinWaits s n then refuse n 0x11 (s.report unitTack 0x0506 n n)
  else if !shedsOk s n port then refuse n 0x12 s
  else if pathStopped s n then refuse n 0x13 s
  else if noBuffer s n ((frame.length + 4 + 255) / 256) then refuse n 0x14 s
  else accept n (port.getD noPath) frame fcs s

/-! ### IEEE 802.1CB recovery (R161) -/

/-- The vector recovery algorithm on one number: accepted or not, and the history after it. -/
def cbStep (len : Nat) (last : Option Nat) (hist : List Bool) (seq : Nat) : Bool × Option Nat × List Bool :=
  match last with
  | none => (true, some seq, true :: List.replicate (len - 1) false)
  | some l =>
    let d := (seq + 65536 - l) % 65536
    if d < 32768 then
      if d = 0 then (false, last, hist)
      else if len ≤ d then (false, last, hist)
      else (true, some seq, (true :: (List.replicate (d - 1) false ++ hist)).take len)
    else
      let back := 65536 - d
      if len ≤ back then (false, last, hist)
      else if hist.getD back false then (false, last, hist)
      else (true, last, hist.set back true)

/-- Recovery on a frame assigned to a channel: the frame without its R-TAG, or the refusal code (R161). -/
def cbFilter (n : Nat) (f : List Byte) (s : State) : Option (List Byte) × State :=
  if s.isSet (FRM_POL_LO_CB_ELIM n) && s.chMode n = 0 && decide (be f (typeAt f) 2 = 0xF1C1) then
    let c := s.chan n
    let r := cbStep (s.getF (FRM_POL_LO_CB_HIST n) + 1) c.cbLast c.cbHist (be f (typeAt f + 4) 2)
    let s := s.modChan n (fun c => { c with cbLast := r.2.1, cbHist := r.2.2 })
    (if r.1 then some (f.take (typeAt f) ++ f.drop (typeAt f + 6)) else none, s)
  else (some f, s)

/-- CB_HISTORY_RESET (R161): 1,024 beats have passed without a tagged frame. -/
def execCbHistoryReset (n : Fin 512) (s : State) : Host.Outcome State Fault Refusal :=
  .next (s.modChan n.val (fun c => { c with cbLast := none, cbHist := [] }))

/-! ### Cycle c + 16 (R127 to R130) -/

/-- A relay forwards the frames assigned to this channel (R330). -/
def isRelay (s : State) (n : Nat) : Bool := s.isSet (FAB_FWD_FWD_EN n) && !s.isSet (FAB_FWD_ROLE n)

/-- SETCH on the plain side (R129, R161, R330). -/
def gateAssign (n bank : Nat) (g : GateFrame) (s : State) : State :=
  let relay := isRelay s n
  let mask := if relay then s.getF (FAB_FWD_MASK_FWD_MASK n) else s.getF (CH_BIND_INGRESS_MASK n)
  let maxLen := if relay then s.getF (FAB_FWD_LEN_FWD_LEN n) else s.getF (CH_POLICY_MAX_LEN n)
  if mask / 2 ^ g.port % 2 = 0 then portRefuse g.port 0x05 s
  else if !relay && !(decide (s.chMode n = 0) || decide (s.chMode n = 1)) then portRefuse g.port 0x05 s
  else if maxLen < g.bytes.length then portRefuse g.port 0x06 s
  else if relay then
    if (fabRoutePort s (s.getF (FAB_FWD_PEER_DEV n))).isNone then portRefuse g.port 0x05 s
    else fabSend (s.getF (FAB_FWD_PEER_DEV n)) 8 0 0 0 (fwdBody (s.getF (FAB_FWD_PEER_CH n)) g.port bank g.bytes) s
  else
    let len := g.bytes.length - 4
    match cbFilter n (g.bytes.take len) s with
    | (some f, s) => admitUnit n (some g.port) f (g.bytes.drop len) s
    | (none, s) => portRefuse g.port (0x80 + s.getF (FRM_POL_LO_CB_CODE n)) s

/-- Does a channel receive frames on this cipher-side port? (R152, R274) -/
def boundTo (s : State) (n c : Nat) : Bool :=
  decide (s.getF (CH_CFG_CIPHER_PORT n) = c) || (s.chTwin n && decide (s.getF (TWC_CFG_PATH2_PORT n) = c))

/-- The path a cipher-side port carries for a channel (R274). -/
def pathOf (s : State) (n c : Nat) : Nat :=
  if s.chTwin n && decide (s.getF (TWC_CFG_PATH2_PORT n) = c) && decide (s.getF (CH_CFG_CIPHER_PORT n) ≠ c) then 2 else 1

/-- SETCH on the cipher side (R152): the unit waits for its checks, with its channel or with none. -/
def gateIdentify (n : Nat) (g : GateFrame) (s : State) : State :=
  let ok := decide (s.chMode n = 0) && boundTo s n (g.port - 32)
  { s with inq := s.inq ++ [{ port := g.port - 32, ch := if ok then some n else none, cell := false, bytes := g.bytes, slot := 0 }] }

/-- The divert of cipher-side Gates (R127): Bridle frames to the responder, EAPOL to punt queue 0. -/
def gateDivert (g : GateFrame) (s : State) : Option State :=
  let t := be g.bytes (typeAt g.bytes) 2
  let body := (g.bytes.take (g.bytes.length - 4)).drop (typeAt g.bytes + 2)
  if g.port < 32 then none
  else if t = 0x88B5 then
    some (brSegment (pathOf s (be body 2 2) (g.port - 32)) body s)
  else if t = 0x888E then some (puntFrame 0 0 (s.getF (GATE_CFG_ACTIVE (portGroup g.port))) g s)
  else none

/-- GATE_RUN (R126 to R130): the next frame of Gate g enters stage 0 under the bank named now and meets its verdict. -/
def execGateRun (g : Fin 8) (s : State) : Host.Outcome State Fault Refusal :=
  match s.gateQ.findIdx? (fun x => portGroup x.port = g.val) with
  | none => .next s
  | some i =>
    match s.gateQ[i]? with
    | none => .next s
    | some x =>
      let s : State := { s with gateQ := s.gateQ.eraseIdx i }
      let bank := s.getF (GATE_CFG_ACTIVE g.val)
      let s := s.setF (GATE_BANK_IN_USE g.val) bank
      match gateDivert x s with
      | some t => .next t
      | none =>
        let valid := if bank = 1 then s.isSet (GATE_BANK_VALID1 g.val) else s.isSet (GATE_BANK_VALID0 g.val)
        if !(s.isSet (GATE_CFG_EN g.val) && valid) then .next (portRefuse x.port 0x03 s)
        else
          let v := gateProgram x.port x.bytes (tblGet [] g.val s.gateExact) (tblGet [] g.val s.gateTern)
            (tblGet [] (2 * g.val + bank) s.gateProg)
          match v with
          | some (.setch n) => .next (if x.port < 32 then gateAssign n bank x s else gateIdentify n x s)
          | some (.refuse c) => .next (portRefuse x.port c s)
          | some (.punt q) => .next (puntFrame q 0x09 bank x s)
          | none =>
            if s.isSet (GATE_CFG_UNMATCHED g.val) then .next (puntFrame (s.getF (GATE_CFG_UNM_Q g.val)) 0x04 bank x s)
            else .next (portRefuse x.port 0x04 s)

/-- PLAIN_FRAME_RX (R91, R92): an Ethernet frame arrives on an UP port; its size and FCS are checked before the Gate, and MAC
control frames end here. A cipher-side port that carries cells runs no MAC (R162). -/
def execPlainFrameRx (k : Fin 64) (bytes : List Byte) (s : State) : Host.Outcome State Fault Refusal :=
  let k := k.val
  let eth := decide (portFamily (s.getF (PORT_CFG_TYPE k)) = 0) && !(decide (32 ≤ k) && s.isSet (CELL_PORT_CFG_EN (k - 32)))
  if !(s.portUp k && eth) then .next s
  else if bytes.length < 64 ∨ 9600 < bytes.length then .next (portRefuse k 0x01 s)
  else
    let body := bytes.take (bytes.length - 4)
    if fcsOf body ≠ bytes.drop (bytes.length - 4) then .next (portRefuse k 0x02 s)
    else if be bytes 12 2 = 0x8808 then .next (portRefuse k 0x0B s)
    else .next { s with gateQ := s.gateQ ++ [{ port := k, bytes := bytes }] }

end Sys2Proof.Machine
end

