-- ==== Sys2Proof/Machine/Frame.lean ====
section
/-!
DEFINITION. Frame mode (spec/06): the protected frame, the rails' blocks, the cipher-side port's order of sending, and the checks
of an inbound frame.
-/

namespace Sys2Proof.Machine

/-! ### The protected frame (R143 to R146) -/

/-- A field of a mode policy word. -/
def polField (w : Word) (hi lo : Nat) : Nat := w.toNat / 2 ^ lo % 2 ^ (hi + 1 - lo)

/-- Suite of a policy word: 0 and 1 without, 2 and 3 with extended packet numbers; odd ones with 256-bit keys. -/
def polSuite (w : Word) : Nat := polField w 31 30

/-- Octets of the confidentiality offset (R141). -/
def coOctets (co : Nat) : Nat := if co = 1 then 30 else if co = 2 then 50 else 0

/-- SCI of a channel's outbound frames: its own, or the one of the source address where SC = 0 (R145). -/
def outSci (s : State) (n : Nat) (pol : Word) (frame : List Byte) : Nat :=
  if polField pol 25 25 = 1 then (s.rd64 (CH_SCI n 0)).toNat else be frame 6 6 * 65536 + 1

/-- The IV of a frame (R145). -/
def frameIv (s : State) (n d j : Nat) (suite sci pn : Nat) : Nat :=
  if suite < 2 then sci * 2 ^ 32 + pn % 2 ^ 32
  else (dirSsci s n d j * 2 ^ 64 + pn % 2 ^ 64) ^^^ beVal (dirSalt s n d j)

/-- The parts of an outbound frame: addresses and clear tags, SecTAG, clear octets, ciphertext, ICV (R143, R144). -/
structure Protected where
  head : List Byte
  secTag : List Byte
  clear : List Byte
  cipher : List Byte
  icv : List Byte
deriving DecidableEq, Repr

/-- The protected frame of a unit (R143 to R147). -/
def protect (s : State) (u : OutUnit) : Protected :=
  let tags := min (polField u.pol 27 26) (vlanCount u.frame)
  let h := 12 + 4 * tags
  let sec := u.frame.drop h
  let pn := u.asn.toNat + 1
  let sc := polField u.pol 25 25
  let tci := polField u.pol 24 24 * 64 + sc * 32 + polField u.pol 23 23 * 16 + 12 + u.an % 4
  let sl := if sec.length < 48 then sec.length else 0
  let tag := [0x88, 0xE5, BitVec.ofNat 8 tci, BitVec.ofNat 8 sl] ++ beBytes 4 pn
    ++ (if sc = 1 then beBytes 8 (outSci s u.ch u.pol u.frame) else [])
  let co := coOctets (polField u.pol 29 28)
  let key := suiteKey (polSuite u.pol) (dirKey s u.ch 0 u.slot)
  let iv := frameIv s u.ch 0 u.slot (polSuite u.pol) (outSci s u.ch u.pol u.frame) pn
  let ct := gcmStream key iv (sec.drop co)
  { head := u.frame.take h, secTag := tag, clear := sec.take co, cipher := ct,
    icv := gcmTagBytes key iv (u.frame.take h ++ tag ++ sec.take co) ct }

/-- Octets of a unit's secure data. -/
def secureLen (u : OutUnit) : Nat := u.frame.length - (12 + 4 * min (polField u.pol 27 26) (vlanCount u.frame))

/-- Blocks of a unit: 16 octets of secure data each. -/
def unitBlocks (u : OutUnit) : Nat := (secureLen u + 15) / 16

/-- The frame a good unit leaves as; a truncated one carries its ICV inverted (R107, R151). -/
def protectedFrame (s : State) (u : OutUnit) : List Byte :=
  let p := protect s u
  let b := p.head ++ p.secTag ++ p.clear ++ p.cipher ++ (if u.truncated then p.icv.map (fun x => ~~~x) else p.icv)
  b ++ fcsOf b

/-- The first copy of a frame in which a rail fault was found (R151): the blocks computed before it, then zeros, FCS inverted. -/
def stompedFrame (s : State) (u : OutUnit) : List Byte :=
  let p := protect s u
  let sec := p.clear ++ p.cipher
  let k := min sec.length (16 * u.blocks)
  let b := p.head ++ p.secTag ++ sec.take k ++ zeros (sec.length - k) ++ zeros 16
  b ++ badFcsOf b

/-! ### Rails and the cipher-side port (R148 to R151, R572) -/

/-- A rail's own check has failed (R151, R180, R210): recorded under the rail's number, Bell 850. -/
def railFault (n rail : Nat) (s : State) : State := bellPulse 850 (s.report unitRails 0x0401 n rail)

/-- RAIL_BLOCK_COMPUTE (R572, R151): a rail of the pool computes and checks the next block of unit `i`; `fault` where the check
fails. A unit whose frame is on the line is then stomped; one that is not starts again from its first block. -/
def execRailBlockCompute (i : Nat) (fault : Bool) (s : State) : Host.Outcome State Fault Refusal :=
  match s.units[i]? with
  | none => .next s
  | some u =>
    let pool := railPool s false
    if pool.isEmpty || u.stomped || unitBlocks u ≤ u.blocks || s.chMode u.ch ≠ 0 then .next s
    else
      let p := s.draw
      let r := Config.railChoice p.1 pool
      let s := p.2
      if fault then
        let v := if u.onLine then { u with stomped := true, rail := some r } else { u with blocks := 0, rail := none }
        .next (railFault u.ch r { s with units := s.units.set i v })
      else .next { s with units := s.units.set i { u with blocks := u.blocks + 1, rail := some r } }

/-- Does a message leave by this cipher-side port in frame mode? -/
def brOnPort (s : State) (c : Nat) (m : BrOut) : Bool := decide (s.chMode m.ch = 0) && decide (s.txPort m.ch = c)

/-- A Bridle frame (R158): DA 03-00-44-5A-00-00, the SCI's address, the VLAN tag where BRIDLE_VID is not 0, the segment. -/
def brFrame (s : State) (n : Nat) (seg : List Byte) : List Byte :=
  let vid := s.getF (FRM_POL_LO_BRIDLE_VID n)
  let b := [0x03, 0x00, 0x44, 0x5A, 0x00, 0x00] ++ beBytes 6 ((s.rd64 (CH_SCI n 0)).toNat / 65536)
    ++ (if vid = 0 then [] else [0x81, 0x00] ++ beBytes 2 (7 * 8192 + vid)) ++ [0x88, 0xB5] ++ seg
  let b := padFrame b
  b ++ fcsOf b

/-- A Bridle frame starts, where one waits (R149, R253). -/
def startBridle (c : Nat) (urgent : Bool) (s : State) : Option State :=
  let pick := fun (m : BrOut) => brOnPort s c m && (m.urgent || decide (m.lane = 0)) = urgent
  match brNextSegment 1024 pick s with
  | some (seg, t) => some (t.emit (.frame (32 + c) (brFrame t (be seg 2 2) seg)))
  | none => none

/-- A channel frame of this port that may start: the first in admission order whose header is encrypted (R148, R149). -/
def startable (s : State) (c : Nat) (u : OutUnit) : Bool :=
  decide (s.chMode u.ch = 0) && decide (s.txPort u.ch = c) && !u.onLine && decide (0 < u.blocks) && !pathStopped s u.ch
    && !isWitness s u.ch

/-- A frame the host sends in clear leaves with its FCS, and FRAME_SEND completes with its Yardstamp (R359). -/
def clearSent (x : Nat × Nat × List Byte) (s : State) : State :=
  mbDone x.2.1 0 (leBytes 8 s.stamp.toNat) (s.emit (.frame x.1 (x.2.2 ++ fcsOf x.2.2)))

/-- CIPHER_TX_START (R149): at a frame boundary the port starts its next unit: Bridle frames with a deadline, channel frames in
admission order, then Bridle frames without deadlines and frames the host sends (R159). -/
def execCipherTxStart (c : Fin 32) (s : State) : Host.Outcome State Fault Refusal :=
  let c := c.val
  let busy := s.units.any (fun u => u.onLine && decide (s.chMode u.ch = 0) && decide (s.txPort u.ch = c))
  if !s.portUp (32 + c) || s.isSet (CELL_PORT_CFG_EN c) || busy then .next s
  else match startBridle c true s with
    | some t => .next t
    | none =>
      match s.units.findIdx? (startable s c) with
      | some i => .next { s with units := s.units.modify i (fun u => { u with onLine := true }) }
      | none =>
        match startBridle c false s with
        | some t => .next t
        | none =>
          match s.clearTx.findIdx? (fun x => x.1 = 32 + c) with
          | some i =>
            match s.clearTx[i]? with
            | some x => .next (clearSent x { s with clearTx := s.clearTx.eraseIdx i })
            | none => .next s
          | none => .next s

/-! ### Twin digests (R278) -/

/-- The digest that runs is complete (R278). -/
def digestClose (t : TwinCh) : TwinCh :=
  match t.crcBeat with
  | some b => { t with own := tblSet none b.toNat (some t.crc) t.own, crcBeat := none }
  | none => t

/-- One record enters the digest of beat `b` of a channel: a later beat closes the one before it. -/
def digestAdd (n : Nat) (b : Beat) (rec : List Byte) (s : State) : State :=
  if s.chTwin n then
    s.modTw n (fun t =>
      if t.crcBeat = some b then { t with crc := crc64 t.crc rec }
      else { digestClose t with crcBeat := some b, crc := crc64 0 rec })
  else s

/-- UNIT_EGRESS_DONE (R131, R151): the last octet of the port's frame has left. A stomped frame is sent again from the buffer
before any later frame of its channel; a good one is counted and its buffer units return. -/
def execUnitEgressDone (c : Fin 32) (s : State) : Host.Outcome State Fault Refusal :=
  let c := c.val
  match s.units.findIdx? (fun u => u.onLine && decide (s.chMode u.ch = 0) && decide (s.txPort u.ch = c)) with
  | none => .next s
  | some i =>
    match s.units[i]? with
    | none => .next s
    | some u =>
      if u.stomped then
        .next ({ s with units := s.units.set i { u with onLine := false, stomped := false, blocks := 0, rail := none } }.emit
          (.frame (32 + c) (stompedFrame s u)))
      else if u.blocks < unitBlocks u then .next s
      else
        let t := (s.emit (.frame (32 + c) (protectedFrame s u)))
        let t : State := { t with units := t.units.eraseIdx i }
        let t := outStat u.ch 3 (u.frame.length + 4) (outStat u.ch 2 1 t)
        .next (digestAdd u.ch ((u.stamp >>> 16).truncate 48) (beBytes 8 u.asn.toNat ++ (protect s u).icv) t)

/-! ### Inbound (R133, R152 to R156, R242) -/

/-- The key an AN selects (R153): 0 current, 1 previous within its grace, 2 next; with its slot. -/
def inKey (s : State) (n an : Nat) : Option (Nat × Nat) :=
  let slotAn := fun i => (s.slot (slotOf n i)).an
  let grace := match (s.chan n).graceIn with
    | some b => !s.beatDue b
    | none => false
  if s.isSet (KB_ROLES_CUR_V n 1) && decide (slotAn (s.getF (KB_ROLES_CUR_SLOT n 1)) = an) then
    some (0, slotOf n (s.getF (KB_ROLES_CUR_SLOT n 1)))
  else if s.isSet (KB_ROLES_PREV_V n 1) && decide (slotAn (s.getF (KB_ROLES_PREV_SLOT n 1)) = an) && grace then
    some (1, slotOf n (s.getF (KB_ROLES_PREV_SLOT n 1)))
  else if s.isSet (KB_ROLES_NEXT_V n 1) && decide (slotAn (s.getF (KB_ROLES_NEXT_SLOT n 1)) = an) then
    some (2, slotOf n (s.getF (KB_ROLES_NEXT_SLOT n 1)))
  else none

/-- RX_HI_PN of an AN (R154). -/
def rxHi (s : State) (n an : Nat) : Nat := (s.rd64 (CH_REPLAY n (4 * an))).toNat

/-- RX_LOW_PN of an AN: max(1, RX_HI_PN + 1 − W), and no less than what a resumed key sets (R154, R242). -/
def rxLow (s : State) (n an : Nat) : Nat :=
  let f := match (s.chan n).inFloor with
    | some f => if f.1 = an then f.2 else 0
    | none => 0
  max f (max 1 (rxHi s n an + 1 - s.getF (FRM_POL_HI_REPLAY_WIN n)))

/-- The XPN recovered from 32 received bits and the lowest acceptable one (R154, by IEEE 802.1AE-2018). -/
def xpnRecover (low pn : Nat) : Nat :=
  let hi := low / 2 ^ 32
  if low % 2 ^ 32 / 2 ^ 31 = 1 ∧ pn / 2 ^ 31 = 0 then (hi + 1) * 2 ^ 32 + pn else hi * 2 ^ 32 + pn

/-- The replay entry after a verified PN (R154). -/
def replayUpdate (n an pn : Nat) (s : State) : State :=
  if rxHi s n an < pn then
    let s := s.wr64 (CH_REPLAY n (4 * an)) (BitVec.ofNat 64 pn)
    s.wr64 (CH_REPLAY n (4 * an + 2)) (BitVec.ofNat 64 (rxLow s n an))
  else s

/-- The PN block mark of a persisted key is raised in time (R242). -/
def pnRaise (n an : Nat) (s : State) : State :=
  let c := s.chan n
  if s.isSet (KB_ROLES_PERSIST n 1) && !c.pnBusy && decide (c.pnMark * 2 ^ 32 - 2 ^ 31 ≤ rxHi s n an) then
    let b := c.pnMark + 1
    loftEnqueue (loftPnWord n) (BitVec.ofNat 64 (s.getF (KB_EPOCH_EPOCH n 1) * 2 ^ 32 + b)) true (.pnMark n b)
      (s.modChan n (fun c => { c with pnBusy := true }))
  else s

/-- IN_ASN holds the highest inbound ASN verified in the epoch (R136). -/
def inAsnRaise (n asn : Nat) (s : State) : State :=
  if (s.rd64 (CH_IN_ASN_LO n)).toNat < asn then s.wr64 (CH_IN_ASN_LO n) (BitVec.ofNat 64 asn) else s

/-- A unit fails its tag (R28, R133): counted, and the session hears of it (R265). -/
def tagFail (n : Nat) (s : State) : State := brTagFail n (refuse n 0x1D s)

/-- A frame that failed leaves stomped, unless it is stored first; in a Twin-mode channel only where its place was next
(R156). -/
def failOut (n epoch asn : Nat) (f : List Byte) (s : State) : State :=
  let next := !s.chTwin n || (decide (relEpoch s n = epoch) && decide ((relAsn s n).toNat = asn))
  if s.isSet (CH_CFG_SNF n) || !next then s else plainOut n f true s

/-- A good frame goes to the merge engine of a Twin-mode channel, or out (R133). -/
def passOut (n c epoch asn : Nat) (f icv : List Byte) (s : State) : State :=
  if s.chTwin n then
    let p := pathOf s n c
    mergeTake (fun n u => releaseFrame n u.frame) n
      { epoch := epoch, asn := BitVec.ofNat 64 asn, frame := f, path := p, lead := decide (leadPath s n = p),
        tag := BitVec.ofNat 128 (beVal icv) } s
  else releaseFrame n f s

/-- An inbound frame of channel n on cipher port c, after identification (R133, R153 to R156). -/
def frameIn (n c : Nat) (f : List Byte) (s : State) : State :=
  match inboundRefusal s n with
  | some code => refuse n code s
  | none =>
    if !secTagOk f then tagFail n s
    else
      let o := typeAt f
      let tci := at' f (o + 2)
      let an := tci % 4
      let hl := secTagLen tci
      let sec := (f.take (f.length - 20)).drop (o + hl)
      let icv := (f.drop (f.length - 20)).take 16
      let s := inStat n 1 (max 64 (o + sec.length + 4)) (inStat n 0 1 s)
      match inKey s n an with
      | none => refuse n 0x1B s
      | some (which, j) =>
        let suite := s.getF (FRM_POL_LO_SUITE n)
        let low := rxLow s n an
        let pn := if suite < 2 then be f (o + 4) 4 else xpnRecover low (be f (o + 4) 4)
        if pn < low then refuse n 0x1C s
        else if which = 0 && s.isSet (KB_ROLES_PERSIST n 1) && decide ((s.chan n).pnMark * 2 ^ 32 ≤ pn) then
          refuse n 0x1C (s.report unitTack 0x0506 n n)
        else
          let co := coOctets (s.getF (FRM_POL_LO_CO n))
          let key := suiteKey suite (dirKey s n 1 j)
          let iv := frameIv s n 1 j suite (frameSci f) pn
          let plain := f.take o ++ sec.take co ++ gcmStream key iv (sec.drop co)
          let good := decide (tci / 4 % 4 = 3)
            && decide (gcmTagBytes key iv (f.take (o + hl) ++ sec.take co) (sec.drop co) = icv)
          let epoch := (s.slot j).epoch
          if good then
            let s := if which = 2 then doSwitch n 1 s else s
            let s := replayUpdate n an pn s
            let s := if which = 1 then s else pnRaise n an (inAsnRaise n (pn - 1) s)
            passOut n c epoch (pn - 1) plain icv s
          else failOut n epoch (pn - 1) plain (tagFail n s)

end Sys2Proof.Machine
end

