-- ==== Sys2Proof/Machine/TwinTx.lean ====
section
/-!
DEFINITION. The CONTEXT record of a Twin-mode channel (spec/11 R276, R292): what it carries beside the Stall, and its sending.
-/

namespace Sys2Proof.Machine

/-- Words of a channel's Stall from 0x040 to 0x7FF, as bytes. -/
def stallBytes (s : State) (n : Nat) : List Byte :=
  (List.range 496).flatMap (fun i => leBytes 4 (s.rd (CH_CFG n + 0x40 + 4 * i)).toNat)

/-- An optional value as bytes: zeros where there is none. -/
def optBytes (k : Nat) (v : Option Nat) : List Byte := beBytes k (v.getD 0)

/-- What a CONTEXT record carries beside the Stall: the epochs' beats and numbers, the frame partly placed into cells, the
cell and layer-1 streams. -/
def contextTail (s : State) (n : Nat) : List Byte :=
  let c := s.chan n
  let part := s.units.find? (fun u => decide (u.ch = n) && decide (0 < u.placed))
  let ep := if s.chMode n = 2 then c.l1.epochOut else c.cell.outEpoch
  let flags := c.lastOut.isSome.toNat + 2 * c.lastIn.isSome.toNat + 4 * c.graceOut.isSome.toNat + 8 * c.graceIn.isSome.toNat
    + 16 * part.isSome.toNat + 32 * ep.isSome.toNat
  beatBytes6 c.beginOut ++ optBytes 4 c.lastOut ++ optBytes 4 c.lastIn ++ [BitVec.ofNat 8 flags, 0]
    ++ optBytes 6 (c.graceOut.map (·.toNat)) ++ optBytes 6 (c.graceIn.map (·.toNat))
    ++ optBytes 8 (part.map (fun u => u.asn.toNat)) ++ optBytes 4 (part.map (·.placed)) ++ optBytes 4 ep
    ++ beBytes 6 c.l1.firstOut ++ beBytes 8 c.l1.outStamp.toNat ++ beBytes 6 c.l1.period
where
  /-- A beat as 6 bytes. -/
  beatBytes6 (b : Beat) : List Byte := beBytes 6 b.toNat

/-- A CONTEXT record (R276): type and channel, snapshot beat C, eligible beat E, R-TAG count, the Stall, and the rest. -/
def contextRecord (s : State) (n : Nat) (e : Beat) : List Byte :=
  twinHead 6 n ++ beBytes 6 s.beat.toNat ++ beBytes 6 e.toNat ++ beBytes 2 (s.chan n).rtagCount ++ stallBytes s n ++ contextTail s n

/-- The CONTEXT of a channel is sent. -/
def contextSend (n : Nat) (e : Beat) (s : State) : State :=
  twinSend (contextRecord s n e) (s.modTw n (fun t => { t with eligible := none }))

end Sys2Proof.Machine
end

