-- ==== Sys2Proof/Machine/Cell.lean ====
section
/-!
DEFINITION. Cell mode (spec/07): calendars, the cell each slot carries, filling and reassembly, and the checks of a received cell.
-/

namespace Sys2Proof.Machine

/-! ### Slots and calendars (R169, R172 to R174) -/

/-- Entry `i` of calendar `cal` of a port. -/
def calEntry (s : State) (c cal i : Nat) : Nat :=
  if i % 2 = 0 then s.getF (CELL_CAL_ENTRY_EVEN c cal (i / 2)) else s.getF (CELL_CAL_ENTRY_ODD c cal (i / 2))

/-- Entries of a calendar: 2 to the power of its length, which is at most 12. -/
def calLen (s : State) (c cal : Nat) : Nat :=
  2 ^ min 12 (if cal = 0 then s.getF (CELL_PORT_CFG_LEN0 c) else s.getF (CELL_PORT_CFG_LEN1 c))

/-- The calendar that holds slot x and the slot at which it took effect (R172, R173): the armed one from B × S, the other for
slots before the active one took effect. -/
def calFor (s : State) (c : Nat) (x : Nat) : Nat × Nat :=
  let p := s.port (32 + c)
  let act := s.getF (CELL_PORT_CFG_ACTIVE c)
  match p.calArm with
  | some (b, cal) => if b.toNat * s.spb c ≤ x then (cal, b.toNat * s.spb c) else (act, p.calBase)
  | none => if x < p.calBase then (1 - act, p.calPrev) else (act, p.calBase)

/-- The entry of slot x (R172). -/
def slotEntry (s : State) (c x : Nat) : Nat :=
  let e := calFor s c x
  calEntry s c e.1 ((x - e.2) % calLen s c e.1)

/-- The slot whose assembly closes now (R169): the last whose start lies no later than 2,048 fraction units ahead. -/
def slotNow (s : State) (c : Nat) : Nat :=
  let y := (s.stamp + 2048).toNat
  let sl := s.spb c
  y / 65536 * sl + ((y % 65536 + 1) * sl - 1) / 65536

/-- Start of slot x as a Yardstamp (R169). -/
def slotStart (s : State) (c x : Nat) : DWord :=
  let sl := max 1 (s.spb c)
  BitVec.ofNat 64 (x / sl * 65536 + x % sl * 65536 / sl)

/-- Places of a calendar that hold a channel. -/
def calPlaces (s : State) (c cal n : Nat) : List Nat := (List.range (calLen s c cal)).filter (fun i => calEntry s c cal i = n)

/-- Largest count of places from one of a list to its next, round the end of the calendar. -/
def maxGap (len : Nat) (l : List Nat) : Nat :=
  match l with
  | [] => 0
  | a :: _ => (l.zip (l.drop 1 ++ [a + len])).foldl (fun m e => max m (e.2 - e.1)) 0

/-- GAP of a channel in the active calendar of its port. -/
def gapRefresh (n : Nat) (s : State) : State :=
  if s.chMode n = 1 then
    let c := s.txPort n
    let cal := s.getF (CELL_PORT_CFG_ACTIVE c)
    s.setF (CELL_POL_HI_GAP n) (if s.isSet (CELL_PORT_CFG_EN c) then maxGap (calLen s c cal) (calPlaces s c cal n) else 0)
  else s

/-- GAP of every channel of a port. -/
def gapRefreshPort (c : Nat) (s : State) : State :=
  (s.liveChans.filter (fun n => s.txPort n = c)).foldl (fun s n => gapRefresh n s) s

/-- `EN` of a port's cells is written (R162, R172): only while the port is disabled; setting it starts calendar 0 at 0. -/
def cellEnWrite (c : Nat) (en : Bool) (s : State) : State :=
  if s.isSet (PORT_CFG_EN (32 + c)) then s.setF (CELL_PORT_CFG_CAL_LOCKED c) 1
  else
    let s := ((s.setF (CELL_PORT_CFG_EN c) en.toNat).setF (CELL_PORT_CFG_ACTIVE c) 0).setF (CELL_PORT_CFG_ARMED c) 0
    gapRefreshPort c (s.modPort (32 + c) (fun p => { p with calBase := 0, calPrev := 0, calArm := none, outSlot := none }))

/-- May a calendar be written now? (R174) -/
def calWritable (s : State) (c cal : Nat) : Bool :=
  !(s.isSet (CELL_PORT_CFG_EN c) && decide (s.getF (CELL_PORT_CFG_ACTIVE c) = cal))
    && !((s.port (32 + c)).calArm.any (fun a => decide (a.2 = cal)))

/-- Fewest Bridle slots of a port type, as the largest spacing (R164). -/
def bridleSpacing (s : State) (c : Nat) : Nat :=
  let x := s.spb c
  if x = 5 then 8 else if x = 25 then 32 else if x = 50 then 64 else if x = 100 then 128 else if x = 200 then 256 else 512

/-- A calendar that may be armed (R173). -/
def calOk (s : State) (c cal : Nat) : Bool :=
  let l := calLen s c cal
  let br := calPlaces s c cal 0x3FF
  (List.range l).all (fun i => decide (calEntry s c cal i < 512) || decide (calEntry s c cal i = 0x3FF))
    && !br.isEmpty && decide (maxGap l br ≤ bridleSpacing s c)

/-- CELL_SW_BEAT is committed (R173): the switch to the inactive calendar at beat B is armed or refused. -/
def calArmWrite (c : Nat) (b : Beat) (s : State) : State :=
  let cal := 1 - s.getF (CELL_PORT_CFG_ACTIVE c)
  let ahead := (b - s.beat).toNat
  if s.isSet (CELL_PORT_CFG_EN c) && calOk s c cal && decide (16 ≤ ahead) && decide (ahead < 2 ^ 47) then
    (s.setF (CELL_PORT_CFG_ARMED c) 1).modPort (32 + c) (fun p => { p with calArm := some (b, cal) })
  else (s.setF (CELL_PORT_CFG_CAL_BAD c) 1).report unitPorts 0x020D (portPath (32 + c)) c

/-- CALENDAR_SWITCH (R173): the armed calendar is active from slot B × S. -/
def execCalendarSwitch (c : Fin 32) (s : State) : Host.Outcome State Fault Refusal :=
  let c := c.val
  match (s.port (32 + c)).calArm with
  | none => .next s
  | some (b, cal) =>
    if s.beatDue b then
      let base := b.toNat * s.spb c
      let s := s.modPort (32 + c) (fun p => { p with calPrev := p.calBase, calBase := base, calArm := none })
      .next (gapRefreshPort c ((s.setF (CELL_PORT_CFG_ACTIVE c) cal).setF (CELL_PORT_CFG_ARMED c) 0))
    else .next s

/-! ### The cell (R165 to R168, R171) -/

/-- The clear header (R165). -/
def cellHeader (slot : Nat) (l p k e b : Bool) : List Byte :=
  let x := beBytes 6 slot ++ [BitVec.ofNat 8 (l.toNat * 128 + p.toNat * 64 + k.toNat * 32 + e.toNat * 16 + b.toNat * 8)]
  x ++ [BitVec.ofNat 8 (crc8 (beVal x))]

/-- Additional data of a cell (R168). -/
def cellAad (slot : Nat) (k : Bool) : List Byte := beBytes 6 slot ++ [BitVec.ofNat 8 (k.toNat * 32), 0]

/-- The 96-bit nonce of a cell (R171). -/
def cellNonce (port dir slot : Nat) : Nat := port * 2 ^ 91 + dir * 2 ^ 90 + slot % 2 ^ 64

/-- The plaintext body of a fill cell (R167). -/
def fillBody : List Byte := [0x20, 0, 0, 0, 0, 0xFF, 0xFF, 0xE0] ++ zeros 224

/-! ### Filling (R176, R177, R179) -/

/-- Octets of a unit that R177 makes available at close time t. -/
def octetsAvail (s : State) (u : OutUnit) (t : DWord) : Nat :=
  let start := u.stamp + BitVec.ofNat 64 (s.getF (CELL_POL_LO_HOLD u.ch) * 1024)
  let l := u.frame.length + 4
  if stampBefore t start 0 0 0 0 then 0
  else if u.inPort = noPath then l - 4
  else
    let d := (t - start).toNat
    min (l - 4) (120 + s.portRate u.inPort / 500 * (d / 1024) - 4)

/-- A cell in the making: payload, END offsets with their ABORT flags, units after it, octets of the frames completed and how
many. -/
structure CellFill where
  payload : List Byte
  ends : List (Nat × Bool)
  octets : Nat
  more : Bool
deriving DecidableEq, Repr

/-- One unit gives its next octets to a cell (R176, R179): the cell after it, and the unit, none where nothing of it is left.
A truncated frame ends in this cell. -/
def fillUnit (s : State) (t : DWord) (cut : Bool) (u : OutUnit) (f : CellFill) : CellFill × Option OutUnit :=
  let bad := u.truncated || cut
  let avail := if bad then max (octetsAvail s u t) (u.placed + 1) else octetsAvail s u t
  let k := min (min avail u.frame.length - u.placed) (224 - f.payload.length)
  if k = 0 then ({ f with more := false }, some u)
  else
    let pay := f.payload ++ (u.frame.drop u.placed).take k
    let whole := decide (u.placed + k = u.frame.length)
    if bad || whole then
      let ends := f.ends ++ [(pay.length - 1, bad)]
      ({ f with payload := pay, ends := ends, octets := f.octets + (if bad then 0 else u.frame.length + 4),
                more := decide (ends.length < 2) && decide (pay.length < 224) }, none)
    else ({ f with payload := pay, more := false }, some { u with placed := u.placed + k })

/-- The units of a channel, in order, fill a cell. -/
def fillUnits (s : State) (n : Nat) (t : DWord) (cut : Bool) : List OutUnit → CellFill → CellFill × List OutUnit
  | [], f => (f, [])
  | u :: r, f =>
    if u.ch ≠ n || !f.more then
      let x := fillUnits s n t cut r f
      (x.1, u :: x.2)
    else
      let y := fillUnit s t (cut && u.placed > 0) u f
      let x := fillUnits s n t cut r y.1
      match y.2 with
      | some v => (x.1, v :: x.2)
      | none => x

/-- The body of a data cell (R166). -/
def dataBody (casn : DWord) (f : CellFill) : List Byte :=
  let e0 := f.ends[0]?
  let e1 := f.ends[1]?
  let ab := (e0.map (·.2)).getD false
  let ab1 := (e1.map (·.2)).getD false
  [BitVec.ofNat 8 (0x10 + ab1.toNat * 2 + ab.toNat)] ++ beBytes 4 casn.toNat
    ++ [BitVec.ofNat 8 ((e0.map (·.1)).getD 0xFF), BitVec.ofNat 8 ((e1.map (·.1)).getD 0xFF),
        BitVec.ofNat 8 (224 - f.payload.length)] ++ f.payload ++ zeros (224 - f.payload.length)

/-! ### Slots closed (R175, R180, R181) -/

/-- The outbound key of slot x (R181): the next one from B × S, the previous one for slots before the epoch began. -/
def slotKey (s : State) (n c x : Nat) : Option Nat :=
  let y := slotStart s c x
  let c0 := s.chan n
  let cur := if s.isSet (KB_ROLES_CUR_V n 0) then some (slotOf n (s.getF (KB_ROLES_CUR_SLOT n 0))) else none
  match c0.swOut with
  | some w => if stampAtOrAfter y w.beat && s.isSet (KB_ROLES_NEXT_V n 0) then some (slotOf n (s.getF (KB_ROLES_NEXT_SLOT n 0))) else cur
  | none => if !stampAtOrAfter y c0.beginOut && s.isSet (KB_ROLES_PREV_V n 0) then some (slotOf n (s.getF (KB_ROLES_PREV_SLOT n 0))) else cur

/-- Held for this slot: a held channel resumes with the slots of its switch beat, on the synthetic class (R80, R163). -/
def heldAt (s : State) (n c x : Nat) : Bool :=
  s.isSet (CH_STAT_HELD n) && !(decide (s.pos.cur.cls = 3)
    && (s.chan n).swOut.any (fun w => stampAtOrAfter (slotStart s c x) w.beat && s.isSet (KB_ROLES_NEXT_V n 0)))

/-- L and P of this device's cells for a channel (R165, R274). -/
def cellL (s : State) (n : Nat) : Bool := s.chTwin n && decide (s.getF TW_STAT_STATE = 2)
def cellP (s : State) (n : Nat) : Bool := s.chTwin n && s.isSet TW_CFG_MY_PATH

/-- A cell leaves. -/
def cellOut (c : Nat) (cell : List Byte) (s : State) : State := s.emit (.cell (32 + c) cell)

/-- An empty cell (R168, R175). -/
def emptyCell (c x : Nat) (s : State) : State := cellOut c (cellHeader x false false false true false ++ zeros 248) s

/-- A Bridle cell (R175, R253). -/
def bridleCell (c x : Nat) (s : State) : State :=
  match brNextSegment 236 (fun m => decide (s.chMode m.ch = 1) && decide (s.txPort m.ch = c)) s with
  | some (seg, t) => cellOut c (cellHeader x false false false false true ++ slice seg 0 248) t
  | none => cellOut c (cellHeader x false false false true true ++ zeros 248) s

/-- A body is protected and sent (R168, R171, R180); a cell of a faulty rail is sent with whatever tag the rail computed. -/
def sealCell (n c x j : Nat) (body : List Byte) (fault : Bool) (s : State) : State :=
  let k := decide ((s.slot j).epoch % 2 = 1)
  let key := dirKey s n 0 j
  let iv := cellNonce c (s.getF (CELL_POL_LO_DIR n)) x
  let ct := gcmStream key iv body
  let good := gcmTagBytes key iv (cellAad x k) ct
  let p := s.draw
  let tag := if fault then beBytes 16 p.1 else good
  let s := if fault then railFault n ((railPool s false).headD 0) p.2 else s
  let s := if isWitness s n then s else cellOut c (cellHeader x (cellL s n) (cellP s n) k false false ++ ct ++ tag) s
  digestAdd n (BitVec.ofNat 48 (x / max 1 (s.spb c))) (beBytes 8 x ++ good) (s.wr64 (CH_MODE_W1_LO n) (BitVec.ofNat 64 x))

/-- The cell of a channel's slot (R175 to R181). -/
def channelCell (n c x : Nat) (fault cut : Bool) (s : State) : State :=
  match slotKey s n c x with
  | none => emptyCell c x s
  | some j =>
    let t := slotStart s c x - 2048
    let f := fillUnits s n t cut s.units { payload := [], ends := [], octets := 0, more := true }
    let e := (s.slot j).epoch
    if f.1.payload.isEmpty then
      sealCell n c x j fillBody fault (outStat n 4 1 s)
    else
      let casn := if (s.chan n).cell.outEpoch = some e then s.rd64 (CH_MODE_W0_LO n) else 0
      let s : State := { s with units := f.2 }
      let s := (s.wr64 (CH_MODE_W0_LO n) (casn + 1)).modChan n (fun c => { c with cell := { c.cell with outEpoch := some e } })
      let s := outStat n 3 f.1.octets (outStat n 2 1 s)
      let s := if cut && f.1.ends.any (·.2) then refuse n 0x16 (s.report unitChan 0x0305 n n) else s
      sealCell n c x j (dataBody casn f.1) fault s

/-- The cell of the next slot of a port (R175). -/
def slotClose (c x : Nat) (fault cut : Bool) (s : State) : State :=
  let n := slotEntry s c x
  if n = 0x3FF then bridleCell c x s
  else if 512 ≤ n ∨ !s.chOpen n ∨ s.chMode n ≠ 1 ∨ s.txPort n ≠ c ∨ !s.isSet (CH_CFG_OUT_EN n) then emptyCell c x s
  else if heldAt s n c x ∨ s.muted n ∨ !s.isSet (CH_STAT_LEASE n) then emptyCell c x s
  else channelCell n c x fault cut s

/-- CONTEXT records due at the last slot before an eligible beat leave (R292 step 4). -/
def slotContexts (c x : Nat) (s : State) : State :=
  ((s.chans.map (·.1)).filter (fun n => decide (n < 512) && s.chTwin n && decide (s.chMode n = 1) && decide (s.txPort n = c)
      && !(s.chan n).tw.rejoining
      && (s.chan n).tw.eligible.any (fun e => decide (x + 1 = e.toNat * s.spb c)))).foldl
    (fun s n => contextSend n (((s.chan n).tw.eligible).getD 0) s) s

/-- SLOT_ASSEMBLY_CLOSE (R169, R175): the next slot of a port that carries cells takes its cell. `fault`: the rail that computed
it failed its check (R180). `cut`: an octet that R177 makes available has not arrived (R179). -/
def execSlotAssemblyClose (c : Fin 32) (fault cut : Bool) (s : State) : Host.Outcome State Fault Refusal :=
  let c := c.val
  let x := slotNow s c
  if !(s.isSet (CELL_PORT_CFG_EN c) && s.portUp (32 + c)) || decide ((s.port (32 + c)).outSlot = some x) then .next s
  else .next (slotContexts c x (slotClose c x fault cut (s.modPort (32 + c) (fun p => { p with outSlot := some x }))))

/-- CELL_WRAP_HOLD (R170): beat 0 has come under an epoch that began before it and no switch at or before it was agreed: the
channel is held, and rekeyed as under R80. -/
def execCellWrapHold (n : Fin 512) (s : State) : Host.Outcome State Fault Refusal :=
  let n := n.val
  let c := s.chan n
  let agreed := c.swOut.any (fun w => decide (w.beat = 0) || beatBefore w.beat 0)
  if s.chOpen n && decide (s.chMode n = 1) && decide (s.beat.toNat < 2 ^ 47) && s.isSet (KB_ROLES_CUR_V n 0)
      && beatBefore c.beginOut 0 && !agreed
  then .next (forcedRekey n (holdChan n s)) else .next s

/-! ### Reassembly (R186, R187) -/

/-- A channel's slot payload rate is at least its egress port's: octets leave as each cell passes (R187). -/
def cellCutThrough (s : State) (n : Nat) : Bool :=
  let c := s.getF (CH_CFG_CIPHER_PORT n)
  let cal := s.getF (CELL_PORT_CFG_ACTIVE c)
  decide (s.portRate (s.getF (CH_CFG_EGRESS_PORT n)) * calLen s c cal ≤ (calPlaces s c cal n).length * s.spb c * 1750)

/-- IN_REASM follows (R189). -/
def reasmShow (n : Nat) (s : State) : State :=
  let c := (s.chan n).cell
  s.wr64 (CH_MODE_W2_LO n) (BitVec.ofNat 64 (c.reasm.length % 2 ^ 14 + c.discard.toNat * 2 ^ 15))

/-- The cell record of a channel changed. -/
def State.modCell (s : State) (n : Nat) (f : CellCh → CellCh) : State := s.modChan n (fun c => { c with cell := f c.cell })

/-- The frame in progress is discarded and reassembly waits for the next END (R186); one that was already leaving ends with its
FCS inverted. -/
def dropReasm (n : Nat) (s : State) : State :=
  let r := (s.chan n).cell.reasm
  let s := if !r.isEmpty && cellCutThrough s n then plainOut n r true s else s
  reasmShow n (s.modCell n (fun c => { c with reasm := [], discard := true }))

/-- A piece of payload that ends a frame (R186). -/
def endPiece (n : Nat) (abort : Bool) (p : List Byte) (s : State) : State :=
  let c := (s.chan n).cell
  let s := s.modCell n (fun c => { c with reasm := [], discard := false })
  if c.discard then s
  else if abort then (if cellCutThrough s n then plainOut n (c.reasm ++ p) true s else s)
  else releaseFrame n (c.reasm ++ p) s

/-- Reassembly takes the body of a data cell in its order (R186). -/
def reassemble (n : Nat) (u : HeldUnit) (s : State) : State :=
  let b := u.frame
  let used := 224 - at' b 7
  let e0 := at' b 5
  let e1 := at' b 6
  let pay := slice b 8 224
  let inOrder := match (s.chan n).cell.expect with
    | none => true
    | some x => decide (x = (u.epoch, u.asn)) || (decide (x.1 ≠ u.epoch) && decide (u.asn = 0))
  let s := if inOrder then s else dropReasm n s
  let s := s.modCell n (fun c => { c with expect := some (u.epoch, u.asn + 1) })
  let s := if e0 = 0xFF then s else endPiece n (at' b 0 % 2 = 1) (pay.take (e0 + 1)) s
  let s := if e1 = 0xFF then s else endPiece n (at' b 0 / 2 % 2 = 1) ((pay.take (e1 + 1)).drop (e0 + 1)) s
  let from' := if e0 = 0xFF then 0 else if e1 = 0xFF then e0 + 1 else e1 + 1
  let rest := (pay.take used).drop from'
  reasmShow n (if (s.chan n).cell.discard then s else s.modCell n (fun c => { c with reasm := c.reasm ++ rest }))

/-! ### Receiving (R182 to R185) -/

/-- A field of w bits extended to the value nearest the last position, modulo 2^W (R74). -/
def extendNear (last w W v : Nat) : Nat :=
  let d := (v + 2 ^ w - last % 2 ^ w) % 2 ^ w
  if d < 2 ^ (w - 1) then (last + d) % 2 ^ W else (last + 2 ^ W - (2 ^ w - d)) % 2 ^ W

/-- Position of the first cell: from the last POSITION message, where there was one (R75, R76). -/
def firstSlot (s : State) (n c slot : Nat) : Nat :=
  match (s.chan n).br.peerPos with
  | some p => extendNear (p.2.1.toNat / 65536 * s.spb c) 48 64 slot
  | none => slot

/-- Slot of a received cell, extended from the last position recovered (R74). -/
def slotIn (s : State) (n c slot : Nat) : Nat :=
  if (s.chan n).cell.pathSlot.isEmpty then firstSlot s n c slot else extendNear (s.rd64 (CH_IN_POS_LO n)).toNat 48 64 slot

/-- IN_SW_BASE: B × S of the loaded next inbound key (R189). -/
def swBase (s : State) (n : Nat) : Nat := (s.rd64 (CH_MODE_W3_HI n - 4)).toNat

/-- The key of a cell by its K (R182): 0 current, 1 previous, 2 next; the traffic slot; the slot number extended. -/
def cellKey (s : State) (n c slot : Nat) (k : Bool) : Option (Nat × Nat × Nat) :=
  let match' := fun i => decide ((s.slot (slotOf n i)).epoch % 2 = k.toNat)
  let x := slotIn s n c slot
  let y := extendNear (swBase s n) 48 64 slot
  let grace := match (s.chan n).graceIn with
    | some b => !s.beatDue b
    | none => false
  if s.isSet (KB_ROLES_CUR_V n 1) && match' (s.getF (KB_ROLES_CUR_SLOT n 1)) then
    some (0, slotOf n (s.getF (KB_ROLES_CUR_SLOT n 1)), x)
  else if s.isSet (KB_ROLES_NEXT_V n 1) && match' (s.getF (KB_ROLES_NEXT_SLOT n 1)) && (s.chan n).swIn.isSome
      && decide (swBase s n ≤ y) then
    some (2, slotOf n (s.getF (KB_ROLES_NEXT_SLOT n 1)), y)
  else if s.isSet (KB_ROLES_PREV_V n 1) && match' (s.getF (KB_ROLES_PREV_SLOT n 1)) && grace then
    some (1, slotOf n (s.getF (KB_ROLES_PREV_SLOT n 1)), x)
  else none

/-- A body whose TYPE, PAD and END fields are coherent (R166, R185). -/
def bodyOk (b : List Byte) : Bool :=
  let t := at' b 0 / 16
  let used := 224 - at' b 7
  let e0 := at' b 5
  let e1 := at' b 6
  if t = 2 then true
  else t = 1 && decide (at' b 0 / 4 % 4 = 0) && decide (at' b 7 ≤ 223)
    && (e0 = 0xFF || decide (e0 < used)) && (e1 = 0xFF || (decide (e0 < e1) && decide (e1 + 1 = used)))
    && (at' b 0 % 2 = 0 || decide (e0 ≠ 0xFF)) && (at' b 0 / 2 % 2 = 0 || decide (e1 ≠ 0xFF))

/-- Extended cell ASN (R183): the value with these low 32 bits from `last` − 2^31 + 1 to `last` + 2^31. -/
def extendCasn (last casn : Nat) : Nat :=
  let d := (casn + 2 ^ 32 - last % 2 ^ 32) % 2 ^ 32
  if d ≤ 2 ^ 31 then last + d else last + d - 2 ^ 32

/-- A received cell that fails its tag (R28, R77, R186). -/
def cellFail (n : Nat) (s : State) : State :=
  let s := tagFail n s
  if s.chTwin n then s else dropReasm n s

/-- An inbound data or fill cell of channel n on cipher port c (R133, R182 to R185). -/
def cellIn (n c : Nat) (cell : List Byte) (s : State) : State :=
  match inboundRefusal s n with
  | some code => refuse n code s
  | none =>
    let k := decide (at' cell 6 / 32 % 2 = 1)
    match cellKey s n c (be cell 0 6) k with
    | none => refuse n 0x1B s
    | some (which, j, slot) =>
      let path := pathOf s n c
      let epoch := (s.slot j).epoch
      let back := match tblGet none path (s.chan n).cell.pathSlot with
        | some p => decide (p.1 = epoch) && decide (slot < p.2.toNat)
        | none => false
      if back then cellFail n (posEvt POS_EVT_BACK_RX 873 (s.report unitPos 0x0106 n n))
      else
        let key := dirKey s n 1 j
        let iv := cellNonce (s.getF (CELL_POL_LO_PEER_CPORT n)) (1 - s.getF (CELL_POL_LO_DIR n)) slot
        let ct := slice cell 8 232
        let body := gcmStream key iv ct
        let isData := decide (at' body 0 / 16 = 1)
        let first := decide (which ≠ 1) && decide ((s.chan n).cell.inEpoch ≠ some epoch)
        let last := if which = 1 then (s.chan n).cell.prevAsn.toNat else (s.rd64 (CH_IN_ASN_LO n)).toNat
        let casn := if first then be body 1 4 else extendCasn last (be body 1 4)
        if isData && !first && !s.chTwin n && decide (casn ≤ last) then refuse n 0x1C s
        else if gcmTagBytes key iv (cellAad (be cell 0 6) k) ct ≠ slice cell 240 16 || !bodyOk body then cellFail n s
        else
          let s := if which = 2 then
              doSwitch n 1 (s.modCell n (fun c => { c with prevAsn := s.rd64 (CH_IN_ASN_LO n) }))
            else s
          let s := s.modCell n (fun c => { c with pathSlot := tblSet none path (some (epoch, BitVec.ofNat 64 slot)) c.pathSlot })
          let s := if which = 1 then s else s.wr64 (CH_IN_POS_LO n) (BitVec.ofNat 64 slot)
          let s := pathLive n path s
          if isData then
            let s := inStat n 1 (224 - at' body 7) (inStat n 0 1 s)
            let s := if which = 1 then s.modCell n (fun c => { c with prevAsn := BitVec.ofNat 64 (max last casn) })
              else inAsnRaise n casn (s.modCell n (fun c => { c with inEpoch := some epoch }))
            let u : HeldUnit :=
              { epoch := epoch, asn := BitVec.ofNat 64 casn, frame := body, path := path,
                lead := decide (at' cell 6 / 128 = 1), tag := BitVec.ofNat 128 (be cell 240 16) }
            if s.chTwin n then mergeTake reassemble n u s else reassemble n u s
          else s

/-- A path of every Twin-mode channel of a cell port that has left SYNC is LOST (R282). -/
def cellPathsLost (c : Nat) (s : State) : State :=
  (s.liveChans.filter (fun n => s.chTwin n && decide (s.chMode n = 1) && boundTo s n c)).foldl
    (fun s n => mergeGo reassemble n (s.setF (pathLostBit n (pathOf s n c)) 1)) s

/-- A delivered cell counts against the other path of its channel: 64 slots without a valid cell lose it (R282). -/
def otherPathSlot (n c : Nat) (s : State) : State :=
  if s.chTwin n then
    let p := 3 - pathOf s n c
    let s := s.modTw n (fun t => if p = 2 then { t with quiet2 := t.quiet2 + 1 } else { t with quiet1 := t.quiet1 + 1 })
    let t := (s.chan n).tw
    if 64 ≤ (if p = 2 then t.quiet2 else t.quiet1) then mergeGo reassemble n (s.setF (pathLostBit n p) 1) else s
  else s

/-- A cell in SYNC with the expected number (R184): an empty one ends here, a Bridle cell goes to the responder, the rest wait
for their checks. -/
def cellDeliver (c : Nat) (cell : List Byte) (s : State) : State :=
  let slot := be cell 0 6
  let fl := at' cell 6
  if fl / 16 % 2 = 1 then s.cnt (CELL_EMPTY_RX_CNT c) 1
  else if fl / 8 % 2 = 1 then brSegment (pathOf s (be cell 10 2) c) (slice cell 8 242) s
  else
    let n := slotEntry s c slot
    let ok := decide (n < 512) && decide (s.chMode n = 1) && boundTo s n c
    let s : State := { s with inq := s.inq ++ [{ port := c, ch := if ok then some n else none, cell := true, bytes := cell,
                                                 slot := BitVec.ofNat 64 slot }] }
    if ok then otherPathSlot n c s else s

/-- CELL_HEADER_RX (R184): a header and its cell, under the delineation state of the port. -/
def execCellHeaderRx (c : Fin 32) (cell : List Byte) (s : State) : Host.Outcome State Fault Refusal :=
  let c := c.val
  let hec := decide (crc8 (be cell 0 7) = at' cell 7)
  let slot := be cell 0 6
  let p := s.port (32 + c)
  let d := s.getF (CELL_PORT_STAT_DELIN c)
  let succ := fun (x : Nat) => (x + 1) % 2 ^ 48
  if !(s.isSet (CELL_PORT_CFG_EN c) && s.portUp (32 + c)) then .next s
  else if d = 0 then
    if hec then
      .next ((s.setF (CELL_PORT_STAT_DELIN c) 1).modPort (32 + c) (fun p => { p with run := 1, lastSlot := slot, odd := none }))
    else .next s
  else if d = 1 then
    if hec && decide (slot = succ p.lastSlot) then
      let s := s.modPort (32 + c) (fun p => { p with run := if 6 ≤ p.run + 1 then 0 else p.run + 1, lastSlot := slot })
      .next (if 6 ≤ p.run + 1 then s.setF (CELL_PORT_STAT_DELIN c) 2 else s)
    else .next ((s.setF (CELL_PORT_STAT_DELIN c) 0).modPort (32 + c) (fun p => { p with run := 0 }))
  else if !hec then
    let s := s.cnt (CELL_HEC_ERR_CNT c) 1
    let s := s.modPort (32 + c) (fun p => { p with run := p.run + 1, lastSlot := succ p.lastSlot, odd := none })
    if 7 ≤ p.run + 1 then
      let s := (s.setF (CELL_PORT_STAT_DELIN c) 0).modPort (32 + c) (fun p => { p with run := 0 })
      .next (cellPathsLost c (s.report unitPorts 0x020C (portPath (32 + c)) c))
    else .next s
  else if slot = succ p.lastSlot ∨ p.odd.any (fun o => decide (slot = succ o)) then
    .next (cellDeliver c cell (s.modPort (32 + c) (fun p => { p with run := 0, lastSlot := slot, odd := none })))
  else
    let s := s.cnt (CELL_SLOT_JUMP_CNT c) 1
    .next (s.modPort (32 + c) (fun p => { p with run := 0, lastSlot := succ p.lastSlot, odd := some slot }))

/-! ### Inbound units and the merge's own events -/

/-- INBOUND_UNIT_RX (R133): the oldest inbound unit meets its checks; one without a channel is counted against its port. -/
def execInboundUnitRx (s : State) : Host.Outcome State Fault Refusal :=
  match s.inq with
  | [] => .next s
  | u :: r =>
    let s : State := { s with inq := r }
    match u.ch with
    | none => .next (portRefuse (32 + u.port) 0x08 s)
    | some n => .next (if u.cell then cellIn n u.port u.bytes s else frameIn n u.port u.bytes s)

/-- How a unit leaves the merge, by mode. -/
def relUnit (s : State) (n : Nat) : Nat → HeldUnit → State → State :=
  if s.chMode n = 1 then reassemble else fun n u => releaseFrame n u.frame

/-- MERGE_PATH_LOST (R282, R285): a path has shown no valid unit or Bridle message for three heartbeat intervals. -/
def execMergePathLost (n : Fin 512) (path2 : Bool) (s : State) : Host.Outcome State Fault Refusal :=
  let n := n.val
  if s.chOpen n && s.chTwin n then
    let p := if path2 then 2 else 1
    let s := s.setF (pathLostBit n p) 1
    let s := if s.chMode n = 2 && decide (leadPath s n = p) && !pathLost s n (3 - p) then s.setF (TWC_STAT_SEL n) (2 - p) else s
    .next (mergeGo (relUnit s n) n s)
  else .next s

/-- MERGE_GAP_TIMEOUT (R286): the oldest unit behind a gap has been held for MAX_DIFF. -/
def execMergeGapTimeout (n : Fin 512) (s : State) : Host.Outcome State Fault Refusal :=
  .next (mergeForce (relUnit s n.val) n.val s)

/-- MERGE_DISTRUST_END (R291): 1 s has passed since the divergence. -/
def execMergeDistrustEnd (n : Fin 512) (s : State) : Host.Outcome State Fault Refusal :=
  .next (mergeGo (relUnit s n.val) n.val (s.setF (TWC_STAT_DISTRUST n.val) 0))

end Sys2Proof.Machine
end

