-- ==== Sys2Proof/Machine/Layer1.lean ====
section
/-!
DEFINITION. Layer-1 mode (spec/08): extended frame numbers, counter blocks, overhead bytes, multiframe tags, and substitution.
-/

namespace Sys2Proof.Machine

/-- The layer-1 record of a channel changed. -/
def State.modL1 (s : State) (n : Nat) (f : L1Ch → L1Ch) : State := s.modChan n (fun c => { c with l1 := f c.l1 })

/-- An inbound layer-1 path of a channel. -/
def State.l1In (s : State) (n p : Nat) : L1In := tblGet L1In.reset p (s.chan n).l1.ins

/-- An inbound path changed. -/
def State.modIn (s : State) (n p : Nat) (f : L1In → L1In) : State :=
  s.modL1 n (fun l => { l with ins := tblSet L1In.reset p (f (tblGet L1In.reset p l.ins)) l.ins })

/-- Slices of a whole ODUC2 or ODUC4, by the type of its port: OTUC4 has 4. -/
def l1SlicesOf (typ : Nat) : Nat := if typ = 0x14 then 4 else 2

/-- Blocks per frame (R191). -/
def l1Blocks (s : State) (n : Nat) : Nat :=
  match s.tribKind n with
  | 6 => 2340
  | 7 => 9360
  | 8 => 952 * l1SlicesOf (s.getF (PORT_CFG_TYPE (32 + s.getF (CH_CFG_CIPHER_PORT n))))
  | _ => 952

/-- Frames of a multiframe, or of a superframe (R199, R200). -/
def l1Frames (s : State) (n : Nat) : Nat := if s.isSdh n then 64 else 256

/-- EFN a lies before EFN b, modulo 2^48. -/
def efnBefore (a b : Nat) : Bool :=
  let d := (b + 2 ^ 48 - a % 2 ^ 48) % 2 ^ 48
  decide (0 < d) && decide (d < 2 ^ 47)

/-- Counter block of block j (R198). -/
def l1Counter (dir ch efn j : Nat) : BitVec 128 :=
  BitVec.ofNat 128 (0x4C * 2 ^ 120 + dir % 2 * 2 ^ 105 + ch % 512 * 2 ^ 96 + efn % 2 ^ 48 * 2 ^ 48 + j % 2 ^ 16 * 2 ^ 32)

/-- A payload area combined with its counter stream (R192). -/
def l1Crypt (key : List Byte) (dir ch efn : Nat) (l : List Byte) : List Byte :=
  l.mapIdx (fun i b => b ^^^ ((Config.aesBlock key (l1Counter dir ch efn (i / 16))) >>> (120 - i % 16 * 8)).truncate 8)

/-- IV of a multiframe's tag (R205). -/
def l1TagIv (dir ch first : Nat) : Nat :=
  (0x4C * 2 ^ 24 + dir % 2 * 2 ^ 9 + ch % 512) * 2 ^ 64 + first % 2 ^ 48 * 2 ^ 16 + 0xFFFF

/-- The tag of a multiframe over its additional data (R205). -/
def l1Tag (key : List Byte) (dir ch first : Nat) (aad : List Byte) : List Byte :=
  gcmTagBytes key (l1TagIv dir ch first) aad []

/-- An unfixed switch frame (R213). -/
def efnUnfixed : Nat := 2 ^ 64 - 1

/-- The switch frame of a direction: 0 outbound, 1 inbound. -/
def efnSw (s : State) (n d : Nat) : Nat := (s.rd64 (if d = 0 then CH_MODE_W1_LO n else CH_MODE_W2_LO n)).toNat

/-- The traffic slot under which a frame is processed (R204): from e_sw the next key while the switch is armed; before e_sw the
previous one once the switch is made; else the current one. -/
def l1Key (s : State) (n d efn : Nat) : Option Nat :=
  let sw := efnSw s n d
  let fixed := decide (sw ≠ efnUnfixed)
  let role := fun (v : Fld) (x : Fld) => if s.isSet v then some (slotOf n (s.getF x)) else none
  if fixed && ((s.chan n).sw d).isSome && !efnBefore efn sw then role (KB_ROLES_NEXT_V n d) (KB_ROLES_NEXT_SLOT n d)
  else if fixed && ((s.chan n).sw d).isNone && efnBefore efn sw && s.isSet (KB_ROLES_PREV_V n d) then
    role (KB_ROLES_PREV_V n d) (KB_ROLES_PREV_SLOT n d)
  else role (KB_ROLES_CUR_V n d) (KB_ROLES_CUR_SLOT n d)

/-! ### Outbound (R193 to R205) -/

/-- The EFN of the next frame (R194 to R196): set from a beat, or one more, or the least higher number with this MFAS. -/
def nextEfn (s : State) (n mfas : Nat) : Nat :=
  let last := (s.rd64 (CH_MODE_W0_LO n)).toNat
  match (s.chan n).l1.efnAt with
  | some b => if s.isSdh n then b % 2 ^ 48 else (b + (mfas + 256 - b % 256) % 256) % 2 ^ 48
  | none => if s.isSdh n then (last + 1) % 2 ^ 48 else (last + 1 + (mfas + 256 - (last + 1) % 256) % 256) % 2 ^ 48

/-- The next byte of the Bridle stream; 0x00 between segments (R253). -/
def l1BrByte (n : Nat) (s : State) : Byte × State :=
  match (s.chan n).l1.brOut with
  | b :: r => (b, s.modL1 n (fun l => { l with brOut := r }))
  | [] =>
    match brNextSegment 242 (fun m => decide (m.ch = n)) s with
    | some (b :: r, t) => (b, t.modL1 n (fun l => { l with brOut := r }))
    | _ => (0, s)

/-- The two overhead bytes of frame k of its multiframe (R199, R200). -/
def l1Overhead (n k : Nat) (s : State) : List Byte × State :=
  if k < 8 then (slice (s.chan n).l1.tagOut (2 * k) 2, s)
  else if k = 8 && s.isSdh n then ([0x4C, 0x31], s)
  else
    let a := l1BrByte n s
    let b := l1BrByte n a.2
    ([a.1, b.1], b.2)

/-- A multiframe ends: its tag goes into the next one (R205) and, for a Twin, into the digest of the multiframe (R278). A
multiframe with a frame that was not encrypted has no tag that the manual states. -/
def l1MfEnd (n : Nat) (s : State) : State :=
  let l := (s.chan n).l1
  match l.mfOut with
  | some (m, some j, true) =>
    let first := m * l1Frames s n
    let tag := l1Tag (dirKey s n 0 j) (s.getF (L1_POL_LO_DIR n)) n first l.aadOut
    let s := s.modL1 n (fun l => { l with tagOut := tag })
    if s.chTwin n then s.modTw n (fun t => { t with own := tblSet none first (some (crc64 0 (beBytes 8 first ++ tag))) t.own }) else s
  | _ =>
    let p := s.draw
    p.2.modL1 n (fun l => { l with tagOut := beBytes 16 p.1 })

/-- May a frame of this number be encrypted? (R19, R21, R78, R80, R136, R321) -/
def l1MayEncrypt (s : State) (n efn : Nat) : Bool :=
  let byNext := ((s.chan n).swOut).isSome && decide (efnSw s n 0 ≠ efnUnfixed) && !efnBefore efn (efnSw s n 0)
  let zero := (s.chan n).l1.zeroTo.any (fun e => efnBefore efn e)
  !pathStopped s n && (!s.isSet (CH_STAT_HELD n) || byNext) && !zero && (l1Key s n 0 efn).isSome

/-- The measured frame period (R203): from the stamps of two frames, or the tributary's nominal one before there are two. -/
def l1Period (s : State) (n efn : Nat) : Nat :=
  let l := (s.chan n).l1
  let steps := (efn + 2 ^ 48 - (s.rd64 (CH_MODE_W0_LO n)).toNat % 2 ^ 48) % 2 ^ 48
  let d := (s.stamp - l.outStamp).toNat
  if d = 0 ∨ steps = 0 ∨ l.efnAt.isSome then
    (if l.period = 0 then tribPeriod (s.tribKind n) (s.getF (CH_TRIB_PLAIN_TRIB_index n)) * 2 ^ 32 / beatTenthNs s.pos.cur.cls
     else l.period)
  else d * 65536 / steps % 2 ^ 48

/-- The lead of a Twin pair names the frame whose EFN it sets, by an ASSIGN record of no FCS and no length (R196, R276). -/
def nameFrame (n efn : Nat) (s : State) : State :=
  let rec' := twinHead 1 n ++ beBytes 4 efn ++ beBytes 4 s.stamp.toNat ++ zeros 6
  twinSend rec' (witnessSend n rec' s)

/-- A frame of an outbound channel (R192 to R197): numbered, encrypted unless it must not be, and sent with its overhead bytes.
`fault`: its rail failed its check, and it is sent as computed (R210). -/
def l1Send (n mfas : Nat) (opu payload : List Byte) (fault : Bool) (s : State) : State :=
  let last := (s.rd64 (CH_MODE_W0_LO n)).toNat
  let efn := nextEfn s n mfas
  let period := l1Period s n efn
  let wraps := (s.chan n).l1.efnAt.isNone && decide (efn < last)
  let armed := ((s.chan n).swOut).isSome && decide (efnSw s n 0 ≠ efnUnfixed) && !efnBefore efn (efnSw s n 0)
  let s := if wraps && !armed && !s.isSet (CH_STAT_HELD n) then forcedRekey n (holdChan n s) else s
  let s := s.wr64 (CH_MODE_W0_LO n) (BitVec.ofNat 64 efn)
  let s := if (s.chan n).l1.efnAt.isSome && s.chTwin n && decide (s.getF TW_STAT_STATE = 2) then nameFrame n efn s else s
  let s := s.modL1 n (fun l => { l with efnAt := none, outStamp := s.stamp, period := period })
  let m := efn / l1Frames s n
  let k := efn % l1Frames s n
  let key := if l1MayEncrypt s n efn then l1Key s n 0 efn else none
  let s := match (s.chan n).l1.mfOut with
    | some (m', _, _) => if m' = m then s else (l1MfEnd n s).modL1 n (fun l => { l with mfOut := some (m, key, decide (k = 0)), aadOut := [] })
    | none =>
      let p := s.draw
      p.2.modL1 n (fun l => { l with mfOut := some (m, key, decide (k = 0)), aadOut := [], tagOut := beBytes 16 p.1 })
  let ct := match key with
    | some j => l1Crypt (dirKey s n 0 j) (s.getF (L1_POL_LO_DIR n)) n efn payload
    | none => zeros payload.length
  let s := s.modL1 n (fun l => { l with
    aadOut := l.aadOut ++ opu ++ ct
    mfOut := l.mfOut.map (fun x => (x.1, x.2.1, x.2.2 && key.isSome)) })
  let s := match key with
    | some j =>
      let e := (s.slot j).epoch
      let s := if (s.chan n).l1.epochOut = some e then s
        else s.modL1 n (fun l => { l with epochOut := some e, firstOut := efn })
      let asn := (efn + 2 ^ 48 - (s.chan n).l1.firstOut) % 2 ^ 48
      let s := asnRisen n (s.wr64 (CH_OUT_ASN_LO n) (BitVec.ofNat 64 (asn + 1)))
      outStat n 3 payload.length (outStat n 2 1 (outStat n 1 payload.length (outStat n 0 1 s)))
    | none => s
  let o := l1Overhead n k s
  let q := o.2.draw
  let sent := if fault then leBytes payload.length q.1 else ct
  let s := if fault then railFault n ((railPool s false).headD 0) q.2 else o.2
  if s.portUp (32 + s.txPort n) && !isWitness s n then s.emit (.l1Frame (32 + s.txPort n) efn o.1 opu false sent) else s

/-- An outbound layer-1 channel that is OPEN and may carry frames. -/
def l1OutRuns (s : State) (n : Nat) : Bool := s.chOpen n && decide (s.chMode n = 2) && s.isSet (CH_CFG_OUT_EN n)

/-- L1_PLAIN_FRAME_RX (R193): a frame of the channel's tributary: its MFAS (OTN), its OPU overhead bytes (OTN) and payload area. -/
def execL1PlainFrameRx (n : Fin 512) (mfas : Byte) (opu payload : List Byte) (fault : Bool) (s : State) :
    Host.Outcome State Fault Refusal :=
  if l1OutRuns s n.val && !s.isSet (L1_RUN_INPUT_LOST n.val) && decide (payload.length = 16 * l1Blocks s n.val) then
    .next (l1Send n.val mfas.toNat opu payload fault s)
  else .next s

/-- L1_INPUT_LOST (R209): the plain-side input of an outbound channel is lost. -/
def execL1InputLost (n : Fin 512) (s : State) : Host.Outcome State Fault Refusal :=
  if l1OutRuns s n.val && !s.isSet (L1_RUN_INPUT_LOST n.val) then
    .next ((s.setF (L1_RUN_INPUT_LOST n.val) 1).report unitChan 0x0309 n.val n.val)
  else .next s

/-- L1_INPUT_RETURN (R209): the input is there again; R194 takes the EFN forward with its first frame. -/
def execL1InputReturn (n : Fin 512) (s : State) : Host.Outcome State Fault Refusal :=
  .next (s.setF (L1_RUN_INPUT_LOST n.val) 0)

/-- L1_GENERATED_FRAME (R209): while the input is lost the device makes the frames itself, with a payload of all ones. -/
def execL1GeneratedFrame (n : Fin 512) (fault : Bool) (s : State) : Host.Outcome State Fault Refusal :=
  let n := n.val
  if l1OutRuns s n && s.isSet (L1_RUN_INPUT_LOST n) then
    let slices := if s.tribKind n = 8 then l1Blocks s n / 952 else 1
    let opu := if s.isSdh n then [] else List.replicate (8 * slices) (0xFF : Byte)
    let mfas := match (s.chan n).l1.efnAt with
      | some b => b % 256
      | none => ((s.rd64 (CH_MODE_W0_LO n)).toNat + 1) % 256
    .next (l1Send n mfas opu (List.replicate (16 * l1Blocks s n) 0xFF) fault s)
  else .next s

/-- L1_EFN_WRAP_HOLD (R197): the next frame would take EFN 0 and no switch was agreed: the channel is held and rekeyed (R78, R80). -/
def execL1EfnWrapHold (n : Fin 512) (s : State) : Host.Outcome State Fault Refusal :=
  let n := n.val
  let armed := ((s.chan n).swOut).isSome && decide (efnSw s n 0 ≠ efnUnfixed)
  if l1OutRuns s n && decide ((s.rd64 (CH_MODE_W0_LO n)).toNat = 2 ^ 48 - 1) && !armed && !s.isSet (CH_STAT_HELD n) then
    .next (forcedRekey n (holdChan n s))
  else .next s

/-! ### Inbound tags and substitution (R206, R207, R211, R262) -/

/-- A threshold of L1_POL_LO as latched, 0 treated as 1 (R212). -/
def aisN (w : Word) : Nat := max 1 (fldGet 19 16 w)
def clearN (w : Word) : Nat := max 1 (fldGet 15 12 w)

/-- Does multiframe m hold the inbound switch frame? -/
def holdsSw (s : State) (n m : Nat) : Bool := decide (efnSw s n 1 ≠ efnUnfixed) && decide (efnSw s n 1 / l1Frames s n = m)

/-- A check has come out (R206, R207). -/
def l1Judge (n m : Nat) (pass : Bool) (s : State) : State :=
  let s := s.setF (L1_RUN_CHECKED n) 1
  let pol := (s.chan n).l1.pol
  let ais := s.isSet (L1_RUN_AIS n)
  let s := if holdsSw s n m && decide (s.getF (KB_GRACE_GRACE_END n 1) = 0xFFFFFFFF) then
      s.setF (KB_GRACE_GRACE_END n 1) (((s.chan n).graceIn.map (·.toNat)).getD 0)
    else s
  if pass then
    let s := s.modL1 n (fun l => { l with swFail := 0 })
    if ais then
      let r := s.getF (L1_RUN_PASS_RUN n) + 1
      if clearN pol ≤ r then
        (((s.setF (L1_RUN_AIS n) 0).setF (L1_RUN_PASS_RUN n) 0).setF (L1_RUN_FAIL_RUN n) 0).report unitChan 0x0308 n n
      else s.setF (L1_RUN_PASS_RUN n) r
    else s.setF (L1_RUN_FAIL_RUN n) 0
  else
    let s := tagFail n (s.report unitChan 0x0306 n n)
    let s := s.modL1 n (fun l => { l with swFail := if l.swFail ≠ 0 ∨ holdsSw s n m then l.swFail + 1 else 0 })
    let s := (s.cntSat (L1_RUN_FAIL_RUN n) 1).setF (L1_RUN_PASS_RUN n) 0
    let r := s.getF (L1_RUN_FAIL_RUN n)
    let s := if aisN pol ≤ r && !ais && decide (fldGet 0 0 pol = 0) then
        (s.setF (L1_RUN_AIS n) 1).report unitChan 0x0307 n n
      else s
    if decide (aisN pol < (s.chan n).l1.swFail) && s.brUp n then
      brDown n 4 (brReport 0x0608 887 n 0 (s.modL1 n (fun l => { l with swFail := 0 })))
    else s

/-- The path a layer-1 channel releases from (R285): 1 or 2; 1 outside a pair. -/
def selPath (s : State) (n : Nat) : Nat := if s.chTwin n then s.getF (TWC_STAT_SEL n) + 1 else 1

/-- The check of one path's multiframe (R206, R285): in a pair a failure counts only once every live path has failed, and the
selection leaves a path that failed where the other passed; two tags that both passed must be equal (R288). -/
def l1Checked (n p m : Nat) (pass : Bool) (tag : List Byte) (s : State) : State :=
  let s := s.modIn n p (fun i => { i with res := some (m, pass, tag) })
  let s := if pass then
      match (s.chan n).l1.epochIn with
      | some _ =>
        let top := m * l1Frames s n + l1Frames s n - 1
        inAsnRaise n ((top + 2 ^ 48 - (s.chan n).l1.firstIn) % 2 ^ 48 % 2 ^ 47) s
      | none => s
    else s
  if !s.chTwin n then l1Judge n m pass s
  else
    let q := 3 - p
    match (s.l1In n q).res with
    | some (m', pass', tag') =>
      if m' = m then
        let s := if pass && pass' && tag ≠ tag' then rxDiverge n (BitVec.ofNat 128 (beVal tag)) (BitVec.ofNat 128 (beVal tag')) s else s
        let s := if pass && !pass' && decide (selPath s n = q) then s.setF (TWC_STAT_SEL n) (p - 1)
          else if !pass && pass' && decide (selPath s n = p) then s.setF (TWC_STAT_SEL n) (q - 1) else s
        l1Judge n m (pass || pass') s
      else if pathLost s n q then l1Judge n m pass s else s
    | none => if pathLost s n q then l1Judge n m pass s else s

/-- The check that is due on a path, once byte 15 has arrived or can no longer arrive. -/
def l1CheckDue (n p : Nat) (s : State) : State :=
  let i := s.l1In n p
  match i.due with
  | none => s
  | some (m, key, whole, aad) =>
    let s := s.modIn n p (fun i => { i with due := none })
    let first := m * l1Frames s n
    let good := match key with
      | some j => l1Tag (dirKey s n 1 j) (1 - s.getF (L1_POL_LO_DIR n)) (s.getF (L1_POL_LO_PEER_CH n)) first aad
      | none => []
    l1Checked n p m (whole && key.isSome && decide (i.tag = good)) i.tag s

/-- A frame of multiframe m has come on a path: the one before it becomes due, one missed altogether fails (R206). -/
def l1MfStep (n p m : Nat) (k : Nat) (key : Option Nat) (s : State) : State :=
  let i := s.l1In n p
  let F := l1Frames s n
  match i.mf with
  | some (m', chk) =>
    if m' = m then s
    else
      let s := l1CheckDue n p s
      let closed : Option (Nat × Option Nat × Bool × List Byte) :=
        if chk then some (m', i.key, decide (i.good = F), i.aad) else none
      let s := s.modIn n p (fun i => { i with due := closed, tag := [] })
      let s := if m = m' + 1 then s
        else (l1CheckDue n p s).modIn n p (fun i => { i with due := some (m - 1, none, false, []) })
      (s.modIn n p (fun i => { i with mf := some (m, true), key := key, good := 0, aad := [] })).modL1 n
        (fun l => { l with pol := s.rd (L1_POL_LO n) })
  | none =>
    (s.modIn n p (fun i => { i with mf := some (m, decide (k = 0)), key := key, good := 0, aad := [] })).modL1 n
      (fun l => { l with pol := s.rd (L1_POL_LO n) })

/-! ### Overhead received (R199, R200, R253) -/

/-- A byte of the Bridle stream: bytes up to SYNC are discarded, a whole segment goes to the responder. -/
def l1BrIn (n p : Nat) (b : Byte) (s : State) : State :=
  let h := (s.l1In n p).hunt
  if h.isEmpty && b ≠ 0xB5 then s
  else
    let h := h ++ [b]
    if 6 ≤ h.length && decide (h.length = 6 + be h 4 2) then brSegment p h (s.modIn n p (fun i => { i with hunt := [] }))
    else s.modIn n p (fun i => { i with hunt := h })

/-- SF_LOCK shows the path the channel releases from. -/
def sfShow (n p : Nat) (s : State) : State :=
  if selPath s n = p then s.setF (L1_RUN_SF_LOCK n) (s.l1In n p).sfAt.isSome.toNat else s

/-- Superframe alignment of an SDH path (R200): the place of this frame, once locked. -/
def sfStep (n p : Nat) (oh : List Byte) (s : State) : Option Nat × State :=
  let i := s.l1In n p
  let word := decide (oh = [0x4C, 0x31])
  let c := i.sfCount
  let next := (c + 1) % 64
  match i.sfAt with
  | some a =>
    let k := (c + 64 - a + 8) % 64
    if k ≠ 8 then (some k, s.modIn n p (fun i => { i with sfCount := next }))
    else if word then (some k, s.modIn n p (fun i => { i with sfCount := next, sfBad := 0 }))
    else if i.sfBad + 1 < 3 then (some k, s.modIn n p (fun i => { i with sfCount := next, sfBad := i.sfBad + 1 }))
    else
      (none, sfShow n p ((s.modIn n p (fun i => { i with sfCount := next, sfBad := 0, sfAt := none, sfSeen := [] })).report
        unitChan 0x030A n n))
  | none =>
    if word && i.sfSeen.contains c then
      (some 8, sfShow n p (s.modIn n p (fun i => { i with sfCount := next, sfAt := some c, sfBad := 0, sfSeen := [] })))
    else
      (none, s.modIn n p (fun i => { i with
        sfCount := next, sfSeen := if word then c :: i.sfSeen else i.sfSeen.filter (· ≠ c) }))

/-! ### Release (R207, R208, R285) -/

/-- A frame leaves on the plain side; substituted, it is all ones. -/
def l1Out (n efn : Nat) (ais : Bool) (opu payload : List Byte) (s : State) : State :=
  let k := s.getF (CH_CFG_EGRESS_PORT n)
  let ais := ais || s.isSet (L1_RUN_AIS n)
  let s := if ais then inStat n 6 1 s else inStat n 3 payload.length (inStat n 2 1 s)
  s.emit (.l1Frame k efn [0, 0] (if ais then opu.map (fun _ => 0xFF) else opu) ais
    (if ais then List.replicate payload.length 0xFF else payload))

/-- The frames of the selected path that every live path has reached leave in order; the other path's copies go (R285). -/
def l1MergeGo (n : Nat) (s : State) : State :=
  let reached := fun (e : Nat) => [1, 2].all (fun p => pathLost s n p
    || (s.l1In n p).last.any (fun x => !efnBefore x.2 e))
  let held := (s.chan n).tw.held
  let ready := held.filter (fun u => decide (u.path = selPath s n) && reached u.asn.toNat)
  let old := fun (l : Option Nat) (u : HeldUnit) => l.any (fun e => !efnBefore e u.asn.toNat)
  let s := ready.foldl (fun s u =>
    if old (s.chan n).l1.lastRel u then s
    else
      let len := 16 * l1Blocks s n
      let o := u.frame.length - len
      l1Out n u.asn.toNat (!u.lead) (u.frame.take o) (u.frame.drop o)
        (s.modL1 n (fun l => { l with lastRel := some u.asn.toNat }))) s
  let last := (s.chan n).l1.lastRel
  heldRefresh (s.modTw n (fun t => { t with held := t.held.filter (fun u => !old last u) }))

/-- A frame that has met its checks goes to the plain side, or in a pair to the merge; `ais` where a check before the tag
failed (R208). -/
def l1Release (n p efn : Nat) (ais : Bool) (opu payload : List Byte) (s : State) : State :=
  if s.chTwin n then
    l1MergeGo n (s.modTw n (fun t => { t with held := t.held ++ [
      { epoch := 0, asn := BitVec.ofNat 64 efn, frame := opu ++ payload, path := p, lead := !ais, tag := 0 }] }))
  else l1Out n efn ais opu payload s

/-! ### Inbound (R192, R206, R208) -/

/-- The EFN recovered for frame k of its multiframe (R73, R74). -/
def l1Efn (s : State) (n k : Nat) : Nat :=
  let F := l1Frames s n
  let last := (s.rd64 (CH_IN_POS_LO n)).toNat
  if ([1, 2].all (fun p => (s.l1In n p).last.isNone)) then last / F * F + k
  else extendNear last (if s.isSdh n then 6 else 8) 48 k

/-- Overhead bytes of frame k of a path: tag bytes and the Bridle stream. -/
def l1OhIn (n p k : Nat) (oh : List Byte) (s : State) : State :=
  if k < 8 then s.modIn n p (fun i => { i with tag := if i.tag.length = 2 * k then i.tag ++ oh.take 2 else i.tag })
  else if k = 8 && s.isSdh n then s
  else l1BrIn n p (oh.getD 1 0) (l1BrIn n p (oh.getD 0 0) s)

/-- A frame with a recovered position meets key and order, and is decrypted (R133, R192, R208). -/
def l1Decrypt (n p efn : Nat) (opu payload : List Byte) (s : State) : State :=
  match l1Key s n 1 efn with
  | none => l1Release n p efn true opu payload (refuse n 0x1B s)
  | some j =>
    let e := (s.slot j).epoch
    let back := (s.l1In n p).last.any (fun x => decide (x.1 = e) && !efnBefore x.2 efn)
    if back then
      l1Release n p efn true opu payload (tagFail n (posEvt POS_EVT_BACK_RX 873 (s.report unitPos 0x0106 n n)))
    else
      let s := s.modIn n p (fun i => { i with last := some (e, efn), good := i.good + 1, aad := i.aad ++ opu ++ payload })
      let s := s.wr64 (CH_IN_POS_LO n) (BitVec.ofNat 64 efn)
      let s := if (s.chan n).l1.epochIn = some e then s
        else s.modL1 n (fun l => { l with
          epochIn := some e
          firstIn := if efnSw s n 1 ≠ efnUnfixed && !efnBefore efn (efnSw s n 1) then efnSw s n 1 else efn })
      l1Release n p efn false opu
        (l1Crypt (dirKey s n 1 j) (1 - s.getF (L1_POL_LO_DIR n)) (s.getF (L1_POL_LO_PEER_CH n)) efn payload)
        (pathLive n p s)

/-- L1_CIPHER_FRAME_RX (R192, R199, R206, R208): a frame of the channel's cipher-side signal: its path, MFAS (OTN), the two overhead
bytes the channel uses, its OPU overhead (OTN), and its payload area. -/
def execL1CipherFrameRx (n : Fin 512) (path2 : Bool) (mfas : Byte) (oh opu payload : List Byte) (s : State) :
    Host.Outcome State Fault Refusal :=
  let n := n.val
  let p := if path2 && s.chTwin n then 2 else 1
  if decide (s.chMode n ≠ 2) || decide (payload.length ≠ 16 * l1Blocks s n) then .next s
  else
    match inboundRefusal s n with
    | some code => .next (refuse n code s)
    | none =>
      let s := inStat n 1 payload.length (inStat n 0 1 s)
      let f := if s.isSdh n then sfStep n p oh s else (some mfas.toNat, s)
      let s := f.2
      match f.1 with
      | none => .next (l1Release n p (s.rd64 (CH_IN_POS_LO n)).toNat true opu payload (refuse n 0x1A s))
      | some k =>
        if !(s.chan n).l1.posOk then
          .next (l1Release n p (s.rd64 (CH_IN_POS_LO n)).toNat true opu payload (refuse n 0x1A (l1OhIn n p k oh s)))
        else
          let efn := l1Efn s n k
          let s := l1MfStep n p (efn / l1Frames s n) k (l1Key s n 1 efn) s
          let s := l1OhIn n p k oh s
          let s := if 7 ≤ k then l1CheckDue n p s else s
          .next (l1Decrypt n p efn opu payload s)

end Sys2Proof.Machine
end

