-- ==== Sys2Proof/Machine/Zero.lean ====
section
/-!
DEFINITION. Zeroisation (spec/09 R245, R246).
-/

namespace Sys2Proof.Machine

/-- The Loft word that holds ERASE_PEND in bit 0 and ZEROISED in bit 1 (R547). -/
def loftFlags (erase zeroised : Bool) (s : State) : State :=
  (loftProgram 1 (BitVec.ofNat 64 (erase.toNat + 2 * zeroised.toNat)) s).setF TR_STAT_ERASE_PEND erase.toNat

/-- A frame in transmission when its key goes: its remaining octets are zeros and its FCS is inverted (R246). How much of it has
left is not stated. -/
def endZeroed (u : OutUnit) (s : State) : State :=
  let f := protectedFrame s u
  let f := f.take (f.length - 4)
  let p := s.draw
  let k := p.1 % (f.length + 1)
  let g := f.take k ++ zeros (f.length - k)
  p.2.emit (.frame (32 + s.txPort u.ch) (g ++ badFcsOf g))

/-- Every unit that waits or is leaving ends (R246); those that have not begun have no key any more. -/
def endUnits (s : State) : State :=
  let s := (s.units.filter (fun u => u.onLine && decide (s.chMode u.ch = 0))).foldl (fun s u => endZeroed u s) s
  let s := (s.units.filter (fun u => !u.onLine)).foldl (fun s u => refuse u.ch 0x11 s) s
  { s with units := [], pend := [] }

/-- Every channel direction loses its keys; a layer-1 channel is held (R245, R246). -/
def loseKeys (s : State) : State :=
  (List.range 512).foldl
    (fun s n =>
      let had := [0, 1].any (fun d => decide (s.rd (KB_ROLES n d) ≠ 0))
      if had then
        let s := disarmSwitch n 1 (disarmSwitch n 0 s)
        let s := [0, 1].foldl (fun s d => keyShow n d (s.wr (KB_ROLES n d) 0)) s
        let s := chEvt n (CH_EVT_KEY_EMPTY n) s
        if s.chMode n = 2 && s.chState n ≠ 0 then holdChan n s else s
      else s) s

/-- ZERO_N_ASSERT (R245, R246): ZERO_N has been low for 200 ns: the caches and the deposit buffers are cleared, no key is in force. -/
def execZeroNAssert (s : State) : Host.Outcome State Fault Refusal :=
  let s := loseKeys (endUnits s)
  let s : State := { s with tack := { s.tack with
    cached := [], deposits := [], ck := [], zeroLow := true, zeroVault := true } }
  .next (s.report unitTack 0x0507 noPath 0)

/-- ZEROISE_VAULT_DONE (R245): the Tack room holds zeros; ZEROISED rises and SK_OK falls; the Loft's erase begins. -/
def execZeroiseVaultDone (s : State) : Host.Outcome State Fault Refusal :=
  if s.tack.zeroVault then
    let s : State := { s with tack := { s.tack with
      slots := [], keks := [], pairs := [], idSeed := [], twinKey := [], deposits := [], ck := [], cached := [], kemPair := none,
      zeroVault := false } }
    let s := (s.setF TR_STAT_KEK_VALID 0).setF TR_PAIR_VALID_PAIR_VALID 0
    let s := ((s.setF TR_STAT_ZEROISED 1).setF TR_STAT_SK_OK 0).setF TR_STAT_ID_VALID 0
    .next (loftFlags true true (slotsRefresh s))
  else .next s

/-- The wrapped keys of the Loft are overwritten (R245): blobs, KEK 1–15, pairing secrets, the identity seed. -/
def eraseLoftKeys (s : State) : State :=
  let s := loftStore 0x1A20 (zeros 40) s
  let s := (List.range 15).foldl (fun s k => loftStore (0x3000 + 64 * (k + 1)) (zeros 40) s) s
  let s := (List.range 32).foldl (fun s p => loftStore (0x3400 + 128 * p) (zeros 40) s) s
  (List.range 1024).foldl (fun s a => loftStore (0x18000 + 64 * a) (zeros 64) s) s

/-- KEK 0 is derived again once ZERO_N is high and no erase is pending (R245). -/
def kek0Again (s : State) : State :=
  if !s.tack.zeroLow && !s.tack.zeroVault && !s.isSet TR_STAT_ERASE_PEND && !s.isSet TR_STAT_SK_OK then deriveKek0 s else s

/-- LOFT_KEY_ERASE_DONE (R245): the wrapped keys of the Loft are zeros and ERASE_PEND is 0. -/
def execLoftKeyEraseDone (s : State) : Host.Outcome State Fault Refusal :=
  if s.isSet TR_STAT_ERASE_PEND then
    let s := loftFlags false (s.isSet TR_STAT_ZEROISED) (eraseLoftKeys s)
    .next (kek0Again s)
  else .next s

/-- ZERO_N_RELEASE (R245): ZERO_N is high again. -/
def execZeroNRelease (s : State) : Host.Outcome State Fault Refusal :=
  .next (kek0Again { s with tack := { s.tack with zeroLow := false } })

end Sys2Proof.Machine
end

