-- ==== Sys2Proof/Machine/Changes.lean ====
section
/-!
DEFINITION. Channels opened, changed and closed at their change beats (spec/05 R112 to R116, R126, spec/09 R242).
-/

namespace Sys2Proof.Machine

/-! ### Leases given up (R317, R320) -/

/-- The voters (R316). -/
def votersSeen (s : State) : List Nat := s.fab.voters

/-- A bitmap of channel paths: bit n of 64 bytes names channel n (R317). -/
def pathBitmap (l : List Nat) : List Byte :=
  bytesOf 64 (fun i => BitVec.ofNat 8 (((List.range 8).filter (fun b => l.contains (8 * i + b))).foldl (fun a b => a + 2 ^ b) 0))

/-- The paths a bitmap names. -/
def bitmapPaths (l : List Byte) : List Nat := (List.range 512).filter (fun n => at' l (n / 8) / 2 ^ (n % 8) % 2 = 1)

/-- Body of a LEASE message (R317). -/
def leaseBody (s : State) (sub no : Nat) (paths : List Nat) : List Byte :=
  [BitVec.ofNat 8 sub] ++ beBytes 8 (s.rd64 FAB_GEN_LO).toNat ++ beBytes 4 no ++ pathBitmap paths

/-- A path's custody list (R315). -/
def custody (s : State) (n : Nat) : List Nat :=
  (if s.isSet (FAB_CUST_01_V0 n) then [s.getF (FAB_CUST_01_CAND0 n)] else [])
    ++ (if s.isSet (FAB_CUST_01_V1 n) then [s.getF (FAB_CUST_01_CAND1 n)] else [])
    ++ (if s.isSet (FAB_CUST_23_V2 n) then [s.getF (FAB_CUST_23_CAND2 n)] else [])
    ++ (if s.isSet (FAB_CUST_23_V3 n) then [s.getF (FAB_CUST_23_CAND3 n)] else [])

/-- A path is this device's own while its channel is OPEN: no fabric, no custody list, or a Twin-mode channel, whose one
eligible device is the Twin of its path (R315, R322). -/
def ownsPath (s : State) (n : Nat) : Bool := !s.isSet FAB_CFG_EN || (custody s n).isEmpty || s.chTwin n

/-- The lease on a path ends: it no longer sends (R19, R319). -/
def leaseDrop (n : Nat) (s : State) : State :=
  let s := ((s.setF (FAB_LEASE_HELD n) 0).setF (FAB_LEASE_REMAIN n) 0).setF (CH_STAT_LEASE n) 0
  { s with fab := { s.fab with leaseEnd := tblDel n s.fab.leaseEnd } }

/-- A path is released: RELEASE goes to every voter, and this device's own promise is cleared (R318, R320). -/
def leaseRelease (n : Nat) (s : State) : State :=
  if s.isSet (FAB_LEASE_HELD n) then
    let s := leaseDrop n s
    let s : State := { s with fab := { s.fab with promise := tblSet none n none s.fab.promise } }
    ((votersSeen s).filter (· ≠ s.devId)).foldl (fun s d => fabSend d 0xA 0 0 0 (leaseBody s 4 s.fab.leaseNo [n]) s) s
  else s

/-! ### Opening (R112, R113, R242) -/

/-- The persisted key of a channel: its blob's slot and AN, epoch and area (R241, R242). -/
def persistedBlob (s : State) (n : Nat) : Option (List Byte × Nat × Nat) :=
  let area := fun (a : Nat) => s.loftBytes (0x18000 + 128 * n + 64 * a) 64
  let bad := fun (a : Nat) => (List.range 8).any (fun i => s.loftBad.contains (loftBlobWord n a + i))
  let last := ringLast s n 0
  match [0, 1].find? (fun a => !bad a && decide (le (area a) 60 1 % 2 = 1) && decide (some (be (area a) 56 4) = last)) with
  | some a => (unwrap (s.kek 0) ((area a).take 56)).map (fun p => (p, be (area a) 56 4, a))
  | none => none

/-- The epoch and count of a reservation word, where it holds this epoch; else 1 (R241, R242). -/
def markCount (s : State) (w epoch : Nat) : Nat :=
  let v := (s.loftWord w).toNat
  if !s.loftBad.contains w && decide (v / 2 ^ 32 = epoch) && decide (v % 2 ^ 32 ≠ 0) then v % 2 ^ 32 else 1

/-- A persisted key resumes at the first open of its channel after the reset (R242). -/
def resumeKey (n : Nat) (s : State) : State :=
  let xpn := decide (s.getF (FRM_POL_LO_SUITE n) ≥ 2)
  let badWord := s.loftBad.contains (loftResvWord n) || s.loftBad.contains (loftPnWord n)
  if (s.chan n).opened || s.chMode n ≠ 0 || !xpn || !s.isSet (CH_CFG_KEY_HOST n) || badWord then s
  else match persistedBlob s n with
    | none => s
    | some (p, e, _) =>
      let an := at' p 46 % 4
      let m := markCount s (loftResvWord n) e
      let b := markCount s (loftPnWord n) e
      let s := slotsRefresh (s.setSlot (slotOf n 0)
        { kind := 2, bytes := p.take 46, epoch := e, an := an, keyId := zeros 16, persist := true, bad := false })
      let s := [0, 1].foldl (fun s d =>
        let s := ((s.setF (KB_ROLES_CUR_V n d) 1).setF (KB_ROLES_CUR_SLOT n d) 0).setF (KB_ROLES_KIND n d) 2
        keyShow n d (((s.setF (KB_ROLES_AN n d) an).setF (KB_ROLES_PERSIST n d) 1).setF (KB_EPOCH_EPOCH n d) e)) s
      let s := s.wr64 (CH_OUT_ASN_LO n) (BitVec.ofNat 64 (m * 2 ^ 32))
      let s := s.wr64 (CH_REPLAY n (4 * an + 2)) (BitVec.ofNat 64 (b * 2 ^ 32))
      let s := s.modChan n (fun c => { c with
        resvM := m, resvBusy := true, pnMark := b, pnBusy := false, inFloor := some (an, b * 2 ^ 32) })
      let s := loftEnqueue (loftResvWord n) (BitVec.ofNat 64 (e * 2 ^ 32 + m + 1)) true (.resv n (m + 1)) s
      s.report unitTack 0x0508 n e

/-- Counters from one offset of a Stall to another are set to 0. -/
def clearWords (o : Nat) : Nat → State → State
  | 0, s => s
  | k + 1, s => clearWords (o + 4) k (s.wr o 0)

/-- A channel enters OPEN at its change beat (R112): statistics and ASNs are cleared; after a reset a cell-mode or layer-1
channel starts held (R81). -/
def applyOpen (n : Nat) (b : Beat) (s : State) : State :=
  if s.chState n ≠ 0 then s
  else
    let c := s.chan n
    let s := clearWords (CH_OUT_STAT n 0) 192 (((s.wr64 (CH_OUT_ASN_LO n) 0).wr64 (CH_IN_ASN_LO n) 0).wr64 (CH_IN_POS_LO n) 0)
    let s := clearWords (CH_MODE_W0_LO n) 8 (clearWords (CH_REPLAY n 0) 16 s)
    let s := if s.chMode n = 2 then
        (s.wr64 (CH_MODE_W1_LO n) (BitVec.allOnes 64)).wr64 (CH_MODE_W2_LO n) (BitVec.allOnes 64)
      else s
    let s := s.modChan n (fun c => { Chan.reset with
      epochLen := c.epochLen, lastOut := ringLast s n 0, lastIn := ringLast s n 1, lastPersist := c.lastPersist,
      beginOut := b, opened := c.opened, switched := c.switched,
      l1 := { L1Ch.reset with efnAt := some b.toNat, efnWait := !c.switched, pol := s.rd (L1_POL_LO n) } })
    let s := resumeKey n s
    let s := s.modChan n (fun c => { c with opened := true })
    let s := chEvt n (CH_EVT_OPENED n) (s.setF (CH_CFG_STATE n) 1)
    let s := s.setF (CH_STAT_LEASE n) (ownsPath s n).toNat
    let s := if (s.chMode n = 1 ∨ s.chMode n = 2) ∧ !c.switched then holdChan n s else s
    gapRefresh n s

/-- A channel leaves OPEN at its change beat (R112): its path stops sending and its lease is released (R320). -/
def applyClose (n : Nat) (s : State) : State :=
  if s.chState n ≠ 1 then s
  else
    let s := s.setF (CH_CFG_STATE n) 2
    let s := s.modChan n (fun c => { c with closing := s.now })
    (leaseRelease n s).setF (CH_STAT_LEASE n) 0

/-- Is the word of a channel policy register under which frames are refused in future? A changed word is stored; a change of
KEY_HOST waits for the next switch (R357). -/
def applyWord (n : Nat) (x : Nat × Word) (s : State) : State :=
  if x.1 = CH_CFG n then
    let host := fldGet 26 26 x.2
    let keep := s.rd (CH_CFG n) &&& 0xFE1FFFFF
    let s := s.wr (CH_CFG n) (keep ||| (x.2 &&& 0x01E00000))
    let s := s.setF (CH_CFG_BRIDLE_HOST n) (fldGet 25 25 x.2)
    if host = s.getF (CH_CFG_KEY_HOST n) then s.modChan n (fun c => { c with nextHost := none })
    else s.modChan n (fun c => { c with nextHost := some (host = 1) })
  else if x.1 = CH_POLICY n ∨ x.1 = CH_POLICY2 n ∨ x.1 = CH_BIND n ∨ x.1 = FRM_POL_LO n ∨ x.1 = FRM_POL_HI n ∨ x.1 = TWC_CFG n then
    s.wr x.1 x.2
  else s.modChan n (fun c => { c with nextLen := some x.2.toNat })

/-- A Gate's enable, bank and unmatched handling change (R126). -/
def applyGate (g cfg : Nat) (s : State) : State :=
  let s := (s.setF (GATE_CFG_EN g) (cfg / 2 % 2)).setF (GATE_CFG_ACTIVE g) (cfg % 2)
  (s.setF (GATE_CFG_UNMATCHED g) (cfg / 4 % 2)).setF (GATE_CFG_UNM_Q g) (cfg / 256 % 8)

/-- One change takes effect. -/
def applyChange (b : Beat) (c : Change) (s : State) : State :=
  match c with
  | .open n => applyOpen n b s
  | .close n => applyClose n s
  | .modify n ws => gapRefresh n (ws.foldl (fun s x => applyWord n x s) s)
  | .gate g cfg => applyGate g cfg s

/-- CHANGE_BEAT_APPLY (R113, R116, R126): every change whose beat has come takes effect, in the order of commit. -/
def execChangeBeatApply (s : State) : Host.Outcome State Fault Refusal :=
  let due := s.changes.filter (fun c => s.beatDue c.1)
  let s : State := { s with changes := s.changes.filter (fun c => !s.beatDue c.1) }
  .next (due.foldl (fun s c => applyChange c.1 c.2 s) s)

/-! ### Closing (R112, R229) -/

/-- The units of a channel still held, in either direction. -/
def heldUnits (s : State) (n : Nat) : Nat :=
  ((s.units ++ s.pend).filter (fun u => u.ch = n)).length + (s.inq.filter (fun u => u.ch = some n)).length
    + (s.chan n).tw.held.length

/-- A channel enters CLOSED (R112): its key slots are released, its session and its hold end. -/
def enterClosed (n : Nat) (s : State) : State :=
  let s := disarmSwitch n 1 (disarmSwitch n 0 s)
  let s := releaseSlots n (releaseHold n s)
  let s := s.modBr n (fun _ => Session.reset)
  let s := ((s.setF (BR_STAT_STATE n) 0).setF (BR_STAT_EXCH n) 0).setF (BR_STAT_TRIES n) 0
  let s : State := { s with
    brTx := s.brTx.filter (fun m => m.ch ≠ n)
    brIn := s.brIn.filter (fun m => m.ch ≠ n)
    ledger := { s.ledger with mutes := s.ledger.mutes.filter (fun m => m.1 ≠ n) } }
  chEvt n (CH_EVT_CLOSED n) ((s.setF (CH_STAT_MUTED n) 0).setF (CH_CFG_STATE n) 0)

/-- CLOSING_DRAINED (R112): every accepted unit of a CLOSING channel has left. -/
def execClosingDrained (n : Fin 512) (s : State) : Host.Outcome State Fault Refusal :=
  if decide (s.chState n.val = 2) && decide (heldUnits s n.val = 0) then .next (enterClosed n.val s) else .next s

/-- CLOSING_TIMEOUT (R112): 100 µs after entry, what is still held is discarded. -/
def execClosingTimeout (n : Fin 512) (s : State) : Host.Outcome State Fault Refusal :=
  let n := n.val
  if s.chState n = 2 then
    let k := heldUnits s n
    let s : State := { s with
      units := s.units.filter (fun u => u.ch ≠ n)
      pend := s.pend.filter (fun u => u.ch ≠ n)
      inq := s.inq.filter (fun u => u.ch ≠ some n) }
    let s := heldRefresh (s.modTw n (fun t => { t with held := [] }))
    .next (enterClosed n (s.cnt64 (CH_REFUSE n 14) k))
  else .next s

end Sys2Proof.Machine
end

