-- ==== Sys2Proof/Machine/DrayVec.lean ====
section
/-!
DEFINITION. The vector unit of a Dray core (spec/17): what each vector op computes of an element, and how an op streams
through its groups, one register per issue cycle. A vector op is named by `op` = 8 × major opcode + fn.
-/

namespace Sys2Proof.Machine

/-! ### Elements (R420, R424) -/

/-- Element `i` of width `w` of a register. -/
def elt (w reg i : Nat) : Nat := reg / 2 ^ (w * i) % 2 ^ w

/-- A pattern of `w` bits as a signed value. -/
def sgn (w n : Nat) : Int := if n < 2 ^ (w - 1) then (n : Int) else (n : Int) - (2 : Int) ^ w

/-- A value modulo 2 to the power `w`. -/
def wrapTo (w : Nat) (x : Int) : Nat := (x % (2 : Int) ^ w).toNat

/-- Element `i` of a group read register by register. -/
def grpElt (w : Nat) (l : List Nat) (i : Nat) : Nat := elt w (l.getD (i / (1024 / w)) 0) (i % (1024 / w))

/-- A value held to a range, and whether it lay outside (R433). -/
def clamp (lo hi x : Int) : Int × Bool := if x < lo then (lo, true) else if hi < x then (hi, true) else (x, false)

/-- sat() of R433. -/
def satS (w : Nat) (x : Int) : Nat × Bool :=
  let c := clamp (-((2 : Int) ^ (w - 1))) ((2 : Int) ^ (w - 1) - 1) x
  (wrapTo w c.1, c.2)

/-- satu() of R433. -/
def satU (w : Nat) (x : Int) : Nat × Bool :=
  let c := clamp 0 ((2 : Int) ^ w - 1) x
  (wrapTo w c.1, c.2)

/-- Bits of a, b by a bitwise op of width w. -/
def bitsOp (w : Nat) (f : BitVec 64 → BitVec 64 → BitVec 64) (a b : Nat) : Nat :=
  (f (BitVec.ofNat 64 a) (BitVec.ofNat 64 b)).toNat % 2 ^ w

/-- A condition of R406 on two patterns of `w` bits: 0 EQ, 1 NE, 2 LT, 3 GE, 4 LTU, 5 GEU, 6 TST, 7 NTST. -/
def condHolds (w cond a b : Nat) : Bool :=
  match cond with
  | 0 => a = b
  | 1 => a ≠ b
  | 2 => sgn w a < sgn w b
  | 3 => sgn w b ≤ sgn w a
  | 4 => a < b
  | 5 => b ≤ a
  | 6 => bitsOp w (· &&& ·) a b ≠ 0
  | _ => bitsOp w (· &&& ·) a b = 0

/-- Majors 0x38 and 0x39 on an element (R424). -/
def vAlu (op w a b : Nat) : Nat :=
  match op with
  | 0x1C0 => (a + b) % 2 ^ w
  | 0x1C1 => (a + 2 ^ w - b) % 2 ^ w
  | 0x1C2 => bitsOp w (· &&& ·) a b
  | 0x1C3 => bitsOp w (· ||| ·) a b
  | 0x1C4 => bitsOp w (· ^^^ ·) a b
  | 0x1C5 => if sgn w a < sgn w b then a else b
  | 0x1C6 => if sgn w a < sgn w b then b else a
  | 0x1C7 => min a b
  | 0x1C8 => max a b
  | 0x1C9 => a * 2 ^ (b % w) % 2 ^ w
  | 0x1CA => a / 2 ^ (b % w)
  | 0x1CB => wrapTo w (sgn w a / (2 : Int) ^ (b % w))
  | _ => a

/-- Major 0x3B on an element, `old` the destination's (R424, R431). -/
def vMulElt (op w a b old : Nat) : Nat :=
  match op with
  | 0x1D8 => a * b % 2 ^ w
  | 0x1D9 => wrapTo w (sgn w a * sgn w b / (2 : Int) ^ w)
  | 0x1DA => a * b / 2 ^ w
  | 0x1DB => wrapTo (2 * w) (sgn w a * sgn w b)
  | 0x1DC => a * b
  | 0x1DD => wrapTo (2 * w) ((old : Int) + sgn w a * sgn w b)
  | _ => (old + a * b) % 2 ^ (2 * w)

/-- The saturating and rounding ops (R433). -/
def vFixed (op w a b imm : Nat) : Nat × Bool :=
  match op with
  | 0x1E0 => satS w (sgn w a + sgn w b)
  | 0x1E1 => satS w (sgn w a - sgn w b)
  | 0x1E2 => satU w ((a : Int) + b)
  | 0x1E3 => satU w ((a : Int) - b)
  | 0x1E4 => satS w (2 * sgn w a * sgn w b / (2 : Int) ^ w)
  | 0x1E5 => satS w ((2 * sgn w a * sgn w b + (2 : Int) ^ (w - 1)) / (2 : Int) ^ w)
  | 0x1E8 => (wrapTo w ((sgn w a + (2 : Int) ^ imm) / (2 : Int) ^ (imm + 1)), false)
  | 0x1E9 => ((a + 2 ^ imm) / 2 ^ (imm + 1) % 2 ^ w, false)
  | 0x1EA =>
    if imm + 1 < w then
      let c := clamp (-((2 : Int) ^ imm)) ((2 : Int) ^ imm - 1) (sgn w a)
      (wrapTo w c.1, c.2)
    else (a, false)
  | _ => if imm + 1 < w then (min a (2 ^ (imm + 1) - 1), decide (2 ^ (imm + 1) - 1 < a)) else (a, false)

/-- VMODRED (R432): fn 4 unsigned 16, 5 unsigned 32, 6 signed 32, 7 signed 16; q of 0 is 65,536. -/
def vModred (op a q : Nat) : Nat :=
  let q := if q = 0 then 65536 else q
  match op with
  | 0x1EC => a % q
  | 0x1ED => a % q
  | 0x1EE => (sgn 32 a % (q : Int)).toNat
  | _ => (sgn 16 a % (q : Int)).toNat

/-- Element width of the destination and of the sources of an op. -/
def vWidthD (op ew : Nat) : Nat := if 0x1DB ≤ op ∧ op ≤ 0x1DE then 2 * ew else if op = 0x1DF then 64 else ew
def vWidthS (op ew : Nat) : Nat := if op = 0x1ED ∨ op = 0x1EE then 32 else ew

/-- VDOT4 on destination element l (R431). -/
def vDot4 (st : VStream) (l old : Nat) : Nat :=
  wrapTo 64 ((List.range 4).foldl
    (fun x m => x + sgn 16 (grpElt 16 st.src1 (4 * l + m)) * sgn 16 (grpElt 16 st.src2 (4 * l + m))) (old : Int))

/-- Is element `i` active? (R422) -/
def vActive (st : VStream) (i : Nat) : Bool := decide (i < st.vl) && decide (st.mask / 2 ^ i % 2 = 1)

/-- What an op writes to destination element `i`, and whether it saturated. -/
def vElement (st : VStream) (i : Nat) : Nat × Bool :=
  let a := grpElt (vWidthS st.op st.ew) st.src1 i
  let b := grpElt st.ew st.src2 i
  let old := grpElt (vWidthD st.op st.ew) st.old i
  if st.op < 0x1D0 then
    if st.op = 0x1CD then ((if st.mask / 2 ^ i % 2 = 1 then a else b), false) else (vAlu st.op st.ew a b, false)
  else if st.op = 0x1DF then (vDot4 st i old, false)
  else if st.op < 0x1E0 then (vMulElt st.op st.ew a b old, false)
  else if st.op < 0x1EC then vFixed st.op st.ew a b st.imm
  else (vModred st.op a st.imm, false)

/-- Does an op write destination element `i`? VSEL's mask selects, VDOT4 counts its own elements. -/
def vWrites (st : VStream) (i : Nat) : Bool :=
  if st.op = 0x1CD then decide (i < st.vl)
  else if st.op = 0x1DF then decide (i < st.vl / 4)
  else vActive st i

/-- Destination register k of an op: its bits, the bits written, saturation. -/
def vRegister (st : VStream) (k : Nat) : Nat × Nat × Bool :=
  let w := vWidthD st.op st.ew
  (List.range (1024 / w)).foldl
    (fun x e =>
      let i := k * (1024 / w) + e
      if vWrites st i then
        let r := vElement st i
        (x.1 + r.1 * 2 ^ (w * e), x.2.1 + (2 ^ w - 1) * 2 ^ (w * e), x.2.2 || r.2)
      else x) (0, 0, false)

/-- VCMP (R424): the bits of the mask it writes, by comb; `old` is the mask as read at issue. -/
def vCompare (st : VStream) : Nat × Nat :=
  (List.range st.vl).foldl
    (fun x i =>
      if vActive st i then
        let c := condHolds st.ew (st.imm % 8) (grpElt st.ew st.src1 i) (grpElt st.ew st.src2 i)
        let m := st.imm / 8 / 2 ^ i % 2 = 1
        let v := match st.op with
          | 0x1D0 => c
          | 0x1D1 => m && c
          | _ => m || c
        (x.1 + v.toNat * 2 ^ i, x.2 + 2 ^ i)
      else x) (0, 0)

/-- A reduction (R424): 0 VREDSUM, 1 VREDMAX, 2 VREDMIN, 3 VMVXS. -/
def vReduce (st : VStream) : Nat :=
  let w := st.ew
  let act := (List.range st.vl).filter (vActive st)
  match st.op % 8 with
  | 0 => act.foldl (fun x i => (x + grpElt w st.src1 i) % 2 ^ w) 0
  | 1 => wrapTo w (act.foldl (fun x i => max x (sgn w (grpElt w st.src1 i))) (-((2 : Int) ^ (w - 1))))
  | 2 => wrapTo w (act.foldl (fun x i => min x (sgn w (grpElt w st.src1 i))) ((2 : Int) ^ (w - 1) - 1))
  | _ => grpElt w st.src1 0

/-! ### Streams (R426 to R430) -/

/-- A vector register. -/
def Core.vr (c : Core) (n : Nat) : Nat := (tblGet 0 n c.vreg).toNat

/-- What a stream reads of a group in the cycle `d` after its issue (R426): register j at j × r. -/
def vRead (c : Core) (d steps base span : Nat) (got : List Nat) : List Nat :=
  if span = 0 then got
  else
    let r := steps / span
    if d % r = 0 ∧ d / r < span ∧ got.length ≤ d / r then got ++ [c.vr (base + d / r)] else got

/-- The old destination, with the results chained from where there are any (R428). -/
def vOld (c : Core) (st : VStream) (d : Nat) : List Nat :=
  let l := vRead c d st.steps st.vd st.spanD st.old
  match st.chain with
  | none => l
  | some ch =>
    if l.length = st.old.length then l
    else
      let j := st.old.length
      let e := ch.getD j (0, 0)
      let reg := BitVec.ofNat 1024 (l.getD j 0)
      st.old ++ [((BitVec.ofNat 1024 e.1 &&& BitVec.ofNat 1024 e.2) ||| (reg &&& ~~~ BitVec.ofNat 1024 e.2)).toNat]

/-- The bytes that source register k of a vector store writes (R430). -/
def vStoreCells (st : VStream) (k : Nat) : List (Nat × Byte) :=
  let n := 1024 / st.ew
  (List.range n).foldl
    (fun l e =>
      let i := k * n + e
      match (st.addrs.getD i none) with
      | some a => l ++ ((leBytes (st.ew / 8) (grpElt st.ew st.src1 i)).zipIdx.map (fun b => (a + b.2, b.1)))
      | none => l) []

/-- A scalar result of a reduction, as landings on an s register or the halves of a d register (R424). -/
def vScalar (st : VStream) (cyc : Nat) : List Landing :=
  let v := vReduce st
  let mk := fun (code val : Nat) =>
    ({ land := cyc + 4, slot := 7, issued := st.start, code := code, value := val, mask := 0, qc := false } : Landing)
  if st.ew = 64 then [mk (2 * st.vd) (v % 2 ^ 32), mk (2 * st.vd + 1) (v / 2 ^ 32)]
  else [mk st.vd (wrapTo 32 (sgn st.ew v))]

/-- One issue cycle of a stream: the stream, what it schedules, what it stores. -/
def vCycle (c : Core) (st : VStream) : VStream × List Landing × List LmStore :=
  let d := c.cyc - st.start
  let st : VStream := { st with src1 := vRead c d st.steps st.vs1 st.span1 st.src1, src2 := vRead c d st.steps st.vs2 st.span2 st.src2 }
  let last := decide (d + 1 = st.steps)
  if 0x1F8 ≤ st.op then (st, (if last then vScalar st c.cyc else []), [])
  else if 0x1D0 ≤ st.op ∧ st.op < 0x1D8 then
    let m := vCompare st
    (st, (if last && decide (st.vd ≠ 0) && decide (m.2 ≠ 0) then
      [{ land := c.cyc + 3, slot := 7, issued := st.start, code := 0x70 + st.vd, value := m.1, mask := m.2, qc := false }] else []), [])
  else if 0x1F0 ≤ st.op then
    (st, [], [{ vis := st.start + st.steps + 1, cells := vStoreCells st d }])
  else
    let st : VStream := { st with old := vOld c st d }
    let r := st.steps / st.spanD
    if (d + 1) % r = 0 ∧ (d + 1) / r ≤ st.spanD then
      let k := (d + 1) / r - 1
      let v := vRegister st k
      ({ st with done := st.done ++ [(v.1, v.2.1)] },
        if v.2.1 = 0 then [] else [{ land := c.cyc + st.lat, slot := 7, issued := st.start, code := 0x50 + st.vd + k, value := v.1, mask := v.2.1, qc := v.2.2 }], [])
    else (st, [], [])

/-- The multiply-accumulates of the vector unit that chain (R428). -/
def vChains (op : Nat) : Bool := op = 0x1DD || op = 0x1DE || op = 0x1DF

/-- One stream advances in the core. -/
def vAdvance (c : Core) (st : VStream) : Core :=
  let x := vCycle c st
  let fin := decide (c.cyc + 1 = x.1.start + x.1.steps)
  { c with
    flight := c.flight ++ x.2.1,
    stores := c.stores ++ x.2.2,
    streams := if fin then c.streams else c.streams ++ [x.1],
    vchain := if fin && vChains x.1.op
      then some { op := x.1.op, vd := x.1.vd, span := x.1.spanD, free := x.1.start + x.1.steps, done := x.1.done } else c.vchain }

/-- Every stream reads the registers of this issue cycle. -/
def vStreams (c : Core) : Core := c.streams.foldl vAdvance { c with streams := [] }

end Sys2Proof.Machine
end

