-- ==== Sys2Proof/Machine/Paddock.lean ====
section
/-!
DEFINITION. Paddock and Barn (spec/19): owners and viewers, aliases, never-written lines, ECC, regions, and the Groom.
-/

namespace Sys2Proof.Machine

/-- Window offset of Barn and its size (R34, R467). -/
def barnBase : Nat := 0x1000000000
def barnSize : Nat := 0x600000000

/-- The requester that holds the leadership token (R334). -/
def isLeader (s : State) (r : Requester) : Bool :=
  s.isSet YM_ARB_HELD && decide (r = if s.isSet YM_ARB_HOLDER then .ymW else .ymE)

/-- A stable-kernel core (R365): not given to customer tasks. -/
def stableCore (s : State) : Requester → Bool
  | .dray k => !s.isSet (DRAY_CTL_CUST k.val)
  | _ => false

/-! ### Paddock (R455 to R464) -/

/-- The bank of a Paddock offset. -/
def padBank (o : Nat) : Nat := o % 0x4000000 / 0x20000

/-- May the requester write a bank? (R456, R457) -/
def padMayWrite (s : State) (r : Requester) (b : Nat) : Bool :=
  if s.isSet (PADK_OWNER_PENDING b) then false
  else
    let peer := match r with
      | .peer _ => true
      | _ => false
    decide (s.getF (PADK_OWNER_OWNER b) = requesterCode r) || (peer && s.isSet (PADK_OWNER_REMOTE_W b))

/-- May the requester read a bank? (R456) -/
def padMayRead (s : State) (r : Requester) (b : Nat) : Bool :=
  let id := requesterCode r
  padMayWrite s r b || isLeader s r || decide ((s.rd64 (PADK_VIEW_LO b)).toNat / 2 ^ id % 2 = 1)

/-- Paddock lines touched by a range. -/
def padLines (o n : Nat) : List Nat := (List.range ((o % 64 + n + 63) / 64)).map (· + o / 64)

/-- 64-bit words touched by a range. -/
def wordsOf (o n : Nat) : List Nat := (List.range ((o % 8 + n + 7) / 8)).map (fun i => (o / 8 + i) * 8)

/-- Banks touched by a range of at most a bank's size. -/
def padBanks (o n : Nat) : List Nat := if padBank o = padBank (o + n - 1) then [padBank o] else [padBank o, padBank (o + n - 1)]

/-- An access refused under the owner rule (R456). -/
def ownViol (s : State) : BusStatus × State := (.ownViol, s.cntSat PADK_OWNVIOL_N 1)

/-- A read of a never-written line (R463). -/
def uninitRead (o : Nat) (s : State) : State :=
  let s := s.cntSat PADK_UNINIT_CNT_N 1
  let b := padBank o
  let f : Fld := ⟨PADK_UNINIT (b / 32), b % 32, b % 32⟩
  if s.isSet f then s else (s.setF f 1).report unitGroom 0x0A03 noPath (b + o * 2 ^ 16)

/-- An uncorrectable word is read (R464). -/
def padUncorr (w : Nat) (s : State) : State :=
  ((s.cntSat PADK_UNCORR_N 1).setF PADK_ERR_ERR_OFS (w / 8)).report unitGroom 0x0A02 noPath w

/-- A read of `n` bytes of Paddock at offset `o`, the aliases included (R456, R460 to R464). -/
def padRead (r : Requester) (o n : Nat) (s : State) : BusStatus × List Byte × State :=
  let o := o % 0x4000000
  if !(padBanks o n).all (padMayRead s r) then
    let v := ownViol s
    (v.1, [], v.2)
  else
    let fresh := (padLines o n).filter (fun l => !tblGet false l s.padWritten)
    let s := fresh.foldl (fun s l => uninitRead (l * 64) s) s
    match (wordsOf o n).find? (fun w => s.eccBad.contains w) with
    | some w => (.ecc, s.bytes o n, padUncorr w s)
    | none => (.ok, s.bytes o n, s)

/-- Bytes combined with what memory holds by an alias (R460): 0 plain, 1 set, 2 clear. -/
def aliasBytes (k : Nat) (old new : List Byte) : List Byte :=
  (old.zip new).map (fun e => if k = 1 then e.1 ||| e.2 else if k = 2 then e.1 &&& ~~~ e.2 else e.2)

/-- Bytes stored in Paddock by whoever may (R462): lines become written; a word covered whole loses its ECC error. -/
def padStore (o : Nat) (l : List Byte) (s : State) : State :=
  let k := o / 0x4000000
  let o := o % 0x4000000
  let v := aliasBytes k (s.bytes o l.length) l
  let whole := (wordsOf o l.length).filter (fun w => decide (o ≤ w) && decide (w + 8 ≤ o + l.length))
  let s := (padLines o l.length).foldl
    (fun s x => { s with padWritten := tblSet false x true s.padWritten }) (s.setBytes o v)
  if k = 0 then { s with eccBad := s.eccBad.filter (fun w => !whole.contains w) } else s

/-- The LOCK reservations that a write of the bytes from `o` breaks (R419): those of every core but the writer. -/
def breakLocks (writer : Option Nat) (o n : Nat) (s : State) : State :=
  let o := o % 0x4000000
  { s with cores := s.cores.map (fun e =>
      match e.2.lock with
      | some (w, true) =>
        if some e.1 ≠ writer && (padLines o n).contains (w / 64) then (e.1, { e.2 with lock := some (w, false) }) else e
      | _ => e) }

/-- The core that makes an access, if one does. -/
def coreOf : Requester → Option Nat
  | .dray k => some k.val
  | _ => none

/-- A write of Paddock (R456, R460, R462); it breaks the reservations of other requesters on its lines (R419). -/
def padWrite (r : Requester) (o : Nat) (l : List Byte) (s : State) : BusStatus × State :=
  if l.isEmpty then (.ok, s)
  else if !(padBanks (o % 0x4000000) l.length).all (padMayWrite s r) then ownViol s
  else (.ok, breakLocks (coreOf r) o l.length (padStore o l s))

/-! ### The token as the arbiter shows it (R334 to R336) -/

/-- NO_LEADER of every mailbox, and what the host sees of the token. -/
def showLead (s : State) : State :=
  let held := s.isSet YM_ARB_HELD
  let w := s.isSet YM_ARB_HOLDER
  let other := if w then s.isSet YM_ARB_READY_E else s.isSet YM_ARB_READY_W
  let s := ((s.setF HOST_LEAD_LEADER_VALID held.toNat).setF HOST_LEAD_LEADER w.toNat).setF HOST_LEAD_STANDBY_READY (held && other).toNat
  let s := s.setF HOST_LEAD_EPOCH_LO (s.getF YM_EPOCH_EPOCH)
  (List.range 16).foldl (fun s m => s.setF (MB_STATUS_NO_LEADER m) (!held).toNat) s

/-- The token is held by none. -/
def tokenDrop (s : State) : State := showLead (s.setF YM_ARB_HELD 0)

/-- Is Yardmaster y (0 YM-E, 1 YM-W) the holder? -/
def isHolder (s : State) (y : Nat) : Bool := s.isSet YM_ARB_HELD && decide (s.getF YM_ARB_HOLDER = y)

/-- READY and REQUEST of a Yardmaster, as the arbiter shows them. -/
def setReady (y : Nat) (ready request : Bool) (s : State) : State :=
  let s := (s.setF (YM_CTL_READY y) ready.toNat).setF (YM_CTL_REQUEST y) request.toNat
  let s := (s.setF (if y = 0 then YM_ARB_READY_E else YM_ARB_READY_W) ready.toNat).setF
    (if y = 0 then YM_ARB_REQ_E else YM_ARB_REQ_W) request.toNat
  if isHolder s y && !ready then tokenDrop s else showLead s

/-- A Yardmaster refused with LEAD_DENIED stops serving and becomes standby (R335, R336). -/
def ymDemote (y : Nat) (s : State) : State :=
  let s := s.cntSat (if y = 0 then YM_DENIED_DENIED_E else YM_DENIED_DENIED_W) 1
  let s := s.report (if y = 0 then unitYmE else unitYmW) 0x1002 noPath y
  setReady y (s.isSet (YM_CTL_READY y)) false s

/-- A write to a leader-only register by one who does not hold the token (R335, R336). -/
def leadRefuse (r : Requester) (o : Nat) (s : State) : State :=
  match r with
  | .ymE => (ymDemote 0 s).reply r .leadDenied 0
  | .ymW => (ymDemote 1 s).reply r .leadDenied 0
  | .host => (s.cntSat YM_HOST_DENIED_HOST_DENIED 1).reply r .denied 0
  | .peer _ => s.reply r .denied 0
  | _ => s.decodeFault r o

/-- PADK_OWN_BAD (R457, R472). -/
def ownBad (b : Nat) (s : State) : State :=
  (s.setF (PADK_OWNER_OWN_BAD b) 1).report unitGroom 0x0A04 noPath b

/-- An ID that PADK_OWNER may name (R456). -/
def ownerIdOk (i : Nat) : Bool := i ≤ 33 || (40 ≤ i && i ≤ 48) || i = 56 || i = 57 || i = 63

/-- OWNER_HANDOVER (R457): a write of NEW_OWNER by the owner or the token holder starts a handover. -/
def handover (r : Requester) (b : Nat) (v : Word) (s : State) : BusStatus × State :=
  let may := decide (s.getF (PADK_OWNER_OWNER b) = requesterCode r) || isLeader s r
  let id := fldGet 13 8 v
  if !may then
    let x := ownViol s
    (x.1, ownBad b x.2)
  else
    let s := if fldGet 29 29 v = 1 then s.setF (PADK_OWNER_OWN_BAD b) 0 else s
    if !ownerIdOk id || s.isSet (PADK_OWNER_PENDING b) then (.ok, ownBad b s)
    else (.ok, (((s.setF (PADK_OWNER_REMOTE_W b) (fldGet 30 30 v)).setF (PADK_OWNER_NEW_OWNER b) id).setF (PADK_OWNER_PENDING b) 1))

/-- OWNER_HANDOVER (R457): the write of NEW_OWNER to a bank. -/
def execOwnerHandover (r : Requester) (b : Fin 512) (v : Word) (s : State) : Host.Outcome State Fault Refusal :=
  let x := handover r b.val v s
  .next (x.2.reply r x.1 0)

/-- A far access that a core issued as the owner of bank b is under way (R457). -/
def ownerAccess (s : State) (b : Nat) : Bool :=
  s.cores.any (fun e => e.2.tags.any (fun t =>
    t.2.busy && t.2.owned && (padBanks (t.2.addr % 0x4000000) t.2.size).contains b))

/-- HANDOVER_DONE (R457): the old owner's earlier accesses are over. -/
def execHandoverDone (b : Fin 512) (s : State) : Host.Outcome State Fault Refusal :=
  let b := b.val
  if s.isSet (PADK_OWNER_PENDING b) && !ownerAccess s b then
    .next ((s.setF (PADK_OWNER_OWNER b) (s.getF (PADK_OWNER_NEW_OWNER b))).setF (PADK_OWNER_PENDING b) 0)
  else .next s

/-! ### Barn (R467 to R470) -/

/-- Units of the merge hold (R470). -/
def holdUnits (s : State) : Nat := if s.getF MERGE_CFG_HOLD_BYTES = 0 then 40 else s.getF MERGE_CFG_HOLD_BYTES

/-- First unit of the context, statistics and open regions (R470). -/
def barnCtx (s : State) : Nat := holdUnits s + s.getF BARN_MAP_HB_UNITS
def barnStat (s : State) : Nat := barnCtx s + s.getF BARN_MAP_CTX_UNITS
def barnOpen (s : State) : Nat := barnStat s + s.getF BARN_MAP_STAT_UNITS

/-- Does a region admit an access to its unit? (R470) -/
def barnAdmits (s : State) (r : Requester) (write : Bool) (u : Nat) : Bool :=
  if u < barnCtx s then false
  else if u < barnStat s then !write || isLeader s r
  else if u < barnOpen s then !write || isLeader s r || stableCore s r
  else true

/-- The check of an access to Barn (R468, R470). -/
def barnCheck (s : State) (r : Requester) (write : Bool) (o n : Nat) : BusStatus :=
  if !s.isSet BARN_STAT_BARN_READY then .notReady
  else if [o, o + n - 1].all (fun a => barnAdmits s r write ((a - barnBase) / 0x10000000)) then .ok
  else .denied

/-- An uncorrectable Barn word is read (R469). -/
def barnUncorr (w : Nat) (s : State) : State :=
  ((s.cntSat BARN_UNCORR_N 1).wr64 BARN_ERR_LO (BitVec.ofNat 64 ((w - barnBase) / 8))).report unitGroom 0x0A06 noPath (w - barnBase)

/-- A read of Barn. -/
def barnRead (r : Requester) (o n : Nat) (s : State) : BusStatus × List Byte × State :=
  match barnCheck s r false o n with
  | .ok =>
    match (wordsOf o n).find? (fun w => s.eccBad.contains w) with
    | some w => (.ecc, s.bytes o n, barnUncorr w s)
    | none => (.ok, s.bytes o n, s)
  | st => (st, [], s)

/-- A write of Barn. -/
def barnWrite (r : Requester) (o : Nat) (l : List Byte) (s : State) : BusStatus × State :=
  match barnCheck s r true o l.length with
  | .ok =>
    let whole := (wordsOf o l.length).filter (fun w => decide (o ≤ w) && decide (w + 8 ≤ o + l.length))
    let s := s.setBytes o l
    (.ok, { s with eccBad := s.eccBad.filter (fun w => !whole.contains w) })
  | st => (st, s)

/-- A write to BARN_MAP (R470): refused while a Twin-mode channel is OPEN, or where the regions would exceed 96 units. -/
def barnMapWrite (v : Word) (s : State) : State :=
  let sum := holdUnits s + fldGet 23 16 v + fldGet 15 8 v + fldGet 7 0 v
  if sum > 96 ∨ (s.liveChans.any (fun n => s.chOpen n && s.chTwin n)) then s.setF BARN_STAT_MAP_BAD 1
  else ((s.setF BARN_MAP_STAT_UNITS (fldGet 23 16 v)).setF BARN_MAP_CTX_UNITS (fldGet 15 8 v)).setF BARN_MAP_HB_UNITS (fldGet 7 0 v)

/-- A write to MERGE_CFG leaves the merge hold the units that remain (R470). -/
def holdFit (s : State) : State :=
  let rest := s.getF BARN_MAP_HB_UNITS + s.getF BARN_MAP_CTX_UNITS + s.getF BARN_MAP_STAT_UNITS
  if 96 < holdUnits s + rest then s.setF MERGE_CFG_HOLD_BYTES (96 - rest) else s

/-- GROOM_SCRUB (R465, R466, R469): a line of Paddock or Barn is read; its word `w` was single-bit (`ecc` 1) or uncorrectable
(2); `lastLine` ends a pass. -/
def execGroomScrub (w : Nat) (ecc : Fin 3) (lastLine : Bool) (s : State) : Host.Outcome State Fault Refusal :=
  let pad := decide (w < 0x4000000)
  let s :=
    if pad && !tblGet false (w / 64) s.padWritten then s
    else match ecc.val, pad with
      | 1, true => (s.cntSat PADK_CORR_N 1).report unitGroom 0x0A01 noPath w
      | 1, false => (s.cntSat BARN_CORR_N 1).report unitGroom 0x0A05 noPath (w - barnBase)
      | 2, true => padUncorr w { s with eccBad := w / 8 * 8 :: s.eccBad.filter (· ≠ w / 8 * 8) }
      | 2, false => barnUncorr w { s with eccBad := w / 8 * 8 :: s.eccBad.filter (· ≠ w / 8 * 8) }
      | _, _ => s
  .next (if lastLine then
      { s.cntSat (if pad then GROOM_STAT_PADK_PASSES else GROOM_STAT_BARN_PASSES) 1 with
        lateTargets := s.lateTargets.filter (· ≠ (if pad then 3 else 4, 0)) }
    else s)

/-- BARN_READY (R468): training and zero initialisation are complete, or training has failed. -/
def execBarnReady (fails : Bool) (s : State) : Host.Outcome State Fault Refusal :=
  if fails then .next (((s.setF BARN_STAT_TRAIN_FAIL 1).setF BARN_STAT_INIT_BUSY 0).report unitGroom 0x0A07 noPath 0)
  else
    .next (((s.setF BARN_STAT_BARN_READY 1).setF BARN_STAT_INIT_BUSY 0).setF BARN_STAT_INIT_PCT 100)

end Sys2Proof.Machine
end

