-- ==== Sys2Proof/Machine/Dray.lean ====
section
/-!
DEFINITION. A Dray core (spec/15 to spec/18): its registers, results in flight, local memory, segments, entries and halts, and
the bundle: its ops are gathered one by one, and commit together when the op with E = 1 has come.
-/

namespace Sys2Proof.Machine

/-! ### The core and its registers (R373, R391) -/

/-- Dray k. -/
def State.core (s : State) (k : Nat) : Core := tblGet Core.reset k s.cores

/-- Dray k replaced. -/
def State.setCore (s : State) (k : Nat) (c : Core) : State := { s with cores := tblSet Core.reset k c s.cores }

/-- Dray k changed. -/
def State.modCore (s : State) (k : Nat) (f : Core → Core) : State := s.setCore k (f (s.core k))

/-- s register n. -/
def Core.sr (c : Core) (n : Nat) : Word := tblGet 0 n c.sreg

/-- d register n: s(2n+1) above s(2n). -/
def Core.dr (c : Core) (n : Nat) : DWord := c.sr (2 * n + 1) ++ c.sr (2 * n)

/-- Predicate n; p0 reads as 1. -/
def Core.pr (c : Core) (n : Nat) : Bool := if n = 0 then true else tblGet false n c.preg

/-- Accumulator n. -/
def Core.ar (c : Core) (n : Nat) : BitVec 80 := tblGet 0 n c.acc

/-- Mask n; m0 reads as all true, at every position. -/
def Core.mr (c : Core) (n : Nat) : Nat := if n = 0 then 2 ^ 1024 - 1 else (tblGet 0 n c.mreg).toNat

/-- Segment register n. -/
def Core.sg (c : Core) (n : Nat) : Nat := (tblGet 0 n c.seg).toNat

/-- A control register kept in `creg`. -/
def Core.cr (c : Core) (n : Nat) : Word := tblGet 0 n c.creg

/-- A control register set by hardware. -/
def Core.setCr (c : Core) (n : Nat) (v : Word) : Core := { c with creg := tblSet 0 n v c.creg }

/-- Legacy fetch mode (R387). -/
def Core.legacy (c : Core) : Bool := (c.cr 6).toNat % 2 = 1

/-- VL, element width, span (R420). -/
def Core.vl (c : Core) : Nat := fldGet 10 0 (c.cr 4)
def Core.ew (c : Core) : Nat := 8 * 2 ^ fldGet 1 0 (c.cr 5)
def Core.span (c : Core) : Nat := 2 ^ fldGet 5 4 (c.cr 5)

/-- PSW (R391). -/
def Core.psw (c : Core) : Word :=
  BitVec.ofNat 32 (c.sup.toNat + 2 * c.ie.toNat + 4 * c.legacy.toNat + 8 * c.locked.toNat + 256 * c.atomLeft)

/-- The predictor flushed (R386). -/
def Core.flush (c : Core) : Core := { c with predictor := [] }

/-- The bits of a control register that hold what is written to them: RW fields (R391, R392 and the register maps). -/
def cregMask (n : Nat) : Nat :=
  match n with
  | 0x02 => 0xFFFFFFF0
  | 0x03 => 0x1FFFF
  | 0x04 => 0x7FF
  | 0x05 => 0x33
  | 0x06 => 0x1
  | 0x07 => 0x1
  | 0x08 => 0xFF
  | 0x20 => 0x7FFFC
  | 0x21 => 0
  | 0x22 => 0
  | 0x24 => 0x7FC00
  | 0x25 => 0xF007FFFC
  | 0x27 => 0
  | 0x28 => 0
  | 0x2A => 0x8007FFFC
  | 0x2B => 0x8007FFFC
  | 0x2C => 0x8007FFFC
  | 0x2D => 0x8007FFFC
  | 0x2E => 0xFE07FFFF
  | 0x2F => 0xFE07FFFF
  | _ => 0xFFFFFFFF

/-- The W1C bits of a control register. -/
def cregW1c (n : Nat) : Nat :=
  match n with
  | 0x05 => 0x80000000
  | 0x08 => 0x80000000
  | 0x21 => 0x40000000
  | _ => 0

/-- A value lands in a control register (R391, R392): its RW bits are stored, W1C bits written 1 are cleared, and a write of
FETCHCTL, PREDCTL or TASKID has its further effect. -/
def cregLand (n v mask : Nat) (c : Core) : Core :=
  let w : Word := BitVec.ofNat 32 v
  let m : Word := BitVec.ofNat 32 (cregMask n) &&& BitVec.ofNat 32 mask
  let clr : Word := BitVec.ofNat 32 (cregW1c n) &&& BitVec.ofNat 32 mask &&& w
  let c := if n = 0 then { c with ie := fldGet 1 1 w = 1 } else c.setCr n ((c.cr n &&& ~~~ m &&& ~~~ clr) ||| (w &&& m))
  if n = 1 then c.flush
  else if n = 6 then
    let c := if fldGet 5 5 w = 1 then { c with queue := [] } else c
    if fldGet 4 4 w = 1 then { c with queue := [], lines := [] } else c
  else if n = 7 then (if fldGet 1 1 w = 1 then c.flush else c)
  else c

/-- A value lands in a register of WCOLL's code, or in control register code − 0x100. -/
def regLand (code v mask : Nat) (c : Core) : Core :=
  if code < 0x40 then { c with sreg := tblSet 0 code (BitVec.ofNat 32 v) c.sreg }
  else if code < 0x48 then { c with acc := tblSet 0 (code - 0x40) (BitVec.ofNat 80 v) c.acc }
  else if code = 0x48 ∨ code = 0x70 then c
  else if code < 0x50 then { c with preg := tblSet false (code - 0x48) (decide (v % 2 = 1)) c.preg }
  else if code < 0x70 then
    let n := code - 0x50
    let m := BitVec.ofNat 1024 mask
    { c with vreg := tblSet 0 n ((tblGet 0 n c.vreg &&& ~~~ m) ||| (BitVec.ofNat 1024 v &&& m)) c.vreg }
  else if code < 0x78 then
    let n := code - 0x70
    let m := BitVec.ofNat 128 mask
    { c with mreg := tblSet 0 n ((tblGet 0 n c.mreg &&& ~~~ m) ||| (BitVec.ofNat 128 v &&& m)) c.mreg }
  else if code < 0x100 then { c with seg := tblSet 0 (code - 0x80) (BitVec.ofNat 128 v) c.seg }
  else cregLand (code - 0x100) v mask c

/-! ### Landing (R374, R377, R429) -/

/-- A landing put in its place: by slot, then by issue. -/
def landInsert (x : Landing) : List Landing → List Landing
  | [] => [x]
  | y :: r => if x.slot < y.slot ∨ (x.slot = y.slot ∧ x.issued < y.issued) then x :: y :: r else y :: landInsert x r

/-- A write collision in the register of a code (R377). -/
def collide (code : Nat) (c : Core) : Core :=
  let w := c.cr 8
  c.setCr 8 (fldSet 31 31 1 (fldSet 15 8 code (fldSet 7 0 (min (fldGet 7 0 w + 1) 255) w)))

/-- The landings of one cycle in order; the registers that two reach. -/
def landAll (l : List Landing) (c : Core) : Core :=
  let c := l.foldl (fun c x => regLand x.code x.value x.mask c) c
  let c := (l.foldl (fun (x : List Nat × Core) (y : Landing) =>
    if y.code < 0x100 && x.1.contains y.code then (x.1, collide y.code x.2) else (y.code :: x.1, x.2)) ([], c)).2
  if l.any (fun x => x.qc) then c.setCr 5 (fldSet 31 31 1 (c.cr 5)) else c

/-- The bytes of a store written. -/
def storeCells (k : Nat) (l : List (Nat × Byte)) (s : State) : State :=
  l.foldl (fun s e => s.setByte (0x10000000 + k * 0x80000 + e.1 % 0x80000) e.2) s

/-- The stores at the head of the list that every load sees by cycle `cyc`, and the rest. -/
def dueStores (cyc : Nat) : List LmStore → List (Nat × Byte) × List LmStore
  | [] => ([], [])
  | x :: r =>
    if x.vis ≤ cyc then
      let y := dueStores cyc r
      (x.cells ++ y.1, y.2)
    else ([], x :: r)

/-- One cycle of landing: results land, stores become visible, streams read. -/
def coreTick (k : Nat) (s : State) : State :=
  let c := s.core k
  let c := { c with cyc := c.cyc + 1 }
  let due := (c.flight.filter (fun x => x.land ≤ c.cyc)).foldl (fun l x => landInsert x l) []
  let c := landAll due { c with flight := c.flight.filter (fun x => c.cyc < x.land) }
  let d := dueStores c.cyc c.stores
  let n := d.2.length
  let c := vStreams { c with stores := d.2 }
  let c := { c with vbanks := (c.stores.drop n).flatMap (fun x => x.cells.map (fun e => e.1 / 0x20000)) }
  (storeCells k d.1 s).setCore k c

/-- The drain of R381: every result in flight lands. -/
def drainFuel : Nat → Nat → State → State
  | 0, _, s => s
  | n + 1, k, s =>
    let c := s.core k
    if c.flight.isEmpty && c.stores.isEmpty && c.streams.isEmpty then s else drainFuel n k (coreTick k s)

/-- The drain of R381; no result or stream lasts longer than 64 cycles. -/
def drain (k : Nat) (s : State) : State := drainFuel 64 k s

/-! ### Local memory (R369, R376, R404, R414) -/

/-- Window offset of a core's local memory. -/
def lmBase (k : Nat) : Nat := 0x10000000 + k * 0x80000

/-- The byte that a load reads: the latest store it sees, else memory. -/
def lmByte (s : State) (k : Nat) (c : Core) (a : Nat) : Byte :=
  let a := a % 0x80000
  let seen := (c.stores.filter (fun x => x.vis ≤ c.cyc)).flatMap (fun x => x.cells)
  match (seen.filter (fun e => e.1 % 0x80000 = a)).getLast? with
  | some e => e.2
  | none => s.byte (lmBase k + a)

/-- The FARLD tag whose data in a word cannot be read reliably yet (R414). -/
def unsettled (c : Core) (w : Nat) : Option FarTag :=
  ((c.tags.map (fun e => e.2)).find?
    (fun t => !t.store && !t.settled && decide (t.loc < w * 8 + 8) && decide (w * 8 < t.loc + t.size)))

/-- One byte of a load: in a word of a FARLD that has not been waited for, the old or the new data (R414), by `d`. -/
def loadByte (s : State) (k : Nat) (c : Core) (d : Nat) (a : Nat) : Byte :=
  let w := a / 8
  match unsettled c w with
  | none => lmByte s k c a
  | some t =>
    if Config.freeValue (d + w) % 2 = 0 then
      (if t.busy then lmByte s k c a
       else if t.loc ≤ a ∧ a < t.loc + t.size then t.before.getD (a - t.loc) 0 else lmByte s k c a)
    else if t.busy && decide (t.loc ≤ a) && decide (a < t.loc + t.size) then BitVec.ofNat 8 (Config.freeValue (d + w) / 2 / 256 ^ (a % 8))
    else lmByte s k c a

/-- `n` bytes of a load. -/
def lmLoad (s : State) (k : Nat) (c : Core) (a n : Nat) : List Byte :=
  (List.range n).map (fun i => loadByte s k c s.draws (a + i))

/-- The state after a load that may have met such a word: its draw is used up. -/
def lmDrawn (c : Core) (s : State) : State :=
  if c.tags.any (fun e => !e.2.store && !e.2.settled) then { s with draws := s.draws + 0x10000 } else s

/-- Stores to the source of a FARST under way make its data undefined (R414). -/
def markDirty (k a n : Nat) (s : State) : State :=
  s.modCore k (fun c => { c with tags := c.tags.map (fun e =>
    if e.2.busy && e.2.store && decide (e.2.loc < a + n) && decide (a < e.2.loc + e.2.size) then (e.1, { e.2 with dirty := true })
    else e) })

/-! ### Segments (R399, R402, R404) -/

/-- Fields of a descriptor. -/
def segBase (d : Nat) : Nat := d % 2 ^ 48
def segBit (d i : Nat) : Bool := d / 2 ^ (48 + i) % 2 = 1
def segType (d : Nat) : Nat := d / 2 ^ 56 % 16
def segLimit (d : Nat) : Nat := d / 2 ^ 64 % 2 ^ 32

/-- A descriptor as it loads (R399): type 0 where a reserved bit is set, the type is reserved, or it leaves local memory. -/
def segNorm (d : Nat) : Nat :=
  let bad := decide (d / 2 ^ 54 % 4 ≠ 0) || decide (d / 2 ^ 60 % 16 ≠ 0) || decide (d / 2 ^ 96 ≠ 0) || decide (3 < segType d)
    || ((segType d = 1 || segType d = 3) && decide (0x80000 < segBase d + segLimit d))
  if bad then d % 2 ^ 54 + segLimit d * 2 ^ 64 else d

/-- The check of R402: the fault's vector, or the address. -/
def segCheck (c : Core) (g : Nat) (types : List Nat) (off size align : Nat) (write : Bool) : Except Nat Nat :=
  let d := c.sg g
  if segType d = 0 then .error 5
  else if !types.contains (segType d) then .error 6
  else if segBit d 3 && !c.sup then .error 7
  else if !write && !segBit d 0 then .error 7
  else if write && !segBit d 1 then .error 7
  else if off % align ≠ 0 then .error 9
  else if segLimit d < off + size then .error 8
  else .ok (segBase d + off)

/-- Does a range touch a confined range? (R404) -/
def confinedHit (c : Core) (a n : Nat) : Bool := c.confined.any (fun e => decide (e.1 < a + n) && decide (a < e.1 + e.2))

/-- The check of a local access: R402, then R404. -/
def localCheck (c : Core) (g off size align : Nat) (write : Bool) : Except Nat Nat :=
  match segCheck c g [1, 3] off size align write with
  | .error v => .error v
  | .ok a => if segType (c.sg g) ≠ 3 && confinedHit c a size then .error 7 else .ok a

/-! ### Status, trace, halts -/

/-- STATE of a core. -/
def State.coreState (s : State) (k : Nat) : Nat := s.getF (DRAY_STAT_STATE k)

/-- TRACE_LO, TRACE_HI and COUNT follow the buffer (R453). -/
def traceShow (k : Nat) (s : State) : State :=
  let l := (s.core k).trace
  (s.setF (DRAY_TRACE_CTL_COUNT k) l.length).wr64 (DRAY_TRACE_LO k) (l.headD 0)

/-- An event is recorded in the trace buffer (R453). -/
def traceAdd (k kind src dst : Nat) (s : State) : State :=
  if !s.isSet (DRAY_TRACE_CTL_EN k) then s
  else
    let c := s.core k
    let e : DWord := BitVec.ofNat 64 (kind * 2 ^ 60 + src / 4 % 2 ^ 17 * 2 ^ 43 + dst / 4 % 2 ^ 17 * 2 ^ 26 + c.icycle % 2 ^ 26)
    if 256 ≤ c.trace.length then
      let s := s.setF (DRAY_TRACE_CTL_OVF k) 1
      if s.isSet (DRAY_TRACE_CTL_WRAP k) then traceShow k (s.setCore k { c with trace := c.trace.tail ++ [e] }) else s
    else
      let s := traceShow k (s.setCore k { c with trace := c.trace ++ [e] })
      let th := s.getF (DRAY_TRACE_CTL_THRESH k)
      if th ≠ 0 ∧ c.trace.length + 1 = th then bellPulse (786 + 2 * k) s else s

/-- Is the boundary before the next bundle interruptible? (R380) -/
def Core.interruptible (c : Core) : Bool := c.left = 0 && c.atomLeft = 0

/-- Can the pending halt be taken now? (R447, R448) -/
def Core.haltReady (c : Core) : Bool :=
  c.bundle.isEmpty && match c.halt with
    | some h => if h.forced then decide (c.left = 0) else c.interruptible
    | none => false

/-- A halt is requested; a breakpoint takes the place of a request at the same boundary (R451). -/
def setHalt (h : HaltReq) (c : Core) : Core :=
  match c.halt with
  | none => { c with halt := some h }
  | some o => if h.reason = 5 ∧ o.reason = 1 then { c with halt := some h } else c

/-- The core halts (R447): after the drain, STATE is HALTED, PC holds the next bundle, Bell is rung. -/
def haltNow (k reason which : Nat) (s : State) : State :=
  let s := drain k s
  let c := s.core k
  let s := s.setCore k { c with halt := none, stepping := false, frozen := false }
  let s : State := (((s.setF (DRAY_STAT_STATE k) 4).setF (DRAY_DBG_STAT_HALTED k) 1).setF (DRAY_DBG_STAT_REASON k) reason).setF (DRAY_DBG_STAT_WHICH k) which
  bellPulse (785 + 2 * k) (traceAdd k 4 c.pc c.pc (s.setF (DRAY_DBG_STAT_PC k) (c.pc / 4)))

/-- The core stops (R393): its results land, its registers stay, its claimed sources are finished (R479). -/
def stopNow (k : Nat) (s : State) : State :=
  let s := drain k s
  bellAutoFinish k ((s.modCore k (fun c => { c with bundle := [], words := 0, frozen := false, halt := none, stepping := false })).setF (DRAY_STAT_STATE k) 1)

/-- The breakpoint that the next bundle matches (R451). -/
def breakpointAt (c : Core) : Option Nat :=
  (List.range 4).find? (fun n =>
    decide (fldGet 31 31 (c.cr (0x2A + n)) = 1) && decide (fldGet 18 2 (c.cr (0x2A + n)) = c.pc / 4 % 2 ^ 17))

/-- What falls due at the boundary before the next bundle: breakpoints, the end of a step, a stop (R393, R450, R451). -/
def boundary (k : Nat) (s : State) : State :=
  let c := s.core k
  let c := if s.isSet (DRAY_DBG_CTL_DBG_EN k) then
      match breakpointAt c with
      | some n => setHalt { reason := 5, which := n, forced := false, late := !c.interruptible } c
      | none => c
    else c
  let c := if c.stepping && c.interruptible then setHalt { reason := 3, which := 0, forced := false, late := false } c else c
  let s := (s.setCore k c).setF (DRAY_DBG_STAT_PC k) (c.pc / 4)
  if !s.isSet (DRAY_CTL_RUN k) && c.interruptible then stopNow k s else s

/-! ### Entries (R435 to R440) -/

/-- EBR of the branch state (R438). -/
def ebrWord (c : Core) : Word :=
  if c.left = 0 then 0
  else BitVec.ofNat 32 ((if c.target.isSome then 2 ^ 31 else 0) + (if c.annul then 2 ^ 30 else 0) + c.left * 2 ^ 28
    + (c.target.getD 0) / 4 % 2 ^ 17 * 4)

/-- An entry (R435): its vector, slot, SYSCALL code, EINFO. EPC is the next bundle as the core stands. A further entry while
HELD is 1 is a double fault (R440). -/
def drayEntry (k vec slot code info : Nat) (s : State) : State :=
  let s := drain k (s.modCore k (fun c => { c with bundle := [], words := 0, frozen := false }))
  let c := s.core k
  if fldGet 30 30 (c.cr 0x21) = 1 then
    let s := s.report (0x20 + k) 0x0903 noPath (vec + c.pc * 2 ^ 8)
    haltNow k 7 0 s
  else
    let c1 := ((((c.setCr 0x23 c.psw).setCr 0x20 (BitVec.ofNat 32 (c.pc / 4 % 2 ^ 17 * 4))).setCr 0x21
      (BitVec.ofNat 32 (2 ^ 30 + slot % 8 * 2 ^ 27 + code % 2 ^ 16 * 2 ^ 8 + vec))).setCr 0x22 (BitVec.ofNat 32 info)).setCr 0x25 (ebrWord c)
    let pc := fldGet 18 10 (c.cr 0x24) * 1024 + 32 * vec
    let s := (s.setCore k { c1.flush with
      sup := true, ie := false, ieLast := false, atomLeft := 0, locked := false, lock := none, left := 0, target := none,
      annul := false, bubbles := 0, queue := [], pc := pc }).setF (DRAY_STAT_STATE k) 2
    boundary k (traceAdd k 2 c.pc pc s)

end Sys2Proof.Machine
end

