-- ==== Sys2Proof/Machine/DrayBundle.lean ====
section
/-!
DEFINITION. The bundle of a Dray core (spec/15 R371 to R392, spec/16 R398): slots, faults, commit, branches and loops, and the
form every op command takes.
-/

namespace Sys2Proof.Machine

/-! ### Code addresses -/

/-- A word of the code at an offset: local memory, or in legacy mode the FAR segment g15 (R383, R404). -/
def codeWord (s : State) (k : Nat) (c : Core) (a : Nat) : Nat :=
  if c.legacy then
    let g := segBase (c.sg 15) + a
    if g / 2 ^ 38 = s.devId then s.ldLE (g % 2 ^ 38) 4 else 0
  else s.ldLE (lmBase k + a % 0x80000) 4

/-- The offset after the bundle at `a`, of at most `n` words (R371): the 64-bit ops keep their E bit in their second word. -/
def bundleEnd (s : State) (k : Nat) (c : Core) : Nat → Nat → Nat
  | 0, a => a
  | n + 1, a =>
    let w := codeWord s k c a
    let major := w / 2 ^ 21 % 64
    if major = 0x09 ∨ major = 0x17 ∨ major = 0x23 then
      if codeWord s k c (a + 4) / 2 ^ 31 % 2 = 1 then a + 8 else bundleEnd s k c n (a + 8)
    else if w / 2 ^ 31 % 2 = 1 then a + 4
    else bundleEnd s k c n (a + 4)

/-- The link of a branch whose bundle ends at `a`: the bundle after the third delay slot in address order (R409). -/
def linkAfter (s : State) (k : Nat) (c : Core) (a : Nat) : Nat :=
  bundleEnd s k c 8 (bundleEnd s k c 8 (bundleEnd s k c 8 a))

/-! ### Results of one op -/

/-- What an op would do: an execution fault, or its effects. -/
inductive Plan where
  | fault (vec info : Nat)
  | effects (l : List Eff)
deriving DecidableEq, Repr

/-- The fault of a plan. -/
def planFault : Plan → Option (Nat × Nat)
  | .fault v i => some (v, i)
  | .effects _ => none

/-- The effects of a plan. -/
def planEffs : Plan → List Eff
  | .fault _ _ => []
  | .effects l => l

/-- A result into s register n. -/
def effS (lat n : Nat) (v : Word) : Eff := .land lat n v.toNat 0

/-- A result into d register n: both halves. -/
def effD (lat n : Nat) (v : DWord) : List Eff :=
  [.land lat (2 * n) (v.toNat % 2 ^ 32) 0, .land lat (2 * n + 1) (v.toNat / 2 ^ 32) 0]

/-- A result into a predicate; p0 takes none (R373). -/
def effP (lat n : Nat) (v : Bool) : List Eff := if n = 0 then [] else [.land lat (0x48 + n) v.toNat 0]

/-- A result into accumulator n. -/
def effA (lat n : Nat) (v : BitVec 80) : Eff := .land lat (0x40 + n) v.toNat 0

/-- A result into segment register n. -/
def effG (lat n : Nat) (d : Nat) : Eff := .land lat (0x80 + n) d 0

/-- A result into a mask; m0 takes none. -/
def effM (lat n v mask : Nat) : List Eff := if n = 0 then [] else [.land lat (0x70 + n) v mask]

/-! ### Commit -/

/-- The banks that L0 and L1 of a bundle reach (R378). -/
def portBanks (l : List DrayOp) : List Nat :=
  l.flatMap (fun o => o.effs.filterMap (fun e => match e with
    | .touch a _ _ true => some (a / 0x20000)
    | _ => none))

/-- Wall cycles that a bundle freezes (R378, R430). -/
def bundleFreeze (c : Core) (l : List DrayOp) : Nat :=
  let pb := portBanks l
  let pair := if pb.eraseDups.length < pb.length then 1 else 0
  let own := l.foldl (fun n o => o.effs.foldl (fun n e => match e with
    | .freeze f => n + f
    | .vread banks cycles => n + (cycles - 1) + (pb.filter (fun b => banks.contains b)).length
    | _ => n) n) 0
  let vst := if c.stores.isEmpty then 0 else (pb.filter (fun b => c.vbanks.contains b)).length
  pair + own + vst

/-- The watchpoint that an access matches (R452). -/
def watchHit (c : Core) (a n : Nat) (write : Bool) : Option Nat :=
  (List.range 2).find? (fun i =>
    let w := c.cr (0x2E + i)
    let kind := fldGet 31 30 w
    let size := 2 ^ fldGet 29 25 w
    let base := fldGet 18 0 w / size * size
    (kind = 3 || kind = (if write then 2 else 1)) && decide (a < base + size) && decide (base < a + n))

/-- A far access starts (R411, R412): its tag is outstanding; a target in another device is sent its request. -/
def farStart (k tag : Nat) (store : Bool) (addr loc size : Nat) (ordered dev : Bool) (s : State) : State :=
  let c := s.core k
  let data := lmLoad s k { c with cyc := c.cyc + 64 } loc size
  let off := addr % 2 ^ 38
  let mine := decide (addr / 2 ^ 38 = s.devId)
  let r : Requester := if h : k < 32 then .dray ⟨k, h⟩ else .debug
  let own := mine && decide (off < 0xC000000) && (padBanks (off % 0x4000000) size).all
    (fun b => decide (s.getF (PADK_OWNER_OWNER b) = requesterCode r) && !s.isSet (PADK_OWNER_PENDING b))
  let t : FarTag :=
    { busy := true, status := 0, store := store, addr := addr, loc := loc, size := size, ordered := ordered, dev := dev,
      seq := c.farSeq, before := data, settled := store, dirty := false, owned := own }
  let s := s.setCore k { c with tags := tblSet FarTag.reset tag t c.tags, farSeq := c.farSeq + 1 }
  if mine then s
  else
    let n := s.fab.tag
    let s := { s with fab := { s.fab with
      tag := (n + 1) % 2 ^ 32,
      reqs := { tag := n, dst := addr / 2 ^ 38, typ := if store then 3 else 1, req := k * 8 + tag, sent := s.now } :: s.fab.reqs } }
    fabSend (addr / 2 ^ 38) (if store then 3 else 1) 0 n addr (if store then data else beBytes 4 size) s

/-- One effect of an op in slot `slot` of the bundle that commits in cycle `cyc`. -/
def effApply (k slot : Nat) (e : Eff) (s : State) : State :=
  let c := s.core k
  match e with
  | .land lat code v mask =>
    s.setCore k { c with flight := c.flight ++
      [{ land := c.cyc + lat, slot := slot, issued := c.cyc, code := code, value := v, mask := mask, qc := false }] }
  | .store cells =>
    let s := cells.foldl (fun s x => markDirty k x.1 1 s) s
    s.modCore k (fun c => { c with stores := c.stores ++ [{ vis := c.cyc + 2, cells := cells }] })
  | .mac a v => s.setCore k (if slot = 3 then { c with mac1 := some (c.cyc, a, v) } else { c with mac0 := some (c.cyc, a, v) })
  | .latch pair hi => { s with hiLatch := tblSet none k (some (pair, hi)) s.hiLatch }
  | .lock w => s.setCore k { c with lock := some (w, true) }
  | .unlock st =>
    let s := s.setCore k { c with lock := none }
    match st with
    | some (w, v) => breakLocks (some k) w 8 (padStore w (leBytes 8 v) s)
    | none => s
  | .refused => s.cntSat PADK_OWNVIOL_N 1
  | .padRead w n => (padRead (if h : k < 32 then .dray ⟨k, h⟩ else .debug) w n s).2.2
  | .far tag store addr loc size ordered dev => farStart k tag store addr loc size ordered dev s
  | .settle tags =>
    s.setCore k { c with tags := c.tags.map (fun x => if tags / 2 ^ x.1 % 2 = 1 then (x.1, { x.2 with settled := true }) else x) }
  | .finish n => bellFinish k n s
  | .occupy t => s.setCore k { c with vfree := c.cyc + t }
  | .stream v =>
    let s := s.setCore k (vAdvance c { v with start := c.cyc })
    v.addrs.foldl (fun s a => match a with
      | some a => markDirty k a (v.ew / 8) s
      | none => s) s
  | .confine b n =>
    if c.confined.contains (b, n) then s else s.setCore k { c with confined := c.confined ++ [(b, n)] }
  | .release b n =>
    let s := s.setBytes (lmBase k + b) (List.replicate n 0)
    s.setCore k { c with
      stores := c.stores.map (fun x => { x with cells := x.cells.filter (fun e => e.1 < b || b + n ≤ e.1) }),
      confined := c.confined.filter (fun x => x ≠ (b, n)) }
  | .corrected w => s.report (0x20 + k) 0x0901 noPath w
  | _ => s

/-- Every effect of the bundle, in slot order. -/
def applyAll (k : Nat) (l : List DrayOp) (s : State) : State :=
  ((List.range 9).flatMap (fun i => l.filter (fun o => o.slot = i))).foldl
    (fun s o => o.effs.foldl (fun s e => effApply k o.slot e s) s) s

/-- The first effect of the bundle that `f` picks. -/
def effFind {α : Type} (f : Eff → Option α) (l : List DrayOp) : Option α := (l.flatMap (fun o => o.effs)).findSome? f

/-- A loop level tested at its last bundle (R388): the next bundle if it wraps, and the core. -/
def loopTest (lvl : Nat) (c : Core) : Option Nat × Core :=
  let n := 0x10 + 3 * lvl
  let cnt := (c.cr n).toNat
  if cnt = 0 ∨ (c.cr (n + 2)).toNat ≠ c.pc then (none, c)
  else if 2 ≤ cnt then (some (c.cr (n + 1)).toNat, c.setCr n (c.cr n - 1))
  else (none, c.setCr n 0)

/-- The bundle after this one if no branch intervenes (R388): LOOP1 is tested first. -/
def loopNext (next : Nat) (c : Core) : Nat × Core :=
  match loopTest 1 c with
  | (some a, c) => (a, c)
  | (none, c) =>
    match loopTest 0 c with
    | (some a, c) => (a, c)
    | (none, c) => (next, c)

/-- The active loop levels that a taken branch leaves end (R389). -/
def loopLeave (t : Nat) (c : Core) : Core :=
  [0x10, 0x13].foldl (fun c n =>
    if (c.cr n).toNat ≠ 0 ∧ (t < (c.cr (n + 1)).toNat ∨ (c.cr (n + 2)).toNat < t) then c.setCr n 0 else c) c

/-- Bubbles of a branch, and whether it was mispredicted (R385); the predictor's counter after it (R386). -/
def branchCost (c : Core) (kind addr : Nat) (taken : Bool) : Nat × Bool × Core :=
  if (c.cr 7).toNat % 2 = 1 then (if kind = 0 && !taken then 0 else if taken then 2 else 0, false, c)
  else if kind = 1 then (0, false, c)
  else if kind = 2 then (if taken then 2 else 0, false, c)
  else
    let i := addr / 32 % 256
    let v := tblGet 1 i c.predictor
    let miss := decide (2 ≤ v) != taken
    let v' := if taken then min (v + 1) 3 else v - 1
    (if miss then 5 else 0, miss, { c with predictor := tblSet 1 i v' c.predictor })

/-- A branch of the bundle takes its place: three delay slots follow (R384). -/
def branchPlace (k : Nat) (l : List DrayOp) (s : State) : State :=
  match effFind (fun e => match e with
      | .branch kind addr target taken annul => some (kind, addr, target, taken, annul)
      | _ => none) l with
  | none => s
  | some (kind, addr, target, taken, annul) =>
    let x := branchCost (s.core k) kind addr taken
    let s := s.setCore k { x.2.2 with
      left := 3, target := if taken then some target else none, annul := annul && !taken, bubbles := x.1 }
    if x.2.1 then s.cntSat (DRAY_MISPRED_MISPRED k) 1 else s

/-- A loop op of the bundle sets up its level; a count of 0 skips the body at a cost of 2 bubbles (R388). -/
def loopPlace (k next : Nat) (l : List DrayOp) (s : State) : State :=
  match effFind (fun e => match e with
      | .loop lvl cnt dist => some (lvl, cnt, dist)
      | _ => none) l with
  | none => s
  | some (lvl, cnt, dist) =>
    let n := 0x10 + 3 * lvl
    let le := next + 4 * dist
    let s := s.modCore k (fun c =>
      ((c.setCr n (BitVec.ofNat 32 cnt)).setCr (n + 1) (BitVec.ofNat 32 next)).setCr (n + 2) (BitVec.ofNat 32 le))
    if cnt = 0 then
      let c := s.core k
      (s.setCore k { c with pc := bundleEnd s k c 8 le, wcycle := c.wcycle + 2 }).cntSat (DRAY_FREEZE_FREEZES k) 2
    else s

/-- The ATOM or LOCK region after a bundle (R417 to R419). -/
def regionAfter (l : List DrayOp) (c : Core) : Core :=
  match effFind (fun e => match e with
      | .atom n => some (n, false)
      | .lock _ => some (32, true)
      | .unlock _ => some (0, false)
      | _ => none) l with
  | some (n, lk) => if n = 0 ∧ !c.locked then { c with atomLeft := c.atomLeft - 1 } else { c with atomLeft := n, locked := lk }
  | none =>
    if c.atomLeft = 1 then { c with atomLeft := 0, locked := false, lock := if c.locked then none else c.lock }
    else { c with atomLeft := c.atomLeft - 1 }

/-- The next bundle, the delay slots and the loops after a bundle that held no branch (R384, R388, R389). -/
def advancePc (k next : Nat) (s : State) : State :=
  let c := s.core k
  let x := loopNext next c
  if c.left = 0 then s.setCore k { x.2 with pc := x.1 }
  else if 1 < c.left then s.setCore k { x.2 with pc := x.1, left := c.left - 1 }
  else
    let b := c.bubbles
    let s := s.cntSat (DRAY_FREEZE_FREEZES k) b
    match c.target with
    | some t =>
      let c' := loopLeave t x.2
      traceAdd k 1 c.pc t (s.setCore k
        { c' with pc := t, left := 0, target := none, annul := false, bubbles := 0, queue := [], wcycle := c'.wcycle + b })
    | none => s.setCore k { x.2 with pc := x.1, left := 0, annul := false, bubbles := 0, wcycle := x.2.wcycle + b }

/-- Links are written (R409). -/
def linkPlace (k next : Nat) (l : List DrayOp) (s : State) : State :=
  match effFind (fun e => match e with
      | .link rd => some rd
      | _ => none) l with
  | none => s
  | some rd => effApply k 6 (.land 1 rd (linkAfter s k (s.core k) next) 0) s

/-- RETE (R439): results land, PSW and branch state are restored, issue resumes at EPC. -/
def returnFrom (k : Nat) (s : State) : State :=
  let s := drain k s
  let c := s.core k
  let e := c.cr 0x25
  let w := c.cr 0x23
  let pc := fldGet 18 2 (c.cr 0x20) * 4
  let s := s.setCore k { c.flush with
    sup := fldGet 0 0 w = 1, ie := fldGet 1 1 w = 1, atomLeft := 0, locked := false, left := fldGet 29 28 e,
    annul := fldGet 30 30 e = 1, target := if fldGet 31 31 e = 1 then some (fldGet 18 2 e * 4) else none, bubbles := 0,
    queue := [], pc := pc }
  boundary k (traceAdd k 3 c.pc pc s)

/-- A watchpoint that the bundle matched asks for a halt while DBG_EN is set (R452). -/
def watchPlace (k : Nat) (watch : Option Nat) (s : State) : State :=
  match watch with
  | some n => if s.isSet (DRAY_DBG_CTL_DBG_EN k) then s.modCore k (setHalt { reason := 6, which := n, forced := false, late := false }) else s
  | none => s

/-- WAIT (R409, R443): the core drains and waits for a request of its Bell target. -/
def waitFrom (k : Nat) (s : State) : State :=
  boundary k (bellRefresh (((drain k s).setF (DRAY_STAT_STATE k) 3).setF (TGT_STAT_HOLDING k) 0))

/-- RETE, SYSCALL, WAIT and the boundary after a bundle. -/
def bundleTail (k : Nat) (r : Option (Nat × Nat)) (s : State) : State :=
  match r with
  | none => boundary k s
  | some x => if x.1 = 0 then returnFrom k s else if x.1 = 1 then drayEntry k 18 6 x.2 0 s else waitFrom k s

/-- After a bundle: its watchpoint, then RETE, SYSCALL, WAIT or the boundary. -/
def afterBundle (k : Nat) (l : List DrayOp) (watch : Option Nat) (s : State) : State :=
  bundleTail k (effFind (fun e => match e with
      | .rete => some (0, 0)
      | .syscall c => some (1, c)
      | .wait => some (2, 0)
      | _ => none) l) (watchPlace k watch s)

/-- The bundle commits (R374): it counts an issue cycle, its effects are scheduled, and the next bundle is found. -/
def commit (k : Nat) (s : State) : State :=
  let c := s.core k
  let l := c.bundle
  let next := c.pc + 4 * c.words
  let fr := bundleFreeze c l
  let watch := (l.flatMap (fun o => o.effs)).findSome? (fun e => match e with
    | .touch a n w _ => watchHit c a n w
    | _ => none)
  let s := (s.setCore k { c with
    bundle := [], words := 0, frozen := false, icycle := c.icycle + 1, wcycle := c.wcycle + 1 + fr, ieLast := c.ie,
    queue := [c.pc / 64, c.pc / 64 + 1] }).cntSat (DRAY_FREEZE_FREEZES k) fr
  let s := linkPlace k next l (applyAll k l s)
  let s := s.modCore k (regionAfter l)
  let s := branchPlace k l (advancePc k next s)
  let s := coreTick k (loopPlace k next l s)
  afterBundle k l watch s

/-- The fault that a bundle reports (R398): a structural fault of the lowest slot, else an execution fault of the lowest. -/
def bundleFault (l : List DrayOp) : Option (Nat × Nat × Nat) :=
  let pick := fun (f : DrayOp → Option (Nat × Nat)) =>
    (List.range 9).findSome? (fun i => (l.filter (fun o => o.slot = i)).findSome? (fun o => (f o).map (fun x => (x.1, x.2, o.slot))))
  (pick (fun o => o.structural)).orElse (fun _ => pick (fun o => o.execution))

/-- The tags that a bundle waits for are all complete (R412, R413). -/
def tagsReady (c : Core) (l : List DrayOp) : Bool :=
  let m := l.foldl (fun m o => o.effs.foldl (fun m e => match e with
    | .need t => m ||| t
    | _ => m) m) 0
  (List.range 8).all (fun t => !(decide (m / 2 ^ t % 2 = 1) && (tblGet FarTag.reset t c.tags).busy))

/-- A bundle that is complete and without fault: it commits, or freezes until its tags are complete. -/
def issue (k : Nat) (s : State) : State :=
  let c := s.core k
  if tagsReady c c.bundle then commit k s else s.setCore k { c with frozen := true }

/-- The SLOT that a fault without a slot shows is the device's own. -/
def faultSlot (slot : Nat) (s : State) : Nat × State :=
  if slot < 8 then (slot, s)
  else
    let d := s.draw
    (d.1 % 8, d.2)

/-- The end of a bundle: its fault is entered, or it issues. BRK halts where BRK_HALT says so (R447). -/
def closeBundle (k : Nat) (s : State) : State :=
  let c := s.core k
  match bundleFault c.bundle with
  | none => issue k s
  | some (vec, info, slot) =>
    if vec = 19 ∧ s.isSet (DRAY_DBG_CTL_BRK_HALT k) ∧ s.isSet (DRAY_DBG_CTL_DBG_EN k) then
      haltNow k 4 0 (s.modCore k (fun c => { c with bundle := [], words := 0 }))
    else
      let x := faultSlot slot s
      let s := if vec = 17 then x.2.report (0x20 + k) 0x0902 noPath info else x.2
      drayEntry k vec x.1 0 info s

/-! ### Op commands -/

/-- The slot classes (R372, R397). -/
inductive SlotClass where
  | none | a | a2 | m | l | l2 | macd | b | v
deriving DecidableEq, Repr

/-- The slots an op of a class can take, each with the slots it then fills. -/
def slotChoices : SlotClass → List (Nat × List Nat)
  | .none => [(8, [])]
  | .a => [(0, [0]), (1, [1])]
  | .a2 => [(0, [0, 1])]
  | .m => [(2, [2]), (3, [3])]
  | .l => [(4, [4]), (5, [5])]
  | .l2 => [(4, [4, 5])]
  | .macd => [(2, [2, 4, 5])]
  | .b => [(6, [6])]
  | .v => [(7, [7])]

/-- The slots an op fills: read off its first word's major opcode. -/
def slotsFilled (o : DrayOp) : List Nat :=
  let major := o.word / 2 ^ 21 % 64
  if major = 0x09 then [0, 1] else if major = 0x17 then [2, 4, 5] else if major = 0x23 then [4, 5] else [o.slot]

/-- The slot an op takes, if its class has one free. -/
def takeSlot (c : Core) (cls : SlotClass) : Option Nat :=
  let used := c.bundle.flatMap slotsFilled
  ((slotChoices cls).find? (fun x => x.2.all (fun i => !used.contains i))).map (fun x => x.1)

/-- Words of an op of a class, and what it counts towards the eight of a bundle (R371). -/
def classWords : SlotClass → Nat
  | .a2 => 2
  | .l2 => 2
  | .macd => 2
  | _ => 1

/-- The first word of an op (R395, R396). -/
def opWord (h : OpHead) (wide : Bool) (major fields : Nat) : Nat :=
  (if h.last && !wide then 2 ^ 31 else 0) + h.neg.toNat * 2 ^ 30 + h.gp.toNat * 2 ^ 27 + major * 2 ^ 21 + fields

/-- Does the op execute? (R384, R398) -/
def opExecutes (h : OpHead) (c : Core) : Bool := (c.pr h.gp.toNat != h.neg) && !(decide (0 < c.left) && c.annul)

/-- In legacy mode the first op of a bundle needs its line (R387, R404): the fault of the check of g15, or the state with the
line held; a full cache gives up a line of its own choice. -/
def lineFill (k : Nat) (c : Core) (s : State) : Except Nat State :=
  if !c.legacy || !c.bundle.isEmpty || c.lines.contains (c.pc / 64) then .ok s
  else
    match segCheck c 15 [2] (c.pc / 64 * 64) 64 64 false with
    | .error v => .error v
    | .ok _ =>
      if !segBit (c.sg 15) 2 then .error 7
      else if c.lines.length < 512 then .ok (s.setCore k { c with lines := c.pc / 64 :: c.lines })
      else
        let d := s.draw
        .ok (d.2.setCore k { c with lines := c.pc / 64 :: c.lines.eraseIdx (d.1 % 512) })

/-- Can the core issue? Only while its shed is ON (R393, R444, R539). -/
def canIssue (s : State) (k : Nat) : Bool :=
  let c := s.core k
  decide (s.coreState k = 2) && s.shedOn (k / 2) && !c.frozen && !c.haltReady

/-- An op takes its place in the bundle; the last one closes it. A bundle of too many ops (four in legacy mode), one that crosses
its line, an op without a free slot and a vector op in legacy mode raise ILLEGAL_BUNDLE (R371, R372, R387). `structural` is the
op's own structural fault, `plan` what it would do in its slot, given whether it executes. -/
def drayOp (h : OpHead) (cls : SlotClass) (word : Nat) (structural : State → Core → Option (Nat × Nat))
    (plan : Bool → Nat → Core → State → Plan) (s : State) : State :=
  let k := h.core.val
  if !canIssue s k then s
  else
    match lineFill k (s.core k) s with
    | .error v =>
      let x := faultSlot 8 s
      drayEntry k v x.1 0 ((s.core k).pc / 64 * 64) x.2
    | .ok s =>
      let c := s.core k
      let words := c.words + classWords cls
      let over' := decide (8 < words) || (c.legacy && decide (4 < words)) || decide (64 < c.pc % 64 + 4 * words)
      let slot := takeSlot c cls
      let illegal := over' || slot.isNone || (c.legacy && cls = .v)
      let st := if illegal then some (1, c.pc) else structural s c
      let p := if st.isSome then Plan.effects [] else plan (opExecutes h c) (slot.getD 8) c s
      let op : DrayOp :=
        { slot := slot.getD 8, word := word, structural := st, execution := planFault p,
          effs := planEffs p ++ (if h.frz = 0 then [] else [.freeze h.frz]) }
      let s := s.setCore k { c with bundle := c.bundle ++ [op], words := words }
      if h.last || over' then closeBundle k s else s

/-- An op that only reads registers: `effs` when it executes. -/
def plainOp (h : OpHead) (cls : SlotClass) (word : Nat) (bad : Bool) (effs : Nat → Core → List Eff) (s : State) :
    Host.Outcome State Fault Refusal :=
  .next (drayOp h cls word (fun _ _ => if bad then some (0, word) else none)
    (fun ex slot c _ => .effects (if ex then effs slot c else [])) s)

end Sys2Proof.Machine
end

