-- ==== Sys2Proof/Machine/DrayAlu.lean ====
section
/-!
DEFINITION. The A-class ops of a Dray core (spec/16 R397, R406): ALU, compares, predicate logic, immediates, and NOP.
-/

namespace Sys2Proof.Machine

/-- Format R3 (R397). -/
def wordR3 (h : OpHead) (op fn : Nat) (rd rs1 rs2 : BitVec 6) : Nat :=
  opWord h false op (rd.toNat * 2 ^ 15 + rs1.toNat * 2 ^ 9 + rs2.toNat * 8 + fn)

/-- Format RI (R397). -/
def wordRI (h : OpHead) (op : Nat) (rd rs1 : BitVec 6) (imm : Nat) : Nat :=
  opWord h false op (rd.toNat * 2 ^ 15 + rs1.toNat * 2 ^ 9 + imm)

/-- An ALU op on two s registers (R406). -/
def aluR3 (h : OpHead) (op fn : Nat) (rd rs1 rs2 : BitVec 6) (f : Word → Word → Word) (s : State) :
    Host.Outcome State Fault Refusal :=
  plainOp h .a (wordR3 h op fn rd rs1 rs2) false (fun _ c => [effS 1 rd.toNat (f (c.sr rs1.toNat) (c.sr rs2.toNat))]) s

/-- An ALU op on an s register and a 9-bit immediate, sign-extended (R406). -/
def aluRI (h : OpHead) (op : Nat) (rd rs1 : BitVec 6) (imm : BitVec 9) (f : Word → Word → Word) (s : State) :
    Host.Outcome State Fault Refusal :=
  plainOp h .a (wordRI h op rd rs1 imm.toNat) false (fun _ c => [effS 1 rd.toNat (f (c.sr rs1.toNat) (imm.signExtend 32))]) s

/-- A shift by an immediate: imm9[8:7] selects it, imm9[6:5] must be 0 (R406). -/
def aluShift (h : OpHead) (fn : Nat) (rd rs1 : BitVec 6) (imm : BitVec 7) (f : Word → Nat → Word) (s : State) :
    Host.Outcome State Fault Refusal :=
  plainOp h .a (wordRI h 0x04 rd rs1 (fn * 128 + imm.toNat)) (decide (32 ≤ imm.toNat))
    (fun _ c => [effS 1 rd.toNat (f (c.sr rs1.toNat) (imm.toNat % 32))]) s

/-- An ALU op on two d registers (R406): a field of 32 or more raises ILLEGAL_OP (R397). -/
def aluD (h : OpHead) (fn : Nat) (rd rs1 rs2 : BitVec 6) (f : DWord → DWord → DWord) (s : State) :
    Host.Outcome State Fault Refusal :=
  plainOp h .a (wordR3 h 0x0A fn rd rs1 rs2) (decide (32 ≤ rd.toNat) || decide (32 ≤ rs1.toNat) || decide (32 ≤ rs2.toNat))
    (fun _ c => effD 1 rd.toNat (f (c.dr rs1.toNat) (c.dr rs2.toNat))) s

/-- Predicate logic (R406, format PL). -/
def aluP (h : OpHead) (op : Nat) (pd pa pb : BitVec 3) (f : Bool → Bool → Bool) (s : State) : Host.Outcome State Fault Refusal :=
  plainOp h .a (opWord h false 0x0E (pd.toNat * 2 ^ 18 + pa.toNat * 2 ^ 15 + pb.toNat * 2 ^ 12 + op * 2 ^ 10)) false
    (fun _ c => effP 1 pd.toNat (f (c.pr pa.toNat) (c.pr pb.toNat))) s

/-- An op on one s register (R406: rs2 = 0). -/
def aluUnary (h : OpHead) (fn : Nat) (rd rs1 : BitVec 6) (f : Word → Word) (s : State) : Host.Outcome State Fault Refusal :=
  plainOp h .a (wordR3 h 0x0F fn rd rs1 0) false (fun _ c => [effS 1 rd.toNat (f (c.sr rs1.toNat))]) s

/-- Rotation left. -/
def rotl (a : Word) (n : Nat) : Word := a.rotateLeft (n % 32)

/-- Leading zeros, of 32 bits. -/
def clz (a : Word) : Nat := (List.range 32).findIdx (fun i => a.getLsbD (31 - i))

/-- Ones. -/
def popc (a : Word) : Nat := ((List.range 32).filter (fun i => a.getLsbD i)).length

/-- Bits in reverse order. -/
def brev (a : Word) : Word := a.reverse

/-- NOP (R397): `field` is the rest of the word, bits [26:0]. All zero it does nothing, takes no slot and counts as one op; any
other word given here is one that R397 makes illegal (a reserved opcode, a non-zero reserved field), and raises ILLEGAL_OP. -/
def execNop (h : OpHead) (field : BitVec 27) (s : State) : Host.Outcome State Fault Refusal :=
  plainOp h .none (opWord h false 0 field.toNat) (decide (field ≠ 0)) (fun _ _ => []) s

/-- ADD (R406): rd := rs1 + rs2 modulo 2^32. -/
def execAdd (h : OpHead) (rd rs1 rs2 : BitVec 6) (s : State) : Host.Outcome State Fault Refusal :=
  aluR3 h 0x01 0 rd rs1 rs2 (fun a b => a + b) s

/-- SUB (R406): rd := rs1 - rs2. -/
def execSub (h : OpHead) (rd rs1 rs2 : BitVec 6) (s : State) : Host.Outcome State Fault Refusal :=
  aluR3 h 0x01 1 rd rs1 rs2 (fun a b => a - b) s

/-- AND (R406). -/
def execAnd (h : OpHead) (rd rs1 rs2 : BitVec 6) (s : State) : Host.Outcome State Fault Refusal :=
  aluR3 h 0x01 2 rd rs1 rs2 (fun a b => a &&& b) s

/-- OR (R406). -/
def execOr (h : OpHead) (rd rs1 rs2 : BitVec 6) (s : State) : Host.Outcome State Fault Refusal :=
  aluR3 h 0x01 3 rd rs1 rs2 (fun a b => a ||| b) s

/-- XOR (R406). -/
def execXor (h : OpHead) (rd rs1 rs2 : BitVec 6) (s : State) : Host.Outcome State Fault Refusal :=
  aluR3 h 0x01 4 rd rs1 rs2 (fun a b => a ^^^ b) s

/-- SHL (R406): by bits [4:0] of rs2. -/
def execShl (h : OpHead) (rd rs1 rs2 : BitVec 6) (s : State) : Host.Outcome State Fault Refusal :=
  aluR3 h 0x01 5 rd rs1 rs2 (fun a b => a <<< (b.toNat % 32)) s

/-- SHR (R406): logical, by bits [4:0] of rs2. -/
def execShr (h : OpHead) (rd rs1 rs2 : BitVec 6) (s : State) : Host.Outcome State Fault Refusal :=
  aluR3 h 0x01 6 rd rs1 rs2 (fun a b => a >>> (b.toNat % 32)) s

/-- SRA (R406): arithmetic, by bits [4:0] of rs2. -/
def execSra (h : OpHead) (rd rs1 rs2 : BitVec 6) (s : State) : Host.Outcome State Fault Refusal :=
  aluR3 h 0x01 7 rd rs1 rs2 (fun a b => a.sshiftRight (b.toNat % 32)) s

/-- MIN (R406), signed. -/
def execMin (h : OpHead) (rd rs1 rs2 : BitVec 6) (s : State) : Host.Outcome State Fault Refusal :=
  aluR3 h 0x02 0 rd rs1 rs2 (fun a b => if a.toInt < b.toInt then a else b) s

/-- MAX (R406), signed. -/
def execMax (h : OpHead) (rd rs1 rs2 : BitVec 6) (s : State) : Host.Outcome State Fault Refusal :=
  aluR3 h 0x02 1 rd rs1 rs2 (fun a b => if a.toInt < b.toInt then b else a) s

/-- MINU (R406), unsigned. -/
def execMinu (h : OpHead) (rd rs1 rs2 : BitVec 6) (s : State) : Host.Outcome State Fault Refusal :=
  aluR3 h 0x02 2 rd rs1 rs2 (fun a b => if a.toNat < b.toNat then a else b) s

/-- MAXU (R406), unsigned. -/
def execMaxu (h : OpHead) (rd rs1 rs2 : BitVec 6) (s : State) : Host.Outcome State Fault Refusal :=
  aluR3 h 0x02 3 rd rs1 rs2 (fun a b => if a.toNat < b.toNat then b else a) s

/-- ADDS (R406): the sum saturates to signed 32 bits. -/
def execAdds (h : OpHead) (rd rs1 rs2 : BitVec 6) (s : State) : Host.Outcome State Fault Refusal :=
  aluR3 h 0x02 4 rd rs1 rs2 (fun a b => BitVec.ofNat 32 (satS 32 (a.toInt + b.toInt)).1) s

/-- SUBS (R406): the difference saturates to signed 32 bits. -/
def execSubs (h : OpHead) (rd rs1 rs2 : BitVec 6) (s : State) : Host.Outcome State Fault Refusal :=
  aluR3 h 0x02 5 rd rs1 rs2 (fun a b => BitVec.ofNat 32 (satS 32 (a.toInt - b.toInt)).1) s

/-- ROL (R406): by bits [4:0] of rs2. -/
def execRol (h : OpHead) (rd rs1 rs2 : BitVec 6) (s : State) : Host.Outcome State Fault Refusal :=
  aluR3 h 0x02 6 rd rs1 rs2 (fun a b => rotl a b.toNat) s

/-- ANDN (R406): rs1 AND NOT rs2. -/
def execAndn (h : OpHead) (rd rs1 rs2 : BitVec 6) (s : State) : Host.Outcome State Fault Refusal :=
  aluR3 h 0x02 7 rd rs1 rs2 (fun a b => a &&& ~~~ b) s

/-- ADDI (R406): rd := rs1 + sext(imm9). -/
def execAddi (h : OpHead) (rd rs1 : BitVec 6) (imm : BitVec 9) (s : State) : Host.Outcome State Fault Refusal :=
  aluRI h 0x03 rd rs1 imm (fun a b => a + b) s

/-- SHLI (R406). -/
def execShli (h : OpHead) (rd rs1 : BitVec 6) (imm : BitVec 7) (s : State) : Host.Outcome State Fault Refusal :=
  aluShift h 0 rd rs1 imm (fun a n => a <<< n) s

/-- SHRI (R406), logical. -/
def execShri (h : OpHead) (rd rs1 : BitVec 6) (imm : BitVec 7) (s : State) : Host.Outcome State Fault Refusal :=
  aluShift h 1 rd rs1 imm (fun a n => a >>> n) s

/-- SRAI (R406), arithmetic. -/
def execSrai (h : OpHead) (rd rs1 : BitVec 6) (imm : BitVec 7) (s : State) : Host.Outcome State Fault Refusal :=
  aluShift h 2 rd rs1 imm (fun a n => a.sshiftRight n) s

/-- ROLI (R406). -/
def execRoli (h : OpHead) (rd rs1 : BitVec 6) (imm : BitVec 7) (s : State) : Host.Outcome State Fault Refusal :=
  aluShift h 3 rd rs1 imm rotl s

/-- ANDI (R406): rd := rs1 op sext(imm9). -/
def execAndi (h : OpHead) (rd rs1 : BitVec 6) (imm : BitVec 9) (s : State) : Host.Outcome State Fault Refusal :=
  aluRI h 0x05 rd rs1 imm (fun a b => a &&& b) s

/-- ORI (R406): rd := rs1 op sext(imm9). -/
def execOri (h : OpHead) (rd rs1 : BitVec 6) (imm : BitVec 9) (s : State) : Host.Outcome State Fault Refusal :=
  aluRI h 0x06 rd rs1 imm (fun a b => a ||| b) s

/-- XORI (R406): rd := rs1 op sext(imm9). -/
def execXori (h : OpHead) (rd rs1 : BitVec 6) (imm : BitVec 9) (s : State) : Host.Outcome State Fault Refusal :=
  aluRI h 0x07 rd rs1 imm (fun a b => a ^^^ b) s

/-- MOVI (R406): rd := sext(imm15). -/
def execMovi (h : OpHead) (rd : BitVec 6) (imm : BitVec 15) (s : State) : Host.Outcome State Fault Refusal :=
  plainOp h .a (opWord h false 0x08 (rd.toNat * 2 ^ 15 + imm.toNat)) false (fun _ _ => [effS 1 rd.toNat (imm.signExtend 32)]) s

/-- MOVI32 (R406): the 64-bit op takes A0 and A1; imm[31] stands in bit 0 of the first word. -/
def execMovi32 (h : OpHead) (rd : BitVec 6) (imm : Word) (s : State) : Host.Outcome State Fault Refusal :=
  plainOp h .a2 (opWord h true 0x09 (rd.toNat * 2 ^ 15 + imm.toNat / 2 ^ 31)) false (fun _ _ => [effS 1 rd.toNat imm]) s

/-- DADD (R406) on d registers; shifts use bits [5:0]. -/
def execDadd (h : OpHead) (rd rs1 rs2 : BitVec 6) (s : State) : Host.Outcome State Fault Refusal :=
  aluD h 0 rd rs1 rs2 (fun a b => a + b) s

/-- DSUB (R406) on d registers; shifts use bits [5:0]. -/
def execDsub (h : OpHead) (rd rs1 rs2 : BitVec 6) (s : State) : Host.Outcome State Fault Refusal :=
  aluD h 1 rd rs1 rs2 (fun a b => a - b) s

/-- DAND (R406) on d registers; shifts use bits [5:0]. -/
def execDand (h : OpHead) (rd rs1 rs2 : BitVec 6) (s : State) : Host.Outcome State Fault Refusal :=
  aluD h 2 rd rs1 rs2 (fun a b => a &&& b) s

/-- DOR (R406) on d registers; shifts use bits [5:0]. -/
def execDor (h : OpHead) (rd rs1 rs2 : BitVec 6) (s : State) : Host.Outcome State Fault Refusal :=
  aluD h 3 rd rs1 rs2 (fun a b => a ||| b) s

/-- DXOR (R406) on d registers; shifts use bits [5:0]. -/
def execDxor (h : OpHead) (rd rs1 rs2 : BitVec 6) (s : State) : Host.Outcome State Fault Refusal :=
  aluD h 4 rd rs1 rs2 (fun a b => a ^^^ b) s

/-- DSHL (R406) on d registers; shifts use bits [5:0]. -/
def execDshl (h : OpHead) (rd rs1 rs2 : BitVec 6) (s : State) : Host.Outcome State Fault Refusal :=
  aluD h 5 rd rs1 rs2 (fun a b => a <<< (b.toNat % 64)) s

/-- DSHR (R406) on d registers; shifts use bits [5:0]. -/
def execDshr (h : OpHead) (rd rs1 rs2 : BitVec 6) (s : State) : Host.Outcome State Fault Refusal :=
  aluD h 6 rd rs1 rs2 (fun a b => a >>> (b.toNat % 64)) s

/-- DSRA (R406) on d registers; shifts use bits [5:0]. -/
def execDsra (h : OpHead) (rd rs1 rs2 : BitVec 6) (s : State) : Host.Outcome State Fault Refusal :=
  aluD h 7 rd rs1 rs2 (fun a b => a.sshiftRight (b.toNat % 64)) s

/-- SEL (R406): rd := rs1 if pq = 1, else rs2. -/
def execSel (h : OpHead) (rd rs1 rs2 : BitVec 6) (q : BitVec 3) (s : State) : Host.Outcome State Fault Refusal :=
  plainOp h .a (wordR3 h 0x0B q.toNat rd rs1 rs2) false
    (fun _ c => [effS 1 rd.toNat (if c.pr q.toNat then c.sr rs1.toNat else c.sr rs2.toNat)]) s

/-- CMP (R406): c := cond(rs1, rs2); comb 0 pd := c, 1 pd AND c, 2 pd OR c; every other comb is reserved. -/
def execCmp (h : OpHead) (pd cond : BitVec 3) (rs1 rs2 : BitVec 6) (comb : BitVec 3) (s : State) : Host.Outcome State Fault Refusal :=
  plainOp h .a (opWord h false 0x0C (pd.toNat * 2 ^ 18 + cond.toNat * 2 ^ 15 + rs1.toNat * 2 ^ 9 + rs2.toNat * 8 + comb.toNat))
    (decide (3 ≤ comb.toNat))
    (fun _ c =>
      let v := condHolds 32 cond.toNat (c.sr rs1.toNat).toNat (c.sr rs2.toNat).toNat
      effP 1 pd.toNat (if comb = 0 then v else if comb = 1 then c.pr pd.toNat && v else c.pr pd.toNat || v)) s

/-- CMPI (R406): pd := cond(rs1, sext(imm9)). -/
def execCmpi (h : OpHead) (pd cond : BitVec 3) (rs1 : BitVec 6) (imm : BitVec 9) (s : State) : Host.Outcome State Fault Refusal :=
  plainOp h .a (opWord h false 0x0D (pd.toNat * 2 ^ 18 + cond.toNat * 2 ^ 15 + rs1.toNat * 2 ^ 9 + imm.toNat)) false
    (fun _ c => effP 1 pd.toNat (condHolds 32 cond.toNat (c.sr rs1.toNat).toNat (imm.signExtend 32).toNat)) s

/-- PAND (R406): pd := pa op pb. -/
def execPand (h : OpHead) (pd pa pb : BitVec 3) (s : State) : Host.Outcome State Fault Refusal :=
  aluP h 0 pd pa pb (fun a b => a && b) s

/-- POR (R406): pd := pa op pb. -/
def execPor (h : OpHead) (pd pa pb : BitVec 3) (s : State) : Host.Outcome State Fault Refusal :=
  aluP h 1 pd pa pb (fun a b => a || b) s

/-- PXOR (R406): pd := pa op pb. -/
def execPxor (h : OpHead) (pd pa pb : BitVec 3) (s : State) : Host.Outcome State Fault Refusal :=
  aluP h 2 pd pa pb (fun a b => a != b) s

/-- PANDN (R406): pd := pa op pb. -/
def execPandn (h : OpHead) (pd pa pb : BitVec 3) (s : State) : Host.Outcome State Fault Refusal :=
  aluP h 3 pd pa pb (fun a b => a && !b) s

/-- CLZ (R406): leading zeros. -/
def execClz (h : OpHead) (rd rs1 : BitVec 6) (s : State) : Host.Outcome State Fault Refusal :=
  aluUnary h 0 rd rs1 (fun a => BitVec.ofNat 32 (clz a)) s

/-- POPC (R406): number of ones. -/
def execPopc (h : OpHead) (rd rs1 : BitVec 6) (s : State) : Host.Outcome State Fault Refusal :=
  aluUnary h 1 rd rs1 (fun a => BitVec.ofNat 32 (popc a)) s

/-- BREV (R406): bits reversed. -/
def execBrev (h : OpHead) (rd rs1 : BitVec 6) (s : State) : Host.Outcome State Fault Refusal :=
  aluUnary h 2 rd rs1 brev s

/-- SEXTB (R406): the low byte sign-extended. -/
def execSextb (h : OpHead) (rd rs1 : BitVec 6) (s : State) : Host.Outcome State Fault Refusal :=
  aluUnary h 3 rd rs1 (fun a => (a.truncate 8 : BitVec 8).signExtend 32) s

/-- SEXTH (R406): the low halfword sign-extended. -/
def execSexth (h : OpHead) (rd rs1 : BitVec 6) (s : State) : Host.Outcome State Fault Refusal :=
  aluUnary h 4 rd rs1 (fun a => (a.truncate 16 : BitVec 16).signExtend 32) s

/-- ZEXTB (R406): the low byte zero-extended. -/
def execZextb (h : OpHead) (rd rs1 : BitVec 6) (s : State) : Host.Outcome State Fault Refusal :=
  aluUnary h 5 rd rs1 (fun a => a &&& 0xFF) s

/-- ZEXTH (R406): the low halfword zero-extended. -/
def execZexth (h : OpHead) (rd rs1 : BitVec 6) (s : State) : Host.Outcome State Fault Refusal :=
  aluUnary h 6 rd rs1 (fun a => a &&& 0xFFFF) s

end Sys2Proof.Machine
end

