-- ==== Sys2Proof/Machine/DrayMul.lean ====
section
/-!
DEFINITION. The M-class ops of a Dray core (spec/16 R407, R410): multiplies, carry-less multiplies, accumulators, MACD; and
the local loads and stores (R405, R408).
-/

namespace Sys2Proof.Machine

/-! ### Multiplies (R407) -/

/-- The carry-less product of two words. -/
def clmul (a b : Word) : DWord :=
  (List.range 32).foldl (fun x i => if b.getLsbD i then x ^^^ ((a.zeroExtend 64 : DWord) <<< i) else x) 0

/-- A multiply into an s register, latency 3. -/
def mulS (h : OpHead) (fn : Nat) (rd rs1 rs2 : BitVec 6) (f : Word → Word → Word) (s : State) : Host.Outcome State Fault Refusal :=
  plainOp h .m (wordR3 h 0x10 fn rd rs1 rs2) false (fun _ c => [effS 3 rd.toNat (f (c.sr rs1.toNat) (c.sr rs2.toNat))]) s

/-- A multiply into a d register, latency 3. -/
def mulD (h : OpHead) (fn : Nat) (rd rs1 rs2 : BitVec 6) (f : Word → Word → DWord) (s : State) : Host.Outcome State Fault Refusal :=
  plainOp h .m (wordR3 h 0x10 fn rd rs1 rs2) (decide (32 ≤ rd.toNat))
    (fun _ c => effD 3 rd.toNat (f (c.sr rs1.toNat) (c.sr rs2.toNat))) s

/-- MUL: bits [31:0] of the product. -/
def execMul (h : OpHead) (rd rs1 rs2 : BitVec 6) (s : State) : Host.Outcome State Fault Refusal :=
  mulS h 0 rd rs1 rs2 (fun a b => a * b) s

/-- MULHS: bits [63:32] of the signed product. -/
def execMulhs (h : OpHead) (rd rs1 rs2 : BitVec 6) (s : State) : Host.Outcome State Fault Refusal :=
  mulS h 1 rd rs1 rs2 (fun a b => BitVec.ofInt 32 (a.toInt * b.toInt / 2 ^ 32)) s

/-- MULHU: bits [63:32] of the unsigned product. -/
def execMulhu (h : OpHead) (rd rs1 rs2 : BitVec 6) (s : State) : Host.Outcome State Fault Refusal :=
  mulS h 2 rd rs1 rs2 (fun a b => BitVec.ofNat 32 (a.toNat * b.toNat / 2 ^ 32)) s

/-- MULW: the signed 64-bit product. -/
def execMulw (h : OpHead) (rd rs1 rs2 : BitVec 6) (s : State) : Host.Outcome State Fault Refusal :=
  mulD h 3 rd rs1 rs2 (fun a b => BitVec.ofInt 64 (a.toInt * b.toInt)) s

/-- MULWU: the unsigned 64-bit product. -/
def execMulwu (h : OpHead) (rd rs1 rs2 : BitVec 6) (s : State) : Host.Outcome State Fault Refusal :=
  mulD h 4 rd rs1 rs2 (fun a b => BitVec.ofNat 64 (a.toNat * b.toNat)) s

/-- CLMUL: the low half of the carry-less product. -/
def execClmul (h : OpHead) (rd rs1 rs2 : BitVec 6) (s : State) : Host.Outcome State Fault Refusal :=
  mulS h 5 rd rs1 rs2 (fun a b => (clmul a b).truncate 32) s

/-- CLMULH: the high half of the carry-less product. -/
def execClmulh (h : OpHead) (rd rs1 rs2 : BitVec 6) (s : State) : Host.Outcome State Fault Refusal :=
  mulS h 6 rd rs1 rs2 (fun a b => BitVec.ofNat 32 ((clmul a b).toNat / 2 ^ 32)) s

/-! ### Multiply-accumulates (R375, R407) -/

/-- The accumulator operand: the result of the multiply-accumulate before in the same slot with the same destination, if it issued
in the issue cycle directly before; else the register (R375). -/
def accIn (c : Core) (slot a : Nat) : Int :=
  match (if slot = 3 then c.mac1 else c.mac0) with
  | some (cyc, a', v) => if cyc + 1 = c.cyc ∧ a' = a then (v : Int) else ((c.ar a).toNat : Int)
  | none => ((c.ar a).toNat : Int)

/-- The effects of a multiply-accumulate that adds `x`: modulo 2^80, latency 4. -/
def accEffs (c : Core) (slot a : Nat) (x : Int) : List Eff :=
  let v := wrapTo 80 (accIn c slot a + x)
  [effA 4 a (BitVec.ofNat 80 v), .mac a v]

/-- Format MA. -/
def accOp (h : OpHead) (fn : Nat) (a : BitVec 2) (rs1 rs2 : BitVec 6) (f : Word → Word → Int) (s : State) :
    Host.Outcome State Fault Refusal :=
  plainOp h .m (opWord h false 0x11 (a.toNat * 2 ^ 19 + rs1.toNat * 2 ^ 9 + rs2.toNat * 8 + fn)) false
    (fun slot c => accEffs c slot a.toNat (f (c.sr rs1.toNat) (c.sr rs2.toNat))) s

/-- MAC: a := a + rs1 × rs2, signed. -/
def execMac (h : OpHead) (a : BitVec 2) (rs1 rs2 : BitVec 6) (s : State) : Host.Outcome State Fault Refusal :=
  accOp h 0 a rs1 rs2 (fun x y => x.toInt * y.toInt) s

/-- MACU: a := a + rs1 × rs2, unsigned. -/
def execMacu (h : OpHead) (a : BitVec 2) (rs1 rs2 : BitVec 6) (s : State) : Host.Outcome State Fault Refusal :=
  accOp h 1 a rs1 rs2 (fun x y => (x.toNat * y.toNat : Nat)) s

/-- MSU: a := a − rs1 × rs2, signed. -/
def execMsu (h : OpHead) (a : BitVec 2) (rs1 rs2 : BitVec 6) (s : State) : Host.Outcome State Fault Refusal :=
  accOp h 2 a rs1 rs2 (fun x y => -(x.toInt * y.toInt)) s

/-- MAC2: a := a + lo16 × lo16 + hi16 × hi16, signed. -/
def execMac2 (h : OpHead) (a : BitVec 2) (rs1 rs2 : BitVec 6) (s : State) : Host.Outcome State Fault Refusal :=
  accOp h 3 a rs1 rs2 (fun x y =>
    sgn 16 (x.toNat % 65536) * sgn 16 (y.toNat % 65536) + sgn 16 (x.toNat / 65536) * sgn 16 (y.toNat / 65536)) s

/-- ACLR: a := 0, latency 1. -/
def execAclr (h : OpHead) (a : BitVec 2) (s : State) : Host.Outcome State Fault Refusal :=
  plainOp h .m (opWord h false 0x12 (a.toNat * 2 ^ 19)) false (fun _ _ => [effA 1 a.toNat 0]) s

/-- AWR: a := sext80(d), latency 1. -/
def execAwr (h : OpHead) (a : BitVec 2) (reg : BitVec 6) (s : State) : Host.Outcome State Fault Refusal :=
  plainOp h .m (opWord h false 0x12 (a.toNat * 2 ^ 19 + reg.toNat * 2 ^ 9 + 1)) (decide (32 ≤ reg.toNat))
    (fun _ c => [effA 1 a.toNat ((c.dr reg.toNat).signExtend 80)]) s

/-- ARD's value: the accumulator shifted right, rounded with halves up or truncated towards minus infinity. -/
def ardShift (a : BitVec 80) (shift : Nat) (round : Bool) : Int :=
  (a.toInt + (if round && decide (0 < shift) then (2 : Int) ^ (shift - 1) else 0)) / (2 : Int) ^ shift

/-- ARD: the shifted accumulator saturated into s[reg], or with D = 1 into d[reg]; latency 3. -/
def execArd (h : OpHead) (a : BitVec 2) (d r : Bool) (reg shift : BitVec 6) (s : State) : Host.Outcome State Fault Refusal :=
  plainOp h .m
    (opWord h false 0x12 (a.toNat * 2 ^ 19 + d.toNat * 2 ^ 18 + r.toNat * 2 ^ 17 + reg.toNat * 2 ^ 9 + shift.toNat * 8 + 2))
    (d && decide (32 ≤ reg.toNat))
    (fun _ c =>
      let t := ardShift (c.ar a.toNat) shift.toNat r
      if d then effD 3 reg.toNat (BitVec.ofNat 64 (satS 64 t).1) else [effS 3 reg.toNat (BitVec.ofNat 32 (satS 32 t).1)]) s

/-! ### Local loads and stores (R405, R408) -/

/-- An addressing form (R405): the offset, and the update of the index register. -/
def memOffset (c : Core) (size form opnd : Nat) : Nat × List Eff :=
  let x := c.sr (opnd / 8)
  match form with
  | 0 => (opnd * size, [])
  | 1 => (x.toNat, [])
  | 2 => (x.toNat, [effS 1 (opnd / 8) (x + BitVec.ofNat 32 size)])
  | _ => (x.toNat, [effS 1 (opnd / 8) (x - BitVec.ofNat 32 size)])

/-- A word of format MEM. -/
def wordMem (h : OpHead) (op : Nat) (rt : BitVec 6) (g : BitVec 4) (form : BitVec 2) (opnd : BitVec 9) : Nat :=
  opWord h false op (rt.toNat * 2 ^ 15 + g.toNat * 2 ^ 11 + form.toNat * 2 ^ 9 + opnd.toNat)

/-- The draw of a load that met data not yet reliable is used up (R414). -/
def afterLoad (k : Nat) (s s' : State) : State := if canIssue s k then lmDrawn (s.core k) s' else s'

/-- A load of `size` bytes, latency 4. `ecc` says what the read met: 0 none, 1 a corrected error, 2 an uncorrectable one. -/
def loadOp (h : OpHead) (op size : Nat) (rt : BitVec 6) (g : BitVec 4) (form : BitVec 2) (opnd : BitVec 9) (ecc : Fin 3)
    (f : Nat → List Eff) (s : State) : Host.Outcome State Fault Refusal :=
  let w := wordMem h op rt g form opnd
  .next (afterLoad h.core.val s (drayOp h .l w
    (fun _ _ => if (form ≠ 0 ∧ opnd.toNat % 8 ≠ 0) ∨ (size = 8 ∧ 32 ≤ rt.toNat) then some (0, w) else none)
    (fun ex _ c s =>
      if !ex then .effects []
      else
        let m := memOffset c size form.toNat opnd.toNat
        match localCheck c g.toNat m.1 size size false with
        | .error v => .fault v m.1
        | .ok a =>
          if ecc = 2 then .fault 17 (a / 8 * 8)
          else .effects ([.touch a size false true] ++ f (leVal (lmLoad s h.core.val c a size)) ++ m.2
            ++ (if ecc = 1 then [.corrected (a / 8 * 8)] else []))) s))

/-- A store of `size` bytes. -/
def storeOp (h : OpHead) (op size : Nat) (rt : BitVec 6) (g : BitVec 4) (form : BitVec 2) (opnd : BitVec 9) (f : Core → Nat)
    (s : State) : Host.Outcome State Fault Refusal :=
  let w := wordMem h op rt g form opnd
  .next (drayOp h .l w
    (fun _ _ => if (form ≠ 0 ∧ opnd.toNat % 8 ≠ 0) ∨ (size = 8 ∧ 32 ≤ rt.toNat) then some (0, w) else none)
    (fun ex _ c _ =>
      if !ex then .effects []
      else
        let m := memOffset c size form.toNat opnd.toNat
        match localCheck c g.toNat m.1 size size true with
        | .error v => .fault v m.1
        | .ok a => .effects ([.touch a size true true, .store ((leBytes size (f c)).zipIdx.map (fun b => (a + b.2, b.1)))] ++ m.2)) s)

/-- LDB: sign-extended byte. -/
def execLdb (h : OpHead) (rt : BitVec 6) (g : BitVec 4) (form : BitVec 2) (opnd : BitVec 9) (ecc : Fin 3) (s : State) :
    Host.Outcome State Fault Refusal :=
  loadOp h 0x18 1 rt g form opnd ecc (fun v => [effS 4 rt.toNat ((BitVec.ofNat 8 v).signExtend 32)]) s

/-- LDBU: zero-extended byte. -/
def execLdbu (h : OpHead) (rt : BitVec 6) (g : BitVec 4) (form : BitVec 2) (opnd : BitVec 9) (ecc : Fin 3) (s : State) :
    Host.Outcome State Fault Refusal :=
  loadOp h 0x19 1 rt g form opnd ecc (fun v => [effS 4 rt.toNat (BitVec.ofNat 32 v)]) s

/-- LDH: sign-extended halfword. -/
def execLdh (h : OpHead) (rt : BitVec 6) (g : BitVec 4) (form : BitVec 2) (opnd : BitVec 9) (ecc : Fin 3) (s : State) :
    Host.Outcome State Fault Refusal :=
  loadOp h 0x1A 2 rt g form opnd ecc (fun v => [effS 4 rt.toNat ((BitVec.ofNat 16 v).signExtend 32)]) s

/-- LDHU: zero-extended halfword. -/
def execLdhu (h : OpHead) (rt : BitVec 6) (g : BitVec 4) (form : BitVec 2) (opnd : BitVec 9) (ecc : Fin 3) (s : State) :
    Host.Outcome State Fault Refusal :=
  loadOp h 0x1B 2 rt g form opnd ecc (fun v => [effS 4 rt.toNat (BitVec.ofNat 32 v)]) s

/-- LDW: word. -/
def execLdw (h : OpHead) (rt : BitVec 6) (g : BitVec 4) (form : BitVec 2) (opnd : BitVec 9) (ecc : Fin 3) (s : State) :
    Host.Outcome State Fault Refusal :=
  loadOp h 0x1C 4 rt g form opnd ecc (fun v => [effS 4 rt.toNat (BitVec.ofNat 32 v)]) s

/-- LDD: doubleword into a d register. -/
def execLdd (h : OpHead) (rt : BitVec 6) (g : BitVec 4) (form : BitVec 2) (opnd : BitVec 9) (ecc : Fin 3) (s : State) :
    Host.Outcome State Fault Refusal :=
  loadOp h 0x1D 8 rt g form opnd ecc (fun v => effD 4 rt.toNat (BitVec.ofNat 64 v)) s

/-- STB: the low byte of rt. -/
def execStb (h : OpHead) (rt : BitVec 6) (g : BitVec 4) (form : BitVec 2) (opnd : BitVec 9) (s : State) :
    Host.Outcome State Fault Refusal :=
  storeOp h 0x1E 1 rt g form opnd (fun c => (c.sr rt.toNat).toNat) s

/-- STH: the low halfword of rt. -/
def execSth (h : OpHead) (rt : BitVec 6) (g : BitVec 4) (form : BitVec 2) (opnd : BitVec 9) (s : State) :
    Host.Outcome State Fault Refusal :=
  storeOp h 0x1F 2 rt g form opnd (fun c => (c.sr rt.toNat).toNat) s

/-- STW: rt. -/
def execStw (h : OpHead) (rt : BitVec 6) (g : BitVec 4) (form : BitVec 2) (opnd : BitVec 9) (s : State) :
    Host.Outcome State Fault Refusal :=
  storeOp h 0x20 4 rt g form opnd (fun c => (c.sr rt.toNat).toNat) s

/-- STD: the d register in rt. -/
def execStd (h : OpHead) (rt : BitVec 6) (g : BitVec 4) (form : BitVec 2) (opnd : BitVec 9) (s : State) :
    Host.Outcome State Fault Refusal :=
  storeOp h 0x21 8 rt g form opnd (fun c => (c.dr rt.toNat).toNat) s

/-! ### MACD (R410) -/

/-- Element size in bytes, and the product, by element type: 0 s16 × s16, 1 s32 × s32, 2 u16 × u16, 3 s16 × u16. -/
def macdSize (ty : Nat) : Nat := if ty = 1 then 4 else 2
def macdProd (ty x y : Nat) : Int :=
  match ty with
  | 0 => sgn 16 x * sgn 16 y
  | 1 => sgn 32 x * sgn 32 y
  | 2 => (x * y : Nat)
  | _ => sgn 16 x * (y : Int)

/-- MACD's words (R410). -/
def wordMacd1 (h : OpHead) (a : BitVec 2) (gx gy : BitVec 4) (sa : BitVec 6) : Nat :=
  opWord h true 0x17 (a.toNat * 2 ^ 19 + gx.toNat * 2 ^ 15 + gy.toNat * 2 ^ 11 + sa.toNat * 2 ^ 5)
def wordMacd2 (h : OpHead) (sb : BitVec 6) (ty : BitVec 2) (sub : Bool) (mode : BitVec 2) : Nat :=
  h.last.toNat * 2 ^ 31 + sb.toNat * 2 ^ 25 + ty.toNat * 2 ^ 23 + sub.toNat * 2 ^ 22 + mode.toNat * 2 ^ 20

/-- MACD aD, gX[sA±], gY[sB±]: a product of two memory elements is added or subtracted, latency 4, chained under R375; the
index registers step by the element size. `ecc` and `ecc'` say what the two reads met. -/
def execMacd (h : OpHead) (a : BitVec 2) (gx gy : BitVec 4) (sa sb : BitVec 6) (ty : BitVec 2) (sub : Bool) (mode : BitVec 2)
    (ecc ecc' : Fin 3) (s : State) : Host.Outcome State Fault Refusal :=
  let k := h.core.val
  .next (afterLoad k s (drayOp h .macd (wordMacd1 h a gx gy sa) (fun _ _ => none)
    (fun ex slot c s =>
      if !ex then .effects []
      else
        let e := macdSize ty.toNat
        let xo := c.sr sa.toNat
        let yo := c.sr sb.toNat
        match localCheck c gx.toNat xo.toNat e e false, localCheck c gy.toNat yo.toNat e e false with
        | .error v, _ => .fault v xo.toNat
        | .ok _, .error v => .fault v yo.toNat
        | .ok ax, .ok ay =>
          if ecc = 2 then .fault 17 (ax / 8 * 8)
          else if ecc' = 2 then .fault 17 (ay / 8 * 8)
          else
            let p := macdProd ty.toNat (leVal (lmLoad s k c ax e)) (leVal (lmLoad s k c ay e))
            let d := BitVec.ofNat 32 e
            .effects ([.touch ax e false true, .touch ay e false true] ++ accEffs c slot a.toNat (if sub then -p else p)
              ++ (match mode.toNat with
                | 0 => []
                | 1 => [effS 1 sa.toNat (xo + d), effS 1 sb.toNat (yo + d)]
                | 2 => [effS 1 sa.toNat (xo - d), effS 1 sb.toNat (yo - d)]
                | _ => [effS 1 sa.toNat (xo + d), effS 1 sb.toNat (yo - d)])
              ++ (if ecc = 1 then [.corrected (ax / 8 * 8)] else []) ++ (if ecc' = 1 then [.corrected (ay / 8 * 8)] else []))) s))

end Sys2Proof.Machine
end

