-- ==== Sys2Proof/Machine/DraySeg.lean ====
section
/-!
DEFINITION. The other L-class ops of a Dray core (spec/16): segments (R401 to R404), far accesses and their tags (R411 to R414),
block repeats (R415, R416), LOCK and UNLOCK (R418, R419).
-/

namespace Sys2Proof.Machine

/-- A requester by core number. -/
def drayReq (h : OpHead) : Requester := .dray h.core

/-- The state with one more draw used, where the op could issue. -/
def drewOne (h : OpHead) (s s' : State) : State := if canIssue s h.core.val then { s' with draws := s'.draws + 1 } else s'

/-! ### Segments -/

/-- SEGLD gD, i (R401): the walk and its checks in their order, then the descriptor with latency 1. `ecc`: the read of the table
meets an uncorrectable error. A CONFINED descriptor confines its range; a fifth raises SEG_CONF_FULL (R404). -/
def execSegld (h : OpHead) (gd : BitVec 4) (i : Nat) (ecc : Bool) (s : State) : Host.Outcome State Fault Refusal :=
  let k := h.core.val
  .next (drewOne h s (drayOp h .l (opWord h false 0x22 (gd.toNat * 2 ^ 17)) (fun _ _ => none)
    (fun ex _ c s =>
      if !ex then .effects []
      else
        let a := (c.cr 2).toNat + 16 * i
        let own := decide (lmBase k ≤ a) && decide (a + 16 ≤ lmBase k + 0x80000)
        let pad := decide (a + 16 ≤ 0x4000000)
        if fldGet 16 0 (c.cr 3) ≤ i then .fault 10 i
        else if !own && !pad then .fault 11 i
        else if pad && !padMayRead s (drayReq h) (padBank a) then .fault 12 i
        else if ecc || (pad && (wordsOf a 16).any (fun w => s.eccBad.contains w)) then .fault 13 i
        else
          let raw := leVal (if own then lmLoad s k c (a - lmBase k) 16 else s.bytes a 16)
          let d := segNorm raw
          if !c.sup && (segBit d 3 || segType d = 3) then .fault 7 (Config.freeValue s.draws)
          else
            let full := decide (segType d = 3) && decide (4 ≤ c.confined.length) && !c.confined.contains (segBase d, segLimit d)
            if full then .fault 14 (segBase d)
            else .effects ([effG 1 gd.toNat d] ++ (if pad then [.padRead a 16] else [])
              ++ (if segType d = 3 then [.confine (segBase d) (segLimit d)] else [])))
    s))

/-- SEGSUB gD, gS, off, len, mask (R403): a narrower segment; off and len count units of 8 bytes; mask bits 2, 1, 0 are R, W, X. -/
def execSegsub (h : OpHead) (gd gs : BitVec 4) (mask : BitVec 3) (off len : BitVec 19) (s : State) : Host.Outcome State Fault Refusal :=
  .next (drayOp h .l2
    (opWord h true 0x23 (gd.toNat * 2 ^ 17 + gs.toNat * 2 ^ 13 + mask.toNat * 2 ^ 10 + off.toNat / 512)) (fun _ _ => none)
    (fun ex _ c _ =>
      if !ex then .effects []
      else
        let d := c.sg gs.toNat
        let o := 8 * off.toNat
        let n := 8 * len.toNat
        if segType d = 0 then .fault 5 o
        else if segLimit d < o + n then .fault 8 o
        else
          let fl := (segBit d 0 && mask.getLsbD 2).toNat + 2 * (segBit d 1 && mask.getLsbD 1).toNat + 4 * (segBit d 2 && mask.getLsbD 0).toNat
          .effects [effG 1 gd.toNat ((segBase d + o) % 2 ^ 48 + fl * 2 ^ 48 + d / 2 ^ 51 % 2 ^ 13 * 2 ^ 51 + n * 2 ^ 64)]) s)

/-- SEGMV gD, gS (R403). -/
def execSegmv (h : OpHead) (gd gs : BitVec 4) (s : State) : Host.Outcome State Fault Refusal :=
  plainOp h .l (opWord h false 0x24 (gd.toNat * 2 ^ 17 + gs.toNat * 2 ^ 11)) false (fun _ c => [effG 1 gd.toNat (c.sg gs.toNat)]) s

/-- SEGRD rd, gS, fn (R403): 1 BASE[31:0], 2 BASE[47:32], 3 LIMIT, 4 bytes 6–7; every other fn is reserved (0 is SEGMV's). -/
def execSegrd (h : OpHead) (rd : BitVec 6) (gs : BitVec 4) (fn : BitVec 3) (s : State) : Host.Outcome State Fault Refusal :=
  plainOp h .l (opWord h false 0x24 (rd.toNat * 2 ^ 15 + gs.toNat * 2 ^ 11 + fn.toNat)) (decide (fn = 0) || decide (4 < fn.toNat))
    (fun _ c =>
      let d := c.sg gs.toNat
      let v := match fn.toNat with
        | 1 => d % 2 ^ 32
        | 2 => d / 2 ^ 32 % 2 ^ 16
        | 3 => segLimit d
        | _ => d / 2 ^ 48 % 2 ^ 16
      [effS 1 rd.toNat (BitVec.ofNat 32 v)]) s

/-- ZCONF gX (R404): Supervisor only; zeros over the range of the CONFINED segment, eight bytes per wall cycle, then its release. -/
def execZconf (h : OpHead) (gx : BitVec 4) (s : State) : Host.Outcome State Fault Refusal :=
  .next (drewOne h s (drayOp h .l (opWord h false 0x2B (gx.toNat * 2 ^ 17)) (fun _ _ => none)
    (fun ex _ c s =>
      let d := c.sg gx.toNat
      if !ex then .effects []
      else if !c.sup then .fault 4 (Config.freeValue s.draws)
      else if segType d = 0 then .fault 5 (Config.freeValue s.draws)
      else if segType d ≠ 3 then .fault 6 (Config.freeValue s.draws)
      else .effects [.release (segBase d) (segLimit d), .freeze ((segLimit d + 7) / 8)])
    s))

/-! ### Far accesses (R411 to R414) -/

/-- Is a far range of a Tack room deposit buffer? (R217, R404) -/
def isDeposit (s : State) (a n : Nat) : Bool :=
  decide (a / 2 ^ 38 = s.devId) && decide (0x24010000 ≤ a % 2 ^ 38) && decide (a % 2 ^ 38 + n ≤ 0x24010000 + 16 * 0x80)

/-- FARLD and FARST: checks at issue (R402, R404, R412), the wait for the tag, and the start. -/
def farOp (h : OpHead) (op : Nat) (store : Bool) (gf gl : BitVec 4) (tag : BitVec 3) (dO : BitVec 5) (size : BitVec 4) (inc : Bool)
    (s : State) : Host.Outcome State Fault Refusal :=
  let w := opWord h false op
    (gf.toNat * 2 ^ 17 + gl.toNat * 2 ^ 13 + tag.toNat * 2 ^ 10 + dO.toNat * 2 ^ 5 + size.toNat * 2 + inc.toNat)
  .next (drayOp h .l w (fun _ _ => if 12 < size.toNat then some (0, w) else none)
    (fun ex _ c s =>
      if !ex then .effects []
      else
        let n := 2 ^ size.toNat
        let fo := c.sr (2 * dO.toNat)
        let lo := c.sr (2 * dO.toNat + 1)
        match segCheck c gf.toNat [2] fo.toNat n (min n 8) store with
        | .error v => .fault v fo.toNat
        | .ok a =>
          let a := a % 2 ^ 48
          match segCheck c gl.toNat [1, 3] lo.toNat n (min n 8) (!store) with
          | .error v => .fault v fo.toNat
          | .ok l =>
            let dev := segBit (c.sg gf.toNat) 5
            if confinedHit c l n && store && !isDeposit s a n then .fault 6 fo.toNat
            else if confinedHit c l n && !store && segType (c.sg gl.toNat) ≠ 3 then .fault 7 fo.toNat
            else if dev && decide (n ≠ 4) && decide (n ≠ 8) then .fault 9 fo.toNat
            else if 4096 < a % 4096 + n then .fault 9 fo.toNat
            else
              let step := BitVec.ofNat 32 n
              .effects ([.need (2 ^ tag.toNat), .far tag.toNat store a l n (segBit (c.sg gf.toNat) 4 || dev) dev, .touch l n (!store) false]
                ++ (if inc then [effS 1 (2 * dO.toNat) (fo + step), effS 1 (2 * dO.toNat + 1) (lo + step)] else []))) s)

/-- FARLD (R411, R412): a block copy from a far segment into local memory starts under a tag. -/
def execFarld (h : OpHead) (gf gl : BitVec 4) (tag : BitVec 3) (dO : BitVec 5) (size : BitVec 4) (inc : Bool) (s : State) :
    Host.Outcome State Fault Refusal :=
  farOp h 0x25 false gf gl tag dO size inc s

/-- FARST (R411, R412): a block copy from local memory to a far segment starts under a tag. -/
def execFarst (h : OpHead) (gf gl : BitVec 4) (tag : BitVec 3) (dO : BitVec 5) (size : BitVec 4) (inc : Bool) (s : State) :
    Host.Outcome State Fault Refusal :=
  farOp h 0x26 true gf gl tag dO size inc s

/-- FWAIT (R413): the bundle issues once every tag of the mask is complete. -/
def execFwait (h : OpHead) (mask : BitVec 8) (s : State) : Host.Outcome State Fault Refusal :=
  plainOp h .l (opWord h false 0x27 mask.toNat) false (fun _ _ => [.need mask.toNat, .settle mask.toNat]) s

/-- TAGP (R413): pd := 1 if the tag is complete. -/
def execTagp (h : OpHead) (pd tag : BitVec 3) (s : State) : Host.Outcome State Fault Refusal :=
  plainOp h .l (opWord h false 0x27 (2 ^ 19 + pd.toNat * 2 ^ 16 + tag.toNat * 2 ^ 10)) false
    (fun _ c =>
      let done := !(tblGet FarTag.reset tag.toNat c.tags).busy
      effP 1 pd.toNat done ++ (if done then [.settle (2 ^ tag.toNat)] else [])) s

/-- FSTAT (R413): the completion status in [7:0], and 1 in [31] when complete. -/
def execFstat (h : OpHead) (rd : BitVec 6) (tag : BitVec 3) (s : State) : Host.Outcome State Fault Refusal :=
  plainOp h .l (opWord h false 0x27 (2 ^ 20 + rd.toNat * 2 ^ 13 + tag.toNat * 2 ^ 10)) false
    (fun _ c =>
      let t := tblGet FarTag.reset tag.toNat c.tags
      [effS 1 rd.toNat (BitVec.ofNat 32 (t.status + (if t.busy then 0 else 2 ^ 31)))]) s

/-! ### Block repeats (R415, R416) -/

/-- What a step of a block op does: the new offsets and count, pd, its bytes, its accesses, whether the op stops. -/
structure BlkStep where
  lo : Word
  hi : Word
  cnt : Word
  pd : Option Bool
  cells : List (Nat × Byte)
  touches : List Eff
  stop : Bool
deriving DecidableEq, Repr

/-- The effects of a store of `n` bytes of a value. -/
def valueCells (a n v : Nat) : List (Nat × Byte) := (leBytes n v).zipIdx.map (fun b => (a + b.2, b.1))

/-- One step (R415): kinds 0 BCOPY, 1 BFILL, 2 BCMP, 3 BFIND; `bad`: its read meets an uncorrectable error. -/
def blkStep (k kind e rc rk : Nat) (bad : Bool) (c : Core) (s : State) : Except (Nat × Nat) BlkStep :=
  let lo := c.sr (2 * rc)
  let hi := c.sr (2 * rc + 1)
  let cnt := c.sr rk
  let d := BitVec.ofNat 32 e
  if cnt = 0 then .ok { lo := lo, hi := hi, cnt := cnt, pd := if 2 ≤ kind then some false else none, cells := [], touches := [], stop := true }
  else
    let src := if kind = 0 ∨ kind = 2 then localCheck c 10 lo.toNat e e false else .ok 0
    let dst := localCheck c 11 hi.toNat e e (decide (kind < 2))
    match src, dst with
    | .error v, _ => .error (v, lo.toNat)
    | .ok _, .error v => .error (v, hi.toNat)
    | .ok a, .ok b =>
      let x := if kind = 0 ∨ kind = 2 then leVal (lmLoad s k c a e) else lo.toNat % 256 ^ e
      let y := leVal (lmLoad s k c b e)
      let ta : List Eff := if kind = 0 ∨ kind = 2 then [.touch a e false true] else []
      let touches := ta ++ [.touch b e (decide (kind < 2)) true]
      if bad && kind ≠ 1 then .error (17, (if kind = 3 then b else a) / 8 * 8)
      else if kind = 0 then .ok { lo := lo + d, hi := hi + d, cnt := cnt - 1, pd := none, cells := valueCells b e x, touches := touches, stop := false }
      else if kind = 1 then .ok { lo := lo, hi := hi + d, cnt := cnt - 1, pd := none, cells := valueCells b e x, touches := touches, stop := false }
      else if kind = 2 then
        if x ≠ y then .ok { lo := lo, hi := hi, cnt := cnt, pd := some true, cells := [], touches := touches, stop := true }
        else .ok { lo := lo + d, hi := hi + d, cnt := cnt - 1, pd := none, cells := [], touches := touches, stop := false }
      else if x = y then .ok { lo := lo, hi := hi, cnt := cnt, pd := some true, cells := [], touches := touches, stop := true }
      else .ok { lo := lo, hi := hi + d, cnt := cnt - 1, pd := none, cells := [], touches := touches, stop := false }

/-- How a run of steps ended: its accesses, its wall cycles, a fault, or a pause between two steps. -/
structure BlkEnd where
  touches : List Eff
  cycles : Nat
  fault : Option (Nat × Nat)
  paused : Bool
deriving DecidableEq, Repr

/-- The steps of a block op with ALL = 1 (R416): each has its effect at once. `bad`: the step whose read is uncorrectable; `cut`:
the number of steps after which the op is left for an interrupt or a forced halt. -/
def blkRun (k kind e rc rk pd : Nat) (bad cut : Option Nat) : Nat → Nat → BlkEnd → State → BlkEnd × State
  | 0, _, r, s => (r, s)
  | fuel + 1, i, r, s =>
    if cut = some i then ({ r with paused := true }, s)
    else
      match blkStep k kind e rc rk (decide (bad = some i)) (s.core k) s with
      | .error f => ({ r with fault := some f }, s)
      | .ok x =>
        let banks := x.touches.filterMap (fun t => match t with
          | .touch a _ _ _ => some (a / 0x20000)
          | _ => none)
        let cost := if x.stop && x.touches.isEmpty then 0 else if banks.eraseDups.length < banks.length then 2 else 1
        let s := storeCells k x.cells (x.cells.foldl (fun s e => markDirty k e.1 1 s) s)
        let s := s.modCore k (fun c =>
          let c := regLand rk x.cnt.toNat 0 (regLand (2 * rc + 1) x.hi.toNat 0 (regLand (2 * rc) x.lo.toNat 0 c))
          match x.pd with
          | some v => regLand (0x48 + pd) v.toNat 0 c
          | none => c)
        let r : BlkEnd := { r with touches := r.touches ++ x.touches, cycles := r.cycles + cost }
        if x.stop then (r, s) else blkRun k kind e rc rk pd bad cut fuel (i + 1) r s

/-- BLK (R415, R416): one step as an L-class op, or with ALL = 1 every step, alone in its bundle and outside delay slots.
`bad` names the step whose read meets an uncorrectable error; `cut` the number of steps after which, between two steps, an
interrupt or a forced halt is to be taken: the op is left at its bundle with the registers showing the progress. -/
def blkOp (h : OpHead) (all : Bool) (kind : Nat) (size : BitVec 2) (pd : BitVec 3) (dC : BitVec 5) (sK : BitVec 6)
    (bad cut : Option Nat) (s : State) : Host.Outcome State Fault Refusal :=
  let k := h.core.val
  let e := 2 ^ size.toNat
  let w := opWord h false 0x28
    (all.toNat * 2 ^ 20 + kind * 2 ^ 18 + size.toNat * 2 ^ 16 + pd.toNat * 2 ^ 13 + dC.toNat * 2 ^ 8 + sK.toNat * 4)
  let illegal := (kind % 2 = 1 && e = 8) || decide (sK.toNat / 2 = dC.toNat)
  let structural := fun (_ : State) (c : Core) =>
    if illegal then some (0, w)
    else if all && (!c.bundle.isEmpty || !h.last || decide (0 < c.left)) then some (1, c.pc)
    else none
  let c0 := s.core k
  let held := lineFill k c0 s
  if all && canIssue s k && (structural s c0).isNone && opExecutes h c0 && held.isOk then
    let s := drain k (match held with
      | .ok s => s
      | .error _ => s)
    let cut := if (s.core k).interruptible || ((s.core k).halt.map (fun x => x.forced)).getD false then cut else none
    let x := blkRun k kind e dC.toNat sK.toNat pd.toNat bad cut ((s.core k).sr sK.toNat).toNat.succ 0
      { touches := [], cycles := 0, fault := none, paused := false } s
    let s := x.2
    match x.1.fault with
    | some (v, i) =>
      let s := if v = 17 then s.report (0x20 + k) 0x0902 noPath i else s
      .next (drayEntry k v 4 0 i s)
    | none =>
      if x.1.paused then .next s
      else
        let op : DrayOp := { slot := 4, word := w, structural := none, execution := none, effs := x.1.touches.map (fun t => match t with
          | .touch a n wr _ => .touch a n wr false
          | y => y) ++ [.freeze x.1.cycles] }
        .next (commit k (s.modCore k (fun c => { c with bundle := [op], words := 1 })))
  else
    .next (afterLoad k s (drayOp h .l w structural
      (fun ex _ c s =>
        if !ex then .effects []
        else match blkStep k kind e dC.toNat sK.toNat (decide (bad = some 0)) c s with
          | .error (v, i) => .fault v i
          | .ok x =>
            .effects (x.touches ++ [effS 1 (2 * dC.toNat) x.lo, effS 1 (2 * dC.toNat + 1) x.hi, effS 1 sK.toNat x.cnt]
              ++ (if x.cells.isEmpty then [] else [.store x.cells])
              ++ (match x.pd with
                | some v => effP 1 pd.toNat v
                | none => []))) s))

/-- BCOPY (R415): elements are copied. -/
def execBcopy (h : OpHead) (all : Bool) (size : BitVec 2) (pd : BitVec 3) (dC : BitVec 5) (sK : BitVec 6) (bad cut : Option Nat)
    (s : State) : Host.Outcome State Fault Refusal :=
  blkOp h all 0 size pd dC sK bad cut s

/-- BFILL (R415): elements are filled. -/
def execBfill (h : OpHead) (all : Bool) (size : BitVec 2) (pd : BitVec 3) (dC : BitVec 5) (sK : BitVec 6) (bad cut : Option Nat)
    (s : State) : Host.Outcome State Fault Refusal :=
  blkOp h all 1 size pd dC sK bad cut s

/-- BCMP (R415): elements are compared until one differs. -/
def execBcmp (h : OpHead) (all : Bool) (size : BitVec 2) (pd : BitVec 3) (dC : BitVec 5) (sK : BitVec 6) (bad cut : Option Nat)
    (s : State) : Host.Outcome State Fault Refusal :=
  blkOp h all 2 size pd dC sK bad cut s

/-- BFIND (R415): elements are searched for a value. -/
def execBfind (h : OpHead) (all : Bool) (size : BitVec 2) (pd : BitVec 3) (dC : BitVec 5) (sK : BitVec 6) (bad cut : Option Nat)
    (s : State) : Host.Outcome State Fault Refusal :=
  blkOp h all 3 size pd dC sK bad cut s

/-! ### LOCK and UNLOCK (R418, R419) -/

/-- LOCK dT, gF[sK] (R418): reads a Paddock word, takes a reservation on its line and begins a region of at most 32 bundles. Where
Paddock refuses the read (`busy`, or its owner rule) the manual gives no word: dT is free. -/
def execLock (h : OpHead) (dT : BitVec 5) (gf : BitVec 4) (sK : BitVec 6) (busy : Bool) (s : State) : Host.Outcome State Fault Refusal :=
  let w := opWord h false 0x29 (dT.toNat * 2 ^ 16 + gf.toNat * 2 ^ 12 + sK.toNat * 2 ^ 6)
  .next (drewOne h s (drayOp h .l w (fun _ c => if 0 < c.atomLeft then some (0, w) else none)
    (fun ex _ c s =>
      if !ex then .effects []
      else
        let off := (c.sr sK.toNat).toNat
        match segCheck c gf.toNat [2] off 8 8 false with
        | .error v => .fault v off
        | .ok a =>
          let a := a % 2 ^ 48
          if a / 2 ^ 38 ≠ s.devId ∨ 0x4000000 ≤ a % 2 ^ 38 ∨ a % 8 ≠ 0 then .fault 15 off
          else
            let o := a % 2 ^ 38
            let r := padRead (drayReq h) o 8 s
            let v := if busy || r.1 ≠ .ok then Config.freeValue s.draws else leVal r.2.1
            .effects (effD 1 dT.toNat (BitVec.ofNat 64 v) ++ [.lock o, .padRead o 8])) s))

/-- UNLOCK pd, dS (R419): the conditional store while the reservation is held, and its outcome; the LOCK region ends. `busy`:
Paddock refuses the store with BUSY. -/
def execUnlock (h : OpHead) (pd : BitVec 3) (dS : BitVec 5) (busy : Bool) (s : State) : Host.Outcome State Fault Refusal :=
  .next (drayOp h .l (opWord h false 0x2A (pd.toNat * 2 ^ 18 + dS.toNat * 2 ^ 13)) (fun _ _ => none)
    (fun ex _ c s =>
      if !ex then .effects []
      else
        match c.lock with
        | some (o, true) =>
          let may := padMayWrite s (drayReq h) (padBank o)
          let ok := c.locked && may && !busy
          .effects (effP 1 pd.toNat ok ++ [.unlock (if ok then some (o, (c.dr dS.toNat).toNat) else none)]
            ++ (if c.locked && !may then [.refused] else []))
        | _ => .effects (effP 1 pd.toNat false ++ [.unlock none])) s)

end Sys2Proof.Machine
end

