-- ==== Sys2Proof/Machine/DrayCtl.lean ====
section
/-!
DEFINITION. The B-class ops of a Dray core (spec/16 R409, R417; spec/18 R436, R439, R443, R447): branches, loops, ATOM, WAIT,
SYSCALL, RETE, BRK, MFC and MTC.
-/

namespace Sys2Proof.Machine

/-- Offset of the op that comes next in the bundle. -/
def Core.opAt (c : Core) : Nat := c.pc + 4 * c.words

/-- The bundle is the last of an active loop's body (R388). -/
def loopEnd (c : Core) : Bool := [0x10, 0x13].any (fun n => decide ((c.cr n).toNat ≠ 0) && decide ((c.cr (n + 2)).toNat = c.pc))

/-- The structural faults of a branch or loop op: in a delay slot, or in the last bundle of a body (R384, R388). -/
def branchFault (w : Nat) (c : Core) : Option (Nat × Nat) :=
  if 0 < c.left then some (2, w) else if loopEnd c then some (3, w) else none

/-- A guard that always holds (R385: an unconditional branch). -/
def guardless (h : OpHead) : Bool := h.gp = 0 && !h.neg

/-- A branch target in 4-byte units from the op (R409). -/
def branchTarget (c : Core) (off : Int) : Nat := wrapTo 32 ((c.opAt : Int) + 4 * off)

/-- A branch op: always placed; a guard that does not hold leaves it not taken (R384). -/
def branchOp (h : OpHead) (op : Nat) (kind : Nat) (annul : Bool) (fields : Nat) (target : Core → Nat) (link : Option Nat) (s : State) :
    Host.Outcome State Fault Refusal :=
  let w := opWord h false op (annul.toNat * 2 ^ 20 + fields)
  .next (drayOp h .b w (fun _ c => branchFault w c)
    (fun ex _ c _ => .effects ([.branch kind c.opAt (target c) ex annul] ++ (match link with
      | some rd => if ex then [.link rd] else []
      | none => []))) s)

/-- BR (R384, R409): taken when the guard holds; A annuls the delay slots of a branch that is not taken. -/
def execBr (h : OpHead) (annul : Bool) (off : BitVec 20) (s : State) : Host.Outcome State Fault Refusal :=
  branchOp h 0x30 (if guardless h then 1 else 0) annul off.toNat (fun c => branchTarget c off.toInt) none s

/-- BRL (R409): as BR; rd := link. -/
def execBrl (h : OpHead) (annul : Bool) (rd : BitVec 6) (off : BitVec 14) (s : State) : Host.Outcome State Fault Refusal :=
  branchOp h 0x31 (if guardless h then 1 else 0) annul (rd.toNat * 2 ^ 14 + off.toNat) (fun c => branchTarget c off.toInt) (some rd.toNat) s

/-- BRR (R409): to rs with bits [1:0] ignored; rl := link when LINK = 1. -/
def execBrr (h : OpHead) (annul link : Bool) (rs rl : BitVec 6) (s : State) : Host.Outcome State Fault Refusal :=
  branchOp h 0x32 2 annul (link.toNat * 2 ^ 19 + rs.toNat * 2 ^ 9 + rl.toNat * 8) (fun c => (c.sr rs.toNat).toNat / 4 * 4)
    (if link then some rl.toNat else none) s

/-- A loop op (R388): the count is imm9, or sK in [8:3] with form 1, whose [2:0] must be 0. -/
def loopOp (h : OpHead) (level : Nat) (reg : Bool) (dEnd : Nat) (cnt : BitVec 9) (s : State) :
    Host.Outcome State Fault Refusal :=
  let w := opWord h false 0x33 (level * 2 ^ 20 + reg.toNat * 2 ^ 19 + dEnd * 2 ^ 9 + cnt.toNat)
  .next (drayOp h .b w
    (fun _ c => if reg && decide (cnt.toNat % 8 ≠ 0) then some (0, w) else branchFault w c)
    (fun ex _ c _ =>
      if !ex then .effects []
      else .effects [.loop level (if reg then (c.sr (cnt.toNat / 8)).toNat else cnt.toNat) dEnd]) s)

/-- LOOP0 (R388): loop level 0; `dist` is the distance to the body's last bundle in 4-byte units. -/
def execLoop0 (h : OpHead) (reg : Bool) (dist : BitVec 10) (cnt : BitVec 9) (s : State) : Host.Outcome State Fault Refusal :=
  loopOp h 0 reg dist.toNat cnt s

/-- LOOP1 (R388): loop level 1. -/
def execLoop1 (h : OpHead) (reg : Bool) (dist : BitVec 10) (cnt : BitVec 9) (s : State) : Host.Outcome State Fault Refusal :=
  loopOp h 1 reg dist.toNat cnt s

/-- ATOM n (R417): `n1` is n − 1; inside an ATOM region it raises ILLEGAL_OP. -/
def execAtom (h : OpHead) (n1 : BitVec 5) (s : State) : Host.Outcome State Fault Refusal :=
  let w := opWord h false 0x34 n1.toNat
  .next (drayOp h .b w (fun _ c => if 0 < c.atomLeft then some (0, w) else none)
    (fun ex _ _ _ => .effects (if ex then [.atom (n1.toNat + 1)] else [])) s)

/-- WAIT (R409, R443): drains and issues nothing until the core's Bell target presents a request. -/
def execWait (h : OpHead) (s : State) : Host.Outcome State Fault Refusal :=
  let w := opWord h false 0x35 0
  .next (drayOp h .b w (fun _ c => if 0 < c.atomLeft then some (0, w) else none)
    (fun ex _ _ _ => .effects (if ex then [.wait] else [])) s)

/-- SYSCALL (R436): its bundle commits, then the handler is entered with the code in ECAUSE. -/
def execSyscall (h : OpHead) (code : BitVec 16) (s : State) : Host.Outcome State Fault Refusal :=
  let w := opWord h false 0x35 (code.toNat * 8 + 1)
  .next (drayOp h .b w (fun _ c => if 0 < c.left then some (2, w) else none)
    (fun ex _ _ _ => .effects (if ex then [.syscall code.toNat] else [])) s)

/-- RETE (R439): returns from a handler. -/
def execRete (h : OpHead) (s : State) : Host.Outcome State Fault Refusal :=
  let w := opWord h false 0x35 2
  .next (drayOp h .b w (fun _ c => if 0 < c.left then some (2, w) else none)
    (fun ex _ _ _ => .effects (if ex then [.rete] else [])) s)

/-- BRK (R436, R447): traps, or halts with BRK_HALT = 1, before its bundle. -/
def execBrk (h : OpHead) (s : State) : Host.Outcome State Fault Refusal :=
  .next (drayOp h .b (opWord h false 0x35 3) (fun _ _ => none) (fun ex _ _ _ => if ex then .fault 19 0 else .effects []) s)

/-- The tag of a pair of control registers in the core's latch (R391, R43): no CSR offset is like it. -/
def cregPair (n : Nat) : Nat := 0x20000000000 + n

/-- A control register as MFC reads it (R391): the value, and the latch it takes. -/
def cregRead (k n : Nat) (c : Core) (s : State) : Word × List Eff :=
  let hi := fun (p live : Nat) => match tblGet none k s.hiLatch with
    | some (o, v) => if o = cregPair p then v else BitVec.ofNat 32 (live / 2 ^ 32)
    | none => BitVec.ofNat 32 (live / 2 ^ 32)
  match n with
  | 0x00 => (c.psw, [])
  | 0x18 => (BitVec.ofNat 32 c.icycle, [.latch (cregPair 0x18) (BitVec.ofNat 32 (c.icycle / 2 ^ 32))])
  | 0x19 => (hi 0x18 c.icycle, [])
  | 0x1A => (BitVec.ofNat 32 c.wcycle, [.latch (cregPair 0x1A) (BitVec.ofNat 32 (c.wcycle / 2 ^ 32))])
  | 0x1B => (hi 0x1A c.wcycle, [])
  | 0x1C => (BitVec.ofNat 32 k, [])
  | _ => (c.cr n, [])

/-- Control registers that exist (R391 and spec/18). -/
def cregListed (n : Nat) : Bool :=
  n ≤ 8 || (0x10 ≤ n && n ≤ 0x15) || (0x18 ≤ n && n ≤ 0x1C) || (0x20 ≤ n && n ≤ 0x28) || (0x2A ≤ n && n ≤ 0x2F)

/-- Control registers that Task may write (R391). -/
def cregTask (n : Nat) : Bool := n = 4 || n = 5 || n = 7 || n = 8 || (0x10 ≤ n && n ≤ 0x15) || (0x18 ≤ n && n ≤ 0x1C)

/-- Control registers whose write takes effect at c + 4, and must not lie in a delay slot (R392). -/
def cregLate (n : Nat) : Bool := n = 1 || n = 6 || n = 7 || (0x10 ≤ n && n ≤ 0x15)

/-- Control registers without a write (R391). -/
def cregFixed (n : Nat) : Bool := 0x18 ≤ n && n ≤ 0x1C

/-- MFC (R409): rd := control register, latency 1; a number not listed reads as 0. -/
def execMfc (h : OpHead) (rd : BitVec 6) (creg : BitVec 8) (s : State) : Host.Outcome State Fault Refusal :=
  .next (drayOp h .b (opWord h false 0x36 (rd.toNat * 2 ^ 15 + creg.toNat)) (fun _ _ => none)
    (fun ex _ c s =>
      if !ex then .effects []
      else
        let r := cregRead h.core.val creg.toNat c s
        .effects (effS 1 rd.toNat (if cregListed creg.toNat then r.1 else 0) :: r.2)) s)

/-- MTC (R391, R392, R442): a number not listed raises ILLEGAL_OP; a Task write to a Supervisor register, and any write to a
breakpoint or watchpoint register, PRIV_VIOL. IFINISH finishes its source at once. -/
def execMtc (h : OpHead) (rs : BitVec 6) (creg : BitVec 8) (s : State) : Host.Outcome State Fault Refusal :=
  let n := creg.toNat
  let w := opWord h false 0x37 (rs.toNat * 2 ^ 9 + n)
  .next (drayOp h .b w
    (fun _ c => if !cregListed n then some (0, w) else if cregLate n && decide (0 < c.left) then some (2, w) else none)
    (fun ex _ c _ =>
      if !ex then .effects []
      else if 0x2A ≤ n ∨ (!c.sup ∧ !cregTask n) then .fault 4 n
      else
        let v := (c.sr rs.toNat).toNat
        if n = 0x28 then .effects [.finish (v % 1024)]
        else if cregFixed n then .effects []
        else .effects [.land (if cregLate n then 4 else 1) (0x100 + n) v (2 ^ 32 - 1)]) s)

end Sys2Proof.Machine
end

