-- ==== Sys2Proof/Machine/DrayVop.lean ====
section
/-!
DEFINITION. The vector and mask ops of a Dray core (spec/17): encodings, configuration checks, streams and vector memory.
-/

namespace Sys2Proof.Machine

/-! ### Configuration (R420, R425) -/

/-- Elements that a group of the present span holds. -/
def Core.vcap (c : Core) : Nat := c.span * 1024 / c.ew

/-- A group of a span starts where it may (R420, R425). -/
def groupOk (base span : Nat) : Bool := decide (span ≤ 8) && decide (base % span = 0)

/-- VL against the capacity, and against 128 where a mask other than m0 is named or a mask is written (R425). -/
def vlOk (c : Core) (masked : Bool) : Bool := decide (c.vl ≤ c.vcap) && !(masked && decide (128 < c.vl))

/-- A vector op of the unit (R423 to R427): a word that is illegal raises ILLEGAL_OP, an occupied unit ILLEGAL_BUNDLE, a bad
configuration VEC_CFG when it executes; an op that does not execute occupies the unit as well. -/
def vecOp (h : OpHead) (w : Nat) (illegal : Bool) (steps : Core → Nat) (cfg : Core → Bool) (run : Core → State → Plan) (s : State) :
    Host.Outcome State Fault Refusal :=
  .next (afterLoad h.core.val s (drayOp h .v w
    (fun _ c => if illegal then some (0, w) else if c.cyc < c.vfree then some (1, c.pc) else none)
    (fun ex _ c s =>
      if !ex then .effects [.occupy (min 8 (steps c))]
      else if !cfg c then .fault 16 c.vl
      else match run c s with
        | .fault v i => .fault v i
        | .effects l => .effects (.occupy (steps c) :: l)) s))

/-- A stream of the op `op`. -/
def mkStream (c : Core) (op lat steps mask imm : Nat) (vd spanD vs1 span1 vs2 span2 : Nat) : VStream :=
  { start := c.cyc, op := op, lat := lat, steps := steps, ew := c.ew, vl := c.vl, mask := c.mr mask, vd := vd, spanD := spanD,
    vs1 := vs1, span1 := span1, vs2 := vs2, span2 := span2, imm := imm, addrs := [], src1 := [], src2 := [], old := [],
    done := [],
    chain := match c.vchain with
      | some x => if vChains op && decide (x.op = op) && decide (x.vd = vd) && decide (x.span = spanD) && decide (x.free = c.cyc)
          then some x.done else none
      | none => none }

/-- A word of format V3. -/
def wordV3 (h : OpHead) (op : Nat) (vd vs1 vs2 : BitVec 5) (mask : BitVec 3) : Nat :=
  opWord h false (op / 8) (vd.toNat * 2 ^ 16 + vs1.toNat * 2 ^ 11 + vs2.toNat * 2 ^ 6 + mask.toNat * 8 + op % 8)

/-- An op on groups of the present span (majors 0x38, 0x39, 0x3B fn 0–2, 0x3C): latency `lat`. -/
def vec3 (h : OpHead) (op lat : Nat) (vd vs1 vs2 : BitVec 5) (mask : BitVec 3) (s : State) : Host.Outcome State Fault Refusal :=
  vecOp h (wordV3 h op vd vs1 vs2 mask) false (fun c => c.span)
    (fun c => vlOk c (decide (mask ≠ 0)) && groupOk vd.toNat c.span && groupOk vs1.toNat c.span && groupOk vs2.toNat c.span)
    (fun c _ => .effects [.stream (mkStream c op lat c.span mask.toNat 0 vd.toNat c.span vs1.toNat c.span vs2.toNat c.span)]) s

/-- A widening multiply (R431): the destination has elements of 2 × EW and span 2s. -/
def vecWide (h : OpHead) (op : Nat) (vd vs1 vs2 : BitVec 5) (mask : BitVec 3) (s : State) : Host.Outcome State Fault Refusal :=
  vecOp h (wordV3 h op vd vs1 vs2 mask) false (fun c => 2 * c.span)
    (fun c => vlOk c (decide (mask ≠ 0)) && groupOk vd.toNat (2 * c.span) && groupOk vs1.toNat c.span && groupOk vs2.toNat c.span
      && decide (c.ew ≠ 64))
    (fun c _ => .effects [.stream (mkStream c op 5 (2 * c.span) mask.toNat 0 vd.toNat (2 * c.span) vs1.toNat c.span vs2.toNat c.span)]) s

/-- An op with an immediate (format VI, R433). -/
def vecImm (h : OpHead) (op : Nat) (vd vs1 : BitVec 5) (imm : BitVec 5) (mask : BitVec 3) (s : State) : Host.Outcome State Fault Refusal :=
  vecOp h (wordV3 h op vd vs1 imm mask) false (fun c => c.span)
    (fun c => vlOk c (decide (mask ≠ 0)) && groupOk vd.toNat c.span && groupOk vs1.toNat c.span)
    (fun c _ => .effects [.stream (mkStream c op 3 c.span mask.toNat imm.toNat vd.toNat c.span vs1.toNat c.span 0 0)]) s

/-- VMODRED (format VR, R432): `wide` for the narrowing forms, whose source has 32-bit elements and span 2s; EW must be 16. -/
def vecMod (h : OpHead) (op : Nat) (wide : Bool) (vd vs1 : BitVec 5) (sQ : BitVec 6) (s : State) : Host.Outcome State Fault Refusal :=
  let m := if wide then 2 else 1
  vecOp h (opWord h false (op / 8) (vd.toNat * 2 ^ 16 + vs1.toNat * 2 ^ 11 + sQ.toNat * 2 ^ 5 + op % 8)) false (fun c => m * c.span)
    (fun c => vlOk c false && groupOk vd.toNat c.span && groupOk vs1.toNat (m * c.span) && decide (c.ew = 16))
    (fun c _ => .effects [.stream (mkStream c op 5 (m * c.span) 0 ((c.sr sQ.toNat).toNat % 65536) vd.toNat c.span vs1.toNat (m * c.span) 0 0)]) s

/-- VADD (R424): vd := vs1 + vs2 modulo 2^EW. -/
def execVadd (h : OpHead) (vd vs1 vs2 : BitVec 5) (mask : BitVec 3) (s : State) :
    Host.Outcome State Fault Refusal :=
  vec3 h 0x1C0 3 vd vs1 vs2 mask s

/-- VSUB (R424): vd := vs1 - vs2 modulo 2^EW. -/
def execVsub (h : OpHead) (vd vs1 vs2 : BitVec 5) (mask : BitVec 3) (s : State) :
    Host.Outcome State Fault Refusal :=
  vec3 h 0x1C1 3 vd vs1 vs2 mask s

/-- VAND (R424). -/
def execVand (h : OpHead) (vd vs1 vs2 : BitVec 5) (mask : BitVec 3) (s : State) :
    Host.Outcome State Fault Refusal :=
  vec3 h 0x1C2 3 vd vs1 vs2 mask s

/-- VOR (R424). -/
def execVor (h : OpHead) (vd vs1 vs2 : BitVec 5) (mask : BitVec 3) (s : State) :
    Host.Outcome State Fault Refusal :=
  vec3 h 0x1C3 3 vd vs1 vs2 mask s

/-- VXOR (R424). -/
def execVxor (h : OpHead) (vd vs1 vs2 : BitVec 5) (mask : BitVec 3) (s : State) :
    Host.Outcome State Fault Refusal :=
  vec3 h 0x1C4 3 vd vs1 vs2 mask s

/-- VMIN (R424): signed minimum. -/
def execVmin (h : OpHead) (vd vs1 vs2 : BitVec 5) (mask : BitVec 3) (s : State) :
    Host.Outcome State Fault Refusal :=
  vec3 h 0x1C5 3 vd vs1 vs2 mask s

/-- VMAX (R424): signed maximum. -/
def execVmax (h : OpHead) (vd vs1 vs2 : BitVec 5) (mask : BitVec 3) (s : State) :
    Host.Outcome State Fault Refusal :=
  vec3 h 0x1C6 3 vd vs1 vs2 mask s

/-- VMINU (R424): unsigned minimum. -/
def execVminu (h : OpHead) (vd vs1 vs2 : BitVec 5) (mask : BitVec 3) (s : State) :
    Host.Outcome State Fault Refusal :=
  vec3 h 0x1C7 3 vd vs1 vs2 mask s

/-- VMAXU (R424): unsigned maximum. -/
def execVmaxu (h : OpHead) (vd vs1 vs2 : BitVec 5) (mask : BitVec 3) (s : State) :
    Host.Outcome State Fault Refusal :=
  vec3 h 0x1C8 3 vd vs1 vs2 mask s

/-- VSHL (R424). -/
def execVshl (h : OpHead) (vd vs1 vs2 : BitVec 5) (mask : BitVec 3) (s : State) :
    Host.Outcome State Fault Refusal :=
  vec3 h 0x1C9 3 vd vs1 vs2 mask s

/-- VSHR (R424). -/
def execVshr (h : OpHead) (vd vs1 vs2 : BitVec 5) (mask : BitVec 3) (s : State) :
    Host.Outcome State Fault Refusal :=
  vec3 h 0x1CA 3 vd vs1 vs2 mask s

/-- VSRA (R424). -/
def execVsra (h : OpHead) (vd vs1 vs2 : BitVec 5) (mask : BitVec 3) (s : State) :
    Host.Outcome State Fault Refusal :=
  vec3 h 0x1CB 3 vd vs1 vs2 mask s

/-- VMV (R424): vd := vs1; vs2 must be 0. -/
def execVmv (h : OpHead) (vd vs1 vs2 : BitVec 5) (mask : BitVec 3) (s : State) :
    Host.Outcome State Fault Refusal :=
  vecOp h (wordV3 h 0x1CC vd vs1 vs2 mask) (decide (vs2 ≠ 0)) (fun c => c.span)
    (fun c => vlOk c (decide (mask ≠ 0)) && groupOk vd.toNat c.span && groupOk vs1.toNat c.span)
    (fun c _ => .effects [.stream (mkStream c 0x1CC 3 c.span mask.toNat 0 vd.toNat c.span vs1.toNat c.span 0 0)]) s

/-- VSEL (R424): vs1 where the mask bit is 1, else vs2, for every i < VL. -/
def execVsel (h : OpHead) (vd vs1 vs2 : BitVec 5) (mask : BitVec 3) (s : State) :
    Host.Outcome State Fault Refusal :=
  vec3 h 0x1CD 3 vd vs1 vs2 mask s

/-- VCMP (R424): md bit i := c, md AND c, or md OR c by comb; comb 3 is reserved. -/
def execVcmp (h : OpHead) (md cond : BitVec 3) (vs1 vs2 : BitVec 5) (mask : BitVec 3) (comb : BitVec 2) (s : State) :
    Host.Outcome State Fault Refusal :=
  vecOp h (opWord h false 0x3A
      (md.toNat * 2 ^ 18 + cond.toNat * 2 ^ 15 + vs1.toNat * 2 ^ 10 + vs2.toNat * 2 ^ 5 + mask.toNat * 4 + comb.toNat))
    (decide (comb = 3)) (fun c => c.span)
    (fun c => vlOk c true && groupOk vs1.toNat c.span && groupOk vs2.toNat c.span)
    (fun c _ => .effects [.stream (mkStream c (0x1D0 + comb.toNat) 3 c.span mask.toNat (cond.toNat + 8 * c.mr md.toNat)
      md.toNat 0 vs1.toNat c.span vs2.toNat c.span)]) s

/-- VMUL (R424): the low EW bits of the product. -/
def execVmul (h : OpHead) (vd vs1 vs2 : BitVec 5) (mask : BitVec 3) (s : State) :
    Host.Outcome State Fault Refusal :=
  vec3 h 0x1D8 5 vd vs1 vs2 mask s

/-- VMULH (R424): the signed high EW bits. -/
def execVmulh (h : OpHead) (vd vs1 vs2 : BitVec 5) (mask : BitVec 3) (s : State) :
    Host.Outcome State Fault Refusal :=
  vec3 h 0x1D9 5 vd vs1 vs2 mask s

/-- VMULHU (R424): the unsigned high EW bits. -/
def execVmulhu (h : OpHead) (vd vs1 vs2 : BitVec 5) (mask : BitVec 3) (s : State) :
    Host.Outcome State Fault Refusal :=
  vec3 h 0x1DA 5 vd vs1 vs2 mask s

/-- VWMUL (R431): the exact signed product. -/
def execVwmul (h : OpHead) (vd vs1 vs2 : BitVec 5) (mask : BitVec 3) (s : State) :
    Host.Outcome State Fault Refusal :=
  vecWide h 0x1DB vd vs1 vs2 mask s

/-- VWMULU (R431): the exact unsigned product. -/
def execVwmulu (h : OpHead) (vd vs1 vs2 : BitVec 5) (mask : BitVec 3) (s : State) :
    Host.Outcome State Fault Refusal :=
  vecWide h 0x1DC vd vs1 vs2 mask s

/-- VWMAC (R431): vd + the signed product. -/
def execVwmac (h : OpHead) (vd vs1 vs2 : BitVec 5) (mask : BitVec 3) (s : State) :
    Host.Outcome State Fault Refusal :=
  vecWide h 0x1DD vd vs1 vs2 mask s

/-- VWMACU (R431): vd + the unsigned product. -/
def execVwmacu (h : OpHead) (vd vs1 vs2 : BitVec 5) (mask : BitVec 3) (s : State) :
    Host.Outcome State Fault Refusal :=
  vecWide h 0x1DE vd vs1 vs2 mask s

/-- VDOT4 (R431): 64-bit sums of four signed 16-bit products; a mask other than m0 is illegal. -/
def execVdot4 (h : OpHead) (vd vs1 vs2 : BitVec 5) (mask : BitVec 3) (s : State) :
    Host.Outcome State Fault Refusal :=
  vecOp h (wordV3 h 0x1DF vd vs1 vs2 mask) (decide (mask ≠ 0)) (fun c => c.span)
    (fun c => vlOk c false && groupOk vd.toNat c.span && groupOk vs1.toNat c.span && groupOk vs2.toNat c.span && decide (c.ew = 16)
      && decide (c.vl % 4 = 0))
    (fun c _ => .effects [.stream (mkStream c 0x1DF 5 c.span 0 0 vd.toNat c.span vs1.toNat c.span vs2.toNat c.span)]) s

/-- VQADD (R433), saturating. -/
def execVqadd (h : OpHead) (vd vs1 vs2 : BitVec 5) (mask : BitVec 3) (s : State) :
    Host.Outcome State Fault Refusal :=
  vec3 h 0x1E0 3 vd vs1 vs2 mask s

/-- VQSUB (R433), saturating. -/
def execVqsub (h : OpHead) (vd vs1 vs2 : BitVec 5) (mask : BitVec 3) (s : State) :
    Host.Outcome State Fault Refusal :=
  vec3 h 0x1E1 3 vd vs1 vs2 mask s

/-- VQADDU (R433), saturating. -/
def execVqaddu (h : OpHead) (vd vs1 vs2 : BitVec 5) (mask : BitVec 3) (s : State) :
    Host.Outcome State Fault Refusal :=
  vec3 h 0x1E2 3 vd vs1 vs2 mask s

/-- VQSUBU (R433), saturating. -/
def execVqsubu (h : OpHead) (vd vs1 vs2 : BitVec 5) (mask : BitVec 3) (s : State) :
    Host.Outcome State Fault Refusal :=
  vec3 h 0x1E3 3 vd vs1 vs2 mask s

/-- VQDMULH (R433). -/
def execVqdmulh (h : OpHead) (vd vs1 vs2 : BitVec 5) (mask : BitVec 3) (s : State) :
    Host.Outcome State Fault Refusal :=
  vec3 h 0x1E4 5 vd vs1 vs2 mask s

/-- VQRDMULH (R433). -/
def execVqrdmulh (h : OpHead) (vd vs1 vs2 : BitVec 5) (mask : BitVec 3) (s : State) :
    Host.Outcome State Fault Refusal :=
  vec3 h 0x1E5 5 vd vs1 vs2 mask s

/-- VRSHR (R433): rounding shift, signed. -/
def execVrshr (h : OpHead) (vd vs1 imm : BitVec 5) (mask : BitVec 3) (s : State) :
    Host.Outcome State Fault Refusal :=
  vecImm h 0x1E8 vd vs1 imm mask s

/-- VRSHRU (R433): rounding shift, unsigned. -/
def execVrshru (h : OpHead) (vd vs1 imm : BitVec 5) (mask : BitVec 3) (s : State) :
    Host.Outcome State Fault Refusal :=
  vecImm h 0x1E9 vd vs1 imm mask s

/-- VSAT (R433): clamp to imm5 + 1 signed bits. -/
def execVsat (h : OpHead) (vd vs1 imm : BitVec 5) (mask : BitVec 3) (s : State) :
    Host.Outcome State Fault Refusal :=
  vecImm h 0x1EA vd vs1 imm mask s

/-- VSATU (R433): clamp to imm5 + 1 unsigned bits. -/
def execVsatu (h : OpHead) (vd vs1 imm : BitVec 5) (mask : BitVec 3) (s : State) :
    Host.Outcome State Fault Refusal :=
  vecImm h 0x1EB vd vs1 imm mask s

/-- VMODRED fn 4: unsigned 16-bit elements (R432). -/
def execVmodredU (h : OpHead) (vd vs1 : BitVec 5) (sQ : BitVec 6) (s : State) :
    Host.Outcome State Fault Refusal :=
  vecMod h 0x1EC false vd vs1 sQ s

/-- VMODRED fn 5: unsigned 32-bit elements, narrowing (R432). -/
def execVmodredUn (h : OpHead) (vd vs1 : BitVec 5) (sQ : BitVec 6) (s : State) :
    Host.Outcome State Fault Refusal :=
  vecMod h 0x1ED true vd vs1 sQ s

/-- VMODRED fn 6: signed 32-bit elements, narrowing (R432). -/
def execVmodredSn (h : OpHead) (vd vs1 : BitVec 5) (sQ : BitVec 6) (s : State) :
    Host.Outcome State Fault Refusal :=
  vecMod h 0x1EE true vd vs1 sQ s

/-- VMODRED fn 7: signed 16-bit elements (R432). -/
def execVmodredS (h : OpHead) (vd vs1 : BitVec 5) (sQ : BitVec 6) (s : State) :
    Host.Outcome State Fault Refusal :=
  vecMod h 0x1EF false vd vs1 sQ s

/-! ### Vector memory (R430) -/

/-- A word of format VM. -/
def wordVM (h : OpHead) (fn : Nat) (v : BitVec 5) (g : BitVec 4) (sK : BitVec 6) (mask : BitVec 3) : Nat :=
  opWord h false 0x3E (v.toNat * 2 ^ 16 + g.toNat * 2 ^ 12 + sK.toNat * 2 ^ 6 + mask.toNat * 8 + fn)

/-- The active elements of an op. -/
def vecActive (c : Core) (mask : Nat) : List Nat := (List.range c.vl).filter (fun i => decide (c.mr mask / 2 ^ i % 2 = 1))

/-- The checked address of each element (R402, R430): unit-stride forms check the whole range as one access, strided forms each
active element; a fault shows the offset checked. -/
def vecAddrs (c : Core) (g sK mask : Nat) (strided write : Bool) : Except (Nat × Nat) (List (Option Nat)) :=
  let e := c.ew / 8
  let off := (c.sr sK).toNat
  if strided then
    (List.range c.vl).foldl (fun (r : Except (Nat × Nat) (List (Option Nat))) (i : Nat) => match r with
      | .error x => .error x
      | .ok l =>
        if c.mr mask / 2 ^ i % 2 = 1 then
          let o := wrapTo 32 ((off : Int) + (i : Int) * (c.sr (sK + 1)).toInt)
          match localCheck c g o e e write with
          | .error v => .error (v, o)
          | .ok a => .ok (l ++ [some a])
        else .ok (l ++ [none])) (.ok [])
  else
    match localCheck c g off (c.vl * e) e write with
    | .error v => .error (v, off)
    | .ok a => .ok ((List.range c.vl).map (fun i => if c.mr mask / 2 ^ i % 2 = 1 then some (a + i * e) else none))

/-- The update of the index register by the post-increment forms. -/
def vecIndex (c : Core) (sK : Nat) (inc : Bool) : List Eff :=
  if inc then [effS 1 sK (c.sr sK + BitVec.ofNat 32 (c.vl * (c.ew / 8)))] else []

/-- The 128-byte words of local memory that a range touches. -/
def bigWords (a n : Nat) : Nat := if n = 0 then 0 else (a + n - 1) / 128 - a / 128 + 1

/-- A vector load: register k lands at c + 6 + k. `ecc`: 0 none, 1 a corrected error, 2 an uncorrectable one, on the word of its
first element. -/
def vecLoad (h : OpHead) (fn : Nat) (strided inc : Bool) (vd : BitVec 5) (g : BitVec 4) (sK : BitVec 6) (mask : BitVec 3) (ecc : Fin 3)
    (s : State) : Host.Outcome State Fault Refusal :=
  vecOp h (wordVM h fn vd g sK mask) (strided && decide (62 < sK.toNat)) (fun c => c.span)
    (fun c => vlOk c (decide (mask ≠ 0)) && groupOk vd.toNat c.span)
    (fun c s =>
      match vecAddrs c g.toNat sK.toNat mask.toNat strided false with
      | .error (v, o) => .fault v o
      | .ok l =>
        let e := c.ew / 8
        let first := (l.findSome? id).getD 0
        let whole : Nat := if strided then 0 else (c.vl * e)
        let base : Nat := segBase (c.sg g.toNat) + (c.sr sK.toNat).toNat
        if ecc = 2 then .fault 17 (first / 8 * 8)
        else
          let n := 1024 / c.ew
          let reg := fun (k : Nat) => (List.range n).foldl (fun (x : Nat × Nat) (i : Nat) =>
            match l.getD (k * n + i) none with
            | some a => (x.1 + leVal (lmLoad s h.core.val c a e) * 2 ^ (c.ew * i), x.2 + (2 ^ c.ew - 1) * 2 ^ (c.ew * i))
            | none => x) (0, 0)
          let lands := (List.range c.span).filterMap (fun k =>
            let r := reg k
            if r.2 = 0 then none else some (Eff.land (6 + k) (0x50 + vd.toNat + k) r.1 r.2))
          let act := l.filterMap id
          let touches : List Eff := if strided then act.map (fun a => .touch a e false false) else [.touch base whole false false]
          let banks := if strided then act.map (fun a => a / 0x20000) else (if whole = 0 then [] else [base / 0x20000, (base + whole - 1) / 0x20000])
          .effects (touches ++ [.vread banks (if strided then act.length else bigWords base whole)] ++ lands ++ vecIndex c sK.toNat inc
            ++ (if ecc = 1 then [.corrected (first / 8 * 8)] else []))) s

/-- A vector store: it reads source register k at c + k and writes its active elements then. -/
def vecStore (h : OpHead) (fn : Nat) (strided inc : Bool) (vs : BitVec 5) (g : BitVec 4) (sK : BitVec 6) (mask : BitVec 3) (s : State) :
    Host.Outcome State Fault Refusal :=
  vecOp h (wordVM h fn vs g sK mask) (strided && decide (62 < sK.toNat)) (fun c => c.span)
    (fun c => vlOk c (decide (mask ≠ 0)) && groupOk vs.toNat c.span)
    (fun c _ =>
      match vecAddrs c g.toNat sK.toNat mask.toNat strided true with
      | .error (v, o) => .fault v o
      | .ok l =>
        let e := c.ew / 8
        let st := mkStream c (0x1F0 + fn) 0 c.span mask.toNat 0 0 0 vs.toNat c.span 0 0
        let touches : List Eff := if strided then (l.filterMap id).map (fun a => .touch a e true false)
          else [.touch (segBase (c.sg g.toNat) + (c.sr sK.toNat).toNat) (c.vl * e) true false]
        .effects (touches ++ [.stream { st with addrs := l }] ++ vecIndex c sK.toNat inc)) s

/-- VLD (R430), unit stride. -/
def execVld (h : OpHead) (vd : BitVec 5) (g : BitVec 4) (sK : BitVec 6) (mask : BitVec 3) (ecc : Fin 3) (s : State) :
    Host.Outcome State Fault Refusal :=
  vecLoad h 0 false false vd g sK mask ecc s

/-- VLD++ (R430): sK rises by VL × EW/8. -/
def execVldInc (h : OpHead) (vd : BitVec 5) (g : BitVec 4) (sK : BitVec 6) (mask : BitVec 3) (ecc : Fin 3) (s : State) :
    Host.Outcome State Fault Refusal :=
  vecLoad h 1 false true vd g sK mask ecc s

/-- VST (R430), unit stride. -/
def execVst (h : OpHead) (vs : BitVec 5) (g : BitVec 4) (sK : BitVec 6) (mask : BitVec 3) (s : State) :
    Host.Outcome State Fault Refusal :=
  vecStore h 2 false false vs g sK mask s

/-- VST++ (R430): sK rises by VL × EW/8. -/
def execVstInc (h : OpHead) (vs : BitVec 5) (g : BitVec 4) (sK : BitVec 6) (mask : BitVec 3) (s : State) :
    Host.Outcome State Fault Refusal :=
  vecStore h 3 false true vs g sK mask s

/-- VLDS (R430): element i at sK + i × stride, the stride in s(K+1). -/
def execVlds (h : OpHead) (vd : BitVec 5) (g : BitVec 4) (sK : BitVec 6) (mask : BitVec 3) (ecc : Fin 3) (s : State) :
    Host.Outcome State Fault Refusal :=
  vecLoad h 4 true false vd g sK mask ecc s

/-- VSTS (R430). -/
def execVsts (h : OpHead) (vs : BitVec 5) (g : BitVec 4) (sK : BitVec 6) (mask : BitVec 3) (s : State) :
    Host.Outcome State Fault Refusal :=
  vecStore h 5 true false vs g sK mask s

/-! ### Major 0x3F (R421, R424) -/

/-- VSTRIP (R421): VFMT, VL, rs and pd from the count in rs; it does not use the vector unit. -/
def execVstrip (h : OpHead) (pd : BitVec 3) (rs : BitVec 6) (ew span : BitVec 2) (s : State) :
    Host.Outcome State Fault Refusal :=
  plainOp h .v (opWord h false 0x3F (pd.toNat * 2 ^ 16 + rs.toNat * 2 ^ 7 + ew.toNat * 2 ^ 5 + span.toNat * 2 ^ 3)) false
    (fun _ c =>
      let n := (c.sr rs.toNat).toNat
      let vl := min n (2 ^ span.toNat * 1024 / (8 * 2 ^ ew.toNat))
      [.land 1 0x105 (span.toNat * 16 + ew.toNat) 0x33, .land 1 0x104 vl 0x7FF, effS 1 rs.toNat (BitVec.ofNat 32 (n - vl))]
        ++ effP 1 pd.toNat (decide (n - vl ≠ 0))) s

/-- A reduction (R424): its scalar result lands at c + 3 + s. -/
def vecReduce (h : OpHead) (fn : Nat) (rd : BitVec 6) (vs1 : BitVec 5) (mask : BitVec 3) (s : State) : Host.Outcome State Fault Refusal :=
  vecOp h (opWord h false 0x3F (2 ^ 19 + rd.toNat * 2 ^ 13 + vs1.toNat * 2 ^ 8 + mask.toNat * 2 ^ 5 + fn * 8)) false (fun c => c.span)
    (fun c => (decide (fn = 3) || vlOk c (decide (mask ≠ 0))) && groupOk vs1.toNat c.span && !(decide (c.ew = 64) && decide (32 ≤ rd.toNat)))
    (fun c _ => .effects [.stream (mkStream c (0x1F8 + fn) 3 c.span mask.toNat 0 rd.toNat 0 vs1.toNat c.span 0 0)]) s

/-- VREDSUM (R424): the sum modulo 2^EW of the active elements. -/
def execVredsum (h : OpHead) (rd : BitVec 6) (vs1 : BitVec 5) (mask : BitVec 3) (s : State) :
    Host.Outcome State Fault Refusal :=
  vecReduce h 0 rd vs1 mask s

/-- VREDMAX (R424): their maximum. -/
def execVredmax (h : OpHead) (rd : BitVec 6) (vs1 : BitVec 5) (mask : BitVec 3) (s : State) :
    Host.Outcome State Fault Refusal :=
  vecReduce h 1 rd vs1 mask s

/-- VREDMIN (R424): their minimum. -/
def execVredmin (h : OpHead) (rd : BitVec 6) (vs1 : BitVec 5) (mask : BitVec 3) (s : State) :
    Host.Outcome State Fault Refusal :=
  vecReduce h 2 rd vs1 mask s

/-- VMVXS (R424): element 0 of vs1, whatever VL and the mask. -/
def execVmvxs (h : OpHead) (rd : BitVec 6) (vs1 : BitVec 5) (mask : BitVec 3) (s : State) :
    Host.Outcome State Fault Refusal :=
  vecReduce h 3 rd vs1 mask s

/-- VSPLAT (R424): vd := the low EW bits of rs; with EW 64 rs names a d register. -/
def execVsplat (h : OpHead) (vd : BitVec 5) (rs : BitVec 6) (mask : BitVec 3) (s : State) :
    Host.Outcome State Fault Refusal :=
  vecOp h (opWord h false 0x3F (2 ^ 20 + vd.toNat * 2 ^ 14 + rs.toNat * 2 ^ 8 + mask.toNat * 2 ^ 5)) false (fun c => c.span)
    (fun c => vlOk c (decide (mask ≠ 0)) && groupOk vd.toNat c.span && !(decide (c.ew = 64) && decide (32 ≤ rs.toNat)))
    (fun c _ =>
      let v := if c.ew = 64 then (c.dr rs.toNat).toNat else (c.sr rs.toNat).toNat % 2 ^ c.ew
      let n := 1024 / c.ew
      let act := vecActive c mask.toNat
      .effects ((List.range c.span).filterMap (fun k =>
        let r := (List.range n).foldl (fun (x : Nat × Nat) (i : Nat) =>
          if act.contains (k * n + i) then (x.1 + v * 2 ^ (c.ew * i), x.2 + (2 ^ c.ew - 1) * 2 ^ (c.ew * i)) else x) (0, 0)
        if r.2 = 0 then none else some (Eff.land (3 + k) (0x50 + vd.toNat + k) r.1 r.2)))) s

/-- Mask logic (R424) on all 128 bits, latency 3. -/
def maskOp (h : OpHead) (op : Nat) (md ma mb : BitVec 3) (f : BitVec 128 → BitVec 128 → BitVec 128) (s : State) :
    Host.Outcome State Fault Refusal :=
  vecOp h (opWord h false 0x3F (3 * 2 ^ 19 + md.toNat * 2 ^ 16 + ma.toNat * 2 ^ 13 + mb.toNat * 2 ^ 10 + op * 2 ^ 8)) false (fun _ => 1)
    (fun c => vlOk c true)
    (fun c _ => .effects (effM 3 md.toNat (f (BitVec.ofNat 128 (c.mr ma.toNat)) (BitVec.ofNat 128 (c.mr mb.toNat))).toNat (2 ^ 128 - 1))) s

/-- MAND (R424). -/
def execMand (h : OpHead) (md ma mb : BitVec 3) (s : State) :
    Host.Outcome State Fault Refusal :=
  maskOp h 0 md ma mb (fun a b => a &&& b) s

/-- MOR (R424). -/
def execMor (h : OpHead) (md ma mb : BitVec 3) (s : State) :
    Host.Outcome State Fault Refusal :=
  maskOp h 1 md ma mb (fun a b => a ||| b) s

/-- MXOR (R424). -/
def execMxor (h : OpHead) (md ma mb : BitVec 3) (s : State) :
    Host.Outcome State Fault Refusal :=
  maskOp h 2 md ma mb (fun a b => a ^^^ b) s

/-- MANDN (R424). -/
def execMandn (h : OpHead) (md ma mb : BitVec 3) (s : State) :
    Host.Outcome State Fault Refusal :=
  maskOp h 3 md ma mb (fun a b => a &&& ~~~ b) s

end Sys2Proof.Machine
end

