-- ==== Sys2Proof/Machine/DrayRun.lean ====
section
/-!
DEFINITION. Dray cores from outside (spec/15 R370, R393; spec/18): start and stop, local-memory clearing, interrupts, halts, the
debug registers and the trace buffer.
-/

namespace Sys2Proof.Machine

/-! ### Start, stop, clearing (R370, R393) -/

/-- A core starts (R393): every register at its reset value; what belongs to local memory, to far accesses under way and to the
trace buffer stays. -/
def coreStart (k : Nat) (s : State) : State :=
  if s.isSet (DRAY_CTL_RUN k) || !s.isSet (DRAY_STAT_LM_READY k) || !s.shedOn (k / 2) then s
  else
    let c := s.core k
    let s := s.setCore k { Core.reset with
      pc := s.getF (DRAY_ENTRY_ENTRY k) * 8, confined := c.confined, tags := c.tags.filter (fun e => e.2.busy),
      farSeq := c.farSeq, trace := c.trace }
    boundary k ((s.setF (DRAY_CTL_RUN k) 1).setF (DRAY_STAT_STATE k) 2)

/-- A core is told to stop (R393): at its next interruptible boundary; a halted core at once. -/
def coreStop (k : Nat) (s : State) : State :=
  let s := s.setF (DRAY_CTL_RUN k) 0
  let c := s.core k
  let st := s.coreState k
  if st = 4 then stopNow k (s.setF (DRAY_DBG_STAT_HALTED k) 0)
  else if (st = 2 ∨ st = 3) ∧ c.interruptible ∧ c.bundle.isEmpty ∧ !c.frozen then stopNow k s
  else s

/-- CORE_START (R393): a write of 1 to RUN; DRAY_CTL is a leader-only register (R335). -/
def coreStartAccess (r : Requester) (core : Fin 32) (s : State) : State :=
  if isLeader s r then ((coreStart core.val s).reply r .ok 0) else (leadRefuse r (DRAY_CTL core.val) s)

/-- CORE_START, as a command. -/
def execCoreStart (r : Requester) (core : Fin 32) (s : State) : Host.Outcome State Fault Refusal :=
  .next (coreStartAccess r core s)

/-- CORE_STOP (R393): a write of 0 to RUN. -/
def coreStopAccess (r : Requester) (core : Fin 32) (s : State) : State :=
  if isLeader s r then ((coreStop core.val s).reply r .ok 0) else (leadRefuse r (DRAY_CTL core.val) s)

/-- CORE_STOP, as a command. -/
def execCoreStop (r : Requester) (core : Fin 32) (s : State) : Host.Outcome State Fault Refusal :=
  .next (coreStopAccess r core s)

/-- The clearing of a core's local memory begins (R370, R404): its contents and confined ranges go, LM_READY falls. -/
def lmClear (k : Nat) (s : State) : State :=
  let s := { s with mem := s.mem.filter (fun e => decide (e.1 < lmBase k) || decide (lmBase k + 0x80000 ≤ e.1)) }
  let s := s.modCore k (fun c => { c with confined := [], stores := [] })
  (s.setF (DRAY_STAT_LM_READY k) 0).setF (DRAY_STAT_STATE k) 0

/-- LM_CLEAR_DONE (R370): LM_READY rises, and the core is STOPPED. -/
def execLmClearDone (core : Fin 32) (s : State) : Host.Outcome State Fault Refusal :=
  let k := core.val
  if s.shedOn (k / 2) && !s.isSet (DRAY_STAT_LM_READY k) then
    .next ((s.setF (DRAY_STAT_LM_READY k) 1).setF (DRAY_STAT_STATE k) 1)
  else .next s

/-! ### Interrupts (R441 to R443) -/

/-- A take by the core: the word goes to ITAKE (R442). -/
def coreTake (k : Nat) (s : State) : Word × State :=
  let x := bellTake k s
  (x.1, x.2.modCore k (fun c => c.setCr 0x27 x.1))

/-- INTERRUPT_ENTRY (R441 to R443): the core takes a source at an interruptible boundary and enters its handler; a core in WAIT
with IE = 0 takes the source and goes on. `cycles`: wall cycles it has issued nothing. -/
def execInterruptEntry (core : Fin 32) (cycles : Nat) (s : State) : Host.Outcome State Fault Refusal :=
  let k := core.val
  let c := s.core k
  let st := s.coreState k
  let free := c.bundle.isEmpty && !c.frozen && !c.haltReady && s.isSet (TGT_STAT_REQ k)
    && !(c.stepping && !s.isSet (DRAY_DBG_CTL_STEP_IE k))
  if !free then .next s
  else
    let s := s.modCore k (fun c => { c with wcycle := c.wcycle + cycles })
    if st = 3 ∧ !(c.ie ∧ c.interruptible) then
      let s := s.setF (DRAY_STAT_STATE k) 2
      if c.ie then .next s else .next (coreTake k s).2
    else if (st = 2 ∧ c.ieLast ∧ c.interruptible) ∨ st = 3 then
      let x := faultSlot 8 s
      if fldGet 30 30 (c.cr 0x21) = 1 then .next (drayEntry k 20 x.1 0 0 x.2)
      else
        let t := coreTake k (drain k x.2)
        .next (drayEntry k 20 x.1 0 t.1.toNat t.2)
    else .next s

/-! ### Halts (R446 to R451) -/

/-- DBG_HALT (R446, R447): a write of HALT by debug; taken at the next interruptible boundary. -/
def dbgHaltAccess (r : Requester) (core : Fin 32) (s : State) : State :=
  let k := core.val
  if r ≠ .debug then (s.decodeFault r (DRAY_DBG_CTL k))
  else if s.isSet (DRAY_DBG_CTL_DBG_EN k) ∧ (s.coreState k = 2 ∨ s.coreState k = 3) then
    ((s.modCore k (setHalt { reason := 1, which := 0, forced := false, late := false })).reply r .ok 0)
  else (s.reply r .ok 0)

/-- DBG_HALT, as a command. -/
def execDbgHalt (r : Requester) (core : Fin 32) (s : State) : Host.Outcome State Fault Refusal :=
  .next (dbgHaltAccess r core s)

/-- DBG_FORCE_HALT (R448): HALT and FORCE together; taken at the next boundary that is not a delay slot. -/
def dbgForceHaltAccess (r : Requester) (core : Fin 32) (s : State) : State :=
  let k := core.val
  if r ≠ .debug then (s.decodeFault r (DRAY_DBG_CTL k))
  else if s.isSet (DRAY_DBG_CTL_DBG_EN k) ∧ (s.coreState k = 2 ∨ s.coreState k = 3) then
    ((s.modCore k (fun c => { c with halt := some { reason := 2, which := 0, forced := true, late := false } })).reply r .ok 0)
  else (s.reply r .ok 0)

/-- DBG_FORCE_HALT, as a command. -/
def execDbgForceHalt (r : Requester) (core : Fin 32) (s : State) : Host.Outcome State Fault Refusal :=
  .next (dbgForceHaltAccess r core s)

/-- A halted core runs on (R450). -/
def resumeCore (k cycles : Nat) (step : Bool) (s : State) : State :=
  if s.isSet (DRAY_DBG_CTL_DBG_EN k) && decide (s.coreState k = 4) then
    let s := s.modCore k (fun c => { c with stepping := step, halt := none, wcycle := c.wcycle + cycles })
    ((s.setF (DRAY_STAT_STATE k) 2).setF (DRAY_DBG_STAT_HALTED k) 0).cntSat (DRAY_FREEZE_FREEZES k) cycles
  else s

/-- DBG_RESUME (R450): issue restarts at PC with the state as it stands; `cycles`: the wall cycles of the halt. -/
def dbgResumeAccess (r : Requester) (core : Fin 32) (cycles : Nat) (s : State) : State :=
  if r ≠ .debug then (s.decodeFault r (DRAY_DBG_CTL core.val))
  else ((resumeCore core.val cycles false s).reply r .ok 0)

/-- DBG_RESUME, as a command. -/
def execDbgResume (r : Requester) (core : Fin 32) (cycles : Nat) (s : State) : Host.Outcome State Fault Refusal :=
  .next (dbgResumeAccess r core cycles s)

/-- DBG_STEP (R450): STEP with RESUME: the core halts again at the next boundary at which an unforced halt may be taken. -/
def dbgStepAccess (r : Requester) (core : Fin 32) (cycles : Nat) (s : State) : State :=
  if r ≠ .debug then (s.decodeFault r (DRAY_DBG_CTL core.val))
  else ((resumeCore core.val cycles true s).reply r .ok 0)

/-- DBG_STEP, as a command. -/
def execDbgStep (r : Requester) (core : Fin 32) (cycles : Nat) (s : State) : Host.Outcome State Fault Refusal :=
  .next (dbgStepAccess r core cycles s)

/-- HALT_TAKEN (R447, R448, R451): the pending halt is taken; a forced one ends an ATOM region and breaks a LOCK region. -/
def execHaltTaken (core : Fin 32) (s : State) : Host.Outcome State Fault Refusal :=
  let k := core.val
  let c := s.core k
  match c.halt with
  | none => .next s
  | some h =>
    if (s.coreState k = 2 ∨ s.coreState k = 3) ∧ !c.frozen ∧ c.haltReady then
      let s := if h.forced && c.locked then s.setF (DRAY_DBG_STAT_LOCK_BROKEN k) 1 else s
      let s := if h.late then s.setF (DRAY_DBG_STAT_LATE k) 1 else s
      let s := s.modCore k (fun c => { c with atomLeft := 0, locked := false, lock := if c.locked then none else c.lock })
      .next (haltNow k h.reason h.which s)
    else .next s

/-! ### Registers and trace under debug (R449, R453) -/

/-- Word `w` of the register of a code, for debug (R449). -/
def debugWord (c : Core) (code w : Nat) : Word :=
  let v : Nat × Nat :=
    if code < 0x40 then ((c.sr code).toNat, 1)
    else if code < 0x44 then ((c.ar (code - 0x40)).toNat, 3)
    else if code < 0x48 then (0, 0)
    else if code < 0x50 then ((c.pr (code - 0x48)).toNat, 1)
    else if code < 0x70 then (c.vr (code - 0x50), 32)
    else if code < 0x78 then (c.mr (code - 0x70) % 2 ^ 128, 4)
    else if code < 0x80 then (0, 0)
    else if code < 0x90 then (c.sg (code - 0x80), 4)
    else (0, 0)
  if w < v.2 then BitVec.ofNat 32 (v.1 / 2 ^ (32 * w)) else 0

/-- A word of the register of a code replaced; one that does not exist is ignored. -/
def debugStore (code w : Nat) (x : Word) (c : Core) : Core :=
  let words := if code < 0x40 then 1 else if code < 0x44 then 3 else if code < 0x48 then 0 else if code < 0x50 then 1
    else if code < 0x70 then 32 else if code < 0x78 then 4 else if code < 0x80 then 0 else if code < 0x90 then 4 else 0
  if words ≤ w then c
  else
    let old := (List.range words).foldl (fun n i => n + (debugWord c code i).toNat * 2 ^ (32 * i)) 0
    let v := old % 2 ^ (32 * w) + x.toNat * 2 ^ (32 * w) + old / 2 ^ (32 * w + 32) * 2 ^ (32 * w + 32)
    regLand code v (2 ^ 1024 - 1) c

/-- DBG_RDATA_ACCESS (R449): a read, or a write of a word, of the register DBG_RSEL names. -/
def rdataAccess (r : Requester) (core : Fin 32) (write : Option Word) (s : State) : State :=
  let k := core.val
  let c := s.core k
  if write.isSome ∧ r ≠ .debug then (s.decodeFault r (DRAY_DBG_RDATA k))
  else if s.coreState k ≠ 4 then (s.reply r .ok 0)
  else if !c.confined.isEmpty then ((s.setF (DRAY_DBG_STAT_DENIED k) 1).reply r .ok 0)
  else
    let code := s.getF (DRAY_DBG_RSEL_CODE k)
    let w := s.getF (DRAY_DBG_RSEL_WORD k)
    let creg := s.isSet (DRAY_DBG_RSEL_CREG k)
    match write with
    | none =>
      let v := if creg then (if w = 0 ∧ cregListed code then (cregRead k code c s).1 else 0) else debugWord c code w
      (s.reply r .ok (v.zeroExtend 64))
    | some x =>
      let f := fun (c : Core) =>
        if creg then (if w = 0 ∧ cregListed code ∧ !cregFixed code then cregLand code x.toNat (2 ^ 32 - 1) c else c)
        else debugStore code w x c
      ((s.modCore k f).reply r .ok 0)

/-- DBG_RDATA_ACCESS, as a command. -/
def execDbgRdataAccess (r : Requester) (core : Fin 32) (write : Option Word) (s : State) : Host.Outcome State Fault Refusal :=
  .next (rdataAccess r core write s)

/-- TRACE_READ (R453, R41, R43, R46): a read of TRACE_LO returns the oldest entry's low half, latches its high half for the
requester and removes it; a debug read peeks unless DBG_CONSUME is 1. -/
def traceReadAccess (r : Requester) (core : Fin 32) (s : State) : State :=
  let k := core.val
  let e := (s.core k).trace.headD 0
  let s := match r with
    | .peer _ => s
    | _ => { s with hiLatch := tblSet none (requesterCode r) (some (DRAY_TRACE_LO k, (e >>> 32).truncate 32)) s.hiLatch }
  let s := if r = .debug ∧ !s.isSet DBG_CTL_DBG_CONSUME then s
    else traceShow k (s.modCore k (fun c => { c with trace := c.trace.tail }))
  (s.reply r .ok (((e.truncate 32 : Word)).zeroExtend 64))

/-- TRACE_READ, as a command. -/
def execTraceRead (r : Requester) (core : Fin 32) (s : State) : Host.Outcome State Fault Refusal :=
  .next (traceReadAccess r core s)

end Sys2Proof.Machine
end

