-- ==== Sys2Proof/Machine/Tally.lean ====
section
/-!
DEFINITION. Tally (spec/21): the evaluation of T0–T127, compares, captures, actions, the path that runs while the clocks are
stopped; with each evaluation one tick of the device passes.
-/

namespace Sys2Proof.Machine

/-- Tally as changed. -/
def State.modTally (s : State) (f : Tally → Tally) : State := { s with tally := f s.tally }

/-- Compare width W of a channel (R489). -/
def tallyWidth (s : State) (n : Nat) : Nat := if s.getF (TCFG_SRC n) = 3 then 48 else 64

/-- (count − compare) mod 2^W (R497). -/
def tallyDist (w count cmp : Nat) : Nat := (count % 2 ^ w + 2 ^ w - cmp % 2 ^ w) % 2 ^ w

/-- The count of a channel. -/
def tallyCount (s : State) (n : Nat) : Nat := (s.rd64 (TCNT_LO n)).toNat

/-- The state with a count loaded. -/
def setTallyCount (n v : Nat) (s : State) : State := s.wr64 (TCNT_LO n) (BitVec.ofNat 64 v)

/-- Compare k is armed. -/
def tallyArmed (s : State) (n k : Nat) : Bool := s.isSet ⟨TSTAT n, k, k⟩

/-- The state with compare k armed or not. -/
def armCompare (n k : Nat) (v : Bool) (s : State) : State := s.setF ⟨TSTAT n, k, k⟩ v.toNat

/-- The next match of compare k is a late one, or not (R497, R498). -/
def markLate (n k : Nat) (v : Bool) (s : State) : State :=
  s.modTally (fun t =>
    let x := tblGet 0 n t.late
    { t with late := tblSet 0 n (x % 2 ^ k + v.toNat * 2 ^ k + x / 2 ^ (k + 1) * 2 ^ (k + 1)) t.late })

/-- The next match of compare k is a late one. -/
def tallyLate (s : State) (n k : Nat) : Bool := tblGet 0 n s.tally.late / 2 ^ k % 2 = 1

/-- The level of an input code as this evaluation sees it (R492). -/
def tallyInput (s : State) (n code : Nat) : Bool :=
  if code < 18 then s.tally.pins2 / 2 ^ code % 2 = 1
  else if 24 ≤ code then s.tally.outs1 / 2 ^ (n / 8 * 8 + (code - 24)) % 2 = 1
  else false

/-- The level of an input code as the evaluation before saw it. -/
def tallyInputWas (s : State) (n code : Nat) : Bool :=
  if code < 18 then s.tally.pins3 / 2 ^ code % 2 = 1
  else if 24 ≤ code then s.tally.outs2 / 2 ^ (n / 8 * 8 + (code - 24)) % 2 = 1
  else false

/-- The channel that LINK names (R499). -/
def tallyLink (s : State) (n : Nat) : Nat := n / 8 * 8 + s.getF (TCFG_LINK n)

/-- The rise of the fraction count over the tick: 65,536 for each boundary (R489 FRAC). -/
def tallyFracRise (s : State) : Int :=
  s.tally.bounds * 65536 + (posFrac s.pos.ticks s.pos.beatLen : Nat) - (s.tally.frac : Nat)

/-- Edges of the EXT input that EDGE counts (R489); EDGE 3 is treated as 0. -/
def tallyEdges (s : State) (n : Nat) : Nat :=
  let i := s.getF (TCFG_ISEL n)
  let now := tallyInput s n i
  let was := tallyInputWas s n i
  let e := s.getF (TCFG_EDGE n)
  if (now && !was && decide (e ≠ 1)) || (!now && was && decide (e = 1 ∨ e = 2)) then 1 else 0

/-- The events of the linked channel that CASCADE counts: those of the evaluation before (R489, R490). -/
def tallyCascade (s : State) (n : Nat) : Nat :=
  let x := tblGet 0 (tallyLink s n) s.tally.evts
  if s.isSet (TCFG_CAS_EVT n) then x / 16 % 2 else x % 2

/-- The increment of the clock source in a tick (R489). -/
def tallyIncrement (s : State) (n : Nat) : Int :=
  match s.getF (TCFG_SRC n) with
  | 0 => 1
  | 1 => s.tally.bounds
  | 2 => tallyFracRise s
  | 4 => tallyEdges s n
  | 5 => tallyCascade s n
  | _ => 0

/-- The gate lets increments through (R495). -/
def tallyGate (s : State) (n : Nat) : Bool :=
  !s.isSet (TCFG_GATE_EN n) || tallyInput s n (s.getF (TCFG_GSEL n)) == s.isSet (TCFG_GLVL n)

/-- A count with an increment added, and whether it wrapped upward (R490). -/
def tallyAdd (n : Nat) (inc : Int) (s : State) : State × Bool :=
  let c : Int := (tallyCount s n : Nat) + inc
  (setTallyCount n ((c % 2 ^ 64).toNat) s, decide (c ≥ 2 ^ 64))

/-- Step 1 of R487: the increment, or the beat number on BEATNUM. -/
def tallyClock (n : Nat) (s : State) : State × Bool :=
  if s.isSet (TCFG_EN n) then
    if s.getF (TCFG_SRC n) = 3 then (setTallyCount n s.beat.toNat s, false)
    else if tallyGate s n then tallyAdd n (tallyIncrement s n) s else (s, false)
  else (s, false)

/-- A capture has been made over one still marked new (R496). -/
def captureOver (n : Nat) (s : State) : State := (s.setF (TEVT_CAP_OVR n) 1).report unitTally 0x0C01 noPath n

/-- The count is captured into CAPR (R496). -/
def captureRise (n : Nat) (s : State) : State :=
  let s := if s.isSet (TEVT_CAPR_NEW n) then captureOver n s else s
  (s.wr64 (TCAPR_LO n) (s.rd64 (TCNT_LO n))).setF (TEVT_CAPR_NEW n) 1

/-- The count is captured into CAPF (R496). -/
def captureFall (n : Nat) (s : State) : State :=
  let s := if s.isSet (TEVT_CAPF_NEW n) then captureOver n s else s
  (s.wr64 (TCAPF_LO n) (s.rd64 (TCNT_LO n))).setF (TEVT_CAPF_NEW n) 1

/-- The channel's Bell source pulses (R499). -/
def tallyIrq (n : Nat) (s : State) : State := bellPulse (513 + n) s

/-- Step 2 of R487: an edge of the capture input (R496). -/
def tallyCapture (n : Nat) (s : State) : State :=
  if s.isSet (TCFG_CAP_EN n) then
    let i := s.getF (TCFG_CSEL n)
    let now := tallyInput s n i
    let was := tallyInputWas s n i
    let t := if now && !was then captureRise n s else if !now && was then captureFall n s else s
    if now != was && s.isSet (TCFG_CAP_IRQ n) then tallyIrq n t else t
  else s

/-- Compare k fires (R497, R498): its bits are set; a one-shot compare is disarmed, a periodic one adds PER. -/
def fireCompare (n k : Nat) (late : Bool) (s : State) : State :=
  let w := tallyWidth s n
  let s := s.setF ⟨TEVT n, k, k⟩ 1
  let s := if late then s.setF ⟨TEVT n, k + 4, k + 4⟩ 1 else s
  if s.isSet (CMP_CTL_PERIODIC n k) then
    let old := (s.rd64 (CMP_LO n k)).toNat
    let c := (old + s.getF (CMP_PER_PER n k)) % 2 ^ w + old / 2 ^ w * 2 ^ w
    markLate n k (decide (tallyDist w (tallyCount s n) c < 2 ^ (w - 1))) (s.wr64 (CMP_LO n k) (BitVec.ofNat 64 c))
  else markLate n k false (armCompare n k false s)

/-- Compare k stands passed (R497). -/
def comparePassed (s : State) (n k : Nat) : Bool :=
  let w := tallyWidth s n
  decide (tallyDist w (tallyCount s n) (s.rd64 (CMP_LO n k)).toNat < 2 ^ (w - 1))

/-- Step 3 of R487 for compare k: the state and the event, as a bit. `aon` says the path of R502, where no match is late. -/
def evalCompare (n : Nat) (aon : Bool) (x : State × Nat) (k : Nat) : State × Nat :=
  if tallyArmed x.1 n k && comparePassed x.1 n k
  then (fireCompare n k (tallyLate x.1 n k && !aon) x.1, x.2 + 2 ^ k) else x

/-- Step 3 of R487: the four compares, then the overflow; the events in bits 0–4. -/
def tallyEvents (n : Nat) (wrapped aon : Bool) (s : State) : State × Nat :=
  let x := evalCompare n aon (evalCompare n aon (evalCompare n aon (evalCompare n aon (s, 0) 0) 1) 2) 3
  if wrapped then (x.1.setF (TEVT_OVF n) 1, x.2 + 16) else x

/-- The CTL word whose actions event e carries: compares 0–3, then the overflow (R499). -/
def tallyCtl (s : State) (n e : Nat) : Nat := (if e = 4 then s.rd (TOVF_CTL n) else s.rd (CMP_CTL n e)).toNat

/-- How many of a channel's events carry an action: bit b of their CTL words at value v of a field of `wd` bits. -/
def tallyActs (s : State) (n evts b wd v : Nat) : Nat :=
  ((List.range 5).filter (fun (e : Nat) => evts / 2 ^ e % 2 = 1 ∧ tallyCtl s n e / 2 ^ b % 2 ^ wd = v)).length

/-- The effects that one evaluation's events have on channels (R500): reset, start and stop, by channel. -/
structure TallyActs where
  reset : List Nat
  start : List Nat
  stop : List Nat
deriving DecidableEq, Repr

/-- The effects of one channel's events, its link actions among them (R499, R500). -/
def tallyEffects (s : State) (a : TallyActs) (x : Nat × Nat) : TallyActs :=
  let n := x.1
  let has := fun (b wd v : Nat) => decide (0 < tallyActs s n x.2 b wd v)
  let l := tallyLink s n
  { reset := a.reset ++ (if has 28 1 1 then [n] else []) ++ (if has 24 2 1 then [l] else [])
    start := a.start ++ (if has 27 1 1 then [n] else []) ++ (if has 24 2 2 then [l] else [])
    stop := a.stop ++ (if has 26 1 1 then [n] else []) ++ (if has 24 2 3 then [l] else []) }

/-- Captures into linked channels and toggles of one channel's events (R499, R500). -/
def tallyOutputs (s : State) (x : Nat × Nat) : State :=
  let n := x.1
  let s := if 0 < tallyActs s n x.2 23 1 1 then captureRise (tallyLink s n) s else s
  if tallyActs s n x.2 22 1 1 % 2 = 1 then s.setF (TSTAT_OUT n) (1 - s.getF (TSTAT_OUT n)) else s

/-- The interrupt of one channel's events: one pulse (R500). -/
def tallyInterrupt (s : State) (x : Nat × Nat) : State :=
  if 0 < tallyActs s x.1 x.2 29 1 1 then tallyIrq x.1 s else s

/-- The epoch event of T120 (R501): the engine runs; a late match is recorded. -/
def tallyEpoch (late : Bool) (x : Nat × Nat) (s : State) : State :=
  if x.1 = 120 ∧ 0 < tallyActs s 120 x.2 21 1 1 then
    switchEngine (if late then s.report unitTally 0x0C02 noPath 0 else s)
  else s

/-- Step 4 of R487: the actions of the events of one evaluation, combined by R500. `late` says that CMP0 of T120 matched
late. -/
def tallyActions (evts : List (Nat × Nat)) (late : Bool) (s : State) : State :=
  let a := evts.foldl (fun (a : TallyActs) x => tallyEffects s a x) { reset := [], start := [], stop := [] }
  let s := evts.foldl tallyOutputs s
  let s := a.reset.foldl (fun s n => setTallyCount n 0 s) s
  let s := a.start.foldl (fun s n => s.setF (TCFG_EN n) 1) s
  let s := a.stop.foldl (fun s n => s.setF (TCFG_EN n) 0) s
  evts.foldl (fun s x => tallyEpoch late x s) s

/-- The level a GPIO shows, where it is an output (R494, spec/25). -/
def gpioOut (s : State) (g : Nat) : Option Bool :=
  if s.isSet (TALLY_GPIO_EN g) then some (s.isSet (TSTAT_OUT (s.getF (TALLY_GPIO_CH g)))) else none

/-- Name of a GPIO ball. -/
def gpioName (g : Nat) : String := "GPIO" ++ toString g

/-- GPIO outputs whose level has changed between two states are driven. -/
def gpioDrive (old s : State) : State :=
  (List.range 16).foldl (fun (s : State) (g : Nat) =>
    match gpioOut s g with
    | some v => if gpioOut old g = some v then s else s.emit (.pin (gpioName g) v)
    | none => s) s

/-- Outputs of all channels as one number. -/
def tallyOuts (s : State) : Nat :=
  (List.range 128).foldl (fun (a : Nat) (n : Nat) => a + s.getF (TSTAT_OUT n) * 2 ^ n) 0

/-- Levels at the balls: a GPIO that is an output shows its channel. -/
def tallyPins (s : State) (pins : Nat) : Nat :=
  (List.range 18).foldl (fun (a : Nat) (i : Nat) =>
    let v := if i < 16 then (gpioOut s i).getD (decide (pins / 2 ^ i % 2 = 1)) else decide (pins / 2 ^ i % 2 = 1)
    a + v.toNat * 2 ^ i) 0

/-- The inputs move one tick through the synchroniser (R493). -/
def tallySample (pins : Nat) (s : State) : State :=
  let p := tallyPins s pins
  let o := tallyOuts s
  s.modTally (fun t => { t with pins3 := t.pins2, pins2 := t.pins1, pins1 := p, outs2 := t.outs1, outs1 := o })

/-- A channel that does nothing in an evaluation: stopped, no compare armed, no capture enabled. -/
def tallyIdle (s : State) (n : Nat) : Bool :=
  !s.isSet (TCFG_EN n) && decide (s.getF (TSTAT_ARM n) = 0) && !s.isSet (TCFG_CAP_EN n)

/-- Steps 1 to 3 of R487 for one channel: the state, and the channels that met events. -/
def tallyChannel (x : State × List (Nat × Nat)) (n : Nat) : State × List (Nat × Nat) :=
  if tallyIdle x.1 n then x
  else
    let c := tallyClock n x.1
    let y := tallyEvents n c.2 false (tallyCapture n c.1)
    (y.1, if y.2 = 0 then x.2 else x.2 ++ [(n, y.2)])

/-- Events on the AON path whose actions have waited join those of this evaluation (R502). -/
def tallyJoin (w : Table Nat) (evts : List (Nat × Nat)) : List (Nat × Nat) :=
  (List.range 128).filterMap (fun (n : Nat) =>
    let a := tblGet 0 n w
    let b := tblGet 0 n evts
    if a = 0 && b = 0 then none else some (n, Nat.lor a b))

/-- A tick passes: the time base and the fraction of the beat go on (R66, R487). -/
def tickPasses (s : State) : State :=
  let s : State := { s with now := s.now + 1 }
  let s := s.modPos (fun p => { p with ticks := p.ticks + 1 })
  s.setF POS_NOW_LO_FRAC (posFrac s.pos.ticks s.pos.beatLen)

/-- TALLY_EVALUATION (R487): one tick. `pins` are the levels at GPIO0–GPIO15, PPS_IN and FRAME_IN. With the clocks stopped
there is none. -/
def execTallyEvaluation (pins : BitVec 18) (s : State) : Host.Outcome State Fault Refusal :=
  if s.clocksStopped then .next s
  else
    let s := tallySample pins.toNat (tickPasses s)
    let late := tallyLate s 120 0
    let x := (List.range 128).foldl tallyChannel (s, [])
    let evts := tallyJoin s.tally.wait x.2
    let t := x.1.modTally (fun (t : Tally) =>
      { t with evts := x.2, wait := [], bounds := 0, frac := posFrac s.pos.ticks s.pos.beatLen })
    .next (heldCheck (gpioDrive s (tallyActions evts late (x.2.foldl tallyInterrupt t))))

/-- Compare k is committed (R497): armed, and classified against the count as it stands. A value already passed fires at
once, as a late match, with its actions. -/
def commitCompare (n k : Nat) (v : DWord) (s : State) : State :=
  let s := markLate n k false (armCompare n k true (s.wr64 (CMP_LO n k) v))
  let w := tallyWidth s n
  let d := tallyDist w (tallyCount s n) v.toNat
  if 0 < d ∧ d < 2 ^ (w - 1) then gpioDrive s (tallyActions [(n, 2 ^ k)] true (tallyInterrupt (fireCompare n k true s) (n, 2 ^ k))) else s

/-- Block 15 serves the device: only the leader writes it, and nobody writes CMP0 of T120 (R501). -/
def tallyMayWrite (r : Requester) (n : Nat) (s : State) : Bool := decide (n < 120) || isLeader s r

/-- COMPARE_COMMIT (R497): the write of CMPk_HI after its LO, or of the pair. -/
def compareCommitAccess (r : Requester) (n : Fin 128) (k : Fin 4) (v : DWord) (s : State) : State :=
  if n.val = 120 ∧ k.val = 0 then (s.decodeFault r (CMP_HI 120 0))
  else if tallyMayWrite r n.val s then ((commitCompare n.val k.val v s).reply r .ok 0)
  else (leadRefuse r (CMP_HI n.val k.val) s)

/-- COMPARE_COMMIT, as a command. -/
def execCompareCommit (r : Requester) (n : Fin 128) (k : Fin 4) (v : DWord) (s : State) : Host.Outcome State Fault Refusal :=
  .next (compareCommitAccess r n k v s)

/-- A compare is disarmed (R498). -/
def disarmCompare (n k : Nat) (s : State) : State := markLate n k false (armCompare n k false s)

/-- COMPARE_DISARM (R498): a write of CMPk_CTL with DISARM 1; the word's other fields are stored. -/
def compareDisarmAccess (r : Requester) (n : Fin 128) (k : Fin 4) (v : Word) (s : State) : State :=
  if n.val = 120 ∧ k.val = 0 then (s.decodeFault r (CMP_CTL 120 0))
  else if tallyMayWrite r n.val s then
    ((disarmCompare n.val k.val (s.wr (CMP_CTL n.val k.val) (v &&& 0x7FE00000))).reply r .ok 0)
  else (leadRefuse r (CMP_CTL n.val k.val) s)

/-- COMPARE_DISARM, as a command. -/
def execCompareDisarm (r : Requester) (n : Fin 128) (k : Fin 4) (v : Word) (s : State) : Host.Outcome State Fault Refusal :=
  .next (compareDisarmAccess r n k v s)

/-- A count is written in the cycle of an increment (R491); a BEATNUM channel keeps its own. -/
def writeCount (n : Nat) (v : DWord) (inc : Nat) (s : State) : State :=
  if s.getF (TCFG_SRC n) = 3 then s else setTallyCount n (v.toNat + inc) s

/-- TALLY_COUNT_WRITE (R491): `inc` is the increment of the same cycle. -/
def tallyCountWriteAccess (r : Requester) (n : Fin 128) (v : DWord) (inc : BitVec 32) (s : State) : State :=
  if tallyMayWrite r n.val s then ((writeCount n.val v inc.toNat s).reply r .ok 0)
  else (leadRefuse r (TCNT_HI n.val) s)

/-- TALLY_COUNT_WRITE, as a command. -/
def execTallyCountWrite (r : Requester) (n : Fin 128) (v : DWord) (inc : BitVec 32) (s : State) : Host.Outcome State Fault Refusal :=
  .next (tallyCountWriteAccess r n v inc s)

/-- TCFG has been written (R494): EN = 0 clears the output. -/
def tcfgWritten (n : Nat) (s : State) : State :=
  if s.isSet (TCFG_EN n) then s else gpioDrive s (s.setF (TSTAT_OUT n) 0)

/-- An AON latch catches an event (R483); with WAKE it asks for the clocks. -/
def latchEvent (n : Nat) (s : State) : State :=
  if bellHasLatch n then
    let s := s.setF (SRC_CFG_LATCHED n) 1
    if s.isSet (SRC_CFG_WAKE n) then s.setF PWR_EVT_WAKE_REQ 1 else s
  else s

/-- A channel runs on the AON path (R502). -/
def onAonPath (s : State) (n : Nat) : Bool :=
  s.isSet (TCFG_EN n) && s.isSet (TCFG_LF_EN n) && decide (s.getF (TCFG_SRC n) = 0)

/-- One 40 ns period of a channel on the AON path (R502): IRQ goes to the edge latch, the other actions wait. -/
def lfChannel (s : State) (n : Nat) : State :=
  if onAonPath s n then
    let s := (s.setF (TEVT_LF_ACTIVE n) 1).setF TALLY_STAT_LF_ACTIVE 1
    let c := if tallyGate s n then tallyAdd n 30 s else (s, false)
    let y := tallyEvents n c.2 true c.1
    let s := if 0 < tallyActs y.1 n y.2 29 1 1 then latchEvent (513 + n) y.1 else y.1
    s.modTally (fun t => { t with wait := tblSet 0 n (Nat.lor (tblGet 0 n t.wait) y.2) t.wait })
  else s

/-- TALLY_LF_PERIOD (R502): a REFCLK_SYS period while the core domain's clocks are stopped. -/
def execTallyLfPeriod (s : State) : Host.Outcome State Fault Refusal :=
  if s.clocksStopped then
    let s : State := { s with now := s.now + 30 }
    .next ((List.range 128).foldl lfChannel (s.setF TALLY_STAT_LF_NOW 1))
  else .next s

end Sys2Proof.Machine
end

