-- ==== Sys2Proof/Machine/Declared.lean ====
section
/-!
DEFINITION. The declared configuration (spec/12 R325, spec/14 R354), the mailboxes (spec/13 R343 to R347), and how a YFI command
is taken from its mailbox, run and answered.
-/

namespace Sys2Proof.Machine

/-! ### Records and digest (R325) -/

/-- First 8 bytes of a record, as a number: device ID, subsystem code, 0, object index, field number. -/
def recKey (dev sub obj fld : Nat) : Nat := ((dev * 256 + sub) * 256 * 65536 + obj) * 65536 + fld

/-- A record as bytes. -/
def recBytes (e : Nat × List Byte) : List Byte := beBytes 8 e.1 ++ beBytes 2 e.2.length ++ e.2

/-- A digest over records: bytes 0–15 of SHA-384. -/
def recDigest (l : List (Nat × List Byte)) : List Byte := (sha (l.flatMap recBytes)).take 16

/-- The configuration digest of the device. -/
def cfgDigest (s : State) : List Byte := recDigest s.config

/-- A digest of 16 bytes shown in four words, bits [31:0] first. -/
def showDigest (w : Nat → Nat) (d : List Byte) (s : State) : State :=
  [0, 1, 2, 3].foldl (fun s i => s.wr (w i) (BitVec.ofNat 32 (be d (12 - 4 * i) 4))) s

/-- A channel's own digest follows its records (R115): those of the channel commands that name it. -/
def chDigest (n : Nat) (s : State) : State :=
  let own := s.config.filter (fun e => decide (e.1 / 2 ^ 40 % 256 = 3) && decide (e.1 / 65536 % 65536 = n)
    && [1, 2, 0xB].contains (e.1 / 256 % 256))
  showDigest (CH_DIGEST n) (recDigest own) s

/-- Records put into the declared configuration, and both digests refreshed. -/
def setRecords (l : List (Nat × List Byte)) (s : State) : State :=
  let s : State := { s with config := l.foldl (fun t e => tblSet [] e.1 e.2 t) s.config }
  let s := showDigest FAB_DIGEST (cfgDigest s) s
  let ns := (l.filter (fun e => decide (e.1 / 2 ^ 40 % 256 = 3) && [1, 2, 0xB].contains (e.1 / 256 % 256))).map
    (fun e => e.1 / 65536 % 65536)
  ns.eraseDups.foldl (fun s n => if n < 512 then chDigest n s else s) s

/-- The generation becomes g: shown, kept in the Loft ring (R354), and announced (source 916). -/
def takeGen (g : Nat) (s : State) : State :=
  let s := s.wr64 FAB_GEN_LO (BitVec.ofNat 64 g)
  fabEvt 3 0 0 (loftProgram (loftGenWord g) (BitVec.ofNat 64 g) s)

/-! ### Running a command (R350 to R354) -/

/-- Are all of these argument bytes 0? (R350) -/
def zeroAt (a : List Byte) (l : List (Nat × Nat)) : Bool := l.all (fun e => decide (le a e.1 e.2 = 0))

/-- What a command gives: status, response data, and the state after it. -/
abbrev YfiOut := Nat × List Byte × State

/-- A command ends with a status and changes nothing (R352). -/
def yfiFail (st : Nat) (s : State) : YfiOut := (st, [], s)

/-- A command that is not a configuration command runs (R353). -/
def yfiRun (op : Nat) (m : Fin 16) (f : List Byte → State → YfiOut) (s : State) : State :=
  if yfiReady s op m.val then
    let x := f (mbArg s m.val) s
    mbDone m.val x.1 x.2.1 x.2.2
  else s

/-- A change beat in an argument (R351): a status, and the beat named. -/
def changeBeat (a : List Byte) (o : Nat) (s : State) : Nat × Beat :=
  let v := le a o 8
  if v = 0 then (0, beatAdd s.beat 64)
  else if 2 ^ 48 ≤ v then (2, 0)
  else if s.getF POS_STAT_STATE = 0 then (0x0C, 0)
  else
    let b : Beat := BitVec.ofNat 48 v
    let d := (b - s.beat).toNat
    if 16 ≤ d ∧ d < 2 ^ 47 then (0, b) else (2, 0)

/-- The argument with its change beat named (R351). -/
def nameBeat (o : Nat) (a : List Byte) (s : State) : List Byte := putAt a o (leBytes 8 (changeBeat a o s).2.toNat)

/-- A configuration command as this chapter gives it (R354). -/
structure CfgCmd where
  op : Nat
  /-- Loft words of its row. -/
  words : List Byte → State → Nat
  /-- Bytes of the first field where it names an object, else 0. -/
  obj : Nat
  /-- Fields of the argument: offset and length. -/
  fields : List Byte → List (Nat × Nat)
  /-- Fields that are fabric-wide values. -/
  wide : List Nat
  /-- Its status before it changes anything: 0 where it may run. -/
  check : List Byte → State → Nat
  /-- The argument as committed. -/
  resolve : List Byte → State → List Byte
  /-- Does it change nothing, whatever its fields hold? -/
  idle : List Byte → State → Bool
  apply : List Byte → State → State
  /-- Status and response data, from the state before the commit; none where the command ends later. -/
  rsp : List Byte → State → Option (Nat × List Byte)

/-- A command that names no Loft words and no wide fields, and that no state refuses: the rest of its row is put over this. -/
def cfgPlain (op obj : Nat) (fields : List (Nat × Nat)) (apply : List Byte → State → State) : CfgCmd :=
  { op := op, words := fun _ _ => 0, obj := obj, fields := fun _ => fields, wide := [], check := fun _ _ => 0,
    resolve := fun a _ => a, idle := fun _ _ => false, apply := apply, rsp := fun _ _ => some (0, []) }

/-- Index of the opcode under which a command's records stand: CH_MODIFY's and CH_CLOSE's are those of CH_OPEN (R354). -/
def cfgIdx (op : Nat) : Nat := if op = 0x0303 ∨ op = 0x0302 then 1 else op % 256

/-- The fabric-wide record of a device's vote (R325, R364). -/
def voterKey (dev : Nat) : Nat := recKey 0xFFFF 8 dev 0x0100

/-- The records of a command's fields (R354): CH_CLOSE takes those of its channel away; FAB_CONFIG names a voter fabric-wide. -/
def cfgRecords (c : CfgCmd) (dev : Nat) (a : List Byte) : List (Nat × List Byte) :=
  (c.fields a).map (fun f =>
    (recKey (if c.wide.contains f.1 then 0xFFFF else dev) (c.op / 256) (le a 0 c.obj) ((cfgIdx c.op * 256) ||| f.1),
      if c.op = 0x0302 then [] else slice a f.1 f.2))
    ++ (if c.op = 0x0801 then [(voterKey dev, if at' a 0 / 2 % 2 = 1 then [1] else [])] else [])

/-- Offset of the change beat in a command's argument (R351). -/
def beatAt (op : Nat) : Option Nat :=
  if op = 0x0301 ∨ op = 0x0303 then some 44 else if op = 0x0302 ∨ op = 0x0307 ∨ op = 0x0801 then some 8 else none

/-- Key of a command's change beat: its device and object. -/
def beatKey (op dev obj : Nat) : Nat := recKey dev (op / 256) obj (cfgIdx op * 256)

/-- The change beat of a commit is kept for those who pull the configuration (R327). -/
def keepBeat (op obj dev : Nat) (a : List Byte) (s : State) : State :=
  match beatAt op with
  | some o => { s with fab := { s.fab with beats := tblSet 0 (beatKey op dev (le a 0 obj)) (le a o 8) s.fab.beats } }
  | none => s

/-- Do the command's fields differ from the declared configuration? -/
def recordsDiffer (c : CfgCmd) (a : List Byte) (s : State) : Bool :=
  (cfgRecords c s.devId a).any (fun e => decide (tblGet [] e.1 s.config ≠ e.2))

/-- The commit of a configuration command on this device (R354): its effect, its records, and the generation raised. -/
def cfgCommit (c : CfgCmd) (a : List Byte) (s : State) : State :=
  takeGen (s.gen + 1) (setRecords (cfgRecords c s.devId a) (keepBeat c.op c.obj s.devId a (c.apply a s)))

/-- Where a configuration command commits: 0 here; 1 at the fabric master; 2 at the lead of a Twin pair (R326, R354). -/
def cfgPlace (s : State) : Nat :=
  if s.isSet FAB_CFG_EN then (if s.isSet FAB_STAT_IS_MASTER then 0 else 1)
  else if s.bound && s.isFollower then 2 else 0

/-- Body of a configuration command on its way to its master: kind 0x10, mailbox, opcode, base generation, argument. -/
def submitBody (m op base : Nat) (a : List Byte) : List Byte :=
  [0x10, BitVec.ofNat 8 m] ++ beBytes 2 op ++ beBytes 8 base ++ beBytes 2 a.length ++ a

/-- What a transfer carries (R327): the change beats, then the records. -/
def transferRaw (s : State) : List Byte :=
  beBytes 2 s.fab.beats.length ++ s.fab.beats.flatMap (fun e => beBytes 8 e.1 ++ beBytes 8 e.2) ++ s.config.flatMap recBytes

/-- Bodies of a configuration transfer (R327): kind 0x13, a flag on the last, generation, digest, a piece that fits (R308). -/
def transferBodies (s : State) : List (List Byte) :=
  let raw := transferRaw s
  let n := (raw.length + 8191) / 8192
  (List.range n).map (fun i =>
    [0x13, BitVec.ofNat 8 (decide (i + 1 = n)).toNat] ++ beBytes 8 s.gen ++ cfgDigest s ++ (raw.drop (8192 * i)).take 8192)

/-- A Twin lead without a fabric gives its new configuration to its mate (R354). -/
def twinPublish (s : State) : State :=
  if !s.isSet FAB_CFG_EN && s.bound && !s.isFollower then
    match twinTurn s with
    | some z => (transferBodies s).foldl (fun s b => fabHop z 6 (s.getF TW_CFG_MATE_ID) b s) s
    | none => s
  else s

/-- A configuration command ends on its mailbox, or goes on: TWIN_BIND until the pair is bound, SHED_SET until its sheds have
changed (R364, R541). -/
def cfgEnd (op m : Nat) (r : Option (Nat × List Byte)) (s : State) : State :=
  match r with
  | some x => mbDone m x.1 x.2 s
  | none =>
    let s := s.setF (MB_STATUS_STATE m) 2
    if op = 0x0701 then { s with ym := { s.ym with bindBox := some m } }
    else { s with ym := { s.ym with shedBox := some m } }

/-- The local commit of a configuration command: budget, Loft write, effect (R354, R550, R552). -/
def cfgLocal (c : CfgCmd) (m : Nat) (a : List Byte) (loftOk : Bool) (s : State) : State :=
  match loftTake (c.words a s + 1) s with
  | none => mbDone m 0x0B [] (budgetSeen 0x0B s)
  | some t =>
    if !loftOk then mbDone m 0x01 [] t else cfgEnd c.op m (c.rsp a t) (twinPublish (cfgCommit c a t))

/-- A configuration command runs (R326, R352, R354): `loftOk` tells whether its Loft writes persist. -/
def cfgRun (c : CfgCmd) (m : Fin 16) (loftOk : Bool) (s : State) : State :=
  let m := m.val
  if !yfiReady s c.op m then s
  else
    let a := mbArg s m
    let base := mbBase s m
    let st := c.check a s
    let place := cfgPlace s
    if base ≠ 0 ∧ base ≠ s.gen ∧ place = 0 then mbDone m 0x0A [] s
    else if st ≠ 0 then mbDone m st [] s
    else
      let a := c.resolve a s
      if c.idle a s || !recordsDiffer c a s then cfgEnd c.op m (c.rsp a s) (c.apply a s)
      else if s.isSet FAB_CFG_EN && !s.isSet FAB_STAT_QUORUM then mbDone m 4 [] s
      else if place = 0 then cfgLocal c m a loftOk s
      else
        let s := s.setF (MB_STATUS_STATE m) 2
        let s : State := { s with ym := { s.ym with sent := s.ym.sent ++ [{ box := m, op := c.op, gen := none, rsp := c.rsp a s }] } }
        let body := submitBody m c.op base a
        if place = 1 then fabSend (s.getF FAB_STAT_MASTER_ID) 6 0 m 0 body s
        else match twinTurn s with
          | some z => fabHop z 6 (s.getF TW_CFG_MATE_ID) body s
          | none => s

end Sys2Proof.Machine
end

