-- ==== Sys2Proof/Machine/Yard.lean ====
section
/-!
DEFINITION. The leadership arbiter and the doorbells of the mailboxes (spec/13 R334 to R347).
-/

namespace Sys2Proof.Machine

/-! ### Doorbells (R344, R345, R347) -/

/-- Is the length of a command's argument what its row gives? (R350) -/
def yfiLenOk (op n : Nat) (a : List Byte) : Bool :=
  match op with
  | 0x0101 => n = 12
  | 0x0102 => n = 16
  | 0x0103 => n = 0
  | 0x0201 => n = 16
  | 0x0202 => n = 8
  | 0x0301 => n = 64
  | 0x0302 => n = 16
  | 0x0303 => n = 64
  | 0x0304 => n = 2
  | 0x0305 => decide (1 ≤ le a 2 2) && decide (le a 2 2 ≤ 256) && decide (n = 4 + 8 * le a 2 2)
  | 0x0306 => decide (1 ≤ at' a 1) && decide (at' a 1 ≤ 63) && decide (n = 4 + 64 * at' a 1)
  | 0x0307 => n = 16
  | 0x0308 => n = 24
  | 0x0309 => decide (60 ≤ le a 2 2) && decide (le a 2 2 ≤ 4064) && decide (n = 8 + le a 2 2)
  | 0x030A => decide (le a 14 2 ≤ 2028) && decide (n = 16 + 2 * le a 14 2)
  | 0x030B => decide (le a 4 2 % 4 = 0) && decide (n = 8 + le a 4 2)
  | 0x0501 => n = 0
  | 0x0502 => decide (1 ≤ n) && decide (n ≤ 4064)
  | 0x0503 => n = 1
  | 0x0504 => n = 48
  | 0x0505 => n = 2
  | 0x0506 => n = 1576
  | 0x0507 => n = 96
  | 0x0508 => n = 104
  | 0x0509 => n = 4
  | 0x050A => n = 4
  | 0x050B => n = 2
  | 0x0601 => n = 12
  | 0x0602 => (decide (at' a 2 = 0x0C) && decide (n = 4 + 32)) || (decide (at' a 2 = 0x0D) && decide (n = 4 + 20))
      || (decide (at' a 2 ≠ 0x0C) && decide (at' a 2 ≠ 0x0D) && decide (4 ≤ n))
  | 0x0701 => n = 8
  | 0x0801 => n = 16
  | 0x0802 => n = 4
  | 0x0803 => n = 12
  | 0x0804 => n = 16
  | 0x0901 => n = 4
  | 0x0902 => decide (n = 16 + le a 8 4)
  | 0x0903 => n = 8
  | 0x0A01 => n = 4
  | 0x0B01 => n = 4
  | 0x0D01 => n = 8
  | 0x0D02 => n = 4
  | 0x0E01 => n = 4
  | 0x0E02 => n = 0
  | 0x0F01 => n = 4
  | 0x1001 => n = 0
  | 0x1002 => n = 24
  | 0x1003 => n = 4
  | 0x1004 => n = 2
  | 0x1005 => n = 4
  | 0x1006 => n = 4
  | _ => false

/-- A DUPLICATE answer: the original response with the first status (R345). -/
def mbDuplicate (m : Nat) (s : State) : State :=
  let r := tblGet [] m s.ym.resp
  mbRespond m (mbOp s m) 0x07 (at' r 0) (mbTag s m) (r.drop 1) s

/-- A tag above the watermark first raises it (R347): a status, and the state after the Loft write. -/
def raiseWm (m tag : Nat) (loftOk : Bool) (s : State) : Nat × State :=
  if tag ≤ (s.rd64 (MB_WM_LO m)).toNat then (0, s)
  else match loftTake 1 s with
    | none => (0x0B, s)
    | some t =>
      if loftOk then
        let v := BitVec.ofNat 64 (tag + 2 ^ 20)
        (0, (loftProgram (loftWmWord m) v t).wr64 (MB_WM_LO m) v)
      else (0x01, s)

/-- The answer to a doorbell (R345). -/
def mbAnswer (m : Nat) (loftOk : Bool) (s : State) : State :=
  let tag := mbTag s m
  if !s.ym.fwReady then mbReject m 3 s
  else if !(decide (mbLen s m ≤ 4072) && yfiLenOk (mbOp s m) (mbLen s m) (mbArg s m)) then mbReject m 2 s
  else if s.ym.tagged.contains m && decide (tag = (s.rd64 (MB_TAG_LO m)).toNat) then mbDuplicate m s
  else if (if s.ym.tagged.contains m then decide (tag ≤ (s.rd64 (MB_TAG_LO m)).toNat)
      else decide (tag ≤ (s.rd64 (MB_WM_LO m)).toNat)) then mbReject m 4 s
  else
    let w := raiseWm m tag loftOk s
    if w.1 ≠ 0 then mbReject m w.1 (budgetSeen w.1 w.2)
    else
      let s := w.2.wr64 (MB_TAG_LO m) (BitVec.ofNat 64 tag)
      let s : State := { s with ym := { s.ym with tagged := if s.ym.tagged.contains m then s.ym.tagged else m :: s.ym.tagged } }
      mbSignal m (MB_CTL_IRQ_ACC m) (((s.setF (MB_STATUS_RESULT m) 0).setF (MB_STATUS_STATE m) 1).setF (MB_EVT_ACCEPTED m) 1)

/-- A doorbell (R344, R348): ignored while a command is in progress or on mailbox 15 in compatibility mode; held while no
Yardmaster serves the mailbox. -/
def mbRing (m : Nat) (loftOk : Bool) (s : State) : State :=
  let st := s.getF (MB_STATUS_STATE m)
  if st = 1 ∨ st = 2 ∨ (m = 15 ∧ s.isSet HOST_WIN_COMPAT_EN) then s.setF (MB_STATUS_DB_OVERRUN m) 1
  else if s.isSet (MB_STATUS_NO_LEADER m) && s.ym.fwReady then
    { s with ym := { s.ym with held := if s.ym.held.contains m then s.ym.held else s.ym.held ++ [m] } }
  else mbAnswer m loftOk s

/-- MAILBOX_RING (R345): the host writes RING of mailbox m; `loftOk` tells whether a watermark raise persists. -/
def execMailboxRing (m : Fin 16) (loftOk : Bool) (s : State) : Host.Outcome State Fault Refusal :=
  .next (mbRing m.val loftOk s)

/-! ### The token (R334 to R337) -/

/-- HOST_EVT signals its vector while a bit is set and EN is 1. -/
def hostEvt (f : Fld) (s : State) : State :=
  let s := s.setF f 1
  if s.isSet HOST_EVT_VEC_EN then s.emit (.msix (s.getF HOST_EVT_VEC_VEC)) else s

/-- The token epoch (R334). -/
def tokenEpoch (s : State) : Nat := s.getF YM_EPOCH_HI_EPOCH_HI * 2 ^ 32 + s.getF YM_EPOCH_EPOCH

/-- The Yardmaster a grant would go to (R334): requesting and ready, PREF on a tie. -/
def tokenNext (s : State) : Option Bool :=
  let e := s.isSet YM_ARB_REQ_E && s.isSet YM_ARB_READY_E
  let w := s.isSet YM_ARB_REQ_W && s.isSet YM_ARB_READY_W
  if e && w then some (s.isSet YM_ARB_PREF) else if e then some false else if w then some true else none

/-- External commands that a new leader finds begun complete with BUSY and are not run again (R346): frames that wait to be
sent. -/
def externalBusy (s : State) : State :=
  s.clearTx.foldl (fun s x => mbDone x.2.1 0x01 [] s) { s with clearTx := [] }

/-- TOKEN_GRANT (R334, R344): EPOCH rises, is written to the Loft, and once it persists the token is granted and held
doorbells are answered. -/
def execTokenGrant (loftOk : Bool) (s : State) : Host.Outcome State Fault Refusal :=
  match s.isSet YM_ARB_HELD, tokenNext s with
  | false, some w =>
    let e := max (tokenEpoch s) s.ym.tried + 1
    let s : State := { s with ym := { s.ym with tried := e } }
    if loftOk then
      let s := loftProgram 2 (BitVec.ofNat 64 e) s
      let s := (s.setF YM_EPOCH_EPOCH (e % 2 ^ 32)).setF YM_EPOCH_HI_EPOCH_HI (e / 2 ^ 32)
      let s := (s.setF YM_ARB_HELD 1).setF YM_ARB_HOLDER w.toNat
      let s := externalBusy (hostEvt HOST_EVT_LEAD_CHANGE (showLead s))
      let ms := s.ym.held
      let s : State := { s with ym := { s.ym with held := [], alive := s.now } }
      .next ((List.range 16).foldl (fun s m => if ms.contains m then mbAnswer m loftOk s else s) s)
    else .next (s.report unitLoft 0x0E04 noPath 16)
  | _, _ => .next s

/-- TOKEN_RELEASE (R334): the holder writes RELEASE. -/
def execTokenRelease (y : Fin 2) (s : State) : Host.Outcome State Fault Refusal :=
  if isHolder s y.val then .next (tokenDrop s) else .next s

/-- ALIVE_WRITE (R334): the holder writes ALIVE. -/
def execAliveWrite (y : Fin 2) (s : State) : Host.Outcome State Fault Refusal :=
  if isHolder s y.val then .next { s with ym := { s.ym with alive := s.now } } else .next s

/-- The watchdog's time in ticks. -/
def wdogTicks (s : State) : Nat := min 20 (max 1 (s.getF YM_WDOG_WDOG_MS)) * ticksPerMs

/-- WATCHDOG_EXPIRY (R334): the holder has not written ALIVE for WDOG_MS ms. -/
def execWatchdogExpiry (s : State) : Host.Outcome State Fault Refusal :=
  if s.isSet YM_ARB_HELD && decide (s.ym.alive + wdogTicks s ≤ s.now) then
    .next (tokenDrop (s.report (if s.isSet YM_ARB_HOLDER then unitYmW else unitYmE) 0x1001 noPath (s.getF YM_ARB_HOLDER)))
  else .next s

/-- READY_CLEAR (R334): a Yardmaster clears READY; a holder that does loses the token. -/
def execReadyClear (y : Fin 2) (s : State) : Host.Outcome State Fault Refusal :=
  .next (setReady y.val false (s.isSet (YM_CTL_REQUEST y.val)) s)

/-- A Yardmaster writes its YM_CTL: READY, REQUEST, ALIVE and RELEASE (R334). -/
def ymCtlWrite (y : Nat) (v : Word) (s : State) : State :=
  let s := setReady y (fldGet 1 1 v = 1) (fldGet 0 0 v = 1) s
  let s : State := if fldGet 3 3 v = 1 && isHolder s y then { s with ym := { s.ym with alive := s.now } } else s
  if fldGet 2 2 v = 1 && isHolder s y then tokenDrop s else s

/-- YM_DIGEST_COMPARE (R339): the standby's digest over its own copy, every 1 ms. A difference is recorded and clears its READY;
an equal one sets it again. -/
def execYmDigestCompare (digest : BitVec 128) (s : State) : Host.Outcome State Fault Refusal :=
  if s.isSet YM_ARB_HELD then
    let y := 1 - s.getF YM_ARB_HOLDER
    let own := be (cfgDigest s) 0 16
    if digest.toNat = own then .next (setReady y true (s.isSet (YM_CTL_REQUEST y)) s)
    else
      .next (setReady y false (s.isSet (YM_CTL_REQUEST y))
        (s.report32 (if y = 0 then unitYmE else unitYmW) 0x1003 noPath own digest.toNat))
  else .next s

/-- YM_NO_STANDBY (R339): the standby has stayed not ready for 1 s. -/
def execYmNoStandby (s : State) : Host.Outcome State Fault Refusal :=
  if s.isSet YM_ARB_HELD && !s.isSet HOST_LEAD_STANDBY_READY then
    .next (s.report (if s.isSet YM_ARB_HOLDER then unitYmW else unitYmE) 0x1004 noPath 0)
  else .next s

end Sys2Proof.Machine
end

