-- ==== Sys2Proof/Machine/YfiPort.lean ====
section
/-!
DEFINITION. The position and port commands of YFI (spec/14 R356, spec/03 R55, spec/04 R86 to R89, R99).
-/

namespace Sys2Proof.Machine

/-- A flag of an argument byte. -/
def argBit (a : List Byte) (o i : Nat) : Nat := at' a o / 2 ^ i % 2

/-- A signed little-endian value of 8 bytes. -/
def leInt (a : List Byte) (o : Nat) : Int := (BitVec.ofNat 64 (le a o 8)).toInt

/-- The first status of a list whose condition holds, in the list's order; 0 where none does. -/
def firstStatus : List (Bool × Nat) → Nat
  | [] => 0
  | (c, st) :: r => if c then st else firstStatus r

/-! ### Position -/

/-- POS_CONFIG's source (R356). -/
def posArg (a : List Byte) : PosSrc := { src := at' a 0, cls := at' a 1, lead := at' a 2 }

/-- POS_CONFIG (R356): its fields, and the change of source under R57. -/
def posConfigApply (a : List Byte) (s : State) : State :=
  let old := posCfg s
  let s := ((s.setF POS_CFG_SRC (at' a 0)).setF POS_CFG_BEAT_CLASS (at' a 1)).setF POS_CFG_LEAD_PORT (at' a 2)
  let s := (s.setF POS_CFG_QUAL (at' a 3)).setF POS_HO_MAX_HO_MAX (le a 4 4)
  posCfgWritten old (s.setF POS_CFG_PPS_DIV (at' a 8))

/-- POS_CONFIG as a configuration command (R356). -/
def posConfigCmd : CfgCmd :=
  { cfgPlain 0x0101 0 [(0, 1), (1, 1), (2, 1), (3, 1), (4, 4), (8, 1)] posConfigApply with
    check := fun a s => firstStatus [
      (!zeroAt a [(9, 3)] || decide (3 < at' a 0) || decide (3 < at' a 1) || decide (63 < at' a 2) || decide (2 ^ 20 ≤ le a 4 4), 2),
      (!posSrcAllowed s (posArg a), 2)] }

/-- POS_CONFIG (R356). -/
def execPosConfig (m : Fin 16) (loftOk : Bool) (s : State) : Host.Outcome State Fault Refusal :=
  .next (cfgRun posConfigCmd m loftOk s)

/-- POS_HOST_ADJUST of one action (R55, R356): refused unless SRC is HOST; the response names the beat of its effect. -/
def posAdjust (bad : List Byte → State → Nat) (f : List Byte → State → State) (a : List Byte) (s : State) : YfiOut :=
  if !zeroAt a [(1, 7)] then yfiFail 2 s
  else
    let st := bad a s
    if st ≠ 0 then yfiFail st s
    else if s.getF POS_CFG_SRC ≠ 2 then yfiFail 0x0C s
    else
      let t := f a s
      (0, leBytes 8 t.beat.toNat, t)

/-- Is the mailbox's POS_HOST_ADJUST of this action? Action 1 also answers an action that is none of the three. -/
def posActionIs (s : State) (m : Nat) (act : Nat) : Bool :=
  let x := at' (mbArg s m) 0
  decide (x = act) || (decide (act = 1) && decide (x ≠ 2) && decide (x ≠ 3))

/-- POS_SET_BEAT (R55, R356): action 1. -/
def execPosSetBeat (m : Fin 16) (s : State) : Host.Outcome State Fault Refusal :=
  if posActionIs s m.val 1 then
    .next (yfiRun 0x0102 m
      (posAdjust
        (fun a s => firstStatus [(decide (at' a 0 ≠ 1) || decide (2 ^ 48 ≤ le a 8 8), 2), (decide (s.getF POS_STAT_STATE = 0), 0x0C)])
        (fun a s => posSetBeat (BitVec.ofNat 48 (le a 8 8)) s)) s)
  else .next s

/-- POS_FREQ_OFFSET (R55, R356): action 2, within ±100 ppm. -/
def execPosFreqOffset (m : Fin 16) (s : State) : Host.Outcome State Fault Refusal :=
  if posActionIs s m.val 2 then
    .next (yfiRun 0x0102 m
      (posAdjust (fun a _ => firstStatus [(decide (25600000 < (leInt a 8).natAbs), 2)])
        (fun a s => posFreqOffset (leInt a 8) s)) s)
  else .next s

/-- The step still being slewed on HOST, in fraction units, forward positive (R356). -/
def slewLeft (s : State) : Int := -(s.pos.slew * 65536) / ((max 1 s.pos.beatLen : Nat) : Int)

/-- POS_PHASE_STEP (R55, R356): action 3; with what is still being slewed it stays within ±65,536. -/
def execPosPhaseStep (m : Fin 16) (s : State) : Host.Outcome State Fault Refusal :=
  if posActionIs s m.val 3 then
    .next (yfiRun 0x0102 m
      (posAdjust
        (fun a s => firstStatus [(decide (65536 < (leInt a 8).natAbs) || decide (65536 < (leInt a 8 + slewLeft s).natAbs), 2)])
        (fun a s => posPhaseStep (leInt a 8) s)) s)
  else .next s

/-- POS_GET (R356). -/
def posGet (_ : List Byte) (s : State) : YfiOut :=
  (0, leBytes 8 s.stamp.toNat
    ++ [BitVec.ofNat 8 (s.getF POS_STAT_STATE), BitVec.ofNat 8 (s.getF POS_CFG_SRC), BitVec.ofNat 8 (s.getF POS_CFG_BEAT_CLASS),
      BitVec.ofNat 8 (s.getF POS_STAT_FREQ_VALID + 2 * s.getF POS_STAT_SRC_OK + 4 * s.getF POS_STAT_PENDING)]
    ++ leBytes 4 (s.rd POS_FREQ).toNat ++ leBytes 2 (s.getF POS_STAT_HELD) ++ leBytes 2 (s.getF POS_REGR_CNT_REGRESSIONS)
    ++ leBytes 2 (s.getF POS_REGR_CNT_STEPS) ++ zeros 2 ++ leBytes 4 s.pos.beatLen ++ zeros 4, s)

/-- POS_GET (R356). -/
def execPosGet (m : Fin 16) (s : State) : Host.Outcome State Fault Refusal := .next (yfiRun 0x0103 m posGet s)

/-! ### Ports -/

/-- PORT_GROUP_CONFIG's effect (R86 to R88). -/
def groupApply (a : List Byte) (s : State) : State :=
  let g := at' a 0
  let s := (s.setF (GRP_CFG_FAMILY g) (at' a 1)).setF (GRP_CFG_REFSEL g) (at' a 2)
  let s := (s.setF (GRP_LANEMAP_RX_MAP g) (le a 4 4)).setF (GRP_LANEMAP_TX_MAP g) (le a 8 4)
  groupMapWritten g ((s.setF (GRP_POLARITY_RX_INV g) (at' a 12)).setF (GRP_POLARITY_TX_INV g) (at' a 13))

/-- PORT_GROUP_CONFIG as a configuration command (R356). -/
def groupCmd : CfgCmd :=
  { cfgPlain 0x0201 1 [(0, 1), (1, 1), (2, 1), (4, 4), (8, 4), (12, 1), (13, 1)] groupApply with
    check := fun a s => firstStatus [
      (!zeroAt a [(3, 1), (14, 2)] || decide (7 < at' a 0) || decide (3 < at' a 1) || decide (3 < at' a 2), 2),
      (decide (2 ^ 24 ≤ le a 4 4) || decide (2 ^ 24 ≤ le a 8 4) || !laneMapOk (le a 4 4) || !laneMapOk (le a 8 4), 2),
      (!groupWritable s (at' a 0), 5)] }

/-- PORT_GROUP_CONFIG (R89, R356). -/
def execPortGroupConfig (m : Fin 16) (loftOk : Bool) (s : State) : Host.Outcome State Fault Refusal :=
  .next (cfgRun groupCmd m loftOk s)

/-- Channel n binds port k (R110, R274). -/
def chanBinds (s : State) (n k : Nat) : Bool :=
  if k < 32 then
    (decide (s.chMode n ≠ 2) && (decide (s.getF (CH_BIND_INGRESS_MASK n) / 2 ^ k % 2 = 1))) || decide (s.getF (CH_CFG_EGRESS_PORT n) = k)
  else decide (32 + s.getF (CH_CFG_CIPHER_PORT n) = k) || (s.chTwin n && decide (32 + s.getF (TWC_CFG_PATH2_PORT n) = k))

/-- An OPEN channel binds port k (R110, R274). -/
def portBound (s : State) (k : Nat) : Bool := s.chans.any (fun e => s.chOpen e.1 && chanBinds s e.1 k)

/-- PORT_CONFIG's effect (R356): EN is cleared first and set last. -/
def portApply (a : List Byte) (s : State) : State :=
  let k := at' a 0
  let s := portRefresh k (s.setF (PORT_CFG_EN k) 0)
  let s := (s.setF (PORT_CFG_TYPE k) (at' a 1)).setF (PORT_CFG_FEC k) (at' a 2)
  let s := (s.setF (PORT_CFG_AN_EN k) (argBit a 3 1)).setF (PORT_TIMING_THROUGH k) (argBit a 3 2)
  let s := ((s.setF (PORT_CFG_UP_HOLD k) (at' a 4)).setF (PORT_CFG_SD_THRESH k) (at' a 5)).setF (PORT_TIMING_PARTNER k) (at' a 6)
  let s := portLine k (s.setF (PORT_CFG_EN k) (argBit a 3 0))
  if isZ k then portRefresh k s else portRefreshGroup (portGroup k) s

/-- PORT_CONFIG as a configuration command (R99, R356). -/
def portCmd : CfgCmd :=
  { cfgPlain 0x0202 1 [(0, 1), (1, 1), (2, 1), (3, 1), (4, 1), (5, 1), (6, 1)] portApply with
    check := fun a s =>
      let k := at' a 0
      firstStatus [
        (!zeroAt a [(7, 1)] || decide (71 < k) || decide (63 < at' a 1) || decide (3 < at' a 2) || decide (8 ≤ at' a 3)
          || decide (63 < at' a 6), 2),
        (isZ k && (decide (at' a 1 ≠ 0x30) || decide (at' a 2 ≠ 0)), 2),
        (portBound s k && ((s.isSet (PORT_CFG_EN k) && decide (argBit a 3 0 = 0)) || decide (s.getF (PORT_CFG_TYPE k) ≠ at' a 1)
          || decide (s.getF (PORT_CFG_FEC k) ≠ at' a 2)), 5)] }

/-- PORT_CONFIG (R356). -/
def execPortConfig (m : Fin 16) (loftOk : Bool) (s : State) : Host.Outcome State Fault Refusal :=
  .next (cfgRun portCmd m loftOk s)

end Sys2Proof.Machine
end

