-- ==== Sys2Proof/Machine/YfiChan.lean ====
section
/-!
DEFINITION. The channel commands of YFI (spec/14 R357, R359, spec/05 R110 to R116, R131).
-/

namespace Sys2Proof.Machine

/-! ### The channel block (R357) -/

/-- Channel of a block. -/
def blkCh (a : List Byte) : Nat := le a 0 2

/-- Fields of the block that hold a value of the declared configuration: offset and length. -/
def blkFields : List (Nat × Nat) :=
  [(0, 2), (2, 1), (3, 1), (4, 1), (5, 1), (6, 1), (8, 4), (12, 4), (16, 8), (24, 4), (28, 4), (32, 2), (34, 2), (36, 2), (40, 4), (52, 2)]

/-- Bits of the mode policy words that a mode gives a meaning: LO and HI. -/
def polMasks (mode : Nat) : Nat × Nat :=
  if mode = 0 then (0xFFFFFFFF, 0x7FFFFFFF) else if mode = 1 then (0x9F0000FF, 0) else (0xFFEFF001, 0)

/-- A value with no bit outside a mask. -/
def maskOk (v mask : Nat) : Bool := decide (v &&& mask = v)

/-- CH_CFG of a block, with the state that stands (R115). -/
def blkCfg (a : List Byte) (old : Word) : Word :=
  let w := fldSet 29 28 (at' a 2) old
  let w := fldSet 27 27 (argBit a 3 0) (fldSet 26 26 (argBit a 3 1) w)
  let w := fldSet 25 25 (argBit a 3 2) (fldSet 24 24 (argBit a 3 3) w)
  let w := fldSet 23 23 (argBit a 3 4) (fldSet 22 22 (argBit a 3 5) w)
  fldSet 21 21 (argBit a 3 6) (fldSet 20 16 (at' a 5) (fldSet 12 8 (at' a 4) w))

/-- TWC_CFG of a block. -/
def blkTwc (a : List Byte) (old : Word) : Word :=
  fldSet 31 31 (le a 52 2 / 2 ^ 15) (fldSet 25 16 (le a 52 2) (fldSet 12 8 (at' a 6) old))

/-- The words of a block, as an open puts them into the Stall (R357). -/
def blkWrite (a : List Byte) (s : State) : State :=
  let n := blkCh a
  let s := s.wr (CH_CFG n) (blkCfg a (s.rd (CH_CFG n)))
  let s := (s.wr (CH_BIND n) (BitVec.ofNat 32 (le a 8 4))).wr (CH_TRIB n) (BitVec.ofNat 32 (le a 12 4))
  let s := s.wr64 (CH_SCI n 0) (BitVec.ofNat 64 (le a 16 8))
  let s := (s.wr (FRM_POL_LO n) (BitVec.ofNat 32 (le a 24 4))).wr (FRM_POL_HI n) (BitVec.ofNat 32 (le a 28 4))
  let s := (s.setF (CH_POLICY_MAX_LEN n) (le a 32 2)).setF (CH_POLICY_BUF_MIN n) (le a 34 2)
  let s := (s.setF (CH_POLICY2_BUF_MAX n) (le a 36 2)).wr (TWC_CFG n) (blkTwc a (s.rd (TWC_CFG n)))
  s.modChan n (fun c => { c with epochLen := le a 40 4, nextHost := none, nextLen := none })

/-- Bytes and ranges of a block that its row fixes (R350, R357). -/
def blkOk (a : List Byte) (modify : Bool) : Bool :=
  zeroAt a [(7, 1), (38, 2), (56, 8)] && decide (blkCh a < 512) && decide (at' a 2 < 4) && decide (at' a 3 < 128)
    && decide (at' a 4 < 32) && decide (at' a 5 < 32) && decide (at' a 6 < 32) && decide (le a 34 2 < 2 ^ 14)
    && decide (le a 36 2 < 2 ^ 14) && decide (le a 52 2 / 1024 % 32 = 0)
    && (if modify then decide (le a 54 2 < 256) else decide (le a 54 2 = 0))

/-! ### What an open is refused for (R110, R111, R141, R142, R150, R163, R212, R234) -/

/-- Family of a port: 0 Ethernet, 1 OTN, 2 SDH, 3 none. -/
def State.portFam (s : State) (k : Nat) : Nat := portFamily (s.getF (PORT_CFG_TYPE k))

/-- Channels other than `n` that are not CLOSED, or that wait for their open. -/
def otherChans (s : State) (n : Nat) : List Nat :=
  (s.chans.map (·.1)).filter (fun k => decide (k ≠ n) && (decide (s.chState k ≠ 0) || s.changes.any (fun c => c.2 = .open k)))

/-- Cipher-side ports of a channel: both of a Twin-mode channel's (R274). -/
def cipherPorts (s : State) (n : Nat) : List Nat :=
  s.getF (CH_CFG_CIPHER_PORT n) :: (if s.chTwin n then [s.getF (TWC_CFG_PATH2_PORT n)] else [])

/-- Family of a tributary kind: 1 OTN, 2 SDH; 3 for a kind that names none. -/
def tribFamily (k : Nat) : Nat := if k = 6 ∨ k = 7 then 2 else if 1 ≤ k ∧ k ≤ 8 then 1 else 3

/-- Bindings of an Ethernet channel (R110, R111). -/
def ethBindOk (s : State) (n : Nat) : Bool :=
  decide (s.portFam (s.getF (CH_CFG_EGRESS_PORT n)) = 0) && (cipherPorts s n).all (fun c => decide (s.portFam (32 + c) = 0))
    && (List.range 32).all (fun p => decide (s.getF (CH_BIND_INGRESS_MASK n) / 2 ^ p % 2 = 0) || decide (s.portFam p = 0))
    && (otherChans s n).all (fun k => (cipherPorts s k).all (fun c => !(cipherPorts s n).contains c || decide (s.chMode k = s.chMode n)))

/-- Bindings of a layer-1 channel (R110, R111): one tributary of one kind on each side, bound to no other open channel. -/
def l1BindOk (s : State) (n : Nat) : Bool :=
  let pk := s.tribKind n
  let ck := s.getF (CH_TRIB_CIPHER_TRIB n) / 4096
  let f := tribFamily pk
  decide (pk = ck) && decide (f ≠ 3) && decide (s.portFam (s.getF (CH_CFG_EGRESS_PORT n)) = f)
    && (cipherPorts s n).all (fun c => decide (s.portFam (32 + c) = f))
    && (otherChans s n).all (fun k => decide (s.chMode k ≠ 2)
      || (!(decide (s.getF (CH_CFG_EGRESS_PORT k) = s.getF (CH_CFG_EGRESS_PORT n))
            && decide (s.getF (CH_TRIB_PLAIN_TRIB_index k) = s.getF (CH_TRIB_PLAIN_TRIB_index n)))
          && !((cipherPorts s k).any (fun c => (cipherPorts s n).contains c)
            && decide (s.getF (CH_TRIB_CIPHER_TRIB k) % 4096 = s.getF (CH_TRIB_CIPHER_TRIB n) % 4096))))

/-- Policy of a frame-mode channel (R141, R142, R150): `SUITE`, `CO`, `CLEAR_TAGS`, the SecTAG bits, the window, lengths. -/
def framePolOk (s : State) (n : Nat) : Bool :=
  let sc := s.isSet (FRM_POL_LO_SC n)
  let len := s.getF (CH_POLICY_MAX_LEN n)
  decide (s.getF (FRM_POL_LO_CO n) ≠ 3) && decide (s.getF (FRM_POL_LO_CLEAR_TAGS n) ≠ 3)
    && !(s.isSet (FRM_POL_LO_ES n) && sc) && !(s.isSet (FRM_POL_LO_SCB n) && (sc || s.isSet (FRM_POL_LO_ES n)))
    && decide (s.getF (FRM_POL_HI_REPLAY_WIN n) ≤ 2 ^ 30) && (!s.chTwin n || sc)
    && decide (len + (if sc then 32 else 24) ≤ 9600)
    && (cipherPorts s n).all (fun c =>
      let t := s.getF (PORT_CFG_TYPE (32 + c))
      (decide (t ≠ 0x01) || decide (len ≤ 3073)) && (decide (t ≠ 0x02) || decide (len ≤ 7760)))

/-- Mode policy words without a bit their mode reserves. -/
def polBitsOk (s : State) (n : Nat) : Bool :=
  let k := polMasks (s.chMode n)
  maskOk (s.rd (FRM_POL_LO n)).toNat k.1 && maskOk (s.rd (FRM_POL_HI n)).toNat k.2

/-- The rules of a mode on a channel whose words stand in its Stall. -/
def modeOk (s : State) (n : Nat) : Bool :=
  polBitsOk s n &&
    (if s.chMode n = 0 then ethBindOk s n && framePolOk s n
    else if s.chMode n = 1 then
      ethBindOk s n && decide (s.getF POS_CFG_BEAT_CLASS = 3)
        && (cipherPorts s n).all (fun c => s.isSet (CELL_PORT_CFG_EN c) && decide (s.getF (PORT_CFG_TYPE (32 + c)) ≠ 0x02))
    else if s.chMode n = 2 then
      l1BindOk s n && (!s.isSdh n || !s.isSet (L1_POL_LO_OH_SEL n))
        && decide (s.getF (L1_POL_LO_PEER_CH n) = s.getF (BR_CFG_PEER_CH n))
    else false)

/-- The epoch length of a channel meets R234 and R357. -/
def epochOk (s : State) (n : Nat) : Bool :=
  let l := (s.chan n).epochLen
  decide (10 ≤ l) && decide (l ≤ 86400000) && decide (minEpochMs s n ≤ l)

/-- Sum of `BUF_MIN` over open channels, this one among them (R131). -/
def bufMinSum (s : State) (n : Nat) : Nat := (n :: otherChans s n).foldl (fun t k => t + s.getF (CH_POLICY_BUF_MIN k)) 0

/-! ### CH_OPEN -/

/-- CH_OPEN's effect (R112, R357): the block enters the Stall, and the channel opens at its change beat. -/
def chOpenApply (a : List Byte) (s : State) : State :=
  let s := blkWrite a s
  { s with changes := s.changes ++ [(BitVec.ofNat 48 (le a 44 8), .open (blkCh a))] }

/-- CH_OPEN as a configuration command (R359); refused in safe state (R519). -/
def chOpenCmd : CfgCmd :=
  { cfgPlain 0x0301 2 blkFields chOpenApply with
    check := fun a s =>
      let n := blkCh a
      let t := blkWrite a s
      firstStatus [
        (!blkOk a false || decide (le a 32 2 < 64) || decide (9600 < le a 32 2), 2),
        (decide (s.chState n ≠ 0) || s.changes.any (fun c => c.2 = .open n), 5),
        (!modeOk t n || !epochOk t n, 2),
        (decide (16384 < bufMinSum t n), 8),
        ((t.chTwin n && !s.bound && !isWitness t n) || s.isSet LEDGER_STAT_SAFE, 3),
        (true, (changeBeat a 44 s).1)]
    resolve := nameBeat 44
    rsp := fun a _ => some (0, slice a 44 8) }

/-- CH_OPEN (R359). -/
def execChOpen (m : Fin 16) (loftOk : Bool) (s : State) : Host.Outcome State Fault Refusal :=
  .next (cfgRun chOpenCmd m loftOk s)

/-! ### CH_CLOSE -/

/-- CH_CLOSE's effect: the channel closes at its change beat. -/
def chCloseApply (a : List Byte) (s : State) : State :=
  if s.chState (blkCh a) = 1 then { s with changes := s.changes ++ [(BitVec.ofNat 48 (le a 8 8), .close (blkCh a))] } else s

/-- CH_CLOSE as a configuration command (R359). -/
def chCloseCmd : CfgCmd :=
  { cfgPlain 0x0302 2 blkFields chCloseApply with
    check := fun a s => firstStatus [
      (!zeroAt a [(2, 6)] || decide (511 < blkCh a), 2), (decide (s.chState (blkCh a) ≠ 1), 0), (true, (changeBeat a 8 s).1)]
    resolve := fun a s => if s.chState (blkCh a) = 1 then nameBeat 8 a s else putAt a 8 (zeros 8)
    idle := fun a s => decide (s.chState (blkCh a) ≠ 1)
    rsp := fun a _ => some (0, slice a 8 8) }

/-- CH_CLOSE (R359). -/
def execChClose (m : Fin 16) (loftOk : Bool) (s : State) : Host.Outcome State Fault Refusal :=
  .next (cfgRun chCloseCmd m loftOk s)

/-! ### CH_MODIFY -/

/-- Bit of the presence mask. -/
def modHas (a : List Byte) (i : Nat) : Bool := decide (le a 54 2 / 2 ^ i % 2 = 1)

/-- Fields that a mask names. -/
def modFields (a : List Byte) : List (Nat × Nat) :=
  (if modHas a 0 then [(3, 1)] else []) ++ (if modHas a 1 then [(8, 4)] else []) ++ (if modHas a 2 then [(24, 4)] else [])
    ++ (if modHas a 3 then [(28, 4)] else []) ++ (if modHas a 4 then [(32, 2)] else [])
    ++ (if modHas a 5 then [(34, 2), (36, 2)] else []) ++ (if modHas a 6 then [(40, 4)] else [])
    ++ (if modHas a 7 then [(52, 2)] else [])

/-- The words that a CH_MODIFY changes at its beat (R116, R357): the last of them is L. -/
def modWords (a : List Byte) (s : State) : List (Nat × Word) :=
  let n := blkCh a
  let cfg := s.rd (CH_CFG n)
  let flags := fldSet 26 25 (argBit a 3 2 + 2 * argBit a 3 1)
    (fldSet 24 21 (argBit a 3 6 + 2 * argBit a 3 5 + 4 * argBit a 3 4 + 8 * argBit a 3 3) cfg)
  let pol := s.rd (CH_POLICY n)
  let pol := if modHas a 4 then fldSet 13 0 (le a 32 2) pol else pol
  let pol := if modHas a 5 then fldSet 29 16 (le a 34 2) pol else pol
  let tw := fldSet 31 31 (le a 52 2 / 2 ^ 15) (fldSet 25 16 (le a 52 2) (s.rd (TWC_CFG n)))
  (if modHas a 0 then [(CH_CFG n, flags)] else [])
    ++ (if modHas a 1 then [(CH_BIND n, BitVec.ofNat 32 (le a 8 4))] else [])
    ++ (if modHas a 2 then [(FRM_POL_LO n, BitVec.ofNat 32 (le a 24 4))] else [])
    ++ (if modHas a 3 then [(FRM_POL_HI n, BitVec.ofNat 32 (le a 28 4))] else [])
    ++ (if modHas a 4 || modHas a 5 then [(CH_POLICY n, pol)] else [])
    ++ (if modHas a 5 then [(CH_POLICY2 n, BitVec.ofNat 32 (le a 36 2))] else [])
    ++ (if modHas a 7 then [(TWC_CFG n, tw)] else [])
    ++ (if modHas a 6 then [(0, BitVec.ofNat 32 (le a 40 4))] else [])

/-- The state in which a CH_MODIFY has taken effect, by which its values are judged. -/
def modState (a : List Byte) (s : State) : State :=
  let n := blkCh a
  let s := (modWords a s).foldl (fun s x => if x.1 = 0 then s else s.wr x.1 x.2) s
  if modHas a 6 then s.modChan n (fun c => { c with epochLen := le a 40 4 }) else s

/-- Policy bits that change only while the channel is CLOSED (spec/06, spec/07, R212). -/
def polFixed (mode : Nat) : Nat := if mode = 0 then 0xC2000000 else if mode = 1 then 0x9F000000 else 0xFFE00000

/-- CH_MODIFY's effect (R116, R357). -/
def chModifyApply (a : List Byte) (s : State) : State :=
  { s with changes := s.changes ++ [(BitVec.ofNat 48 (le a 44 8), .modify (blkCh a) (modWords a s))] }

/-- CH_MODIFY as a configuration command (R357, R359). -/
def chModifyCmd : CfgCmd :=
  { cfgPlain 0x0303 2 [] chModifyApply with
    fields := modFields
    check := fun a s =>
      let n := blkCh a
      let t := modState a s
      let lo := (s.rd (FRM_POL_LO n)).toNat
      let f := polFixed (s.chMode n)
      firstStatus [
        (decide (511 < n) || decide (255 < le a 54 2) || !zeroAt a [(7, 1), (38, 2), (56, 8)] || decide (127 < at' a 3), 2),
        (s.chState n ≠ 1, 3),
        (modHas a 2 && decide (le a 24 4 &&& f ≠ lo &&& f), 2),
        (modHas a 4 && (decide (le a 32 2 < 64) || decide (9600 < le a 32 2)), 2),
        (modHas a 5 && (decide (2 ^ 14 ≤ le a 34 2) || decide (2 ^ 14 ≤ le a 36 2)), 2),
        (modHas a 7 && decide (le a 52 2 / 1024 % 32 ≠ 0), 2),
        (!modeOk t n || (modHas a 6 && !epochOk t n), 2),
        (true, (changeBeat a 44 s).1)]
    resolve := fun a s =>
      let a := nameBeat 44 a s
      putAt a 3 [BitVec.ofNat 8 (at' a 3 / 2 * 2 + (s.chTwin (blkCh a)).toNat)]
    rsp := fun a _ => some (0, slice a 44 8) }

/-- CH_MODIFY (R357). -/
def execChModify (m : Fin 16) (loftOk : Bool) (s : State) : Host.Outcome State Fault Refusal :=
  .next (cfgRun chModifyCmd m loftOk s)

/-! ### CH_GET and CH_CUSTOMER -/

/-- CH_GET's response (R359). -/
def chGet (a : List Byte) (s : State) : YfiOut :=
  let n := blkCh a
  let w := fun (o : Nat) => leBytes 4 (s.rd o).toNat
  if 511 < n then yfiFail 2 s
  else
    (0, w (CH_CFG n) ++ w (CH_STAT n) ++ w (CH_EVT n) ++ zeros 4 ++ w (CH_DIGEST n 0) ++ w (CH_DIGEST n 1) ++ w (CH_DIGEST n 2)
      ++ w (CH_DIGEST n 3) ++ w (KB_ROLES n 0) ++ w (KB_EPOCH n 0) ++ w (KB_ROLES n 1) ++ w (KB_EPOCH n 1)
      ++ leBytes 8 (s.rd64 (CH_OUT_ASN_LO n)).toNat ++ leBytes 8 (s.rd64 (CH_IN_ASN_LO n)).toNat, s)

/-- CH_GET (R359). -/
def execChGet (m : Fin 16) (s : State) : Host.Outcome State Fault Refusal := .next (yfiRun 0x0304 m chGet s)

/-- CH_CUSTOMER's effect: whole words from its offset. -/
def customerApply (a : List Byte) (s : State) : State :=
  (List.range (le a 4 2 / 4)).foldl
    (fun s i => s.wr (CH_CUST (blkCh a) (le a 2 2 / 4 + i)) (BitVec.ofNat 32 (le a (8 + 4 * i) 4))) s

/-- CH_CUSTOMER as a configuration command (R359). -/
def customerCmd : CfgCmd :=
  { cfgPlain 0x030B 2 [] customerApply with
    fields := fun a => [(0, 2), (2, 2), (4, 2), (8, le a 4 2)]
    check := fun a _ => firstStatus [
      (!zeroAt a [(6, 2)] || decide (511 < blkCh a) || decide (252 < le a 2 2) || decide (le a 2 2 % 4 ≠ 0)
        || decide (le a 4 2 % 4 ≠ 0) || decide (256 < le a 2 2 + le a 4 2), 2)] }

/-- CH_CUSTOMER (R359). -/
def execChCustomer (m : Fin 16) (loftOk : Bool) (s : State) : Host.Outcome State Fault Refusal :=
  .next (cfgRun customerCmd m loftOk s)

end Sys2Proof.Machine
end

