-- ==== Sys2Proof/Machine/YfiGate.lean ====
section
/-!
DEFINITION. The Gate, punt, frame-send and calendar commands of YFI (spec/14 R358, R359, spec/05 R123 to R126, R137, spec/07
R172 to R174).
-/

namespace Sys2Proof.Machine

/-! ### Gates -/

/-- The program of a GATE_LOAD: its instructions in order. -/
def gateArg (a : List Byte) : List GateWord := (List.range (le a 2 2)).map (fun i => BitVec.ofNat 64 (le a (4 + 8 * i) 8))

/-- GATE_LOAD's effect (R123): the bank holds the program and is valid. -/
def gateLoadApply (a : List Byte) (s : State) : State :=
  let g := at' a 0
  let b := at' a 1
  let s : State := { s with gateProg := tblSet [] (2 * g + b) (gateArg a) s.gateProg }
  s.setF (if b = 1 then GATE_BANK_VALID1 g else GATE_BANK_VALID0 g) 1

/-- GATE_LOAD as a configuration command (R359). -/
def gateLoadCmd : CfgCmd :=
  { cfgPlain 0x0305 1 [] gateLoadApply with
    fields := fun a => [(0, 1), (1, 1), (2, 2), (4, 8 * le a 2 2)]
    check := fun a s => firstStatus [
      (decide (7 < at' a 0) || decide (1 < at' a 1), 2),
      (s.isSet (GATE_CFG_EN (at' a 0)) && decide (s.getF (GATE_CFG_ACTIVE (at' a 0)) = at' a 1), 1),
      (!gateCheck (gateArg a), 2)] }

/-- GATE_LOAD (R123). -/
def execGateLoad (m : Fin 16) (loftOk : Bool) (s : State) : Host.Outcome State Fault Refusal :=
  .next (cfgRun gateLoadCmd m loftOk s)

/-- An entry of a GATE_TABLE: 64 bytes (R358). -/
def tblEntry (a : List Byte) (i : Nat) : List Byte := slice a (4 + 64 * i) 64

/-- The entry as the Gate holds it. -/
def tblGate (e : List Byte) : GateEntry :=
  { index := le e 4 2, tag := at' e 2, key := BitVec.ofNat 128 (le e 8 16), mask := BitVec.ofNat 128 (le e 24 16),
    action := BitVec.ofNat 32 (le e 40 4), bad := false }

/-- Two exact entries with one tag and key. -/
def sameKey (x y : GateEntry) : Bool := decide (x.tag = y.tag) && decide (x.key = y.key)

/-- Ternary entries with one put at its index, in rising order. -/
def ternPut (e : GateEntry) : List GateEntry → List GateEntry
  | [] => [e]
  | x :: r => if e.index < x.index then e :: x :: r else if e.index = x.index then e :: r else x :: ternPut e r

/-- One entry is written or removed (R124, R125, R358): a status, and the state after it. -/
def tblWrite (g : Nat) (e : List Byte) (s : State) : Nat × State :=
  let x := tblGate e
  let ex := tblGet [] g s.gateExact
  let te := tblGet [] g s.gateTern
  if 1 < at' e 0 ∨ 1 < at' e 1 ∨ 15 < x.tag ∨ 255 < x.index ∨ (at' e 0 = 0 ∧ (x.index ≠ 0 ∨ x.mask ≠ 0)) then (2, s)
  else if at' e 0 = 1 then
    let t := if at' e 1 = 1 then ternPut x te else te.filter (fun y => y.index ≠ x.index)
    (0, { s with gateTern := tblSet [] g t s.gateTern })
  else
    let rest := ex.filter (fun y => !sameKey y x)
    if at' e 1 = 1 ∧ 4096 ≤ rest.length then (8, s)
    else
      let t := if at' e 1 = 1 then rest ++ [x] else rest
      (0, ({ s with gateExact := tblSet [] g t s.gateExact }).setF (GATE_STAT_EXACT_USED g) t.length)

/-- Entries written in argument order up to the first that is refused (R358): its status, how many were written, the state. -/
def tblWriteAll (g : Nat) : List (List Byte) → State → Nat × Nat × State
  | [], s => (0, 0, s)
  | e :: r, s =>
    let x := tblWrite g e s
    if x.1 ≠ 0 then (x.1, 0, s)
    else
      let y := tblWriteAll g r x.2
      (y.1, y.2.1 + 1, y.2.2)

/-- The run of a GATE_TABLE's entries. -/
def tblRun (a : List Byte) (s : State) : Nat × Nat × State :=
  tblWriteAll (at' a 0) ((List.range (at' a 1)).map (tblEntry a)) s

/-- Bytes of an entry that are reserved are 0 (R350). -/
def tblReservedOk (e : List Byte) : Bool := zeroAt e [(3, 1), (6, 2), (44, 20)]

/-- GATE_TABLE as a configuration command (R358, R359). -/
def gateTableCmd : CfgCmd :=
  { cfgPlain 0x0306 1 [] (fun a s => (tblRun a s).2.2) with
    fields := fun a => [(0, 1), (1, 1), (4, 64 * at' a 1)]
    check := fun a _ => firstStatus [
      (!zeroAt a [(2, 2)] || decide (7 < at' a 0) || !((List.range (at' a 1)).all (fun i => tblReservedOk (tblEntry a i))), 2)]
    idle := fun a s => decide ((tblRun a s).2.1 = 0)
    rsp := fun a s => some ((tblRun a s).1, leBytes 4 (tblRun a s).2.1) }

/-- GATE_TABLE (R358). -/
def execGateTable (m : Fin 16) (loftOk : Bool) (s : State) : Host.Outcome State Fault Refusal :=
  .next (cfgRun gateTableCmd m loftOk s)

/-- GATE_SWITCH's effect (R126): the Gate's fields change at the change beat. -/
def gateSwitchApply (a : List Byte) (s : State) : State :=
  { s with changes := s.changes ++ [(BitVec.ofNat 48 (le a 8 8), .gate (at' a 0) (at' a 1 + 256 * at' a 2))] }

/-- GATE_SWITCH as a configuration command (R359). -/
def gateSwitchCmd : CfgCmd :=
  { cfgPlain 0x0307 1 [(0, 1), (1, 1), (2, 1)] gateSwitchApply with
    check := fun a s =>
      let g := at' a 0
      firstStatus [
        (!zeroAt a [(3, 5)] || decide (7 < g) || decide (7 < at' a 1) || decide (7 < at' a 2), 2),
        (argBit a 1 1 = 1 && !(if argBit a 1 0 = 1 then s.isSet (GATE_BANK_VALID1 g) else s.isSet (GATE_BANK_VALID0 g)), 2),
        (true, (changeBeat a 8 s).1)]
    resolve := nameBeat 8
    rsp := fun a _ => some (0, slice a 8 8) }

/-- GATE_SWITCH (R126). -/
def execGateSwitch (m : Fin 16) (loftOk : Bool) (s : State) : Host.Outcome State Fault Refusal :=
  .next (cfgRun gateSwitchCmd m loftOk s)

/-! ### Punt queues and frames in clear -/

/-- PUNT_QUEUE's effect (R137): a queue whose setting changes starts again at index 0. -/
def puntApply (a : List Byte) (s : State) : State :=
  let p := s.puntQ (at' a 0)
  let x : PuntQueue :=
    { PuntQueue.reset with
      en := decide (argBit a 1 0 = 1), descs := le a 2 2, size := le a 4 4, ring := le a 8 8, idx := le a 16 8 }
  if { p with prod := 0, fullBeat := none } = x then s
  else { s with punt := tblSet PuntQueue.reset (at' a 0) x s.punt }

/-- PUNT_QUEUE as a configuration command (R359). The ranges bind a queue that is enabled. -/
def puntCmd : CfgCmd :=
  { cfgPlain 0x0308 1 [(0, 1), (1, 1), (2, 2), (4, 4), (8, 8), (16, 8)] puntApply with
    check := fun a s =>
      let q := at' a 0
      firstStatus [
        (decide (7 < q) || decide (1 < at' a 1), 2),
        (argBit a 1 0 = 1 && (decide (le a 2 2 < 64) || decide (4096 < le a 2 2) || decide (le a 4 4 < 9664)
          || decide (65536 < le a 4 4) || decide (le a 4 4 % 64 ≠ 0) || decide (le a 8 8 % 4096 ≠ 0)), 2),
        (decide (argBit a 1 0 = 0) && (List.range 8).any (fun g => s.isSet (GATE_CFG_EN g) && s.isSet (GATE_CFG_UNMATCHED g)
          && decide (s.getF (GATE_CFG_UNM_Q g) = q)), 5)] }

/-- PUNT_QUEUE (R359). -/
def execPuntQueue (m : Fin 16) (loftOk : Bool) (s : State) : Host.Outcome State Fault Refusal :=
  .next (cfgRun puntCmd m loftOk s)

/-- FRAME_SEND (R359): in clear, with its FCS and no ASN. A plain-side port sends it at the next frame boundary; on a
cipher-side port it waits behind what R149 sends first. -/
def execFrameSend (m : Fin 16) (s : State) : Host.Outcome State Fault Refusal :=
  let m := m.val
  if !yfiReady s 0x0309 m then .next s
  else
    let a := mbArg s m
    let k := at' a 0
    let st := firstStatus [
      (!zeroAt a [(1, 1), (4, 4)] || decide (63 < k), 2),
      (decide (s.portFam k ≠ 0) || (decide (32 ≤ k) && s.isSet (CELL_PORT_CFG_EN (k - 32))), 2),
      (!s.portUp k, 3)]
    let x := (k, m, slice a 8 (le a 2 2))
    if st ≠ 0 then .next (mbDone m st [] s)
    else if k < 32 then .next (clearSent x s)
    else .next ({ s with clearTx := s.clearTx ++ [x] }.setF (MB_STATUS_STATE m) 2)

/-! ### Calendars -/

/-- Calendar entries of a CELL_CALENDAR written from its first one. -/
def calPut (c cal j : Nat) : List Nat → State → State
  | [], s => s
  | v :: r, s =>
    let f := if j % 2 = 0 then CELL_CAL_ENTRY_EVEN c cal (j / 2) else CELL_CAL_ENTRY_ODD c cal (j / 2)
    calPut c cal (j + 1) r (s.setF f v)

/-- The calendar as written by a CELL_CALENDAR: entries, length, then EN (R162, R172). -/
def calendarWrite (a : List Byte) (s : State) : State :=
  let c := at' a 0
  let cal := at' a 1
  let s := calPut c cal (le a 12 2) ((List.range (le a 14 2)).map (fun i => le a (16 + 2 * i) 2)) s
  let s := s.setF (if cal = 1 then CELL_PORT_CFG_LEN1 c else CELL_PORT_CFG_LEN0 c) (at' a 2)
  if argBit a 3 1 = 1 then cellEnWrite c (decide (argBit a 3 0 = 1)) s else gapRefreshPort c s

/-- CELL_CALENDAR's effect (R172, R173). -/
def calendarApply (a : List Byte) (s : State) : State :=
  let s := calendarWrite a s
  let b : Beat := BitVec.ofNat 48 (le a 4 8)
  if argBit a 3 2 = 1 then
    calArmWrite (at' a 0) b ((s.wr (CELL_SW_BEAT_LO (at' a 0)) (b.truncate 32)).wr (CELL_SW_BEAT_HI (at' a 0)) ((b >>> 32).truncate 32))
  else s

/-- Would the arm be taken? (R173) -/
def calArmOk (c : Nat) (cal : Nat) (b : Nat) (s : State) : Bool :=
  let ahead := (BitVec.ofNat 48 b - s.beat).toNat
  decide (b < 2 ^ 48) && s.isSet (CELL_PORT_CFG_EN c) && decide (cal ≠ s.getF (CELL_PORT_CFG_ACTIVE c)) && calOk s c cal
    && decide (16 ≤ ahead) && decide (ahead < 2 ^ 47)

/-- CELL_CALENDAR as a configuration command (R359). -/
def calendarCmd : CfgCmd :=
  { cfgPlain 0x030A 1 [] calendarApply with
    fields := fun a => [(0, 1), (1, 1), (2, 1), (3, 1), (12, 2), (14, 2), (16, 2 * le a 14 2)]
    check := fun a s =>
      let c := at' a 0
      let cal := at' a 1
      let lenNow := if cal = 1 then s.getF (CELL_PORT_CFG_LEN1 c) else s.getF (CELL_PORT_CFG_LEN0 c)
      firstStatus [
        (decide (31 < c) || decide (1 < cal) || decide (12 < at' a 2) || decide (7 < at' a 3), 2),
        (decide (2 ^ at' a 2 < le a 12 2 + le a 14 2), 2),
        ((List.range (le a 14 2)).any (fun i => decide (1023 < le a (16 + 2 * i) 2)), 2),
        (!calWritable s c cal && (decide (0 < le a 14 2) || decide (at' a 2 ≠ lenNow)), 1),
        (argBit a 3 1 = 1 && s.isSet (PORT_CFG_EN (32 + c)), 5),
        (argBit a 3 2 = 1 && decide (s.getF POS_STAT_STATE = 0), 0x0C),
        (argBit a 3 2 = 1 && !calArmOk c cal (le a 4 8) (calendarWrite a s), 2)] }

/-- CELL_CALENDAR (R359). -/
def execCellCalendar (m : Fin 16) (loftOk : Bool) (s : State) : Host.Outcome State Fault Refusal :=
  .next (cfgRun calendarCmd m loftOk s)

end Sys2Proof.Machine
end

