-- ==== Sys2Proof/Machine/YfiKeys.lean ====
section
/-!
DEFINITION. The identity and key commands of YFI (spec/14 R361 to R363, spec/09 R228 to R246), and the Loft's completions that a
KEY_INSTALL waits for.
-/

namespace Sys2Proof.Machine

/-- KEK 0 has been derived, so a command that needs it can run (R245). -/
def kek0Ok (s : State) : Bool := s.isSet TR_STAT_SK_OK

/-- Loft words of a command that is not a configuration command are taken and persist (R550, R552): the state to go on from,
or the status it ends with. -/
def loftPay (words : Nat) (loftOk : Bool) (s : State) : Option State × Nat :=
  match loftTake words s with
  | none => (none, 0x0B)
  | some t => if loftOk then (some t, 0) else (none, 0x01)

/-! ### Identity (R363, R533) -/

/-- ID_GENERATE (R246, R363, R533): a new identity from 32 random bytes; no certificate stands any longer. `fails` tells whether
the pairwise consistency test failed. -/
def idGenerate (fails loftOk : Bool) (_ : List Byte) (s : State) : YfiOut :=
  if s.chans.any (fun e => s.chOpen e.1 && s.isSet (BR_CFG_EN e.1)) then yfiFail 5 s
  else if !kek0Ok s || s.noRandom then yfiFail 3 s
  else
    let p := s.draw
    let seed := beBytes 32 p.1
    let pub := bytesOf 2592 (Config.mldsaPub seed)
    if fails then (4, [], bellPulse 854 (p.2.report unitFarrier 0x0F04 noPath 6))
    else match loftPay 330 loftOk p.2 with
      | (none, st) => yfiFail st (budgetSeen st s)
      | (some s, _) =>
        let s := loftStore 0x1000 pub s
        let s := loftStore 0x1A48 (zeros 8) (loftStore 0x1A20 (wrap (s.kek 0) seed) s)
        let s : State := { s with tack := { s.tack with idSeed := seed, idPub := pub, cert := [], certOk := false } }
        let s := (s.setF TR_STAT_ID_VALID 1).setF TR_STAT_ZEROISED 0
        (0, sha pub, loftFlags (s.isSet TR_STAT_ERASE_PEND) false s)

/-- ID_GENERATE (R363). -/
def execIdGenerate (m : Fin 16) (fails loftOk : Bool) (s : State) : Host.Outcome State Fault Refusal :=
  .next (yfiRun 0x0501 m (idGenerate fails loftOk) s)

/-- ID_CERT (R363): the certificate's subject key must be the device's. -/
def idCert (loftOk : Bool) (a : List Byte) (s : State) : YfiOut :=
  if !s.isSet TR_STAT_ID_VALID then yfiFail 3 s
  else if !Config.certHolds a s.tack.idPub then yfiFail 4 s
  else match loftPay ((a.length + 7) / 8 + 1) loftOk s with
    | (none, st) => yfiFail st (budgetSeen st s)
    | (some s, _) =>
      let s := loftStore 0x1A48 (leBytes 8 a.length) (loftStore 0x1A50 a s)
      (0, [], { s with tack := { s.tack with cert := a, certOk := true } })

/-- ID_CERT (R363). -/
def execIdCert (m : Fin 16) (loftOk : Bool) (s : State) : Host.Outcome State Fault Refusal :=
  .next (yfiRun 0x0502 m (idCert loftOk) s)

/-- ID_GET of one selector: another selector's command is left; a selector that is neither ends with BAD_ARG. -/
def idGet (l : List Byte) (ok : Bool) (a : List Byte) (s : State) : YfiOut :=
  if 1 < at' a 0 then yfiFail 2 s else if ok then (0, l, s) else yfiFail 3 s

/-- ID_GET_KEY (R363): selector 0. -/
def execIdGetKey (m : Fin 16) (s : State) : Host.Outcome State Fault Refusal :=
  if at' (mbArg s m.val) 0 ≠ 1 then .next (yfiRun 0x0503 m (idGet s.tack.idPub (s.isSet TR_STAT_ID_VALID)) s) else .next s

/-- ID_GET_CERT (R363): selector 1. -/
def execIdGetCert (m : Fin 16) (s : State) : Host.Outcome State Fault Refusal :=
  if at' (mbArg s m.val) 0 = 1 then .next (yfiRun 0x0503 m (idGet s.tack.cert (!s.tack.cert.isEmpty)) s) else .next s

/-! ### Key-encrypting keys (R230, R361) -/

/-- May KEK k wrap for the host? (R228, R230) -/
def kekUsable (s : State) (k : Nat) : Bool := decide (1 ≤ k) && decide (k ≤ 15) && kekValid s k

/-- A KEK is installed and kept in the Loft wrapped under KEK 0 (R215, R547). -/
def kekStore (k : Nat) (v : List Byte) (s : State) : State := loftStore (0x3000 + 64 * k) (wrap (s.kek 0) v) (setKek k v s)

/-- KEK_INSTALL (R363); with its engine withdrawn it fails, as every command here that needs one does (R529). -/
def kekInstall (loftOk : Bool) (a : List Byte) (s : State) : YfiOut :=
  let k := at' a 0
  if !keysReady s then yfiFail 3 s
  else if !zeroAt a [(2, 6)] || decide (k = 0) || decide (15 < k) || !kekUsable s (at' a 1) then yfiFail 2 s
  else if !engineOk s 0 then yfiFail 4 s
  else match unwrap (s.kek (at' a 1)) (slice a 8 40) with
    | none => yfiFail 4 (unwrapFailed s)
    | some v => match loftPay 5 loftOk s with
      | (none, st) => yfiFail st (budgetSeen st s)
      | (some t, _) => (0, [], kekStore k v t)

/-- KEK_INSTALL (R363). -/
def execKekInstall (m : Fin 16) (loftOk : Bool) (s : State) : Host.Outcome State Fault Refusal :=
  .next (yfiRun 0x0504 m (kekInstall loftOk) s)

/-- What the device signs in a KEM offer, and the signature (R361). -/
def kemSignature (s : State) (k seed : Nat) : List Byte :=
  bytesOf 4627 (Config.mldsaSign s.tack.idSeed (ascii "DZ8512 kek" ++ [BitVec.ofNat 8 k] ++ bytesOf 1568 (Config.mlkemPub seed)))

/-- KEK_KEM_OFFER, part 0 (R361, R533): a fresh pair replaces any that is pending. `fails` tells whether the pairwise
consistency test failed. -/
def kemOffer (fails : Bool) (a : List Byte) (s : State) : YfiOut :=
  let k := at' a 0
  if !keysReady s || s.noRandom then yfiFail 3 s
  else if k = 0 ∨ 15 < k ∨ 1 < at' a 1 then yfiFail 2 s
  else
    let p := s.draw
    if fails then yfiFail 4 { p.2 with tack := { p.2.tack with kemPair := none } }
    else
      (0, bytesOf 1568 (Config.mlkemPub p.1) ++ (kemSignature s k p.1).take 2496,
        { p.2 with tack := { p.2.tack with kemPair := some (k, p.1) } })

/-- KEK_KEM_OFFER (R361): part 0, or a part that is neither 0 nor 1. -/
def execKekKemOffer (m : Fin 16) (fails : Bool) (s : State) : Host.Outcome State Fault Refusal :=
  if at' (mbArg s m.val) 1 ≠ 1 then .next (yfiRun 0x0505 m (kemOffer fails) s) else .next s

/-- KEK_KEM_OFFER, part 1 (R361). -/
def kemOfferRest (a : List Byte) (s : State) : YfiOut :=
  let k := at' a 0
  if !keysReady s then yfiFail 3 s
  else if k = 0 ∨ 15 < k then yfiFail 2 s
  else match s.tack.kemPair with
    | some (j, seed) => if j = k then (0, (kemSignature s k seed).drop 2496, s) else yfiFail 3 s
    | none => yfiFail 3 s

/-- KEK_KEM_OFFER_PART1 (R361). -/
def execKekKemOfferPart1 (m : Fin 16) (s : State) : Host.Outcome State Fault Refusal :=
  if at' (mbArg s m.val) 1 = 1 then .next (yfiRun 0x0505 m kemOfferRest s) else .next s

/-- The pending pair is discarded (R230, R361). -/
def kemDrop (s : State) : State := { s with tack := { s.tack with kemPair := none } }

/-- KEK_KEM_PAIR_EXPIRY (R361): 60 s have passed. -/
def execKekKemPairExpiry (s : State) : Host.Outcome State Fault Refusal := .next (kemDrop s)

/-- KEK_KEM_FINISH (R230, R361, R363). -/
def kemFinish (loftOk : Bool) (a : List Byte) (s : State) : YfiOut :=
  let k := at' a 0
  if !keysReady s then yfiFail 3 s
  else if !zeroAt a [(1, 7)] || decide (k = 0) || decide (15 < k) then yfiFail 2 s
  else match s.tack.kemPair with
    | some (j, seed) =>
      if j ≠ k then yfiFail 3 s
      else if !engineOk s 0 || !engineOk s 1 then yfiFail 4 s
      else match loftPay 5 loftOk s with
        | (none, st) => yfiFail st (budgetSeen st (kemDrop s))
        | (some t, _) =>
          let ss := bytesOf 32 (Config.mlkemDecSecret seed (slice a 8 1568))
          (0, [], kemDrop (kekStore k (kdf ss (ascii "DZ8512 kek" ++ [BitVec.ofNat 8 k]) 32) t))
    | none => yfiFail 3 s

/-- KEK_KEM_FINISH (R363). -/
def execKekKemFinish (m : Fin 16) (loftOk : Bool) (s : State) : Host.Outcome State Fault Refusal :=
  .next (yfiRun 0x0506 m (kemFinish loftOk) s)

/-! ### Pairings (R218, R228) -/

/-- PAIR_INSTALL (R363). -/
def pairInstall (loftOk : Bool) (a : List Byte) (s : State) : YfiOut :=
  let p := at' a 0
  if !keysReady s then yfiFail 3 s
  else if !zeroAt a [(4, 4)] || decide (31 < p) || decide (1 < at' a 1) || decide (at' a 2 = 0) || decide (15 < at' a 2)
      || decide (1 < at' a 3) then yfiFail 2 s
  else if s.chans.any (fun e => s.chOpen e.1 && s.isSet (BR_CFG_EN e.1) && decide (s.getF (BR_CFG_PAIR e.1) = p)) then yfiFail 5 s
  else if !engineOk s 0 then yfiFail 4 s
  else match unwrap (s.kek (at' a 2)) (slice a 8 40) with
    | none => yfiFail 4 (unwrapFailed s)
    | some v => match loftPay 12 loftOk s with
      | (none, st) => yfiFail st (budgetSeen st s)
      | (some t, _) =>
        let x : Pairing := { secret := v, roleB := at' a 1 = 1, mate := at' a 3 = 1, hash := slice a 48 48 }
        let t := loftStore (0x3400 + 128 * p)
          (wrap (t.kek 0) v ++ slice a 48 48 ++ [BitVec.ofNat 8 (at' a 1 + 2 * at' a 3)] ++ zeros 7) t
        (0, [], setPairing p x t)

/-- PAIR_INSTALL (R363). -/
def execPairInstall (m : Fin 16) (loftOk : Bool) (s : State) : Host.Outcome State Fault Refusal :=
  .next (yfiRun 0x0507 m (pairInstall loftOk) s)

/-! ### Host keys (R225, R227, R238, R241 to R244, R362) -/

/-- The blob area a persisted install takes: the one that does not hold the current key (R241, R547). -/
def freeArea (s : State) (n : Nat) : Nat :=
  let holds := s.isSet (KB_ROLES_CUR_V n 0) && decide (be (s.loftBytes (0x18000 + 128 * n) 64) 56 4 = s.getF (KB_EPOCH_EPOCH n 0))
    && decide (le (s.loftBytes (0x18000 + 128 * n) 64) 60 1 % 2 = 1)
  if holds then 1 else 0

/-- A key's blob in the Loft (R241, R547). -/
def blobStore (n an epoch : Nat) (l : List Byte) (s : State) : State :=
  loftStore (0x18000 + 128 * n + 64 * freeArea s n)
    (wrap (s.kek 0) (slice l 0 46 ++ [BitVec.ofNat 8 an, 0]) ++ beBytes 4 epoch ++ [1] ++ zeros 3) s

/-- A beat of KEY_INSTALL's argument. -/
def argBeat (a : List Byte) (o : Nat) : Beat := BitVec.ofNat 48 (le a o 8)

/-- What refuses a KEY_INSTALL before its blob is unwrapped (R246, R362). -/
def keyInstallBad (a : List Byte) (s : State) : Nat :=
  let n := le a 0 2
  let out := argBit a 3 0 = 1
  let win := argBit a 3 1 = 1
  let pers := argBit a 3 2 = 1
  firstStatus [
    (!zeroAt a [(5, 3)] || decide (511 < n) || decide (7 < at' a 3) || decide (3 < at' a 4), 2),
    (!keysReady s, 3),
    (s.hwKeys n || !kekUsable s (at' a 2) || (decide (s.chMode n ≠ 0) && decide (at' a 4 ≠ 0)), 2),
    ((out || win) && decide (s.getF POS_STAT_STATE = 0), 0x0C),
    (out && (decide (2 ^ 48 ≤ le a 80 8) || beatBefore (argBeat a 80) (earliestSwitch s n)), 2),
    (win && (decide (2 ^ 48 ≤ le a 88 8) || decide (2 ^ 48 ≤ le a 96 8) || beatBefore (argBeat a 96) (argBeat a 88)), 2),
    (pers && (decide (s.chMode n ≠ 0) || decide (s.getF (FRM_POL_LO_SUITE n) < 2)), 2)]

/-- Persisted installs come `PERSIST_MIN` milliseconds apart (R243). -/
def persistSoon (s : State) (n : Nat) : Bool :=
  match (s.chan n).lastPersist with
  | some t => decide (s.now < t + s.getF TR_CFG_PERSIST_MIN * ticksPerMs)
  | none => false

/-- An armed inbound window and its mark (R238, R244). -/
def armWindow (n epoch : Nat) (lo hi : Beat) (s : State) : State :=
  issueMark n 1 epoch lo (s.modChan n (fun c => { c with window := some (epoch, lo, hi) }))

/-- KEY_INSTALL's completion response (R362). -/
def installRsp (out win : Bool) (epoch slot : Nat) : List Byte :=
  leBytes 4 (if out then epoch else 0) ++ leBytes 4 (if win then epoch else 0) ++ leBytes 2 slot ++ zeros 6

/-- An install whose marks have all persisted, and whose switch is armed, completes (R362). -/
def installsEnd (s : State) : State :=
  let go := s.ym.installs.filter (fun x => x.arm.isNone && x.marks.isEmpty)
  go.foldl (fun s x => mbDone x.box 0 x.rsp s)
    { s with ym := { s.ym with installs := s.ym.installs.filter (fun x => !(x.arm.isNone && x.marks.isEmpty)) } }

/-- The effect of a KEY_INSTALL whose blob has been unwrapped (R225, R238, R241, R244). -/
def keyInstalled (m : Nat) (a p : List Byte) (s : State) : State :=
  let n := le a 0 2
  let out : Bool := argBit a 3 0 = 1
  let win : Bool := argBit a 3 1 = 1
  let pers : Bool := argBit a 3 2 = 1
  let e := nextEpoch s n
  let i := s.getF (KB_ROLES_SPARE_SLOT n 0)
  let an := if s.chMode n = 0 then at' a 4 else e % 4
  let s := s.setSlot (slotOf n i)
    { kind := 2, bytes := p.take 46, epoch := e, an := an, keyId := slice a 8 16, persist := pers, bad := false }
  let s := spareToNext n (slotsRefresh s)
  let s := if pers then (blobStore n an e p s).modChan n (fun c => { c with lastPersist := some s.now }) else s
  let s := if win then armWindow n e (argBeat a 88) (argBeat a 96) s else s
  let late := out && !slotShared s n i
  let s := if out && !late then beginSwitch n e (argBeat a 80) true s else s
  let x : Install :=
    { box := m, ch := n, slot := i, epoch := e, arm := if late then some (argBeat a 80) else none,
      marks := (if out && !late then [0] else []) ++ (if win then [1] else []), rsp := installRsp out win e i }
  let s := s.setF (MB_STATUS_STATE m) 2
  installsEnd { s with ym := { s.ym with installs := s.ym.installs ++ [x] } }

/-- The run of a KEY_INSTALL (R362). -/
def keyInstallRun (m : Nat) (loftOk : Bool) (s : State) : State :=
  if !yfiReady s 0x0508 m then s
  else
    let a := mbArg s m
    let n := le a 0 2
    let st := keyInstallBad a s
    if st ≠ 0 then (mbDone m st [] s)
    else if !engineOk s 0 then (mbDone m 4 [] s)
    else match unwrap (s.kek (at' a 2)) (slice a 24 56) with
      | none => (mbDone m 4 [] (unwrapFailed s))
      | some p =>
        if nextLocked s n then (mbDone m 1 [] s)
        else if argBit a 3 2 = 1 && persistSoon s n then (mbDone m 0x0B [] s)
        else if argBit a 3 2 = 1 && !loftOk then (mbDone m 1 [] s)
        else match takeSpare n s with
          | (none, s) => (mbDone m 8 [] s)
          | (some (_, s), _) => keyInstalled m a p s

/-- KEY_INSTALL (R362): `loftOk` tells whether a blob persists. -/
def execKeyInstall (m : Fin 16) (loftOk : Bool) (s : State) : Host.Outcome State Fault Refusal := .next (keyInstallRun m.val loftOk s)

/-- A mark has persisted, or failed: the installs that wait for it. A failed mark of a window is written again. -/
def markSeen (e : LoftWrite) (ok : Bool) (s : State) : State :=
  match e.wait with
  | .mark n d ep =>
    let hit := fun (x : Install) => decide (x.ch = n) && decide (x.epoch = ep) && x.marks.contains d
    if ok then
      installsEnd { s with ym := { s.ym with
        installs := s.ym.installs.map (fun x => if hit x then { x with marks := x.marks.filter (· ≠ d) } else x) } }
    else if decide (d = 1) && s.ym.installs.any hit then loftEnqueue e.word e.value true e.wait s
    else s
  | _ => s

/-- LOFT_WRITE_DONE (R549, R550): the next queued word has been programmed; `fails` is how many verifications failed. -/
def execLoftWriteDone (fails : Nat) (s : State) : Host.Outcome State Fault Refusal :=
  match loftNext s.loftQ with
  | none => .next s
  | some (e, q) =>
    let s : State := { s with loftQ := q }
    let s := s.setF LOFT_STAT_QUEUE (min q.length 64)
    if fails < 3 then
      .next (markSeen e true (loftPersisted e.wait (wearMany fails e.word (loftProgram e.word e.value s))))
    else
      let s := wearMany 3 e.word s
      let p := s.draw
      let s := if p.1 % 3 = 0 then p.2
        else if p.1 % 3 = 1 then p.2.stLE (loftBase + 8 * e.word) 8 e.value.toNat
        else { p.2 with loftBad := e.word :: p.2.loftBad }
      .next (markSeen e false (loftFailed e ((s.setF LOFT_STAT_VFAIL 1).report 0x15 0x0E04 noPath (8 * e.word))))

/-- KEY_EXPORT (R231, R363). -/
def keyExport (a : List Byte) (s : State) : YfiOut :=
  let n := le a 0 2
  let r := at' a 2
  let f := if r = 0 then (KB_ROLES_CUR_V n 0, KB_ROLES_CUR_SLOT n 0) else if r = 1 then (KB_ROLES_NEXT_V n 0, KB_ROLES_NEXT_SLOT n 0)
    else (KB_ROLES_PREV_V n 0, KB_ROLES_PREV_SLOT n 0)
  let x := s.slot (slotOf n (s.getF f.2))
  if 511 < n ∨ 2 < r then yfiFail 2 s
  else if !s.isSet TR_CFG_EXPORT_EN then yfiFail 4 s
  else if !s.isSet f.1 || decide (x.kind = 0) || !kekUsable s (at' a 3) then yfiFail 2 s
  else if !engineOk s 0 then yfiFail 4 s
  else (0, wrap (s.kek (at' a 3)) (slice x.bytes 0 46 ++ [0, 0]), s)

/-- KEY_EXPORT (R231). -/
def execKeyExport (m : Fin 16) (s : State) : Host.Outcome State Fault Refusal := .next (yfiRun 0x0509 m keyExport s)

/-- KEY_POLICY's effect: `EXPORT_EN` is kept in bit 0 of the Loft's word of PERS fields (R547). -/
def keyPolicyApply (a : List Byte) (s : State) : State :=
  let s := s.setF TR_CFG_PERSIST_MIN (le a 2 2)
  if s.getF TR_CFG_EXPORT_EN = at' a 0 then s
  else
    let w := (s.loftWord 29).toNat
    loftProgram 29 (BitVec.ofNat 64 (w / 2 * 2 + at' a 0)) (s.setF TR_CFG_EXPORT_EN (at' a 0))

/-- KEY_POLICY as a configuration command (R363). -/
def keyPolicyCmd : CfgCmd :=
  { cfgPlain 0x050A 0 [(0, 1), (2, 2)] keyPolicyApply with
    words := fun a s => if s.getF TR_CFG_EXPORT_EN = at' a 0 then 0 else 1
    check := fun a _ => firstStatus [(!zeroAt a [(1, 1)] || decide (1 < at' a 0), 2)] }

/-- KEY_POLICY (R363). -/
def execKeyPolicy (m : Fin 16) (loftOk : Bool) (s : State) : Host.Outcome State Fault Refusal :=
  .next (cfgRun keyPolicyCmd m loftOk s)

/-- KEY_REKEY (R363): the exchange starts at once, and the schedule of R236 counts from it. -/
def keyRekey (a : List Byte) (s : State) : YfiOut :=
  let n := le a 0 2
  let c := s.chan n
  if 511 < n then yfiFail 2 s
  else if !s.hwKeys n then yfiFail 2 s
  else if !s.brUp n then yfiFail 3 s
  else if c.br.exch.isSome || c.swOut.isSome || c.swIn.isSome || nextLocked s n then yfiFail 1 s
  else
    let e := nextEpoch s n
    (0, leBytes 4 e, (startExchange n s).modChan n (fun c => { c with beginOut := s.beat }))

/-- KEY_REKEY (R363). -/
def execKeyRekey (m : Fin 16) (s : State) : Host.Outcome State Fault Refusal := .next (yfiRun 0x050B m keyRekey s)

end Sys2Proof.Machine
end

