-- ==== Sys2Proof/Machine/Power.lean ====
section
/-!
DEFINITION. Sheds, sleep, resets, boot and clocks (spec/24), and the pin FAULT_N with the ledger's Bell levels (spec/22 R516,
R520), which boot releases.
-/

namespace Sys2Proof.Machine

/-- Power as changed. -/
def State.modPower (s : State) (f : Power → Power) : State := { s with power := f s.power }

/-! ### FAULT_N and the levels of the ledger (R516, R520) -/

/-- Is a code of this class raised? -/
def classRaised (s : State) (c : Nat) : Bool := faultTable.any (fun e => decide (e.2.1 = c) && s.isSet (LEDGER_FSTATE_RAISED e.1))

/-- FAULT_N is low: before the firmware is ready, and while a code of an enabled class is raised (R516). -/
def faultNLow (s : State) : Bool :=
  decide (s.power.boot < 3) || [1, 2, 3].any (fun c => decide (s.getF LEDGER_CFG_FN_MASK / 2 ^ (c - 1) % 2 = 1) && classRaised s c)

/-- The pin follows the state table; it is an output only while the device drives its balls (R516, R534). -/
def faultPin (s : State) : State :=
  let low := faultNLow s
  if s.isSet LEDGER_STAT_FAULT_N_LOW = low then s
  else (s.setF LEDGER_STAT_FAULT_N_LOW low.toNat).emit (.pin "FAULT_N" (!low))

/-- Bell sources 721 to 725 (R520), and the pin. -/
def ledgerLines (s : State) : State :=
  let s := bellInput 723 (classRaised s 1) (bellInput 722 (classRaised s 2) (bellInput 721 (classRaised s 3) s))
  let th := s.getF LEDGER_CFG_THRESH
  let s := bellInput 724 (decide (th ≠ 0) && decide (th ≤ s.getF LEDGER_STAT_USED)) s
  faultPin (bellInput 725 (s.isSet LEDGER_STAT_DROPPED) s)

/-! ### Checks and commits (R537, R538) -/

/-- Bit k of a mask. -/
def maskBit (m k : Nat) : Bool := m / 2 ^ k % 2 = 1

/-- The shed that powers a Paddock owner, if one does (R458): Dray 2k and 2k + 1 by SHk, rail DMA group g by SH16 + g. -/
def ownerShed (id : Nat) : Option Nat :=
  if id < 32 then some (id / 2) else if 40 ≤ id ∧ id < 48 then some (id - 24) else none

/-- Some Paddock bank is owned by a requester that the shed powers. -/
def shedOwnsBank (s : State) (k : Nat) : Bool :=
  (List.range 512).any (fun (b : Nat) => ownerShed (s.getF (PADK_OWNER_OWNER b)) = some k)

/-- Stable-kernel cores in sheds that stay ON. -/
def stableLeft (s : State) (on : Nat) : Nat :=
  ((List.range 32).filter (fun (k : Nat) => s.shedOn (k / 2) && maskBit on (k / 2) && !s.isSet (DRAY_CTL_CUST k))).length

/-- Payload rate of the UP ports on the input side of a direction, in Mb/s (R538, R571). -/
def inputRate (s : State) (inbound : Bool) : Nat :=
  ((List.range 32).map (· + 32 * inbound.toNat)).foldl (fun (a : Nat) (k : Nat) => a + if s.portUp k then s.portRate k else 0) 0

/-- The rails that stay carry 1.125 times the input of their direction (R538). -/
def railsCarry (s : State) (on k : Nat) : Bool :=
  let inbound := decide (20 ≤ k)
  let r := ((railPool s inbound).filter (fun r => maskBit on (16 + r / 5))).length
  decide (9 * inputRate s inbound ≤ 8 * (r * 192000))

/-- An OPEN or CLOSING channel binds a port of the group, or the group holds the LINE lead port (R538). -/
def groupInUse (s : State) (g : Nat) : Bool :=
  s.chans.any (fun e => decide (s.chState e.1 ≠ 0) && (List.range 8).any (fun (i : Nat) => chanBinds s e.1 (g * 8 + i)))
    || (decide (s.getF POS_CFG_SRC = 0) && decide (s.getF POS_CFG_LEAD_PORT / 8 = g))

/-- A core of the cluster is RUNNING or WAITING. -/
def clusterRuns (s : State) (k : Nat) : Bool :=
  [2 * k, 2 * k + 1].any (fun (c : Nat) => decide (s.coreState c = 2) || decide (s.coreState c = 3))

/-- The checks of R538 on a shed that would go OFF while the mask `on` stays ON: 0, or the status of the first that fails. -/
def shedCheck (s : State) (on k : Nat) : Nat :=
  if k < 16 && clusterRuns s k then 5
  else if k < 16 && decide (stableLeft s on < 8) then 8
  else if 16 ≤ k && k < 24 && !railsCarry s on k then 8
  else if 24 ≤ k && groupInUse s (k - 24) then 5
  else if shedOwnsBank s k then 5
  else 0

/-- Sheds that a mask takes from ON to OFF, ascending; one in reset counts as ON. -/
def shedsGoing (s : State) (on : Nat) : List Nat :=
  (List.range 32).filter (fun (k : Nat) => (s.shedOn k || s.power.resets.contains k) && !maskBit on k)

/-- The first shed that fails its checks, with its status. -/
def shedRefusal (s : State) (on : Nat) : Option (Nat × Nat) :=
  ((shedsGoing s on).map (fun k => (k, shedCheck s on k))).find? (fun e => e.2 ≠ 0)

/-- The Bell sources that a cluster's cores have claimed are completed by hardware (R479, R539). -/
def clusterFinish (k : Nat) (s : State) : State := bellAutoFinish (2 * k + 1) (bellAutoFinish (2 * k) s)

/-- A shed enters DRAINING (R539): a cluster's claimed sources end, a port group's ports go DOWN. -/
def shedDrain (k : Nat) (s : State) : State :=
  let s := bellRefresh (s.setShed k 1)
  if k < 16 then clusterFinish k s else if 24 ≤ k then portRefreshGroup (k - 24) s else s

/-- A commit of PWR_SHED_REQ (R537): checked as a whole; refused, it changes nothing but PWR_EVT. -/
def shedCommit (v : Word) (s : State) : State :=
  let on := v.toNat
  match shedRefusal s on with
  | some (k, st) =>
    ((s.setF PWR_EVT_REQ_REFUSED 1).setF PWR_EVT_REF_SHED k).setF PWR_EVT_REF_KIND (if st = 8 then 1 else 0)
  | none =>
    let go := (shedsGoing s on).filter (fun k => s.shedOn k)
    let up := (List.range 32).filter (fun (k : Nat) => maskBit on k && !s.shedOn k && !s.power.resets.contains k)
    let s := (s.wr PWR_SHED_REQ v).modPower (fun p =>
      { p with want := up, rising := p.rising.bind (fun k => if up.contains k then some k else none) })
    go.foldl (fun s k => shedDrain k s) s

/-- PWR_SHED_REQ_WRITE (R537): a direct write by the token holder. -/
def pwrShedReqWriteAccess (r : Requester) (v : Word) (s : State) : State :=
  if isLeader s r then ((shedCommit v s).reply r .ok 0) else (leadRefuse r PWR_SHED_REQ s)

/-- PWR_SHED_REQ_WRITE, as a command. -/
def execPwrShedReqWrite (r : Requester) (v : Word) (s : State) : Host.Outcome State Fault Refusal :=
  .next (pwrShedReqWriteAccess r v s)

/-- The sheds that are ON. -/
def shedsOn (s : State) : Nat := (List.range 32).foldl (fun (a : Nat) (k : Nat) => a + (s.shedOn k).toNat * 2 ^ k) 0

/-- No shed that SHED_SET names has still to reach its new state (R537). -/
def shedsSettled (s : State) : Bool :=
  s.power.want.isEmpty && (List.range 32).all (fun (k : Nat) => decide (s.shedState k ≠ 1) || s.power.resets.contains k)

/-- SHED_SET completes once every shed it names has reached its new state (R537). -/
def shedSetDone (s : State) : State :=
  match s.ym.shedBox with
  | some m =>
    if shedsSettled s then mbDone m 0 (leBytes 4 (shedsOn s)) { s with ym := { s.ym with shedBox := none } } else s
  | none => s

/-! ### Power up and down (R539, R540) -/

/-- A core in a shed that has lost its contents. -/
def coreClear (k : Nat) (s : State) : State :=
  lmClear k ((s.setCore k { Core.reset with farSeq := (s.core k).farSeq }).setF (DRAY_CTL_RUN k) 0)

/-- Far accesses sent to other devices for a core are abandoned (R542). -/
def farAbandon (k : Nat) (s : State) : State :=
  { s with fab := { s.fab with reqs := s.fab.reqs.filter (fun r => !((r.typ = 1 || r.typ = 3) && r.req / 8 = k)) } }

/-- The drain of a shed is complete (R539): no far access of its cores is outstanding, no unit has blocks under way on its rails. -/
def shedDrained (s : State) (k : Nat) : Bool :=
  if k < 16 then [2 * k, 2 * k + 1].all (fun (c : Nat) => (s.core c).tags.all (fun e => !e.2.busy))
  else if k < 24 then
    s.units.all (fun u => match u.rail with
      | some r => decide (r / 5 ≠ k - 16) || decide (unitBlocks u ≤ u.blocks) || decide (s.chMode u.ch ≠ 0)
      | none => true)
  else true

/-- SHED_DRAIN_DONE (R539): the work of a DRAINING shed has left; it enters OFF, and Bell source 946 rises. -/
def execShedDrainDone (k : Fin 32) (s : State) : Host.Outcome State Fault Refusal :=
  let k := k.val
  if s.shedState k = 1 ∧ !s.power.resets.contains k ∧ shedDrained s k then
    let s := s.setShed k 0
    let s := if k < 16 then coreClear (2 * k + 1) (coreClear (2 * k) s) else s
    .next (shedSetDone (bellPulse 946 (s.setF PWR_EVT_SHED_OFF 1)))
  else .next s

/-- The time between two sheds: 50 µs (R540). -/
def shedGap : Nat := 37500

/-- SHED_POWER_UP (R540): the power switch of the lowest shed that waits closes, one at least 50 µs after the last. -/
def execShedPowerUp (s : State) : Host.Outcome State Fault Refusal :=
  let due := match s.power.last with
    | none => true
    | some t => decide (t + shedGap ≤ s.now)
  match s.power.rising, s.power.want.find? (fun k => s.shedState k = 0) with
  | none, some k => if due then .next (s.modPower (fun p => { p with rising := some k, last := some s.now })) else .next s
  | _, _ => .next s

/-- Cell and layer-1 channels bound to a port group are held after a reset of it (R81). -/
def groupHold (g : Nat) (s : State) : State :=
  let ns := s.liveChans.filter (fun n => s.chOpen n && (s.chMode n = 1 || s.chMode n = 2)
    && (List.range 8).any (fun (i : Nat) => chanBinds s n (g * 8 + i)))
  ns.foldl (fun s n => holdChan n (s.modChan n (fun c => { c with switched := false }))) s

/-- The ports of a group that nothing keeps DOWN enter ACQUIRE (R104, R540). -/
def groupAcquire (g : Nat) (s : State) : State :=
  (List.range 8).foldl (fun (s : State) (i : Nat) =>
    let k := g * 8 + i
    let s := portRefresh k s
    if s.portState k = 0 && (portReason s k).isNone then s.setF (PORT_STAT_STATE k) 1 else s) s

/-- The rails of a group: RL5g to RL5g + 4 (R536). -/
def groupRails (g : Nat) : List Nat := (List.range 5).map (· + 5 * g)

/-- A shed initialises itself (R540 step 3): local memories are cleared, rails have to be tested, ports enter ACQUIRE. -/
def shedInit (k : Nat) (s : State) : State :=
  if k < 16 then coreClear (2 * k + 1) (coreClear (2 * k) s)
  else if k < 24 then { s with untested := s.untested.filter (fun r => !(groupRails (k - 16)).contains r) ++ groupRails (k - 16) }
  else groupAcquire (k - 24) (groupHold (k - 24) s)

/-- A shed enters ON (R540): source 945, its initialisation, and the doorbells latched for it (R482). -/
def shedEnterOn (k : Nat) (s : State) : State :=
  bellShedOn k (shedInit k (bellPulse 945 ((s.setShed k 2).setF PWR_EVT_SHED_ON 1)))

/-- The shed whose power rises is no longer waited for. -/
def shedRisen (k : Nat) (s : State) : State :=
  s.modPower (fun p => { p with rising := none, want := p.want.filter (· ≠ k) })

/-- SHED_POWER_GOOD (R540): the switch reports power good within 50 µs. -/
def execShedPowerGood (s : State) : Host.Outcome State Fault Refusal :=
  match s.power.rising with
  | some k => .next (shedSetDone (shedEnterOn k (shedRisen k s)))
  | none => .next s

/-- PWR_SHED_FAIL (R537, R540): no power good within 50 µs: the shed stays OFF and its bit in PWR_SHED_REQ is cleared. -/
def execPwrShedFail (s : State) : Host.Outcome State Fault Refusal :=
  match s.power.rising with
  | some k =>
    let s := shedRisen k s
    let s := (s.setF ⟨PWR_SHED_REQ, k, k⟩ 0).setF PWR_EVT_SHED_FAIL 1
    .next (shedSetDone (bellPulse 949 (s.report unitPower 0x0D02 noPath k)))
  | none => .next s

/-! ### Shed reset (R542) -/

/-- The blocks under way on a group's rails fail the rail's own check (R542, R151). -/
def railsFail (g : Nat) (s : State) : State :=
  (List.range s.units.length).foldl (fun (s : State) (i : Nat) =>
    match s.units[i]? with
    | none => s
    | some u =>
      match u.rail with
      | none => s
      | some r =>
        if u.ch < 512 ∧ r / 5 = g ∧ u.blocks < unitBlocks u ∧ s.chMode u.ch = 0 ∧ !u.stomped then
          let v := if u.onLine then { u with stomped := true } else { u with blocks := 0, rail := none }
          railFault u.ch r { s with units := s.units.set i v }
        else s) s

/-- A shed is reset (R542): it counts as DRAINING while the reset is held; the work in it meets the outcomes of the table. -/
def shedReset (k : Nat) (s : State) : State :=
  if !s.shedOn k then s
  else
    let s := (s.setShed k 1).modPower (fun p => { p with resets := p.resets ++ [k] })
    if k < 16 then
      let s := farAbandon (2 * k + 1) (farAbandon (2 * k) s)
      let s := clusterFinish k (coreClear (2 * k + 1) (coreClear (2 * k) s))
      bellRefresh ((s.setF (DRAY_STAT_STATE (2 * k)) 1).setF (DRAY_STAT_STATE (2 * k + 1)) 1)
    else if k < 24 then railsFail (k - 16) s
    else groupHold (k - 24) (portRefreshGroup (k - 24) s)

/-- Several sheds are reset. -/
def shedResets (v : Nat) (s : State) : State :=
  (List.range 32).foldl (fun (s : State) (k : Nat) => if maskBit v k then shedReset k s else s) s

/-- PWR_SHED_RST_WRITE (R542): a 1 in bit s resets SHs; no effect where it is not ON. -/
def pwrShedRstWriteAccess (r : Requester) (v : Word) (s : State) : State :=
  if isLeader s r then ((shedResets v.toNat s).reply r .ok 0) else (leadRefuse r PWR_SHED_RST s)

/-- PWR_SHED_RST_WRITE, as a command. -/
def execPwrShedRstWrite (r : Requester) (v : Word) (s : State) : Host.Outcome State Fault Refusal :=
  .next (pwrShedRstWriteAccess r v s)

/-- SHED_RESET_END (R542): the hold ends, at most 2 µs after it began; the shed enters ON again and initialises itself. -/
def execShedResetEnd (k : Fin 32) (s : State) : Host.Outcome State Fault Refusal :=
  let k := k.val
  if s.power.resets.contains k then
    let s := s.modPower (fun p => { p with resets := p.resets.filter (· ≠ k) })
    let s := shedEnterOn k s
    .next (shedSetDone (if maskBit (s.getF PWR_SHED_REQ_ON) k then s else shedDrain k s))
  else .next s

/-! ### Sleep (R483, R502, R543) -/

/-- The conditions of sleep (R543). -/
def maySleep (s : State) : Bool :=
  s.ym.fwReady && decide (s.rd64 PWR_SHED_STAT_LO = 0) && s.power.want.isEmpty && !s.isSet FAB_CFG_EN
    && (List.range 512).all (fun (n : Nat) => !s.chOpen n)
    && (List.range 16).all (fun (m : Nat) => decide (s.getF (MB_STATUS_STATE m) ≠ 1) && decide (s.getF (MB_STATUS_STATE m) ≠ 2))

/-- SLEEP_ENTRY (R543): the conditions have held for 1 s and the firmware stops the clocks. -/
def execSleepEntry (s : State) : Host.Outcome State Fault Refusal :=
  if maySleep s && !s.power.asleep then
    let s := s.modPower (fun p => { p with asleep := true })
    .next (s.setF TALLY_STAT_LF_NOW ((List.range 128).any (onAonPath s)).toNat)
  else .next s

/-- WAKE_LATCH_CAPTURE (R483): an input changes while the clocks are stopped; the first transition that its sense catches is
latched, and with WAKE the clocks are asked for. -/
def execWakeLatchCapture (n : Nat) (level : Bool) (s : State) : Host.Outcome State Fault Refusal :=
  if s.clocksStopped && n < 1023 then
    let old := tblGet false n s.bell.inputs
    let hit := bellCatches s n old level && !s.isSet (SRC_CFG_LATCHED n)
    let s : State := { s with bell := { s.bell with inputs := tblSet false n level s.bell.inputs } }
    .next (if hit then latchEvent n s else s)
  else .next s

/-- Latched sources become pending as the clocks restart (R483); a doorbell whose HOME shed is not ON stays latched (R482). -/
def latchesOut (s : State) : State :=
  (List.range 1023).foldl (fun (s : State) (n : Nat) =>
    if bellHasLatch n && s.isSet (SRC_CFG_LATCHED n) then
      let home := s.getF (SRC_CFG_HOME n)
      if 960 ≤ n && decide (home ≠ 31) && !s.shedOn home then s
      else bellSetPend n true (s.setF (SRC_CFG_LATCHED n) 0)
    else s) s

/-- The clocks of the core domain run again: levels still asserted are seen, and the position unit is FREE (R483, R543). -/
def clocksRestart (s : State) : State :=
  let s := latchesOut (s.setF TALLY_STAT_LF_NOW 0)
  let s := (List.range 32).foldl (fun (s : State) (j : Nat) => bellRestoreLevels j s) s
  let s := s.modPos (fun p => { p with miss := 0, periods := [], beatLen := nominalBeat p.cur.cls })
  posEnter 0 (posQReset ((s.setF POS_STAT_SRC_OK 0).setF POS_STAT_FREQ_VALID 0))

/-- WAKE (R543): a latched capture with WAKE, a PCIe request. -/
def execWake (s : State) : Host.Outcome State Fault Refusal :=
  if s.power.asleep then .next (clocksRestart (s.modPower (fun p => { p with asleep := false }))) else .next s

/-! ### Resets (R544) -/

/-- What a reset of CORE and every shed leaves: the Loft, the pins and the inputs from outside; everything else is as
`State.reset` has it. -/
def afterReset (cause : Nat) (s : State) : State :=
  { State.reset with
    csr := [(PWR_RESET_CAUSE, BitVec.ofNat 32 cause)]
    mem := s.mem.filter (fun e => decide (loftBase ≤ e.1) && decide (e.1 < loftBase + 0x40000))
    wear := s.wear
    loftBad := s.loftBad
    loftWarned := s.loftWarned
    hostMem := s.hostMem
    now := s.now
    refLost := s.refLost
    sysLost := s.sysLost
    tack := { Tack.reset with zeroLow := s.tack.zeroLow, zeroVault := s.tack.zeroVault }
    power := { Power.reset with ftm := s.power.ftm, boundary := s.power.boundary, balls := s.power.balls }
    draws := s.draws
    outs := s.outs
    pending := s.pending }

/-- The highest wear is shown again from the counters, which every reset keeps (R547, R551). -/
def wearShow (s : State) : State := s.wear.foldl (fun s e => wearRefresh e.1 s) s

/-- FAULT_N is low from a reset until the firmware is ready (R516). -/
def resetDone (s : State) : State := faultPin (wearShow s)

/-- PORST (R544): AON logic, CORE and every shed; writes that have not been programmed are lost. -/
def execPorst (s : State) : Host.Outcome State Fault Refusal := .next (resetDone (afterReset 1 s))

/-- BROWNOUT (R544): VIN below its threshold resets as PORST_N does. -/
def execBrownout (s : State) : Host.Outcome State Fault Refusal := .next (resetDone (afterReset 4 s))

/-- WRST (R544): CORE and every shed; AON logic, the wake latches and the Loft keep what they hold, the token is withdrawn. -/
def execWrst (s : State) : Host.Outcome State Fault Refusal :=
  let t := afterReset 2 s
  let t : State := { t with loftQ := s.loftQ, ym := { t.ym with tried := s.ym.tried } }
  let t := t.setF LOFT_STAT_QUEUE (min s.loftQ.length 64)
  .next (resetDone ((List.range 1023).foldl (fun (t : State) (n : Nat) =>
    if bellHasLatch n && s.isSet (SRC_CFG_LATCHED n) then t.setF (SRC_CFG_LATCHED n) 1 else t) t))

/-- PERST (R544): the PCIe controller and link only. -/
def execPerst (s : State) : Host.Outcome State Fault Refusal := .next (s.modPower (fun p => { p with pcie := false }))

/-- PCIE_LINK_UP (R545): the link has trained; the host reaches the device again. -/
def execPcieLinkUp (s : State) : Host.Outcome State Fault Refusal :=
  if s.power.boot < 2 then .next s else .next (s.modPower (fun p => { p with pcie := true }))

/-- PCIE_LINK_DOWN (R553): PCIE_REFCLK is lost; everything else continues. -/
def execPcieLinkDown (s : State) : Host.Outcome State Fault Refusal := .next (s.modPower (fun p => { p with pcie := false }))

/-! ### Boot (R545, R546, R550) -/

/-- Words whose loss the device meets where it uses them, as absent (R550): rings, reservations, PN marks, blobs. -/
def loftAbsent (w : Nat) : Bool := (5 ≤ w && w < 13) || (0xA00 ≤ w && w < 0xE00) || (0x1000 ≤ w && w < 0x5000)

/-- An unreadable word takes its restored value (R550). -/
def loftRestore (w : Nat) (s : State) : State :=
  if loftAbsent w then s
  else
    let v : DWord := if 13 ≤ w ∧ w < 29 then BitVec.ofNat 64 (2 ^ 62) else if w = 2 then BitVec.ofNat 64 (2 ^ 31) else 0
    { s.stLE (loftBase + 8 * w) 8 v.toNat with loftBad := s.loftBad.filter (· ≠ w) }

/-- The fields that the Loft keeps take their values (R546): the token epoch, LOFT_ID, EXPORT_EN, the watermarks, the flags. -/
def persFields (s : State) : State :=
  let e := (s.loftWord 2).toNat
  let s := (s.setF YM_EPOCH_EPOCH (e % 2 ^ 32)).setF YM_EPOCH_HI_EPOCH_HI (e / 2 ^ 32)
  let i := (s.loftWord 3).toNat
  let s := (s.setF FAB_ID_LOFT_ID i).setF FAB_ID_LOFT_ID_EN (i / 1024)
  let s := s.setF TR_CFG_EXPORT_EN (s.loftWord 29).toNat
  let s := (List.range 16).foldl (fun (s : State) (m : Nat) => s.wr64 (MB_WM_LO m) (s.loftWord (loftWmWord m))) s
  let f := (s.loftWord 1).toNat
  (s.setF TR_STAT_ERASE_PEND f).setF TR_STAT_ZEROISED (f / 2)

/-- BOOT_START (R545): the supply and both reset pins are released: AON reads the Loft's control area; a pending erase completes
first (R245). -/
def execBootStart (s : State) : Host.Outcome State Fault Refusal :=
  if s.power.boot = 0 then
    let bad := s.loftBad
    let s := bad.foldl (fun s w => loftRestore w ((s.setF LOFT_STAT_UNCORR 1).report unitLoft 0x0E03 noPath (8 * w))) s
    let s := persFields s
    let s := if s.isSet TR_STAT_ERASE_PEND then loftFlags false (s.isSet TR_STAT_ZEROISED) (eraseLoftKeys s) else s
    .next (s.modPower (fun p => { p with boot := 1 }))
  else .next s

/-- A wrapped secret of the Loft as the Tack room unwraps it under KEK 0; an erased or never written one is absent. -/
def loftUnwrap (s : State) (o : Nat) : Option (List Byte) :=
  let b := s.loftBytes o 40
  if b.all (· = 0) then none else unwrap (s.kek 0) b

/-- The Tack room takes back what the Loft keeps wrapped under KEK 0 (R215): the identity, KEK 1–15, the pairings. -/
def tackRestore (s : State) : State :=
  let s := match loftUnwrap s 0x1A20 with
    | none => s
    | some seed =>
      let n := (s.loftWord 0x349).toNat
      { s with tack := { s.tack with
          idSeed := seed, idPub := s.loftBytes 0x1000 2592, cert := s.loftBytes 0x1A50 (min n 4064), certOk := decide (n ≠ 0) } }.setF
        TR_STAT_ID_VALID 1
  let s := (List.range 15).foldl (fun (s : State) (k : Nat) =>
    match loftUnwrap s (0x3000 + 64 * (k + 1)) with
    | some v => setKek (k + 1) v s
    | none => s) s
  (List.range 32).foldl (fun (s : State) (p : Nat) =>
    let o := 0x3400 + 128 * p
    match loftUnwrap s o with
    | some v =>
      let f := at' (s.loftBytes (o + 88) 1) 0
      setPairing p { secret := v, roleB := f % 2 = 1, mate := f / 2 % 2 = 1, hash := s.loftBytes (o + 40) 48 } s
    | none => s) s

/-- The sheds that the firmware powers up at boot: SH0–SH11 and SH16–SH23 (R545). -/
def bootSheds : Nat := 0x00FF0FFF

/-- CORE_PLL_LOCK (R545): CORE leaves reset; KEK 0 is derived, the Loft's keys are taken back, the cause of the reset is
recorded, and the firmware begins to power up its sheds. -/
def execCorePllLock (s : State) : Host.Outcome State Fault Refusal :=
  if s.power.boot = 1 then
    let s := s.modPower (fun p => { p with boot := 2 })
    let s := kek0Again s
    let s := if s.isSet TR_STAT_SK_OK then tackRestore s else s
    let s := latchesOut (s.report unitPower 0x0D03 noPath (s.rd PWR_RESET_CAUSE).toNat)
    .next (shedCommit (BitVec.ofNat 32 bootSheds) s)
  else .next s

/-- The owner that the firmware gives a bank (R459). `lead` and `standby`: the IDs of the Yardmasters. -/
def bootOwner (lead standby b : Nat) : Nat :=
  if b < 64 then 40 + b / 8 else if b = 508 ∨ b = 509 ∨ b = 510 then lead else if b = 511 then standby
  else Config.bankOwner b % 24

/-- A pre-operational test fails (R532): recorded with its number; the device stays not ready. -/
def postFail (n : Nat) (s : State) : State := bellPulse 854 ((s.setF FARR_STAT_POST_FAIL 1).report unitFarrier 0x0F04 noPath n)

/-- Channel marks are taken from the Loft (R240). -/
def marksRestore (s : State) : State :=
  (List.range 512).foldl (fun (s : State) (n : Nat) =>
    if (ringLast s n 0).isSome || (ringLast s n 1).isSome then
      s.modChan n (fun c => { c with lastOut := ringLast s n 0, lastIn := ringLast s n 1 })
    else s) s

/-- FW_READY (R459, R532, R545): the self-tests have passed, `fails` naming one that has not; a Yardmaster holds the token and
the sheds of boot are settled: the firmware assigns the banks, restores the marks and reports ready (HOST_EVT). -/
def execFwReady (fails : Option (Fin 8)) (s : State) : Host.Outcome State Fault Refusal :=
  if s.power.boot = 2 ∧ !s.isSet FARR_STAT_POST_FAIL then
    match fails with
    | some n => .next (postFail n.val s)
    | none =>
      if s.isSet YM_ARB_HELD && shedsSettled s then
        let lead := 32 + s.getF YM_ARB_HOLDER
        let s := (List.range 512).foldl (fun (s : State) (b : Nat) => s.setF (PADK_OWNER_OWNER b) (bootOwner lead (65 - lead) b)) s
        let s := (List.range 8).foldl (fun (s : State) (i : Nat) => s.setF (DRAY_CTL_CUST (24 + i)) 1) s
        let s := marksRestore (s.setF FARR_STAT_POST_DONE 1)
        let s := hostEvt HOST_EVT_FW_READY { s with ym := { s.ym with fwReady := true } }
        .next (ledgerLines (s.modPower (fun p => { p with boot := 3 })))
      else .next s
  else .next s

/-! ### Clocks (R553) -/

/-- REFCLK_SYS_LOST (R553): eight periods are missing: every outbound path is muted, and the loss is recorded. -/
def execRefclkSysLost (s : State) : Host.Outcome State Fault Refusal :=
  if s.sysLost then .next s
  else
    let s := muteEvery .refclk { s with sysLost := true }
    .next (bellPulse 948 ((s.setF PWR_EVT_REFCLK_LOST 1).report unitPower 0x0D01 noPath 0))

/-- REFCLK_SYS_RELOCK (R553): the reference has been present for 1 ms; the mutes are released. -/
def execRefclkSysRelock (s : State) : Host.Outcome State Fault Refusal :=
  if s.sysLost then .next (unmuteAll .refclk { s with sysLost := false }) else .next s

/-! ### Counters of the Loft, SMBus, JTAG (R534, R547, R563, R567) -/

/-- THERMAL_EXCURSION (R547, R567): the junction has stayed above 105 °C for 1 s; an excursion counts once. -/
def execThermalExcursion (s : State) : Host.Outcome State Fault Refusal := .next (loftProgram 31 (s.loftWord 31 + 1) s)

/-- POWER_ON_HOURS (R547): an hour of power-on has passed. -/
def execPowerOnHours (s : State) : Host.Outcome State Fault Refusal := .next (loftProgram 30 (s.loftWord 30 + 1) s)

/-- The customer core mask. -/
def customerMask (s : State) : Nat :=
  (List.range 32).foldl (fun (a : Nat) (k : Nat) => a + s.getF (DRAY_CTL_CUST k) * 2 ^ k) 0

/-- Response of INFO (R366). -/
def infoBytes (s : State) : List Byte :=
  [0xB0, 3, 2, 0] ++ leBytes 4 Config.firmwareBuild.toNat ++ leBytes 8 Config.serial.toNat ++ leBytes 2 s.devId ++ zeros 2
    ++ leBytes 4 (customerMask s) ++ zeros 8

/-- Response of LOFT_GET (R366). -/
def loftGetBytes (s : State) : List Byte :=
  leBytes 4 (s.loftWord 30).toNat ++ leBytes 4 (s.loftWord 31).toNat ++ leBytes 8 (s.rd64 LOFT_WEAR_MAX_LO).toNat
    ++ leBytes 4 (s.getF LOFT_WEAR_MAX_IDX_MAX_IDX) ++ leBytes 4 (s.getF LOFT_CNT_YFI_1S) ++ zeros 8

/-- SMBUS_BLOCK_READ (R563): code 0x01 INFO, 0x02 LOFT_GET at address 0x5D; every other code gets NACK, an empty block here. -/
def execSmbusBlockRead (addr : BitVec 7) (code : BitVec 8) (s : State) : Host.Outcome State Fault Refusal :=
  if addr ≠ 0x5D then .next s
  else if code = 1 then .next (s.emit (.smbus (infoBytes s)))
  else if code = 2 then .next (s.emit (.smbus (loftGetBytes s)))
  else .next (s.emit (.smbus []))

/-- The boundary register drives the balls, or nothing does (R534). -/
def ballsTo (b : Nat) (s : State) : State :=
  let s := s.modPower (fun p => { p with balls := b })
  if b = 1 then s.power.boundary.foldl (fun s e => s.emit (.pin e.1 e.2)) s else s

/-- JTAG_INSTRUCTION (R534): the boundary-scan instructions; scan, memory BIST and the debug stop select BYPASS outside factory
test mode. -/
def execJtagInstruction (i : JtagInstr) (s : State) : Host.Outcome State Fault Refusal :=
  match i with
  | .bypass => .next (ballsTo 0 s)
  | .idcode => .next ((ballsTo 0 s).emit (.jtag 0xB8512A6B))
  | .samplePreload l => .next ((ballsTo 0 s).modPower (fun p => { p with boundary := l }))
  | .extest => .next (ballsTo 1 s)
  | .clamp => .next (ballsTo 1 s)
  | .highz => .next (ballsTo 2 s)
  | .extestPulse => .next (ballsTo 1 s)
  | .extestTrain => .next (ballsTo 1 s)
  | .scan => if s.power.ftm then .fault .factoryFunction else .next (ballsTo 0 s)
  | .memoryBist => if s.power.ftm then .fault .factoryFunction else .next (ballsTo 0 s)
  | .debugStop on =>
    if !s.power.ftm then .next (ballsTo 0 s)
    else if on then .next (s.modPower (fun p => { p with stopped := true }))
    else if s.power.stopped then .next (clocksRestart (s.modPower (fun p => { p with stopped := false })))
    else .next s

/-- FACTORY_TEST_MODE (R446, R521, R534): FTM_EN at a level, together with its fuse. -/
def execFactoryTestMode (pin : Bool) (s : State) : Host.Outcome State Fault Refusal :=
  .next (s.modPower (fun p => { p with ftm := pin && Config.ftmFuse }))

end Sys2Proof.Machine
end

