-- ==== Sys2Proof/Machine/Ledger.lean ====
section
/-!
DEFINITION. The fault ledger (spec/22): reports taken, reactions, coalescing, the intake FIFO, the ring, and clearing.
-/

namespace Sys2Proof.Machine

/-- The ledger as changed. -/
def State.modLedger (s : State) (f : Ledger → Ledger) : State := { s with ledger := f s.ledger }

/-! ### Causes and state (R505, R514) -/

/-- Does the cause of a condition code persist? Event codes have none (R505). -/
def causeHolds (s : State) (code : Nat) : Bool :=
  if code = 0x0101 then s.getF POS_STAT_STATE = 2
  else if code = 0x0201 then s.ledger.downs.any (fun k => !s.portUp k)
  else if code = 0x0507 then s.tack.zeroLow
  else if code = 0x0D01 then s.sysLost
  else if code = 0x0F01 then !s.lateTargets.isEmpty
  else if code = 0x1006 then s.isSet LEDGER_STAT_SAFE
  else false

/-! ### Reactions (R517 to R519) -/

/-- Is a reaction allowed for a code? (R517, R519) -/
def reactionAllowed (code r : Nat) : Bool :=
  let sub := code / 256
  if faultClass code = 0 then false
  else if r ≤ 1 then true
  else if r = 2 then decide (2 ≤ sub) && decide (sub ≤ 8)
  else if r = 3 then sub = 2 || sub = 4 || sub = 9 || sub = 0xF
  else if r = 4 then decide (2 ≤ faultClass code) && decide (code ≠ 0x1006) && decide (code ≠ 0x1007)
  else false

/-- The interrupt of a subsystem: source 726 + (code − 1) (R517). -/
def reactInterrupt (code : Nat) (s : State) : State := bellPulse (725 + code / 256) s

/-- The mute that a report makes (R517): its channel's path, or every path bound to its cipher-side port. -/
def reactMute (r : Report) (s : State) : State :=
  if r.path < 512 then mutePath r.path (.code r.code) s
  else if 544 ≤ r.path ∧ r.path < 576 then
    (s.liveChans.filter (fun n => 32 + s.txPort n = r.path - 512)).foldl (fun s n => mutePath n (.code r.code) s) s
  else s

/-- The shed that a reaction of 3 resets (R517): by the reporting core, by the rail or the target the data names, by the port. -/
def reactShed (r : Report) : Option Nat :=
  let sub := r.code / 256
  let unit := r.origin % 64
  let b0 := r.data.toNat % 256
  let idx := r.data.toNat / 256 % 65536
  if sub = 9 then (if 32 ≤ unit then some ((unit - 32) / 2) else none)
  else if sub = 4 then some (16 + b0 / 5)
  else if sub = 2 then (if 512 ≤ r.path ∧ r.path < 576 then some (24 + (r.path - 512) / 8) else none)
  else if r.code = 0x0F02 then some (b0 / 2)
  else if r.code = 0x0F01 then
    (if b0 = 0 then some (16 + idx / 5) else if b0 = 2 then some (idx / 2)
     else if b0 = 5 ∧ idx < 64 then some (24 + idx / 8) else none)
  else none

/-- The shed that a report's reaction may reset now: one that is ON (R517, R541). -/
def reactTarget (r : Report) (s : State) : Option Nat := (reactShed r).filter (fun k => decide (k < 32) && s.shedOn k)

/-- LEDGER_SAFE and the ledger's own reports (R512, R519): made with source unit 0x0C. -/
def ownReport (s : State) (code data : Nat) : Report :=
  { stamp := s.stamp, origin := s.origin unitLedger, code := code, path := noPath, data := BitVec.ofNat 128 data, cont := none,
    inj := false, merged := 0 }

/-- Safe state is entered (R519): every outbound path is muted, customer cores stop, and LEDGER_SAFE is recorded. -/
def enterSafe (code : Nat) (s : State) : State :=
  let s := s.modLedger (fun l => { l with safe := if l.safe.contains code then l.safe else l.safe ++ [code] })
  if s.isSet LEDGER_STAT_SAFE then s
  else
    let s := muteEvery (.code 0x1006) (s.setF LEDGER_STAT_SAFE 1)
    let s := (List.range 32).foldl (fun (s : State) (k : Nat) => if s.isSet (DRAY_CTL_CUST k) then coreStop k s else s) s
    s.report unitLedger 0x1006 noPath code

/-- The reaction of a code is taken (R517): each includes those above it, safe state only the interrupt; a reset that is not made
leaves the interrupt. -/
def react (r : Report) (s : State) : State :=
  let v := s.getF (LEDGER_FSTATE_REACTION r.code)
  let s := if 1 ≤ v then reactInterrupt r.code s else s
  let s := if v = 2 then reactMute r s else s
  let s := if v = 3 then
      match reactTarget r s with
      | some k => shedReset k (reactMute r s)
      | none => s
    else s
  if v = 4 then enterSafe r.code s else s

/-- Ports whose PORT_DOWN has been reported, and which are not UP (R505). -/
def noteDown (r : Report) (s : State) : State :=
  if r.code = 0x0201 ∧ 512 ≤ r.path ∧ r.path < 576 then
    s.modLedger (fun l => { l with downs := (r.path - 512) :: l.downs.filter (fun k => k ≠ r.path - 512 && !s.portUp k) })
  else s

/-- Steps 1 and 2 of R508 for a report: its entry, its reaction, and the ledger's lines. -/
def takeState (r : Report) (s : State) : State := ledgerLines (react r (fstateRaise r.code (1 + r.merged) (noteDown r s)))

/-! ### Intake and coalescing (R509, R510) -/

/-- A report as a record. -/
def recordOf (r : Report) (count : Nat) (again : Bool) : Record :=
  { stamp := r.stamp, origin := r.origin, code := r.code, cls := faultClass r.code, reserve := false, repeat' := again, inj := r.inj,
    cont := false, path := r.path, count := count, data := r.data }

/-- The continuation that follows a record (R506). -/
def contOf (r : Report) : List Record :=
  match r.cont with
  | some d => [{ recordOf r 0 false with cont := true, data := d }]
  | none => []

/-- Records enter the intake FIFO, or are dropped and counted (R510); a FATAL one that cannot enter waits. -/
def intake (l : List Record) (s : State) : State :=
  l.foldl (fun (s : State) (x : Record) =>
    let free := 64 - s.ledger.fifo.length
    if x.cls = 3 then
      if 0 < free then s.modLedger (fun g => { g with fifo := g.fifo ++ [x] })
      else s.modLedger (fun g => { g with stuck := g.stuck ++ [x] })
    else if 9 ≤ free then s.modLedger (fun g => { g with fifo := g.fifo ++ [x] })
    else s.countDrop x.cls) s

/-- Step 3 of R508: a repeat is counted in its entry; a new record enters the FIFO and opens a window of 1,024 beats where an
entry is free (R509). -/
def coalesce (r : Report) (s : State) : State :=
  match s.ledger.co.findIdx? (fun e => e.origin = r.origin ∧ e.code = r.code) with
  | some i =>
    s.modLedger (fun l => { l with co := l.co.modify i (fun e => { e with count := min 65535 (e.count + 1 + r.merged), last := r }) })
  | none =>
    let s := intake (recordOf r (1 + r.merged) false :: contOf r) s
    if s.ledger.co.length < 32 then
      let b : Beat := (r.stamp >>> 16).truncate 48
      s.modLedger (fun l => { l with co := l.co ++ [{ origin := r.origin, code := r.code, endBeat := b + 1024, count := 0, last := r }] })
    else s

/-- The report that the ledger takes next (R508): a FATAL one first, else the lowest origin. -/
def nextReport (s : State) : Option (Nat × Report) :=
  let heads := s.ledger.queues.filterMap (fun e => e.2.head?.map (fun r => (e.1, r)))
  let fatal := s.ledger.queues.filterMap (fun e => (e.2.find? (fun r => faultClass r.code = 3)).map (fun r => (e.1, r)))
  let pick := if fatal.isEmpty then heads else fatal
  pick.foldl (fun (a : Option (Nat × Report)) x =>
    match a with
    | none => some x
    | some y => if x.2.origin < y.2.origin then some x else some y) none

/-- LEDGER_REPORT (R508): the ledger takes one report: state, reaction, coalescing. While a FATAL record waits in the coalescing
stage it takes none (R510). -/
def execLedgerReport (s : State) : Host.Outcome State Fault Refusal :=
  if !s.ledger.stuck.isEmpty then .next s
  else match nextReport s with
    | none => .next s
    | some (u, r) =>
      let q := (tblGet [] u s.ledger.queues).erase r
      let s := s.modLedger (fun l => { l with queues := tblSet [] u q l.queues })
      .next (ledgerLines (coalesce r (takeState r s)))

/-- A window closes (R509): with repeats, a REPEAT record enters the FIFO, its continuation behind it. -/
def windowClose (e : CoEntry) (s : State) : State :=
  if e.count = 0 then s else intake (recordOf e.last e.count true :: contOf e.last) s

/-- COALESCE_WINDOW_CLOSE (R509): every window whose end beat has passed closes, in the order in which they were opened. -/
def execCoalesceWindowClose (s : State) : Host.Outcome State Fault Refusal :=
  let due := s.ledger.co.filter (fun e => s.beatDue e.endBeat)
  let s := s.modLedger (fun l => { l with co := l.co.filter (fun e => !s.beatDue e.endBeat) })
  .next (ledgerLines (due.foldl (fun s e => windowClose e s) s))

/-! ### The ring (R511 to R513) -/

/-- Window offset of the Paddock ring, and its size in records (R511). -/
def ringBase : Nat := 0x03F80000
def ringPad : Nat := 8192

/-- Size of the ring in use. LOG2_SIZE outside 8–16 is taken as the nearer bound. -/
def ringSize (s : State) : Nat :=
  if s.isSet LEDGER_CFG_MODE then 2 ^ min 16 (max 8 (s.getF LEDGER_CFG_LOG2_SIZE)) else ringPad

/-- Producer and consumer indices. -/
def ringWr (s : State) : Nat := s.getF LEDGER_WR_WR
def ringRd (s : State) : Nat := s.getF LEDGER_RD_RD

/-- Records in the ring. -/
def ringHeld (s : State) : Nat := (ringWr s + 2 ^ 32 - ringRd s) % 2 ^ 32

/-- USED and what follows from it. -/
def ringShow (s : State) : State := ledgerLines (s.setF LEDGER_STAT_USED (min 65536 (ringHeld s)))

/-- A record's 32 bytes (R513). -/
def recordBytes (x : Record) : List Byte :=
  leBytes 8 x.stamp.toNat ++ leBytes 2 x.origin ++ leBytes 2 x.code
    ++ leBytes 4 (x.cls % 4 * 2 ^ 30 + x.reserve.toNat * 2 ^ 29 + x.repeat'.toNat * 2 ^ 28 + x.inj.toNat * 2 ^ 27
      + x.cont.toNat * 2 ^ 26 + x.path % 1024 * 2 ^ 16 + min 65535 x.count)
    ++ leBytes 16 x.data.toNat

/-- A record's bytes go to slot i of a ring, in host memory or in Paddock under the owner of the ring banks (R511). -/
def slotWrite (host : Bool) (size base i : Nat) (l : List Byte) (s : State) : State :=
  let o := i % size * 32
  if host then hostWrite (base + o) l s else breakLocks none (ringBase + o) 32 (padStore (ringBase + o) l s)

/-- The producer index rises; in host mode its word of the index pair follows (R511). -/
def ringAdvance (s : State) : State :=
  let n := (ringWr s + 1) % 2 ^ 32
  let s := s.setF LEDGER_WR_WR n
  ringShow (if s.isSet LEDGER_CFG_MODE then hostWrite s.ledger.hostIdx (leBytes 4 n) s else s)

/-- A record is stored at the producer's slot. -/
def ringStore (x : Record) (s : State) : State :=
  ringAdvance (slotWrite (s.isSet LEDGER_CFG_MODE) (ringSize s) s.ledger.hostRing (ringWr s) (recordBytes x) s)

/-- A record of the ledger itself (R512). -/
def ownRecord (s : State) (code data : Nat) : Record := recordOf (ownReport s code data) 1 false

/-- Places at or above which only FATAL records are stored (R512). -/
def ringReserve (s : State) : Nat := ringSize s - 128

/-- The owed records are stored as space allows (R512): LEDGER_FATAL_LOST ahead of everything, LEDGER_DROPPED once a non-FATAL
record fits. -/
def ringOwed (s : State) : State :=
  let s := if s.ledger.fatalLost && decide (ringHeld s < ringSize s) then
      ringStore { ownRecord s 0x1007 0 with reserve := decide (ringReserve s ≤ ringHeld s) } (s.modLedger (fun l => { l with fatalLost := false }))
    else s
  let l := s.ledger
  if 0 < l.dropN + l.dropD + l.dropF ∧ ringHeld s < ringReserve s then
    let d := l.dropN % 2 ^ 32 + l.dropD % 2 ^ 32 * 2 ^ 32 + l.dropF % 2 ^ 32 * 2 ^ 64
    let s := ringStore (ownRecord s 0x1005 d) (s.modLedger (fun l => { l with dropN := 0, dropD := 0, dropF := 0 }))
    takeState (ownReport s 0x1005 d) s
  else s

/-- A consumer index is taken (R513): checked, and space returned. -/
def takeRd (v : Nat) (s : State) : State :=
  let held := ringHeld s
  if (ringWr s + 2 ^ 32 - v) % 2 ^ 32 ≤ held then ringShow (s.setF LEDGER_RD_RD v) else s.setF LEDGER_STAT_RD_BAD 1

/-- The host's consumer index is read (R513). -/
def hostRd (s : State) : State :=
  if s.isSet LEDGER_CFG_MODE && s.power.pcie then takeRd (leVal (hostRead s (s.ledger.hostIdx + 4) 4)) s else s

/-- A record meets the ring (R512): stored, stored in the reserve, or dropped. -/
def ringTake (x : Record) (s : State) : State :=
  if ringHeld s < ringReserve s then ringStore x s
  else if x.cls = 3 ∧ ringHeld s < ringSize s then ringStore { x with reserve := true } s
  else
    let s := ledgerLines (s.countDrop x.cls)
    if x.cls = 3 then takeState (ownReport s 0x1007 0) (s.modLedger (fun l => { l with fatalLost := true })) else s

/-- A record that has waited in the coalescing stage enters the FIFO (R510). -/
def unstick (s : State) : State :=
  match s.ledger.stuck with
  | [] => s
  | x :: r => if s.ledger.fifo.length < 64 then s.modLedger (fun l => { l with fifo := l.fifo ++ [x], stuck := r }) else s

/-- RING_WRITE (R510 to R512): the FIFO's next record meets the ring; `busy`: the write completed with BUSY and is made again.
Nothing is written while a change of mode copies records, nor into a host ring while the PCIe link is down (R513, R544). -/
def execRingWrite (busy : Bool) (s : State) : Host.Outcome State Fault Refusal :=
  if busy || s.isSet LEDGER_STAT_MOVING || (s.isSet LEDGER_CFG_MODE && !s.power.pcie) then .next s
  else
    let s := ringOwed (hostRd s)
    match s.ledger.fifo with
    | [] => .next s
    | x :: r => .next (unstick (ringTake x (s.modLedger (fun l => { l with fifo := r }))))

/-- A write of RD through CSR space (R513): no effect in the host-assisted mode. -/
def rdWrite (v : Nat) (s : State) : State := if s.isSet LEDGER_CFG_MODE then s else ringOwed (takeRd v s)

/-- LEDGER_RD_WRITE (R513): any requester may write RD. -/
def execLedgerRdWrite (r : Requester) (v : Word) (s : State) : Host.Outcome State Fault Refusal :=
  .next ((rdWrite v.toNat s).reply r .ok 0)

/-- HOST_RD_POLL (R513): the device reads the consumer index in host memory, at least every 10 µs. -/
def execHostRdPoll (s : State) : Host.Outcome State Fault Refusal :=
  if s.isSet LEDGER_CFG_MODE && s.power.pcie then .next (ringOwed (hostRd s)) else .next s

/-! ### A change of mode (R513) -/

/-- The unread records that the new ring does not hold: the oldest are dropped and counted (R512, R513). -/
def moveDrop : Nat → Bool → Nat → Nat → State → State
  | 0, _, _, _, s => s
  | n + 1, host, size, base, s =>
    let o := ringRd s % size * 32
    let b := if host then hostRead s (base + o) 32 else s.bytes (ringBase + o) 32
    moveDrop n host size base ((s.countDrop (at' b 15 / 64)).setF LEDGER_RD_RD ((ringRd s + 1) % 2 ^ 32))

/-- Every unread record goes to its slot of the new ring, oldest first. -/
def moveCopy : Nat → Nat → Bool → Nat → Nat → State → State
  | 0, _, _, _, _, s => s
  | n + 1, i, host, size, base, s =>
    let o := i % size * 32
    let b := if host then hostRead s (base + o) 32 else s.bytes (ringBase + o) 32
    moveCopy n ((i + 1) % 2 ^ 32) host size base (slotWrite (s.isSet LEDGER_CFG_MODE) (ringSize s) s.ledger.hostRing i b s)

/-- Mode, ring and index addresses change (R31, R513): records wait until the copy ends; both indices go to the host's pair. -/
def modeChange (cfg : Word) (ring idx : Nat) (s : State) : State :=
  let was := s.isSet LEDGER_CFG_MODE
  let size := ringSize s
  let base := s.ledger.hostRing
  let s := s.wr LEDGER_CFG cfg
  let s := s.modLedger (fun l => { l with hostRing := ring, hostIdx := idx })
  if was = s.isSet LEDGER_CFG_MODE ∧ size = ringSize s ∧ (!was ∨ base = ring) then ledgerLines s
  else
    let s := (s.setF LEDGER_STAT_MOVING 1).modLedger (fun l => { l with oldSize := size, oldHost := was, oldRing := base })
    if s.isSet LEDGER_CFG_MODE then
      ledgerLines (hostWrite (idx + 4) (leBytes 4 (ringRd s)) (hostWrite idx (leBytes 4 (ringWr s)) s))
    else ledgerLines s

/-- LEDGER_MODE_COPY_DONE (R513): the last unread record has been copied and MOVING falls. What the new ring may not hold is
dropped first, the oldest first. -/
def execLedgerModeCopyDone (s : State) : Host.Outcome State Fault Refusal :=
  if s.isSet LEDGER_STAT_MOVING then
    let l := s.ledger
    let extra := ringHeld s - ringSize s
    let s := moveDrop extra l.oldHost l.oldSize l.oldRing s
    let s := moveCopy (ringHeld s) (ringRd s) l.oldHost l.oldSize l.oldRing s
    let s := if s.isSet LEDGER_CFG_MODE then hostWrite (s.ledger.hostIdx + 4) (leBytes 4 (ringRd s)) s else s
    .next (ringOwed (ringShow (s.setF LEDGER_STAT_MOVING 0)))
  else .next s

/-! ### Clearing (R515, R518, R519) -/

/-- Safe state ends once every code that brought it has been cleared (R519). -/
def leaveSafe (code : Nat) (s : State) : State :=
  let s := s.modLedger (fun l => { l with safe := l.safe.filter (· ≠ code) })
  if s.isSet LEDGER_STAT_SAFE && s.ledger.safe.isEmpty then unmuteAll (.code 0x1006) (s.setF LEDGER_STAT_SAFE 0) else s

/-- A code is cleared, and the mutes its reaction made are released (R515, R518). -/
def clearCode (code : Nat) (s : State) : State :=
  let s := (s.setF (LEDGER_FSTATE_RAISED code) 0).setF (LEDGER_FSTATE_HITS code) 0
  leaveSafe code (unmuteAll (.code code) s)

/-- Codes that a FAULT_CLEAR names: those raised. -/
def clearNamed (s : State) (code : Nat) : List Nat :=
  (faultTable.map (·.1)).filter (fun c => (code = 0xFFFF ∨ c = code) ∧ s.isSet (LEDGER_FSTATE_RAISED c) = true)

/-- FAULT_CLEAR on the codes it names (R515): how many were cleared, whether one remains, and the state. -/
def faultClear (code : Nat) (s : State) : Nat × Bool × State :=
  let cs := clearNamed s code
  let go := cs.filter (fun c => !causeHolds s c)
  (go.length, decide (go.length < cs.length), ledgerLines (go.foldl (fun s c => clearCode c s) s))

/-! ### Injection (R521) -/

/-- The report that LEDGER_INJ spells. -/
def injReport (s : State) : Report :=
  { stamp := s.stamp, origin := s.getF LEDGER_INJ_ORG_ORIGIN, code := s.getF LEDGER_INJ_CODE, path := s.getF LEDGER_INJ_PATH,
    data := s.rd (LEDGER_INJ_D 3) ++ s.rd (LEDGER_INJ_D 2) ++ s.rd (LEDGER_INJ_D 1) ++ s.rd (LEDGER_INJ_D 0),
    cont := none, inj := true, merged := 0 }

/-- LEDGER_INJECT (R521): a write of GO with PATH and CODE; only in factory test mode. -/
def ledgerInjectAccess (r : Requester) (v : Word) (s : State) : State :=
  if s.power.ftm then
    let s := (s.wr LEDGER_INJ (v &&& 0x03FFFFFF)).reply r .ok 0
    let x := injReport s
    if fldGet 31 31 v = 1 ∧ faultClass x.code ≠ 0 then (s.addReport unitLedger x) else s
  else (s.decodeFault r LEDGER_INJ)

/-- LEDGER_INJECT, as a command. -/
def execLedgerInject (r : Requester) (v : Word) (s : State) : Host.Outcome State Fault Refusal :=
  .next (ledgerInjectAccess r v s)

end Sys2Proof.Machine
end

