-- ==== Sys2Proof/Machine/Farrier.lean ====
section
/-!
DEFINITION. Farrier (spec/23): rail, engine and core self-tests, fill-cell compares, coverage, eye margins, the entropy source.
-/

namespace Sys2Proof.Machine

/-- The shed that holds a target, if one does (R522, R536): class 0 rails, 2 Dray cores, 5 lanes. -/
def targetShed (cls i : Nat) : Option Nat :=
  if cls = 0 then some (16 + i / 5) else if cls = 2 then some (i / 2) else if cls = 5 ∧ i < 64 then some (24 + i / 8) else none

/-- A class is enabled (R530). -/
def classOn (s : State) (cls : Nat) : Bool :=
  if cls ≤ 1 then s.isSet FARR_CFG_RAIL_EN else if cls = 2 then s.isSet FARR_CFG_DRAY_EN
  else if cls ≤ 4 then s.isSet FARR_CFG_SCRUB_EN else s.isSet FARR_CFG_SERDES_EN

/-- A target is owed coverage (R522): its class is enabled, its shed is ON, and a core is a stable-kernel core. -/
def coverageOwed (s : State) (cls i : Nat) : Bool :=
  classOn s cls && (match targetShed cls i with | some k => decide (k < 32) && s.shedOn k | none => true)
    && (cls ≠ 2 || !s.isSet (DRAY_CTL_CUST i))

/-- A target has been covered (R522, R530). -/
def covered (cls i : Nat) (s : State) : State := { s with lateTargets := s.lateTargets.filter (· ≠ (cls, i)) }

/-- COVERAGE_LATE (R530): a target has passed its late-after time. -/
def execCoverageLate (cls : Fin 6) (index : Nat) (s : State) : Host.Outcome State Fault Refusal :=
  if coverageOwed s cls.val index then
    let s := s.setF ⟨FARR_STAT, cls.val, cls.val⟩ 1
    let s : State := { s with lateTargets := (cls.val, index) :: s.lateTargets.filter (· ≠ (cls.val, index)) }
    .next (bellPulse 849 (s.report unitFarrier 0x0F01 noPath (cls.val + index % 65536 * 256)))
  else .next s

/-- FARR_CFG has been written (R530): the passes of a class that is disabled are abandoned, and it is never late. -/
def farrCfgWritten (s : State) : State :=
  { s with
    lateTargets := s.lateTargets.filter (fun e => classOn s e.1)
    railPass := if s.isSet FARR_CFG_RAIL_EN then s.railPass
      else s.railPass.filter (fun e => s.untested.contains e.1 || s.urgentRails.contains e.1) }

/-- The state of rail r's pass, by the rail: withdrawn or not (R528). -/
def railOutBit (r : Nat) : Fld := if r < 32 then ⟨FARR_RAIL_OUT_LO, r, r⟩ else ⟨FARR_RAIL_OUT_HI, r - 32, r - 32⟩

/-- A rail's pass has failed (R528): withdrawn, recorded, Bell 850. -/
def railKatFail (r : Nat) (s : State) : State :=
  bellPulse 850 ((s.setF (railOutBit r) 1).report unitRails 0x0402 noPath r)

/-- A rail's pass has succeeded (R522, R528): counted; a rail that awaited its first pass since its shed was reset joins the
pool. -/
def railPassed (r : Nat) (s : State) : State :=
  let s := covered 0 r (s.cntSat FARR_PASSES_PASSES 1)
  if s.untested.contains r then { s.setF (railOutBit r) 0 with untested := s.untested.filter (· ≠ r) } else s

/-- Blocks of a rail's pass (R522). -/
def passBlocks : Nat := 96

/-- May a rail run a test block now? Its shed is ON; the rails of a mismatch go ahead of every other (R527), then the class must be
enabled, but for a rail that has to pass before it carries traffic (R528). -/
def railMayTest (s : State) (r : Nat) : Bool :=
  s.shedOn (16 + r / 5) && (s.urgentRails.contains r || (s.urgentRails.isEmpty && (s.untested.contains r || s.isSet FARR_CFG_RAIL_EN)))

/-- RAIL_TEST_STEP (R524, R528): a test block in an idle cycle of a rail; `fails` where its compare fails. -/
def execRailTestStep (r : Fin 40) (fails : Bool) (s : State) : Host.Outcome State Fault Refusal :=
  let r := r.val
  if !railMayTest s r then .next s
  else
    let n := tblGet 0 r s.railPass + 1
    let done := fails || decide (passBlocks ≤ n)
    let s : State := { s with
      railPass := tblSet 0 r (if done then 0 else n) s.railPass
      urgentRails := if done then s.urgentRails.filter (· ≠ r) else s.urgentRails }
    .next (if fails then railKatFail r s else if done then railPassed r s else s)

/-- FILL_CELL_COMPARE (R527): a second rail of the same direction has recomputed a fill cell. Where the two differ, both names are
recorded and both rails are tested first. -/
def execFillCellCompare (a b : Fin 40) (differ : Bool) (s : State) : Host.Outcome State Fault Refusal :=
  if differ && decide (a ≠ b) && decide (a.val / 20 = b.val / 20) then
    let s := bellPulse 851 (s.report unitRails 0x0403 noPath (a.val + b.val * 256))
    .next { s with
      railPass := tblSet 0 a.val 0 (tblSet 0 b.val 0 s.railPass)
      urgentRails := a.val :: b.val :: s.urgentRails.filter (fun r => r ≠ a.val ∧ r ≠ b.val) }
  else .next s

/-- ENGINE_TEST_STEP (R525, R529): a known-answer test of an idle engine: 0 key wrap, 1 HKDF and SHA-384, 2 HMAC. -/
def execEngineTestStep (e : Fin 3) (fails : Bool) (s : State) : Host.Outcome State Fault Refusal :=
  if !s.isSet FARR_CFG_RAIL_EN then .next s
  else if fails then
    let s : State := { s with engineOut := if s.engineOut.contains e.val then s.engineOut else e.val :: s.engineOut }
    .next (bellPulse 852 (s.report unitFarrier 0x0F03 noPath e.val))
  else .next (covered 1 e.val s)

/-- DRAY_SELFTEST_STEP (R526, R529): a step of the self-test kernel on a stable-kernel core in time it would wait; `last` ends a
pass. A core that fails is stopped, its work moved. -/
def execDraySelftestStep (core : Fin 32) (last fails : Bool) (s : State) : Host.Outcome State Fault Refusal :=
  let k := core.val
  if coverageOwed s 2 k && decide (s.coreState k = 3) then
    if fails then .next (coreStop k (bellPulse 852 (s.report unitFarrier 0x0F02 noPath k)))
    else if last then .next (covered 2 k s)
    else .next s
  else .next s

/-- The logical lane that a group's receive map puts on a physical lane (R87). -/
def logicalLane (s : State) (g l : Nat) : Nat :=
  ((List.range 8).find? (fun (i : Nat) => s.getF (GRP_LANEMAP_RX_MAP g) / 8 ^ i % 8 = l)).getD l

/-- The port that holds a lane (R531): lanes 0–31 plain, 32–63 cipher, 64–79 fabric. -/
def lanePort (s : State) (l : Nat) : Option Nat :=
  if 64 ≤ l then some (64 + (l - 64) / 2)
  else
    let g := l / 8
    let i := logicalLane s g (l % 8)
    (List.range 8).map (· + 8 * g) |>.find? (fun k => portClaims s k && decide (k % 8 ≤ i)
      && decide (i < k % 8 + portLanes (s.getF (PORT_CFG_TYPE k))))

/-- MARGIN_MEASURE (R531): a lane's vertical margin in mV and horizontal margin in milli-UI. -/
def execMarginMeasure (lane : Fin 80) (v h : BitVec 12) (s : State) : Host.Outcome State Fault Refusal :=
  let l := lane.val
  if !coverageOwed s 5 l then .next s
  else
    let s := covered 5 l ((s.setF (FARR_MARGIN_V_MV l) v.toNat).setF (FARR_MARGIN_H_MUI l) h.toNat)
    if v.toNat < s.getF FARR_CFG_MARGIN_MV then
      match lanePort s l with
      | some k => .next (bellPulse 853 (portEvt k 10 0x0209 s))
      | none => .next s
    else .next s

/-- ENTROPY_SAMPLE (R533): a sample passes the health tests, or no random value is given out until a warm reset. -/
def execEntropySample (ok : Bool) (s : State) : Host.Outcome State Fault Refusal :=
  if ok then .next s else .next (bellPulse 854 ({ s with noRandom := true }.report unitFarrier 0x0F05 noPath 0))

end Sys2Proof.Machine
end

