-- ==== Sys2Proof/Machine/Twin.lean ====
section
/-!
DEFINITION. The Twin pair (spec/11 R272 to R281, R288 to R292): binding, the records of the twin link at each end, FREE_RUN,
divergence, the Witness, and rejoining.
-/

namespace Sys2Proof.Machine

/-! ### Events and records -/

/-- A Twin event: its bit of TW_EVT, its record and its Bell source (R295). -/
def twinEvt (f : Option Fld) (code src path a b : Nat) (s : State) : State :=
  let s := match f with
    | some f => s.setF f 1
    | none => s
  bellPulse src (s.report32 unitMerge code path a b)

/-- State of the pair (TW_STAT). -/
def twinState (s : State) : Nat := s.getF TW_STAT_STATE

/-- The state of the pair becomes `v`. -/
def setTwin (v : Nat) (s : State) : State := s.setF TW_STAT_STATE v

/-- Twin-mode channels that are not CLOSED. -/
def twinChans (s : State) : List Nat := s.liveChans.filter (fun n => s.chTwin n)

/-- The oldest record delivered, where it is of this type (R273, R276). -/
def twinTake (typ : Nat) (s : State) (k : List Byte → Nat → State → State) : State :=
  match s.twin.inq with
  | [] => s
  | r :: rest =>
    if be r 0 2 / 4096 = typ then k r (be r 0 2 % 512) { s with twin := { s.twin with inq := rest } } else s

/-- A channel begins to rejoin (R289, R292): what it holds of the lead's record is dropped, and a CONTEXT is asked for
(record type 9). -/
def rejoinChan (n : Nat) (s : State) : State :=
  let s := s.modTw n (fun t => { t with
    rejoining := true, since := s.now, gotContext := false, eligible := none, unmatched := [], own := [], lead := [],
    wit := [], crcBeat := none })
  twinSend (twinHead 9 n) s

/-! ### Binding (R272, R273, R292) -/

/-- Number of the first condition of R272 that fails, 0 where all hold; `lead`: this device takes the lead. -/
def mateCheck (s : State) (r : Mate) (lead : Bool) : Nat :=
  let mateId := s.getF TW_CFG_MATE_ID
  let direct := [0, 1, 2, 3].any (fun z => decide (s.getF TW_CFG_TLINKS / 2 ^ z % 2 = 1) && s.zUp z
    && decide (s.getF (ZP_STAT_PEER_ID z) = mateId))
  firstStatus [
    (decide (r.id ≠ mateId) || decide (r.names ≠ s.devId), 1),
    (!r.sameFirmware, 2),
    (decide (r.gen ≠ s.gen) || decide (r.digest ≠ be (cfgDigest s) 0 16), 3),
    (decide (r.path = s.isSet TW_CFG_MY_PATH), 4),
    (decide (r.leads = lead), 5),
    (s.tack.twinKey.isEmpty || !r.holdsSecret, 6),
    (!direct, 7)]

/-- Does this device take the lead in this binding? A bound lead keeps it; a device that comes back to a lead, or leaves MUTED, is
follower (R292); otherwise ROLE, or ARB_IN, decides (R272). -/
def takesLead (s : State) (r : Mate) (arb : Bool) : Bool :=
  if twinState s = 2 then true
  else if twinState s = 5 || r.standing then false
  else if s.isSet TW_CFG_ARB_EN then arb else !s.isSet TW_CFG_ROLE

/-- Can the pair bind now? While it is BINDING, from MUTED, and at a lead whose mate has come back. -/
def mayBind (s : State) : Bool := s.isSet TW_CFG_EN && [1, 2, 5].contains (twinState s)

/-- The lead sends what a follower needs to rejoin a channel: its slots (R292 step 3). -/
def sendSlots (n : Nat) (s : State) : State :=
  let put := fun (v : Fld) (i : Fld) (role : Nat) (s : State) => if s.isSet v then slotSend n (s.getF i) role s else s
  let s := put (KB_ROLES_CUR_V n 0) (KB_ROLES_CUR_SLOT n 0) 1 s
  let s := put (KB_ROLES_PREV_V n 0) (KB_ROLES_PREV_SLOT n 0) 2 s
  put (KB_ROLES_NEXT_V n 0) (KB_ROLES_NEXT_SLOT n 0) 0 s

/-- Beats from a snapshot to the eligible beat (R292 step 5): at least 2. -/
def eligibleAhead : Nat := 4

/-- A CONTEXT is sent for a channel (R289, R292): at once; in cell mode at the last slot before the eligible beat. -/
def giveContext (n : Nat) (s : State) : State :=
  let e := beatAdd s.beat eligibleAhead
  let c := s.txPort n
  if s.chMode n = 1 && s.isSet (CELL_PORT_CFG_EN c) && s.portUp (32 + c) then s.modTw n (fun t => { t with eligible := some e })
  else contextSend n e s

/-- Twin-mode channels of the configuration that waited for the pair open (R272). -/
def openWaiting (s : State) : State :=
  let b := beatAdd s.beat 64
  let l := (List.range 512).filter (fun n => decide (s.chState n = 0) && s.chTwin n
    && decide (tblGet [] (recKey s.devId 3 n (0x0100 + 2)) s.config ≠ []) && !s.changes.any (fun c => c.2 = .open n))
  { s with changes := s.changes ++ l.map (fun n => (b, .open n)) }

/-- TWIN_BIND ends on its mailbox (R364). -/
def bindEnds (st : Nat) (s : State) : State :=
  match s.ym.bindBox with
  | some m =>
    let s : State := { s with ym := { s.ym with bindBox := none } }
    mbDone m st [BitVec.ofNat 8 (twinState s)] s
  | none => s

/-- The pair is bound (R272, R273): a new session key, and the link's counts at 0. A follower with Twin-mode channels rejoins
them, and its lead sends their slots and contexts. -/
def bindNow (r : Mate) (lead : Bool) (s : State) : State :=
  let p := s.draw
  let s := p.2
  let own := BitVec.ofNat 64 p.1
  let a := if lead then own else r.value
  let b := if lead then r.value else own
  let key := kdf s.tack.twinKey (ascii "DZ8512 twin session" ++ beBytes 8 a.toNat ++ beBytes 8 b.toNat) 32
  let s : State := { s with twin := { s.twin with
    key := key, own := own, count := 0, bondTx := 0, bondRx := 0, early := [], backlog := [], inq := [], lastBeat := none,
    lastCame := s.beat, assigns := [], freeFrom := none, since := s.now } }
  let ns := twinChans s
  let s := setTwin (if lead then 2 else if ns.isEmpty then 3 else 6) s
  let s := if lead then ns.foldl (fun s n => giveContext n (sendSlots n s)) s
    else ns.foldl (fun s n => s.modTw n (fun t => { t with
      rejoining := true, since := s.now, gotContext := false, eligible := none, unmatched := [], own := [], lead := [],
      wit := [], crcBeat := none })) s
  openWaiting (bindEnds 0 s)

/-- TWIN_BOUND (R272, R273, R292): every condition holds. `arb`: the level of ARB_IN. -/
def execTwinBound (r : Mate) (arb : Bool) (s : State) : Host.Outcome State Fault Refusal :=
  let s := s.setF TW_STAT_ARB arb.toNat
  let lead := takesLead s r arb
  if mayBind s && decide (mateCheck s r lead = 0) then .next (bindNow r lead s) else .next s

/-- TWIN_BIND_FAIL (R272, R364): a condition has failed for 1 s; its number is recorded, and binding goes on. -/
def execTwinBindFail (r : Mate) (arb : Bool) (s : State) : Host.Outcome State Fault Refusal :=
  let s := s.setF TW_STAT_ARB arb.toNat
  let k := mateCheck s r (takesLead s r arb)
  if s.isSet TW_CFG_EN && decide (twinState s = 1) && decide (s.twin.since + ticksPerS ≤ s.now) && decide (k ≠ 0) then
    let s : State := { s with twin := { s.twin with since := s.now } }
    .next (bindEnds 3 (bellPulse 897 (s.report unitMerge 0x0701 noPath k)))
  else .next s

/-! ### The lead's records (R276) -/

/-- TWIN_BEAT_SEND (R276): the BEAT record of the beat that has just ended, with the number of its ASSIGN records. -/
def execTwinBeatSend (s : State) : Host.Outcome State Fault Refusal :=
  if twinState s ≠ 2 then .next s
  else
    let b := beatSub s.beat 1
    let k := tblGet 0 b.toNat s.twin.assigns
    let s : State := { s with twin := { s.twin with assigns := tblSet 0 b.toNat 0 s.twin.assigns } }
    .next (twinSend (twinHead 2 0 ++ beatBytes b ++ beBytes 4 k ++ zeros 4) s)

/-! ### Divergence (R288 to R290) -/

/-- The digests of the latest divergence are shown (R294). -/
def showDigests (n : Nat) (l o w : DWord) (s : State) : State :=
  ((s.wr64 (TWC_DIGEST n 0) l).wr64 (TWC_DIGEST n 2) o).wr64 (TWC_DIGEST n 4) w

/-- The follower has diverged on a channel (R289): muted, recorded, CONTEXT requested, rejoined; the third time within 1 s it
is FAULTY. -/
def diverge (n : Nat) (l o : DWord) (s : State) : State :=
  let s := twCnt n 2 (mutePath n .twinDiverge s)
  let s := twinEvt (some TW_EVT_DIVERGE) 0x0705 901 n l.toNat o.toNat s
  let d := s.twin.divs.filter (fun t => s.now < t + ticksPerS) ++ [s.now]
  let s := rejoinChan n { s with twin := { s.twin with divs := d } }
  if 3 ≤ d.length then
    let s := twinEvt (some TW_EVT_FAULTY) 0x0707 902 noPath 0 0 s
    setTwin 7 ((twinChans s).foldl (fun s n => mutePath n .twinFaulty s) s)
  else s

/-- A VERDICT record (R290): channel, beat, the three digests, and the outcome in bits [10:9]: 1 the follower diverged, 2 the lead
is outvoted, 3 the lead is authoritative. -/
def verdictSend (n b : Nat) (l o w : DWord) (out : Nat) (s : State) : State :=
  twinSend (beBytes 2 (7 * 4096 + out * 512 + n) ++ beBytes 6 b ++ beBytes 8 l.toNat ++ beBytes 8 o.toNat ++ beBytes 8 w.toNat) s

/-- The digests of a beat are settled. -/
def digestDrop (n b : Nat) (s : State) : State :=
  s.modTw n (fun t => { t with own := tblSet none b none t.own, lead := tblSet none b none t.lead, wit := tblSet none b none t.wit })

/-- A divergence is decided (R289, R290). -/
def decideDiverge (n b : Nat) (l o : DWord) (w : Option DWord) (s : State) : State :=
  let s := showDigests n l o (w.getD 0) (digestDrop n b s)
  if !s.isSet (TWC_CFG_WIT_EN n) then diverge n l o s
  else if w = some o then
    let v := s.twin.votes.filter (fun t => s.now < t + ticksPerS) ++ [s.now]
    verdictSend n b l o (w.getD 0) 2 { s with twin := { s.twin with votes := v } }
  else if w = some l then diverge n l o (verdictSend n b l o (w.getD 0) 1 s)
  else diverge n l o (verdictSend n b l o (w.getD 0) 3 s)

/-- The follower compares the digests of a beat where it has both (R278). With a Witness it waits for its digest, for no more than
4 beats after the lead's (R290). -/
def digestCompare (n b : Nat) (s : State) : State :=
  let t := (s.chan n).tw
  match tblGet none b t.own, tblGet none b t.lead with
  | some o, some l =>
    if o = l.1 then digestDrop n b s
    else
      let w := tblGet none b t.wit
      let late := beatBefore (beatAdd l.2 4) s.beat
      if s.isSet (TWC_CFG_WIT_EN n) && w.isNone && !late then s else decideDiverge n b l.1 o w s
  | _, _ => s

/-- Differences that have waited too long for a Witness are decided. -/
def digestsLate (s : State) : State :=
  (twinChans s).foldl (fun s n => ((s.chan n).tw.lead.map (·.1)).foldl (fun s b => digestCompare n b s) s) s

/-! ### FREE_RUN (R279, R280) -/

/-- Beats of FREE_RUN whose digests this device holds, for a channel. -/
def freeBeats (s : State) (n : Nat) : List Nat :=
  match s.twin.freeFrom with
  | some f => ((s.chan n).tw.own.map (·.1)).filter (fun b => decide (s.chMode n = 2) || !beatBefore (BitVec.ofNat 48 b) f)
  | none => []

/-- The follower returns from FREE_RUN (R279): the lead's digests for every beat of it have come; channels on which they differ
are divergent. -/
def freeReturn (s : State) : State :=
  let back := match s.twin.lastBeat, s.twin.freeFrom with
    | some b, some f => !beatBefore b f
    | _, _ => false
  let ns := twinChans s
  let whole := ns.all (fun n => (freeBeats s n).all (fun b => (tblGet none b (s.chan n).tw.lead).isSome))
  if twinState s = 4 && back && whole then
    let s := setTwin 3 { s with twin := { s.twin with freeFrom := none } }
    ns.foldl (fun s n => ((s.chan n).tw.own.map (·.1)).foldl (fun s b => digestCompare n b s) s) s
  else s

/-- Pending frames take F_COUNT in order of acceptance (R279). -/
def freeGive : Nat → State → State
  | 0, s => s
  | k + 1, s =>
    match s.pend with
    | [] => s
    | u :: r => freeGive k (twCnt u.ch 3 (twinGive u (fBase s u.ch u.stamp) u.stamp { s with pend := r }))

/-- TWIN_FREE_RUN_ENTER (R279): at a beat boundary no BEAT record has come in either of the two beats before it. -/
def execTwinFreeRunEnter (s : State) : Host.Outcome State Fault Refusal :=
  if twinState s = 3 && decide (3 ≤ (s.beat - s.twin.lastCame).toNat) then
    let s := setTwin 4 { s with twin := { s.twin with freeFrom := some s.beat, lastBeat := none } }
    let s := (twinChans s).foldl (fun s n => s.modTw n (fun t => { t with unmatched := [] })) s
    .next (freeGive s.pend.length (twinEvt (some TW_EVT_FREE_RUN) 0x0702 898 noPath 0 0 s))
  else .next s

/-- Beats spent in FREE_RUN (TW_STAT `FR_BEATS`). -/
def freeRunBeats (s : State) : Nat :=
  match s.twin.freeFrom with
  | some f => min 4096 (s.beat - f).toNat
  | none => 0

/-- TWIN_FREE_RUN_EXPIRY (R279): after 4,096 beats every Twin-mode path is muted. -/
def execTwinFreeRunExpiry (s : State) : Host.Outcome State Fault Refusal :=
  if twinState s = 4 && decide (4096 ≤ freeRunBeats s) then
    let s := (twinChans s).foldl (fun s n => mutePath n .freeRun s) s
    .next (setTwin 5 (twinEvt (some TW_EVT_MUTED) 0x0703 899 noPath 0 0 s))
  else .next s

/-- The follower becomes lead (R280): pending frames take its count, and each Twin-mode channel sends ALARM. -/
def promote (s : State) : State :=
  let s := freeGive s.pend.length s
  let s := setTwin 2 { s with twin := { s.twin with freeFrom := none, votes := [], assigns := [] } }
  let s := twinEvt (some TW_EVT_PROMOTED) 0x0704 900 noPath 0 0 s
  (twinChans s).foldl (fun s n => if s.brUp n then sendAlarm n 0x0704 0 s else s) s

/-- TWIN_PROMOTE (R280, R290): at a beat boundary, in FREE_RUN with ARB_IN high; or once the lead has been outvoted three times
within 1 s. -/
def execTwinPromote (arb : Bool) (s : State) : Host.Outcome State Fault Refusal :=
  let s := s.setF TW_STAT_ARB arb.toNat
  let voted := decide (3 ≤ (s.twin.votes.filter (fun t => s.now < t + ticksPerS)).length)
  if (twinState s = 4 && s.isSet TW_CFG_ARB_EN && arb) || (twinState s = 3 && voted) then .next (promote s) else .next s

/-! ### The follower's side of the records (R277, R278, R281) -/

/-- A lead receives an ASSIGN record from its mate (R280): of two leads, the one on path 2 mutes its paths and rejoins. -/
def twoLeads (s : State) : State :=
  let s := twinEvt (some TW_EVT_TWO_LEADS) 0x0709 903 noPath 0 0 s
  if s.isSet TW_CFG_MY_PATH then
    let ns := twinChans s
    setTwin 6 (ns.foldl (fun s n => rejoinChan n (mutePath n .twinDiverge s)) s)
  else s

/-- The EFN of a layer-1 channel of a follower is set from the frame its lead names (R196): its own last frame keeps its MFAS. -/
def takeNamed (n efn : Nat) (s : State) : State :=
  let last := (s.rd64 (CH_MODE_W0_LO n)).toNat
  let v := extendNear last 32 48 efn
  let w := if s.isSdh n then v else extendNear v 8 48 (last % 256)
  (s.wr64 (CH_MODE_W0_LO n) (BitVec.ofNat 64 w)).modL1 n (fun l => { l with efnAt := none })

/-- The beat of a stamp. -/
def stampBeat (y : DWord) : Beat := (y >>> 16).truncate 48

/-- TWIN_ASSIGN_RX (R277, R280): ASN and Yardstamp are extended from F_COUNT and from this device's position (R74); a rejoining
channel adopts records from its eligible beat on (R292). A Witness, which no SWITCH_AT reaches, switches with the frame whose ASN is 0. -/
def execTwinAssignRx (s : State) : Host.Outcome State Fault Refusal :=
  .next (twinTake 1 s (fun r n s =>
    let st := twinState s
    if st = 2 then twoLeads s
    else if !(st = 3 ∨ st = 6 ∨ isWitness s n) then s
    else
      let stamp := BitVec.ofNat 64 (extendNear s.stamp.toNat 32 64 (be r 6 4))
      let t := (s.chan n).tw
      let old := t.rejoining && !(t.eligible.any (fun e => stampAtOrAfter stamp e))
      if old then s
      else if s.chMode n = 2 then takeNamed n (be r 2 4) s
      else
        let s := if isWitness s n && decide (be r 2 4 = 0) && s.isSet (KB_ROLES_NEXT_V n 0) then
            (doSwitch n 0 s).modChan n (fun c => { c with beginOut := stampBeat stamp })
          else s
        let asn := BitVec.ofNat 64 (extendNear (fBase s n stamp).toNat 32 64 (be r 2 4))
        twinMatch n (s.modTw n (fun t => { t with unmatched := t.unmatched ++ [(stamp, asn, be r 10 4, be r 14 2)] }))))

/-- Pending frames of a channel that no ASSIGN record of a beat up to `b` has matched (R277). -/
def dropUnassigned (n : Nat) (b : Beat) (s : State) : State :=
  let gone := s.pend.filter (fun u => decide (u.ch = n) && beatBefore (stampBeat u.stamp) b)
  let s : State := { s with pend := s.pend.filter (fun u => !(decide (u.ch = n) && beatBefore (stampBeat u.stamp) b)) }
  if (s.chan n).tw.rejoining || gone.isEmpty then s else s.cnt64 (TWC_CNT n 2) gone.length

/-- ASSIGN records of a beat before `b` that match no pending frame (R277): skipped; in cell mode a divergence (R288). -/
def dropSkipped (n : Nat) (b : Beat) (s : State) : State :=
  let gone := (s.chan n).tw.unmatched.filter (fun x => beatBefore (stampBeat x.1) b)
  let s := s.modTw n (fun t => { t with unmatched := t.unmatched.filter (fun x => !beatBefore (stampBeat x.1) b) })
  if gone.isEmpty then s
  else
    let s := bellPulse 904 ((s.cnt64 (TWC_CNT n 0) gone.length).report unitMerge 0x070A n gone.length)
    if s.chMode n = 1 && !isWitness s n then diverge n 0 0 s else s

/-- TWIN_BEAT_RX (R277, R279, R290). -/
def execTwinBeatRx (s : State) : Host.Outcome State Fault Refusal :=
  .next (twinTake 2 s (fun r _ s =>
    let b : Beat := BitVec.ofNat 48 (be r 2 6)
    let st := twinState s
    if !([3, 4, 6].contains st) then s
    else
      let s : State := { s with twin := { s.twin with lastBeat := some b, lastCame := s.beat } }
      if st = 4 then freeReturn s
      else digestsLate ((twinChans s).foldl (fun s n => dropSkipped n b (dropUnassigned n b s)) s)))

/-- The digest of a Witness for a beat, from the frames it has computed; they go nowhere (R290). -/
def witnessDigest (n b : Nat) (s : State) : State :=
  let mine := s.units.filter (fun u => decide (u.ch = n) && decide ((stampBeat u.stamp).toNat = b))
  let d := mine.foldl (fun c u => crc64 c (beBytes 8 u.asn.toNat ++ (protect s u).icv)) 0
  let s : State := { s with units := s.units.filter (fun u => !(decide (u.ch = n) && decide ((stampBeat u.stamp).toNat = b))) }
  if mine.isEmpty then s else s.modTw n (fun t => { t with own := tblSet none b (some d) t.own })

/-- TWIN_DIGEST_DONE (R278): every unit of beat `b`, or of the multiframe whose first EFN it is, has been computed: the lead sends
its digest, the follower compares, a Witness sends its own to both Twins (kind 0x16 of STATE_SYNC). -/
def execTwinDigestDone (n : Fin 512) (b : Nat) (s : State) : Host.Outcome State Fault Refusal :=
  let n := n.val
  let left := s.units.any (fun u => decide (u.ch = n) && decide (s.chMode n = 0) && decide ((stampBeat u.stamp).toNat = b))
  if !s.chTwin n || (left && !isWitness s n) then .next s
  else
    let s := if isWitness s n && s.chMode n = 0 then witnessDigest n b s
      else s.modTw n (fun t => if t.crcBeat.any (fun x => decide (x.toNat = b)) then digestClose t else t)
    match tblGet none b (s.chan n).tw.own with
    | none => .next s
    | some d =>
      if isWitness s n then
        let body := [0x16, 0] ++ twinHead 3 n ++ beBytes 6 b ++ beBytes 8 d.toNat
        .next (fabCast none (fabHeader 6 0x80 0x3FF s.devId 0 body.length 0 0 0 ++ body) (digestDrop n b s))
      else if twinState s = 2 then .next (twinSend (twinHead 3 n ++ beBytes 6 b ++ beBytes 8 d.toNat) (digestDrop n b s))
      else if twinState s = 3 || twinState s = 6 then .next (digestCompare n b s)
      else .next s

/-- TWIN_DIGEST_RX (R278, R279): the lead's digest of a beat or multiframe. A channel that rejoins compares nothing. -/
def execTwinDigestRx (s : State) : Host.Outcome State Fault Refusal :=
  .next (twinTake 3 s (fun r n s =>
    let b := be r 2 6
    if !([3, 4, 6].contains (twinState s)) || (s.chan n).tw.rejoining then s
    else
      let s := s.modTw n (fun t => { t with lead := tblSet none b (some (BitVec.ofNat 64 (be r 8 8), s.beat)) t.lead })
      if twinState s = 4 then freeReturn s else digestCompare n b s))

/-- WITNESS_DIGEST_RX (R290): a Witness digest for a beat; one more than 4 beats after the lead's is ignored. -/
def execWitnessDigestRx (s : State) : Host.Outcome State Fault Refusal :=
  match s.fab.inq with
  | m :: rest =>
    if m.typ = 6 && decide (at' m.body 0 = 0x16) then
      let s : State := { s with fab := { s.fab with inq := rest } }
      let n := be m.body 2 2 % 512
      let b := be m.body 4 6
      if s.isSet (TWC_CFG_WIT_EN n) && s.chTwin n && decide (m.src = s.getF (TWC_CFG_WIT_ID n)) && (twinState s = 3 || twinState s = 6) then
        let late := (tblGet none b (s.chan n).tw.lead).any (fun l => beatBefore (beatAdd l.2 4) s.beat)
        if late then .next (digestCompare n b s)
        else .next (digestCompare n b (s.modTw n (fun t => { t with wit := tblSet none b (some (BitVec.ofNat 64 (be m.body 10 8))) t.wit })))
      else .next s
    else .next s
  | [] => .next s

/-- TWIN_VERDICT_RX (R290): a lead that is outvoted mutes its path for the channel, records it, takes the follower's CONTEXT and
rejoins; the third time within 1 s it demotes itself. -/
def execTwinVerdictRx (s : State) : Host.Outcome State Fault Refusal :=
  .next (twinTake 7 s (fun r n s =>
    let out := be r 0 2 / 512 % 8
    let s := showDigests n (BitVec.ofNat 64 (be r 8 8)) (BitVec.ofNat 64 (be r 16 8)) (BitVec.ofNat 64 (be r 24 8)) s
    if twinState s ≠ 2 || out ≠ 2 then s
    else
      let s := twinEvt (some TW_EVT_OUTVOTED) 0x0706 901 n (be r 8 8) (be r 16 8) (mutePath n .twinDiverge s)
      let v := s.twin.votes.filter (fun t => s.now < t + ticksPerS) ++ [s.now]
      let s := rejoinChan n { s with twin := { s.twin with votes := v } }
      if 3 ≤ v.length then
        let s := twinEvt (some TW_EVT_FAULTY) 0x0708 902 noPath 0 0 s
        setTwin 3 { s with twin := { s.twin with votes := [], lastCame := s.beat } }
      else s))

/-- TWIN_SLOT_RX (R232, R292 step 3): the slot enters the same index; a next slot takes its role in both directions and releases the
one it replaces; while the channel rejoins, its CONTEXT brings the roles. The install is acknowledged (record type 8). -/
def execTwinSlotRx (s : State) : Host.Outcome State Fault Refusal :=
  .next (twinTake 4 s (fun r n s =>
    let i := at' r 2 % 4
    let f := at' r 3
    let key := if isWitness s n then witnessKey s s.devId else s.twin.key
    match unwrap key (slice r 8 56) with
    | none => unwrapFailed s
    | some p =>
      let s := s.setSlot (slotOf n i)
        { kind := f / 16 % 4, bytes := p.take 46, epoch := be r 4 4, an := f % 4, keyId := [], persist := false, bad := false }
      let s := slotsRefresh s
      let s := if f / 4 % 4 = 0 then
          [0, 1].foldl (fun s d => (s.setF (KB_ROLES_NEXT_V n d) 1).setF (KB_ROLES_NEXT_SLOT n d) i) (replayClear n (f % 4) s)
        else s
      let s := if f / 4 % 4 = 0 && !(s.chan n).tw.rejoining then reapSlots n s else s
      if isWitness s n then s else twinSend (twinHead 8 n ++ [BitVec.ofNat 8 i]) s))

/-- A KEY_INSTALL that waited for the follower arms its outbound switch (R232, R362): no longer, where the beat lies less than Λ
ahead. -/
def installArm (x : Install) (s : State) : Install × State :=
  match x.arm with
  | none => (x, s)
  | some b =>
    if beatBefore b (earliestSwitch s x.ch) then ({ x with arm := none }, s)
    else ({ x with arm := none, marks := 0 :: x.marks }, beginSwitch x.ch x.epoch b true s)

/-- TWIN_SLOT_ACK_RX (R232): the follower has installed a slot; installs that wait for it go on. -/
def execTwinSlotAckRx (s : State) : Host.Outcome State Fault Refusal :=
  .next (twinTake 8 s (fun r n s =>
    let i := at' r 2 % 4
    let s := s.modTw n (fun t => { t with slotAcked := i :: t.slotAcked.filter (· ≠ i) })
    let y := s.ym.installs.foldl
      (fun (y : List Install × State) x =>
        if x.ch = n ∧ x.slot = slotOf n i then
          let z := installArm x y.2
          (y.1 ++ [z.1], z.2)
        else (y.1 ++ [x], y.2)) ([], s)
    installsEnd { y.2 with ym := { y.2.ym with installs := y.1 } }))

/-- What a composed message of the lead decides, at the follower (R281): the session identifier of a HELLO, an armed switch, a
cancelled one. -/
def followBridle (n : Nat) (m : List Byte) (s : State) : State :=
  let typ := at' m 1
  let sid := be m 16 8
  let s := if sid ≠ s.sidTx n then
      let s := (s.wr64 (BR_SID_TX_LO n) (BitVec.ofNat 64 sid)).wr64 (BR_SID_RX_LO n) (BitVec.ofNat 64 (be m 24 8))
      [0, 1, 2].foldl (fun s i => s.wr (BR_TX_SEQ n i) 0)
        (((s.modBr n (fun _ => Session.reset)).setF (BR_STAT_STATE n) 1).setF (BR_STAT_ROLE n) (s.roleB n).toNat)
    else s
  let s := if (s.rd (BR_TX_SEQ n 0)).toNat < be m 12 4 then s.wr (BR_TX_SEQ n 0) (BitVec.ofNat 32 (be m 12 4)) else s
  if typ = brSwitchAt then
    let b : Beat := BitVec.ofNat 48 (be m 36 6)
    let s := armSwitch n 0
      { epoch := be m 32 4, beat := b, sent := true, acked := false, markDone := false, late := false, host := !s.hwKeys n } true s
    if s.chMode n = 2 then
      s.wr64 (CH_MODE_W1_LO n) (BitVec.ofNat 64 (switchFrame (be m 44 6, BitVec.ofNat 64 (be m 50 8), be m 58 6) b).1)
    else s
  else if typ = brSwitchCancel then disarmSwitch n 0 s
  else s

/-- TWIN_BRIDLE_RX (R281): the follower sends the lead's message on its own path. -/
def execTwinBridleRx (s : State) : Host.Outcome State Fault Refusal :=
  .next (twinTake 5 s (fun r n s =>
    let m := r.drop 2
    if twinState s < 3 then s
    else
      let s := brCnt n 0 (followBridle n m s)
      { s with brTx := s.brTx ++ [{ ch := n, lane := 1, urgent := at' m 1 = brSwitchAt || at' m 1 = brSwitchCancel,
                                    bytes := m, sent := 0 }] }))

/-! ### Rejoining (R289, R292) -/

/-- TWIN_CONTEXT_REQUEST_RX (R289, R290): the channel's slots and its snapshot are sent. -/
def execTwinContextRequestRx (s : State) : Host.Outcome State Fault Refusal :=
  .next (twinTake 9 s (fun _ n s => if s.chTwin n && s.chOpen n then giveContext n (sendSlots n s) else s))

/-- A word of the Stall in a CONTEXT record. -/
def ctxWord (r : List Byte) (off : Nat) : Nat := le r (16 + (off - 0x40)) 4

/-- A flagged value of a CONTEXT record's tail. -/
def ctxOpt (r : List Byte) (bit o k : Nat) : Option Nat :=
  if at' r (2000 + 14) / 2 ^ bit % 2 = 1 then some (be r (2000 + o) k) else none

/-- Key blocks, ASNs, positions, mode words and replay state of a channel become the lead's (R292). -/
def ctxWords (n : Nat) (r : List Byte) (s : State) : State :=
  let s := (List.range 48).foldl
    (fun s i => s.wr (CH_CFG n + 0x40 + 4 * i) (BitVec.ofNat 32 (ctxWord r (0x40 + 4 * i)))) s
  let s := [0, 1].foldl (fun s d => keyShow n d (s.setF (KB_ROLES_PERSIST n d) 0)) s
  s.wr64 (TWC_F_COUNT_LO n) (s.rd64 (CH_OUT_ASN_LO n))

/-- A direction's armed switch as its key block shows it. -/
def ctxSwitch (s : State) (n d : Nat) : Option Switch :=
  if s.isSet (KB_ROLES_SW_ARMED n d) then
    some { epoch := (s.slot (slotOf n (s.getF (KB_ROLES_NEXT_SLOT n d)))).epoch
           beat := BitVec.ofNat 48 ((s.rd (KB_SW_BEAT_LO n d)).toNat + s.getF (KB_SW_BEAT_HI_SW_BEAT_HI n d) * 2 ^ 32)
           sent := true, acked := true, markDone := true, late := false, host := !s.hwKeys n }
  else none

/-- A channel's context is taken (R292): slots that its roles do not name are released; the epochs' beats and numbers, the R-TAG count, the cell and layer-1 streams. -/
def ctxTake (n : Nat) (r : List Byte) (s : State) : State :=
  let s := ctxWords n r s
  let ep := ctxOpt r 5 40 4
  let s := s.modChan n (fun c => { c with
    swOut := ctxSwitch s n 0, swIn := ctxSwitch s n 1, beginOut := BitVec.ofNat 48 (be r 2000 6)
    lastOut := ctxOpt r 0 6 4, lastIn := ctxOpt r 1 10 4
    graceOut := (ctxOpt r 2 16 6).map (BitVec.ofNat 48), graceIn := (ctxOpt r 3 22 6).map (BitVec.ofNat 48)
    rtagCount := be r 14 2
    cell := if s.chMode n = 1 then { c.cell with outEpoch := ep } else c.cell
    l1 := if s.chMode n = 2 then
        { c.l1 with epochOut := ep, firstOut := be r 2044 6, outStamp := BitVec.ofNat 64 (be r 2050 8), period := be r 2058 6,
                    efnAt := none, mfOut := none }
      else c.l1
    tw := { c.tw with gotContext := true, eligible := some (BitVec.ofNat 48 (be r 8 6)) } })
  let s := reapSlots n (commitT120 s)
  match ctxOpt r 4 28 8 with
  | some asn => { s with units := s.units.map (fun u => if u.ch = n ∧ u.asn.toNat = asn then { u with placed := be r 2036 4 } else u) }
  | none => s

/-- TWIN_CONTEXT_RX (R292 step 4): a rejoining channel takes its snapshot. -/
def execTwinContextRx (s : State) : Host.Outcome State Fault Refusal :=
  .next (twinTake 6 s (fun r n s => if (s.chan n).tw.rejoining then ctxTake n r s else s))

/-- TWIN_REJOIN_ELIGIBLE (R292 step 5): at its eligible beat a rejoining channel drops the frames stamped before it, transmits
again and sends ALARM; with the last of them the Twin follows. -/
def execTwinRejoinEligible (n : Fin 512) (s : State) : Host.Outcome State Fault Refusal :=
  let n := n.val
  let t := (s.chan n).tw
  match t.eligible with
  | some e =>
    if t.rejoining && t.gotContext && s.beatDue e then
      let s : State := { s with pend := s.pend.filter (fun u => !(decide (u.ch = n) && beatBefore (stampBeat u.stamp) e)) }
      let s := s.modTw n (fun t => { t with rejoining := false, gotContext := false, eligible := none })
      let s := unmutePath n .twinDiverge (unmutePath n .twinFaulty (unmutePath n .freeRun s))
      let s := if s.brUp n then
          brSend n brAlarm (s.answerStream n) 1 false
            (beBytes 2 0x070E ++ [BitVec.ofNat 8 (faultClass 0x070E), 0] ++ beBytes 8 s.stamp.toNat ++ zeros 8) s
        else s
      let s := bellPulse 907 (s.report unitMerge 0x070E n n)
      if (twinChans s).any (fun k => (s.chan k).tw.rejoining) then .next s
      else
        let s := s.setF TW_EVT_REJOINED 1
        .next (if twinState s = 6 then setTwin 3 { s with twin := { s.twin with lastCame := s.beat } } else s)
    else .next s
  | none => .next s

/-- TWIN_REJOIN_LATE (R292): a channel has not rejoined within 2 s; its steps are repeated. -/
def execTwinRejoinLate (n : Fin 512) (s : State) : Host.Outcome State Fault Refusal :=
  let n := n.val
  let t := (s.chan n).tw
  if t.rejoining && decide (t.since + 2 * ticksPerS ≤ s.now) then
    .next (rejoinChan n (bellPulse 907 (s.report unitMerge 0x070D n n)))
  else .next s

end Sys2Proof.Machine
end

