-- ==== Sys2Proof/Machine/FabLink.lean ====
section
/-!
DEFINITION. The Z links and the delivery of messages (spec/12 R296 to R300, R308 to R313; spec/11 R273 for the twin link).
-/

namespace Sys2Proof.Machine

/-! ### Messages that arrive (R273, R308, R311) -/

/-- A message with its header read (R308). -/
def parseMsg (z : Nat) (m : List Byte) : FabMsg :=
  { port := z, typ := at' m 0, flags := at' m 1, dst := be m 2 2 % 1024, src := be m 4 2 % 1024, een := be m 6 2, status := at' m 10,
    tag := be m 12 4, addr := be m 16 8 % 2 ^ 48, body := slice m 24 (be m 8 2) }

/-- A pull of this device's configuration is answered (R327). -/
def giveConfig (d : Nat) (s : State) : State := (transferBodies s).foldl (fun s b => fabSend d 6 0 0 0 b s) s

/-- A piece of a configuration arrives (R327): what this device has of another one is dropped. Only a higher generation is taken, or
the configuration of the master or the lead. -/
def takePiece (x : FabMsg) (s : State) : State :=
  let b := x.body
  let g := be b 2 8
  let d := slice b 10 16
  let chief := if s.isSet FAB_CFG_EN then s.getF FAB_STAT_MASTER_ID else s.getF TW_CFG_MATE_ID
  if g < s.gen ∨ (g = s.gen ∧ (x.src ≠ chief ∨ s.isSet FAB_STAT_IS_MASTER)) then s
  else
    let old := match s.fab.pulled with
      | some p => if p.gen = g ∧ p.digest = d ∧ !p.whole then p.raw else []
      | none => []
    { s with fab := { s.fab with pulled := some { gen := g, digest := d, raw := old ++ b.drop 26, whole := decide (at' b 1 = 1) } } }

/-- Commands whose generation this device has applied end on their mailboxes (R326). -/
def sentEnd (s : State) : State :=
  let done := fun (x : SentCmd) => x.gen.any (fun g => decide (g ≤ s.gen))
  (s.ym.sent.filter done).foldl (fun s x => cfgEnd x.op x.box x.rsp s)
    { s with ym := { s.ym with sent := s.ym.sent.filter (fun x => !done x) } }

/-- A master's or a lead's answer to a configuration command (R326): mailbox, status, generation. -/
def takeResult (b : List Byte) (s : State) : State :=
  let m := at' b 1
  if at' b 2 ≠ 0 then
    if s.ym.sent.any (fun x => x.box = m) then
      mbDone m (at' b 2) [] { s with ym := { s.ym with sent := s.ym.sent.filter (fun x => x.box ≠ m) } }
    else s
  else
    sentEnd { s with ym := { s.ym with sent := s.ym.sent.map (fun x => if x.box = m then { x with gen := some (be b 3 8) } else x) } }

/-- A message waits for its handling. What needs no event of its own is handled as it is delivered: a lead's record for a
Witness joins the Twin records (R290); answers, pulls and pieces of a configuration (R326, R327). -/
def inqPut (x : FabMsg) (s : State) : State :=
  let k := at' x.body 0
  if x.typ = 6 ∧ k = 0x15 then { s with twin := { s.twin with inq := s.twin.inq ++ [x.body.drop 2] } }
  else if x.typ = 6 ∧ k = 0x11 then takeResult x.body s
  else if x.typ = 6 ∧ k = 0x12 then giveConfig x.src s
  else if x.typ = 6 ∧ k = 0x13 then takePiece x s
  else { s with fab := { s.fab with inq := s.fab.inq ++ [x] } }

/-- Early twin records that follow on are delivered, and how many (R273). -/
def bondRun (l : List (Nat × List Byte)) : Nat → Nat → List (List Byte)
  | 0, _ => []
  | k + 1, n => match l.find? (fun e => e.1 = n) with
    | some e => e.2 :: bondRun l k (n + 1)
    | none => []

/-- A record of the twin link of bond sequence number `n`: records are delivered in order, each once (R273). -/
def bondTake (n : Nat) (r : List Byte) (s : State) : State :=
  let t := s.twin
  if n < t.bondRx then s
  else
    let early := if t.early.any (fun e => e.1 = n) then t.early else t.early ++ [(n, r)]
    let run := bondRun early early.length t.bondRx
    let next := t.bondRx + run.length
    { s with twin := { t with bondRx := next, early := early.filter (fun e => decide (next ≤ e.1)), inq := t.inq ++ run } }

/-- A STATE_SYNC message from the mate over a member port: a record under the session key, where its tag verifies. -/
def twinRecord (s : State) (x : FabMsg) : Option (Nat × List Byte) :=
  let n := extendNear s.twin.bondRx 32 64 (be x.body 0 4)
  let iv := twinNonce (1 - s.getF TW_CFG_MY_PATH) n
  let ct := (x.body.drop 4).take (x.body.length - 20)
  let ok := decide (24 ≤ x.body.length) && decide (gcmTagBytes s.twin.key iv [] ct = x.body.drop (x.body.length - 16))
  if ok && s.bound && decide (x.src = s.getF TW_CFG_MATE_ID) && decide (s.getF TW_CFG_TLINKS / 2 ^ x.port % 2 = 1) then
    some (n, gcmStream s.twin.key iv ct)
  else none

/-- A message for this device alone (R308). -/
def takeHop (x : FabMsg) (s : State) : State :=
  if x.typ = 6 then
    match twinRecord s x with
    | some r => bondTake r.1 r.2 s
    | none => inqPut x s
  else inqPut x s

/-- Early messages of a source and virtual channel that follow on, and how many. -/
def eenRun (l : List (Nat × FabMsg)) (src vc : Nat) : Nat → Nat → List FabMsg
  | 0, _ => []
  | k + 1, n => match l.find? (fun e => decide (e.2.src = src) && decide (fabVc e.2.typ = vc) && decide (e.2.een = n)) with
    | some e => e.2 :: eenRun l src vc k ((n + 1) % 65536)
    | none => []

/-- Messages of a source and virtual channel are delivered from the next expected on (R311). -/
def eenDeliver (src vc : Nat) (s : State) : State :=
  let key := 4 * src + vc
  let run := eenRun s.fab.early src vc s.fab.early.length (tblGet 0 key s.fab.eenRx)
  let s : State := { s with fab := { s.fab with
      eenRx := tblSet 0 key ((tblGet 0 key s.fab.eenRx + run.length) % 65536) s.fab.eenRx
      early := s.fab.early.filter (fun e => !(decide (e.2.src = src) && decide (fabVc e.2.typ = vc)
        && run.any (fun m => decide (m.een = e.2.een)))) } }
  run.foldl (fun s x => inqPut x s) s

/-- A routed message for this device (R311): in EEN order, duplicates discarded, up to 64 early ones held. -/
def takeRouted (x : FabMsg) (s : State) : State :=
  let vc := fabVc x.typ
  let d := (x.een + 65536 - tblGet 0 (4 * x.src + vc) s.fab.eenRx) % 65536
  let known := s.fab.early.any (fun e => decide (e.2.src = x.src) && decide (fabVc e.2.typ = vc) && decide (e.2.een = x.een))
  if 32768 ≤ d ∨ known ∨ (d ≠ 0 ∧ 64 ≤ s.fab.early.length) then s
  else eenDeliver x.src vc { s with fab := { s.fab with early := s.fab.early ++ [(s.now, x)] } }

/-- A whole message has arrived on a port (R303, R307, R309): another MTYPE is discarded; a device out of the fabric takes the
twin link alone; one in CLASH only what discovers it. -/
def fabArrive (z : Nat) (m : List Byte) (s : State) : State :=
  let x := parseMsg z m
  let hop := decide (x.flags / 64 % 2 = 1)
  let cast := decide (x.flags / 128 = 1)
  if x.typ = 0 ∨ 12 < x.typ then s.cntSat (ZP_CRC_ERR_CRC_ERR z) 1
  else if !s.isSet FAB_CFG_EN then (if hop && (decide (x.typ = 6) || decide (x.typ = 9)) then takeHop x s else s)
  else if s.getF FAB_STAT_STATE = 3 ∧ !(x.typ = 0xB ∨ x.typ = 0xC ∨ (hop ∧ x.typ = 6)) then s
  else if hop then takeHop x s
  else if cast then inqPut x (fabCast (some z) m s)
  else if x.dst = s.devId then takeRouted x s
  else match fabRoutePort s x.dst with
    | some o => zSend o (fabVc x.typ) m s
    | none => fabEvt 10 0x0806 x.dst s

/-! ### Flits (R296 to R300) -/

/-- ACK and CREDIT of a good flit (R297, R298): flits up to ACK leave the replay buffer. -/
def flitAcks (z : Nat) (f : List Byte) (s : State) : State :=
  let ack := be f 4 2 % 4096
  let vc := at' f 6 / 64
  s.modZp z (fun p =>
    let p := { p with credit := tblSet 0 vc (at' f 7) p.credit }
    match p.replay.findIdx? (fun e => e.1 = ack) with
    | some i => { p with replay := p.replay.drop (i + 1), tries := 0, ackTick := s.now }
    | none => p)

/-- A flit is discarded (R298): counted. -/
def flitDrop (z : Nat) (s : State) : State := s.cntSat (ZP_CRC_ERR_CRC_ERR z) 1

/-- NAK names the SEQ expected, once until it comes (R298). -/
def sendNak (z : Nat) (s : State) : State :=
  let p := s.zp z
  if p.nak then s else (linkCtl z 2 (beBytes 2 p.rxSeq) s).modZp z (fun p => { p with nak := true })

/-- A sequenced flit in order joins its message (R297, R299, R308): its buffer is freed, and a whole message arrives. -/
def flitJoin (z kind vc : Nat) (payload : List Byte) (s : State) : State :=
  let old := tblGet [] vc (s.zp z).asm
  let m := if kind = 1 ∨ kind = 4 then payload else old ++ payload
  let s := s.modZp z (fun p => { p with
    rxSeq := (p.rxSeq + 1) % 4096, nak := false, freed := tblSet 0 vc ((tblGet 0 vc p.freed + 1) % 256) p.freed
    asm := tblSet [] vc (if kind = 3 ∨ kind = 4 then [] else m) p.asm })
  let s := flitOut z 0 0 0 [] s
  if kind = 3 ∨ kind = 4 then fabArrive z m s else s

/-- FAB_FLIT_RX (R298): a flit is received and checked for CRC and SEQ. Each flit taken is acknowledged by an idle one. -/
def execFabFlitRx (z : Fin 8) (f : List Byte) (s : State) : Host.Outcome State Fault Refusal :=
  let z := z.val
  let kind := at' f 0 / 32
  let seq := be f 2 2 % 4096
  if !s.zUp z then .next s
  else if f.length ≠ 128 ∨ fcsOf (f.take 124) ≠ f.drop 124 then .next (sendNak z (flitDrop z s))
  else if kind = 0 ∨ 5 ≤ kind then .next (pump z (flitAcks z f s))
  else if seq = (s.zp z).rxSeq then .next (pump z (flitJoin z kind (at' f 0 / 8 % 4) (slice f 8 116) (flitAcks z f s)))
  else if 2048 ≤ (seq + 4096 - (s.zp z).rxSeq) % 4096 then .next (flitDrop z s)
  else .next (sendNak z (flitDrop z s))

/-- FAB_INIT_RX (R296): the peer's serial number, device ID and port. The port's own serial number is a loop. -/
def execFabInitRx (z : Fin 8) (serial : DWord) (dev : Fin 1024) (port : Fin 8) (s : State) : Host.Outcome State Fault Refusal :=
  let z := z.val
  if s.getF (PORT_STAT_STATE (64 + z)) ≠ 1 then .next s
  else if serial = Config.serial then .next (fabEvt 0 0x0808 z s)
  else
    let s := (s.setF (ZP_STAT_PEER_ID z) dev.val).setF (ZP_STAT_PEER_PORT z) port.val
    let s := s.modZp z (fun p => { p with init := true, peer := serial })
    .next (if s.isSet (PORT_STAT_LOCK (64 + z)) then s.setF (PORT_STAT_STATE (64 + z)) 2 else s)

/-- Unacknowledged flits are sent again from the oldest (R298); after 16 times in a row the link goes DOWN (R300). -/
def replayAll (z : Nat) (s : State) : State :=
  let p := s.zp z
  if p.replay.isEmpty then s
  else if 16 ≤ p.tries then portDown (64 + z) s
  else
    let s := s.modZp z (fun p => { p with tries := p.tries + 1, ackTick := s.now })
    p.replay.foldl (fun s e => flitOut z e.2.kind e.2.vc e.1 e.2.payload s) (s.cntSat (ZP_REPLAY_REPLAY z) p.replay.length)

/-- FAB_NAK_RX (R298): what precedes the SEQ named has arrived; the rest is replayed. -/
def execFabNakRx (z : Fin 8) (seq : Fin 4096) (s : State) : Host.Outcome State Fault Refusal :=
  let z := z.val
  if !s.zUp z then .next s
  else
    let s := match (s.zp z).replay.findIdx? (fun e => e.1 = seq.val) with
      | some 0 => s
      | some i => s.modZp z (fun p => { p with replay := p.replay.drop i, tries := 0 })
      | none => s
    .next (replayAll z s)

/-- FAB_REPLAY_TIMEOUT (R298): ACK has not advanced for 4 µs while flits are outstanding. -/
def execFabReplayTimeout (z : Fin 8) (s : State) : Host.Outcome State Fault Refusal :=
  let p := s.zp z.val
  if s.zUp z.val && !p.replay.isEmpty && decide (p.ackTick + 3000 ≤ s.now) then .next (replayAll z.val s) else .next s

/-- FAB_TSYNC (R313): departure and arrival of the two flits, in ticks, give the delay; the last 16 are averaged. -/
def execFabTsync (z : Fin 8) (t1 t2 t3 t4 : Nat) (s : State) : Host.Outcome State Fault Refusal :=
  let z := z.val
  if !s.zUp z then .next s
  else
    let d := (((t4 : Int) - t1 - ((t3 : Int) - t2)) * 32768).toNat
    let l := (d :: (s.zp z).delays).take 16
    let s := linkCtl z 3 (beBytes 8 t1) (s.modZp z (fun p => { p with delays := l }))
    .next (s.setF (ZP_DELAY_DELAY z) (l.foldl (· + ·) 0 / l.length))

/-- FAB_E2E_GAP (R311): a gap still open after 20 µs is skipped and recorded. -/
def execFabE2eGap (src : Fin 1024) (vc : Fin 4) (s : State) : Host.Outcome State Fault Refusal :=
  let key := 4 * src.val + vc.val
  let e := tblGet 0 key s.fab.eenRx
  let l := s.fab.early.filter (fun x => decide (x.2.src = src.val) && decide (fabVc x.2.typ = vc.val))
  if l.any (fun x => decide (x.1 + 15000 ≤ s.now)) then
    let next := l.foldl (fun b x => if (x.2.een + 65536 - e) % 65536 < (b + 65536 - e) % 65536 then x.2.een else b)
      ((l.head?.map (fun x => x.2.een)).getD e)
    let s := fabEvt 9 0x0805 src.val { s with fab := { s.fab with eenRx := tblSet 0 key next s.fab.eenRx } }
    .next (eenDeliver src.val vc.val s)
  else .next s

end Sys2Proof.Machine
end

