-- ==== Sys2Proof/Machine/Fabric.lean ====
section
/-!
DEFINITION. The fabric (spec/12): position, discovery, maps and routes, heartbeats, custody leases and forwarding.
-/

namespace Sys2Proof.Machine

/-- The oldest message, where it is of this type and this device takes part (R308). -/
def fabTake (typ : Nat) (ok : FabMsg → Bool) (s : State) (k : FabMsg → State → State) : State :=
  match s.fab.inq with
  | [] => s
  | m :: rest =>
    if m.typ = typ && ok m then k m { s with fab := { s.fab with inq := rest } } else s

/-- Any message of a type. -/
def anyMsg (_ : FabMsg) : Bool := true

/-! ### Position (R314) -/

/-- Body of a POSITION message: master, its Yardstamp, class, position state, hops, CORR. -/
def posMsgBody (dev : Nat) (y : DWord) (cls st hops corr : Nat) : List Byte :=
  beBytes 2 dev ++ beBytes 8 y.toNat ++ [BitVec.ofNat 8 cls, BitVec.ofNat 8 st, BitVec.ofNat 8 hops, 0, 0, 0] ++ beBytes 8 corr

/-- POSITION goes to the tree neighbours but the one it came from. -/
def posSpread (skip : Option Nat) (body : List Byte) (s : State) : State :=
  ((List.range 8).filter (fun z => (s.zp z).tree && s.zUp z && skip ≠ some z)).foldl (fun s z => fabHop z 9 0x3FF body s) s

/-- FAB_POSITION_SEND (R314, R56): the position master, once per beat; the lead of a Twin pair to its follower. -/
def execFabPositionSend (s : State) : Host.Outcome State Fault Refusal :=
  let body := posMsgBody s.devId s.stamp s.pos.cur.cls (s.getF POS_STAT_STATE) 0 0
  let s := if s.fabMember && decide (s.getF FAB_CFG_POS_MASTER_ID = s.devId) then posSpread none body s else s
  match twinTurn s with
  | some z => .next (if twinState s = 2 then fabHop z 9 (s.getF TW_CFG_MATE_ID) body s else s)
  | none => .next s

/-- The master's position at the arrival of a POSITION: Y_tx + CORR + DELAY (R314), in ticks of the beat's length. -/
def posArrived (s : State) (m : FabMsg) (cls : Nat) : DWord :=
  let late := be m.body 16 8 + s.getF (ZP_DELAY_DELAY m.port)
  BitVec.ofNat 64 (be m.body 2 8) + BitVec.ofNat 64 (late * 65536 / max 1 (nominalBeat cls))

/-- FAB_POSITION_RX (R314, R56): the master's position and class go to the position unit on FABRIC, and the message goes on with
`DELAY` and this device's residence time, in 2^-16 tick, added to CORR. -/
def execFabPositionRx (residence : Nat) (s : State) : Host.Outcome State Fault Refusal :=
  .next (fabTake 9 anyMsg s (fun m s =>
    let cls := at' m.body 10 % 4
    let from' := be m.body 0 2
    let wanted := if s.isFollower then decide (from' = s.getF TW_CFG_MATE_ID) else decide (from' = s.getF FAB_CFG_POS_MASTER_ID)
    let y := posArrived s m cls
    let s := if wanted && decide (s.getF POS_CFG_SRC = 3) then
        let s := s.setF POS_CFG_BEAT_CLASS cls
        s.modPos (fun p => { p with
          fabPos := some y
          beatLen := if p.cur.src = 3 ∧ p.cur.cls ≠ cls then nominalBeat cls else p.beatLen
          cur := if p.cur.src = 3 then { p.cur with cls := cls } else p.cur })
      else s
    if s.fabMember then
      posSpread (some m.port) (posMsgBody from' (BitVec.ofNat 64 (be m.body 2 8)) cls (at' m.body 11) (at' m.body 12 + 1)
        (be m.body 16 8 + s.getF (ZP_DELAY_DELAY m.port) + residence)) s
    else s))

/-! ### The map and routes (R305 to R307) -/

/-- A device of the map by its serial number. -/
def mapFind (m : List MapNode) (serial : Nat) : Option MapNode := m.find? (fun x => x.serial = serial)

/-- Links of a device to devices of the map: its port, the peer. -/
def mapLinks (m : List MapNode) (serial : Nat) : List (Nat × Nat) :=
  match mapFind m serial with
  | some x => (x.links.filter (fun l => (mapFind m l.2.1).isSome)).map (fun l => (l.1, l.2.1))
  | none => []

/-- Depths by layers from the root (R306). -/
def mapLayers (m : List MapNode) : Nat → Nat → List Nat → List (Nat × Nat) → List (Nat × Nat)
  | 0, _, _, acc => acc
  | k + 1, d, front, acc =>
    let acc := acc ++ front.map (fun x => (x, d))
    let next := ((front.flatMap (fun x => (mapLinks m x).map (·.2))).filter (fun y => !acc.any (fun e => e.1 = y))).eraseDups
    if next.isEmpty then acc else mapLayers m k (d + 1) next acc

/-- Depth of every device from the master. -/
def mapDepths (m : List MapNode) (root : Nat) : List (Nat × Nat) := mapLayers m 17 0 [root] []

/-- Depth of a device; 17 and more is out of the fabric. -/
def depthOf (ds : List (Nat × Nat)) (x : Nat) : Nat := ((ds.find? (fun e => e.1 = x)).map (·.2)).getD 17

/-- ID of a device of the map. -/
def devOf (m : List MapNode) (x : Nat) : Nat := ((mapFind m x).map (·.dev)).getD 0

/-- Does the link from x lead up to y? (R306) -/
def linkUp (m : List MapNode) (ds : List (Nat × Nat)) (x y : Nat) : Bool :=
  decide (depthOf ds y < depthOf ds x) || (decide (depthOf ds y = depthOf ds x) && decide (devOf m y < devOf m x))

/-- Tree parent of a device: a neighbour one nearer the root, the lower serial number on a tie. -/
def treeParent (m : List MapNode) (ds : List (Nat × Nat)) (x : Nat) : Option Nat :=
  let c := ((mapLinks m x).map (·.2)).filter (fun y => depthOf ds y + 1 = depthOf ds x)
  match c with
  | [] => none
  | a :: r => some (r.foldl min a)

/-- Is port z of x, leading to y, the link of the spanning tree between them? The child's lowest port to its parent. -/
def treeLink (m : List MapNode) (ds : List (Nat × Nat)) (x z y : Nat) : Bool :=
  let low := fun (a b : Nat) => ((mapLinks m a).filter (fun l => l.2 = b)).map (·.1)
  if treeParent m ds x = some y then (low x y).all (fun p => decide (z ≤ p))
  else if treeParent m ds y = some x then
    match mapFind m y with
    | some n =>
      let back := (n.links.filter (fun l => l.2.1 = x))
      (back.filter (fun l => back.all (fun k => decide (l.1 ≤ k.1)))).any (fun l => l.2.2 = z)
    | none => false
  else false

/-- Steps of a legal path from a frontier of (device, has gone down) to a device (R306): hops up, then hops down. -/
def legalSteps (m : List MapNode) (ds : List (Nat × Nat)) (goal : Nat) : Nat → List (Nat × Bool) → List (Nat × Bool) → Option Nat
  | 0, _, _ => none
  | k + 1, front, seen =>
    if front.any (fun e => e.1 = goal) then some 0
    else
      let step := fun (e : Nat × Bool) => (mapLinks m e.1).filterMap (fun l =>
        if linkUp m ds e.1 l.2 then (if e.2 then none else some (l.2, false)) else some (l.2, true))
      let next := ((front.flatMap step).filter (fun e => !seen.contains e)).eraseDups
      if next.isEmpty then none else (legalSteps m ds goal k next (seen ++ next)).map (· + 1)

/-- Hops to a device by each of this device's ports. -/
def portHops (s : State) (goal : Nat) : List (Nat × Nat) :=
  let m := s.fab.map
  let ds := mapDepths m ((s.fab.master.map (·.2)).getD 0)
  let own := Config.serial.toNat
  (mapLinks m own).filterMap (fun l =>
    let e := (l.2, !linkUp m ds own l.2)
    (legalSteps m ds goal 16 [e] [e]).map (fun h => (l.1, h + 1)))

/-- The best of some ports: fewest hops, then the lowest port (R306). -/
def bestPort : List (Nat × Nat) → Option (Nat × Nat)
  | [] => none
  | a :: r => match bestPort r with
    | none => some a
    | some b => if a.2 < b.2 ∨ (a.2 = b.2 ∧ a.1 ≤ b.1) then some a else some b

/-- The route word of device d (R306). -/
def routeWord (s : State) (d : Nat) : Word :=
  match s.fab.map.find? (fun x => x.dev = d ∧ x.serial ≠ Config.serial.toNat) with
  | none => 0
  | some x =>
    let l := portHops s x.serial
    match bestPort l with
    | none => 0
    | some p =>
      let w := fldSet 31 31 1 (fldSet 24 20 p.2 (fldSet 2 0 p.1 0))
      match bestPort (l.filter (fun e => e.1 ≠ p.1)) with
      | some a => fldSet 30 30 1 (fldSet 10 8 a.1 w)
      | none => w

/-- A route table entry is replaced (R307); a destination that becomes reachable starts again at EEN 0 (R311). -/
def routeSet (d : Nat) (s : State) : State :=
  let w := routeWord s d
  let was := s.isSet (FAB_ROUTE_VALID d)
  let s := s.wr (FAB_ROUTE d) w
  if !was && s.isSet (FAB_ROUTE_VALID d) then
    let z := fun (t : Table Nat) => [0, 1, 2, 3].foldl (fun t v => tblSet 0 (4 * d + v) 0 t) t
    { s with fab := { s.fab with eenTx := z s.fab.eenTx, eenRx := z s.fab.eenRx } }
  else s

/-- FAB_ROUTE_UPDATE (R307): the entry of a device is computed from the map and replaced. -/
def execFabRouteUpdate (d : Fin 1024) (s : State) : Host.Outcome State Fault Refusal := .next (routeSet d.val s)

/-- Devices whose entry the map can change: those of the map and those that were reachable. -/
def routeDevs (s : State) : List Nat :=
  (s.fab.map.map (·.dev) ++ (List.range 1024).filter (fun d => s.isSet (FAB_ROUTE_VALID d))).eraseDups

/-- Which of this device's ports lie in the spanning tree, and which lead up (R306). -/
def showTree (s : State) : State :=
  let m := s.fab.map
  let ds := mapDepths m ((s.fab.master.map (·.2)).getD 0)
  let own := Config.serial.toNat
  (List.range 8).foldl
    (fun s z =>
      let y := ((mapLinks m own).find? (fun l => l.1 = z)).map (·.2)
      let t := y.any (fun y => treeLink m ds own z y)
      let u := y.any (fun y => linkUp m ds own y)
      (s.modZp z (fun p => { p with tree := t })).setF (ZP_STAT_UPWARD z) u.toNat) s

/-- The lease blocks show whether this device is a candidate and its place (R315). -/
def candShow (n : Nat) (s : State) : State :=
  match (custody s n).findIdx? (fun d => d = s.devId) with
  | some i => (s.setF (FAB_LEASE_CAND n) 1).setF (FAB_LEASE_RANK n) i
  | none => (s.setF (FAB_LEASE_CAND n) 0).setF (FAB_LEASE_RANK n) 0

/-- Every channel with a custody list. -/
def custodyChans (s : State) : List Nat := (List.range 512).filter (fun n => !(custody s n).isEmpty)

/-- The device takes an ID (R302): source 1 the Loft, 2 the master. -/
def takeId (d src : Nat) (s : State) : State :=
  let s := ((s.setF FAB_ID_DEV_ID d).setF FAB_ID_ID_VALID 1).setF FAB_ID_ID_SRC src
  (custodyChans s).foldl (fun s n => candShow n s) s

/-- Members this device knows, itself among them. -/
def membersShow (s : State) : State :=
  let k := 1 + s.fab.members.length
  if s.getF FAB_STAT_MEMBERS = k then s else fabEvt 0 0 0 (s.setF FAB_STAT_MEMBERS k)

/-- ID clash (R303): this device, whose serial number is the higher, enters CLASH and holds no lease. -/
def enterClash (s : State) : State :=
  if s.getF FAB_STAT_STATE = 3 then s
  else
    let s := fabEvt 2 0x0801 s.devId (s.setF FAB_STAT_STATE 3)
    (custodyChans s).foldl (fun s n => if s.isSet (FAB_LEASE_HELD n) then leaseDrop n s else s) s

/-- Body of a map (R305): kind 0x14, number, and each device's serial number, ID and links. -/
def mapBody (no master pri : Nat) (m : List MapNode) : List Byte :=
  [0x14, BitVec.ofNat 8 pri] ++ beBytes 4 no ++ beBytes 8 master ++ beBytes 2 m.length
    ++ m.flatMap (fun x => beBytes 8 x.serial ++ beBytes 2 x.dev ++ [BitVec.ofNat 8 x.links.length]
        ++ x.links.flatMap (fun l => [BitVec.ofNat 8 l.1] ++ beBytes 8 l.2.1 ++ [BitVec.ofNat 8 l.2.2]))

/-- Links of a device in a map's body. -/
def readLinks (l : List Byte) : Nat → Nat → List (Nat × Nat × Nat)
  | 0, _ => []
  | k + 1, o => (at' l o, be l (o + 1) 8, at' l (o + 9)) :: readLinks l k (o + 10)

/-- Devices in a map's body. -/
def readNodes (l : List Byte) : Nat → Nat → List MapNode
  | 0, _ => []
  | k + 1, o =>
    let c := at' l (o + 10)
    { serial := be l o 8, dev := be l (o + 8) 2, links := readLinks l c (o + 11) } :: readNodes l k (o + 11 + 10 * c)

/-- A map goes to every neighbour but the one it came from. -/
def mapFlood (skip : Option Nat) (body : List Byte) (s : State) : State :=
  ((List.range 8).filter (fun z => s.zUp z && skip ≠ some z)).foldl (fun s z => fabHop z 6 0x3FF body s) s

/-- A map comes into force (R303, R305, R306): the device's ID, its membership, tree and routes. -/
def mapInstall (no : Nat) (m : List MapNode) (s : State) : State :=
  let own := Config.serial.toNat
  let s : State := { s with fab := { s.fab with map := m, mapNo := no } }
  match mapFind m own with
  | none => s
  | some x =>
    let taken := m.any (fun y => decide (y.serial ≠ own) && decide (y.dev = x.dev) && decide (y.serial < own))
    let s := if taken then enterClash s
      else
        let s := if s.devId = x.dev ∧ s.isSet FAB_ID_ID_VALID then s else takeId x.dev 2 s
        s.setF FAB_STAT_STATE 2
    let s := showTree s
    (routeDevs s).foldl (fun s d => routeSet d s) s

/-- This device is master, or another is (R304): shown, and announced where it changes. -/
def setMaster (pri serial dev : Nat) (s : State) : State :=
  if s.fab.master = some (pri, serial) then s.setF FAB_STAT_MASTER_ID dev
  else
    let s : State := { s with fab := { s.fab with master := some (pri, serial) } }
    let s := (s.setF FAB_STAT_IS_MASTER (decide (serial = Config.serial.toNat)).toNat).setF FAB_STAT_MASTER_ID dev
    fabEvt 1 0 0 s

/-- The lowest ID that no member holds (R302). -/
def freeId (m : List MapNode) : Nat := ((List.range 1024).find? (fun d => !m.any (fun x => x.dev = d))).getD 0

/-- What this device tells of its own ports: the UP ones, with their peers. -/
def ownNode (s : State) : MapNode :=
  { serial := Config.serial.toNat, dev := s.devId
    links := ((List.range 8).filter (fun z => s.zUp z && (s.zp z).init)).map
      (fun z => (z, (s.zp z).peer.toNat, s.getF (ZP_STAT_PEER_PORT z))) }

/-- A DISCOVER body (R309): hop count, then 16 port numbers of 3 bits. -/
def discoverBody (path : List Nat) : List Byte :=
  BitVec.ofNat 8 path.length :: beBytes 6 ((List.range 16).foldl (fun a i => a * 8 + path.getD i 0 % 8) 0)

/-- Port i of a DISCOVER body. -/
def discoverPort (b : List Byte) (i : Nat) : Nat := be b 1 6 / 8 ^ (15 - i) % 8

/-- The master sends DISCOVER along a path; it remembers it by TAG. -/
def discoverSend (path : List Nat) (s : State) : State :=
  match path with
  | [] => s
  | z :: _ =>
    if !s.zUp z then s
    else
      let tag := (s.fab.tag + 1) % 2 ^ 32
      let s : State := { s with fab := { s.fab with tag := tag, disc := s.fab.disc ++ [(tag, path)] } }
      let b := discoverBody path
      zSend z 0 (fabHeader 0xB 0x40 0x3FF s.devId 0 b.length 0 tag 1 ++ b) s

/-- IDs of a finished map (R302): devices with none take the lowest free. -/
def assignIds (clash : Nat → Bool) : List MapNode → List MapNode → List MapNode
  | [], acc => acc
  | x :: r, acc =>
    let taken := acc.any (fun y => y.dev = x.dev)
    let x := if clash x.dev || taken then { x with dev := freeId (acc ++ r) } else x
    assignIds clash r (acc ++ [x])

/-- The map is whole (R305): IDs are assigned, and it is sent to every member. -/
def mapDone (s : State) : State :=
  let m := assignIds (fun d => decide (1024 ≤ d)) s.fab.draft []
  let no := s.fab.mapNo + 1
  let pri := s.getF FAB_CFG_MASTER_PRI
  mapFlood none (mapBody no Config.serial.toNat pri m) (mapInstall no m { s with fab := { s.fab with draft := [] } })

/-- The master maps the fabric again, from itself outward (R305). -/
def mapStart (s : State) : State :=
  let o := ownNode s
  let s : State := { s with fab := { s.fab with draft := [o], disc := [] } }
  let s := o.links.foldl (fun s l => discoverSend [l.1] s) s
  if s.fab.disc.isEmpty then mapDone s else s

/-- Reply of a device to a DISCOVER (R305): serial number, ID (1,024 for none), and for each Z port its state and its peer. -/
def replyBody (s : State) : List Byte :=
  beBytes 8 Config.serial.toNat ++ beBytes 2 (if s.isSet FAB_ID_ID_VALID && decide (s.getF FAB_STAT_STATE ≠ 3) then s.devId else 1024)
    ++ (List.range 8).flatMap (fun z => [BitVec.ofNat 8 (s.portState (64 + z))] ++ beBytes 8 (s.zp z).peer.toNat
        ++ [BitVec.ofNat 8 (s.getF (ZP_STAT_PEER_PORT z))])

/-- FAB_DISCOVER_RX (R305): a DISCOVER goes on along its ports; the device at its end replies the way it came. -/
def execFabDiscoverRx (s : State) : Host.Outcome State Fault Refusal :=
  .next (fabTake 0xB anyMsg s (fun m s =>
    if m.addr < at' m.body 0 then
      let z := discoverPort m.body m.addr
      let s : State := { s with fab := { s.fab with back := (m.tag, m.port) :: s.fab.back.filter (fun e => e.1 ≠ m.tag) } }
      if s.zUp z then zSend z 0 (fabHeader 0xB 0x40 m.dst m.src 0 m.body.length 0 m.tag (m.addr + 1) ++ m.body) s else s
    else
      let b := replyBody s
      zSend m.port 1 (fabHeader 0xC 0x40 m.src s.devId 0 b.length 0 m.tag 0 ++ b) s))

/-- FAB_DISCOVER_REPLY_RX (R305): a reply on its way goes back; at the master it extends the map, and its unknown peers are
explored in their turn, breadth first. -/
def execFabDiscoverReplyRx (s : State) : Host.Outcome State Fault Refusal :=
  .next (fabTake 0xC anyMsg s (fun m s =>
    match s.fab.disc.find? (fun e => e.1 = m.tag) with
    | none =>
      match s.fab.back.find? (fun e => e.1 = m.tag) with
      | some e =>
        let s : State := { s with fab := { s.fab with back := s.fab.back.filter (fun e => e.1 ≠ m.tag) } }
        if s.zUp e.2 then zSend e.2 1 (fabHeader 0xC 0x40 m.dst m.src 0 m.body.length 0 m.tag 0 ++ m.body) s else s
      | none => s
    | some e =>
      let links := ((List.range 8).filter (fun z => at' m.body (10 + 10 * z) = 3)).map
        (fun z => (z, be m.body (11 + 10 * z) 8, at' m.body (19 + 10 * z)))
      let x : MapNode := { serial := be m.body 0 8, dev := be m.body 8 2, links := links }
      let s : State := { s with fab := { s.fab with disc := s.fab.disc.filter (fun d => d.1 ≠ m.tag) } }
      let s := if (mapFind s.fab.draft x.serial).isSome then s
        else
          let s : State := { s with fab := { s.fab with draft := s.fab.draft ++ [x] } }
          if 16 ≤ e.2.length then s
          else (links.filter (fun l => (mapFind s.fab.draft l.2.1).isNone)).foldl (fun s l => discoverSend (e.2 ++ [l.1]) s) s
      if s.fab.disc.isEmpty then mapDone s else s))

/-- FAB_MAP_RX (R305): a map newer than the one in use comes into force and goes on. -/
def execFabMapRx (s : State) : Host.Outcome State Fault Refusal :=
  .next (fabTake 6 (fun m => decide (at' m.body 0 = 0x14)) s (fun m s =>
    let no := be m.body 2 4
    let serial := be m.body 6 8
    let nodes := readNodes m.body (be m.body 14 2) 16
    if !s.isSet FAB_CFG_EN || (decide (no = s.fab.mapNo) && decide (s.fab.master.map (·.2) = some serial)) then s
    else
      let lower := match s.fab.master with
        | some p => decide (at' m.body 1 < p.1) || (decide (at' m.body 1 = p.1) && decide (serial ≤ p.2))
        | none => true
      if !lower then s
      else mapFlood (some m.port) m.body (mapInstall no nodes (setMaster (at' m.body 1) serial (devOf nodes serial) s))))

/-! ### Quorums (R316, R323) -/

/-- Is a set of grants a quorum of a set of voters? -/
def quorumIn (s : State) (v g : List Nat) : Bool :=
  let n := v.length
  let k := (v.filter (fun d => g.contains d)).length
  let arb := fun (d : Nat) => if d = s.devId then s.isSet TW_STAT_ARB
    else ((tblGet none d s.fab.members).map (·.arb)).getD false
  let cast := if s.isSet FAB_CFG_CAST_MODE then g.any (fun d => v.contains d && arb d) else g.contains (s.getF FAB_CFG_CAST_ID)
  decide (n < 2 * k) || (decide (0 < n) && decide (2 * k = n) && cast)

/-- For 4,096 beats after a change both voter sets must agree (R323). -/
def quorum (s : State) (g : List Nat) : Bool :=
  quorumIn s s.fab.voters g && match s.fab.voterChange with
    | some c => !s.beatDue c.1 || quorumIn s c.2 g
    | none => true

/-- Devices present: this one and those whose heartbeats come (R304). -/
def present (s : State) : List Nat := s.devId :: s.fab.members.map (·.1)

/-- QUORUM and ALL_AGREE follow (R329, R333). -/
def agreeShow (s : State) : State :=
  let q := quorum s (present s)
  let had := s.isSet FAB_STAT_QUORUM
  let s := s.setF FAB_STAT_QUORUM q.toNat
  let s := if had && !q then fabEvt 6 0x0803 0 s else s
  let all := s.fab.members.all (fun e => e.2.any (fun m => decide (m.gen = s.gen) && decide (m.digest = cfgDigest s)))
  let was := s.isSet FAB_CFG_STAT_ALL_AGREE
  let s := s.setF FAB_CFG_STAT_ALL_AGREE all.toNat
  if was && !all then fabEvt 5 0 0 s else s

/-! ### Heartbeats (R303, R304, R324, R327, R328) -/

/-- Paths this device holds. -/
def heldPaths (s : State) : List Nat := (custodyChans s).filter (fun n => s.isSet (FAB_LEASE_HELD n))

/-- Body of a HEARTBEAT (R324): generation, digest, master with its priority and serial number, this device's own, voter and
ARB_IN, position state, Z ports that are UP, and the paths it holds. -/
def heartbeatBody (s : State) : List Byte :=
  let m := s.fab.master.getD (0, 0)
  let up := ((List.range 8).filter (fun z => s.zUp z)).foldl (fun a z => a + 2 ^ z) 0
  beBytes 8 s.gen ++ cfgDigest s ++ beBytes 2 (s.getF FAB_STAT_MASTER_ID) ++ [BitVec.ofNat 8 m.1] ++ beBytes 8 m.2
    ++ beBytes 8 Config.serial.toNat ++ [BitVec.ofNat 8 (s.getF FAB_CFG_MASTER_PRI),
      BitVec.ofNat 8 (s.getF FAB_CFG_VOTER + 2 * s.getF TW_STAT_ARB), BitVec.ofNat 8 (s.getF POS_STAT_STATE), BitVec.ofNat 8 up]
    ++ pathBitmap (heldPaths s)

/-- FAB_HEARTBEAT_SEND (R324): every 1 ms; `arb`: the level of ARB_IN. -/
def execFabHeartbeatSend (arb : Bool) (s : State) : Host.Outcome State Fault Refusal :=
  let s := s.setF TW_STAT_ARB arb.toNat
  if s.fabMember then
    let b := heartbeatBody s
    .next (agreeShow (fabCast none (fabHeader 7 0x80 0x3FF s.devId 0 b.length 0 0 0 ++ b) s))
  else .next s

/-- The lowest pair among this device and the members it knows (R304). -/
def lowestPair (s : State) : Option (Nat × Nat × Nat) :=
  let own := (s.getF FAB_CFG_MASTER_PRI, Config.serial.toNat, s.devId)
  let l := (own :: s.fab.members.filterMap (fun e => e.2.map (fun m => (m.pri, m.serial, e.1)))).filter (fun x => x.1 ≠ 0)
  match l with
  | [] => none
  | a :: r => some (r.foldl (fun b x => if x.1 < b.1 ∨ (x.1 = b.1 ∧ x.2.1 < b.2.1) then x else b) a)

/-- The lowest pair becomes this device's choice; a device that becomes master maps the fabric. -/
def chooseMaster (s : State) : State :=
  match lowestPair s with
  | none =>
    if s.fab.master.isNone then s
    else fabEvt 1 0 0 (({ s with fab := { s.fab with master := none } }.setF FAB_STAT_IS_MASTER 0).setF FAB_STAT_MASTER_ID 0)
  | some x =>
    let was := s.isSet FAB_STAT_IS_MASTER
    let s := setMaster x.1 x.2.1 x.2.2 s
    if s.isSet FAB_STAT_IS_MASTER && !was then mapStart s else s

/-- The master has no bit but a pull of its configuration is asked for (R327): kind 0x12. -/
def pullFrom (d : Nat) (s : State) : State := fabSend d 6 0 0 0 [0x12, 0] s

/-- A heartbeat's generation and digest (R327, R328). -/
def hbConfig (d gen : Nat) (digest : List Byte) (s : State) : State :=
  if s.gen < gen then pullFrom d (s.setF FAB_CFG_STAT_PULLING 1)
  else if gen = s.gen && decide (digest ≠ cfgDigest s) then
    let rec' := fun (s : State) =>
      fabLine 4 ((s.setF ⟨FAB_EVT, 4, 4⟩ 1).report32 unitFabric 0x0802 noPath (be (cfgDigest s) 0 16) (be digest 0 16))
    if s.isSet FAB_STAT_IS_MASTER then
      if (tblGet none d s.fab.members).any (fun m => decide (m.gen = gen) && decide (m.digest = digest)) then s else rec' s
    else if d = s.getF FAB_STAT_MASTER_ID then
      let s := if s.isSet FAB_CFG_STAT_DIVERGE then s else rec' (s.setF FAB_CFG_STAT_DIVERGE 1)
      pullFrom d s
    else s
  else s

/-- Place of a device in a path's custody list. -/
def rankOf (s : State) (n d : Nat) : Nat := ((custody s n).findIdx? (fun x => x = d)).getD 4

/-- The paths a heartbeat shows its sender to hold (R324): holders are known by it, and a path in two bitmaps is a clash. -/
def hbPaths (d : Nat) (paths : List Nat) (s : State) : State :=
  let s := (custodyChans s).foldl
    (fun s n =>
      if paths.contains n then
        let s : State := { s with fab := { s.fab with released := s.fab.released.filter (fun e => e ≠ (d, n)) } }
        (s.setF (FAB_LEASE_HOLDER n) d).setF (FAB_LEASE_HOLDER_KNOWN n) 1
      else if s.getF (FAB_LEASE_HOLDER n) = d ∧ s.isSet (FAB_LEASE_HOLDER_KNOWN n) then s.setF (FAB_LEASE_HOLDER_KNOWN n) 0
      else s) s
  paths.foldl
    (fun s n =>
      let others := (s.fab.members.filter (fun e => decide (e.1 ≠ d) && e.2.any (fun m => (bitmapPaths m.paths).contains n))).map (·.1)
      let mine := s.isSet (FAB_LEASE_HELD n)
      if mine || !others.isEmpty then
        let s := fabEvt 8 0x0807 n s
        if mine && decide (rankOf s n d < rankOf s n s.devId) then leaseRelease n (mutePath n .clash s) else s
      else s) s

/-- FAB_HEARTBEAT_RX (R303, R304, R324, R327, R328). -/
def execFabHeartbeatRx (s : State) : Host.Outcome State Fault Refusal :=
  .next (fabTake 7 anyMsg s (fun m s =>
    let b := m.body
    let serial := be b 35 8
    if m.src = s.devId && s.isSet FAB_ID_ID_VALID then
      if decide (serial < Config.serial.toNat) then enterClash s else s
    else if !s.fabMember then s
    else
      let x : Member :=
        { serial := serial, pri := at' b 43, gen := be b 0 8, digest := slice b 8 16, arb := decide (at' b 44 / 2 % 2 = 1)
          pos := at' b 45, paths := slice b 47 64, zup := at' b 46, last := s.now }
      let old := tblGet none m.src s.fab.members
      let s := hbConfig m.src x.gen x.digest s
      let s := hbPaths m.src (bitmapPaths x.paths) s
      let s : State := { s with fab := { s.fab with members := tblSet none m.src (some x) s.fab.members } }
      let s := chooseMaster (membersShow s)
      let s := match s.fab.master with
        | some p =>
          let q := (at' b 26, be b 27 8)
          if q.1 ≠ 0 ∧ (q.1 < p.1 ∨ (q.1 = p.1 ∧ q.2 < p.2)) then setMaster q.1 q.2 (be b 24 2) s else s
        | none => if at' b 26 ≠ 0 then setMaster (at' b 26) (be b 27 8) (be b 24 2) s else s
      let s := if s.isSet FAB_STAT_IS_MASTER && decide (old.map (·.zup) ≠ some x.zup) then mapStart s else s
      agreeShow s))

/-- FAB_MEMBER_ABSENT (R304): no HEARTBEAT from a member for 3 ms. -/
def execFabMemberAbsent (d : Fin 1024) (s : State) : Host.Outcome State Fault Refusal :=
  let d := d.val
  match tblGet none d s.fab.members with
  | some m =>
    if m.last + 3 * ticksPerMs ≤ s.now then
      let s : State := { s with fab := { s.fab with members := tblSet none d none s.fab.members } }
      let s := (custodyChans s).foldl
        (fun s n => if s.getF (FAB_LEASE_HOLDER n) = d then s.setF (FAB_LEASE_HOLDER_KNOWN n) 0 else s) s
      let s := if s.fab.master = some (m.pri, m.serial) then chooseMaster { s with fab := { s.fab with master := none } } else s
      .next (agreeShow (membersShow s))
    else .next s
  | none => .next s

/-! ### Custody leases (R315 to R323) -/

/-- Does this device request custody of a path? (R320, R328) -/
def seeks (s : State) (n : Nat) : Bool :=
  let l := custody s n
  let ahead := l.take (rankOf s n s.devId)
  s.chOpen n && !s.chTwin n && l.contains s.devId && !s.isSet FAB_CFG_STAT_DIVERGE
    && ahead.all (fun d => (tblGet none d s.fab.members).isNone || s.fab.released.contains (d, n))

/-- Ticks of a lease and of a promise: 2 ms, 2.1 ms (R318, R319). -/
def leaseTicks : Nat := 1500000
def promiseTicks : Nat := 1575000

/-- May a path be promised to a device? (R318) -/
def mayPromise (s : State) (n d : Nat) : Bool :=
  match tblGet none n s.fab.promise with
  | none => true
  | some p => decide (p.1 = d) || decide (p.2 ≤ s.now)

/-- The paths of a request that this voter grants, with its promises set (R318). -/
def grantPaths (d : Nat) (paths : List Nat) (s : State) : List Nat × State :=
  let g := paths.filter (fun n => mayPromise s n d)
  (g, g.foldl (fun (s : State) n =>
    { s with fab := { s.fab with promise := tblSet none n (some (d, s.now + promiseTicks)) s.fab.promise } }) s)

/-- A lease is valid until 2 ms after its request left (R319); a path gained waits for its first epoch switch, and its session and
exchange begin (R321). -/
def leaseHold (n t0 : Nat) (s : State) : State :=
  let had := s.isSet (FAB_LEASE_HELD n)
  let e := max (tblGet 0 n s.fab.leaseEnd) (t0 + leaseTicks)
  let s : State := { s with fab := { s.fab with leaseEnd := tblSet 0 n e s.fab.leaseEnd } }
  let s := s.setF (FAB_LEASE_REMAIN n) ((e - s.now) / 750)
  if had then s
  else
    let s := ((s.setF (FAB_LEASE_HELD n) 1).setF (CH_STAT_LEASE n) 1).modChan n (fun c => { c with awaitSw := true })
    let s := (s.setF (FAB_LEASE_HOLDER n) s.devId).setF (FAB_LEASE_HOLDER_KNOWN n) 1
    startExchange n (fabEvt 7 0 0 (unmutePath n .clash s))

/-- Requests that have collected a quorum for a path make its lease valid (R319). -/
def leaseJudge (s : State) : State :=
  s.fab.leases.foldl
    (fun s r =>
      if r.t0 + leaseTicks ≤ s.now then s
      else r.paths.foldl
        (fun s n => if quorum s ((r.grants.filter (fun g => g.2 = n)).map (·.1)) then leaseHold n r.t0 s else s) s) s

/-- LEASE_REQUEST_SEND (R319, R320): every 250 µs, for every path held or sought; a voter grants its own at once. -/
def execLeaseRequestSend (s : State) : Host.Outcome State Fault Refusal :=
  let paths := (custodyChans s).filter (fun n =>
    (s.isSet (FAB_LEASE_HELD n) && s.chOpen n && !s.isSet FAB_CFG_STAT_DIVERGE && !s.chTwin n) || seeks s n)
  if !s.fabMember || paths.isEmpty then .next s
  else
    let no := (s.fab.leaseNo + 1) % 2 ^ 32
    let own := if s.fab.voters.contains s.devId then grantPaths s.devId paths s else ([], s)
    let s := own.2
    let r : LeaseReq := { no := no, t0 := s.now, paths := paths, grants := own.1.map (fun n => (s.devId, n)) }
    let s : State := { s with fab := { s.fab with
      leaseNo := no, leases := s.fab.leases.filter (fun x => decide (s.now < x.t0 + leaseTicks)) ++ [r] } }
    let s := (s.fab.voters.filter (· ≠ s.devId)).foldl (fun s d => fabSend d 0xA 0 0 0 (leaseBody s 1 no paths) s) s
    .next (leaseJudge s)

/-- Fields of a LEASE body (R317). -/
def leaseSub (m : FabMsg) : Nat := at' m.body 0
def leaseNoOf (m : FabMsg) : Nat := be m.body 9 4
def leasePaths (m : FabMsg) : List Nat := bitmapPaths (slice m.body 13 64)

/-- A LEASE message of one subtype. -/
def leaseTake (sub : Nat) (s : State) (k : FabMsg → State → State) : State :=
  fabTake 0xA (fun m => decide (leaseSub m = sub)) s k

/-- LEASE_REQUEST_RX (R318): a voter grants what it may; a request of another generation is denied in full. -/
def execLeaseRequestRx (s : State) : Host.Outcome State Fault Refusal :=
  .next (leaseTake 1 s (fun m s =>
    let paths := leasePaths m
    let g := if be m.body 1 8 = s.gen ∧ s.fab.voters.contains s.devId ∧ s.fabMember then grantPaths m.src paths s else ([], s)
    let no := leaseNoOf m
    let deny := paths.filter (fun n => !g.1.contains n)
    let s := g.2
    let s := if g.1.isEmpty then s else fabSend m.src 0xA 0 0 0 (leaseBody s 2 no g.1) s
    if deny.isEmpty then s else fabSend m.src 0xA 0 0 0 (leaseBody s 3 no deny) s))

/-- LEASE_GRANT_RX (R319). -/
def execLeaseGrantRx (s : State) : Host.Outcome State Fault Refusal :=
  .next (leaseTake 2 s (fun m s =>
    let no := leaseNoOf m
    let ns := leasePaths m
    let add := fun (r : LeaseReq) =>
      if r.no = no then { r with grants := r.grants ++ ((ns.filter (fun n => r.paths.contains n)).map (fun n => (m.src, n))) } else r
    leaseJudge { s with fab := { s.fab with leases := s.fab.leases.map add } }))

/-- LEASE_DENY_RX (R317, R319): custody needs no DENY to end, and a DENY ends nothing. -/
def execLeaseDenyRx (s : State) : Host.Outcome State Fault Refusal := .next (leaseTake 3 s (fun _ s => s))

/-- LEASE_RELEASE_RX (R318, R320): the promise to the holder that releases is cleared at once. -/
def execLeaseReleaseRx (s : State) : Host.Outcome State Fault Refusal :=
  .next (leaseTake 4 s (fun m s =>
    (leasePaths m).foldl
      (fun s n =>
        let p := match tblGet none n s.fab.promise with
          | some p => if p.1 = m.src then none else some p
          | none => none
        let rel := if s.fab.released.contains (m.src, n) then s.fab.released else (m.src, n) :: s.fab.released
        { s with fab := { s.fab with promise := tblSet none n p s.fab.promise, released := rel } }) s))

/-- LEASE_EXPIRY (R319): a lease that is not renewed lapses: egress stops, and its session is not this device's any longer
(R321). -/
def execLeaseExpiry (n : Fin 512) (s : State) : Host.Outcome State Fault Refusal :=
  let n := n.val
  if s.isSet (FAB_LEASE_HELD n) && decide (tblGet 0 n s.fab.leaseEnd ≤ s.now) then
    let s := fabEvt 8 0x0804 n (leaseDrop n s)
    let s := s.modBr n (fun _ => Session.reset)
    .next (dropSpare n ((s.setF (BR_STAT_STATE n) 0).setF (BR_STAT_EXCH n) 0))
  else .next s

/-- PROMISE_EXPIRY (R318): 2.1 ms after the request. -/
def execPromiseExpiry (n : Fin 512) (s : State) : Host.Outcome State Fault Refusal :=
  match tblGet none n.val s.fab.promise with
  | some p => if p.2 ≤ s.now then .next { s with fab := { s.fab with promise := tblSet none n.val none s.fab.promise } } else .next s
  | none => .next s

/-- VOTER_CHANGE_END (R323): 4,096 beats after the change only the new set counts. -/
def execVoterChangeEnd (s : State) : Host.Outcome State Fault Refusal :=
  match s.fab.voterChange with
  | some c =>
    if s.beatDue (beatAdd c.1 4096) then .next (agreeShow { s with fab := { s.fab with voters := c.2, voterChange := none } })
    else .next s
  | none => .next s

/-! ### Forwarding (R331, R332) -/

/-- FORWARD_RX (R331, R332): on the anchor the frame enters admission at check 2; on the relay a released unit leaves by its
plain-side port. -/
def execForwardRx (s : State) : Host.Outcome State Fault Refusal :=
  .next (fabTake 8 anyMsg s (fun m s =>
    let n := be m.body 0 2 % 512
    let k := at' m.body 2 % 32
    let bytes := slice m.body 8 (be m.body 6 2)
    if !s.isSet (FAB_FWD_FWD_EN n) || decide (s.getF (FAB_FWD_PEER_DEV n) ≠ m.src) then s.cnt (FAB_FWD_DROP_FWD_DROP n) 1
    else if s.isSet (FAB_FWD_ROLE n) then
      admitUnit n none (bytes.take (bytes.length - 4)) (bytes.drop (bytes.length - 4)) s
    else if s.portUp k then s.emit (.frame k bytes)
    else refuse n 0x19 s))

/-- A right of device d (R312): bit 0 R, 1 W, 2 CSR, 3 DB. -/
def fabRight (s : State) (d bit : Nat) : Bool := decide (s.getF (FAB_RIGHTS_RIGHTS (d / 8)) / 2 ^ (4 * (d % 8) + bit) % 2 = 1)

/-- Status code of a response (R310). -/
def statusCode : BusStatus → Nat
  | .ok => 0
  | .decode => 1
  | .denied => 2
  | .leadDenied => 2
  | .shedDraining => 3
  | .shedOff => 4
  | .notReady => 5
  | .ownViol => 6
  | .busy => 7
  | .ecc => 8
  | .timeout => 9
  | .noRoute => 9
  | .waiting => 9

/-- FAB_DOORBELL_RX (R312, R482): a DOORBELL is checked against the DB right, rung, and answered by WRITE_RESP. -/
def execFabDoorbellRx (s : State) : Host.Outcome State Fault Refusal :=
  .next (fabTake 5 anyMsg s (fun m s =>
    let x := if fabRight s m.src 3 then bellRing (be m.body 0 4) s else (.denied, s)
    fabSend m.src 4 (statusCode x.1) m.tag m.addr [] x.2))

/-! ### Ports that are lost (R105, R107, R300, R282) -/

/-- What follows a cipher-side, plain-side or Z port that is no longer UP: its ports' partners, the cell paths of the merge. -/
def portLostAfter (k : Nat) (sync : Bool) (s : State) : State :=
  let s := partnersLost k s
  if sync && decide (32 ≤ k) && decide (k < 64) then cellPathsLost (k - 32) s else s

/-- Is a cipher-side port in SYNC? -/
def inSync (s : State) (k : Nat) : Bool := decide (32 ≤ k) && decide (k < 64) && decide (s.getF (CELL_PORT_STAT_DELIN (k - 32)) = 2)

/-- PORT_LOS (R105, R107): loss of signal; `cut`: octets that had come of a frame still arriving. -/
def execPortLos (k : Fin 72) (cut : Option Nat) (s : State) : Host.Outcome State Fault Refusal :=
  .next (portLostAfter k.val (inSync s k.val) (portLos k.val cut s))

/-- PORT_LOCK_LOST (R105, R107): loss of lock or alignment. -/
def execPortLockLost (k : Fin 72) (cut : Option Nat) (s : State) : Host.Outcome State Fault Refusal :=
  let t := portLockLost k.val cut s
  .next (if s.portUp k.val then portLostAfter k.val (inSync s k.val) t else t)

end Sys2Proof.Machine
end

