-- ==== Sys2Proof/Machine/YfiLinks.lean ====
section
/-!
DEFINITION. The Bridle, Twin and fabric commands of YFI (spec/14 R364, spec/10 R254, spec/11 R272, spec/12 R302 to R304, R312,
R315, R323, R330).
-/

namespace Sys2Proof.Machine

/-! ### Bridle -/

/-- BRIDLE_CONFIG's effect. -/
def bridleConfigApply (a : List Byte) (s : State) : State :=
  let n := le a 0 2
  let s := (s.setF (BR_CFG_EN n) (argBit a 2 0)).setF (BR_CFG_DOWN_MUTE n) (argBit a 2 1)
  let s := (s.setF (BR_CFG_PAIR n) (at' a 3)).setF (BR_CFG_PROBE_INT n) (at' a 4)
  (s.setF (BR_CFG_PEER_CH n) (le a 6 2)).setF (BR_TIMING_DELAY_TOL n) (le a 8 2)

/-- BRIDLE_CONFIG as a configuration command (R364). -/
def bridleConfigCmd : CfgCmd :=
  { cfgPlain 0x0601 2 [(0, 2), (2, 1), (3, 1), (4, 1), (6, 2), (8, 2)] bridleConfigApply with
    check := fun a s => firstStatus [
      (!zeroAt a [(5, 1), (10, 2)] || decide (511 < le a 0 2) || decide (3 < at' a 2) || decide (31 < at' a 3)
        || decide (511 < le a 6 2), 2),
      (decide (s.chState (le a 0 2) ≠ 0), 5)] }

/-- BRIDLE_CONFIG (R364). -/
def execBridleConfig (m : Fin 16) (loftOk : Bool) (s : State) : Host.Outcome State Fault Refusal :=
  .next (cfgRun bridleConfigCmd m loftOk s)

/-- BRIDLE_SEND (R31, R268, R364): a DIGEST or an ALARM that the host has composed; the response gives its SEQ. -/
def bridleSend (a : List Byte) (s : State) : YfiOut :=
  let n := le a 0 2
  if 511 < n ∨ at' a 3 ≠ 0 then yfiFail 2 s
  else if s.isSet (CH_CFG_BRIDLE_HOST n) = false ∨ (at' a 2 ≠ brDigest ∧ at' a 2 ≠ brAlarm) then yfiFail 2 s
  else if !s.brUp n then yfiFail 3 s
  else
    let t := brSend n (at' a 2) 0 1 false (a.drop 4) s
    (0, leBytes 4 (t.rd (BR_TX_SEQ n 0)).toNat, t)

/-- BRIDLE_SEND (R364). -/
def execBridleSend (m : Fin 16) (s : State) : Host.Outcome State Fault Refusal := .next (yfiRun 0x0602 m bridleSend s)

/-! ### Twins -/

/-- The pair binds again; with EN = 0 it is OFF (R272). -/
def twinRebind (s : State) : State :=
  setTwin (s.getF TW_CFG_EN) { s with twin := { s.twin with since := s.now, divs := [], votes := [], freeFrom := none } }

/-- TWIN_BIND's effect (R272, R364): its values, and the pair binds again; with EN = 0 it is OFF. -/
def twinBindApply (a : List Byte) (s : State) : State :=
  let s := (s.setF TW_CFG_EN (argBit a 0 0)).setF TW_CFG_ARB_EN (argBit a 0 1)
  let s := (s.setF TW_CFG_ROLE (argBit a 0 2)).setF TW_CFG_MY_PATH (argBit a 0 3)
  let s := (s.setF TW_CFG_TLINKS (at' a 1)).setF TW_CFG_MATE_ID (le a 2 2)
  let s := (s.setF MERGE_CFG_MAX_DIFF (le a 4 2)).setF MERGE_CFG_HOLD_BYTES (le a 6 2)
  twinRebind (holdFit s)

/-- A Twin-mode channel is OPEN. -/
def twinOpen (s : State) : Bool := s.liveChans.any (fun n => s.chOpen n && s.chTwin n)

/-- TWIN_BIND as a configuration command (R364): with EN = 1 it ends when the pair is bound, or after 1 s. -/
def twinBindCmd : CfgCmd :=
  { cfgPlain 0x0701 0 [(0, 1), (1, 1), (2, 2), (4, 2), (6, 2)] twinBindApply with
    check := fun a s => firstStatus [
      (decide (15 < at' a 0) || decide (15 < at' a 1) || decide (1023 < le a 2 2), 2),
      (twinOpen s, 5),
      (decide (at' a 1 = 0), 2)]
    rsp := fun a _ => if argBit a 0 0 = 1 then none else some (0, [0]) }

/-- TWIN_BIND (R364). -/
def execTwinBind (m : Fin 16) (loftOk : Bool) (s : State) : Host.Outcome State Fault Refusal :=
  .next (cfgRun twinBindCmd m loftOk s)

/-! ### The fabric -/

/-- CH_STAT shows whether this device holds the path of an OPEN channel (R315). -/
def leaseShow (n : Nat) (s : State) : State :=
  if s.chOpen n then s.setF (CH_STAT_LEASE n) (ownsPath s n || s.isSet (FAB_LEASE_HELD n)).toNat else s

/-- Every OPEN channel's LEASE follows. -/
def leasesShow (s : State) : State := s.liveChans.foldl (fun s n => leaseShow n s) s

/-- The voter set becomes `v` (R323): at once where there was none, or where the change lies 4,096 beats back; else from a beat
on. -/
def votersTo (v : List Nat) (b : Beat) (s : State) : State :=
  let target := (s.fab.voterChange.map (·.2)).getD s.fab.voters
  if v = target then s
  else if s.fab.voters.isEmpty || s.beatDue (beatAdd b 4096) then { s with fab := { s.fab with voters := v, voterChange := none } }
  else { s with fab := { s.fab with voterChange := some (b, v) } }

/-- The voters with this device a voter or not. -/
def votersWith (s : State) (on : Bool) : List Nat :=
  let t := ((s.fab.voterChange.map (·.2)).getD s.fab.voters).filter (· ≠ s.devId)
  if on then t ++ [s.devId] else t

/-- The device takes part in the fabric (R302, R304): with an ID of the Loft, and as its master where no other is known. -/
def fabEnter (s : State) : State :=
  let s := (s.setF FAB_CFG_EN 1).setF FAB_STAT_STATE 1
  let s := if s.isSet FAB_ID_LOFT_ID_EN then takeId (s.getF FAB_ID_LOFT_ID) 1 s else s
  leasesShow (agreeShow (chooseMaster s))

/-- The device leaves the fabric: it holds no lease and knows no member, map or route. -/
def fabLeave (s : State) : State :=
  let s := (custodyChans s).foldl (fun s n => if s.isSet (FAB_LEASE_HELD n) then leaseDrop n s else s) s
  let s := (List.range 1024).foldl (fun s d => if s.isSet (FAB_ROUTE_VALID d) then s.wr (FAB_ROUTE d) 0 else s) s
  let s : State := { s with fab := { s.fab with
    members := [], map := [], draft := [], disc := [], back := [], master := none, leases := [], pulled := none } }
  leasesShow (((s.setF FAB_CFG_EN 0).wr FAB_STAT 1).wr FAB_CFG_STAT 0)

/-- Does FAB_CONFIG change the persisted ID? -/
def loftIdChanges (a : List Byte) (s : State) : Bool :=
  decide (s.getF FAB_ID_LOFT_ID ≠ le a 6 2) || decide (s.getF FAB_ID_LOFT_ID_EN ≠ argBit a 0 3)

/-- FAB_CONFIG's effect (R302 to R304, R323, R364). -/
def fabConfigApply (a : List Byte) (s : State) : State :=
  let was := s.isSet FAB_CFG_EN
  let s := (s.setF FAB_CFG_VOTER (argBit a 0 1)).setF FAB_CFG_CAST_MODE (argBit a 0 2)
  let s := (s.setF FAB_CFG_MASTER_PRI (at' a 1)).setF FAB_CFG_CAST_ID (le a 2 2)
  let s := s.setF FAB_CFG_POS_MASTER_ID (le a 4 2)
  let s := if loftIdChanges a s then
      loftProgram 3 (BitVec.ofNat 64 (le a 6 2 + 1024 * argBit a 0 3))
        ((s.setF FAB_ID_LOFT_ID (le a 6 2)).setF FAB_ID_LOFT_ID_EN (argBit a 0 3))
    else s
  let s := votersTo (votersWith s (decide (argBit a 0 1 = 1))) (BitVec.ofNat 48 (le a 8 8)) s
  if argBit a 0 0 = 1 then (if was then agreeShow (chooseMaster s) else fabEnter s)
  else if was then fabLeave s else s

/-- FAB_CONFIG as a configuration command (R364): its beat counts where it changes the device's vote. -/
def fabConfigCmd : CfgCmd :=
  { cfgPlain 0x0801 0 [(0, 1), (1, 1), (2, 2), (4, 2), (6, 2)] fabConfigApply with
    words := fun a s => (loftIdChanges a s).toNat
    wide := [2]
    check := fun a s => firstStatus [
      (decide (15 < at' a 0) || decide (15 < at' a 1) || decide (1023 < le a 2 2) || decide (1023 < le a 4 2)
        || decide (1023 < le a 6 2), 2),
      (decide (argBit a 0 1 ≠ s.getF FAB_CFG_VOTER), (changeBeat a 8 s).1)]
    resolve := fun a s => if argBit a 0 1 ≠ s.getF FAB_CFG_VOTER then nameBeat 8 a s else putAt a 8 (zeros 8) }

/-- FAB_CONFIG (R364). -/
def execFabConfig (m : Fin 16) (loftOk : Bool) (s : State) : Host.Outcome State Fault Refusal :=
  .next (cfgRun fabConfigCmd m loftOk s)

/-- FAB_RIGHTS's effect (R312): the four rights of a device. -/
def fabRightsApply (a : List Byte) (s : State) : State :=
  let d := le a 0 2
  s.setF ⟨FAB_RIGHTS (d / 8), 4 * (d % 8) + 3, 4 * (d % 8)⟩ (at' a 2)

/-- FAB_RIGHTS as a configuration command (R364). -/
def fabRightsCmd : CfgCmd :=
  { cfgPlain 0x0802 0 [(0, 2), (2, 1)] fabRightsApply with
    check := fun a _ => firstStatus [(!zeroAt a [(3, 1)] || decide (1023 < le a 0 2) || decide (15 < at' a 2), 2)] }

/-- FAB_RIGHTS (R364). -/
def execFabRights (m : Fin 16) (loftOk : Bool) (s : State) : Host.Outcome State Fault Refusal :=
  .next (cfgRun fabRightsCmd m loftOk s)

/-- FAB_CUSTODY's effect (R315): the custody list of a path; a lease that this device holds and is no candidate for ends. -/
def fabCustodyApply (a : List Byte) (s : State) : State :=
  let n := le a 0 2
  let k := at' a 2
  let id := fun (i : Nat) => if i < k then le a (4 + 2 * i) 2 else 0
  let s := (s.setF (FAB_CUST_01_V0 n) (decide (0 < k)).toNat).setF (FAB_CUST_01_CAND0 n) (id 0)
  let s := (s.setF (FAB_CUST_01_V1 n) (decide (1 < k)).toNat).setF (FAB_CUST_01_CAND1 n) (id 1)
  let s := (s.setF (FAB_CUST_23_V2 n) (decide (2 < k)).toNat).setF (FAB_CUST_23_CAND2 n) (id 2)
  let s := (s.setF (FAB_CUST_23_V3 n) (decide (3 < k)).toNat).setF (FAB_CUST_23_CAND3 n) (id 3)
  let s := candShow n s
  leaseShow n (if (custody s n).contains s.devId then s else leaseRelease n s)

/-- FAB_CUSTODY as a configuration command (R322, R364): the list is fabric-wide. -/
def fabCustodyCmd : CfgCmd :=
  { cfgPlain 0x0803 2 [(0, 2), (2, 1), (4, 2), (6, 2), (8, 2), (10, 2)] fabCustodyApply with
    wide := [0, 2, 4, 6, 8, 10]
    check := fun a s => firstStatus [
      (!zeroAt a [(3, 1)] || decide (511 < le a 0 2) || decide (4 < at' a 2)
        || [0, 1, 2, 3].any (fun i => decide (1023 < le a (4 + 2 * i) 2)), 2),
      (s.chTwin (le a 0 2), 2)] }

/-- FAB_CUSTODY (R364). -/
def execFabCustody (m : Fin 16) (loftOk : Bool) (s : State) : Host.Outcome State Fault Refusal :=
  .next (cfgRun fabCustodyCmd m loftOk s)

/-- FAB_FORWARD's effect (R330 to R332). -/
def fabForwardApply (a : List Byte) (s : State) : State :=
  let n := le a 0 2
  let s := (s.setF (FAB_FWD_FWD_EN n) (argBit a 2 0)).setF (FAB_FWD_ROLE n) (argBit a 2 1)
  let s := (s.setF (FAB_FWD_FWD_OUT n) (argBit a 2 2)).setF (FAB_FWD_REMOTE_PORT n) (at' a 3)
  let s := (s.setF (FAB_FWD_PEER_DEV n) (le a 4 2)).setF (FAB_FWD_PEER_CH n) (le a 6 2)
  (s.setF (FAB_FWD_MASK_FWD_MASK n) (le a 8 4)).setF (FAB_FWD_LEN_FWD_LEN n) (le a 12 2)

/-- FAB_FORWARD as a configuration command (R331, R364). -/
def fabForwardCmd : CfgCmd :=
  { cfgPlain 0x0804 2 [(0, 2), (2, 1), (3, 1), (4, 2), (6, 2), (8, 4), (12, 2)] fabForwardApply with
    check := fun a s => firstStatus [
      (!zeroAt a [(14, 2)] || decide (511 < le a 0 2) || decide (7 < at' a 2) || decide (31 < at' a 3) || decide (1023 < le a 4 2)
        || decide (511 < le a 6 2) || decide (2 ^ 14 ≤ le a 12 2), 2),
      (s.chTwin (le a 0 2) || decide (s.chMode (le a 0 2) = 2), 2)] }

/-- FAB_FORWARD (R364). -/
def execFabForward (m : Fin 16) (loftOk : Bool) (s : State) : Host.Outcome State Fault Refusal :=
  .next (cfgRun fabForwardCmd m loftOk s)

end Sys2Proof.Machine
end

