-- ==== Sys2Proof/Machine/YfiSupport.lean ====
section
/-!
DEFINITION. The Dray, memory, Bell, power, Loft, Farrier and Yardmaster commands of YFI (spec/14 R365, R366), and the DZ4256
commands (spec/14 R367, spec/13 R348).
-/

namespace Sys2Proof.Machine

/-! ### Dray (R365) -/

/-- A core runs: started, and not stopped since. -/
def coreRuns (s : State) (k : Nat) : Bool := s.isSet (DRAY_CTL_RUN k) || decide (2 ≤ s.coreState k)

/-- DRAY_SPLIT's effect: CUST of every core. -/
def draySplitApply (a : List Byte) (s : State) : State :=
  (List.range 32).foldl (fun (s : State) (k : Nat) => s.setF (DRAY_CTL_CUST k) (le a 0 4 / 2 ^ k % 2)) s

/-- DRAY_SPLIT as a configuration command. -/
def draySplitCmd : CfgCmd :=
  { cfgPlain 0x0901 0 [(0, 4)] draySplitApply with
    check := fun a s => firstStatus [
      (decide (((List.range 32).filter (fun k => !maskBit (le a 0 4) k)).length < 8), 8),
      ((List.range 32).any (fun k => s.isSet (DRAY_CTL_CUST k) && !maskBit (le a 0 4) k && coreRuns s k), 5)] }

/-- DRAY_SPLIT (R365). -/
def execDraySplit (m : Fin 16) (loftOk : Bool) (s : State) : Host.Outcome State Fault Refusal :=
  .next (cfgRun draySplitCmd m loftOk s)

/-- A customer core's memory cannot be reached yet: its shed is ON and the clearing of R370 goes on. -/
def lmBusy (s : State) (k : Nat) : Bool := s.shedOn (k / 2) && !s.isSet (DRAY_STAT_LM_READY k)

/-- DRAY_LOAD (R365): an image goes into a stopped customer core; a confined range is closed to it (R404). -/
def drayLoad (a : List Byte) (s : State) : YfiOut :=
  let k := at' a 0
  let o := le a 4 4
  let n := le a 8 4
  let st := firstStatus [
    (!zeroAt a [(1, 3), (12, 4)] || decide (31 < k) || !s.isSet (DRAY_CTL_CUST k) || decide (o % 8 ≠ 0)
      || decide (0x80000 < o + n), 2),
    (coreRuns s k, 5),
    (!s.shedOn (k / 2), 9),
    (confinedHit (s.core k) o n, 4)]
  if st ≠ 0 then yfiFail st s else (0, [], s.setBytes (lmBase k + o) (slice a 16 n))

/-- DRAY_LOAD (R365). It waits while the core's memory is being cleared (R370). -/
def execDrayLoad (m : Fin 16) (s : State) : Host.Outcome State Fault Refusal :=
  if lmBusy s (at' (mbArg s m.val) 0) then .next s else .next (yfiRun 0x0902 m drayLoad s)

/-- SHA-384 of a core's local memory. -/
def lmHash (s : State) (k : Nat) : List Byte := sha (bytesOf 0x80000 (fun i => s.byte (lmBase k + i)))

/-- DRAY_CONTROL's effect (R393). -/
def drayControlApply (a : List Byte) (s : State) : State :=
  let k := at' a 0
  if at' a 1 = 1 then coreStart k (s.setF (DRAY_ENTRY_ENTRY k) (le a 4 4 / 8)) else coreStop k s

/-- DRAY_CONTROL as a configuration command (R365): at start the hash of the local memory follows the argument and enters the
declared configuration. -/
def drayControlCmd : CfgCmd :=
  { cfgPlain 0x0903 1 [] drayControlApply with
    fields := fun a => [(0, 1), (1, 1), (4, 4)] ++ (if at' a 1 = 1 then [(8, 48)] else [])
    check := fun a s =>
      let k := at' a 0
      firstStatus [
        (!zeroAt a [(2, 2)] || decide (31 < k) || decide (1 < at' a 1) || !s.isSet (DRAY_CTL_CUST k) || decide (le a 4 4 % 8 ≠ 0)
          || decide (0x80000 ≤ le a 4 4), 2),
        (!s.shedOn (k / 2), 9)]
    resolve := fun a s => if at' a 1 = 1 then a ++ lmHash s (at' a 0) else a
    rsp := fun a _ => some (0, if at' a 1 = 1 then slice a 8 48 else zeros 48) }

/-- DRAY_CONTROL_STOP (R365): action 0, or one that is neither. -/
def execDrayControlStop (m : Fin 16) (loftOk : Bool) (s : State) : Host.Outcome State Fault Refusal :=
  if at' (mbArg s m.val) 1 ≠ 1 then .next (cfgRun drayControlCmd m loftOk s) else .next s

/-- DRAY_CONTROL_START (R365): action 1. It waits while the core's memory is being cleared (R370). -/
def execDrayControlStart (m : Fin 16) (loftOk : Bool) (s : State) : Host.Outcome State Fault Refusal :=
  if at' (mbArg s m.val) 1 = 1 && !lmBusy s (at' (mbArg s m.val) 0) then .next (cfgRun drayControlCmd m loftOk s) else .next s

/-! ### Memory and Bell (R366) -/

/-- A command whose argument is one flag and three zero bytes. -/
def flagCmd (op : Nat) (apply : Nat → State → State) : CfgCmd :=
  { cfgPlain op 0 [(0, 1)] (fun a s => apply (at' a 0) s) with
    check := fun a _ => firstStatus [(!zeroAt a [(1, 3)] || decide (1 < at' a 0), 2)] }

/-- MEM_APERTURE as a configuration command: AP_EN. -/
def memApertureCmd : CfgCmd := flagCmd 0x0A01 (fun v s => s.setF HOST_WIN_AP_EN v)

/-- MEM_APERTURE (R366). -/
def execMemAperture (m : Fin 16) (loftOk : Bool) (s : State) : Host.Outcome State Fault Refusal :=
  .next (cfgRun memApertureCmd m loftOk s)

/-- BELL_HOST_DB as a configuration command: the host may write BELL_DOORBELL (R482). -/
def bellHostDbCmd : CfgCmd := flagCmd 0x0B01 (fun v s => { s with bell := { s.bell with hostDb := v = 1 } })

/-- BELL_HOST_DB (R366). -/
def execBellHostDb (m : Fin 16) (loftOk : Bool) (s : State) : Host.Outcome State Fault Refusal :=
  .next (cfgRun bellHostDbCmd m loftOk s)

/-! ### Sheds (R537, R538, R542) -/

/-- The banks of an owner are handed over by the firmware. -/
def bankMove (old new : Nat) (s : State) : State :=
  (List.range 512).foldl (fun (s : State) (b : Nat) =>
    if s.getF (PADK_OWNER_OWNER b) = old then s.setF (PADK_OWNER_OWNER b) new else s) s

/-- What the firmware prepares for a shed that is to go OFF (R537, R538): stable-kernel cores are stopped and their banks handed to
the lowest stable-kernel core that stays; a rail group's banks go to the lowest group of its direction that stays. -/
def shedPrepare (on k : Nat) (s : State) : State :=
  if k < 16 then
    let stays := (List.range 32).find? (fun (c : Nat) => s.shedOn (c / 2) && maskBit on (c / 2) && !s.isSet (DRAY_CTL_CUST c))
    [2 * k, 2 * k + 1].foldl (fun (s : State) (c : Nat) =>
      if s.isSet (DRAY_CTL_CUST c) then s
      else
        let s := s.setF (DRAY_CTL_RUN c) 0
        let s := if 2 ≤ s.coreState c then stopNow c (s.setF (DRAY_DBG_STAT_HALTED c) 0) else s
        match stays with
        | some d => bankMove c d s
        | none => s) s
  else if k < 24 then
    let base := if k < 20 then 16 else 20
    match (List.range 4).find? (fun (i : Nat) => s.shedOn (base + i) && maskBit on (base + i)) with
    | some i => bankMove (40 + (k - 16)) (40 + (base - 16) + i) s
    | none => s
  else s

/-- The state in which the firmware has prepared every shed that a mask takes OFF. -/
def shedsPrepare (on : Nat) (s : State) : State := (shedsGoing s on).foldl (fun s k => shedPrepare on k s) s

/-- SHED_SET as a configuration command (R537): it ends once its sheds have changed. -/
def shedSetCmd : CfgCmd :=
  { cfgPlain 0x0D01 0 [(0, 4)] (fun a s => shedCommit (BitVec.ofNat 32 (le a 0 4)) (shedsPrepare (le a 0 4) s)) with
    check := fun a s =>
      firstStatus [
        (!zeroAt a [(4, 4)], 2), (true, ((shedRefusal (shedsPrepare (le a 0 4) s) (le a 0 4)).map (·.2)).getD 0)]
    rsp := fun _ _ => none }

/-- SHED_SET (R537, R541): one at a time; a refused one shows in PWR_EVT. -/
def execShedSet (m : Fin 16) (loftOk : Bool) (s : State) : Host.Outcome State Fault Refusal :=
  if s.ym.shedBox.isSome then .next s
  else
    let a := mbArg s m.val
    let bad := if yfiReady s 0x0D01 m.val && zeroAt a [(4, 4)] && (decide (mbBase s m.val = 0) || decide (mbBase s m.val = s.gen))
      then shedRefusal (shedsPrepare (le a 0 4) s) (le a 0 4) else none
    let t := shedSetDone (cfgRun shedSetCmd m loftOk s)
    match bad with
    | some (k, st) =>
      .next (((t.setF PWR_EVT_REQ_REFUSED 1).setF PWR_EVT_REF_SHED k).setF PWR_EVT_REF_KIND (if st = 8 then 1 else 0))
    | none => .next t

/-- SHED_RESET (R542). -/
def shedResetYfi (a : List Byte) (s : State) : YfiOut :=
  let k := at' a 0
  if !zeroAt a [(1, 3)] || decide (31 < k) then yfiFail 2 s
  else if !s.shedOn k then yfiFail 9 s
  else (0, [], shedReset k s)

/-- SHED_RESET (R542). -/
def execShedReset (m : Fin 16) (s : State) : Host.Outcome State Fault Refusal := .next (yfiRun 0x0D02 m shedResetYfi s)

/-! ### Loft and Farrier -/

/-- LOFT_BUDGET as a configuration command (R552). -/
def loftBudgetCmd : CfgCmd := cfgPlain 0x0E01 0 [(0, 4)] (fun a s => loftSetRate (le a 0 4) s)

/-- LOFT_BUDGET (R366, R552). -/
def execLoftBudget (m : Fin 16) (loftOk : Bool) (s : State) : Host.Outcome State Fault Refusal :=
  .next (cfgRun loftBudgetCmd m loftOk s)

/-- LOFT_GET (R366). -/
def execLoftGet (m : Fin 16) (s : State) : Host.Outcome State Fault Refusal :=
  .next (yfiRun 0x0E02 m (fun _ s => (0, loftGetBytes s, s)) s)

/-- FARRIER_CONFIG's effect (R366, R530). -/
def farrierApply (a : List Byte) (s : State) : State :=
  let s := (s.setF FARR_CFG_RAIL_EN (argBit a 0 0)).setF FARR_CFG_DRAY_EN (argBit a 0 1)
  let s := (s.setF FARR_CFG_SCRUB_EN (argBit a 0 2)).setF FARR_CFG_SERDES_EN (argBit a 0 3)
  farrCfgWritten (s.setF FARR_CFG_MARGIN_MV (le a 2 2))

/-- FARRIER_CONFIG as a configuration command. -/
def farrierCmd : CfgCmd :=
  { cfgPlain 0x0F01 0 [(0, 1), (2, 2)] farrierApply with
    check := fun a _ => firstStatus [(!zeroAt a [(1, 1)] || decide (15 < at' a 0), 2)] }

/-- FARRIER_CONFIG (R366). -/
def execFarrierConfig (m : Fin 16) (loftOk : Bool) (s : State) : Host.Outcome State Fault Refusal :=
  .next (cfgRun farrierCmd m loftOk s)

/-! ### Yardmaster, ledger, statistics -/

/-- INFO (R366). -/
def execInfo (m : Fin 16) (s : State) : Host.Outcome State Fault Refusal :=
  .next (yfiRun 0x1001 m (fun _ s => (0, infoBytes s, s)) s)

/-- The exponent of a ring's size, where it is a power of two from 256 to 65,536. -/
def ringLog (n : Nat) : Option Nat := (List.range 17).find? (fun k => decide (8 ≤ k) && decide (2 ^ k = n))

/-- LEDGER_CONFIG's effect (R366, R513, R516). -/
def ledgerConfigApply (a : List Byte) (s : State) : State :=
  let w := fldSet 31 31 (at' a 0) (fldSet 26 24 (at' a 1) (fldSet 19 16 ((ringLog (le a 4 4)).getD 8) (s.rd LEDGER_CFG)))
  modeChange w (le a 8 8) (le a 16 8) s

/-- LEDGER_CONFIG as a configuration command. -/
def ledgerConfigCmd : CfgCmd :=
  { cfgPlain 0x1002 0 [(0, 1), (1, 1), (4, 4), (8, 8), (16, 8)] ledgerConfigApply with
    check := fun a _ => firstStatus [
      (!zeroAt a [(2, 2)] || decide (1 < at' a 0) || decide (7 < at' a 1) || (ringLog (le a 4 4)).isNone, 2)] }

/-- LEDGER_CONFIG (R366). -/
def execLedgerConfig (m : Fin 16) (loftOk : Bool) (s : State) : Host.Outcome State Fault Refusal :=
  .next (cfgRun ledgerConfigCmd m loftOk s)

/-- LEDGER_REACTION as a configuration command (R517). -/
def ledgerReactionCmd : CfgCmd :=
  { cfgPlain 0x1003 0 [(0, 2), (2, 1)] (fun a s => s.setF (LEDGER_FSTATE_REACTION (le a 0 2)) (at' a 2)) with
    check := fun a _ => firstStatus [(!zeroAt a [(3, 1)] || !reactionAllowed (le a 0 2) (at' a 2), 2)] }

/-- LEDGER_REACTION (R517). -/
def execLedgerReaction (m : Fin 16) (loftOk : Bool) (s : State) : Host.Outcome State Fault Refusal :=
  .next (cfgRun ledgerReactionCmd m loftOk s)

/-- FAULT_CLEAR (R366, R515). -/
def faultClearYfi (a : List Byte) (s : State) : YfiOut :=
  let x := faultClear (le a 0 2) s
  (if x.2.1 then 5 else 0, leBytes 4 x.1, x.2.2)

/-- FAULT_CLEAR (R515). -/
def execFaultClear (m : Fin 16) (s : State) : Host.Outcome State Fault Refusal := .next (yfiRun 0x1004 m faultClearYfi s)

/-- STATS_MODE as a configuration command (R31, R366): who aggregates, and the interval. -/
def statsModeCmd : CfgCmd :=
  { cfgPlain 0x1005 0 [(0, 1), (2, 2)]
      (fun a s => { s with ym := { s.ym with statsHost := at' a 0 = 1, statsMs := le a 2 2 } }) with
    check := fun a s => firstStatus [
      (!zeroAt a [(1, 1)] || decide (1 < at' a 0) || decide (le a 2 2 = 0) || decide (60000 < le a 2 2), 2),
      (decide (at' a 0 = 0) && !s.isSet BARN_STAT_BARN_READY, 3)] }

/-- STATS_MODE (R366). -/
def execStatsMode (m : Fin 16) (loftOk : Bool) (s : State) : Host.Outcome State Fault Refusal :=
  .next (cfgRun statsModeCmd m loftOk s)

/-- COMPAT_CONFIG as a configuration command (R348, R366). -/
def compatConfigCmd : CfgCmd :=
  { flagCmd 0x1006 (fun v s => (s.setF HOST_WIN_COMPAT_EN v).setF (MB_STATUS_COMPAT 15) v) with
    check := fun a s => firstStatus [
      (!zeroAt a [(1, 3)] || decide (1 < at' a 0), 2),
      (decide (s.getF (MB_STATUS_STATE 15) = 1) || decide (s.getF (MB_STATUS_STATE 15) = 2), 5)] }

/-- COMPAT_CONFIG (R366). -/
def execCompatConfig (m : Fin 16) (loftOk : Bool) (s : State) : Host.Outcome State Fault Refusal :=
  .next (cfgRun compatConfigCmd m loftOk s)

/-! ### DZ4256 commands (R348, R367) -/

/-- The YFI commands of a DZ4256 command; none for one without a counterpart. -/
def compatOps (code : Nat) : List Nat :=
  if code = 0x01 then [0x1001] else if code = 0x10 then [0x0201, 0x0202] else if code = 0x20 then [0x0301]
  else if code = 0x21 then [0x0302] else if code = 0x30 then [0x0508] else if code = 0x40 then [0x1004] else []

/-- Arguments that a DZ4256 command can translate into: channels 0 to 255, frame mode, an outbound beat (R367). -/
def compatArgOk (op : Nat) (a : List Byte) : Bool :=
  if op = 0x0301 then decide (le a 0 2 < 256) && decide (at' a 2 = 0)
  else if op = 0x0302 then decide (le a 0 2 < 256)
  else if op = 0x0508 then decide (le a 0 2 < 256) && decide (argBit a 3 0 = 1)
  else true

/-- A YFI command of the table of R367 runs on mailbox 15. -/
def compatRun (op : Nat) (loftOk : Bool) (s : State) : State :=
  match op with
  | 0x1001 => yfiRun 0x1001 15 (fun _ s => (0, infoBytes s, s)) s
  | 0x0201 => cfgRun groupCmd 15 loftOk s
  | 0x0202 => cfgRun portCmd 15 loftOk s
  | 0x0301 => cfgRun chOpenCmd 15 loftOk s
  | 0x0302 => cfgRun chCloseCmd 15 loftOk s
  | 0x0508 => keyInstallRun 15 loftOk s
  | 0x1004 => yfiRun 0x1004 15 faultClearYfi s
  | _ => s

/-- The leader submits one YFI command on mailbox 15, under the tag that follows the last, or the watermark (R348), and runs it. -/
def compatSubmit (op : Nat) (a : List Byte) (loftOk : Bool) (s : State) : State :=
  let last := if s.ym.tagged.contains 15 then s.rd64 (MB_TAG_LO 15) else s.rd64 (MB_WM_LO 15)
  let head := leBytes 2 op ++ leBytes 2 a.length ++ zeros 4 ++ leBytes 8 (last.toNat + 1) ++ zeros 8
  compatRun op loftOk (mbAnswer 15 loftOk (s.setBytes (cmdBuf 15) (head ++ a)))

/-- The commands of a DZ4256 command run one after the other, as far as each ends with OK. -/
def compatAll (loftOk : Bool) : List (Nat × List Byte) → State → State
  | [], s => s
  | (op, a) :: r, s =>
    let t := compatSubmit op a loftOk s
    if t.getF (MB_STATUS_STATE 15) = 3 ∧ t.getF (MB_STATUS_RESULT 15) = 0 then compatAll loftOk r t else t

/-- COMPAT_COMMAND (R341, R348, R367): a DZ4256 command, with the arguments it translates into. One that has no counterpart changes
nothing; BAR4 is closed while COMPAT_EN is 0; a command waits while mailbox 15 is at work or none leads. -/
def execCompatCommand (code : BitVec 8) (args : List (List Byte)) (loftOk : Bool) (s : State) : Host.Outcome State Fault Refusal :=
  let ops := compatOps code.toNat
  let st := s.getF (MB_STATUS_STATE 15)
  if !s.isSet HOST_WIN_COMPAT_EN then .next (s.decodeFault .host 0)
  else if !served s || decide (st = 1) || decide (st = 2) then .next s
  else if args.length = ops.length ∧ ((ops.zip args).all (fun e => compatArgOk e.1 e.2)) = true then
    .next (compatAll loftOk (ops.zip args) s)
  else .next s

end Sys2Proof.Machine
end

