-- ==== Sys2Proof/Machine/FabCfg.lean ====
section
/-!
DEFINITION. The declared configuration in a fabric and in a Twin pair (spec/12 R325 to R329, spec/14 R354): commands at the master,
and configurations pulled.
-/

namespace Sys2Proof.Machine

/-- Every configuration command under the opcode its records carry. -/
def cfgTable : List CfgCmd :=
  [posConfigCmd, groupCmd, portCmd, chOpenCmd, gateLoadCmd, gateTableCmd, gateSwitchCmd, puntCmd, calendarCmd, customerCmd,
    keyPolicyCmd, bridleConfigCmd, twinBindCmd, fabConfigCmd, fabRightsCmd, fabCustodyCmd, fabForwardCmd, draySplitCmd,
    drayControlCmd, memApertureCmd, bellHostDbCmd, shedSetCmd, loftBudgetCmd, farrierCmd, ledgerConfigCmd, ledgerReactionCmd,
    statsModeCmd, compatConfigCmd]

/-- Every configuration command a member can submit. -/
def cfgSubmits : List CfgCmd := chCloseCmd :: chModifyCmd :: cfgTable

/-- Fields of a record's key (R325). -/
def keyDev (k : Nat) : Nat := k / 2 ^ 48
def keySub (k : Nat) : Nat := k / 2 ^ 40 % 256
def keyObj (k : Nat) : Nat := k / 65536 % 65536
def keyFld (k : Nat) : Nat := k % 65536

/-- The command and object that a record of this device, or a fabric-wide one, belongs to: subsystem, object, opcode index. A
vote belongs to none. -/
def keyGroup (dev k : Nat) : Option (Nat × Nat × Nat) :=
  if keyDev k = 0xFFFF ∧ keySub k = 8 ∧ keyFld k = 0x0100 then none
  else if keyDev k = dev ∨ keyDev k = 0xFFFF then some (keySub k, keyObj k, keyFld k / 256)
  else none

/-- Records of a group: offset in the argument, and value. -/
def groupFields (dev : Nat) (g : Nat × Nat × Nat) (t : Table (List Byte)) : List (Nat × List Byte) :=
  t.filterMap (fun e => if keyGroup dev e.1 = some g then some (keyFld e.1 % 256, e.2) else none)

/-- The argument that a group's records spell: its fields over zeros, and its change beat. -/
def groupArg (op dev : Nat) (g : Nat × Nat × Nat) (t : Table (List Byte)) (beat : Nat) : List Byte :=
  let fs := groupFields dev g t
  let n := fs.foldl (fun n f => max n (f.1 + f.2.length)) 64
  let a := fs.foldl (fun a f => putAt a f.1 f.2) (zeros n)
  match beatAt op with
  | some o => putAt a o (leBytes 8 beat)
  | none => a

/-- A CH_OPEN's records come into force (R112, R116, R272): a CLOSED channel opens at its beat, an OPEN one is changed, and a
Twin-mode channel waits for its pair. -/
def adoptChannel (a : List Byte) (s : State) : State :=
  let n := blkCh a
  if s.chState n = 0 then
    let t := blkWrite a s
    if t.chTwin n && !s.bound && !isWitness t n then t else chOpenApply a s
  else chModifyApply (putAt a 54 (leBytes 2 0xFF)) s

/-- The records of a group come into force on this device. -/
def adoptGroup (new : Table (List Byte)) (g : Nat × Nat × Nat) (s : State) : State :=
  let dev := s.devId
  let op := g.1 * 256 + g.2.2
  let fs := groupFields dev g new
  if fs = groupFields dev g s.config then s
  else if fs.isEmpty then
    if op = 0x0301 ∧ s.chState g.2.1 = 1 then
      { s with changes := s.changes ++ [(BitVec.ofNat 48 (tblGet (beatAdd s.beat 64).toNat (beatKey op dev g.2.1) s.fab.beats), .close g.2.1)] }
    else s
  else
    let a := groupArg op dev g new (tblGet (beatAdd s.beat 64).toNat (beatKey op dev g.2.1) s.fab.beats)
    if op = 0x0301 then adoptChannel a s
    else match cfgTable.find? (fun c => c.op = op) with
      | some c => c.apply a s
      | none => s

/-- The voters that a configuration names. -/
def configVoters (t : Table (List Byte)) : List Nat :=
  t.filterMap (fun e => if keyDev e.1 = 0xFFFF ∧ keySub e.1 = 8 ∧ keyFld e.1 = 0x0100 then some (keyObj e.1) else none)

/-- A configuration takes the place of the declared one (R325 to R327): the groups that name this device, and the fabric-wide ones,
come into force where they differ, and so does the voter set. -/
def adoptConfig (new : Table (List Byte)) (s : State) : State :=
  let dev := s.devId
  let gs := ((s.config ++ new).filterMap (fun e => keyGroup dev e.1)).eraseDups
  let vs := configVoters new
  let was := configVoters s.config
  let beat := ((vs ++ was).filter (fun d => vs.contains d ≠ was.contains d)).foldl
    (fun b d => max b (tblGet 0 (beatKey 0x0801 d 0) s.fab.beats)) 0
  let s := gs.foldl (fun s g => adoptGroup new g s) s
  let s := votersTo vs (BitVec.ofNat 48 beat) s
  setRecords [] { s with config := new }

/-- The records of a channel's own digest follow (R115). -/
def chDigests (s : State) : State :=
  (s.config.map (fun e => if keySub e.1 = 3 ∧ keyDev e.1 = s.devId then keyObj e.1 else 512)).eraseDups.foldl
    (fun s n => if n < 512 then chDigest n s else s) s

/-! ### The master (R326) -/

/-- The answer of a master or a lead: kind 0x11, mailbox, status, generation. -/
def resultBody (m st gen : Nat) : List Byte := [0x11, BitVec.ofNat 8 m, BitVec.ofNat 8 st] ++ beBytes 8 gen

/-- A message goes back to a member, or to the mate by the twin link. -/
def answerTo (x : FabMsg) (body : List Byte) (s : State) : State :=
  if x.flags / 64 % 2 = 1 then fabHop x.port 6 x.src body s else fabSend x.src 6 0 0 0 body s

/-- A member's command commits at this device (R326): its records, its beat, and one generation. -/
def masterCommit (c : CfgCmd) (x : FabMsg) (a : List Byte) (s : State) : State :=
  let s := keepBeat c.op c.obj x.src a s
  let new := (cfgRecords c x.src a).foldl (fun t e => tblSet [] e.1 e.2 t) s.config
  chDigests (takeGen (s.gen + 1) (adoptConfig new s))

/-- This device commits what others submit: the master of a fabric; outside one, the lead of its pair (R326, R354). -/
def commitsHere (s : State) : Bool := decide (cfgPlace s = 0) && (s.isSet FAB_CFG_EN || s.bound)

/-- CFG_COMMAND_AT_MASTER (R326): a submitted command is refused with CFG_STALE or DENIED, or commits; its submitter completes it
once it has applied the generation. -/
def execCfgCommandAtMaster (s : State) : Host.Outcome State Fault Refusal :=
  .next (fabTake 6 (fun m => decide (at' m.body 0 = 0x10)) s (fun x s =>
    let b := x.body
    let base := be b 4 8
    let a := slice b 14 (be b 12 2)
    match cfgSubmits.find? (fun c => c.op = be b 2 2) with
    | none => s
    | some c =>
      if !commitsHere s then s
      else if base ≠ 0 ∧ base ≠ s.gen then answerTo x (resultBody (at' b 1) 0x0A s.gen) s
      else if s.isSet FAB_CFG_EN && !s.isSet FAB_STAT_QUORUM then answerTo x (resultBody (at' b 1) 4 s.gen) s
      else
        let s := masterCommit c x a s
        twinPublish (answerTo x (resultBody (at' b 1) 0 s.gen) s)))

/-! ### A configuration pulled (R327, R328) -/

/-- Change beats of a transfer. -/
def pieceBeats (l : List Byte) : Nat → Nat → List (Nat × Nat)
  | 0, _ => []
  | k + 1, o => (be l o 8, be l (o + 8) 8) :: pieceBeats l k (o + 16)

/-- Records of a transfer (R325); `fuel` is at least the number of its bytes. -/
def pieceRecords : Nat → List Byte → List (Nat × List Byte)
  | 0, _ => []
  | f + 1, l => if l.length < 10 then [] else
      let n := be l 8 2
      (be l 0 8, slice l 10 n) :: pieceRecords f (l.drop (10 + n))

/-- A whole configuration is taken where the published digest is computed from it (R327, R328): its records, its generation; and the
commands that waited for it end. -/
def takePulled (p : Pulled) (s : State) : State :=
  let k := be p.raw 0 2
  let records := pieceRecords p.raw.length (p.raw.drop (2 + 16 * k))
  let s : State := { s with fab := { s.fab with pulled := none } }
  if recDigest records ≠ p.digest then s
  else
    let s : State := { s with fab := { s.fab with
      beats := (pieceBeats p.raw k 2).foldl (fun t e => tblSet 0 e.1 e.2 t) s.fab.beats } }
    let s := adoptConfig (records.foldl (fun t e => tblSet [] e.1 e.2 t) []) s
    let s := chDigests (takeGen p.gen s)
    let s := (s.setF FAB_CFG_STAT_PULLING 0).setF FAB_CFG_STAT_DIVERGE 0
    shedSetDone (sentEnd (agreeShow s))

/-- CFG_PULL_DONE (R327): at the next beat boundary a configuration that has come whole is applied. -/
def execCfgPullDone (s : State) : Host.Outcome State Fault Refusal :=
  match s.fab.pulled with
  | some p => if p.whole then .next (takePulled p s) else .next s
  | none => .next s

end Sys2Proof.Machine
end

