-- ==== Sys2Proof/Machine/Access.lean ====
section
/-!
DEFINITION. Accesses to registers and memories (spec/02, spec/13 R334 to R342, spec/12 R310, R312; spec/16 R412): what each
requester may reach, the pairs and their latches, same-cycle outcomes, and the side effects of a write. Offsets are window
offsets (R34); the host names BAR0 offsets (R340).
-/

namespace Sys2Proof.Machine

/-! ### What is listed, and who may write it (R35, R114, R335) -/

/-- Offsets of the Stalls. -/
def inStall (o : Nat) : Bool := 0x22100000 ≤ o && o < 0x22200000

/-- Offsets of the deposit buffers (R217). -/
def inDeposit (o : Nat) : Bool := 0x24010000 ≤ o && o < 0x24010000 + 16 * 0x80

/-- The register map row that applies at an offset: the mode policy words follow the channel's mode. -/
def regAt (s : State) (o : Nat) : Option RegRow :=
  if inStall o && (decide (o % 0x800 = 0x28) || decide (o % 0x800 = 0x2C)) then
    let m := s.chMode ((o - 0x22100000) / 0x800)
    (regMap.filter (fun r => r.base = 0x22100000 + o % 0x800))[if m = 3 then 0 else m]?
  else regRow o

/-- Is a 4-byte word listed by its chapter? (R35, R37) -/
def csrListed (o : Nat) : Bool :=
  decide (o % 4 = 0) &&
    (if inStall o || inDeposit o then true
    else if 0x2A100000 ≤ o && o < 0x2A100000 + 49 * 0x1000 then
      bellTargets.contains ((o - 0x2A100000) / 0x1000) && (regRow o).isSome
    else if 0x2700C000 ≤ o && o < 0x27010000 && o % 32 = 0x1C then true
    else (0x20000000 ≤ o && o < 0x30000000 || bar0Key 0 ≤ o) && (regRow o).isSome)

/-- Leader-only resources (R335), the Stall among them (R114). -/
def leaderOnly (o : Nat) : Bool :=
  [POS_CFG, TR_CFG, TW_CFG, MERGE_CFG, FAB_CFG, FAB_ID, BARN_MAP, YM_WDOG, LEDGER_CFG, FARR_CFG, PWR_SHED_REQ, PWR_SHED_RST,
      LOFT_BUDGET_CFG].contains o
    || (0x21001000 ≤ o && o < 0x21001800)
    || (0x21002000 ≤ o && o < 0x21002000 + 72 * 64 && o % 64 < 8)
    || (inStall o && o % 0x800 ≠ 0x18 && o % 0x800 ≠ 0x1C)
    || (0x22001000 ≤ o && o < 0x22001800 && o % 0x100 = 0)
    || (0x22200000 ≤ o && o < 0x22300000)
    || (0x25001000 ≤ o && o < 0x25003000)
    || (0x2700A000 ≤ o && o < 0x2700A200) || (0x2700C000 ≤ o && o < 0x27010000)
    || (0x28001000 ≤ o && o < 0x28001800 && o % 64 < 8)
    || (0x2B001000 + 120 * 0x80 ≤ o && o < 0x2B005000)
    || (0x2F010000 ≤ o && o < 0x2F014400)

/-- Registers that only debug writes (R47, R446). -/
def debugOnly (o : Nat) : Bool :=
  o = DBG_CTL || (0x28001000 ≤ o && o < 0x28001800 && [0x14, 0x1C, 0x20, 0x24].contains (o % 64))

/-- The injection registers (R521). -/
def injReg (o : Nat) : Bool := LEDGER_INJ ≤ o && o < LEDGER_INJ + 0x18

/-- CMP0 and CMP0_CTL of T120 (R501). -/
def switchReg (o : Nat) : Bool := o = CMP_LO 120 0 || o = CMP_HI 120 0 || o = CMP_CTL 120 0

/-- A write that is not for this requester: the state that refuses it (R35, R335, R347, R446, R501, R521). -/
def csrRefuse (r : Requester) (o : Nat) (s : State) : Option State :=
  if !csrListed o then some (s.decodeFault r o)
  else if (debugOnly o && r ≠ .debug) || (o = YM_CTL 0 && r ≠ .ymE) || (o = YM_CTL 1 && r ≠ .ymW)
      || (injReg o && !s.power.ftm) || switchReg o || (inDeposit o && o % 0x80 < 0x70) then some (s.decodeFault r o)
  else if leaderOnly o && !isLeader s r then some (leadRefuse r o s)
  else none

/-! ### Same-cycle outcomes (R40) -/

/-- What a field holds after a write of `v` to its word in a cycle in which hardware updates the bits `hm` to `hv` (a counter
by `hv`). -/
def fldStore (f : RegFld) (old v hm hv : Word) : Nat :=
  let o := fldGet f.hi f.lo old
  let x := fldGet f.hi f.lo v
  let m := fldGet f.hi f.lo hm
  let h := fldGet f.hi f.lo hv
  let hw := (o ^^^ (o &&& m)) ||| (h &&& m)
  match f.kind with
  | .rw => x
  | .wo => 0
  | .w1c => (o ^^^ (o &&& x)) ||| (h &&& m)
  | .w1s => hw ||| x
  | .cnt => (x + h) % 2 ^ (f.hi + 1 - f.lo)
  | .cntSat => min (x + h) (2 ^ (f.hi + 1 - f.lo) - 1)
  | .pers => if m = 0 then x else hw
  | .mark => max x (if m = 0 then o else hw)
  | .ro => hw
  | .live => hw
  | .rc => hw

/-- A word after a write in such a cycle. -/
def wordStore (l : List RegFld) (old v hm hv : Word) : Word :=
  l.foldl (fun w f => fldSet f.hi f.lo (fldStore f old v hm hv) w) old

/-- Hardware updates a PERS field in the cycle of the write (R40). -/
def persHit (l : List RegFld) (hm : Word) : Bool := l.any (fun f => decide (f.kind = .pers) && decide (fldGet f.hi f.lo hm ≠ 0))

/-- A write with no side effect. -/
def plainWrite (o : Nat) (v hm hv : Word) (s : State) : State :=
  match regAt s o with
  | none => s
  | some r =>
    let t := s.wr o (wordStore r.flds (s.rd o) v hm hv)
    if persHit r.flds hm then t.setF (SUBSYS_STAT_PERS_COLL (decodeRegion o)) 1 else t

/-! ### Effects of a write, by region -/

/-- Position and ports (R57, R88, R89, R105, R109). -/
def portRegWrite (o : Nat) (v hm hv : Word) (s : State) : State :=
  if o < 0x21000000 then
    let old := posCfg s
    let s := plainWrite o v hm hv s
    if o = POS_CFG then posCfgWritten old s else s
  else if 0x21001000 ≤ o ∧ o < 0x21001800 then
    let g := (o - 0x21001000) / 0x100
    if groupWritable s g then groupMapWritten g (plainWrite o v hm hv s) else s.setF (GRP_CFG_CFG_LOCKED g) 1
  else if 0x21002000 ≤ o ∧ o < 0x21002000 + 72 * 64 then
    let k := (o - 0x21002000) / 64
    let s := plainWrite o v hm hv s
    if o % 64 < 8 then portLine k (if isZ k then portRefresh k s else portRefreshGroup (portGroup k) s)
    else if o % 64 = 0xC ∨ o % 64 = 0x10 then portLine k s
    else s
  else plainWrite o v hm hv s

/-- Bits of a Stall word that change only while the channel is CLOSED (R116, R212, R294). -/
def stallFixed (s : State) (n q : Nat) : Word :=
  if q = 0 then 0x381F1F00
  else if q = 0xC ∨ q = 0x10 ∨ q = 0x14 then 0xFFFFFFFF
  else if q = 0x28 then BitVec.ofNat 32 (polFixed (s.chMode n))
  else if q = 0x400 then 0x1F00
  else 0

/-- A word of a Stall (R114 to R116). -/
def stallWrite (o : Nat) (v hm hv : Word) (s : State) : State :=
  let n := (o - 0x22100000) / 0x800
  let q := o % 0x800
  let f := if s.chState n = 0 then 0 else stallFixed s n q
  let s := plainWrite o ((v &&& ~~~ f) ||| (s.rd o &&& f)) hm hv s
  if q = 0x18 ∨ q = 0x1C then chEvtLine n s else s

/-- CELL_PORT_CFG (R162, R174): a length or EN that the write does not change is left alone. -/
def cellCfgWrite (c : Nat) (v : Word) (s : State) : State :=
  let clr := fun (f : Fld) (s : State) => if fldGet f.hi f.lo v = 1 then s.setF f 0 else s
  let s := clr (CELL_PORT_CFG_CAL_LOCKED c) (clr (CELL_PORT_CFG_CAL_BAD c) s)
  let len := fun (cal : Nat) (f : Fld) (s : State) =>
    let x := fldGet f.hi f.lo v
    if x = s.getF f then s
    else if calWritable s c cal then gapRefreshPort c (s.setF f x) else s.setF (CELL_PORT_CFG_CAL_LOCKED c) 1
  let s := len 1 (CELL_PORT_CFG_LEN1 c) (len 0 (CELL_PORT_CFG_LEN0 c) s)
  let en := decide (fldGet (CELL_PORT_CFG_EN c).hi (CELL_PORT_CFG_EN c).lo v = 1)
  if en = s.isSet (CELL_PORT_CFG_EN c) then s else cellEnWrite c en s

/-- Channels, Gates and cell ports (R114, R126, R162, R173, R174). -/
def chanRegWrite (o : Nat) (v hm hv : Word) (s : State) : State :=
  if inStall o then stallWrite o v hm hv s
  else if 0x22200000 ≤ o ∧ o < 0x22300000 then
    let c := (o - 0x22200000) / 0x8000
    let q := o % 0x8000
    if q = 0 then cellCfgWrite c v s
    else if q = 0xC then
      let s := plainWrite o v hm hv s
      calArmWrite c ((s.rd64 (CELL_SW_BEAT_LO c)).truncate 48) s
    else if 0x2000 ≤ q then
      let cal := (q - 0x2000) / 0x2000
      if calWritable s c cal then gapRefreshPort c (plainWrite o v hm hv s) else s.setF (CELL_PORT_CFG_CAL_LOCKED c) 1
    else plainWrite o v hm hv s
  else plainWrite o v hm hv s

/-- Bridle and Twin registers: only while the channel is CLOSED; only while no Twin-mode channel is OPEN. -/
def linkRegWrite (o : Nat) (v hm hv : Word) (s : State) : State :=
  if 0x25001000 ≤ o ∧ o < 0x25003000 then
    if s.chState ((o - 0x25001000) / 16) = 0 then plainWrite o v hm hv s else s
  else if o = TW_CFG then if twinOpen s then s else twinRebind (plainWrite o v hm hv s)
  else if o = MERGE_CFG then if twinOpen s then s else holdFit (plainWrite o v hm hv s)
  else plainWrite o v hm hv s

/-- Fabric registers (R302, R315, R323, R333). -/
def fabRegWrite (o : Nat) (v hm hv : Word) (s : State) : State :=
  if o = FAB_CFG then
    let was := s.isSet FAB_CFG_EN
    let vote := s.getF FAB_CFG_VOTER
    let s := (plainWrite o v hm hv s).setF FAB_CFG_EN was.toNat
    let s := if vote = s.getF FAB_CFG_VOTER then s else votersTo (votersWith s (decide (vote = 0))) s.beat s
    if fldGet FAB_CFG_EN.hi FAB_CFG_EN.lo v = 1 then (if was then agreeShow (chooseMaster s) else fabEnter s) else if was then fabLeave s else s
  else if o = FAB_EVT ∨ o = FAB_EVT_EN then
    (List.range 11).foldl (fun (s : State) (i : Nat) => fabLine i s) (plainWrite o v hm hv s)
  else if 0x2700C000 ≤ o ∧ o < 0x27010000 ∧ (o % 32 = 4 ∨ o % 32 = 8) then
    let n := (o - 0x2700C000) / 32
    let s := candShow n (plainWrite o v hm hv s)
    leaseShow n (if (custody s n).contains s.devId then s else leaseRelease n s)
  else plainWrite o v hm hv s

/-- DBG_CTL of a core (R446 to R450). A RESUME through the register ends a halt of a length that is free. -/
def dbgCtlWrite (r : Requester) (k : Fin 32) (v hm hv : Word) (s : State) : State :=
  let en := DRAY_DBG_CTL_DBG_EN k.val
  let v' := if s.isSet (DRAY_CTL_CUST k.val) || s.power.ftm then v else fldSet en.hi en.lo 0 v
  let s := plainWrite (DRAY_DBG_CTL k.val) v' hm hv s
  let has := fun (f : Fld) => decide (fldGet f.hi f.lo v = 1)
  let s := if has (DRAY_DBG_CTL_HALT k.val) then
      (if has (DRAY_DBG_CTL_FORCE k.val) then dbgForceHaltAccess r k s else dbgHaltAccess r k s)
    else s
  if has (DRAY_DBG_CTL_RESUME k.val) then
    let d := s.draw
    if has (DRAY_DBG_CTL_STEP k.val) then dbgStepAccess r k d.1 d.2 else dbgResumeAccess r k d.1 d.2
  else s

/-- Core registers (R393, R446, R449, R453). -/
def drayRegWrite (r : Requester) (o : Nat) (v hm hv : Word) (s : State) : State :=
  let k := (o - 0x28001000) / 64
  if h : k < 32 then
    let q := o % 64
    if q = 0 then (if fldGet 31 31 v = 1 then coreStartAccess r ⟨k, h⟩ s else coreStopAccess r ⟨k, h⟩ s)
    else if q = 0x14 then dbgCtlWrite r ⟨k, h⟩ v hm hv s
    else if q = 0x20 then rdataAccess r ⟨k, h⟩ (some v) s
    else plainWrite o v hm hv s
  else plainWrite o v hm hv s

/-- May a requester write a bank's PADK_VIEW? It follows R457: the owner, and the token holder. -/
def viewMay (s : State) (r : Requester) (b : Nat) : Bool :=
  decide (s.getF (PADK_OWNER_OWNER b) = requesterCode r) || isLeader s r

/-- Paddock and Barn registers (R457, R463, R470). -/
def padRegWrite (r : Requester) (o : Nat) (v hm hv : Word) (s : State) : State :=
  if 0x29001000 ≤ o ∧ o < 0x29001800 then
    let x := handover r ((o - 0x29001000) / 4) v s
    x.2.reply r x.1 0
  else if 0x29002000 ≤ o ∧ o < 0x29003000 then
    let b := (o - 0x29002000) / 8
    if viewMay s r b then (plainWrite o v hm hv s).reply r .ok 0
    else
      let x := ownViol s
      (ownBad b x.2).reply r x.1 0
  else if o = BARN_MAP then (barnMapWrite v s).reply r .ok 0
  else (plainWrite o v hm hv s).reply r .ok 0

/-- Bell registers (R474, R479, R480, R482, R484, R485). -/
def bellRegWrite (r : Requester) (o : Nat) (v hm hv : Word) (s : State) : State :=
  if o = BELL_FREEZE then
    let s := if fldGet 30 30 v = 1 then s.setF BELL_FREEZE_EXPIRED 0 else s
    (bellFreezeWrite r (decide (fldGet 31 31 v = 1)) s).reply r .ok 0
  else if o = BELL_DOORBELL then bellDoorbellAccess r v s
  else if 0x2A001000 ≤ o ∧ o < 0x2A002000 then
    let n := (o - 0x2A001000) / 4
    if n = 0 ∨ n = 1023 then s.reply r .ok 0
    else
      let v := if 960 ≤ n then fldSet 2 0 (s.getF (SRC_CFG_SENSE n)) v else v
      (bellRefresh (bellLevel n (plainWrite o v hm hv s))).reply r .ok 0
  else if 0x2A100000 ≤ o ∧ o % 0x1000 = 8 then tgtFinishAccess r ((o - 0x2A100000) / 0x1000) v s
  else if (BELL_PEND 0 ≤ o ∧ o < BELL_PEND 32) ∨ (0x2A100000 ≤ o ∧ 0x100 ≤ o % 0x1000 ∧ o % 0x1000 < 0x180) then
    if bellMayWrite r s then
      let s := bellAfterWrite o (plainWrite o v hm hv s)
      (if o < BELL_PEND 32 then bellRestoreLevels ((o - BELL_PEND 0) / 4) s else s).reply r .ok 0
    else (if s.isSet BELL_FREEZE_FREEZE then s.cntSat BELL_CNT_FRZ_DROP 1 else s).reply r .ok 0
  else (bellRefresh (plainWrite o v hm hv s)).reply r .ok 0

/-- Tally registers (R488, R491, R494, R497, R498). A HI word alone is committed with the LO word as it stands. -/
def tallyRegWrite (r : Requester) (o : Nat) (v hm hv : Word) (s : State) : State :=
  let i := (o - 0x2B001000) / 0x80
  let q := o % 0x80
  if h : 0x2B001000 ≤ o ∧ i < 128 then
    let n : Fin 128 := ⟨i, h.2⟩
    if q = 0 then (tcfgWritten i (plainWrite o v hm hv s)).reply r .ok 0
    else if q = 0xC then tallyCountWriteAccess r n (v ++ s.rd (TCNT_LO i)) hv s
    else if 0x30 ≤ q ∧ q % 16 = 4 then compareCommitAccess r n ⟨(q - 0x30) / 16 % 4, Nat.mod_lt _ (by decide)⟩ (v ++ s.rd (o - 4)) s
    else if 0x30 ≤ q ∧ q % 16 = 12 ∧ fldGet 31 31 v = 1 then
      compareDisarmAccess r n ⟨(q - 0x30) / 16 % 4, Nat.mod_lt _ (by decide)⟩ v s
    else (plainWrite o v hm hv s).reply r .ok 0
  else if 0x2B000020 ≤ o ∧ o < 0x2B000060 then (gpioDrive s (plainWrite o v hm hv s)).reply r .ok 0
  else (plainWrite o v hm hv s).reply r .ok 0

/-- A write to a word with PERS fields in the bits `mask` (R12, R548, R550): the Loft's word `w` is programmed before the response;
where it does not persist, the fields keep their old values and the response is ECC. -/
def persWrite (r : Requester) (o w : Nat) (mask : Word) (val : State → Nat) (v hm hv : Word) (loftOk : Bool) (s : State) : State :=
  if loftOk then
    let t := plainWrite o v hm hv s
    (loftProgram w (BitVec.ofNat 64 (val t)) t).reply r .ok 0
  else
    let t := plainWrite o ((v &&& ~~~ mask) ||| (s.rd o &&& mask)) hm hv s
    ((t.setF LOFT_STAT_VFAIL 1).report unitLoft 0x0E04 noPath (8 * w)).reply r .ecc 0

/-- YM_EPOCH and YM_EPOCH_HI: a write stores the larger of the written and the present 64-bit mark (R40). -/
def epochWrite (r : Requester) (hi : Bool) (v hm hv : Word) (loftOk : Bool) (s : State) : State :=
  let e := tokenEpoch s
  let put := fun (x : Word) => if hi then x.toNat * 2 ^ 32 + e % 2 ^ 32 else e / 2 ^ 32 * 2 ^ 32 + x.toNat
  let e' := max (max e (put v)) (if hm = 0 then 0 else put hv)
  if loftOk then
    let s := (s.setF YM_EPOCH_EPOCH (e' % 2 ^ 32)).setF YM_EPOCH_HI_EPOCH_HI (e' / 2 ^ 32)
    (showLead (loftProgram 2 (BitVec.ofNat 64 e') s)).reply r .ok 0
  else ((s.setF LOFT_STAT_VFAIL 1).report unitLoft 0x0E04 noPath 16).reply r .ecc 0

/-- Power, Loft, Farrier (R530, R537, R542, R551, R552). -/
def powerRegWrite (r : Requester) (o : Nat) (v hm hv : Word) (s : State) : State :=
  if o = PWR_SHED_REQ then pwrShedReqWriteAccess r v s
  else if o = PWR_SHED_RST then pwrShedRstWriteAccess r v s
  else if o = LOFT_BUDGET_CFG then (loftSetRate (fldGet 6 0 v) s).reply r .ok 0
  else
    let s := plainWrite o v hm hv s
    let s := if o = LOFT_WEAR_SEL then wearRefresh (s.getF LOFT_WEAR_SEL_INDEX) s else if o = FARR_CFG then farrCfgWritten s else s
    s.reply r .ok 0

/-- An entry of the fault state table (R513, R517): an undefined code ignores writes, and a reaction not allowed is not stored. -/
def fstateWrite (o : Nat) (v hm hv : Word) (s : State) : State :=
  let code := (o - 0x2F010000) / 4
  let f := LEDGER_FSTATE_REACTION code
  if faultClass code = 0 then s
  else if reactionAllowed code (fldGet f.hi f.lo v) then plainWrite o v hm hv s
  else plainWrite o (fldSet f.hi f.lo (s.getF f) v) hm hv s

/-- Yardmaster, debug and ledger registers (R334, R511, R513, R520, R521). -/
def ymRegWrite (r : Requester) (o : Nat) (v hm hv : Word) (loftOk : Bool) (s : State) : State :=
  if o = YM_CTL 0 then (ymCtlWrite 0 v s).reply r .ok 0
  else if o = YM_CTL 1 then (ymCtlWrite 1 v s).reply r .ok 0
  else if o = YM_EPOCH then epochWrite r false v hm hv loftOk s
  else if o = YM_EPOCH_HI then epochWrite r true v hm hv loftOk s
  else if o = LEDGER_CFG then
    let w := match regAt s o with
      | some x => wordStore x.flds (s.rd o) v hm hv
      | none => v
    (modeChange w s.ledger.hostRing s.ledger.hostIdx s).reply r .ok 0
  else if o = LEDGER_STAT then (ledgerLines (plainWrite o v hm hv s)).reply r .ok 0
  else if o = LEDGER_RD then (rdWrite v.toNat s).reply r .ok 0
  else if o = LEDGER_INJ then ledgerInjectAccess r v s
  else if 0x2F010000 ≤ o then (fstateWrite o v hm hv s).reply r .ok 0
  else (plainWrite o v hm hv s).reply r .ok 0

/-- The host's page and mailboxes (R340, R344): a command buffer is locked while its command is in progress. -/
def hostRegWrite (o : Nat) (v hm hv : Word) (loftOk : Bool) (s : State) : State :=
  let x := o - bar0Key 0
  let m := x / 0x4000
  let s := if x < 0x40000 ∧ x % 0x4000 = 0x2004 then (if fldGet 0 0 v = 1 then mbRing m loftOk s else s)
    else if x < 0x40000 ∧ x % 0x4000 < 0x1000 then
      (if s.getF (MB_STATUS_STATE m) = 1 ∨ s.getF (MB_STATUS_STATE m) = 2 then s.setF (MB_STATUS_BUF_LOCKED m) 1
      else s.setBytes o (leBytes 4 v.toNat))
    else plainWrite o v hm hv s
  s.reply .host .ok 0

/-- A committed write of one word, checks passed. -/
def csrEffect (r : Requester) (o : Nat) (v hm hv : Word) (loftOk : Bool) (s : State) : State :=
  if bar0Key 0 ≤ o then hostRegWrite o v hm hv loftOk s
  else match o / 0x1000000 with
    | 0x20 => (portRegWrite o v hm hv s).reply r .ok 0
    | 0x21 => (portRegWrite o v hm hv s).reply r .ok 0
    | 0x22 => (chanRegWrite o v hm hv s).reply r .ok 0
    | 0x24 =>
      if inDeposit o then
        (if h : (o - 0x24010000) / 0x80 < 16 ∧ o % 0x80 = 0x70 then depositCommitAccess r ⟨(o - 0x24010000) / 0x80, h.1⟩ v s
        else s.reply r .ok 0)
      else if o = TR_CFG then
        persWrite r o 29 (1#32 <<< TR_CFG_EXPORT_EN.lo) (fun t => (t.loftWord 29).toNat / 2 * 2 + t.getF TR_CFG_EXPORT_EN) v hm hv loftOk s
      else (plainWrite o v hm hv s).reply r .ok 0
    | 0x25 => (linkRegWrite o v hm hv s).reply r .ok 0
    | 0x26 => (linkRegWrite o v hm hv s).reply r .ok 0
    | 0x27 =>
      if o = FAB_ID then
        persWrite r o 3 (fldSet FAB_ID_LOFT_ID.hi FAB_ID_LOFT_ID.lo 0x3FF (1#32 <<< FAB_ID_LOFT_ID_EN.lo))
          (fun t => t.getF FAB_ID_LOFT_ID + 1024 * t.getF FAB_ID_LOFT_ID_EN) v hm hv loftOk s
      else (fabRegWrite o v hm hv s).reply r .ok 0
    | 0x28 => drayRegWrite r o v hm hv (s.reply r .ok 0)
    | 0x29 => padRegWrite r o v hm hv s
    | 0x2A => bellRegWrite r o v hm hv s
    | 0x2B => tallyRegWrite r o v hm hv s
    | 0x2C => powerRegWrite r o v hm hv s
    | 0x2D => powerRegWrite r o v hm hv s
    | 0x2E => powerRegWrite r o v hm hv s
    | 0x2F => ymRegWrite r o v hm hv loftOk s
    | _ => (plainWrite o v hm hv s).reply r .ok 0

/-! ### Reads -/

/-- Bits of a row that read as 0: write-only fields (R12). -/
def woMask (l : List RegFld) : Word :=
  l.foldl (fun w f => if f.kind = .wo then fldSet f.hi f.lo (2 ^ (f.hi + 1 - f.lo) - 1) w else w) 0

/-- Microseconds left of the lease on a path. -/
def leaseRemain (s : State) (n : Nat) : Nat :=
  if s.isSet (FAB_LEASE_HELD n) then min 2000 ((tblGet 0 n s.fab.leaseEnd - s.now) / 750) else 0

/-- The word that a read shows: what it holds, but for write-only fields and the mirrors of what stands elsewhere. -/
def csrView (s : State) (o : Nat) : Word :=
  let w := match regAt s o with
    | some r => s.rd o &&& ~~~ woMask r.flds
    | none => 0
  if 0x2A001000 ≤ o ∧ o < 0x2A002000 then
    let n := (o - 0x2A001000) / 4
    if n = 0 ∨ n = 1023 then 0 else fldSet 31 31 (bellPend s n).toNat (fldSet 30 30 (bellActive s n).toNat w)
  else if o = TW_STAT then
    let w := fldSet TW_STAT_FR_BEATS.hi TW_STAT_FR_BEATS.lo (freeRunBeats s) w
    fldSet TW_STAT_LINK_OK.hi TW_STAT_LINK_OK.lo (!(twinPorts s).isEmpty).toNat w
  else if 0x2A100000 ≤ o ∧ o < 0x2A131000 ∧ o % 0x1000 = 0xC then fldSet 9 0 (bellBest s ((o - 0x2A100000) / 0x1000)) w
  else if 0x22200000 ≤ o ∧ o < 0x22300000 ∧ o % 0x8000 = 4 then fldSet 24 16 (s.spb ((o - 0x22200000) / 0x8000)) w
  else if o = FAB_SERIAL_LO then Config.serial.truncate 32
  else if o = FAB_SERIAL_HI then (Config.serial >>> 32).truncate 32
  else if 0x2700C000 ≤ o ∧ o < 0x27010000 ∧ o % 32 = 0 then fldSet 11 0 (leaseRemain s ((o - 0x2700C000) / 32)) w
  else if 0x2F010000 ≤ o ∧ o < 0x2F014400 then
    let code := (o - 0x2F010000) / 4
    if faultClass code = 0 then 0
    else
      let f := LEDGER_FSTATE_CAUSE code
      fldSet f.hi f.lo (s.isSet (LEDGER_FSTATE_RAISED code) && causeHolds s code).toNat w
  else if bar0Key 0 ≤ o ∧ o < bar0Key 0x40000 ∧ (o - bar0Key 0) % 0x4000 < 0x2000 then BitVec.ofNat 32 (s.ldLE o 4)
  else w

/-! ### Pairs (R43 to R45) -/

/-- Register map rows that hold LO words; those of counters and arrays hold LO words at even indices. -/
def pairBases : List Nat :=
  [POS_NOW_LO, PORT_FEC_CORR_LO 0, PORT_REFUSE 0 0, CH_SCI 0 0, FRM_POL_LO 0, KB_SW_BEAT_LO 0 0, KB_KCV_LO 0 0, CH_OUT_ASN_LO 0,
    CH_OUT_ASN_RESV_LO 0, CH_IN_ASN_LO 0, CH_IN_POS_LO 0, CH_MODE_W0_LO 0, CH_MODE_W1_LO 0, CH_MODE_W2_LO 0, CH_OUT_STAT 0 0,
    CH_IN_STAT 0 0, CH_REFUSE 0 0, TWC_REL_ASN_LO 0, TWC_F_COUNT_LO 0, TWC_CNT 0 0, BR_SID_TX_LO 0, BR_SID_RX_LO 0, BR_CNT 0 0,
    CELL_SW_BEAT_LO 0, FAB_GEN_LO, FAB_SERIAL_LO, DRAY_TRACE_LO 0, BARN_ERR_LO, PADK_VIEW_LO 0, TCNT_LO 0, TCAPR_LO 0, TCAPF_LO 0,
    CMP_LO 0 0, PWR_SHED_STAT_LO, LOFT_WEAR_LO, LOFT_WEAR_MAX_LO, FARR_RAIL_OUT_LO, MB_TAG_LO 0, MB_WM_LO 0]

/-- The LO word of a LO/HI pair (R43). The pair of PWR_SHED_STAT does not lie at a multiple of 8. -/
def isPairLo (o : Nat) : Bool :=
  (decide (o % 8 = 0) || decide (o = PWR_SHED_STAT_LO)) && (match regRow o with
    | some r => pairBases.contains r.base
    | none => false)

/-- The HI word of a pair. -/
def isPairHi (o : Nat) : Bool := decide (4 ≤ o) && isPairLo (o - 4)

/-- Requesters with a latch and a staging buffer (R44). -/
def hasLatch : Requester → Bool
  | .peer _ => false
  | _ => true

/-- A 32-bit read (R35, R37, R43, R46): TGT_TAKE, TRACE_LO and RDATA have side effects of their own. -/
def csrLoad32 (r : Requester) (o : Nat) (s : State) : State :=
  if !csrListed o && !(bar0Key 0 ≤ o && o < bar0Key 0x40000 && o % 4 = 0 && (o - bar0Key 0) % 0x4000 < 0x2000) then s.decodeFault r o
  else if 0x2A100000 ≤ o ∧ o < 0x2A200000 ∧ o % 0x1000 = 4 then tgtTakeAccess r ((o - 0x2A100000) / 0x1000) s
  else if h : 0x28001000 ≤ o ∧ o < 0x28001800 ∧ (o - 0x28001000) / 64 < 32 ∧ (o % 64 = 0x20 ∨ o % 64 = 0x28) then
    (if o % 64 = 0x28 then traceReadAccess r ⟨(o - 0x28001000) / 64, h.2.2.1⟩ s
    else rdataAccess r ⟨(o - 0x28001000) / 64, h.2.2.1⟩ none s)
  else if isPairLo o then
    let t : State := if hasLatch r then
        { s with hiLatch := tblSet none (requesterCode r) (some (o, csrView s (o + 4))) s.hiLatch } else s
    t.reply r .ok ((csrView s o).zeroExtend 64)
  else
    let live := csrView s o
    let v := match (if hasLatch r then tblGet none (requesterCode r) s.hiLatch else none) with
      | some (p, x) => if isPairHi o && p + 4 = o then x else live
      | none => live
    s.reply r .ok (v.zeroExtend 64)

/-- A 64-bit read at the LO word of a pair (R43): neither latch nor stage is used. -/
def csrLoad64 (r : Requester) (o : Nat) (s : State) : State :=
  if o % 8 ≠ 0 || !csrListed o || !isPairLo o then s.decodeFault r o
  else
    let v := csrView s (o + 4) ++ csrView s o
    let t := if 0x28001000 ≤ o ∧ o < 0x28001800 then { csrLoad32 r o s with hiLatch := s.hiLatch } else s
    t.reply r .ok v

/-- A pair is committed (R43, R45): a counter meets the increment `hv` as one 64-bit field. -/
def csrCommit64 (r : Requester) (o : Nat) (v hm hv : DWord) (loftOk : Bool) (s : State) : State :=
  let i := (o - 0x2B001000) / 0x80
  let q := o % 0x80
  if h : 0x2B001000 ≤ o ∧ i < 128 ∧ q = 8 then tallyCountWriteAccess r ⟨i, h.2.1⟩ v (hv.truncate 32) s
  else if h : 0x2B001000 ≤ o ∧ i < 128 ∧ 0x30 ≤ q then
    compareCommitAccess r ⟨i, h.2.1⟩ ⟨(q - 0x30) / 16 % 4, Nat.mod_lt _ (by decide)⟩ v s
  else match (regAt s o).map (·.flds) with
    | some [f] =>
      if f.kind = .cnt then (s.wr64 o (v + hv)).reply r .ok 0
      else csrEffect r (o + 4) ((v >>> 32).truncate 32) ((hm >>> 32).truncate 32) ((hv >>> 32).truncate 32) loftOk
        (csrEffect r o (v.truncate 32) (hm.truncate 32) (hv.truncate 32) loftOk s)
    | _ => csrEffect r (o + 4) ((v >>> 32).truncate 32) ((hm >>> 32).truncate 32) ((hv >>> 32).truncate 32) loftOk
        (csrEffect r o (v.truncate 32) (hm.truncate 32) (hv.truncate 32) loftOk s)

/-- A 32-bit write (R35, R37, R40, R43): LO is staged, HI commits the pair, every other word is written at once. -/
def csrStore32 (r : Requester) (o : Nat) (v hm hv : Word) (loftOk : Bool) (s : State) : State :=
  if bar0Key 0 ≤ o ∧ o < bar0Key 0x40000 ∧ o % 4 = 0 ∧ (o - bar0Key 0) % 0x4000 < 0x2000 then hostRegWrite o v hm hv loftOk s
  else match csrRefuse r o s with
    | some t => t
    | none =>
      if isPairLo o then
        let t : State := if hasLatch r then { s with loStage := tblSet none (requesterCode r) (some (o, v)) s.loStage } else s
        t.reply r .ok 0
      else if isPairHi o then
        match (if hasLatch r then tblGet none (requesterCode r) s.loStage else none) with
        | some (p, lo) =>
          if p + 4 = o then
            csrCommit64 r p (v ++ lo) (hm ++ 0#32) (0#32 ++ hv) loftOk
              { s with loStage := tblSet none (requesterCode r) none s.loStage }
          else csrEffect r o v hm hv loftOk s
        | none => csrEffect r o v hm hv loftOk s
      else csrEffect r o v hm hv loftOk s

/-- A 64-bit write of a pair (R43). -/
def csrStore64 (r : Requester) (o : Nat) (v hm hv : DWord) (loftOk : Bool) (s : State) : State :=
  if o % 8 ≠ 0 || !isPairLo o then s.decodeFault r o
  else match csrRefuse r o s with
    | some t => t
    | none => csrCommit64 r o v hm hv loftOk s

end Sys2Proof.Machine
end

