-- ==== Sys2Proof/Machine/Windows.lean ====
section
/-!
DEFINITION. Accesses to the device window (R34): registers, Paddock, local memories, the Loft and Barn, as the Yardmasters, debug,
the host (R340 to R342), fabric peers (R310, R312) and the cores' far accesses (R412 to R414) make them.
-/

namespace Sys2Proof.Machine

/-! ### One access -/

/-- How the last access was answered. -/
def answered (s : State) : BusStatus × DWord :=
  match s.answer with
  | some a => (a.status, a.data)
  | none => (.ok, 0)

/-- May an access reach `n` bytes of core k's local memory at `o`? (R370, R404, R539) -/
def lmStatus (s : State) (r : Requester) (k o n : Nat) : BusStatus :=
  if s.shedState (k / 2) = 0 then .shedOff
  else if s.shedState (k / 2) ≠ 2 then .shedDraining
  else if !s.isSet (DRAY_STAT_LM_READY k) then .notReady
  else if coreOf r ≠ some k && confinedHit (s.core k) o n then .denied
  else .ok

/-- Core and offset of a window offset in the local memories. -/
def lmCore (o : Nat) : Nat := (o - 0x10000000) / 0x80000
def lmOff (o : Nat) : Nat := (o - 0x10000000) % 0x80000

/-- A read of the Loft (R548, R550): key material reads as zeros; an uncorrectable word completes with ECC. -/
def loftRead (o n : Nat) (s : State) : BusStatus × List Byte × State :=
  match (wordsOf o n).find? (fun w => s.loftBad.contains (w / 8)) with
  | some w => (.ecc, [], (s.setF LOFT_STAT_UNCORR 1).report unitLoft 0x0E03 noPath w)
  | none => (.ok, bytesOf n (fun i => if loftHidden (o + i) then 0 else s.byte (loftBase + o + i)), s)

/-- The watermark that the host sees follows the Loft's word (R347, R547). -/
def wmShow (w : Nat) (s : State) : State := if 13 ≤ w ∧ w < 29 then s.wr64 (MB_WM_LO (w - 13)) (s.loftWord w) else s

/-- One word of a write to the Loft through the window: bytes not given keep their values (R548). -/
def loftPatch (o : Nat) (l : List Byte) (s : State) (w : Nat) : State :=
  let v := bytesOf 8 (fun i => if o ≤ w + i ∧ w + i < o + l.length then l.getD (w + i - o) 0 else s.byte (loftBase + w + i))
  wmShow (w / 8) (loftProgram (w / 8) (BitVec.ofNat 64 (leVal v)) s)

/-- A write of the Loft through the window (R548, R550). -/
def loftWindowWrite (r : Requester) (o : Nat) (l : List Byte) (loftOk : Bool) (s : State) : BusStatus × State :=
  if !isLeader s r || !((wordsOf o l.length).all loftLeadWord) then (.denied, s)
  else if loftOk then (.ok, (wordsOf o l.length).foldl (fun s w => loftPatch o l s w) s)
  else (.ecc, (s.setF LOFT_STAT_VFAIL 1).report unitLoft 0x0E04 noPath o)

/-- A read of `n` bytes at a window offset: its status, the bytes, and the state after it. -/
def winRead (r : Requester) (o n : Nat) (s : State) : BusStatus × List Byte × State :=
  if o < 0xC000000 ∧ o % 0x4000000 + n ≤ 0x4000000 then padRead r o n s
  else if 0x10000000 ≤ o ∧ o < 0x11000000 ∧ lmOff o + n ≤ 0x80000 then
    match lmStatus s r (lmCore o) (lmOff o) n with
    | .ok => (.ok, s.bytes o n, s)
    | .denied => if r = .debug then (.ok, zeros n, s) else (.denied, [], s)
    | st => (st, [], s)
  else if 0x20000000 ≤ o ∧ o < 0x30000000 ∧ n = 4 then
    let t := csrLoad32 r o s
    ((answered t).1, leBytes 4 (answered t).2.toNat, t)
  else if 0x20000000 ≤ o ∧ o < 0x30000000 ∧ n = 8 then
    let t := csrLoad64 r o s
    ((answered t).1, leBytes 8 (answered t).2.toNat, t)
  else if 0x30000000 ≤ o ∧ o + n ≤ 0x30040000 then loftRead (o - 0x30000000) n s
  else if barnBase ≤ o ∧ o + n ≤ barnBase + barnSize then barnRead r o n s
  else (.decode, [], s.decodeFault r o)

/-- A write of bytes at a window offset: its status, and the state after it. -/
def winWrite (r : Requester) (o : Nat) (l : List Byte) (loftOk : Bool) (s : State) : BusStatus × State :=
  let n := l.length
  if o < 0xC000000 ∧ o % 0x4000000 + n ≤ 0x4000000 then padWrite r o l s
  else if 0x10000000 ≤ o ∧ o < 0x11000000 ∧ lmOff o + n ≤ 0x80000 then
    match lmStatus s r (lmCore o) (lmOff o) n with
    | .ok => (.ok, markDirty (lmCore o) (lmOff o) n (s.setBytes o l))
    | st => (st, s)
  else if 0x20000000 ≤ o ∧ o < 0x30000000 ∧ n = 4 then
    let t := csrStore32 r o (BitVec.ofNat 32 (leVal l)) 0 0 loftOk s
    ((answered t).1, t)
  else if 0x20000000 ≤ o ∧ o < 0x30000000 ∧ n = 8 then
    let t := csrStore64 r o (BitVec.ofNat 64 (leVal l)) 0 0 loftOk s
    ((answered t).1, t)
  else if 0x30000000 ≤ o ∧ o + n ≤ 0x30040000 then loftWindowWrite r (o - 0x30000000) l loftOk s
  else if barnBase ≤ o ∧ o + n ≤ barnBase + barnSize then barnWrite r o l s
  else (.decode, s.decodeFault r o)

/-! ### Register accesses (R39 to R47) -/

/-- The offset that a requester's offset means: the host names BAR0 offsets, and windows A and B show the region of a subsystem
code (R340, R341); a closed window is unassigned. -/
def reqOff (r : Requester) (o : Nat) (s : State) : Nat :=
  if r ≠ .host then o
  else
    let win := fun (c x : Nat) => if 1 ≤ c ∧ c ≤ 16 then 0x1F000000 + c * 0x1000000 + x else bar0Key o
    if 0x1000000 ≤ o ∧ o < 0x2000000 then win (s.getF HOST_WIN_WIN_A) (o - 0x1000000)
    else if 0x2000000 ≤ o ∧ o < 0x3000000 then win (s.getF HOST_WIN_WIN_B) (o - 0x2000000)
    else bar0Key o

/-- Can the requester make an access at all? The host only while the PCIe link is up (R544, R545). -/
def reqReady (r : Requester) (s : State) : Bool := r ≠ .host || s.power.pcie

/-- A register, in CSR space or in BAR0. -/
def isReg (o : Nat) : Bool := (0x20000000 ≤ o && o < 0x30000000) || bar0Key 0 ≤ o

/-- A 32-bit read by a requester. -/
def load32 (r : Requester) (o : Nat) (s : State) : State :=
  if isReg o then csrLoad32 r o s
  else
    let x := winRead r o 4 s
    x.2.2.reply r x.1 (BitVec.ofNat 64 (leVal x.2.1))

/-- A 32-bit write by a requester. -/
def store32 (r : Requester) (o : Nat) (v hm hv : Word) (loftOk : Bool) (s : State) : State :=
  if isReg o then csrStore32 r o v hm hv loftOk s
  else
    let x := winWrite r o (leBytes 4 v.toNat) loftOk s
    x.2.reply r x.1 0

/-- CSR_WRITE (R40): a 32-bit write of `v` at `o`; in its cycle hardware updates the bits `hm` of the word to `hv`, or counts `hv`;
`loftOk`: a Loft write that it needs persists. -/
def execCsrWrite (r : Requester) (o : Nat) (v hm hv : Word) (loftOk : Bool) (s : State) : Host.Outcome State Fault Refusal :=
  .next (if reqReady r s then store32 r (reqOff r o s) v hm hv loftOk s else s)

/-- PAIR_LO_READ (R43): a 32-bit read; of a LO word it latches HI for the requester. -/
def execPairLoRead (r : Requester) (o : Nat) (s : State) : Host.Outcome State Fault Refusal :=
  .next (if reqReady r s then load32 r (reqOff r o s) s else s)

/-- PAIR_LO_WRITE (R43): a 32-bit write of a LO word is staged. -/
def execPairLoWrite (r : Requester) (o : Nat) (v : Word) (s : State) : Host.Outcome State Fault Refusal :=
  let a := reqOff r o s
  .next (if reqReady r s && isReg a && isPairLo a then csrStore32 r a v 0 0 true s else s)

/-- PAIR_HI_WRITE (R43, R45): a 32-bit write of a HI word commits the pair. -/
def execPairHiWrite (r : Requester) (o : Nat) (v hm hv : Word) (s : State) : Host.Outcome State Fault Refusal :=
  let a := reqOff r o s
  .next (if reqReady r s && isReg a && isPairHi a then csrStore32 r a v hm hv true s else s)

/-- PAIR_ACCESS_64 (R37, R43): a 64-bit read, or a write of a value. -/
def execPairAccess64 (r : Requester) (o : Nat) (write : Option DWord) (hm hv : DWord) (s : State) : Host.Outcome State Fault Refusal :=
  let a := reqOff r o s
  if !reqReady r s then .next s
  else match write with
    | none =>
      if isReg a then .next (csrLoad64 r a s)
      else
        let x := winRead r a 8 s
        .next (x.2.2.reply r x.1 (BitVec.ofNat 64 (leVal x.2.1)))
    | some v =>
      if isReg a then .next (csrStore64 r a v hm hv true s)
      else
        let x := winWrite r a (leBytes 8 v.toNat) true s
        .next (x.2.reply r x.1 0)

/-- DEBUG_PEEK (R46, R47): a 32-bit read by debug. -/
def execDebugPeek (o : Nat) (s : State) : Host.Outcome State Fault Refusal := .next (load32 .debug o s)

/-! ### BAR2 (R341, R342) -/

/-- A BAR2 access that ends without success (R342): 0 Completer Abort, 1 Unsupported Request, 2 poisoned, 3 dropped. -/
def apErr (st o : Nat) (s : State) : State :=
  ((s.setF HOST_AP_ERR_AP_ERR 1).setF HOST_AP_ERR_STATUS st).setF HOST_AP_ERR_OFFSET o

/-- HOST_BAR2_ACCESS (R341, R342, R461): a read of `n` bytes, or a write; `busy`: attempts that meet BUSY, of at most 65. -/
def execHostBar2Access (o : Nat) (n : Fin 9) (write : Option (List Byte)) (busy : Fin 66) (s : State) : Host.Outcome State Fault Refusal :=
  if !s.power.pcie then .next s
  else if !s.isSet HOST_WIN_AP_EN ∨ 0x4000000 ≤ o then .next (s.decodeFault .host o)
  else
    let s := s.cntSat PADK_BUSY_N busy.val
    match write with
    | none =>
      if busy.val = 65 then .next ((apErr 0 o s).reply .host .busy 0)
      else
        let x := padRead .host o n.val s
        match x.1 with
        | .ok => .next (x.2.2.reply .host .ok (BitVec.ofNat 64 (leVal x.2.1)))
        | .ecc => .next ((apErr 2 o x.2.2).reply .host .ecc (BitVec.ofNat 64 (leVal x.2.1)))
        | st => .next ((apErr 1 o x.2.2).reply .host st 0)
    | some l =>
      if busy.val = 65 then .next ((apErr 3 o s).reply .host .busy 0)
      else
        let x := padWrite .host o l s
        .next ((if x.1 = .ok then x.2 else apErr 3 o x.2).reply .host x.1 0)

/-! ### Fabric peers (R310, R312) -/

/-- The right of R312 that an access needs: 0 R, 1 W, 2 CSR. -/
def peerRight (o : Nat) (write : Bool) : Nat := if 0x20000000 ≤ o ∧ o < 0x30000000 then 2 else write.toNat

/-- A request that a window can serve: 1 to 4,096 bytes, within one 4 KiB block of this device (R309). -/
def peerRangeOk (s : State) (a n : Nat) : Bool :=
  decide (1 ≤ n) && decide (n ≤ 4096) && decide (a % 4096 + n ≤ 4096) && decide (a / 2 ^ 38 = s.devId)

/-- FAB_READ_RX (R310, R312): `busy`: a line of it meets a same-word conflict in Paddock (R461). -/
def execFabReadRx (busy : Bool) (s : State) : Host.Outcome State Fault Refusal :=
  .next (fabTake 1 anyMsg s (fun m s =>
    let r := Requester.peer m.src
    let o := m.addr % 2 ^ 38
    let n := be m.body 0 4
    let x : BusStatus × List Byte × State :=
      if !fabRight s m.src (peerRight o false) then (.denied, [], s)
      else if !peerRangeOk s m.addr n then (.decode, [], s.decodeFault r o)
      else if busy && decide (o < 0xC000000) then (.busy, [], s.cntSat PADK_BUSY_N 1)
      else winRead r o n s
    fabSend m.src 2 (statusCode x.1) m.tag m.addr (if x.1 = .ok then x.2.1 else []) x.2.2))

/-- FAB_WRITE_RX (R310, R312, R548): every write of the Loft by a peer is refused. -/
def execFabWriteRx (busy loftOk : Bool) (s : State) : Host.Outcome State Fault Refusal :=
  .next (fabTake 3 anyMsg s (fun m s =>
    let r := Requester.peer m.src
    let o := m.addr % 2 ^ 38
    let x : BusStatus × State :=
      if !fabRight s m.src (peerRight o true) || (0x30000000 ≤ o && o < 0x30040000) then (.denied, s)
      else if !peerRangeOk s m.addr m.body.length then (.decode, s.decodeFault r o)
      else if busy && decide (o < 0xC000000) then (.busy, s.cntSat PADK_BUSY_N 1)
      else winWrite r o m.body loftOk s
    fabSend m.src 4 (statusCode x.1) m.tag m.addr [] x.2))

/-! ### Far accesses (R412 to R414) -/

/-- A far access completes (R412): FARLD's data is in local memory, or undefined after any status but OK; a core that waits for
the tag tries again, having frozen `cycles` wall cycles. -/
def farFinish (k tag st : Nat) (data : List Byte) (cycles : Nat) (s : State) : State :=
  let t := tblGet FarTag.reset tag (s.core k).tags
  if !t.busy then s
  else
    let s : State :=
      if t.store then s
      else if st = 0 then s.setBytes (lmBase k + t.loc) data
      else
        let u := s.setBytes (lmBase k + t.loc) (bytesOf t.size (fun i => BitVec.ofNat 8 (Config.freeValue (s.draws + i))))
        { u with draws := u.draws + t.size }
    let s := s.modCore k (fun c => { c with tags := tblSet FarTag.reset tag { t with busy := false, status := st } c.tags })
    if (s.core k).frozen then
      issue k ((s.modCore k (fun c => { c with wcycle := c.wcycle + cycles })).cntSat (DRAY_FREEZE_FREEZES k) cycles)
    else s

/-- Banks that a far access reaches. -/
def farBanks (t : FarTag) : List Nat := if t.addr % 2 ^ 38 < 0xC000000 then padBanks (t.addr % 0x4000000) t.size else []

/-- An access issued as the owner before a handover is performed as the owner's (R457). -/
def asOwner (t : FarTag) (s : State) (f : State → Nat × List Byte × State) : Nat × List Byte × State :=
  if !t.owned then f s
  else
    let bs := (farBanks t).filter (fun b => s.isSet (PADK_OWNER_PENDING b))
    let x := f (bs.foldl (fun (s : State) (b : Nat) => s.setF (PADK_OWNER_PENDING b) 0) s)
    (x.1, x.2.1, bs.foldl (fun (s : State) (b : Nat) => s.setF (PADK_OWNER_PENDING b) 1) x.2.2)

/-- The source of a FARST as it is read at completion: free where the core has stored to it meanwhile (R414). -/
def farSource (k : Nat) (t : FarTag) (s : State) : List Byte × State :=
  let c := s.core k
  if t.dirty then
    (bytesOf t.size (fun i => BitVec.ofNat 8 (Config.freeValue (s.draws + i))), { s with draws := s.draws + t.size })
  else (lmLoad s k { c with cyc := c.cyc + 64 } t.loc t.size, lmDrawn c s)

/-- Key data for a deposit buffer (R217): eight bytes, through D = 1, from a confined range of a stable-kernel core. -/
def depositStore (k : Fin 32) (t : FarTag) (s : State) : Bool :=
  let o := t.addr % 2 ^ 38
  inDeposit o && t.store && t.dev && decide (t.size = 8) && decide (o % 0x80 + 8 ≤ 0x70) && stableCore s (.dray k)
    && (s.core k.val).confined.any (fun e => decide (e.1 ≤ t.loc) && decide (t.loc + t.size ≤ e.1 + e.2))

/-- A far access performed at a target in this device: status, data read, state. CSR space is reached through D = 1 only. `clash`: 1
a same-word conflict ends it with BUSY, 2 a read meets a write of the other port and its data is undefined (R461). -/
def farPerform (k : Fin 32) (t : FarTag) (clash : Nat) (loftOk : Bool) (s : State) : Nat × List Byte × State :=
  let r := Requester.dray k
  let o := t.addr % 2 ^ 38
  if 0x20000000 ≤ o ∧ o < 0x30000000 ∧ !t.dev then (1, [], s.decodeFault r o)
  else if clash = 1 ∧ o < 0xC000000 then (7, [], s.cntSat PADK_BUSY_N 1)
  else asOwner t s (fun s =>
    if t.store then
      let d := farSource k.val t s
      if depositStore k t s then (0, [], depositWrite ((o - 0x24010000) / 0x80) k.val (o % 0x80) d.1 d.2)
      else
        let x := winWrite r o d.1 loftOk d.2
        (statusCode x.1, [], x.2)
    else
      let x := winRead r o t.size s
      if clash = 2 ∧ o < 0xC000000 ∧ x.1 = .ok then
        (0, bytesOf t.size (fun i => BitVec.ofNat 8 (Config.freeValue (x.2.2.draws + i))), { x.2.2 with draws := x.2.2.draws + t.size })
      else (statusCode x.1, x.2.1, x.2.2))

/-- An access through a U or D segment waits for those issued before it (R414). -/
def farWaits (c : Core) (t : FarTag) : Bool :=
  t.ordered && c.tags.any (fun e => e.2.busy && e.2.ordered && decide (e.2.seq < t.seq))

/-- FAR_COMPLETE (R412, R414): a far access with its target in this device is performed and completes under its tag. -/
def execFarComplete (core : Fin 32) (tag : Fin 8) (cycles : Nat) (clash : Fin 3) (loftOk : Bool) (s : State) :
    Host.Outcome State Fault Refusal :=
  let c := s.core core.val
  let t := tblGet FarTag.reset tag.val c.tags
  if t.busy && decide (t.addr / 2 ^ 38 = s.devId) && !farWaits c t then
    let x := farPerform core t clash.val loftOk s
    .next (farFinish core.val tag.val x.1 x.2.1 cycles x.2.2)
  else .next s

/-- A request of this device ends with a status (R310). -/
def reqDone (q : FabReq) (st : Nat) (data : List Byte) (cycles : Nat) (s : State) : State :=
  farFinish (q.req / 8) (q.req % 8) st data cycles
    { s with fab := { s.fab with reqs := s.fab.reqs.filter (fun x => x.tag ≠ q.tag) } }

/-- FAB_RESPONSE_RX (R310): a READ_RESP or WRITE_RESP ends the request of its TAG; without one it is dropped. -/
def execFabResponseRx (cycles : Nat) (s : State) : Host.Outcome State Fault Refusal :=
  match s.fab.inq with
  | [] => .next s
  | m :: rest =>
    if m.typ = 2 ∨ m.typ = 4 then
      let s : State := { s with fab := { s.fab with inq := rest } }
      match s.fab.reqs.find? (fun q => decide (q.tag = m.tag) && decide (q.dst = m.src)) with
      | some q => .next (reqDone q m.status m.body cycles s)
      | none => .next s
    else .next s

/-- Ticks after which a request ends with TIMEOUT: 100 µs (R310). -/
def reqTicks : Nat := 75000

/-- FAB_RESPONSE_TIMEOUT (R310): the oldest request without a response for 100 µs ends with TIMEOUT. -/
def execFabResponseTimeout (cycles : Nat) (s : State) : Host.Outcome State Fault Refusal :=
  match (s.fab.reqs.filter (fun q => q.sent + reqTicks ≤ s.now)).getLast? with
  | some q => .next (reqDone q 9 [] cycles s)
  | none => .next s

end Sys2Proof.Machine
end

