-- ==== Sys2Proof/Machine/Dispatch.lean ====
section
/-!
DEFINITION. The dispatch: one arm per command of the table.
-/

namespace Sys2Proof.Machine

/-- The effect of a command on everything but the queue. -/
def exec (i : Instr) (s : State) : Host.Outcome State Fault Refusal :=
  match i with
  | .csrWrite r o v hm hv loftOk => Sys2Proof.Machine.execCsrWrite r o v hm hv loftOk s
  | .pairLoRead r o => Sys2Proof.Machine.execPairLoRead r o s
  | .pairLoWrite r o v => Sys2Proof.Machine.execPairLoWrite r o v s
  | .pairHiWrite r o v hm hv => Sys2Proof.Machine.execPairHiWrite r o v hm hv s
  | .pairAccess64 r o write hm hv => Sys2Proof.Machine.execPairAccess64 r o write hm hv s
  | .debugPeek o => Sys2Proof.Machine.execDebugPeek o s
  | .sourceBeatBoundary background b => Sys2Proof.Machine.execSourceBeatBoundary background b s
  | .beatWindowClose => Sys2Proof.Machine.execBeatWindowClose s
  | .ownBeatBoundary => Sys2Proof.Machine.execOwnBeatBoundary s
  | .sourceChangeover b => Sys2Proof.Machine.execSourceChangeover b s
  | .holdoverExpiry => Sys2Proof.Machine.execHoldoverExpiry s
  | .freqEstimateValid => Sys2Proof.Machine.execFreqEstimateValid s
  | .posConfig m loftOk => Sys2Proof.Machine.execPosConfig m loftOk s
  | .posSetBeat m => Sys2Proof.Machine.execPosSetBeat m s
  | .posFreqOffset m => Sys2Proof.Machine.execPosFreqOffset m s
  | .posPhaseStep m => Sys2Proof.Machine.execPosPhaseStep m s
  | .posGet m => Sys2Proof.Machine.execPosGet m s
  | .portGroupConfig m loftOk => Sys2Proof.Machine.execPortGroupConfig m loftOk s
  | .portConfig m loftOk => Sys2Proof.Machine.execPortConfig m loftOk s
  | .portLos k cut => Sys2Proof.Machine.execPortLos k cut s
  | .portLockLost k cut => Sys2Proof.Machine.execPortLockLost k cut s
  | .portEnterAcquire k => Sys2Proof.Machine.execPortEnterAcquire k s
  | .anComplete k => Sys2Proof.Machine.execAnComplete k s
  | .portLockGained k => Sys2Proof.Machine.execPortLockGained k s
  | .portUpHoldExpiry k => Sys2Proof.Machine.execPortUpHoldExpiry k s
  | .portLockRetryExpiry k => Sys2Proof.Machine.execPortLockRetryExpiry k s
  | .portHiber k on => Sys2Proof.Machine.execPortHiber k on s
  | .portSd k on => Sys2Proof.Machine.execPortSd k on s
  | .portAisRx k on => Sys2Proof.Machine.execPortAisRx k on s
  | .portRemote k on => Sys2Proof.Machine.execPortRemote k on s
  | .portRefclk ref present => Sys2Proof.Machine.execPortRefclk ref present s
  | .partnerReturn k => Sys2Proof.Machine.execPartnerReturn k s
  | .plainFrameRx k bytes => Sys2Proof.Machine.execPlainFrameRx k bytes s
  | .gateRun g => Sys2Proof.Machine.execGateRun g s
  | .cbHistoryReset n => Sys2Proof.Machine.execCbHistoryReset n s
  | .chOpen m loftOk => Sys2Proof.Machine.execChOpen m loftOk s
  | .chClose m loftOk => Sys2Proof.Machine.execChClose m loftOk s
  | .chModify m loftOk => Sys2Proof.Machine.execChModify m loftOk s
  | .chGet m => Sys2Proof.Machine.execChGet m s
  | .gateLoad m loftOk => Sys2Proof.Machine.execGateLoad m loftOk s
  | .gateTable m loftOk => Sys2Proof.Machine.execGateTable m loftOk s
  | .gateSwitch m loftOk => Sys2Proof.Machine.execGateSwitch m loftOk s
  | .puntQueue m loftOk => Sys2Proof.Machine.execPuntQueue m loftOk s
  | .frameSend m => Sys2Proof.Machine.execFrameSend m s
  | .cellCalendar m loftOk => Sys2Proof.Machine.execCellCalendar m loftOk s
  | .chCustomer m loftOk => Sys2Proof.Machine.execChCustomer m loftOk s
  | .changeBeatApply => Sys2Proof.Machine.execChangeBeatApply s
  | .closingDrained n => Sys2Proof.Machine.execClosingDrained n s
  | .closingTimeout n => Sys2Proof.Machine.execClosingTimeout n s
  | .railBlockCompute ix fault => Sys2Proof.Machine.execRailBlockCompute ix fault s
  | .cipherTxStart c => Sys2Proof.Machine.execCipherTxStart c s
  | .unitEgressDone c => Sys2Proof.Machine.execUnitEgressDone c s
  | .inboundUnitRx => Sys2Proof.Machine.execInboundUnitRx s
  | .prevKeyRelease n inbound => Sys2Proof.Machine.execPrevKeyRelease n inbound s
  | .slotAssemblyClose c fault cut => Sys2Proof.Machine.execSlotAssemblyClose c fault cut s
  | .calendarSwitch c => Sys2Proof.Machine.execCalendarSwitch c s
  | .cellWrapHold n => Sys2Proof.Machine.execCellWrapHold n s
  | .cellHeaderRx c cell => Sys2Proof.Machine.execCellHeaderRx c cell s
  | .l1PlainFrameRx n mfas opu payload fault => Sys2Proof.Machine.execL1PlainFrameRx n mfas opu payload fault s
  | .l1CipherFrameRx n path2 mfas oh opu payload => Sys2Proof.Machine.execL1CipherFrameRx n path2 mfas oh opu payload s
  | .l1InputLost n => Sys2Proof.Machine.execL1InputLost n s
  | .l1InputReturn n => Sys2Proof.Machine.execL1InputReturn n s
  | .l1EfnWrapHold n => Sys2Proof.Machine.execL1EfnWrapHold n s
  | .depositCommit r j v => Sys2Proof.Machine.execDepositCommit r j v s
  | .keySlotLoad j ecc => Sys2Proof.Machine.execKeySlotLoad j ecc s
  | .zeroNAssert => Sys2Proof.Machine.execZeroNAssert s
  | .zeroiseVaultDone => Sys2Proof.Machine.execZeroiseVaultDone s
  | .loftKeyEraseDone => Sys2Proof.Machine.execLoftKeyEraseDone s
  | .zeroNRelease => Sys2Proof.Machine.execZeroNRelease s
  | .bridleSessionSetup n => Sys2Proof.Machine.execBridleSessionSetup n s
  | .helloResend n => Sys2Proof.Machine.execHelloResend n s
  | .bridleSidRollover n => Sys2Proof.Machine.execBridleSidRollover n s
  | .bridleHelloRx => Sys2Proof.Machine.execBridleHelloRx s
  | .bridlePositionRx => Sys2Proof.Machine.execBridlePositionRx s
  | .bridleProbeRx turn => Sys2Proof.Machine.execBridleProbeRx turn s
  | .bridleEchoRx r => Sys2Proof.Machine.execBridleEchoRx r s
  | .bridleKemOfferRx => Sys2Proof.Machine.execBridleKemOfferRx s
  | .bridleKemAcceptRx => Sys2Proof.Machine.execBridleKemAcceptRx s
  | .bridleKeyConfirmRx => Sys2Proof.Machine.execBridleKeyConfirmRx s
  | .bridleSwitchAtRx turn => Sys2Proof.Machine.execBridleSwitchAtRx turn s
  | .bridleSwitchAckRx r => Sys2Proof.Machine.execBridleSwitchAckRx r s
  | .bridleSwitchCancelRx => Sys2Proof.Machine.execBridleSwitchCancelRx s
  | .bridleHeartbeatRx => Sys2Proof.Machine.execBridleHeartbeatRx s
  | .bridleDigestRx => Sys2Proof.Machine.execBridleDigestRx s
  | .bridleAlarmRx => Sys2Proof.Machine.execBridleAlarmRx s
  | .kemOfferSend n => Sys2Proof.Machine.execKemOfferSend n s
  | .kemRetryTimeout n => Sys2Proof.Machine.execKemRetryTimeout n s
  | .switchAtSend n => Sys2Proof.Machine.execSwitchAtSend n s
  | .cancelPoint n => Sys2Proof.Machine.execCancelPoint n s
  | .bridleHeartbeatSend n => Sys2Proof.Machine.execBridleHeartbeatSend n s
  | .bridleProbeSend n => Sys2Proof.Machine.execBridleProbeSend n s
  | .bridlePositionSend n => Sys2Proof.Machine.execBridlePositionSend n s
  | .bridleDigestSend n => Sys2Proof.Machine.execBridleDigestSend n s
  | .bridleAnswerTimeout n => Sys2Proof.Machine.execBridleAnswerTimeout n s
  | .bridleSuspectClear n => Sys2Proof.Machine.execBridleSuspectClear n s
  | .bridleHbLoss n => Sys2Proof.Machine.execBridleHbLoss n s
  | .bridleConfig m loftOk => Sys2Proof.Machine.execBridleConfig m loftOk s
  | .bridleSend m => Sys2Proof.Machine.execBridleSend m s
  | .twinBind m loftOk => Sys2Proof.Machine.execTwinBind m loftOk s
  | .twinBound r arb => Sys2Proof.Machine.execTwinBound r arb s
  | .twinBindFail r arb => Sys2Proof.Machine.execTwinBindFail r arb s
  | .twinBeatSend => Sys2Proof.Machine.execTwinBeatSend s
  | .twinAssignRx => Sys2Proof.Machine.execTwinAssignRx s
  | .twinBeatRx => Sys2Proof.Machine.execTwinBeatRx s
  | .twinDigestDone n b => Sys2Proof.Machine.execTwinDigestDone n b s
  | .twinDigestRx => Sys2Proof.Machine.execTwinDigestRx s
  | .witnessDigestRx => Sys2Proof.Machine.execWitnessDigestRx s
  | .twinVerdictRx => Sys2Proof.Machine.execTwinVerdictRx s
  | .twinSlotRx => Sys2Proof.Machine.execTwinSlotRx s
  | .twinBridleRx => Sys2Proof.Machine.execTwinBridleRx s
  | .twinContextRx => Sys2Proof.Machine.execTwinContextRx s
  | .twinFreeRunEnter => Sys2Proof.Machine.execTwinFreeRunEnter s
  | .twinFreeRunExpiry => Sys2Proof.Machine.execTwinFreeRunExpiry s
  | .twinPromote arb => Sys2Proof.Machine.execTwinPromote arb s
  | .twinRejoinEligible n => Sys2Proof.Machine.execTwinRejoinEligible n s
  | .twinRejoinLate n => Sys2Proof.Machine.execTwinRejoinLate n s
  | .mergePathLost n path2 => Sys2Proof.Machine.execMergePathLost n path2 s
  | .mergeGapTimeout n => Sys2Proof.Machine.execMergeGapTimeout n s
  | .mergeDistrustEnd n => Sys2Proof.Machine.execMergeDistrustEnd n s
  | .fabInitRx z serial dev port => Sys2Proof.Machine.execFabInitRx z serial dev port s
  | .fabFlitRx z f => Sys2Proof.Machine.execFabFlitRx z f s
  | .fabNakRx z seq => Sys2Proof.Machine.execFabNakRx z seq s
  | .fabReplayTimeout z => Sys2Proof.Machine.execFabReplayTimeout z s
  | .fabTsync z t1 t2 t3 t4 => Sys2Proof.Machine.execFabTsync z t1 t2 t3 t4 s
  | .fabPositionSend => Sys2Proof.Machine.execFabPositionSend s
  | .fabPositionRx residence => Sys2Proof.Machine.execFabPositionRx residence s
  | .fabHeartbeatSend arb => Sys2Proof.Machine.execFabHeartbeatSend arb s
  | .fabHeartbeatRx => Sys2Proof.Machine.execFabHeartbeatRx s
  | .fabMemberAbsent d => Sys2Proof.Machine.execFabMemberAbsent d s
  | .fabDiscoverRx => Sys2Proof.Machine.execFabDiscoverRx s
  | .fabDiscoverReplyRx => Sys2Proof.Machine.execFabDiscoverReplyRx s
  | .fabMapRx => Sys2Proof.Machine.execFabMapRx s
  | .fabRouteUpdate d => Sys2Proof.Machine.execFabRouteUpdate d s
  | .fabReadRx busy => Sys2Proof.Machine.execFabReadRx busy s
  | .fabWriteRx busy loftOk => Sys2Proof.Machine.execFabWriteRx busy loftOk s
  | .fabDoorbellRx => Sys2Proof.Machine.execFabDoorbellRx s
  | .fabResponseRx cycles => Sys2Proof.Machine.execFabResponseRx cycles s
  | .fabResponseTimeout cycles => Sys2Proof.Machine.execFabResponseTimeout cycles s
  | .fabE2eGap src vc => Sys2Proof.Machine.execFabE2eGap src vc s
  | .leaseRequestSend => Sys2Proof.Machine.execLeaseRequestSend s
  | .leaseRequestRx => Sys2Proof.Machine.execLeaseRequestRx s
  | .leaseGrantRx => Sys2Proof.Machine.execLeaseGrantRx s
  | .leaseDenyRx => Sys2Proof.Machine.execLeaseDenyRx s
  | .leaseReleaseRx => Sys2Proof.Machine.execLeaseReleaseRx s
  | .leaseExpiry n => Sys2Proof.Machine.execLeaseExpiry n s
  | .promiseExpiry n => Sys2Proof.Machine.execPromiseExpiry n s
  | .voterChangeEnd => Sys2Proof.Machine.execVoterChangeEnd s
  | .cfgCommandAtMaster => Sys2Proof.Machine.execCfgCommandAtMaster s
  | .cfgPullDone => Sys2Proof.Machine.execCfgPullDone s
  | .forwardRx => Sys2Proof.Machine.execForwardRx s
  | .fabConfig m loftOk => Sys2Proof.Machine.execFabConfig m loftOk s
  | .fabRights m loftOk => Sys2Proof.Machine.execFabRights m loftOk s
  | .fabCustody m loftOk => Sys2Proof.Machine.execFabCustody m loftOk s
  | .fabForward m loftOk => Sys2Proof.Machine.execFabForward m loftOk s
  | .tokenGrant loftOk => Sys2Proof.Machine.execTokenGrant loftOk s
  | .tokenRelease y => Sys2Proof.Machine.execTokenRelease y s
  | .aliveWrite y => Sys2Proof.Machine.execAliveWrite y s
  | .watchdogExpiry => Sys2Proof.Machine.execWatchdogExpiry s
  | .readyClear y => Sys2Proof.Machine.execReadyClear y s
  | .ymDigestCompare digest => Sys2Proof.Machine.execYmDigestCompare digest s
  | .ymNoStandby => Sys2Proof.Machine.execYmNoStandby s
  | .mailboxRing m loftOk => Sys2Proof.Machine.execMailboxRing m loftOk s
  | .hostBar2Access o n write busy => Sys2Proof.Machine.execHostBar2Access o n write busy s
  | .compatCommand code args loftOk => Sys2Proof.Machine.execCompatCommand code args loftOk s
  | .idGenerate m fails loftOk => Sys2Proof.Machine.execIdGenerate m fails loftOk s
  | .idCert m loftOk => Sys2Proof.Machine.execIdCert m loftOk s
  | .idGetKey m => Sys2Proof.Machine.execIdGetKey m s
  | .idGetCert m => Sys2Proof.Machine.execIdGetCert m s
  | .kekInstall m loftOk => Sys2Proof.Machine.execKekInstall m loftOk s
  | .kekKemOffer m fails => Sys2Proof.Machine.execKekKemOffer m fails s
  | .kekKemOfferPart1 m => Sys2Proof.Machine.execKekKemOfferPart1 m s
  | .kekKemPairExpiry => Sys2Proof.Machine.execKekKemPairExpiry s
  | .kekKemFinish m loftOk => Sys2Proof.Machine.execKekKemFinish m loftOk s
  | .pairInstall m loftOk => Sys2Proof.Machine.execPairInstall m loftOk s
  | .keyInstall m loftOk => Sys2Proof.Machine.execKeyInstall m loftOk s
  | .keyExport m => Sys2Proof.Machine.execKeyExport m s
  | .keyPolicy m loftOk => Sys2Proof.Machine.execKeyPolicy m loftOk s
  | .keyRekey m => Sys2Proof.Machine.execKeyRekey m s
  | .draySplit m loftOk => Sys2Proof.Machine.execDraySplit m loftOk s
  | .drayLoad m => Sys2Proof.Machine.execDrayLoad m s
  | .drayControlStop m loftOk => Sys2Proof.Machine.execDrayControlStop m loftOk s
  | .drayControlStart m loftOk => Sys2Proof.Machine.execDrayControlStart m loftOk s
  | .memAperture m loftOk => Sys2Proof.Machine.execMemAperture m loftOk s
  | .bellHostDb m loftOk => Sys2Proof.Machine.execBellHostDb m loftOk s
  | .shedSet m loftOk => Sys2Proof.Machine.execShedSet m loftOk s
  | .shedReset m => Sys2Proof.Machine.execShedReset m s
  | .loftBudget m loftOk => Sys2Proof.Machine.execLoftBudget m loftOk s
  | .loftGet m => Sys2Proof.Machine.execLoftGet m s
  | .farrierConfig m loftOk => Sys2Proof.Machine.execFarrierConfig m loftOk s
  | .info m => Sys2Proof.Machine.execInfo m s
  | .ledgerConfig m loftOk => Sys2Proof.Machine.execLedgerConfig m loftOk s
  | .ledgerReaction m loftOk => Sys2Proof.Machine.execLedgerReaction m loftOk s
  | .faultClear m => Sys2Proof.Machine.execFaultClear m s
  | .statsMode m loftOk => Sys2Proof.Machine.execStatsMode m loftOk s
  | .compatConfig m loftOk => Sys2Proof.Machine.execCompatConfig m loftOk s
  | .coreStart r core => Sys2Proof.Machine.execCoreStart r core s
  | .coreStop r core => Sys2Proof.Machine.execCoreStop r core s
  | .lmClearDone core => Sys2Proof.Machine.execLmClearDone core s
  | .nop h field => Sys2Proof.Machine.execNop h field s
  | .add h rd rs1 rs2 => Sys2Proof.Machine.execAdd h rd rs1 rs2 s
  | .sub h rd rs1 rs2 => Sys2Proof.Machine.execSub h rd rs1 rs2 s
  | .and h rd rs1 rs2 => Sys2Proof.Machine.execAnd h rd rs1 rs2 s
  | .or h rd rs1 rs2 => Sys2Proof.Machine.execOr h rd rs1 rs2 s
  | .xor h rd rs1 rs2 => Sys2Proof.Machine.execXor h rd rs1 rs2 s
  | .shl h rd rs1 rs2 => Sys2Proof.Machine.execShl h rd rs1 rs2 s
  | .shr h rd rs1 rs2 => Sys2Proof.Machine.execShr h rd rs1 rs2 s
  | .sra h rd rs1 rs2 => Sys2Proof.Machine.execSra h rd rs1 rs2 s
  | .min h rd rs1 rs2 => Sys2Proof.Machine.execMin h rd rs1 rs2 s
  | .max h rd rs1 rs2 => Sys2Proof.Machine.execMax h rd rs1 rs2 s
  | .minu h rd rs1 rs2 => Sys2Proof.Machine.execMinu h rd rs1 rs2 s
  | .maxu h rd rs1 rs2 => Sys2Proof.Machine.execMaxu h rd rs1 rs2 s
  | .adds h rd rs1 rs2 => Sys2Proof.Machine.execAdds h rd rs1 rs2 s
  | .subs h rd rs1 rs2 => Sys2Proof.Machine.execSubs h rd rs1 rs2 s
  | .rol h rd rs1 rs2 => Sys2Proof.Machine.execRol h rd rs1 rs2 s
  | .andn h rd rs1 rs2 => Sys2Proof.Machine.execAndn h rd rs1 rs2 s
  | .addi h rd rs1 imm => Sys2Proof.Machine.execAddi h rd rs1 imm s
  | .shli h rd rs1 imm => Sys2Proof.Machine.execShli h rd rs1 imm s
  | .shri h rd rs1 imm => Sys2Proof.Machine.execShri h rd rs1 imm s
  | .srai h rd rs1 imm => Sys2Proof.Machine.execSrai h rd rs1 imm s
  | .roli h rd rs1 imm => Sys2Proof.Machine.execRoli h rd rs1 imm s
  | .andi h rd rs1 imm => Sys2Proof.Machine.execAndi h rd rs1 imm s
  | .ori h rd rs1 imm => Sys2Proof.Machine.execOri h rd rs1 imm s
  | .xori h rd rs1 imm => Sys2Proof.Machine.execXori h rd rs1 imm s
  | .movi h rd imm => Sys2Proof.Machine.execMovi h rd imm s
  | .movi32 h rd imm => Sys2Proof.Machine.execMovi32 h rd imm s
  | .dadd h rd rs1 rs2 => Sys2Proof.Machine.execDadd h rd rs1 rs2 s
  | .dsub h rd rs1 rs2 => Sys2Proof.Machine.execDsub h rd rs1 rs2 s
  | .dand h rd rs1 rs2 => Sys2Proof.Machine.execDand h rd rs1 rs2 s
  | .dor h rd rs1 rs2 => Sys2Proof.Machine.execDor h rd rs1 rs2 s
  | .dxor h rd rs1 rs2 => Sys2Proof.Machine.execDxor h rd rs1 rs2 s
  | .dshl h rd rs1 rs2 => Sys2Proof.Machine.execDshl h rd rs1 rs2 s
  | .dshr h rd rs1 rs2 => Sys2Proof.Machine.execDshr h rd rs1 rs2 s
  | .dsra h rd rs1 rs2 => Sys2Proof.Machine.execDsra h rd rs1 rs2 s
  | .sel h rd rs1 rs2 q => Sys2Proof.Machine.execSel h rd rs1 rs2 q s
  | .cmp h pd cond rs1 rs2 comb => Sys2Proof.Machine.execCmp h pd cond rs1 rs2 comb s
  | .cmpi h pd cond rs1 imm => Sys2Proof.Machine.execCmpi h pd cond rs1 imm s
  | .pand h pd pa pb => Sys2Proof.Machine.execPand h pd pa pb s
  | .por h pd pa pb => Sys2Proof.Machine.execPor h pd pa pb s
  | .pxor h pd pa pb => Sys2Proof.Machine.execPxor h pd pa pb s
  | .pandn h pd pa pb => Sys2Proof.Machine.execPandn h pd pa pb s
  | .clz h rd rs1 => Sys2Proof.Machine.execClz h rd rs1 s
  | .popc h rd rs1 => Sys2Proof.Machine.execPopc h rd rs1 s
  | .brev h rd rs1 => Sys2Proof.Machine.execBrev h rd rs1 s
  | .sextb h rd rs1 => Sys2Proof.Machine.execSextb h rd rs1 s
  | .sexth h rd rs1 => Sys2Proof.Machine.execSexth h rd rs1 s
  | .zextb h rd rs1 => Sys2Proof.Machine.execZextb h rd rs1 s
  | .zexth h rd rs1 => Sys2Proof.Machine.execZexth h rd rs1 s
  | .mul h rd rs1 rs2 => Sys2Proof.Machine.execMul h rd rs1 rs2 s
  | .mulhs h rd rs1 rs2 => Sys2Proof.Machine.execMulhs h rd rs1 rs2 s
  | .mulhu h rd rs1 rs2 => Sys2Proof.Machine.execMulhu h rd rs1 rs2 s
  | .mulw h rd rs1 rs2 => Sys2Proof.Machine.execMulw h rd rs1 rs2 s
  | .mulwu h rd rs1 rs2 => Sys2Proof.Machine.execMulwu h rd rs1 rs2 s
  | .clmul h rd rs1 rs2 => Sys2Proof.Machine.execClmul h rd rs1 rs2 s
  | .clmulh h rd rs1 rs2 => Sys2Proof.Machine.execClmulh h rd rs1 rs2 s
  | .mac h a rs1 rs2 => Sys2Proof.Machine.execMac h a rs1 rs2 s
  | .macu h a rs1 rs2 => Sys2Proof.Machine.execMacu h a rs1 rs2 s
  | .msu h a rs1 rs2 => Sys2Proof.Machine.execMsu h a rs1 rs2 s
  | .mac2 h a rs1 rs2 => Sys2Proof.Machine.execMac2 h a rs1 rs2 s
  | .aclr h a => Sys2Proof.Machine.execAclr h a s
  | .awr h a reg => Sys2Proof.Machine.execAwr h a reg s
  | .ard h a d r reg shift => Sys2Proof.Machine.execArd h a d r reg shift s
  | .macd h a gx gy sa sb ty sub mode ecc ecc' => Sys2Proof.Machine.execMacd h a gx gy sa sb ty sub mode ecc ecc' s
  | .ldb h rt g form opnd ecc => Sys2Proof.Machine.execLdb h rt g form opnd ecc s
  | .ldbu h rt g form opnd ecc => Sys2Proof.Machine.execLdbu h rt g form opnd ecc s
  | .ldh h rt g form opnd ecc => Sys2Proof.Machine.execLdh h rt g form opnd ecc s
  | .ldhu h rt g form opnd ecc => Sys2Proof.Machine.execLdhu h rt g form opnd ecc s
  | .ldw h rt g form opnd ecc => Sys2Proof.Machine.execLdw h rt g form opnd ecc s
  | .ldd h rt g form opnd ecc => Sys2Proof.Machine.execLdd h rt g form opnd ecc s
  | .stb h rt g form opnd => Sys2Proof.Machine.execStb h rt g form opnd s
  | .sth h rt g form opnd => Sys2Proof.Machine.execSth h rt g form opnd s
  | .stw h rt g form opnd => Sys2Proof.Machine.execStw h rt g form opnd s
  | .std h rt g form opnd => Sys2Proof.Machine.execStd h rt g form opnd s
  | .segld h gd ix ecc => Sys2Proof.Machine.execSegld h gd ix ecc s
  | .segsub h gd gs mask off len => Sys2Proof.Machine.execSegsub h gd gs mask off len s
  | .segmv h gd gs => Sys2Proof.Machine.execSegmv h gd gs s
  | .segrd h rd gs fn => Sys2Proof.Machine.execSegrd h rd gs fn s
  | .zconf h gx => Sys2Proof.Machine.execZconf h gx s
  | .farld h gf gl tag dO size inc => Sys2Proof.Machine.execFarld h gf gl tag dO size inc s
  | .farst h gf gl tag dO size inc => Sys2Proof.Machine.execFarst h gf gl tag dO size inc s
  | .farComplete core tag cycles clash loftOk => Sys2Proof.Machine.execFarComplete core tag cycles clash loftOk s
  | .fwait h mask => Sys2Proof.Machine.execFwait h mask s
  | .tagp h pd tag => Sys2Proof.Machine.execTagp h pd tag s
  | .fstat h rd tag => Sys2Proof.Machine.execFstat h rd tag s
  | .bcopy h all size pd dC sK bad cut => Sys2Proof.Machine.execBcopy h all size pd dC sK bad cut s
  | .bfill h all size pd dC sK bad cut => Sys2Proof.Machine.execBfill h all size pd dC sK bad cut s
  | .bcmp h all size pd dC sK bad cut => Sys2Proof.Machine.execBcmp h all size pd dC sK bad cut s
  | .bfind h all size pd dC sK bad cut => Sys2Proof.Machine.execBfind h all size pd dC sK bad cut s
  | .lock h dT gf sK busy => Sys2Proof.Machine.execLock h dT gf sK busy s
  | .unlock h pd dS busy => Sys2Proof.Machine.execUnlock h pd dS busy s
  | .br h annul off => Sys2Proof.Machine.execBr h annul off s
  | .brl h annul rd off => Sys2Proof.Machine.execBrl h annul rd off s
  | .brr h annul link rs rl => Sys2Proof.Machine.execBrr h annul link rs rl s
  | .loop0 h reg dist cnt => Sys2Proof.Machine.execLoop0 h reg dist cnt s
  | .loop1 h reg dist cnt => Sys2Proof.Machine.execLoop1 h reg dist cnt s
  | .atom h n1 => Sys2Proof.Machine.execAtom h n1 s
  | .wait h => Sys2Proof.Machine.execWait h s
  | .syscall h code => Sys2Proof.Machine.execSyscall h code s
  | .rete h => Sys2Proof.Machine.execRete h s
  | .brk h => Sys2Proof.Machine.execBrk h s
  | .mfc h rd creg => Sys2Proof.Machine.execMfc h rd creg s
  | .mtc h rs creg => Sys2Proof.Machine.execMtc h rs creg s
  | .vadd h vd vs1 vs2 mask => Sys2Proof.Machine.execVadd h vd vs1 vs2 mask s
  | .vsub h vd vs1 vs2 mask => Sys2Proof.Machine.execVsub h vd vs1 vs2 mask s
  | .vand h vd vs1 vs2 mask => Sys2Proof.Machine.execVand h vd vs1 vs2 mask s
  | .vor h vd vs1 vs2 mask => Sys2Proof.Machine.execVor h vd vs1 vs2 mask s
  | .vxor h vd vs1 vs2 mask => Sys2Proof.Machine.execVxor h vd vs1 vs2 mask s
  | .vmin h vd vs1 vs2 mask => Sys2Proof.Machine.execVmin h vd vs1 vs2 mask s
  | .vmax h vd vs1 vs2 mask => Sys2Proof.Machine.execVmax h vd vs1 vs2 mask s
  | .vminu h vd vs1 vs2 mask => Sys2Proof.Machine.execVminu h vd vs1 vs2 mask s
  | .vmaxu h vd vs1 vs2 mask => Sys2Proof.Machine.execVmaxu h vd vs1 vs2 mask s
  | .vshl h vd vs1 vs2 mask => Sys2Proof.Machine.execVshl h vd vs1 vs2 mask s
  | .vshr h vd vs1 vs2 mask => Sys2Proof.Machine.execVshr h vd vs1 vs2 mask s
  | .vsra h vd vs1 vs2 mask => Sys2Proof.Machine.execVsra h vd vs1 vs2 mask s
  | .vmv h vd vs1 vs2 mask => Sys2Proof.Machine.execVmv h vd vs1 vs2 mask s
  | .vsel h vd vs1 vs2 mask => Sys2Proof.Machine.execVsel h vd vs1 vs2 mask s
  | .vcmp h md cond vs1 vs2 mask comb => Sys2Proof.Machine.execVcmp h md cond vs1 vs2 mask comb s
  | .vmul h vd vs1 vs2 mask => Sys2Proof.Machine.execVmul h vd vs1 vs2 mask s
  | .vmulh h vd vs1 vs2 mask => Sys2Proof.Machine.execVmulh h vd vs1 vs2 mask s
  | .vmulhu h vd vs1 vs2 mask => Sys2Proof.Machine.execVmulhu h vd vs1 vs2 mask s
  | .vwmul h vd vs1 vs2 mask => Sys2Proof.Machine.execVwmul h vd vs1 vs2 mask s
  | .vwmulu h vd vs1 vs2 mask => Sys2Proof.Machine.execVwmulu h vd vs1 vs2 mask s
  | .vwmac h vd vs1 vs2 mask => Sys2Proof.Machine.execVwmac h vd vs1 vs2 mask s
  | .vwmacu h vd vs1 vs2 mask => Sys2Proof.Machine.execVwmacu h vd vs1 vs2 mask s
  | .vdot4 h vd vs1 vs2 mask => Sys2Proof.Machine.execVdot4 h vd vs1 vs2 mask s
  | .vqadd h vd vs1 vs2 mask => Sys2Proof.Machine.execVqadd h vd vs1 vs2 mask s
  | .vqsub h vd vs1 vs2 mask => Sys2Proof.Machine.execVqsub h vd vs1 vs2 mask s
  | .vqaddu h vd vs1 vs2 mask => Sys2Proof.Machine.execVqaddu h vd vs1 vs2 mask s
  | .vqsubu h vd vs1 vs2 mask => Sys2Proof.Machine.execVqsubu h vd vs1 vs2 mask s
  | .vqdmulh h vd vs1 vs2 mask => Sys2Proof.Machine.execVqdmulh h vd vs1 vs2 mask s
  | .vqrdmulh h vd vs1 vs2 mask => Sys2Proof.Machine.execVqrdmulh h vd vs1 vs2 mask s
  | .vrshr h vd vs1 imm mask => Sys2Proof.Machine.execVrshr h vd vs1 imm mask s
  | .vrshru h vd vs1 imm mask => Sys2Proof.Machine.execVrshru h vd vs1 imm mask s
  | .vsat h vd vs1 imm mask => Sys2Proof.Machine.execVsat h vd vs1 imm mask s
  | .vsatu h vd vs1 imm mask => Sys2Proof.Machine.execVsatu h vd vs1 imm mask s
  | .vmodredU h vd vs1 sQ => Sys2Proof.Machine.execVmodredU h vd vs1 sQ s
  | .vmodredUn h vd vs1 sQ => Sys2Proof.Machine.execVmodredUn h vd vs1 sQ s
  | .vmodredSn h vd vs1 sQ => Sys2Proof.Machine.execVmodredSn h vd vs1 sQ s
  | .vmodredS h vd vs1 sQ => Sys2Proof.Machine.execVmodredS h vd vs1 sQ s
  | .vld h vd g sK mask ecc => Sys2Proof.Machine.execVld h vd g sK mask ecc s
  | .vldInc h vd g sK mask ecc => Sys2Proof.Machine.execVldInc h vd g sK mask ecc s
  | .vst h vs g sK mask => Sys2Proof.Machine.execVst h vs g sK mask s
  | .vstInc h vs g sK mask => Sys2Proof.Machine.execVstInc h vs g sK mask s
  | .vlds h vd g sK mask ecc => Sys2Proof.Machine.execVlds h vd g sK mask ecc s
  | .vsts h vs g sK mask => Sys2Proof.Machine.execVsts h vs g sK mask s
  | .vstrip h pd rs ew span => Sys2Proof.Machine.execVstrip h pd rs ew span s
  | .vredsum h rd vs1 mask => Sys2Proof.Machine.execVredsum h rd vs1 mask s
  | .vredmax h rd vs1 mask => Sys2Proof.Machine.execVredmax h rd vs1 mask s
  | .vredmin h rd vs1 mask => Sys2Proof.Machine.execVredmin h rd vs1 mask s
  | .vmvxs h rd vs1 mask => Sys2Proof.Machine.execVmvxs h rd vs1 mask s
  | .vsplat h vd rs mask => Sys2Proof.Machine.execVsplat h vd rs mask s
  | .mand h md ma mb => Sys2Proof.Machine.execMand h md ma mb s
  | .mor h md ma mb => Sys2Proof.Machine.execMor h md ma mb s
  | .mxor h md ma mb => Sys2Proof.Machine.execMxor h md ma mb s
  | .mandn h md ma mb => Sys2Proof.Machine.execMandn h md ma mb s
  | .interruptEntry core cycles => Sys2Proof.Machine.execInterruptEntry core cycles s
  | .dbgHalt r core => Sys2Proof.Machine.execDbgHalt r core s
  | .dbgForceHalt r core => Sys2Proof.Machine.execDbgForceHalt r core s
  | .dbgResume r core cycles => Sys2Proof.Machine.execDbgResume r core cycles s
  | .dbgStep r core cycles => Sys2Proof.Machine.execDbgStep r core cycles s
  | .haltTaken core => Sys2Proof.Machine.execHaltTaken core s
  | .dbgRdataAccess r core write => Sys2Proof.Machine.execDbgRdataAccess r core write s
  | .traceRead r core => Sys2Proof.Machine.execTraceRead r core s
  | .ownerHandover r b v => Sys2Proof.Machine.execOwnerHandover r b v s
  | .handoverDone b => Sys2Proof.Machine.execHandoverDone b s
  | .groomScrub w ecc lastLine => Sys2Proof.Machine.execGroomScrub w ecc lastLine s
  | .barnReady fails => Sys2Proof.Machine.execBarnReady fails s
  | .sourceEvent n level => Sys2Proof.Machine.execSourceEvent n level s
  | .tgtTake r t => Sys2Proof.Machine.execTgtTake r t s
  | .tgtFinish r t v => Sys2Proof.Machine.execTgtFinish r t v s
  | .bellDoorbell r v => Sys2Proof.Machine.execBellDoorbell r v s
  | .bellFreezeSet r => Sys2Proof.Machine.execBellFreezeSet r s
  | .bellFreezeRelease r => Sys2Proof.Machine.execBellFreezeRelease r s
  | .bellFrzExpired => Sys2Proof.Machine.execBellFrzExpired s
  | .holdoffExpiry t => Sys2Proof.Machine.execHoldoffExpiry t s
  | .wakeLatchCapture n level => Sys2Proof.Machine.execWakeLatchCapture n level s
  | .tallyEvaluation pins => Sys2Proof.Machine.execTallyEvaluation pins s
  | .compareCommit r n k v => Sys2Proof.Machine.execCompareCommit r n k v s
  | .compareDisarm r n k v => Sys2Proof.Machine.execCompareDisarm r n k v s
  | .tallyCountWrite r n v inc => Sys2Proof.Machine.execTallyCountWrite r n v inc s
  | .tallyLfPeriod => Sys2Proof.Machine.execTallyLfPeriod s
  | .ledgerReport => Sys2Proof.Machine.execLedgerReport s
  | .coalesceWindowClose => Sys2Proof.Machine.execCoalesceWindowClose s
  | .ringWrite busy => Sys2Proof.Machine.execRingWrite busy s
  | .ledgerRdWrite r v => Sys2Proof.Machine.execLedgerRdWrite r v s
  | .hostRdPoll => Sys2Proof.Machine.execHostRdPoll s
  | .ledgerModeCopyDone => Sys2Proof.Machine.execLedgerModeCopyDone s
  | .ledgerInject r v => Sys2Proof.Machine.execLedgerInject r v s
  | .railTestStep r fails => Sys2Proof.Machine.execRailTestStep r fails s
  | .fillCellCompare a b differ => Sys2Proof.Machine.execFillCellCompare a b differ s
  | .engineTestStep e fails => Sys2Proof.Machine.execEngineTestStep e fails s
  | .draySelftestStep core last fails => Sys2Proof.Machine.execDraySelftestStep core last fails s
  | .coverageLate cls index => Sys2Proof.Machine.execCoverageLate cls index s
  | .marginMeasure lane v h => Sys2Proof.Machine.execMarginMeasure lane v h s
  | .entropySample ok => Sys2Proof.Machine.execEntropySample ok s
  | .pwrShedReqWrite r v => Sys2Proof.Machine.execPwrShedReqWrite r v s
  | .shedDrainDone k => Sys2Proof.Machine.execShedDrainDone k s
  | .shedPowerUp => Sys2Proof.Machine.execShedPowerUp s
  | .shedPowerGood => Sys2Proof.Machine.execShedPowerGood s
  | .pwrShedFail => Sys2Proof.Machine.execPwrShedFail s
  | .pwrShedRstWrite r v => Sys2Proof.Machine.execPwrShedRstWrite r v s
  | .shedResetEnd k => Sys2Proof.Machine.execShedResetEnd k s
  | .sleepEntry => Sys2Proof.Machine.execSleepEntry s
  | .wake => Sys2Proof.Machine.execWake s
  | .porst => Sys2Proof.Machine.execPorst s
  | .brownout => Sys2Proof.Machine.execBrownout s
  | .wrst => Sys2Proof.Machine.execWrst s
  | .perst => Sys2Proof.Machine.execPerst s
  | .bootStart => Sys2Proof.Machine.execBootStart s
  | .corePllLock => Sys2Proof.Machine.execCorePllLock s
  | .fwReady fails => Sys2Proof.Machine.execFwReady fails s
  | .loftWriteDone fails => Sys2Proof.Machine.execLoftWriteDone fails s
  | .refclkSysLost => Sys2Proof.Machine.execRefclkSysLost s
  | .refclkSysRelock => Sys2Proof.Machine.execRefclkSysRelock s
  | .portFecUncorr k corrected uncorrectable => Sys2Proof.Machine.execPortFecUncorr k corrected uncorrectable s
  | .l1GeneratedFrame n fault => Sys2Proof.Machine.execL1GeneratedFrame n fault s
  | .twinSlotAckRx => Sys2Proof.Machine.execTwinSlotAckRx s
  | .twinContextRequestRx => Sys2Proof.Machine.execTwinContextRequestRx s
  | .pcieLinkUp => Sys2Proof.Machine.execPcieLinkUp s
  | .pcieLinkDown => Sys2Proof.Machine.execPcieLinkDown s
  | .loftBudgetRefill => Sys2Proof.Machine.execLoftBudgetRefill s
  | .thermalExcursion => Sys2Proof.Machine.execThermalExcursion s
  | .powerOnHours => Sys2Proof.Machine.execPowerOnHours s
  | .smbusBlockRead addr code => Sys2Proof.Machine.execSmbusBlockRead addr code s
  | .jtagInstruction ix => Sys2Proof.Machine.execJtagInstruction ix s
  | .factoryTestMode pin => Sys2Proof.Machine.execFactoryTestMode pin s

end Sys2Proof.Machine
end

