-- ==== Sys2Proof/Safety.lean ====
section
/-!
DEFINITION. What counts as a sound state and a sound change of state, in the terms the claims use: the canonical form of the
tables, and what no command of the block may do.
-/

namespace Sys2Proof.Machine

/-- Byte memories are in canonical form: addresses strictly rising, no byte listed that an unlisted address reads as. -/
def Memory.wf (m : List Host.Cell) : Bool := tblWf (fun _ => 0) m

/-- The state's registers, the device's memories and the host's memory are in canonical form. -/
def State.wf (s : State) : Bool := tblWf csrReset s.csr && Memory.wf s.mem && Memory.wf s.hostMem

/-- What holds between a state and any state that commands lead to from it: sound tables stay sound; the queue of commands is
left alone; time does not run back; free values are not drawn twice; what has left the device has left it; the wear of a Loft
word never falls (R547). -/
structure Keep (s t : State) : Prop where
  wf : s.wf = true → t.wf = true
  pending : t.pending = s.pending
  now : s.now ≤ t.now
  draws : s.draws ≤ t.draws
  outs : s.outs <:+ t.outs
  wear : ∀ w, tblGet 0 w s.wear ≤ tblGet 0 w t.wear

/-- `Keep` for the next state of an outcome. -/
def KeepNext (s : State) (o : Host.Outcome State Fault Refusal) : Prop :=
  match o with
  | .next t => Keep s t
  | .fault _ => True
  | .refused _ => True

end Sys2Proof.Machine
end

