-- ==== Sys2Proof/Claims.lean ====
section
/-!
DEFINITION. The terms that the obligations are stated in, beside those of Sys2Proof/Safety.lean: when a Dray core stands free
between two bundles, what one bundle leaves alone.
-/

namespace Sys2Proof.Machine

/-! ### Dray cores -/

/-- Dray k stands at a bundle of `words` words: it can issue in native mode, nothing is in flight, and neither a delay slot, a
region, a loop, a halt, a step nor a stop falls due after the bundle. Conditions on the state alone. -/
structure CoreFree (s : State) (k words : Nat) : Prop where
  issue : canIssue s k = true
  native : (s.core k).legacy = false
  bundle : (s.core k).bundle = []
  wordsNone : (s.core k).words = 0
  slots : (s.core k).left = 0
  region : (s.core k).atomLeft = 0
  flight : (s.core k).flight = []
  stores : (s.core k).stores = []
  streams : (s.core k).streams = []
  loop0 : (s.core k).cr 0x10 = 0
  loop1 : (s.core k).cr 0x13 = 0
  halt : (s.core k).halt = none
  stepping : (s.core k).stepping = false
  debug : s.isSet (DRAY_DBG_CTL_DBG_EN k) = false
  run : s.isSet (DRAY_CTL_RUN k) = true
  line : (s.core k).pc % 64 + 4 * words ≤ 64

/-- A core after a bundle of `words` words that froze `fr` wall cycles: one issue cycle has passed, PC names the next bundle, and
every register is as it was. -/
def Core.issued (c : Core) (words fr : Nat) : Core :=
  { c with
    bundle := [], words := 0, frozen := false, icycle := c.icycle + 1, wcycle := c.wcycle + 1 + fr, cyc := c.cyc + 1,
    ieLast := c.ie, queue := [c.pc / 64, c.pc / 64 + 1], pc := c.pc + 4 * words, vbanks := [] }

/-- Between `s` and `t` only Dray k and its registers DRAY_FREEZE and DRAY_DBG_STAT have changed: every other core, every other
register, every byte of memory and every other part of the state is as it was, but for the model's own count of draws. -/
structure OnlyCore (k : Nat) (s t : State) : Prop where
  core : ∀ j, j ≠ k → t.core j = s.core j
  rd : ∀ o, o ≠ DRAY_FREEZE k → o ≠ DRAY_DBG_STAT k → t.rd o = s.rd o
  rest : t = { s with csr := t.csr, cores := t.cores, draws := t.draws }

/-- A command completes with Dray k as `c` says and nothing else changed. -/
def CoreDone (o : Host.Outcome State Fault Refusal) (s : State) (k : Nat) (c : Core) : Prop :=
  ∃ t, o = .next t ∧ t.core k = c ∧ OnlyCore k s t

/-- The op executes (R398): its guard predicate, inverted by N, is 1. -/
def opHolds (h : OpHead) (c : Core) : Prop := (c.pr h.gp.toNat != h.neg) = true

/-- A core with s register n, d register n, predicate n, accumulator n, segment register n or mask n as given; p0 and m0 take
nothing (R373). -/
def Core.putS (c : Core) (n : Nat) (v : Word) : Core := { c with sreg := tblSet 0 n v c.sreg }
def Core.putD (c : Core) (n : Nat) (v : DWord) : Core :=
  (c.putS (2 * n) (v.extractLsb' 0 32)).putS (2 * n + 1) (v.extractLsb' 32 32)
def Core.putP (c : Core) (n : Nat) (v : Bool) : Core := if n = 0 then c else { c with preg := tblSet false n v c.preg }
def Core.putA (c : Core) (n : Nat) (v : BitVec 80) : Core := { c with acc := tblSet 0 n v c.acc }
def Core.putG (c : Core) (n : Nat) (v : BitVec 128) : Core := { c with seg := tblSet 0 n v c.seg }

/-- A core with one more result under way: it lands in register `code` of WCOLL's numbering (R377) `lat` issue cycles after the
bundle that `c` stands before. -/
def Core.underWay (d c : Core) (lat slot code v mask : Nat) : Core :=
  { d with flight := d.flight ++ [{ land := c.cyc + lat, slot := slot, issued := c.cyc, code := code, value := v, mask := mask, qc := false }] }

/-- Values `f i` packed as elements of `w` bits, for the elements below `n` that are active (R422). -/
def packed (w n : Nat) (act : Nat → Bool) (f : Nat → Nat) : Nat :=
  ((List.range n).filter act).foldl (fun x i => x + f i * 2 ^ (w * i)) 0

/-- A vector op that occupies its unit for `steps` cycles, at most 2, has issued on Dray k (R422 to R427): each register of `regs`, by
its latency and its code in WCOLL's numbering, has `n` elements of `w` bits under way where they are active, the elements counted on
from register to register; QC rises with a register of which an element saturated. Nothing else changed. -/
def VecDone (o : Host.Outcome State Fault Refusal) (s : State) (k fr steps w n : Nat) (regs : List (Nat × Nat)) (act : Nat → Bool)
    (f : Nat → Nat) (sat : Nat → Bool) : Prop :=
  let c := s.core k
  ∃ t, o = .next t ∧ OnlyCore k s t ∧
    t.core k = { c.issued 1 fr with
      vfree := c.cyc + steps, vchain := (t.core k).vchain,
      flight := (regs.zipIdx.filter (fun r => (List.range n).any (fun e => act (r.2 * n + e)))).map (fun r =>
        { land := c.cyc + r.1.1, slot := 7, issued := c.cyc, code := r.1.2,
          value := packed w n (fun e => act (r.2 * n + e)) (fun e => f (r.2 * n + e)),
          mask := packed w n (fun e => act (r.2 * n + e)) (fun _ => 2 ^ w - 1),
          qc := (List.range n).any (fun e => act (r.2 * n + e) && sat (r.2 * n + e)) }) }

/-- Dray k can take a vector op of span 1 (R420, R425, R427): its unit is free, VL fits the capacity, and masked ops name at most 128
elements. -/
structure VecFree (s : State) (k : Nat) (masked : Bool) : Prop where
  free : CoreFree s k 1
  unit : (s.core k).vfree ≤ (s.core k).cyc
  span : (s.core k).span = 1
  length : (s.core k).vl ≤ 1024 / (s.core k).ew
  masks : masked = true → (s.core k).vl ≤ 128

/-! ### Commands of the block -/

/-- The command completes: it answers a next state, and that state is as `P` says. -/
def Completes (o : Host.Outcome State Fault Refusal) (P : State → Prop) : Prop := ∃ t, o = .next t ∧ P t

/-- Every register but those listed holds what it held. -/
def RegsBut (l : List Nat) (s t : State) : Prop := ∀ o, o ∉ l → t.rd o = s.rd o

/-- Every register at an offset that `l` admits holds what it held. -/
def RegsIn (l : Nat → Bool) (s t : State) : Prop := ∀ o, l o = true → t.rd o = s.rd o

/-- Every byte of memory at an address that `l` admits reads as it read. -/
def BytesIn (l : Nat → Bool) (s t : State) : Prop := ∀ a, l a = true → t.byte a = s.byte a

/-- A unit has reported a code (R505, R507): its queue took the report, with the stamp and the origin of the moment. -/
abbrev Reports (s t : State) (unit code path data : Nat) : Prop :=
  tblGet [] unit t.ledger.queues = (queueReport (tblGet [] unit s.ledger.queues)
    { stamp := s.stamp, origin := s.origin unit, code := code, path := path, data := BitVec.ofNat 128 data, cont := none, inj := false, merged := 0 }).1

/-- A saturating counter has counted `n` more (R12). -/
abbrev Counted (s t : State) (f : Fld) (n : Nat) : Prop := t.getF f = min (s.getF f + n) (2 ^ (f.hi + 1 - f.lo) - 1)

/-- A requester's access was answered. -/
abbrev Answered (t : State) (r : Requester) (st : BusStatus) (data : DWord) : Prop :=
  t.answer = some { req := requesterCode r, status := st, data := data }

/-- The ledger owes no record of its own (R512). -/
abbrev NothingOwed (s : State) : Prop := s.ledger.fatalLost = false ∧ s.ledger.dropN + s.ledger.dropD + s.ledger.dropF = 0

/-! ### YFI commands (R343 to R354) -/

/-- Mailbox `m` is DONE with status `st`, and its response carries the command's opcode and tag and `data` (R343, R344). -/
abbrev MbDone (s t : State) (m op st : Nat) (data : List Byte) : Prop :=
  t.getF (MB_STATUS_STATE m) = 3 ∧ t.getF (MB_STATUS_RESULT m) = st ∧ t.isSet (MB_EVT_DONE m) = true ∧ t.ldLE (rspBuf m) 2 = op ∧
  t.ldLE (rspBuf m + 2) 1 = st ∧ t.ldLE (rspBuf m + 4) 4 = data.length ∧ t.ldLE (rspBuf m + 8) 8 = mbTag s m ∧
  t.bytes (rspBuf m + 32) data.length = data

/-- Mailbox `m` holds an accepted configuration command of its row's length that may run here (R350, R352, R354): its base generation is 0 or the present one, its
checks pass, it changes the declared configuration of a device outside a fabric and a pair, and the Loft budget holds its words. -/
abbrev CfgReady (s : State) (c : CfgCmd) (m : Nat) : Prop :=
  yfiReady s c.op m = true ∧ yfiLenOk c.op (mbLen s m) (mbArg s m) = true ∧ (mbBase s m = 0 ∨ mbBase s m = s.gen) ∧ c.check (mbArg s m) s = 0 ∧ s.isSet FAB_CFG_EN = false ∧ s.bound = false ∧
  c.idle (c.resolve (mbArg s m) s) s = false ∧ recordsDiffer c (c.resolve (mbArg s m) s) s = true ∧
  c.words (c.resolve (mbArg s m) s) s + 1 ≤ s.getF LOFT_BUDGET_CFG_TOKENS

/-- The configuration command has committed (R354): OK with `data`, the generation one higher, its records declared. -/
abbrev CfgDone (s t : State) (c : CfgCmd) (m : Nat) (data : List Byte) : Prop :=
  MbDone s t m c.op 0 data ∧ t.rd64 FAB_GEN_LO = s.rd64 FAB_GEN_LO + 1 ∧
  (cfgRecords c s.devId (c.resolve (mbArg s m) s)).all (fun e => tblGet [] e.1 t.config = e.2) = true

/-! ### Bridle messages (R250, R252) -/

/-- The bytes of channel n's next message on a stream (R250): header, body and tag. -/
abbrev brWords (s : State) (n typ stream : Nat) (body : List Byte) : List Byte :=
  let m := brBody s n typ stream ((s.rd (BR_TX_SEQ n stream)).toNat + 1) body
  m ++ brTag s n m

/-- A message of channel n has entered its lane (R250, R252): the next SEQ of its stream, header, body and tag, after all that waited there. -/
abbrev Sent (s t : State) (n typ stream lane : Nat) (urgent : Bool) (body : List Byte) : Prop :=
  t.rd (BR_TX_SEQ n stream) = s.rd (BR_TX_SEQ n stream) + 1 ∧ t.rd64 (BR_CNT n 0) = s.rd64 (BR_CNT n 0) + 1 ∧
  t.brTx = s.brTx ++ [BrOut.mk n lane urgent (brWords s n typ stream body) 0]

/-- Messages of these types, of channel n on lane 1, have entered the queue after all that waited there. -/
abbrev Queued (s t : State) (n : Nat) (typs : List Nat) : Prop :=
  t.brTx.map (fun m => (m.ch, m.lane, at' m.bytes 1)) = s.brTx.map (fun m => (m.ch, m.lane, at' m.bytes 1)) ++ typs.map (fun y => (n, 1, y))

/-- A message at the head of the queue of those received passes the checks of its channel (R250, R251): addressed, of the other role, tagged, of this session, new. -/
abbrev Passes (s : State) (m : BrIn) (typ : Nat) : Bool :=
  decide (at' m.bytes 1 = typ) && s.brRuns m.ch && decide (s.getF (BR_CFG_PEER_CH m.ch) = be m.bytes 4 2) && decide (be m.bytes 6 2 = m.ch) &&
  !(decide (at' m.bytes 8 / 128 = 1) == s.roleB m.ch) && (decide (be m.bytes 24 8 = s.sidTx m.ch) || (decide (typ = brHello) && decide (be m.bytes 24 8 = 0))) &&
  ((decide (typ = brHello) && decide (be m.bytes 16 8 ≠ s.sidRx m.ch)) || decide (tblGet 0 (at' m.bytes 8 / 32 % 4 + 4 * m.path) (s.chan m.ch).br.rxSeq < be m.bytes 12 4))

/-- Its tag is the one R250 gives. -/
abbrev Tagged (s : State) (m : BrIn) : Bool := decide (brTag s m.ch (m.bytes.take (m.bytes.length - 16)) = m.bytes.drop (m.bytes.length - 16))

/-- The message leaves the queue (R251). Where its tag is the one R250 gives it is counted as accepted and `P` holds; else it is dropped: one more tag
failure, recorded (R271). -/
abbrev Taken (s t : State) (m : BrIn) (rest : List BrIn) (P : Prop) : Prop :=
  t.brIn = rest ∧
  if Tagged s m then t.rd64 (BR_CNT m.ch 2) = s.rd64 (BR_CNT m.ch 2) + 1 ∧ P
  else t.rd64 (BR_CNT m.ch 4) = s.rd64 (BR_CNT m.ch 4) + 1 ∧ Reports s t unitBridle 0x0603 m.ch m.ch ∧
    t = { s with csr := t.csr, ledger := t.ledger, bell := t.bell, outs := t.outs, brIn := rest }

/-! ### The twin link and the fabric (R273, R308) -/

/-- A report with 32 bytes of data (R505). -/
abbrev Reports2 (s t : State) (unit code path a b : Nat) : Prop :=
  tblGet [] unit t.ledger.queues = (queueReport (tblGet [] unit s.ledger.queues)
    { stamp := s.stamp, origin := s.origin unit, code := code, path := path, data := BitVec.ofNat 128 a, cont := some (BitVec.ofNat 128 b), inj := false, merged := 0 }).1

/-- The message that carries a twin sync record now (R273): the bond number, the record under the session key, its tag. -/
abbrev twinMsg (s : State) (rec : List Byte) : List Byte :=
  let iv := twinNonce (s.getF TW_CFG_MY_PATH) s.twin.count
  let ct := gcmStream s.twin.key iv rec
  let body := beBytes 4 s.twin.bondTx ++ ct ++ gcmTagBytes s.twin.key iv [] ct
  fabHeader 6 0x40 (s.getF TW_CFG_MATE_ID) s.devId 0 body.length 0 0 0 ++ body

/-- A twin sync record has gone to member port z (R273): one more message under the key, the next number in the bond, and the port holds it until it is acknowledged. -/
abbrev TwinSent (s t : State) (z : Nat) (rec : List Byte) : Prop :=
  t.twin.count = s.twin.count + 1 ∧ t.twin.bondTx = (s.twin.bondTx + 1) % 2 ^ 32 ∧ t.twin.turn = z ∧ (zMessages (t.zp z)).contains (twinMsg s rec) = true

/-- A message to device `dst` has gone to Z port z (R308, R311): it took the next EEN of its destination and channel, and the port holds it. -/
abbrev FabSent (s t : State) (z dst typ status tag addr : Nat) (body : List Byte) : Prop :=
  let een := tblGet 0 (4 * dst + fabVc typ) s.fab.eenTx
  tblGet 0 (4 * dst + fabVc typ) t.fab.eenTx = (een + 1) % 65536 ∧
  (zMessages (t.zp z)).contains (fabHeader typ 0 dst s.devId een body.length status tag addr ++ body) = true

end Sys2Proof.Machine
end

