-- ==== Sys2Proof/Certificates/Slice0/Obligations.lean ====
section
/-!
DEFINITION. The statements about the DZ8512 that the provers prove or refute, one per `def Obligations.<Name> : Prop`.
-/

open Sys2Proof Sys2Proof.Machine

/-! ### Dray ops (spec/15 to spec/18) -/

/-- R373, R374, R397, R406: an ALU op of latency 1, alone in its bundle on a free core, completes with its value in rd.
Readings of the model it may rest on: log entry 13. -/
def Obligations.DrayAluResults : Prop :=
  ∀ (s : State) (h : OpHead) (rd rs1 rs2 : BitVec 6) (imm9 : BitVec 9) (imm7 : BitVec 7) (imm15 : BitVec 15) (q : BitVec 3),
    CoreFree s h.core.val 1 → h.last = true → opHolds h (s.core h.core.val) → imm7.toNat < 32 →
    let c := s.core h.core.val
    let a := c.sr rs1.toNat
    let b := c.sr rs2.toNat
    let i := imm9.signExtend 32
    let n := b.toNat % 32
    let gives (i : Instr) (v : Word) : Prop := CoreDone (exec i s) s h.core.val ((c.issued 1 h.frz).putS rd.toNat v)
    gives (.add h rd rs1 rs2) (a + b) ∧ gives (.sub h rd rs1 rs2) (a - b) ∧ gives (.and h rd rs1 rs2) (a &&& b) ∧
    gives (.or h rd rs1 rs2) (a ||| b) ∧ gives (.xor h rd rs1 rs2) (a ^^^ b) ∧ gives (.andn h rd rs1 rs2) (a &&& ~~~b) ∧
    gives (.shl h rd rs1 rs2) (a <<< n) ∧ gives (.shr h rd rs1 rs2) (a >>> n) ∧ gives (.sra h rd rs1 rs2) (a.sshiftRight n) ∧
    gives (.rol h rd rs1 rs2) (a.rotateLeft n) ∧
    gives (.min h rd rs1 rs2) (if a.toInt < b.toInt then a else b) ∧ gives (.max h rd rs1 rs2) (if a.toInt < b.toInt then b else a) ∧
    gives (.minu h rd rs1 rs2) (if a.toNat < b.toNat then a else b) ∧ gives (.maxu h rd rs1 rs2) (if a.toNat < b.toNat then b else a) ∧
    gives (.adds h rd rs1 rs2) (BitVec.ofInt 32 (max (-2 ^ 31) (min (2 ^ 31 - 1) (a.toInt + b.toInt)))) ∧
    gives (.subs h rd rs1 rs2) (BitVec.ofInt 32 (max (-2 ^ 31) (min (2 ^ 31 - 1) (a.toInt - b.toInt)))) ∧
    gives (.addi h rd rs1 imm9) (a + i) ∧ gives (.andi h rd rs1 imm9) (a &&& i) ∧ gives (.ori h rd rs1 imm9) (a ||| i) ∧
    gives (.xori h rd rs1 imm9) (a ^^^ i) ∧ gives (.movi h rd imm15) (imm15.signExtend 32) ∧
    gives (.shli h rd rs1 imm7) (a <<< imm7.toNat) ∧ gives (.shri h rd rs1 imm7) (a >>> imm7.toNat) ∧
    gives (.srai h rd rs1 imm7) (a.sshiftRight imm7.toNat) ∧ gives (.roli h rd rs1 imm7) (a.rotateLeft imm7.toNat) ∧
    gives (.sel h rd rs1 rs2 q) (if c.pr q.toNat then a else b) ∧ gives (.clz h rd rs1) (BitVec.ofNat 32 (clz a)) ∧
    gives (.popc h rd rs1) (BitVec.ofNat 32 (popc a)) ∧ gives (.brev h rd rs1) a.reverse ∧
    gives (.sextb h rd rs1) ((a.extractLsb' 0 8).signExtend 32) ∧ gives (.sexth h rd rs1) ((a.extractLsb' 0 16).signExtend 32) ∧
    gives (.zextb h rd rs1) ((a.extractLsb' 0 8).zeroExtend 32) ∧ gives (.zexth h rd rs1) ((a.extractLsb' 0 16).zeroExtend 32)

/-- R397, R406: MOVI32 is two words long and takes A0 and A1; the ops on d registers read and write both halves; shifts of 64 bits
use bits [5:0] of the count.
Readings of the model it may rest on: log entry 13. -/
def Obligations.DrayWideResults : Prop :=
  (∀ (s : State) (h : OpHead) (rd : BitVec 6) (imm : Word),
    CoreFree s h.core.val 2 → h.last = true → opHolds h (s.core h.core.val) →
    CoreDone (exec (.movi32 h rd imm) s) s h.core.val (((s.core h.core.val).issued 2 h.frz).putS rd.toNat imm)) ∧
  (∀ (s : State) (h : OpHead) (rd rs1 rs2 : BitVec 6),
    CoreFree s h.core.val 1 → h.last = true → opHolds h (s.core h.core.val) → rd.toNat < 32 → rs1.toNat < 32 → rs2.toNat < 32 →
    let c := s.core h.core.val
    let a := c.sr (2 * rs1.toNat + 1) ++ c.sr (2 * rs1.toNat)
    let b := c.sr (2 * rs2.toNat + 1) ++ c.sr (2 * rs2.toNat)
    let n := b.toNat % 64
    let gives (i : Instr) (v : DWord) : Prop := CoreDone (exec i s) s h.core.val ((c.issued 1 h.frz).putD rd.toNat v)
    gives (.dadd h rd rs1 rs2) (a + b) ∧ gives (.dsub h rd rs1 rs2) (a - b) ∧ gives (.dand h rd rs1 rs2) (a &&& b) ∧
    gives (.dor h rd rs1 rs2) (a ||| b) ∧ gives (.dxor h rd rs1 rs2) (a ^^^ b) ∧ gives (.dshl h rd rs1 rs2) (a <<< n) ∧
    gives (.dshr h rd rs1 rs2) (a >>> n) ∧ gives (.dsra h rd rs1 rs2) (a.sshiftRight n))

/-- R373, R406: compares and predicate logic write pd; p0 takes nothing.
Readings of the model it may rest on: log entry 13. -/
def Obligations.DrayPredicateResults : Prop :=
  ∀ (s : State) (h : OpHead) (pd pa pb : BitVec 3) (rs1 rs2 : BitVec 6) (imm9 : BitVec 9) (cond comb : BitVec 3),
    CoreFree s h.core.val 1 → h.last = true → opHolds h (s.core h.core.val) → comb.toNat < 3 →
    let c := s.core h.core.val
    let a := c.sr rs1.toNat
    let b := c.sr rs2.toNat
    let i := imm9.signExtend 32
    let test (x y : Word) : Bool :=
      match cond.toNat with
      | 0 => decide (x = y)
      | 1 => decide (x ≠ y)
      | 2 => decide (x.toInt < y.toInt)
      | 3 => decide (y.toInt ≤ x.toInt)
      | 4 => decide (x.toNat < y.toNat)
      | 5 => decide (y.toNat ≤ x.toNat)
      | 6 => decide (x &&& y ≠ 0)
      | _ => decide (x &&& y = 0)
    let old := c.pr pd.toNat
    let gives (i : Instr) (v : Bool) : Prop := CoreDone (exec i s) s h.core.val ((c.issued 1 h.frz).putP pd.toNat v)
    gives (.cmp h pd cond rs1 rs2 comb) (if comb = 0 then test a b else if comb = 1 then old && test a b else old || test a b) ∧
    gives (.cmpi h pd cond rs1 imm9) (test a i) ∧
    gives (.pand h pd pa pb) (c.pr pa.toNat && c.pr pb.toNat) ∧ gives (.por h pd pa pb) (c.pr pa.toNat || c.pr pb.toNat) ∧
    gives (.pxor h pd pa pb) (c.pr pa.toNat != c.pr pb.toNat) ∧ gives (.pandn h pd pa pb) (c.pr pa.toNat && !c.pr pb.toNat)

/-- R374, R407: a multiply is under way for three issue cycles; a 64-bit product goes to both halves of a d register.
Readings of the model it may rest on: log entry 13. -/
def Obligations.DrayMultiplyResults : Prop :=
  ∀ (s : State) (h : OpHead) (rd rs1 rs2 : BitVec 6),
    CoreFree s h.core.val 1 → h.last = true → opHolds h (s.core h.core.val) →
    let c := s.core h.core.val
    let a := c.sr rs1.toNat
    let b := c.sr rs2.toNat
    let gives (i : Instr) (v : Word) : Prop :=
      CoreDone (exec i s) s h.core.val ((c.issued 1 h.frz).underWay c 3 2 rd.toNat v.toNat 0)
    let givesD (i : Instr) (v : DWord) : Prop :=
      CoreDone (exec i s) s h.core.val
        (((c.issued 1 h.frz).underWay c 3 2 (2 * rd.toNat) (v.toNat % 2 ^ 32) 0).underWay c 3 2 (2 * rd.toNat + 1) (v.toNat / 2 ^ 32) 0)
    gives (.mul h rd rs1 rs2) (a * b) ∧ gives (.mulhs h rd rs1 rs2) ((BitVec.ofInt 64 (a.toInt * b.toInt)).extractLsb' 32 32) ∧
    gives (.mulhu h rd rs1 rs2) ((BitVec.ofNat 64 (a.toNat * b.toNat)).extractLsb' 32 32) ∧
    gives (.clmul h rd rs1 rs2) ((clmul a b).extractLsb' 0 32) ∧ gives (.clmulh h rd rs1 rs2) ((clmul a b).extractLsb' 32 32) ∧
    (rd.toNat < 32 → givesD (.mulw h rd rs1 rs2) (BitVec.ofInt 64 (a.toInt * b.toInt)) ∧
      givesD (.mulwu h rd rs1 rs2) (BitVec.ofNat 64 (a.toNat * b.toNat)))

/-- R375, R407: a multiply-accumulate works modulo 2^80, is under way for four issue cycles, and leaves its sum to the next
multiply-accumulate of its slot; ACLR and AWR take one issue cycle, ARD three. The sum starts from the result of the bundle directly
before where that was of the same slot and accumulator, else from the accumulator.
Readings of the model it may rest on: log entry 13. -/
def Obligations.DrayAccumulatorResults : Prop :=
  ∀ (s : State) (h : OpHead) (a : BitVec 2) (rs1 rs2 reg shift : BitVec 6) (r : Bool),
    CoreFree s h.core.val 1 → h.last = true → opHolds h (s.core h.core.val) →
    let c := s.core h.core.val
    let x := c.sr rs1.toNat
    let y := c.sr rs2.toNat
    let start : BitVec 80 :=
      match c.mac0 with
      | some (cyc, a', v) => if cyc + 1 = c.cyc ∧ a' = a.toNat then BitVec.ofNat 80 v else c.ar a.toNat
      | none => c.ar a.toNat
    let adds (i : Instr) (p : Int) : Prop :=
      let v := start + BitVec.ofInt 80 p
      CoreDone (exec i s) s h.core.val
        { (c.issued 1 h.frz).underWay c 4 2 (0x40 + a.toNat) v.toNat 0 with mac0 := some (c.cyc, a.toNat, v.toNat) }
    let lo (w : Word) : Int := (w.extractLsb' 0 16).toInt
    let hi (w : Word) : Int := (w.extractLsb' 16 16).toInt
    let acc := (c.ar a.toNat).toInt
    let t := (acc + (if r ∧ 0 < shift.toNat then 2 ^ (shift.toNat - 1) else 0)) / 2 ^ shift.toNat
    let sat (n : Nat) : Int := max (-2 ^ (n - 1)) (min (2 ^ (n - 1) - 1) t)
    adds (.mac h a rs1 rs2) (x.toInt * y.toInt) ∧ adds (.macu h a rs1 rs2) (x.toNat * y.toNat : Nat) ∧
    adds (.msu h a rs1 rs2) (-(x.toInt * y.toInt)) ∧ adds (.mac2 h a rs1 rs2) (lo x * lo y + hi x * hi y) ∧
    CoreDone (exec (.aclr h a) s) s h.core.val ((c.issued 1 h.frz).putA a.toNat 0) ∧
    (reg.toNat < 32 → CoreDone (exec (.awr h a reg) s) s h.core.val
      ((c.issued 1 h.frz).putA a.toNat ((c.dr reg.toNat).signExtend 80))) ∧
    CoreDone (exec (.ard h a false r reg shift) s) s h.core.val
      ((c.issued 1 h.frz).underWay c 3 2 reg.toNat (BitVec.ofInt 32 (sat 32)).toNat 0) ∧
    (reg.toNat < 32 → CoreDone (exec (.ard h a true r reg shift) s) s h.core.val
      (((c.issued 1 h.frz).underWay c 3 2 (2 * reg.toNat) ((BitVec.ofInt 64 (sat 64)).toNat % 2 ^ 32) 0).underWay c 3 2
        (2 * reg.toNat + 1) ((BitVec.ofInt 64 (sat 64)).toNat / 2 ^ 32) 0))

/-- R402, R404, R405, R408: a load whose checks pass reads its bytes least significant first, is under way for four issue cycles, and
forms 2 and 3 step the index register by the size of the element.
Readings of the model it may rest on: log entries 13, 18. -/
def Obligations.DrayLoadResults : Prop :=
  ∀ (s : State) (h : OpHead) (rt : BitVec 6) (g : BitVec 4) (form : BitVec 2) (opnd : BitVec 9) (size a : Nat),
    CoreFree s h.core.val 1 → h.last = true → opHolds h (s.core h.core.val) → (form = 0 ∨ opnd.toNat % 8 = 0) →
    (∀ e ∈ (s.core h.core.val).tags, e.2.store = true ∨ e.2.settled = true) →
    let c := s.core h.core.val
    let x := c.sr (opnd.toNat / 8)
    let off := if form = 0 then opnd.toNat * size else x.toNat
    localCheck c g.toNat off size size false = .ok a →
    let read := leVal ((List.range size).map (fun i => s.byte (0x10000000 + h.core.val * 0x80000 + (a + i) % 0x80000)))
    let stepped : Core :=
      let d := c.issued 1 h.frz
      if form = 2 then d.putS (opnd.toNat / 8) (x + BitVec.ofNat 32 size)
      else if form = 3 then d.putS (opnd.toNat / 8) (x - BitVec.ofNat 32 size) else d
    let gives (i : Instr) (v : Word) : Prop := CoreDone (exec i s) s h.core.val (stepped.underWay c 4 4 rt.toNat v.toNat 0)
    (size = 1 → gives (.ldb h rt g form opnd 0) ((BitVec.ofNat 8 read).signExtend 32) ∧ gives (.ldbu h rt g form opnd 0) (BitVec.ofNat 32 read)) ∧
    (size = 2 → gives (.ldh h rt g form opnd 0) ((BitVec.ofNat 16 read).signExtend 32) ∧ gives (.ldhu h rt g form opnd 0) (BitVec.ofNat 32 read)) ∧
    (size = 4 → gives (.ldw h rt g form opnd 0) (BitVec.ofNat 32 read)) ∧
    (size = 8 → rt.toNat < 32 → CoreDone (exec (.ldd h rt g form opnd 0) s) s h.core.val
      ((stepped.underWay c 4 4 (2 * rt.toNat) (read % 2 ^ 32) 0).underWay c 4 4 (2 * rt.toNat + 1) (read / 2 ^ 32) 0))

/-- R376, R402, R404, R405, R408: a store whose checks pass puts its bytes, least significant first, before the loads of the second
issue cycle after it; form 2 and 3 step the index register. No FARST is under way here.
Readings of the model it may rest on: log entry 13. -/
def Obligations.DrayStoreResults : Prop :=
  ∀ (s : State) (h : OpHead) (rt : BitVec 6) (g : BitVec 4) (form : BitVec 2) (opnd : BitVec 9) (size a : Nat),
    CoreFree s h.core.val 1 → h.last = true → opHolds h (s.core h.core.val) → (form = 0 ∨ opnd.toNat % 8 = 0) →
    (∀ e ∈ (s.core h.core.val).tags, e.2.busy = false ∨ e.2.store = false) →
    let c := s.core h.core.val
    let x := c.sr (opnd.toNat / 8)
    let off := if form = 0 then opnd.toNat * size else x.toNat
    localCheck c g.toNat off size size true = .ok a →
    let stepped : Core :=
      let d := c.issued 1 h.frz
      if form = 2 then d.putS (opnd.toNat / 8) (x + BitVec.ofNat 32 size)
      else if form = 3 then d.putS (opnd.toNat / 8) (x - BitVec.ofNat 32 size) else d
    let stores (i : Instr) (v : Nat) : Prop :=
      CoreDone (exec i s) s h.core.val { stepped with
        stores := [{ vis := c.cyc + 2, cells := (List.range size).map (fun i => (a + i, BitVec.ofNat 8 (v / 256 ^ i))) }] }
    (size = 1 → stores (.stb h rt g form opnd) (c.sr rt.toNat).toNat) ∧ (size = 2 → stores (.sth h rt g form opnd) (c.sr rt.toNat).toNat) ∧
    (size = 4 → stores (.stw h rt g form opnd) (c.sr rt.toNat).toNat) ∧
    (size = 8 → rt.toNat < 32 → stores (.std h rt g form opnd) (c.dr rt.toNat).toNat)

/-- R375, R378, R410: MACD reads an element of gX and one of gY, adds their product to the accumulator or takes it away, and steps
its index registers by the element size; two reads of one bank freeze one wall cycle.
Readings of the model it may rest on: log entry 13. -/
def Obligations.DrayMacdResult : Prop :=
  ∀ (s : State) (h : OpHead) (a : BitVec 2) (gx gy : BitVec 4) (sa sb : BitVec 6) (ty : BitVec 2) (sub : Bool) (mode : BitVec 2) (ax ay : Nat),
    CoreFree s h.core.val 2 → h.last = true → opHolds h (s.core h.core.val) → (mode = 0 ∨ sa ≠ sb) →
    (∀ e ∈ (s.core h.core.val).tags, e.2.store = true ∨ e.2.settled = true) →
    let c := s.core h.core.val
    let e := if ty = 1 then 4 else 2
    localCheck c gx.toNat (c.sr sa.toNat).toNat e e false = .ok ax → localCheck c gy.toNat (c.sr sb.toNat).toNat e e false = .ok ay →
    let read (a : Nat) : Nat := leVal ((List.range e).map (fun i => s.byte (0x10000000 + h.core.val * 0x80000 + (a + i) % 0x80000)))
    let signed (a : Nat) : Int := if ty = 1 then (BitVec.ofNat 32 (read a)).toInt else (BitVec.ofNat 16 (read a)).toInt
    let p : Int := if ty = 2 then (read ax * read ay : Nat) else if ty = 3 then signed ax * (read ay : Int) else signed ax * signed ay
    let start : BitVec 80 :=
      match c.mac0 with
      | some (cyc, a', v) => if cyc + 1 = c.cyc ∧ a' = a.toNat then BitVec.ofNat 80 v else c.ar a.toNat
      | none => c.ar a.toNat
    let v : BitVec 80 := start + BitVec.ofInt 80 (if sub then -p else p)
    let fr := h.frz + (if ax / 0x20000 = ay / 0x20000 then 1 else 0)
    let step := BitVec.ofNat 32 e
    let x := c.sr sa.toNat
    let y := c.sr sb.toNat
    let d := c.issued 2 fr
    let stepped : Core :=
      if mode = 0 then d else if mode = 1 then (d.putS sa.toNat (x + step)).putS sb.toNat (y + step)
      else if mode = 2 then (d.putS sa.toNat (x - step)).putS sb.toNat (y - step)
      else (d.putS sa.toNat (x + step)).putS sb.toNat (y - step)
    CoreDone (exec (.macd h a gx gy sa sb ty sub mode 0 0) s) s h.core.val
      { stepped.underWay c 4 2 (0x40 + a.toNat) v.toNat 0 with mac0 := some (c.cyc, a.toNat, v.toNat) }

/-- R399, R401, R403, R404: SEGLD from the core's own local memory, SEGSUB, SEGMV and SEGRD; a CONFINED descriptor confines its range.
SEGLD's table bytes are read least significant first and loaded as R399 says (segNorm).
Readings of the model it may rest on: log entry 13. -/
def Obligations.DraySegmentResults : Prop :=
  ∀ (s : State) (h : OpHead) (gd gs : BitVec 4) (rd : BitVec 6) (i : Nat) (mask : BitVec 3) (off len : BitVec 19),
    h.last = true → opHolds h (s.core h.core.val) →
    let k := h.core.val
    let c := s.core k
    let d := c.sg gs.toNat
    (CoreFree s k 1 →
      let a := (c.cr 2).toNat + 16 * i
      let new := segNorm (leVal ((List.range 16).map (fun j => s.byte (0x10000000 + k * 0x80000 + (a - (0x10000000 + k * 0x80000) + j) % 0x80000))))
      let loaded := (c.issued 1 h.frz).putG gd.toNat (BitVec.ofNat 128 new)
      (i < ((c.cr 3).toNat % 2 ^ 17) → 0x10000000 + k * 0x80000 ≤ a → a + 16 ≤ 0x10000000 + k * 0x80000 + 0x80000 →
        (∀ e ∈ c.tags, e.2.store = true ∨ e.2.settled = true) → (c.sup = true ∨ (segBit new 3 = false ∧ segType new ≠ 3)) →
        (segType new ≠ 3 → CoreDone (exec (.segld h gd i false) s) s k loaded) ∧
        (segType new = 3 → c.confined.length < 4 → (segBase new, segLimit new) ∉ c.confined →
          CoreDone (exec (.segld h gd i false) s) s k { loaded with confined := c.confined ++ [(segBase new, segLimit new)] })) ∧
      CoreDone (exec (.segmv h gd gs) s) s k ((c.issued 1 h.frz).putG gd.toNat (BitVec.ofNat 128 d)) ∧
      CoreDone (exec (.segrd h rd gs 1) s) s k ((c.issued 1 h.frz).putS rd.toNat (BitVec.ofNat 32 d)) ∧
      CoreDone (exec (.segrd h rd gs 2) s) s k ((c.issued 1 h.frz).putS rd.toNat (BitVec.ofNat 32 (d / 2 ^ 32 % 2 ^ 16))) ∧
      CoreDone (exec (.segrd h rd gs 3) s) s k ((c.issued 1 h.frz).putS rd.toNat (BitVec.ofNat 32 (d / 2 ^ 64))) ∧
      CoreDone (exec (.segrd h rd gs 4) s) s k ((c.issued 1 h.frz).putS rd.toNat (BitVec.ofNat 32 (d / 2 ^ 48 % 2 ^ 16)))) ∧
    (CoreFree s k 2 → segType d ≠ 0 → 8 * off.toNat + 8 * len.toNat ≤ segLimit d →
      let flag (j m : Nat) : Nat := if segBit d j && mask.getLsbD m then 2 ^ j else 0
      CoreDone (exec (.segsub h gd gs mask off len) s) s k ((c.issued 2 h.frz).putG gd.toNat
        (BitVec.ofNat 128 ((segBase d + 8 * off.toNat) % 2 ^ 48 + (flag 0 2 + flag 1 1 + flag 2 0) * 2 ^ 48 + d / 2 ^ 51 % 2 ^ 13 * 2 ^ 51
          + 8 * len.toNat * 2 ^ 64))))

/-- R404: ZCONF in Supervisor writes zeros over the range of a CONFINED segment, at eight bytes a wall cycle, and releases it.
Readings of the model it may rest on: log entry 13. -/
def Obligations.DrayZconfResult : Prop :=
  ∀ (s : State) (h : OpHead) (gx : BitVec 4),
    CoreFree s h.core.val 1 → h.last = true → opHolds h (s.core h.core.val) → (s.core h.core.val).sup = true →
    let k := h.core.val
    let c := s.core k
    let d := c.sg gx.toNat
    segType d = 3 →
    ∃ t, exec (.zconf h gx) s = .next t ∧
      t.core k = { c.issued 1 (h.frz + (segLimit d + 7) / 8) with confined := c.confined.filter (fun x => x ≠ (segBase d, segLimit d)) } ∧
      (∀ a, t.byte a = if 0x10000000 + k * 0x80000 + segBase d ≤ a ∧ a < 0x10000000 + k * 0x80000 + segBase d + segLimit d then 0 else s.byte a) ∧
      OnlyCore k s { t with mem := s.mem }

/-- R422, R424, R431 to R433: what each element-wise vector op computes of its elements, at span 1.
Readings of the model it may rest on: log entries 13, 21. -/
def Obligations.DrayVectorResults : Prop :=
  ∀ (s : State) (h : OpHead) (vd vs1 vs2 imm : BitVec 5) (mask : BitVec 3),
    VecFree s h.core.val (decide (mask ≠ 0)) → h.last = true → opHolds h (s.core h.core.val) →
    let c := s.core h.core.val
    let w := c.ew
    let a (i : Nat) : Nat := elt w (c.vr vs1.toNat) i
    let b (i : Nat) : Nat := elt w (c.vr vs2.toNat) i
    let act (i : Nat) : Bool := decide (i < c.vl) && decide (c.mr mask.toNat / 2 ^ i % 2 = 1)
    let hold (x : Int) : Int := max (-2 ^ (w - 1)) (min (2 ^ (w - 1) - 1) x)
    let holdU (x : Int) : Int := max 0 (min (2 ^ w - 1) x)
    let gives (o : Instr) (lat : Nat) (f : Nat → Nat) : Prop :=
      VecDone (exec o s) s h.core.val h.frz 1 w (1024 / w) [(lat, 0x50 + vd.toNat)] act f (fun _ => false)
    let sats (o : Instr) (lat : Nat) (f g : Nat → Int) : Prop :=
      VecDone (exec o s) s h.core.val h.frz 1 w (1024 / w) [(lat, 0x50 + vd.toNat)] act (fun i => wrapTo w (f i)) (fun i => decide (f i ≠ g i))
    gives (.vadd h vd vs1 vs2 mask) 3 (fun i => (a i + b i) % 2 ^ w) ∧
    gives (.vsub h vd vs1 vs2 mask) 3 (fun i => wrapTo w ((a i : Int) - b i)) ∧
    gives (.vand h vd vs1 vs2 mask) 3 (fun i => a i &&& b i) ∧
    gives (.vor h vd vs1 vs2 mask) 3 (fun i => a i ||| b i) ∧
    gives (.vxor h vd vs1 vs2 mask) 3 (fun i => a i ^^^ b i) ∧
    gives (.vmin h vd vs1 vs2 mask) 3 (fun i => if sgn w (a i) < sgn w (b i) then a i else b i) ∧
    gives (.vmax h vd vs1 vs2 mask) 3 (fun i => if sgn w (a i) < sgn w (b i) then b i else a i) ∧
    gives (.vminu h vd vs1 vs2 mask) 3 (fun i => min (a i) (b i)) ∧
    gives (.vmaxu h vd vs1 vs2 mask) 3 (fun i => max (a i) (b i)) ∧
    gives (.vshl h vd vs1 vs2 mask) 3 (fun i => a i * 2 ^ (b i % w) % 2 ^ w) ∧
    gives (.vshr h vd vs1 vs2 mask) 3 (fun i => a i / 2 ^ (b i % w)) ∧
    gives (.vsra h vd vs1 vs2 mask) 3 (fun i => wrapTo w (sgn w (a i) / 2 ^ (b i % w))) ∧
    gives (.vmv h vd vs1 0 mask) 3 (fun i => a i) ∧
    gives (.vmul h vd vs1 vs2 mask) 5 (fun i => a i * b i % 2 ^ w) ∧
    gives (.vmulh h vd vs1 vs2 mask) 5 (fun i => wrapTo w (sgn w (a i) * sgn w (b i) / 2 ^ w)) ∧
    gives (.vmulhu h vd vs1 vs2 mask) 5 (fun i => a i * b i / 2 ^ w) ∧
    sats (.vqadd h vd vs1 vs2 mask) 3 (fun i => hold (sgn w (a i) + sgn w (b i))) (fun i => sgn w (a i) + sgn w (b i)) ∧
    sats (.vqsub h vd vs1 vs2 mask) 3 (fun i => hold (sgn w (a i) - sgn w (b i))) (fun i => sgn w (a i) - sgn w (b i)) ∧
    sats (.vqaddu h vd vs1 vs2 mask) 3 (fun i => holdU ((a i : Int) + b i)) (fun i => (a i : Int) + b i) ∧
    sats (.vqsubu h vd vs1 vs2 mask) 3 (fun i => holdU ((a i : Int) - b i)) (fun i => (a i : Int) - b i) ∧
    sats (.vqdmulh h vd vs1 vs2 mask) 5 (fun i => hold (2 * sgn w (a i) * sgn w (b i) / 2 ^ w)) (fun i => 2 * sgn w (a i) * sgn w (b i) / 2 ^ w) ∧
    sats (.vqrdmulh h vd vs1 vs2 mask) 5 (fun i => hold ((2 * sgn w (a i) * sgn w (b i) + 2 ^ (w - 1)) / 2 ^ w))
      (fun i => (2 * sgn w (a i) * sgn w (b i) + 2 ^ (w - 1)) / 2 ^ w) ∧
    gives (.vrshr h vd vs1 imm mask) 3 (fun i => wrapTo w ((sgn w (a i) + 2 ^ imm.toNat) / 2 ^ (imm.toNat + 1))) ∧
    gives (.vrshru h vd vs1 imm mask) 3 (fun i => (a i + 2 ^ imm.toNat) / 2 ^ (imm.toNat + 1) % 2 ^ w) ∧
    (imm.toNat + 1 < w →
      sats (.vsat h vd vs1 imm mask) 3 (fun i => max (-2 ^ imm.toNat) (min (2 ^ imm.toNat - 1) (sgn w (a i)))) (fun i => sgn w (a i)) ∧
      sats (.vsatu h vd vs1 imm mask) 3 (fun i => min (2 ^ (imm.toNat + 1) - 1) (a i)) (fun i => (a i : Int))) ∧
    (w ≤ imm.toNat + 1 → gives (.vsat h vd vs1 imm mask) 3 a ∧ gives (.vsatu h vd vs1 imm mask) 3 a)

/-- R421, R424, R431, R432: the other vector ops at span 1. VSEL, the widening multiplies, VDOT4,
VMODRED, VCMP, the reductions, VSPLAT, mask logic, and VSTRIP.
Readings of the model it may rest on: log entries 13, 21. -/
def Obligations.DrayVectorOtherResults : Prop :=
  ∀ (s : State) (h : OpHead) (vd vs1 vs2 : BitVec 5) (mask md ma mb cond pd : BitVec 3) (rd rs sQ : BitVec 6) (ew span : BitVec 2),
    VecFree s h.core.val (decide (mask ≠ 0)) → h.last = true → opHolds h (s.core h.core.val) →
    let k := h.core.val
    let c := s.core k
    let w := c.ew
    let n := 1024 / w
    let a (i : Nat) : Nat := elt w (c.vr vs1.toNat) i
    let b (i : Nat) : Nat := elt w (c.vr vs2.toNat) i
    let bit (m i : Nat) : Bool := decide (c.mr m / 2 ^ i % 2 = 1)
    let below (i : Nat) : Bool := decide (i < c.vl)
    let act (i : Nat) : Bool := below i && bit mask.toNat i
    let never (_ : Nat) : Bool := false
    let old (i : Nat) : Nat := elt (2 * w) (c.vr (vd.toNat + i / (n / 2))) (i % (n / 2))
    let wide (o : Instr) (f : Nat → Nat) : Prop := VecDone (exec o s) s k h.frz 2 (2 * w) (n / 2) [(5, 0x50 + vd.toNat), (6, 0x51 + vd.toNat)] act f never
    let dot (i m : Nat) : Int := sgn 16 (a (4 * i + m)) * sgn 16 (b (4 * i + m))
    let q := if (c.sr sQ.toNat).toNat % 65536 = 0 then 65536 else (c.sr sQ.toNat).toNat % 65536
    let a32 (i : Nat) : Nat := elt 32 (c.vr (vs1.toNat + i / 32)) (i % 32)
    let red (o : Instr) (steps lat : Nat) (f : Nat → Nat) : Prop := VecDone (exec o s) s k h.frz steps 16 64 [(lat, 0x50 + vd.toNat)] below f never
    let scalar (o : Instr) (v : Nat) : Prop :=
      CoreDone (exec o s) s k (if w = 64 then
        ({ c.issued 1 h.frz with vfree := c.cyc + 1 }.underWay c 4 7 (2 * rd.toNat) (v % 2 ^ 32) 0).underWay c 4 7 (2 * rd.toNat + 1) (v / 2 ^ 32) 0
        else { c.issued 1 h.frz with vfree := c.cyc + 1 }.underWay c 4 7 rd.toNat (wrapTo 32 (sgn w v)) 0)
    let on := (List.range c.vl).filter act
    let vl := min (c.sr rs.toNat).toNat (2 ^ span.toNat * 1024 / (8 * 2 ^ ew.toNat))
    let maskNow (o : Instr) (v : BitVec 128) : Prop :=
      CoreDone (exec o s) s k (if md = 0 then { c.issued 1 h.frz with vfree := c.cyc + 1 }
        else { c.issued 1 h.frz with vfree := c.cyc + 1 }.underWay c 3 7 (0x70 + md.toNat) v.toNat (2 ^ 128 - 1))
    let m128 (m : BitVec 3) : BitVec 128 := BitVec.ofNat 128 (c.mr m.toNat)
    (VecDone (exec (.vsel h vd vs1 vs2 mask) s) s k h.frz 1 w n [(3, 0x50 + vd.toNat)] below (fun i => if bit mask.toNat i then a i else b i) never) ∧
    (w ≠ 64 → vd.toNat % 2 = 0 → c.vchain = none →
      wide (.vwmul h vd vs1 vs2 mask) (fun i => wrapTo (2 * w) (sgn w (a i) * sgn w (b i))) ∧
      wide (.vwmulu h vd vs1 vs2 mask) (fun i => a i * b i) ∧
      wide (.vwmac h vd vs1 vs2 mask) (fun i => wrapTo (2 * w) (old i + sgn w (a i) * sgn w (b i))) ∧
      wide (.vwmacu h vd vs1 vs2 mask) (fun i => (old i + a i * b i) % 2 ^ (2 * w))) ∧
    (w = 16 → c.vl % 4 = 0 → c.vchain = none →
      VecDone (exec (.vdot4 h vd vs1 vs2 0) s) s k h.frz 1 64 16 [(5, 0x50 + vd.toNat)] (fun i => decide (i < c.vl / 4))
        (fun i => wrapTo 64 ((elt 64 (c.vr vd.toNat) i : Int) + dot i 0 + dot i 1 + dot i 2 + dot i 3)) never) ∧
    (w = 16 →
      red (.vmodredU h vd vs1 sQ) 1 5 (fun i => a i % q) ∧ red (.vmodredS h vd vs1 sQ) 1 5 (fun i => (sgn 16 (a i) % (q : Int)).toNat) ∧
      (vs1.toNat % 2 = 0 → red (.vmodredUn h vd vs1 sQ) 2 6 (fun i => a32 i % q % 2 ^ 16) ∧
        red (.vmodredSn h vd vs1 sQ) 2 6 (fun i => (sgn 32 (a32 i) % (q : Int)).toNat))) ∧
    (c.vl ≤ 128 → md ≠ 0 →
      let test (i : Nat) : Bool := condHolds w cond.toNat (a i) (b i)
      let cmp (o : Instr) (f : Nat → Bool) : Prop :=
        VecDone (exec o s) s k h.frz 1 1 c.vl [(3, 0x70 + md.toNat)] act (fun i => (f i).toNat) never
      cmp (.vcmp h md cond vs1 vs2 mask 0) test ∧ cmp (.vcmp h md cond vs1 vs2 mask 1) (fun i => bit md.toNat i && test i) ∧
      cmp (.vcmp h md cond vs1 vs2 mask 2) (fun i => bit md.toNat i || test i)) ∧
    ((w ≠ 64 ∨ rd.toNat < 32) →
      scalar (.vredsum h rd vs1 mask) (on.foldl (fun x i => (x + a i) % 2 ^ w) 0) ∧
      scalar (.vredmax h rd vs1 mask) (wrapTo w (on.foldl (fun x i => max x (sgn w (a i))) (-2 ^ (w - 1)))) ∧
      scalar (.vredmin h rd vs1 mask) (wrapTo w (on.foldl (fun x i => min x (sgn w (a i))) (2 ^ (w - 1) - 1))) ∧
      scalar (.vmvxs h rd vs1 mask) (a 0)) ∧
    ((w ≠ 64 ∨ rs.toNat < 32) →
      VecDone (exec (.vsplat h vd rs mask) s) s k h.frz 1 w n [(3, 0x50 + vd.toNat)] act
        (fun _ => if w = 64 then (c.dr rs.toNat).toNat else (c.sr rs.toNat).toNat % 2 ^ w) never) ∧
    (c.vl ≤ 128 →
      maskNow (.mand h md ma mb) (m128 ma &&& m128 mb) ∧ maskNow (.mor h md ma mb) (m128 ma ||| m128 mb) ∧
      maskNow (.mxor h md ma mb) (m128 ma ^^^ m128 mb) ∧ maskNow (.mandn h md ma mb) (m128 ma &&& ~~~m128 mb)) ∧
    CoreDone (exec (.vstrip h pd rs ew span) s) s k
      ((((c.issued 1 h.frz).putS rs.toNat (c.sr rs.toNat - BitVec.ofNat 32 vl)).putP pd.toNat (decide (vl < (c.sr rs.toNat).toNat))).setCr 5
        ((c.cr 5 &&& 0xFFFFFFCC) ||| BitVec.ofNat 32 (span.toNat * 16 + ew.toNat)) |>.setCr 4 ((c.cr 4 &&& 0xFFFFF800) ||| BitVec.ofNat 32 vl))

/-- R402, R422, R430: vector loads and stores at span 1 whose checks pass. A unit-stride form checks its whole range and a strided one each
active element; a load freezes one wall cycle for each 128-byte word (strided: each element) after the first; only active elements are
read into the register or written; the post-increment forms step sK. No FARLD is unsettled and no FARST under way here.
Readings of the model it may rest on: log entries 13, 21. -/
def Obligations.DrayVectorMemoryResults : Prop :=
  ∀ (s : State) (h : OpHead) (vd : BitVec 5) (g : BitVec 4) (sK : BitVec 6) (mask : BitVec 3) (place : Nat → Nat),
    VecFree s h.core.val (decide (mask ≠ 0)) → h.last = true → opHolds h (s.core h.core.val) →
    (∀ e ∈ (s.core h.core.val).tags, (e.2.store = true ∨ e.2.settled = true) ∧ (e.2.busy = false ∨ e.2.store = false)) →
    let k := h.core.val
    let c := s.core k
    let e := c.ew / 8
    let off := (c.sr sK.toNat).toNat
    let stride := (c.sr (sK.toNat + 1)).toInt
    let act (i : Nat) : Bool := decide (i < c.vl) && decide (c.mr mask.toNat / 2 ^ i % 2 = 1)
    let on := (List.range (1024 / c.ew)).filter act
    let unit (write : Bool) : Prop := localCheck c g.toNat off (c.vl * e) e write = .ok (place 0) ∧ ∀ i, place i = place 0 + i * e
    let strided (write : Bool) : Prop :=
      sK.toNat < 63 ∧ ∀ i, act i = true → localCheck c g.toNat (wrapTo 32 ((off : Int) + i * stride)) e e write = .ok (place i)
    let read (i : Nat) : Nat := leVal ((List.range e).map (fun j => s.byte (0x10000000 + k * 0x80000 + (place i + j) % 0x80000)))
    let words := if c.vl = 0 then 0 else (place 0 + c.vl * e - 1) / 128 - place 0 / 128 + 1
    let ready (fr : Nat) (inc : Bool) : Core :=
      let d : Core := { c.issued 1 fr with vfree := c.cyc + 1 }
      if inc then d.putS sK.toNat (c.sr sK.toNat + BitVec.ofNat 32 (c.vl * e)) else d
    let loads (o : Instr) (wall : Nat) (inc : Bool) : Prop :=
      CoreDone (exec o s) s k (if on = [] then ready (h.frz + wall) inc else (ready (h.frz + wall) inc).underWay c 6 7 (0x50 + vd.toNat)
        (packed c.ew (1024 / c.ew) act read) (packed c.ew (1024 / c.ew) act (fun _ => 2 ^ c.ew - 1)))
    let stores (o : Instr) (inc : Bool) : Prop :=
      CoreDone (exec o s) s k { ready h.frz inc with stores := [{ vis := c.cyc + 2, cells := on.flatMap (fun i =>
        (List.range e).map (fun j => (place i + j, BitVec.ofNat 8 (elt c.ew (c.vr vd.toNat) i / 256 ^ j)))) }] }
    (unit false → loads (.vld h vd g sK mask 0) (words - 1) false ∧ loads (.vldInc h vd g sK mask 0) (words - 1) true) ∧
    (strided false → loads (.vlds h vd g sK mask 0) (on.length - 1) false) ∧
    (unit true → stores (.vst h vd g sK mask) false ∧ stores (.vstInc h vd g sK mask) true) ∧
    (strided true → stores (.vsts h vd g sK mask) false)

/-- R411, R412: FARLD and FARST whose checks pass and whose tag is free start an access under the tag; the index pair steps by the size
with I = 1; a target in another device is sent a request (R310), and nothing else changes for a target in this device. The local range
is not confined here.
Readings of the model it may rest on: log entry 13. -/
def Obligations.DrayFarStarts : Prop :=
  ∀ (s : State) (h : OpHead) (gf gl : BitVec 4) (tag : BitVec 3) (dO : BitVec 5) (size : BitVec 4) (inc store : Bool) (a l : Nat),
    CoreFree s h.core.val 1 → h.last = true → opHolds h (s.core h.core.val) → size.toNat ≤ 12 →
    let k := h.core.val
    let c := s.core k
    let n := 2 ^ size.toNat
    let fo := c.sr (2 * dO.toNat)
    let lo := c.sr (2 * dO.toNat + 1)
    segCheck c gf.toNat [2] fo.toNat n (min n 8) store = .ok a → segCheck c gl.toNat [1, 3] lo.toNat n (min n 8) (!store) = .ok l →
    confinedHit c l n = false → (segBit (c.sg gf.toNat) 5 = true → n = 4 ∨ n = 8) → a % 2 ^ 48 % 4096 + n ≤ 4096 →
    (tblGet FarTag.reset tag.toNat c.tags).busy = false →
    let step := BitVec.ofNat 32 n
    let stepped : Core :=
      let d := c.issued 1 h.frz
      if inc then (d.putS (2 * dO.toNat) (fo + step)).putS (2 * dO.toNat + 1) (lo + step) else d
    ∃ t g, exec (if store then .farst h gf gl tag dO size inc else .farld h gf gl tag dO size inc) s = .next t ∧
      t.core k = { stepped with tags := tblSet FarTag.reset tag.toNat g c.tags, farSeq := c.farSeq + 1 } ∧
      g.busy = true ∧ g.store = store ∧ g.addr = a % 2 ^ 48 ∧ g.loc = l ∧ g.size = n ∧ g.seq = c.farSeq ∧ g.settled = store ∧
      g.ordered = (segBit (c.sg gf.toNat) 4 || segBit (c.sg gf.toNat) 5) ∧
      (a % 2 ^ 48 / 2 ^ 38 = s.devId → OnlyCore k s t) ∧
      (a % 2 ^ 48 / 2 ^ 38 ≠ s.devId → t.mem = s.mem ∧ t.fab.reqs =
        { tag := s.fab.tag, dst := a % 2 ^ 48 / 2 ^ 38, typ := if store then 3 else 1, req := k * 8 + tag.toNat, sent := s.now } :: s.fab.reqs)

/-- R412, R413, R414: an access to this device completes under its tag with the status of its target, FARLD's data then in local
memory; FWAIT passes once its tags are complete and makes their data readable; TAGP and FSTAT report a tag.
Readings of the model it may rest on: log entries 13, 18. -/
def Obligations.DrayFarTags : Prop :=
  (∀ (s : State) (core : Fin 32) (tag : Fin 8) (cycles : Nat) (clash : Fin 3) (loftOk : Bool),
    let c := s.core core.val
    let g := tblGet FarTag.reset tag.val c.tags
    let x := farPerform core g clash.val loftOk s
    g.busy = true → g.addr / 2 ^ 38 = s.devId → farWaits c g = false → (x.2.2.core core.val).frozen = false →
    x.2.2.core core.val = c →
    ∃ t, exec (.farComplete core tag cycles clash loftOk) s = .next t ∧
      t.core core.val = { c with tags := tblSet FarTag.reset tag.val { g with busy := false, status := x.1 } c.tags } ∧
      (g.store = true → t.mem = x.2.2.mem) ∧
      (g.store = false → x.1 = 0 →
        t.mem = (x.2.2.setBytes (0x10000000 + core.val * 0x80000 + g.loc) x.2.1).mem) ∧
      (∀ j, j ≠ core.val → t.core j = x.2.2.core j)) ∧
  (∀ (s : State) (h : OpHead) (mask : BitVec 8) (pd tag : BitVec 3) (rd : BitVec 6),
    CoreFree s h.core.val 1 → h.last = true → opHolds h (s.core h.core.val) →
    let k := h.core.val
    let c := s.core k
    let g := tblGet FarTag.reset tag.toNat c.tags
    let settle (d : Core) (m : Nat) : Core :=
      { d with tags := d.tags.map (fun x => if m / 2 ^ x.1 % 2 = 1 then (x.1, { x.2 with settled := true }) else x) }
    ((∀ j, j < 8 → mask.getLsbD j = true → (tblGet FarTag.reset j c.tags).busy = false) →
      CoreDone (exec (.fwait h mask) s) s k (settle (c.issued 1 h.frz) mask.toNat)) ∧
    (g.busy = false → CoreDone (exec (.tagp h pd tag) s) s k ((settle (c.issued 1 h.frz) (2 ^ tag.toNat)).putP pd.toNat true)) ∧
    (g.busy = true → CoreDone (exec (.tagp h pd tag) s) s k ((c.issued 1 h.frz).putP pd.toNat false)) ∧
    CoreDone (exec (.fstat h rd tag) s) s k
      ((c.issued 1 h.frz).putS rd.toNat (BitVec.ofNat 32 (g.status + if g.busy then 0 else 2 ^ 31))))

/-- R402, R404, R415: one step of a block op whose checks pass. BCOPY and BFILL store an element and step their offsets; BCMP and BFIND
either set pd and stay, or step; a count of 0 does nothing but clear the pd of BCMP and BFIND. Two accesses of one bank freeze one wall
cycle. No FARLD is unsettled and no FARST under way here.
Readings of the model it may rest on: log entries 13, 19. -/
def Obligations.DrayBlockSteps : Prop :=
  ∀ (s : State) (h : OpHead) (size : BitVec 2) (pd : BitVec 3) (dC : BitVec 5) (sK : BitVec 6) (cut : Option Nat) (a b : Nat),
    CoreFree s h.core.val 1 → h.last = true → opHolds h (s.core h.core.val) → sK.toNat / 2 ≠ dC.toNat →
    (∀ e ∈ (s.core h.core.val).tags, (e.2.store = true ∨ e.2.settled = true) ∧ (e.2.busy = false ∨ e.2.store = false)) →
    let k := h.core.val
    let c := s.core k
    let e := 2 ^ size.toNat
    let d := BitVec.ofNat 32 e
    let lo := c.sr (2 * dC.toNat)
    let hi := c.sr (2 * dC.toNat + 1)
    let cnt := c.sr sK.toNat
    let read (p : Nat) : Nat := leVal ((List.range e).map (fun i => s.byte (0x10000000 + k * 0x80000 + (p + i) % 0x80000)))
    let after (fr : Nat) (lo hi cnt : Word) : Core :=
      (((c.issued 1 fr).putS (2 * dC.toNat) lo).putS (2 * dC.toNat + 1) hi).putS sK.toNat cnt
    let pair := h.frz + if a / 0x20000 = b / 0x20000 then 1 else 0
    let cells (v : Nat) : List LmStore := [{ vis := c.cyc + 2, cells := (List.range e).map (fun i => (b + i, BitVec.ofNat 8 (v / 256 ^ i))) }]
    (cnt = 0 →
      CoreDone (exec (.bcopy h false size pd dC sK none cut) s) s k (after h.frz lo hi cnt) ∧
      CoreDone (exec (.bcmp h false size pd dC sK none cut) s) s k ((after h.frz lo hi cnt).putP pd.toNat false) ∧
      (e ≠ 8 → CoreDone (exec (.bfill h false size pd dC sK none cut) s) s k (after h.frz lo hi cnt) ∧
        CoreDone (exec (.bfind h false size pd dC sK none cut) s) s k ((after h.frz lo hi cnt).putP pd.toNat false))) ∧
    (cnt ≠ 0 → localCheck c 11 hi.toNat e e true = .ok b →
      (localCheck c 10 lo.toNat e e false = .ok a →
        CoreDone (exec (.bcopy h false size pd dC sK none cut) s) s k { after pair (lo + d) (hi + d) (cnt - 1) with stores := cells (read a) }) ∧
      (e ≠ 8 → CoreDone (exec (.bfill h false size pd dC sK none cut) s) s k
        { after h.frz lo (hi + d) (cnt - 1) with stores := cells (lo.toNat % 256 ^ e) })) ∧
    (cnt ≠ 0 → localCheck c 11 hi.toNat e e false = .ok b →
      (localCheck c 10 lo.toNat e e false = .ok a →
        CoreDone (exec (.bcmp h false size pd dC sK none cut) s) s k
          (if read a = read b then after pair (lo + d) (hi + d) (cnt - 1) else (after pair lo hi cnt).putP pd.toNat true)) ∧
      (e ≠ 8 → CoreDone (exec (.bfind h false size pd dC sK none cut) s) s k
        (if lo.toNat % 256 ^ e = read b then (after h.frz lo hi cnt).putP pd.toNat true else after h.frz lo (hi + d) (cnt - 1))))

/-- R417, R418, R419: LOCK reads its Paddock word into a d register, takes the reservation and begins a region of 32 bundles; UNLOCK
with its reservation held stores its d register there, says 1 in pd and ends the region, and without it says 0 and stores nothing.
Readings of the model it may rest on: log entries 13, 17. -/
def Obligations.DrayLockResults : Prop :=
  (∀ (s : State) (h : OpHead) (dT : BitVec 5) (gf : BitVec 4) (sK : BitVec 6) (a : Nat),
    CoreFree s h.core.val 1 → h.last = true → opHolds h (s.core h.core.val) →
    let k := h.core.val
    let c := s.core k
    let o := a % 2 ^ 38
    segCheck c gf.toNat [2] (c.sr sK.toNat).toNat 8 8 false = .ok a → a < 2 ^ 48 → a / 2 ^ 38 = s.devId → o < 0x4000000 → a % 8 = 0 →
    padMayRead s (.dray h.core) (padBank o) = true → o ∉ s.eccBad →
    ∃ t, exec (.lock h dT gf sK false) s = .next t ∧
      t.core k = { (c.issued 1 h.frz).putD dT.toNat (BitVec.ofNat 64 (leVal (s.bytes o 8))) with
        lock := some (o, true), atomLeft := 32, locked := true } ∧
      t.mem = s.mem ∧ ∀ j, j ≠ k → t.core j = s.core j) ∧
  (∀ (s : State) (h : OpHead) (pd : BitVec 3) (dS : BitVec 5) (o : Nat),
    let k := h.core.val
    let c := s.core k
    CoreFree (s.setCore k { c with atomLeft := 0 }) k 1 → h.last = true → opHolds h c → c.locked = true → 2 ≤ c.atomLeft →
    let left : Core := { c.issued 1 h.frz with lock := none, atomLeft := 0, locked := false }
    (c.lock = some (o, true) → o < 0x4000000 → o % 8 = 0 → padMayWrite s (.dray h.core) (padBank o) = true →
      ∃ t, exec (.unlock h pd dS false) s = .next t ∧ t.core k = left.putP pd.toNat true ∧
        (∀ j, t.byte j = if o ≤ j ∧ j < o + 8 then BitVec.ofNat 8 ((c.dr dS.toNat).toNat / 256 ^ (j - o)) else s.byte j)) ∧
    (c.lock = some (o, false) ∨ c.lock = none → CoreDone (exec (.unlock h pd dS false) s) s k (left.putP pd.toNat false)))

/-- R384, R385, R386, R388, R409, R417: what a branch, a loop op and ATOM leave, outside delay slots, loops' last bundles and regions. A
branch is placed before three delay slots; PREDCTL bit 0 switches the predictor off.
Readings of the model it may rest on: log entry 13. -/
def Obligations.DrayFlowResults : Prop :=
  ∀ (s : State) (h : OpHead) (annul link reg : Bool) (off : BitVec 20) (off14 : BitVec 14) (rd rs rl : BitVec 6) (dist : BitVec 10)
    (cnt : BitVec 9) (n1 : BitVec 5),
    CoreFree s h.core.val 1 → h.last = true →
    let k := h.core.val
    let c := s.core k
    let ex := opExecutes h c
    let next := c.pc + 4
    let seen := tblGet 1 (c.pc / 32 % 256) c.predictor
    let plain := decide (h.gp = 0) && !h.neg
    let off? := decide ((c.cr 7).toNat % 2 = 1)
    let miss := !off? && !plain && (decide (2 ≤ seen) != ex)
    let placed (target bubbles : Nat) (d : Core) : Core :=
      { d with left := 3, target := if ex then some target else none, annul := annul && !ex, bubbles := bubbles }
    let learned (d : Core) : Core :=
      if off? || plain then d else { d with predictor := tblSet 1 (c.pc / 32 % 256) (if ex then min (seen + 1) 3 else seen - 1) c.predictor }
    let cost := if off? then (if ex then 2 else 0) else if miss then 5 else 0
    let linked (rd : Nat) : Core :=
      if ex then (c.issued 1 h.frz).putS rd (BitVec.ofNat 32 (linkAfter s k c next)) else c.issued 1 h.frz
    let gives (s : State) (o : Instr) (d : Core) : Prop :=
      ∃ t, exec o s = .next t ∧ t.core k = d ∧ OnlyCore k (if miss then s.cntSat (DRAY_MISPRED_MISPRED k) 1 else s) t
    let count := if reg then (c.sr (cnt.toNat / 8)).toNat else cnt.toNat
    let setUp (level : Nat) : Core :=
      let n := 0x10 + 3 * level
      (((c.issued 1 h.frz).setCr n (BitVec.ofNat 32 count)).setCr (n + 1) (BitVec.ofNat 32 next)).setCr (n + 2)
        (BitVec.ofNat 32 (next + 4 * dist.toNat))
    gives s (.br h annul off) (learned (placed (wrapTo 32 (c.pc + 4 * off.toInt)) cost (c.issued 1 h.frz))) ∧
    gives s (.brl h annul rd off14) (learned (placed (wrapTo 32 (c.pc + 4 * off14.toInt)) cost (linked rd.toNat))) ∧
    CoreDone (exec (.brr h annul link rs rl) s) s k
      (placed ((c.sr rs.toNat).toNat / 4 * 4) (if ex then 2 else 0) (if link then linked rl.toNat else c.issued 1 h.frz)) ∧
    (opHolds h c → (reg = true → cnt.toNat % 8 = 0) → count ≠ 0 →
      CoreDone (exec (.loop0 h reg dist cnt) s) s k (setUp 0) ∧ CoreDone (exec (.loop1 h reg dist cnt) s) s k (setUp 1)) ∧
    (opHolds h c → CoreDone (exec (.atom h n1) s) s k { c.issued 1 h.frz with atomLeft := n1.toNat + 1 })

/-- R391, R392, R397, R409, R442, R443: NOP, MFC, MTC and WAIT. MFC reads a control register, a number not listed as 0; an MTC that is allowed
lands in one issue cycle, or in four for the registers of R392; WAIT leaves the core in state WAITING, its source not held.
Readings of the model it may rest on: log entries 13, 14. -/
def Obligations.DrayControlResults : Prop :=
  ∀ (s : State) (h : OpHead) (rd rs : BitVec 6) (creg : BitVec 8),
    CoreFree s h.core.val 1 → h.last = true → opHolds h (s.core h.core.val) →
    let k := h.core.val
    let c := s.core k
    let n := creg.toNat
    let v := c.sr rs.toNat
    let counts := [0x18, 0x19, 0x1A, 0x1B]
    let gives (v : Word) : Prop := CoreDone (exec (.mfc h rd creg) s) s k ((c.issued 1 h.frz).putS rd.toNat v)
    CoreDone (exec (.nop h 0) s) s k (c.issued 1 h.frz) ∧
    (n = 0 → gives (BitVec.ofNat 32 (c.sup.toNat + 2 * c.ie.toNat + 4 * c.legacy.toNat + 8 * c.locked.toNat + 256 * c.atomLeft))) ∧
    (n = 0x1C → gives (BitVec.ofNat 32 k)) ∧
    (cregListed n = true → n ≠ 0 → n ≠ 0x1C → n ∉ counts → gives (c.cr n)) ∧
    (cregListed n = false → gives 0) ∧
    (n = 0x18 ∨ n = 0x1A → ∃ t, exec (.mfc h rd creg) s = .next t ∧
      let live := if n = 0x18 then c.icycle else c.wcycle
      t.core k = (c.issued 1 h.frz).putS rd.toNat (BitVec.ofNat 32 live) ∧
      tblGet none k t.hiLatch = some (cregPair n, BitVec.ofNat 32 (live / 2 ^ 32)) ∧ OnlyCore k s { t with hiLatch := s.hiLatch }) ∧
    (cregListed n = true → n < 0x2A → (c.sup = true ∨ cregTask n = true) → n ≠ 0x28 → cregFixed n = false →
      CoreDone (exec (.mtc h rs creg) s) s k
        (if n ∈ [1, 6, 7, 0x10, 0x11, 0x12, 0x13, 0x14, 0x15] then (c.issued 1 h.frz).underWay c 4 6 (0x100 + n) v.toNat (2 ^ 32 - 1)
          else if n = 0 then { c.issued 1 h.frz with ie := v.getLsbD 1 }
          else (c.issued 1 h.frz).setCr n ((c.cr n &&& ~~~ BitVec.ofNat 32 (cregMask n) &&& ~~~ (v &&& BitVec.ofNat 32 (cregW1c n)))
            ||| (v &&& BitVec.ofNat 32 (cregMask n))))) ∧
    (cregFixed n = true → CoreDone (exec (.mtc h rs creg) s) s k (c.issued 1 h.frz)) ∧
    (s.isSet (TGT_STAT_REQ k) = false → ∃ t, exec (.wait h) s = .next t ∧ t.core k = c.issued 1 h.frz ∧ t.mem = s.mem ∧
      t.coreState k = 3 ∧ t.isSet (TGT_STAT_HOLDING k) = false)

/-- R435 to R439: SYSCALL enters its handler after its bundle with the next bundle in EPC and its code in ECAUSE; BRK, and an op of an illegal
encoding, before it with its own bundle in EPC; RETE restores what EPSW and EBR hold and goes on at EPC. HELD is 0 here.
Readings of the model it may rest on: log entries 13, 14, 20. -/
def Obligations.DrayEntryResults : Prop :=
  ∀ (s : State) (h : OpHead) (code : BitVec 16) (field : BitVec 27),
    CoreFree s h.core.val 1 → h.last = true → opHolds h (s.core h.core.val) →
    let k := h.core.val
    let c := s.core k
    let enters (o : Instr) (d : Core) (vec : Nat) (cause : Word → Prop) (info : Nat) : Prop :=
      ∃ t w, exec o s = .next t ∧ cause w ∧ t.mem = s.mem ∧ t.coreState k = 2 ∧ (∀ j, j ≠ k → t.core j = s.core j) ∧
        t.core k = { ((((d.setCr 0x23 d.psw).setCr 0x20 (BitVec.ofNat 32 (d.pc / 4 % 2 ^ 17 * 4))).setCr 0x21 w).setCr 0x22
            (BitVec.ofNat 32 info)).setCr 0x25 0 with
          sup := true, ie := false, ieLast := false, locked := false, lock := none, target := none, annul := false, bubbles := 0,
          queue := [], predictor := [], pc := fldGet 18 10 (c.cr 0x24) * 1024 + 32 * vec, trace := (t.core k).trace }
    let at_ (vec slot code : Nat) (w : Word) : Prop := w = BitVec.ofNat 32 (2 ^ 30 + slot * 2 ^ 27 + code * 2 ^ 8 + vec)
    let still : Core := { c with words := 0, frozen := false }
    fldGet 30 30 (c.cr 0x21) = 0 → s.isSet (DRAY_TRACE_CTL_EN k) = false →
    enters (.syscall h code) (c.issued 1 h.frz) 18 (at_ 18 6 code.toNat) 0 ∧
    enters (.brk h) still 19 (at_ 19 6 0) 0 ∧
    (field ≠ 0 → enters (.nop h field) still 0 (fun w => w.toNat % 2 ^ 27 = 0 ∧ w.toNat / 2 ^ 30 = 1)
      (2 ^ 31 + h.neg.toNat * 2 ^ 30 + h.gp.toNat * 2 ^ 27 + field.toNat)) ∧
    (let e := c.cr 0x25
      let w := c.cr 0x23
      fldGet 29 28 e = 0 → CoreDone (exec (.rete h) s) s k { c.issued 1 h.frz with
        predictor := [], sup := w.getLsbD 0, ie := w.getLsbD 1, left := 0, annul := e.getLsbD 30, locked := false, bubbles := 0, queue := [],
        target := if e.getLsbD 31 then some (fldGet 18 2 e * 4) else none, pc := fldGet 18 2 (c.cr 0x20) * 4 })

/-- R370, R393: a start by the leader of a stopped core whose local memory is ready gives it the registers of R393 and the bundle at ENTRY;
a stop of a core that stands at an interruptible boundary takes effect at once and keeps its registers; the end of clearing. -/
def Obligations.DrayStartStop : Prop :=
  ∀ (s : State) (r : Requester) (core : Fin 32),
    let k := core.val
    let c := s.core k
    (isLeader s r = true → s.isSet (DRAY_CTL_RUN k) = false → s.isSet (DRAY_STAT_LM_READY k) = true → s.shedOn (k / 2) = true →
      ∃ t, exec (.coreStart r core) s = .next t ∧ t.isSet (DRAY_CTL_RUN k) = true ∧ t.coreState k = 2 ∧
        t.answer = some { req := requesterCode r, status := .ok, data := 0 } ∧
        t.core k = { Core.reset with
          pc := s.getF (DRAY_ENTRY_ENTRY k) * 8, confined := c.confined, tags := c.tags.filter (fun e => e.2.busy), farSeq := c.farSeq,
          trace := c.trace }) ∧
    (isLeader s r = true → s.coreState k = 2 → c.left = 0 → c.atomLeft = 0 → c.bundle = [] → c.frozen = false → c.flight = [] →
      c.stores = [] → c.streams = [] →
      ∃ t, exec (.coreStop r core) s = .next t ∧ t.isSet (DRAY_CTL_RUN k) = false ∧ t.coreState k = 1 ∧
        t.answer = some { req := requesterCode r, status := .ok, data := 0 } ∧ t.mem = s.mem ∧
        t.core k = { c with words := 0, halt := none, stepping := false }) ∧
    (s.shedOn (k / 2) = true → s.isSet (DRAY_STAT_LM_READY k) = false →
      ∃ t, exec (.lmClearDone core) s = .next t ∧ t.isSet (DRAY_STAT_LM_READY k) = true ∧ t.coreState k = 1 ∧ t.cores = s.cores ∧ t.mem = s.mem)

/-- R435, R437, R441, R442: a core between two bundles whose target presents a request takes the source and enters vector 20, the taken
word in ITAKE and EINFO and the next bundle in EPC. -/
def Obligations.DrayInterruptEntry : Prop :=
  ∀ (s : State) (core : Fin 32) (cycles : Nat),
    let k := core.val
    let c := s.core k
    CoreFree s k 0 → c.frozen = false → c.ieLast = true → s.isSet (TGT_STAT_REQ k) = true → fldGet 30 30 (c.cr 0x21) = 0 →
    s.isSet (DRAY_TRACE_CTL_EN k) = false →
    ∃ t, exec (.interruptEntry core cycles) s = .next t ∧ t.coreState k = 2 ∧ t.mem = s.mem ∧
      (t.core k).sup = true ∧ (t.core k).ie = false ∧ (t.core k).pc = fldGet 18 10 (c.cr 0x24) * 1024 + 32 * 20 ∧
      (t.core k).cr 0x20 = BitVec.ofNat 32 (c.pc / 4 % 2 ^ 17 * 4) ∧ (t.core k).cr 0x23 = c.psw ∧ (t.core k).cr 0x25 = 0 ∧
      ((t.core k).cr 0x21).toNat % 2 ^ 27 = 20 ∧ fldGet 30 30 ((t.core k).cr 0x21) = 1 ∧
      (t.core k).cr 0x27 = (bellTake k s).1 ∧ (t.core k).cr 0x22 = (bellTake k s).1 ∧
      (t.core k).sreg = c.sreg ∧ (t.core k).preg = c.preg ∧ (t.core k).acc = c.acc ∧ (t.core k).vreg = c.vreg ∧ (t.core k).seg = c.seg

/-- R446 to R450, R453: halts are requested by debug while DBG_EN is 1, taken at a boundary, and ended by RESUME or STEP; a halted core's
registers are read and written through DBG_RDATA; a read of TRACE_LO takes the oldest entry.
Readings of the model it may rest on: log entry 22. -/
def Obligations.DrayDebugResults : Prop :=
  ∀ (s : State) (core : Fin 32) (r : Requester) (cycles : Nat) (x : Word) (q : HaltReq),
    let k := core.val
    let c := s.core k
    let answers (t : State) (r : Requester) (v : DWord) : Prop := t.answer = some { req := requesterCode r, status := .ok, data := v }
    (s.isSet (DRAY_DBG_CTL_DBG_EN k) = true → s.coreState k = 2 ∨ s.coreState k = 3 → c.halt = none →
      (∃ t, exec (.dbgHalt .debug core) s = .next t ∧ answers t .debug 0 ∧
        t.core k = { c with halt := some { reason := 1, which := 0, forced := false, late := false } }) ∧
      (∃ t, exec (.dbgForceHalt .debug core) s = .next t ∧ answers t .debug 0 ∧
        t.core k = { c with halt := some { reason := 2, which := 0, forced := true, late := false } })) ∧
    (s.isSet (DRAY_DBG_CTL_DBG_EN k) = true → s.coreState k = 4 →
      (∃ t, exec (.dbgResume .debug core cycles) s = .next t ∧ t.coreState k = 2 ∧ t.isSet (DRAY_DBG_STAT_HALTED k) = false ∧
        t.core k = { c with stepping := false, halt := none, wcycle := c.wcycle + cycles }) ∧
      (∃ t, exec (.dbgStep .debug core cycles) s = .next t ∧ t.coreState k = 2 ∧ t.isSet (DRAY_DBG_STAT_HALTED k) = false ∧
        t.core k = { c with stepping := true, halt := none, wcycle := c.wcycle + cycles })) ∧
    (c.halt = some q → s.coreState k = 2 ∨ s.coreState k = 3 → c.frozen = false → c.bundle = [] → c.left = 0 →
      (q.forced = false → c.atomLeft = 0) → c.flight = [] → c.stores = [] → c.streams = [] → s.isSet (DRAY_TRACE_CTL_EN k) = false →
      q.reason < 8 → q.which < 4 →
      ∃ t, exec (.haltTaken core) s = .next t ∧ t.coreState k = 4 ∧ t.isSet (DRAY_DBG_STAT_HALTED k) = true ∧
        t.getF (DRAY_DBG_STAT_REASON k) = q.reason ∧ t.getF (DRAY_DBG_STAT_WHICH k) = q.which ∧ t.mem = s.mem ∧
        t.core k = { c with halt := none, stepping := false, atomLeft := 0, locked := false, lock := if c.locked then none else c.lock }) ∧
    (s.coreState k = 4 → c.confined = [] → s.getF (DRAY_DBG_RSEL_CODE k) < 64 → s.getF (DRAY_DBG_RSEL_WORD k) = 0 →
      s.isSet (DRAY_DBG_RSEL_CREG k) = false →
      (∃ t, exec (.dbgRdataAccess .debug core none) s = .next t ∧ t.core k = c ∧
        answers t .debug ((c.sr (s.getF (DRAY_DBG_RSEL_CODE k))).zeroExtend 64)) ∧
      (∃ t, exec (.dbgRdataAccess .debug core (some x)) s = .next t ∧ t.core k = c.putS (s.getF (DRAY_DBG_RSEL_CODE k)) x)) ∧
    (r ≠ .debug → (∀ d, r ≠ .peer d) →
      ∃ t, exec (.traceRead r core) s = .next t ∧ t.core k = { c with trace := c.trace.tail } ∧
        answers t r (((c.trace.headD 0).truncate 32 : Word).zeroExtend 64) ∧
        tblGet none (requesterCode r) t.hiLatch = some (DRAY_TRACE_LO k, ((c.trace.headD 0) >>> 32).truncate 32))

/-! ### Registers (spec/02) -/

/-- R40, R43 to R46: what a 32-bit write stores in a field of kind RW and of kind W1C; what a LO read latches and a HI read returns; a LO
write is staged and a HI write commits the pair, as one field of kind CNT, together with the increment of its cycle; a 64-bit access
uses neither latch nor stage; a peek changes nothing but the latch. No other register, no memory and no other part of the state changes.
Readings of the model it may rest on: log entries 8, 24. -/
def Obligations.RegisterAccessResults : Prop :=
  ∀ (s : State) (r : Requester) (a : Nat) (v hm hv lo : Word) (x y : DWord) (ok : Bool) (n : Fin 120),
    let o := reqOff r a s
    let answers (t : State) (d : DWord) : Prop := t.answer = some { req := requesterCode r, status := .ok, data := d }
    reqReady r s = true →
    (o = POS_HO_MAX → Completes (exec (.csrWrite r a v hm hv ok) s) fun t =>
      t.getF POS_HO_MAX_HO_MAX = v.toNat % 2 ^ 20 ∧ answers t 0 ∧ RegsBut [POS_HO_MAX] s t ∧ t = { s with csr := t.csr, answer := t.answer }) ∧
    (o = POS_EVT → Completes (exec (.csrWrite r a v hm hv ok) s) fun t =>
      t.rd POS_EVT = ((s.rd POS_EVT &&& ~~~ (v &&& 0x1FF#32)) ||| (hv &&& hm &&& 0x1FF#32)) ∧ answers t 0 ∧ RegsBut [POS_EVT] s t ∧
      t = { s with csr := t.csr, answer := t.answer }) ∧
    (isReg o = true → csrListed o = true → isPairLo o = true → hasLatch r = true → o / 2 ^ 24 ≠ 0x28 →
      Completes (exec (.pairLoRead r a) s) fun t => answers t ((csrView s o).zeroExtend 64) ∧
        tblGet none (requesterCode r) t.hiLatch = some (o, csrView s (o + 4)) ∧ t = { s with hiLatch := t.hiLatch, answer := t.answer }) ∧
    (isReg o = true → csrListed o = true → isPairHi o = true → tblGet none (requesterCode r) s.hiLatch = some (o - 4, lo) → hasLatch r = true →
      Completes (exec (.pairLoRead r a) s) fun t => answers t (lo.zeroExtend 64) ∧ t = { s with answer := t.answer }) ∧
    (isReg o = true → csrRefuse r o s = none → isPairLo o = true → hasLatch r = true →
      Completes (exec (.pairLoWrite r a v) s) fun t => answers t 0 ∧ tblGet none (requesterCode r) t.loStage = some (o, v) ∧
        t = { s with loStage := t.loStage, answer := t.answer }) ∧
    (o = TCNT_HI n.val → tblGet none (requesterCode r) s.loStage = some (TCNT_LO n.val, lo) → hasLatch r = true → s.getF (TCFG_SRC n.val) ≠ 3 →
      Completes (exec (.pairHiWrite r a v hm hv) s) fun t => answers t 0 ∧ tblGet none (requesterCode r) t.loStage = none ∧
        t.rd64 (TCNT_LO n.val) = v ++ lo + hv.zeroExtend 64 ∧ RegsBut [TCNT_LO n.val, TCNT_HI n.val] s t ∧
        t = { s with csr := t.csr, loStage := t.loStage, answer := t.answer }) ∧
    (o = TCNT_LO n.val → s.getF (TCFG_SRC n.val) ≠ 3 →
      Completes (exec (.pairAccess64 r a (some x) y (hv.zeroExtend 64)) s) fun t => answers t 0 ∧
        t.rd64 (TCNT_LO n.val) = x + hv.zeroExtend 64 ∧ RegsBut [TCNT_LO n.val, TCNT_HI n.val] s t ∧
        t = { s with csr := t.csr, answer := t.answer }) ∧
    (o = TCNT_LO n.val →
      Completes (exec (.pairAccess64 r a none x y) s) fun t => answers t (s.rd64 (TCNT_LO n.val)) ∧ t = { s with answer := t.answer }) ∧
    (a = POS_EVT →
      Completes (exec (.debugPeek a) s) fun t => t = { s with answer := t.answer } ∧
        t.answer = some { req := 56, status := .ok, data := (csrView s POS_EVT).zeroExtend 64 }) ∧
    (a = POS_NOW_LO →
      Completes (exec (.debugPeek a) s) fun t => t = { s with answer := t.answer, hiLatch := t.hiLatch } ∧
        t.answer = some { req := 56, status := .ok, data := (s.rd POS_NOW_LO).zeroExtend 64 } ∧
        tblGet none 56 t.hiLatch = some (POS_NOW_LO, s.rd POS_NOW_HI))

/-! ### The position unit (spec/03) -/

/-- R50, R60, R63, R64: a valid boundary of the PIN source followed gives the unit its next beat, a forward step or a regression, by the
number the word names; while a source is qualified its valid beats are counted. Nothing else changes, but for Bell's source and the record.
Readings of the model it may rest on: log entries 25, 28. -/
def Obligations.PositionFollows : Prop :=
  ∀ (s : State) (b : SrcBeat),
    let p := s.pos.cur
    s.getF POS_STAT_STATE = 1 → p.src = 1 → b.off.natAbs ≤ nominalBeat p.cls / 64 → posWordOk b.word = true → posFollowedOk s b.period = true →
    (b.v = s.beat + 1 → Completes (exec (.sourceBeatBoundary false b) s) fun t =>
      t.beat = s.beat + 1 ∧ t.getF POS_NOW_LO_FRAC = 0 ∧ t.pos.ticks = 0 ∧ t.pos.miss = 0 ∧ t.pos.fabPos = none ∧ t.isSet POS_EVT_BEAT = true ∧
      t.getF POS_STAT_STATE = 1 ∧ t.pos.dataOut = posWord (s.beat + 1) ∧ t.pos.periods = (b.period :: s.pos.periods).take 1024 ∧
      RegsIn (fun o => o / 2 ^ 24 ≠ 0x20 && o / 2 ^ 24 ≠ 0x2A) s t ∧ t.getF POS_CFG_SRC = s.getF POS_CFG_SRC ∧
      t = { s with csr := t.csr, pos := t.pos, bell := t.bell, outs := t.outs, tally := { s.tally with bounds := s.tally.bounds + 1 } }) ∧
    (beatBefore (s.beat + 1) b.v = true → Completes (exec (.sourceBeatBoundary false b) s) fun t =>
      t.beat = b.v ∧ t.getF POS_STAT_STATE = 1 ∧ t.isSet POS_EVT_STEP = true ∧
      t.getF POS_REGR_CNT_STEPS = min (s.getF POS_REGR_CNT_STEPS + 1) 0xFFFF ∧
      t.getF POS_REGR_CNT_REGRESSIONS = s.getF POS_REGR_CNT_REGRESSIONS ∧ t.mem = s.mem ∧ t.cores = s.cores ∧ t.chans = s.chans ∧ t.tack = s.tack) ∧
    (b.v ≠ s.beat + 1 → beatBefore (s.beat + 1) b.v = false → Completes (exec (.sourceBeatBoundary false b) s) fun t =>
      t.beat = b.v ∧ t.getF POS_REGR_CNT_REGRESSIONS = min (s.getF POS_REGR_CNT_REGRESSIONS + 1) 0xFFFF ∧
      t.getF POS_STAT_STATE = 3 ∧
      t.isSet POS_EVT_REGR = true ∧ t.mem = s.mem ∧ t.cores = s.cores)

/-- R57 to R61: a missing boundary is issued by the unit itself and the third in a row ends LOCKED; in FREE and HOLDOVER the unit issues its
own beats; a qualified source is taken over at its next boundary; HO_MAX ends HOLDOVER and the estimate; 60 s in LOCKED make it valid.
Readings of the model it may rest on: log entries 5, 26. -/
def Obligations.PositionStates : Prop :=
  ∀ (s : State) (b : SrcBeat),
    let st := s.getF POS_STAT_STATE
    let p := posCfg s
    let only (t : State) : Prop := RegsIn (fun o => o / 2 ^ 24 ≠ 0x20 && o / 2 ^ 24 ≠ 0x2A && o / 2 ^ 24 ≠ 0x2F) s t ∧
      t = { s with csr := t.csr, pos := t.pos, bell := t.bell, outs := t.outs, ledger := t.ledger, tally := t.tally }
    (st = 1 ∨ st = 3 → s.pos.miss < 2 → Completes (exec .beatWindowClose s) fun t =>
      t.beat = s.beat + 1 ∧ t.pos.miss = s.pos.miss + 1 ∧ t.getF POS_STAT_STATE = st ∧ t.pos.badRun = true ∧ t.isSet POS_EVT_BEAT = true ∧ only t) ∧
    (st = 1 → s.pos.miss = 2 → Completes (exec .beatWindowClose s) fun t =>
      t.beat = s.beat + 1 ∧ t.getF POS_STAT_STATE = (if s.isSet POS_STAT_FREQ_VALID then 2 else 0) ∧ t.isSet POS_STAT_SRC_OK = false ∧
      t.pos.beatLen = (if s.isSet POS_STAT_FREQ_VALID then s.pos.estLen else nominalBeat s.pos.cur.cls) ∧ t.pos.miss = 0 ∧ only t) ∧
    (st = 0 ∨ st = 2 → Completes (exec .ownBeatBoundary s) fun t =>
      t.beat = s.beat + 1 ∧ t.pos.ticks = 0 ∧ t.getF POS_STAT_STATE = st ∧ t.isSet POS_EVT_BEAT = true ∧ t.pos.cur = s.pos.cur ∧ only t) ∧
    (s.pos.qDone = true → p.src = 1 → b.v = posNear s → s.pos.cur.cls ≠ 3 → Completes (exec (.sourceChangeover b) s) fun t =>
      t.getF POS_STAT_STATE = 1 ∧ t.pos.cur = p ∧ t.pos.qDone = false ∧ t.isSet POS_STAT_PENDING = false ∧ t.isSet POS_STAT_SRC_OK = true ∧
      t.beat = s.beat ∧ t.pos.slew = posPhase s ∧ t.pos.miss = 0 ∧ only t) ∧
    (st = 2 → Completes (exec .holdoverExpiry s) fun t =>
      t.getF POS_STAT_STATE = 0 ∧ t.isSet POS_STAT_FREQ_VALID = false ∧ t.pos.beatLen = nominalBeat s.pos.cur.cls ∧ t.isSet POS_EVT_FREE = true ∧
      t.beat = s.beat ∧ only t) ∧
    (st = 1 → Completes (exec .freqEstimateValid s) fun t =>
      t.isSet POS_STAT_FREQ_VALID = true ∧ t.getF POS_STAT_STATE = 1 ∧ t.beat = s.beat ∧ t.pos.cur = s.pos.cur ∧
      RegsBut [POS_STAT, POS_FREQ] s t ∧ t = { s with csr := t.csr, pos := t.pos })

/-! ### Tally (spec/21) -/

/-- R487, R490, R491, R497, R498, R501, R502: an evaluation adds 1 to a running TICK channel, its count wraps with an overflow, its armed
compare fires; a commit arms a compare or, with the value passed already, fires it at once; a disarm disarms; a written count meets the
increment of its cycle; an AON period adds 30. The channel is the one that runs; no event carries an action here.
Readings of the model it may rest on: log entry 7. -/
def Obligations.TallyResults : Prop :=
  ∀ (s : State) (r : Requester) (n : Fin 128) (k : Fin 4) (pins : BitVec 18) (v : DWord) (w : Word) (inc : BitVec 32),
    let m := n.val
    let count := (s.rd64 (TCNT_LO m)).toNat
    let quiet := (List.range 128).all (fun i => i = m || tallyIdle s i) && s.tally.wait.isEmpty
    let ticks := s.isSet (TCFG_EN m) && s.getF (TCFG_SRC m) = 0 && !s.isSet (TCFG_GATE_EN m) && !s.isSet (TCFG_CAP_EN m)
    let answers (t : State) : Prop := t.answer = some { req := requesterCode r, status := .ok, data := 0 }
    let only (t : State) : Prop := t = { s with csr := t.csr, bell := t.bell, outs := t.outs, ledger := t.ledger, tack := t.tack, chans := t.chans, tally := t.tally, now := t.now, pos := t.pos, answer := t.answer }
    (s.clocksStopped = false → quiet = true → ticks = true → s.getF (TSTAT_ARM m) = 0 → count + 1 < 2 ^ 64 →
      Completes (exec (.tallyEvaluation pins) s) fun t => t.rd64 (TCNT_LO m) = s.rd64 (TCNT_LO m) + 1 ∧ t.now = s.now + 1 ∧ t.pos.ticks = s.pos.ticks + 1 ∧
        t.tally.pins2 = s.tally.pins1 ∧ t.tally.pins3 = s.tally.pins2 ∧ t.isSet (TEVT_OVF m) = s.isSet (TEVT_OVF m) ∧ t.tack = s.tack ∧ t.chans = s.chans ∧
        t.ledger = s.ledger ∧ only t) ∧
    (s.clocksStopped = false → quiet = true → ticks = true → s.getF (TSTAT_ARM m) = 0 → count + 1 = 2 ^ 64 → s.rd (TOVF_CTL m) = 0 →
      Completes (exec (.tallyEvaluation pins) s) fun t => t.rd64 (TCNT_LO m) = 0 ∧ t.isSet (TEVT_OVF m) = true ∧ t.now = s.now + 1 ∧ only t) ∧
    (s.clocksStopped = false → quiet = true → ticks = true → s.getF (TSTAT_ARM m) = 2 ^ k.val → count + 1 = (s.rd64 (CMP_LO m k.val)).toNat → count + 1 < 2 ^ 64 →
      s.rd (CMP_CTL m k.val) = 0 →
      Completes (exec (.tallyEvaluation pins) s) fun t => t.rd64 (TCNT_LO m) = s.rd64 (TCNT_LO m) + 1 ∧ t.isSet ⟨TEVT m, k.val, k.val⟩ = true ∧
        t.getF (TSTAT_ARM m) = 0 ∧ t.now = s.now + 1 ∧ only t) ∧
    (tallyMayWrite r m s = true → m ≠ 120 ∨ k.val ≠ 0 → (let w := tallyWidth s m; tallyDist w count v.toNat = 0 ∨ 2 ^ (w - 1) ≤ tallyDist w count v.toNat) →
      Completes (exec (.compareCommit r n k v) s) fun t => t.rd64 (CMP_LO m k.val) = v ∧ t.isSet ⟨TSTAT m, k.val, k.val⟩ = true ∧ answers t ∧
        RegsBut [CMP_LO m k.val, CMP_HI m k.val, TSTAT m] s t ∧ t = { s with csr := t.csr, tally := t.tally, answer := t.answer }) ∧
    (tallyMayWrite r m s = true → m ≠ 120 ∨ k.val ≠ 0 → (let w := tallyWidth s m; 0 < tallyDist w count v.toNat ∧ tallyDist w count v.toNat < 2 ^ (w - 1)) →
      s.rd (CMP_CTL m k.val) = 0 →
      Completes (exec (.compareCommit r n k v) s) fun t => t.rd64 (CMP_LO m k.val) = v ∧ t.isSet ⟨TSTAT m, k.val, k.val⟩ = false ∧ answers t ∧
        t.isSet ⟨TEVT m, k.val, k.val⟩ = true ∧ t.isSet ⟨TEVT m, k.val + 4, k.val + 4⟩ = true ∧
        RegsBut [CMP_LO m k.val, CMP_HI m k.val, TSTAT m, TEVT m] s t ∧ only t) ∧
    (tallyMayWrite r m s = true → m ≠ 120 ∨ k.val ≠ 0 →
      Completes (exec (.compareDisarm r n k w) s) fun t => t.isSet ⟨TSTAT m, k.val, k.val⟩ = false ∧ t.rd (CMP_CTL m k.val) = w &&& 0x7FE00000 ∧ answers t ∧
        RegsBut [CMP_CTL m k.val, TSTAT m] s t ∧ t = { s with csr := t.csr, tally := t.tally, answer := t.answer }) ∧
    (m = 120 → k.val = 0 → Completes (exec (.compareCommit r n k v) s) fun t =>
        t.answer = some { req := requesterCode r, status := .decode, data := 0 } ∧ t.rd64 (CMP_LO 120 0) = s.rd64 (CMP_LO 120 0) ∧
        t.rd (TSTAT 120) = s.rd (TSTAT 120) ∧ t.isSet (SUBSYS_STAT_DECODE_SEEN 12) = true) ∧
    (tallyMayWrite r m s = true → Completes (exec (.tallyCountWrite r n v inc) s) fun t =>
        t.rd64 (TCNT_LO m) = (if s.getF (TCFG_SRC m) = 3 then s.rd64 (TCNT_LO m) else v + inc.zeroExtend 64) ∧ answers t ∧
        RegsBut [TCNT_LO m, TCNT_HI m] s t ∧ t = { s with csr := t.csr, answer := t.answer }) ∧
    (s.clocksStopped = true → (List.range 128).all (fun i => i = m || !onAonPath s i) = true → onAonPath s m = true → s.isSet (TCFG_GATE_EN m) = false →
      s.getF (TSTAT_ARM m) = 0 → count + 30 < 2 ^ 64 →
      Completes (exec .tallyLfPeriod s) fun t => t.rd64 (TCNT_LO m) = s.rd64 (TCNT_LO m) + 30 ∧ t.now = s.now + 30 ∧ t.isSet (TEVT_LF_ACTIVE m) = true ∧
        RegsBut [TCNT_LO m, TCNT_HI m, TEVT m, TALLY_STAT] s t ∧ t = { s with csr := t.csr, now := t.now, tally := t.tally })

/-! ### Ports (spec/04) -/

/-- R104, R105, R109: the link states of a port, P, C or Z, and the events that move it, each with the event bit it raises while the port is
enabled; AN_EN holds a port in ACQUIRE until auto-negotiation has completed.
Readings of the model it may rest on: log entries 5, 30. -/
def Obligations.PortStates : Prop :=
  ∀ (s : State) (k : Fin 72),
    let i := k.val
    let st := s.portState i
    let stays (t : State) : Prop := t.cores = s.cores ∧ t.pos = s.pos ∧ t.tack = s.tack ∧ t.tally = s.tally ∧ t.brTx = s.brTx ∧ t.twin = s.twin ∧ t.hostMem = s.hostMem
    (st = 3 → portReason s i = none → Completes (exec (.portLos k none) s) fun t =>
      t.portState i = 0 ∧ t.isSet (PORT_STAT_SIGNAL i) = false ∧ t.isSet (PORT_STAT_LOCK i) = false ∧ t.getF (PORT_STAT_REASON i) = 6 ∧
      t.rd (PORT_EVT i) = s.rd (PORT_EVT i) ||| 6 ∧ (t.port i).anDone = false ∧ stays t) ∧
    (st = 3 → portReason s i = none → Completes (exec (.portLockLost k none) s) fun t =>
      t.portState i = 0 ∧ t.isSet (PORT_STAT_LOCK i) = false ∧ t.getF (PORT_STAT_REASON i) = 7 ∧ (t.port i).retry = true ∧
      t.rd (PORT_EVT i) = s.rd (PORT_EVT i) ||| 10 ∧ stays t) ∧
    (st = 2 → s.isSet (PORT_CFG_EN i) = true → Completes (exec (.portLockLost k none) s) fun t =>
      t.portState i = 1 ∧ t.isSet (PORT_STAT_LOCK i) = false ∧ t.rd (PORT_EVT i) = s.rd (PORT_EVT i) ||| 8 ∧ t.ports = s.ports ∧ t.mem = s.mem ∧ stays t) ∧
    (st = 0 → portReason (s.setF (PORT_STAT_SIGNAL i) 1) i = none → Completes (exec (.portEnterAcquire k) s) fun t =>
      t.portState i = 1 ∧ t.isSet (PORT_STAT_SIGNAL i) = true ∧ t.getF (PORT_STAT_REASON i) = 0 ∧ RegsBut [PORT_STAT i] s t ∧ t.mem = s.mem ∧ stays t) ∧
    (st = 1 → s.isSet (PORT_CFG_AN_EN i) = true → Completes (exec (.anComplete k) s) fun t =>
      (t.port i).anDone = true ∧ t = { s with ports := t.ports }) ∧
    (st = 1 → s.isSet (PORT_CFG_AN_EN i) = false ∨ (s.port i).anDone = true → i < 64 → Completes (exec (.portLockGained k) s) fun t =>
      t.portState i = 2 ∧ t.isSet (PORT_STAT_LOCK i) = true ∧ RegsBut [PORT_STAT i] s t ∧ t = { s with csr := t.csr }) ∧
    (st = 1 → s.isSet (PORT_CFG_AN_EN i) = false → 64 ≤ i → Completes (exec (.portLockGained k) s) fun t =>
      t.isSet (PORT_STAT_LOCK i) = true ∧ t.portState i = (if (s.zp (i - 64)).init then 2 else 1) ∧ t.outs.length = s.outs.length + 1 ∧
      t = { s with csr := t.csr, outs := t.outs, fab := t.fab }) ∧
    (st = 1 → s.isSet (PORT_CFG_AN_EN i) = true → (s.port i).anDone = false → Completes (exec (.portLockGained k) s) fun t => t = s) ∧
    (st = 2 → s.isSet (PORT_CFG_EN i) = true → Completes (exec (.portUpHoldExpiry k) s) fun t =>
      t.portState i = 3 ∧ t.rd (PORT_EVT i) = s.rd (PORT_EVT i) ||| 1 ∧ (t.port i).slaved = partnerOk t i ∧
      RegsIn (fun o => o ≠ PORT_STAT i && o ≠ PORT_EVT i && o / 2 ^ 24 ≠ 0x2A) s t ∧ t = { s with csr := t.csr, ports := t.ports, bell := t.bell, outs := t.outs }) ∧
    (portReason s i = some 7 → st = 0 → Completes (exec (.portLockRetryExpiry k) s) fun t =>
      (t.port i).retry = false ∧ t.getF (PORT_STAT_REASON i) = 0 ∧ t.portState i = 0 ∧ RegsBut [PORT_STAT i] s t ∧ t = { s with csr := t.csr, ports := t.ports })

/-- R93, R95, R100, R102, R109: conditions raise their event on the change to 1 and leave the state alone; FEC counts; the loss of a
reference brings the ports that it clocks DOWN; a partner that has returned is followed again.
Readings of the model it may rest on: log entries 5, 70. -/
def Obligations.PortConditions : Prop :=
  ∀ (s : State) (k : Fin 72) (j : Fin 64) (ref : Fin 4) (corrected uncorrectable : Nat),
    let i := k.val
    let only (t : State) (bit : Nat) : Prop := t.rd (PORT_EVT i) = s.rd (PORT_EVT i) ||| BitVec.ofNat 32 (2 ^ bit) ∧ t.portState i = s.portState i ∧
      RegsIn (fun o => o ≠ PORT_STAT i && o ≠ PORT_EVT i && o / 2 ^ 24 ≠ 0x2A && o / 2 ^ 24 ≠ 0x2F) s t ∧
      t = { s with csr := t.csr, bell := t.bell, outs := t.outs, ledger := t.ledger }
    let ends (t : State) (f : Fld) : Prop := t.isSet f = false ∧ t = s.setF f 0
    s.isSet (PORT_CFG_EN i) = true →
    (s.isSet (PORT_STAT_HIBER i) = false → Completes (exec (.portHiber k true) s) fun t => t.isSet (PORT_STAT_HIBER i) = true ∧ only t 4) ∧
    (s.isSet (PORT_STAT_HIBER i) = true → Completes (exec (.portHiber k false) s) fun t => ends t (PORT_STAT_HIBER i)) ∧
    (s.isSet (PORT_STAT_SD i) = false → Completes (exec (.portSd k true) s) fun t => t.isSet (PORT_STAT_SD i) = true ∧ only t 5) ∧
    (s.isSet (PORT_STAT_SD i) = true → Completes (exec (.portSd k false) s) fun t => ends t (PORT_STAT_SD i)) ∧
    (s.isSet (PORT_STAT_AIS_RX i) = false → Completes (exec (.portAisRx k true) s) fun t => t.isSet (PORT_STAT_AIS_RX i) = true ∧ only t 7) ∧
    (s.isSet (PORT_STAT_AIS_RX i) = true → Completes (exec (.portAisRx k false) s) fun t => ends t (PORT_STAT_AIS_RX i)) ∧
    (s.isSet (PORT_STAT_REMOTE i) = false → Completes (exec (.portRemote k true) s) fun t => t.isSet (PORT_STAT_REMOTE i) = true ∧ only t 8) ∧
    (s.isSet (PORT_STAT_REMOTE i) = true → Completes (exec (.portRemote k false) s) fun t => ends t (PORT_STAT_REMOTE i)) ∧
    (uncorrectable ≠ 0 → Completes (exec (.portFecUncorr k corrected uncorrectable) s) fun t =>
      t.rd64 (PORT_FEC_CORR_LO i) = s.rd64 (PORT_FEC_CORR_LO i) + BitVec.ofNat 64 corrected ∧
      t.getF (PORT_FEC_UNCORR_UNCORR i) = min (s.getF (PORT_FEC_UNCORR_UNCORR i) + uncorrectable) (2 ^ 32 - 1) ∧
      t.rd (PORT_EVT i) = s.rd (PORT_EVT i) ||| 64 ∧ t.portState i = s.portState i ∧ t = { s with csr := t.csr, bell := t.bell, outs := t.outs, ledger := t.ledger }) ∧
    (portReason s i = none → s.portUp i = true → i < 64 → s.getF (GRP_CFG_REFSEL (portGroup i)) = ref.val →
      Completes (exec (.portRefclk ref false) s) fun t => t.refLost = ref.val :: s.refLost ∧ t.portState i = 0 ∧ t.getF (PORT_STAT_REASON i) = 8 ∧
        t.cores = s.cores ∧ t.pos = s.pos ∧ t.tack = s.tack ∧ t.chans = s.chans) ∧
    (portReason s i = some 8 → s.portState i = 0 → i < 64 → s.getF (GRP_CFG_REFSEL (portGroup i)) = ref.val → s.isSet (PORT_STAT_SIGNAL i) = true →
      (s.port i).retry = false →
      Completes (exec (.portRefclk ref true) s) fun t => t.refLost = s.refLost.filter (· ≠ ref.val) ∧ t.portState i = 0 ∧ t.getF (PORT_STAT_REASON i) = 0 ∧
        t.cores = s.cores ∧ t.pos = s.pos ∧ t.tack = s.tack ∧ t.chans = s.chans) ∧
    (s.portUp j.val = true → partnerOk s j.val = true → Completes (exec (.partnerReturn j) s) fun t =>
      (t.port j.val).slaved = true ∧ t = { s with ports := t.ports })

/-! ### YFI commands (spec/14) -/

/-- R356: the position and port commands of YFI: each ends with OK and its response; a configuration command sets the registers its
argument names, raises the generation and enters the declared configuration; POS_HOST_ADJUST acts on the HOST source only.
Readings of the model it may rest on: log entry 72. -/
def Obligations.YfiLineResults : Prop :=
  ∀ (s : State) (m : Fin 16),
    let a := mbArg s m.val
    let g := at' a 0
    let adjusts := yfiReady s 0x0102 m.val && s.getF POS_CFG_SRC = 2 && zeroAt a [(1, 7)]
    (CfgReady s posConfigCmd m.val → Completes (exec (.posConfig m true) s) fun t =>
      CfgDone s t posConfigCmd m.val [] ∧ posCfg t = posArg a ∧ t.getF POS_CFG_QUAL = at' a 3 ∧ t.getF POS_HO_MAX_HO_MAX = le a 4 4 ∧
      t.getF POS_CFG_PPS_DIV = at' a 8 ∧ (posArg a = posCfg s ∨ t.isSet POS_STAT_PENDING = decide (posArg a ≠ s.pos.cur)) ∧ t.beat = s.beat ∧ t.cores = s.cores) ∧
    (adjusts = true → at' a 0 = 1 → le a 8 8 < 2 ^ 48 → s.getF POS_STAT_STATE ≠ 0 → beatBefore (posNear s) (BitVec.ofNat 48 (le a 8 8)) = true →
      Completes (exec (.posSetBeat m) s) fun t => MbDone s t m.val 0x0102 0 (leBytes 8 (le a 8 8)) ∧ t.beat = BitVec.ofNat 48 (le a 8 8) ∧
        t.isSet POS_EVT_STEP = true ∧ t.rd64 FAB_GEN_LO = s.rd64 FAB_GEN_LO ∧ t.cores = s.cores) ∧
    (adjusts = true → at' a 0 = 2 → (leInt a 8).natAbs ≤ 25600000 →
      Completes (exec (.posFreqOffset m) s) fun t => MbDone s t m.val 0x0102 0 (leBytes 8 s.beat.toNat) ∧ t.pos.hostOfs = leInt a 8 ∧
        t.pos.beatLen = ((50331648 : Int) * 256000000000 / (256000000000 + leInt a 8)).toNat ∧ t.beat = s.beat ∧ t.cores = s.cores) ∧
    (adjusts = true → at' a 0 = 3 → (leInt a 8).natAbs ≤ 65536 → (leInt a 8 + slewLeft s).natAbs ≤ 65536 →
      Completes (exec (.posPhaseStep m) s) fun t => MbDone s t m.val 0x0102 0 (leBytes 8 s.beat.toNat) ∧
        t.pos.slew = s.pos.slew - leInt a 8 * (s.pos.beatLen : Int) / 65536 ∧ t.beat = s.beat ∧ t.cores = s.cores) ∧
    (yfiReady s 0x0103 m.val = true → Completes (exec (.posGet m) s) fun t =>
      t.bytes (rspBuf m.val + 32) 8 = leBytes 8 s.stamp.toNat ∧ t.byte (rspBuf m.val + 40) = BitVec.ofNat 8 (s.getF POS_STAT_STATE) ∧
      t.byte (rspBuf m.val + 41) = BitVec.ofNat 8 (s.getF POS_CFG_SRC) ∧ t.ldLE (rspBuf m.val + 44) 4 = (s.rd POS_FREQ).toNat ∧
      t.getF (MB_STATUS_STATE m.val) = 3 ∧ t.getF (MB_STATUS_RESULT m.val) = 0 ∧ t.ldLE (rspBuf m.val + 4) 4 = 32 ∧
      BytesIn (fun x => x < rspBuf m.val || rspBuf m.val + 64 ≤ x) s t ∧ t = { s with csr := t.csr, mem := t.mem, outs := t.outs, ym := t.ym }) ∧
    (CfgReady s groupCmd m.val → Completes (exec (.portGroupConfig m true) s) fun t =>
      CfgDone s t groupCmd m.val [] ∧ t.getF (GRP_CFG_FAMILY g) = at' a 1 ∧ t.getF (GRP_CFG_REFSEL g) = at' a 2 ∧
      t.getF (GRP_LANEMAP_RX_MAP g) = le a 4 4 ∧ t.getF (GRP_LANEMAP_TX_MAP g) = le a 8 4 ∧ t.getF (GRP_POLARITY_RX_INV g) = at' a 12 ∧
      t.getF (GRP_POLARITY_TX_INV g) = at' a 13 ∧ t.isSet (GRP_CFG_MAP_BAD g) = false ∧ t.cores = s.cores ∧ t.pos = s.pos) ∧
    (CfgReady s portCmd m.val → Completes (exec (.portConfig m true) s) fun t =>
      CfgDone s t portCmd m.val [] ∧ t.getF (PORT_CFG_TYPE g) = at' a 1 ∧ t.getF (PORT_CFG_FEC g) = at' a 2 ∧ t.getF (PORT_CFG_EN g) = argBit a 3 0 ∧
      t.getF (PORT_CFG_AN_EN g) = argBit a 3 1 ∧ t.getF (PORT_TIMING_THROUGH g) = argBit a 3 2 ∧ t.getF (PORT_CFG_UP_HOLD g) = at' a 4 ∧
      t.getF (PORT_CFG_SD_THRESH g) = at' a 5 ∧ t.getF (PORT_TIMING_PARTNER g) = at' a 6 ∧ t.cores = s.cores ∧ t.pos = s.pos)

/-- R357, R359: the channel commands of YFI: CH_OPEN puts its block into the Stall and the open waits for its change beat, as the close and
the modification do; CH_GET answers; CH_CUSTOMER writes whole words.
Readings of the model it may rest on: log entries 31, 56, 72. -/
def Obligations.YfiChannelResults : Prop :=
  ∀ (s : State) (m : Fin 16),
    let a := mbArg s m.val
    let n := blkCh a
    let beat (o : Nat) : Nat := (changeBeat a o s).2.toNat
    (CfgReady s chOpenCmd m.val → Completes (exec (.chOpen m true) s) fun t =>
      CfgDone s t chOpenCmd m.val (leBytes 8 (beat 44)) ∧ t.changes = s.changes ++ [(BitVec.ofNat 48 (beat 44), .open n)] ∧ t.chState n = 0 ∧
      t.chMode n = at' a 2 ∧ t.getF (CH_CFG_EGRESS_PORT n) = at' a 4 ∧ t.getF (CH_CFG_CIPHER_PORT n) = at' a 5 ∧ t.chTwin n = decide (argBit a 3 0 = 1) ∧
      t.isSet (CH_CFG_KEY_HOST n) = decide (argBit a 3 1 = 1) ∧ t.rd (CH_BIND n) = BitVec.ofNat 32 (le a 8 4) ∧ t.rd (CH_TRIB n) = BitVec.ofNat 32 (le a 12 4) ∧
      t.rd64 (CH_SCI n 0) = BitVec.ofNat 64 (le a 16 8) ∧ t.rd (FRM_POL_LO n) = BitVec.ofNat 32 (le a 24 4) ∧
      t.rd (FRM_POL_HI n) = BitVec.ofNat 32 (le a 28 4) ∧ t.getF (CH_POLICY_MAX_LEN n) = le a 32 2 ∧ (t.chan n).epochLen = le a 40 4 ∧ t.cores = s.cores ∧ t.pos = s.pos) ∧
    (CfgReady s chCloseCmd m.val → Completes (exec (.chClose m true) s) fun t =>
      CfgDone s t chCloseCmd m.val (leBytes 8 (beat 8)) ∧ t.changes = s.changes ++ [(BitVec.ofNat 48 (beat 8), .close n)] ∧ t.chState n = 1 ∧
      t.chans = s.chans ∧ t.units = s.units ∧ t.cores = s.cores) ∧
    (CfgReady s chModifyCmd m.val → Completes (exec (.chModify m true) s) fun t =>
      CfgDone s t chModifyCmd m.val (leBytes 8 (beat 44)) ∧ t.chState n = 1 ∧ t.rd (CH_CFG n) = s.rd (CH_CFG n) ∧ t.chans = s.chans ∧ t.cores = s.cores ∧
      t.changes.take s.changes.length = s.changes ∧ (t.changes.drop s.changes.length).map (·.1) = [BitVec.ofNat 48 (beat 44)]) ∧
    (yfiReady s 0x0304 m.val = true → n < 512 → Completes (exec (.chGet m) s) fun t =>
      t.getF (MB_STATUS_STATE m.val) = 3 ∧ t.getF (MB_STATUS_RESULT m.val) = 0 ∧ t.ldLE (rspBuf m.val + 4) 4 = 64 ∧
      t.ldLE (rspBuf m.val + 32) 4 = (s.rd (CH_CFG n)).toNat ∧ t.ldLE (rspBuf m.val + 36) 4 = (s.rd (CH_STAT n)).toNat ∧
      t.ldLE (rspBuf m.val + 40) 4 = (s.rd (CH_EVT n)).toNat ∧ t.ldLE (rspBuf m.val + 64) 4 = (s.rd (KB_ROLES n 0)).toNat ∧
      t.ldLE (rspBuf m.val + 68) 4 = (s.rd (KB_EPOCH n 0)).toNat ∧ t.ldLE (rspBuf m.val + 80) 8 = (s.rd64 (CH_OUT_ASN_LO n)).toNat ∧
      t.ldLE (rspBuf m.val + 88) 8 = (s.rd64 (CH_IN_ASN_LO n)).toNat ∧ BytesIn (fun x => x < rspBuf m.val || rspBuf m.val + 96 ≤ x) s t ∧
      t = { s with csr := t.csr, mem := t.mem, outs := t.outs, ym := t.ym }) ∧
    (CfgReady s customerCmd m.val → le a 4 2 = 8 → Completes (exec (.chCustomer m true) s) fun t =>
      CfgDone s t customerCmd m.val [] ∧ t.rd (CH_CUST n (le a 2 2 / 4)) = BitVec.ofNat 32 (le a 8 4) ∧
      t.rd (CH_CUST n (le a 2 2 / 4 + 1)) = BitVec.ofNat 32 (le a 12 4) ∧ t.rd (CH_CFG n) = s.rd (CH_CFG n) ∧ t.chans = s.chans ∧ t.cores = s.cores)

/-- R123 to R126, R137, R172, R358, R359: the Gate, punt, frame and calendar commands of YFI.
Readings of the model it may rest on: log entries 56, 72. -/
def Obligations.YfiGateResults : Prop :=
  ∀ (s : State) (m : Fin 16),
    let a := mbArg s m.val
    let g := at' a 0
    let e := tblEntry a 0
    (CfgReady s gateLoadCmd m.val → Completes (exec (.gateLoad m true) s) fun t =>
      CfgDone s t gateLoadCmd m.val [] ∧ tblGet [] (2 * g + at' a 1) t.gateProg = gateArg a ∧
      t.isSet (if at' a 1 = 1 then GATE_BANK_VALID1 g else GATE_BANK_VALID0 g) = true ∧ t.rd (GATE_CFG g) = s.rd (GATE_CFG g) ∧
      t.gateExact = s.gateExact ∧ t.gateTern = s.gateTern ∧ t.cores = s.cores) ∧
    (CfgReady s gateTableCmd m.val → at' a 1 = 1 → at' e 0 = 0 → at' e 1 = 1 → Completes (exec (.gateTable m true) s) fun t =>
      CfgDone s t gateTableCmd m.val (leBytes 4 1) ∧
      tblGet [] g t.gateExact = (tblGet [] g s.gateExact).filter (fun y => !(y.tag = (tblGate e).tag && y.key = (tblGate e).key)) ++ [tblGate e] ∧
      t.getF (GATE_STAT_EXACT_USED g) = (tblGet [] g t.gateExact).length ∧ t.gateTern = s.gateTern ∧ t.gateProg = s.gateProg ∧ t.cores = s.cores) ∧
    (CfgReady s gateTableCmd m.val → at' a 1 = 1 → at' e 0 = 1 → at' e 1 = 1 → Completes (exec (.gateTable m true) s) fun t =>
      CfgDone s t gateTableCmd m.val (leBytes 4 1) ∧ (tblGet [] g t.gateTern).contains (tblGate e) = true ∧
      (tblGet [] g t.gateTern).filter (fun y => y.index ≠ (tblGate e).index) = (tblGet [] g s.gateTern).filter (fun y => y.index ≠ (tblGate e).index) ∧
      t.gateExact = s.gateExact ∧ t.gateProg = s.gateProg ∧ t.cores = s.cores) ∧
    (CfgReady s gateSwitchCmd m.val → Completes (exec (.gateSwitch m true) s) fun t =>
      CfgDone s t gateSwitchCmd m.val (leBytes 8 (changeBeat a 8 s).2.toNat) ∧
      t.changes = s.changes ++ [((changeBeat a 8 s).2, .gate g (at' a 1 + 256 * at' a 2))] ∧ t.rd (GATE_CFG g) = s.rd (GATE_CFG g) ∧ t.cores = s.cores) ∧
    (CfgReady s puntCmd m.val → Completes (exec (.puntQueue m true) s) fun t =>
      CfgDone s t puntCmd m.val [] ∧ (t.puntQ g).en = decide (argBit a 1 0 = 1) ∧ (t.puntQ g).descs = le a 2 2 ∧ (t.puntQ g).size = le a 4 4 ∧
      (t.puntQ g).ring = le a 8 8 ∧ (t.puntQ g).idx = le a 16 8 ∧ t.hostMem = s.hostMem ∧ t.cores = s.cores) ∧
    (yfiReady s 0x0309 m.val = true → zeroAt a [(1, 1), (4, 4)] = true → g < 32 → s.portFam g = 0 → s.portUp g = true →
      Completes (exec (.frameSend m) s) fun t => MbDone s t m.val 0x0309 0 (leBytes 8 s.stamp.toNat) ∧
        t.outs.contains (.frame g (slice a 8 (le a 2 2) ++ fcsOf (slice a 8 (le a 2 2)))) = true ∧ t.units = s.units ∧ t.chans = s.chans ∧ t.cores = s.cores) ∧
    (yfiReady s 0x0309 m.val = true → zeroAt a [(1, 1), (4, 4)] = true → 32 ≤ g → g < 64 → s.portFam g = 0 → s.portUp g = true →
      s.isSet (CELL_PORT_CFG_EN (g - 32)) = false → Completes (exec (.frameSend m) s) fun t =>
        t.clearTx = s.clearTx ++ [(g, m.val, slice a 8 (le a 2 2))] ∧ t.getF (MB_STATUS_STATE m.val) = 2 ∧
        t = { s with csr := t.csr, clearTx := t.clearTx } ∧ RegsBut [MB_STATUS m.val] s t) ∧
    (CfgReady s calendarCmd m.val → le a 14 2 = 2 → le a 12 2 = 0 → argBit a 3 2 = 0 → Completes (exec (.cellCalendar m true) s) fun t =>
      CfgDone s t calendarCmd m.val [] ∧ t.getF (CELL_CAL_ENTRY_EVEN g (at' a 1) 0) = le a 16 2 ∧ t.getF (CELL_CAL_ENTRY_ODD g (at' a 1) 0) = le a 18 2 ∧
      t.getF (if at' a 1 = 1 then CELL_PORT_CFG_LEN1 g else CELL_PORT_CFG_LEN0 g) = at' a 2 ∧
      (argBit a 3 1 = 0 ∨ t.getF (CELL_PORT_CFG_EN g) = argBit a 3 0) ∧ t.cores = s.cores)

/-- R228 to R231, R361 to R363, R533: the identity and key commands of YFI. What an unwrap or a certificate shows is outside the manual, so
each such command ends with the status either answer gives it.
Readings of the model it may rest on: log entries 11, 57, 63, 72. -/
def Obligations.YfiKeyResults : Prop :=
  ∀ (s : State) (m : Fin 16) (seed : Nat),
    let a := mbArg s m.val
    let k := at' a 0
    let n := le a 0 2
    let i := if s.isSet (KB_ROLES_SPARE_V n 0) then s.getF (KB_ROLES_SPARE_SLOT n 0) else (freeIndex s n).getD 0
    let free (x : Nat) : Bool := x ≤ s.getF LOFT_BUDGET_CFG_TOKENS
    let ends (t : State) (ok : Bool) : Prop := t.getF (MB_STATUS_STATE m.val) = 3 ∧ t.getF (MB_STATUS_RESULT m.val) = (if ok then 0 else 4) ∧
      t.cores = s.cores ∧ t.pos = s.pos
    (yfiReady s 0x0501 m.val = true → s.chans.all (fun e => !(s.chOpen e.1 && s.isSet (BR_CFG_EN e.1))) = true → kek0Ok s = true → s.noRandom = false →
      free 330 = true → Completes (exec (.idGenerate m false true) s) fun t =>
        t.tack.idSeed = beBytes 32 (Config.freeValue s.draws) ∧ t.tack.idPub = bytesOf 2592 (Config.mldsaPub t.tack.idSeed) ∧
        MbDone s t m.val 0x0501 0 (sha t.tack.idPub) ∧ t.isSet TR_STAT_ID_VALID = true ∧ t.isSet TR_STAT_ZEROISED = false ∧ t.tack.certOk = false ∧
        t.getF LOFT_BUDGET_CFG_TOKENS = s.getF LOFT_BUDGET_CFG_TOKENS - 330 ∧ t.draws = s.draws + 1 ∧ t.tack.keks = s.tack.keks ∧ t.cores = s.cores) ∧
    (yfiReady s 0x0502 m.val = true → s.isSet TR_STAT_ID_VALID = true → a.length ≤ 4064 → free ((a.length + 7) / 8 + 1) = true →
      Completes (exec (.idCert m true) s) fun t => ends t (Config.certHolds a s.tack.idPub) ∧
        t.tack = (if Config.certHolds a s.tack.idPub then { s.tack with cert := a, certOk := true } else s.tack)) ∧
    (yfiReady s 0x0503 m.val = true → k = 0 → s.isSet TR_STAT_ID_VALID = true → s.tack.idPub.length = 2592 →
      Completes (exec (.idGetKey m) s) fun t => MbDone s t m.val 0x0503 0 s.tack.idPub ∧ t.tack = s.tack ∧ t.cores = s.cores) ∧
    (yfiReady s 0x0503 m.val = true → k = 1 → s.tack.cert ≠ [] → s.tack.cert.length ≤ 4064 →
      Completes (exec (.idGetCert m) s) fun t => MbDone s t m.val 0x0503 0 s.tack.cert ∧ t.tack = s.tack ∧ t.cores = s.cores) ∧
    (yfiReady s 0x0504 m.val = true → keysReady s = true → zeroAt a [(2, 6)] = true → 1 ≤ k → k ≤ 15 → kekUsable s (at' a 1) = true → engineOk s 0 = true →
      free 5 = true → Completes (exec (.kekInstall m true) s) fun t =>
        ends t (unwrap (s.kek (at' a 1)) (slice a 8 40)).isSome ∧ t.kek k = (unwrap (s.kek (at' a 1)) (slice a 8 40)).getD (s.kek k) ∧
        t.tack.slots = s.tack.slots ∧ t.tack.pairs = s.tack.pairs) ∧
    (yfiReady s 0x0505 m.val = true → keysReady s = true → s.noRandom = false → 1 ≤ k → k ≤ 15 → at' a 1 = 0 →
      Completes (exec (.kekKemOffer m false) s) fun t => ends t true ∧ t.tack = { s.tack with kemPair := some (k, Config.freeValue s.draws) } ∧
        t.ldLE (rspBuf m.val + 4) 4 = 4064 ∧ t.bytes (rspBuf m.val + 32) 1568 = bytesOf 1568 (Config.mlkemPub (Config.freeValue s.draws))) ∧
    (yfiReady s 0x0505 m.val = true → keysReady s = true → 1 ≤ k → k ≤ 15 → at' a 1 = 1 → s.tack.kemPair = some (k, seed) →
      Completes (exec (.kekKemOfferPart1 m) s) fun t => MbDone s t m.val 0x0505 0 ((kemSignature s k seed).drop 2496) ∧ t.tack = s.tack ∧ t.cores = s.cores) ∧
    (s.tack.kemPair = some (k, seed) → Completes (exec .kekKemPairExpiry s) fun t => t.tack.kemPair = none ∧
      t = { s with tack := { s.tack with kemPair := none } }) ∧
    (yfiReady s 0x0506 m.val = true → keysReady s = true → zeroAt a [(1, 7)] = true → 1 ≤ k → k ≤ 15 → s.tack.kemPair = some (k, seed) →
      engineOk s 0 = true → engineOk s 1 = true → free 5 = true → Completes (exec (.kekKemFinish m true) s) fun t => ends t true ∧ t.tack.kemPair = none ∧
        t.kek k = kdf (bytesOf 32 (Config.mlkemDecSecret seed (slice a 8 1568))) (ascii "DZ8512 kek" ++ [BitVec.ofNat 8 k]) 32 ∧
        kekValid t k = true ∧ t.tack.slots = s.tack.slots) ∧
    (yfiReady s 0x0507 m.val = true → keysReady s = true → zeroAt a [(4, 4)] = true → k ≤ 31 → at' a 1 ≤ 1 → 1 ≤ at' a 2 → at' a 2 ≤ 15 → at' a 3 ≤ 1 →
      s.chans.all (fun e => !(s.chOpen e.1 && s.isSet (BR_CFG_EN e.1) && s.getF (BR_CFG_PAIR e.1) = k)) = true → engineOk s 0 = true → free 12 = true →
      Completes (exec (.pairInstall m true) s) fun t => ends t (unwrap (s.kek (at' a 2)) (slice a 8 40)).isSome ∧
        tblGet none k t.tack.pairs = ((unwrap (s.kek (at' a 2)) (slice a 8 40)).map (fun v =>
          some { secret := v, roleB := at' a 1 = 1, mate := at' a 3 = 1, hash := slice a 48 48 })).getD (tblGet none k s.tack.pairs) ∧
        t.tack.keks = s.tack.keks) ∧
    (yfiReady s 0x0508 m.val = true → keyInstallBad a s = 0 → at' a 3 = 0 → engineOk s 0 = true → nextLocked s n = false →
      s.isSet (KB_ROLES_SPARE_V n 0) = true ∨ (freeIndex s n).isSome = true → Completes (exec (.keyInstall m true) s) fun t =>
        ends t (unwrap (s.kek (at' a 2)) (slice a 24 56)).isSome ∧
        ((unwrap (s.kek (at' a 2)) (slice a 24 56)).isNone = true ∨ (t.isSet (KB_ROLES_NEXT_V n 0) = true ∧ t.isSet (KB_ROLES_NEXT_V n 1) = true ∧
          t.getF (KB_ROLES_NEXT_SLOT n 0) = i ∧ t.getF (KB_ROLES_NEXT_SLOT n 1) = i ∧ t.isSet (KB_ROLES_SPARE_V n 0) = false ∧
          (t.slot (slotOf n i)).kind = 2 ∧ (t.slot (slotOf n i)).epoch = nextEpoch s n ∧ (t.slot (slotOf n i)).keyId = slice a 8 16 ∧
          (t.slot (slotOf n i)).bytes = ((unwrap (s.kek (at' a 2)) (slice a 24 56)).getD []).take 46))) ∧
    (yfiReady s 0x0509 m.val = true → n < 512 → at' a 2 = 0 → s.isSet TR_CFG_EXPORT_EN = true → s.isSet (KB_ROLES_CUR_V n 0) = true →
      (s.slot (slotOf n (s.getF (KB_ROLES_CUR_SLOT n 0)))).kind ≠ 0 → kekUsable s (at' a 3) = true → engineOk s 0 = true →
      Completes (exec (.keyExport m) s) fun t => MbDone s t m.val 0x0509 0 (wrap (s.kek (at' a 3))
        (slice (s.slot (slotOf n (s.getF (KB_ROLES_CUR_SLOT n 0)))).bytes 0 46 ++ [0, 0])) ∧ t.tack = s.tack ∧ t.cores = s.cores) ∧
    (CfgReady s keyPolicyCmd m.val → Completes (exec (.keyPolicy m true) s) fun t => CfgDone s t keyPolicyCmd m.val [] ∧
      t.getF TR_CFG_EXPORT_EN = k ∧ t.getF TR_CFG_PERSIST_MIN = le a 2 2 ∧ t.tack = s.tack ∧ t.cores = s.cores) ∧
    (yfiReady s 0x050B m.val = true → n < 512 → s.hwKeys n = true → s.brUp n = true → (s.chan n).br.exch = none → (s.chan n).swOut = none →
      (s.chan n).swIn = none → nextLocked s n = false → (s.chTwin n && s.isFollower) = false → engineOk s 1 = true → engineOk s 2 = true →
      s.isSet (KB_ROLES_SPARE_V n 0) = true ∨ (freeIndex s n).isSome = true → Completes (exec (.keyRekey m) s) fun t =>
        MbDone s t m.val 0x050B 0 (leBytes 4 (nextEpoch s n)) ∧ (t.chan n).br.exch = some (freshExch (nextEpoch s n) true) ∧
        (t.chan n).beginOut = s.beat ∧ t.getF (BR_STAT_EXCH n) = 1 ∧ t.getF (BR_STAT_TRIES n) = 0 ∧ t.getF (KB_ROLES_SPARE_SLOT n 0) = i ∧ t.cores = s.cores)

/-- R272, R302, R312, R315, R330, R364: the Bridle, Twin and fabric commands of YFI. A TWIN_BIND with EN = 1 stays in progress until the pair is
bound.
Readings of the model it may rest on: log entry 72. -/
def Obligations.YfiLinkResults : Prop :=
  ∀ (s : State) (m : Fin 16),
    let a := mbArg s m.val
    let n := le a 0 2
    (CfgReady s bridleConfigCmd m.val → Completes (exec (.bridleConfig m true) s) fun t => CfgDone s t bridleConfigCmd m.val [] ∧
      t.getF (BR_CFG_EN n) = argBit a 2 0 ∧ t.getF (BR_CFG_DOWN_MUTE n) = argBit a 2 1 ∧ t.getF (BR_CFG_PAIR n) = at' a 3 ∧
      t.getF (BR_CFG_PROBE_INT n) = at' a 4 ∧ t.getF (BR_CFG_PEER_CH n) = le a 6 2 ∧ t.getF (BR_TIMING_DELAY_TOL n) = le a 8 2 ∧
      t.chans = s.chans ∧ t.cores = s.cores) ∧
    (yfiReady s 0x0602 m.val = true → n < 512 → at' a 3 = 0 → s.isSet (CH_CFG_BRIDLE_HOST n) = true → at' a 2 = 0x0C ∨ at' a 2 = 0x0D → s.brUp n = true →
      (s.rd (BR_TX_SEQ n 0)).toNat + 1 < 2 ^ 32 → s.chTwin n = false → Completes (exec (.bridleSend m) s) fun t =>
        MbDone s t m.val 0x0602 0 (leBytes 4 ((s.rd (BR_TX_SEQ n 0)).toNat + 1)) ∧ t.rd (BR_TX_SEQ n 0) = s.rd (BR_TX_SEQ n 0) + 1 ∧
        t.rd64 (BR_CNT n 0) = s.rd64 (BR_CNT n 0) + 1 ∧ t.brTx.take s.brTx.length = s.brTx ∧
        (t.brTx.drop s.brTx.length).map (fun x => (x.ch, x.lane, x.sent)) = [(n, 1, 0)] ∧ t.chans = s.chans ∧ t.cores = s.cores) ∧
    (CfgReady s twinBindCmd m.val → argBit a 0 0 = 1 → Completes (exec (.twinBind m true) s) fun t =>
      t.getF (MB_STATUS_STATE m.val) = 2 ∧ t.ym.bindBox = some m.val ∧ t.getF TW_STAT_STATE = 1 ∧ t.twin.since = s.now ∧ t.isSet TW_CFG_EN = true ∧
      t.getF TW_CFG_ROLE = argBit a 0 2 ∧ t.getF TW_CFG_MY_PATH = argBit a 0 3 ∧ t.getF TW_CFG_TLINKS = at' a 1 ∧ t.getF TW_CFG_MATE_ID = le a 2 2 ∧
      t.getF MERGE_CFG_MAX_DIFF = le a 4 2 ∧ t.rd64 FAB_GEN_LO = s.rd64 FAB_GEN_LO + 1 ∧ t.cores = s.cores) ∧
    (CfgReady s twinBindCmd m.val → argBit a 0 0 = 0 → Completes (exec (.twinBind m true) s) fun t => CfgDone s t twinBindCmd m.val [0] ∧
      t.getF TW_STAT_STATE = 0 ∧ t.isSet TW_CFG_EN = false ∧ t.getF TW_CFG_TLINKS = at' a 1 ∧ t.getF TW_CFG_MATE_ID = le a 2 2 ∧ t.cores = s.cores) ∧
    (CfgReady s fabConfigCmd m.val → Completes (exec (.fabConfig m true) s) fun t => CfgDone s t fabConfigCmd m.val [] ∧
      t.getF FAB_CFG_EN = argBit a 0 0 ∧ t.getF FAB_CFG_VOTER = argBit a 0 1 ∧ t.getF FAB_CFG_CAST_MODE = argBit a 0 2 ∧
      t.getF FAB_CFG_MASTER_PRI = at' a 1 ∧ t.getF FAB_CFG_CAST_ID = le a 2 2 ∧ t.getF FAB_CFG_POS_MASTER_ID = le a 4 2 ∧
      t.getF FAB_ID_LOFT_ID = le a 6 2 ∧ t.getF FAB_ID_LOFT_ID_EN = argBit a 0 3 ∧ t.cores = s.cores) ∧
    (CfgReady s fabRightsCmd m.val → Completes (exec (.fabRights m true) s) fun t => CfgDone s t fabRightsCmd m.val [] ∧
      t.getF ⟨FAB_RIGHTS (n / 8), 4 * (n % 8) + 3, 4 * (n % 8)⟩ = at' a 2 ∧
      RegsIn (fun o => o ≠ FAB_RIGHTS (n / 8) && 0x2700A000 ≤ o && o < 0x2700A200) s t ∧ t.cores = s.cores) ∧
    (CfgReady s fabCustodyCmd m.val → Completes (exec (.fabCustody m true) s) fun t => CfgDone s t fabCustodyCmd m.val [] ∧
      custody t n = (List.range (at' a 2)).map (fun i => le a (4 + 2 * i) 2) ∧ t.isSet (FAB_LEASE_CAND n) = (custody t n).contains t.devId ∧ t.cores = s.cores) ∧
    (CfgReady s fabForwardCmd m.val → Completes (exec (.fabForward m true) s) fun t => CfgDone s t fabForwardCmd m.val [] ∧
      t.getF (FAB_FWD_FWD_EN n) = argBit a 2 0 ∧ t.getF (FAB_FWD_ROLE n) = argBit a 2 1 ∧ t.getF (FAB_FWD_FWD_OUT n) = argBit a 2 2 ∧
      t.getF (FAB_FWD_REMOTE_PORT n) = at' a 3 ∧ t.getF (FAB_FWD_PEER_DEV n) = le a 4 2 ∧ t.getF (FAB_FWD_PEER_CH n) = le a 6 2 ∧
      t.getF (FAB_FWD_MASK_FWD_MASK n) = le a 8 4 ∧ t.getF (FAB_FWD_LEN_FWD_LEN n) = le a 12 2 ∧ t.cores = s.cores)

/-- R365, R366, R482, R515, R517, R537, R542, R552: the Dray, memory, Bell, power, Loft, Farrier and Yardmaster commands of YFI, and the
DZ4256 command INFO on mailbox 15.
Readings of the model it may rest on: log entries 60, 69, 72. -/
def Obligations.YfiSystemResults : Prop :=
  ∀ (s : State) (m : Fin 16),
    let a := mbArg s m.val
    let k := at' a 0
    let o := le a 4 4
    let code := le a 0 2
    let go := (clearNamed s code).filter (fun c => !causeHolds s c)
    let last := if s.ym.tagged.contains 15 then s.rd64 (MB_TAG_LO 15) else s.rd64 (MB_WM_LO 15)
    (CfgReady s draySplitCmd m.val → Completes (exec (.draySplit m true) s) fun t => CfgDone s t draySplitCmd m.val [] ∧
      (List.range 32).all (fun i => t.isSet (DRAY_CTL_CUST i) = maskBit (le a 0 4) i) = true ∧ t.cores = s.cores) ∧
    (yfiReady s 0x0902 m.val = true → zeroAt a [(1, 3), (12, 4)] = true → k ≤ 31 → s.isSet (DRAY_CTL_CUST k) = true → o % 8 = 0 →
      o + le a 8 4 ≤ 0x80000 → a.length = 16 + le a 8 4 → coreRuns s k = false → s.shedOn (k / 2) = true → s.isSet (DRAY_STAT_LM_READY k) = true →
      confinedHit (s.core k) o (le a 8 4) = false → Completes (exec (.drayLoad m) s) fun t => MbDone s t m.val 0x0902 0 [] ∧
        t.bytes (lmBase k + o) (le a 8 4) = slice a 16 (le a 8 4) ∧
        BytesIn (fun x => (x < lmBase k + o || lmBase k + o + le a 8 4 ≤ x) && (x < rspBuf m.val || rspBuf m.val + 32 ≤ x)) s t ∧
        t = { s with csr := t.csr, mem := t.mem, outs := t.outs, ym := t.ym }) ∧
    (CfgReady s drayControlCmd m.val → at' a 1 = 0 → Completes (exec (.drayControlStop m true) s) fun t =>
      CfgDone s t drayControlCmd m.val (zeros 48) ∧ t.isSet (DRAY_CTL_RUN k) = false ∧ t.pos = s.pos ∧ t.chans = s.chans) ∧
    (CfgReady s drayControlCmd m.val → at' a 1 = 1 → s.isSet (DRAY_STAT_LM_READY k) = true → s.isSet (DRAY_CTL_RUN k) = false →
      Completes (exec (.drayControlStart m true) s) fun t => CfgDone s t drayControlCmd m.val (lmHash s k) ∧ t.isSet (DRAY_CTL_RUN k) = true ∧
        t.coreState k = 2 ∧ (t.core k).pc = o ∧ t.getF (DRAY_ENTRY_ENTRY k) = o / 8 ∧ (t.core k).confined = (s.core k).confined ∧ t.chans = s.chans) ∧
    (CfgReady s memApertureCmd m.val → Completes (exec (.memAperture m true) s) fun t => CfgDone s t memApertureCmd m.val [] ∧
      t.getF HOST_WIN_AP_EN = k ∧ t.getF HOST_WIN_COMPAT_EN = s.getF HOST_WIN_COMPAT_EN ∧ t.cores = s.cores) ∧
    (CfgReady s bellHostDbCmd m.val → Completes (exec (.bellHostDb m true) s) fun t => CfgDone s t bellHostDbCmd m.val [] ∧
      t.bell.hostDb = decide (k = 1) ∧ t.cores = s.cores) ∧
    (CfgReady s shedSetCmd m.val → s.ym.shedBox = none → Completes (exec (.shedSet m true) s) fun t =>
      t.getF PWR_SHED_REQ_ON = le a 0 4 ∧ t.rd64 FAB_GEN_LO = s.rd64 FAB_GEN_LO + 1 ∧
      (List.range 32).all (fun i => !(s.shedOn i && !maskBit (le a 0 4) i) || t.shedState i = 1) = true ∧
      t.ym.shedBox = (if shedsSettled t then none else some m.val) ∧
      t.getF (MB_STATUS_STATE m.val) = (if shedsSettled t then 3 else 2) ∧ t.pos = s.pos) ∧
    (yfiReady s 0x0D02 m.val = true → zeroAt a [(1, 3)] = true → k ≤ 31 → s.shedOn k = true → Completes (exec (.shedReset m) s) fun t =>
      MbDone s t m.val 0x0D02 0 [] ∧ t.shedState k = 1 ∧ t.power.resets = s.power.resets ++ [k] ∧ t.pos = s.pos ∧ t.tack = s.tack) ∧
    (CfgReady s loftBudgetCmd m.val → Completes (exec (.loftBudget m true) s) fun t => CfgDone s t loftBudgetCmd m.val [] ∧
      t.getF LOFT_BUDGET_CFG_RATE = loftRate (le a 0 4) ∧ t.getF LOFT_BUDGET_CFG_TOKENS ≤ 60 * loftRate (le a 0 4) ∧ t.cores = s.cores) ∧
    (yfiReady s 0x0E02 m.val = true → Completes (exec (.loftGet m) s) fun t => MbDone s t m.val 0x0E02 0 (loftGetBytes s) ∧
      t = { s with csr := t.csr, mem := t.mem, outs := t.outs, ym := t.ym }) ∧
    (CfgReady s farrierCmd m.val → Completes (exec (.farrierConfig m true) s) fun t => CfgDone s t farrierCmd m.val [] ∧
      t.getF FARR_CFG_RAIL_EN = argBit a 0 0 ∧ t.getF FARR_CFG_DRAY_EN = argBit a 0 1 ∧ t.getF FARR_CFG_SCRUB_EN = argBit a 0 2 ∧
      t.getF FARR_CFG_SERDES_EN = argBit a 0 3 ∧ t.getF FARR_CFG_MARGIN_MV = le a 2 2 ∧ t.cores = s.cores) ∧
    (yfiReady s 0x1001 m.val = true → Completes (exec (.info m) s) fun t => MbDone s t m.val 0x1001 0 (infoBytes s) ∧
      t = { s with csr := t.csr, mem := t.mem, outs := t.outs, ym := t.ym }) ∧
    (CfgReady s ledgerConfigCmd m.val → Completes (exec (.ledgerConfig m true) s) fun t => CfgDone s t ledgerConfigCmd m.val [] ∧
      t.getF LEDGER_CFG_MODE = at' a 0 ∧ t.getF LEDGER_CFG_FN_MASK = at' a 1 ∧ 2 ^ t.getF LEDGER_CFG_LOG2_SIZE = le a 4 4 ∧
      t.getF LEDGER_CFG_THRESH = s.getF LEDGER_CFG_THRESH ∧ t.ledger.hostRing = le a 8 8 ∧ t.ledger.hostIdx = le a 16 8 ∧ t.cores = s.cores) ∧
    (CfgReady s ledgerReactionCmd m.val → Completes (exec (.ledgerReaction m true) s) fun t => CfgDone s t ledgerReactionCmd m.val [] ∧
      t.getF (LEDGER_FSTATE_REACTION code) = at' a 2 ∧ t.cores = s.cores) ∧
    (yfiReady s 0x1004 m.val = true → Completes (exec (.faultClear m) s) fun t =>
      MbDone s t m.val 0x1004 (if go.length < (clearNamed s code).length then 5 else 0) (leBytes 4 go.length) ∧
      faultTable.all (fun e => t.isSet (LEDGER_FSTATE_RAISED e.1) = (s.isSet (LEDGER_FSTATE_RAISED e.1) && !go.contains e.1) &&
        (!go.contains e.1 || t.getF (LEDGER_FSTATE_HITS e.1) = 0)) = true ∧ t.cores = s.cores ∧ t.tack = s.tack) ∧
    (CfgReady s statsModeCmd m.val → Completes (exec (.statsMode m true) s) fun t => CfgDone s t statsModeCmd m.val [] ∧
      t.ym.statsHost = decide (k = 1) ∧ t.ym.statsMs = le a 2 2 ∧ t.cores = s.cores) ∧
    (CfgReady s compatConfigCmd m.val → Completes (exec (.compatConfig m true) s) fun t => CfgDone s t compatConfigCmd m.val [] ∧
      t.getF HOST_WIN_COMPAT_EN = k ∧ t.getF (MB_STATUS_COMPAT 15) = k ∧ t.getF HOST_WIN_AP_EN = s.getF HOST_WIN_AP_EN ∧ t.cores = s.cores) ∧
    (s.isSet HOST_WIN_COMPAT_EN = true → served s = true → s.getF (MB_STATUS_STATE 15) ≠ 1 → s.getF (MB_STATUS_STATE 15) ≠ 2 →
      last.toNat + 1 < 2 ^ 64 → last.toNat + 1 ≤ (s.rd64 (MB_WM_LO 15)).toNat → Completes (exec (.compatCommand 1 [[]] true) s) fun t =>
        t.getF (MB_STATUS_STATE 15) = 3 ∧ t.getF (MB_STATUS_RESULT 15) = 0 ∧ t.rd64 (MB_TAG_LO 15) = last + 1 ∧ t.ldLE (rspBuf 15) 2 = 0x1001 ∧
        t.ldLE (rspBuf 15 + 8) 8 = last.toNat + 1 ∧ t.bytes (rspBuf 15 + 32) 32 = infoBytes s ∧ t.cores = s.cores ∧ t.chans = s.chans)

/-! ### Ledger and Farrier (spec/22, spec/23) -/

/-- R508 to R513, R521: the events of the ledger: a report taken, a window closed, a record written to the ring of Paddock, the consumer
index written or read, the copy of a change of mode, an injected report.
Readings of the model it may rest on: log entry 59. -/
def Obligations.LedgerResults : Prop :=
  ∀ (s : State) (u : Nat) (r : Report) (x : Record) (l : List Record) (q : Requester) (v : Word),
    let due := s.ledger.co.filter (fun e => s.beatDue e.endBeat)
    let host := leVal (hostRead s (s.ledger.hostIdx + 4) 4)
    let slot (n : Nat) : Nat := ringBase + n % ringPad * 32
    let inj := injReport (s.wr LEDGER_INJ (v &&& 0x03FFFFFF))
    (s.ledger.stuck = [] → nextReport s = some (u, r) → s.getF (LEDGER_FSTATE_REACTION r.code) ≤ 1 → s.ledger.co.any (fun e => e.origin = r.origin && e.code = r.code) = false →
      s.ledger.fifo.length ≤ 54 → s.ledger.co.length < 32 → Completes (exec .ledgerReport s) fun t =>
        tblGet [] u t.ledger.queues = (tblGet [] u s.ledger.queues).erase r ∧ t.isSet (LEDGER_FSTATE_RAISED r.code) = true ∧
        t.getF (LEDGER_FSTATE_HITS r.code) = min 65535 (s.getF (LEDGER_FSTATE_HITS r.code) + (1 + r.merged)) ∧
        t.ledger.fifo = s.ledger.fifo ++ recordOf r (1 + r.merged) false :: contOf r ∧
        t.ledger.co = s.ledger.co ++ [{ origin := r.origin, code := r.code, endBeat := (r.stamp >>> 16).truncate 48 + 1024, count := 0, last := r }] ∧
        t = { s with csr := t.csr, ledger := t.ledger, bell := t.bell, outs := t.outs }) ∧
    (s.ledger.fifo.length + 2 * due.length ≤ 56 → Completes (exec .coalesceWindowClose s) fun t =>
      t.ledger.co = s.ledger.co.filter (fun e => !s.beatDue e.endBeat) ∧
      t.ledger.fifo = s.ledger.fifo ++ (due.filter (fun e => e.count ≠ 0)).flatMap (fun e => recordOf e.last e.count true :: contOf e.last) ∧
      t = { s with csr := t.csr, ledger := t.ledger, bell := t.bell, outs := t.outs }) ∧
    (s.isSet LEDGER_STAT_MOVING = false → s.isSet LEDGER_CFG_MODE = false → NothingOwed s → s.ledger.fifo = x :: l → s.ledger.stuck = [] →
      ringHeld s < ringReserve s → Completes (exec (.ringWrite false) s) fun t => t.ledger.fifo = l ∧ t.bytes (slot (ringWr s)) 32 = recordBytes x ∧
        ringWr t = (ringWr s + 1) % 2 ^ 32 ∧ ringRd t = ringRd s ∧ t.getF LEDGER_STAT_USED = ringHeld t ∧
        BytesIn (fun b => b < slot (ringWr s) || slot (ringWr s) + 32 ≤ b) s t ∧ t.pos = s.pos ∧ t.chans = s.chans) ∧
    (s.isSet LEDGER_CFG_MODE = false → NothingOwed s → (ringWr s + 2 ^ 32 - v.toNat) % 2 ^ 32 ≤ ringHeld s →
      Completes (exec (.ledgerRdWrite q v) s) fun t => t.answer = some { req := requesterCode q, status := .ok, data := 0 } ∧ ringRd t = v.toNat ∧
        ringWr t = ringWr s ∧ t.getF LEDGER_STAT_USED = min 65536 (ringHeld t) ∧ t = { s with csr := t.csr, bell := t.bell, outs := t.outs, answer := t.answer }) ∧
    (s.isSet LEDGER_CFG_MODE = false → NothingOwed s → ringHeld s < (ringWr s + 2 ^ 32 - v.toNat) % 2 ^ 32 →
      Completes (exec (.ledgerRdWrite q v) s) fun t => t.isSet LEDGER_STAT_RD_BAD = true ∧ ringRd t = ringRd s ∧ RegsBut [LEDGER_STAT] s t ∧
        t = { s with csr := t.csr, answer := t.answer }) ∧
    (s.isSet LEDGER_CFG_MODE = true → s.power.pcie = true → NothingOwed s → (ringWr s + 2 ^ 32 - host) % 2 ^ 32 ≤ ringHeld s →
      Completes (exec .hostRdPoll s) fun t => ringRd t = host % 2 ^ 32 ∧ ringWr t = ringWr s ∧ t = { s with csr := t.csr, bell := t.bell, outs := t.outs }) ∧
    (s.isSet LEDGER_STAT_MOVING = true → s.isSet LEDGER_CFG_MODE = false → s.ledger.oldHost = true → NothingOwed s → ringHeld s ≤ ringPad →
      Completes (exec .ledgerModeCopyDone s) fun t => t.isSet LEDGER_STAT_MOVING = false ∧ ringRd t = ringRd s ∧ ringWr t = ringWr s ∧
        (List.range (ringHeld s)).all (fun i => t.bytes (slot (ringRd s + i)) 32 =
          hostRead s (s.ledger.oldRing + (ringRd s + i) % 2 ^ 32 % s.ledger.oldSize * 32) 32) = true ∧ t.pos = s.pos ∧ t.chans = s.chans) ∧
    (s.power.ftm = true → Completes (exec (.ledgerInject q v) s) fun t => t.answer = some { req := requesterCode q, status := .ok, data := 0 } ∧
      t.rd LEDGER_INJ = v &&& 0x03FFFFFF ∧
      tblGet [] unitLedger t.ledger.queues = (if fldGet 31 31 v = 1 ∧ faultClass inj.code ≠ 0 then (queueReport (tblGet [] unitLedger s.ledger.queues) inj).1
        else tblGet [] unitLedger s.ledger.queues) ∧ t = { s with csr := t.csr, ledger := t.ledger, answer := t.answer }) ∧
    (s.power.ftm = false → Completes (exec (.ledgerInject q v) s) fun t => t = s.decodeFault q LEDGER_INJ)

/-- R524 to R533: the tests of the Farrier: passes counted, a failing rail withdrawn and recorded, engines taken out, cores stopped, late
targets named, margins shown, and random numbers stopped.
Readings of the model it may rest on: log entry 5. -/
def Obligations.FarrierResults : Prop :=
  ∀ (s : State) (r b : Fin 40) (e : Fin 3) (k : Fin 32) (c : Fin 6) (n : Nat) (l : Fin 80) (v h : BitVec 12) (last : Bool),
    let pass := tblGet 0 r.val s.railPass
    let seen (t : State) (cls i : Nat) : Prop := t.lateTargets = s.lateTargets.filter (· ≠ (cls, i))
    (railMayTest s r.val = true → pass + 1 < 96 → Completes (exec (.railTestStep r false) s) fun t => tblGet 0 r.val t.railPass = pass + 1 ∧
      t = { s with railPass := t.railPass }) ∧
    (railMayTest s r.val = true → 96 ≤ pass + 1 → Completes (exec (.railTestStep r false) s) fun t => tblGet 0 r.val t.railPass = 0 ∧
      t.getF FARR_PASSES_PASSES = min (2 ^ 32 - 1) (s.getF FARR_PASSES_PASSES + 1) ∧ t.untested = s.untested.filter (· ≠ r.val) ∧
      t.urgentRails = s.urgentRails.filter (· ≠ r.val) ∧ seen t 0 r.val ∧ (s.untested.contains r.val = false ∨ t.isSet (railOutBit r.val) = false) ∧
      t = { s with csr := t.csr, railPass := t.railPass, urgentRails := t.urgentRails, untested := t.untested, lateTargets := t.lateTargets }) ∧
    (railMayTest s r.val = true → Completes (exec (.railTestStep r true) s) fun t => tblGet 0 r.val t.railPass = 0 ∧ t.isSet (railOutBit r.val) = true ∧
      t.urgentRails = s.urgentRails.filter (· ≠ r.val) ∧ Reports s t unitRails 0x0402 noPath r.val ∧ t.untested = s.untested ∧
      t = { s with csr := t.csr, railPass := t.railPass, urgentRails := t.urgentRails, ledger := t.ledger, bell := t.bell, outs := t.outs }) ∧
    (r ≠ b → r.val / 20 = b.val / 20 → Completes (exec (.fillCellCompare r b true) s) fun t => tblGet 0 r.val t.railPass = 0 ∧ tblGet 0 b.val t.railPass = 0 ∧
      t.urgentRails.contains r.val = true ∧ t.urgentRails.contains b.val = true ∧ Reports s t unitRails 0x0403 noPath (r.val + b.val * 256) ∧
      t = { s with csr := t.csr, railPass := t.railPass, urgentRails := t.urgentRails, ledger := t.ledger, bell := t.bell, outs := t.outs }) ∧
    (Completes (exec (.fillCellCompare r b false) s) fun t => t = s) ∧
    (s.isSet FARR_CFG_RAIL_EN = true → Completes (exec (.engineTestStep e false) s) fun t => seen t 1 e.val ∧ t = { s with lateTargets := t.lateTargets }) ∧
    (s.isSet FARR_CFG_RAIL_EN = true → Completes (exec (.engineTestStep e true) s) fun t => engineOk t e.val = false ∧
      Reports s t unitFarrier 0x0F03 noPath e.val ∧ t = { s with csr := t.csr, engineOut := t.engineOut, ledger := t.ledger, bell := t.bell, outs := t.outs }) ∧
    (coverageOwed s 2 k.val = true → s.coreState k.val = 3 → Completes (exec (.draySelftestStep k true false) s) fun t => seen t 2 k.val ∧
      t = { s with lateTargets := t.lateTargets }) ∧
    (coverageOwed s 2 k.val = true → s.coreState k.val = 3 → Completes (exec (.draySelftestStep k last true) s) fun t =>
      t.isSet (DRAY_CTL_RUN k.val) = false ∧ Reports s t unitFarrier 0x0F02 noPath k.val ∧ t.lateTargets = s.lateTargets ∧ t.pos = s.pos ∧ t.chans = s.chans) ∧
    (coverageOwed s c.val n = true → Completes (exec (.coverageLate c n) s) fun t => t.isSet ⟨FARR_STAT, c.val, c.val⟩ = true ∧
      t.lateTargets = (c.val, n) :: s.lateTargets.filter (· ≠ (c.val, n)) ∧ Reports s t unitFarrier 0x0F01 noPath (c.val + n % 65536 * 256) ∧
      t = { s with csr := t.csr, lateTargets := t.lateTargets, ledger := t.ledger, bell := t.bell, outs := t.outs }) ∧
    (coverageOwed s 5 l.val = true → s.getF FARR_CFG_MARGIN_MV ≤ v.toNat → Completes (exec (.marginMeasure l v h) s) fun t =>
      t.getF (FARR_MARGIN_V_MV l.val) = v.toNat ∧ t.getF (FARR_MARGIN_H_MUI l.val) = h.toNat ∧ seen t 5 l.val ∧
      t = { s with csr := t.csr, lateTargets := t.lateTargets }) ∧
    (coverageOwed s 5 l.val = true → v.toNat < s.getF FARR_CFG_MARGIN_MV → lanePort s l.val = some n → n < 72 → Completes (exec (.marginMeasure l v h) s) fun t =>
      t.getF (FARR_MARGIN_V_MV l.val) = v.toNat ∧ t.getF (FARR_MARGIN_H_MUI l.val) = h.toNat ∧ seen t 5 l.val ∧ t.isSet ⟨PORT_EVT n, 10, 10⟩ = true ∧
      t.pos = s.pos ∧ t.chans = s.chans ∧ t.ports = s.ports) ∧
    (Completes (exec (.entropySample true) s) fun t => t = s) ∧
    (Completes (exec (.entropySample false) s) fun t => t.noRandom = true ∧ Reports s t unitFarrier 0x0F05 noPath 0 ∧
      t = { s with csr := t.csr, noRandom := t.noRandom, ledger := t.ledger, bell := t.bell, outs := t.outs })

/-! ### Sheds, sleep, resets, boot and clocks (spec/24) -/

/-- R482, R483, R537, R539 to R543: the life of a shed, and sleep: a mask committed or refused by PWR_SHED_REQ, a drain that ends, power that
rises and fails, a reset and its end, clocks stopped, an edge latched while they stand, and their restart.
Readings of the model it may rest on: log entries 5, 60, 61. -/
def Obligations.ShedResults : Prop :=
  ∀ (s : State) (r : Requester) (v : Word) (k : Fin 32) (j st : Nat) (level : Bool),
    let ok : Option Answer := some { req := requesterCode r, status := .ok, data := 0 }
    let on (i : Nat) : Bool := s.shedOn i || s.power.resets.contains i
    (isLeader s r = true → shedRefusal s v.toNat = none → Completes (exec (.pwrShedReqWrite r v) s) fun t => t.answer = ok ∧ t.rd PWR_SHED_REQ = v ∧
      (List.range 32).all (fun i => t.shedState i = (if s.shedOn i && !maskBit v.toNat i then 1 else s.shedState i)) = true ∧
      t.power.want = (List.range 32).filter (fun i => maskBit v.toNat i && !on i) ∧ t.pos = s.pos ∧ t.chans = s.chans ∧ t.cores = s.cores) ∧
    (isLeader s r = true → shedRefusal s v.toNat = some (j, st) → Completes (exec (.pwrShedReqWrite r v) s) fun t => t.answer = ok ∧
      t.isSet PWR_EVT_REQ_REFUSED = true ∧ t.getF PWR_EVT_REF_SHED = j % 32 ∧ t.getF PWR_EVT_REF_KIND = (if st = 8 then 1 else 0) ∧ RegsBut [PWR_EVT] s t ∧
      t = { s with csr := t.csr, answer := t.answer }) ∧
    (s.shedState k.val = 1 → s.power.resets.contains k.val = false → shedDrained s k.val = true → Completes (exec (.shedDrainDone k) s) fun t =>
      (List.range 32).all (fun i => t.shedState i = (if i = k.val then 0 else s.shedState i)) = true ∧ t.isSet PWR_EVT_SHED_OFF = true ∧
      (16 ≤ k.val ∨ (t.core (2 * k.val) = { Core.reset with farSeq := (s.core (2 * k.val)).farSeq } ∧ t.isSet (DRAY_STAT_LM_READY (2 * k.val)) = false ∧
        t.isSet (DRAY_CTL_RUN (2 * k.val)) = false)) ∧ t.power = s.power ∧ t.pos = s.pos ∧ t.chans = s.chans) ∧
    (s.power.rising = none → s.power.want.find? (fun i => s.shedState i = 0) = some j → s.power.last.all (fun x => x + 37500 ≤ s.now) = true →
      Completes (exec .shedPowerUp s) fun t => t = { s with power := { s.power with rising := some j, last := some s.now } }) ∧
    (s.power.rising = some k.val → Completes (exec .shedPowerGood s) fun t => t.shedState k.val = 2 ∧ t.isSet PWR_EVT_SHED_ON = true ∧
      t.power.rising = none ∧ t.power.want = s.power.want.filter (· ≠ k.val) ∧
      (k.val < 16 ∨ 24 ≤ k.val ∨ (groupRails (k.val - 16)).all (fun i => t.untested.contains i) = true) ∧ t.pos = s.pos ∧ t.tack = s.tack) ∧
    (s.power.rising = some k.val → Completes (exec .pwrShedFail s) fun t => t.isSet ⟨PWR_SHED_REQ, k.val, k.val⟩ = false ∧ t.isSet PWR_EVT_SHED_FAIL = true ∧
      t.power.rising = none ∧ t.power.want = s.power.want.filter (· ≠ k.val) ∧ t.rd64 PWR_SHED_STAT_LO = s.rd64 PWR_SHED_STAT_LO ∧
      Reports s t unitPower 0x0D02 noPath k.val ∧ t.cores = s.cores ∧ t.pos = s.pos ∧ t.chans = s.chans) ∧
    (isLeader s r = true → Completes (exec (.pwrShedRstWrite r v) s) fun t => t.answer = ok ∧
      (List.range 32).all (fun i => t.shedState i = (if s.shedOn i && maskBit v.toNat i then 1 else s.shedState i)) = true ∧
      t.power.resets = s.power.resets ++ (List.range 32).filter (fun i => s.shedOn i && maskBit v.toNat i) ∧ t.pos = s.pos ∧ t.tack = s.tack) ∧
    (s.power.resets.contains k.val = true → maskBit (s.getF PWR_SHED_REQ_ON) k.val = true → Completes (exec (.shedResetEnd k) s) fun t =>
      t.shedState k.val = 2 ∧ t.power.resets = s.power.resets.filter (· ≠ k.val) ∧ t.isSet PWR_EVT_SHED_ON = true ∧ t.pos = s.pos ∧ t.tack = s.tack) ∧
    (maySleep s = true → s.power.asleep = false → Completes (exec .sleepEntry s) fun t => t.power = { s.power with asleep := true } ∧
      t.isSet TALLY_STAT_LF_NOW = (List.range 128).any (onAonPath s) ∧ RegsBut [TALLY_STAT] s t ∧ t = { s with power := t.power, csr := t.csr }) ∧
    (s.clocksStopped = true → j < 1023 → Completes (exec (.wakeLatchCapture j level) s) fun t => tblGet false j t.bell.inputs = level ∧
      t.isSet (SRC_CFG_LATCHED j) = (s.isSet (SRC_CFG_LATCHED j) || (bellHasLatch j && bellCatches s j (tblGet false j s.bell.inputs) level)) ∧
      RegsBut [SRC_CFG j, PWR_EVT] s t ∧ t = { s with csr := t.csr, bell := { s.bell with inputs := t.bell.inputs } }) ∧
    (s.power.asleep = true → Completes (exec .wake s) fun t => t.power = { s.power with asleep := false } ∧ t.getF POS_STAT_STATE = 0 ∧
      t.isSet POS_STAT_SRC_OK = false ∧ t.isSet TALLY_STAT_LF_NOW = false ∧ t.pos.miss = 0 ∧ t.pos.beatLen = nominalBeat s.pos.cur.cls ∧ t.beat = s.beat ∧
      t.cores = s.cores ∧ t.chans = s.chans ∧ t.mem = s.mem)

/-- R215, R240, R459, R516, R534, R544 to R550, R552, R553, R563: resets, boot, the writes of the Loft, clocks, SMBus and JTAG. A word whose
three verifications fail holds its old value, its new one, or cannot be read.
Readings of the model it may rest on: log entries 2, 5, 62, 63, 65. -/
def Obligations.ResetResults : Prop :=
  ∀ (s : State) (n : Fin 8) (e : LoftWrite) (q : List LoftWrite) (fails : Nat) (code : BitVec 8) (addr : BitVec 7) (balls : List (String × Bool)) (x : Bool),
    let wears : List Nat := [LOFT_WEAR_LO, LOFT_WEAR_HI, LOFT_WEAR_MAX_LO, LOFT_WEAR_MAX_LO + 4, LOFT_WEAR_MAX_IDX]
    let inLoft (a : Nat) : Bool := loftBase ≤ a && a < loftBase + 0x40000
    let reset (t : State) (cause : Nat) : Prop := t.rd PWR_RESET_CAUSE = BitVec.ofNat 32 cause ∧
      RegsBut ([PWR_RESET_CAUSE, LEDGER_STAT] ++ wears) State.reset t ∧ BytesIn inLoft s t ∧ BytesIn (fun a => !inLoft a) State.reset t ∧
      t.wear = s.wear ∧ t.hostMem = s.hostMem ∧ t.pos = State.reset.pos ∧ t.cores = State.reset.cores ∧ t.chans = State.reset.chans ∧ t.units = [] ∧
      t.bell = State.reset.bell ∧ t.ledger = State.reset.ledger ∧ t.twin = State.reset.twin ∧ t.fab = State.reset.fab ∧ t.config = State.reset.config ∧
      t.loftQ = [] ∧ t.power.boot = 0 ∧ t.power.pcie = false ∧ t.ym = State.reset.ym ∧ t.tack.slots = State.reset.tack.slots ∧ t.tack.keks = State.reset.tack.keks
    let pcie (b : Bool) : State := { s with power := { s.power with pcie := b } }
    let drives (b : Nat) : State := { s with power := { s.power with balls := b } }
    let balled : State := { drives 1 with outs := (s.power.boundary.map (fun b => Output.pin b.1 b.2)).reverse ++ s.outs }
    let word (i : Nat) (t : State) : Prop := t.loftWord i = s.loftWord i + 1 ∧ BytesIn (fun a => a < loftBase + 8 * i || loftBase + 8 * i + 8 ≤ a) s t ∧
      tblGet 0 i t.wear = tblGet 0 i s.wear + 1 ∧ t = { s with csr := t.csr, mem := t.mem, wear := t.wear, loftBad := t.loftBad, loftWarned := t.loftWarned, ledger := t.ledger }
    (Completes (exec .porst s) fun t => reset t 1) ∧
    (Completes (exec .brownout s) fun t => reset t 4) ∧
    (Completes (exec .wrst s) fun t => t.rd PWR_RESET_CAUSE = 2 ∧ t.loftQ = s.loftQ ∧ t.ym.tried = s.ym.tried ∧ t.ym.fwReady = false ∧ t.power.boot = 0 ∧
      t.isSet YM_ARB_HELD = false ∧ t.cores = State.reset.cores ∧ t.chans = State.reset.chans ∧ t.pos = State.reset.pos ∧ t.tack.slots = State.reset.tack.slots ∧
      BytesIn inLoft s t ∧ BytesIn (fun a => !inLoft a) State.reset t ∧ t.wear = s.wear ∧ t.hostMem = s.hostMem ∧
      (List.range 1023).all (fun i => t.isSet (SRC_CFG_LATCHED i) = (bellHasLatch i && s.isSet (SRC_CFG_LATCHED i))) = true) ∧
    (Completes (exec .perst s) fun t => t = pcie false) ∧
    (2 ≤ s.power.boot → Completes (exec .pcieLinkUp s) fun t => t = pcie true) ∧
    (Completes (exec .pcieLinkDown s) fun t => t = pcie false) ∧
    (s.power.boot = 0 → s.loftBad = [] → (s.loftWord 1).toNat % 2 = 0 → Completes (exec .bootStart s) fun t => t.power = { s.power with boot := 1 } ∧
      t.getF YM_EPOCH_EPOCH = (s.loftWord 2).toNat % 2 ^ 32 ∧ t.getF FAB_ID_LOFT_ID = (s.loftWord 3).toNat % 1024 ∧
      t.isSet TR_CFG_EXPORT_EN = decide ((s.loftWord 29).toNat % 2 = 1) ∧ t.isSet TR_STAT_ZEROISED = decide ((s.loftWord 1).toNat / 2 % 2 = 1) ∧
      (List.range 16).all (fun m => t.rd64 (MB_WM_LO m) = s.loftWord (13 + m)) = true ∧ t = { s with csr := t.csr, power := t.power }) ∧
    (s.power.boot = 1 → s.power.resets = [] → s.rd64 PWR_SHED_STAT_LO = 0 → s.tack.zeroLow = false → s.tack.zeroVault = false →
      s.isSet TR_STAT_ERASE_PEND = false → Completes (exec .corePllLock s) fun t => t.power.boot = 2 ∧ t.isSet TR_STAT_SK_OK = true ∧
        t.rd PWR_SHED_REQ = 0x00FF0FFF ∧ t.power.want = List.range 12 ++ (List.range 8).map (· + 16) ∧
        Reports s t unitPower 0x0D03 noPath (s.rd PWR_RESET_CAUSE).toNat ∧ t.cores = s.cores ∧ t.pos = s.pos ∧ t.chans = s.chans) ∧
    (s.power.boot = 2 → s.isSet FARR_STAT_POST_FAIL = false → s.isSet YM_ARB_HELD = true → shedsSettled s = true → Completes (exec (.fwReady none) s) fun t =>
      t.power.boot = 3 ∧ t.ym.fwReady = true ∧ t.isSet FARR_STAT_POST_DONE = true ∧ t.isSet HOST_EVT_FW_READY = true ∧
      (List.range 64).all (fun b => t.getF (PADK_OWNER_OWNER b) = 40 + b / 8) = true ∧
      [508, 509, 510].all (fun b => t.getF (PADK_OWNER_OWNER b) = 32 + s.getF YM_ARB_HOLDER) = true ∧ t.getF (PADK_OWNER_OWNER 511) = 33 - s.getF YM_ARB_HOLDER ∧
      (List.range 8).all (fun i => t.isSet (DRAY_CTL_CUST (24 + i))) = true ∧ t.cores = s.cores ∧ t.pos = s.pos) ∧
    (s.power.boot = 2 → s.isSet FARR_STAT_POST_FAIL = false → Completes (exec (.fwReady (some n)) s) fun t => t.isSet FARR_STAT_POST_FAIL = true ∧
      t.power = s.power ∧ Reports s t unitFarrier 0x0F04 noPath n.val ∧ t = { s with csr := t.csr, ledger := t.ledger, bell := t.bell, outs := t.outs }) ∧
    (loftNext s.loftQ = some (e, q) → e.word < 0x8000 → fails < 3 → Completes (exec (.loftWriteDone fails) s) fun t => t.loftQ = q ∧
      t.loftWord e.word = e.value ∧ tblGet 0 e.word t.wear = tblGet 0 e.word s.wear + fails + 1 ∧ t.loftBad = s.loftBad.filter (· ≠ e.word) ∧
      BytesIn (fun a => inLoft a && (a < loftBase + 8 * e.word || loftBase + 8 * e.word + 8 ≤ a)) s t ∧ t.cores = s.cores ∧ t.pos = s.pos) ∧
    (loftNext s.loftQ = some (e, q) → e.word < 0x8000 → 3 ≤ fails → e.wait = .plain → Completes (exec (.loftWriteDone fails) s) fun t => t.loftQ = q ∧
      (t.loftWord e.word = s.loftWord e.word ∨ t.loftWord e.word = e.value) ∧ t.isSet LOFT_STAT_VFAIL = true ∧ tblGet 0 e.word t.wear = tblGet 0 e.word s.wear + 3 ∧
      BytesIn (fun a => a < loftBase + 8 * e.word || loftBase + 8 * e.word + 8 ≤ a) s t ∧ t.cores = s.cores ∧ t.pos = s.pos ∧ t.chans = s.chans) ∧
    (Completes (exec .loftBudgetRefill s) fun t => t.getF LOFT_CNT_YFI_1S = 0 ∧
      t.getF LOFT_BUDGET_CFG_TOKENS = min (s.getF LOFT_BUDGET_CFG_TOKENS + s.getF LOFT_BUDGET_CFG_RATE) (60 * s.getF LOFT_BUDGET_CFG_RATE) ∧
      RegsBut [LOFT_BUDGET_CFG, LOFT_CNT] s t ∧ t = { s with csr := t.csr }) ∧
    (s.sysLost = false → Completes (exec .refclkSysLost s) fun t => t.sysLost = true ∧ s.liveChans.all (fun c => t.muted c) = true ∧
      t.isSet PWR_EVT_REFCLK_LOST = true ∧ t.pos = s.pos ∧ t.cores = s.cores ∧ t.chans = s.chans) ∧
    (s.sysLost = true → Completes (exec .refclkSysRelock s) fun t => t.sysLost = false ∧ t.ledger = { s.ledger with mutes := s.ledger.mutes.filter (fun m => m.2 ≠ .refclk) } ∧
      t = { s with csr := t.csr, sysLost := t.sysLost, ledger := t.ledger }) ∧
    (Completes (exec .thermalExcursion s) (word 31)) ∧
    (Completes (exec .powerOnHours s) (word 30)) ∧
    (addr = 0x5D → Completes (exec (.smbusBlockRead addr code) s) fun t =>
      t = s.emit (.smbus (if code = 1 then infoBytes s else if code = 2 then loftGetBytes s else []))) ∧
    (Completes (exec (.jtagInstruction .bypass) s) fun t => t = drives 0) ∧
    (Completes (exec (.jtagInstruction .idcode) s) fun t => t = (drives 0).emit (.jtag 0xB8512A6B)) ∧
    (Completes (exec (.jtagInstruction (.samplePreload balls)) s) fun t => t = { drives 0 with power := { (drives 0).power with boundary := balls } }) ∧
    (Completes (exec (.jtagInstruction .extest) s) fun t => t = balled) ∧
    (Completes (exec (.jtagInstruction .clamp) s) fun t => t = balled) ∧
    (Completes (exec (.jtagInstruction .extestPulse) s) fun t => t = balled) ∧
    (Completes (exec (.jtagInstruction .extestTrain) s) fun t => t = balled) ∧
    (s.power.ftm = false → Completes (exec (.jtagInstruction .scan) s) fun t => t = drives 0) ∧
    (s.power.ftm = false → Completes (exec (.jtagInstruction .memoryBist) s) fun t => t = drives 0) ∧
    (s.power.ftm = false → Completes (exec (.jtagInstruction (.debugStop x)) s) fun t => t = drives 0) ∧
    (s.power.ftm = true → Completes (exec (.jtagInstruction (.debugStop true)) s) fun t => t = { s with power := { s.power with stopped := true } }) ∧
    (Completes (exec (.jtagInstruction .highz) s) fun t => t = drives 2) ∧
    (Completes (exec (.factoryTestMode x) s) fun t => t = { s with power := { s.power with ftm := x && Config.ftmFuse } })

/-! ### Yardmasters, host windows and configuration (spec/12, spec/13) -/

/-- R326, R327, R334 to R347: the token granted, released, lost and kept; the standby's digest; a doorbell answered; a BAR2 access; a member's
configuration command committed at the master, and a configuration pulled.
Readings of the model it may rest on: log entries 52, 53, 55, 67, 68. -/
def Obligations.YardResults : Prop :=
  ∀ (s : State) (y : Fin 2) (w : Bool) (d : BitVec 128) (m : Fin 16) (o : Nat) (n : Fin 9) (l : List Byte) (c : CfgCmd) (x : FabMsg) (rest : List FabMsg) (p : Pulled),
    let e := max (tokenEpoch s) s.ym.tried + 1
    let noLeader (t : State) (b : Bool) : Prop := t.isSet YM_ARB_HELD = !b ∧ t.isSet HOST_LEAD_LEADER_VALID = !b ∧
      (List.range 16).all (fun i => t.isSet (MB_STATUS_NO_LEADER i) = b) = true
    let unit (i : Nat) : Nat := if i = 0 then unitYmE else unitYmW
    let standby := 1 - s.getF YM_ARB_HOLDER
    let differs : Report := { stamp := s.stamp, origin := s.origin (unit standby), code := 0x1003, path := noPath, data := BitVec.ofNat 128 (be (cfgDigest s) 0 16), cont := some d, inj := false, merged := 0 }
    let ready (i : Nat) : Fld := if i = 0 then YM_ARB_READY_E else YM_ARB_READY_W
    let tag := mbTag s m.val
    let st := s.getF (MB_STATUS_STATE m.val)
    let rings := s.ym.fwReady && decide (st ≠ 1) && decide (st ≠ 2) && decide (m.val ≠ 15) && !s.isSet (MB_STATUS_NO_LEADER m.val) &&
      decide (mbLen s m.val ≤ 4072) && yfiLenOk (mbOp s m.val) (mbLen s m.val) (mbArg s m.val) &&
      decide ((if s.ym.tagged.contains m.val then s.rd64 (MB_TAG_LO m.val) else s.rd64 (MB_WM_LO m.val)).toNat < tag)
    let a := slice x.body 14 (be x.body 12 2)
    let k := be p.raw 0 2
    let records := pieceRecords p.raw.length (p.raw.drop (2 + 16 * k))
    (s.isSet YM_ARB_HELD = false → tokenNext s = some w → Completes (exec (.tokenGrant true) s) fun t => noLeader t false ∧ t.isSet YM_ARB_HOLDER = w ∧
      t.getF YM_EPOCH_EPOCH = e % 2 ^ 32 ∧ t.getF YM_EPOCH_HI_EPOCH_HI = e / 2 ^ 32 % 2 ^ 32 ∧ t.loftWord 2 = BitVec.ofNat 64 e ∧ t.ym.tried = e ∧
      t.ym.held = [] ∧ t.ym.alive = s.now ∧ t.clearTx = [] ∧ t.isSet HOST_EVT_LEAD_CHANGE = true ∧ t.cores = s.cores ∧ t.chans = s.chans ∧ t.pos = s.pos) ∧
    (s.isSet YM_ARB_HELD = false → tokenNext s = some w → Completes (exec (.tokenGrant false) s) fun t => t.ym = { s.ym with tried := e } ∧
      t.isSet YM_ARB_HELD = false ∧ Reports s t unitLoft 0x0E04 noPath 16 ∧ t = { s with csr := t.csr, ym := t.ym, ledger := t.ledger }) ∧
    (isHolder s y.val = true → Completes (exec (.tokenRelease y) s) fun t => noLeader t true ∧ t = { s with csr := t.csr }) ∧
    (isHolder s y.val = true → Completes (exec (.aliveWrite y) s) fun t => t = { s with ym := { s.ym with alive := s.now } }) ∧
    (s.isSet YM_ARB_HELD = true → s.ym.alive + wdogTicks s ≤ s.now → Completes (exec .watchdogExpiry s) fun t => noLeader t true ∧
      Reports s t (unit (s.getF YM_ARB_HOLDER)) 0x1001 noPath (s.getF YM_ARB_HOLDER) ∧ t = { s with csr := t.csr, ledger := t.ledger }) ∧
    (Completes (exec (.readyClear y) s) fun t => t.isSet (YM_CTL_READY y.val) = false ∧ t.isSet (ready y.val) = false ∧
      t.isSet YM_ARB_HELD = (s.isSet YM_ARB_HELD && !isHolder s y.val) ∧ t.isSet (YM_CTL_REQUEST y.val) = s.isSet (YM_CTL_REQUEST y.val) ∧ t = { s with csr := t.csr }) ∧
    (s.isSet YM_ARB_HELD = true → d.toNat = be (cfgDigest s) 0 16 → Completes (exec (.ymDigestCompare d) s) fun t =>
      t.isSet (YM_CTL_READY standby) = true ∧ t.isSet (ready standby) = true ∧ t.isSet YM_ARB_HELD = true ∧ t = { s with csr := t.csr }) ∧
    (s.isSet YM_ARB_HELD = true → d.toNat ≠ be (cfgDigest s) 0 16 → Completes (exec (.ymDigestCompare d) s) fun t =>
      t.isSet (YM_CTL_READY standby) = false ∧ t.isSet (ready standby) = false ∧ t.isSet YM_ARB_HELD = true ∧
      tblGet [] (unit standby) t.ledger.queues = (queueReport (tblGet [] (unit standby) s.ledger.queues) differs).1 ∧ t = { s with csr := t.csr, ledger := t.ledger }) ∧
    (s.isSet YM_ARB_HELD = true → s.isSet HOST_LEAD_STANDBY_READY = false → Completes (exec .ymNoStandby s) fun t =>
      Reports s t (unit (s.getF YM_ARB_HOLDER)) 0x1004 noPath 0 ∧ t = { s with csr := t.csr, ledger := t.ledger }) ∧
    (rings = true → tag ≤ (s.rd64 (MB_WM_LO m.val)).toNat → Completes (exec (.mailboxRing m true) s) fun t => t.getF (MB_STATUS_STATE m.val) = 1 ∧
      t.getF (MB_STATUS_RESULT m.val) = 0 ∧ t.isSet (MB_EVT_ACCEPTED m.val) = true ∧ t.rd64 (MB_TAG_LO m.val) = BitVec.ofNat 64 tag ∧
      t.ym.tagged.contains m.val = true ∧ t.mem = s.mem ∧ t = { s with csr := t.csr, ym := t.ym, outs := t.outs }) ∧
    (rings = true → (s.rd64 (MB_WM_LO m.val)).toNat < tag → 1 ≤ s.getF LOFT_BUDGET_CFG_TOKENS → Completes (exec (.mailboxRing m true) s) fun t =>
      t.getF (MB_STATUS_STATE m.val) = 1 ∧ t.rd64 (MB_TAG_LO m.val) = BitVec.ofNat 64 tag ∧ t.rd64 (MB_WM_LO m.val) = BitVec.ofNat 64 (tag + 2 ^ 20) ∧
      t.loftWord (13 + m.val) = BitVec.ofNat 64 (tag + 2 ^ 20) ∧ t.getF LOFT_BUDGET_CFG_TOKENS = s.getF LOFT_BUDGET_CFG_TOKENS - 1 ∧ t.cores = s.cores) ∧
    (s.power.pcie = true → s.isSet HOST_WIN_AP_EN = true → o < 0x4000000 → (padBanks o n.val).all (padMayRead s .host) = true →
      (padLines o n.val).all (fun i => tblGet false i s.padWritten) = true → (wordsOf o n.val).all (fun i => !s.eccBad.contains i) = true →
      Completes (exec (.hostBar2Access o n none 0) s) fun t => Answered t .host .ok (BitVec.ofNat 64 (leVal (s.bytes o n.val))) ∧ RegsBut [PADK_BUSY] s t ∧
        t = { s with csr := t.csr, answer := t.answer }) ∧
    (s.power.pcie = true → s.isSet HOST_WIN_AP_EN = true → o < 0x4000000 → l ≠ [] → (padBanks o l.length).all (padMayWrite s .host) = true →
      Completes (exec (.hostBar2Access o n (some l) 0) s) fun t => Answered t .host .ok 0 ∧ t.bytes o l.length = l ∧
        BytesIn (fun b => b < o || o + l.length ≤ b) s t ∧ RegsBut [PADK_BUSY] s t ∧
        t = { s with csr := t.csr, mem := t.mem, padWritten := t.padWritten, eccBad := t.eccBad, cores := t.cores, answer := t.answer }) ∧
    (s.fab.inq = x :: rest → x.typ = 6 → at' x.body 0 = 0x10 → cfgSubmits.find? (fun c => c.op = be x.body 2 2) = some c → s.isSet FAB_CFG_EN = true →
      s.isSet FAB_STAT_IS_MASTER = true → s.isSet FAB_STAT_QUORUM = true → be x.body 4 8 = 0 ∨ be x.body 4 8 = s.gen →
      Completes (exec .cfgCommandAtMaster s) fun t => t.fab.inq = rest ∧ t.rd64 FAB_GEN_LO = s.rd64 FAB_GEN_LO + 1 ∧
        t.config = (cfgRecords c x.src a).foldl (fun u e => tblSet [] e.1 e.2 u) s.config ∧ t.now = s.now) ∧
    (s.fab.pulled = some p → p.whole = true → Completes (exec .cfgPullDone s) fun t => t.fab.pulled = none ∧
      (if recDigest records = p.digest then t.config = records.foldl (fun u e => tblSet [] e.1 e.2 u) [] ∧ t.rd64 FAB_GEN_LO = BitVec.ofNat 64 p.gen ∧
        t.isSet FAB_CFG_STAT_PULLING = false ∧ t.isSet FAB_CFG_STAT_DIVERGE = false else t = { s with fab := { s.fab with pulled := none } }))

/-! ### Bell and Paddock (spec/19, spec/20) -/

/-- R473 to R485: an input of a source, takes, finishes, doorbells, the freeze and its end, the end of a hold-off.
Readings of the model it may rest on: log entry 5. -/
def Obligations.BellResults : Prop :=
  ∀ (s : State) (n t : Nat) (lvl : Bool) (r : Requester) (v : Word),
    let old := tblGet false n s.bell.inputs
    let sense := bellSense s n
    let next : Bool := if sense ≤ 1 then (if bellActive s n then bellPend s n else lvl == decide (sense = 0))
      else bellPend s n || (sense = 2 && !old && lvl) || (sense = 3 && old && !lvl) || (sense = 4 && old != lvl)
    let lines := bellTargets.map TGT_STAT
    let best := bellBest s t
    let f := fldGet 9 0 v
    let home := s.getF (SRC_CFG_HOME f)
    let live := s.isSet BELL_FREEZE_FREEZE = false
    let only (u : State) : Prop := u = { s with csr := u.csr, bell := u.bell, outs := u.outs, answer := u.answer }
    (s.clocksStopped = false → live → bellReserved n = false → Completes (exec (.sourceEvent n lvl) s) fun u => bellPend u n = next ∧
      bellActive u n = bellActive s n ∧ tblGet false n u.bell.inputs = lvl ∧ RegsBut (BELL_PEND (n / 32) :: lines) s u ∧ only u) ∧
    (s.clocksStopped = true → Completes (exec (.sourceEvent n lvl) s) fun u => u = { s with bell := { s.bell with inputs := tblSet false n lvl s.bell.inputs } }) ∧
    (bellTargetOf r = some t → live → best ≠ 0 → Completes (exec (.tgtTake r t) s) fun u => Answered u r .ok (0x80000000 ||| BitVec.ofNat 64 best) ∧
      bellPend u best = false ∧ bellActive u best = true ∧ u.getF (SRC_CFG_TAKER best) = t ∧ u.isSet (TGT_STAT_HOLDING t) = (s.isSet (TGT_STAT_HOLDING t) || s.getF (TGT_CTL_HOLDOFF t) ≠ 0) ∧
      RegsBut ([BELL_PEND (best / 32), BELL_ACTIVE (best / 32), SRC_CFG best] ++ lines) s u ∧ u = { s with csr := u.csr, outs := u.outs, answer := u.answer }) ∧
    (bellTargetOf r = some t → live → best = 0 → Completes (exec (.tgtTake r t) s) fun u => Answered u r .ok (if s.isSet (TGT_STAT_REQ_SEEN t) then 0x40000000 else 0) ∧
      u.isSet (TGT_STAT_REQ_SEEN t) = false ∧ RegsBut [TGT_STAT t] s u ∧ u = { s with csr := u.csr, answer := u.answer }) ∧
    (bellTargetOf r = some t → s.isSet BELL_FREEZE_FREEZE = true → Completes (exec (.tgtTake r t) s) fun u =>
      u = { s with bell := { s.bell with waiting := s.bell.waiting ++ [t] }, answer := some { req := requesterCode r, status := .waiting, data := 0 } }) ∧
    (bellTargetOf r = some t → live → f ≠ 0 → f ≠ 1023 → bellActive s f = true → s.getF (SRC_CFG_TAKER f) = t → Completes (exec (.tgtFinish r t v) s) fun u =>
      Answered u r .ok 0 ∧ bellActive u f = false ∧
      (bellReserved f = true ∨ bellPend u f = (if bellSense s f ≤ 1 then tblGet false f s.bell.inputs == decide (bellSense s f = 0) else bellPend s f)) ∧
      RegsBut ([BELL_PEND (f / 32), BELL_ACTIVE (f / 32)] ++ lines) s u ∧ only u) ∧
    (bellTargetOf r = some t → f ≠ 0 → f ≠ 1023 → (bellActive s f && decide (s.getF (SRC_CFG_TAKER f) = t)) = false → Completes (exec (.tgtFinish r t v) s) fun u =>
      Answered u r .ok 0 ∧ Counted s u BELL_CNT_FIN_BAD 1 ∧ Reports s u 0x0F 0x0B02 noPath 0 ∧
      u = { s with csr := u.csr, ledger := u.ledger, outs := u.outs, answer := u.answer }) ∧
    (r = .ymE ∨ r = .ymW ∨ (r = .host ∧ s.bell.hostDb = true) → live → 960 ≤ f → f ≤ 1022 → home = 31 ∨ s.shedState home = 2 →
      Completes (exec (.bellDoorbell r v) s) fun u => Answered u r .ok 0 ∧ bellPend u f = true ∧ RegsBut (BELL_PEND (f / 32) :: lines) s u ∧ only u) ∧
    (r = .ymE ∨ r = .ymW ∨ (r = .host ∧ s.bell.hostDb = true) → 960 ≤ f → f ≤ 1022 → home ≠ 31 → s.shedState home = 0 → s.isSet (SRC_CFG_WAKE f) = true →
      Completes (exec (.bellDoorbell r v) s) fun u => Answered u r .ok 0 ∧ u.isSet (SRC_CFG_LATCHED f) = true ∧ u.isSet PWR_EVT_WAKE_REQ = true ∧
        bellPend u f = bellPend s f ∧ only u) ∧
    (r = .ymE ∨ r = .ymW ∨ (r = .host ∧ s.bell.hostDb = true) → 960 ≤ f → f ≤ 1022 → home ≠ 31 → s.shedState home = 1 →
      Completes (exec (.bellDoorbell r v) s) fun u => Answered u r .shedDraining 0 ∧ Counted s u BELL_CNT_DB_REFUSED 1 ∧ RegsBut [BELL_CNT] s u ∧
        u = { s with csr := u.csr, answer := u.answer }) ∧
    (live → s.bell.expired ≠ some (requesterCode r) → Completes (exec (.bellFreezeSet r) s) fun u => Answered u r .ok 0 ∧ u.isSet BELL_FREEZE_FREEZE = true ∧
      u.getF BELL_FREEZE_HOLDER = requesterCode r % 64 ∧ RegsBut [BELL_FREEZE] s u ∧ u = { s with csr := u.csr, answer := u.answer }) ∧
    (s.isSet BELL_FREEZE_FREEZE = true → s.getF BELL_FREEZE_HOLDER = requesterCode r → Completes (exec (.bellFreezeRelease r) s) fun u => Answered u r .ok 0 ∧
      u.isSet BELL_FREEZE_FREEZE = false ∧ u.getF BELL_FREEZE_HOLDER = 0x3F ∧ u.bell.shPend = [] ∧ u.bell.shActive = [] ∧ u.bell.waiting = [] ∧
      u.bell.inputs = s.bell.inputs ∧ only u) ∧
    (s.isSet BELL_FREEZE_FREEZE = true → Completes (exec .bellFrzExpired s) fun u => u.isSet BELL_FREEZE_FREEZE = false ∧ u.isSet BELL_FREEZE_EXPIRED = true ∧
      u.bell.expired = some (s.getF BELL_FREEZE_HOLDER) ∧ u.bell.shPend = [] ∧ u.bell.shActive = [] ∧ u.bell.waiting = [] ∧ Reports s u 0x0F 0x0B03 noPath 0 ∧
      u = { s with csr := u.csr, bell := u.bell, outs := u.outs, answer := u.answer, ledger := u.ledger }) ∧
    (bellTargets.contains t = true → Completes (exec (.holdoffExpiry t) s) fun u => u.isSet (TGT_STAT_HOLDING t) = false ∧ RegsBut lines s u ∧
      u = { s with csr := u.csr, outs := u.outs })

/-- R457, R465 to R469: a handover of a bank, its end, the Groom's reads, and Barn's readiness.
Readings of the model it may rest on: log entry 5. -/
def Obligations.PaddockResults : Prop :=
  ∀ (s : State) (r : Requester) (b : Fin 512) (v : Word) (w : Nat) (last : Bool),
    let id := fldGet 13 8 v
    let mine := s.getF (PADK_OWNER_OWNER b.val) = requesterCode r ∨ isLeader s r = true
    let written := tblGet false (w / 64) s.padWritten
    let passed (t : State) (f : Fld) (cls : Nat) : Prop := if last then Counted s t f 1 ∧ t.lateTargets = s.lateTargets.filter (· ≠ (cls, 0))
      else t.getF f = s.getF f ∧ t.lateTargets = s.lateTargets
    let only (t : State) : Prop := t = { s with csr := t.csr, ledger := t.ledger, eccBad := t.eccBad, lateTargets := t.lateTargets }
    (mine → ownerIdOk id = true → s.isSet (PADK_OWNER_PENDING b.val) = false → Completes (exec (.ownerHandover r b v) s) fun t => Answered t r .ok 0 ∧
      t.isSet (PADK_OWNER_PENDING b.val) = true ∧ t.getF (PADK_OWNER_NEW_OWNER b.val) = id ∧ t.getF (PADK_OWNER_REMOTE_W b.val) = fldGet 30 30 v ∧
      t.getF (PADK_OWNER_OWNER b.val) = s.getF (PADK_OWNER_OWNER b.val) ∧ RegsBut [PADK_OWNER b.val] s t ∧ t = { s with csr := t.csr, answer := t.answer }) ∧
    (¬ mine → Completes (exec (.ownerHandover r b v) s) fun t => Answered t r .ownViol 0 ∧ t.isSet (PADK_OWNER_OWN_BAD b.val) = true ∧
      t.getF (PADK_OWNER_OWNER b.val) = s.getF (PADK_OWNER_OWNER b.val) ∧ t.isSet (PADK_OWNER_PENDING b.val) = s.isSet (PADK_OWNER_PENDING b.val) ∧
      Counted s t PADK_OWNVIOL_N 1 ∧ Reports s t unitGroom 0x0A04 noPath b.val ∧ t = { s with csr := t.csr, ledger := t.ledger, answer := t.answer }) ∧
    (s.isSet (PADK_OWNER_PENDING b.val) = true → ownerAccess s b.val = false → Completes (exec (.handoverDone b) s) fun t =>
      t.getF (PADK_OWNER_OWNER b.val) = s.getF (PADK_OWNER_NEW_OWNER b.val) ∧ t.isSet (PADK_OWNER_PENDING b.val) = false ∧ RegsBut [PADK_OWNER b.val] s t ∧
      t = { s with csr := t.csr }) ∧
    (w < 0x4000000 → written = false → Completes (exec (.groomScrub w 2 last) s) fun t => passed t GROOM_STAT_PADK_PASSES 3 ∧ RegsBut [GROOM_STAT] s t ∧
      t = { s with csr := t.csr, lateTargets := t.lateTargets }) ∧
    (w < 0x4000000 → written = true → Completes (exec (.groomScrub w 1 last) s) fun t => Counted s t PADK_CORR_N 1 ∧ Reports s t unitGroom 0x0A01 noPath w ∧
      passed t GROOM_STAT_PADK_PASSES 3 ∧ t.eccBad = s.eccBad ∧ only t) ∧
    (w < 0x4000000 → written = true → Completes (exec (.groomScrub w 2 last) s) fun t => Counted s t PADK_UNCORR_N 1 ∧ Reports s t unitGroom 0x0A02 noPath w ∧
      passed t GROOM_STAT_PADK_PASSES 3 ∧ t.eccBad.contains (w / 8 * 8) = true ∧ only t) ∧
    (barnBase ≤ w → Completes (exec (.groomScrub w 1 last) s) fun t => Counted s t BARN_CORR_N 1 ∧ Reports s t unitGroom 0x0A05 noPath (w - barnBase) ∧
      passed t GROOM_STAT_BARN_PASSES 4 ∧ t.eccBad = s.eccBad ∧ only t) ∧
    (barnBase ≤ w → Completes (exec (.groomScrub w 2 last) s) fun t => Counted s t BARN_UNCORR_N 1 ∧ Reports s t unitGroom 0x0A06 noPath (w - barnBase) ∧
      passed t GROOM_STAT_BARN_PASSES 4 ∧ t.eccBad.contains (w / 8 * 8) = true ∧ only t) ∧
    (Completes (exec (.groomScrub w 0 last) s) fun t => t.eccBad = s.eccBad ∧ RegsBut [GROOM_STAT] s t ∧ t = { s with csr := t.csr, lateTargets := t.lateTargets }) ∧
    (Completes (exec (.barnReady false) s) fun t => t.isSet BARN_STAT_BARN_READY = true ∧ t.isSet BARN_STAT_INIT_BUSY = false ∧ t.getF BARN_STAT_INIT_PCT = 100 ∧
      RegsBut [BARN_STAT] s t ∧ t = { s with csr := t.csr }) ∧
    (Completes (exec (.barnReady true) s) fun t => t.isSet BARN_STAT_TRAIN_FAIL = true ∧ t.isSet BARN_STAT_INIT_BUSY = false ∧
      t.isSet BARN_STAT_BARN_READY = s.isSet BARN_STAT_BARN_READY ∧ Reports s t unitGroom 0x0A07 noPath 0 ∧ t = { s with csr := t.csr, ledger := t.ledger })

/-! ### Gates, frame mode and channel changes (spec/05, spec/06) -/

/-- R24 to R28, R91, R92, R112 to R116, R126 to R136, R149 to R161, R572: a frame on its way: received, judged by its Gate, admitted, computed
block by block, sent, received again and checked; and a channel opened, changed and closed at its beat. What a tag shows is outside the
manual: both outcomes are stated.
Readings of the model it may rest on: log entries 5, 11, 30, 33, 34, 35. -/
def Obligations.FrameResults : Prop :=
  ∀ (s : State) (k : Fin 64) (b : List Byte) (g : Fin 8) (i : Nat) (x : GateFrame) (n : Fin 512) (p : Fin 32) (c j : Nat) (u : OutUnit) (e : Beat) (q : InUnit) (r : List InUnit) (d : Nat × Nat × List Byte),
    let body (l : List Byte) : List Byte := l.take (l.length - 4)
    let mac := s.portUp k.val && decide (portFamily (s.getF (PORT_CFG_TYPE k.val)) = 0) && !(decide (32 ≤ k.val) && s.isSet (CELL_PORT_CFG_EN (k.val - 32)))
    let at2 (code : Nat) : Nat := if code < 0x80 then 2 * code else 0x20 + 2 * (code - 0x80)
    let refused (t : State) (port code : Nat) : Prop := t.rd64 (PORT_REFUSE port (at2 code)) = s.rd64 (PORT_REFUSE port (at2 code)) + 1
    let bank := s.getF (GATE_CFG_ACTIVE g.val)
    let valid := if bank = 1 then s.isSet (GATE_BANK_VALID1 g.val) else s.isSet (GATE_BANK_VALID0 g.val)
    let verdict := gateProgram x.port x.bytes (tblGet [] g.val s.gateExact) (tblGet [] g.val s.gateTern) (tblGet [] (2 * g.val + bank) s.gateProg)
    let enters := decide (s.gateQ.findIdx? (fun y => portGroup y.port = g.val) = some i) && decide (s.gateQ[i]? = some x) && decide (x.port < 32) && s.isSet (GATE_CFG_EN g.val) && valid
    let asn := s.rd64 (CH_OUT_ASN_LO n.val)
    let admits := !isRelay s n.val && decide (s.getF (CH_BIND_INGRESS_MASK n.val) / 2 ^ x.port % 2 = 1) && decide (s.chMode n.val = 0) &&
      decide (x.bytes.length ≤ s.getF (CH_POLICY_MAX_LEN n.val)) && !s.isSet (FRM_POL_LO_CB_ELIM n.val) && (s.chan n.val).swOut.isNone &&
      s.chOpen n.val && s.isSet (CH_CFG_OUT_EN n.val) && outKeyed s n.val && decide (asn.toNat + 1 < (asnLimits s n.val).1) &&
      !s.isSet (KB_ROLES_PERSIST n.val 0) && shedsOk s n.val (some x.port) && !pathStopped s n.val && !noBuffer s n.val ((x.bytes.length + 255) / 256) && !s.chTwin n.val
    let due := s.changes.filter (fun y => s.beatDue y.1)
    let later := s.changes.filter (fun y => !s.beatDue y.1)
    let rail := Config.railChoice (Config.freeValue s.draws) (railPool s false)
    let computes := decide (s.units[i]? = some u) && !(railPool s false).isEmpty && !u.stomped && decide (u.blocks < unitBlocks u) && decide (s.chMode u.ch = 0)
    let onLine := fun (y : OutUnit) => y.onLine && decide (s.chMode y.ch = 0) && decide (s.txPort y.ch = p.val)
    let starts := s.portUp (32 + p.val) && !s.isSet (CELL_PORT_CFG_EN p.val) && !s.units.any onLine && s.brTx.isEmpty
    let closed (t : State) : Prop := t.chState n.val = 0 ∧ t.isSet (CH_STAT_MUTED n.val) = false ∧ t.getF (BR_STAT_STATE n.val) = 0 ∧ t.isSet (CH_EVT_CLOSED n.val) = true ∧
      t.brTx = s.brTx.filter (fun m => m.ch ≠ n.val) ∧ t.ledger.mutes = s.ledger.mutes.filter (fun m => m.1 ≠ n.val) ∧ t.cores = s.cores
    let o := typeAt q.bytes
    let tci := at' q.bytes (o + 2)
    let suite := s.getF (FRM_POL_LO_SUITE n.val)
    let low := rxLow s n.val (tci % 4)
    let pn := if suite < 2 then be q.bytes (o + 4) 4 else xpnRecover low (be q.bytes (o + 4) 4)
    let hl := o + secTagLen tci
    let sec := (q.bytes.take (q.bytes.length - 20)).drop hl
    let co := coOctets (s.getF (FRM_POL_LO_CO n.val))
    let key := suiteKey suite (dirKey s n.val 1 j)
    let iv := frameIv s n.val 1 j suite (frameSci q.bytes) pn
    let plain := padFrame (q.bytes.take o ++ sec.take co ++ gcmStream key iv (sec.drop co))
    let good := decide (tci / 4 % 4 = 3) && decide (gcmTagBytes key iv (q.bytes.take hl ++ sec.take co) (sec.drop co) = (q.bytes.drop (q.bytes.length - 20)).take 16)
    (mac = true → 64 ≤ b.length → b.length ≤ 9600 → fcsOf (body b) = b.drop (b.length - 4) → be b 12 2 ≠ 0x8808 → Completes (exec (.plainFrameRx k b) s) fun t =>
      t = { s with gateQ := s.gateQ ++ [{ port := k.val, bytes := b }] }) ∧
    (mac = true → 64 ≤ b.length → b.length ≤ 9600 → fcsOf (body b) ≠ b.drop (b.length - 4) → Completes (exec (.plainFrameRx k b) s) fun t => refused t k.val 2 ∧
      t = { s with csr := t.csr }) ∧
    (enters = true → verdict = some (.refuse c) → Completes (exec (.gateRun g) s) fun t => refused t x.port c ∧ t.gateQ = s.gateQ.eraseIdx i ∧
      t.getF (GATE_BANK_IN_USE g.val) = bank ∧ t = { s with csr := t.csr, gateQ := t.gateQ }) ∧
    (enters = true → verdict = some (.setch n.val) → admits = true → Completes (exec (.gateRun g) s) fun t => t.gateQ = s.gateQ.eraseIdx i ∧
      t.units = s.units ++ [mkUnit s n.val x.port asn s.stamp (body x.bytes) (x.bytes.drop (x.bytes.length - 4))] ∧ t.rd64 (CH_OUT_ASN_LO n.val) = asn + 1 ∧
      t.rd64 (CH_OUT_STAT n.val 0) = s.rd64 (CH_OUT_STAT n.val 0) + 1 ∧ t.getF (GATE_BANK_IN_USE g.val) = bank ∧ t.cores = s.cores ∧ t.pos = s.pos ∧ t.tack = s.tack) ∧
    (Completes (exec (.cbHistoryReset n) s) fun t => (t.chan n.val).cbLast = none ∧ (t.chan n.val).cbHist = [] ∧ t = { s with chans := t.chans }) ∧
    (due = [(e, .open n.val)] → s.chState n.val = 0 → Completes (exec .changeBeatApply s) fun t => t.changes = later ∧ t.chState n.val = 1 ∧
      t.rd64 (CH_IN_ASN_LO n.val) = 0 ∧ t.rd64 (CH_OUT_STAT n.val 0) = 0 ∧ t.isSet (CH_EVT_OPENED n.val) = true ∧ t.isSet (CH_STAT_LEASE n.val) = ownsPath s n.val ∧
      (t.chan n.val).opened = true ∧ (t.chan n.val).beginOut = e ∧ t.cores = s.cores ∧ t.pos = s.pos) ∧
    (due = [(e, .close n.val)] → s.chState n.val = 1 → Completes (exec .changeBeatApply s) fun t => t.changes = later ∧ t.chState n.val = 2 ∧
      (t.chan n.val).closing = s.now ∧ t.isSet (CH_STAT_LEASE n.val) = false ∧ t.isSet (FAB_LEASE_HELD n.val) = false ∧ t.units = s.units ∧ t.cores = s.cores ∧ t.pos = s.pos) ∧
    (due = [(e, .gate g.val c)] → Completes (exec .changeBeatApply s) fun t => t.changes = later ∧ t.getF (GATE_CFG_ACTIVE g.val) = c % 2 ∧
      t.getF (GATE_CFG_EN g.val) = c / 2 % 2 ∧ t.getF (GATE_CFG_UNMATCHED g.val) = c / 4 % 2 ∧ t.getF (GATE_CFG_UNM_Q g.val) = c / 256 % 8 ∧
      RegsBut [GATE_CFG g.val] s t ∧ t = { s with csr := t.csr, changes := t.changes }) ∧
    (due = [] → Completes (exec .changeBeatApply s) fun t => t = s) ∧
    (s.chState n.val = 2 → heldUnits s n.val = 0 → Completes (exec (.closingDrained n) s) fun t => closed t ∧ t.units = s.units) ∧
    (s.chState n.val = 2 → Completes (exec (.closingTimeout n) s) fun t => closed t ∧ t.units = s.units.filter (fun y => y.ch ≠ n.val) ∧
      t.pend = s.pend.filter (fun y => y.ch ≠ n.val) ∧ t.rd64 (CH_REFUSE n.val 14) = s.rd64 (CH_REFUSE n.val 14) + BitVec.ofNat 64 (heldUnits s n.val)) ∧
    (computes = true → Completes (exec (.railBlockCompute i false) s) fun t => t.units = s.units.set i { u with blocks := u.blocks + 1, rail := some rail } ∧
      t = { s with units := t.units, draws := s.draws + 1 }) ∧
    (computes = true → Completes (exec (.railBlockCompute i true) s) fun t => Reports s t unitRails 0x0401 u.ch rail ∧
      t.units = s.units.set i (if u.onLine then { u with stomped := true, rail := some rail } else { u with blocks := 0, rail := none }) ∧
      t = { s with units := t.units, draws := s.draws + 1, csr := t.csr, ledger := t.ledger, bell := t.bell, outs := t.outs }) ∧
    (starts = true → s.units.findIdx? (startable s p.val) = some i → Completes (exec (.cipherTxStart p) s) fun t =>
      t = { s with units := s.units.modify i (fun y => { y with onLine := true }) }) ∧
    (starts = true → s.units.findIdx? (startable s p.val) = none → s.clearTx.findIdx? (fun y => y.1 = 32 + p.val) = some i → s.clearTx[i]? = some d →
      Completes (exec (.cipherTxStart p) s) fun t => t.clearTx = s.clearTx.eraseIdx i ∧
        t.outs.contains (.frame (32 + p.val) (d.2.2 ++ fcsOf d.2.2)) = true ∧ t.getF (MB_STATUS_STATE d.2.1) = 3 ∧ t.getF (MB_STATUS_RESULT d.2.1) = 0 ∧ t.units = s.units) ∧
    (s.units.findIdx? onLine = some i → s.units[i]? = some u → u.stomped = false → unitBlocks u ≤ u.blocks → u.ch < 512 →
      Completes (exec (.unitEgressDone p) s) fun t => t.units = s.units.eraseIdx i ∧ t.outs = Output.frame (32 + p.val) (protectedFrame s u) :: s.outs ∧
        t.rd64 (CH_OUT_STAT u.ch 4) = s.rd64 (CH_OUT_STAT u.ch 4) + 1 ∧ t.rd64 (CH_OUT_STAT u.ch 6) = s.rd64 (CH_OUT_STAT u.ch 6) + BitVec.ofNat 64 (u.frame.length + 4) ∧
        t = { s with csr := t.csr, units := t.units, outs := t.outs, chans := t.chans }) ∧
    (s.units.findIdx? onLine = some i → s.units[i]? = some u → u.stomped = true → Completes (exec (.unitEgressDone p) s) fun t =>
      t = { s with units := s.units.set i { u with onLine := false, stomped := false, blocks := 0, rail := none }, outs := Output.frame (32 + p.val) (stompedFrame s u) :: s.outs }) ∧
    (s.inq = q :: r → q.ch = none → Completes (exec .inboundUnitRx s) fun t => refused t (32 + q.port) 8 ∧ t = { s with csr := t.csr, inq := r }) ∧
    (s.inq = q :: r → q.ch = some n.val → q.cell = false → inboundRefusal s n.val = some c → Completes (exec .inboundUnitRx s) fun t =>
      t.rd64 (CH_REFUSE n.val (2 * (c - 0x10))) = s.rd64 (CH_REFUSE n.val (2 * (c - 0x10))) + 1 ∧ t = { s with csr := t.csr, inq := r }) ∧
    (s.inq = q :: r → q.ch = some n.val → q.cell = false → inboundRefusal s n.val = none → secTagOk q.bytes = true → inKey s n.val (tci % 4) = some (0, j) → low ≤ pn →
      s.isSet (KB_ROLES_PERSIST n.val 1) = false → s.chTwin n.val = false → fwdOut s n.val = false → s.isSet (CH_CFG_RTAG n.val) = false → Completes (exec .inboundUnitRx s) fun t =>
        t.inq = r ∧ t.rd64 (CH_IN_STAT n.val 0) = s.rd64 (CH_IN_STAT n.val 0) + 1 ∧
        (if good then t.rd64 (CH_IN_STAT n.val 4) = s.rd64 (CH_IN_STAT n.val 4) + 1 ∧ t.outs = Output.frame (s.getF (CH_CFG_EGRESS_PORT n.val)) (plain ++ fcsOf plain) :: s.outs ∧
          t.rd64 (CH_REFUSE n.val 26) = s.rd64 (CH_REFUSE n.val 26)
        else t.rd64 (CH_REFUSE n.val 26) = s.rd64 (CH_REFUSE n.val 26) + 1 ∧ t.rd64 (CH_IN_STAT n.val 4) = s.rd64 (CH_IN_STAT n.val 4)) ∧
        t.cores = s.cores ∧ t.pos = s.pos)

/-! ### Cell mode and layer-1 mode (spec/07, spec/08) -/

/-- R165 to R187, R80: the slot of a port takes its cell, empty, of fill or of data; an armed calendar is active at its beat; a channel whose epoch
would pass beat 0 is held; and a received header moves the delineation, is counted, or brings its cell.
Readings of the model it may rest on: log entries 5, 66. -/
def Obligations.CellResults : Prop :=
  ∀ (s : State) (p : Fin 32) (n : Fin 512) (j : Nat) (cut : Bool) (b : Beat) (cal : Nat) (cell : List Byte),
    let c := p.val
    let x := slotNow s c
    let runs := s.isSet (CELL_PORT_CFG_EN c) && s.portUp (32 + c)
    let entry := slotEntry s c x
    let bare := entry ≠ 0x3FF ∧ (512 ≤ entry ∨ s.chOpen entry = false ∨ s.chMode entry ≠ 1 ∨ s.txPort entry ≠ c ∨ s.isSet (CH_CFG_OUT_EN entry) = false ∨
      heldAt s entry c x = true ∨ s.muted entry = true ∨ s.isSet (CH_STAT_LEASE entry) = false)
    let sends := runs && decide ((s.port (32 + c)).outSlot ≠ some x) && decide (entry = n.val) && s.chOpen n.val && decide (s.chMode n.val = 1) &&
      decide (s.txPort n.val = c) && s.isSet (CH_CFG_OUT_EN n.val) && !heldAt s n.val c x && !s.muted n.val && s.isSet (CH_STAT_LEASE n.val) && !isWitness s n.val
    let fill := fillUnits s n.val (slotStart s c x - 2048) cut s.units { payload := [], ends := [], octets := 0, more := true }
    let k := decide ((s.slot j).epoch % 2 = 1)
    let key := dirKey s n.val 0 j
    let iv := cellNonce c (s.getF (CELL_POL_LO_DIR n.val)) x
    let sealed (body : List Byte) : List Byte := cellHeader x (cellL s n.val) (cellP s n.val) k false false ++ gcmStream key iv body ++
      gcmTagBytes key iv (cellAad x k) (gcmStream key iv body)
    let casn := if (s.chan n.val).cell.outEpoch = some (s.slot j).epoch then s.rd64 (CH_MODE_W0_LO n.val) else 0
    let d := s.getF (CELL_PORT_STAT_DELIN c)
    let hec := decide (crc8 (be cell 0 7) = at' cell 7)
    let slot := be cell 0 6
    let pt := s.port (32 + c)
    let next := decide (slot = (pt.lastSlot + 1) % 2 ^ 48)
    let held (t : State) : Prop := t.isSet (CH_STAT_HELD n.val) = true ∧ (t.chan n.val).forced = true ∧ t.getF POS_STAT_HELD = s.getF POS_STAT_HELD + (if s.isSet (CH_STAT_HELD n.val) then 0 else 1)
    (runs = true → pt.outSlot ≠ some x → bare → Completes (exec (.slotAssemblyClose p false cut) s) fun t => (t.port (32 + c)).outSlot = some x ∧
      t.outs.contains (.cell (32 + c) (cellHeader x false false false true false ++ zeros 248)) = true ∧ t.units = s.units ∧ t.cores = s.cores ∧ t.pos = s.pos) ∧
    (sends = true → slotKey s n.val c x = some j → fill.1.payload = [] → Completes (exec (.slotAssemblyClose p false cut) s) fun t =>
      (t.port (32 + c)).outSlot = some x ∧ t.outs.contains (.cell (32 + c) (sealed fillBody)) = true ∧ t.rd64 (CH_MODE_W1_LO n.val) = BitVec.ofNat 64 x ∧
      t.rd64 (CH_OUT_STAT n.val 8) = s.rd64 (CH_OUT_STAT n.val 8) + 1 ∧ t.units = s.units ∧ t.cores = s.cores ∧ t.pos = s.pos) ∧
    (sends = true → slotKey s n.val c x = some j → fill.1.payload ≠ [] → Completes (exec (.slotAssemblyClose p false cut) s) fun t =>
      (t.port (32 + c)).outSlot = some x ∧ t.outs.contains (.cell (32 + c) (sealed (dataBody casn fill.1))) = true ∧ t.rd64 (CH_MODE_W0_LO n.val) = casn + 1 ∧
      t.rd64 (CH_MODE_W1_LO n.val) = BitVec.ofNat 64 x ∧ t.rd64 (CH_OUT_STAT n.val 4) = s.rd64 (CH_OUT_STAT n.val 4) + 1 ∧ t.units = fill.2 ∧ t.cores = s.cores ∧ t.pos = s.pos) ∧
    (pt.calArm = some (b, cal) → s.beatDue b = true → Completes (exec (.calendarSwitch p) s) fun t => t.getF (CELL_PORT_CFG_ACTIVE c) = cal % 2 ∧
      t.isSet (CELL_PORT_CFG_ARMED c) = false ∧ t.port (32 + c) = { pt with calPrev := pt.calBase, calBase := b.toNat * s.spb c, calArm := none } ∧
      t = { s with csr := t.csr, ports := t.ports }) ∧
    (s.chOpen n.val = true → s.chMode n.val = 1 → s.beat.toNat < 2 ^ 47 → s.isSet (KB_ROLES_CUR_V n.val 0) = true → beatBefore (s.chan n.val).beginOut 0 = true →
      (s.chan n.val).swOut = none → s.getF POS_STAT_HELD < 512 → Completes (exec (.cellWrapHold n) s) fun t => held t ∧ t.units = s.units ∧ t.cores = s.cores) ∧
    (runs = true → d = 0 → hec = true → Completes (exec (.cellHeaderRx p cell) s) fun t => t.getF (CELL_PORT_STAT_DELIN c) = 1 ∧
      t.port (32 + c) = { pt with run := 1, lastSlot := slot, odd := none } ∧ t = { s with csr := t.csr, ports := t.ports }) ∧
    (runs = true → d = 1 → hec = true → next = true → Completes (exec (.cellHeaderRx p cell) s) fun t => t.getF (CELL_PORT_STAT_DELIN c) = (if 5 ≤ pt.run then 2 else 1) ∧
      t.port (32 + c) = { pt with run := if 5 ≤ pt.run then 0 else pt.run + 1, lastSlot := slot } ∧ t = { s with csr := t.csr, ports := t.ports }) ∧
    (runs = true → d = 1 → (hec && next) = false → Completes (exec (.cellHeaderRx p cell) s) fun t => t.getF (CELL_PORT_STAT_DELIN c) = 0 ∧
      t = { s with csr := t.csr, ports := t.ports }) ∧
    (runs = true → d = 2 → hec = false → pt.run < 6 → Completes (exec (.cellHeaderRx p cell) s) fun t => t.rd (CELL_HEC_ERR c) = s.rd (CELL_HEC_ERR c) + 1 ∧
      t.getF (CELL_PORT_STAT_DELIN c) = 2 ∧ t.port (32 + c) = { pt with run := pt.run + 1, lastSlot := (pt.lastSlot + 1) % 2 ^ 48, odd := none } ∧
      t = { s with csr := t.csr, ports := t.ports }) ∧
    (runs = true → d = 2 → hec = false → 6 ≤ pt.run → Completes (exec (.cellHeaderRx p cell) s) fun t => t.rd (CELL_HEC_ERR c) = s.rd (CELL_HEC_ERR c) + 1 ∧
      t.getF (CELL_PORT_STAT_DELIN c) = 0 ∧ (t.port (32 + c)).run = 0 ∧ t.cores = s.cores ∧ t.units = s.units) ∧
    (runs = true → d = 2 → hec = true → next = true → at' cell 6 / 16 % 2 = 1 → Completes (exec (.cellHeaderRx p cell) s) fun t =>
      t.rd (CELL_EMPTY_RX c) = s.rd (CELL_EMPTY_RX c) + 1 ∧ t.port (32 + c) = { pt with run := 0, lastSlot := slot, odd := none } ∧ t = { s with csr := t.csr, ports := t.ports }) ∧
    (runs = true → d = 2 → hec = true → next = true → at' cell 6 / 16 % 2 = 0 → at' cell 6 / 8 % 2 = 0 → slotEntry s c slot = n.val → s.chMode n.val = 1 →
      boundTo s n.val c = true → s.chTwin n.val = false → Completes (exec (.cellHeaderRx p cell) s) fun t => t.port (32 + c) = { pt with run := 0, lastSlot := slot, odd := none } ∧
        t = { s with ports := t.ports, inq := s.inq ++ [{ port := c, ch := some n.val, cell := true, bytes := cell, slot := BitVec.ofNat 64 slot }] }) ∧
    (runs = true → d = 2 → hec = true → next = false → pt.odd = none → Completes (exec (.cellHeaderRx p cell) s) fun t => t.rd (CELL_SLOT_JUMP c) = s.rd (CELL_SLOT_JUMP c) + 1 ∧
      t.port (32 + c) = { pt with run := 0, lastSlot := (pt.lastSlot + 1) % 2 ^ 48, odd := some slot } ∧ t = { s with csr := t.csr, ports := t.ports })

/-- R192 to R199, R206 to R209, R133: a layer-1 frame is numbered and sent, encrypted where it may be; the input is lost and returns; frames the device
makes; a channel held where its number would wrap; and a frame received, released on the plain side under its number.
Readings of the model it may rest on: log entries 5, 66. -/
def Obligations.Layer1Results : Prop :=
  ∀ (s : State) (n : Fin 512) (mfas : Byte) (oh opu payload : List Byte) (path2 : Bool) (c : Nat),
    let i := n.val
    let lost := s.isSet (L1_RUN_INPUT_LOST i)
    let sent (m : Nat) (o pay : List Byte) (t : State) : Prop :=
      let efn := nextEfn s i m
      let key := if l1MayEncrypt s i efn then l1Key s i 0 efn else none
      let ct := (key.map (fun j => l1Crypt (dirKey s i 0 j) (s.getF (L1_POL_LO_DIR i)) i efn pay)).getD (zeros pay.length)
      t.rd64 (CH_MODE_W0_LO i) = BitVec.ofNat 64 efn ∧ (t.chan i).l1.efnAt = none ∧ (t.chan i).l1.outStamp = s.stamp ∧
      (match t.outs.head? with | some (.l1Frame q e _ ou ais p) => decide (q = 32 + s.txPort i ∧ e = efn ∧ ou = o ∧ ais = false ∧ p = ct) | _ => false) = true ∧
      t.rd64 (CH_OUT_STAT i 0) = s.rd64 (CH_OUT_STAT i 0) + (if key.isSome then 1 else 0) ∧ t.cores = s.cores ∧ t.pos = s.pos
    let free (m : Nat) : Bool := s.portUp (32 + s.txPort i) && !isWitness s i && !s.chTwin i && ((s.chan i).l1.efnAt.isSome || decide ((s.rd64 (CH_MODE_W0_LO i)).toNat ≤ nextEfn s i m))
    let own := match (s.chan i).l1.efnAt with | some b => b % 256 | none => ((s.rd64 (CH_MODE_W0_LO i)).toNat + 1) % 256
    let slices := if s.tribKind i = 8 then l1Blocks s i / 952 else 1
    (l1OutRuns s i = true → lost = false → payload.length = 16 * l1Blocks s i → free mfas.toNat = true → Completes (exec (.l1PlainFrameRx n mfas opu payload false) s) (sent mfas.toNat opu payload)) ∧
    (l1OutRuns s i = true → lost = true → free own = true → Completes (exec (.l1GeneratedFrame n false) s)
      (sent own (if s.isSdh i then [] else List.replicate (8 * slices) 0xFF) (List.replicate (16 * l1Blocks s i) 0xFF))) ∧
    (l1OutRuns s i = true → lost = false → Completes (exec (.l1InputLost n) s) fun t => t.isSet (L1_RUN_INPUT_LOST i) = true ∧ Reports s t unitChan 0x0309 i i ∧
      t = { s with csr := t.csr, ledger := t.ledger }) ∧
    (Completes (exec (.l1InputReturn n) s) fun t => t.isSet (L1_RUN_INPUT_LOST i) = false ∧ RegsBut [L1_RUN i] s t ∧ t = { s with csr := t.csr }) ∧
    (l1OutRuns s i = true → s.rd64 (CH_MODE_W0_LO i) = BitVec.ofNat 64 (2 ^ 48 - 1) → (s.chan i).swOut = none → s.isSet (CH_STAT_HELD i) = false → s.getF POS_STAT_HELD < 512 →
      Completes (exec (.l1EfnWrapHold n) s) fun t => t.isSet (CH_STAT_HELD i) = true ∧ (t.chan i).forced = true ∧ t.getF POS_STAT_HELD = s.getF POS_STAT_HELD + 1 ∧ t.cores = s.cores) ∧
    (s.chMode i = 2 → payload.length = 16 * l1Blocks s i → inboundRefusal s i = some c → Completes (exec (.l1CipherFrameRx n path2 mfas oh opu payload) s) fun t =>
      t.rd64 (CH_REFUSE i (2 * (c - 0x10))) = s.rd64 (CH_REFUSE i (2 * (c - 0x10))) + 1 ∧ t = { s with csr := t.csr }) ∧
    (s.chMode i = 2 → payload.length = 16 * l1Blocks s i → inboundRefusal s i = none → s.isSdh i = false → s.chTwin i = false → (s.chan i).l1.posOk = true →
      Completes (exec (.l1CipherFrameRx n path2 mfas oh opu payload) s) fun t => t.rd64 (CH_IN_STAT i 0) = s.rd64 (CH_IN_STAT i 0) + 1 ∧
        t.rd64 (CH_IN_STAT i 2) = s.rd64 (CH_IN_STAT i 2) + BitVec.ofNat 64 payload.length ∧
        (match t.outs.head? with | some (.l1Frame q e o _ _ p) => decide (q = s.getF (CH_CFG_EGRESS_PORT i) ∧ e = l1Efn s i mfas.toNat ∧ o = [0, 0] ∧ p.length = payload.length) | _ => false) = true ∧
        t.cores = s.cores) ∧
    (s.chMode i = 2 → payload.length = 16 * l1Blocks s i → inboundRefusal s i = none → s.isSdh i = false → s.chTwin i = false → (s.chan i).l1.posOk = false →
      Completes (exec (.l1CipherFrameRx n path2 mfas oh opu payload) s) fun t => t.rd64 (CH_IN_STAT i 0) = s.rd64 (CH_IN_STAT i 0) + 1 ∧
        t.rd64 (CH_REFUSE i 20) = s.rd64 (CH_REFUSE i 20) + 1 ∧
        t.outs.head? = some (.l1Frame (s.getF (CH_CFG_EGRESS_PORT i)) (s.rd64 (CH_IN_POS_LO i)).toNat [0, 0] (opu.map (fun _ => 0xFF)) true (List.replicate payload.length 0xFF)) ∧ t.cores = s.cores)

/-! ### The vault and the Loft's keys (spec/09, spec/24) -/

/-- R217, R223, R224, R226, R245, R246: a previous slot is released after its grace; a deposit is committed by the core that wrote it; a slot is
loaded, found empty or found bad; and zeroisation clears the keys in its order, the Loft last, after which KEK 0 is derived again.
Readings of the model it may rest on: log entries 5, 44, 45. -/
def Obligations.VaultResults : Prop :=
  ∀ (s : State) (n : Fin 512) (b : Bool) (j : Fin 16) (v : Word) (k : Fin 32) (r : Requester) (x : Fin 2048),
    let d := b.toNat
    let prev := slotOf n.val (s.getF (KB_ROLES_PREV_SLOT n.val d))
    let grace := if b then (s.chan n.val).graceIn else (s.chan n.val).graceOut
    let past := match grace with | some e => s.beatDue e | none => true
    let ends := s.isSet (KB_ROLES_PREV_V n.val d) && past && !(b && decide (s.getF (KB_GRACE_GRACE_END n.val 1) = 0xFFFFFFFF)) && !s.units.any (fun u => u.slot = prev)
    let waits := s.isSet (KB_ROLES_CUR_V n.val 0) && !s.isSet (KB_ROLES_NEXT_V n.val 0) && !(s.chan n.val).awaitSw
    let dep := s.deposit j.val
    let q := v.toNat % 512
    let e := nextEpoch s q
    let full := depositFull dep && s.isSet (KB_ROLES_SPARE_V q 0)
    let ss := depositBytes dep 0 64
    let th := depositBytes dep 64 48
    let filled := slotOf q (s.getF (KB_ROLES_SPARE_SLOT q 0))
    let c := x.val / 4
    let named := fun (f : Nat → Nat → Fld) (g : Nat → Nat → Fld) (i : Nat) => s.isSet (f c i) && decide (s.getF (g c i) = x.val % 4)
    let inForce := [0, 1].any (fun i => named KB_ROLES_CUR_V KB_ROLES_CUR_SLOT i || named KB_ROLES_NEXT_V KB_ROLES_NEXT_SLOT i)
    let again := !s.tack.zeroVault && !s.isSet TR_STAT_SK_OK
    let derived (t : State) : Prop := t.isSet TR_STAT_SK_OK = true ∧ t.kek 0 = bytesOf 32 Config.kek0 ∧ t.getF TR_STAT_KEK_VALID % 2 = 1
    (ends = true → waits = false → Completes (exec (.prevKeyRelease n b) s) fun t => t.isSet (KB_ROLES_PREV_V n.val d) = false ∧ t.getF (KB_ROLES_PREV_SLOT n.val d) = 0 ∧
      (slotNamed t n.val (prev % 4) = false → t.slot prev = Slot.reset) ∧ (∀ i : Fin 2048, i.val / 4 ≠ n.val → t.slot i.val = s.slot i.val) ∧
      t = { s with csr := t.csr, tack := t.tack }) ∧
    (ends = false → Completes (exec (.prevKeyRelease n b) s) fun t => t = s) ∧
    (dep.core = some k.val → v.toNat / 2 ^ 31 = 1 → full = true → Completes (exec (.depositCommit (.dray k) j v) s) fun t => Answered t (.dray k) .ok 0 ∧
      t.slot filled = { kind := 1, bytes := exchSecret s q e th ss ++ zeros 14, epoch := e, an := e % 4, keyId := [], persist := false, bad := false } ∧
      tblGet [] q t.tack.ck = exchConfirmKey s q e th ss ∧ t.deposit j.val = Deposit.reset ∧ (∀ i : Fin 2048, i.val ≠ filled → t.slot i.val = s.slot i.val) ∧
      t = { s with csr := t.csr, tack := t.tack, answer := t.answer }) ∧
    (dep.core = some k.val → v.toNat / 2 ^ 31 = 1 → full = false → Completes (exec (.depositCommit (.dray k) j v) s) fun t => Answered t (.dray k) .ok 0 ∧
      t.deposit j.val = Deposit.reset ∧ t.tack.slots = s.tack.slots ∧ t = { s with tack := t.tack, answer := t.answer }) ∧
    (dep.core ≠ some k.val → Completes (exec (.depositCommit (.dray k) j v) s) fun t => Answered t (.dray k) .decode 0 ∧ t.tack = s.tack ∧
      t = { s with csr := t.csr, answer := t.answer }) ∧
    (s.deposit j.val = Deposit.reset → Completes (exec (.depositCommit r j v) s) fun t => Answered t r .decode 0 ∧ t.tack = s.tack) ∧
    ((s.slot x.val).kind ≠ 0 → Completes (exec (.keySlotLoad x false) s) fun t =>
      t = { s with tack := { s.tack with cached := x.val :: s.tack.cached.filter (· ≠ x.val) } }) ∧
    ((s.slot x.val).kind = 0 → Completes (exec (.keySlotLoad x false) s) fun t => Reports s t unitTack 0x0501 c x.val ∧ t.isSet (CH_EVT_KEY_EMPTY c) = true ∧
      t = { s with csr := t.csr, ledger := t.ledger, bell := t.bell, outs := t.outs }) ∧
    (inForce = false → Completes (exec (.keySlotLoad x true) s) fun t => Reports s t unitTack 0x0502 c x.val ∧ t.slot x.val = Slot.reset ∧ t.tack.cached.contains x.val = false ∧
      (∀ i : Fin 2048, i ≠ x → t.slot i.val = s.slot i.val)) ∧
    (named KB_ROLES_CUR_V KB_ROLES_CUR_SLOT d = true → Completes (exec (.keySlotLoad x true) s) fun t => t.slot x.val = Slot.reset ∧ t.isSet (KB_ROLES_CUR_V c d) = false ∧
      t.isSet (CH_EVT_KEY_EMPTY c) = true) ∧
    (Completes (exec .zeroNAssert s) fun t => t.tack = { s.tack with cached := [], deposits := [], ck := [], zeroLow := true, zeroVault := true } ∧
      t.units = [] ∧ t.pend = [] ∧ (∀ i : Fin 512, t.rd (KB_ROLES i.val 0) = 0 ∧ t.rd (KB_ROLES i.val 1) = 0) ∧ t.cores = s.cores ∧ t.pos = s.pos ∧ t.mem = s.mem) ∧
    (s.tack.zeroVault = true → Completes (exec .zeroiseVaultDone s) fun t => t.tack.slots = [] ∧ t.tack.keks = [] ∧ t.tack.pairs = [] ∧ t.tack.idSeed = [] ∧
      t.tack.twinKey = [] ∧ t.tack.deposits = [] ∧ t.tack.ck = [] ∧ t.tack.cached = [] ∧ t.tack.kemPair = none ∧ t.tack.zeroVault = false ∧ t.tack.zeroLow = s.tack.zeroLow ∧
      t.isSet TR_STAT_ZEROISED = true ∧ t.isSet TR_STAT_SK_OK = false ∧ t.isSet TR_STAT_ID_VALID = false ∧ t.isSet TR_STAT_ERASE_PEND = true ∧ t.getF TR_STAT_KEK_VALID = 0 ∧
      t.getF TR_PAIR_VALID_PAIR_VALID = 0 ∧ t.getF TR_STAT_SLOTS_USED = 0 ∧ t.loftWord 1 = 3 ∧ t.cores = s.cores ∧ t.pos = s.pos) ∧
    (s.tack.zeroVault = false → Completes (exec .zeroiseVaultDone s) fun t => t = s) ∧
    (s.isSet TR_STAT_ERASE_PEND = true → Completes (exec .loftKeyEraseDone s) fun t => t.isSet TR_STAT_ERASE_PEND = false ∧
      t.loftWord 1 = (if s.isSet TR_STAT_ZEROISED then 2 else 0) ∧ t.loftBytes 0x1A20 40 = zeros 40 ∧ (∀ i : Fin 15, t.loftBytes (0x3040 + 64 * i.val) 40 = zeros 40) ∧
      (∀ i : Fin 32, t.loftBytes (0x3400 + 128 * i.val) 40 = zeros 40) ∧ (∀ i : Fin 1024, t.loftBytes (0x18000 + 64 * i.val) 64 = zeros 64) ∧
      (again = true → s.tack.zeroLow = false → derived t) ∧ (again = false ∨ s.tack.zeroLow = true → t.tack = s.tack) ∧ t.cores = s.cores ∧ t.pos = s.pos) ∧
    (s.isSet TR_STAT_ERASE_PEND = false → Completes (exec .loftKeyEraseDone s) fun t => t = s) ∧
    (Completes (exec .zeroNRelease s) fun t => t.tack.zeroLow = false ∧ (again = true → s.isSet TR_STAT_ERASE_PEND = false → derived t) ∧
      (again = false ∨ s.isSet TR_STAT_ERASE_PEND = true → t = { s with tack := { s.tack with zeroLow := false } }) ∧ t = { s with csr := t.csr, tack := t.tack })

/-! ### The Bridle (spec/10) -/

/-- R248, R249, R256, R258, R236, R239, R261, R264 to R267: what a session does of itself: it is set up, says HELLO, offers keys, announces and cancels
switches, sends its periodic messages, and counts late answers, missing heartbeats and failed attempts.
Readings of the model it may rest on: log entries 5, 41, 46, 48. -/
def Obligations.BridleSends : Prop :=
  ∀ (s : State) (n : Fin 512) (x : Exch) (w : Switch) (p : Nat) (r : List Nat),
    let i := n.val
    let br := (s.chan i).br
    let st := s.getF (BR_STAT_STATE i)
    let room := decide ((s.rd (BR_TX_SEQ i 0)).toNat < 2 ^ 32 - 8)
    let lone := !s.chTwin i
    let quiet (t : State) : Prop := t = { s with csr := t.csr, chans := t.chans, brTx := t.brTx, draws := t.draws }
    let fresh (t : State) : Prop := t.getF (BR_STAT_STATE i) = 1 ∧ t.rd64 (BR_SID_TX_LO i) = BitVec.ofNat 64 s.draw.1 ∧ t.rd64 (BR_SID_RX_LO i) = 0 ∧
      (t.chan i).br = Session.reset ∧ t.getF (BR_STAT_ROLE i) = (s.roleB i).toNat ∧ t.rd (BR_RX_SEQ i 0) = 0 ∧ t.rd (BR_TX_SEQ i 1) = 0 ∧
      (if canHello s i then t.rd (BR_TX_SEQ i 0) = 1 ∧ Queued s t i [brHello] else t.rd (BR_TX_SEQ i 0) = 0 ∧ t.brTx = s.brTx) ∧ quiet t
    let down (cond : Nat) (t : State) : Prop := t.getF (BR_STAT_STATE i) = 0 ∧ t.getF (BR_STAT_EXCH i) = 0 ∧ t.getF (BR_STAT_HB_MISS i) = 0 ∧
      (t.chan i).br = Session.reset ∧ (t.chan i).swOut = none ∧ (t.chan i).swIn = none ∧ t.isSet (KB_ROLES_SW_ARMED i 0) = false ∧ t.isSet (KB_ROLES_SW_ARMED i 1) = false ∧
      Reports s t unitBridle 0x0601 i (i + cond * 65536) ∧ t.getF (KB_ROLES_CUR_V i 0) = s.getF (KB_ROLES_CUR_V i 0) ∧ t.cores = s.cores ∧ t.pos = s.pos
    let swOf (e : Nat) (b : Beat) (said host : Bool) : Switch := { epoch := e, beat := b, sent := said, acked := false, markDone := false, late := false, host := host }
    let mark (e : Nat) (b : Beat) : LoftWrite := { word := loftRingWord i 0 (e % 8), value := markWord e b, urgent := true, wait := .mark i 0 e }
    let begun (e : Nat) (b : Beat) (host : Bool) (t : State) : Prop := (t.chan i).swOut = some (swOf e b (s.brUp i) host) ∧ t.loftQ = s.loftQ ++ [mark e b] ∧
      t.isSet (KB_ROLES_SW_ARMED i 0) = true ∧ t.rd (KB_SW_BEAT_LO i 0) = b.truncate 32 ∧ t.cores = s.cores ∧ t.pos = s.pos ∧ t.tack = s.tack
    let j := slotOf i (s.getF (KB_ROLES_NEXT_SLOT i 0))
    let may := s.brUp i && s.hwKeys i && s.isSet (KB_ROLES_NEXT_V i 0)
    let aim := beatAdd (s.chan i).beginOut (s.epochBeats i)
    let near := (s.chan i).forced || !s.isSet (KB_ROLES_CUR_V i 0) || beatBefore aim (earliestSwitch s i)
    let atPoint := s.beatDue (beatSub w.beat (s.cancelLead i)) && !s.beatDue w.beat
    let kcv (d : Nat) : List Byte := if s.isSet (KB_ROLES_CUR_V i d) then kcvOf s i d (slotOf i (s.getF (KB_ROLES_CUR_SLOT i d))) else zeros 8
    let recent := br.late1.filter (fun y => s.now < y + ticksPerS)
    let late (t : State) : Prop := t.rd64 (BR_CNT i 8) = s.rd64 (BR_CNT i 8) + 1 ∧ t.getF (BR_STAT_LATE_1S i) = min 3 (max (recent.length + 1) br.late2.length) ∧
      Reports s t unitBridle 0x0602 i i
    let hb := beatBytes s.beat ++ [BitVec.ofNat 8 (s.getF POS_STAT_STATE), BitVec.ofNat 8 (s.getF (BR_STAT_EXCH i))] ++ beBytes 4 (s.getF (KB_EPOCH_EPOCH i 0)) ++ beBytes 4 (s.getF (KB_EPOCH_EPOCH i 1))
    let p' := (br.probeNo + 1) % 2 ^ 32
    (lone = true → s.brRuns i = true → st = 0 → (s.pairing i).isSome = true → s.noRandom = false → Completes (exec (.bridleSessionSetup n) s) fresh) ∧
    (lone = true → st = 1 → canHello s i = true → room = true → Completes (exec (.helloResend n) s) fun t => Queued s t i [brHello] ∧
      t.rd (BR_TX_SEQ i 0) = s.rd (BR_TX_SEQ i 0) + 1 ∧ t = { s with csr := t.csr, brTx := t.brTx }) ∧
    (lone = true → 2 ≤ st → s.rd (BR_TX_SEQ i 0) = 0xFFFFFFFF → Completes (exec (.bridleSidRollover n) s) fun t => fresh t ∧ t.tack = s.tack) ∧
    (lone = true → br.exch = some x → x.initiator = true → x.offer = [] → 2 ≤ st → s.noRandom = false → room = true → Completes (exec (.kemOfferSend n) s) fun t =>
      Sent s t i brKemOffer 0 1 false (beBytes 4 x.epoch ++ bytesOf 32 (Config.x25519Pub s.draw.1) ++ bytesOf 1568 (Config.mlkemPub s.draw.1)) ∧
      t.getF (BR_STAT_TRIES i) = min 7 (x.tries + 1) ∧ (t.chan i).br.exch.map (·.tries) = some (x.tries + 1) ∧ (t.chan i).br.exch.map (·.seed) = some s.draw.1 ∧ quiet t) ∧
    (br.exch = some x → x.initiator = true → x.offer ≠ [] → x.sent = false → x.tries < 8 → Completes (exec (.kemRetryTimeout n) s) fun t =>
      (t.chan i).br = { br with exch := some { x with offer := [], accept := [], ss := [], sent := false } } ∧ t = { s with chans := t.chans }) ∧
    (br.exch = some x → x.initiator = true → x.offer ≠ [] → x.sent = false → 8 ≤ x.tries → st ≠ 0 → Completes (exec (.kemRetryTimeout n) s) (down 3)) ∧
    (lone = true → (s.chan i).swOut = some w → 2 ≤ st → w.sent = false → s.chMode i ≠ 2 → room = true → Completes (exec (.switchAtSend n) s) fun t =>
      Sent s t i brSwitchAt 0 1 true (beBytes 4 w.epoch ++ beatBytes w.beat ++ zeros 2 ++ zeros 20) ∧ (t.chan i).swOut = some { w with sent := true, acked := false } ∧
      (t.chan i).br = { br with probesOut := br.probesOut ++ [2 ^ 48 + w.beat.toNat] } ∧ quiet t) ∧
    (lone = true → (s.chan i).swOut = none → may = true → s.chMode i ≠ 2 → near = true → room = true → (s.chMode i = 1 → s.beat.toNat ≤ aim.toNat) → Completes (exec (.switchAtSend n) s) fun t =>
      begun (s.slot j).epoch (earliestSwitch s i) false t ∧ Queued s t i [brSwitchAt]) ∧
    (lone = true → (s.chan i).swOut = none → may = true → s.chMode i = 0 → near = false → room = true → Completes (exec (.switchAtSend n) s) fun t =>
      begun (s.slot j).epoch aim false t ∧ Queued s t i [brSwitchAt]) ∧
    (lone = true → (s.chan i).swOut = some w → atPoint = true → w.markDone = false → s.chMode i ≠ 2 → s.brRuns i = true → 2 ≤ st → room = true → Completes (exec (.cancelPoint n) s) fun t =>
      begun w.epoch (earliestSwitch s i) w.host t ∧ Queued s t i [brSwitchCancel, brSwitchAt] ∧ Reports s t unitTack 0x0505 i i ∧ Reports s t unitBridle 0x0606 i (i + 7 * 65536)) ∧
    (lone = true → (s.chan i).swOut = some w → atPoint = true → w.markDone = true → w.sent = true → w.acked = false → s.chMode i ≠ 2 → s.brRuns i = true → 2 ≤ st → room = true →
      Completes (exec (.cancelPoint n) s) fun t => begun w.epoch (earliestSwitch s i) w.host t ∧ Queued s t i [brSwitchCancel, brSwitchAt] ∧
        Reports s t unitBridle 0x0606 i (i + 5 * 65536) ∧ t.rd64 (BR_CNT i 10) = s.rd64 (BR_CNT i 10) + 1) ∧
    ((s.chan i).swOut = some w → w.markDone = true → w.acked = true → Completes (exec (.cancelPoint n) s) fun t => t = s) ∧
    (2 ≤ st → room = true → Completes (exec (.bridleHeartbeatSend n) s) fun t => Sent s t i brHeartbeat 0 1 false hb ∧
      (t.chan i).br = { br with hbCount := br.hbCount + 1, posCount := br.posCount + 1 } ∧ quiet t) ∧
    (2 ≤ st → room = true → s.getF (BR_CFG_PROBE_INT i) ≠ 0 → s.getF (BR_CFG_PROBE_INT i) ≤ br.hbCount → Completes (exec (.bridleProbeSend n) s) fun t =>
      Sent s t i brProbe 0 1 false (beBytes 4 p' ++ zeros 4) ∧ (t.chan i).br = { br with hbCount := 0, probeNo := p', probesOut := br.probesOut ++ [p'] } ∧ quiet t) ∧
    (s.getF (BR_CFG_PROBE_INT i) = 0 → Completes (exec (.bridleProbeSend n) s) fun t => t = s) ∧
    (2 ≤ st → room = true → s.chMode i = 1 ∨ s.chMode i = 2 → Completes (exec (.bridlePositionSend n) s) fun t => Sent s t i brPosition 0 1 false (positionBody s i) ∧
      (t.chan i).br = { br with posCount := 0 } ∧ quiet t) ∧
    (lone = true → 2 ≤ st → room = true → Completes (exec (.bridleDigestSend n) s) fun t => Sent s t i brDigest 0 1 false (kcv 0 ++ kcv 1 ++ lineDigest s i) ∧
      (t.chan i).br = { br with digestDue := false } ∧ quiet t) ∧
    (lone = true → br.probesOut = p :: r → 2 ≤ st → recent.length < 2 → Completes (exec (.bridleAnswerTimeout n) s) fun t => late t ∧ t.getF (BR_STAT_STATE i) = 3 ∧
      (t.chan i).br = { br with probesOut := r, late1 := recent ++ [s.now] } ∧ t.cores = s.cores ∧ t.pos = s.pos) ∧
    (lone = true → br.probesOut = p :: r → 2 ≤ st → 2 ≤ recent.length → Completes (exec (.bridleAnswerTimeout n) s) fun t => t.getF (BR_STAT_STATE i) = 0 ∧
      t.rd64 (BR_CNT i 8) = s.rd64 (BR_CNT i 8) + 1 ∧ (t.chan i).br = Session.reset ∧ (t.chan i).swOut = none ∧ t.cores = s.cores ∧ t.pos = s.pos) ∧
    (st = 3 → Completes (exec (.bridleSuspectClear n) s) fun t => t.getF (BR_STAT_STATE i) = 2 ∧ t.getF (BR_STAT_LATE_1S i) = 0 ∧
      (t.chan i).br = { br with late1 := [], late2 := [] } ∧ RegsBut [BR_STAT i] s t ∧ t = { s with csr := t.csr, chans := t.chans }) ∧
    (st ≠ 3 → Completes (exec (.bridleSuspectClear n) s) fun t => t = s) ∧
    (2 ≤ st → br.hbSeen = true → Completes (exec (.bridleHbLoss n) s) fun t => (t.chan i).br = { br with hbSeen := false } ∧ t = { s with chans := t.chans }) ∧
    (2 ≤ st → br.hbSeen = false → s.getF (BR_STAT_HB_MISS i) < 2 → Completes (exec (.bridleHbLoss n) s) fun t => t.getF (BR_STAT_HB_MISS i) = s.getF (BR_STAT_HB_MISS i) + 1 ∧
      RegsBut [BR_STAT i] s t ∧ t = { s with csr := t.csr }) ∧
    (2 ≤ st → br.hbSeen = false → 2 ≤ s.getF (BR_STAT_HB_MISS i) → Completes (exec (.bridleHbLoss n) s) (down 2))

/-- R250, R251: what every received message is checked for before its meaning: another type waits its turn; one not of the channel, of the wrong role, of
another session or not new is dropped and counted, or recorded.
Readings of the model it may rest on: log entry 47. -/
def Obligations.BridleReceiveChecks : Prop :=
  ∀ (s : State) (c : Instr) (y : Nat) (m : BrIn) (rest : List BrIn) (turn r : Nat),
    let cmds := [(Instr.bridleHelloRx, brHello), (Instr.bridlePositionRx, brPosition), (Instr.bridleProbeRx turn, brProbe), (Instr.bridleEchoRx r, brEcho),
      (Instr.bridleKemOfferRx, brKemOffer), (Instr.bridleKemAcceptRx, brKemAccept), (Instr.bridleKeyConfirmRx, brKeyConfirm), (Instr.bridleSwitchAtRx turn, brSwitchAt),
      (Instr.bridleSwitchAckRx r, brSwitchAck), (Instr.bridleSwitchCancelRx, brSwitchCancel), (Instr.bridleHeartbeatRx, brHeartbeat), (Instr.bridleDigestRx, brDigest),
      (Instr.bridleAlarmRx, brAlarm)]
    let n := m.ch
    let b := m.bytes
    let ours := s.brRuns n && decide (s.getF (BR_CFG_PEER_CH n) = be b 4 2) && decide (be b 6 2 = n)
    let role := decide (at' b 8 / 128 = 1) == s.roleB n
    let sid := decide (be b 24 8 = s.sidTx n) || (decide (y = brHello) && decide (be b 24 8 = 0))
    let new := (decide (y = brHello) && decide (be b 16 8 ≠ s.sidRx n)) || decide (tblGet 0 (at' b 8 / 32 % 4 + 4 * m.path) (s.chan n).br.rxSeq < be b 12 4)
    let dropped (t : State) : Prop := t.rd64 (BR_CNT n 6) = s.rd64 (BR_CNT n 6) + 1 ∧ t = { s with csr := t.csr, brIn := rest }
    ((c, y) ∈ cmds → s.brIn = [] → Completes (exec c s) fun t => t = s) ∧
    ((c, y) ∈ cmds → s.brIn = m :: rest → at' b 1 ≠ y → Completes (exec c s) fun t => t = s) ∧
    ((c, y) ∈ cmds → s.brIn = m :: rest → at' b 1 = y → n < 512 → ours = false → Completes (exec c s) dropped) ∧
    ((c, y) ∈ cmds → s.brIn = m :: rest → at' b 1 = y → n < 512 → ours = true → role = true → Completes (exec c s) fun t => Reports s t unitBridle 0x0604 n (n % 65536) ∧
      t = { s with csr := t.csr, ledger := t.ledger, bell := t.bell, outs := t.outs, brIn := rest }) ∧
    ((c, y) ∈ cmds → s.brIn = m :: rest → at' b 1 = y → n < 512 → ours = true → role = false → (sid && new) = false → Completes (exec c s) fun t => t.brIn = rest ∧
      (if Tagged s m then dropped t else (t.rd64 (BR_CNT n 4) = s.rd64 (BR_CNT n 4) + 1 ∧ Reports s t unitBridle 0x0603 n (n % 65536))))

/-- R254 to R264, R73 to R76, R267: what a message that passes its checks does: HELLO, POSITION, PROBE and its ECHO, the exchange, switches and their
cancels, HEARTBEAT, DIGEST and ALARM.
Readings of the model it may rest on: log entries 40, 42, 46, 48, 49. -/
def Obligations.BridleReceives : Prop :=
  ∀ (s : State) (n : Fin 512) (m : BrIn) (rest : List BrIn) (turn r : Nat) (x : Exch) (w : Switch) (k : Nat),
    let i := n.val
    let c := s.chan i
    let b := m.bytes
    let from' (y : Nat) : Bool := decide (s.brIn = m :: rest) && decide (m.ch = i) && !s.chTwin i && Passes s m y
    let up := s.brUp i
    let room := decide ((s.rd (BR_TX_SEQ i 0)).toNat < 2 ^ 32 - 8) && decide ((s.rd (BR_TX_SEQ i 1)).toNat < 2 ^ 32 - 8)
    let still (t : State) : Prop := t.cores = s.cores ∧ t.pos = s.pos ∧ t.units = s.units
    let hello := sha (slice b 60 2592) = ((s.pairing i).map (·.hash)).getD [] ∧ Config.mldsaVerify (slice b 60 2592) (b.take 2652) (slice b 2652 4627) = true
    let line := slice b 44 16 = lineDigest s i
    let mine := decide (be b 24 8 = s.sidTx i) && decide (be b 24 8 ≠ 0)
    let p := be b 32 4
    let took := r - be b 36 4
    let rtt0 := if c.br.rttCount = 0 then took else if c.br.rttCount < 16 then min (s.rd (BR_RTT0 i)).toNat took else (s.rd (BR_RTT0 i)).toNat
    let lateEcho := decide (3000 < be b 36 4) || decide (rtt0 + s.getF (BR_TIMING_DELAY_TOL i) < took)
    let e := be b 32 4
    let beat : Beat := BitVec.ofNat 48 (be b 36 6)
    let spare := if s.isSet (KB_ROLES_SPARE_V i 0) then some (s.getF (KB_ROLES_SPARE_SLOT i 0)) else freeIndex s i
    let takes := up && s.hwKeys i && decide (e = nextEpoch s i) && !nextLocked s i && !s.noRandom && engineOk s 1 && engineOk s 2 && decide (c.br.exch = none)
    let seed := s.draw.1
    let pub := slice b 68 1568
    let acc := beBytes 4 e ++ bytesOf 32 (Config.x25519Pub seed) ++ bytesOf 1568 (Config.mlkemCt pub seed)
    let accMsg := brBody s i brKemAccept 0 ((s.rd (BR_TX_SEQ i 0)).toNat + 1) acc ++ zeros 16
    let ssB := bytesOf 32 (Config.mlkemEncSecret pub seed) ++ bytesOf 32 (Config.x25519Shared seed (slice b 36 32))
    let ssA := bytesOf 32 (Config.mlkemDecSecret x.seed pub) ++ bytesOf 32 (Config.x25519Shared x.seed (slice b 36 32))
    let filled (j : Nat) (th ss : List Byte) (t : State) : Prop := t.slot (slotOf i j) =
        { kind := 1, bytes := exchSecret s i e th ss ++ zeros 14, epoch := e, an := e % 4, keyId := [], persist := false, bad := false } ∧
      tblGet [] i t.tack.ck = exchConfirmKey s i e th ss
    let th := transcript x.offer x.accept
    let match' := x.sent && decide (x.epoch = e) && decide (slice b 32 52 = confirmBody s i x.epoch (!s.roleB i) th)
    let sp := s.getF (KB_ROLES_SPARE_SLOT i 0)
    let again := decide (c.swIn.map (fun y => (y.epoch, y.beat)) = some (e, beat))
    let known := kcvKnown s i 1 (slice b 32 8) && kcvKnown s i 0 (slice b 40 8) && decide (slice b 48 16 = lineDigest s i)
    let only (t : State) : Prop := t = { s with csr := t.csr, chans := t.chans, brIn := rest, ledger := t.ledger, bell := t.bell, outs := t.outs }
    (from' brHello = true → s.getF (BR_STAT_STATE i) = 1 → Completes (exec .bridleHelloRx s) fun t => Taken s t m rest (if ¬ hello then Reports s t unitBridle 0x0603 i i ∧ only t
      else if ¬ line then Reports s t unitBridle 0x0607 i i ∧ only t
      else t.sidRx i = be b 16 8 ∧ t.getF (BR_STAT_STATE i) = (if mine then 2 else 1) ∧ (mine = true → (t.chan i).br.verified = true) ∧ still t)) ∧
    (from' brPosition = true → up = true → s.chMode i ≠ 2 → Completes (exec .bridlePositionRx s) fun t => Taken s t m rest (
      (t.chan i).br.peerPos = some (be b 32 6, BitVec.ofNat 64 (be b 40 8), be b 48 6) ∧ t = { s with csr := t.csr, chans := t.chans, brIn := rest })) ∧
    (from' brPosition = true → up = true → s.chMode i = 2 → c.l1.posOk = false → Completes (exec .bridlePositionRx s) fun t => Taken s t m rest (
      t.rd64 (CH_IN_POS_LO i) = BitVec.ofNat 64 (be b 32 6) ∧ (t.chan i).l1.posOk = true ∧ t = { s with csr := t.csr, chans := t.chans, brIn := rest })) ∧
    (from' brProbe = true → up = true → room = true → Completes (exec (.bridleProbeRx turn) s) fun t => Taken s t m rest (t.rd (BR_TURN_LAST i) = BitVec.ofNat 32 turn ∧
      Sent s t i brEcho 1 0 true (slice b 32 4 ++ beBytes 4 turn ++ beBytes 8 s.stamp.toNat) ∧ t = { s with csr := t.csr, chans := t.chans, brIn := rest, brTx := t.brTx })) ∧
    (from' brEcho = true → up = true → c.br.probesOut.contains p = true → s.chMode i ≠ 2 → lateEcho = false → Completes (exec (.bridleEchoRx r) s) fun t => Taken s t m rest (
      t.rd (BR_RTT_LAST i) = BitVec.ofNat 32 took ∧ t.rd (BR_RTT0 i) = BitVec.ofNat 32 rtt0 ∧ (t.chan i).br.probesOut = c.br.probesOut.filter (· ≠ p) ∧
      t.getF (BR_STAT_STATE i) = s.getF (BR_STAT_STATE i) ∧ t = { s with csr := t.csr, chans := t.chans, brIn := rest })) ∧
    (from' brEcho = true → up = true → c.br.probesOut.contains p = true → s.chMode i ≠ 2 → lateEcho = true → c.br.late1 = [] → at' b 8 / 32 % 4 = 1 → Completes (exec (.bridleEchoRx r) s) fun t =>
      Taken s t m rest (t.rd64 (BR_CNT i 8) = s.rd64 (BR_CNT i 8) + 1 ∧ Reports s t unitBridle 0x0602 i i ∧ t.getF (BR_STAT_STATE i) = 3 ∧ (t.chan i).br.late1 = [s.now] ∧ only t)) ∧
    (from' brKemOffer = true → takes = true → spare = some k → room = true → Completes (exec .bridleKemOfferRx s) fun t => Taken s t m rest (filled k (transcript b accMsg) ssB t ∧
      Queued s t i [brKemAccept, brKeyConfirm] ∧ t.isSet (KB_ROLES_SPARE_V i 0) = true ∧ t.getF (KB_ROLES_SPARE_SLOT i 0) = k ∧ t.isSet (BR_STAT_EXCH i) = true ∧
      (t.chan i).br.exch = some { epoch := e, initiator := false, seed := seed, offer := b, accept := accMsg, ss := ssB, sent := true, tries := 0 } ∧ still t)) ∧
    (from' brKemOffer = true → up = true → e ≠ nextEpoch s i → Completes (exec .bridleKemOfferRx s) fun t => Taken s t m rest (t.rd64 (BR_CNT i 6) = s.rd64 (BR_CNT i 6) + 1 ∧
      t = { s with csr := t.csr, chans := t.chans, brIn := rest })) ∧
    (from' brKemAccept = true → up = true → c.br.exch = some x → x.initiator = true → x.offer ≠ [] → x.epoch = e → x.sent = false → room = true → Completes (exec .bridleKemAcceptRx s) fun t =>
      Taken s t m rest (filled sp (transcript x.offer b) ssA t ∧ Queued s t i [brKeyConfirm] ∧ (t.chan i).br.exch = some { x with accept := b, ss := ssA, sent := true } ∧ still t)) ∧
    (from' brKeyConfirm = true → up = true → c.br.exch = some x → c.br.confirmFails = 0 → x.initiator = true → x.tries < 8 → s.isSet (KB_ROLES_SPARE_V i 0) = true → Completes (exec .bridleKeyConfirmRx s) fun t =>
      Taken s t m rest (still t ∧ if match' then t.isSet (KB_ROLES_NEXT_V i 0) = true ∧ t.isSet (KB_ROLES_NEXT_V i 1) = true ∧ t.getF (KB_ROLES_NEXT_SLOT i 0) = sp ∧
          t.getF (KB_ROLES_NEXT_SLOT i 1) = sp ∧ t.isSet (KB_ROLES_SPARE_V i 0) = false ∧ (t.chan i).br.exch = none ∧ t.isSet (BR_STAT_EXCH i) = false ∧
          t.rd64 (BR_CNT i 14) = s.rd64 (BR_CNT i 14) + 1 ∧ t.slot (slotOf i sp) = s.slot (slotOf i sp)
        else t.slot (slotOf i sp) = Slot.reset ∧ (t.chan i).br.confirmFails = 1 ∧ Reports s t unitBridle 0x0605 i i ∧
          (t.chan i).br.exch = some { x with offer := [], accept := [], ss := [], sent := false })) ∧
    (from' brSwitchAt = true → room = true → switchRefusal s i e beat (be b 44 6, BitVec.ofNat 64 (be b 50 8), be b 58 6) = some k → k ≠ 4 → Completes (exec (.bridleSwitchAtRx turn) s) fun t =>
      Taken s t m rest (t.rd (BR_TURN_LAST i) = BitVec.ofNat 32 turn ∧ Sent s t i brSwitchCancel 1 0 true (slice b 32 10 ++ [BitVec.ofNat 8 k, 0]) ∧
        t.rd64 (BR_CNT i 10) = s.rd64 (BR_CNT i 10) + 1 ∧ Reports s t unitBridle 0x0606 i (i + k * 65536) ∧ (t.chan i).swIn = c.swIn ∧ still t)) ∧
    (from' brSwitchAt = true → room = true → switchRefusal s i e beat (be b 44 6, BitVec.ofNat 64 (be b 50 8), be b 58 6) = none → s.hwKeys i = true → again = false →
      Completes (exec (.bridleSwitchAtRx turn) s) fun t => Taken s t m rest (t.rd (BR_TURN_LAST i) = BitVec.ofNat 32 turn ∧
        (t.chan i).swIn = some { epoch := e, beat := beat, sent := true, acked := true, markDone := false, late := false, host := false } ∧
        t.loftQ = s.loftQ ++ [{ word := loftRingWord i 1 (e % 8), value := markWord e beat, urgent := true, wait := .mark i 1 e }] ∧ t.isSet (KB_ROLES_SW_ARMED i 1) = true ∧
        Sent s t i brSwitchAck 1 0 true (slice b 32 10 ++ zeros 2 ++ beBytes 4 turn) ∧
        (s.chMode i = 1 → t.rd64 (CH_MODE_W3_HI i - 4) = BitVec.ofNat 64 (beat.toNat * s.spb (s.getF (CH_CFG_CIPHER_PORT i)))) ∧ still t)) ∧
    (from' brSwitchAck = true → up = true → c.br.probesOut.contains (2 ^ 48 + beat.toNat) = false → c.swOut = some w → w.epoch = e → w.beat = beat →
      s.beatDue (beatSub beat (s.cancelLead i)) = false → Completes (exec (.bridleSwitchAckRx r) s) fun t => Taken s t m rest ((t.chan i).swOut = some { w with acked := true } ∧
        (t.chan i).swIn = c.swIn ∧ t = { s with csr := t.csr, chans := t.chans, brIn := rest })) ∧
    (from' brSwitchCancel = true → at' b 8 / 32 % 4 ≠ 0 → c.swOut = some w → w.epoch = e → w.beat = beat → Completes (exec .bridleSwitchCancelRx s) fun t => Taken s t m rest (
      (t.chan i).swOut = none ∧ (t.chan i).swIn = c.swIn ∧ t.isSet (KB_ROLES_SW_ARMED i 0) = false ∧ t.rd64 (BR_CNT i 12) = s.rd64 (BR_CNT i 12) + 1 ∧
      Reports s t unitBridle 0x0606 i (i + be b 42 1 * 65536) ∧ t.tack = s.tack ∧ still t)) ∧
    (from' brSwitchCancel = true → at' b 8 / 32 % 4 = 0 → c.swIn = some w → w.epoch = e → w.beat = beat → Completes (exec .bridleSwitchCancelRx s) fun t => Taken s t m rest (
      (t.chan i).swIn = none ∧ (t.chan i).swOut = c.swOut ∧ t.isSet (KB_ROLES_SW_ARMED i 1) = false ∧ t.rd64 (BR_CNT i 12) = s.rd64 (BR_CNT i 12) + 1 ∧ t.tack = s.tack ∧ still t)) ∧
    (from' brHeartbeat = true → up = true → Completes (exec .bridleHeartbeatRx s) fun t => Taken s t m rest ((t.chan i).br.hbSeen = true ∧ t.getF (BR_STAT_HB_MISS i) = 0 ∧
      t = { s with csr := t.csr, chans := t.chans, brIn := rest })) ∧
    (from' brDigest = true → up = true → Completes (exec .bridleDigestRx s) fun t => Taken s t m rest (if known then t = { s with csr := t.csr, chans := t.chans, brIn := rest }
      else Reports s t unitBridle 0x0607 i i ∧ only t)) ∧
    (from' brAlarm = true → up = true → Completes (exec .bridleAlarmRx s) fun t => Taken s t m rest (Reports s t unitBridle 0x0609 i (i + be b 32 2 * 65536) ∧ only t))

/-! ### The Twin pair and the merge (spec/11) -/

/-- R272, R273, R276, R279, R280, R292, R282, R285, R286, R291: the pair binds or says why not; the lead's BEAT; FREE_RUN, its end and promotion; a channel
rejoins or is late; and the merge loses a path, gives up a gap and trusts a path again.
Readings of the model it may rest on: log entries 5, 50. -/
def Obligations.TwinResults : Prop :=
  ∀ (s : State) (r : Mate) (arb : Bool) (n : Fin 512) (z : Nat) (e : Beat) (p2 : Bool) (u : HeldUnit),
    let i := n.val
    let st := s.getF TW_STAT_STATE
    let lead := takesLead s r arb
    let ns := twinChans s
    let own := BitVec.ofNat 64 (Config.freeValue s.draws)
    let a := if lead then own else r.value
    let b := if lead then r.value else own
    let prevB := beatSub s.beat 1
    let tw := (s.chan i).tw
    let still (t : State) : Prop := t.cores = s.cores ∧ t.pos = s.pos
    let link := decide (twinTurn s = some z) && decide (s.twin.backlog = [])
    let waits := s.pend.all (fun u => decide (u.ch < 512))
    let ready := tw.rejoining && tw.gotContext && decide (tw.eligible = some e) && s.beatDue e
    let last := ns.all (fun k => decide (k = i) || !(s.chan k).tw.rejoining)
    let p := if p2 then 2 else 1
    let turns := decide (s.chMode i = 2) && decide (leadPath s i = p) && !pathLost s i (3 - p)
    let gap := placesTo s i u.epoch u.asn
    (mayBind s = true → mateCheck s r lead = 0 → Completes (exec (.twinBound r arb) s) fun t => t.getF TW_STAT_STATE = (if lead then 2 else if ns = [] then 3 else 6) ∧
      t.twin.key = kdf s.tack.twinKey (ascii "DZ8512 twin session" ++ beBytes 8 a.toNat ++ beBytes 8 b.toNat) 32 ∧ t.twin.own = own ∧ t.twin.inq = [] ∧ t.twin.freeFrom = none ∧
      t.ym.bindBox = none ∧ t.isSet TW_STAT_ARB = arb ∧ (ns = [] → t.twin.count = 0 ∧ t.twin.bondTx = 0 ∧ t.twin.bondRx = 0) ∧ t.draws = s.draws + 1 ∧ still t) ∧
    (mayBind s = true → mateCheck s r lead ≠ 0 → Completes (exec (.twinBound r arb) s) fun t => t.isSet TW_STAT_ARB = arb ∧ RegsBut [TW_STAT] s t ∧ t = { s with csr := t.csr }) ∧
    (s.isSet TW_CFG_EN = true → st = 1 → s.twin.since + ticksPerS ≤ s.now → mateCheck s r lead ≠ 0 → Completes (exec (.twinBindFail r arb) s) fun t =>
      Reports s t unitMerge 0x0701 noPath (mateCheck s r lead) ∧ t.twin = { s.twin with since := s.now } ∧ t.getF TW_STAT_STATE = 1 ∧ t.ym.bindBox = none ∧ still t) ∧
    (st = 2 → link = true → Completes (exec .twinBeatSend s) fun t => TwinSent s t z (twinHead 2 0 ++ beatBytes prevB ++ beBytes 4 (tblGet 0 prevB.toNat s.twin.assigns) ++ zeros 4) ∧
      tblGet 0 prevB.toNat t.twin.assigns = 0 ∧ t = { s with twin := t.twin, fab := t.fab, outs := t.outs }) ∧
    (st ≠ 2 → Completes (exec .twinBeatSend s) fun t => t = s) ∧
    (st = 3 → 3 ≤ (s.beat - s.twin.lastCame).toNat → waits = true → Completes (exec .twinFreeRunEnter s) fun t => t.getF TW_STAT_STATE = 4 ∧ t.twin.freeFrom = some s.beat ∧
      t.isSet TW_EVT_FREE_RUN = true ∧ t.pend = [] ∧ (s.pend = [] → Reports2 s t unitMerge 0x0702 noPath 0 0 ∧ t.units = s.units) ∧ still t) ∧
    (st = 3 → (s.beat - s.twin.lastCame).toNat < 3 → Completes (exec .twinFreeRunEnter s) fun t => t = s) ∧
    (st = 4 → 4096 ≤ freeRunBeats s → Completes (exec .twinFreeRunExpiry s) fun t => t.getF TW_STAT_STATE = 5 ∧ t.isSet TW_EVT_MUTED = true ∧
      ns.all (fun k => t.muted k && t.isSet (CH_STAT_MUTED k)) = true ∧ Reports2 s t unitMerge 0x0703 noPath 0 0 ∧ t.twin = s.twin ∧ still t) ∧
    (st = 4 → s.isSet TW_CFG_ARB_EN = true → waits = true → Completes (exec (.twinPromote true) s) fun t => t.getF TW_STAT_STATE = 2 ∧ t.twin.freeFrom = none ∧ t.pend = [] ∧
      t.isSet TW_EVT_PROMOTED = true ∧ t.isSet TW_STAT_ARB = true ∧ (s.pend = [] → Reports2 s t unitMerge 0x0704 noPath 0 0) ∧ still t) ∧
    (st = 4 → arb = false → Completes (exec (.twinPromote arb) s) fun t => t.isSet TW_STAT_ARB = false ∧ RegsBut [TW_STAT] s t ∧ t = { s with csr := t.csr }) ∧
    (ready = true → s.chOpen i = true → Completes (exec (.twinRejoinEligible n) s) fun t => (t.chan i).tw.rejoining = false ∧ (t.chan i).tw.eligible = none ∧
      t.pend = s.pend.filter (fun u => !(decide (u.ch = i) && beatBefore (stampBeat u.stamp) e)) ∧ Reports s t unitMerge 0x070E i i ∧
      (last = true → t.isSet TW_EVT_REJOINED = true) ∧ t.getF TW_STAT_STATE = (if last && decide (st = 6) then 3 else st) ∧ still t) ∧
    (tw.rejoining = true → tw.since + 2 * ticksPerS ≤ s.now → Completes (exec (.twinRejoinLate n) s) fun t => Reports s t unitMerge 0x070D i i ∧ (t.chan i).tw.since = s.now ∧
      (t.chan i).tw.gotContext = false ∧ (t.chan i).tw.eligible = none ∧ (t.chan i).tw.rejoining = true ∧ (link = true → TwinSent s t z (twinHead 9 i)) ∧ still t) ∧
    (s.chOpen i = true → s.chTwin i = true → tw.held = [] → Completes (exec (.mergePathLost n p2) s) fun t => pathLost t i p = true ∧ pathLost t i (3 - p) = pathLost s i (3 - p) ∧
      t.getF (TWC_STAT_SEL n) = (if turns then 2 - p else s.getF (TWC_STAT_SEL n)) ∧ RegsBut [TWC_STAT i, MERGE_STAT] s t ∧ t = { s with csr := t.csr }) ∧
    (tw.held = [u] → mayRelease s i u = true → s.chMode i = 0 → fwdOut s i = false → s.isSet (CH_CFG_RTAG i) = false → Completes (exec (.mergeGapTimeout n) s) fun t =>
      (t.chan i).tw.held = [] ∧ relEpoch t i = u.epoch % 2 ^ 32 ∧ relAsn t i = u.asn + 1 ∧ t.rd64 (CH_REFUSE i 28) = s.rd64 (CH_REFUSE i 28) + BitVec.ofNat 64 gap ∧
      (gap ≠ 0 → Reports s t unitMerge 0x070B i gap) ∧ t.rd64 (CH_IN_STAT i 4) = s.rd64 (CH_IN_STAT i 4) + 1 ∧
      t.outs.contains (.frame (s.getF (CH_CFG_EGRESS_PORT i)) (padFrame u.frame ++ fcsOf (padFrame u.frame))) = true ∧ still t) ∧
    (tw.held = [] → Completes (exec (.mergeGapTimeout n) s) fun t => t = s) ∧
    (tw.held = [] → Completes (exec (.mergeDistrustEnd n) s) fun t => t.isSet (TWC_STAT_DISTRUST i) = false ∧ RegsBut [TWC_STAT i, MERGE_STAT] s t ∧ t = { s with csr := t.csr })

/-- R232, R276 to R281, R288 to R292: what each record of the twin link does where it arrives: ASSIGN, BEAT, DIGEST, VERDICT, SLOT and its acknowledgement,
BRIDLE, CONTEXT and the request for it; the digest a device closes; and that of a Witness.
Readings of the model it may rest on: log entry 50. -/
def Obligations.TwinRecordResults : Prop :=
  ∀ (s : State) (n : Fin 512) (c : List Byte) (rest : List (List Byte)) (z : Nat) (u : OutUnit) (e : Beat) (b : Nat) (d o : DWord) (m : FabMsg) (ms : List FabMsg),
    let i := n.val
    let st := s.getF TW_STAT_STATE
    let ns := twinChans s
    let tw := (s.chan i).tw
    let popped := { s.twin with inq := rest }
    let from' (y : Nat) : Bool := decide (s.twin.inq = c :: rest) && decide (be c 0 2 / 4096 = y) && decide (be c 0 2 % 512 = i)
    let link := decide (twinTurn s = some z) && decide (s.twin.backlog = [])
    let still (t : State) : Prop := t.cores = s.cores ∧ t.pos = s.pos ∧ t.twin.inq = rest
    let wit := isWitness s i
    let stamp := BitVec.ofNat 64 (extendNear s.stamp.toNat 32 64 (be c 6 4))
    let asn := BitVec.ofNat 64 (extendNear (fBase s i stamp).toNat 32 64 (be c 2 4))
    let fits := fun (y : OutUnit) => decide (y.ch = i) && decide (y.frame.length + 4 = be c 14 2) && decide (be y.fcs 0 4 = be c 10 4)
    let takes := decide (st = 3) && !tw.rejoining && !wit
    let efn := extendNear (s.rd64 (CH_MODE_W0_LO i)).toNat 32 48 (be c 2 4)
    let named := if s.isSdh i then efn else extendNear efn 8 48 ((s.rd64 (CH_MODE_W0_LO i)).toNat % 256)
    let bt : Beat := BitVec.ofNat 48 (be c 2 6)
    let recent (l : List Nat) : List Nat := l.filter (fun y => s.now < y + ticksPerS)
    let back (t : State) : Prop := (t.chan i).tw.rejoining = true ∧ (t.chan i).tw.since = s.now ∧ (t.chan i).tw.own = [] ∧ (t.chan i).tw.lead = [] ∧ t.muted i = true
    let diverged (l w : DWord) (t : State) : Prop := back t ∧ t.rd64 (TWC_CNT i 4) = s.rd64 (TWC_CNT i 4) + 1 ∧ t.isSet TW_EVT_DIVERGE = true ∧
      Reports2 s t unitMerge 0x0705 i l.toNat w.toNat ∧ t.rd64 (TWC_DIGEST i 0) = l ∧ t.rd64 (TWC_DIGEST i 2) = w ∧ t.getF TW_STAT_STATE = st
    let left := s.units.any (fun y => decide (y.ch = i) && decide (s.chMode i = 0) && decide ((stampBeat y.stamp).toNat = b))
    let closed := s.chTwin i && !left && !wit && decide (tblGet none b tw.own = some d) && !tw.crcBeat.any (fun y => decide (y.toNat = b))
    let db := be c 2 6
    let l := BitVec.ofNat 64 (be c 8 8)
    let k := at' c 2 % 4
    let f := at' c 3
    let slot := unwrap s.twin.key (slice c 8 56)
    let body := c.drop 2
    let seq := max (s.rd (BR_TX_SEQ i 0)).toNat (be body 12 4)
    let saw := decide (s.fab.inq = m :: ms) && decide (m.typ = 6) && decide (at' m.body 0 = 0x16) && decide (be m.body 2 2 % 512 = i)
    let wb := be m.body 4 6
    let trusts := s.isSet (TWC_CFG_WIT_EN i) && s.chTwin i && decide (m.src = s.getF (TWC_CFG_WIT_ID i)) && decide (st = 3)
    let lateW := (tblGet none wb tw.lead).any (fun y => beatBefore (beatAdd y.2 4) s.beat)
    let next := beatAdd s.beat 4
    (from' 1 = true → st = 2 → s.isSet TW_CFG_MY_PATH = false → Completes (exec .twinAssignRx s) fun t => t.isSet TW_EVT_TWO_LEADS = true ∧ Reports2 s t unitMerge 0x0709 noPath 0 0 ∧
      t.getF TW_STAT_STATE = 2 ∧ t = { s with csr := t.csr, ledger := t.ledger, bell := t.bell, outs := t.outs, twin := popped }) ∧
    (from' 1 = true → st = 2 → s.isSet TW_CFG_MY_PATH = true → Completes (exec .twinAssignRx s) fun t => t.isSet TW_EVT_TWO_LEADS = true ∧ Reports2 s t unitMerge 0x0709 noPath 0 0 ∧
      t.getF TW_STAT_STATE = 6 ∧ ns.all (fun j => t.muted j && (t.chan j).tw.rejoining) = true ∧ still t) ∧
    (from' 1 = true → st ≠ 2 → st ≠ 3 → st ≠ 6 → wit = false → Completes (exec .twinAssignRx s) fun t => t = { s with twin := popped }) ∧
    (from' 1 = true → takes = true → s.chMode i = 2 → Completes (exec .twinAssignRx s) fun t => t.rd64 (CH_MODE_W0_LO i) = BitVec.ofNat 64 named ∧ (t.chan i).l1.efnAt = none ∧
      t = { s with csr := t.csr, chans := t.chans, twin := popped }) ∧
    (from' 1 = true → takes = true → s.chMode i ≠ 2 → tw.unmatched = [] → s.pend.any fits = false → Completes (exec .twinAssignRx s) fun t =>
      (t.chan i).tw = { tw with unmatched := [(stamp, asn, be c 10 4, be c 14 2)] } ∧ t = { s with chans := t.chans, twin := popped }) ∧
    (from' 1 = true → takes = true → s.chMode i ≠ 2 → tw.unmatched = [] → s.pend = [u] → fits u = true → Completes (exec .twinAssignRx s) fun t => t.pend = [] ∧
      (t.chan i).tw.unmatched = [] ∧ t.rd64 (TWC_F_COUNT_LO i) = asn + 1 ∧ t.rd64 (CH_OUT_ASN_LO i) = asn + 1 ∧
      t.units.any (fun y => decide (y.ch = i) && decide (y.asn = asn) && decide (y.stamp = stamp) && decide (y.frame = u.frame)) = true ∧ still t) ∧
    (from' 2 = true → st = 3 → Completes (exec .twinBeatRx s) fun t => t.twin.lastBeat = some bt ∧ t.twin.lastCame = s.beat ∧
      (∀ j ∈ ns, t.pend.any (fun y => decide (y.ch = j) && beatBefore (stampBeat y.stamp) bt) = false) ∧ (ns = [] → t = { s with twin := t.twin }) ∧ still t) ∧
    (from' 2 = true → st = 4 → ns = [] → s.twin.freeFrom = some e → beatBefore bt e = false → Completes (exec .twinBeatRx s) fun t => t.getF TW_STAT_STATE = 3 ∧
      t.twin = { popped with lastBeat := some bt, lastCame := s.beat, freeFrom := none } ∧ t = { s with csr := t.csr, twin := t.twin }) ∧
    (from' 2 = true → st < 3 → Completes (exec .twinBeatRx s) fun t => t = { s with twin := popped }) ∧
    (closed = true → st = 2 → link = true → Completes (exec (.twinDigestDone n b) s) fun t => TwinSent s t z (twinHead 3 i ++ beBytes 6 b ++ beBytes 8 d.toNat) ∧
      tblGet none b (t.chan i).tw.own = none ∧ t = { s with chans := t.chans, twin := t.twin, fab := t.fab, outs := t.outs }) ∧
    (s.chTwin i = false → Completes (exec (.twinDigestDone n b) s) fun t => t = s) ∧
    (left = true → wit = false → Completes (exec (.twinDigestDone n b) s) fun t => t = s) ∧
    (from' 3 = true → st = 3 → tw.rejoining = false → tblGet none db tw.own = none → Completes (exec .twinDigestRx s) fun t =>
      tblGet none db (t.chan i).tw.lead = some (l, s.beat) ∧ t = { s with chans := t.chans, twin := popped }) ∧
    (from' 3 = true → st = 3 → tw.rejoining = false → tblGet none db tw.own = some l → Completes (exec .twinDigestRx s) fun t => tblGet none db (t.chan i).tw.own = none ∧
      tblGet none db (t.chan i).tw.lead = none ∧ t = { s with chans := t.chans, twin := popped }) ∧
    (from' 3 = true → st = 3 → tw.rejoining = false → tblGet none db tw.own = some o → o ≠ l → s.isSet (TWC_CFG_WIT_EN i) = false → (recent s.twin.divs).length < 2 →
      Completes (exec .twinDigestRx s) fun t => diverged l o t ∧ t.twin.divs = recent s.twin.divs ++ [s.now] ∧ still t) ∧
    (saw = true → trusts = true → lateW = false → tblGet none wb tw.own = none → Completes (exec .witnessDigestRx s) fun t => t.fab.inq = ms ∧
      tblGet none wb (t.chan i).tw.wit = some (BitVec.ofNat 64 (be m.body 10 8)) ∧ t = { s with chans := t.chans, fab := t.fab }) ∧
    (saw = true → trusts = false → st ≠ 6 → Completes (exec .witnessDigestRx s) fun t => t = { s with fab := { s.fab with inq := ms } }) ∧
    (from' 7 = true → st ≠ 2 → Completes (exec .twinVerdictRx s) fun t => t.rd64 (TWC_DIGEST i 0) = l ∧ t.rd64 (TWC_DIGEST i 2) = BitVec.ofNat 64 (be c 16 8) ∧
      t.rd64 (TWC_DIGEST i 4) = BitVec.ofNat 64 (be c 24 8) ∧ t = { s with csr := t.csr, twin := popped }) ∧
    (from' 7 = true → st = 2 → be c 0 2 / 512 % 8 = 2 → (recent s.twin.votes).length < 2 → Completes (exec .twinVerdictRx s) fun t => back t ∧ t.getF TW_STAT_STATE = 2 ∧
      Reports2 s t unitMerge 0x0706 i (be c 8 8) (be c 16 8) ∧ t.isSet TW_EVT_OUTVOTED = true ∧ t.twin.votes = recent s.twin.votes ++ [s.now] ∧ still t) ∧
    (from' 7 = true → st = 2 → be c 0 2 / 512 % 8 = 2 → 2 ≤ (recent s.twin.votes).length → Completes (exec .twinVerdictRx s) fun t => back t ∧ t.getF TW_STAT_STATE = 3 ∧
      t.isSet TW_EVT_FAULTY = true ∧ t.twin.votes = [] ∧ t.twin.lastCame = s.beat ∧ still t) ∧
    (from' 4 = true → wit = false → link = true → Completes (exec .twinSlotRx s) fun t => still t ∧ (slot = none → Reports s t unitTack 0x0503 noPath 0 ∧ Counted s t TR_CNT_UNWRAP_FAIL 1) ∧
      slot.all (fun p => decide (t.slot (slotOf i k) = Slot.mk (f / 16 % 4) (p.take 46) (be c 4 4) (f % 4) [] false false)) = true ∧
      (slot.isSome = true → f / 4 % 4 = 0 → t.isSet (KB_ROLES_NEXT_V i 0) = true ∧ t.isSet (KB_ROLES_NEXT_V i 1) = true ∧ t.getF (KB_ROLES_NEXT_SLOT i 0) = k ∧ t.getF (KB_ROLES_NEXT_SLOT i 1) = k) ∧
      (slot.isSome = true → TwinSent s t z (twinHead 8 i ++ [BitVec.ofNat 8 k]))) ∧
    (from' 8 = true → s.ym.installs = [] → Completes (exec .twinSlotAckRx s) fun t => (t.chan i).tw = { tw with slotAcked := k :: tw.slotAcked.filter (· ≠ k) } ∧
      t = { s with chans := t.chans, twin := popped }) ∧
    (from' 5 = true → st < 3 → Completes (exec .twinBridleRx s) fun t => t = { s with twin := popped }) ∧
    (from' 5 = true → 3 ≤ st → be body 16 8 = s.sidTx i → at' body 1 ≠ brSwitchAt → at' body 1 ≠ brSwitchCancel → Completes (exec .twinBridleRx s) fun t =>
      t.brTx = s.brTx ++ [BrOut.mk i 1 false body 0] ∧ t.rd64 (BR_CNT i 0) = s.rd64 (BR_CNT i 0) + 1 ∧ t.rd (BR_TX_SEQ i 0) = BitVec.ofNat 32 seq ∧
      t = { s with csr := t.csr, brTx := t.brTx, twin := popped }) ∧
    (from' 5 = true → 3 ≤ st → be body 16 8 = s.sidTx i → at' body 1 = brSwitchAt → s.chMode i ≠ 2 → Completes (exec .twinBridleRx s) fun t => t.brTx = s.brTx ++ [BrOut.mk i 1 true body 0] ∧
      (t.chan i).swOut.map (fun w => (w.epoch, w.beat, w.sent, w.acked)) = some (be body 32 4, BitVec.ofNat 48 (be body 36 6), true, false) ∧ t.isSet (KB_ROLES_SW_ARMED i 0) = true ∧ still t) ∧
    (from' 5 = true → 3 ≤ st → be body 16 8 = s.sidTx i → at' body 1 = brSwitchCancel → Completes (exec .twinBridleRx s) fun t => t.brTx = s.brTx ++ [BrOut.mk i 1 true body 0] ∧
      (t.chan i).swOut = none ∧ t.isSet (KB_ROLES_SW_ARMED i 0) = false ∧ still t) ∧
    (from' 6 = true → tw.rejoining = true → Completes (exec .twinContextRx s) fun t => (t.chan i).tw = { tw with gotContext := true, eligible := some (BitVec.ofNat 48 (be c 8 6)) } ∧
      t.rd (CH_OUT_ASN_LO i) = BitVec.ofNat 32 (le c (16 + 0x40) 4) ∧ t.rd64 (TWC_F_COUNT_LO i) = t.rd64 (CH_OUT_ASN_LO i) ∧ (t.chan i).beginOut = BitVec.ofNat 48 (be c 2000 6) ∧
      (t.chan i).rtagCount = be c 14 2 ∧ still t) ∧
    (from' 6 = true → tw.rejoining = false → Completes (exec .twinContextRx s) fun t => t = { s with twin := popped }) ∧
    (from' 9 = true → s.chTwin i = true → s.chOpen i = true → s.chMode i = 0 → s.isSet (KB_ROLES_CUR_V i 0) = false → s.isSet (KB_ROLES_PREV_V i 0) = false →
      s.isSet (KB_ROLES_NEXT_V i 0) = false → link = true → Completes (exec .twinContextRequestRx s) fun t => TwinSent s t z (contextRecord s i next) ∧
      t = { s with chans := t.chans, twin := t.twin, fab := t.fab, outs := t.outs }) ∧
    (from' 9 = true → s.chTwin i = false → Completes (exec .twinContextRequestRx s) fun t => t = { s with twin := popped })

/-! ### The fabric (spec/12) -/

/-- R296 to R298, R300, R308 to R314, R331, R332: a Z link meets its peer, takes, refuses, acknowledges and replays flits, and measures its delay; POSITION, peer
reads, writes and doorbells, the answers to this device's own requests, gaps in a numbered stream, and forwarded frames.
Readings of the model it may rest on: log entry 7. -/
def Obligations.FabricLinkResults : Prop :=
  ∀ (s : State) (z : Fin 8) (serial : DWord) (dev : Fin 1024) (port : Fin 8) (f : List Byte) (q : Fin 4096) (t1 t2 t3 t4 : Nat) (m : FabMsg) (ms : List FabMsg) (y : Nat) (w : FabReq) (vc : Fin 4)
      (busy loftOk : Bool) (n : Nat),
    let k := z.val
    let p := s.zp k
    let up := s.zUp k
    let crcOk := decide (f.length = 128) && decide (fcsOf (f.take 124) = f.drop 124)
    let kind := at' f 0 / 32
    let x := parseMsg k (slice f 8 116)
    let counted (t : State) : Prop := Counted s t (ZP_CRC_ERR_CRC_ERR k) 1
    let naks (t : State) : Prop := (t.zp k).nak = true ∧ t.outs.length = s.outs.length + 1 ∧ (t.zp k).rxSeq = p.rxSeq
    let mineHere := s.isSet FAB_CFG_EN && decide (s.getF FAB_STAT_STATE = 2) && decide (x.flags = 0) && decide (x.dst = s.devId) && [1, 2, 3, 4, 5, 8, 0xA].contains x.typ &&
      decide (x.een = tblGet 0 (4 * x.src + fabVc x.typ) s.fab.eenRx) && decide (s.fab.early = []) && decide (x.een < 65536)
    let sends := s.getF FAB_STAT_STATE ≠ 3 ∧ fabRoutePort s m.src = some y
    let head (typ : Nat) : Bool := decide (s.fab.inq = m :: ms) && decide (m.typ = typ)
    let popped := { s.fab with inq := ms }
    let o := m.addr % 2 ^ 38
    let len := be m.body 0 4
    let far := tblGet FarTag.reset (w.req % 8) (s.core (w.req / 8)).tags
    let asked := decide (s.fab.reqs.find? (fun r => decide (r.tag = m.tag) && decide (r.dst = m.src)) = some w) && far.busy && !(s.core (w.req / 8)).frozen && decide (w.req < 256)
    let ended (st : Nat) (t : State) : Prop := t.fab.reqs = s.fab.reqs.filter (fun r => r.tag ≠ w.tag) ∧
      tblGet FarTag.reset (w.req % 8) (t.core (w.req / 8)).tags = { far with busy := false, status := st } ∧ (∀ j : Fin 32, j.val ≠ w.req / 8 → t.core j.val = s.core j.val)
    let l := ((((t4 : Int) - t1 - ((t3 : Int) - t2)) * 32768).toNat :: p.delays).take 16
    let late := s.fab.early.filter (fun e => decide (e.2.src = dev.val) && decide (fabVc e.2.typ = vc.val))
    let pm := posMsgBody s.devId s.stamp s.pos.cur.cls (s.getF POS_STAT_STATE) 0 0
    let cls := at' m.body 10 % 4
    let master := decide (be m.body 0 2 = (if s.isFollower then s.getF TW_CFG_MATE_ID else s.getF FAB_CFG_POS_MASTER_ID)) && decide (s.getF POS_CFG_SRC = 3)
    let i := be m.body 0 2 % 512
    let out := at' m.body 2 % 32
    let fwd := slice m.body 8 (be m.body 6 2)
    let frame := fwd.take (fwd.length - 4)
    let ours := s.isSet (FAB_FWD_FWD_EN i) && decide (s.getF (FAB_FWD_PEER_DEV i) = m.src)
    let asn := s.rd64 (CH_OUT_ASN_LO i)
    let admits := (s.chan i).swOut.isNone && s.chOpen i && s.isSet (CH_CFG_OUT_EN i) && outKeyed s i && decide (asn.toNat + 1 < (asnLimits s i).1) &&
      decide (s.chMode i = 0) && !s.isSet (KB_ROLES_PERSIST i 0) && shedsOk s i none && !pathStopped s i && !noBuffer s i ((frame.length + 4 + 255) / 256) && !s.chTwin i
    (s.getF (PORT_STAT_STATE (64 + k)) = 1 → Completes (exec (.fabInitRx z serial dev port) s) fun t => if serial = Config.serial then
        (t.getF (PORT_STAT_STATE (64 + k)) = 1 ∧ t.isSet ⟨FAB_EVT, 0, 0⟩ = true ∧ Reports s t unitFabric 0x0808 noPath k ∧ t.fab = s.fab)
      else (t.getF (ZP_STAT_PEER_ID k) = dev.val ∧ t.getF (ZP_STAT_PEER_PORT k) = port.val ∧ t.zp k = { p with init := true, peer := serial } ∧
        t.getF (PORT_STAT_STATE (64 + k)) = (if s.isSet (PORT_STAT_LOCK (64 + k)) then 2 else 1) ∧ t = { s with csr := t.csr, fab := t.fab })) ∧
    (s.getF (PORT_STAT_STATE (64 + k)) ≠ 1 → Completes (exec (.fabInitRx z serial dev port) s) fun t => t = s) ∧
    (up = true → crcOk = false → p.nak = false → Completes (exec (.fabFlitRx z f) s) fun t => counted t ∧ naks t ∧ t = { s with csr := t.csr, fab := t.fab, outs := t.outs }) ∧
    (up = true → crcOk = true → 1 ≤ kind → kind ≤ 4 → 1 ≤ (be f 2 2 % 4096 + 4096 - p.rxSeq) % 4096 → (be f 2 2 % 4096 + 4096 - p.rxSeq) % 4096 < 2048 → p.nak = true →
      Completes (exec (.fabFlitRx z f) s) fun t => counted t ∧ t.fab = s.fab ∧ t.outs = s.outs) ∧
    (up = true → crcOk = true → kind = 4 → be f 2 2 % 4096 = p.rxSeq → p.txq = [] → mineHere = true → Completes (exec (.fabFlitRx z f) s) fun t => (t.zp k).rxSeq = (p.rxSeq + 1) % 4096 ∧
      (t.zp k).nak = false ∧ t.fab.inq = s.fab.inq ++ [x] ∧ tblGet 0 (4 * x.src + fabVc x.typ) t.fab.eenRx = (x.een + 1) % 65536 ∧ t.fab.early = [] ∧
      t.outs.length = s.outs.length + 1 ∧ t = { s with csr := t.csr, fab := t.fab, outs := t.outs }) ∧
    (up = true → crcOk = true → kind = 0 → p.txq = [] → p.replay.findIdx? (fun e => e.1 = be f 4 2 % 4096) = some n → Completes (exec (.fabFlitRx z f) s) fun t =>
      (t.zp k).replay = p.replay.drop (n + 1) ∧ (t.zp k).tries = 0 ∧ tblGet 0 (at' f 6 / 64) (t.zp k).credit = at' f 7 ∧ t = { s with fab := t.fab }) ∧
    (up = true → p.replay ≠ [] → p.replay.findIdx? (fun e => e.1 = q.val) = some 0 → p.tries < 16 → Completes (exec (.fabNakRx z q) s) fun t => (t.zp k).replay = p.replay ∧
      (t.zp k).tries = p.tries + 1 ∧ t.outs.length = s.outs.length + p.replay.length ∧ Counted s t (ZP_REPLAY_REPLAY k) p.replay.length ∧ t = { s with csr := t.csr, fab := t.fab, outs := t.outs }) ∧
    (up = false → Completes (exec (.fabNakRx z q) s) fun t => t = s) ∧
    (up = true → p.replay ≠ [] → p.ackTick + 3000 ≤ s.now → p.tries < 16 → Completes (exec (.fabReplayTimeout z) s) fun t => (t.zp k).replay = p.replay ∧ (t.zp k).tries = p.tries + 1 ∧
      (t.zp k).ackTick = s.now ∧ t.outs.length = s.outs.length + p.replay.length ∧ Counted s t (ZP_REPLAY_REPLAY k) p.replay.length) ∧
    (up = true → p.replay ≠ [] → p.ackTick + 3000 ≤ s.now → 16 ≤ p.tries → Completes (exec (.fabReplayTimeout z) s) fun t => t.zUp k = false ∧ (t.zp k).replay = [] ∧ t.cores = s.cores) ∧
    (s.now < p.ackTick + 3000 → Completes (exec (.fabReplayTimeout z) s) fun t => t = s) ∧
    (up = true → Completes (exec (.fabTsync z t1 t2 t3 t4) s) fun t =>
      (t.zp k).delays = l ∧ t.getF (ZP_DELAY_DELAY k) = l.foldl (· + ·) 0 / l.length % 2 ^ 32 ∧ RegsBut [ZP_DELAY k] s t ∧ t = { s with csr := t.csr, fab := t.fab, outs := t.outs }) ∧
    (s.fabMember = true → s.getF FAB_CFG_POS_MASTER_ID = s.devId → p.tree = true → up = true → Completes (exec .fabPositionSend s) fun t =>
      (zMessages (t.zp k)).contains (fabHeader 9 0x40 0x3FF s.devId 0 pm.length 0 0 0 ++ pm) = true ∧ t = { s with fab := t.fab, outs := t.outs }) ∧
    (head 9 = true → master = true → s.fabMember = false → Completes (exec (.fabPositionRx y) s) fun t => t.pos.fabPos = some (posArrived s m cls) ∧ t.getF POS_CFG_BEAT_CLASS = cls ∧
      RegsBut [POS_CFG] s t ∧ t = { s with csr := t.csr, pos := t.pos, fab := popped }) ∧
    (head 9 = true → master = false → s.fabMember = false → Completes (exec (.fabPositionRx y) s) fun t => t = { s with fab := popped }) ∧
    (head 1 = true → sends → fabRight s m.src (peerRight o false) = false → Completes (exec (.fabReadRx busy) s) fun t => FabSent s t y m.src 2 2 m.tag m.addr [] ∧ t.fab.inq = ms ∧
      t = { s with fab := t.fab, outs := t.outs }) ∧
    (head 1 = true → sends → fabRight s m.src (peerRight o false) = true → peerRangeOk s m.addr len = true → busy = true → o < 0xC000000 → Completes (exec (.fabReadRx busy) s) fun t =>
      FabSent s t y m.src 2 7 m.tag m.addr [] ∧ Counted s t PADK_BUSY_N 1 ∧ t = { s with csr := t.csr, fab := t.fab, outs := t.outs }) ∧
    (head 1 = true → sends → fabRight s m.src (peerRight o false) = true → peerRangeOk s m.addr len = true → Completes (exec (.fabReadRx false) s) fun t =>
      FabSent s t y m.src 2 (statusCode (winRead (.peer m.src) o len { s with fab := popped }).1) m.tag m.addr
        (if (winRead (.peer m.src) o len { s with fab := popped }).1 = .ok then (winRead (.peer m.src) o len { s with fab := popped }).2.1 else [])) ∧
    (head 3 = true → sends → fabRight s m.src (peerRight o true) = false ∨ (0x30000000 ≤ o ∧ o < 0x30040000) → Completes (exec (.fabWriteRx busy loftOk) s) fun t =>
      FabSent s t y m.src 4 2 m.tag m.addr [] ∧ t = { s with fab := t.fab, outs := t.outs }) ∧
    (head 3 = true → sends → fabRight s m.src (peerRight o true) = true → peerRangeOk s m.addr m.body.length = true → o < 0xC000000 →
      (winWrite (.peer m.src) o m.body true { s with fab := popped }).1 = .ok → Completes (exec (.fabWriteRx false true) s) fun t => FabSent s t y m.src 4 0 m.tag m.addr [] ∧
        t.mem = (winWrite (.peer m.src) o m.body true { s with fab := popped }).2.mem) ∧
    (head 5 = true → sends → fabRight s m.src 3 = false → Completes (exec .fabDoorbellRx s) fun t => FabSent s t y m.src 4 2 m.tag m.addr [] ∧ t = { s with fab := t.fab, outs := t.outs }) ∧
    (head 5 = true → sends → fabRight s m.src 3 = true → Completes (exec .fabDoorbellRx s) fun t =>
      FabSent s t y m.src 4 (statusCode (bellRing (be m.body 0 4) { s with fab := popped }).1) m.tag m.addr [] ∧ t.bell = (bellRing (be m.body 0 4) { s with fab := popped }).2.bell) ∧
    (head 2 = true → asked = true → far.store = false → m.status = 0 → Completes (exec (.fabResponseRx y) s) fun t => ended 0 t ∧ t.fab.inq = ms ∧
      t.bytes (lmBase (w.req / 8) + far.loc) m.body.length = m.body ∧ t.draws = s.draws) ∧
    (head 4 = true → asked = true → far.store = true → Completes (exec (.fabResponseRx y) s) fun t => ended m.status t ∧ t = { s with cores := t.cores, fab := t.fab }) ∧
    (head 2 = true → s.fab.reqs = [] → Completes (exec (.fabResponseRx y) s) fun t => t = { s with fab := popped }) ∧
    ((s.fab.reqs.filter (fun r => r.sent + reqTicks ≤ s.now)).getLast? = some w → far.busy = true → (s.core (w.req / 8)).frozen = false → w.req < 256 → Completes (exec (.fabResponseTimeout y) s) fun t =>
      ended 9 t ∧ t.draws = s.draws + (if far.store then 0 else far.size) ∧ t.fab.inq = s.fab.inq) ∧
    (s.fab.reqs = [] → Completes (exec (.fabResponseTimeout y) s) fun t => t = s) ∧
    (s.fab.early = [(n, m)] → m.src = dev.val → fabVc m.typ = vc.val → n + 15000 ≤ s.now → m.typ ≠ 6 → m.een < 65536 → Completes (exec (.fabE2eGap dev vc) s) fun t => t.fab.inq = s.fab.inq ++ [m] ∧
      t.fab.early = [] ∧ tblGet 0 (4 * dev.val + vc.val) t.fab.eenRx = (m.een + 1) % 65536 ∧ t.isSet ⟨FAB_EVT, 9, 9⟩ = true ∧ Reports s t unitFabric 0x0805 noPath dev.val ∧ t.cores = s.cores) ∧
    (late.all (fun e => decide (s.now < e.1 + 15000)) = true → Completes (exec (.fabE2eGap dev vc) s) fun t => t = s) ∧
    (head 8 = true → ours = false → Completes (exec .forwardRx s) fun t => t.getF (FAB_FWD_DROP_FWD_DROP i) = (s.getF (FAB_FWD_DROP_FWD_DROP i) + 1) % 2 ^ 32 ∧
      RegsBut [FAB_FWD_DROP i] s t ∧ t = { s with csr := t.csr, fab := popped }) ∧
    (head 8 = true → ours = true → s.isSet (FAB_FWD_ROLE i) = false → s.portUp out = true → Completes (exec .forwardRx s) fun t => t = { s with outs := Output.frame out fwd :: s.outs, fab := popped }) ∧
    (head 8 = true → ours = true → s.isSet (FAB_FWD_ROLE i) = false → s.portUp out = false → Completes (exec .forwardRx s) fun t => t.rd64 (CH_REFUSE i 18) = s.rd64 (CH_REFUSE i 18) + 1 ∧
      t = { s with csr := t.csr, fab := popped }) ∧
    (head 8 = true → ours = true → s.isSet (FAB_FWD_ROLE i) = true → admits = true → Completes (exec .forwardRx s) fun t =>
      t.units = s.units ++ [mkUnit s i noPath asn s.stamp frame (fwd.drop (fwd.length - 4))] ∧ t.rd64 (CH_OUT_ASN_LO i) = asn + 1 ∧ t.rd64 (CH_OUT_STAT i 0) = s.rd64 (CH_OUT_STAT i 0) + 1 ∧
      t.fab = popped ∧ t.cores = s.cores ∧ t.pos = s.pos)

/-- R303 to R307, R315 to R324: heartbeats sent, taken and missed; the map and the routes that follow from it; and custody: requests, grants, denials,
releases, the ends of leases, promises and voter changes.
Readings of the model it may rest on: log entries 7, 51. -/
def Obligations.FabricResults : Prop :=
  ∀ (s : State) (arb : Bool) (z : Fin 8) (m : FabMsg) (ms : List FabMsg) (d : Fin 1024) (n : Fin 512) (old : Member) (path : List Nat) (r : LeaseReq) (y v : Nat) (b : Beat) (vs : List Nat) (g : Nat × Nat),
    let k := z.val
    let i := n.val
    let head (typ : Nat) : Bool := decide (s.fab.inq = m :: ms) && decide (m.typ = typ)
    let popped := { s.fab with inq := ms }
    let at0 := s.setF TW_STAT_ARB arb.toNat
    let hb := heartbeatBody at0
    let still (t : State) : Prop := t.cores = s.cores ∧ t.pos = s.pos ∧ t.tack = s.tack
    let c := m.body
    let ownHb := decide (m.src = s.devId) && s.isSet FAB_ID_ID_VALID && decide (s.getF FAB_STAT_STATE ≠ 3)
    let seen : Member := { serial := be c 35 8, pri := at' c 43, gen := be c 0 8, digest := slice c 8 16, arb := decide (at' c 44 / 2 % 2 = 1), pos := at' c 45, paths := slice c 47 64, zup := at' c 46, last := s.now }
    let other := s.fabMember && !(decide (m.src = s.devId) && s.isSet FAB_ID_ID_VALID)
    let hop := discoverPort c m.addr
    let reply := replyBody s
    let links := ((List.range 8).filter (fun j => at' c (10 + 10 * j) = 3)).map (fun j => (j, be c (11 + 10 * j) 8, at' c (19 + 10 * j)))
    let node : MapNode := { serial := be c 0 8, dev := be c 8 2, links := links }
    let asked := decide (s.fab.disc.find? (fun e => e.1 = m.tag) = some (m.tag, path)) && !(s.fab.disc.filter (fun e => e.1 ≠ m.tag)).isEmpty
    let pri := at' c 1
    let serial := be c 6 8
    let newMap := s.isSet FAB_CFG_EN && decide (at' c 0 = 0x14) && !(decide (be c 2 4 = s.fab.mapNo) && decide (s.fab.master.map (·.2) = some serial)) &&
      s.fab.master.all (fun p => decide (pri < p.1) || (decide (pri = p.1) && decide (serial < p.2)))
    let paths := (custodyChans s).filter (fun j => (s.isSet (FAB_LEASE_HELD j) && s.chOpen j && !s.isSet FAB_CFG_STAT_DIVERGE && !s.chTwin j) || seeks s j)
    let no := (s.fab.leaseNo + 1) % 2 ^ 32
    let live := s.fab.leases.filter (fun x => decide (s.now < x.t0 + leaseTicks))
    let mine := if s.fab.voters.contains s.devId then (paths.filter (fun j => mayPromise s j s.devId)).map (fun j => (s.devId, j)) else []
    let want := leasePaths m
    let asks (sub : Nat) : Bool := head 0xA && decide (at' c 0 = sub)
    let voter := decide (be c 1 8 = s.gen) && s.fab.voters.contains s.devId && s.fabMember
    let routed := s.getF FAB_STAT_STATE ≠ 3 ∧ fabRoutePort s m.src = some y
    let mayAll := want.all (fun j => mayPromise s j m.src)
    let r' := { r with grants := r.grants ++ [(m.src, i)] }
    let adds := asks 2 && decide (s.fab.leases = [r]) && decide (r.no = be c 9 4) && decide (r.paths = [i]) && decide (want = [i]) && decide (s.now < r.t0 + leaseTicks)
    let wins := quorum s ((r'.grants.filter (fun e => e.2 = i)).map (·.1))
    let lapsed := s.isSet (FAB_LEASE_HELD i) && decide (tblGet 0 i s.fab.leaseEnd ≤ s.now)
    (s.fabMember = true → (s.zp k).tree = true → s.zUp k = true → Completes (exec (.fabHeartbeatSend arb) s) fun t => t.isSet TW_STAT_ARB = arb ∧
      (zMessages (t.zp k)).contains (fabHeader 7 0x80 0x3FF s.devId 0 hb.length 0 0 0 ++ hb) = true ∧ t.isSet FAB_STAT_QUORUM = quorum at0 (present s) ∧ still t) ∧
    (s.fabMember = false → Completes (exec (.fabHeartbeatSend arb) s) fun t => t = at0) ∧
    (head 7 = true → ownHb = true → Completes (exec .fabHeartbeatRx s) fun t => if be c 35 8 < Config.serial.toNat then (t.getF FAB_STAT_STATE = 3 ∧ t.isSet ⟨FAB_EVT, 2, 2⟩ = true ∧
        Reports s t unitFabric 0x0801 noPath s.devId ∧ still t) else t = { s with fab := popped }) ∧
    (head 7 = true → other = true → m.src < 1024 → Completes (exec .fabHeartbeatRx s) fun t => tblGet none m.src t.fab.members = some seen ∧ t.fab.inq = ms ∧
      (s.gen < seen.gen → t.isSet FAB_CFG_STAT_PULLING = true) ∧ still t) ∧
    (tblGet none d.val s.fab.members = some old → old.last + 3 * ticksPerMs ≤ s.now → Completes (exec (.fabMemberAbsent d) s) fun t => tblGet none d.val t.fab.members = none ∧
      (i ∈ custodyChans s → s.getF (FAB_LEASE_HOLDER i) = d.val → t.isSet (FAB_LEASE_HOLDER_KNOWN i) = false) ∧ t.getF FAB_STAT_MEMBERS = (1 + t.fab.members.length) % 2 ^ 11 ∧ still t) ∧
    (tblGet none d.val s.fab.members = some old → s.now < old.last + 3 * ticksPerMs → Completes (exec (.fabMemberAbsent d) s) fun t => t = s) ∧
    (head 0xB = true → m.addr < at' c 0 → s.zUp hop = true → Completes (exec .fabDiscoverRx s) fun t =>
      (zMessages (t.zp hop)).contains (fabHeader 0xB 0x40 m.dst m.src 0 c.length 0 m.tag (m.addr + 1) ++ c) = true ∧
      t.fab.back = (m.tag, m.port) :: s.fab.back.filter (fun e => e.1 ≠ m.tag) ∧ t = { s with fab := t.fab, outs := t.outs }) ∧
    (head 0xB = true → at' c 0 ≤ m.addr → Completes (exec .fabDiscoverRx s) fun t =>
      (zMessages (t.zp m.port)).contains (fabHeader 0xC 0x40 m.src s.devId 0 reply.length 0 m.tag 0 ++ reply) = true ∧ t = { s with fab := t.fab, outs := t.outs }) ∧
    (head 0xC = true → s.fab.disc = [] → s.fab.back.find? (fun e => e.1 = m.tag) = some g → s.zUp g.2 = true → Completes (exec .fabDiscoverReplyRx s) fun t =>
      (zMessages (t.zp g.2)).contains (fabHeader 0xC 0x40 m.dst m.src 0 c.length 0 m.tag 0 ++ c) = true ∧ t.fab.back = s.fab.back.filter (fun e => e.1 ≠ m.tag) ∧
      t = { s with fab := t.fab, outs := t.outs }) ∧
    (head 0xC = true → asked = true → (mapFind s.fab.draft node.serial).isSome = true → Completes (exec .fabDiscoverReplyRx s) fun t =>
      t = { s with fab := { popped with disc := s.fab.disc.filter (fun e => e.1 ≠ m.tag) } }) ∧
    (head 0xC = true → asked = true → mapFind s.fab.draft node.serial = none → links = [] → Completes (exec .fabDiscoverReplyRx s) fun t =>
      t = { s with fab := { popped with disc := s.fab.disc.filter (fun e => e.1 ≠ m.tag), draft := s.fab.draft ++ [node] } }) ∧
    (head 6 = true → newMap = true → Completes (exec .fabMapRx s) fun t => t.fab.map = readNodes c (be c 14 2) 16 ∧ t.fab.mapNo = be c 2 4 ∧ t.fab.master = some (pri, serial) ∧ t.fab.inq = ms ∧ still t) ∧
    (head 6 = true → at' c 0 = 0x14 → s.isSet FAB_CFG_EN = false → Completes (exec .fabMapRx s) fun t => t = { s with fab := popped }) ∧
    (Completes (exec (.fabRouteUpdate d) s) fun t => t.rd (FAB_ROUTE d.val) = routeWord s d.val ∧ RegsBut [FAB_ROUTE d.val] s t ∧
      (s.isSet (FAB_ROUTE_VALID d.val) = false → t.isSet (FAB_ROUTE_VALID d.val) = true → tblGet 0 (4 * d.val + 2) t.fab.eenTx = 0 ∧ tblGet 0 (4 * d.val + 2) t.fab.eenRx = 0) ∧
      t = { s with csr := t.csr, fab := t.fab }) ∧
    (s.fabMember = true → paths ≠ [] → s.fab.voters = [v] → v ≠ s.devId → fabRoutePort s v = some y → Completes (exec .leaseRequestSend s) fun t => t.fab.leaseNo = no ∧
      t.fab.leases = live ++ [{ no := no, t0 := s.now, paths := paths, grants := mine }] ∧ FabSent s t y v 0xA 0 0 0 (leaseBody s 1 no paths) ∧ still t) ∧
    (s.fabMember = false → Completes (exec .leaseRequestSend s) fun t => t = s) ∧
    (asks 1 = true → voter = true → mayAll = true → want ≠ [] → routed → Completes (exec .leaseRequestRx s) fun t => FabSent s t y m.src 0xA 0 0 0 (leaseBody s 2 (be c 9 4) want) ∧
      want.all (fun j => decide (tblGet none j t.fab.promise = some (m.src, s.now + promiseTicks))) = true ∧ t = { s with fab := t.fab, outs := t.outs }) ∧
    (asks 1 = true → voter = false → want ≠ [] → routed → Completes (exec .leaseRequestRx s) fun t => FabSent s t y m.src 0xA 0 0 0 (leaseBody s 3 (be c 9 4) want) ∧
      t.fab.promise = s.fab.promise ∧ t = { s with fab := t.fab, outs := t.outs }) ∧
    (adds = true → wins = true → s.isSet (FAB_LEASE_HELD i) = false → Completes (exec .leaseGrantRx s) fun t => t.fab.leases = [r'] ∧ t.isSet (FAB_LEASE_HELD i) = true ∧
      t.isSet (CH_STAT_LEASE i) = true ∧ tblGet 0 i t.fab.leaseEnd = max (tblGet 0 i s.fab.leaseEnd) (r.t0 + leaseTicks) ∧ t.getF (FAB_LEASE_HOLDER i) = s.devId % 1024 ∧
      (t.chan i).awaitSw = true ∧ t.isSet ⟨FAB_EVT, 7, 7⟩ = true ∧ t.cores = s.cores) ∧
    (adds = true → wins = false → Completes (exec .leaseGrantRx s) fun t => t = { s with fab := { popped with leases := [r'] } }) ∧
    (asks 3 = true → Completes (exec .leaseDenyRx s) fun t => t = { s with fab := popped }) ∧
    (asks 4 = true → Completes (exec .leaseReleaseRx s) fun t => want.all (fun j => decide (tblGet none j t.fab.promise =
        (match tblGet none j s.fab.promise with | some p => if p.1 = m.src then none else some p | none => none)) && t.fab.released.contains (m.src, j)) = true ∧
      t = { s with fab := { popped with promise := t.fab.promise, released := t.fab.released } }) ∧
    (lapsed = true → Completes (exec (.leaseExpiry n) s) fun t => t.isSet (FAB_LEASE_HELD i) = false ∧ t.isSet (CH_STAT_LEASE i) = false ∧ t.isSet ⟨FAB_EVT, 8, 8⟩ = true ∧
      Reports s t unitFabric 0x0804 noPath i ∧ t.getF (BR_STAT_STATE i) = 0 ∧ (t.chan i).br = Session.reset ∧ tblGet 0 i t.fab.leaseEnd = 0 ∧ t.cores = s.cores ∧ t.pos = s.pos) ∧
    (lapsed = false → Completes (exec (.leaseExpiry n) s) fun t => t = s) ∧
    (tblGet none i s.fab.promise = some g → g.2 ≤ s.now → Completes (exec (.promiseExpiry n) s) fun t => tblGet none i t.fab.promise = none ∧
      t = { s with fab := { s.fab with promise := t.fab.promise } }) ∧
    (tblGet none i s.fab.promise = some g → s.now < g.2 → Completes (exec (.promiseExpiry n) s) fun t => t = s) ∧
    (s.fab.voterChange = some (b, vs) → s.beatDue (beatAdd b 4096) = true → Completes (exec .voterChangeEnd s) fun t => t.fab.voters = vs ∧ t.fab.voterChange = none ∧
      t.isSet FAB_STAT_QUORUM = quorumIn s vs (present s) ∧ t = { s with csr := t.csr, fab := t.fab, ledger := t.ledger, bell := t.bell, outs := t.outs }) ∧
    (s.fab.voterChange = some (b, vs) → s.beatDue (beatAdd b 4096) = false → Completes (exec .voterChangeEnd s) fun t => t = s)

/-! ### The block as a whole -/

/-- A step takes the command at the front of the queue and runs it with the queue's rest; on an empty queue the block idles. The queue
and the idling are the model's (log entry 1). -/
def Obligations.QueueSteps : Prop :=
  ∀ (s : State) (c : Instr) (r : List Instr),
    step { s with pending := c :: r } = exec c { s with pending := r } ∧ step { s with pending := [] } = .next { s with pending := [] }

/-- R473, R544, R546: at reset every register holds the value of its map, the subsystems' identities and the senses of Bell's sources among
them, but for PWR_RESET_CAUSE, which names the power-on reset; every memory reads as empty; every Dray register is 0, and the queue is empty. That the Dray registers, the memories and the tables of the model
stand at 0 and empty is the model's choice (log entry 2). -/
def Obligations.ResetState : Prop :=
  State.reset.wf = true ∧ State.reset.pending = [] ∧ (∀ o, o ≠ PWR_RESET_CAUSE → State.reset.rd o = csrReset o) ∧ State.reset.rd PWR_RESET_CAUSE = 1 ∧
  (∀ k, k < 16 → csrReset (0x20000000 + k * 0x1000000) = BitVec.ofNat 32 ((k + 1) * 0x1000000 + 0x00030000)) ∧
  (∀ n, 1 ≤ n → n ≤ 1022 → csrReset (0x2A001000 + 4 * n) = BitVec.ofNat 32 (0x001F0000 + srcResetSense n)) ∧
  (∀ a, State.reset.byte a = 0) ∧ (∀ k n, (State.reset.core k).sr n = 0 ∧ (State.reset.core k).acc = [] ∧ (State.reset.core k).left = 0 ∧ (State.reset.core k).bundle = []) ∧
  State.reset.isSet POS_STAT_FREQ_VALID = false ∧ State.reset.units = [] ∧ State.reset.chans = [] ∧ State.reset.power.boot = 0

/-- R11, R547 and the form of the tables (log entry 4): every step from a state whose tables are in canonical form (addresses strictly rising, no entry
equal to what an unlisted address reads as) leaves them so, in every state, reachable or not. -/
def Obligations.StepsKeepSound : Prop :=
  ∀ (s t : State), s.wf = true → step s = .next t → t.wf = true

/-- R505, R547: every step takes exactly the front command from the queue, time does not run back, a free value is not drawn twice,
nothing that has left the device returns to it, and no Loft word's wear falls. -/
def Obligations.StepsMonotone : Prop :=
  ∀ (s t : State), step s = .next t →
    t.pending = s.pending.tail ∧ s.now ≤ t.now ∧ s.draws ≤ t.draws ∧ s.outs <:+ t.outs ∧ (∀ w, tblGet 0 w s.wear ≤ tblGet 0 w t.wear)

/-- R534: no command is refused, and the one stop is a scan or memory self-test instruction of the JTAG port in factory test mode, whose
function the manual leaves to the factory; there it stops. Every other command completes in every state. -/
def Obligations.OnlyFactoryStops : Prop :=
  ∀ (c : Instr) (s : State),
    (∀ r, exec c s ≠ .refused r) ∧
    ((∃ f, exec c s = .fault f) ↔ s.power.ftm = true ∧ (c = .jtagInstruction .scan ∨ c = .jtagInstruction .memoryBist)) ∧
    (∀ f, exec c s = .fault f → f = .factoryFunction)

/-- R491: a software write of a channel's count stores the value plus the increment of its cycle, modulo 2^64; on a BEATNUM channel it has
no effect. The leader alone writes channels 120 to 127. -/
def Obligations.CountWriteMeetsIncrement : Prop :=
  ∀ (s : State) (r : Requester) (n : Fin 128) (v : DWord) (inc : BitVec 32),
    n.val < 120 ∨ isLeader s r = true →
    Completes (exec (.tallyCountWrite r n v inc) s) fun t =>
      (s.getF (TCFG_SRC n.val) ≠ 3 → t.rd64 (TCNT_LO n.val) = v + inc.zeroExtend 64) ∧
      (s.getF (TCFG_SRC n.val) = 3 → t.rd64 (TCNT_LO n.val) = s.rd64 (TCNT_LO n.val)) ∧
      Answered t r .ok 0 ∧ RegsBut [TCNT_LO n.val, TCNT_HI n.val] s t ∧ t = { s with csr := t.csr, answer := t.answer }

/-- R167: a slot of a channel that may send and has no unit to send takes a fill cell: its plaintext body is 20 00 00 00 00 FF FF E0
and 224 zero octets, enciphered and tagged under the slot's key (where its rail fails, the tag is open), and no cell ASN is taken. -/
def Obligations.FillCellBody : Prop :=
  ∀ (s : State) (p : Fin 32) (n : Fin 512) (j : Nat) (fault cut : Bool),
    let c := p.val
    let x := slotNow s c
    let entry := slotEntry s c x
    let sends := s.isSet (CELL_PORT_CFG_EN c) && s.portUp (32 + c) && decide ((s.port (32 + c)).outSlot ≠ some x) && decide (entry = n.val) && s.chOpen n.val && decide (s.chMode n.val = 1) &&
      decide (s.txPort n.val = c) && s.isSet (CH_CFG_OUT_EN n.val) && !heldAt s n.val c x && !s.muted n.val && s.isSet (CH_STAT_LEASE n.val) && !isWitness s n.val
    let fill := fillUnits s n.val (slotStart s c x - 2048) cut s.units { payload := [], ends := [], octets := 0, more := true }
    let k := decide ((s.slot j).epoch % 2 = 1)
    let key := dirKey s n.val 0 j
    let iv := cellNonce c (s.getF (CELL_POL_LO_DIR n.val)) x
    let body : List Byte := [0x20, 0x00, 0x00, 0x00, 0x00, 0xFF, 0xFF, 0xE0] ++ List.replicate 224 0
    let text := gcmStream key iv body
    (sends = true → slotKey s n.val c x = some j → fill.1.payload = [] → Completes (exec (.slotAssemblyClose p fault cut) s) fun t =>
      (∃ tag, tag.length = 16 ∧ (fault = false → tag = gcmTagBytes key iv (cellAad x k) text) ∧
        t.outs.contains (.cell (32 + c) (cellHeader x (cellL s n.val) (cellP s n.val) k false false ++ text ++ tag)) = true) ∧
      t.rd64 (CH_MODE_W0_LO n.val) = s.rd64 (CH_MODE_W0_LO n.val) ∧ (t.chan n.val).cell.outEpoch = (s.chan n.val).cell.outEpoch)
end

