-- ==== Sys2Proof/Laws/Table.lean ====
section
/-!
SUPPORT. Tables in canonical form: what a read gives after a write, and that every operation keeps the form.
-/

namespace Sys2Proof.Machine

variable {α : Type}

@[simp] theorem tblGet_nil (d : α) (k : Nat) : tblGet d k [] = d := rfl

theorem tblGet_tblDel (d : α) (k j : Nat) (t : Table α) :
    tblGet d j (tblDel k t) = if k = j then d else tblGet d j t := by
  induction t with
  | nil => simp [tblDel, tblGet]
  | cons e r ih =>
    obtain ⟨a, v⟩ := e
    unfold tblDel
    split
    · subst_vars
      rw [ih]
      simp only [tblGet]
      split <;> rfl
    · simp only [tblGet]
      rw [ih]
      by_cases h : k = j
      · subst h; simp [*]
      · simp [h]

theorem tblGet_tblIns (d : α) (k j : Nat) (v : α) (t : Table α) (hk : ∀ e ∈ t, e.1 ≠ k) :
    tblGet d j (tblIns k v t) = if k = j then v else tblGet d j t := by
  induction t with
  | nil => simp [tblIns, tblGet]
  | cons e r ih =>
    obtain ⟨a, w⟩ := e
    have ha : a ≠ k := hk (a, w) (by simp)
    have hr : ∀ e ∈ r, e.1 ≠ k := fun e he => hk e (by simp [he])
    unfold tblIns
    split
    · simp [tblGet]
    · simp only [tblGet, ih hr]
      by_cases h : a = j
      · subst h; simp [Ne.symm ha]
      · simp [h]

theorem mem_tblDel (k : Nat) (t : Table α) (e : Nat × α) : e ∈ tblDel k t ↔ e ∈ t ∧ e.1 ≠ k := by
  induction t with
  | nil => simp [tblDel]
  | cons x r ih =>
    obtain ⟨a, v⟩ := x
    unfold tblDel
    split
    · subst_vars
      rw [ih]
      constructor
      · rintro ⟨h1, h2⟩; exact ⟨by simp [h1], h2⟩
      · rintro ⟨h1, h2⟩
        rcases List.mem_cons.mp h1 with h | h
        · subst h; exact absurd rfl h2
        · exact ⟨h, h2⟩
    · rw [List.mem_cons, ih, List.mem_cons]
      constructor
      · rintro (h | ⟨h1, h2⟩)
        · subst h; exact ⟨.inl rfl, by assumption⟩
        · exact ⟨.inr h1, h2⟩
      · rintro ⟨h | h, h2⟩
        · exact .inl h
        · exact .inr ⟨h, h2⟩

/-- A read after a write (R12): the key written holds the value, every other what it held. -/
theorem tblGet_tblSet [DecidableEq α] (d e : α) (k j : Nat) (v : α) (t : Table α) (h : k = j → d = e) :
    tblGet e j (tblSet d k v t) = if k = j then v else tblGet e j t := by
  unfold tblSet
  split
  · subst_vars
    rw [tblGet_tblDel]
    by_cases hk : k = j
    · simp [hk, h hk]
    · simp [hk]
  · rw [tblGet_tblIns]
    · by_cases hk : k = j
      · simp [hk]
      · simp [hk, tblGet_tblDel]
    · intro e he
      exact ((mem_tblDel k t e).mp he).2

/-- The read of the key written. -/
@[simp] theorem tblGet_tblSet_same [DecidableEq α] (d : α) (k : Nat) (v : α) (t : Table α) :
    tblGet d k (tblSet d k v t) = v := by rw [tblGet_tblSet _ _ _ _ _ _ (fun _ => rfl)]; simp

/-- The read of another key. -/
theorem tblGet_tblSet_ne [DecidableEq α] (d e : α) (k j : Nat) (v : α) (t : Table α) (h : k ≠ j) :
    tblGet e j (tblSet d k v t) = tblGet e j t := by
  rw [tblGet_tblSet _ _ _ _ _ _ (fun h' => absurd h' h)]; simp [h]

/-! ### The form -/

/-- The form, as a statement about keys and entries. -/
theorem tblWf_iff [DecidableEq α] (d : Nat → α) (t : Table α) :
    tblWf d t = true ↔ (t.map (fun e => e.1)).Pairwise (· < ·) ∧ ∀ e ∈ t, e.2 ≠ d e.1 := by
  induction t with
  | nil => simp [tblWf]
  | cons x r ih =>
    obtain ⟨a, v⟩ := x
    cases r with
    | nil => simp [tblWf]
    | cons y r =>
      obtain ⟨b, w⟩ := y
      simp only [tblWf, Bool.and_eq_true, decide_eq_true_eq, ih]
      constructor
      · rintro ⟨⟨h1, h2⟩, h3, h4⟩
        refine ⟨?_, ?_⟩
        · rw [List.map_cons, List.pairwise_cons]
          refine ⟨?_, h3⟩
          intro c hc
          rw [List.map_cons, List.pairwise_cons] at h3
          rw [List.map_cons, List.mem_cons] at hc
          rcases hc with hc | hc
          · omega
          · have := h3.1 c hc; omega
        · intro e he
          rcases List.mem_cons.mp he with he | he
          · subst he; exact h1
          · exact h4 e he
      · rintro ⟨h1, h2⟩
        rw [List.map_cons, List.pairwise_cons] at h1
        exact ⟨⟨h2 (a, v) (by simp), h1.1 b (by simp)⟩, h1.2, fun e he => h2 e (List.mem_cons_of_mem _ he)⟩

theorem tblDel_sublist (k : Nat) (t : Table α) : (tblDel k t).Sublist t := by
  induction t with
  | nil => simp [tblDel]
  | cons x r ih =>
    obtain ⟨a, v⟩ := x
    unfold tblDel
    split
    · exact ih.cons _
    · exact ih.cons_cons _

theorem tblWf_sublist [DecidableEq α] {d : Nat → α} {t u : Table α} (hs : u.Sublist t) (h : tblWf d t = true) : tblWf d u = true := by
  rw [tblWf_iff] at h ⊢
  exact ⟨h.1.sublist (hs.map _), fun e he => h.2 e (hs.subset he)⟩

/-- Entries taken away keep the form. -/
theorem tblWf_filter [DecidableEq α] {d : Nat → α} {t : Table α} (p : Nat × α → Bool) (h : tblWf d t = true) :
    tblWf d (t.filter p) = true := tblWf_sublist List.filter_sublist h

theorem mem_tblIns (k : Nat) (v : α) (t : Table α) (e : Nat × α) : e ∈ tblIns k v t ↔ e = (k, v) ∨ e ∈ t := by
  induction t with
  | nil => simp [tblIns]
  | cons x r ih =>
    obtain ⟨a, w⟩ := x
    unfold tblIns
    split
    · rw [List.mem_cons]
    · rw [List.mem_cons, ih, List.mem_cons]
      exact ⟨fun h => h.elim (fun h => .inr (.inl h)) (fun h => h.elim .inl (fun h => .inr (.inr h))),
        fun h => h.elim (fun h => .inr (.inl h)) (fun h => h.elim .inl (fun h => .inr (.inr h)))⟩

theorem tblIns_sorted (k : Nat) (v : α) (t : Table α) (hk : ∀ e ∈ t, e.1 ≠ k) (h : (t.map (fun e => e.1)).Pairwise (· < ·)) :
    ((tblIns k v t).map (fun e => e.1)).Pairwise (· < ·) := by
  induction t with
  | nil => simp [tblIns]
  | cons x r ih =>
    obtain ⟨a, w⟩ := x
    have ha : a ≠ k := hk (a, w) (by simp)
    rw [List.map_cons, List.pairwise_cons] at h
    unfold tblIns
    split
    · rename_i hlt
      rw [List.map_cons, List.pairwise_cons]
      refine ⟨?_, ?_⟩
      · intro c hc
        rw [List.map_cons, List.mem_cons] at hc
        rcases hc with hc | hc
        · simp only [hc]; exact hlt
        · have := h.1 c hc; simp only at this hlt ⊢; omega
      · rw [List.map_cons, List.pairwise_cons]; exact h
    · rename_i hlt
      rw [List.map_cons, List.pairwise_cons]
      refine ⟨?_, ih (fun e he => hk e (by simp [he])) h.2⟩
      intro c hc
      obtain ⟨e, he, rfl⟩ := List.mem_map.mp hc
      rcases (mem_tblIns k v r e).mp he with he | he
      · subst he; simp only; omega
      · exact h.1 _ (List.mem_map.mpr ⟨e, he, rfl⟩)

/-- A write keeps the form. -/
theorem tblWf_tblSet [DecidableEq α] {d : Nat → α} {t : Table α} (k : Nat) (v : α) (h : tblWf d t = true) :
    tblWf d (tblSet (d k) k v t) = true := by
  have hd : tblWf d (tblDel k t) = true := tblWf_sublist (tblDel_sublist k t) h
  unfold tblSet
  split
  · exact hd
  · rename_i hv
    rw [tblWf_iff] at hd ⊢
    have hk : ∀ e ∈ tblDel k t, e.1 ≠ k := fun e he => ((mem_tblDel k t e).mp he).2
    refine ⟨tblIns_sorted k v _ hk hd.1, ?_⟩
    intro e he
    rcases (mem_tblIns k v _ e).mp he with he | he
    · subst he; exact hv
    · exact hd.2 e he

end Sys2Proof.Machine
end

