-- ==== Sys2Proof/Laws/State.lean ====
section
/-!
SUPPORT. What each update of the state changes and what it leaves: one lemma per field for the register, memory, output and draw
operations, so that no proof unfolds a record update. They are true by rfl, written (rfl): simp then cites the lemma, where a rfl
lemma would leave the kernel to compare two states field by field, which runs deep in the offset of a register.
-/

namespace Sys2Proof.Machine

/-! ### wr -/

@[simp] theorem State.wr_mem (s : State) (o : Nat) (v : Word) : (s.wr o v).mem = s.mem := (rfl)
@[simp] theorem State.wr_pos (s : State) (o : Nat) (v : Word) : (s.wr o v).pos = s.pos := (rfl)
@[simp] theorem State.wr_bell (s : State) (o : Nat) (v : Word) : (s.wr o v).bell = s.bell := (rfl)
@[simp] theorem State.wr_ledger (s : State) (o : Nat) (v : Word) : (s.wr o v).ledger = s.ledger := (rfl)
@[simp] theorem State.wr_now (s : State) (o : Nat) (v : Word) : (s.wr o v).now = s.now := (rfl)
@[simp] theorem State.wr_ports (s : State) (o : Nat) (v : Word) : (s.wr o v).ports = s.ports := (rfl)
@[simp] theorem State.wr_refLost (s : State) (o : Nat) (v : Word) : (s.wr o v).refLost = s.refLost := (rfl)
@[simp] theorem State.wr_sysLost (s : State) (o : Nat) (v : Word) : (s.wr o v).sysLost = s.sysLost := (rfl)
@[simp] theorem State.wr_gateProg (s : State) (o : Nat) (v : Word) : (s.wr o v).gateProg = s.gateProg := (rfl)
@[simp] theorem State.wr_gateExact (s : State) (o : Nat) (v : Word) : (s.wr o v).gateExact = s.gateExact := (rfl)
@[simp] theorem State.wr_gateTern (s : State) (o : Nat) (v : Word) : (s.wr o v).gateTern = s.gateTern := (rfl)
@[simp] theorem State.wr_gateQ (s : State) (o : Nat) (v : Word) : (s.wr o v).gateQ = s.gateQ := (rfl)
@[simp] theorem State.wr_units (s : State) (o : Nat) (v : Word) : (s.wr o v).units = s.units := (rfl)
@[simp] theorem State.wr_pend (s : State) (o : Nat) (v : Word) : (s.wr o v).pend = s.pend := (rfl)
@[simp] theorem State.wr_inq (s : State) (o : Nat) (v : Word) : (s.wr o v).inq = s.inq := (rfl)
@[simp] theorem State.wr_changes (s : State) (o : Nat) (v : Word) : (s.wr o v).changes = s.changes := (rfl)
@[simp] theorem State.wr_punt (s : State) (o : Nat) (v : Word) : (s.wr o v).punt = s.punt := (rfl)
@[simp] theorem State.wr_clearTx (s : State) (o : Nat) (v : Word) : (s.wr o v).clearTx = s.clearTx := (rfl)
@[simp] theorem State.wr_hostMem (s : State) (o : Nat) (v : Word) : (s.wr o v).hostMem = s.hostMem := (rfl)
@[simp] theorem State.wr_chans (s : State) (o : Nat) (v : Word) : (s.wr o v).chans = s.chans := (rfl)
@[simp] theorem State.wr_tack (s : State) (o : Nat) (v : Word) : (s.wr o v).tack = s.tack := (rfl)
@[simp] theorem State.wr_brTx (s : State) (o : Nat) (v : Word) : (s.wr o v).brTx = s.brTx := (rfl)
@[simp] theorem State.wr_brIn (s : State) (o : Nat) (v : Word) : (s.wr o v).brIn = s.brIn := (rfl)
@[simp] theorem State.wr_loftQ (s : State) (o : Nat) (v : Word) : (s.wr o v).loftQ = s.loftQ := (rfl)
@[simp] theorem State.wr_wear (s : State) (o : Nat) (v : Word) : (s.wr o v).wear = s.wear := (rfl)
@[simp] theorem State.wr_loftBad (s : State) (o : Nat) (v : Word) : (s.wr o v).loftBad = s.loftBad := (rfl)
@[simp] theorem State.wr_loftWarned (s : State) (o : Nat) (v : Word) : (s.wr o v).loftWarned = s.loftWarned := (rfl)
@[simp] theorem State.wr_twin (s : State) (o : Nat) (v : Word) : (s.wr o v).twin = s.twin := (rfl)
@[simp] theorem State.wr_fab (s : State) (o : Nat) (v : Word) : (s.wr o v).fab = s.fab := (rfl)
@[simp] theorem State.wr_tally (s : State) (o : Nat) (v : Word) : (s.wr o v).tally = s.tally := (rfl)
@[simp] theorem State.wr_power (s : State) (o : Nat) (v : Word) : (s.wr o v).power = s.power := (rfl)
@[simp] theorem State.wr_cores (s : State) (o : Nat) (v : Word) : (s.wr o v).cores = s.cores := (rfl)
@[simp] theorem State.wr_config (s : State) (o : Nat) (v : Word) : (s.wr o v).config = s.config := (rfl)
@[simp] theorem State.wr_untested (s : State) (o : Nat) (v : Word) : (s.wr o v).untested = s.untested := (rfl)
@[simp] theorem State.wr_hiLatch (s : State) (o : Nat) (v : Word) : (s.wr o v).hiLatch = s.hiLatch := (rfl)
@[simp] theorem State.wr_loStage (s : State) (o : Nat) (v : Word) : (s.wr o v).loStage = s.loStage := (rfl)
@[simp] theorem State.wr_padWritten (s : State) (o : Nat) (v : Word) : (s.wr o v).padWritten = s.padWritten := (rfl)
@[simp] theorem State.wr_eccBad (s : State) (o : Nat) (v : Word) : (s.wr o v).eccBad = s.eccBad := (rfl)
@[simp] theorem State.wr_ym (s : State) (o : Nat) (v : Word) : (s.wr o v).ym = s.ym := (rfl)
@[simp] theorem State.wr_railPass (s : State) (o : Nat) (v : Word) : (s.wr o v).railPass = s.railPass := (rfl)
@[simp] theorem State.wr_urgentRails (s : State) (o : Nat) (v : Word) : (s.wr o v).urgentRails = s.urgentRails := (rfl)
@[simp] theorem State.wr_lateTargets (s : State) (o : Nat) (v : Word) : (s.wr o v).lateTargets = s.lateTargets := (rfl)
@[simp] theorem State.wr_engineOut (s : State) (o : Nat) (v : Word) : (s.wr o v).engineOut = s.engineOut := (rfl)
@[simp] theorem State.wr_noRandom (s : State) (o : Nat) (v : Word) : (s.wr o v).noRandom = s.noRandom := (rfl)
@[simp] theorem State.wr_answer (s : State) (o : Nat) (v : Word) : (s.wr o v).answer = s.answer := (rfl)
@[simp] theorem State.wr_draws (s : State) (o : Nat) (v : Word) : (s.wr o v).draws = s.draws := (rfl)
@[simp] theorem State.wr_outs (s : State) (o : Nat) (v : Word) : (s.wr o v).outs = s.outs := (rfl)
@[simp] theorem State.wr_pending (s : State) (o : Nat) (v : Word) : (s.wr o v).pending = s.pending := (rfl)

/-! ### setByte -/

@[simp] theorem State.setByte_csr (s : State) (a : Nat) (v : Byte) : (s.setByte a v).csr = s.csr := (rfl)
@[simp] theorem State.setByte_pos (s : State) (a : Nat) (v : Byte) : (s.setByte a v).pos = s.pos := (rfl)
@[simp] theorem State.setByte_bell (s : State) (a : Nat) (v : Byte) : (s.setByte a v).bell = s.bell := (rfl)
@[simp] theorem State.setByte_ledger (s : State) (a : Nat) (v : Byte) : (s.setByte a v).ledger = s.ledger := (rfl)
@[simp] theorem State.setByte_now (s : State) (a : Nat) (v : Byte) : (s.setByte a v).now = s.now := (rfl)
@[simp] theorem State.setByte_ports (s : State) (a : Nat) (v : Byte) : (s.setByte a v).ports = s.ports := (rfl)
@[simp] theorem State.setByte_refLost (s : State) (a : Nat) (v : Byte) : (s.setByte a v).refLost = s.refLost := (rfl)
@[simp] theorem State.setByte_sysLost (s : State) (a : Nat) (v : Byte) : (s.setByte a v).sysLost = s.sysLost := (rfl)
@[simp] theorem State.setByte_gateProg (s : State) (a : Nat) (v : Byte) : (s.setByte a v).gateProg = s.gateProg := (rfl)
@[simp] theorem State.setByte_gateExact (s : State) (a : Nat) (v : Byte) : (s.setByte a v).gateExact = s.gateExact := (rfl)
@[simp] theorem State.setByte_gateTern (s : State) (a : Nat) (v : Byte) : (s.setByte a v).gateTern = s.gateTern := (rfl)
@[simp] theorem State.setByte_gateQ (s : State) (a : Nat) (v : Byte) : (s.setByte a v).gateQ = s.gateQ := (rfl)
@[simp] theorem State.setByte_units (s : State) (a : Nat) (v : Byte) : (s.setByte a v).units = s.units := (rfl)
@[simp] theorem State.setByte_pend (s : State) (a : Nat) (v : Byte) : (s.setByte a v).pend = s.pend := (rfl)
@[simp] theorem State.setByte_inq (s : State) (a : Nat) (v : Byte) : (s.setByte a v).inq = s.inq := (rfl)
@[simp] theorem State.setByte_changes (s : State) (a : Nat) (v : Byte) : (s.setByte a v).changes = s.changes := (rfl)
@[simp] theorem State.setByte_punt (s : State) (a : Nat) (v : Byte) : (s.setByte a v).punt = s.punt := (rfl)
@[simp] theorem State.setByte_clearTx (s : State) (a : Nat) (v : Byte) : (s.setByte a v).clearTx = s.clearTx := (rfl)
@[simp] theorem State.setByte_hostMem (s : State) (a : Nat) (v : Byte) : (s.setByte a v).hostMem = s.hostMem := (rfl)
@[simp] theorem State.setByte_chans (s : State) (a : Nat) (v : Byte) : (s.setByte a v).chans = s.chans := (rfl)
@[simp] theorem State.setByte_tack (s : State) (a : Nat) (v : Byte) : (s.setByte a v).tack = s.tack := (rfl)
@[simp] theorem State.setByte_brTx (s : State) (a : Nat) (v : Byte) : (s.setByte a v).brTx = s.brTx := (rfl)
@[simp] theorem State.setByte_brIn (s : State) (a : Nat) (v : Byte) : (s.setByte a v).brIn = s.brIn := (rfl)
@[simp] theorem State.setByte_loftQ (s : State) (a : Nat) (v : Byte) : (s.setByte a v).loftQ = s.loftQ := (rfl)
@[simp] theorem State.setByte_wear (s : State) (a : Nat) (v : Byte) : (s.setByte a v).wear = s.wear := (rfl)
@[simp] theorem State.setByte_loftBad (s : State) (a : Nat) (v : Byte) : (s.setByte a v).loftBad = s.loftBad := (rfl)
@[simp] theorem State.setByte_loftWarned (s : State) (a : Nat) (v : Byte) : (s.setByte a v).loftWarned = s.loftWarned := (rfl)
@[simp] theorem State.setByte_twin (s : State) (a : Nat) (v : Byte) : (s.setByte a v).twin = s.twin := (rfl)
@[simp] theorem State.setByte_fab (s : State) (a : Nat) (v : Byte) : (s.setByte a v).fab = s.fab := (rfl)
@[simp] theorem State.setByte_tally (s : State) (a : Nat) (v : Byte) : (s.setByte a v).tally = s.tally := (rfl)
@[simp] theorem State.setByte_power (s : State) (a : Nat) (v : Byte) : (s.setByte a v).power = s.power := (rfl)
@[simp] theorem State.setByte_cores (s : State) (a : Nat) (v : Byte) : (s.setByte a v).cores = s.cores := (rfl)
@[simp] theorem State.setByte_config (s : State) (a : Nat) (v : Byte) : (s.setByte a v).config = s.config := (rfl)
@[simp] theorem State.setByte_untested (s : State) (a : Nat) (v : Byte) : (s.setByte a v).untested = s.untested := (rfl)
@[simp] theorem State.setByte_hiLatch (s : State) (a : Nat) (v : Byte) : (s.setByte a v).hiLatch = s.hiLatch := (rfl)
@[simp] theorem State.setByte_loStage (s : State) (a : Nat) (v : Byte) : (s.setByte a v).loStage = s.loStage := (rfl)
@[simp] theorem State.setByte_padWritten (s : State) (a : Nat) (v : Byte) : (s.setByte a v).padWritten = s.padWritten := (rfl)
@[simp] theorem State.setByte_eccBad (s : State) (a : Nat) (v : Byte) : (s.setByte a v).eccBad = s.eccBad := (rfl)
@[simp] theorem State.setByte_ym (s : State) (a : Nat) (v : Byte) : (s.setByte a v).ym = s.ym := (rfl)
@[simp] theorem State.setByte_railPass (s : State) (a : Nat) (v : Byte) : (s.setByte a v).railPass = s.railPass := (rfl)
@[simp] theorem State.setByte_urgentRails (s : State) (a : Nat) (v : Byte) : (s.setByte a v).urgentRails = s.urgentRails := (rfl)
@[simp] theorem State.setByte_lateTargets (s : State) (a : Nat) (v : Byte) : (s.setByte a v).lateTargets = s.lateTargets := (rfl)
@[simp] theorem State.setByte_engineOut (s : State) (a : Nat) (v : Byte) : (s.setByte a v).engineOut = s.engineOut := (rfl)
@[simp] theorem State.setByte_noRandom (s : State) (a : Nat) (v : Byte) : (s.setByte a v).noRandom = s.noRandom := (rfl)
@[simp] theorem State.setByte_answer (s : State) (a : Nat) (v : Byte) : (s.setByte a v).answer = s.answer := (rfl)
@[simp] theorem State.setByte_draws (s : State) (a : Nat) (v : Byte) : (s.setByte a v).draws = s.draws := (rfl)
@[simp] theorem State.setByte_outs (s : State) (a : Nat) (v : Byte) : (s.setByte a v).outs = s.outs := (rfl)
@[simp] theorem State.setByte_pending (s : State) (a : Nat) (v : Byte) : (s.setByte a v).pending = s.pending := (rfl)

/-! ### emit -/

@[simp] theorem State.emit_csr (s : State) (o : Output) : (s.emit o).csr = s.csr := (rfl)
@[simp] theorem State.emit_mem (s : State) (o : Output) : (s.emit o).mem = s.mem := (rfl)
@[simp] theorem State.emit_pos (s : State) (o : Output) : (s.emit o).pos = s.pos := (rfl)
@[simp] theorem State.emit_bell (s : State) (o : Output) : (s.emit o).bell = s.bell := (rfl)
@[simp] theorem State.emit_ledger (s : State) (o : Output) : (s.emit o).ledger = s.ledger := (rfl)
@[simp] theorem State.emit_now (s : State) (o : Output) : (s.emit o).now = s.now := (rfl)
@[simp] theorem State.emit_ports (s : State) (o : Output) : (s.emit o).ports = s.ports := (rfl)
@[simp] theorem State.emit_refLost (s : State) (o : Output) : (s.emit o).refLost = s.refLost := (rfl)
@[simp] theorem State.emit_sysLost (s : State) (o : Output) : (s.emit o).sysLost = s.sysLost := (rfl)
@[simp] theorem State.emit_gateProg (s : State) (o : Output) : (s.emit o).gateProg = s.gateProg := (rfl)
@[simp] theorem State.emit_gateExact (s : State) (o : Output) : (s.emit o).gateExact = s.gateExact := (rfl)
@[simp] theorem State.emit_gateTern (s : State) (o : Output) : (s.emit o).gateTern = s.gateTern := (rfl)
@[simp] theorem State.emit_gateQ (s : State) (o : Output) : (s.emit o).gateQ = s.gateQ := (rfl)
@[simp] theorem State.emit_units (s : State) (o : Output) : (s.emit o).units = s.units := (rfl)
@[simp] theorem State.emit_pend (s : State) (o : Output) : (s.emit o).pend = s.pend := (rfl)
@[simp] theorem State.emit_inq (s : State) (o : Output) : (s.emit o).inq = s.inq := (rfl)
@[simp] theorem State.emit_changes (s : State) (o : Output) : (s.emit o).changes = s.changes := (rfl)
@[simp] theorem State.emit_punt (s : State) (o : Output) : (s.emit o).punt = s.punt := (rfl)
@[simp] theorem State.emit_clearTx (s : State) (o : Output) : (s.emit o).clearTx = s.clearTx := (rfl)
@[simp] theorem State.emit_hostMem (s : State) (o : Output) : (s.emit o).hostMem = s.hostMem := (rfl)
@[simp] theorem State.emit_chans (s : State) (o : Output) : (s.emit o).chans = s.chans := (rfl)
@[simp] theorem State.emit_tack (s : State) (o : Output) : (s.emit o).tack = s.tack := (rfl)
@[simp] theorem State.emit_brTx (s : State) (o : Output) : (s.emit o).brTx = s.brTx := (rfl)
@[simp] theorem State.emit_brIn (s : State) (o : Output) : (s.emit o).brIn = s.brIn := (rfl)
@[simp] theorem State.emit_loftQ (s : State) (o : Output) : (s.emit o).loftQ = s.loftQ := (rfl)
@[simp] theorem State.emit_wear (s : State) (o : Output) : (s.emit o).wear = s.wear := (rfl)
@[simp] theorem State.emit_loftBad (s : State) (o : Output) : (s.emit o).loftBad = s.loftBad := (rfl)
@[simp] theorem State.emit_loftWarned (s : State) (o : Output) : (s.emit o).loftWarned = s.loftWarned := (rfl)
@[simp] theorem State.emit_twin (s : State) (o : Output) : (s.emit o).twin = s.twin := (rfl)
@[simp] theorem State.emit_fab (s : State) (o : Output) : (s.emit o).fab = s.fab := (rfl)
@[simp] theorem State.emit_tally (s : State) (o : Output) : (s.emit o).tally = s.tally := (rfl)
@[simp] theorem State.emit_power (s : State) (o : Output) : (s.emit o).power = s.power := (rfl)
@[simp] theorem State.emit_cores (s : State) (o : Output) : (s.emit o).cores = s.cores := (rfl)
@[simp] theorem State.emit_config (s : State) (o : Output) : (s.emit o).config = s.config := (rfl)
@[simp] theorem State.emit_untested (s : State) (o : Output) : (s.emit o).untested = s.untested := (rfl)
@[simp] theorem State.emit_hiLatch (s : State) (o : Output) : (s.emit o).hiLatch = s.hiLatch := (rfl)
@[simp] theorem State.emit_loStage (s : State) (o : Output) : (s.emit o).loStage = s.loStage := (rfl)
@[simp] theorem State.emit_padWritten (s : State) (o : Output) : (s.emit o).padWritten = s.padWritten := (rfl)
@[simp] theorem State.emit_eccBad (s : State) (o : Output) : (s.emit o).eccBad = s.eccBad := (rfl)
@[simp] theorem State.emit_ym (s : State) (o : Output) : (s.emit o).ym = s.ym := (rfl)
@[simp] theorem State.emit_railPass (s : State) (o : Output) : (s.emit o).railPass = s.railPass := (rfl)
@[simp] theorem State.emit_urgentRails (s : State) (o : Output) : (s.emit o).urgentRails = s.urgentRails := (rfl)
@[simp] theorem State.emit_lateTargets (s : State) (o : Output) : (s.emit o).lateTargets = s.lateTargets := (rfl)
@[simp] theorem State.emit_engineOut (s : State) (o : Output) : (s.emit o).engineOut = s.engineOut := (rfl)
@[simp] theorem State.emit_noRandom (s : State) (o : Output) : (s.emit o).noRandom = s.noRandom := (rfl)
@[simp] theorem State.emit_answer (s : State) (o : Output) : (s.emit o).answer = s.answer := (rfl)
@[simp] theorem State.emit_draws (s : State) (o : Output) : (s.emit o).draws = s.draws := (rfl)
@[simp] theorem State.emit_pending (s : State) (o : Output) : (s.emit o).pending = s.pending := (rfl)

/-! ### reply -/

@[simp] theorem State.reply_csr (s : State) (r : Requester) (st : BusStatus) (d : DWord) : (s.reply r st d).csr = s.csr := (rfl)
@[simp] theorem State.reply_mem (s : State) (r : Requester) (st : BusStatus) (d : DWord) : (s.reply r st d).mem = s.mem := (rfl)
@[simp] theorem State.reply_pos (s : State) (r : Requester) (st : BusStatus) (d : DWord) : (s.reply r st d).pos = s.pos := (rfl)
@[simp] theorem State.reply_bell (s : State) (r : Requester) (st : BusStatus) (d : DWord) : (s.reply r st d).bell = s.bell := (rfl)
@[simp] theorem State.reply_ledger (s : State) (r : Requester) (st : BusStatus) (d : DWord) : (s.reply r st d).ledger = s.ledger := (rfl)
@[simp] theorem State.reply_now (s : State) (r : Requester) (st : BusStatus) (d : DWord) : (s.reply r st d).now = s.now := (rfl)
@[simp] theorem State.reply_ports (s : State) (r : Requester) (st : BusStatus) (d : DWord) : (s.reply r st d).ports = s.ports := (rfl)
@[simp] theorem State.reply_refLost (s : State) (r : Requester) (st : BusStatus) (d : DWord) : (s.reply r st d).refLost = s.refLost := (rfl)
@[simp] theorem State.reply_sysLost (s : State) (r : Requester) (st : BusStatus) (d : DWord) : (s.reply r st d).sysLost = s.sysLost := (rfl)
@[simp] theorem State.reply_gateProg (s : State) (r : Requester) (st : BusStatus) (d : DWord) : (s.reply r st d).gateProg = s.gateProg := (rfl)
@[simp] theorem State.reply_gateExact (s : State) (r : Requester) (st : BusStatus) (d : DWord) : (s.reply r st d).gateExact = s.gateExact := (rfl)
@[simp] theorem State.reply_gateTern (s : State) (r : Requester) (st : BusStatus) (d : DWord) : (s.reply r st d).gateTern = s.gateTern := (rfl)
@[simp] theorem State.reply_gateQ (s : State) (r : Requester) (st : BusStatus) (d : DWord) : (s.reply r st d).gateQ = s.gateQ := (rfl)
@[simp] theorem State.reply_units (s : State) (r : Requester) (st : BusStatus) (d : DWord) : (s.reply r st d).units = s.units := (rfl)
@[simp] theorem State.reply_pend (s : State) (r : Requester) (st : BusStatus) (d : DWord) : (s.reply r st d).pend = s.pend := (rfl)
@[simp] theorem State.reply_inq (s : State) (r : Requester) (st : BusStatus) (d : DWord) : (s.reply r st d).inq = s.inq := (rfl)
@[simp] theorem State.reply_changes (s : State) (r : Requester) (st : BusStatus) (d : DWord) : (s.reply r st d).changes = s.changes := (rfl)
@[simp] theorem State.reply_punt (s : State) (r : Requester) (st : BusStatus) (d : DWord) : (s.reply r st d).punt = s.punt := (rfl)
@[simp] theorem State.reply_clearTx (s : State) (r : Requester) (st : BusStatus) (d : DWord) : (s.reply r st d).clearTx = s.clearTx := (rfl)
@[simp] theorem State.reply_hostMem (s : State) (r : Requester) (st : BusStatus) (d : DWord) : (s.reply r st d).hostMem = s.hostMem := (rfl)
@[simp] theorem State.reply_chans (s : State) (r : Requester) (st : BusStatus) (d : DWord) : (s.reply r st d).chans = s.chans := (rfl)
@[simp] theorem State.reply_tack (s : State) (r : Requester) (st : BusStatus) (d : DWord) : (s.reply r st d).tack = s.tack := (rfl)
@[simp] theorem State.reply_brTx (s : State) (r : Requester) (st : BusStatus) (d : DWord) : (s.reply r st d).brTx = s.brTx := (rfl)
@[simp] theorem State.reply_brIn (s : State) (r : Requester) (st : BusStatus) (d : DWord) : (s.reply r st d).brIn = s.brIn := (rfl)
@[simp] theorem State.reply_loftQ (s : State) (r : Requester) (st : BusStatus) (d : DWord) : (s.reply r st d).loftQ = s.loftQ := (rfl)
@[simp] theorem State.reply_wear (s : State) (r : Requester) (st : BusStatus) (d : DWord) : (s.reply r st d).wear = s.wear := (rfl)
@[simp] theorem State.reply_loftBad (s : State) (r : Requester) (st : BusStatus) (d : DWord) : (s.reply r st d).loftBad = s.loftBad := (rfl)
@[simp] theorem State.reply_loftWarned (s : State) (r : Requester) (st : BusStatus) (d : DWord) : (s.reply r st d).loftWarned = s.loftWarned := (rfl)
@[simp] theorem State.reply_twin (s : State) (r : Requester) (st : BusStatus) (d : DWord) : (s.reply r st d).twin = s.twin := (rfl)
@[simp] theorem State.reply_fab (s : State) (r : Requester) (st : BusStatus) (d : DWord) : (s.reply r st d).fab = s.fab := (rfl)
@[simp] theorem State.reply_tally (s : State) (r : Requester) (st : BusStatus) (d : DWord) : (s.reply r st d).tally = s.tally := (rfl)
@[simp] theorem State.reply_power (s : State) (r : Requester) (st : BusStatus) (d : DWord) : (s.reply r st d).power = s.power := (rfl)
@[simp] theorem State.reply_cores (s : State) (r : Requester) (st : BusStatus) (d : DWord) : (s.reply r st d).cores = s.cores := (rfl)
@[simp] theorem State.reply_config (s : State) (r : Requester) (st : BusStatus) (d : DWord) : (s.reply r st d).config = s.config := (rfl)
@[simp] theorem State.reply_untested (s : State) (r : Requester) (st : BusStatus) (d : DWord) : (s.reply r st d).untested = s.untested := (rfl)
@[simp] theorem State.reply_hiLatch (s : State) (r : Requester) (st : BusStatus) (d : DWord) : (s.reply r st d).hiLatch = s.hiLatch := (rfl)
@[simp] theorem State.reply_loStage (s : State) (r : Requester) (st : BusStatus) (d : DWord) : (s.reply r st d).loStage = s.loStage := (rfl)
@[simp] theorem State.reply_padWritten (s : State) (r : Requester) (st : BusStatus) (d : DWord) : (s.reply r st d).padWritten = s.padWritten := (rfl)
@[simp] theorem State.reply_eccBad (s : State) (r : Requester) (st : BusStatus) (d : DWord) : (s.reply r st d).eccBad = s.eccBad := (rfl)
@[simp] theorem State.reply_ym (s : State) (r : Requester) (st : BusStatus) (d : DWord) : (s.reply r st d).ym = s.ym := (rfl)
@[simp] theorem State.reply_railPass (s : State) (r : Requester) (st : BusStatus) (d : DWord) : (s.reply r st d).railPass = s.railPass := (rfl)
@[simp] theorem State.reply_urgentRails (s : State) (r : Requester) (st : BusStatus) (d : DWord) : (s.reply r st d).urgentRails = s.urgentRails := (rfl)
@[simp] theorem State.reply_lateTargets (s : State) (r : Requester) (st : BusStatus) (d : DWord) : (s.reply r st d).lateTargets = s.lateTargets := (rfl)
@[simp] theorem State.reply_engineOut (s : State) (r : Requester) (st : BusStatus) (d : DWord) : (s.reply r st d).engineOut = s.engineOut := (rfl)
@[simp] theorem State.reply_noRandom (s : State) (r : Requester) (st : BusStatus) (d : DWord) : (s.reply r st d).noRandom = s.noRandom := (rfl)
@[simp] theorem State.reply_draws (s : State) (r : Requester) (st : BusStatus) (d : DWord) : (s.reply r st d).draws = s.draws := (rfl)
@[simp] theorem State.reply_outs (s : State) (r : Requester) (st : BusStatus) (d : DWord) : (s.reply r st d).outs = s.outs := (rfl)
@[simp] theorem State.reply_pending (s : State) (r : Requester) (st : BusStatus) (d : DWord) : (s.reply r st d).pending = s.pending := (rfl)

@[simp] theorem State.emit_outs (s : State) (o : Output) : (s.emit o).outs = o :: s.outs := (rfl)
@[simp] theorem State.reply_answer (s : State) (r : Requester) (st : BusStatus) (d : DWord) :
    (s.reply r st d).answer = some { req := requesterCode r, status := st, data := d } := (rfl)

/-! ### Fields, counters and pairs: what a register write leaves -/

@[simp] theorem State.setF_mem (s : State) (f : Fld) (v : Nat) : (s.setF f v).mem = s.mem := (rfl)
@[simp] theorem State.setF_pos (s : State) (f : Fld) (v : Nat) : (s.setF f v).pos = s.pos := (rfl)
@[simp] theorem State.setF_bell (s : State) (f : Fld) (v : Nat) : (s.setF f v).bell = s.bell := (rfl)
@[simp] theorem State.setF_ledger (s : State) (f : Fld) (v : Nat) : (s.setF f v).ledger = s.ledger := (rfl)
@[simp] theorem State.setF_now (s : State) (f : Fld) (v : Nat) : (s.setF f v).now = s.now := (rfl)
@[simp] theorem State.setF_ports (s : State) (f : Fld) (v : Nat) : (s.setF f v).ports = s.ports := (rfl)
@[simp] theorem State.setF_refLost (s : State) (f : Fld) (v : Nat) : (s.setF f v).refLost = s.refLost := (rfl)
@[simp] theorem State.setF_sysLost (s : State) (f : Fld) (v : Nat) : (s.setF f v).sysLost = s.sysLost := (rfl)
@[simp] theorem State.setF_gateProg (s : State) (f : Fld) (v : Nat) : (s.setF f v).gateProg = s.gateProg := (rfl)
@[simp] theorem State.setF_gateExact (s : State) (f : Fld) (v : Nat) : (s.setF f v).gateExact = s.gateExact := (rfl)
@[simp] theorem State.setF_gateTern (s : State) (f : Fld) (v : Nat) : (s.setF f v).gateTern = s.gateTern := (rfl)
@[simp] theorem State.setF_gateQ (s : State) (f : Fld) (v : Nat) : (s.setF f v).gateQ = s.gateQ := (rfl)
@[simp] theorem State.setF_units (s : State) (f : Fld) (v : Nat) : (s.setF f v).units = s.units := (rfl)
@[simp] theorem State.setF_pend (s : State) (f : Fld) (v : Nat) : (s.setF f v).pend = s.pend := (rfl)
@[simp] theorem State.setF_inq (s : State) (f : Fld) (v : Nat) : (s.setF f v).inq = s.inq := (rfl)
@[simp] theorem State.setF_changes (s : State) (f : Fld) (v : Nat) : (s.setF f v).changes = s.changes := (rfl)
@[simp] theorem State.setF_punt (s : State) (f : Fld) (v : Nat) : (s.setF f v).punt = s.punt := (rfl)
@[simp] theorem State.setF_clearTx (s : State) (f : Fld) (v : Nat) : (s.setF f v).clearTx = s.clearTx := (rfl)
@[simp] theorem State.setF_hostMem (s : State) (f : Fld) (v : Nat) : (s.setF f v).hostMem = s.hostMem := (rfl)
@[simp] theorem State.setF_chans (s : State) (f : Fld) (v : Nat) : (s.setF f v).chans = s.chans := (rfl)
@[simp] theorem State.setF_tack (s : State) (f : Fld) (v : Nat) : (s.setF f v).tack = s.tack := (rfl)
@[simp] theorem State.setF_brTx (s : State) (f : Fld) (v : Nat) : (s.setF f v).brTx = s.brTx := (rfl)
@[simp] theorem State.setF_brIn (s : State) (f : Fld) (v : Nat) : (s.setF f v).brIn = s.brIn := (rfl)
@[simp] theorem State.setF_loftQ (s : State) (f : Fld) (v : Nat) : (s.setF f v).loftQ = s.loftQ := (rfl)
@[simp] theorem State.setF_wear (s : State) (f : Fld) (v : Nat) : (s.setF f v).wear = s.wear := (rfl)
@[simp] theorem State.setF_loftBad (s : State) (f : Fld) (v : Nat) : (s.setF f v).loftBad = s.loftBad := (rfl)
@[simp] theorem State.setF_loftWarned (s : State) (f : Fld) (v : Nat) : (s.setF f v).loftWarned = s.loftWarned := (rfl)
@[simp] theorem State.setF_twin (s : State) (f : Fld) (v : Nat) : (s.setF f v).twin = s.twin := (rfl)
@[simp] theorem State.setF_fab (s : State) (f : Fld) (v : Nat) : (s.setF f v).fab = s.fab := (rfl)
@[simp] theorem State.setF_tally (s : State) (f : Fld) (v : Nat) : (s.setF f v).tally = s.tally := (rfl)
@[simp] theorem State.setF_power (s : State) (f : Fld) (v : Nat) : (s.setF f v).power = s.power := (rfl)
@[simp] theorem State.setF_cores (s : State) (f : Fld) (v : Nat) : (s.setF f v).cores = s.cores := (rfl)
@[simp] theorem State.setF_config (s : State) (f : Fld) (v : Nat) : (s.setF f v).config = s.config := (rfl)
@[simp] theorem State.setF_untested (s : State) (f : Fld) (v : Nat) : (s.setF f v).untested = s.untested := (rfl)
@[simp] theorem State.setF_hiLatch (s : State) (f : Fld) (v : Nat) : (s.setF f v).hiLatch = s.hiLatch := (rfl)
@[simp] theorem State.setF_loStage (s : State) (f : Fld) (v : Nat) : (s.setF f v).loStage = s.loStage := (rfl)
@[simp] theorem State.setF_padWritten (s : State) (f : Fld) (v : Nat) : (s.setF f v).padWritten = s.padWritten := (rfl)
@[simp] theorem State.setF_eccBad (s : State) (f : Fld) (v : Nat) : (s.setF f v).eccBad = s.eccBad := (rfl)
@[simp] theorem State.setF_ym (s : State) (f : Fld) (v : Nat) : (s.setF f v).ym = s.ym := (rfl)
@[simp] theorem State.setF_railPass (s : State) (f : Fld) (v : Nat) : (s.setF f v).railPass = s.railPass := (rfl)
@[simp] theorem State.setF_urgentRails (s : State) (f : Fld) (v : Nat) : (s.setF f v).urgentRails = s.urgentRails := (rfl)
@[simp] theorem State.setF_lateTargets (s : State) (f : Fld) (v : Nat) : (s.setF f v).lateTargets = s.lateTargets := (rfl)
@[simp] theorem State.setF_engineOut (s : State) (f : Fld) (v : Nat) : (s.setF f v).engineOut = s.engineOut := (rfl)
@[simp] theorem State.setF_noRandom (s : State) (f : Fld) (v : Nat) : (s.setF f v).noRandom = s.noRandom := (rfl)
@[simp] theorem State.setF_answer (s : State) (f : Fld) (v : Nat) : (s.setF f v).answer = s.answer := (rfl)
@[simp] theorem State.setF_draws (s : State) (f : Fld) (v : Nat) : (s.setF f v).draws = s.draws := (rfl)
@[simp] theorem State.setF_outs (s : State) (f : Fld) (v : Nat) : (s.setF f v).outs = s.outs := (rfl)
@[simp] theorem State.setF_pending (s : State) (f : Fld) (v : Nat) : (s.setF f v).pending = s.pending := (rfl)

@[simp] theorem State.cnt_mem (s : State) (f : Fld) (n : Nat) : (s.cnt f n).mem = s.mem := (rfl)
@[simp] theorem State.cnt_pos (s : State) (f : Fld) (n : Nat) : (s.cnt f n).pos = s.pos := (rfl)
@[simp] theorem State.cnt_bell (s : State) (f : Fld) (n : Nat) : (s.cnt f n).bell = s.bell := (rfl)
@[simp] theorem State.cnt_ledger (s : State) (f : Fld) (n : Nat) : (s.cnt f n).ledger = s.ledger := (rfl)
@[simp] theorem State.cnt_now (s : State) (f : Fld) (n : Nat) : (s.cnt f n).now = s.now := (rfl)
@[simp] theorem State.cnt_ports (s : State) (f : Fld) (n : Nat) : (s.cnt f n).ports = s.ports := (rfl)
@[simp] theorem State.cnt_refLost (s : State) (f : Fld) (n : Nat) : (s.cnt f n).refLost = s.refLost := (rfl)
@[simp] theorem State.cnt_sysLost (s : State) (f : Fld) (n : Nat) : (s.cnt f n).sysLost = s.sysLost := (rfl)
@[simp] theorem State.cnt_gateProg (s : State) (f : Fld) (n : Nat) : (s.cnt f n).gateProg = s.gateProg := (rfl)
@[simp] theorem State.cnt_gateExact (s : State) (f : Fld) (n : Nat) : (s.cnt f n).gateExact = s.gateExact := (rfl)
@[simp] theorem State.cnt_gateTern (s : State) (f : Fld) (n : Nat) : (s.cnt f n).gateTern = s.gateTern := (rfl)
@[simp] theorem State.cnt_gateQ (s : State) (f : Fld) (n : Nat) : (s.cnt f n).gateQ = s.gateQ := (rfl)
@[simp] theorem State.cnt_units (s : State) (f : Fld) (n : Nat) : (s.cnt f n).units = s.units := (rfl)
@[simp] theorem State.cnt_pend (s : State) (f : Fld) (n : Nat) : (s.cnt f n).pend = s.pend := (rfl)
@[simp] theorem State.cnt_inq (s : State) (f : Fld) (n : Nat) : (s.cnt f n).inq = s.inq := (rfl)
@[simp] theorem State.cnt_changes (s : State) (f : Fld) (n : Nat) : (s.cnt f n).changes = s.changes := (rfl)
@[simp] theorem State.cnt_punt (s : State) (f : Fld) (n : Nat) : (s.cnt f n).punt = s.punt := (rfl)
@[simp] theorem State.cnt_clearTx (s : State) (f : Fld) (n : Nat) : (s.cnt f n).clearTx = s.clearTx := (rfl)
@[simp] theorem State.cnt_hostMem (s : State) (f : Fld) (n : Nat) : (s.cnt f n).hostMem = s.hostMem := (rfl)
@[simp] theorem State.cnt_chans (s : State) (f : Fld) (n : Nat) : (s.cnt f n).chans = s.chans := (rfl)
@[simp] theorem State.cnt_tack (s : State) (f : Fld) (n : Nat) : (s.cnt f n).tack = s.tack := (rfl)
@[simp] theorem State.cnt_brTx (s : State) (f : Fld) (n : Nat) : (s.cnt f n).brTx = s.brTx := (rfl)
@[simp] theorem State.cnt_brIn (s : State) (f : Fld) (n : Nat) : (s.cnt f n).brIn = s.brIn := (rfl)
@[simp] theorem State.cnt_loftQ (s : State) (f : Fld) (n : Nat) : (s.cnt f n).loftQ = s.loftQ := (rfl)
@[simp] theorem State.cnt_wear (s : State) (f : Fld) (n : Nat) : (s.cnt f n).wear = s.wear := (rfl)
@[simp] theorem State.cnt_loftBad (s : State) (f : Fld) (n : Nat) : (s.cnt f n).loftBad = s.loftBad := (rfl)
@[simp] theorem State.cnt_loftWarned (s : State) (f : Fld) (n : Nat) : (s.cnt f n).loftWarned = s.loftWarned := (rfl)
@[simp] theorem State.cnt_twin (s : State) (f : Fld) (n : Nat) : (s.cnt f n).twin = s.twin := (rfl)
@[simp] theorem State.cnt_fab (s : State) (f : Fld) (n : Nat) : (s.cnt f n).fab = s.fab := (rfl)
@[simp] theorem State.cnt_tally (s : State) (f : Fld) (n : Nat) : (s.cnt f n).tally = s.tally := (rfl)
@[simp] theorem State.cnt_power (s : State) (f : Fld) (n : Nat) : (s.cnt f n).power = s.power := (rfl)
@[simp] theorem State.cnt_cores (s : State) (f : Fld) (n : Nat) : (s.cnt f n).cores = s.cores := (rfl)
@[simp] theorem State.cnt_config (s : State) (f : Fld) (n : Nat) : (s.cnt f n).config = s.config := (rfl)
@[simp] theorem State.cnt_untested (s : State) (f : Fld) (n : Nat) : (s.cnt f n).untested = s.untested := (rfl)
@[simp] theorem State.cnt_hiLatch (s : State) (f : Fld) (n : Nat) : (s.cnt f n).hiLatch = s.hiLatch := (rfl)
@[simp] theorem State.cnt_loStage (s : State) (f : Fld) (n : Nat) : (s.cnt f n).loStage = s.loStage := (rfl)
@[simp] theorem State.cnt_padWritten (s : State) (f : Fld) (n : Nat) : (s.cnt f n).padWritten = s.padWritten := (rfl)
@[simp] theorem State.cnt_eccBad (s : State) (f : Fld) (n : Nat) : (s.cnt f n).eccBad = s.eccBad := (rfl)
@[simp] theorem State.cnt_ym (s : State) (f : Fld) (n : Nat) : (s.cnt f n).ym = s.ym := (rfl)
@[simp] theorem State.cnt_railPass (s : State) (f : Fld) (n : Nat) : (s.cnt f n).railPass = s.railPass := (rfl)
@[simp] theorem State.cnt_urgentRails (s : State) (f : Fld) (n : Nat) : (s.cnt f n).urgentRails = s.urgentRails := (rfl)
@[simp] theorem State.cnt_lateTargets (s : State) (f : Fld) (n : Nat) : (s.cnt f n).lateTargets = s.lateTargets := (rfl)
@[simp] theorem State.cnt_engineOut (s : State) (f : Fld) (n : Nat) : (s.cnt f n).engineOut = s.engineOut := (rfl)
@[simp] theorem State.cnt_noRandom (s : State) (f : Fld) (n : Nat) : (s.cnt f n).noRandom = s.noRandom := (rfl)
@[simp] theorem State.cnt_answer (s : State) (f : Fld) (n : Nat) : (s.cnt f n).answer = s.answer := (rfl)
@[simp] theorem State.cnt_draws (s : State) (f : Fld) (n : Nat) : (s.cnt f n).draws = s.draws := (rfl)
@[simp] theorem State.cnt_outs (s : State) (f : Fld) (n : Nat) : (s.cnt f n).outs = s.outs := (rfl)
@[simp] theorem State.cnt_pending (s : State) (f : Fld) (n : Nat) : (s.cnt f n).pending = s.pending := (rfl)

@[simp] theorem State.cntSat_mem (s : State) (f : Fld) (n : Nat) : (s.cntSat f n).mem = s.mem := (rfl)
@[simp] theorem State.cntSat_pos (s : State) (f : Fld) (n : Nat) : (s.cntSat f n).pos = s.pos := (rfl)
@[simp] theorem State.cntSat_bell (s : State) (f : Fld) (n : Nat) : (s.cntSat f n).bell = s.bell := (rfl)
@[simp] theorem State.cntSat_ledger (s : State) (f : Fld) (n : Nat) : (s.cntSat f n).ledger = s.ledger := (rfl)
@[simp] theorem State.cntSat_now (s : State) (f : Fld) (n : Nat) : (s.cntSat f n).now = s.now := (rfl)
@[simp] theorem State.cntSat_ports (s : State) (f : Fld) (n : Nat) : (s.cntSat f n).ports = s.ports := (rfl)
@[simp] theorem State.cntSat_refLost (s : State) (f : Fld) (n : Nat) : (s.cntSat f n).refLost = s.refLost := (rfl)
@[simp] theorem State.cntSat_sysLost (s : State) (f : Fld) (n : Nat) : (s.cntSat f n).sysLost = s.sysLost := (rfl)
@[simp] theorem State.cntSat_gateProg (s : State) (f : Fld) (n : Nat) : (s.cntSat f n).gateProg = s.gateProg := (rfl)
@[simp] theorem State.cntSat_gateExact (s : State) (f : Fld) (n : Nat) : (s.cntSat f n).gateExact = s.gateExact := (rfl)
@[simp] theorem State.cntSat_gateTern (s : State) (f : Fld) (n : Nat) : (s.cntSat f n).gateTern = s.gateTern := (rfl)
@[simp] theorem State.cntSat_gateQ (s : State) (f : Fld) (n : Nat) : (s.cntSat f n).gateQ = s.gateQ := (rfl)
@[simp] theorem State.cntSat_units (s : State) (f : Fld) (n : Nat) : (s.cntSat f n).units = s.units := (rfl)
@[simp] theorem State.cntSat_pend (s : State) (f : Fld) (n : Nat) : (s.cntSat f n).pend = s.pend := (rfl)
@[simp] theorem State.cntSat_inq (s : State) (f : Fld) (n : Nat) : (s.cntSat f n).inq = s.inq := (rfl)
@[simp] theorem State.cntSat_changes (s : State) (f : Fld) (n : Nat) : (s.cntSat f n).changes = s.changes := (rfl)
@[simp] theorem State.cntSat_punt (s : State) (f : Fld) (n : Nat) : (s.cntSat f n).punt = s.punt := (rfl)
@[simp] theorem State.cntSat_clearTx (s : State) (f : Fld) (n : Nat) : (s.cntSat f n).clearTx = s.clearTx := (rfl)
@[simp] theorem State.cntSat_hostMem (s : State) (f : Fld) (n : Nat) : (s.cntSat f n).hostMem = s.hostMem := (rfl)
@[simp] theorem State.cntSat_chans (s : State) (f : Fld) (n : Nat) : (s.cntSat f n).chans = s.chans := (rfl)
@[simp] theorem State.cntSat_tack (s : State) (f : Fld) (n : Nat) : (s.cntSat f n).tack = s.tack := (rfl)
@[simp] theorem State.cntSat_brTx (s : State) (f : Fld) (n : Nat) : (s.cntSat f n).brTx = s.brTx := (rfl)
@[simp] theorem State.cntSat_brIn (s : State) (f : Fld) (n : Nat) : (s.cntSat f n).brIn = s.brIn := (rfl)
@[simp] theorem State.cntSat_loftQ (s : State) (f : Fld) (n : Nat) : (s.cntSat f n).loftQ = s.loftQ := (rfl)
@[simp] theorem State.cntSat_wear (s : State) (f : Fld) (n : Nat) : (s.cntSat f n).wear = s.wear := (rfl)
@[simp] theorem State.cntSat_loftBad (s : State) (f : Fld) (n : Nat) : (s.cntSat f n).loftBad = s.loftBad := (rfl)
@[simp] theorem State.cntSat_loftWarned (s : State) (f : Fld) (n : Nat) : (s.cntSat f n).loftWarned = s.loftWarned := (rfl)
@[simp] theorem State.cntSat_twin (s : State) (f : Fld) (n : Nat) : (s.cntSat f n).twin = s.twin := (rfl)
@[simp] theorem State.cntSat_fab (s : State) (f : Fld) (n : Nat) : (s.cntSat f n).fab = s.fab := (rfl)
@[simp] theorem State.cntSat_tally (s : State) (f : Fld) (n : Nat) : (s.cntSat f n).tally = s.tally := (rfl)
@[simp] theorem State.cntSat_power (s : State) (f : Fld) (n : Nat) : (s.cntSat f n).power = s.power := (rfl)
@[simp] theorem State.cntSat_cores (s : State) (f : Fld) (n : Nat) : (s.cntSat f n).cores = s.cores := (rfl)
@[simp] theorem State.cntSat_config (s : State) (f : Fld) (n : Nat) : (s.cntSat f n).config = s.config := (rfl)
@[simp] theorem State.cntSat_untested (s : State) (f : Fld) (n : Nat) : (s.cntSat f n).untested = s.untested := (rfl)
@[simp] theorem State.cntSat_hiLatch (s : State) (f : Fld) (n : Nat) : (s.cntSat f n).hiLatch = s.hiLatch := (rfl)
@[simp] theorem State.cntSat_loStage (s : State) (f : Fld) (n : Nat) : (s.cntSat f n).loStage = s.loStage := (rfl)
@[simp] theorem State.cntSat_padWritten (s : State) (f : Fld) (n : Nat) : (s.cntSat f n).padWritten = s.padWritten := (rfl)
@[simp] theorem State.cntSat_eccBad (s : State) (f : Fld) (n : Nat) : (s.cntSat f n).eccBad = s.eccBad := (rfl)
@[simp] theorem State.cntSat_ym (s : State) (f : Fld) (n : Nat) : (s.cntSat f n).ym = s.ym := (rfl)
@[simp] theorem State.cntSat_railPass (s : State) (f : Fld) (n : Nat) : (s.cntSat f n).railPass = s.railPass := (rfl)
@[simp] theorem State.cntSat_urgentRails (s : State) (f : Fld) (n : Nat) : (s.cntSat f n).urgentRails = s.urgentRails := (rfl)
@[simp] theorem State.cntSat_lateTargets (s : State) (f : Fld) (n : Nat) : (s.cntSat f n).lateTargets = s.lateTargets := (rfl)
@[simp] theorem State.cntSat_engineOut (s : State) (f : Fld) (n : Nat) : (s.cntSat f n).engineOut = s.engineOut := (rfl)
@[simp] theorem State.cntSat_noRandom (s : State) (f : Fld) (n : Nat) : (s.cntSat f n).noRandom = s.noRandom := (rfl)
@[simp] theorem State.cntSat_answer (s : State) (f : Fld) (n : Nat) : (s.cntSat f n).answer = s.answer := (rfl)
@[simp] theorem State.cntSat_draws (s : State) (f : Fld) (n : Nat) : (s.cntSat f n).draws = s.draws := (rfl)
@[simp] theorem State.cntSat_outs (s : State) (f : Fld) (n : Nat) : (s.cntSat f n).outs = s.outs := (rfl)
@[simp] theorem State.cntSat_pending (s : State) (f : Fld) (n : Nat) : (s.cntSat f n).pending = s.pending := (rfl)

@[simp] theorem State.wr64_mem (s : State) (o : Nat) (v : DWord) : (s.wr64 o v).mem = s.mem := (rfl)
@[simp] theorem State.wr64_pos (s : State) (o : Nat) (v : DWord) : (s.wr64 o v).pos = s.pos := (rfl)
@[simp] theorem State.wr64_bell (s : State) (o : Nat) (v : DWord) : (s.wr64 o v).bell = s.bell := (rfl)
@[simp] theorem State.wr64_ledger (s : State) (o : Nat) (v : DWord) : (s.wr64 o v).ledger = s.ledger := (rfl)
@[simp] theorem State.wr64_now (s : State) (o : Nat) (v : DWord) : (s.wr64 o v).now = s.now := (rfl)
@[simp] theorem State.wr64_ports (s : State) (o : Nat) (v : DWord) : (s.wr64 o v).ports = s.ports := (rfl)
@[simp] theorem State.wr64_refLost (s : State) (o : Nat) (v : DWord) : (s.wr64 o v).refLost = s.refLost := (rfl)
@[simp] theorem State.wr64_sysLost (s : State) (o : Nat) (v : DWord) : (s.wr64 o v).sysLost = s.sysLost := (rfl)
@[simp] theorem State.wr64_gateProg (s : State) (o : Nat) (v : DWord) : (s.wr64 o v).gateProg = s.gateProg := (rfl)
@[simp] theorem State.wr64_gateExact (s : State) (o : Nat) (v : DWord) : (s.wr64 o v).gateExact = s.gateExact := (rfl)
@[simp] theorem State.wr64_gateTern (s : State) (o : Nat) (v : DWord) : (s.wr64 o v).gateTern = s.gateTern := (rfl)
@[simp] theorem State.wr64_gateQ (s : State) (o : Nat) (v : DWord) : (s.wr64 o v).gateQ = s.gateQ := (rfl)
@[simp] theorem State.wr64_units (s : State) (o : Nat) (v : DWord) : (s.wr64 o v).units = s.units := (rfl)
@[simp] theorem State.wr64_pend (s : State) (o : Nat) (v : DWord) : (s.wr64 o v).pend = s.pend := (rfl)
@[simp] theorem State.wr64_inq (s : State) (o : Nat) (v : DWord) : (s.wr64 o v).inq = s.inq := (rfl)
@[simp] theorem State.wr64_changes (s : State) (o : Nat) (v : DWord) : (s.wr64 o v).changes = s.changes := (rfl)
@[simp] theorem State.wr64_punt (s : State) (o : Nat) (v : DWord) : (s.wr64 o v).punt = s.punt := (rfl)
@[simp] theorem State.wr64_clearTx (s : State) (o : Nat) (v : DWord) : (s.wr64 o v).clearTx = s.clearTx := (rfl)
@[simp] theorem State.wr64_hostMem (s : State) (o : Nat) (v : DWord) : (s.wr64 o v).hostMem = s.hostMem := (rfl)
@[simp] theorem State.wr64_chans (s : State) (o : Nat) (v : DWord) : (s.wr64 o v).chans = s.chans := (rfl)
@[simp] theorem State.wr64_tack (s : State) (o : Nat) (v : DWord) : (s.wr64 o v).tack = s.tack := (rfl)
@[simp] theorem State.wr64_brTx (s : State) (o : Nat) (v : DWord) : (s.wr64 o v).brTx = s.brTx := (rfl)
@[simp] theorem State.wr64_brIn (s : State) (o : Nat) (v : DWord) : (s.wr64 o v).brIn = s.brIn := (rfl)
@[simp] theorem State.wr64_loftQ (s : State) (o : Nat) (v : DWord) : (s.wr64 o v).loftQ = s.loftQ := (rfl)
@[simp] theorem State.wr64_wear (s : State) (o : Nat) (v : DWord) : (s.wr64 o v).wear = s.wear := (rfl)
@[simp] theorem State.wr64_loftBad (s : State) (o : Nat) (v : DWord) : (s.wr64 o v).loftBad = s.loftBad := (rfl)
@[simp] theorem State.wr64_loftWarned (s : State) (o : Nat) (v : DWord) : (s.wr64 o v).loftWarned = s.loftWarned := (rfl)
@[simp] theorem State.wr64_twin (s : State) (o : Nat) (v : DWord) : (s.wr64 o v).twin = s.twin := (rfl)
@[simp] theorem State.wr64_fab (s : State) (o : Nat) (v : DWord) : (s.wr64 o v).fab = s.fab := (rfl)
@[simp] theorem State.wr64_tally (s : State) (o : Nat) (v : DWord) : (s.wr64 o v).tally = s.tally := (rfl)
@[simp] theorem State.wr64_power (s : State) (o : Nat) (v : DWord) : (s.wr64 o v).power = s.power := (rfl)
@[simp] theorem State.wr64_cores (s : State) (o : Nat) (v : DWord) : (s.wr64 o v).cores = s.cores := (rfl)
@[simp] theorem State.wr64_config (s : State) (o : Nat) (v : DWord) : (s.wr64 o v).config = s.config := (rfl)
@[simp] theorem State.wr64_untested (s : State) (o : Nat) (v : DWord) : (s.wr64 o v).untested = s.untested := (rfl)
@[simp] theorem State.wr64_hiLatch (s : State) (o : Nat) (v : DWord) : (s.wr64 o v).hiLatch = s.hiLatch := (rfl)
@[simp] theorem State.wr64_loStage (s : State) (o : Nat) (v : DWord) : (s.wr64 o v).loStage = s.loStage := (rfl)
@[simp] theorem State.wr64_padWritten (s : State) (o : Nat) (v : DWord) : (s.wr64 o v).padWritten = s.padWritten := (rfl)
@[simp] theorem State.wr64_eccBad (s : State) (o : Nat) (v : DWord) : (s.wr64 o v).eccBad = s.eccBad := (rfl)
@[simp] theorem State.wr64_ym (s : State) (o : Nat) (v : DWord) : (s.wr64 o v).ym = s.ym := (rfl)
@[simp] theorem State.wr64_railPass (s : State) (o : Nat) (v : DWord) : (s.wr64 o v).railPass = s.railPass := (rfl)
@[simp] theorem State.wr64_urgentRails (s : State) (o : Nat) (v : DWord) : (s.wr64 o v).urgentRails = s.urgentRails := (rfl)
@[simp] theorem State.wr64_lateTargets (s : State) (o : Nat) (v : DWord) : (s.wr64 o v).lateTargets = s.lateTargets := (rfl)
@[simp] theorem State.wr64_engineOut (s : State) (o : Nat) (v : DWord) : (s.wr64 o v).engineOut = s.engineOut := (rfl)
@[simp] theorem State.wr64_noRandom (s : State) (o : Nat) (v : DWord) : (s.wr64 o v).noRandom = s.noRandom := (rfl)
@[simp] theorem State.wr64_answer (s : State) (o : Nat) (v : DWord) : (s.wr64 o v).answer = s.answer := (rfl)
@[simp] theorem State.wr64_draws (s : State) (o : Nat) (v : DWord) : (s.wr64 o v).draws = s.draws := (rfl)
@[simp] theorem State.wr64_outs (s : State) (o : Nat) (v : DWord) : (s.wr64 o v).outs = s.outs := (rfl)
@[simp] theorem State.wr64_pending (s : State) (o : Nat) (v : DWord) : (s.wr64 o v).pending = s.pending := (rfl)

/-! ### Reads after writes -/

/-- A register reads what was written to it, every other what it held (R12). -/
theorem State.rd_wr (s : State) (o p : Nat) (v : Word) : (s.wr o v).rd p = if o = p then v else s.rd p := by
  unfold State.rd State.wr
  exact tblGet_tblSet _ _ _ _ _ _ (fun h => by rw [h])

@[simp] theorem State.rd_wr_same (s : State) (o : Nat) (v : Word) : (s.wr o v).rd o = v := by rw [State.rd_wr]; simp

theorem State.rd_wr_ne (s : State) (o p : Nat) (v : Word) (h : o ≠ p) : (s.wr o v).rd p = s.rd p := by
  rw [State.rd_wr]; simp [h]

/-- A field write leaves every other register. -/
theorem State.rd_setF_ne (s : State) (f : Fld) (p v : Nat) (h : f.off ≠ p) : (s.setF f v).rd p = s.rd p := State.rd_wr_ne _ _ _ _ h

theorem State.getF_setF_ne (s : State) (f g : Fld) (v : Nat) (h : f.off ≠ g.off) : (s.setF f v).getF g = s.getF g := by
  unfold State.getF; rw [State.rd_setF_ne _ _ _ _ h]

/-- What a field of a word holds after it has been written: the value, modulo its width. -/
theorem fldGet_fldSet (hi lo v : Nat) (w : Word) (h : lo ≤ hi) (h32 : hi < 32) :
    fldGet hi lo (fldSet hi lo v w) = v % 2 ^ (hi + 1 - lo) := by
  unfold fldGet fldSet
  have hw := w.isLt
  generalize hn : w.toNat = n at hw ⊢
  dsimp only
  rw [BitVec.toNat_ofNat]
  have e1 : 2 ^ (hi + 1) = 2 ^ lo * 2 ^ (hi + 1 - lo) := by rw [← Nat.pow_add]; congr 1; omega
  have e2 : 2 ^ 32 = 2 ^ (hi + 1) * 2 ^ (32 - (hi + 1)) := by rw [← Nat.pow_add]; congr 1; omega
  have ha : n % 2 ^ lo < 2 ^ lo := Nat.mod_lt _ (Nat.two_pow_pos lo)
  have hv : v % 2 ^ (hi + 1 - lo) < 2 ^ (hi + 1 - lo) := Nat.mod_lt _ (Nat.two_pow_pos _)
  generalize n % 2 ^ lo = a at ha ⊢
  generalize v % 2 ^ (hi + 1 - lo) = b at hv ⊢
  have hq : n / 2 ^ (hi + 1) < 2 ^ (32 - (hi + 1)) := by
    apply Nat.div_lt_of_lt_mul; rw [← e2]; exact hw
  generalize n / 2 ^ (hi + 1) = q at hq ⊢
  have hab : a + b * 2 ^ lo < 2 ^ (hi + 1) := by
    rw [e1]
    calc a + b * 2 ^ lo < 2 ^ lo + b * 2 ^ lo := by omega
      _ = 2 ^ lo * (b + 1) := by rw [Nat.mul_add, Nat.mul_comm]; omega
      _ ≤ 2 ^ lo * 2 ^ (hi + 1 - lo) := Nat.mul_le_mul_left _ hv
  have hlt : a + b * 2 ^ lo + q * 2 ^ (hi + 1) < 2 ^ 32 := by
    rw [e2]
    calc a + b * 2 ^ lo + q * 2 ^ (hi + 1) < 2 ^ (hi + 1) + q * 2 ^ (hi + 1) := by omega
      _ = 2 ^ (hi + 1) * (q + 1) := by rw [Nat.mul_add, Nat.mul_comm]; omega
      _ ≤ 2 ^ (hi + 1) * 2 ^ (32 - (hi + 1)) := Nat.mul_le_mul_left _ hq
  rw [Nat.mod_eq_of_lt hlt]
  have e3 : a + b * 2 ^ lo + q * 2 ^ (hi + 1) = a + 2 ^ lo * (b + q * 2 ^ (hi + 1 - lo)) := by
    rw [e1, Nat.mul_add, Nat.mul_comm b, ← Nat.add_assoc]
    congr 1
    rw [Nat.mul_left_comm]
  rw [e3, Nat.add_mul_div_left _ _ (Nat.two_pow_pos lo), Nat.div_eq_of_lt ha, Nat.zero_add, Nat.add_mul_mod_self_right,
    Nat.mod_eq_of_lt hv]

/-- The field written reads its value, modulo its width. -/
theorem State.getF_setF_same (s : State) (f : Fld) (v : Nat) (h : f.lo ≤ f.hi) (h32 : f.hi < 32) :
    (s.setF f v).getF f = v % 2 ^ (f.hi + 1 - f.lo) := by
  unfold State.getF State.setF
  rw [State.rd_wr_same, fldGet_fldSet _ _ _ _ h h32]

/-- A field of a word keeps its value when bits beside it are written. -/
theorem fldGet_fldSet_ne (hi lo h2 l2 v : Nat) (w : Word) (h : lo ≤ hi) (h32 : hi < 32) (g : l2 ≤ h2) (hd : h2 < lo ∨ hi < l2) :
    fldGet h2 l2 (fldSet hi lo v w) = fldGet h2 l2 w := by
  unfold fldGet fldSet
  have hw := w.isLt
  generalize hn : w.toNat = n at hw ⊢
  dsimp only
  rw [BitVec.toNat_ofNat]
  have e1 : 2 ^ (hi + 1) = 2 ^ lo * 2 ^ (hi + 1 - lo) := by rw [← Nat.pow_add]; congr 1; omega
  have e2 : 2 ^ 32 = 2 ^ (hi + 1) * 2 ^ (32 - (hi + 1)) := by rw [← Nat.pow_add]; congr 1; omega
  have ha : n % 2 ^ lo < 2 ^ lo := Nat.mod_lt _ (Nat.two_pow_pos lo)
  have hv : v % 2 ^ (hi + 1 - lo) < 2 ^ (hi + 1 - lo) := Nat.mod_lt _ (Nat.two_pow_pos _)
  generalize v % 2 ^ (hi + 1 - lo) = b at hv ⊢
  have hq : n / 2 ^ (hi + 1) < 2 ^ (32 - (hi + 1)) := by
    apply Nat.div_lt_of_lt_mul; rw [← e2]; exact hw
  have hab : n % 2 ^ lo + b * 2 ^ lo < 2 ^ (hi + 1) := by
    rw [e1]
    calc n % 2 ^ lo + b * 2 ^ lo < 2 ^ lo + b * 2 ^ lo := by omega
      _ = 2 ^ lo * (b + 1) := by rw [Nat.mul_add, Nat.mul_comm]; omega
      _ ≤ 2 ^ lo * 2 ^ (hi + 1 - lo) := Nat.mul_le_mul_left _ hv
  have hlt : n % 2 ^ lo + b * 2 ^ lo + n / 2 ^ (hi + 1) * 2 ^ (hi + 1) < 2 ^ 32 := by
    generalize n / 2 ^ (hi + 1) = q at hq ⊢
    generalize n % 2 ^ lo + b * 2 ^ lo = x at hab ⊢
    rw [e2]
    calc x + q * 2 ^ (hi + 1) < 2 ^ (hi + 1) + q * 2 ^ (hi + 1) := by omega
      _ = 2 ^ (hi + 1) * (q + 1) := by rw [Nat.mul_add, Nat.mul_comm]; omega
      _ ≤ 2 ^ (hi + 1) * 2 ^ (32 - (hi + 1)) := Nat.mul_le_mul_left _ hq
  rw [Nat.mod_eq_of_lt hlt]
  have pd : ∀ m : Nat, m / 2 ^ l2 % 2 ^ (h2 + 1 - l2) = m % 2 ^ (h2 + 1) / 2 ^ l2 := by
    intro m
    have : 2 ^ (h2 + 1) = 2 ^ l2 * 2 ^ (h2 + 1 - l2) := by rw [← Nat.pow_add]; congr 1; omega
    rw [this, Nat.mod_mul_right_div_self]
  rcases hd with hd | hd
  · rw [pd, pd]
    congr 1
    have hdv : 2 ^ (h2 + 1) ∣ 2 ^ lo := Nat.pow_dvd_pow 2 (by omega)
    have key : (n % 2 ^ lo + b * 2 ^ lo + n / 2 ^ (hi + 1) * 2 ^ (hi + 1)) % 2 ^ lo = n % 2 ^ lo := by
      generalize n / 2 ^ (hi + 1) = q
      rw [e1, Nat.mul_left_comm q, Nat.mul_comm b, Nat.add_mul_mod_self_left, Nat.add_mul_mod_self_left, Nat.mod_mod]
    rw [← Nat.mod_mod_of_dvd _ hdv, key, Nat.mod_mod_of_dvd _ hdv]
  · have e4 : 2 ^ l2 = 2 ^ (hi + 1) * 2 ^ (l2 - (hi + 1)) := by rw [← Nat.pow_add]; congr 1; omega
    rw [e4, ← Nat.div_div_eq_div_mul, ← Nat.div_div_eq_div_mul, Nat.add_mul_div_right _ _ (Nat.two_pow_pos _),
      Nat.div_eq_of_lt hab, Nat.zero_add]

/-- Another field of the word, or a field of another word, keeps its value. -/
theorem State.getF_setF_disj (s : State) (f g : Fld) (v : Nat) (h : f.lo ≤ f.hi) (h32 : f.hi < 32) (hg : g.lo ≤ g.hi)
    (hd : f.off ≠ g.off ∨ g.hi < f.lo ∨ f.hi < g.lo) : (s.setF f v).getF g = s.getF g := by
  by_cases ho : f.off = g.off
  · unfold State.getF State.setF
    rw [ho, State.rd_wr_same, fldGet_fldSet_ne _ _ _ _ _ _ h h32 hg (hd.resolve_left (fun x => x ho))]
  · exact State.getF_setF_ne s f g v ho

/-- A byte reads what was written to it, every other what it held. -/
theorem State.byte_setByte (s : State) (a b : Nat) (v : Byte) : (s.setByte a v).byte b = if a = b then v else s.byte b := by
  unfold State.byte State.setByte
  exact tblGet_tblSet _ _ _ _ _ _ (fun _ => rfl)

@[simp] theorem State.byte_wr (s : State) (o a : Nat) (v : Word) : (s.wr o v).byte a = s.byte a := (rfl)
@[simp] theorem State.byte_setF (s : State) (f : Fld) (v a : Nat) : (s.setF f v).byte a = s.byte a := (rfl)
@[simp] theorem State.byte_emit (s : State) (o : Output) (a : Nat) : (s.emit o).byte a = s.byte a := (rfl)
@[simp] theorem State.byte_reply (s : State) (r : Requester) (st : BusStatus) (d : DWord) (a : Nat) : (s.reply r st d).byte a = s.byte a := (rfl)
@[simp] theorem State.rd_setByte (s : State) (a o : Nat) (v : Byte) : (s.setByte a v).rd o = s.rd o := (rfl)
@[simp] theorem State.rd_emit (s : State) (o : Output) (p : Nat) : (s.emit o).rd p = s.rd p := (rfl)
@[simp] theorem State.rd_reply (s : State) (r : Requester) (st : BusStatus) (d : DWord) (o : Nat) : (s.reply r st d).rd o = s.rd o := (rfl)

/-- Bytes outside those written keep what they hold. -/
theorem State.byte_setBytes_ne (s : State) (a b : Nat) (l : List Byte) (h : b < a ∨ a + l.length ≤ b) :
    (s.setBytes a l).byte b = s.byte b := by
  induction l generalizing a s with
  | nil => rfl
  | cons x r ih =>
    rw [List.length_cons] at h
    unfold State.setBytes
    rw [ih _ _ (by omega), State.byte_setByte]
    have : a ≠ b := by omega
    simp [this]

/-- Bytes read what was written over them, every other what it held. -/
theorem State.byte_setBytes (s : State) (a b : Nat) (l : List Byte) :
    (s.setBytes a l).byte b = if a ≤ b ∧ b < a + l.length then l.getD (b - a) 0 else s.byte b := by
  induction l generalizing a s with
  | nil => rw [if_neg (by simp only [List.length_nil]; omega)]; rfl
  | cons x r ih =>
    unfold State.setBytes
    rw [ih, List.length_cons]
    by_cases h : a + 1 ≤ b ∧ b < a + 1 + r.length
    · rw [if_pos h, if_pos (by omega), show b - a = (b - (a + 1)) + 1 by omega, List.getD_cons_succ]
    · rw [if_neg h, State.byte_setByte]
      by_cases ha : a = b
      · subst ha; simp
      · rw [if_neg ha, if_neg (by omega)]

@[simp] theorem State.rd_setBytes (s : State) (a o : Nat) (l : List Byte) : (s.setBytes a l).rd o = s.rd o := by
  induction l generalizing a s with
  | nil => rfl
  | cons x r ih => unfold State.setBytes; rw [ih]; rfl

/-! ### Pairs -/

theorem State.rd_wr64 (s : State) (o p : Nat) (v : DWord) :
    (s.wr64 o v).rd p = if o + 4 = p then (v >>> 32).truncate 32 else if o = p then v.truncate 32 else s.rd p := by
  unfold State.wr64; rw [State.rd_wr, State.rd_wr]

theorem State.rd_wr64_ne (s : State) (o p : Nat) (v : DWord) (h : o ≠ p) (h4 : o + 4 ≠ p) : (s.wr64 o v).rd p = s.rd p := by
  rw [State.rd_wr64]; simp [h, h4]

theorem State.getF_wr64_ne (s : State) (o : Nat) (v : DWord) (f : Fld) (h : o ≠ f.off) (h4 : o + 4 ≠ f.off) :
    (s.wr64 o v).getF f = s.getF f := by
  unfold State.getF; rw [State.rd_wr64_ne _ _ _ _ h h4]

/-- A pair reads what was written to it (R45). -/
@[simp] theorem State.rd64_wr64_same (s : State) (o : Nat) (v : DWord) : (s.wr64 o v).rd64 o = v := by
  unfold State.rd64; rw [State.rd_wr64, State.rd_wr64]
  simp only [if_true, Nat.add_eq_left, OfNat.ofNat_ne_zero, if_false]
  ext i hi
  simp only [BitVec.truncate_eq_setWidth, BitVec.getElem_append, BitVec.getElem_setWidth, BitVec.getLsbD_ushiftRight]
  split
  · exact BitVec.getLsbD_eq_getElem hi
  · rw [show 32 + (i - 32) = i by omega]; exact BitVec.getLsbD_eq_getElem hi

theorem State.rd64_congr {s t : State} {o : Nat} (h : t.rd o = s.rd o) (h4 : t.rd (o + 4) = s.rd (o + 4)) : t.rd64 o = s.rd64 o := by
  unfold State.rd64; rw [h, h4]

theorem State.rd64_wr_ne (s : State) (o p : Nat) (v : Word) (h : o ≠ p) (h4 : o ≠ p + 4) : (s.wr o v).rd64 p = s.rd64 p :=
  State.rd64_congr (State.rd_wr_ne _ _ _ _ h) (State.rd_wr_ne _ _ _ _ h4)

theorem State.rd64_setF_ne (s : State) (f : Fld) (p v : Nat) (h : f.off ≠ p) (h4 : f.off ≠ p + 4) : (s.setF f v).rd64 p = s.rd64 p :=
  State.rd64_wr_ne _ _ _ _ h h4

theorem State.rd64_wr64_ne (s : State) (o p : Nat) (v : DWord) (h : o ≠ p) (h1 : o + 4 ≠ p) (h2 : o ≠ p + 4) :
    (s.wr64 o v).rd64 p = s.rd64 p :=
  State.rd64_congr (State.rd_wr64_ne _ _ _ _ h h1) (State.rd_wr64_ne _ _ _ _ h2 (by omega))

/-- The pair's beat number is the one written with a fraction of 0 (R50, R66). -/
theorem State.beat_wr64 (s : State) (b : Beat) : (s.wr64 POS_NOW_LO ((b.zeroExtend 64) <<< 16)).beat = b := by
  unfold State.beat
  rw [State.rd64_wr64_same]
  ext i hi
  simp only [BitVec.truncate_eq_setWidth, BitVec.getElem_setWidth, BitVec.getLsbD_ushiftRight, BitVec.getLsbD_shiftLeft]
  simp [hi, show 16 + i < 64 by omega, show i < 64 by omega]

/-! ### Registers of a state given by its parts -/

theorem State.rd_mk {csr mem pos bell ledger now ports refLost sysLost gateProg gateExact gateTern gateQ units pend inq changes punt clearTx
    hostMem chans tack brTx brIn loftQ wear loftBad loftWarned twin fab tally power cores config untested hiLatch loStage
    padWritten eccBad ym railPass urgentRails lateTargets engineOut noRandom answer draws outs pending} (o : Nat) :
    (State.mk csr mem pos bell ledger now ports refLost sysLost gateProg gateExact gateTern gateQ units pend inq changes punt clearTx
    hostMem chans tack brTx brIn loftQ wear loftBad loftWarned twin fab tally power cores config untested hiLatch loStage
    padWritten eccBad ym railPass urgentRails lateTargets engineOut noRandom answer draws outs pending).rd o =
      tblGet (csrReset o) o csr := (rfl)

/-- The word a register holds, folded. -/
theorem State.rd_fold (s : State) (o : Nat) : tblGet (csrReset o) o s.csr = s.rd o := (rfl)

theorem State.rd_of_csr {s t : State} (h : t.csr = s.csr) (o : Nat) : t.rd o = s.rd o := by unfold State.rd; rw [h]

theorem State.getF_of_csr {s t : State} (h : t.csr = s.csr) (f : Fld) : t.getF f = s.getF f := by
  unfold State.getF; rw [State.rd_of_csr h]

theorem State.getF_fold (s : State) (f : Fld) : fldGet f.hi f.lo (s.rd f.off) = s.getF f := (rfl)

end Sys2Proof.Machine
end

