-- ==== Sys2Proof/Laws/DrayIssue.lean ====
section
/-!
SUPPORT. A bundle of one op on a core that stands free: what issuing it does, said once for every op.
-/

namespace Sys2Proof.Machine

/-! ### Cores of a state -/

theorem State.core_setCore (s : State) (k j : Nat) (c : Core) : (s.setCore k c).core j = if k = j then c else s.core j := by
  unfold State.core State.setCore; exact tblGet_tblSet _ _ _ _ _ _ (fun _ => rfl)

@[simp] theorem State.core_setCore_same (s : State) (k : Nat) (c : Core) : (s.setCore k c).core k = c := by
  rw [State.core_setCore, if_pos rfl]

theorem State.core_setCore_ne (s : State) {k j : Nat} (c : Core) (h : j ≠ k) : (s.setCore k c).core j = s.core j := by
  rw [State.core_setCore, if_neg (Ne.symm h)]

@[simp] theorem State.rd_setCore (s : State) (k o : Nat) (c : Core) : (s.setCore k c).rd o = s.rd o := (rfl)
@[simp] theorem State.core_wr (s : State) (k o : Nat) (v : Word) : (s.wr o v).core k = s.core k := (rfl)
@[simp] theorem State.core_setF (s : State) (k : Nat) (f : Fld) (v : Nat) : (s.setF f v).core k = s.core k := (rfl)
@[simp] theorem State.core_cntSat (s : State) (k : Nat) (f : Fld) (n : Nat) : (s.cntSat f n).core k = s.core k := (rfl)

theorem OnlyCore.refl (k : Nat) (s : State) : OnlyCore k s s := ⟨fun _ _ => rfl, fun _ _ _ => rfl, rfl⟩

theorem OnlyCore.trans {k : Nat} {s t u : State} (h : OnlyCore k s t) (g : OnlyCore k t u) : OnlyCore k s u :=
  ⟨fun j x => (g.core j x).trans (h.core j x), fun o x y => (g.rd o x y).trans (h.rd o x y), by rw [g.rest, h.rest]⟩

theorem onlyCore_setCore (k : Nat) (s : State) (c : Core) : OnlyCore k s (s.setCore k c) :=
  ⟨fun _ x => State.core_setCore_ne s c x, fun _ _ _ => rfl, rfl⟩

theorem onlyCore_wr (k : Nat) (s : State) (o : Nat) (v : Word) (h : o = DRAY_FREEZE k ∨ o = DRAY_DBG_STAT k) : OnlyCore k s (s.wr o v) :=
  ⟨fun _ _ => rfl, fun p x y => State.rd_wr_ne _ _ _ _ (by rcases h with h | h <;> (subst h; exact Ne.symm ‹_›)), rfl⟩

/-- A flag outside the two registers reads as before. -/
theorem OnlyCore.isSet {k : Nat} {s t : State} (h : OnlyCore k s t) (f : Fld) (h1 : f.off ≠ DRAY_FREEZE k)
    (h2 : f.off ≠ DRAY_DBG_STAT k) : t.isSet f = s.isSet f := by
  unfold State.isSet State.getF; rw [h.rd _ h1 h2]

/-! ### Issue -/

/-- The first slot of a class. -/
def SlotClass.first : SlotClass → Nat
  | .none => 8
  | .a => 0
  | .a2 => 0
  | .m => 2
  | .l => 4
  | .l2 => 4
  | .macd => 2
  | .b => 6
  | .v => 7

theorem takeSlot_empty (c : Core) (h : c.bundle = []) (cls : SlotClass) : takeSlot c cls = some cls.first := by
  unfold takeSlot; rw [h]; cases cls <;> rfl

/-- The op alone in its bundle. -/
def aloneOp (h : OpHead) (cls : SlotClass) (word : Nat) (l : List Eff) : DrayOp :=
  { slot := cls.first, word := word, structural := none, execution := none, effs := l ++ (if h.frz = 0 then [] else [.freeze h.frz]) }

theorem classWords_le (cls : SlotClass) : classWords cls ≤ 2 := by cases cls <;> decide

/-- An op alone in its bundle on a free core: the bundle issues. -/
theorem drayOp_free {s : State} {h : OpHead} {cls : SlotClass} {word : Nat} {st : State → Core → Option (Nat × Nat)}
    {plan : Bool → Nat → Core → State → Plan} {l : List Eff} (hf : CoreFree s h.core.val (classWords cls)) (hl : h.last = true)
    (hs : st s (s.core h.core.val) = none)
    (hp : plan (opExecutes h (s.core h.core.val)) cls.first (s.core h.core.val) s = .effects l) :
    drayOp h cls word st plan s = issue h.core.val (s.setCore h.core.val
      { s.core h.core.val with bundle := [aloneOp h cls word l], words := classWords cls }) := by
  have hw := classWords_le cls
  have hline := hf.line
  unfold drayOp
  simp only [hf.issue, Bool.not_true, Bool.false_eq_true, if_false, lineFill, hf.native, Bool.not_false, Bool.true_or, if_true]
  simp only [hf.wordsNone, takeSlot_empty _ hf.bundle, Nat.zero_add, Option.isNone_some, Bool.false_and, Bool.or_false,
    show decide (8 < classWords cls) = false by simp; omega,
    show decide (64 < (s.core h.core.val).pc % 64 + 4 * classWords cls) = false by simp; omega,
    Bool.false_eq_true, if_false, hs, Option.isSome_none, Option.getD_some, hp, hl, if_true, hf.bundle, List.nil_append]
  unfold closeBundle
  simp only [State.core_setCore_same]
  have : bundleFault [aloneOp h cls word l] = none := by
    unfold bundleFault aloneOp
    have : ∀ n : Nat, (List.range 9).findSome? (fun i => ([({ slot := n, word := word, structural := none, execution := none, effs := l ++ (if h.frz = 0 then [] else [.freeze h.frz]) } : DrayOp)].filter (fun o => o.slot = i)).findSome? (fun o => (o.structural).map (fun x => (x.1, x.2, o.slot)))) = (none : Option (Nat × Nat × Nat)) := by
      intro n
      rw [List.findSome?_eq_none_iff]
      intro i _
      rw [List.findSome?_eq_none_iff]
      intro o ho
      have := List.mem_of_mem_filter ho
      simp only [List.mem_singleton] at this
      subst this; rfl
    have h2 : ∀ n : Nat, (List.range 9).findSome? (fun i => ([({ slot := n, word := word, structural := none, execution := none, effs := l ++ (if h.frz = 0 then [] else [.freeze h.frz]) } : DrayOp)].filter (fun o => o.slot = i)).findSome? (fun o => (o.execution).map (fun x => (x.1, x.2, o.slot)))) = (none : Option (Nat × Nat × Nat)) := by
      intro n
      rw [List.findSome?_eq_none_iff]
      intro i _
      rw [List.findSome?_eq_none_iff]
      intro o ho
      have := List.mem_of_mem_filter ho
      simp only [List.mem_singleton] at this
      subst this; rfl
    simp only [this, h2]; rfl
  simp only [aloneOp] at this ⊢
  simp only [planFault, planEffs, this]

/-! ### Commit -/

/-- One cycle of landing, on the core alone. -/
def Core.tick (c : Core) : Core :=
  let c := { c with cyc := c.cyc + 1 }
  let due := (c.flight.filter (fun x => x.land ≤ c.cyc)).foldl (fun l x => landInsert x l) []
  let c := landAll due { c with flight := c.flight.filter (fun x => c.cyc < x.land) }
  let d := dueStores c.cyc c.stores
  let n := d.2.length
  let c := vStreams { c with stores := d.2 }
  { c with vbanks := (c.stores.drop n).flatMap (fun x => x.cells.map (fun e => e.1 / 0x20000)) }

theorem storeCells_cores (k : Nat) (l : List (Nat × Byte)) (s : State) : (storeCells k l s).cores = s.cores := by
  unfold storeCells
  induction l generalizing s with
  | nil => rfl
  | cons e r ih => rw [List.foldl_cons, ih]; rfl

theorem coreTick_core (k : Nat) (s : State) : (coreTick k s).core k = (s.core k).tick := by
  unfold coreTick; rw [State.core_setCore_same]; rfl

/-- A core whose stores are not due yet ticks without a write to memory. -/
theorem coreTick_onlyCore (k : Nat) (s : State)
    (h : (dueStores (landAll (((s.core k).flight.filter (fun x => x.land ≤ (s.core k).cyc + 1)).foldl (fun l x => landInsert x l) [])
      { s.core k with cyc := (s.core k).cyc + 1, flight := (s.core k).flight.filter (fun x => (s.core k).cyc + 1 < x.land) }).cyc
      (landAll (((s.core k).flight.filter (fun x => x.land ≤ (s.core k).cyc + 1)).foldl (fun l x => landInsert x l) [])
      { s.core k with cyc := (s.core k).cyc + 1, flight := (s.core k).flight.filter (fun x => (s.core k).cyc + 1 < x.land) }).stores).1 = []) :
    OnlyCore k s (coreTick k s) := by
  unfold coreTick
  dsimp only
  rw [h]
  exact onlyCore_setCore _ _ _

/-- An effect that leaves the flow of bundles alone. -/
def Eff.plain : Eff → Bool
  | .branch _ _ _ _ _ => false
  | .link _ => false
  | .loop _ _ _ => false
  | .atom _ => false
  | .lock _ => false
  | .unlock _ => false
  | .wait => false
  | .syscall _ => false
  | .rete => false
  | _ => true

theorem effFind_plain {α : Type} (f : Eff → Option α) (o : DrayOp) (h : ∀ e ∈ o.effs, f e = none) : effFind f [o] = none := by
  unfold effFind
  rw [List.findSome?_eq_none_iff]
  simpa using h

/-- The core and the machine as the effects of a committing bundle find them. -/
def commitStart (k : Nat) (o : DrayOp) (s : State) : State :=
  let c := s.core k
  (s.setCore k { c with
    bundle := [], words := 0, frozen := false, icycle := c.icycle + 1, wcycle := c.wcycle + 1 + bundleFreeze c [o], ieLast := c.ie,
    queue := [c.pc / 64, c.pc / 64 + 1] }).cntSat (DRAY_FREEZE_FREEZES k) (bundleFreeze c [o])

theorem commitStart_only (k : Nat) (o : DrayOp) (s : State) : OnlyCore k s (commitStart k o s) :=
  (onlyCore_setCore k s _).trans (onlyCore_wr k _ _ _ (.inl rfl))

/-- The boundary after a bundle with nothing due: only PC of DRAY_DBG_STAT is shown. -/
theorem boundary_free {k : Nat} {s : State} (hd : s.isSet (DRAY_DBG_CTL_DBG_EN k) = false) (hr : s.isSet (DRAY_CTL_RUN k) = true)
    (hs : (s.core k).stepping = false) : (boundary k s).core k = s.core k ∧ OnlyCore k s (boundary k s) := by
  have hr' : ∀ v, ((s.setCore k (s.core k)).setF (DRAY_DBG_STAT_PC k) v).isSet (DRAY_CTL_RUN k) = true := by
    intro v
    rw [← hr]
    exact ((onlyCore_setCore k s (s.core k)).trans (onlyCore_wr k _ _ _ (.inr rfl))).isSet _
      (by simp [DRAY_CTL_RUN, DRAY_CTL, DRAY_FREEZE]) (by simp [DRAY_CTL_RUN, DRAY_CTL, DRAY_DBG_STAT])
  unfold boundary
  simp only [hd, hs, Bool.false_and, Bool.false_eq_true, if_false, hr', Bool.not_true]
  exact ⟨by simp, (onlyCore_setCore k s _).trans (onlyCore_wr k _ _ _ (.inr rfl))⟩

/-- The parts of a commit that a plain op leaves alone. -/
theorem linkPlace_plain {o : DrayOp} (hp : ∀ e ∈ o.effs, e.plain = true) (k n : Nat) (s : State) : linkPlace k n [o] s = s := by
  unfold linkPlace
  rw [effFind_plain _ o (by intro e he; have := hp e he; cases e <;> simp_all [Eff.plain])]

theorem branchPlace_plain {o : DrayOp} (hp : ∀ e ∈ o.effs, e.plain = true) (k : Nat) (s : State) : branchPlace k [o] s = s := by
  unfold branchPlace
  rw [effFind_plain _ o (by intro e he; have := hp e he; cases e <;> simp_all [Eff.plain])]

theorem loopPlace_plain {o : DrayOp} (hp : ∀ e ∈ o.effs, e.plain = true) (k n : Nat) (s : State) : loopPlace k n [o] s = s := by
  unfold loopPlace
  rw [effFind_plain _ o (by intro e he; have := hp e he; cases e <;> simp_all [Eff.plain])]

theorem afterBundle_plain {o : DrayOp} (hp : ∀ e ∈ o.effs, e.plain = true) (k : Nat) (w : Option Nat) (s : State) :
    afterBundle k [o] w s = boundary k (watchPlace k w s) := by
  unfold afterBundle
  rw [effFind_plain _ o (by intro e he; have := hp e he; cases e <;> simp_all [Eff.plain])]
  rfl

theorem regionAfter_plain {o : DrayOp} (hp : ∀ e ∈ o.effs, e.plain = true) (c : Core) (h : c.atomLeft = 0) : regionAfter [o] c = c := by
  unfold regionAfter
  rw [effFind_plain _ o (by intro e he; have := hp e he; cases e <;> simp_all [Eff.plain])]
  cases c
  dsimp only at h
  subst h
  rfl

/-- No loop wraps on a core whose counts are 0. -/
theorem loopNext_free {c : Core} (h0 : c.cr 0x10 = 0) (h1 : c.cr 0x13 = 0) (n : Nat) : loopNext n c = (n, c) := by
  unfold loopNext loopTest; simp [h0, h1]

/-- PC moves on where neither a loop nor a delay slot is under way. -/
theorem advancePc_free {k : Nat} {s : State} (h0 : (s.core k).cr 0x10 = 0) (h1 : (s.core k).cr 0x13 = 0) (hl : (s.core k).left = 0)
    (n : Nat) : advancePc k n s = s.setCore k { s.core k with pc := n } := by
  unfold advancePc
  simp only [loopNext_free h0 h1, hl, if_true]

theorem isSet_dbg {k : Nat} {s t : State} (h : OnlyCore k s t) :
    t.isSet (DRAY_DBG_CTL_DBG_EN k) = s.isSet (DRAY_DBG_CTL_DBG_EN k) :=
  h.isSet _ (by simp [DRAY_DBG_CTL_DBG_EN, DRAY_DBG_CTL, DRAY_FREEZE])
    (by simp [DRAY_DBG_CTL_DBG_EN, DRAY_DBG_CTL, DRAY_DBG_STAT])

theorem isSet_run {k : Nat} {s t : State} (h : OnlyCore k s t) : t.isSet (DRAY_CTL_RUN k) = s.isSet (DRAY_CTL_RUN k) :=
  h.isSet _ (by simp [DRAY_CTL_RUN, DRAY_CTL, DRAY_FREEZE]) (by simp [DRAY_CTL_RUN, DRAY_CTL, DRAY_DBG_STAT])

theorem watchPlace_off {k : Nat} {s : State} (h : s.isSet (DRAY_DBG_CTL_DBG_EN k) = false) (w : Option Nat) : watchPlace k w s = s := by
  unfold watchPlace; cases w <;> simp [h]

/-- A bundle of one plain op commits: its effects, PC on to the next bundle, and one tick. -/
theorem commit_plain {k : Nat} {s u : State} {o : DrayOp} (hb : (s.core k).bundle = [o]) (hp : ∀ e ∈ o.effs, e.plain = true)
    (hu : applyAll k [o] (commitStart k o s) = u)
    (ha : (u.core k).atomLeft = 0) (hl : (u.core k).left = 0)
    (h0 : (u.core k).cr 0x10 = 0) (h1 : (u.core k).cr 0x13 = 0)
    (hd : u.isSet (DRAY_DBG_CTL_DBG_EN k) = false) (hr : u.isSet (DRAY_CTL_RUN k) = true)
    (ht : ∀ v : State, v.core k = { u.core k with pc := (s.core k).pc + 4 * (s.core k).words } → OnlyCore k v (coreTick k v))
    (hts : ({ u.core k with pc := (s.core k).pc + 4 * (s.core k).words } : Core).tick.stepping = false) :
    (commit k s).core k = ({ u.core k with pc := (s.core k).pc + 4 * (s.core k).words } : Core).tick ∧ OnlyCore k u (commit k s) := by
  generalize hn : (s.core k).pc + 4 * (s.core k).words = n at *
  have hfold : ∃ w, commit k s = afterBundle k [o] w (coreTick k (loopPlace k n [o] (branchPlace k [o]
      (advancePc k n ((linkPlace k n [o] u).modCore k (regionAfter [o])))))) := by
    unfold commit
    dsimp only
    rw [hb, hn, ← hu]
    exact ⟨_, rfl⟩
  obtain ⟨w, hw⟩ := hfold
  rw [hw, loopPlace_plain hp, branchPlace_plain hp, linkPlace_plain hp, afterBundle_plain hp]
  unfold State.modCore
  rw [regionAfter_plain hp _ ha, advancePc_free (by simpa using h0) (by simpa using h1) (by simpa using hl)]
  rw [State.core_setCore_same]
  generalize hvv : (u.setCore k (u.core k)).setCore k { u.core k with pc := n } = v
  have hv1 : OnlyCore k u v := by
    subst hvv; exact (onlyCore_setCore _ _ _).trans (onlyCore_setCore _ _ _)
  have hvc : v.core k = { u.core k with pc := n } := by subst hvv; simp
  have hv2 := hv1.trans (ht v hvc)
  have hc : (coreTick k v).core k = ({ u.core k with pc := n } : Core).tick := by rw [coreTick_core, hvc]
  have hd' := (isSet_dbg hv2).trans hd
  have hr' := (isSet_run hv2).trans hr
  rw [watchPlace_off hd']
  have hb2 := boundary_free hd' hr' (by rw [hc]; exact hts)
  exact ⟨hb2.1.trans hc, hv2.trans hb2.2⟩

/-! ### Effects on the core alone -/

/-- Stores to the source of a FARST under way, on the core. -/
def Core.dirty (a n : Nat) (c : Core) : Core :=
  { c with tags := c.tags.map (fun e =>
    if e.2.busy && e.2.store && decide (e.2.loc < a + n) && decide (a < e.2.loc + e.2.size) then (e.1, { e.2 with dirty := true })
    else e) }

/-- What an effect does to its core, for an effect that touches nothing else. -/
def Eff.core (slot : Nat) (e : Eff) (c : Core) : Core :=
  match e with
  | .land lat code v mask =>
    { c with flight := c.flight ++
      [{ land := c.cyc + lat, slot := slot, issued := c.cyc, code := code, value := v, mask := mask, qc := false }] }
  | .store cells =>
    let c := cells.foldl (fun c x => c.dirty x.1 1) c
    { c with stores := c.stores ++ [{ vis := c.cyc + 2, cells := cells }] }
  | .mac a v => if slot = 3 then { c with mac1 := some (c.cyc, a, v) } else { c with mac0 := some (c.cyc, a, v) }
  | .settle tags =>
    { c with tags := c.tags.map (fun x => if tags / 2 ^ x.1 % 2 = 1 then (x.1, { x.2 with settled := true }) else x) }
  | .occupy t => { c with vfree := c.cyc + t }
  | .stream v =>
    v.addrs.foldl (fun c a => match a with
      | some a => c.dirty a (v.ew / 8)
      | none => c) (vAdvance c { v with start := c.cyc })
  | .confine b n => if c.confined.contains (b, n) then c else { c with confined := c.confined ++ [(b, n)] }
  | _ => c

/-- An effect that touches its core alone and leaves the flow of bundles alone. -/
def Eff.coreOnly : Eff → Bool
  | .land _ _ _ _ => true
  | .store _ => true
  | .touch _ _ _ _ => true
  | .vread _ _ => true
  | .mac _ _ => true
  | .need _ => true
  | .settle _ => true
  | .occupy _ => true
  | .stream _ => true
  | .confine _ _ => true
  | .freeze _ => true
  | _ => false

theorem Eff.coreOnly_plain {e : Eff} (h : e.coreOnly = true) : e.plain = true := by cases e <;> simp_all [Eff.coreOnly, Eff.plain]

theorem markDirty_core (k a n : Nat) (s : State) : (markDirty k a n s).core k = (s.core k).dirty a n ∧ OnlyCore k s (markDirty k a n s) := by
  unfold markDirty State.modCore
  exact ⟨by rw [State.core_setCore_same]; rfl, onlyCore_setCore _ _ _⟩

theorem foldl_core {α : Type} (k : Nat) (f : State → α → State) (g : Core → α → Core)
    (h : ∀ s x, (f s x).core k = g (s.core k) x ∧ OnlyCore k s (f s x)) (l : List α) (s : State) :
    (l.foldl f s).core k = l.foldl g (s.core k) ∧ OnlyCore k s (l.foldl f s) := by
  induction l generalizing s with
  | nil => exact ⟨rfl, .refl _ _⟩
  | cons x r ih =>
    have := ih (f s x)
    rw [(h s x).1] at this
    exact ⟨this.1, (h s x).2.trans this.2⟩

theorem effApply_core (k slot : Nat) (e : Eff) (he : e.coreOnly = true) (s : State) :
    (effApply k slot e s).core k = e.core slot (s.core k) ∧ OnlyCore k s (effApply k slot e s) := by
  cases e <;> simp only [Eff.coreOnly, Bool.false_eq_true] at he <;> simp only [effApply, Eff.core]
  case land => exact ⟨by simp, onlyCore_setCore _ _ _⟩
  case touch => exact ⟨trivial, .refl _ _⟩
  case vread => exact ⟨trivial, .refl _ _⟩
  case need => exact ⟨trivial, .refl _ _⟩
  case freeze => exact ⟨trivial, .refl _ _⟩
  case settle => exact ⟨by simp, onlyCore_setCore _ _ _⟩
  case occupy => exact ⟨by simp, onlyCore_setCore _ _ _⟩
  case mac => split <;> exact ⟨by simp, onlyCore_setCore _ _ _⟩
  case confine =>
    split
    · exact ⟨rfl, .refl _ _⟩
    · exact ⟨by simp, onlyCore_setCore _ _ _⟩
  case store cells =>
    have := foldl_core k (fun s (x : Nat × Byte) => markDirty k x.1 1 s) (fun c x => c.dirty x.1 1) (fun s x => markDirty_core k x.1 1 s) cells s
    unfold State.modCore
    exact ⟨by rw [State.core_setCore_same, this.1], this.2.trans (onlyCore_setCore _ _ _)⟩
  case stream v =>
    have := foldl_core k (fun s (a : Option Nat) => match a with
      | some a => markDirty k a (v.ew / 8) s
      | none => s) (fun c a => match a with
      | some a => c.dirty a (v.ew / 8)
      | none => c) (fun s x => by cases x with
        | none => exact ⟨rfl, .refl _ _⟩
        | some a => exact markDirty_core k a _ s) v.addrs (s.setCore k (vAdvance (s.core k) { v with start := (s.core k).cyc }))
    rw [State.core_setCore_same] at this
    exact ⟨this.1, (onlyCore_setCore _ _ _).trans this.2⟩

/-- What every core-only effect leaves of the core. -/
structure CoreFlow (c d : Core) : Prop where
  atom : d.atomLeft = c.atomLeft
  left : d.left = c.left
  stepping : d.stepping = c.stepping
  creg : d.creg = c.creg
  cyc : d.cyc = c.cyc

theorem CoreFlow.refl (c : Core) : CoreFlow c c := ⟨rfl, rfl, rfl, rfl, rfl⟩
theorem CoreFlow.trans {a b c : Core} (h : CoreFlow a b) (g : CoreFlow b c) : CoreFlow a c :=
  ⟨g.atom.trans h.atom, g.left.trans h.left, g.stepping.trans h.stepping, g.creg.trans h.creg, g.cyc.trans h.cyc⟩

theorem foldl_flow {α : Type} (g : Core → α → Core) (h : ∀ c x, CoreFlow c (g c x)) (l : List α) (c : Core) : CoreFlow c (l.foldl g c) := by
  induction l generalizing c with
  | nil => exact .refl _
  | cons x r ih => exact (h c x).trans (ih _)

theorem Core.dirty_flow (a n : Nat) (c : Core) : CoreFlow c (c.dirty a n) := ⟨rfl, rfl, rfl, rfl, rfl⟩

theorem vAdvance_flow (c : Core) (v : VStream) : CoreFlow c (vAdvance c v) := ⟨rfl, rfl, rfl, rfl, rfl⟩

theorem Eff.core_flow (slot : Nat) (e : Eff) (c : Core) : CoreFlow c (e.core slot c) := by
  cases e <;> simp only [Eff.core] <;> try exact ⟨rfl, rfl, rfl, rfl, rfl⟩
  case store cells =>
    have h := foldl_flow (fun (c : Core) (x : Nat × Byte) => c.dirty x.1 1) (fun c x => Core.dirty_flow x.1 1 c) cells c
    generalize (cells.foldl (fun (c : Core) (x : Nat × Byte) => c.dirty x.1 1) c) = d at h
    exact ⟨h.atom, h.left, h.stepping, h.creg, h.cyc⟩
  case mac => split <;> exact ⟨rfl, rfl, rfl, rfl, rfl⟩
  case confine => split <;> exact ⟨rfl, rfl, rfl, rfl, rfl⟩
  case stream v =>
    have h := vAdvance_flow c { v with start := c.cyc }
    generalize vAdvance c { v with start := c.cyc } = d at h
    refine h.trans (foldl_flow _ (fun c x => ?_) v.addrs d)
    cases x
    · exact .refl _
    · exact Core.dirty_flow _ _ _

theorem applyAll_one (k : Nat) (o : DrayOp) (h : o.slot < 9) (s : State) :
    applyAll k [o] s = o.effs.foldl (fun s e => effApply k o.slot e s) s := by
  unfold applyAll
  have : (List.range 9).flatMap (fun i => [o].filter (fun o => o.slot = i)) = [o] := by
    obtain ⟨sl, w, a, b, e⟩ := o
    dsimp only at h
    have h9 : List.range 9 = [0, 1, 2, 3, 4, 5, 6, 7, 8] := rfl
    rw [h9]
    interval_cases sl <;> rfl
  rw [this]
  rfl

theorem Eff.foldl_core (k slot : Nat) (l : List Eff) (h : ∀ e ∈ l, e.coreOnly = true) (s : State) :
    (l.foldl (fun s e => effApply k slot e s) s).core k = l.foldl (fun c e => e.core slot c) (s.core k) ∧
    OnlyCore k s (l.foldl (fun s e => effApply k slot e s) s) := by
  induction l generalizing s with
  | nil => exact ⟨rfl, .refl _ _⟩
  | cons e r ih =>
    have h1 := effApply_core k slot e (h e (by simp)) s
    have h2 := ih (fun e he => h e (by simp [he])) (effApply k slot e s)
    rw [h1.1] at h2
    exact ⟨h2.1, h1.2.trans h2.2⟩

/-! ### The tick -/

/-- What a landing leaves of the core. -/
structure CoreKept (c d : Core) : Prop where
  stepping : d.stepping = c.stepping
  stores : d.stores = c.stores
  cyc : d.cyc = c.cyc
  streams : d.streams = c.streams

theorem CoreKept.refl (c : Core) : CoreKept c c := ⟨rfl, rfl, rfl, rfl⟩
theorem CoreKept.trans {a b c : Core} (h : CoreKept a b) (g : CoreKept b c) : CoreKept a c :=
  ⟨g.stepping.trans h.stepping, g.stores.trans h.stores, g.cyc.trans h.cyc, g.streams.trans h.streams⟩

theorem setCr_kept (c : Core) (n : Nat) (v : Word) : CoreKept c (c.setCr n v) := ⟨rfl, rfl, rfl, rfl⟩
theorem flush_kept (c : Core) : CoreKept c c.flush := ⟨rfl, rfl, rfl, rfl⟩

theorem cregLand_kept (n v mask : Nat) (c : Core) : CoreKept c (cregLand n v mask c) := by
  unfold cregLand
  generalize BitVec.ofNat 32 (cregMask n) = m
  generalize BitVec.ofNat 32 (cregW1c n) = w
  extract_lets x y z e f
  have h1 : CoreKept c e := by
    unfold e; split
    · exact ⟨rfl, rfl, rfl, rfl⟩
    · exact setCr_kept _ _ _
  have h2 : CoreKept c f := by
    unfold f; split
    · exact h1.trans ⟨rfl, rfl, rfl, rfl⟩
    · exact h1
  split_ifs
  · exact h1.trans (flush_kept _)
  · exact h2.trans ⟨rfl, rfl, rfl, rfl⟩
  · exact h2
  · exact h1.trans (flush_kept _)
  · exact h1
  · exact h1

theorem regLand_kept (code v mask : Nat) (c : Core) : CoreKept c (regLand code v mask c) := by
  unfold regLand
  by_cases h1 : code < 0x40
  · rw [if_pos h1]; exact ⟨rfl, rfl, rfl, rfl⟩
  rw [if_neg h1]
  by_cases h2 : code < 0x48
  · rw [if_pos h2]; exact ⟨rfl, rfl, rfl, rfl⟩
  rw [if_neg h2]
  by_cases h3 : code = 0x48 ∨ code = 0x70
  · rw [if_pos h3]; exact ⟨rfl, rfl, rfl, rfl⟩
  rw [if_neg h3]
  by_cases h4 : code < 0x50
  · rw [if_pos h4]; exact ⟨rfl, rfl, rfl, rfl⟩
  rw [if_neg h4]
  by_cases h5 : code < 0x70
  · rw [if_pos h5]; exact ⟨rfl, rfl, rfl, rfl⟩
  rw [if_neg h5]
  by_cases h6 : code < 0x78
  · rw [if_pos h6]; exact ⟨rfl, rfl, rfl, rfl⟩
  rw [if_neg h6]
  by_cases h7 : code < 0x100
  · rw [if_pos h7]; exact ⟨rfl, rfl, rfl, rfl⟩
  rw [if_neg h7]
  exact cregLand_kept _ _ _ _

theorem collide_kept (code : Nat) (c : Core) : CoreKept c (collide code c) := by
  unfold collide; exact setCr_kept _ _ _

theorem landAll_kept (l : List Landing) (c : Core) : CoreKept c (landAll l c) := by
  have h1 : ∀ (l : List Landing) (c : Core), CoreKept c (l.foldl (fun c x => regLand x.code x.value x.mask c) c) := by
    intro l
    induction l with
    | nil => intro c; exact .refl _
    | cons x r ih => intro c; exact (regLand_kept _ _ _ _).trans (ih _)
  have h2 : ∀ (l : List Landing) (p : List Nat × Core), CoreKept p.2
      (l.foldl (fun (x : List Nat × Core) (y : Landing) =>
        if y.code < 0x100 && x.1.contains y.code then (x.1, collide y.code x.2) else (y.code :: x.1, x.2)) p).2 := by
    intro l
    induction l with
    | nil => intro p; exact .refl _
    | cons y r ih =>
      intro p
      rw [List.foldl_cons]
      refine CoreKept.trans ?_ (ih _)
      generalize (decide (y.code < 0x100) && p.1.contains y.code) = b
      cases b
      · exact .refl _
      · exact collide_kept _ _
  unfold landAll
  extract_lets a b
  have h : CoreKept c b := (h1 l c).trans (h2 l ([], a))
  generalize b = d at h
  split
  · exact h.trans (setCr_kept _ _ _)
  · exact h

theorem vStreams_stepping (c : Core) : (vStreams c).stepping = c.stepping := by
  unfold vStreams
  have : ∀ (l : List VStream) (c : Core), (l.foldl vAdvance c).stepping = c.stepping := by
    intro l
    induction l with
    | nil => intro c; rfl
    | cons x r ih => intro c; exact (ih _).trans rfl
  exact (this _ _).trans rfl

theorem Core.tick_stepping (c : Core) : c.tick.stepping = c.stepping := by
  unfold Core.tick
  dsimp only
  exact (vStreams_stepping _).trans (landAll_kept _ _).stepping

/-- A core with no store due ticks alone. -/
theorem coreTick_quiet (k : Nat) (s : State) (h : (dueStores ((s.core k).cyc + 1) (s.core k).stores).1 = []) : OnlyCore k s (coreTick k s) := by
  apply coreTick_onlyCore
  rw [(landAll_kept _ _).stores, (landAll_kept _ _).cyc]
  exact h

/-! ### One op -/

/-- The core as the effects of its bundle find it. -/
def Core.started (c : Core) (fr : Nat) : Core :=
  { c with bundle := [], words := 0, frozen := false, icycle := c.icycle + 1, wcycle := c.wcycle + 1 + fr, ieLast := c.ie,
           queue := [c.pc / 64, c.pc / 64 + 1] }

/-- An op of core-only effects, alone in its bundle on a free core. -/
theorem op_core {s : State} {h : OpHead} {cls : SlotClass} {word : Nat} {st : State → Core → Option (Nat × Nat)}
    {plan : Bool → Nat → Core → State → Plan} {l : List Eff} (hf : CoreFree s h.core.val (classWords cls)) (hl : h.last = true)
    (hs : st s (s.core h.core.val) = none)
    (hp : plan (opExecutes h (s.core h.core.val)) cls.first (s.core h.core.val) s = .effects l)
    (hq : ∀ e ∈ l, e.coreOnly = true) (hn : tagsReady (s.core h.core.val) [aloneOp h cls word l] = true) {fr : Nat}
    (hfr : bundleFreeze (s.core h.core.val) [aloneOp h cls word l] = fr) {d : Core}
    (hd : l.foldl (fun c e => e.core cls.first c) ((s.core h.core.val).started fr) = d)
    (hst : (dueStores (d.cyc + 1) d.stores).1 = []) :
    CoreDone (.next (drayOp h cls word st plan s)) s h.core.val
      ({ d with pc := (s.core h.core.val).pc + 4 * classWords cls } : Core).tick := by
  have key := drayOp_free (word := word) hf hl hs hp
  refine ⟨_, rfl, ?_⟩
  rw [key]
  clear key
  generalize hk : h.core.val = k at *
  generalize hv : s.setCore k { s.core k with bundle := [aloneOp h cls word l], words := classWords cls } = v
  have hvc : v.core k = { s.core k with bundle := [aloneOp h cls word l], words := classWords cls } := by subst hv; simp
  have hvo : OnlyCore k s v := by subst hv; exact onlyCore_setCore _ _ _
  have hissue : issue k v = commit k v := by
    unfold issue
    have : tagsReady (v.core k) (v.core k).bundle = true := by rw [hvc]; exact hn
    simp only [this, if_true]
  rw [hissue]
  have hslot : (aloneOp h cls word l).slot < 9 := by cases cls <;> (simp only [aloneOp]; decide)
  have hfz : ∀ (c : Core), (if h.frz = 0 then ([] : List Eff) else [.freeze h.frz]).foldl (fun c e => e.core cls.first c) c = c := by
    intro c; split <;> rfl
  have hqa : ∀ e ∈ (aloneOp h cls word l).effs, e.coreOnly = true := by
    intro e he
    simp only [aloneOp, List.mem_append] at he
    rcases he with he | he
    · exact hq e he
    · split at he
      · simp at he
      · simp only [List.mem_singleton] at he; subst he; rfl
  have hsc : (commitStart k (aloneOp h cls word l) v).core k = (s.core k).started fr := by
    unfold commitStart
    rw [State.core_cntSat, State.core_setCore_same, hvc]
    have : bundleFreeze (s.core k) [aloneOp h cls word l] = fr := hfr
    unfold Core.started
    simp only [← this]
    rfl
  have happ := Eff.foldl_core k cls.first (aloneOp h cls word l).effs hqa (commitStart k (aloneOp h cls word l) v)
  rw [hsc] at happ
  have hd2 : (aloneOp h cls word l).effs.foldl (fun c e => e.core cls.first c) ((s.core k).started fr) = d := by
    simp only [aloneOp, List.foldl_append, hd, hfz]
  rw [hd2] at happ
  generalize hu : (aloneOp h cls word l).effs.foldl (fun s e => effApply k cls.first e s) (commitStart k (aloneOp h cls word l) v) = u at happ
  have huo : OnlyCore k s u := hvo.trans ((commitStart_only _ _ _).trans happ.2)
  have hflow : CoreFlow (s.core k) d := by
    rw [← hd]
    have h1 : CoreFlow (s.core k) ((s.core k).started fr) := ⟨rfl, rfl, rfl, rfl, rfl⟩
    exact h1.trans (foldl_flow (fun c e => Eff.core cls.first e c) (fun c e => Eff.core_flow _ _ _) l _)
  have hcr : ∀ n, d.cr n = (s.core k).cr n := fun n => by unfold Core.cr; rw [hflow.creg]
  have hcm := commit_plain (k := k) (s := v) (u := u) (o := aloneOp h cls word l) (by rw [hvc]) (fun e he => Eff.coreOnly_plain (hqa e he))
    ((applyAll_one k _ hslot _).trans hu)
    (by rw [happ.1, hflow.atom, hf.region]) (by rw [happ.1, hflow.left, hf.slots])
    (by rw [happ.1, hcr, hf.loop0]) (by rw [happ.1, hcr, hf.loop1])
    ((isSet_dbg huo).trans hf.debug) ((isSet_run huo).trans hf.run)
    (by
      intro w hw
      apply coreTick_quiet
      rw [hw, happ.1]
      exact hst)
    (by rw [Core.tick_stepping, happ.1]; exact hflow.stepping.trans hf.stepping)
  rw [happ.1, hvc] at hcm
  exact ⟨hcm.1, huo.trans hcm.2⟩

/-! ### Ticks of one op's results -/

theorem dueStores_none {n : Nat} {l : List LmStore} (h : (dueStores n l).1 = []) (hne : ∀ x ∈ l, n < x.vis) : dueStores n l = ([], l) := by
  cases l with
  | nil => rfl
  | cons x r =>
    unfold dueStores
    rw [if_neg (by have := hne x (by simp); omega)]

/-- A tick in which the results of `a` land and those of `b` do not, with no store due and no stream under way. -/
theorem Core.tick_split {d : Core} (a b a' : List Landing) (hf : d.flight = b ++ a) (hb : ∀ x ∈ b, d.cyc + 1 < x.land)
    (ha : ∀ x ∈ a, x.land = d.cyc + 1) (ho : a.foldl (fun l x => landInsert x l) [] = a') (hs : ∀ x ∈ d.stores, d.cyc + 1 < x.vis)
    (hv : d.streams = []) :
    d.tick = { landAll a' { d with cyc := d.cyc + 1, flight := b } with vbanks := [] } := by
  have e1 : d.flight.filter (fun x => x.land ≤ d.cyc + 1) = a := by
    rw [hf, List.filter_append, List.filter_eq_nil_iff.mpr (by intro x hx; have := hb x hx; simp; omega),
      List.filter_eq_self.mpr (by intro x hx; have := ha x hx; simp; omega), List.nil_append]
  have e2 : d.flight.filter (fun x => d.cyc + 1 < x.land) = b := by
    rw [hf, List.filter_append, List.filter_eq_self.mpr (by intro x hx; have := hb x hx; simp; omega),
      List.filter_eq_nil_iff.mpr (by intro x hx; have := ha x hx; simp; omega), List.append_nil]
  unfold Core.tick
  dsimp only
  rw [e1, e2, ho]
  have hk := landAll_kept a' { d with cyc := d.cyc + 1, flight := b }
  generalize hL : landAll a' { d with cyc := d.cyc + 1, flight := b } = L at hk
  have h1 : L.stores = d.stores := hk.stores
  have h2 : L.cyc = d.cyc + 1 := hk.cyc
  have h3 : L.streams = [] := hk.streams.trans hv
  have h4 : dueStores L.cyc L.stores = ([], L.stores) := by
    rw [h1, h2]
    cases hl : d.stores with
    | nil => rfl
    | cons x r =>
      unfold dueStores
      rw [if_neg (by have := hs x (by rw [hl]; simp); omega)]
  rw [h4]
  have h5 : vStreams { L with stores := L.stores } = L := by
    unfold vStreams
    cases L
    dsimp only at h3
    subst h3
    rfl
  simp only [h5, List.drop_length, List.flatMap_nil]

/-- One result lands. -/
theorem landAll_one {x : Landing} (h : x.qc = false) (c : Core) : landAll [x] c = regLand x.code x.value x.mask c := by
  unfold landAll
  simp [h]

/-- Two results land in two registers. -/
theorem landAll_two {x y : Landing} (hx : x.qc = false) (hy : y.qc = false) (hne : x.code ≠ y.code) (c : Core) :
    landAll [x, y] c = regLand y.code y.value y.mask (regLand x.code x.value x.mask c) := by
  unfold landAll
  simp [hx, hy, Ne.symm hne]

theorem landAll_nil (c : Core) : landAll [] c = c := rfl

theorem regLand_s {n : Nat} (h : n < 0x40) (v m : Nat) (c : Core) :
    regLand n v m c = { c with sreg := tblSet 0 n (BitVec.ofNat 32 v) c.sreg } := by unfold regLand; rw [if_pos h]

theorem regLand_a {n : Nat} (h : n < 8) (v m : Nat) (c : Core) :
    regLand (0x40 + n) v m c = { c with acc := tblSet 0 n (BitVec.ofNat 80 v) c.acc } := by
  unfold regLand
  rw [if_neg (by omega), if_pos (by omega), Nat.add_sub_cancel_left]

theorem regLand_p {n : Nat} (h0 : n ≠ 0) (h : n < 8) (v m : Nat) (c : Core) :
    regLand (0x48 + n) v m c = { c with preg := tblSet false n (decide (v % 2 = 1)) c.preg } := by
  unfold regLand
  rw [if_neg (by omega), if_neg (by omega), if_neg (by omega), if_pos (by omega), Nat.add_sub_cancel_left]

theorem regLand_g {n : Nat} (h : n < 16) (v m : Nat) (c : Core) :
    regLand (0x80 + n) v m c = { c with seg := tblSet 0 n (BitVec.ofNat 128 v) c.seg } := by
  unfold regLand
  rw [if_neg (by omega), if_neg (by omega), if_neg (by omega), if_neg (by omega), if_neg (by omega), if_neg (by omega), if_pos (by omega),
    Nat.add_sub_cancel_left]

theorem foldl_same {α β : Type} (f : α → β → α) (l : List β) (h : ∀ e ∈ l, ∀ m, f m e = m) (m : α) : l.foldl f m = m := by
  induction l generalizing m with
  | nil => rfl
  | cons e r ih => rw [List.foldl_cons, h e (by simp)]; exact ih (fun e he => h e (by simp [he])) m

theorem tagsReady_free {c : Core} {l : List DrayOp} (h : ∀ o ∈ l, ∀ e ∈ o.effs, ∀ t, e ≠ .need t) : tagsReady c l = true := by
  unfold tagsReady
  dsimp only
  rw [foldl_same _ l (by
    intro o ho m
    apply foldl_same
    intro e he m
    have hne := h o ho e he
    cases e <;> (first | exact absurd rfl (hne _) | rfl))]
  simp

/-- The freeze of an op that touches no bank: the wall cycles its head gives. -/
theorem bundleFreeze_free {c : Core} {h : OpHead} {cls : SlotClass} {word : Nat} {l : List Eff}
    (hn : ∀ e ∈ l, (∀ a b d f, e ≠ .touch a b d f) ∧ (∀ a b, e ≠ .vread a b) ∧ (∀ f, e ≠ .freeze f)) :
    bundleFreeze c [aloneOp h cls word l] = h.frz := by
  have hb : portBanks [aloneOp h cls word l] = [] := by
    unfold portBanks
    simp only [List.flatMap_cons, List.flatMap_nil, List.append_nil, aloneOp]
    rw [List.filterMap_eq_nil_iff]
    intro e he
    rw [List.mem_append] at he
    rcases he with he | he
    · have := hn e he
      cases e <;> first | rfl | exact absurd rfl (this.1 _ _ _ _)
    · split at he
      · simp at he
      · simp only [List.mem_singleton] at he; subst he; rfl
  unfold bundleFreeze
  rw [hb]
  dsimp only [List.foldl_cons, List.foldl_nil, aloneOp]
  rw [List.foldl_append, foldl_same _ l (by
    intro e he m
    have := hn e he
    cases e <;> (first | exact absurd rfl (this.2.1 _ _) | exact absurd rfl (this.2.2 _) | rfl))]
  by_cases h0 : h.frz = 0
  · simp [h0]
  · simp [h0]

theorem ite_vbanks (p : Prop) [Decidable p] (a b : Core) (l : List Nat) :
    ({ (if p then a else b) with vbanks := l } : Core) = if p then { a with vbanks := l } else { b with vbanks := l } := by split <;> rfl

theorem cregLand_vbanks (n v m : Nat) (c : Core) (l : List Nat) :
    ({ cregLand n v m c with vbanks := l } : Core) = cregLand n v m { c with vbanks := l } := by
  unfold cregLand
  generalize BitVec.ofNat 32 (cregMask n) = a
  generalize BitVec.ofNat 32 (cregW1c n) = b
  by_cases h0 : n = 0
  · subst h0; rfl
  by_cases h1 : n = 1
  · subst h1; rfl
  by_cases h6 : n = 6
  · subst h6
    by_cases h5 : fldGet 5 5 (BitVec.ofNat 32 v) = 1 <;> by_cases h4 : fldGet 4 4 (BitVec.ofNat 32 v) = 1 <;> simp [h4, h5, Core.setCr, Core.cr]
  by_cases h7 : n = 7
  · subst h7
    by_cases h4 : fldGet 1 1 (BitVec.ofNat 32 v) = 1 <;> simp [h4, Core.setCr, Core.cr, Core.flush]
  simp only [h0, h1, h6, h7, if_false]
  rfl

theorem regLand_vbanks (code v m : Nat) (c : Core) (l : List Nat) :
    ({ regLand code v m c with vbanks := l } : Core) = regLand code v m { c with vbanks := l } := by
  unfold regLand
  rw [ite_vbanks, ite_vbanks, ite_vbanks, ite_vbanks, ite_vbanks, ite_vbanks, ite_vbanks, cregLand_vbanks]

/-- The core of `CoreFree` once its bundle has issued and nothing is in flight. -/
theorem Core.issued_of {s : State} {k w : Nat} (hf : CoreFree s k w) (fr : Nat) :
    ({ (s.core k).started fr with cyc := (s.core k).cyc + 1, flight := [], pc := (s.core k).pc + 4 * w, vbanks := [] } : Core)
      = (s.core k).issued w fr := by
  have h := hf.flight
  generalize s.core k = c at *
  cases c
  dsimp only at h
  subst h
  rfl

/-! ### Ops that only read registers -/

/-- An op whose guard holds executes on a free core. -/
theorem opExecutes_free {s : State} {h : OpHead} {w : Nat} (hf : CoreFree s h.core.val w) (hg : opHolds h (s.core h.core.val)) :
  opExecutes h (s.core h.core.val) = true := by
    unfold opExecutes; unfold opHolds at hg; rw [hg, hf.slots]; rfl

/-- An op whose effects are results under way and accumulator chains. -/
theorem plainOp_free {s : State} {h : OpHead} {cls : SlotClass} {word : Nat} {effs : Nat → Core → List Eff} {l : List Eff}
    (hf : CoreFree s h.core.val (classWords cls)) (hl : h.last = true) (hg : opHolds h (s.core h.core.val))
    (he : effs cls.first (s.core h.core.val) = l)
    (hq : ∀ e ∈ l, (∃ a b c d, e = .land a b c d) ∨ (∃ a b, e = .mac a b)) {c' : Core}
    (hc : ({ l.foldl (fun c e => e.core cls.first c) ((s.core h.core.val).started h.frz) with pc := (s.core h.core.val).pc + 4 * classWords cls } : Core).tick = c') :
    CoreDone (plainOp h cls word false effs s) s h.core.val c' := by
  subst hc
  have hst : ∀ (l : List Eff) (c : Core), (∀ e ∈ l, (∃ a b c d, e = .land a b c d) ∨ (∃ a b, e = .mac a b)) → (l.foldl (fun c e => e.core cls.first c) c).stores = c.stores := by
    intro l
    induction l with
    | nil => intro c _; rfl
    | cons e r ih => intro c h; rw [List.foldl_cons, ih _ (fun e he => h e (by simp [he]))]
                     rcases h e (by simp) with ⟨a, b, x, d, rfl⟩ | ⟨a, b, rfl⟩
                     · rfl
                     · simp only [Eff.core]; split <;> rfl
  have := op_core (s := s) (h := h) (cls := cls) (word := word) (st := fun _ _ => if false then some (0, word) else none)
    (plan := fun ex slot c _ => .effects (if ex then effs slot c else [])) (l := l) hf hl rfl
    (by rw [opExecutes_free hf hg, if_pos rfl, he]) (by intro e he; rcases hq e he with ⟨a, b, c, d, rfl⟩ | ⟨a, b, rfl⟩ <;> rfl)
    (by apply tagsReady_free; intro o ho e he
        simp only [List.mem_singleton] at ho; subst ho; simp only [aloneOp, List.mem_append] at he; rcases he with he | he
        · rcases hq e he with ⟨a, b, c, d, rfl⟩ | ⟨a, b, rfl⟩ <;> simp
        · intro t; rintro rfl; split at he <;> simp at he)
    (bundleFreeze_free (by intro e he; rcases hq e he with ⟨a, b, c, d, rfl⟩ | ⟨a, b, rfl⟩ <;> simp)) rfl
    (by rw [hst l _ hq]; simp [Core.started, hf.stores, dueStores])
  unfold plainOp
  exact this

/-- One result of latency 1. -/
theorem plainOp_one {s : State} {h : OpHead} {cls : SlotClass} {word : Nat} {effs : Nat → Core → List Eff} {code v : Nat}
    (hf : CoreFree s h.core.val (classWords cls)) (hl : h.last = true) (hg : opHolds h (s.core h.core.val))
    (he : effs cls.first (s.core h.core.val) = [.land 1 code v 0]) :
    CoreDone (plainOp h cls word false effs s) s h.core.val
      (regLand code v 0 ((s.core h.core.val).issued (classWords cls) h.frz)) := by
  refine plainOp_free hf hl hg he (by simp) ?_
  rw [Core.tick_split [{ land := (s.core h.core.val).cyc + 1, slot := cls.first, issued := (s.core h.core.val).cyc, code := code, value := v, mask := 0, qc := false }] [] _ (by simp [Eff.core, Core.started, hf.flight]) (by simp) (by simp [Eff.core, Core.started]) rfl (by simp [Eff.core, Core.started, hf.stores]) (by simp [Eff.core, Core.started, hf.streams])]
  simp only [List.foldl_cons, List.foldl_nil, landInsert]
  rw [landAll_one rfl, regLand_vbanks]
  rw [← Core.issued_of hf]
  rfl

/-- Two results of latency 1, in two registers. -/
theorem plainOp_two {s : State} {h : OpHead} {cls : SlotClass} {word : Nat} {effs : Nat → Core → List Eff} {c1 v1 c2 v2 : Nat}
    (hf : CoreFree s h.core.val (classWords cls)) (hl : h.last = true) (hg : opHolds h (s.core h.core.val))
    (he : effs cls.first (s.core h.core.val) = [.land 1 c1 v1 0, .land 1 c2 v2 0]) (hne : c1 ≠ c2) :
    CoreDone (plainOp h cls word false effs s) s h.core.val
      (regLand c2 v2 0 (regLand c1 v1 0 ((s.core h.core.val).issued (classWords cls) h.frz))) := by
  refine plainOp_free hf hl hg he (by simp) ?_
  rw [Core.tick_split [{ land := (s.core h.core.val).cyc + 1, slot := cls.first, issued := (s.core h.core.val).cyc, code := c1, value := v1, mask := 0, qc := false }, { land := (s.core h.core.val).cyc + 1, slot := cls.first, issued := (s.core h.core.val).cyc, code := c2, value := v2, mask := 0, qc := false }] [] _ (by simp [Eff.core, Core.started, hf.flight]) (by simp) (by simp [Eff.core, Core.started]) rfl (by simp [Eff.core, Core.started, hf.stores]) (by simp [Eff.core, Core.started, hf.streams])]
  simp only [List.foldl_cons, List.foldl_nil, landInsert, lt_irrefl, and_false, or_false, if_false]
  rw [landAll_two rfl rfl hne, regLand_vbanks, regLand_vbanks]
  rw [← Core.issued_of hf]
  rfl

/-- Results of a latency of 2 or more. -/
theorem plainOp_late {s : State} {h : OpHead} {cls : SlotClass} {word : Nat} {effs : Nat → Core → List Eff} {l : List (Nat × Nat × Nat)} {lat : Nat}
    (hf : CoreFree s h.core.val (classWords cls)) (hl : h.last = true) (hg : opHolds h (s.core h.core.val)) (h2 : 2 ≤ lat)
    (he : effs cls.first (s.core h.core.val) = l.map (fun x => .land lat x.1 x.2.1 x.2.2)) :
    CoreDone (plainOp h cls word false effs s) s h.core.val
      (l.foldl (fun d x => d.underWay (s.core h.core.val) lat cls.first x.1 x.2.1 x.2.2) ((s.core h.core.val).issued (classWords cls) h.frz)) := by
  refine plainOp_free hf hl hg he (by intro e he; simp at he; rcases he with ⟨a, b, c, _, rfl⟩; simp) ?_
  have key : ∀ (l : List (Nat × Nat × Nat)) (c : Core), (l.map (fun x => Eff.land lat x.1 x.2.1 x.2.2)).foldl (fun c e => e.core cls.first c) c
     = { c with flight := c.flight ++ l.map (fun x => { land := c.cyc + lat, slot := cls.first, issued := c.cyc, code := x.1, value := x.2.1, mask := x.2.2, qc := false }) } := by
    intro l
    induction l with
    | nil => intro c; simp
    | cons x r ih => intro c; rw [List.map_cons, List.foldl_cons, ih]; simp [Eff.core]
  have key2 : ∀ (l : List (Nat × Nat × Nat)) (c d : Core), l.foldl (fun d x => d.underWay c lat cls.first x.1 x.2.1 x.2.2) d
     = { d with flight := d.flight ++ l.map (fun x => { land := c.cyc + lat, slot := cls.first, issued := c.cyc, code := x.1, value := x.2.1, mask := x.2.2, qc := false }) } := by
    intro l
    induction l with
    | nil => intro c d; simp
    | cons x r ih => intro c d; rw [List.foldl_cons, ih]; simp [Core.underWay]
  rw [key, key2]
  rw [Core.tick_split [] (l.map (fun x => { land := (s.core h.core.val).cyc + lat, slot := cls.first, issued := (s.core h.core.val).cyc, code := x.1, value := x.2.1, mask := x.2.2, qc := false })) [] (by simp [Core.started, hf.flight]) (by intro x hx; simp at hx; rcases hx with ⟨a, b, c, _, rfl⟩; simp [Core.started]; omega) (by simp) rfl (by simp [Core.started, hf.stores]) (by simp [Core.started, hf.streams])]
  rw [landAll_nil, ← Core.issued_of hf]
  rfl

theorem ofNat_toNat32 (v : Word) : BitVec.ofNat 32 v.toNat = v := by simp

end Sys2Proof.Machine
end

