-- ==== Sys2Proof/Laws/Exec.lean ====
section
/-!
SUPPORT. What exec does with each command: the meaning its arm calls, so that no proof unfolds the dispatch.
-/

namespace Sys2Proof.Machine

theorem exec_csrWrite {r o v hm hv loftOk} (s : State) : exec (.csrWrite r o v hm hv loftOk) s = execCsrWrite r o v hm hv loftOk s := rfl
theorem exec_pairLoRead {r o} (s : State) : exec (.pairLoRead r o) s = execPairLoRead r o s := rfl
theorem exec_pairLoWrite {r o v} (s : State) : exec (.pairLoWrite r o v) s = execPairLoWrite r o v s := rfl
theorem exec_pairHiWrite {r o v hm hv} (s : State) : exec (.pairHiWrite r o v hm hv) s = execPairHiWrite r o v hm hv s := rfl
theorem exec_pairAccess64 {r o write hm hv} (s : State) : exec (.pairAccess64 r o write hm hv) s = execPairAccess64 r o write hm hv s := rfl
theorem exec_debugPeek {o} (s : State) : exec (.debugPeek o) s = execDebugPeek o s := rfl
theorem exec_sourceBeatBoundary {background b} (s : State) : exec (.sourceBeatBoundary background b) s = execSourceBeatBoundary background b s := rfl
theorem exec_beatWindowClose (s : State) : exec .beatWindowClose s = execBeatWindowClose s := rfl
theorem exec_ownBeatBoundary (s : State) : exec .ownBeatBoundary s = execOwnBeatBoundary s := rfl
theorem exec_sourceChangeover {b} (s : State) : exec (.sourceChangeover b) s = execSourceChangeover b s := rfl
theorem exec_holdoverExpiry (s : State) : exec .holdoverExpiry s = execHoldoverExpiry s := rfl
theorem exec_freqEstimateValid (s : State) : exec .freqEstimateValid s = execFreqEstimateValid s := rfl
theorem exec_posConfig {m loftOk} (s : State) : exec (.posConfig m loftOk) s = execPosConfig m loftOk s := rfl
theorem exec_posSetBeat {m} (s : State) : exec (.posSetBeat m) s = execPosSetBeat m s := rfl
theorem exec_posFreqOffset {m} (s : State) : exec (.posFreqOffset m) s = execPosFreqOffset m s := rfl
theorem exec_posPhaseStep {m} (s : State) : exec (.posPhaseStep m) s = execPosPhaseStep m s := rfl
theorem exec_posGet {m} (s : State) : exec (.posGet m) s = execPosGet m s := rfl
theorem exec_portGroupConfig {m loftOk} (s : State) : exec (.portGroupConfig m loftOk) s = execPortGroupConfig m loftOk s := rfl
theorem exec_portConfig {m loftOk} (s : State) : exec (.portConfig m loftOk) s = execPortConfig m loftOk s := rfl
theorem exec_portLos {k cut} (s : State) : exec (.portLos k cut) s = execPortLos k cut s := rfl
theorem exec_portLockLost {k cut} (s : State) : exec (.portLockLost k cut) s = execPortLockLost k cut s := rfl
theorem exec_portEnterAcquire {k} (s : State) : exec (.portEnterAcquire k) s = execPortEnterAcquire k s := rfl
theorem exec_anComplete {k} (s : State) : exec (.anComplete k) s = execAnComplete k s := rfl
theorem exec_portLockGained {k} (s : State) : exec (.portLockGained k) s = execPortLockGained k s := rfl
theorem exec_portUpHoldExpiry {k} (s : State) : exec (.portUpHoldExpiry k) s = execPortUpHoldExpiry k s := rfl
theorem exec_portLockRetryExpiry {k} (s : State) : exec (.portLockRetryExpiry k) s = execPortLockRetryExpiry k s := rfl
theorem exec_portHiber {k on} (s : State) : exec (.portHiber k on) s = execPortHiber k on s := rfl
theorem exec_portSd {k on} (s : State) : exec (.portSd k on) s = execPortSd k on s := rfl
theorem exec_portAisRx {k on} (s : State) : exec (.portAisRx k on) s = execPortAisRx k on s := rfl
theorem exec_portRemote {k on} (s : State) : exec (.portRemote k on) s = execPortRemote k on s := rfl
theorem exec_portRefclk {ref present} (s : State) : exec (.portRefclk ref present) s = execPortRefclk ref present s := rfl
theorem exec_partnerReturn {k} (s : State) : exec (.partnerReturn k) s = execPartnerReturn k s := rfl
theorem exec_plainFrameRx {k bytes} (s : State) : exec (.plainFrameRx k bytes) s = execPlainFrameRx k bytes s := rfl
theorem exec_gateRun {g} (s : State) : exec (.gateRun g) s = execGateRun g s := rfl
theorem exec_cbHistoryReset {n} (s : State) : exec (.cbHistoryReset n) s = execCbHistoryReset n s := rfl
theorem exec_chOpen {m loftOk} (s : State) : exec (.chOpen m loftOk) s = execChOpen m loftOk s := rfl
theorem exec_chClose {m loftOk} (s : State) : exec (.chClose m loftOk) s = execChClose m loftOk s := rfl
theorem exec_chModify {m loftOk} (s : State) : exec (.chModify m loftOk) s = execChModify m loftOk s := rfl
theorem exec_chGet {m} (s : State) : exec (.chGet m) s = execChGet m s := rfl
theorem exec_gateLoad {m loftOk} (s : State) : exec (.gateLoad m loftOk) s = execGateLoad m loftOk s := rfl
theorem exec_gateTable {m loftOk} (s : State) : exec (.gateTable m loftOk) s = execGateTable m loftOk s := rfl
theorem exec_gateSwitch {m loftOk} (s : State) : exec (.gateSwitch m loftOk) s = execGateSwitch m loftOk s := rfl
theorem exec_puntQueue {m loftOk} (s : State) : exec (.puntQueue m loftOk) s = execPuntQueue m loftOk s := rfl
theorem exec_frameSend {m} (s : State) : exec (.frameSend m) s = execFrameSend m s := rfl
theorem exec_cellCalendar {m loftOk} (s : State) : exec (.cellCalendar m loftOk) s = execCellCalendar m loftOk s := rfl
theorem exec_chCustomer {m loftOk} (s : State) : exec (.chCustomer m loftOk) s = execChCustomer m loftOk s := rfl
theorem exec_changeBeatApply (s : State) : exec .changeBeatApply s = execChangeBeatApply s := rfl
theorem exec_closingDrained {n} (s : State) : exec (.closingDrained n) s = execClosingDrained n s := rfl
theorem exec_closingTimeout {n} (s : State) : exec (.closingTimeout n) s = execClosingTimeout n s := rfl
theorem exec_railBlockCompute {ix fault} (s : State) : exec (.railBlockCompute ix fault) s = execRailBlockCompute ix fault s := rfl
theorem exec_cipherTxStart {c} (s : State) : exec (.cipherTxStart c) s = execCipherTxStart c s := rfl
theorem exec_unitEgressDone {c} (s : State) : exec (.unitEgressDone c) s = execUnitEgressDone c s := rfl
theorem exec_inboundUnitRx (s : State) : exec .inboundUnitRx s = execInboundUnitRx s := rfl
theorem exec_prevKeyRelease {n inbound} (s : State) : exec (.prevKeyRelease n inbound) s = execPrevKeyRelease n inbound s := rfl
theorem exec_slotAssemblyClose {c fault cut} (s : State) : exec (.slotAssemblyClose c fault cut) s = execSlotAssemblyClose c fault cut s := rfl
theorem exec_calendarSwitch {c} (s : State) : exec (.calendarSwitch c) s = execCalendarSwitch c s := rfl
theorem exec_cellWrapHold {n} (s : State) : exec (.cellWrapHold n) s = execCellWrapHold n s := rfl
theorem exec_cellHeaderRx {c cell} (s : State) : exec (.cellHeaderRx c cell) s = execCellHeaderRx c cell s := rfl
theorem exec_l1PlainFrameRx {n mfas opu payload fault} (s : State) : exec (.l1PlainFrameRx n mfas opu payload fault) s = execL1PlainFrameRx n mfas opu payload fault s := rfl
theorem exec_l1CipherFrameRx {n path2 mfas oh opu payload} (s : State) : exec (.l1CipherFrameRx n path2 mfas oh opu payload) s = execL1CipherFrameRx n path2 mfas oh opu payload s := rfl
theorem exec_l1InputLost {n} (s : State) : exec (.l1InputLost n) s = execL1InputLost n s := rfl
theorem exec_l1InputReturn {n} (s : State) : exec (.l1InputReturn n) s = execL1InputReturn n s := rfl
theorem exec_l1EfnWrapHold {n} (s : State) : exec (.l1EfnWrapHold n) s = execL1EfnWrapHold n s := rfl
theorem exec_depositCommit {r j v} (s : State) : exec (.depositCommit r j v) s = execDepositCommit r j v s := rfl
theorem exec_keySlotLoad {j ecc} (s : State) : exec (.keySlotLoad j ecc) s = execKeySlotLoad j ecc s := rfl
theorem exec_zeroNAssert (s : State) : exec .zeroNAssert s = execZeroNAssert s := rfl
theorem exec_zeroiseVaultDone (s : State) : exec .zeroiseVaultDone s = execZeroiseVaultDone s := rfl
theorem exec_loftKeyEraseDone (s : State) : exec .loftKeyEraseDone s = execLoftKeyEraseDone s := rfl
theorem exec_zeroNRelease (s : State) : exec .zeroNRelease s = execZeroNRelease s := rfl
theorem exec_bridleSessionSetup {n} (s : State) : exec (.bridleSessionSetup n) s = execBridleSessionSetup n s := rfl
theorem exec_helloResend {n} (s : State) : exec (.helloResend n) s = execHelloResend n s := rfl
theorem exec_bridleSidRollover {n} (s : State) : exec (.bridleSidRollover n) s = execBridleSidRollover n s := rfl
theorem exec_bridleHelloRx (s : State) : exec .bridleHelloRx s = execBridleHelloRx s := rfl
theorem exec_bridlePositionRx (s : State) : exec .bridlePositionRx s = execBridlePositionRx s := rfl
theorem exec_bridleProbeRx {turn} (s : State) : exec (.bridleProbeRx turn) s = execBridleProbeRx turn s := rfl
theorem exec_bridleEchoRx {r} (s : State) : exec (.bridleEchoRx r) s = execBridleEchoRx r s := rfl
theorem exec_bridleKemOfferRx (s : State) : exec .bridleKemOfferRx s = execBridleKemOfferRx s := rfl
theorem exec_bridleKemAcceptRx (s : State) : exec .bridleKemAcceptRx s = execBridleKemAcceptRx s := rfl
theorem exec_bridleKeyConfirmRx (s : State) : exec .bridleKeyConfirmRx s = execBridleKeyConfirmRx s := rfl
theorem exec_bridleSwitchAtRx {turn} (s : State) : exec (.bridleSwitchAtRx turn) s = execBridleSwitchAtRx turn s := rfl
theorem exec_bridleSwitchAckRx {r} (s : State) : exec (.bridleSwitchAckRx r) s = execBridleSwitchAckRx r s := rfl
theorem exec_bridleSwitchCancelRx (s : State) : exec .bridleSwitchCancelRx s = execBridleSwitchCancelRx s := rfl
theorem exec_bridleHeartbeatRx (s : State) : exec .bridleHeartbeatRx s = execBridleHeartbeatRx s := rfl
theorem exec_bridleDigestRx (s : State) : exec .bridleDigestRx s = execBridleDigestRx s := rfl
theorem exec_bridleAlarmRx (s : State) : exec .bridleAlarmRx s = execBridleAlarmRx s := rfl
theorem exec_kemOfferSend {n} (s : State) : exec (.kemOfferSend n) s = execKemOfferSend n s := rfl
theorem exec_kemRetryTimeout {n} (s : State) : exec (.kemRetryTimeout n) s = execKemRetryTimeout n s := rfl
theorem exec_switchAtSend {n} (s : State) : exec (.switchAtSend n) s = execSwitchAtSend n s := rfl
theorem exec_cancelPoint {n} (s : State) : exec (.cancelPoint n) s = execCancelPoint n s := rfl
theorem exec_bridleHeartbeatSend {n} (s : State) : exec (.bridleHeartbeatSend n) s = execBridleHeartbeatSend n s := rfl
theorem exec_bridleProbeSend {n} (s : State) : exec (.bridleProbeSend n) s = execBridleProbeSend n s := rfl
theorem exec_bridlePositionSend {n} (s : State) : exec (.bridlePositionSend n) s = execBridlePositionSend n s := rfl
theorem exec_bridleDigestSend {n} (s : State) : exec (.bridleDigestSend n) s = execBridleDigestSend n s := rfl
theorem exec_bridleAnswerTimeout {n} (s : State) : exec (.bridleAnswerTimeout n) s = execBridleAnswerTimeout n s := rfl
theorem exec_bridleSuspectClear {n} (s : State) : exec (.bridleSuspectClear n) s = execBridleSuspectClear n s := rfl
theorem exec_bridleHbLoss {n} (s : State) : exec (.bridleHbLoss n) s = execBridleHbLoss n s := rfl
theorem exec_bridleConfig {m loftOk} (s : State) : exec (.bridleConfig m loftOk) s = execBridleConfig m loftOk s := rfl
theorem exec_bridleSend {m} (s : State) : exec (.bridleSend m) s = execBridleSend m s := rfl
theorem exec_twinBind {m loftOk} (s : State) : exec (.twinBind m loftOk) s = execTwinBind m loftOk s := rfl
theorem exec_twinBound {r arb} (s : State) : exec (.twinBound r arb) s = execTwinBound r arb s := rfl
theorem exec_twinBindFail {r arb} (s : State) : exec (.twinBindFail r arb) s = execTwinBindFail r arb s := rfl
theorem exec_twinBeatSend (s : State) : exec .twinBeatSend s = execTwinBeatSend s := rfl
theorem exec_twinAssignRx (s : State) : exec .twinAssignRx s = execTwinAssignRx s := rfl
theorem exec_twinBeatRx (s : State) : exec .twinBeatRx s = execTwinBeatRx s := rfl
theorem exec_twinDigestDone {n b} (s : State) : exec (.twinDigestDone n b) s = execTwinDigestDone n b s := rfl
theorem exec_twinDigestRx (s : State) : exec .twinDigestRx s = execTwinDigestRx s := rfl
theorem exec_witnessDigestRx (s : State) : exec .witnessDigestRx s = execWitnessDigestRx s := rfl
theorem exec_twinVerdictRx (s : State) : exec .twinVerdictRx s = execTwinVerdictRx s := rfl
theorem exec_twinSlotRx (s : State) : exec .twinSlotRx s = execTwinSlotRx s := rfl
theorem exec_twinBridleRx (s : State) : exec .twinBridleRx s = execTwinBridleRx s := rfl
theorem exec_twinContextRx (s : State) : exec .twinContextRx s = execTwinContextRx s := rfl
theorem exec_twinFreeRunEnter (s : State) : exec .twinFreeRunEnter s = execTwinFreeRunEnter s := rfl
theorem exec_twinFreeRunExpiry (s : State) : exec .twinFreeRunExpiry s = execTwinFreeRunExpiry s := rfl
theorem exec_twinPromote {arb} (s : State) : exec (.twinPromote arb) s = execTwinPromote arb s := rfl
theorem exec_twinRejoinEligible {n} (s : State) : exec (.twinRejoinEligible n) s = execTwinRejoinEligible n s := rfl
theorem exec_twinRejoinLate {n} (s : State) : exec (.twinRejoinLate n) s = execTwinRejoinLate n s := rfl
theorem exec_mergePathLost {n path2} (s : State) : exec (.mergePathLost n path2) s = execMergePathLost n path2 s := rfl
theorem exec_mergeGapTimeout {n} (s : State) : exec (.mergeGapTimeout n) s = execMergeGapTimeout n s := rfl
theorem exec_mergeDistrustEnd {n} (s : State) : exec (.mergeDistrustEnd n) s = execMergeDistrustEnd n s := rfl
theorem exec_fabInitRx {z serial dev port} (s : State) : exec (.fabInitRx z serial dev port) s = execFabInitRx z serial dev port s := rfl
theorem exec_fabFlitRx {z f} (s : State) : exec (.fabFlitRx z f) s = execFabFlitRx z f s := rfl
theorem exec_fabNakRx {z seq} (s : State) : exec (.fabNakRx z seq) s = execFabNakRx z seq s := rfl
theorem exec_fabReplayTimeout {z} (s : State) : exec (.fabReplayTimeout z) s = execFabReplayTimeout z s := rfl
theorem exec_fabTsync {z t1 t2 t3 t4} (s : State) : exec (.fabTsync z t1 t2 t3 t4) s = execFabTsync z t1 t2 t3 t4 s := rfl
theorem exec_fabPositionSend (s : State) : exec .fabPositionSend s = execFabPositionSend s := rfl
theorem exec_fabPositionRx {residence} (s : State) : exec (.fabPositionRx residence) s = execFabPositionRx residence s := rfl
theorem exec_fabHeartbeatSend {arb} (s : State) : exec (.fabHeartbeatSend arb) s = execFabHeartbeatSend arb s := rfl
theorem exec_fabHeartbeatRx (s : State) : exec .fabHeartbeatRx s = execFabHeartbeatRx s := rfl
theorem exec_fabMemberAbsent {d} (s : State) : exec (.fabMemberAbsent d) s = execFabMemberAbsent d s := rfl
theorem exec_fabDiscoverRx (s : State) : exec .fabDiscoverRx s = execFabDiscoverRx s := rfl
theorem exec_fabDiscoverReplyRx (s : State) : exec .fabDiscoverReplyRx s = execFabDiscoverReplyRx s := rfl
theorem exec_fabMapRx (s : State) : exec .fabMapRx s = execFabMapRx s := rfl
theorem exec_fabRouteUpdate {d} (s : State) : exec (.fabRouteUpdate d) s = execFabRouteUpdate d s := rfl
theorem exec_fabReadRx {busy} (s : State) : exec (.fabReadRx busy) s = execFabReadRx busy s := rfl
theorem exec_fabWriteRx {busy loftOk} (s : State) : exec (.fabWriteRx busy loftOk) s = execFabWriteRx busy loftOk s := rfl
theorem exec_fabDoorbellRx (s : State) : exec .fabDoorbellRx s = execFabDoorbellRx s := rfl
theorem exec_fabResponseRx {cycles} (s : State) : exec (.fabResponseRx cycles) s = execFabResponseRx cycles s := rfl
theorem exec_fabResponseTimeout {cycles} (s : State) : exec (.fabResponseTimeout cycles) s = execFabResponseTimeout cycles s := rfl
theorem exec_fabE2eGap {src vc} (s : State) : exec (.fabE2eGap src vc) s = execFabE2eGap src vc s := rfl
theorem exec_leaseRequestSend (s : State) : exec .leaseRequestSend s = execLeaseRequestSend s := rfl
theorem exec_leaseRequestRx (s : State) : exec .leaseRequestRx s = execLeaseRequestRx s := rfl
theorem exec_leaseGrantRx (s : State) : exec .leaseGrantRx s = execLeaseGrantRx s := rfl
theorem exec_leaseDenyRx (s : State) : exec .leaseDenyRx s = execLeaseDenyRx s := rfl
theorem exec_leaseReleaseRx (s : State) : exec .leaseReleaseRx s = execLeaseReleaseRx s := rfl
theorem exec_leaseExpiry {n} (s : State) : exec (.leaseExpiry n) s = execLeaseExpiry n s := rfl
theorem exec_promiseExpiry {n} (s : State) : exec (.promiseExpiry n) s = execPromiseExpiry n s := rfl
theorem exec_voterChangeEnd (s : State) : exec .voterChangeEnd s = execVoterChangeEnd s := rfl
theorem exec_cfgCommandAtMaster (s : State) : exec .cfgCommandAtMaster s = execCfgCommandAtMaster s := rfl
theorem exec_cfgPullDone (s : State) : exec .cfgPullDone s = execCfgPullDone s := rfl
theorem exec_forwardRx (s : State) : exec .forwardRx s = execForwardRx s := rfl
theorem exec_fabConfig {m loftOk} (s : State) : exec (.fabConfig m loftOk) s = execFabConfig m loftOk s := rfl
theorem exec_fabRights {m loftOk} (s : State) : exec (.fabRights m loftOk) s = execFabRights m loftOk s := rfl
theorem exec_fabCustody {m loftOk} (s : State) : exec (.fabCustody m loftOk) s = execFabCustody m loftOk s := rfl
theorem exec_fabForward {m loftOk} (s : State) : exec (.fabForward m loftOk) s = execFabForward m loftOk s := rfl
theorem exec_tokenGrant {loftOk} (s : State) : exec (.tokenGrant loftOk) s = execTokenGrant loftOk s := rfl
theorem exec_tokenRelease {y} (s : State) : exec (.tokenRelease y) s = execTokenRelease y s := rfl
theorem exec_aliveWrite {y} (s : State) : exec (.aliveWrite y) s = execAliveWrite y s := rfl
theorem exec_watchdogExpiry (s : State) : exec .watchdogExpiry s = execWatchdogExpiry s := rfl
theorem exec_readyClear {y} (s : State) : exec (.readyClear y) s = execReadyClear y s := rfl
theorem exec_ymDigestCompare {digest} (s : State) : exec (.ymDigestCompare digest) s = execYmDigestCompare digest s := rfl
theorem exec_ymNoStandby (s : State) : exec .ymNoStandby s = execYmNoStandby s := rfl
theorem exec_mailboxRing {m loftOk} (s : State) : exec (.mailboxRing m loftOk) s = execMailboxRing m loftOk s := rfl
theorem exec_hostBar2Access {o n write busy} (s : State) : exec (.hostBar2Access o n write busy) s = execHostBar2Access o n write busy s := rfl
theorem exec_compatCommand {code args loftOk} (s : State) : exec (.compatCommand code args loftOk) s = execCompatCommand code args loftOk s := rfl
theorem exec_idGenerate {m fails loftOk} (s : State) : exec (.idGenerate m fails loftOk) s = execIdGenerate m fails loftOk s := rfl
theorem exec_idCert {m loftOk} (s : State) : exec (.idCert m loftOk) s = execIdCert m loftOk s := rfl
theorem exec_idGetKey {m} (s : State) : exec (.idGetKey m) s = execIdGetKey m s := rfl
theorem exec_idGetCert {m} (s : State) : exec (.idGetCert m) s = execIdGetCert m s := rfl
theorem exec_kekInstall {m loftOk} (s : State) : exec (.kekInstall m loftOk) s = execKekInstall m loftOk s := rfl
theorem exec_kekKemOffer {m fails} (s : State) : exec (.kekKemOffer m fails) s = execKekKemOffer m fails s := rfl
theorem exec_kekKemOfferPart1 {m} (s : State) : exec (.kekKemOfferPart1 m) s = execKekKemOfferPart1 m s := rfl
theorem exec_kekKemPairExpiry (s : State) : exec .kekKemPairExpiry s = execKekKemPairExpiry s := rfl
theorem exec_kekKemFinish {m loftOk} (s : State) : exec (.kekKemFinish m loftOk) s = execKekKemFinish m loftOk s := rfl
theorem exec_pairInstall {m loftOk} (s : State) : exec (.pairInstall m loftOk) s = execPairInstall m loftOk s := rfl
theorem exec_keyInstall {m loftOk} (s : State) : exec (.keyInstall m loftOk) s = execKeyInstall m loftOk s := rfl
theorem exec_keyExport {m} (s : State) : exec (.keyExport m) s = execKeyExport m s := rfl
theorem exec_keyPolicy {m loftOk} (s : State) : exec (.keyPolicy m loftOk) s = execKeyPolicy m loftOk s := rfl
theorem exec_keyRekey {m} (s : State) : exec (.keyRekey m) s = execKeyRekey m s := rfl
theorem exec_draySplit {m loftOk} (s : State) : exec (.draySplit m loftOk) s = execDraySplit m loftOk s := rfl
theorem exec_drayLoad {m} (s : State) : exec (.drayLoad m) s = execDrayLoad m s := rfl
theorem exec_drayControlStop {m loftOk} (s : State) : exec (.drayControlStop m loftOk) s = execDrayControlStop m loftOk s := rfl
theorem exec_drayControlStart {m loftOk} (s : State) : exec (.drayControlStart m loftOk) s = execDrayControlStart m loftOk s := rfl
theorem exec_memAperture {m loftOk} (s : State) : exec (.memAperture m loftOk) s = execMemAperture m loftOk s := rfl
theorem exec_bellHostDb {m loftOk} (s : State) : exec (.bellHostDb m loftOk) s = execBellHostDb m loftOk s := rfl
theorem exec_shedSet {m loftOk} (s : State) : exec (.shedSet m loftOk) s = execShedSet m loftOk s := rfl
theorem exec_shedReset {m} (s : State) : exec (.shedReset m) s = execShedReset m s := rfl
theorem exec_loftBudget {m loftOk} (s : State) : exec (.loftBudget m loftOk) s = execLoftBudget m loftOk s := rfl
theorem exec_loftGet {m} (s : State) : exec (.loftGet m) s = execLoftGet m s := rfl
theorem exec_farrierConfig {m loftOk} (s : State) : exec (.farrierConfig m loftOk) s = execFarrierConfig m loftOk s := rfl
theorem exec_info {m} (s : State) : exec (.info m) s = execInfo m s := rfl
theorem exec_ledgerConfig {m loftOk} (s : State) : exec (.ledgerConfig m loftOk) s = execLedgerConfig m loftOk s := rfl
theorem exec_ledgerReaction {m loftOk} (s : State) : exec (.ledgerReaction m loftOk) s = execLedgerReaction m loftOk s := rfl
theorem exec_faultClear {m} (s : State) : exec (.faultClear m) s = execFaultClear m s := rfl
theorem exec_statsMode {m loftOk} (s : State) : exec (.statsMode m loftOk) s = execStatsMode m loftOk s := rfl
theorem exec_compatConfig {m loftOk} (s : State) : exec (.compatConfig m loftOk) s = execCompatConfig m loftOk s := rfl
theorem exec_coreStart {r core} (s : State) : exec (.coreStart r core) s = execCoreStart r core s := rfl
theorem exec_coreStop {r core} (s : State) : exec (.coreStop r core) s = execCoreStop r core s := rfl
theorem exec_lmClearDone {core} (s : State) : exec (.lmClearDone core) s = execLmClearDone core s := rfl
theorem exec_nop {h field} (s : State) : exec (.nop h field) s = execNop h field s := rfl
theorem exec_add {h rd rs1 rs2} (s : State) : exec (.add h rd rs1 rs2) s = execAdd h rd rs1 rs2 s := rfl
theorem exec_sub {h rd rs1 rs2} (s : State) : exec (.sub h rd rs1 rs2) s = execSub h rd rs1 rs2 s := rfl
theorem exec_and {h rd rs1 rs2} (s : State) : exec (.and h rd rs1 rs2) s = execAnd h rd rs1 rs2 s := rfl
theorem exec_or {h rd rs1 rs2} (s : State) : exec (.or h rd rs1 rs2) s = execOr h rd rs1 rs2 s := rfl
theorem exec_xor {h rd rs1 rs2} (s : State) : exec (.xor h rd rs1 rs2) s = execXor h rd rs1 rs2 s := rfl
theorem exec_shl {h rd rs1 rs2} (s : State) : exec (.shl h rd rs1 rs2) s = execShl h rd rs1 rs2 s := rfl
theorem exec_shr {h rd rs1 rs2} (s : State) : exec (.shr h rd rs1 rs2) s = execShr h rd rs1 rs2 s := rfl
theorem exec_sra {h rd rs1 rs2} (s : State) : exec (.sra h rd rs1 rs2) s = execSra h rd rs1 rs2 s := rfl
theorem exec_min {h rd rs1 rs2} (s : State) : exec (.min h rd rs1 rs2) s = execMin h rd rs1 rs2 s := rfl
theorem exec_max {h rd rs1 rs2} (s : State) : exec (.max h rd rs1 rs2) s = execMax h rd rs1 rs2 s := rfl
theorem exec_minu {h rd rs1 rs2} (s : State) : exec (.minu h rd rs1 rs2) s = execMinu h rd rs1 rs2 s := rfl
theorem exec_maxu {h rd rs1 rs2} (s : State) : exec (.maxu h rd rs1 rs2) s = execMaxu h rd rs1 rs2 s := rfl
theorem exec_adds {h rd rs1 rs2} (s : State) : exec (.adds h rd rs1 rs2) s = execAdds h rd rs1 rs2 s := rfl
theorem exec_subs {h rd rs1 rs2} (s : State) : exec (.subs h rd rs1 rs2) s = execSubs h rd rs1 rs2 s := rfl
theorem exec_rol {h rd rs1 rs2} (s : State) : exec (.rol h rd rs1 rs2) s = execRol h rd rs1 rs2 s := rfl
theorem exec_andn {h rd rs1 rs2} (s : State) : exec (.andn h rd rs1 rs2) s = execAndn h rd rs1 rs2 s := rfl
theorem exec_addi {h rd rs1 imm} (s : State) : exec (.addi h rd rs1 imm) s = execAddi h rd rs1 imm s := rfl
theorem exec_shli {h rd rs1 imm} (s : State) : exec (.shli h rd rs1 imm) s = execShli h rd rs1 imm s := rfl
theorem exec_shri {h rd rs1 imm} (s : State) : exec (.shri h rd rs1 imm) s = execShri h rd rs1 imm s := rfl
theorem exec_srai {h rd rs1 imm} (s : State) : exec (.srai h rd rs1 imm) s = execSrai h rd rs1 imm s := rfl
theorem exec_roli {h rd rs1 imm} (s : State) : exec (.roli h rd rs1 imm) s = execRoli h rd rs1 imm s := rfl
theorem exec_andi {h rd rs1 imm} (s : State) : exec (.andi h rd rs1 imm) s = execAndi h rd rs1 imm s := rfl
theorem exec_ori {h rd rs1 imm} (s : State) : exec (.ori h rd rs1 imm) s = execOri h rd rs1 imm s := rfl
theorem exec_xori {h rd rs1 imm} (s : State) : exec (.xori h rd rs1 imm) s = execXori h rd rs1 imm s := rfl
theorem exec_movi {h rd imm} (s : State) : exec (.movi h rd imm) s = execMovi h rd imm s := rfl
theorem exec_movi32 {h rd imm} (s : State) : exec (.movi32 h rd imm) s = execMovi32 h rd imm s := rfl
theorem exec_dadd {h rd rs1 rs2} (s : State) : exec (.dadd h rd rs1 rs2) s = execDadd h rd rs1 rs2 s := rfl
theorem exec_dsub {h rd rs1 rs2} (s : State) : exec (.dsub h rd rs1 rs2) s = execDsub h rd rs1 rs2 s := rfl
theorem exec_dand {h rd rs1 rs2} (s : State) : exec (.dand h rd rs1 rs2) s = execDand h rd rs1 rs2 s := rfl
theorem exec_dor {h rd rs1 rs2} (s : State) : exec (.dor h rd rs1 rs2) s = execDor h rd rs1 rs2 s := rfl
theorem exec_dxor {h rd rs1 rs2} (s : State) : exec (.dxor h rd rs1 rs2) s = execDxor h rd rs1 rs2 s := rfl
theorem exec_dshl {h rd rs1 rs2} (s : State) : exec (.dshl h rd rs1 rs2) s = execDshl h rd rs1 rs2 s := rfl
theorem exec_dshr {h rd rs1 rs2} (s : State) : exec (.dshr h rd rs1 rs2) s = execDshr h rd rs1 rs2 s := rfl
theorem exec_dsra {h rd rs1 rs2} (s : State) : exec (.dsra h rd rs1 rs2) s = execDsra h rd rs1 rs2 s := rfl
theorem exec_sel {h rd rs1 rs2 q} (s : State) : exec (.sel h rd rs1 rs2 q) s = execSel h rd rs1 rs2 q s := rfl
theorem exec_cmp {h pd cond rs1 rs2 comb} (s : State) : exec (.cmp h pd cond rs1 rs2 comb) s = execCmp h pd cond rs1 rs2 comb s := rfl
theorem exec_cmpi {h pd cond rs1 imm} (s : State) : exec (.cmpi h pd cond rs1 imm) s = execCmpi h pd cond rs1 imm s := rfl
theorem exec_pand {h pd pa pb} (s : State) : exec (.pand h pd pa pb) s = execPand h pd pa pb s := rfl
theorem exec_por {h pd pa pb} (s : State) : exec (.por h pd pa pb) s = execPor h pd pa pb s := rfl
theorem exec_pxor {h pd pa pb} (s : State) : exec (.pxor h pd pa pb) s = execPxor h pd pa pb s := rfl
theorem exec_pandn {h pd pa pb} (s : State) : exec (.pandn h pd pa pb) s = execPandn h pd pa pb s := rfl
theorem exec_clz {h rd rs1} (s : State) : exec (.clz h rd rs1) s = execClz h rd rs1 s := rfl
theorem exec_popc {h rd rs1} (s : State) : exec (.popc h rd rs1) s = execPopc h rd rs1 s := rfl
theorem exec_brev {h rd rs1} (s : State) : exec (.brev h rd rs1) s = execBrev h rd rs1 s := rfl
theorem exec_sextb {h rd rs1} (s : State) : exec (.sextb h rd rs1) s = execSextb h rd rs1 s := rfl
theorem exec_sexth {h rd rs1} (s : State) : exec (.sexth h rd rs1) s = execSexth h rd rs1 s := rfl
theorem exec_zextb {h rd rs1} (s : State) : exec (.zextb h rd rs1) s = execZextb h rd rs1 s := rfl
theorem exec_zexth {h rd rs1} (s : State) : exec (.zexth h rd rs1) s = execZexth h rd rs1 s := rfl
theorem exec_mul {h rd rs1 rs2} (s : State) : exec (.mul h rd rs1 rs2) s = execMul h rd rs1 rs2 s := rfl
theorem exec_mulhs {h rd rs1 rs2} (s : State) : exec (.mulhs h rd rs1 rs2) s = execMulhs h rd rs1 rs2 s := rfl
theorem exec_mulhu {h rd rs1 rs2} (s : State) : exec (.mulhu h rd rs1 rs2) s = execMulhu h rd rs1 rs2 s := rfl
theorem exec_mulw {h rd rs1 rs2} (s : State) : exec (.mulw h rd rs1 rs2) s = execMulw h rd rs1 rs2 s := rfl
theorem exec_mulwu {h rd rs1 rs2} (s : State) : exec (.mulwu h rd rs1 rs2) s = execMulwu h rd rs1 rs2 s := rfl
theorem exec_clmul {h rd rs1 rs2} (s : State) : exec (.clmul h rd rs1 rs2) s = execClmul h rd rs1 rs2 s := rfl
theorem exec_clmulh {h rd rs1 rs2} (s : State) : exec (.clmulh h rd rs1 rs2) s = execClmulh h rd rs1 rs2 s := rfl
theorem exec_mac {h a rs1 rs2} (s : State) : exec (.mac h a rs1 rs2) s = execMac h a rs1 rs2 s := rfl
theorem exec_macu {h a rs1 rs2} (s : State) : exec (.macu h a rs1 rs2) s = execMacu h a rs1 rs2 s := rfl
theorem exec_msu {h a rs1 rs2} (s : State) : exec (.msu h a rs1 rs2) s = execMsu h a rs1 rs2 s := rfl
theorem exec_mac2 {h a rs1 rs2} (s : State) : exec (.mac2 h a rs1 rs2) s = execMac2 h a rs1 rs2 s := rfl
theorem exec_aclr {h a} (s : State) : exec (.aclr h a) s = execAclr h a s := rfl
theorem exec_awr {h a reg} (s : State) : exec (.awr h a reg) s = execAwr h a reg s := rfl
theorem exec_ard {h a d r reg shift} (s : State) : exec (.ard h a d r reg shift) s = execArd h a d r reg shift s := rfl
theorem exec_macd {h a gx gy sa sb ty sub mode ecc ecc'} (s : State) : exec (.macd h a gx gy sa sb ty sub mode ecc ecc') s = execMacd h a gx gy sa sb ty sub mode ecc ecc' s := rfl
theorem exec_ldb {h rt g form opnd ecc} (s : State) : exec (.ldb h rt g form opnd ecc) s = execLdb h rt g form opnd ecc s := rfl
theorem exec_ldbu {h rt g form opnd ecc} (s : State) : exec (.ldbu h rt g form opnd ecc) s = execLdbu h rt g form opnd ecc s := rfl
theorem exec_ldh {h rt g form opnd ecc} (s : State) : exec (.ldh h rt g form opnd ecc) s = execLdh h rt g form opnd ecc s := rfl
theorem exec_ldhu {h rt g form opnd ecc} (s : State) : exec (.ldhu h rt g form opnd ecc) s = execLdhu h rt g form opnd ecc s := rfl
theorem exec_ldw {h rt g form opnd ecc} (s : State) : exec (.ldw h rt g form opnd ecc) s = execLdw h rt g form opnd ecc s := rfl
theorem exec_ldd {h rt g form opnd ecc} (s : State) : exec (.ldd h rt g form opnd ecc) s = execLdd h rt g form opnd ecc s := rfl
theorem exec_stb {h rt g form opnd} (s : State) : exec (.stb h rt g form opnd) s = execStb h rt g form opnd s := rfl
theorem exec_sth {h rt g form opnd} (s : State) : exec (.sth h rt g form opnd) s = execSth h rt g form opnd s := rfl
theorem exec_stw {h rt g form opnd} (s : State) : exec (.stw h rt g form opnd) s = execStw h rt g form opnd s := rfl
theorem exec_std {h rt g form opnd} (s : State) : exec (.std h rt g form opnd) s = execStd h rt g form opnd s := rfl
theorem exec_segld {h gd ix ecc} (s : State) : exec (.segld h gd ix ecc) s = execSegld h gd ix ecc s := rfl
theorem exec_segsub {h gd gs mask off len} (s : State) : exec (.segsub h gd gs mask off len) s = execSegsub h gd gs mask off len s := rfl
theorem exec_segmv {h gd gs} (s : State) : exec (.segmv h gd gs) s = execSegmv h gd gs s := rfl
theorem exec_segrd {h rd gs fn} (s : State) : exec (.segrd h rd gs fn) s = execSegrd h rd gs fn s := rfl
theorem exec_zconf {h gx} (s : State) : exec (.zconf h gx) s = execZconf h gx s := rfl
theorem exec_farld {h gf gl tag dO size inc} (s : State) : exec (.farld h gf gl tag dO size inc) s = execFarld h gf gl tag dO size inc s := rfl
theorem exec_farst {h gf gl tag dO size inc} (s : State) : exec (.farst h gf gl tag dO size inc) s = execFarst h gf gl tag dO size inc s := rfl
theorem exec_farComplete {core tag cycles clash loftOk} (s : State) : exec (.farComplete core tag cycles clash loftOk) s = execFarComplete core tag cycles clash loftOk s := rfl
theorem exec_fwait {h mask} (s : State) : exec (.fwait h mask) s = execFwait h mask s := rfl
theorem exec_tagp {h pd tag} (s : State) : exec (.tagp h pd tag) s = execTagp h pd tag s := rfl
theorem exec_fstat {h rd tag} (s : State) : exec (.fstat h rd tag) s = execFstat h rd tag s := rfl
theorem exec_bcopy {h all size pd dC sK bad cut} (s : State) : exec (.bcopy h all size pd dC sK bad cut) s = execBcopy h all size pd dC sK bad cut s := rfl
theorem exec_bfill {h all size pd dC sK bad cut} (s : State) : exec (.bfill h all size pd dC sK bad cut) s = execBfill h all size pd dC sK bad cut s := rfl
theorem exec_bcmp {h all size pd dC sK bad cut} (s : State) : exec (.bcmp h all size pd dC sK bad cut) s = execBcmp h all size pd dC sK bad cut s := rfl
theorem exec_bfind {h all size pd dC sK bad cut} (s : State) : exec (.bfind h all size pd dC sK bad cut) s = execBfind h all size pd dC sK bad cut s := rfl
theorem exec_lock {h dT gf sK busy} (s : State) : exec (.lock h dT gf sK busy) s = execLock h dT gf sK busy s := rfl
theorem exec_unlock {h pd dS busy} (s : State) : exec (.unlock h pd dS busy) s = execUnlock h pd dS busy s := rfl
theorem exec_br {h annul off} (s : State) : exec (.br h annul off) s = execBr h annul off s := rfl
theorem exec_brl {h annul rd off} (s : State) : exec (.brl h annul rd off) s = execBrl h annul rd off s := rfl
theorem exec_brr {h annul link rs rl} (s : State) : exec (.brr h annul link rs rl) s = execBrr h annul link rs rl s := rfl
theorem exec_loop0 {h reg dist cnt} (s : State) : exec (.loop0 h reg dist cnt) s = execLoop0 h reg dist cnt s := rfl
theorem exec_loop1 {h reg dist cnt} (s : State) : exec (.loop1 h reg dist cnt) s = execLoop1 h reg dist cnt s := rfl
theorem exec_atom {h n1} (s : State) : exec (.atom h n1) s = execAtom h n1 s := rfl
theorem exec_wait {h} (s : State) : exec (.wait h) s = execWait h s := rfl
theorem exec_syscall {h code} (s : State) : exec (.syscall h code) s = execSyscall h code s := rfl
theorem exec_rete {h} (s : State) : exec (.rete h) s = execRete h s := rfl
theorem exec_brk {h} (s : State) : exec (.brk h) s = execBrk h s := rfl
theorem exec_mfc {h rd creg} (s : State) : exec (.mfc h rd creg) s = execMfc h rd creg s := rfl
theorem exec_mtc {h rs creg} (s : State) : exec (.mtc h rs creg) s = execMtc h rs creg s := rfl
theorem exec_vadd {h vd vs1 vs2 mask} (s : State) : exec (.vadd h vd vs1 vs2 mask) s = execVadd h vd vs1 vs2 mask s := rfl
theorem exec_vsub {h vd vs1 vs2 mask} (s : State) : exec (.vsub h vd vs1 vs2 mask) s = execVsub h vd vs1 vs2 mask s := rfl
theorem exec_vand {h vd vs1 vs2 mask} (s : State) : exec (.vand h vd vs1 vs2 mask) s = execVand h vd vs1 vs2 mask s := rfl
theorem exec_vor {h vd vs1 vs2 mask} (s : State) : exec (.vor h vd vs1 vs2 mask) s = execVor h vd vs1 vs2 mask s := rfl
theorem exec_vxor {h vd vs1 vs2 mask} (s : State) : exec (.vxor h vd vs1 vs2 mask) s = execVxor h vd vs1 vs2 mask s := rfl
theorem exec_vmin {h vd vs1 vs2 mask} (s : State) : exec (.vmin h vd vs1 vs2 mask) s = execVmin h vd vs1 vs2 mask s := rfl
theorem exec_vmax {h vd vs1 vs2 mask} (s : State) : exec (.vmax h vd vs1 vs2 mask) s = execVmax h vd vs1 vs2 mask s := rfl
theorem exec_vminu {h vd vs1 vs2 mask} (s : State) : exec (.vminu h vd vs1 vs2 mask) s = execVminu h vd vs1 vs2 mask s := rfl
theorem exec_vmaxu {h vd vs1 vs2 mask} (s : State) : exec (.vmaxu h vd vs1 vs2 mask) s = execVmaxu h vd vs1 vs2 mask s := rfl
theorem exec_vshl {h vd vs1 vs2 mask} (s : State) : exec (.vshl h vd vs1 vs2 mask) s = execVshl h vd vs1 vs2 mask s := rfl
theorem exec_vshr {h vd vs1 vs2 mask} (s : State) : exec (.vshr h vd vs1 vs2 mask) s = execVshr h vd vs1 vs2 mask s := rfl
theorem exec_vsra {h vd vs1 vs2 mask} (s : State) : exec (.vsra h vd vs1 vs2 mask) s = execVsra h vd vs1 vs2 mask s := rfl
theorem exec_vmv {h vd vs1 vs2 mask} (s : State) : exec (.vmv h vd vs1 vs2 mask) s = execVmv h vd vs1 vs2 mask s := rfl
theorem exec_vsel {h vd vs1 vs2 mask} (s : State) : exec (.vsel h vd vs1 vs2 mask) s = execVsel h vd vs1 vs2 mask s := rfl
theorem exec_vcmp {h md cond vs1 vs2 mask comb} (s : State) : exec (.vcmp h md cond vs1 vs2 mask comb) s = execVcmp h md cond vs1 vs2 mask comb s := rfl
theorem exec_vmul {h vd vs1 vs2 mask} (s : State) : exec (.vmul h vd vs1 vs2 mask) s = execVmul h vd vs1 vs2 mask s := rfl
theorem exec_vmulh {h vd vs1 vs2 mask} (s : State) : exec (.vmulh h vd vs1 vs2 mask) s = execVmulh h vd vs1 vs2 mask s := rfl
theorem exec_vmulhu {h vd vs1 vs2 mask} (s : State) : exec (.vmulhu h vd vs1 vs2 mask) s = execVmulhu h vd vs1 vs2 mask s := rfl
theorem exec_vwmul {h vd vs1 vs2 mask} (s : State) : exec (.vwmul h vd vs1 vs2 mask) s = execVwmul h vd vs1 vs2 mask s := rfl
theorem exec_vwmulu {h vd vs1 vs2 mask} (s : State) : exec (.vwmulu h vd vs1 vs2 mask) s = execVwmulu h vd vs1 vs2 mask s := rfl
theorem exec_vwmac {h vd vs1 vs2 mask} (s : State) : exec (.vwmac h vd vs1 vs2 mask) s = execVwmac h vd vs1 vs2 mask s := rfl
theorem exec_vwmacu {h vd vs1 vs2 mask} (s : State) : exec (.vwmacu h vd vs1 vs2 mask) s = execVwmacu h vd vs1 vs2 mask s := rfl
theorem exec_vdot4 {h vd vs1 vs2 mask} (s : State) : exec (.vdot4 h vd vs1 vs2 mask) s = execVdot4 h vd vs1 vs2 mask s := rfl
theorem exec_vqadd {h vd vs1 vs2 mask} (s : State) : exec (.vqadd h vd vs1 vs2 mask) s = execVqadd h vd vs1 vs2 mask s := rfl
theorem exec_vqsub {h vd vs1 vs2 mask} (s : State) : exec (.vqsub h vd vs1 vs2 mask) s = execVqsub h vd vs1 vs2 mask s := rfl
theorem exec_vqaddu {h vd vs1 vs2 mask} (s : State) : exec (.vqaddu h vd vs1 vs2 mask) s = execVqaddu h vd vs1 vs2 mask s := rfl
theorem exec_vqsubu {h vd vs1 vs2 mask} (s : State) : exec (.vqsubu h vd vs1 vs2 mask) s = execVqsubu h vd vs1 vs2 mask s := rfl
theorem exec_vqdmulh {h vd vs1 vs2 mask} (s : State) : exec (.vqdmulh h vd vs1 vs2 mask) s = execVqdmulh h vd vs1 vs2 mask s := rfl
theorem exec_vqrdmulh {h vd vs1 vs2 mask} (s : State) : exec (.vqrdmulh h vd vs1 vs2 mask) s = execVqrdmulh h vd vs1 vs2 mask s := rfl
theorem exec_vrshr {h vd vs1 imm mask} (s : State) : exec (.vrshr h vd vs1 imm mask) s = execVrshr h vd vs1 imm mask s := rfl
theorem exec_vrshru {h vd vs1 imm mask} (s : State) : exec (.vrshru h vd vs1 imm mask) s = execVrshru h vd vs1 imm mask s := rfl
theorem exec_vsat {h vd vs1 imm mask} (s : State) : exec (.vsat h vd vs1 imm mask) s = execVsat h vd vs1 imm mask s := rfl
theorem exec_vsatu {h vd vs1 imm mask} (s : State) : exec (.vsatu h vd vs1 imm mask) s = execVsatu h vd vs1 imm mask s := rfl
theorem exec_vmodredU {h vd vs1 sQ} (s : State) : exec (.vmodredU h vd vs1 sQ) s = execVmodredU h vd vs1 sQ s := rfl
theorem exec_vmodredUn {h vd vs1 sQ} (s : State) : exec (.vmodredUn h vd vs1 sQ) s = execVmodredUn h vd vs1 sQ s := rfl
theorem exec_vmodredSn {h vd vs1 sQ} (s : State) : exec (.vmodredSn h vd vs1 sQ) s = execVmodredSn h vd vs1 sQ s := rfl
theorem exec_vmodredS {h vd vs1 sQ} (s : State) : exec (.vmodredS h vd vs1 sQ) s = execVmodredS h vd vs1 sQ s := rfl
theorem exec_vld {h vd g sK mask ecc} (s : State) : exec (.vld h vd g sK mask ecc) s = execVld h vd g sK mask ecc s := rfl
theorem exec_vldInc {h vd g sK mask ecc} (s : State) : exec (.vldInc h vd g sK mask ecc) s = execVldInc h vd g sK mask ecc s := rfl
theorem exec_vst {h vs g sK mask} (s : State) : exec (.vst h vs g sK mask) s = execVst h vs g sK mask s := rfl
theorem exec_vstInc {h vs g sK mask} (s : State) : exec (.vstInc h vs g sK mask) s = execVstInc h vs g sK mask s := rfl
theorem exec_vlds {h vd g sK mask ecc} (s : State) : exec (.vlds h vd g sK mask ecc) s = execVlds h vd g sK mask ecc s := rfl
theorem exec_vsts {h vs g sK mask} (s : State) : exec (.vsts h vs g sK mask) s = execVsts h vs g sK mask s := rfl
theorem exec_vstrip {h pd rs ew span} (s : State) : exec (.vstrip h pd rs ew span) s = execVstrip h pd rs ew span s := rfl
theorem exec_vredsum {h rd vs1 mask} (s : State) : exec (.vredsum h rd vs1 mask) s = execVredsum h rd vs1 mask s := rfl
theorem exec_vredmax {h rd vs1 mask} (s : State) : exec (.vredmax h rd vs1 mask) s = execVredmax h rd vs1 mask s := rfl
theorem exec_vredmin {h rd vs1 mask} (s : State) : exec (.vredmin h rd vs1 mask) s = execVredmin h rd vs1 mask s := rfl
theorem exec_vmvxs {h rd vs1 mask} (s : State) : exec (.vmvxs h rd vs1 mask) s = execVmvxs h rd vs1 mask s := rfl
theorem exec_vsplat {h vd rs mask} (s : State) : exec (.vsplat h vd rs mask) s = execVsplat h vd rs mask s := rfl
theorem exec_mand {h md ma mb} (s : State) : exec (.mand h md ma mb) s = execMand h md ma mb s := rfl
theorem exec_mor {h md ma mb} (s : State) : exec (.mor h md ma mb) s = execMor h md ma mb s := rfl
theorem exec_mxor {h md ma mb} (s : State) : exec (.mxor h md ma mb) s = execMxor h md ma mb s := rfl
theorem exec_mandn {h md ma mb} (s : State) : exec (.mandn h md ma mb) s = execMandn h md ma mb s := rfl
theorem exec_interruptEntry {core cycles} (s : State) : exec (.interruptEntry core cycles) s = execInterruptEntry core cycles s := rfl
theorem exec_dbgHalt {r core} (s : State) : exec (.dbgHalt r core) s = execDbgHalt r core s := rfl
theorem exec_dbgForceHalt {r core} (s : State) : exec (.dbgForceHalt r core) s = execDbgForceHalt r core s := rfl
theorem exec_dbgResume {r core cycles} (s : State) : exec (.dbgResume r core cycles) s = execDbgResume r core cycles s := rfl
theorem exec_dbgStep {r core cycles} (s : State) : exec (.dbgStep r core cycles) s = execDbgStep r core cycles s := rfl
theorem exec_haltTaken {core} (s : State) : exec (.haltTaken core) s = execHaltTaken core s := rfl
theorem exec_dbgRdataAccess {r core write} (s : State) : exec (.dbgRdataAccess r core write) s = execDbgRdataAccess r core write s := rfl
theorem exec_traceRead {r core} (s : State) : exec (.traceRead r core) s = execTraceRead r core s := rfl
theorem exec_ownerHandover {r b v} (s : State) : exec (.ownerHandover r b v) s = execOwnerHandover r b v s := rfl
theorem exec_handoverDone {b} (s : State) : exec (.handoverDone b) s = execHandoverDone b s := rfl
theorem exec_groomScrub {w ecc lastLine} (s : State) : exec (.groomScrub w ecc lastLine) s = execGroomScrub w ecc lastLine s := rfl
theorem exec_barnReady {fails} (s : State) : exec (.barnReady fails) s = execBarnReady fails s := rfl
theorem exec_sourceEvent {n level} (s : State) : exec (.sourceEvent n level) s = execSourceEvent n level s := rfl
theorem exec_tgtTake {r t} (s : State) : exec (.tgtTake r t) s = execTgtTake r t s := rfl
theorem exec_tgtFinish {r t v} (s : State) : exec (.tgtFinish r t v) s = execTgtFinish r t v s := rfl
theorem exec_bellDoorbell {r v} (s : State) : exec (.bellDoorbell r v) s = execBellDoorbell r v s := rfl
theorem exec_bellFreezeSet {r} (s : State) : exec (.bellFreezeSet r) s = execBellFreezeSet r s := rfl
theorem exec_bellFreezeRelease {r} (s : State) : exec (.bellFreezeRelease r) s = execBellFreezeRelease r s := rfl
theorem exec_bellFrzExpired (s : State) : exec .bellFrzExpired s = execBellFrzExpired s := rfl
theorem exec_holdoffExpiry {t} (s : State) : exec (.holdoffExpiry t) s = execHoldoffExpiry t s := rfl
theorem exec_wakeLatchCapture {n level} (s : State) : exec (.wakeLatchCapture n level) s = execWakeLatchCapture n level s := rfl
theorem exec_tallyEvaluation {pins} (s : State) : exec (.tallyEvaluation pins) s = execTallyEvaluation pins s := rfl
theorem exec_compareCommit {r n k v} (s : State) : exec (.compareCommit r n k v) s = execCompareCommit r n k v s := rfl
theorem exec_compareDisarm {r n k v} (s : State) : exec (.compareDisarm r n k v) s = execCompareDisarm r n k v s := rfl
theorem exec_tallyCountWrite {r n v inc} (s : State) : exec (.tallyCountWrite r n v inc) s = execTallyCountWrite r n v inc s := rfl
theorem exec_tallyLfPeriod (s : State) : exec .tallyLfPeriod s = execTallyLfPeriod s := rfl
theorem exec_ledgerReport (s : State) : exec .ledgerReport s = execLedgerReport s := rfl
theorem exec_coalesceWindowClose (s : State) : exec .coalesceWindowClose s = execCoalesceWindowClose s := rfl
theorem exec_ringWrite {busy} (s : State) : exec (.ringWrite busy) s = execRingWrite busy s := rfl
theorem exec_ledgerRdWrite {r v} (s : State) : exec (.ledgerRdWrite r v) s = execLedgerRdWrite r v s := rfl
theorem exec_hostRdPoll (s : State) : exec .hostRdPoll s = execHostRdPoll s := rfl
theorem exec_ledgerModeCopyDone (s : State) : exec .ledgerModeCopyDone s = execLedgerModeCopyDone s := rfl
theorem exec_ledgerInject {r v} (s : State) : exec (.ledgerInject r v) s = execLedgerInject r v s := rfl
theorem exec_railTestStep {r fails} (s : State) : exec (.railTestStep r fails) s = execRailTestStep r fails s := rfl
theorem exec_fillCellCompare {a b differ} (s : State) : exec (.fillCellCompare a b differ) s = execFillCellCompare a b differ s := rfl
theorem exec_engineTestStep {e fails} (s : State) : exec (.engineTestStep e fails) s = execEngineTestStep e fails s := rfl
theorem exec_draySelftestStep {core last fails} (s : State) : exec (.draySelftestStep core last fails) s = execDraySelftestStep core last fails s := rfl
theorem exec_coverageLate {cls index} (s : State) : exec (.coverageLate cls index) s = execCoverageLate cls index s := rfl
theorem exec_marginMeasure {lane v h} (s : State) : exec (.marginMeasure lane v h) s = execMarginMeasure lane v h s := rfl
theorem exec_entropySample {ok} (s : State) : exec (.entropySample ok) s = execEntropySample ok s := rfl
theorem exec_pwrShedReqWrite {r v} (s : State) : exec (.pwrShedReqWrite r v) s = execPwrShedReqWrite r v s := rfl
theorem exec_shedDrainDone {k} (s : State) : exec (.shedDrainDone k) s = execShedDrainDone k s := rfl
theorem exec_shedPowerUp (s : State) : exec .shedPowerUp s = execShedPowerUp s := rfl
theorem exec_shedPowerGood (s : State) : exec .shedPowerGood s = execShedPowerGood s := rfl
theorem exec_pwrShedFail (s : State) : exec .pwrShedFail s = execPwrShedFail s := rfl
theorem exec_pwrShedRstWrite {r v} (s : State) : exec (.pwrShedRstWrite r v) s = execPwrShedRstWrite r v s := rfl
theorem exec_shedResetEnd {k} (s : State) : exec (.shedResetEnd k) s = execShedResetEnd k s := rfl
theorem exec_sleepEntry (s : State) : exec .sleepEntry s = execSleepEntry s := rfl
theorem exec_wake (s : State) : exec .wake s = execWake s := rfl
theorem exec_porst (s : State) : exec .porst s = execPorst s := rfl
theorem exec_brownout (s : State) : exec .brownout s = execBrownout s := rfl
theorem exec_wrst (s : State) : exec .wrst s = execWrst s := rfl
theorem exec_perst (s : State) : exec .perst s = execPerst s := rfl
theorem exec_bootStart (s : State) : exec .bootStart s = execBootStart s := rfl
theorem exec_corePllLock (s : State) : exec .corePllLock s = execCorePllLock s := rfl
theorem exec_fwReady {fails} (s : State) : exec (.fwReady fails) s = execFwReady fails s := rfl
theorem exec_loftWriteDone {fails} (s : State) : exec (.loftWriteDone fails) s = execLoftWriteDone fails s := rfl
theorem exec_refclkSysLost (s : State) : exec .refclkSysLost s = execRefclkSysLost s := rfl
theorem exec_refclkSysRelock (s : State) : exec .refclkSysRelock s = execRefclkSysRelock s := rfl
theorem exec_portFecUncorr {k corrected uncorrectable} (s : State) : exec (.portFecUncorr k corrected uncorrectable) s = execPortFecUncorr k corrected uncorrectable s := rfl
theorem exec_l1GeneratedFrame {n fault} (s : State) : exec (.l1GeneratedFrame n fault) s = execL1GeneratedFrame n fault s := rfl
theorem exec_twinSlotAckRx (s : State) : exec .twinSlotAckRx s = execTwinSlotAckRx s := rfl
theorem exec_twinContextRequestRx (s : State) : exec .twinContextRequestRx s = execTwinContextRequestRx s := rfl
theorem exec_pcieLinkUp (s : State) : exec .pcieLinkUp s = execPcieLinkUp s := rfl
theorem exec_pcieLinkDown (s : State) : exec .pcieLinkDown s = execPcieLinkDown s := rfl
theorem exec_loftBudgetRefill (s : State) : exec .loftBudgetRefill s = execLoftBudgetRefill s := rfl
theorem exec_thermalExcursion (s : State) : exec .thermalExcursion s = execThermalExcursion s := rfl
theorem exec_powerOnHours (s : State) : exec .powerOnHours s = execPowerOnHours s := rfl
theorem exec_smbusBlockRead {addr code} (s : State) : exec (.smbusBlockRead addr code) s = execSmbusBlockRead addr code s := rfl
theorem exec_jtagInstruction {ix} (s : State) : exec (.jtagInstruction ix) s = execJtagInstruction ix s := rfl
theorem exec_factoryTestMode {pin} (s : State) : exec (.factoryTestMode pin) s = execFactoryTestMode pin s := rfl

end Sys2Proof.Machine
end

