-- ==== Sys2Proof/Laws/Keep.lean ====
section
/-!
SUPPORT. `Keep` under the plain operations: it is reflexive and transitive, and every way in which a state is built from another
that does not touch a table, the queue, the clock, the draws, the outputs or the wear keeps it.
-/

namespace Sys2Proof.Machine

/-- The parts of the state that `Keep` speaks of. -/
def KeepParts (s : State) (csr : Table Word) (mem hostMem : List Host.Cell) (pending : List Instr) (now draws : Nat)
    (outs : List Output) (wear : Table Nat) : Prop :=
  (s.wf = true → (tblWf csrReset csr && Memory.wf mem && Memory.wf hostMem) = true) ∧ pending = s.pending ∧ s.now ≤ now ∧
    s.draws ≤ draws ∧ s.outs <:+ outs ∧ ∀ w, tblGet 0 w s.wear ≤ tblGet 0 w wear

theorem keep_iff (s t : State) :
    Keep s t ↔ KeepParts s t.csr t.mem t.hostMem t.pending t.now t.draws t.outs t.wear :=
  ⟨fun h => ⟨h.1, h.2, h.3, h.4, h.5, h.6⟩, fun h => ⟨h.1, h.2.1, h.2.2.1, h.2.2.2.1, h.2.2.2.2.1, h.2.2.2.2.2⟩⟩

/-- A state given by its parts. -/
theorem keep_mk {s : State} {csr mem pos bell ledger now ports refLost sysLost gateProg gateExact gateTern gateQ units pend inq changes punt clearTx hostMem chans tack brTx brIn loftQ wear loftBad loftWarned twin fab tally power cores
    config untested hiLatch loStage padWritten eccBad ym railPass urgentRails lateTargets engineOut noRandom answer draws outs pending}
    (h : KeepParts s csr mem hostMem pending now draws outs wear) :
    Keep s (State.mk csr mem pos bell ledger now ports refLost sysLost gateProg gateExact gateTern gateQ units pend inq changes punt clearTx hostMem chans tack brTx brIn loftQ wear loftBad loftWarned twin fab tally power cores config untested hiLatch loStage padWritten eccBad ym railPass urgentRails lateTargets engineOut noRandom answer draws outs pending) := (keep_iff _ _).2 h

theorem Keep.refl (s : State) : Keep s s :=
  ⟨id, rfl, Nat.le_refl _, Nat.le_refl _, List.suffix_refl _, fun _ => Nat.le_refl _⟩

theorem Keep.trans {s t u : State} (h : Keep s t) (g : Keep t u) : Keep s u :=
  ⟨fun x => g.1 (h.1 x), g.2.trans h.2, Nat.le_trans h.3 g.3, Nat.le_trans h.4 g.4, h.5.trans g.5,
    fun w => Nat.le_trans (h.6 w) (g.6 w)⟩

/-- A state that agrees with `t` in every part keeps what `t` keeps. -/
theorem Keep.of_parts {s t u : State} (h : Keep s t) (h1 : u.csr = t.csr) (h2 : u.mem = t.mem) (h3 : u.hostMem = t.hostMem)
    (h4 : u.pending = t.pending) (h5 : u.now = t.now) (h6 : u.draws = t.draws) (h7 : u.outs = t.outs) (h8 : u.wear = t.wear) :
    Keep s u := by
  rw [keep_iff] at h ⊢; rw [h1, h2, h3, h4, h5, h6, h7, h8]; exact h

theorem Keep.ite {s t u : State} {c : Prop} [Decidable c] (h : Keep s t) (g : Keep s u) : Keep s (if c then t else u) := by
  split <;> assumption

theorem Keep.bif {s t u : State} {c : Bool} (h : Keep s t) (g : Keep s u) : Keep s (bif c then t else u) := by
  cases c <;> assumption

theorem Keep.foldl {α : Type} {s t : State} {f : State → α → State} {l : List α} (h : Keep s t)
    (g : ∀ (u : State) (a : α), Keep s u → Keep s (f u a)) : Keep s (l.foldl f t) := by
  induction l generalizing t with
  | nil => exact h
  | cons a r ih => exact ih (g t a h)

/-- A fold that carries something beside the state. -/
theorem Keep.foldl_snd {α β : Type} {s : State} {t : β × State} {f : β × State → α → β × State} {l : List α} (h : Keep s t.2)
    (g : ∀ (u : β × State) (a : α), Keep s u.2 → Keep s (f u a).2) : Keep s (l.foldl f t).2 := by
  induction l generalizing t with
  | nil => exact h
  | cons a r ih => exact ih (g t a h)

/-- A fold that carries something beside the state. -/
theorem Keep.foldl_fst {α β : Type} {s : State} {t : State × β} {f : State × β → α → State × β} {l : List α} (h : Keep s t.1)
    (g : ∀ (u : State × β) (a : α), Keep s u.1 → Keep s (f u a).1) : Keep s (l.foldl f t).1 := by
  induction l generalizing t with
  | nil => exact h
  | cons a r ih => exact ih (g t a h)

theorem KeepNext.next {s t : State} (h : Keep s t) : KeepNext s (.next t) := h
theorem KeepNext.fault {s : State} {r : Fault} : KeepNext s (.fault r) := trivial
theorem KeepNext.refused {s : State} {r : Refusal} : KeepNext s (.refused r) := trivial

theorem KeepNext.ite {s : State} {t u : Host.Outcome State Fault Refusal} {c : Prop} [Decidable c] (h : KeepNext s t)
    (g : KeepNext s u) : KeepNext s (if c then t else u) := by
  split <;> assumption

/-! ### Registers, memory, outputs, draws -/

theorem wr_keep {s t : State} (o : Nat) (v : Word) (h : Keep s t) : Keep s (t.wr o v) := by
  refine Keep.trans h ⟨?_, rfl, Nat.le_refl _, Nat.le_refl _, List.suffix_refl _, fun _ => Nat.le_refl _⟩
  intro w
  simp only [State.wf, State.wr, Bool.and_eq_true] at w ⊢
  exact ⟨⟨tblWf_tblSet o v w.1.1, w.1.2⟩, w.2⟩

theorem setByte_keep {s t : State} (a : Nat) (v : Byte) (h : Keep s t) : Keep s (t.setByte a v) := by
  refine Keep.trans h ⟨?_, rfl, Nat.le_refl _, Nat.le_refl _, List.suffix_refl _, fun _ => Nat.le_refl _⟩
  intro w
  simp only [State.wf, State.setByte, Memory.wf, Bool.and_eq_true] at w ⊢
  exact ⟨⟨w.1.1, tblWf_tblSet a v w.1.2⟩, w.2⟩

/-- Every memory operation keeps the form: bytes taken away keep it too. -/
theorem memFilter_keep {s t : State} (p : Host.Cell → Bool) (h : Keep s t) : Keep s { t with mem := t.mem.filter p } := by
  refine Keep.trans h ⟨?_, rfl, Nat.le_refl _, Nat.le_refl _, List.suffix_refl _, fun _ => Nat.le_refl _⟩
  intro w
  simp only [State.wf, Memory.wf, Bool.and_eq_true] at w ⊢
  exact ⟨⟨w.1.1, tblWf_filter p w.1.2⟩, w.2⟩

theorem setBytes_keep {s t : State} (a : Nat) (l : List Byte) (h : Keep s t) : Keep s (t.setBytes a l) := by
  induction l generalizing a t with
  | nil => exact h
  | cons b r ih => exact ih (a + 1) (setByte_keep a b h)

theorem stLE_keep {s t : State} (a n v : Nat) (h : Keep s t) : Keep s (t.stLE a n v) := setBytes_keep a _ h
theorem setF_keep {s t : State} (f : Fld) (v : Nat) (h : Keep s t) : Keep s (t.setF f v) := wr_keep _ _ h
theorem cnt_keep {s t : State} (f : Fld) (n : Nat) (h : Keep s t) : Keep s (t.cnt f n) := setF_keep _ _ h
theorem cntSat_keep {s t : State} (f : Fld) (n : Nat) (h : Keep s t) : Keep s (t.cntSat f n) := setF_keep _ _ h
theorem cntW_keep {s t : State} (o n : Nat) (h : Keep s t) : Keep s (t.cntW o n) := wr_keep _ _ h
theorem wr64_keep {s t : State} (o : Nat) (v : DWord) (h : Keep s t) : Keep s (t.wr64 o v) := wr_keep _ _ (wr_keep _ _ h)
theorem cnt64_keep {s t : State} (o n : Nat) (h : Keep s t) : Keep s (t.cnt64 o n) := wr64_keep _ _ h

theorem emit_keep {s t : State} (o : Output) (h : Keep s t) : Keep s (t.emit o) :=
  Keep.trans h ⟨id, rfl, Nat.le_refl _, Nat.le_refl _, List.suffix_cons _ _, fun _ => Nat.le_refl _⟩

theorem draw_keep {s t : State} (h : Keep s t) : Keep s t.draw.2 :=
  Keep.trans h ⟨id, rfl, Nat.le_refl _, Nat.le_succ _, List.suffix_refl _, fun _ => Nat.le_refl _⟩

/-- Draws used up. -/
theorem draws_keep {s t : State} (n : Nat) (h : Keep s t) : Keep s { t with draws := t.draws + n } :=
  Keep.trans h ⟨id, rfl, Nat.le_refl _, Nat.le_add_right _ _, List.suffix_refl _, fun _ => Nat.le_refl _⟩

/-- Ticks that pass. -/
theorem now_keep {s t : State} (n : Nat) (h : Keep s t) : Keep s { t with now := t.now + n } :=
  Keep.trans h ⟨id, rfl, Nat.le_add_right _ _, Nat.le_refl _, List.suffix_refl _, fun _ => Nat.le_refl _⟩

/-- A byte of host memory written. -/
theorem hostSet_keep {s t : State} (a : Nat) (v : Byte) (h : Keep s t) : Keep s { t with hostMem := tblSet 0 a v t.hostMem } := by
  refine Keep.trans h ⟨?_, rfl, Nat.le_refl _, Nat.le_refl _, List.suffix_refl _, fun _ => Nat.le_refl _⟩
  intro w
  simp only [State.wf, Memory.wf, Bool.and_eq_true] at w ⊢
  exact ⟨w.1, tblWf_tblSet a v w.2⟩

/-- A word worn once more. -/
theorem wear_keep {s t : State} (w : Nat) (h : Keep s t) :
    Keep s { t with wear := tblSet 0 w (tblGet 0 w t.wear + 1) t.wear } := by
  refine Keep.trans h ⟨id, rfl, Nat.le_refl _, Nat.le_refl _, List.suffix_refl _, fun j => ?_⟩
  simp only
  rw [tblGet_tblSet _ _ _ _ _ _ (fun _ => rfl)]
  split
  · subst_vars; exact Nat.le_succ _
  · exact Nat.le_refl _

end Sys2Proof.Machine
end

