-- ==== Sys2Proof/Laws/KeepOps.lean ====
section
/-!
SUPPORT. `Keep` for what Machine/Ops.lean defines.
-/

namespace Sys2Proof.Machine

theorem setShed_keep {s0 : State} {s : State} (k v : Nat) (h0 : Keep s0 s) :
    Keep s0 (State.setShed s k v) := by
  unfold State.setShed
  repeat' (with_reducible first | assumption | refine wr64_keep _ _ ?_)

theorem countDrop_keep {s0 : State} {s : State} (cls : Nat) (h0 : Keep s0 s) :
    Keep s0 (State.countDrop s cls) := by
  unfold State.countDrop
  repeat' (with_reducible first
    | assumption | refine setF_keep _ _ ?_ | refine cntSat_keep _ _ ?_ | extract_lets | refine Keep.ite ?_ ?_ | split
    | refine keep_mk ((keep_iff _ _).1 ?_))

theorem fstateRaise_keep {s0 : State} (code hits : Nat) {s : State} (h0 : Keep s0 s) :
    Keep s0 (fstateRaise code hits s) := by
  unfold fstateRaise
  repeat' (with_reducible first | assumption | refine setF_keep _ _ ?_ | refine cntSat_keep _ _ ?_)

theorem addReport_keep {s0 : State} {s : State} (unit : Nat) (r : Report) (h0 : Keep s0 s) :
    Keep s0 (State.addReport s unit r) := by
  unfold State.addReport
  repeat' (with_reducible first
    | assumption | refine countDrop_keep _ ?_ | refine fstateRaise_keep _ _ ?_ | extract_lets | refine Keep.ite ?_ ?_
    | refine keep_mk ((keep_iff _ _).1 ?_))

theorem report_keep {s0 : State} {s : State} (unit code path : Nat) (data : Nat) (h0 : Keep s0 s) :
    Keep s0 (State.report s unit code path data) := by
  unfold State.report
  repeat' (with_reducible first | assumption | refine addReport_keep _ _ ?_)

theorem reply_keep {s0 : State} {s : State} (r : Requester) (st : BusStatus) (data : DWord) (h0 : Keep s0 s) :
    Keep s0 (State.reply s r st data) := by
  unfold State.reply
  repeat' (with_reducible first | assumption | refine keep_mk ((keep_iff _ _).1 ?_))

theorem decodeFault_keep {s0 : State} {s : State} (r : Requester) (o : Nat) (h0 : Keep s0 s) :
    Keep s0 (State.decodeFault s r o) := by
  unfold State.decodeFault
  repeat' (with_reducible first | assumption | refine setF_keep _ _ ?_ | refine cntSat_keep _ _ ?_ | refine reply_keep _ _ _ ?_)

end Sys2Proof.Machine
end

