-- ==== Sys2Proof/Laws/KeepBell.lean ====
section
/-!
SUPPORT. `Keep` for what Machine/Bell.lean defines.
-/

namespace Sys2Proof.Machine

theorem bellRefreshTarget_keep {s0 : State} (t : Nat) {s : State} (h0 : Keep s0 s) :
    Keep s0 (bellRefreshTarget t s) := by
  unfold bellRefreshTarget
  repeat' (with_reducible first
    | assumption | refine setF_keep _ _ ?_ | refine emit_keep _ ?_ | extract_lets | refine Keep.ite ?_ ?_)

theorem bellRefresh_keep {s0 : State} {s : State} (h0 : Keep s0 s) :
    Keep s0 (bellRefresh s) := by
  unfold bellRefresh
  repeat' (with_reducible first
    | assumption | refine bellRefreshTarget_keep _ ?_ | extract_lets | refine Keep.ite ?_ ?_
    | refine Keep.foldl ?_ (fun _ _ _ => ?_))

theorem bellSetPend_keep {s0 : State} (n : Nat) (v : Bool) {s : State} (h0 : Keep s0 s) :
    Keep s0 (bellSetPend n v s) := by
  unfold bellSetPend
  repeat' (with_reducible first
    | assumption | refine setF_keep _ _ ?_ | refine bellRefresh_keep ?_ | extract_lets | refine Keep.ite ?_ ?_
    | refine keep_mk ((keep_iff _ _).1 ?_))

theorem bellSetActive_keep {s0 : State} (n : Nat) (v : Bool) {s : State} (h0 : Keep s0 s) :
    Keep s0 (bellSetActive n v s) := by
  unfold bellSetActive
  repeat' (with_reducible first
    | assumption | refine setF_keep _ _ ?_ | refine bellRefresh_keep ?_ | extract_lets | refine Keep.ite ?_ ?_
    | refine keep_mk ((keep_iff _ _).1 ?_))

theorem bellLevel_keep {s0 : State} (n : Nat) {s : State} (h0 : Keep s0 s) :
    Keep s0 (bellLevel n s) := by
  unfold bellLevel
  repeat' (with_reducible first | assumption | refine bellSetPend_keep _ _ ?_ | extract_lets | refine Keep.ite ?_ ?_)

theorem bellInput_keep {s0 : State} (n : Nat) (lvl : Bool) {s : State} (h0 : Keep s0 s) :
    Keep s0 (bellInput n lvl s) := by
  unfold bellInput
  repeat' (with_reducible first
    | assumption | refine bellSetPend_keep _ _ ?_ | refine bellLevel_keep _ ?_ | extract_lets | refine Keep.ite ?_ ?_ | split
    | refine keep_mk ((keep_iff _ _).1 ?_))

theorem bellPulse_keep {s0 : State} (n : Nat) {s : State} (h0 : Keep s0 s) :
    Keep s0 (bellPulse n s) := by
  unfold bellPulse
  repeat' (with_reducible first | assumption | refine bellInput_keep _ _ ?_)

theorem execSourceEvent_keep {s0 : State} (n : Nat) (level : Bool) {s : State} (h0 : Keep s0 s) :
    KeepNext s0 (execSourceEvent n level s) := by
  unfold execSourceEvent
  repeat' (with_reducible first
    | assumption | refine bellInput_keep _ _ ?_ | refine KeepNext.next ?_ | extract_lets | refine KeepNext.ite ?_ ?_
    | refine keep_mk ((keep_iff _ _).1 ?_))

theorem bellTake_keep {s0 : State} (t : Nat) {s : State} (h0 : Keep s0 s) :
    Keep s0 (bellTake t s).2 := by
  unfold bellTake
  repeat' (with_reducible first
    | assumption | refine setF_keep _ _ ?_ | refine bellRefresh_keep ?_ | extract_lets | refine Keep.ite ?_ ?_ | split)

theorem tgtTakeAccess_keep {s0 : State} (r : Requester) (t : Nat) {s : State} (h0 : Keep s0 s) :
    Keep s0 (tgtTakeAccess r t s) := by
  unfold tgtTakeAccess
  repeat' (with_reducible first
    | assumption | refine reply_keep _ _ _ ?_ | refine decodeFault_keep _ _ ?_ | refine bellTake_keep _ ?_ | extract_lets
    | refine Keep.ite ?_ ?_ | refine keep_mk ((keep_iff _ _).1 ?_))

theorem execTgtTake_keep {s0 : State} (r : Requester) (t : Nat) {s : State} (h0 : Keep s0 s) :
    KeepNext s0 (execTgtTake r t s) := by
  unfold execTgtTake
  repeat' (with_reducible first | assumption | refine tgtTakeAccess_keep _ _ ?_ | refine KeepNext.next ?_)

theorem bellEnd_keep {s0 : State} (n : Nat) {s : State} (h0 : Keep s0 s) :
    Keep s0 (bellEnd n s) := by
  unfold bellEnd
  repeat' (with_reducible first | assumption | refine bellSetActive_keep _ _ ?_ | refine bellLevel_keep _ ?_)

theorem bellFinish_keep {s0 : State} (t n : Nat) {s : State} (h0 : Keep s0 s) :
    Keep s0 (bellFinish t n s) := by
  unfold bellFinish
  repeat' (with_reducible first
    | assumption | refine cntSat_keep _ _ ?_ | refine report_keep _ _ _ _ ?_ | refine bellEnd_keep _ ?_ | extract_lets
    | refine Keep.ite ?_ ?_)

theorem tgtFinishAccess_keep {s0 : State} (r : Requester) (t : Nat) (v : Word) {s : State} (h0 : Keep s0 s) :
    Keep s0 (tgtFinishAccess r t v s) := by
  unfold tgtFinishAccess
  repeat' (with_reducible first
    | assumption | refine emit_keep _ ?_ | refine reply_keep _ _ _ ?_ | refine decodeFault_keep _ _ ?_
    | refine bellFinish_keep _ _ ?_ | extract_lets | refine Keep.ite ?_ ?_)

theorem execTgtFinish_keep {s0 : State} (r : Requester) (t : Nat) (v : Word) {s : State} (h0 : Keep s0 s) :
    KeepNext s0 (execTgtFinish r t v s) := by
  unfold execTgtFinish
  repeat' (with_reducible first | assumption | refine tgtFinishAccess_keep _ _ _ ?_ | refine KeepNext.next ?_)

theorem bellAutoFinish_keep {s0 : State} (t : Nat) {s : State} (h0 : Keep s0 s) :
    Keep s0 (bellAutoFinish t s) := by
  unfold bellAutoFinish
  repeat' (with_reducible first
    | assumption | refine cntSat_keep _ _ ?_ | refine bellEnd_keep _ ?_ | extract_lets | refine Keep.ite ?_ ?_
    | refine Keep.foldl ?_ (fun _ _ _ => ?_))

theorem wakeRequest_keep {s0 : State} {s : State} (h0 : Keep s0 s) :
    Keep s0 (wakeRequest s) := by
  unfold wakeRequest
  repeat' (with_reducible first | assumption | refine setF_keep _ _ ?_ | refine bellPulse_keep _ ?_)

theorem bellRing_keep {s0 : State} (n : Nat) {s : State} (h0 : Keep s0 s) :
    Keep s0 (bellRing n s).2 := by
  unfold bellRing
  repeat' (with_reducible first
    | assumption | refine setF_keep _ _ ?_ | refine cntSat_keep _ _ ?_ | refine report_keep _ _ _ _ ?_
    | refine bellSetPend_keep _ _ ?_ | refine wakeRequest_keep ?_ | extract_lets | split)

theorem bellDoorbellAccess_keep {s0 : State} (r : Requester) (v : Word) {s : State} (h0 : Keep s0 s) :
    Keep s0 (bellDoorbellAccess r v s) := by
  unfold bellDoorbellAccess
  repeat' (with_reducible first
    | assumption | refine reply_keep _ _ _ ?_ | refine decodeFault_keep _ _ ?_ | refine bellRing_keep _ ?_ | extract_lets
    | refine Keep.ite ?_ ?_)

theorem execBellDoorbell_keep {s0 : State} (r : Requester) (v : Word) {s : State} (h0 : Keep s0 s) :
    KeepNext s0 (execBellDoorbell r v s) := by
  unfold execBellDoorbell
  repeat' (with_reducible first | assumption | refine bellDoorbellAccess_keep _ _ ?_ | refine KeepNext.next ?_)

theorem bellShedOn_keep {s0 : State} (k : Nat) {s : State} (h0 : Keep s0 s) :
    Keep s0 (bellShedOn k s) := by
  unfold bellShedOn
  repeat' (with_reducible first
    | assumption | refine setF_keep _ _ ?_ | refine bellSetPend_keep _ _ ?_ | extract_lets | refine Keep.ite ?_ ?_
    | refine Keep.foldl ?_ (fun _ _ _ => ?_))

theorem bellServeWaiting_keep {s0 : State} (l : List Nat) {s : State} (h0 : Keep s0 s) : Keep s0 (bellServeWaiting l s) := by
  induction l generalizing s with
  | nil => exact h0
  | cons t r ih => exact ih (reply_keep _ _ _ (bellTake_keep t h0))

theorem bellMerge_keep {s0 : State} {s : State} (h0 : Keep s0 s) :
    Keep s0 (bellMerge s) := by
  unfold bellMerge
  repeat' (with_reducible first
    | assumption | refine setF_keep _ _ ?_ | extract_lets | refine Keep.foldl ?_ (fun _ _ _ => ?_) | split
    | refine keep_mk ((keep_iff _ _).1 ?_))

theorem bellRelease_keep {s0 : State} {s : State} (h0 : Keep s0 s) :
    Keep s0 (bellRelease s) := by
  unfold bellRelease
  repeat' (with_reducible first
    | assumption | refine setF_keep _ _ ?_ | refine bellRefresh_keep ?_ | refine bellServeWaiting_keep _ ?_
    | refine bellMerge_keep ?_ | extract_lets | refine keep_mk ((keep_iff _ _).1 ?_))

theorem bellFreezeWrite_keep {s0 : State} (r : Requester) (freeze : Bool) {s : State} (h0 : Keep s0 s) :
    Keep s0 (bellFreezeWrite r freeze s) := by
  unfold bellFreezeWrite
  repeat' (with_reducible first
    | assumption | refine setF_keep _ _ ?_ | refine bellRelease_keep ?_ | extract_lets | refine Keep.ite ?_ ?_
    | refine keep_mk ((keep_iff _ _).1 ?_))

theorem execBellFreezeSet_keep {s0 : State} (r : Requester) {s : State} (h0 : Keep s0 s) :
    KeepNext s0 (execBellFreezeSet r s) := by
  unfold execBellFreezeSet
  repeat' (with_reducible first
    | assumption | refine reply_keep _ _ _ ?_ | refine bellFreezeWrite_keep _ _ ?_ | refine KeepNext.next ?_)

theorem execBellFreezeRelease_keep {s0 : State} (r : Requester) {s : State} (h0 : Keep s0 s) :
    KeepNext s0 (execBellFreezeRelease r s) := by
  unfold execBellFreezeRelease
  repeat' (with_reducible first
    | assumption | refine reply_keep _ _ _ ?_ | refine bellFreezeWrite_keep _ _ ?_ | refine KeepNext.next ?_)

theorem execBellFrzExpired_keep {s0 : State} {s : State} (h0 : Keep s0 s) :
    KeepNext s0 (execBellFrzExpired s) := by
  unfold execBellFrzExpired
  repeat' (with_reducible first
    | assumption | refine setF_keep _ _ ?_ | refine report_keep _ _ _ _ ?_ | refine bellRelease_keep ?_
    | refine KeepNext.next ?_ | extract_lets | refine KeepNext.ite ?_ ?_ | refine keep_mk ((keep_iff _ _).1 ?_))

theorem execHoldoffExpiry_keep {s0 : State} (t : Nat) {s : State} (h0 : Keep s0 s) :
    KeepNext s0 (execHoldoffExpiry t s) := by
  unfold execHoldoffExpiry
  repeat' (with_reducible first
    | assumption | refine setF_keep _ _ ?_ | refine bellRefresh_keep ?_ | refine Keep.ite ?_ ?_ | refine KeepNext.next ?_)

theorem bellAfterWrite_keep {s0 : State} (o : Nat) {s : State} (h0 : Keep s0 s) :
    Keep s0 (bellAfterWrite o s) := by
  unfold bellAfterWrite
  repeat' (with_reducible first
    | assumption | refine wr_keep _ _ ?_ | refine bellRefresh_keep ?_ | extract_lets | refine Keep.ite ?_ ?_)

theorem bellRestoreLevels_keep {s0 : State} (j : Nat) {s : State} (h0 : Keep s0 s) :
    Keep s0 (bellRestoreLevels j s) := by
  unfold bellRestoreLevels
  repeat' (with_reducible first
    | assumption | refine bellLevel_keep _ ?_ | extract_lets | refine Keep.ite ?_ ?_ | refine Keep.foldl ?_ (fun _ _ _ => ?_))

end Sys2Proof.Machine
end

