-- ==== Sys2Proof/Laws/KeepLoft.lean ====
section
/-!
SUPPORT. `Keep` for what Machine/Loft.lean defines.
-/

namespace Sys2Proof.Machine

theorem wearRefresh_keep {s0 : State} (w : Nat) {s : State} (h0 : Keep s0 s) :
    Keep s0 (wearRefresh w s) := by
  unfold wearRefresh
  repeat' (with_reducible first
    | assumption | refine setF_keep _ _ ?_ | refine wr64_keep _ _ ?_ | extract_lets | refine Keep.ite ?_ ?_)

theorem wearOne_keep {s0 : State} (w : Nat) {s : State} (h0 : Keep s0 s) : Keep s0 (wearOne w s) := by
  have h1 := wearRefresh_keep w (wear_keep w h0)
  unfold wearOne
  extract_lets c s1
  split
  · exact report_keep _ _ _ _ (setF_keep _ _ (keep_mk ((keep_iff _ _).1 h1)))
  · exact h1

theorem wearMany_keep {s0 : State} (n w : Nat) {s : State} (h0 : Keep s0 s) : Keep s0 (wearMany n w s) := by
  induction n generalizing s with
  | zero => exact h0
  | succ n ih => exact ih (wearOne_keep w h0)

theorem loftProgram_keep {s0 : State} (w : Nat) (v : DWord) {s : State} (h0 : Keep s0 s) :
    Keep s0 (loftProgram w v s) := by
  unfold loftProgram
  repeat' (with_reducible first
    | assumption | refine stLE_keep _ _ _ ?_ | refine wearOne_keep _ ?_ | extract_lets | refine keep_mk ((keep_iff _ _).1 ?_))

theorem loftStoreWords_keep {s0 : State} (w n : Nat) (l : List Byte) {s : State} (h0 : Keep s0 s) :
    Keep s0 (loftStoreWords w n l s) := by
  induction n generalizing w l s with
  | zero => exact h0
  | succ n ih => exact ih _ _ (loftProgram_keep _ _ h0)

theorem loftStore_keep {s0 : State} (o : Nat) (l : List Byte) {s : State} (h0 : Keep s0 s) :
    Keep s0 (loftStore o l s) := by
  unfold loftStore
  repeat' (with_reducible first | assumption | refine loftStoreWords_keep _ _ _ ?_)

theorem loftEnqueue_keep {s0 : State} (w : Nat) (v : DWord) (urgent : Bool) (wait : LoftWait) {s : State} (h0 : Keep s0 s) :
    Keep s0 (loftEnqueue w v urgent wait s) := by
  unfold loftEnqueue
  repeat' (with_reducible first | assumption | refine setF_keep _ _ ?_ | extract_lets | refine keep_mk ((keep_iff _ _).1 ?_))

theorem modChan_keep {s0 : State} {s : State} (n : Nat) (f : Chan → Chan) (h0 : Keep s0 s) :
    Keep s0 (State.modChan s n f) := by
  unfold State.modChan
  repeat' (with_reducible first | assumption | refine keep_mk ((keep_iff _ _).1 ?_))

theorem loftPersisted_keep {s0 : State} (x : LoftWait) {s : State} (h0 : Keep s0 s) :
    Keep s0 (loftPersisted x s) := by
  unfold loftPersisted
  repeat' (with_reducible first | assumption | refine wr64_keep _ _ ?_ | refine modChan_keep _ _ ?_ | split)

theorem loftFailed_keep {s0 : State} (e : LoftWrite) {s : State} (h0 : Keep s0 s) :
    Keep s0 (loftFailed e s) := by
  unfold loftFailed
  repeat' (with_reducible first | assumption | refine loftEnqueue_keep _ _ _ _ ?_ | split)

theorem execLoftBudgetRefill_keep {s0 : State} {s : State} (h0 : Keep s0 s) :
    KeepNext s0 (execLoftBudgetRefill s) := by
  unfold execLoftBudgetRefill
  repeat' (with_reducible first | assumption | refine setF_keep _ _ ?_ | refine KeepNext.next ?_)

theorem loftSetRate_keep {s0 : State} (r : Nat) {s : State} (h0 : Keep s0 s) :
    Keep s0 (loftSetRate r s) := by
  unfold loftSetRate
  repeat' (with_reducible first | assumption | refine setF_keep _ _ ?_)

theorem loftTake_keep {s0 : State} (n : Nat) {s : State} (h0 : Keep s0 s) {t : State} (e : loftTake n s = some t) :
    Keep s0 t := by
  unfold loftTake at e
  try dsimp only at e
  repeat' (split at e)
  all_goals first
    | (simp at e; done)
    | (obtain rfl := Option.some.inj e
       repeat' (with_reducible first | assumption | refine setF_keep _ _ ?_))

theorem budgetSeen_keep {s0 : State} (st : Nat) {s : State} (h0 : Keep s0 s) : Keep s0 (budgetSeen st s) :=
  Keep.ite (cntSat_keep _ _ h0) h0

theorem issueMark_keep {s0 : State} (n d epoch : Nat) (b : Beat) {s : State} (h0 : Keep s0 s) :
    Keep s0 (issueMark n d epoch b s) := by
  unfold issueMark
  repeat' (with_reducible first | assumption | refine loftEnqueue_keep _ _ _ _ ?_)

end Sys2Proof.Machine
end

