-- ==== Sys2Proof/Laws/KeepChan.lean ====
section
/-!
SUPPORT. `Keep` for what Machine/Chan.lean defines.
-/

namespace Sys2Proof.Machine

theorem chEvtLine_keep {s0 : State} (n : Nat) {s : State} (h0 : Keep s0 s) :
    Keep s0 (chEvtLine n s) := by
  unfold chEvtLine
  repeat' (with_reducible first | assumption | refine bellInput_keep _ _ ?_)

theorem chEvt_keep {s0 : State} (n : Nat) (f : Fld) {s : State} (h0 : Keep s0 s) :
    Keep s0 (chEvt n f s) := by
  unfold chEvt
  repeat' (with_reducible first | assumption | refine setF_keep _ _ ?_ | refine chEvtLine_keep _ ?_)

theorem refuse_keep {s0 : State} (n code : Nat) {s : State} (h0 : Keep s0 s) :
    Keep s0 (refuse n code s) := by
  unfold refuse
  repeat' (with_reducible first | assumption | refine cnt64_keep _ _ ?_)

theorem portRefuse_keep {s0 : State} (k code : Nat) {s : State} (h0 : Keep s0 s) :
    Keep s0 (portRefuse k code s) := by
  unfold portRefuse
  repeat' (with_reducible first | assumption | refine cnt64_keep _ _ ?_)

theorem outStat_keep {s0 : State} (n i k : Nat) {s : State} (h0 : Keep s0 s) :
    Keep s0 (outStat n i k s) := by
  unfold outStat
  repeat' (with_reducible first | assumption | refine cnt64_keep _ _ ?_)

theorem inStat_keep {s0 : State} (n i k : Nat) {s : State} (h0 : Keep s0 s) :
    Keep s0 (inStat n i k s) := by
  unfold inStat
  repeat' (with_reducible first | assumption | refine cnt64_keep _ _ ?_)

theorem brCnt_keep {s0 : State} (n i : Nat) {s : State} (h0 : Keep s0 s) :
    Keep s0 (brCnt n i s) := by
  unfold brCnt
  repeat' (with_reducible first | assumption | refine cnt64_keep _ _ ?_)

theorem twCnt_keep {s0 : State} (n i : Nat) {s : State} (h0 : Keep s0 s) :
    Keep s0 (twCnt n i s) := by
  unfold twCnt
  repeat' (with_reducible first | assumption | refine cnt64_keep _ _ ?_)

theorem discardUnits_keep {s0 : State} (n code : Nat) {s : State} (h0 : Keep s0 s) :
    Keep s0 (discardUnits n code s) := by
  unfold discardUnits
  repeat' (with_reducible first
    | assumption | refine refuse_keep _ _ ?_ | extract_lets | refine Keep.foldl ?_ (fun _ _ _ => ?_)
    | refine keep_mk ((keep_iff _ _).1 ?_))

theorem mutePath_keep {s0 : State} (n : Nat) (c : MuteCause) {s : State} (h0 : Keep s0 s) :
    Keep s0 (mutePath n c s) := by
  unfold mutePath
  repeat' (with_reducible first
    | assumption | refine setF_keep _ _ ?_ | refine chEvt_keep _ _ ?_ | refine discardUnits_keep _ _ ?_ | extract_lets
    | refine Keep.ite ?_ ?_ | refine keep_mk ((keep_iff _ _).1 ?_))

theorem unmutePath_keep {s0 : State} (n : Nat) (c : MuteCause) {s : State} (h0 : Keep s0 s) :
    Keep s0 (unmutePath n c s) := by
  unfold unmutePath
  repeat' (with_reducible first
    | assumption | refine setF_keep _ _ ?_ | extract_lets | refine Keep.ite ?_ ?_ | refine keep_mk ((keep_iff _ _).1 ?_))

theorem unmuteAll_keep {s0 : State} (c : MuteCause) {s : State} (h0 : Keep s0 s) :
    Keep s0 (unmuteAll c s) := by
  unfold unmuteAll
  repeat' (with_reducible first | assumption | refine unmutePath_keep _ _ ?_ | refine Keep.foldl ?_ (fun _ _ _ => ?_))

theorem muteEvery_keep {s0 : State} (c : MuteCause) {s : State} (h0 : Keep s0 s) :
    Keep s0 (muteEvery c s) := by
  unfold muteEvery
  repeat' (with_reducible first | assumption | refine mutePath_keep _ _ ?_ | refine Keep.foldl ?_ (fun _ _ _ => ?_))

theorem holdChan_keep {s0 : State} (n : Nat) {s : State} (h0 : Keep s0 s) :
    Keep s0 (holdChan n s) := by
  unfold holdChan
  repeat' (with_reducible first | assumption | refine setF_keep _ _ ?_ | refine chEvt_keep _ _ ?_ | refine Keep.ite ?_ ?_)

theorem posEvt_keep {s0 : State} (f : Fld) (src : Nat) {s : State} (h0 : Keep s0 s) :
    Keep s0 (posEvt f src s) := by
  unfold posEvt
  repeat' (with_reducible first | assumption | refine setF_keep _ _ ?_ | refine bellPulse_keep _ ?_)

theorem heldCheck_keep {s0 : State} {s : State} (h0 : Keep s0 s) :
    Keep s0 (heldCheck s) := by
  unfold heldCheck
  repeat' (with_reducible first | assumption | refine setF_keep _ _ ?_ | refine posEvt_keep _ _ ?_ | refine Keep.ite ?_ ?_)

theorem releaseHold_keep {s0 : State} (n : Nat) {s : State} (h0 : Keep s0 s) :
    Keep s0 (releaseHold n s) := by
  unfold releaseHold
  repeat' (with_reducible first | assumption | refine setF_keep _ _ ?_ | refine heldCheck_keep ?_ | refine Keep.ite ?_ ?_)

theorem chReport_keep {s0 : State} {s : State} (unit code n data : Nat) (h0 : Keep s0 s) :
    Keep s0 (State.chReport s unit code n data) := by
  unfold State.chReport
  repeat' (with_reducible first | assumption | refine report_keep _ _ _ _ ?_)

theorem hostWrite_keep {s0 : State} (a : Nat) (l : List Byte) {s : State} (h0 : Keep s0 s) : Keep s0 (hostWrite a l s) := by
  induction l generalizing a s with
  | nil => exact h0
  | cons b r ih => exact ih _ (hostSet_keep a b h0)

end Sys2Proof.Machine
end

