-- ==== Sys2Proof/Laws/KeepFabTx.lean ====
section
/-!
SUPPORT. `Keep` for what Machine/FabTx.lean defines.
-/

namespace Sys2Proof.Machine

theorem modZp_keep {s0 : State} {s : State} (z : Nat) (f : ZPort → ZPort) (h0 : Keep s0 s) :
    Keep s0 (State.modZp s z f) := by
  unfold State.modZp
  repeat' (with_reducible first | assumption | extract_lets | refine keep_mk ((keep_iff _ _).1 ?_))

theorem flitOut_keep {s0 : State} (z kind vc seq : Nat) (payload : List Byte) {s : State} (h0 : Keep s0 s) :
    Keep s0 (flitOut z kind vc seq payload s) := by
  unfold flitOut
  repeat' (with_reducible first | assumption | refine emit_keep _ ?_ | refine modZp_keep _ _ ?_)

theorem linkCtl_keep {s0 : State} (z kind : Nat) (body : List Byte) {s : State} (h0 : Keep s0 s) :
    Keep s0 (linkCtl z kind body s) := by
  unfold linkCtl
  repeat' (with_reducible first | assumption | refine flitOut_keep _ _ _ _ _ ?_)

theorem pumpOne_keep {s0 : State} (z : Nat) {s : State} (h0 : Keep s0 s) :
    Keep s0 (pumpOne z s) := by
  unfold pumpOne
  repeat' (with_reducible first
    | assumption | refine modZp_keep _ _ ?_ | refine flitOut_keep _ _ _ _ _ ?_ | extract_lets | refine Keep.ite ?_ ?_ | split)

theorem pumpMany_keep {s0 : State} (n z : Nat) {s : State} (h0 : Keep s0 s) : Keep s0 (pumpMany n z s) := by
  induction n generalizing s with
  | zero => exact h0
  | succ n ih => exact ih (pumpOne_keep z h0)

theorem pump_keep {s0 : State} (z : Nat) {s : State} (h0 : Keep s0 s) :
    Keep s0 (pump z s) := by
  unfold pump
  repeat' (with_reducible first | assumption | refine pumpMany_keep _ _ ?_ | refine Keep.ite ?_ ?_)

theorem zSend_keep {s0 : State} (z vc : Nat) (m : List Byte) {s : State} (h0 : Keep s0 s) :
    Keep s0 (zSend z vc m s) := by
  unfold zSend
  repeat' (with_reducible first | assumption | refine modZp_keep _ _ ?_ | refine pump_keep _ ?_)

theorem fabLine_keep {s0 : State} (i : Nat) {s : State} (h0 : Keep s0 s) :
    Keep s0 (fabLine i s) := by
  unfold fabLine
  repeat' (with_reducible first | assumption | refine bellInput_keep _ _ ?_)

theorem fabEvt_keep {s0 : State} (i code data : Nat) {s : State} (h0 : Keep s0 s) :
    Keep s0 (fabEvt i code data s) := by
  unfold fabEvt
  repeat' (with_reducible first
    | assumption | refine setF_keep _ _ ?_ | refine report_keep _ _ _ _ ?_ | refine fabLine_keep _ ?_ | extract_lets
    | refine Keep.ite ?_ ?_)

theorem fabSend_keep {s0 : State} (dst typ status tag addr : Nat) (body : List Byte) {s : State} (h0 : Keep s0 s) :
    Keep s0 (fabSend dst typ status tag addr body s) := by
  unfold fabSend
  repeat' (with_reducible first
    | assumption | refine zSend_keep _ _ _ ?_ | refine fabEvt_keep _ _ _ ?_ | extract_lets | refine Keep.ite ?_ ?_ | split
    | refine keep_mk ((keep_iff _ _).1 ?_))

theorem fabHop_keep {s0 : State} (z typ dst : Nat) (body : List Byte) {s : State} (h0 : Keep s0 s) :
    Keep s0 (fabHop z typ dst body s) := by
  unfold fabHop
  repeat' (with_reducible first | assumption | refine zSend_keep _ _ _ ?_)

theorem fabCast_keep {s0 : State} (skip : Option Nat) (m : List Byte) {s : State} (h0 : Keep s0 s) :
    Keep s0 (fabCast skip m s) := by
  unfold fabCast
  repeat' (with_reducible first | assumption | refine zSend_keep _ _ _ ?_ | refine Keep.foldl ?_ (fun _ _ _ => ?_))

theorem twinPut_keep {s0 : State} (rec : List Byte) {s : State} (h0 : Keep s0 s) :
    Keep s0 (twinPut rec s) := by
  unfold twinPut
  repeat' (with_reducible first
    | assumption | refine fabHop_keep _ _ _ _ ?_ | extract_lets | split | refine keep_mk ((keep_iff _ _).1 ?_))

theorem twinSend_keep {s0 : State} (rec : List Byte) {s : State} (h0 : Keep s0 s) :
    Keep s0 (twinSend rec s) := by
  unfold twinSend
  repeat' (with_reducible first
    | assumption | refine twinPut_keep _ ?_ | extract_lets | refine Keep.ite ?_ ?_ | refine Keep.foldl ?_ (fun _ _ _ => ?_)
    | split | refine keep_mk ((keep_iff _ _).1 ?_))

theorem witnessSend_keep {s0 : State} (n : Nat) (rec : List Byte) {s : State} (h0 : Keep s0 s) :
    Keep s0 (witnessSend n rec s) := by
  unfold witnessSend
  repeat' (with_reducible first | assumption | refine fabSend_keep _ _ _ _ _ _ ?_ | refine Keep.ite ?_ ?_)

theorem fabResend_keep {s0 : State} (m : List Byte) {s : State} (h0 : Keep s0 s) :
    Keep s0 (fabResend m s) := by
  unfold fabResend
  repeat' (with_reducible first
    | assumption | refine zSend_keep _ _ _ ?_ | refine fabEvt_keep _ _ _ ?_ | extract_lets | refine Keep.ite ?_ ?_ | split)

theorem zLinkDown_keep {s0 : State} (z : Nat) {s : State} (h0 : Keep s0 s) :
    Keep s0 (zLinkDown z s) := by
  unfold zLinkDown
  repeat' (with_reducible first
    | assumption | refine wr_keep _ _ ?_ | refine modZp_keep _ _ ?_ | refine fabResend_keep _ ?_ | extract_lets
    | refine Keep.foldl ?_ (fun _ _ _ => ?_))

end Sys2Proof.Machine
end

