-- ==== Sys2Proof/Laws/KeepMail.lean ====
section
/-!
SUPPORT. `Keep` for what Machine/Mail.lean defines.
-/

namespace Sys2Proof.Machine

theorem mbSignal_keep {s0 : State} (m : Nat) (en : Fld) {s : State} (h0 : Keep s0 s) :
    Keep s0 (mbSignal m en s) := by
  unfold mbSignal
  repeat' (with_reducible first | assumption | refine emit_keep _ ?_ | refine Keep.ite ?_ ?_)

theorem mbRespond_keep {s0 : State} (m op st orig tag : Nat) (data : List Byte) {s : State} (h0 : Keep s0 s) :
    Keep s0 (mbRespond m op st orig tag data s) := by
  unfold mbRespond
  repeat' (with_reducible first
    | assumption | refine setF_keep _ _ ?_ | refine setBytes_keep _ _ ?_ | refine mbSignal_keep _ _ ?_)

theorem mbDone_keep {s0 : State} (m st : Nat) (data : List Byte) {s : State} (h0 : Keep s0 s) :
    Keep s0 (mbDone m st data s) := by
  unfold mbDone
  repeat' (with_reducible first
    | assumption | refine mbRespond_keep _ _ _ _ _ _ ?_ | extract_lets | refine keep_mk ((keep_iff _ _).1 ?_))

theorem mbReject_keep {s0 : State} (m st : Nat) {s : State} (h0 : Keep s0 s) :
    Keep s0 (mbReject m st s) := by
  unfold mbReject
  repeat' (with_reducible first | assumption | refine setF_keep _ _ ?_ | refine mbSignal_keep _ _ ?_)

end Sys2Proof.Machine
end

