-- ==== Sys2Proof/Laws/KeepTack.lean ====
section
/-!
SUPPORT. `Keep` for what Machine/Tack.lean defines.
-/

namespace Sys2Proof.Machine

theorem setSlot_keep {s0 : State} {s : State} (j : Nat) (x : Slot) (h0 : Keep s0 s) :
    Keep s0 (State.setSlot s j x) := by
  unfold State.setSlot
  repeat' (with_reducible first | assumption | extract_lets | refine keep_mk ((keep_iff _ _).1 ?_))

theorem slotsRefresh_keep {s0 : State} {s : State} (h0 : Keep s0 s) :
    Keep s0 (slotsRefresh s) := by
  unfold slotsRefresh
  repeat' (with_reducible first | assumption | refine setF_keep _ _ ?_)

theorem freeSlot_keep {s0 : State} (j : Nat) {s : State} (h0 : Keep s0 s) :
    Keep s0 (freeSlot j s) := by
  unfold freeSlot
  repeat' (with_reducible first
    | assumption | refine slotsRefresh_keep ?_ | extract_lets | refine keep_mk ((keep_iff _ _).1 ?_))

theorem reapSlots_keep {s0 : State} (n : Nat) {s : State} (h0 : Keep s0 s) :
    Keep s0 (reapSlots n s) := by
  unfold reapSlots
  repeat' (with_reducible first
    | assumption | refine freeSlot_keep _ ?_ | extract_lets | refine Keep.ite ?_ ?_ | refine Keep.foldl ?_ (fun _ _ _ => ?_))

theorem setSpare_keep {s0 : State} (n : Nat) (i : Option Nat) {s : State} (h0 : Keep s0 s) :
    Keep s0 (setSpare n i s) := by
  unfold setSpare
  repeat' (with_reducible first
    | assumption | refine setF_keep _ _ ?_ | extract_lets | refine Keep.foldl ?_ (fun _ _ _ => ?_) | split)

theorem takeSpare_keep {s0 : State} {n : Nat} {s : State} (h0 : Keep s0 s) {i : Nat} {t u : State}
    (e : takeSpare n s = (some (i, t), u)) : Keep s0 t := by
  unfold takeSpare at e
  split at e
  · obtain rfl : s = t := congrArg Prod.snd (Option.some.inj (congrArg Prod.fst e))
    exact h0
  · split at e
    · rename_i j _
      obtain rfl : setSpare n (some j) s = t := congrArg Prod.snd (Option.some.inj (congrArg Prod.fst e))
      exact setSpare_keep n (some j) h0
    · simp at e

theorem takeSpare_none {s0 : State} {n : Nat} {s : State} (h0 : Keep s0 s) {u : State} (e : takeSpare n s = (none, u)) : Keep s0 u := by
  unfold takeSpare at e
  split at e
  · simp at e
  · split at e
    · simp at e
    · obtain rfl := congrArg Prod.snd e
      exact report_keep _ _ _ _ (cntSat_keep _ _ h0)

theorem keyShow_keep {s0 : State} (n d : Nat) {s : State} (h0 : Keep s0 s) :
    Keep s0 (keyShow n d s) := by
  unfold keyShow
  repeat' (with_reducible first | assumption | refine wr_keep _ _ ?_ | refine setF_keep _ _ ?_)

theorem clearCur_keep {s0 : State} (n d : Nat) {s : State} (h0 : Keep s0 s) :
    Keep s0 (clearCur n d s) := by
  unfold clearCur
  repeat' (with_reducible first | assumption | refine setF_keep _ _ ?_ | refine keyShow_keep _ _ ?_)

theorem replayClear_keep {s0 : State} (n an : Nat) {s : State} (h0 : Keep s0 s) :
    Keep s0 (replayClear n an s) := by
  unfold replayClear
  repeat' (with_reducible first
    | assumption | refine wr64_keep _ _ ?_ | refine modChan_keep _ _ ?_ | extract_lets | refine Keep.ite ?_ ?_)

theorem slotSend_keep {s0 : State} (n i role : Nat) {s : State} (h0 : Keep s0 s) :
    Keep s0 (slotSend n i role s) := by
  unfold slotSend
  repeat' (with_reducible first
    | assumption | refine modChan_keep _ _ ?_ | refine twinSend_keep _ ?_ | refine witnessSend_keep _ _ ?_ | extract_lets
    | refine Keep.ite ?_ ?_)

theorem spareToNext_keep {s0 : State} (n : Nat) {s : State} (h0 : Keep s0 s) :
    Keep s0 (spareToNext n s) := by
  unfold spareToNext
  repeat' (with_reducible first
    | assumption | refine setF_keep _ _ ?_ | refine reapSlots_keep _ ?_ | refine setSpare_keep _ _ ?_
    | refine replayClear_keep _ _ ?_ | refine slotSend_keep _ _ _ ?_ | extract_lets | refine Keep.foldl ?_ (fun _ _ _ => ?_))

theorem dropSpare_keep {s0 : State} (n : Nat) {s : State} (h0 : Keep s0 s) :
    Keep s0 (dropSpare n s) := by
  unfold dropSpare
  repeat' (with_reducible first | assumption | refine freeSlot_keep _ ?_ | refine setSpare_keep _ _ ?_ | refine Keep.ite ?_ ?_)

theorem dropNext_keep {s0 : State} (n : Nat) {s : State} (h0 : Keep s0 s) :
    Keep s0 (dropNext n s) := by
  unfold dropNext
  repeat' (with_reducible first
    | assumption | refine setF_keep _ _ ?_ | refine reapSlots_keep _ ?_ | extract_lets | refine Keep.foldl ?_ (fun _ _ _ => ?_))

theorem releaseSlots_keep {s0 : State} (n : Nat) {s : State} (h0 : Keep s0 s) :
    Keep s0 (releaseSlots n s) := by
  unfold releaseSlots
  repeat' (with_reducible first
    | assumption | refine wr_keep _ _ ?_ | refine freeSlot_keep _ ?_ | refine keyShow_keep _ _ ?_ | extract_lets
    | refine Keep.foldl ?_ (fun _ _ _ => ?_))

theorem setKek_keep {s0 : State} (k : Nat) (v : List Byte) {s : State} (h0 : Keep s0 s) :
    Keep s0 (setKek k v s) := by
  unfold setKek
  repeat' (with_reducible first | assumption | refine setF_keep _ _ ?_ | extract_lets | refine keep_mk ((keep_iff _ _).1 ?_))

theorem unwrapFailed_keep {s0 : State} {s : State} (h0 : Keep s0 s) :
    Keep s0 (unwrapFailed s) := by
  unfold unwrapFailed
  repeat' (with_reducible first | assumption | refine cntSat_keep _ _ ?_ | refine report_keep _ _ _ _ ?_)

theorem setPairing_keep {s0 : State} (p : Nat) (x : Pairing) {s : State} (h0 : Keep s0 s) :
    Keep s0 (setPairing p x s) := by
  unfold setPairing
  repeat' (with_reducible first
    | assumption | refine setF_keep _ _ ?_ | extract_lets | split | refine keep_mk ((keep_iff _ _).1 ?_))

theorem deriveKek0_keep {s0 : State} {s : State} (h0 : Keep s0 s) :
    Keep s0 (deriveKek0 s) := by
  unfold deriveKek0
  repeat' (with_reducible first | assumption | refine setF_keep _ _ ?_ | refine setKek_keep _ _ ?_)

theorem depositWrite_keep {s0 : State} (j core pos : Nat) (l : List Byte) {s : State} (h0 : Keep s0 s) :
    Keep s0 (depositWrite j core pos l s) := by
  unfold depositWrite
  repeat' (with_reducible first | assumption | extract_lets | refine keep_mk ((keep_iff _ _).1 ?_))

theorem depositCommitAccess_keep {s0 : State} (r : Requester) (j : Fin 16) (v : Word) {s : State} (h0 : Keep s0 s) :
    Keep s0 (depositCommitAccess r j v s) := by
  unfold depositCommitAccess
  repeat' (with_reducible first
    | assumption | refine reply_keep _ _ _ ?_ | refine decodeFault_keep _ _ ?_ | refine setSlot_keep _ _ ?_
    | refine slotsRefresh_keep ?_ | extract_lets | refine Keep.ite ?_ ?_ | refine keep_mk ((keep_iff _ _).1 ?_))

theorem execDepositCommit_keep {s0 : State} (r : Requester) (j : Fin 16) (v : Word) {s : State} (h0 : Keep s0 s) :
    KeepNext s0 (execDepositCommit r j v s) := by
  unfold execDepositCommit
  repeat' (with_reducible first | assumption | refine depositCommitAccess_keep _ _ _ ?_ | refine KeepNext.next ?_)

end Sys2Proof.Machine
end

