-- ==== Sys2Proof/Laws/KeepBrTx.lean ====
section
/-!
SUPPORT. `Keep` for what Machine/BrTx.lean defines.
-/

namespace Sys2Proof.Machine

theorem brReport_keep {s0 : State} (code src n data : Nat) {s : State} (h0 : Keep s0 s) :
    Keep s0 (brReport code src n data s) := by
  unfold brReport
  repeat' (with_reducible first | assumption | refine report_keep _ _ _ _ ?_ | refine bellPulse_keep _ ?_)

theorem modBr_keep {s0 : State} {s : State} (n : Nat) (f : Session → Session) (h0 : Keep s0 s) :
    Keep s0 (State.modBr s n f) := by
  unfold State.modBr
  repeat' (with_reducible first | assumption | refine modChan_keep _ _ ?_)

theorem brSend_keep {s0 : State} (n typ stream lane : Nat) (urgent : Bool) (body : List Byte) {s : State} (h0 : Keep s0 s) :
    Keep s0 (brSend n typ stream lane urgent body s) := by
  unfold brSend
  repeat' (with_reducible first
    | assumption | refine wr_keep _ _ ?_ | refine brCnt_keep _ _ ?_ | refine twinSend_keep _ ?_ | extract_lets
    | refine Keep.ite ?_ ?_ | refine keep_mk ((keep_iff _ _).1 ?_))

theorem brAnswer_keep {s0 : State} (n typ : Nat) (body : List Byte) {s : State} (h0 : Keep s0 s) :
    Keep s0 (brAnswer n typ body s) := by
  unfold brAnswer
  repeat' (with_reducible first | assumption | refine brSend_keep _ _ _ _ _ _ ?_)

theorem sendCancel_keep {s0 : State} (n epoch : Nat) (b : Beat) (reason : Nat) {s : State} (h0 : Keep s0 s) :
    Keep s0 (sendCancel n epoch b reason s) := by
  unfold sendCancel
  repeat' (with_reducible first
    | assumption | refine brCnt_keep _ _ ?_ | refine brReport_keep _ _ _ _ ?_ | refine brSend_keep _ _ _ _ _ _ ?_ | extract_lets
    | refine Keep.foldl ?_ (fun _ _ _ => ?_))

theorem sendAlarm_keep {s0 : State} (n code data : Nat) {s : State} (h0 : Keep s0 s) :
    Keep s0 (sendAlarm n code data s) := by
  unfold sendAlarm
  repeat' (with_reducible first | assumption | refine brSend_keep _ _ _ _ _ _ ?_)

end Sys2Proof.Machine
end

