-- ==== Sys2Proof/Laws/KeepEpoch.lean ====
section
/-!
SUPPORT. `Keep` for what Machine/Epoch.lean defines.
-/

namespace Sys2Proof.Machine

theorem commitT120_keep {s0 : State} {s : State} (h0 : Keep s0 s) :
    Keep s0 (commitT120 s) := by
  unfold commitT120
  repeat' (with_reducible first
    | assumption | refine wr_keep _ _ ?_ | refine setF_keep _ _ ?_ | refine wr64_keep _ _ ?_ | extract_lets | split
    | refine keep_mk ((keep_iff _ _).1 ?_))

theorem showArmed_keep {s0 : State} (n d : Nat) (w : Option Switch) {s : State} (h0 : Keep s0 s) :
    Keep s0 (showArmed n d w s) := by
  unfold showArmed
  repeat' (with_reducible first | assumption | refine wr_keep _ _ ?_ | refine setF_keep _ _ ?_ | split)

theorem armSwitch_keep {s0 : State} (n d : Nat) (w : Switch) (mark : Bool) {s : State} (h0 : Keep s0 s) :
    Keep s0 (armSwitch n d w mark s) := by
  unfold armSwitch
  repeat' (with_reducible first
    | assumption | refine modChan_keep _ _ ?_ | refine issueMark_keep _ _ _ _ ?_ | refine commitT120_keep ?_
    | refine showArmed_keep _ _ _ ?_ | extract_lets | refine Keep.ite ?_ ?_)

theorem disarmSwitch_keep {s0 : State} (n d : Nat) {s : State} (h0 : Keep s0 s) :
    Keep s0 (disarmSwitch n d s) := by
  unfold disarmSwitch
  repeat' (with_reducible first
    | assumption | refine wr64_keep _ _ ?_ | refine modChan_keep _ _ ?_ | refine commitT120_keep ?_
    | refine showArmed_keep _ _ _ ?_ | extract_lets | refine Keep.ite ?_ ?_)

theorem cancelSwitch_keep {s0 : State} (n d reason : Nat) {s : State} (h0 : Keep s0 s) :
    Keep s0 (cancelSwitch n d reason s) := by
  unfold cancelSwitch
  repeat' (with_reducible first
    | assumption | refine sendCancel_keep _ _ _ _ ?_ | refine disarmSwitch_keep _ _ ?_ | extract_lets | refine Keep.ite ?_ ?_
    | split)

theorem fixOutFrame_keep {s0 : State} (n : Nat) (b : Beat) {s : State} (h0 : Keep s0 s) :
    Keep s0 (fixOutFrame n b s) := by
  unfold fixOutFrame
  repeat' (with_reducible first
    | assumption | refine wr64_keep _ _ ?_ | refine report_keep _ _ _ _ ?_ | refine cancelSwitch_keep _ _ _ ?_ | extract_lets
    | refine Keep.ite ?_ ?_)

theorem sendSwitchAt_keep {s0 : State} (n : Nat) {s : State} (h0 : Keep s0 s) :
    Keep s0 (sendSwitchAt n s) := by
  unfold sendSwitchAt
  repeat' (with_reducible first
    | assumption | refine modChan_keep _ _ ?_ | refine brSend_keep _ _ _ _ _ _ ?_ | refine fixOutFrame_keep _ _ ?_ | split)

theorem beginSwitch_keep {s0 : State} (n epoch : Nat) (b : Beat) (host : Bool) {s : State} (h0 : Keep s0 s) :
    Keep s0 (beginSwitch n epoch b host s) := by
  unfold beginSwitch
  repeat' (with_reducible first
    | assumption | refine armSwitch_keep _ _ _ _ ?_ | refine sendSwitchAt_keep _ ?_ | extract_lets | refine Keep.ite ?_ ?_)

theorem startExchange_keep {s0 : State} (n : Nat) {s : State} (h0 : Keep s0 s) :
    Keep s0 (startExchange n s) := by
  unfold startExchange
  repeat' (with_reducible first
    | assumption | refine setF_keep _ _ ?_ | refine takeSpare_keep ?_ (by assumption) | refine takeSpare_none ?_ (by assumption)
    | refine modBr_keep _ _ ?_ | extract_lets | refine Keep.ite ?_ ?_ | split)

theorem raiseEpoch_keep {s0 : State} (n : Nat) {s : State} (h0 : Keep s0 s) :
    Keep s0 (raiseEpoch n s) := by
  unfold raiseEpoch
  repeat' (with_reducible first
    | assumption | refine report_keep _ _ _ _ ?_ | refine modChan_keep _ _ ?_ | refine Keep.ite ?_ ?_)

theorem nextTakes_keep {s0 : State} (n : Nat) {s : State} (h0 : Keep s0 s) :
    Keep s0 (nextTakes n s) := by
  unfold nextTakes
  repeat' (with_reducible first | assumption | refine setF_keep _ _ ?_ | refine modChan_keep _ _ ?_ | extract_lets | split)

theorem doSwitch_keep {s0 : State} (n d : Nat) {s : State} (h0 : Keep s0 s) :
    Keep s0 (doSwitch n d s) := by
  unfold doSwitch
  repeat' (with_reducible first
    | assumption | refine setF_keep _ _ ?_ | refine wr64_keep _ _ ?_ | refine modChan_keep _ _ ?_ | refine chEvt_keep _ _ ?_
    | refine outStat_keep _ _ _ ?_ | refine inStat_keep _ _ _ ?_ | refine releaseHold_keep _ ?_ | refine reapSlots_keep _ ?_
    | refine keyShow_keep _ _ ?_ | refine modBr_keep _ _ ?_ | refine showArmed_keep _ _ _ ?_ | refine startExchange_keep _ ?_
    | refine raiseEpoch_keep _ ?_ | refine nextTakes_keep _ ?_ | extract_lets | refine Keep.ite ?_ ?_)

theorem engineTake_keep {s0 : State} (n d : Nat) {s : State} (h0 : Keep s0 s) :
    Keep s0 (engineTake n d s) := by
  unfold engineTake
  repeat' (with_reducible first
    | assumption | refine report_keep _ _ _ _ ?_ | refine modChan_keep _ _ ?_ | refine doSwitch_keep _ _ ?_ | extract_lets
    | refine Keep.ite ?_ ?_ | split)

theorem switchEngine_keep {s0 : State} {s : State} (h0 : Keep s0 s) :
    Keep s0 (switchEngine s) := by
  unfold switchEngine
  repeat' (with_reducible first
    | assumption | refine commitT120_keep ?_ | refine engineTake_keep _ _ ?_ | extract_lets
    | refine Keep.foldl ?_ (fun _ _ _ => ?_))

theorem forcedRekey_keep {s0 : State} (n : Nat) {s : State} (h0 : Keep s0 s) :
    Keep s0 (forcedRekey n s) := by
  unfold forcedRekey
  repeat' (with_reducible first
    | assumption | refine setF_keep _ _ ?_ | refine modChan_keep _ _ ?_ | refine dropSpare_keep _ ?_ | refine dropNext_keep _ ?_
    | refine startExchange_keep _ ?_)

theorem regressChan_keep {s0 : State} (n : Nat) {s : State} (h0 : Keep s0 s) : Keep s0 (regressChan n s) := by
  have h1 := cancelSwitch_keep n 1 6 (cancelSwitch_keep n 0 6 h0)
  unfold regressChan
  dsimp only
  split
  · exact forcedRekey_keep _ (holdChan_keep _ h1)
  · split
    · exact beginSwitch_keep _ _ _ _ h1
    · exact h1

theorem regressAll_keep {s0 : State} {s : State} (h0 : Keep s0 s) :
    Keep s0 (regressAll s) := by
  unfold regressAll
  repeat' (with_reducible first
    | assumption | refine commitT120_keep ?_ | refine regressChan_keep _ ?_ | extract_lets
    | refine Keep.foldl ?_ (fun _ _ _ => ?_))

theorem brDown_keep {s0 : State} (n cond : Nat) {s : State} (h0 : Keep s0 s) :
    Keep s0 (brDown n cond s) := by
  unfold brDown
  repeat' (with_reducible first
    | assumption | refine setF_keep _ _ ?_ | refine mutePath_keep _ _ ?_ | refine dropSpare_keep _ ?_
    | refine brReport_keep _ _ _ _ ?_ | refine modBr_keep _ _ ?_ | refine disarmSwitch_keep _ _ ?_ | extract_lets
    | refine Keep.ite ?_ ?_ | refine keep_mk ((keep_iff _ _).1 ?_))

theorem keySlotLost_keep {s0 : State} (j : Nat) {s : State} (h0 : Keep s0 s) :
    Keep s0 (keySlotLost j s) := by
  unfold keySlotLost
  repeat' (with_reducible first
    | assumption | refine setF_keep _ _ ?_ | refine report_keep _ _ _ _ ?_ | refine chEvt_keep _ _ ?_
    | refine freeSlot_keep _ ?_ | refine setSpare_keep _ _ ?_ | refine clearCur_keep _ _ ?_ | refine cancelSwitch_keep _ _ _ ?_
    | refine startExchange_keep _ ?_ | extract_lets | refine Keep.ite ?_ ?_ | refine Keep.foldl ?_ (fun _ _ _ => ?_))

theorem brTagFail_keep {s0 : State} (n : Nat) {s : State} (h0 : Keep s0 s) :
    Keep s0 (brTagFail n s) := by
  unfold brTagFail
  repeat' (with_reducible first
    | assumption | refine modBr_keep _ _ ?_ | refine brDown_keep _ _ ?_ | extract_lets | refine Keep.ite ?_ ?_)

theorem execKeySlotLoad_keep {s0 : State} (j : Fin 2048) (ecc : Bool) {s : State} (h0 : Keep s0 s) :
    KeepNext s0 (execKeySlotLoad j ecc s) := by
  unfold execKeySlotLoad
  repeat' (with_reducible first
    | assumption | refine report_keep _ _ _ _ ?_ | refine chEvt_keep _ _ ?_ | refine keySlotLost_keep _ ?_
    | refine KeepNext.next ?_ | extract_lets | refine KeepNext.ite ?_ ?_ | refine keep_mk ((keep_iff _ _).1 ?_))

theorem exchangeRetry_keep {s0 : State} (n : Nat) {s : State} (h0 : Keep s0 s) :
    Keep s0 (exchangeRetry n s) := by
  unfold exchangeRetry
  repeat' (with_reducible first | assumption | refine startExchange_keep _ ?_ | refine Keep.ite ?_ ?_)

theorem execPrevKeyRelease_keep {s0 : State} (n : Fin 512) (inbound : Bool) {s : State} (h0 : Keep s0 s) :
    KeepNext s0 (execPrevKeyRelease n inbound s) := by
  unfold execPrevKeyRelease
  repeat' (with_reducible first
    | assumption | refine setF_keep _ _ ?_ | refine reapSlots_keep _ ?_ | refine exchangeRetry_keep _ ?_
    | refine KeepNext.next ?_ | extract_lets | refine KeepNext.ite ?_ ?_)

theorem execSwitchAtSend_keep {s0 : State} (n : Fin 512) {s : State} (h0 : Keep s0 s) :
    KeepNext s0 (execSwitchAtSend n s) := by
  unfold execSwitchAtSend
  repeat' (with_reducible first
    | assumption | refine sendSwitchAt_keep _ ?_ | refine beginSwitch_keep _ _ _ _ ?_ | refine KeepNext.next ?_ | extract_lets
    | refine KeepNext.ite ?_ ?_ | split)

theorem execCancelPoint_keep {s0 : State} (n : Fin 512) {s : State} (h0 : Keep s0 s) :
    KeepNext s0 (execCancelPoint n s) := by
  unfold execCancelPoint
  repeat' (with_reducible first
    | assumption | refine report_keep _ _ _ _ ?_ | refine cancelSwitch_keep _ _ _ ?_ | refine beginSwitch_keep _ _ _ _ ?_
    | refine KeepNext.next ?_ | extract_lets | refine KeepNext.ite ?_ ?_ | split)

end Sys2Proof.Machine
end

