-- ==== Sys2Proof/Laws/KeepMerge.lean ====
section
/-!
SUPPORT. `Keep` for what Machine/Merge.lean defines.
-/

namespace Sys2Proof.Machine

theorem plainOut_keep {s0 : State} (n : Nat) (f : List Byte) (stomp : Bool) {s : State} (h0 : Keep s0 s) :
    Keep s0 (plainOut n f stomp s) := by
  unfold plainOut
  repeat' (with_reducible first
    | assumption | refine emit_keep _ ?_ | refine fabSend_keep _ _ _ _ _ _ ?_ | extract_lets | refine Keep.ite ?_ ?_)

theorem releaseFrame_keep {s0 : State} (n : Nat) (f : List Byte) {s : State} (h0 : Keep s0 s) :
    Keep s0 (releaseFrame n f s) := by
  unfold releaseFrame
  repeat' (with_reducible first
    | assumption | refine modChan_keep _ _ ?_ | refine inStat_keep _ _ _ ?_ | refine plainOut_keep _ _ _ ?_)

theorem report32_keep {s0 : State} {s : State} (unit code path a b : Nat) (h0 : Keep s0 s) :
    Keep s0 (State.report32 s unit code path a b) := by
  unfold State.report32
  repeat' (with_reducible first | assumption | refine addReport_keep _ _ ?_)

theorem modTw_keep {s0 : State} {s : State} (n : Nat) (f : TwinCh → TwinCh) (h0 : Keep s0 s) :
    Keep s0 (State.modTw s n f) := by
  unfold State.modTw
  repeat' (with_reducible first | assumption | refine modChan_keep _ _ ?_)

theorem pathLive_keep {s0 : State} (n p : Nat) {s : State} (h0 : Keep s0 s) :
    Keep s0 (pathLive n p s) := by
  unfold pathLive
  repeat' (with_reducible first | assumption | refine setF_keep _ _ ?_ | refine modTw_keep _ _ ?_)

theorem pathReach_keep {s0 : State} (n p e : Nat) (a : DWord) {s : State} (h0 : Keep s0 s) :
    Keep s0 (pathReach n p e a s) := by
  unfold pathReach
  repeat' (with_reducible first | assumption | refine modTw_keep _ _ ?_)

theorem setRel_keep {s0 : State} (n e : Nat) (a : DWord) {s : State} (h0 : Keep s0 s) :
    Keep s0 (setRel n e a s) := by
  unfold setRel
  repeat' (with_reducible first | assumption | refine wr_keep _ _ ?_ | refine wr64_keep _ _ ?_)

theorem heldRefresh_keep {s0 : State} {s : State} (h0 : Keep s0 s) :
    Keep s0 (heldRefresh s) := by
  unfold heldRefresh
  repeat' (with_reducible first | assumption | refine setF_keep _ _ ?_)

theorem mergeLost_keep {s0 : State} (n k : Nat) {s : State} (h0 : Keep s0 s) :
    Keep s0 (mergeLost n k s) := by
  unfold mergeLost
  repeat' (with_reducible first
    | assumption | refine cnt64_keep _ _ ?_ | refine report_keep _ _ _ _ ?_ | refine bellPulse_keep _ ?_
    | refine Keep.ite ?_ ?_)

theorem mergeOut_keep {s0 : State} (n : Nat) (u : HeldUnit) (rel : Nat → HeldUnit → State → State) {s : State} (hrel : ∀ (y0 : Nat) (y1 : HeldUnit) (x : State), Keep s0 x → Keep s0 (rel y0 y1 x)) (h0 : Keep s0 s) :
    Keep s0 (mergeOut n u rel s) := by
  unfold mergeOut
  repeat' (with_reducible first
    | assumption | refine twCnt_keep _ _ ?_ | refine modTw_keep _ _ ?_ | refine setRel_keep _ _ _ ?_ | refine hrel _ _ _ ?_)

theorem mergeRun_keep {s0 : State} (rel : Nat → HeldUnit → State → State)
    (hrel : ∀ (n : Nat) (u : HeldUnit) (x : State), Keep s0 x → Keep s0 (rel n u x)) (n k : Nat) {s : State} (h0 : Keep s0 s) :
    Keep s0 (mergeRun rel n k s) := by
  induction k generalizing s with
  | zero => exact h0
  | succ k ih =>
    unfold mergeRun
    split
    · exact h0
    · split
      · split
        · exact ih (mergeOut_keep _ _ _ hrel (modTw_keep _ _ h0))
        · exact h0
      · split
        · exact ih (setRel_keep _ _ _ (mergeLost_keep _ _ h0))
        · exact h0

theorem mergeGo_keep {s0 : State} (rel : Nat → HeldUnit → State → State) (n : Nat) {s : State} (hrel : ∀ (y0 : Nat) (y1 : HeldUnit) (x : State), Keep s0 x → Keep s0 (rel y0 y1 x)) (h0 : Keep s0 s) :
    Keep s0 (mergeGo rel n s) := by
  unfold mergeGo
  repeat' (with_reducible first | assumption | refine heldRefresh_keep ?_ | refine mergeRun_keep _ ?_ _ _ ?_)

theorem mergeForce_keep {s0 : State} (rel : Nat → HeldUnit → State → State) (n : Nat) {s : State} (hrel : ∀ (y0 : Nat) (y1 : HeldUnit) (x : State), Keep s0 x → Keep s0 (rel y0 y1 x)) (h0 : Keep s0 s) :
    Keep s0 (mergeForce rel n s) := by
  unfold mergeForce
  repeat' (with_reducible first
    | assumption | refine setRel_keep _ _ _ ?_ | refine mergeLost_keep _ _ ?_ | refine mergeGo_keep _ _ ?_ ?_ | split)

theorem rxDiverge_keep {s0 : State} (n : Nat) (a b : BitVec 128) {s : State} (h0 : Keep s0 s) :
    Keep s0 (rxDiverge n a b s) := by
  unfold rxDiverge
  repeat' (with_reducible first
    | assumption | refine setF_keep _ _ ?_ | refine bellPulse_keep _ ?_ | refine twCnt_keep _ _ ?_
    | refine report32_keep _ _ _ _ _ ?_)

theorem mergeDup_keep {s0 : State} (n : Nat) (a b : BitVec 128) {s : State} (h0 : Keep s0 s) :
    Keep s0 (mergeDup n a b s) := by
  unfold mergeDup
  repeat' (with_reducible first
    | assumption | refine inStat_keep _ _ _ ?_ | refine rxDiverge_keep _ _ _ ?_ | extract_lets | refine Keep.ite ?_ ?_)

theorem mergeTake_keep {s0 : State} (rel : Nat → HeldUnit → State → State) (n : Nat) (u : HeldUnit) {s : State} (hrel : ∀ (y0 : Nat) (y1 : HeldUnit) (x : State), Keep s0 x → Keep s0 (rel y0 y1 x)) (h0 : Keep s0 s) :
    Keep s0 (mergeTake rel n u s) := by
  unfold mergeTake
  repeat' (with_reducible first
    | assumption | refine modTw_keep _ _ ?_ | refine pathLive_keep _ _ ?_ | refine pathReach_keep _ _ _ _ ?_
    | refine setRel_keep _ _ _ ?_ | refine mergeGo_keep _ _ ?_ ?_ | refine mergeForce_keep _ _ ?_ ?_
    | refine mergeDup_keep _ _ _ ?_ | extract_lets | refine Keep.ite ?_ ?_ | split)

end Sys2Proof.Machine
end

