-- ==== Sys2Proof/Laws/KeepBridle.lean ====
section
/-!
SUPPORT. `Keep` for what Machine/Bridle.lean defines.
-/

namespace Sys2Proof.Machine

theorem brArrive_keep {s0 : State} (n path : Nat) (m : List Byte) {s : State} (h0 : Keep s0 s) :
    Keep s0 (brArrive n path m s) := by
  unfold brArrive
  repeat' (with_reducible first
    | assumption | refine brCnt_keep _ _ ?_ | extract_lets | refine Keep.ite ?_ ?_ | refine keep_mk ((keep_iff _ _).1 ?_))

theorem brSegment_keep {s0 : State} (path : Nat) (seg : List Byte) {s : State} (h0 : Keep s0 s) :
    Keep s0 (brSegment path seg s) := by
  unfold brSegment
  extract_lets n len fl data lane1 first last b old s1 put m
  split
  · exact h0
  · have h1 : Keep s0 s1 := by
      unfold s1; split
      · exact brCnt_keep _ _ h0
      · exact h0
    have hp : ∀ v x, Keep s0 x → Keep s0 (put v x) := fun v x h => modBr_keep _ _ h
    clear_value s1 put m
    cases m with
    | none => exact h1
    | some m =>
      dsimp only
      split
      · exact brArrive_keep _ _ _ (hp _ _ h1)
      · exact hp _ _ h1

theorem brNextSegment_keep {s0 : State} (segmax : Nat) (pick : BrOut → Bool) {s : State} (h0 : Keep s0 s) {x : List Byte × State}
    (e : brNextSegment segmax pick s = some x) : Keep s0 x.2 := by
  unfold brNextSegment at e
  dsimp only at e
  generalize hi : (match s.brTx.findIdx? (fun m => pick m && decide (m.lane = 0)) with
    | some i => some i
    | none => match s.brTx.findIdx? (fun m => pick m && decide (0 < m.sent)) with
      | some i => some i
      | none => s.brTx.findIdx? pick) = i at e
  split at e
  · simp at e
  · split at e
    · simp at e
    · obtain rfl := Option.some.inj e
      exact keep_mk ((keep_iff _ _).1 h0)

theorem brTake_keep {s0 : State} (typ : Nat) {s : State} (k : BrIn → State → State) (hk : ∀ (y0 : BrIn) (x : State), Keep s0 x → Keep s0 (k y0 x)) (h0 : Keep s0 s) :
    Keep s0 (brTake typ s k) := by
  unfold brTake
  repeat' (with_reducible first
    | assumption | refine wr_keep _ _ ?_ | refine brCnt_keep _ _ ?_ | refine brReport_keep _ _ _ _ ?_ | refine modBr_keep _ _ ?_
    | refine pathLive_keep _ _ ?_ | refine hk _ _ ?_ | extract_lets | refine Keep.ite ?_ ?_ | split
    | refine keep_mk ((keep_iff _ _).1 ?_))

theorem sendHello_keep {s0 : State} (n : Nat) {s : State} (h0 : Keep s0 s) :
    Keep s0 (sendHello n s) := by
  unfold sendHello
  repeat' (with_reducible first | assumption | refine brSend_keep _ _ _ _ _ _ ?_ | extract_lets | refine Keep.ite ?_ ?_)

theorem enterSetup_keep {s0 : State} (n : Nat) {s : State} (h0 : Keep s0 s) :
    Keep s0 (enterSetup n s) := by
  unfold enterSetup
  repeat' (with_reducible first
    | assumption | refine wr_keep _ _ ?_ | refine setF_keep _ _ ?_ | refine wr64_keep _ _ ?_ | refine draw_keep ?_
    | refine modBr_keep _ _ ?_ | refine sendHello_keep _ ?_ | extract_lets | refine Keep.foldl ?_ (fun _ _ _ => ?_))

theorem execBridleSessionSetup_keep {s0 : State} (n : Fin 512) {s : State} (h0 : Keep s0 s) :
    KeepNext s0 (execBridleSessionSetup n s) := by
  unfold execBridleSessionSetup
  repeat' (with_reducible first
    | assumption | refine enterSetup_keep _ ?_ | refine KeepNext.next ?_ | refine KeepNext.ite ?_ ?_)

theorem execHelloResend_keep {s0 : State} (n : Fin 512) {s : State} (h0 : Keep s0 s) :
    KeepNext s0 (execHelloResend n s) := by
  unfold execHelloResend
  repeat' (with_reducible first | assumption | refine sendHello_keep _ ?_ | refine KeepNext.next ?_ | refine KeepNext.ite ?_ ?_)

theorem execBridleSidRollover_keep {s0 : State} (n : Fin 512) {s : State} (h0 : Keep s0 s) :
    KeepNext s0 (execBridleSidRollover n s) := by
  unfold execBridleSidRollover
  repeat' (with_reducible first
    | assumption | refine enterSetup_keep _ ?_ | refine KeepNext.next ?_ | refine KeepNext.ite ?_ ?_)

theorem enterUp_keep {s0 : State} (n : Nat) {s : State} (h0 : Keep s0 s) :
    Keep s0 (enterUp n s) := by
  unfold enterUp
  repeat' (with_reducible first
    | assumption | refine setF_keep _ _ ?_ | refine bellPulse_keep _ ?_ | refine unmutePath_keep _ _ ?_
    | refine startExchange_keep _ ?_ | extract_lets | refine Keep.ite ?_ ?_)

theorem execBridleHelloRx_keep {s0 : State} {s : State} (h0 : Keep s0 s) :
    KeepNext s0 (execBridleHelloRx s) := by
  unfold execBridleHelloRx
  repeat' (with_reducible first
    | assumption | refine wr64_keep _ _ ?_ | refine brReport_keep _ _ _ _ ?_ | refine modBr_keep _ _ ?_
    | refine brTake_keep _ _ ?_ ?_ | refine sendHello_keep _ ?_ | refine enterSetup_keep _ ?_ | refine enterUp_keep _ ?_
    | intro _ | refine KeepNext.next ?_ | extract_lets | refine Keep.ite ?_ ?_)

theorem lateAnswer_keep {s0 : State} (n stream : Nat) {s : State} (h0 : Keep s0 s) :
    Keep s0 (lateAnswer n stream s) := by
  unfold lateAnswer
  repeat' (with_reducible first
    | assumption | refine setF_keep _ _ ?_ | refine brCnt_keep _ _ ?_ | refine mutePath_keep _ _ ?_
    | refine brReport_keep _ _ _ _ ?_ | refine modBr_keep _ _ ?_ | refine brDown_keep _ _ ?_ | extract_lets
    | refine Keep.ite ?_ ?_)

theorem judgeAnswer_keep {s0 : State} (n stream r t bound : Nat) {s : State} (h0 : Keep s0 s) :
    Keep s0 (judgeAnswer n stream r t bound s) := by
  unfold judgeAnswer
  repeat' (with_reducible first
    | assumption | refine wr_keep _ _ ?_ | refine modBr_keep _ _ ?_ | refine lateAnswer_keep _ _ ?_ | extract_lets
    | refine Keep.ite ?_ ?_)

theorem execBridleProbeRx_keep {s0 : State} (turn : Nat) {s : State} (h0 : Keep s0 s) :
    KeepNext s0 (execBridleProbeRx turn s) := by
  unfold execBridleProbeRx
  repeat' (with_reducible first
    | assumption | refine wr_keep _ _ ?_ | refine brAnswer_keep _ _ _ ?_ | refine brTake_keep _ _ ?_ ?_ | intro _
    | refine KeepNext.next ?_ | extract_lets | refine Keep.ite ?_ ?_)

theorem execBridleEchoRx_keep {s0 : State} (r : Nat) {s : State} (h0 : Keep s0 s) :
    KeepNext s0 (execBridleEchoRx r s) := by
  unfold execBridleEchoRx
  repeat' (with_reducible first
    | assumption | refine modBr_keep _ _ ?_ | refine brTake_keep _ _ ?_ ?_ | refine judgeAnswer_keep _ _ _ _ _ ?_ | intro _
    | refine KeepNext.next ?_ | extract_lets | refine Keep.ite ?_ ?_)

theorem execBridleAnswerTimeout_keep {s0 : State} (n : Fin 512) {s : State} (h0 : Keep s0 s) :
    KeepNext s0 (execBridleAnswerTimeout n s) := by
  unfold execBridleAnswerTimeout
  repeat' (with_reducible first
    | assumption | refine modBr_keep _ _ ?_ | refine lateAnswer_keep _ _ ?_ | refine KeepNext.next ?_ | extract_lets
    | refine KeepNext.ite ?_ ?_ | split)

theorem execBridleSuspectClear_keep {s0 : State} (n : Fin 512) {s : State} (h0 : Keep s0 s) :
    KeepNext s0 (execBridleSuspectClear n s) := by
  unfold execBridleSuspectClear
  repeat' (with_reducible first
    | assumption | refine setF_keep _ _ ?_ | refine modBr_keep _ _ ?_ | refine KeepNext.next ?_ | extract_lets
    | refine KeepNext.ite ?_ ?_)

theorem execBridleHeartbeatRx_keep {s0 : State} {s : State} (h0 : Keep s0 s) :
    KeepNext s0 (execBridleHeartbeatRx s) := by
  unfold execBridleHeartbeatRx
  repeat' (with_reducible first
    | assumption | refine setF_keep _ _ ?_ | refine modBr_keep _ _ ?_ | refine pathLive_keep _ _ ?_
    | refine pathReach_keep _ _ _ _ ?_ | refine brTake_keep _ _ ?_ ?_ | intro _ | refine KeepNext.next ?_ | extract_lets
    | refine Keep.ite ?_ ?_)

theorem execBridleHbLoss_keep {s0 : State} (n : Fin 512) {s : State} (h0 : Keep s0 s) :
    KeepNext s0 (execBridleHbLoss n s) := by
  unfold execBridleHbLoss
  repeat' (with_reducible first
    | assumption | refine setF_keep _ _ ?_ | refine modBr_keep _ _ ?_ | refine brDown_keep _ _ ?_ | refine KeepNext.next ?_
    | extract_lets | refine KeepNext.ite ?_ ?_)

theorem execBridleHeartbeatSend_keep {s0 : State} (n : Fin 512) {s : State} (h0 : Keep s0 s) :
    KeepNext s0 (execBridleHeartbeatSend n s) := by
  unfold execBridleHeartbeatSend
  repeat' (with_reducible first
    | assumption | refine modBr_keep _ _ ?_ | refine brSend_keep _ _ _ _ _ _ ?_ | refine KeepNext.next ?_ | extract_lets
    | refine KeepNext.ite ?_ ?_)

theorem execBridleProbeSend_keep {s0 : State} (n : Fin 512) {s : State} (h0 : Keep s0 s) :
    KeepNext s0 (execBridleProbeSend n s) := by
  unfold execBridleProbeSend
  repeat' (with_reducible first
    | assumption | refine modBr_keep _ _ ?_ | refine brSend_keep _ _ _ _ _ _ ?_ | refine KeepNext.next ?_ | extract_lets
    | refine KeepNext.ite ?_ ?_)

theorem execBridlePositionSend_keep {s0 : State} (n : Fin 512) {s : State} (h0 : Keep s0 s) :
    KeepNext s0 (execBridlePositionSend n s) := by
  unfold execBridlePositionSend
  repeat' (with_reducible first
    | assumption | refine modBr_keep _ _ ?_ | refine brSend_keep _ _ _ _ _ _ ?_ | refine KeepNext.next ?_ | extract_lets
    | refine KeepNext.ite ?_ ?_)

theorem execBridlePositionRx_keep {s0 : State} {s : State} (h0 : Keep s0 s) :
    KeepNext s0 (execBridlePositionRx s) := by
  unfold execBridlePositionRx
  repeat' (with_reducible first
    | assumption | refine wr64_keep _ _ ?_ | refine modChan_keep _ _ ?_ | refine modBr_keep _ _ ?_
    | refine brTake_keep _ _ ?_ ?_ | intro _ | refine KeepNext.next ?_ | extract_lets | refine Keep.ite ?_ ?_)

theorem execBridleDigestSend_keep {s0 : State} (n : Fin 512) {s : State} (h0 : Keep s0 s) :
    KeepNext s0 (execBridleDigestSend n s) := by
  unfold execBridleDigestSend
  repeat' (with_reducible first
    | assumption | refine modBr_keep _ _ ?_ | refine brSend_keep _ _ _ _ _ _ ?_ | refine KeepNext.next ?_ | extract_lets
    | refine KeepNext.ite ?_ ?_)

theorem execBridleDigestRx_keep {s0 : State} {s : State} (h0 : Keep s0 s) :
    KeepNext s0 (execBridleDigestRx s) := by
  unfold execBridleDigestRx
  repeat' (with_reducible first
    | assumption | refine brReport_keep _ _ _ _ ?_ | refine brTake_keep _ _ ?_ ?_ | intro _ | refine KeepNext.next ?_
    | extract_lets | refine Keep.ite ?_ ?_)

theorem execBridleAlarmRx_keep {s0 : State} {s : State} (h0 : Keep s0 s) :
    KeepNext s0 (execBridleAlarmRx s) := by
  unfold execBridleAlarmRx
  repeat' (with_reducible first
    | assumption | refine setF_keep _ _ ?_ | refine brReport_keep _ _ _ _ ?_ | refine brTake_keep _ _ ?_ ?_ | intro _
    | refine KeepNext.next ?_ | extract_lets | refine Keep.ite ?_ ?_)

theorem execKemOfferSend_keep {s0 : State} (n : Fin 512) {s : State} (h0 : Keep s0 s) :
    KeepNext s0 (execKemOfferSend n s) := by
  unfold execKemOfferSend
  repeat' (with_reducible first
    | assumption | refine setF_keep _ _ ?_ | refine draw_keep ?_ | refine modBr_keep _ _ ?_ | refine brSend_keep _ _ _ _ _ _ ?_
    | refine KeepNext.next ?_ | extract_lets | refine KeepNext.ite ?_ ?_ | split)

theorem depositExchange_keep {s0 : State} (n : Nat) (x : Exch) (ss : List Byte) {s : State} (h0 : Keep s0 s) :
    Keep s0 (depositExchange n x ss s) := by
  unfold depositExchange
  repeat' (with_reducible first
    | assumption | refine setSlot_keep _ _ ?_ | refine slotsRefresh_keep ?_ | refine modBr_keep _ _ ?_
    | refine brSend_keep _ _ _ _ _ _ ?_ | extract_lets | refine keep_mk ((keep_iff _ _).1 ?_))

theorem execBridleKemOfferRx_keep {s0 : State} {s : State} (h0 : Keep s0 s) :
    KeepNext s0 (execBridleKemOfferRx s) := by
  unfold execBridleKemOfferRx
  repeat' (with_reducible first
    | assumption | refine setF_keep _ _ ?_ | refine draw_keep ?_ | refine brCnt_keep _ _ ?_
    | refine takeSpare_keep ?_ (by assumption) | refine takeSpare_none ?_ (by assumption) | refine brSend_keep _ _ _ _ _ _ ?_
    | refine brTake_keep _ _ ?_ ?_ | refine depositExchange_keep _ _ _ ?_ | intro _ | refine KeepNext.next ?_ | extract_lets
    | refine Keep.ite ?_ ?_ | split)

theorem execBridleKemAcceptRx_keep {s0 : State} {s : State} (h0 : Keep s0 s) :
    KeepNext s0 (execBridleKemAcceptRx s) := by
  unfold execBridleKemAcceptRx
  repeat' (with_reducible first
    | assumption | refine brCnt_keep _ _ ?_ | refine brTake_keep _ _ ?_ ?_ | refine depositExchange_keep _ _ _ ?_ | intro _
    | refine KeepNext.next ?_ | extract_lets | refine Keep.ite ?_ ?_ | split)

theorem attemptFailed_keep {s0 : State} (n : Nat) {s : State} (h0 : Keep s0 s) :
    Keep s0 (attemptFailed n s) := by
  unfold attemptFailed
  repeat' (with_reducible first
    | assumption | refine modBr_keep _ _ ?_ | refine brDown_keep _ _ ?_ | refine Keep.ite ?_ ?_ | split)

theorem execBridleKeyConfirmRx_keep {s0 : State} {s : State} (h0 : Keep s0 s) :
    KeepNext s0 (execBridleKeyConfirmRx s) := by
  unfold execBridleKeyConfirmRx
  repeat' (with_reducible first
    | assumption | refine setF_keep _ _ ?_ | refine brCnt_keep _ _ ?_ | refine setSlot_keep _ _ ?_ | refine setSpare_keep _ _ ?_
    | refine spareToNext_keep _ ?_ | refine brReport_keep _ _ _ _ ?_ | refine modBr_keep _ _ ?_ | refine brDown_keep _ _ ?_
    | refine brTake_keep _ _ ?_ ?_ | refine attemptFailed_keep _ ?_ | intro _ | refine KeepNext.next ?_ | extract_lets
    | refine Keep.ite ?_ ?_ | split)

theorem execKemRetryTimeout_keep {s0 : State} (n : Fin 512) {s : State} (h0 : Keep s0 s) :
    KeepNext s0 (execKemRetryTimeout n s) := by
  unfold execKemRetryTimeout
  repeat' (with_reducible first
    | assumption | refine attemptFailed_keep _ ?_ | refine KeepNext.next ?_ | extract_lets | refine KeepNext.ite ?_ ?_ | split)

theorem execBridleSwitchAtRx_keep {s0 : State} (turn : Nat) {s : State} (h0 : Keep s0 s) :
    KeepNext s0 (execBridleSwitchAtRx turn s) := by
  unfold execBridleSwitchAtRx
  repeat' (with_reducible first
    | assumption | refine wr_keep _ _ ?_ | refine wr64_keep _ _ ?_ | refine report_keep _ _ _ _ ?_ | refine brCnt_keep _ _ ?_
    | refine brReport_keep _ _ _ _ ?_ | refine brAnswer_keep _ _ _ ?_ | refine armSwitch_keep _ _ _ _ ?_
    | refine brTake_keep _ _ ?_ ?_ | intro _ | refine KeepNext.next ?_ | extract_lets | refine Keep.ite ?_ ?_ | split)

theorem execBridleSwitchAckRx_keep {s0 : State} (r : Nat) {s : State} (h0 : Keep s0 s) :
    KeepNext s0 (execBridleSwitchAckRx r s) := by
  unfold execBridleSwitchAckRx
  repeat' (with_reducible first
    | assumption | refine modChan_keep _ _ ?_ | refine modBr_keep _ _ ?_ | refine brTake_keep _ _ ?_ ?_
    | refine judgeAnswer_keep _ _ _ _ _ ?_ | intro _ | refine KeepNext.next ?_ | extract_lets | refine Keep.ite ?_ ?_ | split)

theorem execBridleSwitchCancelRx_keep {s0 : State} {s : State} (h0 : Keep s0 s) :
    KeepNext s0 (execBridleSwitchCancelRx s) := by
  unfold execBridleSwitchCancelRx
  repeat' (with_reducible first
    | assumption | refine brCnt_keep _ _ ?_ | refine brReport_keep _ _ _ _ ?_ | refine modBr_keep _ _ ?_
    | refine disarmSwitch_keep _ _ ?_ | refine brTake_keep _ _ ?_ ?_ | intro _ | refine KeepNext.next ?_ | extract_lets
    | refine Keep.ite ?_ ?_)

end Sys2Proof.Machine
end

