-- ==== Sys2Proof/Laws/KeepPosition.lean ====
section
/-!
SUPPORT. `Keep` for what Machine/Position.lean defines.
-/

namespace Sys2Proof.Machine

theorem modPos_keep {s0 : State} {s : State} (f : Pos → Pos) (h0 : Keep s0 s) :
    Keep s0 (State.modPos s f) := by
  unfold State.modPos
  repeat' (with_reducible first | assumption | refine keep_mk ((keep_iff _ _).1 ?_))

theorem posBoundary_keep {s0 : State} (b : Beat) {s : State} (h0 : Keep s0 s) :
    Keep s0 (posBoundary b s) := by
  unfold posBoundary
  repeat' (with_reducible first
    | assumption | refine wr64_keep _ _ ?_ | refine emit_keep _ ?_ | refine posEvt_keep _ _ ?_ | refine modPos_keep _ ?_
    | extract_lets | refine Keep.ite ?_ ?_ | refine keep_mk ((keep_iff _ _).1 ?_))

theorem posEnter_keep {s0 : State} (st : Nat) {s : State} (h0 : Keep s0 s) :
    Keep s0 (posEnter st s) := by
  unfold posEnter
  repeat' (with_reducible first
    | assumption | refine setF_keep _ _ ?_ | refine report_keep _ _ _ _ ?_ | refine posEvt_keep _ _ ?_ | extract_lets
    | refine Keep.ite ?_ ?_)

theorem posStep_keep {s0 : State} (v : Beat) {s : State} (h0 : Keep s0 s) :
    Keep s0 (posStep v s) := by
  unfold posStep
  repeat' (with_reducible first
    | assumption | refine cntSat_keep _ _ ?_ | refine report_keep _ _ _ _ ?_ | refine posEvt_keep _ _ ?_
    | refine posBoundary_keep _ ?_)

theorem posRegress_keep {s0 : State} (v : Beat) {s : State} (h0 : Keep s0 s) :
    Keep s0 (posRegress v s) := by
  unfold posRegress
  repeat' (with_reducible first
    | assumption | refine cntSat_keep _ _ ?_ | refine report_keep _ _ _ _ ?_ | refine regressAll_keep ?_
    | refine posBoundary_keep _ ?_ | refine posEnter_keep _ ?_ | extract_lets | refine keep_mk ((keep_iff _ _).1 ?_))

theorem posInvalid_keep {s0 : State} {s : State} (h0 : Keep s0 s) :
    Keep s0 (posInvalid s) := by
  unfold posInvalid
  repeat' (with_reducible first
    | assumption | refine report_keep _ _ _ _ ?_ | refine posEvt_keep _ _ ?_ | refine modPos_keep _ ?_ | extract_lets
    | refine Keep.ite ?_ ?_)

theorem posEstimate_keep {s0 : State} {s : State} (h0 : Keep s0 s) :
    Keep s0 (posEstimate s) := by
  unfold posEstimate
  repeat' (with_reducible first | assumption | refine wr_keep _ _ ?_ | refine modPos_keep _ ?_ | split)

theorem posSlew_keep {s0 : State} {s : State} (h0 : Keep s0 s) :
    Keep s0 (posSlew s) := by
  unfold posSlew
  repeat' (with_reducible first | assumption | refine modPos_keep _ ?_)

theorem posFollow_keep {s0 : State} (v : Beat) (period : Nat) {s : State} (h0 : Keep s0 s) :
    Keep s0 (posFollow v period s) := by
  unfold posFollow
  repeat' (with_reducible first
    | assumption | refine modPos_keep _ ?_ | refine posBoundary_keep _ ?_ | refine posEstimate_keep ?_ | refine posSlew_keep ?_)

theorem posFollowed_keep {s0 : State} (b : SrcBeat) {s : State} (h0 : Keep s0 s) :
    Keep s0 (posFollowed b s) := by
  unfold posFollowed
  repeat' (with_reducible first
    | assumption | refine modPos_keep _ ?_ | refine posStep_keep _ ?_ | refine posRegress_keep _ ?_ | refine posInvalid_keep ?_
    | refine posFollow_keep _ _ ?_ | extract_lets | refine Keep.ite ?_ ?_)

theorem posQReset_keep {s0 : State} {s : State} (h0 : Keep s0 s) :
    Keep s0 (posQReset s) := by
  unfold posQReset
  repeat' (with_reducible first | assumption | refine modPos_keep _ ?_)

theorem posTakeOver_keep {s0 : State} (b : SrcBeat) {s : State} (h0 : Keep s0 s) :
    Keep s0 (posTakeOver b s) := by
  unfold posTakeOver
  repeat' (with_reducible first
    | assumption | refine setF_keep _ _ ?_ | refine holdChan_keep _ ?_ | refine modPos_keep _ ?_ | refine posEnter_keep _ ?_
    | refine posStep_keep _ ?_ | refine posRegress_keep _ ?_ | refine posEstimate_keep ?_ | extract_lets | refine Keep.ite ?_ ?_
    | refine Keep.foldl ?_ (fun _ _ _ => ?_))

theorem posQualify_keep {s0 : State} (b : SrcBeat) {s : State} (h0 : Keep s0 s) :
    Keep s0 (posQualify b s) := by
  unfold posQualify
  repeat' (with_reducible first
    | assumption | refine modPos_keep _ ?_ | refine posInvalid_keep ?_ | refine posQReset_keep ?_ | refine posTakeOver_keep _ ?_
    | extract_lets | refine Keep.ite ?_ ?_ | split)

theorem execSourceBeatBoundary_keep {s0 : State} (background : Bool) (b : SrcBeat) {s : State} (h0 : Keep s0 s) :
    KeepNext s0 (execSourceBeatBoundary background b s) := by
  unfold execSourceBeatBoundary
  repeat' (with_reducible first
    | assumption | refine modPos_keep _ ?_ | refine posFollowed_keep _ ?_ | refine posQualify_keep _ ?_
    | refine KeepNext.next ?_ | extract_lets | refine Keep.ite ?_ ?_)

theorem execBeatWindowClose_keep {s0 : State} {s : State} (h0 : Keep s0 s) :
    KeepNext s0 (execBeatWindowClose s) := by
  unfold execBeatWindowClose
  repeat' (with_reducible first
    | assumption | refine setF_keep _ _ ?_ | refine modPos_keep _ ?_ | refine posBoundary_keep _ ?_ | refine posEnter_keep _ ?_
    | refine posInvalid_keep ?_ | refine posQReset_keep ?_ | refine KeepNext.next ?_ | extract_lets | refine KeepNext.ite ?_ ?_)

theorem execOwnBeatBoundary_keep {s0 : State} {s : State} (h0 : Keep s0 s) :
    KeepNext s0 (execOwnBeatBoundary s) := by
  unfold execOwnBeatBoundary
  repeat' (with_reducible first
    | assumption | refine posBoundary_keep _ ?_ | refine posSlew_keep ?_ | refine KeepNext.next ?_ | refine KeepNext.ite ?_ ?_)

theorem execSourceChangeover_keep {s0 : State} (b : SrcBeat) {s : State} (h0 : Keep s0 s) :
    KeepNext s0 (execSourceChangeover b s) := by
  unfold execSourceChangeover
  repeat' (with_reducible first
    | assumption | refine posTakeOver_keep _ ?_ | refine KeepNext.next ?_ | refine KeepNext.ite ?_ ?_)

theorem execHoldoverExpiry_keep {s0 : State} {s : State} (h0 : Keep s0 s) :
    KeepNext s0 (execHoldoverExpiry s) := by
  unfold execHoldoverExpiry
  repeat' (with_reducible first
    | assumption | refine setF_keep _ _ ?_ | refine modPos_keep _ ?_ | refine posEnter_keep _ ?_ | refine KeepNext.next ?_
    | refine KeepNext.ite ?_ ?_)

theorem execFreqEstimateValid_keep {s0 : State} {s : State} (h0 : Keep s0 s) :
    KeepNext s0 (execFreqEstimateValid s) := by
  unfold execFreqEstimateValid
  repeat' (with_reducible first
    | assumption | refine setF_keep _ _ ?_ | refine posEstimate_keep ?_ | refine KeepNext.next ?_ | refine KeepNext.ite ?_ ?_)

theorem posCfgWritten_keep {s0 : State} (old : PosSrc) {s : State} (h0 : Keep s0 s) :
    Keep s0 (posCfgWritten old s) := by
  unfold posCfgWritten
  repeat' (with_reducible first
    | assumption | refine setF_keep _ _ ?_ | refine modPos_keep _ ?_ | refine posQReset_keep ?_ | extract_lets
    | refine Keep.ite ?_ ?_)

theorem posSetBeat_keep {s0 : State} (v : Beat) {s : State} (h0 : Keep s0 s) :
    Keep s0 (posSetBeat v s) := by
  unfold posSetBeat
  repeat' (with_reducible first
    | assumption | refine modPos_keep _ ?_ | refine posStep_keep _ ?_ | refine posRegress_keep _ ?_ | extract_lets
    | refine Keep.ite ?_ ?_)

theorem posFreqOffset_keep {s0 : State} (ofs : Int) {s : State} (h0 : Keep s0 s) :
    Keep s0 (posFreqOffset ofs s) := by
  unfold posFreqOffset
  repeat' (with_reducible first | assumption | refine modPos_keep _ ?_)

theorem posPhaseStep_keep {s0 : State} (d : Int) {s : State} (h0 : Keep s0 s) :
    Keep s0 (posPhaseStep d s) := by
  unfold posPhaseStep
  repeat' (with_reducible first | assumption | refine modPos_keep _ ?_)

end Sys2Proof.Machine
end

