-- ==== Sys2Proof/Laws/KeepPorts.lean ====
section
/-!
SUPPORT. `Keep` for what Machine/Ports.lean defines.
-/

namespace Sys2Proof.Machine

theorem modPort_keep {s0 : State} {s : State} (k : Nat) (f : Port → Port) (h0 : Keep s0 s) :
    Keep s0 (State.modPort s k f) := by
  unfold State.modPort
  repeat' (with_reducible first | assumption | refine keep_mk ((keep_iff _ _).1 ?_))

theorem portLine_keep {s0 : State} (k : Nat) {s : State} (h0 : Keep s0 s) :
    Keep s0 (portLine k s) := by
  unfold portLine
  repeat' (with_reducible first | assumption | refine bellInput_keep _ _ ?_)

theorem portEvt_keep {s0 : State} (k bit code : Nat) {s : State} (h0 : Keep s0 s) :
    Keep s0 (portEvt k bit code s) := by
  unfold portEvt
  repeat' (with_reducible first
    | assumption | refine setF_keep _ _ ?_ | refine report_keep _ _ _ _ ?_ | refine portLine_keep _ ?_ | extract_lets
    | refine Keep.ite ?_ ?_)

theorem dropOnLine_keep {s0 : State} (k : Nat) {s : State} (h0 : Keep s0 s) :
    Keep s0 (dropOnLine k s) := by
  unfold dropOnLine
  repeat' (with_reducible first | assumption | refine keep_mk ((keep_iff _ _).1 ?_))

theorem clearLost_keep {s0 : State} (k : Nat) {s : State} (h0 : Keep s0 s) :
    Keep s0 (clearLost k s) := by
  unfold clearLost
  repeat' (with_reducible first
    | assumption | refine mbDone_keep _ _ _ ?_ | extract_lets | refine Keep.foldl ?_ (fun _ _ _ => ?_)
    | refine keep_mk ((keep_iff _ _).1 ?_))

theorem portDown_keep {s0 : State} (k : Nat) {s : State} (h0 : Keep s0 s) :
    Keep s0 (portDown k s) := by
  unfold portDown
  repeat' (with_reducible first
    | assumption | refine setF_keep _ _ ?_ | refine report_keep _ _ _ _ ?_ | refine zLinkDown_keep _ ?_
    | refine modPort_keep _ _ ?_ | refine portEvt_keep _ _ _ ?_ | refine dropOnLine_keep _ ?_ | refine clearLost_keep _ ?_
    | extract_lets | refine Keep.ite ?_ ?_)

theorem portRefresh_keep {s0 : State} (k : Nat) {s : State} (h0 : Keep s0 s) :
    Keep s0 (portRefresh k s) := by
  unfold portRefresh
  repeat' (with_reducible first
    | assumption | refine setF_keep _ _ ?_ | refine modPort_keep _ _ ?_ | refine portEvt_keep _ _ _ ?_
    | refine portDown_keep _ ?_ | extract_lets | refine Keep.ite ?_ ?_ | split)

theorem portRefreshGroup_keep {s0 : State} (g : Nat) {s : State} (h0 : Keep s0 s) :
    Keep s0 (portRefreshGroup g s) := by
  unfold portRefreshGroup
  repeat' (with_reducible first | assumption | refine portRefresh_keep _ ?_ | refine Keep.foldl ?_ (fun _ _ _ => ?_))

theorem groupMapWritten_keep {s0 : State} (g : Nat) {s : State} (h0 : Keep s0 s) :
    Keep s0 (groupMapWritten g s) := by
  unfold groupMapWritten
  repeat' (with_reducible first | assumption | refine setF_keep _ _ ?_ | refine portRefreshGroup_keep _ ?_)

theorem truncateInput_keep {s0 : State} (k m : Nat) {s : State} (h0 : Keep s0 s) :
    Keep s0 (truncateInput k m s) := by
  unfold truncateInput
  repeat' (with_reducible first
    | assumption | refine refuse_keep _ _ ?_ | extract_lets | split | refine keep_mk ((keep_iff _ _).1 ?_))

theorem truncateOpt_keep {s0 : State} (k : Nat) (cut : Option Nat) {s : State} (h0 : Keep s0 s) :
    Keep s0 (truncateOpt k cut s) := by
  unfold truncateOpt
  repeat' (with_reducible first | assumption | refine truncateInput_keep _ _ ?_ | split)

theorem portLos_keep {s0 : State} (k : Nat) (cut : Option Nat) {s : State} (h0 : Keep s0 s) :
    Keep s0 (portLos k cut s) := by
  unfold portLos
  repeat' (with_reducible first
    | assumption | refine setF_keep _ _ ?_ | refine portEvt_keep _ _ _ ?_ | refine portRefresh_keep _ ?_
    | refine truncateOpt_keep _ _ ?_)

theorem portLockLost_keep {s0 : State} (k : Nat) (cut : Option Nat) {s : State} (h0 : Keep s0 s) :
    Keep s0 (portLockLost k cut s) := by
  unfold portLockLost
  repeat' (with_reducible first
    | assumption | refine setF_keep _ _ ?_ | refine modPort_keep _ _ ?_ | refine portEvt_keep _ _ _ ?_
    | refine portRefresh_keep _ ?_ | refine truncateOpt_keep _ _ ?_ | extract_lets | refine Keep.ite ?_ ?_)

theorem execPortEnterAcquire_keep {s0 : State} (k : Fin 72) {s : State} (h0 : Keep s0 s) :
    KeepNext s0 (execPortEnterAcquire k s) := by
  unfold execPortEnterAcquire
  repeat' (with_reducible first
    | assumption | refine setF_keep _ _ ?_ | refine portRefresh_keep _ ?_ | refine KeepNext.next ?_ | extract_lets
    | refine KeepNext.ite ?_ ?_)

theorem execAnComplete_keep {s0 : State} (k : Fin 72) {s : State} (h0 : Keep s0 s) :
    KeepNext s0 (execAnComplete k s) := by
  unfold execAnComplete
  repeat' (with_reducible first | assumption | refine modPort_keep _ _ ?_ | refine KeepNext.next ?_ | refine KeepNext.ite ?_ ?_)

theorem sendInit_keep {s0 : State} (z : Nat) {s : State} (h0 : Keep s0 s) :
    Keep s0 (sendInit z s) := by
  unfold sendInit
  repeat' (with_reducible first
    | assumption | refine setF_keep _ _ ?_ | refine linkCtl_keep _ _ _ ?_ | extract_lets | refine Keep.ite ?_ ?_)

theorem execPortLockGained_keep {s0 : State} (k : Fin 72) {s : State} (h0 : Keep s0 s) :
    KeepNext s0 (execPortLockGained k s) := by
  unfold execPortLockGained
  repeat' (with_reducible first
    | assumption | refine setF_keep _ _ ?_ | refine sendInit_keep _ ?_ | refine KeepNext.next ?_ | extract_lets
    | refine KeepNext.ite ?_ ?_)

theorem partnersLost_keep {s0 : State} (k : Nat) {s : State} (h0 : Keep s0 s) :
    Keep s0 (partnersLost k s) := by
  unfold partnersLost
  repeat' (with_reducible first | assumption | refine keep_mk ((keep_iff _ _).1 ?_))

theorem execPortUpHoldExpiry_keep {s0 : State} (k : Fin 72) {s : State} (h0 : Keep s0 s) :
    KeepNext s0 (execPortUpHoldExpiry k s) := by
  unfold execPortUpHoldExpiry
  repeat' (with_reducible first
    | assumption | refine setF_keep _ _ ?_ | refine modPort_keep _ _ ?_ | refine portEvt_keep _ _ _ ?_ | refine KeepNext.next ?_
    | extract_lets | refine KeepNext.ite ?_ ?_)

theorem execPortLockRetryExpiry_keep {s0 : State} (k : Fin 72) {s : State} (h0 : Keep s0 s) :
    KeepNext s0 (execPortLockRetryExpiry k s) := by
  unfold execPortLockRetryExpiry
  repeat' (with_reducible first
    | assumption | refine modPort_keep _ _ ?_ | refine portRefresh_keep _ ?_ | refine KeepNext.next ?_)

theorem portCondition_keep {s0 : State} (k : Nat) (f : Fld) (bit code : Nat) (on : Bool) {s : State} (h0 : Keep s0 s) :
    Keep s0 (portCondition k f bit code on s) := by
  unfold portCondition
  repeat' (with_reducible first
    | assumption | refine setF_keep _ _ ?_ | refine portEvt_keep _ _ _ ?_ | extract_lets | refine Keep.ite ?_ ?_)

theorem execPortHiber_keep {s0 : State} (k : Fin 72) (on : Bool) {s : State} (h0 : Keep s0 s) :
    KeepNext s0 (execPortHiber k on s) := by
  unfold execPortHiber
  repeat' (with_reducible first | assumption | refine portCondition_keep _ _ _ _ _ ?_ | refine KeepNext.next ?_)

theorem execPortSd_keep {s0 : State} (k : Fin 72) (on : Bool) {s : State} (h0 : Keep s0 s) :
    KeepNext s0 (execPortSd k on s) := by
  unfold execPortSd
  repeat' (with_reducible first | assumption | refine portCondition_keep _ _ _ _ _ ?_ | refine KeepNext.next ?_)

theorem execPortAisRx_keep {s0 : State} (k : Fin 72) (on : Bool) {s : State} (h0 : Keep s0 s) :
    KeepNext s0 (execPortAisRx k on s) := by
  unfold execPortAisRx
  repeat' (with_reducible first | assumption | refine portCondition_keep _ _ _ _ _ ?_ | refine KeepNext.next ?_)

theorem execPortRemote_keep {s0 : State} (k : Fin 72) (on : Bool) {s : State} (h0 : Keep s0 s) :
    KeepNext s0 (execPortRemote k on s) := by
  unfold execPortRemote
  repeat' (with_reducible first | assumption | refine portCondition_keep _ _ _ _ _ ?_ | refine KeepNext.next ?_)

theorem execPortFecUncorr_keep {s0 : State} (k : Fin 72) (corrected uncorrectable : Nat) {s : State} (h0 : Keep s0 s) :
    KeepNext s0 (execPortFecUncorr k corrected uncorrectable s) := by
  unfold execPortFecUncorr
  repeat' (with_reducible first
    | assumption | refine cntSat_keep _ _ ?_ | refine cnt64_keep _ _ ?_ | refine portEvt_keep _ _ _ ?_ | refine KeepNext.next ?_
    | extract_lets | refine KeepNext.ite ?_ ?_)

theorem execPortRefclk_keep {s0 : State} (ref : Fin 4) (present : Bool) {s : State} (h0 : Keep s0 s) :
    KeepNext s0 (execPortRefclk ref present s) := by
  unfold execPortRefclk
  repeat' (with_reducible first
    | assumption | refine report_keep _ _ _ _ ?_ | refine portRefresh_keep _ ?_ | refine KeepNext.next ?_ | extract_lets
    | refine Keep.ite ?_ ?_ | refine KeepNext.ite ?_ ?_ | refine Keep.foldl ?_ (fun _ _ _ => ?_)
    | refine keep_mk ((keep_iff _ _).1 ?_))

theorem execPartnerReturn_keep {s0 : State} (k : Fin 64) {s : State} (h0 : Keep s0 s) :
    KeepNext s0 (execPartnerReturn k s) := by
  unfold execPartnerReturn
  repeat' (with_reducible first | assumption | refine modPort_keep _ _ ?_ | refine KeepNext.next ?_ | refine KeepNext.ite ?_ ?_)

end Sys2Proof.Machine
end

