-- ==== Sys2Proof/Laws/KeepGate.lean ====
section
/-!
SUPPORT. `Keep` for what Machine/Gate.lean defines.
-/

namespace Sys2Proof.Machine

theorem puntFrame_keep {s0 : State} (q why bank : Nat) (g : GateFrame) {s : State} (h0 : Keep s0 s) :
    Keep s0 (puntFrame q why bank g s) := by
  unfold puntFrame
  repeat' (with_reducible first
    | assumption | refine report_keep _ _ _ _ ?_ | refine bellPulse_keep _ ?_ | refine portRefuse_keep _ _ ?_
    | refine hostWrite_keep _ _ ?_ | extract_lets | refine Keep.ite ?_ ?_ | refine keep_mk ((keep_iff _ _).1 ?_))

theorem resvRaise_keep {s0 : State} (n : Nat) {s : State} (h0 : Keep s0 s) :
    Keep s0 (resvRaise n s) := by
  unfold resvRaise
  repeat' (with_reducible first
    | assumption | refine loftEnqueue_keep _ _ _ _ ?_ | refine modChan_keep _ _ ?_ | extract_lets | refine Keep.ite ?_ ?_)

theorem asnRisen_keep {s0 : State} (n : Nat) {s : State} (h0 : Keep s0 s) :
    Keep s0 (asnRisen n s) := by
  unfold asnRisen
  repeat' (with_reducible first
    | assumption | refine report_keep _ _ _ _ ?_ | refine modChan_keep _ _ ?_ | refine chEvt_keep _ _ ?_
    | refine startExchange_keep _ ?_ | refine resvRaise_keep _ ?_ | extract_lets | refine Keep.ite ?_ ?_)

theorem countAccept_keep {s0 : State} (n : Nat) (len : Nat) {s : State} (h0 : Keep s0 s) :
    Keep s0 (countAccept n len s) := by
  unfold countAccept
  repeat' (with_reducible first | assumption | refine outStat_keep _ _ _ ?_)

theorem sendAssign_keep {s0 : State} (u : OutUnit) {s : State} (h0 : Keep s0 s) :
    Keep s0 (sendAssign u s) := by
  unfold sendAssign
  repeat' (with_reducible first
    | assumption | refine twinSend_keep _ ?_ | refine witnessSend_keep _ _ ?_ | extract_lets
    | refine keep_mk ((keep_iff _ _).1 ?_))

theorem twinGive_keep {s0 : State} (u : OutUnit) (asn stamp : DWord) {s : State} (h0 : Keep s0 s) :
    Keep s0 (twinGive u asn stamp s) := by
  unfold twinGive
  repeat' (with_reducible first
    | assumption | refine wr64_keep _ _ ?_ | refine modTw_keep _ _ ?_ | refine asnRisen_keep _ ?_ | extract_lets
    | refine keep_mk ((keep_iff _ _).1 ?_))

theorem twinMatchList_keep {s0 : State} (n : Nat) (l : List (DWord × DWord × Nat × Nat)) {s : State} (h0 : Keep s0 s) :
    Keep s0 (twinMatchList n l s).2 := by
  induction l generalizing s with
  | nil => exact h0
  | cons x r ih =>
    unfold twinMatchList
    split
    · split
      · exact ih (twinGive_keep _ _ _ (keep_mk ((keep_iff _ _).1 h0)))
      · exact h0
    · exact ih h0

theorem twinMatch_keep {s0 : State} (n : Nat) {s : State} (h0 : Keep s0 s) :
    Keep s0 (twinMatch n s) := by
  unfold twinMatch
  repeat' (with_reducible first | assumption | refine modTw_keep _ _ ?_ | refine twinMatchList_keep _ _ ?_)

theorem accept_keep {s0 : State} (n port : Nat) (frame fcs : List Byte) {s : State} (h0 : Keep s0 s) :
    Keep s0 (accept n port frame fcs s) := by
  unfold accept
  repeat' (with_reducible first
    | assumption | refine wr64_keep _ _ ?_ | refine twCnt_keep _ _ ?_ | refine asnRisen_keep _ ?_
    | refine countAccept_keep _ _ ?_ | refine sendAssign_keep _ ?_ | refine twinGive_keep _ _ _ ?_ | refine twinMatch_keep _ ?_
    | extract_lets | refine Keep.ite ?_ ?_ | refine keep_mk ((keep_iff _ _).1 ?_))

theorem admitUnit_keep {s0 : State} (n : Nat) (port : Option Nat) (frame fcs : List Byte) {s : State} (h0 : Keep s0 s) :
    Keep s0 (admitUnit n port frame fcs s) := by
  unfold admitUnit
  repeat' (with_reducible first
    | assumption | refine report_keep _ _ _ _ ?_ | refine chEvt_keep _ _ ?_ | refine refuse_keep _ _ ?_
    | refine engineTake_keep _ _ ?_ | refine accept_keep _ _ _ _ ?_ | extract_lets | refine Keep.ite ?_ ?_)

theorem cbFilter_keep {s0 : State} {n : Nat} {f : List Byte} {s : State} (h0 : Keep s0 s) {x : Option (List Byte)} {t : State}
    (e : cbFilter n f s = (x, t)) : Keep s0 t := by
  obtain rfl : (cbFilter n f s).2 = t := congrArg Prod.snd e
  unfold cbFilter
  split
  · dsimp only
    exact modChan_keep _ _ h0
  · exact h0

theorem execCbHistoryReset_keep {s0 : State} (n : Fin 512) {s : State} (h0 : Keep s0 s) :
    KeepNext s0 (execCbHistoryReset n s) := by
  unfold execCbHistoryReset
  repeat' (with_reducible first | assumption | refine modChan_keep _ _ ?_ | refine KeepNext.next ?_)

theorem gateAssign_keep {s0 : State} (n bank : Nat) (g : GateFrame) {s : State} (h0 : Keep s0 s) :
    Keep s0 (gateAssign n bank g s) := by
  unfold gateAssign
  repeat' (with_reducible first
    | assumption | refine portRefuse_keep _ _ ?_ | refine fabSend_keep _ _ _ _ _ _ ?_ | refine admitUnit_keep _ _ _ _ ?_
    | refine cbFilter_keep ?_ (by assumption) | extract_lets | refine Keep.ite ?_ ?_ | split)

theorem gateIdentify_keep {s0 : State} (n : Nat) (g : GateFrame) {s : State} (h0 : Keep s0 s) :
    Keep s0 (gateIdentify n g s) := by
  unfold gateIdentify
  repeat' (with_reducible first | assumption | extract_lets | split | refine keep_mk ((keep_iff _ _).1 ?_))

theorem gateDivert_keep {s0 : State} (g : GateFrame) {s : State} (h0 : Keep s0 s) {t : State} (e : gateDivert g s = some t) :
    Keep s0 t := by
  unfold gateDivert at e
  dsimp only at e
  repeat' (split at e)
  all_goals first
    | (simp at e; done)
    | (obtain rfl := Option.some.inj e
       repeat' (with_reducible first | assumption | refine brSegment_keep _ _ ?_ | refine puntFrame_keep _ _ _ _ ?_))

theorem execGateRun_keep {s0 : State} (g : Fin 8) {s : State} (h0 : Keep s0 s) : KeepNext s0 (execGateRun g s) := by
  unfold execGateRun
  split
  · exact h0
  · split
    · exact h0
    · rename_i i _ _ x _
      have h1 : Keep s0 { s with gateQ := s.gateQ.eraseIdx i } := keep_mk ((keep_iff _ _).1 h0)
      extract_lets s1 bank s2 valid v
      have h2 : Keep s0 s2 := setF_keep _ _ h1
      clear_value s2 valid v
      split
      · rename_i e
        exact gateDivert_keep _ h2 e
      · repeat' (first
          | exact portRefuse_keep _ _ h2
          | exact puntFrame_keep _ _ _ _ h2
          | exact KeepNext.next (Keep.ite (gateAssign_keep _ _ _ h2) (gateIdentify_keep _ _ h2))
          | split)

theorem execPlainFrameRx_keep {s0 : State} (k : Fin 64) (bytes : List Byte) {s : State} (h0 : Keep s0 s) :
    KeepNext s0 (execPlainFrameRx k bytes s) := by
  unfold execPlainFrameRx
  repeat' (with_reducible first
    | assumption | refine portRefuse_keep _ _ ?_ | refine KeepNext.next ?_ | extract_lets | refine KeepNext.ite ?_ ?_
    | refine keep_mk ((keep_iff _ _).1 ?_))

end Sys2Proof.Machine
end

