-- ==== Sys2Proof/Laws/KeepFrame.lean ====
section
/-!
SUPPORT. `Keep` for what Machine/Frame.lean defines.
-/

namespace Sys2Proof.Machine

theorem railFault_keep {s0 : State} (n rail : Nat) {s : State} (h0 : Keep s0 s) :
    Keep s0 (railFault n rail s) := by
  unfold railFault
  repeat' (with_reducible first | assumption | refine report_keep _ _ _ _ ?_ | refine bellPulse_keep _ ?_)

theorem execRailBlockCompute_keep {s0 : State} (i : Nat) (fault : Bool) {s : State} (h0 : Keep s0 s) :
    KeepNext s0 (execRailBlockCompute i fault s) := by
  unfold execRailBlockCompute
  repeat' (with_reducible first
    | assumption | refine draw_keep ?_ | refine railFault_keep _ _ ?_ | refine KeepNext.next ?_ | extract_lets
    | refine KeepNext.ite ?_ ?_ | split | refine keep_mk ((keep_iff _ _).1 ?_))

theorem startBridle_keep {s0 : State} (c : Nat) (urgent : Bool) {s : State} (h0 : Keep s0 s) {t : State}
    (e : startBridle c urgent s = some t) : Keep s0 t := by
  unfold startBridle at e
  extract_lets at e
  split at e
  · rename_i hx
    obtain rfl := Option.some.inj e
    exact emit_keep _ (brNextSegment_keep _ _ h0 hx)
  · exact absurd e (by simp)

theorem clearSent_keep {s0 : State} (x : Nat × Nat × List Byte) {s : State} (h0 : Keep s0 s) :
    Keep s0 (clearSent x s) := by
  unfold clearSent
  repeat' (with_reducible first | assumption | refine emit_keep _ ?_ | refine mbDone_keep _ _ _ ?_)

theorem execCipherTxStart_keep {s0 : State} (c : Fin 32) {s : State} (h0 : Keep s0 s) :
    KeepNext s0 (execCipherTxStart c s) := by
  unfold execCipherTxStart
  repeat' (with_reducible first
    | assumption | refine startBridle_keep _ _ ?_ (by assumption) | refine clearSent_keep _ ?_ | refine KeepNext.next ?_
    | extract_lets | refine KeepNext.ite ?_ ?_ | split | refine keep_mk ((keep_iff _ _).1 ?_))

theorem digestAdd_keep {s0 : State} (n : Nat) (b : Beat) (rec : List Byte) {s : State} (h0 : Keep s0 s) :
    Keep s0 (digestAdd n b rec s) := by
  unfold digestAdd
  repeat' (with_reducible first | assumption | refine modTw_keep _ _ ?_ | refine Keep.ite ?_ ?_)

theorem execUnitEgressDone_keep {s0 : State} (c : Fin 32) {s : State} (h0 : Keep s0 s) :
    KeepNext s0 (execUnitEgressDone c s) := by
  unfold execUnitEgressDone
  repeat' (with_reducible first
    | assumption | refine emit_keep _ ?_ | refine outStat_keep _ _ _ ?_ | refine digestAdd_keep _ _ _ ?_
    | refine KeepNext.next ?_ | extract_lets | refine KeepNext.ite ?_ ?_ | split | refine keep_mk ((keep_iff _ _).1 ?_))

theorem replayUpdate_keep {s0 : State} (n an pn : Nat) {s : State} (h0 : Keep s0 s) :
    Keep s0 (replayUpdate n an pn s) := by
  unfold replayUpdate
  repeat' (with_reducible first | assumption | refine wr64_keep _ _ ?_ | extract_lets | refine Keep.ite ?_ ?_)

theorem pnRaise_keep {s0 : State} (n an : Nat) {s : State} (h0 : Keep s0 s) :
    Keep s0 (pnRaise n an s) := by
  unfold pnRaise
  repeat' (with_reducible first
    | assumption | refine loftEnqueue_keep _ _ _ _ ?_ | refine modChan_keep _ _ ?_ | extract_lets | refine Keep.ite ?_ ?_)

theorem inAsnRaise_keep {s0 : State} (n asn : Nat) {s : State} (h0 : Keep s0 s) :
    Keep s0 (inAsnRaise n asn s) := by
  unfold inAsnRaise
  repeat' (with_reducible first | assumption | refine wr64_keep _ _ ?_ | refine Keep.ite ?_ ?_)

theorem tagFail_keep {s0 : State} (n : Nat) {s : State} (h0 : Keep s0 s) :
    Keep s0 (tagFail n s) := by
  unfold tagFail
  repeat' (with_reducible first | assumption | refine refuse_keep _ _ ?_ | refine brTagFail_keep _ ?_)

theorem failOut_keep {s0 : State} (n epoch asn : Nat) (f : List Byte) {s : State} (h0 : Keep s0 s) :
    Keep s0 (failOut n epoch asn f s) := by
  unfold failOut
  repeat' (with_reducible first | assumption | refine plainOut_keep _ _ _ ?_ | extract_lets | refine Keep.ite ?_ ?_)

theorem passOut_keep {s0 : State} (n c epoch asn : Nat) (f icv : List Byte) {s : State} (h0 : Keep s0 s) :
    Keep s0 (passOut n c epoch asn f icv s) := by
  unfold passOut
  repeat' (with_reducible first
    | assumption | refine releaseFrame_keep _ _ ?_ | refine mergeTake_keep _ _ _ ?_ ?_ | intro _ | extract_lets
    | refine Keep.ite ?_ ?_)

theorem frameIn_keep {s0 : State} (n c : Nat) (f : List Byte) {s : State} (h0 : Keep s0 s) :
    Keep s0 (frameIn n c f s) := by
  unfold frameIn
  repeat' (with_reducible first
    | assumption | refine report_keep _ _ _ _ ?_ | refine refuse_keep _ _ ?_ | refine inStat_keep _ _ _ ?_
    | refine doSwitch_keep _ _ ?_ | refine replayUpdate_keep _ _ _ ?_ | refine pnRaise_keep _ _ ?_
    | refine inAsnRaise_keep _ _ ?_ | refine tagFail_keep _ ?_ | refine failOut_keep _ _ _ _ ?_
    | refine passOut_keep _ _ _ _ _ _ ?_ | extract_lets | refine Keep.ite ?_ ?_ | split)

end Sys2Proof.Machine
end

