-- ==== Sys2Proof/Laws/KeepTwinTx.lean ====
section
/-!
SUPPORT. `Keep` for what Machine/TwinTx.lean defines.
-/

namespace Sys2Proof.Machine

theorem contextSend_keep {s0 : State} (n : Nat) (e : Beat) {s : State} (h0 : Keep s0 s) :
    Keep s0 (contextSend n e s) := by
  unfold contextSend
  repeat' (with_reducible first | assumption | refine twinSend_keep _ ?_ | refine modTw_keep _ _ ?_)

end Sys2Proof.Machine
end

