-- ==== Sys2Proof/Laws/KeepCell.lean ====
section
/-!
SUPPORT. `Keep` for what Machine/Cell.lean defines.
-/

namespace Sys2Proof.Machine

theorem gapRefresh_keep {s0 : State} (n : Nat) {s : State} (h0 : Keep s0 s) :
    Keep s0 (gapRefresh n s) := by
  unfold gapRefresh
  repeat' (with_reducible first | assumption | refine setF_keep _ _ ?_ | extract_lets | refine Keep.ite ?_ ?_)

theorem gapRefreshPort_keep {s0 : State} (c : Nat) {s : State} (h0 : Keep s0 s) :
    Keep s0 (gapRefreshPort c s) := by
  unfold gapRefreshPort
  repeat' (with_reducible first | assumption | refine gapRefresh_keep _ ?_ | refine Keep.foldl ?_ (fun _ _ _ => ?_))

theorem cellEnWrite_keep {s0 : State} (c : Nat) (en : Bool) {s : State} (h0 : Keep s0 s) :
    Keep s0 (cellEnWrite c en s) := by
  unfold cellEnWrite
  repeat' (with_reducible first
    | assumption | refine setF_keep _ _ ?_ | refine modPort_keep _ _ ?_ | refine gapRefreshPort_keep _ ?_ | extract_lets
    | refine Keep.ite ?_ ?_)

theorem calArmWrite_keep {s0 : State} (c : Nat) (b : Beat) {s : State} (h0 : Keep s0 s) :
    Keep s0 (calArmWrite c b s) := by
  unfold calArmWrite
  repeat' (with_reducible first
    | assumption | refine setF_keep _ _ ?_ | refine report_keep _ _ _ _ ?_ | refine modPort_keep _ _ ?_ | extract_lets
    | refine Keep.ite ?_ ?_)

theorem execCalendarSwitch_keep {s0 : State} (c : Fin 32) {s : State} (h0 : Keep s0 s) :
    KeepNext s0 (execCalendarSwitch c s) := by
  unfold execCalendarSwitch
  repeat' (with_reducible first
    | assumption | refine setF_keep _ _ ?_ | refine modPort_keep _ _ ?_ | refine gapRefreshPort_keep _ ?_
    | refine KeepNext.next ?_ | extract_lets | refine KeepNext.ite ?_ ?_ | split)

theorem cellOut_keep {s0 : State} (c : Nat) (cell : List Byte) {s : State} (h0 : Keep s0 s) :
    Keep s0 (cellOut c cell s) := by
  unfold cellOut
  repeat' (with_reducible first | assumption | refine emit_keep _ ?_)

theorem emptyCell_keep {s0 : State} (c x : Nat) {s : State} (h0 : Keep s0 s) :
    Keep s0 (emptyCell c x s) := by
  unfold emptyCell
  repeat' (with_reducible first | assumption | refine cellOut_keep _ _ ?_)

theorem bridleCell_keep {s0 : State} (c x : Nat) {s : State} (h0 : Keep s0 s) :
    Keep s0 (bridleCell c x s) := by
  unfold bridleCell
  repeat' (with_reducible first
    | assumption | refine brNextSegment_keep _ _ ?_ (by assumption) | refine cellOut_keep _ _ ?_ | split)

theorem sealCell_keep {s0 : State} (n c x j : Nat) (body : List Byte) (fault : Bool) {s : State} (h0 : Keep s0 s) :
    Keep s0 (sealCell n c x j body fault s) := by
  unfold sealCell
  repeat' (with_reducible first
    | assumption | refine wr64_keep _ _ ?_ | refine draw_keep ?_ | refine railFault_keep _ _ ?_ | refine digestAdd_keep _ _ _ ?_
    | refine cellOut_keep _ _ ?_ | extract_lets | refine Keep.ite ?_ ?_)

theorem channelCell_keep {s0 : State} (n c x : Nat) (fault cut : Bool) {s : State} (h0 : Keep s0 s) :
    Keep s0 (channelCell n c x fault cut s) := by
  unfold channelCell
  repeat' (with_reducible first
    | assumption | refine wr64_keep _ _ ?_ | refine report_keep _ _ _ _ ?_ | refine modChan_keep _ _ ?_
    | refine refuse_keep _ _ ?_ | refine outStat_keep _ _ _ ?_ | refine emptyCell_keep _ _ ?_
    | refine sealCell_keep _ _ _ _ _ _ ?_ | extract_lets | refine Keep.ite ?_ ?_ | split | refine keep_mk ((keep_iff _ _).1 ?_))

theorem slotClose_keep {s0 : State} (c x : Nat) (fault cut : Bool) {s : State} (h0 : Keep s0 s) :
    Keep s0 (slotClose c x fault cut s) := by
  unfold slotClose
  repeat' (with_reducible first
    | assumption | refine emptyCell_keep _ _ ?_ | refine bridleCell_keep _ _ ?_ | refine channelCell_keep _ _ _ _ _ ?_
    | extract_lets | refine Keep.ite ?_ ?_)

theorem slotContexts_keep {s0 : State} (c x : Nat) {s : State} (h0 : Keep s0 s) :
    Keep s0 (slotContexts c x s) := by
  unfold slotContexts
  repeat' (with_reducible first | assumption | refine contextSend_keep _ _ ?_ | refine Keep.foldl ?_ (fun _ _ _ => ?_))

theorem execSlotAssemblyClose_keep {s0 : State} (c : Fin 32) (fault cut : Bool) {s : State} (h0 : Keep s0 s) :
    KeepNext s0 (execSlotAssemblyClose c fault cut s) := by
  unfold execSlotAssemblyClose
  repeat' (with_reducible first
    | assumption | refine modPort_keep _ _ ?_ | refine slotClose_keep _ _ _ _ ?_ | refine slotContexts_keep _ _ ?_
    | refine KeepNext.next ?_ | extract_lets | refine KeepNext.ite ?_ ?_)

theorem execCellWrapHold_keep {s0 : State} (n : Fin 512) {s : State} (h0 : Keep s0 s) :
    KeepNext s0 (execCellWrapHold n s) := by
  unfold execCellWrapHold
  repeat' (with_reducible first
    | assumption | refine holdChan_keep _ ?_ | refine forcedRekey_keep _ ?_ | refine KeepNext.next ?_ | extract_lets
    | refine KeepNext.ite ?_ ?_)

theorem reasmShow_keep {s0 : State} (n : Nat) {s : State} (h0 : Keep s0 s) :
    Keep s0 (reasmShow n s) := by
  unfold reasmShow
  repeat' (with_reducible first | assumption | refine wr64_keep _ _ ?_)

theorem modCell_keep {s0 : State} {s : State} (n : Nat) (f : CellCh → CellCh) (h0 : Keep s0 s) :
    Keep s0 (State.modCell s n f) := by
  unfold State.modCell
  repeat' (with_reducible first | assumption | refine modChan_keep _ _ ?_)

theorem dropReasm_keep {s0 : State} (n : Nat) {s : State} (h0 : Keep s0 s) :
    Keep s0 (dropReasm n s) := by
  unfold dropReasm
  repeat' (with_reducible first
    | assumption | refine plainOut_keep _ _ _ ?_ | refine reasmShow_keep _ ?_ | refine modCell_keep _ _ ?_ | extract_lets
    | refine Keep.ite ?_ ?_)

theorem endPiece_keep {s0 : State} (n : Nat) (abort : Bool) (p : List Byte) {s : State} (h0 : Keep s0 s) :
    Keep s0 (endPiece n abort p s) := by
  unfold endPiece
  repeat' (with_reducible first
    | assumption | refine plainOut_keep _ _ _ ?_ | refine releaseFrame_keep _ _ ?_ | refine modCell_keep _ _ ?_ | extract_lets
    | refine Keep.ite ?_ ?_)

theorem reassemble_keep {s0 : State} (n : Nat) (u : HeldUnit) {s : State} (h0 : Keep s0 s) :
    Keep s0 (reassemble n u s) := by
  unfold reassemble
  repeat' (with_reducible first
    | assumption | refine reasmShow_keep _ ?_ | refine modCell_keep _ _ ?_ | refine dropReasm_keep _ ?_
    | refine endPiece_keep _ _ _ ?_ | extract_lets | refine Keep.ite ?_ ?_)

theorem cellFail_keep {s0 : State} (n : Nat) {s : State} (h0 : Keep s0 s) :
    Keep s0 (cellFail n s) := by
  unfold cellFail
  repeat' (with_reducible first
    | assumption | refine tagFail_keep _ ?_ | refine dropReasm_keep _ ?_ | extract_lets | refine Keep.ite ?_ ?_)

theorem cellIn_keep {s0 : State} (n c : Nat) (cell : List Byte) {s : State} (h0 : Keep s0 s) :
    Keep s0 (cellIn n c cell s) := by
  unfold cellIn
  repeat' (with_reducible first
    | assumption | refine wr64_keep _ _ ?_ | refine report_keep _ _ _ _ ?_ | refine refuse_keep _ _ ?_
    | refine inStat_keep _ _ _ ?_ | refine posEvt_keep _ _ ?_ | refine doSwitch_keep _ _ ?_ | refine pathLive_keep _ _ ?_
    | refine mergeTake_keep _ _ _ ?_ ?_ | refine inAsnRaise_keep _ _ ?_ | refine modCell_keep _ _ ?_
    | refine reassemble_keep _ _ ?_ | refine cellFail_keep _ ?_ | intro _ | extract_lets | refine Keep.ite ?_ ?_ | split)

theorem cellPathsLost_keep {s0 : State} (c : Nat) {s : State} (h0 : Keep s0 s) :
    Keep s0 (cellPathsLost c s) := by
  unfold cellPathsLost
  repeat' (with_reducible first
    | assumption | refine setF_keep _ _ ?_ | refine mergeGo_keep _ _ ?_ ?_ | refine reassemble_keep _ _ ?_ | intro _
    | refine Keep.foldl ?_ (fun _ _ _ => ?_))

theorem otherPathSlot_keep {s0 : State} (n c : Nat) {s : State} (h0 : Keep s0 s) :
    Keep s0 (otherPathSlot n c s) := by
  unfold otherPathSlot
  repeat' (with_reducible first
    | assumption | refine setF_keep _ _ ?_ | refine modTw_keep _ _ ?_ | refine mergeGo_keep _ _ ?_ ?_
    | refine reassemble_keep _ _ ?_ | intro _ | extract_lets | refine Keep.ite ?_ ?_)

theorem cellDeliver_keep {s0 : State} (c : Nat) (cell : List Byte) {s : State} (h0 : Keep s0 s) :
    Keep s0 (cellDeliver c cell s) := by
  unfold cellDeliver
  repeat' (with_reducible first
    | assumption | refine cnt_keep _ _ ?_ | refine brSegment_keep _ _ ?_ | refine otherPathSlot_keep _ _ ?_ | extract_lets
    | refine Keep.ite ?_ ?_ | refine keep_mk ((keep_iff _ _).1 ?_))

theorem execCellHeaderRx_keep {s0 : State} (c : Fin 32) (cell : List Byte) {s : State} (h0 : Keep s0 s) :
    KeepNext s0 (execCellHeaderRx c cell s) := by
  unfold execCellHeaderRx
  repeat' (with_reducible first
    | assumption | refine setF_keep _ _ ?_ | refine cnt_keep _ _ ?_ | refine report_keep _ _ _ _ ?_ | refine modPort_keep _ _ ?_
    | refine cellPathsLost_keep _ ?_ | refine cellDeliver_keep _ _ ?_ | refine KeepNext.next ?_ | extract_lets
    | refine Keep.ite ?_ ?_ | refine KeepNext.ite ?_ ?_)

theorem execInboundUnitRx_keep {s0 : State} {s : State} (h0 : Keep s0 s) :
    KeepNext s0 (execInboundUnitRx s) := by
  unfold execInboundUnitRx
  repeat' (with_reducible first
    | assumption | refine portRefuse_keep _ _ ?_ | refine frameIn_keep _ _ _ ?_ | refine cellIn_keep _ _ _ ?_
    | refine KeepNext.next ?_ | extract_lets | refine Keep.ite ?_ ?_ | split | refine keep_mk ((keep_iff _ _).1 ?_))

theorem relUnit_keep {s0 : State} (s : State) (n k : Nat) (u : HeldUnit) {t : State} (h0 : Keep s0 t) :
    Keep s0 (relUnit s n k u t) := by
  unfold relUnit
  split
  · exact reassemble_keep _ _ h0
  · exact releaseFrame_keep _ _ h0

theorem execMergePathLost_keep {s0 : State} (n : Fin 512) (path2 : Bool) {s : State} (h0 : Keep s0 s) :
    KeepNext s0 (execMergePathLost n path2 s) := by
  unfold execMergePathLost
  repeat' (with_reducible first
    | assumption | refine setF_keep _ _ ?_ | refine mergeGo_keep _ _ ?_ ?_ | refine relUnit_keep _ _ _ _ ?_ | intro _
    | refine KeepNext.next ?_ | extract_lets | refine Keep.ite ?_ ?_ | refine KeepNext.ite ?_ ?_)

theorem execMergeGapTimeout_keep {s0 : State} (n : Fin 512) {s : State} (h0 : Keep s0 s) :
    KeepNext s0 (execMergeGapTimeout n s) := by
  unfold execMergeGapTimeout
  repeat' (with_reducible first
    | assumption | refine mergeForce_keep _ _ ?_ ?_ | refine relUnit_keep _ _ _ _ ?_ | intro _ | refine KeepNext.next ?_)

theorem execMergeDistrustEnd_keep {s0 : State} (n : Fin 512) {s : State} (h0 : Keep s0 s) :
    KeepNext s0 (execMergeDistrustEnd n s) := by
  unfold execMergeDistrustEnd
  repeat' (with_reducible first
    | assumption | refine setF_keep _ _ ?_ | refine mergeGo_keep _ _ ?_ ?_ | refine relUnit_keep _ _ _ _ ?_ | intro _
    | refine KeepNext.next ?_)

end Sys2Proof.Machine
end

