-- ==== Sys2Proof/Laws/KeepLayer1.lean ====
section
/-!
SUPPORT. `Keep` for what Machine/Layer1.lean defines.
-/

namespace Sys2Proof.Machine

theorem modL1_keep {s0 : State} {s : State} (n : Nat) (f : L1Ch → L1Ch) (h0 : Keep s0 s) :
    Keep s0 (State.modL1 s n f) := by
  unfold State.modL1
  repeat' (with_reducible first | assumption | refine modChan_keep _ _ ?_)

theorem modIn_keep {s0 : State} {s : State} (n p : Nat) (f : L1In → L1In) (h0 : Keep s0 s) :
    Keep s0 (State.modIn s n p f) := by
  unfold State.modIn
  repeat' (with_reducible first | assumption | refine modL1_keep _ _ ?_)

theorem l1BrByte_keep {s0 : State} (n : Nat) {s : State} (h0 : Keep s0 s) :
    Keep s0 (l1BrByte n s).2 := by
  unfold l1BrByte
  repeat' (with_reducible first
    | assumption | refine brNextSegment_keep _ _ ?_ (by assumption) | refine modL1_keep _ _ ?_ | split)

theorem l1Overhead_keep {s0 : State} (n k : Nat) {s : State} (h0 : Keep s0 s) :
    Keep s0 (l1Overhead n k s).2 := by
  unfold l1Overhead
  repeat' (with_reducible first | assumption | refine l1BrByte_keep _ ?_ | extract_lets | split)

theorem l1MfEnd_keep {s0 : State} (n : Nat) {s : State} (h0 : Keep s0 s) :
    Keep s0 (l1MfEnd n s) := by
  unfold l1MfEnd
  repeat' (with_reducible first
    | assumption | refine draw_keep ?_ | refine modTw_keep _ _ ?_ | refine modL1_keep _ _ ?_ | extract_lets
    | refine Keep.ite ?_ ?_ | split)

theorem nameFrame_keep {s0 : State} (n efn : Nat) {s : State} (h0 : Keep s0 s) :
    Keep s0 (nameFrame n efn s) := by
  unfold nameFrame
  repeat' (with_reducible first | assumption | refine twinSend_keep _ ?_ | refine witnessSend_keep _ _ ?_)

theorem l1Send_keep {s0 : State} (n mfas : Nat) (opu payload : List Byte) (fault : Bool) {s : State} (h0 : Keep s0 s) :
    Keep s0 (l1Send n mfas opu payload fault s) := by
  unfold l1Send
  extract_lets last efn period wraps armed s1 s2 s3 s4 m k key p s5 ct s6 s7 o q sent s8
  have h1 : Keep s0 s1 := by
    unfold s1; split
    · exact forcedRekey_keep _ (holdChan_keep _ h0)
    · exact h0
  clear_value s1
  have h2 : Keep s0 s2 := wr64_keep _ _ h1
  clear_value s2
  have h3 : Keep s0 s3 := by
    unfold s3; split
    · exact nameFrame_keep _ _ h2
    · exact h2
  clear_value s3
  have h4 : Keep s0 s4 := modL1_keep _ _ h3
  clear_value s4
  have h5 : Keep s0 s5 := by
    unfold s5; split
    · split
      · exact h4
      · exact modL1_keep _ _ (l1MfEnd_keep _ h4)
    · exact modL1_keep _ _ (draw_keep h4)
  clear_value s5
  have h6 : Keep s0 s6 := modL1_keep _ _ h5
  clear_value s6
  have h7 : Keep s0 s7 := by
    unfold s7
    clear_value key
    cases key with
    | some j =>
      dsimp only
      refine outStat_keep _ _ _ (outStat_keep _ _ _ (outStat_keep _ _ _ (outStat_keep _ _ _ (asnRisen_keep _ (wr64_keep _ _ ?_)))))
      split
      · exact h6
      · exact modL1_keep _ _ h6
    | none => exact h6
  clear_value s7
  have ho : Keep s0 o.2 := l1Overhead_keep _ _ h7
  clear_value o
  have hq : Keep s0 q.2 := draw_keep ho
  clear_value q
  have h8 : Keep s0 s8 := by
    unfold s8; split
    · exact railFault_keep _ _ hq
    · exact ho
  clear_value s8
  split
  · exact emit_keep _ h8
  · exact h8

theorem execL1PlainFrameRx_keep {s0 : State} (n : Fin 512) (mfas : Byte) (opu payload : List Byte) (fault : Bool) {s : State} (h0 : Keep s0 s) :
    KeepNext s0 (execL1PlainFrameRx n mfas opu payload fault s) := by
  unfold execL1PlainFrameRx
  repeat' (with_reducible first
    | assumption | refine l1Send_keep _ _ _ _ _ ?_ | refine KeepNext.next ?_ | refine KeepNext.ite ?_ ?_)

theorem execL1InputLost_keep {s0 : State} (n : Fin 512) {s : State} (h0 : Keep s0 s) :
    KeepNext s0 (execL1InputLost n s) := by
  unfold execL1InputLost
  repeat' (with_reducible first
    | assumption | refine setF_keep _ _ ?_ | refine report_keep _ _ _ _ ?_ | refine KeepNext.next ?_
    | refine KeepNext.ite ?_ ?_)

theorem execL1InputReturn_keep {s0 : State} (n : Fin 512) {s : State} (h0 : Keep s0 s) :
    KeepNext s0 (execL1InputReturn n s) := by
  unfold execL1InputReturn
  repeat' (with_reducible first | assumption | refine setF_keep _ _ ?_ | refine KeepNext.next ?_)

theorem execL1GeneratedFrame_keep {s0 : State} (n : Fin 512) (fault : Bool) {s : State} (h0 : Keep s0 s) :
    KeepNext s0 (execL1GeneratedFrame n fault s) := by
  unfold execL1GeneratedFrame
  repeat' (with_reducible first
    | assumption | refine l1Send_keep _ _ _ _ _ ?_ | refine KeepNext.next ?_ | extract_lets | refine KeepNext.ite ?_ ?_)

theorem execL1EfnWrapHold_keep {s0 : State} (n : Fin 512) {s : State} (h0 : Keep s0 s) :
    KeepNext s0 (execL1EfnWrapHold n s) := by
  unfold execL1EfnWrapHold
  repeat' (with_reducible first
    | assumption | refine holdChan_keep _ ?_ | refine forcedRekey_keep _ ?_ | refine KeepNext.next ?_ | extract_lets
    | refine KeepNext.ite ?_ ?_)

theorem l1Judge_keep {s0 : State} (n m : Nat) (pass : Bool) {s : State} (h0 : Keep s0 s) :
    Keep s0 (l1Judge n m pass s) := by
  unfold l1Judge
  repeat' (with_reducible first
    | assumption | refine setF_keep _ _ ?_ | refine cntSat_keep _ _ ?_ | refine report_keep _ _ _ _ ?_
    | refine brReport_keep _ _ _ _ ?_ | refine brDown_keep _ _ ?_ | refine tagFail_keep _ ?_ | refine modL1_keep _ _ ?_
    | extract_lets | refine Keep.ite ?_ ?_)

theorem l1Checked_keep {s0 : State} (n p m : Nat) (pass : Bool) (tag : List Byte) {s : State} (h0 : Keep s0 s) :
    Keep s0 (l1Checked n p m pass tag s) := by
  unfold l1Checked
  repeat' (with_reducible first
    | assumption | refine setF_keep _ _ ?_ | refine rxDiverge_keep _ _ _ ?_ | refine inAsnRaise_keep _ _ ?_
    | refine modIn_keep _ _ _ ?_ | refine l1Judge_keep _ _ _ ?_ | extract_lets | refine Keep.ite ?_ ?_ | split)

theorem l1CheckDue_keep {s0 : State} (n p : Nat) {s : State} (h0 : Keep s0 s) :
    Keep s0 (l1CheckDue n p s) := by
  unfold l1CheckDue
  repeat' (with_reducible first
    | assumption | refine modIn_keep _ _ _ ?_ | refine l1Checked_keep _ _ _ _ _ ?_ | extract_lets | split)

theorem l1MfStep_keep {s0 : State} (n p m : Nat) (k : Nat) (key : Option Nat) {s : State} (h0 : Keep s0 s) :
    Keep s0 (l1MfStep n p m k key s) := by
  unfold l1MfStep
  repeat' (with_reducible first
    | assumption | refine modL1_keep _ _ ?_ | refine modIn_keep _ _ _ ?_ | refine l1CheckDue_keep _ _ ?_ | extract_lets
    | refine Keep.ite ?_ ?_ | split)

theorem l1BrIn_keep {s0 : State} (n p : Nat) (b : Byte) {s : State} (h0 : Keep s0 s) :
    Keep s0 (l1BrIn n p b s) := by
  unfold l1BrIn
  repeat' (with_reducible first
    | assumption | refine brSegment_keep _ _ ?_ | refine modIn_keep _ _ _ ?_ | extract_lets | refine Keep.ite ?_ ?_)

theorem sfShow_keep {s0 : State} (n p : Nat) {s : State} (h0 : Keep s0 s) :
    Keep s0 (sfShow n p s) := by
  unfold sfShow
  repeat' (with_reducible first | assumption | refine setF_keep _ _ ?_ | refine Keep.ite ?_ ?_)

theorem sfStep_keep {s0 : State} (n p : Nat) (oh : List Byte) {s : State} (h0 : Keep s0 s) :
    Keep s0 (sfStep n p oh s).2 := by
  unfold sfStep
  repeat' (with_reducible first
    | assumption | refine report_keep _ _ _ _ ?_ | refine modIn_keep _ _ _ ?_ | refine sfShow_keep _ _ ?_ | extract_lets
    | split)

theorem l1Out_keep {s0 : State} (n efn : Nat) (ais : Bool) (opu payload : List Byte) {s : State} (h0 : Keep s0 s) :
    Keep s0 (l1Out n efn ais opu payload s) := by
  unfold l1Out
  repeat' (with_reducible first
    | assumption | refine emit_keep _ ?_ | refine inStat_keep _ _ _ ?_ | extract_lets | refine Keep.ite ?_ ?_)

theorem l1MergeGo_keep {s0 : State} (n : Nat) {s : State} (h0 : Keep s0 s) :
    Keep s0 (l1MergeGo n s) := by
  unfold l1MergeGo
  repeat' (with_reducible first
    | assumption | refine modTw_keep _ _ ?_ | refine heldRefresh_keep ?_ | refine modL1_keep _ _ ?_
    | refine l1Out_keep _ _ _ _ _ ?_ | extract_lets | refine Keep.ite ?_ ?_ | refine Keep.foldl ?_ (fun _ _ _ => ?_))

theorem l1Release_keep {s0 : State} (n p efn : Nat) (ais : Bool) (opu payload : List Byte) {s : State} (h0 : Keep s0 s) :
    Keep s0 (l1Release n p efn ais opu payload s) := by
  unfold l1Release
  repeat' (with_reducible first
    | assumption | refine modTw_keep _ _ ?_ | refine l1Out_keep _ _ _ _ _ ?_ | refine l1MergeGo_keep _ ?_
    | refine Keep.ite ?_ ?_)

theorem l1OhIn_keep {s0 : State} (n p k : Nat) (oh : List Byte) {s : State} (h0 : Keep s0 s) :
    Keep s0 (l1OhIn n p k oh s) := by
  unfold l1OhIn
  repeat' (with_reducible first
    | assumption | refine modIn_keep _ _ _ ?_ | refine l1BrIn_keep _ _ _ ?_ | extract_lets | refine Keep.ite ?_ ?_)

theorem l1Decrypt_keep {s0 : State} (n p efn : Nat) (opu payload : List Byte) {s : State} (h0 : Keep s0 s) :
    Keep s0 (l1Decrypt n p efn opu payload s) := by
  unfold l1Decrypt
  repeat' (with_reducible first
    | assumption | refine wr64_keep _ _ ?_ | refine report_keep _ _ _ _ ?_ | refine refuse_keep _ _ ?_
    | refine posEvt_keep _ _ ?_ | refine pathLive_keep _ _ ?_ | refine tagFail_keep _ ?_ | refine modL1_keep _ _ ?_
    | refine modIn_keep _ _ _ ?_ | refine l1Release_keep _ _ _ _ _ _ ?_ | extract_lets | refine Keep.ite ?_ ?_ | split)

theorem execL1CipherFrameRx_keep {s0 : State} (n : Fin 512) (path2 : Bool) (mfas : Byte) (oh opu payload : List Byte) {s : State}
    (h0 : Keep s0 s) : KeepNext s0 (execL1CipherFrameRx n path2 mfas oh opu payload s) := by
  unfold execL1CipherFrameRx
  extract_lets n p s1 f s2
  split
  · exact h0
  · split
    · exact refuse_keep _ _ h0
    · have h1 : Keep s0 s1 := inStat_keep _ _ _ (inStat_keep _ _ _ h0)
      clear_value s1
      have hf : Keep s0 f.2 := by
        unfold f; split
        · exact sfStep_keep _ _ _ h1
        · exact h1
      have h2 : Keep s0 s2 := hf
      clear_value s2 f
      split
      · exact l1Release_keep _ _ _ _ _ _ (refuse_keep _ _ h2)
      · split
        · exact l1Release_keep _ _ _ _ _ _ (refuse_keep _ _ (l1OhIn_keep _ _ _ _ h2))
        · extract_lets efn s3 s4 s5
          have h4 : Keep s0 s4 := l1OhIn_keep _ _ _ _ (l1MfStep_keep _ _ _ _ _ h2)
          clear_value s4
          have h5 : Keep s0 s5 := by
            unfold s5; split
            · exact l1CheckDue_keep _ _ h4
            · exact h4
          clear_value s5
          exact l1Decrypt_keep _ _ _ _ _ h5

end Sys2Proof.Machine
end

