-- ==== Sys2Proof/Laws/KeepZero.lean ====
section
/-!
SUPPORT. `Keep` for what Machine/Zero.lean defines.
-/

namespace Sys2Proof.Machine

theorem loftFlags_keep {s0 : State} (erase zeroised : Bool) {s : State} (h0 : Keep s0 s) :
    Keep s0 (loftFlags erase zeroised s) := by
  unfold loftFlags
  repeat' (with_reducible first | assumption | refine setF_keep _ _ ?_ | refine loftProgram_keep _ _ ?_)

theorem endZeroed_keep {s0 : State} (u : OutUnit) {s : State} (h0 : Keep s0 s) :
    Keep s0 (endZeroed u s) := by
  unfold endZeroed
  repeat' (with_reducible first | assumption | refine emit_keep _ ?_ | refine draw_keep ?_)

theorem endUnits_keep {s0 : State} {s : State} (h0 : Keep s0 s) :
    Keep s0 (endUnits s) := by
  unfold endUnits
  repeat' (with_reducible first
    | assumption | refine refuse_keep _ _ ?_ | refine endZeroed_keep _ ?_ | extract_lets
    | refine Keep.foldl ?_ (fun _ _ _ => ?_) | refine keep_mk ((keep_iff _ _).1 ?_))

theorem loseKeys_keep {s0 : State} {s : State} (h0 : Keep s0 s) :
    Keep s0 (loseKeys s) := by
  unfold loseKeys
  repeat' (with_reducible first
    | assumption | refine wr_keep _ _ ?_ | refine chEvt_keep _ _ ?_ | refine holdChan_keep _ ?_ | refine keyShow_keep _ _ ?_
    | refine disarmSwitch_keep _ _ ?_ | extract_lets | refine Keep.ite ?_ ?_ | refine Keep.foldl ?_ (fun _ _ _ => ?_))

theorem execZeroNAssert_keep {s0 : State} {s : State} (h0 : Keep s0 s) :
    KeepNext s0 (execZeroNAssert s) := by
  unfold execZeroNAssert
  repeat' (with_reducible first
    | assumption | refine report_keep _ _ _ _ ?_ | refine endUnits_keep ?_ | refine loseKeys_keep ?_ | refine KeepNext.next ?_
    | extract_lets | refine keep_mk ((keep_iff _ _).1 ?_))

theorem execZeroiseVaultDone_keep {s0 : State} {s : State} (h0 : Keep s0 s) :
    KeepNext s0 (execZeroiseVaultDone s) := by
  unfold execZeroiseVaultDone
  repeat' (with_reducible first
    | assumption | refine setF_keep _ _ ?_ | refine slotsRefresh_keep ?_ | refine loftFlags_keep _ _ ?_
    | refine KeepNext.next ?_ | extract_lets | refine KeepNext.ite ?_ ?_ | refine keep_mk ((keep_iff _ _).1 ?_))

theorem eraseLoftKeys_keep {s0 : State} {s : State} (h0 : Keep s0 s) :
    Keep s0 (eraseLoftKeys s) := by
  unfold eraseLoftKeys
  repeat' (with_reducible first
    | assumption | refine loftStore_keep _ _ ?_ | extract_lets | refine Keep.foldl ?_ (fun _ _ _ => ?_))

theorem kek0Again_keep {s0 : State} {s : State} (h0 : Keep s0 s) :
    Keep s0 (kek0Again s) := by
  unfold kek0Again
  repeat' (with_reducible first | assumption | refine deriveKek0_keep ?_ | refine Keep.ite ?_ ?_)

theorem execLoftKeyEraseDone_keep {s0 : State} {s : State} (h0 : Keep s0 s) :
    KeepNext s0 (execLoftKeyEraseDone s) := by
  unfold execLoftKeyEraseDone
  repeat' (with_reducible first
    | assumption | refine loftFlags_keep _ _ ?_ | refine eraseLoftKeys_keep ?_ | refine kek0Again_keep ?_
    | refine KeepNext.next ?_ | extract_lets | refine KeepNext.ite ?_ ?_)

theorem execZeroNRelease_keep {s0 : State} {s : State} (h0 : Keep s0 s) :
    KeepNext s0 (execZeroNRelease s) := by
  unfold execZeroNRelease
  repeat' (with_reducible first
    | assumption | refine kek0Again_keep ?_ | refine KeepNext.next ?_ | extract_lets | refine keep_mk ((keep_iff _ _).1 ?_))

end Sys2Proof.Machine
end

