-- ==== Sys2Proof/Laws/KeepChanges.lean ====
section
/-!
SUPPORT. `Keep` for what Machine/Changes.lean defines.
-/

namespace Sys2Proof.Machine

theorem leaseDrop_keep {s0 : State} (n : Nat) {s : State} (h0 : Keep s0 s) :
    Keep s0 (leaseDrop n s) := by
  unfold leaseDrop
  repeat' (with_reducible first | assumption | refine setF_keep _ _ ?_ | extract_lets | refine keep_mk ((keep_iff _ _).1 ?_))

theorem leaseRelease_keep {s0 : State} (n : Nat) {s : State} (h0 : Keep s0 s) :
    Keep s0 (leaseRelease n s) := by
  unfold leaseRelease
  repeat' (with_reducible first
    | assumption | refine fabSend_keep _ _ _ _ _ _ ?_ | refine leaseDrop_keep _ ?_ | extract_lets | refine Keep.ite ?_ ?_
    | refine Keep.foldl ?_ (fun _ _ _ => ?_) | refine keep_mk ((keep_iff _ _).1 ?_))

theorem resumeKey_keep {s0 : State} (n : Nat) {s : State} (h0 : Keep s0 s) :
    Keep s0 (resumeKey n s) := by
  unfold resumeKey
  repeat' (with_reducible first
    | assumption | refine setF_keep _ _ ?_ | refine wr64_keep _ _ ?_ | refine report_keep _ _ _ _ ?_
    | refine loftEnqueue_keep _ _ _ _ ?_ | refine modChan_keep _ _ ?_ | refine setSlot_keep _ _ ?_ | refine slotsRefresh_keep ?_
    | refine keyShow_keep _ _ ?_ | extract_lets | refine Keep.ite ?_ ?_ | refine Keep.foldl ?_ (fun _ _ _ => ?_) | split)

theorem clearWords_keep {s0 : State} (o n : Nat) {s : State} (h0 : Keep s0 s) : Keep s0 (clearWords o n s) := by
  induction n generalizing o s with
  | zero => exact h0
  | succ n ih => exact ih _ (wr_keep _ _ h0)

theorem applyOpen_keep {s0 : State} (n : Nat) (b : Beat) {s : State} (h0 : Keep s0 s) :
    Keep s0 (applyOpen n b s) := by
  unfold applyOpen
  repeat' (with_reducible first
    | assumption | refine setF_keep _ _ ?_ | refine wr64_keep _ _ ?_ | refine modChan_keep _ _ ?_ | refine chEvt_keep _ _ ?_
    | refine holdChan_keep _ ?_ | refine gapRefresh_keep _ ?_ | refine resumeKey_keep _ ?_ | refine clearWords_keep _ _ ?_
    | extract_lets | refine Keep.ite ?_ ?_)

theorem applyClose_keep {s0 : State} (n : Nat) {s : State} (h0 : Keep s0 s) :
    Keep s0 (applyClose n s) := by
  unfold applyClose
  repeat' (with_reducible first
    | assumption | refine setF_keep _ _ ?_ | refine modChan_keep _ _ ?_ | refine leaseRelease_keep _ ?_ | extract_lets
    | refine Keep.ite ?_ ?_)

theorem applyWord_keep {s0 : State} (n : Nat) (x : Nat × Word) {s : State} (h0 : Keep s0 s) :
    Keep s0 (applyWord n x s) := by
  unfold applyWord
  repeat' (with_reducible first
    | assumption | refine wr_keep _ _ ?_ | refine setF_keep _ _ ?_ | refine modChan_keep _ _ ?_ | extract_lets
    | refine Keep.ite ?_ ?_)

theorem applyGate_keep {s0 : State} (g cfg : Nat) {s : State} (h0 : Keep s0 s) :
    Keep s0 (applyGate g cfg s) := by
  unfold applyGate
  repeat' (with_reducible first | assumption | refine setF_keep _ _ ?_)

theorem applyChange_keep {s0 : State} (b : Beat) (c : Change) {s : State} (h0 : Keep s0 s) :
    Keep s0 (applyChange b c s) := by
  unfold applyChange
  repeat' (with_reducible first
    | assumption | refine gapRefresh_keep _ ?_ | refine applyOpen_keep _ _ ?_ | refine applyClose_keep _ ?_
    | refine applyWord_keep _ _ ?_ | refine applyGate_keep _ _ ?_ | extract_lets | refine Keep.foldl ?_ (fun _ _ _ => ?_)
    | split)

theorem execChangeBeatApply_keep {s0 : State} {s : State} (h0 : Keep s0 s) :
    KeepNext s0 (execChangeBeatApply s) := by
  unfold execChangeBeatApply
  repeat' (with_reducible first
    | assumption | refine applyChange_keep _ _ ?_ | refine KeepNext.next ?_ | extract_lets
    | refine Keep.foldl ?_ (fun _ _ _ => ?_) | refine keep_mk ((keep_iff _ _).1 ?_))

theorem enterClosed_keep {s0 : State} (n : Nat) {s : State} (h0 : Keep s0 s) :
    Keep s0 (enterClosed n s) := by
  unfold enterClosed
  repeat' (with_reducible first
    | assumption | refine setF_keep _ _ ?_ | refine chEvt_keep _ _ ?_ | refine releaseHold_keep _ ?_
    | refine releaseSlots_keep _ ?_ | refine modBr_keep _ _ ?_ | refine disarmSwitch_keep _ _ ?_ | extract_lets
    | refine keep_mk ((keep_iff _ _).1 ?_))

theorem execClosingDrained_keep {s0 : State} (n : Fin 512) {s : State} (h0 : Keep s0 s) :
    KeepNext s0 (execClosingDrained n s) := by
  unfold execClosingDrained
  repeat' (with_reducible first
    | assumption | refine enterClosed_keep _ ?_ | refine KeepNext.next ?_ | refine KeepNext.ite ?_ ?_)

theorem execClosingTimeout_keep {s0 : State} (n : Fin 512) {s : State} (h0 : Keep s0 s) :
    KeepNext s0 (execClosingTimeout n s) := by
  unfold execClosingTimeout
  repeat' (with_reducible first
    | assumption | refine cnt64_keep _ _ ?_ | refine modTw_keep _ _ ?_ | refine heldRefresh_keep ?_
    | refine enterClosed_keep _ ?_ | refine KeepNext.next ?_ | extract_lets | refine KeepNext.ite ?_ ?_
    | refine keep_mk ((keep_iff _ _).1 ?_))

end Sys2Proof.Machine
end

