-- ==== Sys2Proof/Laws/KeepPaddock.lean ====
section
/-!
SUPPORT. `Keep` for what Machine/Paddock.lean defines.
-/

namespace Sys2Proof.Machine

theorem ownViol_keep {s0 : State} {s : State} (h0 : Keep s0 s) :
    Keep s0 (ownViol s).2 := by
  unfold ownViol
  repeat' (with_reducible first | assumption | refine cntSat_keep _ _ ?_)

theorem uninitRead_keep {s0 : State} (o : Nat) {s : State} (h0 : Keep s0 s) :
    Keep s0 (uninitRead o s) := by
  unfold uninitRead
  repeat' (with_reducible first
    | assumption | refine setF_keep _ _ ?_ | refine cntSat_keep _ _ ?_ | refine report_keep _ _ _ _ ?_ | extract_lets
    | refine Keep.ite ?_ ?_)

theorem padUncorr_keep {s0 : State} (w : Nat) {s : State} (h0 : Keep s0 s) :
    Keep s0 (padUncorr w s) := by
  unfold padUncorr
  repeat' (with_reducible first
    | assumption | refine setF_keep _ _ ?_ | refine cntSat_keep _ _ ?_ | refine report_keep _ _ _ _ ?_)

theorem padRead_keep {s0 : State} (r : Requester) (o n : Nat) {s : State} (h0 : Keep s0 s) :
    Keep s0 (padRead r o n s).2.2 := by
  unfold padRead
  repeat' (with_reducible first
    | assumption | refine ownViol_keep ?_ | refine uninitRead_keep _ ?_ | refine padUncorr_keep _ ?_ | extract_lets
    | refine Keep.foldl ?_ (fun _ _ _ => ?_) | split)

theorem padStore_keep {s0 : State} (o : Nat) (l : List Byte) {s : State} (h0 : Keep s0 s) :
    Keep s0 (padStore o l s) := by
  unfold padStore
  repeat' (with_reducible first
    | assumption | refine setBytes_keep _ _ ?_ | extract_lets | refine Keep.ite ?_ ?_ | refine Keep.foldl ?_ (fun _ _ _ => ?_)
    | refine keep_mk ((keep_iff _ _).1 ?_))

theorem breakLocks_keep {s0 : State} (writer : Option Nat) (o n : Nat) {s : State} (h0 : Keep s0 s) :
    Keep s0 (breakLocks writer o n s) := by
  unfold breakLocks
  repeat' (with_reducible first | assumption | extract_lets | refine keep_mk ((keep_iff _ _).1 ?_))

theorem padWrite_keep {s0 : State} (r : Requester) (o : Nat) (l : List Byte) {s : State} (h0 : Keep s0 s) :
    Keep s0 (padWrite r o l s).2 := by
  unfold padWrite
  repeat' (with_reducible first
    | assumption | refine ownViol_keep ?_ | refine padStore_keep _ _ ?_ | refine breakLocks_keep _ _ _ ?_ | split)

theorem showLead_keep {s0 : State} {s : State} (h0 : Keep s0 s) :
    Keep s0 (showLead s) := by
  unfold showLead
  repeat' (with_reducible first | assumption | refine setF_keep _ _ ?_ | extract_lets | refine Keep.foldl ?_ (fun _ _ _ => ?_))

theorem tokenDrop_keep {s0 : State} {s : State} (h0 : Keep s0 s) :
    Keep s0 (tokenDrop s) := by
  unfold tokenDrop
  repeat' (with_reducible first | assumption | refine setF_keep _ _ ?_ | refine showLead_keep ?_)

theorem setReady_keep {s0 : State} (y : Nat) (ready request : Bool) {s : State} (h0 : Keep s0 s) :
    Keep s0 (setReady y ready request s) := by
  unfold setReady
  repeat' (with_reducible first
    | assumption | refine setF_keep _ _ ?_ | refine showLead_keep ?_ | refine tokenDrop_keep ?_ | extract_lets
    | refine Keep.ite ?_ ?_)

theorem ymDemote_keep {s0 : State} (y : Nat) {s : State} (h0 : Keep s0 s) :
    Keep s0 (ymDemote y s) := by
  unfold ymDemote
  repeat' (with_reducible first
    | assumption | refine cntSat_keep _ _ ?_ | refine report_keep _ _ _ _ ?_ | refine setReady_keep _ _ _ ?_)

theorem leadRefuse_keep {s0 : State} (r : Requester) (o : Nat) {s : State} (h0 : Keep s0 s) :
    Keep s0 (leadRefuse r o s) := by
  unfold leadRefuse
  repeat' (with_reducible first
    | assumption | refine cntSat_keep _ _ ?_ | refine reply_keep _ _ _ ?_ | refine decodeFault_keep _ _ ?_
    | refine ymDemote_keep _ ?_ | split)

theorem ownBad_keep {s0 : State} (b : Nat) {s : State} (h0 : Keep s0 s) :
    Keep s0 (ownBad b s) := by
  unfold ownBad
  repeat' (with_reducible first | assumption | refine setF_keep _ _ ?_ | refine report_keep _ _ _ _ ?_)

theorem handover_keep {s0 : State} (r : Requester) (b : Nat) (v : Word) {s : State} (h0 : Keep s0 s) :
    Keep s0 (handover r b v s).2 := by
  unfold handover
  repeat' (with_reducible first
    | assumption | refine setF_keep _ _ ?_ | refine ownViol_keep ?_ | refine ownBad_keep _ ?_ | extract_lets
    | refine Keep.ite ?_ ?_ | split)

theorem execOwnerHandover_keep {s0 : State} (r : Requester) (b : Fin 512) (v : Word) {s : State} (h0 : Keep s0 s) :
    KeepNext s0 (execOwnerHandover r b v s) := by
  unfold execOwnerHandover
  repeat' (with_reducible first
    | assumption | refine reply_keep _ _ _ ?_ | refine handover_keep _ _ _ ?_ | refine KeepNext.next ?_)

theorem execHandoverDone_keep {s0 : State} (b : Fin 512) {s : State} (h0 : Keep s0 s) :
    KeepNext s0 (execHandoverDone b s) := by
  unfold execHandoverDone
  repeat' (with_reducible first
    | assumption | refine setF_keep _ _ ?_ | refine KeepNext.next ?_ | extract_lets | refine KeepNext.ite ?_ ?_)

theorem barnUncorr_keep {s0 : State} (w : Nat) {s : State} (h0 : Keep s0 s) :
    Keep s0 (barnUncorr w s) := by
  unfold barnUncorr
  repeat' (with_reducible first
    | assumption | refine cntSat_keep _ _ ?_ | refine wr64_keep _ _ ?_ | refine report_keep _ _ _ _ ?_)

theorem barnRead_keep {s0 : State} (r : Requester) (o n : Nat) {s : State} (h0 : Keep s0 s) :
    Keep s0 (barnRead r o n s).2.2 := by
  unfold barnRead
  repeat' (with_reducible first | assumption | refine barnUncorr_keep _ ?_ | split)

theorem barnWrite_keep {s0 : State} (r : Requester) (o : Nat) (l : List Byte) {s : State} (h0 : Keep s0 s) :
    Keep s0 (barnWrite r o l s).2 := by
  unfold barnWrite
  repeat' (with_reducible first
    | assumption | refine setBytes_keep _ _ ?_ | extract_lets | split | refine keep_mk ((keep_iff _ _).1 ?_))

theorem barnMapWrite_keep {s0 : State} (v : Word) {s : State} (h0 : Keep s0 s) :
    Keep s0 (barnMapWrite v s) := by
  unfold barnMapWrite
  repeat' (with_reducible first | assumption | refine setF_keep _ _ ?_ | extract_lets | refine Keep.ite ?_ ?_)

theorem holdFit_keep {s0 : State} {s : State} (h0 : Keep s0 s) :
    Keep s0 (holdFit s) := by
  unfold holdFit
  repeat' (with_reducible first | assumption | refine setF_keep _ _ ?_ | extract_lets | refine Keep.ite ?_ ?_)

theorem execGroomScrub_keep {s0 : State} (w : Nat) (ecc : Fin 3) (lastLine : Bool) {s : State} (h0 : Keep s0 s) :
    KeepNext s0 (execGroomScrub w ecc lastLine s) := by
  unfold execGroomScrub
  repeat' (with_reducible first
    | assumption | refine cntSat_keep _ _ ?_ | refine report_keep _ _ _ _ ?_ | refine padUncorr_keep _ ?_
    | refine barnUncorr_keep _ ?_ | refine KeepNext.next ?_ | extract_lets | refine Keep.ite ?_ ?_ | split
    | refine keep_mk ((keep_iff _ _).1 ?_))

theorem execBarnReady_keep {s0 : State} (fails : Bool) {s : State} (h0 : Keep s0 s) :
    KeepNext s0 (execBarnReady fails s) := by
  unfold execBarnReady
  repeat' (with_reducible first
    | assumption | refine setF_keep _ _ ?_ | refine report_keep _ _ _ _ ?_ | refine KeepNext.next ?_
    | refine KeepNext.ite ?_ ?_)

end Sys2Proof.Machine
end

