-- ==== Sys2Proof/Laws/KeepDray.lean ====
section
/-!
SUPPORT. `Keep` for what Machine/Dray.lean defines.
-/

namespace Sys2Proof.Machine

theorem setCore_keep {s0 : State} {s : State} (k : Nat) (c : Core) (h0 : Keep s0 s) :
    Keep s0 (State.setCore s k c) := by
  unfold State.setCore
  repeat' (with_reducible first | assumption | refine keep_mk ((keep_iff _ _).1 ?_))

theorem modCore_keep {s0 : State} {s : State} (k : Nat) (f : Core → Core) (h0 : Keep s0 s) :
    Keep s0 (State.modCore s k f) := by
  unfold State.modCore
  repeat' (with_reducible first | assumption | refine setCore_keep _ _ ?_)

theorem storeCells_keep {s0 : State} (k : Nat) (l : List (Nat × Byte)) {s : State} (h0 : Keep s0 s) :
    Keep s0 (storeCells k l s) := by
  unfold storeCells
  repeat' (with_reducible first | assumption | refine setByte_keep _ _ ?_ | refine Keep.foldl ?_ (fun _ _ _ => ?_))

theorem coreTick_keep {s0 : State} (k : Nat) {s : State} (h0 : Keep s0 s) :
    Keep s0 (coreTick k s) := by
  unfold coreTick
  repeat' (with_reducible first | assumption | refine setCore_keep _ _ ?_ | refine storeCells_keep _ _ ?_)

theorem drainFuel_keep {s0 : State} (n k : Nat) {s : State} (h0 : Keep s0 s) : Keep s0 (drainFuel n k s) := by
  induction n generalizing s with
  | zero => exact h0
  | succ n ih =>
    unfold drainFuel
    extract_lets
    split
    · exact h0
    · exact ih (coreTick_keep _ h0)

theorem drain_keep {s0 : State} (k : Nat) {s : State} (h0 : Keep s0 s) :
    Keep s0 (drain k s) := by
  unfold drain
  repeat' (with_reducible first | assumption | refine drainFuel_keep _ _ ?_)

theorem lmDrawn_keep {s0 : State} (c : Core) {s : State} (h0 : Keep s0 s) :
    Keep s0 (lmDrawn c s) := by
  unfold lmDrawn
  repeat' (with_reducible first | assumption | refine draws_keep _ ?_ | refine Keep.ite ?_ ?_)

theorem markDirty_keep {s0 : State} (k a n : Nat) {s : State} (h0 : Keep s0 s) :
    Keep s0 (markDirty k a n s) := by
  unfold markDirty
  repeat' (with_reducible first | assumption | refine modCore_keep _ _ ?_)

theorem traceShow_keep {s0 : State} (k : Nat) {s : State} (h0 : Keep s0 s) :
    Keep s0 (traceShow k s) := by
  unfold traceShow
  repeat' (with_reducible first | assumption | refine setF_keep _ _ ?_ | refine wr64_keep _ _ ?_)

theorem traceAdd_keep {s0 : State} (k kind src dst : Nat) {s : State} (h0 : Keep s0 s) :
    Keep s0 (traceAdd k kind src dst s) := by
  unfold traceAdd
  repeat' (with_reducible first
    | assumption | refine setF_keep _ _ ?_ | refine bellPulse_keep _ ?_ | refine setCore_keep _ _ ?_
    | refine traceShow_keep _ ?_ | extract_lets | refine Keep.ite ?_ ?_)

theorem haltNow_keep {s0 : State} (k reason which : Nat) {s : State} (h0 : Keep s0 s) :
    Keep s0 (haltNow k reason which s) := by
  unfold haltNow
  repeat' (with_reducible first
    | assumption | refine setF_keep _ _ ?_ | refine bellPulse_keep _ ?_ | refine setCore_keep _ _ ?_ | refine drain_keep _ ?_
    | refine traceAdd_keep _ _ _ _ ?_)

theorem stopNow_keep {s0 : State} (k : Nat) {s : State} (h0 : Keep s0 s) :
    Keep s0 (stopNow k s) := by
  unfold stopNow
  repeat' (with_reducible first
    | assumption | refine setF_keep _ _ ?_ | refine bellAutoFinish_keep _ ?_ | refine modCore_keep _ _ ?_
    | refine drain_keep _ ?_)

theorem boundary_keep {s0 : State} (k : Nat) {s : State} (h0 : Keep s0 s) :
    Keep s0 (boundary k s) := by
  unfold boundary
  repeat' (with_reducible first
    | assumption | refine setF_keep _ _ ?_ | refine setCore_keep _ _ ?_ | refine stopNow_keep _ ?_ | extract_lets
    | refine Keep.ite ?_ ?_)

theorem drayEntry_keep {s0 : State} (k vec slot code info : Nat) {s : State} (h0 : Keep s0 s) :
    Keep s0 (drayEntry k vec slot code info s) := by
  unfold drayEntry
  repeat' (with_reducible first
    | assumption | refine setF_keep _ _ ?_ | refine report_keep _ _ _ _ ?_ | refine setCore_keep _ _ ?_
    | refine modCore_keep _ _ ?_ | refine drain_keep _ ?_ | refine traceAdd_keep _ _ _ _ ?_ | refine haltNow_keep _ _ _ ?_
    | refine boundary_keep _ ?_ | extract_lets | refine Keep.ite ?_ ?_)

end Sys2Proof.Machine
end

