-- ==== Sys2Proof/Laws/KeepDrayBundle.lean ====
section
/-!
SUPPORT. `Keep` for what Machine/DrayBundle.lean defines.
-/

namespace Sys2Proof.Machine

theorem farStart_keep {s0 : State} (k tag : Nat) (store : Bool) (addr loc size : Nat) (ordered dev : Bool) {s : State} (h0 : Keep s0 s) :
    Keep s0 (farStart k tag store addr loc size ordered dev s) := by
  unfold farStart
  repeat' (with_reducible first
    | assumption | refine fabSend_keep _ _ _ _ _ _ ?_ | refine setCore_keep _ _ ?_ | extract_lets | refine Keep.ite ?_ ?_
    | refine keep_mk ((keep_iff _ _).1 ?_))

theorem effApply_keep {s0 : State} (k slot : Nat) (e : Eff) {s : State} (h0 : Keep s0 s) :
    Keep s0 (effApply k slot e s) := by
  unfold effApply
  repeat' (with_reducible first
    | assumption | refine cntSat_keep _ _ ?_ | refine setBytes_keep _ _ ?_ | refine report_keep _ _ _ _ ?_
    | refine bellFinish_keep _ _ ?_ | refine padRead_keep _ _ _ ?_ | refine padStore_keep _ _ ?_
    | refine breakLocks_keep _ _ _ ?_ | refine setCore_keep _ _ ?_ | refine modCore_keep _ _ ?_ | refine markDirty_keep _ _ _ ?_
    | refine farStart_keep _ _ _ _ _ _ _ _ ?_ | extract_lets | refine Keep.ite ?_ ?_ | refine Keep.foldl ?_ (fun _ _ _ => ?_)
    | split | refine keep_mk ((keep_iff _ _).1 ?_))

theorem applyAll_keep {s0 : State} (k : Nat) (l : List DrayOp) {s : State} (h0 : Keep s0 s) :
    Keep s0 (applyAll k l s) := by
  unfold applyAll
  repeat' (with_reducible first
    | assumption | refine effApply_keep _ _ _ ?_ | extract_lets | refine Keep.foldl ?_ (fun _ _ _ => ?_))

theorem branchPlace_keep {s0 : State} (k : Nat) (l : List DrayOp) {s : State} (h0 : Keep s0 s) :
    Keep s0 (branchPlace k l s) := by
  unfold branchPlace
  repeat' (with_reducible first
    | assumption | refine cntSat_keep _ _ ?_ | refine setCore_keep _ _ ?_ | extract_lets | refine Keep.ite ?_ ?_ | split)

theorem loopPlace_keep {s0 : State} (k next : Nat) (l : List DrayOp) {s : State} (h0 : Keep s0 s) :
    Keep s0 (loopPlace k next l s) := by
  unfold loopPlace
  repeat' (with_reducible first
    | assumption | refine cntSat_keep _ _ ?_ | refine setCore_keep _ _ ?_ | refine modCore_keep _ _ ?_ | extract_lets
    | refine Keep.ite ?_ ?_ | split)

theorem advancePc_keep {s0 : State} (k next : Nat) {s : State} (h0 : Keep s0 s) :
    Keep s0 (advancePc k next s) := by
  unfold advancePc
  repeat' (with_reducible first
    | assumption | refine cntSat_keep _ _ ?_ | refine setCore_keep _ _ ?_ | refine traceAdd_keep _ _ _ _ ?_ | extract_lets
    | refine Keep.ite ?_ ?_ | split)

theorem linkPlace_keep {s0 : State} (k next : Nat) (l : List DrayOp) {s : State} (h0 : Keep s0 s) :
    Keep s0 (linkPlace k next l s) := by
  unfold linkPlace
  repeat' (with_reducible first | assumption | refine effApply_keep _ _ _ ?_ | split)

theorem returnFrom_keep {s0 : State} (k : Nat) {s : State} (h0 : Keep s0 s) :
    Keep s0 (returnFrom k s) := by
  unfold returnFrom
  repeat' (with_reducible first
    | assumption | refine setCore_keep _ _ ?_ | refine drain_keep _ ?_ | refine traceAdd_keep _ _ _ _ ?_
    | refine boundary_keep _ ?_)

theorem watchPlace_keep {s0 : State} (k : Nat) (watch : Option Nat) {s : State} (h0 : Keep s0 s) :
    Keep s0 (watchPlace k watch s) := by
  unfold watchPlace
  repeat' (with_reducible first | assumption | refine modCore_keep _ _ ?_ | refine Keep.ite ?_ ?_ | split)

theorem waitFrom_keep {s0 : State} (k : Nat) {s : State} (h0 : Keep s0 s) :
    Keep s0 (waitFrom k s) := by
  unfold waitFrom
  repeat' (with_reducible first
    | assumption | refine setF_keep _ _ ?_ | refine bellRefresh_keep ?_ | refine drain_keep _ ?_ | refine boundary_keep _ ?_)

theorem bundleTail_keep {s0 : State} (k : Nat) (r : Option (Nat × Nat)) {s : State} (h0 : Keep s0 s) :
    Keep s0 (bundleTail k r s) := by
  unfold bundleTail
  repeat' (with_reducible first
    | assumption | refine boundary_keep _ ?_ | refine drayEntry_keep _ _ _ _ _ ?_ | refine returnFrom_keep _ ?_
    | refine waitFrom_keep _ ?_ | refine Keep.ite ?_ ?_ | split)

theorem afterBundle_keep {s0 : State} (k : Nat) (l : List DrayOp) (watch : Option Nat) {s : State} (h0 : Keep s0 s) :
    Keep s0 (afterBundle k l watch s) := by
  unfold afterBundle
  repeat' (with_reducible first | assumption | refine bundleTail_keep _ _ ?_ | refine watchPlace_keep _ _ ?_)

theorem commit_keep {s0 : State} (k : Nat) {s : State} (h0 : Keep s0 s) :
    Keep s0 (commit k s) := by
  unfold commit
  repeat' (with_reducible first
    | assumption | refine cntSat_keep _ _ ?_ | refine setCore_keep _ _ ?_ | refine modCore_keep _ _ ?_
    | refine coreTick_keep _ ?_ | refine applyAll_keep _ _ ?_ | refine branchPlace_keep _ _ ?_ | refine loopPlace_keep _ _ _ ?_
    | refine advancePc_keep _ _ ?_ | refine linkPlace_keep _ _ _ ?_ | refine afterBundle_keep _ _ _ ?_)

theorem issue_keep {s0 : State} (k : Nat) {s : State} (h0 : Keep s0 s) :
    Keep s0 (issue k s) := by
  unfold issue
  repeat' (with_reducible first
    | assumption | refine setCore_keep _ _ ?_ | refine commit_keep _ ?_ | extract_lets | refine Keep.ite ?_ ?_)

theorem faultSlot_keep {s0 : State} (slot : Nat) {s : State} (h0 : Keep s0 s) :
    Keep s0 (faultSlot slot s).2 := by
  unfold faultSlot
  repeat' (with_reducible first | assumption | refine draw_keep ?_ | extract_lets | split)

theorem closeBundle_keep {s0 : State} (k : Nat) {s : State} (h0 : Keep s0 s) :
    Keep s0 (closeBundle k s) := by
  unfold closeBundle
  repeat' (with_reducible first
    | assumption | refine report_keep _ _ _ _ ?_ | refine modCore_keep _ _ ?_ | refine haltNow_keep _ _ _ ?_
    | refine drayEntry_keep _ _ _ _ _ ?_ | refine issue_keep _ ?_ | refine faultSlot_keep _ ?_ | extract_lets
    | refine Keep.ite ?_ ?_ | split)

theorem lineFill_keep {s0 : State} (k : Nat) (c : Core) {s : State} (h0 : Keep s0 s) {t : State} (e : lineFill k c s = .ok t) :
    Keep s0 t := by
  unfold lineFill at e
  repeat' (split at e)
  all_goals first
    | (simp at e; done)
    | (obtain rfl := Except.ok.inj e
       first
         | exact h0
         | exact setCore_keep _ _ h0
         | exact setCore_keep _ _ (draw_keep h0))

theorem drayOp_keep {s0 : State} (h : OpHead) (cls : SlotClass) (word : Nat) (structural : State → Core → Option (Nat × Nat)) (plan : Bool → Nat → Core → State → Plan) {s : State} (h0 : Keep s0 s) :
    Keep s0 (drayOp h cls word structural plan s) := by
  unfold drayOp
  repeat' (with_reducible first
    | assumption | refine setCore_keep _ _ ?_ | refine drayEntry_keep _ _ _ _ _ ?_ | refine faultSlot_keep _ ?_
    | refine closeBundle_keep _ ?_ | refine lineFill_keep _ _ ?_ (by assumption) | extract_lets | refine Keep.ite ?_ ?_ | split)

theorem plainOp_keep {s0 : State} (h : OpHead) (cls : SlotClass) (word : Nat) (bad : Bool) (effs : Nat → Core → List Eff) {s : State} (h0 : Keep s0 s) :
    KeepNext s0 (plainOp h cls word bad effs s) := by
  unfold plainOp
  repeat' (with_reducible first | assumption | refine drayOp_keep _ _ _ _ _ ?_ | refine KeepNext.next ?_)

end Sys2Proof.Machine
end

