-- ==== Sys2Proof/Laws/KeepDrayAlu.lean ====
section
/-!
SUPPORT. `Keep` for what Machine/DrayAlu.lean defines.
-/

namespace Sys2Proof.Machine

theorem aluR3_keep {s0 : State} (h : OpHead) (op fn : Nat) (rd rs1 rs2 : BitVec 6) (f : Word → Word → Word) {s : State} (h0 : Keep s0 s) :
    KeepNext s0 (aluR3 h op fn rd rs1 rs2 f s) := by
  unfold aluR3
  repeat' (with_reducible first | assumption | refine plainOp_keep _ _ _ _ _ ?_)

theorem aluRI_keep {s0 : State} (h : OpHead) (op : Nat) (rd rs1 : BitVec 6) (imm : BitVec 9) (f : Word → Word → Word) {s : State} (h0 : Keep s0 s) :
    KeepNext s0 (aluRI h op rd rs1 imm f s) := by
  unfold aluRI
  repeat' (with_reducible first | assumption | refine plainOp_keep _ _ _ _ _ ?_)

theorem aluShift_keep {s0 : State} (h : OpHead) (fn : Nat) (rd rs1 : BitVec 6) (imm : BitVec 7) (f : Word → Nat → Word) {s : State} (h0 : Keep s0 s) :
    KeepNext s0 (aluShift h fn rd rs1 imm f s) := by
  unfold aluShift
  repeat' (with_reducible first | assumption | refine plainOp_keep _ _ _ _ _ ?_)

theorem aluD_keep {s0 : State} (h : OpHead) (fn : Nat) (rd rs1 rs2 : BitVec 6) (f : DWord → DWord → DWord) {s : State} (h0 : Keep s0 s) :
    KeepNext s0 (aluD h fn rd rs1 rs2 f s) := by
  unfold aluD
  repeat' (with_reducible first | assumption | refine plainOp_keep _ _ _ _ _ ?_)

theorem aluP_keep {s0 : State} (h : OpHead) (op : Nat) (pd pa pb : BitVec 3) (f : Bool → Bool → Bool) {s : State} (h0 : Keep s0 s) :
    KeepNext s0 (aluP h op pd pa pb f s) := by
  unfold aluP
  repeat' (with_reducible first | assumption | refine plainOp_keep _ _ _ _ _ ?_)

theorem aluUnary_keep {s0 : State} (h : OpHead) (fn : Nat) (rd rs1 : BitVec 6) (f : Word → Word) {s : State} (h0 : Keep s0 s) :
    KeepNext s0 (aluUnary h fn rd rs1 f s) := by
  unfold aluUnary
  repeat' (with_reducible first | assumption | refine plainOp_keep _ _ _ _ _ ?_)

theorem execNop_keep {s0 : State} (h : OpHead) (field : BitVec 27) {s : State} (h0 : Keep s0 s) :
    KeepNext s0 (execNop h field s) := by
  unfold execNop
  repeat' (with_reducible first | assumption | refine plainOp_keep _ _ _ _ _ ?_)

theorem execAdd_keep {s0 : State} (h : OpHead) (rd rs1 rs2 : BitVec 6) {s : State} (h0 : Keep s0 s) :
    KeepNext s0 (execAdd h rd rs1 rs2 s) := by
  unfold execAdd
  repeat' (with_reducible first | assumption | refine aluR3_keep _ _ _ _ _ _ _ ?_)

theorem execSub_keep {s0 : State} (h : OpHead) (rd rs1 rs2 : BitVec 6) {s : State} (h0 : Keep s0 s) :
    KeepNext s0 (execSub h rd rs1 rs2 s) := by
  unfold execSub
  repeat' (with_reducible first | assumption | refine aluR3_keep _ _ _ _ _ _ _ ?_)

theorem execAnd_keep {s0 : State} (h : OpHead) (rd rs1 rs2 : BitVec 6) {s : State} (h0 : Keep s0 s) :
    KeepNext s0 (execAnd h rd rs1 rs2 s) := by
  unfold execAnd
  repeat' (with_reducible first | assumption | refine aluR3_keep _ _ _ _ _ _ _ ?_)

theorem execOr_keep {s0 : State} (h : OpHead) (rd rs1 rs2 : BitVec 6) {s : State} (h0 : Keep s0 s) :
    KeepNext s0 (execOr h rd rs1 rs2 s) := by
  unfold execOr
  repeat' (with_reducible first | assumption | refine aluR3_keep _ _ _ _ _ _ _ ?_)

theorem execXor_keep {s0 : State} (h : OpHead) (rd rs1 rs2 : BitVec 6) {s : State} (h0 : Keep s0 s) :
    KeepNext s0 (execXor h rd rs1 rs2 s) := by
  unfold execXor
  repeat' (with_reducible first | assumption | refine aluR3_keep _ _ _ _ _ _ _ ?_)

theorem execShl_keep {s0 : State} (h : OpHead) (rd rs1 rs2 : BitVec 6) {s : State} (h0 : Keep s0 s) :
    KeepNext s0 (execShl h rd rs1 rs2 s) := by
  unfold execShl
  repeat' (with_reducible first | assumption | refine aluR3_keep _ _ _ _ _ _ _ ?_)

theorem execShr_keep {s0 : State} (h : OpHead) (rd rs1 rs2 : BitVec 6) {s : State} (h0 : Keep s0 s) :
    KeepNext s0 (execShr h rd rs1 rs2 s) := by
  unfold execShr
  repeat' (with_reducible first | assumption | refine aluR3_keep _ _ _ _ _ _ _ ?_)

theorem execSra_keep {s0 : State} (h : OpHead) (rd rs1 rs2 : BitVec 6) {s : State} (h0 : Keep s0 s) :
    KeepNext s0 (execSra h rd rs1 rs2 s) := by
  unfold execSra
  repeat' (with_reducible first | assumption | refine aluR3_keep _ _ _ _ _ _ _ ?_)

theorem execMin_keep {s0 : State} (h : OpHead) (rd rs1 rs2 : BitVec 6) {s : State} (h0 : Keep s0 s) :
    KeepNext s0 (execMin h rd rs1 rs2 s) := by
  unfold execMin
  repeat' (with_reducible first | assumption | refine aluR3_keep _ _ _ _ _ _ _ ?_)

theorem execMax_keep {s0 : State} (h : OpHead) (rd rs1 rs2 : BitVec 6) {s : State} (h0 : Keep s0 s) :
    KeepNext s0 (execMax h rd rs1 rs2 s) := by
  unfold execMax
  repeat' (with_reducible first | assumption | refine aluR3_keep _ _ _ _ _ _ _ ?_)

theorem execMinu_keep {s0 : State} (h : OpHead) (rd rs1 rs2 : BitVec 6) {s : State} (h0 : Keep s0 s) :
    KeepNext s0 (execMinu h rd rs1 rs2 s) := by
  unfold execMinu
  repeat' (with_reducible first | assumption | refine aluR3_keep _ _ _ _ _ _ _ ?_)

theorem execMaxu_keep {s0 : State} (h : OpHead) (rd rs1 rs2 : BitVec 6) {s : State} (h0 : Keep s0 s) :
    KeepNext s0 (execMaxu h rd rs1 rs2 s) := by
  unfold execMaxu
  repeat' (with_reducible first | assumption | refine aluR3_keep _ _ _ _ _ _ _ ?_)

theorem execAdds_keep {s0 : State} (h : OpHead) (rd rs1 rs2 : BitVec 6) {s : State} (h0 : Keep s0 s) :
    KeepNext s0 (execAdds h rd rs1 rs2 s) := by
  unfold execAdds
  repeat' (with_reducible first | assumption | refine aluR3_keep _ _ _ _ _ _ _ ?_)

theorem execSubs_keep {s0 : State} (h : OpHead) (rd rs1 rs2 : BitVec 6) {s : State} (h0 : Keep s0 s) :
    KeepNext s0 (execSubs h rd rs1 rs2 s) := by
  unfold execSubs
  repeat' (with_reducible first | assumption | refine aluR3_keep _ _ _ _ _ _ _ ?_)

theorem execRol_keep {s0 : State} (h : OpHead) (rd rs1 rs2 : BitVec 6) {s : State} (h0 : Keep s0 s) :
    KeepNext s0 (execRol h rd rs1 rs2 s) := by
  unfold execRol
  repeat' (with_reducible first | assumption | refine aluR3_keep _ _ _ _ _ _ _ ?_)

theorem execAndn_keep {s0 : State} (h : OpHead) (rd rs1 rs2 : BitVec 6) {s : State} (h0 : Keep s0 s) :
    KeepNext s0 (execAndn h rd rs1 rs2 s) := by
  unfold execAndn
  repeat' (with_reducible first | assumption | refine aluR3_keep _ _ _ _ _ _ _ ?_)

theorem execAddi_keep {s0 : State} (h : OpHead) (rd rs1 : BitVec 6) (imm : BitVec 9) {s : State} (h0 : Keep s0 s) :
    KeepNext s0 (execAddi h rd rs1 imm s) := by
  unfold execAddi
  repeat' (with_reducible first | assumption | refine aluRI_keep _ _ _ _ _ _ ?_)

theorem execShli_keep {s0 : State} (h : OpHead) (rd rs1 : BitVec 6) (imm : BitVec 7) {s : State} (h0 : Keep s0 s) :
    KeepNext s0 (execShli h rd rs1 imm s) := by
  unfold execShli
  repeat' (with_reducible first | assumption | refine aluShift_keep _ _ _ _ _ _ ?_)

theorem execShri_keep {s0 : State} (h : OpHead) (rd rs1 : BitVec 6) (imm : BitVec 7) {s : State} (h0 : Keep s0 s) :
    KeepNext s0 (execShri h rd rs1 imm s) := by
  unfold execShri
  repeat' (with_reducible first | assumption | refine aluShift_keep _ _ _ _ _ _ ?_)

theorem execSrai_keep {s0 : State} (h : OpHead) (rd rs1 : BitVec 6) (imm : BitVec 7) {s : State} (h0 : Keep s0 s) :
    KeepNext s0 (execSrai h rd rs1 imm s) := by
  unfold execSrai
  repeat' (with_reducible first | assumption | refine aluShift_keep _ _ _ _ _ _ ?_)

theorem execRoli_keep {s0 : State} (h : OpHead) (rd rs1 : BitVec 6) (imm : BitVec 7) {s : State} (h0 : Keep s0 s) :
    KeepNext s0 (execRoli h rd rs1 imm s) := by
  unfold execRoli
  repeat' (with_reducible first | assumption | refine aluShift_keep _ _ _ _ _ _ ?_)

theorem execAndi_keep {s0 : State} (h : OpHead) (rd rs1 : BitVec 6) (imm : BitVec 9) {s : State} (h0 : Keep s0 s) :
    KeepNext s0 (execAndi h rd rs1 imm s) := by
  unfold execAndi
  repeat' (with_reducible first | assumption | refine aluRI_keep _ _ _ _ _ _ ?_)

theorem execOri_keep {s0 : State} (h : OpHead) (rd rs1 : BitVec 6) (imm : BitVec 9) {s : State} (h0 : Keep s0 s) :
    KeepNext s0 (execOri h rd rs1 imm s) := by
  unfold execOri
  repeat' (with_reducible first | assumption | refine aluRI_keep _ _ _ _ _ _ ?_)

theorem execXori_keep {s0 : State} (h : OpHead) (rd rs1 : BitVec 6) (imm : BitVec 9) {s : State} (h0 : Keep s0 s) :
    KeepNext s0 (execXori h rd rs1 imm s) := by
  unfold execXori
  repeat' (with_reducible first | assumption | refine aluRI_keep _ _ _ _ _ _ ?_)

theorem execMovi_keep {s0 : State} (h : OpHead) (rd : BitVec 6) (imm : BitVec 15) {s : State} (h0 : Keep s0 s) :
    KeepNext s0 (execMovi h rd imm s) := by
  unfold execMovi
  repeat' (with_reducible first | assumption | refine plainOp_keep _ _ _ _ _ ?_)

theorem execMovi32_keep {s0 : State} (h : OpHead) (rd : BitVec 6) (imm : Word) {s : State} (h0 : Keep s0 s) :
    KeepNext s0 (execMovi32 h rd imm s) := by
  unfold execMovi32
  repeat' (with_reducible first | assumption | refine plainOp_keep _ _ _ _ _ ?_)

theorem execDadd_keep {s0 : State} (h : OpHead) (rd rs1 rs2 : BitVec 6) {s : State} (h0 : Keep s0 s) :
    KeepNext s0 (execDadd h rd rs1 rs2 s) := by
  unfold execDadd
  repeat' (with_reducible first | assumption | refine aluD_keep _ _ _ _ _ _ ?_)

theorem execDsub_keep {s0 : State} (h : OpHead) (rd rs1 rs2 : BitVec 6) {s : State} (h0 : Keep s0 s) :
    KeepNext s0 (execDsub h rd rs1 rs2 s) := by
  unfold execDsub
  repeat' (with_reducible first | assumption | refine aluD_keep _ _ _ _ _ _ ?_)

theorem execDand_keep {s0 : State} (h : OpHead) (rd rs1 rs2 : BitVec 6) {s : State} (h0 : Keep s0 s) :
    KeepNext s0 (execDand h rd rs1 rs2 s) := by
  unfold execDand
  repeat' (with_reducible first | assumption | refine aluD_keep _ _ _ _ _ _ ?_)

theorem execDor_keep {s0 : State} (h : OpHead) (rd rs1 rs2 : BitVec 6) {s : State} (h0 : Keep s0 s) :
    KeepNext s0 (execDor h rd rs1 rs2 s) := by
  unfold execDor
  repeat' (with_reducible first | assumption | refine aluD_keep _ _ _ _ _ _ ?_)

theorem execDxor_keep {s0 : State} (h : OpHead) (rd rs1 rs2 : BitVec 6) {s : State} (h0 : Keep s0 s) :
    KeepNext s0 (execDxor h rd rs1 rs2 s) := by
  unfold execDxor
  repeat' (with_reducible first | assumption | refine aluD_keep _ _ _ _ _ _ ?_)

theorem execDshl_keep {s0 : State} (h : OpHead) (rd rs1 rs2 : BitVec 6) {s : State} (h0 : Keep s0 s) :
    KeepNext s0 (execDshl h rd rs1 rs2 s) := by
  unfold execDshl
  repeat' (with_reducible first | assumption | refine aluD_keep _ _ _ _ _ _ ?_)

theorem execDshr_keep {s0 : State} (h : OpHead) (rd rs1 rs2 : BitVec 6) {s : State} (h0 : Keep s0 s) :
    KeepNext s0 (execDshr h rd rs1 rs2 s) := by
  unfold execDshr
  repeat' (with_reducible first | assumption | refine aluD_keep _ _ _ _ _ _ ?_)

theorem execDsra_keep {s0 : State} (h : OpHead) (rd rs1 rs2 : BitVec 6) {s : State} (h0 : Keep s0 s) :
    KeepNext s0 (execDsra h rd rs1 rs2 s) := by
  unfold execDsra
  repeat' (with_reducible first | assumption | refine aluD_keep _ _ _ _ _ _ ?_)

theorem execSel_keep {s0 : State} (h : OpHead) (rd rs1 rs2 : BitVec 6) (q : BitVec 3) {s : State} (h0 : Keep s0 s) :
    KeepNext s0 (execSel h rd rs1 rs2 q s) := by
  unfold execSel
  repeat' (with_reducible first | assumption | refine plainOp_keep _ _ _ _ _ ?_)

theorem execCmp_keep {s0 : State} (h : OpHead) (pd cond : BitVec 3) (rs1 rs2 : BitVec 6) (comb : BitVec 3) {s : State} (h0 : Keep s0 s) :
    KeepNext s0 (execCmp h pd cond rs1 rs2 comb s) := by
  unfold execCmp
  repeat' (with_reducible first | assumption | refine plainOp_keep _ _ _ _ _ ?_)

theorem execCmpi_keep {s0 : State} (h : OpHead) (pd cond : BitVec 3) (rs1 : BitVec 6) (imm : BitVec 9) {s : State} (h0 : Keep s0 s) :
    KeepNext s0 (execCmpi h pd cond rs1 imm s) := by
  unfold execCmpi
  repeat' (with_reducible first | assumption | refine plainOp_keep _ _ _ _ _ ?_)

theorem execPand_keep {s0 : State} (h : OpHead) (pd pa pb : BitVec 3) {s : State} (h0 : Keep s0 s) :
    KeepNext s0 (execPand h pd pa pb s) := by
  unfold execPand
  repeat' (with_reducible first | assumption | refine aluP_keep _ _ _ _ _ _ ?_)

theorem execPor_keep {s0 : State} (h : OpHead) (pd pa pb : BitVec 3) {s : State} (h0 : Keep s0 s) :
    KeepNext s0 (execPor h pd pa pb s) := by
  unfold execPor
  repeat' (with_reducible first | assumption | refine aluP_keep _ _ _ _ _ _ ?_)

theorem execPxor_keep {s0 : State} (h : OpHead) (pd pa pb : BitVec 3) {s : State} (h0 : Keep s0 s) :
    KeepNext s0 (execPxor h pd pa pb s) := by
  unfold execPxor
  repeat' (with_reducible first | assumption | refine aluP_keep _ _ _ _ _ _ ?_)

theorem execPandn_keep {s0 : State} (h : OpHead) (pd pa pb : BitVec 3) {s : State} (h0 : Keep s0 s) :
    KeepNext s0 (execPandn h pd pa pb s) := by
  unfold execPandn
  repeat' (with_reducible first | assumption | refine aluP_keep _ _ _ _ _ _ ?_)

theorem execClz_keep {s0 : State} (h : OpHead) (rd rs1 : BitVec 6) {s : State} (h0 : Keep s0 s) :
    KeepNext s0 (execClz h rd rs1 s) := by
  unfold execClz
  repeat' (with_reducible first | assumption | refine aluUnary_keep _ _ _ _ _ ?_)

theorem execPopc_keep {s0 : State} (h : OpHead) (rd rs1 : BitVec 6) {s : State} (h0 : Keep s0 s) :
    KeepNext s0 (execPopc h rd rs1 s) := by
  unfold execPopc
  repeat' (with_reducible first | assumption | refine aluUnary_keep _ _ _ _ _ ?_)

theorem execBrev_keep {s0 : State} (h : OpHead) (rd rs1 : BitVec 6) {s : State} (h0 : Keep s0 s) :
    KeepNext s0 (execBrev h rd rs1 s) := by
  unfold execBrev
  repeat' (with_reducible first | assumption | refine aluUnary_keep _ _ _ _ _ ?_)

theorem execSextb_keep {s0 : State} (h : OpHead) (rd rs1 : BitVec 6) {s : State} (h0 : Keep s0 s) :
    KeepNext s0 (execSextb h rd rs1 s) := by
  unfold execSextb
  repeat' (with_reducible first | assumption | refine aluUnary_keep _ _ _ _ _ ?_)

theorem execSexth_keep {s0 : State} (h : OpHead) (rd rs1 : BitVec 6) {s : State} (h0 : Keep s0 s) :
    KeepNext s0 (execSexth h rd rs1 s) := by
  unfold execSexth
  repeat' (with_reducible first | assumption | refine aluUnary_keep _ _ _ _ _ ?_)

theorem execZextb_keep {s0 : State} (h : OpHead) (rd rs1 : BitVec 6) {s : State} (h0 : Keep s0 s) :
    KeepNext s0 (execZextb h rd rs1 s) := by
  unfold execZextb
  repeat' (with_reducible first | assumption | refine aluUnary_keep _ _ _ _ _ ?_)

theorem execZexth_keep {s0 : State} (h : OpHead) (rd rs1 : BitVec 6) {s : State} (h0 : Keep s0 s) :
    KeepNext s0 (execZexth h rd rs1 s) := by
  unfold execZexth
  repeat' (with_reducible first | assumption | refine aluUnary_keep _ _ _ _ _ ?_)

end Sys2Proof.Machine
end

