-- ==== Sys2Proof/Laws/KeepDrayMul.lean ====
section
/-!
SUPPORT. `Keep` for what Machine/DrayMul.lean defines.
-/

namespace Sys2Proof.Machine

theorem mulS_keep {s0 : State} (h : OpHead) (fn : Nat) (rd rs1 rs2 : BitVec 6) (f : Word → Word → Word) {s : State} (h0 : Keep s0 s) :
    KeepNext s0 (mulS h fn rd rs1 rs2 f s) := by
  unfold mulS
  repeat' (with_reducible first | assumption | refine plainOp_keep _ _ _ _ _ ?_)

theorem mulD_keep {s0 : State} (h : OpHead) (fn : Nat) (rd rs1 rs2 : BitVec 6) (f : Word → Word → DWord) {s : State} (h0 : Keep s0 s) :
    KeepNext s0 (mulD h fn rd rs1 rs2 f s) := by
  unfold mulD
  repeat' (with_reducible first | assumption | refine plainOp_keep _ _ _ _ _ ?_)

theorem execMul_keep {s0 : State} (h : OpHead) (rd rs1 rs2 : BitVec 6) {s : State} (h0 : Keep s0 s) :
    KeepNext s0 (execMul h rd rs1 rs2 s) := by
  unfold execMul
  repeat' (with_reducible first | assumption | refine mulS_keep _ _ _ _ _ _ ?_)

theorem execMulhs_keep {s0 : State} (h : OpHead) (rd rs1 rs2 : BitVec 6) {s : State} (h0 : Keep s0 s) :
    KeepNext s0 (execMulhs h rd rs1 rs2 s) := by
  unfold execMulhs
  repeat' (with_reducible first | assumption | refine mulS_keep _ _ _ _ _ _ ?_)

theorem execMulhu_keep {s0 : State} (h : OpHead) (rd rs1 rs2 : BitVec 6) {s : State} (h0 : Keep s0 s) :
    KeepNext s0 (execMulhu h rd rs1 rs2 s) := by
  unfold execMulhu
  repeat' (with_reducible first | assumption | refine mulS_keep _ _ _ _ _ _ ?_)

theorem execMulw_keep {s0 : State} (h : OpHead) (rd rs1 rs2 : BitVec 6) {s : State} (h0 : Keep s0 s) :
    KeepNext s0 (execMulw h rd rs1 rs2 s) := by
  unfold execMulw
  repeat' (with_reducible first | assumption | refine mulD_keep _ _ _ _ _ _ ?_)

theorem execMulwu_keep {s0 : State} (h : OpHead) (rd rs1 rs2 : BitVec 6) {s : State} (h0 : Keep s0 s) :
    KeepNext s0 (execMulwu h rd rs1 rs2 s) := by
  unfold execMulwu
  repeat' (with_reducible first | assumption | refine mulD_keep _ _ _ _ _ _ ?_)

theorem execClmul_keep {s0 : State} (h : OpHead) (rd rs1 rs2 : BitVec 6) {s : State} (h0 : Keep s0 s) :
    KeepNext s0 (execClmul h rd rs1 rs2 s) := by
  unfold execClmul
  repeat' (with_reducible first | assumption | refine mulS_keep _ _ _ _ _ _ ?_)

theorem execClmulh_keep {s0 : State} (h : OpHead) (rd rs1 rs2 : BitVec 6) {s : State} (h0 : Keep s0 s) :
    KeepNext s0 (execClmulh h rd rs1 rs2 s) := by
  unfold execClmulh
  repeat' (with_reducible first | assumption | refine mulS_keep _ _ _ _ _ _ ?_)

theorem accOp_keep {s0 : State} (h : OpHead) (fn : Nat) (a : BitVec 2) (rs1 rs2 : BitVec 6) (f : Word → Word → Int) {s : State} (h0 : Keep s0 s) :
    KeepNext s0 (accOp h fn a rs1 rs2 f s) := by
  unfold accOp
  repeat' (with_reducible first | assumption | refine plainOp_keep _ _ _ _ _ ?_)

theorem execMac_keep {s0 : State} (h : OpHead) (a : BitVec 2) (rs1 rs2 : BitVec 6) {s : State} (h0 : Keep s0 s) :
    KeepNext s0 (execMac h a rs1 rs2 s) := by
  unfold execMac
  repeat' (with_reducible first | assumption | refine accOp_keep _ _ _ _ _ _ ?_)

theorem execMacu_keep {s0 : State} (h : OpHead) (a : BitVec 2) (rs1 rs2 : BitVec 6) {s : State} (h0 : Keep s0 s) :
    KeepNext s0 (execMacu h a rs1 rs2 s) := by
  unfold execMacu
  repeat' (with_reducible first | assumption | refine accOp_keep _ _ _ _ _ _ ?_)

theorem execMsu_keep {s0 : State} (h : OpHead) (a : BitVec 2) (rs1 rs2 : BitVec 6) {s : State} (h0 : Keep s0 s) :
    KeepNext s0 (execMsu h a rs1 rs2 s) := by
  unfold execMsu
  repeat' (with_reducible first | assumption | refine accOp_keep _ _ _ _ _ _ ?_)

theorem execMac2_keep {s0 : State} (h : OpHead) (a : BitVec 2) (rs1 rs2 : BitVec 6) {s : State} (h0 : Keep s0 s) :
    KeepNext s0 (execMac2 h a rs1 rs2 s) := by
  unfold execMac2
  repeat' (with_reducible first | assumption | refine accOp_keep _ _ _ _ _ _ ?_)

theorem execAclr_keep {s0 : State} (h : OpHead) (a : BitVec 2) {s : State} (h0 : Keep s0 s) :
    KeepNext s0 (execAclr h a s) := by
  unfold execAclr
  repeat' (with_reducible first | assumption | refine plainOp_keep _ _ _ _ _ ?_)

theorem execAwr_keep {s0 : State} (h : OpHead) (a : BitVec 2) (reg : BitVec 6) {s : State} (h0 : Keep s0 s) :
    KeepNext s0 (execAwr h a reg s) := by
  unfold execAwr
  repeat' (with_reducible first | assumption | refine plainOp_keep _ _ _ _ _ ?_)

theorem execArd_keep {s0 : State} (h : OpHead) (a : BitVec 2) (d r : Bool) (reg shift : BitVec 6) {s : State} (h0 : Keep s0 s) :
    KeepNext s0 (execArd h a d r reg shift s) := by
  unfold execArd
  repeat' (with_reducible first | assumption | refine plainOp_keep _ _ _ _ _ ?_)

theorem afterLoad_keep {s0 : State} (k : Nat) (s : State) {s' : State} (h0 : Keep s0 s') :
    Keep s0 (afterLoad k s s') := by
  unfold afterLoad
  repeat' (with_reducible first | assumption | refine lmDrawn_keep _ ?_ | refine Keep.ite ?_ ?_)

theorem loadOp_keep {s0 : State} (h : OpHead) (op size : Nat) (rt : BitVec 6) (g : BitVec 4) (form : BitVec 2) (opnd : BitVec 9) (ecc : Fin 3) (f : Nat → List Eff) {s : State} (h0 : Keep s0 s) :
    KeepNext s0 (loadOp h op size rt g form opnd ecc f s) := by
  unfold loadOp
  repeat' (with_reducible first
    | assumption | refine drayOp_keep _ _ _ _ _ ?_ | refine afterLoad_keep _ _ ?_ | refine KeepNext.next ?_)

theorem storeOp_keep {s0 : State} (h : OpHead) (op size : Nat) (rt : BitVec 6) (g : BitVec 4) (form : BitVec 2) (opnd : BitVec 9) (f : Core → Nat) {s : State} (h0 : Keep s0 s) :
    KeepNext s0 (storeOp h op size rt g form opnd f s) := by
  unfold storeOp
  repeat' (with_reducible first | assumption | refine drayOp_keep _ _ _ _ _ ?_ | refine KeepNext.next ?_)

theorem execLdb_keep {s0 : State} (h : OpHead) (rt : BitVec 6) (g : BitVec 4) (form : BitVec 2) (opnd : BitVec 9) (ecc : Fin 3) {s : State} (h0 : Keep s0 s) :
    KeepNext s0 (execLdb h rt g form opnd ecc s) := by
  unfold execLdb
  repeat' (with_reducible first | assumption | refine loadOp_keep _ _ _ _ _ _ _ _ _ ?_)

theorem execLdbu_keep {s0 : State} (h : OpHead) (rt : BitVec 6) (g : BitVec 4) (form : BitVec 2) (opnd : BitVec 9) (ecc : Fin 3) {s : State} (h0 : Keep s0 s) :
    KeepNext s0 (execLdbu h rt g form opnd ecc s) := by
  unfold execLdbu
  repeat' (with_reducible first | assumption | refine loadOp_keep _ _ _ _ _ _ _ _ _ ?_)

theorem execLdh_keep {s0 : State} (h : OpHead) (rt : BitVec 6) (g : BitVec 4) (form : BitVec 2) (opnd : BitVec 9) (ecc : Fin 3) {s : State} (h0 : Keep s0 s) :
    KeepNext s0 (execLdh h rt g form opnd ecc s) := by
  unfold execLdh
  repeat' (with_reducible first | assumption | refine loadOp_keep _ _ _ _ _ _ _ _ _ ?_)

theorem execLdhu_keep {s0 : State} (h : OpHead) (rt : BitVec 6) (g : BitVec 4) (form : BitVec 2) (opnd : BitVec 9) (ecc : Fin 3) {s : State} (h0 : Keep s0 s) :
    KeepNext s0 (execLdhu h rt g form opnd ecc s) := by
  unfold execLdhu
  repeat' (with_reducible first | assumption | refine loadOp_keep _ _ _ _ _ _ _ _ _ ?_)

theorem execLdw_keep {s0 : State} (h : OpHead) (rt : BitVec 6) (g : BitVec 4) (form : BitVec 2) (opnd : BitVec 9) (ecc : Fin 3) {s : State} (h0 : Keep s0 s) :
    KeepNext s0 (execLdw h rt g form opnd ecc s) := by
  unfold execLdw
  repeat' (with_reducible first | assumption | refine loadOp_keep _ _ _ _ _ _ _ _ _ ?_)

theorem execLdd_keep {s0 : State} (h : OpHead) (rt : BitVec 6) (g : BitVec 4) (form : BitVec 2) (opnd : BitVec 9) (ecc : Fin 3) {s : State} (h0 : Keep s0 s) :
    KeepNext s0 (execLdd h rt g form opnd ecc s) := by
  unfold execLdd
  repeat' (with_reducible first | assumption | refine loadOp_keep _ _ _ _ _ _ _ _ _ ?_)

theorem execStb_keep {s0 : State} (h : OpHead) (rt : BitVec 6) (g : BitVec 4) (form : BitVec 2) (opnd : BitVec 9) {s : State} (h0 : Keep s0 s) :
    KeepNext s0 (execStb h rt g form opnd s) := by
  unfold execStb
  repeat' (with_reducible first | assumption | refine storeOp_keep _ _ _ _ _ _ _ _ ?_)

theorem execSth_keep {s0 : State} (h : OpHead) (rt : BitVec 6) (g : BitVec 4) (form : BitVec 2) (opnd : BitVec 9) {s : State} (h0 : Keep s0 s) :
    KeepNext s0 (execSth h rt g form opnd s) := by
  unfold execSth
  repeat' (with_reducible first | assumption | refine storeOp_keep _ _ _ _ _ _ _ _ ?_)

theorem execStw_keep {s0 : State} (h : OpHead) (rt : BitVec 6) (g : BitVec 4) (form : BitVec 2) (opnd : BitVec 9) {s : State} (h0 : Keep s0 s) :
    KeepNext s0 (execStw h rt g form opnd s) := by
  unfold execStw
  repeat' (with_reducible first | assumption | refine storeOp_keep _ _ _ _ _ _ _ _ ?_)

theorem execStd_keep {s0 : State} (h : OpHead) (rt : BitVec 6) (g : BitVec 4) (form : BitVec 2) (opnd : BitVec 9) {s : State} (h0 : Keep s0 s) :
    KeepNext s0 (execStd h rt g form opnd s) := by
  unfold execStd
  repeat' (with_reducible first | assumption | refine storeOp_keep _ _ _ _ _ _ _ _ ?_)

theorem execMacd_keep {s0 : State} (h : OpHead) (a : BitVec 2) (gx gy : BitVec 4) (sa sb : BitVec 6) (ty : BitVec 2) (sub : Bool) (mode : BitVec 2) (ecc ecc' : Fin 3) {s : State} (h0 : Keep s0 s) :
    KeepNext s0 (execMacd h a gx gy sa sb ty sub mode ecc ecc' s) := by
  unfold execMacd
  repeat' (with_reducible first
    | assumption | refine drayOp_keep _ _ _ _ _ ?_ | refine afterLoad_keep _ _ ?_ | refine KeepNext.next ?_)

end Sys2Proof.Machine
end

