-- ==== Sys2Proof/Laws/KeepDraySeg.lean ====
section
/-!
SUPPORT. `Keep` for what Machine/DraySeg.lean defines.
-/

namespace Sys2Proof.Machine

theorem drewOne_keep {s0 : State} (h : OpHead) (s : State) {s' : State} (h0 : Keep s0 s') :
    Keep s0 (drewOne h s s') := by
  unfold drewOne
  repeat' (with_reducible first | assumption | refine draws_keep _ ?_ | refine Keep.ite ?_ ?_)

theorem execSegld_keep {s0 : State} (h : OpHead) (gd : BitVec 4) (i : Nat) (ecc : Bool) {s : State} (h0 : Keep s0 s) :
    KeepNext s0 (execSegld h gd i ecc s) := by
  unfold execSegld
  repeat' (with_reducible first
    | assumption | refine drayOp_keep _ _ _ _ _ ?_ | refine drewOne_keep _ _ ?_ | refine KeepNext.next ?_)

theorem execSegsub_keep {s0 : State} (h : OpHead) (gd gs : BitVec 4) (mask : BitVec 3) (off len : BitVec 19) {s : State} (h0 : Keep s0 s) :
    KeepNext s0 (execSegsub h gd gs mask off len s) := by
  unfold execSegsub
  repeat' (with_reducible first | assumption | refine drayOp_keep _ _ _ _ _ ?_ | refine KeepNext.next ?_)

theorem execSegmv_keep {s0 : State} (h : OpHead) (gd gs : BitVec 4) {s : State} (h0 : Keep s0 s) :
    KeepNext s0 (execSegmv h gd gs s) := by
  unfold execSegmv
  repeat' (with_reducible first | assumption | refine plainOp_keep _ _ _ _ _ ?_)

theorem execSegrd_keep {s0 : State} (h : OpHead) (rd : BitVec 6) (gs : BitVec 4) (fn : BitVec 3) {s : State} (h0 : Keep s0 s) :
    KeepNext s0 (execSegrd h rd gs fn s) := by
  unfold execSegrd
  repeat' (with_reducible first | assumption | refine plainOp_keep _ _ _ _ _ ?_)

theorem execZconf_keep {s0 : State} (h : OpHead) (gx : BitVec 4) {s : State} (h0 : Keep s0 s) :
    KeepNext s0 (execZconf h gx s) := by
  unfold execZconf
  repeat' (with_reducible first
    | assumption | refine drayOp_keep _ _ _ _ _ ?_ | refine drewOne_keep _ _ ?_ | refine KeepNext.next ?_)

theorem farOp_keep {s0 : State} (h : OpHead) (op : Nat) (store : Bool) (gf gl : BitVec 4) (tag : BitVec 3) (dO : BitVec 5) (size : BitVec 4) (inc : Bool) {s : State} (h0 : Keep s0 s) :
    KeepNext s0 (farOp h op store gf gl tag dO size inc s) := by
  unfold farOp
  repeat' (with_reducible first | assumption | refine drayOp_keep _ _ _ _ _ ?_ | refine KeepNext.next ?_)

theorem execFarld_keep {s0 : State} (h : OpHead) (gf gl : BitVec 4) (tag : BitVec 3) (dO : BitVec 5) (size : BitVec 4) (inc : Bool) {s : State} (h0 : Keep s0 s) :
    KeepNext s0 (execFarld h gf gl tag dO size inc s) := by
  unfold execFarld
  repeat' (with_reducible first | assumption | refine farOp_keep _ _ _ _ _ _ _ _ _ ?_)

theorem execFarst_keep {s0 : State} (h : OpHead) (gf gl : BitVec 4) (tag : BitVec 3) (dO : BitVec 5) (size : BitVec 4) (inc : Bool) {s : State} (h0 : Keep s0 s) :
    KeepNext s0 (execFarst h gf gl tag dO size inc s) := by
  unfold execFarst
  repeat' (with_reducible first | assumption | refine farOp_keep _ _ _ _ _ _ _ _ _ ?_)

theorem execFwait_keep {s0 : State} (h : OpHead) (mask : BitVec 8) {s : State} (h0 : Keep s0 s) :
    KeepNext s0 (execFwait h mask s) := by
  unfold execFwait
  repeat' (with_reducible first | assumption | refine plainOp_keep _ _ _ _ _ ?_)

theorem execTagp_keep {s0 : State} (h : OpHead) (pd tag : BitVec 3) {s : State} (h0 : Keep s0 s) :
    KeepNext s0 (execTagp h pd tag s) := by
  unfold execTagp
  repeat' (with_reducible first | assumption | refine plainOp_keep _ _ _ _ _ ?_)

theorem execFstat_keep {s0 : State} (h : OpHead) (rd : BitVec 6) (tag : BitVec 3) {s : State} (h0 : Keep s0 s) :
    KeepNext s0 (execFstat h rd tag s) := by
  unfold execFstat
  repeat' (with_reducible first | assumption | refine plainOp_keep _ _ _ _ _ ?_)

theorem blkRun_keep {s0 : State} (k kind e rc rk pd : Nat) (bad cut : Option Nat) (fuel i : Nat) (r : BlkEnd) {s : State}
    (h0 : Keep s0 s) : Keep s0 (blkRun k kind e rc rk pd bad cut fuel i r s).2 := by
  induction fuel generalizing i r s with
  | zero => exact h0
  | succ n ih =>
    unfold blkRun
    split
    · exact h0
    · split
      · exact h0
      · rename_i x _
        have h1 : Keep s0 ((storeCells k x.cells (x.cells.foldl (fun s e => markDirty k e.1 1 s) s))) :=
          storeCells_keep _ _ (Keep.foldl h0 (fun _ _ h => markDirty_keep _ _ _ h))
        dsimp only
        split
        · dsimp only
          exact modCore_keep _ _ h1
        · exact ih _ _ (modCore_keep _ _ h1)

theorem blkOp_keep {s0 : State} (h : OpHead) (all : Bool) (kind : Nat) (size : BitVec 2) (pd : BitVec 3) (dC : BitVec 5) (sK : BitVec 6)
    (bad cut : Option Nat) {s : State} (h0 : Keep s0 s) : KeepNext s0 (blkOp h all kind size pd dC sK bad cut s) := by
  unfold blkOp
  extract_lets k e w illegal structural c0 held s1 cut' x s2
  split
  · have h1 : Keep s0 s1 := by
      refine drain_keep _ ?_
      unfold held
      split
      · exact lineFill_keep _ _ h0 (by assumption)
      · exact h0
    clear_value s1
    have hx : Keep s0 x.2 := blkRun_keep _ _ _ _ _ _ _ _ _ _ _ h1
    have h2 : Keep s0 s2 := hx
    clear_value s2 x
    split
    · refine KeepNext.next (drayEntry_keep _ _ _ _ _ ?_)
      split
      · exact report_keep _ _ _ _ h2
      · exact h2
    · split
      · exact h2
      · exact KeepNext.next (commit_keep _ (modCore_keep _ _ h2))
  · exact KeepNext.next (afterLoad_keep _ _ (drayOp_keep _ _ _ _ _ h0))

theorem execBcopy_keep {s0 : State} (h : OpHead) (all : Bool) (size : BitVec 2) (pd : BitVec 3) (dC : BitVec 5) (sK : BitVec 6) (bad cut : Option Nat) {s : State} (h0 : Keep s0 s) :
    KeepNext s0 (execBcopy h all size pd dC sK bad cut s) := by
  unfold execBcopy
  repeat' (with_reducible first | assumption | refine blkOp_keep _ _ _ _ _ _ _ _ _ ?_)

theorem execBfill_keep {s0 : State} (h : OpHead) (all : Bool) (size : BitVec 2) (pd : BitVec 3) (dC : BitVec 5) (sK : BitVec 6) (bad cut : Option Nat) {s : State} (h0 : Keep s0 s) :
    KeepNext s0 (execBfill h all size pd dC sK bad cut s) := by
  unfold execBfill
  repeat' (with_reducible first | assumption | refine blkOp_keep _ _ _ _ _ _ _ _ _ ?_)

theorem execBcmp_keep {s0 : State} (h : OpHead) (all : Bool) (size : BitVec 2) (pd : BitVec 3) (dC : BitVec 5) (sK : BitVec 6) (bad cut : Option Nat) {s : State} (h0 : Keep s0 s) :
    KeepNext s0 (execBcmp h all size pd dC sK bad cut s) := by
  unfold execBcmp
  repeat' (with_reducible first | assumption | refine blkOp_keep _ _ _ _ _ _ _ _ _ ?_)

theorem execBfind_keep {s0 : State} (h : OpHead) (all : Bool) (size : BitVec 2) (pd : BitVec 3) (dC : BitVec 5) (sK : BitVec 6) (bad cut : Option Nat) {s : State} (h0 : Keep s0 s) :
    KeepNext s0 (execBfind h all size pd dC sK bad cut s) := by
  unfold execBfind
  repeat' (with_reducible first | assumption | refine blkOp_keep _ _ _ _ _ _ _ _ _ ?_)

theorem execLock_keep {s0 : State} (h : OpHead) (dT : BitVec 5) (gf : BitVec 4) (sK : BitVec 6) (busy : Bool) {s : State} (h0 : Keep s0 s) :
    KeepNext s0 (execLock h dT gf sK busy s) := by
  unfold execLock
  repeat' (with_reducible first
    | assumption | refine drayOp_keep _ _ _ _ _ ?_ | refine drewOne_keep _ _ ?_ | refine KeepNext.next ?_)

theorem execUnlock_keep {s0 : State} (h : OpHead) (pd : BitVec 3) (dS : BitVec 5) (busy : Bool) {s : State} (h0 : Keep s0 s) :
    KeepNext s0 (execUnlock h pd dS busy s) := by
  unfold execUnlock
  repeat' (with_reducible first | assumption | refine drayOp_keep _ _ _ _ _ ?_ | refine KeepNext.next ?_)

end Sys2Proof.Machine
end

