-- ==== Sys2Proof/Laws/KeepDrayCtl.lean ====
section
/-!
SUPPORT. `Keep` for what Machine/DrayCtl.lean defines.
-/

namespace Sys2Proof.Machine

theorem branchOp_keep {s0 : State} (h : OpHead) (op : Nat) (kind : Nat) (annul : Bool) (fields : Nat) (target : Core → Nat) (link : Option Nat) {s : State} (h0 : Keep s0 s) :
    KeepNext s0 (branchOp h op kind annul fields target link s) := by
  unfold branchOp
  repeat' (with_reducible first | assumption | refine drayOp_keep _ _ _ _ _ ?_ | refine KeepNext.next ?_)

theorem execBr_keep {s0 : State} (h : OpHead) (annul : Bool) (off : BitVec 20) {s : State} (h0 : Keep s0 s) :
    KeepNext s0 (execBr h annul off s) := by
  unfold execBr
  repeat' (with_reducible first | assumption | refine branchOp_keep _ _ _ _ _ _ _ ?_)

theorem execBrl_keep {s0 : State} (h : OpHead) (annul : Bool) (rd : BitVec 6) (off : BitVec 14) {s : State} (h0 : Keep s0 s) :
    KeepNext s0 (execBrl h annul rd off s) := by
  unfold execBrl
  repeat' (with_reducible first | assumption | refine branchOp_keep _ _ _ _ _ _ _ ?_)

theorem execBrr_keep {s0 : State} (h : OpHead) (annul link : Bool) (rs rl : BitVec 6) {s : State} (h0 : Keep s0 s) :
    KeepNext s0 (execBrr h annul link rs rl s) := by
  unfold execBrr
  repeat' (with_reducible first | assumption | refine branchOp_keep _ _ _ _ _ _ _ ?_)

theorem loopOp_keep {s0 : State} (h : OpHead) (level : Nat) (reg : Bool) (dEnd : Nat) (cnt : BitVec 9) {s : State} (h0 : Keep s0 s) :
    KeepNext s0 (loopOp h level reg dEnd cnt s) := by
  unfold loopOp
  repeat' (with_reducible first | assumption | refine drayOp_keep _ _ _ _ _ ?_ | refine KeepNext.next ?_)

theorem execLoop0_keep {s0 : State} (h : OpHead) (reg : Bool) (dist : BitVec 10) (cnt : BitVec 9) {s : State} (h0 : Keep s0 s) :
    KeepNext s0 (execLoop0 h reg dist cnt s) := by
  unfold execLoop0
  repeat' (with_reducible first | assumption | refine loopOp_keep _ _ _ _ _ ?_)

theorem execLoop1_keep {s0 : State} (h : OpHead) (reg : Bool) (dist : BitVec 10) (cnt : BitVec 9) {s : State} (h0 : Keep s0 s) :
    KeepNext s0 (execLoop1 h reg dist cnt s) := by
  unfold execLoop1
  repeat' (with_reducible first | assumption | refine loopOp_keep _ _ _ _ _ ?_)

theorem execAtom_keep {s0 : State} (h : OpHead) (n1 : BitVec 5) {s : State} (h0 : Keep s0 s) :
    KeepNext s0 (execAtom h n1 s) := by
  unfold execAtom
  repeat' (with_reducible first | assumption | refine drayOp_keep _ _ _ _ _ ?_ | refine KeepNext.next ?_)

theorem execWait_keep {s0 : State} (h : OpHead) {s : State} (h0 : Keep s0 s) :
    KeepNext s0 (execWait h s) := by
  unfold execWait
  repeat' (with_reducible first | assumption | refine drayOp_keep _ _ _ _ _ ?_ | refine KeepNext.next ?_)

theorem execSyscall_keep {s0 : State} (h : OpHead) (code : BitVec 16) {s : State} (h0 : Keep s0 s) :
    KeepNext s0 (execSyscall h code s) := by
  unfold execSyscall
  repeat' (with_reducible first | assumption | refine drayOp_keep _ _ _ _ _ ?_ | refine KeepNext.next ?_)

theorem execRete_keep {s0 : State} (h : OpHead) {s : State} (h0 : Keep s0 s) :
    KeepNext s0 (execRete h s) := by
  unfold execRete
  repeat' (with_reducible first | assumption | refine drayOp_keep _ _ _ _ _ ?_ | refine KeepNext.next ?_)

theorem execBrk_keep {s0 : State} (h : OpHead) {s : State} (h0 : Keep s0 s) :
    KeepNext s0 (execBrk h s) := by
  unfold execBrk
  repeat' (with_reducible first | assumption | refine drayOp_keep _ _ _ _ _ ?_ | refine KeepNext.next ?_)

theorem execMfc_keep {s0 : State} (h : OpHead) (rd : BitVec 6) (creg : BitVec 8) {s : State} (h0 : Keep s0 s) :
    KeepNext s0 (execMfc h rd creg s) := by
  unfold execMfc
  repeat' (with_reducible first | assumption | refine drayOp_keep _ _ _ _ _ ?_ | refine KeepNext.next ?_)

theorem execMtc_keep {s0 : State} (h : OpHead) (rs : BitVec 6) (creg : BitVec 8) {s : State} (h0 : Keep s0 s) :
    KeepNext s0 (execMtc h rs creg s) := by
  unfold execMtc
  repeat' (with_reducible first | assumption | refine drayOp_keep _ _ _ _ _ ?_ | refine KeepNext.next ?_)

end Sys2Proof.Machine
end

