-- ==== Sys2Proof/Laws/KeepDrayVop.lean ====
section
/-!
SUPPORT. `Keep` for what Machine/DrayVop.lean defines.
-/

namespace Sys2Proof.Machine

theorem vecOp_keep {s0 : State} (h : OpHead) (w : Nat) (illegal : Bool) (steps : Core → Nat) (cfg : Core → Bool) (run : Core → State → Plan) {s : State} (h0 : Keep s0 s) :
    KeepNext s0 (vecOp h w illegal steps cfg run s) := by
  unfold vecOp
  repeat' (with_reducible first
    | assumption | refine drayOp_keep _ _ _ _ _ ?_ | refine afterLoad_keep _ _ ?_ | refine KeepNext.next ?_)

theorem vec3_keep {s0 : State} (h : OpHead) (op lat : Nat) (vd vs1 vs2 : BitVec 5) (mask : BitVec 3) {s : State} (h0 : Keep s0 s) :
    KeepNext s0 (vec3 h op lat vd vs1 vs2 mask s) := by
  unfold vec3
  repeat' (with_reducible first | assumption | refine vecOp_keep _ _ _ _ _ _ ?_)

theorem vecWide_keep {s0 : State} (h : OpHead) (op : Nat) (vd vs1 vs2 : BitVec 5) (mask : BitVec 3) {s : State} (h0 : Keep s0 s) :
    KeepNext s0 (vecWide h op vd vs1 vs2 mask s) := by
  unfold vecWide
  repeat' (with_reducible first | assumption | refine vecOp_keep _ _ _ _ _ _ ?_)

theorem vecImm_keep {s0 : State} (h : OpHead) (op : Nat) (vd vs1 : BitVec 5) (imm : BitVec 5) (mask : BitVec 3) {s : State} (h0 : Keep s0 s) :
    KeepNext s0 (vecImm h op vd vs1 imm mask s) := by
  unfold vecImm
  repeat' (with_reducible first | assumption | refine vecOp_keep _ _ _ _ _ _ ?_)

theorem vecMod_keep {s0 : State} (h : OpHead) (op : Nat) (wide : Bool) (vd vs1 : BitVec 5) (sQ : BitVec 6) {s : State} (h0 : Keep s0 s) :
    KeepNext s0 (vecMod h op wide vd vs1 sQ s) := by
  unfold vecMod
  repeat' (with_reducible first | assumption | refine vecOp_keep _ _ _ _ _ _ ?_)

theorem execVadd_keep {s0 : State} (h : OpHead) (vd vs1 vs2 : BitVec 5) (mask : BitVec 3) {s : State} (h0 : Keep s0 s) :
    KeepNext s0 (execVadd h vd vs1 vs2 mask s) := by
  unfold execVadd
  repeat' (with_reducible first | assumption | refine vec3_keep _ _ _ _ _ _ _ ?_)

theorem execVsub_keep {s0 : State} (h : OpHead) (vd vs1 vs2 : BitVec 5) (mask : BitVec 3) {s : State} (h0 : Keep s0 s) :
    KeepNext s0 (execVsub h vd vs1 vs2 mask s) := by
  unfold execVsub
  repeat' (with_reducible first | assumption | refine vec3_keep _ _ _ _ _ _ _ ?_)

theorem execVand_keep {s0 : State} (h : OpHead) (vd vs1 vs2 : BitVec 5) (mask : BitVec 3) {s : State} (h0 : Keep s0 s) :
    KeepNext s0 (execVand h vd vs1 vs2 mask s) := by
  unfold execVand
  repeat' (with_reducible first | assumption | refine vec3_keep _ _ _ _ _ _ _ ?_)

theorem execVor_keep {s0 : State} (h : OpHead) (vd vs1 vs2 : BitVec 5) (mask : BitVec 3) {s : State} (h0 : Keep s0 s) :
    KeepNext s0 (execVor h vd vs1 vs2 mask s) := by
  unfold execVor
  repeat' (with_reducible first | assumption | refine vec3_keep _ _ _ _ _ _ _ ?_)

theorem execVxor_keep {s0 : State} (h : OpHead) (vd vs1 vs2 : BitVec 5) (mask : BitVec 3) {s : State} (h0 : Keep s0 s) :
    KeepNext s0 (execVxor h vd vs1 vs2 mask s) := by
  unfold execVxor
  repeat' (with_reducible first | assumption | refine vec3_keep _ _ _ _ _ _ _ ?_)

theorem execVmin_keep {s0 : State} (h : OpHead) (vd vs1 vs2 : BitVec 5) (mask : BitVec 3) {s : State} (h0 : Keep s0 s) :
    KeepNext s0 (execVmin h vd vs1 vs2 mask s) := by
  unfold execVmin
  repeat' (with_reducible first | assumption | refine vec3_keep _ _ _ _ _ _ _ ?_)

theorem execVmax_keep {s0 : State} (h : OpHead) (vd vs1 vs2 : BitVec 5) (mask : BitVec 3) {s : State} (h0 : Keep s0 s) :
    KeepNext s0 (execVmax h vd vs1 vs2 mask s) := by
  unfold execVmax
  repeat' (with_reducible first | assumption | refine vec3_keep _ _ _ _ _ _ _ ?_)

theorem execVminu_keep {s0 : State} (h : OpHead) (vd vs1 vs2 : BitVec 5) (mask : BitVec 3) {s : State} (h0 : Keep s0 s) :
    KeepNext s0 (execVminu h vd vs1 vs2 mask s) := by
  unfold execVminu
  repeat' (with_reducible first | assumption | refine vec3_keep _ _ _ _ _ _ _ ?_)

theorem execVmaxu_keep {s0 : State} (h : OpHead) (vd vs1 vs2 : BitVec 5) (mask : BitVec 3) {s : State} (h0 : Keep s0 s) :
    KeepNext s0 (execVmaxu h vd vs1 vs2 mask s) := by
  unfold execVmaxu
  repeat' (with_reducible first | assumption | refine vec3_keep _ _ _ _ _ _ _ ?_)

theorem execVshl_keep {s0 : State} (h : OpHead) (vd vs1 vs2 : BitVec 5) (mask : BitVec 3) {s : State} (h0 : Keep s0 s) :
    KeepNext s0 (execVshl h vd vs1 vs2 mask s) := by
  unfold execVshl
  repeat' (with_reducible first | assumption | refine vec3_keep _ _ _ _ _ _ _ ?_)

theorem execVshr_keep {s0 : State} (h : OpHead) (vd vs1 vs2 : BitVec 5) (mask : BitVec 3) {s : State} (h0 : Keep s0 s) :
    KeepNext s0 (execVshr h vd vs1 vs2 mask s) := by
  unfold execVshr
  repeat' (with_reducible first | assumption | refine vec3_keep _ _ _ _ _ _ _ ?_)

theorem execVsra_keep {s0 : State} (h : OpHead) (vd vs1 vs2 : BitVec 5) (mask : BitVec 3) {s : State} (h0 : Keep s0 s) :
    KeepNext s0 (execVsra h vd vs1 vs2 mask s) := by
  unfold execVsra
  repeat' (with_reducible first | assumption | refine vec3_keep _ _ _ _ _ _ _ ?_)

theorem execVmv_keep {s0 : State} (h : OpHead) (vd vs1 vs2 : BitVec 5) (mask : BitVec 3) {s : State} (h0 : Keep s0 s) :
    KeepNext s0 (execVmv h vd vs1 vs2 mask s) := by
  unfold execVmv
  repeat' (with_reducible first | assumption | refine vecOp_keep _ _ _ _ _ _ ?_)

theorem execVsel_keep {s0 : State} (h : OpHead) (vd vs1 vs2 : BitVec 5) (mask : BitVec 3) {s : State} (h0 : Keep s0 s) :
    KeepNext s0 (execVsel h vd vs1 vs2 mask s) := by
  unfold execVsel
  repeat' (with_reducible first | assumption | refine vec3_keep _ _ _ _ _ _ _ ?_)

theorem execVcmp_keep {s0 : State} (h : OpHead) (md cond : BitVec 3) (vs1 vs2 : BitVec 5) (mask : BitVec 3) (comb : BitVec 2) {s : State} (h0 : Keep s0 s) :
    KeepNext s0 (execVcmp h md cond vs1 vs2 mask comb s) := by
  unfold execVcmp
  repeat' (with_reducible first | assumption | refine vecOp_keep _ _ _ _ _ _ ?_)

theorem execVmul_keep {s0 : State} (h : OpHead) (vd vs1 vs2 : BitVec 5) (mask : BitVec 3) {s : State} (h0 : Keep s0 s) :
    KeepNext s0 (execVmul h vd vs1 vs2 mask s) := by
  unfold execVmul
  repeat' (with_reducible first | assumption | refine vec3_keep _ _ _ _ _ _ _ ?_)

theorem execVmulh_keep {s0 : State} (h : OpHead) (vd vs1 vs2 : BitVec 5) (mask : BitVec 3) {s : State} (h0 : Keep s0 s) :
    KeepNext s0 (execVmulh h vd vs1 vs2 mask s) := by
  unfold execVmulh
  repeat' (with_reducible first | assumption | refine vec3_keep _ _ _ _ _ _ _ ?_)

theorem execVmulhu_keep {s0 : State} (h : OpHead) (vd vs1 vs2 : BitVec 5) (mask : BitVec 3) {s : State} (h0 : Keep s0 s) :
    KeepNext s0 (execVmulhu h vd vs1 vs2 mask s) := by
  unfold execVmulhu
  repeat' (with_reducible first | assumption | refine vec3_keep _ _ _ _ _ _ _ ?_)

theorem execVwmul_keep {s0 : State} (h : OpHead) (vd vs1 vs2 : BitVec 5) (mask : BitVec 3) {s : State} (h0 : Keep s0 s) :
    KeepNext s0 (execVwmul h vd vs1 vs2 mask s) := by
  unfold execVwmul
  repeat' (with_reducible first | assumption | refine vecWide_keep _ _ _ _ _ _ ?_)

theorem execVwmulu_keep {s0 : State} (h : OpHead) (vd vs1 vs2 : BitVec 5) (mask : BitVec 3) {s : State} (h0 : Keep s0 s) :
    KeepNext s0 (execVwmulu h vd vs1 vs2 mask s) := by
  unfold execVwmulu
  repeat' (with_reducible first | assumption | refine vecWide_keep _ _ _ _ _ _ ?_)

theorem execVwmac_keep {s0 : State} (h : OpHead) (vd vs1 vs2 : BitVec 5) (mask : BitVec 3) {s : State} (h0 : Keep s0 s) :
    KeepNext s0 (execVwmac h vd vs1 vs2 mask s) := by
  unfold execVwmac
  repeat' (with_reducible first | assumption | refine vecWide_keep _ _ _ _ _ _ ?_)

theorem execVwmacu_keep {s0 : State} (h : OpHead) (vd vs1 vs2 : BitVec 5) (mask : BitVec 3) {s : State} (h0 : Keep s0 s) :
    KeepNext s0 (execVwmacu h vd vs1 vs2 mask s) := by
  unfold execVwmacu
  repeat' (with_reducible first | assumption | refine vecWide_keep _ _ _ _ _ _ ?_)

theorem execVdot4_keep {s0 : State} (h : OpHead) (vd vs1 vs2 : BitVec 5) (mask : BitVec 3) {s : State} (h0 : Keep s0 s) :
    KeepNext s0 (execVdot4 h vd vs1 vs2 mask s) := by
  unfold execVdot4
  repeat' (with_reducible first | assumption | refine vecOp_keep _ _ _ _ _ _ ?_)

theorem execVqadd_keep {s0 : State} (h : OpHead) (vd vs1 vs2 : BitVec 5) (mask : BitVec 3) {s : State} (h0 : Keep s0 s) :
    KeepNext s0 (execVqadd h vd vs1 vs2 mask s) := by
  unfold execVqadd
  repeat' (with_reducible first | assumption | refine vec3_keep _ _ _ _ _ _ _ ?_)

theorem execVqsub_keep {s0 : State} (h : OpHead) (vd vs1 vs2 : BitVec 5) (mask : BitVec 3) {s : State} (h0 : Keep s0 s) :
    KeepNext s0 (execVqsub h vd vs1 vs2 mask s) := by
  unfold execVqsub
  repeat' (with_reducible first | assumption | refine vec3_keep _ _ _ _ _ _ _ ?_)

theorem execVqaddu_keep {s0 : State} (h : OpHead) (vd vs1 vs2 : BitVec 5) (mask : BitVec 3) {s : State} (h0 : Keep s0 s) :
    KeepNext s0 (execVqaddu h vd vs1 vs2 mask s) := by
  unfold execVqaddu
  repeat' (with_reducible first | assumption | refine vec3_keep _ _ _ _ _ _ _ ?_)

theorem execVqsubu_keep {s0 : State} (h : OpHead) (vd vs1 vs2 : BitVec 5) (mask : BitVec 3) {s : State} (h0 : Keep s0 s) :
    KeepNext s0 (execVqsubu h vd vs1 vs2 mask s) := by
  unfold execVqsubu
  repeat' (with_reducible first | assumption | refine vec3_keep _ _ _ _ _ _ _ ?_)

theorem execVqdmulh_keep {s0 : State} (h : OpHead) (vd vs1 vs2 : BitVec 5) (mask : BitVec 3) {s : State} (h0 : Keep s0 s) :
    KeepNext s0 (execVqdmulh h vd vs1 vs2 mask s) := by
  unfold execVqdmulh
  repeat' (with_reducible first | assumption | refine vec3_keep _ _ _ _ _ _ _ ?_)

theorem execVqrdmulh_keep {s0 : State} (h : OpHead) (vd vs1 vs2 : BitVec 5) (mask : BitVec 3) {s : State} (h0 : Keep s0 s) :
    KeepNext s0 (execVqrdmulh h vd vs1 vs2 mask s) := by
  unfold execVqrdmulh
  repeat' (with_reducible first | assumption | refine vec3_keep _ _ _ _ _ _ _ ?_)

theorem execVrshr_keep {s0 : State} (h : OpHead) (vd vs1 imm : BitVec 5) (mask : BitVec 3) {s : State} (h0 : Keep s0 s) :
    KeepNext s0 (execVrshr h vd vs1 imm mask s) := by
  unfold execVrshr
  repeat' (with_reducible first | assumption | refine vecImm_keep _ _ _ _ _ _ ?_)

theorem execVrshru_keep {s0 : State} (h : OpHead) (vd vs1 imm : BitVec 5) (mask : BitVec 3) {s : State} (h0 : Keep s0 s) :
    KeepNext s0 (execVrshru h vd vs1 imm mask s) := by
  unfold execVrshru
  repeat' (with_reducible first | assumption | refine vecImm_keep _ _ _ _ _ _ ?_)

theorem execVsat_keep {s0 : State} (h : OpHead) (vd vs1 imm : BitVec 5) (mask : BitVec 3) {s : State} (h0 : Keep s0 s) :
    KeepNext s0 (execVsat h vd vs1 imm mask s) := by
  unfold execVsat
  repeat' (with_reducible first | assumption | refine vecImm_keep _ _ _ _ _ _ ?_)

theorem execVsatu_keep {s0 : State} (h : OpHead) (vd vs1 imm : BitVec 5) (mask : BitVec 3) {s : State} (h0 : Keep s0 s) :
    KeepNext s0 (execVsatu h vd vs1 imm mask s) := by
  unfold execVsatu
  repeat' (with_reducible first | assumption | refine vecImm_keep _ _ _ _ _ _ ?_)

theorem execVmodredU_keep {s0 : State} (h : OpHead) (vd vs1 : BitVec 5) (sQ : BitVec 6) {s : State} (h0 : Keep s0 s) :
    KeepNext s0 (execVmodredU h vd vs1 sQ s) := by
  unfold execVmodredU
  repeat' (with_reducible first | assumption | refine vecMod_keep _ _ _ _ _ _ ?_)

theorem execVmodredUn_keep {s0 : State} (h : OpHead) (vd vs1 : BitVec 5) (sQ : BitVec 6) {s : State} (h0 : Keep s0 s) :
    KeepNext s0 (execVmodredUn h vd vs1 sQ s) := by
  unfold execVmodredUn
  repeat' (with_reducible first | assumption | refine vecMod_keep _ _ _ _ _ _ ?_)

theorem execVmodredSn_keep {s0 : State} (h : OpHead) (vd vs1 : BitVec 5) (sQ : BitVec 6) {s : State} (h0 : Keep s0 s) :
    KeepNext s0 (execVmodredSn h vd vs1 sQ s) := by
  unfold execVmodredSn
  repeat' (with_reducible first | assumption | refine vecMod_keep _ _ _ _ _ _ ?_)

theorem execVmodredS_keep {s0 : State} (h : OpHead) (vd vs1 : BitVec 5) (sQ : BitVec 6) {s : State} (h0 : Keep s0 s) :
    KeepNext s0 (execVmodredS h vd vs1 sQ s) := by
  unfold execVmodredS
  repeat' (with_reducible first | assumption | refine vecMod_keep _ _ _ _ _ _ ?_)

theorem vecLoad_keep {s0 : State} (h : OpHead) (fn : Nat) (strided inc : Bool) (vd : BitVec 5) (g : BitVec 4) (sK : BitVec 6) (mask : BitVec 3) (ecc : Fin 3) {s : State} (h0 : Keep s0 s) :
    KeepNext s0 (vecLoad h fn strided inc vd g sK mask ecc s) := by
  unfold vecLoad
  repeat' (with_reducible first | assumption | refine vecOp_keep _ _ _ _ _ _ ?_)

theorem vecStore_keep {s0 : State} (h : OpHead) (fn : Nat) (strided inc : Bool) (vs : BitVec 5) (g : BitVec 4) (sK : BitVec 6) (mask : BitVec 3) {s : State} (h0 : Keep s0 s) :
    KeepNext s0 (vecStore h fn strided inc vs g sK mask s) := by
  unfold vecStore
  repeat' (with_reducible first | assumption | refine vecOp_keep _ _ _ _ _ _ ?_)

theorem execVld_keep {s0 : State} (h : OpHead) (vd : BitVec 5) (g : BitVec 4) (sK : BitVec 6) (mask : BitVec 3) (ecc : Fin 3) {s : State} (h0 : Keep s0 s) :
    KeepNext s0 (execVld h vd g sK mask ecc s) := by
  unfold execVld
  repeat' (with_reducible first | assumption | refine vecLoad_keep _ _ _ _ _ _ _ _ _ ?_)

theorem execVldInc_keep {s0 : State} (h : OpHead) (vd : BitVec 5) (g : BitVec 4) (sK : BitVec 6) (mask : BitVec 3) (ecc : Fin 3) {s : State} (h0 : Keep s0 s) :
    KeepNext s0 (execVldInc h vd g sK mask ecc s) := by
  unfold execVldInc
  repeat' (with_reducible first | assumption | refine vecLoad_keep _ _ _ _ _ _ _ _ _ ?_)

theorem execVst_keep {s0 : State} (h : OpHead) (vs : BitVec 5) (g : BitVec 4) (sK : BitVec 6) (mask : BitVec 3) {s : State} (h0 : Keep s0 s) :
    KeepNext s0 (execVst h vs g sK mask s) := by
  unfold execVst
  repeat' (with_reducible first | assumption | refine vecStore_keep _ _ _ _ _ _ _ _ ?_)

theorem execVstInc_keep {s0 : State} (h : OpHead) (vs : BitVec 5) (g : BitVec 4) (sK : BitVec 6) (mask : BitVec 3) {s : State} (h0 : Keep s0 s) :
    KeepNext s0 (execVstInc h vs g sK mask s) := by
  unfold execVstInc
  repeat' (with_reducible first | assumption | refine vecStore_keep _ _ _ _ _ _ _ _ ?_)

theorem execVlds_keep {s0 : State} (h : OpHead) (vd : BitVec 5) (g : BitVec 4) (sK : BitVec 6) (mask : BitVec 3) (ecc : Fin 3) {s : State} (h0 : Keep s0 s) :
    KeepNext s0 (execVlds h vd g sK mask ecc s) := by
  unfold execVlds
  repeat' (with_reducible first | assumption | refine vecLoad_keep _ _ _ _ _ _ _ _ _ ?_)

theorem execVsts_keep {s0 : State} (h : OpHead) (vs : BitVec 5) (g : BitVec 4) (sK : BitVec 6) (mask : BitVec 3) {s : State} (h0 : Keep s0 s) :
    KeepNext s0 (execVsts h vs g sK mask s) := by
  unfold execVsts
  repeat' (with_reducible first | assumption | refine vecStore_keep _ _ _ _ _ _ _ _ ?_)

theorem execVstrip_keep {s0 : State} (h : OpHead) (pd : BitVec 3) (rs : BitVec 6) (ew span : BitVec 2) {s : State} (h0 : Keep s0 s) :
    KeepNext s0 (execVstrip h pd rs ew span s) := by
  unfold execVstrip
  repeat' (with_reducible first | assumption | refine plainOp_keep _ _ _ _ _ ?_)

theorem vecReduce_keep {s0 : State} (h : OpHead) (fn : Nat) (rd : BitVec 6) (vs1 : BitVec 5) (mask : BitVec 3) {s : State} (h0 : Keep s0 s) :
    KeepNext s0 (vecReduce h fn rd vs1 mask s) := by
  unfold vecReduce
  repeat' (with_reducible first | assumption | refine vecOp_keep _ _ _ _ _ _ ?_)

theorem execVredsum_keep {s0 : State} (h : OpHead) (rd : BitVec 6) (vs1 : BitVec 5) (mask : BitVec 3) {s : State} (h0 : Keep s0 s) :
    KeepNext s0 (execVredsum h rd vs1 mask s) := by
  unfold execVredsum
  repeat' (with_reducible first | assumption | refine vecReduce_keep _ _ _ _ _ ?_)

theorem execVredmax_keep {s0 : State} (h : OpHead) (rd : BitVec 6) (vs1 : BitVec 5) (mask : BitVec 3) {s : State} (h0 : Keep s0 s) :
    KeepNext s0 (execVredmax h rd vs1 mask s) := by
  unfold execVredmax
  repeat' (with_reducible first | assumption | refine vecReduce_keep _ _ _ _ _ ?_)

theorem execVredmin_keep {s0 : State} (h : OpHead) (rd : BitVec 6) (vs1 : BitVec 5) (mask : BitVec 3) {s : State} (h0 : Keep s0 s) :
    KeepNext s0 (execVredmin h rd vs1 mask s) := by
  unfold execVredmin
  repeat' (with_reducible first | assumption | refine vecReduce_keep _ _ _ _ _ ?_)

theorem execVmvxs_keep {s0 : State} (h : OpHead) (rd : BitVec 6) (vs1 : BitVec 5) (mask : BitVec 3) {s : State} (h0 : Keep s0 s) :
    KeepNext s0 (execVmvxs h rd vs1 mask s) := by
  unfold execVmvxs
  repeat' (with_reducible first | assumption | refine vecReduce_keep _ _ _ _ _ ?_)

theorem execVsplat_keep {s0 : State} (h : OpHead) (vd : BitVec 5) (rs : BitVec 6) (mask : BitVec 3) {s : State} (h0 : Keep s0 s) :
    KeepNext s0 (execVsplat h vd rs mask s) := by
  unfold execVsplat
  repeat' (with_reducible first | assumption | refine vecOp_keep _ _ _ _ _ _ ?_)

theorem maskOp_keep {s0 : State} (h : OpHead) (op : Nat) (md ma mb : BitVec 3) (f : BitVec 128 → BitVec 128 → BitVec 128) {s : State} (h0 : Keep s0 s) :
    KeepNext s0 (maskOp h op md ma mb f s) := by
  unfold maskOp
  repeat' (with_reducible first | assumption | refine vecOp_keep _ _ _ _ _ _ ?_)

theorem execMand_keep {s0 : State} (h : OpHead) (md ma mb : BitVec 3) {s : State} (h0 : Keep s0 s) :
    KeepNext s0 (execMand h md ma mb s) := by
  unfold execMand
  repeat' (with_reducible first | assumption | refine maskOp_keep _ _ _ _ _ _ ?_)

theorem execMor_keep {s0 : State} (h : OpHead) (md ma mb : BitVec 3) {s : State} (h0 : Keep s0 s) :
    KeepNext s0 (execMor h md ma mb s) := by
  unfold execMor
  repeat' (with_reducible first | assumption | refine maskOp_keep _ _ _ _ _ _ ?_)

theorem execMxor_keep {s0 : State} (h : OpHead) (md ma mb : BitVec 3) {s : State} (h0 : Keep s0 s) :
    KeepNext s0 (execMxor h md ma mb s) := by
  unfold execMxor
  repeat' (with_reducible first | assumption | refine maskOp_keep _ _ _ _ _ _ ?_)

theorem execMandn_keep {s0 : State} (h : OpHead) (md ma mb : BitVec 3) {s : State} (h0 : Keep s0 s) :
    KeepNext s0 (execMandn h md ma mb s) := by
  unfold execMandn
  repeat' (with_reducible first | assumption | refine maskOp_keep _ _ _ _ _ _ ?_)

end Sys2Proof.Machine
end

