-- ==== Sys2Proof/Laws/KeepDrayRun.lean ====
section
/-!
SUPPORT. `Keep` for what Machine/DrayRun.lean defines.
-/

namespace Sys2Proof.Machine

theorem coreStart_keep {s0 : State} (k : Nat) {s : State} (h0 : Keep s0 s) :
    Keep s0 (coreStart k s) := by
  unfold coreStart
  repeat' (with_reducible first
    | assumption | refine setF_keep _ _ ?_ | refine setCore_keep _ _ ?_ | refine boundary_keep _ ?_ | extract_lets
    | refine Keep.ite ?_ ?_)

theorem coreStop_keep {s0 : State} (k : Nat) {s : State} (h0 : Keep s0 s) :
    Keep s0 (coreStop k s) := by
  unfold coreStop
  repeat' (with_reducible first
    | assumption | refine setF_keep _ _ ?_ | refine stopNow_keep _ ?_ | extract_lets | refine Keep.ite ?_ ?_)

theorem coreStartAccess_keep {s0 : State} (r : Requester) (core : Fin 32) {s : State} (h0 : Keep s0 s) :
    Keep s0 (coreStartAccess r core s) := by
  unfold coreStartAccess
  repeat' (with_reducible first
    | assumption | refine reply_keep _ _ _ ?_ | refine leadRefuse_keep _ _ ?_ | refine coreStart_keep _ ?_
    | refine Keep.ite ?_ ?_)

theorem execCoreStart_keep {s0 : State} (r : Requester) (core : Fin 32) {s : State} (h0 : Keep s0 s) :
    KeepNext s0 (execCoreStart r core s) := by
  unfold execCoreStart
  repeat' (with_reducible first | assumption | refine coreStartAccess_keep _ _ ?_ | refine KeepNext.next ?_)

theorem coreStopAccess_keep {s0 : State} (r : Requester) (core : Fin 32) {s : State} (h0 : Keep s0 s) :
    Keep s0 (coreStopAccess r core s) := by
  unfold coreStopAccess
  repeat' (with_reducible first
    | assumption | refine reply_keep _ _ _ ?_ | refine leadRefuse_keep _ _ ?_ | refine coreStop_keep _ ?_
    | refine Keep.ite ?_ ?_)

theorem execCoreStop_keep {s0 : State} (r : Requester) (core : Fin 32) {s : State} (h0 : Keep s0 s) :
    KeepNext s0 (execCoreStop r core s) := by
  unfold execCoreStop
  repeat' (with_reducible first | assumption | refine coreStopAccess_keep _ _ ?_ | refine KeepNext.next ?_)

theorem lmClear_keep {s0 : State} (k : Nat) {s : State} (h0 : Keep s0 s) :
    Keep s0 (lmClear k s) := by
  unfold lmClear
  repeat' (with_reducible first
    | assumption | refine setF_keep _ _ ?_ | refine modCore_keep _ _ ?_ | refine memFilter_keep _ ?_)

theorem execLmClearDone_keep {s0 : State} (core : Fin 32) {s : State} (h0 : Keep s0 s) :
    KeepNext s0 (execLmClearDone core s) := by
  unfold execLmClearDone
  repeat' (with_reducible first
    | assumption | refine setF_keep _ _ ?_ | refine KeepNext.next ?_ | extract_lets | refine KeepNext.ite ?_ ?_)

theorem coreTake_keep {s0 : State} (k : Nat) {s : State} (h0 : Keep s0 s) :
    Keep s0 (coreTake k s).2 := by
  unfold coreTake
  repeat' (with_reducible first | assumption | refine bellTake_keep _ ?_ | refine modCore_keep _ _ ?_)

theorem execInterruptEntry_keep {s0 : State} (core : Fin 32) (cycles : Nat) {s : State} (h0 : Keep s0 s) :
    KeepNext s0 (execInterruptEntry core cycles s) := by
  unfold execInterruptEntry
  repeat' (with_reducible first
    | assumption | refine setF_keep _ _ ?_ | refine modCore_keep _ _ ?_ | refine drain_keep _ ?_
    | refine drayEntry_keep _ _ _ _ _ ?_ | refine faultSlot_keep _ ?_ | refine coreTake_keep _ ?_ | refine KeepNext.next ?_
    | extract_lets | refine KeepNext.ite ?_ ?_)

theorem dbgHaltAccess_keep {s0 : State} (r : Requester) (core : Fin 32) {s : State} (h0 : Keep s0 s) :
    Keep s0 (dbgHaltAccess r core s) := by
  unfold dbgHaltAccess
  repeat' (with_reducible first
    | assumption | refine reply_keep _ _ _ ?_ | refine decodeFault_keep _ _ ?_ | refine modCore_keep _ _ ?_ | extract_lets
    | refine Keep.ite ?_ ?_)

theorem execDbgHalt_keep {s0 : State} (r : Requester) (core : Fin 32) {s : State} (h0 : Keep s0 s) :
    KeepNext s0 (execDbgHalt r core s) := by
  unfold execDbgHalt
  repeat' (with_reducible first | assumption | refine dbgHaltAccess_keep _ _ ?_ | refine KeepNext.next ?_)

theorem dbgForceHaltAccess_keep {s0 : State} (r : Requester) (core : Fin 32) {s : State} (h0 : Keep s0 s) :
    Keep s0 (dbgForceHaltAccess r core s) := by
  unfold dbgForceHaltAccess
  repeat' (with_reducible first
    | assumption | refine reply_keep _ _ _ ?_ | refine decodeFault_keep _ _ ?_ | refine modCore_keep _ _ ?_ | extract_lets
    | refine Keep.ite ?_ ?_)

theorem execDbgForceHalt_keep {s0 : State} (r : Requester) (core : Fin 32) {s : State} (h0 : Keep s0 s) :
    KeepNext s0 (execDbgForceHalt r core s) := by
  unfold execDbgForceHalt
  repeat' (with_reducible first | assumption | refine dbgForceHaltAccess_keep _ _ ?_ | refine KeepNext.next ?_)

theorem resumeCore_keep {s0 : State} (k cycles : Nat) (step : Bool) {s : State} (h0 : Keep s0 s) :
    Keep s0 (resumeCore k cycles step s) := by
  unfold resumeCore
  repeat' (with_reducible first
    | assumption | refine setF_keep _ _ ?_ | refine cntSat_keep _ _ ?_ | refine modCore_keep _ _ ?_ | extract_lets
    | refine Keep.ite ?_ ?_)

theorem dbgResumeAccess_keep {s0 : State} (r : Requester) (core : Fin 32) (cycles : Nat) {s : State} (h0 : Keep s0 s) :
    Keep s0 (dbgResumeAccess r core cycles s) := by
  unfold dbgResumeAccess
  repeat' (with_reducible first
    | assumption | refine reply_keep _ _ _ ?_ | refine decodeFault_keep _ _ ?_ | refine resumeCore_keep _ _ _ ?_
    | refine Keep.ite ?_ ?_)

theorem execDbgResume_keep {s0 : State} (r : Requester) (core : Fin 32) (cycles : Nat) {s : State} (h0 : Keep s0 s) :
    KeepNext s0 (execDbgResume r core cycles s) := by
  unfold execDbgResume
  repeat' (with_reducible first | assumption | refine dbgResumeAccess_keep _ _ _ ?_ | refine KeepNext.next ?_)

theorem dbgStepAccess_keep {s0 : State} (r : Requester) (core : Fin 32) (cycles : Nat) {s : State} (h0 : Keep s0 s) :
    Keep s0 (dbgStepAccess r core cycles s) := by
  unfold dbgStepAccess
  repeat' (with_reducible first
    | assumption | refine reply_keep _ _ _ ?_ | refine decodeFault_keep _ _ ?_ | refine resumeCore_keep _ _ _ ?_
    | refine Keep.ite ?_ ?_)

theorem execDbgStep_keep {s0 : State} (r : Requester) (core : Fin 32) (cycles : Nat) {s : State} (h0 : Keep s0 s) :
    KeepNext s0 (execDbgStep r core cycles s) := by
  unfold execDbgStep
  repeat' (with_reducible first | assumption | refine dbgStepAccess_keep _ _ _ ?_ | refine KeepNext.next ?_)

theorem execHaltTaken_keep {s0 : State} (core : Fin 32) {s : State} (h0 : Keep s0 s) :
    KeepNext s0 (execHaltTaken core s) := by
  unfold execHaltTaken
  repeat' (with_reducible first
    | assumption | refine setF_keep _ _ ?_ | refine modCore_keep _ _ ?_ | refine haltNow_keep _ _ _ ?_ | refine KeepNext.next ?_
    | extract_lets | refine Keep.ite ?_ ?_ | refine KeepNext.ite ?_ ?_ | split)

theorem rdataAccess_keep {s0 : State} (r : Requester) (core : Fin 32) (write : Option Word) {s : State} (h0 : Keep s0 s) :
    Keep s0 (rdataAccess r core write s) := by
  unfold rdataAccess
  repeat' (with_reducible first
    | assumption | refine setF_keep _ _ ?_ | refine reply_keep _ _ _ ?_ | refine decodeFault_keep _ _ ?_
    | refine modCore_keep _ _ ?_ | extract_lets | refine Keep.ite ?_ ?_ | split)

theorem execDbgRdataAccess_keep {s0 : State} (r : Requester) (core : Fin 32) (write : Option Word) {s : State} (h0 : Keep s0 s) :
    KeepNext s0 (execDbgRdataAccess r core write s) := by
  unfold execDbgRdataAccess
  repeat' (with_reducible first | assumption | refine rdataAccess_keep _ _ _ ?_ | refine KeepNext.next ?_)

theorem traceReadAccess_keep {s0 : State} (r : Requester) (core : Fin 32) {s : State} (h0 : Keep s0 s) :
    Keep s0 (traceReadAccess r core s) := by
  unfold traceReadAccess
  repeat' (with_reducible first
    | assumption | refine reply_keep _ _ _ ?_ | refine modCore_keep _ _ ?_ | refine traceShow_keep _ ?_ | extract_lets
    | refine Keep.ite ?_ ?_ | split | refine keep_mk ((keep_iff _ _).1 ?_))

theorem execTraceRead_keep {s0 : State} (r : Requester) (core : Fin 32) {s : State} (h0 : Keep s0 s) :
    KeepNext s0 (execTraceRead r core s) := by
  unfold execTraceRead
  repeat' (with_reducible first | assumption | refine traceReadAccess_keep _ _ ?_ | refine KeepNext.next ?_)

end Sys2Proof.Machine
end

