-- ==== Sys2Proof/Laws/KeepTally.lean ====
section
/-!
SUPPORT. `Keep` for what Machine/Tally.lean defines.
-/

namespace Sys2Proof.Machine

theorem modTally_keep {s0 : State} {s : State} (f : Tally → Tally) (h0 : Keep s0 s) :
    Keep s0 (State.modTally s f) := by
  unfold State.modTally
  repeat' (with_reducible first | assumption | refine keep_mk ((keep_iff _ _).1 ?_))

theorem setTallyCount_keep {s0 : State} (n v : Nat) {s : State} (h0 : Keep s0 s) :
    Keep s0 (setTallyCount n v s) := by
  unfold setTallyCount
  repeat' (with_reducible first | assumption | refine wr64_keep _ _ ?_)

theorem armCompare_keep {s0 : State} (n k : Nat) (v : Bool) {s : State} (h0 : Keep s0 s) :
    Keep s0 (armCompare n k v s) := by
  unfold armCompare
  repeat' (with_reducible first | assumption | refine setF_keep _ _ ?_)

theorem markLate_keep {s0 : State} (n k : Nat) (v : Bool) {s : State} (h0 : Keep s0 s) :
    Keep s0 (markLate n k v s) := by
  unfold markLate
  repeat' (with_reducible first | assumption | refine modTally_keep _ ?_)

theorem tallyAdd_keep {s0 : State} (n : Nat) (inc : Int) {s : State} (h0 : Keep s0 s) :
    Keep s0 (tallyAdd n inc s).1 := by
  unfold tallyAdd
  repeat' (with_reducible first | assumption | refine setTallyCount_keep _ _ ?_)

theorem tallyClock_keep {s0 : State} (n : Nat) {s : State} (h0 : Keep s0 s) :
    Keep s0 (tallyClock n s).1 := by
  unfold tallyClock
  repeat' (with_reducible first | assumption | refine setTallyCount_keep _ _ ?_ | refine tallyAdd_keep _ _ ?_ | split)

theorem captureOver_keep {s0 : State} (n : Nat) {s : State} (h0 : Keep s0 s) :
    Keep s0 (captureOver n s) := by
  unfold captureOver
  repeat' (with_reducible first | assumption | refine setF_keep _ _ ?_ | refine report_keep _ _ _ _ ?_)

theorem captureRise_keep {s0 : State} (n : Nat) {s : State} (h0 : Keep s0 s) :
    Keep s0 (captureRise n s) := by
  unfold captureRise
  repeat' (with_reducible first
    | assumption | refine setF_keep _ _ ?_ | refine wr64_keep _ _ ?_ | refine captureOver_keep _ ?_ | extract_lets
    | refine Keep.ite ?_ ?_)

theorem captureFall_keep {s0 : State} (n : Nat) {s : State} (h0 : Keep s0 s) :
    Keep s0 (captureFall n s) := by
  unfold captureFall
  repeat' (with_reducible first
    | assumption | refine setF_keep _ _ ?_ | refine wr64_keep _ _ ?_ | refine captureOver_keep _ ?_ | extract_lets
    | refine Keep.ite ?_ ?_)

theorem tallyIrq_keep {s0 : State} (n : Nat) {s : State} (h0 : Keep s0 s) :
    Keep s0 (tallyIrq n s) := by
  unfold tallyIrq
  repeat' (with_reducible first | assumption | refine bellPulse_keep _ ?_)

theorem tallyCapture_keep {s0 : State} (n : Nat) {s : State} (h0 : Keep s0 s) :
    Keep s0 (tallyCapture n s) := by
  unfold tallyCapture
  repeat' (with_reducible first
    | assumption | refine captureRise_keep _ ?_ | refine captureFall_keep _ ?_ | refine tallyIrq_keep _ ?_ | extract_lets
    | refine Keep.ite ?_ ?_)

theorem fireCompare_keep {s0 : State} (n k : Nat) (late : Bool) {s : State} (h0 : Keep s0 s) :
    Keep s0 (fireCompare n k late s) := by
  unfold fireCompare
  repeat' (with_reducible first
    | assumption | refine setF_keep _ _ ?_ | refine wr64_keep _ _ ?_ | refine armCompare_keep _ _ _ ?_
    | refine markLate_keep _ _ _ ?_ | extract_lets | refine Keep.ite ?_ ?_)

theorem evalCompare_keep {s0 : State} (n : Nat) (aon : Bool) {x : State × Nat} (k : Nat) (h0 : Keep s0 x.1) :
    Keep s0 (evalCompare n aon x k).1 := by
  unfold evalCompare
  split
  · exact fireCompare_keep _ _ _ h0
  · exact h0

theorem tallyEvents_keep {s0 : State} (n : Nat) (wrapped aon : Bool) {s : State} (h0 : Keep s0 s) :
    Keep s0 (tallyEvents n wrapped aon s).1 := by
  unfold tallyEvents
  repeat' (with_reducible first
    | assumption | refine setF_keep _ _ ?_ | refine evalCompare_keep _ _ _ ?_ | extract_lets | split)

theorem tallyOutputs_keep {s0 : State} {s : State} (x : Nat × Nat) (h0 : Keep s0 s) :
    Keep s0 (tallyOutputs s x) := by
  unfold tallyOutputs
  repeat' (with_reducible first
    | assumption | refine setF_keep _ _ ?_ | refine captureRise_keep _ ?_ | extract_lets | refine Keep.ite ?_ ?_)

theorem tallyInterrupt_keep {s0 : State} {s : State} (x : Nat × Nat) (h0 : Keep s0 s) :
    Keep s0 (tallyInterrupt s x) := by
  unfold tallyInterrupt
  repeat' (with_reducible first | assumption | refine tallyIrq_keep _ ?_ | refine Keep.ite ?_ ?_)

theorem tallyEpoch_keep {s0 : State} (late : Bool) (x : Nat × Nat) {s : State} (h0 : Keep s0 s) :
    Keep s0 (tallyEpoch late x s) := by
  unfold tallyEpoch
  repeat' (with_reducible first
    | assumption | refine report_keep _ _ _ _ ?_ | refine switchEngine_keep ?_ | extract_lets | refine Keep.ite ?_ ?_)

theorem tallyActions_keep {s0 : State} (evts : List (Nat × Nat)) (late : Bool) {s : State} (h0 : Keep s0 s) :
    Keep s0 (tallyActions evts late s) := by
  unfold tallyActions
  repeat' (with_reducible first
    | assumption | refine setF_keep _ _ ?_ | refine setTallyCount_keep _ _ ?_ | refine tallyOutputs_keep _ ?_
    | refine tallyEpoch_keep _ _ ?_ | extract_lets | refine Keep.foldl ?_ (fun _ _ _ => ?_))

theorem gpioDrive_keep {s0 : State} (old : State) {s : State} (h0 : Keep s0 s) :
    Keep s0 (gpioDrive old s) := by
  unfold gpioDrive
  repeat' (with_reducible first
    | assumption | refine emit_keep _ ?_ | extract_lets | refine Keep.ite ?_ ?_ | refine Keep.foldl ?_ (fun _ _ _ => ?_)
    | split)

theorem tallySample_keep {s0 : State} (pins : Nat) {s : State} (h0 : Keep s0 s) :
    Keep s0 (tallySample pins s) := by
  unfold tallySample
  repeat' (with_reducible first | assumption | refine modTally_keep _ ?_)

theorem tallyChannel_keep {s0 : State} {x : State × List (Nat × Nat)} (n : Nat) (h0 : Keep s0 x.1) :
    Keep s0 (tallyChannel x n).1 := by
  unfold tallyChannel
  split
  · exact h0
  · exact tallyEvents_keep _ _ _ (tallyCapture_keep _ (tallyClock_keep _ h0))

theorem tickPasses_keep {s0 : State} {s : State} (h0 : Keep s0 s) :
    Keep s0 (tickPasses s) := by
  unfold tickPasses
  repeat' (with_reducible first | assumption | refine setF_keep _ _ ?_ | refine modPos_keep _ ?_ | refine now_keep _ ?_)

theorem execTallyEvaluation_keep {s0 : State} (pins : BitVec 18) {s : State} (h0 : Keep s0 s) :
    KeepNext s0 (execTallyEvaluation pins s) := by
  have h1 : Keep s0 (tallySample pins.toNat (tickPasses s)) := tallySample_keep _ (tickPasses_keep h0)
  unfold execTallyEvaluation
  generalize tallySample pins.toNat (tickPasses s) = s1 at h1 ⊢
  have hx : Keep s0 ((List.range 128).foldl tallyChannel (s1, [])).1 := Keep.foldl_fst h1 (fun u a h => tallyChannel_keep a h)
  dsimp only
  generalize (List.range 128).foldl tallyChannel (s1, []) = x at hx ⊢
  split
  · exact h0
  · exact heldCheck_keep (gpioDrive_keep _
      (tallyActions_keep _ _ (Keep.foldl (modTally_keep _ hx) (fun u a h => tallyInterrupt_keep _ h))))

theorem commitCompare_keep {s0 : State} (n k : Nat) (v : DWord) {s : State} (h0 : Keep s0 s) :
    Keep s0 (commitCompare n k v s) := by
  unfold commitCompare
  repeat' (with_reducible first
    | assumption | refine wr64_keep _ _ ?_ | refine armCompare_keep _ _ _ ?_ | refine markLate_keep _ _ _ ?_
    | refine fireCompare_keep _ _ _ ?_ | refine tallyInterrupt_keep _ ?_ | refine tallyActions_keep _ _ ?_
    | refine gpioDrive_keep _ ?_ | extract_lets | refine Keep.ite ?_ ?_)

theorem compareCommitAccess_keep {s0 : State} (r : Requester) (n : Fin 128) (k : Fin 4) (v : DWord) {s : State} (h0 : Keep s0 s) :
    Keep s0 (compareCommitAccess r n k v s) := by
  unfold compareCommitAccess
  repeat' (with_reducible first
    | assumption | refine reply_keep _ _ _ ?_ | refine decodeFault_keep _ _ ?_ | refine leadRefuse_keep _ _ ?_
    | refine commitCompare_keep _ _ _ ?_ | extract_lets | refine Keep.ite ?_ ?_)

theorem execCompareCommit_keep {s0 : State} (r : Requester) (n : Fin 128) (k : Fin 4) (v : DWord) {s : State} (h0 : Keep s0 s) :
    KeepNext s0 (execCompareCommit r n k v s) := by
  unfold execCompareCommit
  repeat' (with_reducible first | assumption | refine compareCommitAccess_keep _ _ _ _ ?_ | refine KeepNext.next ?_)

theorem disarmCompare_keep {s0 : State} (n k : Nat) {s : State} (h0 : Keep s0 s) :
    Keep s0 (disarmCompare n k s) := by
  unfold disarmCompare
  repeat' (with_reducible first | assumption | refine armCompare_keep _ _ _ ?_ | refine markLate_keep _ _ _ ?_)

theorem compareDisarmAccess_keep {s0 : State} (r : Requester) (n : Fin 128) (k : Fin 4) (v : Word) {s : State} (h0 : Keep s0 s) :
    Keep s0 (compareDisarmAccess r n k v s) := by
  unfold compareDisarmAccess
  repeat' (with_reducible first
    | assumption | refine wr_keep _ _ ?_ | refine reply_keep _ _ _ ?_ | refine decodeFault_keep _ _ ?_
    | refine leadRefuse_keep _ _ ?_ | refine disarmCompare_keep _ _ ?_ | extract_lets | refine Keep.ite ?_ ?_)

theorem execCompareDisarm_keep {s0 : State} (r : Requester) (n : Fin 128) (k : Fin 4) (v : Word) {s : State} (h0 : Keep s0 s) :
    KeepNext s0 (execCompareDisarm r n k v s) := by
  unfold execCompareDisarm
  repeat' (with_reducible first | assumption | refine compareDisarmAccess_keep _ _ _ _ ?_ | refine KeepNext.next ?_)

theorem writeCount_keep {s0 : State} (n : Nat) (v : DWord) (inc : Nat) {s : State} (h0 : Keep s0 s) :
    Keep s0 (writeCount n v inc s) := by
  unfold writeCount
  repeat' (with_reducible first | assumption | refine setTallyCount_keep _ _ ?_ | refine Keep.ite ?_ ?_)

theorem tallyCountWriteAccess_keep {s0 : State} (r : Requester) (n : Fin 128) (v : DWord) (inc : BitVec 32) {s : State} (h0 : Keep s0 s) :
    Keep s0 (tallyCountWriteAccess r n v inc s) := by
  unfold tallyCountWriteAccess
  repeat' (with_reducible first
    | assumption | refine reply_keep _ _ _ ?_ | refine leadRefuse_keep _ _ ?_ | refine writeCount_keep _ _ _ ?_
    | refine Keep.ite ?_ ?_)

theorem execTallyCountWrite_keep {s0 : State} (r : Requester) (n : Fin 128) (v : DWord) (inc : BitVec 32) {s : State} (h0 : Keep s0 s) :
    KeepNext s0 (execTallyCountWrite r n v inc s) := by
  unfold execTallyCountWrite
  repeat' (with_reducible first | assumption | refine tallyCountWriteAccess_keep _ _ _ _ ?_ | refine KeepNext.next ?_)

theorem tcfgWritten_keep {s0 : State} (n : Nat) {s : State} (h0 : Keep s0 s) :
    Keep s0 (tcfgWritten n s) := by
  unfold tcfgWritten
  repeat' (with_reducible first | assumption | refine setF_keep _ _ ?_ | refine gpioDrive_keep _ ?_ | refine Keep.ite ?_ ?_)

theorem latchEvent_keep {s0 : State} (n : Nat) {s : State} (h0 : Keep s0 s) :
    Keep s0 (latchEvent n s) := by
  unfold latchEvent
  repeat' (with_reducible first | assumption | refine setF_keep _ _ ?_ | extract_lets | refine Keep.ite ?_ ?_)

theorem lfChannel_keep {s0 : State} {s : State} (n : Nat) (h0 : Keep s0 s) : Keep s0 (lfChannel s n) := by
  unfold lfChannel
  extract_lets s1 c y s2
  split
  · have h1 : Keep s0 s1 := setF_keep _ _ (setF_keep _ _ h0)
    clear_value s1
    have hc : Keep s0 c.1 := by
      unfold c; split
      · exact tallyAdd_keep _ _ h1
      · exact h1
    clear_value c
    have hy : Keep s0 y.1 := tallyEvents_keep _ _ _ hc
    clear_value y
    have h2 : Keep s0 s2 := by
      unfold s2; split
      · exact latchEvent_keep _ hy
      · exact hy
    clear_value s2
    exact modTally_keep _ h2
  · exact h0

theorem execTallyLfPeriod_keep {s0 : State} {s : State} (h0 : Keep s0 s) :
    KeepNext s0 (execTallyLfPeriod s) := by
  unfold execTallyLfPeriod
  repeat' (with_reducible first
    | assumption | refine setF_keep _ _ ?_ | refine lfChannel_keep _ ?_ | refine now_keep _ ?_ | refine KeepNext.next ?_
    | extract_lets | refine KeepNext.ite ?_ ?_ | refine Keep.foldl ?_ (fun _ _ _ => ?_))

end Sys2Proof.Machine
end

