-- ==== Sys2Proof/Laws/KeepDeclared.lean ====
section
/-!
SUPPORT. `Keep` for what Machine/Declared.lean defines.
-/

namespace Sys2Proof.Machine

theorem showDigest_keep {s0 : State} (w : Nat → Nat) (d : List Byte) {s : State} (h0 : Keep s0 s) :
    Keep s0 (showDigest w d s) := by
  unfold showDigest
  repeat' (with_reducible first | assumption | refine wr_keep _ _ ?_ | refine Keep.foldl ?_ (fun _ _ _ => ?_))

theorem chDigest_keep {s0 : State} (n : Nat) {s : State} (h0 : Keep s0 s) :
    Keep s0 (chDigest n s) := by
  unfold chDigest
  repeat' (with_reducible first | assumption | refine showDigest_keep _ _ ?_)

theorem setRecords_keep {s0 : State} (l : List (Nat × List Byte)) {s : State} (h0 : Keep s0 s) :
    Keep s0 (setRecords l s) := by
  unfold setRecords
  repeat' (with_reducible first
    | assumption | refine showDigest_keep _ _ ?_ | refine chDigest_keep _ ?_ | extract_lets | refine Keep.ite ?_ ?_
    | refine Keep.foldl ?_ (fun _ _ _ => ?_) | refine keep_mk ((keep_iff _ _).1 ?_))

theorem takeGen_keep {s0 : State} (g : Nat) {s : State} (h0 : Keep s0 s) :
    Keep s0 (takeGen g s) := by
  unfold takeGen
  repeat' (with_reducible first
    | assumption | refine wr64_keep _ _ ?_ | refine loftProgram_keep _ _ ?_ | refine fabEvt_keep _ _ _ ?_)

theorem yfiFail_keep {s0 : State} (st : Nat) {s : State} (h0 : Keep s0 s) :
    Keep s0 (yfiFail st s).2.2 := by
  unfold yfiFail
  repeat' (with_reducible first | assumption)

theorem yfiRun_keep {s0 : State} (op : Nat) (m : Fin 16) (f : List Byte → State → YfiOut) {s : State} (hf : ∀ (y0 : List Byte) (x : State), Keep s0 x → Keep s0 (f y0 x).2.2) (h0 : Keep s0 s) :
    Keep s0 (yfiRun op m f s) := by
  unfold yfiRun
  repeat' (with_reducible first
    | assumption | refine mbDone_keep _ _ _ ?_ | refine hf _ _ ?_ | extract_lets | refine Keep.ite ?_ ?_)

theorem keepBeat_keep {s0 : State} (op obj dev : Nat) (a : List Byte) {s : State} (h0 : Keep s0 s) :
    Keep s0 (keepBeat op obj dev a s) := by
  unfold keepBeat
  repeat' (with_reducible first | assumption | extract_lets | split | refine keep_mk ((keep_iff _ _).1 ?_))

theorem cfgCommit_keep {s0 : State} (c : CfgCmd) (hc : ∀ (a : List Byte) (x : State), Keep s0 x → Keep s0 (c.apply a x))
    (a : List Byte) {s : State} (h0 : Keep s0 s) : Keep s0 (cfgCommit c a s) :=
  takeGen_keep _ (setRecords_keep _ (keepBeat_keep _ _ _ _ (hc a s h0)))

theorem twinPublish_keep {s0 : State} {s : State} (h0 : Keep s0 s) :
    Keep s0 (twinPublish s) := by
  unfold twinPublish
  repeat' (with_reducible first
    | assumption | refine fabHop_keep _ _ _ _ ?_ | extract_lets | refine Keep.ite ?_ ?_ | refine Keep.foldl ?_ (fun _ _ _ => ?_)
    | split)

theorem cfgEnd_keep {s0 : State} (op m : Nat) (r : Option (Nat × List Byte)) {s : State} (h0 : Keep s0 s) :
    Keep s0 (cfgEnd op m r s) := by
  unfold cfgEnd
  repeat' (with_reducible first
    | assumption | refine setF_keep _ _ ?_ | refine mbDone_keep _ _ _ ?_ | extract_lets | refine Keep.ite ?_ ?_ | split
    | refine keep_mk ((keep_iff _ _).1 ?_))

theorem cfgLocal_keep {s0 : State} (c : CfgCmd) (hc : ∀ (a : List Byte) (x : State), Keep s0 x → Keep s0 (c.apply a x))
    (m : Nat) (a : List Byte) (loftOk : Bool) {s : State} (h0 : Keep s0 s) : Keep s0 (cfgLocal c m a loftOk s) := by
  unfold cfgLocal
  split
  · exact mbDone_keep _ _ _ (budgetSeen_keep _ h0)
  · rename_i t ht
    have h1 := loftTake_keep _ h0 ht
    split
    · exact mbDone_keep _ _ _ h1
    · exact cfgEnd_keep _ _ _ (twinPublish_keep (cfgCommit_keep c hc a h1))

theorem cfgRun_keep {s0 : State} (c : CfgCmd) (hc : ∀ (a : List Byte) (x : State), Keep s0 x → Keep s0 (c.apply a x))
    (m : Fin 16) (loftOk : Bool) {s : State} (h0 : Keep s0 s) : Keep s0 (cfgRun c m loftOk s) := by
  unfold cfgRun
  repeat' (with_reducible first
    | assumption | refine setF_keep _ _ ?_ | refine mbDone_keep _ _ _ ?_ | refine cfgEnd_keep _ _ _ ?_
    | refine cfgLocal_keep _ hc _ _ _ ?_ | refine hc _ _ ?_ | refine fabSend_keep _ _ _ _ _ _ ?_ | refine fabHop_keep _ _ _ _ ?_
    | extract_lets | split | refine keep_mk ((keep_iff _ _).1 ?_))

end Sys2Proof.Machine
end

