-- ==== Sys2Proof/Laws/KeepYard.lean ====
section
/-!
SUPPORT. `Keep` for what Machine/Yard.lean defines.
-/

namespace Sys2Proof.Machine

theorem mbDuplicate_keep {s0 : State} (m : Nat) {s : State} (h0 : Keep s0 s) :
    Keep s0 (mbDuplicate m s) := by
  unfold mbDuplicate
  repeat' (with_reducible first | assumption | refine mbRespond_keep _ _ _ _ _ _ ?_)

theorem raiseWm_keep {s0 : State} (m tag : Nat) (loftOk : Bool) {s : State} (h0 : Keep s0 s) :
    Keep s0 (raiseWm m tag loftOk s).2 := by
  unfold raiseWm
  repeat' (with_reducible first
    | assumption | refine wr64_keep _ _ ?_ | refine loftProgram_keep _ _ ?_ | refine loftTake_keep _ ?_ (by assumption)
    | extract_lets | split)

theorem mbAnswer_keep {s0 : State} (m : Nat) (loftOk : Bool) {s : State} (h0 : Keep s0 s) :
    Keep s0 (mbAnswer m loftOk s) := by
  unfold mbAnswer
  repeat' (with_reducible first
    | assumption | refine setF_keep _ _ ?_ | refine wr64_keep _ _ ?_ | refine mbSignal_keep _ _ ?_ | refine mbReject_keep _ _ ?_ | refine budgetSeen_keep _ ?_
    | refine mbDuplicate_keep _ ?_ | refine raiseWm_keep _ _ _ ?_ | extract_lets | refine Keep.ite ?_ ?_
    | refine keep_mk ((keep_iff _ _).1 ?_))

theorem mbRing_keep {s0 : State} (m : Nat) (loftOk : Bool) {s : State} (h0 : Keep s0 s) :
    Keep s0 (mbRing m loftOk s) := by
  unfold mbRing
  repeat' (with_reducible first
    | assumption | refine setF_keep _ _ ?_ | refine mbAnswer_keep _ _ ?_ | extract_lets | refine Keep.ite ?_ ?_ | split
    | refine keep_mk ((keep_iff _ _).1 ?_))

theorem execMailboxRing_keep {s0 : State} (m : Fin 16) (loftOk : Bool) {s : State} (h0 : Keep s0 s) :
    KeepNext s0 (execMailboxRing m loftOk s) := by
  unfold execMailboxRing
  repeat' (with_reducible first | assumption | refine mbRing_keep _ _ ?_ | refine KeepNext.next ?_)

theorem hostEvt_keep {s0 : State} (f : Fld) {s : State} (h0 : Keep s0 s) :
    Keep s0 (hostEvt f s) := by
  unfold hostEvt
  repeat' (with_reducible first
    | assumption | refine setF_keep _ _ ?_ | refine emit_keep _ ?_ | extract_lets | refine Keep.ite ?_ ?_)

theorem externalBusy_keep {s0 : State} {s : State} (h0 : Keep s0 s) :
    Keep s0 (externalBusy s) := by
  unfold externalBusy
  repeat' (with_reducible first
    | assumption | refine mbDone_keep _ _ _ ?_ | extract_lets | refine Keep.foldl ?_ (fun _ _ _ => ?_)
    | refine keep_mk ((keep_iff _ _).1 ?_))

theorem execTokenGrant_keep {s0 : State} (loftOk : Bool) {s : State} (h0 : Keep s0 s) :
    KeepNext s0 (execTokenGrant loftOk s) := by
  unfold execTokenGrant
  repeat' (with_reducible first
    | assumption | refine setF_keep _ _ ?_ | refine report_keep _ _ _ _ ?_ | refine loftProgram_keep _ _ ?_
    | refine showLead_keep ?_ | refine mbAnswer_keep _ _ ?_ | refine hostEvt_keep _ ?_ | refine externalBusy_keep ?_
    | refine KeepNext.next ?_ | extract_lets | refine Keep.ite ?_ ?_ | refine KeepNext.ite ?_ ?_
    | refine Keep.foldl ?_ (fun _ _ _ => ?_) | split | refine keep_mk ((keep_iff _ _).1 ?_))

theorem execTokenRelease_keep {s0 : State} (y : Fin 2) {s : State} (h0 : Keep s0 s) :
    KeepNext s0 (execTokenRelease y s) := by
  unfold execTokenRelease
  repeat' (with_reducible first | assumption | refine tokenDrop_keep ?_ | refine KeepNext.next ?_ | refine KeepNext.ite ?_ ?_)

theorem execAliveWrite_keep {s0 : State} (y : Fin 2) {s : State} (h0 : Keep s0 s) :
    KeepNext s0 (execAliveWrite y s) := by
  unfold execAliveWrite
  repeat' (with_reducible first
    | assumption | refine KeepNext.next ?_ | extract_lets | refine KeepNext.ite ?_ ?_ | refine keep_mk ((keep_iff _ _).1 ?_))

theorem execWatchdogExpiry_keep {s0 : State} {s : State} (h0 : Keep s0 s) :
    KeepNext s0 (execWatchdogExpiry s) := by
  unfold execWatchdogExpiry
  repeat' (with_reducible first
    | assumption | refine report_keep _ _ _ _ ?_ | refine tokenDrop_keep ?_ | refine KeepNext.next ?_
    | refine KeepNext.ite ?_ ?_)

theorem execReadyClear_keep {s0 : State} (y : Fin 2) {s : State} (h0 : Keep s0 s) :
    KeepNext s0 (execReadyClear y s) := by
  unfold execReadyClear
  repeat' (with_reducible first | assumption | refine setReady_keep _ _ _ ?_ | refine KeepNext.next ?_)

theorem ymCtlWrite_keep {s0 : State} (y : Nat) (v : Word) {s : State} (h0 : Keep s0 s) :
    Keep s0 (ymCtlWrite y v s) := by
  unfold ymCtlWrite
  repeat' (with_reducible first
    | assumption | refine tokenDrop_keep ?_ | refine setReady_keep _ _ _ ?_ | extract_lets | refine Keep.ite ?_ ?_
    | refine keep_mk ((keep_iff _ _).1 ?_))

theorem execYmDigestCompare_keep {s0 : State} (digest : BitVec 128) {s : State} (h0 : Keep s0 s) :
    KeepNext s0 (execYmDigestCompare digest s) := by
  unfold execYmDigestCompare
  repeat' (with_reducible first
    | assumption | refine report32_keep _ _ _ _ _ ?_ | refine setReady_keep _ _ _ ?_ | refine KeepNext.next ?_ | extract_lets
    | refine KeepNext.ite ?_ ?_)

theorem execYmNoStandby_keep {s0 : State} {s : State} (h0 : Keep s0 s) :
    KeepNext s0 (execYmNoStandby s) := by
  unfold execYmNoStandby
  repeat' (with_reducible first
    | assumption | refine report_keep _ _ _ _ ?_ | refine KeepNext.next ?_ | refine KeepNext.ite ?_ ?_)

end Sys2Proof.Machine
end

