-- ==== Sys2Proof/Laws/KeepYfiPort.lean ====
section
/-!
SUPPORT. `Keep` for what Machine/YfiPort.lean defines.
-/

namespace Sys2Proof.Machine

theorem posConfigApply_keep {s0 : State} (a : List Byte) {s : State} (h0 : Keep s0 s) :
    Keep s0 (posConfigApply a s) := by
  unfold posConfigApply
  repeat' (with_reducible first | assumption | refine setF_keep _ _ ?_ | refine posCfgWritten_keep _ ?_)

theorem posConfigCmd_keep {s0 : State} (a : List Byte) {s : State} (h0 : Keep s0 s) : Keep s0 (posConfigCmd.apply a s) := by
  simp only [posConfigCmd, cfgPlain]
  repeat' (with_reducible first | assumption | refine posConfigApply_keep _ ?_)

theorem execPosConfig_keep {s0 : State} (m : Fin 16) (loftOk : Bool) {s : State} (h0 : Keep s0 s) :
    KeepNext s0 (execPosConfig m loftOk s) := by
  unfold execPosConfig
  repeat' (with_reducible first
    | assumption | refine cfgRun_keep _ ?_ _ _ ?_ | exact fun a _ h => posConfigCmd_keep a h | refine KeepNext.next ?_)

theorem posAdjust_keep {s0 : State} (bad : List Byte → State → Nat) (f : List Byte → State → State) (a : List Byte) {s : State} (hf : ∀ (y0 : List Byte) (x : State), Keep s0 x → Keep s0 (f y0 x)) (h0 : Keep s0 s) :
    Keep s0 (posAdjust bad f a s).2.2 := by
  unfold posAdjust
  repeat' (with_reducible first | assumption | refine yfiFail_keep _ ?_ | refine hf _ _ ?_ | extract_lets | split)

theorem execPosSetBeat_keep {s0 : State} (m : Fin 16) {s : State} (h0 : Keep s0 s) :
    KeepNext s0 (execPosSetBeat m s) := by
  unfold execPosSetBeat
  repeat' (with_reducible first
    | assumption | refine posSetBeat_keep _ ?_ | refine yfiRun_keep _ _ _ ?_ ?_ | refine posAdjust_keep _ _ _ ?_ ?_ | intro _
    | refine KeepNext.next ?_ | refine KeepNext.ite ?_ ?_)

theorem execPosFreqOffset_keep {s0 : State} (m : Fin 16) {s : State} (h0 : Keep s0 s) :
    KeepNext s0 (execPosFreqOffset m s) := by
  unfold execPosFreqOffset
  repeat' (with_reducible first
    | assumption | refine posFreqOffset_keep _ ?_ | refine yfiRun_keep _ _ _ ?_ ?_ | refine posAdjust_keep _ _ _ ?_ ?_ | intro _
    | refine KeepNext.next ?_ | refine KeepNext.ite ?_ ?_)

theorem execPosPhaseStep_keep {s0 : State} (m : Fin 16) {s : State} (h0 : Keep s0 s) :
    KeepNext s0 (execPosPhaseStep m s) := by
  unfold execPosPhaseStep
  repeat' (with_reducible first
    | assumption | refine posPhaseStep_keep _ ?_ | refine yfiRun_keep _ _ _ ?_ ?_ | refine posAdjust_keep _ _ _ ?_ ?_ | intro _
    | refine KeepNext.next ?_ | refine KeepNext.ite ?_ ?_)

theorem posGet_keep {s0 : State} (u0 : List Byte) {s : State} (h0 : Keep s0 s) :
    Keep s0 (posGet u0 s).2.2 := by
  unfold posGet
  repeat' (with_reducible first | assumption)

theorem execPosGet_keep {s0 : State} (m : Fin 16) {s : State} (h0 : Keep s0 s) :
    KeepNext s0 (execPosGet m s) := by
  unfold execPosGet
  repeat' (with_reducible first
    | assumption | refine yfiRun_keep _ _ _ ?_ ?_ | refine posGet_keep _ ?_ | intro _ | refine KeepNext.next ?_)

theorem groupApply_keep {s0 : State} (a : List Byte) {s : State} (h0 : Keep s0 s) :
    Keep s0 (groupApply a s) := by
  unfold groupApply
  repeat' (with_reducible first | assumption | refine setF_keep _ _ ?_ | refine groupMapWritten_keep _ ?_)

theorem groupCmd_keep {s0 : State} (a : List Byte) {s : State} (h0 : Keep s0 s) : Keep s0 (groupCmd.apply a s) := by
  simp only [groupCmd, cfgPlain]
  repeat' (with_reducible first | assumption | refine groupApply_keep _ ?_)

theorem execPortGroupConfig_keep {s0 : State} (m : Fin 16) (loftOk : Bool) {s : State} (h0 : Keep s0 s) :
    KeepNext s0 (execPortGroupConfig m loftOk s) := by
  unfold execPortGroupConfig
  repeat' (with_reducible first
    | assumption | refine cfgRun_keep _ ?_ _ _ ?_ | exact fun a _ h => groupCmd_keep a h | refine KeepNext.next ?_)

theorem portApply_keep {s0 : State} (a : List Byte) {s : State} (h0 : Keep s0 s) :
    Keep s0 (portApply a s) := by
  unfold portApply
  repeat' (with_reducible first
    | assumption | refine setF_keep _ _ ?_ | refine portLine_keep _ ?_ | refine portRefresh_keep _ ?_
    | refine portRefreshGroup_keep _ ?_ | extract_lets | refine Keep.ite ?_ ?_)

theorem portCmd_keep {s0 : State} (a : List Byte) {s : State} (h0 : Keep s0 s) : Keep s0 (portCmd.apply a s) := by
  simp only [portCmd, cfgPlain]
  repeat' (with_reducible first | assumption | refine portApply_keep _ ?_)

theorem execPortConfig_keep {s0 : State} (m : Fin 16) (loftOk : Bool) {s : State} (h0 : Keep s0 s) :
    KeepNext s0 (execPortConfig m loftOk s) := by
  unfold execPortConfig
  repeat' (with_reducible first
    | assumption | refine cfgRun_keep _ ?_ _ _ ?_ | exact fun a _ h => portCmd_keep a h | refine KeepNext.next ?_)

end Sys2Proof.Machine
end

