-- ==== Sys2Proof/Laws/KeepYfiChan.lean ====
section
/-!
SUPPORT. `Keep` for what Machine/YfiChan.lean defines.
-/

namespace Sys2Proof.Machine

theorem blkWrite_keep {s0 : State} (a : List Byte) {s : State} (h0 : Keep s0 s) :
    Keep s0 (blkWrite a s) := by
  unfold blkWrite
  repeat' (with_reducible first
    | assumption | refine wr_keep _ _ ?_ | refine setF_keep _ _ ?_ | refine wr64_keep _ _ ?_ | refine modChan_keep _ _ ?_)

theorem chOpenApply_keep {s0 : State} (a : List Byte) {s : State} (h0 : Keep s0 s) :
    Keep s0 (chOpenApply a s) := by
  unfold chOpenApply
  repeat' (with_reducible first | assumption | refine blkWrite_keep _ ?_ | extract_lets | refine keep_mk ((keep_iff _ _).1 ?_))

theorem chOpenCmd_keep {s0 : State} (a : List Byte) {s : State} (h0 : Keep s0 s) : Keep s0 (chOpenCmd.apply a s) := by
  simp only [chOpenCmd, cfgPlain]
  repeat' (with_reducible first | assumption | refine chOpenApply_keep _ ?_)

theorem execChOpen_keep {s0 : State} (m : Fin 16) (loftOk : Bool) {s : State} (h0 : Keep s0 s) :
    KeepNext s0 (execChOpen m loftOk s) := by
  unfold execChOpen
  repeat' (with_reducible first
    | assumption | refine cfgRun_keep _ ?_ _ _ ?_ | exact fun a _ h => chOpenCmd_keep a h | refine KeepNext.next ?_)

theorem chCloseApply_keep {s0 : State} (a : List Byte) {s : State} (h0 : Keep s0 s) :
    Keep s0 (chCloseApply a s) := by
  unfold chCloseApply
  repeat' (with_reducible first | assumption | extract_lets | refine Keep.ite ?_ ?_ | refine keep_mk ((keep_iff _ _).1 ?_))

theorem chCloseCmd_keep {s0 : State} (a : List Byte) {s : State} (h0 : Keep s0 s) : Keep s0 (chCloseCmd.apply a s) := by
  simp only [chCloseCmd, cfgPlain]
  repeat' (with_reducible first | assumption | refine chCloseApply_keep _ ?_)

theorem execChClose_keep {s0 : State} (m : Fin 16) (loftOk : Bool) {s : State} (h0 : Keep s0 s) :
    KeepNext s0 (execChClose m loftOk s) := by
  unfold execChClose
  repeat' (with_reducible first
    | assumption | refine cfgRun_keep _ ?_ _ _ ?_ | exact fun a _ h => chCloseCmd_keep a h | refine KeepNext.next ?_)

theorem modState_keep {s0 : State} (a : List Byte) {s : State} (h0 : Keep s0 s) :
    Keep s0 (modState a s) := by
  unfold modState
  repeat' (with_reducible first
    | assumption | refine wr_keep _ _ ?_ | refine modChan_keep _ _ ?_ | extract_lets | refine Keep.ite ?_ ?_
    | refine Keep.foldl ?_ (fun _ _ _ => ?_))

theorem chModifyApply_keep {s0 : State} (a : List Byte) {s : State} (h0 : Keep s0 s) :
    Keep s0 (chModifyApply a s) := by
  unfold chModifyApply
  repeat' (with_reducible first | assumption | refine keep_mk ((keep_iff _ _).1 ?_))

theorem chModifyCmd_keep {s0 : State} (a : List Byte) {s : State} (h0 : Keep s0 s) : Keep s0 (chModifyCmd.apply a s) := by
  simp only [chModifyCmd, cfgPlain]
  repeat' (with_reducible first | assumption | refine chModifyApply_keep _ ?_)

theorem execChModify_keep {s0 : State} (m : Fin 16) (loftOk : Bool) {s : State} (h0 : Keep s0 s) :
    KeepNext s0 (execChModify m loftOk s) := by
  unfold execChModify
  repeat' (with_reducible first
    | assumption | refine cfgRun_keep _ ?_ _ _ ?_ | exact fun a _ h => chModifyCmd_keep a h | refine KeepNext.next ?_)

theorem chGet_keep {s0 : State} (a : List Byte) {s : State} (h0 : Keep s0 s) :
    Keep s0 (chGet a s).2.2 := by
  unfold chGet
  repeat' (with_reducible first | assumption | refine yfiFail_keep _ ?_ | extract_lets | split)

theorem execChGet_keep {s0 : State} (m : Fin 16) {s : State} (h0 : Keep s0 s) :
    KeepNext s0 (execChGet m s) := by
  unfold execChGet
  repeat' (with_reducible first
    | assumption | refine yfiRun_keep _ _ _ ?_ ?_ | refine chGet_keep _ ?_ | intro _ | refine KeepNext.next ?_)

theorem customerApply_keep {s0 : State} (a : List Byte) {s : State} (h0 : Keep s0 s) :
    Keep s0 (customerApply a s) := by
  unfold customerApply
  repeat' (with_reducible first | assumption | refine wr_keep _ _ ?_ | refine Keep.foldl ?_ (fun _ _ _ => ?_))

theorem customerCmd_keep {s0 : State} (a : List Byte) {s : State} (h0 : Keep s0 s) : Keep s0 (customerCmd.apply a s) := by
  simp only [customerCmd, cfgPlain]
  repeat' (with_reducible first | assumption | refine customerApply_keep _ ?_)

theorem execChCustomer_keep {s0 : State} (m : Fin 16) (loftOk : Bool) {s : State} (h0 : Keep s0 s) :
    KeepNext s0 (execChCustomer m loftOk s) := by
  unfold execChCustomer
  repeat' (with_reducible first
    | assumption | refine cfgRun_keep _ ?_ _ _ ?_ | exact fun a _ h => customerCmd_keep a h | refine KeepNext.next ?_)

end Sys2Proof.Machine
end

