-- ==== Sys2Proof/Laws/KeepYfiGate.lean ====
section
/-!
SUPPORT. `Keep` for what Machine/YfiGate.lean defines.
-/

namespace Sys2Proof.Machine

theorem gateLoadApply_keep {s0 : State} (a : List Byte) {s : State} (h0 : Keep s0 s) :
    Keep s0 (gateLoadApply a s) := by
  unfold gateLoadApply
  repeat' (with_reducible first | assumption | refine setF_keep _ _ ?_ | extract_lets | refine keep_mk ((keep_iff _ _).1 ?_))

theorem gateLoadCmd_keep {s0 : State} (a : List Byte) {s : State} (h0 : Keep s0 s) : Keep s0 (gateLoadCmd.apply a s) := by
  simp only [gateLoadCmd, cfgPlain]
  repeat' (with_reducible first | assumption | refine gateLoadApply_keep _ ?_)

theorem execGateLoad_keep {s0 : State} (m : Fin 16) (loftOk : Bool) {s : State} (h0 : Keep s0 s) :
    KeepNext s0 (execGateLoad m loftOk s) := by
  unfold execGateLoad
  repeat' (with_reducible first
    | assumption | refine cfgRun_keep _ ?_ _ _ ?_ | exact fun a _ h => gateLoadCmd_keep a h | refine KeepNext.next ?_)

theorem tblWrite_keep {s0 : State} (g : Nat) (e : List Byte) {s : State} (h0 : Keep s0 s) :
    Keep s0 (tblWrite g e s).2 := by
  unfold tblWrite
  repeat' (with_reducible first
    | assumption | refine setF_keep _ _ ?_ | extract_lets | split | refine keep_mk ((keep_iff _ _).1 ?_))

theorem tblWriteAll_keep {s0 : State} (g : Nat) (l : List (List Byte)) {s : State} (h0 : Keep s0 s) :
    Keep s0 (tblWriteAll g l s).2.2 := by
  induction l generalizing s with
  | nil => exact h0
  | cons e r ih =>
    unfold tblWriteAll
    extract_lets x
    split
    · exact h0
    · exact ih (tblWrite_keep _ _ h0)

theorem tblRun_keep {s0 : State} (a : List Byte) {s : State} (h0 : Keep s0 s) :
    Keep s0 (tblRun a s).2.2 := by
  unfold tblRun
  repeat' (with_reducible first | assumption | refine tblWriteAll_keep _ _ ?_)

theorem gateTableCmd_keep {s0 : State} (a : List Byte) {s : State} (h0 : Keep s0 s) : Keep s0 (gateTableCmd.apply a s) := by
  simp only [gateTableCmd, cfgPlain]
  repeat' (with_reducible first | assumption | refine tblRun_keep _ ?_)

theorem execGateTable_keep {s0 : State} (m : Fin 16) (loftOk : Bool) {s : State} (h0 : Keep s0 s) :
    KeepNext s0 (execGateTable m loftOk s) := by
  unfold execGateTable
  repeat' (with_reducible first
    | assumption | refine cfgRun_keep _ ?_ _ _ ?_ | exact fun a _ h => gateTableCmd_keep a h | refine KeepNext.next ?_)

theorem gateSwitchApply_keep {s0 : State} (a : List Byte) {s : State} (h0 : Keep s0 s) :
    Keep s0 (gateSwitchApply a s) := by
  unfold gateSwitchApply
  repeat' (with_reducible first | assumption | refine keep_mk ((keep_iff _ _).1 ?_))

theorem gateSwitchCmd_keep {s0 : State} (a : List Byte) {s : State} (h0 : Keep s0 s) : Keep s0 (gateSwitchCmd.apply a s) := by
  simp only [gateSwitchCmd, cfgPlain]
  repeat' (with_reducible first | assumption | refine gateSwitchApply_keep _ ?_)

theorem execGateSwitch_keep {s0 : State} (m : Fin 16) (loftOk : Bool) {s : State} (h0 : Keep s0 s) :
    KeepNext s0 (execGateSwitch m loftOk s) := by
  unfold execGateSwitch
  repeat' (with_reducible first
    | assumption | refine cfgRun_keep _ ?_ _ _ ?_ | exact fun a _ h => gateSwitchCmd_keep a h | refine KeepNext.next ?_)

theorem puntApply_keep {s0 : State} (a : List Byte) {s : State} (h0 : Keep s0 s) :
    Keep s0 (puntApply a s) := by
  unfold puntApply
  repeat' (with_reducible first | assumption | extract_lets | refine Keep.ite ?_ ?_ | refine keep_mk ((keep_iff _ _).1 ?_))

theorem puntCmd_keep {s0 : State} (a : List Byte) {s : State} (h0 : Keep s0 s) : Keep s0 (puntCmd.apply a s) := by
  simp only [puntCmd, cfgPlain]
  repeat' (with_reducible first | assumption | refine puntApply_keep _ ?_)

theorem execPuntQueue_keep {s0 : State} (m : Fin 16) (loftOk : Bool) {s : State} (h0 : Keep s0 s) :
    KeepNext s0 (execPuntQueue m loftOk s) := by
  unfold execPuntQueue
  repeat' (with_reducible first
    | assumption | refine cfgRun_keep _ ?_ _ _ ?_ | exact fun a _ h => puntCmd_keep a h | refine KeepNext.next ?_)

theorem execFrameSend_keep {s0 : State} (m : Fin 16) {s : State} (h0 : Keep s0 s) :
    KeepNext s0 (execFrameSend m s) := by
  unfold execFrameSend
  repeat' (with_reducible first
    | assumption | refine setF_keep _ _ ?_ | refine mbDone_keep _ _ _ ?_ | refine clearSent_keep _ ?_ | refine KeepNext.next ?_
    | extract_lets | refine KeepNext.ite ?_ ?_ | refine keep_mk ((keep_iff _ _).1 ?_))

theorem calPut_keep {s0 : State} (c cal j : Nat) (l : List Nat) {s : State} (h0 : Keep s0 s) : Keep s0 (calPut c cal j l s) := by
  induction l generalizing j s with
  | nil => exact h0
  | cons v r ih => exact ih _ (setF_keep _ _ h0)

theorem calendarWrite_keep {s0 : State} (a : List Byte) {s : State} (h0 : Keep s0 s) :
    Keep s0 (calendarWrite a s) := by
  unfold calendarWrite
  repeat' (with_reducible first
    | assumption | refine setF_keep _ _ ?_ | refine gapRefreshPort_keep _ ?_ | refine cellEnWrite_keep _ _ ?_
    | refine calPut_keep _ _ _ _ ?_ | extract_lets | refine Keep.ite ?_ ?_)

theorem calendarApply_keep {s0 : State} (a : List Byte) {s : State} (h0 : Keep s0 s) :
    Keep s0 (calendarApply a s) := by
  unfold calendarApply
  repeat' (with_reducible first
    | assumption | refine wr_keep _ _ ?_ | refine calArmWrite_keep _ _ ?_ | refine calendarWrite_keep _ ?_ | extract_lets
    | refine Keep.ite ?_ ?_)

theorem calendarCmd_keep {s0 : State} (a : List Byte) {s : State} (h0 : Keep s0 s) : Keep s0 (calendarCmd.apply a s) := by
  simp only [calendarCmd, cfgPlain]
  repeat' (with_reducible first | assumption | refine calendarApply_keep _ ?_)

theorem execCellCalendar_keep {s0 : State} (m : Fin 16) (loftOk : Bool) {s : State} (h0 : Keep s0 s) :
    KeepNext s0 (execCellCalendar m loftOk s) := by
  unfold execCellCalendar
  repeat' (with_reducible first
    | assumption | refine cfgRun_keep _ ?_ _ _ ?_ | exact fun a _ h => calendarCmd_keep a h | refine KeepNext.next ?_)

end Sys2Proof.Machine
end

