-- ==== Sys2Proof/Laws/KeepYfiKeys.lean ====
section
/-!
SUPPORT. `Keep` for what Machine/YfiKeys.lean defines.
-/

namespace Sys2Proof.Machine

theorem loftPay_keep {s0 : State} {words : Nat} {loftOk : Bool} {s : State} (h0 : Keep s0 s) {t : State} {st : Nat}
    (e : loftPay words loftOk s = (some t, st)) : Keep s0 t := by
  unfold loftPay at e
  split at e
  · simp at e
  · rename_i x hx
    split at e
    · obtain rfl := Option.some.inj (congrArg Prod.fst e)
      exact loftTake_keep _ h0 hx
    · simp at e

theorem idGenerate_keep {s0 : State} (fails loftOk : Bool) (u1 : List Byte) {s : State} (h0 : Keep s0 s) :
    Keep s0 (idGenerate fails loftOk u1 s).2.2 := by
  unfold idGenerate
  repeat' (with_reducible first
    | assumption | refine setF_keep _ _ ?_ | refine draw_keep ?_ | refine report_keep _ _ _ _ ?_ | refine bellPulse_keep _ ?_
    | refine loftStore_keep _ _ ?_ | refine loftFlags_keep _ _ ?_ | refine yfiFail_keep _ ?_ | refine budgetSeen_keep _ ?_
    | refine loftPay_keep ?_ (by assumption) | extract_lets | split | refine keep_mk ((keep_iff _ _).1 ?_))

theorem execIdGenerate_keep {s0 : State} (m : Fin 16) (fails loftOk : Bool) {s : State} (h0 : Keep s0 s) :
    KeepNext s0 (execIdGenerate m fails loftOk s) := by
  unfold execIdGenerate
  repeat' (with_reducible first
    | assumption | refine yfiRun_keep _ _ _ ?_ ?_ | refine idGenerate_keep _ _ _ ?_ | intro _ | refine KeepNext.next ?_)

theorem idCert_keep {s0 : State} (loftOk : Bool) (a : List Byte) {s : State} (h0 : Keep s0 s) :
    Keep s0 (idCert loftOk a s).2.2 := by
  unfold idCert
  repeat' (with_reducible first
    | assumption | refine loftStore_keep _ _ ?_ | refine yfiFail_keep _ ?_ | refine budgetSeen_keep _ ?_ | refine loftPay_keep ?_ (by assumption)
    | extract_lets | split | refine keep_mk ((keep_iff _ _).1 ?_))

theorem execIdCert_keep {s0 : State} (m : Fin 16) (loftOk : Bool) {s : State} (h0 : Keep s0 s) :
    KeepNext s0 (execIdCert m loftOk s) := by
  unfold execIdCert
  repeat' (with_reducible first
    | assumption | refine yfiRun_keep _ _ _ ?_ ?_ | refine idCert_keep _ _ ?_ | intro _ | refine KeepNext.next ?_)

theorem idGet_keep {s0 : State} (l : List Byte) (ok : Bool) (a : List Byte) {s : State} (h0 : Keep s0 s) :
    Keep s0 (idGet l ok a s).2.2 := by
  unfold idGet
  repeat' (with_reducible first | assumption | refine yfiFail_keep _ ?_ | refine budgetSeen_keep _ ?_ | split)

theorem execIdGetKey_keep {s0 : State} (m : Fin 16) {s : State} (h0 : Keep s0 s) :
    KeepNext s0 (execIdGetKey m s) := by
  unfold execIdGetKey
  repeat' (with_reducible first
    | assumption | refine yfiRun_keep _ _ _ ?_ ?_ | refine idGet_keep _ _ _ ?_ | intro _ | refine KeepNext.next ?_
    | refine KeepNext.ite ?_ ?_)

theorem execIdGetCert_keep {s0 : State} (m : Fin 16) {s : State} (h0 : Keep s0 s) :
    KeepNext s0 (execIdGetCert m s) := by
  unfold execIdGetCert
  repeat' (with_reducible first
    | assumption | refine yfiRun_keep _ _ _ ?_ ?_ | refine idGet_keep _ _ _ ?_ | intro _ | refine KeepNext.next ?_
    | refine KeepNext.ite ?_ ?_)

theorem kekStore_keep {s0 : State} (k : Nat) (v : List Byte) {s : State} (h0 : Keep s0 s) :
    Keep s0 (kekStore k v s) := by
  unfold kekStore
  repeat' (with_reducible first | assumption | refine loftStore_keep _ _ ?_ | refine setKek_keep _ _ ?_)

theorem kekInstall_keep {s0 : State} (loftOk : Bool) (a : List Byte) {s : State} (h0 : Keep s0 s) :
    Keep s0 (kekInstall loftOk a s).2.2 := by
  unfold kekInstall
  repeat' (with_reducible first
    | assumption | refine unwrapFailed_keep ?_ | refine yfiFail_keep _ ?_ | refine budgetSeen_keep _ ?_ | refine loftPay_keep ?_ (by assumption)
    | refine kekStore_keep _ _ ?_ | extract_lets | split)

theorem execKekInstall_keep {s0 : State} (m : Fin 16) (loftOk : Bool) {s : State} (h0 : Keep s0 s) :
    KeepNext s0 (execKekInstall m loftOk s) := by
  unfold execKekInstall
  repeat' (with_reducible first
    | assumption | refine yfiRun_keep _ _ _ ?_ ?_ | refine kekInstall_keep _ _ ?_ | intro _ | refine KeepNext.next ?_)

theorem kemOffer_keep {s0 : State} (fails : Bool) (a : List Byte) {s : State} (h0 : Keep s0 s) :
    Keep s0 (kemOffer fails a s).2.2 := by
  unfold kemOffer
  repeat' (with_reducible first
    | assumption | refine draw_keep ?_ | refine yfiFail_keep _ ?_ | refine budgetSeen_keep _ ?_ | extract_lets | split | refine keep_mk ((keep_iff _ _).1 ?_))

theorem execKekKemOffer_keep {s0 : State} (m : Fin 16) (fails : Bool) {s : State} (h0 : Keep s0 s) :
    KeepNext s0 (execKekKemOffer m fails s) := by
  unfold execKekKemOffer
  repeat' (with_reducible first
    | assumption | refine yfiRun_keep _ _ _ ?_ ?_ | refine kemOffer_keep _ _ ?_ | intro _ | refine KeepNext.next ?_
    | refine KeepNext.ite ?_ ?_)

theorem kemOfferRest_keep {s0 : State} (a : List Byte) {s : State} (h0 : Keep s0 s) :
    Keep s0 (kemOfferRest a s).2.2 := by
  unfold kemOfferRest
  repeat' (with_reducible first | assumption | refine yfiFail_keep _ ?_ | refine budgetSeen_keep _ ?_ | extract_lets | split)

theorem execKekKemOfferPart1_keep {s0 : State} (m : Fin 16) {s : State} (h0 : Keep s0 s) :
    KeepNext s0 (execKekKemOfferPart1 m s) := by
  unfold execKekKemOfferPart1
  repeat' (with_reducible first
    | assumption | refine yfiRun_keep _ _ _ ?_ ?_ | refine kemOfferRest_keep _ ?_ | intro _ | refine KeepNext.next ?_
    | refine KeepNext.ite ?_ ?_)

theorem kemDrop_keep {s0 : State} {s : State} (h0 : Keep s0 s) :
    Keep s0 (kemDrop s) := by
  unfold kemDrop
  repeat' (with_reducible first | assumption | extract_lets | refine keep_mk ((keep_iff _ _).1 ?_))

theorem execKekKemPairExpiry_keep {s0 : State} {s : State} (h0 : Keep s0 s) :
    KeepNext s0 (execKekKemPairExpiry s) := by
  unfold execKekKemPairExpiry
  repeat' (with_reducible first | assumption | refine kemDrop_keep ?_ | refine KeepNext.next ?_)

theorem kemFinish_keep {s0 : State} (loftOk : Bool) (a : List Byte) {s : State} (h0 : Keep s0 s) :
    Keep s0 (kemFinish loftOk a s).2.2 := by
  unfold kemFinish
  repeat' (with_reducible first
    | assumption | refine yfiFail_keep _ ?_ | refine budgetSeen_keep _ ?_ | refine loftPay_keep ?_ (by assumption) | refine kekStore_keep _ _ ?_
    | refine kemDrop_keep ?_ | extract_lets | split)

theorem execKekKemFinish_keep {s0 : State} (m : Fin 16) (loftOk : Bool) {s : State} (h0 : Keep s0 s) :
    KeepNext s0 (execKekKemFinish m loftOk s) := by
  unfold execKekKemFinish
  repeat' (with_reducible first
    | assumption | refine yfiRun_keep _ _ _ ?_ ?_ | refine kemFinish_keep _ _ ?_ | intro _ | refine KeepNext.next ?_)

theorem pairInstall_keep {s0 : State} (loftOk : Bool) (a : List Byte) {s : State} (h0 : Keep s0 s) :
    Keep s0 (pairInstall loftOk a s).2.2 := by
  unfold pairInstall
  repeat' (with_reducible first
    | assumption | refine loftStore_keep _ _ ?_ | refine unwrapFailed_keep ?_ | refine setPairing_keep _ _ ?_
    | refine yfiFail_keep _ ?_ | refine budgetSeen_keep _ ?_ | refine loftPay_keep ?_ (by assumption) | extract_lets | split)

theorem execPairInstall_keep {s0 : State} (m : Fin 16) (loftOk : Bool) {s : State} (h0 : Keep s0 s) :
    KeepNext s0 (execPairInstall m loftOk s) := by
  unfold execPairInstall
  repeat' (with_reducible first
    | assumption | refine yfiRun_keep _ _ _ ?_ ?_ | refine pairInstall_keep _ _ ?_ | intro _ | refine KeepNext.next ?_)

theorem blobStore_keep {s0 : State} (n an epoch : Nat) (l : List Byte) {s : State} (h0 : Keep s0 s) :
    Keep s0 (blobStore n an epoch l s) := by
  unfold blobStore
  repeat' (with_reducible first | assumption | refine loftStore_keep _ _ ?_)

theorem armWindow_keep {s0 : State} (n epoch : Nat) (lo hi : Beat) {s : State} (h0 : Keep s0 s) :
    Keep s0 (armWindow n epoch lo hi s) := by
  unfold armWindow
  repeat' (with_reducible first | assumption | refine modChan_keep _ _ ?_ | refine issueMark_keep _ _ _ _ ?_)

theorem installsEnd_keep {s0 : State} {s : State} (h0 : Keep s0 s) :
    Keep s0 (installsEnd s) := by
  unfold installsEnd
  repeat' (with_reducible first
    | assumption | refine mbDone_keep _ _ _ ?_ | extract_lets | refine Keep.foldl ?_ (fun _ _ _ => ?_)
    | refine keep_mk ((keep_iff _ _).1 ?_))

theorem keyInstalled_keep {s0 : State} (m : Nat) (a p : List Byte) {s : State} (h0 : Keep s0 s) :
    Keep s0 (keyInstalled m a p s) := by
  unfold keyInstalled
  repeat' (with_reducible first
    | assumption | refine setF_keep _ _ ?_ | refine modChan_keep _ _ ?_ | refine setSlot_keep _ _ ?_
    | refine slotsRefresh_keep ?_ | refine spareToNext_keep _ ?_ | refine beginSwitch_keep _ _ _ _ ?_
    | refine blobStore_keep _ _ _ _ ?_ | refine armWindow_keep _ _ _ _ ?_ | refine installsEnd_keep ?_ | extract_lets | split
    | refine keep_mk ((keep_iff _ _).1 ?_))

theorem keyInstallRun_keep {s0 : State} (m : Nat) (loftOk : Bool) {s : State} (h0 : Keep s0 s) :
    Keep s0 (keyInstallRun m loftOk s) := by
  unfold keyInstallRun
  repeat' (with_reducible first
    | assumption | refine takeSpare_keep ?_ (by assumption) | refine takeSpare_none ?_ (by assumption)
    | refine unwrapFailed_keep ?_ | refine mbDone_keep _ _ _ ?_ | refine keyInstalled_keep _ _ _ ?_ | extract_lets
    | refine Keep.ite ?_ ?_ | split)

theorem execKeyInstall_keep {s0 : State} (m : Fin 16) (loftOk : Bool) {s : State} (h0 : Keep s0 s) :
    KeepNext s0 (execKeyInstall m loftOk s) := by
  unfold execKeyInstall
  repeat' (with_reducible first | assumption | refine keyInstallRun_keep _ _ ?_ | refine KeepNext.next ?_)

theorem markSeen_keep {s0 : State} (e : LoftWrite) (ok : Bool) {s : State} (h0 : Keep s0 s) :
    Keep s0 (markSeen e ok s) := by
  unfold markSeen
  repeat' (with_reducible first
    | assumption | refine loftEnqueue_keep _ _ _ _ ?_ | refine installsEnd_keep ?_ | extract_lets | refine Keep.ite ?_ ?_
    | split | refine keep_mk ((keep_iff _ _).1 ?_))

theorem execLoftWriteDone_keep {s0 : State} (fails : Nat) {s : State} (h0 : Keep s0 s) :
    KeepNext s0 (execLoftWriteDone fails s) := by
  unfold execLoftWriteDone
  repeat' (with_reducible first
    | assumption | refine setF_keep _ _ ?_ | refine stLE_keep _ _ _ ?_ | refine draw_keep ?_ | refine report_keep _ _ _ _ ?_
    | refine wearMany_keep _ _ ?_ | refine loftProgram_keep _ _ ?_ | refine loftPersisted_keep _ ?_
    | refine loftFailed_keep _ ?_ | refine markSeen_keep _ _ ?_ | refine KeepNext.next ?_ | extract_lets | refine Keep.ite ?_ ?_
    | refine KeepNext.ite ?_ ?_ | split | refine keep_mk ((keep_iff _ _).1 ?_))

theorem keyExport_keep {s0 : State} (a : List Byte) {s : State} (h0 : Keep s0 s) :
    Keep s0 (keyExport a s).2.2 := by
  unfold keyExport
  repeat' (with_reducible first | assumption | refine yfiFail_keep _ ?_ | refine budgetSeen_keep _ ?_ | extract_lets | split)

theorem execKeyExport_keep {s0 : State} (m : Fin 16) {s : State} (h0 : Keep s0 s) :
    KeepNext s0 (execKeyExport m s) := by
  unfold execKeyExport
  repeat' (with_reducible first
    | assumption | refine yfiRun_keep _ _ _ ?_ ?_ | refine keyExport_keep _ ?_ | intro _ | refine KeepNext.next ?_)

theorem keyPolicyApply_keep {s0 : State} (a : List Byte) {s : State} (h0 : Keep s0 s) :
    Keep s0 (keyPolicyApply a s) := by
  unfold keyPolicyApply
  repeat' (with_reducible first
    | assumption | refine setF_keep _ _ ?_ | refine loftProgram_keep _ _ ?_ | extract_lets | refine Keep.ite ?_ ?_)

theorem keyPolicyCmd_keep {s0 : State} (a : List Byte) {s : State} (h0 : Keep s0 s) : Keep s0 (keyPolicyCmd.apply a s) := by
  simp only [keyPolicyCmd, cfgPlain]
  repeat' (with_reducible first | assumption | refine keyPolicyApply_keep _ ?_)

theorem execKeyPolicy_keep {s0 : State} (m : Fin 16) (loftOk : Bool) {s : State} (h0 : Keep s0 s) :
    KeepNext s0 (execKeyPolicy m loftOk s) := by
  unfold execKeyPolicy
  repeat' (with_reducible first
    | assumption | refine cfgRun_keep _ ?_ _ _ ?_ | exact fun a _ h => keyPolicyCmd_keep a h | refine KeepNext.next ?_)

theorem keyRekey_keep {s0 : State} (a : List Byte) {s : State} (h0 : Keep s0 s) :
    Keep s0 (keyRekey a s).2.2 := by
  unfold keyRekey
  repeat' (with_reducible first
    | assumption | refine modChan_keep _ _ ?_ | refine startExchange_keep _ ?_ | refine yfiFail_keep _ ?_ | refine budgetSeen_keep _ ?_ | extract_lets
    | split)

theorem execKeyRekey_keep {s0 : State} (m : Fin 16) {s : State} (h0 : Keep s0 s) :
    KeepNext s0 (execKeyRekey m s) := by
  unfold execKeyRekey
  repeat' (with_reducible first
    | assumption | refine yfiRun_keep _ _ _ ?_ ?_ | refine keyRekey_keep _ ?_ | intro _ | refine KeepNext.next ?_)

end Sys2Proof.Machine
end

