-- ==== Sys2Proof/Laws/KeepPower.lean ====
section
/-!
SUPPORT. `Keep` for what Machine/Power.lean defines.
-/

namespace Sys2Proof.Machine

theorem modPower_keep {s0 : State} {s : State} (f : Power → Power) (h0 : Keep s0 s) :
    Keep s0 (State.modPower s f) := by
  unfold State.modPower
  repeat' (with_reducible first | assumption | refine keep_mk ((keep_iff _ _).1 ?_))

theorem faultPin_keep {s0 : State} {s : State} (h0 : Keep s0 s) :
    Keep s0 (faultPin s) := by
  unfold faultPin
  repeat' (with_reducible first
    | assumption | refine setF_keep _ _ ?_ | refine emit_keep _ ?_ | extract_lets | refine Keep.ite ?_ ?_)

theorem ledgerLines_keep {s0 : State} {s : State} (h0 : Keep s0 s) :
    Keep s0 (ledgerLines s) := by
  unfold ledgerLines
  repeat' (with_reducible first | assumption | refine bellInput_keep _ _ ?_ | refine faultPin_keep ?_)

theorem clusterFinish_keep {s0 : State} (k : Nat) {s : State} (h0 : Keep s0 s) :
    Keep s0 (clusterFinish k s) := by
  unfold clusterFinish
  repeat' (with_reducible first | assumption | refine bellAutoFinish_keep _ ?_)

theorem shedDrain_keep {s0 : State} (k : Nat) {s : State} (h0 : Keep s0 s) :
    Keep s0 (shedDrain k s) := by
  unfold shedDrain
  repeat' (with_reducible first
    | assumption | refine setShed_keep _ _ ?_ | refine bellRefresh_keep ?_ | refine portRefreshGroup_keep _ ?_
    | refine clusterFinish_keep _ ?_ | extract_lets | refine Keep.ite ?_ ?_)

theorem shedCommit_keep {s0 : State} (v : Word) {s : State} (h0 : Keep s0 s) :
    Keep s0 (shedCommit v s) := by
  unfold shedCommit
  repeat' (with_reducible first
    | assumption | refine wr_keep _ _ ?_ | refine setF_keep _ _ ?_ | refine modPower_keep _ ?_ | refine shedDrain_keep _ ?_
    | extract_lets | refine Keep.foldl ?_ (fun _ _ _ => ?_) | split)

theorem pwrShedReqWriteAccess_keep {s0 : State} (r : Requester) (v : Word) {s : State} (h0 : Keep s0 s) :
    Keep s0 (pwrShedReqWriteAccess r v s) := by
  unfold pwrShedReqWriteAccess
  repeat' (with_reducible first
    | assumption | refine reply_keep _ _ _ ?_ | refine leadRefuse_keep _ _ ?_ | refine shedCommit_keep _ ?_
    | refine Keep.ite ?_ ?_)

theorem execPwrShedReqWrite_keep {s0 : State} (r : Requester) (v : Word) {s : State} (h0 : Keep s0 s) :
    KeepNext s0 (execPwrShedReqWrite r v s) := by
  unfold execPwrShedReqWrite
  repeat' (with_reducible first | assumption | refine pwrShedReqWriteAccess_keep _ _ ?_ | refine KeepNext.next ?_)

theorem shedSetDone_keep {s0 : State} {s : State} (h0 : Keep s0 s) :
    Keep s0 (shedSetDone s) := by
  unfold shedSetDone
  repeat' (with_reducible first
    | assumption | refine mbDone_keep _ _ _ ?_ | extract_lets | refine Keep.ite ?_ ?_ | split
    | refine keep_mk ((keep_iff _ _).1 ?_))

theorem coreClear_keep {s0 : State} (k : Nat) {s : State} (h0 : Keep s0 s) :
    Keep s0 (coreClear k s) := by
  unfold coreClear
  repeat' (with_reducible first | assumption | refine setF_keep _ _ ?_ | refine setCore_keep _ _ ?_ | refine lmClear_keep _ ?_)

theorem farAbandon_keep {s0 : State} (k : Nat) {s : State} (h0 : Keep s0 s) :
    Keep s0 (farAbandon k s) := by
  unfold farAbandon
  repeat' (with_reducible first | assumption | extract_lets | refine keep_mk ((keep_iff _ _).1 ?_))

theorem execShedDrainDone_keep {s0 : State} (k : Fin 32) {s : State} (h0 : Keep s0 s) :
    KeepNext s0 (execShedDrainDone k s) := by
  unfold execShedDrainDone
  repeat' (with_reducible first
    | assumption | refine setF_keep _ _ ?_ | refine setShed_keep _ _ ?_ | refine bellPulse_keep _ ?_
    | refine shedSetDone_keep ?_ | refine coreClear_keep _ ?_ | refine KeepNext.next ?_ | extract_lets | refine Keep.ite ?_ ?_
    | refine KeepNext.ite ?_ ?_)

theorem execShedPowerUp_keep {s0 : State} {s : State} (h0 : Keep s0 s) :
    KeepNext s0 (execShedPowerUp s) := by
  unfold execShedPowerUp
  repeat' (with_reducible first
    | assumption | refine modPower_keep _ ?_ | refine KeepNext.next ?_ | extract_lets | refine KeepNext.ite ?_ ?_ | split)

theorem groupHold_keep {s0 : State} (g : Nat) {s : State} (h0 : Keep s0 s) :
    Keep s0 (groupHold g s) := by
  unfold groupHold
  repeat' (with_reducible first
    | assumption | refine modChan_keep _ _ ?_ | refine holdChan_keep _ ?_ | extract_lets
    | refine Keep.foldl ?_ (fun _ _ _ => ?_))

theorem groupAcquire_keep {s0 : State} (g : Nat) {s : State} (h0 : Keep s0 s) :
    Keep s0 (groupAcquire g s) := by
  unfold groupAcquire
  repeat' (with_reducible first
    | assumption | refine setF_keep _ _ ?_ | refine portRefresh_keep _ ?_ | extract_lets | refine Keep.ite ?_ ?_
    | refine Keep.foldl ?_ (fun _ _ _ => ?_))

theorem shedInit_keep {s0 : State} (k : Nat) {s : State} (h0 : Keep s0 s) :
    Keep s0 (shedInit k s) := by
  unfold shedInit
  repeat' (with_reducible first
    | assumption | refine coreClear_keep _ ?_ | refine groupHold_keep _ ?_ | refine groupAcquire_keep _ ?_ | extract_lets
    | refine Keep.ite ?_ ?_ | refine keep_mk ((keep_iff _ _).1 ?_))

theorem shedEnterOn_keep {s0 : State} (k : Nat) {s : State} (h0 : Keep s0 s) :
    Keep s0 (shedEnterOn k s) := by
  unfold shedEnterOn
  repeat' (with_reducible first
    | assumption | refine setF_keep _ _ ?_ | refine setShed_keep _ _ ?_ | refine bellPulse_keep _ ?_
    | refine bellShedOn_keep _ ?_ | refine shedInit_keep _ ?_)

theorem shedRisen_keep {s0 : State} (k : Nat) {s : State} (h0 : Keep s0 s) :
    Keep s0 (shedRisen k s) := by
  unfold shedRisen
  repeat' (with_reducible first | assumption | refine modPower_keep _ ?_)

theorem execShedPowerGood_keep {s0 : State} {s : State} (h0 : Keep s0 s) :
    KeepNext s0 (execShedPowerGood s) := by
  unfold execShedPowerGood
  repeat' (with_reducible first
    | assumption | refine shedSetDone_keep ?_ | refine shedEnterOn_keep _ ?_ | refine shedRisen_keep _ ?_
    | refine KeepNext.next ?_ | split)

theorem execPwrShedFail_keep {s0 : State} {s : State} (h0 : Keep s0 s) :
    KeepNext s0 (execPwrShedFail s) := by
  unfold execPwrShedFail
  repeat' (with_reducible first
    | assumption | refine setF_keep _ _ ?_ | refine report_keep _ _ _ _ ?_ | refine bellPulse_keep _ ?_
    | refine shedSetDone_keep ?_ | refine shedRisen_keep _ ?_ | refine KeepNext.next ?_ | split)

theorem railsFail_keep {s0 : State} (g : Nat) {s : State} (h0 : Keep s0 s) :
    Keep s0 (railsFail g s) := by
  unfold railsFail
  repeat' (with_reducible first
    | assumption | refine railFault_keep _ _ ?_ | extract_lets | refine Keep.ite ?_ ?_ | refine Keep.foldl ?_ (fun _ _ _ => ?_)
    | split | refine keep_mk ((keep_iff _ _).1 ?_))

theorem shedReset_keep {s0 : State} (k : Nat) {s : State} (h0 : Keep s0 s) :
    Keep s0 (shedReset k s) := by
  unfold shedReset
  repeat' (with_reducible first
    | assumption | refine setF_keep _ _ ?_ | refine setShed_keep _ _ ?_ | refine bellRefresh_keep ?_
    | refine portRefreshGroup_keep _ ?_ | refine modPower_keep _ ?_ | refine clusterFinish_keep _ ?_
    | refine coreClear_keep _ ?_ | refine farAbandon_keep _ ?_ | refine groupHold_keep _ ?_ | refine railsFail_keep _ ?_
    | extract_lets | refine Keep.ite ?_ ?_)

theorem shedResets_keep {s0 : State} (v : Nat) {s : State} (h0 : Keep s0 s) :
    Keep s0 (shedResets v s) := by
  unfold shedResets
  repeat' (with_reducible first
    | assumption | refine shedReset_keep _ ?_ | extract_lets | refine Keep.ite ?_ ?_ | refine Keep.foldl ?_ (fun _ _ _ => ?_))

theorem pwrShedRstWriteAccess_keep {s0 : State} (r : Requester) (v : Word) {s : State} (h0 : Keep s0 s) :
    Keep s0 (pwrShedRstWriteAccess r v s) := by
  unfold pwrShedRstWriteAccess
  repeat' (with_reducible first
    | assumption | refine reply_keep _ _ _ ?_ | refine leadRefuse_keep _ _ ?_ | refine shedResets_keep _ ?_
    | refine Keep.ite ?_ ?_)

theorem execPwrShedRstWrite_keep {s0 : State} (r : Requester) (v : Word) {s : State} (h0 : Keep s0 s) :
    KeepNext s0 (execPwrShedRstWrite r v s) := by
  unfold execPwrShedRstWrite
  repeat' (with_reducible first | assumption | refine pwrShedRstWriteAccess_keep _ _ ?_ | refine KeepNext.next ?_)

theorem execShedResetEnd_keep {s0 : State} (k : Fin 32) {s : State} (h0 : Keep s0 s) :
    KeepNext s0 (execShedResetEnd k s) := by
  unfold execShedResetEnd
  repeat' (with_reducible first
    | assumption | refine modPower_keep _ ?_ | refine shedDrain_keep _ ?_ | refine shedSetDone_keep ?_
    | refine shedEnterOn_keep _ ?_ | refine KeepNext.next ?_ | extract_lets | refine Keep.ite ?_ ?_ | refine KeepNext.ite ?_ ?_)

theorem execSleepEntry_keep {s0 : State} {s : State} (h0 : Keep s0 s) :
    KeepNext s0 (execSleepEntry s) := by
  unfold execSleepEntry
  repeat' (with_reducible first
    | assumption | refine setF_keep _ _ ?_ | refine modPower_keep _ ?_ | refine KeepNext.next ?_ | extract_lets
    | refine KeepNext.ite ?_ ?_)

theorem execWakeLatchCapture_keep {s0 : State} (n : Nat) (level : Bool) {s : State} (h0 : Keep s0 s) :
    KeepNext s0 (execWakeLatchCapture n level s) := by
  unfold execWakeLatchCapture
  repeat' (with_reducible first
    | assumption | refine latchEvent_keep _ ?_ | refine KeepNext.next ?_ | extract_lets | refine Keep.ite ?_ ?_
    | refine KeepNext.ite ?_ ?_ | refine keep_mk ((keep_iff _ _).1 ?_))

theorem latchesOut_keep {s0 : State} {s : State} (h0 : Keep s0 s) :
    Keep s0 (latchesOut s) := by
  unfold latchesOut
  repeat' (with_reducible first
    | assumption | refine setF_keep _ _ ?_ | refine bellSetPend_keep _ _ ?_ | extract_lets | refine Keep.ite ?_ ?_
    | refine Keep.foldl ?_ (fun _ _ _ => ?_))

theorem clocksRestart_keep {s0 : State} {s : State} (h0 : Keep s0 s) :
    Keep s0 (clocksRestart s) := by
  unfold clocksRestart
  repeat' (with_reducible first
    | assumption | refine setF_keep _ _ ?_ | refine bellRestoreLevels_keep _ ?_ | refine modPos_keep _ ?_
    | refine posEnter_keep _ ?_ | refine posQReset_keep ?_ | refine latchesOut_keep ?_ | extract_lets
    | refine Keep.foldl ?_ (fun _ _ _ => ?_))

theorem execWake_keep {s0 : State} {s : State} (h0 : Keep s0 s) :
    KeepNext s0 (execWake s) := by
  unfold execWake
  repeat' (with_reducible first
    | assumption | refine modPower_keep _ ?_ | refine clocksRestart_keep ?_ | refine KeepNext.next ?_
    | refine KeepNext.ite ?_ ?_)

theorem afterReset_keep {s0 : State} (cause : Nat) {s : State} (hc : BitVec.ofNat 32 cause ≠ 0) (h0 : Keep s0 s) :
    Keep s0 (afterReset cause s) := by
  refine Keep.trans h0 ⟨?_, rfl, Nat.le_refl _, Nat.le_refl _, List.suffix_refl _, fun _ => Nat.le_refl _⟩
  intro w
  simp only [State.wf, afterReset, Memory.wf, Bool.and_eq_true, tblWf, decide_eq_true_eq] at w ⊢
  refine ⟨⟨?_, tblWf_filter _ w.1.2⟩, w.2⟩
  rw [show csrReset PWR_RESET_CAUSE = 0 from by decide]
  exact hc

theorem wearShow_keep {s0 : State} {s : State} (h0 : Keep s0 s) :
    Keep s0 (wearShow s) := by
  unfold wearShow
  repeat' (with_reducible first | assumption | refine wearRefresh_keep _ ?_ | refine Keep.foldl ?_ (fun _ _ _ => ?_))

theorem resetDone_keep {s0 : State} {s : State} (h0 : Keep s0 s) :
    Keep s0 (resetDone s) := by
  unfold resetDone
  repeat' (with_reducible first | assumption | refine faultPin_keep ?_ | refine wearShow_keep ?_)

theorem execPorst_keep {s0 : State} {s : State} (h0 : Keep s0 s) :
    KeepNext s0 (execPorst s) := by
  unfold execPorst
  repeat' (with_reducible first
    | assumption | refine afterReset_keep _ (by decide) ?_ | refine resetDone_keep ?_ | refine KeepNext.next ?_)

theorem execBrownout_keep {s0 : State} {s : State} (h0 : Keep s0 s) :
    KeepNext s0 (execBrownout s) := by
  unfold execBrownout
  repeat' (with_reducible first
    | assumption | refine afterReset_keep _ (by decide) ?_ | refine resetDone_keep ?_ | refine KeepNext.next ?_)

theorem execWrst_keep {s0 : State} {s : State} (h0 : Keep s0 s) :
    KeepNext s0 (execWrst s) := by
  unfold execWrst
  repeat' (with_reducible first
    | assumption | refine setF_keep _ _ ?_ | refine afterReset_keep _ (by decide) ?_ | refine resetDone_keep ?_
    | refine KeepNext.next ?_ | extract_lets | refine Keep.ite ?_ ?_ | refine Keep.foldl ?_ (fun _ _ _ => ?_)
    | refine keep_mk ((keep_iff _ _).1 ?_))

theorem execPerst_keep {s0 : State} {s : State} (h0 : Keep s0 s) :
    KeepNext s0 (execPerst s) := by
  unfold execPerst
  repeat' (with_reducible first | assumption | refine modPower_keep _ ?_ | refine KeepNext.next ?_)

theorem execPcieLinkUp_keep {s0 : State} {s : State} (h0 : Keep s0 s) :
    KeepNext s0 (execPcieLinkUp s) := by
  unfold execPcieLinkUp
  repeat' (with_reducible first | assumption | refine modPower_keep _ ?_ | refine KeepNext.next ?_ | refine KeepNext.ite ?_ ?_)

theorem execPcieLinkDown_keep {s0 : State} {s : State} (h0 : Keep s0 s) :
    KeepNext s0 (execPcieLinkDown s) := by
  unfold execPcieLinkDown
  repeat' (with_reducible first | assumption | refine modPower_keep _ ?_ | refine KeepNext.next ?_)

theorem loftRestore_keep {s0 : State} (w : Nat) {s : State} (h0 : Keep s0 s) :
    Keep s0 (loftRestore w s) := by
  unfold loftRestore
  repeat' (with_reducible first
    | assumption | refine stLE_keep _ _ _ ?_ | extract_lets | refine Keep.ite ?_ ?_ | refine keep_mk ((keep_iff _ _).1 ?_))

theorem persFields_keep {s0 : State} {s : State} (h0 : Keep s0 s) :
    Keep s0 (persFields s) := by
  unfold persFields
  repeat' (with_reducible first
    | assumption | refine setF_keep _ _ ?_ | refine wr64_keep _ _ ?_ | extract_lets | refine Keep.foldl ?_ (fun _ _ _ => ?_))

theorem execBootStart_keep {s0 : State} {s : State} (h0 : Keep s0 s) :
    KeepNext s0 (execBootStart s) := by
  unfold execBootStart
  repeat' (with_reducible first
    | assumption | refine setF_keep _ _ ?_ | refine report_keep _ _ _ _ ?_ | refine loftFlags_keep _ _ ?_
    | refine eraseLoftKeys_keep ?_ | refine modPower_keep _ ?_ | refine loftRestore_keep _ ?_ | refine persFields_keep ?_
    | refine KeepNext.next ?_ | extract_lets | refine Keep.ite ?_ ?_ | refine KeepNext.ite ?_ ?_
    | refine Keep.foldl ?_ (fun _ _ _ => ?_))

theorem tackRestore_keep {s0 : State} {s : State} (h0 : Keep s0 s) :
    Keep s0 (tackRestore s) := by
  unfold tackRestore
  repeat' (with_reducible first
    | assumption | refine setF_keep _ _ ?_ | refine setKek_keep _ _ ?_ | refine setPairing_keep _ _ ?_ | extract_lets
    | refine Keep.foldl ?_ (fun _ _ _ => ?_) | split | refine keep_mk ((keep_iff _ _).1 ?_))

theorem execCorePllLock_keep {s0 : State} {s : State} (h0 : Keep s0 s) :
    KeepNext s0 (execCorePllLock s) := by
  unfold execCorePllLock
  repeat' (with_reducible first
    | assumption | refine report_keep _ _ _ _ ?_ | refine kek0Again_keep ?_ | refine modPower_keep _ ?_
    | refine shedCommit_keep _ ?_ | refine latchesOut_keep ?_ | refine tackRestore_keep ?_ | refine KeepNext.next ?_
    | extract_lets | refine Keep.ite ?_ ?_ | refine KeepNext.ite ?_ ?_)

theorem postFail_keep {s0 : State} (n : Nat) {s : State} (h0 : Keep s0 s) :
    Keep s0 (postFail n s) := by
  unfold postFail
  repeat' (with_reducible first
    | assumption | refine setF_keep _ _ ?_ | refine report_keep _ _ _ _ ?_ | refine bellPulse_keep _ ?_)

theorem marksRestore_keep {s0 : State} {s : State} (h0 : Keep s0 s) :
    Keep s0 (marksRestore s) := by
  unfold marksRestore
  repeat' (with_reducible first
    | assumption | refine modChan_keep _ _ ?_ | extract_lets | refine Keep.ite ?_ ?_ | refine Keep.foldl ?_ (fun _ _ _ => ?_))

theorem execFwReady_keep {s0 : State} (fails : Option (Fin 8)) {s : State} (h0 : Keep s0 s) :
    KeepNext s0 (execFwReady fails s) := by
  unfold execFwReady
  repeat' (with_reducible first
    | assumption | refine setF_keep _ _ ?_ | refine modPower_keep _ ?_ | refine ledgerLines_keep ?_ | refine hostEvt_keep _ ?_ | refine postFail_keep _ ?_
    | refine marksRestore_keep ?_ | refine KeepNext.next ?_ | extract_lets | refine KeepNext.ite ?_ ?_
    | refine Keep.foldl ?_ (fun _ _ _ => ?_) | split | refine keep_mk ((keep_iff _ _).1 ?_))

theorem execRefclkSysLost_keep {s0 : State} {s : State} (h0 : Keep s0 s) :
    KeepNext s0 (execRefclkSysLost s) := by
  unfold execRefclkSysLost
  repeat' (with_reducible first
    | assumption | refine setF_keep _ _ ?_ | refine report_keep _ _ _ _ ?_ | refine bellPulse_keep _ ?_
    | refine muteEvery_keep _ ?_ | refine KeepNext.next ?_ | extract_lets | refine KeepNext.ite ?_ ?_
    | refine keep_mk ((keep_iff _ _).1 ?_))

theorem execRefclkSysRelock_keep {s0 : State} {s : State} (h0 : Keep s0 s) :
    KeepNext s0 (execRefclkSysRelock s) := by
  unfold execRefclkSysRelock
  repeat' (with_reducible first
    | assumption | refine unmuteAll_keep _ ?_ | refine KeepNext.next ?_ | extract_lets | refine KeepNext.ite ?_ ?_
    | refine keep_mk ((keep_iff _ _).1 ?_))

theorem execThermalExcursion_keep {s0 : State} {s : State} (h0 : Keep s0 s) :
    KeepNext s0 (execThermalExcursion s) := by
  unfold execThermalExcursion
  repeat' (with_reducible first | assumption | refine loftProgram_keep _ _ ?_ | refine KeepNext.next ?_)

theorem execPowerOnHours_keep {s0 : State} {s : State} (h0 : Keep s0 s) :
    KeepNext s0 (execPowerOnHours s) := by
  unfold execPowerOnHours
  repeat' (with_reducible first | assumption | refine loftProgram_keep _ _ ?_ | refine KeepNext.next ?_)

theorem execSmbusBlockRead_keep {s0 : State} (addr : BitVec 7) (code : BitVec 8) {s : State} (h0 : Keep s0 s) :
    KeepNext s0 (execSmbusBlockRead addr code s) := by
  unfold execSmbusBlockRead
  repeat' (with_reducible first
    | assumption | refine emit_keep _ ?_ | refine KeepNext.next ?_ | extract_lets | refine KeepNext.ite ?_ ?_)

theorem ballsTo_keep {s0 : State} (b : Nat) {s : State} (h0 : Keep s0 s) :
    Keep s0 (ballsTo b s) := by
  unfold ballsTo
  repeat' (with_reducible first
    | assumption | refine emit_keep _ ?_ | refine modPower_keep _ ?_ | extract_lets | refine Keep.ite ?_ ?_
    | refine Keep.foldl ?_ (fun _ _ _ => ?_))

theorem execJtagInstruction_keep {s0 : State} (i : JtagInstr) {s : State} (h0 : Keep s0 s) :
    KeepNext s0 (execJtagInstruction i s) := by
  unfold execJtagInstruction
  repeat' (with_reducible first
    | assumption | refine emit_keep _ ?_ | refine modPower_keep _ ?_ | refine clocksRestart_keep ?_ | refine ballsTo_keep _ ?_
    | refine KeepNext.next ?_ | exact KeepNext.fault | extract_lets | refine KeepNext.ite ?_ ?_ | split)

theorem execFactoryTestMode_keep {s0 : State} (pin : Bool) {s : State} (h0 : Keep s0 s) :
    KeepNext s0 (execFactoryTestMode pin s) := by
  unfold execFactoryTestMode
  repeat' (with_reducible first | assumption | refine modPower_keep _ ?_ | refine KeepNext.next ?_)

end Sys2Proof.Machine
end

