-- ==== Sys2Proof/Laws/KeepLedger.lean ====
section
/-!
SUPPORT. `Keep` for what Machine/Ledger.lean defines.
-/

namespace Sys2Proof.Machine

theorem modLedger_keep {s0 : State} {s : State} (f : Ledger → Ledger) (h0 : Keep s0 s) :
    Keep s0 (State.modLedger s f) := by
  unfold State.modLedger
  repeat' (with_reducible first | assumption | refine keep_mk ((keep_iff _ _).1 ?_))

theorem reactInterrupt_keep {s0 : State} (code : Nat) {s : State} (h0 : Keep s0 s) :
    Keep s0 (reactInterrupt code s) := by
  unfold reactInterrupt
  repeat' (with_reducible first | assumption | refine bellPulse_keep _ ?_)

theorem reactMute_keep {s0 : State} (r : Report) {s : State} (h0 : Keep s0 s) :
    Keep s0 (reactMute r s) := by
  unfold reactMute
  repeat' (with_reducible first
    | assumption | refine mutePath_keep _ _ ?_ | extract_lets | refine Keep.ite ?_ ?_ | refine Keep.foldl ?_ (fun _ _ _ => ?_))

theorem enterSafe_keep {s0 : State} (code : Nat) {s : State} (h0 : Keep s0 s) :
    Keep s0 (enterSafe code s) := by
  unfold enterSafe
  repeat' (with_reducible first
    | assumption | refine setF_keep _ _ ?_ | refine report_keep _ _ _ _ ?_ | refine muteEvery_keep _ ?_
    | refine coreStop_keep _ ?_ | refine modLedger_keep _ ?_ | extract_lets | refine Keep.ite ?_ ?_
    | refine Keep.foldl ?_ (fun _ _ _ => ?_))

theorem react_keep {s0 : State} (r : Report) {s : State} (h0 : Keep s0 s) :
    Keep s0 (react r s) := by
  unfold react
  repeat' (with_reducible first
    | assumption | refine shedReset_keep _ ?_ | refine reactInterrupt_keep _ ?_ | refine reactMute_keep _ ?_
    | refine enterSafe_keep _ ?_ | extract_lets | refine Keep.ite ?_ ?_ | split)

theorem noteDown_keep {s0 : State} (r : Report) {s : State} (h0 : Keep s0 s) :
    Keep s0 (noteDown r s) := by
  unfold noteDown
  repeat' (with_reducible first | assumption | refine modLedger_keep _ ?_ | refine Keep.ite ?_ ?_)

theorem takeState_keep {s0 : State} (r : Report) {s : State} (h0 : Keep s0 s) :
    Keep s0 (takeState r s) := by
  unfold takeState
  repeat' (with_reducible first
    | assumption | refine fstateRaise_keep _ _ ?_ | refine ledgerLines_keep ?_ | refine react_keep _ ?_
    | refine noteDown_keep _ ?_)

theorem intake_keep {s0 : State} (l : List Record) {s : State} (h0 : Keep s0 s) :
    Keep s0 (intake l s) := by
  unfold intake
  repeat' (with_reducible first
    | assumption | refine countDrop_keep _ ?_ | refine modLedger_keep _ ?_ | extract_lets | refine Keep.ite ?_ ?_
    | refine Keep.foldl ?_ (fun _ _ _ => ?_))

theorem coalesce_keep {s0 : State} (r : Report) {s : State} (h0 : Keep s0 s) :
    Keep s0 (coalesce r s) := by
  unfold coalesce
  repeat' (with_reducible first
    | assumption | refine modLedger_keep _ ?_ | refine intake_keep _ ?_ | extract_lets | refine Keep.ite ?_ ?_ | split)

theorem execLedgerReport_keep {s0 : State} {s : State} (h0 : Keep s0 s) :
    KeepNext s0 (execLedgerReport s) := by
  unfold execLedgerReport
  repeat' (with_reducible first
    | assumption | refine ledgerLines_keep ?_ | refine modLedger_keep _ ?_ | refine takeState_keep _ ?_
    | refine coalesce_keep _ ?_ | refine KeepNext.next ?_ | extract_lets | refine KeepNext.ite ?_ ?_ | split)

theorem windowClose_keep {s0 : State} (e : CoEntry) {s : State} (h0 : Keep s0 s) :
    Keep s0 (windowClose e s) := by
  unfold windowClose
  repeat' (with_reducible first | assumption | refine intake_keep _ ?_ | refine Keep.ite ?_ ?_)

theorem execCoalesceWindowClose_keep {s0 : State} {s : State} (h0 : Keep s0 s) :
    KeepNext s0 (execCoalesceWindowClose s) := by
  unfold execCoalesceWindowClose
  repeat' (with_reducible first
    | assumption | refine ledgerLines_keep ?_ | refine modLedger_keep _ ?_ | refine windowClose_keep _ ?_
    | refine KeepNext.next ?_ | extract_lets | refine Keep.foldl ?_ (fun _ _ _ => ?_))

theorem ringShow_keep {s0 : State} {s : State} (h0 : Keep s0 s) :
    Keep s0 (ringShow s) := by
  unfold ringShow
  repeat' (with_reducible first | assumption | refine setF_keep _ _ ?_ | refine ledgerLines_keep ?_)

theorem slotWrite_keep {s0 : State} (host : Bool) (size base i : Nat) (l : List Byte) {s : State} (h0 : Keep s0 s) :
    Keep s0 (slotWrite host size base i l s) := by
  unfold slotWrite
  repeat' (with_reducible first
    | assumption | refine hostWrite_keep _ _ ?_ | refine padStore_keep _ _ ?_ | refine breakLocks_keep _ _ _ ?_ | extract_lets
    | refine Keep.ite ?_ ?_)

theorem ringAdvance_keep {s0 : State} {s : State} (h0 : Keep s0 s) :
    Keep s0 (ringAdvance s) := by
  unfold ringAdvance
  repeat' (with_reducible first
    | assumption | refine setF_keep _ _ ?_ | refine hostWrite_keep _ _ ?_ | refine ringShow_keep ?_ | extract_lets
    | refine Keep.ite ?_ ?_)

theorem ringStore_keep {s0 : State} (x : Record) {s : State} (h0 : Keep s0 s) :
    Keep s0 (ringStore x s) := by
  unfold ringStore
  repeat' (with_reducible first | assumption | refine slotWrite_keep _ _ _ _ _ ?_ | refine ringAdvance_keep ?_)

theorem ringOwed_keep {s0 : State} {s : State} (h0 : Keep s0 s) :
    Keep s0 (ringOwed s) := by
  unfold ringOwed
  repeat' (with_reducible first
    | assumption | refine modLedger_keep _ ?_ | refine takeState_keep _ ?_ | refine ringStore_keep _ ?_ | extract_lets
    | refine Keep.ite ?_ ?_)

theorem takeRd_keep {s0 : State} (v : Nat) {s : State} (h0 : Keep s0 s) :
    Keep s0 (takeRd v s) := by
  unfold takeRd
  repeat' (with_reducible first
    | assumption | refine setF_keep _ _ ?_ | refine ringShow_keep ?_ | extract_lets | refine Keep.ite ?_ ?_)

theorem hostRd_keep {s0 : State} {s : State} (h0 : Keep s0 s) :
    Keep s0 (hostRd s) := by
  unfold hostRd
  repeat' (with_reducible first | assumption | refine takeRd_keep _ ?_ | refine Keep.ite ?_ ?_)

theorem ringTake_keep {s0 : State} (x : Record) {s : State} (h0 : Keep s0 s) :
    Keep s0 (ringTake x s) := by
  unfold ringTake
  repeat' (with_reducible first
    | assumption | refine countDrop_keep _ ?_ | refine ledgerLines_keep ?_ | refine modLedger_keep _ ?_
    | refine takeState_keep _ ?_ | refine ringStore_keep _ ?_ | extract_lets | refine Keep.ite ?_ ?_)

theorem unstick_keep {s0 : State} {s : State} (h0 : Keep s0 s) :
    Keep s0 (unstick s) := by
  unfold unstick
  repeat' (with_reducible first | assumption | refine modLedger_keep _ ?_ | refine Keep.ite ?_ ?_ | split)

theorem execRingWrite_keep {s0 : State} (busy : Bool) {s : State} (h0 : Keep s0 s) :
    KeepNext s0 (execRingWrite busy s) := by
  unfold execRingWrite
  repeat' (with_reducible first
    | assumption | refine modLedger_keep _ ?_ | refine ringOwed_keep ?_ | refine hostRd_keep ?_ | refine ringTake_keep _ ?_
    | refine unstick_keep ?_ | refine KeepNext.next ?_ | extract_lets | refine KeepNext.ite ?_ ?_ | split)

theorem rdWrite_keep {s0 : State} (v : Nat) {s : State} (h0 : Keep s0 s) :
    Keep s0 (rdWrite v s) := by
  unfold rdWrite
  repeat' (with_reducible first | assumption | refine ringOwed_keep ?_ | refine takeRd_keep _ ?_ | refine Keep.ite ?_ ?_)

theorem execLedgerRdWrite_keep {s0 : State} (r : Requester) (v : Word) {s : State} (h0 : Keep s0 s) :
    KeepNext s0 (execLedgerRdWrite r v s) := by
  unfold execLedgerRdWrite
  repeat' (with_reducible first | assumption | refine reply_keep _ _ _ ?_ | refine rdWrite_keep _ ?_ | refine KeepNext.next ?_)

theorem execHostRdPoll_keep {s0 : State} {s : State} (h0 : Keep s0 s) :
    KeepNext s0 (execHostRdPoll s) := by
  unfold execHostRdPoll
  repeat' (with_reducible first
    | assumption | refine ringOwed_keep ?_ | refine hostRd_keep ?_ | refine KeepNext.next ?_ | refine KeepNext.ite ?_ ?_)

theorem moveDrop_keep {s0 : State} (n : Nat) (host : Bool) (size base : Nat) {s : State} (h0 : Keep s0 s) :
    Keep s0 (moveDrop n host size base s) := by
  induction n generalizing s with
  | zero => exact h0
  | succ n ih =>
    unfold moveDrop
    exact ih (setF_keep _ _ (countDrop_keep _ h0))

theorem moveCopy_keep {s0 : State} (n i : Nat) (host : Bool) (size base : Nat) {s : State} (h0 : Keep s0 s) :
    Keep s0 (moveCopy n i host size base s) := by
  induction n generalizing i s with
  | zero => exact h0
  | succ n ih => exact ih _ (slotWrite_keep _ _ _ _ _ h0)

theorem modeChange_keep {s0 : State} (cfg : Word) (ring idx : Nat) {s : State} (h0 : Keep s0 s) :
    Keep s0 (modeChange cfg ring idx s) := by
  unfold modeChange
  repeat' (with_reducible first
    | assumption | refine wr_keep _ _ ?_ | refine setF_keep _ _ ?_ | refine hostWrite_keep _ _ ?_ | refine ledgerLines_keep ?_
    | refine modLedger_keep _ ?_ | extract_lets | refine Keep.ite ?_ ?_)

theorem execLedgerModeCopyDone_keep {s0 : State} {s : State} (h0 : Keep s0 s) :
    KeepNext s0 (execLedgerModeCopyDone s) := by
  unfold execLedgerModeCopyDone
  repeat' (with_reducible first
    | assumption | refine setF_keep _ _ ?_ | refine hostWrite_keep _ _ ?_ | refine ringShow_keep ?_ | refine ringOwed_keep ?_
    | refine moveDrop_keep _ _ _ _ ?_ | refine moveCopy_keep _ _ _ _ _ ?_ | refine KeepNext.next ?_ | extract_lets
    | refine Keep.ite ?_ ?_ | refine KeepNext.ite ?_ ?_)

theorem leaveSafe_keep {s0 : State} (code : Nat) {s : State} (h0 : Keep s0 s) :
    Keep s0 (leaveSafe code s) := by
  unfold leaveSafe
  repeat' (with_reducible first
    | assumption | refine setF_keep _ _ ?_ | refine unmuteAll_keep _ ?_ | refine modLedger_keep _ ?_ | extract_lets
    | refine Keep.ite ?_ ?_)

theorem clearCode_keep {s0 : State} (code : Nat) {s : State} (h0 : Keep s0 s) :
    Keep s0 (clearCode code s) := by
  unfold clearCode
  repeat' (with_reducible first
    | assumption | refine setF_keep _ _ ?_ | refine unmuteAll_keep _ ?_ | refine leaveSafe_keep _ ?_)

theorem faultClear_keep {s0 : State} (code : Nat) {s : State} (h0 : Keep s0 s) :
    Keep s0 (faultClear code s).2.2 := by
  unfold faultClear
  repeat' (with_reducible first
    | assumption | refine ledgerLines_keep ?_ | refine clearCode_keep _ ?_ | extract_lets
    | refine Keep.foldl ?_ (fun _ _ _ => ?_))

theorem ledgerInjectAccess_keep {s0 : State} (r : Requester) (v : Word) {s : State} (h0 : Keep s0 s) :
    Keep s0 (ledgerInjectAccess r v s) := by
  unfold ledgerInjectAccess
  repeat' (with_reducible first
    | assumption | refine wr_keep _ _ ?_ | refine addReport_keep _ _ ?_ | refine reply_keep _ _ _ ?_
    | refine decodeFault_keep _ _ ?_ | extract_lets | refine Keep.ite ?_ ?_)

theorem execLedgerInject_keep {s0 : State} (r : Requester) (v : Word) {s : State} (h0 : Keep s0 s) :
    KeepNext s0 (execLedgerInject r v s) := by
  unfold execLedgerInject
  repeat' (with_reducible first | assumption | refine ledgerInjectAccess_keep _ _ ?_ | refine KeepNext.next ?_)

end Sys2Proof.Machine
end

