-- ==== Sys2Proof/Laws/KeepFarrier.lean ====
section
/-!
SUPPORT. `Keep` for what Machine/Farrier.lean defines.
-/

namespace Sys2Proof.Machine

theorem covered_keep {s0 : State} (cls i : Nat) {s : State} (h0 : Keep s0 s) :
    Keep s0 (covered cls i s) := by
  unfold covered
  repeat' (with_reducible first | assumption | refine keep_mk ((keep_iff _ _).1 ?_))

theorem execCoverageLate_keep {s0 : State} (cls : Fin 6) (index : Nat) {s : State} (h0 : Keep s0 s) :
    KeepNext s0 (execCoverageLate cls index s) := by
  unfold execCoverageLate
  repeat' (with_reducible first
    | assumption | refine setF_keep _ _ ?_ | refine report_keep _ _ _ _ ?_ | refine bellPulse_keep _ ?_
    | refine KeepNext.next ?_ | extract_lets | refine KeepNext.ite ?_ ?_ | refine keep_mk ((keep_iff _ _).1 ?_))

theorem farrCfgWritten_keep {s0 : State} {s : State} (h0 : Keep s0 s) :
    Keep s0 (farrCfgWritten s) := by
  unfold farrCfgWritten
  repeat' (with_reducible first | assumption | split | refine keep_mk ((keep_iff _ _).1 ?_))

theorem railKatFail_keep {s0 : State} (r : Nat) {s : State} (h0 : Keep s0 s) :
    Keep s0 (railKatFail r s) := by
  unfold railKatFail
  repeat' (with_reducible first
    | assumption | refine setF_keep _ _ ?_ | refine report_keep _ _ _ _ ?_ | refine bellPulse_keep _ ?_)

theorem railPassed_keep {s0 : State} (r : Nat) {s : State} (h0 : Keep s0 s) :
    Keep s0 (railPassed r s) := by
  unfold railPassed
  repeat' (with_reducible first
    | assumption | refine setF_keep _ _ ?_ | refine cntSat_keep _ _ ?_ | refine covered_keep _ _ ?_ | extract_lets
    | refine Keep.ite ?_ ?_ | refine keep_mk ((keep_iff _ _).1 ?_))

theorem execRailTestStep_keep {s0 : State} (r : Fin 40) (fails : Bool) {s : State} (h0 : Keep s0 s) :
    KeepNext s0 (execRailTestStep r fails s) := by
  unfold execRailTestStep
  repeat' (with_reducible first
    | assumption | refine railKatFail_keep _ ?_ | refine railPassed_keep _ ?_ | refine KeepNext.next ?_ | extract_lets
    | refine Keep.ite ?_ ?_ | refine KeepNext.ite ?_ ?_ | refine keep_mk ((keep_iff _ _).1 ?_))

theorem execFillCellCompare_keep {s0 : State} (a b : Fin 40) (differ : Bool) {s : State} (h0 : Keep s0 s) :
    KeepNext s0 (execFillCellCompare a b differ s) := by
  unfold execFillCellCompare
  repeat' (with_reducible first
    | assumption | refine report_keep _ _ _ _ ?_ | refine bellPulse_keep _ ?_ | refine KeepNext.next ?_ | extract_lets
    | refine KeepNext.ite ?_ ?_ | refine keep_mk ((keep_iff _ _).1 ?_))

theorem execEngineTestStep_keep {s0 : State} (e : Fin 3) (fails : Bool) {s : State} (h0 : Keep s0 s) :
    KeepNext s0 (execEngineTestStep e fails s) := by
  unfold execEngineTestStep
  repeat' (with_reducible first
    | assumption | refine report_keep _ _ _ _ ?_ | refine bellPulse_keep _ ?_ | refine covered_keep _ _ ?_
    | refine KeepNext.next ?_ | extract_lets | refine KeepNext.ite ?_ ?_ | refine keep_mk ((keep_iff _ _).1 ?_))

theorem execDraySelftestStep_keep {s0 : State} (core : Fin 32) (last fails : Bool) {s : State} (h0 : Keep s0 s) :
    KeepNext s0 (execDraySelftestStep core last fails s) := by
  unfold execDraySelftestStep
  repeat' (with_reducible first
    | assumption | refine report_keep _ _ _ _ ?_ | refine bellPulse_keep _ ?_ | refine coreStop_keep _ ?_
    | refine covered_keep _ _ ?_ | refine KeepNext.next ?_ | extract_lets | refine KeepNext.ite ?_ ?_)

theorem execMarginMeasure_keep {s0 : State} (lane : Fin 80) (v h : BitVec 12) {s : State} (h0 : Keep s0 s) :
    KeepNext s0 (execMarginMeasure lane v h s) := by
  unfold execMarginMeasure
  repeat' (with_reducible first
    | assumption | refine setF_keep _ _ ?_ | refine bellPulse_keep _ ?_ | refine portEvt_keep _ _ _ ?_
    | refine covered_keep _ _ ?_ | refine KeepNext.next ?_ | extract_lets | refine KeepNext.ite ?_ ?_ | split)

theorem execEntropySample_keep {s0 : State} (ok : Bool) {s : State} (h0 : Keep s0 s) :
    KeepNext s0 (execEntropySample ok s) := by
  unfold execEntropySample
  repeat' (with_reducible first
    | assumption | refine report_keep _ _ _ _ ?_ | refine bellPulse_keep _ ?_ | refine KeepNext.next ?_ | extract_lets
    | refine KeepNext.ite ?_ ?_ | refine keep_mk ((keep_iff _ _).1 ?_))

end Sys2Proof.Machine
end

