-- ==== Sys2Proof/Laws/KeepTwin.lean ====
section
/-!
SUPPORT. `Keep` for what Machine/Twin.lean defines.
-/

namespace Sys2Proof.Machine

theorem twinEvt_keep {s0 : State} (f : Option Fld) (code src path a b : Nat) {s : State} (h0 : Keep s0 s) :
    Keep s0 (twinEvt f code src path a b s) := by
  unfold twinEvt
  repeat' (with_reducible first
    | assumption | refine setF_keep _ _ ?_ | refine bellPulse_keep _ ?_ | refine report32_keep _ _ _ _ _ ?_ | extract_lets
    | split)

theorem setTwin_keep {s0 : State} (v : Nat) {s : State} (h0 : Keep s0 s) :
    Keep s0 (setTwin v s) := by
  unfold setTwin
  repeat' (with_reducible first | assumption | refine setF_keep _ _ ?_)

theorem twinTake_keep {s0 : State} (typ : Nat) {s : State} (k : List Byte → Nat → State → State) (hk : ∀ (y0 : List Byte) (y1 : Nat) (x : State), Keep s0 x → Keep s0 (k y0 y1 x)) (h0 : Keep s0 s) :
    Keep s0 (twinTake typ s k) := by
  unfold twinTake
  repeat' (with_reducible first
    | assumption | refine hk _ _ _ ?_ | extract_lets | refine Keep.ite ?_ ?_ | split | refine keep_mk ((keep_iff _ _).1 ?_))

theorem rejoinChan_keep {s0 : State} (n : Nat) {s : State} (h0 : Keep s0 s) :
    Keep s0 (rejoinChan n s) := by
  unfold rejoinChan
  repeat' (with_reducible first | assumption | refine twinSend_keep _ ?_ | refine modTw_keep _ _ ?_)

theorem sendSlots_keep {s0 : State} (n : Nat) {s : State} (h0 : Keep s0 s) :
    Keep s0 (sendSlots n s) := by
  unfold sendSlots
  repeat' (with_reducible first | assumption | refine slotSend_keep _ _ _ ?_ | extract_lets | refine Keep.ite ?_ ?_)

theorem giveContext_keep {s0 : State} (n : Nat) {s : State} (h0 : Keep s0 s) :
    Keep s0 (giveContext n s) := by
  unfold giveContext
  repeat' (with_reducible first
    | assumption | refine modTw_keep _ _ ?_ | refine contextSend_keep _ _ ?_ | extract_lets | refine Keep.ite ?_ ?_)

theorem openWaiting_keep {s0 : State} {s : State} (h0 : Keep s0 s) :
    Keep s0 (openWaiting s) := by
  unfold openWaiting
  repeat' (with_reducible first | assumption | extract_lets | refine keep_mk ((keep_iff _ _).1 ?_))

theorem bindEnds_keep {s0 : State} (st : Nat) {s : State} (h0 : Keep s0 s) :
    Keep s0 (bindEnds st s) := by
  unfold bindEnds
  repeat' (with_reducible first
    | assumption | refine mbDone_keep _ _ _ ?_ | extract_lets | split | refine keep_mk ((keep_iff _ _).1 ?_))

theorem bindNow_keep {s0 : State} (r : Mate) (lead : Bool) {s : State} (h0 : Keep s0 s) :
    Keep s0 (bindNow r lead s) := by
  unfold bindNow
  repeat' (with_reducible first
    | assumption | refine draw_keep ?_ | refine modTw_keep _ _ ?_ | refine setTwin_keep _ ?_ | refine sendSlots_keep _ ?_
    | refine giveContext_keep _ ?_ | refine openWaiting_keep ?_ | refine bindEnds_keep _ ?_ | extract_lets
    | refine Keep.ite ?_ ?_ | refine Keep.foldl ?_ (fun _ _ _ => ?_) | split | refine keep_mk ((keep_iff _ _).1 ?_))

theorem execTwinBound_keep {s0 : State} (r : Mate) (arb : Bool) {s : State} (h0 : Keep s0 s) :
    KeepNext s0 (execTwinBound r arb s) := by
  unfold execTwinBound
  repeat' (with_reducible first
    | assumption | refine setF_keep _ _ ?_ | refine bindNow_keep _ _ ?_ | refine KeepNext.next ?_ | extract_lets
    | refine KeepNext.ite ?_ ?_)

theorem execTwinBindFail_keep {s0 : State} (r : Mate) (arb : Bool) {s : State} (h0 : Keep s0 s) :
    KeepNext s0 (execTwinBindFail r arb s) := by
  unfold execTwinBindFail
  repeat' (with_reducible first
    | assumption | refine setF_keep _ _ ?_ | refine report_keep _ _ _ _ ?_ | refine bellPulse_keep _ ?_
    | refine bindEnds_keep _ ?_ | refine KeepNext.next ?_ | extract_lets | refine KeepNext.ite ?_ ?_
    | refine keep_mk ((keep_iff _ _).1 ?_))

theorem execTwinBeatSend_keep {s0 : State} {s : State} (h0 : Keep s0 s) :
    KeepNext s0 (execTwinBeatSend s) := by
  unfold execTwinBeatSend
  repeat' (with_reducible first
    | assumption | refine twinSend_keep _ ?_ | refine KeepNext.next ?_ | extract_lets | refine KeepNext.ite ?_ ?_
    | refine keep_mk ((keep_iff _ _).1 ?_))

theorem showDigests_keep {s0 : State} (n : Nat) (l o w : DWord) {s : State} (h0 : Keep s0 s) :
    Keep s0 (showDigests n l o w s) := by
  unfold showDigests
  repeat' (with_reducible first | assumption | refine wr64_keep _ _ ?_)

theorem diverge_keep {s0 : State} (n : Nat) (l o : DWord) {s : State} (h0 : Keep s0 s) :
    Keep s0 (diverge n l o s) := by
  unfold diverge
  repeat' (with_reducible first
    | assumption | refine twCnt_keep _ _ ?_ | refine mutePath_keep _ _ ?_ | refine twinEvt_keep _ _ _ _ _ _ ?_
    | refine setTwin_keep _ ?_ | refine rejoinChan_keep _ ?_ | extract_lets | refine Keep.ite ?_ ?_
    | refine Keep.foldl ?_ (fun _ _ _ => ?_) | refine keep_mk ((keep_iff _ _).1 ?_))

theorem verdictSend_keep {s0 : State} (n b : Nat) (l o w : DWord) (out : Nat) {s : State} (h0 : Keep s0 s) :
    Keep s0 (verdictSend n b l o w out s) := by
  unfold verdictSend
  repeat' (with_reducible first | assumption | refine twinSend_keep _ ?_)

theorem digestDrop_keep {s0 : State} (n b : Nat) {s : State} (h0 : Keep s0 s) :
    Keep s0 (digestDrop n b s) := by
  unfold digestDrop
  repeat' (with_reducible first | assumption | refine modTw_keep _ _ ?_)

theorem decideDiverge_keep {s0 : State} (n b : Nat) (l o : DWord) (w : Option DWord) {s : State} (h0 : Keep s0 s) :
    Keep s0 (decideDiverge n b l o w s) := by
  unfold decideDiverge
  repeat' (with_reducible first
    | assumption | refine showDigests_keep _ _ _ _ ?_ | refine diverge_keep _ _ _ ?_ | refine verdictSend_keep _ _ _ _ _ _ ?_
    | refine digestDrop_keep _ _ ?_ | extract_lets | refine Keep.ite ?_ ?_ | refine keep_mk ((keep_iff _ _).1 ?_))

theorem digestCompare_keep {s0 : State} (n b : Nat) {s : State} (h0 : Keep s0 s) :
    Keep s0 (digestCompare n b s) := by
  unfold digestCompare
  repeat' (with_reducible first
    | assumption | refine digestDrop_keep _ _ ?_ | refine decideDiverge_keep _ _ _ _ _ ?_ | extract_lets | refine Keep.ite ?_ ?_
    | split)

theorem digestsLate_keep {s0 : State} {s : State} (h0 : Keep s0 s) :
    Keep s0 (digestsLate s) := by
  unfold digestsLate
  repeat' (with_reducible first
    | assumption | refine digestCompare_keep _ _ ?_ | extract_lets | refine Keep.foldl ?_ (fun _ _ _ => ?_))

theorem freeReturn_keep {s0 : State} {s : State} (h0 : Keep s0 s) :
    Keep s0 (freeReturn s) := by
  unfold freeReturn
  repeat' (with_reducible first
    | assumption | refine setTwin_keep _ ?_ | refine digestCompare_keep _ _ ?_ | extract_lets | refine Keep.ite ?_ ?_
    | refine Keep.foldl ?_ (fun _ _ _ => ?_) | refine keep_mk ((keep_iff _ _).1 ?_))

theorem freeGive_keep {s0 : State} (n : Nat) {s : State} (h0 : Keep s0 s) : Keep s0 (freeGive n s) := by
  induction n generalizing s with
  | zero => exact h0
  | succ n ih =>
    unfold freeGive
    split
    · exact h0
    · exact ih (twCnt_keep _ _ (twinGive_keep _ _ _ (keep_mk ((keep_iff _ _).1 h0))))

theorem execTwinFreeRunEnter_keep {s0 : State} {s : State} (h0 : Keep s0 s) :
    KeepNext s0 (execTwinFreeRunEnter s) := by
  unfold execTwinFreeRunEnter
  repeat' (with_reducible first
    | assumption | refine modTw_keep _ _ ?_ | refine twinEvt_keep _ _ _ _ _ _ ?_ | refine setTwin_keep _ ?_
    | refine freeGive_keep _ ?_ | refine KeepNext.next ?_ | extract_lets | refine KeepNext.ite ?_ ?_
    | refine Keep.foldl ?_ (fun _ _ _ => ?_) | refine keep_mk ((keep_iff _ _).1 ?_))

theorem execTwinFreeRunExpiry_keep {s0 : State} {s : State} (h0 : Keep s0 s) :
    KeepNext s0 (execTwinFreeRunExpiry s) := by
  unfold execTwinFreeRunExpiry
  repeat' (with_reducible first
    | assumption | refine mutePath_keep _ _ ?_ | refine twinEvt_keep _ _ _ _ _ _ ?_ | refine setTwin_keep _ ?_
    | refine KeepNext.next ?_ | extract_lets | refine KeepNext.ite ?_ ?_ | refine Keep.foldl ?_ (fun _ _ _ => ?_))

theorem promote_keep {s0 : State} {s : State} (h0 : Keep s0 s) :
    Keep s0 (promote s) := by
  unfold promote
  repeat' (with_reducible first
    | assumption | refine sendAlarm_keep _ _ _ ?_ | refine twinEvt_keep _ _ _ _ _ _ ?_ | refine setTwin_keep _ ?_
    | refine freeGive_keep _ ?_ | extract_lets | refine Keep.ite ?_ ?_ | refine Keep.foldl ?_ (fun _ _ _ => ?_)
    | refine keep_mk ((keep_iff _ _).1 ?_))

theorem execTwinPromote_keep {s0 : State} (arb : Bool) {s : State} (h0 : Keep s0 s) :
    KeepNext s0 (execTwinPromote arb s) := by
  unfold execTwinPromote
  repeat' (with_reducible first
    | assumption | refine setF_keep _ _ ?_ | refine promote_keep ?_ | refine KeepNext.next ?_ | extract_lets
    | refine KeepNext.ite ?_ ?_)

theorem twoLeads_keep {s0 : State} {s : State} (h0 : Keep s0 s) :
    Keep s0 (twoLeads s) := by
  unfold twoLeads
  repeat' (with_reducible first
    | assumption | refine mutePath_keep _ _ ?_ | refine twinEvt_keep _ _ _ _ _ _ ?_ | refine setTwin_keep _ ?_
    | refine rejoinChan_keep _ ?_ | extract_lets | refine Keep.ite ?_ ?_ | refine Keep.foldl ?_ (fun _ _ _ => ?_))

theorem takeNamed_keep {s0 : State} (n efn : Nat) {s : State} (h0 : Keep s0 s) :
    Keep s0 (takeNamed n efn s) := by
  unfold takeNamed
  repeat' (with_reducible first | assumption | refine wr64_keep _ _ ?_ | refine modL1_keep _ _ ?_)

theorem execTwinAssignRx_keep {s0 : State} {s : State} (h0 : Keep s0 s) :
    KeepNext s0 (execTwinAssignRx s) := by
  unfold execTwinAssignRx
  repeat' (with_reducible first
    | assumption | refine modChan_keep _ _ ?_ | refine doSwitch_keep _ _ ?_ | refine modTw_keep _ _ ?_
    | refine twinMatch_keep _ ?_ | refine twinTake_keep _ _ ?_ ?_ | refine twoLeads_keep ?_ | refine takeNamed_keep _ _ ?_
    | intro _ | refine KeepNext.next ?_ | extract_lets | refine Keep.ite ?_ ?_)

theorem dropUnassigned_keep {s0 : State} (n : Nat) (b : Beat) {s : State} (h0 : Keep s0 s) :
    Keep s0 (dropUnassigned n b s) := by
  unfold dropUnassigned
  repeat' (with_reducible first
    | assumption | refine cnt64_keep _ _ ?_ | extract_lets | refine Keep.ite ?_ ?_ | refine keep_mk ((keep_iff _ _).1 ?_))

theorem dropSkipped_keep {s0 : State} (n : Nat) (b : Beat) {s : State} (h0 : Keep s0 s) :
    Keep s0 (dropSkipped n b s) := by
  unfold dropSkipped
  repeat' (with_reducible first
    | assumption | refine cnt64_keep _ _ ?_ | refine report_keep _ _ _ _ ?_ | refine bellPulse_keep _ ?_
    | refine modTw_keep _ _ ?_ | refine diverge_keep _ _ _ ?_ | extract_lets | refine Keep.ite ?_ ?_)

theorem execTwinBeatRx_keep {s0 : State} {s : State} (h0 : Keep s0 s) :
    KeepNext s0 (execTwinBeatRx s) := by
  unfold execTwinBeatRx
  repeat' (with_reducible first
    | assumption | refine twinTake_keep _ _ ?_ ?_ | refine digestsLate_keep ?_ | refine freeReturn_keep ?_
    | refine dropUnassigned_keep _ _ ?_ | refine dropSkipped_keep _ _ ?_ | intro _ | refine KeepNext.next ?_ | extract_lets
    | refine Keep.ite ?_ ?_ | refine Keep.foldl ?_ (fun _ _ _ => ?_) | refine keep_mk ((keep_iff _ _).1 ?_))

theorem witnessDigest_keep {s0 : State} (n b : Nat) {s : State} (h0 : Keep s0 s) :
    Keep s0 (witnessDigest n b s) := by
  unfold witnessDigest
  repeat' (with_reducible first
    | assumption | refine modTw_keep _ _ ?_ | extract_lets | refine Keep.ite ?_ ?_ | refine keep_mk ((keep_iff _ _).1 ?_))

theorem execTwinDigestDone_keep {s0 : State} (n : Fin 512) (b : Nat) {s : State} (h0 : Keep s0 s) :
    KeepNext s0 (execTwinDigestDone n b s) := by
  unfold execTwinDigestDone
  repeat' (with_reducible first
    | assumption | refine fabCast_keep _ _ ?_ | refine twinSend_keep _ ?_ | refine modTw_keep _ _ ?_
    | refine digestDrop_keep _ _ ?_ | refine digestCompare_keep _ _ ?_ | refine witnessDigest_keep _ _ ?_
    | refine KeepNext.next ?_ | extract_lets | refine Keep.ite ?_ ?_ | refine KeepNext.ite ?_ ?_ | split)

theorem execTwinDigestRx_keep {s0 : State} {s : State} (h0 : Keep s0 s) :
    KeepNext s0 (execTwinDigestRx s) := by
  unfold execTwinDigestRx
  repeat' (with_reducible first
    | assumption | refine modTw_keep _ _ ?_ | refine twinTake_keep _ _ ?_ ?_ | refine digestCompare_keep _ _ ?_
    | refine freeReturn_keep ?_ | intro _ | refine KeepNext.next ?_ | extract_lets | refine Keep.ite ?_ ?_)

theorem execWitnessDigestRx_keep {s0 : State} {s : State} (h0 : Keep s0 s) :
    KeepNext s0 (execWitnessDigestRx s) := by
  unfold execWitnessDigestRx
  repeat' (with_reducible first
    | assumption | refine modTw_keep _ _ ?_ | refine digestCompare_keep _ _ ?_ | refine KeepNext.next ?_ | extract_lets
    | refine KeepNext.ite ?_ ?_ | split | refine keep_mk ((keep_iff _ _).1 ?_))

theorem execTwinVerdictRx_keep {s0 : State} {s : State} (h0 : Keep s0 s) :
    KeepNext s0 (execTwinVerdictRx s) := by
  unfold execTwinVerdictRx
  repeat' (with_reducible first
    | assumption | refine mutePath_keep _ _ ?_ | refine twinEvt_keep _ _ _ _ _ _ ?_ | refine setTwin_keep _ ?_
    | refine twinTake_keep _ _ ?_ ?_ | refine rejoinChan_keep _ ?_ | refine showDigests_keep _ _ _ _ ?_ | intro _
    | refine KeepNext.next ?_ | extract_lets | refine Keep.ite ?_ ?_ | refine keep_mk ((keep_iff _ _).1 ?_))

theorem execTwinSlotRx_keep {s0 : State} {s : State} (h0 : Keep s0 s) :
    KeepNext s0 (execTwinSlotRx s) := by
  unfold execTwinSlotRx
  repeat' (with_reducible first
    | assumption | refine setF_keep _ _ ?_ | refine twinSend_keep _ ?_ | refine setSlot_keep _ _ ?_
    | refine slotsRefresh_keep ?_ | refine reapSlots_keep _ ?_ | refine replayClear_keep _ _ ?_ | refine unwrapFailed_keep ?_
    | refine twinTake_keep _ _ ?_ ?_ | intro _ | refine KeepNext.next ?_ | extract_lets | refine Keep.ite ?_ ?_
    | refine Keep.foldl ?_ (fun _ _ _ => ?_) | split)

theorem installArm_keep {s0 : State} (x : Install) {s : State} (h0 : Keep s0 s) :
    Keep s0 (installArm x s).2 := by
  unfold installArm
  repeat' (with_reducible first | assumption | refine beginSwitch_keep _ _ _ _ ?_ | split)

theorem execTwinSlotAckRx_keep {s0 : State} {s : State} (h0 : Keep s0 s) : KeepNext s0 (execTwinSlotAckRx s) := by
  unfold execTwinSlotAckRx
  refine KeepNext.next (twinTake_keep _ _ (fun r n x hx => ?_) h0)
  have h1 : ∀ (l : List Install) (y : List Install × State), Keep s0 y.2 → Keep s0 (l.foldl
      (fun (y : List Install × State) x =>
        if x.ch = n ∧ x.slot = slotOf n (at' r 2 % 4) then
          let z := installArm x y.2
          (y.1 ++ [z.1], z.2)
        else (y.1 ++ [x], y.2)) y).2 := fun l y hy => Keep.foldl_snd hy (fun u a h => by
      split
      · exact installArm_keep _ h
      · exact h)
  refine installsEnd_keep (keep_mk ((keep_iff _ _).1 (h1 _ _ ?_)))
  dsimp only
  exact modTw_keep _ _ hx

theorem followBridle_keep {s0 : State} (n : Nat) (m : List Byte) {s : State} (h0 : Keep s0 s) :
    Keep s0 (followBridle n m s) := by
  unfold followBridle
  repeat' (with_reducible first
    | assumption | refine wr_keep _ _ ?_ | refine setF_keep _ _ ?_ | refine wr64_keep _ _ ?_ | refine modBr_keep _ _ ?_
    | refine armSwitch_keep _ _ _ _ ?_ | refine disarmSwitch_keep _ _ ?_ | extract_lets | refine Keep.ite ?_ ?_
    | refine Keep.foldl ?_ (fun _ _ _ => ?_))

theorem execTwinBridleRx_keep {s0 : State} {s : State} (h0 : Keep s0 s) :
    KeepNext s0 (execTwinBridleRx s) := by
  unfold execTwinBridleRx
  repeat' (with_reducible first
    | assumption | refine brCnt_keep _ _ ?_ | refine twinTake_keep _ _ ?_ ?_ | refine followBridle_keep _ _ ?_ | intro _
    | refine KeepNext.next ?_ | extract_lets | refine Keep.ite ?_ ?_ | refine keep_mk ((keep_iff _ _).1 ?_))

theorem execTwinContextRequestRx_keep {s0 : State} {s : State} (h0 : Keep s0 s) :
    KeepNext s0 (execTwinContextRequestRx s) := by
  unfold execTwinContextRequestRx
  repeat' (with_reducible first
    | assumption | refine twinTake_keep _ _ ?_ ?_ | refine sendSlots_keep _ ?_ | refine giveContext_keep _ ?_ | intro _
    | refine KeepNext.next ?_ | extract_lets | refine Keep.ite ?_ ?_)

theorem ctxWords_keep {s0 : State} (n : Nat) (r : List Byte) {s : State} (h0 : Keep s0 s) :
    Keep s0 (ctxWords n r s) := by
  unfold ctxWords
  repeat' (with_reducible first
    | assumption | refine wr_keep _ _ ?_ | refine setF_keep _ _ ?_ | refine wr64_keep _ _ ?_ | refine keyShow_keep _ _ ?_
    | extract_lets | refine Keep.foldl ?_ (fun _ _ _ => ?_))

theorem ctxTake_keep {s0 : State} (n : Nat) (r : List Byte) {s : State} (h0 : Keep s0 s) :
    Keep s0 (ctxTake n r s) := by
  unfold ctxTake
  repeat' (with_reducible first
    | assumption | refine reapSlots_keep _ ?_ | refine modChan_keep _ _ ?_ | refine commitT120_keep ?_ | refine ctxWords_keep _ _ ?_ | extract_lets | split
    | refine keep_mk ((keep_iff _ _).1 ?_))

theorem execTwinContextRx_keep {s0 : State} {s : State} (h0 : Keep s0 s) :
    KeepNext s0 (execTwinContextRx s) := by
  unfold execTwinContextRx
  repeat' (with_reducible first
    | assumption | refine twinTake_keep _ _ ?_ ?_ | refine ctxTake_keep _ _ ?_ | intro _ | refine KeepNext.next ?_
    | extract_lets | refine Keep.ite ?_ ?_)

theorem execTwinRejoinEligible_keep {s0 : State} (n : Fin 512) {s : State} (h0 : Keep s0 s) :
    KeepNext s0 (execTwinRejoinEligible n s) := by
  unfold execTwinRejoinEligible
  repeat' (with_reducible first
    | assumption | refine setF_keep _ _ ?_ | refine report_keep _ _ _ _ ?_ | refine bellPulse_keep _ ?_
    | refine unmutePath_keep _ _ ?_ | refine brSend_keep _ _ _ _ _ _ ?_ | refine modTw_keep _ _ ?_ | refine setTwin_keep _ ?_
    | refine KeepNext.next ?_ | extract_lets | refine Keep.ite ?_ ?_ | refine KeepNext.ite ?_ ?_ | split
    | refine keep_mk ((keep_iff _ _).1 ?_))

theorem execTwinRejoinLate_keep {s0 : State} (n : Fin 512) {s : State} (h0 : Keep s0 s) :
    KeepNext s0 (execTwinRejoinLate n s) := by
  unfold execTwinRejoinLate
  repeat' (with_reducible first
    | assumption | refine report_keep _ _ _ _ ?_ | refine bellPulse_keep _ ?_ | refine rejoinChan_keep _ ?_
    | refine KeepNext.next ?_ | extract_lets | refine KeepNext.ite ?_ ?_)

end Sys2Proof.Machine
end

