-- ==== Sys2Proof/Laws/KeepFabLink.lean ====
section
/-!
SUPPORT. `Keep` for what Machine/FabLink.lean defines.
-/

namespace Sys2Proof.Machine

theorem giveConfig_keep {s0 : State} (d : Nat) {s : State} (h0 : Keep s0 s) :
    Keep s0 (giveConfig d s) := by
  unfold giveConfig
  repeat' (with_reducible first | assumption | refine fabSend_keep _ _ _ _ _ _ ?_ | refine Keep.foldl ?_ (fun _ _ _ => ?_))

theorem takePiece_keep {s0 : State} (x : FabMsg) {s : State} (h0 : Keep s0 s) :
    Keep s0 (takePiece x s) := by
  unfold takePiece
  repeat' (with_reducible first | assumption | extract_lets | refine Keep.ite ?_ ?_ | refine keep_mk ((keep_iff _ _).1 ?_))

theorem sentEnd_keep {s0 : State} {s : State} (h0 : Keep s0 s) :
    Keep s0 (sentEnd s) := by
  unfold sentEnd
  repeat' (with_reducible first
    | assumption | refine cfgEnd_keep _ _ _ ?_ | extract_lets | refine Keep.foldl ?_ (fun _ _ _ => ?_)
    | refine keep_mk ((keep_iff _ _).1 ?_))

theorem takeResult_keep {s0 : State} (b : List Byte) {s : State} (h0 : Keep s0 s) :
    Keep s0 (takeResult b s) := by
  unfold takeResult
  repeat' (with_reducible first
    | assumption | refine mbDone_keep _ _ _ ?_ | refine sentEnd_keep ?_ | extract_lets | refine Keep.ite ?_ ?_
    | refine keep_mk ((keep_iff _ _).1 ?_))

theorem inqPut_keep {s0 : State} (x : FabMsg) {s : State} (h0 : Keep s0 s) :
    Keep s0 (inqPut x s) := by
  unfold inqPut
  repeat' (with_reducible first
    | assumption | refine giveConfig_keep _ ?_ | refine takePiece_keep _ ?_ | refine takeResult_keep _ ?_ | extract_lets
    | refine Keep.ite ?_ ?_ | refine keep_mk ((keep_iff _ _).1 ?_))

theorem bondTake_keep {s0 : State} (n : Nat) (r : List Byte) {s : State} (h0 : Keep s0 s) :
    Keep s0 (bondTake n r s) := by
  unfold bondTake
  repeat' (with_reducible first | assumption | extract_lets | refine Keep.ite ?_ ?_ | refine keep_mk ((keep_iff _ _).1 ?_))

theorem takeHop_keep {s0 : State} (x : FabMsg) {s : State} (h0 : Keep s0 s) :
    Keep s0 (takeHop x s) := by
  unfold takeHop
  repeat' (with_reducible first
    | assumption | refine inqPut_keep _ ?_ | refine bondTake_keep _ _ ?_ | extract_lets | refine Keep.ite ?_ ?_ | split)

theorem eenDeliver_keep {s0 : State} (src vc : Nat) {s : State} (h0 : Keep s0 s) :
    Keep s0 (eenDeliver src vc s) := by
  unfold eenDeliver
  repeat' (with_reducible first
    | assumption | refine inqPut_keep _ ?_ | extract_lets | refine Keep.foldl ?_ (fun _ _ _ => ?_)
    | refine keep_mk ((keep_iff _ _).1 ?_))

theorem takeRouted_keep {s0 : State} (x : FabMsg) {s : State} (h0 : Keep s0 s) :
    Keep s0 (takeRouted x s) := by
  unfold takeRouted
  repeat' (with_reducible first
    | assumption | refine eenDeliver_keep _ _ ?_ | extract_lets | refine Keep.ite ?_ ?_ | refine keep_mk ((keep_iff _ _).1 ?_))

theorem fabArrive_keep {s0 : State} (z : Nat) (m : List Byte) {s : State} (h0 : Keep s0 s) :
    Keep s0 (fabArrive z m s) := by
  unfold fabArrive
  repeat' (with_reducible first
    | assumption | refine cntSat_keep _ _ ?_ | refine zSend_keep _ _ _ ?_ | refine fabEvt_keep _ _ _ ?_
    | refine fabCast_keep _ _ ?_ | refine inqPut_keep _ ?_ | refine takeHop_keep _ ?_ | refine takeRouted_keep _ ?_
    | extract_lets | refine Keep.ite ?_ ?_ | split)

theorem flitAcks_keep {s0 : State} (z : Nat) (f : List Byte) {s : State} (h0 : Keep s0 s) :
    Keep s0 (flitAcks z f s) := by
  unfold flitAcks
  repeat' (with_reducible first | assumption | refine modZp_keep _ _ ?_)

theorem flitDrop_keep {s0 : State} (z : Nat) {s : State} (h0 : Keep s0 s) :
    Keep s0 (flitDrop z s) := by
  unfold flitDrop
  repeat' (with_reducible first | assumption | refine cntSat_keep _ _ ?_)

theorem sendNak_keep {s0 : State} (z : Nat) {s : State} (h0 : Keep s0 s) :
    Keep s0 (sendNak z s) := by
  unfold sendNak
  repeat' (with_reducible first
    | assumption | refine modZp_keep _ _ ?_ | refine linkCtl_keep _ _ _ ?_ | extract_lets | refine Keep.ite ?_ ?_)

theorem flitJoin_keep {s0 : State} (z kind vc : Nat) (payload : List Byte) {s : State} (h0 : Keep s0 s) :
    Keep s0 (flitJoin z kind vc payload s) := by
  unfold flitJoin
  repeat' (with_reducible first
    | assumption | refine modZp_keep _ _ ?_ | refine flitOut_keep _ _ _ _ _ ?_ | refine fabArrive_keep _ _ ?_ | extract_lets
    | refine Keep.ite ?_ ?_)

theorem execFabFlitRx_keep {s0 : State} (z : Fin 8) (f : List Byte) {s : State} (h0 : Keep s0 s) :
    KeepNext s0 (execFabFlitRx z f s) := by
  unfold execFabFlitRx
  repeat' (with_reducible first
    | assumption | refine pump_keep _ ?_ | refine flitAcks_keep _ _ ?_ | refine flitDrop_keep _ ?_ | refine sendNak_keep _ ?_
    | refine flitJoin_keep _ _ _ _ ?_ | refine KeepNext.next ?_ | extract_lets | refine KeepNext.ite ?_ ?_)

theorem execFabInitRx_keep {s0 : State} (z : Fin 8) (serial : DWord) (dev : Fin 1024) (port : Fin 8) {s : State} (h0 : Keep s0 s) :
    KeepNext s0 (execFabInitRx z serial dev port s) := by
  unfold execFabInitRx
  repeat' (with_reducible first
    | assumption | refine setF_keep _ _ ?_ | refine modZp_keep _ _ ?_ | refine fabEvt_keep _ _ _ ?_ | refine KeepNext.next ?_
    | extract_lets | refine Keep.ite ?_ ?_ | refine KeepNext.ite ?_ ?_)

theorem replayAll_keep {s0 : State} (z : Nat) {s : State} (h0 : Keep s0 s) :
    Keep s0 (replayAll z s) := by
  unfold replayAll
  repeat' (with_reducible first
    | assumption | refine cntSat_keep _ _ ?_ | refine modZp_keep _ _ ?_ | refine flitOut_keep _ _ _ _ _ ?_
    | refine portDown_keep _ ?_ | extract_lets | refine Keep.ite ?_ ?_ | refine Keep.foldl ?_ (fun _ _ _ => ?_))

theorem execFabNakRx_keep {s0 : State} (z : Fin 8) (seq : Fin 4096) {s : State} (h0 : Keep s0 s) :
    KeepNext s0 (execFabNakRx z seq s) := by
  unfold execFabNakRx
  repeat' (with_reducible first
    | assumption | refine modZp_keep _ _ ?_ | refine replayAll_keep _ ?_ | refine KeepNext.next ?_ | extract_lets
    | refine KeepNext.ite ?_ ?_ | split | refine keep_mk ((keep_iff _ _).1 ?_))

theorem execFabReplayTimeout_keep {s0 : State} (z : Fin 8) {s : State} (h0 : Keep s0 s) :
    KeepNext s0 (execFabReplayTimeout z s) := by
  unfold execFabReplayTimeout
  repeat' (with_reducible first
    | assumption | refine replayAll_keep _ ?_ | refine KeepNext.next ?_ | extract_lets | refine KeepNext.ite ?_ ?_)

theorem execFabTsync_keep {s0 : State} (z : Fin 8) (t1 t2 t3 t4 : Nat) {s : State} (h0 : Keep s0 s) :
    KeepNext s0 (execFabTsync z t1 t2 t3 t4 s) := by
  unfold execFabTsync
  repeat' (with_reducible first
    | assumption | refine setF_keep _ _ ?_ | refine modZp_keep _ _ ?_ | refine linkCtl_keep _ _ _ ?_ | refine KeepNext.next ?_
    | extract_lets | refine KeepNext.ite ?_ ?_)

theorem execFabE2eGap_keep {s0 : State} (src : Fin 1024) (vc : Fin 4) {s : State} (h0 : Keep s0 s) :
    KeepNext s0 (execFabE2eGap src vc s) := by
  unfold execFabE2eGap
  repeat' (with_reducible first
    | assumption | refine fabEvt_keep _ _ _ ?_ | refine eenDeliver_keep _ _ ?_ | refine KeepNext.next ?_ | extract_lets
    | refine KeepNext.ite ?_ ?_ | refine keep_mk ((keep_iff _ _).1 ?_))

end Sys2Proof.Machine
end

