-- ==== Sys2Proof/Laws/KeepFabric.lean ====
section
/-!
SUPPORT. `Keep` for what Machine/Fabric.lean defines.
-/

namespace Sys2Proof.Machine

theorem fabTake_keep {s0 : State} (typ : Nat) (ok : FabMsg → Bool) {s : State} (k : FabMsg → State → State) (hk : ∀ (y0 : FabMsg) (x : State), Keep s0 x → Keep s0 (k y0 x)) (h0 : Keep s0 s) :
    Keep s0 (fabTake typ ok s k) := by
  unfold fabTake
  repeat' (with_reducible first
    | assumption | refine hk _ _ ?_ | extract_lets | refine Keep.ite ?_ ?_ | split | refine keep_mk ((keep_iff _ _).1 ?_))

theorem posSpread_keep {s0 : State} (skip : Option Nat) (body : List Byte) {s : State} (h0 : Keep s0 s) :
    Keep s0 (posSpread skip body s) := by
  unfold posSpread
  repeat' (with_reducible first | assumption | refine fabHop_keep _ _ _ _ ?_ | refine Keep.foldl ?_ (fun _ _ _ => ?_))

theorem execFabPositionSend_keep {s0 : State} {s : State} (h0 : Keep s0 s) :
    KeepNext s0 (execFabPositionSend s) := by
  unfold execFabPositionSend
  repeat' (with_reducible first
    | assumption | refine fabHop_keep _ _ _ _ ?_ | refine posSpread_keep _ _ ?_ | refine KeepNext.next ?_ | extract_lets
    | refine Keep.ite ?_ ?_ | split)

theorem execFabPositionRx_keep {s0 : State} (residence : Nat) {s : State} (h0 : Keep s0 s) :
    KeepNext s0 (execFabPositionRx residence s) := by
  unfold execFabPositionRx
  repeat' (with_reducible first
    | assumption | refine setF_keep _ _ ?_ | refine modPos_keep _ ?_ | refine fabTake_keep _ _ _ ?_ ?_
    | refine posSpread_keep _ _ ?_ | intro _ | refine KeepNext.next ?_ | extract_lets | refine Keep.ite ?_ ?_)

theorem routeSet_keep {s0 : State} (d : Nat) {s : State} (h0 : Keep s0 s) :
    Keep s0 (routeSet d s) := by
  unfold routeSet
  repeat' (with_reducible first
    | assumption | refine wr_keep _ _ ?_ | extract_lets | refine Keep.ite ?_ ?_ | refine keep_mk ((keep_iff _ _).1 ?_))

theorem execFabRouteUpdate_keep {s0 : State} (d : Fin 1024) {s : State} (h0 : Keep s0 s) :
    KeepNext s0 (execFabRouteUpdate d s) := by
  unfold execFabRouteUpdate
  repeat' (with_reducible first | assumption | refine routeSet_keep _ ?_ | refine KeepNext.next ?_)

theorem showTree_keep {s0 : State} {s : State} (h0 : Keep s0 s) :
    Keep s0 (showTree s) := by
  unfold showTree
  repeat' (with_reducible first
    | assumption | refine setF_keep _ _ ?_ | refine modZp_keep _ _ ?_ | extract_lets | refine Keep.foldl ?_ (fun _ _ _ => ?_))

theorem candShow_keep {s0 : State} (n : Nat) {s : State} (h0 : Keep s0 s) :
    Keep s0 (candShow n s) := by
  unfold candShow
  repeat' (with_reducible first | assumption | refine setF_keep _ _ ?_ | split)

theorem takeId_keep {s0 : State} (d src : Nat) {s : State} (h0 : Keep s0 s) :
    Keep s0 (takeId d src s) := by
  unfold takeId
  repeat' (with_reducible first
    | assumption | refine setF_keep _ _ ?_ | refine candShow_keep _ ?_ | extract_lets | refine Keep.foldl ?_ (fun _ _ _ => ?_))

theorem membersShow_keep {s0 : State} {s : State} (h0 : Keep s0 s) :
    Keep s0 (membersShow s) := by
  unfold membersShow
  repeat' (with_reducible first
    | assumption | refine setF_keep _ _ ?_ | refine fabEvt_keep _ _ _ ?_ | extract_lets | refine Keep.ite ?_ ?_)

theorem enterClash_keep {s0 : State} {s : State} (h0 : Keep s0 s) :
    Keep s0 (enterClash s) := by
  unfold enterClash
  repeat' (with_reducible first
    | assumption | refine setF_keep _ _ ?_ | refine fabEvt_keep _ _ _ ?_ | refine leaseDrop_keep _ ?_ | extract_lets
    | refine Keep.ite ?_ ?_ | refine Keep.foldl ?_ (fun _ _ _ => ?_))

theorem mapFlood_keep {s0 : State} (skip : Option Nat) (body : List Byte) {s : State} (h0 : Keep s0 s) :
    Keep s0 (mapFlood skip body s) := by
  unfold mapFlood
  repeat' (with_reducible first | assumption | refine fabHop_keep _ _ _ _ ?_ | refine Keep.foldl ?_ (fun _ _ _ => ?_))

theorem mapInstall_keep {s0 : State} (no : Nat) (m : List MapNode) {s : State} (h0 : Keep s0 s) :
    Keep s0 (mapInstall no m s) := by
  unfold mapInstall
  repeat' (with_reducible first
    | assumption | refine setF_keep _ _ ?_ | refine routeSet_keep _ ?_ | refine showTree_keep ?_ | refine takeId_keep _ _ ?_
    | refine enterClash_keep ?_ | extract_lets | refine Keep.ite ?_ ?_ | refine Keep.foldl ?_ (fun _ _ _ => ?_) | split
    | refine keep_mk ((keep_iff _ _).1 ?_))

theorem setMaster_keep {s0 : State} (pri serial dev : Nat) {s : State} (h0 : Keep s0 s) :
    Keep s0 (setMaster pri serial dev s) := by
  unfold setMaster
  repeat' (with_reducible first
    | assumption | refine setF_keep _ _ ?_ | refine fabEvt_keep _ _ _ ?_ | extract_lets | refine Keep.ite ?_ ?_
    | refine keep_mk ((keep_iff _ _).1 ?_))

theorem discoverSend_keep {s0 : State} (path : List Nat) {s : State} (h0 : Keep s0 s) :
    Keep s0 (discoverSend path s) := by
  unfold discoverSend
  repeat' (with_reducible first
    | assumption | refine zSend_keep _ _ _ ?_ | extract_lets | refine Keep.ite ?_ ?_ | split
    | refine keep_mk ((keep_iff _ _).1 ?_))

theorem mapDone_keep {s0 : State} {s : State} (h0 : Keep s0 s) :
    Keep s0 (mapDone s) := by
  unfold mapDone
  repeat' (with_reducible first
    | assumption | refine mapFlood_keep _ _ ?_ | refine mapInstall_keep _ _ ?_ | extract_lets
    | refine keep_mk ((keep_iff _ _).1 ?_))

theorem mapStart_keep {s0 : State} {s : State} (h0 : Keep s0 s) :
    Keep s0 (mapStart s) := by
  unfold mapStart
  repeat' (with_reducible first
    | assumption | refine discoverSend_keep _ ?_ | refine mapDone_keep ?_ | extract_lets | refine Keep.ite ?_ ?_
    | refine Keep.foldl ?_ (fun _ _ _ => ?_) | refine keep_mk ((keep_iff _ _).1 ?_))

theorem execFabDiscoverRx_keep {s0 : State} {s : State} (h0 : Keep s0 s) :
    KeepNext s0 (execFabDiscoverRx s) := by
  unfold execFabDiscoverRx
  repeat' (with_reducible first
    | assumption | refine zSend_keep _ _ _ ?_ | refine fabTake_keep _ _ _ ?_ ?_ | intro _ | refine KeepNext.next ?_
    | extract_lets | refine Keep.ite ?_ ?_ | refine keep_mk ((keep_iff _ _).1 ?_))

theorem execFabDiscoverReplyRx_keep {s0 : State} {s : State} (h0 : Keep s0 s) :
    KeepNext s0 (execFabDiscoverReplyRx s) := by
  unfold execFabDiscoverReplyRx
  repeat' (with_reducible first
    | assumption | refine zSend_keep _ _ _ ?_ | refine fabTake_keep _ _ _ ?_ ?_ | refine discoverSend_keep _ ?_
    | refine mapDone_keep ?_ | intro _ | refine KeepNext.next ?_ | extract_lets | refine Keep.ite ?_ ?_
    | refine Keep.foldl ?_ (fun _ _ _ => ?_) | split | refine keep_mk ((keep_iff _ _).1 ?_))

theorem execFabMapRx_keep {s0 : State} {s : State} (h0 : Keep s0 s) :
    KeepNext s0 (execFabMapRx s) := by
  unfold execFabMapRx
  repeat' (with_reducible first
    | assumption | refine fabTake_keep _ _ _ ?_ ?_ | refine mapFlood_keep _ _ ?_ | refine mapInstall_keep _ _ ?_
    | refine setMaster_keep _ _ _ ?_ | intro _ | refine KeepNext.next ?_ | extract_lets | refine Keep.ite ?_ ?_)

theorem agreeShow_keep {s0 : State} {s : State} (h0 : Keep s0 s) :
    Keep s0 (agreeShow s) := by
  unfold agreeShow
  repeat' (with_reducible first
    | assumption | refine setF_keep _ _ ?_ | refine fabEvt_keep _ _ _ ?_ | extract_lets | refine Keep.ite ?_ ?_)

theorem execFabHeartbeatSend_keep {s0 : State} (arb : Bool) {s : State} (h0 : Keep s0 s) :
    KeepNext s0 (execFabHeartbeatSend arb s) := by
  unfold execFabHeartbeatSend
  repeat' (with_reducible first
    | assumption | refine setF_keep _ _ ?_ | refine fabCast_keep _ _ ?_ | refine agreeShow_keep ?_ | refine KeepNext.next ?_
    | extract_lets | refine KeepNext.ite ?_ ?_)

theorem chooseMaster_keep {s0 : State} {s : State} (h0 : Keep s0 s) :
    Keep s0 (chooseMaster s) := by
  unfold chooseMaster
  repeat' (with_reducible first
    | assumption | refine setF_keep _ _ ?_ | refine fabEvt_keep _ _ _ ?_ | refine setMaster_keep _ _ _ ?_
    | refine mapStart_keep ?_ | extract_lets | refine Keep.ite ?_ ?_ | split | refine keep_mk ((keep_iff _ _).1 ?_))

theorem pullFrom_keep {s0 : State} (d : Nat) {s : State} (h0 : Keep s0 s) :
    Keep s0 (pullFrom d s) := by
  unfold pullFrom
  repeat' (with_reducible first | assumption | refine fabSend_keep _ _ _ _ _ _ ?_)

theorem hbConfig_keep {s0 : State} (d gen : Nat) (digest : List Byte) {s : State} (h0 : Keep s0 s) :
    Keep s0 (hbConfig d gen digest s) := by
  unfold hbConfig
  repeat' (with_reducible first
    | assumption | refine setF_keep _ _ ?_ | refine fabLine_keep _ ?_ | refine report32_keep _ _ _ _ _ ?_
    | refine pullFrom_keep _ ?_ | extract_lets | refine Keep.ite ?_ ?_)

theorem hbPaths_keep {s0 : State} (d : Nat) (paths : List Nat) {s : State} (h0 : Keep s0 s) :
    Keep s0 (hbPaths d paths s) := by
  unfold hbPaths
  repeat' (with_reducible first
    | assumption | refine setF_keep _ _ ?_ | refine mutePath_keep _ _ ?_ | refine fabEvt_keep _ _ _ ?_
    | refine leaseRelease_keep _ ?_ | extract_lets | refine Keep.ite ?_ ?_ | refine Keep.foldl ?_ (fun _ _ _ => ?_)
    | refine keep_mk ((keep_iff _ _).1 ?_))

theorem execFabHeartbeatRx_keep {s0 : State} {s : State} (h0 : Keep s0 s) :
    KeepNext s0 (execFabHeartbeatRx s) := by
  unfold execFabHeartbeatRx
  repeat' (with_reducible first
    | assumption | refine fabTake_keep _ _ _ ?_ ?_ | refine membersShow_keep ?_ | refine enterClash_keep ?_
    | refine setMaster_keep _ _ _ ?_ | refine mapStart_keep ?_ | refine agreeShow_keep ?_ | refine chooseMaster_keep ?_
    | refine hbConfig_keep _ _ _ ?_ | refine hbPaths_keep _ _ ?_ | intro _ | refine KeepNext.next ?_ | extract_lets
    | refine Keep.ite ?_ ?_ | split | refine keep_mk ((keep_iff _ _).1 ?_))

theorem execFabMemberAbsent_keep {s0 : State} (d : Fin 1024) {s : State} (h0 : Keep s0 s) :
    KeepNext s0 (execFabMemberAbsent d s) := by
  unfold execFabMemberAbsent
  repeat' (with_reducible first
    | assumption | refine setF_keep _ _ ?_ | refine membersShow_keep ?_ | refine agreeShow_keep ?_ | refine chooseMaster_keep ?_
    | refine KeepNext.next ?_ | extract_lets | refine Keep.ite ?_ ?_ | refine KeepNext.ite ?_ ?_
    | refine Keep.foldl ?_ (fun _ _ _ => ?_) | split | refine keep_mk ((keep_iff _ _).1 ?_))

theorem grantPaths_keep {s0 : State} (d : Nat) (paths : List Nat) {s : State} (h0 : Keep s0 s) :
    Keep s0 (grantPaths d paths s).2 := by
  unfold grantPaths
  repeat' (with_reducible first
    | assumption | extract_lets | refine Keep.foldl ?_ (fun _ _ _ => ?_) | refine keep_mk ((keep_iff _ _).1 ?_))

theorem leaseHold_keep {s0 : State} (n t0 : Nat) {s : State} (h0 : Keep s0 s) :
    Keep s0 (leaseHold n t0 s) := by
  unfold leaseHold
  repeat' (with_reducible first
    | assumption | refine setF_keep _ _ ?_ | refine modChan_keep _ _ ?_ | refine unmutePath_keep _ _ ?_
    | refine fabEvt_keep _ _ _ ?_ | refine startExchange_keep _ ?_ | extract_lets | refine Keep.ite ?_ ?_
    | refine keep_mk ((keep_iff _ _).1 ?_))

theorem leaseJudge_keep {s0 : State} {s : State} (h0 : Keep s0 s) :
    Keep s0 (leaseJudge s) := by
  unfold leaseJudge
  repeat' (with_reducible first
    | assumption | refine leaseHold_keep _ _ ?_ | extract_lets | refine Keep.ite ?_ ?_ | refine Keep.foldl ?_ (fun _ _ _ => ?_))

theorem execLeaseRequestSend_keep {s0 : State} {s : State} (h0 : Keep s0 s) : KeepNext s0 (execLeaseRequestSend s) := by
  unfold execLeaseRequestSend
  extract_lets paths no own s1 r f s2 s3
  split
  · exact h0
  · have hg : Keep s0 own.2 := by
      unfold own; split
      · exact grantPaths_keep _ _ h0
      · exact h0
    clear_value own
    have h2 : Keep s0 s2 := keep_mk ((keep_iff _ _).1 hg)
    clear_value s2
    exact KeepNext.next (leaseJudge_keep (Keep.foldl h2 (fun u a h => fabSend_keep _ _ _ _ _ _ h)))

theorem leaseTake_keep {s0 : State} (sub : Nat) {s : State} (k : FabMsg → State → State) (hk : ∀ (y0 : FabMsg) (x : State), Keep s0 x → Keep s0 (k y0 x)) (h0 : Keep s0 s) :
    Keep s0 (leaseTake sub s k) := by
  unfold leaseTake
  repeat' (with_reducible first | assumption | refine fabTake_keep _ _ _ ?_ ?_)

theorem execLeaseRequestRx_keep {s0 : State} {s : State} (h0 : Keep s0 s) : KeepNext s0 (execLeaseRequestRx s) := by
  unfold execLeaseRequestRx
  refine KeepNext.next (leaseTake_keep _ _ (fun m x hx => ?_) h0)
  extract_lets paths g no deny s1 s2
  have hg : Keep s0 g.2 := by
    unfold g; split
    · exact grantPaths_keep _ _ hx
    · exact hx
  clear_value g
  have h2 : Keep s0 s2 := by
    unfold s2; split
    · exact hg
    · exact fabSend_keep _ _ _ _ _ _ hg
  clear_value s2
  split
  · exact h2
  · exact fabSend_keep _ _ _ _ _ _ h2

theorem execLeaseGrantRx_keep {s0 : State} {s : State} (h0 : Keep s0 s) :
    KeepNext s0 (execLeaseGrantRx s) := by
  unfold execLeaseGrantRx
  repeat' (with_reducible first
    | assumption | refine leaseJudge_keep ?_ | refine leaseTake_keep _ _ ?_ ?_ | intro _ | refine KeepNext.next ?_
    | extract_lets | refine keep_mk ((keep_iff _ _).1 ?_))

theorem execLeaseDenyRx_keep {s0 : State} {s : State} (h0 : Keep s0 s) :
    KeepNext s0 (execLeaseDenyRx s) := by
  unfold execLeaseDenyRx
  repeat' (with_reducible first | assumption | refine leaseTake_keep _ _ ?_ ?_ | intro _ | refine KeepNext.next ?_)

theorem execLeaseReleaseRx_keep {s0 : State} {s : State} (h0 : Keep s0 s) :
    KeepNext s0 (execLeaseReleaseRx s) := by
  unfold execLeaseReleaseRx
  repeat' (with_reducible first
    | assumption | refine leaseTake_keep _ _ ?_ ?_ | intro _ | refine KeepNext.next ?_ | extract_lets
    | refine Keep.foldl ?_ (fun _ _ _ => ?_) | refine keep_mk ((keep_iff _ _).1 ?_))

theorem execLeaseExpiry_keep {s0 : State} (n : Fin 512) {s : State} (h0 : Keep s0 s) :
    KeepNext s0 (execLeaseExpiry n s) := by
  unfold execLeaseExpiry
  repeat' (with_reducible first
    | assumption | refine setF_keep _ _ ?_ | refine fabEvt_keep _ _ _ ?_ | refine dropSpare_keep _ ?_ | refine modBr_keep _ _ ?_
    | refine leaseDrop_keep _ ?_ | refine KeepNext.next ?_ | extract_lets | refine KeepNext.ite ?_ ?_)

theorem execPromiseExpiry_keep {s0 : State} (n : Fin 512) {s : State} (h0 : Keep s0 s) :
    KeepNext s0 (execPromiseExpiry n s) := by
  unfold execPromiseExpiry
  repeat' (with_reducible first
    | assumption | refine KeepNext.next ?_ | extract_lets | refine KeepNext.ite ?_ ?_ | split
    | refine keep_mk ((keep_iff _ _).1 ?_))

theorem execVoterChangeEnd_keep {s0 : State} {s : State} (h0 : Keep s0 s) :
    KeepNext s0 (execVoterChangeEnd s) := by
  unfold execVoterChangeEnd
  repeat' (with_reducible first
    | assumption | refine agreeShow_keep ?_ | refine KeepNext.next ?_ | extract_lets | refine KeepNext.ite ?_ ?_ | split
    | refine keep_mk ((keep_iff _ _).1 ?_))

theorem execForwardRx_keep {s0 : State} {s : State} (h0 : Keep s0 s) :
    KeepNext s0 (execForwardRx s) := by
  unfold execForwardRx
  repeat' (with_reducible first
    | assumption | refine cnt_keep _ _ ?_ | refine emit_keep _ ?_ | refine refuse_keep _ _ ?_ | refine admitUnit_keep _ _ _ _ ?_
    | refine fabTake_keep _ _ _ ?_ ?_ | intro _ | refine KeepNext.next ?_ | extract_lets | refine Keep.ite ?_ ?_)

theorem execFabDoorbellRx_keep {s0 : State} {s : State} (h0 : Keep s0 s) :
    KeepNext s0 (execFabDoorbellRx s) := by
  unfold execFabDoorbellRx
  repeat' (with_reducible first
    | assumption | refine bellRing_keep _ ?_ | refine fabSend_keep _ _ _ _ _ _ ?_ | refine fabTake_keep _ _ _ ?_ ?_ | intro _
    | refine KeepNext.next ?_ | extract_lets | split)

theorem portLostAfter_keep {s0 : State} (k : Nat) (sync : Bool) {s : State} (h0 : Keep s0 s) :
    Keep s0 (portLostAfter k sync s) := by
  unfold portLostAfter
  repeat' (with_reducible first
    | assumption | refine partnersLost_keep _ ?_ | refine cellPathsLost_keep _ ?_ | extract_lets | refine Keep.ite ?_ ?_)

theorem execPortLos_keep {s0 : State} (k : Fin 72) (cut : Option Nat) {s : State} (h0 : Keep s0 s) :
    KeepNext s0 (execPortLos k cut s) := by
  unfold execPortLos
  repeat' (with_reducible first
    | assumption | refine portLos_keep _ _ ?_ | refine portLostAfter_keep _ _ ?_ | refine KeepNext.next ?_)

theorem execPortLockLost_keep {s0 : State} (k : Fin 72) (cut : Option Nat) {s : State} (h0 : Keep s0 s) :
    KeepNext s0 (execPortLockLost k cut s) := by
  unfold execPortLockLost
  repeat' (with_reducible first
    | assumption | refine portLockLost_keep _ _ ?_ | refine portLostAfter_keep _ _ ?_ | refine KeepNext.next ?_ | extract_lets
    | refine Keep.ite ?_ ?_)

end Sys2Proof.Machine
end

