-- ==== Sys2Proof/Laws/KeepYfiLinks.lean ====
section
/-!
SUPPORT. `Keep` for what Machine/YfiLinks.lean defines.
-/

namespace Sys2Proof.Machine

theorem bridleConfigApply_keep {s0 : State} (a : List Byte) {s : State} (h0 : Keep s0 s) :
    Keep s0 (bridleConfigApply a s) := by
  unfold bridleConfigApply
  repeat' (with_reducible first | assumption | refine setF_keep _ _ ?_)

theorem bridleConfigCmd_keep {s0 : State} (a : List Byte) {s : State} (h0 : Keep s0 s) : Keep s0 (bridleConfigCmd.apply a s) := by
  simp only [bridleConfigCmd, cfgPlain]
  repeat' (with_reducible first | assumption | refine bridleConfigApply_keep _ ?_)

theorem execBridleConfig_keep {s0 : State} (m : Fin 16) (loftOk : Bool) {s : State} (h0 : Keep s0 s) :
    KeepNext s0 (execBridleConfig m loftOk s) := by
  unfold execBridleConfig
  repeat' (with_reducible first
    | assumption | refine cfgRun_keep _ ?_ _ _ ?_ | exact fun a _ h => bridleConfigCmd_keep a h | refine KeepNext.next ?_)

theorem bridleSend_keep {s0 : State} (a : List Byte) {s : State} (h0 : Keep s0 s) :
    Keep s0 (bridleSend a s).2.2 := by
  unfold bridleSend
  repeat' (with_reducible first
    | assumption | refine brSend_keep _ _ _ _ _ _ ?_ | refine yfiFail_keep _ ?_ | extract_lets | split)

theorem execBridleSend_keep {s0 : State} (m : Fin 16) {s : State} (h0 : Keep s0 s) :
    KeepNext s0 (execBridleSend m s) := by
  unfold execBridleSend
  repeat' (with_reducible first
    | assumption | refine yfiRun_keep _ _ _ ?_ ?_ | refine bridleSend_keep _ ?_ | intro _ | refine KeepNext.next ?_)

theorem twinRebind_keep {s0 : State} {s : State} (h0 : Keep s0 s) :
    Keep s0 (twinRebind s) := by
  unfold twinRebind
  repeat' (with_reducible first | assumption | refine setTwin_keep _ ?_ | extract_lets | refine keep_mk ((keep_iff _ _).1 ?_))

theorem twinBindApply_keep {s0 : State} (a : List Byte) {s : State} (h0 : Keep s0 s) :
    Keep s0 (twinBindApply a s) := by
  unfold twinBindApply
  repeat' (with_reducible first | assumption | refine setF_keep _ _ ?_ | refine holdFit_keep ?_ | refine twinRebind_keep ?_)

theorem twinBindCmd_keep {s0 : State} (a : List Byte) {s : State} (h0 : Keep s0 s) : Keep s0 (twinBindCmd.apply a s) := by
  simp only [twinBindCmd, cfgPlain]
  repeat' (with_reducible first | assumption | refine twinBindApply_keep _ ?_)

theorem execTwinBind_keep {s0 : State} (m : Fin 16) (loftOk : Bool) {s : State} (h0 : Keep s0 s) :
    KeepNext s0 (execTwinBind m loftOk s) := by
  unfold execTwinBind
  repeat' (with_reducible first
    | assumption | refine cfgRun_keep _ ?_ _ _ ?_ | exact fun a _ h => twinBindCmd_keep a h | refine KeepNext.next ?_)

theorem leaseShow_keep {s0 : State} (n : Nat) {s : State} (h0 : Keep s0 s) :
    Keep s0 (leaseShow n s) := by
  unfold leaseShow
  repeat' (with_reducible first | assumption | refine setF_keep _ _ ?_ | refine Keep.ite ?_ ?_)

theorem leasesShow_keep {s0 : State} {s : State} (h0 : Keep s0 s) :
    Keep s0 (leasesShow s) := by
  unfold leasesShow
  repeat' (with_reducible first | assumption | refine leaseShow_keep _ ?_ | refine Keep.foldl ?_ (fun _ _ _ => ?_))

theorem votersTo_keep {s0 : State} (v : List Nat) (b : Beat) {s : State} (h0 : Keep s0 s) :
    Keep s0 (votersTo v b s) := by
  unfold votersTo
  repeat' (with_reducible first | assumption | extract_lets | refine Keep.ite ?_ ?_ | refine keep_mk ((keep_iff _ _).1 ?_))

theorem fabEnter_keep {s0 : State} {s : State} (h0 : Keep s0 s) :
    Keep s0 (fabEnter s) := by
  unfold fabEnter
  repeat' (with_reducible first
    | assumption | refine setF_keep _ _ ?_ | refine takeId_keep _ _ ?_ | refine agreeShow_keep ?_ | refine chooseMaster_keep ?_
    | refine leasesShow_keep ?_ | extract_lets | refine Keep.ite ?_ ?_)

theorem fabLeave_keep {s0 : State} {s : State} (h0 : Keep s0 s) :
    Keep s0 (fabLeave s) := by
  unfold fabLeave
  repeat' (with_reducible first
    | assumption | refine wr_keep _ _ ?_ | refine setF_keep _ _ ?_ | refine leaseDrop_keep _ ?_ | refine leasesShow_keep ?_
    | extract_lets | refine Keep.ite ?_ ?_ | refine Keep.foldl ?_ (fun _ _ _ => ?_) | refine keep_mk ((keep_iff _ _).1 ?_))

theorem fabConfigApply_keep {s0 : State} (a : List Byte) {s : State} (h0 : Keep s0 s) :
    Keep s0 (fabConfigApply a s) := by
  unfold fabConfigApply
  repeat' (with_reducible first
    | assumption | refine setF_keep _ _ ?_ | refine loftProgram_keep _ _ ?_ | refine agreeShow_keep ?_
    | refine chooseMaster_keep ?_ | refine votersTo_keep _ _ ?_ | refine fabEnter_keep ?_ | refine fabLeave_keep ?_
    | extract_lets | refine Keep.ite ?_ ?_)

theorem fabConfigCmd_keep {s0 : State} (a : List Byte) {s : State} (h0 : Keep s0 s) : Keep s0 (fabConfigCmd.apply a s) := by
  simp only [fabConfigCmd, cfgPlain]
  repeat' (with_reducible first | assumption | refine fabConfigApply_keep _ ?_)

theorem execFabConfig_keep {s0 : State} (m : Fin 16) (loftOk : Bool) {s : State} (h0 : Keep s0 s) :
    KeepNext s0 (execFabConfig m loftOk s) := by
  unfold execFabConfig
  repeat' (with_reducible first
    | assumption | refine cfgRun_keep _ ?_ _ _ ?_ | exact fun a _ h => fabConfigCmd_keep a h | refine KeepNext.next ?_)

theorem fabRightsApply_keep {s0 : State} (a : List Byte) {s : State} (h0 : Keep s0 s) :
    Keep s0 (fabRightsApply a s) := by
  unfold fabRightsApply
  repeat' (with_reducible first | assumption | refine setF_keep _ _ ?_)

theorem fabRightsCmd_keep {s0 : State} (a : List Byte) {s : State} (h0 : Keep s0 s) : Keep s0 (fabRightsCmd.apply a s) := by
  simp only [fabRightsCmd, cfgPlain]
  repeat' (with_reducible first | assumption | refine fabRightsApply_keep _ ?_)

theorem execFabRights_keep {s0 : State} (m : Fin 16) (loftOk : Bool) {s : State} (h0 : Keep s0 s) :
    KeepNext s0 (execFabRights m loftOk s) := by
  unfold execFabRights
  repeat' (with_reducible first
    | assumption | refine cfgRun_keep _ ?_ _ _ ?_ | exact fun a _ h => fabRightsCmd_keep a h | refine KeepNext.next ?_)

theorem fabCustodyApply_keep {s0 : State} (a : List Byte) {s : State} (h0 : Keep s0 s) :
    Keep s0 (fabCustodyApply a s) := by
  unfold fabCustodyApply
  repeat' (with_reducible first
    | assumption | refine setF_keep _ _ ?_ | refine leaseRelease_keep _ ?_ | refine candShow_keep _ ?_
    | refine leaseShow_keep _ ?_ | extract_lets | refine Keep.ite ?_ ?_)

theorem fabCustodyCmd_keep {s0 : State} (a : List Byte) {s : State} (h0 : Keep s0 s) : Keep s0 (fabCustodyCmd.apply a s) := by
  simp only [fabCustodyCmd, cfgPlain]
  repeat' (with_reducible first | assumption | refine fabCustodyApply_keep _ ?_)

theorem execFabCustody_keep {s0 : State} (m : Fin 16) (loftOk : Bool) {s : State} (h0 : Keep s0 s) :
    KeepNext s0 (execFabCustody m loftOk s) := by
  unfold execFabCustody
  repeat' (with_reducible first
    | assumption | refine cfgRun_keep _ ?_ _ _ ?_ | exact fun a _ h => fabCustodyCmd_keep a h | refine KeepNext.next ?_)

theorem fabForwardApply_keep {s0 : State} (a : List Byte) {s : State} (h0 : Keep s0 s) :
    Keep s0 (fabForwardApply a s) := by
  unfold fabForwardApply
  repeat' (with_reducible first | assumption | refine setF_keep _ _ ?_)

theorem fabForwardCmd_keep {s0 : State} (a : List Byte) {s : State} (h0 : Keep s0 s) : Keep s0 (fabForwardCmd.apply a s) := by
  simp only [fabForwardCmd, cfgPlain]
  repeat' (with_reducible first | assumption | refine fabForwardApply_keep _ ?_)

theorem execFabForward_keep {s0 : State} (m : Fin 16) (loftOk : Bool) {s : State} (h0 : Keep s0 s) :
    KeepNext s0 (execFabForward m loftOk s) := by
  unfold execFabForward
  repeat' (with_reducible first
    | assumption | refine cfgRun_keep _ ?_ _ _ ?_ | exact fun a _ h => fabForwardCmd_keep a h | refine KeepNext.next ?_)

end Sys2Proof.Machine
end

