-- ==== Sys2Proof/Laws/KeepYfiSupport.lean ====
section
/-!
SUPPORT. `Keep` for what Machine/YfiSupport.lean defines.
-/

namespace Sys2Proof.Machine

theorem draySplitApply_keep {s0 : State} (a : List Byte) {s : State} (h0 : Keep s0 s) :
    Keep s0 (draySplitApply a s) := by
  unfold draySplitApply
  repeat' (with_reducible first | assumption | refine setF_keep _ _ ?_ | refine Keep.foldl ?_ (fun _ _ _ => ?_))

theorem draySplitCmd_keep {s0 : State} (a : List Byte) {s : State} (h0 : Keep s0 s) : Keep s0 (draySplitCmd.apply a s) := by
  simp only [draySplitCmd, cfgPlain]
  repeat' (with_reducible first | assumption | refine draySplitApply_keep _ ?_)

theorem execDraySplit_keep {s0 : State} (m : Fin 16) (loftOk : Bool) {s : State} (h0 : Keep s0 s) :
    KeepNext s0 (execDraySplit m loftOk s) := by
  unfold execDraySplit
  repeat' (with_reducible first
    | assumption | refine cfgRun_keep _ ?_ _ _ ?_ | exact fun a _ h => draySplitCmd_keep a h | refine KeepNext.next ?_)

theorem drayLoad_keep {s0 : State} (a : List Byte) {s : State} (h0 : Keep s0 s) :
    Keep s0 (drayLoad a s).2.2 := by
  unfold drayLoad
  repeat' (with_reducible first | assumption | refine setBytes_keep _ _ ?_ | refine yfiFail_keep _ ?_ | extract_lets | split)

theorem execDrayLoad_keep {s0 : State} (m : Fin 16) {s : State} (h0 : Keep s0 s) :
    KeepNext s0 (execDrayLoad m s) := by
  unfold execDrayLoad
  repeat' (with_reducible first
    | assumption | refine yfiRun_keep _ _ _ ?_ ?_ | refine drayLoad_keep _ ?_ | intro _ | refine KeepNext.next ?_
    | refine KeepNext.ite ?_ ?_)

theorem drayControlApply_keep {s0 : State} (a : List Byte) {s : State} (h0 : Keep s0 s) :
    Keep s0 (drayControlApply a s) := by
  unfold drayControlApply
  repeat' (with_reducible first
    | assumption | refine setF_keep _ _ ?_ | refine coreStart_keep _ ?_ | refine coreStop_keep _ ?_ | extract_lets
    | refine Keep.ite ?_ ?_)

theorem drayControlCmd_keep {s0 : State} (a : List Byte) {s : State} (h0 : Keep s0 s) : Keep s0 (drayControlCmd.apply a s) := by
  simp only [drayControlCmd, cfgPlain]
  repeat' (with_reducible first | assumption | refine drayControlApply_keep _ ?_)

theorem execDrayControlStop_keep {s0 : State} (m : Fin 16) (loftOk : Bool) {s : State} (h0 : Keep s0 s) :
    KeepNext s0 (execDrayControlStop m loftOk s) := by
  unfold execDrayControlStop
  repeat' (with_reducible first
    | assumption | refine cfgRun_keep _ ?_ _ _ ?_ | exact fun a _ h => drayControlCmd_keep a h | refine KeepNext.next ?_
    | refine KeepNext.ite ?_ ?_)

theorem execDrayControlStart_keep {s0 : State} (m : Fin 16) (loftOk : Bool) {s : State} (h0 : Keep s0 s) :
    KeepNext s0 (execDrayControlStart m loftOk s) := by
  unfold execDrayControlStart
  repeat' (with_reducible first
    | assumption | refine cfgRun_keep _ ?_ _ _ ?_ | exact fun a _ h => drayControlCmd_keep a h | refine KeepNext.next ?_
    | refine KeepNext.ite ?_ ?_)

theorem memApertureCmd_keep {s0 : State} (a : List Byte) {s : State} (h0 : Keep s0 s) : Keep s0 (memApertureCmd.apply a s) := by
  simp only [memApertureCmd, cfgPlain, flagCmd]
  repeat' (with_reducible first | assumption | refine setF_keep _ _ ?_)

theorem execMemAperture_keep {s0 : State} (m : Fin 16) (loftOk : Bool) {s : State} (h0 : Keep s0 s) :
    KeepNext s0 (execMemAperture m loftOk s) := by
  unfold execMemAperture
  repeat' (with_reducible first
    | assumption | refine cfgRun_keep _ ?_ _ _ ?_ | exact fun a _ h => memApertureCmd_keep a h | refine KeepNext.next ?_)

theorem bellHostDbCmd_keep {s0 : State} (a : List Byte) {s : State} (h0 : Keep s0 s) : Keep s0 (bellHostDbCmd.apply a s) := by
  simp only [bellHostDbCmd, cfgPlain, flagCmd]
  repeat' (with_reducible first | assumption | refine keep_mk ((keep_iff _ _).1 ?_))

theorem execBellHostDb_keep {s0 : State} (m : Fin 16) (loftOk : Bool) {s : State} (h0 : Keep s0 s) :
    KeepNext s0 (execBellHostDb m loftOk s) := by
  unfold execBellHostDb
  repeat' (with_reducible first
    | assumption | refine cfgRun_keep _ ?_ _ _ ?_ | exact fun a _ h => bellHostDbCmd_keep a h | refine KeepNext.next ?_)

theorem bankMove_keep {s0 : State} (old new : Nat) {s : State} (h0 : Keep s0 s) :
    Keep s0 (bankMove old new s) := by
  unfold bankMove
  repeat' (with_reducible first
    | assumption | refine setF_keep _ _ ?_ | extract_lets | refine Keep.ite ?_ ?_ | refine Keep.foldl ?_ (fun _ _ _ => ?_))

theorem shedPrepare_keep {s0 : State} (on k : Nat) {s : State} (h0 : Keep s0 s) : Keep s0 (shedPrepare on k s) := by
  unfold shedPrepare
  extract_lets stays base
  split
  · refine Keep.foldl h0 (fun u c h => ?_)
    split
    · exact h
    · extract_lets s1 s2
      have h1 : Keep s0 s1 := setF_keep _ _ h
      clear_value s1
      have h2 : Keep s0 s2 := by
        unfold s2; split
        · exact stopNow_keep _ (setF_keep _ _ h1)
        · exact h1
      clear_value s2 stays
      cases stays with
      | some d => exact bankMove_keep _ _ h2
      | none => exact h2
  · split
    · split
      · exact bankMove_keep _ _ h0
      · exact h0
    · exact h0

theorem shedsPrepare_keep {s0 : State} (on : Nat) {s : State} (h0 : Keep s0 s) :
    Keep s0 (shedsPrepare on s) := by
  unfold shedsPrepare
  repeat' (with_reducible first | assumption | refine shedPrepare_keep _ _ ?_ | refine Keep.foldl ?_ (fun _ _ _ => ?_))

theorem shedSetCmd_keep {s0 : State} (a : List Byte) {s : State} (h0 : Keep s0 s) : Keep s0 (shedSetCmd.apply a s) := by
  simp only [shedSetCmd, cfgPlain]
  repeat' (with_reducible first | assumption | refine shedCommit_keep _ ?_ | refine shedsPrepare_keep _ ?_)

theorem execShedSet_keep {s0 : State} (m : Fin 16) (loftOk : Bool) {s : State} (h0 : Keep s0 s) :
    KeepNext s0 (execShedSet m loftOk s) := by
  unfold execShedSet
  extract_lets a bad t
  split
  · exact h0
  · have ht : Keep s0 t := shedSetDone_keep (cfgRun_keep _ (fun a _ h => shedSetCmd_keep a h) _ _ h0)
    clear_value t bad
    cases bad with
    | some x => exact KeepNext.next (setF_keep _ _ (setF_keep _ _ (setF_keep _ _ ht)))
    | none => exact ht

theorem shedResetYfi_keep {s0 : State} (a : List Byte) {s : State} (h0 : Keep s0 s) :
    Keep s0 (shedResetYfi a s).2.2 := by
  unfold shedResetYfi
  repeat' (with_reducible first | assumption | refine yfiFail_keep _ ?_ | refine shedReset_keep _ ?_ | extract_lets | split)

theorem execShedReset_keep {s0 : State} (m : Fin 16) {s : State} (h0 : Keep s0 s) :
    KeepNext s0 (execShedReset m s) := by
  unfold execShedReset
  repeat' (with_reducible first
    | assumption | refine yfiRun_keep _ _ _ ?_ ?_ | refine shedResetYfi_keep _ ?_ | intro _ | refine KeepNext.next ?_)

theorem loftBudgetCmd_keep {s0 : State} (a : List Byte) {s : State} (h0 : Keep s0 s) : Keep s0 (loftBudgetCmd.apply a s) := by
  simp only [loftBudgetCmd, cfgPlain]
  repeat' (with_reducible first | assumption | refine loftSetRate_keep _ ?_)

theorem execLoftBudget_keep {s0 : State} (m : Fin 16) (loftOk : Bool) {s : State} (h0 : Keep s0 s) :
    KeepNext s0 (execLoftBudget m loftOk s) := by
  unfold execLoftBudget
  repeat' (with_reducible first
    | assumption | refine cfgRun_keep _ ?_ _ _ ?_ | exact fun a _ h => loftBudgetCmd_keep a h | refine KeepNext.next ?_)

theorem execLoftGet_keep {s0 : State} (m : Fin 16) {s : State} (h0 : Keep s0 s) :
    KeepNext s0 (execLoftGet m s) := by
  unfold execLoftGet
  repeat' (with_reducible first | assumption | refine yfiRun_keep _ _ _ ?_ ?_ | intro _ | refine KeepNext.next ?_)

theorem farrierApply_keep {s0 : State} (a : List Byte) {s : State} (h0 : Keep s0 s) :
    Keep s0 (farrierApply a s) := by
  unfold farrierApply
  repeat' (with_reducible first | assumption | refine setF_keep _ _ ?_ | refine farrCfgWritten_keep ?_)

theorem farrierCmd_keep {s0 : State} (a : List Byte) {s : State} (h0 : Keep s0 s) : Keep s0 (farrierCmd.apply a s) := by
  simp only [farrierCmd, cfgPlain]
  repeat' (with_reducible first | assumption | refine farrierApply_keep _ ?_)

theorem execFarrierConfig_keep {s0 : State} (m : Fin 16) (loftOk : Bool) {s : State} (h0 : Keep s0 s) :
    KeepNext s0 (execFarrierConfig m loftOk s) := by
  unfold execFarrierConfig
  repeat' (with_reducible first
    | assumption | refine cfgRun_keep _ ?_ _ _ ?_ | exact fun a _ h => farrierCmd_keep a h | refine KeepNext.next ?_)

theorem execInfo_keep {s0 : State} (m : Fin 16) {s : State} (h0 : Keep s0 s) :
    KeepNext s0 (execInfo m s) := by
  unfold execInfo
  repeat' (with_reducible first | assumption | refine yfiRun_keep _ _ _ ?_ ?_ | intro _ | refine KeepNext.next ?_)

theorem ledgerConfigApply_keep {s0 : State} (a : List Byte) {s : State} (h0 : Keep s0 s) :
    Keep s0 (ledgerConfigApply a s) := by
  unfold ledgerConfigApply
  repeat' (with_reducible first | assumption | refine modeChange_keep _ _ _ ?_)

theorem ledgerConfigCmd_keep {s0 : State} (a : List Byte) {s : State} (h0 : Keep s0 s) : Keep s0 (ledgerConfigCmd.apply a s) := by
  simp only [ledgerConfigCmd, cfgPlain]
  repeat' (with_reducible first | assumption | refine ledgerConfigApply_keep _ ?_)

theorem execLedgerConfig_keep {s0 : State} (m : Fin 16) (loftOk : Bool) {s : State} (h0 : Keep s0 s) :
    KeepNext s0 (execLedgerConfig m loftOk s) := by
  unfold execLedgerConfig
  repeat' (with_reducible first
    | assumption | refine cfgRun_keep _ ?_ _ _ ?_ | exact fun a _ h => ledgerConfigCmd_keep a h | refine KeepNext.next ?_)

theorem ledgerReactionCmd_keep {s0 : State} (a : List Byte) {s : State} (h0 : Keep s0 s) : Keep s0 (ledgerReactionCmd.apply a s) := by
  simp only [ledgerReactionCmd, cfgPlain]
  repeat' (with_reducible first | assumption | refine setF_keep _ _ ?_)

theorem execLedgerReaction_keep {s0 : State} (m : Fin 16) (loftOk : Bool) {s : State} (h0 : Keep s0 s) :
    KeepNext s0 (execLedgerReaction m loftOk s) := by
  unfold execLedgerReaction
  repeat' (with_reducible first
    | assumption | refine cfgRun_keep _ ?_ _ _ ?_ | exact fun a _ h => ledgerReactionCmd_keep a h | refine KeepNext.next ?_)

theorem faultClearYfi_keep {s0 : State} (a : List Byte) {s : State} (h0 : Keep s0 s) :
    Keep s0 (faultClearYfi a s).2.2 := by
  unfold faultClearYfi
  repeat' (with_reducible first | assumption | refine faultClear_keep _ ?_)

theorem execFaultClear_keep {s0 : State} (m : Fin 16) {s : State} (h0 : Keep s0 s) :
    KeepNext s0 (execFaultClear m s) := by
  unfold execFaultClear
  repeat' (with_reducible first
    | assumption | refine yfiRun_keep _ _ _ ?_ ?_ | refine faultClearYfi_keep _ ?_ | intro _ | refine KeepNext.next ?_)

theorem statsModeCmd_keep {s0 : State} (a : List Byte) {s : State} (h0 : Keep s0 s) : Keep s0 (statsModeCmd.apply a s) := by
  simp only [statsModeCmd, cfgPlain]
  repeat' (with_reducible first | assumption | refine keep_mk ((keep_iff _ _).1 ?_))

theorem execStatsMode_keep {s0 : State} (m : Fin 16) (loftOk : Bool) {s : State} (h0 : Keep s0 s) :
    KeepNext s0 (execStatsMode m loftOk s) := by
  unfold execStatsMode
  repeat' (with_reducible first
    | assumption | refine cfgRun_keep _ ?_ _ _ ?_ | exact fun a _ h => statsModeCmd_keep a h | refine KeepNext.next ?_)

theorem compatConfigCmd_keep {s0 : State} (a : List Byte) {s : State} (h0 : Keep s0 s) : Keep s0 (compatConfigCmd.apply a s) := by
  simp only [compatConfigCmd, cfgPlain, flagCmd]
  repeat' (with_reducible first | assumption | refine setF_keep _ _ ?_)

theorem execCompatConfig_keep {s0 : State} (m : Fin 16) (loftOk : Bool) {s : State} (h0 : Keep s0 s) :
    KeepNext s0 (execCompatConfig m loftOk s) := by
  unfold execCompatConfig
  repeat' (with_reducible first
    | assumption | refine cfgRun_keep _ ?_ _ _ ?_ | exact fun a _ h => compatConfigCmd_keep a h | refine KeepNext.next ?_)

theorem compatRun_keep {s0 : State} (op : Nat) (loftOk : Bool) {s : State} (h0 : Keep s0 s) :
    Keep s0 (compatRun op loftOk s) := by
  unfold compatRun
  repeat' (with_reducible first
    | assumption | refine yfiRun_keep _ _ _ ?_ ?_ | refine cfgRun_keep _ ?_ _ _ ?_ | refine keyInstallRun_keep _ _ ?_
    | refine faultClearYfi_keep _ ?_ | exact fun a _ h => groupCmd_keep a h | exact fun a _ h => portCmd_keep a h
    | exact fun a _ h => chOpenCmd_keep a h | exact fun a _ h => chCloseCmd_keep a h | intro _ | split)

theorem compatSubmit_keep {s0 : State} (op : Nat) (a : List Byte) (loftOk : Bool) {s : State} (h0 : Keep s0 s) :
    Keep s0 (compatSubmit op a loftOk s) := by
  unfold compatSubmit
  repeat' (with_reducible first
    | assumption | refine setBytes_keep _ _ ?_ | refine mbAnswer_keep _ _ ?_ | refine compatRun_keep _ _ ?_)

theorem compatAll_keep {s0 : State} (loftOk : Bool) (l : List (Nat × List Byte)) {s : State} (h0 : Keep s0 s) :
    Keep s0 (compatAll loftOk l s) := by
  induction l generalizing s with
  | nil => exact h0
  | cons e r ih =>
    unfold compatAll
    extract_lets t
    have ht : Keep s0 t := compatSubmit_keep _ _ _ h0
    split
    · exact ih ht
    · exact ht

theorem execCompatCommand_keep {s0 : State} (code : BitVec 8) (args : List (List Byte)) (loftOk : Bool) {s : State} (h0 : Keep s0 s) :
    KeepNext s0 (execCompatCommand code args loftOk s) := by
  unfold execCompatCommand
  repeat' (with_reducible first
    | assumption | refine decodeFault_keep _ _ ?_ | refine compatAll_keep _ _ ?_ | refine KeepNext.next ?_ | extract_lets
    | refine KeepNext.ite ?_ ?_)

end Sys2Proof.Machine
end

