-- ==== Sys2Proof/Laws/KeepFabCfg.lean ====
section
/-!
SUPPORT. `Keep` for what Machine/FabCfg.lean defines.
-/

namespace Sys2Proof.Machine

theorem adoptChannel_keep {s0 : State} (a : List Byte) {s : State} (h0 : Keep s0 s) :
    Keep s0 (adoptChannel a s) := by
  unfold adoptChannel
  repeat' (with_reducible first
    | assumption | refine blkWrite_keep _ ?_ | refine chOpenApply_keep _ ?_ | refine chModifyApply_keep _ ?_ | extract_lets
    | refine Keep.ite ?_ ?_)

theorem cfgTable_keep {s0 : State} {c : CfgCmd} (hc : c ∈ cfgTable) (a : List Byte) {s : State} (h0 : Keep s0 s) :
    Keep s0 (c.apply a s) := by
  simp only [cfgTable, List.mem_cons, List.not_mem_nil, or_false] at hc
  rcases hc with rfl | rfl | rfl | rfl | rfl | rfl | rfl | rfl | rfl | rfl | rfl | rfl | rfl | rfl
    | rfl | rfl | rfl | rfl | rfl | rfl | rfl | rfl | rfl | rfl | rfl | rfl | rfl | rfl
  exacts [posConfigCmd_keep _ h0, groupCmd_keep _ h0, portCmd_keep _ h0, chOpenCmd_keep _ h0, gateLoadCmd_keep _ h0,
    gateTableCmd_keep _ h0, gateSwitchCmd_keep _ h0, puntCmd_keep _ h0, calendarCmd_keep _ h0, customerCmd_keep _ h0,
    keyPolicyCmd_keep _ h0, bridleConfigCmd_keep _ h0, twinBindCmd_keep _ h0, fabConfigCmd_keep _ h0, fabRightsCmd_keep _
    h0, fabCustodyCmd_keep _ h0, fabForwardCmd_keep _ h0, draySplitCmd_keep _ h0, drayControlCmd_keep _ h0,
    memApertureCmd_keep _ h0, bellHostDbCmd_keep _ h0, shedSetCmd_keep _ h0, loftBudgetCmd_keep _ h0, farrierCmd_keep _ h0,
    ledgerConfigCmd_keep _ h0, ledgerReactionCmd_keep _ h0, statsModeCmd_keep _ h0, compatConfigCmd_keep _ h0]

theorem adoptGroup_keep {s0 : State} (new : Table (List Byte)) (g : Nat × Nat × Nat) {s : State} (h0 : Keep s0 s) :
    Keep s0 (adoptGroup new g s) := by
  unfold adoptGroup
  dsimp only
  split
  · exact h0
  · split
    · split
      · exact keep_mk ((keep_iff _ _).1 h0)
      · exact h0
    · split
      · exact adoptChannel_keep _ h0
      · split
        · rename_i c hc
          exact cfgTable_keep (List.mem_of_find?_eq_some hc) _ h0
        · exact h0


theorem adoptConfig_keep {s0 : State} (new : Table (List Byte)) {s : State} (h0 : Keep s0 s) :
    Keep s0 (adoptConfig new s) := by
  unfold adoptConfig
  repeat' (with_reducible first
    | assumption | refine setRecords_keep _ ?_ | refine votersTo_keep _ _ ?_ | refine adoptGroup_keep _ _ ?_ | extract_lets
    | refine Keep.foldl ?_ (fun _ _ _ => ?_) | refine keep_mk ((keep_iff _ _).1 ?_))

theorem chDigests_keep {s0 : State} {s : State} (h0 : Keep s0 s) :
    Keep s0 (chDigests s) := by
  unfold chDigests
  repeat' (with_reducible first
    | assumption | refine chDigest_keep _ ?_ | extract_lets | refine Keep.ite ?_ ?_ | refine Keep.foldl ?_ (fun _ _ _ => ?_))

theorem answerTo_keep {s0 : State} (x : FabMsg) (body : List Byte) {s : State} (h0 : Keep s0 s) :
    Keep s0 (answerTo x body s) := by
  unfold answerTo
  repeat' (with_reducible first
    | assumption | refine fabSend_keep _ _ _ _ _ _ ?_ | refine fabHop_keep _ _ _ _ ?_ | refine Keep.ite ?_ ?_)

theorem masterCommit_keep {s0 : State} (c : CfgCmd) (x : FabMsg) (a : List Byte) {s : State} (h0 : Keep s0 s) :
    Keep s0 (masterCommit c x a s) := by
  unfold masterCommit
  repeat' (with_reducible first
    | assumption | refine takeGen_keep _ ?_ | refine keepBeat_keep _ _ _ _ ?_ | refine adoptConfig_keep _ ?_
    | refine chDigests_keep ?_)

theorem execCfgCommandAtMaster_keep {s0 : State} {s : State} (h0 : Keep s0 s) :
    KeepNext s0 (execCfgCommandAtMaster s) := by
  unfold execCfgCommandAtMaster
  repeat' (with_reducible first
    | assumption | refine twinPublish_keep ?_ | refine fabTake_keep _ _ _ ?_ ?_ | refine answerTo_keep _ _ ?_
    | refine masterCommit_keep _ _ _ ?_ | intro _ | refine KeepNext.next ?_ | extract_lets | refine Keep.ite ?_ ?_ | split)

theorem takePulled_keep {s0 : State} (p : Pulled) {s : State} (h0 : Keep s0 s) :
    Keep s0 (takePulled p s) := by
  unfold takePulled
  repeat' (with_reducible first
    | assumption | refine setF_keep _ _ ?_ | refine takeGen_keep _ ?_ | refine sentEnd_keep ?_ | refine agreeShow_keep ?_
    | refine shedSetDone_keep ?_ | refine adoptConfig_keep _ ?_ | refine chDigests_keep ?_ | extract_lets
    | refine Keep.ite ?_ ?_ | refine keep_mk ((keep_iff _ _).1 ?_))

theorem execCfgPullDone_keep {s0 : State} {s : State} (h0 : Keep s0 s) :
    KeepNext s0 (execCfgPullDone s) := by
  unfold execCfgPullDone
  repeat' (with_reducible first
    | assumption | refine takePulled_keep _ ?_ | refine KeepNext.next ?_ | refine KeepNext.ite ?_ ?_ | split)

end Sys2Proof.Machine
end

