-- ==== Sys2Proof/Laws/KeepAccess.lean ====
section
/-!
SUPPORT. `Keep` for what Machine/Access.lean defines.
-/

namespace Sys2Proof.Machine

theorem csrRefuse_keep {s0 : State} (r : Requester) (o : Nat) {s : State} (h0 : Keep s0 s) {t : State} (e : csrRefuse r o s = some t) :
    Keep s0 t := by
  unfold csrRefuse at e
  repeat' (split at e)
  all_goals first
    | (simp at e; done)
    | (obtain rfl := Option.some.inj e
       repeat' (with_reducible first | assumption | refine decodeFault_keep _ _ ?_ | refine leadRefuse_keep _ _ ?_))

theorem plainWrite_keep {s0 : State} (o : Nat) (v hm hv : Word) {s : State} (h0 : Keep s0 s) :
    Keep s0 (plainWrite o v hm hv s) := by
  unfold plainWrite
  repeat' (with_reducible first
    | assumption | refine wr_keep _ _ ?_ | refine setF_keep _ _ ?_ | extract_lets | refine Keep.ite ?_ ?_ | split)

theorem portRegWrite_keep {s0 : State} (o : Nat) (v hm hv : Word) {s : State} (h0 : Keep s0 s) :
    Keep s0 (portRegWrite o v hm hv s) := by
  unfold portRegWrite
  repeat' (with_reducible first
    | assumption | refine setF_keep _ _ ?_ | refine posCfgWritten_keep _ ?_ | refine portLine_keep _ ?_
    | refine portRefresh_keep _ ?_ | refine portRefreshGroup_keep _ ?_ | refine groupMapWritten_keep _ ?_
    | refine plainWrite_keep _ _ _ _ ?_ | extract_lets | refine Keep.ite ?_ ?_)

theorem stallWrite_keep {s0 : State} (o : Nat) (v hm hv : Word) {s : State} (h0 : Keep s0 s) :
    Keep s0 (stallWrite o v hm hv s) := by
  unfold stallWrite
  repeat' (with_reducible first
    | assumption | refine chEvtLine_keep _ ?_ | refine plainWrite_keep _ _ _ _ ?_ | extract_lets | refine Keep.ite ?_ ?_)

theorem cellCfgWrite_keep {s0 : State} (c : Nat) (v : Word) {s : State} (h0 : Keep s0 s) :
    Keep s0 (cellCfgWrite c v s) := by
  unfold cellCfgWrite
  repeat' (with_reducible first
    | assumption | refine setF_keep _ _ ?_ | refine gapRefreshPort_keep _ ?_ | refine cellEnWrite_keep _ _ ?_ | extract_lets
    | refine Keep.ite ?_ ?_)

theorem chanRegWrite_keep {s0 : State} (o : Nat) (v hm hv : Word) {s : State} (h0 : Keep s0 s) :
    Keep s0 (chanRegWrite o v hm hv s) := by
  unfold chanRegWrite
  repeat' (with_reducible first
    | assumption | refine setF_keep _ _ ?_ | refine gapRefreshPort_keep _ ?_ | refine calArmWrite_keep _ _ ?_
    | refine plainWrite_keep _ _ _ _ ?_ | refine stallWrite_keep _ _ _ _ ?_ | refine cellCfgWrite_keep _ _ ?_ | extract_lets
    | refine Keep.ite ?_ ?_)

theorem linkRegWrite_keep {s0 : State} (o : Nat) (v hm hv : Word) {s : State} (h0 : Keep s0 s) :
    Keep s0 (linkRegWrite o v hm hv s) := by
  unfold linkRegWrite
  repeat' (with_reducible first
    | assumption | refine holdFit_keep ?_ | refine twinRebind_keep ?_ | refine plainWrite_keep _ _ _ _ ?_ | extract_lets
    | refine Keep.ite ?_ ?_)

theorem fabRegWrite_keep {s0 : State} (o : Nat) (v hm hv : Word) {s : State} (h0 : Keep s0 s) :
    Keep s0 (fabRegWrite o v hm hv s) := by
  unfold fabRegWrite
  repeat' (with_reducible first
    | assumption | refine setF_keep _ _ ?_ | refine fabLine_keep _ ?_ | refine leaseRelease_keep _ ?_
    | refine candShow_keep _ ?_ | refine agreeShow_keep ?_ | refine chooseMaster_keep ?_ | refine leaseShow_keep _ ?_
    | refine votersTo_keep _ _ ?_ | refine fabEnter_keep ?_ | refine fabLeave_keep ?_ | refine plainWrite_keep _ _ _ _ ?_
    | extract_lets | refine Keep.ite ?_ ?_ | refine Keep.foldl ?_ (fun _ _ _ => ?_))

theorem dbgCtlWrite_keep {s0 : State} (r : Requester) (k : Fin 32) (v hm hv : Word) {s : State} (h0 : Keep s0 s) :
    Keep s0 (dbgCtlWrite r k v hm hv s) := by
  unfold dbgCtlWrite
  repeat' (with_reducible first
    | assumption | refine draw_keep ?_ | refine dbgHaltAccess_keep _ _ ?_ | refine dbgForceHaltAccess_keep _ _ ?_
    | refine dbgResumeAccess_keep _ _ _ ?_ | refine dbgStepAccess_keep _ _ _ ?_ | refine plainWrite_keep _ _ _ _ ?_
    | extract_lets | refine Keep.ite ?_ ?_)

theorem drayRegWrite_keep {s0 : State} (r : Requester) (o : Nat) (v hm hv : Word) {s : State} (h0 : Keep s0 s) :
    Keep s0 (drayRegWrite r o v hm hv s) := by
  unfold drayRegWrite
  repeat' (with_reducible first
    | assumption | refine coreStartAccess_keep _ _ ?_ | refine coreStopAccess_keep _ _ ?_ | refine rdataAccess_keep _ _ _ ?_
    | refine plainWrite_keep _ _ _ _ ?_ | refine dbgCtlWrite_keep _ _ _ _ _ ?_ | extract_lets | refine Keep.ite ?_ ?_ | split)

theorem padRegWrite_keep {s0 : State} (r : Requester) (o : Nat) (v hm hv : Word) {s : State} (h0 : Keep s0 s) :
    Keep s0 (padRegWrite r o v hm hv s) := by
  unfold padRegWrite
  repeat' (with_reducible first
    | assumption | refine reply_keep _ _ _ ?_ | refine ownViol_keep ?_ | refine ownBad_keep _ ?_ | refine handover_keep _ _ _ ?_
    | refine barnMapWrite_keep _ ?_ | refine plainWrite_keep _ _ _ _ ?_ | extract_lets | refine Keep.ite ?_ ?_)

theorem bellRegWrite_keep {s0 : State} (r : Requester) (o : Nat) (v hm hv : Word) {s : State} (h0 : Keep s0 s) :
    Keep s0 (bellRegWrite r o v hm hv s) := by
  unfold bellRegWrite
  repeat' (with_reducible first
    | assumption | refine setF_keep _ _ ?_ | refine cntSat_keep _ _ ?_ | refine reply_keep _ _ _ ?_ | refine bellRefresh_keep ?_
    | refine bellLevel_keep _ ?_ | refine tgtFinishAccess_keep _ _ _ ?_ | refine bellDoorbellAccess_keep _ _ ?_
    | refine bellFreezeWrite_keep _ _ ?_ | refine bellAfterWrite_keep _ ?_ | refine bellRestoreLevels_keep _ ?_
    | refine plainWrite_keep _ _ _ _ ?_ | extract_lets | refine Keep.ite ?_ ?_)

theorem tallyRegWrite_keep {s0 : State} (r : Requester) (o : Nat) (v hm hv : Word) {s : State} (h0 : Keep s0 s) :
    Keep s0 (tallyRegWrite r o v hm hv s) := by
  unfold tallyRegWrite
  repeat' (with_reducible first
    | assumption | refine reply_keep _ _ _ ?_ | refine gpioDrive_keep _ ?_ | refine compareCommitAccess_keep _ _ _ _ ?_
    | refine compareDisarmAccess_keep _ _ _ _ ?_ | refine tallyCountWriteAccess_keep _ _ _ _ ?_ | refine tcfgWritten_keep _ ?_
    | refine plainWrite_keep _ _ _ _ ?_ | extract_lets | refine Keep.ite ?_ ?_ | split)

theorem persWrite_keep {s0 : State} (r : Requester) (o w : Nat) (mask : Word) (val : State → Nat) (v hm hv : Word) (loftOk : Bool) {s : State} (h0 : Keep s0 s) :
    Keep s0 (persWrite r o w mask val v hm hv loftOk s) := by
  unfold persWrite
  repeat' (with_reducible first
    | assumption | refine setF_keep _ _ ?_ | refine report_keep _ _ _ _ ?_ | refine reply_keep _ _ _ ?_
    | refine loftProgram_keep _ _ ?_ | refine plainWrite_keep _ _ _ _ ?_ | extract_lets | refine Keep.ite ?_ ?_)

theorem epochWrite_keep {s0 : State} (r : Requester) (hi : Bool) (v hm hv : Word) (loftOk : Bool) {s : State} (h0 : Keep s0 s) :
    Keep s0 (epochWrite r hi v hm hv loftOk s) := by
  unfold epochWrite
  repeat' (with_reducible first
    | assumption | refine setF_keep _ _ ?_ | refine report_keep _ _ _ _ ?_ | refine reply_keep _ _ _ ?_
    | refine loftProgram_keep _ _ ?_ | refine showLead_keep ?_ | extract_lets | refine Keep.ite ?_ ?_)

theorem powerRegWrite_keep {s0 : State} (r : Requester) (o : Nat) (v hm hv : Word) {s : State} (h0 : Keep s0 s) :
    Keep s0 (powerRegWrite r o v hm hv s) := by
  unfold powerRegWrite
  repeat' (with_reducible first
    | assumption | refine reply_keep _ _ _ ?_ | refine wearRefresh_keep _ ?_ | refine loftSetRate_keep _ ?_
    | refine pwrShedReqWriteAccess_keep _ _ ?_ | refine pwrShedRstWriteAccess_keep _ _ ?_ | refine farrCfgWritten_keep ?_
    | refine plainWrite_keep _ _ _ _ ?_ | extract_lets | refine Keep.ite ?_ ?_)

theorem fstateWrite_keep {s0 : State} (o : Nat) (v hm hv : Word) {s : State} (h0 : Keep s0 s) :
    Keep s0 (fstateWrite o v hm hv s) := by
  unfold fstateWrite
  repeat' (with_reducible first | assumption | refine plainWrite_keep _ _ _ _ ?_ | extract_lets | refine Keep.ite ?_ ?_)

theorem ymRegWrite_keep {s0 : State} (r : Requester) (o : Nat) (v hm hv : Word) (loftOk : Bool) {s : State} (h0 : Keep s0 s) :
    Keep s0 (ymRegWrite r o v hm hv loftOk s) := by
  unfold ymRegWrite
  repeat' (with_reducible first
    | assumption | refine reply_keep _ _ _ ?_ | refine ymCtlWrite_keep _ _ ?_ | refine ledgerLines_keep ?_
    | refine rdWrite_keep _ ?_ | refine modeChange_keep _ _ _ ?_ | refine ledgerInjectAccess_keep _ _ ?_
    | refine plainWrite_keep _ _ _ _ ?_ | refine epochWrite_keep _ _ _ _ _ _ ?_ | refine fstateWrite_keep _ _ _ _ ?_
    | extract_lets | refine Keep.ite ?_ ?_)

theorem hostRegWrite_keep {s0 : State} (o : Nat) (v hm hv : Word) (loftOk : Bool) {s : State} (h0 : Keep s0 s) :
    Keep s0 (hostRegWrite o v hm hv loftOk s) := by
  unfold hostRegWrite
  repeat' (with_reducible first
    | assumption | refine setF_keep _ _ ?_ | refine setBytes_keep _ _ ?_ | refine reply_keep _ _ _ ?_
    | refine mbRing_keep _ _ ?_ | refine plainWrite_keep _ _ _ _ ?_ | extract_lets | refine Keep.ite ?_ ?_)

theorem csrEffect_keep {s0 : State} (r : Requester) (o : Nat) (v hm hv : Word) (loftOk : Bool) {s : State} (h0 : Keep s0 s) :
    Keep s0 (csrEffect r o v hm hv loftOk s) := by
  unfold csrEffect
  repeat' (with_reducible first
    | assumption | refine reply_keep _ _ _ ?_ | refine depositCommitAccess_keep _ _ _ ?_ | refine plainWrite_keep _ _ _ _ ?_
    | refine portRegWrite_keep _ _ _ _ ?_ | refine chanRegWrite_keep _ _ _ _ ?_ | refine linkRegWrite_keep _ _ _ _ ?_
    | refine fabRegWrite_keep _ _ _ _ ?_ | refine drayRegWrite_keep _ _ _ _ _ ?_ | refine padRegWrite_keep _ _ _ _ _ ?_
    | refine bellRegWrite_keep _ _ _ _ _ ?_ | refine tallyRegWrite_keep _ _ _ _ _ ?_
    | refine persWrite_keep _ _ _ _ _ _ _ _ _ ?_ | refine powerRegWrite_keep _ _ _ _ _ ?_
    | refine ymRegWrite_keep _ _ _ _ _ _ ?_ | refine hostRegWrite_keep _ _ _ _ _ ?_ | extract_lets | refine Keep.ite ?_ ?_
    | split)

theorem csrLoad32_keep {s0 : State} (r : Requester) (o : Nat) {s : State} (h0 : Keep s0 s) :
    Keep s0 (csrLoad32 r o s) := by
  unfold csrLoad32
  repeat' (with_reducible first
    | assumption | refine reply_keep _ _ _ ?_ | refine decodeFault_keep _ _ ?_ | refine tgtTakeAccess_keep _ _ ?_
    | refine rdataAccess_keep _ _ _ ?_ | refine traceReadAccess_keep _ _ ?_ | extract_lets | refine Keep.ite ?_ ?_ | split
    | refine keep_mk ((keep_iff _ _).1 ?_))

theorem csrLoad64_keep {s0 : State} (r : Requester) (o : Nat) {s : State} (h0 : Keep s0 s) :
    Keep s0 (csrLoad64 r o s) := by
  unfold csrLoad64
  repeat' (with_reducible first
    | assumption | refine reply_keep _ _ _ ?_ | refine decodeFault_keep _ _ ?_ | refine csrLoad32_keep _ _ ?_ | extract_lets
    | refine Keep.ite ?_ ?_ | refine keep_mk ((keep_iff _ _).1 ?_))

theorem csrCommit64_keep {s0 : State} (r : Requester) (o : Nat) (v hm hv : DWord) (loftOk : Bool) {s : State} (h0 : Keep s0 s) :
    Keep s0 (csrCommit64 r o v hm hv loftOk s) := by
  unfold csrCommit64
  repeat' (with_reducible first
    | assumption | refine wr64_keep _ _ ?_ | refine reply_keep _ _ _ ?_ | refine compareCommitAccess_keep _ _ _ _ ?_
    | refine tallyCountWriteAccess_keep _ _ _ _ ?_ | refine csrEffect_keep _ _ _ _ _ _ ?_ | extract_lets | refine Keep.ite ?_ ?_
    | split)

theorem csrStore32_keep {s0 : State} (r : Requester) (o : Nat) (v hm hv : Word) (loftOk : Bool) {s : State} (h0 : Keep s0 s) :
    Keep s0 (csrStore32 r o v hm hv loftOk s) := by
  unfold csrStore32
  repeat' (with_reducible first
    | assumption | refine reply_keep _ _ _ ?_ | refine csrRefuse_keep _ _ ?_ (by assumption)
    | refine hostRegWrite_keep _ _ _ _ _ ?_ | refine csrEffect_keep _ _ _ _ _ _ ?_ | refine csrCommit64_keep _ _ _ _ _ _ ?_
    | extract_lets | refine Keep.ite ?_ ?_ | split | refine keep_mk ((keep_iff _ _).1 ?_))

theorem csrStore64_keep {s0 : State} (r : Requester) (o : Nat) (v hm hv : DWord) (loftOk : Bool) {s : State} (h0 : Keep s0 s) :
    Keep s0 (csrStore64 r o v hm hv loftOk s) := by
  unfold csrStore64
  repeat' (with_reducible first
    | assumption | refine decodeFault_keep _ _ ?_ | refine csrRefuse_keep _ _ ?_ (by assumption)
    | refine csrCommit64_keep _ _ _ _ _ _ ?_ | extract_lets | refine Keep.ite ?_ ?_ | split)

end Sys2Proof.Machine
end

