-- ==== Sys2Proof/Laws/KeepWindows.lean ====
section
/-!
SUPPORT. `Keep` for what Machine/Windows.lean defines.
-/

namespace Sys2Proof.Machine

theorem loftRead_keep {s0 : State} (o n : Nat) {s : State} (h0 : Keep s0 s) :
    Keep s0 (loftRead o n s).2.2 := by
  unfold loftRead
  repeat' (with_reducible first | assumption | refine setF_keep _ _ ?_ | refine report_keep _ _ _ _ ?_ | split)

theorem wmShow_keep {s0 : State} (w : Nat) {s : State} (h0 : Keep s0 s) :
    Keep s0 (wmShow w s) := by
  unfold wmShow
  repeat' (with_reducible first | assumption | refine wr64_keep _ _ ?_ | refine Keep.ite ?_ ?_)

theorem loftPatch_keep {s0 : State} (o : Nat) (l : List Byte) {s : State} (w : Nat) (h0 : Keep s0 s) :
    Keep s0 (loftPatch o l s w) := by
  unfold loftPatch
  repeat' (with_reducible first | assumption | refine loftProgram_keep _ _ ?_ | refine wmShow_keep _ ?_)

theorem loftWindowWrite_keep {s0 : State} (r : Requester) (o : Nat) (l : List Byte) (loftOk : Bool) {s : State} (h0 : Keep s0 s) :
    Keep s0 (loftWindowWrite r o l loftOk s).2 := by
  unfold loftWindowWrite
  repeat' (with_reducible first
    | assumption | refine setF_keep _ _ ?_ | refine report_keep _ _ _ _ ?_ | refine loftPatch_keep _ _ _ ?_
    | refine Keep.foldl ?_ (fun _ _ _ => ?_) | split)

theorem winRead_keep {s0 : State} (r : Requester) (o n : Nat) {s : State} (h0 : Keep s0 s) :
    Keep s0 (winRead r o n s).2.2 := by
  unfold winRead
  repeat' (with_reducible first
    | assumption | refine decodeFault_keep _ _ ?_ | refine padRead_keep _ _ _ ?_ | refine barnRead_keep _ _ _ ?_
    | refine csrLoad32_keep _ _ ?_ | refine csrLoad64_keep _ _ ?_ | refine loftRead_keep _ _ ?_ | extract_lets | split)

theorem winWrite_keep {s0 : State} (r : Requester) (o : Nat) (l : List Byte) (loftOk : Bool) {s : State} (h0 : Keep s0 s) :
    Keep s0 (winWrite r o l loftOk s).2 := by
  unfold winWrite
  repeat' (with_reducible first
    | assumption | refine setBytes_keep _ _ ?_ | refine decodeFault_keep _ _ ?_ | refine padWrite_keep _ _ _ ?_
    | refine barnWrite_keep _ _ _ ?_ | refine markDirty_keep _ _ _ ?_ | refine csrStore32_keep _ _ _ _ _ _ ?_
    | refine csrStore64_keep _ _ _ _ _ _ ?_ | refine loftWindowWrite_keep _ _ _ _ ?_ | extract_lets | split)

theorem load32_keep {s0 : State} (r : Requester) (o : Nat) {s : State} (h0 : Keep s0 s) :
    Keep s0 (load32 r o s) := by
  unfold load32
  repeat' (with_reducible first
    | assumption | refine reply_keep _ _ _ ?_ | refine csrLoad32_keep _ _ ?_ | refine winRead_keep _ _ _ ?_ | extract_lets
    | refine Keep.ite ?_ ?_)

theorem store32_keep {s0 : State} (r : Requester) (o : Nat) (v hm hv : Word) (loftOk : Bool) {s : State} (h0 : Keep s0 s) :
    Keep s0 (store32 r o v hm hv loftOk s) := by
  unfold store32
  repeat' (with_reducible first
    | assumption | refine reply_keep _ _ _ ?_ | refine csrStore32_keep _ _ _ _ _ _ ?_ | refine winWrite_keep _ _ _ _ ?_
    | extract_lets | refine Keep.ite ?_ ?_)

theorem execCsrWrite_keep {s0 : State} (r : Requester) (o : Nat) (v hm hv : Word) (loftOk : Bool) {s : State} (h0 : Keep s0 s) :
    KeepNext s0 (execCsrWrite r o v hm hv loftOk s) := by
  unfold execCsrWrite
  repeat' (with_reducible first
    | assumption | refine store32_keep _ _ _ _ _ _ ?_ | refine KeepNext.next ?_ | extract_lets | refine Keep.ite ?_ ?_)

theorem execPairLoRead_keep {s0 : State} (r : Requester) (o : Nat) {s : State} (h0 : Keep s0 s) :
    KeepNext s0 (execPairLoRead r o s) := by
  unfold execPairLoRead
  repeat' (with_reducible first
    | assumption | refine load32_keep _ _ ?_ | refine KeepNext.next ?_ | extract_lets | refine Keep.ite ?_ ?_)

theorem execPairLoWrite_keep {s0 : State} (r : Requester) (o : Nat) (v : Word) {s : State} (h0 : Keep s0 s) :
    KeepNext s0 (execPairLoWrite r o v s) := by
  unfold execPairLoWrite
  repeat' (with_reducible first
    | assumption | refine csrStore32_keep _ _ _ _ _ _ ?_ | refine KeepNext.next ?_ | extract_lets | refine Keep.ite ?_ ?_)

theorem execPairHiWrite_keep {s0 : State} (r : Requester) (o : Nat) (v hm hv : Word) {s : State} (h0 : Keep s0 s) :
    KeepNext s0 (execPairHiWrite r o v hm hv s) := by
  unfold execPairHiWrite
  repeat' (with_reducible first
    | assumption | refine csrStore32_keep _ _ _ _ _ _ ?_ | refine KeepNext.next ?_ | extract_lets | refine Keep.ite ?_ ?_)

theorem execPairAccess64_keep {s0 : State} (r : Requester) (o : Nat) (write : Option DWord) (hm hv : DWord) {s : State} (h0 : Keep s0 s) :
    KeepNext s0 (execPairAccess64 r o write hm hv s) := by
  unfold execPairAccess64
  repeat' (with_reducible first
    | assumption | refine reply_keep _ _ _ ?_ | refine csrLoad64_keep _ _ ?_ | refine csrStore64_keep _ _ _ _ _ _ ?_
    | refine winRead_keep _ _ _ ?_ | refine winWrite_keep _ _ _ _ ?_ | refine KeepNext.next ?_ | extract_lets
    | refine KeepNext.ite ?_ ?_ | split)

theorem execDebugPeek_keep {s0 : State} (o : Nat) {s : State} (h0 : Keep s0 s) :
    KeepNext s0 (execDebugPeek o s) := by
  unfold execDebugPeek
  repeat' (with_reducible first | assumption | refine load32_keep _ _ ?_ | refine KeepNext.next ?_)

theorem apErr_keep {s0 : State} (st o : Nat) {s : State} (h0 : Keep s0 s) :
    Keep s0 (apErr st o s) := by
  unfold apErr
  repeat' (with_reducible first | assumption | refine setF_keep _ _ ?_)

theorem execHostBar2Access_keep {s0 : State} (o : Nat) (n : Fin 9) (write : Option (List Byte)) (busy : Fin 66) {s : State} (h0 : Keep s0 s) :
    KeepNext s0 (execHostBar2Access o n write busy s) := by
  unfold execHostBar2Access
  repeat' (with_reducible first
    | assumption | refine cntSat_keep _ _ ?_ | refine reply_keep _ _ _ ?_ | refine decodeFault_keep _ _ ?_
    | refine padRead_keep _ _ _ ?_ | refine padWrite_keep _ _ _ ?_ | refine apErr_keep _ _ ?_ | refine KeepNext.next ?_
    | extract_lets | refine Keep.ite ?_ ?_ | refine KeepNext.ite ?_ ?_ | split)

theorem execFabReadRx_keep {s0 : State} (busy : Bool) {s : State} (h0 : Keep s0 s) :
    KeepNext s0 (execFabReadRx busy s) := by
  unfold execFabReadRx
  repeat' (with_reducible first
    | assumption | refine cntSat_keep _ _ ?_ | refine decodeFault_keep _ _ ?_ | refine fabSend_keep _ _ _ _ _ _ ?_
    | refine fabTake_keep _ _ _ ?_ ?_ | refine winRead_keep _ _ _ ?_ | intro _ | refine KeepNext.next ?_ | extract_lets | split)

theorem execFabWriteRx_keep {s0 : State} (busy loftOk : Bool) {s : State} (h0 : Keep s0 s) :
    KeepNext s0 (execFabWriteRx busy loftOk s) := by
  unfold execFabWriteRx
  repeat' (with_reducible first
    | assumption | refine cntSat_keep _ _ ?_ | refine decodeFault_keep _ _ ?_ | refine fabSend_keep _ _ _ _ _ _ ?_
    | refine fabTake_keep _ _ _ ?_ ?_ | refine winWrite_keep _ _ _ _ ?_ | intro _ | refine KeepNext.next ?_ | extract_lets
    | split)

theorem farFinish_keep {s0 : State} (k tag st : Nat) (data : List Byte) (cycles : Nat) {s : State} (h0 : Keep s0 s) :
    Keep s0 (farFinish k tag st data cycles s) := by
  unfold farFinish
  extract_lets t u s1 s2
  split
  · exact h0
  · have h1 : Keep s0 s1 := by
      unfold s1; split
      · exact h0
      · split
        · exact setBytes_keep _ _ h0
        · exact draws_keep _ (setBytes_keep _ _ h0)
    clear_value s1
    have h2 : Keep s0 s2 := modCore_keep _ _ h1
    clear_value s2
    split
    · exact issue_keep _ (cntSat_keep _ _ (modCore_keep _ _ h2))
    · exact h2

theorem asOwner_keep {s0 : State} (t : FarTag) {s : State} (f : State → Nat × List Byte × State) (hf : ∀  (x : State), Keep s0 x → Keep s0 (f  x).2.2) (h0 : Keep s0 s) :
    Keep s0 (asOwner t s f).2.2 := by
  unfold asOwner
  repeat' (with_reducible first
    | assumption | refine setF_keep _ _ ?_ | refine hf _ ?_ | extract_lets | refine Keep.foldl ?_ (fun _ _ _ => ?_) | split)

theorem farSource_keep {s0 : State} (k : Nat) (t : FarTag) {s : State} (h0 : Keep s0 s) :
    Keep s0 (farSource k t s).2 := by
  unfold farSource
  repeat' (with_reducible first | assumption | refine lmDrawn_keep _ ?_ | refine draws_keep _ ?_ | extract_lets | split)

theorem farPerform_keep {s0 : State} (k : Fin 32) (t : FarTag) (clash : Nat) (loftOk : Bool) {s : State} (h0 : Keep s0 s) :
    Keep s0 (farPerform k t clash loftOk s).2.2 := by
  unfold farPerform
  repeat' (with_reducible first
    | assumption | refine cntSat_keep _ _ ?_ | refine decodeFault_keep _ _ ?_ | refine depositWrite_keep _ _ _ _ ?_
    | refine winRead_keep _ _ _ ?_ | refine winWrite_keep _ _ _ _ ?_ | refine asOwner_keep _ _ ?_ ?_
    | refine farSource_keep _ _ ?_ | intro _ | refine draws_keep _ ?_ | extract_lets | split)

theorem execFarComplete_keep {s0 : State} (core : Fin 32) (tag : Fin 8) (cycles : Nat) (clash : Fin 3) (loftOk : Bool) {s : State} (h0 : Keep s0 s) :
    KeepNext s0 (execFarComplete core tag cycles clash loftOk s) := by
  unfold execFarComplete
  repeat' (with_reducible first
    | assumption | refine farFinish_keep _ _ _ _ _ ?_ | refine farPerform_keep _ _ _ _ ?_ | refine KeepNext.next ?_
    | extract_lets | refine KeepNext.ite ?_ ?_)

theorem reqDone_keep {s0 : State} (q : FabReq) (st : Nat) (data : List Byte) (cycles : Nat) {s : State} (h0 : Keep s0 s) :
    Keep s0 (reqDone q st data cycles s) := by
  unfold reqDone
  repeat' (with_reducible first
    | assumption | refine farFinish_keep _ _ _ _ _ ?_ | extract_lets | refine keep_mk ((keep_iff _ _).1 ?_))

theorem execFabResponseRx_keep {s0 : State} (cycles : Nat) {s : State} (h0 : Keep s0 s) :
    KeepNext s0 (execFabResponseRx cycles s) := by
  unfold execFabResponseRx
  repeat' (with_reducible first
    | assumption | refine reqDone_keep _ _ _ _ ?_ | refine KeepNext.next ?_ | extract_lets | refine KeepNext.ite ?_ ?_ | split
    | refine keep_mk ((keep_iff _ _).1 ?_))

theorem execFabResponseTimeout_keep {s0 : State} (cycles : Nat) {s : State} (h0 : Keep s0 s) :
    KeepNext s0 (execFabResponseTimeout cycles s) := by
  unfold execFabResponseTimeout
  repeat' (with_reducible first | assumption | refine reqDone_keep _ _ _ _ ?_ | refine KeepNext.next ?_ | split)

end Sys2Proof.Machine
end

