-- ==== Sys2Proof/Laws/Quiet.lean ====
section
/-!
SUPPORT. What fault reports and interrupts leave alone: every register outside Bell and the ledger, and every part of the state but
Bell's, the ledger's and the outputs.
-/

namespace Sys2Proof.Machine

/-- A register that reports and interrupts do not touch. -/
abbrev quietOff (o : Nat) : Prop := o < 0x2A000000 ∨ (0x2B000000 ≤ o ∧ o < 0x2F000000)

/-- Reports and interrupts lead from `s` to `t`. -/
structure Quiet (s t : State) : Prop where
  rd : ∀ o, quietOff o → t.rd o = s.rd o
  eqv : t = { s with csr := t.csr, bell := t.bell, ledger := t.ledger, outs := t.outs }

theorem Quiet.refl (s : State) : Quiet s s := ⟨fun _ _ => rfl, rfl⟩

theorem Quiet.trans {s t u : State} (h : Quiet s t) (g : Quiet t u) : Quiet s u :=
  ⟨fun o x => (g.rd o x).trans (h.rd o x), by rw [g.eqv, h.eqv]⟩

theorem Quiet.ite {s t u : State} {c : Prop} [Decidable c] (h : Quiet s t) (g : Quiet s u) : Quiet s (if c then t else u) := by
  split <;> assumption

theorem Quiet.foldl {α : Type} {s t : State} {f : State → α → State} (l : List α) (h : Quiet s t)
    (g : ∀ (u : State) (a : α), a ∈ l → Quiet s u → Quiet s (f u a)) : Quiet s (l.foldl f t) := by
  induction l generalizing t with
  | nil => exact h
  | cons a r ih => exact ih (g t a (by simp) h) (fun u b hb => g u b (by simp [hb]))

theorem Quiet.wr {s t : State} {o : Nat} {v : Word} (h : Quiet s t) (ho : ¬ quietOff o) : Quiet s (t.wr o v) :=
  ⟨fun p hp => by rw [State.rd_wr_ne _ _ _ _ (by rintro rfl; exact ho hp)]; exact h.rd p hp,
    by conv => lhs; rw [State.wr, h.eqv]
       rfl⟩

theorem Quiet.setF {s t : State} {f : Fld} {v : Nat} (h : Quiet s t) (ho : ¬ quietOff f.off) : Quiet s (t.setF f v) := h.wr ho

theorem Quiet.cntSat {s t : State} {f : Fld} {v : Nat} (h : Quiet s t) (ho : ¬ quietOff f.off) : Quiet s (t.cntSat f v) := h.wr ho

theorem Quiet.emit {s t : State} {x : Output} (h : Quiet s t) : Quiet s (t.emit x) :=
  ⟨h.rd, by conv => lhs; rw [State.emit, h.eqv]
            rfl⟩

theorem Quiet.bell {s t : State} (h : Quiet s t) (b : Bell) : Quiet s { t with bell := b } :=
  ⟨h.rd, by conv => lhs; rw [h.eqv]⟩

theorem Quiet.ledger {s t : State} (h : Quiet s t) (b : Ledger) : Quiet s { t with ledger := b } :=
  ⟨h.rd, by conv => lhs; rw [h.eqv]⟩

/-! ### Reports -/

theorem countDrop_quiet (s : State) (cls : Nat) : Quiet s (s.countDrop cls) := by
  unfold State.countDrop
  refine .ite (.refl s) (.ledger (.setF (.cntSat (.refl s) ?_) (by unfold quietOff; decide)) _)
  unfold quietOff; dsimp only; split
  · decide
  · split <;> decide

theorem fstateRaise_quiet (c h : Nat) (s : State) : Quiet s (fstateRaise c h s) := by
  refine .cntSat (.setF (.refl s) ?_) ?_ <;> simp [quietOff, LEDGER_FSTATE_RAISED, LEDGER_FSTATE_HITS, LEDGER_FSTATE] <;> omega

theorem addReport_quiet (s : State) (u : Nat) (r : Report) : Quiet s (s.addReport u r) := by
  unfold State.addReport
  exact .ite (.ledger (.refl s) _) ((((Quiet.refl s).ledger _).trans (fstateRaise_quiet _ _ _)).trans (countDrop_quiet _ _))

theorem report_quiet (s : State) (u c p d : Nat) : Quiet s (s.report u c p d) := addReport_quiet _ _ _

/-! ### Interrupts -/

theorem bellRefreshTarget_quiet (t : Nat) (s : State) (h : t ∈ bellTargets) : Quiet s (bellRefreshTarget t s) := by
  have ht : t ≤ 48 := by
    have : ∀ x ∈ bellTargets, x ≤ 48 := by decide
    exact this t h
  have h1 : ∀ v u, Quiet s u → Quiet s (u.setF (TGT_STAT_REQ t) v) := fun v u hu =>
    hu.setF (by simp [quietOff, TGT_STAT_REQ, TGT_STAT]; omega)
  have h2 : ∀ v u, Quiet s u → Quiet s (u.setF (TGT_STAT_REQ_SEEN t) v) := fun v u hu =>
    hu.setF (by simp [quietOff, TGT_STAT_REQ_SEEN, TGT_STAT]; omega)
  have h3 : ∀ v, Quiet s (s.setF (TGT_STAT_REQ t) v) := fun v => h1 v s (.refl s)
  have h4 : ∀ v w, Quiet s ((s.setF (TGT_STAT_REQ t) v).setF (TGT_STAT_REQ_SEEN t) w) := fun v w => h2 w _ (h3 v)
  unfold bellRefreshTarget
  dsimp only
  split
  · split
    · exact (h4 _ _).emit
    · exact h4 _ _
  · exact h3 _

theorem bellRefresh_quiet (s : State) : Quiet s (bellRefresh s) := by
  have h : Quiet s (bellTargets.foldl (fun s t => bellRefreshTarget t s) s) :=
    Quiet.foldl bellTargets (.refl s) (fun u a ha h => h.trans (bellRefreshTarget_quiet a u ha))
  unfold bellRefresh
  split
  · exact .refl s
  · exact h

theorem bellSetPend_quiet (n : Nat) (v : Bool) (s : State) : Quiet s (bellSetPend n v s) := by
  by_cases hr : bellReserved n = true
  · simp only [bellSetPend, hr, if_true]; exact .refl s
  · have hn : n < 1023 := by
      by_contra hx; exact hr (by simp [bellReserved]; omega)
    have h : ∀ w, Quiet s (s.setF (bellBit (BELL_PEND 0) n) w) := fun w =>
      (Quiet.refl s).setF (by simp only [quietOff, bellBit, BELL_PEND]; omega)
    unfold bellSetPend
    rw [if_neg hr]
    split
    · exact (Quiet.refl s).bell _
    · exact (h _).trans (bellRefresh_quiet _)

theorem bellLevel_quiet (n : Nat) (s : State) : Quiet s (bellLevel n s) := by
  unfold bellLevel
  exact .ite (.ite (.refl s) (bellSetPend_quiet _ _ _)) (.refl s)

theorem bellInput_quiet (n : Nat) (l : Bool) (s : State) : Quiet s (bellInput n l s) := by
  have hb : ∀ b, Quiet s { s with bell := b } := fun b => (Quiet.refl s).bell b
  unfold bellInput
  dsimp only
  split
  · exact (hb _).trans (bellLevel_quiet _ _)
  · exact (hb _).trans (bellLevel_quiet _ _)
  · exact .ite ((hb _).trans (bellSetPend_quiet _ _ _)) (hb _)
  · exact .ite ((hb _).trans (bellSetPend_quiet _ _ _)) (hb _)
  · exact .ite ((hb _).trans (bellSetPend_quiet _ _ _)) (hb _)
  · exact hb _

theorem bellPulse_quiet (n : Nat) (s : State) : Quiet s (bellPulse n s) :=
  ((bellInput_quiet _ _ _).trans (bellInput_quiet _ _ _)).trans (bellInput_quiet _ _ _)

/-! ### What stays, part by part -/

theorem Quiet.mem {s t : State} (h : Quiet s t) : t.mem = s.mem := by rw [h.eqv]
theorem Quiet.pos {s t : State} (h : Quiet s t) : t.pos = s.pos := by rw [h.eqv]
theorem Quiet.now {s t : State} (h : Quiet s t) : t.now = s.now := by rw [h.eqv]
theorem Quiet.ports {s t : State} (h : Quiet s t) : t.ports = s.ports := by rw [h.eqv]
theorem Quiet.refLost {s t : State} (h : Quiet s t) : t.refLost = s.refLost := by rw [h.eqv]
theorem Quiet.sysLost {s t : State} (h : Quiet s t) : t.sysLost = s.sysLost := by rw [h.eqv]
theorem Quiet.gateProg {s t : State} (h : Quiet s t) : t.gateProg = s.gateProg := by rw [h.eqv]
theorem Quiet.gateExact {s t : State} (h : Quiet s t) : t.gateExact = s.gateExact := by rw [h.eqv]
theorem Quiet.gateTern {s t : State} (h : Quiet s t) : t.gateTern = s.gateTern := by rw [h.eqv]
theorem Quiet.gateQ {s t : State} (h : Quiet s t) : t.gateQ = s.gateQ := by rw [h.eqv]
theorem Quiet.units {s t : State} (h : Quiet s t) : t.units = s.units := by rw [h.eqv]
theorem Quiet.pend {s t : State} (h : Quiet s t) : t.pend = s.pend := by rw [h.eqv]
theorem Quiet.inq {s t : State} (h : Quiet s t) : t.inq = s.inq := by rw [h.eqv]
theorem Quiet.changes {s t : State} (h : Quiet s t) : t.changes = s.changes := by rw [h.eqv]
theorem Quiet.punt {s t : State} (h : Quiet s t) : t.punt = s.punt := by rw [h.eqv]
theorem Quiet.clearTx {s t : State} (h : Quiet s t) : t.clearTx = s.clearTx := by rw [h.eqv]
theorem Quiet.hostMem {s t : State} (h : Quiet s t) : t.hostMem = s.hostMem := by rw [h.eqv]
theorem Quiet.chans {s t : State} (h : Quiet s t) : t.chans = s.chans := by rw [h.eqv]
theorem Quiet.tack {s t : State} (h : Quiet s t) : t.tack = s.tack := by rw [h.eqv]
theorem Quiet.brTx {s t : State} (h : Quiet s t) : t.brTx = s.brTx := by rw [h.eqv]
theorem Quiet.brIn {s t : State} (h : Quiet s t) : t.brIn = s.brIn := by rw [h.eqv]
theorem Quiet.loftQ {s t : State} (h : Quiet s t) : t.loftQ = s.loftQ := by rw [h.eqv]
theorem Quiet.wear {s t : State} (h : Quiet s t) : t.wear = s.wear := by rw [h.eqv]
theorem Quiet.loftBad {s t : State} (h : Quiet s t) : t.loftBad = s.loftBad := by rw [h.eqv]
theorem Quiet.loftWarned {s t : State} (h : Quiet s t) : t.loftWarned = s.loftWarned := by rw [h.eqv]
theorem Quiet.twin {s t : State} (h : Quiet s t) : t.twin = s.twin := by rw [h.eqv]
theorem Quiet.fab {s t : State} (h : Quiet s t) : t.fab = s.fab := by rw [h.eqv]
theorem Quiet.tally {s t : State} (h : Quiet s t) : t.tally = s.tally := by rw [h.eqv]
theorem Quiet.power {s t : State} (h : Quiet s t) : t.power = s.power := by rw [h.eqv]
theorem Quiet.cores {s t : State} (h : Quiet s t) : t.cores = s.cores := by rw [h.eqv]
theorem Quiet.config {s t : State} (h : Quiet s t) : t.config = s.config := by rw [h.eqv]
theorem Quiet.untested {s t : State} (h : Quiet s t) : t.untested = s.untested := by rw [h.eqv]
theorem Quiet.hiLatch {s t : State} (h : Quiet s t) : t.hiLatch = s.hiLatch := by rw [h.eqv]
theorem Quiet.loStage {s t : State} (h : Quiet s t) : t.loStage = s.loStage := by rw [h.eqv]
theorem Quiet.padWritten {s t : State} (h : Quiet s t) : t.padWritten = s.padWritten := by rw [h.eqv]
theorem Quiet.eccBad {s t : State} (h : Quiet s t) : t.eccBad = s.eccBad := by rw [h.eqv]
theorem Quiet.ym {s t : State} (h : Quiet s t) : t.ym = s.ym := by rw [h.eqv]
theorem Quiet.railPass {s t : State} (h : Quiet s t) : t.railPass = s.railPass := by rw [h.eqv]
theorem Quiet.urgentRails {s t : State} (h : Quiet s t) : t.urgentRails = s.urgentRails := by rw [h.eqv]
theorem Quiet.lateTargets {s t : State} (h : Quiet s t) : t.lateTargets = s.lateTargets := by rw [h.eqv]
theorem Quiet.engineOut {s t : State} (h : Quiet s t) : t.engineOut = s.engineOut := by rw [h.eqv]
theorem Quiet.noRandom {s t : State} (h : Quiet s t) : t.noRandom = s.noRandom := by rw [h.eqv]
theorem Quiet.answer {s t : State} (h : Quiet s t) : t.answer = s.answer := by rw [h.eqv]
theorem Quiet.draws {s t : State} (h : Quiet s t) : t.draws = s.draws := by rw [h.eqv]
theorem Quiet.pending {s t : State} (h : Quiet s t) : t.pending = s.pending := by rw [h.eqv]

/-! State.report -/

theorem State.report_rd (s : State) (u c p d : Nat) (o : Nat) (h : quietOff o) : (s.report u c p d).rd o = s.rd o := (report_quiet s u c p d).rd o h
theorem State.report_getF (s : State) (u c p d : Nat) (f : Fld) (h : quietOff f.off) : (s.report u c p d).getF f = s.getF f := by unfold State.getF; rw [(report_quiet s u c p d).rd _ h]
@[simp] theorem State.report_mem (s : State) (u c p d : Nat) : (s.report u c p d).mem = s.mem := (report_quiet s u c p d).mem
@[simp] theorem State.report_pos (s : State) (u c p d : Nat) : (s.report u c p d).pos = s.pos := (report_quiet s u c p d).pos
@[simp] theorem State.report_now (s : State) (u c p d : Nat) : (s.report u c p d).now = s.now := (report_quiet s u c p d).now
@[simp] theorem State.report_ports (s : State) (u c p d : Nat) : (s.report u c p d).ports = s.ports := (report_quiet s u c p d).ports
@[simp] theorem State.report_refLost (s : State) (u c p d : Nat) : (s.report u c p d).refLost = s.refLost := (report_quiet s u c p d).refLost
@[simp] theorem State.report_sysLost (s : State) (u c p d : Nat) : (s.report u c p d).sysLost = s.sysLost := (report_quiet s u c p d).sysLost
@[simp] theorem State.report_gateProg (s : State) (u c p d : Nat) : (s.report u c p d).gateProg = s.gateProg := (report_quiet s u c p d).gateProg
@[simp] theorem State.report_gateExact (s : State) (u c p d : Nat) : (s.report u c p d).gateExact = s.gateExact := (report_quiet s u c p d).gateExact
@[simp] theorem State.report_gateTern (s : State) (u c p d : Nat) : (s.report u c p d).gateTern = s.gateTern := (report_quiet s u c p d).gateTern
@[simp] theorem State.report_gateQ (s : State) (u c p d : Nat) : (s.report u c p d).gateQ = s.gateQ := (report_quiet s u c p d).gateQ
@[simp] theorem State.report_units (s : State) (u c p d : Nat) : (s.report u c p d).units = s.units := (report_quiet s u c p d).units
@[simp] theorem State.report_pend (s : State) (u c p d : Nat) : (s.report u c p d).pend = s.pend := (report_quiet s u c p d).pend
@[simp] theorem State.report_inq (s : State) (u c p d : Nat) : (s.report u c p d).inq = s.inq := (report_quiet s u c p d).inq
@[simp] theorem State.report_changes (s : State) (u c p d : Nat) : (s.report u c p d).changes = s.changes := (report_quiet s u c p d).changes
@[simp] theorem State.report_punt (s : State) (u c p d : Nat) : (s.report u c p d).punt = s.punt := (report_quiet s u c p d).punt
@[simp] theorem State.report_clearTx (s : State) (u c p d : Nat) : (s.report u c p d).clearTx = s.clearTx := (report_quiet s u c p d).clearTx
@[simp] theorem State.report_hostMem (s : State) (u c p d : Nat) : (s.report u c p d).hostMem = s.hostMem := (report_quiet s u c p d).hostMem
@[simp] theorem State.report_chans (s : State) (u c p d : Nat) : (s.report u c p d).chans = s.chans := (report_quiet s u c p d).chans
@[simp] theorem State.report_tack (s : State) (u c p d : Nat) : (s.report u c p d).tack = s.tack := (report_quiet s u c p d).tack
@[simp] theorem State.report_brTx (s : State) (u c p d : Nat) : (s.report u c p d).brTx = s.brTx := (report_quiet s u c p d).brTx
@[simp] theorem State.report_brIn (s : State) (u c p d : Nat) : (s.report u c p d).brIn = s.brIn := (report_quiet s u c p d).brIn
@[simp] theorem State.report_loftQ (s : State) (u c p d : Nat) : (s.report u c p d).loftQ = s.loftQ := (report_quiet s u c p d).loftQ
@[simp] theorem State.report_wear (s : State) (u c p d : Nat) : (s.report u c p d).wear = s.wear := (report_quiet s u c p d).wear
@[simp] theorem State.report_loftBad (s : State) (u c p d : Nat) : (s.report u c p d).loftBad = s.loftBad := (report_quiet s u c p d).loftBad
@[simp] theorem State.report_loftWarned (s : State) (u c p d : Nat) : (s.report u c p d).loftWarned = s.loftWarned := (report_quiet s u c p d).loftWarned
@[simp] theorem State.report_twin (s : State) (u c p d : Nat) : (s.report u c p d).twin = s.twin := (report_quiet s u c p d).twin
@[simp] theorem State.report_fab (s : State) (u c p d : Nat) : (s.report u c p d).fab = s.fab := (report_quiet s u c p d).fab
@[simp] theorem State.report_tally (s : State) (u c p d : Nat) : (s.report u c p d).tally = s.tally := (report_quiet s u c p d).tally
@[simp] theorem State.report_power (s : State) (u c p d : Nat) : (s.report u c p d).power = s.power := (report_quiet s u c p d).power
@[simp] theorem State.report_cores (s : State) (u c p d : Nat) : (s.report u c p d).cores = s.cores := (report_quiet s u c p d).cores
@[simp] theorem State.report_config (s : State) (u c p d : Nat) : (s.report u c p d).config = s.config := (report_quiet s u c p d).config
@[simp] theorem State.report_untested (s : State) (u c p d : Nat) : (s.report u c p d).untested = s.untested := (report_quiet s u c p d).untested
@[simp] theorem State.report_hiLatch (s : State) (u c p d : Nat) : (s.report u c p d).hiLatch = s.hiLatch := (report_quiet s u c p d).hiLatch
@[simp] theorem State.report_loStage (s : State) (u c p d : Nat) : (s.report u c p d).loStage = s.loStage := (report_quiet s u c p d).loStage
@[simp] theorem State.report_padWritten (s : State) (u c p d : Nat) : (s.report u c p d).padWritten = s.padWritten := (report_quiet s u c p d).padWritten
@[simp] theorem State.report_eccBad (s : State) (u c p d : Nat) : (s.report u c p d).eccBad = s.eccBad := (report_quiet s u c p d).eccBad
@[simp] theorem State.report_ym (s : State) (u c p d : Nat) : (s.report u c p d).ym = s.ym := (report_quiet s u c p d).ym
@[simp] theorem State.report_railPass (s : State) (u c p d : Nat) : (s.report u c p d).railPass = s.railPass := (report_quiet s u c p d).railPass
@[simp] theorem State.report_urgentRails (s : State) (u c p d : Nat) : (s.report u c p d).urgentRails = s.urgentRails := (report_quiet s u c p d).urgentRails
@[simp] theorem State.report_lateTargets (s : State) (u c p d : Nat) : (s.report u c p d).lateTargets = s.lateTargets := (report_quiet s u c p d).lateTargets
@[simp] theorem State.report_engineOut (s : State) (u c p d : Nat) : (s.report u c p d).engineOut = s.engineOut := (report_quiet s u c p d).engineOut
@[simp] theorem State.report_noRandom (s : State) (u c p d : Nat) : (s.report u c p d).noRandom = s.noRandom := (report_quiet s u c p d).noRandom
@[simp] theorem State.report_answer (s : State) (u c p d : Nat) : (s.report u c p d).answer = s.answer := (report_quiet s u c p d).answer
@[simp] theorem State.report_draws (s : State) (u c p d : Nat) : (s.report u c p d).draws = s.draws := (report_quiet s u c p d).draws
@[simp] theorem State.report_pending (s : State) (u c p d : Nat) : (s.report u c p d).pending = s.pending := (report_quiet s u c p d).pending

/-! bellPulse -/

theorem bellPulse_rd (n : Nat) (s : State) (o : Nat) (h : quietOff o) : (bellPulse n s).rd o = s.rd o := (bellPulse_quiet n s).rd o h
theorem bellPulse_getF (n : Nat) (s : State) (f : Fld) (h : quietOff f.off) : (bellPulse n s).getF f = s.getF f := by unfold State.getF; rw [(bellPulse_quiet n s).rd _ h]
@[simp] theorem bellPulse_mem (n : Nat) (s : State) : (bellPulse n s).mem = s.mem := (bellPulse_quiet n s).mem
@[simp] theorem bellPulse_pos (n : Nat) (s : State) : (bellPulse n s).pos = s.pos := (bellPulse_quiet n s).pos
@[simp] theorem bellPulse_now (n : Nat) (s : State) : (bellPulse n s).now = s.now := (bellPulse_quiet n s).now
@[simp] theorem bellPulse_ports (n : Nat) (s : State) : (bellPulse n s).ports = s.ports := (bellPulse_quiet n s).ports
@[simp] theorem bellPulse_refLost (n : Nat) (s : State) : (bellPulse n s).refLost = s.refLost := (bellPulse_quiet n s).refLost
@[simp] theorem bellPulse_sysLost (n : Nat) (s : State) : (bellPulse n s).sysLost = s.sysLost := (bellPulse_quiet n s).sysLost
@[simp] theorem bellPulse_gateProg (n : Nat) (s : State) : (bellPulse n s).gateProg = s.gateProg := (bellPulse_quiet n s).gateProg
@[simp] theorem bellPulse_gateExact (n : Nat) (s : State) : (bellPulse n s).gateExact = s.gateExact := (bellPulse_quiet n s).gateExact
@[simp] theorem bellPulse_gateTern (n : Nat) (s : State) : (bellPulse n s).gateTern = s.gateTern := (bellPulse_quiet n s).gateTern
@[simp] theorem bellPulse_gateQ (n : Nat) (s : State) : (bellPulse n s).gateQ = s.gateQ := (bellPulse_quiet n s).gateQ
@[simp] theorem bellPulse_units (n : Nat) (s : State) : (bellPulse n s).units = s.units := (bellPulse_quiet n s).units
@[simp] theorem bellPulse_pend (n : Nat) (s : State) : (bellPulse n s).pend = s.pend := (bellPulse_quiet n s).pend
@[simp] theorem bellPulse_inq (n : Nat) (s : State) : (bellPulse n s).inq = s.inq := (bellPulse_quiet n s).inq
@[simp] theorem bellPulse_changes (n : Nat) (s : State) : (bellPulse n s).changes = s.changes := (bellPulse_quiet n s).changes
@[simp] theorem bellPulse_punt (n : Nat) (s : State) : (bellPulse n s).punt = s.punt := (bellPulse_quiet n s).punt
@[simp] theorem bellPulse_clearTx (n : Nat) (s : State) : (bellPulse n s).clearTx = s.clearTx := (bellPulse_quiet n s).clearTx
@[simp] theorem bellPulse_hostMem (n : Nat) (s : State) : (bellPulse n s).hostMem = s.hostMem := (bellPulse_quiet n s).hostMem
@[simp] theorem bellPulse_chans (n : Nat) (s : State) : (bellPulse n s).chans = s.chans := (bellPulse_quiet n s).chans
@[simp] theorem bellPulse_tack (n : Nat) (s : State) : (bellPulse n s).tack = s.tack := (bellPulse_quiet n s).tack
@[simp] theorem bellPulse_brTx (n : Nat) (s : State) : (bellPulse n s).brTx = s.brTx := (bellPulse_quiet n s).brTx
@[simp] theorem bellPulse_brIn (n : Nat) (s : State) : (bellPulse n s).brIn = s.brIn := (bellPulse_quiet n s).brIn
@[simp] theorem bellPulse_loftQ (n : Nat) (s : State) : (bellPulse n s).loftQ = s.loftQ := (bellPulse_quiet n s).loftQ
@[simp] theorem bellPulse_wear (n : Nat) (s : State) : (bellPulse n s).wear = s.wear := (bellPulse_quiet n s).wear
@[simp] theorem bellPulse_loftBad (n : Nat) (s : State) : (bellPulse n s).loftBad = s.loftBad := (bellPulse_quiet n s).loftBad
@[simp] theorem bellPulse_loftWarned (n : Nat) (s : State) : (bellPulse n s).loftWarned = s.loftWarned := (bellPulse_quiet n s).loftWarned
@[simp] theorem bellPulse_twin (n : Nat) (s : State) : (bellPulse n s).twin = s.twin := (bellPulse_quiet n s).twin
@[simp] theorem bellPulse_fab (n : Nat) (s : State) : (bellPulse n s).fab = s.fab := (bellPulse_quiet n s).fab
@[simp] theorem bellPulse_tally (n : Nat) (s : State) : (bellPulse n s).tally = s.tally := (bellPulse_quiet n s).tally
@[simp] theorem bellPulse_power (n : Nat) (s : State) : (bellPulse n s).power = s.power := (bellPulse_quiet n s).power
@[simp] theorem bellPulse_cores (n : Nat) (s : State) : (bellPulse n s).cores = s.cores := (bellPulse_quiet n s).cores
@[simp] theorem bellPulse_config (n : Nat) (s : State) : (bellPulse n s).config = s.config := (bellPulse_quiet n s).config
@[simp] theorem bellPulse_untested (n : Nat) (s : State) : (bellPulse n s).untested = s.untested := (bellPulse_quiet n s).untested
@[simp] theorem bellPulse_hiLatch (n : Nat) (s : State) : (bellPulse n s).hiLatch = s.hiLatch := (bellPulse_quiet n s).hiLatch
@[simp] theorem bellPulse_loStage (n : Nat) (s : State) : (bellPulse n s).loStage = s.loStage := (bellPulse_quiet n s).loStage
@[simp] theorem bellPulse_padWritten (n : Nat) (s : State) : (bellPulse n s).padWritten = s.padWritten := (bellPulse_quiet n s).padWritten
@[simp] theorem bellPulse_eccBad (n : Nat) (s : State) : (bellPulse n s).eccBad = s.eccBad := (bellPulse_quiet n s).eccBad
@[simp] theorem bellPulse_ym (n : Nat) (s : State) : (bellPulse n s).ym = s.ym := (bellPulse_quiet n s).ym
@[simp] theorem bellPulse_railPass (n : Nat) (s : State) : (bellPulse n s).railPass = s.railPass := (bellPulse_quiet n s).railPass
@[simp] theorem bellPulse_urgentRails (n : Nat) (s : State) : (bellPulse n s).urgentRails = s.urgentRails := (bellPulse_quiet n s).urgentRails
@[simp] theorem bellPulse_lateTargets (n : Nat) (s : State) : (bellPulse n s).lateTargets = s.lateTargets := (bellPulse_quiet n s).lateTargets
@[simp] theorem bellPulse_engineOut (n : Nat) (s : State) : (bellPulse n s).engineOut = s.engineOut := (bellPulse_quiet n s).engineOut
@[simp] theorem bellPulse_noRandom (n : Nat) (s : State) : (bellPulse n s).noRandom = s.noRandom := (bellPulse_quiet n s).noRandom
@[simp] theorem bellPulse_answer (n : Nat) (s : State) : (bellPulse n s).answer = s.answer := (bellPulse_quiet n s).answer
@[simp] theorem bellPulse_draws (n : Nat) (s : State) : (bellPulse n s).draws = s.draws := (bellPulse_quiet n s).draws
@[simp] theorem bellPulse_pending (n : Nat) (s : State) : (bellPulse n s).pending = s.pending := (bellPulse_quiet n s).pending

/-! bellInput -/

theorem bellInput_rd (n : Nat) (l : Bool) (s : State) (o : Nat) (h : quietOff o) : (bellInput n l s).rd o = s.rd o := (bellInput_quiet n l s).rd o h
theorem bellInput_getF (n : Nat) (l : Bool) (s : State) (f : Fld) (h : quietOff f.off) : (bellInput n l s).getF f = s.getF f := by unfold State.getF; rw [(bellInput_quiet n l s).rd _ h]
@[simp] theorem bellInput_mem (n : Nat) (l : Bool) (s : State) : (bellInput n l s).mem = s.mem := (bellInput_quiet n l s).mem
@[simp] theorem bellInput_pos (n : Nat) (l : Bool) (s : State) : (bellInput n l s).pos = s.pos := (bellInput_quiet n l s).pos
@[simp] theorem bellInput_now (n : Nat) (l : Bool) (s : State) : (bellInput n l s).now = s.now := (bellInput_quiet n l s).now
@[simp] theorem bellInput_ports (n : Nat) (l : Bool) (s : State) : (bellInput n l s).ports = s.ports := (bellInput_quiet n l s).ports
@[simp] theorem bellInput_refLost (n : Nat) (l : Bool) (s : State) : (bellInput n l s).refLost = s.refLost := (bellInput_quiet n l s).refLost
@[simp] theorem bellInput_sysLost (n : Nat) (l : Bool) (s : State) : (bellInput n l s).sysLost = s.sysLost := (bellInput_quiet n l s).sysLost
@[simp] theorem bellInput_gateProg (n : Nat) (l : Bool) (s : State) : (bellInput n l s).gateProg = s.gateProg := (bellInput_quiet n l s).gateProg
@[simp] theorem bellInput_gateExact (n : Nat) (l : Bool) (s : State) : (bellInput n l s).gateExact = s.gateExact := (bellInput_quiet n l s).gateExact
@[simp] theorem bellInput_gateTern (n : Nat) (l : Bool) (s : State) : (bellInput n l s).gateTern = s.gateTern := (bellInput_quiet n l s).gateTern
@[simp] theorem bellInput_gateQ (n : Nat) (l : Bool) (s : State) : (bellInput n l s).gateQ = s.gateQ := (bellInput_quiet n l s).gateQ
@[simp] theorem bellInput_units (n : Nat) (l : Bool) (s : State) : (bellInput n l s).units = s.units := (bellInput_quiet n l s).units
@[simp] theorem bellInput_pend (n : Nat) (l : Bool) (s : State) : (bellInput n l s).pend = s.pend := (bellInput_quiet n l s).pend
@[simp] theorem bellInput_inq (n : Nat) (l : Bool) (s : State) : (bellInput n l s).inq = s.inq := (bellInput_quiet n l s).inq
@[simp] theorem bellInput_changes (n : Nat) (l : Bool) (s : State) : (bellInput n l s).changes = s.changes := (bellInput_quiet n l s).changes
@[simp] theorem bellInput_punt (n : Nat) (l : Bool) (s : State) : (bellInput n l s).punt = s.punt := (bellInput_quiet n l s).punt
@[simp] theorem bellInput_clearTx (n : Nat) (l : Bool) (s : State) : (bellInput n l s).clearTx = s.clearTx := (bellInput_quiet n l s).clearTx
@[simp] theorem bellInput_hostMem (n : Nat) (l : Bool) (s : State) : (bellInput n l s).hostMem = s.hostMem := (bellInput_quiet n l s).hostMem
@[simp] theorem bellInput_chans (n : Nat) (l : Bool) (s : State) : (bellInput n l s).chans = s.chans := (bellInput_quiet n l s).chans
@[simp] theorem bellInput_tack (n : Nat) (l : Bool) (s : State) : (bellInput n l s).tack = s.tack := (bellInput_quiet n l s).tack
@[simp] theorem bellInput_brTx (n : Nat) (l : Bool) (s : State) : (bellInput n l s).brTx = s.brTx := (bellInput_quiet n l s).brTx
@[simp] theorem bellInput_brIn (n : Nat) (l : Bool) (s : State) : (bellInput n l s).brIn = s.brIn := (bellInput_quiet n l s).brIn
@[simp] theorem bellInput_loftQ (n : Nat) (l : Bool) (s : State) : (bellInput n l s).loftQ = s.loftQ := (bellInput_quiet n l s).loftQ
@[simp] theorem bellInput_wear (n : Nat) (l : Bool) (s : State) : (bellInput n l s).wear = s.wear := (bellInput_quiet n l s).wear
@[simp] theorem bellInput_loftBad (n : Nat) (l : Bool) (s : State) : (bellInput n l s).loftBad = s.loftBad := (bellInput_quiet n l s).loftBad
@[simp] theorem bellInput_loftWarned (n : Nat) (l : Bool) (s : State) : (bellInput n l s).loftWarned = s.loftWarned := (bellInput_quiet n l s).loftWarned
@[simp] theorem bellInput_twin (n : Nat) (l : Bool) (s : State) : (bellInput n l s).twin = s.twin := (bellInput_quiet n l s).twin
@[simp] theorem bellInput_fab (n : Nat) (l : Bool) (s : State) : (bellInput n l s).fab = s.fab := (bellInput_quiet n l s).fab
@[simp] theorem bellInput_tally (n : Nat) (l : Bool) (s : State) : (bellInput n l s).tally = s.tally := (bellInput_quiet n l s).tally
@[simp] theorem bellInput_power (n : Nat) (l : Bool) (s : State) : (bellInput n l s).power = s.power := (bellInput_quiet n l s).power
@[simp] theorem bellInput_cores (n : Nat) (l : Bool) (s : State) : (bellInput n l s).cores = s.cores := (bellInput_quiet n l s).cores
@[simp] theorem bellInput_config (n : Nat) (l : Bool) (s : State) : (bellInput n l s).config = s.config := (bellInput_quiet n l s).config
@[simp] theorem bellInput_untested (n : Nat) (l : Bool) (s : State) : (bellInput n l s).untested = s.untested := (bellInput_quiet n l s).untested
@[simp] theorem bellInput_hiLatch (n : Nat) (l : Bool) (s : State) : (bellInput n l s).hiLatch = s.hiLatch := (bellInput_quiet n l s).hiLatch
@[simp] theorem bellInput_loStage (n : Nat) (l : Bool) (s : State) : (bellInput n l s).loStage = s.loStage := (bellInput_quiet n l s).loStage
@[simp] theorem bellInput_padWritten (n : Nat) (l : Bool) (s : State) : (bellInput n l s).padWritten = s.padWritten := (bellInput_quiet n l s).padWritten
@[simp] theorem bellInput_eccBad (n : Nat) (l : Bool) (s : State) : (bellInput n l s).eccBad = s.eccBad := (bellInput_quiet n l s).eccBad
@[simp] theorem bellInput_ym (n : Nat) (l : Bool) (s : State) : (bellInput n l s).ym = s.ym := (bellInput_quiet n l s).ym
@[simp] theorem bellInput_railPass (n : Nat) (l : Bool) (s : State) : (bellInput n l s).railPass = s.railPass := (bellInput_quiet n l s).railPass
@[simp] theorem bellInput_urgentRails (n : Nat) (l : Bool) (s : State) : (bellInput n l s).urgentRails = s.urgentRails := (bellInput_quiet n l s).urgentRails
@[simp] theorem bellInput_lateTargets (n : Nat) (l : Bool) (s : State) : (bellInput n l s).lateTargets = s.lateTargets := (bellInput_quiet n l s).lateTargets
@[simp] theorem bellInput_engineOut (n : Nat) (l : Bool) (s : State) : (bellInput n l s).engineOut = s.engineOut := (bellInput_quiet n l s).engineOut
@[simp] theorem bellInput_noRandom (n : Nat) (l : Bool) (s : State) : (bellInput n l s).noRandom = s.noRandom := (bellInput_quiet n l s).noRandom
@[simp] theorem bellInput_answer (n : Nat) (l : Bool) (s : State) : (bellInput n l s).answer = s.answer := (bellInput_quiet n l s).answer
@[simp] theorem bellInput_draws (n : Nat) (l : Bool) (s : State) : (bellInput n l s).draws = s.draws := (bellInput_quiet n l s).draws
@[simp] theorem bellInput_pending (n : Nat) (l : Bool) (s : State) : (bellInput n l s).pending = s.pending := (bellInput_quiet n l s).pending

/-! bellSetPend -/

theorem bellSetPend_rd (n : Nat) (l : Bool) (s : State) (o : Nat) (h : quietOff o) : (bellSetPend n l s).rd o = s.rd o := (bellSetPend_quiet n l s).rd o h
theorem bellSetPend_getF (n : Nat) (l : Bool) (s : State) (f : Fld) (h : quietOff f.off) : (bellSetPend n l s).getF f = s.getF f := by unfold State.getF; rw [(bellSetPend_quiet n l s).rd _ h]
@[simp] theorem bellSetPend_mem (n : Nat) (l : Bool) (s : State) : (bellSetPend n l s).mem = s.mem := (bellSetPend_quiet n l s).mem
@[simp] theorem bellSetPend_pos (n : Nat) (l : Bool) (s : State) : (bellSetPend n l s).pos = s.pos := (bellSetPend_quiet n l s).pos
@[simp] theorem bellSetPend_now (n : Nat) (l : Bool) (s : State) : (bellSetPend n l s).now = s.now := (bellSetPend_quiet n l s).now
@[simp] theorem bellSetPend_ports (n : Nat) (l : Bool) (s : State) : (bellSetPend n l s).ports = s.ports := (bellSetPend_quiet n l s).ports
@[simp] theorem bellSetPend_refLost (n : Nat) (l : Bool) (s : State) : (bellSetPend n l s).refLost = s.refLost := (bellSetPend_quiet n l s).refLost
@[simp] theorem bellSetPend_sysLost (n : Nat) (l : Bool) (s : State) : (bellSetPend n l s).sysLost = s.sysLost := (bellSetPend_quiet n l s).sysLost
@[simp] theorem bellSetPend_gateProg (n : Nat) (l : Bool) (s : State) : (bellSetPend n l s).gateProg = s.gateProg := (bellSetPend_quiet n l s).gateProg
@[simp] theorem bellSetPend_gateExact (n : Nat) (l : Bool) (s : State) : (bellSetPend n l s).gateExact = s.gateExact := (bellSetPend_quiet n l s).gateExact
@[simp] theorem bellSetPend_gateTern (n : Nat) (l : Bool) (s : State) : (bellSetPend n l s).gateTern = s.gateTern := (bellSetPend_quiet n l s).gateTern
@[simp] theorem bellSetPend_gateQ (n : Nat) (l : Bool) (s : State) : (bellSetPend n l s).gateQ = s.gateQ := (bellSetPend_quiet n l s).gateQ
@[simp] theorem bellSetPend_units (n : Nat) (l : Bool) (s : State) : (bellSetPend n l s).units = s.units := (bellSetPend_quiet n l s).units
@[simp] theorem bellSetPend_pend (n : Nat) (l : Bool) (s : State) : (bellSetPend n l s).pend = s.pend := (bellSetPend_quiet n l s).pend
@[simp] theorem bellSetPend_inq (n : Nat) (l : Bool) (s : State) : (bellSetPend n l s).inq = s.inq := (bellSetPend_quiet n l s).inq
@[simp] theorem bellSetPend_changes (n : Nat) (l : Bool) (s : State) : (bellSetPend n l s).changes = s.changes := (bellSetPend_quiet n l s).changes
@[simp] theorem bellSetPend_punt (n : Nat) (l : Bool) (s : State) : (bellSetPend n l s).punt = s.punt := (bellSetPend_quiet n l s).punt
@[simp] theorem bellSetPend_clearTx (n : Nat) (l : Bool) (s : State) : (bellSetPend n l s).clearTx = s.clearTx := (bellSetPend_quiet n l s).clearTx
@[simp] theorem bellSetPend_hostMem (n : Nat) (l : Bool) (s : State) : (bellSetPend n l s).hostMem = s.hostMem := (bellSetPend_quiet n l s).hostMem
@[simp] theorem bellSetPend_chans (n : Nat) (l : Bool) (s : State) : (bellSetPend n l s).chans = s.chans := (bellSetPend_quiet n l s).chans
@[simp] theorem bellSetPend_tack (n : Nat) (l : Bool) (s : State) : (bellSetPend n l s).tack = s.tack := (bellSetPend_quiet n l s).tack
@[simp] theorem bellSetPend_brTx (n : Nat) (l : Bool) (s : State) : (bellSetPend n l s).brTx = s.brTx := (bellSetPend_quiet n l s).brTx
@[simp] theorem bellSetPend_brIn (n : Nat) (l : Bool) (s : State) : (bellSetPend n l s).brIn = s.brIn := (bellSetPend_quiet n l s).brIn
@[simp] theorem bellSetPend_loftQ (n : Nat) (l : Bool) (s : State) : (bellSetPend n l s).loftQ = s.loftQ := (bellSetPend_quiet n l s).loftQ
@[simp] theorem bellSetPend_wear (n : Nat) (l : Bool) (s : State) : (bellSetPend n l s).wear = s.wear := (bellSetPend_quiet n l s).wear
@[simp] theorem bellSetPend_loftBad (n : Nat) (l : Bool) (s : State) : (bellSetPend n l s).loftBad = s.loftBad := (bellSetPend_quiet n l s).loftBad
@[simp] theorem bellSetPend_loftWarned (n : Nat) (l : Bool) (s : State) : (bellSetPend n l s).loftWarned = s.loftWarned := (bellSetPend_quiet n l s).loftWarned
@[simp] theorem bellSetPend_twin (n : Nat) (l : Bool) (s : State) : (bellSetPend n l s).twin = s.twin := (bellSetPend_quiet n l s).twin
@[simp] theorem bellSetPend_fab (n : Nat) (l : Bool) (s : State) : (bellSetPend n l s).fab = s.fab := (bellSetPend_quiet n l s).fab
@[simp] theorem bellSetPend_tally (n : Nat) (l : Bool) (s : State) : (bellSetPend n l s).tally = s.tally := (bellSetPend_quiet n l s).tally
@[simp] theorem bellSetPend_power (n : Nat) (l : Bool) (s : State) : (bellSetPend n l s).power = s.power := (bellSetPend_quiet n l s).power
@[simp] theorem bellSetPend_cores (n : Nat) (l : Bool) (s : State) : (bellSetPend n l s).cores = s.cores := (bellSetPend_quiet n l s).cores
@[simp] theorem bellSetPend_config (n : Nat) (l : Bool) (s : State) : (bellSetPend n l s).config = s.config := (bellSetPend_quiet n l s).config
@[simp] theorem bellSetPend_untested (n : Nat) (l : Bool) (s : State) : (bellSetPend n l s).untested = s.untested := (bellSetPend_quiet n l s).untested
@[simp] theorem bellSetPend_hiLatch (n : Nat) (l : Bool) (s : State) : (bellSetPend n l s).hiLatch = s.hiLatch := (bellSetPend_quiet n l s).hiLatch
@[simp] theorem bellSetPend_loStage (n : Nat) (l : Bool) (s : State) : (bellSetPend n l s).loStage = s.loStage := (bellSetPend_quiet n l s).loStage
@[simp] theorem bellSetPend_padWritten (n : Nat) (l : Bool) (s : State) : (bellSetPend n l s).padWritten = s.padWritten := (bellSetPend_quiet n l s).padWritten
@[simp] theorem bellSetPend_eccBad (n : Nat) (l : Bool) (s : State) : (bellSetPend n l s).eccBad = s.eccBad := (bellSetPend_quiet n l s).eccBad
@[simp] theorem bellSetPend_ym (n : Nat) (l : Bool) (s : State) : (bellSetPend n l s).ym = s.ym := (bellSetPend_quiet n l s).ym
@[simp] theorem bellSetPend_railPass (n : Nat) (l : Bool) (s : State) : (bellSetPend n l s).railPass = s.railPass := (bellSetPend_quiet n l s).railPass
@[simp] theorem bellSetPend_urgentRails (n : Nat) (l : Bool) (s : State) : (bellSetPend n l s).urgentRails = s.urgentRails := (bellSetPend_quiet n l s).urgentRails
@[simp] theorem bellSetPend_lateTargets (n : Nat) (l : Bool) (s : State) : (bellSetPend n l s).lateTargets = s.lateTargets := (bellSetPend_quiet n l s).lateTargets
@[simp] theorem bellSetPend_engineOut (n : Nat) (l : Bool) (s : State) : (bellSetPend n l s).engineOut = s.engineOut := (bellSetPend_quiet n l s).engineOut
@[simp] theorem bellSetPend_noRandom (n : Nat) (l : Bool) (s : State) : (bellSetPend n l s).noRandom = s.noRandom := (bellSetPend_quiet n l s).noRandom
@[simp] theorem bellSetPend_answer (n : Nat) (l : Bool) (s : State) : (bellSetPend n l s).answer = s.answer := (bellSetPend_quiet n l s).answer
@[simp] theorem bellSetPend_draws (n : Nat) (l : Bool) (s : State) : (bellSetPend n l s).draws = s.draws := (bellSetPend_quiet n l s).draws
@[simp] theorem bellSetPend_pending (n : Nat) (l : Bool) (s : State) : (bellSetPend n l s).pending = s.pending := (bellSetPend_quiet n l s).pending

/-! bellRefresh -/

theorem bellRefresh_rd (s : State) (o : Nat) (h : quietOff o) : (bellRefresh s).rd o = s.rd o := (bellRefresh_quiet s).rd o h
theorem bellRefresh_getF (s : State) (f : Fld) (h : quietOff f.off) : (bellRefresh s).getF f = s.getF f := by unfold State.getF; rw [(bellRefresh_quiet s).rd _ h]
@[simp] theorem bellRefresh_mem (s : State) : (bellRefresh s).mem = s.mem := (bellRefresh_quiet s).mem
@[simp] theorem bellRefresh_pos (s : State) : (bellRefresh s).pos = s.pos := (bellRefresh_quiet s).pos
@[simp] theorem bellRefresh_now (s : State) : (bellRefresh s).now = s.now := (bellRefresh_quiet s).now
@[simp] theorem bellRefresh_ports (s : State) : (bellRefresh s).ports = s.ports := (bellRefresh_quiet s).ports
@[simp] theorem bellRefresh_refLost (s : State) : (bellRefresh s).refLost = s.refLost := (bellRefresh_quiet s).refLost
@[simp] theorem bellRefresh_sysLost (s : State) : (bellRefresh s).sysLost = s.sysLost := (bellRefresh_quiet s).sysLost
@[simp] theorem bellRefresh_gateProg (s : State) : (bellRefresh s).gateProg = s.gateProg := (bellRefresh_quiet s).gateProg
@[simp] theorem bellRefresh_gateExact (s : State) : (bellRefresh s).gateExact = s.gateExact := (bellRefresh_quiet s).gateExact
@[simp] theorem bellRefresh_gateTern (s : State) : (bellRefresh s).gateTern = s.gateTern := (bellRefresh_quiet s).gateTern
@[simp] theorem bellRefresh_gateQ (s : State) : (bellRefresh s).gateQ = s.gateQ := (bellRefresh_quiet s).gateQ
@[simp] theorem bellRefresh_units (s : State) : (bellRefresh s).units = s.units := (bellRefresh_quiet s).units
@[simp] theorem bellRefresh_pend (s : State) : (bellRefresh s).pend = s.pend := (bellRefresh_quiet s).pend
@[simp] theorem bellRefresh_inq (s : State) : (bellRefresh s).inq = s.inq := (bellRefresh_quiet s).inq
@[simp] theorem bellRefresh_changes (s : State) : (bellRefresh s).changes = s.changes := (bellRefresh_quiet s).changes
@[simp] theorem bellRefresh_punt (s : State) : (bellRefresh s).punt = s.punt := (bellRefresh_quiet s).punt
@[simp] theorem bellRefresh_clearTx (s : State) : (bellRefresh s).clearTx = s.clearTx := (bellRefresh_quiet s).clearTx
@[simp] theorem bellRefresh_hostMem (s : State) : (bellRefresh s).hostMem = s.hostMem := (bellRefresh_quiet s).hostMem
@[simp] theorem bellRefresh_chans (s : State) : (bellRefresh s).chans = s.chans := (bellRefresh_quiet s).chans
@[simp] theorem bellRefresh_tack (s : State) : (bellRefresh s).tack = s.tack := (bellRefresh_quiet s).tack
@[simp] theorem bellRefresh_brTx (s : State) : (bellRefresh s).brTx = s.brTx := (bellRefresh_quiet s).brTx
@[simp] theorem bellRefresh_brIn (s : State) : (bellRefresh s).brIn = s.brIn := (bellRefresh_quiet s).brIn
@[simp] theorem bellRefresh_loftQ (s : State) : (bellRefresh s).loftQ = s.loftQ := (bellRefresh_quiet s).loftQ
@[simp] theorem bellRefresh_wear (s : State) : (bellRefresh s).wear = s.wear := (bellRefresh_quiet s).wear
@[simp] theorem bellRefresh_loftBad (s : State) : (bellRefresh s).loftBad = s.loftBad := (bellRefresh_quiet s).loftBad
@[simp] theorem bellRefresh_loftWarned (s : State) : (bellRefresh s).loftWarned = s.loftWarned := (bellRefresh_quiet s).loftWarned
@[simp] theorem bellRefresh_twin (s : State) : (bellRefresh s).twin = s.twin := (bellRefresh_quiet s).twin
@[simp] theorem bellRefresh_fab (s : State) : (bellRefresh s).fab = s.fab := (bellRefresh_quiet s).fab
@[simp] theorem bellRefresh_tally (s : State) : (bellRefresh s).tally = s.tally := (bellRefresh_quiet s).tally
@[simp] theorem bellRefresh_power (s : State) : (bellRefresh s).power = s.power := (bellRefresh_quiet s).power
@[simp] theorem bellRefresh_cores (s : State) : (bellRefresh s).cores = s.cores := (bellRefresh_quiet s).cores
@[simp] theorem bellRefresh_config (s : State) : (bellRefresh s).config = s.config := (bellRefresh_quiet s).config
@[simp] theorem bellRefresh_untested (s : State) : (bellRefresh s).untested = s.untested := (bellRefresh_quiet s).untested
@[simp] theorem bellRefresh_hiLatch (s : State) : (bellRefresh s).hiLatch = s.hiLatch := (bellRefresh_quiet s).hiLatch
@[simp] theorem bellRefresh_loStage (s : State) : (bellRefresh s).loStage = s.loStage := (bellRefresh_quiet s).loStage
@[simp] theorem bellRefresh_padWritten (s : State) : (bellRefresh s).padWritten = s.padWritten := (bellRefresh_quiet s).padWritten
@[simp] theorem bellRefresh_eccBad (s : State) : (bellRefresh s).eccBad = s.eccBad := (bellRefresh_quiet s).eccBad
@[simp] theorem bellRefresh_ym (s : State) : (bellRefresh s).ym = s.ym := (bellRefresh_quiet s).ym
@[simp] theorem bellRefresh_railPass (s : State) : (bellRefresh s).railPass = s.railPass := (bellRefresh_quiet s).railPass
@[simp] theorem bellRefresh_urgentRails (s : State) : (bellRefresh s).urgentRails = s.urgentRails := (bellRefresh_quiet s).urgentRails
@[simp] theorem bellRefresh_lateTargets (s : State) : (bellRefresh s).lateTargets = s.lateTargets := (bellRefresh_quiet s).lateTargets
@[simp] theorem bellRefresh_engineOut (s : State) : (bellRefresh s).engineOut = s.engineOut := (bellRefresh_quiet s).engineOut
@[simp] theorem bellRefresh_noRandom (s : State) : (bellRefresh s).noRandom = s.noRandom := (bellRefresh_quiet s).noRandom
@[simp] theorem bellRefresh_answer (s : State) : (bellRefresh s).answer = s.answer := (bellRefresh_quiet s).answer
@[simp] theorem bellRefresh_draws (s : State) : (bellRefresh s).draws = s.draws := (bellRefresh_quiet s).draws
@[simp] theorem bellRefresh_pending (s : State) : (bellRefresh s).pending = s.pending := (bellRefresh_quiet s).pending

end Sys2Proof.Machine
end

