-- ==== Sys2Proof/WellFormed.lean ====
section
/-!
DEFINITION. Which commands can be sent at all: what the types of `Instr` leave open of an operand's range. A command that is
not well formed changes nothing that the chapters name; the meanings do not rest on the check.
-/

namespace Sys2Proof

/-- A fabric peer has a 10-bit device ID (R302). -/
def Requester.wf : Requester → Bool
  | .peer d => decide (d < 1024)
  | _ => true

/-- A requester and the offset of a register: words at multiples of 4, a register space of 32 bits beyond the window's (R37). -/
def accessWf (r : Requester) (o : Nat) : Bool := r.wf && decide (o % 4 = 0) && decide (o < 2 ^ 40)

/-- Is the command well formed? The types of the commands that are not named here say all there is to say. -/
def Instr.wf : Instr → Bool
  | .csrWrite r o _ _ _ _ => accessWf r o
  | .pairLoRead r o => accessWf r o
  | .pairLoWrite r o _ => accessWf r o
  | .pairHiWrite r o _ _ _ => accessWf r o
  | .pairAccess64 r o _ _ _ => accessWf r o
  | .debugPeek o => accessWf .debug o
  | .sourceEvent n _ => decide (1 ≤ n) && decide (n ≤ 1022)
  | .wakeLatchCapture n _ => decide (1 ≤ n) && decide (n ≤ 1022)
  | .tgtTake r t => r.wf && (decide (t < 34) || decide (t = 48))
  | .tgtFinish r t _ => r.wf && (decide (t < 34) || decide (t = 48))
  | .holdoffExpiry t => decide (t < 34) || decide (t = 48)
  | .groomScrub w _ _ => decide (w % 8 = 0)
  | .fabFlitRx _ f => decide (f.length = 128)
  | .cellHeaderRx _ c => decide (8 ≤ c.length)
  | .hostBar2Access o n w _ => decide (o < 0x4000000) && decide (1 ≤ n.val) && (w.all (fun l => l.length = n.val))
  | _ => true

end Sys2Proof
end

