-- ==== Sys2Proof/Tests/Slice0.lean ====
section
/-!
SUPPORT. Tests: an ill-formed command for each check of `Instr.wf`, and for every statement with hypotheses a state and operands that meet
them.
-/

set_option Elab.async false

namespace Sys2Proof.Tests

open Sys2Proof Sys2Proof.Machine

/-! ### Well-formed commands -/

theorem test_wf_offset : (Instr.csrWrite .host 0x2001 0 0 0 true).wf = false ∧ (Instr.debugPeek 0x2003).wf = false ∧ (Instr.debugPeek 0x20000010).wf = true := by
  decide
theorem test_wf_far_offset : (Instr.pairLoRead .ymE (2 ^ 40)).wf = false ∧ (Instr.pairLoWrite .ymE (2 ^ 40) 0).wf = false := by decide
theorem test_wf_pairs : (Instr.pairHiWrite .ymE 2 0 0 0).wf = false ∧ (Instr.pairAccess64 .ymE 2 none 0 0).wf = false := by decide
theorem test_wf_peer : (Instr.pairLoRead (.peer 1024) 0).wf = false ∧ (Instr.pairLoRead (.peer 1023) 0).wf = true := by decide
theorem test_wf_source : (Instr.sourceEvent 0 true).wf = false ∧ (Instr.sourceEvent 1023 true).wf = false ∧ (Instr.sourceEvent 1022 true).wf = true := by decide
theorem test_wf_latch : (Instr.wakeLatchCapture 0 true).wf = false ∧ (Instr.wakeLatchCapture 1023 true).wf = false := by decide
theorem test_wf_target : (Instr.tgtTake .ymE 34).wf = false ∧ (Instr.tgtFinish .ymE 47 0).wf = false ∧ (Instr.holdoffExpiry 49).wf = false ∧
    (Instr.holdoffExpiry 48).wf = true := by decide
theorem test_wf_scrub : (Instr.groomScrub 4 0 false).wf = false := by decide
theorem test_wf_flit : (Instr.fabFlitRx 0 (List.replicate 127 0)).wf = false ∧ (Instr.fabFlitRx 0 (List.replicate 128 0)).wf = true := by decide +kernel
theorem test_wf_cell : (Instr.cellHeaderRx 0 (List.replicate 7 0)).wf = false := by decide
theorem test_wf_bar2 : (Instr.hostBar2Access 0x4000000 4 none 0).wf = false ∧ (Instr.hostBar2Access 0 0 none 0).wf = false ∧
    (Instr.hostBar2Access 0 4 (some [0]) 0).wf = false := by decide

/-! ### Words

No command has bits (spec/opcode_table.json): every word spells none. -/

theorem test_no_words : decodeTableWord 32 0 = none ∧ decodeTableWord 64 0xFFFFFFFF = none := by decide

/-! ### The block as a whole -/

/-- StepsKeepSound and StepsMonotone: the reset state is sound, and a queued command takes it to a next state. -/
theorem test_stepsKeepSound_met : State.reset.wf = true ∧ ∃ t, step { State.reset with pending := [.loftBudgetRefill] } = .next t := by
  refine ⟨by decide +kernel, ?_⟩
  exact ⟨_, rfl⟩

/-- OnlyFactoryStops: the one stop, in factory test mode, and none outside it. -/
theorem test_onlyFactoryStops_met : (match exec (.jtagInstruction .scan) (State.reset.modPower (fun p => { p with ftm := true })) with
    | .fault .factoryFunction => true | _ => false) = true ∧
    (match exec (.jtagInstruction .memoryBist) State.reset with | .next _ => true | _ => false) = true := by
  decide +kernel

/-- CountWriteMeetsIncrement: a channel that anyone writes, and channel 127 for the leader. -/
theorem test_countWrite_met : (120 ≤ 119 ∨ (119 : Fin 128).val < 120) ∧ isLeader (State.reset.setF YM_ARB_HELD 1) .ymE = true := by decide +kernel

/-! ### Dray ops -/

/-- `CoreFree`, as a check. -/
def coreFree (s : State) (k words : Nat) : Bool :=
  let c := s.core k
  canIssue s k && !c.legacy && c.bundle.isEmpty && decide (c.words = 0) && decide (c.left = 0) && decide (c.atomLeft = 0) && c.flight.isEmpty &&
  c.stores.isEmpty && c.streams.isEmpty && decide (c.cr 0x10 = 0) && decide (c.cr 0x13 = 0) && c.halt.isNone && !c.stepping &&
  !s.isSet (DRAY_DBG_CTL_DBG_EN k) && s.isSet (DRAY_CTL_RUN k) && decide (c.pc % 64 + 4 * words ≤ 64)

theorem coreFree_sound {s : State} {k words : Nat} (h : coreFree s k words = true) : CoreFree s k words := by
  simp only [coreFree, Bool.and_eq_true, Bool.not_eq_true', decide_eq_true_eq, List.isEmpty_iff, Option.isNone_iff_eq_none] at h
  obtain ⟨⟨⟨⟨⟨⟨⟨⟨⟨⟨⟨⟨⟨⟨⟨h1, h2⟩, h3⟩, h4⟩, h5⟩, h6⟩, h7⟩, h8⟩, h9⟩, h10⟩, h11⟩, h12⟩, h13⟩, h14⟩, h15⟩, h16⟩ := h
  exact ⟨h1, h2, h3, h4, h5, h6, h7, h8, h9, h10, h11, h12, h13, h14, h15, h16⟩

/-- The common hypotheses of a Dray statement, as a check: the core is free, the op is the last of its bundle, and it executes. -/
def drayOk (s : State) (h : OpHead) (words : Nat) : Bool :=
  coreFree s h.core.val words && h.last && ((s.core h.core.val).pr h.gp.toNat != h.neg)

theorem drayOk_sound {s : State} {h : OpHead} {words : Nat} (x : drayOk s h words = true) :
    CoreFree s h.core.val words ∧ h.last = true ∧ opHolds h (s.core h.core.val) := by
  simp only [drayOk, Bool.and_eq_true] at x
  exact ⟨coreFree_sound x.1.1, x.1.2, x.2⟩

/-- `VecFree`, as a check. -/
def vecOk (s : State) (h : OpHead) (masked : Bool) : Bool :=
  let c := s.core h.core.val
  drayOk s h 1 && decide (c.vfree ≤ c.cyc) && decide (c.span = 1) && decide (c.vl ≤ 1024 / c.ew) && (!masked || decide (c.vl ≤ 128))

theorem vecOk_sound {s : State} {h : OpHead} {m : Bool} (x : vecOk s h m = true) :
    VecFree s h.core.val m ∧ h.last = true ∧ opHolds h (s.core h.core.val) := by
  simp only [vecOk, Bool.and_eq_true, decide_eq_true_eq, Bool.or_eq_true, Bool.not_eq_true'] at x
  obtain ⟨⟨⟨⟨h0, h1⟩, h2⟩, h3⟩, h4⟩ := x
  have d := drayOk_sound h0
  exact ⟨⟨d.1, h1, h2, h3, fun hm => h4.resolve_left (by simp [hm])⟩, d.2⟩

/-- The op of core 3 that the samples place, alone in its bundle. -/
def op : OpHead := { core := 3, last := true, neg := false, gp := 0, frz := 0 }

/-- A running core 3 whose registers are as `f` makes them. -/
def drayState (f : Core → Core) : State :=
  (((State.reset.setShed 1 2).setF (DRAY_CTL_RUN 3) 1).setF (DRAY_STAT_STATE 3) 2).setCore 3 (f Core.reset)

/-- A descriptor: type, rights from bit 48 on, base, limit. -/
def descr (type rights base limit : Nat) : BitVec 128 := BitVec.ofNat 128 (base + rights * 2 ^ 48 + type * 2 ^ 56 + limit * 2 ^ 64)

/-- Segments 1 and 2 cover the first and the last 64 bytes of local memory, 10 and 11 the block ops' ranges, 4 this device's Paddock, 5 a
confined range. -/
def withSegs (c : Core) : Core :=
  let c := ((c.putG 1 (descr 1 3 0 64)).putG 2 (descr 1 3 0x7FFC0 64)).putG 4 (descr 2 3 0 0x4000000)
  ((c.putG 5 (descr 3 3 128 64)).putG 10 (descr 1 3 0 64)).putG 11 (descr 1 3 64 64)

/-- A check answers the address `a`. -/
def answersAt (e : Except Nat Nat) (a : Nat) : Bool := match e with | .ok x => x == a | .error _ => false

theorem answersAt_sound {e : Except Nat Nat} {a : Nat} (h : answersAt e a = true) : e = .ok a := by
  cases e with
  | ok x => simp only [answersAt, beq_iff_eq] at h; rw [h]
  | error v => simp [answersAt] at h

/-- DrayAluResults, DrayPredicateResults, DrayMultiplyResults, DrayAccumulatorResults, DrayControlResults, DrayFlowResults, DrayEntryResults (one
word) and DrayWideResults (two words): a bundle at the start and at the end of its line, under a guard of either sense. -/
theorem test_dray_meets :
    (drayOk (drayState id) op 1 && drayOk (drayState id) op 2 && drayOk (drayState (fun c => { c with pc := 60 })) op 1 &&
      drayOk (drayState (fun c => c.putP 7 true)) { op with gp := 7 } 1 && drayOk (drayState id) { op with gp := 7, neg := true, frz := 2 } 1) = true := by
  decide +kernel

/-- DrayLoadResults and DrayStoreResults: the last element of a range in forms 0 and 3, and the last word of local memory. -/
def memState : State := drayState (fun c => ((withSegs c).putS 6 56).putS 7 60)
theorem test_dray_memory_meets :
    (drayOk memState op 1 && (memState.core 3).tags.all (fun e => (e.2.store || e.2.settled) && (!e.2.busy || !e.2.store)) &&
      answersAt (localCheck (memState.core 3) 1 63 1 1 false) 63 && answersAt (localCheck (memState.core 3) 1 62 2 2 true) 62 &&
      answersAt (localCheck (memState.core 3) 2 60 4 4 false) 0x7FFFC && answersAt (localCheck (memState.core 3) 1 56 8 8 true) 56 &&
      answersAt (localCheck (memState.core 3) 5 0 8 8 true) 128) = true := by
  decide +kernel

/-- DrayMacdResult: elements of 2 and of 4 bytes. -/
theorem test_dray_macd_meets :
    (drayOk memState op 2 && answersAt (localCheck (memState.core 3) 1 56 2 2 false) 56 &&
      answersAt (localCheck (memState.core 3) 2 60 2 2 false) 0x7FFFC && answersAt (localCheck (memState.core 3) 1 60 4 4 false) 60) = true := by
  decide +kernel

/-- DraySegmentResults and DrayZconfResult: the last entry of a table of one, of types 1 and 3; SEGSUB of a whole range; a CONFINED range. -/
def tableState (d : BitVec 128) : State :=
  (drayState (fun c => { ((withSegs c).setCr 2 0x10180000).setCr 3 1 with sup := true })).stLE 0x10180000 16 d.toNat
theorem test_dray_segment_meets :
    ([1, 3].all (fun ty =>
      let s := tableState (descr ty 3 64 64)
      let c := s.core 3
      let new := segNorm (leVal ((List.range 16).map (fun j => s.byte (0x10180000 + j))))
      drayOk s op 1 && decide ((0 : Nat) < (c.cr 3).toNat % 2 ^ 17) && decide ((c.cr 2).toNat = 0x10180000) && c.tags.isEmpty && c.sup &&
        decide (segType new = ty) && c.confined.isEmpty && decide (segType (c.sg 1) ≠ 0) && decide (8 * 0 + 8 * 8 ≤ segLimit (c.sg 1)) &&
        drayOk s op 2 && decide (segType (c.sg 5) = 3))) = true := by
  decide +kernel

/-- DrayVectorResults and DrayVectorOtherResults: elements of 8, 16, 32 and 64 bits, all of them active, masked or not. -/
def vecState (e vl : Nat) : State := drayState (fun c => (withSegs (c.setCr 5 (BitVec.ofNat 32 e))).setCr 4 (BitVec.ofNat 32 vl))
theorem test_dray_vector_meets :
    ([(0, 128), (1, 64), (2, 32), (3, 16), (1, 0)].all (fun x =>
      let s := vecState x.1 x.2
      let c := s.core 3
      vecOk s op true && decide (c.ew = 8 * 2 ^ x.1) && decide (c.vl = x.2) && decide (c.vl % 4 = 0) && c.vchain.isNone && c.tags.isEmpty)) = true := by
  decide +kernel

/-- DrayVectorMemoryResults: a unit-stride range of 64 bytes; a strided one of stride 0. -/
theorem test_dray_vector_memory_meets :
    (vecOk (vecState 2 16) op true && answersAt (localCheck ((vecState 2 16).core 3) 1 0 64 4 false) 0 &&
      answersAt (localCheck ((vecState 2 16).core 3) 1 0 64 4 true) 0 && ((List.range 16).all (fun i =>
        answersAt (localCheck ((vecState 2 16).core 3) 1 (wrapTo 32 ((0 : Int) + i * 0)) 4 4 true) 0))) = true := by
  decide +kernel

/-- DrayFarStarts and DrayFarTags: a FARLD and a FARST between Paddock and local memory; an access under way, and none. -/
def farTag : FarTag := { FarTag.reset with busy := true, size := 8, loc := 16 }
def farState : State := drayState (fun c => { withSegs c with tags := tblSet FarTag.reset 2 farTag c.tags, farSeq := 1 })
theorem test_dray_far_meets :
    (let c := farState.core 3
     drayOk farState op 1 && answersAt (segCheck c 4 [2] 0 8 8 false) 0 && answersAt (segCheck c 1 [1, 3] 0 8 8 true) 0 &&
       answersAt (segCheck c 4 [2] 0 8 8 true) 0 && answersAt (segCheck c 1 [1, 3] 0 8 8 false) 0 && !confinedHit c 0 8 && !segBit (c.sg 4) 5 &&
       !(tblGet FarTag.reset 0 c.tags).busy && (tblGet FarTag.reset 2 c.tags).busy && decide (farTag.addr / 2 ^ 38 = farState.devId) &&
       !farWaits c farTag &&
       (let x := farPerform 3 farTag 0 true farState
        decide (x.2.2.core 3 = c) && !(x.2.2.core 3).frozen)) = true := by
  decide +kernel

/-- DrayBlockSteps: a count of 0 and of 1, both ranges at their start, for elements of 1 and of 8 bytes. -/
def blockState (n : Word) : State := drayState (fun c => ((withSegs c).putS 9 n))
theorem test_dray_block_meets :
    (drayOk (blockState 0) op 1 && drayOk (blockState 1) op 1 && decide ((blockState 1).core 3 |>.sr 9 |> (· ≠ 0)) &&
      decide (((blockState 0).core 3).sr 9 = 0) && ((blockState 1).core 3).tags.isEmpty && [1, 8].all (fun e =>
        answersAt (localCheck ((blockState 1).core 3) 11 0 e e true) 64 && answersAt (localCheck ((blockState 1).core 3) 11 0 e e false) 64 &&
          answersAt (localCheck ((blockState 1).core 3) 10 0 e e false) 0)) = true := by
  decide +kernel

/-- DrayLockResults: the last word of a Paddock bank that the core owns, read and stored; a reservation held, lost and absent. -/
def lockState (l : Option (Nat × Bool)) : State :=
  (drayState (fun c => { withSegs c with lock := l, locked := true, atomLeft := 2 })).setF (PADK_OWNER_OWNER 0) 3
theorem test_dray_lock_meets :
    (let s := (drayState withSegs).setF (PADK_OWNER_OWNER 0) 3
     drayOk s op 1 && answersAt (segCheck (s.core 3) 4 [2] 0 8 8 false) 0 && decide (s.devId = 0) && padMayRead s (.dray 3) (padBank 0) && s.eccBad.isEmpty &&
       [some (0, true), some (0, false), none].all (fun l =>
         let s := lockState l
         coreFree (s.setCore 3 { s.core 3 with atomLeft := 0 }) 3 1 && (s.core 3).pr 0 && (s.core 3).locked && decide (2 ≤ (s.core 3).atomLeft) &&
           decide ((s.core 3).lock = l) && padMayWrite s (.dray 3) (padBank 0))) = true := by
  decide +kernel

/-- DrayFlowResults, DrayControlResults and DrayEntryResults: what their clauses add. -/
theorem test_dray_control_meets :
    (cregListed 0x20 && cregListed 0x1C && !cregListed 0xFF && cregFixed 0x1C && !cregFixed 0x20 && cregTask 7 && !(drayState id).isSet (TGT_STAT_REQ 3) &&
      decide (fldGet 30 30 (((drayState id).core 3).cr 0x21) = 0) && !(drayState id).isSet (DRAY_TRACE_CTL_EN 3) &&
      decide (fldGet 29 28 (((drayState id).core 3).cr 0x25) = 0) && ((drayState id).core 3).sup) = true := by
  decide +kernel

/-- DrayStartStop: a stopped core that is ready, one that runs, and one being cleared. -/
theorem test_dray_start_stop_meets :
    (let s := (State.reset.setShed 1 2).setF YM_ARB_HELD 1
     let r := drayState id |>.setF YM_ARB_HELD 1
     isLeader s .ymE && !s.isSet (DRAY_CTL_RUN 3) && (s.setF (DRAY_STAT_LM_READY 3) 1).isSet (DRAY_STAT_LM_READY 3) && s.shedOn 1 &&
       !s.isSet (DRAY_STAT_LM_READY 3) && isLeader r .ymE && decide (r.coreState 3 = 2) && decide ((r.core 3).left = 0 ∧ (r.core 3).atomLeft = 0) &&
       (r.core 3).bundle.isEmpty && !(r.core 3).frozen && (r.core 3).flight.isEmpty && (r.core 3).stores.isEmpty && (r.core 3).streams.isEmpty) = true := by
  decide +kernel

/-- DrayInterruptEntry: a request waits. -/
theorem test_dray_interrupt_meets :
    (let s := (drayState (fun c => { c with ieLast := true })).setF (TGT_STAT_REQ 3) 1
     coreFree s 3 0 && !(s.core 3).frozen && (s.core 3).ieLast && s.isSet (TGT_STAT_REQ 3) && decide (fldGet 30 30 ((s.core 3).cr 0x21) = 0) &&
       !s.isSet (DRAY_TRACE_CTL_EN 3)) = true := by
  decide +kernel

/-- DrayDebugResults: a running core with DBG_EN, a halted one, a halt that is due, and a register chosen. -/
theorem test_dray_debug_meets :
    (let s := (drayState id).setF (DRAY_DBG_CTL_DBG_EN 3) 1
     let h := s.setF (DRAY_STAT_STATE 3) 4 |>.setF (DRAY_DBG_RSEL_CODE 3) 63
     let d := (drayState (fun c => { c with halt := some { reason := 7, which := 3, forced := true, late := false }, atomLeft := 1 }))
     s.isSet (DRAY_DBG_CTL_DBG_EN 3) && decide (s.coreState 3 = 2) && (s.core 3).halt.isNone && decide (h.coreState 3 = 4) && h.isSet (DRAY_DBG_CTL_DBG_EN 3) &&
       (h.core 3).confined.isEmpty && decide (h.getF (DRAY_DBG_RSEL_CODE 3) = 63 ∧ h.getF (DRAY_DBG_RSEL_WORD 3) = 0) && !h.isSet (DRAY_DBG_RSEL_CREG 3) &&
       (d.core 3).halt.isSome && decide (d.coreState 3 = 2) && !(d.core 3).frozen && (d.core 3).bundle.isEmpty && (d.core 3).flight.isEmpty &&
       (d.core 3).stores.isEmpty && (d.core 3).streams.isEmpty && !d.isSet (DRAY_TRACE_CTL_EN 3) && decide (Requester.host ≠ Requester.debug)) = true := by
  decide +kernel

/-! ### Commands of the block

For each statement `meets<Statement>` is the check of the hypotheses of its clause number `clause`; the theorems give a state and operands that
meet them, for every clause. The states are small ones made from `State.reset`. -/

namespace Mailbox

/-- a mailbox with a command -/
def cmd (m op : Nat) (arg : List Byte) (s : State) : State :=
  let s := (s.setF YM_ARB_HELD 1).setF (MB_STATUS_STATE m) 1
  let s : State := { s with ym := { s.ym with fwReady := true } }
  let s := s.setF LOFT_BUDGET_CFG_TOKENS 60
  s.setBytes (cmdBuf m) (leBytes 2 op ++ leBytes 2 arg.length ++ zeros 4 ++ leBytes 8 77 ++ zeros 8 ++ arg)
def bl (l : List Nat) : List Byte := l.map (BitVec.ofNat 8)
end Mailbox
open Mailbox

namespace Registers

/-- The hypotheses of the clause numbered `clause`, counted from 0, of `Obligations.RegisterAccessResults`. -/
def meetsRegisterAccess (clause : Nat)
    (s : State := { ((State.reset.wr POS_EVT 0x1F1).wr (TCNT_LO 5) 9) with hiLatch := tblSet none 32 (some (TCNT_LO 5, 0x77#32)) [] , loStage := tblSet none 32 (some (TCNT_LO 5, 0x55#32)) [] })
    (r : Requester := .ymE) (a : Nat := TCNT_LO 5) (lo : Word := 0x55#32) (n : Fin 120 := (5:Fin 120)) : Bool :=
  let o := reqOff r a s
  match clause with
  | 0 => decide (reqReady r s = true) && decide (o = POS_HO_MAX)
  | 1 => decide (reqReady r s = true) && decide (o = POS_EVT)
  | 2 => decide (reqReady r s = true) && decide (isReg o = true) && decide (csrListed o = true) && decide (isPairLo o = true) &&
      decide (hasLatch r = true) && decide (o / 2 ^ 24 ≠ 0x28)
  | 3 => decide (reqReady r s = true) && decide (isReg o = true) && decide (csrListed o = true) && decide (isPairHi o = true) &&
      decide (tblGet none (requesterCode r) s.hiLatch = some (o - 4, lo)) && decide (hasLatch r = true)
  | 4 => decide (reqReady r s = true) && decide (isReg o = true) && decide (csrRefuse r o s = none) && decide (isPairLo o = true) &&
      decide (hasLatch r = true)
  | 5 => decide (reqReady r s = true) && decide (o = TCNT_HI n.val) && decide (tblGet none (requesterCode r) s.loStage = some (TCNT_LO n.val, lo)) &&
      decide (hasLatch r = true) && decide (s.getF (TCFG_SRC n.val) ≠ 3)
  | 6 => decide (reqReady r s = true) && decide (o = TCNT_LO n.val) && decide (s.getF (TCFG_SRC n.val) ≠ 3)
  | 7 => decide (reqReady r s = true) && decide (o = TCNT_LO n.val)
  | 8 => decide (reqReady r s = true) && decide (a = POS_EVT)
  | 9 => decide (reqReady r s = true) && decide (a = POS_NOW_LO)
  | _ => true

theorem test_registerAccessResults_met_1 :
    (meetsRegisterAccess 0 (s := State.reset) (a := POS_HO_MAX) &&
      meetsRegisterAccess 1 (s := ((State.reset.wr POS_EVT 0x1F1).wr (TCNT_LO 5) 9)) (a := POS_EVT) &&
      meetsRegisterAccess 2 (s := ((State.reset.wr POS_EVT 0x1F1).wr (TCNT_LO 5) 9)) &&
      meetsRegisterAccess 2 (s := { State.reset with power := { State.reset.power with pcie := true } }) (r := .host) (a := 0x2010) &&
      meetsRegisterAccess 3 (a := TCNT_HI 5) (lo := 0x77#32) && meetsRegisterAccess 4) = true := by
  decide +kernel

theorem test_registerAccessResults_met_2 :
    (meetsRegisterAccess 5 (a := TCNT_HI 5) && meetsRegisterAccess 6 && meetsRegisterAccess 7 &&
      meetsRegisterAccess 8 (s := ((State.reset.wr POS_EVT 0x1F1).wr (TCNT_LO 5) 9)) (a := POS_EVT) &&
      meetsRegisterAccess 9 (s := ((State.reset.wr POS_EVT 0x1F1).wr (TCNT_LO 5) 9)) (a := POS_NOW_LO)) = true := by
  decide +kernel

end Registers

namespace Timing

def sb (v : Beat) (off : Int) (per : Nat) : SrcBeat := { v := v, mfas := 3, word := posWord (v-1), aligned := true, off := off, period := per }
def P0 (st n : Nat) : State := let s := State.reset; let s := ((s.setF POS_STAT_STATE st).setF POS_CFG_SRC 1).setF POS_STAT_FREQ_VALID n
  let s := s.wr64 POS_NOW_LO 0x12341234567
  { s with pos := { s.pos with cur := { src := 1, cls := 0, lead := 0 }, ticks := 9000, qDone := true, qPeriods := List.replicate 100 (nominalBeat 0) , estLen := 999} }
def PM (st n m : Nat) : State := (P0 st n).modPos (fun p => { p with miss := m })
def T0 : State := let s := State.reset; let s := (s.setF (TCFG_EN 5) 1).wr64 (TCNT_LO 5) 100; s.setF (TCFG_LF_EN 5) 1
def TM (c : DWord) : State := T0.wr64 (TCNT_LO 5) c
def TA : State := (T0.setF ⟨TSTAT 5,2,2⟩ 1).wr64 (CMP_LO 5 2) 101
def TS : State := { T0 with power := { T0.power with asleep := true } }

/-- The hypotheses of the clause numbered `clause`, counted from 0, of `Obligations.PositionFollows`. -/
def meetsPositionFollows (clause : Nat) (s : State := P0 1 0) (b : SrcBeat := sb ((P0 1 0).beat+1) (-5) (nominalBeat 0)) : Bool :=
  let p := s.pos.cur
  match clause with
  | 0 => decide (s.getF POS_STAT_STATE = 1) && decide (p.src = 1) && decide (b.off.natAbs ≤ nominalBeat p.cls / 64) && decide (posWordOk b.word = true) &&
      decide (posFollowedOk s b.period = true) && decide (b.v = s.beat + 1)
  | 1 => decide (s.getF POS_STAT_STATE = 1) && decide (p.src = 1) && decide (b.off.natAbs ≤ nominalBeat p.cls / 64) && decide (posWordOk b.word = true) &&
      decide (posFollowedOk s b.period = true) && decide (beatBefore (s.beat + 1) b.v = true)
  | 2 => decide (s.getF POS_STAT_STATE = 1) && decide (p.src = 1) && decide (b.off.natAbs ≤ nominalBeat p.cls / 64) && decide (posWordOk b.word = true) &&
      decide (posFollowedOk s b.period = true) && decide (b.v ≠ s.beat + 1) && decide (beatBefore (s.beat + 1) b.v = false)
  | _ => true

theorem test_positionFollows_met :
    (meetsPositionFollows 0 && meetsPositionFollows 1 (b := sb ((P0 1 0).beat+7) (-5) (nominalBeat 0)) &&
      meetsPositionFollows 2 (b := sb ((P0 1 0).beat-7) (-5) (nominalBeat 0))) = true := by
  decide +kernel

/-- The hypotheses of the clause numbered `clause`, counted from 0, of `Obligations.PositionStates`. -/
def meetsPositionStates (clause : Nat) (s : State := P0 2 1) (b : SrcBeat := (sb ((P0 1 0).beat+1) 5 (nominalBeat 0))) : Bool :=
  let st := s.getF POS_STAT_STATE
  let p := posCfg s
  match clause with
  | 0 => decide (st = 1 ∨ st = 3) && decide (s.pos.miss < 2)
  | 1 => decide (st = 1) && decide (s.pos.miss = 2)
  | 2 => decide (st = 0 ∨ st = 2)
  | 3 => decide (s.pos.qDone = true) && decide (p.src = 1) && decide (b.v = posNear s) && decide (s.pos.cur.cls ≠ 3)
  | 4 => decide (st = 2)
  | 5 => decide (st = 1)
  | _ => true

theorem test_positionStates_met_1 :
    (meetsPositionStates 0 (s := PM 1 0 1) && meetsPositionStates 0 (s := PM 3 0 0) && meetsPositionStates 1 (s := PM 1 0 2) &&
      meetsPositionStates 1 (s := PM 1 1 2) && meetsPositionStates 2 (s := PM 0 1 2) && meetsPositionStates 2 (s := PM 2 1 2)) = true := by
  decide +kernel

theorem test_positionStates_met_2 :
    (meetsPositionStates 3 (s := P0 0 1) (b := sb (posNear (P0 0 1)) 3 7) && meetsPositionStates 3 (b := sb (posNear (P0 2 1)) 3 7) &&
      meetsPositionStates 4 && meetsPositionStates 5 (s := P0 1 0)) = true := by
  decide +kernel

/-- The hypotheses of the clause numbered `clause`, counted from 0, of `Obligations.TallyResults`. -/
def meetsTally (clause : Nat) (s : State := T0) (r : Requester := .host) (n : Fin 128 := (5:Fin 128)) (k : Fin 4 := (2: Fin 4)) (v : DWord := 70#64)
    (w : Word := 0xFFFFFFFF#32) : Bool :=
  let m := n.val
  let count := (s.rd64 (TCNT_LO m)).toNat
  let quiet := (List.range 128).all (fun i => i = m || tallyIdle s i) && s.tally.wait.isEmpty
  let ticks := s.isSet (TCFG_EN m) && s.getF (TCFG_SRC m) = 0 && !s.isSet (TCFG_GATE_EN m) && !s.isSet (TCFG_CAP_EN m)
  match clause with
  | 0 => decide (s.clocksStopped = false) && decide (quiet = true) && decide (ticks = true) && decide (s.getF (TSTAT_ARM m) = 0) &&
      decide (count + 1 < 2 ^ 64)
  | 1 => decide (s.clocksStopped = false) && decide (quiet = true) && decide (ticks = true) && decide (s.getF (TSTAT_ARM m) = 0) &&
      decide (count + 1 = 2 ^ 64) && decide (s.rd (TOVF_CTL m) = 0)
  | 2 => decide (s.clocksStopped = false) && decide (quiet = true) && decide (ticks = true) && decide (s.getF (TSTAT_ARM m) = 2 ^ k.val) &&
      decide (count + 1 = (s.rd64 (CMP_LO m k.val)).toNat) && decide (count + 1 < 2 ^ 64) && decide (s.rd (CMP_CTL m k.val) = 0)
  | 3 => decide (tallyMayWrite r m s = true) && decide (m ≠ 120 ∨ k.val ≠ 0) &&
      decide ((let w := tallyWidth s m; tallyDist w count v.toNat = 0 ∨ 2 ^ (w - 1) ≤ tallyDist w count v.toNat))
  | 4 => decide (tallyMayWrite r m s = true) && decide (m ≠ 120 ∨ k.val ≠ 0) &&
      decide ((let w := tallyWidth s m; 0 < tallyDist w count v.toNat ∧ tallyDist w count v.toNat < 2 ^ (w - 1))) && decide (s.rd (CMP_CTL m k.val) = 0)
  | 5 => decide (tallyMayWrite r m s = true) && decide (m ≠ 120 ∨ k.val ≠ 0)
  | 6 => decide (m = 120) && decide (k.val = 0)
  | 7 => decide (tallyMayWrite r m s = true)
  | 8 => decide (s.clocksStopped = true) && decide ((List.range 128).all (fun i => i = m || !onAonPath s i) = true) && decide (onAonPath s m = true) &&
      decide (s.isSet (TCFG_GATE_EN m) = false) && decide (s.getF (TSTAT_ARM m) = 0) && decide (count + 30 < 2 ^ 64)
  | _ => true

theorem test_tallyResults_met_1 :
    (meetsTally 0 && meetsTally 1 (s := TM 0xFFFFFFFFFFFFFFFF) && meetsTally 2 (s := TA) && meetsTally 3 (v := 170#64) &&
      meetsTally 3 (v := 100#64) && meetsTally 4) = true := by
  decide +kernel

theorem test_tallyResults_met_2 :
    (meetsTally 5 (s := TA) && meetsTally 6 (n := (120:Fin 128)) (k := (0: Fin 4)) && meetsTally 7 && meetsTally 7 (s := T0.setF (TCFG_SRC 5) 3) &&
      meetsTally 8 (s := TS)) = true := by
  decide +kernel

end Timing

namespace Ports

def Q (k st : Nat) : State := let s := State.reset
  let s := s.setShed 28 2 |>.setShed 24 2 |>.setF (GRP_CFG_FAMILY 0) 0 |>.setF (GRP_CFG_FAMILY 4) 0 |>.setF (GRP_CFG_MAP_BAD 0) 0
  let s := ((s.setF (PORT_CFG_EN k) 1).setF (PORT_CFG_TYPE k) (if k < 64 then 1 else 0x30)).setF (PORT_STAT_STATE k) st
  ((s.setF (PORT_STAT_SIGNAL k) 1).setF (PORT_STAT_REASON k) 3).wr (PORT_EVT_EN k) 0x3FF
def Rt (s : State) (k : Nat) : State := s.modPort k (fun p => { p with retry := true })
def An (s : State) (k : Nat) : State := s.modPort k (fun p => { p with anDone := true })

/-- The hypotheses of the clause numbered `clause`, counted from 0, of `Obligations.PortStates`. -/
def meetsPortStates (clause : Nat) (s : State := Q 0 3) (k : Fin 72 := (0 : Fin 72)) : Bool :=
  let i := k.val
  let st := s.portState i
  match clause with
  | 0 => decide (st = 3) && decide (portReason s i = none)
  | 1 => decide (st = 3) && decide (portReason s i = none)
  | 2 => decide (st = 2) && decide (s.isSet (PORT_CFG_EN i) = true)
  | 3 => decide (st = 0) && decide (portReason (s.setF (PORT_STAT_SIGNAL i) 1) i = none)
  | 4 => decide (st = 1) && decide (s.isSet (PORT_CFG_AN_EN i) = true)
  | 5 => decide (st = 1) && decide (s.isSet (PORT_CFG_AN_EN i) = false ∨ (s.port i).anDone = true) && decide (i < 64)
  | 6 => decide (st = 1) && decide (s.isSet (PORT_CFG_AN_EN i) = false) && decide (64 ≤ i)
  | 7 => decide (st = 1) && decide (s.isSet (PORT_CFG_AN_EN i) = true) && decide ((s.port i).anDone = false)
  | 8 => decide (st = 2) && decide (s.isSet (PORT_CFG_EN i) = true)
  | 9 => decide (portReason s i = some 7) && decide (st = 0)
  | _ => true

theorem test_portStates_met_1 :
    (meetsPortStates 0 && meetsPortStates 1 && meetsPortStates 2 (s := Q 0 2) && meetsPortStates 3 (s := (Q 0 0).setF (PORT_STAT_SIGNAL 0) 0) &&
      meetsPortStates 4 (s := (Q 0 1).setF (PORT_CFG_AN_EN 0) 1) && meetsPortStates 5 (s := (Q 0 1))) = true := by
  decide +kernel

theorem test_portStates_met_2 :
    (meetsPortStates 5 (s := An ((Q 0 1).setF (PORT_CFG_AN_EN 0) 1) 0) && meetsPortStates 7 (s := (Q 0 1).setF (PORT_CFG_AN_EN 0) 1) &&
      meetsPortStates 8 (s := (Q 0 2)) && meetsPortStates 9 (s := Rt (Q 0 0) 0) && meetsPortStates 0 (s := Q 32 3) (k := (32 : Fin 72)) &&
      meetsPortStates 1 (s := Q 32 3) (k := (32 : Fin 72))) = true := by
  decide +kernel

theorem test_portStates_met_3 :
    (meetsPortStates 2 (s := Q 32 2) (k := (32 : Fin 72)) && meetsPortStates 3 (s := (Q 32 0).setF (PORT_STAT_SIGNAL 32) 0) (k := (32 : Fin 72)) &&
      meetsPortStates 4 (s := (Q 32 1).setF (PORT_CFG_AN_EN 32) 1) (k := (32 : Fin 72)) &&
      meetsPortStates 7 (s := (Q 32 1).setF (PORT_CFG_AN_EN 32) 1) (k := (32 : Fin 72)) && meetsPortStates 8 (s := (Q 32 2)) (k := (32 : Fin 72)) &&
      meetsPortStates 9 (s := Rt (Q 32 0) 32) (k := (32 : Fin 72))) = true := by
  decide +kernel

theorem test_portStates_met_4 :
    (meetsPortStates 6 (s := (Q 64 1)) (k := (64 : Fin 72))) = true := by
  decide +kernel

/-- The hypotheses of the clause numbered `clause`, counted from 0, of `Obligations.PortConditions`. -/
def meetsPortConditions (clause : Nat) (s : State := Q 0 3) (k : Fin 72 := (32 : Fin 72)) (j : Fin 64 := (32:Fin 64)) (ref : Fin 4 := (1:Fin 4))
    (uncorrectable : Nat := 3) : Bool :=
  let i := k.val
  match clause with
  | 0 => decide (s.isSet (PORT_CFG_EN i) = true) && decide (s.isSet (PORT_STAT_HIBER i) = false)
  | 1 => decide (s.isSet (PORT_CFG_EN i) = true) && decide (s.isSet (PORT_STAT_HIBER i) = true)
  | 2 => decide (s.isSet (PORT_CFG_EN i) = true) && decide (s.isSet (PORT_STAT_SD i) = false)
  | 3 => decide (s.isSet (PORT_CFG_EN i) = true) && decide (s.isSet (PORT_STAT_SD i) = true)
  | 4 => decide (s.isSet (PORT_CFG_EN i) = true) && decide (s.isSet (PORT_STAT_AIS_RX i) = false)
  | 5 => decide (s.isSet (PORT_CFG_EN i) = true) && decide (s.isSet (PORT_STAT_AIS_RX i) = true)
  | 6 => decide (s.isSet (PORT_CFG_EN i) = true) && decide (s.isSet (PORT_STAT_REMOTE i) = false)
  | 7 => decide (s.isSet (PORT_CFG_EN i) = true) && decide (s.isSet (PORT_STAT_REMOTE i) = true)
  | 8 => decide (s.isSet (PORT_CFG_EN i) = true) && decide (uncorrectable ≠ 0)
  | 9 => decide (s.isSet (PORT_CFG_EN i) = true) && decide (portReason s i = none) && decide (s.portUp i = true) && decide (i < 64) &&
      decide (s.getF (GRP_CFG_REFSEL (portGroup i)) = ref.val)
  | 10 => decide (s.isSet (PORT_CFG_EN i) = true) && decide (portReason s i = some 8) && decide (s.portState i = 0) && decide (i < 64) &&
      decide (s.getF (GRP_CFG_REFSEL (portGroup i)) = ref.val) && decide (s.isSet (PORT_STAT_SIGNAL i) = true) && decide ((s.port i).retry = false)
  | 11 => decide (s.isSet (PORT_CFG_EN i) = true) && decide (s.portUp j.val = true) && decide (partnerOk s j.val = true)
  | _ => true

theorem test_portConditions_met_1 :
    (meetsPortConditions 0 (k := (0 : Fin 72)) (ref := (0:Fin 4)) &&
      meetsPortConditions 1 (s := (Q 0 3).setF (PORT_STAT_HIBER 0) 1) (k := (0 : Fin 72)) (ref := (0:Fin 4)) &&
      meetsPortConditions 2 (k := (0 : Fin 72)) (ref := (0:Fin 4)) &&
      meetsPortConditions 3 (s := (Q 0 3).setF (PORT_STAT_SD 0) 1) (k := (0 : Fin 72)) (ref := (0:Fin 4)) &&
      meetsPortConditions 4 (k := (0 : Fin 72)) (ref := (0:Fin 4)) &&
      meetsPortConditions 5 (s := (Q 0 3).setF (PORT_STAT_AIS_RX 0) 1) (k := (0 : Fin 72)) (ref := (0:Fin 4))) = true := by
  decide +kernel

theorem test_portConditions_met_2 :
    (meetsPortConditions 6 (k := (0 : Fin 72)) (ref := (0:Fin 4)) &&
      meetsPortConditions 7 (s := (Q 0 3).setF (PORT_STAT_REMOTE 0) 1) (k := (0 : Fin 72)) (ref := (0:Fin 4)) &&
      meetsPortConditions 8 (k := (0 : Fin 72)) (ref := (0:Fin 4)) && meetsPortConditions 9 (k := (0 : Fin 72)) (ref := (0:Fin 4)) &&
      meetsPortConditions 10 (s := { Q 0 0 with refLost := [0] }) (k := (0 : Fin 72)) (ref := (0:Fin 4)) &&
      meetsPortConditions 0 (s := Q 32 3)) = true := by
  decide +kernel

theorem test_portConditions_met_3 :
    (meetsPortConditions 1 (s := (Q 32 3).setF (PORT_STAT_HIBER 32) 1) && meetsPortConditions 2 (s := Q 32 3) &&
      meetsPortConditions 3 (s := (Q 32 3).setF (PORT_STAT_SD 32) 1) && meetsPortConditions 4 (s := Q 32 3) &&
      meetsPortConditions 5 (s := (Q 32 3).setF (PORT_STAT_AIS_RX 32) 1) && meetsPortConditions 6 (s := Q 32 3)) = true := by
  decide +kernel

theorem test_portConditions_met_4 :
    (meetsPortConditions 7 (s := (Q 32 3).setF (PORT_STAT_REMOTE 32) 1) && meetsPortConditions 8 (s := Q 32 3) &&
      meetsPortConditions 9 (s := Q 32 3) && meetsPortConditions 10 (s := { Q 32 0 with refLost := [1] }) &&
      meetsPortConditions 11 (s := ((Q 32 3).setF (PORT_TIMING_THROUGH 32) 1).setF (PORT_STAT_STATE 0) 3 |>.setF (PORT_CFG_TYPE 0) 0x10 |>.setF (PORT_CFG_TYPE 32) 0x10)) = true := by
  decide +kernel

end Ports

namespace YfiLine

def HS : State := let s := (State.reset.setF POS_CFG_SRC 2).setF POS_STAT_STATE 1; s.wr64 POS_NOW_LO 0x12340000
def GS : State := State.reset

/-- The hypotheses of the clause numbered `clause`, counted from 0, of `Obligations.YfiLineResults`. -/
def meetsYfiLine (clause : Nat) (s : State := cmd 3 0x0101 (bl [1,0,4,5,7,0,0,0,3,0,0,0]) (HS)) (m : Fin 16 := (3:Fin 16)) : Bool :=
  let a := mbArg s m.val
  let adjusts := yfiReady s 0x0102 m.val && s.getF POS_CFG_SRC = 2 && zeroAt a [(1, 7)]
  match clause with
  | 0 => decide (CfgReady s posConfigCmd m.val)
  | 1 => decide (adjusts = true) && decide (at' a 0 = 1) && decide (le a 8 8 < 2 ^ 48) && decide (s.getF POS_STAT_STATE ≠ 0) &&
      decide (beatBefore (posNear s) (BitVec.ofNat 48 (le a 8 8)) = true)
  | 2 => decide (adjusts = true) && decide (at' a 0 = 2) && decide ((leInt a 8).natAbs ≤ 25600000)
  | 3 => decide (adjusts = true) && decide (at' a 0 = 3) && decide ((leInt a 8).natAbs ≤ 65536) && decide ((leInt a 8 + slewLeft s).natAbs ≤ 65536)
  | 4 => decide (yfiReady s 0x0103 m.val = true)
  | 5 => decide (CfgReady s groupCmd m.val)
  | 6 => decide (CfgReady s portCmd m.val)
  | _ => true

theorem test_yfiLineResults_met_1 :
    (meetsYfiLine 0 && meetsYfiLine 1 (s := cmd 3 0x0102 (bl [1,0,0,0,0,0,0,0] ++ leBytes 8 0x9999) (HS)) &&
      meetsYfiLine 2 (s := cmd 3 0x0102 (bl [2,0,0,0,0,0,0,0] ++ leBytes 8 (2^64-1000)) (HS)) &&
      meetsYfiLine 3 (s := cmd 3 0x0102 (bl [3,0,0,0,0,0,0,0] ++ leBytes 8 (2^64-1000)) (HS)) && meetsYfiLine 4 (s := cmd 3 0x0103 ([]) (HS)) &&
      meetsYfiLine 5 (s := cmd 3 0x0201 (bl [2,0,1,0] ++ leBytes 4 0xFAC688 ++ leBytes 4 0xFAC688 ++ bl [3,4,0,0]) (HS))) = true := by
  decide +kernel

theorem test_yfiLineResults_met_2 :
    (meetsYfiLine 6 (s := cmd 3 0x0202 (bl [5,1,0,7,3,9,33,0]) (HS))) = true := by
  decide +kernel

end YfiLine

namespace YfiChannel

def CS : State := let s := (State.reset.setF (PORT_CFG_TYPE 0) 1).setF (PORT_CFG_TYPE 32) 1
  let s := s.setF POS_STAT_STATE 1
  (s.wr64 POS_NOW_LO 0x12340000).setF (PORT_STAT_STATE 0) 3 |>.setF (PORT_STAT_STATE 32) 3
def blk (n : Nat) (mask : Nat) : List Byte := leBytes 2 n ++ bl [0, 2, 0, 0, 0, 0] ++ leBytes 4 1 ++ leBytes 4 0 ++ leBytes 8 0x1122334455667788 ++ leBytes 4 0 ++ leBytes 4 0 ++ leBytes 2 1500 ++ leBytes 2 10 ++ leBytes 2 100 ++ zeros 2 ++ leBytes 4 1000 ++ leBytes 8 0 ++ leBytes 2 0 ++ leBytes 2 mask ++ zeros 8
def ent (k i : Nat) : List Byte := bl [k, 1, 3, 0] ++ leBytes 2 i ++ zeros 2 ++ leBytes 16 0xABCDEF ++ zeros 16 ++ leBytes 4 0x44 ++ zeros 20
def CO : State := { (blkWrite (blk 5 0) CS).setF (CH_CFG_STATE 5) 1 with config := [(recKey 0 3 5 0x100, leBytes 2 5)] }

/-- The hypotheses of the clause numbered `clause`, counted from 0, of `Obligations.YfiChannelResults`. -/
def meetsYfiChannel (clause : Nat) (s : State := cmd 3 0x0301 (blk 5 0) (CS)) (m : Fin 16 := (3:Fin 16)) : Bool :=
  let a := mbArg s m.val
  let n := blkCh a
  match clause with
  | 0 => decide (CfgReady s chOpenCmd m.val)
  | 1 => decide (CfgReady s chCloseCmd m.val)
  | 2 => decide (CfgReady s chModifyCmd m.val)
  | 3 => decide (yfiReady s 0x0304 m.val = true) && decide (n < 512)
  | 4 => decide (CfgReady s customerCmd m.val) && decide (le a 4 2 = 8)
  | _ => true

theorem test_yfiChannelResults_met :
    (meetsYfiChannel 0 && meetsYfiChannel 1 (s := cmd 3 0x0302 (leBytes 2 5 ++ zeros 6 ++ leBytes 8 0x4321) (CO.wr64 POS_NOW_LO 0x43000000)) &&
      meetsYfiChannel 2 (s := cmd 3 0x0303 (blk 5 0x10) (CO)) && meetsYfiChannel 3 (s := cmd 3 0x0304 (leBytes 2 5) (CS)) &&
      meetsYfiChannel 4 (s := cmd 3 0x030B (leBytes 2 5 ++ leBytes 2 8 ++ leBytes 2 8 ++ zeros 2 ++ leBytes 8 0x1122334455667788) (CS))) = true := by
  decide +kernel

/-- The hypotheses of the clause numbered `clause`, counted from 0, of `Obligations.YfiGateResults`. -/
def meetsYfiGate (clause : Nat) (s : State := cmd 3 0x0305 (bl [1,1] ++ leBytes 2 2 ++ leBytes 8 0 ++ leBytes 8 0) (CS)) (m : Fin 16 := (3:Fin 16)) : Bool :=
  let a := mbArg s m.val
  let g := at' a 0
  let e := tblEntry a 0
  match clause with
  | 0 => decide (CfgReady s gateLoadCmd m.val)
  | 1 => decide (CfgReady s gateTableCmd m.val) && decide (at' a 1 = 1) && decide (at' e 0 = 0) && decide (at' e 1 = 1)
  | 2 => decide (CfgReady s gateTableCmd m.val) && decide (at' a 1 = 1) && decide (at' e 0 = 1) && decide (at' e 1 = 1)
  | 3 => decide (CfgReady s gateSwitchCmd m.val)
  | 4 => decide (CfgReady s puntCmd m.val)
  | 5 => decide (yfiReady s 0x0309 m.val = true) && decide (zeroAt a [(1, 1), (4, 4)] = true) && decide (g < 32) && decide (s.portFam g = 0) &&
      decide (s.portUp g = true)
  | 6 => decide (yfiReady s 0x0309 m.val = true) && decide (zeroAt a [(1, 1), (4, 4)] = true) && decide (32 ≤ g) && decide (g < 64) &&
      decide (s.portFam g = 0) && decide (s.portUp g = true) && decide (s.isSet (CELL_PORT_CFG_EN (g - 32)) = false)
  | 7 => decide (CfgReady s calendarCmd m.val) && decide (le a 14 2 = 2) && decide (le a 12 2 = 0) && decide (argBit a 3 2 = 0)
  | _ => true

theorem test_yfiGateResults_met_1 :
    (meetsYfiGate 0 && meetsYfiGate 1 (s := cmd 3 0x0306 (bl [1,1,0,0] ++ ent 0 0) (CS)) &&
      meetsYfiGate 2 (s := cmd 3 0x0306 (bl [1,1,0,0] ++ ent 1 7) (CS)) &&
      meetsYfiGate 3 (s := cmd 3 0x0307 (bl [1,4,3,0,0,0,0,0] ++ leBytes 8 0) (CS)) &&
      meetsYfiGate 4 (s := cmd 3 0x0308 (bl [1,1] ++ leBytes 2 64 ++ leBytes 4 9664 ++ leBytes 8 0x1000 ++ leBytes 8 0x3000) (CS)) &&
      meetsYfiGate 5 (s := cmd 3 0x0309 (bl [0,0,60,0,0,0,0,0] ++ zeros 60) (CS))) = true := by
  decide +kernel

theorem test_yfiGateResults_met_2 :
    (meetsYfiGate 6 (s := cmd 3 0x0309 (bl [32,0,60,0,0,0,0,0] ++ zeros 60) (CS)) &&
      meetsYfiGate 7 (s := cmd 3 0x030A (bl [0,1,1,3] ++ leBytes 8 0 ++ leBytes 2 0 ++ leBytes 2 2 ++ leBytes 2 5 ++ leBytes 2 0x3FF) (CS))) = true := by
  decide +kernel

end YfiChannel

namespace YfiKey

def KS : State := let s := ((State.reset.setF TR_STAT_ID_VALID 1).setF TR_STAT_SK_OK 1).setF TR_STAT_KEK_VALID 7
  { s with tack := { s.tack with certOk := true, idPub := zeros 2592, cert := zeros 9, kemPair := some (4, 99) } }
def KT (n : Nat) : State := KS.setF LOFT_BUDGET_CFG_TOKENS n
def tok (s : State) : State := s.setF LOFT_BUDGET_CFG_TOKENS 400
def KH : State := (KS.setF (CH_CFG_KEY_HOST 5) 1).setF (CH_CFG_MODE 5) 0
def KC : State := let s := (KH.setF (KB_ROLES_CUR_V 5 0) 1).setF (KB_ROLES_CUR_SLOT 5 0) 2
  (s.setF TR_CFG_EXPORT_EN 1).setSlot 22 { Slot.reset with kind := 2, bytes := bytesOf 46 (fun i => BitVec.ofNat 8 i) }
def KR : State := (KS.setF (BR_STAT_STATE 5) 2)

/-- The hypotheses of the clause numbered `clause`, counted from 0, of `Obligations.YfiKeyResults`. -/
def meetsYfiKey (clause : Nat) (s : State := tok (cmd 3 0x0505 (bl [4,1]) (KS))) (m : Fin 16 := (3:Fin 16)) (seed : Nat := 99) : Bool :=
  let a := mbArg s m.val
  let k := at' a 0
  let n := le a 0 2
  let free (x : Nat) : Bool := x ≤ s.getF LOFT_BUDGET_CFG_TOKENS
  match clause with
  | 0 => decide (yfiReady s 0x0501 m.val = true) && decide (s.chans.all (fun e => !(s.chOpen e.1 && s.isSet (BR_CFG_EN e.1))) = true) &&
      decide (kek0Ok s = true) && decide (s.noRandom = false) && decide (free 330 = true)
  | 1 => decide (yfiReady s 0x0502 m.val = true) && decide (s.isSet TR_STAT_ID_VALID = true) && decide (a.length ≤ 4064) &&
      decide (free ((a.length + 7) / 8 + 1) = true)
  | 2 => decide (yfiReady s 0x0503 m.val = true) && decide (k = 0) && decide (s.isSet TR_STAT_ID_VALID = true) && decide (s.tack.idPub.length = 2592)
  | 3 => decide (yfiReady s 0x0503 m.val = true) && decide (k = 1) && decide (s.tack.cert ≠ []) && decide (s.tack.cert.length ≤ 4064)
  | 4 => decide (yfiReady s 0x0504 m.val = true) && decide (keysReady s = true) && decide (zeroAt a [(2, 6)] = true) && decide (1 ≤ k) &&
      decide (k ≤ 15) && decide (kekUsable s (at' a 1) = true) && decide (engineOk s 0 = true) && decide (free 5 = true)
  | 5 => decide (yfiReady s 0x0505 m.val = true) && decide (keysReady s = true) && decide (s.noRandom = false) && decide (1 ≤ k) && decide (k ≤ 15) &&
      decide (at' a 1 = 0)
  | 6 => decide (yfiReady s 0x0505 m.val = true) && decide (keysReady s = true) && decide (1 ≤ k) && decide (k ≤ 15) && decide (at' a 1 = 1) &&
      decide (s.tack.kemPair = some (k, seed))
  | 7 => decide (s.tack.kemPair = some (k, seed))
  | 8 => decide (yfiReady s 0x0506 m.val = true) && decide (keysReady s = true) && decide (zeroAt a [(1, 7)] = true) && decide (1 ≤ k) &&
      decide (k ≤ 15) && decide (s.tack.kemPair = some (k, seed)) && decide (engineOk s 0 = true) && decide (engineOk s 1 = true) && decide (free 5 = true)
  | 9 => decide (yfiReady s 0x0507 m.val = true) && decide (keysReady s = true) && decide (zeroAt a [(4, 4)] = true) && decide (k ≤ 31) &&
      decide (at' a 1 ≤ 1) && decide (1 ≤ at' a 2) && decide (at' a 2 ≤ 15) && decide (at' a 3 ≤ 1) && decide (s.chans.all (fun e => !(s.chOpen e.1 &&
      s.isSet (BR_CFG_EN e.1) && s.getF (BR_CFG_PAIR e.1) = k)) = true) && decide (engineOk s 0 = true) && decide (free 12 = true)
  | 10 => decide (yfiReady s 0x0508 m.val = true) && decide (keyInstallBad a s = 0) && decide (at' a 3 = 0) && decide (engineOk s 0 = true) &&
      decide (nextLocked s n = false) && decide (s.isSet (KB_ROLES_SPARE_V n 0) = true ∨ (freeIndex s n).isSome = true)
  | 11 => decide (yfiReady s 0x0509 m.val = true) && decide (n < 512) && decide (at' a 2 = 0) && decide (s.isSet TR_CFG_EXPORT_EN = true) &&
      decide (s.isSet (KB_ROLES_CUR_V n 0) = true) && decide ((s.slot (slotOf n (s.getF (KB_ROLES_CUR_SLOT n 0)))).kind ≠ 0) &&
      decide (kekUsable s (at' a 3) = true) && decide (engineOk s 0 = true)
  | 12 => decide (CfgReady s keyPolicyCmd m.val)
  | 13 => decide (yfiReady s 0x050B m.val = true) && decide (n < 512) && decide (s.hwKeys n = true) && decide (s.brUp n = true) &&
      decide ((s.chan n).br.exch = none) && decide ((s.chan n).swOut = none) && decide ((s.chan n).swIn = none) && decide (nextLocked s n = false) &&
      decide ((s.chTwin n && s.isFollower) = false) && decide (engineOk s 1 = true) && decide (engineOk s 2 = true) &&
      decide (s.isSet (KB_ROLES_SPARE_V n 0) = true ∨ (freeIndex s n).isSome = true)
  | _ => true

theorem test_yfiKeyResults_met_1 :
    (meetsYfiKey 0 (s := tok (cmd 3 0x0501 ([]) (KS))) && meetsYfiKey 1 (s := tok (cmd 3 0x0502 (zeros 20) (KS))) &&
      meetsYfiKey 2 (s := tok (cmd 3 0x0503 ([0]) (KS))) && meetsYfiKey 3 (s := tok (cmd 3 0x0503 ([1]) (KS))) &&
      meetsYfiKey 4 (s := tok (cmd 3 0x0504 (bl [4,1,0,0,0,0,0,0] ++ bytesOf 40 (fun i => BitVec.ofNat 8 i)) (KS))) &&
      meetsYfiKey 5 (s := tok (cmd 3 0x0505 (bl [4,0]) (KS)))) = true := by
  decide +kernel

theorem test_yfiKeyResults_met_2 :
    (meetsYfiKey 6 && meetsYfiKey 7 && meetsYfiKey 8 (s := tok (cmd 3 0x0506 (bl [4,0,0,0,0,0,0,0] ++ zeros 1568) (KS))) &&
      meetsYfiKey 9 (s := tok (cmd 3 0x0507 (bl [4,1,1,1,0,0,0,0] ++ bytesOf 88 (fun i => BitVec.ofNat 8 i)) (KS))) &&
      meetsYfiKey 10 (s := tok (cmd 3 0x0508 (bl [5,0,1,0,2,0,0,0] ++ bytesOf 72 (fun i => BitVec.ofNat 8 i) ++ zeros 24) (KH))) &&
      meetsYfiKey 11 (s := tok (cmd 3 0x0509 (bl [5,0,0,1]) (KC)))) = true := by
  decide +kernel

theorem test_yfiKeyResults_met_3 :
    (meetsYfiKey 12 (s := tok (cmd 3 0x050A (bl [1,0,9,0]) (KS))) && meetsYfiKey 13 (s := tok (cmd 3 0x050B (bl [5,0]) (KR)))) = true := by
  decide +kernel

end YfiKey

namespace YfiLink

def BS : State := (State.reset.setF (CH_CFG_BRIDLE_HOST 5) 1).setF (BR_STAT_STATE 5) 2

/-- The hypotheses of the clause numbered `clause`, counted from 0, of `Obligations.YfiLinkResults`. -/
def meetsYfiLink (clause : Nat) (s : State := (cmd 3 0x0601 (bl [5,0,3,7,9,0,44,0,77,0,0,0]) (BS))) (m : Fin 16 := (3:Fin 16)) : Bool :=
  let a := mbArg s m.val
  let n := le a 0 2
  match clause with
  | 0 => decide (CfgReady s bridleConfigCmd m.val)
  | 1 => decide (yfiReady s 0x0602 m.val = true) && decide (n < 512) && decide (at' a 3 = 0) && decide (s.isSet (CH_CFG_BRIDLE_HOST n) = true) &&
      decide (at' a 2 = 0x0C ∨ at' a 2 = 0x0D) && decide (s.brUp n = true) && decide ((s.rd (BR_TX_SEQ n 0)).toNat + 1 < 2 ^ 32) &&
      decide (s.chTwin n = false)
  | 2 => decide (CfgReady s twinBindCmd m.val) && decide (argBit a 0 0 = 1)
  | 3 => decide (CfgReady s twinBindCmd m.val) && decide (argBit a 0 0 = 0)
  | 4 => decide (CfgReady s fabConfigCmd m.val)
  | 5 => decide (CfgReady s fabRightsCmd m.val)
  | 6 => decide (CfgReady s fabCustodyCmd m.val)
  | 7 => decide (CfgReady s fabForwardCmd m.val)
  | _ => true

theorem test_yfiLinkResults_met_1 :
    (meetsYfiLink 0 && meetsYfiLink 1 (s := (cmd 3 0x0602 (bl [5,0,0x0C,0] ++ zeros 32) (BS))) &&
      meetsYfiLink 2 (s := (cmd 3 0x0701 (bl [0xD,3,9,0,7,0,8,0]) (BS))) && meetsYfiLink 3 (s := (cmd 3 0x0701 (bl [0xC,3,9,0,7,0,8,0]) (BS))) &&
      meetsYfiLink 4 (s := (cmd 3 0x0801 (bl [0xC,3,9,0,7,0,8,0] ++ zeros 8) (BS))) &&
      meetsYfiLink 4 (s := (cmd 3 0x0801 (bl [0xD,3,9,0,7,0,8,0] ++ zeros 8) (BS)))) = true := by
  decide +kernel

theorem test_yfiLinkResults_met_2 :
    (meetsYfiLink 5 (s := (cmd 3 0x0802 (bl [9,1,0xA,0]) (BS))) && meetsYfiLink 6 (s := (cmd 3 0x0803 (bl [5,0,3,0,9,0,0,0,77,1,0,0]) (BS))) &&
      meetsYfiLink 7 (s := (cmd 3 0x0804 (bl [5,0,7,3,9,0,8,0,1,2,3,4,5,1,0,0]) (BS)))) = true := by
  decide +kernel

end YfiLink

namespace YfiSystem

def shOn (s : State) : State := (List.range 32).foldl (fun s k => if k < 12 || (16 ≤ k && k < 24) then (s.setShed k 2) else s) s
def DS : State := ((((shOn State.reset).setF (DRAY_CTL_CUST 4) 1).setF (DRAY_STAT_LM_READY 4) 1).setF (DRAY_STAT_STATE 4) 1)

/-- The hypotheses of the clause numbered `clause`, counted from 0, of `Obligations.YfiSystemResults`. -/
def meetsYfiSystem (clause : Nat) (s : State := (cmd 3 0x0901 (bl [0x1F,0,0,0]) (DS))) (m : Fin 16 := (3:Fin 16)) : Bool :=
  let a := mbArg s m.val
  let k := at' a 0
  let o := le a 4 4
  let last := if s.ym.tagged.contains 15 then s.rd64 (MB_TAG_LO 15) else s.rd64 (MB_WM_LO 15)
  match clause with
  | 0 => decide (CfgReady s draySplitCmd m.val)
  | 1 => decide (yfiReady s 0x0902 m.val = true) && decide (zeroAt a [(1, 3), (12, 4)] = true) && decide (k ≤ 31) &&
      decide (s.isSet (DRAY_CTL_CUST k) = true) && decide (o % 8 = 0) && decide (o + le a 8 4 ≤ 0x80000) && decide (a.length = 16 + le a 8 4) &&
      decide (coreRuns s k = false) && decide (s.shedOn (k / 2) = true) && decide (s.isSet (DRAY_STAT_LM_READY k) = true) &&
      decide (confinedHit (s.core k) o (le a 8 4) = false)
  | 2 => decide (CfgReady s drayControlCmd m.val) && decide (at' a 1 = 0)
  | 3 => decide (CfgReady s drayControlCmd m.val) && decide (at' a 1 = 1) && decide (s.isSet (DRAY_STAT_LM_READY k) = true) &&
      decide (s.isSet (DRAY_CTL_RUN k) = false)
  | 4 => decide (CfgReady s memApertureCmd m.val)
  | 5 => decide (CfgReady s bellHostDbCmd m.val)
  | 6 => decide (CfgReady s shedSetCmd m.val) && decide (s.ym.shedBox = none)
  | 7 => decide (yfiReady s 0x0D02 m.val = true) && decide (zeroAt a [(1, 3)] = true) && decide (k ≤ 31) && decide (s.shedOn k = true)
  | 8 => decide (CfgReady s loftBudgetCmd m.val)
  | 9 => decide (yfiReady s 0x0E02 m.val = true)
  | 10 => decide (CfgReady s farrierCmd m.val)
  | 11 => decide (yfiReady s 0x1001 m.val = true)
  | 12 => decide (CfgReady s ledgerConfigCmd m.val)
  | 13 => decide (CfgReady s ledgerReactionCmd m.val)
  | 14 => decide (yfiReady s 0x1004 m.val = true)
  | 15 => decide (CfgReady s statsModeCmd m.val)
  | 16 => decide (CfgReady s compatConfigCmd m.val)
  | 17 => decide (s.isSet HOST_WIN_COMPAT_EN = true) && decide (served s = true) && decide (s.getF (MB_STATUS_STATE 15) ≠ 1) &&
      decide (s.getF (MB_STATUS_STATE 15) ≠ 2) && decide (last.toNat + 1 < 2 ^ 64) && decide (last.toNat + 1 ≤ (s.rd64 (MB_WM_LO 15)).toNat)
  | _ => true

theorem test_yfiSystemResults_met_1 :
    (meetsYfiSystem 0 && meetsYfiSystem 1 (s := (cmd 3 0x0902 (bl [4,0,0,0,16,0,0,0,5,0,0,0,0,0,0,0,1,2,3,4,5]) (DS))) &&
      meetsYfiSystem 2 (s := (cmd 3 0x0903 (bl [4,0,0,0,0x40,0,0,0]) (DS))) &&
      meetsYfiSystem 3 (s := (cmd 3 0x0903 (bl [4,1,0,0,0x40,0,0,0]) (DS))) && meetsYfiSystem 4 (s := (cmd 3 0x0A01 (bl [1,0,0,0]) (DS))) &&
      meetsYfiSystem 5 (s := (cmd 3 0x0B01 (bl [1,0,0,0]) (DS)))) = true := by
  decide +kernel

theorem test_yfiSystemResults_met_2 :
    (meetsYfiSystem 6 (s := (cmd 3 0x0D01 (bl [0xff,0xff,0xff,0xff,0,0,0,0]) (DS))) && meetsYfiSystem 7 (s := (cmd 3 0x0D02 (bl [2,0,0,0]) (DS))) &&
      meetsYfiSystem 7 (s := (cmd 3 0x0D02 (bl [17,0,0,0]) (DS))) && meetsYfiSystem 8 (s := (cmd 3 0x0E01 (bl [77,0,0,0]) (DS))) &&
      meetsYfiSystem 8 (s := (cmd 3 0x0E01 (bl [0,0,0,0]) (DS))) && meetsYfiSystem 9 (s := (cmd 3 0x0E02 ([]) (DS)))) = true := by
  decide +kernel

theorem test_yfiSystemResults_met_3 :
    (meetsYfiSystem 10 (s := (cmd 3 0x0F01 (bl [5,0,33,7]) (DS))) && meetsYfiSystem 11 (s := (cmd 3 0x1001 ([]) (DS))) &&
      meetsYfiSystem 12 (s := (cmd 3 0x1002 (bl [1,5,0,0,0,2,0,0,0,0,1,0,0,0,0,0,0,0,2,0,0,0,0,0]) (DS))) &&
      meetsYfiSystem 13 (s := (cmd 3 0x1003 (bl [1,2,3,0]) (DS))) &&
      meetsYfiSystem 14 (s := (cmd 3 0x1004 (bl [0xff,0xff]) ((((DS.report 3 0x0101 noPath 0).setF (LEDGER_FSTATE_RAISED 0x0101) 1).setF (LEDGER_FSTATE_RAISED 0x0203) 1).setF (LEDGER_FSTATE_HITS 0x0203) 9 |> fun s => s.setF POS_STAT_STATE 2))) &&
      meetsYfiSystem 15 (s := (cmd 3 0x1005 (bl [1,0,100,0]) (DS)))) = true := by
  decide +kernel

theorem test_yfiSystemResults_met_4 :
    (meetsYfiSystem 16 (s := (cmd 3 0x1006 (bl [1,0,0,0]) (DS))) &&
      meetsYfiSystem 17 (s := (cmd 3 0 ([]) (((DS.setF HOST_WIN_COMPAT_EN 1).wr64 (MB_WM_LO 15) 100) |> fun s => { s with ym := { s.ym with tagged := [15] } })))) = true := by
  decide +kernel

end YfiSystem

namespace LedgerFarrier

def R1 : Report := { stamp := 0x1234500007, origin := 0x105, code := 0x0203, path := 512, data := 99, cont := some 5, inj := false, merged := 2 }
def Rec1 : Record := recordOf R1 3 false
def L0 : State := ((State.reset.setF LEDGER_WR_WR 8190).setF LEDGER_RD_RD 3).modLedger (fun l => { l with fifo := [Rec1, {Rec1 with code := 5}] })
def L1 : State := State.reset.modLedger (fun l => { l with queues := [(0x05, [R1])] })
def L2 : State := (State.reset.modLedger (fun l => { l with co := [{ origin := 5, code := 0x203, endBeat := 9, count := 3, last := R1 }, { origin := 6, code := 0x203, endBeat := 9, count := 0, last := R1 },{ origin := 7, code := 0x203, endBeat := 90000, count := 0, last := R1 }] }))
def L3 : State := L2.wr64 POS_NOW_LO (100 * 65536)
def LP : State := ((L0.setF LEDGER_CFG_MODE 1).modLedger (fun l => { l with hostRing := 0x1000, hostIdx := 0x8000 })).modPower (fun p => { p with pcie := true })
def LH : State := hostWrite 0x8004 (leBytes 4 77) LP
def LM : State := (hostWrite 0x1060 ((List.range 64).map (BitVec.ofNat 8)) (((L0.setF LEDGER_WR_WR 5).setF LEDGER_STAT_MOVING 1).modLedger (fun l => { l with oldHost := true, oldRing := 0x1000, oldSize := 256 })))
def LI : State := (State.reset.modPower (fun p => { p with ftm := true })).wr LEDGER_INJ_ORG 0x45
def shOn (s : State) : State := (List.range 32).foldl (fun s k => (s.setShed k 2)) s
def F0 : State := { (shOn State.reset).setF FARR_CFG_RAIL_EN 1 with urgentRails := [7], railPass := [(3,95),(7,94)], untested := [3], lateTargets := [(0,3),(1,1),(2,4),(5,9)] }
def F1 : State := { (((((F0.setF FARR_CFG_DRAY_EN 1).setF FARR_CFG_SERDES_EN 1).setF FARR_CFG_MARGIN_MV 50).setF (DRAY_STAT_STATE 4) 3).setF (DRAY_CTL_RUN 4) 1) with urgentRails := [] }

/-- The hypotheses of the clause numbered `clause`, counted from 0, of `Obligations.LedgerResults`. -/
def meetsLedger (clause : Nat) (s : State := L0) (u : Nat := 5) (r : Report := R1) (x : Record := Rec1) (l : List Record := [{Rec1 with code := 5}])
    (v : Word := 77) : Bool :=
  let due := s.ledger.co.filter (fun e => s.beatDue e.endBeat)
  let host := leVal (hostRead s (s.ledger.hostIdx + 4) 4)
  match clause with
  | 0 => decide (s.ledger.stuck = []) && decide (nextReport s = some (u, r)) && decide (s.getF (LEDGER_FSTATE_REACTION r.code) ≤ 1) &&
      decide (s.ledger.co.any (fun e => e.origin = r.origin && e.code = r.code) = false) && decide (s.ledger.fifo.length ≤ 54) &&
      decide (s.ledger.co.length < 32)
  | 1 => decide (s.ledger.fifo.length + 2 * due.length ≤ 56)
  | 2 => decide (s.isSet LEDGER_STAT_MOVING = false) && decide (s.isSet LEDGER_CFG_MODE = false) && decide (NothingOwed s) &&
      decide (s.ledger.fifo = x :: l) && decide (s.ledger.stuck = []) && decide (ringHeld s < ringReserve s)
  | 3 => decide (s.isSet LEDGER_CFG_MODE = false) && decide (NothingOwed s) && decide ((ringWr s + 2 ^ 32 - v.toNat) % 2 ^ 32 ≤ ringHeld s)
  | 4 => decide (s.isSet LEDGER_CFG_MODE = false) && decide (NothingOwed s) && decide (ringHeld s < (ringWr s + 2 ^ 32 - v.toNat) % 2 ^ 32)
  | 5 => decide (s.isSet LEDGER_CFG_MODE = true) && decide (s.power.pcie = true) && decide (NothingOwed s) &&
      decide ((ringWr s + 2 ^ 32 - host) % 2 ^ 32 ≤ ringHeld s)
  | 6 => decide (s.isSet LEDGER_STAT_MOVING = true) && decide (s.isSet LEDGER_CFG_MODE = false) && decide (s.ledger.oldHost = true) &&
      decide (NothingOwed s) && decide (ringHeld s ≤ ringPad)
  | 7 => decide (s.power.ftm = true)
  | 8 => decide (s.power.ftm = false)
  | _ => true

theorem test_ledgerResults_met_1 :
    (meetsLedger 0 (s := L1) && meetsLedger 1 (s := L3) && meetsLedger 2 (s := L0.setF LEDGER_RD_RD 200) && meetsLedger 3 (v := 8190) &&
      meetsLedger 3 && meetsLedger 4 (v := 1)) = true := by
  decide +kernel

theorem test_ledgerResults_met_2 :
    (meetsLedger 5 (s := LH) && meetsLedger 6 (s := LM) && meetsLedger 7 (s := LI) (v := 0x80050203) && meetsLedger 7 (s := LI) (v := 0x00050203) &&
      meetsLedger 8 (s := State.reset)) = true := by
  decide +kernel

/-- The hypotheses of the clause numbered `clause`, counted from 0, of `Obligations.FarrierResults`. -/
def meetsFarrier (clause : Nat) (s : State := F0) (r : Fin 40 := 7) (b : Fin 40 := 9) (k : Fin 32 := 4) (c : Fin 6 := 2) (n : Nat := 4)
    (l : Fin 80 := 9) (v : BitVec 12 := 60) : Bool :=
  let pass := tblGet 0 r.val s.railPass
  match clause with
  | 0 => decide (railMayTest s r.val = true) && decide (pass + 1 < 96)
  | 1 => decide (railMayTest s r.val = true) && decide (96 ≤ pass + 1)
  | 2 => decide (railMayTest s r.val = true)
  | 3 => decide (r ≠ b) && decide (r.val / 20 = b.val / 20)
  | 5 => decide (s.isSet FARR_CFG_RAIL_EN = true)
  | 6 => decide (s.isSet FARR_CFG_RAIL_EN = true)
  | 7 => decide (coverageOwed s 2 k.val = true) && decide (s.coreState k.val = 3)
  | 8 => decide (coverageOwed s 2 k.val = true) && decide (s.coreState k.val = 3)
  | 9 => decide (coverageOwed s c.val n = true)
  | 10 => decide (coverageOwed s 5 l.val = true) && decide (s.getF FARR_CFG_MARGIN_MV ≤ v.toNat)
  | 11 => decide (coverageOwed s 5 l.val = true) && decide (v.toNat < s.getF FARR_CFG_MARGIN_MV) && decide (lanePort s l.val = some n) && decide (n < 72)
  | _ => true

theorem test_farrierResults_met_1 :
    (meetsFarrier 0 && meetsFarrier 1 (s := F1) (r := 3) && meetsFarrier 2 && meetsFarrier 2 (s := F1) (r := 3) && meetsFarrier 3 (r := 3) &&
      meetsFarrier 5) = true := by
  decide +kernel

theorem test_farrierResults_met_2 :
    (meetsFarrier 6 && meetsFarrier 7 (s := F1) && meetsFarrier 8 (s := F1) && meetsFarrier 9 (s := F1) &&
      meetsFarrier 9 (s := F1) (c := 5) (n := 60) && meetsFarrier 10 (s := F1)) = true := by
  decide +kernel

theorem test_farrierResults_met_3 :
    (meetsFarrier 11 (s := ((((F1.setF (PORT_CFG_EN 8) 1).setF (PORT_CFG_TYPE 8) 2).setF (GRP_CFG_FAMILY 1) 0).setF (GRP_LANEMAP_RX_MAP 1) 0xFAC688)) (n := 8) (l := 8) (v := 20)) = true := by
  decide +kernel

end LedgerFarrier

namespace Power

def shOn (s : State) : State := (List.range 32).foldl (fun s k => (s.setShed k 2)) s
def P0 : State := (shOn State.reset).setF YM_ARB_HELD 1
def P1 : State := ((P0.setShed 3 1).setCore 6 { Core.reset with farSeq := 9, pc := 64 }).setF (DRAY_STAT_LM_READY 6) 1
def P2 : State := ((State.reset.setShed 2 2).modPower (fun p => { p with want := [3,17,25], rising := some 17 }))
def P2b (k : Nat) : State := ((State.reset.setShed 2 2).modPower (fun p => { p with want := [3,17,25], rising := some k })).setF PWR_SHED_REQ_ON 0xffffffff
def P3 : State := ((State.reset.setShed 2 2).modPower (fun p => { p with want := [2,3,17,25], last := some 0 }) |> fun s => { s with now := 40000 })
def P4 : State := (P2b 3).modPower (fun p => { p with resets := [2, 5], rising := none }) |> fun s => (s.setShed 2 1).setShed 5 1
def P5 : State := { State.reset with ym := { State.reset.ym with fwReady := true } }
def P6 : State := (State.reset.setF (SRC_CFG_SENSE 600) 3).setF (SRC_CFG_WAKE 600) 1 |> fun s => { (s.modPower (fun p => { p with asleep := true })) with bell := { s.bell with inputs := [(600, true)] } }
def W0 : State := { (loftProgram 2 77 (loftProgram 40 5 (State.reset.stLE 0x1000 8 99))) with loftQ := [{ word := 3, value := 7, urgent := false, wait := .plain }, { word := 9, value := 8, urgent := true, wait := .plain }] }
def B0 : State := (loftProgram 1 2 (loftProgram 3 0x405 (loftProgram 14 99 (loftProgram 29 1 (loftProgram 2 0x500000009 State.reset)))))
def B1 : State := State.reset.modPower (fun p => { p with boot := 1 })
def B2 : State := (State.reset.setF YM_ARB_HELD 1).modPower (fun p => { p with boot := 2, boundary := [("A", true), ("B", false)] })
def CH : State := (((State.reset.setF (CH_CFG_STATE 5) 1).setF (CH_CFG_STATE 9) 1).modLedger (fun l => { l with mutes := [(5, .code 3), (7, .refclk), (5, .refclk)] }))

/-- The hypotheses of the clause numbered `clause`, counted from 0, of `Obligations.ShedResults`. -/
def meetsShed (clause : Nat) (s : State := P0) (r : Requester := Requester.ymE) (v : Word := 0xF0FFFFFF) (k : Fin 32 := 3) (j : Nat := 3)
    (st : Nat := 5) : Bool :=
  match clause with
  | 0 => decide (isLeader s r = true) && decide (shedRefusal s v.toNat = none)
  | 1 => decide (isLeader s r = true) && decide (shedRefusal s v.toNat = some (j, st))
  | 2 => decide (s.shedState k.val = 1) && decide (s.power.resets.contains k.val = false) && decide (shedDrained s k.val = true)
  | 3 => decide (s.power.rising = none) && decide (s.power.want.find? (fun i => s.shedState i = 0) = some j) &&
      decide (s.power.last.all (fun x => x + 37500 ≤ s.now) = true)
  | 4 => decide (s.power.rising = some k.val)
  | 5 => decide (s.power.rising = some k.val)
  | 6 => decide (isLeader s r = true)
  | 7 => decide (s.power.resets.contains k.val = true) && decide (maskBit (s.getF PWR_SHED_REQ_ON) k.val = true)
  | 8 => decide (maySleep s = true) && decide (s.power.asleep = false)
  | 9 => decide (s.clocksStopped = true) && decide (j < 1023)
  | 10 => decide (s.power.asleep = true)
  | _ => true

theorem test_shedResults_met_1 :
    (meetsShed 0 (v := 0xFEFFFFFF) && meetsShed 1 (s := (P0.setF (DRAY_STAT_STATE 6) 2)) (v := 0xFFFFFFF7) && meetsShed 2 (s := P1) &&
      meetsShed 2 (s := P0.setShed 20 1) (k := 20) && meetsShed 3 (s := P3) && meetsShed 4 (s := P2) (k := 17)) = true := by
  decide +kernel

theorem test_shedResults_met_2 :
    (meetsShed 4 (s := P2b 3) && meetsShed 5 (s := P2b 3) && meetsShed 6 (v := 0x01010108) && meetsShed 6 (v := 0x82010108) &&
      meetsShed 7 (s := P4) (k := 2) && meetsShed 8 (s := P5)) = true := by
  decide +kernel

theorem test_shedResults_met_3 :
    (meetsShed 9 (s := P6) (j := 600) && meetsShed 9 (s := P6) (j := 601) && meetsShed 10 (s := P6)) = true := by
  decide +kernel

/-- The hypotheses of the clause numbered `clause`, counted from 0, of `Obligations.ResetResults`. -/
def meetsReset (clause : Nat) (s : State := W0) (e : LoftWrite := { word := 9, value := 8, urgent := true, wait := .plain })
    (q : List LoftWrite := [{ word := 3, value := 7, urgent := false, wait := .plain }]) (fails : Nat := 2) (addr : BitVec 7 := 0x5D) : Bool :=
  let word (i : Nat) (t : State) : Prop := t.loftWord i = s.loftWord i + 1 ∧ BytesIn (fun a => a < loftBase + 8 * i || loftBase + 8 * i + 8 ≤ a) s t ∧
        tblGet 0 i t.wear = tblGet 0 i s.wear + 1 ∧ t = { s with csr := t.csr, mem := t.mem, wear := t.wear, loftBad := t.loftBad, loftWarned := t.loftWarned, ledger := t.ledger }
  match clause with
  | 4 => decide (2 ≤ s.power.boot)
  | 6 => decide (s.power.boot = 0) && decide (s.loftBad = []) && decide ((s.loftWord 1).toNat % 2 = 0)
  | 7 => decide (s.power.boot = 1) && decide (s.power.resets = []) && decide (s.rd64 PWR_SHED_STAT_LO = 0) && decide (s.tack.zeroLow = false) &&
      decide (s.tack.zeroVault = false) && decide (s.isSet TR_STAT_ERASE_PEND = false)
  | 8 => decide (s.power.boot = 2) && decide (s.isSet FARR_STAT_POST_FAIL = false) && decide (s.isSet YM_ARB_HELD = true) && decide (shedsSettled s = true)
  | 9 => decide (s.power.boot = 2) && decide (s.isSet FARR_STAT_POST_FAIL = false)
  | 10 => decide (loftNext s.loftQ = some (e, q)) && decide (e.word < 0x8000) && decide (fails < 3)
  | 11 => decide (loftNext s.loftQ = some (e, q)) && decide (e.word < 0x8000) && decide (3 ≤ fails) && decide (e.wait = .plain)
  | 13 => decide (s.sysLost = false)
  | 14 => decide (s.sysLost = true)
  | 17 => decide (addr = 0x5D)
  | 25 => decide (s.power.ftm = false)
  | 26 => decide (s.power.ftm = false)
  | 27 => decide (s.power.ftm = false)
  | 28 => decide (s.power.ftm = true)
  | _ => true

theorem test_resetResults_met_1 :
    (meetsReset 4 (s := B2) && meetsReset 6 (s := B0) && meetsReset 7 (s := B1) && meetsReset 8 (s := B2) && meetsReset 9 (s := B2) &&
      meetsReset 10) = true := by
  decide +kernel

theorem test_resetResults_met_2 :
    (meetsReset 11 (fails := 3) && meetsReset 13 (s := CH) && meetsReset 14 (s := { CH with sysLost := true }) && meetsReset 17 && meetsReset 25 &&
      meetsReset 26) = true := by
  decide +kernel

theorem test_resetResults_met_3 :
    (meetsReset 27 && meetsReset 28 (s := B2.modPower (fun p => { p with ftm := true }))) = true := by
  decide +kernel

end Power

namespace YardBell

def T0 : State := { (((State.reset.setF YM_ARB_REQ_W 1).setF YM_ARB_READY_W 1).setF YM_EPOCH_EPOCH 0xffffffff) with clearTx := [(40, 3, [1,2])], ym := { State.reset.ym with held := [4, 40], fwReady := true, tried := 5 } }
def T1 : State := showLead ((((State.reset.setF YM_ARB_HELD 1).setF YM_ARB_READY_W 1).setF (YM_CTL_REQUEST 0) 1).setF (YM_CTL_READY 1) 1)
def T2 : State := { (T1) with now := 99999999, ym := { T1.ym with fwReady := true } }
def ring (m tag : Nat) (s : State) : State := (s.setBytes (cmdBuf m) (leBytes 2 0x0201 ++ leBytes 2 16 ++ zeros 4 ++ leBytes 8 tag ++ zeros 8 ++ zeros 16)).setF LOFT_BUDGET_CFG_TOKENS 60
def Hst : State := { (T2.modPower (fun p => { p with pcie := true })).setF HOST_WIN_AP_EN 1 with padWritten := [(0x200000/64, true)] } |> fun s => (s.setF (PADK_OWNER_OWNER 16) 48).setBytes 0x200000 (bl [1,2,3,4,5])
def xm : FabMsg := { port := 0, typ := 6, flags := 0, dst := 1, src := 7, een := 0, status := 0, tag := 0, addr := 0, body := [0x10, 3, 0x03, 0x0B] ++ zeros 8 ++ [0, 16] ++ bl [5,0,8,0,8,0,0,0,1,2,3,4,5,6,7,8] }
def Mst : State := { ((T2.setF FAB_CFG_EN 1).setF FAB_STAT_IS_MASTER 1).setF FAB_STAT_QUORUM 1 with fab := { State.reset.fab with inq := [xm, xm] } }
def pl : Pulled := { gen := 77, digest := zeros 16, raw := [0,0] ++ beBytes 8 (recKey 9 3 5 0x0B04) ++ [0,2,7,8], whole := true }
def Pld : State := { T2 with fab := { State.reset.fab with pulled := some pl } }
def Pl2 : State := { T2 with fab := { State.reset.fab with pulled := some {pl with digest := [1]} } }
def E0 (n : Nat) : State := (((State.reset.setF (SRC_CFG_SENSE n) 2).wr (TGT_EN 3 (n/32)) 0xffffffff).wr (TGT_PRIO 3 (n/8)) 0x77777777).setF (TGT_CTL_HOLDOFF 3) 9 |> fun s => s.setShed 1 2
def E1 (n : Nat) : State := (E0 n).setF (bellBit (BELL_PEND 0) n) 1
def E2 (n : Nat) : State := (((E0 n).setF (bellBit (BELL_PEND 0) n) 1).setF (bellBit (BELL_ACTIVE 0) n) 1).setF (SRC_CFG_TAKER n) 3
def Ez (n : Nat) (s : State) : State := (s.setF BELL_FREEZE_FREEZE 1).setF BELL_FREEZE_HOLDER 32
def Ef : State := { Ez 5 (E1 600) with bell := { (E1 600).bell with shPend := [(700, some true)], shActive := [(5, some false)], waiting := [3, 32] } }
def G0 : State := { T1 with padWritten := [(2, true)], lateTargets := [(3,0),(4,0),(5,1)] }

/-- The hypotheses of the clause numbered `clause`, counted from 0, of `Obligations.YardResults`. -/
def meetsYard (clause : Nat) (s : State := T1) (y : Fin 2 := 0) (w : Bool := true) (d : BitVec 128 := 0) (m : Fin 16 := 5) (o : Nat := 0x200000)
    (n : Fin 9 := 5) (l : List Byte := bl [9,8,7]) (c : CfgCmd := customerCmd) (x : FabMsg := xm) (rest : List FabMsg := [xm]) (p : Pulled := pl) : Bool :=
  let tag := mbTag s m.val
  let st := s.getF (MB_STATUS_STATE m.val)
  let rings := s.ym.fwReady && decide (st ≠ 1) && decide (st ≠ 2) && decide (m.val ≠ 15) && !s.isSet (MB_STATUS_NO_LEADER m.val) &&
        decide (mbLen s m.val ≤ 4072) && yfiLenOk (mbOp s m.val) (mbLen s m.val) (mbArg s m.val) &&
        decide ((if s.ym.tagged.contains m.val then s.rd64 (MB_TAG_LO m.val) else s.rd64 (MB_WM_LO m.val)).toNat < tag)
  match clause with
  | 0 => decide (s.isSet YM_ARB_HELD = false) && decide (tokenNext s = some w)
  | 1 => decide (s.isSet YM_ARB_HELD = false) && decide (tokenNext s = some w)
  | 2 => decide (isHolder s y.val = true)
  | 3 => decide (isHolder s y.val = true)
  | 4 => decide (s.isSet YM_ARB_HELD = true) && decide (s.ym.alive + wdogTicks s ≤ s.now)
  | 8 => decide (s.isSet YM_ARB_HELD = true) && decide (s.isSet HOST_LEAD_STANDBY_READY = false)
  | 9 => decide (rings = true) && decide (tag ≤ (s.rd64 (MB_WM_LO m.val)).toNat)
  | 10 => decide (rings = true) && decide ((s.rd64 (MB_WM_LO m.val)).toNat < tag) && decide (1 ≤ s.getF LOFT_BUDGET_CFG_TOKENS)
  | 11 => decide (s.power.pcie = true) && decide (s.isSet HOST_WIN_AP_EN = true) && decide (o < 0x4000000) &&
      decide ((padBanks o n.val).all (padMayRead s .host) = true) && decide ((padLines o n.val).all (fun i => tblGet false i s.padWritten) = true) &&
      decide ((wordsOf o n.val).all (fun i => !s.eccBad.contains i) = true)
  | 12 => decide (s.power.pcie = true) && decide (s.isSet HOST_WIN_AP_EN = true) && decide (o < 0x4000000) && decide (l ≠ []) &&
      decide ((padBanks o l.length).all (padMayWrite s .host) = true)
  | 14 => decide (s.fab.pulled = some p) && decide (p.whole = true)
  | _ => true

theorem test_yardResults_met_1 :
    (meetsYard 0 (s := T0) && meetsYard 1 (s := T0) && meetsYard 2 && meetsYard 3 && meetsYard 4 (s := T2) &&
      meetsYard 8 (s := T1.setF HOST_LEAD_STANDBY_READY 0)) = true := by
  decide +kernel

theorem test_yardResults_met_2 :
    (meetsYard 9 (s := ring 5 9 ((T2.wr64 (MB_WM_LO 5) 10).wr64 (MB_TAG_LO 5) 8 |> fun s => {s with ym := {s.ym with tagged := [5]}})) &&
      meetsYard 10 (s := ring 5 19 (T2.wr64 (MB_WM_LO 5) 10)) && meetsYard 11 (s := Hst) && meetsYard 12 (s := Hst) && meetsYard 14 (s := Pld) &&
      meetsYard 14 (s := Pl2) (p := {pl with digest := [1]})) = true := by
  decide +kernel

theorem leVal_lt (l : List Byte) : leVal l < 256 ^ l.length := by
  induction l with
  | nil => simp [leVal]
  | cons a r ih =>
    have h := a.isLt
    simp only [leVal, List.length_cons, Nat.pow_succ]
    omega

/-- Clauses 6 and 7: a standby that holds the configuration's digest, and one that does not. -/
theorem test_yardDigest_met :
    T1.isSet YM_ARB_HELD = true ∧ (BitVec.ofNat 128 (be (cfgDigest T1) 0 16)).toNat = be (cfgDigest T1) 0 16 ∧
      (BitVec.ofNat 128 (be (cfgDigest T1) 0 16 + 1)).toNat ≠ be (cfgDigest T1) 0 16 := by
  have h : be (cfgDigest T1) 0 16 < 2 ^ 128 := by
    have := leVal_lt (slice (cfgDigest T1) 0 16).reverse
    have e : (slice (cfgDigest T1) 0 16).reverse.length = 16 := by
      simp only [List.length_reverse, slice, zeros, List.length_append, List.length_take, List.length_drop, List.length_replicate]
      omega
    rw [e] at this
    exact this
  refine ⟨by decide +kernel, ?_, ?_⟩
  · rw [BitVec.toNat_ofNat]; omega
  · rw [BitVec.toNat_ofNat]; omega

/-- Clause 13: a member's CH_CUSTOMER reaches the master. -/
theorem test_yardSubmit_met :
    cfgSubmits.find? (fun c => c.op = be xm.body 2 2) = some customerCmd ∧
      (decide (Mst.fab.inq = [xm, xm]) && decide (xm.typ = 6) && decide (at' xm.body 0 = 0x10) && Mst.isSet FAB_CFG_EN && Mst.isSet FAB_STAT_IS_MASTER &&
        Mst.isSet FAB_STAT_QUORUM && decide (be xm.body 4 8 = 0 ∨ be xm.body 4 8 = Mst.gen)) = true := by
  refine ⟨rfl, ?_⟩
  decide +kernel

/-- The hypotheses of the clause numbered `clause`, counted from 0, of `Obligations.BellResults`. -/
def meetsBell (clause : Nat) (s : State := Ef) (n : Nat := 600) (t : Nat := 3) (r : Requester := .dray 3) (v : Word := 600) : Bool :=
  let best := bellBest s t
  let f := fldGet 9 0 v
  let home := s.getF (SRC_CFG_HOME f)
  let live := s.isSet BELL_FREEZE_FREEZE = false
  match clause with
  | 0 => decide (s.clocksStopped = false) && decide (live) && decide (bellReserved n = false)
  | 1 => decide (s.clocksStopped = true)
  | 2 => decide (bellTargetOf r = some t) && decide (live) && decide (best ≠ 0)
  | 3 => decide (bellTargetOf r = some t) && decide (live) && decide (best = 0)
  | 4 => decide (bellTargetOf r = some t) && decide (s.isSet BELL_FREEZE_FREEZE = true)
  | 5 => decide (bellTargetOf r = some t) && decide (live) && decide (f ≠ 0) && decide (f ≠ 1023) && decide (bellActive s f = true) &&
      decide (s.getF (SRC_CFG_TAKER f) = t)
  | 6 => decide (bellTargetOf r = some t) && decide (f ≠ 0) && decide (f ≠ 1023) && decide ((bellActive s f && decide (s.getF (SRC_CFG_TAKER f) = t)) = false)
  | 7 => decide (r = .ymE ∨ r = .ymW ∨ (r = .host ∧ s.bell.hostDb = true)) && decide (live) && decide (960 ≤ f) && decide (f ≤ 1022) &&
      decide (home = 31 ∨ s.shedState home = 2)
  | 8 => decide (r = .ymE ∨ r = .ymW ∨ (r = .host ∧ s.bell.hostDb = true)) && decide (960 ≤ f) && decide (f ≤ 1022) && decide (home ≠ 31) &&
      decide (s.shedState home = 0) && decide (s.isSet (SRC_CFG_WAKE f) = true)
  | 9 => decide (r = .ymE ∨ r = .ymW ∨ (r = .host ∧ s.bell.hostDb = true)) && decide (960 ≤ f) && decide (f ≤ 1022) && decide (home ≠ 31) &&
      decide (s.shedState home = 1)
  | 10 => decide (live) && decide (s.bell.expired ≠ some (requesterCode r))
  | 11 => decide (s.isSet BELL_FREEZE_FREEZE = true) && decide (s.getF BELL_FREEZE_HOLDER = requesterCode r)
  | 12 => decide (s.isSet BELL_FREEZE_FREEZE = true)
  | 13 => decide (bellTargets.contains t = true)
  | _ => true

theorem test_bellResults_met_1 :
    (meetsBell 0 (s := E0 600) && meetsBell 0 (s := E1 600) && meetsBell 1 (s := E0 600 |> fun s => s.modPower (fun p => {p with asleep := true})) &&
      meetsBell 2 (s := E1 600) && meetsBell 3 (s := State.reset.setF (TGT_STAT_REQ_SEEN 3) 1) && meetsBell 3 (s := E0 600)) = true := by
  decide +kernel

theorem test_bellResults_met_2 :
    (meetsBell 4 && meetsBell 5 (s := E2 600) && meetsBell 5 (s := (E2 600).setF (SRC_CFG_SENSE 600) 0) && meetsBell 6 (s := E1 600) && meetsBell 6 &&
      meetsBell 7 (s := State.reset.setF (SRC_CFG_HOME 1000) 31) (r := .ymE) (v := 1000)) = true := by
  decide +kernel

theorem test_bellResults_met_3 :
    (meetsBell 8 (s := (State.reset.setF (SRC_CFG_HOME 1000) 7).setF (SRC_CFG_WAKE 1000) 1) (r := .ymE) (v := 1000) &&
      meetsBell 9 (s := (State.reset.setF (SRC_CFG_HOME 1000) 7).setShed 7 1) (r := .ymE) (v := 1000) && meetsBell 10 (s := E0 600) &&
      meetsBell 11 (r := .ymE) && meetsBell 12 && meetsBell 13 (s := E2 600)) = true := by
  decide +kernel

theorem test_bellResults_met_4 :
    (meetsBell 13 (s := E2 600) (t := 48)) = true := by
  decide +kernel

/-- The hypotheses of the clause numbered `clause`, counted from 0, of `Obligations.PaddockResults`. -/
def meetsPaddock (clause : Nat) (s : State := G0) (r : Requester := .ymE) (b : Fin 512 := 5) (v : Word := 0x40002000) (w : Nat := 130) : Bool :=
  let id := fldGet 13 8 v
  let mine := s.getF (PADK_OWNER_OWNER b.val) = requesterCode r ∨ isLeader s r = true
  let written := tblGet false (w / 64) s.padWritten
  match clause with
  | 0 => decide (mine) && decide (ownerIdOk id = true) && decide (s.isSet (PADK_OWNER_PENDING b.val) = false)
  | 1 => decide (¬ mine)
  | 2 => decide (s.isSet (PADK_OWNER_PENDING b.val) = true) && decide (ownerAccess s b.val = false)
  | 3 => decide (w < 0x4000000) && decide (written = false)
  | 4 => decide (w < 0x4000000) && decide (written = true)
  | 5 => decide (w < 0x4000000) && decide (written = true)
  | 6 => decide (barnBase ≤ w)
  | 7 => decide (barnBase ≤ w)
  | _ => true

theorem test_paddockResults_met_1 :
    (meetsPaddock 0 && meetsPaddock 1 (r := .dray 5) && meetsPaddock 2 (s := (G0.setF (PADK_OWNER_PENDING 5) 1).setF (PADK_OWNER_NEW_OWNER 5) 7) &&
      meetsPaddock 3 (w := 9) && meetsPaddock 4 && meetsPaddock 5) = true := by
  decide +kernel

theorem test_paddockResults_met_2 :
    (meetsPaddock 6 (w := barnBase + 99) && meetsPaddock 7 (w := barnBase + 99)) = true := by
  decide +kernel

end YardBell

namespace Wire

def shOn (s : State) : State := (List.range 32).foldl (fun s k => (s.setShed k 2)) s
def up (k : Nat) (s : State) : State := ((s.setF (PORT_CFG_EN k) 1).setF (PORT_CFG_TYPE k) 1).setF (PORT_STAT_STATE k) 3
def fr : List Byte := let b := bl [1,2,3,4,5,6,7,8,9,10,11,12,8,0] ++ zeros 60; b ++ fcsOf b
def U0 : State := up 3 (up 40 (shOn { State.reset with untested := [] }))
def opn (n : Nat) (s : State) : State :=
  let s := ((((s.setF (CH_CFG_MODE n) 0).setF (CH_CFG_STATE n) 1).setF (CH_CFG_OUT_EN n) 1).setF (CH_CFG_IN_EN n) 1).setF (CH_CFG_CIPHER_PORT n) 8
  let s := ((s.setF (CH_CFG_EGRESS_PORT n) 3).setF (CH_BIND_INGRESS_MASK n) 8).setF (CH_POLICY_MAX_LEN n) 2000
  let s := ((s.setF (CH_STAT_LEASE n) 1).setF (CH_POLICY_BUF_MIN n) 100)
  let s := [0,1].foldl (fun (s : State) d => ((s.setF (KB_ROLES_CUR_V n d) 1).setF (KB_ROLES_CUR_SLOT n d) 1)) s
  (s.setSlot (slotOf n 1) { kind := 2, bytes := zeros 46, epoch := 3, an := 2, keyId := zeros 16, persist := false, bad := false }).modChan n (fun c => { c with awaitSw := false })
def gx : GateFrame := { port := 3, bytes := fr }
def gate (w : Nat) (s : State) : State := { ((s.setF (GATE_CFG_EN 0) 1).setF (GATE_BANK_VALID0 0) 1) with gateProg := [(0, [BitVec.ofNat 64 w])], gateQ := [{gx with port := 40}, gx] }
def U1 : State := gate (0x18 * 2^58 + 7) (opn 7 U0)
def U2 : State := gate (0x19 * 2^58 + 7) (opn 7 U0)
def ou : OutUnit := mkUnit U1 7 3 5 0x1234560000 (fr.take 74) (fr.drop 74)
def V0 : State := { (opn 7 U0) with units := [{ou with blocks := 3, rail := some 7}] }
def ch (c : Change) (s : State) : State := { s with changes := [(500, .close 8), (0, c)] }
def CL : State := { (opn 7 U0).setF (CH_CFG_STATE 7) 2 with ledger := { U0.ledger with mutes := [(7, .refclk), (8, .refclk)] } }
def xf : List Byte := bl [1,2,3,4,5,6,7,8,9,10,11,12,0x88,0xE5,0x0E,0,0,0,0,9] ++ zeros 60 ++ zeros 16 ++ zeros 4
def iq (ch : Option Nat) : InUnit := { port := 8, ch := ch, cell := false, bytes := xf, slot := 0 }
def IQ (ch : Option Nat) : State := { (opn 7 U0) with inq := [iq ch, iq none] }

/-- The hypotheses of the clause numbered `clause`, counted from 0, of `Obligations.FrameResults`. -/
def meetsFrame (clause : Nat) (s : State := U0) (k : Fin 64 := 3) (b : List Byte := fr) (g : Fin 8 := 0) (i : Nat := 1) (x : GateFrame := gx)
    (n : Fin 512 := 7) (p : Fin 32 := 8) (c : Nat := 0x87) (j : Nat := slotOf 7 1) (u : OutUnit := ou) (e : Beat := 0) (q : InUnit := iq (some 7))
    (r : List InUnit := [iq none]) (d : Nat × Nat × List Byte := (40, 3, [1,2,3])) : Bool :=
  let body (l : List Byte) : List Byte := l.take (l.length - 4)
  let mac := s.portUp k.val && decide (portFamily (s.getF (PORT_CFG_TYPE k.val)) = 0) && !(decide (32 ≤ k.val) && s.isSet (CELL_PORT_CFG_EN (k.val - 32)))
  let bank := s.getF (GATE_CFG_ACTIVE g.val)
  let valid := if bank = 1 then s.isSet (GATE_BANK_VALID1 g.val) else s.isSet (GATE_BANK_VALID0 g.val)
  let verdict := gateProgram x.port x.bytes (tblGet [] g.val s.gateExact) (tblGet [] g.val s.gateTern) (tblGet [] (2 * g.val + bank) s.gateProg)
  let enters := decide (s.gateQ.findIdx? (fun y => portGroup y.port = g.val) = some i) && decide (s.gateQ[i]? = some x) && decide (x.port < 32) &&
      s.isSet (GATE_CFG_EN g.val) && valid
  let asn := s.rd64 (CH_OUT_ASN_LO n.val)
  let admits := !isRelay s n.val && decide (s.getF (CH_BIND_INGRESS_MASK n.val) / 2 ^ x.port % 2 = 1) && decide (s.chMode n.val = 0) &&
        decide (x.bytes.length ≤ s.getF (CH_POLICY_MAX_LEN n.val)) && !s.isSet (FRM_POL_LO_CB_ELIM n.val) && (s.chan n.val).swOut.isNone &&
        s.chOpen n.val && s.isSet (CH_CFG_OUT_EN n.val) && outKeyed s n.val && decide (asn.toNat + 1 < (asnLimits s n.val).1) &&
        !s.isSet (KB_ROLES_PERSIST n.val 0) && shedsOk s n.val (some x.port) && !pathStopped s n.val && !noBuffer s n.val ((x.bytes.length + 255) / 256) &&
      !s.chTwin n.val
  let due := s.changes.filter (fun y => s.beatDue y.1)
  let computes := decide (s.units[i]? = some u) && !(railPool s false).isEmpty && !u.stomped && decide (u.blocks < unitBlocks u) && decide (s.chMode u.ch = 0)
  let onLine := fun (y : OutUnit) => y.onLine && decide (s.chMode y.ch = 0) && decide (s.txPort y.ch = p.val)
  let starts := s.portUp (32 + p.val) && !s.isSet (CELL_PORT_CFG_EN p.val) && !s.units.any onLine && s.brTx.isEmpty
  let o := typeAt q.bytes
  let tci := at' q.bytes (o + 2)
  let suite := s.getF (FRM_POL_LO_SUITE n.val)
  let low := rxLow s n.val (tci % 4)
  let pn := if suite < 2 then be q.bytes (o + 4) 4 else xpnRecover low (be q.bytes (o + 4) 4)
  match clause with
  | 0 => decide (mac = true) && decide (64 ≤ b.length) && decide (b.length ≤ 9600) && decide (fcsOf (body b) = b.drop (b.length - 4)) &&
      decide (be b 12 2 ≠ 0x8808)
  | 1 => decide (mac = true) && decide (64 ≤ b.length) && decide (b.length ≤ 9600) && decide (fcsOf (body b) ≠ b.drop (b.length - 4))
  | 2 => decide (enters = true) && decide (verdict = some (.refuse c))
  | 3 => decide (enters = true) && decide (verdict = some (.setch n.val)) && decide (admits = true)
  | 5 => decide (due = [(e, .open n.val)]) && decide (s.chState n.val = 0)
  | 6 => decide (due = [(e, .close n.val)]) && decide (s.chState n.val = 1)
  | 7 => decide (due = [(e, .gate g.val c)])
  | 8 => decide (due = [])
  | 9 => decide (s.chState n.val = 2) && decide (heldUnits s n.val = 0)
  | 10 => decide (s.chState n.val = 2)
  | 11 => decide (computes = true)
  | 12 => decide (computes = true)
  | 13 => decide (starts = true) && decide (s.units.findIdx? (startable s p.val) = some i)
  | 14 => decide (starts = true) && decide (s.units.findIdx? (startable s p.val) = none) &&
      decide (s.clearTx.findIdx? (fun y => y.1 = 32 + p.val) = some i) && decide (s.clearTx[i]? = some d)
  | 15 => decide (s.units.findIdx? onLine = some i) && decide (s.units[i]? = some u) && decide (u.stomped = false) && decide (unitBlocks u ≤ u.blocks) &&
      decide (u.ch < 512)
  | 16 => decide (s.units.findIdx? onLine = some i) && decide (s.units[i]? = some u) && decide (u.stomped = true)
  | 17 => decide (s.inq = q :: r) && decide (q.ch = none)
  | 18 => decide (s.inq = q :: r) && decide (q.ch = some n.val) && decide (q.cell = false) && decide (inboundRefusal s n.val = some c)
  | 19 => decide (s.inq = q :: r) && decide (q.ch = some n.val) && decide (q.cell = false) && decide (inboundRefusal s n.val = none) &&
      decide (secTagOk q.bytes = true) && decide (inKey s n.val (tci % 4) = some (0, j)) && decide (low ≤ pn) &&
      decide (s.isSet (KB_ROLES_PERSIST n.val 1) = false) && decide (s.chTwin n.val = false) && decide (fwdOut s n.val = false) &&
      decide (s.isSet (CH_CFG_RTAG n.val) = false)
  | _ => true

theorem test_frameResults_met_1 :
    (meetsFrame 0 && meetsFrame 1 (b := fr ++ [1]) && meetsFrame 2 (s := U2) && meetsFrame 3 (s := U1) && meetsFrame 5 (s := ch (.open 7) U0) &&
      meetsFrame 6 (s := ch (.close 7) (opn 7 U0))) = true := by
  decide +kernel

theorem test_frameResults_met_2 :
    (meetsFrame 7 (s := ch (.gate 0 0x103) U0) (c := 0x103) && meetsFrame 8 && meetsFrame 9 (s := CL) &&
      meetsFrame 10 (s := { CL with units := [ou, {ou with ch := 8}], inq := [iq (some 7)] }) &&
      meetsFrame 11 (s := V0) (i := 0) (u := {ou with blocks := 3, rail := some 7}) &&
      meetsFrame 12 (s := V0) (i := 0) (u := {ou with blocks := 3, rail := some 7})) = true := by
  decide +kernel

theorem test_frameResults_met_3 :
    (meetsFrame 13 (s := V0) (i := 0) && meetsFrame 14 (s := {U0 with clearTx := [(41,2,[]),(40, 3, [1,2,3])]}) &&
      meetsFrame 15 (s := { V0 with units := [ou, {ou with blocks := 99, onLine := true}] }) (u := {ou with blocks := 99, onLine := true}) &&
      meetsFrame 16 (s := { V0 with units := [ou, {ou with blocks := 99, onLine := true, stomped := true}] }) (u := {ou with blocks := 99, onLine := true, stomped := true}) &&
      meetsFrame 17 (s := IQ none) (q := iq none) && meetsFrame 18 (s := (IQ (some 7)).setF (CH_CFG_IN_EN 7) 0) (c := 0x18)) = true := by
  decide +kernel

theorem test_frameResults_met_4 :
    (meetsFrame 19 (s := IQ (some 7))) = true := by
  decide +kernel

def chM (n m : Nat) (s : State) : State := (opn n s).setF (CH_CFG_MODE n) m
def CP0 : State := ((((chM 7 1 U0).setF (CELL_PORT_CFG_EN 8) 1).setF (CELL_PORT_CFG_LEN0 8) 4).setF (CELL_CAL_ENTRY_EVEN 8 0 0) 512).setF (CELL_PORT_STAT_DELIN 8) 2
def cpx (e : Nat) : State := (List.range 8).foldl (fun s i => (s.setF (CELL_CAL_ENTRY_EVEN 8 0 i) e).setF (CELL_CAL_ENTRY_ODD 8 0 i) e) (((chM 7 1 U0).setF (CELL_PORT_CFG_EN 8) 1).setF (CELL_PORT_CFG_LEN0 8) 4)
def cu : OutUnit := { mkUnit U1 7 3 5 0 (fr.take 74) (fr.drop 74) with inPort := noPath }
def CQ : State := { (((cpx 7).modChan 7 (fun c => { c with beginOut := 0 })).wr64 POS_NOW_LO 0x50000) with units := [cu] }
def arm : State := (cpx 7).modPort 40 (fun p => { p with calArm := some (0, 1) })
def dl (d run : Nat) (s : State := cpx 7) : State := (s.setF (CELL_PORT_STAT_DELIN 8) d).modPort 40 (fun p => { p with run := run, lastSlot := 9 })
def hd (slot : Nat) (e : Bool := false) : List Byte := cellHeader slot false false false e false ++ zeros 248
def bad : List Byte := zeros 7 ++ [1] ++ zeros 248
def wr : State := (cpx 7).modChan 7 (fun c => { c with beginOut := 0xFFFFFFFFFFF0 })
def L0 : State := ((((chM 7 2 U0).setF (CH_TRIB_PLAIN_TRIB_kind 7) 5).setF (L1_RUN_INPUT_LOST 7) 0).wr64 (CH_MODE_W0_LO 7) 5).modChan 7 (fun c => { c with awaitSw := false, l1 := { c.l1 with posOk := true } })
def LN : State := L0.modChan 7 (fun c => { c with l1 := { c.l1 with posOk := false } })
def LL : State := L0.setF (L1_RUN_INPUT_LOST 7) 1
def pl : List Byte := List.replicate (16 * l1Blocks L0 7) 5

/-- The hypotheses of the clause numbered `clause`, counted from 0, of `Obligations.CellResults`. -/
def meetsCell (clause : Nat) (s : State := dl 2 3) (p : Fin 32 := 8) (n : Fin 512 := 7) (j : Nat := slotOf 7 1) (cut : Bool := false) (b : Beat := 0)
    (cal : Nat := 1) (cell : List Byte := hd 10) : Bool :=
  let c := p.val
  let x := slotNow s c
  let runs := s.isSet (CELL_PORT_CFG_EN c) && s.portUp (32 + c)
  let entry := slotEntry s c x
  let bare := entry ≠ 0x3FF ∧ (512 ≤ entry ∨ s.chOpen entry = false ∨ s.chMode entry ≠ 1 ∨ s.txPort entry ≠ c ∨ s.isSet (CH_CFG_OUT_EN entry) = false ∨
        heldAt s entry c x = true ∨ s.muted entry = true ∨ s.isSet (CH_STAT_LEASE entry) = false)
  let sends := runs && decide ((s.port (32 + c)).outSlot ≠ some x) && decide (entry = n.val) && s.chOpen n.val && decide (s.chMode n.val = 1) &&
        decide (s.txPort n.val = c) && s.isSet (CH_CFG_OUT_EN n.val) && !heldAt s n.val c x && !s.muted n.val && s.isSet (CH_STAT_LEASE n.val) &&
      !isWitness s n.val
  let fill := fillUnits s n.val (slotStart s c x - 2048) cut s.units { payload := [], ends := [], octets := 0, more := true }
  let d := s.getF (CELL_PORT_STAT_DELIN c)
  let hec := decide (crc8 (be cell 0 7) = at' cell 7)
  let slot := be cell 0 6
  let pt := s.port (32 + c)
  let next := decide (slot = (pt.lastSlot + 1) % 2 ^ 48)
  match clause with
  | 0 => decide (runs = true) && decide (pt.outSlot ≠ some x) && decide (bare)
  | 1 => decide (sends = true) && decide (slotKey s n.val c x = some j) && decide (fill.1.payload = [])
  | 2 => decide (sends = true) && decide (slotKey s n.val c x = some j) && decide (fill.1.payload ≠ [])
  | 3 => decide (pt.calArm = some (b, cal)) && decide (s.beatDue b = true)
  | 4 => decide (s.chOpen n.val = true) && decide (s.chMode n.val = 1) && decide (s.beat.toNat < 2 ^ 47) &&
      decide (s.isSet (KB_ROLES_CUR_V n.val 0) = true) && decide (beatBefore (s.chan n.val).beginOut 0 = true) && decide ((s.chan n.val).swOut = none) &&
      decide (s.getF POS_STAT_HELD < 512)
  | 5 => decide (runs = true) && decide (d = 0) && decide (hec = true)
  | 6 => decide (runs = true) && decide (d = 1) && decide (hec = true) && decide (next = true)
  | 7 => decide (runs = true) && decide (d = 1) && decide ((hec && next) = false)
  | 8 => decide (runs = true) && decide (d = 2) && decide (hec = false) && decide (pt.run < 6)
  | 9 => decide (runs = true) && decide (d = 2) && decide (hec = false) && decide (6 ≤ pt.run)
  | 10 => decide (runs = true) && decide (d = 2) && decide (hec = true) && decide (next = true) && decide (at' cell 6 / 16 % 2 = 1)
  | 11 => decide (runs = true) && decide (d = 2) && decide (hec = true) && decide (next = true) && decide (at' cell 6 / 16 % 2 = 0) &&
      decide (at' cell 6 / 8 % 2 = 0) && decide (slotEntry s c slot = n.val) && decide (s.chMode n.val = 1) && decide (boundTo s n.val c = true) &&
      decide (s.chTwin n.val = false)
  | 12 => decide (runs = true) && decide (d = 2) && decide (hec = true) && decide (next = false) && decide (pt.odd = none)
  | _ => true

theorem test_cellResults_met_1 :
    (meetsCell 0 (s := cpx 6) && meetsCell 0 (s := {cpx 7 with ledger := { U0.ledger with mutes := [(7,.refclk)] }}) && meetsCell 1 (s := cpx 7) &&
      meetsCell 2 (s := CQ) && meetsCell 3 (s := arm) && meetsCell 4 (s := wr)) = true := by
  decide +kernel

theorem test_cellResults_met_2 :
    (meetsCell 5 (s := dl 0 3) && meetsCell 6 (s := dl 1 3) && meetsCell 6 (s := dl 1 5) && meetsCell 7 (s := dl 1 3) (cell := hd 12) &&
      meetsCell 7 (s := dl 1 3) (cell := bad) && meetsCell 8 (cell := bad)) = true := by
  decide +kernel

theorem test_cellResults_met_3 :
    (meetsCell 9 (s := dl 2 6) (cell := bad) && meetsCell 10 (cell := hd 10 true) && meetsCell 11 && meetsCell 12 (cell := hd 12)) = true := by
  decide +kernel

/-- FillCellBody: the hypotheses of clause 1 of CellResults, for an even and an odd slot of the calendar. -/
theorem test_fillCellBody_met : (meetsCell 1 && meetsCell 1 (cut := true)) = true := by
  decide +kernel

/-- The hypotheses of the clause numbered `clause`, counted from 0, of `Obligations.Layer1Results`. -/
def meetsLayer1 (clause : Nat) (s : State := L0) (n : Fin 512 := 7) (mfas : Byte := 6) (payload : List Byte := pl) (c : Nat := 0x18) : Bool :=
  let i := n.val
  let lost := s.isSet (L1_RUN_INPUT_LOST i)
  let free (m : Nat) : Bool := s.portUp (32 + s.txPort i) && !isWitness s i && !s.chTwin i &&
      ((s.chan i).l1.efnAt.isSome || decide ((s.rd64 (CH_MODE_W0_LO i)).toNat ≤ nextEfn s i m))
  let own := match (s.chan i).l1.efnAt with | some b => b % 256 | none => ((s.rd64 (CH_MODE_W0_LO i)).toNat + 1) % 256
  match clause with
  | 0 => decide (l1OutRuns s i = true) && decide (lost = false) && decide (payload.length = 16 * l1Blocks s i) && decide (free mfas.toNat = true)
  | 1 => decide (l1OutRuns s i = true) && decide (lost = true) && decide (free own = true)
  | 2 => decide (l1OutRuns s i = true) && decide (lost = false)
  | 4 => decide (l1OutRuns s i = true) && decide (s.rd64 (CH_MODE_W0_LO i) = BitVec.ofNat 64 (2 ^ 48 - 1)) && decide ((s.chan i).swOut = none) &&
      decide (s.isSet (CH_STAT_HELD i) = false) && decide (s.getF POS_STAT_HELD < 512)
  | 5 => decide (s.chMode i = 2) && decide (payload.length = 16 * l1Blocks s i) && decide (inboundRefusal s i = some c)
  | 6 => decide (s.chMode i = 2) && decide (payload.length = 16 * l1Blocks s i) && decide (inboundRefusal s i = none) && decide (s.isSdh i = false) &&
      decide (s.chTwin i = false) && decide ((s.chan i).l1.posOk = true)
  | 7 => decide (s.chMode i = 2) && decide (payload.length = 16 * l1Blocks s i) && decide (inboundRefusal s i = none) && decide (s.isSdh i = false) &&
      decide (s.chTwin i = false) && decide ((s.chan i).l1.posOk = false)
  | _ => true

theorem test_layer1Results_met_1 :
    (meetsLayer1 0 && meetsLayer1 0 (s := LN.modChan 7 (fun c => { c with l1 := { c.l1 with efnAt := some 300 } })) && meetsLayer1 1 (s := LL) &&
      meetsLayer1 2 && meetsLayer1 4 (s := L0.wr64 (CH_MODE_W0_LO 7) 0xFFFFFFFFFFFF) && meetsLayer1 5 (s := L0.setF (CH_CFG_IN_EN 7) 0)) = true := by
  decide +kernel

theorem test_layer1Results_met_2 :
    (meetsLayer1 6 && meetsLayer1 7 (s := LN)) = true := by
  decide +kernel

def sl (k : Nat := 1) : Slot := { kind := k, bytes := zeros 46, epoch := 3, an := 2, keyId := zeros 16, persist := false, bad := false }
def VP : State := (((opn 7 U0).setSlot (slotOf 7 2) sl).setF (KB_ROLES_PREV_V 7 1) 1).setF (KB_ROLES_PREV_SLOT 7 1) 2
def VN : State := VP.setF (KB_ROLES_NEXT_V 7 0) 1
def VD : State := (depositWrite 3 5 0 (List.replicate 0x70 9) (opn 7 U0)).setF (KB_ROLES_SPARE_V 7 0) 1 |>.setF (KB_ROLES_SPARE_SLOT 7 0) 3
def VZ : State := { opn 7 U0 with tack := { (opn 7 U0).tack with zeroVault := true, keks := [(0,[1])], zeroLow := true } }
def VE : State := (((opn 7 U0).setF TR_STAT_ERASE_PEND 1).setF TR_STAT_ZEROISED 1).setF TR_STAT_SK_OK 0
def kek (t : State) := t

/-- The hypotheses of the clause numbered `clause`, counted from 0, of `Obligations.VaultResults`. -/
def meetsVault (clause : Nat) (s : State := VN) (n : Fin 512 := 7) (b : Bool := true) (j : Fin 16 := 3) (v : Word := 0x80000007) (k : Fin 32 := 5)
    (x : Fin 2048 := 29) : Bool :=
  let d := b.toNat
  let prev := slotOf n.val (s.getF (KB_ROLES_PREV_SLOT n.val d))
  let grace := if b then (s.chan n.val).graceIn else (s.chan n.val).graceOut
  let past := match grace with | some e => s.beatDue e | none => true
  let ends := s.isSet (KB_ROLES_PREV_V n.val d) && past && !(b && decide (s.getF (KB_GRACE_GRACE_END n.val 1) = 0xFFFFFFFF)) &&
      !s.units.any (fun u => u.slot = prev)
  let waits := s.isSet (KB_ROLES_CUR_V n.val 0) && !s.isSet (KB_ROLES_NEXT_V n.val 0) && !(s.chan n.val).awaitSw
  let dep := s.deposit j.val
  let q := v.toNat % 512
  let full := depositFull dep && s.isSet (KB_ROLES_SPARE_V q 0)
  let c := x.val / 4
  let named := fun (f : Nat → Nat → Fld) (g : Nat → Nat → Fld) (i : Nat) => s.isSet (f c i) && decide (s.getF (g c i) = x.val % 4)
  let inForce := [0, 1].any (fun i => named KB_ROLES_CUR_V KB_ROLES_CUR_SLOT i || named KB_ROLES_NEXT_V KB_ROLES_NEXT_SLOT i)
  match clause with
  | 0 => decide (ends = true) && decide (waits = false)
  | 1 => decide (ends = false)
  | 2 => decide (dep.core = some k.val) && decide (v.toNat / 2 ^ 31 = 1) && decide (full = true)
  | 3 => decide (dep.core = some k.val) && decide (v.toNat / 2 ^ 31 = 1) && decide (full = false)
  | 4 => decide (dep.core ≠ some k.val)
  | 5 => decide (s.deposit j.val = Deposit.reset)
  | 6 => decide ((s.slot x.val).kind ≠ 0)
  | 7 => decide ((s.slot x.val).kind = 0)
  | 8 => decide (inForce = false)
  | 9 => decide (named KB_ROLES_CUR_V KB_ROLES_CUR_SLOT d = true)
  | 11 => decide (s.tack.zeroVault = true)
  | 12 => decide (s.tack.zeroVault = false)
  | 13 => decide (s.isSet TR_STAT_ERASE_PEND = true)
  | 14 => decide (s.isSet TR_STAT_ERASE_PEND = false)
  | _ => true

theorem test_vaultResults_met_1 :
    (meetsVault 0 && meetsVault 1 (s := VN.setF (KB_GRACE_GRACE_END 7 1) 0xFFFFFFFF) && meetsVault 2 (s := VD) &&
      meetsVault 3 (s := VD.setF (KB_ROLES_SPARE_V 7 0) 0) && meetsVault 4 (s := VD) (k := 6) && meetsVault 5 (s := VD) (j := 4)) = true := by
  decide +kernel

theorem test_vaultResults_met_2 :
    (meetsVault 6 (x := 30) && meetsVault 7 (x := 28) && meetsVault 8 (x := 30) && meetsVault 9 (s := opn 7 U0) && meetsVault 11 (s := VZ) &&
      meetsVault 12) = true := by
  decide +kernel

theorem test_vaultResults_met_3 :
    (meetsVault 13 (s := VE) && meetsVault 13 (s := VE.setF TR_STAT_SK_OK 1) && meetsVault 14 (s := U0)) = true := by
  decide +kernel

def pairg : Pairing := { secret := zeros 32, roleB := false, mate := false, hash := zeros 48 }
def BS0 : State := let s := ((opn 7 U0).setF (BR_CFG_EN 7) 1); { s with tack := { s.tack with pairs := tblSet none 0 (some pairg) s.tack.pairs } }
def bst (k : Nat) (s : State := BS0) : State := s.setF (BR_STAT_STATE 7) k
def BU : State := bst 2
def md (m : Nat) (s : State := BU) : State := s.setF (CH_CFG_MODE 7) m
def wbr (f : Session → Session) (s : State := BU) : State := s.modBr 7 f
def ex0 : Exch := { epoch := 5, initiator := true, seed := 3, offer := [], accept := [], ss := [], sent := false, tries := 1 }
def exo : Exch := { ex0 with offer := [1,2,3] }
def exw : State := wbr (fun b => { b with exch := some exo })
def sw0 : Switch := { epoch := 4, beat := 2000, sent := false, acked := false, markDone := false, late := false, host := true }
def wsw (w : Switch) (s : State := BU) : State := s.modChan 7 (fun c => { c with swOut := some w })
def BN : State := ((BU.setF (KB_ROLES_NEXT_V 7 0) 1).setF (KB_ROLES_NEXT_SLOT 7 0) 1).modChan 7 (fun c => { c with beginOut := 100 })
def at1 (b : Nat) (s : State) : State := s.wr64 POS_NOW_LO (BitVec.ofNat 64 (b * 65536))

/-- The hypotheses of the clause numbered `clause`, counted from 0, of `Obligations.BridleSends`. -/
def meetsBridleSends (clause : Nat) (s : State := BU) (n : Fin 512 := 7) (x : Exch := exo) (w : Switch := sw0) (p : Nat := 4) (r : List Nat := [5]) : Bool :=
  let i := n.val
  let br := (s.chan i).br
  let st := s.getF (BR_STAT_STATE i)
  let room := decide ((s.rd (BR_TX_SEQ i 0)).toNat < 2 ^ 32 - 8)
  let lone := !s.chTwin i
  let may := s.brUp i && s.hwKeys i && s.isSet (KB_ROLES_NEXT_V i 0)
  let aim := beatAdd (s.chan i).beginOut (s.epochBeats i)
  let near := (s.chan i).forced || !s.isSet (KB_ROLES_CUR_V i 0) || beatBefore aim (earliestSwitch s i)
  let atPoint := s.beatDue (beatSub w.beat (s.cancelLead i)) && !s.beatDue w.beat
  let recent := br.late1.filter (fun y => s.now < y + ticksPerS)
  match clause with
  | 0 => decide (lone = true) && decide (s.brRuns i = true) && decide (st = 0) && decide ((s.pairing i).isSome = true) && decide (s.noRandom = false)
  | 1 => decide (lone = true) && decide (st = 1) && decide (canHello s i = true) && decide (room = true)
  | 2 => decide (lone = true) && decide (2 ≤ st) && decide (s.rd (BR_TX_SEQ i 0) = 0xFFFFFFFF)
  | 3 => decide (lone = true) && decide (br.exch = some x) && decide (x.initiator = true) && decide (x.offer = []) && decide (2 ≤ st) &&
      decide (s.noRandom = false) && decide (room = true)
  | 4 => decide (br.exch = some x) && decide (x.initiator = true) && decide (x.offer ≠ []) && decide (x.sent = false) && decide (x.tries < 8)
  | 5 => decide (br.exch = some x) && decide (x.initiator = true) && decide (x.offer ≠ []) && decide (x.sent = false) && decide (8 ≤ x.tries) &&
      decide (st ≠ 0)
  | 6 => decide (lone = true) && decide ((s.chan i).swOut = some w) && decide (2 ≤ st) && decide (w.sent = false) && decide (s.chMode i ≠ 2) &&
      decide (room = true)
  | 7 => decide (lone = true) && decide ((s.chan i).swOut = none) && decide (may = true) && decide (s.chMode i ≠ 2) && decide (near = true) &&
      decide (room = true) && decide ((s.chMode i = 1 → s.beat.toNat ≤ aim.toNat))
  | 8 => decide (lone = true) && decide ((s.chan i).swOut = none) && decide (may = true) && decide (s.chMode i = 0) && decide (near = false) &&
      decide (room = true)
  | 9 => decide (lone = true) && decide ((s.chan i).swOut = some w) && decide (atPoint = true) && decide (w.markDone = false) && decide (s.chMode i ≠ 2) &&
      decide (s.brRuns i = true) && decide (2 ≤ st) && decide (room = true)
  | 10 => decide (lone = true) && decide ((s.chan i).swOut = some w) && decide (atPoint = true) && decide (w.markDone = true) && decide (w.sent = true) &&
      decide (w.acked = false) && decide (s.chMode i ≠ 2) && decide (s.brRuns i = true) && decide (2 ≤ st) && decide (room = true)
  | 11 => decide ((s.chan i).swOut = some w) && decide (w.markDone = true) && decide (w.acked = true)
  | 12 => decide (2 ≤ st) && decide (room = true)
  | 13 => decide (2 ≤ st) && decide (room = true) && decide (s.getF (BR_CFG_PROBE_INT i) ≠ 0) && decide (s.getF (BR_CFG_PROBE_INT i) ≤ br.hbCount)
  | 14 => decide (s.getF (BR_CFG_PROBE_INT i) = 0)
  | 15 => decide (2 ≤ st) && decide (room = true) && decide (s.chMode i = 1 ∨ s.chMode i = 2)
  | 16 => decide (lone = true) && decide (2 ≤ st) && decide (room = true)
  | 17 => decide (lone = true) && decide (br.probesOut = p :: r) && decide (2 ≤ st) && decide (recent.length < 2)
  | 18 => decide (lone = true) && decide (br.probesOut = p :: r) && decide (2 ≤ st) && decide (2 ≤ recent.length)
  | 19 => decide (st = 3)
  | 20 => decide (st ≠ 3)
  | 21 => decide (2 ≤ st) && decide (br.hbSeen = true)
  | 22 => decide (2 ≤ st) && decide (br.hbSeen = false) && decide (s.getF (BR_STAT_HB_MISS i) < 2)
  | 23 => decide (2 ≤ st) && decide (br.hbSeen = false) && decide (2 ≤ s.getF (BR_STAT_HB_MISS i))
  | _ => true

theorem test_bridleSends_met_1 :
    (meetsBridleSends 0 (s := BS0) && meetsBridleSends 0 (s := (BS0.setF TR_STAT_ID_VALID 1)) &&
      meetsBridleSends 1 (s := (bst 1).setF TR_STAT_ID_VALID 1) &&
      meetsBridleSends 2 (s := (BU.wr (BR_TX_SEQ 7 0) 0xFFFFFFFF).setF TR_STAT_ID_VALID 1) &&
      meetsBridleSends 3 (s := wbr (fun b => { b with exch := some ex0 })) (x := ex0) && meetsBridleSends 4 (s := exw)) = true := by
  decide +kernel

theorem test_bridleSends_met_2 :
    (meetsBridleSends 5 (s := wbr (fun b => { b with exch := some { exo with tries := 8 } }) (wsw sw0)) (x := { exo with tries := 8 }) &&
      meetsBridleSends 6 (s := wsw sw0) && meetsBridleSends 7 (s := BN.setF (KB_ROLES_CUR_V 7 0) 0) &&
      meetsBridleSends 7 (s := at1 50 (md 1 (BN.setF (KB_ROLES_CUR_V 7 0) 0))) &&
      meetsBridleSends 8 (s := at1 50 (BN.modChan 7 (fun c => { c with beginOut := 100000 }))) &&
      meetsBridleSends 9 (s := at1 1900 (wsw sw0))) = true := by
  decide +kernel

theorem test_bridleSends_met_3 :
    (meetsBridleSends 10 (s := at1 1900 (wsw { sw0 with markDone := true, sent := true })) (w := { sw0 with markDone := true, sent := true }) &&
      meetsBridleSends 11 (s := at1 1900 (wsw { sw0 with markDone := true, acked := true })) (w := { sw0 with markDone := true, acked := true }) &&
      meetsBridleSends 12 && meetsBridleSends 13 (s := wbr (fun b => { b with hbCount := 9 }) (BU.setF (BR_CFG_PROBE_INT 7) 3)) &&
      meetsBridleSends 14 (s := BU.setF (BR_CFG_PROBE_INT 7) 0) && meetsBridleSends 15 (s := md 1)) = true := by
  decide +kernel

theorem test_bridleSends_met_4 :
    (meetsBridleSends 15 (s := md 2) && meetsBridleSends 16 && meetsBridleSends 17 (s := wbr (fun b => { b with probesOut := [4,5], late1 := [] })) &&
      meetsBridleSends 17 (s := wbr (fun b => { b with probesOut := [4,5], late1 := [0] })) &&
      meetsBridleSends 18 (s := wbr (fun b => { b with probesOut := [4,5], late1 := [0,0] })) && meetsBridleSends 19 (s := bst 3)) = true := by
  decide +kernel

theorem test_bridleSends_met_5 :
    (meetsBridleSends 20 && meetsBridleSends 21 (s := wbr (fun b => { b with hbSeen := true })) &&
      meetsBridleSends 22 (s := BU.setF (BR_STAT_HB_MISS 7) 1) && meetsBridleSends 23 (s := BU.setF (BR_STAT_HB_MISS 7) 2) &&
      meetsBridleSends 23 (s := (BU.setF (BR_STAT_HB_MISS 7) 2).setF (BR_CFG_DOWN_MUTE 7) 1)) = true := by
  decide +kernel

def bm (typ stream : Nat) (body : List Byte) (tag : Byte := 0) (seq : Nat := 5) (role : Nat := 1) (sidTo : Nat := 0) (n : Nat := 7): BrIn :=
  { ch := 7, path := 1, bytes := [1, BitVec.ofNat 8 typ] ++ beBytes 2 body.length ++ beBytes 2 3 ++ beBytes 2 n ++ [BitVec.ofNat 8 (role*128 + stream*32), 0,0,0] ++ beBytes 4 seq ++ beBytes 8 77 ++ beBytes 8 sidTo ++ body ++ List.replicate 16 tag }
def wi (m : BrIn) (s : State := BU) : State := { (s.setF (BR_CFG_PEER_CH 7) 3) with brIn := [m, m] }
def hel (tag : Byte := 0) : BrIn := bm 1 0 ([1,0,0,0] ++ zeros 8 ++ zeros 16) tag
def pos_ : BrIn := bm 2 0 (zeros 4 ++ [1,2] ++ zeros 18)
def pro : BrIn := bm 3 0 (beBytes 4 9 ++ zeros 4)
def ech (t : Nat) : BrIn := bm 4 1 (beBytes 4 9 ++ beBytes 4 t ++ zeros 8)
def pb (s : State := BU) : State := wbr (fun b => { b with probesOut := [8,9] }) s
def ofr (e : Nat := 0) : BrIn := bm 5 0 (beBytes 4 e ++ List.replicate 1600 1)
def acm : BrIn := bm 6 0 (beBytes 4 5 ++ List.replicate 1600 1)
def KA : State := wbr (fun b => { b with exch := some exo }) ((BU.setF (KB_ROLES_SPARE_V 7 0) 1).setF (KB_ROLES_SPARE_SLOT 7 0) 3)
def exs : Exch := { exo with sent := true }
def KC : State := wbr (fun b => { b with exch := some exs }) ((BU.setF (KB_ROLES_SPARE_V 7 0) 1).setF (KB_ROLES_SPARE_SLOT 7 0) 3) |>.setSlot (slotOf 7 3) { sl with an := 1 }
def cfm (good : Bool) : BrIn := bm 7 0 (if good then confirmBody KC 7 5 true (transcript exs.offer exs.accept) else beBytes 4 5 ++ List.replicate 48 7)
def swm (e b : Nat) : BrIn := bm 8 0 (beBytes 4 e ++ beBytes 6 b ++ zeros 22)
def SN : State := ((BU.setF (KB_ROLES_CUR_V 7 1) 0).setF (KB_ROLES_NEXT_V 7 1) 1).setF (KB_ROLES_NEXT_SLOT 7 1) 1
def ack : BrIn := bm 9 1 (beBytes 4 4 ++ beBytes 6 2000 ++ zeros 6)
def can (st : Nat) : BrIn := bm 10 st (beBytes 4 4 ++ beBytes 6 2000 ++ [3,0])
def hbm : BrIn := bm 11 0 (zeros 16)
def dgm (ok : Bool) : BrIn := bm 12 0 (if ok then kcvOf BU 7 1 (slotOf 7 1) ++ kcvOf BU 7 0 (slotOf 7 1) ++ lineDigest BU 7 else List.replicate 32 6)
def alm : BrIn := bm 13 0 (beBytes 2 0x704 ++ zeros 18)

/-- The hypotheses of the clause numbered `clause`, counted from 0, of `Obligations.BridleReceives`. -/
def meetsBridleReceives (clause : Nat) (s : State := wi (hel) (bst 1)) (n : Fin 512 := 7) (m : BrIn := swm 3 5000) (rest : List BrIn := [swm 3 5000])
    (r : Nat := 900) (x : Exch := exo) (w : Switch := sw0) (k : Nat := 0) : Bool :=
  let i := n.val
  let c := s.chan i
  let b := m.bytes
  let from' (y : Nat) : Bool := decide (s.brIn = m :: rest) && decide (m.ch = i) && !s.chTwin i && Passes s m y
  let up := s.brUp i
  let room := decide ((s.rd (BR_TX_SEQ i 0)).toNat < 2 ^ 32 - 8) && decide ((s.rd (BR_TX_SEQ i 1)).toNat < 2 ^ 32 - 8)
  let p := be b 32 4
  let took := r - be b 36 4
  let rtt0 := if c.br.rttCount = 0 then took else if c.br.rttCount < 16 then min (s.rd (BR_RTT0 i)).toNat took else (s.rd (BR_RTT0 i)).toNat
  let lateEcho := decide (3000 < be b 36 4) || decide (rtt0 + s.getF (BR_TIMING_DELAY_TOL i) < took)
  let e := be b 32 4
  let beat : Beat := BitVec.ofNat 48 (be b 36 6)
  let spare := if s.isSet (KB_ROLES_SPARE_V i 0) then some (s.getF (KB_ROLES_SPARE_SLOT i 0)) else freeIndex s i
  let takes := up && s.hwKeys i && decide (e = nextEpoch s i) && !nextLocked s i && !s.noRandom && engineOk s 1 && engineOk s 2 && decide (c.br.exch = none)
  let again := decide (c.swIn.map (fun y => (y.epoch, y.beat)) = some (e, beat))
  match clause with
  | 0 => decide (from' brHello = true) && decide (s.getF (BR_STAT_STATE i) = 1)
  | 1 => decide (from' brPosition = true) && decide (up = true) && decide (s.chMode i ≠ 2)
  | 2 => decide (from' brPosition = true) && decide (up = true) && decide (s.chMode i = 2) && decide (c.l1.posOk = false)
  | 3 => decide (from' brProbe = true) && decide (up = true) && decide (room = true)
  | 4 => decide (from' brEcho = true) && decide (up = true) && decide (c.br.probesOut.contains p = true) && decide (s.chMode i ≠ 2) &&
      decide (lateEcho = false)
  | 5 => decide (from' brEcho = true) && decide (up = true) && decide (c.br.probesOut.contains p = true) && decide (s.chMode i ≠ 2) &&
      decide (lateEcho = true) && decide (c.br.late1 = []) && decide (at' b 8 / 32 % 4 = 1)
  | 6 => decide (from' brKemOffer = true) && decide (takes = true) && decide (spare = some k) && decide (room = true)
  | 7 => decide (from' brKemOffer = true) && decide (up = true) && decide (e ≠ nextEpoch s i)
  | 8 => decide (from' brKemAccept = true) && decide (up = true) && decide (c.br.exch = some x) && decide (x.initiator = true) && decide (x.offer ≠ []) &&
      decide (x.epoch = e) && decide (x.sent = false) && decide (room = true)
  | 9 => decide (from' brKeyConfirm = true) && decide (up = true) && decide (c.br.exch = some x) && decide (c.br.confirmFails = 0) &&
      decide (x.initiator = true) && decide (x.tries < 8) && decide (s.isSet (KB_ROLES_SPARE_V i 0) = true)
  | 10 => decide (from' brSwitchAt = true) && decide (room = true) &&
      decide (switchRefusal s i e beat (be b 44 6, BitVec.ofNat 64 (be b 50 8), be b 58 6) = some k) && decide (k ≠ 4)
  | 11 => decide (from' brSwitchAt = true) && decide (room = true) &&
      decide (switchRefusal s i e beat (be b 44 6, BitVec.ofNat 64 (be b 50 8), be b 58 6) = none) && decide (s.hwKeys i = true) && decide (again = false)
  | 12 => decide (from' brSwitchAck = true) && decide (up = true) && decide (c.br.probesOut.contains (2 ^ 48 + beat.toNat) = false) &&
      decide (c.swOut = some w) && decide (w.epoch = e) && decide (w.beat = beat) && decide (s.beatDue (beatSub beat (s.cancelLead i)) = false)
  | 13 => decide (from' brSwitchCancel = true) && decide (at' b 8 / 32 % 4 ≠ 0) && decide (c.swOut = some w) && decide (w.epoch = e) && decide (w.beat = beat)
  | 14 => decide (from' brSwitchCancel = true) && decide (at' b 8 / 32 % 4 = 0) && decide (c.swIn = some w) && decide (w.epoch = e) && decide (w.beat = beat)
  | 15 => decide (from' brHeartbeat = true) && decide (up = true)
  | 16 => decide (from' brDigest = true) && decide (up = true)
  | 17 => decide (from' brAlarm = true) && decide (up = true)
  | _ => true

theorem test_bridleReceives_met_1 :
    (meetsBridleReceives 0 (m := hel) (rest := [hel]) && meetsBridleReceives 0 (s := wi (hel 3) (bst 1)) (m := hel 3) (rest := [hel 3]) &&
      meetsBridleReceives 1 (s := wi (pos_) (md 1)) (m := pos_) (rest := [pos_]) &&
      meetsBridleReceives 1 (s := wi ({pos_ with bytes := pos_.bytes.set 71 2 }) (md 1)) (m := {pos_ with bytes := pos_.bytes.set 71 2 }) (rest := [{pos_ with bytes := pos_.bytes.set 71 2 }]) &&
      meetsBridleReceives 2 (s := wi (pos_) (LN.setF (BR_STAT_STATE 7) 2 |>.setF (BR_CFG_EN 7) 1)) (m := pos_) (rest := [pos_]) &&
      meetsBridleReceives 3 (s := wi (pro) (BU)) (m := pro) (rest := [pro])) = true := by
  decide +kernel

theorem test_bridleReceives_met_2 :
    (meetsBridleReceives 4 (s := wi (ech 700) (pb (BU.setF (BR_TIMING_DELAY_TOL 7) 800))) (m := ech 700) (rest := [ech 700]) &&
      meetsBridleReceives 5 (s := wi (ech 3001) (pb)) (m := ech 3001) (rest := [ech 3001]) &&
      meetsBridleReceives 6 (s := wi (ofr) (BU)) (m := ofr) (rest := [ofr]) &&
      meetsBridleReceives 6 (s := wi (ofr 4) (KA.modBr 7 (fun b => {b with exch := none}) |>.modChan 7 (fun c => { c with lastOut := some 3 }))) (m := ofr 4) (rest := [ofr 4]) (k := 3) &&
      meetsBridleReceives 7 (s := wi (ofr 9) (BU)) (m := ofr 9) (rest := [ofr 9]) &&
      meetsBridleReceives 8 (s := wi (acm) (KA)) (m := acm) (rest := [acm])) = true := by
  decide +kernel

theorem test_bridleReceives_met_3 :
    (meetsBridleReceives 9 (s := wi (cfm false) (KC)) (m := cfm false) (rest := [cfm false]) (x := exs) &&
      meetsBridleReceives 10 (s := wi (swm 3 5000) (BU)) (k := 2) && meetsBridleReceives 10 (s := wi (swm 3 5000) ((bst 1))) (k := 8) &&
      meetsBridleReceives 11 (s := wi (swm 3 5000) (SN)) && meetsBridleReceives 11 (s := wi (swm 3 5000) (md 1 SN)) &&
      meetsBridleReceives 12 (s := wi (ack) (wsw sw0)) (m := ack) (rest := [ack])) = true := by
  decide +kernel

theorem test_bridleReceives_met_4 :
    (meetsBridleReceives 13 (s := wi (can 1) (wsw sw0)) (m := can 1) (rest := [can 1]) &&
      meetsBridleReceives 14 (s := wi (can 0) (BU.modChan 7 (fun c => { c with swIn := some sw0 }))) (m := can 0) (rest := [can 0]) &&
      meetsBridleReceives 15 (s := wi (hbm) (BU)) (m := hbm) (rest := [hbm]) &&
      meetsBridleReceives 16 (s := wi (dgm false) (BU)) (m := dgm false) (rest := [dgm false]) &&
      meetsBridleReceives 17 (s := wi (alm) (BU)) (m := alm) (rest := [alm])) = true := by
  decide +kernel

/-- The hypotheses of the clause numbered `clause`, counted from 0, of `Obligations.BridleReceiveChecks`. -/
def meetsBridleReceiveChecks (clause : Nat) (s : State := BU) (c : Instr := .bridleHelloRx) (y : Nat := 1) (m : BrIn := hel)
    (rest : List BrIn := [hel]) (turn : Nat := 44) (r : Nat := 9) : Bool :=
  let cmds := [(Instr.bridleHelloRx, brHello), (Instr.bridlePositionRx, brPosition), (Instr.bridleProbeRx turn, brProbe), (Instr.bridleEchoRx r, brEcho),
        (Instr.bridleKemOfferRx, brKemOffer), (Instr.bridleKemAcceptRx, brKemAccept), (Instr.bridleKeyConfirmRx, brKeyConfirm), (Instr.bridleSwitchAtRx turn, brSwitchAt),
        (Instr.bridleSwitchAckRx r, brSwitchAck), (Instr.bridleSwitchCancelRx, brSwitchCancel), (Instr.bridleHeartbeatRx, brHeartbeat), (Instr.bridleDigestRx, brDigest),
        (Instr.bridleAlarmRx, brAlarm)]
  let n := m.ch
  let b := m.bytes
  let ours := s.brRuns n && decide (s.getF (BR_CFG_PEER_CH n) = be b 4 2) && decide (be b 6 2 = n)
  let role := decide (at' b 8 / 128 = 1) == s.roleB n
  let sid := decide (be b 24 8 = s.sidTx n) || (decide (y = brHello) && decide (be b 24 8 = 0))
  let new := (decide (y = brHello) && decide (be b 16 8 ≠ s.sidRx n)) || decide (tblGet 0 (at' b 8 / 32 % 4 + 4 * m.path) (s.chan n).br.rxSeq < be b 12 4)
  match clause with
  | 0 => decide ((c, y) ∈ cmds) && decide (s.brIn = [])
  | 1 => decide ((c, y) ∈ cmds) && decide (s.brIn = m :: rest) && decide (at' b 1 ≠ y)
  | 2 => decide ((c, y) ∈ cmds) && decide (s.brIn = m :: rest) && decide (at' b 1 = y) && decide (n < 512) && decide (ours = false)
  | 3 => decide ((c, y) ∈ cmds) && decide (s.brIn = m :: rest) && decide (at' b 1 = y) && decide (n < 512) && decide (ours = true) && decide (role = true)
  | 4 => decide ((c, y) ∈ cmds) && decide (s.brIn = m :: rest) && decide (at' b 1 = y) && decide (n < 512) && decide (ours = true) &&
      decide (role = false) && decide ((sid && new) = false)
  | _ => true

theorem test_bridleReceiveChecks_met :
    (meetsBridleReceiveChecks 0 && meetsBridleReceiveChecks 1 (s := wi (pos_)) (m := pos_) (rest := [pos_]) &&
      meetsBridleReceiveChecks 2 (s := wi (bm 1 0 (zeros 40) 0 5 1 0 8)) (m := (bm 1 0 (zeros 40) 0 5 1 0 8)) (rest := [(bm 1 0 (zeros 40) 0 5 1 0 8)]) &&
      meetsBridleReceiveChecks 3 (s := wi (bm 1 0 (zeros 40) 0 5 0)) (m := (bm 1 0 (zeros 40) 0 5 0)) (rest := [(bm 1 0 (zeros 40) 0 5 0)]) &&
      meetsBridleReceiveChecks 4 (s := wi (bm 1 0 (zeros 40) 0 5 1 99)) (m := (bm 1 0 (zeros 40) 0 5 1 99)) (rest := [(bm 1 0 (zeros 40) 0 5 1 99)])) = true := by
  decide +kernel

def TZ : State := ((((((opn 7 U0).setF TW_CFG_EN 1).setF TW_CFG_TLINKS 6).setF (PORT_STAT_STATE 65) 3).setF (PORT_STAT_STATE 66) 3).setF TW_CFG_MATE_ID 9).setF (ZP_STAT_PEER_ID 1) 9
def tst (k : Nat) (s : State := TZ) : State := s.setF TW_STAT_STATE k
def twc (s : State := TZ) : State := s.setF (CH_CFG_TWIN 7) 1
def TS : State := { TZ with tack := { TZ.tack with twinKey := zeros 32 }, twin := { TZ.twin with turn := 1 } }
def mate0 : Mate := { id := 9, names := TZ.devId, sameFirmware := true, gen := TZ.gen, digest := be (cfgDigest TZ) 0 16, path := !TZ.isSet TW_CFG_MY_PATH, leads := false, standing := false, holdsSecret := true, value := 5 }
def rj (e : Beat) (s : State := tst 6 (twc)) : State := s.modTw 7 (fun t => { t with rejoining := true, gotContext := true, eligible := some e, since := 3 })
def hu : HeldUnit := { epoch := 3, asn := 9, lead := true, path := 1, tag := 0, frame := zeros 70 }
def hld (s : State := twc) : State := setRel 7 3 5 (s.modTw 7 (fun t => { t with held := [hu] }))

/-- The hypotheses of the clause numbered `clause`, counted from 0, of `Obligations.TwinResults`. -/
def meetsTwin (clause : Nat) (s : State := md 2 twc) (r : Mate := mate0) (arb : Bool := true) (n : Fin 512 := 7) (z : Nat := 2) (e : Beat := 5)
    (u : HeldUnit := hu) : Bool :=
  let i := n.val
  let st := s.getF TW_STAT_STATE
  let lead := takesLead s r arb
  let tw := (s.chan i).tw
  let link := decide (twinTurn s = some z) && decide (s.twin.backlog = [])
  let waits := s.pend.all (fun u => decide (u.ch < 512))
  let ready := tw.rejoining && tw.gotContext && decide (tw.eligible = some e) && s.beatDue e
  match clause with
  | 1 => decide (mayBind s = true) && decide (mateCheck s r lead ≠ 0)
  | 2 => decide (s.isSet TW_CFG_EN = true) && decide (st = 1) && decide (s.twin.since + ticksPerS ≤ s.now) && decide (mateCheck s r lead ≠ 0)
  | 3 => decide (st = 2) && decide (link = true)
  | 4 => decide (st ≠ 2)
  | 5 => decide (st = 3) && decide (3 ≤ (s.beat - s.twin.lastCame).toNat) && decide (waits = true)
  | 6 => decide (st = 3) && decide ((s.beat - s.twin.lastCame).toNat < 3)
  | 7 => decide (st = 4) && decide (4096 ≤ freeRunBeats s)
  | 8 => decide (st = 4) && decide (s.isSet TW_CFG_ARB_EN = true) && decide (waits = true)
  | 9 => decide (st = 4) && decide (arb = false)
  | 10 => decide (ready = true) && decide (s.chOpen i = true)
  | 11 => decide (tw.rejoining = true) && decide (tw.since + 2 * ticksPerS ≤ s.now)
  | 12 => decide (s.chOpen i = true) && decide (s.chTwin i = true) && decide (tw.held = [])
  | 13 => decide (tw.held = [u]) && decide (mayRelease s i u = true) && decide (s.chMode i = 0) && decide (fwdOut s i = false) &&
      decide (s.isSet (CH_CFG_RTAG i) = false)
  | 14 => decide (tw.held = [])
  | 15 => decide (tw.held = [])
  | _ => true

theorem test_twinResults_met_1 :
    (meetsTwin 1 (s := tst 1) (r := { mate0 with id := 8 }) &&
      meetsTwin 2 (s := { tst 1 with now := 100000000000, ym := { TZ.ym with bindBox := some 2 } }) (r := { mate0 with id := 8 }) &&
      meetsTwin 3 (s := tst 2 TS) && meetsTwin 4 (s := tst 3) && meetsTwin 5 (s := at1 50 (tst 3 twc)) &&
      meetsTwin 6 (s := at1 2 (tst 3 twc))) = true := by
  decide +kernel

theorem test_twinResults_met_2 :
    (meetsTwin 7 (s := at1 5000 { tst 4 twc with twin := { TZ.twin with freeFrom := some 3 } }) &&
      meetsTwin 8 (s := (tst 4 (twc (bst 2))).setF TW_CFG_ARB_EN 1) && meetsTwin 9 (s := (tst 4 twc).setF TW_CFG_ARB_EN 1) (arb := false) &&
      meetsTwin 10 (s := at1 8 (rj 5)) && meetsTwin 10 (s := at1 8 (rj 5 (tst 6 (twc (BU))))) &&
      meetsTwin 11 (s := { (rj 5 (tst 6 (twc TS))) with now := 100000000000 })) = true := by
  decide +kernel

theorem test_twinResults_met_3 :
    (meetsTwin 12 (s := twc) && meetsTwin 12 && meetsTwin 13 (s := hld) && meetsTwin 14 (s := TZ) &&
      meetsTwin 15 (s := twc.setF (TWC_STAT_DISTRUST 7) 1)) = true := by
  decide +kernel

/-- Clause 0: the mate may bind. -/
theorem test_twinBind_met :
    mayBind (tst 1 TS) = true ∧ mateCheck (tst 1 TS) mate0 (takesLead (tst 1 TS) mate0 true) = 0 := by
  have h : (tst 1 TS).config = TZ.config := by simp only [tst, TS, State.setF, State.wr]
  have e : mate0.digest = be (cfgDigest (tst 1 TS)) 0 16 := by
    rw [cfgDigest, h]
    rfl
  have e' : decide (mate0.digest ≠ be (cfgDigest (tst 1 TS)) 0 16) = false := decide_eq_false (fun x => x e)
  refine ⟨by decide +kernel, ?_⟩
  unfold mateCheck
  rw [e', Bool.or_false]
  decide +kernel

def rq (l : List Byte) (s : State := tst 3 (twc TS)) : State := { s with twin := { s.twin with inq := [l, [1,2]] } }
def asg (asn : Nat) : List Byte := twinHead 1 7 ++ beBytes 4 asn ++ beBytes 4 0x30000 ++ beBytes 4 0x01020304 ++ beBytes 2 78
def pu : OutUnit := { ou with frame := zeros 74, fcs := [1,2,3,4] }
def bea : List Byte := twinHead 2 0 ++ beBytes 6 9 ++ zeros 8
def bea7 : List Byte := twinHead 2 7 ++ beBytes 6 9 ++ zeros 8
def dgr (v : Nat) : List Byte := twinHead 3 7 ++ beBytes 6 9 ++ beBytes 8 v
def own (v : Nat) (s : State := tst 3 (twc TS)) : State := s.modTw 7 (fun t => { t with own := tblSet none 9 (some (BitVec.ofNat 64 v)) t.own })
def vrd (o : Nat) : List Byte := beBytes 2 (7*4096 + o*512 + 7) ++ beBytes 6 9 ++ beBytes 8 5 ++ beBytes 8 6 ++ beBytes 8 7
def slr (f : Nat) : List Byte := twinHead 4 7 ++ [2, BitVec.ofNat 8 f] ++ beBytes 4 11 ++ List.replicate 56 3
def sack : List Byte := twinHead 8 7 ++ [2]
def brr (m : BrIn) : List Byte := twinHead 5 7 ++ m.bytes
def bm9 (typ : Nat) : BrIn := bm typ 0 (beBytes 4 4 ++ beBytes 6 2000 ++ zeros 6)
def t3 (s : State) : State := ((tst 3 (twc TS)).wr64 (BR_SID_TX_LO 7) 77)
def ctr : List Byte := twinHead 6 7 ++ beBytes 6 4 ++ beBytes 6 8 ++ beBytes 2 5 ++ (List.range 2048).map (fun i => BitVec.ofNat 8 (i % 251))
def rqc : List Byte := twinHead 9 7
def fm (src : Nat := 12) : FabMsg := { port := 0, typ := 6, flags := 0, dst := 0, src := src, een := 0, status := 0, tag := 0, addr := 0, body := [0x16,0] ++ beBytes 2 (3*4096+7) ++ beBytes 6 9 ++ beBytes 8 55 }
def wt (s : State := tst 3 (twc TS)) : State := { (s.setF (TWC_CFG_WIT_EN 7) 1).setF (TWC_CFG_WIT_ID 7) 12 with fab := { s.fab with inq := [fm] } }

/-- The hypotheses of the clause numbered `clause`, counted from 0, of `Obligations.TwinRecordResults`. -/
def meetsTwinRecord (clause : Nat) (s : State := rq (asg 5) (tst 2 (twc TS))) (n : Fin 512 := 7) (c : List Byte := asg 5)
    (rest : List (List Byte) := [[1,2]]) (z : Nat := 2) (u : OutUnit := pu) (e : Beat := 5) (b : Nat := 9) (d : DWord := 55) (o : DWord := 6)
    (m : FabMsg := fm) (ms : List FabMsg := []) : Bool :=
  let i := n.val
  let st := s.getF TW_STAT_STATE
  let ns := twinChans s
  let tw := (s.chan i).tw
  let from' (y : Nat) : Bool := decide (s.twin.inq = c :: rest) && decide (be c 0 2 / 4096 = y) && decide (be c 0 2 % 512 = i)
  let link := decide (twinTurn s = some z) && decide (s.twin.backlog = [])
  let wit := isWitness s i
  let stamp := BitVec.ofNat 64 (extendNear s.stamp.toNat 32 64 (be c 6 4))
  let fits := fun (y : OutUnit) => decide (y.ch = i) && decide (y.frame.length + 4 = be c 14 2) && decide (be y.fcs 0 4 = be c 10 4)
  let takes := decide (st = 3) && !tw.rejoining && !wit
  let bt : Beat := BitVec.ofNat 48 (be c 2 6)
  let recent (l : List Nat) : List Nat := l.filter (fun y => s.now < y + ticksPerS)
  let left := s.units.any (fun y => decide (y.ch = i) && decide (s.chMode i = 0) && decide ((stampBeat y.stamp).toNat = b))
  let closed := s.chTwin i && !left && !wit && decide (tblGet none b tw.own = some d) && !tw.crcBeat.any (fun y => decide (y.toNat = b))
  let db := be c 2 6
  let l := BitVec.ofNat 64 (be c 8 8)
  let body := c.drop 2
  let saw := decide (s.fab.inq = m :: ms) && decide (m.typ = 6) && decide (at' m.body 0 = 0x16) && decide (be m.body 2 2 % 512 = i)
  let wb := be m.body 4 6
  let trusts := s.isSet (TWC_CFG_WIT_EN i) && s.chTwin i && decide (m.src = s.getF (TWC_CFG_WIT_ID i)) && decide (st = 3)
  let lateW := (tblGet none wb tw.lead).any (fun y => beatBefore (beatAdd y.2 4) s.beat)
  match clause with
  | 0 => decide (from' 1 = true) && decide (st = 2) && decide (s.isSet TW_CFG_MY_PATH = false)
  | 1 => decide (from' 1 = true) && decide (st = 2) && decide (s.isSet TW_CFG_MY_PATH = true)
  | 2 => decide (from' 1 = true) && decide (st ≠ 2) && decide (st ≠ 3) && decide (st ≠ 6) && decide (wit = false)
  | 3 => decide (from' 1 = true) && decide (takes = true) && decide (s.chMode i = 2)
  | 4 => decide (from' 1 = true) && decide (takes = true) && decide (s.chMode i ≠ 2) && decide (tw.unmatched = []) && decide (s.pend.any fits = false)
  | 5 => decide (from' 1 = true) && decide (takes = true) && decide (s.chMode i ≠ 2) && decide (tw.unmatched = []) && decide (s.pend = [u]) &&
      decide (fits u = true)
  | 6 => decide (from' 2 = true) && decide (st = 3)
  | 7 => decide (from' 2 = true) && decide (st = 4) && decide (ns = []) && decide (s.twin.freeFrom = some e) && decide (beatBefore bt e = false)
  | 8 => decide (from' 2 = true) && decide (st < 3)
  | 9 => decide (closed = true) && decide (st = 2) && decide (link = true)
  | 10 => decide (s.chTwin i = false)
  | 11 => decide (left = true) && decide (wit = false)
  | 12 => decide (from' 3 = true) && decide (st = 3) && decide (tw.rejoining = false) && decide (tblGet none db tw.own = none)
  | 13 => decide (from' 3 = true) && decide (st = 3) && decide (tw.rejoining = false) && decide (tblGet none db tw.own = some l)
  | 14 => decide (from' 3 = true) && decide (st = 3) && decide (tw.rejoining = false) && decide (tblGet none db tw.own = some o) && decide (o ≠ l) &&
      decide (s.isSet (TWC_CFG_WIT_EN i) = false) && decide ((recent s.twin.divs).length < 2)
  | 15 => decide (saw = true) && decide (trusts = true) && decide (lateW = false) && decide (tblGet none wb tw.own = none)
  | 16 => decide (saw = true) && decide (trusts = false) && decide (st ≠ 6)
  | 17 => decide (from' 7 = true) && decide (st ≠ 2)
  | 18 => decide (from' 7 = true) && decide (st = 2) && decide (be c 0 2 / 512 % 8 = 2) && decide ((recent s.twin.votes).length < 2)
  | 19 => decide (from' 7 = true) && decide (st = 2) && decide (be c 0 2 / 512 % 8 = 2) && decide (2 ≤ (recent s.twin.votes).length)
  | 20 => decide (from' 4 = true) && decide (wit = false) && decide (link = true)
  | 21 => decide (from' 8 = true) && decide (s.ym.installs = [])
  | 22 => decide (from' 5 = true) && decide (st < 3)
  | 23 => decide (from' 5 = true) && decide (3 ≤ st) && decide (be body 16 8 = s.sidTx i) && decide (at' body 1 ≠ brSwitchAt) &&
      decide (at' body 1 ≠ brSwitchCancel)
  | 24 => decide (from' 5 = true) && decide (3 ≤ st) && decide (be body 16 8 = s.sidTx i) && decide (at' body 1 = brSwitchAt) && decide (s.chMode i ≠ 2)
  | 25 => decide (from' 5 = true) && decide (3 ≤ st) && decide (be body 16 8 = s.sidTx i) && decide (at' body 1 = brSwitchCancel)
  | 26 => decide (from' 6 = true) && decide (tw.rejoining = true)
  | 27 => decide (from' 6 = true) && decide (tw.rejoining = false)
  | 28 => decide (from' 9 = true) && decide (s.chTwin i = true) && decide (s.chOpen i = true) && decide (s.chMode i = 0) &&
      decide (s.isSet (KB_ROLES_CUR_V i 0) = false) && decide (s.isSet (KB_ROLES_PREV_V i 0) = false) && decide (s.isSet (KB_ROLES_NEXT_V i 0) = false) &&
      decide (link = true)
  | 29 => decide (from' 9 = true) && decide (s.chTwin i = false)
  | _ => true

theorem test_twinRecordResults_met_1 :
    (meetsTwinRecord 0 && meetsTwinRecord 1 (s := rq (asg 5) ((tst 2 (twc TS)).setF TW_CFG_MY_PATH 1)) &&
      meetsTwinRecord 2 (s := rq (asg 5) (tst 4 (twc TS))) && meetsTwinRecord 3 (s := rq (asg 5) (md 2 (tst 3 (twc TS)))) &&
      meetsTwinRecord 3 (s := rq (asg 5) ((tst 3 (twc L0)))) && meetsTwinRecord 4 (s := rq (asg 5) (tst 3 (twc TS)))) = true := by
  decide +kernel

theorem test_twinRecordResults_met_2 :
    (meetsTwinRecord 5 (s := rq (asg 5) ({ tst 3 (twc TS) with pend := [pu] })) && meetsTwinRecord 6 (s := rq (bea7) (tst 3 (twc TS))) (c := bea7) &&
      meetsTwinRecord 6 (s := rq (bea7) (at1 30 { tst 3 (twc TS) with pend := [pu] })) (c := bea7) &&
      meetsTwinRecord 7 (s := rq (bea7) ({ (tst 4 TS) with twin := { TS.twin with freeFrom := some 5 } })) (c := bea7) &&
      meetsTwinRecord 8 (s := rq (bea7) (tst 2 (twc TS))) (c := bea7) && meetsTwinRecord 9 (s := own 55 (tst 2 (twc TS))) (c := bea)) = true := by
  decide +kernel

theorem test_twinRecordResults_met_3 :
    (meetsTwinRecord 10 (s := rq (bea) (TS)) (c := bea) &&
      meetsTwinRecord 11 (s := { tst 3 (twc TS) with units := [{ou with stamp := 0x90000}] }) (c := bea) &&
      meetsTwinRecord 12 (s := rq (dgr 55) (tst 3 (twc TS))) (c := dgr 55) && meetsTwinRecord 13 (s := rq (dgr 55) (own 55)) (c := dgr 55) &&
      meetsTwinRecord 14 (s := rq (dgr 55) (own 6)) (c := dgr 55) && meetsTwinRecord 15 (s := wt) (c := bea)) = true := by
  decide +kernel

theorem test_twinRecordResults_met_4 :
    (meetsTwinRecord 16 (s := wt (tst 2 (twc TS))) (c := bea) && meetsTwinRecord 17 (s := rq (vrd 2) (tst 3 (twc TS))) (c := vrd 2) &&
      meetsTwinRecord 18 (s := rq (vrd 2) (tst 2 (twc TS))) (c := vrd 2) &&
      meetsTwinRecord 19 (s := rq (vrd 2) ({ tst 2 (twc TS) with twin := { TS.twin with votes := [0,0] } })) (c := vrd 2) &&
      meetsTwinRecord 20 (s := rq (slr 0x12) (tst 3 (twc TS))) (c := slr 0x12) &&
      meetsTwinRecord 20 (s := rq (slr 0x16) (tst 3 (twc TS))) (c := slr 0x16)) = true := by
  decide +kernel

theorem test_twinRecordResults_met_5 :
    (meetsTwinRecord 21 (s := rq (sack) (tst 3 (twc TS))) (c := sack) &&
      meetsTwinRecord 22 (s := rq (brr (bm9 9)) (tst 2 (twc TS))) (c := brr (bm9 9)) &&
      meetsTwinRecord 23 (s := rq (brr (bm9 9)) (t3 TS)) (c := brr (bm9 9)) &&
      meetsTwinRecord 24 (s := rq (brr (bm9 8)) (t3 TS)) (c := brr (bm9 8)) &&
      meetsTwinRecord 25 (s := rq (brr (bm9 10)) (wsw sw0 (t3 TS))) (c := brr (bm9 10)) &&
      meetsTwinRecord 26 (s := rq (ctr) (rj 5 (tst 6 (twc TS)))) (c := ctr)) = true := by
  decide +kernel

theorem test_twinRecordResults_met_6 :
    (meetsTwinRecord 27 (s := rq (ctr) (tst 3 (twc TS))) (c := ctr) &&
      meetsTwinRecord 28 (s := rq (rqc) ((tst 2 (twc TS)).setF (KB_ROLES_CUR_V 7 0) 0)) (c := rqc) &&
      meetsTwinRecord 29 (s := rq (rqc) (TS)) (c := rqc)) = true := by
  decide +kernel

def FZ : State := let s := (((TZ.setF FAB_CFG_EN 1).setF FAB_STAT_STATE 2).setF (FAB_ROUTE_VALID 12) 1).setF (FAB_ROUTE_PORT 12) 2
  (s.modZp 1 (fun p => { p with tree := true })).setF (FAB_RIGHTS_RIGHTS 1) 0xF0000
def fmsg (typ : Nat) (body : List Byte) (addr : Nat := 0x4000) : FabMsg := { port := 2, typ := typ, flags := 0, dst := 0, src := 12, een := 0, status := 0, tag := 77, addr := addr, body := body }
def fin (m : FabMsg) (s : State := FZ) : State := { s with fab := { s.fab with inq := [m] } }
def nori (s : State := FZ) : State := s.setF (FAB_RIGHTS_RIGHTS 1) 0
def okfl : List Byte := flitBytes (FZ.zp 2) 4 0 0 ((fabHeader 5 0 0 12 0 8 0 9 0x10 ++ zeros 8) ++ zeros 84)
def okf (kind seq ack : Nat) : List Byte := flitBytes { (FZ.zp 2) with rxSeq := ack + 1 } kind 0 seq (zeros 116)
def rpl (tries : Nat := 3) : State := FZ.modZp 2 (fun p => { p with tries := tries, replay := [(5, { kind := 4, vc := 0, payload := zeros 116, msg := [1] }), (6, { kind := 4, vc := 0, payload := zeros 116, msg := [1] })] })
def fq : FabReq := { tag := 77, dst := 12, typ := 1, req := 8*3 + 2, sent := 4 }
def ft (st : Bool) : FarTag := { FarTag.reset with busy := true, store := st, loc := 0x100, size := 8, addr := 0x4000 }
def fr_ (st : Bool) (s : State := FZ) : State := { s.modCore 3 (fun c => { c with tags := tblSet FarTag.reset 2 (ft st) c.tags }) with fab := { s.fab with reqs := [fq] } }
def later (s : State) : State := { s with now := 100000000000 }
def fwdm : FabMsg := fmsg 8 (fwdBody 7 3 0 fr)
def fwd (en role : Nat) (s : State := { FZ with untested := [] }) : State := (((s.setF (FAB_FWD_FWD_EN 7) en).setF (FAB_FWD_PEER_DEV 7) 12).setF (FAB_FWD_ROLE 7) role)
def gapm : FabMsg := { fmsg 1 [1] with een := 4 }

/-- The hypotheses of the clause numbered `clause`, counted from 0, of `Obligations.FabricLinkResults`. -/
def meetsFabricLink (clause : Nat) (s : State := FZ) (z : Fin 8 := 2) (dev : Fin 1024 := 12) (f : List Byte := okfl) (q : Fin 4096 := 5)
    (m : FabMsg := fmsg 1 (beBytes 4 8)) (ms : List FabMsg := []) (y : Nat := 2) (w : FabReq := fq) (vc : Fin 4 := 0) (busy : Bool := false)
    (n : Nat := 0) : Bool :=
  let k := z.val
  let p := s.zp k
  let up := s.zUp k
  let crcOk := decide (f.length = 128) && decide (fcsOf (f.take 124) = f.drop 124)
  let kind := at' f 0 / 32
  let x := parseMsg k (slice f 8 116)
  let mineHere := s.isSet FAB_CFG_EN && decide (s.getF FAB_STAT_STATE = 2) && decide (x.flags = 0) && decide (x.dst = s.devId) &&
      [1, 2, 3, 4, 5, 8, 0xA].contains x.typ &&
        decide (x.een = tblGet 0 (4 * x.src + fabVc x.typ) s.fab.eenRx) && decide (s.fab.early = []) && decide (x.een < 65536)
  let sends := s.getF FAB_STAT_STATE ≠ 3 ∧ fabRoutePort s m.src = some y
  let head (typ : Nat) : Bool := decide (s.fab.inq = m :: ms) && decide (m.typ = typ)
  let popped := { s.fab with inq := ms }
  let o := m.addr % 2 ^ 38
  let len := be m.body 0 4
  let far := tblGet FarTag.reset (w.req % 8) (s.core (w.req / 8)).tags
  let asked := decide (s.fab.reqs.find? (fun r => decide (r.tag = m.tag) && decide (r.dst = m.src)) = some w) && far.busy &&
      !(s.core (w.req / 8)).frozen && decide (w.req < 256)
  let late := s.fab.early.filter (fun e => decide (e.2.src = dev.val) && decide (fabVc e.2.typ = vc.val))
  let master := decide (be m.body 0 2 = (if s.isFollower then s.getF TW_CFG_MATE_ID else s.getF FAB_CFG_POS_MASTER_ID)) && decide (s.getF POS_CFG_SRC = 3)
  let i := be m.body 0 2 % 512
  let out := at' m.body 2 % 32
  let fwd := slice m.body 8 (be m.body 6 2)
  let frame := fwd.take (fwd.length - 4)
  let ours := s.isSet (FAB_FWD_FWD_EN i) && decide (s.getF (FAB_FWD_PEER_DEV i) = m.src)
  let asn := s.rd64 (CH_OUT_ASN_LO i)
  let admits := (s.chan i).swOut.isNone && s.chOpen i && s.isSet (CH_CFG_OUT_EN i) && outKeyed s i && decide (asn.toNat + 1 < (asnLimits s i).1) &&
        decide (s.chMode i = 0) && !s.isSet (KB_ROLES_PERSIST i 0) && shedsOk s i none && !pathStopped s i &&
      !noBuffer s i ((frame.length + 4 + 255) / 256) && !s.chTwin i
  match clause with
  | 0 => decide (s.getF (PORT_STAT_STATE (64 + k)) = 1)
  | 1 => decide (s.getF (PORT_STAT_STATE (64 + k)) ≠ 1)
  | 2 => decide (up = true) && decide (crcOk = false) && decide (p.nak = false)
  | 3 => decide (up = true) && decide (crcOk = true) && decide (1 ≤ kind) && decide (kind ≤ 4) && decide (1 ≤ (be f 2 2 % 4096 + 4096 - p.rxSeq) % 4096) &&
      decide ((be f 2 2 % 4096 + 4096 - p.rxSeq) % 4096 < 2048) && decide (p.nak = true)
  | 4 => decide (up = true) && decide (crcOk = true) && decide (kind = 4) && decide (be f 2 2 % 4096 = p.rxSeq) && decide (p.txq = []) &&
      decide (mineHere = true)
  | 5 => decide (up = true) && decide (crcOk = true) && decide (kind = 0) && decide (p.txq = []) &&
      decide (p.replay.findIdx? (fun e => e.1 = be f 4 2 % 4096) = some n)
  | 6 => decide (up = true) && decide (p.replay ≠ []) && decide (p.replay.findIdx? (fun e => e.1 = q.val) = some 0) && decide (p.tries < 16)
  | 7 => decide (up = false)
  | 8 => decide (up = true) && decide (p.replay ≠ []) && decide (p.ackTick + 3000 ≤ s.now) && decide (p.tries < 16)
  | 9 => decide (up = true) && decide (p.replay ≠ []) && decide (p.ackTick + 3000 ≤ s.now) && decide (16 ≤ p.tries)
  | 10 => decide (s.now < p.ackTick + 3000)
  | 11 => decide (up = true)
  | 12 => decide (s.fabMember = true) && decide (s.getF FAB_CFG_POS_MASTER_ID = s.devId) && decide (p.tree = true) && decide (up = true)
  | 13 => decide (head 9 = true) && decide (master = true) && decide (s.fabMember = false)
  | 14 => decide (head 9 = true) && decide (master = false) && decide (s.fabMember = false)
  | 15 => decide (head 1 = true) && decide (sends) && decide (fabRight s m.src (peerRight o false) = false)
  | 16 => decide (head 1 = true) && decide (sends) && decide (fabRight s m.src (peerRight o false) = true) && decide (peerRangeOk s m.addr len = true) &&
      decide (busy = true) && decide (o < 0xC000000)
  | 17 => decide (head 1 = true) && decide (sends) && decide (fabRight s m.src (peerRight o false) = true) && decide (peerRangeOk s m.addr len = true)
  | 18 => decide (head 3 = true) && decide (sends) && decide (fabRight s m.src (peerRight o true) = false ∨ (0x30000000 ≤ o ∧ o < 0x30040000))
  | 19 => decide (head 3 = true) && decide (sends) && decide (fabRight s m.src (peerRight o true) = true) &&
      decide (peerRangeOk s m.addr m.body.length = true) && decide (o < 0xC000000) &&
      decide ((winWrite (.peer m.src) o m.body true { s with fab := popped }).1 = .ok)
  | 20 => decide (head 5 = true) && decide (sends) && decide (fabRight s m.src 3 = false)
  | 21 => decide (head 5 = true) && decide (sends) && decide (fabRight s m.src 3 = true)
  | 22 => decide (head 2 = true) && decide (asked = true) && decide (far.store = false) && decide (m.status = 0)
  | 23 => decide (head 4 = true) && decide (asked = true) && decide (far.store = true)
  | 24 => decide (head 2 = true) && decide (s.fab.reqs = [])
  | 25 => decide ((s.fab.reqs.filter (fun r => r.sent + reqTicks ≤ s.now)).getLast? = some w) && decide (far.busy = true) &&
      decide ((s.core (w.req / 8)).frozen = false) && decide (w.req < 256)
  | 26 => decide (s.fab.reqs = [])
  | 27 => decide (s.fab.early = [(n, m)]) && decide (m.src = dev.val) && decide (fabVc m.typ = vc.val) && decide (n + 15000 ≤ s.now) &&
      decide (m.typ ≠ 6) && decide (m.een < 65536)
  | 28 => decide (late.all (fun e => decide (s.now < e.1 + 15000)) = true)
  | 29 => decide (head 8 = true) && decide (ours = false)
  | 30 => decide (head 8 = true) && decide (ours = true) && decide (s.isSet (FAB_FWD_ROLE i) = false) && decide (s.portUp out = true)
  | 31 => decide (head 8 = true) && decide (ours = true) && decide (s.isSet (FAB_FWD_ROLE i) = false) && decide (s.portUp out = false)
  | 32 => decide (head 8 = true) && decide (ours = true) && decide (s.isSet (FAB_FWD_ROLE i) = true) && decide (admits = true)
  | _ => true

theorem test_fabricLinkResults_met_1 :
    (meetsFabricLink 0 (s := (FZ.setF (PORT_STAT_STATE 66) 1)) &&
      meetsFabricLink 0 (s := (FZ.setF (PORT_STAT_STATE 66) 1).setF (PORT_STAT_LOCK 66) 1) && meetsFabricLink 1 &&
      meetsFabricLink 2 (f := okfl.set 9 7) && meetsFabricLink 2 (f := [1,2]) &&
      meetsFabricLink 3 (s := FZ.modZp 2 (fun p => { p with nak := true })) (f := okf 4 3 0)) = true := by
  decide +kernel

theorem test_fabricLinkResults_met_2 :
    (meetsFabricLink 4 && meetsFabricLink 5 (s := rpl) (f := okf 0 0 5) && meetsFabricLink 5 (s := rpl) (f := okf 0 0 6) (n := 1) &&
      meetsFabricLink 6 (s := rpl) && meetsFabricLink 7 (s := FZ.setF (PORT_STAT_STATE 66) 1) && meetsFabricLink 8 (s := later rpl)) = true := by
  decide +kernel

theorem test_fabricLinkResults_met_3 :
    (meetsFabricLink 9 (s := later (rpl 16)) && meetsFabricLink 10 && meetsFabricLink 11 &&
      meetsFabricLink 12 (s := FZ.setF FAB_CFG_POS_MASTER_ID FZ.devId) (z := 1) &&
      meetsFabricLink 13 (s := fin (fmsg 9 (posMsgBody (FZ.getF FAB_CFG_POS_MASTER_ID) 0x70000 1 2 0 4)) ((FZ.setF FAB_STAT_STATE 0).setF POS_CFG_SRC 3)) (m := fmsg 9 (posMsgBody (FZ.getF FAB_CFG_POS_MASTER_ID) 0x70000 1 2 0 4)) &&
      meetsFabricLink 14 (s := fin (fmsg 9 (posMsgBody 900 0x70000 1 2 0 4)) ((FZ.setF FAB_STAT_STATE 0))) (m := fmsg 9 (posMsgBody 900 0x70000 1 2 0 4))) = true := by
  decide +kernel

theorem test_fabricLinkResults_met_4 :
    (meetsFabricLink 15 (s := fin (fmsg 1 (beBytes 4 8)) (nori)) && meetsFabricLink 16 (s := fin (fmsg 1 (beBytes 4 8)) (FZ)) (busy := true) &&
      meetsFabricLink 17 (s := fin (fmsg 1 (beBytes 4 8)) (FZ)) &&
      meetsFabricLink 17 (s := fin (fmsg 1 (beBytes 4 8) 0x24000000) (FZ)) (m := fmsg 1 (beBytes 4 8) 0x24000000) &&
      meetsFabricLink 18 (s := fin (fmsg 3 [1,2,3,4,5,6,7,8]) (nori)) (m := fmsg 3 [1,2,3,4,5,6,7,8]) &&
      meetsFabricLink 18 (s := fin (fmsg 3 [1,2] 0x30000010) (FZ)) (m := fmsg 3 [1,2] 0x30000010)) = true := by
  decide +kernel

theorem test_fabricLinkResults_met_5 :
    (meetsFabricLink 19 (s := fin (fmsg 3 [1,2,3,4,5,6,7,8]) (FZ.setF (PADK_OWNER_OWNER 0) 57)) (m := fmsg 3 [1,2,3,4,5,6,7,8]) &&
      meetsFabricLink 20 (s := fin (fmsg 5 [0,0,0,9]) (nori)) (m := fmsg 5 [0,0,0,9]) &&
      meetsFabricLink 21 (s := fin (fmsg 5 [0,0,0,9]) (FZ)) (m := fmsg 5 [0,0,0,9]) &&
      meetsFabricLink 22 (s := fin (fmsg 2 [1,2,3,4,5,6,7,8]) (fr_ false)) (m := fmsg 2 [1,2,3,4,5,6,7,8]) (y := 3) &&
      meetsFabricLink 23 (s := fin (fmsg 4 []) (fr_ true)) (m := fmsg 4 []) &&
      meetsFabricLink 24 (s := fin (fmsg 2 []) (FZ)) (m := fmsg 2 [])) = true := by
  decide +kernel

theorem test_fabricLinkResults_met_6 :
    (meetsFabricLink 25 (s := later (fr_ false)) && meetsFabricLink 25 (s := later (fr_ true)) && meetsFabricLink 26 &&
      meetsFabricLink 27 (s := later { FZ with fab := { FZ.fab with early := [(0, gapm)] } }) (m := gapm) && meetsFabricLink 28 &&
      meetsFabricLink 29 (s := fin (fwdm) (fwd 0 0)) (m := fwdm)) = true := by
  decide +kernel

theorem test_fabricLinkResults_met_7 :
    (meetsFabricLink 30 (s := fin (fwdm) (up 3 (fwd 1 0))) (m := fwdm) &&
      meetsFabricLink 31 (s := fin (fwdm) ((fwd 1 0).setF (PORT_STAT_STATE 3) 0)) (m := fwdm) &&
      meetsFabricLink 32 (s := fin (fwdm) (fwd 1 1)) (m := fwdm)) = true := by
  decide +kernel

def hbm_ (gen : Nat) (serial : Nat := 3) (src : Nat := 12) : FabMsg := { fmsg 7 (beBytes 8 gen ++ zeros 16 ++ beBytes 2 0 ++ [0] ++ beBytes 8 0 ++ beBytes 8 serial ++ [2,1,0,3] ++ zeros 64) with src := src }
def mem0 : Member := { serial := 3, pri := 2, gen := 0, digest := zeros 16, arb := false, pos := 0, paths := zeros 64, zup := 0, last := 5 }
def wm (s : State := FZ) : State := { s with fab := { s.fab with members := tblSet none 12 (some mem0) s.fab.members } }
def cust (s : State) : State := ((s.setF (FAB_CUST_01_V0 7) 1).setF (FAB_CUST_01_CAND0 7) FZ.devId)
def cust12 (s : State) : State := (((s.setF (FAB_CUST_01_V0 7) 1).setF (FAB_CUST_01_CAND0 7) 12).setF (FAB_LEASE_HOLDER 7) 12).setF (FAB_LEASE_HOLDER_KNOWN 7) 1
def dmsg (addr : Nat) : FabMsg := fmsg 0xB (discoverBody [2,1]) addr
def rmsg (ports : Nat) : FabMsg := fmsg 0xC (beBytes 8 44 ++ beBytes 2 9 ++ (List.range 8).flatMap (fun _ => [BitVec.ofNat 8 ports] ++ beBytes 8 3 ++ [1]))
def wd (draft : List MapNode) (s : State := FZ) : State := { s with fab := { s.fab with disc := [(77,[2]),(78,[1])], draft := draft } }
def mp : FabMsg := fmsg 6 (mapBody 9 3 1 [{ serial := 3, dev := 12, links := [(1, 0, 2)] }, { serial := 0, dev := 5, links := [(2, 3, 1)] }])
def vot (l : List Nat) (s : State := FZ) : State := { s with fab := { s.fab with voters := l } }
def lmsg (sub : Nat) (no : Nat := 4) (gen : Nat := FZ.gen) : FabMsg := fmsg 0xA ([BitVec.ofNat 8 sub] ++ beBytes 8 gen ++ beBytes 4 no ++ pathBitmap [7])
def lr : LeaseReq := { no := 4, t0 := 0, paths := [7], grants := [] }
def wl (vs : List Nat) (s : State := FZ) : State := vot vs { s with fab := { s.fab with leases := [lr] } }
def held (s : State := FZ) : State := (s.setF (FAB_LEASE_HELD 7) 1).setF (CH_STAT_LEASE 7) 1
def prom (e : Nat) (s : State := FZ) : State := { s with fab := { s.fab with promise := tblSet none 7 (some (12, e)) s.fab.promise } }
def vc_ (b : Nat) : State := { FZ with fab := { FZ.fab with voterChange := some (BitVec.ofNat 48 b, [12, 13, 14]) } }

/-- The hypotheses of the clause numbered `clause`, counted from 0, of `Obligations.FabricResults`. -/
def meetsFabric (clause : Nat) (s : State := wm) (z : Fin 8 := 1) (m : FabMsg := hbm_ 0) (ms : List FabMsg := []) (d : Fin 1024 := 12)
    (n : Fin 512 := 7) (old : Member := mem0) (path : List Nat := [2]) (r : LeaseReq := lr) (y : Nat := 2) (v : Nat := 12) (b : Beat := 5)
    (vs : List Nat := [12, 13, 14]) (g : Nat × Nat := (12, 5)) : Bool :=
  let k := z.val
  let i := n.val
  let head (typ : Nat) : Bool := decide (s.fab.inq = m :: ms) && decide (m.typ = typ)
  let c := m.body
  let ownHb := decide (m.src = s.devId) && s.isSet FAB_ID_ID_VALID && decide (s.getF FAB_STAT_STATE ≠ 3)
  let other := s.fabMember && !(decide (m.src = s.devId) && s.isSet FAB_ID_ID_VALID)
  let hop := discoverPort c m.addr
  let links := ((List.range 8).filter (fun j => at' c (10 + 10 * j) = 3)).map (fun j => (j, be c (11 + 10 * j) 8, at' c (19 + 10 * j)))
  let node : MapNode := { serial := be c 0 8, dev := be c 8 2, links := links }
  let asked := decide (s.fab.disc.find? (fun e => e.1 = m.tag) = some (m.tag, path)) && !(s.fab.disc.filter (fun e => e.1 ≠ m.tag)).isEmpty
  let pri := at' c 1
  let serial := be c 6 8
  let newMap := s.isSet FAB_CFG_EN && decide (at' c 0 = 0x14) && !(decide (be c 2 4 = s.fab.mapNo) && decide (s.fab.master.map (·.2) = some serial)) &&
        s.fab.master.all (fun p => decide (pri < p.1) || (decide (pri = p.1) && decide (serial < p.2)))
  let paths := (custodyChans s).filter (fun j => (s.isSet (FAB_LEASE_HELD j) && s.chOpen j && !s.isSet FAB_CFG_STAT_DIVERGE && !s.chTwin j) || seeks s j)
  let no := (s.fab.leaseNo + 1) % 2 ^ 32
  let want := leasePaths m
  let asks (sub : Nat) : Bool := head 0xA && decide (at' c 0 = sub)
  let voter := decide (be c 1 8 = s.gen) && s.fab.voters.contains s.devId && s.fabMember
  let routed := s.getF FAB_STAT_STATE ≠ 3 ∧ fabRoutePort s m.src = some y
  let mayAll := want.all (fun j => mayPromise s j m.src)
  let r' := { r with grants := r.grants ++ [(m.src, i)] }
  let adds := asks 2 && decide (s.fab.leases = [r]) && decide (r.no = be c 9 4) && decide (r.paths = [i]) && decide (want = [i]) &&
      decide (s.now < r.t0 + leaseTicks)
  let wins := quorum s ((r'.grants.filter (fun e => e.2 = i)).map (·.1))
  let lapsed := s.isSet (FAB_LEASE_HELD i) && decide (tblGet 0 i s.fab.leaseEnd ≤ s.now)
  match clause with
  | 0 => decide (s.fabMember = true) && decide ((s.zp k).tree = true) && decide (s.zUp k = true)
  | 1 => decide (s.fabMember = false)
  | 2 => decide (head 7 = true) && decide (ownHb = true)
  | 3 => decide (head 7 = true) && decide (other = true) && decide (m.src < 1024)
  | 4 => decide (tblGet none d.val s.fab.members = some old) && decide (old.last + 3 * ticksPerMs ≤ s.now)
  | 5 => decide (tblGet none d.val s.fab.members = some old) && decide (s.now < old.last + 3 * ticksPerMs)
  | 6 => decide (head 0xB = true) && decide (m.addr < at' c 0) && decide (s.zUp hop = true)
  | 7 => decide (head 0xB = true) && decide (at' c 0 ≤ m.addr)
  | 8 => decide (head 0xC = true) && decide (s.fab.disc = []) && decide (s.fab.back.find? (fun e => e.1 = m.tag) = some g) && decide (s.zUp g.2 = true)
  | 9 => decide (head 0xC = true) && decide (asked = true) && decide ((mapFind s.fab.draft node.serial).isSome = true)
  | 10 => decide (head 0xC = true) && decide (asked = true) && decide (mapFind s.fab.draft node.serial = none) && decide (links = [])
  | 11 => decide (head 6 = true) && decide (newMap = true)
  | 12 => decide (head 6 = true) && decide (at' c 0 = 0x14) && decide (s.isSet FAB_CFG_EN = false)
  | 14 => decide (s.fabMember = true) && decide (paths ≠ []) && decide (s.fab.voters = [v]) && decide (v ≠ s.devId) && decide (fabRoutePort s v = some y)
  | 15 => decide (s.fabMember = false)
  | 16 => decide (asks 1 = true) && decide (voter = true) && decide (mayAll = true) && decide (want ≠ []) && decide (routed)
  | 17 => decide (asks 1 = true) && decide (voter = false) && decide (want ≠ []) && decide (routed)
  | 18 => decide (adds = true) && decide (wins = true) && decide (s.isSet (FAB_LEASE_HELD i) = false)
  | 19 => decide (adds = true) && decide (wins = false)
  | 20 => decide (asks 3 = true)
  | 21 => decide (asks 4 = true)
  | 22 => decide (lapsed = true)
  | 23 => decide (lapsed = false)
  | 24 => decide (tblGet none i s.fab.promise = some g) && decide (g.2 ≤ s.now)
  | 25 => decide (tblGet none i s.fab.promise = some g) && decide (s.now < g.2)
  | 26 => decide (s.fab.voterChange = some (b, vs)) && decide (s.beatDue (beatAdd b 4096) = true)
  | 27 => decide (s.fab.voterChange = some (b, vs)) && decide (s.beatDue (beatAdd b 4096) = false)
  | _ => true

theorem test_fabricResults_met_1 :
    (meetsFabric 0 && meetsFabric 0 (s := vot [12] (FZ.setF FAB_STAT_QUORUM 1)) && meetsFabric 1 (s := TZ) &&
      meetsFabric 2 (s := fin ({ fmsg 7 (zeros 100) with src := FZ.devId }) (FZ.setF FAB_ID_ID_VALID 1)) (m := { fmsg 7 (zeros 100) with src := FZ.devId }) &&
      meetsFabric 3 (s := fin (hbm_ 0) (FZ)) && meetsFabric 3 (s := fin (hbm_ 5) (cust12 (held (wm)))) (m := hbm_ 5)) = true := by
  decide +kernel

theorem test_fabricResults_met_2 :
    (meetsFabric 4 (s := later (cust12 wm)) && meetsFabric 4 (s := later (wm (FZ.setF FAB_CFG_MASTER_PRI 7))) && meetsFabric 5 &&
      meetsFabric 6 (s := fin (dmsg 1) (FZ)) (m := dmsg 1) && meetsFabric 7 (s := fin (dmsg 2) (FZ)) (m := dmsg 2) &&
      meetsFabric 8 (s := fin (rmsg 3) ({FZ with fab := {FZ.fab with back := [(5,1),(77,1)]}})) (m := rmsg 3) (g := (77,1))) = true := by
  decide +kernel

theorem test_fabricResults_met_3 :
    (meetsFabric 9 (s := fin (rmsg 3) (wd [{serial := 44, dev := 9, links := []}])) (m := rmsg 3) &&
      meetsFabric 10 (s := fin (rmsg 1) (wd [])) (m := rmsg 1) && meetsFabric 11 (s := fin (mp) (FZ)) (m := mp) &&
      meetsFabric 11 (s := fin (mp) ({FZ with fab := {FZ.fab with master := some (2,1)}})) (m := mp) &&
      meetsFabric 12 (s := fin (mp) (TZ)) (m := mp) && meetsFabric 14 (s := cust (vot [12]))) = true := by
  decide +kernel

theorem test_fabricResults_met_4 :
    (meetsFabric 15 (s := TZ) && meetsFabric 16 (s := fin (lmsg 1) (vot [FZ.devId])) (m := lmsg 1) &&
      meetsFabric 17 (s := fin (lmsg 1 4 99) (vot [FZ.devId])) (m := lmsg 1 4 99) && meetsFabric 18 (s := fin (lmsg 2) (wl [12])) (m := lmsg 2) &&
      meetsFabric 18 (s := fin (lmsg 2) (wl [12] (wbr id (bst 2 FZ)))) (m := lmsg 2) &&
      meetsFabric 19 (s := fin (lmsg 2) (wl [12,13])) (m := lmsg 2)) = true := by
  decide +kernel

theorem test_fabricResults_met_5 :
    (meetsFabric 20 (s := fin (lmsg 3) (FZ)) (m := lmsg 3) && meetsFabric 21 (s := fin (lmsg 4) (prom 9)) (m := lmsg 4) &&
      meetsFabric 22 (s := held (bst 2 FZ)) && meetsFabric 23 (s := FZ) && meetsFabric 24 (s := prom 0) (g := (12, 0)) &&
      meetsFabric 25 (s := prom 9) (g := (12,9))) = true := by
  decide +kernel

theorem test_fabricResults_met_6 :
    (meetsFabric 26 (s := at1 5000 (vc_ 5)) && meetsFabric 27 (s := at1 500 (vc_ 5))) = true := by
  decide +kernel

end Wire

end Sys2Proof.Tests
end

/-!
SUPPORT. The dispatch and the queue under `Keep`: what Sys2Proof/Laws/ proves of each command holds of every command and of every step.
-/

namespace Sys2Proof.Machine

/-! ### The dispatch -/

/-- What an outcome keeps, its next state keeps. -/
theorem KeepNext.keep {s t : State} {o : Host.Outcome State Fault Refusal} (h : KeepNext s o) (ho : o = .next t) : Keep s t := by
  subst ho
  exact h

/-- Every command keeps what the state it starts from has kept; the dispatch has one arm for each, in the order of the table. -/
theorem exec_keep (i : Instr) {s0 s : State} (h0 : Keep s0 s) : KeepNext s0 (exec i s) := by
  cases i with
  -- registers (spec/02)
  | csrWrite => exact execCsrWrite_keep _ _ _ _ _ _ h0
  | pairLoRead => exact execPairLoRead_keep _ _ h0
  | pairLoWrite => exact execPairLoWrite_keep _ _ _ h0
  | pairHiWrite => exact execPairHiWrite_keep _ _ _ _ _ h0
  | pairAccess64 => exact execPairAccess64_keep _ _ _ _ _ h0
  | debugPeek => exact execDebugPeek_keep _ h0
  -- the position unit and the ports (spec/03, spec/04)
  | sourceBeatBoundary => exact execSourceBeatBoundary_keep _ _ h0
  | beatWindowClose => exact execBeatWindowClose_keep h0
  | ownBeatBoundary => exact execOwnBeatBoundary_keep h0
  | sourceChangeover => exact execSourceChangeover_keep _ h0
  | holdoverExpiry => exact execHoldoverExpiry_keep h0
  | freqEstimateValid => exact execFreqEstimateValid_keep h0
  | posConfig => exact execPosConfig_keep _ _ h0
  | posSetBeat => exact execPosSetBeat_keep _ h0
  | posFreqOffset => exact execPosFreqOffset_keep _ h0
  | posPhaseStep => exact execPosPhaseStep_keep _ h0
  | posGet => exact execPosGet_keep _ h0
  | portGroupConfig => exact execPortGroupConfig_keep _ _ h0
  | portConfig => exact execPortConfig_keep _ _ h0
  | portLos => exact execPortLos_keep _ _ h0
  | portLockLost => exact execPortLockLost_keep _ _ h0
  | portEnterAcquire => exact execPortEnterAcquire_keep _ h0
  | anComplete => exact execAnComplete_keep _ h0
  | portLockGained => exact execPortLockGained_keep _ h0
  | portUpHoldExpiry => exact execPortUpHoldExpiry_keep _ h0
  | portLockRetryExpiry => exact execPortLockRetryExpiry_keep _ h0
  | portHiber => exact execPortHiber_keep _ _ h0
  | portSd => exact execPortSd_keep _ _ h0
  | portAisRx => exact execPortAisRx_keep _ _ h0
  | portRemote => exact execPortRemote_keep _ _ h0
  | portRefclk => exact execPortRefclk_keep _ _ h0
  | partnerReturn => exact execPartnerReturn_keep _ h0
  | plainFrameRx => exact execPlainFrameRx_keep _ _ h0
  -- Gates, channels and frames (spec/05, spec/06)
  | gateRun => exact execGateRun_keep _ h0
  | cbHistoryReset => exact execCbHistoryReset_keep _ h0
  | chOpen => exact execChOpen_keep _ _ h0
  | chClose => exact execChClose_keep _ _ h0
  | chModify => exact execChModify_keep _ _ h0
  | chGet => exact execChGet_keep _ h0
  | gateLoad => exact execGateLoad_keep _ _ h0
  | gateTable => exact execGateTable_keep _ _ h0
  | gateSwitch => exact execGateSwitch_keep _ _ h0
  | puntQueue => exact execPuntQueue_keep _ _ h0
  | frameSend => exact execFrameSend_keep _ h0
  | cellCalendar => exact execCellCalendar_keep _ _ h0
  | chCustomer => exact execChCustomer_keep _ _ h0
  | changeBeatApply => exact execChangeBeatApply_keep h0
  | closingDrained => exact execClosingDrained_keep _ h0
  | closingTimeout => exact execClosingTimeout_keep _ h0
  | railBlockCompute => exact execRailBlockCompute_keep _ _ h0
  | cipherTxStart => exact execCipherTxStart_keep _ h0
  | unitEgressDone => exact execUnitEgressDone_keep _ h0
  | inboundUnitRx => exact execInboundUnitRx_keep h0
  | prevKeyRelease => exact execPrevKeyRelease_keep _ _ h0
  -- cells and layer 1 (spec/07, spec/08)
  | slotAssemblyClose => exact execSlotAssemblyClose_keep _ _ _ h0
  | calendarSwitch => exact execCalendarSwitch_keep _ h0
  | cellWrapHold => exact execCellWrapHold_keep _ h0
  | cellHeaderRx => exact execCellHeaderRx_keep _ _ h0
  | l1PlainFrameRx => exact execL1PlainFrameRx_keep _ _ _ _ _ h0
  | l1CipherFrameRx => exact execL1CipherFrameRx_keep _ _ _ _ _ _ h0
  | l1InputLost => exact execL1InputLost_keep _ h0
  | l1InputReturn => exact execL1InputReturn_keep _ h0
  | l1EfnWrapHold => exact execL1EfnWrapHold_keep _ h0
  -- keys and zeroisation (spec/09)
  | depositCommit => exact execDepositCommit_keep _ _ _ h0
  | keySlotLoad => exact execKeySlotLoad_keep _ _ h0
  | zeroNAssert => exact execZeroNAssert_keep h0
  | zeroiseVaultDone => exact execZeroiseVaultDone_keep h0
  | loftKeyEraseDone => exact execLoftKeyEraseDone_keep h0
  | zeroNRelease => exact execZeroNRelease_keep h0
  -- Bridle (spec/10)
  | bridleSessionSetup => exact execBridleSessionSetup_keep _ h0
  | helloResend => exact execHelloResend_keep _ h0
  | bridleSidRollover => exact execBridleSidRollover_keep _ h0
  | bridleHelloRx => exact execBridleHelloRx_keep h0
  | bridlePositionRx => exact execBridlePositionRx_keep h0
  | bridleProbeRx => exact execBridleProbeRx_keep _ h0
  | bridleEchoRx => exact execBridleEchoRx_keep _ h0
  | bridleKemOfferRx => exact execBridleKemOfferRx_keep h0
  | bridleKemAcceptRx => exact execBridleKemAcceptRx_keep h0
  | bridleKeyConfirmRx => exact execBridleKeyConfirmRx_keep h0
  | bridleSwitchAtRx => exact execBridleSwitchAtRx_keep _ h0
  | bridleSwitchAckRx => exact execBridleSwitchAckRx_keep _ h0
  | bridleSwitchCancelRx => exact execBridleSwitchCancelRx_keep h0
  | bridleHeartbeatRx => exact execBridleHeartbeatRx_keep h0
  | bridleDigestRx => exact execBridleDigestRx_keep h0
  | bridleAlarmRx => exact execBridleAlarmRx_keep h0
  | kemOfferSend => exact execKemOfferSend_keep _ h0
  | kemRetryTimeout => exact execKemRetryTimeout_keep _ h0
  | switchAtSend => exact execSwitchAtSend_keep _ h0
  | cancelPoint => exact execCancelPoint_keep _ h0
  | bridleHeartbeatSend => exact execBridleHeartbeatSend_keep _ h0
  | bridleProbeSend => exact execBridleProbeSend_keep _ h0
  | bridlePositionSend => exact execBridlePositionSend_keep _ h0
  | bridleDigestSend => exact execBridleDigestSend_keep _ h0
  | bridleAnswerTimeout => exact execBridleAnswerTimeout_keep _ h0
  | bridleSuspectClear => exact execBridleSuspectClear_keep _ h0
  | bridleHbLoss => exact execBridleHbLoss_keep _ h0
  | bridleConfig => exact execBridleConfig_keep _ _ h0
  | bridleSend => exact execBridleSend_keep _ h0
  | twinBind => exact execTwinBind_keep _ _ h0
  -- the Twin pair (spec/11)
  | twinBound => exact execTwinBound_keep _ _ h0
  | twinBindFail => exact execTwinBindFail_keep _ _ h0
  | twinBeatSend => exact execTwinBeatSend_keep h0
  | twinAssignRx => exact execTwinAssignRx_keep h0
  | twinBeatRx => exact execTwinBeatRx_keep h0
  | twinDigestDone => exact execTwinDigestDone_keep _ _ h0
  | twinDigestRx => exact execTwinDigestRx_keep h0
  | witnessDigestRx => exact execWitnessDigestRx_keep h0
  | twinVerdictRx => exact execTwinVerdictRx_keep h0
  | twinSlotRx => exact execTwinSlotRx_keep h0
  | twinBridleRx => exact execTwinBridleRx_keep h0
  | twinContextRx => exact execTwinContextRx_keep h0
  | twinFreeRunEnter => exact execTwinFreeRunEnter_keep h0
  | twinFreeRunExpiry => exact execTwinFreeRunExpiry_keep h0
  | twinPromote => exact execTwinPromote_keep _ h0
  | twinRejoinEligible => exact execTwinRejoinEligible_keep _ h0
  | twinRejoinLate => exact execTwinRejoinLate_keep _ h0
  | mergePathLost => exact execMergePathLost_keep _ _ h0
  | mergeGapTimeout => exact execMergeGapTimeout_keep _ h0
  | mergeDistrustEnd => exact execMergeDistrustEnd_keep _ h0
  -- the fabric (spec/12)
  | fabInitRx => exact execFabInitRx_keep _ _ _ _ h0
  | fabFlitRx => exact execFabFlitRx_keep _ _ h0
  | fabNakRx => exact execFabNakRx_keep _ _ h0
  | fabReplayTimeout => exact execFabReplayTimeout_keep _ h0
  | fabTsync => exact execFabTsync_keep _ _ _ _ _ h0
  | fabPositionSend => exact execFabPositionSend_keep h0
  | fabPositionRx => exact execFabPositionRx_keep _ h0
  | fabHeartbeatSend => exact execFabHeartbeatSend_keep _ h0
  | fabHeartbeatRx => exact execFabHeartbeatRx_keep h0
  | fabMemberAbsent => exact execFabMemberAbsent_keep _ h0
  | fabDiscoverRx => exact execFabDiscoverRx_keep h0
  | fabDiscoverReplyRx => exact execFabDiscoverReplyRx_keep h0
  | fabMapRx => exact execFabMapRx_keep h0
  | fabRouteUpdate => exact execFabRouteUpdate_keep _ h0
  | fabReadRx => exact execFabReadRx_keep _ h0
  | fabWriteRx => exact execFabWriteRx_keep _ _ h0
  | fabDoorbellRx => exact execFabDoorbellRx_keep h0
  | fabResponseRx => exact execFabResponseRx_keep _ h0
  | fabResponseTimeout => exact execFabResponseTimeout_keep _ h0
  | fabE2eGap => exact execFabE2eGap_keep _ _ h0
  | leaseRequestSend => exact execLeaseRequestSend_keep h0
  | leaseRequestRx => exact execLeaseRequestRx_keep h0
  | leaseGrantRx => exact execLeaseGrantRx_keep h0
  | leaseDenyRx => exact execLeaseDenyRx_keep h0
  | leaseReleaseRx => exact execLeaseReleaseRx_keep h0
  | leaseExpiry => exact execLeaseExpiry_keep _ h0
  | promiseExpiry => exact execPromiseExpiry_keep _ h0
  | voterChangeEnd => exact execVoterChangeEnd_keep h0
  | cfgCommandAtMaster => exact execCfgCommandAtMaster_keep h0
  | cfgPullDone => exact execCfgPullDone_keep h0
  | forwardRx => exact execForwardRx_keep h0
  | fabConfig => exact execFabConfig_keep _ _ h0
  | fabRights => exact execFabRights_keep _ _ h0
  | fabCustody => exact execFabCustody_keep _ _ h0
  | fabForward => exact execFabForward_keep _ _ h0
  -- Yardmasters and the support commands of YFI (spec/13, spec/14)
  | tokenGrant => exact execTokenGrant_keep _ h0
  | tokenRelease => exact execTokenRelease_keep _ h0
  | aliveWrite => exact execAliveWrite_keep _ h0
  | watchdogExpiry => exact execWatchdogExpiry_keep h0
  | readyClear => exact execReadyClear_keep _ h0
  | ymDigestCompare => exact execYmDigestCompare_keep _ h0
  | ymNoStandby => exact execYmNoStandby_keep h0
  | mailboxRing => exact execMailboxRing_keep _ _ h0
  | hostBar2Access => exact execHostBar2Access_keep _ _ _ _ h0
  | compatCommand => exact execCompatCommand_keep _ _ _ h0
  | idGenerate => exact execIdGenerate_keep _ _ _ h0
  | idCert => exact execIdCert_keep _ _ h0
  | idGetKey => exact execIdGetKey_keep _ h0
  | idGetCert => exact execIdGetCert_keep _ h0
  | kekInstall => exact execKekInstall_keep _ _ h0
  | kekKemOffer => exact execKekKemOffer_keep _ _ h0
  | kekKemOfferPart1 => exact execKekKemOfferPart1_keep _ h0
  | kekKemPairExpiry => exact execKekKemPairExpiry_keep h0
  | kekKemFinish => exact execKekKemFinish_keep _ _ h0
  | pairInstall => exact execPairInstall_keep _ _ h0
  | keyInstall => exact execKeyInstall_keep _ _ h0
  | keyExport => exact execKeyExport_keep _ h0
  | keyPolicy => exact execKeyPolicy_keep _ _ h0
  | keyRekey => exact execKeyRekey_keep _ h0
  | draySplit => exact execDraySplit_keep _ _ h0
  | drayLoad => exact execDrayLoad_keep _ h0
  | drayControlStop => exact execDrayControlStop_keep _ _ h0
  | drayControlStart => exact execDrayControlStart_keep _ _ h0
  | memAperture => exact execMemAperture_keep _ _ h0
  | bellHostDb => exact execBellHostDb_keep _ _ h0
  | shedSet => exact execShedSet_keep _ _ h0
  | shedReset => exact execShedReset_keep _ h0
  | loftBudget => exact execLoftBudget_keep _ _ h0
  | loftGet => exact execLoftGet_keep _ h0
  | farrierConfig => exact execFarrierConfig_keep _ _ h0
  | info => exact execInfo_keep _ h0
  | ledgerConfig => exact execLedgerConfig_keep _ _ h0
  | ledgerReaction => exact execLedgerReaction_keep _ _ h0
  | faultClear => exact execFaultClear_keep _ h0
  | statsMode => exact execStatsMode_keep _ _ h0
  | compatConfig => exact execCompatConfig_keep _ _ h0
  -- Dray cores: control and scalar ops (spec/15, spec/16)
  | coreStart => exact execCoreStart_keep _ _ h0
  | coreStop => exact execCoreStop_keep _ _ h0
  | lmClearDone => exact execLmClearDone_keep _ h0
  | nop => exact execNop_keep _ _ h0
  | add => exact execAdd_keep _ _ _ _ h0
  | sub => exact execSub_keep _ _ _ _ h0
  | and => exact execAnd_keep _ _ _ _ h0
  | or => exact execOr_keep _ _ _ _ h0
  | xor => exact execXor_keep _ _ _ _ h0
  | shl => exact execShl_keep _ _ _ _ h0
  | shr => exact execShr_keep _ _ _ _ h0
  | sra => exact execSra_keep _ _ _ _ h0
  | min => exact execMin_keep _ _ _ _ h0
  | max => exact execMax_keep _ _ _ _ h0
  | minu => exact execMinu_keep _ _ _ _ h0
  | maxu => exact execMaxu_keep _ _ _ _ h0
  | adds => exact execAdds_keep _ _ _ _ h0
  | subs => exact execSubs_keep _ _ _ _ h0
  | rol => exact execRol_keep _ _ _ _ h0
  | andn => exact execAndn_keep _ _ _ _ h0
  | addi => exact execAddi_keep _ _ _ _ h0
  | shli => exact execShli_keep _ _ _ _ h0
  | shri => exact execShri_keep _ _ _ _ h0
  | srai => exact execSrai_keep _ _ _ _ h0
  | roli => exact execRoli_keep _ _ _ _ h0
  | andi => exact execAndi_keep _ _ _ _ h0
  | ori => exact execOri_keep _ _ _ _ h0
  | xori => exact execXori_keep _ _ _ _ h0
  | movi => exact execMovi_keep _ _ _ h0
  | movi32 => exact execMovi32_keep _ _ _ h0
  | dadd => exact execDadd_keep _ _ _ _ h0
  | dsub => exact execDsub_keep _ _ _ _ h0
  | dand => exact execDand_keep _ _ _ _ h0
  | dor => exact execDor_keep _ _ _ _ h0
  | dxor => exact execDxor_keep _ _ _ _ h0
  | dshl => exact execDshl_keep _ _ _ _ h0
  | dshr => exact execDshr_keep _ _ _ _ h0
  | dsra => exact execDsra_keep _ _ _ _ h0
  | sel => exact execSel_keep _ _ _ _ _ h0
  | cmp => exact execCmp_keep _ _ _ _ _ _ h0
  | cmpi => exact execCmpi_keep _ _ _ _ _ h0
  | pand => exact execPand_keep _ _ _ _ h0
  | por => exact execPor_keep _ _ _ _ h0
  | pxor => exact execPxor_keep _ _ _ _ h0
  | pandn => exact execPandn_keep _ _ _ _ h0
  | clz => exact execClz_keep _ _ _ h0
  | popc => exact execPopc_keep _ _ _ h0
  | brev => exact execBrev_keep _ _ _ h0
  | sextb => exact execSextb_keep _ _ _ h0
  | sexth => exact execSexth_keep _ _ _ h0
  | zextb => exact execZextb_keep _ _ _ h0
  | zexth => exact execZexth_keep _ _ _ h0
  | mul => exact execMul_keep _ _ _ _ h0
  | mulhs => exact execMulhs_keep _ _ _ _ h0
  | mulhu => exact execMulhu_keep _ _ _ _ h0
  | mulw => exact execMulw_keep _ _ _ _ h0
  | mulwu => exact execMulwu_keep _ _ _ _ h0
  | clmul => exact execClmul_keep _ _ _ _ h0
  | clmulh => exact execClmulh_keep _ _ _ _ h0
  | mac => exact execMac_keep _ _ _ _ h0
  | macu => exact execMacu_keep _ _ _ _ h0
  | msu => exact execMsu_keep _ _ _ _ h0
  | mac2 => exact execMac2_keep _ _ _ _ h0
  | aclr => exact execAclr_keep _ _ h0
  | awr => exact execAwr_keep _ _ _ h0
  | ard => exact execArd_keep _ _ _ _ _ _ h0
  | macd => exact execMacd_keep _ _ _ _ _ _ _ _ _ _ _ h0
  | ldb => exact execLdb_keep _ _ _ _ _ _ h0
  | ldbu => exact execLdbu_keep _ _ _ _ _ _ h0
  | ldh => exact execLdh_keep _ _ _ _ _ _ h0
  | ldhu => exact execLdhu_keep _ _ _ _ _ _ h0
  | ldw => exact execLdw_keep _ _ _ _ _ _ h0
  | ldd => exact execLdd_keep _ _ _ _ _ _ h0
  | stb => exact execStb_keep _ _ _ _ _ h0
  | sth => exact execSth_keep _ _ _ _ _ h0
  | stw => exact execStw_keep _ _ _ _ _ h0
  | std => exact execStd_keep _ _ _ _ _ h0
  | segld => exact execSegld_keep _ _ _ _ h0
  | segsub => exact execSegsub_keep _ _ _ _ _ _ h0
  | segmv => exact execSegmv_keep _ _ _ h0
  | segrd => exact execSegrd_keep _ _ _ _ h0
  | zconf => exact execZconf_keep _ _ h0
  | farld => exact execFarld_keep _ _ _ _ _ _ _ h0
  | farst => exact execFarst_keep _ _ _ _ _ _ _ h0
  | farComplete => exact execFarComplete_keep _ _ _ _ _ h0
  | fwait => exact execFwait_keep _ _ h0
  | tagp => exact execTagp_keep _ _ _ h0
  | fstat => exact execFstat_keep _ _ _ h0
  | bcopy => exact execBcopy_keep _ _ _ _ _ _ _ _ h0
  | bfill => exact execBfill_keep _ _ _ _ _ _ _ _ h0
  | bcmp => exact execBcmp_keep _ _ _ _ _ _ _ _ h0
  | bfind => exact execBfind_keep _ _ _ _ _ _ _ _ h0
  | lock => exact execLock_keep _ _ _ _ _ h0
  | unlock => exact execUnlock_keep _ _ _ _ h0
  | br => exact execBr_keep _ _ _ h0
  | brl => exact execBrl_keep _ _ _ _ h0
  | brr => exact execBrr_keep _ _ _ _ _ h0
  | loop0 => exact execLoop0_keep _ _ _ _ h0
  | loop1 => exact execLoop1_keep _ _ _ _ h0
  | atom => exact execAtom_keep _ _ h0
  | wait => exact execWait_keep _ h0
  | syscall => exact execSyscall_keep _ _ h0
  | rete => exact execRete_keep _ h0
  | brk => exact execBrk_keep _ h0
  | mfc => exact execMfc_keep _ _ _ h0
  | mtc => exact execMtc_keep _ _ _ h0
  -- Dray cores: vector ops (spec/17)
  | vadd => exact execVadd_keep _ _ _ _ _ h0
  | vsub => exact execVsub_keep _ _ _ _ _ h0
  | vand => exact execVand_keep _ _ _ _ _ h0
  | vor => exact execVor_keep _ _ _ _ _ h0
  | vxor => exact execVxor_keep _ _ _ _ _ h0
  | vmin => exact execVmin_keep _ _ _ _ _ h0
  | vmax => exact execVmax_keep _ _ _ _ _ h0
  | vminu => exact execVminu_keep _ _ _ _ _ h0
  | vmaxu => exact execVmaxu_keep _ _ _ _ _ h0
  | vshl => exact execVshl_keep _ _ _ _ _ h0
  | vshr => exact execVshr_keep _ _ _ _ _ h0
  | vsra => exact execVsra_keep _ _ _ _ _ h0
  | vmv => exact execVmv_keep _ _ _ _ _ h0
  | vsel => exact execVsel_keep _ _ _ _ _ h0
  | vcmp => exact execVcmp_keep _ _ _ _ _ _ _ h0
  | vmul => exact execVmul_keep _ _ _ _ _ h0
  | vmulh => exact execVmulh_keep _ _ _ _ _ h0
  | vmulhu => exact execVmulhu_keep _ _ _ _ _ h0
  | vwmul => exact execVwmul_keep _ _ _ _ _ h0
  | vwmulu => exact execVwmulu_keep _ _ _ _ _ h0
  | vwmac => exact execVwmac_keep _ _ _ _ _ h0
  | vwmacu => exact execVwmacu_keep _ _ _ _ _ h0
  | vdot4 => exact execVdot4_keep _ _ _ _ _ h0
  | vqadd => exact execVqadd_keep _ _ _ _ _ h0
  | vqsub => exact execVqsub_keep _ _ _ _ _ h0
  | vqaddu => exact execVqaddu_keep _ _ _ _ _ h0
  | vqsubu => exact execVqsubu_keep _ _ _ _ _ h0
  | vqdmulh => exact execVqdmulh_keep _ _ _ _ _ h0
  | vqrdmulh => exact execVqrdmulh_keep _ _ _ _ _ h0
  | vrshr => exact execVrshr_keep _ _ _ _ _ h0
  | vrshru => exact execVrshru_keep _ _ _ _ _ h0
  | vsat => exact execVsat_keep _ _ _ _ _ h0
  | vsatu => exact execVsatu_keep _ _ _ _ _ h0
  | vmodredU => exact execVmodredU_keep _ _ _ _ h0
  | vmodredUn => exact execVmodredUn_keep _ _ _ _ h0
  | vmodredSn => exact execVmodredSn_keep _ _ _ _ h0
  | vmodredS => exact execVmodredS_keep _ _ _ _ h0
  | vld => exact execVld_keep _ _ _ _ _ _ h0
  | vldInc => exact execVldInc_keep _ _ _ _ _ _ h0
  | vst => exact execVst_keep _ _ _ _ _ h0
  | vstInc => exact execVstInc_keep _ _ _ _ _ h0
  | vlds => exact execVlds_keep _ _ _ _ _ _ h0
  | vsts => exact execVsts_keep _ _ _ _ _ h0
  | vstrip => exact execVstrip_keep _ _ _ _ _ h0
  | vredsum => exact execVredsum_keep _ _ _ _ h0
  | vredmax => exact execVredmax_keep _ _ _ _ h0
  | vredmin => exact execVredmin_keep _ _ _ _ h0
  | vmvxs => exact execVmvxs_keep _ _ _ _ h0
  | vsplat => exact execVsplat_keep _ _ _ _ h0
  | mand => exact execMand_keep _ _ _ _ h0
  | mor => exact execMor_keep _ _ _ _ h0
  | mxor => exact execMxor_keep _ _ _ _ h0
  | mandn => exact execMandn_keep _ _ _ _ h0
  -- Dray cores: interrupts and debug (spec/18)
  | interruptEntry => exact execInterruptEntry_keep _ _ h0
  | dbgHalt => exact execDbgHalt_keep _ _ h0
  | dbgForceHalt => exact execDbgForceHalt_keep _ _ h0
  | dbgResume => exact execDbgResume_keep _ _ _ h0
  | dbgStep => exact execDbgStep_keep _ _ _ h0
  | haltTaken => exact execHaltTaken_keep _ h0
  | dbgRdataAccess => exact execDbgRdataAccess_keep _ _ _ h0
  | traceRead => exact execTraceRead_keep _ _ h0
  -- Paddock and Barn (spec/19)
  | ownerHandover => exact execOwnerHandover_keep _ _ _ h0
  | handoverDone => exact execHandoverDone_keep _ h0
  | groomScrub => exact execGroomScrub_keep _ _ _ h0
  | barnReady => exact execBarnReady_keep _ h0
  -- Bell (spec/20)
  | sourceEvent => exact execSourceEvent_keep _ _ h0
  | tgtTake => exact execTgtTake_keep _ _ h0
  | tgtFinish => exact execTgtFinish_keep _ _ _ h0
  | bellDoorbell => exact execBellDoorbell_keep _ _ h0
  | bellFreezeSet => exact execBellFreezeSet_keep _ h0
  | bellFreezeRelease => exact execBellFreezeRelease_keep _ h0
  | bellFrzExpired => exact execBellFrzExpired_keep h0
  | holdoffExpiry => exact execHoldoffExpiry_keep _ h0
  | wakeLatchCapture => exact execWakeLatchCapture_keep _ _ h0
  -- Tally (spec/21)
  | tallyEvaluation => exact execTallyEvaluation_keep _ h0
  | compareCommit => exact execCompareCommit_keep _ _ _ _ h0
  | compareDisarm => exact execCompareDisarm_keep _ _ _ _ h0
  | tallyCountWrite => exact execTallyCountWrite_keep _ _ _ _ h0
  | tallyLfPeriod => exact execTallyLfPeriod_keep h0
  -- the fault ledger (spec/22)
  | ledgerReport => exact execLedgerReport_keep h0
  | coalesceWindowClose => exact execCoalesceWindowClose_keep h0
  | ringWrite => exact execRingWrite_keep _ h0
  | ledgerRdWrite => exact execLedgerRdWrite_keep _ _ h0
  | hostRdPoll => exact execHostRdPoll_keep h0
  | ledgerModeCopyDone => exact execLedgerModeCopyDone_keep h0
  | ledgerInject => exact execLedgerInject_keep _ _ h0
  -- Farrier (spec/23)
  | railTestStep => exact execRailTestStep_keep _ _ h0
  | fillCellCompare => exact execFillCellCompare_keep _ _ _ h0
  | engineTestStep => exact execEngineTestStep_keep _ _ h0
  | draySelftestStep => exact execDraySelftestStep_keep _ _ _ h0
  | coverageLate => exact execCoverageLate_keep _ _ h0
  | marginMeasure => exact execMarginMeasure_keep _ _ _ h0
  | entropySample => exact execEntropySample_keep _ h0
  -- sheds, resets and the Loft (spec/24)
  | pwrShedReqWrite => exact execPwrShedReqWrite_keep _ _ h0
  | shedDrainDone => exact execShedDrainDone_keep _ h0
  | shedPowerUp => exact execShedPowerUp_keep h0
  | shedPowerGood => exact execShedPowerGood_keep h0
  | pwrShedFail => exact execPwrShedFail_keep h0
  | pwrShedRstWrite => exact execPwrShedRstWrite_keep _ _ h0
  | shedResetEnd => exact execShedResetEnd_keep _ h0
  | sleepEntry => exact execSleepEntry_keep h0
  | wake => exact execWake_keep h0
  | porst => exact execPorst_keep h0
  | brownout => exact execBrownout_keep h0
  | wrst => exact execWrst_keep h0
  | perst => exact execPerst_keep h0
  | bootStart => exact execBootStart_keep h0
  | corePllLock => exact execCorePllLock_keep h0
  | fwReady => exact execFwReady_keep _ h0
  | loftWriteDone => exact execLoftWriteDone_keep _ h0
  | refclkSysLost => exact execRefclkSysLost_keep h0
  | refclkSysRelock => exact execRefclkSysRelock_keep h0
  -- the rows that the table lists last
  | portFecUncorr => exact execPortFecUncorr_keep _ _ _ h0
  | l1GeneratedFrame => exact execL1GeneratedFrame_keep _ _ h0
  | twinSlotAckRx => exact execTwinSlotAckRx_keep h0
  | twinContextRequestRx => exact execTwinContextRequestRx_keep h0
  | pcieLinkUp => exact execPcieLinkUp_keep h0
  | pcieLinkDown => exact execPcieLinkDown_keep h0
  | loftBudgetRefill => exact execLoftBudgetRefill_keep h0
  | thermalExcursion => exact execThermalExcursion_keep h0
  | powerOnHours => exact execPowerOnHours_keep h0
  | smbusBlockRead => exact execSmbusBlockRead_keep _ _ h0
  | jtagInstruction => exact execJtagInstruction_keep _ h0
  | factoryTestMode => exact execFactoryTestMode_keep _ h0

/-! ### The queue -/

theorem step_of_pending_nil {s : State} (hq : s.pending = []) : step s = .next s := by
  simp [step, hq]

theorem step_of_pending_cons {s : State} {c : Instr} {r : List Instr} (hq : s.pending = c :: r) :
    step s = exec c { s with pending := r } := by
  simp [step, hq]

/-- A step keeps what the state has once the front command is off the queue. -/
theorem step_keep (s : State) : KeepNext { s with pending := s.pending.tail } (step s) := by
  cases hq : s.pending with
  | nil =>
    rw [step_of_pending_nil hq]
    exact KeepNext.next (Keep.of_parts (Keep.refl _) rfl rfl rfl hq rfl rfl rfl rfl)
  | cons c r =>
    rw [step_of_pending_cons hq]
    exact exec_keep c (Keep.refl _)

/-- The canonical form is one of the tables alone: it does not speak of the queue. -/
@[simp] theorem State.wf_pending (s : State) (q : List Instr) : ({ s with pending := q } : State).wf = s.wf := rfl

/-- Settles O56: a step takes the front command off the queue, of which the canonical form does not speak, and runs it, which keeps the
form. -/
theorem stepsKeepSound : Obligations.StepsKeepSound := by
  unfold Obligations.StepsKeepSound
  intro s t hwf hstep
  have hkeep : Keep { s with pending := s.pending.tail } t := (step_keep s).keep hstep
  exact hkeep.wf (by rwa [State.wf_pending])

end Sys2Proof.Machine

/-!
SUPPORT. Frame mode (spec/05): a Gate that assigns a frame of no octets to a channel, and what admission makes of it.
-/

namespace Sys2Proof.Machine

/-! ### Running a command on a given state -/

/-- Does the command complete in a state that passes a test? -/
def completesWith (o : Host.Outcome State Fault Refusal) (p : State → Bool) : Bool :=
  match o with
  | .next t => p t
  | .fault _ => false
  | .refused _ => false

theorem completes_of_completesWith {o : Host.Outcome State Fault Refusal} {P : State → Prop} [DecidablePred P]
    (h : completesWith o (fun t => decide (P t)) = true) : Completes o P := by
  cases o with
  | next t => exact ⟨t, rfl, of_decide_eq_true h⟩
  | fault r => exact absurd h Bool.false_ne_true
  | refused r => exact absurd h Bool.false_ne_true

/-! ### A frame of no octets -/

/-- A frame of no octets from plain-side port 0. -/
def emptyFrame : GateFrame := { port := 0, bytes := [] }

/-- Channel 0 is OPEN in frame mode with a key in force and may hold no buffer unit (BUF_MIN and BUF_MAX are 0); the program of Gate 0
assigns every frame to it (SETCH 0), and the frame of no octets waits there. -/
def emptyFrameState : State :=
  let s := (State.reset.wr64 PWR_SHED_STAT_LO 0xAAAAAAAAAAAAAAAA).setF (PORT_STAT_STATE 32) 3
  let s := ((s.setF (CH_CFG_MODE 0) 0).setF (CH_CFG_STATE 0) 1).setF (CH_CFG_OUT_EN 0) 1
  let s := s.setF (CH_BIND_INGRESS_MASK 0) 1
  let s := (s.setF (CH_STAT_LEASE 0) 1).setF (KB_ROLES_CUR_V 0 0) 1
  let s := s.setSlot (slotOf 0 0) { Slot.reset with kind := 1 }
  let s := (s.setF (GATE_CFG_EN 0) 1).setF (GATE_BANK_VALID0 0) 1
  { s with gateProg := [(0, [gateWord 0x18 0 0 0 0 0 0])], gateQ := [emptyFrame] }

/-- R131: admission takes a frame of no octets for one that is its FCS alone. That needs a buffer unit, and channel 0 may hold none: the
frame is refused with NO_BUFFER (code 0x14), and no unit waits. -/
theorem gateRun_emptyFrameState :
    Completes (exec (.gateRun 0) emptyFrameState) fun t => t.units = [] ∧ t.rd64 (CH_REFUSE 0 8) = 1 :=
  completes_of_completesWith (by decide +kernel)

/-- Refutes O43: a frame of no octets that its Gate assigns to a channel without buffer. The clause of an admitted frame asks whether
the channel has room for `(0 + 255) / 256 = 0` buffer units; admission counts the octets before the FCS and then the FCS, and asks for
`(0 - 4 + 4 + 255) / 256 = 1`. So the clause's conditions hold in `emptyFrameState`, and the frame is refused there. The clause does not
ask for R91's 64 octets; from one octet on the two counts agree. -/
theorem not_frameResults : ¬ Obligations.FrameResults := by
  unfold Obligations.FrameResults
  intro h
  obtain ⟨-, -, -, hclause, -⟩ := h emptyFrameState 0 [] 0 0 emptyFrame 0 0 0 0
    (mkUnit emptyFrameState 0 0 0 0 [] []) 0 { port := 0, ch := none, cell := false, bytes := [], slot := 0 } [] (0, 0, [])
  -- The clause's conditions: the frame is the next of an enabled Gate, its program assigns it to channel 0, and that channel admits it.
  have hentered := hclause (by decide +kernel)
  have hassigned := hentered (by decide +kernel)
  obtain ⟨t, ht, -, hunits, -⟩ := hassigned (by decide +kernel)
  obtain ⟨u, hu, hnone, -⟩ := gateRun_emptyFrameState
  obtain rfl : t = u := Host.Outcome.next.inj (ht.symm.trans hu)
  rw [hnone] at hunits
  exact List.append_ne_nil_of_right_ne_nil _ (List.cons_ne_nil _ _) hunits.symm

end Sys2Proof.Machine

/-!
SUPPORT. Register accesses (spec/02 R40 to R46): the word a write makes of the kinds of its fields, where pairs lie, and what a 32-bit or
64-bit access of a listed register answers and changes.
-/

namespace Sys2Proof.Machine

/-! ### The word a write makes (R40) -/

/-- Fields that lie in a word and do not overlap, as a row of the register map lists them. -/
def FieldsApart (l : List RegFld) : Prop :=
  (∀ f ∈ l, f.lo ≤ f.hi ∧ f.hi < 32) ∧ l.Pairwise (fun f g => f.hi < g.lo ∨ g.hi < f.lo)

/-- Writing the fields of a list, each to a value of its own, leaves the bits of no field. -/
theorem fldGet_foldl_fldSet_disj (x : RegFld → Nat) {l : List RegFld} {hi lo : Nat} (hwf : ∀ f ∈ l, f.lo ≤ f.hi ∧ f.hi < 32)
    (hle : lo ≤ hi) (hd : ∀ f ∈ l, hi < f.lo ∨ f.hi < lo) (w : Word) :
    fldGet hi lo (l.foldl (fun w f => fldSet f.hi f.lo (x f) w) w) = fldGet hi lo w := by
  induction l generalizing w with
  | nil => rfl
  | cons f l ih =>
    obtain ⟨⟨hf, h32⟩, hwf⟩ := List.forall_mem_cons.mp hwf
    obtain ⟨hdf, hd⟩ := List.forall_mem_cons.mp hd
    rw [List.foldl_cons, ih hwf hd, fldGet_fldSet_ne _ _ _ _ _ _ hf h32 hle hdf]

/-- A write leaves the bits that belong to no field. -/
theorem fldGet_wordStore_disj {l : List RegFld} {hi lo : Nat} (hl : FieldsApart l) (hle : lo ≤ hi)
    (hd : ∀ f ∈ l, hi < f.lo ∨ f.hi < lo) (old v hm hv : Word) :
    fldGet hi lo (wordStore l old v hm hv) = fldGet hi lo old :=
  fldGet_foldl_fldSet_disj _ hl.1 hle hd old

/-- A write gives each field of the word what its kind stores. -/
theorem fldGet_wordStore {l : List RegFld} {f : RegFld} (hl : FieldsApart l) (hf : f ∈ l) (old v hm hv : Word) :
    fldGet f.hi f.lo (wordStore l old v hm hv) = fldStore f old v hm hv % 2 ^ (f.hi + 1 - f.lo) := by
  obtain ⟨hwf, hdisj⟩ := hl
  obtain ⟨hle, h32⟩ := hwf f hf
  -- The fields before `f` are overwritten by it, those after it leave it.
  obtain ⟨before, after, rfl⟩ := List.append_of_mem hf
  have hafter : ∀ g ∈ after, f.hi < g.lo ∨ g.hi < f.lo :=
    (List.pairwise_cons.mp (List.pairwise_append.mp hdisj).2.1).1
  unfold wordStore
  rw [List.foldl_append, List.foldl_cons,
    fldGet_foldl_fldSet_disj _ (fun g hg => hwf g (by simp [hg])) hle hafter, fldGet_fldSet _ _ _ _ hle h32]

/-- A field of one bit is that bit. -/
theorem fldGet_bit (w : Word) (j : Nat) : fldGet j j w = (w.getLsbD j).toNat := by
  unfold fldGet
  rw [Nat.add_sub_cancel_left, pow_one, ← BitVec.testBit_toNat, Nat.toNat_testBit]

theorem getLsbD_of_fldGet {w : Word} {j : Nat} {b : Bool} (h : fldGet j j w = b.toNat) : w.getLsbD j = b := by
  rw [fldGet_bit] at h
  revert h
  cases w.getLsbD j <;> cases b <;> decide

/-- R40: a bit of kind W1C is cleared where the write holds 1, and then set where hardware sets it in the same cycle. -/
theorem fldStore_w1c_bit (j : Nat) (old v hm hv : Word) :
    fldStore ⟨j, j, .w1c⟩ old v hm hv =
      ((old.getLsbD j && !v.getLsbD j) || (hv.getLsbD j && hm.getLsbD j)).toNat := by
  simp only [fldStore, fldGet_bit]
  cases old.getLsbD j <;> cases v.getLsbD j <;> cases hm.getLsbD j <;> cases hv.getLsbD j <;> rfl

/-- The fields of a word of events: one bit each, `n - 1` to 0, of kind W1C. -/
def w1cBits (n : Nat) : List RegFld := (List.range n).reverse.map (fun j => ⟨j, j, .w1c⟩)

theorem mem_w1cBits {n : Nat} {f : RegFld} : f ∈ w1cBits n ↔ ∃ j < n, f = ⟨j, j, .w1c⟩ := by
  simp [w1cBits, eq_comm]

theorem fieldsApart_w1cBits {n : Nat} (hn : n ≤ 32) : FieldsApart (w1cBits n) := by
  constructor
  · intro f hf
    obtain ⟨j, hj, rfl⟩ := mem_w1cBits.mp hf
    exact ⟨le_rfl, hj.trans_le hn⟩
  · rw [w1cBits, List.pairwise_map, List.pairwise_reverse]
    exact List.pairwise_lt_range.imp .inr

/-- R40: a word of events after a write. -/
theorem wordStore_w1cBits {n : Nat} (hn : n ≤ 32) (old v hm hv : Word) :
    wordStore (w1cBits n) old v hm hv =
      (old &&& ~~~(v &&& BitVec.ofNat 32 (2 ^ n - 1))) ||| (hv &&& hm &&& BitVec.ofNat 32 (2 ^ n - 1)) := by
  have hapart := fieldsApart_w1cBits hn
  apply BitVec.eq_of_getLsbD_eq
  intro j hj
  have hmask : (BitVec.ofNat 32 (2 ^ n - 1)).getLsbD j = decide (j < n) := by
    rw [BitVec.getLsbD_ofNat, Nat.testBit_two_pow_sub_one, decide_eq_true hj, Bool.true_and]
  have hbit : fldGet j j (wordStore (w1cBits n) old v hm hv) =
      (if j < n then (old.getLsbD j && !v.getLsbD j) || (hv.getLsbD j && hm.getLsbD j) else old.getLsbD j).toNat := by
    split
    next hjn =>
      rw [fldGet_wordStore (f := ⟨j, j, .w1c⟩) hapart (mem_w1cBits.mpr ⟨j, hjn, rfl⟩), fldStore_w1c_bit, Nat.add_sub_cancel_left]
      exact Nat.mod_eq_of_lt (Bool.toNat_lt _)
    next hjn =>
      rw [fldGet_wordStore_disj hapart le_rfl, fldGet_bit]
      intro f hf
      obtain ⟨i, hi, rfl⟩ := mem_w1cBits.mp hf
      exact .inr (by dsimp only; omega)
  rw [getLsbD_of_fldGet hbit]
  simp only [BitVec.getLsbD_or, BitVec.getLsbD_and, BitVec.getLsbD_not, hmask, hj]
  by_cases hjn : j < n <;> simp [hjn]

/-! ### Registers of the map -/

/-- The offset of a row's copy lies at the row's base or above, within its outermost stride. -/
theorem RegRow.holds_index {r : RegRow} {o : Nat} (h : r.holds o = true) : r.base ≤ o ∧ (o - r.base) / r.s1 < r.n1 := by
  unfold RegRow.holds at h
  by_cases h1 : r.n1 = 1
  · simp only [h1, if_true, decide_eq_true_eq] at h
    simp [h1, h.1]
  · simp only [h1, if_false] at h
    split at h
    · simp only [Bool.and_eq_true, decide_eq_true_eq] at h
      exact h.1
    · split at h <;> simp only [Bool.and_eq_true, decide_eq_true_eq] at h
      · exact h.1.1
      · exact h.1.1.1

/-- No copy of a row lies beyond its outermost strides. -/
theorem RegRow.holds_lt {r : RegRow} {o : Nat} (h : r.holds o = true) (hs : 0 < r.s1) : o < r.base + r.s1 * r.n1 := by
  obtain ⟨hbase, hidx⟩ := RegRow.holds_index h
  rw [Nat.div_lt_iff_lt_mul hs, Nat.mul_comm] at hidx
  omega

/-- A row of one index holds its base and its strides only. -/
theorem RegRow.holds_stride {r : RegRow} {o : Nat} (h : r.holds o = true) (h2 : r.n2 = 1) : (o - r.base) % r.s1 = 0 := by
  unfold RegRow.holds at h
  by_cases h1 : r.n1 = 1
  · simp only [h1, if_true, decide_eq_true_eq] at h
    simp [h.1]
  · simp only [h1, h2, if_false, if_true, Bool.and_eq_true, decide_eq_true_eq] at h
    exact h.2

/-- May the row hold a register from `lo` up to below `hi`? -/
def RegRow.meets (lo hi : Nat) (r : RegRow) : Bool := decide (r.base < hi) && (decide (r.s1 = 0) || decide (lo < r.base + r.s1 * r.n1))

theorem RegRow.meets_of_holds {r : RegRow} {o lo hi : Nat} (h : r.holds o = true) (hlo : lo ≤ o) (hhi : o < hi) : r.meets lo hi = true := by
  have hbase := (RegRow.holds_index h).1
  simp only [RegRow.meets, Bool.and_eq_true, Bool.or_eq_true, decide_eq_true_eq]
  refine ⟨by omega, or_iff_not_imp_left.mpr fun hs => ?_⟩
  exact hlo.trans_lt (RegRow.holds_lt h (Nat.pos_of_ne_zero hs))

/-- Where a LO word lies (R43): at a multiple of 8 but for PWR_SHED_STAT, in a row of pairs. -/
theorem isPairLo_row {o : Nat} (h : isPairLo o = true) :
    (o % 8 = 0 ∨ o = PWR_SHED_STAT_LO) ∧ ∃ r ∈ regMap, r.base ∈ pairBases ∧ r.holds o = true := by
  unfold isPairLo at h
  split at h
  next r hr =>
    simp only [Bool.and_eq_true, Bool.or_eq_true, decide_eq_true_eq, List.contains_iff_mem] at h
    exact ⟨h.1, r, List.mem_of_find?_eq_some hr, h.2, List.find?_some (p := fun r : RegRow => r.holds o) hr⟩
  next => simp at h

/-- A LO word from `lo` up to below `hi` lies in a row of pairs that meets those offsets. -/
theorem isPairLo_meets {o lo hi : Nat} (h : isPairLo o = true) (hlo : lo ≤ o) (hhi : o < hi) :
    ∃ r ∈ regMap.filter (·.meets lo hi), r.base ∈ pairBases ∧ r.holds o = true := by
  obtain ⟨-, r, hr, hpair, hholds⟩ := isPairLo_row h
  exact ⟨r, List.mem_filter.mpr ⟨hr, RegRow.meets_of_holds hholds hlo hhi⟩, hpair, hholds⟩

/-- No pair lies in Bell's target blocks. -/
theorem isPairLo_not_bellTarget {o : Nat} (h : isPairLo o = true) : ¬(0x2A100000 ≤ o ∧ o < 0x2A200000) := by
  rintro ⟨hlo, hhi⟩
  obtain ⟨r, hr, hpair, -⟩ := isPairLo_meets h hlo hhi
  have hrows : ∀ r ∈ regMap.filter (·.meets 0x2A100000 0x2A200000), r.base ∉ pairBases := by decide +kernel
  exact hrows r hr hpair

/-- No pair lies in the buffers of the host's mailboxes: their pairs stand at 0x2010 and 0x2018 of a mailbox. -/
theorem isPairLo_not_mailboxBuffer {o : Nat} (h : isPairLo o = true) :
    ¬(bar0Key 0 ≤ o ∧ o < bar0Key 0x40000 ∧ o % 4 = 0 ∧ (o - bar0Key 0) % 0x4000 < 0x2000) := by
  rintro ⟨hlo, hhi, -, hbuf⟩
  obtain ⟨r, hr, hpair, hholds⟩ := isPairLo_meets h hlo hhi
  have hrows : ∀ r ∈ regMap.filter (·.meets (bar0Key 0) (bar0Key 0x40000)), r.base ∈ pairBases →
      r.n2 = 1 ∧ r.s1 = 0x4000 ∧ bar0Key 0x2000 ≤ r.base ∧ r.base < bar0Key 0x4000 := by decide +kernel
  obtain ⟨h2, hs, hfrom, hto⟩ := hrows r hr hpair
  have hbase := (RegRow.holds_index hholds).1
  have hmod := RegRow.holds_stride hholds h2
  unfold bar0Key at *
  rw [hs] at hmod
  omega

/-- A HI word stands 4 above its LO word (R43). -/
theorem isPairHi_lo {o : Nat} (h : isPairHi o = true) : 4 ≤ o ∧ isPairLo (o - 4) = true := by
  simpa [isPairHi] using h

/-- A HI word is no LO word. -/
theorem isPairLo_of_isPairHi {o : Nat} (h : isPairHi o = true) : isPairLo o = false := by
  obtain ⟨h4, hlo⟩ := isPairHi_lo h
  rw [Bool.eq_false_iff]
  intro ho
  -- Only the pair of PWR_SHED_STAT lies beside the multiples of 8, and no pair stands next to it.
  have hprev : isPairLo (PWR_SHED_STAT_LO - 4) = false := by decide +kernel
  have hnext : isPairLo (PWR_SHED_STAT_LO + 4) = false := by decide +kernel
  rcases (isPairLo_row hlo).1 with h8 | hs <;> rcases (isPairLo_row ho).1 with h8' | hs'
  · omega
  · rw [hs', hprev] at hlo
    exact Bool.false_ne_true hlo
  · rw [show o = PWR_SHED_STAT_LO + 4 by omega, hnext] at ho
    exact Bool.false_ne_true ho
  · unfold PWR_SHED_STAT_LO at hs hs'
    omega

/-! ### Subsystems by offset (R34) -/

theorem inStall_eq_false {o : Nat} (h : o / 0x1000000 ≠ 0x22) : inStall o = false := by
  simp only [inStall, Bool.and_eq_false_iff, decide_eq_false_iff_not]
  omega

theorem inDeposit_eq_false {o : Nat} (h : o / 0x1000000 ≠ 0x24) : inDeposit o = false := by
  simp only [inDeposit, Bool.and_eq_false_iff, decide_eq_false_iff_not]
  omega

theorem isReg_of_region {o : Nat} (h : 0x20 ≤ o / 0x1000000 ∧ o / 0x1000000 < 0x30) : isReg o = true := by
  simp only [isReg, Bool.or_eq_true, Bool.and_eq_true, decide_eq_true_eq]
  omega

/-! ### Reads (R43, R46) -/

/-- Reads with an effect of their own: TGT_TAKE (R477), and a core's DBG_RDATA and TRACE_LO (R449, R453). -/
def readActs (o : Nat) : Prop :=
  (0x2A100000 ≤ o ∧ o < 0x2A200000 ∧ o % 0x1000 = 4) ∨ (0x28001000 ≤ o ∧ o < 0x28001800 ∧ (o % 64 = 0x20 ∨ o % 64 = 0x28))

/-- A LO word outside the cores is none of them. -/
theorem not_readActs_of_isPairLo {o : Nat} (hlo : isPairLo o = true) (hdray : o / 2 ^ 24 ≠ 0x28) : ¬readActs o := by
  have h8 := (isPairLo_row hlo).1
  have hbell := isPairLo_not_bellTarget hlo
  unfold readActs
  omega

/-- A HI word is none of them. -/
theorem not_readActs_of_isPairHi {o : Nat} (hhi : isPairHi o = true) : ¬readActs o := by
  obtain ⟨h4, hlo⟩ := isPairHi_lo hhi
  have h8 := (isPairLo_row hlo).1
  have hbell := isPairLo_not_bellTarget hlo
  unfold PWR_SHED_STAT_LO at h8
  unfold readActs
  omega

/-- The state in which a requester's latch holds the HI word of a pair, or nothing (R43). -/
def latchHi (r : Requester) (x : Option (Nat × Word)) (s : State) : State :=
  { s with hiLatch := tblSet none (requesterCode r) x s.hiLatch }

theorem tblGet_latchHi (r : Requester) (x : Option (Nat × Word)) (s : State) :
    tblGet none (requesterCode r) (latchHi r x s).hiLatch = x :=
  tblGet_tblSet_same _ _ _ _

/-- R43: a 32-bit read of a LO word answers it and latches the HI word. -/
theorem csrLoad32_lo {r : Requester} {o : Nat} {s : State} (hl : csrListed o = true) (hacts : ¬readActs o) (hlo : isPairLo o = true)
    (hr : hasLatch r = true) : csrLoad32 r o s = (latchHi r (some (o, csrView s (o + 4))) s).reply r .ok ((csrView s o).zeroExtend 64) := by
  unfold readActs at hacts
  unfold csrLoad32
  rw [if_neg (by simp [hl]), if_neg (by omega), dif_neg (by omega), if_pos hlo]
  simp only [hr, if_true]
  rfl

/-- R43: a 32-bit read of the HI word of the pair latched answers the latch. -/
theorem csrLoad32_hi {r : Requester} {o : Nat} {s : State} {hi : Word} (hl : csrListed o = true) (hacts : ¬readActs o)
    (hhi : isPairHi o = true) (hlatch : tblGet none (requesterCode r) s.hiLatch = some (o - 4, hi)) (hr : hasLatch r = true) :
    csrLoad32 r o s = s.reply r .ok (hi.zeroExtend 64) := by
  have h4 : o - 4 + 4 = o := Nat.sub_add_cancel (isPairHi_lo hhi).1
  unfold readActs at hacts
  unfold csrLoad32
  rw [if_neg (by simp [hl]), if_neg (by omega), dif_neg (by omega), if_neg (by simp [isPairLo_of_isPairHi hhi])]
  simp [hr, hlatch, hhi, h4]

/-- R46: a 32-bit read of a word of no pair answers it and changes nothing, whatever is latched. -/
theorem csrLoad32_plain {r : Requester} {o : Nat} {s : State} (hl : csrListed o = true) (hacts : ¬readActs o)
    (hlo : isPairLo o = false) (hhi : isPairHi o = false) : csrLoad32 r o s = s.reply r .ok ((csrView s o).zeroExtend 64) := by
  unfold readActs at hacts
  unfold csrLoad32
  rw [if_neg (by simp [hl]), if_neg (by omega), dif_neg (by omega), if_neg (by simp [hlo])]
  dsimp only
  congr 2
  split
  · simp [hhi]
  · rfl

/-- R43: a 64-bit read of a pair outside the cores answers both words and uses no latch. -/
theorem csrLoad64_pair {r : Requester} {o : Nat} {s : State} (h8 : o % 8 = 0) (hl : csrListed o = true) (hlo : isPairLo o = true)
    (hdray : ¬(0x28001000 ≤ o ∧ o < 0x28001800)) :
    csrLoad64 r o s = s.reply r .ok (csrView s (o + 4) ++ csrView s o) := by
  unfold csrLoad64
  rw [if_neg (by simp [h8, hl, hlo])]
  simp only [if_neg hdray]

/-! ### Writes (R40, R43, R45) -/

/-- The words whose write no rule keeps for one requester or one mode (R35, R47, R335, R347, R446, R501, R521). -/
def openWord (o : Nat) : Bool :=
  !debugOnly o && decide (o ≠ YM_CTL 0) && decide (o ≠ YM_CTL 1) && !injReg o && !switchReg o && !inDeposit o && !leaderOnly o

theorem csrRefuse_openWord {o : Nat} (hl : csrListed o = true) (h : openWord o = true) (r : Requester) (s : State) :
    csrRefuse r o s = none := by
  simp only [openWord, Bool.and_eq_true, Bool.not_eq_true', decide_eq_true_eq] at h
  obtain ⟨⟨⟨⟨⟨⟨hdbg, hym0⟩, hym1⟩, hinj⟩, hsw⟩, hdep⟩, hlead⟩ := h
  simp [csrRefuse, hl, hdbg, hym0, hym1, hinj, hsw, hdep, hlead]

/-- The state in which a requester's staging buffer holds a LO word, or nothing (R43). -/
def stageLo (r : Requester) (x : Option (Nat × Word)) (s : State) : State :=
  { s with loStage := tblSet none (requesterCode r) x s.loStage }

theorem tblGet_stageLo (r : Requester) (x : Option (Nat × Word)) (s : State) :
    tblGet none (requesterCode r) (stageLo r x s).loStage = x :=
  tblGet_tblSet_same _ _ _ _

/-- R43: a 32-bit write of a LO word is staged. -/
theorem csrStore32_lo {r : Requester} {o : Nat} {s : State} (hfree : csrRefuse r o s = none) (hlo : isPairLo o = true)
    (hr : hasLatch r = true) (v hm hv : Word) (ok : Bool) :
    csrStore32 r o v hm hv ok s = (stageLo r (some (o, v)) s).reply r .ok 0 := by
  unfold csrStore32
  rw [if_neg (isPairLo_not_mailboxBuffer hlo), hfree]
  simp only [hlo, hr, if_true]
  rfl

/-- R43, R45: a 32-bit write of the HI word of the pair staged commits the pair. -/
theorem csrStore32_hi {r : Requester} {o : Nat} {s : State} {lo : Word} (hbar : o < bar0Key 0) (hfree : csrRefuse r o s = none)
    (hhi : isPairHi o = true) (hstage : tblGet none (requesterCode r) s.loStage = some (o - 4, lo)) (hr : hasLatch r = true)
    (v hm hv : Word) (ok : Bool) :
    csrStore32 r o v hm hv ok s = csrCommit64 r (o - 4) (v ++ lo) (hm ++ 0#32) (0#32 ++ hv) ok (stageLo r none s) := by
  have h4 : o - 4 + 4 = o := Nat.sub_add_cancel (isPairHi_lo hhi).1
  unfold csrStore32
  rw [if_neg (by omega), hfree]
  simp only [isPairLo_of_isPairHi hhi, hhi, hr, hstage, h4, if_true, Bool.false_eq_true, if_false]
  rfl

/-- A 32-bit write of a word of no pair takes effect at once. -/
theorem csrStore32_plain {r : Requester} {o : Nat} {s : State} (hbar : o < bar0Key 0) (hfree : csrRefuse r o s = none)
    (hlo : isPairLo o = false) (hhi : isPairHi o = false) (v hm hv : Word) (ok : Bool) :
    csrStore32 r o v hm hv ok s = csrEffect r o v hm hv ok s := by
  unfold csrStore32
  rw [if_neg (by omega), hfree]
  simp [hlo, hhi]

/-- R43: a 64-bit write commits the pair and uses no stage. -/
theorem csrStore64_pair {r : Requester} {o : Nat} {s : State} (h8 : o % 8 = 0) (hlo : isPairLo o = true)
    (hfree : csrRefuse r o s = none) (v hm hv : DWord) (ok : Bool) :
    csrStore64 r o v hm hv ok s = csrCommit64 r o v hm hv ok s := by
  unfold csrStore64
  rw [if_neg (by simp [h8, hlo]), hfree]

/-- A write without side effect of a word outside the Stalls stores what the kinds of its row give (R40). -/
theorem plainWrite_row {o : Nat} {s : State} {row : RegRow} (hrow : regRow o = some row) (hstall : inStall o = false) {hm : Word}
    (hpers : persHit row.flds hm = false) (v hv : Word) :
    plainWrite o v hm hv s = s.wr o (wordStore row.flds (s.rd o) v hm hv) := by
  have hat : regAt s o = some row := by simp [regAt, hstall, hrow]
  simp [plainWrite, hat, hpers]

/-- A write to a register of the position unit other than POS_CFG has no side effect. -/
theorem csrEffect_position {r : Requester} {o : Nat} {s : State} (hreg : o / 0x1000000 = 0x20) (hcfg : o ≠ POS_CFG)
    (v hm hv : Word) (ok : Bool) :
    csrEffect r o v hm hv ok s = (plainWrite o v hm hv s).reply r .ok 0 := by
  have hbar : ¬bar0Key 0 ≤ o := by unfold bar0Key; omega
  have hpos : o < 0x21000000 := by omega
  simp only [csrEffect, if_neg hbar, hreg, portRegWrite, if_pos hpos, if_neg hcfg]

/-- A word is shown as it is held: no field of its row is write-only, and its subsystem, the position unit or Tally, mirrors nothing. -/
theorem csrView_held {o : Nat} {row : RegRow} (hrow : regRow o = some row) (hwo : woMask row.flds = 0)
    (hreg : o / 0x1000000 = 0x20 ∨ o / 0x1000000 = 0x2B) (s : State) : csrView s o = s.rd o := by
  have hat : regAt s o = some row := by simp [regAt, inStall_eq_false (o := o) (by omega), hrow]
  unfold csrView
  rw [hat]
  dsimp only
  rw [hwo, if_neg (by omega), if_neg (by unfold TW_STAT; omega), if_neg (by omega), if_neg (by omega),
    if_neg (by unfold FAB_SERIAL_LO; omega), if_neg (by unfold FAB_SERIAL_HI; omega), if_neg (by omega), if_neg (by omega),
    if_neg (by unfold bar0Key; omega), show ~~~(0 : Word) = BitVec.allOnes 32 from rfl, BitVec.and_allOnes]

/-! ### The counts of Tally (R45, R491) -/

/-- A word is in the row of a base when the row holds it and no row before that one does. -/
theorem regRow_of_base {o c : Nat} {row : RegRow} (hrow : regMap.find? (fun r => decide (r.base = c)) = some row)
    (hholds : row.holds o = true) (hbefore : ∀ r ∈ regMap.takeWhile (fun r => !decide (r.base = c)), r.holds o = false) :
    regRow o = some row := by
  unfold regRow
  generalize regMap = l at hrow hbefore ⊢
  induction l with
  | nil => cases hrow
  | cons x l ih =>
    by_cases hx : x.base = c
    · obtain rfl : x = row := by simpa [hx] using hrow
      exact List.find?_cons_of_pos hholds
    · simp only [hx, decide_false, Bool.not_false, List.takeWhile_cons_of_pos, List.forall_mem_cons] at hbefore
      rw [List.find?_cons_of_neg (by simp [hbefore.1])]
      rw [List.find?_cons_of_neg (by simp [hx])] at hrow
      exact ih hrow hbefore.2

/-- The row at `c` of the channels of Tally holds the word of each of them, where no row before it that reaches the channels stands in
the same place of a channel. -/
theorem regRow_tally {c : Nat} {row : RegRow} (n : Fin 120) (hrow : regMap.find? (fun r => decide (r.base = c)) = some row)
    (hc : 0x2B001000 ≤ c ∧ c < 0x2B001080) (hkind : row.base = c ∧ row.n1 = 128 ∧ row.s1 = 0x80 ∧ row.n2 = 1)
    (hbefore : ∀ r ∈ regMap.takeWhile (fun r => !decide (r.base = c)), (0 < r.s1 ∧ r.base + r.s1 * r.n1 ≤ 0x2B001000) ∨
      (r.n2 = 1 ∧ r.s1 = 0x80 ∧ r.base % 0x80 ≠ c % 0x80) ∨ (r.n2 = 1 ∧ r.s1 = 0x1000000 ∧ r.base % 0x1000000 < 0x1000)) :
    regRow (c + n.val * 0x80) = some row := by
  have hn := n.isLt
  refine regRow_of_base hrow ?_ fun r hr => ?_
  · obtain ⟨hb, h1, hs, h2⟩ := hkind
    have hq : c + n.val * 0x80 - c = n.val * 0x80 := Nat.add_sub_cancel_left ..
    simp [RegRow.holds, hb, h1, hs, h2, hq, hn.trans (show 120 < 128 by decide)]
  · rw [Bool.eq_false_iff]
    intro hholds
    have hbase := (RegRow.holds_index hholds).1
    rcases hbefore r hr with ⟨hs, hend⟩ | ⟨h2, hs, hne⟩ | ⟨h2, hs, hlow⟩
    · have hlt := RegRow.holds_lt hholds hs
      omega
    · have hmod := RegRow.holds_stride hholds h2
      rw [hs] at hmod
      omega
    · have hmod := RegRow.holds_stride hholds h2
      rw [hs] at hmod
      omega

/-- The rows of the counts: fields of kind CNT, as wide as the word. -/
def tcntRow (name : String) (c : Nat) : RegRow := ⟨name, c, 128, 0x80, 1, 1, 1, 1, 0, [⟨31, 0, .cnt⟩]⟩

theorem regRow_tcntLo (n : Fin 120) : regRow (TCNT_LO n.val) = some (tcntRow "TCNT_LO" 0x2B001008) :=
  regRow_tally n (by decide +kernel) (by decide) (by decide) (by decide +kernel)

theorem regRow_tcntHi (n : Fin 120) : regRow (TCNT_HI n.val) = some (tcntRow "TCNT_HI" 0x2B00100C) :=
  regRow_tally n (by decide +kernel) (by decide) (by decide) (by decide +kernel)

/-- A word of a channel of Tally that a row holds is listed. -/
theorem csrListed_tally {o : Nat} {row : RegRow} (h4 : o % 4 = 0) (hreg : o / 0x1000000 = 0x2B) (hrow : regRow o = some row) :
    csrListed o = true := by
  have hstall : inStall o = false := inStall_eq_false (by omega)
  have hdeposit : inDeposit o = false := inDeposit_eq_false (by omega)
  have hspace : 0x20000000 ≤ o ∧ o < 0x30000000 := by omega
  simp only [csrListed, h4, hstall, hdeposit, hrow]
  rw [if_neg (by decide), if_neg (by simp; omega), if_neg (by simp; omega)]
  simp [hspace]

theorem tcntHi_eq (n : Nat) : TCNT_HI n = TCNT_LO n + 4 := by unfold TCNT_HI TCNT_LO; omega

theorem csrListed_tcnt (n : Fin 120) : csrListed (TCNT_LO n.val) = true ∧ csrListed (TCNT_HI n.val) = true := by
  have hn := n.isLt
  exact ⟨csrListed_tally (by unfold TCNT_LO; omega) (by unfold TCNT_LO; omega) (regRow_tcntLo n),
    csrListed_tally (by unfold TCNT_HI; omega) (by unfold TCNT_HI; omega) (regRow_tcntHi n)⟩

theorem openWord_tcnt : ∀ n : Fin 120, openWord (TCNT_LO n.val) = true ∧ openWord (TCNT_HI n.val) = true := by decide +kernel

theorem isPairLo_tcntLo (n : Fin 120) : isPairLo (TCNT_LO n.val) = true := by
  have h8 : TCNT_LO n.val % 8 = 0 := by unfold TCNT_LO; omega
  have hpair : 0x2B001008 ∈ pairBases := by decide
  simp [isPairLo, regRow_tcntLo, h8, tcntRow, hpair]

theorem isPairHi_tcntHi (n : Fin 120) : isPairHi (TCNT_HI n.val) = true := by
  simp [isPairHi, tcntHi_eq, isPairLo_tcntLo]

/-- A count is shown as it is held. -/
theorem csrView_tcnt (n : Fin 120) (s : State) :
    csrView s (TCNT_LO n.val + 4) ++ csrView s (TCNT_LO n.val) = s.rd64 (TCNT_LO n.val) := by
  have hn := n.isLt
  have hhi := regRow_tcntHi n
  rw [tcntHi_eq] at hhi
  rw [csrView_held (regRow_tcntLo n) (by decide) (by unfold TCNT_LO; omega), csrView_held hhi (by decide) (by unfold TCNT_LO; omega)]
  rfl

/-- A commit of the pair of a count is a write of the count. -/
theorem csrCommit64_tcnt (r : Requester) (n : Fin 120) (v hm hv : DWord) (ok : Bool) (s : State) :
    csrCommit64 r (TCNT_LO n.val) v hm hv ok s = tallyCountWriteAccess r (n.castLE (by decide)) v (hv.truncate 32) s := by
  have hn := n.isLt
  have hi : (TCNT_LO n.val - 0x2B001000) / 0x80 = n.val := by unfold TCNT_LO; omega
  have hat : 0x2B001000 ≤ TCNT_LO n.val ∧ (TCNT_LO n.val - 0x2B001000) / 0x80 < 128 ∧ TCNT_LO n.val % 0x80 = 8 := by
    unfold TCNT_LO; omega
  unfold csrCommit64
  rw [dif_pos hat]
  congr 1
  exact Fin.ext hi

/-- R45, R491: a count that is not a copy of the beat number takes the value written and the increment of its cycle as one field. -/
theorem tallyCountWriteAccess_count (r : Requester) (n : Fin 120) (v : DWord) (inc : Word) {s : State} (hsrc : s.getF (TCFG_SRC n.val) ≠ 3) :
    tallyCountWriteAccess r (n.castLE (by decide)) v inc s = (s.wr64 (TCNT_LO n.val) (v + inc.zeroExtend 64)).reply r .ok 0 := by
  have hmay : tallyMayWrite r n.val s = true := by simp [tallyMayWrite]
  have hsum : BitVec.ofNat 64 (v.toNat + inc.toNat) = v + inc.zeroExtend 64 := by
    apply BitVec.eq_of_toNat_eq
    simp
  simp only [tallyCountWriteAccess, Fin.val_castLE, hmay, if_true, writeCount, if_neg hsrc, setTallyCount, hsum]

/-- What a write of a count changes: its pair, and the answer. -/
theorem regsBut_wr64_tcnt (s : State) (n : Nat) (v : DWord) (r : Requester) (st : BusStatus) (d : DWord) :
    RegsBut [TCNT_LO n, TCNT_HI n] s ((s.wr64 (TCNT_LO n) v).reply r st d) := by
  intro o ho
  rw [List.mem_cons, List.mem_singleton, not_or, tcntHi_eq] at ho
  rw [State.rd_reply, State.rd_wr64_ne s _ _ v (Ne.symm ho.1) (Ne.symm ho.2)]

/-! ### The commands on registers -/

section
variable {r : Requester} {a : Nat} {s : State}

theorem exec_csrWrite_reg (hready : reqReady r s = true) (hreg : isReg (reqOff r a s) = true) (v hm hv : Word) (ok : Bool) :
    exec (.csrWrite r a v hm hv ok) s = .next (csrStore32 r (reqOff r a s) v hm hv ok s) := by
  simp [exec_csrWrite, execCsrWrite, hready, store32, hreg]

theorem exec_pairLoRead_reg (hready : reqReady r s = true) (hreg : isReg (reqOff r a s) = true) :
    exec (.pairLoRead r a) s = .next (csrLoad32 r (reqOff r a s) s) := by
  simp [exec_pairLoRead, execPairLoRead, hready, load32, hreg]

theorem exec_pairLoWrite_reg (hready : reqReady r s = true) (hreg : isReg (reqOff r a s) = true) (hlo : isPairLo (reqOff r a s) = true)
    (v : Word) : exec (.pairLoWrite r a v) s = .next (csrStore32 r (reqOff r a s) v 0 0 true s) := by
  simp [exec_pairLoWrite, execPairLoWrite, hready, hreg, hlo]

theorem exec_pairHiWrite_reg (hready : reqReady r s = true) (hreg : isReg (reqOff r a s) = true) (hhi : isPairHi (reqOff r a s) = true)
    (v hm hv : Word) : exec (.pairHiWrite r a v hm hv) s = .next (csrStore32 r (reqOff r a s) v hm hv true s) := by
  simp [exec_pairHiWrite, execPairHiWrite, hready, hreg, hhi]

theorem exec_pairAccess64_read (hready : reqReady r s = true) (hreg : isReg (reqOff r a s) = true) (hm hv : DWord) :
    exec (.pairAccess64 r a none hm hv) s = .next (csrLoad64 r (reqOff r a s) s) := by
  simp [exec_pairAccess64, execPairAccess64, hready, hreg]

theorem exec_pairAccess64_write (hready : reqReady r s = true) (hreg : isReg (reqOff r a s) = true) (v hm hv : DWord) :
    exec (.pairAccess64 r a (some v) hm hv) s = .next (csrStore64 r (reqOff r a s) v hm hv true s) := by
  simp [exec_pairAccess64, execPairAccess64, hready, hreg]

theorem exec_debugPeek_reg (hreg : isReg a = true) : exec (.debugPeek a) s = .next (csrLoad32 .debug a s) := by
  simp [exec_debugPeek, execDebugPeek, load32, hreg]

/-! ### Words of the position unit -/

theorem regRow_posHoMax : (regRow POS_HO_MAX).map (·.flds) = some [⟨19, 0, .rw⟩] := by decide +kernel

theorem regRow_posEvt : (regRow POS_EVT).map (·.flds) = some (w1cBits 9) := by decide +kernel

/-- A word of the position unit without write-only fields is shown as it is held. -/
theorem csrView_position {o : Nat} {flds : List RegFld} (hrow : (regRow o).map (·.flds) = some flds) (hreg : o / 0x1000000 = 0x20)
    (hwo : woMask flds = 0) : csrView s o = s.rd o := by
  obtain ⟨row, hat, rfl⟩ := Option.map_eq_some_iff.mp hrow
  exact csrView_held hat hwo (.inl hreg) s

theorem csrView_posNowLo : csrView s POS_NOW_LO = s.rd POS_NOW_LO :=
  csrView_position (flds := [⟨31, 16, .live⟩, ⟨15, 0, .live⟩]) (by decide +kernel) rfl rfl

theorem csrView_posNowHi : csrView s POS_NOW_HI = s.rd POS_NOW_HI :=
  csrView_position (flds := [⟨31, 0, .live⟩]) (by decide +kernel) rfl rfl

/-- A word that every requester may write, and that is of no pair. -/
structure PlainWord (o : Nat) : Prop where
  listed : csrListed o = true
  unguarded : openWord o = true
  notLo : isPairLo o = false
  notHi : isPairHi o = false

theorem plainWord_posHoMax : PlainWord POS_HO_MAX := ⟨by decide +kernel, by decide +kernel, by decide +kernel, by decide +kernel⟩

theorem plainWord_posEvt : PlainWord POS_EVT := ⟨by decide +kernel, by decide +kernel, by decide +kernel, by decide +kernel⟩

/-- R40: a write of such a word of the position unit, POS_CFG aside, stores what the kinds of its fields give. -/
theorem exec_csrWrite_position {o : Nat} {flds : List RegFld} (hready : reqReady r s = true) (ho : reqOff r a s = o) (hword : PlainWord o)
    (hrow : (regRow o).map (·.flds) = some flds) (hreg : o / 0x1000000 = 0x20) (hcfg : o ≠ POS_CFG) (v hm hv : Word) (ok : Bool)
    (hpers : persHit flds hm = false) :
    exec (.csrWrite r a v hm hv ok) s = .next ((s.wr o (wordStore flds (s.rd o) v hm hv)).reply r .ok 0) := by
  subst ho
  obtain ⟨row, hrowAt, rfl⟩ := Option.map_eq_some_iff.mp hrow
  have hisReg : isReg (reqOff r a s) = true := isReg_of_region (by omega)
  have hbar : reqOff r a s < bar0Key 0 := by unfold bar0Key; omega
  have hstall : inStall (reqOff r a s) = false := inStall_eq_false (by omega)
  rw [exec_csrWrite_reg hready hisReg, csrStore32_plain hbar (csrRefuse_openWord hword.listed hword.unguarded r s) hword.notLo hword.notHi,
    csrEffect_position hreg hcfg, plainWrite_row hrowAt hstall hpers]

theorem regsBut_wr (o : Nat) (v : Word) (st : BusStatus) (d : DWord) : RegsBut [o] s ((s.wr o v).reply r st d) := by
  intro p hp
  rw [List.mem_singleton] at hp
  rw [State.rd_reply, State.rd_wr_ne s o p v (Ne.symm hp)]

theorem wr_reply_frame (o : Nat) (v : Word) (st : BusStatus) (d : DWord) :
    (s.wr o v).reply r st d = { s with csr := ((s.wr o v).reply r st d).csr, answer := ((s.wr o v).reply r st d).answer } := (rfl)

/-! ### The counts -/

theorem wr64_reply_frame (o : Nat) (v : DWord) (st : BusStatus) (d : DWord) :
    (s.wr64 o v).reply r st d = { s with csr := ((s.wr64 o v).reply r st d).csr, answer := ((s.wr64 o v).reply r st d).answer } := (rfl)

theorem staged_wr64_reply_frame (x : Option (Nat × Word)) (o : Nat) (v : DWord) (st : BusStatus) (d : DWord) :
    ((stageLo r x s).wr64 o v).reply r st d = { s with
      csr := (((stageLo r x s).wr64 o v).reply r st d).csr
      loStage := (((stageLo r x s).wr64 o v).reply r st d).loStage
      answer := (((stageLo r x s).wr64 o v).reply r st d).answer } := (rfl)

theorem rd64_wr64_reply (o : Nat) (v : DWord) (st : BusStatus) (d : DWord) : ((s.wr64 o v).reply r st d).rd64 o = v :=
  State.rd64_wr64_same s o v

/-- R43, R45: the HI word of a count commits the pair, and the increment of the cycle with it. -/
theorem exec_pairHiWrite_tcnt {n : Fin 120} {lo : Word} (hready : reqReady r s = true) (ho : reqOff r a s = TCNT_HI n.val)
    (hstage : tblGet none (requesterCode r) s.loStage = some (TCNT_LO n.val, lo)) (hr : hasLatch r = true)
    (hsrc : s.getF (TCFG_SRC n.val) ≠ 3) (v hm hv : Word) :
    exec (.pairHiWrite r a v hm hv) s =
      .next (((stageLo r none s).wr64 (TCNT_LO n.val) (v ++ lo + hv.zeroExtend 64)).reply r .ok 0) := by
  have hn := n.isLt
  have hisReg : isReg (TCNT_HI n.val) = true := isReg_of_region (by unfold TCNT_HI; omega)
  have hbar : TCNT_HI n.val < bar0Key 0 := by unfold TCNT_HI bar0Key; omega
  have hlo : TCNT_HI n.val - 4 = TCNT_LO n.val := by rw [tcntHi_eq, Nat.add_sub_cancel]
  have hinc : ((0#32 ++ hv : DWord).truncate 32 : Word) = hv := BitVec.setWidth_append_eq_right
  have hfree := csrRefuse_openWord (csrListed_tcnt n).2 (openWord_tcnt n).2 r s
  rw [exec_pairHiWrite_reg hready (by rw [ho, hisReg]) (by rw [ho, isPairHi_tcntHi]), ho,
    csrStore32_hi hbar hfree (isPairHi_tcntHi n) (by rw [hlo, hstage]) hr, hlo, csrCommit64_tcnt, hinc,
    tallyCountWriteAccess_count r n _ hv (s := stageLo r none s) hsrc]

/-- R43, R45: a 64-bit write commits the pair of a count. -/
theorem exec_pairAccess64_tcnt {n : Fin 120} (hready : reqReady r s = true) (ho : reqOff r a s = TCNT_LO n.val)
    (hsrc : s.getF (TCFG_SRC n.val) ≠ 3) (x y : DWord) (hv : Word) :
    exec (.pairAccess64 r a (some x) y (hv.zeroExtend 64)) s =
      .next ((s.wr64 (TCNT_LO n.val) (x + hv.zeroExtend 64)).reply r .ok 0) := by
  have hn := n.isLt
  have hisReg : isReg (TCNT_LO n.val) = true := isReg_of_region (by unfold TCNT_LO; omega)
  have h8 : TCNT_LO n.val % 8 = 0 := by unfold TCNT_LO; omega
  have hinc : ((hv.zeroExtend 64).truncate 32 : Word) = hv := by
    apply BitVec.eq_of_toNat_eq
    simp
  have hfree := csrRefuse_openWord (csrListed_tcnt n).1 (openWord_tcnt n).1 r s
  rw [exec_pairAccess64_write hready (by rw [ho, hisReg]), ho, csrStore64_pair h8 (isPairLo_tcntLo n) hfree, csrCommit64_tcnt, hinc,
    tallyCountWriteAccess_count r n x hv hsrc]

/-- R43: a 64-bit read answers the count. -/
theorem exec_pairAccess64_read_tcnt {n : Fin 120} (hready : reqReady r s = true) (ho : reqOff r a s = TCNT_LO n.val) (x y : DWord) :
    exec (.pairAccess64 r a none x y) s = .next (s.reply r .ok (s.rd64 (TCNT_LO n.val))) := by
  have hn := n.isLt
  have hisReg : isReg (TCNT_LO n.val) = true := isReg_of_region (by unfold TCNT_LO; omega)
  have h8 : TCNT_LO n.val % 8 = 0 := by unfold TCNT_LO; omega
  have hdray : ¬(0x28001000 ≤ TCNT_LO n.val ∧ TCNT_LO n.val < 0x28001800) := by unfold TCNT_LO; omega
  rw [exec_pairAccess64_read hready (by rw [ho, hisReg]), ho, csrLoad64_pair h8 (csrListed_tcnt n).1 (isPairLo_tcntLo n) hdray, csrView_tcnt]

end

/-! ### The statement -/

/-- Settles O24: each access is a read or a write of a listed register by the rule of its kind of word, LO, HI or of no pair. -/
theorem registerAccessResults : Obligations.RegisterAccessResults := by
  unfold Obligations.RegisterAccessResults
  intro s r a v hm hv lo x y ok n o answers hready
  refine ⟨fun ho => ?_, fun ho => ?_, fun hreg hl hlo hr hdray => ?_, fun hreg hl hhi hlatch hr => ?_, fun hreg hfree hlo hr => ?_,
    fun ho hstage hr hsrc => ?_, fun ho hsrc => ?_, fun ho => ?_, fun ha => ?_, fun ha => ?_⟩
  · -- Kind RW
    have hapart : FieldsApart [⟨19, 0, .rw⟩] := ⟨by simp, by simp⟩
    refine ⟨_, exec_csrWrite_position hready ho plainWord_posHoMax regRow_posHoMax rfl (by decide) v hm hv ok rfl, ?_, rfl,
      regsBut_wr _ _ _ _, wr_reply_frame _ _ _ _⟩
    rw [← State.getF_fold, State.rd_reply]
    unfold POS_HO_MAX_HO_MAX
    rw [State.rd_wr_same, fldGet_wordStore (f := ⟨19, 0, .rw⟩) hapart List.mem_cons_self]
    simp [fldStore, fldGet]
  · -- Kind W1C
    refine ⟨_, exec_csrWrite_position hready ho plainWord_posEvt regRow_posEvt rfl (by decide) v hm hv ok rfl, ?_, rfl,
      regsBut_wr _ _ _ _, wr_reply_frame _ _ _ _⟩
    rw [State.rd_reply, State.rd_wr_same, wordStore_w1cBits (by decide)]
    rfl
  · -- A LO word read
    refine ⟨_, exec_pairLoRead_reg hready hreg, ?_⟩
    rw [csrLoad32_lo hl (not_readActs_of_isPairLo hlo hdray) hlo hr]
    exact ⟨rfl, tblGet_latchHi r (some (o, csrView s (o + 4))) s, rfl⟩
  · -- A HI word read
    refine ⟨_, exec_pairLoRead_reg hready hreg, ?_⟩
    rw [csrLoad32_hi hl (not_readActs_of_isPairHi hhi) hhi hlatch hr]
    exact ⟨rfl, rfl⟩
  · -- A LO word written
    refine ⟨_, exec_pairLoWrite_reg hready hreg hlo v, ?_⟩
    rw [csrStore32_lo hfree hlo hr]
    exact ⟨rfl, tblGet_stageLo r (some (o, v)) s, rfl⟩
  · -- A HI word written
    exact ⟨_, exec_pairHiWrite_tcnt hready ho hstage hr hsrc v hm hv, rfl, tblGet_stageLo r none s, rd64_wr64_reply _ _ _ _,
      regsBut_wr64_tcnt _ _ _ _ _ _, staged_wr64_reply_frame _ _ _ _ _⟩
  · -- A pair written in one access
    exact ⟨_, exec_pairAccess64_tcnt hready ho hsrc x y hv, rfl, rd64_wr64_reply _ _ _ _,
      regsBut_wr64_tcnt _ _ _ _ _ _, wr64_reply_frame _ _ _ _⟩
  · -- A pair read in one access
    exact ⟨_, exec_pairAccess64_read_tcnt hready ho x y, rfl, rfl⟩
  · -- A peek at a word of no pair
    subst ha
    refine ⟨_, exec_debugPeek_reg rfl, ?_⟩
    rw [csrLoad32_plain plainWord_posEvt.listed (by unfold readActs; decide) plainWord_posEvt.notLo plainWord_posEvt.notHi]
    exact ⟨rfl, rfl⟩
  · -- A peek at a LO word
    subst ha
    refine ⟨_, exec_debugPeek_reg rfl, ?_⟩
    rw [csrLoad32_lo (by decide +kernel) (by unfold readActs; decide) (by decide +kernel) rfl,
      show POS_NOW_LO + 4 = POS_NOW_HI from rfl, csrView_posNowLo, csrView_posNowHi]
    exact ⟨rfl, rfl, tblGet_latchHi .debug (some (POS_NOW_LO, s.rd POS_NOW_HI)) s⟩

end Sys2Proof.Machine

/-!
SUPPORT. What an interrupt and a report leave alone, more closely than Sys2Proof/Laws/Quiet.lean says it: Bell writes its own registers
and no report, and a report that is not FATAL writes the ledger's registers only.
-/

namespace Sys2Proof.Machine

/-! ### Interrupts -/

/-- A register of Bell (R34). -/
abbrev bellOff (o : Nat) : Prop := o / 2 ^ 24 = 0x2A

/-- Bell alone leads from `s` to `t`: no register but Bell's has changed, and no part of the state but Bell's and the outputs. -/
structure BellWork (s t : State) : Prop where
  rd : ∀ o, ¬ bellOff o → t.rd o = s.rd o
  eqv : t = { s with csr := t.csr, bell := t.bell, outs := t.outs }

theorem BellWork.refl (s : State) : BellWork s s := ⟨fun _ _ => rfl, rfl⟩

theorem BellWork.trans {s t u : State} (h : BellWork s t) (g : BellWork t u) : BellWork s u :=
  ⟨fun o x => (g.rd o x).trans (h.rd o x), by rw [g.eqv, h.eqv]⟩

theorem BellWork.ite {s t u : State} {c : Prop} [Decidable c] (h : BellWork s t) (g : BellWork s u) : BellWork s (if c then t else u) := by
  split <;> assumption

theorem BellWork.setF {s t : State} {f : Fld} {v : Nat} (h : BellWork s t) (ho : bellOff f.off) : BellWork s (t.setF f v) :=
  h.trans ⟨fun _ hp => State.rd_setF_ne _ _ _ _ (fun e => hp (e ▸ ho)), rfl⟩

theorem BellWork.emit {s t : State} {x : Output} (h : BellWork s t) : BellWork s (t.emit x) := h.trans ⟨fun _ _ => rfl, rfl⟩

theorem BellWork.bell {s t : State} (h : BellWork s t) (b : Bell) : BellWork s { t with bell := b } := h.trans ⟨fun _ _ => rfl, rfl⟩

theorem BellWork.ledger {s t : State} (h : BellWork s t) : t.ledger = s.ledger := by rw [h.eqv]

theorem bellRefreshTarget_bellWork {t : Nat} (ht : t ≤ 48) (s : State) : BellWork s (bellRefreshTarget t s) := by
  have hreq : ∀ v, BellWork s (s.setF (TGT_STAT_REQ t) v) := fun v =>
    (BellWork.refl s).setF (by simp only [TGT_STAT_REQ, TGT_STAT]; omega)
  have hseen : ∀ v w, BellWork s ((s.setF (TGT_STAT_REQ t) v).setF (TGT_STAT_REQ_SEEN t) w) := fun v w =>
    (hreq v).setF (by simp only [TGT_STAT_REQ_SEEN, TGT_STAT]; omega)
  unfold bellRefreshTarget
  exact .ite (.ite (hseen _ _).emit (hseen _ _)) (hreq _)

theorem bellRefresh_bellWork (s : State) : BellWork s (bellRefresh s) := by
  have hfold : ∀ (l : List Nat) (u : State), (∀ t ∈ l, t ≤ 48) → BellWork s u →
      BellWork s (l.foldl (fun s t => bellRefreshTarget t s) u) := by
    intro l
    induction l with
    | nil => exact fun u _ hu => hu
    | cons a l ih =>
      intro u hl hu
      obtain ⟨ha, hl⟩ := List.forall_mem_cons.mp hl
      exact ih _ hl (hu.trans (bellRefreshTarget_bellWork ha u))
  exact .ite (.refl s) (hfold bellTargets s (by decide) (.refl s))

theorem bellSetPend_bellWork (n : Nat) (v : Bool) (s : State) : BellWork s (bellSetPend n v s) := by
  by_cases hr : bellReserved n = true
  · simp only [bellSetPend, hr, if_true]
    exact .refl s
  · have hn : n < 1023 := by
      by_contra hx
      exact hr (by simp [bellReserved]; omega)
    have hpend : BellWork s (s.setF (bellBit (BELL_PEND 0) n) v.toNat) :=
      (BellWork.refl s).setF (by simp only [bellBit, BELL_PEND]; omega)
    unfold bellSetPend
    rw [if_neg hr]
    exact .ite ((BellWork.refl s).bell _) (hpend.trans (bellRefresh_bellWork _))

theorem bellLevel_bellWork (n : Nat) (s : State) : BellWork s (bellLevel n s) := by
  unfold bellLevel
  exact .ite (.ite (.refl s) (bellSetPend_bellWork _ _ _)) (.refl s)

theorem bellInput_bellWork (n : Nat) (l : Bool) (s : State) : BellWork s (bellInput n l s) := by
  have hin : ∀ b, BellWork s { s with bell := b } := fun b => (BellWork.refl s).bell b
  unfold bellInput
  dsimp only
  split
  · exact (hin _).trans (bellLevel_bellWork _ _)
  · exact (hin _).trans (bellLevel_bellWork _ _)
  · exact .ite ((hin _).trans (bellSetPend_bellWork _ _ _)) (hin _)
  · exact .ite ((hin _).trans (bellSetPend_bellWork _ _ _)) (hin _)
  · exact .ite ((hin _).trans (bellSetPend_bellWork _ _ _)) (hin _)
  · exact hin _

theorem bellPulse_bellWork (n : Nat) (s : State) : BellWork s (bellPulse n s) :=
  ((bellInput_bellWork _ _ _).trans (bellInput_bellWork _ _ _)).trans (bellInput_bellWork _ _ _)

@[simp] theorem bellPulse_ledger (n : Nat) (s : State) : (bellPulse n s).ledger = s.ledger := (bellPulse_bellWork n s).ledger

/-! ### Position events (R82) -/

theorem posEvt_rd (f : Fld) (src : Nat) (s : State) {o : Nat} (hf : f.off ≠ o) (ho : ¬ bellOff o) : (posEvt f src s).rd o = s.rd o := by
  rw [posEvt, (bellPulse_bellWork _ _).rd o ho, State.rd_setF_ne _ _ _ _ hf]

theorem posEvt_getF (f : Fld) (src : Nat) (s : State) {g : Fld} (hf : f.off ≠ g.off) (ho : ¬ bellOff g.off) :
    (posEvt f src s).getF g = s.getF g := by
  unfold State.getF
  rw [posEvt_rd f src s hf ho]

@[simp] theorem posEvt_mem (f : Fld) (src : Nat) (s : State) : (posEvt f src s).mem = s.mem := by simp [posEvt]
@[simp] theorem posEvt_pos (f : Fld) (src : Nat) (s : State) : (posEvt f src s).pos = s.pos := by simp [posEvt]
@[simp] theorem posEvt_chans (f : Fld) (src : Nat) (s : State) : (posEvt f src s).chans = s.chans := by simp [posEvt]
@[simp] theorem posEvt_tack (f : Fld) (src : Nat) (s : State) : (posEvt f src s).tack = s.tack := by simp [posEvt]
@[simp] theorem posEvt_tally (f : Fld) (src : Nat) (s : State) : (posEvt f src s).tally = s.tally := by simp [posEvt]
@[simp] theorem posEvt_cores (f : Fld) (src : Nat) (s : State) : (posEvt f src s).cores = s.cores := by simp [posEvt]
@[simp] theorem posEvt_ledger (f : Fld) (src : Nat) (s : State) : (posEvt f src s).ledger = s.ledger := by simp [posEvt]

/-! ### Reports (R507, R514) -/

theorem queueReport_dropped {q : List Report} {r : Report} (hr : faultClass r.code ≠ 3) :
    (queueReport q r).2 = 0 ∨ (queueReport q r).2 = r.code := by
  unfold queueReport
  rw [if_pos hr]
  by_cases hlen : q.length < 4 <;> simp [hlen]

theorem State.countDrop_rd (s : State) (cls : Nat) {o : Nat} (ho : o / 2 ^ 24 ≠ 0x2F) : (s.countDrop cls).rd o = s.rd o := by
  have hne : ∀ k, k = LEDGER_DROP_N ∨ k = LEDGER_DROP_D ∨ k = LEDGER_DROP_F → k ≠ o := by
    rintro k (rfl | rfl | rfl) rfl <;> exact ho (by decide)
  have hstat : LEDGER_STAT_DROPPED.off ≠ o := by rintro rfl; exact ho (by decide)
  unfold State.countDrop
  split
  · rfl
  · simp only [State.rd_mk, State.rd_fold]
    rw [State.rd_setF_ne _ _ _ _ hstat, State.cntSat, State.rd_setF_ne _ _ _ _ (hne _ ?_)]
    split
    · exact .inl rfl
    · split
      · exact .inr (.inl rfl)
      · exact .inr (.inr rfl)

theorem fstateRaise_rd (s : State) (hits : Nat) {code o : Nat} (hcode : code < 0x1100) (ho : o / 2 ^ 24 ≠ 0x2F) :
    (fstateRaise code hits s).rd o = s.rd o := by
  have hoff : LEDGER_FSTATE code ≠ o := by unfold LEDGER_FSTATE; omega
  exact (State.rd_setF_ne _ _ _ _ hoff).trans (State.rd_setF_ne _ _ _ _ hoff)

/-- A report that is not FATAL writes no register but the ledger's: the report it may drop is itself (R507). -/
theorem State.report_rd_ledger (s : State) (unit path data : Nat) {code o : Nat} (hcls : faultClass code ≠ 3) (hcode : code < 0x1100)
    (ho : o / 2 ^ 24 ≠ 0x2F) : (s.report unit code path data).rd o = s.rd o := by
  unfold State.report State.addReport
  dsimp only
  split
  next => exact State.rd_of_csr rfl o
  next hne =>
    rw [(queueReport_dropped hcls).resolve_left hne, State.countDrop_rd _ _ ho, fstateRaise_rd _ _ hcode ho]
    exact State.rd_of_csr rfl o

end Sys2Proof.Machine

/-!
SUPPORT. The position unit's own operations (spec/03): what a boundary, an entry to a state, an invalid boundary and the estimate each
write, said once; and O26 from them.
-/

namespace Sys2Proof.Machine

theorem State.getF_congr {s t : State} {f : Fld} (h : t.rd f.off = s.rd f.off) : t.getF f = s.getF f := by
  unfold State.getF; rw [h]

theorem State.isSet_setF_bit (s : State) (f : Fld) (h : f.lo = f.hi) (h32 : f.hi < 32) : (s.setF f 1).isSet f = true := by
  unfold State.isSet
  rw [State.getF_setF_same s f 1 (by omega) h32, show f.hi + 1 - f.lo = 1 by omega]
  decide

theorem State.isSet_setF_bit_zero (s : State) (f : Fld) (h : f.lo = f.hi) (h32 : f.hi < 32) : (s.setF f 0).isSet f = false := by
  unfold State.isSet
  rw [State.getF_setF_same s f 0 (by omega) h32, Nat.zero_mod]
  decide

/-- A register that neither Bell nor the ledger writes. -/
abbrev plainOff (o : Nat) : Prop := ¬ bellOff o ∧ o / 2 ^ 24 ≠ 0x2F

/-- The position unit alone leads from `s` to `t`: registers of the unit, of Bell and of the ledger, and their parts of the state. -/
structure PosWork (s t : State) : Prop where
  rd : ∀ o, o / 2 ^ 24 ≠ 0x20 → plainOff o → t.rd o = s.rd o
  eqv : t = { s with csr := t.csr, pos := t.pos, bell := t.bell, outs := t.outs, ledger := t.ledger, tally := t.tally }

theorem PosWork.refl (s : State) : PosWork s s := ⟨fun _ _ _ => rfl, rfl⟩

theorem PosWork.trans {s t u : State} (h : PosWork s t) (g : PosWork t u) : PosWork s u :=
  ⟨fun o x y => (g.rd o x y).trans (h.rd o x y), by rw [g.eqv, h.eqv]⟩

theorem PosWork.ite {s t u : State} {c : Prop} [Decidable c] (h : PosWork s t) (g : PosWork s u) : PosWork s (if c then t else u) := by
  split <;> assumption

theorem PosWork.wr {s t : State} {o : Nat} {v : Word} (h : PosWork s t) (ho : o / 2 ^ 24 = 0x20) : PosWork s (t.wr o v) :=
  h.trans ⟨fun _ hp _ => State.rd_wr_ne _ _ _ _ (fun e => hp (e ▸ ho)), rfl⟩

theorem PosWork.setF {s t : State} {f : Fld} {v : Nat} (h : PosWork s t) (ho : f.off / 2 ^ 24 = 0x20) : PosWork s (t.setF f v) := h.wr ho

theorem PosWork.modPos {s t : State} (h : PosWork s t) (f : Pos → Pos) : PosWork s (t.modPos f) := h.trans ⟨fun _ _ _ => rfl, rfl⟩

theorem PosWork.emit {s t : State} (h : PosWork s t) (x : Output) : PosWork s (t.emit x) := h.trans ⟨fun _ _ _ => rfl, rfl⟩

theorem PosWork.tally {s t : State} (h : PosWork s t) (y : Tally) : PosWork s { t with tally := y } := h.trans ⟨fun _ _ _ => rfl, rfl⟩

theorem PosWork.report {s t : State} {unit code path data : Nat} (h : PosWork s t) (hcls : faultClass code ≠ 3) (hcode : code < 0x1100) :
    PosWork s (t.report unit code path data) :=
  h.trans ⟨fun _ _ hp => State.report_rd_ledger _ _ _ _ hcls hcode hp.2, by
    conv_lhs => rw [(report_quiet t unit code path data).eqv]
    simp⟩

theorem PosWork.evt {s t : State} {f : Fld} {src : Nat} (h : PosWork s t) (ho : f.off / 2 ^ 24 = 0x20) : PosWork s (posEvt f src t) :=
  (h.setF ho).trans ⟨fun o _ hp => (bellPulse_bellWork _ _).rd o hp.1, by
    unfold posEvt
    conv_lhs => rw [(bellPulse_bellWork src (t.setF f 1)).eqv]
    simp⟩

/-! ### Position events (R82) -/

theorem posEvt_isSet (f : Fld) (src : Nat) (s : State) (h : f.lo = f.hi) (h32 : f.hi < 32) (ho : ¬ bellOff f.off) :
    (posEvt f src s).isSet f = true := by
  rw [State.isSet, posEvt, State.getF_congr ((bellPulse_bellWork _ _).rd _ ho)]
  exact State.isSet_setF_bit s f h h32

theorem plainOff_of_position {o : Nat} (ho : o / 2 ^ 24 = 0x20) : plainOff o := by unfold plainOff bellOff; omega

/-! ### A boundary (R50, R54, R56) -/

/-- What a boundary leaves in the unit's own state. -/
def posAfter (b : Beat) (s : State) : Pos :=
  { s.pos with
    ticks := 0, dataOut := posWord b, hostBeat := s.pos.hostBeat.map (fun _ => b + 1)
    ppsOut := decide (s.getF POS_CFG_PPS_DIV ≠ 0) && decide (b.toNat % 2 ^ s.getF POS_CFG_PPS_DIV = 0) }

/-- A boundary is its event, raised on a state with the pair written, the unit's own state moved on and the boundary counted. -/
theorem posBoundary_shape (b : Beat) (s : State) :
    ∃ u, posBoundary b s = posEvt POS_EVT_BEAT 872 u ∧ u.csr = (s.wr64 POS_NOW_LO ((b.zeroExtend 64) <<< 16)).csr ∧
      u = { s with csr := u.csr, pos := posAfter b s, outs := u.outs, tally := { s.tally with bounds := s.tally.bounds + 1 } } := by
  have hdiv : (s.wr64 POS_NOW_LO ((b.zeroExtend 64) <<< 16)).getF POS_CFG_PPS_DIV = s.getF POS_CFG_PPS_DIV :=
    State.getF_wr64_ne _ _ _ _ (by decide) (by decide)
  have heqv : s.wr64 POS_NOW_LO ((b.zeroExtend 64) <<< 16) = { s with csr := (s.wr64 POS_NOW_LO ((b.zeroExtend 64) <<< 16)).csr } := by
    unfold State.wr64 State.wr; rfl
  unfold posBoundary
  generalize s.wr64 POS_NOW_LO ((b.zeroExtend 64) <<< 16) = w at hdiv heqv ⊢
  extract_lets s1 y s2 s3 div s4 s5
  have h4 : s4 = { s with csr := w.csr, pos := posAfter b s, outs := s4.outs
                          tally := { s.tally with bounds := s.tally.bounds + 1 } } := by
    have hd : div = s.getF POS_CFG_PPS_DIV := (State.getF_of_csr rfl _).trans hdiv
    simp only [s4, s3, s2, s1, y, hd, posAfter, State.modPos, State.emit]
    rw [heqv]
  by_cases hp : s4.pos.ppsOut = true
  · have h5 : s5 = s4.emit (.pin "PPS_OUT" true) := if_pos hp
    exact ⟨s5, rfl, by rw [h5, h4]; rfl, by rw [h5, h4]; rfl⟩
  · have h5 : s5 = s4 := if_neg hp
    exact ⟨s5, rfl, by rw [h5, h4], by rw [h5, h4]⟩

theorem posBoundary_rd (b : Beat) (s : State) {o : Nat} (he : POS_EVT ≠ o) (ho : ¬ bellOff o) :
    (posBoundary b s).rd o = (s.wr64 POS_NOW_LO ((b.zeroExtend 64) <<< 16)).rd o := by
  obtain ⟨u, hu, hcsr, -⟩ := posBoundary_shape b s
  rw [hu, posEvt_rd _ _ _ he ho, State.rd_of_csr hcsr]

theorem posBoundary_rd_ne (b : Beat) (s : State) {o : Nat} (h : POS_NOW_LO ≠ o) (h4 : POS_NOW_HI ≠ o) (he : POS_EVT ≠ o)
    (ho : ¬ bellOff o) : (posBoundary b s).rd o = s.rd o :=
  (posBoundary_rd b s he ho).trans (State.rd_wr64_ne _ _ _ _ h h4)

theorem posBoundary_getF (b : Beat) (s : State) {f : Fld} (h : POS_NOW_LO ≠ f.off) (h4 : POS_NOW_HI ≠ f.off) (he : POS_EVT ≠ f.off)
    (ho : ¬ bellOff f.off) : (posBoundary b s).getF f = s.getF f :=
  State.getF_congr (posBoundary_rd_ne b s h h4 he ho)

theorem posBoundary_beat (b : Beat) (s : State) : (posBoundary b s).beat = b := by
  refine Eq.trans ?_ (State.beat_wr64 s b)
  unfold State.beat
  rw [State.rd64_congr (posBoundary_rd b s (by decide) (by decide)) (posBoundary_rd b s (by decide) (by decide))]

theorem posBoundary_frac (b : Beat) (s : State) : (posBoundary b s).getF POS_NOW_LO_FRAC = 0 := by
  rw [State.getF_congr (posBoundary_rd b s (by decide) (by decide))]
  unfold State.getF POS_NOW_LO_FRAC fldGet
  rw [State.rd_wr64]
  simp [Nat.shiftLeft_eq, show 65536 = 2 ^ 16 by decide]

theorem posBoundary_isSet_beat (b : Beat) (s : State) : (posBoundary b s).isSet POS_EVT_BEAT = true :=
  posEvt_isSet _ _ _ rfl (by decide) (by decide)

@[simp] theorem posBoundary_pos (b : Beat) (s : State) : (posBoundary b s).pos = posAfter b s := by
  obtain ⟨u, hu, -, heqv⟩ := posBoundary_shape b s
  rw [hu, posEvt_pos, heqv]

/-- A boundary writes registers, the unit's state, Bell's and the outputs, and Tally counts it. -/
theorem posBoundary_eqv (b : Beat) (s : State) :
    posBoundary b s = { s with csr := (posBoundary b s).csr, pos := (posBoundary b s).pos, bell := (posBoundary b s).bell
                               outs := (posBoundary b s).outs, tally := { s.tally with bounds := s.tally.bounds + 1 } } := by
  obtain ⟨u, hu, -, heqv⟩ := posBoundary_shape b s
  rw [hu, posEvt, (bellPulse_bellWork 872 (u.setF POS_EVT_BEAT 1)).eqv, heqv]
  rfl

theorem posBoundary_posWork (b : Beat) (s : State) : PosWork s (posBoundary b s) where
  rd o ho hp := posBoundary_rd_ne b s (by rintro rfl; exact ho (by decide)) (by rintro rfl; exact ho (by decide))
    (by rintro rfl; exact ho (by decide)) hp.1
  eqv := by
    conv_lhs => rw [posBoundary_eqv]
    conv_rhs => rw [posBoundary_eqv]

/-! ### An entry to a state, an invalid boundary, the estimate -/

theorem posEnter_rd (st : Nat) (s : State) {o : Nat} (he : POS_EVT ≠ o) (ho : plainOff o) :
    (posEnter st s).rd o = (s.setF POS_STAT_STATE st).rd o := by
  have hevt : ∀ (f : Fld) (src : Nat) (u : State), f.off = POS_EVT → (posEvt f src u).rd o = u.rd o := fun f src u hf =>
    posEvt_rd _ _ _ (hf ▸ he) ho.1
  unfold posEnter
  extract_lets old u
  split
  · rfl
  · split
    · exact hevt _ _ _ rfl
    · split
      · exact (hevt _ _ _ rfl).trans (State.report_rd_ledger _ _ _ _ (by decide) (by decide) ho.2)
      · split
        · exact (hevt _ _ _ rfl).trans (State.report_rd_ledger _ _ _ _ (by decide) (by decide) ho.2)
        · exact hevt _ _ _ rfl

theorem posEnter_state (st : Nat) (s : State) (h : st < 4) : (posEnter st s).getF POS_STAT_STATE = st := by
  rw [State.getF_congr (posEnter_rd st s (by decide) (by decide)), State.getF_setF_same _ _ _ (by decide) (by decide)]
  exact Nat.mod_eq_of_lt h

theorem posEnter_rd_ne (st : Nat) (s : State) {o : Nat} (hs : POS_STAT ≠ o) (he : POS_EVT ≠ o) (ho : plainOff o) :
    (posEnter st s).rd o = s.rd o :=
  (posEnter_rd st s he ho).trans (State.rd_setF_ne _ _ _ _ hs)

theorem posEnter_getF (st : Nat) (s : State) {f : Fld} (hd : POS_STAT ≠ f.off ∨ 1 < f.lo) (hf : f.lo ≤ f.hi) (he : POS_EVT ≠ f.off)
    (ho : plainOff f.off) : (posEnter st s).getF f = s.getF f :=
  (State.getF_congr (posEnter_rd st s he ho)).trans
    (State.getF_setF_disj _ _ _ _ (by decide) (by decide) hf (hd.imp_right .inr))

theorem posEnter_beat (st : Nat) (s : State) : (posEnter st s).beat = s.beat := by
  unfold State.beat
  rw [State.rd64_congr (posEnter_rd_ne st s (by decide) (by decide) (by decide)) (posEnter_rd_ne st s (by decide) (by decide) (by decide))]

@[simp] theorem posEnter_pos (st : Nat) (s : State) : (posEnter st s).pos = s.pos := by
  unfold posEnter
  dsimp only
  split_ifs <;> simp

theorem posEnter_posWork (st : Nat) (s : State) : PosWork s (posEnter st s) := by
  have h : PosWork s (s.setF POS_STAT_STATE st) := (PosWork.refl s).setF (by decide)
  unfold posEnter
  exact .ite h (.ite (h.evt (by decide)) (.ite ((h.report (by decide) (by decide)).evt (by decide))
    (.ite ((h.report (by decide) (by decide)).evt (by decide)) (h.evt (by decide)))))

theorem posEnter_free_isSet {s : State} (h : s.getF POS_STAT_STATE ≠ 0) : (posEnter 0 s).isSet POS_EVT_FREE = true := by
  unfold posEnter
  rw [if_neg h]
  exact posEvt_isSet _ _ _ rfl (by decide) (by decide)

theorem posEnter_regr_isSet {s : State} (h : s.getF POS_STAT_STATE ≠ 3) : (posEnter 3 s).isSet POS_EVT_REGR = true := by
  unfold posEnter
  rw [if_neg h]
  exact posEvt_isSet _ _ _ rfl (by decide) (by decide)

theorem posInvalid_rd (s : State) {o : Nat} (he : POS_EVT ≠ o) (ho : plainOff o) : (posInvalid s).rd o = s.rd o := by
  unfold posInvalid
  split
  · rfl
  · exact (posEvt_rd _ _ _ he ho.1).trans (State.report_rd_ledger _ _ _ _ (by decide) (by decide) ho.2)

@[simp] theorem posInvalid_pos (s : State) : (posInvalid s).pos = { s.pos with badRun := true } := by
  unfold posInvalid
  split
  next h => rw [← h]
  next => simp [State.modPos]

theorem posInvalid_posWork (s : State) : PosWork s (posInvalid s) :=
  .ite (.refl s) ((((PosWork.refl s).modPos _).report (by decide) (by decide)).evt (by decide))

theorem posInvalid_beat (s : State) : (posInvalid s).beat = s.beat := by
  unfold State.beat
  rw [State.rd64_congr (posInvalid_rd s (by decide) (by decide)) (posInvalid_rd s (by decide) (by decide))]

theorem posEstimate_rd (s : State) {o : Nat} (ho : POS_FREQ ≠ o) : (posEstimate s).rd o = s.rd o := by
  unfold posEstimate
  split
  · rfl
  · exact State.rd_wr_ne _ _ _ _ ho

theorem posEstimate_eqv (s : State) : posEstimate s = { s with csr := (posEstimate s).csr, pos := (posEstimate s).pos } := by
  unfold posEstimate
  split <;> rfl

/-- The estimate sets lengths of a beat alone. -/
theorem posEstimate_pos (s : State) :
    (posEstimate s).pos = { s.pos with estLen := (posEstimate s).pos.estLen, beatLen := (posEstimate s).pos.beatLen } := by
  unfold posEstimate
  split <;> rfl

theorem posEstimate_posWork (s : State) : PosWork s (posEstimate s) := by
  unfold posEstimate
  split
  · exact .refl s
  · exact ((PosWork.refl s).modPos _).wr (by decide)

end Sys2Proof.Machine

/-!
O26. The states of line position, clause by clause, from what each operation of the position unit writes.
-/

namespace Sys2Proof.Machine

/-- The registers and the parts of the state that O26 lets the position unit change. -/
theorem PosWork.only {s t : State} (h : PosWork s t) :
    RegsIn (fun o => o / 2 ^ 24 ≠ 0x20 && o / 2 ^ 24 ≠ 0x2A && o / 2 ^ 24 ≠ 0x2F) s t ∧
      t = { s with csr := t.csr, pos := t.pos, bell := t.bell, outs := t.outs, ledger := t.ledger, tally := t.tally } := by
  refine ⟨fun o ho => ?_, h.eqv⟩
  simp only [Bool.and_eq_true, decide_eq_true_eq] at ho
  exact h.rd o ho.1.1 ⟨ho.1.2, ho.2⟩

theorem posFollowing_iff (s : State) : posFollowing s = true ↔ s.getF POS_STAT_STATE = 1 ∨ s.getF POS_STAT_STATE = 3 := by
  simp [posFollowing]

@[simp] theorem State.modPos_getF (s : State) (f : Pos → Pos) (g : Fld) : (s.modPos f).getF g = s.getF g := State.getF_of_csr rfl g
@[simp] theorem State.modPos_isSet (s : State) (f : Pos → Pos) (g : Fld) : (s.modPos f).isSet g = s.isSet g := by simp [State.isSet]
@[simp] theorem State.modPos_beat (s : State) (f : Pos → Pos) : (s.modPos f).beat = s.beat := (rfl)
@[simp] theorem State.modPos_pos (s : State) (f : Pos → Pos) : (s.modPos f).pos = f s.pos := (rfl)

/-! ### A missing boundary (R59, R60) -/

/-- The unit after the boundary it issues itself for a missing one. -/
def posMissed (s : State) : State :=
  (posBoundary (s.beat + 1) (posInvalid s)).modPos
    (fun p => { p with miss := p.miss + 1, ticks := nominalBeat s.pos.cur.cls / 64 / 65536 })

/-- The third missing boundary in a row: no source is followed. -/
def posUnlocked (s : State) : State :=
  posQReset (((posMissed s).setF POS_STAT_SRC_OK 0).modPos (fun p => { p with miss := 0, periods := [], qLast := none }))

theorem execBeatWindowClose_following {s : State} (h : posFollowing s = true) :
    execBeatWindowClose s =
      if s.pos.miss + 1 ≥ 3 then
        if (posUnlocked s).isSet POS_STAT_FREQ_VALID then
          .next (posEnter 2 ((posUnlocked s).modPos (fun p => { p with beatLen := p.estLen, hoDue := false })))
        else .next (posEnter 0 ((posUnlocked s).modPos (fun p => { p with beatLen := nominalBeat p.cur.cls })))
      else .next (posMissed s) := by
  have hcur : (posBoundary (s.beat + 1) (posInvalid s)).pos.cur = s.pos.cur := by simp [posAfter]
  have hmiss : (posMissed s).pos.miss = s.pos.miss + 1 := by simp [posMissed, posAfter]
  unfold execBeatWindowClose
  rw [if_pos h]
  dsimp only
  rw [posInvalid_beat, hcur]
  change (if (posMissed s).pos.miss ≥ 3 then _ else _) = _
  rw [hmiss]
  rfl

theorem posMissed_getF_stat (s : State) {f : Fld} (hf : f.off = POS_STAT) : (posMissed s).getF f = s.getF f := by
  have hinv : (posInvalid s).getF f = s.getF f :=
    State.getF_congr (posInvalid_rd s (by rw [hf]; decide) (by rw [hf]; decide))
  rw [posMissed, State.modPos_getF,
    posBoundary_getF _ _ (by rw [hf]; decide) (by rw [hf]; decide) (by rw [hf]; decide) (by rw [hf]; decide), hinv]

theorem posMissed_posWork (s : State) : PosWork s (posMissed s) :=
  ((posInvalid_posWork s).trans (posBoundary_posWork _ _)).modPos _

theorem posMissed_beat (s : State) : (posMissed s).beat = s.beat + 1 := by
  rw [posMissed, State.modPos_beat, posBoundary_beat]

theorem beatWindowClose_missed {s : State} (h : posFollowing s = true) (hm : s.pos.miss < 2) :
    execBeatWindowClose s = .next (posMissed s) := by
  rw [execBeatWindowClose_following h, if_neg (by omega)]

theorem posUnlocked_getF_stat (s : State) {f : Fld} (hf : f.off = POS_STAT) (hl : f.lo ≤ f.hi) (hd : f.hi < 3 ∨ 3 < f.lo) :
    (posUnlocked s).getF f = s.getF f := by
  simp only [posUnlocked, posQReset, State.modPos_getF]
  rw [State.getF_setF_disj _ _ _ _ (by decide) (by decide) hl (.inr hd), posMissed_getF_stat s hf]

theorem posUnlocked_srcOk (s : State) : (posUnlocked s).isSet POS_STAT_SRC_OK = false := by
  simp only [posUnlocked, posQReset, State.modPos_isSet]
  exact State.isSet_setF_bit_zero _ _ rfl (by decide)

theorem posUnlocked_pos (s : State) : (posUnlocked s).pos.miss = 0 ∧ (posUnlocked s).pos.estLen = s.pos.estLen ∧
    (posUnlocked s).pos.cur = s.pos.cur := by
  simp [posUnlocked, posQReset, posMissed, posAfter]

theorem posUnlocked_posWork (s : State) : PosWork s (posUnlocked s) := by
  unfold posUnlocked posQReset
  exact (((posMissed_posWork s).setF (by decide)).modPos _).modPos _

theorem State.setF_beat (s : State) {f : Fld} (v : Nat) (h : f.off ≠ POS_NOW_LO) (h4 : f.off ≠ POS_NOW_HI) : (s.setF f v).beat = s.beat := by
  unfold State.beat
  rw [State.rd64_setF_ne _ _ _ _ h h4]

theorem posUnlocked_beat (s : State) : (posUnlocked s).beat = s.beat + 1 := by
  simp only [posUnlocked, posQReset, State.modPos_beat]
  rw [State.setF_beat _ _ (by decide) (by decide), posMissed_beat]

/-- The third missing boundary in a row enters HOLDOVER on a valid estimate and FREE otherwise (R59). -/
theorem beatWindowClose_unlocked {s : State} (h : s.getF POS_STAT_STATE = 1) (hm : s.pos.miss = 2) :
    Completes (execBeatWindowClose s) fun t =>
      t.beat = s.beat + 1 ∧ t.getF POS_STAT_STATE = (if s.isSet POS_STAT_FREQ_VALID then 2 else 0) ∧ t.isSet POS_STAT_SRC_OK = false ∧
      t.pos.beatLen = (if s.isSet POS_STAT_FREQ_VALID then s.pos.estLen else nominalBeat s.pos.cur.cls) ∧ t.pos.miss = 0 ∧ PosWork s t := by
  obtain ⟨hmiss, hest, hcur⟩ := posUnlocked_pos s
  have hvalid : (posUnlocked s).isSet POS_STAT_FREQ_VALID = s.isSet POS_STAT_FREQ_VALID := by
    rw [State.isSet, State.isSet, posUnlocked_getF_stat s rfl (by decide) (by decide)]
  have hok : ∀ st f, (posEnter st ((posUnlocked s).modPos f)).isSet POS_STAT_SRC_OK = false := by
    intro st f
    rw [State.isSet, posEnter_getF _ _ (by decide) (by decide) (by decide) (by decide), State.modPos_getF]
    exact posUnlocked_srcOk s
  rw [execBeatWindowClose_following ((posFollowing_iff s).2 (.inl h)), if_pos (by omega), hvalid]
  cases hv : s.isSet POS_STAT_FREQ_VALID with
  | true =>
    exact ⟨_, rfl, by rw [posEnter_beat, State.modPos_beat, posUnlocked_beat], posEnter_state _ _ (by decide), hok _ _,
      by simp [hest], by simp [hmiss], ((posUnlocked_posWork s).modPos _).trans (posEnter_posWork _ _)⟩
  | false =>
    exact ⟨_, rfl, by rw [posEnter_beat, State.modPos_beat, posUnlocked_beat], posEnter_state _ _ (by decide), hok _ _,
      by simp [hcur], by simp [hmiss], ((posUnlocked_posWork s).modPos _).trans (posEnter_posWork _ _)⟩

/-! ### A changeover (R57) -/

/-- The unit with the source of POS_CFG taken over, before the estimate. -/
def posTaken (s : State) : State :=
  (((s.modPos (fun q => { q with
    cur := posCfg s, periods := q.qPeriods, miss := 0, badRun := false, qRun := 0, qPeriods := [], qDone := false, qLast := none
    hostBeat := if (posCfg s).src = 2 then q.hostBeat else none })).setF POS_STAT_PENDING 0).setF POS_STAT_SRC_OK 1).modPos
      (fun q => { q with beatLen := nominalBeat (posCfg s).cls })

/-- A source whose number is the unit's own, taken over with no change from class 3, is entered by itself alone. -/
theorem posTakeOver_same {s : State} {b : SrcBeat} (hc : s.pos.cur.cls ≠ 3) (hv : posShown s (posCfg s) b (posNear s) = posNear s) :
    posTakeOver b s = (posEnter 1 (posEstimate (posTaken s))).modPos (fun q => { q with slew := posPhase s }) := by
  unfold posTakeOver
  dsimp only
  rw [if_pos hv, if_neg (by simp [hc])]
  rfl

theorem posTaken_posWork (s : State) : PosWork s (posTaken s) :=
  ((((PosWork.refl s).modPos _).setF (by decide)).setF (by decide)).modPos _

theorem posTaken_isSet (s : State) : (posTaken s).isSet POS_STAT_PENDING = false ∧ (posTaken s).isSet POS_STAT_SRC_OK = true := by
  simp only [posTaken, State.modPos_isSet]
  refine ⟨?_, State.isSet_setF_bit _ _ rfl (by decide)⟩
  rw [State.isSet, State.getF_setF_disj _ _ _ _ (by decide) (by decide) (by decide) (by decide)]
  exact State.isSet_setF_bit_zero _ _ rfl (by decide)

theorem posTaken_beat (s : State) : (posTaken s).beat = s.beat := by
  simp only [posTaken, State.modPos_beat]
  rw [State.setF_beat _ _ (by decide) (by decide), State.setF_beat _ _ (by decide) (by decide), State.modPos_beat]

theorem posEstimate_beat (s : State) : (posEstimate s).beat = s.beat := by
  unfold State.beat
  rw [State.rd64_congr (posEstimate_rd s (by decide)) (posEstimate_rd s (by decide))]

theorem sourceChangeover_same {s : State} {b : SrcBeat} (hq : s.pos.qDone = true) (hsrc : (posCfg s).src = 1) (hb : b.v = posNear s)
    (hc : s.pos.cur.cls ≠ 3) : Completes (execSourceChangeover b s) fun t =>
      t.getF POS_STAT_STATE = 1 ∧ t.pos.cur = posCfg s ∧ t.pos.qDone = false ∧ t.isSet POS_STAT_PENDING = false ∧
      t.isSet POS_STAT_SRC_OK = true ∧ t.beat = s.beat ∧ t.pos.slew = posPhase s ∧ t.pos.miss = 0 ∧ PosWork s t := by
  have hv : posShown s (posCfg s) b (posNear s) = posNear s := by
    rw [posShown, hsrc]
    simpa using hb
  have hstat : ∀ f : Fld, f.off = POS_STAT → 1 < f.lo → f.lo ≤ f.hi →
      (posEnter 1 (posEstimate (posTaken s))).isSet f = (posTaken s).isSet f := by
    intro f hf hlo hl
    rw [State.isSet, State.isSet, posEnter_getF _ _ (.inr hlo) hl (by rw [hf]; decide) (by rw [hf]; decide),
      State.getF_congr (posEstimate_rd _ (by rw [hf]; decide))]
  obtain ⟨hpend, hok⟩ := posTaken_isSet s
  have hpos : (posEstimate (posTaken s)).pos.cur = posCfg s ∧ (posEstimate (posTaken s)).pos.qDone = false ∧
      (posEstimate (posTaken s)).pos.miss = 0 :=
    ⟨by rw [posEstimate_pos]; rfl, by rw [posEstimate_pos]; rfl, by rw [posEstimate_pos]; rfl⟩
  obtain ⟨hcur, hdone, hmiss⟩ := hpos
  refine ⟨_, by rw [execSourceChangeover, if_pos hq, posTakeOver_same hc hv], ?_⟩
  simp only [State.modPos_getF, State.modPos_isSet, State.modPos_beat, State.modPos_pos, posEnter_pos]
  refine ⟨posEnter_state _ _ (by decide), hcur, hdone, ?_, ?_, ?_, trivial, hmiss, ?_⟩
  · rw [hstat _ rfl (by decide) (by decide), hpend]
  · rw [hstat _ rfl (by decide) (by decide), hok]
  · rw [posEnter_beat, posEstimate_beat, posTaken_beat]
  · exact (((posTaken_posWork s).trans (posEstimate_posWork _)).trans (posEnter_posWork _ _)).modPos _

/-! ### The obligation -/

/-- Settles O26, clause by clause: each operation of the unit by what it writes. -/
theorem positionStates : Obligations.PositionStates := by
  intro s b st p only
  refine ⟨?_, ?_, ?_, ?_, ?_, ?_⟩
  · intro hst hm
    rw [exec_beatWindowClose, beatWindowClose_missed ((posFollowing_iff s).2 hst) hm]
    exact ⟨_, rfl, posMissed_beat s, by simp [posMissed, posAfter], posMissed_getF_stat s rfl, by simp [posMissed, posAfter],
      (State.modPos_isSet _ _ _).trans (posBoundary_isSet_beat _ _), (posMissed_posWork s).only⟩
  · intro hst hm
    rw [exec_beatWindowClose]
    obtain ⟨t, ht, hbeat, hstate, hok, hlen, hmiss, hwork⟩ := beatWindowClose_unlocked hst hm
    exact ⟨t, ht, hbeat, hstate, hok, hlen, hmiss, hwork.only⟩
  · intro hst
    have hfol : ¬ posFollowing s = true := by
      rw [posFollowing_iff]
      omega
    have hpos : ∀ t : State, (posSlew t).pos.ticks = t.pos.ticks ∧ (posSlew t).pos.cur = t.pos.cur := fun t => ⟨rfl, rfl⟩
    rw [exec_ownBeatBoundary, execOwnBeatBoundary, if_neg hfol]
    exact ⟨_, rfl, (State.modPos_beat _ _).trans (posBoundary_beat _ _), by rw [(hpos _).1, posBoundary_pos]; rfl,
      (State.modPos_getF _ _ _).trans (posBoundary_getF _ _ (by decide) (by decide) (by decide) (by decide)),
      (State.modPos_isSet _ _ _).trans (posBoundary_isSet_beat _ _), by rw [(hpos _).2, posBoundary_pos]; rfl,
      ((posBoundary_posWork _ _).modPos _).only⟩
  · intro hq hsrc hb hc
    rw [exec_sourceChangeover]
    obtain ⟨t, ht, hstate, hcur, hdone, hpend, hok, hbeat, hslew, hmiss, hwork⟩ := sourceChangeover_same hq hsrc hb hc
    exact ⟨t, ht, hstate, hcur, hdone, hpend, hok, hbeat, hslew, hmiss, hwork.only⟩
  · intro hst
    have hne : ((s.setF POS_STAT_FREQ_VALID 0).modPos (fun p => { p with beatLen := nominalBeat p.cur.cls })).getF POS_STAT_STATE ≠ 0 := by
      rw [State.modPos_getF, State.getF_setF_disj _ _ _ _ (by decide) (by decide) (by decide) (by decide)]
      omega
    rw [exec_holdoverExpiry, execHoldoverExpiry, if_pos hst]
    refine ⟨_, rfl, posEnter_state _ _ (by decide), ?_, by rw [posEnter_pos]; rfl, posEnter_free_isSet hne, ?_,
      ((((PosWork.refl s).setF (by decide)).modPos _).trans (posEnter_posWork _ _)).only⟩
    · rw [State.isSet, posEnter_getF _ _ (by decide) (by decide) (by decide) (by decide), State.modPos_getF]
      exact State.isSet_setF_bit_zero _ _ rfl (by decide)
    · rw [posEnter_beat, State.modPos_beat, State.setF_beat _ _ (by decide) (by decide)]
  · intro hst
    have hrd : ∀ o, POS_FREQ ≠ o → (posEstimate (s.setF POS_STAT_FREQ_VALID 1)).rd o = (s.setF POS_STAT_FREQ_VALID 1).rd o :=
      fun o => posEstimate_rd _
    rw [exec_freqEstimateValid, execFreqEstimateValid, if_pos hst]
    refine ⟨_, rfl, ?_, ?_, ?_, by rw [posEstimate_pos]; rfl, ?_, ?_⟩
    · rw [State.isSet, State.getF_congr (hrd _ (by decide))]
      exact State.isSet_setF_bit _ _ rfl (by decide)
    · rw [State.getF_congr (hrd _ (by decide)), State.getF_setF_disj _ _ _ _ (by decide) (by decide) (by decide) (by decide)]
      exact hst
    · rw [posEstimate_beat, State.setF_beat _ _ (by decide) (by decide)]
    · intro o ho
      simp only [List.mem_cons, List.not_mem_nil, or_false, not_or] at ho
      exact (hrd o (Ne.symm ho.2)).trans (State.rd_setF_ne _ _ _ _ (Ne.symm ho.1))
    · rw [posEstimate_eqv]
      rfl

end Sys2Proof.Machine

/-!
SUPPORT. What the links and a channel's own operations leave alone: a message on the twin link or the fabric writes no register, and an
operation on one channel's switches, keys and session writes its own block past the configuration, and units that are not a port's, the
position's or a cell port's.
-/

namespace Sys2Proof.Machine

/-! ### Links -/

/-- Links, and the records of channels, alone lead from `s` to `t`: no register has changed, and outputs have only been added. -/
structure LinkWork (s t : State) : Prop where
  eqv : t = { s with chans := t.chans, twin := t.twin, fab := t.fab, outs := t.outs }
  outs : s.outs <:+ t.outs

theorem LinkWork.refl (s : State) : LinkWork s s := ⟨rfl, List.suffix_rfl⟩

theorem LinkWork.trans {s t u : State} (h : LinkWork s t) (g : LinkWork t u) : LinkWork s u :=
  ⟨by rw [g.eqv, h.eqv], h.outs.trans g.outs⟩

theorem LinkWork.foldl {α : Type} {f : State → α → State} (hf : ∀ u a, LinkWork u (f u a)) (l : List α) (s : State) :
    LinkWork s (l.foldl f s) := by
  induction l generalizing s with
  | nil => exact .refl s
  | cons a l ih => exact (hf s a).trans (ih _)

theorem LinkWork.csr {s t : State} (h : LinkWork s t) : t.csr = s.csr := by rw [h.eqv]

theorem modZp_linkWork (s : State) (z : Nat) (f : ZPort → ZPort) : LinkWork s (s.modZp z f) := ⟨rfl, List.suffix_rfl⟩

theorem modChan_linkWork (s : State) (n : Nat) (f : Chan → Chan) : LinkWork s (s.modChan n f) := ⟨rfl, List.suffix_rfl⟩

theorem flitOut_linkWork (z kind vc seq : Nat) (payload : List Byte) (s : State) : LinkWork s (flitOut z kind vc seq payload s) :=
  ⟨rfl, List.suffix_cons _ _⟩

theorem pumpOne_linkWork (z : Nat) (s : State) : LinkWork s (pumpOne z s) := by
  unfold pumpOne
  extract_lets p
  split
  · exact .refl s
  · split
    · exact .refl s
    · split
      · exact .refl s
      · split
        · exact .refl s
        · exact (flitOut_linkWork _ _ _ _ _ s).trans (modZp_linkWork _ _ _)

theorem pumpMany_linkWork (k z : Nat) (s : State) : LinkWork s (pumpMany k z s) := by
  induction k generalizing s with
  | zero => exact .refl s
  | succ k ih => exact (pumpOne_linkWork z s).trans (ih _)

theorem zSend_linkWork (z vc : Nat) (m : List Byte) (s : State) : LinkWork s (zSend z vc m s) := by
  unfold zSend pump
  refine (modZp_linkWork s z (fun p => { p with txq := p.txq ++ flitsOf vc m })).trans ?_
  split
  · exact pumpMany_linkWork _ _ _
  · exact .refl _

theorem twinPut_linkWork (rec : List Byte) (s : State) : LinkWork s (twinPut rec s) := by
  unfold twinPut
  split
  · exact .refl s
  · extract_lets t iv ct body u
    exact (⟨rfl, List.suffix_rfl⟩ : LinkWork s u).trans (zSend_linkWork _ _ _ _)

theorem twinSend_linkWork (rec : List Byte) (s : State) : LinkWork s (twinSend rec s) := by
  have htwin : ∀ x, LinkWork s { s with twin := x } := fun x => ⟨rfl, List.suffix_rfl⟩
  unfold twinSend
  split
  · split
    · exact htwin _
    · exact .refl s
  · exact (htwin _).trans (LinkWork.foldl (fun u r => twinPut_linkWork r u) _ _)

/-! ### One channel -/

/-- A register that an operation on a channel's switches, keys and session does not write. -/
abbrev keptOff (o : Nat) : Prop :=
  o < 0x22100000 ∨ (0x22100000 ≤ o ∧ o < 0x22200000 ∧ o % 0x800 < 0x18) ∨ (0x22200000 ≤ o ∧ o < 0x23000000)

/-- Operations on channels lead from `s` to `t`. -/
structure ChanWork (s t : State) : Prop where
  rd : ∀ o, keptOff o → t.rd o = s.rd o
  eqv : t = { s with csr := t.csr, bell := t.bell, ledger := t.ledger, outs := t.outs, chans := t.chans, tack := t.tack, brTx := t.brTx
                     loftQ := t.loftQ, twin := t.twin, fab := t.fab, tally := t.tally }

theorem ChanWork.refl (s : State) : ChanWork s s := ⟨fun _ _ => rfl, rfl⟩

theorem ChanWork.trans {s t u : State} (h : ChanWork s t) (g : ChanWork t u) : ChanWork s u :=
  ⟨fun o x => (g.rd o x).trans (h.rd o x), by rw [g.eqv, h.eqv]⟩

theorem ChanWork.ite {s t u : State} {c : Prop} [Decidable c] (h : ChanWork s t) (g : ChanWork s u) : ChanWork s (if c then t else u) := by
  split <;> assumption

theorem ChanWork.foldl {α : Type} {f : State → α → State} (l : List α) (hf : ∀ u, ∀ a ∈ l, ChanWork u (f u a)) (s : State) :
    ChanWork s (l.foldl f s) := by
  induction l generalizing s with
  | nil => exact .refl s
  | cons a l ih =>
    exact (hf s a (List.mem_cons_self ..)).trans (ih (fun u b hb => hf u b (List.mem_cons_of_mem _ hb)) _)

theorem ChanWork.wr {s t : State} {o : Nat} {v : Word} (h : ChanWork s t) (ho : ¬ keptOff o) : ChanWork s (t.wr o v) :=
  h.trans ⟨fun _ hp => State.rd_wr_ne _ _ _ _ (fun e => ho (e ▸ hp)), rfl⟩

theorem ChanWork.setF {s t : State} {f : Fld} {v : Nat} (h : ChanWork s t) (ho : ¬ keptOff f.off) : ChanWork s (t.setF f v) := h.wr ho

theorem ChanWork.wr64 {s t : State} {o : Nat} {v : DWord} (h : ChanWork s t) (ho : ¬ keptOff o) (h4 : ¬ keptOff (o + 4)) :
    ChanWork s (t.wr64 o v) := (h.wr ho).wr h4

theorem ChanWork.modChan {s t : State} (h : ChanWork s t) (n : Nat) (f : Chan → Chan) : ChanWork s (t.modChan n f) :=
  h.trans ⟨fun _ _ => rfl, rfl⟩

theorem ChanWork.brTx {s t : State} (h : ChanWork s t) (q) : ChanWork s { t with brTx := q } := h.trans ⟨fun _ _ => rfl, rfl⟩

theorem ChanWork.loftQ {s t : State} (h : ChanWork s t) (q) : ChanWork s { t with loftQ := q } := h.trans ⟨fun _ _ => rfl, rfl⟩

theorem ChanWork.tack {s t : State} (h : ChanWork s t) (x) : ChanWork s { t with tack := x } := h.trans ⟨fun _ _ => rfl, rfl⟩

theorem ChanWork.tally {s t : State} (h : ChanWork s t) (x) : ChanWork s { t with tally := x } := h.trans ⟨fun _ _ => rfl, rfl⟩

theorem ChanWork.mem {s t : State} (h : ChanWork s t) : t.mem = s.mem := by rw [h.eqv]

theorem ChanWork.cores {s t : State} (h : ChanWork s t) : t.cores = s.cores := by rw [h.eqv]

theorem ChanWork.units {s t : State} (h : ChanWork s t) : t.units = s.units := by rw [h.eqv]

theorem ChanWork.ports {s t : State} (h : ChanWork s t) : t.ports = s.ports := by rw [h.eqv]

theorem Quiet.chanWork {s t : State} (h : Quiet s t) : ChanWork s t :=
  ⟨fun o ho => h.rd o (by unfold quietOff; unfold keptOff at ho; omega), by rw [h.eqv]⟩

theorem LinkWork.chanWork {s t : State} (h : LinkWork s t) : ChanWork s t := ⟨fun o _ => State.rd_of_csr h.csr o, by rw [h.eqv]⟩

/-! ### The registers they write -/

section
variable {n d i : Nat}

theorem kbRoles_not_kept (hn : n < 512) (hd : d < 2) : ¬ keptOff (KB_ROLES n d) := by unfold keptOff KB_ROLES; omega
theorem kbSwBeatLo_not_kept (hn : n < 512) (hd : d < 2) : ¬ keptOff (KB_SW_BEAT_LO n d) := by unfold keptOff KB_SW_BEAT_LO; omega
theorem kbSwBeatHi_not_kept (hn : n < 512) (hd : d < 2) : ¬ keptOff (KB_SW_BEAT_HI n d) := by unfold keptOff KB_SW_BEAT_HI; omega
theorem chModeW1_not_kept (hn : n < 512) : ¬ keptOff (CH_MODE_W1_LO n) ∧ ¬ keptOff (CH_MODE_W1_LO n + 4) := by
  unfold keptOff CH_MODE_W1_LO; omega
theorem chModeW2_not_kept (hn : n < 512) : ¬ keptOff (CH_MODE_W2_LO n) ∧ ¬ keptOff (CH_MODE_W2_LO n + 4) := by
  unfold keptOff CH_MODE_W2_LO; omega
theorem brStat_not_kept (hn : n < 512) : ¬ keptOff (BR_STAT n) := by unfold keptOff BR_STAT; omega
theorem brTxSeq_not_kept (hn : n < 512) (hi : i < 4) : ¬ keptOff (BR_TX_SEQ n i) := by unfold keptOff BR_TX_SEQ; omega
theorem brCnt_not_kept (hn : n < 512) (hi : i < 16) : ¬ keptOff (BR_CNT n i) ∧ ¬ keptOff (BR_CNT n i + 4) := by
  unfold keptOff BR_CNT; omega
theorem chEvt_not_kept (hn : n < 512) : ¬ keptOff (CH_EVT n) := by unfold keptOff CH_EVT; omega

end

theorem liveChans_lt (s : State) {n : Nat} (h : n ∈ s.liveChans) : n < 512 := by
  rw [State.liveChans, List.mem_filter, List.mem_range] at h
  exact h.1

/-! ### Switches -/

section
variable {n d : Nat}

theorem commitT120_chanWork (s : State) : ChanWork s (commitT120 s) := by
  have hcfg : ¬ keptOff (TCFG 120) := by decide
  have h : ChanWork s ((s.setF (TCFG_EN 120) 1).setF (TCFG_SRC 120) 3) := ((ChanWork.refl s).setF hcfg).setF hcfg
  unfold commitT120
  extract_lets s1
  split
  · exact (((h.wr64 (by decide) (by decide)).wr (by decide)).tally _).setF (by decide)
  · exact h.setF (by decide)

theorem showArmed_chanWork (hn : n < 512) (hd : d < 2) (w : Option Switch) (s : State) : ChanWork s (showArmed n d w s) := by
  have h : ∀ v, ChanWork s (s.setF (KB_ROLES_SW_ARMED n d) v) := fun v => (ChanWork.refl s).setF (kbRoles_not_kept hn hd)
  unfold showArmed
  split
  · exact ((h 1).wr (kbSwBeatLo_not_kept hn hd)).setF (kbSwBeatHi_not_kept hn hd)
  · exact h 0

theorem disarmSwitch_chanWork (hn : n < 512) (hd : d < 2) (s : State) : ChanWork s (disarmSwitch n d s) := by
  have h : ChanWork s (s.modChan n (fun c => c.setSw d none)) := (ChanWork.refl s).modChan n _
  have hframe : ∀ v, ChanWork s ((s.modChan n (fun c => c.setSw d none)).wr64
      (if d = 0 then CH_MODE_W1_LO n else CH_MODE_W2_LO n) v) := by
    intro v
    split
    · exact h.wr64 (chModeW1_not_kept hn).1 (chModeW1_not_kept hn).2
    · exact h.wr64 (chModeW2_not_kept hn).1 (chModeW2_not_kept hn).2
  unfold disarmSwitch
  exact ((ChanWork.ite (hframe _) h).trans (showArmed_chanWork hn hd _ _)).trans (commitT120_chanWork _)

theorem brCnt_chanWork (hn : n < 512) {i : Nat} (hi : i < 8) (s : State) : ChanWork s (brCnt n i s) :=
  (ChanWork.refl s).wr64 (brCnt_not_kept hn (by omega)).1 (brCnt_not_kept hn (by omega)).2

theorem brReport_chanWork (code src n data : Nat) (s : State) : ChanWork s (brReport code src n data s) :=
  ((report_quiet _ _ _ _ _).trans (bellPulse_quiet _ _)).chanWork

theorem brSend_chanWork (hn : n < 512) {stream : Nat} (hs : stream < 4) (typ lane : Nat) (urgent : Bool) (body : List Byte) (s : State) :
    ChanWork s (brSend n typ stream lane urgent body s) := by
  unfold brSend
  extract_lets seq m1 m2 s1 s2
  have h2 : ChanWork s s2 := (((ChanWork.refl s).wr (brTxSeq_not_kept hn hs)).trans (brCnt_chanWork hn (by decide) _)).brTx _
  exact .ite (.refl s) (.ite (h2.trans (twinSend_linkWork _ _).chanWork) h2)

theorem sendCancel_chanWork (hn : n < 512) (epoch : Nat) (b : Beat) (reason : Nat) (s : State) :
    ChanWork s (sendCancel n epoch b reason s) :=
  ((ChanWork.foldl _ (fun u _ _ => brSend_chanWork hn (by decide) _ _ _ _ u) s).trans (brCnt_chanWork hn (by decide) _)).trans
    (brReport_chanWork _ _ _ _ _)

theorem cancelSwitch_chanWork (hn : n < 512) (hd : d < 2) (reason : Nat) (s : State) : ChanWork s (cancelSwitch n d reason s) := by
  unfold cancelSwitch
  split
  · exact .refl s
  · exact .ite ((disarmSwitch_chanWork hn hd s).trans (sendCancel_chanWork hn _ _ _ _)) (disarmSwitch_chanWork hn hd s)

theorem issueMark_chanWork (n d epoch : Nat) (b : Beat) (s : State) : ChanWork s (issueMark n d epoch b s) :=
  ((ChanWork.refl s).loftQ _).setF (by decide)

theorem armSwitch_chanWork (hn : n < 512) (hd : d < 2) (w : Switch) (mark : Bool) (s : State) : ChanWork s (armSwitch n d w mark s) := by
  have h : ChanWork s (showArmed n d (some w) (s.modChan n (fun c => c.setSw d (some w)))) :=
    ((ChanWork.refl s).modChan n _).trans (showArmed_chanWork hn hd _ _)
  exact (ChanWork.ite (h.trans (issueMark_chanWork _ _ _ _ _)) h).trans (commitT120_chanWork _)

theorem fixOutFrame_chanWork (hn : n < 512) (b : Beat) (s : State) : ChanWork s (fixOutFrame n b s) :=
  .ite (.ite ((ChanWork.refl s).wr64 (chModeW1_not_kept hn).1 (chModeW1_not_kept hn).2)
    ((report_quiet _ _ _ _ _).chanWork.trans (cancelSwitch_chanWork hn (by decide) _ _))) (.refl s)

theorem sendSwitchAt_chanWork (hn : n < 512) (s : State) : ChanWork s (sendSwitchAt n s) := by
  unfold sendSwitchAt
  split
  · exact .refl s
  · exact ((brSend_chanWork hn (by decide) _ _ _ _ _).modChan n _).trans (fixOutFrame_chanWork hn _ _)

theorem beginSwitch_chanWork (hn : n < 512) (epoch : Nat) (b : Beat) (host : Bool) (s : State) :
    ChanWork s (beginSwitch n epoch b host s) :=
  .ite ((armSwitch_chanWork hn (by decide) _ _ _).trans (sendSwitchAt_chanWork hn _)) (armSwitch_chanWork hn (by decide) _ _ _)

/-! ### Keys and exchanges -/

theorem freeSlot_chanWork (j : Nat) (s : State) : ChanWork s (freeSlot j s) := ((ChanWork.refl s).tack _).setF (by decide)

theorem reapSlots_chanWork (n : Nat) (s : State) : ChanWork s (reapSlots n s) :=
  ChanWork.foldl _ (fun u _ _ => .ite (freeSlot_chanWork _ u) (.refl u)) s

theorem roles_lt {d : Nat} (h : d ∈ [0, 1]) : d < 2 := by
  rcases List.mem_pair.mp h with rfl | rfl <;> decide

theorem setSpare_chanWork (hn : n < 512) (i : Option Nat) (s : State) : ChanWork s (setSpare n i s) := by
  refine ChanWork.foldl _ (fun u d hd => ?_) s
  have hk := kbRoles_not_kept hn (roles_lt hd)
  split
  · exact ((ChanWork.refl u).setF hk).setF hk
  · exact ((ChanWork.refl u).setF hk).setF hk

theorem dropSpare_chanWork (hn : n < 512) (s : State) : ChanWork s (dropSpare n s) :=
  .ite ((setSpare_chanWork hn _ s).trans (freeSlot_chanWork _ _)) (.refl s)

theorem dropNext_chanWork (hn : n < 512) (s : State) : ChanWork s (dropNext n s) := by
  refine (ChanWork.foldl _ (fun u d hd => ?_) s).trans (reapSlots_chanWork n _)
  have hk := kbRoles_not_kept hn (roles_lt hd)
  exact ((ChanWork.refl u).setF hk).setF hk

theorem takeSpare_chanWork (hn : n < 512) (s : State) :
    ChanWork s (takeSpare n s).2 ∧ ∀ i t, (takeSpare n s).1 = some (i, t) → ChanWork s t := by
  unfold takeSpare
  split
  · refine ⟨.refl s, fun i t h => ?_⟩
    cases h
    exact .refl s
  · split
    next i hi =>
      have h : ChanWork s (setSpare n (some i) s) := setSpare_chanWork hn _ s
      refine ⟨h, fun j t ht => ?_⟩
      cases ht
      exact h
    next => exact ⟨((ChanWork.refl s).setF (by decide)).trans (report_quiet _ _ _ _ _).chanWork, fun i t h => nomatch h⟩

theorem startExchange_chanWork (hn : n < 512) (s : State) : ChanWork s (startExchange n s) := by
  obtain ⟨hfull, hspare⟩ := takeSpare_chanWork hn s
  unfold startExchange
  split
  · split
    next i t r heq =>
      have ht : ChanWork s t := hspare i t (by rw [heq])
      exact ((ht.modChan n _).setF (brStat_not_kept hn)).setF (brStat_not_kept hn)
    next t heq =>
      rw [heq] at hfull
      exact hfull
  · exact .refl s

theorem forcedRekey_chanWork (hn : n < 512) (s : State) : ChanWork s (forcedRekey n s) :=
  ((((ChanWork.refl s).modChan n _).setF (brStat_not_kept hn)).trans (dropSpare_chanWork hn _)).trans
    ((dropNext_chanWork hn _).trans (startExchange_chanWork hn _))

theorem chEvt_chanWork (hn : n < 512) {f : Fld} (hf : f.off = CH_EVT n) (s : State) : ChanWork s (chEvt n f s) :=
  ((ChanWork.refl s).setF (hf ▸ chEvt_not_kept hn)).trans (bellInput_quiet _ _ _).chanWork

end

end Sys2Proof.Machine

/-!
O25. The boundary of the followed PIN source: the next beat, a forward step, a regression.
-/

namespace Sys2Proof.Machine

/-- The boundary clears the fabric's position (R56). -/
def State.fabPosTaken (s : State) : State := s.modPos (fun p => { p with fabPos := none })

@[simp] theorem State.fabPosTaken_rd (s : State) (o : Nat) : s.fabPosTaken.rd o = s.rd o := (rfl)
@[simp] theorem State.fabPosTaken_getF (s : State) (f : Fld) : s.fabPosTaken.getF f = s.getF f := (rfl)
@[simp] theorem State.fabPosTaken_isSet (s : State) (f : Fld) : s.fabPosTaken.isSet f = s.isSet f := (rfl)
@[simp] theorem State.fabPosTaken_beat (s : State) : s.fabPosTaken.beat = s.beat := (rfl)
@[simp] theorem State.fabPosTaken_mem (s : State) : s.fabPosTaken.mem = s.mem := (rfl)
@[simp] theorem State.fabPosTaken_cores (s : State) : s.fabPosTaken.cores = s.cores := (rfl)
@[simp] theorem State.fabPosTaken_chans (s : State) : s.fabPosTaken.chans = s.chans := (rfl)
@[simp] theorem State.fabPosTaken_tack (s : State) : s.fabPosTaken.tack = s.tack := (rfl)

/-- The run of missing boundaries ends. -/
def State.missEnds (s : State) : State := s.modPos (fun q => { q with miss := 0, badRun := false })

/-- A well-formed boundary of the PIN source followed, within its window: the number of the word decides (R60, R63, R64). -/
theorem sourceBeat_pin {s : State} {b : SrcBeat} (hst : s.getF POS_STAT_STATE = 1) (hsrc : s.pos.cur.src = 1)
    (hwin : b.off.natAbs ≤ nominalBeat s.pos.cur.cls / 64) (hword : posWordOk b.word = true) (hok : posFollowedOk s b.period = true) :
    exec (.sourceBeatBoundary false b) s =
      .next (State.fabPosTaken (if b.v = s.beat + 1 then posFollow b.v b.period s
        else if beatBefore (s.beat + 1) b.v then posStep b.v s.missEnds else posRegress b.v s.missEnds)) := by
  have hfol : posFollowing s = true := (posFollowing_iff s).2 (.inl hst)
  have hform : posWellFormed s s.pos.cur b = true := by simp [posWellFormed, posSrcAllowed, hsrc, hword]
  have hshown : posShown s s.pos.cur b (s.beat + 1) = b.v := by simp [posShown, hsrc]
  rw [exec_sourceBeatBoundary, execSourceBeatBoundary, hfol]
  simp only [Bool.not_false, Bool.and_self, if_true, posFollowed, hwin, hform, hok, hshown, hsrc, decide_true, Bool.not_true,
    Bool.or_self, Bool.false_eq_true, if_false, one_ne_zero]
  rfl

theorem State.getF_cntSat_same (s : State) (f : Fld) (k : Nat) (h : f.lo ≤ f.hi) (h32 : f.hi < 32) :
    (s.cntSat f k).getF f = min (s.getF f + k) (2 ^ (f.hi + 1 - f.lo) - 1) := by
  have hpos : 0 < 2 ^ (f.hi + 1 - f.lo) := Nat.two_pow_pos _
  rw [State.cntSat, State.getF_setF_same _ _ _ h h32]
  exact Nat.mod_eq_of_lt (by omega)

@[simp] theorem State.modPos_mem (s : State) (f : Pos → Pos) : (s.modPos f).mem = s.mem := (rfl)
@[simp] theorem State.modPos_cores (s : State) (f : Pos → Pos) : (s.modPos f).cores = s.cores := (rfl)

/-! ### The next beat -/

theorem posFollow_rd (v : Beat) (period : Nat) (s : State) {o : Nat} (h : POS_NOW_LO ≠ o) (h4 : POS_NOW_HI ≠ o) (he : POS_EVT ≠ o)
    (hf : POS_FREQ ≠ o) (ho : ¬ bellOff o) : (posFollow v period s).rd o = s.rd o :=
  (posEstimate_rd _ hf).trans (posBoundary_rd_ne v s h h4 he ho)

theorem posFollow_rd_boundary (v : Beat) (period : Nat) (s : State) {o : Nat} (hf : POS_FREQ ≠ o) :
    (posFollow v period s).rd o = (posBoundary v s).rd o := posEstimate_rd _ hf

theorem posFollow_beat (v : Beat) (period : Nat) (s : State) : (posFollow v period s).beat = v := by
  refine Eq.trans ?_ (posBoundary_beat v s)
  unfold State.beat
  rw [State.rd64_congr (posFollow_rd_boundary v period s (by decide)) (posFollow_rd_boundary v period s (by decide))]

theorem posFollow_pos (v : Beat) (period : Nat) (s : State) :
    (posFollow v period s).pos.ticks = 0 ∧ (posFollow v period s).pos.miss = 0 ∧ (posFollow v period s).pos.dataOut = posWord v ∧
      (posFollow v period s).pos.periods = (period :: s.pos.periods).take 1024 := by
  simp only [posFollow, posSlew, State.modPos_pos]
  rw [posEstimate_pos]
  simp [posAfter, posKeep]

/-- A boundary, after which registers and the unit's own state alone change. -/
theorem posBoundary_eqv_then {v : Beat} {s t : State} (h : t = { posBoundary v s with csr := t.csr, pos := t.pos }) :
    t = { s with csr := t.csr, pos := t.pos, bell := t.bell, outs := t.outs, tally := { s.tally with bounds := s.tally.bounds + 1 } } := by
  have hb := posBoundary_eqv v s
  generalize posBoundary v s = u at h hb
  rw [h, hb]

theorem posFollow_eqv (v : Beat) (period : Nat) (s : State) :
    State.fabPosTaken (posFollow v period s) =
      { posBoundary v s with csr := (State.fabPosTaken (posFollow v period s)).csr
                             pos := (State.fabPosTaken (posFollow v period s)).pos } := by
  have hest := posEstimate_eqv ((posBoundary v s).modPos
    (fun p => { p with miss := 0, badRun := false, periods := (period :: p.periods).take posKeep }))
  unfold posFollow posSlew State.fabPosTaken
  dsimp only
  generalize posEstimate _ = u at hest ⊢
  generalize posBoundary v s = y at hest ⊢
  rw [hest]
  rfl

/-! ### A forward step -/

/-- The boundary of a step, with the step counted. -/
def posStepped (v : Beat) (s : State) : State := (posBoundary v s).cntSat POS_REGR_CNT_STEPS 1

theorem posStep_rd (v : Beat) (s : State) {o : Nat} (he : POS_EVT ≠ o) (ho : plainOff o) : (posStep v s).rd o = (posStepped v s).rd o :=
  (posEvt_rd _ _ _ he ho.1).trans (State.report_rd_ledger _ _ _ _ (by decide) (by decide) ho.2)

theorem posStepped_rd (v : Beat) (s : State) {o : Nat} (ho : POS_REGR_CNT ≠ o) : (posStepped v s).rd o = (posBoundary v s).rd o :=
  State.rd_setF_ne _ _ _ _ ho

theorem posStep_beat (v : Beat) (s : State) : (posStep v s).beat = v := by
  have h : ∀ o, POS_EVT ≠ o → plainOff o → POS_REGR_CNT ≠ o → (posStep v s).rd o = (posBoundary v s).rd o := fun o he hp ho =>
    (posStep_rd v s he hp).trans (posStepped_rd v s ho)
  refine Eq.trans ?_ (posBoundary_beat v s)
  unfold State.beat
  rw [State.rd64_congr (h _ (by decide) (by decide) (by decide)) (h _ (by decide) (by decide) (by decide))]

theorem posBoundary_getF_regr (v : Beat) (s : State) {f : Fld} (hf : f.off = POS_REGR_CNT) : (posBoundary v s).getF f = s.getF f :=
  posBoundary_getF _ _ (by rw [hf]; decide) (by rw [hf]; decide) (by rw [hf]; decide) (by rw [hf]; decide)

theorem posStep_state (v : Beat) (s : State) : (posStep v s).getF POS_STAT_STATE = s.getF POS_STAT_STATE := by
  rw [State.getF_congr (posStep_rd v s (by decide) (by decide)), State.getF_congr (posStepped_rd v s (by decide)),
    posBoundary_getF _ _ (by decide) (by decide) (by decide) (by decide)]

theorem posStep_steps (v : Beat) (s : State) :
    (posStep v s).getF POS_REGR_CNT_STEPS = min (s.getF POS_REGR_CNT_STEPS + 1) 0xFFFF := by
  rw [State.getF_congr (posStep_rd v s (by decide) (by decide)), posStepped, State.getF_cntSat_same _ _ _ (by decide) (by decide),
    posBoundary_getF_regr v s rfl]
  rfl

theorem posStep_regressions (v : Beat) (s : State) :
    (posStep v s).getF POS_REGR_CNT_REGRESSIONS = s.getF POS_REGR_CNT_REGRESSIONS := by
  rw [State.getF_congr (posStep_rd v s (by decide) (by decide)), posStepped, State.cntSat,
    State.getF_setF_disj _ _ _ _ (by decide) (by decide) (by decide) (by decide), posBoundary_getF_regr v s rfl]

theorem posStep_posWork (v : Beat) (s : State) : PosWork s (posStep v s) := by
  have h : PosWork s (posStepped v s) := (posBoundary_posWork v s).setF (by decide)
  exact (h.report (by decide) (by decide)).evt (by decide)

/-! ### A regression -/

/-- A regression of the channels leads from `s` to `t`: the unit's registers hold but for the count of held channels, and so do memory
and the cores. -/
structure RegrWork (s t : State) : Prop where
  rd : ∀ o, o < 0x21000000 → o ≠ POS_STAT → t.rd o = s.rd o
  state : t.getF POS_STAT_STATE = s.getF POS_STAT_STATE
  mem : t.mem = s.mem
  cores : t.cores = s.cores

theorem RegrWork.refl (s : State) : RegrWork s s := ⟨fun _ _ _ => rfl, rfl, rfl, rfl⟩

theorem RegrWork.trans {s t u : State} (h : RegrWork s t) (g : RegrWork t u) : RegrWork s u :=
  ⟨fun o x y => (g.rd o x y).trans (h.rd o x y), g.state.trans h.state, g.mem.trans h.mem, g.cores.trans h.cores⟩

theorem ChanWork.regrWork {s t : State} (h : ChanWork s t) : RegrWork s t where
  rd o ho _ := h.rd o (by unfold keptOff; omega)
  state := State.getF_congr (h.rd _ (by decide))
  mem := h.mem
  cores := h.cores

theorem setF_regrWork {f : Fld} (s : State) (v : Nat) (h : 0x21000000 ≤ f.off) : RegrWork s (s.setF f v) where
  rd o ho _ := State.rd_setF_ne _ _ _ _ (by omega)
  state := State.getF_setF_ne _ _ _ _ (fun e => absurd (e ▸ h) (by decide))
  mem := State.setF_mem _ _ _
  cores := State.setF_cores _ _ _

theorem setF_held_regrWork (s : State) (v : Nat) : RegrWork s (s.setF POS_STAT_HELD v) where
  rd _ _ ho := State.rd_setF_ne _ _ _ _ (Ne.symm ho)
  state := State.getF_setF_disj _ _ _ _ (by decide) (by decide) (by decide) (by decide)
  mem := State.setF_mem _ _ _
  cores := State.setF_cores _ _ _

theorem holdChan_regrWork {n : Nat} (hn : n < 512) (s : State) : RegrWork s (holdChan n s) := by
  have hstat : 0x21000000 ≤ (CH_STAT_HELD n).off := by simp only [CH_STAT_HELD, CH_STAT]; omega
  have hheld : RegrWork s (chEvt n (CH_EVT_HELD n) (s.setF (CH_STAT_HELD n) 1)) :=
    (setF_regrWork s 1 hstat).trans (chEvt_chanWork hn rfl _).regrWork
  unfold holdChan
  split
  · exact .refl s
  · exact hheld.trans (setF_held_regrWork _ _)

theorem regressChan_regrWork {n : Nat} (hn : n < 512) (s : State) : RegrWork s (regressChan n s) := by
  have hcancel : RegrWork s (cancelSwitch n 1 6 (cancelSwitch n 0 6 s)) :=
    ((cancelSwitch_chanWork hn (by decide) _ _).trans (cancelSwitch_chanWork hn (by decide) _ _)).regrWork
  unfold regressChan
  dsimp only
  split
  · exact (hcancel.trans (holdChan_regrWork hn _)).trans (forcedRekey_chanWork hn _).regrWork
  · split
    · exact hcancel.trans (beginSwitch_chanWork hn _ _ _ _).regrWork
    · exact hcancel

theorem regressAll_regrWork (s : State) : RegrWork s (regressAll s) := by
  have hfold : ∀ (l : List Nat) (u : State), (∀ n ∈ l, n < 512) → RegrWork u (l.foldl (fun s n => regressChan n s) u) := by
    intro l
    induction l with
    | nil => exact fun u _ => .refl u
    | cons n l ih =>
      intro u hl
      obtain ⟨hn, hl⟩ := List.forall_mem_cons.mp hl
      exact (regressChan_regrWork hn u).trans (ih _ hl)
  exact (hfold _ s (fun _ => liveChans_lt s)).trans (commitT120_chanWork _).regrWork

/-- The boundary of a regression, counted and reported. -/
def posRegressed (v : Beat) (s : State) : State :=
  ((posBoundary v s).cntSat POS_REGR_CNT_REGRESSIONS 1).report unitPos 0x0103 noPath (posMoveData s.beat v)

/-- Every coalescing window ends at a beat (R509). -/
def coClosed (v : Beat) (s : State) : State :=
  { s with ledger := { s.ledger with co := s.ledger.co.map (fun e => { e with endBeat := v }) } }

theorem posRegress_eq (v : Beat) (s : State) : posRegress v s = regressAll (coClosed v (posEnter 3 (posRegressed v s))) := rfl

theorem posRegressed_rd (v : Beat) (s : State) {o : Nat} (ho : plainOff o) :
    (posRegressed v s).rd o = ((posBoundary v s).cntSat POS_REGR_CNT_REGRESSIONS 1).rd o :=
  State.report_rd_ledger _ _ _ _ (by decide) (by decide) ho.2

theorem posRegressed_posWork (v : Beat) (s : State) : PosWork s (posRegressed v s) := by
  have h : PosWork s ((posBoundary v s).cntSat POS_REGR_CNT_REGRESSIONS 1) := (posBoundary_posWork v s).setF (by decide)
  exact h.report (by decide) (by decide)

theorem posRegress_rd (v : Beat) (s : State) {o : Nat} (ho : o < 0x21000000) (hs : POS_STAT ≠ o) (he : POS_EVT ≠ o) :
    (posRegress v s).rd o = ((posBoundary v s).cntSat POS_REGR_CNT_REGRESSIONS 1).rd o := by
  have hp : plainOff o := by unfold plainOff bellOff; omega
  calc (posRegress v s).rd o
      = (coClosed v (posEnter 3 (posRegressed v s))).rd o := (regressAll_regrWork _).rd o ho (Ne.symm hs)
    _ = (posEnter 3 (posRegressed v s)).rd o := State.rd_of_csr rfl o
    _ = (posRegressed v s).rd o := posEnter_rd_ne _ _ hs he hp
    _ = _ := posRegressed_rd v s hp

theorem posRegress_beat (v : Beat) (s : State) : (posRegress v s).beat = v := by
  have h : ∀ o, o < 0x21000000 → POS_STAT ≠ o → POS_EVT ≠ o → POS_REGR_CNT ≠ o → (posRegress v s).rd o = (posBoundary v s).rd o :=
    fun o ho hs he hr => (posRegress_rd v s ho hs he).trans (State.rd_setF_ne _ _ _ _ hr)
  refine Eq.trans ?_ (posBoundary_beat v s)
  unfold State.beat
  rw [State.rd64_congr (h _ (by decide) (by decide) (by decide) (by decide)) (h _ (by decide) (by decide) (by decide) (by decide))]

theorem posRegress_regressions (v : Beat) (s : State) :
    (posRegress v s).getF POS_REGR_CNT_REGRESSIONS = min (s.getF POS_REGR_CNT_REGRESSIONS + 1) 0xFFFF := by
  rw [State.getF_congr (posRegress_rd v s (by decide) (by decide) (by decide)),
    State.getF_cntSat_same _ _ _ (by decide) (by decide), posBoundary_getF_regr v s rfl]
  rfl

theorem posRegress_state (v : Beat) (s : State) : (posRegress v s).getF POS_STAT_STATE = 3 := by
  rw [posRegress_eq, (regressAll_regrWork _).state]
  exact (State.getF_of_csr rfl _).trans (posEnter_state 3 _ (by decide))

theorem posRegress_isSet_regr {s : State} (v : Beat) (h : s.getF POS_STAT_STATE = 1) : (posRegress v s).isSet POS_EVT_REGR = true := by
  have hst : (posRegressed v s).getF POS_STAT_STATE = 1 := by
    rw [State.getF_congr (posRegressed_rd v s (by decide)), State.cntSat, State.getF_setF_ne _ _ _ _ (by decide),
      posBoundary_getF _ _ (by decide) (by decide) (by decide) (by decide), h]
  have hkeep : (posRegress v s).getF POS_EVT_REGR = (posEnter 3 (posRegressed v s)).getF POS_EVT_REGR :=
    (State.getF_congr ((regressAll_regrWork _).rd _ (by decide) (by decide))).trans (State.getF_of_csr rfl _)
  rw [State.isSet, hkeep]
  exact posEnter_regr_isSet (by omega)

theorem posRegress_kept (v : Beat) (s : State) : (posRegress v s).mem = s.mem ∧ (posRegress v s).cores = s.cores := by
  have hwork := (posRegressed_posWork v s).trans (posEnter_posWork 3 _)
  have hall := regressAll_regrWork (coClosed v (posEnter 3 (posRegressed v s)))
  exact ⟨hall.mem.trans (by rw [coClosed, hwork.eqv]), hall.cores.trans (by rw [coClosed, hwork.eqv])⟩

/-! ### The obligation -/

theorem missEnds_getF (s : State) (f : Fld) : s.missEnds.getF f = s.getF f := State.modPos_getF _ _ _

theorem posFollow_isSet_beat (v : Beat) (period : Nat) (s : State) : (posFollow v period s).isSet POS_EVT_BEAT = true := by
  rw [State.isSet, State.getF_congr (posFollow_rd_boundary _ _ _ (by decide))]
  exact posBoundary_isSet_beat v s

theorem posFollow_frac (v : Beat) (period : Nat) (s : State) : (posFollow v period s).getF POS_NOW_LO_FRAC = 0 :=
  (State.getF_congr (posFollow_rd_boundary _ _ _ (by decide))).trans (posBoundary_frac v s)

theorem posFollow_getF (v : Beat) (period : Nat) (s : State) {f : Fld} (hf : f.off = POS_STAT ∨ f.off = POS_CFG) :
    (posFollow v period s).getF f = s.getF f := by
  refine State.getF_congr (posFollow_rd _ _ _ ?_ ?_ ?_ ?_ ?_) <;> rcases hf with h | h <;> rw [h] <;> decide

theorem posFollow_regsIn (v : Beat) (period : Nat) (s : State) :
    RegsIn (fun o => o / 2 ^ 24 ≠ 0x20 && o / 2 ^ 24 ≠ 0x2A) s (posFollow v period s) := by
  intro o ho
  simp only [Bool.and_eq_true, decide_eq_true_eq] at ho
  have hne : ∀ r, r / 2 ^ 24 = 0x20 → r ≠ o := fun r hr e => ho.1 (e ▸ hr)
  exact posFollow_rd _ _ _ (hne _ (by decide)) (hne _ (by decide)) (hne _ (by decide)) (hne _ (by decide)) ho.2

/-- Settles O25: the number of the word is the unit's next beat, lies after it or before it. -/
theorem positionFollows : Obligations.PositionFollows := by
  intro s b p hst hsrc hwin hword hok
  have hexec := sourceBeat_pin hst hsrc hwin hword hok
  refine ⟨?_, ?_, ?_⟩
  · intro hv
    obtain ⟨hticks, hmiss, hdata, hperiods⟩ := posFollow_pos (s.beat + 1) b.period s
    have heqv := posBoundary_eqv_then (posFollow_eqv (s.beat + 1) b.period s)
    rw [hexec, if_pos hv, hv]
    refine ⟨_, rfl, ?_⟩
    simp only [RegsIn, State.fabPosTaken_beat, State.fabPosTaken_getF, State.fabPosTaken_isSet, State.fabPosTaken_rd]
    exact ⟨posFollow_beat _ _ _, posFollow_frac _ _ _, hticks, hmiss, rfl, posFollow_isSet_beat _ _ _,
      (posFollow_getF _ _ _ (.inl rfl)).trans hst, hdata, hperiods, posFollow_regsIn _ _ _, posFollow_getF _ _ _ (.inr rfl), heqv⟩
  · intro hlater
    have hne : b.v ≠ s.beat + 1 := by
      intro e
      rw [e] at hlater
      simp [beatBefore] at hlater
    have hwork := (PosWork.refl s).modPos (fun q => { q with miss := 0, badRun := false }) |>.trans (posStep_posWork b.v s.missEnds)
    have hparts : (posStep b.v s.missEnds).mem = s.mem ∧ (posStep b.v s.missEnds).cores = s.cores ∧
        (posStep b.v s.missEnds).chans = s.chans ∧ (posStep b.v s.missEnds).tack = s.tack := by
      rw [hwork.eqv]
      exact ⟨rfl, rfl, rfl, rfl⟩
    have hsteps := posStep_steps b.v s.missEnds
    have hregr := posStep_regressions b.v s.missEnds
    rw [missEnds_getF] at hsteps hregr
    rw [hexec, if_neg hne, if_pos hlater]
    refine ⟨_, rfl, ?_⟩
    simp only [State.fabPosTaken_beat, State.fabPosTaken_getF, State.fabPosTaken_isSet, State.fabPosTaken_mem, State.fabPosTaken_cores,
      State.fabPosTaken_chans, State.fabPosTaken_tack]
    exact ⟨posStep_beat _ _, (posStep_state _ _).trans ((missEnds_getF _ _).trans hst),
      posEvt_isSet _ _ _ rfl (by decide) (by decide), hsteps, hregr, hparts⟩
  · intro hne hlater
    obtain ⟨hmem, hcores⟩ := posRegress_kept b.v s.missEnds
    have hregr := posRegress_regressions b.v s.missEnds
    rw [missEnds_getF] at hregr
    rw [hexec, if_neg hne, hlater, if_neg Bool.false_ne_true]
    refine ⟨_, rfl, ?_⟩
    simp only [State.fabPosTaken_beat, State.fabPosTaken_getF, State.fabPosTaken_isSet, State.fabPosTaken_mem, State.fabPosTaken_cores]
    exact ⟨posRegress_beat _ _, hregr, posRegress_state _ _, posRegress_isSet_regr _ ((missEnds_getF _ _).trans hst),
      hmem.trans (State.modPos_mem _ _), hcores.trans (State.modPos_cores _ _)⟩

end Sys2Proof.Machine

/-!
O49. The refutation: the switch of the filled spare slot to next clears the replay entry of the slot's AN (R154), and the model takes that AN
as any number. With AN 91 the entry lies over the session's counters.
-/

namespace Sys2Proof.Machine

/-! ### A message that passes its checks (R251) -/

/-- The message's number is noted, on its stream and in the register of the stream (R251). -/
def brSeen (m : BrIn) (s : State) : State :=
  let seq := be m.bytes 12 4
  let stream := at' m.bytes 8 / 32 % 4
  let s := s.modBr m.ch (fun b => { b with rxSeq := tblSet 0 (stream + 4 * m.path) seq b.rxSeq })
  if (s.rd (BR_RX_SEQ m.ch (stream % 3))).toNat < seq then s.wr (BR_RX_SEQ m.ch (stream % 3)) (BitVec.ofNat 32 seq) else s

theorem brSeen_chTwin (m : BrIn) (s : State) : (brSeen m s).chTwin m.ch = s.chTwin m.ch := by
  have hne : ∀ i, BR_RX_SEQ m.ch i ≠ (CH_CFG_TWIN m.ch).off := by
    intro i
    simp only [BR_RX_SEQ, CH_CFG_TWIN, CH_CFG]
    omega
  unfold brSeen State.chTwin State.isSet
  extract_lets seq stream u
  split
  · rw [State.getF_congr (State.rd_wr_ne _ _ _ _ (hne _))]
    rfl
  · rfl

/-- A tagged message that passes its checks is noted, counted and acted on. -/
theorem brTake_passed {typ : Nat} {s u : State} {k : BrIn → State → State} {m : BrIn} {rest : List BrIn} (hin : s.brIn = m :: rest)
    (hu : { s with brIn := rest } = u) (hp : Passes u m typ = true) (htag : Tagged u m = true) (hne : typ ≠ brHello)
    (htwin : u.chTwin m.ch = false) : brTake typ s k = k m (brCnt m.ch 1 (brSeen m u)) := by
  have htag' : brTag u m.ch (m.bytes.take (m.bytes.length - 16)) = m.bytes.drop (m.bytes.length - 16) := of_decide_eq_true htag
  simp only [Passes, Bool.and_eq_true, decide_eq_true_eq, Bool.not_eq_true', hne, decide_false, Bool.false_and,
    Bool.or_false, Bool.false_or] at hp
  obtain ⟨⟨⟨⟨⟨⟨htyp, hruns⟩, hpeer⟩, hto⟩, hrole⟩, hsid⟩, hnew⟩ := hp
  unfold brTake
  rw [hin]
  dsimp only
  rw [if_neg (not_not_intro htyp), hu, if_neg (by simp [hruns, hpeer, hto]), if_neg (by simp [hrole]), if_neg (not_not_intro htag'),
    if_neg (by simp [hsid]), if_neg (by simp [hne, hnew])]
  have h : (brSeen m u).chTwin m.ch = false := (brSeen_chTwin m u).trans htwin
  change k m (brCnt m.ch 1 (if (brSeen m u).chTwin m.ch = true then pathLive m.ch m.path (brSeen m u) else brSeen m u)) = _
  rw [h, if_neg Bool.false_ne_true]

/-- A KEY_CONFIRM that answers this end's exchange moves the filled spare slot to next (R256). -/
theorem keyConfirm_matches {s u v : State} {m : BrIn} {rest : List BrIn} {x : Exch} {n : Nat} (hin : s.brIn = m :: rest) (hn : m.ch = n)
    (hu : { s with brIn := rest } = u) (hp : Passes u m brKeyConfirm = true) (htag : Tagged u m = true) (htwin : u.chTwin n = false)
    (hv : brCnt n 1 (brSeen m u) = v) (hup : v.brUp n = true) (htwin' : v.chTwin n = false)
    (hx : (v.chan n).br.exch = some x) (hsent : x.sent = true) (hepoch : x.epoch = mBe m 0 4)
    (hbody : slice m.bytes 32 52 = confirmBody v n x.epoch (!v.roleB n) (transcript x.offer x.accept)) :
    exec .bridleKeyConfirmRx s = .next (spareToNext n (brCnt n 7
      (((v.modBr n (fun b => { b with exch := none, confirmFails := 0, first := false })).setF (BR_STAT_EXCH n) 0).setF
        (BR_STAT_TRIES n) 0))) := by
  subst hn
  rw [exec_bridleKeyConfirmRx, execBridleKeyConfirmRx, brTake_passed hin hu hp htag (by decide) htwin, hv]
  simp only [hup, htwin', hx, hsent, hepoch, Bool.not_true, Bool.false_and, Bool.or_self, Bool.false_eq_true, if_false, decide_true,
    Bool.true_and, decide_eq_true_eq]
  rw [hepoch] at hbody
  rw [if_pos hbody]

/-! ### The counterexample -/

/-- The initiator's exchange, its secrets deposited. -/
def an91Exch : Exch := { epoch := 0, initiator := true, seed := 0, offer := [0], accept := [], ss := [], sent := true, tries := 0 }

/-- A filled spare slot with AN 91. -/
def an91Slot : Slot := { kind := 1, bytes := [], epoch := 0, an := 91, keyId := [], persist := false, bad := false }

/-- Channel 0 in frame mode, OPEN with its session UP, slot 0 its spare. -/
def an91Base : State :=
  (((((((State.reset.setF (CH_CFG_STATE 0) 1).setF (CH_CFG_MODE 0) 0).setF (CH_STAT_LEASE 0) 1).setF (BR_CFG_EN 0) 1).setF (BR_STAT_STATE 0) 2).setF
    (KB_ROLES_SPARE_V 0 0) 1).setSlot 0 an91Slot).modBr 0 (fun b => { b with exch := some an91Exch })

/-- The peer's KEY_CONFIRM before its tag: header and body. -/
def an91Words : List Byte :=
  [1, 7, 0, 52, 0, 0, 0, 0, 128, 0, 0, 0, 0, 0, 0, 1] ++ zeros 16 ++
    confirmBody an91Base 0 an91Exch.epoch true (transcript an91Exch.offer an91Exch.accept)

/-- The message as it is received. -/
def an91Msg : BrIn := { ch := 0, path := 0, bytes := an91Words ++ brTag an91Base 0 an91Words }

/-- The state in which it waits. -/
def an91State : State := { an91Base with brIn := [an91Msg] }

/-- The state once it has left the queue. -/
def an91Rest : State := { an91State with brIn := [] }

/-- The state in which it has been counted. -/
def an91Counted : State := brCnt 0 1 (brSeen an91Msg an91Rest)

/-- The state the KEY_CONFIRM leads to. -/
def an91Next : State :=
  spareToNext 0 (brCnt 0 7 (((an91Counted.modBr 0 (fun b => { b with exch := none, confirmFails := 0, first := false })).setF
    (BR_STAT_EXCH 0) 0).setF (BR_STAT_TRIES 0) 0))

theorem leBytes_length (n v : Nat) : (leBytes n v).length = n := by
  induction n generalizing v with
  | zero => rfl
  | succ n ih => simp [leBytes, ih]

theorem beBytes_length (n v : Nat) : (beBytes n v).length = n := by rw [beBytes, List.length_reverse, leBytes_length]

theorem confirmBody_length (s : State) (n epoch : Nat) (roleB : Bool) (th : List Byte) : (confirmBody s n epoch roleB th).length = 52 := by
  simp [confirmBody, beBytes_length]

theorem brTag_length (s : State) (n : Nat) (m : List Byte) : (brTag s n m).length = 16 := by simp [brTag, beBytes_length]

theorem an91State_passes : Passes an91State an91Msg brKeyConfirm = true := by decide +kernel

theorem an91Rest_passes : Passes an91Rest an91Msg brKeyConfirm = true := by decide +kernel

theorem brTag_brIn (s : State) (q : List BrIn) (n : Nat) (m : List Byte) : brTag { s with brIn := q } n m = brTag s n m := rfl

theorem an91State_brTag : brTag an91State 0 an91Words = brTag an91Base 0 an91Words := brTag_brIn an91Base [an91Msg] 0 an91Words

theorem an91Rest_brTag : brTag an91Rest 0 an91Words = brTag an91Base 0 an91Words :=
  (brTag_brIn an91State [] 0 an91Words).trans an91State_brTag

theorem an91Msg_tagged {s : State} (htag : brTag s 0 an91Words = brTag an91Base 0 an91Words) : Tagged s an91Msg = true := by
  have hlen : an91Msg.bytes.length - 16 = an91Words.length := by simp [an91Msg, brTag_length]
  have htake : an91Msg.bytes.take (an91Msg.bytes.length - 16) = an91Words := by
    rw [hlen]
    exact List.take_left
  have hdrop : an91Msg.bytes.drop (an91Msg.bytes.length - 16) = brTag an91Base 0 an91Words := by
    rw [hlen]
    exact List.drop_left
  exact decide_eq_true (by rw [htake, hdrop]; exact htag)

theorem confirmBody_congr {s t : State} (h : t.tack = s.tack) (n epoch : Nat) (roleB : Bool) (th : List Byte) :
    confirmBody t n epoch roleB th = confirmBody s n epoch roleB th := by
  unfold confirmBody
  rw [h]

/-- The body is the one the peer, of role B, confirms with, in every state with the same secrets. -/
theorem an91Msg_body {s : State} (htack : s.tack = an91Base.tack) (hrole : s.roleB 0 = false) :
    slice an91Msg.bytes 32 52 = confirmBody s 0 an91Exch.epoch (!s.roleB 0) (transcript an91Exch.offer an91Exch.accept) := by
  have hbytes : an91Msg.bytes = ([1, 7, 0, 52, 0, 0, 0, 0, 128, 0, 0, 0, 0, 0, 0, 1] ++ zeros 16) ++
      (confirmBody an91Base 0 an91Exch.epoch true (transcript an91Exch.offer an91Exch.accept) ++ brTag an91Base 0 an91Words) := by
    rw [an91Msg, an91Words, List.append_assoc]
  rw [confirmBody_congr htack, hrole, Bool.not_false, slice, hbytes, List.drop_left' (by rfl),
    List.take_left' (confirmBody_length _ _ _ _ _)]
  simp [zeros, brTag_length, confirmBody_length]

theorem brSeen_tack (m : BrIn) (s : State) : (brSeen m s).tack = s.tack := by
  unfold brSeen
  extract_lets seq stream u
  split <;> rfl

theorem an91Counted_tack : an91Counted.tack = an91Base.tack := brSeen_tack an91Msg an91Rest

theorem an91Counted_exch : (an91Counted.chan 0).br.exch = some an91Exch := by decide +kernel

theorem exec_an91State : exec .bridleKeyConfirmRx an91State = .next an91Next :=
  keyConfirm_matches (u := an91Rest) (v := an91Counted) (m := an91Msg) (x := an91Exch) (n := 0) rfl rfl rfl an91Rest_passes
    (an91Msg_tagged an91Rest_brTag) (by decide +kernel) rfl (by decide +kernel) (by decide +kernel) an91Counted_exch rfl
    (by decide +kernel) (an91Msg_body an91Counted_tack (by decide +kernel))

/-- The counter of exchanges reads 0 after the KEY_CONFIRM and before it: the replay entry of AN 91 lies over it. -/
theorem an91Next_exchanges : an91Next.rd64 (BR_CNT 0 14) = 0 ∧ an91State.rd64 (BR_CNT 0 14) = 0 := by decide +kernel

/-- Refutes O49: an exchange confirmed for a slot of AN 91 leaves the counter of exchanges done at 0, where KEY_CONFIRM's clause asks one
more. -/
theorem not_bridleReceives : ¬ Obligations.BridleReceives := by
  intro h
  obtain ⟨-, -, -, -, -, -, -, -, -, hconfirm, -⟩ := h an91State ⟨0, by decide⟩ an91Msg [] 0 0 an91Exch
    { epoch := 0, beat := 0, sent := false, acked := false, markDone := false, late := false, host := false } 0
  dsimp only at hconfirm
  have hhead : decide (an91State.brIn = [an91Msg]) = true := decide_eq_true rfl
  have hfrom : (decide (an91State.brIn = [an91Msg]) && decide (an91Msg.ch = 0) && !an91State.chTwin 0 &&
      Passes an91State an91Msg brKeyConfirm) = true := by
    rw [an91State_passes, hhead]
    decide +kernel
  have hmatch : (an91Exch.sent && decide (an91Exch.epoch = be an91Msg.bytes 32 4) && decide (slice an91Msg.bytes 32 52 =
      confirmBody an91State 0 an91Exch.epoch (!an91State.roleB 0) (transcript an91Exch.offer an91Exch.accept))) = true := by
    rw [decide_eq_true (an91Msg_body (s := an91State) rfl (by decide +kernel))]
    decide +kernel
  obtain ⟨t, ht, -, htaken⟩ := hconfirm hfrom (by decide +kernel) (by decide +kernel) (by decide +kernel) rfl (by decide) (by decide +kernel)
  rw [exec_an91State] at ht
  obtain rfl : an91Next = t := by injection ht
  rw [if_pos (an91Msg_tagged an91State_brTag), if_pos hmatch] at htaken
  obtain ⟨-, -, -, -, -, -, -, -, -, hcount, -⟩ := htaken
  obtain ⟨hafter, hbefore⟩ := an91Next_exchanges
  rw [hafter, hbefore] at hcount
  exact absurd hcount (by decide)

end Sys2Proof.Machine

/-!
SUPPORT. The merge of a Twin-mode channel in cell mode: what it releases and reassembles leaves the ports' cells alone.
-/

namespace Sys2Proof.Machine

section
variable {n : Nat}

theorem chOutStat_not_kept (hn : n < 512) {i : Nat} (hi : i < 64) : ¬ keptOff (CH_OUT_STAT n i) ∧ ¬ keptOff (CH_OUT_STAT n i + 4) := by
  unfold keptOff CH_OUT_STAT; omega
theorem chInStat_not_kept (hn : n < 512) {i : Nat} (hi : i < 63) : ¬ keptOff (CH_IN_STAT n i) ∧ ¬ keptOff (CH_IN_STAT n i + 4) := by
  unfold keptOff CH_IN_STAT; omega
theorem chRefuse_not_kept (hn : n < 512) {i : Nat} (hi : i < 63) : ¬ keptOff (CH_REFUSE n i) ∧ ¬ keptOff (CH_REFUSE n i + 4) := by
  unfold keptOff CH_REFUSE; omega
theorem twcCnt_not_kept (hn : n < 512) {i : Nat} (hi : i < 16) : ¬ keptOff (TWC_CNT n i) ∧ ¬ keptOff (TWC_CNT n i + 4) := by
  unfold keptOff TWC_CNT; omega
theorem twcStat_not_kept (hn : n < 512) : ¬ keptOff (TWC_STAT n) := by unfold keptOff TWC_STAT; omega
theorem twcRelEpoch_not_kept (hn : n < 512) : ¬ keptOff (TWC_REL_EPOCH n) := by unfold keptOff TWC_REL_EPOCH; omega
theorem twcRelAsn_not_kept (hn : n < 512) : ¬ keptOff (TWC_REL_ASN_LO n) ∧ ¬ keptOff (TWC_REL_ASN_LO n + 4) := by
  unfold keptOff TWC_REL_ASN_LO; omega

theorem ChanWork.emit {s t : State} (h : ChanWork s t) (x : Output) : ChanWork s (t.emit x) := h.trans ⟨fun _ _ => rfl, rfl⟩

theorem ChanWork.fab {s t : State} (h : ChanWork s t) (x : Fabric) : ChanWork s { t with fab := x } := h.trans ⟨fun _ _ => rfl, rfl⟩

theorem fabEvt_chanWork (i code data : Nat) (s : State) : ChanWork s (fabEvt i code data s) := by
  have hline : ChanWork s (fabLine i (s.setF ⟨FAB_EVT, i, i⟩ 1)) :=
    ((ChanWork.refl s).setF (by simp only [FAB_EVT]; decide)).trans (bellInput_quiet _ _ _).chanWork
  exact .ite hline (hline.trans (report_quiet _ _ _ _ _).chanWork)

theorem fabSend_chanWork (dst typ status tag addr : Nat) (body : List Byte) (s : State) :
    ChanWork s (fabSend dst typ status tag addr body s) := by
  unfold fabSend
  extract_lets vc key een
  split
  · exact .refl s
  · split
    · exact fabEvt_chanWork _ _ _ s
    · exact ((ChanWork.refl s).fab _).trans (zSend_linkWork _ _ _ _).chanWork

theorem plainOut_chanWork (n : Nat) (f : List Byte) (stomp : Bool) (s : State) : ChanWork s (plainOut n f stomp s) := by
  unfold plainOut
  extract_lets f1 f2 b
  split
  · exact fabSend_chanWork _ _ _ _ _ _ s
  · exact (ChanWork.refl s).emit _

theorem inStat_chanWork (hn : n < 512) {i : Nat} (hi : i < 8) (k : Nat) (s : State) : ChanWork s (inStat n i k s) :=
  (ChanWork.refl s).wr64 (chInStat_not_kept hn (by omega)).1 (chInStat_not_kept hn (by omega)).2

theorem releaseFrame_chanWork (hn : n < 512) (f : List Byte) (s : State) : ChanWork s (releaseFrame n f s) :=
  (((plainOut_chanWork n f false s).modChan n _).trans (inStat_chanWork hn (by decide) _ _)).trans (inStat_chanWork hn (by decide) _ _)

theorem reasmShow_chanWork (hn : n < 512) (s : State) : ChanWork s (reasmShow n s) :=
  (ChanWork.refl s).wr64 (chModeW2_not_kept hn).1 (chModeW2_not_kept hn).2

theorem dropReasm_chanWork (hn : n < 512) (s : State) : ChanWork s (dropReasm n s) :=
  ((ChanWork.ite (plainOut_chanWork _ _ _ s) (.refl s)).modChan n _).trans (reasmShow_chanWork hn _)

theorem endPiece_chanWork (hn : n < 512) (abort : Bool) (p : List Byte) (s : State) : ChanWork s (endPiece n abort p s) := by
  have h : ChanWork s (s.modCell n (fun c => { c with reasm := [], discard := false })) := (ChanWork.refl s).modChan n _
  exact .ite h (.ite (.ite (h.trans (plainOut_chanWork _ _ _ _)) h) (h.trans (releaseFrame_chanWork hn _ _)))

theorem reassemble_chanWork (hn : n < 512) (u : HeldUnit) (s : State) : ChanWork s (reassemble n u s) := by
  have hend : ∀ (c : Prop) [Decidable c] (a : Bool) (p : List Byte) (t : State), ChanWork t (if c then t else endPiece n a p t) :=
    fun c _ a p t => .ite (.refl t) (endPiece_chanWork hn a p t)
  unfold reassemble
  extract_lets b used e0 e1 pay inOrder s1 s2 s3 s4 from' rest
  have h1 : ChanWork s s1 := .ite (.refl s) (dropReasm_chanWork hn s)
  have h4 : ChanWork s s4 := ((h1.modChan n _).trans (hend _ _ _ _)).trans (hend _ _ _ _)
  exact (ChanWork.ite h4 (h4.modChan n _)).trans (reasmShow_chanWork hn _)

theorem setRel_chanWork (hn : n < 512) (e : Nat) (a : DWord) (s : State) : ChanWork s (setRel n e a s) :=
  ((ChanWork.refl s).wr (twcRelEpoch_not_kept hn)).wr64 (twcRelAsn_not_kept hn).1 (twcRelAsn_not_kept hn).2

theorem twCnt_chanWork (hn : n < 512) {i : Nat} (hi : i < 8) (s : State) : ChanWork s (twCnt n i s) :=
  (ChanWork.refl s).wr64 (twcCnt_not_kept hn (by omega)).1 (twcCnt_not_kept hn (by omega)).2

theorem mergeLost_chanWork (hn : n < 512) (k : Nat) (s : State) : ChanWork s (mergeLost n k s) := by
  have h : ChanWork s (s.cnt64 (CH_REFUSE n 28) k) :=
    (ChanWork.refl s).wr64 (chRefuse_not_kept hn (by decide)).1 (chRefuse_not_kept hn (by decide)).2
  exact .ite (.refl s) (h.trans ((report_quiet _ _ _ _ _).trans (bellPulse_quiet _ _)).chanWork)

theorem mergeOut_chanWork (hn : n < 512) (u : HeldUnit) (s : State) : ChanWork s (mergeOut n u reassemble s) := by
  have hcnt : ∀ t, ChanWork t (twCnt n (if u.path = 2 then 5 else 4) t) := fun t => twCnt_chanWork hn (by split <;> decide) t
  exact ((((ChanWork.refl s).modChan n _).trans (hcnt _)).trans (setRel_chanWork hn _ _ _)).trans (reassemble_chanWork hn u _)

theorem mergeRun_chanWork (hn : n < 512) (k : Nat) (s : State) : ChanWork s (mergeRun reassemble n k s) := by
  induction k generalizing s with
  | zero => exact .refl s
  | succ k ih =>
    unfold mergeRun
    split
    · exact .refl s
    · split
      · split
        · exact (((ChanWork.refl s).modChan n _).trans (mergeOut_chanWork hn _ _)).trans (ih _)
        · exact .refl s
      · split
        · exact ((mergeLost_chanWork hn _ s).trans (setRel_chanWork hn _ _ _)).trans (ih _)
        · exact .refl s

theorem mergeGo_chanWork (hn : n < 512) (s : State) : ChanWork s (mergeGo reassemble n s) :=
  (mergeRun_chanWork hn _ s).setF (by decide)

theorem pathLostBit_not_kept (hn : n < 512) (p : Nat) : ¬ keptOff (pathLostBit n p).off := by
  unfold pathLostBit
  split
  · exact twcStat_not_kept hn
  · exact twcStat_not_kept hn

theorem cellPathsLost_chanWork (c : Nat) (s : State) : ChanWork s (cellPathsLost c s) :=
  ChanWork.foldl _ (fun u m hm => by
    have hn : m < 512 := liveChans_lt s (List.mem_of_mem_filter hm)
    exact ((ChanWork.refl u).setF (pathLostBit_not_kept hn _)).trans (mergeGo_chanWork hn _)) s

end

end Sys2Proof.Machine

/-!
O44, the ports' side: the calendar's switch, the wrap hold and the delineation of received headers (R170, R173, R184).
-/

namespace Sys2Proof.Machine

/-! ### Port records -/

@[simp] theorem State.port_modPort_same (s : State) (k : Nat) (f : Port → Port) : (s.modPort k f).port k = f (s.port k) := by
  unfold State.port State.modPort
  rw [tblGet_tblSet _ _ _ _ _ _ (fun _ => rfl), if_pos rfl]
  rfl

@[simp] theorem State.modPort_rd (s : State) (k : Nat) (f : Port → Port) (o : Nat) : (s.modPort k f).rd o = s.rd o := (rfl)
@[simp] theorem State.modPort_getF (s : State) (k : Nat) (f : Port → Port) (g : Fld) : (s.modPort k f).getF g = s.getF g := (rfl)
@[simp] theorem State.modPort_isSet (s : State) (k : Nat) (f : Port → Port) (g : Fld) : (s.modPort k f).isSet g = s.isSet g := (rfl)
@[simp] theorem State.port_setF (s : State) (f : Fld) (v k : Nat) : (s.setF f v).port k = s.port k := (rfl)
@[simp] theorem State.port_cnt (s : State) (f : Fld) (v k : Nat) : (s.cnt f v).port k = s.port k := (rfl)

theorem State.port_congr {s t : State} (h : t.ports = s.ports) (k : Nat) : t.port k = s.port k := by unfold State.port; rw [h]

/-- A word that counts as one field reads one more. -/
theorem State.rd_cnt_word (s : State) (o : Nat) : (s.cnt ⟨o, 31, 0⟩ 1).rd o = s.rd o + 1 := by
  have hset : ∀ (v : Nat) (w : Word), fldSet 31 0 v w = BitVec.ofNat 32 v := by
    intro v w
    have hw := w.isLt
    apply BitVec.eq_of_toNat_eq
    simp only [fldSet, BitVec.toNat_ofNat]
    omega
  have hget : s.getF ⟨o, 31, 0⟩ = (s.rd o).toNat := by
    have hw := (s.rd o).isLt
    simp only [State.getF, fldGet]
    omega
  rw [State.cnt, State.setF, State.rd_wr_same, hset, hget]
  apply BitVec.eq_of_toNat_eq
  simp

theorem State.getF_setF_bit (s : State) (f : Fld) (v : Nat) (h : f.lo = f.hi) (h32 : f.hi < 32) : (s.setF f v).getF f = v % 2 := by
  rw [State.getF_setF_same _ _ _ (Nat.le_of_eq h) h32, show f.hi + 1 - f.lo = 1 by omega, pow_one]

/-- Registers and port records alone lead from `s` to `t`. -/
abbrev PortWork (s t : State) : Prop := t = { s with csr := t.csr, ports := t.ports }

theorem PortWork.trans {s t u : State} (h : PortWork s t) (g : PortWork t u) : PortWork s u := by
  unfold PortWork at *
  rw [g, h]

theorem setF_portWork (s : State) (f : Fld) (v : Nat) : PortWork s (s.setF f v) := rfl

theorem cnt_portWork (s : State) (f : Fld) (v : Nat) : PortWork s (s.cnt f v) := rfl

theorem modPort_portWork (s : State) (k : Nat) (f : Port → Port) : PortWork s (s.modPort k f) := rfl

/-! ### The calendar (R173) -/

theorem gapRefresh_eqv (n : Nat) (s : State) : gapRefresh n s = { s with csr := (gapRefresh n s).csr } := by
  unfold gapRefresh
  split <;> rfl

theorem gapRefresh_rd {n : Nat} (hn : n < 512) (s : State) {o : Nat} (ho : 0x22200000 ≤ o) : (gapRefresh n s).rd o = s.rd o := by
  unfold gapRefresh
  split
  · exact State.rd_setF_ne _ _ _ _ (by simp only [CELL_POL_HI_GAP, CELL_POL_HI]; omega)
  · rfl

/-- GAP is shown beside the channels: no register of a port's cells changes. -/
theorem gapRefreshPort_spec (c : Nat) (s : State) :
    (∀ o, 0x22200000 ≤ o → (gapRefreshPort c s).rd o = s.rd o) ∧ gapRefreshPort c s = { s with csr := (gapRefreshPort c s).csr } := by
  have hfold : ∀ (l : List Nat) (u : State), (∀ n ∈ l, n < 512) →
      (∀ o, 0x22200000 ≤ o → (l.foldl (fun s n => gapRefresh n s) u).rd o = u.rd o) ∧
        l.foldl (fun s n => gapRefresh n s) u = { u with csr := (l.foldl (fun s n => gapRefresh n s) u).csr } := by
    intro l
    induction l with
    | nil => exact fun u _ => ⟨fun _ _ => rfl, rfl⟩
    | cons n l ih =>
      intro u hl
      obtain ⟨hn, hl⟩ := List.forall_mem_cons.mp hl
      obtain ⟨hrd, heqv⟩ := ih (gapRefresh n u) hl
      refine ⟨fun o ho => (hrd o ho).trans (gapRefresh_rd hn u ho), ?_⟩
      rw [List.foldl_cons, heqv, gapRefresh_eqv n u]
  exact hfold _ s (fun n hn => liveChans_lt s (List.mem_of_mem_filter hn))

theorem gapRefreshPort_ports (c : Nat) (s : State) : (gapRefreshPort c s).ports = s.ports := by rw [(gapRefreshPort_spec c s).2]

theorem gapRefreshPort_portWork (c : Nat) (s : State) : PortWork s (gapRefreshPort c s) := by
  unfold PortWork
  rw [(gapRefreshPort_spec c s).2]

/-- The port with its armed calendar active from slot `base` on. -/
def calActive (c cal base : Nat) (s : State) : State :=
  ((s.modPort (32 + c) (fun p => { p with calPrev := p.calBase, calBase := base, calArm := none })).setF (CELL_PORT_CFG_ACTIVE c) cal).setF
    (CELL_PORT_CFG_ARMED c) 0

theorem calActive_portWork (c cal base : Nat) (s : State) : PortWork s (calActive c cal base s) :=
  ((modPort_portWork s _ _).trans (setF_portWork _ _ _)).trans (setF_portWork _ _ _)

theorem calActive_port (c cal base : Nat) (s : State) : (calActive c cal base s).port (32 + c) =
    { s.port (32 + c) with calPrev := (s.port (32 + c)).calBase, calBase := base, calArm := none } := by
  rw [calActive, State.port_setF, State.port_setF, State.port_modPort_same]

theorem calActive_getF (c cal base : Nat) (s : State) :
    (calActive c cal base s).getF (CELL_PORT_CFG_ACTIVE c) = cal % 2 ∧ (calActive c cal base s).isSet (CELL_PORT_CFG_ARMED c) = false := by
  have h9 : (CELL_PORT_CFG_ARMED c).hi < 32 := show 9 < 32 by decide
  refine ⟨?_, State.isSet_setF_bit_zero _ _ rfl h9⟩
  rw [calActive, State.getF_setF_disj _ _ _ _ le_rfl h9 le_rfl (.inr (.inl (show 8 < 9 by decide)))]
  exact State.getF_setF_bit _ _ _ rfl (show 8 < 32 by decide)

theorem calendarSwitch_due {s : State} {p : Fin 32} {b : Beat} {cal : Nat} (harm : (s.port (32 + p.val)).calArm = some (b, cal))
    (hdue : s.beatDue b = true) : Completes (execCalendarSwitch p s) fun t =>
      t.getF (CELL_PORT_CFG_ACTIVE p.val) = cal % 2 ∧ t.isSet (CELL_PORT_CFG_ARMED p.val) = false ∧
      t.port (32 + p.val) = { s.port (32 + p.val) with calPrev := (s.port (32 + p.val)).calBase, calBase := b.toNat * s.spb p.val, calArm := none } ∧
      PortWork s t := by
  have hexec : execCalendarSwitch p s = .next (gapRefreshPort p.val (calActive p.val cal (b.toNat * s.spb p.val) s)) := by
    unfold execCalendarSwitch
    dsimp only
    rw [harm]
    exact if_pos hdue
  have hoff : 0x22200000 ≤ CELL_PORT_CFG p.val := by unfold CELL_PORT_CFG; omega
  obtain ⟨hactive, harmed⟩ := calActive_getF p.val cal (b.toNat * s.spb p.val) s
  have hrd := (gapRefreshPort_spec p.val (calActive p.val cal (b.toNat * s.spb p.val) s)).1 _ hoff
  refine ⟨_, hexec, (State.getF_congr (f := CELL_PORT_CFG_ACTIVE p.val) hrd).trans hactive, ?_, ?_, ?_⟩
  · rw [State.isSet, State.getF_congr (f := CELL_PORT_CFG_ARMED p.val) hrd]
    exact harmed
  · rw [State.port_congr (gapRefreshPort_ports p.val (calActive p.val cal (b.toNat * s.spb p.val) s)), calActive_port]
  · exact (calActive_portWork _ _ _ s).trans (gapRefreshPort_portWork _ _)

/-! ### The wrap hold (R170) -/

@[simp] theorem freeSlot_chans (j : Nat) (s : State) : (freeSlot j s).chans = s.chans := by
  rw [freeSlot, slotsRefresh, State.setF_chans]

theorem foldl_chans {α : Type} {f : State → α → State} (hf : ∀ u a, (f u a).chans = u.chans) (l : List α) (s : State) :
    (l.foldl f s).chans = s.chans := by
  induction l generalizing s with
  | nil => rfl
  | cons a l ih => exact (ih _).trans (hf s a)

@[simp] theorem reapSlots_chans (n : Nat) (s : State) : (reapSlots n s).chans = s.chans :=
  foldl_chans (fun u i => by split <;> simp) _ s

@[simp] theorem setSpare_chans (n : Nat) (i : Option Nat) (s : State) : (setSpare n i s).chans = s.chans :=
  foldl_chans (fun u d => by cases i <;> simp) _ s

@[simp] theorem dropSpare_chans (n : Nat) (s : State) : (dropSpare n s).chans = s.chans := by
  unfold dropSpare
  split <;> simp

@[simp] theorem dropNext_chans (n : Nat) (s : State) : (dropNext n s).chans = s.chans :=
  (reapSlots_chans n _).trans (foldl_chans (fun u d => by simp) _ s)

theorem takeSpare_chans (n : Nat) (s : State) :
    (takeSpare n s).2.chans = s.chans ∧ ∀ i t, (takeSpare n s).1 = some (i, t) → t.chans = s.chans := by
  unfold takeSpare
  split
  · refine ⟨rfl, fun i t h => ?_⟩
    cases h
    rfl
  · split
    · refine ⟨setSpare_chans .., fun i t h => ?_⟩
      cases h
      exact setSpare_chans ..
    · exact ⟨by simp, fun i t h => nomatch h⟩

theorem State.chan_congr {s t : State} (h : t.chans = s.chans) (n : Nat) : t.chan n = s.chan n := by unfold State.chan; rw [h]

@[simp] theorem State.chan_setF (s : State) (f : Fld) (v n : Nat) : (s.setF f v).chan n = s.chan n :=
  State.chan_congr (State.setF_chans _ _ _) n

@[simp] theorem State.chan_modChan_same (s : State) (n : Nat) (f : Chan → Chan) : (s.modChan n f).chan n = f (s.chan n) := by
  unfold State.chan State.modChan
  rw [tblGet_tblSet _ _ _ _ _ _ (fun _ => rfl), if_pos rfl]
  rfl

/-- An exchange that begins changes the channel's session alone. -/
theorem startExchange_forced (n : Nat) (s : State) : ((startExchange n s).chan n).forced = (s.chan n).forced := by
  obtain ⟨hfull, hspare⟩ := takeSpare_chans n s
  unfold startExchange
  split
  · split
    next i t r heq =>
      have ht : t.chan n = s.chan n := State.chan_congr (hspare i t (by rw [heq])) n
      dsimp only
      rw [State.chan_setF, State.chan_setF, State.modBr, State.chan_modChan_same, ht]
    next t heq =>
      rw [heq] at hfull
      rw [State.chan_congr hfull]
  · rfl

theorem forcedRekey_forced (n : Nat) (s : State) : ((forcedRekey n s).chan n).forced = true := by
  unfold forcedRekey
  rw [startExchange_forced, State.chan_congr ((dropNext_chans n _).trans (dropSpare_chans n _))]
  rw [State.chan_setF, State.chan_modChan_same]

/-- What a hold leaves: the channel held, one more of those held, units and cores as they were. -/
theorem holdChan_spec {n : Nat} (hn : n < 512) {s : State} (hroom : s.getF POS_STAT_HELD < 512) :
    (holdChan n s).isSet (CH_STAT_HELD n) = true ∧
      (holdChan n s).getF POS_STAT_HELD = s.getF POS_STAT_HELD + (if s.isSet (CH_STAT_HELD n) then 0 else 1) ∧
      (holdChan n s).units = s.units ∧ (holdChan n s).cores = s.cores := by
  unfold holdChan
  by_cases hheld : s.isSet (CH_STAT_HELD n) = true
  · rw [if_pos hheld, if_pos hheld]
    exact ⟨hheld, rfl, rfl, rfl⟩
  · rw [if_neg hheld, if_neg hheld]
    have hne : POS_STAT_HELD.off ≠ (CH_STAT_HELD n).off := by simp only [POS_STAT_HELD, POS_STAT, CH_STAT_HELD, CH_STAT]; omega
    have hevt := chEvt_chanWork hn (f := CH_EVT_HELD n) rfl (s.setF (CH_STAT_HELD n) 1)
    have hkept : keptOff (CH_STAT_HELD n).off := by simp only [keptOff, CH_STAT_HELD, CH_STAT]; omega
    refine ⟨?_, ?_, ?_, ?_⟩
    · refine Eq.trans ?_ (State.isSet_setF_bit s (CH_STAT_HELD n) rfl (show 2 < 32 by decide))
      exact congrArg (fun x => decide (x = 1)) ((State.getF_setF_ne _ _ _ _ hne).trans (State.getF_congr (hevt.rd _ hkept)))
    · rw [State.getF_setF_same _ _ _ (by decide) (by decide)]
      exact Nat.mod_eq_of_lt (show _ < 2 ^ 10 by omega)
    · rw [State.setF_units, hevt.units, State.setF_units]
    · rw [State.setF_cores, hevt.cores, State.setF_cores]

theorem cellWrapHold_holds {s : State} {n : Fin 512} (hopen : s.chOpen n.val = true) (hmode : s.chMode n.val = 1)
    (hbeat : s.beat.toNat < 2 ^ 47) (hcur : s.isSet (KB_ROLES_CUR_V n.val 0) = true) (hbegan : beatBefore (s.chan n.val).beginOut 0 = true)
    (hsw : (s.chan n.val).swOut = none) : execCellWrapHold n s = .next (forcedRekey n.val (holdChan n.val s)) := by
  unfold execCellWrapHold
  simp only [hopen, hmode, hbeat, hcur, hbegan, hsw, Option.any_none, decide_true, Bool.and_true, Bool.not_false, if_true]

/-! ### Delineation (R184) -/

/-- A port whose cells are on and whose line is UP. -/
abbrev cellRuns (s : State) (c : Nat) : Bool := s.isSet (CELL_PORT_CFG_EN c) && s.portUp (32 + c)

/-- The header passes its check. -/
abbrev cellHec (cell : List Byte) : Bool := decide (crc8 (be cell 0 7) = at' cell 7)

section
variable {s : State} {p : Fin 32} {cell : List Byte}

theorem cellHeader_hunt (hruns : cellRuns s p.val = true) (hd : s.getF (CELL_PORT_STAT_DELIN p.val) = 0) (hhec : cellHec cell = true) :
    execCellHeaderRx p cell s = .next ((s.setF (CELL_PORT_STAT_DELIN p.val) 1).modPort (32 + p.val)
      (fun q => { q with run := 1, lastSlot := be cell 0 6, odd := none })) := by
  unfold execCellHeaderRx
  simp only [cellHec, cellRuns] at hruns hhec
  simp only [hruns, hd, hhec, Bool.not_true, Bool.false_eq_true, if_false, if_true]

theorem cellHeader_presync (hruns : cellRuns s p.val = true) (hd : s.getF (CELL_PORT_STAT_DELIN p.val) = 1) (hhec : cellHec cell = true)
    (hnext : be cell 0 6 = ((s.port (32 + p.val)).lastSlot + 1) % 2 ^ 48) :
    execCellHeaderRx p cell s = .next (if 5 ≤ (s.port (32 + p.val)).run then
        (s.modPort (32 + p.val) (fun q => { q with run := if 6 ≤ q.run + 1 then 0 else q.run + 1, lastSlot := be cell 0 6 })).setF
          (CELL_PORT_STAT_DELIN p.val) 2
      else s.modPort (32 + p.val) (fun q => { q with run := if 6 ≤ q.run + 1 then 0 else q.run + 1, lastSlot := be cell 0 6 })) := by
  unfold execCellHeaderRx
  simp only [cellHec, cellRuns] at hruns hhec
  simp only [hruns, hd, hhec, ← hnext, Bool.not_true, Bool.false_eq_true, if_false, if_true, one_ne_zero, decide_true, Bool.and_self,
    Nat.succ_le_succ_iff, show (6 : Nat) = 5 + 1 from rfl]

theorem cellHeader_presync_lost (hruns : cellRuns s p.val = true) (hd : s.getF (CELL_PORT_STAT_DELIN p.val) = 1)
    (hbad : (cellHec cell && decide (be cell 0 6 = ((s.port (32 + p.val)).lastSlot + 1) % 2 ^ 48)) = false) :
    execCellHeaderRx p cell s =
      .next ((s.setF (CELL_PORT_STAT_DELIN p.val) 0).modPort (32 + p.val) (fun q => { q with run := 0 })) := by
  unfold execCellHeaderRx
  simp only [cellHec, cellRuns] at hruns hbad
  simp only [hruns, hd, hbad, Bool.not_true, Bool.false_eq_true, if_false, if_true, one_ne_zero]

/-- A header that fails its check is counted and its cell takes the expected number. -/
def cellHecFailed (c : Nat) (s : State) : State :=
  (s.cnt (CELL_HEC_ERR_CNT c) 1).modPort (32 + c) (fun q => { q with run := q.run + 1, lastSlot := (q.lastSlot + 1) % 2 ^ 48, odd := none })

/-- The seventh in a row ends SYNC, and the paths of the port are lost. -/
def cellSyncLost (c : Nat) (s : State) : State :=
  (((cellHecFailed c s).setF (CELL_PORT_STAT_DELIN c) 0).modPort (32 + c) (fun q => { q with run := 0 })).report unitPorts 0x020C
    (portPath (32 + c)) c

theorem cellHeader_failed (hruns : cellRuns s p.val = true) (hd : s.getF (CELL_PORT_STAT_DELIN p.val) = 2) (hhec : cellHec cell = false) :
    execCellHeaderRx p cell s = if 6 ≤ (s.port (32 + p.val)).run then .next (cellPathsLost p.val (cellSyncLost p.val s))
      else .next (cellHecFailed p.val s) := by
  unfold execCellHeaderRx
  simp only [cellHec, cellRuns] at hruns hhec
  simp only [hruns, hd, hhec, Bool.not_true, Bool.not_false, Bool.false_eq_true, if_false, if_true, OfNat.ofNat_ne_zero,
    OfNat.ofNat_ne_one, Nat.succ_le_succ_iff, show (7 : Nat) = 6 + 1 from rfl]
  rfl

/-- The port expects the number after this cell's. -/
def cellTaken (c : Nat) (cell : List Byte) (s : State) : State :=
  s.modPort (32 + c) (fun q => { q with run := 0, lastSlot := be cell 0 6, odd := none })

theorem cellHeader_expected (hruns : cellRuns s p.val = true) (hd : s.getF (CELL_PORT_STAT_DELIN p.val) = 2) (hhec : cellHec cell = true)
    (hnext : be cell 0 6 = ((s.port (32 + p.val)).lastSlot + 1) % 2 ^ 48) :
    execCellHeaderRx p cell s = .next (cellDeliver p.val cell (cellTaken p.val cell s)) := by
  unfold execCellHeaderRx
  simp only [cellHec, cellRuns] at hruns hhec
  simp only [hruns, hd, hhec, ← hnext, Bool.not_true, Bool.false_eq_true, if_false, if_true, OfNat.ofNat_ne_zero, OfNat.ofNat_ne_one,
    true_or]
  rfl

theorem cellHeader_jump (hruns : cellRuns s p.val = true) (hd : s.getF (CELL_PORT_STAT_DELIN p.val) = 2) (hhec : cellHec cell = true)
    (hnext : be cell 0 6 ≠ ((s.port (32 + p.val)).lastSlot + 1) % 2 ^ 48) (hodd : (s.port (32 + p.val)).odd = none) :
    execCellHeaderRx p cell s = .next ((s.cnt (CELL_SLOT_JUMP_CNT p.val) 1).modPort (32 + p.val)
      (fun q => { q with run := 0, lastSlot := (q.lastSlot + 1) % 2 ^ 48, odd := some (be cell 0 6) })) := by
  unfold execCellHeaderRx
  simp only [cellHec, cellRuns] at hruns hhec
  simp only [hruns, hd, hhec, hnext, hodd, Bool.not_true, Bool.false_eq_true, if_false, OfNat.ofNat_ne_zero, OfNat.ofNat_ne_one,
    Option.any_none, or_self]

end

end Sys2Proof.Machine

/-!
O44, the sender's side: what a port's slot takes, and the bytes of a protected cell (R165 to R181).
-/

namespace Sys2Proof.Machine

/-! ### What a slot's assembly writes -/

/-- A register that the assembly of a cell of channel n does not write. -/
abbrev slotKept (n o : Nat) : Prop := (o < 0x221000A0 + n * 0x800 ∨ 0x22100400 + n * 0x800 ≤ o) ∧ o / 2 ^ 24 ≠ 0x2F

/-- The assembly of a cell of channel n leads from `s` to `t`: keys hold, and registers but for its own. -/
structure SlotWork (n : Nat) (s t : State) : Prop where
  rd : ∀ o, slotKept n o → t.rd o = s.rd o
  tack : t.tack = s.tack

theorem SlotWork.refl (n : Nat) (s : State) : SlotWork n s s := ⟨fun _ _ => rfl, rfl⟩

theorem SlotWork.trans {n : Nat} {s t u : State} (h : SlotWork n s t) (g : SlotWork n t u) : SlotWork n s u :=
  ⟨fun o x => (g.rd o x).trans (h.rd o x), g.tack.trans h.tack⟩

theorem SlotWork.wr64 {n : Nat} {s t : State} {o : Nat} {v : DWord} (h : SlotWork n s t) (ho : ¬ slotKept n o) (h4 : ¬ slotKept n (o + 4)) :
    SlotWork n s (t.wr64 o v) :=
  h.trans ⟨fun _ hp => State.rd_wr64_ne _ _ _ _ (fun e => ho (e ▸ hp)) (fun e => h4 (e ▸ hp)), State.wr64_tack _ _ _⟩

theorem SlotWork.getF {n : Nat} {s t : State} (h : SlotWork n s t) {f : Fld} (hf : slotKept n f.off) : t.getF f = s.getF f :=
  State.getF_congr (h.rd _ hf)

theorem SlotWork.isSet {n : Nat} {s t : State} (h : SlotWork n s t) {f : Fld} (hf : slotKept n f.off) : t.isSet f = s.isSet f := by
  rw [State.isSet, h.getF hf, State.isSet]

theorem SlotWork.chTwin {n : Nat} {s t : State} (h : SlotWork n s t) (hn : n < 512) : t.chTwin n = s.chTwin n :=
  h.isSet (by simp only [slotKept, CH_CFG_TWIN, CH_CFG]; omega)

theorem SlotWork.roleB {n : Nat} {s t : State} (h : SlotWork n s t) (hn : n < 512) : t.roleB n = s.roleB n := by
  rw [State.roleB, State.roleB, State.pairing, State.pairing, h.tack,
    h.getF (f := BR_CFG_PAIR n) (by simp only [slotKept, BR_CFG_PAIR, BR_CFG]; omega)]

theorem SlotWork.dirKey {n : Nat} {s t : State} (h : SlotWork n s t) (hn : n < 512) (d j : Nat) : dirKey t n d j = dirKey s n d j := by
  have hslot : t.slot j = s.slot j := by rw [State.slot, State.slot, h.tack]
  have hctx : t.ctx0 n = s.ctx0 n := by
    rw [State.ctx0, State.ctx0, h.roleB hn, h.getF (f := BR_CFG_PEER_CH n) (by simp only [slotKept, BR_CFG_PEER_CH, BR_CFG]; omega)]
  unfold Sys2Proof.Machine.dirKey dirIsAB
  rw [hslot, hctx, h.roleB hn]

theorem SlotWork.isWitness {n : Nat} {s t : State} (h : SlotWork n s t) (hn : n < 512) : isWitness t n = isWitness s n := by
  unfold Sys2Proof.Machine.isWitness State.devId
  rw [h.chTwin hn, h.isSet (f := TWC_CFG_WIT_EN n) (by simp only [slotKept, TWC_CFG_WIT_EN, TWC_CFG]; omega),
    h.getF (f := TWC_CFG_WIT_ID n) (by simp only [slotKept, TWC_CFG_WIT_ID, TWC_CFG]; omega),
    h.getF (f := FAB_ID_DEV_ID) (by simp only [slotKept, FAB_ID_DEV_ID, FAB_ID]; omega)]

/-- The protected cell of slot x (R165, R168, R171): header, ciphertext and tag under key j. -/
def cellSealed (s : State) (n c x j : Nat) (body : List Byte) : List Byte :=
  let k := decide ((s.slot j).epoch % 2 = 1)
  let key := dirKey s n 0 j
  let iv := cellNonce c (s.getF (CELL_POL_LO_DIR n)) x
  cellHeader x (cellL s n) (cellP s n) k false false ++ gcmStream key iv body ++ gcmTagBytes key iv (cellAad x k) (gcmStream key iv body)

theorem SlotWork.cellSealed {n : Nat} {s t : State} (h : SlotWork n s t) (hn : n < 512) (c x j : Nat) (body : List Byte) :
    cellSealed t n c x j body = cellSealed s n c x j body := by
  have hslot : t.slot j = s.slot j := by rw [State.slot, State.slot, h.tack]
  unfold Sys2Proof.Machine.cellSealed cellL cellP
  rw [hslot, h.dirKey hn, h.chTwin hn, h.getF (f := CELL_POL_LO_DIR n) (by simp only [slotKept, CELL_POL_LO_DIR, CELL_POL_LO]; omega),
    h.getF (f := TW_STAT_STATE) (by simp only [slotKept, TW_STAT_STATE, TW_STAT]; omega),
    h.isSet (f := TW_CFG_MY_PATH) (by simp only [slotKept, TW_CFG_MY_PATH, TW_CFG]; omega)]

/-! ### A protected cell leaves -/

theorem digestAdd_eqv (n : Nat) (b : Beat) (rec : List Byte) (s : State) :
    digestAdd n b rec s = { s with chans := (digestAdd n b rec s).chans } := by
  unfold digestAdd
  split <;> rfl

/-- The state with the cell of slot x sent, and OUT_SLOT naming the slot. -/
def cellSent (n c x j : Nat) (body : List Byte) (s : State) : State :=
  (cellOut c (cellSealed s n c x j body) s).wr64 (CH_MODE_W1_LO n) (BitVec.ofNat 64 x)

/-- A body is sent under its key; the digest of a Twin-mode channel alone changes besides. -/
theorem sealCell_eq {n c x j : Nat} {body : List Byte} {s : State} (hw : isWitness s n = false) :
    ∃ q, sealCell n c x j body false s = { cellSent n c x j body s with chans := q } := by
  unfold sealCell
  simp only [Bool.false_eq_true, if_false, hw]
  exact ⟨_, digestAdd_eqv _ _ _ _⟩

/-! ### The slot's cell -/

/-- The port has closed slot x. -/
def slotTaken (c x : Nat) (s : State) : State := s.modPort (32 + c) (fun p => { p with outSlot := some x })

theorem slotEntry_slotTaken (c x y : Nat) (s : State) : slotEntry (slotTaken c x s) c y = slotEntry s c y := by
  unfold slotEntry calFor slotTaken
  rw [State.port_modPort_same]
  rfl

theorem fillUnits_slotTaken (c x n : Nat) (t : DWord) (cut : Bool) (s : State) (l : List OutUnit) (f : CellFill) :
    fillUnits (slotTaken c x s) n t cut l f = fillUnits s n t cut l f := by
  have hunit : ∀ (b : Bool) (u : OutUnit) (f : CellFill), fillUnit (slotTaken c x s) t b u f = fillUnit s t b u f := fun _ _ _ => rfl
  induction l generalizing f with
  | nil => rfl
  | cons u l ih =>
    unfold fillUnits
    simp only [hunit, ih]

/-- A slot of the calendar whose channel has no cell for it (R175). -/
def slotBare (s : State) (c x n : Nat) : Prop :=
  512 ≤ n ∨ s.chOpen n = false ∨ s.chMode n ≠ 1 ∨ s.txPort n ≠ c ∨ s.isSet (CH_CFG_OUT_EN n) = false ∨ heldAt s n c x = true ∨
    s.muted n = true ∨ s.isSet (CH_STAT_LEASE n) = false

theorem slotClose_bare {s : State} {c x : Nat} {fault cut : Bool} (hbr : slotEntry s c x ≠ 0x3FF) (h : slotBare s c x (slotEntry s c x)) :
    slotClose c x fault cut s = emptyCell c x s := by
  unfold slotClose
  dsimp only
  rw [if_neg hbr]
  split
  · rfl
  next hcfg =>
    simp only [not_or, Bool.not_eq_true', Bool.not_eq_false] at hcfg
    obtain ⟨hn, hopen, hmode, hport, hout⟩ := hcfg
    refine if_pos ?_
    rcases h with h | h | h | h | h | h | h | h
    · exact absurd h hn
    · rw [hopen] at h
      cases h
    · exact absurd h hmode
    · exact absurd h hport
    · rw [hout] at h
      cases h
    · exact .inl h
    · exact .inr (.inl h)
    · exact .inr (.inr (by rw [h]; rfl))

/-- A slot whose channel sends in it. -/
def slotSends (s : State) (c x n : Nat) : Prop :=
  s.chOpen n = true ∧ s.chMode n = 1 ∧ s.txPort n = c ∧ s.isSet (CH_CFG_OUT_EN n) = true ∧ heldAt s n c x = false ∧ s.muted n = false ∧
    s.isSet (CH_STAT_LEASE n) = true

theorem slotClose_sends {s : State} {c x n : Nat} {fault cut : Bool} (hn : n < 512) (hentry : slotEntry s c x = n) (h : slotSends s c x n) :
    slotClose c x fault cut s = channelCell n c x fault cut s := by
  obtain ⟨hopen, hmode, hport, hout, hheld, hmute, hlease⟩ := h
  unfold slotClose
  dsimp only
  rw [hentry, if_neg (by omega), if_neg (by simp [hopen, hmode, hport, hout, hn]), if_neg (by simp [hheld, hmute, hlease])]

/-- CONTEXT records leave by the links alone. -/
theorem slotContexts_linkWork (c x : Nat) (s : State) : LinkWork s (slotContexts c x s) :=
  LinkWork.foldl (fun u n => (modChan_linkWork u n _).trans (twinSend_linkWork _ _)) _ s

theorem slotAssemblyClose_eq {s : State} {p : Fin 32} {fault cut : Bool} (hruns : cellRuns s p.val = true)
    (hnew : (s.port (32 + p.val)).outSlot ≠ some (slotNow s p.val)) :
    execSlotAssemblyClose p fault cut s = .next (slotContexts p.val (slotNow s p.val)
      (slotClose p.val (slotNow s p.val) fault cut (slotTaken p.val (slotNow s p.val) s))) := by
  unfold execSlotAssemblyClose
  simp only [cellRuns] at hruns
  simp only [hruns, hnew, Bool.not_true, Bool.false_or, decide_false, Bool.false_eq_true, if_false]
  rfl

theorem outs_contains_of_suffix {s t : State} {y : Output} (h : LinkWork s t) (hy : y ∈ s.outs) : t.outs.contains y = true :=
  List.contains_iff_mem.mpr (h.outs.subset hy)

/-- An empty cell where the channel of the slot has none. -/
theorem slotAssemblyClose_bare {s : State} {p : Fin 32} {cut : Bool} (hruns : cellRuns s p.val = true)
    (hnew : (s.port (32 + p.val)).outSlot ≠ some (slotNow s p.val)) (hbr : slotEntry s p.val (slotNow s p.val) ≠ 0x3FF)
    (hbare : slotBare s p.val (slotNow s p.val) (slotEntry s p.val (slotNow s p.val))) :
    Completes (execSlotAssemblyClose p false cut s) fun t => (t.port (32 + p.val)).outSlot = some (slotNow s p.val) ∧
      t.outs.contains (.cell (32 + p.val) (cellHeader (slotNow s p.val) false false false true false ++ zeros 248)) = true ∧
      t.units = s.units ∧ t.cores = s.cores ∧ t.pos = s.pos := by
  generalize hx : slotNow s p.val = x at hnew hbr hbare
  have hentry : slotEntry (slotTaken p.val x s) p.val x = slotEntry s p.val x := slotEntry_slotTaken _ _ _ s
  have hclose : slotClose p.val x false cut (slotTaken p.val x s) = emptyCell p.val x (slotTaken p.val x s) :=
    slotClose_bare (hentry ▸ hbr) (by rw [hentry]; exact hbare)
  have hlink := slotContexts_linkWork p.val x (emptyCell p.val x (slotTaken p.val x s))
  refine ⟨_, slotAssemblyClose_eq hruns (hx ▸ hnew), ?_⟩
  rw [hx, hclose]
  refine ⟨?_, outs_contains_of_suffix hlink (List.mem_cons_self ..), ?_, ?_, ?_⟩
  · rw [State.port_congr (s := slotTaken p.val x s) (by rw [hlink.eqv]; rfl), slotTaken, State.port_modPort_same]
  · rw [hlink.eqv]; rfl
  · rw [hlink.eqv]; rfl
  · rw [hlink.eqv]; rfl

/-! ### The cell of a channel that sends -/

/-- The fill of slot x of channel n (R176, R177). -/
def slotFill (s : State) (n c x : Nat) (cut : Bool) : CellFill × List OutUnit :=
  fillUnits s n (slotStart s c x - 2048) cut s.units { payload := [], ends := [], octets := 0, more := true }

/-- The state from which a data cell is sealed: its units taken, its CASN and the statistics counted (R176, R179, R181). -/
def cellFilled (n c x : Nat) (casn : DWord) (e : Nat) (cut : Bool) (s : State) : State :=
  let f := slotFill s n c x cut
  let u : State := ({ s with units := f.2 }.wr64 (CH_MODE_W0_LO n) (casn + 1)).modChan n
    (fun c => { c with cell := { c.cell with outEpoch := some e } })
  let v := outStat n 3 f.1.octets (outStat n 2 1 u)
  if cut && f.1.ends.any (·.2) then refuse n 0x16 (v.report unitChan 0x0305 n n) else v

/-- CASN of the next data cell under the key of slot j (R181). -/
def cellCasn (s : State) (n j : Nat) : DWord :=
  if (s.chan n).cell.outEpoch = some (s.slot j).epoch then s.rd64 (CH_MODE_W0_LO n) else 0

theorem channelCell_fill {s : State} {n c x j : Nat} {cut : Bool} (hkey : slotKey s n c x = some j)
    (hempty : (slotFill s n c x cut).1.payload = []) :
    channelCell n c x false cut s = sealCell n c x j fillBody false (outStat n 4 1 s) := by
  unfold slotFill at hempty
  unfold channelCell
  rw [hkey]
  simp only [hempty, List.isEmpty_nil, if_true]

theorem channelCell_data {s : State} {n c x j : Nat} {cut : Bool} (hkey : slotKey s n c x = some j)
    (hfull : (slotFill s n c x cut).1.payload ≠ []) :
    channelCell n c x false cut s = sealCell n c x j (dataBody (cellCasn s n j) (slotFill s n c x cut).1) false
      (cellFilled n c x (cellCasn s n j) (s.slot j).epoch cut s) := by
  have hne : (slotFill s n c x cut).1.payload.isEmpty = false := by simpa using hfull
  unfold slotFill at hne
  unfold channelCell
  rw [hkey]
  simp only [hne, Bool.false_eq_true, if_false]
  rfl

section
variable {n : Nat}

theorem chModeW0_not_slotKept : ¬ slotKept n (CH_MODE_W0_LO n) ∧ ¬ slotKept n (CH_MODE_W0_LO n + 4) := by
  unfold slotKept CH_MODE_W0_LO; omega
theorem chOutStat_not_slotKept {i : Nat} (hi : i < 63) : ¬ slotKept n (CH_OUT_STAT n i) ∧ ¬ slotKept n (CH_OUT_STAT n i + 4) := by
  unfold slotKept CH_OUT_STAT; omega
theorem chRefuse_not_slotKept {i : Nat} (hi : i < 63) : ¬ slotKept n (CH_REFUSE n i) ∧ ¬ slotKept n (CH_REFUSE n i + 4) := by
  unfold slotKept CH_REFUSE; omega

theorem outStat_slotWork {i : Nat} (hi : i < 8) (k : Nat) (s : State) : SlotWork n s (outStat n i k s) :=
  (SlotWork.refl n s).wr64 (chOutStat_not_slotKept (by omega)).1 (chOutStat_not_slotKept (by omega)).2

theorem outStat_rd64_same (i k : Nat) (s : State) :
    (outStat n i k s).rd64 (CH_OUT_STAT n (2 * i)) = s.rd64 (CH_OUT_STAT n (2 * i)) + BitVec.ofNat 64 k := State.rd64_wr64_same _ _ _

theorem outStat_rd64_ne (i k : Nat) (s : State) {o : Nat} (h : o + 8 ≤ CH_OUT_STAT n (2 * i) ∨ CH_OUT_STAT n (2 * i) + 8 ≤ o) :
    (outStat n i k s).rd64 o = s.rd64 o := State.rd64_wr64_ne _ _ _ _ (by omega) (by omega) (by omega)

theorem report_slotWork (s : State) : SlotWork n s (s.report unitChan 0x0305 n n) where
  rd _ ho := State.report_rd_ledger _ _ _ _ (by decide) (by decide) ho.2
  tack := (report_quiet _ _ _ _ _).tack

theorem cellFilled_slotWork (c x : Nat) (casn : DWord) (e : Nat) (cut : Bool) (s : State) :
    SlotWork n s (cellFilled n c x casn e cut s) := by
  unfold cellFilled
  extract_lets f u v
  have hu : SlotWork n s u := by
    have h0 : SlotWork n s { s with units := f.2 } := ⟨fun _ _ => rfl, rfl⟩
    have h1 := h0.wr64 (v := casn + 1) chModeW0_not_slotKept.1 chModeW0_not_slotKept.2
    exact h1.trans ⟨fun _ _ => rfl, rfl⟩
  have hv : SlotWork n s v := (hu.trans (outStat_slotWork (by decide) _ _)).trans (outStat_slotWork (by decide) _ _)
  split
  · exact (hv.trans (report_slotWork _)).wr64 (chRefuse_not_slotKept (by decide)).1 (chRefuse_not_slotKept (by decide)).2
  · exact hv

theorem refuse_cut_rd64 (hn : n < 512) (s : State) {o : Nat} (h : 0x22100000 + n * 0x800 ≤ o) (hr : o + 8 ≤ CH_REFUSE n 0) :
    (refuse n 0x16 (s.report unitChan 0x0305 n n)).rd64 o = s.rd64 o := by
  have hplain : ∀ a, o ≤ a → a ≤ o + 4 → a / 2 ^ 24 ≠ 0x2F := by
    intro a _ _
    simp only [CH_REFUSE] at hr
    omega
  have hne : o + 8 ≤ CH_REFUSE n ((0x16 - 0x10) * 2) := by
    simp only [CH_REFUSE] at hr ⊢
    omega
  refine (State.rd64_wr64_ne _ _ _ _ (by omega) (by omega) (by omega)).trans ?_
  exact State.rd64_congr (State.report_rd_ledger _ _ _ _ (by decide) (by decide) (hplain _ le_rfl (by omega)))
    (State.report_rd_ledger _ _ _ _ (by decide) (by decide) (hplain _ (by omega) le_rfl))

/-- What the assembly of a data cell counts, and what it leaves. -/
theorem cellFilled_spec (hn : n < 512) (c x : Nat) (casn : DWord) (e : Nat) (cut : Bool) (s : State) :
    let t := cellFilled n c x casn e cut s
    t.rd64 (CH_MODE_W0_LO n) = casn + 1 ∧ t.rd64 (CH_OUT_STAT n 4) = s.rd64 (CH_OUT_STAT n 4) + 1 ∧
      t.units = (slotFill s n c x cut).2 ∧ t.cores = s.cores ∧ t.pos = s.pos ∧ t.ports = s.ports := by
  unfold cellFilled
  extract_lets f u v t
  have hw0 : v.rd64 (CH_MODE_W0_LO n) = casn + 1 :=
    calc v.rd64 (CH_MODE_W0_LO n)
        = (outStat n 2 1 u).rd64 (CH_MODE_W0_LO n) := outStat_rd64_ne _ _ _ (.inl (by simp only [CH_MODE_W0_LO, CH_OUT_STAT]; omega))
      _ = u.rd64 (CH_MODE_W0_LO n) := outStat_rd64_ne _ _ _ (.inl (by simp only [CH_MODE_W0_LO, CH_OUT_STAT]; omega))
      _ = casn + 1 := State.rd64_wr64_same { s with units := f.2 } _ _
  have hstat : v.rd64 (CH_OUT_STAT n 4) = s.rd64 (CH_OUT_STAT n 4) + 1 :=
    calc v.rd64 (CH_OUT_STAT n 4)
        = (outStat n 2 1 u).rd64 (CH_OUT_STAT n 4) := outStat_rd64_ne _ _ _ (.inl (by simp only [CH_OUT_STAT]; omega))
      _ = u.rd64 (CH_OUT_STAT n 4) + 1 := outStat_rd64_same 2 1 u
      _ = s.rd64 (CH_OUT_STAT n 4) + 1 := congrArg (· + 1) (State.rd64_wr64_ne { s with units := f.2 } _ _ _
          (by simp only [CH_MODE_W0_LO, CH_OUT_STAT]; omega) (by simp only [CH_MODE_W0_LO, CH_OUT_STAT]; omega)
          (by simp only [CH_MODE_W0_LO, CH_OUT_STAT]; omega))
  have hparts : v.units = f.2 ∧ v.cores = s.cores ∧ v.pos = s.pos ∧ v.ports = s.ports := ⟨rfl, rfl, rfl, rfl⟩
  by_cases hcut : (cut && f.1.ends.any (·.2)) = true
  · have ht : t = refuse n 0x16 (v.report unitChan 0x0305 n n) := if_pos hcut
    have hq := report_quiet v unitChan 0x0305 n n
    rw [ht, refuse_cut_rd64 hn v (by simp only [CH_MODE_W0_LO]; omega) (by simp only [CH_MODE_W0_LO, CH_REFUSE]; omega),
      refuse_cut_rd64 hn v (by simp only [CH_OUT_STAT]; omega) (by simp only [CH_OUT_STAT, CH_REFUSE]; omega)]
    simp only [refuse, State.cnt64, State.wr64_units, State.wr64_cores, State.wr64_pos, State.wr64_ports, hq.units, hq.cores, hq.pos, hq.ports]
    exact ⟨hw0, hstat, hparts⟩
  · have ht : t = v := if_neg hcut
    rw [ht]
    exact ⟨hw0, hstat, hparts⟩

end

/-! ### The slot of a channel that sends -/

/-- The cell a slot sends leaves with the slot's number shown; what else the assembly of state `u` has done stays. -/
theorem slotAssemblyClose_sealed {s u : State} {p : Fin 32} {n : Fin 512} {cut : Bool} {x j : Nat} {body : List Byte}
    (hruns : cellRuns s p.val = true) (hx : slotNow s p.val = x) (hnew : (s.port (32 + p.val)).outSlot ≠ some x)
    (hentry : slotEntry s p.val x = n.val) (hsends : slotSends s p.val x n.val) (hwit : isWitness s n.val = false)
    (hcell : channelCell n.val p.val x false cut (slotTaken p.val x s) = sealCell n.val p.val x j body false u)
    (hwork : SlotWork n.val s u) (hports : u.ports = (slotTaken p.val x s).ports) :
    Completes (execSlotAssemblyClose p false cut s) fun t =>
      (t.port (32 + p.val)).outSlot = some x ∧ t.outs.contains (.cell (32 + p.val) (cellSealed s n.val p.val x j body)) = true ∧
      t.rd64 (CH_MODE_W1_LO n.val) = BitVec.ofNat 64 x ∧
      (∀ o, o + 8 ≤ CH_MODE_W1_LO n.val ∨ CH_MODE_W1_LO n.val + 8 ≤ o → t.rd64 o = u.rd64 o) ∧
      t.units = u.units ∧ t.cores = u.cores ∧ t.pos = u.pos := by
  have hn := n.isLt
  have hclose : slotClose p.val x false cut (slotTaken p.val x s) = sealCell n.val p.val x j body false u := by
    rw [← hcell]
    exact slotClose_sends hn ((slotEntry_slotTaken _ _ _ s).trans hentry) hsends
  obtain ⟨q, hseal⟩ := sealCell_eq (n := n.val) (c := p.val) (x := x) (j := j) (body := body) ((hwork.isWitness hn).trans hwit)
  have hlink := slotContexts_linkWork p.val x (sealCell n.val p.val x j body false u)
  have hcsr : ∀ o, (slotContexts p.val x (sealCell n.val p.val x j body false u)).rd o =
      (u.wr64 (CH_MODE_W1_LO n.val) (BitVec.ofNat 64 x)).rd o := fun o =>
    (State.rd_of_csr hlink.csr o).trans (by rw [hseal]; rfl)
  refine ⟨_, by rw [slotAssemblyClose_eq hruns (by rw [hx]; exact hnew), hx, hclose], ?_, ?_, ?_, ?_, ?_, ?_, ?_⟩
  · have hport : (slotContexts p.val x (sealCell n.val p.val x j body false u)).ports = (slotTaken p.val x s).ports := by
      rw [hlink.eqv, hseal, ← hports]
      rfl
    rw [State.port_congr hport, slotTaken, State.port_modPort_same]
  · refine outs_contains_of_suffix hlink ?_
    rw [hseal, ← hwork.cellSealed hn]
    exact List.mem_cons_self ..
  · exact (State.rd64_congr (hcsr _) (hcsr _)).trans (State.rd64_wr64_same _ _ _)
  · exact fun o ho => (State.rd64_congr (hcsr _) (hcsr _)).trans (State.rd64_wr64_ne _ _ _ _ (by omega) (by omega) (by omega))
  · rw [hlink.eqv, hseal]; rfl
  · rw [hlink.eqv, hseal]; rfl
  · rw [hlink.eqv, hseal]; rfl

end Sys2Proof.Machine

/-!
O44, clause by clause.
-/

namespace Sys2Proof.Machine

theorem slotTaken_slotWork (n c x : Nat) (s : State) : SlotWork n s (slotTaken c x s) := ⟨fun _ _ => rfl, rfl⟩

theorem slotKey_slotTaken (n c x y : Nat) (s : State) : slotKey (slotTaken c x s) n c y = slotKey s n c y := rfl

theorem cellCasn_slotTaken (n c x j : Nat) (s : State) : cellCasn (slotTaken c x s) n j = cellCasn s n j := rfl

theorem slotFill_slotTaken (n c x y : Nat) (cut : Bool) (s : State) : slotFill (slotTaken c x s) n c y cut = slotFill s n c y cut :=
  fillUnits_slotTaken _ _ _ _ _ _ _ _

section
variable {s : State} {p : Fin 32} {n : Fin 512} {j : Nat} {cut : Bool} {x : Nat}

/-- A slot with nothing to carry takes a fill cell (R167, R175). -/
theorem slotAssemblyClose_fill (hruns : cellRuns s p.val = true) (hx : slotNow s p.val = x)
    (hnew : (s.port (32 + p.val)).outSlot ≠ some x) (hentry : slotEntry s p.val x = n.val) (hsends : slotSends s p.val x n.val)
    (hwit : isWitness s n.val = false) (hkey : slotKey s n.val p.val x = some j) (hempty : (slotFill s n.val p.val x cut).1.payload = []) :
    Completes (execSlotAssemblyClose p false cut s) fun t =>
      (t.port (32 + p.val)).outSlot = some x ∧ t.outs.contains (.cell (32 + p.val) (cellSealed s n.val p.val x j fillBody)) = true ∧
      t.rd64 (CH_MODE_W1_LO n.val) = BitVec.ofNat 64 x ∧ t.rd64 (CH_OUT_STAT n.val 8) = s.rd64 (CH_OUT_STAT n.val 8) + 1 ∧
      t.units = s.units ∧ t.cores = s.cores ∧ t.pos = s.pos := by
  have hcell := channelCell_fill (cut := cut) ((slotKey_slotTaken n.val p.val x x s).trans hkey)
    (by rw [slotFill_slotTaken]; exact hempty)
  obtain ⟨t, ht, hslot, houts, hw1, hrd, hunits, hcores, hpos⟩ := slotAssemblyClose_sealed hruns hx hnew hentry hsends hwit hcell
    ((slotTaken_slotWork _ _ _ s).trans (outStat_slotWork (by decide) _ _)) rfl
  refine ⟨t, ht, hslot, houts, hw1, ?_, hunits, hcores, hpos⟩
  rw [hrd _ (.inr (by simp only [CH_MODE_W1_LO, CH_OUT_STAT]; omega))]
  exact outStat_rd64_same 4 1 (slotTaken p.val x s)

/-- A slot whose channel has octets for it takes a data cell (R166, R176, R181). -/
theorem slotAssemblyClose_data (hruns : cellRuns s p.val = true) (hx : slotNow s p.val = x)
    (hnew : (s.port (32 + p.val)).outSlot ≠ some x) (hentry : slotEntry s p.val x = n.val) (hsends : slotSends s p.val x n.val)
    (hwit : isWitness s n.val = false) (hkey : slotKey s n.val p.val x = some j) (hfull : (slotFill s n.val p.val x cut).1.payload ≠ []) :
    Completes (execSlotAssemblyClose p false cut s) fun t =>
      (t.port (32 + p.val)).outSlot = some x ∧
      t.outs.contains (.cell (32 + p.val) (cellSealed s n.val p.val x j (dataBody (cellCasn s n.val j) (slotFill s n.val p.val x cut).1))) = true ∧
      t.rd64 (CH_MODE_W0_LO n.val) = cellCasn s n.val j + 1 ∧
      t.rd64 (CH_MODE_W1_LO n.val) = BitVec.ofNat 64 x ∧ t.rd64 (CH_OUT_STAT n.val 4) = s.rd64 (CH_OUT_STAT n.val 4) + 1 ∧
      t.units = (slotFill s n.val p.val x cut).2 ∧ t.cores = s.cores ∧ t.pos = s.pos := by
  have hcell := channelCell_data (cut := cut) ((slotKey_slotTaken n.val p.val x x s).trans hkey)
    (by rw [slotFill_slotTaken]; exact hfull)
  rw [slotFill_slotTaken, cellCasn_slotTaken] at hcell
  obtain ⟨hw0, hstat, hunits', hcores', hpos', hports'⟩ := cellFilled_spec n.isLt p.val x (cellCasn s n.val j)
    ((slotTaken p.val x s).slot j).epoch cut (slotTaken p.val x s)
  obtain ⟨t, ht, hslot, houts, hw1, hrd, hunits, hcores, hpos⟩ := slotAssemblyClose_sealed hruns hx hnew hentry hsends hwit hcell
    ((slotTaken_slotWork _ _ _ s).trans (cellFilled_slotWork _ _ _ _ _ _)) hports'
  refine ⟨t, ht, hslot, houts, ?_, hw1, ?_, ?_, hcores.trans hcores', hpos.trans hpos'⟩
  · rw [hrd _ (.inl (by simp only [CH_MODE_W1_LO, CH_MODE_W0_LO]; omega)), hw0]
  · rw [hrd _ (.inr (by simp only [CH_MODE_W1_LO, CH_OUT_STAT]; omega)), hstat]
    rfl
  · rw [hunits, hunits', slotFill_slotTaken]

end

/-! ### Received headers -/

theorem getF_setF_delin (s : State) (c v : Nat) : (s.setF (CELL_PORT_STAT_DELIN c) v).getF (CELL_PORT_STAT_DELIN c) = v % 4 :=
  State.getF_setF_same _ _ _ (show 0 ≤ 1 by decide) (show 1 < 32 by decide)

section
variable {s : State} {c : Nat}

theorem cellHecFailed_rd : (cellHecFailed c s).rd (CELL_HEC_ERR c) = s.rd (CELL_HEC_ERR c) + 1 := by
  rw [cellHecFailed, State.modPort_rd]
  exact State.rd_cnt_word s (CELL_HEC_ERR c)

theorem cellHecFailed_delin : (cellHecFailed c s).getF (CELL_PORT_STAT_DELIN c) = s.getF (CELL_PORT_STAT_DELIN c) := by
  rw [cellHecFailed, State.modPort_getF, State.cnt]
  exact State.getF_setF_ne _ _ _ _
    (by simp only [CELL_HEC_ERR_CNT, CELL_HEC_ERR, CELL_PORT_STAT_DELIN, CELL_PORT_STAT]; omega)

theorem cellHecFailed_port : (cellHecFailed c s).port (32 + c) =
    { s.port (32 + c) with run := (s.port (32 + c)).run + 1, lastSlot := ((s.port (32 + c)).lastSlot + 1) % 2 ^ 48, odd := none } := by
  rw [cellHecFailed, State.port_modPort_same, State.port_cnt]

theorem cellHecFailed_portWork : PortWork s (cellHecFailed c s) := (cnt_portWork s _ _).trans (modPort_portWork _ _ _)

/-- The port back in HUNT. -/
def cellHunting (c : Nat) (s : State) : State :=
  ((cellHecFailed c s).setF (CELL_PORT_STAT_DELIN c) 0).modPort (32 + c) (fun q => { q with run := 0 })

theorem cellHunting_rd : (cellHunting c s).rd (CELL_HEC_ERR c) = s.rd (CELL_HEC_ERR c) + 1 := by
  rw [cellHunting, State.modPort_rd,
    State.rd_setF_ne _ _ _ _ (by simp only [CELL_HEC_ERR, CELL_PORT_STAT_DELIN, CELL_PORT_STAT]; omega), cellHecFailed_rd]

theorem cellHunting_delin : (cellHunting c s).getF (CELL_PORT_STAT_DELIN c) = 0 := by
  rw [cellHunting, State.modPort_getF, getF_setF_delin]

theorem cellHunting_portWork : PortWork s (cellHunting c s) :=
  (cellHecFailed_portWork.trans (setF_portWork _ _ _)).trans (modPort_portWork _ _ _)

theorem PortWork.cores {t : State} (h : PortWork s t) : t.cores = s.cores := by rw [show t = _ from h]

theorem PortWork.units {t : State} (h : PortWork s t) : t.units = s.units := by rw [show t = _ from h]

/-- The end of SYNC, with what the merge of the port's Twin-mode channels then does. -/
theorem cellSyncLost_spec (hc : c < 32) :
    let t := cellPathsLost c (cellSyncLost c s)
    t.rd (CELL_HEC_ERR c) = s.rd (CELL_HEC_ERR c) + 1 ∧ t.getF (CELL_PORT_STAT_DELIN c) = 0 ∧ (t.port (32 + c)).run = 0 ∧
      t.cores = s.cores ∧ t.units = s.units := by
  have hwork : ChanWork (cellHunting c s) (cellPathsLost c (cellSyncLost c s)) :=
    (report_quiet (cellHunting c s) unitPorts 0x020C (portPath (32 + c)) c).chanWork.trans (cellPathsLost_chanWork c _)
  refine ⟨?_, ?_, ?_, ?_, ?_⟩
  · exact (hwork.rd (CELL_HEC_ERR c) (by simp only [keptOff, CELL_HEC_ERR]; omega)).trans cellHunting_rd
  · have hstat := hwork.rd (CELL_PORT_STAT c) (by simp only [keptOff, CELL_PORT_STAT]; omega)
    exact (State.getF_congr (f := CELL_PORT_STAT_DELIN c) hstat).trans cellHunting_delin
  · rw [State.port_congr hwork.ports, cellHunting, State.port_modPort_same]
  · exact hwork.cores.trans (cellHunting_portWork (s := s) (c := c)).cores
  · exact hwork.units.trans (cellHunting_portWork (s := s) (c := c)).units

end

section
variable {s : State} {c : Nat}

/-- The state of a port in PRESYNC after a header with the expected number. -/
theorem cellPresync_spec {slot : Nat} (hd : s.getF (CELL_PORT_STAT_DELIN c) = 1) :
    let u := s.modPort (32 + c) (fun q => { q with run := if 6 ≤ q.run + 1 then 0 else q.run + 1, lastSlot := slot })
    let t := if 5 ≤ (s.port (32 + c)).run then u.setF (CELL_PORT_STAT_DELIN c) 2 else u
    t.getF (CELL_PORT_STAT_DELIN c) = (if 5 ≤ (s.port (32 + c)).run then 2 else 1) ∧
      t.port (32 + c) = { s.port (32 + c) with
        run := if 5 ≤ (s.port (32 + c)).run then 0 else (s.port (32 + c)).run + 1, lastSlot := slot } ∧ PortWork s t := by
  intro u
  have hport : u.port (32 + c) = { s.port (32 + c) with
      run := if 5 ≤ (s.port (32 + c)).run then 0 else (s.port (32 + c)).run + 1, lastSlot := slot } := by
    rw [State.port_modPort_same]
    simp only [show (6 : Nat) = 5 + 1 from rfl, Nat.succ_le_succ_iff]
  have hwork : PortWork s u := modPort_portWork s _ _
  by_cases h : 5 ≤ (s.port (32 + c)).run
  · simp only [if_pos h] at hport ⊢
    exact ⟨getF_setF_delin _ _ _, (State.port_setF _ _ _ _).trans hport, hwork.trans (setF_portWork _ _ _)⟩
  · simp only [if_neg h] at hport ⊢
    exact ⟨hd, hport, hwork⟩

theorem cellDeliver_empty {cell : List Byte} (h : at' cell 6 / 16 % 2 = 1) : cellDeliver c cell s = s.cnt (CELL_EMPTY_RX_CNT c) 1 := if_pos h

theorem slotEntry_cellTaken (c : Nat) (cell : List Byte) (x : Nat) (s : State) : slotEntry (cellTaken c cell s) c x = slotEntry s c x := by
  unfold slotEntry calFor cellTaken
  rw [State.port_modPort_same]
  rfl

/-- A cell with the expected number waits for its channel's checks. -/
theorem cellDeliver_unit {cell : List Byte} {n : Nat} (hn : n < 512) (hempty : at' cell 6 / 16 % 2 = 0) (hbridle : at' cell 6 / 8 % 2 = 0)
    (hentry : slotEntry s c (be cell 0 6) = n) (hmode : s.chMode n = 1) (hbound : boundTo s n c = true) (htwin : s.chTwin n = false) :
    cellDeliver c cell s = { s with inq := s.inq ++
      [{ port := c, ch := some n, cell := true, bytes := cell, slot := BitVec.ofNat 64 (be cell 0 6) }] } := by
  have hother : ∀ q, otherPathSlot n c { s with inq := q } = { s with inq := q } := fun q => if_neg (by
    rw [show ({ s with inq := q } : State).chTwin n = s.chTwin n from rfl, htwin]
    exact Bool.false_ne_true)
  unfold cellDeliver
  simp only [hempty, hbridle, hentry, hn, hmode, hbound, zero_ne_one, if_false, decide_true, Bool.and_self, if_true, hother]

end

section
variable {s : State} {n : Nat}

/-- The wrap hold holds the channel and forces its rekey (R170, R80). -/
theorem wrapHold_spec (hn : n < 512) (hroom : s.getF POS_STAT_HELD < 512) :
    let t := forcedRekey n (holdChan n s)
    (t.isSet (CH_STAT_HELD n) = true ∧ (t.chan n).forced = true ∧
      t.getF POS_STAT_HELD = s.getF POS_STAT_HELD + (if s.isSet (CH_STAT_HELD n) then 0 else 1)) ∧ t.units = s.units ∧ t.cores = s.cores := by
  obtain ⟨hheld, hcount, hunits, hcores⟩ := holdChan_spec hn hroom
  have hwork := forcedRekey_chanWork hn (holdChan n s)
  refine ⟨⟨?_, forcedRekey_forced _ _, ?_⟩, ?_, ?_⟩
  · rw [State.isSet, State.getF_congr (f := CH_STAT_HELD n) (hwork.rd _ (by simp only [keptOff, CH_STAT_HELD, CH_STAT]; omega))]
    exact hheld
  · rw [State.getF_congr (f := POS_STAT_HELD) (hwork.rd _ (by decide)), hcount]
  · rw [hwork.units, hunits]
  · rw [hwork.cores, hcores]

end

/-! ### The obligation -/

/-- Settles O44, by what each operation of a port's cells does. -/
theorem cellResults : Obligations.CellResults := by
  intro s p n j cut b cal cell c x runs entry bare sends fill k key iv sealed casn d hec slot pt next held
  have hsplit : sends = true → runs = true ∧ pt.outSlot ≠ some x ∧ slotEntry s c x = n.val ∧ slotSends s c x n.val ∧ isWitness s n.val = false := by
    intro h
    simp only [sends, Bool.and_eq_true, decide_eq_true_eq, Bool.not_eq_true'] at h
    obtain ⟨⟨⟨⟨⟨⟨⟨⟨⟨⟨hruns, hnew⟩, hentry⟩, hopen⟩, hmode⟩, hport⟩, hout⟩, hheld⟩, hmute⟩, hlease⟩, hwit⟩ := h
    exact ⟨hruns, hnew, hentry, ⟨hopen, hmode, hport, hout, hheld, hmute, hlease⟩, hwit⟩
  refine ⟨?_, ?_, ?_, ?_, ?_, ?_, ?_, ?_, ?_, ?_, ?_, ?_, ?_⟩
  · intro hruns hnew hbare
    exact slotAssemblyClose_bare hruns hnew hbare.1 hbare.2
  · intro hsends hkey hempty
    obtain ⟨hruns, hnew, hentry, hslot, hwit⟩ := hsplit hsends
    exact slotAssemblyClose_fill hruns rfl hnew hentry hslot hwit hkey hempty
  · intro hsends hkey hfull
    obtain ⟨hruns, hnew, hentry, hslot, hwit⟩ := hsplit hsends
    exact slotAssemblyClose_data hruns rfl hnew hentry hslot hwit hkey hfull
  · intro harm hdue
    exact calendarSwitch_due harm hdue
  · intro hopen hmode hbeat hcur hbegan hsw hroom
    exact ⟨_, cellWrapHold_holds hopen hmode hbeat hcur hbegan hsw, wrapHold_spec n.isLt hroom⟩
  · intro hruns hd hhec
    refine ⟨_, cellHeader_hunt hruns hd hhec, ?_, ?_, (setF_portWork s _ _).trans (modPort_portWork _ _ _)⟩
    · rw [State.modPort_getF, getF_setF_delin]
    · rw [State.port_modPort_same, State.port_setF]
  · intro hruns hd hhec hnext
    obtain ⟨hdelin, hport, hwork⟩ := cellPresync_spec hd
    exact ⟨_, cellHeader_presync hruns hd hhec (of_decide_eq_true hnext), hdelin, hport, hwork⟩
  · intro hruns hd hbad
    refine ⟨_, cellHeader_presync_lost hruns hd hbad, ?_, (setF_portWork s _ _).trans (modPort_portWork _ _ _)⟩
    rw [State.modPort_getF, getF_setF_delin]
  · intro hruns hd hhec hrun
    refine ⟨_, (cellHeader_failed hruns hd hhec).trans (if_neg (Nat.not_le_of_lt hrun)),
      cellHecFailed_rd, ?_, cellHecFailed_port, cellHecFailed_portWork⟩
    rw [cellHecFailed_delin]
    exact hd
  · intro hruns hd hhec hrun
    exact ⟨_, (cellHeader_failed hruns hd hhec).trans (if_pos hrun), cellSyncLost_spec p.isLt⟩
  · intro hruns hd hhec hnext hempty
    refine ⟨(cellTaken c cell s).cnt (CELL_EMPTY_RX_CNT c) 1, ?_, ?_, ?_, (modPort_portWork s _ _).trans (cnt_portWork _ _ _)⟩
    · exact (cellHeader_expected hruns hd hhec (of_decide_eq_true hnext)).trans (by rw [cellDeliver_empty hempty])
    · exact State.rd_cnt_word (cellTaken c cell s) (CELL_EMPTY_RX c)
    · rw [State.port_cnt, cellTaken, State.port_modPort_same]
  · intro hruns hd hhec hnext hempty hbridle hentry hmode hbound htwin
    have hdeliver := cellDeliver_unit (s := cellTaken c cell s) (n := n.val) n.isLt hempty hbridle
      ((slotEntry_cellTaken _ _ _ s).trans hentry) hmode hbound htwin
    refine ⟨_, (cellHeader_expected hruns hd hhec (of_decide_eq_true hnext)).trans (by rw [hdeliver]), ?_, rfl⟩
    exact (State.port_congr (s := cellTaken c cell s) rfl _).trans (State.port_modPort_same s _ _)
  · intro hruns hd hhec hnext hodd
    refine ⟨_, cellHeader_jump hruns hd hhec (of_decide_eq_false hnext) hodd, ?_, ?_,
      (cnt_portWork s _ _).trans (modPort_portWork _ _ _)⟩
    · rw [State.modPort_rd]
      exact State.rd_cnt_word s (CELL_SLOT_JUMP c)
    · rw [State.port_modPort_same, State.port_cnt]

end Sys2Proof.Machine

/-!
SUPPORT. What a port's change of state does beside the port's own words and record (spec/04, R108, R300): its event's interrupt and
report, the frames and units it loses, the answers to commands that waited for it, and what its link held, sent elsewhere. None of it
writes a register that decides a port's state.
-/

namespace Sys2Proof.Machine

/-- A register of the position unit, of the ports, or of the power unit: those that a port's state rests on. -/
abbrev lineOff (o : Nat) : Prop := o < 0x22000000 ∨ o / 2 ^ 24 = 0x2C

theorem quietOff_of_lineOff {o : Nat} (h : lineOff o) : quietOff o := by unfold lineOff at h; unfold quietOff; omega

/-- The work beside a port's own leads from `s` to `t`. -/
structure PortAside (s t : State) : Prop where
  rd : ∀ o, lineOff o → t.rd o = s.rd o
  eqv : t = { s with csr := t.csr, mem := t.mem, bell := t.bell, ledger := t.ledger, outs := t.outs, units := t.units
                     clearTx := t.clearTx, ym := t.ym, fab := t.fab }

theorem PortAside.refl (s : State) : PortAside s s := ⟨fun _ _ => rfl, rfl⟩

theorem PortAside.trans {s t u : State} (h : PortAside s t) (g : PortAside t u) : PortAside s u :=
  ⟨fun o x => (g.rd o x).trans (h.rd o x), by rw [g.eqv, h.eqv]⟩

theorem PortAside.ite {s t u : State} {c : Prop} [Decidable c] (h : PortAside s t) (g : PortAside s u) : PortAside s (if c then t else u) := by
  split <;> assumption

theorem PortAside.foldl {α : Type} {f : State → α → State} (hf : ∀ u a, PortAside u (f u a)) (l : List α) (s : State) :
    PortAside s (l.foldl f s) := by
  induction l generalizing s with
  | nil => exact .refl s
  | cons a l ih => exact (hf s a).trans (ih _)

theorem PortAside.ports {s t : State} (h : PortAside s t) : t.ports = s.ports := by rw [h.eqv]

theorem Quiet.portAside {s t : State} (h : Quiet s t) : PortAside s t :=
  ⟨fun o ho => h.rd o (quietOff_of_lineOff ho), by rw [h.eqv]⟩

theorem PortAside.setF {s t : State} {f : Fld} {v : Nat} (h : PortAside s t) (ho : ¬ lineOff f.off) : PortAside s (t.setF f v) :=
  h.trans ⟨fun _ hp => State.rd_setF_ne _ _ _ _ (fun e => ho (e ▸ hp)), rfl⟩

theorem PortAside.ym {s t : State} (h : PortAside s t) (y : Ym) : PortAside s { t with ym := y } := h.trans ⟨fun _ _ => rfl, rfl⟩

theorem wr_portAside {o : Nat} (s : State) (v : Word) (ho : ¬ lineOff o) : PortAside s (s.wr o v) :=
  ⟨fun _ hp => State.rd_wr_ne _ _ _ _ (fun e => ho (e ▸ hp)), rfl⟩

theorem emit_portAside (s : State) (x : Output) : PortAside s (s.emit x) := ⟨fun _ _ => rfl, rfl⟩

/-! ### Mailboxes (R343, R359) -/

theorem setBytes_portAside (a : Nat) (l : List Byte) (s : State) : PortAside s (s.setBytes a l) := by
  induction l generalizing a s with
  | nil => exact .refl s
  | cons b l ih =>
    have hbyte : PortAside s (s.setByte a b) := ⟨fun _ _ => rfl, rfl⟩
    exact hbyte.trans (ih (a + 1) (s.setByte a b))

theorem mbSignal_portAside (m : Nat) (en : Fld) (s : State) : PortAside s (mbSignal m en s) := .ite (emit_portAside s _) (.refl s)

theorem mbRespond_portAside (m op st orig tag : Nat) (data : List Byte) (s : State) : PortAside s (mbRespond m op st orig tag data s) := by
  have hstatus : ¬ lineOff (MB_STATUS m) := by simp only [lineOff, MB_STATUS]; omega
  have hevt : ¬ lineOff (MB_EVT m) := by simp only [lineOff, MB_EVT]; omega
  unfold mbRespond
  extract_lets r s1 s2
  have h2 : PortAside s s2 := ((setBytes_portAside _ _ s).setF (f := MB_STATUS_RESULT m) hstatus).setF (f := MB_STATUS_STATE m) hstatus
  exact (h2.setF (f := MB_EVT_DONE m) hevt).trans (mbSignal_portAside _ _ _)

theorem mbDone_portAside (m st : Nat) (data : List Byte) (s : State) : PortAside s (mbDone m st data s) := by
  unfold mbDone
  exact (mbRespond_portAside _ _ _ _ _ _ s).ym _

theorem clearLost_portAside (k : Nat) (s : State) : PortAside s (clearLost k s) := by
  have hwait : PortAside s { s with clearTx := s.clearTx.filter (fun x => x.1 ≠ k) } := ⟨fun _ _ => rfl, rfl⟩
  exact hwait.trans (PortAside.foldl (fun u (x : Nat × Nat × List Byte) => mbDone_portAside x.2.1 0x03 [] u) _ _)

theorem dropOnLine_portAside (k : Nat) (s : State) : PortAside s (dropOnLine k s) := ⟨fun _ _ => rfl, rfl⟩

/-! ### The link of a Z port (R300) -/

theorem modZp_portAside (s : State) (z : Nat) (f : ZPort → ZPort) : PortAside s (s.modZp z f) := ⟨fun _ _ => rfl, rfl⟩

theorem flitOut_portAside (z kind vc seq : Nat) (payload : List Byte) (s : State) : PortAside s (flitOut z kind vc seq payload s) :=
  ⟨fun _ _ => rfl, rfl⟩

theorem pumpOne_portAside (z : Nat) (s : State) : PortAside s (pumpOne z s) := by
  unfold pumpOne
  refine .ite (.refl s) ?_
  split
  · exact .refl s
  · split
    · exact .refl s
    · split
      · exact .refl s
      · exact (flitOut_portAside _ _ _ _ _ s).trans (modZp_portAside _ _ _)

theorem pumpMany_portAside (n z : Nat) (s : State) : PortAside s (pumpMany n z s) := by
  induction n generalizing s with
  | zero => exact .refl s
  | succ n ih => exact (pumpOne_portAside z s).trans (ih _)

theorem zSend_portAside (z vc : Nat) (m : List Byte) (s : State) : PortAside s (zSend z vc m s) :=
  (modZp_portAside s z _).trans (.ite (pumpMany_portAside _ _ _) (.refl _))

theorem fabEvt_portAside (i code data : Nat) (s : State) : PortAside s (fabEvt i code data s) := by
  have hline : PortAside s (fabLine i (s.setF ⟨FAB_EVT, i, i⟩ 1)) :=
    ((PortAside.refl s).setF (by simp only [FAB_EVT]; decide)).trans (bellInput_quiet _ _ _).portAside
  exact .ite hline (hline.trans (report_quiet _ _ _ _ _).portAside)

theorem fabResend_portAside (m : List Byte) (s : State) : PortAside s (fabResend m s) := by
  unfold fabResend
  refine .ite ?_ (.ite (.refl s) ?_)
  · split
    · exact .ite (zSend_portAside _ _ _ s) (.refl s)
    · exact .refl s
  · split
    · exact zSend_portAside _ _ _ s
    · exact fabEvt_portAside _ _ _ s

theorem zLinkDown_portAside {z : Nat} (hz : z < 8) (s : State) : PortAside s (zLinkDown z s) :=
  ((modZp_portAside s z _).trans (wr_portAside _ 0 (by simp only [lineOff, ZP_STAT]; omega))).trans
    (PortAside.foldl (fun u m => fabResend_portAside m u) _ _)

end Sys2Proof.Machine

/-!
SUPPORT. The parts of the state that no loss on a port touches, the merge of the Twin-mode channels that it ends included (R282): the
position unit, the Tack room, Tally, the Twin pair, what waits to be sent, the cores and host memory.
-/

namespace Sys2Proof.Machine

/-- From `s` to `t` nothing has changed but registers, memory, the records of ports and channels, the links, and what leaves the device. -/
abbrev LineRest (s t : State) : Prop :=
  t = { s with csr := t.csr, mem := t.mem, bell := t.bell, ledger := t.ledger, ports := t.ports, units := t.units, clearTx := t.clearTx
               chans := t.chans, fab := t.fab, ym := t.ym, outs := t.outs }

theorem LineRest.refl (s : State) : LineRest s s := rfl

theorem LineRest.trans {s t u : State} (h : LineRest s t) (g : LineRest t u) : LineRest s u := by
  unfold LineRest at *
  rw [g, h]

theorem LineRest.ite {s t u : State} {c : Prop} [Decidable c] (h : LineRest s t) (g : LineRest s u) : LineRest s (if c then t else u) := by
  split <;> assumption

theorem LineRest.foldl {α : Type} {f : State → α → State} (hf : ∀ u a, LineRest u (f u a)) (l : List α) (s : State) :
    LineRest s (l.foldl f s) := by
  induction l generalizing s with
  | nil => exact .refl s
  | cons a l ih => exact (hf s a).trans (ih _)

theorem PortAside.lineRest {s t : State} (h : PortAside s t) : LineRest s t := by
  unfold LineRest
  rw [h.eqv]

theorem PortWork.lineRest {s t : State} (h : PortWork s t) : LineRest s t := by
  unfold LineRest
  rw [show t = _ from h]

theorem Quiet.lineRest {s t : State} (h : Quiet s t) : LineRest s t := h.portAside.lineRest

theorem setF_lineRest (s : State) (f : Fld) (v : Nat) : LineRest s (s.setF f v) := rfl

theorem wr64_lineRest (s : State) (o : Nat) (v : DWord) : LineRest s (s.wr64 o v) := rfl

theorem modChan_lineRest (s : State) (n : Nat) (f : Chan → Chan) : LineRest s (s.modChan n f) := rfl

/-- What a statement says stays of the parts of the state. -/
theorem LineRest.parts {s t : State} (h : LineRest s t) :
    t.cores = s.cores ∧ t.pos = s.pos ∧ t.tack = s.tack ∧ t.tally = s.tally ∧ t.brTx = s.brTx ∧ t.twin = s.twin ∧ t.hostMem = s.hostMem := by
  rw [show t = _ from h]
  exact ⟨rfl, rfl, rfl, rfl, rfl, rfl, rfl⟩

/-! ### Release and reassembly (R139, R186) -/

theorem fabSend_lineRest (dst typ status tag addr : Nat) (body : List Byte) (s : State) :
    LineRest s (fabSend dst typ status tag addr body s) := by
  have hfab : ∀ x, LineRest s { s with fab := x } := fun _ => rfl
  unfold fabSend
  extract_lets vc key een
  refine .ite (.refl s) ?_
  split
  · exact (fabEvt_portAside _ _ _ s).lineRest
  · exact (hfab _).trans (zSend_portAside _ _ _ _).lineRest

theorem plainOut_lineRest (n : Nat) (f : List Byte) (stomp : Bool) (s : State) : LineRest s (plainOut n f stomp s) :=
  .ite (fabSend_lineRest _ _ _ _ _ _ s) (emit_portAside s _).lineRest

theorem releaseFrame_lineRest (n : Nat) (f : List Byte) (s : State) : LineRest s (releaseFrame n f s) :=
  ((plainOut_lineRest n f false s).trans (modChan_lineRest _ n _)).trans ((wr64_lineRest _ _ _).trans (wr64_lineRest _ _ _))

theorem reasmShow_lineRest (n : Nat) (s : State) : LineRest s (reasmShow n s) := wr64_lineRest s _ _

theorem dropReasm_lineRest (n : Nat) (s : State) : LineRest s (dropReasm n s) :=
  ((LineRest.ite (plainOut_lineRest _ _ _ s) (.refl s)).trans (modChan_lineRest _ n _)).trans (reasmShow_lineRest n _)

theorem endPiece_lineRest (n : Nat) (abort : Bool) (p : List Byte) (s : State) : LineRest s (endPiece n abort p s) := by
  have h : LineRest s (s.modCell n (fun c => { c with reasm := [], discard := false })) := modChan_lineRest s n _
  exact .ite h (.ite (.ite (h.trans (plainOut_lineRest _ _ _ _)) h) (h.trans (releaseFrame_lineRest _ _ _)))

theorem reassemble_lineRest (n : Nat) (u : HeldUnit) (s : State) : LineRest s (reassemble n u s) := by
  have hend : ∀ (c : Prop) [Decidable c] (a : Bool) (p : List Byte) (t : State), LineRest t (if c then t else endPiece n a p t) :=
    fun c _ a p t => .ite (.refl t) (endPiece_lineRest n a p t)
  unfold reassemble
  extract_lets b used e0 e1 pay inOrder s1 s2 s3 s4 from' rest
  have h1 : LineRest s s1 := .ite (.refl s) (dropReasm_lineRest n s)
  have h4 : LineRest s s4 := ((h1.trans (modChan_lineRest _ n _)).trans (hend _ _ _ _)).trans (hend _ _ _ _)
  exact (LineRest.ite h4 (h4.trans (modChan_lineRest _ n _))).trans (reasmShow_lineRest n _)

/-! ### The merge (R282 to R286) -/

theorem setRel_lineRest (n e : Nat) (a : DWord) (s : State) : LineRest s (setRel n e a s) := rfl

theorem mergeLost_lineRest (n k : Nat) (s : State) : LineRest s (mergeLost n k s) :=
  .ite (.refl s) ((wr64_lineRest s _ _).trans ((report_quiet _ _ _ _ _).trans (bellPulse_quiet _ _)).lineRest)

theorem mergeOut_lineRest (n : Nat) (u : HeldUnit) (s : State) : LineRest s (mergeOut n u reassemble s) :=
  (((modChan_lineRest s n _).trans (wr64_lineRest _ _ _)).trans (setRel_lineRest n _ _ _)).trans (reassemble_lineRest n u _)

theorem mergeRun_lineRest (n k : Nat) (s : State) : LineRest s (mergeRun reassemble n k s) := by
  induction k generalizing s with
  | zero => exact .refl s
  | succ k ih =>
    unfold mergeRun
    split
    · exact .refl s
    · refine .ite (.ite ?_ (.refl s)) (.ite ?_ (.refl s))
      · exact ((modChan_lineRest s n _).trans (mergeOut_lineRest n _ _)).trans (ih _)
      · exact ((mergeLost_lineRest n _ s).trans (setRel_lineRest n _ _ _)).trans (ih _)

theorem cellPathsLost_lineRest (c : Nat) (s : State) : LineRest s (cellPathsLost c s) :=
  LineRest.foldl (fun u _ => ((setF_lineRest u _ _).trans (mergeRun_lineRest _ _ _)).trans (setF_lineRest _ _ _)) _ s

end Sys2Proof.Machine

/-!
SUPPORT. What a port's own operations write (spec/04): its event word (R109), what keeps it DOWN (R104), its fall (R105, R108) and what a
change of its configuration, shed or reference makes of it (R85).
-/

namespace Sys2Proof.Machine

/-! ### A port's words and record -/

theorem State.port_modPort_ne (s : State) {k j : Nat} (f : Port → Port) (h : j ≠ k) : (s.modPort k f).port j = s.port j :=
  tblGet_tblSet_ne _ _ _ _ _ _ (Ne.symm h)

@[simp] theorem State.modPort_portState (s : State) (k : Nat) (f : Port → Port) (j : Nat) : (s.modPort k f).portState j = s.portState j := rfl

/-- The fields of a port's status word: a write to one leaves the others. -/
theorem getF_setF_portStat {s : State} {k h l h' l' v : Nat} (hf : l ≤ h ∧ h < 32) (hg : l' ≤ h') (hd : h' < l ∨ h < l') :
    (s.setF ⟨PORT_STAT k, h, l⟩ v).getF ⟨PORT_STAT k, h', l'⟩ = s.getF ⟨PORT_STAT k, h', l'⟩ :=
  State.getF_setF_disj s ⟨PORT_STAT k, h, l⟩ ⟨PORT_STAT k, h', l'⟩ v hf.1 hf.2 hg (.inr hd)

theorem isSet_setF_portStat {s : State} {k h l h' l' v : Nat} (hf : l ≤ h ∧ h < 32) (hg : l' ≤ h') (hd : h' < l ∨ h < l') :
    (s.setF ⟨PORT_STAT k, h, l⟩ v).isSet ⟨PORT_STAT k, h', l'⟩ = s.isSet ⟨PORT_STAT k, h', l'⟩ := by
  unfold State.isSet
  rw [getF_setF_portStat hf hg hd]

theorem portState_setF_same (s : State) (k v : Nat) : (s.setF (PORT_STAT_STATE k) v).portState k = v % 4 :=
  State.getF_setF_same s (PORT_STAT_STATE k) v (show 0 ≤ 1 by decide) (show 1 < 32 by decide)

theorem reason_setF_same (s : State) (k v : Nat) : (s.setF (PORT_STAT_REASON k) v).getF (PORT_STAT_REASON k) = v % 16 :=
  State.getF_setF_same s (PORT_STAT_REASON k) v (show 4 ≤ 7 by decide) (show 7 < 32 by decide)

theorem State.isSet_congr {s t : State} {f : Fld} (h : t.rd f.off = s.rd f.off) : t.isSet f = s.isSet f := by
  unfold State.isSet
  rw [State.getF_congr h]

/-- Bit `b` of a word set (R40). -/
theorem fldSet_bit_one {b : Nat} (hb : b < 32) (w : Word) : fldSet b b 1 w = w ||| BitVec.ofNat 32 (2 ^ b) := by
  apply BitVec.eq_of_getLsbD_eq
  intro j hj
  rw [BitVec.getLsbD_or, BitVec.getLsbD_ofNat, Nat.testBit_two_pow]
  by_cases h : b = j
  · subst h
    have hset : (fldSet b b 1 w).getLsbD b = true :=
      getLsbD_of_fldGet (by rw [fldGet_fldSet _ _ _ _ le_rfl hb, Nat.add_sub_cancel_left]; rfl)
    simp [hset, hj]
  · have hset : (fldSet b b 1 w).getLsbD j = w.getLsbD j :=
      getLsbD_of_fldGet (by rw [fldGet_fldSet_ne _ _ _ _ _ _ le_rfl hb le_rfl (by omega), fldGet_bit])
    simp [hset, h]

theorem State.rd_setF_bit (s : State) (o : Nat) {b : Nat} (hb : b < 32) :
    (s.setF ⟨o, b, b⟩ 1).rd o = s.rd o ||| BitVec.ofNat 32 (2 ^ b) := by
  rw [State.setF, State.rd_wr_same]
  exact fldSet_bit_one hb _

theorem lineOff_portStat {k : Nat} (hk : k < 72) : lineOff (PORT_STAT k) := by simp only [lineOff, PORT_STAT]; omega
theorem lineOff_portEvt {k : Nat} (hk : k < 72) : lineOff (PORT_EVT k) := by simp only [lineOff, PORT_EVT]; omega

theorem portEvt_ne_portStat (k j : Nat) : PORT_EVT k ≠ PORT_STAT j := by simp only [PORT_EVT, PORT_STAT]; omega

/-! ### Events (R109) -/

section
variable {k bit code : Nat} {s : State}

/-- The state in which a port's event bit has been set and reported, before its interrupt. -/
def portEvtSet (k bit code : Nat) (s : State) : State :=
  (if code = 0 then s else s.report unitPorts code (portPath k) 0).setF ⟨PORT_EVT k, bit, bit⟩ 1

theorem portEvt_enabled (hen : s.isSet (PORT_CFG_EN k) = true) : portEvt k bit code s = portLine k (portEvtSet k bit code s) := if_pos hen

theorem portLine_bellWork (k : Nat) (s : State) : BellWork s (portLine k s) := bellInput_bellWork _ _ _

/-- An event leaves every register but its port's event word, Bell's, and the ledger's where it has a record. -/
theorem portEvt_rd (hen : s.isSet (PORT_CFG_EN k) = true) (hcls : faultClass code ≠ 3) (hcode : code < 0x1100) {o : Nat}
    (ho : o ≠ PORT_EVT k) (hbell : ¬ bellOff o) (hledger : code = 0 ∨ o / 2 ^ 24 ≠ 0x2F) : (portEvt k bit code s).rd o = s.rd o := by
  rw [portEvt_enabled hen, (portLine_bellWork _ _).rd _ hbell, portEvtSet, State.rd_setF_ne _ _ _ _ (Ne.symm ho)]
  by_cases hc : code = 0
  · rw [if_pos hc]
  · rw [if_neg hc]
    exact State.report_rd_ledger s _ _ _ hcls hcode (hledger.resolve_left hc)

theorem portEvt_rd_evt (hk : k < 72) (hen : s.isSet (PORT_CFG_EN k) = true) (hbit : bit < 32) :
    (portEvt k bit code s).rd (PORT_EVT k) = s.rd (PORT_EVT k) ||| BitVec.ofNat 32 (2 ^ bit) := by
  have hline : lineOff (PORT_EVT k) := lineOff_portEvt hk
  rw [portEvt_enabled hen, (portLine_bellWork _ _).rd _ (by unfold bellOff; unfold lineOff at hline; omega), portEvtSet,
    State.rd_setF_bit _ _ hbit]
  split
  · rfl
  · rw [(report_quiet s _ _ _ _).rd _ (quietOff_of_lineOff hline)]

theorem portEvt_rd_ne {o : Nat} (ho : lineOff o) (hne : o ≠ PORT_EVT k) : (portEvt k bit code s).rd o = s.rd o := by
  have hquiet : quietOff o := quietOff_of_lineOff ho
  unfold portEvt
  split
  · rw [portLine, (bellInput_quiet _ _ _).rd _ hquiet, State.rd_setF_ne _ _ _ _ (Ne.symm hne)]
    split
    · rfl
    · rw [(report_quiet s _ _ _ _).rd _ hquiet]
  · rfl

end

/-- From `s` to `t` nothing has changed but registers, interrupts, reports and what leaves the device. -/
abbrev ReportRest (s t : State) : Prop := t = { s with csr := t.csr, bell := t.bell, ledger := t.ledger, outs := t.outs }

theorem ReportRest.trans {s t u : State} (h : ReportRest s t) (g : ReportRest t u) : ReportRest s u := by
  unfold ReportRest at *
  rw [g, h]

theorem ReportRest.ports {s t : State} (h : ReportRest s t) : t.ports = s.ports := by rw [show t = _ from h]

theorem ReportRest.mem {s t : State} (h : ReportRest s t) : t.mem = s.mem := by rw [show t = _ from h]

theorem ReportRest.lineRest {s t : State} (h : ReportRest s t) : LineRest s t := by
  unfold LineRest
  rw [show t = _ from h]

theorem setF_reportRest (s : State) (f : Fld) (v : Nat) : ReportRest s (s.setF f v) := rfl

theorem wr64_reportRest (s : State) (o : Nat) (v : DWord) : ReportRest s (s.wr64 o v) := rfl

theorem portEvt_reportRest (k bit code : Nat) (s : State) : ReportRest s (portEvt k bit code s) := by
  have hreport : ReportRest s (if code = 0 then s else s.report unitPorts code (portPath k) 0) := by
    split
    · rfl
    · exact (report_quiet _ _ _ _ _).eqv
  unfold portEvt
  split
  · exact (hreport.trans (setF_reportRest _ _ _)).trans (bellInput_quiet _ _ _).eqv
  · rfl

/-! ### What a port may write (R105, R108) -/

/-- Work on port `k` leads from `s` to `t`: of the registers that ports rest on it writes the port's status and events alone, and of the
records that port's alone. -/
structure PortSide (k : Nat) (s t : State) : Prop where
  rd : ∀ o, lineOff o → o ≠ PORT_STAT k → o ≠ PORT_EVT k → t.rd o = s.rd o
  port : ∀ j, j ≠ k → t.port j = s.port j
  eqv : t = { s with csr := t.csr, mem := t.mem, bell := t.bell, ledger := t.ledger, outs := t.outs, units := t.units
                     clearTx := t.clearTx, ym := t.ym, fab := t.fab, ports := t.ports }

section
variable {k : Nat} {s t u : State}

theorem PortSide.trans (h : PortSide k s t) (g : PortSide k t u) : PortSide k s u :=
  ⟨fun o x y z => (g.rd o x y z).trans (h.rd o x y z), fun j x => (g.port j x).trans (h.port j x), by rw [g.eqv, h.eqv]⟩

theorem PortSide.refl (k : Nat) (s : State) : PortSide k s s := ⟨fun _ _ _ _ => rfl, fun _ _ => rfl, rfl⟩

theorem PortSide.ite {c : Prop} [Decidable c] (h : PortSide k s t) (g : PortSide k s u) : PortSide k s (if c then t else u) := by
  split <;> assumption

theorem PortAside.portSide (h : PortAside s t) (k : Nat) : PortSide k s t :=
  ⟨fun o x _ _ => h.rd o x, fun _ _ => State.port_congr h.ports _, by rw [h.eqv]⟩

theorem PortSide.lineRest (h : PortSide k s t) : LineRest s t := by
  unfold LineRest
  rw [h.eqv]

theorem setF_portStat_side {f : Fld} (v : Nat) (hf : f.off = PORT_STAT k) : PortSide k s (s.setF f v) :=
  ⟨fun _ _ x _ => State.rd_setF_ne _ _ _ _ (fun e => x (e ▸ hf)), fun _ _ => rfl, rfl⟩

theorem modPort_side (k : Nat) (f : Port → Port) (s : State) : PortSide k s (s.modPort k f) :=
  ⟨fun _ _ _ _ => rfl, fun _ x => State.port_modPort_ne s f x, rfl⟩

theorem portEvt_side (k bit code : Nat) (s : State) : PortSide k s (portEvt k bit code s) :=
  ⟨fun _ ho _ x => portEvt_rd_ne ho x, fun _ _ => State.port_congr (portEvt_reportRest k bit code s).ports _, by
    have h := portEvt_reportRest k bit code s
    rw [show portEvt k bit code s = _ from h]⟩

/-! ### The fall of a port (R105, R108, R184, R300) -/

/-- The port's own words and record when it falls. -/
def portLowered (k : Nat) (s : State) : State :=
  ((s.setF (PORT_STAT_STATE k) 0).setF (PORT_STAT_LOCK k) 0).modPort k (fun p => { p with anDone := false, slaved := false })

/-- What a port that was UP raises and loses. -/
def portLeftUp (k was : Nat) (s : State) : State := if was = 3 then clearLost k (dropOnLine k (portEvt k 1 0x0201 s)) else s

/-- A Z port's link is DOWN. -/
def portUnlinked (k : Nat) (s : State) : State := if isZ k then zLinkDown (k - 64) s else s

/-- A cell port is in HUNT again; from SYNC it is reported. -/
def portHunts (k : Nat) (s : State) : State :=
  let u := (s.setF (CELL_PORT_STAT_DELIN (k - 32)) 0).modPort k (fun p => { p with run := 0, odd := none })
  if 32 ≤ k ∧ k < 64 ∧ s.getF (CELL_PORT_STAT_DELIN (k - 32)) ≠ 0 then
    if s.getF (CELL_PORT_STAT_DELIN (k - 32)) = 2 then u.report unitPorts 0x020C (portPath k) 0 else u
  else s

theorem portDown_eq (k : Nat) (s : State) : portDown k s = portHunts k (portUnlinked k (portLeftUp k (s.portState k) (portLowered k s))) := rfl

theorem portUnlinked_aside (hk : k < 72) (s : State) : PortAside s (portUnlinked k s) :=
  .ite (zLinkDown_portAside (by omega) s) (.refl s)

theorem portLowered_side (k : Nat) (s : State) : PortSide k s (portLowered k s) :=
  ((setF_portStat_side 0 rfl).trans (setF_portStat_side 0 rfl)).trans (modPort_side k _ _)

theorem portLeftUp_side (k was : Nat) (s : State) : PortSide k s (portLeftUp k was s) :=
  .ite (((portEvt_side k 1 0x0201 s).trans ((dropOnLine_portAside _ _).portSide k)).trans ((clearLost_portAside _ _).portSide k)) (.refl k s)

/-- The end of delineation is work beside the port, on its record with the run of headers cleared where it had begun. -/
theorem portHunts_aside (k : Nat) (s : State) :
    PortAside s (portHunts k s) ∨ PortAside (s.modPort k (fun p => { p with run := 0, odd := none })) (portHunts k s) := by
  by_cases h : 32 ≤ k ∧ k < 64 ∧ s.getF (CELL_PORT_STAT_DELIN (k - 32)) ≠ 0
  · right
    have hdelin : PortAside (s.modPort k (fun p => { p with run := 0, odd := none }))
        ((s.setF (CELL_PORT_STAT_DELIN (k - 32)) 0).modPort k (fun p => { p with run := 0, odd := none })) :=
      (PortAside.refl _).setF (f := CELL_PORT_STAT_DELIN (k - 32))
        (by simp only [lineOff, CELL_PORT_STAT_DELIN, CELL_PORT_STAT]; omega)
    rw [portHunts, if_pos h]
    exact .ite (hdelin.trans (report_quiet _ _ _ _ _).portAside) hdelin
  · left
    rw [portHunts, if_neg h]
    exact .refl s

theorem portHunts_rd {o : Nat} (ho : lineOff o) : (portHunts k s).rd o = s.rd o :=
  (portHunts_aside k s).elim (fun h => h.rd o ho) (fun h => h.rd o ho)

theorem portHunts_side (k : Nat) (s : State) : PortSide k s (portHunts k s) :=
  (portHunts_aside k s).elim (fun h => h.portSide k) (fun h => (modPort_side k _ s).trans (h.portSide k))

theorem portDown_side (hk : k < 72) (s : State) : PortSide k s (portDown k s) := by
  rw [portDown_eq]
  exact (((portLowered_side k s).trans (portLeftUp_side k _ _)).trans ((portUnlinked_aside hk _).portSide k)).trans (portHunts_side k _)

theorem portDown_rd_stat (hk : k < 72) (s : State) :
    (portDown k s).rd (PORT_STAT k) = ((s.setF (PORT_STAT_STATE k) 0).setF (PORT_STAT_LOCK k) 0).rd (PORT_STAT k) := by
  have hline : lineOff (PORT_STAT k) := lineOff_portStat hk
  have hleft : ∀ was u, (portLeftUp k was u).rd (PORT_STAT k) = u.rd (PORT_STAT k) := by
    intro was u
    unfold portLeftUp
    split
    · rw [(clearLost_portAside _ _).rd _ hline, (dropOnLine_portAside _ _).rd _ hline, portEvt_rd_ne hline (portEvt_ne_portStat k k).symm]
    · rfl
  rw [portDown_eq, portHunts_rd hline, (portUnlinked_aside hk _).rd _ hline, hleft]
  rfl

/-- A port that was UP raises DOWN (R109). -/
theorem portDown_rd_evt (hk : k < 72) (hst : s.portState k = 3) (hen : s.isSet (PORT_CFG_EN k) = true) :
    (portDown k s).rd (PORT_EVT k) = s.rd (PORT_EVT k) ||| 2 := by
  have hline : lineOff (PORT_EVT k) := lineOff_portEvt hk
  have hown : ∀ {f : Fld}, f.off = PORT_CFG k ∨ f.off = PORT_EVT k → (portLowered k s).rd f.off = s.rd f.off := by
    intro f hf
    have hne : PORT_STAT k ≠ f.off := by rcases hf with h | h <;> rw [h] <;> simp only [PORT_STAT, PORT_CFG, PORT_EVT] <;> omega
    rw [portLowered, State.modPort_rd, State.rd_setF_ne _ _ _ _ hne, State.rd_setF_ne _ _ _ _ hne]
  have hen' : (portLowered k s).isSet (PORT_CFG_EN k) = true := by
    rw [← hen, State.isSet, State.isSet, State.getF_congr (hown (.inl rfl))]
  rw [portDown_eq, portHunts_rd hline, (portUnlinked_aside hk _).rd _ hline, portLeftUp, if_pos hst,
    (clearLost_portAside _ _).rd _ hline, (dropOnLine_portAside _ _).rd _ hline, portEvt_rd_evt hk hen' (by decide)]
  exact congrArg (· ||| 2) (hown (f := PORT_EVT_EVT k) (.inr rfl))

/-! ### The record of a port -/

/-- The table of ports names port `k` once at most. -/
def PortListed (k : Nat) (s : State) : Prop := ∀ e ∈ s.ports, e.1 = k → e.2 = s.port k

theorem PortListed.congr (h : PortListed k s) (hp : t.ports = s.ports) : PortListed k t := by
  unfold PortListed State.port at *
  rwa [hp]

theorem modPort_listed (k : Nat) (f : Port → Port) (s : State) : PortListed k (s.modPort k f) := by
  intro e he hk
  rw [State.port_modPort_same]
  have hdel : ∀ e ∈ tblDel k s.ports, e.1 ≠ k := fun e he => ((mem_tblDel k s.ports e).mp he).2
  simp only [State.modPort, tblSet] at he
  split at he
  · exact absurd hk (hdel e he)
  · rcases (mem_tblIns _ _ _ _).mp he with rfl | he
    · rfl
    · exact absurd hk (hdel e he)

theorem portDown_record (hk : k < 72) (s : State) :
    ((portDown k s).port k).anDone = false ∧ ((portDown k s).port k).retry = (s.port k).retry ∧ PortListed k (portDown k s) := by
  have hports : (portUnlinked k (portLeftUp k (s.portState k) (portLowered k s))).ports = (portLowered k s).ports := by
    have hleft : ∀ was u, (portLeftUp k was u).ports = u.ports := by
      intro was u
      unfold portLeftUp
      split
      · rw [(clearLost_portAside _ _).ports, (dropOnLine_portAside _ _).ports, (portEvt_reportRest _ _ _ _).ports]
      · rfl
    rw [(portUnlinked_aside hk _).ports, hleft]
  have hlow : (portLowered k s).port k = { s.port k with anDone := false, slaved := false } := State.port_modPort_same _ _ _
  rw [portDown_eq]
  rcases portHunts_aside k (portUnlinked k (portLeftUp k (s.portState k) (portLowered k s))) with h | h
  · rw [State.port_congr (h.ports.trans hports), hlow]
    exact ⟨rfl, rfl, (modPort_listed k _ _).congr (h.ports.trans hports)⟩
  · rw [State.port_congr h.ports, State.port_modPort_same, State.port_congr hports, hlow]
    exact ⟨rfl, rfl, (modPort_listed k _ _).congr h.ports⟩

end

theorem tblGet_of_not_listed {α : Type} {d : α} {k : Nat} {l : Table α} (h : ¬ ∃ e ∈ l, e.1 = k) : tblGet d k l = d := by
  induction l with
  | nil => rfl
  | cons e l ih =>
    simp only [List.mem_cons, exists_eq_or_imp, not_or] at h
    rw [tblGet, if_neg h.1, ih h.2]

/-- A table whose entries have been changed, those then equal to the default left out, read at a key that had one value alone. -/
theorem tblGet_filterMap {α : Type} [DecidableEq α] {d v : α} {k : Nat} (g : Nat × α → α) {l : Table α}
    (hl : ∀ e ∈ l, e.1 = k → e.2 = v) :
    tblGet d k (l.filterMap (fun e => if g e = d then none else some (e.1, g e))) = if ∃ e ∈ l, e.1 = k then g (k, v) else d := by
  induction l with
  | nil => simp
  | cons e l ih =>
    obtain ⟨a, x⟩ := e
    obtain ⟨hx, hl⟩ := List.forall_mem_cons.mp hl
    have ih := ih hl
    simp only [List.mem_cons, exists_eq_or_imp]
    by_cases ha : a = k
    · obtain rfl : a = k := ha
      obtain rfl : x = v := hx rfl
      by_cases hd : g (a, x) = d
      · simp only [List.filterMap_cons, hd, if_true, ih, ite_self]
      · simp only [List.filterMap_cons, if_neg hd, tblGet, if_true, true_or]
    · simp only [ha, false_or]
      rw [← ih]
      by_cases hd : g (a, x) = d
      · simp only [List.filterMap_cons, if_pos hd]
      · simp only [List.filterMap_cons, if_neg hd, tblGet, if_neg ha]

/-- The record of an entry of the table of ports once the partner `j` is lost. -/
def refTimed (j : Nat) (s : State) (e : Nat × Port) : Port :=
  if decide (s.getF (PORT_TIMING_PARTNER e.1) = j) then { e.2 with slaved := false } else e.2

theorem partnersLost_eq (j : Nat) (s : State) : partnersLost j s =
    { s with ports := s.ports.filterMap (fun e => if refTimed j s e = Port.reset then none else some (e.1, refTimed j s e)) } := rfl

/-- Ports that lose their partner transmit reference-timed, and nothing else of a port's record changes (R102). -/
theorem partnersLost_port {k : Nat} {s : State} (j : Nat) (h : PortListed k s) :
    (partnersLost j s).port k = s.port k ∨ (partnersLost j s).port k = { s.port k with slaved := false } := by
  have hget : (partnersLost j s).port k = if ∃ e ∈ s.ports, e.1 = k then refTimed j s (k, s.port k) else Port.reset := by
    rw [partnersLost_eq]
    exact tblGet_filterMap (refTimed j s) h
  rw [hget]
  split
  · unfold refTimed
    split
    · exact .inr rfl
    · exact .inl rfl
  · exact .inl (tblGet_of_not_listed ‹_›).symm

/-! ### What keeps a port DOWN (R85, R104) -/

/-- A register of the ports' configuration, or of the power unit. -/
abbrev cfgOff (o : Nat) : Prop := (o / 2 ^ 24 = 0x21 ∧ o % 0x40 = 0) ∨ o / 2 ^ 24 = 0x2C

/-- The first cause of the port's configuration and shed that keeps it DOWN. -/
def portBar (s : State) (k : Nat) : Option Nat :=
  if !s.isSet (PORT_CFG_EN k) then some 0
  else if !portShedOn s k then some 1
  else if !isZ k && s.isSet (GRP_CFG_MAP_BAD (portGroup k)) then some 5
  else if !portTypeOk s k then some 2
  else if !portAligned s k then some 3
  else if portOverlap s k then some 4
  else none

section
variable {k : Nat} {s t : State}

theorem portReason_eq (s : State) (k : Nat) : portReason s k = (portBar s k).or
    (if portRefLost s k then some 8 else if !s.isSet (PORT_STAT_SIGNAL k) then some 6 else if (s.port k).retry then some 7 else none) := by
  unfold portReason portBar
  split_ifs <;> rfl

theorem portBar_le {r : Nat} (h : portBar s k = some r) : r ≤ 5 := by
  unfold portBar at h
  split_ifs at h <;> cases h <;> decide

/-- A cause past the configuration's says that the configuration bars nothing. -/
theorem portBar_of_reason {r : Nat} (hr : 5 < r) (h : portReason s k = some r) :
    portBar s k = none ∧ (if portRefLost s k then some 8 else if !s.isSet (PORT_STAT_SIGNAL k) then some 6
      else if (s.port k).retry then some 7 else none) = some r := by
  rw [portReason_eq] at h
  cases hbar : portBar s k with
  | none => exact ⟨rfl, by rwa [hbar, Option.none_or] at h⟩
  | some b =>
    rw [hbar, Option.some_or, Option.some.injEq] at h
    have := portBar_le hbar
    omega

theorem portReason_none_iff : portReason s k = none ↔
    portBar s k = none ∧ portRefLost s k = false ∧ s.isSet (PORT_STAT_SIGNAL k) = true ∧ (s.port k).retry = false := by
  rw [portReason_eq, Option.or_eq_none_iff]
  refine and_congr_right fun _ => ?_
  cases portRefLost s k <;> cases s.isSet (PORT_STAT_SIGNAL k) <;> cases (s.port k).retry <;> simp

theorem portBar_enabled (h : portBar s k = none) : s.isSet (PORT_CFG_EN k) = true := by
  unfold portBar at h
  split_ifs at h with hen
  simpa using hen

theorem portReason_of_bar (hbar : portBar s k = none) : portReason s k =
    (if portRefLost s k then some 8 else if !s.isSet (PORT_STAT_SIGNAL k) then some 6 else if (s.port k).retry then some 7 else none) := by
  rw [portReason_eq, hbar, Option.none_or]

end

/-! What a port's configuration bars rests on configuration alone. -/

section
variable {k : Nat} {s t : State}

theorem getF_of_cfg (h : ∀ o, cfgOff o → t.rd o = s.rd o) {f : Fld} (hf : cfgOff f.off) : t.getF f = s.getF f := State.getF_congr (h _ hf)

theorem isSet_of_cfg (h : ∀ o, cfgOff o → t.rd o = s.rd o) {f : Fld} (hf : cfgOff f.off) : t.isSet f = s.isSet f := by
  rw [State.isSet, State.isSet, getF_of_cfg h hf]

theorem cfgOff_portCfg (hk : k < 72) : cfgOff (PORT_CFG k) := by simp only [cfgOff, PORT_CFG]; omega

theorem cfgOff_grpCfg (hk : k < 72) : cfgOff (GRP_CFG (portGroup k)) := by simp only [cfgOff, GRP_CFG, portGroup]; omega

theorem portShedOn_congr (h : ∀ o, cfgOff o → t.rd o = s.rd o) (k : Nat) : portShedOn t k = portShedOn s k := by
  unfold portShedOn State.shedOn State.shedState
  rw [State.rd64_congr (h PWR_SHED_STAT_LO (by decide)) (h (PWR_SHED_STAT_LO + 4) (by decide))]

theorem portTypeOk_congr (h : ∀ o, cfgOff o → t.rd o = s.rd o) (hk : k < 72) : portTypeOk t k = portTypeOk s k := by
  unfold portTypeOk
  rw [getF_of_cfg h (f := PORT_CFG_TYPE k) (cfgOff_portCfg hk), getF_of_cfg h (f := PORT_CFG_FEC k) (cfgOff_portCfg hk),
    getF_of_cfg h (f := GRP_CFG_FAMILY (portGroup k)) (cfgOff_grpCfg hk)]

theorem portAligned_congr (h : ∀ o, cfgOff o → t.rd o = s.rd o) (hk : k < 72) : portAligned t k = portAligned s k := by
  unfold portAligned
  rw [getF_of_cfg h (f := PORT_CFG_TYPE k) (cfgOff_portCfg hk)]

theorem portClaims_congr (h : ∀ o, cfgOff o → t.rd o = s.rd o) (hk : k < 72) : portClaims t k = portClaims s k := by
  unfold portClaims
  rw [isSet_of_cfg h (f := PORT_CFG_EN k) (cfgOff_portCfg hk), portShedOn_congr h, portTypeOk_congr h hk, portAligned_congr h hk]

theorem portOverlap_congr (h : ∀ o, cfgOff o → t.rd o = s.rd o) (hk : k < 72) : portOverlap t k = portOverlap s k := by
  unfold portOverlap
  congr 1
  refine List.any_congr rfl fun i => ?_
  by_cases hj : portGroup k * 8 + i < k
  · have hj72 : portGroup k * 8 + i < 72 := by omega
    simp only [portClaims_congr h hj72, getF_of_cfg h (f := PORT_CFG_TYPE (portGroup k * 8 + i)) (cfgOff_portCfg hj72)]
  · simp only [hj, decide_false, Bool.false_and]

theorem portBar_congr (h : ∀ o, cfgOff o → t.rd o = s.rd o) (hk : k < 72) : portBar t k = portBar s k := by
  unfold portBar
  rw [isSet_of_cfg h (f := PORT_CFG_EN k) (cfgOff_portCfg hk), portShedOn_congr h, portTypeOk_congr h hk, portAligned_congr h hk,
    portOverlap_congr h hk, isSet_of_cfg h (f := GRP_CFG_MAP_BAD (portGroup k)) (cfgOff_grpCfg hk)]

theorem portRefLost_congr (h : ∀ o, cfgOff o → t.rd o = s.rd o) (href : t.refLost = s.refLost) (hk : k < 72) :
    portRefLost t k = portRefLost s k := by
  unfold portRefLost
  rw [href, getF_of_cfg h (f := GRP_CFG_REFSEL (portGroup k)) (cfgOff_grpCfg hk)]

theorem PortSide.cfg {j : Nat} (hj : j < 72) (h : PortSide j s t) : ∀ o, cfgOff o → t.rd o = s.rd o := by
  intro o ho
  have hline : lineOff o := by unfold lineOff; unfold cfgOff at ho; omega
  exact h.rd o hline (by simp only [PORT_STAT]; unfold cfgOff at ho; omega) (by simp only [PORT_EVT]; unfold cfgOff at ho; omega)

end

end Sys2Proof.Machine

/-!
SUPPORT. What a port makes of a cause that keeps it DOWN, and what is lost with a port that leaves UP (R85, R102, R104, R282).
-/

namespace Sys2Proof.Machine

section
variable {k : Nat} {s t u : State}

/-! ### A port's state brought up to date (R85, R104) -/

theorem portRefresh_of_reason {r : Nat} (hr : 5 < r) (h : portReason s k = some r) :
    portRefresh k s = (if s.portState k = 0 then s else portDown k s).setF (PORT_STAT_REASON k) r := by
  unfold portRefresh
  rw [h]
  have : decide (r ≤ 5) = false := decide_eq_false (by omega)
  simp only [this, Bool.and_false, Bool.false_and, Bool.false_eq_true, if_false]

theorem portRefresh_of_none (h : portReason s k = none) :
    portRefresh k s = (s.modPort k (fun p => { p with badSeen := false })).setF (PORT_STAT_REASON k) 0 := by
  unfold portRefresh
  rw [h]

theorem portReason_of_signal_lost (hbar : portBar s k = none) (href : portRefLost s k = false) (hsig : s.isSet (PORT_STAT_SIGNAL k) = false) :
    portReason s k = some 6 := by
  simp [portReason_of_bar hbar, href, hsig]

theorem portReason_of_retry (hbar : portBar s k = none) (href : portRefLost s k = false) (hsig : s.isSet (PORT_STAT_SIGNAL k) = true)
    (hretry : (s.port k).retry = true) : portReason s k = some 7 := by
  simp [portReason_of_bar hbar, href, hsig, hretry]

theorem PortSide.refLost (h : PortSide k s t) : t.refLost = s.refLost := by rw [h.eqv]

/-! ### Loss on a port (R102, R105, R282) -/

theorem portLostAfter_chanWork (sync : Bool) : ChanWork (partnersLost k s) (portLostAfter k sync s) :=
  .ite (cellPathsLost_chanWork _ _) (.refl _)

theorem portLostAfter_rd (sync : Bool) {o : Nat} (ho : o < 0x22000000) : (portLostAfter k sync s).rd o = s.rd o :=
  (portLostAfter_chanWork sync).rd o (by unfold keptOff; omega)

theorem portLostAfter_port (sync : Bool) (h : PortListed k s) :
    (portLostAfter k sync s).port k = s.port k ∨ (portLostAfter k sync s).port k = { s.port k with slaved := false } := by
  rw [State.port_congr (portLostAfter_chanWork sync).ports]
  exact partnersLost_port k h

theorem portLostAfter_lineRest (k : Nat) (sync : Bool) (s : State) : LineRest s (portLostAfter k sync s) := by
  have hlost : LineRest s (partnersLost k s) := rfl
  exact .ite (hlost.trans (cellPathsLost_lineRest _ _)) hlost

/-- What keeps a port that was UP out of UP has been met, and what rested on the port is lost. -/
def portFalls (k : Nat) (sync : Bool) (s : State) : State := portLostAfter k sync (portRefresh k s)

/-- A port leaves UP for a cause past its configuration: reference, signal or the hold after a loss of lock. -/
theorem portFalls_spec {r : Nat} (hk : k < 72) (sync : Bool) (hst : s.portState k = 3) (hen : s.isSet (PORT_CFG_EN k) = true)
    (hr : 5 < r ∧ r < 16) (hreason : portReason s k = some r) :
    (portFalls k sync s).portState k = 0 ∧ (portFalls k sync s).isSet (PORT_STAT_LOCK k) = false ∧
      (portFalls k sync s).getF (PORT_STAT_REASON k) = r ∧
      (portFalls k sync s).isSet (PORT_STAT_SIGNAL k) = s.isSet (PORT_STAT_SIGNAL k) ∧
      (portFalls k sync s).rd (PORT_EVT k) = s.rd (PORT_EVT k) ||| 2 ∧ ((portFalls k sync s).port k).anDone = false ∧
      ((portFalls k sync s).port k).retry = (s.port k).retry ∧ LineRest s (portFalls k sync s) := by
  obtain ⟨hdone, hretry, hlisted⟩ := portDown_record hk s
  have hdown : portRefresh k s = (portDown k s).setF (PORT_STAT_REASON k) r := by
    rw [portRefresh_of_reason hr.1 hreason, if_neg (by rw [hst]; decide)]
  have hstat : ∀ f : Fld, f.off = PORT_STAT k → (portFalls k sync s).getF f = ((portDown k s).setF (PORT_STAT_REASON k) r).getF f :=
    fun f hf => State.getF_congr (by rw [portFalls, portLostAfter_rd sync (by rw [hf, PORT_STAT]; omega), hdown])
  have hword : ∀ f : Fld, f.off = PORT_STAT k →
      (portDown k s).getF f = ((s.setF (PORT_STAT_STATE k) 0).setF (PORT_STAT_LOCK k) 0).getF f :=
    fun f hf => State.getF_congr (by rw [hf, portDown_rd_stat hk])
  have hport : (portFalls k sync s).port k = (portDown k s).port k ∨
      (portFalls k sync s).port k = { (portDown k s).port k with slaved := false } := by
    rw [portFalls, hdown]
    exact portLostAfter_port sync (hlisted.congr rfl)
  refine ⟨?_, ?_, ?_, ?_, ?_, ?_, ?_, ?_⟩
  · calc (portFalls k sync s).portState k
        = ((portDown k s).setF (PORT_STAT_REASON k) r).getF (PORT_STAT_STATE k) := hstat _ rfl
      _ = (portDown k s).getF (PORT_STAT_STATE k) := getF_setF_portStat (by decide) (by decide) (by decide)
      _ = ((s.setF (PORT_STAT_STATE k) 0).setF (PORT_STAT_LOCK k) 0).getF (PORT_STAT_STATE k) := hword _ rfl
      _ = (s.setF (PORT_STAT_STATE k) 0).getF (PORT_STAT_STATE k) := getF_setF_portStat (by decide) (by decide) (by decide)
      _ = 0 := portState_setF_same s k 0
  · have hlock : (portFalls k sync s).getF (PORT_STAT_LOCK k) = ((s.setF (PORT_STAT_STATE k) 0).setF (PORT_STAT_LOCK k) 0).getF (PORT_STAT_LOCK k) :=
      calc (portFalls k sync s).getF (PORT_STAT_LOCK k)
          = ((portDown k s).setF (PORT_STAT_REASON k) r).getF (PORT_STAT_LOCK k) := hstat _ rfl
        _ = (portDown k s).getF (PORT_STAT_LOCK k) := getF_setF_portStat (by decide) (by decide) (by decide)
        _ = _ := hword _ rfl
    rw [State.isSet, hlock]
    exact State.isSet_setF_bit_zero _ (PORT_STAT_LOCK k) rfl (show 11 < 32 by decide)
  · rw [hstat _ rfl, reason_setF_same, Nat.mod_eq_of_lt hr.2]
  · have hsig : (portFalls k sync s).getF (PORT_STAT_SIGNAL k) = s.getF (PORT_STAT_SIGNAL k) :=
      calc (portFalls k sync s).getF (PORT_STAT_SIGNAL k)
          = ((portDown k s).setF (PORT_STAT_REASON k) r).getF (PORT_STAT_SIGNAL k) := hstat _ rfl
        _ = (portDown k s).getF (PORT_STAT_SIGNAL k) := getF_setF_portStat (by decide) (by decide) (by decide)
        _ = ((s.setF (PORT_STAT_STATE k) 0).setF (PORT_STAT_LOCK k) 0).getF (PORT_STAT_SIGNAL k) := hword _ rfl
        _ = (s.setF (PORT_STAT_STATE k) 0).getF (PORT_STAT_SIGNAL k) := getF_setF_portStat (by decide) (by decide) (by decide)
        _ = s.getF (PORT_STAT_SIGNAL k) := getF_setF_portStat (by decide) (by decide) (by decide)
    rw [State.isSet, State.isSet, hsig]
  · rw [portFalls, portLostAfter_rd sync (by rw [PORT_EVT]; omega), hdown,
      State.rd_setF_ne _ _ _ _ (portEvt_ne_portStat k k).symm, portDown_rd_evt hk hst hen]
  · rcases hport with h | h <;> rw [h] <;> exact hdone
  · rcases hport with h | h <;> rw [h] <;> exact hretry
  · rw [portFalls, hdown]
    exact ((portDown_side hk s).lineRest.trans (setF_lineRest _ _ _)).trans (portLostAfter_lineRest _ _ _)

end

end Sys2Proof.Machine

/-!
O28: the link states of a port (R104, R105, R109), each event by what it makes of the port's status, events and record.
-/

namespace Sys2Proof.Machine

/-! ### The events that move a port (R104, R105) -/

section
variable {k : Nat} {s t u : State}

/-- Registers of the port alone written keep what its configuration bars. -/
theorem PortSide.bar (hk : k < 72) (h : PortSide k s t) : portBar t k = portBar s k := portBar_congr (h.cfg hk) hk

theorem PortSide.refAbsent (hk : k < 72) (h : PortSide k s t) : portRefLost t k = portRefLost s k := portRefLost_congr (h.cfg hk) h.refLost hk

theorem PortSide.enabled (hk : k < 72) (h : PortSide k s t) : t.isSet (PORT_CFG_EN k) = s.isSet (PORT_CFG_EN k) :=
  isSet_of_cfg (h.cfg hk) (cfgOff_portCfg hk)

theorem portEvt_getF_stat {bit code : Nat} {f : Fld} (hk : k < 72) (hf : f.off = PORT_STAT k) : (portEvt k bit code s).getF f = s.getF f :=
  State.getF_congr (portEvt_rd_ne (hf ▸ lineOff_portStat hk) (hf ▸ (portEvt_ne_portStat k k).symm))

theorem portEvt_isSet_stat {bit code : Nat} {f : Fld} (hk : k < 72) (hf : f.off = PORT_STAT k) : (portEvt k bit code s).isSet f = s.isSet f := by
  rw [State.isSet, State.isSet, portEvt_getF_stat hk hf]

/-- The state of a port that has met a loss of signal and raised it. -/
def signalLost (k : Nat) (s : State) : State := portEvt k 2 0x0202 (s.setF (PORT_STAT_SIGNAL k) 0)

theorem execPortLos_eq (i : Fin 72) (s : State) :
    execPortLos i none s = .next (portFalls i.val (inSync s i.val) (signalLost i.val s)) := rfl

theorem signalLost_side (k : Nat) (s : State) : PortSide k s (signalLost k s) := (setF_portStat_side 0 rfl).trans (portEvt_side _ _ _ _)

/-- Loss of signal on a port that is UP (R105). -/
theorem portLos_up (i : Fin 72) (hst : s.portState i.val = 3) (hreason : portReason s i.val = none) :
    let t := portFalls i.val (inSync s i.val) (signalLost i.val s)
    t.portState i.val = 0 ∧ t.isSet (PORT_STAT_SIGNAL i.val) = false ∧ t.isSet (PORT_STAT_LOCK i.val) = false ∧
      t.getF (PORT_STAT_REASON i.val) = 6 ∧ t.rd (PORT_EVT i.val) = s.rd (PORT_EVT i.val) ||| 6 ∧ (t.port i.val).anDone = false ∧
      LineRest s t := by
  have hk := i.isLt
  generalize i.val = k at *
  obtain ⟨hbar, href, -, -⟩ := portReason_none_iff.mp hreason
  have hside := signalLost_side k s
  have hen := portBar_enabled hbar
  have hsignal : (signalLost k s).isSet (PORT_STAT_SIGNAL k) = false := by
    rw [signalLost, portEvt_isSet_stat hk rfl]
    exact State.isSet_setF_bit_zero s (PORT_STAT_SIGNAL k) rfl (show 10 < 32 by decide)
  have hup : (signalLost k s).portState k = 3 := by
    rw [State.portState, signalLost, portEvt_getF_stat hk rfl, ← hst]
    exact getF_setF_portStat (by decide) (by decide) (by decide)
  have hevt : (signalLost k s).rd (PORT_EVT k) = s.rd (PORT_EVT k) ||| 4 := by
    have hen' : (s.setF (PORT_STAT_SIGNAL k) 0).isSet (PORT_CFG_EN k) = true := by
      rwa [(setF_portStat_side 0 rfl : PortSide k s (s.setF (PORT_STAT_SIGNAL k) 0)).enabled hk]
    rw [signalLost, portEvt_rd_evt hk hen' (by decide), State.rd_setF_ne _ _ _ _ (portEvt_ne_portStat k k).symm]
    rfl
  obtain ⟨hstate, hlock, hr, hsig, hrd, hdone, -, hrest⟩ := portFalls_spec (s := signalLost k s) (r := 6) hk (inSync s k) hup
    ((hside.enabled hk).trans hen) (by decide)
    (portReason_of_signal_lost ((hside.bar hk).trans hbar) ((hside.refAbsent hk).trans href) hsignal)
  refine ⟨hstate, hsig.trans hsignal, hlock, hr, ?_, hdone, hside.lineRest.trans hrest⟩
  rw [hrd, hevt, BitVec.or_assoc]
  rfl

/-- The state of a port that has lost its lock in UP, raised it, and holds for a millisecond. -/
def lockLost (k : Nat) (s : State) : State := (portEvt k 3 0x0203 s).modPort k (fun p => { p with retry := true })

theorem execPortLockLost_up (i : Fin 72) (hst : s.portState i.val = 3) :
    execPortLockLost i none s = .next (portFalls i.val (inSync s i.val) (lockLost i.val s)) := by
  have hup : s.portUp i.val = true := decide_eq_true hst
  unfold execPortLockLost portLockLost
  simp only [hup, hst, if_true]
  rfl

theorem lockLost_side (k : Nat) (s : State) : PortSide k s (lockLost k s) := (portEvt_side _ _ _ _).trans (modPort_side _ _ _)

/-- Loss of lock on a port that is UP (R105). -/
theorem portLockLost_up (i : Fin 72) (hst : s.portState i.val = 3) (hreason : portReason s i.val = none) :
    let t := portFalls i.val (inSync s i.val) (lockLost i.val s)
    t.portState i.val = 0 ∧ t.isSet (PORT_STAT_LOCK i.val) = false ∧ t.getF (PORT_STAT_REASON i.val) = 7 ∧ (t.port i.val).retry = true ∧
      t.rd (PORT_EVT i.val) = s.rd (PORT_EVT i.val) ||| 10 ∧ LineRest s t := by
  have hk := i.isLt
  generalize i.val = k at *
  obtain ⟨hbar, href, hsig, -⟩ := portReason_none_iff.mp hreason
  have hside := lockLost_side k s
  have hen := portBar_enabled hbar
  have hsignal : (lockLost k s).isSet (PORT_STAT_SIGNAL k) = true := by rw [lockLost, State.modPort_isSet, portEvt_isSet_stat hk rfl, hsig]
  have hup : (lockLost k s).portState k = 3 := by
    rw [lockLost, State.modPort_portState, State.portState, portEvt_getF_stat hk rfl]
    exact hst
  have hevt : (lockLost k s).rd (PORT_EVT k) = s.rd (PORT_EVT k) ||| 8 := by
    rw [lockLost, State.modPort_rd, portEvt_rd_evt hk hen (by decide)]
    rfl
  have hretry : ((lockLost k s).port k).retry = true := by rw [lockLost, State.port_modPort_same]
  obtain ⟨hstate, hlock, hr, -, hrd, -, hkeep, hrest⟩ := portFalls_spec (s := lockLost k s) (r := 7) hk (inSync s k) hup
    ((hside.enabled hk).trans hen) (by decide)
    (portReason_of_retry ((hside.bar hk).trans hbar) ((hside.refAbsent hk).trans href) hsignal hretry)
  refine ⟨hstate, hlock, hr, hkeep.trans hretry, ?_, hside.lineRest.trans hrest⟩
  rw [hrd, hevt, BitVec.or_assoc]
  rfl

/-- The state of a port that has lost its lock in HOLD. -/
def lockLostHold (k : Nat) (s : State) : State := (portEvt k 3 0x0203 (s.setF (PORT_STAT_LOCK k) 0)).setF (PORT_STAT_STATE k) 1

theorem execPortLockLost_hold (i : Fin 72) (hst : s.portState i.val = 2) : execPortLockLost i none s = .next (lockLostHold i.val s) := by
  have hup : s.portUp i.val = false := decide_eq_false (by rw [hst]; decide)
  unfold execPortLockLost portLockLost
  simp only [hup, hst, if_true, Bool.false_eq_true, if_false]
  rfl

/-- Loss of lock on a port in HOLD (R105). -/
theorem lockLostHold_spec (hk : k < 72) (hen : s.isSet (PORT_CFG_EN k) = true) :
    (lockLostHold k s).portState k = 1 ∧ (lockLostHold k s).isSet (PORT_STAT_LOCK k) = false ∧
      (lockLostHold k s).rd (PORT_EVT k) = s.rd (PORT_EVT k) ||| 8 ∧ ReportRest s (lockLostHold k s) := by
  have hen' : (s.setF (PORT_STAT_LOCK k) 0).isSet (PORT_CFG_EN k) = true := by
    rwa [(setF_portStat_side 0 rfl : PortSide k s (s.setF (PORT_STAT_LOCK k) 0)).enabled hk]
  refine ⟨portState_setF_same _ k 1, ?_, ?_, ?_⟩
  · have hlock : (lockLostHold k s).isSet (PORT_STAT_LOCK k) = (portEvt k 3 0x0203 (s.setF (PORT_STAT_LOCK k) 0)).isSet (PORT_STAT_LOCK k) :=
      isSet_setF_portStat (by decide) (by decide) (by decide)
    rw [hlock, portEvt_isSet_stat hk rfl]
    exact State.isSet_setF_bit_zero s (PORT_STAT_LOCK k) rfl (show 11 < 32 by decide)
  · rw [lockLostHold, State.rd_setF_ne _ _ _ _ (portEvt_ne_portStat k k).symm, portEvt_rd_evt hk hen' (by decide),
      State.rd_setF_ne _ _ _ _ (portEvt_ne_portStat k k).symm]
    rfl
  · exact ((setF_reportRest s _ _).trans (portEvt_reportRest _ _ _ _)).trans (setF_reportRest _ _ _)

/-! ### The way up (R93, R104, R296) -/

/-- The state of a port that has signal, with nothing that keeps it DOWN. -/
def signalMet (k : Nat) (s : State) : State :=
  ((s.setF (PORT_STAT_SIGNAL k) 1).modPort k (fun p => { p with badSeen := false })).setF (PORT_STAT_REASON k) 0

/-- The state of a port that enters ACQUIRE. -/
def portAcquires (k : Nat) (s : State) : State := ((signalMet k s).setF (PORT_STAT_STATE k) 1).setF (PORT_STAT_REASON k) 0

theorem signalMet_isSet (k : Nat) (s : State) : (signalMet k s).isSet (PORT_STAT_SIGNAL k) = true := by
  have hreason : (signalMet k s).isSet (PORT_STAT_SIGNAL k) = (s.setF (PORT_STAT_SIGNAL k) 1).isSet (PORT_STAT_SIGNAL k) :=
    isSet_setF_portStat (by decide) (by decide) (by decide)
  rw [hreason]
  exact State.isSet_setF_bit s (PORT_STAT_SIGNAL k) rfl (show 10 < 32 by decide)

theorem signalMet_portState (k : Nat) (s : State) : (signalMet k s).portState k = s.portState k :=
  calc (signalMet k s).portState k
      = (s.setF (PORT_STAT_SIGNAL k) 1).getF (PORT_STAT_STATE k) := getF_setF_portStat (by decide) (by decide) (by decide)
    _ = s.portState k := getF_setF_portStat (by decide) (by decide) (by decide)

theorem execPortEnterAcquire_down (i : Fin 72) (hst : s.portState i.val = 0)
    (hreason : portReason (s.setF (PORT_STAT_SIGNAL i.val) 1) i.val = none) : execPortEnterAcquire i s = .next (portAcquires i.val s) := by
  have hrefresh : portRefresh i.val (s.setF (PORT_STAT_SIGNAL i.val) 1) = signalMet i.val s := portRefresh_of_none hreason
  have hdown : (signalMet i.val s).portState i.val = 0 := (signalMet_portState _ _).trans hst
  have hside : PortSide i.val (s.setF (PORT_STAT_SIGNAL i.val) 1) (signalMet i.val s) :=
    (modPort_side i.val _ _).trans (setF_portStat_side 0 rfl)
  have hfree : portReason (signalMet i.val s) i.val = none := by
    obtain ⟨hbar, href, -, hretry⟩ := portReason_none_iff.mp hreason
    refine portReason_none_iff.mpr ⟨(hside.bar i.isLt).trans hbar, (hside.refAbsent i.isLt).trans href, signalMet_isSet _ _, ?_⟩
    rw [signalMet, State.port_setF, State.port_modPort_same]
    exact hretry
  unfold execPortEnterAcquire
  simp only [hrefresh, hdown, hfree, decide_true, Option.isNone_none, Bool.and_self, if_true]
  rfl

theorem portAcquires_spec (k : Nat) (s : State) :
    (portAcquires k s).portState k = 1 ∧ (portAcquires k s).isSet (PORT_STAT_SIGNAL k) = true ∧
      (portAcquires k s).getF (PORT_STAT_REASON k) = 0 ∧ RegsBut [PORT_STAT k] s (portAcquires k s) ∧ PortWork s (portAcquires k s) := by
  refine ⟨?_, ?_, reason_setF_same _ k 0, ?_, rfl⟩
  · have hstate : (portAcquires k s).portState k = ((signalMet k s).setF (PORT_STAT_STATE k) 1).getF (PORT_STAT_STATE k) :=
      getF_setF_portStat (by decide) (by decide) (by decide)
    rw [hstate]
    exact portState_setF_same _ k 1
  · calc (portAcquires k s).isSet (PORT_STAT_SIGNAL k)
        = ((signalMet k s).setF (PORT_STAT_STATE k) 1).isSet (PORT_STAT_SIGNAL k) := isSet_setF_portStat (by decide) (by decide) (by decide)
      _ = (signalMet k s).isSet (PORT_STAT_SIGNAL k) := isSet_setF_portStat (by decide) (by decide) (by decide)
      _ = true := signalMet_isSet k s
  · intro o ho
    have hne : PORT_STAT k ≠ o := fun h => ho (List.mem_singleton.mpr h.symm)
    unfold portAcquires signalMet
    rw [State.rd_setF_ne _ (PORT_STAT_REASON k) _ _ hne, State.rd_setF_ne _ (PORT_STAT_STATE k) _ _ hne,
      State.rd_setF_ne _ (PORT_STAT_REASON k) _ _ hne, State.modPort_rd, State.rd_setF_ne _ (PORT_STAT_SIGNAL k) _ _ hne]

/-- The state of a port that has gained lock. -/
def lockGained (k : Nat) (s : State) : State := s.setF (PORT_STAT_LOCK k) 1

/-- The state of a port that has entered HOLD. -/
def portHolds (k : Nat) (s : State) : State := (lockGained k s).setF (PORT_STAT_STATE k) 2

theorem lockGained_isSet (k : Nat) (s : State) : (lockGained k s).isSet (PORT_STAT_LOCK k) = true :=
  State.isSet_setF_bit s (PORT_STAT_LOCK k) rfl (show 11 < 32 by decide)

theorem setF_state_lock (u : State) (k v : Nat) : (u.setF (PORT_STAT_STATE k) v).isSet (PORT_STAT_LOCK k) = u.isSet (PORT_STAT_LOCK k) :=
  isSet_setF_portStat (by decide) (by decide) (by decide)

theorem execPortLockGained_line (i : Fin 72) (hst : s.portState i.val = 1)
    (han : s.isSet (PORT_CFG_AN_EN i.val) = false ∨ (s.port i.val).anDone = true) (hz : i.val < 64) :
    execPortLockGained i s = .next (portHolds i.val s) := by
  have hgain : (!s.isSet (PORT_CFG_AN_EN i.val) || (s.port i.val).anDone) = true := by rcases han with h | h <;> simp [h]
  have hline : isZ i.val = false := decide_eq_false (by omega)
  unfold execPortLockGained
  simp only [hst, hgain, hline, decide_true, Bool.and_self, if_true, Bool.false_eq_true, if_false]
  rfl

theorem execPortLockGained_z (i : Fin 72) (hst : s.portState i.val = 1) (han : s.isSet (PORT_CFG_AN_EN i.val) = false) (hz : 64 ≤ i.val) :
    execPortLockGained i s = .next (sendInit (i.val - 64) (lockGained i.val s)) := by
  have hline : isZ i.val = true := decide_eq_true hz
  unfold execPortLockGained
  simp only [hst, han, hline, decide_true, Bool.not_false, Bool.true_or, Bool.and_self, if_true]
  rfl

theorem execPortLockGained_waits (i : Fin 72) (han : s.isSet (PORT_CFG_AN_EN i.val) = true) (hdone : (s.port i.val).anDone = false) :
    execPortLockGained i s = .next s := by
  unfold execPortLockGained
  simp only [han, hdone, Bool.not_true, Bool.or_self, Bool.and_false, Bool.false_eq_true, if_false]

theorem State.zp_modZp_same (s : State) (z : Nat) (f : ZPort → ZPort) : (s.modZp z f).zp z = f (s.zp z) := tblGet_tblSet_same _ _ _ _

/-- The state of a Z port that has sent INIT. -/
def initSent (z : Nat) (s : State) : State :=
  linkCtl z 1 (beBytes 8 Config.serial.toNat ++ beBytes 2 s.devId ++ [BitVec.ofNat 8 z]) s

theorem initSent_init (z : Nat) (s : State) : ((initSent z s).zp z).init = (s.zp z).init := by
  rw [initSent, linkCtl, flitOut, State.zp_modZp_same]
  rfl

theorem sendInit_eq (z : Nat) (s : State) :
    sendInit z s = if (s.zp z).init then (initSent z s).setF (PORT_STAT_STATE (64 + z)) 2 else initSent z s := by
  rw [← initSent_init]
  rfl

/-- A Z port with lock has sent INIT, and is in HOLD where it has its peer's (R296). -/
theorem sendInit_spec {z : Nat} (hk : k = 64 + z) (hst : s.portState k = 1) :
    (sendInit z s).isSet (PORT_STAT_LOCK k) = s.isSet (PORT_STAT_LOCK k) ∧
      (sendInit z s).portState k = (if (s.zp z).init then 2 else 1) ∧ (sendInit z s).outs.length = s.outs.length + 1 ∧
      sendInit z s = { s with csr := (sendInit z s).csr, outs := (sendInit z s).outs, fab := (sendInit z s).fab } := by
  subst hk
  rw [sendInit_eq]
  split
  · exact ⟨setF_state_lock _ _ _, portState_setF_same _ _ 2, rfl, rfl⟩
  · exact ⟨rfl, hst, rfl, rfl⟩

/-! ### UP, and the end of the hold after a loss of lock (R102, R104, R105) -/

/-- The state of a port that is UP and has raised it, before it takes its partner's frequency. -/
def portRaised (k : Nat) (s : State) : State := portEvt k 0 0 (s.setF (PORT_STAT_STATE k) 3)

theorem portRaised_bellWork (hk : k < 72) (hen : s.isSet (PORT_CFG_EN k) = true) :
    BellWork ((s.setF (PORT_STAT_STATE k) 3).setF ⟨PORT_EVT k, 0, 0⟩ 1) (portRaised k s) := by
  have hen' : (s.setF (PORT_STAT_STATE k) 3).isSet (PORT_CFG_EN k) = true := by
    rwa [(setF_portStat_side 3 rfl : PortSide k s (s.setF (PORT_STAT_STATE k) 3)).enabled hk]
  rw [portRaised, portEvt_enabled hen']
  exact portLine_bellWork k _

/-- A port in HOLD with its lock held throughout (R104). -/
theorem portRaised_spec (hk : k < 72) (hen : s.isSet (PORT_CFG_EN k) = true) :
    (portRaised k s).portState k = 3 ∧ (portRaised k s).rd (PORT_EVT k) = s.rd (PORT_EVT k) ||| 1 ∧
      RegsIn (fun o => o ≠ PORT_STAT k && o ≠ PORT_EVT k && o / 2 ^ 24 ≠ 0x2A) s (portRaised k s) ∧
      portRaised k s = { s with csr := (portRaised k s).csr, bell := (portRaised k s).bell, outs := (portRaised k s).outs } := by
  have hbell := portRaised_bellWork hk hen
  have hen' : (s.setF (PORT_STAT_STATE k) 3).isSet (PORT_CFG_EN k) = true := by
    rwa [(setF_portStat_side 3 rfl : PortSide k s (s.setF (PORT_STAT_STATE k) 3)).enabled hk]
  refine ⟨?_, ?_, ?_, hbell.eqv⟩
  · rw [State.portState, portRaised, portEvt_getF_stat hk rfl]
    exact portState_setF_same s k 3
  · rw [portRaised, portEvt_rd_evt hk hen' (by decide), State.rd_setF_ne _ _ _ _ (portEvt_ne_portStat k k).symm]
    rfl
  · intro o ho
    simp only [Bool.and_eq_true, decide_eq_true_eq] at ho
    obtain ⟨⟨hs, he⟩, hb⟩ := ho
    rw [hbell.rd o hb, State.rd_setF_ne _ _ _ _ (Ne.symm he), State.rd_setF_ne _ _ _ _ (Ne.symm hs)]

/-- The state of a port with its partner's frequency, where it has such a partner. -/
def portTimed (k : Nat) (s : State) : State := s.modPort k (fun p => { p with slaved := partnerOk s k })

theorem execPortUpHoldExpiry_hold (i : Fin 72) (hst : s.portState i.val = 2) :
    execPortUpHoldExpiry i s = .next (portTimed i.val (portRaised i.val s)) := if_pos hst

/-- The state of a port whose hold after a loss of lock has ended. -/
def portRetried (k : Nat) (s : State) : State := (s.modPort k (fun p => { p with retry := false })).modPort k (fun p => { p with badSeen := false })

theorem execPortLockRetryExpiry_down (i : Fin 72) (hreason : portReason s i.val = some 7) :
    execPortLockRetryExpiry i s = .next ((portRetried i.val s).setF (PORT_STAT_REASON i.val) 0) := by
  have hside := modPort_side i.val (fun p => { p with retry := false }) s
  obtain ⟨hbar, hrest⟩ := portBar_of_reason (by decide) hreason
  have hwait : portRefLost s i.val = false ∧ s.isSet (PORT_STAT_SIGNAL i.val) = true := by
    revert hrest
    cases portRefLost s i.val <;> cases s.isSet (PORT_STAT_SIGNAL i.val) <;> simp
  have hfree : portReason (s.modPort i.val (fun p => { p with retry := false })) i.val = none := by
    refine portReason_none_iff.mpr ⟨(hside.bar i.isLt).trans hbar, (hside.refAbsent i.isLt).trans hwait.1, hwait.2, ?_⟩
    rw [State.port_modPort_same]
  rw [execPortLockRetryExpiry, portRefresh_of_none hfree]
  rfl

end

/-- Settles O28: each event takes the port to the state of R104, with its bit of R109. -/
theorem portStates : Obligations.PortStates := by
  intro s k
  extract_lets i st stays
  have hk : i < 72 := k.isLt
  have hstays : ∀ t, LineRest s t → stays t := fun t h => h.parts
  refine ⟨?_, ?_, ?_, ?_, ?_, ?_, ?_, ?_, ?_, ?_⟩
  · intro hst hreason
    obtain ⟨hstate, hsig, hlock, hr, hevt, hdone, hrest⟩ := portLos_up k hst hreason
    exact ⟨_, execPortLos_eq k s, hstate, hsig, hlock, hr, hevt, hdone, hstays _ hrest⟩
  · intro hst hreason
    obtain ⟨hstate, hlock, hr, hretry, hevt, hrest⟩ := portLockLost_up k hst hreason
    exact ⟨_, execPortLockLost_up k hst, hstate, hlock, hr, hretry, hevt, hstays _ hrest⟩
  · intro hst hen
    obtain ⟨hstate, hlock, hevt, hrest⟩ := lockLostHold_spec hk hen
    exact ⟨_, execPortLockLost_hold k hst, hstate, hlock, hevt, hrest.ports, hrest.mem, hstays _ hrest.lineRest⟩
  · intro hst hreason
    obtain ⟨hstate, hsig, hr, hregs, hwork⟩ := portAcquires_spec i s
    exact ⟨_, execPortEnterAcquire_down k hst hreason, hstate, hsig, hr, hregs, rfl, hstays _ hwork.lineRest⟩
  · intro hst han
    have hcond : (decide (s.portState i = 1) && s.isSet (PORT_CFG_AN_EN i)) = true := by simp [han, show s.portState i = 1 from hst]
    refine ⟨_, if_pos hcond, ?_, rfl⟩
    rw [State.port_modPort_same]
  · intro hst han hz
    refine ⟨_, execPortLockGained_line k hst han hz, portState_setF_same _ i 2, ?_, ?_, rfl⟩
    · rw [portHolds, setF_state_lock, lockGained_isSet]
    · intro o ho
      have hne : PORT_STAT i ≠ o := fun h => ho (List.mem_singleton.mpr h.symm)
      rw [portHolds, State.rd_setF_ne _ (PORT_STAT_STATE i) _ _ hne, lockGained, State.rd_setF_ne _ (PORT_STAT_LOCK i) _ _ hne]
  · intro hst han hz
    have hstate : (lockGained i s).portState i = 1 :=
      (getF_setF_portStat (by decide) (by decide) (by decide) : (lockGained i s).portState i = s.portState i).trans hst
    obtain ⟨hlock, hinit, houts, heqv⟩ := sendInit_spec (z := i - 64) (by omega) hstate
    exact ⟨_, execPortLockGained_z k hst han hz, hlock.trans (lockGained_isSet i s), hinit, houts, heqv⟩
  · intro _ han hdone
    exact ⟨s, execPortLockGained_waits k han hdone, rfl⟩
  · intro hst hen
    obtain ⟨hstate, hevt, hregs, heqv⟩ := portRaised_spec hk hen
    refine ⟨_, execPortUpHoldExpiry_hold k hst, hstate, hevt, ?_, hregs, ?_⟩
    · rw [portTimed, State.port_modPort_same]
      rfl
    · unfold portTimed State.modPort
      rw [heqv]
  · intro hreason hst
    refine ⟨_, execPortLockRetryExpiry_down k hreason, ?_, reason_setF_same _ i 0, ?_, ?_, rfl⟩
    · rw [State.port_setF, portRetried, State.port_modPort_same, State.port_modPort_same]
    · exact (getF_setF_portStat (by decide) (by decide) (by decide) :
        ((portRetried i s).setF (PORT_STAT_REASON i) 0).portState i = s.portState i).trans hst
    · intro o ho
      have hne : PORT_STAT i ≠ o := fun h => ho (List.mem_singleton.mpr h.symm)
      rw [State.rd_setF_ne _ (PORT_STAT_REASON i) _ _ hne]
      rfl

end Sys2Proof.Machine

/-!
O29: a port's conditions (R93, R95, R109), its FEC's counts, its reference (R100) and a partner that has returned (R102).
-/

namespace Sys2Proof.Machine

/-! ### Conditions and counts (R109) -/

section
variable {k b bit code : Nat} {s : State}

/-- The state of a port that has entered a condition of its status word and raised it. -/
def conditionMet (k b bit code : Nat) (s : State) : State := portEvt k bit code (s.setF ⟨PORT_STAT k, b, b⟩ 1)

theorem portCondition_rise (h : s.isSet ⟨PORT_STAT k, b, b⟩ = false) :
    portCondition k ⟨PORT_STAT k, b, b⟩ bit code true s = conditionMet k b bit code s := by
  unfold portCondition
  simp only [h, Bool.not_false, Bool.and_self, if_true]
  rfl

theorem portCondition_fall : portCondition k ⟨PORT_STAT k, b, b⟩ bit code false s = s.setF ⟨PORT_STAT k, b, b⟩ 0 := rfl

/-- A condition that begins raises its event and leaves the port's state alone (R105, R109). -/
theorem conditionMet_spec (hk : k < 72) (hen : s.isSet (PORT_CFG_EN k) = true) (hb : 1 < b ∧ b < 32) (hbit : bit < 32)
    (hcls : faultClass code ≠ 3) (hcode : code < 0x1100) :
    let t := conditionMet k b bit code s
    t.isSet ⟨PORT_STAT k, b, b⟩ = true ∧ t.rd (PORT_EVT k) = s.rd (PORT_EVT k) ||| BitVec.ofNat 32 (2 ^ bit) ∧
      t.portState k = s.portState k ∧
      RegsIn (fun o => o ≠ PORT_STAT k && o ≠ PORT_EVT k && o / 2 ^ 24 ≠ 0x2A && o / 2 ^ 24 ≠ 0x2F) s t ∧ ReportRest s t := by
  intro t
  have hside : PortSide k s (s.setF ⟨PORT_STAT k, b, b⟩ 1) := setF_portStat_side 1 rfl
  have hen' : (s.setF ⟨PORT_STAT k, b, b⟩ 1).isSet (PORT_CFG_EN k) = true := by rwa [hside.enabled hk]
  refine ⟨?_, ?_, ?_, ?_, (setF_reportRest s _ _).trans (portEvt_reportRest _ _ _ _)⟩
  · exact (portEvt_isSet_stat hk rfl).trans (State.isSet_setF_bit s ⟨PORT_STAT k, b, b⟩ rfl hb.2)
  · exact (portEvt_rd_evt hk hen' hbit).trans (congrArg (· ||| _) (State.rd_setF_ne _ _ _ _ (portEvt_ne_portStat k k).symm))
  · exact (portEvt_getF_stat hk rfl).trans (getF_setF_portStat ⟨le_rfl, hb.2⟩ (by decide) (.inl hb.1))
  · intro o ho
    simp only [Bool.and_eq_true, decide_eq_true_eq] at ho
    obtain ⟨⟨⟨hs, he⟩, hbell⟩, hledger⟩ := ho
    exact (portEvt_rd hen' hcls hcode he hbell (.inr hledger)).trans (State.rd_setF_ne _ _ _ _ (Ne.symm hs))

/-- The state of a port whose FEC's counts have been taken. -/
def fecCounted (k corrected uncorrectable : Nat) (s : State) : State :=
  (s.cnt64 (PORT_FEC_CORR_LO k) corrected).cntSat (PORT_FEC_UNCORR_UNCORR k) uncorrectable

theorem execPortFecUncorr_bad (i : Fin 72) (corrected : Nat) {uncorrectable : Nat} (h : uncorrectable ≠ 0) :
    execPortFecUncorr i corrected uncorrectable s = .next (portEvt i.val 6 0x0206 (fecCounted i.val corrected uncorrectable s)) := if_neg h

theorem fecCounted_rd {corrected uncorrectable o : Nat} (hlo : o ≠ PORT_FEC_CORR_LO k) (hhi : o ≠ PORT_FEC_CORR_HI k)
    (hun : o ≠ PORT_FEC_UNCORR k) : (fecCounted k corrected uncorrectable s).rd o = s.rd o := by
  have hhi' : PORT_FEC_CORR_LO k + 4 ≠ o := by simp only [PORT_FEC_CORR_LO, PORT_FEC_CORR_HI] at *; omega
  rw [fecCounted, State.cntSat, State.rd_setF_ne _ (PORT_FEC_UNCORR_UNCORR k) _ _ (Ne.symm hun), State.cnt64,
    State.rd_wr64_ne _ _ _ _ (Ne.symm hlo) hhi']

theorem fecCounted_corrected (k corrected uncorrectable : Nat) (s : State) :
    (fecCounted k corrected uncorrectable s).rd64 (PORT_FEC_CORR_LO k) = s.rd64 (PORT_FEC_CORR_LO k) + BitVec.ofNat 64 corrected := by
  rw [fecCounted, State.cntSat,
    State.rd64_setF_ne _ (PORT_FEC_UNCORR_UNCORR k) _ _ (by simp only [PORT_FEC_UNCORR_UNCORR, PORT_FEC_UNCORR, PORT_FEC_CORR_LO]; omega)
      (by simp only [PORT_FEC_UNCORR_UNCORR, PORT_FEC_UNCORR, PORT_FEC_CORR_LO]; omega), State.cnt64, State.rd64_wr64_same]

theorem fecCounted_uncorrectable (k corrected uncorrectable : Nat) (s : State) :
    (fecCounted k corrected uncorrectable s).getF (PORT_FEC_UNCORR_UNCORR k) =
      min (s.getF (PORT_FEC_UNCORR_UNCORR k) + uncorrectable) (2 ^ 32 - 1) := by
  rw [fecCounted, State.getF_cntSat_same _ (PORT_FEC_UNCORR_UNCORR k) _ (show 0 ≤ 31 by decide) (show 31 < 32 by decide), State.cnt64,
    State.getF_wr64_ne _ _ _ _ (by simp only [PORT_FEC_UNCORR_UNCORR, PORT_FEC_UNCORR, PORT_FEC_CORR_LO]; omega)
      (by simp only [PORT_FEC_UNCORR_UNCORR, PORT_FEC_UNCORR, PORT_FEC_CORR_LO]; omega)]
  rfl

/-- Uncorrectable codewords of a port's FEC: both counts, the event, and the port's state as it was (R109). -/
theorem portFecUncorr_spec (hk : k < 72) (hen : s.isSet (PORT_CFG_EN k) = true) (corrected uncorrectable : Nat) :
    let t := portEvt k 6 0x0206 (fecCounted k corrected uncorrectable s)
    t.rd64 (PORT_FEC_CORR_LO k) = s.rd64 (PORT_FEC_CORR_LO k) + BitVec.ofNat 64 corrected ∧
      t.getF (PORT_FEC_UNCORR_UNCORR k) = min (s.getF (PORT_FEC_UNCORR_UNCORR k) + uncorrectable) (2 ^ 32 - 1) ∧
      t.rd (PORT_EVT k) = s.rd (PORT_EVT k) ||| 64 ∧ t.portState k = s.portState k ∧ ReportRest s t := by
  intro t
  have hcounts : ∀ o, o = PORT_CFG k ∨ o = PORT_STAT k ∨ o = PORT_EVT k → (fecCounted k corrected uncorrectable s).rd o = s.rd o := by
    intro o ho
    apply fecCounted_rd <;> rcases ho with rfl | rfl | rfl <;>
      simp only [PORT_CFG, PORT_STAT, PORT_EVT, PORT_FEC_CORR_LO, PORT_FEC_CORR_HI, PORT_FEC_UNCORR] <;> omega
  have hevt : ∀ o, PORT_EVT k < o → o < 0x22000000 → t.rd o = (fecCounted k corrected uncorrectable s).rd o := fun o ho hlt =>
    portEvt_rd_ne (.inl hlt) (Nat.ne_of_gt ho)
  have hen' : (fecCounted k corrected uncorrectable s).isSet (PORT_CFG_EN k) = true :=
    (State.isSet_congr (f := PORT_CFG_EN k) (hcounts _ (.inl rfl))).trans hen
  refine ⟨?_, ?_, ?_, ?_, ?_⟩
  · rw [← fecCounted_corrected k corrected uncorrectable s]
    apply State.rd64_congr <;> apply hevt <;> simp only [PORT_EVT, PORT_FEC_CORR_LO] <;> omega
  · rw [← fecCounted_uncorrectable k corrected uncorrectable s]
    apply State.getF_congr
    apply hevt <;> simp only [PORT_EVT, PORT_FEC_UNCORR_UNCORR, PORT_FEC_UNCORR] <;> omega
  · exact (portEvt_rd_evt hk hen' (by decide)).trans (congrArg (· ||| 64) (hcounts _ (.inr (.inr rfl))))
  · exact (portEvt_getF_stat hk rfl).trans (State.getF_congr (f := PORT_STAT_STATE k) (hcounts _ (.inr (.inl rfl))))
  · have hcorrected : ReportRest s (s.cnt64 (PORT_FEC_CORR_LO k) corrected) := wr64_reportRest s _ _
    exact (hcorrected.trans (setF_reportRest _ _ _)).trans (portEvt_reportRest _ _ _ _)

end

/-! ### A reference of the SerDes (R100) -/

section
variable {k : Nat} {s t u : State}

/-- Other ports' work leads from `s` to `t`: what decides the state of port `k` has not changed. -/
structure PortOthers (k : Nat) (s t : State) : Prop where
  rd : ∀ o, cfgOff o ∨ o = PORT_STAT k → t.rd o = s.rd o
  port : t.port k = s.port k
  chans : t.chans = s.chans
  rest : LineRest s t

theorem PortOthers.refl (k : Nat) (s : State) : PortOthers k s s := ⟨fun _ _ => rfl, rfl, rfl, .refl s⟩

theorem PortOthers.trans (h : PortOthers k s t) (g : PortOthers k t u) : PortOthers k s u :=
  ⟨fun o x => (g.rd o x).trans (h.rd o x), g.port.trans h.port, g.chans.trans h.chans, h.rest.trans g.rest⟩

theorem PortSide.chans (h : PortSide k s t) : t.chans = s.chans := by rw [h.eqv]

theorem PortSide.others {j : Nat} (hk : k < 72) (hj : j < 72) (hne : j ≠ k) (h : PortSide j s t) : PortOthers k s t where
  rd o ho := ho.elim (h.cfg hj o) (fun e => h.rd o (e ▸ lineOff_portStat hk) (by rw [e]; simp only [PORT_STAT]; omega)
    (by rw [e]; exact (portEvt_ne_portStat j k).symm))
  port := h.port k (Ne.symm hne)
  chans := h.chans
  rest := h.lineRest

theorem Quiet.portOthers (hk : k < 72) (h : Quiet s t) : PortOthers k s t where
  rd o ho := h.rd o (quietOff_of_lineOff (ho.elim (fun hc => by unfold lineOff; unfold cfgOff at hc; omega) (fun e => e ▸ lineOff_portStat hk)))
  port := State.port_congr h.ports k
  chans := h.chans
  rest := h.lineRest

theorem LineRest.refLost (h : LineRest s t) : t.refLost = s.refLost := by rw [show t = _ from h]

theorem PortOthers.cfg (h : PortOthers k s t) : ∀ o, cfgOff o → t.rd o = s.rd o := fun o ho => h.rd o (.inl ho)

theorem PortOthers.getF (h : PortOthers k s t) {f : Fld} (hf : f.off = PORT_STAT k) : t.getF f = s.getF f :=
  State.getF_congr (h.rd _ (.inr hf))

theorem PortOthers.reason (hk : k < 72) (h : PortOthers k s t) : portReason t k = portReason s k := by
  rw [portReason_eq, portReason_eq, portBar_congr h.cfg hk, portRefLost_congr h.cfg h.rest.refLost hk, State.isSet, State.isSet,
    h.getF (f := PORT_STAT_SIGNAL k) rfl, h.port]

theorem portRefresh_side (hk : k < 72) (s : State) : PortSide k s (portRefresh k s) := by
  have hdown : PortSide k s (if s.portState k = 0 then s else portDown k s) := .ite (.refl k s) (portDown_side hk s)
  unfold portRefresh
  split
  next r _ =>
    have hreason : ∀ v, PortSide k s ((if s.portState k = 0 then s else portDown k s).setF (PORT_STAT_REASON k) v) := fun v =>
      hdown.trans (setF_portStat_side v rfl)
    exact .ite (((hreason r).trans (modPort_side k _ _)).trans (portEvt_side k _ _ _)) (hreason r)
  next => exact (modPort_side k _ s).trans (setF_portStat_side 0 rfl)

/-- A cause past the configuration's holds the port DOWN and is its REASON (R104). -/
theorem portRefresh_reason_spec {r : Nat} (hk : k < 72) (hr : 5 < r ∧ r < 16) (h : portReason s k = some r) :
    (portRefresh k s).portState k = 0 ∧ (portRefresh k s).getF (PORT_STAT_REASON k) = r := by
  rw [portRefresh_of_reason hr.1 h]
  refine ⟨?_, (reason_setF_same _ k r).trans (Nat.mod_eq_of_lt hr.2)⟩
  have hreason : ∀ u : State, (u.setF (PORT_STAT_REASON k) r).portState k = u.portState k := fun u =>
    getF_setF_portStat (by decide) (by decide) (by decide)
  rw [hreason]
  split
  · assumption
  · calc (portDown k s).portState k
        = ((s.setF (PORT_STAT_STATE k) 0).setF (PORT_STAT_LOCK k) 0).getF (PORT_STAT_STATE k) := State.getF_congr (portDown_rd_stat hk s)
      _ = (s.setF (PORT_STAT_STATE k) 0).getF (PORT_STAT_STATE k) := getF_setF_portStat (by decide) (by decide) (by decide)
      _ = 0 := portState_setF_same s k 0

/-- Where nothing keeps the port DOWN its state stays and REASON is 0 (R104). -/
theorem portRefresh_none_spec (h : portReason s k = none) :
    (portRefresh k s).portState k = s.portState k ∧ (portRefresh k s).getF (PORT_STAT_REASON k) = 0 := by
  rw [portRefresh_of_none h]
  exact ⟨getF_setF_portStat (by decide) (by decide) (by decide), reason_setF_same _ k 0⟩

/-- Every port meets a change of what clocks it. -/
def portRefreshAll (s : State) : State := (List.range 72).foldl (fun s k => portRefresh k s) s

theorem portRefresh_foldl_others (hk : k < 72) (l : List Nat) (hl : ∀ j ∈ l, j < 72 ∧ j ≠ k) (s : State) :
    PortOthers k s (l.foldl (fun s j => portRefresh j s) s) := by
  induction l generalizing s with
  | nil => exact .refl k s
  | cons j l ih =>
    obtain ⟨hj, hl⟩ := List.forall_mem_cons.mp hl
    exact ((portRefresh_side hj.1 s).others hk hj.1 hj.2).trans (ih hl _)

/-- The ports before `k` and the ports after it leave alone what decides its state. -/
theorem portRefreshAll_around (hk : k < 72) (s : State) :
    ∃ u, PortOthers k s u ∧ PortOthers k (portRefresh k u) (portRefreshAll s) := by
  obtain ⟨before, after, hsplit⟩ := List.append_of_mem (List.mem_range.mpr hk)
  have hlt : ∀ j ∈ before ++ k :: after, j < 72 := fun j hj => List.mem_range.mp (hsplit ▸ hj)
  have hnodup : (before ++ k :: after).Nodup := hsplit ▸ List.nodup_range
  have hnew : k ∉ before ++ after := (List.nodup_middle.mp hnodup).notMem
  have hbefore : ∀ j ∈ before, j < 72 ∧ j ≠ k := fun j hj =>
    ⟨hlt j (List.mem_append_left _ hj), fun e => hnew (e ▸ List.mem_append_left _ hj)⟩
  have hafter : ∀ j ∈ after, j < 72 ∧ j ≠ k := fun j hj =>
    ⟨hlt j (List.mem_append_right _ (List.mem_cons_of_mem _ hj)), fun e => hnew (e ▸ List.mem_append_right _ hj)⟩
  refine ⟨_, portRefresh_foldl_others hk before hbefore s, ?_⟩
  rw [portRefreshAll, hsplit, List.foldl_append, List.foldl_cons]
  exact portRefresh_foldl_others hk after hafter _

/-- What stays of the parts of the state when every port has met a change. -/
theorem portRefreshAll_rest (s : State) : LineRest s (portRefreshAll s) ∧ (portRefreshAll s).chans = s.chans := by
  obtain ⟨u, hbefore, hafter⟩ := portRefreshAll_around (k := 0) (by decide) s
  have hside := portRefresh_side (k := 0) (by decide) u
  exact ⟨(hbefore.rest.trans hside.lineRest).trans hafter.rest, (hafter.chans.trans hside.chans).trans hbefore.chans⟩

theorem portRefreshAll_reason_spec {r : Nat} (hk : k < 72) (hr : 5 < r ∧ r < 16) (h : portReason s k = some r) :
    (portRefreshAll s).portState k = 0 ∧ (portRefreshAll s).getF (PORT_STAT_REASON k) = r := by
  obtain ⟨u, hbefore, hafter⟩ := portRefreshAll_around hk s
  obtain ⟨hstate, hreason⟩ := portRefresh_reason_spec hk hr ((hbefore.reason hk).trans h)
  exact ⟨(hafter.getF (f := PORT_STAT_STATE k) rfl).trans hstate, (hafter.getF (f := PORT_STAT_REASON k) rfl).trans hreason⟩

theorem portRefreshAll_none_spec (hk : k < 72) (h : portReason s k = none) :
    (portRefreshAll s).portState k = s.portState k ∧ (portRefreshAll s).getF (PORT_STAT_REASON k) = 0 := by
  obtain ⟨u, hbefore, hafter⟩ := portRefreshAll_around hk s
  obtain ⟨hstate, hreason⟩ := portRefresh_none_spec ((hbefore.reason hk).trans h)
  exact ⟨(hafter.getF (f := PORT_STAT_STATE k) rfl).trans (hstate.trans (hbefore.getF (f := PORT_STAT_STATE k) rfl)),
    (hafter.getF (f := PORT_STAT_REASON k) rfl).trans hreason⟩

theorem portRefLost_line (hz : k < 64) (s : State) : portRefLost s k = s.refLost.contains (s.getF (GRP_CFG_REFSEL (portGroup k))) := by
  have hline : isZ k = false := decide_eq_false (by omega)
  rw [portRefLost, hline]
  rfl

/-- The loss of a reference, before the ports that it clocks meet it. -/
theorem execPortRefclk_lost (ref : Fin 4) (h : s.refLost.contains ref.val = false) :
    ∃ u, Quiet { s with refLost := ref.val :: s.refLost } u ∧ execPortRefclk ref false s = .next (portRefreshAll u) := by
  unfold execPortRefclk
  rw [if_neg Bool.false_ne_true, h, if_neg Bool.false_ne_true]
  exact ⟨_, .ite (report_quiet _ _ _ _ _) (.refl _), rfl⟩

/-- The return of a reference, before the ports that it clocks meet it. -/
def refReturned (ref : Nat) (s : State) : State := { s with refLost := s.refLost.filter (· ≠ ref) }

theorem execPortRefclk_present (ref : Fin 4) (s : State) : execPortRefclk ref true s = .next (portRefreshAll (refReturned ref.val s)) := rfl

/-- A port that nothing kept DOWN loses its reference (R100). -/
theorem portRefclk_lost {ref : Fin 4} (hk : k < 64) (hreason : portReason s k = none)
    (href : s.getF (GRP_CFG_REFSEL (portGroup k)) = ref.val) :
    ∃ t, execPortRefclk ref false s = .next t ∧ t.refLost = ref.val :: s.refLost ∧ t.portState k = 0 ∧
      t.getF (PORT_STAT_REASON k) = 8 ∧ LineRest { s with refLost := ref.val :: s.refLost } t ∧ t.chans = s.chans := by
  have hk72 : k < 72 := by omega
  obtain ⟨hbar, hpresent, -, -⟩ := portReason_none_iff.mp hreason
  rw [portRefLost_line hk, href] at hpresent
  obtain ⟨u, hu, hexec⟩ := execPortRefclk_lost ref hpresent
  have hothers := hu.portOthers hk72
  have hcfg : ∀ o, cfgOff o → u.rd o = s.rd o := hothers.cfg
  have hlost : portReason u k = some 8 := by
    have habsent : portRefLost u k = true := by
      rw [portRefLost_line hk, getF_of_cfg hcfg (f := GRP_CFG_REFSEL (portGroup k)) (cfgOff_grpCfg hk72), href, hu.refLost]
      simp
    rw [portReason_of_bar ((portBar_congr hcfg hk72).trans hbar), if_pos habsent]
  obtain ⟨hstate, hr⟩ := portRefreshAll_reason_spec hk72 (by decide) hlost
  obtain ⟨hrest, hchans⟩ := portRefreshAll_rest u
  exact ⟨_, hexec, hrest.refLost.trans hu.refLost, hstate, hr, hothers.rest.trans hrest, hchans.trans hu.chans⟩

/-- A port that only the loss of its reference kept DOWN (R100, R104). -/
theorem portRefclk_returned {ref : Fin 4} (hk : k < 64) (hreason : portReason s k = some 8) (hst : s.portState k = 0)
    (href : s.getF (GRP_CFG_REFSEL (portGroup k)) = ref.val) (hsig : s.isSet (PORT_STAT_SIGNAL k) = true) (hretry : (s.port k).retry = false) :
    let t := portRefreshAll (refReturned ref.val s)
    t.refLost = s.refLost.filter (· ≠ ref.val) ∧ t.portState k = 0 ∧ t.getF (PORT_STAT_REASON k) = 0 ∧
      LineRest (refReturned ref.val s) t ∧ t.chans = s.chans := by
  have hk72 : k < 72 := by omega
  have hfree : portReason (refReturned ref.val s) k = none := by
    refine portReason_none_iff.mpr ⟨(portBar_of_reason (by decide) hreason).1, ?_, hsig, hretry⟩
    have hsel : (refReturned ref.val s).getF (GRP_CFG_REFSEL (portGroup k)) = ref.val := href
    rw [portRefLost_line hk, hsel, refReturned]
    simp
  obtain ⟨hstate, hr⟩ := portRefreshAll_none_spec hk72 hfree
  obtain ⟨hrest, hchans⟩ := portRefreshAll_rest (refReturned ref.val s)
  exact ⟨hrest.refLost, hstate.trans hst, hr, hrest, hchans⟩

end

/-- Settles O29: conditions and counts by what a condition writes, a reference by what every port makes of it. -/
theorem portConditions : Obligations.PortConditions := by
  intro s k j ref corrected uncorrectable
  extract_lets i only ends
  intro hen
  have hk : i < 72 := k.isLt
  have rise : ∀ b bit code, s.isSet ⟨PORT_STAT i, b, b⟩ = false → 1 < b ∧ b < 32 → bit < 32 → faultClass code ≠ 3 → code < 0x1100 →
      Completes (.next (portCondition i ⟨PORT_STAT i, b, b⟩ bit code true s)) fun t =>
        t.isSet ⟨PORT_STAT i, b, b⟩ = true ∧ only t bit := fun b bit code hb hb32 hbit hcls hcode =>
    ⟨_, congrArg _ (portCondition_rise hb), conditionMet_spec hk hen hb32 hbit hcls hcode⟩
  have fall : ∀ b bit code, b < 32 →
      Completes (.next (portCondition i ⟨PORT_STAT i, b, b⟩ bit code false s)) fun t => ends t ⟨PORT_STAT i, b, b⟩ := fun b bit code hb =>
    ⟨_, congrArg _ portCondition_fall, State.isSet_setF_bit_zero s ⟨PORT_STAT i, b, b⟩ rfl hb, rfl⟩
  refine ⟨?_, ?_, ?_, ?_, ?_, ?_, ?_, ?_, ?_, ?_, ?_, ?_⟩
  · exact fun h => rise 12 4 0x0204 h (by decide) (by decide) (by decide) (by decide)
  · exact fun _ => fall 12 4 0x0204 (by decide)
  · exact fun h => rise 13 5 0x0205 h (by decide) (by decide) (by decide) (by decide)
  · exact fun _ => fall 13 5 0x0205 (by decide)
  · exact fun h => rise 14 7 0x0207 h (by decide) (by decide) (by decide) (by decide)
  · exact fun _ => fall 14 7 0x0207 (by decide)
  · exact fun h => rise 15 8 0x0208 h (by decide) (by decide) (by decide) (by decide)
  · exact fun _ => fall 15 8 0x0208 (by decide)
  · exact fun hbad => ⟨_, execPortFecUncorr_bad k corrected hbad, portFecUncorr_spec hk hen corrected uncorrectable⟩
  · intro hreason _ hz href
    obtain ⟨t, hexec, hlost, hstate, hr, hrest, hchans⟩ := portRefclk_lost hz hreason href
    obtain ⟨hcores, hpos, htack, -⟩ := hrest.parts
    exact ⟨t, hexec, hlost, hstate, hr, hcores, hpos, htack, hchans⟩
  · intro hreason hst hz href hsig hretry
    obtain ⟨hlost, hstate, hr, hrest, hchans⟩ := portRefclk_returned hz hreason hst href hsig hretry
    obtain ⟨hcores, hpos, htack, -⟩ := hrest.parts
    exact ⟨_, execPortRefclk_present ref s, hlost, hstate, hr, hcores, hpos, htack, hchans⟩
  · intro hup hpartner
    have hcond : (s.portUp j.val && partnerOk s j.val) = true := by rw [hup, hpartner]; rfl
    refine ⟨_, if_pos hcond, ?_, rfl⟩
    rw [State.port_modPort_same]

end Sys2Proof.Machine

/-!
SUPPORT. What keys, switches, sessions, mutes and overhead leave alone of a channel: its configuration, its numbering and its statistics
(R139, R194), and the ports' states.
-/

namespace Sys2Proof.Machine

/-- A word of the ports' blocks, or a channel's CH_CFG, CH_MODE_W0, outbound or inbound statistics. -/
abbrev countOff (o : Nat) : Prop :=
  (0x21000000 ≤ o ∧ o < 0x22000000) ∨ (0x22100000 ≤ o ∧ o < 0x22200000 ∧
    (o % 0x800 < 4 ∨ (0xA0 ≤ o % 0x800 ∧ o % 0x800 < 0xA8) ∨ (0x100 ≤ o % 0x800 ∧ o % 0x800 < 0x300)))

/-- What a channel's record says of its outbound numbering: the number still to be set, and the stamp of the last frame (R194, R203). -/
def Chan.outMark (c : Chan) : Option Nat × DWord := (c.l1.efnAt, c.l1.outStamp)

/-- From `s` to `t` no channel's numbering or count has changed, nor a port's state; the cores and the position unit are as they were. -/
structure CountWork (s t : State) : Prop where
  rd : ∀ o, countOff o → t.rd o = s.rd o
  mark : ∀ n, (t.chan n).outMark = (s.chan n).outMark
  cores : t.cores = s.cores
  pos : t.pos = s.pos

section
variable {s t u : State}

theorem CountWork.refl (s : State) : CountWork s s := ⟨fun _ _ => rfl, fun _ => rfl, rfl, rfl⟩

theorem CountWork.trans (h : CountWork s t) (g : CountWork t u) : CountWork s u :=
  ⟨fun o x => (g.rd o x).trans (h.rd o x), fun n => (g.mark n).trans (h.mark n), g.cores.trans h.cores, g.pos.trans h.pos⟩

theorem CountWork.ite {c : Prop} [Decidable c] (h : CountWork s t) (g : CountWork s u) : CountWork s (if c then t else u) := by
  split <;> assumption

theorem CountWork.foldl {α : Type} {f : State → α → State} (l : List α) (hf : ∀ u, ∀ a ∈ l, CountWork u (f u a)) (s : State) :
    CountWork s (l.foldl f s) := by
  induction l generalizing s with
  | nil => exact .refl s
  | cons a l ih =>
    exact (hf s a (List.mem_cons_self ..)).trans (ih (fun u b hb => hf u b (List.mem_cons_of_mem _ hb)) _)

/-- Registers, channel records, cores and the position unit are the same. -/
theorem CountWork.same (hcsr : t.csr = s.csr) (hchans : t.chans = s.chans) (hcores : t.cores = s.cores) (hpos : t.pos = s.pos) :
    CountWork s t :=
  ⟨fun o _ => State.rd_of_csr hcsr o, fun n => by rw [State.chan_congr hchans], hcores, hpos⟩

theorem CountWork.wr {o : Nat} {v : Word} (h : CountWork s t) (ho : ¬ countOff o) : CountWork s (t.wr o v) :=
  h.trans ⟨fun _ hp => State.rd_wr_ne _ _ _ _ (fun e => ho (e ▸ hp)), fun _ => rfl, rfl, rfl⟩

theorem CountWork.setF {f : Fld} {v : Nat} (h : CountWork s t) (ho : ¬ countOff f.off) : CountWork s (t.setF f v) := h.wr ho

theorem CountWork.wr64 {o : Nat} {v : DWord} (h : CountWork s t) (ho : ¬ countOff o) (h4 : ¬ countOff (o + 4)) : CountWork s (t.wr64 o v) :=
  (h.wr ho).wr h4

theorem State.chan_modChan (s : State) (n m : Nat) (f : Chan → Chan) :
    (s.modChan n f).chan m = if n = m then f (s.chan n) else s.chan m := tblGet_tblSet _ _ _ _ _ _ (fun _ => rfl)

theorem CountWork.modChan (h : CountWork s t) (n : Nat) {f : Chan → Chan} (hf : ∀ c, (f c).outMark = c.outMark) :
    CountWork s (t.modChan n f) := by
  refine h.trans ⟨fun _ _ => rfl, fun m => ?_, rfl, rfl⟩
  rw [State.chan_modChan]
  split
  next e => rw [hf, e]
  next => rfl

theorem CountWork.getF (h : CountWork s t) {f : Fld} (hf : countOff f.off) : t.getF f = s.getF f := State.getF_congr (h.rd _ hf)

theorem CountWork.isSet (h : CountWork s t) {f : Fld} (hf : countOff f.off) : t.isSet f = s.isSet f := by
  rw [State.isSet, h.getF hf, State.isSet]

theorem CountWork.rd64 (h : CountWork s t) {o : Nat} (ho : countOff o) (h4 : countOff (o + 4)) : t.rd64 o = s.rd64 o :=
  State.rd64_congr (h.rd _ ho) (h.rd _ h4)

theorem CountWork.tack (h : CountWork s t) (x : Tack) : CountWork s { t with tack := x } := h.trans (.same rfl rfl rfl rfl)

theorem CountWork.tally (h : CountWork s t) (x : Tally) : CountWork s { t with tally := x } := h.trans (.same rfl rfl rfl rfl)

theorem CountWork.brTx (h : CountWork s t) (q : List BrOut) : CountWork s { t with brTx := q } := h.trans (.same rfl rfl rfl rfl)

theorem CountWork.loftQ (h : CountWork s t) (q : List LoftWrite) : CountWork s { t with loftQ := q } := h.trans (.same rfl rfl rfl rfl)

theorem Quiet.countWork (h : Quiet s t) : CountWork s t :=
  ⟨fun o ho => h.rd o (by unfold quietOff; unfold countOff at ho; omega), fun n => by rw [State.chan_congr h.chans], h.cores, h.pos⟩

/-! ### Registers of a channel -/

variable {n d i : Nat}

theorem chCfg_count (hn : n < 512) : countOff (CH_CFG n) := by unfold countOff CH_CFG; omega
theorem chModeW0_count (hn : n < 512) : countOff (CH_MODE_W0_LO n) ∧ countOff (CH_MODE_W0_LO n + 4) := by
  unfold countOff CH_MODE_W0_LO; omega
theorem chOutStat_count (hn : n < 512) (hi : i < 63) : countOff (CH_OUT_STAT n i) ∧ countOff (CH_OUT_STAT n i + 4) := by
  unfold countOff CH_OUT_STAT; omega
theorem chInStat_count (hn : n < 512) (hi : i < 63) : countOff (CH_IN_STAT n i) ∧ countOff (CH_IN_STAT n i + 4) := by
  unfold countOff CH_IN_STAT; omega

theorem chStat_not_count (hn : n < 512) : ¬ countOff (CH_STAT n) := by unfold countOff CH_STAT; omega
theorem chEvt_not_count (hn : n < 512) : ¬ countOff (CH_EVT n) := by unfold countOff CH_EVT; omega
theorem kbRoles_not_count (hn : n < 512) (hd : d < 2) : ¬ countOff (KB_ROLES n d) := by unfold countOff KB_ROLES; omega
theorem kbSwBeatLo_not_count (hn : n < 512) (hd : d < 2) : ¬ countOff (KB_SW_BEAT_LO n d) := by unfold countOff KB_SW_BEAT_LO; omega
theorem kbSwBeatHi_not_count (hn : n < 512) (hd : d < 2) : ¬ countOff (KB_SW_BEAT_HI n d) := by unfold countOff KB_SW_BEAT_HI; omega
theorem kbGrace_not_count (hn : n < 512) (hd : d < 2) : ¬ countOff (KB_GRACE n d) := by unfold countOff KB_GRACE; omega
theorem chModeW1_not_count (hn : n < 512) : ¬ countOff (CH_MODE_W1_LO n) ∧ ¬ countOff (CH_MODE_W1_LO n + 4) := by
  unfold countOff CH_MODE_W1_LO; omega
theorem chModeW2_not_count (hn : n < 512) : ¬ countOff (CH_MODE_W2_LO n) ∧ ¬ countOff (CH_MODE_W2_LO n + 4) := by
  unfold countOff CH_MODE_W2_LO; omega
theorem chOutAsn_not_count (hn : n < 512) : ¬ countOff (CH_OUT_ASN_LO n) ∧ ¬ countOff (CH_OUT_ASN_LO n + 4) := by
  unfold countOff CH_OUT_ASN_LO; omega
theorem chInAsn_not_count (hn : n < 512) : ¬ countOff (CH_IN_ASN_LO n) ∧ ¬ countOff (CH_IN_ASN_LO n + 4) := by
  unfold countOff CH_IN_ASN_LO; omega
theorem chInPos_not_count (hn : n < 512) : ¬ countOff (CH_IN_POS_LO n) ∧ ¬ countOff (CH_IN_POS_LO n + 4) := by
  unfold countOff CH_IN_POS_LO; omega
theorem l1Run_not_count (hn : n < 512) : ¬ countOff (L1_RUN n) := by unfold countOff L1_RUN; omega
theorem chRefuse_not_count (hn : n < 512) (hi : i < 64) : ¬ countOff (CH_REFUSE n i) ∧ ¬ countOff (CH_REFUSE n i + 4) := by
  unfold countOff CH_REFUSE; omega
theorem twcStat_not_count (hn : n < 512) : ¬ countOff (TWC_STAT n) := by unfold countOff TWC_STAT; omega
theorem brStat_not_count (hn : n < 512) : ¬ countOff (BR_STAT n) := by unfold countOff BR_STAT; omega
theorem brCnt_not_count (hn : n < 512) (hi : i < 16) : ¬ countOff (BR_CNT n i) ∧ ¬ countOff (BR_CNT n i + 4) := by
  unfold countOff BR_CNT; omega

/-! ### Switches and keys -/

theorem commitT120_countWork (s : State) : CountWork s (commitT120 s) := by
  have hcfg : ¬ countOff (TCFG 120) := by decide
  have h : CountWork s ((s.setF (TCFG_EN 120) 1).setF (TCFG_SRC 120) 3) := ((CountWork.refl s).setF hcfg).setF hcfg
  unfold commitT120
  extract_lets s1
  split
  · exact (((h.wr64 (by decide) (by decide)).wr (by decide)).tally _).setF (by decide)
  · exact h.setF (by decide)

theorem showArmed_countWork (hn : n < 512) (hd : d < 2) (w : Option Switch) (s : State) : CountWork s (showArmed n d w s) := by
  have h : ∀ v, CountWork s (s.setF (KB_ROLES_SW_ARMED n d) v) := fun v => (CountWork.refl s).setF (kbRoles_not_count hn hd)
  unfold showArmed
  split
  · exact ((h 1).wr (kbSwBeatLo_not_count hn hd)).setF (kbSwBeatHi_not_count hn hd)
  · exact h 0

theorem Chan.outMark_setSw (d : Nat) (w : Option Switch) (c : Chan) : (c.setSw d w).outMark = c.outMark := by
  unfold Chan.setSw
  split <;> rfl

theorem disarmSwitch_countWork (hn : n < 512) (hd : d < 2) (s : State) : CountWork s (disarmSwitch n d s) := by
  have h : CountWork s (s.modChan n (fun c => c.setSw d none)) := (CountWork.refl s).modChan n (Chan.outMark_setSw d none)
  have hframe : ∀ v, CountWork s ((s.modChan n (fun c => c.setSw d none)).wr64 (if d = 0 then CH_MODE_W1_LO n else CH_MODE_W2_LO n) v) := by
    intro v
    split
    · exact h.wr64 (chModeW1_not_count hn).1 (chModeW1_not_count hn).2
    · exact h.wr64 (chModeW2_not_count hn).1 (chModeW2_not_count hn).2
  unfold disarmSwitch
  exact ((CountWork.ite (hframe _) h).trans (showArmed_countWork hn hd _ _)).trans (commitT120_countWork _)

theorem freeSlot_countWork (j : Nat) (s : State) : CountWork s (freeSlot j s) :=
  ((CountWork.refl s).tack _).setF (by decide)

theorem setSpare_countWork (hn : n < 512) (i : Option Nat) (s : State) : CountWork s (setSpare n i s) := by
  refine CountWork.foldl _ (fun u d hd => ?_) s
  have hk := kbRoles_not_count hn (roles_lt hd)
  split
  · exact ((CountWork.refl u).setF hk).setF hk
  · exact ((CountWork.refl u).setF hk).setF hk

theorem dropSpare_countWork (hn : n < 512) (s : State) : CountWork s (dropSpare n s) :=
  .ite ((setSpare_countWork hn _ s).trans (freeSlot_countWork _ _)) (.refl s)

theorem takeSpare_countWork (hn : n < 512) (s : State) :
    CountWork s (takeSpare n s).2 ∧ ∀ i t, (takeSpare n s).1 = some (i, t) → CountWork s t := by
  unfold takeSpare
  split
  · refine ⟨.refl s, fun i t h => ?_⟩
    cases h
    exact .refl s
  · split
    next i hi =>
      have h : CountWork s (setSpare n (some i) s) := setSpare_countWork hn _ s
      refine ⟨h, fun j t ht => ?_⟩
      cases ht
      exact h
    next => exact ⟨((CountWork.refl s).setF (by decide)).trans (report_quiet _ _ _ _ _).countWork, fun i t h => nomatch h⟩

theorem startExchange_countWork (hn : n < 512) (s : State) : CountWork s (startExchange n s) := by
  obtain ⟨hfull, hspare⟩ := takeSpare_countWork hn s
  unfold startExchange
  split
  · split
    next i t r heq =>
      have ht : CountWork s t := hspare i t (by rw [heq])
      have hmod : ∀ f, CountWork s (t.modBr n f) := fun f => ht.modChan n (fun _ => rfl)
      exact ((hmod _).setF (brStat_not_count hn)).setF (brStat_not_count hn)
    next t heq =>
      rw [heq] at hfull
      exact hfull
  · exact .refl s

/-! ### Events, refusals, mutes, the fall of a session -/

theorem chEvt_countWork (hn : n < 512) {f : Fld} (hf : f.off = CH_EVT n) (s : State) : CountWork s (chEvt n f s) :=
  ((CountWork.refl s).setF (hf ▸ chEvt_not_count hn)).trans (bellInput_quiet _ _ _).countWork

theorem refuse_countWork (hn : n < 512) {code : Nat} (hcode : code < 0x30) (s : State) : CountWork s (refuse n code s) := by
  have h := chRefuse_not_count hn (i := (code - 0x10) * 2) (by omega)
  exact (CountWork.refl s).wr64 h.1 h.2

theorem brReport_countWork (code src n data : Nat) (s : State) : CountWork s (brReport code src n data s) :=
  ((report_quiet _ _ _ _ _).trans (bellPulse_quiet _ _)).countWork

theorem discardUnits_countWork (hn : n < 512) {code : Nat} (hcode : code < 0x30) (s : State) : CountWork s (discardUnits n code s) := by
  unfold discardUnits
  extract_lets gone s1
  have h1 : CountWork s s1 := .same rfl rfl rfl rfl
  exact h1.trans (CountWork.foldl _ (fun u _ _ => refuse_countWork hn hcode u) _)

theorem mutePath_countWork (hn : n < 512) (c : MuteCause) (s : State) : CountWork s (mutePath n c s) := by
  unfold mutePath
  refine .ite (.refl s) ?_
  extract_lets was l s1
  have h1 : CountWork s s1 := .same rfl rfl rfl rfl
  exact .ite h1 (((h1.setF (chStat_not_count hn)).trans (chEvt_countWork hn rfl _)).trans (discardUnits_countWork hn (by decide) _))

theorem brDown_countWork (hn : n < 512) (cond : Nat) (s : State) : CountWork s (brDown n cond s) := by
  unfold brDown
  refine .ite (.refl s) ?_
  extract_lets s1 s2 s3 s4 s5 s6
  have hstat := brStat_not_count hn
  have h1 : CountWork s s1 := (disarmSwitch_countWork hn (by decide) s).trans (disarmSwitch_countWork hn (by decide) _)
  have h2 : CountWork s s2 := h1.modChan n (fun _ => rfl)
  have h4 : CountWork s s4 := ((((h2.setF hstat).setF hstat).setF hstat).setF hstat).setF hstat
  have h5 : CountWork s s5 := (h4.brTx _).trans (dropSpare_countWork hn _)
  exact (CountWork.ite (h5.trans (mutePath_countWork hn _ _)) h5).trans (brReport_countWork _ _ _ _ _)

theorem brTagFail_countWork (hn : n < 512) (s : State) : CountWork s (brTagFail n s) := by
  unfold brTagFail
  refine .ite ?_ (.refl s)
  extract_lets s1
  have h1 : CountWork s s1 := (CountWork.refl s).modChan n (fun _ => rfl)
  exact .ite (h1.trans (brDown_countWork hn _ _)) h1

theorem tagFail_countWork (hn : n < 512) (s : State) : CountWork s (tagFail n s) :=
  (refuse_countWork hn (by decide) s).trans (brTagFail_countWork hn _)

/-! ### What follows a rise of OUT_ASN (R135, R241) -/

theorem resvRaise_countWork (n : Nat) (s : State) : CountWork s (resvRaise n s) := by
  have hmod : CountWork s (s.modChan n (fun c => { c with resvBusy := true })) := (CountWork.refl s).modChan n (fun _ => rfl)
  exact .ite ((hmod.loftQ _).setF (by decide)) (.refl s)

theorem asnRisen_countWork (hn : n < 512) (s : State) : CountWork s (asnRisen n s) := by
  unfold asnRisen
  extract_lets s1
  have h1 : CountWork s s1 := resvRaise_countWork n s
  refine .ite ?_ h1
  have hseen : CountWork s (s1.modChan n (fun c => { c with softSeen := true })) := h1.modChan n (fun _ => rfl)
  have hevt := hseen.trans (chEvt_countWork hn (f := CH_EVT_ASN_SOFT n) rfl _)
  exact (hevt.trans (report_quiet _ _ _ _ _).countWork).trans (startExchange_countWork hn _)

end

end Sys2Proof.Machine

/-!
O45, the sender's side: a layer-1 frame takes its number, is encrypted where it may be, is counted and leaves (R192 to R200, R209).
-/

namespace Sys2Proof.Machine

/-! ### A channel's layer-1 record -/

/-- The records of channels beside their outbound numbering, and the draws, alone lead from `s` to `t`. -/
structure L1Record (s t : State) : Prop where
  csr : t.csr = s.csr
  tack : t.tack = s.tack
  mark : ∀ n, (t.chan n).outMark = (s.chan n).outMark
  cores : t.cores = s.cores
  pos : t.pos = s.pos

section
variable {s t u : State} {n : Nat}

theorem L1Record.refl (s : State) : L1Record s s := ⟨rfl, rfl, fun _ => rfl, rfl, rfl⟩

theorem L1Record.trans (h : L1Record s t) (g : L1Record t u) : L1Record s u :=
  ⟨g.csr.trans h.csr, g.tack.trans h.tack, fun n => (g.mark n).trans (h.mark n), g.cores.trans h.cores, g.pos.trans h.pos⟩

theorem L1Record.ite {c : Prop} [Decidable c] (h : L1Record s t) (g : L1Record s u) : L1Record s (if c then t else u) := by
  split <;> assumption

theorem L1Record.countWork (h : L1Record s t) : CountWork s t := ⟨fun o _ => State.rd_of_csr h.csr o, h.mark, h.cores, h.pos⟩

theorem L1Record.slotWork (h : L1Record s t) (n : Nat) : SlotWork n s t := ⟨fun o _ => State.rd_of_csr h.csr o, h.tack⟩

theorem modChan_l1Record (s : State) (n : Nat) {f : Chan → Chan} (hf : ∀ c, (f c).outMark = c.outMark) : L1Record s (s.modChan n f) :=
  ⟨rfl, rfl, ((CountWork.refl s).modChan n hf).mark, rfl, rfl⟩

theorem draw_l1Record (s : State) : L1Record s s.draw.2 := ⟨rfl, rfl, fun _ => rfl, rfl, rfl⟩

/-- A multiframe's end writes the channel's record alone. -/
theorem l1MfEnd_l1Record (n : Nat) (s : State) : L1Record s (l1MfEnd n s) := by
  have htag : ∀ (u : State) (b : List Byte), L1Record u (u.modL1 n (fun l => { l with tagOut := b })) :=
    fun u b => modChan_l1Record u n (fun _ => rfl)
  unfold l1MfEnd
  extract_lets l
  split
  · extract_lets first tag s1
    have h1 : L1Record s s1 := htag s tag
    split
    · exact h1.trans (modChan_l1Record s1 n (fun _ => rfl))
    · exact h1
  · exact (draw_l1Record s).trans (htag _ _)

/-! ### Overhead bytes (R199, R200, R253) -/

theorem brNextSegment_countWork {segmax : Nat} {pick : BrOut → Bool} {x : List Byte × State}
    (h : brNextSegment segmax pick s = some x) : CountWork s x.2 := by
  unfold brNextSegment at h
  dsimp only at h
  split at h
  · cases h
  · split at h
    · cases h
    · cases h
      exact .same rfl rfl rfl rfl

theorem l1BrByte_countWork (n : Nat) (s : State) : CountWork s (l1BrByte n s).2 := by
  have hrest : ∀ (u : State) (r : List Byte), CountWork u (u.modL1 n (fun l => { l with brOut := r })) :=
    fun u r => (CountWork.refl u).modChan n (fun _ => rfl)
  unfold l1BrByte
  split
  · exact hrest s _
  · split
    next b r t heq => exact (brNextSegment_countWork heq).trans (hrest t r)
    next => exact .refl s

theorem l1Overhead_countWork (n k : Nat) (s : State) : CountWork s (l1Overhead n k s).2 := by
  unfold l1Overhead
  split
  · exact .refl s
  · split
    · exact .refl s
    · exact (l1BrByte_countWork n s).trans (l1BrByte_countWork n _)

/-! ### The number of a frame (R194 to R196) -/

/-- The state in which the channel's next frame has its number and its stamp. -/
def l1Numbered (n mfas : Nat) (s : State) : State :=
  (s.wr64 (CH_MODE_W0_LO n) (BitVec.ofNat 64 (nextEfn s n mfas))).modL1 n
    (fun l => { l with efnAt := none, outStamp := s.stamp, period := l1Period s n (nextEfn s n mfas) })

theorem l1Numbered_chan (n mfas : Nat) (s : State) : (l1Numbered n mfas s).chan n =
    { s.chan n with l1 := { (s.chan n).l1 with efnAt := none, outStamp := s.stamp, period := l1Period s n (nextEfn s n mfas) } } :=
  State.chan_modChan_same _ _ _

theorem l1Numbered_rd {o mfas : Nat} (h : o ≠ CH_MODE_W0_LO n) (h4 : o ≠ CH_MODE_W0_LO n + 4) : (l1Numbered n mfas s).rd o = s.rd o :=
  State.rd_wr64_ne _ _ _ _ h.symm h4.symm

theorem l1Numbered_slotWork (n mfas : Nat) (s : State) : SlotWork n s (l1Numbered n mfas s) :=
  ((SlotWork.refl n s).wr64 chModeW0_not_slotKept.1 chModeW0_not_slotKept.2).trans ⟨fun _ _ => rfl, rfl⟩

theorem l1Numbered_efnSw (d mfas : Nat) (s : State) : efnSw (l1Numbered n mfas s) n d = efnSw s n d := by
  have h : ∀ o, o = CH_MODE_W1_LO n ∨ o = CH_MODE_W2_LO n → (l1Numbered n mfas s).rd64 o = s.rd64 o := by
    intro o ho
    refine State.rd64_wr64_ne _ _ _ _ ?_ ?_ ?_ <;> simp only [CH_MODE_W0_LO, CH_MODE_W1_LO, CH_MODE_W2_LO] at * <;> omega
  unfold efnSw
  rw [h _ (by split <;> simp)]

theorem l1Numbered_getF {mfas : Nat} {f : Fld} (hf : slotKept n f.off) : (l1Numbered n mfas s).getF f = s.getF f :=
  (l1Numbered_slotWork n mfas s).getF hf

theorem l1Numbered_isSet {mfas : Nat} {f : Fld} (hf : slotKept n f.off) : (l1Numbered n mfas s).isSet f = s.isSet f :=
  (l1Numbered_slotWork n mfas s).isSet hf

/-- The key of a frame does not rest on the number of the last one. -/
theorem l1Key_numbered (hn : n < 512) (mfas efn : Nat) (s : State) : l1Key (l1Numbered n mfas s) n 0 efn = l1Key s n 0 efn := by
  have hroles : slotKept n (KB_ROLES n 0) := by unfold slotKept KB_ROLES; omega
  unfold l1Key
  simp only [l1Numbered_efnSw, l1Numbered_chan, Chan.sw, if_true, l1Numbered_isSet (f := KB_ROLES_NEXT_V n 0) hroles,
    l1Numbered_isSet (f := KB_ROLES_PREV_V n 0) hroles, l1Numbered_isSet (f := KB_ROLES_CUR_V n 0) hroles,
    l1Numbered_getF (f := KB_ROLES_NEXT_SLOT n 0) hroles, l1Numbered_getF (f := KB_ROLES_PREV_SLOT n 0) hroles,
    l1Numbered_getF (f := KB_ROLES_CUR_SLOT n 0) hroles]

/-- Nor does the question whether it may be encrypted. -/
theorem l1MayEncrypt_numbered (hn : n < 512) (mfas efn : Nat) (s : State) :
    l1MayEncrypt (l1Numbered n mfas s) n efn = l1MayEncrypt s n efn := by
  have hstat : slotKept n (CH_STAT n) := by unfold slotKept CH_STAT; omega
  have hmuted : (l1Numbered n mfas s).muted n = s.muted n := rfl
  unfold l1MayEncrypt pathStopped
  simp only [l1Numbered_efnSw, l1Numbered_chan, l1Key_numbered hn, hmuted, l1Numbered_isSet (f := CH_STAT_LEASE n) hstat,
    l1Numbered_isSet (f := CH_STAT_HELD n) hstat]

/-! ### What a frame counts (R139) -/

/-- From `s` to `t` a layer-1 frame of channel n has been counted, if it was encrypted, and left its numbering alone. -/
structure L1Counted (n k : Nat) (s t : State) : Prop where
  efn : t.rd64 (CH_MODE_W0_LO n) = s.rd64 (CH_MODE_W0_LO n)
  units : t.rd64 (CH_OUT_STAT n 0) = s.rd64 (CH_OUT_STAT n 0) + BitVec.ofNat 64 k
  cfg : t.rd (CH_CFG n) = s.rd (CH_CFG n)
  ports : ∀ o, 0x21000000 ≤ o → o < 0x22000000 → t.rd o = s.rd o
  mark : (t.chan n).outMark = (s.chan n).outMark
  cores : t.cores = s.cores
  pos : t.pos = s.pos

theorem CountWork.l1Counted (h : CountWork s t) (hn : n < 512) : L1Counted n 0 s t where
  efn := h.rd64 (chModeW0_count hn).1 (chModeW0_count hn).2
  units := by
    rw [h.rd64 (chOutStat_count hn (by decide)).1 (chOutStat_count hn (by decide)).2]
    simp
  cfg := h.rd _ (chCfg_count hn)
  ports _ h1 h2 := h.rd _ (.inl ⟨h1, h2⟩)
  mark := h.mark n
  cores := h.cores
  pos := h.pos

theorem L1Counted.trans {k j : Nat} (h : L1Counted n k s t) (g : L1Counted n j t u) : L1Counted n (k + j) s u where
  efn := g.efn.trans h.efn
  units := by rw [g.units, h.units, BitVec.ofNat_add, BitVec.add_assoc]
  cfg := g.cfg.trans h.cfg
  ports o h1 h2 := (g.ports o h1 h2).trans (h.ports o h1 h2)
  mark := g.mark.trans h.mark
  cores := g.cores.trans h.cores
  pos := g.pos.trans h.pos

/-- A counter of the outbound statistics; the first counts units. -/
theorem outStat_l1Counted {i : Nat} (hi : i < 4) (k : Nat) (s : State) :
    L1Counted n (if i = 0 then k else 0) s (outStat n i k s) where
  efn := outStat_rd64_ne _ _ _ (.inl (by simp only [CH_MODE_W0_LO, CH_OUT_STAT]; omega))
  units := by
    split
    next h =>
      subst h
      exact outStat_rd64_same 0 k s
    next h =>
      rw [outStat_rd64_ne _ _ _ (.inl (by simp only [CH_OUT_STAT]; omega))]
      simp
  cfg := State.rd_wr64_ne _ _ _ _ (by simp only [CH_CFG, CH_OUT_STAT]; omega) (by simp only [CH_CFG, CH_OUT_STAT]; omega)
  ports o h1 h2 := State.rd_wr64_ne _ _ _ _ (by simp only [CH_OUT_STAT]; omega) (by simp only [CH_OUT_STAT]; omega)
  mark := rfl
  cores := rfl
  pos := rfl

/-- An encrypted frame is accepted and sent: its unit and its octets (R139). -/
theorem outStats_l1Counted (len : Nat) (s : State) :
    L1Counted n 1 s (outStat n 3 len (outStat n 2 1 (outStat n 1 len (outStat n 0 1 s)))) :=
  (((outStat_l1Counted (i := 0) (by decide) 1 s).trans (outStat_l1Counted (i := 1) (by decide) len _)).trans
    (outStat_l1Counted (i := 2) (by decide) 1 _)).trans (outStat_l1Counted (i := 3) (by decide) len _)

/-- An encrypted frame is numbered within its epoch and counted (R139, R197). -/
def l1CountOut (n efn j len : Nat) (s : State) : State :=
  let e := (s.slot j).epoch
  let s := if (s.chan n).l1.epochOut = some e then s else s.modL1 n (fun l => { l with epochOut := some e, firstOut := efn })
  let asn := (efn + 2 ^ 48 - (s.chan n).l1.firstOut) % 2 ^ 48
  let s := asnRisen n (s.wr64 (CH_OUT_ASN_LO n) (BitVec.ofNat 64 (asn + 1)))
  outStat n 3 len (outStat n 2 1 (outStat n 1 len (outStat n 0 1 s)))

theorem l1CountOut_l1Counted (hn : n < 512) (efn j len : Nat) (s : State) : L1Counted n 1 s (l1CountOut n efn j len s) := by
  unfold l1CountOut
  extract_lets e s1 asn s2
  have h1 : CountWork s s1 := .ite (.refl s) ((CountWork.refl s).modChan n (fun _ => rfl))
  have h2 : CountWork s s2 := (h1.wr64 (chOutAsn_not_count hn).1 (chOutAsn_not_count hn).2).trans (asnRisen_countWork hn _)
  have h := (h2.l1Counted hn).trans (outStats_l1Counted len s2)
  rwa [Nat.zero_add] at h

/-! ### A channel's own words -/

theorem State.chTwin_congr (h : t.rd (CH_CFG n) = s.rd (CH_CFG n)) : t.chTwin n = s.chTwin n :=
  congrArg (fun x => decide (x = 1)) (State.getF_congr (f := CH_CFG_TWIN n) h)

theorem State.txPort_congr (h : t.rd (CH_CFG n) = s.rd (CH_CFG n)) (htwin : s.chTwin n = false) : t.txPort n = s.txPort n := by
  unfold State.txPort
  rw [State.chTwin_congr h, htwin, State.getF_congr (f := CH_CFG_CIPHER_PORT n) h]
  rfl

theorem State.txPort_lt (htwin : s.chTwin n = false) : s.txPort n < 32 := by
  unfold State.txPort
  rw [htwin]
  exact Nat.mod_lt _ (show 0 < 2 ^ 5 by decide)

theorem isWitness_of_not_twin (htwin : s.chTwin n = false) : isWitness s n = false := by
  unfold isWitness
  rw [htwin]
  rfl

/-! ### A frame leaves -/

/-- What the channel knows of the frame with MFAS m, overhead `o` and payload area `pay`: it is numbered, sent encrypted or as zeros,
and counted where it was encrypted (R192 to R197). -/
def L1Sent (s : State) (n m : Nat) (o pay : List Byte) (t : State) : Prop :=
  let efn := nextEfn s n m
  let key := if l1MayEncrypt s n efn then l1Key s n 0 efn else none
  let ct := (key.map (fun j => l1Crypt (dirKey s n 0 j) (s.getF (L1_POL_LO_DIR n)) n efn pay)).getD (zeros pay.length)
  t.rd64 (CH_MODE_W0_LO n) = BitVec.ofNat 64 efn ∧ (t.chan n).l1.efnAt = none ∧ (t.chan n).l1.outStamp = s.stamp ∧
  (match t.outs.head? with | some (.l1Frame q e _ ou ais p) => decide (q = 32 + s.txPort n ∧ e = efn ∧ ou = o ∧ ais = false ∧ p = ct) | _ => false) = true ∧
  t.rd64 (CH_OUT_STAT n 0) = s.rd64 (CH_OUT_STAT n 0) + (if key.isSome then 1 else 0) ∧ t.cores = s.cores ∧ t.pos = s.pos

/-- A frame that its channel has numbered and counted leaves on its port. -/
theorem l1Sent_of_counted {m : Nat} {o pay oh : List Byte} {key : Option Nat} (htwin : s.chTwin n = false)
    (hup : s.portUp (32 + s.txPort n) = true)
    (hkey : key = if l1MayEncrypt s n (nextEfn s n m) then l1Key s n 0 (nextEfn s n m) else none)
    (hcount : L1Counted n (if key.isSome then 1 else 0) (l1Numbered n m s) u) :
    L1Sent s n m o pay (if u.portUp (32 + u.txPort n) && !isWitness u n
      then u.emit (.l1Frame (32 + u.txPort n) (nextEfn s n m) oh o false
        ((key.map (fun j => l1Crypt (dirKey s n 0 j) (s.getF (L1_POL_LO_DIR n)) n (nextEfn s n m) pay)).getD (zeros pay.length))) else u) := by
  have hcfg : u.rd (CH_CFG n) = s.rd (CH_CFG n) := hcount.cfg.trans
    (l1Numbered_rd (by simp only [CH_CFG, CH_MODE_W0_LO]; omega) (by simp only [CH_CFG, CH_MODE_W0_LO]; omega))
  have hport : u.txPort n = s.txPort n := State.txPort_congr hcfg htwin
  have hwit : isWitness u n = false := isWitness_of_not_twin ((State.chTwin_congr hcfg).trans htwin)
  have hlt := State.txPort_lt htwin
  have hstat : u.rd (PORT_STAT (32 + s.txPort n)) = s.rd (PORT_STAT (32 + s.txPort n)) :=
    (hcount.ports _ (by unfold PORT_STAT; omega) (by unfold PORT_STAT; omega)).trans
      (l1Numbered_rd (by simp only [PORT_STAT, CH_MODE_W0_LO]; omega) (by simp only [PORT_STAT, CH_MODE_W0_LO]; omega))
  have hupu : u.portUp (32 + s.txPort n) = true := by
    rw [← hup]
    exact congrArg (fun x => decide (x = 3)) (State.getF_congr (f := PORT_STAT_STATE (32 + s.txPort n)) hstat)
  have hmark : (u.chan n).outMark = (none, s.stamp) := by rw [hcount.mark, l1Numbered_chan]; rfl
  rw [hport, if_pos (by rw [hupu, hwit]; rfl)]
  subst hkey
  refine ⟨?_, congrArg Prod.fst hmark, congrArg Prod.snd hmark, ?_, ?_, hcount.cores, hcount.pos⟩
  · exact hcount.efn.trans (State.rd64_wr64_same s _ _)
  · exact decide_eq_true ⟨rfl, rfl, rfl, rfl, rfl⟩
  · refine hcount.units.trans ?_
    have h0 : (l1Numbered n m s).rd64 (CH_OUT_STAT n 0) = s.rd64 (CH_OUT_STAT n 0) := by
      refine State.rd64_wr64_ne s _ _ _ ?_ ?_ ?_ <;> simp only [CH_OUT_STAT, CH_MODE_W0_LO] <;> omega
    have hunit : ∀ b : Bool, BitVec.ofNat 64 (if b then 1 else 0) = if b then 1 else 0 := by decide
    rw [h0, hunit]

/-- A frame of a channel that is neither held for its number's wrap nor in Twin mode. -/
theorem l1Send_sent {mfas : Nat} {opu payload : List Byte} (hn : n < 512) (htwin : s.chTwin n = false)
    (hup : s.portUp (32 + s.txPort n) = true)
    (hnum : (s.chan n).l1.efnAt.isSome = true ∨ (s.rd64 (CH_MODE_W0_LO n)).toNat ≤ nextEfn s n mfas) :
    L1Sent s n mfas opu payload (l1Send n mfas opu payload false s) := by
  have hwraps : ((s.chan n).l1.efnAt.isNone && decide (nextEfn s n mfas < (s.rd64 (CH_MODE_W0_LO n)).toNat)) = false := by
    rcases hnum with h | h
    · rw [Option.isNone_eq_false_iff.mpr h, Bool.false_and]
    · rw [decide_eq_false (by omega), Bool.and_false]
  unfold l1Send
  extract_lets last efn period wraps armed s1 s2 s3 s4 m k key p s5 ct s6 s7 o q sent s8
  have hs1 : s1 = s := if_neg (by rw [show wraps = false from hwraps]; simp)
  have hs3 : s3 = s2 := by
    refine if_neg ?_
    have htwin2 : s2.chTwin n = false := by
      rw [← htwin, ← hs1]
      exact State.chTwin_congr (State.rd_wr64_ne _ _ _ _ (by simp only [CH_CFG, CH_MODE_W0_LO]; omega)
        (by simp only [CH_CFG, CH_MODE_W0_LO]; omega))
    rw [htwin2]
    simp
  have hs4 : s4 = l1Numbered n mfas s := by
    have hstamp : s2.stamp = s.stamp := by
      rw [← hs1]
      refine State.rd64_wr64_ne _ _ _ _ ?_ ?_ ?_ <;> simp only [POS_NOW_LO, CH_MODE_W0_LO] <;> omega
    unfold s4
    rw [hs3, hstamp]
    unfold s2
    rw [hs1]
    rfl
  have hkey : key = if l1MayEncrypt s n efn then l1Key s n 0 efn else none := by
    unfold key
    rw [hs4, l1MayEncrypt_numbered hn, l1Key_numbered hn]
  have h5 : L1Record s4 s5 := by
    unfold s5
    split
    · exact .ite (.refl s4) ((l1MfEnd_l1Record n s4).trans (modChan_l1Record _ n (fun _ => rfl)))
    · exact (draw_l1Record s4).trans (modChan_l1Record _ n (fun _ => rfl))
  have hslot : SlotWork n s s5 := (hs4 ▸ l1Numbered_slotWork n mfas s : SlotWork n s s4).trans (h5.slotWork n)
  have hct : ct = (key.map (fun j => l1Crypt (dirKey s n 0 j) (s.getF (L1_POL_LO_DIR n)) n efn payload)).getD (zeros payload.length) := by
    have hdir : s5.getF (L1_POL_LO_DIR n) = s.getF (L1_POL_LO_DIR n) :=
      hslot.getF (by simp only [slotKept, L1_POL_LO_DIR, L1_POL_LO]; omega)
    unfold ct
    clear_value key
    cases key with
    | none => rfl
    | some j =>
      dsimp only
      rw [hslot.dirKey hn, hdir]
      rfl
  have h6 : L1Record s4 s6 := h5.trans (modChan_l1Record s5 n (fun _ => rfl))
  have h7 : L1Counted n (if key.isSome then 1 else 0) s6 s7 := by
    unfold s7
    clear_value key
    cases key with
    | none => exact (CountWork.refl s6).l1Counted hn
    | some j => exact l1CountOut_l1Counted hn efn j payload.length s6
  have ho : L1Counted n 0 s7 s8 := (l1Overhead_countWork n k s7).l1Counted hn
  have hcount := ((h6.countWork.l1Counted hn).trans h7).trans ho
  rw [Nat.zero_add, Nat.add_zero, hs4] at hcount
  have hsent := l1Sent_of_counted (o := opu) (pay := payload) (oh := o.1) htwin hup hkey hcount
  rw [← hct] at hsent
  exact hsent

end

end Sys2Proof.Machine

/-!
O45, the receiver's side: the checks of multiframes, the overhead, and the frame that is released (R192, R199, R206 to R208).
-/

namespace Sys2Proof.Machine

section
variable {s t u : State} {n p : Nat}

/-! ### Overhead bytes received (R253) -/

/-- A register that an arriving Bridle byte does not write: any but the Bridle's own words of a channel. -/
abbrev heardOff (o : Nat) : Prop := o < 0x22100000 ∨ 0x22200000 ≤ o ∨ o % 0x800 < 0x600

/-- Overhead bytes of a layer-1 frame lead from `s` to `t`. -/
structure HeardWork (s t : State) : Prop where
  rd : ∀ o, heardOff o → t.rd o = s.rd o
  mark : ∀ n, (t.chan n).outMark = (s.chan n).outMark
  cores : t.cores = s.cores
  pos : t.pos = s.pos

theorem HeardWork.trans (h : HeardWork s t) (g : HeardWork t u) : HeardWork s u :=
  ⟨fun o x => (g.rd o x).trans (h.rd o x), fun n => (g.mark n).trans (h.mark n), g.cores.trans h.cores, g.pos.trans h.pos⟩

theorem HeardWork.ite {c : Prop} [Decidable c] (h : HeardWork s t) (g : HeardWork s u) : HeardWork s (if c then t else u) := by
  split <;> assumption

theorem L1Record.heardWork (h : L1Record s t) : HeardWork s t := ⟨fun o _ => State.rd_of_csr h.csr o, h.mark, h.cores, h.pos⟩

theorem HeardWork.refl (s : State) : HeardWork s s := (L1Record.refl s).heardWork

theorem HeardWork.countWork (h : HeardWork s t) : CountWork s t :=
  ⟨fun o ho => h.rd o (by unfold heardOff; unfold countOff at ho; omega), h.mark, h.cores, h.pos⟩

theorem modIn_l1Record (s : State) (n p : Nat) (f : L1In → L1In) : L1Record s (s.modIn n p f) := by
  unfold State.modIn State.modL1
  exact modChan_l1Record s n (fun _ => rfl)

theorem modBr_l1Record (s : State) (n : Nat) (f : Session → Session) : L1Record s (s.modBr n f) := modChan_l1Record s n (fun _ => rfl)

theorem brCnt_heardWork {i : Nat} (hn : n < 512) (hi : i < 8) (s : State) : HeardWork s (brCnt n i s) where
  rd o ho := State.rd_wr64_ne _ _ _ _ (by unfold heardOff at ho; simp only [BR_CNT]; omega) (by unfold heardOff at ho; simp only [BR_CNT]; omega)
  mark _ := rfl
  cores := rfl
  pos := rfl

theorem brArrive_heardWork (hn : n < 512) (path : Nat) (m : List Byte) (s : State) : HeardWork s (brArrive n path m s) :=
  .ite ⟨fun _ _ => rfl, fun _ => rfl, rfl, rfl⟩ (brCnt_heardWork hn (by decide) s)

theorem brSegment_heardWork (path : Nat) (seg : List Byte) (s : State) : HeardWork s (brSegment path seg s) := by
  unfold brSegment
  extract_lets n len fl data lane1 first last b old s1 put m
  by_cases hskip : at' seg 0 ≠ 0xB5 ∨ 512 ≤ n
  · rw [if_pos hskip]
    exact .refl s
  · rw [if_neg hskip]
    have hn : n < 512 := by omega
    have h1 : HeardWork s s1 := .ite (brCnt_heardWork hn (by decide) s) (.refl s)
    have hput : ∀ v u, HeardWork u (put v u) := fun v u => (modBr_l1Record u n _).heardWork
    clear_value m s1 put
    cases m with
    | none => exact h1
    | some m => exact .ite ((h1.trans (hput _ _)).trans (brArrive_heardWork hn _ _ _)) (h1.trans (hput _ _))

theorem l1BrIn_heardWork (n p : Nat) (b : Byte) (s : State) : HeardWork s (l1BrIn n p b s) := by
  have hin : ∀ f, HeardWork s (s.modIn n p f) := fun f => (modIn_l1Record s n p f).heardWork
  unfold l1BrIn
  exact .ite (.refl s) (.ite ((hin _).trans (brSegment_heardWork _ _ _)) (hin _))

theorem l1OhIn_heardWork (n p k : Nat) (oh : List Byte) (s : State) : HeardWork s (l1OhIn n p k oh s) :=
  .ite (modIn_l1Record s n p _).heardWork (.ite (.refl s) ((l1BrIn_heardWork _ _ _ s).trans (l1BrIn_heardWork _ _ _ _)))

/-! ### Checks of multiframes (R206, R207, R285) -/

theorem modIn_countWork (s : State) (n p : Nat) (f : L1In → L1In) : CountWork s (s.modIn n p f) := (modIn_l1Record s n p f).countWork

theorem CountWork.modL1 (h : CountWork s t) (n : Nat) {f : L1Ch → L1Ch}
    (hf : ∀ l, ((f l).efnAt, (f l).outStamp) = (l.efnAt, l.outStamp)) : CountWork s (t.modL1 n f) := h.modChan n (fun c => hf c.l1)

theorem CountWork.modTw (h : CountWork s t) (n : Nat) (f : TwinCh → TwinCh) : CountWork s (t.modTw n f) := h.modChan n (fun _ => rfl)

theorem CountWork.report (h : CountWork s t) (unit code path data : Nat) : CountWork s (t.report unit code path data) :=
  h.trans (report_quiet _ _ _ _ _).countWork

theorem l1Judge_countWork (hn : n < 512) (m : Nat) (pass : Bool) (s : State) : CountWork s (l1Judge n m pass s) := by
  have hrun := l1Run_not_count hn
  unfold l1Judge
  extract_lets s1 pol ais s2 s3 r s4 s5 s6 r2 s7
  have h1 : CountWork s s1 := (CountWork.refl s).setF hrun
  have h2 : CountWork s s2 := .ite (h1.setF (kbGrace_not_count hn (by decide))) h1
  have hset : ∀ {u : State} (f : Fld) (v : Nat), f.off = L1_RUN n → CountWork s u → CountWork s (u.setF f v) :=
    fun f v hf hu => hu.setF (hf ▸ hrun)
  refine .ite ?_ ?_
  · have h3 : CountWork s s3 := h2.modL1 n (fun _ => rfl)
    clear_value s3
    have hpass : CountWork s (s3.setF (L1_RUN_AIS n) 0 |>.setF (L1_RUN_PASS_RUN n) 0 |>.setF (L1_RUN_FAIL_RUN n) 0) :=
      hset _ _ rfl (hset _ _ rfl (hset _ _ rfl h3))
    exact .ite (.ite (hpass.report _ _ _ _) (hset _ _ rfl h3)) (hset _ _ rfl h3)
  · have h4 : CountWork s s4 := (h2.report _ _ _ _).trans (tagFail_countWork hn _)
    have h5 : CountWork s s5 := h4.modL1 n (fun _ => rfl)
    have h6 : CountWork s s6 := hset (L1_RUN_PASS_RUN n) _ rfl (hset (L1_RUN_FAIL_RUN n) _ rfl h5)
    clear_value s6
    have h7 : CountWork s s7 := .ite ((hset (L1_RUN_AIS n) 1 rfl h6).report _ _ _ _) h6
    clear_value s7
    have h8 : CountWork s (s7.modL1 n (fun l => { l with swFail := 0 })) := h7.modL1 n (fun _ => rfl)
    exact .ite ((h8.trans (brReport_countWork 0x0608 887 n 0 _)).trans (brDown_countWork hn 4 _)) h7

theorem rxDiverge_countWork (hn : n < 512) (a b : BitVec 128) (s : State) : CountWork s (rxDiverge n a b s) := by
  have hcnt : ¬ countOff (TWC_CNT n (2 * 2)) ∧ ¬ countOff (TWC_CNT n (2 * 2) + 4) := by unfold countOff TWC_CNT; omega
  have h : CountWork s (twCnt n 2 (s.setF (TWC_STAT_DISTRUST n) 1)) := ((CountWork.refl s).setF (twcStat_not_count hn)).wr64 hcnt.1 hcnt.2
  exact (h.trans (addReport_quiet _ _ _).countWork).trans (bellPulse_quiet _ _).countWork

theorem inAsnRaise_countWork (hn : n < 512) (asn : Nat) (s : State) : CountWork s (inAsnRaise n asn s) :=
  .ite ((CountWork.refl s).wr64 (chInAsn_not_count hn).1 (chInAsn_not_count hn).2) (.refl s)

theorem l1Checked_countWork (hn : n < 512) (p m : Nat) (pass : Bool) (tag : List Byte) (s : State) :
    CountWork s (l1Checked n p m pass tag s) := by
  have hstat := twcStat_not_count hn
  unfold l1Checked
  extract_lets s1 top s2 q
  have h1 : CountWork s s1 := modIn_countWork s n p _
  have h2 : CountWork s s2 := by
    refine .ite ?_ h1
    split
    · exact h1.trans (inAsnRaise_countWork hn _ _)
    · exact h1
  have hjudge : ∀ b, CountWork s (l1Judge n m b s2) := fun b => h2.trans (l1Judge_countWork hn m b s2)
  refine .ite (hjudge _) ?_
  split
  next m' pass' tag' heq =>
    refine .ite ?_ (.ite (hjudge _) h2)
    extract_lets s3 s4
    have h3 : CountWork s s3 := .ite (h2.trans (rxDiverge_countWork hn _ _ _)) h2
    have h4 : CountWork s s4 := .ite (h3.setF hstat) (.ite (h3.setF hstat) h3)
    exact h4.trans (l1Judge_countWork hn _ _ _)
  next => exact .ite (hjudge _) h2

theorem l1CheckDue_countWork (hn : n < 512) (p : Nat) (s : State) : CountWork s (l1CheckDue n p s) := by
  unfold l1CheckDue
  extract_lets i
  split
  · exact .refl s
  · exact (modIn_countWork s n p _).trans (l1Checked_countWork hn _ _ _ _ _)

theorem l1MfStep_countWork (hn : n < 512) (p m k : Nat) (key : Option Nat) (s : State) : CountWork s (l1MfStep n p m k key s) := by
  have hopen : ∀ (u : State) (f : L1In → L1In) (w : Word), CountWork u ((u.modIn n p f).modL1 n (fun l => { l with pol := w })) :=
    fun u f w => (modIn_countWork u n p f).modL1 n (fun _ => rfl)
  unfold l1MfStep
  extract_lets i F s1
  split
  next m' chk heq =>
    refine .ite (.refl s) ?_
    extract_lets closed s2 s3
    have h2 : CountWork s s2 := (l1CheckDue_countWork hn p s).trans (modIn_countWork _ n p _)
    have h3 : CountWork s s3 := .ite h2 ((h2.trans (l1CheckDue_countWork hn p _)).trans (modIn_countWork _ n p _))
    exact h3.trans (hopen _ _ _)
  next => exact hopen s _ _

/-! ### Decryption and release (R133, R192, R208) -/

theorem l1Crypt_length (key : List Byte) (dir ch efn : Nat) (l : List Byte) : (l1Crypt key dir ch efn l).length = l.length :=
  List.length_mapIdx

theorem pathLive_countWork (hn : n < 512) (p : Nat) (s : State) : CountWork s (pathLive n p s) := by
  have hbit : ¬ countOff (pathLostBit n p).off := by
    unfold pathLostBit
    split
    · exact twcStat_not_count hn
    · exact twcStat_not_count hn
  exact ((CountWork.refl s).setF hbit).modTw n _

/-- Whatever key and order show, a frame with a recovered position is released. -/
theorem l1Decrypt_release (hn : n < 512) (p efn : Nat) (opu payload : List Byte) (s : State) :
    ∃ u ais pay, l1Decrypt n p efn opu payload s = l1Release n p efn ais opu pay u ∧ CountWork s u ∧ pay.length = payload.length := by
  unfold l1Decrypt
  split
  · exact ⟨_, _, _, rfl, refuse_countWork hn (by decide) s, rfl⟩
  · extract_lets e back s1 s2 s3
    split
    · have hevt : CountWork s (posEvt POS_EVT_BACK_RX 873 (s.report unitPos 0x0106 n n)) :=
        (((CountWork.refl s).report _ _ _ _).setF (by decide)).trans (bellPulse_quiet _ _).countWork
      exact ⟨_, _, _, rfl, hevt.trans (tagFail_countWork hn _), rfl⟩
    · have h2 : CountWork s s2 := (modIn_countWork s n p _).wr64 (chInPos_not_count hn).1 (chInPos_not_count hn).2
      have h3 : CountWork s s3 := .ite h2 (h2.modL1 n (fun _ => rfl))
      exact ⟨_, _, _, rfl, h3.trans (pathLive_countWork hn p _), l1Crypt_length _ _ _ _ _⟩

end

end Sys2Proof.Machine

/-!
O45, clause by clause.
-/

namespace Sys2Proof.Machine

section
variable {s t u : State} {n p : Nat}

/-! ### Release (R207, R208) -/

theorem inStat_rd64_same (i k : Nat) (s : State) :
    (inStat n i k s).rd64 (CH_IN_STAT n (2 * i)) = s.rd64 (CH_IN_STAT n (2 * i)) + BitVec.ofNat 64 k := State.rd64_wr64_same _ _ _

theorem inStat_rd64_ne (i k : Nat) (s : State) {o : Nat} (h : o + 8 ≤ CH_IN_STAT n (2 * i) ∨ CH_IN_STAT n (2 * i) + 8 ≤ o) :
    (inStat n i k s).rd64 o = s.rd64 o := State.rd64_wr64_ne _ _ _ _ (by omega) (by omega) (by omega)

/-- The statistics of a released frame stand above the counts of what was received, and below those of what was refused. -/
theorem l1Out_rd64 (n efn : Nat) (ais : Bool) (opu payload : List Byte) (s : State) {o : Nat}
    (h : o + 8 ≤ CH_IN_STAT n 4 ∨ CH_IN_STAT n 16 ≤ o) : (l1Out n efn ais opu payload s).rd64 o = s.rd64 o := by
  have hstat : ∀ i k u, 2 ≤ i → i < 8 → (inStat n i k u).rd64 o = u.rd64 o := fun i k u h2 h8 =>
    inStat_rd64_ne i k u (by simp only [CH_IN_STAT] at h ⊢; omega)
  unfold l1Out
  extract_lets k ais' s1
  have h1 : s1.rd64 o = s.rd64 o := by
    unfold s1
    split
    · exact hstat 6 _ s (by decide) (by decide)
    · exact (hstat 3 _ _ (by decide) (by decide)).trans (hstat 2 _ s (by decide) (by decide))
  exact h1

theorem l1Out_cores (n efn : Nat) (ais : Bool) (opu payload : List Byte) (s : State) : (l1Out n efn ais opu payload s).cores = s.cores := by
  unfold l1Out
  extract_lets k ais' s1
  have h1 : s1.cores = s.cores := by
    unfold s1
    split <;> rfl
  exact h1

/-- A substituted frame is all ones (R207). -/
theorem l1Out_ais (n efn : Nat) (opu payload : List Byte) (s : State) : (l1Out n efn true opu payload s).outs.head? =
    some (.l1Frame (s.getF (CH_CFG_EGRESS_PORT n)) efn [0, 0] (opu.map (fun _ => 0xFF)) true (List.replicate payload.length 0xFF)) := rfl

theorem l1Out_frame (n efn : Nat) (ais : Bool) (opu payload : List Byte) (s : State) : ∃ o a q,
    (l1Out n efn ais opu payload s).outs.head? = some (.l1Frame (s.getF (CH_CFG_EGRESS_PORT n)) efn [0, 0] o a q) ∧ q.length = payload.length := by
  refine ⟨_, _, _, rfl, ?_⟩
  split
  · exact List.length_replicate
  · rfl

theorem l1Release_of_not_twin (htwin : s.chTwin n = false) (p efn : Nat) (ais : Bool) (opu payload : List Byte) :
    l1Release n p efn ais opu payload s = l1Out n efn ais opu payload s := by
  unfold l1Release
  rw [htwin]
  rfl

/-! ### A frame received (R192, R199, R206, R208) -/

/-- A frame that no check refuses is counted (R139). -/
def l1Received (n len : Nat) (s : State) : State := inStat n 1 len (inStat n 0 1 s)

theorem l1Received_rd {len o : Nat} (h : o < CH_IN_STAT n 0 ∨ CH_IN_STAT n 4 ≤ o) : (l1Received n len s).rd o = s.rd o := by
  have hstat : ∀ i k u, i < 2 → (inStat n i k u).rd o = u.rd o := fun i k u hi =>
    State.rd_wr64_ne _ _ _ _ (by simp only [CH_IN_STAT] at h ⊢; omega) (by simp only [CH_IN_STAT] at h ⊢; omega)
  exact (hstat 1 _ _ (by decide)).trans (hstat 0 _ _ (by decide))

theorem l1Received_counts (n len : Nat) (s : State) :
    (l1Received n len s).rd64 (CH_IN_STAT n 0) = s.rd64 (CH_IN_STAT n 0) + 1 ∧
      (l1Received n len s).rd64 (CH_IN_STAT n 2) = s.rd64 (CH_IN_STAT n 2) + BitVec.ofNat 64 len := by
  constructor
  · exact (inStat_rd64_ne 1 len _ (.inl (by simp only [CH_IN_STAT]; omega))).trans (inStat_rd64_same 0 1 s)
  · refine (inStat_rd64_same 1 len _).trans (congrArg (· + BitVec.ofNat 64 len) ?_)
    exact inStat_rd64_ne 0 1 s (.inr (by simp only [CH_IN_STAT]; omega))

theorem l1Received_isSdh (len : Nat) : (l1Received n len s).isSdh n = s.isSdh n := by
  have h : (l1Received n len s).tribKind n = s.tribKind n :=
    State.getF_congr (f := CH_TRIB_PLAIN_TRIB_kind n) (l1Received_rd (.inl (by simp only [CH_TRIB_PLAIN_TRIB_kind, CH_TRIB, CH_IN_STAT]; omega)))
  unfold State.isSdh
  rw [h]

theorem l1Received_inPos (len : Nat) : (l1Received n len s).rd64 (CH_IN_POS_LO n) = s.rd64 (CH_IN_POS_LO n) :=
  State.rd64_congr (l1Received_rd (.inl (by simp only [CH_IN_POS_LO, CH_IN_STAT]; omega)))
    (l1Received_rd (.inl (by simp only [CH_IN_POS_LO, CH_IN_STAT]; omega)))

theorem l1Efn_received (len k : Nat) : l1Efn (l1Received n len s) n k = l1Efn s n k := by
  have hlast : ∀ q, (l1Received n len s).l1In n q = s.l1In n q := fun _ => rfl
  unfold l1Efn l1Frames
  simp only [l1Received_inPos, l1Received_isSdh, hlast]

variable {i : Fin 512} {path2 : Bool} {mfas : Byte} {oh opu payload : List Byte}

theorem l1CipherFrameRx_refused {c : Nat} (hmode : s.chMode i.val = 2) (hlen : payload.length = 16 * l1Blocks s i.val)
    (h : inboundRefusal s i.val = some c) : execL1CipherFrameRx i path2 mfas oh opu payload s = .next (refuse i.val c s) := by
  unfold execL1CipherFrameRx
  simp only [hmode, hlen, h, ne_eq, not_true_eq_false, decide_false, Bool.or_self, Bool.false_eq_true, if_false]

/-- A frame of a known position has closed what it closes, and its overhead bytes are taken (R199, R206). -/
def l1Placed (n k : Nat) (oh : List Byte) (s : State) : State :=
  let efn := l1Efn s n k
  let s := l1OhIn n 1 k oh (l1MfStep n 1 (efn / l1Frames s n) k (l1Key s n 1 efn) s)
  if 7 ≤ k then l1CheckDue n 1 s else s

theorem l1Placed_countWork (hn : n < 512) (k : Nat) (oh : List Byte) (s : State) : CountWork s (l1Placed n k oh s) := by
  unfold l1Placed
  extract_lets efn s1
  have h1 : CountWork s s1 := (l1MfStep_countWork hn _ _ _ _ s).trans (l1OhIn_heardWork _ _ _ _ _).countWork
  exact .ite (h1.trans (l1CheckDue_countWork hn 1 s1)) h1

/-- A frame of an OTN channel outside a pair that no check refuses: without a position it is substituted (R208), with one decrypted. -/
theorem l1CipherFrameRx_accepted (hmode : s.chMode i.val = 2) (hlen : payload.length = 16 * l1Blocks s i.val)
    (h : inboundRefusal s i.val = none) (hsdh : s.isSdh i.val = false) (htwin : s.chTwin i.val = false) :
    execL1CipherFrameRx i path2 mfas oh opu payload s =
      if !(s.chan i.val).l1.posOk then .next (l1Release i.val 1 (s.rd64 (CH_IN_POS_LO i.val)).toNat true opu payload
        (refuse i.val 0x1A (l1OhIn i.val 1 mfas.toNat oh (l1Received i.val payload.length s))))
      else .next (l1Decrypt i.val 1 (l1Efn s i.val mfas.toNat) opu payload (l1Placed i.val mfas.toNat oh (l1Received i.val payload.length s))) := by
  have hguard : ¬ (decide (s.chMode i.val ≠ 2) || decide (payload.length ≠ 16 * l1Blocks s i.val)) = true := by
    simp only [hmode, hlen, ne_eq, not_true_eq_false, decide_false, Bool.or_self, Bool.false_eq_true, not_false_eq_true]
  have hpath : ¬ (path2 && s.chTwin i.val) = true := by rw [htwin, Bool.and_false]; exact Bool.false_ne_true
  have hrow : ¬ (l1Received i.val payload.length s).isSdh i.val = true := by
    rw [l1Received_isSdh, hsdh]
    exact Bool.false_ne_true
  have hefn := l1Efn_received (s := s) (n := i.val) payload.length mfas.toNat
  have hin := l1Received_inPos (s := s) (n := i.val) payload.length
  unfold l1Received at hrow hefn hin
  unfold execL1CipherFrameRx
  dsimp only
  rw [if_neg hguard, h, if_neg hpath]
  dsimp only
  rw [if_neg hrow]
  dsimp only
  rw [hin, hefn]
  unfold l1Placed l1Received
  rw [hefn]
  rfl

/-! ### The input of a channel (R209) -/

/-- Registers and the ledger alone lead from `s` to `t`. -/
abbrev LedgerWork (s t : State) : Prop := t = { s with csr := t.csr, ledger := t.ledger }

theorem LedgerWork.trans (h : LedgerWork s t) (g : LedgerWork t u) : LedgerWork s u := by
  unfold LedgerWork at *
  rw [g, h]

theorem LedgerWork.ite {c : Prop} [Decidable c] (h : LedgerWork s t) (g : LedgerWork s u) : LedgerWork s (if c then t else u) := by
  split <;> assumption

theorem setF_ledgerWork (s : State) (f : Fld) (v : Nat) : LedgerWork s (s.setF f v) := rfl

theorem ledger_ledgerWork (s : State) (l : Ledger) : LedgerWork s { s with ledger := l } := rfl

theorem countDrop_ledgerWork (s : State) (cls : Nat) : LedgerWork s (s.countDrop cls) := by
  unfold State.countDrop
  refine .ite rfl ?_
  extract_lets o l s1
  have h1 : LedgerWork s s1 := (setF_ledgerWork s _ _).trans (setF_ledgerWork _ _ _)
  exact h1.trans (ledger_ledgerWork s1 _)

theorem addReport_ledgerWork (s : State) (unit : Nat) (r : Report) : LedgerWork s (s.addReport unit r) := by
  unfold State.addReport
  extract_lets q l s1
  have h1 : LedgerWork s s1 := ledger_ledgerWork s _
  have h2 : LedgerWork s1 (fstateRaise q.2 1 s1) := (setF_ledgerWork s1 _ _).trans (setF_ledgerWork _ _ _)
  exact .ite h1 ((h1.trans h2).trans (countDrop_ledgerWork _ _))

theorem State.countDrop_queues (s : State) (cls : Nat) : (s.countDrop cls).ledger.queues = s.ledger.queues := by
  unfold State.countDrop
  split <;> rfl

theorem State.addReport_queues (s : State) (unit : Nat) (r : Report) :
    tblGet [] unit (s.addReport unit r).ledger.queues = (queueReport (tblGet [] unit s.ledger.queues) r).1 := by
  unfold State.addReport
  extract_lets q l s1
  have h1 : tblGet [] unit s1.ledger.queues = q.1 := tblGet_tblSet_same _ _ _ _
  have hraise : (fstateRaise q.2 1 s1).ledger = s1.ledger := by rw [fstateRaise, State.cntSat_ledger, State.setF_ledger]
  clear_value s1
  split
  · exact h1
  · rw [State.countDrop_queues, hraise]
    exact h1

/-- A report is in its unit's queue (R507). -/
theorem State.report_reports (s : State) (unit code path data : Nat) : Reports s (s.report unit code path data) unit code path data :=
  State.addReport_queues s unit _

theorem l1InputLost_spec (hn : n < 512) (s : State) :
    let t := (s.setF (L1_RUN_INPUT_LOST n) 1).report unitChan 0x0309 n n
    t.isSet (L1_RUN_INPUT_LOST n) = true ∧ Reports s t unitChan 0x0309 n n ∧ t = { s with csr := t.csr, ledger := t.ledger } := by
  intro t
  have hrd : t.rd (L1_RUN n) = (s.setF (L1_RUN_INPUT_LOST n) 1).rd (L1_RUN n) :=
    State.report_rd_ledger _ _ _ _ (by decide) (by decide) (by simp only [L1_RUN]; omega)
  refine ⟨?_, ?_, ?_⟩
  · exact (congrArg (fun x => decide (x = 1)) (State.getF_congr (f := L1_RUN_INPUT_LOST n) hrd)).trans
      (State.isSet_setF_bit _ _ rfl (by simp only [L1_RUN_INPUT_LOST]; decide))
  · have hstamp : (s.setF (L1_RUN_INPUT_LOST n) 1).stamp = s.stamp := by
      refine State.rd64_setF_ne _ _ _ _ ?_ ?_ <;> simp only [L1_RUN_INPUT_LOST, L1_RUN, POS_NOW_LO] <;> omega
    have hdev : (s.setF (L1_RUN_INPUT_LOST n) 1).devId = s.devId :=
      State.getF_setF_ne _ _ _ _ (by simp only [L1_RUN_INPUT_LOST, L1_RUN, FAB_ID_DEV_ID, FAB_ID]; omega)
    have h := State.report_reports (s.setF (L1_RUN_INPUT_LOST n) 1) unitChan 0x0309 n n
    unfold Reports State.origin at h ⊢
    rw [hstamp, hdev] at h
    exact h
  · exact (setF_ledgerWork s _ _).trans (addReport_ledgerWork _ _ _)

/-! ### The wrap of a channel's number (R197) -/

theorem l1EfnWrapHold_holds {i : Fin 512} (hruns : l1OutRuns s i.val = true) (hlast : s.rd64 (CH_MODE_W0_LO i.val) = BitVec.ofNat 64 (2 ^ 48 - 1))
    (hsw : (s.chan i.val).swOut = none) (hheld : s.isSet (CH_STAT_HELD i.val) = false) :
    execL1EfnWrapHold i s = .next (forcedRekey i.val (holdChan i.val s)) := by
  have hnat : (s.rd64 (CH_MODE_W0_LO i.val)).toNat = 2 ^ 48 - 1 := by rw [hlast]; rfl
  unfold execL1EfnWrapHold
  simp only [hruns, hnat, hsw, hheld, Option.isSome_none, Bool.false_and, Bool.not_false, decide_true, Bool.and_true, if_true]

/-- A forced rekey leaves a hold as it stands (R80). -/
theorem forcedRekey_held (hn : n < 512) (s : State) :
    (forcedRekey n s).isSet (CH_STAT_HELD n) = s.isSet (CH_STAT_HELD n) ∧ (forcedRekey n s).getF POS_STAT_HELD = s.getF POS_STAT_HELD := by
  have h := forcedRekey_chanWork hn s
  have hstat : keptOff (CH_STAT_HELD n).off := by simp only [keptOff, CH_STAT_HELD, CH_STAT]; omega
  exact ⟨congrArg (fun x => decide (x = 1)) (State.getF_congr (h.rd _ hstat)), State.getF_congr (h.rd _ (by decide))⟩

/-! ### A frame received and released -/

/-- A frame with a position is counted and leaves under its number, as it was or substituted (R192, R207). -/
theorem l1CipherFrameRx_placed (hmode : s.chMode i.val = 2) (hlen : payload.length = 16 * l1Blocks s i.val)
    (hopen : inboundRefusal s i.val = none) (hsdh : s.isSdh i.val = false) (htwin : s.chTwin i.val = false) (hpos : (s.chan i.val).l1.posOk = true) :
    Completes (execL1CipherFrameRx i path2 mfas oh opu payload s) fun t => t.rd64 (CH_IN_STAT i.val 0) = s.rd64 (CH_IN_STAT i.val 0) + 1 ∧
      t.rd64 (CH_IN_STAT i.val 2) = s.rd64 (CH_IN_STAT i.val 2) + BitVec.ofNat 64 payload.length ∧
      (∃ o a q, t.outs.head? = some (.l1Frame (s.getF (CH_CFG_EGRESS_PORT i.val)) (l1Efn s i.val mfas.toNat) [0, 0] o a q) ∧
        q.length = payload.length) ∧ t.cores = s.cores := by
  have hi : i.val < 512 := i.isLt
  have hexec := (l1CipherFrameRx_accepted (path2 := path2) (mfas := mfas) (oh := oh) (opu := opu) hmode hlen hopen hsdh htwin).trans
    (if_neg (by rw [hpos]; exact Bool.false_ne_true))
  generalize l1Efn s i.val mfas.toNat = efn at hexec ⊢
  obtain ⟨u, ais, pay, hdec, hu, hpay⟩ :=
    l1Decrypt_release hi 1 efn opu payload (l1Placed i.val mfas.toNat oh (l1Received i.val payload.length s))
  have hwork := (l1Placed_countWork hi mfas.toNat oh (l1Received i.val payload.length s)).trans hu
  have hcfg : u.rd (CH_CFG i.val) = s.rd (CH_CFG i.val) :=
    (hwork.rd _ (chCfg_count hi)).trans (l1Received_rd (.inl (by simp only [CH_CFG, CH_IN_STAT]; omega)))
  have hstat : ∀ k, k < 3 → (l1Out i.val efn ais opu pay u).rd64 (CH_IN_STAT i.val k) =
      (l1Received i.val payload.length s).rd64 (CH_IN_STAT i.val k) := fun k hk =>
    (l1Out_rd64 _ _ _ _ _ u (.inl (by simp only [CH_IN_STAT]; omega))).trans
      (hwork.rd64 (chInStat_count hi (by omega)).1 (chInStat_count hi (by omega)).2)
  obtain ⟨hunits, hoctets⟩ := l1Received_counts i.val payload.length s
  obtain ⟨o, a, q, hframe, hq⟩ := l1Out_frame i.val efn ais opu pay u
  rw [State.getF_congr (f := CH_CFG_EGRESS_PORT i.val) hcfg] at hframe
  rw [hdec, l1Release_of_not_twin ((State.chTwin_congr hcfg).trans htwin)] at hexec
  exact ⟨_, hexec, (hstat 0 (by decide)).trans hunits, (hstat 2 (by decide)).trans hoctets, ⟨o, a, q, hframe, hq.trans hpay⟩,
    (l1Out_cores _ _ _ _ _ u).trans hwork.cores⟩

/-- A frame without a position is counted as refused and leaves substituted, under the last position (R208). -/
theorem l1CipherFrameRx_unplaced (hmode : s.chMode i.val = 2) (hlen : payload.length = 16 * l1Blocks s i.val)
    (hopen : inboundRefusal s i.val = none) (hsdh : s.isSdh i.val = false) (htwin : s.chTwin i.val = false) (hpos : (s.chan i.val).l1.posOk = false) :
    Completes (execL1CipherFrameRx i path2 mfas oh opu payload s) fun t => t.rd64 (CH_IN_STAT i.val 0) = s.rd64 (CH_IN_STAT i.val 0) + 1 ∧
      t.rd64 (CH_REFUSE i.val 20) = s.rd64 (CH_REFUSE i.val 20) + 1 ∧
      t.outs.head? = some (.l1Frame (s.getF (CH_CFG_EGRESS_PORT i.val)) (s.rd64 (CH_IN_POS_LO i.val)).toNat [0, 0] (opu.map (fun _ => 0xFF)) true
        (List.replicate payload.length 0xFF)) ∧ t.cores = s.cores := by
  have hi : i.val < 512 := i.isLt
  have hexec := (l1CipherFrameRx_accepted (path2 := path2) (mfas := mfas) (oh := oh) (opu := opu) hmode hlen hopen hsdh htwin).trans
    (if_pos (by rw [hpos]; rfl))
  generalize (s.rd64 (CH_IN_POS_LO i.val)).toNat = efn at hexec ⊢
  have hheard := l1OhIn_heardWork i.val 1 mfas.toNat oh (l1Received i.val payload.length s)
  generalize l1OhIn i.val 1 mfas.toNat oh (l1Received i.val payload.length s) = v at hexec hheard
  have hwork := hheard.countWork.trans (refuse_countWork hi (code := 0x1A) (by decide) v)
  have hcfg : (refuse i.val 0x1A v).rd (CH_CFG i.val) = s.rd (CH_CFG i.val) :=
    (hwork.rd _ (chCfg_count hi)).trans (l1Received_rd (.inl (by simp only [CH_CFG, CH_IN_STAT]; omega)))
  have hrefused : v.rd64 (CH_REFUSE i.val 20) = s.rd64 (CH_REFUSE i.val 20) := by
    have hrd : ∀ o, o = CH_REFUSE i.val 20 ∨ o = CH_REFUSE i.val 20 + 4 → v.rd o = s.rd o := fun o ho =>
      (hheard.rd o (by simp only [heardOff, CH_REFUSE] at ho ⊢; omega)).trans
        (l1Received_rd (.inr (by simp only [CH_REFUSE, CH_IN_STAT] at ho ⊢; omega)))
    exact State.rd64_congr (hrd _ (.inl rfl)) (hrd _ (.inr rfl))
  rw [l1Release_of_not_twin ((State.chTwin_congr hcfg).trans htwin)] at hexec
  refine ⟨_, hexec, ?_, ?_, ?_, (l1Out_cores _ _ _ _ _ _).trans hwork.cores⟩
  · refine (l1Out_rd64 _ _ _ _ _ _ (.inl (by simp only [CH_IN_STAT]; omega))).trans ?_
    exact (hwork.rd64 (chInStat_count hi (by decide)).1 (chInStat_count hi (by decide)).2).trans
      (l1Received_counts i.val payload.length s).1
  · refine (l1Out_rd64 _ _ _ _ _ _ (.inr (by simp only [CH_REFUSE, CH_IN_STAT]; omega))).trans ?_
    refine (State.rd64_wr64_same v _ _).trans ?_
    exact congrArg (· + 1) hrefused
  · rw [l1Out_ais, State.getF_congr (f := CH_CFG_EGRESS_PORT i.val) hcfg]

end

/-- Settles O45: a frame sent by what its number, key and counts rest on, one received by what its checks may write. -/
theorem layer1Results : Obligations.Layer1Results := by
  intro s n mfas oh opu payload path2 c
  extract_lets i lost sent free own slices
  have hi : i < 512 := n.isLt
  have hsends : ∀ m o pay, free m = true → sent m o pay (l1Send i m o pay false s) := by
    intro m o pay hfree
    simp only [free, Bool.and_eq_true, Bool.not_eq_true', Bool.or_eq_true, decide_eq_true_eq] at hfree
    obtain ⟨⟨⟨hup, -⟩, htwin⟩, hnum⟩ := hfree
    exact l1Send_sent hi htwin hup hnum
  refine ⟨?_, ?_, ?_, ?_, ?_, ?_, ?_, ?_⟩
  · intro hruns hlost hlen hfree
    have hlost' : s.isSet (L1_RUN_INPUT_LOST i) = false := hlost
    exact ⟨_, if_pos (by rw [hruns, hlost', decide_eq_true hlen]; rfl), hsends _ _ _ hfree⟩
  · intro hruns hlost hfree
    exact ⟨_, if_pos (Bool.and_eq_true_iff.mpr ⟨hruns, hlost⟩), hsends _ _ _ hfree⟩
  · intro hruns hlost
    exact ⟨_, if_pos (Bool.and_eq_true_iff.mpr ⟨hruns, (Bool.not_eq_true' _).mpr hlost⟩), l1InputLost_spec hi s⟩
  · refine ⟨_, rfl, State.isSet_setF_bit_zero _ _ rfl (by simp only [L1_RUN_INPUT_LOST]; decide), ?_, rfl⟩
    exact fun o ho => State.rd_setF_ne _ _ _ _ (fun e => ho (List.mem_singleton.mpr e.symm))
  · intro hruns hlast hsw hheld hroom
    obtain ⟨hset, hcount, -, hcores⟩ := holdChan_spec hi hroom
    obtain ⟨hset', hcount'⟩ := forcedRekey_held hi (holdChan i s)
    rw [hheld] at hcount
    exact ⟨_, l1EfnWrapHold_holds hruns hlast hsw hheld, hset'.trans hset, forcedRekey_forced i _, hcount'.trans hcount,
      (forcedRekey_chanWork hi _).cores.trans hcores⟩
  · intro hmode hlen hrefused
    refine ⟨_, l1CipherFrameRx_refused hmode hlen hrefused, ?_, rfl⟩
    rw [refuse, Nat.mul_comm]
    exact State.rd64_wr64_same _ _ _
  · intro hmode hlen hopen hsdh htwin hpos
    obtain ⟨t, hexec, hunits, hoctets, ⟨o, a, q, hframe, hq⟩, hcores⟩ := l1CipherFrameRx_placed hmode hlen hopen hsdh htwin hpos
    refine ⟨t, hexec, hunits, hoctets, ?_, hcores⟩
    rw [hframe]
    exact decide_eq_true ⟨rfl, rfl, rfl, hq⟩
  · exact fun hmode hlen hopen hsdh htwin hpos => l1CipherFrameRx_unplaced hmode hlen hopen hsdh htwin hpos

end Sys2Proof.Machine

/-!
SUPPORT. Mailboxes (R340, R343, R344): bytes of memory read back, a response in its buffer, and what the answer to a command leaves
alone.
-/

namespace Sys2Proof.Machine

section
variable {s t u : State}

/-! ### Bytes and little-endian values (R11) -/

theorem State.bytes_length (s : State) (a n : Nat) : (s.bytes a n).length = n := by
  induction n generalizing a with
  | zero => rfl
  | succ n ih => exact congrArg (· + 1) (ih (a + 1))

theorem State.bytes_congr {a n : Nat} (h : ∀ b, a ≤ b → t.byte b = s.byte b) : t.bytes a n = s.bytes a n := by
  induction n generalizing a with
  | zero => rfl
  | succ n ih => exact congrArg₂ List.cons (h a le_rfl) (ih (fun b hb => h b (by omega)))

theorem State.bytes_setBytes (s : State) (a : Nat) (l : List Byte) {o n : Nat} (h : o + n ≤ l.length) :
    (s.setBytes a l).bytes (a + o) n = (l.drop o).take n := by
  induction n generalizing o with
  | zero => rfl
  | succ n ih =>
    have ho : o < l.length := by omega
    have hbyte : (s.setBytes a l).byte (a + o) = l[o] := by
      rw [State.byte_setBytes, if_pos (by omega), Nat.add_sub_cancel_left]
      exact List.getD_eq_getElem l 0 ho
    have htail : (s.setBytes a l).bytes (a + o + 1) n = (l.drop (o + 1)).take n := ih (o := o + 1) (by omega)
    rw [List.drop_eq_getElem_cons ho, List.take_succ_cons]
    exact congrArg₂ List.cons hbyte htail

theorem leVal_lt_pow (l : List Byte) : leVal l < 256 ^ l.length := by
  induction l with
  | nil => exact Nat.one_pos
  | cons b l ih =>
    have hb := b.isLt
    simp only [leVal, List.length_cons, Nat.pow_succ]
    omega

theorem leVal_leBytes (n v : Nat) : leVal (leBytes n v) = v % 256 ^ n := by
  induction n generalizing v with
  | zero => simp [leVal, leBytes, Nat.mod_one]
  | succ n ih =>
    have hb : (BitVec.ofNat 8 v).toNat = v % 256 := BitVec.toNat_ofNat v 8
    rw [leBytes, leVal, ih, hb, Nat.pow_succ', Nat.mod_mul]

theorem State.ldLE_lt (s : State) (a n : Nat) : s.ldLE a n < 256 ^ n := by
  have h := leVal_lt_pow (s.bytes a n)
  rwa [State.bytes_length] at h

/-! ### The command in a mailbox (R343) -/

/-- The mailboxes' buffers, and every byte above them, read as they read. -/
def BufferSame (s t : State) : Prop := ∀ b, bar0Key 0 ≤ b → t.byte b = s.byte b

theorem BufferSame.trans (h : BufferSame s t) (g : BufferSame t u) : BufferSame s u := fun b hb => (g b hb).trans (h b hb)

theorem BufferSame.of_mem (h : t.mem = s.mem) : BufferSame s t := fun b _ => by unfold State.byte; rw [h]

theorem BufferSame.ldLE (h : BufferSame s t) (m o n : Nat) : t.ldLE (cmdBuf m + o) n = s.ldLE (cmdBuf m + o) n :=
  congrArg leVal (State.bytes_congr (fun b hb => h b (by simp only [cmdBuf, bar0Key] at hb ⊢; omega)))

theorem BufferSame.mbOp (h : BufferSame s t) (m : Nat) : mbOp t m = mbOp s m := h.ldLE m 0 2

theorem BufferSame.mbTag (h : BufferSame s t) (m : Nat) : mbTag t m = mbTag s m := h.ldLE m 8 8

theorem mbOp_of_ready {op m : Nat} (h : yfiReady s op m = true) : mbOp s m = op := by
  simp only [yfiReady, Bool.and_eq_true, decide_eq_true_eq] at h
  exact h.2

/-! ### The answer (R344, R346) -/

/-- A response as its bytes (R343). -/
def mbResponse (op st orig tag gen stamp : Nat) (data : List Byte) : List Byte :=
  leBytes 2 op ++ [BitVec.ofNat 8 st, BitVec.ofNat 8 orig] ++ leBytes 4 data.length ++ leBytes 8 tag ++ leBytes 8 gen ++ leBytes 8 stamp ++ data

theorem mbResponse_length (op st orig tag gen stamp : Nat) (data : List Byte) :
    (mbResponse op st orig tag gen stamp data).length = 32 + data.length := by
  simp only [mbResponse, List.length_append, leBytes_length, List.length_cons, List.length_nil]

/-- What the answer to a command leads to: registers of the mailboxes, memory, what leaves, and the Yardmaster's journal. -/
structure MailWork (s t : State) : Prop where
  rd : ∀ o, o < 0x10000000000 → t.rd o = s.rd o
  eqv : t = { s with csr := t.csr, mem := t.mem, outs := t.outs, ym := t.ym }
  outs : s.outs <:+ t.outs

/-- A mailbox with its status, and the event of its end. -/
def mbEnded (m st : Nat) (s : State) : State :=
  ((s.setF (MB_STATUS_RESULT m) st).setF (MB_STATUS_STATE m) 3).setF (MB_EVT_DONE m) 1

theorem mbEnded_spec (m : Nat) {st : Nat} (hst : st < 256) (s : State) :
    (mbEnded m st s).getF (MB_STATUS_STATE m) = 3 ∧ (mbEnded m st s).getF (MB_STATUS_RESULT m) = st ∧
      (mbEnded m st s).isSet (MB_EVT_DONE m) = true := by
  have hne : (MB_EVT_DONE m).off ≠ (MB_STATUS_STATE m).off := by simp only [MB_EVT_DONE, MB_EVT, MB_STATUS_STATE, MB_STATUS]; omega
  have h2 : (MB_STATUS_STATE m).hi < 32 := show 2 < 32 by decide
  have h31 : (MB_STATUS_RESULT m).hi < 32 := show 31 < 32 by decide
  refine ⟨?_, ?_, State.isSet_setF_bit _ _ rfl (show 1 < 32 by decide)⟩
  · exact (State.getF_setF_ne _ _ _ _ hne).trans (State.getF_setF_same _ _ _ (show 0 ≤ 2 by decide) h2)
  · refine (State.getF_setF_ne _ (MB_EVT_DONE m) (MB_STATUS_RESULT m) _ hne).trans ?_
    refine (State.getF_setF_disj _ (MB_STATUS_STATE m) (MB_STATUS_RESULT m) _ (show 0 ≤ 2 by decide) h2 (show 24 ≤ 31 by decide)
      (.inr (.inr (show 2 < 24 by decide)))).trans ?_
    exact (State.getF_setF_same _ _ _ (show 24 ≤ 31 by decide) h31).trans (Nat.mod_eq_of_lt hst)

/-- A mailbox answered: its response in its buffer, its status, its event and its vector. -/
def mbAnswered (m op st orig tag : Nat) (data : List Byte) (s : State) : State :=
  mbSignal m (MB_CTL_IRQ_DONE m) (mbEnded m st (s.setBytes (rspBuf m) (mbResponse op st orig tag s.gen s.stamp.toNat data)))

theorem mbRespond_eq (m op st orig tag : Nat) (data : List Byte) (s : State) :
    mbRespond m op st orig tag data s = mbAnswered m op st orig tag data s := (rfl)

theorem State.rd_mbSignal (m : Nat) (f : Fld) (s : State) (o : Nat) : (mbSignal m f s).rd o = s.rd o := by
  unfold mbSignal; split <;> rfl

theorem State.mem_mbSignal (m : Nat) (f : Fld) (s : State) : (mbSignal m f s).mem = s.mem := by
  unfold mbSignal; split <;> rfl

theorem MailWork.trans (h : MailWork s t) (g : MailWork t u) : MailWork s u :=
  ⟨fun o x => (g.rd o x).trans (h.rd o x), by rw [g.eqv, h.eqv], h.outs.trans g.outs⟩

theorem MailWork.config (h : MailWork s t) : t.config = s.config := by rw [h.eqv]

theorem mbSignal_mailWork (m : Nat) (f : Fld) (s : State) : MailWork s (mbSignal m f s) := by
  unfold mbSignal
  split
  · exact ⟨fun _ _ => rfl, rfl, ⟨[_], rfl⟩⟩
  · exact ⟨fun _ _ => rfl, rfl, List.suffix_rfl⟩

theorem setBytes_mailWork (a : Nat) (l : List Byte) (s : State) : MailWork s (s.setBytes a l) := by
  induction l generalizing a s with
  | nil => exact ⟨fun _ _ => rfl, rfl, List.suffix_rfl⟩
  | cons b l ih => exact MailWork.trans (t := s.setByte a b) ⟨fun _ _ => rfl, rfl, List.suffix_rfl⟩ (ih _ _)

theorem MailWork.setF {f : Fld} {v : Nat} (h : MailWork s t) (hf : 0x10000000000 ≤ f.off) : MailWork s (t.setF f v) :=
  h.trans ⟨fun o ho => State.rd_setF_ne _ _ _ _ (by omega), rfl, List.suffix_rfl⟩

theorem MailWork.ym (h : MailWork s t) (y : Ym) : MailWork s { t with ym := y } := h.trans ⟨fun _ _ => rfl, rfl, List.suffix_rfl⟩

theorem mbEnded_mailWork (m st : Nat) (s : State) : MailWork s (mbEnded m st s) := by
  have h : 0x10000000000 ≤ MB_STATUS m ∧ 0x10000000000 ≤ MB_EVT m := by simp only [MB_STATUS, MB_EVT]; omega
  exact MailWork.setF (MailWork.setF (MailWork.setF ⟨fun _ _ => rfl, rfl, List.suffix_rfl⟩ h.1) h.1) h.2

theorem mbAnswered_mailWork (m op st orig tag : Nat) (data : List Byte) (s : State) :
    MailWork s (mbAnswered m op st orig tag data s) :=
  ((setBytes_mailWork _ _ s).trans (mbEnded_mailWork m st _)).trans (mbSignal_mailWork m _ _)

/-- An answer in the Yardmaster's journal (R346). -/
def mbJournal (m st : Nat) (data : List Byte) (s : State) : State :=
  { s with ym := { s.ym with resp := tblSet [] m ([BitVec.ofNat 8 st] ++ data) s.ym.resp } }

theorem mbJournal_csr (m st : Nat) (data : List Byte) (s : State) : (mbJournal m st data s).csr = s.csr := rfl

theorem mbJournal_mem (m st : Nat) (data : List Byte) (s : State) : (mbJournal m st data s).mem = s.mem := rfl

theorem mbDone_eq (m st : Nat) (data : List Byte) (s : State) :
    mbDone m st data s = mbJournal m st data (mbAnswered m (mbOp s m) st 0 (mbTag s m) data s) :=
  congrArg (mbJournal m st data) (mbRespond_eq ..)

theorem mbDone_mailWork (m st : Nat) (data : List Byte) (s : State) : MailWork s (mbDone m st data s) := by
  rw [mbDone_eq]
  exact (mbAnswered_mailWork m _ st 0 _ data s).ym _

theorem mbAnswered_rd (m op st orig tag : Nat) (data : List Byte) (s : State) (o : Nat) :
    (mbAnswered m op st orig tag data s).rd o =
      (mbEnded m st (s.setBytes (rspBuf m) (mbResponse op st orig tag s.gen s.stamp.toNat data))).rd o := State.rd_mbSignal m _ _ o

theorem mbEnded_byte (m st : Nat) (s : State) (b : Nat) : (mbEnded m st s).byte b = s.byte b := by
  rw [mbEnded, State.byte_setF, State.byte_setF, State.byte_setF]

theorem mbAnswered_byte (m op st orig tag : Nat) (data : List Byte) (s : State) (b : Nat) :
    (mbAnswered m op st orig tag data s).byte b =
      (s.setBytes (rspBuf m) (mbResponse op st orig tag s.gen s.stamp.toNat data)).byte b :=
  (congrArg (tblGet 0 b) (State.mem_mbSignal m _ _)).trans (mbEnded_byte m st _ b)

/-- The fields of a response, where R343 puts them. -/
theorem mbResponse_fields (op st orig tag gen stamp : Nat) (data : List Byte) :
    (mbResponse op st orig tag gen stamp data).take 2 = leBytes 2 op ∧
    ((mbResponse op st orig tag gen stamp data).drop 2).take 1 = leBytes 1 st ∧
    ((mbResponse op st orig tag gen stamp data).drop 4).take 4 = leBytes 4 data.length ∧
    ((mbResponse op st orig tag gen stamp data).drop 8).take 8 = leBytes 8 tag ∧
    (mbResponse op st orig tag gen stamp data).drop 32 = data := ⟨rfl, rfl, rfl, rfl, rfl⟩

/-- An answer in its mailbox (R343, R344). -/
theorem mbAnswered_done {m op st tag : Nat} (hop : op < 2 ^ 16) (hst : st < 256) (htag : tag < 2 ^ 64) {data : List Byte}
    (hlen : data.length < 2 ^ 32) (hcsr : t.csr = (mbAnswered m op st 0 tag data s).csr)
    (hmem : t.mem = (mbAnswered m op st 0 tag data s).mem) :
    t.getF (MB_STATUS_STATE m) = 3 ∧ t.getF (MB_STATUS_RESULT m) = st ∧ t.isSet (MB_EVT_DONE m) = true ∧ t.ldLE (rspBuf m) 2 = op ∧
      t.ldLE (rspBuf m + 2) 1 = st ∧ t.ldLE (rspBuf m + 4) 4 = data.length ∧ t.ldLE (rspBuf m + 8) 8 = tag ∧
      t.bytes (rspBuf m + 32) data.length = data := by
  obtain ⟨fop, fst, flen, ftag, fdata⟩ := mbResponse_fields op st 0 tag s.gen s.stamp.toNat data
  have hl := mbResponse_length op st 0 tag s.gen s.stamp.toNat data
  have hbytes : ∀ o n, o + n ≤ 32 + data.length →
      t.bytes (rspBuf m + o) n = ((mbResponse op st 0 tag s.gen s.stamp.toNat data).drop o).take n := fun o n hn => by
    rw [← State.bytes_setBytes s (rspBuf m) _ (o := o) (n := n) (hl ▸ hn)]
    exact State.bytes_congr (fun b _ => (congrArg (tblGet 0 b) hmem).trans (mbAnswered_byte m op st 0 tag data s b))
  have hrd := fun o => (State.rd_of_csr hcsr o).trans (mbAnswered_rd m op st 0 tag data s o)
  have hfirst := hbytes 0 2 (by omega)
  obtain ⟨hs, hr, he⟩ := mbEnded_spec m hst (s.setBytes (rspBuf m) (mbResponse op st 0 tag s.gen s.stamp.toNat data))
  refine ⟨(State.getF_congr (hrd _)).trans hs, (State.getF_congr (hrd _)).trans hr, (State.isSet_congr (hrd _)).trans he, ?_, ?_, ?_, ?_, ?_⟩
  · rw [Nat.add_zero, List.drop_zero, fop] at hfirst
    rw [State.ldLE, hfirst, leVal_leBytes, Nat.mod_eq_of_lt (show op < 256 ^ 2 from hop)]
  · rw [State.ldLE, hbytes 2 1 (by omega), fst, leVal_leBytes, Nat.mod_eq_of_lt (show st < 256 ^ 1 from hst)]
  · rw [State.ldLE, hbytes 4 4 (by omega), flen, leVal_leBytes, Nat.mod_eq_of_lt (show data.length < 256 ^ 4 from hlen)]
  · rw [State.ldLE, hbytes 8 8 (by omega), ftag, leVal_leBytes, Nat.mod_eq_of_lt (show tag < 256 ^ 8 from htag)]
  · rw [hbytes 32 _ le_rfl, fdata, List.take_length]

/-- The command's mailbox is done with the status and the data given: the effect before it left the command in its buffer. -/
theorem mbDone_done (h : BufferSame s u) {m op st : Nat} (hop : mbOp s m = op) (hst : st < 256) {data : List Byte}
    (hlen : data.length < 2 ^ 32) : MbDone s (mbDone m st data u) m op st data := by
  have htag : mbTag u m = mbTag s m := h.mbTag m
  have hopu : mbOp u m = op := (h.mbOp m).trans hop
  have heq := mbDone_eq m st data u
  rw [htag, hopu] at heq
  exact mbAnswered_done (hop ▸ State.ldLE_lt s _ 2) hst (State.ldLE_lt s _ 8) hlen (heq ▸ mbJournal_csr ..) (heq ▸ mbJournal_mem ..)

end

end Sys2Proof.Machine

/-!
SUPPORT. The commit of a configuration command on a device of its own (R352, R354, R550, R552): what budget, records, digests, the Loft word
of the generation and its announcement leave alone; and what every command that commits has done.
-/

namespace Sys2Proof.Machine

section
variable {s t u : State}

/-! ### Declared records (R325) -/

/-- Each record put holds its value, where no two of them have one key. -/
theorem tblGet_foldl_tblSet {l : List (Nat × List Byte)} (hl : (l.map Prod.fst).Nodup) (x : Table (List Byte)) :
    ∀ e ∈ l, tblGet [] e.1 (l.foldl (fun t e => tblSet [] e.1 e.2 t) x) = e.2 := by
  have hkeep : ∀ (l : List (Nat × List Byte)) (x : Table (List Byte)) (k : Nat), k ∉ l.map Prod.fst →
      tblGet [] k (l.foldl (fun t e => tblSet [] e.1 e.2 t) x) = tblGet [] k x := by
    intro l
    induction l with
    | nil => exact fun _ _ _ => rfl
    | cons e l ih =>
      intro x k hk
      obtain ⟨hne, hk⟩ := not_or.mp (fun h => hk (List.mem_cons.mpr h))
      exact (ih _ k hk).trans (tblGet_tblSet_ne _ _ _ _ _ _ (Ne.symm hne))
  induction l generalizing x with
  | nil => exact fun _ h => absurd h List.not_mem_nil
  | cons e l ih =>
    obtain ⟨hne, hl⟩ := List.nodup_cons.mp hl
    intro y hy
    obtain rfl | hy := List.mem_cons.mp hy
    · exact (hkeep l _ _ hne).trans (tblGet_tblSet_same ..)
    · exact ih hl _ y hy

/-- Field numbers below 256 give records of their own. -/
theorem recKey_or_injOn (d b o i : Nat) {f g : Nat} (hf : f < 256) (hg : g < 256)
    (h : recKey d b o ((i * 256) ||| f) = recKey d b o ((i * 256) ||| g)) :
    f = g := by
  have hor : ∀ x < 256, (i * 256) ||| x = i * 256 + x := fun x hx => by
    rw [Nat.mul_comm, ← Nat.two_pow_add_eq_or_of_lt (i := 8) hx]
  rw [hor f hf, hor g hg] at h
  unfold recKey at h
  omega

theorem cfgRecords_nodup {c : CfgCmd} {dev : Nat} {a : List Byte} {l : List Nat} (hw : c.wide = []) (hop : c.op ≠ 0x801)
    (hl : (c.fields a).map Prod.fst = l) (hn : l.Nodup) (hlt : ∀ o ∈ l, o < 256) : ((cfgRecords c dev a).map Prod.fst).Nodup := by
  have hlt' : ∀ f ∈ c.fields a, f.1 < 256 := fun f hf => hlt _ (hl ▸ List.mem_map_of_mem hf)
  unfold cfgRecords
  rw [if_neg hop, List.append_nil, List.map_map, hw]
  refine List.Nodup.map_on (fun f hf g hg h => ?_) (hl ▸ hn).of_map
  have hfst : f.1 = g.1 := recKey_or_injOn _ _ _ _ (hlt' f hf) (hlt' g hg) h
  exact List.inj_on_of_nodup_map (hl ▸ hn) hf hg hfst

/-! ### What a commit leaves alone -/

/-- Registers that a commit does not show itself in: neither the digests, nor the fabric's events, the ledger, Bell or the Loft. -/
abbrev commitOff (o : Nat) : Prop :=
  (o < 0x27000000 ∧ ¬ (0x22100000 ≤ o ∧ o < 0x22200000 ∧ 0x30 ≤ o % 0x800 ∧ o % 0x800 < 0x40)) ∨
    (0x27000000 ≤ o ∧ o < 0x27000028) ∨ (0x28000000 ≤ o ∧ o < 0x2A000000) ∨ (0x2B000000 ≤ o ∧ o < 0x2D000000)

/-- From `s` to `t` the device kept its books: digests, the Loft and its wear, reports, the change beats. -/
structure CommitWork (s t : State) : Prop where
  rd : ∀ o, commitOff o → t.rd o = s.rd o
  buf : BufferSame s t
  eqv : t = { s with
    csr := t.csr, mem := t.mem, bell := t.bell, ledger := t.ledger, outs := t.outs, wear := t.wear, loftBad := t.loftBad,
    loftWarned := t.loftWarned, fab := t.fab }

theorem CommitWork.refl (s : State) : CommitWork s s := ⟨fun _ _ => rfl, fun _ _ => rfl, rfl⟩

theorem CommitWork.trans (h : CommitWork s t) (g : CommitWork t u) : CommitWork s u :=
  ⟨fun o x => (g.rd o x).trans (h.rd o x), h.buf.trans g.buf, by rw [g.eqv, h.eqv]⟩

theorem CommitWork.ite {c : Prop} [Decidable c] (h : CommitWork s t) (g : CommitWork s u) : CommitWork s (if c then t else u) := by
  split <;> assumption

theorem CommitWork.foldl {α : Type} {f : State → α → State} (l : List α) (hf : ∀ u, ∀ a ∈ l, CommitWork u (f u a)) (s : State) :
    CommitWork s (l.foldl f s) := by
  induction l generalizing s with
  | nil => exact .refl s
  | cons a l ih =>
    exact (hf s a (List.mem_cons_self ..)).trans (ih (fun u b hb => hf u b (List.mem_cons_of_mem _ hb)) _)

theorem CommitWork.wr {o : Nat} {v : Word} (h : CommitWork s t) (ho : ¬ commitOff o) : CommitWork s (t.wr o v) :=
  h.trans ⟨fun _ hp => State.rd_wr_ne _ _ _ _ (fun e => ho (e ▸ hp)), fun _ _ => rfl, rfl⟩

theorem CommitWork.setF {f : Fld} {v : Nat} (h : CommitWork s t) (ho : ¬ commitOff f.off) : CommitWork s (t.setF f v) := h.wr ho

theorem CommitWork.wr64 {o : Nat} {v : DWord} (h : CommitWork s t) (ho : ¬ commitOff o) (h4 : ¬ commitOff (o + 4)) :
    CommitWork s (t.wr64 o v) := (h.wr ho).wr h4

theorem CommitWork.quiet (h : Quiet s t) : CommitWork s t :=
  ⟨fun o ho => h.rd o (by omega), .of_mem h.mem, by
    have h' := h.eqv
    rw [← h.mem, ← h.wear, ← h.loftBad, ← h.loftWarned, ← h.fab] at h'
    exact h'⟩

theorem CommitWork.config (h : CommitWork s t) : t.config = s.config := by rw [h.eqv]

theorem CommitWork.ym (h : CommitWork s t) : t.ym = s.ym := by rw [h.eqv]

theorem CommitWork.setByte {a : Nat} {v : Byte} (h : CommitWork s t) (ha : a < bar0Key 0) : CommitWork s (t.setByte a v) :=
  h.trans ⟨fun _ _ => rfl, fun b hb => (State.byte_setByte ..).trans (if_neg (by omega)), rfl⟩

theorem CommitWork.setBytes (h : CommitWork s t) {a : Nat} {l : List Byte} (ha : a + l.length ≤ bar0Key 0) :
    CommitWork s (t.setBytes a l) := by
  induction l generalizing a t with
  | nil => exact h
  | cons b l ih =>
    rw [List.length_cons] at ha
    exact ih (h.setByte (by omega)) (by omega)

theorem CommitWork.fab (h : CommitWork s t) (x : Fabric) : CommitWork s { t with fab := x } := h.trans ⟨fun _ _ => rfl, fun _ _ => rfl, rfl⟩

theorem CommitWork.wear (h : CommitWork s t) (x : Table Nat) : CommitWork s { t with wear := x } :=
  h.trans ⟨fun _ _ => rfl, fun _ _ => rfl, rfl⟩

theorem CommitWork.loftWarned (h : CommitWork s t) (x : List Nat) : CommitWork s { t with loftWarned := x } :=
  h.trans ⟨fun _ _ => rfl, fun _ _ => rfl, rfl⟩

theorem CommitWork.loftBad (h : CommitWork s t) (x : List Nat) : CommitWork s { t with loftBad := x } :=
  h.trans ⟨fun _ _ => rfl, fun _ _ => rfl, rfl⟩

/-! ### The pieces of a commit -/

theorem showDigest_work {w : Nat → Nat} (hw : ∀ i ∈ [0, 1, 2, 3], ¬ commitOff (w i)) (d : List Byte) (s : State) :
    CommitWork s (showDigest w d s) := CommitWork.foldl _ (fun u i hi => (CommitWork.refl u).wr (hw i hi)) s

theorem fabDigest_work (d : List Byte) (s : State) : CommitWork s (showDigest FAB_DIGEST d s) :=
  showDigest_work (by simp [FAB_DIGEST, commitOff]) d s

theorem chDigest_work {n : Nat} (hn : n < 512) (s : State) : CommitWork s (chDigest n s) := by
  refine showDigest_work (fun i hi => ?_) _ s
  have h4 : i < 4 := by simp at hi; omega
  simp only [CH_DIGEST]
  omega

theorem setRecords_work (l : List (Nat × List Byte)) (s : State) :
    CommitWork { s with config := l.foldl (fun t e => tblSet [] e.1 e.2 t) s.config } (setRecords l s) := by
  unfold setRecords
  refine (fabDigest_work _ _).trans (CommitWork.foldl _ (fun u n _ => ?_) _)
  split
  next hn => exact chDigest_work hn u
  next => exact .refl u

theorem keepBeat_work (op obj dev : Nat) (a : List Byte) (s : State) : CommitWork s (keepBeat op obj dev a s) := by
  cases h : beatAt op with
  | none => unfold keepBeat; rw [h]; exact .refl s
  | some o => unfold keepBeat; rw [h]; exact (CommitWork.refl s).fab _

theorem wearRefresh_work (w : Nat) (s : State) : CommitWork s (wearRefresh w s) := by
  unfold wearRefresh
  have hmax : CommitWork s (if (s.rd64 LOFT_WEAR_MAX_LO).toNat < tblGet 0 w s.wear then
      (s.wr64 LOFT_WEAR_MAX_LO (BitVec.ofNat 64 (tblGet 0 w s.wear))).setF LOFT_WEAR_MAX_IDX_MAX_IDX w else s) :=
    .ite ((CommitWork.refl s).wr64 (by decide) (by decide) |>.setF (by decide)) (.refl s)
  exact hmax.wr64 (by decide) (by decide)

theorem wearOne_work (w : Nat) (s : State) : CommitWork s (wearOne w s) := by
  have hwear : CommitWork s (wearRefresh w { s with wear := tblSet 0 w (tblGet 0 w s.wear + 1) s.wear }) :=
    ((CommitWork.refl s).wear _).trans (wearRefresh_work w _)
  unfold wearOne
  extract_lets c r v
  refine .ite ?_ hwear
  exact ((hwear.loftWarned _).setF (by decide)).trans (.quiet (report_quiet _ _ _ _ _))

theorem loftProgram_work {w : Nat} (hw : w < 16) (v : DWord) (s : State) : CommitWork s (loftProgram w v s) := by
  have hst : CommitWork s (s.stLE (loftBase + 8 * w) 8 v.toNat) :=
    (CommitWork.refl s).setBytes (by rw [leBytes_length]; simp only [loftBase, bar0Key]; omega)
  exact (hst.trans (wearOne_work w _)).loftBad _

theorem fabEvt_work (s : State) : CommitWork s (fabEvt 3 0 0 s) :=
  ((CommitWork.refl s).setF (f := ⟨FAB_EVT, 3, 3⟩) (by decide)).trans (.quiet (bellInput_quiet _ _ _))

/-- The state with its generation shown. -/
def genShown (g : Nat) (s : State) : State := s.wr64 FAB_GEN_LO (BitVec.ofNat 64 g)

theorem takeGen_work (g : Nat) (s : State) : CommitWork (genShown g s) (takeGen g s) :=
  (loftProgram_work (by unfold loftGenWord; omega) _ _).trans (fabEvt_work _)

/-! ### A configuration command that commits on this device -/

/-- The Loft budget without the words that a commit takes (R552). -/
def budgetTaken (n : Nat) (s : State) : State :=
  (s.setF LOFT_BUDGET_CFG_TOKENS (s.getF LOFT_BUDGET_CFG_TOKENS - n)).setF LOFT_CNT_YFI_1S (s.getF LOFT_CNT_YFI_1S + n)

theorem loftTake_of_le {n : Nat} (h : n ≤ s.getF LOFT_BUDGET_CFG_TOKENS) : loftTake n s = some (budgetTaken n s) := if_pos h

/-- From `s` to `u` no more than the budget's registers has changed. -/
structure BudgetWork (s u : State) : Prop where
  rd : ∀ o, commitOff o → u.rd o = s.rd o
  eqv : u = { s with csr := u.csr }

theorem BudgetWork.setF (h : BudgetWork s t) {f : Fld} (hf : ¬ commitOff f.off) (v : Nat) : BudgetWork s (t.setF f v) :=
  ⟨fun o ho => (State.rd_setF_ne _ _ _ _ (fun e => hf (e ▸ ho))).trans (h.rd o ho), by
    conv => lhs; rw [State.setF, h.eqv]
    rfl⟩

theorem budgetTaken_work (n : Nat) (s : State) : BudgetWork s (budgetTaken n s) := by
  have h : BudgetWork s s := ⟨fun _ _ => rfl, rfl⟩
  exact (h.setF (f := LOFT_BUDGET_CFG_TOKENS) (by decide) _).setF (f := LOFT_CNT_YFI_1S) (by decide) _

theorem BudgetWork.getF (h : BudgetWork s u) {f : Fld} (hf : commitOff f.off) : u.getF f = s.getF f := State.getF_congr (h.rd _ hf)

theorem BudgetWork.isSet (h : BudgetWork s u) {f : Fld} (hf : commitOff f.off) : u.isSet f = s.isSet f := State.isSet_congr (h.rd _ hf)

theorem BudgetWork.buf (h : BudgetWork s u) : BufferSame s u := .of_mem (by rw [h.eqv])

theorem State.bound_congr (h : t.getF TW_STAT_STATE = s.getF TW_STAT_STATE) : t.bound = s.bound := by rw [State.bound, h, State.bound]

theorem BudgetWork.gateExact (h : BudgetWork s u) : u.gateExact = s.gateExact := by rw [h.eqv]

theorem BudgetWork.gateTern (h : BudgetWork s u) : u.gateTern = s.gateTern := by rw [h.eqv]

theorem BudgetWork.gateProg (h : BudgetWork s u) : u.gateProg = s.gateProg := by rw [h.eqv]

theorem BudgetWork.changes (h : BudgetWork s u) : u.changes = s.changes := by rw [h.eqv]

theorem BudgetWork.hostMem (h : BudgetWork s u) : u.hostMem = s.hostMem := by rw [h.eqv]

theorem BudgetWork.cores (h : BudgetWork s u) : u.cores = s.cores := by rw [h.eqv]

/-- The state `t` after a commit whose effect led to `v`: only the device's books, its declared configuration, its generation and the mailbox
are other than in `v`. -/
structure Committed (v t : State) : Prop where
  rd : ∀ o, commitOff o → o < 0x27000000 → t.rd o = v.rd o
  eqv : t = { v with
    csr := t.csr, mem := t.mem, bell := t.bell, ledger := t.ledger, outs := t.outs, wear := t.wear, loftBad := t.loftBad,
    loftWarned := t.loftWarned, fab := t.fab, config := t.config, ym := t.ym }

theorem Committed.gateProg (h : Committed s t) : t.gateProg = s.gateProg := by rw [h.eqv]

theorem Committed.gateExact (h : Committed s t) : t.gateExact = s.gateExact := by rw [h.eqv]

theorem Committed.gateTern (h : Committed s t) : t.gateTern = s.gateTern := by rw [h.eqv]

theorem Committed.changes (h : Committed s t) : t.changes = s.changes := by rw [h.eqv]

theorem Committed.punt (h : Committed s t) : t.punt = s.punt := by rw [h.eqv]

theorem Committed.hostMem (h : Committed s t) : t.hostMem = s.hostMem := by rw [h.eqv]

theorem Committed.cores (h : Committed s t) : t.cores = s.cores := by rw [h.eqv]

theorem Committed.trans (h : Committed s t) (g : Committed t u) : Committed s u :=
  ⟨fun o x hlt => (g.rd o x hlt).trans (h.rd o x hlt), by rw [g.eqv, h.eqv]⟩

theorem CommitWork.committed (h : CommitWork s t) : Committed s t :=
  ⟨fun o x _ => h.rd o x, by
    have h' := h.eqv
    rw [← h.config, ← h.ym] at h'
    exact h'⟩

theorem MailWork.committed (h : MailWork s t) : Committed s t :=
  ⟨fun o x _ => h.rd o (by omega), by
    have hb : t.bell = s.bell := by rw [h.eqv]
    have hl : t.ledger = s.ledger := by rw [h.eqv]
    have hw : t.wear = s.wear ∧ t.loftBad = s.loftBad ∧ t.loftWarned = s.loftWarned := by rw [h.eqv]; exact ⟨rfl, rfl, rfl⟩
    have hf : t.fab = s.fab ∧ t.config = s.config := by rw [h.eqv]; exact ⟨rfl, rfl⟩
    rw [hb, hl, hw.1, hw.2.1, hw.2.2, hf.1, hf.2]
    exact h.eqv⟩

theorem Committed.getF (h : Committed s t) {f : Fld} (hf : commitOff f.off) (hlt : f.off < 0x27000000) :
    t.getF f = s.getF f := State.getF_congr (h.rd _ hf hlt)

theorem Committed.isSet (h : Committed s t) {f : Fld} (hf : commitOff f.off) (hlt : f.off < 0x27000000) :
    t.isSet f = s.isSet f := State.isSet_congr (h.rd _ hf hlt)

/-- The state with records declared. -/
def declared (l : List (Nat × List Byte)) (s : State) : State := { s with config := l.foldl (fun t e => tblSet [] e.1 e.2 t) s.config }

theorem declared_committed (l : List (Nat × List Byte)) (s : State) : Committed s (declared l s) := ⟨fun _ _ _ => rfl, rfl⟩

theorem genShown_committed (g : Nat) (s : State) : Committed s (genShown g s) :=
  ⟨fun _ _ hlt => State.rd_wr64_ne _ _ _ _ (by simp only [FAB_GEN_LO]; omega) (by simp only [FAB_GEN_LO]; omega), rfl⟩

/-- The commit after the command's effect: records and digests, the generation shown, its Loft word and its announcement. -/
theorem cfgCommit_steps (c : CfgCmd) (a : List Byte) (s : State) :
    ∃ w, CommitWork (declared (cfgRecords c s.devId a) (keepBeat c.op c.obj s.devId a (c.apply a s))) w ∧
      CommitWork (genShown (s.gen + 1) w) (cfgCommit c a s) := ⟨_, setRecords_work _ _, takeGen_work _ _⟩

theorem cfgCommit_gen (c : CfgCmd) (a : List Byte) (s : State) : (cfgCommit c a s).rd64 FAB_GEN_LO = s.rd64 FAB_GEN_LO + 1 := by
  obtain ⟨w, _, hgen⟩ := cfgCommit_steps c a s
  rw [State.rd64_congr (hgen.rd FAB_GEN_LO (by decide)) (hgen.rd (FAB_GEN_LO + 4) (by decide)), genShown, State.rd64_wr64_same, State.gen,
    BitVec.ofNat_add, BitVec.ofNat_toNat, BitVec.setWidth_eq]
  rfl

theorem cfgCommit_records {c : CfgCmd} {a : List Byte} (s : State) (hn : ((cfgRecords c s.devId a).map Prod.fst).Nodup) :
    (cfgRecords c s.devId a).all (fun e => tblGet [] e.1 (cfgCommit c a s).config = e.2) = true := by
  obtain ⟨w, hrec, hgen⟩ := cfgCommit_steps c a s
  rw [hgen.config, genShown, State.wr64_config, hrec.config, List.all_eq_true]
  exact fun e he => decide_eq_true (tblGet_foldl_tblSet hn _ e he)

theorem cfgCommit_buffer {c : CfgCmd} {a : List Byte} (h : BufferSame s (c.apply a s)) : BufferSame s (cfgCommit c a s) := by
  obtain ⟨w, hrec, hgen⟩ := cfgCommit_steps c a s
  have hkeep := (keepBeat_work c.op c.obj s.devId a (c.apply a s)).buf
  have hdecl : BufferSame (keepBeat c.op c.obj s.devId a (c.apply a s)) w := hrec.buf
  have hend : BufferSame w (cfgCommit c a s) := hgen.buf
  exact ((h.trans hkeep).trans hdecl).trans hend

theorem cfgCommit_committed (c : CfgCmd) (a : List Byte) (s : State) : Committed (c.apply a s) (cfgCommit c a s) := by
  obtain ⟨w, hrec, hgen⟩ := cfgCommit_steps c a s
  have hkeep := (keepBeat_work c.op c.obj s.devId a (c.apply a s)).committed
  exact ((hkeep.trans (declared_committed _ _)).trans hrec.committed).trans ((genShown_committed _ w).trans hgen.committed)

/-- Outside a pair a Twin lead has nobody to give a configuration to. -/
theorem twinPublish_of_not_bound (h : s.bound = false) : twinPublish s = s := by
  unfold twinPublish
  rw [h, Bool.and_false, Bool.false_and]
  rfl

theorem Committed.bound (h : Committed s t) : t.bound = s.bound := State.bound_congr (h.getF (by decide) (by decide))

theorem cfgEnd_some (op m st : Nat) (data : List Byte) (s : State) : cfgEnd op m (some (st, data)) s = mbDone m st data s := rfl

/-- An accepted configuration command outside a fabric and a pair commits here and answers. -/
theorem cfgRun_of_ready {c : CfgCmd} {m : Fin 16} {a : List Byte} (h : CfgReady s c m.val) (ha : c.resolve (mbArg s m.val) s = a)
    (hu : budgetTaken (c.words a s + 1) s = u) :
    cfgRun c m true s = cfgEnd c.op m.val (c.rsp a u) (twinPublish (cfgCommit c a u)) := by
  subst ha hu
  obtain ⟨hready, _, hbase, hcheck, hfab, hbound, hidle, hdiff, hbudget⟩ := h
  have hplace : cfgPlace s = 0 := by simp [cfgPlace, hfab, hbound]
  unfold cfgRun
  simp only [hready, hcheck, hidle, hdiff, hfab, hplace]
  simpa [cfgLocal, loftTake_of_le hbudget] using fun hne hgen => absurd (hbase.resolve_left hne) hgen

/-- What every configuration command that commits here has done: its answer, its records and generation; the rest is what its effect makes of
the state whose budget was taken. -/
theorem cfgRun_done {c : CfgCmd} {m : Fin 16} {a data : List Byte} (h : CfgReady s c m.val) (ha : c.resolve (mbArg s m.val) s = a)
    (hdata : data.length < 2 ^ 32) (hkeys : ((cfgRecords c s.devId a).map Prod.fst).Nodup)
    (hfx : ∀ u, BudgetWork s u → c.rsp a u = some (0, data) ∧ BufferSame u (c.apply a u) ∧
      (c.apply a u).getF TW_STAT_STATE = u.getF TW_STAT_STATE) :
    CfgDone s (cfgRun c m true s) c m.val data ∧ ∃ u, BudgetWork s u ∧ Committed (c.apply a u) (cfgRun c m true s) := by
  obtain ⟨u, hu, hs⟩ : ∃ u, budgetTaken (c.words a s + 1) s = u ∧ BudgetWork s u := ⟨_, rfl, budgetTaken_work _ s⟩
  obtain ⟨hrsp, hbuf, hpair⟩ := hfx u hs
  have hrun := cfgRun_of_ready h ha hu
  obtain ⟨hready, _, _, _, _, hbound, _, _, _⟩ := h
  have hcom := cfgCommit_committed c a u
  have hb : (cfgCommit c a u).bound = false := by
    rw [hcom.bound, State.bound_congr (hpair.trans (hs.getF (by decide))), hbound]
  have hdev : u.devId = s.devId := hs.getF (by decide)
  have hgen : u.rd64 FAB_GEN_LO = s.rd64 FAB_GEN_LO := State.rd64_congr (hs.rd _ (by decide)) (hs.rd _ (by decide))
  rw [hrsp, twinPublish_of_not_bound hb, cfgEnd_some] at hrun
  rw [hrun]
  have hmail := mbDone_mailWork m.val 0 data (cfgCommit c a u)
  refine ⟨⟨mbDone_done (hs.buf.trans (cfgCommit_buffer hbuf)) (mbOp_of_ready hready) (Nat.zero_lt_succ 255) hdata, ?_, ?_⟩,
    u, hs, hcom.trans hmail.committed⟩
  · exact (State.rd64_congr (hmail.rd _ (by decide)) (hmail.rd _ (by decide))).trans ((cfgCommit_gen c a u).trans (congrArg (· + 1) hgen))
  · rw [← hdev] at hkeys
    rw [ha, ← hdev, hmail.config]
    exact cfgCommit_records u hkeys

end

end Sys2Proof.Machine

/-!
SUPPORT AND SETTLED OBLIGATION. The Gate, punt, frame and calendar commands of YFI (R123 to R126, R137, R172, R358, R359): the effect of each,
and O32 from them.
-/

namespace Sys2Proof.Machine

section
variable {s t u : State} {a : List Byte} {m : Fin 16}

theorem at'_lt (a : List Byte) (o : Nat) : at' a o < 256 := (a.getD o 0).isLt

/-- A list of conditions gives status 0 where its first condition fails and the rest give 0. -/
theorem firstStatus_cons_eq_zero {c : Bool} {st : Nat} {r : List (Bool × Nat)} (hst : st ≠ 0) :
    firstStatus ((c, st) :: r) = 0 ↔ c = false ∧ firstStatus r = 0 := by
  cases c <;> simp [firstStatus, hst]

/-! ### GATE_LOAD (R123) -/

/-- The bit that says that a bank of a Gate is valid. -/
def gateValid (g b : Nat) : Fld := if b = 1 then GATE_BANK_VALID1 g else GATE_BANK_VALID0 g

theorem gateValid_off (g b : Nat) : (gateValid g b).off = GATE_BANK g := by unfold gateValid; split <;> rfl

theorem gateLoadApply_rd (a : List Byte) (s : State) {o : Nat} (h : o ≠ GATE_BANK (at' a 0)) : (gateLoadApply a s).rd o = s.rd o :=
  State.rd_setF_ne _ (gateValid _ _) _ _ (by rw [gateValid_off]; exact h.symm)

theorem gateLoadApply_valid (a : List Byte) (s : State) : (gateLoadApply a s).isSet (gateValid (at' a 0) (at' a 1)) = true := by
  refine State.isSet_setF_bit _ (gateValid _ _) ?_ ?_
  · unfold gateValid; split <;> rfl
  · unfold gateValid
    split
    · exact show 1 < 32 by decide
    · exact show 0 < 32 by decide

theorem gateLoadApply_eqv (a : List Byte) (s : State) :
    gateLoadApply a s = { s with csr := (gateLoadApply a s).csr, gateProg := tblSet [] (2 * at' a 0 + at' a 1) (gateArg a) s.gateProg } := rfl

theorem gateLoad_results (h : CfgReady s gateLoadCmd m.val) (ha : mbArg s m.val = a) (ht : cfgRun gateLoadCmd m true s = t) :
    CfgDone s t gateLoadCmd m.val [] ∧ tblGet [] (2 * at' a 0 + at' a 1) t.gateProg = gateArg a ∧
      t.isSet (gateValid (at' a 0) (at' a 1)) = true ∧ t.rd (GATE_CFG (at' a 0)) = s.rd (GATE_CFG (at' a 0)) ∧
      t.gateExact = s.gateExact ∧ t.gateTern = s.gateTern ∧ t.cores = s.cores := by
  have hg := at'_lt a 0
  obtain ⟨hdone, u, hu, hcom⟩ := cfgRun_done (data := []) h ha (by decide)
    (cfgRecords_nodup rfl (by decide) rfl (l := [0, 1, 2, 4]) (by decide) (by decide)) (fun u _ => ⟨rfl, .of_mem rfl,
      State.getF_congr (gateLoadApply_rd a u (by simp only [TW_STAT_STATE, TW_STAT, GATE_BANK]; omega))⟩)
  rw [ht] at hdone hcom
  replace hcom : Committed (gateLoadApply a u) t := hcom
  have hbank : (gateValid (at' a 0) (at' a 1)).off = 0x22001008 + at' a 0 * 0x100 := gateValid_off _ _
  have heqv := gateLoadApply_eqv a u
  refine ⟨hdone, ?_, ?_, ?_, ?_, ?_, ?_⟩
  · rw [hcom.gateProg, heqv]
    exact tblGet_tblSet_same ..
  · rw [hcom.isSet (by omega) (by omega)]
    exact gateLoadApply_valid a u
  · rw [hcom.rd _ (by simp only [GATE_CFG]; omega) (by simp only [GATE_CFG]; omega),
      gateLoadApply_rd a u (by simp only [GATE_CFG, GATE_BANK]; omega), hu.rd _ (by simp only [GATE_CFG]; omega)]
  · rw [hcom.gateExact, heqv, hu.gateExact]
  · rw [hcom.gateTern, heqv, hu.gateTern]
  · rw [hcom.cores, heqv, hu.cores]

/-! ### GATE_TABLE (R124, R125, R358) -/

/-- The status of an entry depends on the exact entries alone. -/
theorem tblWrite_status_congr (g : Nat) (e : List Byte) (h : t.gateExact = s.gateExact) : (tblWrite g e t).1 = (tblWrite g e s).1 := by
  unfold tblWrite
  dsimp only
  rw [h]
  split
  · rfl
  · split
    · rfl
    · split <;> rfl

/-- The exact entries of a Gate with one put in the place of those of its tag and key. -/
def exactPut (x : GateEntry) (l : List GateEntry) : List GateEntry := l.filter (fun y => !sameKey y x) ++ [x]

/-- An exact entry written where its table has room. -/
theorem tblWrite_exact {g : Nat} {e : List Byte} (hkind : at' e 0 = 0) (hop : at' e 1 = 1) (hst : (tblWrite g e s).1 = 0) :
    (exactPut (tblGate e) (tblGet [] g s.gateExact)).length ≤ 4096 ∧
      (tblWrite g e s).2 = ({ s with gateExact := tblSet [] g (exactPut (tblGate e) (tblGet [] g s.gateExact)) s.gateExact }).setF
        (GATE_STAT_EXACT_USED g) (exactPut (tblGate e) (tblGet [] g s.gateExact)).length := by
  unfold tblWrite at hst ⊢
  simp only [hkind, hop, true_and, reduceIte, Nat.zero_ne_one] at hst ⊢
  split at hst
  next => exact absurd hst (Nat.succ_ne_zero 1)
  next hbad =>
    split at hst
    next => exact absurd hst (Nat.succ_ne_zero 7)
    next hfull =>
      rw [if_neg hbad, if_neg hfull]
      refine ⟨?_, rfl⟩
      rw [exactPut, List.length_append]
      exact Nat.lt_of_not_le hfull

/-- A ternary entry written at its index. -/
theorem tblWrite_ternary {g : Nat} {e : List Byte} (hkind : at' e 0 = 1) (hop : at' e 1 = 1) (hst : (tblWrite g e s).1 = 0) :
    (tblWrite g e s).2 = { s with gateTern := tblSet [] g (ternPut (tblGate e) (tblGet [] g s.gateTern)) s.gateTern } := by
  unfold tblWrite at hst ⊢
  simp only [hkind, hop, true_and, reduceIte] at hst ⊢
  split at hst
  next => exact absurd hst (Nat.succ_ne_zero 1)
  next hbad => rw [if_neg hbad]

theorem mem_ternPut (x : GateEntry) (l : List GateEntry) : x ∈ ternPut x l := by
  induction l with
  | nil => exact List.mem_singleton_self x
  | cons y l ih =>
    unfold ternPut
    split
    · exact List.mem_cons_self ..
    · split
      · exact List.mem_cons_self ..
      · exact List.mem_cons_of_mem _ ih

/-- Entries of other indices stand as they stood. -/
theorem ternPut_filter (x : GateEntry) (l : List GateEntry) :
    (ternPut x l).filter (fun y => y.index ≠ x.index) = l.filter (fun y => y.index ≠ x.index) := by
  induction l with
  | nil => simp [ternPut]
  | cons y l ih =>
    unfold ternPut
    split
    · simp
    · split
      next h => simp [h]
      next h =>
        rw [List.filter_cons, List.filter_cons, ih]

/-- A GATE_TABLE of one entry that is written. -/
theorem tblRun_one (h1 : at' a 1 = 1) (hst : (tblWrite (at' a 0) (tblEntry a 0) s).1 = 0) :
    tblRun a s = (0, 1, (tblWrite (at' a 0) (tblEntry a 0) s).2) := by
  unfold tblRun
  rw [h1]
  simp [tblWriteAll, hst]

/-- A GATE_TABLE of one entry that changes something has it written. -/
theorem tblWrite_of_not_idle (h1 : at' a 1 = 1) (hidle : gateTableCmd.idle a s = false) :
    (tblWrite (at' a 0) (tblEntry a 0) s).1 = 0 := by
  have hcount : (tblRun a s).2.1 ≠ 0 := of_decide_eq_false hidle
  by_contra hst
  refine hcount ?_
  unfold tblRun
  rw [h1]
  simp [tblWriteAll, hst]

theorem tblRun_of_ready (h : CfgReady s gateTableCmd m.val) (ha : mbArg s m.val = a) (h1 : at' a 1 = 1) (hu : BudgetWork s u) :
    (tblWrite (at' a 0) (tblEntry a 0) u).1 = 0 ∧ tblRun a u = (0, 1, (tblWrite (at' a 0) (tblEntry a 0) u).2) := by
  obtain ⟨_, _, _, _, _, _, hidle, _, _⟩ := h
  replace hidle : gateTableCmd.idle (mbArg s m.val) s = false := hidle
  rw [ha] at hidle
  have hst := (tblWrite_status_congr _ _ hu.gateExact).trans (tblWrite_of_not_idle h1 hidle)
  exact ⟨hst, tblRun_one h1 hst⟩

/-- A GATE_TABLE of one entry has its effect: that of the entry. -/
theorem gateTable_done (h : CfgReady s gateTableCmd m.val) (ha : mbArg s m.val = a) (ht : cfgRun gateTableCmd m true s = t)
    (h1 : at' a 1 = 1) (hfx : ∀ u, BudgetWork s u → BufferSame u (tblWrite (at' a 0) (tblEntry a 0) u).2 ∧
      (tblWrite (at' a 0) (tblEntry a 0) u).2.getF TW_STAT_STATE = u.getF TW_STAT_STATE) :
    CfgDone s t gateTableCmd m.val (leBytes 4 1) ∧
      ∃ u, BudgetWork s u ∧ (tblWrite (at' a 0) (tblEntry a 0) u).1 = 0 ∧ Committed (tblWrite (at' a 0) (tblEntry a 0) u).2 t := by
  have happly : ∀ u, BudgetWork s u → gateTableCmd.apply a u = (tblWrite (at' a 0) (tblEntry a 0) u).2 := fun u hu =>
    congrArg (·.2.2) (tblRun_of_ready h ha h1 hu).2
  obtain ⟨hdone, u, hu, hcom⟩ := cfgRun_done (data := leBytes 4 1) h ha (by decide)
    (cfgRecords_nodup rfl (by decide) rfl (l := [0, 1, 4]) (by decide) (by decide)) (fun u hu => by
      refine ⟨?_, (happly u hu) ▸ hfx u hu⟩
      show some ((tblRun a u).1, leBytes 4 (tblRun a u).2.1) = _
      rw [(tblRun_of_ready h ha h1 hu).2])
  rw [ht] at hdone hcom
  exact ⟨hdone, u, hu, (tblRun_of_ready h ha h1 hu).1, happly u hu ▸ hcom⟩

/-- The Gate's tables after an exact entry. -/
def exactWritten (g : Nat) (x : GateEntry) (s : State) : State :=
  ({ s with gateExact := tblSet [] g (exactPut x (tblGet [] g s.gateExact)) s.gateExact }).setF (GATE_STAT_EXACT_USED g)
    (exactPut x (tblGet [] g s.gateExact)).length

theorem exactWritten_rd (g : Nat) (x : GateEntry) (s : State) {o : Nat} (h : o ≠ GATE_STAT g) : (exactWritten g x s).rd o = s.rd o :=
  State.rd_setF_ne _ _ _ _ h.symm

theorem exactWritten_eqv (g : Nat) (x : GateEntry) (s : State) :
    exactWritten g x s = { s with
      csr := (exactWritten g x s).csr, gateExact := tblSet [] g (exactPut x (tblGet [] g s.gateExact)) s.gateExact } := rfl

theorem exactWritten_used (g : Nat) (x : GateEntry) (s : State) (h : (exactPut x (tblGet [] g s.gateExact)).length ≤ 4096) :
    (exactWritten g x s).getF (GATE_STAT_EXACT_USED g) = (exactPut x (tblGet [] g s.gateExact)).length := by
  refine (State.getF_setF_same _ _ _ (show 0 ≤ 12 by decide) (show 12 < 32 by decide)).trans (Nat.mod_eq_of_lt ?_)
  exact Nat.lt_of_le_of_lt h (show 4096 < 2 ^ 13 by decide)

theorem gateExact_results (h : CfgReady s gateTableCmd m.val) (ha : mbArg s m.val = a) (ht : cfgRun gateTableCmd m true s = t)
    (h1 : at' a 1 = 1) (hkind : at' (tblEntry a 0) 0 = 0) (hop : at' (tblEntry a 0) 1 = 1) :
    CfgDone s t gateTableCmd m.val (leBytes 4 1) ∧
      tblGet [] (at' a 0) t.gateExact = exactPut (tblGate (tblEntry a 0)) (tblGet [] (at' a 0) s.gateExact) ∧
      t.getF (GATE_STAT_EXACT_USED (at' a 0)) = (tblGet [] (at' a 0) t.gateExact).length ∧ t.gateTern = s.gateTern ∧
      t.gateProg = s.gateProg ∧ t.cores = s.cores := by
  have hg := at'_lt a 0
  have hstat : GATE_STAT (at' a 0) ≠ TW_STAT := by simp only [TW_STAT, GATE_STAT]; omega
  have hfx : ∀ u, (tblWrite (at' a 0) (tblEntry a 0) u).1 = 0 →
      (tblWrite (at' a 0) (tblEntry a 0) u).2 = exactWritten (at' a 0) (tblGate (tblEntry a 0)) u := fun u hst =>
    (tblWrite_exact hkind hop hst).2
  obtain ⟨hdone, u, hu, hst, hcom⟩ := gateTable_done h ha ht h1 (fun u hu => by
    rw [hfx u (tblRun_of_ready h ha h1 hu).1]
    exact ⟨.of_mem (by rw [exactWritten_eqv]), State.getF_congr (exactWritten_rd _ _ u hstat.symm)⟩)
  have hroom := (tblWrite_exact hkind hop hst).1
  rw [hfx u hst] at hcom
  have heqv := exactWritten_eqv (at' a 0) (tblGate (tblEntry a 0)) u
  have hlist : tblGet [] (at' a 0) t.gateExact = exactPut (tblGate (tblEntry a 0)) (tblGet [] (at' a 0) u.gateExact) := by
    rw [hcom.gateExact, heqv]
    exact tblGet_tblSet_same ..
  refine ⟨hdone, hu.gateExact ▸ hlist, ?_, ?_, ?_, ?_⟩
  · rw [hlist, hcom.getF (by simp only [GATE_STAT_EXACT_USED, GATE_STAT]; omega) (by simp only [GATE_STAT_EXACT_USED, GATE_STAT]; omega)]
    exact exactWritten_used _ _ u hroom
  · rw [hcom.gateTern, heqv, hu.gateTern]
  · rw [hcom.gateProg, heqv, hu.gateProg]
  · rw [hcom.cores, heqv, hu.cores]

theorem gateTernary_results (h : CfgReady s gateTableCmd m.val) (ha : mbArg s m.val = a) (ht : cfgRun gateTableCmd m true s = t)
    (h1 : at' a 1 = 1) (hkind : at' (tblEntry a 0) 0 = 1) (hop : at' (tblEntry a 0) 1 = 1) :
    CfgDone s t gateTableCmd m.val (leBytes 4 1) ∧
      tblGet [] (at' a 0) t.gateTern = ternPut (tblGate (tblEntry a 0)) (tblGet [] (at' a 0) s.gateTern) ∧
      t.gateExact = s.gateExact ∧ t.gateProg = s.gateProg ∧ t.cores = s.cores := by
  obtain ⟨hdone, u, hu, hst, hcom⟩ := gateTable_done h ha ht h1 (fun u hu => by
    rw [tblWrite_ternary hkind hop (tblRun_of_ready h ha h1 hu).1]
    exact ⟨.of_mem rfl, rfl⟩)
  rw [tblWrite_ternary hkind hop hst] at hcom
  refine ⟨hdone, ?_, ?_, ?_, ?_⟩
  · rw [hcom.gateTern, ← hu.gateTern]
    exact tblGet_tblSet_same ..
  · exact hcom.gateExact.trans hu.gateExact
  · exact hcom.gateProg.trans hu.gateProg
  · exact hcom.cores.trans hu.cores

/-! ### GATE_SWITCH (R126, R351) -/

/-- A value put into an argument that holds its place: itself where it stands, the bytes before it as they were. -/
theorem slice_putAt {o : Nat} (v : List Byte) (h : o + v.length ≤ a.length) : slice (putAt a o v) o v.length = v := by
  have hlen : (a.take o).length = o := by rw [List.length_take]; omega
  have hdrop : (putAt a o v).drop o = v ++ a.drop (o + v.length) := by
    rw [putAt, List.append_assoc, List.drop_append_of_le_length hlen.ge, List.drop_eq_nil_of_le hlen.le, List.nil_append]
  have htotal : v.length - ((putAt a o v).length - o) = 0 := by
    simp only [putAt, List.length_append, hlen]
    omega
  rw [slice, hdrop, List.take_left, htotal, zeros, List.replicate_zero, List.append_nil]

theorem at'_putAt {o i : Nat} (v : List Byte) (hi : i < o) (h : o ≤ a.length) : at' (putAt a o v) i = at' a i := by
  have hlen : i < (a.take o).length := by rw [List.length_take]; omega
  unfold at' putAt
  rw [List.append_assoc, List.getD_append _ _ _ _ hlen, List.getD_eq_getElem?_getD, List.getElem?_take_of_lt hi, ← List.getD_eq_getElem?_getD]

theorem gateSwitch_results (h : CfgReady s gateSwitchCmd m.val) (ha : mbArg s m.val = a) (ht : cfgRun gateSwitchCmd m true s = t) :
    CfgDone s t gateSwitchCmd m.val (leBytes 8 (changeBeat a 8 s).2.toNat) ∧
      t.changes = s.changes ++ [((changeBeat a 8 s).2, .gate (at' a 0) (at' a 1 + 256 * at' a 2))] ∧
      t.rd (GATE_CFG (at' a 0)) = s.rd (GATE_CFG (at' a 0)) ∧ t.cores = s.cores := by
  have hg := at'_lt a 0
  have hlen : a.length = 16 := by
    obtain ⟨_, hlen, _⟩ := h
    rw [← ha, mbArg, State.bytes_length]
    exact of_decide_eq_true hlen
  obtain ⟨b, hb⟩ : ∃ b, (changeBeat a 8 s).2 = b := ⟨_, rfl⟩
  have hv : (leBytes 8 b.toNat).length = 8 := leBytes_length ..
  have hslice : slice (putAt a 8 (leBytes 8 b.toNat)) 8 8 = leBytes 8 b.toNat := by
    have := slice_putAt (a := a) (o := 8) (leBytes 8 b.toNat) (by rw [hv, hlen])
    rwa [hv] at this
  have hle : BitVec.ofNat 48 (le (putAt a 8 (leBytes 8 b.toNat)) 8 8) = b := by
    have hb48 := b.isLt
    rw [le, hslice, leVal_leBytes, Nat.mod_eq_of_lt (by omega), BitVec.ofNat_toNat, BitVec.setWidth_eq]
  have hat : ∀ i < 8, at' (putAt a 8 (leBytes 8 b.toNat)) i = at' a i := fun i hi => at'_putAt _ hi (by omega)
  have hres : gateSwitchCmd.resolve (mbArg s m.val) s = putAt a 8 (leBytes 8 b.toNat) := by
    rw [ha, ← hb]
    rfl
  obtain ⟨hdone, u, hu, hcom⟩ := cfgRun_done (data := leBytes 8 b.toNat) h hres (by rw [hv]; decide)
    (cfgRecords_nodup rfl (by decide) rfl (l := [0, 1, 2]) (by decide) (by decide))
    (fun u _ => ⟨congrArg (fun d => some (0, d)) hslice, .of_mem rfl, rfl⟩)
  rw [ht] at hdone hcom
  have hfx : gateSwitchCmd.apply (putAt a 8 (leBytes 8 b.toNat)) u =
      { u with changes := u.changes ++ [(b, .gate (at' a 0) (at' a 1 + 256 * at' a 2))] } := by
    show gateSwitchApply _ _ = _
    rw [gateSwitchApply, hle, hat 0 (by decide), hat 1 (by decide), hat 2 (by decide)]
  rw [hfx] at hcom
  rw [hb]
  refine ⟨hdone, ?_, ?_, ?_⟩
  · rw [hcom.changes, hu.changes]
  · rw [hcom.rd _ (by simp only [GATE_CFG]; omega) (by simp only [GATE_CFG]; omega), ← hu.rd _ (by simp only [GATE_CFG]; omega)]
    rfl
  · exact hcom.cores.trans hu.cores

/-! ### PUNT_QUEUE (R137) -/

/-- The queue's setting is the one given, whether it changes or not. -/
theorem puntApply_setting (a : List Byte) (s : State) :
    { (puntApply a s).puntQ (at' a 0) with prod := 0, fullBeat := none } =
      { PuntQueue.reset with
        en := decide (argBit a 1 0 = 1), descs := le a 2 2, size := le a 4 4, ring := le a 8 8, idx := le a 16 8 } := by
  unfold puntApply
  dsimp only
  split
  next h => exact h
  next =>
    rw [State.puntQ, tblGet_tblSet_same]
    rfl

theorem puntApply_eqv (a : List Byte) (s : State) : puntApply a s = { s with punt := (puntApply a s).punt } := by
  unfold puntApply
  dsimp only
  split <;> rfl

theorem puntQueue_results (h : CfgReady s puntCmd m.val) (ha : mbArg s m.val = a) (ht : cfgRun puntCmd m true s = t) :
    CfgDone s t puntCmd m.val [] ∧ (t.puntQ (at' a 0)).en = decide (argBit a 1 0 = 1) ∧ (t.puntQ (at' a 0)).descs = le a 2 2 ∧
      (t.puntQ (at' a 0)).size = le a 4 4 ∧ (t.puntQ (at' a 0)).ring = le a 8 8 ∧ (t.puntQ (at' a 0)).idx = le a 16 8 ∧
      t.hostMem = s.hostMem ∧ t.cores = s.cores := by
  obtain ⟨hdone, u, hu, hcom⟩ := cfgRun_done (data := []) h ha (by decide)
    (cfgRecords_nodup rfl (by decide) rfl (l := [0, 1, 2, 4, 8, 16]) (by decide) (by decide)) (fun u _ => by
      have heqv : puntCmd.apply a u = _ := puntApply_eqv a u
      exact ⟨rfl, .of_mem (by rw [heqv]), State.getF_congr (by rw [heqv]; rfl)⟩)
  rw [ht] at hdone hcom
  replace hcom : Committed (puntApply a u) t := hcom
  have hset := puntApply_setting a u
  have hq : t.puntQ (at' a 0) = (puntApply a u).puntQ (at' a 0) := by rw [State.puntQ, hcom.punt, State.puntQ]
  have heqv := puntApply_eqv a u
  rw [hq]
  generalize (puntApply a u).puntQ (at' a 0) = q at hset
  obtain ⟨en, descs, size, ring, idx, prod, full⟩ := q
  simp only [PuntQueue.mk.injEq] at hset
  obtain ⟨hen, hdescs, hsize, hring, hidx, _, _⟩ := hset
  refine ⟨hdone, hen, hdescs, hsize, hring, hidx, ?_, ?_⟩
  · rw [hcom.hostMem, heqv, hu.hostMem]
  · rw [hcom.cores, heqv, hu.cores]

/-! ### FRAME_SEND (R359) -/

theorem MailWork.units (h : MailWork s t) : t.units = s.units := by rw [h.eqv]

theorem MailWork.chans (h : MailWork s t) : t.chans = s.chans := by rw [h.eqv]

theorem MailWork.cores (h : MailWork s t) : t.cores = s.cores := by rw [h.eqv]

/-- A frame waits in its port's queue, its command in progress. -/
def frameQueued (x : Nat × Nat × List Byte) (m : Nat) (s : State) : State :=
  { s with clearTx := s.clearTx ++ [x] }.setF (MB_STATUS_STATE m) 2

/-- A frame is sent in clear: at once on a plain-side port, in its turn on a cipher-side one. -/
theorem execFrameSend_of_ready (ha : mbArg s m.val = a) (hready : yfiReady s 0x0309 m.val = true) (hzero : zeroAt a [(1, 1), (4, 4)] = true)
    (hk : at' a 0 < 64) (hfam : s.portFam (at' a 0) = 0) (hup : s.portUp (at' a 0) = true)
    (hcell : 32 ≤ at' a 0 → s.isSet (CELL_PORT_CFG_EN (at' a 0 - 32)) = false) :
    execFrameSend m s = .next (if at' a 0 < 32 then clearSent (at' a 0, m.val, slice a 8 (le a 2 2)) s
      else frameQueued (at' a 0, m.val, slice a 8 (le a 2 2)) m.val s) := by
  have hcell' : (decide (32 ≤ at' a 0) && s.isSet (CELL_PORT_CFG_EN (at' a 0 - 32))) = false := by
    by_cases h32 : 32 ≤ at' a 0
    · rw [hcell h32, Bool.and_false]
    · rw [decide_eq_false h32, Bool.false_and]
  have hk' : decide (63 < at' a 0) = false := decide_eq_false (by omega)
  unfold execFrameSend
  simp only [ha, hready, hzero, hk', hfam, hup, hcell', firstStatus]
  by_cases h32 : at' a 0 < 32
  · simp [h32]
  · simp [h32, frameQueued]

theorem clearSent_results (hop : mbOp s m.val = 0x0309) (k : Nat) (f : List Byte) :
    MbDone s (clearSent (k, m.val, f) s) m.val 0x0309 0 (leBytes 8 s.stamp.toNat) ∧
      (clearSent (k, m.val, f) s).outs.contains (.frame k (f ++ fcsOf f)) = true ∧ (clearSent (k, m.val, f) s).units = s.units ∧
      (clearSent (k, m.val, f) s).chans = s.chans ∧ (clearSent (k, m.val, f) s).cores = s.cores := by
  have hsent : clearSent (k, m.val, f) s = mbDone m.val 0 (leBytes 8 s.stamp.toNat) (s.emit (.frame k (f ++ fcsOf f))) := rfl
  have hbuf : BufferSame s (s.emit (.frame k (f ++ fcsOf f))) := .of_mem rfl
  rw [hsent]
  have hmail := mbDone_mailWork m.val 0 (leBytes 8 s.stamp.toNat) (s.emit (.frame k (f ++ fcsOf f)))
  refine ⟨mbDone_done hbuf hop (Nat.zero_lt_succ 255) (by rw [leBytes_length]; decide), ?_, ?_, ?_, ?_⟩
  · exact List.elem_eq_true_of_mem (hmail.outs.subset (List.mem_cons_self ..))
  · exact hmail.units
  · exact hmail.chans
  · exact hmail.cores

theorem frameQueued_results (x : Nat × Nat × List Byte) (m : Nat) (s : State) :
    (frameQueued x m s).clearTx = s.clearTx ++ [x] ∧ (frameQueued x m s).getF (MB_STATUS_STATE m) = 2 ∧
      frameQueued x m s = { s with csr := (frameQueued x m s).csr, clearTx := (frameQueued x m s).clearTx } ∧
      RegsBut [MB_STATUS m] s (frameQueued x m s) := by
  refine ⟨rfl, State.getF_setF_same _ _ _ (show 0 ≤ 2 by decide) (show 2 < 32 by decide), rfl, fun o ho => ?_⟩
  exact State.rd_setF_ne _ _ _ _ (fun h => ho (List.mem_singleton.mpr h.symm))

/-! ### CELL_CALENDAR (R172, R173) -/

/-- The length of a calendar. -/
def calendarLen (c cal : Nat) : Fld := if cal = 1 then CELL_PORT_CFG_LEN1 c else CELL_PORT_CFG_LEN0 c

theorem calendarLen_fld (c cal : Nat) : (calendarLen c cal).off = CELL_PORT_CFG c ∧ (calendarLen c cal).hi = (calendarLen c cal).lo + 3 ∧
    (calendarLen c cal).hi < 8 := by
  unfold calendarLen
  split
  · exact ⟨rfl, rfl, show 7 < 8 by decide⟩
  · exact ⟨rfl, rfl, show 3 < 8 by decide⟩

/-- EN is written while the port is disabled: of the port's cells no more than EN and the calendar in force change (R162, R172). -/
theorem cellEnWrite_spec {c : Nat} {en : Bool} (h : s.isSet (PORT_CFG_EN (32 + c)) = false) :
    (∀ o, 0x22200000 ≤ o → o ≠ CELL_PORT_CFG c → (cellEnWrite c en s).rd o = s.rd o) ∧
      (∀ cal, (cellEnWrite c en s).getF (calendarLen c cal) = s.getF (calendarLen c cal)) ∧
      (cellEnWrite c en s).getF (CELL_PORT_CFG_EN c) = en.toNat ∧ (cellEnWrite c en s).mem = s.mem ∧ (cellEnWrite c en s).cores = s.cores := by
  obtain ⟨w, hw⟩ : ∃ w, w = ((s.setF (CELL_PORT_CFG_EN c) en.toNat).setF (CELL_PORT_CFG_ACTIVE c) 0).setF (CELL_PORT_CFG_ARMED c) 0 :=
    ⟨_, rfl⟩
  obtain ⟨p, hp⟩ : ∃ p, p = w.modPort (32 + c) (fun p => { p with calBase := 0, calPrev := 0, calArm := none, outSlot := none }) := ⟨_, rfl⟩
  have heq : cellEnWrite c en s = gapRefreshPort c p := by
    unfold cellEnWrite
    rw [h, hp, hw]
    rfl
  have hpw : p.csr = w.csr ∧ p.mem = w.mem ∧ p.cores = w.cores := by rw [hp]; exact ⟨rfl, rfl, rfl⟩
  obtain ⟨hrd, heqv⟩ := gapRefreshPort_spec c p
  have hword : (gapRefreshPort c p).rd (CELL_PORT_CFG c) = w.rd (CELL_PORT_CFG c) :=
    (hrd _ (by simp only [CELL_PORT_CFG]; omega)).trans (State.rd_of_csr hpw.1 _)
  rw [heq]
  refine ⟨fun o ho hne => ?_, fun cal => ?_, ?_, ?_, ?_⟩
  · rw [hrd o ho, State.rd_of_csr hpw.1, hw]
    rw [State.rd_setF_ne _ _ _ _ hne.symm, State.rd_setF_ne _ _ _ _ hne.symm, State.rd_setF_ne _ _ _ _ hne.symm]
  · obtain ⟨hoff, hhi, h8⟩ := calendarLen_fld c cal
    have hlo : (calendarLen c cal).lo ≤ (calendarLen c cal).hi := by omega
    have hlen : (gapRefreshPort c p).rd (calendarLen c cal).off = w.rd (calendarLen c cal).off := by rw [hoff]; exact hword
    rw [State.getF_congr hlen, hw]
    refine (State.getF_setF_disj _ (CELL_PORT_CFG_ARMED c) _ 0 (show 9 ≤ 9 by decide) (show 9 < 32 by decide) hlo
      (.inr (.inl (show _ < 9 by omega)))).trans ?_
    refine (State.getF_setF_disj _ (CELL_PORT_CFG_ACTIVE c) _ 0 (show 8 ≤ 8 by decide) (show 8 < 32 by decide) hlo
      (.inr (.inl (show _ < 8 by omega)))).trans ?_
    exact State.getF_setF_disj _ (CELL_PORT_CFG_EN c) _ _ (show 31 ≤ 31 by decide) (show 31 < 32 by decide) hlo
      (.inr (.inl (show _ < 31 by omega)))
  · rw [State.getF_congr (f := CELL_PORT_CFG_EN c) hword, hw]
    refine (State.getF_setF_disj _ (CELL_PORT_CFG_ARMED c) (CELL_PORT_CFG_EN c) 0 (show 9 ≤ 9 by decide) (show 9 < 32 by decide)
      (show 31 ≤ 31 by decide) (.inr (.inr (show 9 < 31 by decide)))).trans ?_
    refine (State.getF_setF_disj _ (CELL_PORT_CFG_ACTIVE c) (CELL_PORT_CFG_EN c) 0 (show 8 ≤ 8 by decide) (show 8 < 32 by decide)
      (show 31 ≤ 31 by decide) (.inr (.inr (show 8 < 31 by decide)))).trans ?_
    refine (State.getF_setF_bit _ (CELL_PORT_CFG_EN c) _ rfl (show 31 < 32 by decide)).trans ?_
    cases en <;> rfl
  · rw [heqv]
    exact hpw.2.1.trans (by rw [hw, State.setF_mem, State.setF_mem, State.setF_mem])
  · rw [heqv]
    exact hpw.2.2.trans (by rw [hw, State.setF_cores, State.setF_cores, State.setF_cores])

/-- Two entries from the first one on, and the length, written (R172). -/
def calendarTwo (a : List Byte) (s : State) : State :=
  ((s.setF (CELL_CAL_ENTRY_EVEN (at' a 0) (at' a 1) 0) (le a 16 2)).setF (CELL_CAL_ENTRY_ODD (at' a 0) (at' a 1) 0) (le a 18 2)).setF
    (calendarLen (at' a 0) (at' a 1)) (at' a 2)

theorem calendarApply_two (hn : le a 14 2 = 2) (hfirst : le a 12 2 = 0) (harm : argBit a 3 2 = 0) (s : State) :
    calendarApply a s = if argBit a 3 1 = 1 then cellEnWrite (at' a 0) (decide (argBit a 3 0 = 1)) (calendarTwo a s)
      else gapRefreshPort (at' a 0) (calendarTwo a s) := by
  unfold calendarApply
  rw [if_neg (by omega)]
  unfold calendarWrite
  rw [hn, hfirst]
  rfl

theorem calendarTwo_rd (a : List Byte) (s : State) {o : Nat} (hcal : o ≠ CELL_CAL (at' a 0) (at' a 1) 0) (hcfg : o ≠ CELL_PORT_CFG (at' a 0)) :
    (calendarTwo a s).rd o = s.rd o := by
  have hlen : (calendarLen (at' a 0) (at' a 1)).off ≠ o := by rw [(calendarLen_fld _ _).1]; exact hcfg.symm
  exact (State.rd_setF_ne _ _ _ _ hlen).trans ((State.rd_setF_ne _ _ _ _ hcal.symm).trans (State.rd_setF_ne _ _ _ _ hcal.symm))

theorem calendarTwo_fields (a : List Byte) (s : State) (heven : le a 16 2 ≤ 1023) (hodd : le a 18 2 ≤ 1023) (hlen : at' a 2 ≤ 12) :
    (calendarTwo a s).getF (CELL_CAL_ENTRY_EVEN (at' a 0) (at' a 1) 0) = le a 16 2 ∧
      (calendarTwo a s).getF (CELL_CAL_ENTRY_ODD (at' a 0) (at' a 1) 0) = le a 18 2 ∧
      (calendarTwo a s).getF (calendarLen (at' a 0) (at' a 1)) = at' a 2 := by
  obtain ⟨hoff, hhi, h8⟩ := calendarLen_fld (at' a 0) (at' a 1)
  have hne : (calendarLen (at' a 0) (at' a 1)).off ≠ CELL_CAL (at' a 0) (at' a 1) 0 := by
    rw [hoff, CELL_PORT_CFG, CELL_CAL]; omega
  refine ⟨?_, ?_, ?_⟩
  · refine (State.getF_setF_ne _ _ (CELL_CAL_ENTRY_EVEN _ _ _) _ hne).trans ?_
    refine (State.getF_setF_disj _ (CELL_CAL_ENTRY_ODD _ _ _) (CELL_CAL_ENTRY_EVEN _ _ _) _ (show 16 ≤ 25 by decide) (show 25 < 32 by decide)
      (show 0 ≤ 9 by decide) (.inr (.inl (show 9 < 16 by decide)))).trans ?_
    exact (State.getF_setF_same _ _ _ (show 0 ≤ 9 by decide) (show 9 < 32 by decide)).trans
      (Nat.mod_eq_of_lt (show le a 16 2 < 2 ^ 10 by omega))
  · refine (State.getF_setF_ne _ _ (CELL_CAL_ENTRY_ODD _ _ _) _ hne).trans ?_
    exact (State.getF_setF_same _ _ _ (show 16 ≤ 25 by decide) (show 25 < 32 by decide)).trans
      (Nat.mod_eq_of_lt (show le a 18 2 < 2 ^ 10 by omega))
  · refine (State.getF_setF_same _ _ _ (by omega) (by omega)).trans (Nat.mod_eq_of_lt ?_)
    rw [hhi, show (calendarLen (at' a 0) (at' a 1)).lo + 3 + 1 - (calendarLen (at' a 0) (at' a 1)).lo = 4 by omega]
    omega

/-- What the end of a CELL_CALENDAR keeps of the calendar as written: EN or the channels' GAP follow, no entry and no length changes. -/
theorem calendarApply_spec (hn : le a 14 2 = 2) (hfirst : le a 12 2 = 0) (harm : argBit a 3 2 = 0)
    (hen : argBit a 3 1 = 1 → s.isSet (PORT_CFG_EN (32 + at' a 0)) = false) (hc : at' a 0 < 32) :
    (∀ o, 0x22200000 ≤ o → o ≠ CELL_PORT_CFG (at' a 0) → (calendarApply a s).rd o = (calendarTwo a s).rd o) ∧
      (calendarApply a s).getF (calendarLen (at' a 0) (at' a 1)) = (calendarTwo a s).getF (calendarLen (at' a 0) (at' a 1)) ∧
      (argBit a 3 1 = 0 ∨ (calendarApply a s).getF (CELL_PORT_CFG_EN (at' a 0)) = argBit a 3 0) ∧
      (calendarApply a s).mem = s.mem ∧ (calendarApply a s).cores = s.cores := by
  have hmem : (calendarTwo a s).mem = s.mem := by rw [calendarTwo, State.setF_mem, State.setF_mem, State.setF_mem]
  have hcores : (calendarTwo a s).cores = s.cores := by rw [calendarTwo, State.setF_cores, State.setF_cores, State.setF_cores]
  rw [calendarApply_two hn hfirst harm]
  split
  next h =>
    have hport : (calendarTwo a s).isSet (PORT_CFG_EN (32 + at' a 0)) = false := by
      rw [State.isSet_congr (calendarTwo_rd a s ?_ ?_), hen h] <;> simp only [PORT_CFG_EN, PORT_CFG, CELL_CAL, CELL_PORT_CFG] <;> omega
    obtain ⟨hrd, hlen, hbit, hm, hk⟩ := cellEnWrite_spec (en := decide (argBit a 3 0 = 1)) hport
    refine ⟨hrd, hlen _, .inr (hbit.trans ?_), hm.trans hmem, hk.trans hcores⟩
    have h2 : argBit a 3 0 < 2 := Nat.mod_lt _ (by decide)
    interval_cases argBit a 3 0 <;> rfl
  next h =>
    obtain ⟨hrd, heqv⟩ := gapRefreshPort_spec (at' a 0) (calendarTwo a s)
    have h2 : argBit a 3 1 < 2 := Nat.mod_lt _ (by decide)
    refine ⟨fun o ho _ => hrd o ho, State.getF_congr (hrd _ ?_), .inl (by omega), ?_, ?_⟩
    · rw [(calendarLen_fld _ _).1, CELL_PORT_CFG]; omega
    · rw [heqv]; exact hmem
    · rw [heqv]; exact hcores

/-- The checks of a CELL_CALENDAR with two entries (R172, R359). -/
theorem calendarCmd_check (hst : calendarCmd.check a s = 0) (hn : le a 14 2 = 2) :
    at' a 0 < 32 ∧ at' a 1 ≤ 1 ∧ at' a 2 ≤ 12 ∧ le a 16 2 ≤ 1023 ∧ le a 18 2 ≤ 1023 ∧
      (argBit a 3 1 = 1 → s.isSet (PORT_CFG_EN (32 + at' a 0)) = false) := by
  unfold calendarCmd at hst
  dsimp only at hst
  rw [firstStatus_cons_eq_zero (by decide), firstStatus_cons_eq_zero (by decide), firstStatus_cons_eq_zero (by decide),
    firstStatus_cons_eq_zero (by decide), firstStatus_cons_eq_zero (by decide), hn] at hst
  obtain ⟨hrange, _, hentries, _, hen, _⟩ := hst
  simp only [Bool.or_eq_false_iff, decide_eq_false_iff_not, not_lt] at hrange
  obtain ⟨⟨⟨hc, hcal⟩, hlen⟩, _⟩ := hrange
  have hentry : ∀ i < 2, le a (16 + 2 * i) 2 ≤ 1023 := fun i hi => by
    have h := List.any_eq_false.mp hentries i (List.mem_range.mpr hi)
    simpa using h
  refine ⟨by omega, hcal, hlen, hentry 0 (by decide), hentry 1 (by decide), fun h => ?_⟩
  simpa [h] using hen

theorem calendar_results (h : CfgReady s calendarCmd m.val) (ha : mbArg s m.val = a) (ht : cfgRun calendarCmd m true s = t)
    (hn : le a 14 2 = 2) (hfirst : le a 12 2 = 0) (harm : argBit a 3 2 = 0) :
    CfgDone s t calendarCmd m.val [] ∧ t.getF (CELL_CAL_ENTRY_EVEN (at' a 0) (at' a 1) 0) = le a 16 2 ∧
      t.getF (CELL_CAL_ENTRY_ODD (at' a 0) (at' a 1) 0) = le a 18 2 ∧ t.getF (calendarLen (at' a 0) (at' a 1)) = at' a 2 ∧
      (argBit a 3 1 = 0 ∨ t.getF (CELL_PORT_CFG_EN (at' a 0)) = argBit a 3 0) ∧ t.cores = s.cores := by
  obtain ⟨hc, hcal, hlen, heven, hodd, hen⟩ : at' a 0 < 32 ∧ _ := by
    obtain ⟨_, _, _, hst, _⟩ := h
    rw [ha] at hst
    exact calendarCmd_check hst hn
  have hspec : ∀ u, BudgetWork s u → _ := fun u hu =>
    calendarApply_spec (s := u) hn hfirst harm (fun h => (hu.isSet (by simp only [PORT_CFG_EN, PORT_CFG]; omega)).trans (hen h)) hc
  obtain ⟨hdone, u, hu, hcom⟩ := cfgRun_done (data := []) h ha (by decide)
    (cfgRecords_nodup rfl (by decide) rfl (l := [0, 1, 2, 3, 12, 14, 16]) (by decide) (by decide)) (fun u hu => by
      obtain ⟨hrd, _, _, hmem, _⟩ := hspec u hu
      refine ⟨rfl, .of_mem hmem, State.getF_congr ((hrd _ (by decide) ?_).trans (calendarTwo_rd a u ?_ ?_))⟩ <;>
        simp only [TW_STAT_STATE, TW_STAT, CELL_CAL, CELL_PORT_CFG] <;> omega)
  rw [ht] at hdone hcom
  replace hcom : Committed (calendarApply a u) t := hcom
  obtain ⟨hrd, hkeep, hbit, _, hcores⟩ := hspec u hu
  obtain ⟨htwoE, htwoO, htwoL⟩ := calendarTwo_fields a u heven hodd hlen
  have hword : t.rd (CELL_CAL (at' a 0) (at' a 1) 0) = (calendarTwo a u).rd (CELL_CAL (at' a 0) (at' a 1) 0) := by
    rw [hcom.rd _ (by simp only [CELL_CAL]; omega) (by simp only [CELL_CAL]; omega),
      hrd _ (by simp only [CELL_CAL]; omega) (by simp only [CELL_CAL, CELL_PORT_CFG]; omega)]
  have hcfg : t.rd (CELL_PORT_CFG (at' a 0)) = (calendarApply a u).rd (CELL_PORT_CFG (at' a 0)) :=
    hcom.rd _ (by simp only [CELL_PORT_CFG]; omega) (by simp only [CELL_PORT_CFG]; omega)
  refine ⟨hdone, (State.getF_congr hword).trans htwoE, (State.getF_congr hword).trans htwoO, ?_, ?_, hcom.cores.trans (hcores.trans hu.cores)⟩
  · refine (State.getF_congr ?_).trans (hkeep.trans htwoL)
    rw [(calendarLen_fld _ _).1]
    exact hcfg
  · exact hbit.imp_right (fun hb => (State.getF_congr hcfg).trans hb)

end

/-- Settles O32: each configuration command commits with its effect, by `cfgRun_done`; a frame in clear leaves at once or waits. -/
theorem yfiGateResults : Obligations.YfiGateResults := by
  intro s m a g e
  refine ⟨fun h => ?_, fun h h1 hkind hop => ?_, fun h h1 hkind hop => ?_, fun h => ?_, fun h => ?_, fun hready hzero hlt hfam hup => ?_,
    fun hready hzero hge hlt hfam hup hcell => ?_, fun h hn hfirst harm => ?_⟩
  · exact ⟨_, rfl, gateLoad_results h rfl rfl⟩
  · exact ⟨_, rfl, gateExact_results h rfl rfl h1 hkind hop⟩
  · obtain ⟨hdone, htern, hrest⟩ := gateTernary_results h rfl rfl h1 hkind hop
    refine ⟨_, rfl, hdone, ?_, ?_, hrest⟩
    · exact htern ▸ List.elem_eq_true_of_mem (mem_ternPut _ _)
    · exact htern ▸ ternPut_filter _ _
  · exact ⟨_, rfl, gateSwitch_results h rfl rfl⟩
  · exact ⟨_, rfl, puntQueue_results h rfl rfl⟩
  · have hsent := execFrameSend_of_ready rfl hready hzero (Nat.lt_trans hlt (by decide)) hfam hup (fun hge => absurd hlt (Nat.not_lt.mpr hge))
    refine ⟨_, hsent.trans (congrArg _ (if_pos hlt)), ?_⟩
    exact clearSent_results (mbOp_of_ready hready) g _
  · have hqueued := execFrameSend_of_ready rfl hready hzero hlt hfam hup (fun _ => hcell)
    refine ⟨_, hqueued.trans (congrArg _ (if_neg (Nat.not_lt.mpr hge))), ?_⟩
    exact frameQueued_results _ m.val s
  · exact ⟨_, rfl, calendar_results h rfl rfl hn hfirst harm⟩

end Sys2Proof.Machine

/-!
O60: what the assembly of a fill cell sends and what it leaves, whether or not the rail's check fails (R167, R168, R180).
-/

namespace Sys2Proof.Machine

/-! ### Messages on the links leave every channel's record -/

theorem pumpOne_chans (z : Nat) (s : State) : (pumpOne z s).chans = s.chans := by
  unfold pumpOne
  extract_lets p
  split
  · rfl
  · split
    · rfl
    · split
      · rfl
      · split <;> rfl

theorem pumpMany_chans (k z : Nat) (s : State) : (pumpMany k z s).chans = s.chans := by
  induction k generalizing s with
  | zero => rfl
  | succ k ih => exact (ih _).trans (pumpOne_chans z s)

theorem zSend_chans (z vc : Nat) (m : List Byte) (s : State) : (zSend z vc m s).chans = s.chans := by
  unfold zSend pump
  split
  · exact pumpMany_chans ..
  · rfl

theorem twinPut_chans (rec : List Byte) (s : State) : (twinPut rec s).chans = s.chans := by
  unfold twinPut
  split
  · rfl
  · exact zSend_chans ..

theorem twinSend_chans (rec : List Byte) (s : State) : (twinSend rec s).chans = s.chans := by
  unfold twinSend
  split
  · split <;> rfl
  · exact foldl_chans (fun u r => twinPut_chans r u) _ _

/-! ### What the assembly of a fill cell leaves -/

/-- A register that the assembly of a fill cell of channel n does not write: none of OUT_SLOT and the channel's statistics (CH_MODE_W0,
the next cell ASN, lies below them), of Bell and of the ledger. -/
abbrev fillKept (n o : Nat) : Prop := quietOff o ∧ (o < 0x221000A8 + n * 0x800 ∨ 0x22100400 + n * 0x800 ≤ o)

/-- From `s` to `t` every register the assembly of a fill cell keeps, and every channel's cell record, is as it was. -/
structure FillWork (n : Nat) (s t : State) : Prop where
  rd : ∀ o, fillKept n o → t.rd o = s.rd o
  cell : ∀ m, (t.chan m).cell = (s.chan m).cell

section
variable {n : Nat} {s t u : State}

theorem FillWork.refl (n : Nat) (s : State) : FillWork n s s := ⟨fun _ _ => rfl, fun _ => rfl⟩

theorem FillWork.trans (h : FillWork n s t) (g : FillWork n t u) : FillWork n s u :=
  ⟨fun o ho => (g.rd o ho).trans (h.rd o ho), fun m => (g.cell m).trans (h.cell m)⟩

theorem FillWork.foldl {α : Type} {f : State → α → State} (hf : ∀ u a, FillWork n u (f u a)) (l : List α) (s : State) :
    FillWork n s (l.foldl f s) := by
  induction l generalizing s with
  | nil => exact .refl n s
  | cons a l ih => exact (hf s a).trans (ih _)

/-- Registers and channel records are the same. -/
theorem FillWork.same (hcsr : t.csr = s.csr) (hchans : t.chans = s.chans) : FillWork n s t :=
  ⟨fun o _ => State.rd_of_csr hcsr o, fun m => by rw [State.chan_congr hchans]⟩

theorem Quiet.fillWork (h : Quiet s t) : FillWork n s t :=
  ⟨fun o ho => h.rd o ho.1, fun m => by rw [State.chan_congr h.chans]⟩

theorem wr64_fillWork {o : Nat} (v : DWord) (ho : ¬ fillKept n o) (h4 : ¬ fillKept n (o + 4)) : FillWork n s (s.wr64 o v) :=
  ⟨fun _ hp => State.rd_wr64_ne _ _ _ _ (fun e => ho (e ▸ hp)) (fun e => h4 (e ▸ hp)), fun _ => rfl⟩

theorem modTw_fillWork (m : Nat) (f : TwinCh → TwinCh) : FillWork n s (s.modTw m f) := by
  refine ⟨fun _ _ => rfl, fun i => ?_⟩
  rw [State.modTw, State.chan_modChan]
  split
  next e => rw [e]
  next => rfl

theorem FillWork.getF (h : FillWork n s t) {f : Fld} (hf : fillKept n f.off) : t.getF f = s.getF f := State.getF_congr (h.rd _ hf)

theorem FillWork.isSet (h : FillWork n s t) {f : Fld} (hf : fillKept n f.off) : t.isSet f = s.isSet f := by
  rw [State.isSet, h.getF hf, State.isSet]

theorem FillWork.chTwin (h : FillWork n s t) (hn : n < 512) : t.chTwin n = s.chTwin n :=
  h.isSet (by simp only [fillKept, quietOff, CH_CFG_TWIN, CH_CFG]; omega)

theorem FillWork.cellL (h : FillWork n s t) (hn : n < 512) : cellL t n = cellL s n := by
  unfold Sys2Proof.Machine.cellL
  rw [h.chTwin hn, h.getF (f := TW_STAT_STATE) (by simp only [fillKept, quietOff, TW_STAT_STATE, TW_STAT]; omega)]

theorem FillWork.cellP (h : FillWork n s t) (hn : n < 512) : cellP t n = cellP s n := by
  unfold Sys2Proof.Machine.cellP
  rw [h.chTwin hn, h.isSet (f := TW_CFG_MY_PATH) (by simp only [fillKept, quietOff, TW_CFG_MY_PATH, TW_CFG]; omega)]

theorem FillWork.isWitness (h : FillWork n s t) (hn : n < 512) : isWitness t n = isWitness s n := by
  unfold Sys2Proof.Machine.isWitness State.devId
  rw [h.chTwin hn, h.isSet (f := TWC_CFG_WIT_EN n) (by simp only [fillKept, quietOff, TWC_CFG_WIT_EN, TWC_CFG]; omega),
    h.getF (f := TWC_CFG_WIT_ID n) (by simp only [fillKept, quietOff, TWC_CFG_WIT_ID, TWC_CFG]; omega),
    h.getF (f := FAB_ID_DEV_ID) (by simp only [fillKept, quietOff, FAB_ID_DEV_ID, FAB_ID]; omega)]

/-- The next cell ASN of the channel (R181). -/
theorem FillWork.casn (h : FillWork n s t) (hn : n < 512) : t.rd64 (CH_MODE_W0_LO n) = s.rd64 (CH_MODE_W0_LO n) :=
  State.rd64_congr (h.rd _ (by simp only [fillKept, quietOff, CH_MODE_W0_LO]; omega))
    (h.rd _ (by simp only [fillKept, quietOff, CH_MODE_W0_LO]; omega))

theorem slotTaken_fillWork (c x : Nat) : FillWork n s (slotTaken c x s) := .same rfl rfl

theorem outStat_fillWork {i : Nat} (hi : i < 8) (k : Nat) : FillWork n s (outStat n i k s) :=
  wr64_fillWork _ (by simp only [fillKept, CH_OUT_STAT]; omega) (by simp only [fillKept, CH_OUT_STAT]; omega)

theorem digestAdd_fillWork (b : Beat) (rec : List Byte) : FillWork n s (digestAdd n b rec s) := by
  unfold digestAdd
  split
  · exact modTw_fillWork _ _
  · exact .refl n s

theorem slotContexts_fillWork (c x : Nat) : FillWork n s (slotContexts c x s) :=
  FillWork.foldl (fun _ m => (modTw_fillWork m _).trans (.same (twinSend_linkWork _ _).csr (twinSend_chans _ _))) _ s

end

/-! ### The cell sent -/

/-- The cell of slot x with a body enciphered under key j, and the tag that its rail gave (R165, R168, R180). -/
def cellTagged (s : State) (n c x j : Nat) (body tag : List Byte) : List Byte :=
  cellHeader x (cellL s n) (cellP s n) (decide ((s.slot j).epoch % 2 = 1)) false false ++
    gcmStream (dirKey s n 0 j) (cellNonce c (s.getF (CELL_POL_LO_DIR n)) x) body ++ tag

/-- The tag that a rail without fault computes (R168). -/
def cellTag (s : State) (n c x j : Nat) (body : List Byte) : List Byte :=
  let key := dirKey s n 0 j
  let iv := cellNonce c (s.getF (CELL_POL_LO_DIR n)) x
  gcmTagBytes key iv (cellAad x (decide ((s.slot j).epoch % 2 = 1))) (gcmStream key iv body)

/-- The tag of a cell: that of its key, or where the rail's check fails whatever the rail computed (R180). -/
def railTag (s : State) (n c x j : Nat) (body : List Byte) (fault : Bool) : List Byte :=
  if fault then beBytes 16 s.draw.1 else cellTag s n c x j body

theorem railTag_length (s : State) (n c x j : Nat) (body : List Byte) (fault : Bool) : (railTag s n c x j body fault).length = 16 := by
  unfold railTag
  split <;> exact beBytes_length _ _

theorem railTag_of_sound (s : State) (n c x j : Nat) (body : List Byte) : railTag s n c x j body false = cellTag s n c x j body :=
  if_neg Bool.false_ne_true

/-- The state in which a cell leaves: where the rail's check failed, the failure is recorded (R180). -/
def cellRail (n : Nat) (fault : Bool) (s : State) : State :=
  if fault then railFault n ((railPool s false).headD 0) s.draw.2 else s

theorem railFault_quiet (n rail : Nat) (s : State) : Quiet s (railFault n rail s) := (report_quiet _ _ _ _ _).trans (bellPulse_quiet _ _)

theorem draw_fillWork (n : Nat) (s : State) : FillWork n s s.draw.2 := .same rfl rfl

theorem cellRail_fillWork (n : Nat) (fault : Bool) (s : State) : FillWork n s (cellRail n fault s) := by
  unfold cellRail
  split
  · exact (draw_fillWork n s).trans (railFault_quiet _ _ _).fillWork
  · exact .refl n s

/-- The state with the cell of slot x on its port. -/
def cellLeft (n c x j : Nat) (body : List Byte) (fault : Bool) (s : State) : State :=
  cellOut c (cellTagged s n c x j body (railTag s n c x j body fault)) (cellRail n fault s)

section
variable {n c x j : Nat} {body : List Byte} {fault cut : Bool} {s u : State}

theorem cellLeft_fillWork (n c x j : Nat) (body : List Byte) (fault : Bool) (s : State) :
    FillWork n s (cellLeft n c x j body fault s) := (cellRail_fillWork n fault s).trans (.same rfl rfl)

/-- A body that is sealed leaves in its cell; OUT_SLOT and the channel's digest follow. -/
theorem sealCell_cellLeft (hn : n < 512) (hw : isWitness s n = false) :
    sealCell n c x j body fault s = digestAdd n (BitVec.ofNat 48 (x / max 1 ((cellLeft n c x j body fault s).spb c)))
      (beBytes 8 x ++ cellTag s n c x j body) ((cellLeft n c x j body fault s).wr64 (CH_MODE_W1_LO n) (BitVec.ofNat 64 x)) := by
  have hrail := cellRail_fillWork n fault s
  have hwit : isWitness (cellRail n fault s) n = false := (hrail.isWitness hn).trans hw
  have hleft : cellLeft n c x j body fault s = if isWitness (cellRail n fault s) n then cellRail n fault s else
      cellOut c (cellHeader x (cellL (cellRail n fault s) n) (cellP (cellRail n fault s) n) (decide ((s.slot j).epoch % 2 = 1)) false false ++
        gcmStream (dirKey s n 0 j) (cellNonce c (s.getF (CELL_POL_LO_DIR n)) x) body ++ railTag s n c x j body fault) (cellRail n fault s) := by
    rw [hwit, hrail.cellL hn, hrail.cellP hn]
    rfl
  rw [hleft]
  rfl

/-- The cell that a body is sealed in leaves, and the assembly goes on from there. -/
theorem sealCell_tagged (hn : n < 512) (hw : isWitness s n = false) :
    .cell (32 + c) (cellTagged s n c x j body (railTag s n c x j body fault)) ∈ (sealCell n c x j body fault s).outs ∧
      FillWork n s (sealCell n c x j body fault s) := by
  rw [sealCell_cellLeft hn hw]
  refine ⟨?_, ((cellLeft_fillWork n c x j body fault s).trans ?_).trans (digestAdd_fillWork _ _)⟩
  · rw [digestAdd_eqv]
    exact List.mem_cons_self ..
  · exact wr64_fillWork (o := CH_MODE_W1_LO n) _ (by simp only [fillKept, CH_MODE_W1_LO]; omega)
      (by simp only [fillKept, CH_MODE_W1_LO]; omega)

/-- What a cell is made of is the same before the slot's statistics as after. -/
theorem SlotWork.cellTagged (h : SlotWork n s u) (g : FillWork n s u) (hn : n < 512) (c x j : Nat) (body tag : List Byte) :
    cellTagged u n c x j body tag = cellTagged s n c x j body tag := by
  have hslot : u.slot j = s.slot j := by rw [State.slot, State.slot, h.tack]
  unfold Sys2Proof.Machine.cellTagged
  rw [hslot, h.dirKey hn, g.cellL hn, g.cellP hn,
    h.getF (f := CELL_POL_LO_DIR n) (by simp only [slotKept, CELL_POL_LO_DIR, CELL_POL_LO]; omega)]

theorem SlotWork.cellTag (h : SlotWork n s u) (hn : n < 512) (c x j : Nat) (body : List Byte) :
    cellTag u n c x j body = cellTag s n c x j body := by
  have hslot : u.slot j = s.slot j := by rw [State.slot, State.slot, h.tack]
  unfold Sys2Proof.Machine.cellTag
  rw [hslot, h.dirKey hn, h.getF (f := CELL_POL_LO_DIR n) (by simp only [slotKept, CELL_POL_LO_DIR, CELL_POL_LO]; omega)]

/-- A channel with no octets for its slot seals the fill body, whether or not the rail's check fails (R175). -/
theorem channelCell_fillBody (hkey : slotKey s n c x = some j) (hempty : (slotFill s n c x cut).1.payload = []) :
    channelCell n c x fault cut s = sealCell n c x j fillBody fault (outStat n 4 1 s) := by
  unfold slotFill at hempty
  unfold channelCell
  rw [hkey]
  simp only [hempty, List.isEmpty_nil, if_true]

end

/-! ### The slot -/

/-- The body that a slot seals leaves in its cell, with the tag its rail gave, and what the assembly keeps holds to its end. -/
theorem slotAssemblyClose_tagged {s u : State} {p : Fin 32} {n : Fin 512} {j : Nat} {fault cut : Bool} {x : Nat} {body : List Byte}
    (hruns : cellRuns s p.val = true) (hx : slotNow s p.val = x) (hnew : (s.port (32 + p.val)).outSlot ≠ some x)
    (hentry : slotEntry s p.val x = n.val) (hsends : slotSends s p.val x n.val) (hwit : isWitness s n.val = false)
    (hcell : channelCell n.val p.val x fault cut (slotTaken p.val x s) = sealCell n.val p.val x j body fault u)
    (hwork : SlotWork n.val s u) (hfill : FillWork n.val s u) :
    Completes (execSlotAssemblyClose p fault cut s) fun t =>
      (∃ tag, tag.length = 16 ∧ (fault = false → tag = cellTag s n.val p.val x j body) ∧
        t.outs.contains (.cell (32 + p.val) (cellTagged s n.val p.val x j body tag)) = true) ∧ FillWork n.val s t := by
  have hn := n.isLt
  have hclose : slotClose p.val x fault cut (slotTaken p.val x s) = sealCell n.val p.val x j body fault u :=
    (slotClose_sends hn ((slotEntry_slotTaken _ _ _ s).trans hentry) hsends).trans hcell
  obtain ⟨hout, hseal⟩ := sealCell_tagged (c := p.val) (x := x) (j := j) (body := body) (fault := fault) hn
    ((hwork.isWitness hn).trans hwit)
  rw [hwork.cellTagged hfill hn] at hout
  refine ⟨_, by rw [slotAssemblyClose_eq hruns (by rw [hx]; exact hnew), hx, hclose], ?_, ?_⟩
  · refine ⟨railTag u n.val p.val x j body fault, railTag_length _ _ _ _ _ _ _, ?_, ?_⟩
    · rintro rfl
      exact (railTag_of_sound _ _ _ _ _ _).trans (hwork.cellTag hn _ _ _ _)
    · exact outs_contains_of_suffix (slotContexts_linkWork _ _ _) hout
  · exact (hfill.trans hseal).trans (slotContexts_fillWork _ _)

/-- Settles O60: the cell sent holds the fill body under the slot's key, and the assembly leaves the channel's next cell ASN and its epoch. -/
theorem fillCellBody : Obligations.FillCellBody := by
  intro s p n j fault cut c x entry sends fill k key iv body text hsends hkey hempty
  simp only [sends, Bool.and_eq_true, decide_eq_true_eq, Bool.not_eq_true'] at hsends
  obtain ⟨⟨⟨⟨⟨⟨⟨⟨⟨⟨⟨hen, hup⟩, hnew⟩, hentry⟩, hopen⟩, hmode⟩, hport⟩, hout⟩, hheld⟩, hmute⟩, hlease⟩, hwit⟩ := hsends
  have hcell := channelCell_fillBody (fault := fault) ((slotKey_slotTaken n.val c x x s).trans hkey)
    (by rw [slotFill_slotTaken]; exact hempty)
  obtain ⟨t, hexec, hsent, hleft⟩ := slotAssemblyClose_tagged (Bool.and_eq_true_iff.mpr ⟨hen, hup⟩) rfl hnew hentry
    ⟨hopen, hmode, hport, hout, hheld, hmute, hlease⟩ hwit hcell
    ((slotTaken_slotWork _ _ _ s).trans (outStat_slotWork (by decide) _ _))
    ((slotTaken_fillWork _ _).trans (outStat_fillWork (by decide) _))
  exact ⟨t, hexec, hsent, hleft.casn n.isLt, congrArg CellCh.outEpoch (hleft.cell n.val)⟩

end Sys2Proof.Machine

/-!
SUPPORT. The Tack vault (spec/07): a slot of no kind that still holds bytes, and what the release of the previous role makes of it.
-/

namespace Sys2Proof.Machine

/-- The outbound previous role of channel 0 names slot 0, whose kind is 0 although it holds a byte. No unit needs the slot, and
no grace runs. -/
def emptyKindPrevState : State :=
  (State.reset.setF (KB_ROLES_PREV_V 0 0) 1).setSlot (slotOf 0 0) { Slot.reset with bytes := [1] }

/-- R226: the release frees the slots that hold a key and have no role left, and a slot of kind 0 holds none: slot 0 stays as it was,
named by no role. -/
theorem prevKeyRelease_emptyKindPrevState :
    Completes (exec (.prevKeyRelease 0 false) emptyKindPrevState) fun t =>
      slotNamed t 0 0 = false ∧ (t.slot (slotOf 0 0)).bytes = [1] :=
  completes_of_completesWith (by decide +kernel)

/-- Refutes O46: a previous slot of kind 0 that is not an empty one. The first clause promises that the slot the ended previous role
named is `Slot.reset`; the release frees slots whose kind is not 0 (R225 step 5), so in `emptyKindPrevState`, where the clause's
conditions hold, slot 0 keeps its byte. -/
theorem not_vaultResults : ¬ Obligations.VaultResults := by
  unfold Obligations.VaultResults
  intro h
  obtain ⟨hrelease, -⟩ := h emptyKindPrevState 0 false 0 0 0 .host 0
  -- The clause's conditions: the role is valid, its grace is over, no unit needs the slot, and no exchange waits for it.
  have hends := hrelease (by decide +kernel)
  obtain ⟨t, ht, -, -, hfreed, -⟩ := hends (by decide +kernel)
  obtain ⟨u, hu, hunnamed, hbytes⟩ := prevKeyRelease_emptyKindPrevState
  obtain rfl : t = u := Host.Outcome.next.inj (ht.symm.trans hu)
  have hreset : t.slot (slotOf 0 0) = Slot.reset := hfreed hunnamed
  rw [hreset] at hbytes
  exact absurd hbytes (by decide)

end Sys2Proof.Machine

/-!
SUPPORT. What a Bridle session sends (spec/10): a message put on its lane outside a Twin pair, said once; and the periodic messages.
-/

namespace Sys2Proof.Machine

/-! ### Registers written -/

/-- From `s` to `t` no register has changed but those `P` admits. -/
def Writes (P : Nat → Prop) (s t : State) : Prop := ∀ o, ¬ P o → t.rd o = s.rd o

section
variable {P Q : Nat → Prop} {s t u : State}

theorem Writes.refl (s : State) : Writes P s s := fun _ _ => rfl

theorem Writes.trans (h : Writes P s t) (g : Writes P t u) : Writes P s u := fun o ho => (g o ho).trans (h o ho)

theorem Writes.mono (h : Writes P s t) (hPQ : ∀ o, P o → Q o) : Writes Q s t := fun o ho => h o (fun hp => ho (hPQ o hp))

theorem Writes.csr (h : Writes P s t) (hcsr : u.csr = t.csr) : Writes P s u := fun o ho => (State.rd_of_csr hcsr o).trans (h o ho)

theorem Writes.wr {o : Nat} {v : Word} (h : Writes P s t) (ho : P o) : Writes P s (t.wr o v) :=
  h.trans (fun _ hp => State.rd_wr_ne _ _ _ _ (fun e => hp (e ▸ ho)))

theorem Writes.setF {f : Fld} {v : Nat} (h : Writes P s t) (ho : P f.off) : Writes P s (t.setF f v) := h.wr ho

theorem Writes.wr64 {o : Nat} {v : DWord} (h : Writes P s t) (ho : P o) (h4 : P (o + 4)) : Writes P s (t.wr64 o v) := (h.wr ho).wr h4

theorem Writes.ite {c : Prop} [Decidable c] (h : Writes P s t) (g : Writes P s u) : Writes P s (if c then t else u) := by
  split <;> assumption

theorem Writes.foldl {α : Type} {f : State → α → State} (l : List α) (hf : ∀ u, ∀ a ∈ l, Writes P u (f u a)) (s : State) :
    Writes P s (l.foldl f s) := by
  induction l generalizing s with
  | nil => exact .refl s
  | cons a l ih =>
    exact (hf s a (List.mem_cons_self ..)).trans (ih (fun u b hb => hf u b (List.mem_cons_of_mem _ hb)) _)

theorem Writes.getF (h : Writes P s t) {f : Fld} (hf : ¬ P f.off) : t.getF f = s.getF f := State.getF_congr (h _ hf)

theorem Writes.isSet (h : Writes P s t) {f : Fld} (hf : ¬ P f.off) : t.isSet f = s.isSet f := State.isSet_congr (h _ hf)

theorem Writes.rd64 (h : Writes P s t) {o : Nat} (ho : ¬ P o) (h4 : ¬ P (o + 4)) : t.rd64 o = s.rd64 o := State.rd64_congr (h _ ho) (h _ h4)

end

/-- A field of a register keeps its value where another field of it is written. -/
theorem State.getF_setF_apart (s : State) (f g : Fld) (v : Nat)
    (h : (decide (f.lo ≤ f.hi) && decide (f.hi < 32) && decide (g.lo ≤ g.hi) && (decide (f.hi < g.lo) || decide (g.hi < f.lo))) = true) :
    (s.setF f v).getF g = s.getF g := by
  simp only [Bool.and_eq_true, Bool.or_eq_true, decide_eq_true_eq] at h
  obtain ⟨⟨⟨hf, h32⟩, hg⟩, hd⟩ := h
  exact State.getF_setF_disj _ _ _ _ hf h32 hg (.inr hd.symm)

/-! ### What a session changes of itself -/

/-- A session leads from `s` to `t`: it writes no register but those `P` admits, and beside them the records of channels, the queue to the
carrier and the draws. -/
structure SessionWork (P : Nat → Prop) (s t : State) : Prop where
  writes : Writes P s t
  eqv : t = { s with csr := t.csr, chans := t.chans, brTx := t.brTx, draws := t.draws }

section
variable {P Q : Nat → Prop} {s t u : State}

theorem SessionWork.refl (s : State) : SessionWork P s s := ⟨.refl s, rfl⟩

theorem SessionWork.trans (h : SessionWork P s t) (g : SessionWork P t u) : SessionWork P s u :=
  ⟨h.writes.trans g.writes, by rw [g.eqv, h.eqv]⟩

theorem SessionWork.mono (h : SessionWork P s t) (hPQ : ∀ o, P o → Q o) : SessionWork Q s t := ⟨h.writes.mono hPQ, h.eqv⟩

theorem SessionWork.wr {o : Nat} {v : Word} (h : SessionWork P s t) (ho : P o) : SessionWork P s (t.wr o v) :=
  h.trans ⟨(Writes.refl t).wr ho, rfl⟩

theorem SessionWork.setF {f : Fld} {v : Nat} (h : SessionWork P s t) (ho : P f.off) : SessionWork P s (t.setF f v) := h.wr ho

theorem SessionWork.wr64 {o : Nat} {v : DWord} (h : SessionWork P s t) (ho : P o) (h4 : P (o + 4)) : SessionWork P s (t.wr64 o v) :=
  (h.wr ho).wr h4

theorem SessionWork.modChan (h : SessionWork P s t) (n : Nat) (f : Chan → Chan) : SessionWork P s (t.modChan n f) :=
  h.trans ⟨(Writes.refl t).csr rfl, rfl⟩

theorem SessionWork.modBr (h : SessionWork P s t) (n : Nat) (f : Session → Session) : SessionWork P s (t.modBr n f) := h.modChan n _

theorem SessionWork.brTx (h : SessionWork P s t) (q : List BrOut) : SessionWork P s { t with brTx := q } :=
  h.trans ⟨(Writes.refl t).csr rfl, rfl⟩

theorem SessionWork.draw (h : SessionWork P s t) : SessionWork P s t.draw.2 := h.trans ⟨(Writes.refl t).csr rfl, rfl⟩

theorem SessionWork.foldl {α : Type} {f : State → α → State} (l : List α) (hf : ∀ u, ∀ a ∈ l, SessionWork P u (f u a)) (s : State) :
    SessionWork P s (l.foldl f s) := by
  induction l generalizing s with
  | nil => exact .refl s
  | cons a l ih =>
    exact (hf s a (List.mem_cons_self ..)).trans (ih (fun u b hb => hf u b (List.mem_cons_of_mem _ hb)) _)

theorem SessionWork.loftQ (h : SessionWork P s t) : t.loftQ = s.loftQ := by rw [h.eqv]

theorem SessionWork.tack (h : SessionWork P s t) : t.tack = s.tack := by rw [h.eqv]

end

theorem State.chan_modBr (s : State) (n : Nat) (f : Session → Session) :
    (s.modBr n f).chan n = { s.chan n with br := f (s.chan n).br } := State.chan_modChan_same s n (fun c => { c with br := f c.br })

theorem State.modBr_rd (s : State) (n : Nat) (f : Session → Session) (o : Nat) : (s.modBr n f).rd o = s.rd o := rfl

theorem State.modBr_tack (s : State) (n : Nat) (f : Session → Session) : (s.modBr n f).tack = s.tack := rfl

/-! ### A message on its lane (R250, R252) -/

/-- The state after a message was put on its lane, where no mate takes a copy. -/
def brSent (n typ stream lane : Nat) (urgent : Bool) (body : List Byte) (s : State) : State :=
  { brCnt n 0 (s.wr (BR_TX_SEQ n stream) (s.rd (BR_TX_SEQ n stream) + 1)) with
    brTx := s.brTx ++ [BrOut.mk n lane urgent (brWords s n typ stream body) 0] }

/-- What a message sent on a stream writes: the stream's number and the channel's count of messages sent. -/
abbrev sentOff (n stream o : Nat) : Prop := o = BR_TX_SEQ n stream ∨ o = BR_CNT n 0 ∨ o = BR_CNT n 0 + 4

section
variable {n typ stream lane : Nat} {urgent : Bool} {body : List Byte} {s t : State}

theorem brSent_work : SessionWork (sentOff n stream) s (brSent n typ stream lane urgent body s) :=
  (((SessionWork.refl s).wr (.inl rfl)).wr64 (.inr (.inl rfl)) (.inr (.inr rfl))).brTx _

theorem brSent_writes : Writes (sentOff n stream) s (brSent n typ stream lane urgent body s) := brSent_work.writes

theorem brTxSeq_ne_brCnt (hs : stream < 4) (i : Nat) : BR_CNT n i ≠ BR_TX_SEQ n stream := by simp only [BR_TX_SEQ, BR_CNT]; omega

theorem brSent_rd_txSeq (hs : stream < 4) :
    (brSent n typ stream lane urgent body s).rd (BR_TX_SEQ n stream) = s.rd (BR_TX_SEQ n stream) + 1 :=
  (State.rd_wr64_ne _ _ _ _ (brTxSeq_ne_brCnt hs 0) (by simp only [BR_TX_SEQ, BR_CNT]; omega)).trans (State.rd_wr_same _ _ _)

theorem brSent_rd64_cnt (hs : stream < 4) : (brSent n typ stream lane urgent body s).rd64 (BR_CNT n 0) = s.rd64 (BR_CNT n 0) + 1 := by
  refine (State.rd64_wr64_same _ _ _).trans ?_
  rw [State.rd64_wr_ne _ _ _ _ (brTxSeq_ne_brCnt hs 0).symm (by simp only [BR_TX_SEQ, BR_CNT]; omega)]
  rfl

/-- The message is sent as R250 and R252 say. -/
theorem brSent_sent (hs : stream < 4) : Sent s (brSent n typ stream lane urgent body s) n typ stream lane urgent body :=
  ⟨brSent_rd_txSeq hs, brSent_rd64_cnt hs, rfl⟩

/-- The type a message carries is the one it was made of. -/
theorem brWords_typ (htyp : typ < 256) : at' (brWords s n typ stream body) 1 = typ := by
  show (BitVec.ofNat 8 typ).toNat = typ
  rw [BitVec.toNat_ofNat, Nat.mod_eq_of_lt htyp]

theorem brSent_queued (htyp : typ < 256) (hq : t.brTx = s.brTx) : Queued s (brSent n typ stream 1 urgent body t) n [typ] := by
  show (t.brTx ++ [BrOut.mk n 1 urgent (brWords t n typ stream body) 0]).map _ = _
  rw [List.map_append, hq]
  simp only [List.map_cons, List.map_nil, brWords_typ htyp]

theorem brSent_chan (m : Nat) : (brSent n typ stream lane urgent body s).chan m = s.chan m := rfl

/-- Outside a Twin pair, or for a message its lead does not decide, the message is put on its lane and no more. -/
theorem brSend_eq_brSent (hs : stream < 4) (hlone : s.chTwin n = false ∨ brLeadDecides typ = false)
    (hroom : (s.rd (BR_TX_SEQ n stream)).toNat + 1 < 2 ^ 32) : brSend n typ stream lane urgent body s = brSent n typ stream lane urgent body s := by
  have hseq : BitVec.ofNat 32 ((s.rd (BR_TX_SEQ n stream)).toNat + 1) = s.rd (BR_TX_SEQ n stream) + 1 := by
    rw [BitVec.ofNat_add, BitVec.ofNat_toNat, BitVec.setWidth_eq]; rfl
  have htwin : (brSent n typ stream lane urgent body s).chTwin n = s.chTwin n :=
    brSent_writes.isSet (f := CH_CFG_TWIN n) (by simp only [sentOff, CH_CFG_TWIN, CH_CFG, BR_TX_SEQ, BR_CNT]; omega)
  have hcopy : ((brSent n typ stream lane urgent body s).chTwin n && decide ((brSent n typ stream lane urgent body s).getF TW_STAT_STATE = 2) &&
      brLeadDecides typ && decide (stream = 0)) = false := by
    rcases hlone with h | h
    · rw [htwin, h]; rfl
    · rw [h]; simp
  unfold brSend
  extract_lets seq m1 m2 s1 s2
  have hs2 : s2 = brSent n typ stream lane urgent body s := by
    simp only [s2, s1, seq, hseq]; rfl
  rw [if_neg (by omega), hs2, if_neg (by rw [hcopy]; exact Bool.false_ne_true)]

theorem State.pairing_congr (hcfg : t.rd (BR_CFG n) = s.rd (BR_CFG n)) (htack : t.tack = s.tack) : t.pairing n = s.pairing n := by
  unfold State.pairing
  rw [htack, State.getF_congr (f := BR_CFG_PAIR n) hcfg]

theorem State.roleB_congr (hcfg : t.rd (BR_CFG n) = s.rd (BR_CFG n)) (htack : t.tack = s.tack) : t.roleB n = s.roleB n := by
  unfold State.roleB
  rw [State.pairing_congr hcfg htack]

theorem brWords_congr (hcfg : t.rd (BR_CFG n) = s.rd (BR_CFG n)) (hseq : t.rd (BR_TX_SEQ n stream) = s.rd (BR_TX_SEQ n stream))
    (htx : t.rd64 (BR_SID_TX_LO n) = s.rd64 (BR_SID_TX_LO n)) (hrx : t.rd64 (BR_SID_RX_LO n) = s.rd64 (BR_SID_RX_LO n))
    (htack : t.tack = s.tack) : brWords t n typ stream body = brWords s n typ stream body := by
  have hpeer : t.getF (BR_CFG_PEER_CH n) = s.getF (BR_CFG_PEER_CH n) := State.getF_congr hcfg
  have hrole : t.roleB n = s.roleB n := State.roleB_congr hcfg htack
  have hkey : t.bridleKey n = s.bridleKey n := by
    unfold State.bridleKey State.ctx0
    rw [State.pairing_congr hcfg htack, hpeer, hrole]
  unfold brWords brBody brTag State.sidTx State.sidRx
  rw [hseq, htx, hrx, hpeer, hrole, hkey]

end

end Sys2Proof.Machine

namespace Sys2Proof.Machine

/-! ### Periodic messages, digests and probes (R266, R267) -/

section
variable {n : Fin 512} {s : State}

/-- The stream has numbers left for eight more messages (R249). -/
abbrev seqRoom (s : State) (n stream : Nat) : Prop := (s.rd (BR_TX_SEQ n stream)).toNat < 2 ^ 32 - 8

/-- A message that the session sends of itself, once nothing but its record and its state has changed. -/
theorem brSend_sent {u : State} {typ : Nat} {body : List Byte} (hu : SessionWork (· = BR_STAT n) s u)
    (hq : u.brTx = s.brTx) (hlone : s.chTwin n = false ∨ brLeadDecides typ = false) (hroom : seqRoom s n 0) :
    brSend n typ 0 1 false body u = brSent n typ 0 1 false body u ∧ Sent s (brSend n typ 0 1 false body u) n typ 0 1 false body := by
  have hw := hu.writes
  have hseq : u.rd (BR_TX_SEQ n 0) = s.rd (BR_TX_SEQ n 0) := hw _ (by simp only [BR_TX_SEQ, BR_STAT]; omega)
  have htwin : u.chTwin n = s.chTwin n := hw.isSet (f := CH_CFG_TWIN n) (by simp only [CH_CFG_TWIN, CH_CFG, BR_STAT]; omega)
  have hwords : brWords u n typ 0 body = brWords s n typ 0 body :=
    brWords_congr (hw _ (by simp only [BR_CFG, BR_STAT]; omega)) hseq
      (hw.rd64 (by simp only [BR_SID_TX_LO, BR_STAT]; omega) (by simp only [BR_SID_TX_LO, BR_STAT]; omega))
      (hw.rd64 (by simp only [BR_SID_RX_LO, BR_STAT]; omega) (by simp only [BR_SID_RX_LO, BR_STAT]; omega)) hu.tack
  have hcnt : u.rd64 (BR_CNT n 0) = s.rd64 (BR_CNT n 0) :=
    hw.rd64 (by simp only [BR_CNT, BR_STAT]; omega) (by simp only [BR_CNT, BR_STAT]; omega)
  have heq : brSend n typ 0 1 false body u = brSent n typ 0 1 false body u :=
    brSend_eq_brSent (by decide) (hlone.imp_left (htwin.trans ·)) (by rw [hseq]; omega)
  obtain ⟨h1, h2, h3⟩ := brSent_sent (n := n) (typ := typ) (stream := 0) (lane := 1) (urgent := false) (body := body) (s := u) (by decide)
  rw [heq]
  exact ⟨rfl, by rw [h1, hseq], by rw [h2, hcnt], by rw [h3, hq, hwords]⟩

/-- A message that the session sends of itself after a change of its own record alone. -/
theorem brSend_modBr {typ : Nat} {f : Session → Session} {body : List Byte}
    (hlone : s.chTwin n = false ∨ brLeadDecides typ = false) (hroom : seqRoom s n 0) :
    let t := brSend n typ 0 1 false body (s.modBr n f)
    Sent s t n typ 0 1 false body ∧ (t.chan n).br = f (s.chan n).br ∧
      t = { s with csr := t.csr, chans := t.chans, brTx := t.brTx, draws := t.draws } := by
  obtain ⟨heq, hsent⟩ := brSend_sent (u := s.modBr n f) (body := body) ((SessionWork.refl s).modBr n f) rfl hlone hroom
  refine ⟨hsent, ?_, ?_⟩
  · rw [heq]
    exact congrArg Chan.br (State.chan_modBr s n f)
  · rw [heq]
    exact (((SessionWork.refl s).modBr n f).mono (fun _ => False.elim) |>.trans brSent_work).eqv

theorem brUp_iff : s.brUp n = true ↔ 2 ≤ s.getF (BR_STAT_STATE n) := decide_eq_true_iff

theorem bridleHeartbeatSend_sent (hup : 2 ≤ s.getF (BR_STAT_STATE n)) (hroom : seqRoom s n 0) :
    Completes (exec (.bridleHeartbeatSend n) s) fun t =>
      Sent s t n brHeartbeat 0 1 false (beatBytes s.beat ++ [BitVec.ofNat 8 (s.getF POS_STAT_STATE), BitVec.ofNat 8 (s.getF (BR_STAT_EXCH n))] ++
        beBytes 4 (s.getF (KB_EPOCH_EPOCH n 0)) ++ beBytes 4 (s.getF (KB_EPOCH_EPOCH n 1))) ∧
      (t.chan n).br = { (s.chan n).br with hbCount := (s.chan n).br.hbCount + 1, posCount := (s.chan n).br.posCount + 1 } ∧
      t = { s with csr := t.csr, chans := t.chans, brTx := t.brTx, draws := t.draws } := by
  rw [exec_bridleHeartbeatSend, execBridleHeartbeatSend, if_pos (brUp_iff.2 hup)]
  exact ⟨_, rfl, brSend_modBr (.inr (by decide)) hroom⟩

theorem bridleProbeSend_sent (hup : 2 ≤ s.getF (BR_STAT_STATE n)) (hroom : seqRoom s n 0) (hint : s.getF (BR_CFG_PROBE_INT n) ≠ 0)
    (hdue : s.getF (BR_CFG_PROBE_INT n) ≤ (s.chan n).br.hbCount) :
    let p := ((s.chan n).br.probeNo + 1) % 2 ^ 32
    Completes (exec (.bridleProbeSend n) s) fun t => Sent s t n brProbe 0 1 false (beBytes 4 p ++ zeros 4) ∧
      (t.chan n).br = { (s.chan n).br with hbCount := 0, probeNo := p, probesOut := (s.chan n).br.probesOut ++ [p] } ∧
      t = { s with csr := t.csr, chans := t.chans, brTx := t.brTx, draws := t.draws } := by
  intro p
  rw [exec_bridleProbeSend, execBridleProbeSend, if_pos (by simp [brUp_iff.2 hup, hint, hdue])]
  exact ⟨_, rfl, brSend_modBr (.inr (by decide)) hroom⟩

theorem bridleProbeSend_off (hint : s.getF (BR_CFG_PROBE_INT n) = 0) :
    Completes (exec (.bridleProbeSend n) s) fun t => t = s := by
  rw [exec_bridleProbeSend, execBridleProbeSend, if_neg (by simp [hint])]
  exact ⟨s, rfl, rfl⟩

theorem bridlePositionSend_sent (hup : 2 ≤ s.getF (BR_STAT_STATE n)) (hroom : seqRoom s n 0) (hmode : s.chMode n = 1 ∨ s.chMode n = 2) :
    Completes (exec (.bridlePositionSend n) s) fun t => Sent s t n brPosition 0 1 false (positionBody s n) ∧
      (t.chan n).br = { (s.chan n).br with posCount := 0 } ∧
      t = { s with csr := t.csr, chans := t.chans, brTx := t.brTx, draws := t.draws } := by
  have hbody : positionBody (s.modBr n (fun b => { b with posCount := 0 })) n = positionBody s n := by
    have hl1 : ((s.modBr n (fun b => { b with posCount := 0 })).chan n).l1 = (s.chan n).l1 := by rw [State.chan_modBr]
    unfold positionBody
    rw [hl1]
    rfl
  rw [exec_bridlePositionSend, execBridlePositionSend, if_pos (by simp [brUp_iff.2 hup, hmode])]
  exact ⟨_, rfl, by rw [← hbody]; exact brSend_modBr (.inr (by decide)) hroom⟩

/-- The key check value a DIGEST names for a direction (R267). -/
abbrev digestKcv (s : State) (n d : Nat) : List Byte :=
  if s.isSet (KB_ROLES_CUR_V n d) then kcvOf s n d (slotOf n (s.getF (KB_ROLES_CUR_SLOT n d))) else zeros 8

theorem lineDigest_modBr (s : State) (n : Nat) (f : Session → Session) : lineDigest (s.modBr n f) n = lineDigest s n := by
  have hlen : ((s.modBr n f).chan n).epochLen = (s.chan n).epochLen := by rw [State.chan_modBr]
  unfold lineDigest
  rw [hlen]
  rfl

theorem bridleDigestSend_sent (hlone : s.chTwin n = false) (hup : 2 ≤ s.getF (BR_STAT_STATE n)) (hroom : seqRoom s n 0) :
    Completes (exec (.bridleDigestSend n) s) fun t => Sent s t n brDigest 0 1 false (digestKcv s n 0 ++ digestKcv s n 1 ++ lineDigest s n) ∧
      (t.chan n).br = { (s.chan n).br with digestDue := false } ∧
      t = { s with csr := t.csr, chans := t.chans, brTx := t.brTx, draws := t.draws } := by
  rw [exec_bridleDigestSend, execBridleDigestSend, if_pos (by simp [brUp_iff.2 hup, hlone])]
  exact ⟨_, rfl, by rw [← lineDigest_modBr s n (fun b => { b with digestDue := false })]; exact brSend_modBr (.inl hlone) hroom⟩

/-! ### The offer of an exchange, and its retry (R256, R258) -/

/-- Body of the KEM_OFFER an exchange sends now (R254, R256). -/
def kemOfferBody (s : State) (x : Exch) : List Byte :=
  beBytes 4 x.epoch ++ bytesOf 32 (Config.x25519Pub s.draw.1) ++ bytesOf 1568 (Config.mlkemPub s.draw.1)

/-- An exchange that has drawn its key pairs, with the attempt counted (R256, R258). -/
def kemOffered (n : Nat) (x : Exch) (s : State) : State :=
  (s.draw.2.modBr n (fun b => { b with exch := some { x with
    seed := s.draw.1
    offer := brBody s n brKemOffer 0 ((s.rd (BR_TX_SEQ n 0)).toNat + 1) (kemOfferBody s x) ++ zeros 16
    tries := x.tries + 1 } })).setF (BR_STAT_TRIES n) (min 7 (x.tries + 1))

theorem kemOffered_spec (n : Nat) (x : Exch) (s : State) :
    let t := kemOffered n x s
    SessionWork (· = BR_STAT n) s t ∧ t.brTx = s.brTx ∧
      (t.chan n).br.exch = some { x with
        seed := s.draw.1
        offer := brBody s n brKemOffer 0 ((s.rd (BR_TX_SEQ n 0)).toNat + 1) (kemOfferBody s x) ++ zeros 16
        tries := x.tries + 1 } ∧ t.getF (BR_STAT_TRIES n) = min 7 (x.tries + 1) := by
  refine ⟨((SessionWork.refl s).draw.modBr n _).setF rfl, rfl, ?_, ?_⟩
  · rw [kemOffered, State.chan_setF, State.chan_modBr]
  · rw [kemOffered, State.getF_setF_same _ _ _ (by decide : (13 : Nat) ≤ 15) (by decide : (15 : Nat) < 32)]
    exact Nat.mod_eq_of_lt (by show min 7 (x.tries + 1) < 8; omega)

theorem kemOfferSend_sent {x : Exch} (hlone : s.chTwin n = false) (hx : (s.chan n).br.exch = some x) (hini : x.initiator = true)
    (hoffer : x.offer = []) (hup : 2 ≤ s.getF (BR_STAT_STATE n)) (hrandom : s.noRandom = false) (hroom : seqRoom s n 0) :
    Completes (exec (.kemOfferSend n) s) fun t =>
      Sent s t n brKemOffer 0 1 false (kemOfferBody s x) ∧
      t.getF (BR_STAT_TRIES n) = min 7 (x.tries + 1) ∧ (t.chan n).br.exch.map (·.tries) = some (x.tries + 1) ∧
      (t.chan n).br.exch.map (·.seed) = some s.draw.1 ∧
      t = { s with csr := t.csr, chans := t.chans, brTx := t.brTx, draws := t.draws } := by
  have hguard : (x.initiator && x.offer.isEmpty && s.brUp n && !s.noRandom) = true := by simp [hini, hoffer, brUp_iff.2 hup, hrandom]
  have hexec : exec (.kemOfferSend n) s = .next (brSend n brKemOffer 0 1 false (kemOfferBody s x) (kemOffered n x s)) := by
    rw [exec_kemOfferSend, execKemOfferSend]
    simp only [hx, if_pos hguard]
    rfl
  obtain ⟨hwork, hq, hexch, htries⟩ := kemOffered_spec n x s
  obtain ⟨heq, hsent⟩ := brSend_sent (typ := brKemOffer) (body := kemOfferBody s x) hwork hq (.inl hlone) hroom
  have hchan : (brSent n brKemOffer 0 1 false (kemOfferBody s x) (kemOffered n x s)).chan n = (kemOffered n x s).chan n := rfl
  rw [hexec]
  refine ⟨_, rfl, hsent, ?_⟩
  rw [heq, hchan, hexch]
  refine ⟨?_, rfl, rfl, ((hwork.mono (fun _ h => Or.inl h)).trans (brSent_work.mono (fun _ h => Or.inr h))).eqv⟩
  exact (brSent_writes.getF (by simp only [sentOff, BR_STAT_TRIES, BR_STAT, BR_TX_SEQ, BR_CNT]; omega)).trans htries

theorem kemRetryTimeout_again {x : Exch} (hx : (s.chan n).br.exch = some x) (hini : x.initiator = true) (hoffer : x.offer ≠ [])
    (hsent : x.sent = false) (htries : x.tries < 8) :
    Completes (exec (.kemRetryTimeout n) s) fun t =>
      (t.chan n).br = { (s.chan n).br with exch := some { x with offer := [], accept := [], ss := [], sent := false } } ∧
      t = { s with chans := t.chans } := by
  have hempty : x.offer.isEmpty = false := List.isEmpty_eq_false_iff.2 hoffer
  rw [exec_kemRetryTimeout, execKemRetryTimeout]
  simp only [hx, hini, hempty, hsent, Bool.not_false, Bool.and_self, if_true, attemptFailed, ge_iff_le, if_neg (Nat.not_le.2 htries)]
  exact ⟨_, rfl, congrArg Chan.br (State.chan_modChan_same s n _), rfl⟩

end

end Sys2Proof.Machine

namespace Sys2Proof.Machine

/-! ### Set-up of a session (R248, R249) -/

/-- The registers of a session before its counters. -/
abbrev sessionOff (n o : Nat) : Prop := BR_STAT n ≤ o ∧ o < BR_CNT n 0

/-- The streams of a session start again (R249). -/
def streamsReset (n : Nat) (s : State) : State := [0, 1, 2].foldl (fun s i => (s.wr (BR_TX_SEQ n i) 0).wr (BR_RX_SEQ n i) 0) s

/-- A new session identifier is drawn, that of the far end is not known, and the state is SETUP (R248, R249). -/
def sidDrawn (n : Nat) (s : State) : State :=
  ((s.draw.2.wr64 (BR_SID_TX_LO n) (BitVec.ofNat 64 s.draw.1)).wr64 (BR_SID_RX_LO n) 0).setF (BR_STAT_STATE n) 1

/-- BR_STAT shows no exchange, and the channel's role (R248). -/
def statCleared (n : Nat) (s : State) : State :=
  let s := (s.setF (BR_STAT_EXCH n) 0).setF (BR_STAT_TRIES n) 0
  s.setF (BR_STAT_ROLE n) (s.roleB n).toNat

/-- A session that has entered SETUP and has not yet said HELLO (R248, R249). -/
def setupEntered (n : Nat) (s : State) : State := statCleared n ((streamsReset n (sidDrawn n s)).modBr n (fun _ => Session.reset))

theorem enterSetup_eq (n : Nat) (s : State) : enterSetup n s = sendHello n (setupEntered n s) := rfl

section
variable {n : Nat} {s : State}

theorem streamsReset_rd (o : Nat) : (streamsReset n s).rd o =
    if o = BR_TX_SEQ n 0 ∨ o = BR_TX_SEQ n 1 ∨ o = BR_TX_SEQ n 2 ∨ o = BR_RX_SEQ n 0 ∨ o = BR_RX_SEQ n 1 ∨ o = BR_RX_SEQ n 2 then 0
    else s.rd o := by
  simp only [streamsReset, List.foldl_cons, List.foldl_nil, State.rd_wr]
  grind

/-- The streams' numbers are not the session's identifiers and state. -/
theorem streamsReset_rd_ne {o : Nat} (ho : o = BR_STAT n ∨ (BR_SID_TX_LO n ≤ o ∧ o ≤ BR_SID_RX_LO n + 4)) : (streamsReset n s).rd o = s.rd o := by
  rw [streamsReset_rd, if_neg]
  simp only [BR_STAT, BR_SID_TX_LO, BR_SID_RX_LO, BR_TX_SEQ, BR_RX_SEQ] at ho ⊢
  omega

theorem statCleared_rd {o : Nat} (ho : BR_STAT n ≠ o) : (statCleared n s).rd o = s.rd o :=
  (State.rd_setF_ne _ _ _ _ ho).trans ((State.rd_setF_ne _ _ _ _ ho).trans (State.rd_setF_ne _ _ _ _ ho))

theorem statCleared_state : (statCleared n s).getF (BR_STAT_STATE n) = s.getF (BR_STAT_STATE n) := by
  unfold statCleared
  rw [State.getF_setF_apart _ _ _ _ rfl, State.getF_setF_apart _ _ _ _ rfl, State.getF_setF_apart _ _ _ _ rfl]

theorem sidDrawn_work : SessionWork (sessionOff n) s (sidDrawn n s) := by
  refine (((SessionWork.refl s).draw.wr64 ?_ ?_).wr64 ?_ ?_).setF ?_ <;>
    simp only [sessionOff, BR_STAT_STATE, BR_STAT, BR_CNT, BR_SID_TX_LO, BR_SID_RX_LO] <;> omega

theorem streamsReset_work : SessionWork (sessionOff n) s (streamsReset n s) := by
  refine SessionWork.foldl _ (fun u i hi => ((SessionWork.refl u).wr ?_).wr ?_) s <;>
    simp only [sessionOff, BR_STAT, BR_CNT, BR_TX_SEQ, BR_RX_SEQ, List.mem_cons, List.not_mem_nil, or_false] at hi ⊢ <;> omega

theorem statCleared_work : SessionWork (sessionOff n) s (statCleared n s) := by
  have h : sessionOff n (BR_STAT n) := by simp only [sessionOff, BR_STAT, BR_CNT]; omega
  exact (((SessionWork.refl s).setF h).setF h).setF h

theorem setupEntered_work : SessionWork (sessionOff n) s (setupEntered n s) :=
  ((sidDrawn_work.trans streamsReset_work).modBr n _).trans statCleared_work

theorem setupEntered_brTx : (setupEntered n s).brTx = s.brTx := by
  rw [setupEntered, statCleared, State.setF_brTx, State.setF_brTx, State.setF_brTx]
  rfl

theorem setupEntered_br : ((setupEntered n s).chan n).br = Session.reset := by
  rw [setupEntered, statCleared, State.chan_setF, State.chan_setF, State.chan_setF, State.chan_modBr]

theorem statCleared_role (hn : n < 512) : (statCleared n s).getF (BR_STAT_ROLE n) = (s.roleB n).toNat := by
  have hrole : ((s.setF (BR_STAT_EXCH n) 0).setF (BR_STAT_TRIES n) 0).roleB n = s.roleB n := by
    have hne : BR_STAT n ≠ BR_CFG n := by simp only [BR_STAT, BR_CFG]; omega
    refine State.roleB_congr ((State.rd_setF_ne _ _ _ _ hne).trans (State.rd_setF_ne _ _ _ _ hne)) ?_
    rw [State.setF_tack, State.setF_tack]
  rw [← hrole]
  refine (State.getF_setF_same _ _ _ (by decide : (2 : Nat) ≤ 2) (by decide : (2 : Nat) < 32)).trans ?_
  exact Nat.mod_eq_of_lt (Bool.toNat_lt _)

theorem setupEntered_state : (setupEntered n s).getF (BR_STAT_STATE n) = 1 := by
  rw [setupEntered, statCleared_state, State.getF_congr (State.modBr_rd _ _ _ _), State.getF_congr (streamsReset_rd_ne (.inl rfl))]
  exact State.getF_setF_same _ _ _ (by decide : (0 : Nat) ≤ 1) (by decide : (1 : Nat) < 32)

theorem setupEntered_role (hn : n < 512) : (setupEntered n s).getF (BR_STAT_ROLE n) = (s.roleB n).toNat := by
  have hcfg : ¬ sessionOff n (BR_CFG n) := by simp only [sessionOff, BR_STAT, BR_CNT, BR_CFG]; omega
  rw [setupEntered, statCleared_role hn]
  rw [State.roleB_congr ((State.modBr_rd _ _ _ _).trans ((sidDrawn_work.trans streamsReset_work).writes _ hcfg))
    ((State.modBr_tack _ _ _).trans (sidDrawn_work.trans streamsReset_work).tack)]

theorem setupEntered_rd {o : Nat} (ho : o ≠ BR_STAT n) : (setupEntered n s).rd o = (streamsReset n (sidDrawn n s)).rd o :=
  (statCleared_rd (Ne.symm ho)).trans (State.modBr_rd _ _ _ _)

theorem setupEntered_seq (i : Nat) (hi : i < 3) : (setupEntered n s).rd (BR_TX_SEQ n i) = 0 ∧ (setupEntered n s).rd (BR_RX_SEQ n i) = 0 := by
  rw [setupEntered_rd (by simp only [BR_TX_SEQ, BR_STAT]; omega), setupEntered_rd (by simp only [BR_RX_SEQ, BR_STAT]; omega),
    streamsReset_rd, streamsReset_rd]
  interval_cases i <;> exact ⟨if_pos (by simp), if_pos (by simp)⟩

theorem setupEntered_rd64 {o : Nat} (ho : o = BR_SID_TX_LO n ∨ o = BR_SID_RX_LO n) : (setupEntered n s).rd64 o = (sidDrawn n s).rd64 o := by
  refine State.rd64_congr ?_ ?_ <;> rw [setupEntered_rd, streamsReset_rd_ne (.inr _)] <;>
    simp only [BR_SID_TX_LO, BR_SID_RX_LO, BR_STAT] at ho ⊢ <;> omega

theorem setupEntered_sids : (setupEntered n s).rd64 (BR_SID_TX_LO n) = BitVec.ofNat 64 s.draw.1 ∧ (setupEntered n s).rd64 (BR_SID_RX_LO n) = 0 := by
  rw [setupEntered_rd64 (.inl rfl), setupEntered_rd64 (.inr rfl), sidDrawn, State.rd64_setF_ne, State.rd64_setF_ne, State.rd64_wr64_same,
    State.rd64_wr64_ne, State.rd64_wr64_same]
  · exact ⟨rfl, rfl⟩
  all_goals simp only [BR_SID_TX_LO, BR_SID_RX_LO, BR_STAT_STATE, BR_STAT]; omega

end

/-! ### HELLO (R248, R255) -/

section
variable {n : Fin 512} {s : State}

theorem sendHello_of_can (hcan : canHello s n = true) (hlone : s.chTwin n = false) (hroom : seqRoom s n 0) :
    ∃ body, sendHello n s = brSent n brHello 0 1 false body s := by
  unfold sendHello
  rw [if_pos hcan]
  exact ⟨_, brSend_eq_brSent (by decide) (.inl hlone) (by omega)⟩

theorem sendHello_of_not (hcan : canHello s n = false) : sendHello n s = s := by
  unfold sendHello
  rw [if_neg (by rw [hcan]; exact Bool.false_ne_true)]

theorem helloResend_sent (hlone : s.chTwin n = false) (hst : s.getF (BR_STAT_STATE n) = 1) (hcan : canHello s n = true) (hroom : seqRoom s n 0) :
    Completes (exec (.helloResend n) s) fun t => Queued s t n [brHello] ∧ t.rd (BR_TX_SEQ n 0) = s.rd (BR_TX_SEQ n 0) + 1 ∧
      t = { s with csr := t.csr, brTx := t.brTx } := by
  obtain ⟨body, heq⟩ := sendHello_of_can hcan hlone hroom
  rw [exec_helloResend, execHelloResend, if_pos hst, heq]
  exact ⟨_, rfl, brSent_queued (by decide) rfl, brSent_rd_txSeq (by decide), rfl⟩

/-- A session has entered SETUP (R248, R249): a fresh identifier, streams from the start, nothing left of an earlier session, HELLO said. -/
abbrev SetupDone (s t : State) (n : Nat) : Prop :=
  t.getF (BR_STAT_STATE n) = 1 ∧ t.rd64 (BR_SID_TX_LO n) = BitVec.ofNat 64 s.draw.1 ∧ t.rd64 (BR_SID_RX_LO n) = 0 ∧
    (t.chan n).br = Session.reset ∧ t.getF (BR_STAT_ROLE n) = (s.roleB n).toNat ∧ t.rd (BR_RX_SEQ n 0) = 0 ∧ t.rd (BR_TX_SEQ n 1) = 0 ∧
    (if canHello s n then t.rd (BR_TX_SEQ n 0) = 1 ∧ Queued s t n [brHello] else t.rd (BR_TX_SEQ n 0) = 0 ∧ t.brTx = s.brTx) ∧
    t = { s with csr := t.csr, chans := t.chans, brTx := t.brTx, draws := t.draws }

theorem setupEntered_canHello : canHello (setupEntered n s) n = canHello s n := by
  have h : ∀ f : Fld, (¬ sessionOff n f.off) → (setupEntered n s).isSet f = s.isSet f := fun f hf => setupEntered_work.writes.isSet hf
  have hfollow : (setupEntered n s).isFollower = s.isFollower := by
    unfold State.isFollower
    rw [setupEntered_work.writes.getF (by simp only [sessionOff, TW_STAT_STATE, TW_STAT, BR_STAT, BR_CNT]; omega)]
  unfold canHello State.chTwin
  rw [h _ (by simp only [sessionOff, TR_STAT_ID_VALID, TR_STAT, BR_STAT, BR_CNT]; omega),
    h _ (by simp only [sessionOff, CH_CFG_TWIN, CH_CFG, BR_STAT, BR_CNT]; omega), hfollow,
    State.pairing_congr (setupEntered_work.writes _ (by simp only [sessionOff, BR_STAT, BR_CNT, BR_CFG]; omega)) setupEntered_work.tack]

theorem enterSetup_done (hlone : s.chTwin n = false) : SetupDone s (enterSetup n s) n := by
  have htwin : (setupEntered n s).chTwin n = false :=
    (setupEntered_work.writes.isSet (f := CH_CFG_TWIN n) (by simp only [sessionOff, CH_CFG_TWIN, CH_CFG, BR_STAT, BR_CNT]; omega)).trans hlone
  obtain ⟨htx, hrx⟩ := setupEntered_sids (n := n) (s := s)
  have htx0 := (setupEntered_seq (n := n) (s := s) 0 (by decide)).1
  have hrx0 := (setupEntered_seq (n := n) (s := s) 0 (by decide)).2
  have htx1 := (setupEntered_seq (n := n) (s := s) 1 (by decide)).1
  rw [enterSetup_eq]
  by_cases hcan : canHello s n = true
  · obtain ⟨body, heq⟩ := sendHello_of_can (setupEntered_canHello.trans hcan) htwin (by rw [seqRoom, htx0]; decide)
    have hw := brSent_writes (n := n) (typ := brHello) (stream := 0) (lane := 1) (urgent := false) (body := body) (s := setupEntered n s)
    have hoff : ∀ o, o = BR_STAT n ∨ (BR_RX_SEQ n 0 ≤ o ∧ o < BR_CNT n 0) ∨ o = BR_TX_SEQ n 1 → ¬ sentOff n 0 o := by
      simp only [sentOff, BR_STAT, BR_RX_SEQ, BR_CNT, BR_TX_SEQ]; omega
    have hsid : ∀ o, o = BR_SID_TX_LO n ∨ o = BR_SID_RX_LO n → ¬ sentOff n 0 o ∧ ¬ sentOff n 0 (o + 4) := by
      intro o ho
      constructor <;> refine hoff _ (.inr (.inl ?_)) <;> simp only [BR_SID_TX_LO, BR_SID_RX_LO, BR_RX_SEQ, BR_CNT] at ho ⊢ <;> omega
    rw [heq]
    refine ⟨(hw.getF (hoff _ (.inl rfl))).trans setupEntered_state, ?_, ?_, (congrArg Chan.br (brSent_chan _)).trans setupEntered_br, (hw.getF (hoff _ (.inl rfl))).trans (setupEntered_role n.isLt),
      (hw _ (hoff _ (.inr (.inl ⟨Nat.le_refl _, by simp only [BR_RX_SEQ, BR_CNT]; omega⟩)))).trans hrx0,
      (hw _ (hoff _ (.inr (.inr rfl)))).trans htx1, ?_,
      ((setupEntered_work.mono (fun _ h => Or.inl h)).trans (brSent_work.mono (fun _ h => Or.inr h))).eqv⟩
    · exact (hw.rd64 (hsid _ (.inl rfl)).1 (hsid _ (.inl rfl)).2).trans htx
    · exact (hw.rd64 (hsid _ (.inr rfl)).1 (hsid _ (.inr rfl)).2).trans hrx
    · rw [if_pos hcan]
      exact ⟨(brSent_rd_txSeq (by decide)).trans (by rw [htx0]; rfl), brSent_queued (by decide) setupEntered_brTx⟩
  · rw [Bool.not_eq_true] at hcan
    rw [sendHello_of_not (setupEntered_canHello.trans hcan)]
    refine ⟨setupEntered_state, htx, hrx, setupEntered_br, setupEntered_role n.isLt, hrx0, htx1, ?_, setupEntered_work.eqv⟩
    rw [if_neg (by rw [hcan]; exact Bool.false_ne_true)]
    exact ⟨htx0, setupEntered_brTx⟩

theorem bridleSessionSetup_done (hlone : s.chTwin n = false) (hruns : s.brRuns n = true) (hst : s.getF (BR_STAT_STATE n) = 0)
    (hpair : (s.pairing n).isSome = true) (hrandom : s.noRandom = false) :
    Completes (exec (.bridleSessionSetup n) s) (SetupDone s · n) := by
  rw [exec_bridleSessionSetup, execBridleSessionSetup, if_pos (by simp [hruns, hst, hpair, hrandom])]
  exact ⟨_, rfl, enterSetup_done hlone⟩

theorem bridleSidRollover_done (hlone : s.chTwin n = false) (hup : 2 ≤ s.getF (BR_STAT_STATE n)) (hlast : s.rd (BR_TX_SEQ n 0) = 0xFFFFFFFF) :
    Completes (exec (.bridleSidRollover n) s) fun t => SetupDone s t n ∧ t.tack = s.tack := by
  rw [exec_bridleSidRollover, execBridleSidRollover, if_pos (by simp [brUp_iff.2 hup, hlast])]
  have hdone := enterSetup_done (n := n) (s := s) hlone
  obtain ⟨-, -, -, -, -, -, -, -, hkept⟩ := id hdone
  exact ⟨_, rfl, hdone, by rw [hkept]⟩

end

end Sys2Proof.Machine

/-!
SUPPORT. The fall of a session (spec/10 R265): what switches, slots and mutes do on the way down leaves the reporter, the cores and the
position unit alone.
-/

namespace Sys2Proof.Machine

/-! ### Who reports -/

/-- A report of a unit would read the same in `t` as in `s`: same queue, same stamp, same device (R505, R507). -/
structure SameReporter (unit : Nat) (s t : State) : Prop where
  queue : tblGet [] unit t.ledger.queues = tblGet [] unit s.ledger.queues
  stamp : t.stamp = s.stamp
  origin : t.origin unit = s.origin unit

section
variable {unit : Nat} {P : Nat → Prop} {s t u : State}

theorem SameReporter.trans (h : SameReporter unit s t) (g : SameReporter unit t u) : SameReporter unit s u :=
  ⟨g.queue.trans h.queue, g.stamp.trans h.stamp, g.origin.trans h.origin⟩

theorem SameReporter.reports {code path data : Nat} (h : SameReporter unit s t) (hr : Reports t u unit code path data) :
    Reports s u unit code path data := by
  unfold Reports at hr ⊢
  rw [hr, h.queue, h.stamp, h.origin]

/-- The registers a report reads. -/
abbrev reporterOff (o : Nat) : Prop := o = POS_NOW_LO ∨ o = POS_NOW_LO + 4 ∨ o = FAB_ID

theorem Writes.sameReporter (h : Writes P s t) (hP : ∀ o, reporterOff o → ¬ P o)
    (hq : tblGet [] unit t.ledger.queues = tblGet [] unit s.ledger.queues) : SameReporter unit s t := by
  refine ⟨hq, h.rd64 (hP _ (.inl rfl)) (hP _ (.inr (.inl rfl))), ?_⟩
  unfold State.origin State.devId
  rw [h.getF (f := FAB_ID_DEV_ID) (hP _ (.inr (.inr rfl)))]

theorem Quiet.writes (h : Quiet s t) : Writes (¬ quietOff ·) s t := fun o ho => h.rd o (not_not.1 ho)

theorem reporterOff_quiet {o : Nat} (h : reporterOff o) : quietOff o := by
  rcases h with rfl | rfl | rfl <;> decide

theorem Quiet.sameReporter (h : Quiet s t) (hq : tblGet [] unit t.ledger.queues = tblGet [] unit s.ledger.queues) : SameReporter unit s t :=
  h.writes.sameReporter (fun _ ho hn => hn (reporterOff_quiet ho)) hq

/-- A report leaves the queues of the other units alone (R507). -/
theorem State.report_queue_ne {other : Nat} (code path data : Nat) (h : unit ≠ other) :
    tblGet [] other (s.report unit code path data).ledger.queues = tblGet [] other s.ledger.queues := by
  unfold State.report State.addReport
  extract_lets q l s1
  have h1 : tblGet [] other s1.ledger.queues = tblGet [] other s.ledger.queues := tblGet_tblSet_ne _ _ _ _ _ _ h
  have hraise : (fstateRaise q.2 1 s1).ledger = s1.ledger := by rw [fstateRaise, State.cntSat_ledger, State.setF_ledger]
  clear_value s1
  split
  · exact h1
  · rw [State.countDrop_queues, hraise]
    exact h1

/-- A Bridle event is in the Bridle's queue (R271). -/
theorem brReport_reports (code src n data : Nat) (s : State) :
    Reports s (brReport code src n data s) unitBridle code n (n % 65536 + data * 65536) := by
  unfold Reports brReport
  rw [bellPulse_ledger]
  exact State.report_reports _ _ _ _ _

theorem brReport_quiet (code src n data : Nat) (s : State) : Quiet s (brReport code src n data s) :=
  (report_quiet _ _ _ _ _).trans (bellPulse_quiet _ _)

end

/-! ### Switches, keys and messages -/

/-- Switches, keys and messages of sessions lead from `s` to `t`: no register but those `P` admits, no report, no interrupt. -/
structure KeyWork (P : Nat → Prop) (s t : State) : Prop where
  writes : Writes P s t
  eqv : t = { s with csr := t.csr, chans := t.chans, tack := t.tack, brTx := t.brTx, loftQ := t.loftQ, tally := t.tally, draws := t.draws }

section
variable {P Q : Nat → Prop} {s t u : State}

theorem KeyWork.refl (s : State) : KeyWork P s s := ⟨.refl s, rfl⟩

theorem KeyWork.trans (h : KeyWork P s t) (g : KeyWork P t u) : KeyWork P s u := ⟨h.writes.trans g.writes, by rw [g.eqv, h.eqv]⟩

theorem KeyWork.mono (h : KeyWork P s t) (hPQ : ∀ o, P o → Q o) : KeyWork Q s t := ⟨h.writes.mono hPQ, h.eqv⟩

theorem KeyWork.ite {c : Prop} [Decidable c] (h : KeyWork P s t) (g : KeyWork P s u) : KeyWork P s (if c then t else u) := by
  split <;> assumption

theorem KeyWork.wr {o : Nat} {v : Word} (h : KeyWork P s t) (ho : P o) : KeyWork P s (t.wr o v) := h.trans ⟨(Writes.refl t).wr ho, rfl⟩

theorem KeyWork.setF {f : Fld} {v : Nat} (h : KeyWork P s t) (ho : P f.off) : KeyWork P s (t.setF f v) := h.wr ho

theorem KeyWork.wr64 {o : Nat} {v : DWord} (h : KeyWork P s t) (ho : P o) (h4 : P (o + 4)) : KeyWork P s (t.wr64 o v) := (h.wr ho).wr h4

theorem KeyWork.modChan (h : KeyWork P s t) (n : Nat) (f : Chan → Chan) : KeyWork P s (t.modChan n f) :=
  h.trans ⟨(Writes.refl t).csr rfl, rfl⟩

theorem KeyWork.withTack (h : KeyWork P s t) (x : Tack) : KeyWork P s { t with tack := x } := h.trans ⟨(Writes.refl t).csr rfl, rfl⟩

theorem KeyWork.withTally (h : KeyWork P s t) (x : Tally) : KeyWork P s { t with tally := x } := h.trans ⟨(Writes.refl t).csr rfl, rfl⟩

theorem KeyWork.withBrTx (h : KeyWork P s t) (x : List BrOut) : KeyWork P s { t with brTx := x } := h.trans ⟨(Writes.refl t).csr rfl, rfl⟩

theorem KeyWork.withLoftQ (h : KeyWork P s t) (x : List LoftWrite) : KeyWork P s { t with loftQ := x } :=
  h.trans ⟨(Writes.refl t).csr rfl, rfl⟩

theorem KeyWork.foldl {α : Type} {f : State → α → State} (l : List α) (hf : ∀ u, ∀ a ∈ l, KeyWork P u (f u a)) (s : State) :
    KeyWork P s (l.foldl f s) := by
  induction l generalizing s with
  | nil => exact .refl s
  | cons a l ih =>
    exact (hf s a (List.mem_cons_self ..)).trans (ih (fun u b hb => hf u b (List.mem_cons_of_mem _ hb)) _)

theorem SessionWork.keyWork (h : SessionWork P s t) : KeyWork P s t := ⟨h.writes, by rw [h.eqv]⟩

theorem KeyWork.ledger (h : KeyWork P s t) : t.ledger = s.ledger := by rw [h.eqv]
theorem KeyWork.cores (h : KeyWork P s t) : t.cores = s.cores := by rw [h.eqv]
theorem KeyWork.pos (h : KeyWork P s t) : t.pos = s.pos := by rw [h.eqv]
theorem KeyWork.units (h : KeyWork P s t) : t.units = s.units := by rw [h.eqv]
theorem KeyWork.twin (h : KeyWork P s t) : t.twin = s.twin := by rw [h.eqv]
theorem KeyWork.fab (h : KeyWork P s t) : t.fab = s.fab := by rw [h.eqv]

theorem KeyWork.sameReporter {unit : Nat} (h : KeyWork P s t) (hP : ∀ o, reporterOff o → ¬ P o) : SameReporter unit s t :=
  h.writes.sameReporter hP (by rw [h.ledger])

end

/-- Registers alone, and Tally's record, lead from `s` to `t`. -/
structure RegWork (P : Nat → Prop) (s t : State) : Prop where
  writes : Writes P s t
  eqv : t = { s with csr := t.csr, tally := t.tally }

section
variable {P Q : Nat → Prop} {s t u : State}

theorem RegWork.refl (s : State) : RegWork P s s := ⟨.refl s, rfl⟩

theorem RegWork.trans (h : RegWork P s t) (g : RegWork P t u) : RegWork P s u := ⟨h.writes.trans g.writes, by rw [g.eqv, h.eqv]⟩

theorem RegWork.wr {o : Nat} {v : Word} (h : RegWork P s t) (ho : P o) : RegWork P s (t.wr o v) := h.trans ⟨(Writes.refl t).wr ho, rfl⟩

theorem RegWork.setF {f : Fld} {v : Nat} (h : RegWork P s t) (ho : P f.off) : RegWork P s (t.setF f v) := h.wr ho

theorem RegWork.wr64 {o : Nat} {v : DWord} (h : RegWork P s t) (ho : P o) (h4 : P (o + 4)) : RegWork P s (t.wr64 o v) := (h.wr ho).wr h4

theorem RegWork.withTally (h : RegWork P s t) (x : Tally) : RegWork P s { t with tally := x } := h.trans ⟨(Writes.refl t).csr rfl, rfl⟩

theorem RegWork.keyWork (h : RegWork P s t) (hPQ : ∀ o, P o → Q o) : KeyWork Q s t := ⟨h.writes.mono hPQ, by rw [h.eqv]⟩

theorem RegWork.chan (h : RegWork P s t) (n : Nat) : t.chan n = s.chan n := State.chan_congr (by rw [h.eqv]) n
theorem RegWork.tack (h : RegWork P s t) : t.tack = s.tack := by rw [h.eqv]
theorem RegWork.brTx (h : RegWork P s t) : t.brTx = s.brTx := by rw [h.eqv]
theorem RegWork.loftQ (h : RegWork P s t) : t.loftQ = s.loftQ := by rw [h.eqv]

end

/-! ### A switch disarmed -/

/-- The switch frame of a direction in layer-1 mode is cleared as its switch is disarmed (R204). -/
def frameCleared (n d : Nat) (s : State) : State :=
  if s.chMode n = 2 then s.wr64 (if d = 0 then CH_MODE_W1_LO n else CH_MODE_W2_LO n) (BitVec.allOnes 64) else s

/-- A register of Tally. -/
abbrev tallyOff (o : Nat) : Prop := o / 2 ^ 24 = 0x2B

/-- A word of a key block that shows a switch (R227). -/
abbrev armedOff (n d o : Nat) : Prop := o = KB_ROLES n d ∨ o = KB_SW_BEAT_LO n d ∨ o = KB_SW_BEAT_HI n d

/-- A switch frame of a layer-1 channel (R203). -/
abbrev frameOff (n o : Nat) : Prop := CH_MODE_W1_LO n ≤ o ∧ o < CH_MODE_W3_HI n

/-- A register of Tally's, or of a channel's from its key block to the switch frames of its mode. -/
abbrev switchOff (n o : Nat) : Prop := tallyOff o ∨ (KB_ROLES n 0 ≤ o ∧ o < CH_MODE_W3_HI n)

section
variable {n d : Nat} {s : State}

theorem commitT120_regWork (s : State) : RegWork tallyOff s (commitT120 s) := by
  have hcfg : tallyOff (TCFG 120) := by decide
  have h : RegWork tallyOff s ((s.setF (TCFG_EN 120) 1).setF (TCFG_SRC 120) 3) := ((RegWork.refl s).setF hcfg).setF hcfg
  unfold commitT120
  extract_lets s1
  split
  · exact (((h.wr64 (by decide) (by decide)).wr (by decide)).withTally _).setF (by decide)
  · exact h.setF (by decide)

theorem showArmed_regWork (w : Option Switch) : RegWork (armedOff n d) s (showArmed n d w s) := by
  have h : ∀ v, RegWork (armedOff n d) s (s.setF (KB_ROLES_SW_ARMED n d) v) := fun v => (RegWork.refl s).setF (.inl rfl)
  unfold showArmed
  split
  · exact ((h 1).wr (.inr (.inl rfl))).setF (.inr (.inr rfl))
  · exact h 0

theorem frameCleared_regWork : RegWork (frameOff n) s (frameCleared n d s) := by
  have h : ∀ v, RegWork (frameOff n) s (s.wr64 (if d = 0 then CH_MODE_W1_LO n else CH_MODE_W2_LO n) v) := by
    intro v
    split <;> refine (RegWork.refl s).wr64 ?_ ?_ <;> simp only [frameOff, CH_MODE_W1_LO, CH_MODE_W2_LO, CH_MODE_W3_HI] <;> omega
  unfold frameCleared
  split
  · exact h _
  · exact .refl s

theorem disarmSwitch_eq : disarmSwitch n d s = commitT120 (showArmed n d none (frameCleared n d (s.modChan n (fun c => c.setSw d none)))) := rfl

theorem commitT120_work (s : State) : KeyWork (switchOff n) s (commitT120 s) := (commitT120_regWork s).keyWork (fun _ => .inl)

theorem showArmed_work (hd : d < 2) (w : Option Switch) : KeyWork (switchOff n) s (showArmed n d w s) :=
  (showArmed_regWork w).keyWork (fun o ho => by
    simp only [armedOff, switchOff, KB_ROLES, KB_SW_BEAT_LO, KB_SW_BEAT_HI, CH_MODE_W3_HI] at ho ⊢
    omega)

theorem disarmSwitch_work (hd : d < 2) : KeyWork (switchOff n) s (disarmSwitch n d s) := by
  have hframe : ∀ u, KeyWork (switchOff n) u (frameCleared n d u) := fun u => frameCleared_regWork.keyWork (fun o ho => by
    simp only [frameOff, switchOff, KB_ROLES, CH_MODE_W1_LO] at ho ⊢
    omega)
  rw [disarmSwitch_eq]
  exact ((((KeyWork.refl s).modChan n _).trans (hframe _)).trans (showArmed_work hd _)).trans (commitT120_work _)

theorem disarmSwitch_chan : (disarmSwitch n d s).chan n = (s.chan n).setSw d none := by
  rw [disarmSwitch_eq, (commitT120_regWork _).chan, (showArmed_regWork _).chan, frameCleared_regWork.chan, State.chan_modChan_same]

theorem State.rd_setF_congr {s t : State} {f : Fld} {o : Nat} (v : Nat) (hf : t.rd f.off = s.rd f.off) (ho : t.rd o = s.rd o) :
    (t.setF f v).rd o = (s.setF f v).rd o := by
  unfold State.setF
  rw [State.rd_wr, State.rd_wr, hf, ho]

/-- Of the roles the disarming of a switch writes that bit alone (R227). -/
theorem disarmSwitch_rd_roles {e : Nat} (hn : n < 512) (hd : d < 2) (he : e < 2) :
    (disarmSwitch n d s).rd (KB_ROLES n e) = (s.setF (KB_ROLES_SW_ARMED n d) 0).rd (KB_ROLES n e) := by
  have hfree : ∀ e, e < 2 → (frameCleared n d (s.modChan n (fun c => c.setSw d none))).rd (KB_ROLES n e) = s.rd (KB_ROLES n e) := fun e he =>
    frameCleared_regWork.writes _ (by simp only [frameOff, KB_ROLES, CH_MODE_W1_LO]; omega)
  rw [disarmSwitch_eq, (commitT120_regWork _).writes _ (by simp only [tallyOff, KB_ROLES]; omega)]
  exact State.rd_setF_congr 0 (hfree d hd) (hfree e he)

theorem disarmSwitch_getF {f : Fld} {e : Nat} (hn : n < 512) (hd : d < 2) (he : e < 2) (hf : f.off = KB_ROLES n e) :
    (disarmSwitch n d s).getF f = (s.setF (KB_ROLES_SW_ARMED n d) 0).getF f :=
  State.getF_congr (by rw [hf]; exact disarmSwitch_rd_roles hn hd he)

end

end Sys2Proof.Machine

namespace Sys2Proof.Machine

section
variable {n d : Nat} {s : State}

/-- Both directions of a channel are disarmed (R265). -/
def disarmBoth (n : Nat) (s : State) : State := disarmSwitch n 1 (disarmSwitch n 0 s)

theorem disarmBoth_work : KeyWork (switchOff n) s (disarmBoth n s) :=
  (disarmSwitch_work (by decide)).trans (disarmSwitch_work (by decide))

theorem disarmBoth_chan : (disarmBoth n s).chan n = { s.chan n with swOut := none, swIn := none } := by
  rw [disarmBoth, disarmSwitch_chan, disarmSwitch_chan]
  rfl

theorem disarmBoth_roles (hn : n < 512) : (disarmBoth n s).isSet (KB_ROLES_SW_ARMED n 0) = false ∧
    (disarmBoth n s).isSet (KB_ROLES_SW_ARMED n 1) = false ∧ (disarmBoth n s).getF (KB_ROLES_CUR_V n 0) = s.getF (KB_ROLES_CUR_V n 0) := by
  have hout : ∀ f : Fld, f.off = KB_ROLES n 0 → (disarmBoth n s).getF f = (s.setF (KB_ROLES_SW_ARMED n 0) 0).getF f := fun f hf =>
    (disarmSwitch_getF hn (by decide) (by decide) hf).trans
      ((State.getF_setF_ne _ _ _ _ (by rw [hf]; simp only [KB_ROLES_SW_ARMED, KB_ROLES]; omega)).trans
        (disarmSwitch_getF hn (by decide) (by decide) hf))
  have hin : (disarmBoth n s).getF (KB_ROLES_SW_ARMED n 1) = ((disarmSwitch n 0 s).setF (KB_ROLES_SW_ARMED n 1) 0).getF (KB_ROLES_SW_ARMED n 1) :=
    disarmSwitch_getF hn (by decide) (by decide) rfl
  unfold State.isSet
  rw [hout _ rfl, hin, hout _ rfl, State.getF_setF_bit _ _ _ rfl (by decide : (27 : Nat) < 32),
    State.getF_setF_bit _ _ _ rfl (by decide : (27 : Nat) < 32), State.getF_setF_apart _ _ _ _ rfl]
  exact ⟨rfl, rfl, rfl⟩

/-! ### The spare slot emptied (R258) -/

theorem setSpare_work (i : Option Nat) : KeyWork (switchOff n) s (setSpare n i s) := by
  refine KeyWork.foldl _ (fun u d hd => ?_) s
  have hk : switchOff n (KB_ROLES n d) := by
    have := roles_lt hd
    simp only [switchOff, KB_ROLES, CH_MODE_W3_HI]
    omega
  split
  · exact ((KeyWork.refl u).setF hk).setF hk
  · exact ((KeyWork.refl u).setF hk).setF hk

theorem freeSlot_work (j : Nat) : KeyWork (· = TR_STAT) s (freeSlot j s) := ((KeyWork.refl s).withTack _).setF rfl

/-- Roles other than the spare keep their fields where the spare slot is shown. -/
theorem setSpare_getF (i : Option Nat) {f : Fld} (hl : f.lo ≤ f.hi) (hlo : 1 < f.lo) (hbit : f.hi < 28 ∨ 28 < f.lo) :
    (setSpare n i s).getF f = s.getF f := by
  have hstep : ∀ (u : State) (d v w : Nat), ((u.setF (KB_ROLES_SPARE_V n d) v).setF (KB_ROLES_SPARE_SLOT n d) w).getF f = u.getF f := fun u d v w =>
    (State.getF_setF_disj _ _ _ _ (by decide : (0 : Nat) ≤ 1) (by decide : (1 : Nat) < 32) hl (.inr (.inr hlo))).trans
      (State.getF_setF_disj _ _ _ _ (by decide : (28 : Nat) ≤ 28) (by decide : (28 : Nat) < 32) hl (.inr hbit))
  unfold setSpare
  cases i with
  | none => exact (hstep _ _ _ _).trans (hstep _ _ _ _)
  | some k => exact (hstep _ _ _ _).trans (hstep _ _ _ _)

/-- What the emptying of the spare slot writes: the roles, and the slots in use. -/
abbrev spareOff (n o : Nat) : Prop := switchOff n o ∨ o = TR_STAT

theorem dropSpare_work : KeyWork (spareOff n) s (dropSpare n s) :=
  .ite (((setSpare_work _).mono (fun _ => .inl)).trans ((freeSlot_work _).mono (fun _ => .inr))) (.refl s)

theorem dropSpare_getF {f : Fld} (hne : f.off ≠ TR_STAT) (hl : f.lo ≤ f.hi) (hlo : 1 < f.lo)
    (hbit : f.hi < 28 ∨ 28 < f.lo) : (dropSpare n s).getF f = s.getF f := by
  unfold dropSpare
  split
  · exact (freeSlot_work _).writes.getF hne |>.trans (setSpare_getF _ hl hlo hbit)
  · rfl

end

end Sys2Proof.Machine

namespace Sys2Proof.Machine

section
variable {n : Nat} {s : State}

/-! ### A path muted (R21) -/

/-- What the muting of a path writes: the channel's status, its events, its count of units discarded for a mute, and Bell's registers. -/
abbrev muteOff (n o : Nat) : Prop := o = CH_STAT n ∨ o = CH_EVT n ∨ o = CH_REFUSE n 10 ∨ o = CH_REFUSE n 10 + 4 ∨ ¬ quietOff o

/-- A mute leads from `s` to `t`: the records of channels and the ledger's queues are as they were. -/
structure MuteWork (n : Nat) (s t : State) : Prop where
  writes : Writes (muteOff n) s t
  chans : t.chans = s.chans
  queues : t.ledger.queues = s.ledger.queues

theorem MuteWork.refl (s : State) : MuteWork n s s := ⟨.refl s, rfl, rfl⟩

theorem MuteWork.trans {s t u : State} (h : MuteWork n s t) (g : MuteWork n t u) : MuteWork n s u :=
  ⟨h.writes.trans g.writes, g.chans.trans h.chans, g.queues.trans h.queues⟩

theorem MuteWork.ite {s t u : State} {c : Prop} [Decidable c] (h : MuteWork n s t) (g : MuteWork n s u) : MuteWork n s (if c then t else u) := by
  split <;> assumption

theorem setF_muteWork {f : Fld} (v : Nat) (hf : muteOff n f.off) : MuteWork n s (s.setF f v) :=
  ⟨(Writes.refl s).setF hf, State.setF_chans _ _ _, by rw [State.setF_ledger]⟩

theorem chEvt_muteWork {f : Fld} (hf : f.off = CH_EVT n) : MuteWork n s (chEvt n f s) := by
  have hbell : ∀ l u, MuteWork n u (bellInput (n + 1) l u) := fun l u =>
    ⟨(bellInput_quiet _ _ _).writes.mono (fun _ h => .inr (.inr (.inr (.inr h)))), (bellInput_quiet _ _ _).chans,
      by rw [(bellInput_bellWork _ _ _).ledger]⟩
  exact (setF_muteWork 1 (.inr (.inl hf))).trans (hbell _ _)

theorem refuse_muteWork : MuteWork n s (refuse n 0x15 s) :=
  ⟨(Writes.refl s).wr64 (.inr (.inr (.inl rfl))) (.inr (.inr (.inr (.inl rfl)))), State.wr64_chans _ _ _, by rw [refuse, State.cnt64, State.wr64_ledger]⟩

theorem discardUnits_muteWork : MuteWork n s (discardUnits n 0x15 s) := by
  unfold discardUnits
  extract_lets gone s1
  have h1 : MuteWork n s s1 := ⟨(Writes.refl s).csr rfl, rfl, rfl⟩
  have hfold : ∀ (l : List OutUnit) (u : State), MuteWork n u (l.foldl (fun s _ => refuse n 0x15 s) u) := by
    intro l
    induction l with
    | nil => exact fun u => .refl u
    | cons a l ih => exact fun u => refuse_muteWork.trans (ih _)
  exact h1.trans (hfold _ _)

theorem mutePath_muteWork (c : MuteCause) : MuteWork n s (mutePath n c s) := by
  unfold mutePath
  refine .ite (.refl s) ?_
  extract_lets was l s1
  have h1 : MuteWork n s s1 := ⟨(Writes.refl s).csr rfl, rfl, rfl⟩
  exact .ite h1 (((h1.trans (setF_muteWork 1 (.inl rfl))).trans (chEvt_muteWork rfl)).trans discardUnits_muteWork)

/-! ### The session goes DOWN (R265) -/

/-- BR_STAT of a session that is DOWN (R248, R265). -/
def statDown (n : Nat) (s : State) : State :=
  let s := ((s.setF (BR_STAT_STATE n) 0).setF (BR_STAT_EXCH n) 0).setF (BR_STAT_TRIES n) 0
  (s.setF (BR_STAT_HB_MISS n) 0).setF (BR_STAT_LATE_1S n) 0

/-- A channel's messages that no carrier has begun no longer wait (R265). -/
def messagesDropped (n : Nat) (s : State) : State := { s with brTx := s.brTx.filter (fun m => m.ch ≠ n || decide (0 < m.sent)) }

/-- The switches are disarmed, the session's record is empty, and BR_STAT shows it (R265). -/
def sessionCleared (n : Nat) (s : State) : State := statDown n ((disarmBoth n s).modBr n (fun _ => Session.reset))

/-- The session's messages and its spare slot are gone as well (R265). -/
def sessionEnded (n : Nat) (s : State) : State := dropSpare n (messagesDropped n (sessionCleared n s))

/-- DOWN_MUTE mutes the path of a session that is DOWN (R265). -/
def downMuted (n : Nat) (s : State) : State := if s.isSet (BR_CFG_DOWN_MUTE n) then mutePath n .bridleDown s else s

theorem brDown_eq (cond : Nat) (h : s.getF (BR_STAT_STATE n) ≠ 0) :
    brDown n cond s = brReport 0x0601 881 n cond (downMuted n (sessionEnded n s)) := by
  unfold brDown
  rw [if_neg h]
  rfl

/-- What the end of a session writes, before its mute and its report. -/
abbrev endedOff (n o : Nat) : Prop := spareOff n o ∨ o = BR_STAT n

theorem statDown_work : KeyWork (· = BR_STAT n) s (statDown n s) := by
  have h : ∀ (u : State) (f : Fld), f.off = BR_STAT n → KeyWork (· = BR_STAT n) u (u.setF f 0) := fun u f hf => (KeyWork.refl u).setF hf
  unfold statDown
  exact ((((h s _ rfl).trans (h _ _ rfl)).trans (h _ _ rfl)).trans (h _ _ rfl)).trans (h _ _ rfl)

theorem statDown_stat : (statDown n s).getF (BR_STAT_STATE n) = 0 ∧ (statDown n s).getF (BR_STAT_EXCH n) = 0 ∧
    (statDown n s).getF (BR_STAT_HB_MISS n) = 0 := by
  have hzero : ∀ (u : State) (f : Fld), f.lo ≤ f.hi → f.hi < 32 → (u.setF f 0).getF f = 0 := fun u f h h32 =>
    (State.getF_setF_same _ _ _ h h32).trans (Nat.zero_mod _)
  unfold statDown
  refine ⟨?_, ?_, ?_⟩
  · rw [State.getF_setF_apart _ _ _ _ rfl, State.getF_setF_apart _ _ _ _ rfl, State.getF_setF_apart _ _ _ _ rfl, State.getF_setF_apart _ _ _ _ rfl]
    exact hzero _ _ (by decide : (0 : Nat) ≤ 1) (by decide : (1 : Nat) < 32)
  · rw [State.getF_setF_apart _ _ _ _ rfl, State.getF_setF_apart _ _ _ _ rfl, State.getF_setF_apart _ _ _ _ rfl]
    exact hzero _ _ (by decide : (12 : Nat) ≤ 12) (by decide : (12 : Nat) < 32)
  · rw [State.getF_setF_apart _ _ _ _ rfl]
    exact hzero _ _ (by decide : (8 : Nat) ≤ 9) (by decide : (9 : Nat) < 32)

theorem sessionEnded_work : KeyWork (endedOff n) s (sessionEnded n s) := by
  have hdisarm : KeyWork (endedOff n) s ((disarmBoth n s).modBr n (fun _ => Session.reset)) :=
    (disarmBoth_work.mono (fun _ h => .inl (.inl h))).modChan n _
  have hcleared : KeyWork (endedOff n) s (sessionCleared n s) := hdisarm.trans (statDown_work.mono (fun _ h => .inr h))
  have hdropped : KeyWork (endedOff n) s (messagesDropped n (sessionCleared n s)) := hcleared.withBrTx _
  exact hdropped.trans (dropSpare_work.mono (fun _ h => .inl h))

theorem messagesDropped_getF (f : Fld) : (messagesDropped n s).getF f = s.getF f := rfl

theorem messagesDropped_chan (m : Nat) : (messagesDropped n s).chan m = s.chan m := rfl

theorem statDown_chan (m : Nat) : (statDown n s).chan m = s.chan m := by
  rw [statDown, State.chan_setF, State.chan_setF, State.chan_setF, State.chan_setF, State.chan_setF]

theorem sessionEnded_chan : ((sessionEnded n s).chan n).br = Session.reset ∧ ((sessionEnded n s).chan n).swOut = none ∧
    ((sessionEnded n s).chan n).swIn = none := by
  have h : (sessionEnded n s).chan n = { s.chan n with swOut := none, swIn := none, br := Session.reset } := by
    rw [sessionEnded, State.chan_congr (dropSpare_chans _ _), messagesDropped_chan, sessionCleared, statDown_chan, State.chan_modBr,
      disarmBoth_chan]
  rw [h]
  exact ⟨rfl, rfl, rfl⟩

theorem sessionEnded_stat (hn : n < 512) : (sessionEnded n s).getF (BR_STAT_STATE n) = 0 ∧ (sessionEnded n s).getF (BR_STAT_EXCH n) = 0 ∧
    (sessionEnded n s).getF (BR_STAT_HB_MISS n) = 0 := by
  have hstat : ∀ f : Fld, f.off = BR_STAT n → (sessionEnded n s).getF f = (statDown n ((disarmBoth n s).modBr n (fun _ => Session.reset))).getF f := by
    intro f hf
    rw [sessionEnded, dropSpare_work.writes.getF, messagesDropped_getF, sessionCleared]
    rw [hf]
    simp only [spareOff, switchOff, tallyOff, BR_STAT, KB_ROLES, CH_MODE_W3_HI, TR_STAT]
    omega
  rw [hstat _ rfl, hstat _ rfl, hstat _ rfl]
  exact statDown_stat

theorem sessionEnded_roles (hn : n < 512) : (sessionEnded n s).isSet (KB_ROLES_SW_ARMED n 0) = false ∧
    (sessionEnded n s).isSet (KB_ROLES_SW_ARMED n 1) = false ∧ (sessionEnded n s).getF (KB_ROLES_CUR_V n 0) = s.getF (KB_ROLES_CUR_V n 0) := by
  have hkeep : ∀ (f : Fld) (e : Nat), e < 2 → f.off = KB_ROLES n e → f.lo ≤ f.hi → 1 < f.lo → (f.hi < 28 ∨ 28 < f.lo) →
      (sessionEnded n s).getF f = (disarmBoth n s).getF f := by
    intro f e he hf hl hlo hbit
    have hne : f.off ≠ BR_STAT n := by rw [hf]; simp only [KB_ROLES, BR_STAT]; omega
    rw [sessionEnded, dropSpare_getF (by rw [hf]; simp only [KB_ROLES, TR_STAT]; omega) hl hlo hbit, messagesDropped_getF, sessionCleared,
      statDown_work.writes.getF hne]
    exact State.getF_congr (State.modBr_rd _ _ _ _)
  obtain ⟨hout, hin, hcur⟩ := disarmBoth_roles (s := s) hn
  unfold State.isSet at hout hin ⊢
  rw [hkeep _ 0 (by decide) rfl (by decide : (27 : Nat) ≤ 27) (by decide : (1 : Nat) < 27) (.inl (by decide : (27 : Nat) < 28)),
    hkeep _ 1 (by decide) rfl (by decide : (27 : Nat) ≤ 27) (by decide : (1 : Nat) < 27) (.inl (by decide : (27 : Nat) < 28)),
    hkeep _ 0 (by decide) rfl (by decide : (31 : Nat) ≤ 31) (by decide : (1 : Nat) < 31) (.inr (by decide : (28 : Nat) < 31))]
  exact ⟨hout, hin, hcur⟩

/-- What a session that goes DOWN writes. -/
abbrev downOff (n o : Nat) : Prop := endedOff n o ∨ muteOff n o

theorem downMuted_muteWork : MuteWork n s (downMuted n s) := .ite (mutePath_muteWork _) (.refl s)

/-- A session is DOWN (R265): no switch is armed, nothing is left of it, it is recorded with its condition, and the keys in force stay. -/
abbrev WentDown (s t : State) (n cond : Nat) : Prop :=
  t.getF (BR_STAT_STATE n) = 0 ∧ t.getF (BR_STAT_EXCH n) = 0 ∧ t.getF (BR_STAT_HB_MISS n) = 0 ∧
    (t.chan n).br = Session.reset ∧ (t.chan n).swOut = none ∧ (t.chan n).swIn = none ∧ t.isSet (KB_ROLES_SW_ARMED n 0) = false ∧
    t.isSet (KB_ROLES_SW_ARMED n 1) = false ∧ Reports s t unitBridle 0x0601 n (n + cond * 65536) ∧
    t.getF (KB_ROLES_CUR_V n 0) = s.getF (KB_ROLES_CUR_V n 0) ∧ t.cores = s.cores ∧ t.pos = s.pos

theorem brDown_writes (cond : Nat) (h : s.getF (BR_STAT_STATE n) ≠ 0) : Writes (downOff n) s (brDown n cond s) := by
  rw [brDown_eq cond h]
  exact ((sessionEnded_work.writes.mono (fun _ h => .inl h)).trans (downMuted_muteWork.writes.mono (fun _ h => .inr h))).trans
    ((brReport_quiet _ _ _ _ _).writes.mono (fun _ h => .inr (.inr (.inr (.inr (.inr h))))))

theorem brDown_wentDown (hn : n < 512) (cond : Nat) (h : s.getF (BR_STAT_STATE n) ≠ 0) : WentDown s (brDown n cond s) n cond := by
  have hcount := brDown_countWork hn cond s
  have hended : ∀ f : Fld, ¬ muteOff n f.off → (brDown n cond s).getF f = (sessionEnded n s).getF f := by
    intro f hf
    rw [brDown_eq cond h, (brReport_quiet _ _ _ _ _).writes.getF (fun hq => hf (.inr (.inr (.inr (.inr hq))))),
      downMuted_muteWork.writes.getF hf]
  have hchan : (brDown n cond s).chan n = (sessionEnded n s).chan n := by
    rw [brDown_eq cond h, State.chan_congr (brReport_quiet _ _ _ _ _).chans, State.chan_congr downMuted_muteWork.chans]
  have hstat : ¬ muteOff n (BR_STAT n) := by simp only [muteOff, quietOff, BR_STAT, CH_STAT, CH_EVT, CH_REFUSE]; omega
  have hroles : ∀ e, e < 2 → ¬ muteOff n (KB_ROLES n e) := by
    intro e he
    simp only [muteOff, quietOff, KB_ROLES, CH_STAT, CH_EVT, CH_REFUSE]
    omega
  have hrep : SameReporter unitBridle s (downMuted n (sessionEnded n s)) := by
    refine (sessionEnded_work.sameReporter (fun o ho => ?_)).trans (downMuted_muteWork.writes.sameReporter (fun o ho => ?_) ?_)
    · simp only [reporterOff, endedOff, spareOff, switchOff, tallyOff, POS_NOW_LO, FAB_ID, KB_ROLES, CH_MODE_W3_HI, TR_STAT, BR_STAT] at ho ⊢
      omega
    · simp only [reporterOff, muteOff, quietOff, POS_NOW_LO, FAB_ID, CH_STAT, CH_EVT, CH_REFUSE] at ho ⊢
      omega
    · rw [downMuted_muteWork.queues]
  have hreports := hrep.reports (brReport_reports 0x0601 881 n cond (downMuted n (sessionEnded n s)))
  obtain ⟨hstate, hexch, hmiss⟩ := sessionEnded_stat (s := s) hn
  obtain ⟨hbr, hout, hin⟩ := sessionEnded_chan (n := n) (s := s)
  obtain ⟨harm0, harm1, hcur⟩ := sessionEnded_roles (s := s) hn
  unfold State.isSet at harm0 harm1
  unfold WentDown State.isSet
  rw [hended _ hstat, hended _ hstat, hended _ hstat, hended _ (hroles 0 (by decide)), hended _ (hroles 1 (by decide)),
    hended _ (hroles 0 (by decide)), hchan]
  rw [← brDown_eq cond h, Nat.mod_eq_of_lt (by omega : n < 65536)] at hreports
  exact ⟨hstate, hexch, hmiss, hbr, hout, hin, harm0, harm1, hreports, hcur, hcount.cores, hcount.pos⟩

end

end Sys2Proof.Machine

namespace Sys2Proof.Machine

section
variable {n : Fin 512} {s : State}

theorem Writes.regsBut {t : State} {o : Nat} (h : Writes (· = o) s t) : RegsBut [o] s t := fun p hp => h p (by simpa using hp)

theorem statSet_writes {u : State} {hi lo v : Nat} : Writes (· = BR_STAT n) u (u.setF ⟨BR_STAT n, hi, lo⟩ v) := (Writes.refl u).setF rfl

/-! ### Missing heartbeats (R265) -/

theorem bridleHbLoss_seen (hup : 2 ≤ s.getF (BR_STAT_STATE n)) (hseen : (s.chan n).br.hbSeen = true) :
    Completes (exec (.bridleHbLoss n) s) fun t => (t.chan n).br = { (s.chan n).br with hbSeen := false } ∧ t = { s with chans := t.chans } := by
  rw [exec_bridleHbLoss, execBridleHbLoss, if_pos (brUp_iff.2 hup), if_pos hseen]
  exact ⟨_, rfl, congrArg Chan.br (State.chan_modBr s n _), rfl⟩

theorem bridleHbLoss_missed (hup : 2 ≤ s.getF (BR_STAT_STATE n)) (hseen : (s.chan n).br.hbSeen = false) (hmiss : s.getF (BR_STAT_HB_MISS n) < 2) :
    Completes (exec (.bridleHbLoss n) s) fun t => t.getF (BR_STAT_HB_MISS n) = s.getF (BR_STAT_HB_MISS n) + 1 ∧
      RegsBut [BR_STAT n] s t ∧ t = { s with csr := t.csr } := by
  rw [exec_bridleHbLoss, execBridleHbLoss, if_pos (brUp_iff.2 hup), if_neg (by rw [hseen]; exact Bool.false_ne_true), if_neg (by omega)]
  refine ⟨_, rfl, ?_, statSet_writes.regsBut, rfl⟩
  rw [State.getF_setF_same _ _ _ (by decide : (8 : Nat) ≤ 9) (by decide : (9 : Nat) < 32)]
  exact Nat.mod_eq_of_lt (by show s.getF (BR_STAT_HB_MISS n) + 1 < 4; omega)

theorem bridleHbLoss_down (hup : 2 ≤ s.getF (BR_STAT_STATE n)) (hseen : (s.chan n).br.hbSeen = false) (hmiss : 2 ≤ s.getF (BR_STAT_HB_MISS n)) :
    Completes (exec (.bridleHbLoss n) s) (WentDown s · n 2) := by
  rw [exec_bridleHbLoss, execBridleHbLoss, if_pos (brUp_iff.2 hup), if_neg (by rw [hseen]; exact Bool.false_ne_true), if_pos (by omega)]
  exact ⟨_, rfl, brDown_wentDown n.isLt 2 (by omega)⟩

theorem kemRetryTimeout_down {x : Exch} (hx : (s.chan n).br.exch = some x) (hini : x.initiator = true) (hoffer : x.offer ≠ [])
    (hsent : x.sent = false) (htries : 8 ≤ x.tries) (hst : s.getF (BR_STAT_STATE n) ≠ 0) :
    Completes (exec (.kemRetryTimeout n) s) (WentDown s · n 3) := by
  have hempty : x.offer.isEmpty = false := List.isEmpty_eq_false_iff.2 hoffer
  have hexec : exec (.kemRetryTimeout n) s = .next (brDown n 3 s) := by
    rw [exec_kemRetryTimeout, execKemRetryTimeout]
    simp only [hx, hini, hempty, hsent, Bool.not_false, Bool.and_self, if_true, attemptFailed, ge_iff_le, htries]
  rw [hexec]
  exact ⟨_, rfl, brDown_wentDown n.isLt 3 hst⟩

/-! ### Late answers (R264) -/

theorem bridleSuspectClear_cleared (hst : s.getF (BR_STAT_STATE n) = 3) :
    Completes (exec (.bridleSuspectClear n) s) fun t => t.getF (BR_STAT_STATE n) = 2 ∧ t.getF (BR_STAT_LATE_1S n) = 0 ∧
      (t.chan n).br = { (s.chan n).br with late1 := [], late2 := [] } ∧ RegsBut [BR_STAT n] s t ∧ t = { s with csr := t.csr, chans := t.chans } := by
  rw [exec_bridleSuspectClear, execBridleSuspectClear, if_pos hst]
  refine ⟨_, rfl, ?_, ?_, ?_, 
    (((Writes.refl s).csr rfl).trans (statSet_writes.trans statSet_writes) : Writes (· = BR_STAT n) s (((s.modBr n _).setF (BR_STAT_STATE n) 2).setF
      (BR_STAT_LATE_1S n) 0)).regsBut, rfl⟩
  · rw [State.getF_setF_apart _ _ _ _ rfl]
    exact State.getF_setF_same _ _ _ (by decide : (0 : Nat) ≤ 1) (by decide : (1 : Nat) < 32)
  · exact (State.getF_setF_same _ _ _ (by decide : (4 : Nat) ≤ 5) (by decide : (5 : Nat) < 32)).trans (Nat.zero_mod _)
  · rw [State.chan_setF, State.chan_setF, State.chan_modBr]

theorem bridleSuspectClear_other (hst : s.getF (BR_STAT_STATE n) ≠ 3) : Completes (exec (.bridleSuspectClear n) s) fun t => t = s := by
  rw [exec_bridleSuspectClear, execBridleSuspectClear, if_neg hst]
  exact ⟨s, rfl, rfl⟩

/-- Late answers of the last second. -/
abbrev lateLately (s : State) (n : Nat) : List Nat := (s.chan n).br.late1.filter (fun y => s.now < y + ticksPerS)

/-- A late answer enters the record of stream 1 (R264). -/
def lateKept (n : Nat) (s : State) : State :=
  s.modBr n (fun b => { b with late1 := (b.late1.filter (fun t => s.now < t + ticksPerS)) ++ [s.now] })

/-- The late answers are shown, counted and recorded (R264). -/
def lateShown (n : Nat) (s : State) : State :=
  brReport 0x0602 883 n 0 (brCnt n 4
    ((lateKept n s).setF (BR_STAT_LATE_1S n) (min 3 (max ((lateLately s n).length + 1) (s.chan n).br.late2.length))))

theorem lateKept_chan (n : Nat) (s : State) :
    (lateKept n s).chan n = { s.chan n with br := { (s.chan n).br with late1 := lateLately s n ++ [s.now] } } := State.chan_modBr s n _

/-- What a late answer writes before it has consequences. -/
abbrev lateOff (n o : Nat) : Prop := o = BR_STAT n ∨ o = BR_CNT n 8 ∨ o = BR_CNT n 8 + 4 ∨ ¬ quietOff o

theorem brCnt_late_keyWork (n : Nat) (s : State) : KeyWork (lateOff n) s (brCnt n 4 ((lateKept n s).setF (BR_STAT_LATE_1S n)
    (min 3 (max ((lateLately s n).length + 1) (s.chan n).br.late2.length)))) := by
  have h : KeyWork (lateOff n) s (lateKept n s) := by
    unfold lateKept State.modBr
    exact (KeyWork.refl s).modChan n _
  have hcnt : ∀ u, KeyWork (lateOff n) u (brCnt n 4 u) := fun u => (KeyWork.refl u).wr64 (.inr (.inl rfl)) (.inr (.inr (.inl rfl)))
  exact (h.setF (.inl rfl)).trans (hcnt _)

theorem lateShown_writes (n : Nat) (s : State) : Writes (lateOff n) s (lateShown n s) :=
  (brCnt_late_keyWork n s).writes.trans ((brReport_quiet _ _ _ _ _).writes.mono (fun _ h => .inr (.inr (.inr h))))

/-- A late answer of a channel outside a Twin pair: the third in a second takes the session DOWN, another makes it SUSPECT (R264, R265). -/
theorem lateAnswer_one (hlone : s.chTwin n = false) : lateAnswer n 1 s =
    if 3 ≤ (lateLately s n).length + 1 then brDown n 1 (lateShown n s)
    else if (lateShown n s).getF (BR_STAT_STATE n) = 2 then (lateShown n s).setF (BR_STAT_STATE n) 3 else lateShown n s := by
  have hlen : ((lateKept n s).chan n).br.late1.length = (lateLately s n).length + 1 := by rw [lateKept_chan]; simp
  have hlen2 : ((lateKept n s).chan n).br.late2.length = (s.chan n).br.late2.length := by rw [lateKept_chan]
  have htwin : (lateShown n s).chTwin n = false :=
    ((lateShown_writes n s).isSet (f := CH_CFG_TWIN n) (by
      simp only [lateOff, quietOff, CH_CFG_TWIN, CH_CFG, BR_STAT, BR_CNT]; omega)).trans hlone
  have hone : ¬ (1 : Nat) = 2 := by decide
  have hshown : brReport 0x0602 883 n 0 (brCnt n 4 ((lateKept n s).setF (BR_STAT_LATE_1S n)
      (min 3 (max ((lateKept n s).chan n).br.late1.length ((lateKept n s).chan n).br.late2.length)))) = lateShown n s := by
    rw [hlen, hlen2]; rfl
  have hunfold : lateAnswer n 1 s =
      (let k := ((lateKept n s).chan n).br.late1.length
       let o := ((lateKept n s).chan n).br.late2.length
       let t := brReport 0x0602 883 n 0 (brCnt n 4 ((lateKept n s).setF (BR_STAT_LATE_1S n) (min 3 (max k o))))
       if k ≥ 3 then
         if t.chTwin n && decide (o < 3) then
           if decide ((1 : Nat) = 2) == t.isSet TW_CFG_MY_PATH then mutePath n .bridleDown t else t
         else brDown n 1 t
       else if t.getF (BR_STAT_STATE n) = 2 then t.setF (BR_STAT_STATE n) 3 else t) := rfl
  rw [hunfold]
  dsimp only
  rw [hshown, hlen, htwin, Bool.false_and, if_neg Bool.false_ne_true]

theorem bridleAnswerTimeout_eq {p : Nat} {r : List Nat} (hlone : s.chTwin n = false) (hout : (s.chan n).br.probesOut = p :: r)
    (hup : 2 ≤ s.getF (BR_STAT_STATE n)) :
    exec (.bridleAnswerTimeout n) s = .next (lateAnswer n 1 (s.modBr n (fun b => { b with probesOut := r }))) := by
  have hstream : (s.modBr n (fun b => { b with probesOut := r })).answerStream n = 1 := by
    have htwin : (s.modBr n (fun b => { b with probesOut := r })).chTwin n = false := hlone
    unfold State.answerStream
    rw [htwin]
    rfl
  have hup' : (s.modBr n (fun b => { b with probesOut := r })).brUp n = true := brUp_iff.2 hup
  rw [exec_bridleAnswerTimeout, execBridleAnswerTimeout, hout]
  dsimp only
  rw [if_pos hup', hstream]

/-- The late answer is counted, shown and recorded (R264), and the channel keeps everything else. -/
theorem lateShown_spec (n : Fin 512) (s : State) :
    let t := lateShown n s
    t.rd64 (BR_CNT n 8) = s.rd64 (BR_CNT n 8) + 1 ∧
      t.getF (BR_STAT_LATE_1S n) = min 3 (max ((lateLately s n).length + 1) (s.chan n).br.late2.length) ∧
      t.getF (BR_STAT_STATE n) = s.getF (BR_STAT_STATE n) ∧ Reports s t unitBridle 0x0602 n n ∧
      (t.chan n).br = { (s.chan n).br with late1 := lateLately s n ++ [s.now] } ∧ t.cores = s.cores ∧ t.pos = s.pos := by
  intro t
  set u := (lateKept n s).setF (BR_STAT_LATE_1S n) (min 3 (max ((lateLately s n).length + 1) (s.chan n).br.late2.length)) with hu
  have hquiet : Quiet (brCnt n 4 u) t := brReport_quiet _ _ _ _ _
  have hkey := brCnt_late_keyWork n s
  have hstat : ∀ f : Fld, f.off = BR_STAT n → t.getF f = u.getF f := fun f hf =>
    (State.getF_congr (hquiet.rd _ (by rw [hf]; simp only [quietOff, BR_STAT]; omega))).trans
      (State.getF_wr64_ne _ _ _ _ (by rw [hf]; simp only [BR_CNT, BR_STAT]; omega) (by rw [hf]; simp only [BR_CNT, BR_STAT]; omega))
  have hcnt : u.rd64 (BR_CNT n 8) = s.rd64 (BR_CNT n 8) :=
    State.rd64_setF_ne (lateKept n s) _ _ _ (by simp only [BR_STAT_LATE_1S, BR_CNT, BR_STAT]; omega)
      (by simp only [BR_STAT_LATE_1S, BR_CNT, BR_STAT]; omega)
  have hrep : SameReporter unitBridle s (brCnt n 4 u) := hkey.sameReporter (fun o ho => by
    simp only [reporterOff, lateOff, quietOff, POS_NOW_LO, FAB_ID, BR_STAT, BR_CNT] at ho ⊢
    omega)
  have hreports := hrep.reports (brReport_reports 0x0602 883 n 0 (brCnt n 4 u))
  rw [Nat.mod_eq_of_lt (by omega : n.val < 65536), Nat.zero_mul, Nat.add_zero] at hreports
  refine ⟨?_, ?_, ?_, hreports, ?_, hquiet.cores.trans hkey.cores, hquiet.pos.trans hkey.pos⟩
  · rw [State.rd64_congr (hquiet.rd _ (by simp only [quietOff, BR_CNT]; omega)) (hquiet.rd _ (by simp only [quietOff, BR_CNT]; omega))]
    refine (State.rd64_wr64_same _ _ _).trans ?_
    rw [hcnt]
    rfl
  · rw [hstat _ rfl, hu, State.getF_setF_same _ _ _ (by decide : (4 : Nat) ≤ 5) (by decide : (5 : Nat) < 32)]
    exact Nat.mod_eq_of_lt (by show min 3 _ < 4; omega)
  · rw [hstat _ rfl, hu, State.getF_setF_apart _ _ _ _ rfl]
    exact State.getF_congr (State.modBr_rd _ _ _ _)
  · have hchan : t.chan n = u.chan n := State.chan_congr (hquiet.chans.trans (State.wr64_chans _ _ _)) n
    rw [hchan, hu, State.chan_setF, lateKept_chan]

/-- The answers of a session fail (R264): counted, shown, recorded. -/
abbrev CountedLate (s t : State) (n : Nat) : Prop :=
  t.rd64 (BR_CNT n 8) = s.rd64 (BR_CNT n 8) + 1 ∧
    t.getF (BR_STAT_LATE_1S n) = min 3 (max ((lateLately s n).length + 1) (s.chan n).br.late2.length) ∧ Reports s t unitBridle 0x0602 n n

/-- A probe taken off those out, before its answer counts as late. -/
def probeDropped (n : Nat) (r : List Nat) (s : State) : State := s.modBr n (fun b => { b with probesOut := r })

theorem probeDropped_spec (n : Fin 512) (r : List Nat) (s : State) :
    let t := lateShown n (probeDropped n r s)
    lateLately (probeDropped n r s) n = lateLately s n ∧ CountedLate s t n ∧ t.getF (BR_STAT_STATE n) = s.getF (BR_STAT_STATE n) ∧
      (t.chan n).br = { (s.chan n).br with probesOut := r, late1 := lateLately s n ++ [s.now] } ∧ t.cores = s.cores ∧ t.pos = s.pos := by
  intro t
  have hchan : (probeDropped n r s).chan n = { s.chan n with br := { (s.chan n).br with probesOut := r } } := State.chan_modBr s n _
  have hlate : lateLately (probeDropped n r s) n = lateLately s n := by
    unfold lateLately
    rw [hchan]
    rfl
  obtain ⟨hcnt, hshow, hstate, hrep, hbr, hcores, hpos⟩ := lateShown_spec n (probeDropped n r s)
  rw [hlate, hchan] at hshow hbr
  exact ⟨hlate, ⟨hcnt, hshow, hrep⟩, hstate, hbr, hcores, hpos⟩

theorem State.getF_lt (s : State) (f : Fld) : s.getF f < 2 ^ (f.hi + 1 - f.lo) := Nat.mod_lt _ (Nat.two_pow_pos _)

theorem bridleAnswerTimeout_late {p : Nat} {r : List Nat} (hlone : s.chTwin n = false) (hout : (s.chan n).br.probesOut = p :: r)
    (hup : 2 ≤ s.getF (BR_STAT_STATE n)) (hfew : (lateLately s n).length < 2) :
    Completes (exec (.bridleAnswerTimeout n) s) fun t => CountedLate s t n ∧ t.getF (BR_STAT_STATE n) = 3 ∧
      (t.chan n).br = { (s.chan n).br with probesOut := r, late1 := lateLately s n ++ [s.now] } ∧ t.cores = s.cores ∧ t.pos = s.pos := by
  obtain ⟨hlate, hcounted, hstate, hbr, hcores, hpos⟩ := probeDropped_spec n r s
  have hlt : s.getF (BR_STAT_STATE n) < 4 := State.getF_lt s (BR_STAT_STATE n)
  have hne : ¬ 3 ≤ (lateLately (probeDropped n r s) n).length + 1 := by rw [hlate]; omega
  rw [bridleAnswerTimeout_eq hlone hout hup]
  refine ⟨_, rfl, ?_⟩
  rw [show (s.modBr n fun b => { b with probesOut := r }) = probeDropped n r s from rfl,
    lateAnswer_one (s := probeDropped n r s) hlone, if_neg hne, hstate]
  generalize lateShown n (probeDropped n r s) = t at hcounted hstate hbr hcores hpos ⊢
  by_cases h2 : s.getF (BR_STAT_STATE n) = 2
  · rw [if_pos h2]
    obtain ⟨hcnt, hshow, hrep⟩ := hcounted
    have hoff : (BR_STAT_STATE n).off ≠ BR_CNT n 8 ∧ (BR_STAT_STATE n).off ≠ BR_CNT n 8 + 4 := by
      simp only [BR_STAT_STATE, BR_STAT, BR_CNT]; omega
    refine ⟨⟨(State.rd64_setF_ne _ _ _ _ hoff.1 hoff.2).trans hcnt, (State.getF_setF_apart _ _ _ _ rfl).trans hshow, ?_⟩, ?_, ?_, ?_, ?_⟩
    · unfold Reports at hrep ⊢
      rw [State.setF_ledger, hrep]
    · exact State.getF_setF_same _ _ _ (by decide : (0 : Nat) ≤ 1) (by decide : (1 : Nat) < 32)
    · rw [State.chan_setF, hbr]
    · rw [State.setF_cores, hcores]
    · rw [State.setF_pos, hpos]
  · rw [if_neg h2]
    exact ⟨hcounted, by omega, hbr, hcores, hpos⟩

theorem bridleAnswerTimeout_down {p : Nat} {r : List Nat} (hlone : s.chTwin n = false) (hout : (s.chan n).br.probesOut = p :: r)
    (hup : 2 ≤ s.getF (BR_STAT_STATE n)) (hmany : 2 ≤ (lateLately s n).length) :
    Completes (exec (.bridleAnswerTimeout n) s) fun t => t.getF (BR_STAT_STATE n) = 0 ∧ t.rd64 (BR_CNT n 8) = s.rd64 (BR_CNT n 8) + 1 ∧
      (t.chan n).br = Session.reset ∧ (t.chan n).swOut = none ∧ t.cores = s.cores ∧ t.pos = s.pos := by
  obtain ⟨hlate, ⟨hcnt, -, -⟩, hstate, -, hcores, hpos⟩ := probeDropped_spec n r s
  have hpos3 : 3 ≤ (lateLately (probeDropped n r s) n).length + 1 := by rw [hlate]; omega
  rw [bridleAnswerTimeout_eq hlone hout hup]
  refine ⟨_, rfl, ?_⟩
  rw [show (s.modBr n fun b => { b with probesOut := r }) = probeDropped n r s from rfl,
    lateAnswer_one (s := probeDropped n r s) hlone, if_pos hpos3]
  generalize lateShown n (probeDropped n r s) = t at hcnt hstate hcores hpos ⊢
  have hne : t.getF (BR_STAT_STATE n) ≠ 0 := by omega
  obtain ⟨hst, -, -, hbr, hout', -, -, -, -, -, hc, hp⟩ := brDown_wentDown n.isLt 1 hne
  have hoff : ∀ o, o = BR_CNT n 8 ∨ o = BR_CNT n 8 + 4 → ¬ downOff n o := by
    intro o ho
    simp only [downOff, endedOff, spareOff, switchOff, tallyOff, muteOff, quietOff, BR_CNT, BR_STAT, KB_ROLES, CH_MODE_W3_HI, TR_STAT, CH_STAT, CH_EVT,
      CH_REFUSE] at ho ⊢
    omega
  exact ⟨hst, ((brDown_writes 1 hne).rd64 (hoff _ (.inl rfl)) (hoff _ (.inr rfl))).trans hcnt, hbr, hout', hc.trans hcores, hp.trans hpos⟩

end

end Sys2Proof.Machine

/-!
SUPPORT. An outbound switch announced, armed, begun and cancelled outside a Twin pair (spec/09 R236 to R239, spec/10 R259 to R261).
-/

namespace Sys2Proof.Machine

section
variable {n : Fin 512} {s t u : State}

theorem Queued.trans {l m : List Nat} (h : Queued s t n l) (g : Queued t u n m) : Queued s u n (l ++ m) := by
  unfold Queued at h g ⊢
  rw [g, h, List.map_append, List.append_assoc]

theorem Queued.of_brTx {l : List Nat} (hs : t.brTx = s.brTx) (h : Queued t u n l) : Queued s u n l := by
  unfold Queued at h ⊢
  rw [h, hs]

/-! ### SWITCH_AT (R236, R260) -/

/-- The channel's record once its SWITCH_AT has gone: announced, and counted among the probes out (R266). -/
def Chan.announced (w : Switch) (c : Chan) : Chan :=
  { c with
    swOut := some { w with sent := true, acked := false }
    br := { c.br with probesOut := c.br.probesOut ++ [2 ^ 48 + w.beat.toNat] } }

/-- The state after SWITCH_AT was sent for a switch, in frame and cell modes. -/
def switchSent (n : Nat) (w : Switch) (s : State) : State :=
  (brSent n brSwitchAt 0 1 true (beBytes 4 w.epoch ++ beatBytes w.beat ++ zeros 2 ++ zeros 20) s).modChan n (Chan.announced w)

theorem switchAtBody_of_mode (hmode : s.chMode n ≠ 2) (epoch : Nat) (b : Beat) :
    switchAtBody s n epoch b = beBytes 4 epoch ++ beatBytes b ++ zeros 2 ++ zeros 20 := by
  unfold switchAtBody
  dsimp only
  rw [if_neg hmode]

theorem switchSent_work (w : Switch) : SessionWork (sentOff n 0) s (switchSent n w s) := brSent_work.modChan n _

theorem sendSwitchAt_eq {w : Switch} (hlone : s.chTwin n = false) (hw : (s.chan n).swOut = some w) (hmode : s.chMode n ≠ 2)
    (hroom : (s.rd (BR_TX_SEQ n 0)).toNat + 1 < 2 ^ 32) : sendSwitchAt n s = switchSent n w s := by
  have hsame : (switchSent n w s).chMode n = s.chMode n :=
    (switchSent_work w).writes.getF (f := CH_CFG_MODE n) (by simp only [sentOff, CH_CFG_MODE, CH_CFG, BR_TX_SEQ, BR_CNT]; omega)
  have hfix : fixOutFrame n w.beat (switchSent n w s) = switchSent n w s := if_neg (by rw [hsame]; exact hmode)
  unfold sendSwitchAt
  rw [hw]
  dsimp only
  rw [switchAtBody_of_mode hmode, brSend_eq_brSent (by decide) (.inl hlone) hroom]
  exact hfix

theorem switchSent_chan (w : Switch) : (switchSent n w s).chan n = (s.chan n).announced w := by
  rw [switchSent, State.chan_modChan_same, brSent_chan]

theorem switchSent_queued (w : Switch) : Queued s (switchSent n w s) n [brSwitchAt] :=
  brSent_queued (n := n) (stream := 0) (urgent := true) (body := beBytes 4 w.epoch ++ beatBytes w.beat ++ zeros 2 ++ zeros 20) (by decide) rfl

theorem switchAtSend_sent {w : Switch} (hlone : s.chTwin n = false) (hw : (s.chan n).swOut = some w) (hup : 2 ≤ s.getF (BR_STAT_STATE n))
    (hsent : w.sent = false) (hmode : s.chMode n ≠ 2) (hroom : seqRoom s n 0) :
    Completes (exec (.switchAtSend n) s) fun t =>
      Sent s t n brSwitchAt 0 1 true (beBytes 4 w.epoch ++ beatBytes w.beat ++ zeros 2 ++ zeros 20) ∧
      (t.chan n).swOut = some { w with sent := true, acked := false } ∧
      (t.chan n).br = { (s.chan n).br with probesOut := (s.chan n).br.probesOut ++ [2 ^ 48 + w.beat.toNat] } ∧
      t = { s with csr := t.csr, chans := t.chans, brTx := t.brTx, draws := t.draws } := by
  have hexec : exec (.switchAtSend n) s = .next (switchSent n w s) := by
    rw [exec_switchAtSend, execSwitchAtSend]
    dsimp only
    rw [hw]
    dsimp only
    rw [if_pos (by simp [brUp_iff.2 hup, hsent, hlone]), sendSwitchAt_eq hlone hw hmode (by omega)]
  obtain ⟨hseq, hcnt, hq⟩ := brSent_sent (n := n) (typ := brSwitchAt) (stream := 0) (lane := 1) (urgent := true)
    (body := beBytes 4 w.epoch ++ beatBytes w.beat ++ zeros 2 ++ zeros 20) (s := s) (by decide)
  rw [hexec]
  refine ⟨_, rfl, ⟨hseq, hcnt, hq⟩, ?_, ?_, (switchSent_work w).eqv⟩
  · rw [switchSent_chan]; rfl
  · rw [switchSent_chan]; rfl

/-! ### A switch armed with its mark (R227, R238) -/

/-- What the arming of a switch with its mark writes. -/
abbrev armOff (n o : Nat) : Prop := switchOff n o ∨ o = LOFT_STAT

theorem issueMark_work (d e : Nat) (b : Beat) : KeyWork (armOff n) s (issueMark n d e b s) :=
  ((KeyWork.refl s).withLoftQ _).setF (.inr rfl)

/-- The mark of an outbound switch on its way to the Loft (R238). -/
abbrev markOf (n e : Nat) (b : Beat) : LoftWrite :=
  { word := loftRingWord n 0 (e % 8), value := markWord e b, urgent := true, wait := .mark n 0 e }

/-- What the Loft's queue, the key block and the channel's record show of an armed outbound switch (R227, R238). -/
structure ArmedWith (n : Nat) (w : Switch) (s t : State) : Prop where
  loftQ : t.loftQ = s.loftQ ++ [markOf n w.epoch w.beat]
  armed : t.isSet (KB_ROLES_SW_ARMED n 0) = true
  beat : t.rd (KB_SW_BEAT_LO n 0) = w.beat.truncate 32
  chan : t.chan n = { s.chan n with swOut := some w }
  tack : t.tack = s.tack
  brTx : t.brTx = s.brTx

theorem armSwitch_eq (w : Switch) : armSwitch n 0 w true s =
    commitT120 (issueMark n 0 w.epoch w.beat (showArmed n 0 (some w) (s.modChan n (fun c => c.setSw 0 (some w))))) := rfl

theorem armSwitch_work (w : Switch) : KeyWork (armOff n) s (armSwitch n 0 w true s) := by
  rw [armSwitch_eq]
  exact ((((KeyWork.refl s).modChan n _).trans ((showArmed_work (by decide) _).mono (fun _ => .inl))).trans (issueMark_work _ _ _)).trans
    ((commitT120_work _).mono (fun _ => .inl))

theorem issueMark_fields (d e : Nat) (b : Beat) : (issueMark n d e b s).tack = s.tack ∧ (issueMark n d e b s).brTx = s.brTx ∧
    (issueMark n d e b s).chans = s.chans ∧ (issueMark n 0 e b s).loftQ = s.loftQ ++ [markOf n e b] := by
  unfold issueMark loftEnqueue
  refine ⟨?_, ?_, ?_, ?_⟩
  · rw [State.setF_tack]
  · rw [State.setF_brTx]
  · rw [State.setF_chans]
  · rw [State.setF_loftQ]

theorem showArmed_rd (w : Switch) :
    (showArmed n 0 (some w) t).isSet (KB_ROLES_SW_ARMED n 0) = true ∧ (showArmed n 0 (some w) t).rd (KB_SW_BEAT_LO n 0) = w.beat.truncate 32 := by
  constructor
  · have hrd : (showArmed n 0 (some w) t).rd (KB_ROLES n 0) = (t.setF (KB_ROLES_SW_ARMED n 0) 1).rd (KB_ROLES n 0) :=
      (State.rd_setF_ne _ _ _ _ (by simp only [KB_SW_BEAT_HI_SW_BEAT_HI, KB_SW_BEAT_HI, KB_ROLES]; omega)).trans
        (State.rd_wr_ne _ _ _ _ (by simp only [KB_SW_BEAT_LO, KB_ROLES]; omega))
    exact (State.isSet_congr (f := KB_ROLES_SW_ARMED n 0) hrd).trans (State.isSet_setF_bit _ _ rfl (by decide : (27 : Nat) < 32))
  · refine (State.rd_setF_ne _ _ _ _ (by simp only [KB_SW_BEAT_HI_SW_BEAT_HI, KB_SW_BEAT_HI, KB_SW_BEAT_LO]; omega)).trans ?_
    exact (State.rd_wr_same _ _ _).trans (by simp)

theorem armSwitch_armedWith (w : Switch) : ArmedWith n w s (armSwitch n 0 w true s) := by
  have hcommit : ∀ (u : State) (o : Nat), o / 2 ^ 24 = 0x22 → (commitT120 u).rd o = u.rd o := fun u o ho =>
    (commitT120_regWork u).writes o (by simp only [tallyOff]; omega)
  have hissue : ∀ (u : State) (o : Nat), o / 2 ^ 24 = 0x22 → (issueMark n 0 w.epoch w.beat u).rd o = u.rd o := by
    intro u o ho
    refine (State.rd_setF_ne _ _ _ _ ?_).trans (State.rd_of_csr rfl o)
    simp only [LOFT_STAT_QUEUE, LOFT_STAT]
    omega
  have hshow := showArmed_regWork (n := n) (d := 0) (s := s.modChan n (fun c => c.setSw 0 (some w))) (some w)
  obtain ⟨htack, hbrTx, hchans, hloft⟩ := issueMark_fields (n := n) (s := showArmed n 0 (some w) (s.modChan n (fun c => c.setSw 0 (some w))))
    0 w.epoch w.beat
  obtain ⟨harmed, hbeat⟩ := showArmed_rd (n := n) (t := s.modChan n (fun c => c.setSw 0 (some w))) w
  rw [armSwitch_eq]
  refine ⟨?_, ?_, ?_, ?_, ?_, ?_⟩
  · rw [(commitT120_regWork _).loftQ, hloft, hshow.loftQ]
    rfl
  · rw [State.isSet_congr (hcommit _ _ (by simp only [KB_ROLES_SW_ARMED, KB_ROLES]; omega)),
      State.isSet_congr (hissue _ _ (by simp only [KB_ROLES_SW_ARMED, KB_ROLES]; omega)), harmed]
  · rw [hcommit _ _ (by simp only [KB_SW_BEAT_LO]; omega), hissue _ _ (by simp only [KB_SW_BEAT_LO]; omega), hbeat]
  · rw [(commitT120_regWork _).chan, State.chan_congr hchans, hshow.chan, State.chan_modChan_same]
    rfl
  · rw [(commitT120_regWork _).tack, htack, hshow.tack]
    rfl
  · rw [(commitT120_regWork _).brTx, hbrTx, hshow.brTx]
    rfl

/-! ### A switch begun (R236, R238) -/

/-- What the beginning of an outbound switch writes. -/
abbrev beginOff (n o : Nat) : Prop := armOff n o ∨ sentOff n 0 o

/-- An outbound switch has begun (R236, R238): armed with its mark on its way, announced, and nothing else of the device changed. -/
structure Begun (n : Nat) (w : Switch) (s t : State) : Prop where
  sw : (t.chan n).swOut = some { w with sent := true, acked := false }
  loftQ : t.loftQ = s.loftQ ++ [markOf n w.epoch w.beat]
  armed : t.isSet (KB_ROLES_SW_ARMED n 0) = true
  beat : t.rd (KB_SW_BEAT_LO n 0) = w.beat.truncate 32
  tack : t.tack = s.tack
  queued : Queued s t n [brSwitchAt]
  work : KeyWork (beginOff n) s t

theorem armOff_cfg {o : Nat} (ho : armOff n o) : o ≠ CH_CFG n ∧ o ≠ BR_STAT n ∧ o ≠ BR_TX_SEQ n 0 ∧ o ≠ POS_NOW_LO ∧ o ≠ POS_NOW_LO + 4 := by
  simp only [armOff, switchOff, tallyOff, LOFT_STAT, KB_ROLES, CH_MODE_W3_HI, CH_CFG, BR_STAT, BR_TX_SEQ, POS_NOW_LO] at ho ⊢
  omega

theorem beginSwitch_begun {e : Nat} {b : Beat} {host : Bool} (hlone : s.chTwin n = false) (hup : 2 ≤ s.getF (BR_STAT_STATE n))
    (hmode : s.chMode n ≠ 2) (hroom : (s.rd (BR_TX_SEQ n 0)).toNat + 1 < 2 ^ 32) :
    Begun n { epoch := e, beat := b, sent := false, acked := false, markDone := false, late := false, host := host } s (beginSwitch n e b host s) := by
  generalize hw : ({ epoch := e, beat := b, sent := false, acked := false, markDone := false, late := false, host := host } : Switch) = w
  have hwork := armSwitch_work (n := n) (s := s) w
  have harm := armSwitch_armedWith (n := n) (s := s) w
  have hget : ∀ f : Fld, f.off = CH_CFG n ∨ f.off = BR_STAT n → (armSwitch n 0 w true s).getF f = s.getF f := fun f hf =>
    hwork.writes.getF (fun ho => by
      obtain ⟨h1, h2, -⟩ := armOff_cfg ho
      exact hf.elim h1 h2)
  have hseq : (armSwitch n 0 w true s).rd (BR_TX_SEQ n 0) = s.rd (BR_TX_SEQ n 0) := hwork.writes _ (fun ho => (armOff_cfg ho).2.2.1 rfl)
  have htwin : (armSwitch n 0 w true s).chTwin n = false := (congrArg (decide <| · = 1) (hget (CH_CFG_TWIN n) (.inl rfl))).trans hlone
  have hup' : (armSwitch n 0 w true s).brUp n = true := brUp_iff.2 (by rw [hget _ (.inr rfl)]; exact hup)
  have hsw : ((armSwitch n 0 w true s).chan n).swOut = some w := by rw [harm.chan]
  have heq : beginSwitch n e b host s = switchSent n w (armSwitch n 0 w true s) := by
    unfold beginSwitch
    rw [hw]
    exact (if_pos hup').trans (sendSwitchAt_eq htwin hsw ((hget (CH_CFG_MODE n) (.inl rfl)).trans_ne hmode) (by rw [hseq]; exact hroom))
  have hsent := switchSent_work (n := n) (s := armSwitch n 0 w true s) w
  have hkb : ∀ o, KB_ROLES n 0 ≤ o → o < CH_MODE_W3_HI n → ¬ sentOff n 0 o := by
    intro o h1 h2
    simp only [sentOff, KB_ROLES, CH_MODE_W3_HI, BR_TX_SEQ, BR_CNT] at h1 h2 ⊢
    omega
  rw [heq]
  refine ⟨?_, ?_, ?_, ?_, ?_, ?_, ?_⟩
  · rw [switchSent_chan]; rfl
  · rw [hsent.loftQ]; exact harm.loftQ
  · rw [hsent.writes.isSet (hkb _ (Nat.le_refl _) (by simp only [KB_ROLES_SW_ARMED, KB_ROLES, CH_MODE_W3_HI]; omega))]
    exact harm.armed
  · rw [hsent.writes _ (hkb _ (by simp only [KB_SW_BEAT_LO, KB_ROLES]; omega) (by simp only [KB_SW_BEAT_LO, CH_MODE_W3_HI]; omega))]
    exact harm.beat
  · rw [hsent.tack]; exact harm.tack
  · exact Queued.of_brTx harm.brTx (switchSent_queued w)
  · exact (hwork.mono (fun _ => .inl)).trans (hsent.keyWork.mono (fun _ => .inr))

end

end Sys2Proof.Machine

namespace Sys2Proof.Machine

section
variable {n : Fin 512} {s : State}

/-! ### The switch a confirmed key calls for (R236, R79, R170) -/

/-- A switch has begun and is announced where the session is in force (R236, R238). -/
abbrev SwitchBegun (s t : State) (n e : Nat) (b : Beat) (host : Bool) : Prop :=
  (t.chan n).swOut = some { epoch := e, beat := b, sent := s.brUp n, acked := false, markDone := false, late := false, host := host } ∧
    t.loftQ = s.loftQ ++ [markOf n e b] ∧ t.isSet (KB_ROLES_SW_ARMED n 0) = true ∧ t.rd (KB_SW_BEAT_LO n 0) = b.truncate 32 ∧
    t.cores = s.cores ∧ t.pos = s.pos ∧ t.tack = s.tack

theorem Begun.switchBegun {e : Nat} {b : Beat} {host : Bool} {t u : State} (hup : 2 ≤ s.getF (BR_STAT_STATE n))
    (hloftQ : t.loftQ = s.loftQ) (hcores : t.cores = s.cores) (hpos : t.pos = s.pos) (htack : t.tack = s.tack)
    (h : Begun n { epoch := e, beat := b, sent := false, acked := false, markDone := false, late := false, host := host } t u) :
    SwitchBegun s u n e b host := by
  refine ⟨?_, h.loftQ.trans (by rw [hloftQ]), h.armed, h.beat, h.work.cores.trans hcores, h.work.pos.trans hpos, h.tack.trans htack⟩
  rw [h.sw, brUp_iff.2 hup]

/-- The beat an epoch of a channel ends at (R236). -/
abbrev epochAim (s : State) (n : Nat) : Beat := beatAdd (s.chan n).beginOut (s.epochBeats n)

/-- A forced rekey, no key in force, or an epoch that ends within the lead: the switch comes as early as it may (R79, R236). -/
abbrev switchNear (s : State) (n : Nat) : Bool :=
  (s.chan n).forced || !s.isSet (KB_ROLES_CUR_V n 0) || beatBefore (epochAim s n) (earliestSwitch s n)

/-- A session in force in hardware key mode holds a confirmed next key (R236). -/
abbrev nextConfirmed (s : State) (n : Nat) : Bool := s.brUp n && s.hwKeys n && s.isSet (KB_ROLES_NEXT_V n 0)

theorem switchAtSend_begins (hlone : s.chTwin n = false) (hnone : (s.chan n).swOut = none) (hmay : nextConfirmed s n = true)
    (hmode : s.chMode n ≠ 2) (hwrap : s.chMode n = 1 → s.beat.toNat ≤ (epochAim s n).toNat) :
    exec (.switchAtSend n) s = .next (beginSwitch n (s.slot (slotOf n (s.getF (KB_ROLES_NEXT_SLOT n 0)))).epoch
      (if switchNear s n then earliestSwitch s n else epochAim s n) false s) := by
  have hshared : ∀ i, slotShared s n i = true := fun i => by unfold slotShared; rw [hlone]; rfl
  have hguard : (s.brUp n && s.hwKeys n && s.isSet (KB_ROLES_NEXT_V n 0) && !(s.chTwin n && s.isFollower)
      && slotShared s n (s.getF (KB_ROLES_NEXT_SLOT n 0))) = true := by
    unfold nextConfirmed at hmay
    rw [hmay, hlone, hshared]; rfl
  have hstay : ¬ (decide (s.chMode n = 1) && decide ((epochAim s n).toNat < s.beat.toNat) && decide (s.beat.toNat < 2 ^ 48 - s.lead n)) = true := by
    intro h
    simp only [Bool.and_eq_true, decide_eq_true_eq] at h
    have := hwrap h.1.1
    omega
  have haim : l1WrapAim s n (epochAim s n) = epochAim s n := if_neg hmode
  rw [exec_switchAtSend, execSwitchAtSend]
  dsimp only
  rw [hnone]
  dsimp only
  rw [if_pos hguard, if_neg hstay, haim]

theorem switchAtSend_begun (hlone : s.chTwin n = false) (hnone : (s.chan n).swOut = none) (hmay : nextConfirmed s n = true)
    (hmode : s.chMode n ≠ 2) (hwrap : s.chMode n = 1 → s.beat.toNat ≤ (epochAim s n).toNat) (hroom : seqRoom s n 0) :
    Completes (exec (.switchAtSend n) s) fun t =>
      SwitchBegun s t n (s.slot (slotOf n (s.getF (KB_ROLES_NEXT_SLOT n 0)))).epoch (if switchNear s n then earliestSwitch s n else epochAim s n) false ∧
      Queued s t n [brSwitchAt] := by
  have hup : 2 ≤ s.getF (BR_STAT_STATE n) := brUp_iff.1 (by
    rw [nextConfirmed, Bool.and_eq_true, Bool.and_eq_true] at hmay
    exact hmay.1.1)
  rw [switchAtSend_begins hlone hnone hmay hmode hwrap]
  have hbegun := beginSwitch_begun (e := (s.slot (slotOf n (s.getF (KB_ROLES_NEXT_SLOT n 0)))).epoch)
    (b := if switchNear s n then earliestSwitch s n else epochAim s n) (host := false) hlone hup hmode (by omega)
  exact ⟨_, rfl, hbegun.switchBegun hup rfl rfl rfl rfl, hbegun.queued⟩

/-! ### A switch cancelled (R239, R261) -/

/-- SWITCH_CANCEL has gone for a switch of a channel in frame or cell mode, and is counted and recorded (R261). -/
def cancelSent (n e : Nat) (b : Beat) (reason : Nat) (s : State) : State :=
  brReport 0x0606 886 n reason (brCnt n 5 (brSent n brSwitchCancel 0 1 true (beBytes 4 e ++ beatBytes b ++ [BitVec.ofNat 8 reason, 0]) s))

/-- What a cancelled outbound switch writes. -/
abbrev cancelOff (n o : Nat) : Prop := switchOff n o ∨ sentOff n 0 o ∨ o = BR_CNT n 10 ∨ o = BR_CNT n 10 + 4

theorem sendCancel_eq {e reason : Nat} {b : Beat} (hlone : s.chTwin n = false) (hmode : s.chMode n ≠ 2)
    (hroom : (s.rd (BR_TX_SEQ n 0)).toNat + 1 < 2 ^ 32) : sendCancel n e b reason s = cancelSent n e b reason s := by
  unfold sendCancel
  dsimp only
  rw [if_neg hmode]
  simp only [List.range_one, List.foldl_cons, List.foldl_nil]
  rw [brSend_eq_brSent (by decide) (.inl hlone) hroom]
  rfl

/-- An outbound switch is cancelled: its message waits after those before it, and R261 is recorded with the reason. -/
structure Cancelled (n reason : Nat) (s t : State) : Prop where
  queued : Queued s t n [brSwitchCancel]
  seq : t.rd (BR_TX_SEQ n 0) = s.rd (BR_TX_SEQ n 0) + 1
  cnt : t.rd64 (BR_CNT n 10) = s.rd64 (BR_CNT n 10) + 1
  reports : Reports s t unitBridle 0x0606 n (n + reason * 65536)
  other : ∀ unit, unit ≠ unitBridle → tblGet [] unit t.ledger.queues = tblGet [] unit s.ledger.queues
  rd : ∀ o, quietOff o → ¬ cancelOff n o → t.rd o = s.rd o
  loftQ : t.loftQ = s.loftQ
  tack : t.tack = s.tack
  cores : t.cores = s.cores
  pos : t.pos = s.pos

theorem disarmSwitch_fields (d : Nat) (s : State) : (disarmSwitch n d s).loftQ = s.loftQ ∧ (disarmSwitch n d s).tack = s.tack ∧
    (disarmSwitch n d s).brTx = s.brTx := by
  rw [disarmSwitch_eq]
  refine ⟨?_, ?_, ?_⟩
  · rw [(commitT120_regWork _).loftQ, (showArmed_regWork _).loftQ, frameCleared_regWork.loftQ]; rfl
  · rw [(commitT120_regWork _).tack, (showArmed_regWork _).tack, frameCleared_regWork.tack]; rfl
  · rw [(commitT120_regWork _).brTx, (showArmed_regWork _).brTx, frameCleared_regWork.brTx]; rfl

theorem cancelSwitch_cancelled {w : Switch} {reason : Nat} (hw : (s.chan n).swOut = some w) (hlone : s.chTwin n = false) (hmode : s.chMode n ≠ 2)
    (hruns : s.brRuns n = true) (hroom : (s.rd (BR_TX_SEQ n 0)).toNat + 1 < 2 ^ 32) : Cancelled n reason s (cancelSwitch n 0 reason s) := by
  have hdis := disarmSwitch_work (n := n) (d := 0) (s := s) (by decide)
  have hkeep : ∀ o, ¬ switchOff n o → (disarmSwitch n 0 s).rd o = s.rd o := hdis.writes
  have hoff : ∀ o, o = CH_CFG n ∨ o = CH_STAT n ∨ o = BR_CFG n ∨ o = BR_TX_SEQ n 0 ∨ o = BR_CNT n 10 ∨ o = BR_CNT n 10 + 4 → ¬ switchOff n o := by
    intro o ho
    simp only [switchOff, tallyOff, KB_ROLES, CH_MODE_W3_HI, CH_CFG, CH_STAT, BR_CFG, BR_TX_SEQ, BR_CNT] at ho ⊢
    omega
  have hruns' : (disarmSwitch n 0 s).brRuns n = true := by
    rw [← hruns]
    unfold State.brRuns State.chOpen State.chState
    rw [hdis.writes.getF (f := CH_CFG_STATE n) (hoff _ (.inl rfl)), hdis.writes.isSet (f := BR_CFG_EN n) (hoff _ (.inr (.inr (.inl rfl)))),
      hdis.writes.isSet (f := CH_STAT_LEASE n) (hoff _ (.inr (.inl rfl)))]
  have htwin : (disarmSwitch n 0 s).chTwin n = false := (hdis.writes.isSet (f := CH_CFG_TWIN n) (hoff _ (.inl rfl))).trans hlone
  have hmode' : (disarmSwitch n 0 s).chMode n ≠ 2 := (hdis.writes.getF (f := CH_CFG_MODE n) (hoff _ (.inl rfl))).trans_ne hmode
  have hseq : (disarmSwitch n 0 s).rd (BR_TX_SEQ n 0) = s.rd (BR_TX_SEQ n 0) := hkeep _ (hoff _ (.inr (.inr (.inr (.inl rfl)))))
  have heq : cancelSwitch n 0 reason s = cancelSent n w.epoch w.beat reason (disarmSwitch n 0 s) := by
    unfold cancelSwitch
    rw [show (s.chan n).sw 0 = some w from hw]
    dsimp only
    rw [if_pos hruns', sendCancel_eq htwin hmode' (by rw [hseq]; exact hroom)]
  obtain ⟨hloftQ, htack, hbrTx⟩ := disarmSwitch_fields (n := n) 0 s
  rw [heq, cancelSent]
  generalize beBytes 4 w.epoch ++ beatBytes w.beat ++ [BitVec.ofNat 8 reason, 0] = body
  set u := brSent n brSwitchCancel 0 1 true body (disarmSwitch n 0 s) with hu
  have hsent : SessionWork (sentOff n 0) (disarmSwitch n 0 s) u := brSent_work
  have huseq : u.rd (BR_TX_SEQ n 0) = (disarmSwitch n 0 s).rd (BR_TX_SEQ n 0) + 1 := brSent_rd_txSeq (by decide)
  have huq : Queued s u n [brSwitchCancel] := Queued.of_brTx hbrTx (brSent_queued (by decide) rfl)
  clear_value u
  have hcnt : KeyWork (cancelOff n) u (brCnt n 5 u) := (KeyWork.refl u).wr64 (.inr (.inr (.inl rfl))) (.inr (.inr (.inr rfl)))
  have hquiet : Quiet (brCnt n 5 u) (brReport 0x0606 886 n reason (brCnt n 5 u)) := brReport_quiet _ _ _ _ _
  have hwork : KeyWork (cancelOff n) s (brCnt n 5 u) :=
    ((hdis.mono (fun _ => .inl)).trans (hsent.keyWork.mono (fun _ h => .inr (.inl h)))).trans hcnt
  have hrep : SameReporter unitBridle s (brCnt n 5 u) := hwork.sameReporter (fun o ho => by
    simp only [reporterOff, cancelOff, switchOff, tallyOff, sentOff, POS_NOW_LO, FAB_ID, KB_ROLES, CH_MODE_W3_HI, BR_TX_SEQ, BR_CNT] at ho ⊢
    omega)
  have hreports := hrep.reports (brReport_reports 0x0606 886 n reason (brCnt n 5 u))
  rw [Nat.mod_eq_of_lt (by omega : n.val < 65536)] at hreports
  have h10 : ∀ o, o = BR_CNT n 10 ∨ o = BR_CNT n 10 + 4 → ¬ sentOff n 0 o := by
    intro o ho
    simp only [sentOff, BR_TX_SEQ, BR_CNT] at ho ⊢
    omega
  refine ⟨?_, ?_, ?_, hreports, ?_, fun o hq ho => (hquiet.rd o hq).trans (hwork.writes o ho), ?_, ?_, hquiet.cores.trans hwork.cores,
    hquiet.pos.trans hwork.pos⟩
  · unfold Queued at huq ⊢
    rw [hquiet.brTx, brCnt, State.cnt64, State.wr64_brTx, huq]
  · rw [hquiet.rd _ (by simp only [quietOff, BR_TX_SEQ]; omega), brCnt, State.cnt64,
      State.rd_wr64_ne _ _ _ _ (by simp only [BR_TX_SEQ, BR_CNT]; omega) (by simp only [BR_TX_SEQ, BR_CNT]; omega), huseq, hseq]
  · rw [State.rd64_congr (hquiet.rd _ (by simp only [quietOff, BR_CNT]; omega)) (hquiet.rd _ (by simp only [quietOff, BR_CNT]; omega))]
    refine (State.rd64_wr64_same _ _ _).trans ?_
    rw [hsent.writes.rd64 (h10 _ (.inl rfl)) (h10 _ (.inr rfl)),
      State.rd64_congr (hkeep _ (hoff _ (.inr (.inr (.inr (.inr (.inl rfl))))))) (hkeep _ (hoff _ (.inr (.inr (.inr (.inr (.inr rfl)))))))]
    rfl
  · intro unit hunit
    rw [brReport, bellPulse_ledger, State.report_queue_ne _ _ _ hunit.symm, hwork.ledger]
  · rw [hquiet.loftQ, brCnt, State.cnt64, State.wr64_loftQ, hsent.loftQ, hloftQ]
  · rw [hquiet.tack, brCnt, State.cnt64, State.wr64_tack, hsent.tack, htack]

/-! ### The cancel point (R239, R261) -/

theorem earliestSwitch_congr {t : State} (hmode : s.chMode n ≠ 2) (hmode' : t.chMode n ≠ 2) (hlo : t.rd POS_NOW_LO = s.rd POS_NOW_LO)
    (hhi : t.rd (POS_NOW_LO + 4) = s.rd (POS_NOW_LO + 4)) : earliestSwitch t n = earliestSwitch s n := by
  unfold earliestSwitch State.lead State.beat
  rw [if_neg hmode, if_neg hmode', State.rd64_congr hlo hhi]

theorem cancelled_keeps {u v : State} {reason : Nat} (hu : Quiet s u) (hv : Cancelled n reason u v) {o : Nat}
    (ho : o = CH_CFG n ∨ o = BR_STAT n ∨ o = POS_NOW_LO ∨ o = POS_NOW_LO + 4) : v.rd o = s.rd o := by
  have hoff : quietOff o ∧ ¬ cancelOff n o := by
    simp only [quietOff, cancelOff, switchOff, tallyOff, sentOff, KB_ROLES, CH_MODE_W3_HI, CH_CFG, BR_STAT, POS_NOW_LO, BR_TX_SEQ, BR_CNT] at ho ⊢
    omega
  exact (hv.rd o hoff.1 hoff.2).trans (hu.rd o hoff.1)

theorem cancelled_earliest {u v : State} {reason : Nat} (hmode : s.chMode n ≠ 2) (hu : Quiet s u) (hv : Cancelled n reason u v) :
    earliestSwitch v n = earliestSwitch s n :=
  earliestSwitch_congr hmode ((State.getF_congr (f := CH_CFG_MODE n) (cancelled_keeps hu hv (.inl rfl))).trans_ne hmode)
    (cancelled_keeps hu hv (.inr (.inr (.inl rfl)))) (cancelled_keeps hu hv (.inr (.inr (.inr rfl))))

/-- After its cancel the switch of the same epoch begins anew, at the first beat the lead allows (R239, R261). -/
theorem cancelled_begun {u v : State} {e reason : Nat} {b : Beat} {host : Bool} (hlone : s.chTwin n = false)
    (hup : 2 ≤ s.getF (BR_STAT_STATE n)) (hmode : s.chMode n ≠ 2) (hroom : seqRoom s n 0) (hu : Quiet s u) (hv : Cancelled n reason u v) :
    SwitchBegun s (beginSwitch n e b host v) n e b host ∧ Queued s (beginSwitch n e b host v) n [brSwitchCancel, brSwitchAt] ∧
      KeyWork (beginOff n) v (beginSwitch n e b host v) := by
  have hget : ∀ f : Fld, f.off = CH_CFG n ∨ f.off = BR_STAT n → v.getF f = s.getF f := fun f hf =>
    State.getF_congr (cancelled_keeps hu hv (hf.imp_right .inl))
  have hseq : v.rd (BR_TX_SEQ n 0) = s.rd (BR_TX_SEQ n 0) + 1 := by rw [hv.seq, hu.rd _ (by simp only [quietOff, BR_TX_SEQ]; omega)]
  have hnext : (s.rd (BR_TX_SEQ n 0) + 1).toNat = (s.rd (BR_TX_SEQ n 0)).toNat + 1 := by
    rw [BitVec.toNat_add]
    exact Nat.mod_eq_of_lt (by show (s.rd (BR_TX_SEQ n 0)).toNat + 1 < 2 ^ 32; omega)
  have hbegun := beginSwitch_begun (n := n) (s := v) (e := e) (b := b) (host := host)
    ((congrArg (decide <| · = 1) (hget (CH_CFG_TWIN n) (.inl rfl))).trans hlone) (by rw [hget _ (.inr rfl)]; exact hup)
    ((hget (CH_CFG_MODE n) (.inl rfl)).trans_ne hmode) (by rw [hseq, hnext]; omega)
  exact ⟨hbegun.switchBegun hup (hv.loftQ.trans hu.loftQ) (hv.cores.trans hu.cores) (hv.pos.trans hu.pos) (hv.tack.trans hu.tack),
    (Queued.of_brTx hu.brTx hv.queued).trans hbegun.queued, hbegun.work⟩

/-- The cancel point of the outbound switch is here, its beat still to come (R239, R259). -/
abbrev atCancelPoint (s : State) (n : Nat) (w : Switch) : Bool := s.beatDue (beatSub w.beat (s.cancelLead n)) && !s.beatDue w.beat

theorem cancelPoint_guard {w : Switch} (hlone : s.chTwin n = false) (hpoint : atCancelPoint s n w = true) :
    (s.beatDue (beatSub w.beat (s.cancelLead n)) && !s.beatDue w.beat && !(s.chTwin n && s.isFollower)) = true := by
  unfold atCancelPoint at hpoint
  rw [hpoint, hlone]; rfl

theorem cancelPoint_unmarked {w : Switch} (hlone : s.chTwin n = false) (hw : (s.chan n).swOut = some w) (hpoint : atCancelPoint s n w = true)
    (hmark : w.markDone = false) (hmode : s.chMode n ≠ 2) (hruns : s.brRuns n = true) (hup : 2 ≤ s.getF (BR_STAT_STATE n)) (hroom : seqRoom s n 0) :
    Completes (exec (.cancelPoint n) s) fun t => SwitchBegun s t n w.epoch (earliestSwitch s n) w.host ∧
      Queued s t n [brSwitchCancel, brSwitchAt] ∧ Reports s t unitTack 0x0505 n n ∧ Reports s t unitBridle 0x0606 n (n + 7 * 65536) := by
  have hexec : exec (.cancelPoint n) s = .next (beginSwitch n w.epoch
      (earliestSwitch (cancelSwitch n 0 7 (s.report unitTack 0x0505 n n)) n) w.host (cancelSwitch n 0 7 (s.report unitTack 0x0505 n n))) := by
    rw [exec_cancelPoint, execCancelPoint]
    dsimp only
    rw [hw]
    dsimp only
    rw [if_pos (cancelPoint_guard hlone hpoint), if_pos (by rw [hmark]; rfl)]
  have hu : Quiet s (s.report unitTack 0x0505 n n) := report_quiet _ _ _ _ _
  have hcfg : ∀ f : Fld, quietOff f.off → (s.report unitTack 0x0505 n n).getF f = s.getF f := fun f hf => State.getF_congr (hu.rd _ hf)
  have hq : quietOff (CH_CFG n) ∧ quietOff (CH_STAT n) ∧ quietOff (BR_CFG n) ∧ quietOff (BR_TX_SEQ n 0) := by
    simp only [quietOff, CH_CFG, CH_STAT, BR_CFG, BR_TX_SEQ]; omega
  obtain ⟨hq1, hq2, hq3, hq4⟩ := hq
  have hruns' : (s.report unitTack 0x0505 n n).brRuns n = true := by
    rw [← hruns]
    unfold State.brRuns State.chOpen State.chState State.isSet
    rw [hcfg (CH_CFG_STATE n) hq1, hcfg (BR_CFG_EN n) hq3, hcfg (CH_STAT_LEASE n) hq2]
  have hv := cancelSwitch_cancelled (n := n) (s := s.report unitTack 0x0505 n n) (w := w) (reason := 7)
    (by rw [State.chan_congr hu.chans]; exact hw) ((congrArg (decide <| · = 1) (hcfg (CH_CFG_TWIN n) hq1)).trans hlone)
    ((hcfg (CH_CFG_MODE n) hq1).trans_ne hmode) hruns' (by rw [hu.rd _ hq4]; omega)
  obtain ⟨hsw, hqueued, hwork⟩ := cancelled_begun (e := w.epoch) (b := earliestSwitch s n) (host := w.host) hlone hup hmode hroom hu hv
  rw [hexec, cancelled_earliest hmode hu hv]
  refine ⟨_, rfl, hsw, hqueued, ?_, ?_⟩
  · unfold Reports
    rw [hwork.ledger, hv.other _ (by decide)]
    exact State.report_reports _ _ _ _ _
  · have hrep : SameReporter unitBridle s (s.report unitTack 0x0505 n n) := hu.sameReporter (State.report_queue_ne _ _ _ (by decide))
    have hr := hrep.reports hv.reports
    unfold Reports at hr ⊢
    rw [hwork.ledger, hr]

theorem cancelPoint_unanswered {w : Switch} (hlone : s.chTwin n = false) (hw : (s.chan n).swOut = some w) (hpoint : atCancelPoint s n w = true)
    (hmark : w.markDone = true) (hsent : w.sent = true) (hack : w.acked = false) (hmode : s.chMode n ≠ 2) (hruns : s.brRuns n = true)
    (hup : 2 ≤ s.getF (BR_STAT_STATE n)) (hroom : seqRoom s n 0) :
    Completes (exec (.cancelPoint n) s) fun t => SwitchBegun s t n w.epoch (earliestSwitch s n) w.host ∧
      Queued s t n [brSwitchCancel, brSwitchAt] ∧ Reports s t unitBridle 0x0606 n (n + 5 * 65536) ∧
      t.rd64 (BR_CNT n 10) = s.rd64 (BR_CNT n 10) + 1 := by
  have hv := cancelSwitch_cancelled (n := n) (reason := 5) hw hlone hmode hruns (by omega)
  obtain ⟨hsw, hqueued, hwork⟩ := cancelled_begun (e := w.epoch) (b := earliestSwitch s n) (host := w.host) hlone hup hmode hroom (Quiet.refl s) hv
  have hexec : exec (.cancelPoint n) s = .next (beginSwitch n w.epoch (earliestSwitch s n) w.host (cancelSwitch n 0 5 s)) := by
    rw [exec_cancelPoint, execCancelPoint]
    dsimp only
    rw [hw]
    dsimp only
    rw [if_pos (cancelPoint_guard hlone hpoint), if_neg (by rw [hmark]; exact Bool.false_ne_true), if_pos (by rw [hsent, hack]; rfl)]
  have h10 : ∀ o, o = BR_CNT n 10 ∨ o = BR_CNT n 10 + 4 → ¬ beginOff n o := by
    intro o ho
    simp only [beginOff, armOff, switchOff, tallyOff, sentOff, LOFT_STAT, KB_ROLES, CH_MODE_W3_HI, BR_TX_SEQ, BR_CNT] at ho ⊢
    omega
  rw [hexec]
  refine ⟨_, rfl, hsw, hqueued, ?_, (hwork.writes.rd64 (h10 _ (.inl rfl)) (h10 _ (.inr rfl))).trans hv.cnt⟩
  have hr := hv.reports
  unfold Reports at hr ⊢
  rw [hwork.ledger, hr]

theorem cancelPoint_settled {w : Switch} (hw : (s.chan n).swOut = some w) (hmark : w.markDone = true) (hack : w.acked = true) :
    Completes (exec (.cancelPoint n) s) fun t => t = s := by
  refine ⟨s, ?_, rfl⟩
  rw [exec_cancelPoint, execCancelPoint]
  dsimp only
  rw [hw]
  dsimp only
  rw [hmark, hack]
  simp

end

end Sys2Proof.Machine

/-!
O47. What a Bridle session sends and counts of itself.
-/

namespace Sys2Proof.Machine

/-- Settles O47: each clause is the lemma of its command above, by case of the command. -/
theorem bridleSends : Obligations.BridleSends := by
  intro s n x w p r
  dsimp only
  simp only [Bool.not_eq_true', decide_eq_true_eq]
  refine ⟨?_, ?_, ?_, ?_, ?_, ?_, ?_, ?_, ?_, ?_, ?_, ?_, ?_, ?_, ?_, ?_, ?_, ?_, ?_, ?_, ?_, ?_, ?_, ?_⟩
  · exact bridleSessionSetup_done
  · exact helloResend_sent
  · exact bridleSidRollover_done
  · exact kemOfferSend_sent
  · exact kemRetryTimeout_again
  · exact kemRetryTimeout_down
  · exact switchAtSend_sent
  · intro hlone hnone hmay hmode hnear hroom hwrap
    have h := switchAtSend_begun hlone hnone hmay hmode hwrap hroom
    rwa [if_pos hnear] at h
  · intro hlone hnone hmay hmode hnear hroom
    have h := switchAtSend_begun hlone hnone hmay (by omega) (by omega) hroom
    rwa [if_neg (by rw [switchNear, hnear]; exact Bool.false_ne_true)] at h
  · exact cancelPoint_unmarked
  · exact cancelPoint_unanswered
  · exact cancelPoint_settled
  · exact bridleHeartbeatSend_sent
  · exact bridleProbeSend_sent
  · exact bridleProbeSend_off
  · exact bridlePositionSend_sent
  · exact bridleDigestSend_sent
  · exact bridleAnswerTimeout_late
  · exact bridleAnswerTimeout_down
  · exact bridleSuspectClear_cleared
  · exact bridleSuspectClear_other
  · exact bridleHbLoss_seen
  · exact bridleHbLoss_missed
  · exact bridleHbLoss_down

end Sys2Proof.Machine

/-!
SUPPORT. Commands that keep keys (spec/09, R361 to R363): what the Loft's writes, the budget and the keys themselves leave alone, and the
answer of a command that is not a configuration command.
-/

namespace Sys2Proof.Machine

theorem bytesOf_length (n : Nat) (f : Nat → Byte) : (bytesOf n f).length = n := by rw [bytesOf, List.length_map, List.length_range]

theorem zeros_length (n : Nat) : (zeros n).length = n := List.length_replicate ..

theorem slice_length (l : List Byte) (o n : Nat) : (slice l o n).length = n := by
  rw [slice, List.length_append, List.length_take, List.length_drop, zeros_length]
  omega

theorem wrap_length (k l : List Byte) : (wrap k l).length = l.length + 8 := bytesOf_length ..

theorem sha_length (l : List Byte) : (sha l).length = 48 := beBytes_length ..

theorem unwrap_length {k l v : List Byte} (h : unwrap k l = some v) : v.length = l.length - 8 := by
  unfold unwrap at h
  split at h
  · rw [← Option.some.inj h, bytesOf_length]
  · exact absurd h (Option.some_ne_none v).symm

/-- A bit keeps its value where another field of its register is written. -/
theorem State.isSet_setF_apart (s : State) (f g : Fld) (v : Nat)
    (h : (decide (f.lo ≤ f.hi) && decide (f.hi < 32) && decide (g.lo ≤ g.hi) && (decide (f.hi < g.lo) || decide (g.hi < f.lo))) = true) :
    (s.setF f v).isSet g = s.isSet g := by
  unfold State.isSet
  rw [State.getF_setF_apart s f g v h]

section
variable {P Q : Nat → Prop} {s t u : State}

/-! ### What is kept -/

/-- A command of the Tack room leads from `s` to `t`: no register but those `P` admits has changed, no buffer of a mailbox, and beside them only
the Loft, the reports, Bell, the Tack's own record and the draws. -/
structure StoreWork (P : Nat → Prop) (s t : State) : Prop where
  writes : Writes P s t
  buf : BufferSame s t
  eqv : t = { s with
    csr := t.csr, mem := t.mem, bell := t.bell, ledger := t.ledger, outs := t.outs, wear := t.wear, loftBad := t.loftBad,
    loftWarned := t.loftWarned, tack := t.tack, draws := t.draws }

theorem StoreWork.refl (s : State) : StoreWork P s s := ⟨.refl s, fun _ _ => rfl, rfl⟩

theorem StoreWork.trans (h : StoreWork P s t) (g : StoreWork P t u) : StoreWork P s u :=
  ⟨h.writes.trans g.writes, h.buf.trans g.buf, by rw [g.eqv, h.eqv]⟩

theorem StoreWork.mono (h : StoreWork P s t) (hPQ : ∀ o, P o → Q o) : StoreWork Q s t := ⟨h.writes.mono hPQ, h.buf, h.eqv⟩

theorem StoreWork.wr {o : Nat} {v : Word} (h : StoreWork P s t) (ho : P o) : StoreWork P s (t.wr o v) :=
  h.trans ⟨(Writes.refl t).wr ho, fun _ _ => rfl, rfl⟩

theorem StoreWork.setF {f : Fld} {v : Nat} (h : StoreWork P s t) (ho : P f.off) : StoreWork P s (t.setF f v) := h.wr ho

theorem StoreWork.withTack (h : StoreWork P s t) (x : Tack) : StoreWork P s { t with tack := x } :=
  h.trans ⟨(Writes.refl t).csr rfl, fun _ _ => rfl, rfl⟩

theorem StoreWork.draw (h : StoreWork P s t) : StoreWork P s t.draw.2 := h.trans ⟨(Writes.refl t).csr rfl, fun _ _ => rfl, rfl⟩

theorem StoreWork.quiet (h : Quiet s t) : StoreWork (¬ quietOff ·) s t :=
  ⟨h.writes, .of_mem h.mem, by
    have h' := h.eqv
    have hm : t.mem = s.mem ∧ t.tack = s.tack ∧ t.draws = s.draws := by rw [h']; exact ⟨rfl, rfl, rfl⟩
    have hl : t.wear = s.wear ∧ t.loftBad = s.loftBad ∧ t.loftWarned = s.loftWarned := by rw [h']; exact ⟨rfl, rfl, rfl⟩
    rw [hm.1, hm.2.1, hm.2.2, hl.1, hl.2.1, hl.2.2]
    exact h'⟩

theorem StoreWork.cores (h : StoreWork P s t) : t.cores = s.cores := by rw [h.eqv]
theorem StoreWork.pos (h : StoreWork P s t) : t.pos = s.pos := by rw [h.eqv]
theorem StoreWork.chans (h : StoreWork P s t) : t.chans = s.chans := by rw [h.eqv]

/-! ### The Loft (R547 to R551) -/

/-- What a write of the Loft may show: the Loft's own registers but not its budget, and what a report writes. -/
abbrev loftOff (o : Nat) : Prop := ¬ quietOff o ∨ o = LOFT_STAT ∨ (LOFT_WEAR_LO ≤ o ∧ o ≤ LOFT_WEAR_MAX_IDX)

/-- Words of the Loft written: keys and draws stay as well. -/
structure LoftWork (s t : State) : Prop where
  store : StoreWork loftOff s t
  tack : t.tack = s.tack
  draws : t.draws = s.draws

theorem LoftWork.refl (s : State) : LoftWork s s := ⟨.refl s, rfl, rfl⟩

theorem LoftWork.trans (h : LoftWork s t) (g : LoftWork t u) : LoftWork s u :=
  ⟨h.store.trans g.store, g.tack.trans h.tack, g.draws.trans h.draws⟩

theorem LoftWork.ite {c : Prop} [Decidable c] (h : LoftWork s t) (g : LoftWork s u) : LoftWork s (if c then t else u) := by
  split <;> assumption

theorem LoftWork.setF {f : Fld} {v : Nat} (h : LoftWork s t) (ho : loftOff f.off) : LoftWork s (t.setF f v) :=
  h.trans ⟨(StoreWork.refl t).setF ho, rfl, rfl⟩

theorem LoftWork.wr64 {o : Nat} {v : DWord} (h : LoftWork s t) (ho : loftOff o) (h4 : loftOff (o + 4)) : LoftWork s (t.wr64 o v) :=
  h.trans ⟨((StoreWork.refl t).wr ho).wr h4, rfl, rfl⟩

theorem LoftWork.quiet (h : Quiet s t) : LoftWork s t :=
  ⟨(StoreWork.quiet h).mono (fun _ => .inl), by rw [h.eqv], by rw [h.eqv]⟩

theorem LoftWork.wear (h : LoftWork s t) (x : Table Nat) : LoftWork s { t with wear := x } :=
  h.trans ⟨⟨(Writes.refl t).csr rfl, fun _ _ => rfl, rfl⟩, rfl, rfl⟩

theorem LoftWork.loftWarned (h : LoftWork s t) (x : List Nat) : LoftWork s { t with loftWarned := x } :=
  h.trans ⟨⟨(Writes.refl t).csr rfl, fun _ _ => rfl, rfl⟩, rfl, rfl⟩

theorem LoftWork.loftBad (h : LoftWork s t) (x : List Nat) : LoftWork s { t with loftBad := x } :=
  h.trans ⟨⟨(Writes.refl t).csr rfl, fun _ _ => rfl, rfl⟩, rfl, rfl⟩

theorem setBytes_loftWork {a : Nat} {l : List Byte} (ha : a + l.length ≤ bar0Key 0) (s : State) : LoftWork s (s.setBytes a l) := by
  induction l generalizing a s with
  | nil => exact .refl s
  | cons b l ih =>
    rw [List.length_cons] at ha
    refine LoftWork.trans (t := s.setByte a b) ⟨⟨.refl s, fun x hx => ?_, rfl⟩, rfl, rfl⟩ (ih (by omega) _)
    exact (State.byte_setByte ..).trans (if_neg (by omega))

theorem wearRefresh_loftWork (w : Nat) (s : State) : LoftWork s (wearRefresh w s) := by
  unfold wearRefresh
  have hmax : LoftWork s (if (s.rd64 LOFT_WEAR_MAX_LO).toNat < tblGet 0 w s.wear then
      (s.wr64 LOFT_WEAR_MAX_LO (BitVec.ofNat 64 (tblGet 0 w s.wear))).setF LOFT_WEAR_MAX_IDX_MAX_IDX w else s) :=
    .ite ((LoftWork.refl s).wr64 (by decide) (by decide) |>.setF (by decide)) (.refl s)
  exact hmax.wr64 (by decide) (by decide)

theorem wearOne_loftWork (w : Nat) (s : State) : LoftWork s (wearOne w s) := by
  have hwear : LoftWork s (wearRefresh w { s with wear := tblSet 0 w (tblGet 0 w s.wear + 1) s.wear }) :=
    ((LoftWork.refl s).wear _).trans (wearRefresh_loftWork w _)
  unfold wearOne
  extract_lets c r v
  refine .ite ?_ hwear
  exact ((hwear.loftWarned _).setF (by decide)).trans (.quiet (report_quiet _ _ _ _ _))

theorem loftProgram_loftWork {w : Nat} (hw : w < 2 ^ 36) (v : DWord) (s : State) : LoftWork s (loftProgram w v s) := by
  have hst : LoftWork s (s.stLE (loftBase + 8 * w) 8 v.toNat) :=
    setBytes_loftWork (by rw [leBytes_length]; simp only [loftBase, bar0Key]; omega) s
  exact (hst.trans (wearOne_loftWork w _)).loftBad _

theorem loftStoreWords_loftWork {w n : Nat} (h : w + n ≤ 2 ^ 36) (l : List Byte) (s : State) : LoftWork s (loftStoreWords w n l s) := by
  induction n generalizing w l s with
  | zero => exact .refl s
  | succ n ih => exact (loftProgram_loftWork (by omega) _ s).trans (ih (by omega) _ _)

/-- Bytes stored in the Loft: below half its window. -/
theorem loftStore_loftWork {o : Nat} {l : List Byte} (ho : o < 2 ^ 32) (hl : l.length < 2 ^ 32) (s : State) : LoftWork s (loftStore o l s) :=
  loftStoreWords_loftWork (by omega) l s

/-! ### The budget (R552) -/

/-- The Loft's budget and the count of words taken of it. -/
abbrev budgetOff (o : Nat) : Prop := o = LOFT_BUDGET_CFG ∨ o = LOFT_CNT

theorem budgetTaken_storeWork (n : Nat) (s : State) : StoreWork budgetOff s (budgetTaken n s) :=
  ((StoreWork.refl s).setF (.inl rfl)).setF (.inr rfl)

theorem budgetTaken_tack (n : Nat) (s : State) : (budgetTaken n s).tack = s.tack := by
  rw [budgetTaken, State.setF_tack, State.setF_tack]

theorem budgetTaken_draws (n : Nat) (s : State) : (budgetTaken n s).draws = s.draws := by
  rw [budgetTaken, State.setF_draws, State.setF_draws]

theorem budgetTaken_tokens (n : Nat) (s : State) :
    (budgetTaken n s).getF LOFT_BUDGET_CFG_TOKENS = s.getF LOFT_BUDGET_CFG_TOKENS - n := by
  have hlt := State.getF_lt s LOFT_BUDGET_CFG_TOKENS
  refine (State.getF_setF_ne _ LOFT_CNT_YFI_1S LOFT_BUDGET_CFG_TOKENS _ (by decide)).trans ?_
  refine (State.getF_setF_same _ _ _ (by decide) (by decide)).trans (Nat.mod_eq_of_lt ?_)
  simp only [LOFT_BUDGET_CFG_TOKENS] at hlt ⊢
  omega

theorem loftPay_of_le {n : Nat} (h : n ≤ s.getF LOFT_BUDGET_CFG_TOKENS) : loftPay n true s = (some (budgetTaken n s), 0) := by
  unfold loftPay
  rw [loftTake_of_le h]
  rfl

/-! ### The answer (R353) -/

/-- A command that is not a configuration command, ready to run, answers with what it gives; the answer leaves all else. -/
theorem yfiRun_done {op : Nat} {m : Fin 16} {f : List Byte → State → YfiOut} {st : Nat} {data : List Byte}
    (hready : yfiReady s op m.val = true) (hf : f (mbArg s m.val) s = (st, data, u)) (hbuf : BufferSame s u) (hst : st < 256)
    (hlen : data.length < 2 ^ 32) : MbDone s (yfiRun op m f s) m.val op st data ∧ MailWork u (yfiRun op m f s) := by
  have hrun : yfiRun op m f s = mbDone m.val st data u := by
    unfold yfiRun
    rw [if_pos hready, hf]
  rw [hrun]
  exact ⟨mbDone_done hbuf (mbOp_of_ready hready) hst hlen, mbDone_mailWork _ _ _ _⟩

theorem MailWork.tack (h : MailWork s t) : t.tack = s.tack := by rw [h.eqv]
theorem MailWork.pos (h : MailWork s t) : t.pos = s.pos := by rw [h.eqv]
theorem MailWork.draws (h : MailWork s t) : t.draws = s.draws := by rw [h.eqv]
theorem MailWork.chan (h : MailWork s t) (n : Nat) : t.chan n = s.chan n := State.chan_congr (by rw [h.eqv]) n

theorem MailWork.getF (h : MailWork s t) {f : Fld} (hf : f.off < 0x10000000000) : t.getF f = s.getF f := State.getF_congr (h.rd _ hf)

theorem MailWork.isSet (h : MailWork s t) {f : Fld} (hf : f.off < 0x10000000000) : t.isSet f = s.isSet f := State.isSet_congr (h.rd _ hf)

end

end Sys2Proof.Machine

/-!
SUPPORT. The identity and the key-encrypting keys of the Tack room as YFI commands change them (spec/09 R228, R230, R245, R361, R363, R533).
-/

namespace Sys2Proof.Machine

section
variable {s t u : State} {m : Fin 16} {a : List Byte}

/-- A register of the Tack room's own, or one that a write of the Loft shows. -/
abbrev keepOff (o : Nat) : Prop := loftOff o ∨ budgetOff o ∨ o = TR_STAT ∨ o = TR_PAIR_VALID ∨ o = TR_CNT

theorem LoftWork.keep (h : LoftWork s t) : StoreWork keepOff s t := h.store.mono (fun _ => .inl)

theorem budgetTaken_keep (n : Nat) (s : State) : StoreWork keepOff s (budgetTaken n s) :=
  (budgetTaken_storeWork n s).mono (fun _ h => .inr (.inl h))

theorem LoftWork.getF {f : Fld} (h : LoftWork s t) (hf : ¬ loftOff f.off) : t.getF f = s.getF f := h.store.writes.getF hf

theorem LoftWork.isSet {f : Fld} (h : LoftWork s t) (hf : ¬ loftOff f.off) : t.isSet f = s.isSet f := h.store.writes.isSet hf

/-! ### The identity (R363, R533) -/

/-- The Loft with a new identity: its public key, its seed wrapped, no certificate (R547). -/
def identityStored (seed pub : List Byte) (s : State) : State :=
  loftStore 0x1A48 (zeros 8) (loftStore 0x1A20 (wrap ((loftStore 0x1000 pub s).kek 0) seed) (loftStore 0x1000 pub s))

/-- A new identity in force. -/
def identityTaken (seed pub : List Byte) (s : State) : State :=
  (({ s with tack := { s.tack with idSeed := seed, idPub := pub, cert := [], certOk := false } }).setF TR_STAT_ID_VALID 1).setF
    TR_STAT_ZEROISED 0

/-- A new identity stored and in force, and the Loft's flags. -/
def identityMade (seed pub : List Byte) (s : State) : State :=
  loftFlags ((identityTaken seed pub (identityStored seed pub s)).isSet TR_STAT_ERASE_PEND) false (identityTaken seed pub (identityStored seed pub s))

theorem identityStored_loftWork {seed pub : List Byte} (hseed : seed.length = 32) (hpub : pub.length = 2592) (s : State) :
    LoftWork s (identityStored seed pub s) := by
  have hpubStored : LoftWork s (loftStore 0x1000 pub s) := loftStore_loftWork (by decide) (by rw [hpub]; decide) s
  refine (hpubStored.trans (loftStore_loftWork (by decide) ?_ _)).trans (loftStore_loftWork (by decide) ?_ _)
  · rw [wrap_length, hseed]; decide
  · rw [zeros_length]; decide

theorem identityTaken_work (seed pub : List Byte) (s : State) : StoreWork keepOff s (identityTaken seed pub s) :=
  (((StoreWork.refl s).withTack _).setF (by decide)).setF (by decide)

theorem identityTaken_tack (seed pub : List Byte) (s : State) :
    (identityTaken seed pub s).tack = { s.tack with idSeed := seed, idPub := pub, cert := [], certOk := false } := by
  rw [identityTaken, State.setF_tack, State.setF_tack]

theorem identityTaken_draws (seed pub : List Byte) (s : State) : (identityTaken seed pub s).draws = s.draws := by
  rw [identityTaken, State.setF_draws, State.setF_draws]

theorem identityTaken_flags (seed pub : List Byte) (s : State) :
    (identityTaken seed pub s).isSet TR_STAT_ID_VALID = true ∧ (identityTaken seed pub s).isSet TR_STAT_ZEROISED = false :=
  ⟨(State.isSet_setF_apart _ TR_STAT_ZEROISED TR_STAT_ID_VALID _ rfl).trans (State.isSet_setF_bit _ TR_STAT_ID_VALID rfl (by decide)),
    State.isSet_setF_bit_zero _ TR_STAT_ZEROISED rfl (by decide)⟩

theorem loftFlags_work (e z : Bool) (s : State) : StoreWork keepOff s (loftFlags e z s) :=
  (loftProgram_loftWork (by decide) _ s).keep.setF (by decide)

theorem loftFlags_flags (e z : Bool) (s : State) :
    (loftFlags e z s).isSet TR_STAT_ID_VALID = s.isSet TR_STAT_ID_VALID ∧ (loftFlags e z s).isSet TR_STAT_ZEROISED = s.isSet TR_STAT_ZEROISED := by
  have h := loftProgram_loftWork (w := 1) (by decide) (BitVec.ofNat 64 (e.toNat + 2 * z.toNat)) s
  exact ⟨(State.isSet_setF_apart _ TR_STAT_ERASE_PEND TR_STAT_ID_VALID _ rfl).trans (h.isSet (by decide)),
    (State.isSet_setF_apart _ TR_STAT_ERASE_PEND TR_STAT_ZEROISED _ rfl).trans (h.isSet (by decide))⟩

theorem loftFlags_eq (e z : Bool) (s : State) :
    loftFlags e z s = (loftProgram 1 (BitVec.ofNat 64 (e.toNat + 2 * z.toNat)) s).setF TR_STAT_ERASE_PEND e.toNat := rfl

theorem loftFlags_tack (e z : Bool) (s : State) : (loftFlags e z s).tack = s.tack := by
  rw [loftFlags_eq]
  exact (State.setF_tack _ _ _).trans (loftProgram_loftWork (by decide) _ _).tack

theorem loftFlags_draws (e z : Bool) (s : State) : (loftFlags e z s).draws = s.draws := by
  rw [loftFlags_eq]
  exact (State.setF_draws _ _ _).trans (loftProgram_loftWork (by decide) _ _).draws

/-- What a new identity is, whatever state it is made in. -/
theorem identityMade_spec {seed pub : List Byte} (hseed : seed.length = 32) (hpub : pub.length = 2592) (s : State) :
    StoreWork keepOff s (identityMade seed pub s) ∧ (identityMade seed pub s).isSet TR_STAT_ID_VALID = true ∧
      (identityMade seed pub s).isSet TR_STAT_ZEROISED = false ∧
      (identityMade seed pub s).tack = { s.tack with idSeed := seed, idPub := pub, cert := [], certOk := false } ∧
      (identityMade seed pub s).draws = s.draws ∧ (identityMade seed pub s).rd LOFT_BUDGET_CFG = s.rd LOFT_BUDGET_CFG := by
  have hst := identityStored_loftWork hseed hpub s
  have hflags := identityTaken_flags seed pub (identityStored seed pub s)
  have htack : (identityTaken seed pub (identityStored seed pub s)).tack =
      { (identityStored seed pub s).tack with idSeed := seed, idPub := pub, cert := [], certOk := false } :=
    identityTaken_tack _ _ _
  have hdraws : (identityTaken seed pub (identityStored seed pub s)).draws = (identityStored seed pub s).draws := identityTaken_draws _ _ _
  have hbudget : (identityTaken seed pub (identityStored seed pub s)).rd LOFT_BUDGET_CFG = (identityStored seed pub s).rd LOFT_BUDGET_CFG :=
    (State.rd_setF_ne _ TR_STAT_ZEROISED _ _ (by decide)).trans (State.rd_setF_ne _ TR_STAT_ID_VALID _ _ (by decide))
  have hwork := hst.keep.trans (identityTaken_work seed pub _)
  unfold identityMade
  generalize identityTaken seed pub (identityStored seed pub s) = u at hflags htack hdraws hbudget hwork ⊢
  have hf := loftFlags_flags (u.isSet TR_STAT_ERASE_PEND) false u
  refine ⟨hwork.trans (loftFlags_work _ _ _), hf.1.trans hflags.1, hf.2.trans hflags.2, ?_, ?_, ?_⟩
  · rw [loftFlags_tack, htack, hst.tack]
  · rw [loftFlags_draws, hdraws, hst.draws]
  · refine (State.rd_setF_ne _ TR_STAT_ERASE_PEND _ _ (by decide)).trans ?_
    exact ((loftProgram_loftWork (by decide) _ u).store.writes _ (by decide)).trans (hbudget.trans (hst.store.writes _ (by decide)))

theorem idGenerate_of_free (hchans : s.chans.all (fun e => !(s.chOpen e.1 && s.isSet (BR_CFG_EN e.1))) = true) (hkek : kek0Ok s = true)
    (hrandom : s.noRandom = false) (hfree : 330 ≤ s.getF LOFT_BUDGET_CFG_TOKENS) :
    idGenerate false true a s = (0, sha (bytesOf 2592 (Config.mldsaPub (beBytes 32 s.draw.1))),
      identityMade (beBytes 32 s.draw.1) (bytesOf 2592 (Config.mldsaPub (beBytes 32 s.draw.1))) (budgetTaken 330 s.draw.2)) := by
  have hany : s.chans.any (fun e => s.chOpen e.1 && s.isSet (BR_CFG_EN e.1)) = false := by
    rw [← Bool.not_eq_true', List.not_any_eq_all_not]
    exact hchans
  have hfree' : 330 ≤ s.draw.2.getF LOFT_BUDGET_CFG_TOKENS := hfree
  unfold idGenerate
  simp only [hany, hkek, hrandom, Bool.not_true, Bool.or_self, Bool.false_eq_true, if_false, loftPay_of_le hfree']
  rfl

theorem idGenerate_results (hready : yfiReady s 0x0501 m.val = true)
    (hchans : s.chans.all (fun e => !(s.chOpen e.1 && s.isSet (BR_CFG_EN e.1))) = true) (hkek : kek0Ok s = true)
    (hrandom : s.noRandom = false) (hfree : 330 ≤ s.getF LOFT_BUDGET_CFG_TOKENS) (ht : yfiRun 0x0501 m (idGenerate false true) s = t) :
    t.tack.idSeed = beBytes 32 (Config.freeValue s.draws) ∧ t.tack.idPub = bytesOf 2592 (Config.mldsaPub t.tack.idSeed) ∧
      MbDone s t m.val 0x0501 0 (sha t.tack.idPub) ∧ t.isSet TR_STAT_ID_VALID = true ∧ t.isSet TR_STAT_ZEROISED = false ∧ t.tack.certOk = false ∧
      t.getF LOFT_BUDGET_CFG_TOKENS = s.getF LOFT_BUDGET_CFG_TOKENS - 330 ∧ t.draws = s.draws + 1 ∧ t.tack.keks = s.tack.keks ∧
      t.cores = s.cores := by
  obtain ⟨hwork, hvalid, hzero, htack, hdraws, hbudget⟩ := identityMade_spec (beBytes_length 32 s.draw.1)
    (bytesOf_length 2592 (Config.mldsaPub (beBytes 32 s.draw.1))) (budgetTaken 330 s.draw.2)
  have hpaid := ((StoreWork.refl s).draw.trans (budgetTaken_keep 330 _)).trans hwork
  have htokens : (budgetTaken 330 s.draw.2).getF LOFT_BUDGET_CFG_TOKENS = s.getF LOFT_BUDGET_CFG_TOKENS - 330 := budgetTaken_tokens 330 s.draw.2
  have hkept : (budgetTaken 330 s.draw.2).tack = s.tack ∧ (budgetTaken 330 s.draw.2).draws = s.draws + 1 := by
    rw [budgetTaken_tack, budgetTaken_draws]
    exact ⟨rfl, rfl⟩
  have hseed : s.draw.1 = Config.freeValue s.draws := rfl
  obtain ⟨hdone, hmail⟩ := yfiRun_done hready (idGenerate_of_free hchans hkek hrandom hfree) hpaid.buf (by decide) (by rw [sha_length]; decide)
  rw [ht] at hdone hmail
  rw [hkept.1] at htack
  rw [hkept.2] at hdraws
  rw [hseed] at hdone hmail hvalid hzero htack hdraws hbudget hpaid
  generalize identityMade _ _ (budgetTaken 330 s.draw.2) = w at hmail hvalid hzero htack hdraws hbudget hpaid
  generalize budgetTaken 330 s.draw.2 = u at htokens hbudget
  have htack' : t.tack = { s.tack with
      idSeed := beBytes 32 (Config.freeValue s.draws), idPub := bytesOf 2592 (Config.mldsaPub (beBytes 32 (Config.freeValue s.draws))), cert := [],
      certOk := false } :=
    hmail.tack.trans htack
  have hpub : t.tack.idPub = bytesOf 2592 (Config.mldsaPub (beBytes 32 (Config.freeValue s.draws))) := by rw [htack']
  refine ⟨by rw [htack'], by rw [htack'], hpub ▸ hdone, (hmail.isSet (f := TR_STAT_ID_VALID) (by decide)).trans hvalid,
    (hmail.isSet (f := TR_STAT_ZEROISED) (by decide)).trans hzero, by rw [htack'], ?_, hmail.draws.trans hdraws, by rw [htack'], hmail.cores.trans hpaid.cores⟩
  exact (State.getF_congr ((hmail.rd LOFT_BUDGET_CFG (by decide : LOFT_BUDGET_CFG < 0x10000000000)).trans hbudget)).trans htokens

end

end Sys2Proof.Machine

/-!
SUPPORT. Certificates, key-encrypting keys and pairings as YFI commands put them (spec/09 R228, R230, R361, R363).
-/

namespace Sys2Proof.Machine

/-- A command of the Tack room that ends with OK or with FAILED, and leaves the cores and the position unit alone. -/
abbrev KeyCmdEnds (s t : State) (m : Nat) (ok : Bool) : Prop :=
  t.getF (MB_STATUS_STATE m) = 3 ∧ t.getF (MB_STATUS_RESULT m) = (if ok then 0 else 4) ∧ t.cores = s.cores ∧ t.pos = s.pos

section
variable {P : Nat → Prop} {s t u : State} {m : Fin 16} {a : List Byte} {k seed : Nat}

theorem yfiRun_ends {op : Nat} {f : List Byte → State → YfiOut} {ok : Bool} {data : List Byte} (hready : yfiReady s op m.val = true)
    (hf : f (mbArg s m.val) s = (if ok then 0 else 4, data, u)) (hwork : StoreWork P s u) (hlen : data.length < 2 ^ 32) :
    KeyCmdEnds s (yfiRun op m f s) m.val ok ∧ MailWork u (yfiRun op m f s) := by
  obtain ⟨hdone, hmail⟩ := yfiRun_done hready hf hwork.buf (by cases ok <;> decide) hlen
  obtain ⟨hstate, hresult, -⟩ := hdone
  exact ⟨⟨hstate, hresult, hmail.cores.trans hwork.cores, hmail.pos.trans hwork.pos⟩, hmail⟩

/-- A command that gives an answer and changes nothing. -/
theorem yfiRun_same {op : Nat} {f : List Byte → State → YfiOut} {data : List Byte} (hready : yfiReady s op m.val = true)
    (hf : f (mbArg s m.val) s = (0, data, s)) (hlen : data.length < 2 ^ 32) (ht : yfiRun op m f s = t) :
    MbDone s t m.val op 0 data ∧ t.tack = s.tack ∧ t.cores = s.cores := by
  obtain ⟨hdone, hmail⟩ := yfiRun_done hready hf (fun _ _ => rfl) (by decide) hlen
  rw [ht] at hdone hmail
  exact ⟨hdone, hmail.tack, hmail.cores⟩

/-! ### ID_CERT (R363) -/

/-- A certificate in the Loft. -/
def certStored (a : List Byte) (s : State) : State := loftStore 0x1A48 (leBytes 8 a.length) (loftStore 0x1A50 a s)

theorem certStored_loftWork (ha : a.length ≤ 4064) (s : State) : LoftWork s (certStored a s) :=
  (loftStore_loftWork (by decide) (by omega) s).trans (loftStore_loftWork (by decide) (by rw [leBytes_length]; decide) _)

/-- A certificate stored and in force. -/
def certTaken (a : List Byte) (s : State) : State :=
  { certStored a s with tack := { (certStored a s).tack with cert := a, certOk := true } }

theorem certTaken_work (ha : a.length ≤ 4064) (s : State) : StoreWork keepOff s (certTaken a s) :=
  (certStored_loftWork ha s).keep.withTack _

theorem certTaken_tack (ha : a.length ≤ 4064) (s : State) : (certTaken a s).tack = { s.tack with cert := a, certOk := true } := by
  show { (certStored a s).tack with cert := a, certOk := true } = _
  rw [(certStored_loftWork ha s).tack]

theorem idCert_of_free (hid : s.isSet TR_STAT_ID_VALID = true) (hfree : (a.length + 7) / 8 + 1 ≤ s.getF LOFT_BUDGET_CFG_TOKENS) :
    idCert true a s = (if Config.certHolds a s.tack.idPub then 0 else 4, [],
      if Config.certHolds a s.tack.idPub then certTaken a (budgetTaken ((a.length + 7) / 8 + 1) s) else s) := by
  unfold idCert
  rw [hid, loftPay_of_le hfree]
  cases Config.certHolds a s.tack.idPub
  · rfl
  · rfl

theorem idCert_results (hready : yfiReady s 0x0502 m.val = true) (ha : mbArg s m.val = a) (hid : s.isSet TR_STAT_ID_VALID = true)
    (hlen : a.length ≤ 4064) (hfree : (a.length + 7) / 8 + 1 ≤ s.getF LOFT_BUDGET_CFG_TOKENS) (ht : yfiRun 0x0502 m (idCert true) s = t) :
    KeyCmdEnds s t m.val (Config.certHolds a s.tack.idPub) ∧
      t.tack = (if Config.certHolds a s.tack.idPub then { s.tack with cert := a, certOk := true } else s.tack) := by
  subst ha
  have hpaid := budgetTaken_keep (((mbArg s m.val).length + 7) / 8 + 1) s
  have hkept := budgetTaken_tack (((mbArg s m.val).length + 7) / 8 + 1) s
  have hrun := idCert_of_free hid hfree
  generalize budgetTaken (((mbArg s m.val).length + 7) / 8 + 1) s = u at hpaid hkept hrun
  have hwork : StoreWork keepOff s (if Config.certHolds (mbArg s m.val) s.tack.idPub then certTaken (mbArg s m.val) u else s) := by
    split
    · exact hpaid.trans (certTaken_work hlen u)
    · exact .refl s
  have htack : (if Config.certHolds (mbArg s m.val) s.tack.idPub then certTaken (mbArg s m.val) u else s).tack =
      if Config.certHolds (mbArg s m.val) s.tack.idPub then { s.tack with cert := mbArg s m.val, certOk := true } else s.tack := by
    split
    · rw [certTaken_tack hlen, hkept]
    · rfl
  obtain ⟨hends, hmail⟩ := yfiRun_ends hready hrun hwork (by decide)
  rw [ht] at hends hmail
  exact ⟨hends, hmail.tack.trans htack⟩

/-! ### ID_GET (R363) -/

theorem idGetKey_results (hready : yfiReady s 0x0503 m.val = true) (hsel : at' (mbArg s m.val) 0 = 0) (hid : s.isSet TR_STAT_ID_VALID = true)
    (hpub : s.tack.idPub.length = 2592) : Completes (exec (.idGetKey m) s) fun t =>
      MbDone s t m.val 0x0503 0 s.tack.idPub ∧ t.tack = s.tack ∧ t.cores = s.cores := by
  have hexec : exec (.idGetKey m) s = .next (yfiRun 0x0503 m (idGet s.tack.idPub (s.isSet TR_STAT_ID_VALID)) s) := by
    rw [exec_idGetKey, execIdGetKey, hsel]
    rfl
  rw [hexec]
  refine ⟨_, rfl, yfiRun_same hready ?_ (by rw [hpub]; decide) rfl⟩
  unfold idGet
  rw [hsel, hid]
  rfl

theorem idGetCert_results (hready : yfiReady s 0x0503 m.val = true) (hsel : at' (mbArg s m.val) 0 = 1) (hcert : s.tack.cert ≠ [])
    (hlen : s.tack.cert.length ≤ 4064) : Completes (exec (.idGetCert m) s) fun t =>
      MbDone s t m.val 0x0503 0 s.tack.cert ∧ t.tack = s.tack ∧ t.cores = s.cores := by
  have hexec : exec (.idGetCert m) s = .next (yfiRun 0x0503 m (idGet s.tack.cert (!s.tack.cert.isEmpty)) s) := by
    rw [exec_idGetCert, execIdGetCert, hsel]
    rfl
  have hsome : (!s.tack.cert.isEmpty) = true := by
    rw [Bool.not_eq_true', List.isEmpty_eq_false_iff]
    exact hcert
  rw [hexec]
  refine ⟨_, rfl, yfiRun_same hready ?_ (by omega) rfl⟩
  unfold idGet
  rw [hsel, hsome]
  rfl

/-! ### A key-encrypting key in its slot (R215, R230) -/

theorem setKek_work (k : Nat) (v : List Byte) (s : State) : StoreWork keepOff s (setKek k v s) :=
  ((StoreWork.refl s).withTack _).setF (by decide)

theorem setKek_tack (k : Nat) (v : List Byte) (s : State) : (setKek k v s).tack = { s.tack with keks := tblSet [] k v s.tack.keks } := by
  rw [setKek, State.setF_tack]

/-- A bit map of 16 bits with one of them made 1 has it 1. -/
theorem kekBits_set {b k : Nat} (hb : b < 2 ^ 16) (hk : k ≤ 15) :
    (if b / 2 ^ k % 2 = 1 then b else b + 2 ^ k) % 2 ^ 16 / 2 ^ k % 2 = 1 := by
  split
  next h => rw [Nat.mod_eq_of_lt hb, h]
  next h => interval_cases k <;> omega

theorem setKek_valid (hk : k ≤ 15) (v : List Byte) (s : State) : kekValid (setKek k v s) k = true := by
  have hlt : s.getF TR_STAT_KEK_VALID < 2 ^ 16 := State.getF_lt s TR_STAT_KEK_VALID
  unfold kekValid
  rw [setKek, State.getF_setF_same _ TR_STAT_KEK_VALID _ (by decide) (by decide)]
  exact decide_eq_true (kekBits_set hlt hk)

theorem kekStore_loftWork (hk : k ≤ 15) {v : List Byte} (hv : v.length ≤ 4096) (s : State) :
    LoftWork (setKek k v s) (kekStore k v s) :=
  loftStore_loftWork (by omega) (by rw [wrap_length]; omega) _

theorem kekStore_work (hk : k ≤ 15) {v : List Byte} (hv : v.length ≤ 4096) (s : State) : StoreWork keepOff s (kekStore k v s) :=
  (setKek_work k v s).trans (kekStore_loftWork hk hv s).keep

theorem kekStore_tack (hk : k ≤ 15) {v : List Byte} (hv : v.length ≤ 4096) (s : State) :
    (kekStore k v s).tack = { s.tack with keks := tblSet [] k v s.tack.keks } :=
  (kekStore_loftWork hk hv s).tack.trans (setKek_tack k v s)

theorem kekStore_valid (hk : k ≤ 15) {v : List Byte} (hv : v.length ≤ 4096) (s : State) : kekValid (kekStore k v s) k = true := by
  have h := (kekStore_loftWork hk hv s).getF (f := TR_STAT_KEK_VALID) (by decide)
  unfold kekValid
  rw [h]
  exact setKek_valid hk v s

theorem unwrapFailed_work (s : State) : StoreWork keepOff s (unwrapFailed s) :=
  ((StoreWork.refl s).setF (f := TR_CNT_UNWRAP_FAIL) (by decide)).trans
    ((StoreWork.quiet (report_quiet _ _ _ _ _)).mono (fun _ h => .inl (.inl h)))

theorem unwrapFailed_tack (s : State) : (unwrapFailed s).tack = s.tack := by
  have h := (report_quiet (s.cntSat TR_CNT_UNWRAP_FAIL 1) unitTack 0x0503 noPath 0).eqv
  have ht : (unwrapFailed s).tack = (s.cntSat TR_CNT_UNWRAP_FAIL 1).tack := by
    unfold unwrapFailed
    rw [h]
  exact ht.trans (State.cntSat_tack _ _ _)

end

end Sys2Proof.Machine

/-!
SUPPORT. The commands of key-encrypting keys and pairings (spec/09 R228, R230, R361, R363).
-/

namespace Sys2Proof.Machine

section
variable {s t u : State} {m : Fin 16} {a : List Byte} {k seed : Nat}

/-! ### KEK_INSTALL (R228, R363) -/

/-- What follows an unwrap: the key stored, where there is one; else a failure counted. -/
def kekUnwrapped (k : Nat) (v : Option (List Byte)) (s : State) : State :=
  match v with
  | some v => kekStore k v (budgetTaken 5 s)
  | none => unwrapFailed s

theorem kekUnwrapped_work (hk : k ≤ 15) {v : Option (List Byte)} (hv : ∀ x, v = some x → x.length = 32) (s : State) :
    StoreWork keepOff s (kekUnwrapped k v s) := by
  cases v with
  | none => exact unwrapFailed_work s
  | some x => exact (budgetTaken_keep 5 s).trans (kekStore_work hk (by rw [hv x rfl]; decide) _)

theorem kekUnwrapped_tack (hk : k ≤ 15) {v : Option (List Byte)} (hv : ∀ x, v = some x → x.length = 32) (s : State) :
    (kekUnwrapped k v s).kek k = v.getD (s.kek k) ∧ (kekUnwrapped k v s).tack.slots = s.tack.slots ∧
      (kekUnwrapped k v s).tack.pairs = s.tack.pairs := by
  unfold State.kek
  cases v with
  | none =>
    have h : (kekUnwrapped k none s).tack = s.tack := unwrapFailed_tack s
    rw [h]
    exact ⟨rfl, rfl, rfl⟩
  | some x =>
    have h : (kekUnwrapped k (some x) s).tack = { s.tack with keks := tblSet [] k x s.tack.keks } :=
      (kekStore_tack hk (by rw [hv x rfl]; decide) _).trans (by rw [budgetTaken_tack])
    rw [h]
    exact ⟨tblGet_tblSet_same .., rfl, rfl⟩

theorem kekInstall_of_free (hkeys : keysReady s = true) (hzero : zeroAt a [(2, 6)] = true) (h1 : 1 ≤ at' a 0) (h15 : at' a 0 ≤ 15)
    (hkek : kekUsable s (at' a 1) = true) (heng : engineOk s 0 = true) (hfree : 5 ≤ s.getF LOFT_BUDGET_CFG_TOKENS) :
    kekInstall true a s = (if (unwrap (s.kek (at' a 1)) (slice a 8 40)).isSome then 0 else 4, [],
      kekUnwrapped (at' a 0) (unwrap (s.kek (at' a 1)) (slice a 8 40)) s) := by
  unfold kekInstall
  simp only [hkeys, hzero, hkek, heng, decide_eq_false (show ¬ at' a 0 = 0 by omega), decide_eq_false (show ¬ 15 < at' a 0 by omega),
    Bool.not_true, Bool.or_self, Bool.false_eq_true, if_false]
  cases unwrap (s.kek (at' a 1)) (slice a 8 40) with
  | none => rfl
  | some v =>
    simp only [loftPay_of_le hfree]
    rfl

theorem unwrap_slice_length {key : List Byte} {o : Nat} (x : List Byte) (h : unwrap key (slice a o 40) = some x) : x.length = 32 := by
  rw [unwrap_length h, slice_length]

theorem kekInstall_results (hready : yfiReady s 0x0504 m.val = true) (ha : mbArg s m.val = a) (hkeys : keysReady s = true)
    (hzero : zeroAt a [(2, 6)] = true) (h1 : 1 ≤ at' a 0) (h15 : at' a 0 ≤ 15) (hkek : kekUsable s (at' a 1) = true)
    (heng : engineOk s 0 = true) (hfree : 5 ≤ s.getF LOFT_BUDGET_CFG_TOKENS) (ht : yfiRun 0x0504 m (kekInstall true) s = t) :
    KeyCmdEnds s t m.val (unwrap (s.kek (at' a 1)) (slice a 8 40)).isSome ∧
      t.kek (at' a 0) = (unwrap (s.kek (at' a 1)) (slice a 8 40)).getD (s.kek (at' a 0)) ∧ t.tack.slots = s.tack.slots ∧
      t.tack.pairs = s.tack.pairs := by
  have hv : ∀ x, unwrap (s.kek (at' a 1)) (slice a 8 40) = some x → x.length = 32 := unwrap_slice_length
  have hwork := kekUnwrapped_work h15 hv s
  have htack := kekUnwrapped_tack h15 hv s
  obtain ⟨hends, hmail⟩ := yfiRun_ends hready (by rw [ha]; exact kekInstall_of_free hkeys hzero h1 h15 hkek heng hfree) hwork (by decide)
  rw [ht] at hends hmail
  unfold State.kek at htack ⊢
  rw [hmail.tack]
  exact ⟨hends, htack⟩

theorem State.bytes_take (s : State) (o : Nat) {j n : Nat} (h : j ≤ n) : (s.bytes o n).take j = s.bytes o j := by
  induction j generalizing o n with
  | zero => rfl
  | succ j ih =>
    obtain ⟨n, rfl⟩ := Nat.exists_eq_succ_of_ne_zero (show n ≠ 0 by omega)
    exact congrArg (s.byte o :: ·) (ih (o + 1) (by omega))

/-! ### KEK_KEM_OFFER and KEK_KEM_FINISH (R230, R361) -/

/-- The state with a fresh pair pending. -/
def offerPending (k : Nat) (s : State) : State := { s.draw.2 with tack := { s.draw.2.tack with kemPair := some (k, s.draw.1) } }

theorem offerPending_work (k : Nat) (s : State) : StoreWork keepOff s (offerPending k s) := (StoreWork.refl s).draw.withTack _

theorem offerPending_tack (k : Nat) (s : State) : (offerPending k s).tack = { s.tack with kemPair := some (k, Config.freeValue s.draws) } := rfl

/-- The response to part 0 of an offer: the public key, and what of the signature fits. -/
abbrev kemOfferData (s : State) (k seed : Nat) : List Byte := bytesOf 1568 (Config.mlkemPub seed) ++ (kemSignature s k seed).take 2496

theorem kemOfferData_length : (kemOfferData s k seed).length = 4064 := by
  rw [List.length_append, bytesOf_length, List.length_take, kemSignature, bytesOf_length]
  rfl

theorem kemOffer_of_ready (hkeys : keysReady s = true) (hrandom : s.noRandom = false) (h1 : 1 ≤ at' a 0) (h15 : at' a 0 ≤ 15)
    (hpart : at' a 1 = 0) :
    kemOffer false a s = (if true then 0 else 4, kemOfferData s (at' a 0) (Config.freeValue s.draws), offerPending (at' a 0) s) := by
  have hok : ¬ (at' a 0 = 0 ∨ 15 < at' a 0 ∨ 1 < at' a 1) := by omega
  unfold kemOffer
  simp only [hkeys, hrandom, hok, Bool.not_true, Bool.or_self, Bool.false_eq_true, if_false]
  rfl

theorem kemOffer_results (hready : yfiReady s 0x0505 m.val = true) (ha : mbArg s m.val = a) (hkeys : keysReady s = true)
    (hrandom : s.noRandom = false) (h1 : 1 ≤ at' a 0) (h15 : at' a 0 ≤ 15) (hpart : at' a 1 = 0) :
    Completes (exec (.kekKemOffer m false) s) fun t => KeyCmdEnds s t m.val true ∧
      t.tack = { s.tack with kemPair := some (at' a 0, Config.freeValue s.draws) } ∧ t.ldLE (rspBuf m.val + 4) 4 = 4064 ∧
      t.bytes (rspBuf m.val + 32) 1568 = bytesOf 1568 (Config.mlkemPub (Config.freeValue s.draws)) := by
  have hexec : exec (.kekKemOffer m false) s = .next (yfiRun 0x0505 m (kemOffer false) s) := by
    rw [exec_kekKemOffer, execKekKemOffer, ha, hpart]
    rfl
  subst ha
  have hrun := kemOffer_of_ready hkeys hrandom h1 h15 hpart
  have hlen := kemOfferData_length (s := s) (k := at' (mbArg s m.val) 0) (seed := Config.freeValue s.draws)
  have hwork := offerPending_work (at' (mbArg s m.val) 0) s
  obtain ⟨hdone, -⟩ := yfiRun_done hready hrun hwork.buf (by decide) (by rw [hlen]; decide)
  obtain ⟨hends, hmail⟩ := yfiRun_ends hready hrun hwork (by rw [hlen]; decide)
  obtain ⟨-, -, -, -, -, hsize, -, hbytes⟩ := hdone
  rw [hlen] at hsize hbytes
  rw [hexec]
  refine ⟨_, rfl, hends, hmail.tack.trans (offerPending_tack _ s), hsize, ?_⟩
  have hfirst := congrArg (List.take 1568) hbytes
  rw [State.bytes_take _ _ (by decide), List.take_left' (bytesOf_length ..)] at hfirst
  exact hfirst

theorem kemOfferRest_results (hready : yfiReady s 0x0505 m.val = true) (ha : mbArg s m.val = a) (hkeys : keysReady s = true)
    (h1 : 1 ≤ at' a 0) (h15 : at' a 0 ≤ 15) (hpart : at' a 1 = 1) (hpair : s.tack.kemPair = some (at' a 0, seed)) :
    Completes (exec (.kekKemOfferPart1 m) s) fun t =>
      MbDone s t m.val 0x0505 0 ((kemSignature s (at' a 0) seed).drop 2496) ∧ t.tack = s.tack ∧ t.cores = s.cores := by
  have hexec : exec (.kekKemOfferPart1 m) s = .next (yfiRun 0x0505 m kemOfferRest s) := by
    rw [exec_kekKemOfferPart1, execKekKemOfferPart1, ha, hpart]
    rfl
  have hok : ¬ (at' a 0 = 0 ∨ 15 < at' a 0) := by omega
  rw [hexec]
  refine ⟨_, rfl, yfiRun_same hready ?_ ?_ rfl⟩
  · rw [ha, kemOfferRest, hkeys, hpair]
    simp only [hok, Bool.not_true, Bool.false_eq_true, if_false, if_true]
  · rw [List.length_drop, kemSignature, bytesOf_length]
    decide

theorem kemDrop_work (s : State) : StoreWork keepOff s (kemDrop s) := (StoreWork.refl s).withTack _

theorem kemDrop_tack (s : State) : (kemDrop s).tack = { s.tack with kemPair := none } := rfl

theorem kekValid_kemDrop (s : State) (k : Nat) : kekValid (kemDrop s) k = kekValid s k := rfl

/-- The key that a pending pair and the peer's ciphertext give (R361). -/
abbrev kemKey (seed k : Nat) (a : List Byte) : List Byte :=
  kdf (bytesOf 32 (Config.mlkemDecSecret seed (slice a 8 1568))) (ascii "DZ8512 kek" ++ [BitVec.ofNat 8 k]) 32

theorem kemKey_length : (kemKey seed k a).length = 32 := bytesOf_length ..

theorem kemFinish_of_free (hkeys : keysReady s = true) (hzero : zeroAt a [(1, 7)] = true) (h1 : 1 ≤ at' a 0) (h15 : at' a 0 ≤ 15)
    (hpair : s.tack.kemPair = some (at' a 0, seed)) (heng0 : engineOk s 0 = true) (heng1 : engineOk s 1 = true)
    (hfree : 5 ≤ s.getF LOFT_BUDGET_CFG_TOKENS) :
    kemFinish true a s = (if true then 0 else 4, [], kemDrop (kekStore (at' a 0) (kemKey seed (at' a 0) a) (budgetTaken 5 s))) := by
  unfold kemFinish
  simp only [hkeys, hzero, hpair, heng0, heng1, decide_eq_false (show ¬ at' a 0 = 0 by omega), decide_eq_false (show ¬ 15 < at' a 0 by omega),
    Bool.not_true, Bool.or_self, Bool.false_eq_true, if_false, ne_eq, not_true_eq_false, loftPay_of_le hfree, if_true]

theorem kemFinish_results (hready : yfiReady s 0x0506 m.val = true) (ha : mbArg s m.val = a) (hkeys : keysReady s = true)
    (hzero : zeroAt a [(1, 7)] = true) (h1 : 1 ≤ at' a 0) (h15 : at' a 0 ≤ 15) (hpair : s.tack.kemPair = some (at' a 0, seed))
    (heng0 : engineOk s 0 = true) (heng1 : engineOk s 1 = true) (hfree : 5 ≤ s.getF LOFT_BUDGET_CFG_TOKENS)
    (ht : yfiRun 0x0506 m (kemFinish true) s = t) :
    KeyCmdEnds s t m.val true ∧ t.tack.kemPair = none ∧ t.kek (at' a 0) = kemKey seed (at' a 0) a ∧ kekValid t (at' a 0) = true ∧
      t.tack.slots = s.tack.slots := by
  have hlen : (kemKey seed (at' a 0) a).length ≤ 4096 := by rw [kemKey_length]; decide
  have hrun := kemFinish_of_free hkeys hzero h1 h15 hpair heng0 heng1 hfree
  have hwork := ((budgetTaken_keep 5 s).trans (kekStore_work h15 hlen _)).trans (kemDrop_work _)
  have htack := (kemDrop_tack _).trans (congrArg (fun x : Tack => { x with kemPair := none }) (kekStore_tack h15 hlen (budgetTaken 5 s)))
  have hvalid := (kekValid_kemDrop _ (at' a 0)).trans (kekStore_valid h15 hlen (budgetTaken 5 s))
  rw [budgetTaken_tack] at htack
  generalize kemDrop (kekStore (at' a 0) (kemKey seed (at' a 0) a) (budgetTaken 5 s)) = u at hrun hwork htack hvalid
  obtain ⟨hends, hmail⟩ := yfiRun_ends hready (ha ▸ hrun) hwork (by decide)
  rw [ht] at hends hmail
  have htack' : t.tack = { s.tack with keks := tblSet [] (at' a 0) (kemKey seed (at' a 0) a) s.tack.keks, kemPair := none } :=
    hmail.tack.trans htack
  refine ⟨hends, by rw [htack'], ?_, ?_, by rw [htack']⟩
  · unfold State.kek
    have hkeks : t.tack.keks = tblSet [] (at' a 0) (kemKey seed (at' a 0) a) s.tack.keks := by rw [htack']
    rw [hkeks, tblGet_tblSet_same]
  · unfold kekValid at hvalid ⊢
    rw [hmail.getF (f := TR_STAT_KEK_VALID) (by decide)]
    exact hvalid

/-! ### PAIR_INSTALL (R218, R228) -/

/-- The pairing that a PAIR_INSTALL names. -/
abbrev argPairing (a v : List Byte) : Pairing := { secret := v, roleB := at' a 1 = 1, mate := at' a 3 = 1, hash := slice a 48 48 }

/-- A pairing as its bytes in the Loft (R547). -/
def pairBytes (s : State) (a v : List Byte) : List Byte :=
  wrap (s.kek 0) v ++ slice a 48 48 ++ [BitVec.ofNat 8 (at' a 1 + 2 * at' a 3)] ++ zeros 7

theorem pairBytes_length (s : State) (a v : List Byte) : (pairBytes s a v).length = v.length + 64 := by
  simp only [pairBytes, List.length_append, wrap_length, slice_length, zeros_length, List.length_cons, List.length_nil]

theorem setPairing_work (p : Nat) (x : Pairing) (s : State) : StoreWork keepOff s (setPairing p x s) :=
  ((StoreWork.refl s).withTack _).setF (f := TR_PAIR_VALID_PAIR_VALID) (by decide)

theorem setPairing_pairs (p : Nat) (x : Pairing) (s : State) : (setPairing p x s).tack.pairs = tblSet none p (some x) s.tack.pairs := by
  rw [setPairing, State.setF_tack]

theorem setPairing_keks (p : Nat) (x : Pairing) (s : State) : (setPairing p x s).tack.keks = s.tack.keks := by
  rw [setPairing, State.setF_tack]

/-- What follows an unwrap: the pairing stored and in force, where there is one; else a failure counted. -/
def pairUnwrapped (a : List Byte) (v : Option (List Byte)) (s : State) : State :=
  match v with
  | some v => setPairing (at' a 0) (argPairing a v)
      (loftStore (0x3400 + 128 * at' a 0) (pairBytes (budgetTaken 12 s) a v) (budgetTaken 12 s))
  | none => unwrapFailed s

theorem pairStored_loftWork {v : List Byte} (hv : v.length = 32) (s : State) :
    LoftWork s (loftStore (0x3400 + 128 * at' a 0) (pairBytes s a v) s) :=
  loftStore_loftWork (by have := at'_lt a 0; omega) (by rw [pairBytes_length]; omega) s

theorem pairUnwrapped_work {v : Option (List Byte)} (hv : ∀ x, v = some x → x.length = 32) (s : State) :
    StoreWork keepOff s (pairUnwrapped a v s) := by
  cases v with
  | none => exact unwrapFailed_work s
  | some x => exact ((budgetTaken_keep 12 s).trans (pairStored_loftWork (hv x rfl) _).keep).trans (setPairing_work _ _ _)

theorem pairUnwrapped_tack {v : Option (List Byte)} (hv : ∀ x, v = some x → x.length = 32) (s : State) :
    (pairUnwrapped a v s).tack.keks = s.tack.keks ∧ tblGet none (at' a 0) (pairUnwrapped a v s).tack.pairs =
      (v.map (fun x => some (argPairing a x))).getD (tblGet none (at' a 0) s.tack.pairs) := by
  cases v with
  | none =>
    unfold pairUnwrapped
    rw [unwrapFailed_tack]
    exact ⟨rfl, rfl⟩
  | some x =>
    have hstored := (pairStored_loftWork (a := a) (hv x rfl) (budgetTaken 12 s)).tack
    unfold pairUnwrapped
    rw [setPairing_keks, setPairing_pairs, hstored, budgetTaken_tack]
    exact ⟨rfl, tblGet_tblSet_same ..⟩

theorem pairInstall_of_free (hkeys : keysReady s = true) (hzero : zeroAt a [(4, 4)] = true) (h31 : at' a 0 ≤ 31) (hrole : at' a 1 ≤ 1)
    (h1 : 1 ≤ at' a 2) (h15 : at' a 2 ≤ 15) (hmate : at' a 3 ≤ 1)
    (hchans : s.chans.all (fun e => !(s.chOpen e.1 && s.isSet (BR_CFG_EN e.1) && s.getF (BR_CFG_PAIR e.1) = at' a 0)) = true)
    (heng : engineOk s 0 = true) (hfree : 12 ≤ s.getF LOFT_BUDGET_CFG_TOKENS) :
    pairInstall true a s = (if (unwrap (s.kek (at' a 2)) (slice a 8 40)).isSome then 0 else 4, [],
      pairUnwrapped a (unwrap (s.kek (at' a 2)) (slice a 8 40)) s) := by
  have hany : s.chans.any (fun e => s.chOpen e.1 && s.isSet (BR_CFG_EN e.1) && decide (s.getF (BR_CFG_PAIR e.1) = at' a 0)) = false := by
    rw [← Bool.not_eq_true', List.not_any_eq_all_not]
    exact hchans
  unfold pairInstall
  simp only [hkeys, hzero, heng, hany, decide_eq_false (show ¬ 31 < at' a 0 by omega), decide_eq_false (show ¬ 1 < at' a 1 by omega),
    decide_eq_false (show ¬ at' a 2 = 0 by omega), decide_eq_false (show ¬ 15 < at' a 2 by omega), decide_eq_false (show ¬ 1 < at' a 3 by omega),
    Bool.not_true, Bool.or_self, Bool.false_eq_true, if_false]
  cases unwrap (s.kek (at' a 2)) (slice a 8 40) with
  | none => rfl
  | some v =>
    simp only [loftPay_of_le hfree]
    rfl

theorem pairInstall_results (hready : yfiReady s 0x0507 m.val = true) (ha : mbArg s m.val = a) (hkeys : keysReady s = true)
    (hzero : zeroAt a [(4, 4)] = true) (h31 : at' a 0 ≤ 31) (hrole : at' a 1 ≤ 1) (h1 : 1 ≤ at' a 2) (h15 : at' a 2 ≤ 15) (hmate : at' a 3 ≤ 1)
    (hchans : s.chans.all (fun e => !(s.chOpen e.1 && s.isSet (BR_CFG_EN e.1) && s.getF (BR_CFG_PAIR e.1) = at' a 0)) = true)
    (heng : engineOk s 0 = true) (hfree : 12 ≤ s.getF LOFT_BUDGET_CFG_TOKENS) (ht : yfiRun 0x0507 m (pairInstall true) s = t) :
    KeyCmdEnds s t m.val (unwrap (s.kek (at' a 2)) (slice a 8 40)).isSome ∧
      tblGet none (at' a 0) t.tack.pairs =
        ((unwrap (s.kek (at' a 2)) (slice a 8 40)).map (fun v => some (argPairing a v))).getD (tblGet none (at' a 0) s.tack.pairs) ∧
      t.tack.keks = s.tack.keks := by
  have hv : ∀ x, unwrap (s.kek (at' a 2)) (slice a 8 40) = some x → x.length = 32 := unwrap_slice_length
  obtain ⟨hkeks, hpairs⟩ := pairUnwrapped_tack (a := a) hv s
  obtain ⟨hends, hmail⟩ := yfiRun_ends hready
    (by rw [ha]; exact pairInstall_of_free hkeys hzero h31 hrole h1 h15 hmate hchans heng hfree) (pairUnwrapped_work hv s) (by decide)
  rw [ht] at hends hmail
  exact ⟨hends, by rw [hmail.tack, hpairs], by rw [hmail.tack, hkeks]⟩

end

end Sys2Proof.Machine

/-!
SUPPORT. Export, policy and rekey of keys as YFI commands (spec/09 R225, R231, R236, R363).
-/

namespace Sys2Proof.Machine

section
variable {s t u : State} {m : Fin 16} {a : List Byte} {n : Nat}

theorem argBit_zero {o : Nat} (h : at' a o = 0) (i : Nat) : argBit a o i = 0 := by rw [argBit, h, Nat.zero_div, Nat.zero_mod]

/-! ### KEY_EXPORT (R231) -/

theorem keyExport_results (hready : yfiReady s 0x0509 m.val = true) (ha : mbArg s m.val = a) (hn : le a 0 2 < 512) (hrole : at' a 2 = 0)
    (hen : s.isSet TR_CFG_EXPORT_EN = true) (hcur : s.isSet (KB_ROLES_CUR_V (le a 0 2) 0) = true)
    (hkind : (s.slot (slotOf (le a 0 2) (s.getF (KB_ROLES_CUR_SLOT (le a 0 2) 0)))).kind ≠ 0) (hkek : kekUsable s (at' a 3) = true)
    (heng : engineOk s 0 = true) (ht : yfiRun 0x0509 m keyExport s = t) :
    MbDone s t m.val 0x0509 0 (wrap (s.kek (at' a 3))
      (slice (s.slot (slotOf (le a 0 2) (s.getF (KB_ROLES_CUR_SLOT (le a 0 2) 0)))).bytes 0 46 ++ [0, 0])) ∧ t.tack = s.tack ∧ t.cores = s.cores := by
  have hok : ¬ (511 < le a 0 2 ∨ 2 < at' a 2) := by omega
  refine yfiRun_same hready ?_ ?_ ht
  · rw [ha, keyExport]
    simp only [if_neg hok]
    simp only [hrole, hen, hcur, hkek, heng, hkind, decide_false, Bool.not_true, Bool.or_self, Bool.false_eq_true, if_false, if_true]
  · rw [wrap_length, List.length_append, slice_length]
    decide

/-! ### KEY_POLICY (R363, R547) -/

/-- What a change of the key policy writes: the Tack's configuration and the Loft's word of it. -/
abbrev policyOff (o : Nat) : Prop := loftOff o ∨ o = TR_CFG

theorem keyPolicyApply_work (a : List Byte) (s : State) : StoreWork policyOff s (keyPolicyApply a s) := by
  have hmin : StoreWork policyOff s (s.setF TR_CFG_PERSIST_MIN (le a 2 2)) := (StoreWork.refl s).setF (.inr rfl)
  unfold keyPolicyApply
  extract_lets u
  split
  · exact hmin
  next =>
    exact (hmin.setF (f := TR_CFG_EXPORT_EN) (.inr rfl)).trans ((loftProgram_loftWork (by decide) _ _).store.mono (fun _ => .inl))

theorem keyPolicyApply_tack (a : List Byte) (s : State) : (keyPolicyApply a s).tack = s.tack := by
  unfold keyPolicyApply
  extract_lets u w
  have hu : u.tack = s.tack := State.setF_tack _ _ _
  clear_value u w
  split
  · exact hu
  · exact (loftProgram_loftWork (by decide) _ _).tack.trans ((State.setF_tack _ _ _).trans hu)

theorem le_lt_pow (a : List Byte) (o n : Nat) : le a o n < 256 ^ n := by
  have h := leVal_lt_pow (slice a o n)
  rwa [slice_length] at h

theorem keyPolicyApply_fields (hen : at' a 0 ≤ 1) (s : State) :
    (keyPolicyApply a s).getF TR_CFG_EXPORT_EN = at' a 0 ∧ (keyPolicyApply a s).getF TR_CFG_PERSIST_MIN = le a 2 2 := by
  have hmin : (s.setF TR_CFG_PERSIST_MIN (le a 2 2)).getF TR_CFG_PERSIST_MIN = le a 2 2 :=
    (State.getF_setF_same _ _ _ (by decide) (by decide)).trans (Nat.mod_eq_of_lt (le_lt_pow a 2 2))
  unfold keyPolicyApply
  extract_lets u w
  change u.getF _ = _ at hmin
  clear_value u w
  split
  next h => exact ⟨h, hmin⟩
  next =>
    have hloft := loftProgram_loftWork (w := 29) (by decide) (BitVec.ofNat 64 (w / 2 * 2 + at' a 0)) (u.setF TR_CFG_EXPORT_EN (at' a 0))
    refine ⟨(hloft.getF (by decide)).trans ?_, (hloft.getF (by decide)).trans ?_⟩
    · refine (State.getF_setF_same _ _ _ (by decide) (by decide)).trans (Nat.mod_eq_of_lt ?_)
      exact Nat.lt_of_le_of_lt hen (by decide)
    · exact (State.getF_setF_apart _ TR_CFG_EXPORT_EN TR_CFG_PERSIST_MIN _ rfl).trans hmin

theorem Committed.tack (h : Committed s t) : t.tack = s.tack := by rw [h.eqv]

theorem BudgetWork.tack (h : BudgetWork s u) : u.tack = s.tack := by rw [h.eqv]

theorem keyPolicy_results (h : CfgReady s keyPolicyCmd m.val) (ha : mbArg s m.val = a) (ht : cfgRun keyPolicyCmd m true s = t) :
    CfgDone s t keyPolicyCmd m.val [] ∧ t.getF TR_CFG_EXPORT_EN = at' a 0 ∧ t.getF TR_CFG_PERSIST_MIN = le a 2 2 ∧ t.tack = s.tack ∧
      t.cores = s.cores := by
  have hen : at' a 0 ≤ 1 := by
    obtain ⟨-, -, -, hcheck, -⟩ := h
    replace hcheck : firstStatus [(!zeroAt (mbArg s m.val) [(1, 1)] || decide (1 < at' (mbArg s m.val) 0), 2)] = 0 := hcheck
    rw [ha, firstStatus_cons_eq_zero (by decide), Bool.or_eq_false_iff, decide_eq_false_iff_not] at hcheck
    omega
  obtain ⟨hdone, u, hu, hcom⟩ := cfgRun_done (data := []) h ha (by decide)
    (cfgRecords_nodup rfl (by decide) rfl (l := [0, 2]) (by decide) (by decide))
    (fun u _ => ⟨rfl, (keyPolicyApply_work a u).buf, (keyPolicyApply_work a u).writes.getF (by decide)⟩)
  rw [ht] at hdone hcom
  replace hcom : Committed (keyPolicyApply a u) t := hcom
  obtain ⟨hexport, hpersist⟩ := keyPolicyApply_fields hen u
  refine ⟨hdone, (hcom.getF (by decide) (by decide)).trans hexport, (hcom.getF (by decide) (by decide)).trans hpersist, ?_, ?_⟩
  · exact hcom.tack.trans ((keyPolicyApply_tack a u).trans hu.tack)
  · exact hcom.cores.trans ((keyPolicyApply_work a u).cores.trans hu.cores)

/-! ### A spare slot taken (R225) -/

/-- The role words of a channel's key block, for both directions. -/
abbrev rolesOff (n o : Nat) : Prop := o = KB_ROLES n 0 ∨ o = KB_ROLES n 1

theorem rolesOff_of_mem {d : Nat} (hd : d ∈ [0, 1]) : rolesOff n (KB_ROLES n d) := by
  rcases List.mem_pair.mp hd with rfl | rfl
  · exact .inl rfl
  · exact .inr rfl

theorem RegWork.foldl {α : Type} {P : Nat → Prop} {f : State → α → State} (l : List α) (hf : ∀ u, ∀ a ∈ l, RegWork P u (f u a)) (s : State) :
    RegWork P s (l.foldl f s) := by
  induction l generalizing s with
  | nil => exact .refl s
  | cons a l ih =>
    exact (hf s a (List.mem_cons_self ..)).trans (ih (fun u b hb => hf u b (List.mem_cons_of_mem _ hb)) _)

theorem setSpare_regWork (n : Nat) (i : Option Nat) (s : State) : RegWork (rolesOff n) s (setSpare n i s) := by
  unfold setSpare
  refine RegWork.foldl _ (fun u d hd => ?_) s
  have hk := rolesOff_of_mem (n := n) hd
  cases i with
  | none => exact ((RegWork.refl u).setF hk).setF hk
  | some k => exact ((RegWork.refl u).setF hk).setF hk

theorem setSpare_slot {i : Nat} (hi : i < 4) : (setSpare n (some i) s).getF (KB_ROLES_SPARE_SLOT n 0) = i := by
  have hstep : ∀ (u : State), (((u.setF (KB_ROLES_SPARE_V n 0) 1).setF (KB_ROLES_SPARE_SLOT n 0) i)).getF (KB_ROLES_SPARE_SLOT n 0) = i := fun u =>
    (State.getF_setF_same _ (KB_ROLES_SPARE_SLOT n 0) _ (by decide : (0 : Nat) ≤ 1) (by decide : (1 : Nat) < 32)).trans (Nat.mod_eq_of_lt hi)
  have hne : KB_ROLES n 1 ≠ KB_ROLES n 0 := by simp only [KB_ROLES]; omega
  exact ((State.getF_setF_ne _ (KB_ROLES_SPARE_SLOT n 1) (KB_ROLES_SPARE_SLOT n 0) _ hne).trans (State.getF_setF_ne _ (KB_ROLES_SPARE_V n 1) (KB_ROLES_SPARE_SLOT n 0) _ hne)).trans (hstep s)

theorem freeIndex_lt {i : Nat} (h : freeIndex s n = some i) : i < 4 := by
  have hmem := List.mem_of_find?_eq_some h
  simp only [List.mem_cons, List.not_mem_nil, or_false] at hmem
  omega

/-- The slot that a filling takes: the spare one, or the first free one (R225). -/
abbrev fillIndex (s : State) (n : Nat) : Nat :=
  if s.isSet (KB_ROLES_SPARE_V n 0) then s.getF (KB_ROLES_SPARE_SLOT n 0) else (freeIndex s n).getD 0

/-- Where a slot is spare or free, a filling takes it and both blocks show it. -/
theorem takeSpare_taken (h : s.isSet (KB_ROLES_SPARE_V n 0) = true ∨ (freeIndex s n).isSome = true) :
    ∃ u, takeSpare n s = (some (fillIndex s n, u), u) ∧ RegWork (rolesOff n) s u ∧ u.getF (KB_ROLES_SPARE_SLOT n 0) = fillIndex s n ∧
      fillIndex s n < 4 := by
  unfold fillIndex takeSpare
  by_cases hv : s.isSet (KB_ROLES_SPARE_V n 0) = true
  · rw [if_pos hv, if_pos hv]
    exact ⟨s, rfl, .refl s, rfl, State.getF_lt s (KB_ROLES_SPARE_SLOT n 0)⟩
  · obtain ⟨i, hi⟩ := Option.isSome_iff_exists.mp (h.resolve_left hv)
    rw [if_neg hv, if_neg hv, hi]
    exact ⟨_, rfl, setSpare_regWork n _ s, setSpare_slot (freeIndex_lt hi), freeIndex_lt hi⟩

/-! ### KEY_REKEY (R236, R363) -/

/-- An exchange begun in the session's record. -/
def exchBegun (n e : Nat) (s : State) : State :=
  ((s.modBr n (fun b => { b with exch := some (freshExch e true) })).setF (BR_STAT_EXCH n) 1).setF (BR_STAT_TRIES n) 0

theorem exchBegun_work (n e : Nat) (s : State) : KeyWork (· = BR_STAT n) s (exchBegun n e s) := by
  have hbr : KeyWork (· = BR_STAT n) s (s.modBr n (fun b => { b with exch := some (freshExch e true) })) := (KeyWork.refl s).modChan n _
  exact (hbr.setF (f := BR_STAT_EXCH n) rfl).setF (f := BR_STAT_TRIES n) rfl

theorem exchBegun_mem (n e : Nat) (s : State) : (exchBegun n e s).mem = s.mem := by rw [(exchBegun_work n e s).eqv]

theorem exchBegun_br (n e : Nat) (s : State) : ((exchBegun n e s).chan n).br.exch = some (freshExch e true) := by
  rw [exchBegun, State.chan_setF, State.chan_setF, State.chan_modBr]

theorem exchBegun_stat (n e : Nat) (s : State) :
    (exchBegun n e s).getF (BR_STAT_EXCH n) = 1 ∧ (exchBegun n e s).getF (BR_STAT_TRIES n) = 0 := by
  constructor
  · refine (State.getF_setF_apart _ (BR_STAT_TRIES n) (BR_STAT_EXCH n) _ rfl).trans ?_
    exact State.getF_setF_same _ (BR_STAT_EXCH n) _ (by decide : (12 : Nat) ≤ 12) (by decide : (12 : Nat) < 32)
  · exact State.getF_setF_same _ (BR_STAT_TRIES n) _ (by decide : (13 : Nat) ≤ 15) (by decide : (15 : Nat) < 32)

theorem nextEpoch_congr (h : t.chans = s.chans) : nextEpoch t n = nextEpoch s n := by
  unfold nextEpoch
  rw [State.chan_congr h]

theorem RegWork.chans {P : Nat → Prop} (h : RegWork P s t) : t.chans = s.chans := by rw [h.eqv]

/-- An exchange starts where keys are the hardware's, a session is up, nothing is under way, and a slot can be filled (R256). -/
theorem startExchange_of_ready (hkeys : s.hwKeys n = true) (hup : s.brUp n = true) (hexch : (s.chan n).br.exch = none)
    (hlock : nextLocked s n = false) (hlead : (s.chTwin n && s.isFollower) = false) (heng1 : engineOk s 1 = true) (heng2 : engineOk s 2 = true)
    (hslot : s.isSet (KB_ROLES_SPARE_V n 0) = true ∨ (freeIndex s n).isSome = true) :
    ∃ u, startExchange n s = exchBegun n (nextEpoch s n) u ∧ RegWork (rolesOff n) s u ∧ u.getF (KB_ROLES_SPARE_SLOT n 0) = fillIndex s n := by
  obtain ⟨u, htake, hwork, hspare, -⟩ := takeSpare_taken hslot
  refine ⟨u, ?_, hwork, hspare⟩
  have hready : (s.hwKeys n && s.brUp n && (s.chan n).br.exch.isNone && !nextLocked s n && !(s.chTwin n && s.isFollower) && engineOk s 1
      && engineOk s 2) = true := by
    rw [hkeys, hup, hexch, hlock, hlead, heng1, heng2]
    rfl
  unfold startExchange
  rw [if_pos hready, htake, ← nextEpoch_congr (n := n) hwork.chans]
  rfl

theorem keyRekey_results (hready : yfiReady s 0x050B m.val = true) (ha : le (mbArg s m.val) 0 2 = n) (hn : n < 512) (hkeys : s.hwKeys n = true)
    (hup : s.brUp n = true) (hexch : (s.chan n).br.exch = none) (hout : (s.chan n).swOut = none) (hin : (s.chan n).swIn = none)
    (hlock : nextLocked s n = false) (hlead : (s.chTwin n && s.isFollower) = false) (heng1 : engineOk s 1 = true) (heng2 : engineOk s 2 = true)
    (hslot : s.isSet (KB_ROLES_SPARE_V n 0) = true ∨ (freeIndex s n).isSome = true) (ht : yfiRun 0x050B m keyRekey s = t) :
    MbDone s t m.val 0x050B 0 (leBytes 4 (nextEpoch s n)) ∧ (t.chan n).br.exch = some (freshExch (nextEpoch s n) true) ∧
      (t.chan n).beginOut = s.beat ∧ t.getF (BR_STAT_EXCH n) = 1 ∧ t.getF (BR_STAT_TRIES n) = 0 ∧
      t.getF (KB_ROLES_SPARE_SLOT n 0) = fillIndex s n ∧ t.cores = s.cores := by
  obtain ⟨u, hstart, hu, hspare⟩ := startExchange_of_ready hkeys hup hexch hlock hlead heng1 heng2 hslot
  have hrun : keyRekey (mbArg s m.val) s =
      (0, leBytes 4 (nextEpoch s n), (exchBegun n (nextEpoch s n) u).modChan n (fun c => { c with beginOut := s.beat })) := by
    unfold keyRekey
    rw [ha, ← hstart]
    simp only [show ¬ 511 < n by omega, hkeys, hup, hexch, hout, hin, hlock, Option.isSome_none, Bool.or_self, Bool.not_true, Bool.false_eq_true,
      if_false]
  have hbegun := exchBegun_work n (nextEpoch s n) u
  have hbr := exchBegun_br n (nextEpoch s n) u
  obtain ⟨hstat, htries⟩ := exchBegun_stat n (nextEpoch s n) u
  have hmem : (exchBegun n (nextEpoch s n) u).mem = s.mem := by rw [exchBegun_mem, hu.eqv]
  have hcores : (exchBegun n (nextEpoch s n) u).cores = s.cores := by rw [hbegun.cores, hu.eqv]
  have hslot' : (exchBegun n (nextEpoch s n) u).getF (KB_ROLES_SPARE_SLOT n 0) = fillIndex s n :=
    (hbegun.writes.getF (by simp only [KB_ROLES_SPARE_SLOT, KB_ROLES, BR_STAT]; omega)).trans hspare
  generalize exchBegun n (nextEpoch s n) u = w at hrun hbr hstat htries hmem hcores hslot'
  have hchan := State.chan_modChan_same w n (fun c => { c with beginOut := s.beat })
  obtain ⟨hdone, hmail⟩ := yfiRun_done hready hrun (.of_mem hmem) (by decide) (by rw [leBytes_length]; decide)
  rw [ht] at hdone hmail
  have hkeep : ∀ f : Fld, f.off = BR_STAT n ∨ f.off = KB_ROLES n 0 → t.getF f = w.getF f := fun f hf =>
    hmail.getF (by simp only [BR_STAT, KB_ROLES] at hf; omega)
  refine ⟨hdone, ?_, ?_, (hkeep _ (.inl rfl)).trans hstat, (hkeep _ (.inl rfl)).trans htries, (hkeep _ (.inr rfl)).trans hslot',
    hmail.cores.trans hcores⟩
  · rw [hmail.chan, hchan]
    exact hbr
  · rw [hmail.chan, hchan]

end

end Sys2Proof.Machine

/-!
SUPPORT. KEY_INSTALL (spec/09 R225, R227, R241, R362): a filled spare slot that becomes next, and the answer of an install that waits for nothing.
-/

namespace Sys2Proof.Machine

section
variable {s t u : State} {n i : Nat}

/-! ### What a message on the links leaves -/

/-- Messages on the links and the fabric's events lead from `s` to `t`: the registers below the fabric's, every key and every core are as they were. -/
structure OutWork (s t : State) : Prop where
  writes : Writes (0x27000000 ≤ ·) s t
  eqv : t = { s with csr := t.csr, bell := t.bell, ledger := t.ledger, chans := t.chans, twin := t.twin, fab := t.fab, outs := t.outs }

theorem OutWork.refl (s : State) : OutWork s s := ⟨.refl s, rfl⟩

theorem OutWork.trans (h : OutWork s t) (g : OutWork t u) : OutWork s u := ⟨h.writes.trans g.writes, by rw [g.eqv, h.eqv]⟩

theorem OutWork.ite {c : Prop} [Decidable c] (h : OutWork s t) (g : OutWork s u) : OutWork s (if c then t else u) := by
  split <;> assumption

theorem OutWork.setF {f : Fld} {v : Nat} (h : OutWork s t) (hf : 0x27000000 ≤ f.off) : OutWork s (t.setF f v) :=
  h.trans ⟨(Writes.refl t).setF hf, rfl⟩

theorem OutWork.modChan (h : OutWork s t) (n : Nat) (f : Chan → Chan) : OutWork s (t.modChan n f) := h.trans ⟨(Writes.refl t).csr rfl, rfl⟩

theorem OutWork.withFab (h : OutWork s t) (x : Fabric) : OutWork s { t with fab := x } := h.trans ⟨(Writes.refl t).csr rfl, rfl⟩

theorem LinkWork.outWork (h : LinkWork s t) : OutWork s t :=
  ⟨(Writes.refl s).csr h.csr, by
    have hk : t.csr = s.csr ∧ t.bell = s.bell ∧ t.ledger = s.ledger := by rw [h.eqv]; exact ⟨rfl, rfl, rfl⟩
    rw [hk.1, hk.2.1, hk.2.2]
    exact h.eqv⟩

theorem Quiet.outWork (h : Quiet s t) : OutWork s t :=
  ⟨h.writes.mono (fun o ho => by simp only [quietOff] at ho; omega), by
    have hk : t.chans = s.chans ∧ t.twin = s.twin ∧ t.fab = s.fab := by rw [h.eqv]; exact ⟨rfl, rfl, rfl⟩
    rw [hk.1, hk.2.1, hk.2.2]
    exact h.eqv⟩

theorem OutWork.tack (h : OutWork s t) : t.tack = s.tack := by rw [h.eqv]
theorem OutWork.cores (h : OutWork s t) : t.cores = s.cores := by rw [h.eqv]
theorem OutWork.pos (h : OutWork s t) : t.pos = s.pos := by rw [h.eqv]

theorem fabEvt_outWork (i code data : Nat) (s : State) : OutWork s (fabEvt i code data s) := by
  have hline : OutWork s (fabLine i (s.setF ⟨FAB_EVT, i, i⟩ 1)) :=
    ((OutWork.refl s).setF (by simp only [FAB_EVT]; decide)).trans (bellInput_quiet _ _ _).outWork
  exact .ite hline (hline.trans (report_quiet _ _ _ _ _).outWork)

theorem fabSend_outWork (dst typ status tag addr : Nat) (body : List Byte) (s : State) : OutWork s (fabSend dst typ status tag addr body s) := by
  unfold fabSend
  extract_lets vc key een
  split
  · exact .refl s
  · split
    · exact fabEvt_outWork _ _ _ s
    · exact ((OutWork.refl s).withFab _).trans (zSend_linkWork _ _ _ _).outWork

theorem slotSend_outWork (n i role : Nat) (s : State) : OutWork s (slotSend n i role s) := by
  have hwitness : OutWork s (if s.isSet (TWC_CFG_WIT_EN n) then
      witnessSend n (slotRecord s (witnessKey s (s.getF (TWC_CFG_WIT_ID n))) n i role) s else s) :=
    .ite (.ite (fabSend_outWork _ _ _ _ _ _ s) (.refl s)) (.refl s)
  unfold slotSend
  refine .ite ?_ (.refl s)
  exact (hwitness.modChan n _).trans (twinSend_linkWork _ _).outWork

/-! ### The filled spare slot becomes next (R225 step 2) -/

/-- Both blocks show slot `i` as next. -/
def nextShown (n i : Nat) (s : State) : State :=
  [0, 1].foldl (fun s d => (s.setF (KB_ROLES_NEXT_V n d) 1).setF (KB_ROLES_NEXT_SLOT n d) i) s

/-- Slot `i` of a channel has become next, with AN `an`; nothing is spare, and what no role names is free. -/
def spareMoved (n i an : Nat) (s : State) : State := reapSlots n (setSpare n none (nextShown n i (replayClear n an s)))

theorem spareToNext_eq (n : Nat) (s : State) (hi : s.getF (KB_ROLES_SPARE_SLOT n 0) = i) :
    spareToNext n s = slotSend n i 0 (spareMoved n i (s.slot (slotOf n i)).an s) := by
  subst hi
  rfl

/-- What the move of a slot from spare to next may write. -/
abbrev movedOff (n o : Nat) : Prop := CH_REPLAY n 0 ≤ o ∨ rolesOff n o

theorem replayClear_work (n an : Nat) (s : State) : KeyWork (movedOff n) s (replayClear n an s) := by
  have hoff : ∀ j, movedOff n (CH_REPLAY n j) ∧ movedOff n (CH_REPLAY n j + 4) := fun j => by
    simp only [movedOff, CH_REPLAY]
    omega
  unfold replayClear
  split
  · exact (((KeyWork.refl s).wr64 (hoff _).1 (hoff _).2).wr64 (hoff _).1 (hoff _).2).modChan n _
  · exact .refl s

theorem State.modChan_tack (s : State) (n : Nat) (f : Chan → Chan) : (s.modChan n f).tack = s.tack := (rfl)

theorem replayClear_tack (n an : Nat) (s : State) : (replayClear n an s).tack = s.tack := by
  unfold replayClear
  split
  · rw [State.modChan_tack, State.wr64_tack, State.wr64_tack]
  · rfl

theorem nextShown_regWork (n i : Nat) (s : State) : RegWork (rolesOff n) s (nextShown n i s) := by
  unfold nextShown
  refine RegWork.foldl _ (fun u d hd => ?_) s
  exact ((RegWork.refl u).setF (rolesOff_of_mem hd)).setF (rolesOff_of_mem hd)

theorem nextShown_fields (hi : i < 4) {d : Nat} (hd : d ∈ [0, 1]) :
    (nextShown n i s).isSet (KB_ROLES_NEXT_V n d) = true ∧ (nextShown n i s).getF (KB_ROLES_NEXT_SLOT n d) = i := by
  have hset : ∀ (u : State) (d : Nat), ((u.setF (KB_ROLES_NEXT_V n d) 1).setF (KB_ROLES_NEXT_SLOT n d) i).isSet (KB_ROLES_NEXT_V n d) = true ∧
      ((u.setF (KB_ROLES_NEXT_V n d) 1).setF (KB_ROLES_NEXT_SLOT n d) i).getF (KB_ROLES_NEXT_SLOT n d) = i := fun u d =>
    ⟨(State.isSet_setF_apart _ (KB_ROLES_NEXT_SLOT n d) (KB_ROLES_NEXT_V n d) _ rfl).trans
        (State.isSet_setF_bit _ (KB_ROLES_NEXT_V n d) rfl (by decide : (30 : Nat) < 32)),
      (State.getF_setF_same _ (KB_ROLES_NEXT_SLOT n d) _ (by decide : (4 : Nat) ≤ 5) (by decide : (5 : Nat) < 32)).trans (Nat.mod_eq_of_lt hi)⟩
  have hne : KB_ROLES n 1 ≠ KB_ROLES n 0 := by simp only [KB_ROLES]; omega
  have hother : ∀ (u : State), ((u.setF (KB_ROLES_NEXT_V n 1) 1).setF (KB_ROLES_NEXT_SLOT n 1) i).rd (KB_ROLES n 0) = u.rd (KB_ROLES n 0) := fun u =>
    (State.rd_setF_ne _ (KB_ROLES_NEXT_SLOT n 1) _ _ hne).trans (State.rd_setF_ne _ (KB_ROLES_NEXT_V n 1) _ _ hne)
  rcases List.mem_pair.mp hd with rfl | rfl
  · exact ⟨(State.isSet_congr (hother _)).trans (hset s 0).1, (State.getF_congr (hother _)).trans (hset s 0).2⟩
  · exact hset _ 1

theorem setSpare_none : (setSpare n none s).isSet (KB_ROLES_SPARE_V n 0) = false := by
  have hne : KB_ROLES n 1 ≠ KB_ROLES n 0 := by simp only [KB_ROLES]; omega
  refine (State.isSet_congr ((State.rd_setF_ne _ (KB_ROLES_SPARE_SLOT n 1) _ _ hne).trans
    (State.rd_setF_ne _ (KB_ROLES_SPARE_V n 1) _ _ hne))).trans ?_
  exact (State.isSet_setF_apart _ (KB_ROLES_SPARE_SLOT n 0) (KB_ROLES_SPARE_V n 0) _ rfl).trans
    (State.isSet_setF_bit_zero _ (KB_ROLES_SPARE_V n 0) rfl (by decide : (28 : Nat) < 32))

/-! ### A slot that a role names is not reaped -/

theorem slotNamed_of_next (hv : s.isSet (KB_ROLES_NEXT_V n 0) = true) (hs : s.getF (KB_ROLES_NEXT_SLOT n 0) = i) : slotNamed s n i = true := by
  simp [slotNamed, hv, hs]

/-- Slot `i` of channel n is next in the outbound block. -/
abbrev NextIs (s : State) (n i : Nat) : Prop := s.isSet (KB_ROLES_NEXT_V n 0) = true ∧ s.getF (KB_ROLES_NEXT_SLOT n 0) = i

theorem freeSlot_slot_ne {j k : Nat} (h : j ≠ k) : (freeSlot j s).slot k = s.slot k := by
  unfold State.slot
  rw [freeSlot, slotsRefresh, State.setF_tack]
  show tblGet Slot.reset k (tblSet Slot.reset j Slot.reset s.tack.slots) = _
  exact tblGet_tblSet_ne _ _ _ _ _ _ h

theorem reapSlots_work (n : Nat) (s : State) : KeyWork (· = TR_STAT) s (reapSlots n s) :=
  KeyWork.foldl _ (fun u _ _ => .ite (freeSlot_work _) (.refl u)) s

theorem reapSlots_slot (hn : n < 512) (h : NextIs s n i) : (reapSlots n s).slot (slotOf n i) = s.slot (slotOf n i) := by
  have hfold : ∀ (l : List Nat) (u : State), NextIs u n i → (l.foldl (fun s j =>
      if !slotNamed s n j && decide ((s.slot (slotOf n j)).kind ≠ 0) && !(s.units.any (fun u => u.slot = slotOf n j)) then freeSlot (slotOf n j) s
      else s) u).slot (slotOf n i) = u.slot (slotOf n i) := by
    intro l
    induction l with
    | nil => exact fun _ _ => rfl
    | cons j l ih =>
      intro u hu
      rw [List.foldl_cons]
      split
      next hfree =>
        have hj : j ≠ i := by
          rintro rfl
          rw [slotNamed_of_next hu.1 hu.2] at hfree
          exact absurd hfree (by simp)
        have hfreed := (freeSlot_work (s := u) (slotOf n j)).writes
        have hne : TR_STAT ≠ KB_ROLES n 0 := by simp only [TR_STAT, KB_ROLES]; omega
        refine (ih _ ⟨(hfreed.isSet (f := KB_ROLES_NEXT_V n 0) hne.symm).trans hu.1, (hfreed.getF (f := KB_ROLES_NEXT_SLOT n 0) hne.symm).trans hu.2⟩).trans ?_
        exact freeSlot_slot_ne (by simp only [slotOf]; omega)
      next => exact ih u hu
  exact hfold [0, 1, 2, 3] s h

/-- What the move of a slot from spare to next has done. -/
theorem spareMoved_spec (hn : n < 512) (hi : i < 4) (an : Nat) (s : State) :
    KeyWork (fun o => movedOff n o ∨ o = TR_STAT) s (spareMoved n i an s) ∧
      (∀ d ∈ [0, 1], (spareMoved n i an s).isSet (KB_ROLES_NEXT_V n d) = true ∧ (spareMoved n i an s).getF (KB_ROLES_NEXT_SLOT n d) = i) ∧
      (spareMoved n i an s).isSet (KB_ROLES_SPARE_V n 0) = false ∧ (spareMoved n i an s).slot (slotOf n i) = s.slot (slotOf n i) := by
  have hclear := replayClear_work n an s
  have htack := replayClear_tack n an s
  have hnext := nextShown_regWork n i (replayClear n an s)
  have hfields := fun d hd => nextShown_fields (n := n) (s := replayClear n an s) hi (d := d) hd
  unfold spareMoved
  generalize replayClear n an s = u at hclear htack hnext hfields ⊢
  generalize nextShown n i u = v at hnext hfields ⊢
  have hspare := setSpare_regWork n none v
  have hoff := setSpare_none (n := n) (s := v)
  have hkept := fun d hd => And.intro
    ((setSpare_getF (n := n) none (f := KB_ROLES_NEXT_V n d) (by decide : (30 : Nat) ≤ 30) (by decide : (1 : Nat) < 30)
      (.inr (by decide : (28 : Nat) < 30))).trans (by have := (hfields d hd).1; unfold State.isSet at this; exact of_decide_eq_true this))
    ((setSpare_getF (n := n) none (f := KB_ROLES_NEXT_SLOT n d) (by decide : (4 : Nat) ≤ 5) (by decide : (1 : Nat) < 4)
      (.inl (by decide : (5 : Nat) < 28))).trans (hfields d hd).2)
  generalize setSpare n none v = w at hspare hoff hkept ⊢
  have hisNext : NextIs w n i := ⟨by unfold State.isSet; exact decide_eq_true (hkept 0 (by decide)).1, (hkept 0 (by decide)).2⟩
  have hreap := reapSlots_work n w
  have hslot := reapSlots_slot hn hisNext
  refine ⟨?_, fun d hd => ?_, ?_, ?_⟩
  · refine ((hclear.mono (fun _ => .inl)).trans (((hnext.keyWork (fun _ h => .inl (.inr h))).trans (hspare.keyWork (fun _ h => .inl (.inr h)))))).trans ?_
    exact hreap.mono (fun _ => .inr)
  · have hd2 := roles_lt hd
    have hrole : KB_ROLES n d ≠ TR_STAT := by simp only [KB_ROLES, TR_STAT]; omega
    refine ⟨(hreap.writes.isSet (f := KB_ROLES_NEXT_V n d) hrole).trans ?_, (hreap.writes.getF (f := KB_ROLES_NEXT_SLOT n d) hrole).trans (hkept d hd).2⟩
    unfold State.isSet
    exact decide_eq_true (hkept d hd).1
  · have hrole : KB_ROLES n 0 ≠ TR_STAT := by simp only [KB_ROLES, TR_STAT]; omega
    exact (hreap.writes.isSet (f := KB_ROLES_SPARE_V n 0) hrole).trans hoff
  · refine hslot.trans ?_
    unfold State.slot
    rw [hspare.tack, hnext.tack, htack]

end

end Sys2Proof.Machine

/-!
SUPPORT. The answer of KEY_INSTALL (spec/09 R241, R362): an install that waits for no mark and no switch ends at once.
-/

namespace Sys2Proof.Machine

section
variable {s t u : State} {m : Fin 16} {a : List Byte} {n i : Nat}

/-! ### Installs that wait for nothing -/

/-- A mailbox shows the end of a command with OK. -/
abbrev EndsOk (s : State) (m : Nat) : Prop := s.getF (MB_STATUS_STATE m) = 3 ∧ s.getF (MB_STATUS_RESULT m) = 0

/-- The answer writes the registers of its mailbox's end alone. -/
theorem mbDone_rd (b st : Nat) (data : List Byte) (s : State) :
    ∃ u, (∀ o, u.rd o = s.rd o) ∧ ∀ o, (mbDone b st data s).rd o = (mbEnded b st u).rd o := by
  refine ⟨s.setBytes (rspBuf b) (mbResponse (mbOp s b) st 0 (mbTag s b) s.gen s.stamp.toNat data), fun o => State.rd_setBytes .., fun o => ?_⟩
  rw [mbDone_eq, State.rd_of_csr (mbJournal_csr ..), mbAnswered_rd]

theorem mbDone_endsOk (b : Nat) (data : List Byte) (s : State) : EndsOk (mbDone b 0 data s) b := by
  obtain ⟨u, -, hrd⟩ := mbDone_rd b 0 data s
  obtain ⟨hstate, hresult, -⟩ := mbEnded_spec b (st := 0) (by decide) u
  exact ⟨(State.getF_congr (hrd _)).trans hstate, (State.getF_congr (hrd _)).trans hresult⟩

theorem mbDone_keeps_endsOk (b : Nat) (data : List Byte) {m : Nat} (h : EndsOk s m) : EndsOk (mbDone b 0 data s) m := by
  by_cases hb : b = m
  · subst hb
    exact mbDone_endsOk b data s
  · obtain ⟨u, hu, hrd⟩ := mbDone_rd b 0 data s
    have hkeep : (mbDone b 0 data s).rd (MB_STATUS m) = s.rd (MB_STATUS m) := by
      have hstatus : MB_STATUS b ≠ MB_STATUS m := by simp only [MB_STATUS]; omega
      have hevent : MB_EVT b ≠ MB_STATUS m := by simp only [MB_STATUS, MB_EVT]; omega
      rw [hrd, ← hu]
      exact ((State.rd_setF_ne _ (MB_EVT_DONE b) _ _ hevent).trans (State.rd_setF_ne _ (MB_STATUS_STATE b) _ _ hstatus)).trans
        (State.rd_setF_ne _ (MB_STATUS_RESULT b) _ _ hstatus)
    exact ⟨(State.getF_congr hkeep).trans h.1, (State.getF_congr hkeep).trans h.2⟩

/-- Every mailbox of a list of installs that end has ended with OK. -/
theorem installs_endsOk (l : List Install) (s : State) (m : Nat) (h : (∃ x ∈ l, x.box = m) ∨ EndsOk s m) :
    EndsOk (l.foldl (fun s x => mbDone x.box 0 x.rsp s) s) m := by
  induction l generalizing s with
  | nil => exact h.resolve_left (fun ⟨_, hx, _⟩ => absurd hx List.not_mem_nil)
  | cons y l ih =>
    refine ih _ ?_
    rcases h with ⟨x, hx, hbox⟩ | h
    · rcases List.mem_cons.mp hx with rfl | hx
      · exact .inr (hbox ▸ mbDone_endsOk _ _ s)
      · exact .inl ⟨x, hx, hbox⟩
    · exact .inr (mbDone_keeps_endsOk _ _ h)

theorem MailWork.refl (s : State) : MailWork s s := ⟨fun _ _ => rfl, rfl, List.suffix_rfl⟩

theorem MailWork.foldl {α : Type} {f : State → α → State} (l : List α) (hf : ∀ u a, MailWork u (f u a)) (s : State) :
    MailWork s (l.foldl f s) := by
  induction l generalizing s with
  | nil => exact .refl s
  | cons a l ih => exact (hf s a).trans (ih _)

theorem installsEnd_mailWork (s : State) : MailWork s (installsEnd s) := by
  unfold installsEnd
  extract_lets go
  exact ((MailWork.refl s).ym _).trans (MailWork.foldl _ (fun u x => mbDone_mailWork _ _ _ _) _)

theorem installsEnd_endsOk {x : Install} (hx : x ∈ s.ym.installs) (harm : x.arm = none) (hmarks : x.marks = []) : EndsOk (installsEnd s) x.box := by
  unfold installsEnd
  extract_lets go
  refine installs_endsOk go _ _ (.inl ⟨x, List.mem_filter.mpr ⟨hx, ?_⟩, rfl⟩)
  rw [harm, hmarks]
  rfl

/-! ### The key put in the slot (R241) -/

/-- A slot filled, and the count of slots shown. -/
def slotFilled (j : Nat) (x : Slot) (s : State) : State := slotsRefresh (s.setSlot j x)

theorem slotFilled_work (j : Nat) (x : Slot) (s : State) : KeyWork (· = TR_STAT) s (slotFilled j x s) :=
  ((KeyWork.refl s).withTack _).setF (f := TR_STAT_SLOTS_USED) rfl

theorem slotFilled_slot (j : Nat) (x : Slot) (s : State) : (slotFilled j x s).slot j = x := by
  unfold State.slot
  rw [slotFilled, slotsRefresh, State.setF_tack]
  show tblGet Slot.reset j (tblSet Slot.reset j x s.tack.slots) = x
  exact tblGet_tblSet_same Slot.reset _ _ _

/-- An install entered among those under way. -/
def installQueued (m : Nat) (x : Install) (s : State) : State :=
  { s.setF (MB_STATUS_STATE m) 2 with ym := { (s.setF (MB_STATUS_STATE m) 2).ym with installs := (s.setF (MB_STATUS_STATE m) 2).ym.installs ++ [x] } }

theorem installQueued_mem (m : Nat) (x : Install) (s : State) : x ∈ (installQueued m x s).ym.installs :=
  List.mem_append_right _ (List.mem_singleton_self x)

theorem installQueued_mailWork (m : Nat) (x : Install) (s : State) : MailWork s (installQueued m x s) :=
  ((MailWork.refl s).setF (f := MB_STATUS_STATE m) (by simp only [MB_STATUS_STATE, MB_STATUS]; omega)).ym _

/-- The slot that a plain KEY_INSTALL fills (R241). -/
abbrev installedSlot (s : State) (a p : List Byte) : Slot :=
  { kind := 2, bytes := p.take 46, epoch := nextEpoch s (le a 0 2),
    an := if s.chMode (le a 0 2) = 0 then at' a 4 else nextEpoch s (le a 0 2) % 4, keyId := slice a 8 16, persist := false, bad := false }

/-- The install that a plain KEY_INSTALL enters: no switch, no mark. -/
abbrev plainInstall (m : Nat) (s : State) (a : List Byte) : Install :=
  { box := m, ch := le a 0 2, slot := s.getF (KB_ROLES_SPARE_SLOT (le a 0 2) 0), epoch := nextEpoch s (le a 0 2), arm := none, marks := [],
    rsp := installRsp false false (nextEpoch s (le a 0 2)) (s.getF (KB_ROLES_SPARE_SLOT (le a 0 2) 0)) }

theorem keyInstalled_plain (m : Nat) {a : List Byte} (p : List Byte) (h : at' a 3 = 0) (s : State) :
    keyInstalled m a p s = installsEnd (installQueued m (plainInstall m s a) (spareToNext (le a 0 2)
      (slotFilled (slotOf (le a 0 2) (s.getF (KB_ROLES_SPARE_SLOT (le a 0 2) 0))) (installedSlot s a p) s))) := by
  unfold keyInstalled
  simp only [argBit_zero h, Nat.zero_ne_one, decide_false, Bool.false_and, Bool.false_eq_true, if_false]
  rfl

/-- From `s` to `t` the role words of a channel and every key are as they were, and the cores and the position unit with them. -/
structure RolesKept (n : Nat) (s t : State) : Prop where
  rd : ∀ d ∈ [0, 1], t.rd (KB_ROLES n d) = s.rd (KB_ROLES n d)
  tack : t.tack = s.tack
  cores : t.cores = s.cores
  pos : t.pos = s.pos

theorem RolesKept.trans (h : RolesKept n s t) (g : RolesKept n t u) : RolesKept n s u :=
  ⟨fun d hd => (g.rd d hd).trans (h.rd d hd), g.tack.trans h.tack, g.cores.trans h.cores, g.pos.trans h.pos⟩

theorem kbRoles_lt (hn : n < 512) {d : Nat} (hd : d ∈ [0, 1]) : KB_ROLES n d < 0x24000000 := by
  have := roles_lt hd
  simp only [KB_ROLES]
  omega

theorem MailWork.rolesKept (hn : n < 512) (h : MailWork s t) : RolesKept n s t :=
  ⟨fun _ hd => h.rd _ (by have := kbRoles_lt hn hd; omega), h.tack, h.cores, h.pos⟩

theorem OutWork.rolesKept (hn : n < 512) (h : OutWork s t) : RolesKept n s t :=
  ⟨fun _ hd => h.writes _ (by have := kbRoles_lt hn hd; omega), h.tack, h.cores, h.pos⟩

/-- What a plain KEY_INSTALL whose slot has been taken leads to, whatever entry the install has made. -/
theorem installed_spec {m i : Nat} (hn : n < 512) (hi : i < 4) (hspare : u.getF (KB_ROLES_SPARE_SLOT n 0) = i) (x : Slot) {e : Install}
    (hbox : e.box = m) (harm : e.arm = none) (hmarks : e.marks = [])
    (ht : installsEnd (installQueued m e (spareToNext n (slotFilled (slotOf n i) x u))) = t) :
    EndsOk t m ∧ t.cores = u.cores ∧ t.pos = u.pos ∧
      (∀ d ∈ [0, 1], t.isSet (KB_ROLES_NEXT_V n d) = true ∧ t.getF (KB_ROLES_NEXT_SLOT n d) = i) ∧ t.isSet (KB_ROLES_SPARE_V n 0) = false ∧
      t.slot (slotOf n i) = x := by
  have hfill := slotFilled_work (slotOf n i) x u
  have hslot := slotFilled_slot (slotOf n i) x u
  have hrole : KB_ROLES n 0 ≠ TR_STAT := by simp only [KB_ROLES, TR_STAT]; omega
  have hspare' : (slotFilled (slotOf n i) x u).getF (KB_ROLES_SPARE_SLOT n 0) = i :=
    (hfill.writes.getF (f := KB_ROLES_SPARE_SLOT n 0) hrole).trans hspare
  generalize slotFilled (slotOf n i) x u = w at hfill hslot hspare' ht
  rw [spareToNext_eq n w hspare'] at ht
  obtain ⟨hmoved, hnext, hnone, hkept⟩ := spareMoved_spec hn hi (w.slot (slotOf n i)).an w
  generalize spareMoved n i (w.slot (slotOf n i)).an w = v at hmoved hnext hnone hkept ht
  have hsent := (slotSend_outWork n i 0 v).rolesKept hn
  generalize slotSend n i 0 v = y at hsent ht
  have hqueued := (installQueued_mailWork m e y).rolesKept hn
  have hends := installsEnd_endsOk (installQueued_mem m e y) harm hmarks
  have hended := (installsEnd_mailWork (installQueued m e y)).rolesKept hn
  generalize installQueued m e y = z at hqueued hends hended ht
  subst ht
  have hall := (hsent.trans hqueued).trans hended
  refine ⟨hbox ▸ hends, ?_, ?_, fun d hd => ⟨?_, ?_⟩, ?_, ?_⟩
  · rw [hall.cores, hmoved.cores, hfill.cores]
  · rw [hall.pos, hmoved.pos, hfill.pos]
  · exact (State.isSet_congr (f := KB_ROLES_NEXT_V n d) (hall.rd d hd)).trans (hnext d hd).1
  · exact (State.getF_congr (f := KB_ROLES_NEXT_SLOT n d) (hall.rd d hd)).trans (hnext d hd).2
  · exact (State.isSet_congr (f := KB_ROLES_SPARE_V n 0) (hall.rd 0 (by decide))).trans hnone
  · rw [State.slot, hall.tack]
    exact hkept.trans hslot

theorem keyInstallBad_channel (h : keyInstallBad a s = 0) : le a 0 2 < 512 := by
  unfold keyInstallBad at h
  extract_lets n out win pers at h
  rw [firstStatus_cons_eq_zero (by decide)] at h
  have hargs := h.1
  simp only [Bool.or_eq_false_iff, decide_eq_false_iff_not] at hargs
  obtain ⟨⟨⟨-, hn⟩, -⟩, -⟩ := hargs
  omega

/-- A plain KEY_INSTALL that nothing refuses: the slot filled where its blob unwraps, else a failure counted. -/
theorem keyInstallRun_of_ready (hready : yfiReady s 0x0508 m.val = true) (ha : mbArg s m.val = a) (hbad : keyInstallBad a s = 0)
    (hflags : at' a 3 = 0) (heng : engineOk s 0 = true) (hlock : nextLocked s (le a 0 2) = false) {i : Nat}
    (htake : takeSpare (le a 0 2) s = (some (i, u), u)) :
    keyInstallRun m.val true s =
      (unwrap (s.kek (at' a 2)) (slice a 24 56)).elim (mbDone m.val 4 [] (unwrapFailed s)) (fun p => keyInstalled m.val a p u) := by
  unfold keyInstallRun
  simp only [hready, ha, hbad, heng, hlock, htake, argBit_zero hflags, Bool.not_true, Bool.false_eq_true, if_false, ne_eq, not_true_eq_false,
    Nat.zero_ne_one, decide_false, Bool.false_and]
  cases unwrap (s.kek (at' a 2)) (slice a 24 56) <;> rfl

theorem keyInstall_results (hready : yfiReady s 0x0508 m.val = true) (ha : mbArg s m.val = a) (hbad : keyInstallBad a s = 0)
    (hflags : at' a 3 = 0) (heng : engineOk s 0 = true) (hlock : nextLocked s (le a 0 2) = false)
    (hslot : s.isSet (KB_ROLES_SPARE_V (le a 0 2) 0) = true ∨ (freeIndex s (le a 0 2)).isSome = true)
    (ht : keyInstallRun m.val true s = t) (hi : fillIndex s (le a 0 2) = i) (hn : le a 0 2 = n) :
    KeyCmdEnds s t m.val (unwrap (s.kek (at' a 2)) (slice a 24 56)).isSome ∧
      ((unwrap (s.kek (at' a 2)) (slice a 24 56)).isNone = true ∨ (t.isSet (KB_ROLES_NEXT_V n 0) = true ∧ t.isSet (KB_ROLES_NEXT_V n 1) = true ∧
        t.getF (KB_ROLES_NEXT_SLOT n 0) = i ∧ t.getF (KB_ROLES_NEXT_SLOT n 1) = i ∧ t.isSet (KB_ROLES_SPARE_V n 0) = false ∧
        (t.slot (slotOf n i)).kind = 2 ∧ (t.slot (slotOf n i)).epoch = nextEpoch s n ∧ (t.slot (slotOf n i)).keyId = slice a 8 16 ∧
        (t.slot (slotOf n i)).bytes = ((unwrap (s.kek (at' a 2)) (slice a 24 56)).getD []).take 46)) := by
  obtain ⟨u, htake, hu, hspare, hlt⟩ := takeSpare_taken hslot
  rw [hi] at htake hspare hlt
  have hn' := keyInstallBad_channel hbad
  have hrun := keyInstallRun_of_ready hready ha hbad hflags heng hlock htake
  rw [ht] at hrun
  cases hv : unwrap (s.kek (at' a 2)) (slice a 24 56) with
  | none =>
    rw [hv] at hrun
    replace hrun : t = mbDone m.val 4 [] (unwrapFailed s) := hrun
    have hwork := unwrapFailed_work s
    obtain ⟨hstate, hresult, -⟩ := mbDone_done hwork.buf (mbOp_of_ready hready) (st := 4) (by decide) (data := []) (by decide)
    have hmail := mbDone_mailWork m.val 4 [] (unwrapFailed s)
    rw [← hrun] at hstate hresult hmail
    exact ⟨⟨hstate, hresult, hmail.cores.trans hwork.cores, hmail.pos.trans hwork.pos⟩, .inl rfl⟩
  | some p =>
    rw [hv] at hrun
    replace hrun : t = keyInstalled m.val a p u := hrun
    have hplain : installsEnd (installQueued m.val (plainInstall m.val u a)
        (spareToNext (le a 0 2) (slotFilled (slotOf (le a 0 2) i) (installedSlot u a p) u))) = t := by
      rw [hrun, keyInstalled_plain _ _ hflags, hspare]
    obtain ⟨hends, hcores, hpos, hnext, hnone, hfilled⟩ :=
      installed_spec (e := plainInstall m.val u a) hn' hlt hspare (installedSlot u a p) rfl rfl rfl hplain
    subst hn
    refine ⟨⟨hends.1, hends.2, ?_, ?_⟩, .inr ⟨(hnext 0 (by decide)).1, (hnext 1 (by decide)).1, (hnext 0 (by decide)).2, (hnext 1 (by decide)).2, hnone, ?_⟩⟩
    · rw [hcores, hu.eqv]
    · rw [hpos, hu.eqv]
    · rw [hfilled]
      exact ⟨rfl, nextEpoch_congr hu.chans, rfl, rfl⟩

end

end Sys2Proof.Machine

/-!
SETTLED OBLIGATION. O33: the identity and key commands of YFI, from the results of each.
-/

namespace Sys2Proof.Machine

/-- Settles O33: each command's effect stands on the state its answer leaves, `yfiRun_done`; KEY_INSTALL's entry ends at once, `installed_spec`; KEY_POLICY
commits by `cfgRun_done`. -/
theorem yfiKeyResults : Obligations.YfiKeyResults := by
  intro s m seed a k n i free ends
  have hfree : ∀ {x : Nat}, free x = true → x ≤ s.getF LOFT_BUDGET_CFG_TOKENS := fun h => of_decide_eq_true h
  refine ⟨fun hready hchans hkek hrandom hbudget => ?_, fun hready hid hlen hbudget => ?_, fun hready hsel hid hpub => ?_,
    fun hready hsel hcert hlen => ?_, fun hready hkeys hzero h1 h15 hkek heng hbudget => ?_, fun hready hkeys hrandom h1 h15 hpart => ?_,
    fun hready hkeys h1 h15 hpart hpair => ?_, fun _ => ⟨_, rfl, rfl, rfl⟩, fun hready hkeys hzero h1 h15 hpair heng0 heng1 hbudget => ?_,
    fun hready hkeys hzero h31 hrole h1 h15 hmate hchans heng hbudget => ?_, fun hready hbad hflags heng hlock hslot => ?_,
    fun hready hn hrole hen hcur hkind hkek heng => ?_, fun h => ?_,
    fun hready hn hkeys hup hexch hout hin hlock hlead heng1 heng2 hslot => ?_⟩
  · exact ⟨_, rfl, idGenerate_results hready hchans hkek hrandom (hfree hbudget) rfl⟩
  · exact ⟨_, rfl, idCert_results hready rfl hid hlen (hfree hbudget) rfl⟩
  · exact idGetKey_results hready hsel hid hpub
  · exact idGetCert_results hready hsel hcert hlen
  · exact ⟨_, rfl, kekInstall_results hready rfl hkeys hzero h1 h15 hkek heng (hfree hbudget) rfl⟩
  · exact kemOffer_results hready rfl hkeys hrandom h1 h15 hpart
  · exact kemOfferRest_results hready rfl hkeys h1 h15 hpart hpair
  · exact ⟨_, rfl, kemFinish_results hready rfl hkeys hzero h1 h15 hpair heng0 heng1 (hfree hbudget) rfl⟩
  · exact ⟨_, rfl, pairInstall_results hready rfl hkeys hzero h31 hrole h1 h15 hmate hchans heng (hfree hbudget) rfl⟩
  · exact ⟨_, rfl, keyInstall_results hready rfl hbad hflags heng hlock hslot rfl rfl rfl⟩
  · exact ⟨_, rfl, keyExport_results hready rfl hn hrole hen hcur hkind hkek heng rfl⟩
  · exact ⟨_, rfl, keyPolicy_results h rfl rfl⟩
  · exact ⟨_, rfl, keyRekey_results hready rfl hn hkeys hup hexch hout hin hlock hlead heng1 heng2 hslot rfl⟩

end Sys2Proof.Machine

/-!
SUPPORT. A record sent on the twin link (spec/11 R273): the message that carries it is held by the member port whose turn it is, and only the link's
counts have changed.
-/

namespace Sys2Proof.Machine

section
variable {s t u : State} {z vc : Nat} {m rec : List Byte}

/-! ### What a port holds (R297 to R300) -/

/-- A message is held by a port: its last flit waits or is unacknowledged. -/
theorem mem_zMessages {p : ZPort} :
    m ∈ zMessages p ↔ ∃ f ∈ p.replay.map (·.2) ++ p.txq, (f.kind = 3 ∨ f.kind = 4) ∧ f.msg = m := by
  unfold zMessages
  simp only [List.mem_map, List.mem_filter, Bool.or_eq_true, decide_eq_true_eq]
  constructor
  · rintro ⟨f, ⟨hf, hk⟩, hm⟩
    exact ⟨f, hf, hk, hm⟩
  · rintro ⟨f, hf, hk, hm⟩
    exact ⟨f, ⟨hf, hk⟩, hm⟩

theorem chunksFuel_ne_nil (n f : Nat) (l : List Byte) : chunksFuel n (f + 1) l ≠ [] := by
  unfold chunksFuel
  split <;> exact List.cons_ne_nil _ _

/-- The last flit of a message carries the whole of it. -/
theorem flitsOf_last (vc : Nat) (m : List Byte) : ∃ f ∈ flitsOf vc m, (f.kind = 3 ∨ f.kind = 4) ∧ f.msg = m := by
  have hne := chunksFuel_ne_nil 116 m.length m
  unfold flitsOf
  extract_lets c
  change c ≠ [] at hne
  clear_value c
  have hpos : 0 < c.length := List.length_pos_of_ne_nil hne
  split
  next =>
    obtain ⟨p, l, rfl⟩ := List.exists_cons_of_ne_nil hne
    exact ⟨_, List.mem_map_of_mem (List.mem_cons_self ..), .inr rfl, rfl⟩
  next hlong =>
    refine ⟨_, List.mem_mapIdx.mpr ⟨c.length - 1, by omega, rfl⟩, .inl ?_, ?_⟩
    · show (if c.length - 1 = 0 then 1 else if c.length - 1 + 1 = c.length then 3 else 2) = 3
      rw [if_neg (by omega), if_pos (by omega)]
    · show (if c.length - 1 + 1 = c.length then m else []) = m
      rw [if_pos (by omega)]

theorem State.zp_emit (s : State) (o : Output) (z : Nat) : (s.emit o).zp z = s.zp z := rfl

theorem State.zp_flitOut (s : State) (kind vc seq : Nat) (payload : List Byte) :
    (flitOut z kind vc seq payload s).zp z = { s.zp z with cvc := ((s.zp z).cvc + 1) % 4 } := by
  rw [flitOut, State.zp_modZp_same, State.zp_emit]

/-- A flit that leaves stays held until it is acknowledged. -/
theorem pumpOne_holds (h : m ∈ zMessages (s.zp z)) : m ∈ zMessages ((pumpOne z s).zp z) := by
  unfold pumpOne
  extract_lets p
  split
  · exact h
  · split
    · exact h
    · split
      · exact h
      next i _ =>
        split
        · exact h
        next f hf =>
          rw [State.zp_modZp_same, State.zp_flitOut]
          rw [mem_zMessages] at h ⊢
          obtain ⟨g, hg, hkind, hmsg⟩ := h
          refine ⟨g, ?_, hkind, hmsg⟩
          obtain ⟨hi, rfl⟩ := List.getElem?_eq_some_iff.mp hf
          have hperm := (List.getElem_cons_eraseIdx_perm hi).mem_iff (a := g)
          show g ∈ ((s.zp z).replay ++ [((s.zp z).txSeq, (s.zp z).txq[i])]).map (·.2) ++ (s.zp z).txq.eraseIdx i
          change g ∈ (s.zp z).replay.map (·.2) ++ (s.zp z).txq at hg
          change g ∈ (s.zp z).txq[i] :: (s.zp z).txq.eraseIdx i ↔ g ∈ (s.zp z).txq at hperm
          rw [List.map_append, List.append_assoc, List.mem_append]
          exact (List.mem_append.mp hg).imp_right hperm.mpr

theorem pumpMany_holds (k : Nat) (h : m ∈ zMessages (s.zp z)) : m ∈ zMessages ((pumpMany k z s).zp z) := by
  induction k generalizing s with
  | zero => exact h
  | succ k ih => exact ih (pumpOne_holds h)

/-- A message queued on a port is held by it. -/
theorem zSend_holds (z vc : Nat) (m : List Byte) (s : State) : m ∈ zMessages ((zSend z vc m s).zp z) := by
  have hqueued : m ∈ zMessages ((s.modZp z (fun p => { p with txq := p.txq ++ flitsOf vc m })).zp z) := by
    obtain ⟨f, hf, hkind, hmsg⟩ := flitsOf_last vc m
    rw [State.zp_modZp_same, mem_zMessages]
    exact ⟨f, List.mem_append_right _ (List.mem_append_right _ hf), hkind, hmsg⟩
  unfold zSend pump
  split
  · exact pumpMany_holds _ hqueued
  · exact hqueued

/-! ### What a port's sending leaves -/

/-- The links alone have worked: flits and what leaves. -/
abbrev WireWork (s t : State) : Prop := t = { s with fab := t.fab, outs := t.outs }

theorem WireWork.trans (h : WireWork s t) (g : WireWork t u) : WireWork s u := by
  unfold WireWork at *
  rw [g, h]

theorem modZp_wireWork (z : Nat) (f : ZPort → ZPort) (s : State) : WireWork s (s.modZp z f) := rfl

theorem pumpOne_wireWork (z : Nat) (s : State) : WireWork s (pumpOne z s) := by
  unfold pumpOne
  extract_lets p
  split
  · rfl
  · split
    · rfl
    · split
      · rfl
      · split
        · rfl
        · exact WireWork.trans (t := flitOut z _ _ _ _ s) rfl (modZp_wireWork _ _ _)

theorem pumpMany_wireWork (k z : Nat) (s : State) : WireWork s (pumpMany k z s) := by
  induction k generalizing s with
  | zero => rfl
  | succ k ih => exact (pumpOne_wireWork z s).trans (ih _)

theorem zSend_wireWork (z vc : Nat) (m : List Byte) (s : State) : WireWork s (zSend z vc m s) := by
  have hqueued := modZp_wireWork z (fun p => { p with txq := p.txq ++ flitsOf vc m }) s
  unfold zSend pump
  split
  · exact hqueued.trans (pumpMany_wireWork _ _ _)
  · exact hqueued

theorem zSend_twin (z vc : Nat) (m : List Byte) (s : State) : (zSend z vc m s).twin = s.twin := by rw [zSend_wireWork z vc m s]

/-! ### A record on the twin link (R273) -/

/-- The link's counts after one more message by member port `z`. -/
def countedTwin (z : Nat) (x : Twin) : Twin := { x with count := x.count + 1, bondTx := (x.bondTx + 1) % 2 ^ 32, turn := z }

theorem twinPut_eq (h : twinTurn s = some z) :
    twinPut rec s = zSend z (fabVc 6) (twinMsg s rec) { s with twin := countedTwin z s.twin } := by
  unfold twinPut
  rw [h]
  rfl

/-- With an empty backlog the record alone is sent. -/
theorem twinSend_eq (h : twinTurn s = some z) (hback : s.twin.backlog = []) : twinSend rec s = twinPut rec s := by
  have hsame : ({ s with twin := { s.twin with backlog := [] } } : State) = s := by rw [← hback]
  unfold twinSend
  rw [h, hback]
  show twinPut rec { s with twin := { s.twin with backlog := [] } } = _
  rw [hsame]

/-- A record sent while a member port is UP: the message is held, and nothing but the link has changed. -/
theorem twinSend_sent (h : twinTurn s = some z) (hback : s.twin.backlog = []) :
    TwinSent s (twinSend rec s) z rec ∧ twinSend rec s = { s with twin := countedTwin z s.twin, fab := (twinSend rec s).fab, outs := (twinSend rec s).outs } := by
  have htwin := zSend_twin z (fabVc 6) (twinMsg s rec) { s with twin := countedTwin z s.twin }
  have hholds := zSend_holds z (fabVc 6) (twinMsg s rec) { s with twin := countedTwin z s.twin }
  have hport := zSend_wireWork z (fabVc 6) (twinMsg s rec) { s with twin := countedTwin z s.twin }
  rw [← twinPut_eq h, ← twinSend_eq h hback] at htwin hholds hport
  generalize twinSend rec s = t at htwin hholds hport ⊢
  exact ⟨⟨by rw [htwin]; rfl, by rw [htwin]; rfl, by rw [htwin]; rfl, List.elem_eq_true_of_mem hholds⟩, hport⟩

end

end Sys2Proof.Machine

/-!
SUPPORT. What the two ends of a Twin pair do to a channel (spec/11 R280, R288 to R290): mutes, events, and a channel that begins to rejoin.
-/

namespace Sys2Proof.Machine

section
variable {P Q : Nat → Prop} {s t u : State} {n z : Nat} {rec : List Byte}

/-! ### What stays -/

/-- The work of a Twin pair leads from `s` to `t`: no register but those `P` admits has changed, and the cores, the position unit and the records that
wait on the twin link are as they were. -/
structure PairWork (P : Nat → Prop) (s t : State) : Prop where
  writes : Writes P s t
  cores : t.cores = s.cores
  pos : t.pos = s.pos
  inq : t.twin.inq = s.twin.inq

theorem PairWork.refl (s : State) : PairWork P s s := ⟨.refl s, rfl, rfl, rfl⟩

theorem PairWork.trans (h : PairWork P s t) (g : PairWork P t u) : PairWork P s u :=
  ⟨h.writes.trans g.writes, g.cores.trans h.cores, g.pos.trans h.pos, g.inq.trans h.inq⟩

theorem PairWork.mono (h : PairWork P s t) (hPQ : ∀ o, P o → Q o) : PairWork Q s t := ⟨h.writes.mono hPQ, h.cores, h.pos, h.inq⟩

theorem PairWork.ite {c : Prop} [Decidable c] (h : PairWork P s t) (g : PairWork P s u) : PairWork P s (if c then t else u) := by
  split <;> assumption

theorem PairWork.foldl {α : Type} {f : State → α → State} (l : List α) (hf : ∀ u, ∀ a ∈ l, PairWork P u (f u a)) (s : State) :
    PairWork P s (l.foldl f s) := by
  induction l generalizing s with
  | nil => exact .refl s
  | cons a l ih =>
    exact (hf s a (List.mem_cons_self ..)).trans (ih (fun u b hb => hf u b (List.mem_cons_of_mem _ hb)) _)

theorem PairWork.wr {o : Nat} {v : Word} (h : PairWork P s t) (ho : P o) : PairWork P s (t.wr o v) := h.trans ⟨(Writes.refl t).wr ho, rfl, rfl, rfl⟩

theorem PairWork.setF {f : Fld} {v : Nat} (h : PairWork P s t) (ho : P f.off) : PairWork P s (t.setF f v) := h.wr ho

theorem PairWork.wr64 {o : Nat} {v : DWord} (h : PairWork P s t) (ho : P o) (h4 : P (o + 4)) : PairWork P s (t.wr64 o v) := (h.wr ho).wr h4

theorem PairWork.modChan (h : PairWork P s t) (n : Nat) (f : Chan → Chan) : PairWork P s (t.modChan n f) :=
  h.trans ⟨(Writes.refl t).csr rfl, rfl, rfl, rfl⟩

theorem PairWork.modTw (h : PairWork P s t) (n : Nat) (f : TwinCh → TwinCh) : PairWork P s (t.modTw n f) := h.modChan n _

theorem PairWork.withTwin (h : PairWork P s t) {x : Twin} (hx : x.inq = t.twin.inq) : PairWork P s { t with twin := x } :=
  h.trans ⟨(Writes.refl t).csr rfl, rfl, rfl, hx⟩

theorem PairWork.quiet (h : Quiet s t) : PairWork (¬ quietOff ·) s t := ⟨h.writes, by rw [h.eqv], by rw [h.eqv], by rw [h.eqv]⟩

theorem PairWork.key (h : KeyWork P s t) : PairWork P s t := ⟨h.writes, h.cores, h.pos, by rw [h.eqv]⟩

/-! ### Messages on the twin link -/

/-- The link's own counts, and the records that wait for it, are all that differs. -/
abbrev LinkCounts (x y : Twin) : Prop := y = { x with count := y.count, bondTx := y.bondTx, turn := y.turn, backlog := y.backlog }

theorem LinkCounts.trans {x y w : Twin} (h : LinkCounts x y) (g : LinkCounts y w) : LinkCounts x w := by
  unfold LinkCounts at *
  rw [g, h]

theorem twinPut_counts (rec : List Byte) (s : State) : LinkCounts s.twin (twinPut rec s).twin := by
  cases h : twinTurn s with
  | none =>
    unfold twinPut
    rw [h]
  | some z =>
    rw [twinPut_eq h, zSend_twin]
    exact rfl

theorem twinSend_counts (rec : List Byte) (s : State) : LinkCounts s.twin (twinSend rec s).twin := by
  have hfold : ∀ (l : List (List Byte)) (u : State), LinkCounts u.twin (l.foldl (fun s r => twinPut r s) u).twin := by
    intro l
    induction l with
    | nil => exact fun _ => rfl
    | cons r l ih => exact fun u => (twinPut_counts r u).trans (ih _)
  unfold twinSend
  split
  · split
    · exact rfl
    · exact rfl
  · exact LinkCounts.trans (y := { s.twin with backlog := [] }) rfl (hfold _ { s with twin := { s.twin with backlog := [] } })

theorem twinSend_pairWork (rec : List Byte) (s : State) : PairWork P s (twinSend rec s) := by
  have h := (twinSend_linkWork rec s).eqv
  have hcounts := twinSend_counts rec s
  exact ⟨(Writes.refl s).csr (twinSend_linkWork rec s).csr, by rw [h], by rw [h], by rw [hcounts]⟩

theorem twinSend_ledger (rec : List Byte) (s : State) : (twinSend rec s).ledger = s.ledger := by rw [(twinSend_linkWork rec s).eqv]

theorem twinSend_chan (rec : List Byte) (s : State) (n : Nat) : (twinSend rec s).chan n = s.chan n := State.chan_congr (twinSend_chans rec s) n

theorem twinSend_rd (rec : List Byte) (s : State) (o : Nat) : (twinSend rec s).rd o = s.rd o := State.rd_of_csr (twinSend_linkWork rec s).csr o

/-! ### A path muted (R21) -/

theorem chEvt_ledger (n : Nat) (f : Fld) (s : State) : (chEvt n f s).ledger = s.ledger :=
  (bellInput_bellWork _ _ _).ledger.trans (State.setF_ledger _ _ _)

theorem discardUnits_spec (n : Nat) (s : State) :
    (discardUnits n 0x15 s).ledger = s.ledger ∧ (discardUnits n 0x15 s).twin = s.twin ∧ (discardUnits n 0x15 s).cores = s.cores ∧
      (discardUnits n 0x15 s).pos = s.pos ∧ (discardUnits n 0x15 s).pend = s.pend.filter (fun u => u.ch ≠ n) := by
  have hfold : ∀ (l : List OutUnit) (u : State), (l.foldl (fun s _ => refuse n 0x15 s) u).ledger = u.ledger ∧
      (l.foldl (fun s _ => refuse n 0x15 s) u).twin = u.twin ∧ (l.foldl (fun s _ => refuse n 0x15 s) u).cores = u.cores ∧
      (l.foldl (fun s _ => refuse n 0x15 s) u).pos = u.pos ∧ (l.foldl (fun s _ => refuse n 0x15 s) u).pend = u.pend := by
    intro l
    induction l with
    | nil => exact fun u => ⟨rfl, rfl, rfl, rfl, rfl⟩
    | cons a l ih =>
      intro u
      obtain ⟨h1, h2, h3, h4, h5⟩ := ih (refuse n 0x15 u)
      refine ⟨h1.trans ?_, h2.trans ?_, h3.trans ?_, h4.trans ?_, h5.trans ?_⟩ <;> rw [refuse, State.cnt64]
      · exact State.wr64_ledger ..
      · exact State.wr64_twin ..
      · exact State.wr64_cores ..
      · exact State.wr64_pos ..
      · exact State.wr64_pend ..
  unfold discardUnits
  exact hfold _ _

theorem chEvt_twin (n : Nat) (f : Fld) (s : State) : (chEvt n f s).twin = s.twin ∧ (chEvt n f s).cores = s.cores ∧ (chEvt n f s).pos = s.pos ∧
    (chEvt n f s).pend = s.pend := by
  have h := (bellInput_bellWork (n + 1) (decide ((s.setF f 1).rd (CH_EVT n) &&& (s.setF f 1).rd (CH_EVT_EN n) ≠ 0)) (s.setF f 1)).eqv
  unfold chEvt chEvtLine
  rw [h]
  exact ⟨State.setF_twin s f 1, State.setF_cores s f 1, State.setF_pos s f 1, State.setF_pend s f 1⟩

/-- A mute, where there is none for its cause: its entry, and for a path that was not muted its status, its event, and what waited. -/
theorem mutePath_spec (n : Nat) (c : MuteCause) (s : State) :
    PairWork (muteOff n) s (mutePath n c s) ∧ (mutePath n c s).twin = s.twin ∧
      (mutePath n c s).ledger.mutes = (if s.ledger.mutes.contains (n, c) then s.ledger.mutes else s.ledger.mutes ++ [(n, c)]) ∧
      ((mutePath n c s).pend = s.pend ∨ (mutePath n c s).pend = s.pend.filter (fun u => u.ch ≠ n)) := by
  have hwrites := (mutePath_muteWork (n := n) (s := s) c).writes
  revert hwrites
  unfold mutePath
  split
  next => exact fun hw => ⟨⟨hw, rfl, rfl, rfl⟩, rfl, rfl, .inl rfl⟩
  next h =>
    extract_lets was l s1
    split
    next => exact fun hw => ⟨⟨hw, rfl, rfl, rfl⟩, rfl, rfl, .inl rfl⟩
    next =>
      intro hw
      have hl : s1.ledger.mutes = s.ledger.mutes ++ [(n, c)] := rfl
      have hs1 : s1.twin = s.twin ∧ s1.cores = s.cores ∧ s1.pos = s.pos ∧ s1.pend = s.pend := ⟨rfl, rfl, rfl, rfl⟩
      clear_value s1
      obtain ⟨hdl, hdt, hdc, hdp, hdd⟩ := discardUnits_spec n (chEvt n (CH_EVT_MUTE n) (s1.setF (CH_STAT_MUTED n) 1))
      obtain ⟨het, hec, hep, hed⟩ := chEvt_twin n (CH_EVT_MUTE n) (s1.setF (CH_STAT_MUTED n) 1)
      have hledger := chEvt_ledger n (CH_EVT_MUTE n) (s1.setF (CH_STAT_MUTED n) 1)
      obtain ⟨h1, h2, h3, h4⟩ := hs1
      have htwin := hdt.trans (het.trans ((State.setF_twin ..).trans h1))
      refine ⟨⟨hw, ?_, ?_, by rw [htwin]⟩, htwin, ?_, .inr ?_⟩
      · exact hdc.trans (hec.trans ((State.setF_cores ..).trans h2))
      · exact hdp.trans (hep.trans ((State.setF_pos ..).trans h3))
      · rw [hdl, hledger, State.setF_ledger, hl]
      · rw [hdd, hed, State.setF_pend, h4]

theorem mutePath_muted (n : Nat) (c : MuteCause) (s : State) : (mutePath n c s).muted n = true := by
  obtain ⟨-, -, hmutes, -⟩ := mutePath_spec n c s
  unfold State.muted
  rw [hmutes, List.any_eq_true]
  refine ⟨(n, c), ?_, decide_eq_true rfl⟩
  split
  next h => exact List.contains_iff_mem.mp h
  next => exact List.mem_append_right _ (List.mem_singleton_self _)

theorem mutePath_keeps_muted (n : Nat) (c : MuteCause) {j : Nat} (h : s.muted j = true) : (mutePath n c s).muted j = true := by
  obtain ⟨-, -, hmutes, -⟩ := mutePath_spec n c s
  unfold State.muted at h ⊢
  rw [hmutes]
  split
  · exact h
  · rw [List.any_append, h, Bool.true_or]

theorem mutePath_chan (n : Nat) (c : MuteCause) (s : State) (m : Nat) : (mutePath n c s).chan m = s.chan m :=
  State.chan_congr (mutePath_muteWork (n := n) (s := s) c).chans m

theorem State.muted_congr (h : t.ledger.mutes = s.ledger.mutes) (n : Nat) : t.muted n = s.muted n := by
  unfold State.muted
  rw [h]

end

end Sys2Proof.Machine

/-!
SUPPORT. Events of a Twin pair, and a channel that begins to rejoin or diverges (spec/11 R288 to R290, R292, R295).
-/

namespace Sys2Proof.Machine

section
variable {P : Nat → Prop} {s t u : State} {n : Nat}

/-! ### Reports of 32 bytes -/

theorem SameReporter.reports2 {unit code path a b : Nat} (h : SameReporter unit s t) (hr : Reports2 t u unit code path a b) :
    Reports2 s u unit code path a b := by
  unfold Reports2 at hr ⊢
  rw [hr, h.queue, h.stamp, h.origin]

theorem State.report32_reports2 (s : State) (unit code path a b : Nat) : Reports2 s (s.report32 unit code path a b) unit code path a b :=
  State.addReport_queues s unit _

theorem State.addReport_mutes (s : State) (unit : Nat) (r : Report) : (s.addReport unit r).ledger.mutes = s.ledger.mutes := by
  unfold State.addReport
  extract_lets q l s1
  have h1 : s1.ledger.mutes = s.ledger.mutes := rfl
  have hraise : (fstateRaise q.2 1 s1).ledger = s1.ledger := by rw [fstateRaise, State.cntSat_ledger, State.setF_ledger]
  clear_value s1
  split
  · exact h1
  · unfold State.countDrop
    split
    · rw [hraise, h1]
    · show (fstateRaise q.2 1 s1).ledger.mutes = _
      rw [hraise, h1]

/-! ### An event of the pair (R295) -/

/-- What an event of the pair writes: its bit, and what a report and Bell write. -/
abbrev twinEvtOff (o : Nat) : Prop := o = TW_EVT ∨ ¬ quietOff o

theorem twinEvt_eqv (f : Fld) (code src path a b : Nat) (s : State) :
    twinEvt (some f) code src path a b s = { s with
      csr := (twinEvt (some f) code src path a b s).csr, ledger := (twinEvt (some f) code src path a b s).ledger,
      bell := (twinEvt (some f) code src path a b s).bell, outs := (twinEvt (some f) code src path a b s).outs } := by
  have h : Quiet (s.setF f 1) (twinEvt (some f) code src path a b s) := (addReport_quiet _ _ _).trans (bellPulse_quiet _ _)
  have heqv := h.eqv
  generalize twinEvt (some f) code src path a b s = t at heqv ⊢
  exact heqv

theorem twinEvt_quiet (f : Fld) (code src path a b : Nat) (s : State) : Quiet (s.setF f 1) (twinEvt (some f) code src path a b s) :=
  (addReport_quiet _ _ _).trans (bellPulse_quiet _ _)

theorem twinEvt_pairWork {f : Fld} (hf : f.off = TW_EVT) (code src path a b : Nat) (s : State) :
    PairWork twinEvtOff s (twinEvt (some f) code src path a b s) :=
  ((PairWork.refl s).setF (.inl hf)).trans ((PairWork.quiet (twinEvt_quiet f code src path a b s)).mono (fun _ => .inr))

theorem twinEvt_isSet {f : Fld} (hf : f.off = TW_EVT) (hbit : f.lo = f.hi) (h32 : f.hi < 32) (code src path a b : Nat) (s : State) :
    (twinEvt (some f) code src path a b s).isSet f = true :=
  (State.isSet_congr ((twinEvt_quiet f code src path a b s).rd _ (by rw [hf]; decide))).trans (State.isSet_setF_bit _ _ hbit h32)

theorem twinEvt_mutes (f : Fld) (code src path a b : Nat) (s : State) :
    (twinEvt (some f) code src path a b s).ledger.mutes = s.ledger.mutes := by
  unfold twinEvt
  rw [bellPulse_ledger]
  exact (State.addReport_mutes _ _ _).trans (by rw [State.setF_ledger])

theorem twinEvt_reports2 {f : Fld} (hf : f.off = TW_EVT) (code src path a b : Nat) (s : State) :
    Reports2 s (twinEvt (some f) code src path a b s) unitMerge code path a b := by
  have hsame : SameReporter unitMerge s (s.setF f 1) :=
    ((Writes.refl s (P := (· = TW_EVT))).setF hf).sameReporter (fun o ho => by
      simp only [reporterOff, POS_NOW_LO, FAB_ID] at ho
      simp only [TW_EVT]
      omega) (by rw [State.setF_ledger])
  refine hsame.reports2 ?_
  unfold Reports2 twinEvt
  rw [bellPulse_ledger]
  exact State.report32_reports2 _ _ _ _ _ _

theorem twinEvt_chan (f : Fld) (code src path a b : Nat) (s : State) (m : Nat) : (twinEvt (some f) code src path a b s).chan m = s.chan m :=
  State.chan_congr (by rw [twinEvt_eqv]) m

theorem twinEvt_twin (f : Fld) (code src path a b : Nat) (s : State) : (twinEvt (some f) code src path a b s).twin = s.twin := by
  rw [twinEvt_eqv]

theorem twinEvt_now (f : Fld) (code src path a b : Nat) (s : State) : (twinEvt (some f) code src path a b s).now = s.now := by
  rw [twinEvt_eqv]

/-! ### A channel that begins to rejoin (R289, R292) -/

/-- A channel's record as it begins to rejoin. -/
def rejoinedTw (now : Nat) (x : TwinCh) : TwinCh :=
  { x with rejoining := true, since := now, gotContext := false, eligible := none, unmatched := [], own := [], lead := [], wit := [], crcBeat := none }

theorem rejoinChan_eq (n : Nat) (s : State) : rejoinChan n s = twinSend (twinHead 9 n) (s.modTw n (rejoinedTw s.now)) := rfl

theorem rejoinChan_pairWork (n : Nat) (s : State) : PairWork P s (rejoinChan n s) := by
  rw [rejoinChan_eq]
  exact ((PairWork.refl s).modTw n _).trans (twinSend_pairWork _ _)

theorem rejoinChan_ledger (n : Nat) (s : State) : (rejoinChan n s).ledger = s.ledger := by
  rw [rejoinChan_eq, twinSend_ledger]
  rfl

theorem rejoinChan_rd (n : Nat) (s : State) (o : Nat) : (rejoinChan n s).rd o = s.rd o := by
  rw [rejoinChan_eq, twinSend_rd]
  rfl

theorem State.chan_modTw_same (s : State) (n : Nat) (f : TwinCh → TwinCh) : (s.modTw n f).chan n = { s.chan n with tw := f (s.chan n).tw } :=
  State.chan_modChan_same s n (fun c => { c with tw := f c.tw })

theorem rejoinChan_tw (n : Nat) (s : State) : ((rejoinChan n s).chan n).tw = rejoinedTw s.now (s.chan n).tw := by
  rw [rejoinChan_eq, twinSend_chan, State.chan_modTw_same]

theorem rejoinChan_rejoining (n : Nat) (s : State) {j : Nat} (h : j = n ∨ (s.chan j).tw.rejoining = true) :
    ((rejoinChan n s).chan j).tw.rejoining = true := by
  by_cases hj : j = n
  · rw [hj, rejoinChan_tw]
    rfl
  · rw [rejoinChan_eq, twinSend_chan]
    unfold State.modTw
    rw [State.chan_modChan, if_neg (Ne.symm hj)]
    exact h.resolve_left hj

theorem rejoinChan_counts (n : Nat) (s : State) : LinkCounts s.twin (rejoinChan n s).twin := by
  rw [rejoinChan_eq]
  exact twinSend_counts _ (s.modTw n (rejoinedTw s.now))

end

end Sys2Proof.Machine

/-!
SUPPORT. ASSIGN records (spec/11 R277, R280): two leads, a layer-1 channel's frame, and a frame that waits for its record or meets it.
-/

namespace Sys2Proof.Machine

section
variable {P : Nat → Prop} {s t u : State} {n : Nat} {c : List Byte} {rest : List (List Byte)}

/-! ### The oldest record taken (R273, R276) -/

/-- The state without the oldest record delivered. -/
def popTwin (rest : List (List Byte)) (s : State) : State := { s with twin := { s.twin with inq := rest } }

/-- The oldest record delivered is `c`, of a type and of a channel. -/
structure Delivered (s : State) (c : List Byte) (rest : List (List Byte)) (typ n : Nat) : Prop where
  head : s.twin.inq = c :: rest
  typ : be c 0 2 / 4096 = typ
  chan : be c 0 2 % 512 = n

theorem twinTake_of {typ : Nat} (h : Delivered s c rest typ n) (k : List Byte → Nat → State → State) :
    twinTake typ s k = k c n (popTwin rest s) := by
  obtain ⟨hhead, htyp, hchan⟩ := h
  unfold twinTake
  rw [hhead]
  show (if be c 0 2 / 4096 = typ then k c (be c 0 2 % 512) (popTwin rest s) else s) = _
  rw [if_pos htyp, hchan]

theorem popTwin_chan (rest : List (List Byte)) (s : State) (n : Nat) : (popTwin rest s).chan n = s.chan n := rfl
theorem popTwin_isSet (rest : List (List Byte)) (s : State) (f : Fld) : (popTwin rest s).isSet f = s.isSet f := rfl
theorem popTwin_isWitness (rest : List (List Byte)) (s : State) (n : Nat) : isWitness (popTwin rest s) n = isWitness s n := rfl
theorem popTwin_twinChans (rest : List (List Byte)) (s : State) : twinChans (popTwin rest s) = twinChans s := rfl

theorem twinState_popTwin (rest : List (List Byte)) (s : State) : twinState (popTwin rest s) = s.getF TW_STAT_STATE := rfl

theorem popTwin_sameReporter (unit : Nat) (rest : List (List Byte)) (s : State) : SameReporter unit s (popTwin rest s) := ⟨rfl, rfl, rfl⟩

/-! ### Two leads (R280) -/

/-- A lead that hears its mate lead shows it. -/
def twoLeadsSeen (s : State) : State := twinEvt (some TW_EVT_TWO_LEADS) 0x0709 903 noPath 0 0 s

theorem twoLeadsSeen_isSet (s : State) (f : Fld) (hf : f.off = TW_CFG ∨ f.off = TW_STAT) : (twoLeadsSeen s).getF f = s.getF f := by
  refine (twinEvt_pairWork rfl 0x0709 903 noPath 0 0 s).writes.getF ?_
  rcases hf with hf | hf <;> rw [hf] <;> decide

/-- The path of a channel that rejoins is muted, and its context is asked for. -/
def muteRejoin (n : Nat) (s : State) : State := rejoinChan n (mutePath n .twinDiverge s)

/-- A channel's path is muted and the channel rejoins. -/
abbrev Rejoins (s : State) (j : Nat) : Prop := s.muted j = true ∧ (s.chan j).tw.rejoining = true

theorem muteRejoin_rejoins (n : Nat) (s : State) {j : Nat} (h : j = n ∨ Rejoins s j) : Rejoins (muteRejoin n s) j := by
  constructor
  · have hmuted : (muteRejoin n s).muted j = (mutePath n .twinDiverge s).muted j :=
      State.muted_congr (congrArg Ledger.mutes (rejoinChan_ledger n _)) j
    rw [hmuted]
    rcases h with rfl | h
    · exact mutePath_muted ..
    · exact mutePath_keeps_muted _ _ h.1
  · refine rejoinChan_rejoining _ _ (h.imp_right (fun h => ?_))
    rw [mutePath_chan]
    exact h.2

theorem muteRejoin_all (l : List Nat) (s : State) {j : Nat} (h : j ∈ l ∨ Rejoins s j) : Rejoins (l.foldl (fun s n => muteRejoin n s) s) j := by
  induction l generalizing s with
  | nil => exact h.resolve_left List.not_mem_nil
  | cons n l ih =>
    refine ih _ ?_
    rcases h with h | h
    · exact (List.mem_cons.mp h).symm.imp_right (fun h => muteRejoin_rejoins n s (.inl h))
    · exact .inr (muteRejoin_rejoins n s (.inr h))

/-- What the mutes of a list of channels write: below the twin unit's registers, and Bell's. -/
abbrev mutesOff (o : Nat) : Prop := (0x22100000 ≤ o ∧ o < 0x22200000) ∨ ¬ quietOff o

theorem mutesOff_of_mute (hn : n < 512) {o : Nat} (h : muteOff n o) : mutesOff o := by
  simp only [muteOff, CH_STAT, CH_EVT, CH_REFUSE] at h
  omega

theorem muteRejoin_pairWork (hn : n < 512) (s : State) : PairWork mutesOff s (muteRejoin n s) :=
  ((mutePath_spec n .twinDiverge s).1.mono (fun _ => mutesOff_of_mute hn)).trans (rejoinChan_pairWork _ _)

theorem muteRejoin_queue (n unit : Nat) (s : State) : tblGet [] unit (muteRejoin n s).ledger.queues = tblGet [] unit s.ledger.queues := by
  rw [muteRejoin, rejoinChan_ledger, (mutePath_muteWork (n := n) (s := s) .twinDiverge).queues]

theorem muteRejoin_all_queue (l : List Nat) (unit : Nat) (s : State) :
    tblGet [] unit (l.foldl (fun s n => muteRejoin n s) s).ledger.queues = tblGet [] unit s.ledger.queues := by
  induction l generalizing s with
  | nil => rfl
  | cons n l ih => exact (ih _).trans (muteRejoin_queue n unit s)

theorem twinChans_lt {j : Nat} (h : j ∈ twinChans s) : j < 512 := by
  have hlive := (List.mem_filter.mp h).1
  exact List.mem_range.mp (List.mem_filter.mp hlive).1

theorem twinChans_congr (h : ∀ j < 512, t.rd (CH_CFG j) = s.rd (CH_CFG j)) : twinChans t = twinChans s := by
  have hlive : t.liveChans = s.liveChans := by
    unfold State.liveChans
    refine List.filter_congr (fun j hj => ?_)
    have hstate : t.chState j = s.chState j := State.getF_congr (f := CH_CFG_STATE j) (h j (List.mem_range.mp hj))
    rw [hstate]
  unfold twinChans
  rw [hlive]
  refine List.filter_congr (fun j hj => ?_)
  exact State.isSet_congr (f := CH_CFG_TWIN j) (h j (List.mem_range.mp (List.mem_filter.mp hj).1))

theorem twoLeads_of_path1 (h : s.isSet TW_CFG_MY_PATH = false) : twoLeads s = twoLeadsSeen s := by
  have hpath : (twoLeadsSeen s).isSet TW_CFG_MY_PATH = false := by
    unfold State.isSet at h ⊢
    rw [twoLeadsSeen_isSet s _ (.inl rfl), h]
  unfold twoLeads
  exact if_neg (by rw [show (twinEvt (some TW_EVT_TWO_LEADS) 0x0709 903 noPath 0 0 s) = twoLeadsSeen s from rfl, hpath]; decide)

theorem twoLeads_of_path2 (h : s.isSet TW_CFG_MY_PATH = true) :
    twoLeads s = setTwin 6 ((twinChans s).foldl (fun s n => muteRejoin n s) (twoLeadsSeen s)) := by
  have hpath : (twoLeadsSeen s).isSet TW_CFG_MY_PATH = true := by
    unfold State.isSet at h ⊢
    rw [twoLeadsSeen_isSet s _ (.inl rfl), h]
  have hchans : twinChans (twoLeadsSeen s) = twinChans s := twinChans_congr (fun j hj => by
    refine (twinEvt_pairWork rfl 0x0709 903 noPath 0 0 s).writes _ ?_
    simp only [twinEvtOff, CH_CFG, TW_EVT, quietOff]
    omega)
  rw [← hchans]
  unfold twoLeads
  exact if_pos hpath

theorem assign_lead_path1 (h : Delivered s c rest 1 n) (hst : s.getF TW_STAT_STATE = 2) (hpath : s.isSet TW_CFG_MY_PATH = false) :
    Completes (exec .twinAssignRx s) fun t => t.isSet TW_EVT_TWO_LEADS = true ∧ Reports2 s t unitMerge 0x0709 noPath 0 0 ∧
      t.getF TW_STAT_STATE = 2 ∧ t = { s with csr := t.csr, ledger := t.ledger, bell := t.bell, outs := t.outs, twin := { s.twin with inq := rest } } := by
  have hexec : exec .twinAssignRx s = .next (twoLeadsSeen (popTwin rest s)) := by
    rw [exec_twinAssignRx, execTwinAssignRx, twinTake_of h, twinState_popTwin, if_pos hst,
      twoLeads_of_path1 ((popTwin_isSet rest s _).trans hpath)]
  have hrep := twinEvt_reports2 (f := TW_EVT_TWO_LEADS) rfl 0x0709 903 noPath 0 0 (popTwin rest s)
  have hset := twinEvt_isSet (f := TW_EVT_TWO_LEADS) rfl rfl (by decide) 0x0709 903 noPath 0 0 (popTwin rest s)
  have heqv := twinEvt_eqv TW_EVT_TWO_LEADS 0x0709 903 noPath 0 0 (popTwin rest s)
  have hstate := (twoLeadsSeen_isSet (popTwin rest s) TW_STAT_STATE (.inr rfl)).trans hst
  rw [hexec]
  refine ⟨_, rfl, hset, (popTwin_sameReporter _ rest s).reports2 hrep, hstate, ?_⟩
  change twoLeadsSeen (popTwin rest s) = { popTwin rest s with
    csr := (twoLeadsSeen (popTwin rest s)).csr, ledger := (twoLeadsSeen (popTwin rest s)).ledger,
    bell := (twoLeadsSeen (popTwin rest s)).bell, outs := (twoLeadsSeen (popTwin rest s)).outs } at heqv
  generalize twoLeadsSeen (popTwin rest s) = t at heqv ⊢
  exact heqv

theorem assign_lead_path2 (h : Delivered s c rest 1 n) (hst : s.getF TW_STAT_STATE = 2) (hpath : s.isSet TW_CFG_MY_PATH = true) :
    Completes (exec .twinAssignRx s) fun t => t.isSet TW_EVT_TWO_LEADS = true ∧ Reports2 s t unitMerge 0x0709 noPath 0 0 ∧
      t.getF TW_STAT_STATE = 6 ∧ (twinChans s).all (fun j => t.muted j && (t.chan j).tw.rejoining) = true ∧
      (t.cores = s.cores ∧ t.pos = s.pos ∧ t.twin.inq = rest) := by
  have hexec : exec .twinAssignRx s =
      .next (setTwin 6 ((twinChans s).foldl (fun s n => muteRejoin n s) (twoLeadsSeen (popTwin rest s)))) := by
    rw [exec_twinAssignRx, execTwinAssignRx, twinTake_of h, twinState_popTwin, if_pos hst,
      twoLeads_of_path2 ((popTwin_isSet rest s _).trans hpath), popTwin_twinChans]
  have hset := twinEvt_isSet (f := TW_EVT_TWO_LEADS) rfl rfl (by decide) 0x0709 903 noPath 0 0 (popTwin rest s)
  have hrep := (popTwin_sameReporter _ rest s).reports2 (twinEvt_reports2 (f := TW_EVT_TWO_LEADS) rfl 0x0709 903 noPath 0 0 (popTwin rest s))
  have hseen := twinEvt_pairWork (f := TW_EVT_TWO_LEADS) rfl 0x0709 903 noPath 0 0 (popTwin rest s)
  change (twoLeadsSeen (popTwin rest s)).isSet _ = true at hset
  change Reports2 s (twoLeadsSeen (popTwin rest s)) _ _ _ _ _ at hrep
  change PairWork _ _ (twoLeadsSeen (popTwin rest s)) at hseen
  rw [hexec]
  generalize twoLeadsSeen (popTwin rest s) = u at hset hrep hseen ⊢
  have hwork : PairWork mutesOff u ((twinChans s).foldl (fun s n => muteRejoin n s) u) :=
    PairWork.foldl _ (fun v j hj => muteRejoin_pairWork (twinChans_lt hj) v) u
  have hall : ∀ j ∈ twinChans s, Rejoins ((twinChans s).foldl (fun s n => muteRejoin n s) u) j := fun j hj => muteRejoin_all _ u (.inl hj)
  have hqueue := muteRejoin_all_queue (twinChans s) unitMerge u
  generalize (twinChans s).foldl (fun s n => muteRejoin n s) u = v at hwork hall hqueue ⊢
  refine ⟨_, rfl, ?_, ?_, State.getF_setF_same _ TW_STAT_STATE _ (by decide) (by decide), ?_, ?_, ?_, ?_⟩
  · exact (State.isSet_congr (State.rd_setF_ne _ TW_STAT_STATE _ _ (by decide))).trans ((hwork.writes.isSet (by decide)).trans hset)
  · unfold Reports2 at hrep ⊢
    rw [setTwin, State.setF_ledger, hqueue, hrep]
  · rw [List.all_eq_true]
    intro j hj
    obtain ⟨hmuted, hrejoin⟩ := hall j hj
    have hmuted' : (setTwin 6 v).muted j = true := (State.muted_congr (by rw [setTwin, State.setF_ledger]) j).trans hmuted
    have hrejoin' : ((setTwin 6 v).chan j).tw.rejoining = true := by rw [setTwin, State.chan_setF]; exact hrejoin
    rw [hmuted', hrejoin']
    rfl
  · exact (State.setF_cores ..).trans (hwork.cores.trans hseen.cores)
  · exact (State.setF_pos ..).trans (hwork.pos.trans hseen.pos)
  · rw [setTwin, State.setF_twin]
    exact hwork.inq.trans hseen.inq

end

end Sys2Proof.Machine

/-!
SUPPORT. A pending frame that takes its lead's ASN and Yardstamp (spec/11 R277), and what follows the rise of its count (R135, R241).
-/

namespace Sys2Proof.Machine

section
variable {P Q : Nat → Prop} {s t u : State} {n : Nat} {c : List Byte} {rest : List (List Byte)}

/-! ### What follows a rise of OUT_ASN -/

/-- From `s` to `t` keys are prepared and reports made: no register but those `P` admits has changed, and no unit, no pending frame, no link. -/
structure RiseWork (P : Nat → Prop) (s t : State) : Prop where
  writes : Writes P s t
  eqv : t = { s with csr := t.csr, bell := t.bell, ledger := t.ledger, outs := t.outs, chans := t.chans, tack := t.tack, loftQ := t.loftQ, tally := t.tally }

theorem RiseWork.refl (s : State) : RiseWork P s s := ⟨.refl s, rfl⟩

theorem RiseWork.trans (h : RiseWork P s t) (g : RiseWork P t u) : RiseWork P s u := ⟨h.writes.trans g.writes, by rw [g.eqv, h.eqv]⟩

theorem RiseWork.mono (h : RiseWork P s t) (hPQ : ∀ o, P o → Q o) : RiseWork Q s t := ⟨h.writes.mono hPQ, h.eqv⟩

theorem RiseWork.ite {c : Prop} [Decidable c] (h : RiseWork P s t) (g : RiseWork P s u) : RiseWork P s (if c then t else u) := by
  split <;> assumption

theorem RiseWork.setF {f : Fld} {v : Nat} (h : RiseWork P s t) (ho : P f.off) : RiseWork P s (t.setF f v) := h.trans ⟨(Writes.refl t).setF ho, rfl⟩

theorem RiseWork.modChan (h : RiseWork P s t) (n : Nat) (f : Chan → Chan) : RiseWork P s (t.modChan n f) := h.trans ⟨(Writes.refl t).csr rfl, rfl⟩

theorem RiseWork.withLoftQ (h : RiseWork P s t) (x : List LoftWrite) : RiseWork P s { t with loftQ := x } := h.trans ⟨(Writes.refl t).csr rfl, rfl⟩

theorem RegWork.riseWork (h : RegWork P s t) : RiseWork P s t := ⟨h.writes, by
  have hk : t.bell = s.bell ∧ t.ledger = s.ledger ∧ t.outs = s.outs := by rw [h.eqv]; exact ⟨rfl, rfl, rfl⟩
  have hl : t.chans = s.chans ∧ t.tack = s.tack ∧ t.loftQ = s.loftQ := by rw [h.eqv]; exact ⟨rfl, rfl, rfl⟩
  rw [hk.1, hk.2.1, hk.2.2, hl.1, hl.2.1, hl.2.2]
  exact h.eqv⟩

theorem Quiet.riseWork (h : Quiet s t) : RiseWork (¬ quietOff ·) s t := ⟨h.writes, by
  have hl : t.chans = s.chans ∧ t.tack = s.tack ∧ t.loftQ = s.loftQ ∧ t.tally = s.tally := by rw [h.eqv]; exact ⟨rfl, rfl, rfl, rfl⟩
  rw [hl.1, hl.2.1, hl.2.2.1, hl.2.2.2]
  exact h.eqv⟩

/-- What follows a rise may write: the Loft's queue, the soft limit's event, the spare roles, the state of an exchange, a counter, and reports. -/
abbrev riseOff (n o : Nat) : Prop := o = LOFT_STAT ∨ o = CH_EVT n ∨ rolesOff n o ∨ o = BR_STAT n ∨ o = TR_CNT ∨ ¬ quietOff o

theorem resvRaise_riseWork (n : Nat) (s : State) : RiseWork (riseOff n) s (resvRaise n s) := by
  unfold resvRaise
  refine .ite ?_ (.refl s)
  exact (((RiseWork.refl s).modChan n _).withLoftQ _).setF (f := LOFT_STAT_QUEUE) (.inl rfl)

theorem takeSpare_riseWork (n : Nat) (s : State) :
    RiseWork (riseOff n) s (takeSpare n s).2 ∧ ∀ i t, (takeSpare n s).1 = some (i, t) → RiseWork (riseOff n) s t := by
  have hspare : ∀ i, RiseWork (riseOff n) s (setSpare n i s) := fun i =>
    (setSpare_regWork n i s).riseWork.mono (fun _ h => .inr (.inr (.inl h)))
  unfold takeSpare
  split
  · refine ⟨.refl s, fun i t h => ?_⟩
    cases h
    exact .refl s
  · split
    next i _ =>
      refine ⟨hspare (some i), fun j t h => ?_⟩
      cases h
      exact hspare _
    next =>
      refine ⟨?_, fun i t h => nomatch h⟩
      exact ((RiseWork.refl s).setF (f := TR_CNT_SLOT_BUSY) (.inr (.inr (.inr (.inr (.inl rfl)))))).trans
        ((report_quiet _ _ _ _ _).riseWork.mono (fun _ h => .inr (.inr (.inr (.inr (.inr h))))))

theorem startExchange_riseWork (n : Nat) (s : State) : RiseWork (riseOff n) s (startExchange n s) := by
  obtain ⟨hfull, hspare⟩ := takeSpare_riseWork n s
  have hstat : riseOff n (BR_STAT n) := .inr (.inr (.inr (.inl rfl)))
  unfold startExchange
  split
  · split
    next i t r heq =>
      have ht : RiseWork (riseOff n) s t := hspare i t (by rw [heq])
      exact ((ht.modChan n _).setF (f := BR_STAT_EXCH n) hstat).setF (f := BR_STAT_TRIES n) hstat
    next t heq =>
      rw [heq] at hfull
      exact hfull
  · exact .refl s

theorem asnRisen_riseWork (n : Nat) (s : State) : RiseWork (riseOff n) s (asnRisen n s) := by
  have hquiet : ∀ {u v : State}, Quiet u v → RiseWork (riseOff n) u v := fun h => h.riseWork.mono (fun _ h => .inr (.inr (.inr (.inr (.inr h)))))
  unfold asnRisen
  extract_lets s1
  have h1 : RiseWork (riseOff n) s s1 := resvRaise_riseWork n s
  refine .ite ?_ h1
  have hevt : RiseWork (riseOff n) s (chEvt n (CH_EVT_ASN_SOFT n) (s1.modChan n (fun c => { c with softSeen := true }))) :=
    ((h1.modChan n _).setF (f := CH_EVT_ASN_SOFT n) (.inr (.inl rfl))).trans (hquiet (bellInput_quiet _ _ _))
  exact (hevt.trans (hquiet (report_quiet _ _ _ _ _))).trans (startExchange_riseWork n _)

/-! ### The ASN and Yardstamp given (R277) -/

/-- A pending frame as a unit with an ASN and a Yardstamp. -/
def givenUnit (u : OutUnit) (asn stamp : DWord) (s : State) : OutUnit :=
  { u with asn := asn, stamp := stamp, slot := slotAt s u.ch stamp, an := (s.slot (slotAt s u.ch stamp)).an,
           epoch := (s.slot (slotAt s u.ch stamp)).epoch }

theorem mem_unitInsert (u : OutUnit) (l : List OutUnit) : u ∈ unitInsert u l := by
  induction l with
  | nil => exact List.mem_singleton_self u
  | cons v l ih =>
    unfold unitInsert
    split
    · exact List.mem_cons_self ..
    · exact List.mem_cons_of_mem _ ih

/-- The unit in its place, and the channel's counts one above its ASN. -/
def unitGiven (u : OutUnit) (asn stamp : DWord) (s : State) : State :=
  ((({ s with units := unitInsert (givenUnit u asn stamp s) s.units }).modTw u.ch (fun t => { t with fEpoch := some (givenUnit u asn stamp s).epoch })).wr64
    (CH_OUT_ASN_LO u.ch) (asn + 1)).wr64 (TWC_F_COUNT_LO u.ch) (asn + 1)

theorem twinGive_eq (u : OutUnit) (asn stamp : DWord) (s : State) : twinGive u asn stamp s = asnRisen u.ch (unitGiven u asn stamp s) := rfl

theorem unitGiven_counts (u : OutUnit) (asn stamp : DWord) (s : State) :
    (unitGiven u asn stamp s).rd64 (TWC_F_COUNT_LO u.ch) = asn + 1 ∧ (unitGiven u asn stamp s).rd64 (CH_OUT_ASN_LO u.ch) = asn + 1 := by
  have h : ∀ v : State, ((v.wr64 (CH_OUT_ASN_LO u.ch) (asn + 1)).wr64 (TWC_F_COUNT_LO u.ch) (asn + 1)).rd64 (CH_OUT_ASN_LO u.ch) =
      (v.wr64 (CH_OUT_ASN_LO u.ch) (asn + 1)).rd64 (CH_OUT_ASN_LO u.ch) := fun v => State.rd64_congr ?_ ?_
  · exact ⟨State.rd64_wr64_same _ _ _, (h _).trans (State.rd64_wr64_same _ _ _)⟩
  · exact State.rd_wr64_ne _ _ _ _ (by simp only [TWC_F_COUNT_LO, CH_OUT_ASN_LO]; omega) (by simp only [TWC_F_COUNT_LO, CH_OUT_ASN_LO]; omega)
  · exact State.rd_wr64_ne _ _ _ _ (by simp only [TWC_F_COUNT_LO, CH_OUT_ASN_LO]; omega) (by simp only [TWC_F_COUNT_LO, CH_OUT_ASN_LO]; omega)

theorem unitGiven_lists (u : OutUnit) (asn stamp : DWord) (s : State) :
    (unitGiven u asn stamp s).units = unitInsert (givenUnit u asn stamp s) s.units ∧ (unitGiven u asn stamp s).pend = s.pend ∧
      (unitGiven u asn stamp s).twin = s.twin ∧ (unitGiven u asn stamp s).cores = s.cores ∧ (unitGiven u asn stamp s).pos = s.pos := by
  unfold unitGiven
  rw [State.wr64_units, State.wr64_units, State.wr64_pend, State.wr64_pend, State.wr64_twin, State.wr64_twin, State.wr64_cores, State.wr64_cores,
    State.wr64_pos, State.wr64_pos]
  exact ⟨rfl, rfl, rfl, rfl, rfl⟩

/-- A pending frame that takes an ASN and a Yardstamp is among the units, and its channel counts from it. -/
theorem twinGive_spec (hn : n < 512) {u : OutUnit} (hch : u.ch = n) (asn stamp : DWord) (s : State) :
    (twinGive u asn stamp s).rd64 (TWC_F_COUNT_LO n) = asn + 1 ∧ (twinGive u asn stamp s).rd64 (CH_OUT_ASN_LO n) = asn + 1 ∧
      givenUnit u asn stamp s ∈ (twinGive u asn stamp s).units ∧ (twinGive u asn stamp s).pend = s.pend ∧
      (twinGive u asn stamp s).twin = s.twin ∧ (twinGive u asn stamp s).cores = s.cores ∧ (twinGive u asn stamp s).pos = s.pos := by
  subst hch
  obtain ⟨hcount, hasn⟩ := unitGiven_counts u asn stamp s
  obtain ⟨hunits, hpend, htwin, hcores, hpos⟩ := unitGiven_lists u asn stamp s
  have hrise := asnRisen_riseWork u.ch (unitGiven u asn stamp s)
  rw [← twinGive_eq] at hrise
  have hoff : ∀ o, o = TWC_F_COUNT_LO u.ch ∨ o = TWC_F_COUNT_LO u.ch + 4 ∨ o = CH_OUT_ASN_LO u.ch ∨ o = CH_OUT_ASN_LO u.ch + 4 → ¬ riseOff u.ch o := by
    intro o ho
    simp only [riseOff, rolesOff, quietOff, TWC_F_COUNT_LO, CH_OUT_ASN_LO, LOFT_STAT, CH_EVT, KB_ROLES, BR_STAT, TR_CNT] at ho ⊢
    omega
  generalize unitGiven u asn stamp s = v at hcount hasn hunits hpend htwin hcores hpos hrise
  generalize twinGive u asn stamp s = w at hrise ⊢
  refine ⟨(hrise.writes.rd64 (hoff _ (.inl rfl)) (hoff _ (.inr (.inl rfl)))).trans hcount,
    (hrise.writes.rd64 (hoff _ (.inr (.inr (.inl rfl)))) (hoff _ (.inr (.inr (.inr rfl))))).trans hasn, ?_, ?_, ?_, ?_, ?_⟩
  · have hw : w.units = v.units := by rw [hrise.eqv]
    rw [hw, hunits]
    exact mem_unitInsert _ _
  · rw [← hpend, hrise.eqv]
  · rw [← htwin, hrise.eqv]
  · rw [← hcores, hrise.eqv]
  · rw [← hpos, hrise.eqv]

end

end Sys2Proof.Machine

/-!
SUPPORT. ASSIGN records at a follower (spec/11 R277, R196): what becomes of one.
-/

namespace Sys2Proof.Machine

section
variable {s t u : State} {n : Nat} {c : List Byte} {rest : List (List Byte)}

theorem assign_unwanted (h : Delivered s c rest 1 n) (h2 : s.getF TW_STAT_STATE ≠ 2) (h3 : s.getF TW_STAT_STATE ≠ 3)
    (h6 : s.getF TW_STAT_STATE ≠ 6) (hwit : isWitness s n = false) : Completes (exec .twinAssignRx s) fun t => t = popTwin rest s := by
  have hother : (!decide (s.getF TW_STAT_STATE = 3 ∨ s.getF TW_STAT_STATE = 6 ∨ isWitness s n = true)) = true := by
    rw [Bool.not_eq_true', decide_eq_false_iff_not, hwit]
    rintro (h | h | h)
    · exact h3 h
    · exact h6 h
    · exact Bool.false_ne_true h
  refine ⟨popTwin rest s, ?_, rfl⟩
  rw [exec_twinAssignRx, execTwinAssignRx, twinTake_of h, twinState_popTwin, if_neg h2]
  exact congrArg _ (if_pos hother)

/-- The follower takes its lead's record of a channel that neither rejoins nor has this device for its Witness. -/
structure Follows (s : State) (n : Nat) : Prop where
  state : s.getF TW_STAT_STATE = 3
  joined : (s.chan n).tw.rejoining = false
  noWitness : isWitness s n = false

/-- The Yardstamp that an ASSIGN record names (R74, R277). -/
abbrev assignStamp (s : State) (c : List Byte) : DWord := BitVec.ofNat 64 (extendNear s.stamp.toNat 32 64 (be c 6 4))

/-- The ASN that an ASSIGN record names (R277). -/
abbrev assignAsn (s : State) (c : List Byte) (n : Nat) : DWord :=
  BitVec.ofNat 64 (extendNear (fBase s n (assignStamp s c)).toNat 32 64 (be c 2 4))

/-- An ASSIGN record as a channel keeps it. -/
abbrev assignEntry (s : State) (c : List Byte) (n : Nat) : DWord × DWord × Nat × Nat := (assignStamp s c, assignAsn s c n, be c 10 4, be c 14 2)

/-- A record taken, and kept with those of its channel. -/
def assignKept (c : List Byte) (n : Nat) (rest : List (List Byte)) (s : State) : State :=
  (popTwin rest s).modTw n (fun t => { t with unmatched := t.unmatched ++ [assignEntry s c n] })

theorem assign_exec (h : Delivered s c rest 1 n) (hf : Follows s n) :
    exec .twinAssignRx s = .next (if s.chMode n = 2 then takeNamed n (be c 2 4) (popTwin rest s) else twinMatch n (assignKept c n rest s)) := by
  obtain ⟨hst, hjoin, hwit⟩ := hf
  have h2 : s.getF TW_STAT_STATE ≠ 2 := by rw [hst]; decide
  have hfollow : ¬ (!decide (s.getF TW_STAT_STATE = 3 ∨ s.getF TW_STAT_STATE = 6 ∨ isWitness s n = true)) = true := by
    rw [decide_eq_true (.inl hst)]
    decide
  rw [exec_twinAssignRx, execTwinAssignRx, twinTake_of h, twinState_popTwin, if_neg h2]
  refine congrArg _ ((if_neg hfollow).trans ?_)
  rw [popTwin_chan, popTwin_isWitness, hwit]
  extract_lets stamp tw old
  have hold : old = false := by
    show (((s.chan n).tw.rejoining && !(((s.chan n).tw.eligible).any (fun e => stampAtOrAfter stamp e)))) = false
    rw [hjoin, Bool.false_and]
  rw [if_neg (by rw [hold]; decide)]
  rfl

theorem assign_layer1 (h : Delivered s c rest 1 n) (hf : Follows s n) (hmode : s.chMode n = 2) {last named efn : Nat}
    (hlast : (s.rd64 (CH_MODE_W0_LO n)).toNat = last) (hefn : extendNear last 32 48 (be c 2 4) = efn)
    (hnamed : (if s.isSdh n then efn else extendNear efn 8 48 (last % 256)) = named) :
    Completes (exec .twinAssignRx s) fun t => t.rd64 (CH_MODE_W0_LO n) = BitVec.ofNat 64 named ∧ (t.chan n).l1.efnAt = none ∧
      t = { s with csr := t.csr, chans := t.chans, twin := { s.twin with inq := rest } } := by
  have htake : takeNamed n (be c 2 4) (popTwin rest s) =
      ((popTwin rest s).wr64 (CH_MODE_W0_LO n) (BitVec.ofNat 64 named)).modChan n (fun x => { x with l1 := { x.l1 with efnAt := none } }) := by
    rw [← hnamed, ← hefn, ← hlast]
    rfl
  refine ⟨_, (assign_exec h hf).trans (congrArg _ ((if_pos hmode).trans htake)), State.rd64_wr64_same _ _ _, ?_, rfl⟩
  rw [State.chan_modChan_same]

/-! ### A frame and its record -/

/-- A pending frame is the one that an ASSIGN record names: equal length and FCS (R277). -/
abbrev assignFits (c : List Byte) (n : Nat) (y : OutUnit) : Bool :=
  decide (y.ch = n) && decide (y.frame.length + 4 = be c 14 2) && decide (be y.fcs 0 4 = be c 10 4)

theorem assignKept_unmatched (h : (s.chan n).tw.unmatched = []) : ((assignKept c n rest s).chan n).tw.unmatched = [assignEntry s c n] := by
  rw [assignKept, State.chan_modTw_same, popTwin_chan, h]
  rfl

theorem twinMatch_single {x : DWord × DWord × Nat × Nat} (h : (s.chan n).tw.unmatched = [x]) {y : List (DWord × DWord × Nat × Nat) × State}
    (hy : twinMatchList n [x] s = y) : twinMatch n s = y.2.modTw n (fun t => { t with unmatched := y.1 }) := by
  subst hy
  unfold twinMatch
  rw [h]

theorem assign_waits (h : Delivered s c rest 1 n) (hf : Follows s n) (hmode : s.chMode n ≠ 2) (hnone : (s.chan n).tw.unmatched = [])
    (hfits : s.pend.any (assignFits c n) = false) : Completes (exec .twinAssignRx s) fun t =>
      (t.chan n).tw = { (s.chan n).tw with unmatched := [assignEntry s c n] } ∧
        t = { s with chans := t.chans, twin := { s.twin with inq := rest } } := by
  have hpend : (assignKept c n rest s).pend = s.pend := rfl
  have hidx : (assignKept c n rest s).pend.findIdx? (assignFits c n) = none := by
    rw [hpend, List.findIdx?_eq_none_iff]
    exact fun y hy => Bool.not_eq_true _ ▸ List.any_eq_false.mp hfits y hy
  have hlist : twinMatchList n [assignEntry s c n] (assignKept c n rest s) = ([assignEntry s c n], assignKept c n rest s) := by
    unfold twinMatchList
    rw [hidx]
    rfl
  have hmatch := twinMatch_single (assignKept_unmatched (c := c) (rest := rest) hnone) hlist
  refine ⟨_, (assign_exec h hf).trans (congrArg _ ((if_neg hmode).trans hmatch)), ?_, rfl⟩
  rw [State.chan_modTw_same, assignKept, State.chan_modTw_same, popTwin_chan]

/-- The one record of a channel meets the one frame that waits. -/
theorem twinMatch_meets (hn : n < 512) {asn stamp : DWord} (hunm : (s.chan n).tw.unmatched = [(stamp, asn, be c 10 4, be c 14 2)]) {u : OutUnit}
    (hpend : s.pend = [u]) (hfits : assignFits c n u = true) (ht : twinMatch n s = t) :
    t.pend = [] ∧ (t.chan n).tw.unmatched = [] ∧ t.rd64 (TWC_F_COUNT_LO n) = asn + 1 ∧ t.rd64 (CH_OUT_ASN_LO n) = asn + 1 ∧
      t.units.any (fun y => decide (y.ch = n) && decide (y.asn = asn) && decide (y.stamp = stamp) && decide (y.frame = u.frame)) = true ∧
      t.cores = s.cores ∧ t.pos = s.pos ∧ t.twin.inq = s.twin.inq := by
  have hch : u.ch = n := by
    rw [Bool.and_eq_true, Bool.and_eq_true, decide_eq_true_eq] at hfits
    exact hfits.1.1
  have hidx : s.pend.findIdx? (assignFits c n) = some 0 := by rw [hpend, List.findIdx?_cons, if_pos hfits]
  have hlist : twinMatchList n [(stamp, asn, be c 10 4, be c 14 2)] s = ([], twinGive u asn stamp { s with pend := [] }) := by
    unfold twinMatchList
    rw [hidx, hpend]
    rfl
  obtain ⟨hcount, hasn, hunits, hpend', htwin, hcores, hpos⟩ := twinGive_spec hn hch asn stamp { s with pend := [] }
  have hgiven : (decide ((givenUnit u asn stamp { s with pend := [] }).ch = n) && decide ((givenUnit u asn stamp { s with pend := [] }).asn = asn) &&
      decide ((givenUnit u asn stamp { s with pend := [] }).stamp = stamp) &&
      decide ((givenUnit u asn stamp { s with pend := [] }).frame = u.frame)) = true := by
    simp [givenUnit, hch]
  rw [twinMatch_single hunm hlist] at ht
  generalize twinGive u asn stamp { s with pend := [] } = w at hcount hasn hunits hpend' htwin hcores hpos ht
  subst ht
  refine ⟨hpend', ?_, hcount, hasn, List.any_eq_true.mpr ⟨_, hunits, hgiven⟩, hcores, hpos, congrArg Twin.inq htwin⟩
  rw [State.chan_modTw_same]

theorem assign_meets (hn : n < 512) (h : Delivered s c rest 1 n) (hf : Follows s n) (hmode : s.chMode n ≠ 2)
    (hnone : (s.chan n).tw.unmatched = []) {u : OutUnit} (hpend : s.pend = [u]) (hfits : assignFits c n u = true) :
    Completes (exec .twinAssignRx s) fun t => t.pend = [] ∧ (t.chan n).tw.unmatched = [] ∧
      t.rd64 (TWC_F_COUNT_LO n) = assignAsn s c n + 1 ∧ t.rd64 (CH_OUT_ASN_LO n) = assignAsn s c n + 1 ∧
      t.units.any (fun y => decide (y.ch = n) && decide (y.asn = assignAsn s c n) && decide (y.stamp = assignStamp s c) && decide (y.frame = u.frame)) = true ∧
      (t.cores = s.cores ∧ t.pos = s.pos ∧ t.twin.inq = rest) :=
  ⟨_, (assign_exec h hf).trans (congrArg _ (if_neg hmode)),
    twinMatch_meets (s := assignKept c n rest s) hn (assignKept_unmatched hnone) hpend hfits rfl⟩

end

end Sys2Proof.Machine

/-!
SUPPORT. BEAT records (spec/11 R277, R279, R290): whatever a follower does with its digests, its newest BEAT stays, and what waits only shrinks.
-/

namespace Sys2Proof.Machine

section
variable {s t u : State} {n : Nat} {c : List Byte} {rest : List (List Byte)}

/-- A follower at work on its channels: the cores, the position unit, the records delivered and the newest BEAT are as they were, and no frame has come
among those that wait. -/
structure BeatWork (s t : State) : Prop where
  cores : t.cores = s.cores
  pos : t.pos = s.pos
  inq : t.twin.inq = s.twin.inq
  lastBeat : t.twin.lastBeat = s.twin.lastBeat
  lastCame : t.twin.lastCame = s.twin.lastCame
  pend : ∀ y ∈ t.pend, y ∈ s.pend

theorem BeatWork.refl (s : State) : BeatWork s s := ⟨rfl, rfl, rfl, rfl, rfl, fun _ h => h⟩

theorem BeatWork.trans (h : BeatWork s t) (g : BeatWork t u) : BeatWork s u :=
  ⟨g.cores.trans h.cores, g.pos.trans h.pos, g.inq.trans h.inq, g.lastBeat.trans h.lastBeat, g.lastCame.trans h.lastCame,
    fun y hy => h.pend y (g.pend y hy)⟩

theorem BeatWork.ite {c : Prop} [Decidable c] (h : BeatWork s t) (g : BeatWork s u) : BeatWork s (if c then t else u) := by
  split <;> assumption

theorem BeatWork.foldl {α : Type} {f : State → α → State} (l : List α) (hf : ∀ u a, BeatWork u (f u a)) (s : State) : BeatWork s (l.foldl f s) := by
  induction l generalizing s with
  | nil => exact .refl s
  | cons a l ih => exact (hf s a).trans (ih _)

theorem BeatWork.of_eq (hc : t.cores = s.cores) (hp : t.pos = s.pos) (ht : t.twin = s.twin) (hpend : t.pend = s.pend) : BeatWork s t :=
  ⟨hc, hp, by rw [ht], by rw [ht], by rw [ht], fun y hy => hpend ▸ hy⟩

theorem BeatWork.setF (h : BeatWork s t) (f : Fld) (v : Nat) : BeatWork s (t.setF f v) :=
  h.trans (.of_eq (State.setF_cores ..) (State.setF_pos ..) (State.setF_twin ..) (State.setF_pend ..))

theorem BeatWork.wr64 (h : BeatWork s t) (o : Nat) (v : DWord) : BeatWork s (t.wr64 o v) :=
  h.trans (.of_eq (State.wr64_cores ..) (State.wr64_pos ..) (State.wr64_twin ..) (State.wr64_pend ..))

theorem BeatWork.modTw (h : BeatWork s t) (n : Nat) (f : TwinCh → TwinCh) : BeatWork s (t.modTw n f) := h.trans (.of_eq rfl rfl rfl rfl)

theorem Quiet.beatWork (h : Quiet s t) : BeatWork s t := .of_eq (by rw [h.eqv]) (by rw [h.eqv]) (by rw [h.eqv]) (by rw [h.eqv])

theorem twinSend_beatWork (rec : List Byte) (s : State) : BeatWork s (twinSend rec s) := by
  have h := (twinSend_linkWork rec s).eqv
  have hcounts := twinSend_counts rec s
  exact ⟨by rw [h], by rw [h], by rw [hcounts], by rw [hcounts], by rw [hcounts], fun y hy => by rw [h] at hy; exact hy⟩

theorem rejoinChan_beatWork (n : Nat) (s : State) : BeatWork s (rejoinChan n s) := by
  rw [rejoinChan_eq]
  exact ((BeatWork.refl s).modTw n _).trans (twinSend_beatWork _ _)

theorem mutePath_beatWork (n : Nat) (c : MuteCause) (s : State) : BeatWork s (mutePath n c s) := by
  obtain ⟨hwork, htwin, -, hpend⟩ := mutePath_spec n c s
  refine ⟨hwork.cores, hwork.pos, hwork.inq, by rw [htwin], by rw [htwin], fun y hy => ?_⟩
  rcases hpend with h | h
  · exact h ▸ hy
  · rw [h] at hy
    exact List.mem_of_mem_filter hy

theorem twinEvt_beatWork (f : Fld) (code src path a b : Nat) (s : State) : BeatWork s (twinEvt (some f) code src path a b s) :=
  ((BeatWork.refl s).setF f 1).trans (twinEvt_quiet f code src path a b s).beatWork

/-! ### Divergence (R288 to R290) -/

theorem diverge_beatWork (n : Nat) (l o : DWord) (s : State) : BeatWork s (diverge n l o s) := by
  unfold diverge
  extract_lets s1 s2 d x s3 s4
  have h1 : BeatWork s s1 := (mutePath_beatWork n .twinDiverge s).wr64 _ _
  have h2 : BeatWork s s2 := h1.trans (twinEvt_beatWork ..)
  have hdivs : BeatWork s2 { s2 with twin := { s2.twin with divs := d } } := ⟨rfl, rfl, rfl, rfl, rfl, fun _ h => h⟩
  have h3 : BeatWork s s3 := (h2.trans hdivs).trans (rejoinChan_beatWork ..)
  have h4 : BeatWork s s4 := h3.trans (twinEvt_beatWork ..)
  exact .ite ((h4.trans (.foldl _ (fun u j => mutePath_beatWork j _ u) _)).setF _ _) h3

theorem digestDrop_beatWork (n b : Nat) (s : State) : BeatWork s (digestDrop n b s) := (BeatWork.refl s).modTw n _

theorem showDigests_beatWork (n : Nat) (l o w : DWord) (s : State) : BeatWork s (showDigests n l o w s) :=
  (((BeatWork.refl s).wr64 _ _).wr64 _ _).wr64 _ _

theorem decideDiverge_beatWork (n b : Nat) (l o : DWord) (w : Option DWord) (s : State) : BeatWork s (decideDiverge n b l o w s) := by
  unfold decideDiverge
  extract_lets s1 v
  have h1 : BeatWork s s1 := (digestDrop_beatWork n b s).trans (showDigests_beatWork ..)
  have hvotes : BeatWork s1 { s1 with twin := { s1.twin with votes := v } } := ⟨rfl, rfl, rfl, rfl, rfl, fun _ h => h⟩
  have hverdict : ∀ out, BeatWork s1 (verdictSend n b l o (w.getD 0) out s1) := fun out => twinSend_beatWork _ _
  refine h1.trans (.ite (diverge_beatWork ..) (.ite (hvotes.trans (twinSend_beatWork _ _)) (.ite ?_ ?_)))
  · exact (hverdict 1).trans (diverge_beatWork ..)
  · exact (hverdict 3).trans (diverge_beatWork ..)

theorem digestCompare_beatWork (n b : Nat) (s : State) : BeatWork s (digestCompare n b s) := by
  unfold digestCompare
  extract_lets x
  split
  · refine .ite (digestDrop_beatWork ..) ?_
    exact .ite (.refl s) (decideDiverge_beatWork ..)
  · exact .refl s

theorem digestsLate_beatWork (s : State) : BeatWork s (digestsLate s) :=
  .foldl _ (fun u n => .foldl _ (fun v b => digestCompare_beatWork n b v) u) s

/-! ### What no record has matched (R277) -/

/-- No frame of channel `n` waits that is older than beat `b`. -/
abbrev NoneOlder (n : Nat) (b : Beat) (s : State) : Prop := ∀ y ∈ s.pend, (decide (y.ch = n) && beatBefore (stampBeat y.stamp) b) = false

theorem BeatWork.noneOlder {b : Beat} (h : BeatWork s t) (hs : NoneOlder n b s) : NoneOlder n b t := fun y hy => hs y (h.pend y hy)

theorem dropUnassigned_spec (n : Nat) (b : Beat) (s : State) : BeatWork s (dropUnassigned n b s) ∧ NoneOlder n b (dropUnassigned n b s) := by
  unfold dropUnassigned
  extract_lets gone s1
  have h1 : BeatWork s s1 := ⟨rfl, rfl, rfl, rfl, rfl, fun y hy => List.mem_of_mem_filter hy⟩
  have hnone : NoneOlder n b s1 := fun y hy => by
    have := (List.mem_filter.mp hy).2
    rwa [Bool.not_eq_true'] at this
  have hcnt : BeatWork s1 (s1.cnt64 (TWC_CNT n 2) gone.length) := (BeatWork.refl s1).wr64 _ _
  clear_value s1 gone
  split
  · exact ⟨h1, hnone⟩
  · exact ⟨h1.trans hcnt, hcnt.noneOlder hnone⟩

theorem dropSkipped_beatWork (n : Nat) (b : Beat) (s : State) : BeatWork s (dropSkipped n b s) := by
  unfold dropSkipped
  extract_lets gone s1 s2
  have h1 : BeatWork s s1 := (BeatWork.refl s).modTw n _
  have h2 : BeatWork s s2 := ((h1.wr64 _ _).trans (report_quiet _ _ _ _ _).beatWork).trans (bellPulse_quiet _ _).beatWork
  exact .ite h1 (.ite (h2.trans (diverge_beatWork ..)) h2)

theorem dropAll_noneOlder (l : List Nat) (b : Beat) (s : State) {j : Nat} (h : j ∈ l ∨ NoneOlder j b s) :
    NoneOlder j b (l.foldl (fun s n => dropSkipped n b (dropUnassigned n b s)) s) := by
  induction l generalizing s with
  | nil => exact h.resolve_left List.not_mem_nil
  | cons n l ih =>
    obtain ⟨hdrop, hnone⟩ := dropUnassigned_spec n b s
    have hskip := dropSkipped_beatWork n b (dropUnassigned n b s)
    refine ih _ ?_
    rcases h with h | h
    · refine (List.mem_cons.mp h).symm.imp_right ?_
      rintro rfl
      exact hskip.noneOlder hnone
    · exact .inr ((hdrop.trans hskip).noneOlder h)

theorem dropAll_beatWork (l : List Nat) (b : Beat) (s : State) :
    BeatWork s (l.foldl (fun s n => dropSkipped n b (dropUnassigned n b s)) s) :=
  .foldl _ (fun u n => (dropUnassigned_spec n b u).1.trans (dropSkipped_beatWork n b _)) s

/-! ### BEAT records -/

/-- A BEAT record taken: its beat is the newest, and it came now. -/
def beatTaken (b : Beat) (rest : List (List Byte)) (s : State) : State :=
  { popTwin rest s with twin := { (popTwin rest s).twin with lastBeat := some b, lastCame := s.beat } }

theorem beatTaken_twinChans (b : Beat) (rest : List (List Byte)) (s : State) : twinChans (beatTaken b rest s) = twinChans s := rfl

theorem beat_exec (h : Delivered s c rest 2 n) {b : Beat} (hb : BitVec.ofNat 48 (be c 2 6) = b) :
    exec .twinBeatRx s = .next (if (!([3, 4, 6].contains (s.getF TW_STAT_STATE))) = true then popTwin rest s
      else if s.getF TW_STAT_STATE = 4 then freeReturn (beatTaken b rest s)
      else digestsLate ((twinChans s).foldl (fun s n => dropSkipped n b (dropUnassigned n b s)) (beatTaken b rest s))) := by
  subst hb
  rw [exec_twinBeatRx, execTwinBeatRx, twinTake_of h]
  rfl

theorem beat_follow (h : Delivered s c rest 2 n) (hst : s.getF TW_STAT_STATE = 3) {b : Beat} (hb : BitVec.ofNat 48 (be c 2 6) = b) :
    Completes (exec .twinBeatRx s) fun t => t.twin.lastBeat = some b ∧ t.twin.lastCame = s.beat ∧
      (∀ j ∈ twinChans s, t.pend.any (fun y => decide (y.ch = j) && beatBefore (stampBeat y.stamp) b) = false) ∧
      (twinChans s = [] → t = { s with twin := t.twin }) ∧ (t.cores = s.cores ∧ t.pos = s.pos ∧ t.twin.inq = rest) := by
  have hrun := beat_exec h hb
  rw [hst, if_neg (by decide), if_neg (by decide)] at hrun
  rw [hrun]
  have hall := (dropAll_beatWork (twinChans s) b (beatTaken b rest s)).trans (digestsLate_beatWork _)
  refine ⟨_, rfl, hall.lastBeat, hall.lastCame, fun j hj => ?_, fun hns => ?_, hall.cores, hall.pos, hall.inq⟩
  · have hnone := (digestsLate_beatWork _).noneOlder (dropAll_noneOlder (twinChans s) b (beatTaken b rest s) (.inl hj))
    rw [List.any_eq_false]
    exact fun y hy => by rw [hnone y hy]; decide
  · have hlate : digestsLate (beatTaken b rest s) = beatTaken b rest s := by
      unfold digestsLate
      rw [beatTaken_twinChans, hns]
      rfl
    rw [hns, List.foldl_nil, hlate]
    rfl

theorem beat_return (h : Delivered s c rest 2 n) (hst : s.getF TW_STAT_STATE = 4) (hns : twinChans s = []) {e b : Beat}
    (hfree : s.twin.freeFrom = some e) (hb : BitVec.ofNat 48 (be c 2 6) = b) (hbefore : beatBefore b e = false) :
    Completes (exec .twinBeatRx s) fun t => t.getF TW_STAT_STATE = 3 ∧
      t.twin = { { s.twin with inq := rest } with lastBeat := some b, lastCame := s.beat, freeFrom := none } ∧
      t = { s with csr := t.csr, twin := t.twin } := by
  have hrun := beat_exec h hb
  rw [hst, if_neg (by decide), if_pos rfl] at hrun
  have hreturn : freeReturn (beatTaken b rest s) =
      setTwin 3 { beatTaken b rest s with twin := { (beatTaken b rest s).twin with freeFrom := none } } := by
    have hstate : twinState (beatTaken b rest s) = 4 := hst
    have hlast : (beatTaken b rest s).twin.lastBeat = some b := rfl
    have hfrom : (beatTaken b rest s).twin.freeFrom = some e := hfree
    unfold freeReturn
    rw [hlast, hfrom, beatTaken_twinChans, hns, hstate]
    extract_lets back ns whole
    have hback : back = true := by
      show (!beatBefore b e) = true
      rw [hbefore]
      rfl
    exact if_pos (by rw [hback]; rfl)
  rw [hrun, hreturn]
  exact ⟨_, rfl, State.getF_setF_same _ TW_STAT_STATE _ (by decide) (by decide), by rw [setTwin, State.setF_twin]; rfl, rfl⟩

theorem beat_ignored (h : Delivered s c rest 2 n) (hst : s.getF TW_STAT_STATE < 3) : Completes (exec .twinBeatRx s) fun t => t = popTwin rest s := by
  have hrun := beat_exec h rfl
  have hlow : (!([3, 4, 6].contains (s.getF TW_STAT_STATE))) = true := by
    generalize s.getF TW_STAT_STATE = v at hst
    interval_cases v <;> rfl
  rw [if_pos hlow] at hrun
  exact ⟨_, hrun, rfl⟩

end

end Sys2Proof.Machine

/-!
SUPPORT. A divergence, and a lead outvoted (spec/11 R289, R290): the mute, the record, and the channel that begins to rejoin.
-/

namespace Sys2Proof.Machine

section
variable {s t u : State} {n : Nat}

/-! ### What a mute changes -/

/-- Registers, Bell, the ledger and the units alone lead from `s` to `t`. -/
abbrev MuteKept (s t : State) : Prop :=
  t = { s with csr := t.csr, bell := t.bell, ledger := t.ledger, outs := t.outs, units := t.units, pend := t.pend }

theorem MuteKept.trans (h : MuteKept s t) (g : MuteKept t u) : MuteKept s u := by
  unfold MuteKept at *
  rw [g, h]

theorem setF_muteKept (f : Fld) (v : Nat) (s : State) : MuteKept s (s.setF f v) := rfl

theorem Quiet.muteKept (h : Quiet s t) : MuteKept s t := by
  have hu : t.units = s.units ∧ t.pend = s.pend := by rw [h.eqv]; exact ⟨rfl, rfl⟩
  unfold MuteKept
  rw [hu.1, hu.2]
  exact h.eqv

theorem discardUnits_muteKept (n code : Nat) (s : State) : MuteKept s (discardUnits n code s) := by
  have hfold : ∀ (l : List OutUnit) (u : State), MuteKept u (l.foldl (fun s _ => refuse n code s) u) := by
    intro l
    induction l with
    | nil => exact fun _ => rfl
    | cons a l ih => exact fun u => MuteKept.trans (t := refuse n code u) rfl (ih _)
  unfold discardUnits
  extract_lets gone s1
  exact MuteKept.trans (t := s1) rfl (hfold _ _)

theorem mutePath_muteKept (n : Nat) (c : MuteCause) (s : State) : MuteKept s (mutePath n c s) := by
  unfold mutePath
  split
  · exact rfl
  · extract_lets was l s1
    have h1 : MuteKept s s1 := rfl
    split
    · exact h1
    · refine (h1.trans (setF_muteKept (CH_STAT_MUTED n) 1 s1)).trans ?_
      exact ((setF_muteKept (CH_EVT_MUTE n) 1 _).trans (bellInput_quiet _ _ _).muteKept).trans (discardUnits_muteKept _ _ _)

theorem mutePath_now (n : Nat) (c : MuteCause) (s : State) : (mutePath n c s).now = s.now := by rw [mutePath_muteKept]

theorem mutePath_twin (n : Nat) (c : MuteCause) (s : State) : (mutePath n c s).twin = s.twin := (mutePath_spec n c s).2.1

/-! ### A channel lost to its lead, or a lead outvoted -/

/-- What the two ends write where they part over a channel. -/
abbrev partOff (n o : Nat) : Prop := muteOff n o ∨ twinEvtOff o ∨ o = TWC_CNT n 4 ∨ o = TWC_CNT n 4 + 4

/-- From `s` to `t` the path of channel `n` has been muted, with a record of it: nothing but registers, the ledger and units has changed. -/
structure Parted (n : Nat) (f : Fld) (code a b : Nat) (s t : State) : Prop where
  work : PairWork (partOff n) s t
  muted : t.muted n = true
  event : t.isSet f = true
  reports : Reports2 s t unitMerge code n a b
  chan : ∀ j, t.chan j = s.chan j
  twin : t.twin = s.twin
  now : t.now = s.now

theorem parted_of_evt {f : Fld} (hf : f.off = TW_EVT) (hbit : f.lo = f.hi) (h32 : f.hi < 32) (code src a b : Nat)
    (hwork : PairWork (partOff n) s u) (hmuted : u.muted n = true) (hqueue : u.ledger.queues = s.ledger.queues) (hchan : ∀ j, u.chan j = s.chan j)
    (htwin : u.twin = s.twin) (hnow : u.now = s.now) : Parted n f code a b s (twinEvt (some f) code src n a b u) := by
  have hsame : SameReporter unitMerge s u := hwork.writes.sameReporter (fun o ho => by
    simp only [reporterOff, partOff, muteOff, twinEvtOff, quietOff, POS_NOW_LO, FAB_ID, CH_STAT, CH_EVT, CH_REFUSE, TW_EVT, TWC_CNT] at ho ⊢
    omega) (by rw [hqueue])
  exact ⟨hwork.trans ((twinEvt_pairWork hf code src n a b u).mono (fun _ h => .inr (.inl h))),
    (State.muted_congr (twinEvt_mutes f code src n a b u) n).trans hmuted, twinEvt_isSet hf hbit h32 code src n a b u,
    hsame.reports2 (twinEvt_reports2 hf code src n a b u), fun j => (twinEvt_chan f code src n a b u j).trans (hchan j),
    (twinEvt_twin f code src n a b u).trans htwin, (twinEvt_now f code src n a b u).trans hnow⟩

theorem mutePath_part (n : Nat) (c : MuteCause) (s : State) : PairWork (partOff n) s (mutePath n c s) :=
  (mutePath_spec n c s).1.mono (fun _ => .inl)

/-- A lead that is outvoted shows it. -/
def outvotedSeen (n a b : Nat) (s : State) : State := twinEvt (some TW_EVT_OUTVOTED) 0x0706 901 n a b (mutePath n .twinDiverge s)

theorem outvotedSeen_parted (n a b : Nat) (s : State) : Parted n TW_EVT_OUTVOTED 0x0706 a b s (outvotedSeen n a b s) :=
  parted_of_evt rfl rfl (by decide) _ _ _ _ (mutePath_part n _ s) (mutePath_muted ..) (mutePath_muteWork _).queues (mutePath_chan n _ s)
    (mutePath_twin ..) (mutePath_now ..)

/-- A follower that diverges counts it and shows it. -/
def divergeSeen (n : Nat) (l o : DWord) (s : State) : State :=
  twinEvt (some TW_EVT_DIVERGE) 0x0705 901 n l.toNat o.toNat (twCnt n 2 (mutePath n .twinDiverge s))

theorem divergeSeen_parted (n : Nat) (l o : DWord) (s : State) :
    Parted n TW_EVT_DIVERGE 0x0705 l.toNat o.toNat s (divergeSeen n l o s) := by
  have hcount : PairWork (partOff n) s (twCnt n 2 (mutePath n .twinDiverge s)) :=
    (mutePath_part n _ s).wr64 (.inr (.inr (.inl rfl))) (.inr (.inr (.inr rfl)))
  refine parted_of_evt rfl rfl (by decide) _ _ _ _ hcount ?_ ?_ (fun j => ?_) ?_ ?_
  · exact (State.muted_congr (by rw [twCnt, State.cnt64, State.wr64_ledger]) n).trans (mutePath_muted ..)
  · rw [twCnt, State.cnt64, State.wr64_ledger, (mutePath_muteWork (n := n) (s := s) _).queues]
  · exact (State.chan_congr (State.wr64_chans _ _ _) j).trans (mutePath_chan ..)
  · exact (State.wr64_twin ..).trans (mutePath_twin ..)
  · exact (State.wr64_now ..).trans (mutePath_now ..)

theorem divergeSeen_count (hn : n < 512) (l o : DWord) (s : State) :
    (divergeSeen n l o s).rd64 (TWC_CNT n 4) = s.rd64 (TWC_CNT n 4) + 1 := by
  have hevt := (twinEvt_pairWork (f := TW_EVT_DIVERGE) rfl 0x0705 901 n l.toNat o.toNat (twCnt n 2 (mutePath n .twinDiverge s))).writes
  have hmute := (mutePath_spec n .twinDiverge s).1.writes
  have hoff : ∀ o, o = TWC_CNT n 4 ∨ o = TWC_CNT n 4 + 4 → ¬ twinEvtOff o ∧ ¬ muteOff n o := by
    intro o ho
    simp only [twinEvtOff, muteOff, quietOff, TWC_CNT, TW_EVT, CH_STAT, CH_EVT, CH_REFUSE] at ho ⊢
    omega
  refine (hevt.rd64 (hoff _ (.inl rfl)).1 (hoff _ (.inr rfl)).1).trans ((State.rd64_wr64_same _ _ _).trans ?_)
  rw [hmute.rd64 (hoff _ (.inl rfl)).2 (hoff _ (.inr rfl)).2]
  rfl

/-- The channel begins to rejoin after it has parted, whatever counts of defeats the device keeps. -/
theorem parted_rejoins {f : Fld} {code a b : Nat} (h : Parted n f code a b s t) {x : Twin} (hx : x.inq = s.twin.inq) :
    let w := rejoinChan n { t with twin := x }
    PairWork (partOff n) s w ∧ w.muted n = true ∧ w.isSet f = true ∧ Reports2 s w unitMerge code n a b ∧
      (w.chan n).tw = rejoinedTw s.now (s.chan n).tw ∧ LinkCounts x w.twin ∧ ∀ o, w.rd o = t.rd o := by
  intro w
  obtain ⟨hwork, hmuted, hevent, hreports, hchan, htwin, hnow⟩ := h
  have hx' : PairWork (partOff n) t { t with twin := x } := (PairWork.refl t).withTwin (hx.trans (by rw [htwin]))
  have hrd : ∀ o, w.rd o = t.rd o := fun o => rejoinChan_rd n _ o
  have hledger : w.ledger = t.ledger := rejoinChan_ledger n _
  refine ⟨(hwork.trans hx').trans (rejoinChan_pairWork _ _), (State.muted_congr (by rw [hledger]) n).trans hmuted,
    (State.isSet_congr (hrd _)).trans hevent, ?_, ?_, rejoinChan_counts n { t with twin := x }, hrd⟩
  · unfold Reports2 at hreports ⊢
    rw [hledger, hreports]
  · refine (rejoinChan_tw n { t with twin := x }).trans ?_
    show rejoinedTw t.now (t.chan n).tw = _
    rw [hnow, hchan]

end

end Sys2Proof.Machine

/-!
SUPPORT. Digests (spec/11 R278, R289, R290): a beat's digest is sent, waits for its match, matches, or shows a divergence.
-/

namespace Sys2Proof.Machine

section
variable {s t u : State} {n b z : Nat} {d l o : DWord} {c : List Byte} {rest : List (List Byte)}

/-! ### Digests settled and shown -/

theorem digestDrop_tw (n b : Nat) (s : State) : ((digestDrop n b s).chan n).tw =
    { (s.chan n).tw with own := tblSet none b none (s.chan n).tw.own, lead := tblSet none b none (s.chan n).tw.lead,
                         wit := tblSet none b none (s.chan n).tw.wit } := by
  rw [digestDrop, State.chan_modTw_same]

theorem digestDrop_own (n b : Nat) (s : State) : tblGet none b ((digestDrop n b s).chan n).tw.own = none := by
  rw [digestDrop_tw]
  exact tblGet_tblSet_same none b none _

theorem digestDrop_lead (n b : Nat) (s : State) : tblGet none b ((digestDrop n b s).chan n).tw.lead = none := by
  rw [digestDrop_tw]
  exact tblGet_tblSet_same none b none _

/-- The registers that show the digests of the latest divergence (R294). -/
abbrev digestOff (n o : Nat) : Prop := TWC_DIGEST n 0 ≤ o ∧ o < TWC_DIGEST n 6

theorem showDigests_pairWork (n : Nat) (l o w : DWord) (s : State) : PairWork (digestOff n) s (showDigests n l o w s) := by
  have hoff : ∀ i < 5, digestOff n (TWC_DIGEST n i) ∧ digestOff n (TWC_DIGEST n i + 4) := by
    intro i hi
    simp only [digestOff, TWC_DIGEST]
    omega
  exact (((PairWork.refl s).wr64 (hoff 0 (by omega)).1 (hoff 0 (by omega)).2).wr64 (hoff 2 (by omega)).1 (hoff 2 (by omega)).2).wr64
    (hoff 4 (by omega)).1 (hoff 4 (by omega)).2

theorem showDigests_rd64 (n : Nat) (l o w : DWord) (s : State) : (showDigests n l o w s).rd64 (TWC_DIGEST n 0) = l ∧
    (showDigests n l o w s).rd64 (TWC_DIGEST n 2) = o ∧ (showDigests n l o w s).rd64 (TWC_DIGEST n 4) = w := by
  have hne : ∀ i j : Nat, i + 2 ≤ j → TWC_DIGEST n j ≠ TWC_DIGEST n i ∧ TWC_DIGEST n j ≠ TWC_DIGEST n i + 4 ∧
      TWC_DIGEST n j + 4 ≠ TWC_DIGEST n i := by
    intro i j hij
    simp only [TWC_DIGEST]
    omega
  have hkeep : ∀ (u : State) (v : DWord) (i j : Nat), i + 2 ≤ j → (u.wr64 (TWC_DIGEST n j) v).rd64 (TWC_DIGEST n i) = u.rd64 (TWC_DIGEST n i) := by
    intro u v i j hij
    obtain ⟨h1, h2, h3⟩ := hne i j hij
    exact State.rd64_wr64_ne _ _ _ _ h1 h3 h2
  unfold showDigests
  refine ⟨?_, ?_, State.rd64_wr64_same _ _ _⟩
  · rw [hkeep _ _ 0 4 (by decide), hkeep _ _ 0 2 (by decide), State.rd64_wr64_same]
  · rw [hkeep _ _ 2 4 (by decide), State.rd64_wr64_same]

/-! ### The digest of a beat that has ended (R278) -/

/-- The digest of a beat is complete at a device that is no Witness: its frames have left, and its table holds it. -/
structure DigestClosed (s : State) (n b : Nat) (d : DWord) : Prop where
  twin : s.chTwin n = true
  left : s.units.any (fun y => decide (y.ch = n) && decide (s.chMode n = 0) && decide ((stampBeat y.stamp).toNat = b)) = false
  noWitness : isWitness s n = false
  own : tblGet none b (s.chan n).tw.own = some d
  done : (s.chan n).tw.crcBeat.any (fun y => decide (y.toNat = b)) = false

theorem digestDone_idle {n : Fin 512} (h : s.chTwin n.val = false ∨
    (s.units.any (fun y => decide (y.ch = n.val) && decide (s.chMode n.val = 0) && decide ((stampBeat y.stamp).toNat = b)) = true ∧
      isWitness s n.val = false)) : Completes (exec (.twinDigestDone n b) s) fun t => t = s := by
  refine ⟨s, ?_, rfl⟩
  rw [exec_twinDigestDone, execTwinDigestDone]
  refine if_pos ?_
  rcases h with h | ⟨hleft, hwit⟩
  · rw [h]
    rfl
  · rw [hleft, hwit]
    exact Bool.or_true _

/-- The present beat's digest, where it is still open, is closed. -/
def digestEnded (n b : Nat) (s : State) : State := s.modTw n (fun t => if t.crcBeat.any (fun x => decide (x.toNat = b)) then digestClose t else t)

theorem digestDone_exec {n : Fin 512} (h : DigestClosed s n.val b d) (hst : s.getF TW_STAT_STATE = 2) : exec (.twinDigestDone n b) s =
    .next (twinSend (twinHead 3 n.val ++ beBytes 6 b ++ beBytes 8 d.toNat) (digestDrop n.val b (digestEnded n.val b s))) := by
  obtain ⟨htwin, hleft, hwit, hown, hdone⟩ := h
  have hended : tblGet none b ((digestEnded n.val b s).chan n.val).tw.own = some d := by
    rw [digestEnded, State.chan_modTw_same, if_neg (by rw [hdone]; decide)]
    exact hown
  have hwit' : isWitness (digestEnded n.val b s) n.val = false := hwit
  have hst' : twinState (digestEnded n.val b s) = 2 := hst
  rw [exec_twinDigestDone, execTwinDigestDone]
  extract_lets s1
  have h1 : s1 = digestEnded n.val b s := if_neg (by rw [hwit, Bool.false_and]; decide)
  clear_value s1
  subst h1
  rw [htwin, hleft, hwit, hended]
  refine (if_neg (by decide)).trans ((if_neg (by rw [hwit']; decide)).trans (if_pos hst'))

theorem digestDone_sent {n : Fin 512} (h : DigestClosed s n.val b d) (hst : s.getF TW_STAT_STATE = 2) (hturn : twinTurn s = some z)
    (hback : s.twin.backlog = []) : Completes (exec (.twinDigestDone n b) s) fun t =>
      TwinSent s t z (twinHead 3 n.val ++ beBytes 6 b ++ beBytes 8 d.toNat) ∧ tblGet none b (t.chan n.val).tw.own = none ∧
        t = { s with chans := t.chans, twin := t.twin, fab := t.fab, outs := t.outs } := by
  obtain ⟨hsent, heqv⟩ := twinSend_sent (rec := twinHead 3 n.val ++ beBytes 6 b ++ beBytes 8 d.toNat)
    (s := digestDrop n.val b (digestEnded n.val b s)) hturn hback
  rw [digestDone_exec h hst]
  refine ⟨_, rfl, hsent, ?_, ?_⟩
  · rw [twinSend_chan]
    exact digestDrop_own ..
  · have hchans := twinSend_chans (twinHead 3 n.val ++ beBytes 6 b ++ beBytes 8 d.toNat) (digestDrop n.val b (digestEnded n.val b s))
    generalize twinSend _ _ = t at heqv hchans ⊢
    rw [hchans]
    rw [heqv]
    rfl

/-! ### The lead's digest (R278) -/

/-- The lead's digest of a beat is kept. -/
def leadKept (n b : Nat) (l : DWord) (rest : List (List Byte)) (s : State) : State :=
  (popTwin rest s).modTw n (fun t => { t with lead := tblSet none b (some (l, s.beat)) t.lead })

theorem leadKept_tw (n b : Nat) (l : DWord) (rest : List (List Byte)) (s : State) : ((leadKept n b l rest s).chan n).tw =
    { (s.chan n).tw with lead := tblSet none b (some (l, s.beat)) (s.chan n).tw.lead } := by
  rw [leadKept, State.chan_modTw_same, popTwin_chan]

theorem leadKept_lead (n b : Nat) (l : DWord) (rest : List (List Byte)) (s : State) :
    tblGet none b ((leadKept n b l rest s).chan n).tw.lead = some (l, s.beat) := by
  rw [leadKept_tw]
  exact tblGet_tblSet_same (none : Option (DWord × Beat)) b (some (l, s.beat)) (s.chan n).tw.lead

theorem leadKept_own (n b : Nat) (l : DWord) (rest : List (List Byte)) (s : State) :
    ((leadKept n b l rest s).chan n).tw.own = (s.chan n).tw.own := by rw [leadKept_tw]

theorem digestCompare_of_none (h : tblGet none b (s.chan n).tw.own = none) : digestCompare n b s = s := by
  unfold digestCompare
  extract_lets x
  rw [show x = (s.chan n).tw from rfl, h]

theorem digestCompare_same {e : Beat} (hown : tblGet none b (s.chan n).tw.own = some o) (hlead : tblGet none b (s.chan n).tw.lead = some (o, e)) :
    digestCompare n b s = digestDrop n b s := by
  unfold digestCompare
  extract_lets x
  rw [show x = (s.chan n).tw from rfl, hown, hlead]
  exact if_pos rfl

/-- Without a Witness a difference is a divergence at once (R289). -/
theorem digestCompare_unwatched {e : Beat} (hown : tblGet none b (s.chan n).tw.own = some o) (hlead : tblGet none b (s.chan n).tw.lead = some (l, e))
    (hne : o ≠ l) (hwit : s.isSet (TWC_CFG_WIT_EN n) = false) :
    ∃ w, digestCompare n b s = diverge n l o (showDigests n l o w (digestDrop n b s)) := by
  have hdecide : ∀ w : Option DWord, decideDiverge n b l o w s = diverge n l o (showDigests n l o (w.getD 0) (digestDrop n b s)) := by
    intro w
    have hwit' : (showDigests n l o (w.getD 0) (digestDrop n b s)).isSet (TWC_CFG_WIT_EN n) = false := by
      refine ((showDigests_pairWork n l o (w.getD 0) (digestDrop n b s)).writes.isSet ?_).trans hwit
      simp only [digestOff, TWC_DIGEST, TWC_CFG_WIT_EN, TWC_CFG]
      omega
    unfold decideDiverge
    exact if_pos (by rw [hwit']; decide)
  refine ⟨(tblGet none b (s.chan n).tw.wit).getD 0, ?_⟩
  rw [← hdecide]
  unfold digestCompare
  extract_lets x
  rw [show x = (s.chan n).tw from rfl, hown, hlead]
  refine (if_neg hne).trans (if_neg ?_)
  rw [hwit, Bool.false_and, Bool.false_and]
  decide

/-- A follower takes its lead's digest of a channel that does not rejoin. -/
theorem digestRx_exec (h : Delivered s c rest 3 n) (hst : s.getF TW_STAT_STATE = 3) (hjoin : (s.chan n).tw.rejoining = false) :
    exec .twinDigestRx s = .next (digestCompare n (be c 2 6) (leadKept n (be c 2 6) (BitVec.ofNat 64 (be c 8 8)) rest s)) := by
  have hstate : twinState (popTwin rest s) = 3 := hst
  have hstate' : twinState (leadKept n (be c 2 6) (BitVec.ofNat 64 (be c 8 8)) rest s) ≠ 4 := by
    rw [show twinState (leadKept n (be c 2 6) (BitVec.ofNat 64 (be c 8 8)) rest s) = 3 from hst]
    decide
  rw [exec_twinDigestRx, execTwinDigestRx, twinTake_of h, hstate, popTwin_chan, hjoin]
  exact congrArg _ ((if_neg (by decide)).trans (if_neg hstate'))

theorem digestRx_waits (h : Delivered s c rest 3 n) (hst : s.getF TW_STAT_STATE = 3) (hjoin : (s.chan n).tw.rejoining = false)
    (hown : tblGet none (be c 2 6) (s.chan n).tw.own = none) : Completes (exec .twinDigestRx s) fun t =>
      tblGet none (be c 2 6) (t.chan n).tw.lead = some (BitVec.ofNat 64 (be c 8 8), s.beat) ∧
        t = { s with chans := t.chans, twin := { s.twin with inq := rest } } := by
  have hrun := digestRx_exec h hst hjoin
  rw [digestCompare_of_none (by rw [leadKept_own, hown])] at hrun
  exact ⟨_, hrun, leadKept_lead .., rfl⟩

theorem digestRx_meets (h : Delivered s c rest 3 n) (hst : s.getF TW_STAT_STATE = 3) (hjoin : (s.chan n).tw.rejoining = false)
    (hown : tblGet none (be c 2 6) (s.chan n).tw.own = some (BitVec.ofNat 64 (be c 8 8))) : Completes (exec .twinDigestRx s) fun t =>
      tblGet none (be c 2 6) (t.chan n).tw.own = none ∧ tblGet none (be c 2 6) (t.chan n).tw.lead = none ∧
        t = { s with chans := t.chans, twin := { s.twin with inq := rest } } := by
  have hrun := digestRx_exec h hst hjoin
  rw [digestCompare_same (by rw [leadKept_own, hown]) (leadKept_lead ..)] at hrun
  exact ⟨_, hrun, digestDrop_own .., digestDrop_lead .., rfl⟩

end

end Sys2Proof.Machine

/-!
SUPPORT. Divergences, verdicts and the Witness's digests (spec/11 R289, R290, R294).
-/

namespace Sys2Proof.Machine

section
variable {s t u : State} {n b : Nat} {l o : DWord} {c : List Byte} {rest : List (List Byte)}

/-! ### The follower diverges (R289) -/

/-- The channel begins to rejoin with its path muted. -/
abbrev ComesBack (s t : State) (n : Nat) : Prop :=
  (t.chan n).tw.rejoining = true ∧ (t.chan n).tw.since = s.now ∧ (t.chan n).tw.own = [] ∧ (t.chan n).tw.lead = [] ∧ t.muted n = true

/-- The times of the last second. -/
abbrev recentOf (s : State) (x : List Nat) : List Nat := x.filter (fun y => s.now < y + ticksPerS)

theorem diverge_of_few (hfew : (recentOf s s.twin.divs).length < 2) : diverge n l o s =
    rejoinChan n { divergeSeen n l o s with twin := { s.twin with divs := recentOf s s.twin.divs ++ [s.now] } } := by
  obtain ⟨-, -, -, -, -, htwin, hnow⟩ := divergeSeen_parted n l o s
  have hdef : diverge n l o s = (let u := divergeSeen n l o s
      let d := u.twin.divs.filter (fun t => u.now < t + ticksPerS) ++ [u.now]
      let w := rejoinChan n { u with twin := { u.twin with divs := d } }
      if 3 ≤ d.length then
        setTwin 7 ((twinChans (twinEvt (some TW_EVT_FAULTY) 0x0707 902 noPath 0 0 w)).foldl (fun s n => mutePath n .twinFaulty s)
          (twinEvt (some TW_EVT_FAULTY) 0x0707 902 noPath 0 0 w))
      else w) := rfl
  rw [hdef]
  extract_lets u d w
  have hd : d = recentOf s s.twin.divs ++ [s.now] := by
    show u.twin.divs.filter (fun t => u.now < t + ticksPerS) ++ [u.now] = _
    rw [htwin, hnow]
  have hlen : ¬ 3 ≤ d.length := by
    rw [hd, List.length_append, List.length_singleton]
    omega
  refine (if_neg hlen).trans ?_
  show rejoinChan n { u with twin := { u.twin with divs := d } } = _
  rw [hd, htwin]

theorem Parted.comesBack {f : Fld} {code a b : Nat} (h : Parted n f code a b s t) {x : Twin} (hx : x.inq = s.twin.inq) :
    ComesBack s (rejoinChan n { t with twin := x }) n := by
  obtain ⟨-, hmuted, -, -, htw, -⟩ := parted_rejoins h hx
  refine ⟨?_, ?_, ?_, ?_, hmuted⟩ <;> rw [htw] <;> rfl

/-- A divergence that is not yet the third within a second. -/
theorem diverge_spec (hn : n < 512) (hfew : (recentOf s s.twin.divs).length < 2) (ht : diverge n l o s = t) : PairWork (partOff n) s t ∧
    ComesBack s t n ∧ t.rd64 (TWC_CNT n 4) = s.rd64 (TWC_CNT n 4) + 1 ∧ t.isSet TW_EVT_DIVERGE = true ∧
      Reports2 s t unitMerge 0x0705 n l.toNat o.toNat ∧ t.twin.divs = recentOf s s.twin.divs ++ [s.now] := by
  have hseen := divergeSeen_parted n l o s
  have hx : ({ s.twin with divs := recentOf s s.twin.divs ++ [s.now] } : Twin).inq = s.twin.inq := rfl
  obtain ⟨hwork, -, hevent, hreports, -, hcounts, hrd⟩ := parted_rejoins hseen hx
  rw [diverge_of_few hfew] at ht
  subst ht
  refine ⟨hwork, hseen.comesBack hx, ?_, hevent, hreports, ?_⟩
  · exact (State.rd64_congr (hrd _) (hrd _)).trans (divergeSeen_count hn l o s)
  · rw [hcounts]

/-- A digest shown leaves what a divergence reports of its device. -/
theorem showDigests_sameReporter (n : Nat) (l o w : DWord) (s : State) : SameReporter unitMerge s (showDigests n l o w s) :=
  (showDigests_pairWork n l o w s).writes.sameReporter (fun k hk => by
    simp only [reporterOff, digestOff, POS_NOW_LO, FAB_ID, TWC_DIGEST] at hk ⊢
    omega) rfl

theorem digestRx_diverges (hn : n < 512) (h : Delivered s c rest 3 n) (hst : s.getF TW_STAT_STATE = 3) (hjoin : (s.chan n).tw.rejoining = false)
    (hown : tblGet none (be c 2 6) (s.chan n).tw.own = some o) (hl : BitVec.ofNat 64 (be c 8 8) = l) (hne : o ≠ l)
    (hwit : s.isSet (TWC_CFG_WIT_EN n) = false) (hfew : (recentOf s s.twin.divs).length < 2) :
    Completes (exec .twinDigestRx s) fun t => (ComesBack s t n ∧ t.rd64 (TWC_CNT n 4) = s.rd64 (TWC_CNT n 4) + 1 ∧
      t.isSet TW_EVT_DIVERGE = true ∧ Reports2 s t unitMerge 0x0705 n l.toNat o.toNat ∧ t.rd64 (TWC_DIGEST n 0) = l ∧
      t.rd64 (TWC_DIGEST n 2) = o ∧ t.getF TW_STAT_STATE = s.getF TW_STAT_STATE) ∧ t.twin.divs = recentOf s s.twin.divs ++ [s.now] ∧
      (t.cores = s.cores ∧ t.pos = s.pos ∧ t.twin.inq = rest) := by
  have hrun := digestRx_exec h hst hjoin
  rw [hl] at hrun
  obtain ⟨w, hcompare⟩ := digestCompare_unwatched (s := leadKept n (be c 2 6) l rest s) (by rw [leadKept_own, hown]) (leadKept_lead ..) hne hwit
  rw [hcompare] at hrun
  have hshow := showDigests_pairWork n l o w (digestDrop n (be c 2 6) (leadKept n (be c 2 6) l rest s))
  have hshown := showDigests_rd64 n l o w (digestDrop n (be c 2 6) (leadKept n (be c 2 6) l rest s))
  have hsame := showDigests_sameReporter n l o w (digestDrop n (be c 2 6) (leadKept n (be c 2 6) l rest s))
  have hbase : digestDrop n (be c 2 6) (leadKept n (be c 2 6) l rest s) =
      { s with chans := (digestDrop n (be c 2 6) (leadKept n (be c 2 6) l rest s)).chans, twin := { s.twin with inq := rest } } := rfl
  generalize digestDrop n (be c 2 6) (leadKept n (be c 2 6) l rest s) = v at hrun hshow hshown hsame hbase
  have hcsr : v.csr = s.csr := by rw [hbase]
  have hrd : ∀ k, v.rd k = s.rd k := State.rd_of_csr hcsr
  have hreporter : SameReporter unitMerge s v := by
    rw [hbase]
    exact ⟨rfl, rfl, rfl⟩
  have htwin : (showDigests n l o w v).twin = { s.twin with inq := rest } := by
    show v.twin = _
    rw [hbase]
  have hnow : (showDigests n l o w v).now = s.now := by
    show v.now = _
    rw [hbase]
  have hcores : (showDigests n l o w v).cores = s.cores ∧ (showDigests n l o w v).pos = s.pos := by
    show v.cores = _ ∧ v.pos = _
    rw [hbase]
    exact ⟨rfl, rfl⟩
  have hcnt : (showDigests n l o w v).rd64 (TWC_CNT n 4) = s.rd64 (TWC_CNT n 4) := by
    refine (hshow.writes.rd64 ?_ ?_).trans (State.rd64_congr (hrd _) (hrd _)) <;> simp only [digestOff, TWC_DIGEST, TWC_CNT] <;> omega
  have hstate : (showDigests n l o w v).getF TW_STAT_STATE = s.getF TW_STAT_STATE := by
    refine (hshow.writes.getF ?_).trans (State.getF_congr (hrd _))
    simp only [digestOff, TWC_DIGEST, TW_STAT_STATE, TW_STAT]
    omega
  generalize showDigests n l o w v = x at hrun hshown hsame htwin hnow hcores hcnt hstate
  obtain ⟨hwork, hback, hcount, hevent, hreports, hdivs⟩ := diverge_spec (s := x) (l := l) (o := o) hn (by rw [recentOf, hnow, htwin]; exact hfew) rfl
  rw [hrun]
  have hoff : ∀ i < 4, ¬ partOff n (TWC_DIGEST n i) := by
    intro i hi
    simp only [partOff, muteOff, twinEvtOff, quietOff, TWC_DIGEST, TWC_CNT, TW_EVT, CH_STAT, CH_EVT, CH_REFUSE]
    omega
  refine ⟨_, rfl, ⟨?_, hcount.trans (by rw [hcnt]), hevent, hreporter.reports2 (hsame.reports2 hreports), ?_, ?_, ?_⟩, ?_, ?_, ?_, ?_⟩
  · unfold ComesBack at hback ⊢
    rw [← hnow]
    exact hback
  · exact (hwork.writes.rd64 (hoff 0 (by decide)) (hoff 1 (by decide))).trans hshown.1
  · exact (hwork.writes.rd64 (hoff 2 (by decide)) (hoff 3 (by decide))).trans hshown.2.1
  · refine (hwork.writes.getF ?_).trans hstate
    simp only [partOff, muteOff, twinEvtOff, quietOff, TW_STAT_STATE, TW_STAT, TWC_CNT, TW_EVT, CH_STAT, CH_EVT, CH_REFUSE]
    omega
  · rw [hdivs, recentOf, hnow, htwin]
  · exact hwork.cores.trans hcores.1
  · exact hwork.pos.trans hcores.2
  · rw [hwork.inq, htwin]

end

end Sys2Proof.Machine

/-!
SUPPORT. The Witness's digests and the verdicts a lead receives (spec/11 R290).
-/

namespace Sys2Proof.Machine

section
variable {s t u : State} {n b : Nat} {l o : DWord} {c : List Byte} {rest : List (List Byte)} {m : FabMsg} {ms : List FabMsg}

/-! ### The Witness's digest -/

/-- The oldest message delivered is a Witness's digest of channel `n`. -/
structure WitnessSent (s : State) (m : FabMsg) (ms : List FabMsg) (n : Nat) : Prop where
  head : s.fab.inq = m :: ms
  typ : m.typ = 6
  kind : at' m.body 0 = 0x16
  chan : be m.body 2 2 % 512 = n

/-- A digest is the Witness's own, for a channel whose Twin takes it while it follows. -/
abbrev witnessTrusted (s : State) (n : Nat) (m : FabMsg) : Bool :=
  s.isSet (TWC_CFG_WIT_EN n) && s.chTwin n && decide (m.src = s.getF (TWC_CFG_WIT_ID n)) && decide (s.getF TW_STAT_STATE = 3)

/-- The state without the oldest message delivered. -/
def popFab (ms : List FabMsg) (s : State) : State := { s with fab := { s.fab with inq := ms } }

/-- A Witness's digest is kept. -/
def witnessKept (n b : Nat) (d : DWord) (s : State) : State := s.modTw n (fun t => { t with wit := tblSet none b (some d) t.wit })

theorem witness_exec (h : WitnessSent s m ms n) : exec .witnessDigestRx s = (if (s.isSet (TWC_CFG_WIT_EN n) && s.chTwin n &&
      decide (m.src = s.getF (TWC_CFG_WIT_ID n)) && (decide (s.getF TW_STAT_STATE = 3) || decide (s.getF TW_STAT_STATE = 6))) = true then
    (if (tblGet none (be m.body 4 6) (s.chan n).tw.lead).any (fun l => beatBefore (beatAdd l.2 4) s.beat) = true then
      .next (digestCompare n (be m.body 4 6) (popFab ms s))
    else .next (digestCompare n (be m.body 4 6) (witnessKept n (be m.body 4 6) (BitVec.ofNat 64 (be m.body 10 8)) (popFab ms s))))
    else .next (popFab ms s)) := by
  obtain ⟨hhead, htyp, hkind, rfl⟩ := h
  rw [exec_witnessDigestRx, execWitnessDigestRx, hhead]
  exact if_pos (by rw [htyp, hkind]; decide)

theorem witness_kept (h : WitnessSent s m ms n) (htrust : witnessTrusted s n m = true)
    (hlate : (tblGet none (be m.body 4 6) (s.chan n).tw.lead).any (fun y => beatBefore (beatAdd y.2 4) s.beat) = false)
    (hown : tblGet none (be m.body 4 6) (s.chan n).tw.own = none) : Completes (exec .witnessDigestRx s) fun t => t.fab.inq = ms ∧
      tblGet none (be m.body 4 6) (t.chan n).tw.wit = some (BitVec.ofNat 64 (be m.body 10 8)) ∧ t = { s with chans := t.chans, fab := t.fab } := by
  have hkeep : (s.isSet (TWC_CFG_WIT_EN n) && s.chTwin n && decide (m.src = s.getF (TWC_CFG_WIT_ID n)) &&
      (decide (s.getF TW_STAT_STATE = 3) || decide (s.getF TW_STAT_STATE = 6))) = true := by
    rw [Bool.and_or_distrib_left]
    exact Bool.or_eq_true_iff.mpr (.inl htrust)
  have hwit : (witnessKept n (be m.body 4 6) (BitVec.ofNat 64 (be m.body 10 8)) (popFab ms s)).chan n = { s.chan n with tw := { (s.chan n).tw with
      wit := tblSet none (be m.body 4 6) (some (BitVec.ofNat 64 (be m.body 10 8))) (s.chan n).tw.wit } } := State.chan_modTw_same _ _ _
  have hrun := witness_exec h
  rw [if_pos hkeep, if_neg (by rw [hlate]; decide), digestCompare_of_none (by rw [hwit]; exact hown)] at hrun
  refine ⟨_, hrun, rfl, ?_, rfl⟩
  rw [hwit]
  exact tblGet_tblSet_same (none : Option DWord) (be m.body 4 6) (some (BitVec.ofNat 64 (be m.body 10 8))) (s.chan n).tw.wit

theorem witness_untrusted (h : WitnessSent s m ms n) (htrust : witnessTrusted s n m = false) (h6 : s.getF TW_STAT_STATE ≠ 6) :
    Completes (exec .witnessDigestRx s) fun t => t = { s with fab := { s.fab with inq := ms } } := by
  have hkeep : (s.isSet (TWC_CFG_WIT_EN n) && s.chTwin n && decide (m.src = s.getF (TWC_CFG_WIT_ID n)) &&
      (decide (s.getF TW_STAT_STATE = 3) || decide (s.getF TW_STAT_STATE = 6))) = false := by
    rw [decide_eq_false h6, Bool.or_false]
    exact htrust
  have hrun := witness_exec h
  rw [if_neg (by rw [hkeep]; decide)] at hrun
  exact ⟨_, hrun, rfl⟩

/-! ### A verdict -/

/-- A verdict's digests are shown. -/
def verdictShown (n : Nat) (c : List Byte) (rest : List (List Byte)) (s : State) : State :=
  showDigests n (BitVec.ofNat 64 (be c 8 8)) (BitVec.ofNat 64 (be c 16 8)) (BitVec.ofNat 64 (be c 24 8)) (popTwin rest s)

theorem verdictShown_stat (n : Nat) (c : List Byte) (rest : List (List Byte)) (s : State) {f : Fld} (hf : f.off = TW_STAT) :
    (verdictShown n c rest s).getF f = s.getF f := by
  refine (showDigests_pairWork n _ _ _ (popTwin rest s)).writes.getF ?_
  rw [hf]
  simp only [digestOff, TWC_DIGEST, TW_STAT]
  omega

theorem verdictShown_sameReporter (n : Nat) (c : List Byte) (rest : List (List Byte)) (s : State) :
    SameReporter unitMerge s (verdictShown n c rest s) :=
  ⟨rfl, (showDigests_sameReporter n _ _ _ (popTwin rest s)).stamp, (showDigests_sameReporter n _ _ _ (popTwin rest s)).origin⟩

/-- A lead outvoted mutes its path, shows it, and its channel begins to rejoin. -/
def outvotedBack (n : Nat) (c : List Byte) (s : State) : State :=
  rejoinChan n { outvotedSeen n (be c 8 8) (be c 16 8) s with twin := { s.twin with votes := recentOf s s.twin.votes ++ [s.now] } }

/-- A lead outvoted for the third time within a second is faulty, and follows. -/
def demoted (s : State) : State :=
  setTwin 3 { twinEvt (some TW_EVT_FAULTY) 0x0708 902 noPath 0 0 s with
    twin := { (twinEvt (some TW_EVT_FAULTY) 0x0708 902 noPath 0 0 s).twin with votes := [], lastCame := (twinEvt (some TW_EVT_FAULTY) 0x0708 902 noPath 0 0 s).beat } }

theorem verdict_shown (h : Delivered s c rest 7 n) (hst : s.getF TW_STAT_STATE ≠ 2) : Completes (exec .twinVerdictRx s) fun t =>
    t.rd64 (TWC_DIGEST n 0) = BitVec.ofNat 64 (be c 8 8) ∧ t.rd64 (TWC_DIGEST n 2) = BitVec.ofNat 64 (be c 16 8) ∧
      t.rd64 (TWC_DIGEST n 4) = BitVec.ofNat 64 (be c 24 8) ∧ t = { s with csr := t.csr, twin := { s.twin with inq := rest } } := by
  obtain ⟨h0, h2, h4⟩ := showDigests_rd64 n (BitVec.ofNat 64 (be c 8 8)) (BitVec.ofNat 64 (be c 16 8)) (BitVec.ofNat 64 (be c 24 8)) (popTwin rest s)
  have hstate : twinState (verdictShown n c rest s) ≠ 2 := by
    rw [twinState, verdictShown_stat n c rest s rfl]
    exact hst
  have hrun : exec .twinVerdictRx s = .next (verdictShown n c rest s) := by
    rw [exec_twinVerdictRx, execTwinVerdictRx, twinTake_of h]
    refine congrArg _ (if_pos ?_)
    exact Bool.or_eq_true_iff.mpr (.inl (decide_eq_true hstate))
  exact ⟨_, hrun, h0, h2, h4, rfl⟩

theorem verdict_exec (h : Delivered s c rest 7 n) (hst : s.getF TW_STAT_STATE = 2) (hout : be c 0 2 / 512 % 8 = 2) :
    exec .twinVerdictRx s = .next (if 3 ≤ (recentOf s s.twin.votes ++ [s.now]).length then demoted (outvotedBack n c (verdictShown n c rest s))
      else outvotedBack n c (verdictShown n c rest s)) := by
  have hstate : twinState (verdictShown n c rest s) = 2 := by
    rw [twinState, verdictShown_stat n c rest s rfl]
    exact hst
  obtain ⟨-, -, -, -, -, htwin, hnow⟩ := outvotedSeen_parted n (be c 8 8) (be c 16 8) (verdictShown n c rest s)
  have hvotes : (verdictShown n c rest s).twin.votes = s.twin.votes ∧ (verdictShown n c rest s).now = s.now := ⟨rfl, rfl⟩
  have hgo : ¬ (decide (twinState (verdictShown n c rest s) ≠ 2) || decide (be c 0 2 / 512 % 8 ≠ 2)) = true := by
    rw [hstate, hout]
    decide
  rw [exec_twinVerdictRx, execTwinVerdictRx, twinTake_of h]
  refine congrArg _ ((if_neg hgo).trans ?_)
  unfold outvotedBack
  rw [recentOf, recentOf, ← hvotes.1, ← hvotes.2, ← htwin, ← hnow]
  rfl

end

end Sys2Proof.Machine

/-!
SUPPORT. A lead outvoted, once and for the third time (spec/11 R290).
-/

namespace Sys2Proof.Machine

section
variable {s t u v : State} {n : Nat} {c : List Byte} {rest : List (List Byte)}

theorem verdictShown_keeps (n : Nat) (c : List Byte) (rest : List (List Byte)) (s : State) :
    (verdictShown n c rest s).now = s.now ∧ (verdictShown n c rest s).twin = { s.twin with inq := rest } ∧
      (verdictShown n c rest s).cores = s.cores ∧ (verdictShown n c rest s).pos = s.pos := ⟨rfl, rfl, rfl, rfl⟩

/-- What a lead outvoted shows, and what is left of its channel. -/
theorem outvotedBack_spec (ht : outvotedBack n c v = t) : PairWork (partOff n) v t ∧ ComesBack v t n ∧ t.isSet TW_EVT_OUTVOTED = true ∧
    Reports2 v t unitMerge 0x0706 n (be c 8 8) (be c 16 8) ∧ t.twin.votes = recentOf v v.twin.votes ++ [v.now] := by
  have hseen := outvotedSeen_parted n (be c 8 8) (be c 16 8) v
  have hx : ({ v.twin with votes := recentOf v v.twin.votes ++ [v.now] } : Twin).inq = v.twin.inq := rfl
  obtain ⟨hwork, -, hevent, hreports, -, hcounts, -⟩ := parted_rejoins hseen hx
  subst ht
  exact ⟨hwork, hseen.comesBack hx, hevent, hreports, by rw [outvotedBack, hcounts]⟩

theorem partOff_stat {f : Fld} (hn : n < 512) (hf : f.off = TW_STAT) : ¬ partOff n f.off := by
  rw [hf]
  simp only [partOff, muteOff, twinEvtOff, quietOff, TW_STAT, TWC_CNT, TW_EVT, CH_STAT, CH_EVT, CH_REFUSE]
  omega

theorem verdict_outvoted (hn : n < 512) (h : Delivered s c rest 7 n) (hst : s.getF TW_STAT_STATE = 2) (hout : be c 0 2 / 512 % 8 = 2)
    (hfew : (recentOf s s.twin.votes).length < 2) : Completes (exec .twinVerdictRx s) fun t => ComesBack s t n ∧ t.getF TW_STAT_STATE = 2 ∧
      Reports2 s t unitMerge 0x0706 n (be c 8 8) (be c 16 8) ∧ t.isSet TW_EVT_OUTVOTED = true ∧
      t.twin.votes = recentOf s s.twin.votes ++ [s.now] ∧ (t.cores = s.cores ∧ t.pos = s.pos ∧ t.twin.inq = rest) := by
  have hlen : ¬ 3 ≤ (recentOf s s.twin.votes ++ [s.now]).length := by
    rw [List.length_append, List.length_singleton]
    omega
  have hrun := verdict_exec h hst hout
  rw [if_neg hlen] at hrun
  obtain ⟨hnow, htwin, hcores, hpos⟩ := verdictShown_keeps n c rest s
  have hsame := verdictShown_sameReporter n c rest s
  have hstate := (verdictShown_stat n c rest s (f := TW_STAT_STATE) rfl).trans hst
  generalize verdictShown n c rest s = v at hrun hnow htwin hcores hpos hsame hstate
  obtain ⟨hwork, hback, hevent, hreports, hvotes⟩ := outvotedBack_spec (n := n) (c := c) (v := v) rfl
  refine ⟨_, hrun, ?_, (hwork.writes.getF (partOff_stat hn rfl)).trans hstate, hsame.reports2 hreports, hevent, ?_, hwork.cores.trans hcores,
    hwork.pos.trans hpos, hwork.inq.trans (by rw [htwin])⟩
  · unfold ComesBack at hback ⊢
    rwa [hnow] at hback
  · rw [hvotes, recentOf, hnow, htwin]

/-- A device demoted: faulty, following, with no votes, its channels as they were. -/
theorem demoted_spec (ht : demoted u = t) : t.getF TW_STAT_STATE = 3 ∧ t.isSet TW_EVT_FAULTY = true ∧
    t.twin = { u.twin with votes := [], lastCame := u.beat } ∧ (∀ j, t.chan j = u.chan j) ∧ t.ledger.mutes = u.ledger.mutes ∧
    t.cores = u.cores ∧ t.pos = u.pos := by
  have hwork := twinEvt_pairWork (f := TW_EVT_FAULTY) rfl 0x0708 902 noPath 0 0 u
  have hevent := twinEvt_isSet (f := TW_EVT_FAULTY) rfl rfl (by decide) 0x0708 902 noPath 0 0 u
  have htwin := twinEvt_twin TW_EVT_FAULTY 0x0708 902 noPath 0 0 u
  have hchan := twinEvt_chan TW_EVT_FAULTY 0x0708 902 noPath 0 0 u
  have hmutes := twinEvt_mutes TW_EVT_FAULTY 0x0708 902 noPath 0 0 u
  have hbeat : (twinEvt (some TW_EVT_FAULTY) 0x0708 902 noPath 0 0 u).beat = u.beat :=
    congrArg (fun y : DWord => (y >>> 16).truncate 48) (hwork.writes.rd64 (o := POS_NOW_LO) (by decide) (by decide))
  unfold demoted at ht
  generalize twinEvt (some TW_EVT_FAULTY) 0x0708 902 noPath 0 0 u = w at ht hwork hevent htwin hchan hmutes hbeat
  subst ht
  refine ⟨State.getF_setF_same _ TW_STAT_STATE 3 (by decide) (by decide), ?_, ?_, fun j => (State.chan_setF ..).trans (hchan j), ?_, ?_, ?_⟩
  · exact (State.isSet_congr (f := TW_EVT_FAULTY) (State.rd_setF_ne _ TW_STAT_STATE _ 3 (by decide))).trans hevent
  · rw [setTwin, State.setF_twin]
    show { w.twin with votes := [], lastCame := w.beat } = _
    rw [htwin, hbeat]
  · rw [setTwin, State.setF_ledger]
    exact hmutes
  · rw [setTwin, State.setF_cores]
    exact hwork.cores
  · rw [setTwin, State.setF_pos]
    exact hwork.pos

theorem verdict_demoted (h : Delivered s c rest 7 n) (hst : s.getF TW_STAT_STATE = 2) (hout : be c 0 2 / 512 % 8 = 2)
    (hmany : 2 ≤ (recentOf s s.twin.votes).length) : Completes (exec .twinVerdictRx s) fun t => ComesBack s t n ∧ t.getF TW_STAT_STATE = 3 ∧
      t.isSet TW_EVT_FAULTY = true ∧ t.twin.votes = [] ∧ t.twin.lastCame = s.beat ∧ (t.cores = s.cores ∧ t.pos = s.pos ∧ t.twin.inq = rest) := by
  have hlen : 3 ≤ (recentOf s s.twin.votes ++ [s.now]).length := by
    rw [List.length_append, List.length_singleton]
    omega
  have hrun := verdict_exec h hst hout
  rw [if_pos hlen] at hrun
  obtain ⟨hnow, htwin, hcores, hpos⟩ := verdictShown_keeps n c rest s
  have hstamp : (verdictShown n c rest s).stamp = s.stamp := (verdictShown_sameReporter n c rest s).stamp
  generalize verdictShown n c rest s = v at hrun hnow htwin hcores hpos hstamp
  obtain ⟨hwork, hback, -, -, -⟩ := outvotedBack_spec (n := n) (c := c) (v := v) rfl
  have hbeat : (outvotedBack n c v).beat = s.beat := by
    have hleft : (outvotedBack n c v).stamp = v.stamp := hwork.writes.rd64 (o := POS_NOW_LO)
      (by simp only [partOff, muteOff, twinEvtOff, quietOff, POS_NOW_LO, TWC_CNT, TW_EVT, CH_STAT, CH_EVT, CH_REFUSE]; omega)
      (by simp only [partOff, muteOff, twinEvtOff, quietOff, POS_NOW_LO, TWC_CNT, TW_EVT, CH_STAT, CH_EVT, CH_REFUSE]; omega)
    exact congrArg (fun y : DWord => (y >>> 16).truncate 48) (hleft.trans hstamp)
  generalize outvotedBack n c v = w at hrun hwork hback hbeat
  obtain ⟨hstate, hevent, htwin', hchan, hmutes, hcores', hpos'⟩ := demoted_spec (u := w) rfl
  refine ⟨_, hrun, ?_, hstate, hevent, by rw [htwin'], by rw [htwin']; exact hbeat, hcores'.trans (hwork.cores.trans hcores),
    hpos'.trans (hwork.pos.trans hpos), ?_⟩
  · unfold ComesBack at hback ⊢
    rw [hchan, State.muted_congr hmutes, ← hnow]
    exact hback
  · rw [htwin']
    exact hwork.inq.trans (by rw [htwin])

end

end Sys2Proof.Machine

/-!
SUPPORT. SLOT records (spec/11 R232, R292): a slot that comes sealed, its roles, and its acknowledgement.
-/

namespace Sys2Proof.Machine

section
variable {P : Nat → Prop} {s t u : State} {n k z : Nat} {c rec : List Byte} {rest : List (List Byte)}

/-! ### The twin link as another state has it (R273) -/

/-- The twin link of `t` is as that of `s`: its counts and key, the registers that name its ends, and the state of its member ports. -/
structure SameLink (s t : State) : Prop where
  twin : t.twin.count = s.twin.count ∧ t.twin.bondTx = s.twin.bondTx ∧ t.twin.turn = s.twin.turn ∧ t.twin.key = s.twin.key ∧ t.twin.backlog = s.twin.backlog
  cfg : t.rd TW_CFG = s.rd TW_CFG
  ident : t.rd FAB_ID = s.rd FAB_ID
  ports : ∀ z < 4, t.rd (PORT_STAT (64 + z)) = s.rd (PORT_STAT (64 + z))

theorem SameLink.twinTurn (h : SameLink s t) : twinTurn t = twinTurn s := by
  obtain ⟨⟨-, -, hturn, -, -⟩, hcfg, -, hports⟩ := h
  have hmembers : twinPorts t = twinPorts s := by
    unfold twinPorts
    refine List.filter_congr (fun z hz => ?_)
    have hz4 : z < 4 := by
      simp only [List.mem_cons, List.not_mem_nil, or_false] at hz
      omega
    have hup : t.zUp z = s.zUp z := by
      unfold State.zUp
      rw [State.getF_congr (f := PORT_STAT_STATE (64 + z)) (hports z hz4)]
    rw [State.getF_congr (f := TW_CFG_TLINKS) hcfg, hup]
  unfold Machine.twinTurn
  rw [hmembers, hturn]

theorem SameLink.sent (h : SameLink s t) (hsent : TwinSent t u z rec) : TwinSent s u z rec := by
  obtain ⟨⟨hcount, hbond, -, hkey, -⟩, hcfg, hident, -⟩ := h
  have hdev : t.devId = s.devId := State.getF_congr (f := FAB_ID_DEV_ID) hident
  unfold TwinSent twinMsg at hsent ⊢
  rwa [hcount, hbond, hkey, hdev, State.getF_congr (f := TW_CFG_MATE_ID) hcfg, State.getF_congr (f := TW_CFG_MY_PATH) hcfg] at hsent

theorem popTwin_sameLink (rest : List (List Byte)) (s : State) : SameLink s (popTwin rest s) := ⟨⟨rfl, rfl, rfl, rfl, rfl⟩, rfl, rfl, fun _ _ => rfl⟩

/-- A record leaves a state whose link is as that of `s`. -/
theorem SameLink.twinSend (h : SameLink s t) (hturn : Machine.twinTurn s = some z) (hback : s.twin.backlog = []) :
    TwinSent s (twinSend rec t) z rec ∧ twinSend rec t = { t with twin := countedTwin z t.twin, fab := (twinSend rec t).fab, outs := (twinSend rec t).outs } := by
  obtain ⟨hsent, heqv⟩ := twinSend_sent (rec := rec) (h.twinTurn.trans hturn) (h.twin.2.2.2.2.trans hback)
  exact ⟨h.sent hsent, heqv⟩

/-! ### A slot that cannot be unsealed -/

theorem unwrapFailed_reports (s : State) : Reports s (unwrapFailed s) unitTack 0x0503 noPath 0 ∧ Counted s (unwrapFailed s) TR_CNT_UNWRAP_FAIL 1 := by
  have hsame : SameReporter unitTack s (s.cntSat TR_CNT_UNWRAP_FAIL 1) :=
    ((Writes.refl s (P := (· = TR_CNT_UNWRAP_FAIL.off))).setF rfl).sameReporter (fun o ho => by
      simp only [reporterOff, POS_NOW_LO, FAB_ID] at ho
      simp only [TR_CNT_UNWRAP_FAIL, TR_CNT]
      omega) (by rw [State.setF_ledger])
  refine ⟨hsame.reports (State.report_reports _ _ _ _ _), ?_⟩
  refine (State.getF_congr ((report_quiet _ _ _ _ _).rd _ (by decide))).trans ?_
  exact State.getF_cntSat_same _ _ _ (by decide) (by decide)

/-! ### A slot that comes (R232) -/

/-- The slot that a SLOT record carries. -/
abbrev slotOfRecord (c p : List Byte) : Slot := Slot.mk (at' c 3 / 16 % 4) (p.take 46) (be c 4 4) (at' c 3 % 4) [] false false

/-- A slot that comes for the role next takes it, in both directions. -/
def slotRoleTaken (n k f : Nat) (s : State) : State := if f / 4 % 4 = 0 then nextShown n k (replayClear n (f % 4) s) else s

/-- What a slot replaces in the role next is freed, unless the channel rejoins. -/
def slotReaped (n f : Nat) (s : State) : State := if f / 4 % 4 = 0 && !(s.chan n).tw.rejoining then reapSlots n s else s

/-- The slot has come. -/
def slotCome (n : Nat) (c p : List Byte) (s : State) : State :=
  slotReaped n (at' c 3) (slotRoleTaken n (at' c 2 % 4) (at' c 3) (slotFilled (slotOf n (at' c 2 % 4)) (slotOfRecord c p) s))

/-- What a slot that comes may write: its channel's replay state and roles, and the count of slots. -/
abbrev slotComeOff (n o : Nat) : Prop := (CH_REPLAY n 0 ≤ o ∧ o < CH_REPLAY n 16) ∨ rolesOff n o ∨ o = TR_STAT

theorem replayClear_near {an : Nat} (han : an < 4) (s : State) : KeyWork (slotComeOff n) s (replayClear n an s) := by
  have hoff : ∀ j < 15, slotComeOff n (CH_REPLAY n j) ∧ slotComeOff n (CH_REPLAY n j + 4) := by
    intro j hj
    simp only [slotComeOff, CH_REPLAY]
    omega
  unfold replayClear
  split
  · exact (((KeyWork.refl s).wr64 (hoff _ (by omega)).1 (hoff _ (by omega)).2).wr64 (hoff _ (by omega)).1 (hoff _ (by omega)).2).modChan n _
  · exact .refl s

theorem slotRoleTaken_work (n k f : Nat) (s : State) : KeyWork (slotComeOff n) s (slotRoleTaken n k f s) :=
  .ite ((replayClear_near (Nat.mod_lt _ (by decide)) s).trans ((nextShown_regWork n k _).keyWork (fun _ h => .inr (.inl h)))) (.refl s)

theorem slotRoleTaken_slot (n k f j : Nat) (s : State) : (slotRoleTaken n k f s).slot j = s.slot j := by
  unfold slotRoleTaken
  split
  · unfold State.slot
    rw [(nextShown_regWork n k _).tack, replayClear_tack]
  · rfl

theorem slotReaped_work (n f : Nat) (s : State) : KeyWork (· = TR_STAT) s (slotReaped n f s) := .ite (reapSlots_work n s) (.refl s)

theorem slotCome_work (n : Nat) (c p : List Byte) (s : State) : KeyWork (slotComeOff n) s (slotCome n c p s) :=
  (((slotFilled_work _ _ s).mono (fun _ h => .inr (.inr h))).trans (slotRoleTaken_work ..)).trans ((slotReaped_work ..).mono (fun _ h => .inr (.inr h)))

/-- A slot that comes for the role next is next in both directions. -/
theorem slotCome_next {p : List Byte} (hf : at' c 3 / 4 % 4 = 0) {d : Nat} (hd : d ∈ [0, 1]) :
    (slotCome n c p s).isSet (KB_ROLES_NEXT_V n d) = true ∧ (slotCome n c p s).getF (KB_ROLES_NEXT_SLOT n d) = at' c 2 % 4 := by
  have hfields := nextShown_fields (n := n) (i := at' c 2 % 4)
    (s := replayClear n (at' c 3 % 4) (slotFilled (slotOf n (at' c 2 % 4)) (slotOfRecord c p) s)) (Nat.mod_lt _ (by decide)) hd
  have htaken : slotRoleTaken n (at' c 2 % 4) (at' c 3) (slotFilled (slotOf n (at' c 2 % 4)) (slotOfRecord c p) s) =
      nextShown n (at' c 2 % 4) (replayClear n (at' c 3 % 4) (slotFilled (slotOf n (at' c 2 % 4)) (slotOfRecord c p) s)) := if_pos hf
  have hrole : KB_ROLES n d ≠ TR_STAT := by
    have := roles_lt hd
    simp only [KB_ROLES, TR_STAT]
    omega
  unfold slotCome
  rw [htaken]
  have hreaped := (slotReaped_work n (at' c 3)
    (nextShown n (at' c 2 % 4) (replayClear n (at' c 3 % 4) (slotFilled (slotOf n (at' c 2 % 4)) (slotOfRecord c p) s)))).writes
  exact ⟨(hreaped.isSet (f := KB_ROLES_NEXT_V n d) hrole).trans hfields.1, (hreaped.getF (f := KB_ROLES_NEXT_SLOT n d) hrole).trans hfields.2⟩

theorem slotCome_slot (hn : n < 512) (c p : List Byte) (s : State) :
    (slotCome n c p s).slot (slotOf n (at' c 2 % 4)) = slotOfRecord c p := by
  have hfilled : (slotRoleTaken n (at' c 2 % 4) (at' c 3) (slotFilled (slotOf n (at' c 2 % 4)) (slotOfRecord c p) s)).slot
      (slotOf n (at' c 2 % 4)) = slotOfRecord c p := (slotRoleTaken_slot ..).trans (slotFilled_slot ..)
  refine Eq.trans ?_ hfilled
  unfold slotCome slotReaped
  split
  next hreap =>
    rw [Bool.and_eq_true, decide_eq_true_eq] at hreap
    have htaken : slotRoleTaken n (at' c 2 % 4) (at' c 3) (slotFilled (slotOf n (at' c 2 % 4)) (slotOfRecord c p) s) =
        nextShown n (at' c 2 % 4) (replayClear n (at' c 3 % 4) (slotFilled (slotOf n (at' c 2 % 4)) (slotOfRecord c p) s)) := if_pos hreap.1
    refine reapSlots_slot hn ?_
    rw [htaken]
    exact nextShown_fields (Nat.mod_lt _ (by decide)) (by decide)
  next => rfl

theorem isWitness_congr (hcfg : t.rd (CH_CFG n) = s.rd (CH_CFG n)) (htwc : t.rd (TWC_CFG n) = s.rd (TWC_CFG n)) (hident : t.rd FAB_ID = s.rd FAB_ID) :
    isWitness t n = isWitness s n := by
  have htwin : t.chTwin n = s.chTwin n := State.isSet_congr (f := CH_CFG_TWIN n) hcfg
  have hdev : t.devId = s.devId := State.getF_congr (f := FAB_ID_DEV_ID) hident
  unfold isWitness
  rw [htwin, hdev, State.isSet_congr (f := TWC_CFG_WIT_EN n) htwc, State.getF_congr (f := TWC_CFG_WIT_ID n) htwc]

theorem slotCome_isWitness (n : Nat) (c p : List Byte) (s : State) : isWitness (slotCome n c p s) n = isWitness s n := by
  have hwrites := (slotCome_work n c p s).writes
  refine isWitness_congr (hwrites _ ?_) (hwrites _ ?_) (hwrites _ ?_) <;>
    simp only [slotComeOff, rolesOff, CH_REPLAY, KB_ROLES, TR_STAT, CH_CFG, TWC_CFG, FAB_ID] <;> omega

theorem KeyWork.sameLink (h : KeyWork P s t) (hP : ∀ o, (o = TW_CFG ∨ o = FAB_ID ∨ (PORT_STAT 64 ≤ o ∧ o < PORT_STAT 68)) → ¬ P o) : SameLink s t := by
  refine ⟨by rw [h.twin]; exact ⟨rfl, rfl, rfl, rfl, rfl⟩, h.writes _ (hP _ (.inl rfl)), h.writes _ (hP _ (.inr (.inl rfl))), fun z hz => h.writes _ (hP _ ?_)⟩
  simp only [PORT_STAT]
  omega

theorem SameLink.trans (h : SameLink s t) (g : SameLink t u) : SameLink s u := by
  obtain ⟨h1, h2, h3, h4, h5⟩ := h.twin
  obtain ⟨g1, g2, g3, g4, g5⟩ := g.twin
  exact ⟨⟨g1.trans h1, g2.trans h2, g3.trans h3, g4.trans h4, g5.trans h5⟩, g.cfg.trans h.cfg, g.ident.trans h.ident,
    fun z hz => (g.ports z hz).trans (h.ports z hz)⟩

theorem slotCome_sameLink (hn : n < 512) (c p : List Byte) (s : State) : SameLink s (slotCome n c p s) :=
  (slotCome_work n c p s).sameLink (fun o ho => by
    simp only [slotComeOff, rolesOff, CH_REPLAY, KB_ROLES, TR_STAT, TW_CFG, FAB_ID, PORT_STAT] at ho ⊢
    omega)

theorem slotRx_exec (h : Delivered s c rest 4 n) (hwit : isWitness s n = false) : exec .twinSlotRx s =
    .next ((unwrap s.twin.key (slice c 8 56)).elim (unwrapFailed (popTwin rest s))
      (fun p => twinSend (twinHead 8 n ++ [BitVec.ofNat 8 (at' c 2 % 4)]) (slotCome n c p (popTwin rest s)))) := by
  rw [exec_twinSlotRx, execTwinSlotRx, twinTake_of h]
  refine congrArg _ ?_
  have hkey : (if isWitness (popTwin rest s) n then witnessKey (popTwin rest s) (popTwin rest s).devId else (popTwin rest s).twin.key) = s.twin.key :=
    if_neg (by rw [popTwin_isWitness, hwit]; decide)
  have hwit' : ∀ p, isWitness (slotCome n c p (popTwin rest s)) n = false := fun p => (slotCome_isWitness n c p _).trans hwit
  extract_lets i f key
  rw [show key = s.twin.key from hkey]
  cases unwrap s.twin.key (slice c 8 56) with
  | none => rfl
  | some p =>
    refine (if_neg (c := isWitness (slotCome n c p (popTwin rest s)) n = true) ?_).trans rfl
    rw [hwit']
    decide

end

end Sys2Proof.Machine

/-!
SUPPORT. SLOT records and their acknowledgements taken, and the lead's composed messages sent on (spec/11 R232, R281).
-/

namespace Sys2Proof.Machine

section
variable {P : Nat → Prop} {s t u : State} {n k z : Nat} {c rec : List Byte} {rest : List (List Byte)}

/-! ### A SLOT record (R232) -/

theorem slotRx_bad (h : Delivered s c rest 4 n) (hwit : isWitness s n = false) (hslot : unwrap s.twin.key (slice c 8 56) = none) :
    Completes (exec .twinSlotRx s) fun t => (t.cores = s.cores ∧ t.pos = s.pos ∧ t.twin.inq = rest) ∧
      Reports s t unitTack 0x0503 noPath 0 ∧ Counted s t TR_CNT_UNWRAP_FAIL 1 := by
  have hrun := slotRx_exec h hwit
  rw [hslot] at hrun
  have heqv := (unwrapFailed_work (popTwin rest s)).eqv
  obtain ⟨hreports, hcounted⟩ := unwrapFailed_reports (popTwin rest s)
  refine ⟨_, hrun, ?_, (popTwin_sameReporter _ rest s).reports hreports, hcounted⟩
  show (unwrapFailed (popTwin rest s)).cores = _ ∧ (unwrapFailed (popTwin rest s)).pos = _ ∧ (unwrapFailed (popTwin rest s)).twin.inq = _
  generalize unwrapFailed (popTwin rest s) = t at heqv ⊢
  rw [heqv]
  exact ⟨rfl, rfl, rfl⟩

theorem slotRx_good (hn : n < 512) (h : Delivered s c rest 4 n) (hwit : isWitness s n = false) {p : List Byte}
    (hslot : unwrap s.twin.key (slice c 8 56) = some p) (hturn : twinTurn s = some z) (hback : s.twin.backlog = []) :
    Completes (exec .twinSlotRx s) fun t => (t.cores = s.cores ∧ t.pos = s.pos ∧ t.twin.inq = rest) ∧
      t.slot (slotOf n (at' c 2 % 4)) = slotOfRecord c p ∧
      (at' c 3 / 4 % 4 = 0 → ∀ d ∈ [0, 1], t.isSet (KB_ROLES_NEXT_V n d) = true ∧ t.getF (KB_ROLES_NEXT_SLOT n d) = at' c 2 % 4) ∧
      TwinSent s t z (twinHead 8 n ++ [BitVec.ofNat 8 (at' c 2 % 4)]) := by
  have hrun := slotRx_exec h hwit
  rw [hslot] at hrun
  have hwork := slotCome_work n c p (popTwin rest s)
  have hcome := slotCome_slot hn c p (popTwin rest s)
  have hnext := fun hf d hd => slotCome_next (n := n) (c := c) (s := popTwin rest s) (p := p) hf (d := d) hd
  have hlink := (popTwin_sameLink rest s).trans (slotCome_sameLink hn c p (popTwin rest s))
  change exec .twinSlotRx s = .next (twinSend (twinHead 8 n ++ [BitVec.ofNat 8 (at' c 2 % 4)]) (slotCome n c p (popTwin rest s))) at hrun
  generalize slotCome n c p (popTwin rest s) = w at hrun hwork hcome hnext hlink
  obtain ⟨hsent, -⟩ := hlink.twinSend (rec := twinHead 8 n ++ [BitVec.ofNat 8 (at' c 2 % 4)]) hturn hback
  have hpair := twinSend_pairWork (P := fun _ => False) (twinHead 8 n ++ [BitVec.ofNat 8 (at' c 2 % 4)]) w
  have hrd := twinSend_rd (twinHead 8 n ++ [BitVec.ofNat 8 (at' c 2 % 4)]) w
  have htack : (twinSend (twinHead 8 n ++ [BitVec.ofNat 8 (at' c 2 % 4)]) w).tack = w.tack := by
    rw [(twinSend_linkWork (twinHead 8 n ++ [BitVec.ofNat 8 (at' c 2 % 4)]) w).eqv]
  refine ⟨_, hrun, ⟨hpair.cores.trans hwork.cores, hpair.pos.trans hwork.pos, hpair.inq.trans (congrArg Twin.inq hwork.twin)⟩, ?_, fun hf d hd => ?_, hsent⟩
  · exact (congrArg (fun x : Tack => tblGet Slot.reset (slotOf n (at' c 2 % 4)) x.slots) htack).trans hcome
  · exact ⟨(State.isSet_congr (hrd _)).trans (hnext hf d hd).1, (State.getF_congr (hrd _)).trans (hnext hf d hd).2⟩

/-- What a SLOT record does at a device that is no Witness of its channel. -/
theorem slotRx_results (hn : n < 512) (h : Delivered s c rest 4 n) (hwit : isWitness s n = false) (hturn : twinTurn s = some z)
    (hback : s.twin.backlog = []) : Completes (exec .twinSlotRx s) fun t => (t.cores = s.cores ∧ t.pos = s.pos ∧ t.twin.inq = rest) ∧
      (unwrap s.twin.key (slice c 8 56) = none → Reports s t unitTack 0x0503 noPath 0 ∧ Counted s t TR_CNT_UNWRAP_FAIL 1) ∧
      (unwrap s.twin.key (slice c 8 56)).all (fun p => decide (t.slot (slotOf n (at' c 2 % 4)) = slotOfRecord c p)) = true ∧
      ((unwrap s.twin.key (slice c 8 56)).isSome = true → at' c 3 / 4 % 4 = 0 → t.isSet (KB_ROLES_NEXT_V n 0) = true ∧
        t.isSet (KB_ROLES_NEXT_V n 1) = true ∧ t.getF (KB_ROLES_NEXT_SLOT n 0) = at' c 2 % 4 ∧ t.getF (KB_ROLES_NEXT_SLOT n 1) = at' c 2 % 4) ∧
      ((unwrap s.twin.key (slice c 8 56)).isSome = true → TwinSent s t z (twinHead 8 n ++ [BitVec.ofNat 8 (at' c 2 % 4)])) := by
  cases hslot : unwrap s.twin.key (slice c 8 56) with
  | none =>
    obtain ⟨t, hrun, hstill, hbad⟩ := slotRx_bad h hwit hslot
    exact ⟨t, hrun, hstill, fun _ => hbad, rfl, fun hsome => absurd hsome (by decide), fun hsome => absurd hsome (by decide)⟩
  | some p =>
    obtain ⟨t, hrun, hstill, hcome, hnext, hsent⟩ := slotRx_good hn h hwit hslot hturn hback
    refine ⟨t, hrun, hstill, fun hnone => absurd hnone (Option.some_ne_none p), decide_eq_true hcome, fun _ hf => ?_, fun _ => hsent⟩
    obtain ⟨⟨hv0, hs0⟩, hv1, hs1⟩ := And.intro (hnext hf 0 (by decide)) (hnext hf 1 (by decide))
    exact ⟨hv0, hv1, hs0, hs1⟩

/-! ### An acknowledgement (R232) -/

/-- The follower has slot `k` of the channel. -/
def slotAckTaken (n k : Nat) (rest : List (List Byte)) (s : State) : State :=
  (popTwin rest s).modTw n (fun t => { t with slotAcked := k :: t.slotAcked.filter (· ≠ k) })

/-- The installs under way, those that waited for slot `k` of the channel armed. -/
def installsAcked (n k : Nat) (s : State) : List Install × State :=
  s.ym.installs.foldl
    (fun (y : List Install × State) x =>
      if x.ch = n ∧ x.slot = slotOf n k then
        let z := installArm x y.2
        (y.1 ++ [z.1], z.2)
      else (y.1 ++ [x], y.2)) ([], s)

theorem installsAcked_nil (h : s.ym.installs = []) : installsAcked n k s = ([], s) := by
  unfold installsAcked
  rw [h]
  rfl

theorem slotAck_exec (h : Delivered s c rest 8 n) : exec .twinSlotAckRx s =
    .next (installsEnd { (installsAcked n (at' c 2 % 4) (slotAckTaken n (at' c 2 % 4) rest s)).2 with
      ym := { (installsAcked n (at' c 2 % 4) (slotAckTaken n (at' c 2 % 4) rest s)).2.ym with
        installs := (installsAcked n (at' c 2 % 4) (slotAckTaken n (at' c 2 % 4) rest s)).1 } }) := by
  rw [exec_twinSlotAckRx, execTwinSlotAckRx, twinTake_of h]
  rfl

theorem installsEnd_nil (h : s.ym.installs = []) : installsEnd { s with ym := { s.ym with installs := [] } } = s := by
  have hsame : ({ s with ym := { s.ym with installs := [] } } : State) = s := by rw [← h]
  rw [hsame]
  unfold installsEnd
  rw [h]
  exact hsame

theorem slotAck_taken (h : Delivered s c rest 8 n) (hnone : s.ym.installs = []) : Completes (exec .twinSlotAckRx s) fun t =>
    (t.chan n).tw = { (s.chan n).tw with slotAcked := at' c 2 % 4 :: (s.chan n).tw.slotAcked.filter (· ≠ at' c 2 % 4) } ∧
      t = { s with chans := t.chans, twin := { s.twin with inq := rest } } := by
  have hnone' : (slotAckTaken n (at' c 2 % 4) rest s).ym.installs = [] := hnone
  have hrun := slotAck_exec h
  rw [installsAcked_nil hnone', installsEnd_nil hnone'] at hrun
  refine ⟨_, hrun, ?_, rfl⟩
  rw [slotAckTaken, State.chan_modTw_same, popTwin_chan]

end

end Sys2Proof.Machine

/-!
SUPPORT. The lead's composed messages (spec/11 R281): the follower sends each on its own path, and does what it decides.
-/

namespace Sys2Proof.Machine

section
variable {n : Fin 512} {s t u : State} {c m : List Byte} {rest : List (List Byte)}

/-! ### A message sent on -/

/-- A composed message counted, and queued as it came. -/
def relayed (n : Nat) (m : List Byte) (s : State) : State :=
  { brCnt n 0 s with brTx := (brCnt n 0 s).brTx ++ [BrOut.mk n 1 (decide (at' m 1 = brSwitchAt) || decide (at' m 1 = brSwitchCancel)) m 0] }

/-- The registers of the count of messages sent. -/
abbrev sentCountOff (n o : Nat) : Prop := o = BR_CNT n 0 ∨ o = BR_CNT n 0 + 4

theorem relayed_work (n : Nat) (m : List Byte) (s : State) : KeyWork (sentCountOff n) s (relayed n m s) :=
  (((KeyWork.refl s).wr64 (.inl rfl) (.inr rfl)).withBrTx _)

theorem relayed_brTx (n : Nat) (m : List Byte) (s : State) : (relayed n m s).brTx =
    s.brTx ++ [BrOut.mk n 1 (decide (at' m 1 = brSwitchAt) || decide (at' m 1 = brSwitchCancel)) m 0] := by
  show (brCnt n 0 s).brTx ++ _ = _
  rw [brCnt, State.cnt64, State.wr64_brTx]

theorem relayed_count (n : Nat) (m : List Byte) (s : State) : (relayed n m s).rd64 (BR_CNT n 0) = s.rd64 (BR_CNT n 0) + 1 :=
  State.rd64_wr64_same _ _ _

theorem relayed_eqv (n : Nat) (m : List Byte) (s : State) :
    relayed n m s = { s with csr := (relayed n m s).csr, brTx := (relayed n m s).brTx } := rfl

theorem relayed_chan (n : Nat) (m : List Byte) (s : State) (j : Nat) : (relayed n m s).chan j = s.chan j := rfl

/-! ### What a message decides -/

/-- The stream's SEQ is not behind the message's. -/
def seqFollowed (n : Nat) (m : List Byte) (s : State) : State :=
  if (s.rd (BR_TX_SEQ n 0)).toNat < be m 12 4 then s.wr (BR_TX_SEQ n 0) (BitVec.ofNat 32 (be m 12 4)) else s

theorem seqFollowed_rd (n : Nat) (m : List Byte) (s : State) :
    (seqFollowed n m s).rd (BR_TX_SEQ n 0) = BitVec.ofNat 32 (max (s.rd (BR_TX_SEQ n 0)).toNat (be m 12 4)) := by
  unfold seqFollowed
  split
  next h => rw [State.rd_wr_same, Nat.max_eq_right (Nat.le_of_lt h)]
  next h => rw [Nat.max_eq_left (Nat.le_of_not_lt h), BitVec.ofNat_toNat, BitVec.setWidth_eq]

theorem seqFollowed_work (n : Nat) (m : List Byte) (s : State) : KeyWork (· = BR_TX_SEQ n 0) s (seqFollowed n m s) :=
  .ite ((KeyWork.refl s).wr rfl) (.refl s)

theorem seqFollowed_eqv (n : Nat) (m : List Byte) (s : State) : seqFollowed n m s = { s with csr := (seqFollowed n m s).csr } := by
  unfold seqFollowed
  split <;> rfl

/-- The switch that a lead's SWITCH_AT arms at its follower. -/
def followedSwitch (n : Nat) (m : List Byte) (s : State) : Switch :=
  { epoch := be m 32 4, beat := BitVec.ofNat 48 (be m 36 6), sent := true, acked := false, markDone := false, late := false, host := !s.hwKeys n }

/-- What a message of the session in force decides: an armed switch, or a cancelled one. -/
def followDecided (n : Nat) (m : List Byte) (s : State) : State :=
  if at' m 1 = brSwitchAt then
    if (armSwitch n 0 (followedSwitch n m s) true s).chMode n = 2 then
      (armSwitch n 0 (followedSwitch n m s) true s).wr64 (CH_MODE_W1_LO n)
        (BitVec.ofNat 64 (switchFrame (be m 44 6, BitVec.ofNat 64 (be m 50 8), be m 58 6) (BitVec.ofNat 48 (be m 36 6))).1)
    else armSwitch n 0 (followedSwitch n m s) true s
  else if at' m 1 = brSwitchCancel then disarmSwitch n 0 s
  else s

theorem followBridle_of_sid (hsid : be m 16 8 = s.sidTx n) : followBridle n m s = followDecided n m (seqFollowed n m s) := by
  unfold followBridle
  extract_lets typ sid s0 s1
  have h1 : s1 = s := if_neg (not_not_intro hsid)
  show followDecided n m (seqFollowed n m s1) = _
  rw [h1]

theorem followBridle_plain (hsid : be m 16 8 = s.sidTx n) (hat : at' m 1 ≠ brSwitchAt) (hcancel : at' m 1 ≠ brSwitchCancel) :
    followBridle n m s = seqFollowed n m s := by
  rw [followBridle_of_sid hsid]
  exact (if_neg hat).trans (if_neg hcancel)

theorem followBridle_switchAt (hsid : be m 16 8 = s.sidTx n) (hat : at' m 1 = brSwitchAt) (hmode : s.chMode n ≠ 2) :
    followBridle n m s = armSwitch n 0 (followedSwitch n m (seqFollowed n m s)) true (seqFollowed n m s) := by
  have hseq := (seqFollowed_work n m s).writes
  have harm := (armSwitch_work (n := n) (s := seqFollowed n m s) (followedSwitch n m (seqFollowed n m s))).writes
  have hmode' : (armSwitch n 0 (followedSwitch n m (seqFollowed n m s)) true (seqFollowed n m s)).chMode n ≠ 2 := by
    have hsame : (armSwitch n 0 (followedSwitch n m (seqFollowed n m s)) true (seqFollowed n m s)).chMode n = s.chMode n :=
      (harm.getF (f := CH_CFG_MODE n) (fun ho => (armOff_cfg ho).1 rfl)).trans
        (hseq.getF (f := CH_CFG_MODE n) (by simp only [CH_CFG_MODE, CH_CFG, BR_TX_SEQ]; omega))
    rw [hsame]
    exact hmode
  rw [followBridle_of_sid hsid]
  exact (if_pos hat).trans (if_neg hmode')

theorem followBridle_cancel (hsid : be m 16 8 = s.sidTx n) (hcancel : at' m 1 = brSwitchCancel) :
    followBridle n m s = disarmSwitch n 0 (seqFollowed n m s) := by
  have hat : at' m 1 ≠ brSwitchAt := by rw [hcancel]; decide
  rw [followBridle_of_sid hsid]
  exact (if_neg hat).trans (if_pos hcancel)

/-! ### A BRIDLE record -/

theorem bridleRx_ignored (h : Delivered s c rest 5 n) (hst : s.getF TW_STAT_STATE < 3) :
    Completes (exec .twinBridleRx s) fun t => t = { s with twin := { s.twin with inq := rest } } := by
  refine ⟨popTwin rest s, ?_, rfl⟩
  rw [exec_twinBridleRx, execTwinBridleRx, twinTake_of h]
  exact congrArg _ (if_pos hst)

theorem bridleRx_exec (h : Delivered s c rest 5 n) (hst : 3 ≤ s.getF TW_STAT_STATE) :
    exec .twinBridleRx s = .next (relayed n (c.drop 2) (followBridle n (c.drop 2) (popTwin rest s))) := by
  rw [exec_twinBridleRx, execTwinBridleRx, twinTake_of h]
  exact congrArg _ (if_neg (Nat.not_lt.mpr hst))

theorem bridleRx_plain (h : Delivered s c rest 5 n) (hst : 3 ≤ s.getF TW_STAT_STATE) (hsid : be (c.drop 2) 16 8 = s.sidTx n)
    (hat : at' (c.drop 2) 1 ≠ brSwitchAt) (hcancel : at' (c.drop 2) 1 ≠ brSwitchCancel) : Completes (exec .twinBridleRx s) fun t =>
      t.brTx = s.brTx ++ [BrOut.mk n 1 false (c.drop 2) 0] ∧ t.rd64 (BR_CNT n 0) = s.rd64 (BR_CNT n 0) + 1 ∧
      t.rd (BR_TX_SEQ n 0) = BitVec.ofNat 32 (max (s.rd (BR_TX_SEQ n 0)).toNat (be (c.drop 2) 12 4)) ∧
      t = { s with csr := t.csr, brTx := t.brTx, twin := { s.twin with inq := rest } } := by
  have hrun := bridleRx_exec h hst
  rw [followBridle_plain (s := popTwin rest s) hsid hat hcancel] at hrun
  have hseq := seqFollowed_rd n (c.drop 2) (popTwin rest s)
  have hwrites := (seqFollowed_work n (c.drop 2) (popTwin rest s)).writes
  have heqv := seqFollowed_eqv n (c.drop 2) (popTwin rest s)
  generalize seqFollowed n (c.drop 2) (popTwin rest s) = u at hrun hseq hwrites heqv
  have hbrTx : u.brTx = s.brTx := by rw [heqv]; rfl
  have hcnt : u.rd64 (BR_CNT n 0) = s.rd64 (BR_CNT n 0) :=
    hwrites.rd64 (by simp only [BR_CNT, BR_TX_SEQ]; omega) (by simp only [BR_CNT, BR_TX_SEQ]; omega)
  refine ⟨_, hrun, ?_, ?_, ?_, ?_⟩
  · rw [relayed_brTx, hbrTx, decide_eq_false hat, decide_eq_false hcancel]
    rfl
  · rw [relayed_count, hcnt]
  · exact ((relayed_work n (c.drop 2) u).writes _ (by simp only [sentCountOff, BR_CNT, BR_TX_SEQ]; omega)).trans hseq
  · have hrelay := relayed_eqv n (c.drop 2) u
    generalize relayed n (c.drop 2) u = t at hrelay ⊢
    rw [hrelay, heqv]
    rfl

theorem relayed_roles (n : Nat) (m : List Byte) (s : State) : (relayed n m s).rd (KB_ROLES n 0) = s.rd (KB_ROLES n 0) :=
  (relayed_work n m s).writes _ (by simp only [sentCountOff, BR_CNT, KB_ROLES]; omega)

theorem bridleRx_switchAt (h : Delivered s c rest 5 n) (hst : 3 ≤ s.getF TW_STAT_STATE) (hsid : be (c.drop 2) 16 8 = s.sidTx n)
    (hat : at' (c.drop 2) 1 = brSwitchAt) (hmode : s.chMode n ≠ 2) : Completes (exec .twinBridleRx s) fun t =>
      t.brTx = s.brTx ++ [BrOut.mk n 1 true (c.drop 2) 0] ∧
      (t.chan n).swOut.map (fun w => (w.epoch, w.beat, w.sent, w.acked)) =
        some (be (c.drop 2) 32 4, BitVec.ofNat 48 (be (c.drop 2) 36 6), true, false) ∧
      t.isSet (KB_ROLES_SW_ARMED n 0) = true ∧ (t.cores = s.cores ∧ t.pos = s.pos ∧ t.twin.inq = rest) := by
  have hrun := bridleRx_exec h hst
  rw [followBridle_switchAt (s := popTwin rest s) hsid hat hmode] at hrun
  have heqv := seqFollowed_eqv n (c.drop 2) (popTwin rest s)
  generalize seqFollowed n (c.drop 2) (popTwin rest s) = u at hrun heqv
  have hfields : u.brTx = s.brTx ∧ u.cores = s.cores ∧ u.pos = s.pos ∧ u.twin.inq = rest := by
    rw [heqv]
    exact ⟨rfl, rfl, rfl, rfl⟩
  obtain ⟨hbrTx, hcores, hpos, hinq⟩ := hfields
  have harm := armSwitch_armedWith (n := n) (s := u) (followedSwitch n (c.drop 2) u)
  have hwork := armSwitch_work (n := n) (s := u) (followedSwitch n (c.drop 2) u)
  generalize armSwitch n 0 (followedSwitch n (c.drop 2) u) true u = v at hrun harm hwork
  have hrelay := relayed_eqv n (c.drop 2) v
  refine ⟨_, hrun, ?_, ?_, (State.isSet_congr (f := KB_ROLES_SW_ARMED n 0) (relayed_roles n _ v)).trans harm.armed, ?_⟩
  · rw [relayed_brTx, harm.brTx, hbrTx, decide_eq_true hat]
    rfl
  · rw [relayed_chan, harm.chan]
    rfl
  · exact ⟨hwork.cores.trans hcores, hwork.pos.trans hpos, (congrArg Twin.inq hwork.twin).trans hinq⟩

theorem bridleRx_cancel (h : Delivered s c rest 5 n) (hst : 3 ≤ s.getF TW_STAT_STATE) (hsid : be (c.drop 2) 16 8 = s.sidTx n)
    (hcancel : at' (c.drop 2) 1 = brSwitchCancel) : Completes (exec .twinBridleRx s) fun t =>
      t.brTx = s.brTx ++ [BrOut.mk n 1 true (c.drop 2) 0] ∧ (t.chan n).swOut = none ∧ t.isSet (KB_ROLES_SW_ARMED n 0) = false ∧
        (t.cores = s.cores ∧ t.pos = s.pos ∧ t.twin.inq = rest) := by
  have hrun := bridleRx_exec h hst
  rw [followBridle_cancel (s := popTwin rest s) hsid hcancel] at hrun
  have heqv := seqFollowed_eqv n (c.drop 2) (popTwin rest s)
  generalize seqFollowed n (c.drop 2) (popTwin rest s) = u at hrun heqv
  have hfields : u.brTx = s.brTx ∧ u.cores = s.cores ∧ u.pos = s.pos ∧ u.twin.inq = rest := by
    rw [heqv]
    exact ⟨rfl, rfl, rfl, rfl⟩
  obtain ⟨hbrTx, hcores, hpos, hinq⟩ := hfields
  have hwork := disarmSwitch_work (n := n) (d := 0) (s := u) (by decide)
  have hchan := disarmSwitch_chan (n := n) (d := 0) (s := u)
  have hroles := disarmSwitch_rd_roles (n := n) (d := 0) (e := 0) (s := u) n.isLt (by decide) (by decide)
  have hbrTx' := (disarmSwitch_fields (n := n) 0 u).2.2
  generalize disarmSwitch n 0 u = v at hrun hwork hchan hroles hbrTx'
  refine ⟨_, hrun, ?_, ?_, ?_, ?_⟩
  · rw [relayed_brTx, hbrTx', hbrTx, decide_eq_true hcancel, Bool.or_true]
  · rw [relayed_chan, hchan]
    rfl
  · refine (State.isSet_congr (f := KB_ROLES_SW_ARMED n 0) ((relayed_roles n _ v).trans hroles)).trans ?_
    exact State.isSet_setF_bit_zero u (KB_ROLES_SW_ARMED n 0) rfl (by decide : (27 : Nat) < 32)
  · exact ⟨hwork.cores.trans hcores, hwork.pos.trans hpos, (congrArg Twin.inq hwork.twin).trans hinq⟩

end

end Sys2Proof.Machine

/-!
SUPPORT. CONTEXT records and the requests for them (spec/11 R289, R292).
-/

namespace Sys2Proof.Machine

section
variable {P : Nat → Prop} {s t u : State} {n z : Nat} {c : List Byte} {rest : List (List Byte)}

/-! ### Words written in a row -/

/-- The first `k` words from `base` on are written. -/
def wordsWritten (base : Nat) (v : Nat → Word) (k : Nat) (s : State) : State := (List.range k).foldl (fun s i => s.wr (base + 4 * i) (v i)) s

theorem wordsWritten_succ (base : Nat) (v : Nat → Word) (k : Nat) (s : State) :
    wordsWritten base v (k + 1) s = (wordsWritten base v k s).wr (base + 4 * k) (v k) := by
  unfold wordsWritten
  rw [List.range_succ, List.foldl_append]
  rfl

theorem wordsWritten_rd {base : Nat} {v : Nat → Word} {j k : Nat} (h : j < k) (s : State) : (wordsWritten base v k s).rd (base + 4 * j) = v j := by
  induction k with
  | zero => exact absurd h (Nat.not_lt_zero j)
  | succ k ih =>
    rw [wordsWritten_succ]
    rcases Nat.lt_succ_iff_lt_or_eq.mp h with h | rfl
    · rw [State.rd_wr_ne _ _ _ _ (by omega), ih h]
    · exact State.rd_wr_same _ _ _

theorem wordsWritten_work (base : Nat) (v : Nat → Word) (k : Nat) (s : State) :
    RegWork (fun o => base ≤ o ∧ o < base + 4 * k) s (wordsWritten base v k s) := by
  induction k with
  | zero => exact .refl s
  | succ k ih =>
    rw [wordsWritten_succ]
    have hmono : RegWork (fun o => base ≤ o ∧ o < base + 4 * (k + 1)) s (wordsWritten base v k s) :=
      ⟨ih.writes.mono (fun o ho => by omega), ih.eqv⟩
    exact hmono.wr (by omega)

/-! ### The words of a CONTEXT (R292) -/

/-- The registers of a channel's Stall that its CONTEXT sets, and those that follow its current keys. -/
abbrev stallOff (n o : Nat) : Prop := (CH_CFG n + 0x40 ≤ o ∧ o < CH_CFG n + 0x100) ∨ o = CH_STAT n

/-- What the current keys show of themselves. -/
abbrev keyShowOff (n o : Nat) : Prop := (CH_CFG n + 0x40 ≤ o ∧ o < CH_CFG n + 0x80) ∨ o = CH_STAT n

/-- Both key blocks show their current keys, none of them kept. -/
def keysShown (n : Nat) (s : State) : State := [0, 1].foldl (fun s d => keyShow n d (s.setF (KB_ROLES_PERSIST n d) 0)) s

theorem keysShown_work (n : Nat) (s : State) : RegWork (keyShowOff n) s (keysShown n s) := by
  refine RegWork.foldl _ (fun u d hd => ?_) s
  have hd2 := roles_lt hd
  have hoff : keyShowOff n (KB_ROLES n d) ∧ keyShowOff n (KB_KCV_LO n d) ∧ keyShowOff n (KB_KCV_HI n d) := by
    simp only [keyShowOff, KB_ROLES, KB_KCV_LO, KB_KCV_HI, CH_CFG]
    omega
  have hstat : keyShowOff n (if d = 0 then CH_STAT_OUT_KEY n else CH_STAT_IN_KEY n).off := by
    split <;> exact .inr rfl
  exact ((((RegWork.refl u).setF hoff.1).setF hstat).wr hoff.2.1).wr hoff.2.2

/-- What a CONTEXT's words write. -/
abbrev ctxOff (n o : Nat) : Prop := stallOff n o ∨ o = TWC_F_COUNT_LO n ∨ o = TWC_F_COUNT_LO n + 4

theorem ctxWords_eq (n : Nat) (c : List Byte) (s : State) : ctxWords n c s =
    (keysShown n (wordsWritten (CH_CFG n + 0x40) (fun i => BitVec.ofNat 32 (ctxWord c (0x40 + 4 * i))) 48 s)).wr64 (TWC_F_COUNT_LO n)
      ((keysShown n (wordsWritten (CH_CFG n + 0x40) (fun i => BitVec.ofNat 32 (ctxWord c (0x40 + 4 * i))) 48 s)).rd64 (CH_OUT_ASN_LO n)) := rfl

theorem ctxWords_spec (n : Nat) (c : List Byte) (s : State) : RegWork (ctxOff n) s (ctxWords n c s) ∧
    (ctxWords n c s).rd (CH_OUT_ASN_LO n) = BitVec.ofNat 32 (le c (16 + 0x40) 4) ∧
    (ctxWords n c s).rd64 (TWC_F_COUNT_LO n) = (ctxWords n c s).rd64 (CH_OUT_ASN_LO n) := by
  have hwords := wordsWritten_work (CH_CFG n + 0x40) (fun i => BitVec.ofNat 32 (ctxWord c (0x40 + 4 * i))) 48 s
  have hasn : (wordsWritten (CH_CFG n + 0x40) (fun i => BitVec.ofNat 32 (ctxWord c (0x40 + 4 * i))) 48 s).rd (CH_OUT_ASN_LO n) =
      BitVec.ofNat 32 (le c (16 + 0x40) 4) := by
    have h := wordsWritten_rd (base := CH_CFG n + 0x40) (v := fun i => BitVec.ofNat 32 (ctxWord c (0x40 + 4 * i))) (j := 16) (k := 48) (by decide) s
    have hoff : CH_CFG n + 0x40 + 4 * 16 = CH_OUT_ASN_LO n := by
      simp only [CH_CFG, CH_OUT_ASN_LO]
      omega
    rwa [hoff] at h
  rw [ctxWords_eq]
  generalize wordsWritten (CH_CFG n + 0x40) (fun i => BitVec.ofNat 32 (ctxWord c (0x40 + 4 * i))) 48 s = v at hwords hasn ⊢
  have hshow := keysShown_work n v
  generalize keysShown n v = u at hshow ⊢
  have hne : ∀ o, o = CH_OUT_ASN_LO n ∨ o = CH_OUT_ASN_LO n + 4 → o ≠ TWC_F_COUNT_LO n ∧ o ≠ TWC_F_COUNT_LO n + 4 := by
    intro o ho
    simp only [CH_OUT_ASN_LO, TWC_F_COUNT_LO] at ho ⊢
    omega
  have hkeep : ∀ o, o = CH_OUT_ASN_LO n ∨ o = CH_OUT_ASN_LO n + 4 →
      (u.wr64 (TWC_F_COUNT_LO n) (u.rd64 (CH_OUT_ASN_LO n))).rd o = u.rd o := fun o ho =>
    State.rd_wr64_ne _ _ _ _ (hne o ho).1.symm (hne o ho).2.symm
  refine ⟨?_, ?_, ?_⟩
  · have hfirst : RegWork (ctxOff n) s v := ⟨hwords.writes.mono (fun o ho => .inl (.inl ⟨ho.1, by omega⟩)), hwords.eqv⟩
    have hnext : RegWork (ctxOff n) v u := ⟨hshow.writes.mono (fun o ho => .inl (ho.imp_left (fun h => ⟨h.1, by omega⟩))), hshow.eqv⟩
    exact (hfirst.trans hnext).wr64 (.inr (.inl rfl)) (.inr (.inr rfl))
  · rw [hkeep _ (.inl rfl), hshow.writes _ (by simp only [keyShowOff, CH_CFG, CH_STAT, CH_OUT_ASN_LO]; omega), hasn]
  · rw [State.rd64_wr64_same]
    exact (State.rd64_congr (hkeep _ (.inl rfl)) (hkeep _ (.inr rfl))).symm

/-! ### A CONTEXT taken (R292) -/

/-- A channel's record once its CONTEXT is taken; `s`: the state whose registers hold the CONTEXT's words. -/
def ctxChan (n : Nat) (c : List Byte) (s : State) (x : Chan) : Chan :=
  { x with
    swOut := ctxSwitch s n 0, swIn := ctxSwitch s n 1, beginOut := BitVec.ofNat 48 (be c 2000 6)
    lastOut := ctxOpt c 0 6 4, lastIn := ctxOpt c 1 10 4
    graceOut := (ctxOpt c 2 16 6).map (BitVec.ofNat 48), graceIn := (ctxOpt c 3 22 6).map (BitVec.ofNat 48)
    rtagCount := be c 14 2
    cell := if s.chMode n = 1 then { x.cell with outEpoch := ctxOpt c 5 40 4 } else x.cell
    l1 := if s.chMode n = 2 then
        { x.l1 with epochOut := ctxOpt c 5 40 4, firstOut := be c 2044 6, outStamp := BitVec.ofNat 64 (be c 2050 8), period := be c 2058 6,
                    efnAt := none, mfOut := none }
      else x.l1
    tw := { x.tw with gotContext := true, eligible := some (BitVec.ofNat 48 (be c 8 6)) } }

/-- A CONTEXT's words and record taken, and the slots that its roles do not name released. -/
def ctxSettled (n : Nat) (c : List Byte) (s : State) : State := reapSlots n (commitT120 (s.modChan n (ctxChan n c s)))

/-- The frame of a channel that its lead had partly placed in cells is as far as there. -/
def ctxPlaced (n : Nat) (c : List Byte) (s : State) : State :=
  match ctxOpt c 4 28 8 with
  | some asn => { s with units := s.units.map (fun u => if u.ch = n ∧ u.asn.toNat = asn then { u with placed := be c 2036 4 } else u) }
  | none => s

theorem ctxTake_eq (n : Nat) (c : List Byte) (s : State) : ctxTake n c s = ctxPlaced n c (ctxSettled n c (ctxWords n c s)) := rfl

theorem ctxPlaced_keeps (n : Nat) (c : List Byte) (s : State) : (ctxPlaced n c s).csr = s.csr ∧ (ctxPlaced n c s).chans = s.chans ∧
    (ctxPlaced n c s).cores = s.cores ∧ (ctxPlaced n c s).pos = s.pos ∧ (ctxPlaced n c s).twin = s.twin := by
  unfold ctxPlaced
  split <;> exact ⟨rfl, rfl, rfl, rfl, rfl⟩

theorem reapSlots_chan (n : Nat) (s : State) (j : Nat) : (reapSlots n s).chan j = s.chan j := by
  have hfold : ∀ (l : List Nat) (u : State), (l.foldl (fun s i =>
      if !slotNamed s n i && decide ((s.slot (slotOf n i)).kind ≠ 0) && !(s.units.any (fun u => u.slot = slotOf n i)) then freeSlot (slotOf n i) s
      else s) u).chan j = u.chan j := by
    intro l
    induction l with
    | nil => exact fun _ => rfl
    | cons i l ih =>
      intro u
      rw [List.foldl_cons, ih]
      split
      · exact State.chan_setF ..
      · rfl
  exact hfold _ s

theorem ctxSettled_spec (n : Nat) (c : List Byte) (s : State) : KeyWork (fun o => tallyOff o ∨ o = TR_STAT) s (ctxSettled n c s) ∧
    (ctxSettled n c s).chan n = ctxChan n c s (s.chan n) := by
  unfold ctxSettled
  constructor
  · exact (((KeyWork.refl s).modChan n _).trans ((commitT120_regWork _).keyWork (fun _ => .inl))).trans
      ((reapSlots_work n _).mono (fun _ => .inr))
  · rw [reapSlots_chan, (commitT120_regWork _).chan, State.chan_modChan_same]

theorem contextRx_taken (h : Delivered s c rest 6 n) (hn : n < 512) (hre : (s.chan n).tw.rejoining = true) :
    Completes (exec .twinContextRx s) fun t =>
      (t.chan n).tw = { (s.chan n).tw with gotContext := true, eligible := some (BitVec.ofNat 48 (be c 8 6)) } ∧
      t.rd (CH_OUT_ASN_LO n) = BitVec.ofNat 32 (le c (16 + 0x40) 4) ∧ t.rd64 (TWC_F_COUNT_LO n) = t.rd64 (CH_OUT_ASN_LO n) ∧
      (t.chan n).beginOut = BitVec.ofNat 48 (be c 2000 6) ∧ (t.chan n).rtagCount = be c 14 2 ∧
      (t.cores = s.cores ∧ t.pos = s.pos ∧ t.twin.inq = rest) := by
  have hrun : exec .twinContextRx s = .next (ctxTake n c (popTwin rest s)) := by
    rw [exec_twinContextRx, execTwinContextRx, twinTake_of h]
    exact congrArg _ (if_pos hre)
  obtain ⟨hreg, hasn, hcount⟩ := ctxWords_spec n c (popTwin rest s)
  rw [ctxTake_eq] at hrun
  generalize ctxWords n c (popTwin rest s) = u at hrun hreg hasn hcount
  obtain ⟨hwork, hchan⟩ := ctxSettled_spec n c u
  generalize ctxSettled n c u = v at hrun hwork hchan
  obtain ⟨hcsr, hchans, hcores, hpos, htwin⟩ := ctxPlaced_keeps n c v
  generalize ctxPlaced n c v = t at hrun hcsr hchans hcores hpos htwin
  have hrd : ∀ o, o = CH_OUT_ASN_LO n ∨ o = CH_OUT_ASN_LO n + 4 ∨ o = TWC_F_COUNT_LO n ∨ o = TWC_F_COUNT_LO n + 4 → t.rd o = u.rd o := fun o ho =>
    (State.rd_of_csr hcsr o).trans (hwork.writes o (by
      simp only [tallyOff, TR_STAT, CH_OUT_ASN_LO, TWC_F_COUNT_LO] at ho ⊢
      omega))
  have hchan' : t.chan n = ctxChan n c u (s.chan n) := by
    rw [State.chan_congr hchans, hchan, hreg.chan]
    rfl
  have hsame : u.cores = s.cores ∧ u.pos = s.pos ∧ u.twin.inq = rest := by
    rw [hreg.eqv]
    exact ⟨rfl, rfl, rfl⟩
  refine ⟨t, hrun, by rw [hchan']; rfl, (hrd _ (.inl rfl)).trans hasn, ?_, by rw [hchan']; rfl, by rw [hchan']; rfl,
    hcores.trans (hwork.cores.trans hsame.1), hpos.trans (hwork.pos.trans hsame.2.1), ?_⟩
  · rw [State.rd64_congr (hrd _ (.inr (.inr (.inl rfl)))) (hrd _ (.inr (.inr (.inr rfl)))), hcount]
    exact (State.rd64_congr (hrd _ (.inl rfl)) (hrd _ (.inr (.inl rfl)))).symm
  · rw [htwin, hwork.twin]
    exact hsame.2.2

theorem contextRx_ignored (h : Delivered s c rest 6 n) (hre : (s.chan n).tw.rejoining = false) :
    Completes (exec .twinContextRx s) fun t => t = { s with twin := { s.twin with inq := rest } } := by
  refine ⟨popTwin rest s, ?_, rfl⟩
  rw [exec_twinContextRx, execTwinContextRx, twinTake_of h]
  exact congrArg _ (if_neg (by rw [popTwin_chan, hre]; decide))

/-! ### A CONTEXT asked for (R289) -/

theorem sendSlots_none (hcur : s.isSet (KB_ROLES_CUR_V n 0) = false) (hprev : s.isSet (KB_ROLES_PREV_V n 0) = false)
    (hnext : s.isSet (KB_ROLES_NEXT_V n 0) = false) : sendSlots n s = s := by
  unfold sendSlots
  extract_lets put s1 s2
  have h1 : s1 = s := if_neg (by rw [hcur]; decide)
  have h2 : s2 = s := (if_neg (by rw [h1, hprev]; decide)).trans h1
  exact (if_neg (by rw [h2, hnext]; decide)).trans h2

theorem giveContext_frames (hmode : s.chMode n = 0) :
    giveContext n s = twinSend (contextRecord s n (beatAdd s.beat 4)) (s.modTw n (fun t => { t with eligible := none })) := by
  unfold giveContext
  refine if_neg ?_
  rw [hmode]
  simp

theorem contextRequest_exec (h : Delivered s c rest 9 n) : exec .twinContextRequestRx s =
    .next (if (s.chTwin n && s.chOpen n) = true then giveContext n (sendSlots n (popTwin rest s)) else popTwin rest s) := by
  rw [exec_twinContextRequestRx, execTwinContextRequestRx, twinTake_of h]
  rfl

theorem contextRequest_answered (h : Delivered s c rest 9 n) (htwin : s.chTwin n = true) (hopen : s.chOpen n = true) (hmode : s.chMode n = 0)
    (hcur : s.isSet (KB_ROLES_CUR_V n 0) = false) (hprev : s.isSet (KB_ROLES_PREV_V n 0) = false) (hnext : s.isSet (KB_ROLES_NEXT_V n 0) = false)
    (hturn : twinTurn s = some z) (hback : s.twin.backlog = []) : Completes (exec .twinContextRequestRx s) fun t =>
      TwinSent s t z (contextRecord s n (beatAdd s.beat 4)) ∧ t = { s with chans := t.chans, twin := t.twin, fab := t.fab, outs := t.outs } := by
  have hrun := contextRequest_exec h
  rw [if_pos (by rw [htwin, hopen]; rfl), sendSlots_none (s := popTwin rest s) hcur hprev hnext, giveContext_frames (s := popTwin rest s) hmode] at hrun
  obtain ⟨hsent, heqv⟩ := twinSend_sent (rec := contextRecord (popTwin rest s) n (beatAdd s.beat 4))
    (s := (popTwin rest s).modTw n (fun t => { t with eligible := none })) hturn hback
  have hchans := twinSend_chans (contextRecord (popTwin rest s) n (beatAdd s.beat 4)) ((popTwin rest s).modTw n (fun t => { t with eligible := none }))
  change exec .twinContextRequestRx s = .next (twinSend (contextRecord (popTwin rest s) n (beatAdd s.beat 4)) _) at hrun
  refine ⟨_, hrun, hsent, ?_⟩
  generalize twinSend _ _ = t at heqv hchans ⊢
  rw [hchans]
  rw [heqv]
  rfl

theorem contextRequest_ignored (h : Delivered s c rest 9 n) (htwin : s.chTwin n = false) :
    Completes (exec .twinContextRequestRx s) fun t => t = { s with twin := { s.twin with inq := rest } } := by
  have hrun := contextRequest_exec h
  rw [if_neg (by rw [htwin, Bool.false_and]; decide)] at hrun
  exact ⟨_, hrun, rfl⟩

end

end Sys2Proof.Machine

/-!
SETTLED OBLIGATION. O51: what each record of the twin link does where it arrives, from the results of each.
-/

namespace Sys2Proof.Machine

/-- Settles O51: each record is the oldest delivered, `twinTake_of`, and its receiver's conditions choose what becomes of it; what is sent is held by the
member port, `twinSend_sent`, and a divergence parts the two ends by `parted_rejoins`. -/
theorem twinRecordResults : Obligations.TwinRecordResults := by
  intro s n c rest z u e b d o m ms i st ns tw popped from' link still wit stamp asn fits takes efn named bt recent back diverged left closed db l k f slot
    body seq saw wb trusts lateW next
  have hfrom : ∀ {y : Nat}, from' y = true → Delivered s c rest y n := fun h => by
    simp only [from', Bool.and_eq_true, decide_eq_true_eq] at h
    obtain ⟨⟨hhead, htyp⟩, hchan⟩ := h
    exact ⟨hhead, htyp, hchan⟩
  have htakes : takes = true → Follows s n := fun h => by
    simp only [takes, Bool.and_eq_true, decide_eq_true_eq, Bool.not_eq_true'] at h
    obtain ⟨⟨hst, hjoin⟩, hwit⟩ := h
    exact ⟨hst, hjoin, hwit⟩
  have hlink : link = true → twinTurn s = some z ∧ s.twin.backlog = [] := fun h => by
    simpa only [link, Bool.and_eq_true, decide_eq_true_eq] using h
  have hclosed : closed = true → DigestClosed s n b d := fun h => by
    simp only [closed, Bool.and_eq_true, decide_eq_true_eq, Bool.not_eq_true'] at h
    obtain ⟨⟨⟨⟨htwin, hleft⟩, hwit⟩, hown⟩, hdone⟩ := h
    exact ⟨htwin, hleft, hwit, hown, hdone⟩
  have hsaw : saw = true → WitnessSent s m ms n := fun h => by
    simp only [saw, Bool.and_eq_true, decide_eq_true_eq] at h
    obtain ⟨⟨⟨hhead, htyp⟩, hkind⟩, hchan⟩ := h
    exact ⟨hhead, htyp, hkind, hchan⟩
  exact ⟨fun h hst hpath => assign_lead_path1 (hfrom h) hst hpath, fun h hst hpath => assign_lead_path2 (hfrom h) hst hpath, fun h h2 h3 h6 hwit => assign_unwanted (hfrom h) h2 h3 h6 hwit,
    fun h ht hmode => assign_layer1 (hfrom h) (htakes ht) hmode rfl rfl rfl,
    fun h ht hmode hnone hfits => assign_waits (hfrom h) (htakes ht) hmode hnone hfits,
    fun h ht hmode hnone hpend hfits => assign_meets n.isLt (hfrom h) (htakes ht) hmode hnone hpend hfits,
    fun h hst => beat_follow (hfrom h) hst rfl, fun h hst hns hfree hbefore => beat_return (hfrom h) hst hns hfree rfl hbefore,
    fun h hst => beat_ignored (hfrom h) hst, fun h hst hl => digestDone_sent (hclosed h) hst (hlink hl).1 (hlink hl).2,
    fun h => digestDone_idle (.inl h), fun h hwit => digestDone_idle (.inr ⟨h, hwit⟩),
    fun h hst hjoin hown => digestRx_waits (hfrom h) hst hjoin hown, fun h hst hjoin hown => digestRx_meets (hfrom h) hst hjoin hown,
    fun h hst hjoin hown hne hwit hfew => digestRx_diverges n.isLt (hfrom h) hst hjoin hown rfl hne hwit hfew,
    fun h ht hlate hown => witness_kept (hsaw h) ht hlate hown, fun h ht h6 => witness_untrusted (hsaw h) ht h6,
    fun h hst => verdict_shown (hfrom h) hst, fun h hst hout hfew => verdict_outvoted n.isLt (hfrom h) hst hout hfew,
    fun h hst hout hmany => verdict_demoted (hfrom h) hst hout hmany, fun h hwit hl => slotRx_results n.isLt (hfrom h) hwit (hlink hl).1 (hlink hl).2, fun h hnone => slotAck_taken (hfrom h) hnone,
    fun h hst => bridleRx_ignored (hfrom h) hst, fun h hst hsid hat hcancel => bridleRx_plain (hfrom h) hst hsid hat hcancel,
    fun h hst hsid hat hmode => bridleRx_switchAt (hfrom h) hst hsid hat hmode, fun h hst hsid hcancel => bridleRx_cancel (hfrom h) hst hsid hcancel,
    fun h hre => contextRx_taken (hfrom h) n.isLt hre, fun h hre => contextRx_ignored (hfrom h) hre,
    fun h htwin hopen hmode hcur hprev hnext hl => contextRequest_answered (hfrom h) htwin hopen hmode hcur hprev hnext (hlink hl).1 (hlink hl).2,
    fun h htwin => contextRequest_ignored (hfrom h) htwin⟩

end Sys2Proof.Machine

/-!
SUPPORT. Registers written in a row, and the resets (spec/24 R544, R547, R551, spec/22 R516).
-/

namespace Sys2Proof.Machine

section
variable {P Q : Nat → Prop} {s t u : State}

/-! ### Registers alone -/

/-- Registers that `P` admits are all that differs. -/
structure CsrWork (P : Nat → Prop) (s t : State) : Prop where
  writes : Writes P s t
  eqv : t = { s with csr := t.csr }

theorem CsrWork.refl (s : State) : CsrWork P s s := ⟨.refl s, rfl⟩

theorem CsrWork.trans (h : CsrWork P s t) (g : CsrWork P t u) : CsrWork P s u := ⟨h.writes.trans g.writes, by rw [g.eqv, h.eqv]⟩

theorem CsrWork.mono (h : CsrWork P s t) (hPQ : ∀ o, P o → Q o) : CsrWork Q s t := ⟨h.writes.mono hPQ, h.eqv⟩

theorem CsrWork.ite {c : Prop} [Decidable c] (h : CsrWork P s t) (g : CsrWork P s u) : CsrWork P s (if c then t else u) := by
  split <;> assumption

theorem CsrWork.setF {f : Fld} {v : Nat} (h : CsrWork P s t) (ho : P f.off) : CsrWork P s (t.setF f v) := h.trans ⟨(Writes.refl t).setF ho, rfl⟩

theorem CsrWork.wr64 {o : Nat} {v : DWord} (h : CsrWork P s t) (ho : P o) (h4 : P (o + 4)) : CsrWork P s (t.wr64 o v) :=
  h.trans ⟨(Writes.refl t).wr64 ho h4, rfl⟩

theorem CsrWork.foldl {α : Type} {f : State → α → State} (l : List α) (hf : ∀ u, ∀ a ∈ l, CsrWork P u (f u a)) (s : State) :
    CsrWork P s (l.foldl f s) := by
  induction l generalizing s with
  | nil => exact .refl s
  | cons a l ih =>
    exact (hf s a (List.mem_cons_self ..)).trans (ih (fun u b hb => hf u b (List.mem_cons_of_mem _ hb)) _)

/-! ### One thing done for each number below `k` -/

/-- What each step alone changes: none after it, and none before it. -/
theorem rangeFold_later {α : Type} {f : State → Nat → State} {q : Nat → State → α} (hother : ∀ u i j, i ≠ j → q i (f u j) = q i u) {i k : Nat}
    (h : k ≤ i) (s : State) : q i ((List.range k).foldl f s) = q i s := by
  induction k with
  | zero => rfl
  | succ k ih =>
    rw [List.range_succ, List.foldl_append]
    exact (hother _ _ _ (by omega)).trans (ih (by omega))

/-- The i-th thing done is what is seen of it at the end. -/
theorem rangeFold_view {α : Type} {f : State → Nat → State} {q : Nat → State → α} (hother : ∀ u i j, i ≠ j → q i (f u j) = q i u) {i k : Nat}
    (h : i < k) (s : State) : ∃ u, q i u = q i s ∧ q i ((List.range k).foldl f s) = q i (f u i) := by
  induction k with
  | zero => exact absurd h (Nat.not_lt_zero i)
  | succ k ih =>
    rw [List.range_succ, List.foldl_append]
    rcases Nat.lt_succ_iff_lt_or_eq.mp h with h | rfl
    · obtain ⟨u, hu, hv⟩ := ih h
      exact ⟨u, hu, (hother _ _ _ (by omega)).trans hv⟩
    · exact ⟨_, rangeFold_later hother (Nat.le_refl i) s, rfl⟩

/-! ### Wear shown, and FAULT_N (R516, R551) -/

/-- The registers that show the wear of the Loft. -/
abbrev wearOff (o : Nat) : Prop := o ∈ [LOFT_WEAR_LO, LOFT_WEAR_HI, LOFT_WEAR_MAX_LO, LOFT_WEAR_MAX_LO + 4, LOFT_WEAR_MAX_IDX]

theorem wearRefresh_csrWork (w : Nat) (s : State) : CsrWork wearOff s (wearRefresh w s) := by
  have hmax : CsrWork wearOff s (if (s.rd64 LOFT_WEAR_MAX_LO).toNat < tblGet 0 w s.wear then
      (s.wr64 LOFT_WEAR_MAX_LO (BitVec.ofNat 64 (tblGet 0 w s.wear))).setF LOFT_WEAR_MAX_IDX_MAX_IDX w else s) :=
    .ite ((CsrWork.refl s).wr64 (by decide) (by decide) |>.setF (by decide)) (.refl s)
  exact hmax.wr64 (by decide) (by decide)

theorem wearShow_csrWork (s : State) : CsrWork wearOff s (wearShow s) := .foldl _ (fun u e _ => wearRefresh_csrWork e.1 u) s

theorem faultPin_cases (s : State) : faultPin s = s ∨ ∃ v o, faultPin s = (s.setF LEDGER_STAT_FAULT_N_LOW v).emit o := by
  unfold faultPin
  extract_lets low
  split
  · exact .inl rfl
  · exact .inr ⟨_, _, rfl⟩

theorem emit_setF_eqv (s : State) (f : Fld) (v : Nat) (o : Output) :
    (s.setF f v).emit o = { s with csr := ((s.setF f v).emit o).csr, outs := ((s.setF f v).emit o).outs } := rfl

theorem faultPin_spec (s : State) : Writes (· = LEDGER_STAT) s (faultPin s) ∧ faultPin s = { s with csr := (faultPin s).csr, outs := (faultPin s).outs } := by
  rcases faultPin_cases s with h | ⟨v, o, h⟩
  · rw [h]
    exact ⟨.refl s, rfl⟩
  · rw [h]
    exact ⟨Writes.csr (t := s.setF LEDGER_STAT_FAULT_N_LOW v) ((Writes.refl s).setF (f := LEDGER_STAT_FAULT_N_LOW) rfl) rfl, emit_setF_eqv ..⟩

/-- Registers that a finished reset shows, and the pins, are all that differs. -/
structure ResetShown (s t : State) : Prop where
  writes : Writes (fun o => o = LEDGER_STAT ∨ wearOff o) s t
  eqv : t = { s with csr := t.csr, outs := t.outs }

theorem resetDone_shown (s : State) : ResetShown s (resetDone s) := by
  have hwear := wearShow_csrWork s
  unfold resetDone
  generalize wearShow s = w at hwear ⊢
  obtain ⟨hwrites, heqv⟩ := faultPin_spec w
  generalize faultPin w = t at hwrites heqv ⊢
  exact ⟨(hwear.writes.mono (fun _ => .inr)).trans (hwrites.mono (fun _ => .inl)), by rw [heqv, hwear.eqv]⟩

/-! ### What a reset leaves (R544) -/

theorem tblGet_filter {α : Type} (d : α) (p : Nat → Bool) (l : Table α) (k : Nat) :
    tblGet d k (l.filter (fun e => p e.1)) = if p k then tblGet d k l else d := by
  induction l with
  | nil => exact (ite_self d).symm
  | cons e l ih =>
    obtain ⟨a, v⟩ := e
    have hcons : ∀ m : Table α, tblGet d k ((a, v) :: m) = if a = k then v else tblGet d k m := fun _ => rfl
    rw [List.filter_cons, hcons]
    by_cases hk : a = k
    · subst hk
      rw [if_pos rfl]
      split
      · exact (hcons _).trans (if_pos rfl)
      next hp => exact ih.trans (if_neg hp)
    · rw [if_neg hk]
      split
      · exact (hcons _).trans ((if_neg hk).trans ih)
      · exact ih

/-- An offset of the Loft in the window (R547). -/
abbrev inLoft (a : Nat) : Bool := loftBase ≤ a && a < loftBase + 0x40000

theorem afterReset_byte (cause : Nat) (s : State) (a : Nat) : (afterReset cause s).byte a = if inLoft a then s.byte a else 0 := by
  have hmem : (afterReset cause s).mem = s.mem.filter (fun e => inLoft e.1) := rfl
  unfold State.byte
  rw [hmem]
  exact tblGet_filter (0 : Byte) inLoft s.mem a

theorem afterReset_cause (cause : Nat) (s : State) : (afterReset cause s).rd PWR_RESET_CAUSE = BitVec.ofNat 32 cause := by
  simp [State.rd, afterReset, tblGet]

theorem afterReset_rd (cause : Nat) (s : State) {o : Nat} (ho : o ≠ PWR_RESET_CAUSE) : (afterReset cause s).rd o = State.reset.rd o := by
  have hne : ¬ 0x2C000020 = o := Ne.symm ho
  simp [State.rd, afterReset, State.reset, tblGet, PWR_RESET_CAUSE, hne]

/-- The device as a reset of it and its AON logic leaves it (R544): the Loft, its wear and the host's memory are kept. -/
abbrev AsReset (s t : State) (cause : Nat) : Prop :=
  t.rd PWR_RESET_CAUSE = BitVec.ofNat 32 cause ∧
    RegsBut ([PWR_RESET_CAUSE, LEDGER_STAT] ++ [LOFT_WEAR_LO, LOFT_WEAR_HI, LOFT_WEAR_MAX_LO, LOFT_WEAR_MAX_LO + 4, LOFT_WEAR_MAX_IDX]) State.reset t ∧
    BytesIn inLoft s t ∧ BytesIn (fun a => !inLoft a) State.reset t ∧ t.wear = s.wear ∧ t.hostMem = s.hostMem ∧ t.pos = State.reset.pos ∧
    t.cores = State.reset.cores ∧ t.chans = State.reset.chans ∧ t.units = [] ∧ t.bell = State.reset.bell ∧ t.ledger = State.reset.ledger ∧
    t.twin = State.reset.twin ∧ t.fab = State.reset.fab ∧ t.config = State.reset.config ∧ t.loftQ = [] ∧ t.power.boot = 0 ∧ t.power.pcie = false ∧
    t.ym = State.reset.ym ∧ t.tack.slots = State.reset.tack.slots ∧ t.tack.keks = State.reset.tack.keks

theorem reset_byte (a : Nat) : State.reset.byte a = 0 := rfl

theorem resetDone_asReset (cause : Nat) (s : State) : AsReset s (resetDone (afterReset cause s)) cause := by
  obtain ⟨hwrites, heqv⟩ := resetDone_shown (afterReset cause s)
  have hbyte := afterReset_byte cause s
  have hcause := afterReset_cause cause s
  have hrd : ∀ {o}, o ≠ PWR_RESET_CAUSE → (afterReset cause s).rd o = State.reset.rd o := afterReset_rd cause s
  generalize resetDone (afterReset cause s) = t at hwrites heqv
  have hmem : ∀ a, t.byte a = if inLoft a then s.byte a else 0 := fun a => by
    rw [← hbyte a]
    unfold State.byte
    rw [heqv]
  refine ⟨(hwrites _ (by decide)).trans hcause, fun o ho => ?_, fun a ha => ?_, fun a ha => ?_, ?_⟩
  · simp only [List.cons_append, List.nil_append, List.mem_cons, List.not_mem_nil, not_or, or_false] at ho
    obtain ⟨hc, hl, hw⟩ := ho
    refine (hwrites o ?_).trans (hrd hc)
    simp only [List.mem_cons, List.not_mem_nil, or_false, not_or]
    exact ⟨hl, hw⟩
  · rw [hmem, if_pos ha]
  · rw [Bool.not_eq_true'] at ha
    rw [hmem, if_neg (by rw [ha]; decide), reset_byte]
  · rw [heqv]
    exact ⟨rfl, rfl, rfl, rfl, rfl, rfl, rfl, rfl, rfl, rfl, rfl, rfl, rfl, rfl, rfl, rfl, rfl⟩

theorem porst_reset (s : State) : Completes (exec .porst s) fun t => AsReset s t 1 := ⟨_, rfl, resetDone_asReset 1 s⟩

theorem brownout_reset (s : State) : Completes (exec .brownout s) fun t => AsReset s t 4 := ⟨_, rfl, resetDone_asReset 4 s⟩

end

end Sys2Proof.Machine

/-!
SUPPORT. The warm reset, and what PCIe, SMBus and JTAG do (spec/24 R544, R545, R553, R563, R534).
-/

namespace Sys2Proof.Machine

section
variable {s t u : State}

/-! ### The wake latches (R483) -/

theorem srcResetSense_le (i : Nat) : srcResetSense i ≤ 5 := by
  unfold srcResetSense
  repeat' split
  all_goals omega

theorem csrReset_src {i : Nat} (hi : i < 1023) : ∃ v < 2 ^ 29, csrReset (SRC_CFG i) = BitVec.ofNat 32 v := by
  have hsense := srcResetSense_le i
  have h1 : ¬ (0x20000000 ≤ SRC_CFG i ∧ SRC_CFG i < 0x30000000 ∧ SRC_CFG i % 0x1000000 = 0) := by
    simp only [SRC_CFG]
    omega
  have h2 : ¬ (0x2F010000 ≤ SRC_CFG i ∧ SRC_CFG i < 0x2F010000 + 0x1100 * 4) := by
    simp only [SRC_CFG]
    omega
  have h3 : 0x2A001000 ≤ SRC_CFG i ∧ SRC_CFG i < 0x2A002000 := by
    simp only [SRC_CFG]
    omega
  have h4 : (SRC_CFG i - 0x2A001000) / 4 = i := by
    simp only [SRC_CFG]
    omega
  unfold csrReset
  rw [if_neg h1, if_neg h2, if_pos h3, h4]
  dsimp only
  split
  · exact ⟨0, by decide, rfl⟩
  · exact ⟨_, by omega, rfl⟩

theorem reset_unlatched {i : Nat} (hi : i < 1023) : State.reset.isSet (SRC_CFG_LATCHED i) = false := by
  obtain ⟨v, hv, hreset⟩ := csrReset_src hi
  have hrd : State.reset.rd (SRC_CFG i) = BitVec.ofNat 32 v := by
    have hne : ¬ 0x2C000020 = SRC_CFG i := by
      simp only [SRC_CFG]
      omega
    simp [State.rd, State.reset, tblGet, hne, hreset]
  unfold State.isSet State.getF fldGet
  rw [show (SRC_CFG_LATCHED i).off = SRC_CFG i from rfl, hrd, BitVec.toNat_ofNat]
  refine decide_eq_false ?_
  show v % 2 ^ 32 / 2 ^ 29 % 2 ^ (29 + 1 - 29) ≠ 1
  omega

/-- The wake latches that `s` holds are held. -/
def latchesKept (s t : State) : State :=
  (List.range 1023).foldl (fun (t : State) (n : Nat) =>
    if bellHasLatch n && s.isSet (SRC_CFG_LATCHED n) then t.setF (SRC_CFG_LATCHED n) 1 else t) t

/-- The configuration words of the Bell sources. -/
abbrev srcOff (o : Nat) : Prop := SRC_CFG 0 ≤ o ∧ o < SRC_CFG 1023

theorem latchesKept_csrWork (s t : State) : CsrWork srcOff t (latchesKept s t) :=
  .foldl _ (fun u n hn => .ite ((CsrWork.refl u).setF (by
    have := List.mem_range.mp hn
    simp only [srcOff, SRC_CFG_LATCHED, SRC_CFG]
    omega)) (.refl u)) t

theorem latchesKept_isSet (s t : State) {i : Nat} (hi : i < 1023) (ht : t.isSet (SRC_CFG_LATCHED i) = false) :
    (latchesKept s t).isSet (SRC_CFG_LATCHED i) = (bellHasLatch i && s.isSet (SRC_CFG_LATCHED i)) := by
  have hother : ∀ (u : State) (i j : Nat), i ≠ j → (if bellHasLatch j && s.isSet (SRC_CFG_LATCHED j) then u.setF (SRC_CFG_LATCHED j) 1 else u).isSet
      (SRC_CFG_LATCHED i) = u.isSet (SRC_CFG_LATCHED i) := by
    intro u i j hij
    split
    · exact State.isSet_congr (State.rd_setF_ne _ _ _ _ (by simp only [SRC_CFG_LATCHED, SRC_CFG]; omega))
    · rfl
  obtain ⟨u, hu, hend⟩ := rangeFold_view (q := fun i u => u.isSet (SRC_CFG_LATCHED i)) hother hi t
  refine hend.trans ?_
  cases hb : bellHasLatch i && s.isSet (SRC_CFG_LATCHED i) with
  | true => exact (congrArg (fun x : State => x.isSet (SRC_CFG_LATCHED i)) (if_pos rfl)).trans (State.isSet_setF_bit u (SRC_CFG_LATCHED i) rfl (by decide : (29 : Nat) < 32))
  | false => exact (congrArg (fun x : State => x.isSet (SRC_CFG_LATCHED i)) (if_neg Bool.false_ne_true)).trans (hu.trans ht)

/-! ### The warm reset (R544) -/

/-- What a warm reset leaves before it is shown: the Loft's queue and the token's epochs are kept. -/
def warmKept (s : State) : State :=
  { afterReset 2 s with loftQ := s.loftQ, ym := { (afterReset 2 s).ym with tried := s.ym.tried } }

theorem wrst_exec (s : State) : exec .wrst s =
    .next (resetDone (latchesKept s ((warmKept s).setF LOFT_STAT_QUEUE (min s.loftQ.length 64)))) := rfl

theorem wrst_reset (s : State) : Completes (exec .wrst s) fun t => t.rd PWR_RESET_CAUSE = 2 ∧ t.loftQ = s.loftQ ∧ t.ym.tried = s.ym.tried ∧
    t.ym.fwReady = false ∧ t.power.boot = 0 ∧ t.isSet YM_ARB_HELD = false ∧ t.cores = State.reset.cores ∧ t.chans = State.reset.chans ∧
    t.pos = State.reset.pos ∧ t.tack.slots = State.reset.tack.slots ∧ BytesIn inLoft s t ∧ BytesIn (fun a => !inLoft a) State.reset t ∧
    t.wear = s.wear ∧ t.hostMem = s.hostMem ∧
    (List.range 1023).all (fun i => t.isSet (SRC_CFG_LATCHED i) = (bellHasLatch i && s.isSet (SRC_CFG_LATCHED i))) = true := by
  have hqueue : CsrWork (· = LOFT_STAT) (warmKept s) ((warmKept s).setF LOFT_STAT_QUEUE (min s.loftQ.length 64)) :=
    (CsrWork.refl _).setF (f := LOFT_STAT_QUEUE) rfl
  have hcause : (warmKept s).rd PWR_RESET_CAUSE = 2 := afterReset_cause 2 s
  have hrd : ∀ {o}, o ≠ PWR_RESET_CAUSE → (warmKept s).rd o = State.reset.rd o := fun ho => afterReset_rd 2 s ho
  have hbyte : ∀ a, (warmKept s).byte a = if inLoft a then s.byte a else 0 := afterReset_byte 2 s
  rw [wrst_exec]
  generalize (warmKept s).setF LOFT_STAT_QUEUE (min s.loftQ.length 64) = v at hqueue ⊢
  have hunlatched : ∀ i < 1023, v.isSet (SRC_CFG_LATCHED i) = false := fun i hi => by
    refine (hqueue.writes.isSet (f := SRC_CFG_LATCHED i) ?_).trans ((State.isSet_congr (f := SRC_CFG_LATCHED i) (hrd ?_)).trans (reset_unlatched hi)) <;>
      simp only [SRC_CFG_LATCHED, SRC_CFG, LOFT_STAT, PWR_RESET_CAUSE] <;> omega
  have hlatch := latchesKept_csrWork s v
  have hlatched := fun i (hi : i < 1023) => latchesKept_isSet s v hi (hunlatched i hi)
  generalize latchesKept s v = w at hlatch hlatched ⊢
  have hshown := resetDone_shown w
  generalize resetDone w = t at hshown ⊢
  have heqv : t = { warmKept s with csr := t.csr, outs := t.outs } := by rw [hshown.eqv, hlatch.eqv, hqueue.eqv]
  have hkeep : ∀ o, ¬ (o = LEDGER_STAT ∨ wearOff o) → ¬ srcOff o → o ≠ LOFT_STAT → t.rd o = (warmKept s).rd o := fun o h1 h2 h3 =>
    (hshown.writes o h1).trans ((hlatch.writes o h2).trans (hqueue.writes o h3))
  have hmem : ∀ a, t.byte a = if inLoft a then s.byte a else 0 := fun a => by
    rw [← hbyte a]
    unfold State.byte
    rw [heqv]
  refine ⟨t, rfl, (hkeep _ (by decide) (by decide) (by decide)).trans hcause, by rw [heqv]; rfl, by rw [heqv]; rfl, by rw [heqv]; rfl, by rw [heqv]; rfl,
    ?_, by rw [heqv]; rfl, by rw [heqv]; rfl, by rw [heqv]; rfl, by rw [heqv]; rfl, fun a ha => ?_, fun a ha => ?_, by rw [heqv]; rfl, by rw [heqv]; rfl, ?_⟩
  · refine (State.isSet_congr (f := YM_ARB_HELD) ((hkeep _ (by decide) (by decide) (by decide)).trans (hrd (by decide)))).trans ?_
    decide
  · rw [hmem, if_pos ha]
  · rw [Bool.not_eq_true'] at ha
    rw [hmem, if_neg (by rw [ha]; decide), reset_byte]
  · rw [List.all_eq_true]
    intro i hi
    have hi' := List.mem_range.mp hi
    refine decide_eq_true ?_
    rw [← hlatched i hi']
    refine hshown.writes.isSet (f := SRC_CFG_LATCHED i) ?_
    simp only [SRC_CFG_LATCHED, SRC_CFG, LEDGER_STAT, wearOff, List.mem_cons, List.not_mem_nil, or_false, LOFT_WEAR_LO, LOFT_WEAR_HI, LOFT_WEAR_MAX_LO, LOFT_WEAR_MAX_IDX]
    omega

/-! ### PCIe, SMBus and JTAG -/

theorem pcieLinkUp_trained (h : 2 ≤ s.power.boot) : Completes (exec .pcieLinkUp s) fun t => t = { s with power := { s.power with pcie := true } } :=
  ⟨_, if_neg (Nat.not_lt.mpr h), rfl⟩

theorem smbus_block {addr : BitVec 7} {code : BitVec 8} (h : addr = 0x5D) : Completes (exec (.smbusBlockRead addr code) s) fun t =>
    t = s.emit (.smbus (if code = 1 then infoBytes s else if code = 2 then loftGetBytes s else [])) := by
  have hrun : exec (.smbusBlockRead addr code) s = .next (s.emit (.smbus (if code = 1 then infoBytes s else if code = 2 then loftGetBytes s else []))) := by
    rw [exec_smbusBlockRead, execSmbusBlockRead, if_neg (not_not_intro h)]
    split
    · rfl
    · split <;> rfl
  exact ⟨_, hrun, rfl⟩

/-- The boundary register drives the balls. -/
def ballsDriven (s : State) : State :=
  { s with power := { s.power with balls := 1 }, outs := (s.power.boundary.map (fun b => Output.pin b.1 b.2)).reverse ++ s.outs }

theorem emitAll_eq (l : List (String × Bool)) (s : State) :
    l.foldl (fun s e => s.emit (.pin e.1 e.2)) s = { s with outs := (l.map (fun b => Output.pin b.1 b.2)).reverse ++ s.outs } := by
  induction l generalizing s with
  | nil => rfl
  | cons e l ih =>
    rw [List.foldl_cons, ih, List.map_cons, List.reverse_cons, List.append_assoc]
    rfl

theorem ballsTo_one (s : State) : ballsTo 1 s = ballsDriven s := by
  unfold ballsTo
  extract_lets s1
  exact (if_pos rfl).trans (emitAll_eq s1.power.boundary s1)

theorem jtag_fenced {i : JtagInstr} (hi : i = .scan ∨ i = .memoryBist ∨ ∃ on, i = .debugStop on) (h : s.power.ftm = false) :
    Completes (exec (.jtagInstruction i) s) fun t => t = { s with power := { s.power with balls := 0 } } := by
  rcases hi with rfl | rfl | ⟨on, rfl⟩
  · exact ⟨_, if_neg (by rw [h]; decide), rfl⟩
  · exact ⟨_, if_neg (by rw [h]; decide), rfl⟩
  · exact ⟨_, if_pos (by rw [h]; decide), rfl⟩

theorem jtag_stopped (h : s.power.ftm = true) :
    Completes (exec (.jtagInstruction (.debugStop true)) s) fun t => t = { s with power := { s.power with stopped := true } } :=
  ⟨_, (if_neg (by rw [h]; decide)).trans (if_pos rfl), rfl⟩

end

end Sys2Proof.Machine

/-!
SUPPORT. A word of the Loft programmed and worn, and what waited for it (spec/24 R547, R549 to R552).
-/

namespace Sys2Proof.Machine

section
variable {s t u : State} {w k j : Nat} {v : DWord}

/-! ### Wear (R551) -/

/-- Word `w` has been worn `k` times more; beside that only registers and the ledger differ. -/
structure Worn (w k : Nat) (s t : State) : Prop where
  count : tblGet 0 w t.wear = tblGet 0 w s.wear + k
  eqv : t = { s with csr := t.csr, wear := t.wear, loftWarned := t.loftWarned, ledger := t.ledger }

theorem Worn.trans (h : Worn w k s t) (g : Worn w j t u) : Worn w (k + j) s u :=
  ⟨by rw [g.count, h.count, Nat.add_assoc], by rw [g.eqv, h.eqv]⟩

theorem Worn.ledger (h : Worn w k s t) (g : LedgerWork t u) : Worn w k s u := by
  have hwear : u.wear = t.wear := by rw [g]
  have hwarned : u.loftWarned = t.loftWarned := by rw [g]
  refine ⟨by rw [hwear, h.count], ?_⟩
  rw [hwear, hwarned, g, h.eqv]

theorem Worn.warned (h : Worn w k s t) (x : List Nat) : Worn w k s { t with loftWarned := x } := ⟨h.count, by rw [h.eqv]⟩

theorem wearOne_worn (w : Nat) (s : State) : Worn w 1 s (wearOne w s) := by
  unfold wearOne
  extract_lets c s1 s2
  have h1 : Worn w 1 s s1 := by
    have hcsr := wearRefresh_csrWork w { s with wear := tblSet 0 w c s.wear }
    have hwear : s1.wear = tblSet 0 w c s.wear := by
      show (wearRefresh w { s with wear := tblSet 0 w c s.wear }).wear = _
      rw [hcsr.eqv]
    refine ⟨?_, ?_⟩
    · rw [hwear]
      exact tblGet_tblSet_same 0 w c s.wear
    · have heqv : s1 = { { s with wear := tblSet 0 w c s.wear } with csr := s1.csr } := hcsr.eqv
      clear_value s1
      rw [heqv]
  clear_value s1
  split
  · exact (h1.warned _).ledger ((setF_ledgerWork s2 _ _).trans (addReport_ledgerWork _ _ _))
  · exact h1

theorem wearMany_worn (k w : Nat) (s : State) : Worn w k s (wearMany k w s) := by
  induction k generalizing s with
  | zero => exact ⟨rfl, rfl⟩
  | succ k ih =>
    have h := (wearOne_worn w s).trans (ih (wearOne w s))
    rw [Nat.add_comm 1 k] at h
    exact h

/-! ### A word programmed (R549) -/

/-- Word `w` of the Loft holds `v`, worn `k` times more, and is no longer bad; beside it only registers and the ledger differ. -/
structure Programmed (w k : Nat) (v : DWord) (s t : State) : Prop where
  word : t.loftWord w = v
  bytes : ∀ a, (a < loftBase + 8 * w ∨ loftBase + 8 * w + 8 ≤ a) → t.byte a = s.byte a
  count : tblGet 0 w t.wear = tblGet 0 w s.wear + k
  bad : t.loftBad = s.loftBad.filter (· ≠ w)
  eqv : t = { s with csr := t.csr, mem := t.mem, wear := t.wear, loftBad := t.loftBad, loftWarned := t.loftWarned, ledger := t.ledger }

theorem loftWord_stored (w : Nat) (v : DWord) (s : State) : (s.stLE (loftBase + 8 * w) 8 v.toNat).loftWord w = v := by
  have hbytes : (s.setBytes (loftBase + 8 * w) (leBytes 8 v.toNat)).bytes (loftBase + 8 * w) 8 = leBytes 8 v.toNat := by
    have h := State.bytes_setBytes s (loftBase + 8 * w) (leBytes 8 v.toNat) (o := 0) (n := 8) (by rw [leBytes_length])
    rw [Nat.add_zero, List.drop_zero, List.take_of_length_le (by rw [leBytes_length])] at h
    exact h
  unfold State.loftWord State.ldLE State.stLE
  rw [hbytes, leVal_leBytes]
  refine BitVec.eq_of_toNat_eq ?_
  rw [BitVec.toNat_ofNat]
  have := v.isLt
  omega

theorem loftWord_congr (h : ∀ a, loftBase + 8 * w ≤ a → a < loftBase + 8 * w + 8 → t.byte a = s.byte a) : t.loftWord w = s.loftWord w := by
  have hbytes : ∀ n a, loftBase + 8 * w ≤ a → a + n ≤ loftBase + 8 * w + 8 → t.bytes a n = s.bytes a n := by
    intro n
    induction n with
    | zero => exact fun _ _ _ => rfl
    | succ n ih =>
      intro a ha hn
      exact congrArg₂ List.cons (h a ha (by omega)) (ih (a + 1) (by omega) (by omega))
  unfold State.loftWord State.ldLE
  rw [hbytes 8 _ (Nat.le_refl _) (Nat.le_refl _)]

theorem Worn.byte (h : Worn w k s t) (a : Nat) : t.byte a = s.byte a := by
  unfold State.byte
  rw [h.eqv]

theorem stLE_byte (s : State) (a n x : Nat) {b : Nat} (h : b < a ∨ a + n ≤ b) : (s.stLE a n x).byte b = s.byte b :=
  State.byte_setBytes_ne s a b (leBytes n x) (by rwa [leBytes_length])

theorem stLE_eqv (s : State) (a n x : Nat) : s.stLE a n x = { s with mem := (s.stLE a n x).mem } := by
  have hset : ∀ (l : List Byte) (a : Nat) (s : State), s.setBytes a l = { s with mem := (s.setBytes a l).mem } := by
    intro l
    induction l with
    | nil => exact fun _ _ => rfl
    | cons b l ih => exact fun a s => (ih (a + 1) (s.setByte a b)).trans rfl
  exact hset _ _ _

theorem loftProgram_programmed (w : Nat) (v : DWord) (s : State) : Programmed w 1 v s (loftProgram w v s) := by
  have hword := loftWord_stored w v s
  have hbyte := fun b hb => stLE_byte s (loftBase + 8 * w) 8 v.toNat (b := b) hb
  have hmem := stLE_eqv s (loftBase + 8 * w) 8 v.toNat
  unfold loftProgram
  generalize s.stLE (loftBase + 8 * w) 8 v.toNat = u at hword hbyte hmem ⊢
  have hworn := wearOne_worn w u
  generalize wearOne w u = x at hworn ⊢
  have hxb : ∀ a, x.byte a = u.byte a := hworn.byte
  refine ⟨?_, fun a ha => (hxb a).trans (hbyte a ha), ?_, ?_, ?_⟩
  · exact (loftWord_congr (fun a _ _ => hxb a)).trans hword
  · show tblGet 0 w x.wear = _
    rw [hworn.count, hmem]
  · show x.loftBad.filter (· ≠ w) = _
    have hbad : x.loftBad = s.loftBad := by rw [hworn.eqv, hmem]
    rw [hbad]
  · have heqv := hworn.eqv
    rw [hmem] at heqv
    have hxm : x.mem = u.mem := by rw [hworn.eqv]
    generalize x.loftBad.filter (· ≠ w) = bad
    clear hxb hword hbyte
    rw [heqv]

theorem Programmed.worn (h : Programmed w k v s t) (g : Worn w j t u) : Programmed w (k + j) v s u := by
  have hb := g.byte
  refine ⟨(loftWord_congr (fun a _ _ => hb a)).trans h.word, fun a ha => (hb a).trans (h.bytes a ha), by rw [g.count, h.count, Nat.add_assoc], ?_, ?_⟩
  · rw [show u.loftBad = t.loftBad by rw [g.eqv], h.bad]
  · rw [g.eqv, h.eqv]

/-- A counter of the Loft one higher. -/
theorem loftCounted (w : Nat) (s : State) : (loftProgram w (s.loftWord w + 1) s).loftWord w = s.loftWord w + 1 ∧
    BytesIn (fun a => a < loftBase + 8 * w || loftBase + 8 * w + 8 ≤ a) s (loftProgram w (s.loftWord w + 1) s) ∧
    tblGet 0 w (loftProgram w (s.loftWord w + 1) s).wear = tblGet 0 w s.wear + 1 ∧
    loftProgram w (s.loftWord w + 1) s = { s with
      csr := (loftProgram w (s.loftWord w + 1) s).csr, mem := (loftProgram w (s.loftWord w + 1) s).mem,
      wear := (loftProgram w (s.loftWord w + 1) s).wear, loftBad := (loftProgram w (s.loftWord w + 1) s).loftBad,
      loftWarned := (loftProgram w (s.loftWord w + 1) s).loftWarned, ledger := (loftProgram w (s.loftWord w + 1) s).ledger } := by
  have h := loftProgram_programmed w (s.loftWord w + 1) s
  refine ⟨h.word, fun a ha => h.bytes a ?_, h.count, h.eqv⟩
  simpa only [Bool.or_eq_true, decide_eq_true_eq] using ha

end

end Sys2Proof.Machine

/-!
SUPPORT. LOFT_WRITE_DONE and the budget (spec/24 R549, R550, R552): a queued word programmed, or one whose verifications failed.
-/

namespace Sys2Proof.Machine

section
variable {s t u : State} {e : LoftWrite} {q : List LoftWrite} {fails : Nat}

/-! ### What the work of the mailboxes keeps -/

/-- The Loft and its queue, the cores and the position unit are as they were: what differs in memory are buffers of mailboxes. -/
structure LoftKept (s t : State) : Prop where
  byte : ∀ a < bar0Key 0, t.byte a = s.byte a
  loftQ : t.loftQ = s.loftQ
  wear : t.wear = s.wear
  loftBad : t.loftBad = s.loftBad
  cores : t.cores = s.cores
  pos : t.pos = s.pos

theorem LoftKept.refl (s : State) : LoftKept s s := ⟨fun _ _ => rfl, rfl, rfl, rfl, rfl, rfl⟩

theorem LoftKept.trans (h : LoftKept s t) (g : LoftKept t u) : LoftKept s u :=
  ⟨fun a ha => (g.byte a ha).trans (h.byte a ha), g.loftQ.trans h.loftQ, g.wear.trans h.wear, g.loftBad.trans h.loftBad, g.cores.trans h.cores,
    g.pos.trans h.pos⟩

theorem LoftKept.ite {c : Prop} [Decidable c] (h : LoftKept s t) (g : LoftKept s u) : LoftKept s (if c then t else u) := by
  split <;> assumption

theorem LoftKept.foldl {α : Type} {f : State → α → State} (l : List α) (hf : ∀ u a, LoftKept u (f u a)) (s : State) : LoftKept s (l.foldl f s) := by
  induction l generalizing s with
  | nil => exact .refl s
  | cons a l ih => exact (hf s a).trans (ih _)

theorem LoftKept.setF (h : LoftKept s t) (f : Fld) (v : Nat) : LoftKept s (t.setF f v) := h.trans ⟨fun _ _ => rfl, rfl, rfl, rfl, rfl, rfl⟩

theorem LoftKept.wr64 (h : LoftKept s t) (o : Nat) (v : DWord) : LoftKept s (t.wr64 o v) := h.trans ⟨fun _ _ => rfl, rfl, rfl, rfl, rfl, rfl⟩

theorem LoftKept.modChan (h : LoftKept s t) (n : Nat) (f : Chan → Chan) : LoftKept s (t.modChan n f) :=
  h.trans ⟨fun _ _ => rfl, rfl, rfl, rfl, rfl, rfl⟩

theorem LoftKept.withYm (h : LoftKept s t) (x : Ym) : LoftKept s { t with ym := x } := h.trans ⟨fun _ _ => rfl, rfl, rfl, rfl, rfl, rfl⟩

theorem LoftKept.emit (h : LoftKept s t) (o : Output) : LoftKept s (t.emit o) := h.trans ⟨fun _ _ => rfl, rfl, rfl, rfl, rfl, rfl⟩

theorem setBytes_eqv (a : Nat) (l : List Byte) (s : State) : s.setBytes a l = { s with mem := (s.setBytes a l).mem } := by
  induction l generalizing a s with
  | nil => rfl
  | cons b l ih => exact (ih (a + 1) (s.setByte a b)).trans rfl

theorem mbRespond_loftKept (m op st orig tag : Nat) (data : List Byte) (s : State) : LoftKept s (mbRespond m op st orig tag data s) := by
  unfold mbRespond
  extract_lets r s1 s2
  have h1 : LoftKept s s1 := by
    have heqv : s1 = { s with mem := s1.mem } := setBytes_eqv _ _ _
    have hbyte : ∀ a < bar0Key 0, s1.byte a = s.byte a := fun a ha =>
      State.byte_setBytes_ne s (rspBuf m) a r (.inl (Nat.lt_of_lt_of_le ha (by simp only [rspBuf, bar0Key]; omega)))
    clear_value s1
    exact ⟨hbyte, by rw [heqv], by rw [heqv], by rw [heqv], by rw [heqv], by rw [heqv]⟩
  have h2 : LoftKept s s2 := (h1.setF _ _).setF _ _
  exact .ite ((h2.setF _ _).emit _) (h2.setF _ _)

theorem mbDone_loftKept (m st : Nat) (data : List Byte) (s : State) : LoftKept s (mbDone m st data s) :=
  (mbRespond_loftKept m (mbOp s m) st 0 (mbTag s m) data s).withYm _

theorem installsEnd_loftKept (s : State) : LoftKept s (installsEnd s) := by
  unfold installsEnd
  extract_lets go
  generalize hx : ({ s.ym with installs := s.ym.installs.filter (fun x => !(x.arm.isNone && x.marks.isEmpty)) } : Ym) = x
  exact ((LoftKept.refl s).withYm x).trans (.foldl go (fun u x => mbDone_loftKept x.box 0 x.rsp u) { s with ym := x })

theorem markSeen_loftKept (e : LoftWrite) (s : State) : LoftKept s (markSeen e true s) := by
  unfold markSeen
  split
  · exact ((LoftKept.refl s).withYm _).trans (installsEnd_loftKept _)
  · exact .refl s

theorem loftPersisted_loftKept (x : LoftWait) (s : State) : LoftKept s (loftPersisted x s) := by
  unfold loftPersisted
  cases x with
  | mark n d k => exact (LoftKept.refl s).modChan _ _
  | resv n m => exact ((LoftKept.refl s).modChan _ _).wr64 _ _
  | pnMark n b => exact (LoftKept.refl s).modChan _ _
  | plain => exact .refl s

/-! ### The word taken from the queue -/

/-- The queue without the word that has been programmed. -/
def dequeued (q : List LoftWrite) (s : State) : State := { s with loftQ := q }.setF LOFT_STAT_QUEUE (min q.length 64)

theorem dequeued_eqv (q : List LoftWrite) (s : State) : dequeued q s = { s with csr := (dequeued q s).csr, loftQ := q } := rfl

theorem loftWord_lt (h : e.word < 0x8000) {a : Nat} (ha : a < loftBase + 8 * e.word + 8) : a < bar0Key 0 := by
  simp only [loftBase, bar0Key] at ha ⊢
  omega

theorem loftWriteDone_done (hnext : loftNext s.loftQ = some (e, q)) (hword : e.word < 0x8000) (hfails : fails < 3) :
    Completes (exec (.loftWriteDone fails) s) fun t => t.loftQ = q ∧ t.loftWord e.word = e.value ∧
      tblGet 0 e.word t.wear = tblGet 0 e.word s.wear + fails + 1 ∧ t.loftBad = s.loftBad.filter (· ≠ e.word) ∧
      BytesIn (fun a => inLoft a && (a < loftBase + 8 * e.word || loftBase + 8 * e.word + 8 ≤ a)) s t ∧ t.cores = s.cores ∧ t.pos = s.pos := by
  have hrun : exec (.loftWriteDone fails) s = .next (markSeen e true
      (loftPersisted e.wait (wearMany fails e.word (loftProgram e.word e.value (dequeued q s))))) := by
    rw [exec_loftWriteDone, execLoftWriteDone, hnext]
    exact if_pos hfails
  have hdeq := dequeued_eqv q s
  rw [hrun]
  generalize dequeued q s = v at hdeq ⊢
  have hprog := (loftProgram_programmed e.word e.value v).worn (wearMany_worn fails e.word _)
  generalize wearMany fails e.word (loftProgram e.word e.value v) = x at hprog ⊢
  have hkept := (loftPersisted_loftKept e.wait x).trans (markSeen_loftKept e _)
  generalize markSeen e true (loftPersisted e.wait x) = t at hkept ⊢
  have hvb : ∀ a, v.byte a = s.byte a := fun a => by
    unfold State.byte
    rw [hdeq]
  have hv : v.wear = s.wear ∧ v.loftBad = s.loftBad ∧ v.loftQ = q ∧ v.cores = s.cores ∧ v.pos = s.pos := by
    rw [hdeq]
    exact ⟨rfl, rfl, rfl, rfl, rfl⟩
  have hx : x.loftQ = v.loftQ ∧ x.cores = v.cores ∧ x.pos = v.pos := by
    rw [hprog.eqv]
    exact ⟨rfl, rfl, rfl⟩
  obtain ⟨hwear, hbad, hq, hcores, hpos⟩ := hv
  obtain ⟨hxq, hxc, hxp⟩ := hx
  refine ⟨t, rfl, hkept.loftQ.trans (hxq.trans hq), ?_, ?_, ?_, fun a ha => ?_, hkept.cores.trans (hxc.trans hcores), hkept.pos.trans (hxp.trans hpos)⟩
  · exact (loftWord_congr (fun a _ ha => hkept.byte a (loftWord_lt hword ha))).trans hprog.word
  · rw [hkept.wear, hprog.count, hwear]
    omega
  · rw [hkept.loftBad, hprog.bad, hbad]
  · simp only [Bool.and_eq_true, Bool.or_eq_true, decide_eq_true_eq] at ha
    obtain ⟨⟨_, hlt⟩, hother⟩ := ha
    have hbar : a < bar0Key 0 := by
      simp only [loftBase, bar0Key] at hlt ⊢
      omega
    exact (hkept.byte a hbar).trans ((hprog.bytes a hother).trans (hvb a))

/-! ### Three verifications failed (R550) -/

/-- What a word whose three verifications failed holds: its old value, its new one, or nothing that can be read. -/
def wordFailed (e : LoftWrite) (s : State) : State :=
  if s.draw.1 % 3 = 0 then s.draw.2
  else if s.draw.1 % 3 = 1 then s.draw.2.stLE (loftBase + 8 * e.word) 8 e.value.toNat
  else { s.draw.2 with loftBad := e.word :: s.draw.2.loftBad }

theorem wordFailed_spec (e : LoftWrite) (s : State) :
    ((wordFailed e s).loftWord e.word = s.loftWord e.word ∨ (wordFailed e s).loftWord e.word = e.value) ∧
      (∀ a, (a < loftBase + 8 * e.word ∨ loftBase + 8 * e.word + 8 ≤ a) → (wordFailed e s).byte a = s.byte a) ∧
      wordFailed e s = { s with mem := (wordFailed e s).mem, loftBad := (wordFailed e s).loftBad, draws := (wordFailed e s).draws } := by
  have hdraw : s.draw.2 = { s with draws := s.draw.2.draws } := rfl
  have hb : ∀ a, s.draw.2.byte a = s.byte a := fun _ => rfl
  unfold wordFailed
  generalize s.draw.2 = v at hdraw hb ⊢
  split
  · exact ⟨.inl (loftWord_congr (fun a _ _ => hb a)), fun a _ => hb a, by rw [hdraw]⟩
  · split
    · have hword := loftWord_stored e.word e.value v
      have hbyte := fun b hb => stLE_byte v (loftBase + 8 * e.word) 8 e.value.toNat (b := b) hb
      have heqv := stLE_eqv v (loftBase + 8 * e.word) 8 e.value.toNat
      generalize v.stLE (loftBase + 8 * e.word) 8 e.value.toNat = x at hword hbyte heqv ⊢
      exact ⟨.inr hword, fun a ha => (hbyte a ha).trans (hb a), by rw [heqv, hdraw]⟩
    · exact ⟨.inl (loftWord_congr (fun a _ _ => hb a)), fun a _ => hb a, by rw [hdraw]⟩

/-- The failure recorded. -/
def failureSeen (e : LoftWrite) (s : State) : State := (s.setF LOFT_STAT_VFAIL 1).report 0x15 0x0E04 noPath (8 * e.word)

theorem failureSeen_spec (e : LoftWrite) (s : State) : (failureSeen e s).isSet LOFT_STAT_VFAIL = true ∧ LedgerWork s (failureSeen e s) := by
  have hreport := report_quiet (s.setF LOFT_STAT_VFAIL 1) 0x15 0x0E04 noPath (8 * e.word)
  refine ⟨(State.isSet_congr (hreport.rd _ (by decide))).trans (State.isSet_setF_bit s LOFT_STAT_VFAIL rfl (by decide)), ?_⟩
  exact (setF_ledgerWork s _ _).trans (addReport_ledgerWork _ _ _)

theorem loftWriteDone_failed (hnext : loftNext s.loftQ = some (e, q)) (hfails : 3 ≤ fails) (hwait : e.wait = .plain) :
    Completes (exec (.loftWriteDone fails) s) fun t => t.loftQ = q ∧ (t.loftWord e.word = s.loftWord e.word ∨ t.loftWord e.word = e.value) ∧
      t.isSet LOFT_STAT_VFAIL = true ∧ tblGet 0 e.word t.wear = tblGet 0 e.word s.wear + 3 ∧
      BytesIn (fun a => a < loftBase + 8 * e.word || loftBase + 8 * e.word + 8 ≤ a) s t ∧ t.cores = s.cores ∧ t.pos = s.pos ∧ t.chans = s.chans := by
  have hseen : ∀ u, markSeen e false u = u := fun u => by
    unfold markSeen
    rw [hwait]
  have hfailed : ∀ u, loftFailed e u = u := fun u => by
    unfold loftFailed
    rw [hwait]
  have hrun : exec (.loftWriteDone fails) s =
      .next (markSeen e false (loftFailed e (failureSeen e (wordFailed e (wearMany 3 e.word (dequeued q s)))))) := by
    rw [exec_loftWriteDone, execLoftWriteDone, hnext]
    exact if_neg (Nat.not_lt.mpr hfails)
  rw [hseen, hfailed] at hrun
  have hdeq := dequeued_eqv q s
  rw [hrun]
  generalize dequeued q s = v at hdeq ⊢
  have hworn := wearMany_worn 3 e.word v
  generalize wearMany 3 e.word v = w at hworn ⊢
  obtain ⟨hword, hbyte, hleft⟩ := wordFailed_spec e w
  generalize wordFailed e w = x at hword hbyte hleft ⊢
  obtain ⟨hset, hledger⟩ := failureSeen_spec e x
  generalize failureSeen e x = t at hset hledger ⊢
  have htb : ∀ a, t.byte a = x.byte a := fun a => by
    unfold State.byte
    rw [hledger]
  have hwb : ∀ a, w.byte a = s.byte a := fun a => (hworn.byte a).trans (by
    unfold State.byte
    rw [hdeq])
  have htw : t.loftWord e.word = x.loftWord e.word := loftWord_congr (fun a _ _ => htb a)
  have hws : w.loftWord e.word = s.loftWord e.word := loftWord_congr (fun a _ _ => hwb a)
  have hwear : t.wear = w.wear ∧ v.wear = s.wear := by
    constructor
    · rw [hledger, hleft]
    · rw [hdeq]
  have hrest : t.loftQ = q ∧ t.cores = s.cores ∧ t.pos = s.pos ∧ t.chans = s.chans := by
    rw [hledger, hleft, hworn.eqv, hdeq]
    exact ⟨rfl, rfl, rfl, rfl⟩
  obtain ⟨hq, hcores, hpos, hchans⟩ := hrest
  refine ⟨t, rfl, hq, ?_, hset, ?_, fun a ha => ?_, hcores, hpos, hchans⟩
  · rw [htw, ← hws]
    exact hword
  · rw [hwear.1, hworn.count, hwear.2]
  · simp only [Bool.or_eq_true, decide_eq_true_eq] at ha
    exact (htb a).trans ((hbyte a ha).trans (hwb a))

/-! ### The budget (R552) -/

theorem budgetRefilled (s : State) : Completes (exec .loftBudgetRefill s) fun t => t.getF LOFT_CNT_YFI_1S = 0 ∧
    t.getF LOFT_BUDGET_CFG_TOKENS = min (s.getF LOFT_BUDGET_CFG_TOKENS + s.getF LOFT_BUDGET_CFG_RATE) (60 * s.getF LOFT_BUDGET_CFG_RATE) ∧
    RegsBut [LOFT_BUDGET_CFG, LOFT_CNT] s t ∧ t = { s with csr := t.csr } := by
  have hrate : s.getF LOFT_BUDGET_CFG_RATE < 128 := State.getF_lt s LOFT_BUDGET_CFG_RATE
  have hrun : exec .loftBudgetRefill s = .next ((s.setF LOFT_BUDGET_CFG_TOKENS
      (min (s.getF LOFT_BUDGET_CFG_TOKENS + s.getF LOFT_BUDGET_CFG_RATE) (60 * s.getF LOFT_BUDGET_CFG_RATE))).setF LOFT_CNT_YFI_1S 0) := by
    rw [exec_loftBudgetRefill, execLoftBudgetRefill]
  rw [hrun]
  generalize s.getF LOFT_BUDGET_CFG_RATE = r at hrate ⊢
  generalize s.getF LOFT_BUDGET_CFG_TOKENS = k
  refine ⟨_, rfl, State.getF_setF_same _ LOFT_CNT_YFI_1S 0 (by decide) (by decide), ?_, fun o ho => ?_, ?_⟩
  · refine (State.getF_setF_ne _ _ _ _ (by decide)).trans ((State.getF_setF_same s LOFT_BUDGET_CFG_TOKENS _ (by decide) (by decide)).trans ?_)
    exact Nat.mod_eq_of_lt (Nat.lt_of_le_of_lt (Nat.min_le_right _ _) (by show 60 * r < 2 ^ 16; omega))
  · simp only [List.mem_cons, List.not_mem_nil, or_false, not_or] at ho
    exact (State.rd_setF_ne _ LOFT_CNT_YFI_1S _ _ (Ne.symm ho.2)).trans (State.rd_setF_ne _ LOFT_BUDGET_CFG_TOKENS _ _ (Ne.symm ho.1))
  · exact (((CsrWork.refl s (P := fun _ => True)).setF trivial).setF trivial).eqv

end

end Sys2Proof.Machine

/-!
SUPPORT. The system reference lost and found again (spec/24 R553): every path muted, and its mute released.
-/

namespace Sys2Proof.Machine

section
variable {s t u : State} {c : MuteCause}

/-! ### Every path muted -/

theorem muteEvery_muteKept (c : MuteCause) (s : State) : MuteKept s (muteEvery c s) := by
  have hfold : ∀ (l : List Nat) (u : State), MuteKept u (l.foldl (fun s n => mutePath n c s) u) := by
    intro l
    induction l with
    | nil => exact fun _ => rfl
    | cons n l ih => exact fun u => (mutePath_muteKept n c u).trans (ih _)
  exact hfold _ s

theorem muteEvery_muted (c : MuteCause) (s : State) {n : Nat} (h : n ∈ s.liveChans) : (muteEvery c s).muted n = true := by
  have hfold : ∀ (l : List Nat) (u : State), n ∈ l ∨ u.muted n = true → (l.foldl (fun s n => mutePath n c s) u).muted n = true := by
    intro l
    induction l with
    | nil => exact fun u h => h.resolve_left List.not_mem_nil
    | cons j l ih =>
      intro u h
      refine ih _ ?_
      rcases h with h | h
      · rcases List.mem_cons.mp h with rfl | h
        · exact .inr (mutePath_muted ..)
        · exact .inl h
      · exact .inr (mutePath_keeps_muted _ _ h)
  exact hfold _ s (.inl h)

/-- The loss of the reference recorded (R553). -/
def referenceLost (s : State) : State := bellPulse 948 ((s.setF PWR_EVT_REFCLK_LOST 1).report unitPower 0x0D01 noPath 0)

theorem referenceLost_quiet (s : State) : Quiet (s.setF PWR_EVT_REFCLK_LOST 1) (referenceLost s) :=
  (report_quiet _ _ _ _ _).trans (bellPulse_quiet _ _)

theorem referenceLost_mutes (s : State) : (referenceLost s).ledger.mutes = s.ledger.mutes := by
  unfold referenceLost
  rw [bellPulse_ledger]
  exact (State.addReport_mutes _ _ _).trans (by rw [State.setF_ledger])

theorem sysLost_muted (h : s.sysLost = false) : Completes (exec .refclkSysLost s) fun t => t.sysLost = true ∧
    s.liveChans.all (fun n => t.muted n) = true ∧ t.isSet PWR_EVT_REFCLK_LOST = true ∧ t.pos = s.pos ∧ t.cores = s.cores ∧ t.chans = s.chans := by
  have hrun : exec .refclkSysLost s = .next (referenceLost (muteEvery .refclk { s with sysLost := true })) := by
    rw [exec_refclkSysLost, execRefclkSysLost, if_neg (by rw [h]; decide)]
    rfl
  have hkept := muteEvery_muteKept .refclk { s with sysLost := true }
  have hmuted : ∀ n ∈ s.liveChans, (muteEvery .refclk { s with sysLost := true }).muted n = true := fun n hn => muteEvery_muted _ _ hn
  rw [hrun]
  generalize muteEvery .refclk { s with sysLost := true } = v at hkept hmuted ⊢
  have hv : v.sysLost = true ∧ v.pos = s.pos ∧ v.cores = s.cores ∧ v.chans = s.chans := by
    rw [hkept]
    exact ⟨rfl, rfl, rfl, rfl⟩
  obtain ⟨hsys, hpos, hcores, hchans⟩ := hv
  have hquiet := referenceLost_quiet v
  refine ⟨_, rfl, ?_, ?_, ?_, ?_, ?_, ?_⟩
  · rw [hquiet.sysLost, State.setF_sysLost, hsys]
  · rw [List.all_eq_true]
    exact fun n hn => (State.muted_congr (referenceLost_mutes v) n).trans (hmuted n hn)
  · exact (State.isSet_congr (hquiet.rd _ (by decide))).trans (State.isSet_setF_bit v PWR_EVT_REFCLK_LOST rfl (by decide))
  · rw [hquiet.pos, State.setF_pos, hpos]
  · rw [hquiet.cores, State.setF_cores, hcores]
  · rw [hquiet.chans, State.setF_chans, hchans]

/-! ### Every mute of a cause released -/

theorem unmutePath_ledgerWork (n : Nat) (c : MuteCause) (s : State) : LedgerWork s (unmutePath n c s) := by
  unfold unmutePath
  extract_lets l s1
  exact .ite (ledger_ledgerWork s _) ((ledger_ledgerWork s _).trans (setF_ledgerWork _ _ _))

theorem unmutePath_ledger (n : Nat) (c : MuteCause) (s : State) :
    (unmutePath n c s).ledger = { s.ledger with mutes := s.ledger.mutes.filter (fun m => m ≠ (n, c)) } := by
  unfold unmutePath
  extract_lets l s1
  split
  · rfl
  · rw [State.setF_ledger]

theorem unmuteList_spec (l : List Nat) (c : MuteCause) (s : State) : LedgerWork s (l.foldl (fun s n => unmutePath n c s) s) ∧
    (l.foldl (fun s n => unmutePath n c s) s).ledger = { s.ledger with mutes := s.ledger.mutes.filter (fun m => !(decide (m.2 = c) && l.contains m.1)) } := by
  induction l generalizing s with
  | nil =>
    refine ⟨rfl, ?_⟩
    simp
  | cons n l ih =>
    obtain ⟨hwork, hledger⟩ := ih (unmutePath n c s)
    refine ⟨(unmutePath_ledgerWork n c s).trans hwork, hledger.trans ?_⟩
    rw [unmutePath_ledger, List.filter_filter]
    refine congrArg (fun x => { s.ledger with mutes := x }) (List.filter_congr (fun m _ => ?_))
    obtain ⟨j, d⟩ := m
    by_cases hd : d = c <;> by_cases hj : j = n <;> simp [hd, hj]

theorem unmuteAll_spec (c : MuteCause) (s : State) : LedgerWork s (unmuteAll c s) ∧
    (unmuteAll c s).ledger = { s.ledger with mutes := s.ledger.mutes.filter (fun m => m.2 ≠ c) } := by
  obtain ⟨hwork, hledger⟩ := unmuteList_spec ((s.ledger.mutes.filter (fun m => m.2 = c)).map (·.1)) c s
  refine ⟨hwork, hledger.trans ?_⟩
  refine congrArg (fun x => { s.ledger with mutes := x }) (List.filter_congr (fun m hm => ?_))
  by_cases hc : m.2 = c
  · have hmem : ((s.ledger.mutes.filter (fun m => m.2 = c)).map (·.1)).contains m.1 = true :=
      List.contains_iff_mem.mpr (List.mem_map_of_mem (List.mem_filter.mpr ⟨hm, decide_eq_true hc⟩))
    rw [hmem, decide_eq_true hc, decide_eq_false (not_not_intro hc)]
    rfl
  · rw [decide_eq_false hc, decide_eq_true hc]
    rfl

theorem sysRelocked (h : s.sysLost = true) : Completes (exec .refclkSysRelock s) fun t => t.sysLost = false ∧
    t.ledger = { s.ledger with mutes := s.ledger.mutes.filter (fun m => m.2 ≠ .refclk) } ∧
    t = { s with csr := t.csr, sysLost := t.sysLost, ledger := t.ledger } := by
  have hrun : exec .refclkSysRelock s = .next (unmuteAll .refclk { s with sysLost := false }) := by
    rw [exec_refclkSysRelock, execRefclkSysRelock, if_pos h]
  obtain ⟨hwork, hledger⟩ := unmuteAll_spec .refclk { s with sysLost := false }
  rw [hrun]
  generalize unmuteAll .refclk { s with sysLost := false } = t at hwork hledger ⊢
  exact ⟨t, rfl, by rw [hwork], hledger, by rw [hwork]⟩

end

end Sys2Proof.Machine

/-!
SUPPORT. Boot (spec/24 R545, R546, R550): AON reads the Loft's control area.
-/

namespace Sys2Proof.Machine

section
variable {P : Nat → Prop} {s t u : State} {v : Nat}

theorem CsrWork.loftWord (h : CsrWork P s t) (w : Nat) : t.loftWord w = s.loftWord w := by
  rw [h.eqv]
  rfl

/-! ### The fields that the Loft keeps (R546) -/

/-- The token epoch taken from the Loft. -/
def epochTaken (s : State) : State :=
  (s.setF YM_EPOCH_EPOCH ((s.loftWord 2).toNat % 2 ^ 32)).setF YM_EPOCH_HI_EPOCH_HI ((s.loftWord 2).toNat / 2 ^ 32)

/-- The identifier taken from the Loft. -/
def idTaken (s : State) : State := (s.setF FAB_ID_LOFT_ID (s.loftWord 3).toNat).setF FAB_ID_LOFT_ID_EN ((s.loftWord 3).toNat / 1024)

/-- EXPORT_EN taken from the Loft. -/
def exportTaken (s : State) : State := s.setF TR_CFG_EXPORT_EN (s.loftWord 29).toNat

/-- The watermarks of the mailboxes taken from the Loft. -/
def marksTaken (s : State) : State := (List.range 16).foldl (fun (s : State) (m : Nat) => s.wr64 (MB_WM_LO m) (s.loftWord (loftWmWord m))) s

/-- The flags of zeroisation taken from the Loft. -/
def flagsTaken (s : State) : State := (s.setF TR_STAT_ERASE_PEND (s.loftWord 1).toNat).setF TR_STAT_ZEROISED ((s.loftWord 1).toNat / 2)

theorem persFields_eq (s : State) : persFields s = flagsTaken (marksTaken (exportTaken (idTaken (epochTaken s)))) := rfl

theorem epochTaken_work (s : State) : CsrWork (fun o => o = YM_EPOCH ∨ o = YM_EPOCH_HI) s (epochTaken s) := by
  have h : CsrWork (fun o => o = YM_EPOCH ∨ o = YM_EPOCH_HI) s (s.setF YM_EPOCH_EPOCH ((s.loftWord 2).toNat % 2 ^ 32)) := (CsrWork.refl s).setF (.inl rfl)
  exact h.setF (.inr rfl)

theorem idTaken_work (s : State) : CsrWork (· = FAB_ID) s (idTaken s) := by
  have h : CsrWork (· = FAB_ID) s (s.setF FAB_ID_LOFT_ID (s.loftWord 3).toNat) := (CsrWork.refl s).setF rfl
  exact h.setF rfl

theorem exportTaken_work (s : State) : CsrWork (· = TR_CFG) s (exportTaken s) := (CsrWork.refl s).setF rfl

theorem marksTaken_work (s : State) : CsrWork (fun o => 0x10000000000 ≤ o) s (marksTaken s) :=
  .foldl _ (fun u m _ => (CsrWork.refl u).wr64 (by simp only [MB_WM_LO]; omega) (by simp only [MB_WM_LO]; omega)) s

theorem flagsTaken_work (s : State) : CsrWork (· = TR_STAT) s (flagsTaken s) := by
  have h : CsrWork (· = TR_STAT) s (s.setF TR_STAT_ERASE_PEND (s.loftWord 1).toNat) := (CsrWork.refl s).setF rfl
  exact h.setF rfl

theorem State.wr64_loftWord (s : State) (o : Nat) (v : DWord) (w : Nat) : (s.wr64 o v).loftWord w = s.loftWord w :=
  ((CsrWork.refl s).wr64 (P := fun _ => True) trivial trivial).loftWord w

theorem marksTaken_rd64 (s : State) {m : Nat} (hm : m < 16) : (marksTaken s).rd64 (MB_WM_LO m) = s.loftWord (13 + m) := by
  have hother : ∀ (u : State) (i j : Nat), i ≠ j → ((u.wr64 (MB_WM_LO j) (u.loftWord (loftWmWord j))).rd64 (MB_WM_LO i),
      (u.wr64 (MB_WM_LO j) (u.loftWord (loftWmWord j))).loftWord (13 + i)) = (u.rd64 (MB_WM_LO i), u.loftWord (13 + i)) := by
    intro u i j hij
    rw [State.wr64_loftWord, State.rd64_wr64_ne _ _ _ _ (by simp only [MB_WM_LO]; omega) (by simp only [MB_WM_LO]; omega) (by simp only [MB_WM_LO]; omega)]
  obtain ⟨u, hu, hend⟩ := rangeFold_view (q := fun i u => (u.rd64 (MB_WM_LO i), u.loftWord (13 + i))) hother hm s
  have hword : u.loftWord (13 + m) = s.loftWord (13 + m) := congrArg Prod.snd hu
  refine (congrArg Prod.fst hend).trans ((State.rd64_wr64_same _ _ _).trans ?_)
  rw [← hword]
  rfl

theorem State.isSet_setF_same (s : State) (f : Fld) (v : Nat) (h : f.lo = f.hi) (h32 : f.hi < 32) : (s.setF f v).isSet f = decide (v % 2 = 1) := by
  unfold State.isSet
  rw [State.getF_setF_same s f v (Nat.le_of_eq h) h32, show f.hi + 1 - f.lo = 1 by omega, Nat.pow_one]

theorem epochTaken_epoch (s : State) : (epochTaken s).getF YM_EPOCH_EPOCH = (s.loftWord 2).toNat % 2 ^ 32 := by
  unfold epochTaken
  rw [State.getF_setF_ne _ YM_EPOCH_HI_EPOCH_HI _ _ (by decide), State.getF_setF_same _ YM_EPOCH_EPOCH _ (by decide) (by decide)]
  exact Nat.mod_mod _ _

theorem idTaken_id (s : State) : (idTaken s).getF FAB_ID_LOFT_ID = (s.loftWord 3).toNat % 1024 := by
  unfold idTaken
  rw [State.getF_setF_apart _ FAB_ID_LOFT_ID_EN FAB_ID_LOFT_ID _ rfl]
  exact State.getF_setF_same _ FAB_ID_LOFT_ID _ (by decide) (by decide)

theorem exportTaken_export (s : State) : (exportTaken s).isSet TR_CFG_EXPORT_EN = decide ((s.loftWord 29).toNat % 2 = 1) :=
  State.isSet_setF_same _ TR_CFG_EXPORT_EN _ rfl (by decide)

theorem flagsTaken_zeroised (s : State) : (flagsTaken s).isSet TR_STAT_ZEROISED = decide ((s.loftWord 1).toNat / 2 % 2 = 1) :=
  State.isSet_setF_same _ TR_STAT_ZEROISED _ rfl (by decide)

theorem flagsTaken_pend (s : State) : (flagsTaken s).isSet TR_STAT_ERASE_PEND = decide ((s.loftWord 1).toNat % 2 = 1) := by
  unfold flagsTaken
  rw [State.isSet_setF_apart _ TR_STAT_ZEROISED TR_STAT_ERASE_PEND _ rfl]
  exact State.isSet_setF_same _ TR_STAT_ERASE_PEND _ rfl (by decide)

/-- What the Loft's control area gives its registers (R546). -/
theorem persFields_spec (s : State) : (persFields s).getF YM_EPOCH_EPOCH = (s.loftWord 2).toNat % 2 ^ 32 ∧
    (persFields s).getF FAB_ID_LOFT_ID = (s.loftWord 3).toNat % 1024 ∧
    (persFields s).isSet TR_CFG_EXPORT_EN = decide ((s.loftWord 29).toNat % 2 = 1) ∧
    (persFields s).isSet TR_STAT_ZEROISED = decide ((s.loftWord 1).toNat / 2 % 2 = 1) ∧
    (persFields s).isSet TR_STAT_ERASE_PEND = decide ((s.loftWord 1).toNat % 2 = 1) ∧
    (∀ m < 16, (persFields s).rd64 (MB_WM_LO m) = s.loftWord (13 + m)) ∧ persFields s = { s with csr := (persFields s).csr } := by
  rw [persFields_eq]
  have hepoch := epochTaken_epoch s
  have hwork1 := epochTaken_work s
  generalize epochTaken s = a at hepoch hwork1 ⊢
  have hid := idTaken_id a
  have hwork2 := idTaken_work a
  generalize idTaken a = b at hid hwork2 ⊢
  have hexport := exportTaken_export b
  have hwork3 := exportTaken_work b
  generalize exportTaken b = c at hexport hwork3 ⊢
  have hmarks := fun (m : Nat) (hm : m < 16) => marksTaken_rd64 c hm
  have hwork4 := marksTaken_work c
  generalize marksTaken c = d at hmarks hwork4 ⊢
  have hzero := flagsTaken_zeroised d
  have hpend := flagsTaken_pend d
  have hwork5 := flagsTaken_work d
  generalize flagsTaken d = t at hzero hpend hwork5 ⊢
  simp only [hwork4.loftWord, hwork3.loftWord, hwork2.loftWord, hwork1.loftWord] at hid hexport hmarks hzero hpend
  refine ⟨?_, ?_, ?_, hzero, hpend, fun m hm => ?_, ?_⟩
  · exact (hwork5.writes.getF (by decide)).trans ((hwork4.writes.getF (by decide)).trans ((hwork3.writes.getF (by decide)).trans
      ((hwork2.writes.getF (by decide)).trans hepoch)))
  · exact (hwork5.writes.getF (by decide)).trans ((hwork4.writes.getF (by decide)).trans ((hwork3.writes.getF (by decide)).trans hid))
  · exact (hwork5.writes.isSet (by decide)).trans ((hwork4.writes.isSet (by decide)).trans hexport)
  · exact (hwork5.writes.rd64 (by simp only [MB_WM_LO, TR_STAT]; omega) (by simp only [MB_WM_LO, TR_STAT]; omega)).trans (hmarks m hm)
  · rw [hwork5.eqv, hwork4.eqv, hwork3.eqv, hwork2.eqv, hwork1.eqv]

section
variable (s : State) (g : Power → Power)

theorem State.modPower_rd (o : Nat) : (s.modPower g).rd o = s.rd o := rfl

theorem State.modPower_rd64 (o : Nat) : (s.modPower g).rd64 o = s.rd64 o := rfl

theorem State.modPower_getF (f : Fld) : (s.modPower g).getF f = s.getF f := rfl

theorem State.modPower_isSet (f : Fld) : (s.modPower g).isSet f = s.isSet f := rfl

theorem State.modPower_eqv : s.modPower g = { s with power := g s.power } := rfl

end

theorem persFields_kept (s : State) (h : (s.loftWord 1).toNat % 2 = 0) : (persFields s).isSet TR_STAT_ERASE_PEND = false := by
  obtain ⟨-, -, -, -, hpend, -⟩ := persFields_spec s
  rw [hpend, h]
  rfl

theorem exec_bootStart_clean (hboot : s.power.boot = 0) (hbad : s.loftBad = []) (hflag : (s.loftWord 1).toNat % 2 = 0) :
    exec .bootStart s = .next ((persFields s).modPower (fun p => { p with boot := 1 })) := by
  rw [exec_bootStart, execBootStart, if_pos hboot]
  extract_lets bad s1 s2 s3
  have hs1 : s1 = s := by
    show List.foldl _ s s.loftBad = s
    rw [hbad]
    rfl
  have hs2 : s2 = persFields s := congrArg persFields hs1
  have hs3 : s3 = s2 := if_neg (by rw [hs2, persFields_kept s hflag]; decide)
  rw [hs3, hs2]

theorem bootStarted (hboot : s.power.boot = 0) (hbad : s.loftBad = []) (hflag : (s.loftWord 1).toNat % 2 = 0) :
    Completes (exec .bootStart s) fun t => t.power = { s.power with boot := 1 } ∧ t.getF YM_EPOCH_EPOCH = (s.loftWord 2).toNat % 2 ^ 32 ∧
      t.getF FAB_ID_LOFT_ID = (s.loftWord 3).toNat % 1024 ∧ t.isSet TR_CFG_EXPORT_EN = decide ((s.loftWord 29).toNat % 2 = 1) ∧
      t.isSet TR_STAT_ZEROISED = decide ((s.loftWord 1).toNat / 2 % 2 = 1) ∧
      (List.range 16).all (fun m => t.rd64 (MB_WM_LO m) = s.loftWord (13 + m)) = true ∧ t = { s with csr := t.csr, power := t.power } := by
  obtain ⟨hepoch, hid, hexport, hzero, hpend, hmarks, heqv⟩ := persFields_spec s
  rw [exec_bootStart_clean hboot hbad hflag]
  generalize persFields s = v at hepoch hid hexport hzero hmarks heqv ⊢
  have hpower : v.power = s.power := by rw [heqv]
  have hmod := State.modPower_eqv v (fun p => { p with boot := 1 })
  rw [hpower] at hmod
  rw [← State.modPower_getF v (fun p => { p with boot := 1 })] at hepoch hid
  rw [← State.modPower_isSet v (fun p => { p with boot := 1 })] at hexport hzero
  have hwm := fun (m : Nat) (hm : m < 16) => (State.modPower_rd64 v (fun p => { p with boot := 1 }) _).trans (hmarks m hm)
  clear hmarks hpower
  generalize v.modPower (fun p => { p with boot := 1 }) = t at hepoch hid hexport hzero hwm hmod ⊢
  refine ⟨t, rfl, by rw [hmod], hepoch, hid, hexport, hzero, ?_, by rw [hmod, heqv]⟩
  rw [List.all_eq_true]
  exact fun m hm => decide_eq_true (hwm m (List.mem_range.mp hm))

end

end Sys2Proof.Machine

/-!
SUPPORT. Core PLL lock (spec/24 R215, R545): KEK 0 and what the Loft keeps under it restored, the cause of the reset reported, the latches
given out, the sheds of boot asked for.
-/

namespace Sys2Proof.Machine

section
variable {s t u : State}

/-! ### What the Tack room takes back (R215) -/

/-- The registers in which the Tack room shows what it holds. -/
abbrev restoreOff (o : Nat) : Prop := o = TR_STAT ∨ o = TR_PAIR_VALID

/-- The Tack room takes secrets back: SK_OK stays, and no part of the state but the Tack's has changed. -/
structure RestoreWork (s t : State) : Prop where
  writes : Writes restoreOff s t
  ok : t.isSet TR_STAT_SK_OK = s.isSet TR_STAT_SK_OK
  eqv : t = { s with csr := t.csr, tack := t.tack }

theorem RestoreWork.refl (s : State) : RestoreWork s s := ⟨.refl s, rfl, rfl⟩

theorem RestoreWork.trans (h : RestoreWork s t) (g : RestoreWork t u) : RestoreWork s u :=
  ⟨h.writes.trans g.writes, g.ok.trans h.ok, by rw [g.eqv, h.eqv]⟩

theorem RestoreWork.foldl {α : Type} {f : State → α → State} (l : List α) (hf : ∀ u, ∀ a ∈ l, RestoreWork u (f u a)) (s : State) :
    RestoreWork s (l.foldl f s) := by
  induction l generalizing s with
  | nil => exact .refl s
  | cons a l ih =>
    exact (hf s a (List.mem_cons_self ..)).trans (ih (fun u b hb => hf u b (List.mem_cons_of_mem _ hb)) _)

theorem withTack_restoreWork (x : Tack) (s : State) : RestoreWork s { s with tack := x } := ⟨(Writes.refl s).csr rfl, rfl, rfl⟩

/-- A field of the Tack's status beside SK_OK, or the pairings, is written. -/
theorem setF_restoreWork (f : Fld) (v : Nat) (ho : restoreOff f.off) (hok : (s.setF f v).isSet TR_STAT_SK_OK = s.isSet TR_STAT_SK_OK) :
    RestoreWork s (s.setF f v) := ⟨(Writes.refl s).setF ho, hok, rfl⟩

theorem setKek_restoreWork (k : Nat) (v : List Byte) (s : State) : RestoreWork s (setKek k v s) :=
  (withTack_restoreWork _ s).trans (setF_restoreWork TR_STAT_KEK_VALID _ (.inl rfl) (State.isSet_setF_apart _ TR_STAT_KEK_VALID TR_STAT_SK_OK _ rfl))

theorem setPairing_restoreWork (p : Nat) (x : Pairing) (s : State) : RestoreWork s (setPairing p x s) :=
  (withTack_restoreWork _ s).trans
    (setF_restoreWork TR_PAIR_VALID_PAIR_VALID _ (.inr rfl) (State.isSet_congr (State.rd_setF_ne _ TR_PAIR_VALID_PAIR_VALID _ _ (by decide))))

theorem tackRestore_restoreWork (s : State) : RestoreWork s (tackRestore s) := by
  unfold tackRestore
  extract_lets n x s1 s2
  have h1 : RestoreWork s s1 := by
    unfold s1
    split
    · exact .refl s
    · exact (withTack_restoreWork _ s).trans (setF_restoreWork TR_STAT_ID_VALID 1 (.inl rfl) (State.isSet_setF_apart _ TR_STAT_ID_VALID TR_STAT_SK_OK _ rfl))
  have h2 : RestoreWork s1 s2 := by
    refine .foldl _ (fun u k _ => ?_) s1
    split
    · exact setKek_restoreWork ..
    · exact .refl u
  clear_value s2
  refine (h1.trans h2).trans (.foldl _ (fun u p _ => ?_) s2)
  dsimp only
  split
  · exact setPairing_restoreWork ..
  · exact .refl u

/-- KEK 0 is there once it is derived again (R215). -/
theorem kek0Again_ok (hlow : s.tack.zeroLow = false) (hvault : s.tack.zeroVault = false) (hpend : s.isSet TR_STAT_ERASE_PEND = false) :
    (kek0Again s).isSet TR_STAT_SK_OK = true := by
  unfold kek0Again
  rw [hlow, hvault, hpend]
  cases hok : s.isSet TR_STAT_SK_OK with
  | true => exact hok
  | false => exact State.isSet_setF_bit _ TR_STAT_SK_OK rfl (by decide)

theorem deriveKek0_writes (s : State) : Writes restoreOff s (deriveKek0 s) :=
  (setKek_restoreWork 0 (bytesOf 32 Config.kek0) s).writes.setF (.inl rfl)

theorem deriveKek0_eqv (s : State) : deriveKek0 s = { s with csr := (deriveKek0 s).csr, tack := (deriveKek0 s).tack } := by
  have h := (setKek_restoreWork 0 (bytesOf 32 Config.kek0) s).eqv
  unfold deriveKek0
  generalize setKek 0 (bytesOf 32 Config.kek0) s = u at h ⊢
  have hset : u.setF TR_STAT_SK_OK 1 = { u with csr := (u.setF TR_STAT_SK_OK 1).csr } := rfl
  generalize u.setF TR_STAT_SK_OK 1 = v at hset ⊢
  rw [hset, h]

/-- The Tack room at the lock of the core PLL. -/
def tackBooted (s : State) : State := if (kek0Again s).isSet TR_STAT_SK_OK then tackRestore (kek0Again s) else kek0Again s

theorem kek0Again_writes (s : State) : Writes restoreOff s (kek0Again s) := .ite (deriveKek0_writes s) (.refl s)

theorem kek0Again_eqv (s : State) : kek0Again s = { s with csr := (kek0Again s).csr, tack := (kek0Again s).tack } := by
  unfold kek0Again
  split
  · exact deriveKek0_eqv s
  · rfl

theorem tackBooted_eq (h : (kek0Again s).isSet TR_STAT_SK_OK = true) : tackBooted s = tackRestore (kek0Again s) := if_pos h

/-! ### The latches given out (R483) -/

theorem latchesOut_bellWork (s : State) : BellWork s (latchesOut s) := by
  have hfold : ∀ (l : List Nat) (f : State → Nat → State) (u : State), (∀ u, ∀ n ∈ l, BellWork u (f u n)) → BellWork u (l.foldl f u) := by
    intro l f
    induction l with
    | nil => exact fun u _ => .refl u
    | cons a l ih =>
      intro u h
      exact (h u a (List.mem_cons_self ..)).trans (ih _ (fun v b hb => h v b (List.mem_cons_of_mem _ hb)))
  refine hfold _ _ s (fun u n hn => ?_)
  have hlt : n < 1023 := List.mem_range.mp hn
  have hclear : BellWork u (u.setF (SRC_CFG_LATCHED n) 0) := (BellWork.refl u).setF (by simp only [SRC_CFG_LATCHED, SRC_CFG]; omega)
  exact .ite (.ite (.refl u) (hclear.trans (bellSetPend_bellWork n true _))) (.refl u)

/-! ### The sheds of boot asked for (R538, R545) -/

theorem State.shedOn_off (h : s.rd64 PWR_SHED_STAT_LO = 0) (k : Nat) : s.shedOn k = false := by
  unfold State.shedOn State.shedState
  rw [h]
  exact decide_eq_false (by simp)

theorem shedsGoing_off (h : s.rd64 PWR_SHED_STAT_LO = 0) (hresets : s.power.resets = []) (on : Nat) : shedsGoing s on = [] := by
  unfold shedsGoing
  refine List.filter_eq_nil_iff.mpr (fun k _ => ?_)
  rw [State.shedOn_off h, hresets]
  exact Bool.false_ne_true

/-- The sheds that boot asks for. -/
abbrev bootWant : List Nat := List.range 12 ++ (List.range 8).map (· + 16)

theorem shedsRising_boot (h : s.rd64 PWR_SHED_STAT_LO = 0) (hresets : s.power.resets = []) :
    (List.range 32).filter (fun (k : Nat) => maskBit bootSheds k && !s.shedOn k && !s.power.resets.contains k) = bootWant := by
  have hbits : (List.range 32).filter (fun (k : Nat) => maskBit bootSheds k) = bootWant := by decide
  rw [← hbits]
  refine List.filter_congr (fun k _ => ?_)
  rw [State.shedOn_off h, hresets]
  simp

/-- The sheds of boot asked for, none of them on. -/
def shedsAsked (s : State) : State := (s.wr PWR_SHED_REQ (BitVec.ofNat 32 bootSheds)).modPower (fun p =>
  { p with want := bootWant, rising := p.rising.bind (fun k => if bootWant.contains k then some k else none) })

theorem shedCommit_boot (h : s.rd64 PWR_SHED_STAT_LO = 0) (hresets : s.power.resets = []) :
    shedCommit (BitVec.ofNat 32 bootSheds) s = shedsAsked s := by
  have hon : (BitVec.ofNat 32 bootSheds).toNat = bootSheds := by decide
  have hgo := shedsGoing_off h hresets bootSheds
  have href : shedRefusal s bootSheds = none := by
    unfold shedRefusal
    rw [hgo]
    rfl
  unfold shedCommit
  rw [hon]
  dsimp only
  rw [href, hgo, shedsRising_boot h hresets]
  rfl

theorem shedsAsked_rd (s : State) {o : Nat} (h : PWR_SHED_REQ ≠ o) : (shedsAsked s).rd o = s.rd o :=
  (State.modPower_rd _ _ o).trans (State.rd_wr_ne _ _ _ _ h)

theorem shedsAsked_req (s : State) : (shedsAsked s).rd PWR_SHED_REQ = 0x00FF0FFF :=
  (State.modPower_rd _ _ _).trans ((State.rd_wr_same _ _ _).trans (by decide))

theorem shedsAsked_eqv (s : State) : shedsAsked s = { s with csr := (shedsAsked s).csr, power := (shedsAsked s).power } := rfl

theorem shedsAsked_boot (s : State) : (shedsAsked s).power.boot = s.power.boot := rfl

theorem shedsAsked_want (s : State) : (shedsAsked s).power.want = bootWant := rfl

/-! ### Core PLL lock (R545) -/

/-- The cause of the reset reported, and the latches given out. -/
def causeReported (c : Nat) (s : State) : State := latchesOut (s.report unitPower 0x0D03 noPath c)

theorem causeReported_reports (c : Nat) (s : State) : Reports s (causeReported c s) unitPower 0x0D03 noPath c := by
  have hrep := State.report_reports s unitPower 0x0D03 noPath c
  unfold causeReported Reports at *
  rw [(latchesOut_bellWork _).ledger]
  exact hrep

theorem causeReported_rd (c : Nat) (s : State) {o : Nat} (h : quietOff o) : (causeReported c s).rd o = s.rd o :=
  ((latchesOut_bellWork _).rd o (by omega)).trans ((report_quiet s unitPower 0x0D03 noPath c).rd o h)

theorem causeReported_eqv (c : Nat) (s : State) : causeReported c s = { s with
    csr := (causeReported c s).csr, ledger := (causeReported c s).ledger, bell := (causeReported c s).bell, outs := (causeReported c s).outs } := by
  have h1 := (report_quiet s unitPower 0x0D03 noPath c).eqv
  have h2 := (latchesOut_bellWork (s.report unitPower 0x0D03 noPath c)).eqv
  unfold causeReported
  generalize s.report unitPower 0x0D03 noPath c = u at h1 h2 ⊢
  generalize latchesOut u = t at h2 ⊢
  rw [h2, h1]

theorem exec_corePllLock_boot (h : s.power.boot = 1) :
    exec .corePllLock s = .next (shedCommit (BitVec.ofNat 32 bootSheds) (causeReported
      ((tackBooted (s.modPower (fun p => { p with boot := 2 }))).rd PWR_RESET_CAUSE).toNat (tackBooted (s.modPower (fun p => { p with boot := 2 }))))) := by
  rw [exec_corePllLock, execCorePllLock, if_pos h]
  rfl

/-- The power unit and the Tack room as the lock of the core PLL leaves them. -/
theorem tackBooted_spec (hlow : s.tack.zeroLow = false) (hvault : s.tack.zeroVault = false) (hpend : s.isSet TR_STAT_ERASE_PEND = false) :
    (tackBooted s).isSet TR_STAT_SK_OK = true ∧ Writes restoreOff s (tackBooted s) ∧
      tackBooted s = { s with csr := (tackBooted s).csr, tack := (tackBooted s).tack } := by
  have hok := kek0Again_ok hlow hvault hpend
  have hwrites := kek0Again_writes s
  have heqv := kek0Again_eqv s
  rw [tackBooted_eq hok]
  generalize kek0Again s = u at hok hwrites heqv ⊢
  have hwork := tackRestore_restoreWork u
  generalize tackRestore u = t at hwork ⊢
  exact ⟨hwork.ok.trans hok, hwrites.trans hwork.writes, by rw [hwork.eqv, heqv]⟩

theorem corePll_locked (hboot : s.power.boot = 1) (hresets : s.power.resets = []) (hsheds : s.rd64 PWR_SHED_STAT_LO = 0)
    (hlow : s.tack.zeroLow = false) (hvault : s.tack.zeroVault = false) (hpend : s.isSet TR_STAT_ERASE_PEND = false) :
    Completes (exec .corePllLock s) fun t => t.power.boot = 2 ∧ t.isSet TR_STAT_SK_OK = true ∧ t.rd PWR_SHED_REQ = 0x00FF0FFF ∧
      t.power.want = bootWant ∧ Reports s t unitPower 0x0D03 noPath (s.rd PWR_RESET_CAUSE).toNat ∧ t.cores = s.cores ∧ t.pos = s.pos ∧
      t.chans = s.chans := by
  rw [exec_corePllLock_boot hboot]
  have hmod := State.modPower_eqv s (fun p => { p with boot := 2 })
  have hrd := State.modPower_rd s (fun p => { p with boot := 2 })
  generalize s.modPower (fun p => { p with boot := 2 }) = a at hmod hrd ⊢
  have hkept : a.tack = s.tack ∧ a.power.boot = 2 ∧ a.power.resets = s.power.resets ∧ a.ledger = s.ledger ∧
      a.cores = s.cores ∧ a.pos = s.pos ∧ a.chans = s.chans := by
    rw [hmod]
    exact ⟨rfl, rfl, rfl, rfl, rfl, rfl, rfl⟩
  obtain ⟨htack, hboot2, hres, hledger, hcores, hpos, hchans⟩ := hkept
  obtain ⟨hok, hwrites, heqv⟩ := tackBooted_spec (s := a) (by rw [htack, hlow]) (by rw [htack, hvault]) ((State.isSet_congr (hrd _)).trans hpend)
  generalize tackBooted a = b at hok hwrites heqv ⊢
  have hwork : Writes restoreOff s b := fun o ho => (hwrites o ho).trans (hrd o)
  have hkept : b.power = a.power ∧ b.ledger = a.ledger ∧ b.cores = a.cores ∧ b.pos = a.pos ∧ b.chans = a.chans := by
    rw [heqv]
    exact ⟨rfl, rfl, rfl, rfl, rfl⟩
  obtain ⟨hbpower, hbledger, hbcores, hbpos, hbchans⟩ := hkept
  rw [hwork PWR_RESET_CAUSE (by decide)]
  have hsame : SameReporter unitPower s b := hwork.sameReporter (fun o ho => by
    rcases ho with rfl | rfl | rfl <;> decide) (by rw [hbledger, hledger])
  have hrep := hsame.reports (causeReported_reports (s.rd PWR_RESET_CAUSE).toNat b)
  have hcrd : ∀ {o}, quietOff o → (causeReported (s.rd PWR_RESET_CAUSE).toNat b).rd o = b.rd o := causeReported_rd _ b
  have hceqv := causeReported_eqv (s.rd PWR_RESET_CAUSE).toNat b
  generalize causeReported (s.rd PWR_RESET_CAUSE).toNat b = c at hrep hcrd hceqv ⊢
  have hkept : c.power = b.power ∧ c.cores = b.cores ∧ c.pos = b.pos ∧ c.chans = b.chans := by
    rw [hceqv]
    exact ⟨rfl, rfl, rfl, rfl⟩
  obtain ⟨hcpower, hccores, hcpos, hcchans⟩ := hkept
  have hoff : c.rd64 PWR_SHED_STAT_LO = 0 :=
    (State.rd64_congr (hcrd (by decide)) (hcrd (by decide))).trans ((hwork.rd64 (by decide) (by decide)).trans hsheds)
  rw [shedCommit_boot hoff (by rw [hcpower, hbpower, hres, hresets])]
  have hask := shedsAsked_eqv c
  have hwant := shedsAsked_want c
  have hbooted := shedsAsked_boot c
  have hreq := shedsAsked_req c
  have hsk := State.isSet_congr (f := TR_STAT_SK_OK) (shedsAsked_rd c (o := TR_STAT) (by decide))
  generalize shedsAsked c = t at hask hwant hbooted hreq hsk ⊢
  have hkept : t.ledger = c.ledger ∧ t.cores = c.cores ∧ t.pos = c.pos ∧ t.chans = c.chans := by
    rw [hask]
    exact ⟨rfl, rfl, rfl, rfl⟩
  obtain ⟨htledger, htcores, htpos, htchans⟩ := hkept
  refine ⟨t, rfl, by rw [hbooted, hcpower, hbpower, hboot2], hsk.trans ((State.isSet_congr (hcrd (by decide))).trans hok), hreq, hwant, ?_, ?_, ?_, ?_⟩
  · unfold Reports at hrep ⊢
    rw [htledger]
    exact hrep
  · rw [htcores, hccores, hbcores, hcores]
  · rw [htpos, hcpos, hbpos, hpos]
  · rw [htchans, hcchans, hbchans, hchans]

end

end Sys2Proof.Machine

/-!
SUPPORT. Firmware ready, and the self-test failed (spec/24 R545, R548, spec/20 R459, spec/22 R516).
-/

namespace Sys2Proof.Machine

section
variable {s t u : State}

/-! ### Paddock's owners and the units in custody (R459) -/

/-- The owners of Paddock's banks as boot gives them. -/
def ownersGiven (lead : Nat) (s : State) : State :=
  (List.range 512).foldl (fun (s : State) (b : Nat) => s.setF (PADK_OWNER_OWNER b) (bootOwner lead (65 - lead) b)) s

/-- Drays 24 to 31 in custody. -/
def custGiven (s : State) : State := (List.range 8).foldl (fun (s : State) (i : Nat) => s.setF (DRAY_CTL_CUST (24 + i)) 1) s

/-- The registers of Paddock's owners. -/
abbrev ownerOff (o : Nat) : Prop := 0x29001000 ≤ o ∧ o < 0x29001800

/-- The registers of the Drays. -/
abbrev drayOff (o : Nat) : Prop := 0x28001000 ≤ o ∧ o < 0x28002000

theorem ownersGiven_work (lead : Nat) (s : State) : CsrWork ownerOff s (ownersGiven lead s) :=
  .foldl _ (fun u b hb => (CsrWork.refl u).setF (by
    have h := List.mem_range.mp hb
    simp only [PADK_OWNER_OWNER, PADK_OWNER]
    omega)) s

theorem custGiven_work (s : State) : CsrWork drayOff s (custGiven s) :=
  .foldl _ (fun u i hi => (CsrWork.refl u).setF (by
    have h := List.mem_range.mp hi
    simp only [DRAY_CTL_CUST, DRAY_CTL]
    omega)) s

theorem ownersGiven_owner (lead : Nat) (s : State) {b : Nat} (h : b < 512) :
    (ownersGiven lead s).getF (PADK_OWNER_OWNER b) = bootOwner lead (65 - lead) b % 64 := by
  have hother : ∀ (u : State) (i j : Nat), i ≠ j →
      (u.setF (PADK_OWNER_OWNER j) (bootOwner lead (65 - lead) j)).getF (PADK_OWNER_OWNER i) = u.getF (PADK_OWNER_OWNER i) :=
    fun u i j hij => State.getF_setF_ne _ _ _ _ (by simp only [PADK_OWNER_OWNER, PADK_OWNER]; omega)
  obtain ⟨u, -, hend⟩ := rangeFold_view (q := fun i u => u.getF (PADK_OWNER_OWNER i)) hother h s
  exact hend.trans (State.getF_setF_same _ (PADK_OWNER_OWNER b) _ (show 0 ≤ 5 by decide) (show 5 < 32 by decide))

theorem custGiven_cust (s : State) {i : Nat} (h : i < 8) : (custGiven s).isSet (DRAY_CTL_CUST (24 + i)) = true := by
  have hother : ∀ (u : State) (i j : Nat), i ≠ j → (u.setF (DRAY_CTL_CUST (24 + j)) 1).isSet (DRAY_CTL_CUST (24 + i)) = u.isSet (DRAY_CTL_CUST (24 + i)) :=
    fun u i j hij => State.isSet_congr (State.rd_setF_ne _ _ _ _ (by simp only [DRAY_CTL_CUST, DRAY_CTL]; omega))
  obtain ⟨u, -, hend⟩ := rangeFold_view (q := fun i u => u.isSet (DRAY_CTL_CUST (24 + i))) hother h s
  exact hend.trans (State.isSet_setF_bit _ (DRAY_CTL_CUST (24 + i)) rfl (show 30 < 32 by decide))

theorem bootOwner_dma (lead : Nat) {b : Nat} (h : b < 64) : bootOwner lead (65 - lead) b % 64 = 40 + b / 8 := by
  unfold bootOwner
  rw [if_pos h]
  omega

theorem bootOwner_lead {lead : Nat} (hlead : lead < 64) {b : Nat} (h : b = 508 ∨ b = 509 ∨ b = 510) : bootOwner lead (65 - lead) b % 64 = lead := by
  unfold bootOwner
  rw [if_neg (by omega), if_pos h]
  exact Nat.mod_eq_of_lt hlead

theorem bootOwner_standby {lead : Nat} (hlead : 2 ≤ lead) : bootOwner lead (65 - lead) 511 % 64 = 65 - lead := by
  unfold bootOwner
  rw [if_neg (by decide), if_neg (by decide), if_pos rfl]
  omega

/-! ### The marks of the Loft's rings, and the host told (R240, R545) -/

theorem marksRestore_eqv (s : State) : marksRestore s = { s with chans := (marksRestore s).chans } := by
  have hfold : ∀ (l : List Nat) (f : State → Nat → State), (∀ u, ∀ n ∈ l, f u n = { u with chans := (f u n).chans }) → ∀ u : State,
      l.foldl f u = { u with chans := (l.foldl f u).chans } := by
    intro l f
    induction l with
    | nil => exact fun _ u => rfl
    | cons a l ih =>
      intro h u
      have h1 := h u a (List.mem_cons_self ..)
      have h2 := ih (fun v b hb => h v b (List.mem_cons_of_mem _ hb)) (f u a)
      rw [List.foldl_cons]
      generalize f u a = v at h1 h2 ⊢
      rw [h2, h1]
  refine hfold _ _ (fun u n _ => ?_) s
  split <;> rfl

theorem restored_eqv (h : t = { u with chans := t.chans }) (g : u = { s with csr := u.csr }) : t = { s with csr := t.csr, chans := t.chans } := by
  rw [h, g]

/-- What the host is told, and the fields that say that the firmware runs. -/
def fwTold (s : State) : State := (hostEvt HOST_EVT_FW_READY { s with ym := { s.ym with fwReady := true } }).modPower (fun p => { p with boot := 3 })

theorem hostEvt_outs (f : Fld) (s : State) : hostEvt f s = { s.setF f 1 with outs := (hostEvt f s).outs } := by
  unfold hostEvt
  extract_lets s1
  show (if _ then s1.emit _ else s1) = { s1 with outs := _ }
  clear_value s1
  split <;> rfl

theorem fwTold_eq (s : State) :
    (hostEvt HOST_EVT_FW_READY { s with ym := { s.ym with fwReady := true } }).modPower (fun p => { p with boot := 3 }) = fwTold s := rfl

theorem fwTold_rd (s : State) {o : Nat} (h : HOST_EVT ≠ o) : (fwTold s).rd o = s.rd o := by
  have hcsr : (hostEvt HOST_EVT_FW_READY { s with ym := { s.ym with fwReady := true } }).csr = (({ s with ym := { s.ym with fwReady := true } } : State).setF HOST_EVT_FW_READY 1).csr := by
    rw [hostEvt_outs]
  unfold fwTold
  rw [State.modPower_rd, State.rd_of_csr hcsr, State.rd_setF_ne _ HOST_EVT_FW_READY _ _ h]
  rfl

theorem fwTold_event (s : State) : (fwTold s).isSet HOST_EVT_FW_READY = true := by
  unfold fwTold
  rw [State.modPower_isSet, hostEvt_outs]
  exact State.isSet_setF_bit _ HOST_EVT_FW_READY rfl (by decide)

theorem fwTold_eqv (s : State) : fwTold s = { s with
    csr := (fwTold s).csr, outs := (fwTold s).outs, ym := { s.ym with fwReady := true }, power := { s.power with boot := 3 } } := by
  have h := hostEvt_outs HOST_EVT_FW_READY { s with ym := { s.ym with fwReady := true } }
  unfold fwTold
  generalize hostEvt HOST_EVT_FW_READY { s with ym := { s.ym with fwReady := true } } = u at h ⊢
  rw [State.modPower_eqv, h]
  rfl

/-- Bell, and the pin FAULT_N, lead from `s` to `t`. -/
structure PinWork (s t : State) : Prop where
  writes : Writes (fun o => bellOff o ∨ o = LEDGER_STAT) s t
  eqv : t = { s with csr := t.csr, bell := t.bell, outs := t.outs }

theorem PinWork.trans (h : PinWork s t) (g : PinWork t u) : PinWork s u := ⟨h.writes.trans g.writes, by rw [g.eqv, h.eqv]⟩

theorem bellInput_pinWork (n : Nat) (l : Bool) (s : State) : PinWork s (bellInput n l s) :=
  ⟨fun o ho => (bellInput_bellWork n l s).rd o (fun h => ho (.inl h)), (bellInput_bellWork n l s).eqv⟩

theorem faultPin_pinWork (s : State) : PinWork s (faultPin s) := by
  obtain ⟨hwrites, heqv⟩ := faultPin_spec s
  generalize faultPin s = t at hwrites heqv ⊢
  have hbell : t.bell = s.bell := by rw [heqv]
  exact ⟨hwrites.mono (fun _ => .inr), by rw [hbell]; exact heqv⟩

theorem ledgerLines_pinWork (s : State) : PinWork s (ledgerLines s) := by
  unfold ledgerLines
  extract_lets s1 th s2
  have h1 : PinWork s s1 := ((bellInput_pinWork 721 _ s).trans (bellInput_pinWork 722 _ _)).trans (bellInput_pinWork 723 _ _)
  have h2 : PinWork s1 s2 := bellInput_pinWork 724 _ s1
  clear_value s2
  exact ((h1.trans h2).trans (bellInput_pinWork 725 _ s2)).trans (faultPin_pinWork _)

/-! ### Firmware ready (R545) -/

/-- The banks, the units and the marks as boot gives them. -/
def fwBooted (s : State) : State := marksRestore ((custGiven (ownersGiven (32 + s.getF YM_ARB_HOLDER) s)).setF FARR_STAT_POST_DONE 1)

theorem exec_fwReady_boot (hboot : s.power.boot = 2) (hfail : s.isSet FARR_STAT_POST_FAIL = false) (hheld : s.isSet YM_ARB_HELD = true)
    (hsheds : shedsSettled s = true) : exec (.fwReady none) s = .next (ledgerLines (fwTold (fwBooted s))) := by
  rw [exec_fwReady, execFwReady, if_pos ⟨hboot, by rw [hfail]; rfl⟩]
  generalize hc : (s.isSet YM_ARB_HELD && shedsSettled s) = ready
  obtain rfl : ready = true := by rw [← hc, hheld, hsheds]; rfl
  refine (if_pos rfl).trans ?_
  extract_lets lead a b c ym d
  have hc : c = fwBooted s := rfl
  clear_value c
  exact congrArg (fun u => Host.Outcome.next (ledgerLines u)) ((fwTold_eq c).trans (congrArg fwTold hc))

theorem fwBooted_spec (s : State) : (∀ b < 512, (fwBooted s).getF (PADK_OWNER_OWNER b) = bootOwner (32 + s.getF YM_ARB_HOLDER) (65 - (32 + s.getF YM_ARB_HOLDER)) b % 64) ∧
    (∀ i < 8, (fwBooted s).isSet (DRAY_CTL_CUST (24 + i)) = true) ∧ (fwBooted s).isSet FARR_STAT_POST_DONE = true ∧
    fwBooted s = { s with csr := (fwBooted s).csr, chans := (fwBooted s).chans } := by
  unfold fwBooted
  generalize 32 + s.getF YM_ARB_HOLDER = lead
  have howner := fun (b : Nat) (hb : b < 512) => ownersGiven_owner lead s hb
  have heqv1 := (ownersGiven_work lead s).eqv
  generalize ownersGiven lead s = a at howner heqv1 ⊢
  have hcust := fun (i : Nat) (hi : i < 8) => custGiven_cust a hi
  have hwork := custGiven_work a
  generalize custGiven a = b at hcust hwork ⊢
  have hdone := State.isSet_setF_bit b FARR_STAT_POST_DONE rfl (by decide)
  have hwork2 : CsrWork (· = FARR_STAT) b (b.setF FARR_STAT_POST_DONE 1) := (CsrWork.refl b).setF rfl
  generalize b.setF FARR_STAT_POST_DONE 1 = c at hdone hwork2 ⊢
  have hmarks := marksRestore_eqv c
  generalize marksRestore c = t at hmarks ⊢
  have hrd : ∀ o, t.rd o = c.rd o := State.rd_of_csr (by rw [hmarks])
  have hb : b = { s with csr := b.csr } := by rw [hwork.eqv, heqv1]
  have hc : c = { s with csr := c.csr } := by rw [hwork2.eqv, hb]
  refine ⟨fun i hi => ?_, fun i hi => ?_, (State.isSet_congr (hrd _)).trans hdone, restored_eqv hmarks hc⟩
  · refine (State.getF_congr (hrd _)).trans ((hwork2.writes.getF ?_).trans ((hwork.writes.getF ?_).trans (howner i hi)))
    · simp only [PADK_OWNER_OWNER, PADK_OWNER, FARR_STAT]
      omega
    · simp only [PADK_OWNER_OWNER, PADK_OWNER]
      omega
  · refine (State.isSet_congr (hrd _)).trans ((hwork2.writes.isSet ?_).trans (hcust i hi))
    simp only [DRAY_CTL_CUST, DRAY_CTL, FARR_STAT]
    omega

theorem firmware_ready (hboot : s.power.boot = 2) (hfail : s.isSet FARR_STAT_POST_FAIL = false) (hheld : s.isSet YM_ARB_HELD = true)
    (hsheds : shedsSettled s = true) : Completes (exec (.fwReady none) s) fun t => t.power.boot = 3 ∧ t.ym.fwReady = true ∧
      t.isSet FARR_STAT_POST_DONE = true ∧ t.isSet HOST_EVT_FW_READY = true ∧
      (List.range 64).all (fun b => t.getF (PADK_OWNER_OWNER b) = 40 + b / 8) = true ∧
      [508, 509, 510].all (fun b => t.getF (PADK_OWNER_OWNER b) = 32 + s.getF YM_ARB_HOLDER) = true ∧
      t.getF (PADK_OWNER_OWNER 511) = 33 - s.getF YM_ARB_HOLDER ∧
      (List.range 8).all (fun i => t.isSet (DRAY_CTL_CUST (24 + i))) = true ∧ t.cores = s.cores ∧ t.pos = s.pos := by
  have hholder : s.getF YM_ARB_HOLDER < 2 := State.getF_lt s YM_ARB_HOLDER
  rw [exec_fwReady_boot hboot hfail hheld hsheds]
  obtain ⟨howner, hcust, hdone, heqv⟩ := fwBooted_spec s
  generalize fwBooted s = a at howner hcust hdone heqv ⊢
  have htold := fun (o : Nat) (h : HOST_EVT ≠ o) => fwTold_rd a h
  have hevent := fwTold_event a
  have heqv2 := fwTold_eqv a
  generalize fwTold a = b at htold hevent heqv2 ⊢
  have hlines := ledgerLines_pinWork b
  generalize ledgerLines b = t at hlines ⊢
  have hrd : ∀ o, o < 0x2A000000 ∨ o = FARR_STAT → t.rd o = a.rd o := fun o ho => by
    refine (hlines.writes o ?_).trans (htold o ?_)
    · simp only [FARR_STAT, LEDGER_STAT] at ho ⊢
      omega
    · simp only [FARR_STAT, HOST_EVT] at ho ⊢
      omega
  have hbank : ∀ b < 512, t.getF (PADK_OWNER_OWNER b) = bootOwner (32 + s.getF YM_ARB_HOLDER) (65 - (32 + s.getF YM_ARB_HOLDER)) b % 64 := fun b hb =>
    (State.getF_congr (hrd _ (.inl (by simp only [PADK_OWNER_OWNER, PADK_OWNER]; omega)))).trans (howner b hb)
  have hkept : t.power.boot = 3 ∧ t.ym.fwReady = true ∧ t.cores = s.cores ∧ t.pos = s.pos := by
    rw [hlines.eqv, heqv2, heqv]
    exact ⟨rfl, rfl, rfl, rfl⟩
  obtain ⟨hpower, hym, hcores, hpos⟩ := hkept
  refine ⟨t, rfl, hpower, hym, (State.isSet_congr (hrd _ (.inr rfl))).trans hdone, (hlines.writes.isSet (by decide)).trans hevent, ?_, ?_, ?_, ?_, hcores, hpos⟩
  · exact List.all_eq_true.mpr fun b hb => by
      have hb := List.mem_range.mp hb
      exact decide_eq_true ((hbank b (by omega)).trans (bootOwner_dma _ hb))
  · exact List.all_eq_true.mpr fun b hb => by
      have hb : b = 508 ∨ b = 509 ∨ b = 510 := by simpa using hb
      exact decide_eq_true ((hbank b (by omega)).trans (bootOwner_lead (by omega) hb))
  · refine (hbank 511 (by decide)).trans ((bootOwner_standby (by omega)).trans ?_)
    omega
  · exact List.all_eq_true.mpr fun i hi => by
      have hi := List.mem_range.mp hi
      exact (State.isSet_congr (hrd _ (.inl (by simp only [DRAY_CTL_CUST, DRAY_CTL]; omega)))).trans (hcust i hi)

/-! ### The self-test failed (R548) -/

theorem postFail_quiet (n : Nat) (s : State) : Quiet (s.setF FARR_STAT_POST_FAIL 1) (postFail n s) := (report_quiet _ _ _ _ _).trans (bellPulse_quiet _ _)

theorem postFail_reports (n : Nat) (s : State) : Reports s (postFail n s) unitFarrier 0x0F04 noPath n := by
  have hsame : SameReporter unitFarrier s (s.setF FARR_STAT_POST_FAIL 1) :=
    ((Writes.refl s).setF (P := (· = FARR_STAT)) (f := FARR_STAT_POST_FAIL) rfl).sameReporter (fun o ho => by
      rcases ho with rfl | rfl | rfl <;> decide) (by rw [State.setF_ledger])
  have hrep := hsame.reports (State.report_reports (s.setF FARR_STAT_POST_FAIL 1) unitFarrier 0x0F04 noPath n)
  unfold postFail Reports at *
  rw [bellPulse_ledger]
  exact hrep

theorem postFail_eqv (n : Nat) (s : State) : postFail n s = { s with
    csr := (postFail n s).csr, ledger := (postFail n s).ledger, bell := (postFail n s).bell, outs := (postFail n s).outs } := by
  have h := (postFail_quiet n s).eqv
  have hset : s.setF FARR_STAT_POST_FAIL 1 = { s with csr := (s.setF FARR_STAT_POST_FAIL 1).csr } := rfl
  generalize s.setF FARR_STAT_POST_FAIL 1 = u at h hset
  generalize postFail n s = t at h ⊢
  rw [h, hset]

theorem selfTest_failed (n : Fin 8) (hboot : s.power.boot = 2) (hfail : s.isSet FARR_STAT_POST_FAIL = false) :
    Completes (exec (.fwReady (some n)) s) fun t => t.isSet FARR_STAT_POST_FAIL = true ∧ t.power = s.power ∧
      Reports s t unitFarrier 0x0F04 noPath n.val ∧ t = { s with csr := t.csr, ledger := t.ledger, bell := t.bell, outs := t.outs } := by
  have hrun : exec (.fwReady (some n)) s = .next (postFail n.val s) := by
    rw [exec_fwReady, execFwReady, if_pos ⟨hboot, by rw [hfail]; rfl⟩]
  rw [hrun]
  have hset := (State.isSet_congr (f := FARR_STAT_POST_FAIL) ((postFail_quiet n.val s).rd _ (by decide))).trans (State.isSet_setF_bit s FARR_STAT_POST_FAIL rfl (by decide))
  have hrep := postFail_reports n.val s
  have heqv := postFail_eqv n.val s
  generalize postFail n.val s = t at hset hrep heqv ⊢
  exact ⟨t, rfl, hset, by rw [heqv], hrep, heqv⟩

end

end Sys2Proof.Machine

/-!
PROOF. Reset inputs, boot, writes of the Loft, clocks, SMBus and JTAG.
-/

namespace Sys2Proof.Machine

section
variable {s : State}

/-- A word of the Loft counted up by one, and nothing beside it (R552). -/
abbrev LoftCounted (w : Nat) (s t : State) : Prop := t.loftWord w = s.loftWord w + 1 ∧
  BytesIn (fun a => a < loftBase + 8 * w || loftBase + 8 * w + 8 ≤ a) s t ∧ tblGet 0 w t.wear = tblGet 0 w s.wear + 1 ∧
  t = { s with csr := t.csr, mem := t.mem, wear := t.wear, loftBad := t.loftBad, loftWarned := t.loftWarned, ledger := t.ledger }

theorem thermalExcursion_counted (s : State) : Completes (exec .thermalExcursion s) (LoftCounted 31 s) := ⟨_, rfl, loftCounted 31 s⟩

theorem powerOnHours_counted (s : State) : Completes (exec .powerOnHours s) (LoftCounted 30 s) := ⟨_, rfl, loftCounted 30 s⟩

/-- An instruction that lets the boundary register drive the balls (R534). -/
theorem jtag_driven {i : JtagInstr} (h : exec (.jtagInstruction i) s = .next (ballsTo 1 s)) :
    Completes (exec (.jtagInstruction i) s) fun t => t = ballsDriven s :=
  ⟨_, h, ballsTo_one s⟩

end

/-- Settles O39: each input is one of the lemmas above; boot is taken apart into its stages, and what a stage writes is read off its own
registers. -/
theorem resetResults : Obligations.ResetResults := by
  intro s n e q fails code addr balls x wears inLoft reset pcie drives balled word
  exact ⟨porst_reset s, brownout_reset s, wrst_reset s, ⟨_, rfl, rfl⟩, pcieLinkUp_trained, ⟨_, rfl, rfl⟩, bootStarted, corePll_locked,
    firmware_ready, selfTest_failed n, loftWriteDone_done, fun hnext _ => loftWriteDone_failed hnext, budgetRefilled s, sysLost_muted,
    sysRelocked, thermalExcursion_counted s, powerOnHours_counted s, smbus_block, ⟨_, rfl, rfl⟩, ⟨_, rfl, rfl⟩, ⟨_, rfl, rfl⟩,
    jtag_driven rfl, jtag_driven rfl, jtag_driven rfl, jtag_driven rfl, jtag_fenced (.inl rfl), jtag_fenced (.inr (.inl rfl)),
    jtag_fenced (.inr (.inr ⟨x, rfl⟩)), jtag_stopped, ⟨_, rfl, rfl⟩, ⟨_, rfl, rfl⟩⟩

end Sys2Proof.Machine
